-- ==== Sys2Proof/Word.lean ====
section
/-! DEFINITION. The word types and the numbering of the unit's parts (spec 00 R3, R9). -/

namespace Sys2Proof

abbrev Byte := BitVec 8
abbrev Half := BitVec 16
abbrev W32 := BitVec 32
abbrev W64 := BitVec 64

/-- The two cores (R9). -/
inductive CoreId where
  | a | b
  deriving DecidableEq, Repr

/-- The two host ports (R9). -/
inductive PortId where
  | h0 | h1
  deriving DecidableEq, Repr

/-- A PCIe function: its port and the core that serves it (R9). -/
structure FnId where
  port : PortId
  core : CoreId
  deriving DecidableEq, Repr

/-- Seat number 0 to 63 (R9). -/
abbrev Seat := Fin 64
/-- Islet number 0 to 128; 0 is the unit itself (R9). -/
abbrev IsletNo := Fin 129
/-- Transfer engine 0 to 31 of a core (R9). -/
abbrev TeNo := Fin 32
/-- Yelcy general register g0 to g31. -/
abbrev Reg := Fin 32
/-- Wait token t0 to t7. -/
abbrev Tok := Fin 8
/-- Unit head number 0 to 127 (R9). -/
abbrev HeadNo := Fin 128
/-- Root port 1 to 8 is held as p - 1 (R9). -/
abbrev RootPort := Fin 8
/-- Power domain 0 to 27 of a core (spec 11, "Power domains"). -/
abbrev DomainNo := Fin 28

/-- A power supply: A on feed A, B on feed B (R9). -/
inductive SupplyId where
  | sa | sb
  deriving DecidableEq, Repr

/-- The six tunnels of a strait link (R190). -/
inductive Tunnel where
  | ctrl | sync | usb | iso | disp | net
  deriving DecidableEq, Repr

/-- The two consoles that share one session (R373). -/
inductive ConsPort where
  | rj45 | usbc
  deriving DecidableEq, Repr

/-- The four command register sets of a port (R407). -/
inductive CmdSet where
  | islet | unitProgram | dockKey | unitCmd
  deriving DecidableEq, Repr

/-- A memory BAR of a function (R28). -/
inductive Bar where
  | bar0 | bar2 | bar4
  deriving DecidableEq, Repr

/-- Who writes a register: a host function, or a unit-level program of a core through the
unit-registers window (R95). The supervisor writes as a program of its core does. -/
inductive Via where
  | host (f : FnId)
  | prog (c : CoreId)
  deriving DecidableEq, Repr

end Sys2Proof
end

