-- ==== Sys2Proof/Syntax.lean ====
section
/-! DEFINITION. The commands: one constructor per row of spec/opcode_table.json, in the table's order.
Every timed row carries `ut`, the unit time in ns at which it occurs (log entry 1). -/

namespace Sys2Proof

/-- What the cable test finds on a pair, with a distance in metres (R383). -/
inductive CableResult where
  | ok | open_ (m : Nat) | short (m : Nat) | crossed
  deriving DecidableEq, Repr

/-- What ended a function's service (R54). -/
inductive LinkLoss where
  | linkDown | d3hot | hotReset
  deriving DecidableEq, Repr

/-- What the serving core tells the twin about a protected islet (R83). -/
inductive ShadowUpdate where
  | consumer (q : Fin 512)
  | record (r : Fin 256)
  | written (r : Fin 256)
  deriving DecidableEq, Repr

/-- What detection finds on a seat port (R296, R297): the requested class of a valid signature,
dual signature or not, and which pairsets answered. -/
structure PdSig where
  valid : Bool
  classReq : Fin 9
  dual : Bool
  pairsetA : Bool
  pairsetB : Bool
  deriving DecidableEq, Repr

/-- How a start step ends (R319, R320, R323). `fenceA`, `fenceB`: a DRAM channel of that core failed
(steps 2 and 3). `fail`: the signature check (step 1), the referee handshake (step 4). `lanes`: lanes up
after step 5. `phyFail`: quads that failed step 6. -/
structure StepResult where
  ok : Bool
  fenceA : Bool
  fenceB : Bool
  lanes : BitVec 16
  phyFail : BitVec 16
  deriving DecidableEq, Repr

/-- One fabric cell offered at an input in a cell time (R249, R251): up to 64 bytes of a frame, of which the first cell
starts with the fabric header (R247). `pcsError`: the PCS reported an error inside the strait frame (07 R189). -/
structure CellIn where
  input : Fin 160
  first : Bool
  last : Bool
  bytes : List Byte
  pcsError : Bool
  deriving DecidableEq, Repr

/-- The region in which an uncorrectable DRAM error lies (R355). -/
inductive DramRegion where
  | refFrame (h : HeadNo)
  | mirror (h : HeadNo)
  | sliceStore (h : HeadNo)
  | isw (i : IsletNo) (line : Nat)
  | supervisor
  | other
  deriving DecidableEq, Repr

/-- Where a correctable error was found (R354). -/
inductive EccPlace where
  | dram (channel : Fin 6)
  | outputBuffer
  deriving DecidableEq, Repr

/-- The four allotment registers of a seat and the host share of an islet (R287). -/
inductive AllotReg where
  | tunnelWeights (s : Seat)
  | policeCommitted (s : Seat)
  | policePeak (s : Seat)
  | shapeCommitted (s : Seat)
  | shapePeak (s : Seat)
  | power (s : Seat)
  | hostShare (i : IsletNo)
  deriving DecidableEq, Repr

/-- The islet bound words (R288). -/
inductive BoundReg where
  | weights | rates | hostPower
  deriving DecidableEq, Repr

/-- The condition timers of R317. -/
inductive CondTimer where
  | supply (x : SupplyId)
  | fan (n : Fin 6)
  deriving DecidableEq, Repr

/-- The enables of a function that its host sets (R28, R41). -/
structure PcieEnables where
  bme : Bool
  pasidEn : Bool
  msixEn : Bool
  deriving DecidableEq, Repr

/-- The Device Control fields that the host sets: Max Payload Size (128 to 512 B) and Max Read Request Size (128 to
4,096 B) as powers of two above 128, the completion timeout, and ECRC (R27). -/
structure PcieControl where
  payload : Fin 3
  readReq : Fin 6
  timeoutMs : Nat
  ecrc : Bool
  deriving DecidableEq, Repr

/-- The link as it was negotiated: generation 1 to 6, and width 8, 4, 2 or 1 (R27). -/
structure PcieLink where
  gen : Fin 6
  width : Fin 4
  deriving DecidableEq, Repr

/-- A line that has trained, with the pair swaps and polarities that its PHY corrected (11 R302). -/
structure TrainedLine where
  seat : Seat
  pairs : BitVec 6
  deriving DecidableEq, Repr

inductive Instr where
  -- host ports, managers and islets
  | managerControlWrite (f : FnId) (v : W32)
  | managerLeaseRenew (f : FnId)
  | leaseExpiry (p : PortId) (ut : Nat)
  | semAcquireRead (f : FnId) (n : Fin 64) (tie : Bool)
  | semRelease (f : FnId) (n : Fin 64)
  | create (f : FnId) (islet : Byte)
  | quiesce (f : FnId) (islet : Byte)
  | resume (f : FnId) (islet : Byte)
  | reset (f : FnId) (islet : Byte)
  | destroy (f : FnId) (islet : Byte)
  | setSeats (f : FnId) (islet : Byte)
  | isletCmdBadOpcode (f : FnId) (opcode : Byte) (islet : Byte)
  | descriptorReadCompletion (p : PortId) (set : CmdSet) (data : Option (List Byte))
  | busMasterWaitTimeout (p : PortId) (set : CmdSet) (ut : Nat)
  | busMasterEnableSet (f : FnId)
  | isletDrained (i : IsletNo)
  | hostLinkDown (f : FnId) (why : LinkLoss)
  | hostLinkUp (f : FnId) (en : PcieEnables) (ctl : PcieControl) (link : PcieLink)
  | pairedTrafficReturn (i : IsletNo) (c : CoreId)
  | pasidEnableCleared (f : FnId)
  | perstAsserted (p : PortId)
  | hostReadCompletion (id : Nat) (data : Option (List Byte))
  | completionTimeout (id : Nat)
  | completionWriteFault (c : CoreId) (i : IsletNo) (r : Fin 256)
  -- work queues
  | doorbellPost (f : FnId) (off : Nat) (data : List Byte)
  | doorbellInvalidate (f : FnId) (off : Nat) (data : List Byte)
  | queueConfigWrite (f : FnId) (i : IsletNo) (q : Fin 512) (v : W64)
  | ringConfigWrite (f : FnId) (i : IsletNo) (r : Fin 256) (v : W64)
  | ringManagerConsumerWrite (f : FnId) (i : IsletNo) (r : Fin 256) (v : W64)
  | cqConsumerWrite (f : FnId) (i : IsletNo) (r : Fin 256) (v : W64)
  | shadowConsumerLapse (i : IsletNo) (c : CoreId) (r : Fin 256) (ut : Nat)
  | entryFetchDone (c : CoreId) (i : IsletNo) (q : Fin 512) (data : Option (List Byte))
  | entryTake (c : CoreId) (i : IsletNo) (q : Fin 512)
  | nop (c : CoreId) (h : Nat)
  | ringWriterPass (c : CoreId) (i : IsletNo) (r : Fin 256)
  | shadowRecordUpdate (c : CoreId) (i : IsletNo) (u : ShadowUpdate)
  -- Yelcy
  | add (c : CoreId) (t : TeNo) (rd ra rb : Reg)
  | sub (c : CoreId) (t : TeNo) (rd ra rb : Reg)
  | and (c : CoreId) (t : TeNo) (rd ra rb : Reg)
  | or (c : CoreId) (t : TeNo) (rd ra rb : Reg)
  | xor (c : CoreId) (t : TeNo) (rd ra rb : Reg)
  | sll (c : CoreId) (t : TeNo) (rd ra rb : Reg)
  | srl (c : CoreId) (t : TeNo) (rd ra rb : Reg)
  | sra (c : CoreId) (t : TeNo) (rd ra rb : Reg)
  | slt (c : CoreId) (t : TeNo) (rd ra rb : Reg)
  | sltu (c : CoreId) (t : TeNo) (rd ra rb : Reg)
  | mul (c : CoreId) (t : TeNo) (rd ra rb : Reg)
  | mulhu (c : CoreId) (t : TeNo) (rd ra rb : Reg)
  | divu (c : CoreId) (t : TeNo) (rd ra rb : Reg)
  | remu (c : CoreId) (t : TeNo) (rd ra rb : Reg)
  | addi (c : CoreId) (t : TeNo) (rd ra : Reg) (imm : Half)
  | andi (c : CoreId) (t : TeNo) (rd ra : Reg) (imm : Half)
  | ori (c : CoreId) (t : TeNo) (rd ra : Reg) (imm : Half)
  | xori (c : CoreId) (t : TeNo) (rd ra : Reg) (imm : Half)
  | slti (c : CoreId) (t : TeNo) (rd ra : Reg) (imm : Half)
  | sltiu (c : CoreId) (t : TeNo) (rd ra : Reg) (imm : Half)
  | lui (c : CoreId) (t : TeNo) (rd : Reg) (imm : Half)
  | slli (c : CoreId) (t : TeNo) (rd ra : Reg) (sh : Fin 64)
  | srli (c : CoreId) (t : TeNo) (rd ra : Reg) (sh : Fin 64)
  | srai (c : CoreId) (t : TeNo) (rd ra : Reg) (sh : Fin 64)
  | bfx (c : CoreId) (t : TeNo) (rd ra : Reg) (pos lenM1 : Fin 64)
  | bfi (c : CoreId) (t : TeNo) (rd ra : Reg) (pos lenM1 : Fin 64)
  | ld8 (c : CoreId) (t : TeNo) (rd ra : Reg) (imm : Half)
  | ld16 (c : CoreId) (t : TeNo) (rd ra : Reg) (imm : Half)
  | ld32 (c : CoreId) (t : TeNo) (rd ra : Reg) (imm : Half)
  | ld64 (c : CoreId) (t : TeNo) (rd ra : Reg) (imm : Half)
  | st8 (c : CoreId) (t : TeNo) (rs ra : Reg) (imm : Half)
  | st16 (c : CoreId) (t : TeNo) (rs ra : Reg) (imm : Half)
  | st32 (c : CoreId) (t : TeNo) (rs ra : Reg) (imm : Half)
  | st64 (c : CoreId) (t : TeNo) (rs ra : Reg) (imm : Half)
  | amoadd (c : CoreId) (t : TeNo) (rd ra rb : Reg)
  | amoswp (c : CoreId) (t : TeNo) (rd ra rb : Reg)
  | fence (c : CoreId) (t : TeNo)
  | hld (c : CoreId) (t : TeNo) (tk : Tok) (rs rh rl : Reg)
  | hst (c : CoreId) (t : TeNo) (tk : Tok) (rs rh rl : Reg)
  | hostTokenComplete (c : CoreId) (t : TeNo) (slot : Fin 2) (tk : Tok) (data : Option (List Byte))
  | hwait (c : CoreId) (t : TeNo) (rd : Reg) (tk : Tok)
  | beq (c : CoreId) (t : TeNo) (ra rb : Reg) (off : Half)
  | bne (c : CoreId) (t : TeNo) (ra rb : Reg) (off : Half)
  | blt (c : CoreId) (t : TeNo) (ra rb : Reg) (off : Half)
  | bge (c : CoreId) (t : TeNo) (ra rb : Reg) (off : Half)
  | bltu (c : CoreId) (t : TeNo) (ra rb : Reg) (off : Half)
  | bgeu (c : CoreId) (t : TeNo) (ra rb : Reg) (off : Half)
  | jmp (c : CoreId) (t : TeNo) (off : BitVec 26)
  | call (c : CoreId) (t : TeNo) (off : BitVec 26)
  | ret (c : CoreId) (t : TeNo)
  | loop (c : CoreId) (t : TeNo) (rc : Reg) (bound : BitVec 12) (len : BitVec 9)
  | lbrk (c : CoreId) (t : TeNo)
  | lidx (c : CoreId) (t : TeNo) (rd : Reg)
  | emit (c : CoreId) (t : TeNo) (rd ra rb : Reg)
  | budg (c : CoreId) (t : TeNo) (rd ra : Reg)
  | tick (c : CoreId) (t : TeNo) (rd : Reg)
  | tickResume (c : CoreId) (t : TeNo) (s : Seat) (ut : Nat)
  | postc (c : CoreId) (t : TeNo) (ra rb : Reg)
  | send (c : CoreId) (t : TeNo) (rd ra rb : Reg)
  | evt (c : CoreId) (t : TeNo) (ra : Reg)
  | qitem (c : CoreId) (t : TeNo) (rd ra rb : Reg)
  | done (c : CoreId) (t : TeNo)
  | rdctx (c : CoreId) (t : TeNo) (rd : Reg) (sel : Half)
  | rdut (c : CoreId) (t : TeNo) (rd : Reg)
  | csrr (c : CoreId) (t : TeNo) (rd : Reg) (csr : Half)
  | csrw (c : CoreId) (t : TeNo) (ra : Reg) (csr : Half)
  | eret (c : CoreId) (t : TeNo)
  | wfi (c : CoreId) (t : TeNo)
  | faultRecordRelease (c : CoreId) (i : IsletNo) (r : Fin 256)
  | eventEntry (c : CoreId) (t : Fin 33)
  | programLoadLoad (c : CoreId) (h : Nat) (data : Option (List Byte))
  | programLoadUnload (c : CoreId) (h : Nat)
  | unitProgramLoad (f : FnId) (slot : Fin 4)
  | unitProgramUnload (f : FnId) (slot : Fin 4)
  | unitProgramBadField (f : FnId) (action slot : Byte)
  -- engines, dispatch and events
  | itemDispatch (c : CoreId) (t : TeNo)
  | preemption (c : CoreId) (cl : Fin 4)
  | preemptedRestore (c : CoreId) (t : TeNo)
  | clusterModeWrite (w : Via) (c : CoreId) (v : W32)
  | clusterModeChanged (c : CoreId) (cl : Fin 4)
  | seatTick (c : CoreId) (s : Seat) (ut : Nat)
  | maxWaitRead (f : FnId) (l : Fin 8)
  | eventEdge (c : CoreId) (src : Fin 2048)
  | evtPendingWrite (w : Via) (c : CoreId) (priv : Bool) (k : Fin 33) (v : W64)
  | evtMaskWrite (w : Via) (c : CoreId) (priv : Bool) (k : Fin 33) (v : W64)
  | evtSourceWrite (w : Via) (c : CoreId) (n : Fin 2048) (v : W64)
  | evtVectorBaseWrite (w : Via) (c : CoreId) (t : Fin 33) (v : W64)
  | evtTimerWrite (w : Via) (c : CoreId) (t : Fin 33) (v : W64)
  | evtTimerFire (c : CoreId) (t : Fin 33) (ut : Nat)
  | supervisorSweep (ut : Nat)
  -- USB
  | profile (s : Seat) (body : List Byte)
  | usbOpen (c : CoreId) (h : Nat)
  | close (c : CoreId) (h : Nat)
  | clearHalt (c : CoreId) (h : Nat)
  | abort (c : CoreId) (h : Nat)
  | usbControl (c : CoreId) (h : Nat)
  | usbBulk (c : CoreId) (h : Nat)
  | usbInterrupt (c : CoreId) (h : Nat)
  | usbIsoch (c : CoreId) (h : Nat)
  | results (s : Seat) (iso : Bool) (param0 : W32) (body : List Byte)
  | timedOut (c : CoreId) (h : Nat) (ut : Nat)
  | isoResultLost (s : Seat) (n : Nat) (ut : Nat)
  | rootPortReset (f : FnId) (i : IsletNo) (s : Seat) (p : RootPort)
  | rootPortSuspend (f : FnId) (i : IsletNo) (s : Seat) (p : RootPort)
  | rootPortResume (f : FnId) (i : IsletNo) (s : Seat) (p : RootPort)
  | rootPortDisable (f : FnId) (i : IsletNo) (s : Seat) (p : RootPort)
  | rootPortPowerOff (f : FnId) (i : IsletNo) (s : Seat) (p : RootPort)
  | rootPortPowerOn (f : FnId) (i : IsletNo) (s : Seat) (p : RootPort)
  | rootPortBadCommand (f : FnId) (i : IsletNo) (s : Seat) (p : RootPort)
  | rootPortChangeClear (f : FnId) (i : IsletNo) (s : Seat) (p : RootPort) (bits : BitVec 7)
  | rootHubOperation (s : Seat)
  -- strait links
  | autonegComplete (s : Seat) (msg : Option (BitVec 11 × BitVec 11 × BitVec 11 × BitVec 11)) (rates : BitVec 4)
  | foreignEnergyTimeout (s : Seat) (ut : Nat)
  | foreignClear (s : Seat) (ut : Nat)
  | trainingComplete (l : TrainedLine)
  | trainingTimeout (s : Seat) (ut : Nat)
  | pcsLinkUp (s : Seat)
  | straitFrameReceive (s : Seat) (pcsError : Bool) (bytes : List Byte) (ut : Nat)
  | nak (s : Seat) (body : List Byte)
  | nakSend (s : Seat) (tn : Tunnel) (ut : Nat)
  | reportDue (s : Seat) (tn : Tunnel) (ut : Nat)
  | keepaliveDue (s : Seat) (ut : Nat)
  | retransmitTimerExpiry (s : Seat) (tn : Tunnel) (ut : Nat)
  | helloRetry (s : Seat) (ut : Nat)
  | helloGiveUp (s : Seat) (ut : Nat)
  | helloReply (s : Seat) (body : List Byte)
  | authRetry (s : Seat) (ut : Nat)
  | goodbye (s : Seat)
  | phyLinkFail (s : Seat)
  | silence (s : Seat) (ut : Nat)
  | holdDownExpiry (s : Seat) (ut : Nat)
  | seatLinkControlWrite (w : Via) (s : Seat) (v : W64)
  | rateTargetWrite (w : Via) (s : Seat) (rate : BitVec 4)
  | rateAck (s : Seat) (body : List Byte)
  | rateAckTimeout (s : Seat) (ut : Nat)
  | rateChangeStop (s : Seat) (ut : Nat)
  | rateChangeTimeout (s : Seat) (ut : Nat)
  | delayUpdate (s : Seat) (ut : Nat)
  | dockTime (s : Seat) (body : List Byte)
  | calibrationSlot (s : Seat) (margin : Half) (ut : Nat)
  | dockKeyAdd (f : FnId)
  | dockKeyRemove (f : FnId)
  | dockKeyRemoveAll (f : FnId)
  | dockKeyBadAction (f : FnId) (action : Byte)
  -- display
  | attach (c : CoreId) (h : Nat)
  | detach (c : CoreId) (h : Nat)
  | abortFrame (c : CoreId) (h : Nat)
  | readEdid (c : CoreId) (h : Nat)
  | selectSource (c : CoreId) (h : Nat)
  | displayFrame (c : CoreId) (h : Nat)
  | gatherStart (c : CoreId) (hd : HeadNo)
  | gatherDone (c : CoreId) (ch : Fin 16)
  | sliceEncoded (c : CoreId) (pipe : Fin 16)
  | sliceHandoff (hd : HeadNo) (viewer : HeadNo)
  | commitHandoff (hd : HeadNo) (viewer : HeadNo)
  | behindTimeout (hd : HeadNo) (ut : Nat)
  | frameRecord (c : CoreId) (hd : HeadNo)
  | mirrorCopyDone (c : CoreId) (hd : HeadNo)
  | monitor (s : Seat) (lh : Fin 2) (param0 param1 : W32) (edid : List Byte)
  | configDone (s : Seat) (lh : Fin 2) (param0 : W32)
  | applied (s : Seat) (lh : Fin 2) (param0 param1 : W32)
  | storeLost (s : Seat) (lh : Fin 2)
  | statusScreenRedraw (hd : HeadNo) (ut : Nat)
  -- fabric
  | cellTime (c : CoreId) (offered : List CellIn)
  | frameVerdict (c : CoreId) (p : Fin 160)
  | resequencerTimeout (c : CoreId) (output : Fin 160) (trunk : Fin 3) (cls : Fin 8) (ut : Nat)
  | fabMcastWrite (w : Via) (c : CoreId) (g : Fin 256) (word1 : Bool) (v : W64)
  | generationRetire (c : CoreId) (g : Fin 256)
  | fabOutMinWrite (w : Via) (c : CoreId) (p : Fin 160) (v : W64)
  -- seat traffic
  | gateApply (w : Via) (s : Seat) (v : W64)
  | gateControlCalWrite (w : Via) (s : Seat) (v : W64)
  | entryStart (s : Seat) (ut : Nat)
  | lineFreeSelect (s : Seat) (ut : Nat)
  | netTransmit (c : CoreId) (h : Nat)
  | netReceiveBuffer (c : CoreId) (h : Nat)
  | netFrameReceive (s : Seat) (utLow : W32) (frame : List Byte) (ut : Nat)
  | demandLatch (c : CoreId) (meanFrame : List Nat) (ut : Nat)
  | policyTick (ut : Nat)
  | allotmentWrite (w : Via) (r : AllotReg) (v : W64)
  | boundWrite (w : Via) (i : IsletNo) (r : BoundReg) (v : W64)
  | policyControlWrite (w : Via) (v : W64)
  -- power
  | supplyInputLost (x : SupplyId) (ut : Nat)
  | supplyInputGood (x : SupplyId) (ut : Nat)
  | supplyInserted (x : SupplyId) (ut : Nat)
  | supplyWithdrawn (x : SupplyId) (ut : Nat)
  | bothFeedsLost
  | supplyPoll (vinA vinB poutA poutB : Nat) (ut : Nat)
  | detection (s : Seat) (sig : PdSig) (ut : Nat)
  | powerOnExamine (ut : Nat)
  | mpsLost (s : Seat) (ut : Nat)
  | softShed (mean1s : List Nat) (ut : Nat)
  | hardShed (mean1s : List Nat) (ut : Nat)
  | shedEnd (s : Seat) (ut : Nat)
  | pairShort (s : Seat) (ut : Nat)
  | pairOverload (s : Seat) (ut : Nat)
  | faultRetry (s : Seat) (ut : Nat)
  | cycle (w : Via) (s : Seat)
  | seatPowerEnableWrite (w : Via) (s : Seat) (v : W64)
  | wakePattern (s : Seat)
  | domainVoteWrite (w : Via) (c : CoreId) (d : DomainNo) (v : W64)
  | domainTransitionDone (c : CoreId) (d : DomainNo) (ut : Nat)
  | domainWake (c : CoreId) (d : DomainNo) (ut : Nat)
  | wakeHoldEnd (c : CoreId) (d : DomainNo) (ut : Nat)
  | clockSwitch (c : CoreId) (d : DomainNo)
  | clockSwitchTimeout (c : CoreId) (d : DomainNo) (ut : Nat)
  | pmbusAck (c : CoreId) (vdsp : Bool)
  | pmbusTimeout (c : CoreId) (vdsp : Bool) (ut : Nat)
  | referenceLoss (c : CoreId)
  -- modes, start-up and restart
  | warmStart (f : FnId) (slot : Fin 2)
  | coldStart (f : FnId) (slot : Fin 2)
  | rollingUpdate (f : FnId) (slot : Fin 2) (force : Bool)
  | rollingUpdatePhaseDone (ok : Bool) (fallbackOk : Bool)
  | writeImage (f : FnId) (slot : Fin 2)
  | supervisorRestart (f : FnId)
  | unitCmdBadField (f : FnId) (action slot : Byte)
  | startStepDone (r : StepResult) (ut : Nat)
  | startWatchdog (ut : Nat)
  | reasonClear (code : Fin 16) (ut : Nat)
  | conditionTimer (k : CondTimer) (ut : Nat)
  | serviceTimeout (ut : Nat)
  | safeStop (cause : Fin 5)
  | safeStopPowerOff (ut : Nat)
  -- faults
  | heartbeat (c : CoreId) (dataOk supOk cwOk token : Bool) (ut : Nat)
  | heartbeatLost (c : CoreId) (ut : Nat)
  | hardError (c : CoreId) (code : Byte)
  | fenceConfirmTimeout (c : CoreId) (ut : Nat)
  | failoverAdoption (c : CoreId)
  | failoverFirstBuild (s : Seat) (ut : Nat)
  | supervisorRestartDone (c : CoreId) (ok : Bool)
  | refereeLost (c : CoreId) (selfCheck : Bool) (ut : Nat)
  | refereeReturned (ut : Nat)
  | laneRemoved (n : Fin 16)
  | laneRetrain (n : Fin 16) (ok : Bool)
  | causewayTimeSample (ut : Nat)
  | correctableError (c : CoreId) (at_ : EccPlace) (detail : Nat)
  | uncorrectableDramError (c : CoreId) (r : DramRegion) (channel : Fin 6) (detail : Nat)
  -- counters
  | counterSelectWrite (w : Via) (c : CoreId) (n : Fin 512) (v : W64)
  | counterValueWrite (w : Via) (c : CoreId) (n : Fin 512) (v : W64)
  | counterFreeze (w : Via) (c : CoreId) (v : W64)
  | counterSnapshot (w : Via) (c : CoreId) (v : W64)
  | counterClear (w : Via) (c : CoreId) (v : W64)
  | counterWindowSelect (w : Via) (c : CoreId) (v : W64)
  | counterFreezeUtWrite (w : Via) (c : CoreId) (v : W64)
  | counterFreezeUtFire (c : CoreId) (ut : Nat)
  | bandwidthWindowEnd (c : CoreId) (ut : Nat)
  -- field service
  | consoleLine (p : ConsPort)
  | help (p : ConsPort)
  | status (p : ConsPort)
  | seatShow (p : ConsPort) (s : Seat)
  | seatList (p : ConsPort)
  | seatCycle (p : ConsPort) (s : Seat)
  | seatCont (p : ConsPort) (s : Seat) (pair : Fin 4) (blink : Bool)
  | seatContRead (p : ConsPort)
  | seatContOff (p : ConsPort)
  | continuityMeasure (mV : Int) (ut : Nat)
  | continuityTimeout (ut : Nat)
  | seatTdr (p : ConsPort) (s : Seat)
  | cableTestDone (pairs : List (Fin 4 × CableResult))
  | supply (p : ConsPort)
  | fans (p : ConsPort)
  | log (p : ConsPort) (n : Option Nat)
  | logPrev (p : ConsPort)
  | errors (p : ConsPort) (c : Option CoreId)
  | tp (p : ConsPort) (mV : List Nat)
  | meas (p : ConsPort) (code : Nat)
  | measUpdate (ut : Nat)
  | testList (p : ConsPort)
  | testRun (p : ConsPort) (n : Nat)
  | selfTestDone (pass : Bool) (item : Nat)
  | service (p : ConsPort)
  | serviceEnd (p : ConsPort)
  | consoleWarm (p : ConsPort)
  | consoleCold (p : ConsPort) (slot : Option (Fin 2))
  | consoleRestart (p : ConsPort)
  | consoleStop (p : ConsPort)
  | confirmReply (p : ConsPort) (line : List Byte)
  | confirmTimeout (ut : Nat)
  | unsupervisedNotice (ut : Nat)
  | selectTap (ut : Nat)
  | selectHold (ut : Nat)
  | selectLongHold (ut : Nat)
  | panelIdle (ut : Nat)
  | usbBusReset
  | usbSuspend
  | usbResume
  | vbusLost
  | vbusPresent
  | setLineCoding (coding : List Byte) (completed : Bool)
  | getLineCoding
  | setControlLineState (dtr : Bool)
  | classRequestStall (request : Byte)
  | bulkOutReceive (bytes : List Byte)
  -- rows added at the end of the table
  | registerReadOversized (f : FnId) (off size : Nat)
  | registerWrite (f : FnId) (bar : Bar) (off : Nat) (data : List Byte)
  | supplyOutputFailed (x : SupplyId) (ut : Nat)
  | fanLoss (n : Fin 6) (rpm : Nat) (ut : Nat)
  | fanInserted (n : Fin 6) (ut : Nat)
  | thermalLimitCrossed (junctionA junctionB inlet : Int) (ut : Nat)
  | phyManagementTimeout (q : Fin 16) (ut : Nat)
  | partnerEnergyDetected (s : Seat) (ut : Nat)
  | openConductorDetected (s : Seat) (goodA : Bool) (metres : Nat)
  | faultRetryCountClear (s : Seat) (ut : Nat)
  | busMasterEnableCleared (f : FnId)
  | pasidEnableSet (f : FnId)
  | msixVectorUnmasked (f : FnId) (enable : Bool) (v : Fin 2048)
  | aspmL1Entry (f : FnId)
  | flashWriteComplete (ok : Bool)
  | mirrorLagTimeout (hd : HeadNo) (ut : Nat)
  | consoleRxCharacter (p : ConsPort) (ch : Byte)
  | bulkInToken
  deriving DecidableEq, Repr

end Sys2Proof
end

