-- ==== Sys2Proof/Decode.lean ====
section
/-! DEFINITION. The reader of a command's word. No row of spec/opcode_table.json gives bits: a command of
this block reaches it as an event with operands, not as a word. No word therefore spells a command. The
encodings that the spec does give, those of Yelcy instructions inside an image (04 R103, R104), are read by
the load-time verifier, in Machine/Verifier.lean. -/

namespace Sys2Proof

/-- The command that `nbits` bits of value `w` spell: none, for every row. -/
def decodeTableWord (_nbits _w : Nat) : Option Instr := none

end Sys2Proof
end

