-- ==== Sys2Proof/Machine/State.lean ====
section
/-! DEFINITION. The machine's state: plain data, grouped by the chapter that names it, the reasons a
command can stop, and the state after reset. Docstrings name the file and rule of spec/. -/

namespace Sys2Proof.Machine

/-- A sparse array: strictly rising keys, no entry equal to its key's default (log entry 2). -/
abbrev Tab (α : Type) := List (Nat × α)

/-! ### Time and host side (01, 02) -/

/-- Unit time of each core, in ns (01 R15). `rem`: elapsed time not yet turned into whole ns of steering or drift (R16). -/
structure TimeSt where
  utA : Nat
  utB : Nat
  rem : Nat
  deriving DecidableEq, Repr

inductive FnLink where
  | up | down | d3hot | hotReset
  deriving DecidableEq, Repr

/-- One PCIe function: link, configuration it reads, MSI-X table and pending-bit array
(02 R26, R27, R28, R41, R54, R408; 16 R395). `maxPay`, `maxRead`: bytes; `timeout`: ns; `gen`: the generation negotiated,
6 in FLIT mode; `unmasked` holds the vectors that are not masked, `table` their address and data. -/
structure FnSt where
  link : FnLink
  bme : Bool
  pasidEn : Bool
  msixEn : Bool
  maxPay : Nat
  maxRead : Nat
  timeout : Nat
  ecrc : Bool
  gen : Nat
  width : Nat
  aspmL1 : Bool
  unmasked : Tab Bool
  table : Tab (W64 × W32)
  pba : Tab Bool
  modeChange : Bool
  deriving DecidableEq, Repr

/-- Progress of a command of one of the four register sets (02 R51, R407): it waits for its turn, for Bus Master Enable,
for its host read, or runs. -/
inductive CmdPhase where
  | idle | waitTurn | waitBme | waitRead | running
  deriving DecidableEq, Repr

/-- One command register set of a port: address register, status register, latched command
(02 R47, R51, R52, R407; 04 R127; 07 R208; 12 R327). -/
structure CmdSt where
  addr : W64
  busy : Bool
  op : Byte
  arg : Byte
  status : Byte
  detail : W32
  force : Bool
  fn : FnId
  latched : W64
  goUt : Nat
  turn : Nat
  phase : CmdPhase
  deriving DecidableEq, Repr

/-- Registers of one host port (02 R32, R34). -/
structure PortSt where
  leaseMs : Half
  leaseEnd : Option Nat
  wiringRefused : Bool
  islet : CmdSt
  unitProgram : CmdSt
  dockKey : CmdSt
  unitCmd : CmdSt
  stockRestored : Bool
  progFaults : Half
  deriving DecidableEq, Repr

/-- A semaphore of the referee (02 R34, R35). -/
structure SemSt where
  holder : Option PortId
  broken : Bool
  deriving DecidableEq, Repr

/-- What the unit does with the data of an outstanding host read (02 R20, R30). -/
inductive ReadFor where
  | usbOut (h : Nat)
  | netTx (h : Nat)
  | gatherIndex (core : CoreId) (ch : Fin 16)
  | gatherLine (core : CoreId) (ch : Fin 16) (pos : Nat) (x y n : Nat)
  deriving DecidableEq, Repr

/-- A host read that has not ended: it is asked for in one or more requests (02 R27, R29, R30). `parts`: the data that
has come, by its offset; `got`: all of it, which waits for an earlier read of the same purpose. -/
structure HostRead where
  fn : FnId
  islet : IsletNo
  addr : Nat
  len : Nat
  why : ReadFor
  ut : Nat
  parts : Tab (List Byte)
  got : Option (List Byte)
  deriving DecidableEq, Repr

/-- The attributes of a request (02 R21, R27, R29): the PASID it carries, Relaxed Ordering, an ECRC. No Snoop, ID-Based
Ordering, Execute Requested and Privileged Mode Requested are never set, so no field holds them. -/
structure Tlp where
  pasid : Option (BitVec 20)
  relaxed : Bool
  ecrc : Bool
  deriving DecidableEq, Repr

/-- What the unit has sent to a host, in order of issue (02 R20, R21, R27, R29; MODEL's own outbox). A `read` carries its
request number; a message carries the table entry's address and data (R408). -/
inductive HostTx where
  | data (f : FnId) (i : IsletNo) (addr : Nat) (bytes : List Byte) (tlp : Tlp)
  | record (f : FnId) (i : IsletNo) (addr : Nat) (bytes : List Byte) (tlp : Tlp)
  | read (f : FnId) (i : IsletNo) (req addr len : Nat) (tlp : Tlp)
  | msix (f : FnId) (vector : Nat) (addr : W64) (data : W32) (tlp : Tlp)
  | completion (f : FnId) (bytes : List Byte)
  | completerAbort (f : FnId)
  deriving DecidableEq, Repr

/-- Whose read a request belongs to: a host read by its number, or a wait token of a TE's item (04 R99). -/
inductive ReqFor where
  | read (id : Nat)
  | token (core : CoreId) (te : TeNo) (slot : Fin 2) (tk : Tok)
  deriving DecidableEq, Repr

/-- A read request that is issued and not answered, or waits to be issued (02 R27, R30). `off`: its place in its read;
`ut`: when it was issued. -/
structure ReqSt where
  fn : FnId
  islet : IsletNo
  why : ReqFor
  off : Nat
  len : Nat
  issued : Option Nat
  deriving DecidableEq, Repr

/-- A request that waits for its turn at its function (10 R285): its bytes count against the islet's quantum; `read`: the
request number of a read. -/
structure HostReq where
  fn : FnId
  islet : IsletNo
  bytes : Nat
  read : Option Nat
  tx : HostTx
  deriving DecidableEq, Repr

/-- One copy of the configuration store (11 R295): every value the spec calls stored. -/
structure StoreCopy where
  unitIndex : BitVec 4
  wiring : Bool
  linkCtl : Tab W64
  powerCtl : Tab W64
  bootSlot : Fin 2
  valid0 : Bool
  valid1 : Bool
  keys : List (W64 × List Byte)
  savedLog : List (List Byte)
  deriving DecidableEq, Repr

/-- The configuration store: two copies with their checks and the newest commit record (11 R295). -/
structure StoreSt where
  copy0 : StoreCopy
  copy1 : StoreCopy
  ok0 : Bool
  ok1 : Bool
  newest1 : Bool
  seq : Nat
  deriving DecidableEq, Repr

/-- Host ports, functions, semaphores, host requests (02). `h0a` and so on by port and core. `waiting`: requests that wait
for their turn, in order of arrival; `deficit`, `turn`: the round robin of each function over the islets (10 R285). -/
structure HostSt where
  h0a : FnSt
  h0b : FnSt
  h1a : FnSt
  h1b : FnSt
  p0 : PortSt
  p1 : PortSt
  unitIndex : BitVec 4
  wiring : Bool
  sems : Tab SemSt
  tieNext : PortId
  budget : W32
  reads : Tab HostRead
  reqs : Tab ReqSt
  nextRead : Nat
  waiting : List HostReq
  deficit : Tab Nat
  turn : Tab Nat
  lastRead : W64
  tx : List HostTx
  store : StoreSt
  deriving DecidableEq, Repr

/-! ### Islets (02) and work queues (03) -/

inductive IslState where
  | free | active | quiescing | quiesced | halting | halted | reattach
  deriving DecidableEq, Repr

/-- An islet as the unit holds it (02 R37 to R49, R53). `viaOtherA`, `viaOtherB`: the requests of that
core use the other port (R42, R54). `lostA`, `lostB`: queues of that core are lost (R45). `dqa`, `dqb`, `dra`, `drb`: the
counts of its descriptor, which a RESET after a failover parts from those it then has on each core. -/
structure IsletSt where
  st : IslState
  halt : Byte
  failovers : Byte
  lapsed : Bool
  prot : Bool
  bcast : Bool
  grant : Bool
  paired : Bool
  home : PortId
  owner : PortId
  pasid : BitVec 20
  seats : W64
  qa : Nat
  qb : Nat
  ra : Nat
  rb : Nat
  dqa : Nat
  dqb : Nat
  dra : Nat
  drb : Nat
  vectors : Nat
  vbase : Nat
  weight : Nat
  budget : Nat
  dispMib : Nat
  fabKib : Nat
  bmask : W64
  viaOtherA : Bool
  viaOtherB : Bool
  lostA : Bool
  lostB : Bool
  haltInfoA : W64
  haltInfoB : W64
  deriving DecidableEq, Repr

/-- An entry in a queue's cache: index of unit 0, its bytes (03 R72), the UT of its doorbell (14 R369). -/
structure Cached where
  idx : Half
  bytes : List Byte
  ut : Nat
  deriving DecidableEq, Repr

/-- A work queue or the twin's shadow of one (03 R57, R60, R67, R72, R73). `posts` holds, oldest first,
the old and new producer index of each applied doorbell not yet wholly parsed, with its UT; `inl` the inline units
with their first index; `next` the index of the next unit to fetch;
`invals` the records of applied invalidates that wait for a place; `seen` the verdicts and
producer indices of doorbells that the other side has not yet judged (02 R44); `again` the dropped entries not yet fetched again. -/
structure QueueSt where
  base : W64
  enable : Bool
  refused : Bool
  log2 : BitVec 4
  ring : Byte
  weight : Byte
  burst : BitVec 5
  p : Half
  c : Half
  frozen : Bool
  cause : Byte
  cache : List Cached
  inl : List (Half × List Byte)
  posts : List (Half × Half × Nat)
  next : Half
  credit : Nat
  invals : List (Half × Nat)
  seen : List (Bool × Half)
  again : Nat
  deriving DecidableEq, Repr

/-- A completion record in the unit: its 32 bytes, whether its entry carries `NOTIFY` (03 R77), the unit
time at which it was made, the port that its entry's data left by (01 R20), whether the twin has it (R83), and the latency
class with its start (14 R369). -/
structure Rec where
  bytes : List Byte
  notify : Bool
  ut : Nat
  port : Option PortId
  sent : Bool
  lat : Option (Nat × Nat)
  deriving DecidableEq, Repr

/-- A record in a ring's fault latch: a fault record that further faults merge into, or a change record
that is never merged (04 R116, 06 R174, 08 R244). -/
structure Latched where
  merge : Bool
  bytes : List Byte
  deriving DecidableEq, Repr

/-- A completion ring or the twin's shadow of one (03 R57, R60, R69, R76, R79, R83, R84). -/
structure RingSt where
  base : W64
  enable : Bool
  refused : Bool
  log2 : BitVec 4
  vector : Half
  p : Half
  c : Half
  made : List Rec
  held : List Rec
  stalled : Bool
  errIw : Bool
  errMw : Bool
  latch : List Latched
  unreported : List (Half × List Byte)
  differSince : Option Nat
  deriving DecidableEq, Repr

/-- How an entry ended: what its record will say, and from when its latency counts. -/
structure EntryEnd where
  status : Nat
  count : Nat
  detail : Nat
  since : Nat
  deriving DecidableEq, Repr

/-- An entry taken into service (03 R64, 04 R89): its handle is its key. `ring`: the ring that it completes into; `port`:
the port by which its data has left (01 R20); `handed`: its work has been
handed to a dock, gather channel or fabric (03 R82); `started`: its command has run; `moved`: bytes moved so
far; `ended`: it has ended and its record waits for earlier entries of its flow (R71). -/
structure EntrySt where
  core : CoreId
  islet : IsletNo
  queue : Fin 512
  ring : Byte
  port : Option PortId
  ended : Option EntryEnd
  idx : Half
  bytes : List Byte
  takenUt : Nat
  handed : Bool
  started : Bool
  moved : Nat
  deriving DecidableEq, Repr

/-- Work queues and rings (03). `nextHandle`: the handle tried first for the next entry, 32 bits (04 R89). Keys: `qKey`, `rKey` of Machine/Ops.lean. `visit`: the queue that an islet's
taking round stands at and the entries taken in that visit (R70). -/
structure WqSt where
  queues : Tab QueueSt
  rings : Tab RingSt
  shQueues : Tab QueueSt
  shRings : Tab RingSt
  entries : Tab EntrySt
  nextHandle : Nat
  discards : Tab W32
  visit : Tab (Nat × Nat)
  deriving DecidableEq, Repr

/-! ### Programs, transfer engines, events (04, 05) -/

/-- Which program runs an item (04 R89). -/
inductive ProgId where
  | stock
  | unit (slot : Fin 4)
  | islet (i : IsletNo) (slot : Fin 4)
  deriving DecidableEq, Repr

/-- A loaded image in a core's program store (04 R118, R122, R126). `refs` counts the items that still run
it after it was unloaded (R123). -/
structure ImageSt where
  id : ProgId
  base : Nat
  words : List W32
  entry : List W32
  data : List Byte
  dataOff : Nat
  tag : W32
  queue : Half
  live : Bool
  aborts : Nat
  deriving DecidableEq, Repr

structure ProgSt where
  storeA : List ImageSt
  storeB : List ImageSt
  deriving DecidableEq, Repr

/-- An item (04 R88, R91; 05 R128 to R132). -/
structure Item where
  kind : Nat
  level : Fin 8
  flow : BitVec 24
  islet : IsletNo
  seat : Option Seat
  head : Option HeadNo
  arg : W64
  home : Fin 4
  readyUt : Nat
  passed : Nat
  frame : List Host.Cell
  srcFrame : Option (Seat × Half)
  resume : Bool
  iso : Bool
  deriving DecidableEq, Repr

/-- The open script of a kind 0 item (04 R109). -/
structure Script where
  n : Nat
  recs : List (List Byte)
  budget : Nat
  deriving DecidableEq, Repr

/-- An open loop: the address of its body, its length in words, passes left, the iteration index, and the
depth of the return stack at which it was opened (04 R107). -/
structure LoopFrame where
  start : Nat
  len : Nat
  left : Nat
  idx : Nat
  depth : Nat
  deriving DecidableEq, Repr

/-- A wait token (04 R99 to R101): its status, or the transfer in flight. -/
inductive TokSt where
  | idle
  | flight (store : Bool) (scratch len addr : Nat)
  | done (status : Bool)
  deriving DecidableEq, Repr

/-- An item on a TE, in a local slot or suspended: its registers, stacks, tokens, scratch half and
segment (04 R90 to R93, R107 to R110, R115). `startUt`: when the segment began, and when it resumes while it is
suspended; `tickRd`: the register that `tick` writes on resumption; `base`: where the image it runs starts in
the program store. -/
structure Run where
  item : Item
  prog : ProgId
  base : Nat
  regs : Vector W64 32
  pc : Nat
  loops : List LoopFrame
  rets : List Nat
  toks : Vector TokSt 8
  scratch : List Host.Cell
  count : Nat
  script : Option Script
  startUt : Nat
  slot : Fin 2
  tickRd : Reg
  deriving DecidableEq, Repr

/-- A transfer engine (04 R90, R117; 05 R133, R134, TE_STATUS). `idle`: the registers that an event handler
sees while no item is in service; `busy`: ns not idle in the running frame; `waiting`: it waits in `wfi`; `late`: it has yet to run an
item staged before its cluster changed to pre-emption to its end (R135). -/
structure TeSt where
  cur : Option Run
  staged : Option Run
  pre : Option Run
  inHandler : Bool
  priorUnit : Bool
  epc : W64
  ecause : W64
  hpc : Nat
  hbank : Vector W64 8
  lastFlows : List (BitVec 24)
  idle : Run
  load : Nat
  busy : Nat
  waiting : Bool
  late : Bool
  deriving DecidableEq, Repr

/-- The dispatcher of one core (05 R130, R135, R136). `isoWait`: items of ISO frames that wait in the seat
interfaces, the oldest first. -/
structure DispSt where
  ready : List Item
  isoWait : List Item
  suspended : List (Run × Fin 4)
  lastTe : Tab Nat
  holdBack : Bool
  episodes : Half
  maxWait : Tab W32
  preempt : BitVec 4
  changing : BitVec 4
  levels : BitVec 18
  clusterLo : W64
  clusterHi : W64
  deriving DecidableEq, Repr

structure TeGroup where
  tes : Tab TeSt
  dispA : DispSt
  dispB : DispSt
  deriving DecidableEq, Repr

/-- The event controller of one core (05 R138 to R145). `supVector`: the address at which the supervisor last
took an event (R140). -/
structure EvtCore where
  pending : Tab W64
  mask : Tab W64
  privPending : Tab W64
  privMask : Tab W64
  base : Tab W64
  timer : Tab W64
  armed : Tab Bool
  source : Tab W64
  supVector : Nat
  deriving DecidableEq, Repr

structure EvtSt where
  a : EvtCore
  b : EvtCore
  lastSweep : Nat
  deriving DecidableEq, Repr

/-- Addressed memory (04 R92, R94): the ISW of each core and islet, each core's unit DRAM, each seat's due
lists (06 R171), each in the canonical form of `Memory.wf`. `unsent`: for each core and flow, the ISW stores of
its items that the twin does not yet hold, in issue order: islet, offset, bytes (04 R97). -/
structure MemSt where
  isw : Tab (List Host.Cell)
  dram : Tab (List Host.Cell)
  due : Tab (List Host.Cell)
  unsent : Tab (List (IsletNo × Nat × List Byte))
  deriving DecidableEq, Repr

/-! ### USB host service (06) -/

/-- An accepted dock profile (06 R150). -/
structure Profile where
  rootPorts : Nat
  depth : Nat
  maxRecords : Nat
  outKib : Nat
  hsWindow : Nat
  gen1Bytes : Nat
  caps : List Byte
  deriving DecidableEq, Repr

inductive PortState where
  | poweredOff | disconnected | disabled | resetting | enabled | suspended | resuming | notPresent
  deriving DecidableEq, Repr

/-- A root port command (06 `ROOT_PORT_s_p`.COMMAND). -/
inductive PortCmd where
  | reset | suspend | resume | disable | powerOff | powerOn
  deriving DecidableEq, Repr

/-- A root port (06 R173). `busy`: the command in progress; `before`: the state to restore when its port
record is refused; `former`: a former owner started it; `cmdNo`: the number of the command accepted last, which its
port record carries, so that the result of an ended command's record is ignored (R177); `powering`: the unit's own
`POWER_ON` runs (R151); `ssOff`: SuperSpeed is off (R178). -/
structure RootPortSt where
  st : PortState
  speed : Nat
  power : Bool
  overcurrent : Bool
  connected : Bool
  changes : BitVec 7
  last : Byte
  busy : Option PortCmd
  before : PortState
  former : Bool
  byCommand : Bool
  ignoreResume : Bool
  cmdNo : Nat
  powering : Bool
  ssOff : Bool
  deriving DecidableEq, Repr

/-- A port record placed or to be placed in a script (06 R166): the port and its `PORT_OP`; `cmd`: the number of the
command it belongs to. -/
structure PortRec where
  port : RootPort
  op : Byte
  cmd : Option Nat
  deriving DecidableEq, Repr

/-- What waits for a root hub operation on the seat's flow: a submitted command, with `COMMAND` 0 or 7 as `none`; an
event record of the dock; the result code of a port record, or of a `FLUSH` record (06 R172, R173). -/
inductive HubOp where
  | cmd (i : IsletNo) (port : RootPort) (c : Option PortCmd)
  | event (record : List Byte) (frame : Option Half)
  | port (code : Nat) (rec : PortRec) (frame : Option Half)
  | flush (code : Nat) (rec : List Byte)
  deriving DecidableEq, Repr

/-- An endpoint context (06 R156, R157, R171). Its key joins islet and context index. `closers`: CLOSE and
ABORT entries that complete after the endpoint's transfers; `outOff`: the OUT stream's running offset. -/
structure EpSt where
  islet : IsletNo
  seat : Seat
  addr : Nat
  ep : Nat
  dirIn : Bool
  mode : Byte
  maxPacket : Half
  speed : Nat
  rootPort : RootPort
  ttHub : Byte
  ttPort : Byte
  burst : Nat
  state : Nat
  toggle : Bool
  phase : Nat
  cost : Nat
  queue : List Nat
  doneBytes : Nat
  sentBytes : Nat
  nextN : Nat
  outOff : Nat
  closers : List Nat
  deriving DecidableEq, Repr

/-- An isochronous packet: its micro-frame, posted length, value once decided (06 R162, R168), and whether
a record for it is at the dock; `got`: bytes that results of its split records have moved (R410). -/
structure IsoPkt where
  n : Nat
  len : Nat
  value : Option Half
  sent : Bool
  got : Nat
  deriving DecidableEq, Repr

/-- A posted transfer, keyed by its entry handle (06 R161 to R163, R410, R411). `segs`: its host buffer as
(address, bytes); `outData`: its OUT stream bytes read so far (with a setup packet first), `outLen` of them
in all, `outSent` already put on the stream, `outDone` consumed by the dock. -/
structure XferSt where
  ep : Nat
  dirIn : Bool
  len : Nat
  segs : List (Nat × Nat)
  moved : Nat
  stage : Nat
  outstanding : Nat
  deadline : Option Nat
  ending : Option Byte
  lastDock : Byte
  pkts : List IsoPkt
  hostFail : Bool
  outData : List Byte
  outLen : Nat
  outSent : Nat
  outDone : Nat
  deriving DecidableEq, Repr

/-- A sealed script at the dock: its transaction records with a flag once their result is processed, its
port records likewise (06 R166, R168, R169). -/
structure SentScript where
  n : Nat
  recs : List (List Byte × Bool)
  ports : List (PortRec × Bool)
  deriving DecidableEq, Repr

/-- USB service of one seat (06). `profileSeen`: a profile came in this epoch (R150); `flushes`: `FLUSH`
records for the next script; `lastBuild`: the latest micro-frame the seat tick built for (05 R137); `stale`: for each
stream key, bytes in the dock's stream that no transfer counts and that its `FLUSH` discards (R165); `lastEvent`: the
number of the last `PORT_EVENT` processed (R168, R170). -/
structure UsbSeat where
  profile : Option Profile
  profileSeen : Bool
  hubOps : List HubOp
  portRecs : List PortRec
  flushes : List (List Byte)
  scripts : List SentScript
  lastBuild : Nat
  stale : Tab Nat
  lastEvent : Option Nat
  deriving DecidableEq, Repr

structure UsbSt where
  seats : Tab UsbSeat
  ports : Tab RootPortSt
  eps : Tab EpSt
  xfers : Tab XferSt
  tts : Tab (List Nat)
  deriving DecidableEq, Repr

/-! ### Strait links (07) -/

inductive LinkState where
  | noPartner | negotiating | training | greeting | up | holdDown | rateChange | unenrolled
  | authFailed | foreign | disabled
  deriving DecidableEq, Repr

/-- A frame held by the sender until acknowledged: SEQ, payload, fabric account and cells, the handle that
completes on its acknowledgement (10 R279), a deadline for ISO (07 R193, R198, 09 R260). -/
structure TxFrame where
  seq : Half
  bytes : List Byte
  acct : Nat
  frame : Nat
  handle : Option Nat
  deadline : Option Nat
  yellow : Bool
  local_ : Nat
  ends : Bool
  deriving DecidableEq, Repr

/-- What a block hands to a seat's tunnel: the payload, the account, the block's fabric input, the entry that its
acknowledgement completes, the deadline of R198, the local head, and whether it ends a slice (08 R234, R237). -/
structure Hand where
  bytes : List Byte
  acct : Nat
  input : Nat
  handle : Option Nat
  deadline : Option Nat
  local_ : Nat
  ends : Bool
  deriving DecidableEq, Repr

/-- A frame that a block keeps and offers again (09 R261): for one seat output, or by a multicast group for several
of its seats. -/
structure KeptFrame where
  seats : List Seat
  tn : Tunnel
  group : Option (Fin 256)
  hand : Hand
  deriving DecidableEq, Repr

/-- A running retransmit timer: the frame it was started for, when it expires, and the time it has stood still (07
R197). -/
structure ReTimer where
  seq : Half
  due : Nat
  paused : Nat
  deriving DecidableEq, Repr

/-- One direction pair of a tunnel of a seat (07 R193 to R198). `queue`: frames not yet sent; `resend`:
sequence numbers to send again, in order; `timers`: the retransmit timers of frames sent with `ACK_REQ`. -/
structure TunSt where
  next : Half
  free : Half
  peerRecv : Half
  held : List TxFrame
  queue : List TxFrame
  resend : List Half
  sinceReq : Nat
  timers : List ReTimer
  expiries : Nat
  recv : Half
  ack : Half
  acting : Tab Nat
  ahead : List (Half × List Byte)
  reportBy : Option Nat
  nakAfter : Nat
  deriving DecidableEq, Repr

inductive RatePhase where
  | none | waitAck | waitStop | changing | recorded
  deriving DecidableEq, Repr

/-- A seat's strait link (07). `st` is its state apart from a hold-down (`State.linkState` is what `STATE` shows);
`trainRate` the rate in training, `lastRate` the rate last in service (06 R178). `svcEpoch`: the epoch whose state the unit holds, 0 for none; `svcDock` its
dock; `live`: the exchange runs over a live link (R205, R208); `paged`: the partner has completed a base-page exchange
since its energy appeared (R186); `offered`, `pages`: the rates and the unformatted pages of the OUI-tagged message that
the unit sends in this negotiation (R184, R185); `moved`: a failover moved the seat during its hold-down (R211). -/
structure SeatLink where
  st : LinkState
  epoch : Half
  svcEpoch : Half
  svcDock : W64
  pcsUp : Bool
  holdStart : Option Nat
  holdLen : Nat
  downCause : BitVec 4
  rateResult : BitVec 3
  rate : BitVec 4
  disable : Bool
  rateMax : BitVec 4
  rateTarget : BitVec 4
  holdMs : BitVec 13
  dockId : W64
  dockNonce : List Byte
  nonce : List Byte
  helloFirst : Nat
  helloLast : Nat
  priorEpoch : Half
  rehome : Bool
  afterRate : Bool
  live : Bool
  authAt : Option Nat
  partnerRates : BitVec 4
  dropped : BitVec 4
  trainFails : Nat
  trainEnd : Option Nat
  energyAt : Option Nat
  paged : Bool
  offered : BitVec 4
  pages : List (BitVec 11)
  moved : Bool
  trainRate : BitVec 4
  lastRate : BitVec 4
  lastRx : Nat
  lastTx : Nat
  deriving DecidableEq, Repr

/-- Time lock, calibration and rate change of a seat (07 R213 to R221). -/
structure SeatTime where
  dDelay : Nat
  ys : List Int
  lastBase : Nat
  lastUpdate : Nat
  lock : BitVec 2
  phase : Half
  dockMargin : Half
  minMargin : Half
  margin : Half
  margins : List Half
  ratePhase : RatePhase
  stopUt : Nat
  ackBy : Nat
  recorded : Option (BitVec 4)
  targetFrom : Option Nat
  deriving DecidableEq, Repr

/-- What passes the interface between a seat interface and its PCS (07 R182). -/
inductive PcsChar where
  | start
  | data (b : Byte)
  | terminate
  | idle
  deriving DecidableEq, Repr

/-- What a seat interface sends to its PCS for one frame (MODEL's own outbox). -/
structure LineTx where
  seat : Seat
  chars : List PcsChar
  deriving DecidableEq, Repr

structure LinkSt where
  seats : Tab SeatLink
  times : Tab SeatTime
  tuns : Tab TunSt
  keys : List (W64 × List Byte)
  line : List LineTx
  deriving DecidableEq, Repr

/-! ### Display (08) -/

inductive HeadState where
  | absent | detached | attached
  deriving DecidableEq, Repr

/-- Timing of a head, as `HEAD_CONFIG` carries it (08 R223, R237). -/
structure Timing where
  h : Nat
  v : Nat
  clock : Nat
  ht : Nat
  vt : Nat
  hf : Nat
  hs : Nat
  vf : Nat
  vs : Nat
  flags : Byte
  deriving DecidableEq, Repr

/-- A head (08 R224 to R244). `frame`: reference frame pixels, keyed by x + 4096 y; `store`: the slice
store; `waiting`: frames that wait on R229 with their numbers; `cur`: the frame begun and not yet recorded
with its number; `todo`: positions still to encode for it. -/
structure HeadSt where
  st : HeadState
  timing : Timing
  bpp : Nat
  bcastSrc : Bool
  islet : IsletNo
  charge : Nat
  frame : Tab (BitVec 24)
  store : Tab (List Byte)
  heldOver : List Nat
  frameNo : Half
  waiting : List (Nat × Half)
  gather : Option (Fin 16)
  newest : Half
  todo : List Nat
  cur : Option (Nat × Half)
  tiles : Nat
  encoded : Nat
  changed : Nat
  landed : Bool
  mirrored : Bool
  refresh : Bool
  encodedAny : Bool
  deriving DecidableEq, Repr

/-- A seat output as a viewer, and what its dock reports (08 R234 to R241). `config`: the latest
configuration number, with the `ATTACH` entry that waits for it; `owed`: a `HEAD_CONFIG` that waits for a multicast
generation of a core to retire (09 R258), with the `ATTACH` entry it is for; `screen`: it shows the status screen, drawn
at `screenUt` from `screenFacts` at the timing `screenAt`. -/
structure ViewSt where
  monitor : Bool
  maxClock : Nat
  storeBytes : Nat
  edid : List Byte
  source : Option (IsletNo × HeadNo)
  pendingPos : List Nat
  applied : Half
  appliedUt : W64
  changes : BitVec 4
  behind : Bool
  lastCommit : Half
  lastCommitUt : Nat
  commitDue : Bool
  config : Option (Half × Option Nat)
  owed : Option (CoreId × Fin 256 × Byte × Option Nat)
  screen : Bool
  screenAt : Timing
  screenUt : Nat
  screenFacts : List Nat
  deriving DecidableEq, Repr

/-- A gather channel (08 R230, `GATHER_STATUS_c`). `todo`: its tiles in table order with their place in the
table; `tiles`: those that have landed; `total`: entries of the table; `bad`: an entry was out of range. -/
structure GatherSt where
  state : BitVec 3
  head : Byte
  fetched : Half
  residue : Half
  busy : Option HeadNo
  todo : List (Nat × Nat)
  tiles : List Nat
  total : Nat
  bad : Bool
  deriving DecidableEq, Repr

structure DispSt2 where
  heads : Tab HeadSt
  views : Tab ViewSt
  gathers : Tab GatherSt
  pipes : Tab (Option (HeadNo × Nat))
  mirrors : Tab (Tab (BitVec 24))
  twinStores : Tab (Tab (List Byte))
  twinParts : Tab (List Byte × List Nat)
  configNos : Tab Half
  deriving DecidableEq, Repr

/-! ### Fabric (09) -/

inductive FabState where
  | down | up | hold | notServed | spare | sleeping
  deriving DecidableEq, Repr

/-- Where a stored frame's cells are charged (09 R259). -/
inductive Admit where
  | outMin | isletMin | pool
  deriving DecidableEq, Repr

/-- A cell in an input's staging register: its frame and the outputs it still needs (09 R249, R250). -/
structure StagedCell where
  frame : Nat
  left : List Nat
  first : Bool
  last : Bool
  deriving DecidableEq, Repr

/-- A frame in the fabric (09 R247, R251 to R254, R258 to R260). `dests`: outputs it has still to leave;
`unsent`: outputs where it has still to be transmitted (R258); `group`: its multicast group and generation; `trunkSeq`:
its numbers into trunks, `outSeq`: its number out of one (R256); `header`: the 16 bytes of R247; `data`: its bytes after
them; `copy`: of a multicast display frame, the local head and whether it ends a slice. -/
structure FabFrame where
  input : Nat
  dests : List Nat
  cls : Fin 8
  account : Nat
  cells : Nat
  bytes : Nat
  strait : Bool
  verdict : Option Bool
  allowIn : Admit
  group : Option (Fin 256 × Byte)
  trunkSeq : Tab Half
  outSeq : Option Half
  unsent : List Nat
  header : List Byte
  data : List Byte
  copy : Option (Nat × Bool)
  deriving DecidableEq, Repr

/-- One multicast group (09 R257, R258). `inside`: earlier generations that have not retired. -/
structure GroupSt where
  staged : W64
  seats : W64
  valid : Bool
  causeway : Bool
  inside : List Byte
  retired : Byte
  gen : Byte
  deriving DecidableEq, Repr

/-- A resequencer of (output, trunk, class): the next number, the frames held, when its wait began
(09 R256); `restart`: it takes the first number received as its next (R263). -/
structure ReseqSt where
  next : Half
  restart : Bool
  held : List (Half × Option Nat)
  since : Option Nat
  deriving DecidableEq, Repr

/-- A fabric port (09 R246, R250, R259, R263). `minUsed` and `queues` are keyed by class; `arriving`: the frame
whose cells come in at this input, by its key plus 1, 0 for a frame being discarded; `sending`: the frame on its
way out and the cell times left (R264). -/
structure FabPort where
  outMin : W64
  minUsed : Tab Nat
  poolCells : Nat
  cells : Nat
  discards : Half
  state : FabState
  staging : List StagedCell
  grantPtr : Nat
  acceptPtr : Nat
  arriving : Option Nat
  queues : Tab (List Nat)
  sending : Option (Nat × Nat)
  deriving DecidableEq, Repr

/-- A core's cell fabric (09). `landed`: frames whose last cell has reached an output, in the order of R254, with
that output; `sent`: what the blocks behind the outputs have been given, oldest first (MODEL's own outbox); `behind`: frames that
wait in the resequencers of the blocks behind trunks (R256); `kept`: frames
that blocks offer again, oldest first (R261). -/
structure FabCore where
  ports : Tab FabPort
  frames : Tab FabFrame
  nextFrame : Nat
  groups : Tab GroupSt
  trunkNext : Tab Half
  reseq : Tab ReseqSt
  poolControl : W64
  refused : Bool
  poolUsed : Nat
  isletUsed : Tab Nat
  lastRefusal : Option Nat
  landed : List (Nat × Nat)
  sent : List Nat
  behind : Tab FabFrame
  kept : List KeptFrame
  deriving DecidableEq, Repr

structure FabSt where
  a : FabCore
  b : FabCore
  deriving DecidableEq, Repr

/-! ### Seat traffic (10) -/

/-- A token bucket's level in 1/8000 byte and the time of its last evaluation (10 R282). -/
structure Bucket where
  level : Nat
  ut : Nat
  deriving DecidableEq, Repr

/-- A WFQ head's tags and the last finish tag of its queue (10 R273). `tagged` names the head that the tags
belong to: a new frame by its local output, a resend by its number plus 2. -/
structure WfqQ where
  start : Nat
  finish : Nat
  tagged : Option Nat
  lastF : Nat
  deriving DecidableEq, Repr

/-- Counts of a demand record while its frame runs, and the latched record (10 R286). -/
structure Demand where
  sent : Tab Nat
  rxNet : Nat
  yellow : Nat
  red : Nat
  excess : Nat
  latched : List Byte
  deriving DecidableEq, Repr

/-- Gate schedule, sharing, buckets and network queues of a seat (10). `calNow`: the slot in force on the
line; `calNext`: an accepted change with its `APPLY_FRAME`. -/
structure SeatTraf where
  entries : Tab W64
  overhead : Byte
  applied : List (Nat × BitVec 6)
  appliedOverhead : Nat
  nextSchedule : Option (Nat × List (Nat × BitVec 6) × Nat)
  fallback : Bool
  refused : Bool
  calLen : Nat
  calOff : Nat
  calNow : Nat × Nat
  calNext : List (Nat × Nat × Nat)
  weights : W64
  policeC : W64
  policeP : W64
  shapeC : W64
  shapeP : W64
  bPoliceC : Bucket
  bPoliceP : Bucket
  bShapeC : Bucket
  bShapeP : Bucket
  watts : W64
  deriving DecidableEq, Repr

structure SeatWfq where
  v : Nat
  vd : Nat
  usb : WfqQ
  iso : WfqQ
  disp : WfqQ
  net : WfqQ
  disp0 : WfqQ
  disp1 : WfqQ
  busyUntil : Nat
  deriving DecidableEq, Repr

/-- The network queues of a seat (10 R278 to R281): transmit entries whose frames are not yet in the NET tunnel,
the bytes read for them so far, and the receive buffers taken and not filled. -/
structure SeatNet where
  tx : List Nat
  data : Tab (List Byte)
  rx : List Nat
  red : Half
  yellowDrop : Half
  noBuffer : Half
  tooLong : Half
  deriving DecidableEq, Repr

/-- Bounds, host share and host demand of an islet (10 R285 to R288). -/
structure IsletTraf where
  weights : W64
  rates : W64
  hostPower : W64
  share : W64
  readNow : Nat
  writeNow : Nat
  demand : W64
  deriving DecidableEq, Repr

structure TrafSt where
  seats : Tab SeatTraf
  wfq : Tab SeatWfq
  net : Tab SeatNet
  demand : Tab Demand
  islets : Tab IsletTraf
  control : W64
  lastFrame : W32
  lastUs : Half
  missed : Half
  latchedFrame : Nat
  rateDrops : Tab Nat
  deriving DecidableEq, Repr

/-! ### Power (11) -/

/-- A supply (11 R291 to R293). `vins`: the readings of the last 1 s with their times, in 0.1 V. -/
structure SupplySt where
  present : Bool
  acOk : Bool
  dcOk : Bool
  overload : Bool
  changed : Bool
  vin : Nat
  pout : Nat
  vins : List (Nat × Nat)
  deriving DecidableEq, Repr

inductive PowerState where
  | off | detecting | classifying | waiting | powering | powered | shed | retryWait | fault | foreign | test
  deriving DecidableEq, Repr

/-- A seat port as power sourcing equipment (11 R296 to R303). Draws are in 0.1 W. `retrying`: power is tried again
after a fault and its retry count has not cleared; `waitUntil`: the end of the wait that the state names. -/
structure SeatPower where
  st : PowerState
  cause : BitVec 4
  assigned : Nat
  requested : Nat
  pairsets : BitVec 2
  sigPairs : BitVec 2
  dual : Bool
  pairMap : Byte
  openDistance : Byte
  retries : Byte
  retrying : Bool
  wakeSeen : Bool
  wakeLink : Bool
  enable : Bool
  poweredUt : Nat
  waitUntil : Nat
  mean1s : Nat
  peak1s : Nat
  meanFrame : Nat
  volts : Nat
  deriving DecidableEq, Repr

inductive DomState where
  | off | retention | on
  deriving DecidableEq, Repr

/-- A power domain (11 R304 to R310) with its client votes. `going`: the transition in progress and when it ends;
`holdUntil`: a woken domain stays on at least so long. -/
structure DomSt where
  policy : BitVec 2
  managerH1 : BitVec 2
  managerH0 : BitVec 2
  st : DomState
  target : DomState
  going : Option (DomState × Nat)
  pendingT : Option DomState
  wakeLatched : Bool
  oscSince : Option Nat
  transitions : W32
  block : BitVec 4
  holdUntil : Option Nat
  deriving DecidableEq, Repr

/-- A regulator request of a core (11 R312): direction, attempt, time sent, domains that wait for a raise. -/
structure RailReq where
  raise : Bool
  second : Bool
  sentUt : Nat
  waiters : List Nat
  deriving DecidableEq, Repr

structure PowCore where
  doms : Tab DomSt
  vte : Option RailReq
  vdsp : Option RailReq
  vteLow : Bool
  vdspLow : Bool
  onCausewayRef : Bool
  deriving DecidableEq, Repr

structure PowSt where
  sa : SupplySt
  sb : SupplySt
  budget : Nat
  sheds : Half
  seats : Tab SeatPower
  lastOn : Option Nat
  hardSince : Option Nat
  a : PowCore
  b : PowCore
  deriving DecidableEq, Repr

/-! ### Modes (12) -/

inductive Mode where
  | unpowered | coldStart | warmStart | service | awaiting | single | dual | solo | unsupervised
  | rolling | orphaned | safeStop
  deriving DecidableEq, Repr

/-- An image slot (12 R324, `IMAGE_SLOT_n`). -/
structure SlotSt where
  valid : Bool
  version : W32
  compat : Half
  deriving DecidableEq, Repr

/-- A rolling update in progress (12 R331). -/
structure RollSt where
  slot : Fin 2
  force : Bool
  phase : Nat
  port : PortId
  x : CoreId
  failed : Bool
  deriving DecidableEq, Repr

/-- A start in progress (12 R319, R326): `step` runs from 0 to 9. -/
structure StartSt where
  cold : Bool
  step : Nat
  t0 : Nat
  image : Fin 3
  recordService : Bool
  deriving DecidableEq, Repr

structure ModeSt where
  mode : Mode
  prev : Mode
  start : Option StartSt
  failCount : Nat
  failedShown : Nat
  onGolden : Bool
  goldenHeld : Bool
  stopCause : BitVec 4
  stopUt : Nat
  stopOff : Bool
  stopHot : Option CoreId
  reasons : BitVec 16
  first : Byte
  clearing : Tab (Option Nat)
  causes : BitVec 16
  slot0 : SlotSt
  slot1 : SlotSt
  golden : SlotSt
  runningA : Fin 3
  runningB : Fin 3
  bootSlot : Fin 2
  verified : Fin 3
  roll : Option RollSt
  writing : Option (PortId × Fin 2 × List Byte)
  lastInput : Nat
  timers : Tab (Option Nat)
  junctionA : Int
  junctionB : Int
  inlet : Int
  deriving DecidableEq, Repr

/-! ### Faults (13) -/

inductive SupState where
  | running | restarting | lost | standingDown
  deriving DecidableEq, Repr

/-- A core as the referee and its twin see it (13 R340 to R350, `CORE_STATUS`). -/
structure CoreSt where
  fenced : Bool
  failed : Bool
  fenceCause : BitVec 4
  failovers : Byte
  hardError : Byte
  dataOk : Bool
  sup : SupState
  supRestarts : Bool
  cwZeros : Nat
  supZeros : Nat
  lastBeat : Nat
  fenceAsked : Option Nat
  heldReset : Bool
  aliveTwin : Bool
  deriving DecidableEq, Repr

/-- An error log record (13 R356). -/
structure LogRec where
  ut : Nat
  seq : W32
  code : Half
  core : CoreId
  severity : Byte
  location : W32
  count : W32
  detail : W64
  deriving DecidableEq, Repr

/-- The referee, the lane switches, the causeway and the error logs (13; 01 R13, R16). `seats` names the
core each lane connects; `adopt`: the core whose state the twin has still to adopt, `adopted` the core whose queues and rings the twin runs; `moved` the seats;
`build`: the micro-frame of the fence (R346). -/
structure FltSt where
  a : CoreSt
  b : CoreSt
  token : CoreId
  refereeLost : Bool
  lanes : BitVec 16
  seats : Tab CoreId
  adopt : Option CoreId
  adopted : Option CoreId
  moved : W64
  buildFrom : Tab Nat
  steerPpm : Int
  utDiff : Int
  logA : List LogRec
  logB : List LogRec
  nextA : W32
  nextB : W32
  deriving DecidableEq, Repr

/-! ### Counters (14) -/

/-- The counters of one core (14). `bwOn`: the bandwidth windows ran when last evaluated; `bwUntil`: the end of the 10 s
after a failover; `bwStart`: the start of the window in progress; `win10`: the window length in force (R370). -/
structure CntCore where
  select : Tab W64
  value : Tab Nat
  snap : Tab Nat
  control : Byte
  freezeUt : W64
  snapUt : W64
  seat : Tab Nat
  seatOvf : Tab W64
  islet : Tab Nat
  hist : Tab Nat
  bwNow : Tab Nat
  bwLast : Tab Nat
  bwPeak : Tab Nat
  bwUntil : Nat
  bwStart : Nat
  bwOn : Bool
  win10 : Bool
  samplePc : Tab W64
  sampleFlow : Tab W64
  sampleUt : Tab W64
  sampleLost : Tab Half
  deriving DecidableEq, Repr

structure CntSt where
  a : CntCore
  b : CntCore
  deriving DecidableEq, Repr

/-! ### Field service (15) -/

/-- A console command (15 R375). -/
inductive ConsCmd where
  | help | status | seatShow (x : Seat) | seatList | seatCycle (x : Seat) | seatCont (x : Seat) (pair : Fin 4) (blink : Bool)
  | seatContRead | seatContOff | seatTdr (x : Seat) | supply | fans | log (n : Option Nat) | logPrev
  | errors (c : Option CoreId) | tp | meas (code : Nat) | testList | testRun (n : Nat) | service | serviceEnd
  | warm | cold (slot : Option (Fin 2)) | restart | stop
  deriving DecidableEq, Repr

/-- A lamp of the front panel (15 R386); `unstated`: the spec does not say. -/
inductive Lamp where
  | off | on | flashing | unstated
  deriving DecidableEq, Repr

/-- What a continuity test last read (15 R382). -/
inductive ContRead where
  | none | open_ | load (ohm : Int) | loop (deciOhm : Int) | foreign
  deriving DecidableEq, Repr

structure ContTest where
  seat : Seat
  pair : Fin 4
  blink : Bool
  started : Nat
  reading : ContRead
  deriving DecidableEq, Repr

/-- The service USB device (15 R377, R378). -/
structure SvcUsb where
  vbus : Bool
  pullup : Bool
  configured : Bool
  suspended : Bool
  dtr : Bool
  coding : Option (List Byte)
  inBuf : List Byte
  outBuf : List Byte
  notify : Bool
  reply : List Byte
  stalled : Bool
  deriving DecidableEq, Repr

/-- The front panel (15 R384, R385). `item` 0 is rest. -/
structure Panel where
  item : Nat
  sub : Nat
  value : Nat
  lastPress : Nat
  sureUt : Option Nat
  noUt : Option Nat
  deriving DecidableEq, Repr

structure FanSt where
  present : Bool
  rpm : Nat
  deriving DecidableEq, Repr

/-- Field service (15). `confirm`: a command that waits for `yes`, its port and the time it was asked; `tdr`, `running`: the
cable test and the self-test in progress with the console that started them, none for the panel; `cable`: what the last
cable test found; `lastVerdict`: 0 not run, 1 running, 2 pass, 3 fail; `outRj`, `outUsb`: what has left on each port
(MODEL's own outboxes). -/
structure SvcSt where
  lineRj : List Byte
  lineUsb : List Byte
  outRj : List Byte
  outUsb : List Byte
  confirm : Option (ConsPort × ConsCmd × Nat)
  log : List (List Byte)
  saved : List (List Byte)
  measCode : Nat
  measMv : Nat
  measUt : Nat
  selected : Seat
  cont : Option ContTest
  tdr : Option (Seat × Option ConsPort)
  cable : List (Fin 4 × CableResult)
  verdicts : Tab Nat
  lastVerdict : Nat
  running : Option (Nat × Option ConsPort)
  usb : SvcUsb
  panel : Panel
  fans : Tab FanSt
  noticeUt : Nat
  deriving DecidableEq, Repr

/-- The whole unit. `free` numbers the free values taken so far (log entry 3; the MODEL's own field);
`pending` is the queue of waiting commands, first in first out. -/
structure State where
  time : TimeSt
  host : HostSt
  isl : Tab IsletSt
  wq : WqSt
  prog : ProgSt
  te : TeGroup
  evt : EvtSt
  mem : MemSt
  usb : UsbSt
  link : LinkSt
  disp : DispSt2
  fab : FabSt
  traf : TrafSt
  pow : PowSt
  mode : ModeSt
  flt : FltSt
  cnt : CntSt
  svc : SvcSt
  free : Nat
  pending : List Instr
  deriving DecidableEq, Repr

/-- Reasons a command stops the machine. No command of this spec stops it: every error the spec describes
is a status, a refusal bit or a fault record held in the state, so no meaning answers with one. -/
inductive Fault where
  /-- Raised by nothing (safe). -/
  | none_
  deriving DecidableEq, Repr

/-- Reasons the model gives a command no meaning. -/
inductive Refusal where
  /-- Raised by an arm of `exec` whose command has no meaning yet (safe). -/
  | notModelled (mnemonic : String)
  deriving DecidableEq, Repr

/-! ### Values at reset (16 R388 to R394 and the chapters; log entries 2 to 8) -/

def FnSt.init : FnSt :=
  { link := .down, bme := false, pasidEn := false, msixEn := false, aspmL1 := false, maxPay := 128, maxRead := 512, timeout := 50 * 1000000,
    ecrc := false, gen := 0, width := 0, unmasked := [], table := [], pba := [], modeChange := false }

def CmdSt.init : CmdSt :=
  { addr := 0, busy := false, op := 0, arg := 0, status := 0, detail := 0, force := false,
    fn := { port := .h0, core := .a }, latched := 0, goUt := 0, turn := 0, phase := .idle }

def PortSt.init : PortSt :=
  { leaseMs := 0x03E8, leaseEnd := none, wiringRefused := false, islet := CmdSt.init,
    unitProgram := CmdSt.init, dockKey := CmdSt.init, unitCmd := CmdSt.init, stockRestored := false,
    progFaults := 0 }

def SemSt.init : SemSt := { holder := none, broken := false }

def StoreCopy.init : StoreCopy :=
  { unitIndex := 0, wiring := false, linkCtl := [], powerCtl := [], bootSlot := 0, valid0 := true,
    valid1 := false, keys := [], savedLog := [] }

def HostSt.init : HostSt :=
  { h0a := FnSt.init, h0b := FnSt.init, h1a := FnSt.init, h1b := FnSt.init, p0 := PortSt.init,
    p1 := PortSt.init, unitIndex := 0, wiring := false, sems := [], tieNext := .h0,
    budget := 0x00030D40, reads := [], reqs := [], nextRead := 0, waiting := [], deficit := [], turn := [], lastRead := 0, tx := [],
    store := { copy0 := StoreCopy.init, copy1 := StoreCopy.init, ok0 := true, ok1 := true,
               newest1 := false, seq := 0 } }

def IsletSt.init : IsletSt :=
  { st := .free, halt := 0, failovers := 0, lapsed := false, prot := false, bcast := false,
    grant := false, paired := false, home := .h0, owner := .h0, pasid := 0, seats := 0, qa := 0, qb := 0,
    ra := 0, rb := 0, dqa := 0, dqb := 0, dra := 0, drb := 0, vectors := 0, vbase := 0, weight := 0, budget := 0, dispMib := 0, fabKib := 0,
    bmask := 0, viaOtherA := false, viaOtherB := false, lostA := false, lostB := false, haltInfoA := 0,
    haltInfoB := 0 }

def QueueSt.init : QueueSt :=
  { base := 0, enable := false, refused := false, log2 := 0, ring := 0, weight := 0, burst := 0, p := 0,
    c := 0, frozen := false, cause := 0, cache := [], inl := [], posts := [], next := 0, credit := 0,
    invals := [], seen := [], again := 0 }

def RingSt.init : RingSt :=
  { base := 0, enable := false, refused := false, log2 := 0, vector := 0xFFFF, p := 0, c := 0,
    made := [], held := [], stalled := false, errIw := false, errMw := false, latch := [],
    unreported := [], differSince := none }

def Item.init : Item :=
  { kind := 7, level := 0, flow := 0, islet := 0, seat := none, head := none, arg := 0, home := 0,
    readyUt := 0, passed := 0, frame := [], srcFrame := none, resume := false, iso := false }

def Run.init : Run :=
  { item := Item.init, prog := .stock, base := 0, regs := Vector.replicate 32 0, pc := 0, loops := [], rets := [],
    toks := Vector.replicate 8 .idle, scratch := [], count := 0, script := none, startUt := 0, slot := 0, tickRd := 0 }

def TeSt.init : TeSt :=
  { cur := none, staged := none, pre := none, inHandler := false, priorUnit := false, epc := 0,
    ecause := 0, hpc := 0, hbank := Vector.replicate 8 0, lastFlows := [], idle := Run.init, load := 0, busy := 0,
    waiting := false, late := false }

def DispSt.init : DispSt :=
  { ready := [], isoWait := [], suspended := [], lastTe := [], holdBack := false, episodes := 0, maxWait := [],
    preempt := 0, changing := 0, levels := 0x1372E, clusterLo := 0xE4E4E4E4E4E4E4E4,
    clusterHi := 0xE4E4E4E4E4E4E4E4 }

def EvtCore.init : EvtCore :=
  { pending := [], mask := [], privPending := [], privMask := [], base := [], timer := [], armed := [],
    source := [], supVector := 0 }

def UsbSeat.init : UsbSeat :=
  { profile := none, profileSeen := false, hubOps := [], portRecs := [], flushes := [], scripts := [],
    lastBuild := 0, stale := [], lastEvent := none }

def EpSt.init : EpSt :=
  { islet := 0, seat := 0, addr := 0, ep := 0, dirIn := false, mode := 0, maxPacket := 0, speed := 0,
    rootPort := 0, ttHub := 0, ttPort := 0, burst := 0, state := 0, toggle := false, phase := 0, cost := 0,
    queue := [], doneBytes := 0, sentBytes := 0, nextN := 0, outOff := 0, closers := [] }

def XferSt.init : XferSt :=
  { ep := 0, dirIn := false, len := 0, segs := [], moved := 0, stage := 0, outstanding := 0,
    deadline := none, ending := none, lastDock := 0, pkts := [], hostFail := false, outData := [],
    outLen := 0, outSent := 0, outDone := 0 }

def RootPortSt.init : RootPortSt :=
  { st := .notPresent, speed := 0, power := false, overcurrent := false, connected := false,
    changes := 0, last := 0, busy := none, before := .notPresent, former := false, byCommand := false,
    ignoreResume := false, cmdNo := 0, powering := false, ssOff := false }

def SeatLink.init : SeatLink :=
  { st := .noPartner, epoch := 0, svcEpoch := 0, svcDock := 0, pcsUp := false, holdStart := none,
    holdLen := 0, downCause := 0, rateResult := 0, rate := 0, disable := false, rateMax := 4,
    rateTarget := 0, holdMs := 0x0FA, dockId := 0, dockNonce := [], nonce := [], helloFirst := 0,
    helloLast := 0, priorEpoch := 0, rehome := false, afterRate := false, live := false, authAt := none,
    partnerRates := 0, dropped := 0, trainFails := 0, trainEnd := none, energyAt := none,
    paged := false, offered := 0, pages := [], moved := false,
    trainRate := 0, lastRate := 0, lastRx := 0, lastTx := 0 }

def SeatTime.init : SeatTime :=
  { dDelay := 0, ys := [], lastBase := 0, lastUpdate := 0, lock := 0, phase := 0, dockMargin := 0x8000,
    minMargin := 0x8000, margin := 0x8000, margins := [], ratePhase := .none,
    stopUt := 0, ackBy := 0, recorded := none, targetFrom := none }

def TunSt.init : TunSt :=
  { next := 0, free := 0, peerRecv := 0, held := [], queue := [], resend := [], sinceReq := 0,
    timers := [], expiries := 0, recv := 0, ack := 0, acting := [],
    ahead := [], reportBy := none, nakAfter := 0 }

def Timing.init : Timing :=
  { h := 0, v := 0, clock := 0, ht := 0, vt := 0, hf := 0, hs := 0, vf := 0, vs := 0, flags := 0 }

def HeadSt.init : HeadSt :=
  { st := .absent, timing := Timing.init, bpp := 0, bcastSrc := false, islet := 0, charge := 0,
    frame := [], store := [], heldOver := [], frameNo := 0, waiting := [], gather := none, newest := 0,
    todo := [], cur := none, tiles := 0, encoded := 0, changed := 0, landed := true, mirrored := false,
    refresh := false, encodedAny := false }

def ViewSt.init : ViewSt :=
  { monitor := false, maxClock := 0, storeBytes := 0, edid := [], source := none, pendingPos := [],
    applied := 0, appliedUt := 0, changes := 0, behind := false, lastCommit := 0, lastCommitUt := 0,
    commitDue := false, config := none, owed := none, screen := false, screenAt := Timing.init, screenUt := 0,
    screenFacts := [] }

def GatherSt.init : GatherSt :=
  { state := 0, head := 0, fetched := 0, residue := 0, busy := none, todo := [], tiles := [], total := 0,
    bad := false }

def GroupSt.init : GroupSt :=
  { staged := 0, seats := 0, valid := false, causeway := false, inside := [], retired := 0, gen := 0 }

def ReseqSt.init : ReseqSt := { next := 0, restart := false, held := [], since := none }

/-- The state a fabric port of core `a` or `b` is found in after reset (09 R263; log entry 6): seat ports
by the normal ownership of R9, trunks down, spare ports spare. -/
def FabState.found (coreB : Bool) (p : Nat) : FabState :=
  if p < 64 then (if decide (p < 32) = coreB then .notServed else .up)
  else if p < 124 then .down else if p < 154 then .up else .spare

def FabPort.init (coreB : Bool) (p : Nat) : FabPort :=
  { outMin := if p < 154 then 0x2525252525252525 else 0, minUsed := [], poolCells := 0, cells := 0,
    discards := 0, state := FabState.found coreB p, staging := [], grantPtr := 0, acceptPtr := 0,
    arriving := none, queues := [], sending := none }

def FabCore.init : FabCore :=
  { ports := [], frames := [], nextFrame := 0, groups := [], trunkNext := [], reseq := [],
    poolControl := 0x1000000088110620, refused := false, poolUsed := 0, isletUsed := [],
    lastRefusal := none, landed := [], sent := [], behind := [], kept := [] }

/-- `GATE_ENTRY_s_e` at reset (10). -/
def gateEntryInit (e : Nat) : W64 :=
  if e = 0 then 0x0000010F00000000 else if e = 1 then 0x00000137000088B8 else 0

/-- The reset schedule: start and open set of its entries (10 R267). -/
def resetSchedule : List (Nat × BitVec 6) := [(0, 0x0F), (35000, 0x37)]

def SeatTraf.init : SeatTraf :=
  { entries := [], overhead := 0x1B, applied := resetSchedule, appliedOverhead := 27,
    nextSchedule := none, fallback := false, refused := false, calLen := 0x07D0, calOff := 0xF3A70,
    calNow := (0xF3A70, 0x07D0), calNext := [], weights := 0x0000010104081004,
    policeC := 0x00000100000001F4, policeP := 0x00000046A40003E8, shapeC := 0x00000100000001F4,
    shapeP := 0x00000046A40003E8, bPoliceC := { level := 0x10000 * 8000, ut := 0 },
    bPoliceP := { level := 0x46A4 * 8000, ut := 0 }, bShapeC := { level := 0x10000 * 8000, ut := 0 },
    bShapeP := { level := 0x46A4 * 8000, ut := 0 }, watts := 0x3C }

def WfqQ.init : WfqQ := { start := 0, finish := 0, tagged := none, lastF := 0 }

def SeatWfq.init : SeatWfq :=
  { v := 0, vd := 0, usb := WfqQ.init, iso := WfqQ.init, disp := WfqQ.init, net := WfqQ.init,
    disp0 := WfqQ.init, disp1 := WfqQ.init, busyUntil := 0 }

def SeatNet.init : SeatNet :=
  { tx := [], data := [], rx := [], red := 0, yellowDrop := 0, noBuffer := 0, tooLong := 0 }

def Demand.init : Demand := { sent := [], rxNet := 0, yellow := 0, red := 0, excess := 0, latched := [] }

def IsletTraf.init : IsletTraf :=
  { weights := 0x0000FF01FF01FF01, rates := 0x000003E803E80000, hostPower := 0x03FF000100003C0D,
    share := 0x40, readNow := 0, writeNow := 0, demand := 0 }

def SupplySt.init : SupplySt :=
  { present := true, acOk := true, dcOk := true, overload := false, changed := false, vin := 0, pout := 0,
    vins := [] }

def SeatPower.init : SeatPower :=
  { st := .detecting, cause := 0, assigned := 0, requested := 0, pairsets := 0, sigPairs := 0,
    dual := false, pairMap := 0, openDistance := 0xFF, retries := 0, retrying := false, wakeSeen := false, wakeLink := true,
    enable := true, poweredUt := 0, waitUntil := 0, mean1s := 0, peak1s := 0, meanFrame := 0, volts := 0 }

def DomSt.init : DomSt :=
  { policy := 0, managerH1 := 0, managerH0 := 0, st := .on, target := .on, going := none,
    pendingT := none, wakeLatched := false, oscSince := none, transitions := 0,
    block := 0, holdUntil := none }

def PowCore.init : PowCore :=
  { doms := [], vte := none, vdsp := none, vteLow := false, vdspLow := false, onCausewayRef := false }

def SlotSt.init (valid : Bool) : SlotSt := { valid := valid, version := 0, compat := 0 }

def ModeSt.init : ModeSt :=
  { mode := .coldStart, prev := .coldStart, start := none, failCount := 0, failedShown := 0,
    onGolden := false, goldenHeld := false, stopCause := 0, stopUt := 0, stopOff := false, stopHot := none, reasons := 0,
    first := 0, clearing := [], causes := 0, slot0 := SlotSt.init true, slot1 := SlotSt.init false,
    golden := SlotSt.init true, runningA := 0, runningB := 0, bootSlot := 0, verified := 0, roll := none,
    writing := none, lastInput := 0, timers := [], junctionA := 0, junctionB := 0, inlet := 0 }

def CoreSt.init : CoreSt :=
  { fenced := false, failed := false, fenceCause := 0, failovers := 0, hardError := 0, dataOk := true,
    sup := .running, supRestarts := false, cwZeros := 0, supZeros := 0, lastBeat := 0, fenceAsked := none,
    heldReset := false, aliveTwin := true }

/-- The core that serves a seat in normal service (R9). -/
def normalCore (s : Nat) : CoreId := if s < 32 then .a else .b

def CntCore.init : CntCore :=
  { select := [], value := [], snap := [], control := 0, freezeUt := 0, snapUt := 0, seat := [],
    seatOvf := [], islet := [], hist := [], bwNow := [], bwLast := [], bwPeak := [], bwUntil := 0,
    bwStart := 0, bwOn := false, win10 := false, samplePc := [], sampleFlow := [], sampleUt := [], sampleLost := [] }

def SvcUsb.init : SvcUsb :=
  { vbus := false, pullup := false, configured := false, suspended := false, dtr := false, coding := none,
    inBuf := [], outBuf := [], notify := false, reply := [], stalled := false }

def FanSt.init : FanSt := { present := true, rpm := 9500 }

def SvcSt.init : SvcSt :=
  { lineRj := [], lineUsb := [], outRj := [], outUsb := [], confirm := none, log := [], saved := [],
    measCode := 0, measMv := 500, measUt := 0, selected := 0, cont := none, tdr := none, cable := [], verdicts := [],
    lastVerdict := 0, running := none, usb := SvcUsb.init,
    panel := { item := 0, sub := 0, value := 0, lastPress := 0, sureUt := none, noUt := none },
    fans := [], noticeUt := 0 }

/-- The machine right after reset: the registers at their reset values, every store empty. -/
def State.reset : State :=
  { time := { utA := 0, utB := 0, rem := 0 },
    host := HostSt.init,
    isl := [],
    wq := { queues := [], rings := [], shQueues := [], shRings := [], entries := [], nextHandle := 0,
            discards := [], visit := [] },
    prog := { storeA := [], storeB := [] },
    te := { tes := [], dispA := DispSt.init, dispB := DispSt.init },
    evt := { a := EvtCore.init, b := EvtCore.init, lastSweep := 0 },
    mem := { isw := [], dram := [], due := [], unsent := [] },
    usb := { seats := [], ports := [], eps := [], xfers := [], tts := [] },
    link := { seats := [], times := [], tuns := [], keys := [], line := [] },
    disp := { heads := [], views := [], gathers := [], pipes := [], mirrors := [], twinStores := [],
              twinParts := [], configNos := [] },
    fab := { a := FabCore.init, b := FabCore.init },
    traf := { seats := [], wfq := [], net := [], demand := [], islets := [], control := 0x1F00,
              lastFrame := 0, lastUs := 0, missed := 0, latchedFrame := 0, rateDrops := [] },
    pow := { sa := SupplySt.init, sb := SupplySt.init, budget := 0, sheds := 0, seats := [],
             lastOn := none, hardSince := none, a := PowCore.init, b := PowCore.init },
    mode := ModeSt.init,
    flt := { a := CoreSt.init, b := CoreSt.init, token := .a, refereeLost := false,
             lanes := 0, seats := [], adopt := none, adopted := none, moved := 0, buildFrom := [], steerPpm := 0,
             utDiff := 0, logA := [], logB := [], nextA := 0, nextB := 0 },
    cnt := { a := CntCore.init, b := CntCore.init },
    svc := SvcSt.init,
    free := 0,
    pending := [] }

end Sys2Proof.Machine
end

