-- ==== Sys2Proof/Machine/Operands.lean ====
section
/-! DEFINITION. Operand forms: little-endian fields of byte strings (00 R4), bit ranges (00 R3), and the
numbering of cores, ports, seats and heads (00 R9). -/

namespace Sys2Proof.Machine

/-- The number whose little-endian bytes are `b` (R4). -/
def leNat : List Byte → Nat
  | [] => 0
  | x :: r => x.toNat + 256 * leNat r

/-- The `n` little-endian bytes of `v`, modulo 2^(8n) (R4). -/
def leBytes : Nat → Nat → List Byte
  | 0, _ => []
  | n + 1, v => BitVec.ofNat 8 v :: leBytes n (v / 256)

/-- The bytes at offset `off`, `n` of them; bytes beyond the end read 0. -/
def slice (b : List Byte) (off n : Nat) : List Byte :=
  let r := (b.drop off).take n
  r ++ List.replicate (n - r.length) 0

/-- The little-endian field of `n` bytes at offset `off` (R4). -/
def fld (b : List Byte) (off n : Nat) : Nat := leNat ((b.drop off).take n)

/-- Bits [h:l] of `v` (R3). -/
def bits (v h l : Nat) : Nat := (v / 2 ^ l) % 2 ^ (h + 1 - l)

/-- Bit `i` of `v` (R3). -/
def bit (v i : Nat) : Bool := v.testBit i

/-- `v` shifted into place at bit `l`. -/
def at_ (v l : Nat) : Nat := v * 2 ^ l

/-- 1 for true, 0 for false. -/
def b2n (b : Bool) : Nat := if b then 1 else 0

/-- Whether every byte is 0 (R7). -/
def allZero (b : List Byte) : Bool := b.all (· == 0)

/-- `(a - b) mod 2^16` (03 R57). -/
def sub16 (a b : Half) : Nat := (a - b).toNat

/-- Ceiling division. -/
def cdiv (a b : Nat) : Nat := (a + b - 1) / b

/-- `v` brought within `lo` and `hi`; where they cross, `hi` governs (10 R287). -/
def clampNat (lo hi v : Nat) : Nat := min hi (max lo v)

end Sys2Proof.Machine

namespace Sys2Proof

/-- 0 for core A, 1 for core B. -/
def CoreId.num : CoreId → Nat
  | .a => 0
  | .b => 1

/-- The other core (R9). -/
def CoreId.twin : CoreId → CoreId
  | .a => .b
  | .b => .a

def PortId.num : PortId → Nat
  | .h0 => 0
  | .h1 => 1

def PortId.other : PortId → PortId
  | .h0 => .h1
  | .h1 => .h0

def FnId.num (f : FnId) : Nat := 2 * f.port.num + f.core.num

/-- The four functions in the order of R9. -/
def allFns : List FnId := [⟨.h0, .a⟩, ⟨.h0, .b⟩, ⟨.h1, .a⟩, ⟨.h1, .b⟩]

def bothCores : List CoreId := [.a, .b]
def bothPorts : List PortId := [.h0, .h1]

/-- The seats 0 to 63. -/
def allSeats : List Seat := List.finRange 64

/-- The seats of a mask, ascending (02 R37). -/
def maskSeats (m : W64) : List Seat := allSeats.filter fun s => m.getLsbD s.val

/-- The seat of a unit head (R9). -/
def headSeat (h : HeadNo) : Seat := ⟨h.val / 2, by omega⟩

/-- The unit head of a seat and local head (R9). -/
def unitHead (s : Seat) (l : Fin 2) : HeadNo := ⟨2 * s.val + l.val, by omega⟩

/-- The local head of a unit head (R9). -/
def localHead (h : HeadNo) : Fin 2 := ⟨h.val % 2, Nat.mod_lt _ (by decide)⟩

/-- Tunnel codes of R190. -/
def Tunnel.code : Tunnel → Nat
  | .ctrl => 0
  | .sync => 1
  | .usb => 2
  | .iso => 3
  | .disp => 4
  | .net => 5

def Tunnel.ofCode (n : Nat) : Option Tunnel :=
  match n with
  | 0 => some .ctrl
  | 1 => some .sync
  | 2 => some .usb
  | 3 => some .iso
  | 4 => some .disp
  | 5 => some .net
  | _ => none

def allTunnels : List Tunnel := [.ctrl, .sync, .usb, .iso, .disp, .net]

/-- The fabric class of a tunnel (07 R190, 09 R248). -/
def Tunnel.cls : Tunnel → Nat
  | .ctrl => 7
  | .sync => 7
  | .usb => 5
  | .iso => 6
  | .disp => 4
  | .net => 2

/-- Whether the tunnel is reliable (07 R190). -/
def Tunnel.reliable : Tunnel → Bool
  | .iso => false
  | _ => true

end Sys2Proof

namespace Sys2Proof.Machine

/-- A number as an element of `Fin (n + 1)`, wrapped. -/
def toFin (n v : Nat) : Fin (n + 1) := ⟨v % (n + 1), Nat.mod_lt _ (Nat.succ_pos _)⟩

def toSeat (v : Nat) : Seat := toFin 63 v
def toIslet (v : Nat) : IsletNo := toFin 128 v
def toHead (v : Nat) : HeadNo := toFin 127 v

/-- ASCII bytes of a text. -/
def ascii (t : String) : List Byte := t.toList.map fun ch => BitVec.ofNat 8 ch.toNat

def digitsAux : Nat → Nat → List Byte
  | 0, _ => []
  | fuel + 1, n =>
    if n < 10 then [BitVec.ofNat 8 (48 + n)] else digitsAux fuel (n / 10) ++ [BitVec.ofNat 8 (48 + n % 10)]

/-- Decimal text of a number. -/
def dec (n : Nat) : List Byte := digitsAux 24 n

/-- Decimal text of a signed number. -/
def decInt (n : Int) : List Byte := if n < 0 then ascii "-" ++ dec n.natAbs else dec n.natAbs

/-- Decimal text, at least `w` digits. -/
def decPad (w n : Nat) : List Byte := let d := dec n; List.replicate (w - d.length) 48 ++ d

def hexDigit (n : Nat) : Byte := BitVec.ofNat 8 (if n < 10 then 48 + n else 55 + n)

/-- Hexadecimal text of `w` upper-case digits. -/
def hex : Nat → Nat → List Byte
  | 0, _ => []
  | w + 1, n => hex w (n / 16) ++ [hexDigit (n % 16)]

/-- A number in tenths as text with one decimal, for example 13.8. -/
def tenths (n : Nat) : List Byte := dec (n / 10) ++ ascii "." ++ dec (n % 10)

end Sys2Proof.Machine
end

