-- ==== Sys2Proof/Machine/Crypto.lean ====
section
/-! DEFINITION. The checks that the spec names by their published standards: the CRC-32 of IEEE 802.3 (04
R118, 07 R188), the CRC-32C (09 R247) and HMAC-SHA-256 of FIPS 198-1 and FIPS 180-4 (07 R203). PRESUMED: the constants and the
procedure are taken from those standards (log entry 13). -/

namespace Sys2Proof.Machine

/-! ### CRC-32 (IEEE 802.3) -/

def crcBit (c : W32) : W32 := if c.getLsbD 0 then (c >>> 1) ^^^ 0xEDB88320 else c >>> 1

def crcByte (c : W32) (b : Byte) : W32 :=
  let c := c ^^^ b.setWidth 32
  crcBit (crcBit (crcBit (crcBit (crcBit (crcBit (crcBit (crcBit c)))))))

/-- The CRC-32 of a byte string. -/
def crc32 (b : List Byte) : W32 := ~~~(b.foldl crcByte 0xFFFFFFFF)

/-! ### CRC-32C (09 R247) -/

def crcBitC (c : W32) : W32 := if c.getLsbD 0 then (c >>> 1) ^^^ 0x82F63B78 else c >>> 1

def crcByteC (c : W32) (b : Byte) : W32 :=
  let c := c ^^^ b.setWidth 32
  crcBitC (crcBitC (crcBitC (crcBitC (crcBitC (crcBitC (crcBitC (crcBitC c)))))))

/-- The CRC-32C of a byte string. -/
def crc32c (b : List Byte) : W32 := ~~~(b.foldl crcByteC 0xFFFFFFFF)

/-! ### SHA-256 -/

def shaK0 : List W32 :=
  [0x428a2f98, 0x71374491, 0xb5c0fbcf, 0xe9b5dba5, 0x3956c25b, 0x59f111f1, 0x923f82a4, 0xab1c5ed5,
   0xd807aa98, 0x12835b01, 0x243185be, 0x550c7dc3, 0x72be5d74, 0x80deb1fe, 0x9bdc06a7, 0xc19bf174]

def shaK1 : List W32 :=
  [0xe49b69c1, 0xefbe4786, 0x0fc19dc6, 0x240ca1cc, 0x2de92c6f, 0x4a7484aa, 0x5cb0a9dc, 0x76f988da,
   0x983e5152, 0xa831c66d, 0xb00327c8, 0xbf597fc7, 0xc6e00bf3, 0xd5a79147, 0x06ca6351, 0x14292967]

def shaK2 : List W32 :=
  [0x27b70a85, 0x2e1b2138, 0x4d2c6dfc, 0x53380d13, 0x650a7354, 0x766a0abb, 0x81c2c92e, 0x92722c85,
   0xa2bfe8a1, 0xa81a664b, 0xc24b8b70, 0xc76c51a3, 0xd192e819, 0xd6990624, 0xf40e3585, 0x106aa070]

def shaK3 : List W32 :=
  [0x19a4c116, 0x1e376c08, 0x2748774c, 0x34b0bcb5, 0x391c0cb3, 0x4ed8aa4a, 0x5b9cca4f, 0x682e6ff3,
   0x748f82ee, 0x78a5636f, 0x84c87814, 0x8cc70208, 0x90befffa, 0xa4506ceb, 0xbef9a3f7, 0xc67178f2]

/-- The 64 round constants. -/
def shaK : List W32 := shaK0 ++ shaK1 ++ shaK2 ++ shaK3

/-- The eight working words. -/
structure ShaSt where
  a : W32
  b : W32
  c : W32
  d : W32
  e : W32
  f : W32
  g : W32
  h : W32
  deriving DecidableEq, Repr

def shaInit : ShaSt :=
  { a := 0x6a09e667, b := 0xbb67ae85, c := 0x3c6ef372, d := 0xa54ff53a, e := 0x510e527f, f := 0x9b05688c,
    g := 0x1f83d9ab, h := 0x5be0cd19 }

def rotr (x : W32) (n : Nat) : W32 := (x >>> n) ||| (x <<< (32 - n))

/-- Extend the message schedule: the words are held newest first. -/
def shaExtend : Nat → List W32 → List W32
  | 0, w => w
  | n + 1, w =>
    let x (k : Nat) : W32 := (w[k]?).getD 0
    let s0 := rotr (x 14) 7 ^^^ rotr (x 14) 18 ^^^ (x 14 >>> 3)
    let s1 := rotr (x 1) 17 ^^^ rotr (x 1) 19 ^^^ (x 1 >>> 10)
    shaExtend n ((x 15 + s0 + x 6 + s1) :: w)

def shaRound (v : ShaSt) (kw : W32 × W32) : ShaSt :=
  let s1 := rotr v.e 6 ^^^ rotr v.e 11 ^^^ rotr v.e 25
  let ch := (v.e &&& v.f) ^^^ (~~~v.e &&& v.g)
  let t1 := v.h + s1 + ch + kw.1 + kw.2
  let s0 := rotr v.a 2 ^^^ rotr v.a 13 ^^^ rotr v.a 22
  let mj := (v.a &&& v.b) ^^^ (v.a &&& v.c) ^^^ (v.b &&& v.c)
  { a := t1 + s0 + mj, b := v.a, c := v.b, d := v.c, e := v.d + t1, f := v.e, g := v.f, h := v.g }

/-- A big-endian word of four bytes. -/
def beWord (b : List Byte) : W32 := b.foldl (fun w x => (w <<< 8) ||| x.setWidth 32) 0

/-- The words of a 64-byte block, first word first. -/
def blockWords (b : List Byte) : List W32 :=
  (List.range 16).map fun k => beWord ((b.drop (4 * k)).take 4)

def shaBlock (v : ShaSt) (b : List Byte) : ShaSt :=
  let w := (shaExtend 48 (blockWords b).reverse).reverse
  let r := (shaK.zip w).foldl shaRound v
  { a := v.a + r.a, b := v.b + r.b, c := v.c + r.c, d := v.d + r.d, e := v.e + r.e, f := v.f + r.f,
    g := v.g + r.g, h := v.h + r.h }

def shaBlocks : Nat → ShaSt → List Byte → ShaSt
  | 0, v, _ => v
  | n + 1, v, b => shaBlocks n (shaBlock v (b.take 64)) (b.drop 64)

/-- The padding of a message of `n` bytes. -/
def shaPad (n : Nat) : List Byte :=
  0x80 :: (List.replicate ((119 - n % 64) % 64) 0 ++ (leBytes 8 (8 * n)).reverse)

def wordBytes (w : W32) : List Byte := (leBytes 4 w.toNat).reverse

/-- SHA-256 of a byte string. -/
def sha256 (m : List Byte) : List Byte :=
  let p := m ++ shaPad m.length
  let v := shaBlocks (p.length / 64) shaInit p
  ([v.a, v.b, v.c, v.d, v.e, v.f, v.g, v.h].map wordBytes).flatten

/-- HMAC-SHA-256 with a key of at most 64 bytes. -/
def hmac (k m : List Byte) : List Byte :=
  let k := slice k 0 64
  sha256 (k.map (· ^^^ 0x5C) ++ sha256 (k.map (· ^^^ 0x36) ++ m))

end Sys2Proof.Machine
end

