-- ==== Sys2Proof/Config.lean ====
section
/-! DEFINITION. The constants of the unit, and the values that the spec leaves open: each of those is an
opaque constant with no body, so no proof can see what it is (log entries 3, 9, 10). -/

namespace Sys2Proof

/-- Random bytes of a nonce (07 R200): byte k of the n-th draw. -/
opaque Config.nonceByte : Nat → Nat → Byte
/-- The settings of a VESA DSC 1.2a encoding (08 R232). -/
structure DscSettings where
  convertRgb : Bool
  bitsPerComponent : Nat
  blockPrediction : Bool
  lineBufferDepth : Nat
  native422 : Bool
  native420 : Bool
  bitsPerPixel : Nat
  pictureWidth : Nat
  pictureHeight : Nat
  sliceWidth : Nat
  sliceHeight : Nat
  rateControl : List Nat
  deriving DecidableEq, Repr

/-- The rate-control parameters that DSC 1.2a recommends for 8 bits per component at some bits per pixel: the published
standard gives them, this spec does not restate them (08 R232; log entry 9). -/
opaque Config.dscRateControl : Nat → List Nat
/-- Byte k of the DSC 1.2a picture parameter set of some settings (08 R232; log entry 9). -/
opaque Config.ppsByte : DscSettings → Nat → Byte
/-- Byte k of the DSC 1.2a encoding of a slice's pixels under a parameter set (08 R232; log entry 9). -/
opaque Config.dscByte : List Byte → List (BitVec 24) → Nat → Byte
/-- Byte k of the encoding of a status screen's slice: its facts, the geometry and the position. The spec
gives the text and not the glyphs (08 R241; log entry 9). -/
opaque Config.screenByte : List Nat → Nat → Nat → Nat → Nat → Byte
/-- The signature check of a firmware image against Miolyn's key (12 R324; log entry 9). -/
opaque Config.signatureOk : List Byte → Bool
/-- The unit's serial number (17, "Field-replaceable parts"). -/
opaque Config.serial : W64
/-- The detailed timing of a monitor's EDID, when it has one: H, V, pixel clock and porches are fields of a
published format that this spec names and does not restate (08 R241; log entry 9). -/
opaque Config.edidTiming : List Byte → Option (List Nat)

/-- Program store byte address at which the stock program of a kind starts (04 R126; log entry 9). -/
opaque Config.stockEntry : Nat → Nat
/-- Byte k of the n-th descriptor of a kind 4 item: its layout is no interface (10 R281; log entry 17). -/
opaque Config.descriptorByte : Nat → Nat → Byte
/-- The n-th free 64-bit value: a value that the spec does not state (log entry 3). -/
opaque Config.freeWord : Nat → W64

/-- Words of the console and the panel that the spec does not give, by a number of the model's own (log entry 3). -/
opaque Config.wording : Nat → List Byte
/-- What ends an output line of the recorder console: the spec does not say (15 R373; log entry 3). -/
opaque Config.lineEnd : List Byte

/-- Length of a micro-frame in ns (00 R11). -/
def microFrame : Nat := 125000
/-- Length of a frame in ns (00 R11). -/
def frameNs : Nat := 1000000
/-- One millisecond in ns. -/
def ms : Nat := 1000000

end Sys2Proof
end

