-- ==== Sys2Proof/Machine/Ops.lean ====
section
/-! DEFINITION. The named operations over the state's stores: sparse arrays, memory, unit time, the
registers of functions, ports, islets, queues, rings, seats and cores, and what the unit sends to a host. -/

namespace Sys2Proof.Machine

/-! ### Sparse arrays (log entry 2) -/

/-- The value at key `k`; `d` is the key's default. -/
def tget {α : Type} : Tab α → Nat → α → α
  | [], _, d => d
  | (k', v) :: t, k, d => if k' = k then v else tget t k d

/-- No entry at key `k`. -/
def terase {α : Type} (t : Tab α) (k : Nat) : Tab α := t.filter fun e => decide (e.1 ≠ k)

def tput {α : Type} : Tab α → Nat → α → Tab α
  | [], k, v => [(k, v)]
  | (k', v') :: t, k, v =>
    if k < k' then (k, v) :: (k', v') :: t
    else if k' = k then (k, v) :: t
    else (k', v') :: tput t k v

/-- Write `v` at key `k`, keeping the canonical form: the default `d` is never listed. -/
def tset {α : Type} [DecidableEq α] (t : Tab α) (k : Nat) (v d : α) : Tab α :=
  if v = d then terase t k else tput t k v

/-- Change every listed value, keeping the canonical form. -/
def tmap {α : Type} [DecidableEq α] (f : α → α) (d : Nat → α) (t : Tab α) : Tab α :=
  t.foldr (fun e r => tset r e.1 (f e.2) (d e.1)) []

/-- The canonical form: strictly rising keys above `lo`, no listed default. -/
def twfFrom {α : Type} [DecidableEq α] (d : Nat → α) : Nat → Tab α → Bool
  | _, [] => true
  | lo, (k, v) :: t => decide (lo ≤ k) && decide (v ≠ d k) && twfFrom d (k + 1) t

/-- The canonical form of a sparse array with default `d`. -/
def twf {α : Type} [DecidableEq α] (d : Nat → α) (t : Tab α) : Bool := twfFrom d 0 t

/-! ### Byte memory (04 R92 to R94) -/

abbrev Memory := List Host.Cell

/-- Every byte that nothing has written reads 0 (R93, R94; unit DRAM: log entry 4). -/
def Memory.unlisted : Byte := 0

/-- The canonical form of a memory: addresses strictly rising, no entry equal to what an unlisted address
reads as. -/
def Memory.wf (m : Memory) : Bool := twf (fun _ => Memory.unlisted) m

/-- One byte of memory. -/
def readByte (m : Memory) (a : Nat) : Byte := tget m a Memory.unlisted

def writeByte (m : Memory) (a : Nat) (v : Byte) : Memory := tset m a v Memory.unlisted

/-- `n` bytes from address `a`, lowest first. -/
def readBytes (m : Memory) (a : Nat) : Nat → List Byte
  | 0 => []
  | n + 1 => readByte m a :: readBytes m (a + 1) n

/-- Write bytes at rising addresses from `a`. -/
def writeBytes (m : Memory) (a : Nat) : List Byte → Memory
  | [] => m
  | b :: r => writeBytes (writeByte m a b) (a + 1) r

/-! ### One setter per group -/

def State.setTime (s : State) (v : TimeSt) : State := { s with time := v }
def State.setHost (s : State) (v : HostSt) : State := { s with host := v }
def State.setIsl (s : State) (v : Tab IsletSt) : State := { s with isl := v }
def State.setWq (s : State) (v : WqSt) : State := { s with wq := v }
def State.setProg (s : State) (v : ProgSt) : State := { s with prog := v }
def State.setTe (s : State) (v : TeGroup) : State := { s with te := v }
def State.setEvt (s : State) (v : EvtSt) : State := { s with evt := v }
def State.setMem (s : State) (v : MemSt) : State := { s with mem := v }
def State.setUsb (s : State) (v : UsbSt) : State := { s with usb := v }
def State.setLink (s : State) (v : LinkSt) : State := { s with link := v }
def State.setDisp (s : State) (v : DispSt2) : State := { s with disp := v }
def State.setFab (s : State) (v : FabSt) : State := { s with fab := v }
def State.setTraf (s : State) (v : TrafSt) : State := { s with traf := v }
def State.setPow (s : State) (v : PowSt) : State := { s with pow := v }
def State.setMode (s : State) (v : ModeSt) : State := { s with mode := v }
def State.setFlt (s : State) (v : FltSt) : State := { s with flt := v }
def State.setCnt (s : State) (v : CntSt) : State := { s with cnt := v }
def State.setSvc (s : State) (v : SvcSt) : State := { s with svc := v }
def State.setFree (s : State) (v : Nat) : State := { s with free := v }
def State.setPending (s : State) (v : List Instr) : State := { s with pending := v }

/-! ### Unit time (01 R15, R16; log entry 1) -/

/-- UT of a core. -/
def State.ut (s : State) : CoreId → Nat
  | .a => s.time.utA
  | .b => s.time.utB

/-- The present UT of the time master, the core that holds the charge token (R16). -/
def State.now (s : State) : Nat := s.ut s.flt.token

/-! ### Free values (log entry 3) -/

/-- Take the number of the next free value. -/
def State.draw (s : State) : Nat × State := (s.free, s.setFree (s.free + 1))

/-! ### Functions and ports -/

def State.fnSt (s : State) (f : FnId) : FnSt :=
  match f.port, f.core with
  | .h0, .a => s.host.h0a
  | .h0, .b => s.host.h0b
  | .h1, .a => s.host.h1a
  | .h1, .b => s.host.h1b

def State.setFn (s : State) (f : FnId) (v : FnSt) : State :=
  s.setHost (match f.port, f.core with
    | .h0, .a => { s.host with h0a := v }
    | .h0, .b => { s.host with h0b := v }
    | .h1, .a => { s.host with h1a := v }
    | .h1, .b => { s.host with h1b := v })

def State.portSt (s : State) : PortId → PortSt
  | .h0 => s.host.p0
  | .h1 => s.host.p1

def State.setPort (s : State) (p : PortId) (v : PortSt) : State :=
  s.setHost (match p with
    | .h0 => { s.host with p0 := v }
    | .h1 => { s.host with p1 := v })

def PortSt.cmd (p : PortSt) : CmdSet → CmdSt
  | .islet => p.islet
  | .unitProgram => p.unitProgram
  | .dockKey => p.dockKey
  | .unitCmd => p.unitCmd

def PortSt.setCmd (p : PortSt) (k : CmdSet) (v : CmdSt) : PortSt :=
  match k with
  | .islet => { p with islet := v }
  | .unitProgram => { p with unitProgram := v }
  | .dockKey => { p with dockKey := v }
  | .unitCmd => { p with unitCmd := v }

def State.cmdSt (s : State) (p : PortId) (k : CmdSet) : CmdSt := (s.portSt p).cmd k
def State.setCmdSt (s : State) (p : PortId) (k : CmdSet) (v : CmdSt) : State :=
  s.setPort p ((s.portSt p).setCmd k v)

def State.sem (s : State) (n : Nat) : SemSt := tget s.host.sems n SemSt.init
def State.setSem (s : State) (n : Nat) (v : SemSt) : State :=
  s.setHost { s.host with sems := tset s.host.sems n v SemSt.init }

/-! ### Cores -/

def State.coreSt (s : State) : CoreId → CoreSt
  | .a => s.flt.a
  | .b => s.flt.b

def State.setCore (s : State) (c : CoreId) (v : CoreSt) : State :=
  s.setFlt (match c with
    | .a => { s.flt with a := v }
    | .b => { s.flt with b := v })

/-- A core that is neither fenced nor failed (12 R316, 13 R343). -/
def State.serves (s : State) (c : CoreId) : Bool := !(s.coreSt c).fenced && !(s.coreSt c).failed

/-- A causeway lane carries traffic and both cores serve (13 R340, R352). -/
def State.causewayUp (s : State) : Bool := s.flt.lanes != 0 && s.serves .a && s.serves .b

/-- A twin is there to protect and mirror: the causeway is up (02 R51, 08 R230). -/
def State.twinUp (s : State) : Bool := s.causewayUp

/-- The core whose seat interface the seat's lane connects (01 R13). -/
def State.servingCore (s : State) (x : Seat) : CoreId := tget s.flt.seats x.val (normalCore x.val)

def State.setServing (s : State) (x : Seat) (c : CoreId) : State :=
  s.setFlt { s.flt with seats := tset s.flt.seats x.val c (normalCore x.val) }

/-- A function is up: its link is up and its core is not fenced (12 R316). -/
def State.fnUp (s : State) (f : FnId) : Bool :=
  (s.fnSt f).link == .up && !(s.coreSt f.core).fenced

/-- A fenced core whose link is still there answers every read through its functions with 0xFF bytes (13 R343). -/
def State.fencedReads (s : State) (f : FnId) : Bool := (s.fnSt f).link == .up && (s.coreSt f.core).fenced

/-! ### Islets -/

def State.islet (s : State) (i : IsletNo) : IsletSt := tget s.isl i.val IsletSt.init
def State.setIslet (s : State) (i : IsletNo) (v : IsletSt) : State :=
  s.setIsl (tset s.isl i.val v IsletSt.init)

/-- The islets 1 to 128. -/
def allIslets : List IsletNo := (List.finRange 129).filter fun i => i.val != 0

def IsletSt.queues (x : IsletSt) : CoreId → Nat
  | .a => x.qa
  | .b => x.qb

def IsletSt.rings (x : IsletSt) : CoreId → Nat
  | .a => x.ra
  | .b => x.rb

def IsletSt.lost (x : IsletSt) : CoreId → Bool
  | .a => x.lostA
  | .b => x.lostB

def IsletSt.viaOther (x : IsletSt) : CoreId → Bool
  | .a => x.viaOtherA
  | .b => x.viaOtherB

def IsletSt.setViaOther (x : IsletSt) (c : CoreId) (v : Bool) : IsletSt :=
  match c with
  | .a => { x with viaOtherA := v }
  | .b => { x with viaOtherB := v }

def IsletSt.haltInfo (x : IsletSt) : CoreId → W64
  | .a => x.haltInfoA
  | .b => x.haltInfoB

def IsletSt.setHaltInfo (x : IsletSt) (c : CoreId) (v : W64) : IsletSt :=
  match c with
  | .a => { x with haltInfoA := v }
  | .b => { x with haltInfoB := v }

/-- The islet that owns a seat (02 R40), 0 for none. -/
def State.owner (s : State) (x : Seat) : IsletNo :=
  match allIslets.find? (fun i => (s.islet i).st != .free && (s.islet i).seats.getLsbD x.val) with
  | some i => i
  | none => 0

/-- The islet is bound through the function (02 R41). -/
def IsletSt.boundVia (x : IsletSt) (f : FnId) : Bool := x.st != .free && (f.port == x.home || x.paired)

/-- The function an islet's requests of a core use (02 R42). -/
def IsletSt.fnFor (x : IsletSt) (c : CoreId) : FnId :=
  { port := if x.viaOther c then x.home.other else x.home, core := c }

/-- The core that runs the queues and rings of core `c`: the twin after a failover (13 R345). -/
def State.runs (s : State) (c : CoreId) : CoreId := if s.flt.adopted = some c then c.twin else c

/-- The function that an islet's requests for the queues of a core use (02 R42). -/
def State.islFn (s : State) (c : CoreId) (i : IsletNo) : FnId := (s.islet i).fnFor (s.runs c)

/-- The function that an islet's requests use once its data has left by a port (01 R20): that port's, while no data has
left the islet's present one. -/
def State.fnBy (s : State) (c : CoreId) (i : IsletNo) (p : Option PortId) : FnId :=
  match p with
  | some p => { port := p, core := s.runs c }
  | none => s.islFn c i

/-! ### Queues, rings and entries -/

def qKey (c : CoreId) (i : IsletNo) (q : Nat) : Nat := (c.num * 129 + i.val) * 512 + q
def rKey (c : CoreId) (i : IsletNo) (r : Nat) : Nat := (c.num * 129 + i.val) * 256 + r
def ciKey (c : CoreId) (i : IsletNo) : Nat := c.num * 129 + i.val

def State.queue (s : State) (c : CoreId) (i : IsletNo) (q : Nat) : QueueSt :=
  tget s.wq.queues (qKey c i q) QueueSt.init
def State.setQueue (s : State) (c : CoreId) (i : IsletNo) (q : Nat) (v : QueueSt) : State :=
  s.setWq { s.wq with queues := tset s.wq.queues (qKey c i q) v QueueSt.init }
def State.ring (s : State) (c : CoreId) (i : IsletNo) (r : Nat) : RingSt :=
  tget s.wq.rings (rKey c i r) RingSt.init
def State.setRing (s : State) (c : CoreId) (i : IsletNo) (r : Nat) (v : RingSt) : State :=
  s.setWq { s.wq with rings := tset s.wq.rings (rKey c i r) v RingSt.init }

/-- The twin's shadow of queue q of core `c` (02 R43, 03 R66). -/
def State.shQueue (s : State) (c : CoreId) (i : IsletNo) (q : Nat) : QueueSt :=
  tget s.wq.shQueues (qKey c i q) QueueSt.init
def State.setShQueue (s : State) (c : CoreId) (i : IsletNo) (q : Nat) (v : QueueSt) : State :=
  s.setWq { s.wq with shQueues := tset s.wq.shQueues (qKey c i q) v QueueSt.init }
def State.shRing (s : State) (c : CoreId) (i : IsletNo) (r : Nat) : RingSt :=
  tget s.wq.shRings (rKey c i r) RingSt.init
def State.setShRing (s : State) (c : CoreId) (i : IsletNo) (r : Nat) (v : RingSt) : State :=
  s.setWq { s.wq with shRings := tset s.wq.shRings (rKey c i r) v RingSt.init }

def EntrySt.init : EntrySt :=
  { core := .a, islet := 0, queue := 0, ring := 0, port := none, ended := none, idx := 0, bytes := [], takenUt := 0, handed := false, started := false, moved := 0 }

/-- The open entry of a handle (04 R89). -/
def State.entry? (s : State) (h : Nat) : Option EntrySt :=
  let e := tget s.wq.entries h EntrySt.init
  if e = EntrySt.init then none else some e

def State.setEntry (s : State) (h : Nat) (v : EntrySt) : State :=
  s.setWq { s.wq with entries := tset s.wq.entries h v EntrySt.init }

/-- The function that an entry's requests use (01 R20, 02 R42). -/
def State.entryFn (s : State) (e : EntrySt) : FnId := s.fnBy e.core e.islet e.port

/-- An entry's data leaves by a port, and so will its record and its message (01 R20). -/
def State.usePort (s : State) (h : Nat) (p : PortId) : State :=
  match s.entry? h with
  | some e => s.setEntry h { e with port := some p }
  | none => s

/-! ### Transfer engines, dispatchers, event controllers -/

def teKey (c : CoreId) (t : TeNo) : Nat := c.num * 32 + t.val
def State.teSt (s : State) (c : CoreId) (t : TeNo) : TeSt := tget s.te.tes (teKey c t) TeSt.init
def State.setTeSt (s : State) (c : CoreId) (t : TeNo) (v : TeSt) : State :=
  s.setTe { s.te with tes := tset s.te.tes (teKey c t) v TeSt.init }

def State.dispatch (s : State) : CoreId → DispSt
  | .a => s.te.dispA
  | .b => s.te.dispB

def State.setDispatch (s : State) (c : CoreId) (v : DispSt) : State :=
  s.setTe (match c with
    | .a => { s.te with dispA := v }
    | .b => { s.te with dispB := v })

def State.evtCore (s : State) : CoreId → EvtCore
  | .a => s.evt.a
  | .b => s.evt.b

def State.setEvtCore (s : State) (c : CoreId) (v : EvtCore) : State :=
  s.setEvt (match c with
    | .a => { s.evt with a := v }
    | .b => { s.evt with b := v })

def State.store (s : State) : CoreId → List ImageSt
  | .a => s.prog.storeA
  | .b => s.prog.storeB

def State.setStore (s : State) (c : CoreId) (v : List ImageSt) : State :=
  s.setProg (match c with
    | .a => { s.prog with storeA := v }
    | .b => { s.prog with storeB := v })

/-! ### ISW, unit DRAM, due lists -/

def State.isw (s : State) (c : CoreId) (i : IsletNo) : Memory := tget s.mem.isw (ciKey c i) []
def State.setIsw (s : State) (c : CoreId) (i : IsletNo) (m : Memory) : State :=
  s.setMem { s.mem with isw := tset s.mem.isw (ciKey c i) m [] }

/-- The key of a flow on a core. -/
def flowKey (c : CoreId) (fl : BitVec 24) : Nat := c.num * 2 ^ 24 + fl.toNat

/-- The twin holds every ISW store of a flow made so far (04 R97). -/
def State.sentAll (s : State) (k : Nat) : State :=
  s.setMem { s.mem with unsent := tset s.mem.unsent k [] [] }

/-- Stores that no `done` or `tick` will copy are gone: those of a core that failed, or of an islet reset or
destroyed. -/
def State.dropStores (s : State) (gone : CoreId → IsletNo → Bool) : State :=
  s.setMem { s.mem with unsent := (s.mem.unsent.map fun e =>
    (e.1, e.2.filter fun p => !gone (if e.1 < 2 ^ 24 then .a else .b) p.1)).filter fun e => !e.2.isEmpty }
def State.dram (s : State) (c : CoreId) : Memory := tget s.mem.dram c.num []
def State.setDram (s : State) (c : CoreId) (m : Memory) : State :=
  s.setMem { s.mem with dram := tset s.mem.dram c.num m [] }
def State.due (s : State) (c : CoreId) (x : Seat) : Memory := tget s.mem.due (c.num * 64 + x.val) []
def State.setDue (s : State) (c : CoreId) (x : Seat) (m : Memory) : State :=
  s.setMem { s.mem with due := tset s.mem.due (c.num * 64 + x.val) m [] }

/-! ### Seats -/

def State.usbSeat (s : State) (x : Seat) : UsbSeat := tget s.usb.seats x.val UsbSeat.init
def State.setUsbSeat (s : State) (x : Seat) (v : UsbSeat) : State :=
  s.setUsb { s.usb with seats := tset s.usb.seats x.val v UsbSeat.init }
def rpKey (x : Seat) (p : RootPort) : Nat := x.val * 8 + p.val
def State.rootPort (s : State) (x : Seat) (p : RootPort) : RootPortSt :=
  tget s.usb.ports (rpKey x p) RootPortSt.init
def State.setRootPort (s : State) (x : Seat) (p : RootPort) (v : RootPortSt) : State :=
  s.setUsb { s.usb with ports := tset s.usb.ports (rpKey x p) v RootPortSt.init }
def State.link_ (s : State) (x : Seat) : SeatLink := tget s.link.seats x.val SeatLink.init
def State.setLink_ (s : State) (x : Seat) (v : SeatLink) : State :=
  s.setLink { s.link with seats := tset s.link.seats x.val v SeatLink.init }
def State.seatTime (s : State) (x : Seat) : SeatTime := tget s.link.times x.val SeatTime.init
def State.setSeatTime (s : State) (x : Seat) (v : SeatTime) : State :=
  s.setLink { s.link with times := tset s.link.times x.val v SeatTime.init }
def tunKey (x : Seat) (t : Tunnel) : Nat := x.val * 8 + t.code
def State.tun (s : State) (x : Seat) (t : Tunnel) : TunSt := tget s.link.tuns (tunKey x t) TunSt.init
def State.setTun (s : State) (x : Seat) (t : Tunnel) (v : TunSt) : State :=
  s.setLink { s.link with tuns := tset s.link.tuns (tunKey x t) v TunSt.init }
def State.head (s : State) (h : HeadNo) : HeadSt := tget s.disp.heads h.val HeadSt.init
def State.setHead (s : State) (h : HeadNo) (v : HeadSt) : State :=
  s.setDisp { s.disp with heads := tset s.disp.heads h.val v HeadSt.init }
def State.view (s : State) (h : HeadNo) : ViewSt := tget s.disp.views h.val ViewSt.init
def State.setView (s : State) (h : HeadNo) (v : ViewSt) : State :=
  s.setDisp { s.disp with views := tset s.disp.views h.val v ViewSt.init }
def gKey (c : CoreId) (g : Nat) : Nat := c.num * 16 + g
def State.gather (s : State) (c : CoreId) (g : Nat) : GatherSt :=
  tget s.disp.gathers (gKey c g) GatherSt.init
def State.setGather (s : State) (c : CoreId) (g : Nat) (v : GatherSt) : State :=
  s.setDisp { s.disp with gathers := tset s.disp.gathers (gKey c g) v GatherSt.init }
def State.pipe (s : State) (c : CoreId) (p : Nat) : Option (HeadNo × Nat) :=
  tget s.disp.pipes (gKey c p) none
def State.setPipe (s : State) (c : CoreId) (p : Nat) (v : Option (HeadNo × Nat)) : State :=
  s.setDisp { s.disp with pipes := tset s.disp.pipes (gKey c p) v none }
def State.seatTraf (s : State) (x : Seat) : SeatTraf := tget s.traf.seats x.val SeatTraf.init
def State.setSeatTraf (s : State) (x : Seat) (v : SeatTraf) : State :=
  s.setTraf { s.traf with seats := tset s.traf.seats x.val v SeatTraf.init }
def State.wfq (s : State) (x : Seat) : SeatWfq := tget s.traf.wfq x.val SeatWfq.init
def State.setWfq (s : State) (x : Seat) (v : SeatWfq) : State :=
  s.setTraf { s.traf with wfq := tset s.traf.wfq x.val v SeatWfq.init }
def State.seatNet (s : State) (x : Seat) : SeatNet := tget s.traf.net x.val SeatNet.init
def State.setSeatNet (s : State) (x : Seat) (v : SeatNet) : State :=
  s.setTraf { s.traf with net := tset s.traf.net x.val v SeatNet.init }
def State.demand (s : State) (x : Seat) : Demand := tget s.traf.demand x.val Demand.init
def State.setDemand (s : State) (x : Seat) (v : Demand) : State :=
  s.setTraf { s.traf with demand := tset s.traf.demand x.val v Demand.init }
def State.isletTraf (s : State) (i : IsletNo) : IsletTraf := tget s.traf.islets i.val IsletTraf.init
def State.setIsletTraf (s : State) (i : IsletNo) (v : IsletTraf) : State :=
  s.setTraf { s.traf with islets := tset s.traf.islets i.val v IsletTraf.init }
def State.seatPower (s : State) (x : Seat) : SeatPower := tget s.pow.seats x.val SeatPower.init
def State.setSeatPower (s : State) (x : Seat) (v : SeatPower) : State :=
  s.setPow { s.pow with seats := tset s.pow.seats x.val v SeatPower.init }
def State.powCore (s : State) : CoreId → PowCore
  | .a => s.pow.a
  | .b => s.pow.b
def State.setPowCore (s : State) (c : CoreId) (v : PowCore) : State :=
  s.setPow (match c with
    | .a => { s.pow with a := v }
    | .b => { s.pow with b := v })
def State.domain (s : State) (c : CoreId) (d : Nat) : DomSt := tget (s.powCore c).doms d DomSt.init
def State.setDomain (s : State) (c : CoreId) (d : Nat) (v : DomSt) : State :=
  s.setPowCore c { s.powCore c with doms := tset (s.powCore c).doms d v DomSt.init }
def State.supply (s : State) : SupplyId → SupplySt
  | .sa => s.pow.sa
  | .sb => s.pow.sb
def State.setSupply (s : State) (x : SupplyId) (v : SupplySt) : State :=
  s.setPow (match x with
    | .sa => { s.pow with sa := v }
    | .sb => { s.pow with sb := v })
def State.fabCore (s : State) : CoreId → FabCore
  | .a => s.fab.a
  | .b => s.fab.b
def State.setFabCore (s : State) (c : CoreId) (v : FabCore) : State :=
  s.setFab (match c with
    | .a => { s.fab with a := v }
    | .b => { s.fab with b := v })
def State.fabPort (s : State) (c : CoreId) (p : Nat) : FabPort :=
  tget (s.fabCore c).ports p (FabPort.init (c == .b) p)
def State.setFabPort (s : State) (c : CoreId) (p : Nat) (v : FabPort) : State :=
  s.setFabCore c { s.fabCore c with ports := tset (s.fabCore c).ports p v (FabPort.init (c == .b) p) }
def State.cntCore (s : State) : CoreId → CntCore
  | .a => s.cnt.a
  | .b => s.cnt.b
def State.setCntCore (s : State) (c : CoreId) (v : CntCore) : State :=
  s.setCnt (match c with
    | .a => { s.cnt with a := v }
    | .b => { s.cnt with b := v })

/-! ### What leaves through a function (02 R20, R21, R27, R29, R42, R408; 10 R285) -/

/-- Append to what the unit has sent to its hosts. -/
def State.sendHost (s : State) (x : HostTx) : State := s.setHost { s.host with tx := s.host.tx ++ [x] }

/-- The function can carry a request: link up, Bus Master Enable set, core not fenced (16 R395, 13 R343). -/
def State.canRequest (s : State) (f : FnId) : Bool := s.fnUp f && (s.fnSt f).bme

/-- An islet's requests may leave: R395 and the PASID Enable bit of R41. -/
def State.canRequestFor (s : State) (f : FnId) : Bool := s.canRequest f && (s.fnSt f).pasidEn

/-- The attributes of a request (02 R27, R29): an islet's carry its PASID, the manager's none; `ro`: a host data write,
the only request that sets Relaxed Ordering (01 R21). -/
def State.tlp (s : State) (f : FnId) (i : IsletNo) (ro : Bool) : Tlp :=
  { pasid := if i.val = 0 then none else some (s.islet i).pasid, relaxed := ro, ecrc := (s.fnSt f).ecrc }

/-- Where a transfer of `len` bytes from `addr` is cut into requests of at most `size` bytes, at multiples of `size`:
offset and length of each (02 R27; DESIGN CHOICE, log entry 89). -/
def chunksFrom (size : Nat) : Nat → Nat → Nat → Nat → List (Nat × Nat)
  | 0, _, _, _ => []
  | n + 1, addr, off, len =>
    if len = 0 then []
    else
      let k := min len (size - addr % size)
      (off, k) :: chunksFrom size n (addr + k) (off + k) (len - k)

def chunks (size addr len : Nat) : List (Nat × Nat) := chunksFrom (max 1 size) (len / max 1 size + 2) addr 0 len

/-- The read requests that are outstanding at a function (02 R27: at most 768). -/
def State.outstanding (s : State) (f : FnId) : Nat :=
  (s.host.reqs.filter fun e => e.2.fn == f && e.2.issued.isSome).length

/-- A request may be issued now (02 R27; 16 R395). -/
def State.canIssue (s : State) (q : HostReq) : Bool :=
  s.canRequest q.fn && (q.read.isNone || decide (s.outstanding q.fn < 768))

def State.issueReq (s : State) (q : HostReq) : State :=
  let s := s.sendHost q.tx
  match q.read with
  | none => s
  | some n =>
    match s.host.reqs.find? (fun e => e.1 == n) with
    | some (_, r) => s.setHost { s.host with reqs := tput s.host.reqs n { r with issued := some (s.ut q.fn.core) } }
    | none => s

/-- A request is issued at once unless one of its islet already waits there or none may be issued; requests of one islet
keep their order (10 R285). -/
def State.request (s : State) (q : HostReq) : State :=
  if s.host.waiting.all (fun w => w.fn != q.fn || w.islet != q.islet) && s.canIssue q then s.issueReq q
  else s.setHost { s.host with waiting := s.host.waiting ++ [q] }

/-- The key of a function's islet. -/
def fiKey (f : FnId) (i : Nat) : Nat := f.num * 129 + i

/-- The oldest waiting request of an islet at a function, when it may be issued. -/
def State.headReq (s : State) (f : FnId) (i : Nat) : Option HostReq :=
  match s.host.waiting.find? (fun w => w.fn == f && w.islet.val == i) with
  | some q => if s.canIssue q then some q else none
  | none => none

/-- The quantum of an islet in a round: 64 x `SHARE`, of which 0 acts as 1 (10 R285). -/
def State.quantum (s : State) (i : Nat) : Nat := 64 * max 1 (bits (s.isletTraf (toIslet i)).share.toNat 9 0)

/-- Deficit round robin over the islets with requests waiting: the request that is next (10 R285). -/
def State.nextReq (s : State) (f : FnId) : Nat → Tab Nat → Nat → Option (HostReq × Tab Nat × Nat)
  | 0, _, _ => none
  | n + 1, d, cur =>
    let go : Option (HostReq × Tab Nat × Nat) :=
      match (List.range 128).find? (fun k => (s.headReq f ((cur + k) % 128 + 1)).isSome) with
      | some k =>
        let i := (cur + k) % 128 + 1
        s.nextReq f n (tset d (fiKey f i) (tget d (fiKey f i) 0 + s.quantum i) 0) i
      | none => none
    match s.headReq f cur with
    | some q => if q.bytes ≤ tget d (fiKey f cur) 0 then some (q, tset d (fiKey f cur) (tget d (fiKey f cur) 0 - q.bytes) 0, cur) else go
    | none => go

/-- The next waiting request of a function is issued: islet 0's before any islet's (10 R285). -/
def State.issueNext (s : State) (f : FnId) : Option State :=
  match s.headReq f 0 with
  | some q => some ((s.setHost { s.host with waiting := s.host.waiting.erase q }).issueReq q)
  | none =>
    match s.nextReq f 8400 s.host.deficit (tget s.host.turn f.num 1) with
    | some (q, d, cur) =>
      let rest := s.host.waiting.erase q
      let d := if rest.any (fun w => w.fn == f && w.islet == q.islet) then d else terase d (fiKey f q.islet.val)
      some ((s.setHost { s.host with waiting := rest, deficit := d, turn := tset s.host.turn f.num cur 1 }).issueReq q)
    | none => none

/-- Every waiting request of a function that may now be issued is issued. -/
def State.pumpReqs : Nat → State → FnId → State
  | 0, s, _ => s
  | n + 1, s, f =>
    match s.issueNext f with
    | some s => State.pumpReqs n s f
    | none => s

def State.pump (s : State) (f : FnId) : State := State.pumpReqs s.host.waiting.length s f

/-- An MSI-X message may leave (02 R408). -/
def State.canMsix (s : State) (f : FnId) (v : Nat) : Bool :=
  s.canRequest f && (s.fnSt f).msixEn && tget (s.fnSt f).unmasked v false

/-- The islet whose vector of a function it is (02 R38), 0 for the manager's. -/
def State.vectorIslet (s : State) (f : FnId) (v : Nat) : IsletNo :=
  if v < 16 then 0
  else (allIslets.find? fun i =>
    let x := s.islet i
    x.boundVia f && decide (x.vbase ≤ v ∧ v < x.vbase + x.vectors)).getD 0

/-- The message of a vector: the MSI-X table entry as it stands, the islet's PASID or none (02 R29, R408). -/
def State.msixReq (s : State) (f : FnId) (v : Nat) : HostReq :=
  let e := tget (s.fnSt f).table v (0, 0)
  let i := s.vectorIslet f v
  { fn := f, islet := i, bytes := 4, read := none, tx := .msix f v e.1 e.2 (s.tlp f i false) }

/-- Send an MSI-X message, or hold it in the pending-bit array (02 R408). -/
def State.msix (s : State) (f : FnId) (v : Nat) : State :=
  if s.canMsix f v then s.request (s.msixReq f v)
  else s.setFn f { s.fnSt f with pba := tset (s.fnSt f).pba v true false }

/-- A message of an islet also waits while the function's PASID Enable is 0 (02 R41). -/
def State.msixFor (s : State) (f : FnId) (v : Nat) : State :=
  if (s.fnSt f).pasidEn then s.msix f v
  else s.setFn f { s.fnSt f with pba := tset (s.fnSt f).pba v true false }

/-- Send every held message that may now leave, once each (02 R408). -/
def State.releaseMsix (s : State) (f : FnId) : State :=
  (s.fnSt f).pba.foldl (fun s e =>
    if s.canMsix f e.1 && (e.1 < 16 || (s.fnSt f).pasidEn) then
      let s := s.setFn f { s.fnSt f with pba := tset (s.fnSt f).pba e.1 false false }
      s.request (s.msixReq f e.1)
    else s) s

/-- Count an islet's host request bytes of the frame (10 `HOST_DEMAND`). -/
def State.countDemand (s : State) (i : IsletNo) (rd wr : Nat) : State :=
  if i.val = 0 then s
  else
    let d := s.isletTraf i
    s.setIsletTraf i { d with readNow := d.readNow + rd, writeNow := d.writeNow + wr }

/-- A read request of its own number (02 R29). -/
def State.addReq (s : State) (f : FnId) (i : IsletNo) (addr off len : Nat) (why : ReqFor) : State :=
  let n := s.host.nextRead
  let s := s.setHost { s.host with reqs := tput s.host.reqs n ⟨f, i, why, off, len, none⟩, nextRead := n + 1 }
  s.request { fn := f, islet := i, bytes := len, read := some n, tx := .read f i n addr len (s.tlp f i false) }

/-- Ask for `len` bytes in requests of at most Max Read Request Size (02 R27). -/
def State.addReqs (s : State) (f : FnId) (i : IsletNo) (addr len : Nat) (why : ReqFor) : State :=
  (chunks (s.fnSt f).maxRead addr len).foldl (fun s e => s.addReq f i (addr + e.1) e.1 e.2 why) s

/-- Issue a host read for a purpose; its key is the next number, its requests follow it (02 R27, R29). -/
def State.issueRead (s : State) (f : FnId) (i : IsletNo) (addr len : Nat) (why : ReadFor) : State :=
  let s := s.countDemand i len 0
  let n := s.host.nextRead
  let s := s.setHost { s.host with reads := tput s.host.reads n ⟨f, i, addr, len, why, s.ut f.core, [], none⟩, nextRead := n + 1 }
  s.addReqs f i addr len (.read n)

/-- Whether an islet's reads through a function would be treated as having returned Unsupported Request: its PASID
Enable bit is 0 (02 R41). -/
def State.readsRefused (s : State) (f : FnId) : Bool := !(s.fnSt f).pasidEn

/-- The requests of a purpose are gone, and others may take their places (02 R27). -/
def State.endReqs (s : State) (gone : ReqFor → Bool) : State :=
  let ended := s.host.reqs.filter fun e => gone e.2.why
  let s := s.setHost { s.host with
    reqs := s.host.reqs.filter fun e => !gone e.2.why,
    waiting := s.host.waiting.filter fun w => match w.read with
      | some n => !ended.any fun e => e.1 == n
      | none => true }
  allFns.foldl (fun s f => if ended.any (fun e => e.2.fn == f) then s.pump f else s) s

/-- The reads that a test names are dropped, and their requests with them. -/
def State.dropReads (s : State) (gone : HostRead → Bool) : State :=
  let ids := (s.host.reads.filter fun r => gone r.2).map (·.1)
  (s.setHost { s.host with reads := s.host.reads.filter fun r => !gone r.2 }).endReqs fun w =>
    match w with
    | .read n => ids.contains n
    | _ => false

/-- Reads that begin and end in one step: the requests by which the unit fetches `len` bytes (03 R58; 04 R122). -/
def State.sendReads (s : State) (f : FnId) (i : IsletNo) (addr len : Nat) : State :=
  (chunks (s.fnSt f).maxRead addr len).foldl (fun s e =>
    let n := s.host.nextRead
    (s.setHost { s.host with nextRead := n + 1 }).sendHost (.read f i n (addr + e.1) e.2 (s.tlp f i false))) s

/-- Write islet data to host memory in requests of at most Max Payload Size, with Relaxed Ordering (01 R21, 02 R27); false
where the function may not carry it (02 R30, R41). -/
def State.writeData (s : State) (f : FnId) (i : IsletNo) (addr : Nat) (b : List Byte) : Bool × State :=
  if b.isEmpty then (true, s)
  else if s.canRequestFor f then
    (true, (chunks (s.fnSt f).maxPay addr b.length).foldl (fun s e =>
      s.request { fn := f, islet := i, bytes := e.2, read := none,
                  tx := .data f i (addr + e.1) (slice b e.1 e.2) (s.tlp f i true) }) (s.countDemand i 0 b.length))
  else (false, s)

/-- Raise a manager vector in each function of a port (02 R49, 16 R394). -/
def State.managerVectorPort (s : State) (p : PortId) (v : Nat) : State :=
  (s.msix ⟨p, .a⟩ v).msix ⟨p, .b⟩ v

/-- Raise manager vector 2 or 3 in every function that is up (12 R318, 13 R358). -/
def State.managerVectorUp (s : State) (fs : List FnId) (v : Nat) : State :=
  fs.foldl (fun s f => if s.fnUp f then s.msix f v else s) s

end Sys2Proof.Machine
end

