-- ==== Sys2Proof/Machine/Flags.lean ====
section
/-! DEFINITION. Flags and what hangs on them: event sources (05), counters (14), the error log (13), the
event log (15), replace-me reasons and the resting mode (12). -/

namespace Sys2Proof.Machine

/-- Read-write-1-to-clear: writing 1 clears a bit, writing 0 leaves it (00, access codes). -/
def rw1c (old : Bool) (written : Bool) : Bool := old && !written

/-- A saturating sum. -/
def satAdd (max' a n : Nat) : Nat := min max' (a + n)

/-! ### Power domains a wake reaches (11 R307, R308, R312) -/

/-- Time of an exit to on, by domain and the state left (R307). -/
def exitTime (d : Nat) (off : Bool) : Nat :=
  if d = 1 then 10000
  else if d ≤ 5 then (if off then 150000 else 10000)
  else if d ≤ 9 then (if off then 100000 else 10000)
  else if d ≤ 17 then (if off then 500000 else 50000)
  else if d ≤ 23 then 10000
  else if d ≤ 25 then 20000
  else if d = 26 then (if off then 20000000 else 50000)
  else 5000

/-- Time of an entry (R307). -/
def entryTime (d : Nat) (off : Bool) : Nat :=
  if off then 10000
  else if d = 1 then 5000
  else if d ≤ 9 then 2000
  else if d ≤ 23 then 5000
  else if d ≤ 26 then 10000
  else 2000

/-- Whether domain d's rail stands at its retention voltage (R312). -/
def State.railLow (s : State) (c : CoreId) (d : Nat) : Bool :=
  if 2 ≤ d ∧ d ≤ 5 then (s.powCore c).vteLow
  else if 6 ≤ d ∧ d ≤ 9 then (s.powCore c).vdspLow else false

def addWaiter (r : Option RailReq) (now d : Nat) : Option RailReq :=
  match r with
  | some q =>
    if q.raise then some { q with waiters := if q.waiters.contains d then q.waiters else q.waiters ++ [d] }
    else some { raise := true, second := false, sentUt := now, waiters := [d] }
  | none => some { raise := true, second := false, sentUt := now, waiters := [d] }

/-- The request outstanding for domain d's rail (R312). -/
def State.railReq (s : State) (c : CoreId) (d : Nat) : Option RailReq :=
  if 2 ≤ d ∧ d ≤ 5 then (s.powCore c).vte else if 6 ≤ d ∧ d ≤ 9 then (s.powCore c).vdsp else none

/-- The exit of domain d waits for its rail (R307, R312). -/
def State.railWaits (s : State) (c : CoreId) (d : Nat) : Bool := (s.railReq c d).any fun q => q.raise && q.waiters.contains d

/-- Begin a domain's exit to on; a rail that is lowered, or is being lowered, is raised and acknowledged first (R312). -/
def State.startExit (s : State) (c : CoreId) (d : Nat) : State :=
  if s.railLow c d || (s.railReq c d).isSome then
    let p := s.powCore c
    if d ≤ 5 then s.setPowCore c { p with vte := addWaiter p.vte (s.ut c) d }
    else s.setPowCore c { p with vdsp := addWaiter p.vdsp (s.ut c) d }
  else
    let x := s.domain c d
    s.setDomain c d { x with going := some (.on, s.ut c + exitTime d (x.st == .off)) }

/-- A wake reaches a domain; the second result says that it was latched during an entry (R308). -/
def State.wake0 (s : State) (c : CoreId) (d : Nat) : State × Bool :=
  let x := s.domain c d
  match x.going with
  | none =>
    if s.railWaits c d then (s, false)
    else if x.st == .on then
      (if x.target == .on then s else s.setDomain c d { x with holdUntil := some (s.ut c + 100000) }, false)
    else (s.startExit c d, false)
  | some (.on, _) => (s, false)
  | some _ => if x.wakeLatched then (s, false) else (s.setDomain c d { x with wakeLatched := true }, true)

/-! ### Event sources (05 R138 to R147) -/

def EvtCore.pend (e : EvtCore) (w : Nat) : W64 := tget e.pending w 0
def EvtCore.maskW (e : EvtCore) (w : Nat) : W64 := tget e.mask w 0xFFFFFFFFFFFFFFFF
def EvtCore.src (e : EvtCore) (n : Nat) : W64 := tget e.source n 0x20
def EvtCore.privPend (e : EvtCore) (t : Nat) : W64 := tget e.privPending t 0
def EvtCore.privMaskW (e : EvtCore) (t : Nat) : W64 := tget e.privMask t 0x00000000FFFFFFFF

def EvtCore.setPend (e : EvtCore) (n : Nat) (v : Bool) : EvtCore :=
  let w := e.pend (n / 64)
  let m : W64 := 1#64 <<< (n % 64)
  { e with pending := tset e.pending (n / 64) (if v then w ||| m else w &&& ~~~m) 0 }

def EvtCore.setPriv (e : EvtCore) (t k : Nat) (v : Bool) : EvtCore :=
  let w := e.privPend t
  let m : W64 := 1#64 <<< k
  { e with privPending := tset e.privPending t (if v then w ||| m else w &&& ~~~m) 0 }

/-- The domain in which an event target lies: TE t in TECc, the supervisor in SUP; none for 33 to 63
(R138, R144). -/
def targetDomain (t : Nat) : Option Nat := if t < 32 then some (2 + t / 8) else if t = 32 then some 1 else none

/-- A wake latched during an entry is counted (14 R363 event 0x091): the wrap of such a counter sets its source
pending; a wake that this source itself would request is left out (log entry 20). -/
def State.countLatched (s : State) (c : CoreId) : State :=
  let k := s.cntCore c
  if (s.domain c 27).st == .on && !k.control.getLsbD 0 then
    k.select.foldl (fun s e =>
      if bits e.2.toNat 11 0 = 0x091 then
        let k := s.cntCore c
        let v := tget k.value e.1 0 + 1
        let k := { k with value := tset k.value e.1 (v % 2 ^ 48) 0 }
        if v < 2 ^ 48 then s.setCntCore c k
        else
          let s := s.setCntCore c { k with select := tset k.select e.1 (e.2 ||| (1#64 <<< 63)) 0x2000000000000000 }
          s.setEvtCore c ((s.evtCore c).setPend (856 + e.1 / 16) true)
      else s) s
  else s

/-- A candidate whose target lies in a domain in retention requests that domain's wake; a domain that is
off is not woken (R144). Source 893 is raised for a wake latched during an entry (R308). -/
def State.wakeTarget (s : State) (c : CoreId) (t : Nat) : State :=
  match targetDomain t with
  | none => s
  | some d =>
    let x := s.domain c d
    if x.st == .off then s
    else if x.st == .on && x.going.isNone then s
    else
      let (s, latched) := s.wake0 c d
      if latched then (s.setEvtCore c ((s.evtCore c).setPend 893 true)).countLatched c else s

/-- An edge of a shared source sets its pending bit; an unmasked one may wake its target (R138, R144). -/
def State.edge (s : State) (c : CoreId) (n : Nat) : State :=
  let e := (s.evtCore c).setPend n true
  let s := s.setEvtCore c e
  if (e.maskW (n / 64)).getLsbD (n % 64) then s else s.wakeTarget c (bits (e.src n).toNat 5 0)

def State.edgeBoth (s : State) (n : Nat) : State := (s.edge .a n).edge .b n

/-- An edge of private source k of target t (R138, R144). -/
def State.privEdge (s : State) (c : CoreId) (t k : Nat) : State :=
  let e := (s.evtCore c).setPriv t k true
  let s := s.setEvtCore c e
  if (e.privMaskW t).getLsbD k then s else s.wakeTarget c t

/-! ### Counters (14) -/

/-- The unit counts only while FAB is on and `FREEZE` is 0 (R361, R365). -/
def State.counting (s : State) (c : CoreId) : Bool :=
  (s.domain c 27).st == .on && !(s.cntCore c).control.getLsbD 0

def CntCore.sel (k : CntCore) (n : Nat) : W64 := tget k.select n 0x2000000000000000

/-- Where an instruction event occurred, for the sample registers (R371). -/
structure SampleAt where
  te : Nat
  pc : Nat
  flow : Nat
  kind : Nat
  deriving DecidableEq, Repr

/-- Raise a sample (R371): latch the registers, or count it lost while one is pending. -/
def State.sample (s : State) (c : CoreId) (t : Nat) (at' : Option SampleAt) : State :=
  if 32 < t then s
  else if ((s.evtCore c).privPend t).getLsbD 1 then
    let k := s.cntCore c
    let lost : Half := BitVec.ofNat 16 (satAdd 0xFFFF (tget k.sampleLost t 0).toNat 1)
    s.setCntCore c { k with sampleLost := tset k.sampleLost t lost 0 }
  else
    let k := s.cntCore c
    let k := { k with sampleUt := tset k.sampleUt t (BitVec.ofNat 64 (s.ut c)) 0 }
    let k := match at' with
      | some x => { k with samplePc := tset k.samplePc t (BitVec.ofNat 64 x.pc) 0,
                           sampleFlow := tset k.sampleFlow t (BitVec.ofNat 64 (x.flow + at_ x.kind 24)) 0 }
      | none => k
    (s.setCntCore c k).privEdge c t 1

/-- An event of 0x010 to 0x013 filtered to one TE samples that TE (R371). -/
def sampleOwn (sel : W64) : Bool :=
  decide (0x010 ≤ bits sel.toNat 11 0 ∧ bits sel.toNat 11 0 ≤ 0x013 ∧ bits sel.toNat 34 32 = 3)

/-- Counter n adds `m`; a wrap sets `OVERFLOW`, raises its source and any sample (R362, R364, R371). -/
def State.addCounter (s : State) (c : CoreId) (n m : Nat) (at' : Option SampleAt) : State :=
  let k := s.cntCore c
  let sel := k.sel n
  let v := tget k.value n 0 + m
  let s := s.setCntCore c { k with value := tset k.value n (v % 2 ^ 48) 0 }
  if v < 2 ^ 48 then s
  else
    let k := s.cntCore c
    let s := s.setCntCore c { k with select := tset k.select n (sel ||| (1#64 <<< 63)) 0x2000000000000000 }
    let s := s.edge c (856 + n / 16)
    if sel.getLsbD 62 then
      s.sample c (if sampleOwn sel then bits sel.toNat 31 16 else bits sel.toNat 61 56) at'
    else s

/-- An occurrence of event `ev`, `m` times; `ctx` lists the filter modes it answers with their values
(R362, R363). -/
def State.countAt (s : State) (c : CoreId) (ev : Nat) (ctx : List (Nat × Nat)) (m : Nat)
    (at' : Option SampleAt) : State :=
  if s.counting c then
    (s.cntCore c).select.foldl (fun s e =>
      let v := e.2.toNat
      if bits v 11 0 = ev && (bits v 34 32 = 0 || ctx.contains (bits v 34 32, bits v 31 16)) then
        s.addCounter c e.1 m at'
      else s) s
  else s

def State.count (s : State) (c : CoreId) (ev : Nat) (ctx : List (Nat × Nat)) (m : Nat) : State :=
  s.countAt c ev ctx m none

/-- Work reaches a domain and wakes it (11 R307, R308; 14 R363 event 0x091). -/
def State.wake (s : State) (c : CoreId) (d : Nat) : State :=
  let (s, latched) := s.wake0 c d
  if latched then (s.edge c 893).count c 0x091 [] 1 else s

/-- Seat counter k of the core that serves the seat rises by `m`, wrapping at 2^48 (R367). -/
def State.bumpSeat (s : State) (x : Seat) (k m : Nat) : State :=
  let c := s.servingCore x
  if s.counting c then
    let t := s.cntCore c
    let key := x.val * 32 + k
    let v := tget t.seat key 0 + m
    let t := { t with seat := tset t.seat key (v % 2 ^ 48) 0 }
    s.setCntCore c (if v < 2 ^ 48 then t
      else { t with seatOvf := tset t.seatOvf x.val (tget t.seatOvf x.val 0 ||| (1#64 <<< k)) 0 })
  else s

/-- Islet counter k rises by one, wrapping at 2^48 (R368). -/
def State.bumpIslet (s : State) (c : CoreId) (i : IsletNo) (k : Nat) : State :=
  if s.counting c then
    let t := s.cntCore c
    let v := (tget t.islet (i.val * 8 + k) 0 + 1) % 2 ^ 48
    s.setCntCore c { t with islet := tset t.islet (i.val * 8 + k) v 0 }
  else s

/-- The histogram bin of a latency (R369). -/
def histBin : Nat → Nat → Nat
  | 0, _ => 0
  | fuel + 1, l => if l < 100 then 0 else 1 + histBin fuel (l / 2)

/-- A latency of a class is counted, in bins that saturate (R369). -/
def State.latency (s : State) (c : CoreId) (i : IsletNo) (cls l : Nat) : State :=
  if s.counting c then
    let t := s.cntCore c
    let key := (i.val * 8 + cls) * 32 + histBin 31 l
    s.setCntCore c { t with hist := tset t.hist key (satAdd 0xFFFFFFFF (tget t.hist key 0) 1) 0 }
  else s

/-! ### Bandwidth windows (14 R370) -/

/-- The windows run: in starts, SERVICE and ROLLING UPDATE, for 10 s after a failover, or by `BW_FORCE`. At
reset no start has begun, and `BW_ACTIVE` reads 0 (00 R12; log entry 8). -/
def State.bwActive (s : State) (c : CoreId) : Bool :=
  let k := s.cntCore c
  k.control.getLsbD 4 || decide (s.ut c < k.bwUntil) ||
    (match s.mode.mode with
      | .coldStart => s.mode.start.isSome
      | .warmStart => true
      | .service => true
      | .rolling => true
      | _ => false)

def CntCore.window (k : CntCore) : Nat := if k.win10 then 10000000 else 1000000

/-- The larger of two windows' values, port by port. -/
def peaks (now peak : Tab Nat) : Tab Nat := now.foldl (fun p e => tset p e.1 (max e.2 (tget p e.1 0)) 0) peak

/-- Windows of the length in force end up to `ut`: the last of them is shown, and all go into the peaks. -/
def CntCore.endWindows (k : CntCore) (ut : Nat) : CntCore :=
  let n := ut / k.window - k.bwStart / k.window
  if n = 0 then k
  else if k.bwOn then
    { k with bwLast := if n = 1 then k.bwNow else [], bwPeak := peaks k.bwNow k.bwPeak, bwNow := [], bwStart := ut }
  else { k with bwStart := ut }

/-- The windows up to `ut`: at a 10 ms boundary a changed `WINDOW_10MS` comes into force and the peaks become 0 (R370). -/
def CntCore.rollWindows (k : CntCore) (ut : Nat) : CntCore :=
  let edge := (k.bwStart / 10000000 + 1) * 10000000
  if k.control.getLsbD 3 != k.win10 && decide (edge ≤ ut) then
    CntCore.endWindows { k.endWindows edge with win10 := !k.win10, bwPeak := [], bwStart := edge } ut
  else k.endWindows ut

/-- The windows start: nothing counted yet, the peaks 0; or they stop and keep their values. -/
def State.bwSettle (s : State) (c : CoreId) : State :=
  let k := s.cntCore c
  let on := s.bwActive c
  if on = k.bwOn then s
  else if on then s.setCntCore c { k with bwOn := true, bwNow := [], bwPeak := [], bwStart := s.ut c }
  else s.setCntCore c { k with bwOn := false }

/-- The windows follow unit time; those that ran for the 10 s after a failover end with them (R370). -/
def State.bwFollow (s : State) (c : CoreId) : State :=
  let k := s.cntCore c
  if !s.counting c then s.bwSettle c
  else if k.bwOn && !s.bwActive c then
    let s := (s.setCntCore c (k.rollWindows (min k.bwUntil (s.ut c)))).bwSettle c
    s.setCntCore c ((s.cntCore c).rollWindows (s.ut c))
  else s.setCntCore c (k.rollWindows (s.ut c))

/-- A frame's last cell crosses port p, entering or leaving. -/
def State.bwCount (s : State) (c : CoreId) (p : Nat) (out : Bool) (bytes : Nat) : State :=
  let s := s.bwSettle c
  let k := s.cntCore c
  if k.bwOn && s.counting c then
    let key := 2 * p + b2n out
    s.setCntCore c { k with bwNow := tset k.bwNow key (tget k.bwNow key 0 + bytes) 0 }
  else s

/-! ### Unit time (01 R15, R16; log entry 1) -/

/-- Fabric clock cycles up to a time: 1.5625 GHz (01, clock domains). -/
def fabricCycles (ut : Nat) : Nat := ut * 25 / 16

/-- A TE is not idle: it runs an item or a handler and does not wait in `wfi` (05 `TE_STATUS`). -/
def TeSt.active (t : TeSt) : Bool := (t.cur.isSome || t.inHandler) && !t.waiting

/-- Where a TE's cycles are spent, for the sample registers (R371). -/
def TeSt.sampleAt (t : TeSt) (n : Nat) : SampleAt :=
  let run := t.cur.getD t.idle
  { te := n, pc := if t.inHandler then t.hpc else run.pc, flow := run.item.flow.toNat, kind := run.item.kind }

/-- The busy time of a TE over an interval: at a frame's end `LOAD` takes its parts per 1,000 (05). -/
def TeSt.elapse (t : TeSt) (old new' : Nat) : TeSt :=
  let on (n : Nat) : Nat := if t.active then n else 0
  if new' / frameNs = old / frameNs then { t with busy := t.busy + on (new' - old) }
  else if new' / frameNs = old / frameNs + 1 then
    { t with load := (t.busy + on (frameNs - old % frameNs)) / 1000, busy := on (new' % frameNs) }
  else { t with load := on 1000, busy := on (new' % frameNs) }

/-- Time passes on a core's TEs (05 `LOAD`, 14 R363 event 0x012: 2.0 GHz). -/
def State.elapseTes (s : State) (c : CoreId) (old new' : Nat) : State :=
  s.te.tes.foldl (fun s e =>
    if e.1 / 32 = c.num then
      let s := s.setTe { s.te with tes := tset s.te.tes e.1 (e.2.elapse old new') TeSt.init }
      if e.2.active then s.countAt c 0x012 [(3, e.1 % 32)] (2 * (new' - old)) (some (e.2.sampleAt (e.1 % 32))) else s
    else s) s

/-- Unit time of one core moves on to `ut`, and the time events of 14 R363 count. -/
def State.advanceCore (s : State) (c : CoreId) (ut : Nat) : State :=
  let old := s.ut c
  if ut ≤ old then s
  else
    let s := s.setTime (match c with
      | .a => { s.time with utA := ut }
      | .b => { s.time with utB := ut })
    let cy := fabricCycles ut - fabricCycles old
    let s := ((s.count c 0x001 [] cy).count c 0x002 [] (ut - old)).elapseTes c old ut
    (if (s.dispatch c).holdBack then s.count c 0x018 [] cy else s).bwFollow c

/-- UT has reached the armed value: frozen, and disarmed (14 R366). -/
def State.freezeNow (s : State) (c : CoreId) : State :=
  let k := s.cntCore c
  if k.freezeUt != 0 && decide (k.freezeUt.toNat ≤ s.ut c) then s.setCntCore c { k with control := k.control ||| 1, freezeUt := 0 } else s

/-- Unit time of one core reaches `ut`; an armed freeze on the way stops the counting there (14 R366). -/
def State.arriveCore (s : State) (c : CoreId) (ut : Nat) : State :=
  let k := s.cntCore c
  if k.freezeUt != 0 && decide (k.freezeUt.toNat ≤ ut) then
    ((s.advanceCore c k.freezeUt.toNat).freezeNow c).advanceCore c ut
  else s.advanceCore c ut

/-- What the core that is not time master gains on the master while the master's UT moves on by `d`, and what is left for
the next time (R16): while the causeway is up it is steered towards the master and not past it, while it is down it drifts
(log entry 1). -/
def State.gains (s : State) (d : Nat) : Int × Nat :=
  let n := s.time.rem + d * s.flt.steerPpm.natAbs
  let gap := ((s.now : Int) - s.ut s.flt.token.twin).natAbs
  let k := if s.causewayUp then min (n / 1000000) gap else n / 1000000
  (if 0 ≤ s.flt.steerPpm then (k : Int) else -(k : Int), if s.causewayUp && decide (gap ≤ n / 1000000) then 0 else n % 1000000)

/-- The time master's UT reaches `ut`, and the other core's moves on by as much, but for what it gains (R15, R16). -/
def State.arrive (s : State) (ut : Nat) : State :=
  let m := s.flt.token
  if ut ≤ s.ut m then s
  else
    let d := ut - s.ut m
    let (k, rem) := s.gains d
    let other := ((s.ut m.twin + d : Nat) + k).toNat
    ((s.setTime { s.time with rem := rem }).arriveCore m ut).arriveCore m.twin other

/-- The steering that a time sample, or the causeway's return, brings: 100 ppm towards the master (R16). -/
def State.steerAgain (s : State) : State :=
  let gap : Int := (s.now : Int) - s.ut s.flt.token.twin
  (s.setFlt { s.flt with utDiff := gap, steerPpm := if gap = 0 then 0 else if 0 < gap then 100 else -100 }).setTime { s.time with rem := 0 }

/-- The causeway is lost: the cores' references part by a rate that the spec bounds and does not state (R16; log entry 3). -/
def State.driftApart (s : State) : State :=
  let (n, s) := s.draw
  (s.setFlt { s.flt with steerPpm := ((Config.freeWord n).toNat % 81 : Nat) - (40 : Int) }).setTime { s.time with rem := 0 }

/-! ### Host requests, counted (10 `HOST_DEMAND`, 14 R363) -/

def State.readHost (s : State) (f : FnId) (i : IsletNo) (addr len : Nat) (why : ReadFor) : State :=
  (s.issueRead f i addr len why).count f.core 0x030 [(1, i.val), (7, f.port.num)] len

/-- A host request of an islet has failed (02 R30; 14 R363 event 0x032). -/
def State.failCount (s : State) (f : FnId) (i : IsletNo) : State := s.count f.core 0x032 [(1, i.val), (7, f.port.num)] 1

def State.writeHost (s : State) (f : FnId) (i : IsletNo) (addr : Nat) (b : List Byte) : Bool × State :=
  let (ok, s) := s.writeData f i addr b
  if ok then (true, s.count f.core 0x031 [(1, i.val), (7, f.port.num)] b.length)
  else (false, s.failCount f i)

/-- Write data for an entry; its record and message will leave by the same function (01 R20). -/
def State.writeEntry (s : State) (h : Nat) (e : EntrySt) (addr : Nat) (b : List Byte) : Bool × State :=
  let f := s.entryFn e
  let (ok, s) := s.writeHost f e.islet addr b
  (ok, if ok && !b.isEmpty then s.usePort h f.port else s)

/-! ### Event log and error log (15 R376, 13 R356 to R358) -/

def coreLetter : CoreId → List Byte
  | .a => ascii "A"
  | .b => ascii "B"

/-- A line of the recorder's event log: UT in seconds to 1 us, the core, the text (R376). -/
def State.logLine (s : State) (text : List Byte) : State :=
  let t := s.now / 1000
  let line := dec (t / 1000000) ++ ascii "." ++ decPad 6 (t % 1000000) ++ ascii " " ++
    coreLetter s.flt.token ++ ascii " " ++ text
  let l := s.svc.log ++ [line]
  s.setSvc { s.svc with log := l.drop (l.length - 4096) }

/-- The service port takes output: configured, DTR set, not suspended (R373, R377). -/
def SvcUsb.takes (u : SvcUsb) : Bool := u.configured && u.dtr && !u.suspended

/-- Bytes for the service port: its bulk IN buffer takes 512; the rest is discarded (R373, R377). -/
def SvcUsb.give (u : SvcUsb) (b : List Byte) : SvcUsb := if u.takes then { u with inBuf := (u.inBuf ++ b).take 512 } else u

/-- Output of the console goes to both ports (R373). -/
def State.consolePut (s : State) (b : List Byte) : State :=
  s.setSvc { s.svc with outRj := s.svc.outRj ++ b, usb := s.svc.usb.give b }

/-- An output line of the console. -/
def State.consoleOut (s : State) (text : List Byte) : State := s.consolePut (text ++ Config.lineEnd)

def logMerge (now code loc : Nat) : List LogRec → Option (List LogRec)
  | [] => none
  | r :: t =>
    if r.code.toNat = code ∧ r.location.toNat = loc ∧ now < r.ut + 1000 * ms then
      some ({ r with count := BitVec.ofNat 32 (satAdd 0xFFFFFFFF r.count.toNat 1) } :: t)
    else (logMerge now code loc t).map (r :: ·)

/-- The functions of a core. -/
def coreFns (c : CoreId) : List FnId := [⟨.h0, c⟩, ⟨.h1, c⟩]

/-- Make or merge an error log record in the log of core `c` about core `about` (R356 to R358). -/
def State.errLog (s : State) (c : CoreId) (code : Nat) (about : CoreId) (sev loc detail : Nat) : State :=
  let log := match c with
    | .a => s.flt.logA
    | .b => s.flt.logB
  let next := match c with
    | .a => s.flt.nextA
    | .b => s.flt.nextB
  let merged := if code = 0x22 ∨ code = 0x23 then none else logMerge (s.ut c) code loc log
  match merged with
  | some l => s.setFlt (match c with
      | .a => { s.flt with logA := l }
      | .b => { s.flt with logB := l })
  | none =>
    let r : LogRec :=
      { ut := s.ut c, seq := next, code := BitVec.ofNat 16 code, core := about,
        severity := BitVec.ofNat 8 sev, location := BitVec.ofNat 32 loc, count := 1,
        detail := BitVec.ofNat 64 detail }
    let l := (log ++ [r]).drop ((log.length + 1) - 256)
    let s := s.setFlt (match c with
      | .a => { s.flt with logA := l, nextA := next + 1 }
      | .b => { s.flt with logB := l, nextB := next + 1 })
    if sev ≥ 2 then
      (s.managerVectorUp (coreFns c) 3).logLine (ascii "error 0x" ++ hex 4 code)
    else s

/-! ### Modes and reasons (12 R315 to R318, R328) -/

/-- The mode's code (R315). -/
def Mode.code : Mode → Nat
  | .unpowered => 0
  | .coldStart => 1
  | .warmStart => 2
  | .service => 3
  | .awaiting => 4
  | .single => 5
  | .dual => 6
  | .solo => 7
  | .unsupervised => 8
  | .rolling => 9
  | .orphaned => 10
  | .safeStop => 11

/-- The mode's display text (15 R384). -/
def Mode.text : Mode → List Byte
  | .unpowered => []
  | .coldStart => ascii "COLD"
  | .warmStart => ascii "WARM"
  | .service => ascii "SERV"
  | .awaiting => ascii "AWMG"
  | .single => ascii "SNGL"
  | .dual => ascii "DUAL"
  | .solo => ascii "SOLO"
  | .unsupervised => ascii "UNSV"
  | .rolling => ascii "ROLL"
  | .orphaned => ascii "ORPH"
  | .safeStop => ascii "STOP"

def Mode.isResting : Mode → Bool
  | .awaiting => true
  | .single => true
  | .dual => true
  | .solo => true
  | .orphaned => true
  | _ => false

def Mode.isStart : Mode → Bool
  | .coldStart => true
  | .warmStart => true
  | _ => false

/-- The start step in progress (R319): none when no start runs. -/
def State.startStep (s : State) : Option Nat :=
  if s.mode.mode.isStart then some (match s.mode.start with
    | some x => x.step
    | none => 0)
  else none

def State.anyIslet (s : State) : Bool := allIslets.any fun i => (s.islet i).st != .free
def State.leased (s : State) (p : PortId) : Bool := (s.portSt p).leaseEnd.isSome

/-- The resting mode (R316). -/
def State.resting (s : State) : Mode :=
  if allFns.all (fun f => !s.fnUp f) then .orphaned
  else if !(s.serves .a && s.serves .b) then .solo
  else if !s.host.wiring && s.leased .h0 && s.leased .h1 then .dual
  else if s.leased .h0 || s.leased .h1 || s.anyIslet then .single
  else .awaiting

def State.setModeChange (s : State) : State :=
  allFns.foldl (fun s f => s.setFn f { s.fnSt f with modeChange := true }) s

/-- The mode becomes `m`: `PREVIOUS_MODE`, `MODE_CHANGE`, the event log and manager vector 2 follow
(R318, R376). -/
def State.enterMode (s : State) (m : Mode) : State :=
  if m = s.mode.mode then s
  else
    let s := s.setMode { s.mode with mode := m, prev := s.mode.mode }
    (((s.setModeChange.bwSettle .a).bwSettle .b).logLine (ascii "mode " ++ m.text)).managerVectorUp allFns 2

/-- Evaluate the resting mode again after a change of its inputs (R316). -/
def State.reMode (s : State) : State := if s.mode.mode.isResting then s.enterMode s.resting else s

/-- A reason's cause holds: the reason is active, `FIRST` and the event log follow (R317, R318). -/
def State.reasonOn (s : State) (n : Fin 16) : State :=
  let m := s.mode
  let m := { m with causes := m.causes ||| (1#16 <<< n.val), clearing := tset m.clearing n.val none none }
  if m.reasons.getLsbD n.val then s.setMode m
  else
    let m := { m with reasons := m.reasons ||| (1#16 <<< n.val),
                      first := if m.first = 0 then BitVec.ofNat 8 n.val else m.first }
    ((s.setMode m).logLine (ascii "reason 0x" ++ hex 2 n.val)).managerVectorUp allFns 2

/-- A reason is no longer active. -/
def State.reasonClear (s : State) (n : Fin 16) : State :=
  if s.mode.reasons.getLsbD n.val then
    let r := s.mode.reasons &&& ~~~(1#16 <<< n.val)
    let s := s.setMode { s.mode with reasons := r, clearing := tset s.mode.clearing n.val none none }
    s.managerVectorUp allFns 2
  else s

/-- A reason's cause has ended: 0x06 and 0x09 stay to a cold start, 0x01 to 0x05 clear 10 s later, the
others at once (R317). -/
def State.reasonOff (s : State) (n : Fin 16) : State :=
  if s.mode.causes.getLsbD n.val then
    let s := s.setMode { s.mode with causes := s.mode.causes &&& ~~~(1#16 <<< n.val) }
    if n.val = 6 ∨ n.val = 9 then s
    else if n.val ≤ 5 then
      let at' := some (s.now + 10000 * ms)
      s.setMode { s.mode with clearing := tset s.mode.clearing n.val at' none }
    else s.reasonClear n
  else s

/-! ### The configuration store (11 R295) -/

/-- The copy that the newest commit record names, when it passes its check, else the other. -/
def StoreSt.current (x : StoreSt) : Option StoreCopy :=
  match x.newest1, x.ok0, x.ok1 with
  | false, true, _ => some x.copy0
  | false, false, true => some x.copy1
  | true, _, true => some x.copy1
  | true, true, false => some x.copy0
  | _, _, _ => none

/-- An update writes the older copy whole, checks it and commits it. -/
def StoreSt.update (x : StoreSt) (f : StoreCopy → StoreCopy) : StoreSt :=
  let v := f (x.current.getD StoreCopy.init)
  if x.newest1 then { x with copy0 := v, ok0 := true, newest1 := false, seq := x.seq + 1 }
  else { x with copy1 := v, ok1 := true, newest1 := true, seq := x.seq + 1 }

def State.storeUpdate (s : State) (f : StoreCopy → StoreCopy) : State :=
  s.setHost { s.host with store := s.host.store.update f }

/-- The stored values: those of the copy in use, or the values when new. -/
def State.stored (s : State) : StoreCopy := s.host.store.current.getD StoreCopy.init

/-! ### Unit-wide settings (02 R33, 16 R392) -/

/-- Whether the writing port may change a unit-wide setting: paired wiring, or semaphore 0 held, with the
referee there (R33, R36, R351). -/
def State.mayUnitWide (s : State) (p : PortId) : Bool :=
  if s.flt.refereeLost && s.flt.lanes == 0 then false
  else s.host.wiring || (!s.flt.refereeLost && (s.sem 0).holder == some p)

/-- Whether a writer may change a unit-wide setting: programs always may (R392). -/
def State.viaMay (s : State) (w : Via) : Bool :=
  match w with
  | .prog _ => true
  | .host f => s.mayUnitWide f.port

end Sys2Proof.Machine

namespace Sys2Proof

/-- The core a writer acts on: the function's own, or the core that runs the program (16 R390). -/
def Via.core : Via → CoreId
  | .host f => f.core
  | .prog c => c

end Sys2Proof

namespace Sys2Proof.Machine

/-- Whether a writer's writes reach the unit: a function must be up, and a fenced core's functions discard
every write (13 R343). -/
def State.viaHeard (s : State) (w : Via) : Bool :=
  match w with
  | .prog c => !(s.coreSt c).fenced
  | .host f => s.fnUp f

end Sys2Proof.Machine
end

