-- ==== Sys2Proof/Machine/Rings.lean ====
section
/-! DEFINITION. Completion records, rings and the islet halt (02 R49, 03 R69 to R85, 04 R116): the
operations that every family's completions go through. -/

namespace Sys2Proof.Machine

/-! ### Places (03 R69) -/

/-- Protection is in force: the twin serves as shadow (02 R43, R44). -/
def State.protects (s : State) (i : IsletNo) : Bool :=
  (s.islet i).prot && !(s.islet i).lapsed && s.twinUp

/-- The occupied count W: for a protected islet, from the lesser of the two consumer indices (R57, R83). -/
def State.occupied (s : State) (c : CoreId) (i : IsletNo) (r : Nat) : Nat :=
  let x := s.ring c i r
  let own := sub16 x.p x.c
  if s.protects i then max own (sub16 x.p (s.shRing c i r).c) else own

def RingSt.size (x : RingSt) : Nat := 2 ^ x.log2.toNat
def QueueSt.size (x : QueueSt) : Nat := 2 ^ x.log2.toNat

/-- O of R69: the entries taken that complete into the ring, and the records made, that are neither written nor held. -/
def State.owed (s : State) (c : CoreId) (i : IsletNo) (r : Nat) : Nat :=
  (s.wq.entries.filter fun e => e.2.core == c && e.2.islet == i && e.2.ring.toNat == r).length + (s.ring c i r).made.length

/-- At least one place is free when `without` records are left out of O (R69, 04 R116). -/
def State.hasPlace (s : State) (c : CoreId) (i : IsletNo) (r without : Nat) : Bool :=
  let x := s.ring c i r
  decide (s.occupied c i r + x.held.length + (s.owed c i r + x.latch.length - without) + 1 ≤ x.size + 256)

/-- The number of ring r of islet i among the core's 512 rings (05 R146; log entry 11). -/
def State.coreRing (s : State) (c : CoreId) (i : IsletNo) (r : Nat) : Nat :=
  ((allIslets.filter (fun j => j.val < i.val)).map (fun j => (s.islet j).rings c)).sum + r

/-- `STALLED` follows R69; its rise raises the ring's source (05 R146). -/
def State.restall (s : State) (c : CoreId) (i : IsletNo) (r : Nat) : State :=
  let x := s.ring c i r
  let st := x.enable && !s.hasPlace c i r 0
  if st = x.stalled then s
  else
    let s := s.setRing c i r { x with stalled := st }
    if st then s.edge (s.runs c) (328 + s.coreRing c i r % 512) else s

/-- Every ring of an islet. -/
def State.restallAll (s : State) (i : IsletNo) : State :=
  bothCores.foldl (fun s c => (List.range ((s.islet i).rings c)).foldl (fun s r => s.restall c i r) s) s

/-- A round of taking ends when no queue can take; the next begins with every credit at its weight (R70). -/
def State.newRound (s : State) (c : CoreId) (i : IsletNo) : State :=
  let s := (List.range ((s.islet i).queues c)).foldl (fun s q =>
    let x := s.queue c i q
    s.setQueue c i q { x with credit := x.weight.toNat }) s
  s.setWq { s.wq with visit := tset s.wq.visit (ciKey c i) (0, 0) (0, 0) }

/-! ### Records (03 R75 to R77) -/

/-- The 32 bytes of a completion record. -/
def recordBytes (tag queue type status index count detail ut : Nat) : List Byte :=
  leBytes 4 tag ++ leBytes 2 queue ++ leBytes 1 type ++ leBytes 1 status ++ leBytes 2 index ++
    leBytes 2 0 ++ leBytes 4 count ++ leBytes 8 detail ++ leBytes 8 ut

/-- The queue field of a record: number and core. -/
def queueField (c : CoreId) (q : Nat) : Nat := q + at_ c.num 15

/-- A record is made for a ring; it waits for the ring writer (R77). -/
def State.pushRecord (s : State) (c : CoreId) (i : IsletNo) (r : Nat) (v : Rec) : State :=
  let x := s.ring c i r
  s.setRing c i r { x with made := x.made ++ [v] }

/-- The latency class of an entry type (14 R369). -/
def latClass (type : Nat) : Option Nat :=
  if type = 0x13 then some 1
  else if 0x10 ≤ type ∧ type ≤ 0x14 then some 0
  else if type = 0x20 then some 2
  else if type = 0x30 then some 3
  else if type = 0x31 then some 4
  else none

def EntrySt.type (e : EntrySt) : Nat := fld e.bytes 0 1
def EntrySt.flags (e : EntrySt) : Nat := fld e.bytes 2 2
def EntrySt.tag (e : EntrySt) : Nat := fld e.bytes 4 4

/-- The flow of an entry within its queue (R63): the queue, the endpoint, the head, the seat's transmit or receive side, or
the islet's program store. -/
def EntrySt.flow (e : EntrySt) : Nat :=
  let b := e.bytes
  let type := fld b 0 1
  if 0x10 ≤ type ∧ type ≤ 0x14 then
    0x400000 + 4096 * (fld b 10 1 % 64) + 32 * (fld b 8 1 % 128) + 2 * (fld b 9 1 % 16) + b2n (bit (fld b 9 1) 7)
  else if type = 0x20 ∨ type = 0x21 then 0x20000 + 2 * (fld b 8 1 % 64) + fld b 9 1 % 2
  else if type = 0x30 ∨ type = 0x31 then 0x100 * type + fld b 8 1 % 64
  else type

/-- The record of an entry that has ended. -/
def State.endRecord (s : State) (e : EntrySt) (d : EntryEnd) : Rec :=
  let ut := s.ut (s.runs e.core)
  { bytes := recordBytes e.tag (queueField e.core e.queue.val) e.type d.status e.idx.toNat d.count d.detail ut,
    notify := bit e.flags 0 || d.status != 0, ut := ut, port := e.port, sent := false,
    lat := (latClass e.type).map fun k => (k, d.since) }

/-- How many entries have been taken since that of a handle. -/
def State.ageOf (s : State) (h : Nat) : Nat := (s.wq.nextHandle + 2 ^ 32 - h) % 2 ^ 32

/-- The oldest open entry of an entry's queue and flow (R71). -/
def State.firstOf (s : State) (e : EntrySt) : Option (Nat × EntrySt) :=
  (s.wq.entries.filter fun x =>
    x.2.core == e.core && x.2.islet == e.islet && x.2.queue == e.queue && x.2.flow == e.flow).foldl (fun a x =>
      match a with
      | none => some x
      | some y => if s.ageOf y.1 < s.ageOf x.1 then some x else some y) none

/-- The entries of a queue's flow that have ended give their records in posting order, up to one that has not (R71). -/
def State.releaseFlow : Nat → State → EntrySt → State
  | 0, s, _ => s
  | n + 1, s, e =>
    match s.firstOf e with
    | some (h, x) =>
      match x.ended with
      | some d => State.releaseFlow n ((s.setEntry h EntrySt.init).pushRecord x.core x.islet x.ring.toNat (s.endRecord x d)) e
      | none => s
    | none => s

/-- Complete the open entry of a handle with a record (R64, 04 R111), which waits for those of earlier entries of its queue
and flow (R71). `from'`: the start of its latency. -/
def State.finishFrom (s : State) (h : Nat) (status count detail from' : Nat) : State :=
  match s.entry? h with
  | none => s
  | some e =>
    if e.ended.isSome then s
    else
      let s := s.setEntry h { e with ended := some ⟨status, count, detail, from'⟩ }
      let s := if status = 0x02 then (s.count (s.runs e.core) 0x025 [(1, e.islet.val)] 1).bumpIslet (s.runs e.core) e.islet 3 else s
      s.releaseFlow s.wq.entries.length e

def State.finish (s : State) (h : Nat) (status count detail : Nat) : State :=
  match s.entry? h with
  | none => s
  | some e => s.finishFrom h status count detail e.takenUt

/-- An entry's command runs, once. -/
def State.begin_ (s : State) (h : Nat) : State :=
  match s.entry? h with
  | none => s
  | some e => s.setEntry h { e with started := true }

/-- Mark an entry's work as handed on (R82). -/
def State.hand (s : State) (h : Nat) : State :=
  match s.entry? h with
  | none => s
  | some e => s.setEntry h { e with handed := true }

/-! ### The fault latch (04 R116, 06 R174, 08 R244) -/

/-- The lowest-numbered enabled ring of an islet on a core. -/
def State.lowRing (s : State) (c : CoreId) (i : IsletNo) : Option Nat :=
  (List.range ((s.islet i).rings c)).find? fun r => (s.ring c i r).enable

/-- The ring of a fault or change record: on the core, else on the twin (R116). -/
def State.latchRing (s : State) (c : CoreId) (i : IsletNo) : Option (CoreId × Nat) :=
  match s.lowRing c i with
  | some r => some (c, r)
  | none => (s.lowRing c.twin i).map fun r => (c.twin, r)

/-- A fault record's `COUNT` rises by one, saturating (R116). -/
def bumpCount (b : List Byte) : List Byte :=
  b.take 12 ++ leBytes 4 (satAdd 0xFFFFFFFF (fld b 12 4) 1) ++ b.drop 16

def mergeLatch : List Latched → Option (List Latched)
  | [] => none
  | x :: t => if x.merge then some ({ x with bytes := bumpCount x.bytes } :: t)
              else (mergeLatch t).map (x :: ·)

/-- The first fault record of a list that the twin has not been told of takes the further fault. -/
def mergeRec : List Rec → Option (List Rec)
  | [] => none
  | x :: t => if fld x.bytes 6 1 = 0xFD ∧ !x.sent then some ({ x with bytes := bumpCount x.bytes } :: t)
              else (mergeRec t).map (x :: ·)

/-- The ring with a further fault merged into its unwritten fault record, held, made or latched (R116). -/
def RingSt.merged (x : RingSt) : Option RingSt :=
  match mergeRec x.held with
  | some l => some { x with held := l }
  | none =>
    match mergeRec x.made with
    | some l => some { x with made := l }
    | none => (mergeLatch x.latch).map fun l => { x with latch := l }

/-- A change record goes to the fault latch, never merged, or is dropped and counted (R174, R244). -/
def State.changeRecord (s : State) (c : CoreId) (i : IsletNo) (b : List Byte) : State :=
  match s.latchRing c i with
  | none => s.bumpIslet c i 1
  | some (c', r) =>
    let x := s.ring c' i r
    (s.setRing c' i r { x with latch := x.latch ++ [{ merge := false, bytes := b }] }).restall c' i r

/-- A fault record goes to the fault latch, merges into an unwritten one, or is counted (R116). -/
def State.faultRecord (s : State) (c : CoreId) (i : IsletNo) (b : List Byte) : State :=
  match s.latchRing c i with
  | none => s.bumpIslet c i 0
  | some (c', r) =>
    let x := s.ring c' i r
    match x.merged with
    | some y => (s.setRing c' i r y).bumpIslet c i 2
    | none => (s.setRing c' i r { x with latch := x.latch ++ [{ merge := true, bytes := b }] }).restall c' i r

/-! ### The islet halt (02 R49, 03 R82) -/

/-- Each enabled ring's message, once (R82 step 6). -/
def State.ringMessages (s : State) (i : IsletNo) : State :=
  bothCores.foldl (fun s c =>
    (List.range ((s.islet i).rings c)).foldl (fun s r =>
      let x := s.ring c i r
      if x.enable && x.vector != 0xFFFF then
        s.msixFor (s.islFn c i) ((s.islet i).vbase + x.vector.toNat)
      else s) s) s

/-! Endpoint contexts (06 R156, R157, R171). -/

/-- An ISW store by the unit: the twin's copy follows for a protected islet (04 R97). -/
def State.iswPut (s : State) (c : CoreId) (i : IsletNo) (f : Memory → Memory) : State :=
  let s1 := s.setIsw c i (f (s.isw c i))
  if s.protects i then s1.setIsw c.twin i (f (s1.isw c.twin i)) else s1

/-- The key of an endpoint context: its islet, the core that served its seat when it was opened, its index (R157). -/
def epKey (i : IsletNo) (c : CoreId) (ctx : Nat) : Nat := i.val * 8192 + c.num * 4096 + ctx

/-- The endpoint flow (04 R106). -/
def EpSt.flow (e : EpSt) : Nat := 0x400000 + 4096 * e.seat.val + 32 * e.addr + 2 * e.ep + b2n e.dirIn

/-- The 64 bytes of an endpoint context (R171). -/
def EpSt.context (e : EpSt) : List Byte :=
  leBytes 4 e.flow ++ leBytes 1 e.state ++ leBytes 1 e.mode.toNat ++ leBytes 2 e.maxPacket.toNat ++
  leBytes 1 (e.rootPort.val + 1) ++ leBytes 1 e.ttHub.toNat ++ leBytes 1 e.ttPort.toNat ++ leBytes 1 e.speed ++
  leBytes 1 (b2n e.toggle) ++ leBytes 1 e.phase ++ leBytes 2 (if e.state = 2 then e.queue.length else 0) ++
  leBytes 4 ((e.queue.head?).getD 0xFFFFFFFF) ++ leBytes 4 e.doneBytes ++ leBytes 4 e.sentBytes ++
  leBytes 4 e.cost ++ leBytes 8 e.nextN ++ leBytes 8 0 ++ leBytes 16 0

def State.ep (s : State) (k : Nat) : EpSt := tget s.usb.eps k EpSt.init

/-- Change a context, in the table and in the ISW of the core that serves its seat (R171). -/
def State.setEp (s : State) (k : Nat) (v : EpSt) : State :=
  let i := toIslet (k / 8192)
  let seat := if v = EpSt.init then (s.ep k).seat else v.seat
  let s := s.setUsb { s.usb with eps := tset s.usb.eps k v EpSt.init }
  let b := if v = EpSt.init then List.replicate 64 0 else v.context
  s.iswPut (s.servingCore seat) i fun m => writeBytes m (0x40000 + 64 * (k % 4096)) b

/-- Take a handle's work out of the endpoints, heads and network queues that hold it. -/
def State.dropWork (s : State) (h : Nat) : State :=
  let s := s.setUsb { s.usb with xfers := terase s.usb.xfers h }
  let s := (s.usb.eps.filter fun e => e.2.queue.contains h).foldl (fun s e =>
    s.setEp e.1 { e.2 with queue := e.2.queue.filter (· != h) }) s
  let s := s.setDisp { s.disp with
    heads := tmap (fun e => { e with waiting := e.waiting.filter fun w => w.1 != h }) (fun _ => HeadSt.init) s.disp.heads }
  s.setTraf { s.traf with
    net := tmap (fun e => { e with tx := e.tx.filter (· != h), data := terase e.data h, rx := e.rx.filter (· != h) })
      (fun _ => SeatNet.init) s.traf.net }

/-- The open handles of an islet, in the order they were taken. -/
def State.openOf (s : State) (i : IsletNo) : List Nat :=
  (s.wq.entries.filter (fun e => e.2.islet == i)).map (·.1)

/-! Tiles of a picture (08 R222). -/

def tileCols (h : Nat) : Nat := cdiv h 64
def tileRows (v : Nat) : Nat := cdiv v 64
def tileCount (h v : Nat) : Nat := tileCols h * tileRows v

/-- `DETAIL` of a `DISPLAY_FRAME` that has not begun: its number, and every index entry not fetched (08 R243). -/
def State.waitingDetail (s : State) (d : HeadSt) (w : Nat × Half) : Nat :=
  let n := match s.entry? w.1 with
    | some e => if bit (fld e.bytes 12 1) 0 then tileCount d.timing.h d.timing.v else fld e.bytes 28 4
    | none => 0
  w.2.toNat + at_ (n % 65536) 32

/-- The unit may emit a new script record, gather or frame for an islet: not after QUIESCE or a halt (02 R48). -/
def State.mayEmit (s : State) (i : IsletNo) : Bool :=
  match (s.islet i).st with
  | .quiescing => false
  | .quiesced => false
  | .halting => false
  | .halted => false
  | _ => true

/-- Posted packet lengths of an isochronous entry (R161). -/
def isoLengths (b : List Byte) : List Nat :=
  let n := fld b 28 1
  if fld b 1 1 = 2 then List.replicate n (fld b 12 4)
  else (List.range n).map fun i => fld b (32 + 2 * i) 2

/-- No packet of an isochronous entry is executed: an IN entry has 0xFFFE written for each (06 R162). False where the
write failed (02 R30). -/
def State.isoNotRun (s : State) (h : Nat) (e : EntrySt) : Bool × State :=
  let lens := isoLengths e.bytes
  if bit (fld e.bytes 9 1) 7 then
    s.writeEntry h e (fld e.bytes 16 8 + lens.sum) ((lens.map fun _ => leBytes 2 0xFFFE).flatten)
  else (true, s)

/-- `DETAIL` of an entry whose work has not been handed on: an isochronous one has no packet executed, a frame no tile
fetched (06 R163, 08 R243). -/
def State.haltedDetail (s : State) (h : Nat) : Nat :=
  match s.disp.heads.find? (fun e => e.2.waiting.any fun w => w.1 == h) with
  | some e => ((e.2.waiting.find? fun w => w.1 == h).map (s.waitingDetail e.2)).getD 0
  | none =>
    match s.entry? h with
    | some e => if e.type = 0x13 then (isoLengths e.bytes).length else 0
    | none => 0

/-- An entry taken whose work has not been handed on completes `HALTED`. -/
def State.endHalted (s : State) (h : Nat) (e : EntrySt) : State :=
  let d := s.haltedDetail h
  let (ok, s) := if e.type = 0x13 then s.isoNotRun h e else (true, s)
  (s.finish h (if ok then 0x04 else 0x01) e.moved d).dropWork h

/-- Entries taken whose work has not been handed on complete `HALTED` (R82 step 4). -/
def State.completeHalted (s : State) (i : IsletNo) : State :=
  (s.openOf i).foldl (fun s h =>
    match s.entry? h with
    | some e => if e.handed || e.ended.isSome then s else s.endHalted h e
    | none => s) s

/-- An islet halts with a reason (R49): 1 malformed entry, 2 host path lost, 3 completion write fault. -/
def State.haltIslet (s : State) (i : IsletNo) (reason : Byte) : State :=
  let x := s.islet i
  let after (s : State) : State := (s.managerVectorPort x.home 1).ringMessages i
  match x.st with
  | .active => after ((s.setIslet i { x with st := .halting, halt := reason }).completeHalted i)
  | .quiescing => after ((s.setIslet i { x with st := .halting, halt := reason }).completeHalted i)
  | .quiesced => after (s.setIslet i { x with st := .halted, halt := reason })
  | _ => s

/-- A malformed doorbell or entry of queue q (R82): cause, halt information, halt. -/
def State.malformed (s : State) (c : CoreId) (i : IsletNo) (q : Nat) (cause : Byte) (index : Half) : State :=
  let x := s.queue c i q
  let s := if x.cause = 0 then s.setQueue c i q { x with cause := cause } else s
  let y := s.islet i
  let info : W64 := BitVec.ofNat 64 (at_ cause.toNat 56 + at_ q 32 + index.toNat)
  let s := if y.haltInfo c = 0 then s.setIslet i (y.setHaltInfo c info) else s
  s.haltIslet i 0x01

/-! ### The ring writer (03 R76, R77, R79, R83) -/

/-- The twin receives a record before it is written (R83). -/
def State.sendShadow (s : State) (c : CoreId) (i : IsletNo) (r : Nat) (idx : Half) (b : List Byte) : State :=
  let y := s.shRing c i r
  s.setShRing c i r { y with unreported := y.unreported ++ [(idx, b)] }

/-- The record that is written next: held ones go before (R79). -/
def RingSt.nextRec (x : RingSt) : Option Rec :=
  match x.held with
  | v :: _ => some v
  | [] => x.made.head?

/-- The function by which a record leaves: that of its entry's data (01 R20, R77). -/
def State.recFn (s : State) (c : CoreId) (i : IsletNo) (v : Rec) : FnId := s.fnBy c i v.port

/-- The latency of a record's entry is counted when it is written or held (14 R369). -/
def State.countLat (s : State) (k : CoreId) (i : IsletNo) (v : Rec) : State :=
  match v.lat with
  | some (cls, t) => s.latency k i cls (s.ut k - t)
  | none => s

/-- Write a record, the ring standing at `x` once it has left (R76, R83). -/
def State.putRecord (s : State) (c : CoreId) (i : IsletNo) (r : Nat) (x : RingSt) (v : Rec) : State :=
  let k0 := s.runs c
  let f := s.recFn c i v
  let s := if s.protects i && !v.sent then s.sendShadow c i r x.p v.bytes else s
  let s := s.setRing c i r { x with p := x.p + 1 }
  let a := x.base.toNat + 32 * (x.p.toNat % x.size)
  let s := (s.countDemand i 0 32).request
    { fn := f, islet := i, bytes := 32, read := none, tx := .record f i a v.bytes (s.tlp f i false) }
  (s.latency k0 i 7 (s.ut k0 - v.ut)).count k0 0x023 [(1, i.val)] 1

/-- A record is held on chip (R79). -/
def State.holdRecord (s : State) (c : CoreId) (i : IsletNo) (r : Nat) (x : RingSt) (v : Rec) : State :=
  let s := s.setRing c i r { x with held := x.held ++ [v] }
  (s.countLat (s.runs c) i v).count (s.runs c) 0x024 [(1, i.val)] 1

/-- One record of a pass: write it, hold it, or leave it. `none`: the pass ends here. The second component
of the result says that a message is due. -/
def State.writeOne (s : State) (c : CoreId) (i : IsletNo) (r : Nat) : Option (State × Bool) :=
  let x := s.ring c i r
  match x.nextRec with
  | none => none
  | some v =>
    if decide (x.size ≤ s.occupied c i r) || !s.canRequest (s.recFn c i v) then
      match x.made with
      | [] => none
      | w :: more => if 256 ≤ x.held.length then none else some (s.holdRecord c i r { x with made := more } w, false)
    else if s.protects i && !v.sent && decide (64 ≤ (s.shRing c i r).unreported.length) then none
    else
      match x.held with
      | _ :: rest => some (s.putRecord c i r { x with held := rest } v, v.notify)
      | [] => some ((s.putRecord c i r { x with made := x.made.tail } v).countLat (s.runs c) i v, v.notify)

/-- At most `n` records of a pass, which all leave by function `f`, and whether a message is due. -/
def State.writeUpTo : Nat → State → CoreId → IsletNo → Nat → FnId → Bool → State × Bool
  | 0, s, _, _, _, _, due => (s, due)
  | n + 1, s, c, i, r, f, due =>
    if (s.ring c i r).nextRec.any (fun v => s.recFn c i v != f) then (s, due)
    else
      match s.writeOne c i r with
      | none => (s, due)
      | some (s, d) => State.writeUpTo n s c i r f (due || d)

/-- The records of applied INVALIDATEs take their places (R73). -/
def State.releaseInvals (s : State) (c : CoreId) (i : IsletNo) (r : Nat) : State :=
  (List.range ((s.islet i).queues c)).foldl (fun s q =>
    let x := s.queue c i q
    if x.ring.toNat = r && x.enable then
      match x.invals with
      | [] => s
      | (idx, units) :: rest =>
        if s.hasPlace c i r 0 then
          let b := recordBytes 0 (queueField c q) 0xFE 0 idx.toNat units 0 (s.ut (s.runs c))
          let s := s.setQueue c i q { x with invals := rest }
          s.pushRecord c i r { bytes := b, notify := false, ut := s.ut (s.runs c), port := none, sent := false, lat := none }
        else s
    else s) s

/-- One pass of the ring writer: at most 16 records that leave by one function, then the ring's message once by that
function if due (R77, 01 R20). When the PASID Enable bit of the function is 0 no record can be written and the islet halts
(02 R41). -/
def State.ringPass (s : State) (c : CoreId) (i : IsletNo) (r : Nat) : State :=
  let x := s.ring c i r
  if !x.enable then s
  else
    let s := s.releaseInvals c i r
    let next := (s.ring c i r).nextRec
    let f := match next with
      | some v => s.recFn c i v
      | none => s.islFn c i
    if next.isSome && decide (s.occupied c i r < x.size) && s.canRequest f && !(s.fnSt f).pasidEn then (s.failCount f i).haltIslet i 0x03
    else
      let (s, due) := s.writeUpTo 16 c i r f false
      let s := if due && x.vector != 0xFFFF then s.msixFor f ((s.islet i).vbase + x.vector.toNat) else s
      s.restall c i r

/-- A latched record is written or held once it has a place (04 R116, 06 R174). -/
def State.releaseLatch (s : State) (c : CoreId) (i : IsletNo) (r : Nat) : State :=
  let x := s.ring c i r
  match x.latch with
  | [] => s
  | v :: rest =>
    if x.enable && s.hasPlace c i r 1 then
      (s.setRing c i r { x with latch := rest }).pushRecord c i r
        { bytes := v.bytes, notify := true, ut := s.ut (s.runs c), port := none, sent := false, lat := none }
    else s

/-! ### Consumer indices (03 R78, R84) -/

/-- A consumer write under R78 against an occupied count: the new index, or an error. -/
def consumerMove (p c new' : Half) : Option Half :=
  if sub16 new' c ≤ sub16 p c then some new' else none

end Sys2Proof.Machine
end

