-- ==== Sys2Proof/Machine/Buffer.lean ====
section
/-! DEFINITION. The output buffer of a core's fabric: its three parts, admission and freeing, trunk numbers and multicast
groups (09 R247, R252, R255 to R263). -/

namespace Sys2Proof.Machine

/-- The cells of a frame whose length with its fabric header is `bytes` (R247). -/
def cellsOf (bytes : Nat) : Nat := cdiv bytes 64

/-- The output minimum of a class, in cells (`FAB_OUT_MIN_p`). -/
def FabPort.minCells (p : FabPort) (cls : Nat) : Nat := 4 * bits p.outMin.toNat (8 * cls + 7) (8 * cls)

/-- The sum of a port's output minimums. -/
def FabPort.minSum (p : FabPort) : Nat := ((List.range 8).map p.minCells).sum

/-- The cells in use above a port's minimums, which count as pool cells (R262). -/
def FabPort.excess (p : FabPort) : Nat := ((List.range 8).map fun k => tget p.minUsed k 0 - p.minCells k).sum

/-- The sum of a core's output minimums: the reset sum with the listed ports' own values. -/
def State.outMinSum (s : State) (c : CoreId) : Nat :=
  (s.fabCore c).ports.foldl (fun a e => a + e.2.minSum - (FabPort.init (c == .b) e.1).minSum) 182336

/-- The islet minimum in cells (R259). -/
def IsletSt.minCells (x : IsletSt) : Nat := if x.st == .free then 0 else 16 * x.fabKib

/-- The sum of the islet minimums. -/
def State.isletMinSum (s : State) : Nat := (s.isl.map fun e => if e.1 = 0 then 0 else e.2.minCells).sum

/-- P, the pool's size (R259). -/
def State.poolSize (s : State) (c : CoreId) : Nat := 786432 - (s.outMinSum c + s.isletMinSum)

/-- Cells in use above lowered output minimums (R262). -/
def State.poolExcess (s : State) (c : CoreId) : Nat := ((s.fabCore c).ports.map fun e => e.2.excess).sum

/-- Free pool cells. -/
def State.poolFree (s : State) (c : CoreId) : Nat :=
  s.poolSize c - ((s.fabCore c).poolUsed + s.poolExcess c)

/-- `KEEP_c` (`FAB_POOL_CONTROL`). -/
def FabCore.keep (f : FabCore) (cls : Nat) : Nat := bits f.poolControl.toNat (6 * cls + 5) (6 * cls)
/-- `OUT_CAP`; 0 acts as 1. -/
def FabCore.outCap (f : FabCore) : Nat := max 1 (bits f.poolControl.toNat 61 56)

/-- The free-pool test of R259 step 3. -/
def State.poolTakes (s : State) (c : CoreId) (cls n : Nat) : Bool :=
  decide (n ≤ s.poolFree c ∧ (s.fabCore c).keep cls * s.poolSize c ≤ 64 * (s.poolFree c - n))

/-- The output test of R259 step 3. -/
def State.outTakes (s : State) (c : CoreId) (o n : Nat) : Bool :=
  let p := s.fabPort c o
  decide (64 * (p.poolCells + p.excess + n) ≤ (s.fabCore c).outCap * s.poolSize c)

/-- The source that admits a unicast frame (R259). -/
def State.admitFrom (s : State) (c : CoreId) (o cls acct n : Nat) : Option Admit :=
  let p := s.fabPort c o
  if tget p.minUsed cls 0 + n ≤ p.minCells cls then some .outMin
  else if acct ≠ 0 ∧ tget (s.fabCore c).isletUsed acct 0 + n ≤ (s.islet (toIslet acct)).minCells then
    some .isletMin
  else if s.poolTakes c cls n && s.outTakes c o n then some .pool
  else none

/-- Charge a frame's cells to the source that admitted it, for each of its outputs (R259, R262). -/
def State.chargeFrame (s : State) (c : CoreId) (f : FabFrame) : State :=
  let s := match f.allowIn with
    | .outMin => s
    | .isletMin =>
      let k := s.fabCore c
      s.setFabCore c { k with isletUsed := tset k.isletUsed f.account (tget k.isletUsed f.account 0 + f.cells) 0 }
    | .pool =>
      let k := s.fabCore c
      s.setFabCore c { k with poolUsed := k.poolUsed + f.cells }
  f.dests.foldl (fun s o =>
    let p := s.fabPort c o
    let p := { p with cells := p.cells + f.cells }
    s.setFabPort c o (match f.allowIn with
      | .outMin => { p with minUsed := tset p.minUsed f.cls.val (tget p.minUsed f.cls.val 0 + f.cells) 0 }
      | .isletMin => p
      | .pool => { p with poolCells := p.poolCells + f.cells })) s

/-- Raise source 312 when `POOL_FREE` has fallen below `KEEP_5` x P / 64 (R266). -/
def State.poolAlarm (before s : State) (c : CoreId) : State :=
  let low (t : State) : Bool := decide (64 * t.poolFree c < (t.fabCore c).keep 5 * t.poolSize c)
  if !low before && low s then s.edge c 312 else s

/-- `POOL_FREE` of both cores may have fallen with a minimum or `POOL_CONTROL` (R262, R266). -/
def State.poolAlarms (before s : State) : State := bothCores.foldl (fun s c => before.poolAlarm s c) s

/-- A frame is refused: event 0x041, and source 318 after 1 ms without a refusal (R266, 14 R363). -/
def State.noteRefusal (s : State) (c : CoreId) (o cls : Nat) : State :=
  let k := s.fabCore c
  let now := s.ut c
  let quiet := match k.lastRefusal with
    | none => true
    | some t => decide (t + ms ≤ now)
  let s := (s.setFabCore c { k with lastRefusal := some now }).count c 0x041 [(4, o), (5, cls)] 1
  if quiet then s.edge c 318 else s

/-- The trunk that a port is a member of (R246). -/
def trunkOf (p : Nat) : Option (Fin 3) :=
  if 64 ≤ p ∧ p < 76 then some 0 else if 76 ≤ p ∧ p < 88 then some 1 else if 88 ≤ p ∧ p < 124 then some 2 else none

/-! ### Trunks (R255, R256) -/

/-- The member ports of a trunk. -/
def trunkPorts (t : Fin 3) : List Nat :=
  if t = 0 then (List.range 12).map (64 + ·) else if t = 1 then (List.range 12).map (76 + ·) else (List.range 36).map (88 + ·)

/-- The member output with the fewest cells queued, ties to the lowest port. -/
def State.trunkMember (s : State) (c : CoreId) (t : Fin 3) : Nat :=
  (trunkPorts t).foldl (fun best p => if (s.fabPort c p).cells < (s.fabPort c best).cells then p else best)
    ((trunkPorts t).headD 0)

/-- A port as an input or an output for ordering: a trunk's members count as its first port (R255). -/
def asOne (p : Nat) : Nat :=
  match trunkOf p with
  | some t => (trunkPorts t).headD 0
  | none => p

/-- Key of the numbers into a trunk, by input; and out of a trunk, by output. -/
def intoKey (input : Nat) (t : Fin 3) (cls : Nat) : Nat := (asOne input * 3 + t.val) * 8 + cls
def outOfKey (output : Nat) (t : Fin 3) (cls : Nat) : Nat := 4000 + (asOne output * 3 + t.val) * 8 + cls

/-- Take the next `TRUNK_SEQ` of a key. -/
def FabCore.nextSeq (k : FabCore) (key : Nat) : Half × FabCore :=
  let n := tget k.trunkNext key 0
  (n, { k with trunkNext := tset k.trunkNext key (n + 1) 0 })

/-! ### Output states (R263) -/

/-- What an output's state makes of a new frame: admitted, discarded at the input, or refused. -/
inductive NewFrame where
  | allowIn | discard | refuse
  deriving DecidableEq, Repr

def State.newFrame (s : State) (c : CoreId) (o : Nat) : NewFrame :=
  match (s.fabPort c o).state with
  | .up => .allowIn
  | .hold => .allowIn
  | .sleeping => .allowIn
  | .notServed => .discard
  | .spare => .discard
  | .down => if 64 ≤ o ∧ o < 88 then .allowIn else .refuse

/-- A frame for a sleeping cluster port requests its domain's wake. -/
def State.wakeOutput (s : State) (c : CoreId) (o : Nat) : State :=
  if (s.fabPort c o).state = .sleeping then s.wake c (2 + (o - 140) / 2) else s

/-- Count a discard at an input (R247, R251, R261). -/
def State.discardAt (s : State) (c : CoreId) (p : Nat) : State :=
  let v := s.fabPort c p
  (s.setFabPort c p { v with discards := v.discards + 1 }).count c 0x042 [(4, p)] 1

/-! ### Frames (R247, R252, R256, R257, R259) -/

/-- The fabric header (R247), with `CHECK` for a frame that is no strait frame. -/
def fabricHeader (kind dest cls acct input : Nat) (data : List Byte) : List Byte :=
  let h := leBytes 1 kind ++ leBytes 1 dest ++ leBytes 2 (data.length + 16) ++ leBytes 1 cls ++ leBytes 1 acct ++ leBytes 1 input ++
    leBytes 1 0 ++ leBytes 2 0 ++ leBytes 2 0
  h ++ leBytes 4 (crc32c (h ++ leBytes 4 0 ++ data)).toNat

def FabFrame.none_ : FabFrame :=
  { input := 0, dests := [], cls := 0, account := 0, cells := 0, bytes := 0, strait := false,
    verdict := none, allowIn := .pool, group := none, trunkSeq := [], outSeq := none, unsent := [], header := [], data := [], copy := none }

/-- A frame that a block hands over whole. -/
def blockFrame (kind dest : Nat) (cls : Fin 8) (acct input : Nat) (dests : List Nat) (a : Admit) (data : List Byte) : FabFrame :=
  { FabFrame.none_ with
    input := input, dests := dests, cls := cls, account := acct, cells := cellsOf (data.length + 16), bytes := data.length + 16,
    verdict := some true, allowIn := a, unsent := dests, header := fabricHeader kind dest cls.val acct input data, data := data }

/-- The fabric input gives a frame bound for a trunk the next number of (input, trunk, class) (R256). -/
def State.numberFrame (s : State) (c : CoreId) (key : Nat) : State :=
  (tget (s.fabCore c).frames key FabFrame.none_).dests.foldl (fun s o =>
    match trunkOf o with
    | some t =>
      let f := tget (s.fabCore c).frames key FabFrame.none_
      let (n, k) := (s.fabCore c).nextSeq (intoKey f.input t f.cls.val)
      s.setFabCore c { k with frames := tput k.frames key { f with trunkSeq := tput f.trunkSeq o n } }
    | none => s) s

/-- Store a frame that has been admitted; its key. -/
def State.storeFrame (s : State) (c : CoreId) (f : FabFrame) : Nat × State :=
  let k := s.fabCore c
  let s1 := s.setFabCore c { k with frames := tput k.frames k.nextFrame f, nextFrame := k.nextFrame + 1 }
  let s1 := s1.chargeFrame c f
  let s1 := f.dests.foldl (fun s o => (s.count c 0x040 [(4, o), (5, f.cls.val)] f.cells).wakeOutput c o) s1
  (k.nextFrame, (s.poolAlarm s1 c).numberFrame c k.nextFrame)

/-- Admit a unicast frame of a block for output `o` and store it; `none`: refused. The new frame's number is its key
plus 1 (R252, R259). -/
def State.allowIn (s : State) (c : CoreId) (input o : Nat) (cls : Fin 8) (acct : Nat) (data : List Byte) : Option Nat × State :=
  match s.admitFrom c o cls.val acct (cellsOf (data.length + 16)) with
  | none => (none, s.noteRefusal c o cls.val)
  | some a =>
    let (k, s) := s.storeFrame c (blockFrame 0 o cls acct input [o] a data)
    (some (k + 1), s.bwCount c input false (data.length + 16))

/-- The input and the output of a host trunk are named by its first port (R246). -/
def trunkIn (q : PortId) : Nat :=
  match q with
  | .h0 => 64
  | .h1 => 76

/-- Data that crosses the fabric between two blocks within one step: counted at both ports and in its class as the frame
of `n` bytes and header that it is (R246, R248; log entry 106). -/
def State.transit (s : State) (c : CoreId) (input output cls n : Nat) : State :=
  let o := match trunkOf output with
    | some t => s.trunkMember c t
    | none => output
  ((s.count c 0x040 [(4, o), (5, cls)] (cellsOf (n + 16))).bwCount c input false (n + 16)).bwCount c o true (n + 16)

/-! ### Multicast groups (R257, R258) -/

def FabCore.group (k : FabCore) (g : Nat) : GroupSt := tget k.groups g GroupSt.init
def FabCore.setGroup (k : FabCore) (g : Nat) (v : GroupSt) : FabCore := { k with groups := tset k.groups g v GroupSt.init }

/-- The destinations of a group (R257): its seats, and one member of the causeway trunk. -/
def State.groupDests (s : State) (c : CoreId) (g : GroupSt) : List Nat :=
  (maskSeats g.seats).map (·.val) ++ (if g.causeway then [s.trunkMember c 2] else [])

/-- A frame that matched a generation has still to be transmitted somewhere (R258). -/
def FabCore.genInside (k : FabCore) (g : Nat) (n : Byte) : Bool :=
  k.frames.any fun f => f.2.group.any (fun x => x.1.val == g && x.2 == n) && !f.2.unsent.isEmpty

/-- The generations of a group that no frame inside still matches retire, each with source 316; `RETIRED_GEN` is the latest
of all (R258). -/
def State.retireGroup (s : State) (c : CoreId) (g : Nat) : State :=
  let k := s.fabCore c
  let x := k.group g
  let done := x.inside.filter fun n => !k.genInside g n
  let age (n : Byte) : Nat := (x.gen - n).toNat
  let latest := done.foldl (fun b n => if age n < age b then n else b) (done.headD x.retired)
  if done.isEmpty then s
  else
    done.foldl (fun s _ => s.edge c 316)
      (s.setFabCore c (k.setGroup g { x with inside := x.inside.filter (k.genInside g), retired := latest }))

/-- A write of a group lands as one change; the generation rises (R257). One with no frame inside retires at once. -/
def State.landGroup (s : State) (c : CoreId) (g : Nat) (seats : W64) (valid causeway : Bool) : State :=
  let k := s.fabCore c
  let x := k.group g
  (s.setFabCore c (k.setGroup g
    { x with seats := seats, staged := seats, valid := valid, causeway := causeway, gen := x.gen + 1, inside := x.inside ++ [x.gen] })).retireGroup c g

/-- What became of a frame that a block offered. -/
inductive Offered where
  | taken (number : Nat) (outs : List Nat)
  | dropped
  | refused
  deriving DecidableEq, Repr

/-- Offer a multicast frame for some of a group's seats: it takes the group's entry in force, and it is admitted from the
pool only (R258, R259). Its copy for the twin is queued at a member of the causeway trunk. -/
def State.offerGroup (s : State) (c : CoreId) (g : Fin 256) (seats : List Seat) (cls : Fin 8) (h : Hand) : Offered × State :=
  let x := (s.fabCore c).group g.val
  let n := cellsOf (h.bytes.length + 16)
  let ds := (s.groupDests c x).filter fun o => decide (64 ≤ o) || seats.any fun y => y.val == o
  let ds := ds.filter fun o => s.newFrame c o == .allowIn && s.outTakes c o n
  if !x.valid then (.dropped, s.discardAt c h.input)
  else if ds.isEmpty || !s.poolTakes c cls.val n then (.refused, s.noteRefusal c h.input cls.val)
  else
    let f := blockFrame 1 g.val cls h.acct h.input ds .pool h.bytes
    let (k, s) := s.storeFrame c { f with group := some (g, x.gen), copy := some (h.local_, h.ends) }
    let s := s.bwCount c h.input false (h.bytes.length + 16)
    let s := (ds.filter fun o => decide (64 ≤ o)).foldl (fun s o =>
      let p := s.fabPort c o
      s.setFabPort c o { p with queues := tset p.queues cls.val (tget p.queues cls.val [] ++ [k]) [] }) s
    (.taken (k + 1) ds, s)

/-- The output lets go of a frame's cells. -/
def State.uncharge (s : State) (c : CoreId) (f : FabFrame) (o : Nat) : State :=
  let p := s.fabPort c o
  let p := { p with cells := p.cells - f.cells }
  s.setFabPort c o (match f.allowIn with
    | .outMin => { p with minUsed := tset p.minUsed f.cls.val (tget p.minUsed f.cls.val 0 - f.cells) 0 }
    | .isletMin => p
    | .pool => { p with poolCells := p.poolCells - f.cells })

/-- A frame leaves one of its destinations; when it has left every one its cells are freed (R260). -/
def State.leaveOutput (s : State) (c : CoreId) (key o : Nat) : State :=
  let k := s.fabCore c
  let f := tget k.frames key FabFrame.none_
  if !f.dests.contains o then s
  else
    let s := s.uncharge c f o
    let rest := f.dests.filter (· != o)
    let k := s.fabCore c
    if rest.isEmpty then
      let k := { k with frames := terase k.frames key }
      s.setFabCore c (match f.allowIn with
        | .outMin => k
        | .isletMin =>
          { k with isletUsed := tset k.isletUsed f.account (tget k.isletUsed f.account 0 - f.cells) 0 }
        | .pool => { k with poolUsed := k.poolUsed - f.cells })
    else s.setFabCore c { k with frames := tput k.frames key { f with dests := rest, unsent := f.unsent.filter (· != o) } }

/-- A frame has been transmitted at an output that keeps its cells (R258, R260). -/
def State.markSent (s : State) (c : CoreId) (key o : Nat) : State :=
  let k := s.fabCore c
  let f := tget k.frames key FabFrame.none_
  if f.unsent.contains o then s.setFabCore c { k with frames := tput k.frames key { f with unsent := f.unsent.filter (· != o) } } else s

/-- The minimum of an islet that is gone: the cells in use of it count as pool cells held by their outputs (R262). -/
def State.poolIslet (s : State) (i : IsletNo) : State :=
  bothCores.foldl (fun s c =>
    (s.fabCore c).frames.foldl (fun s e =>
      if e.2.allowIn == .isletMin && e.2.account == i.val then
        let s := e.2.dests.foldl (fun s o => s.setFabPort c o { s.fabPort c o with poolCells := (s.fabPort c o).poolCells + e.2.cells }) s
        let k := s.fabCore c
        s.setFabCore c { k with
          frames := tput k.frames e.1 { e.2 with allowIn := .pool }, poolUsed := k.poolUsed + e.2.cells,
          isletUsed := tset k.isletUsed i.val (tget k.isletUsed i.val 0 - e.2.cells) 0 }
      else s) s) s

/-- Free a seat's frame by its number; 0 names none. -/
def State.freeNumbered (s : State) (c : CoreId) (x : Seat) (number : Nat) : State :=
  if number = 0 then s else s.leaveOutput c (number - 1) x.val

/-- `STATE` of an output changes: source 317 (R263, R266). -/
def State.setPortState (s : State) (c : CoreId) (o : Nat) (st : FabState) : State :=
  let p := s.fabPort c o
  if p.state = st then s else (s.setFabPort c o { p with state := st }).edge c 317

end Sys2Proof.Machine
end

