-- ==== Sys2Proof/Machine/Engine.lean ====
section
/-! DEFINITION. Items, ready queues, dispatch, pre-emption and cluster modes of the transfer engines
(04 R87 to R93, 05 R128 to R137). -/

namespace Sys2Proof.Machine

/-! ### Levels, homes, programs -/

/-- The level of an item of kinds 0 to 5 (R130). -/
def DispSt.level (d : DispSt) (kind : Nat) : Fin 8 := toFin 7 (bits d.levels.toNat (3 * kind + 2) (3 * kind))

/-- The home cluster of a seat (R129). -/
def DispSt.seatHome (d : DispSt) (x : Seat) : Fin 4 :=
  if x.val < 32 then toFin 3 (bits d.clusterLo.toNat (2 * x.val + 1) (2 * x.val))
  else toFin 3 (bits d.clusterHi.toNat (2 * (x.val - 32) + 1) (2 * (x.val - 32)))

/-- The home cluster of an item (R129). -/
def DispSt.home (d : DispSt) (it : Item) : Fin 4 :=
  match it.seat, it.head with
  | some x, _ => d.seatHome x
  | none, some h => d.seatHome (headSeat h)
  | none, none => toFin 3 it.flow.toNat

/-- The cluster of a transfer engine. -/
def teCluster (t : TeNo) : Fin 4 := ⟨t.val / 8, by omega⟩

/-- A cluster works in pre-emption mode (R135). -/
def DispSt.preempts (d : DispSt) (cl : Fin 4) : Bool := d.preempt.getLsbD cl.val

/-- The TE's cluster domain is on and its core runs (R133, 11 R304). -/
def State.teClock (s : State) (c : CoreId) (t : TeNo) : Bool :=
  let x := s.domain c (2 + t.val / 8)
  s.serves c && x.st == .on && x.going.isNone

def ImageSt.serves (m : ImageSt) (k : Nat) : Bool :=
  match m.entry[k]? with
  | some e => e != 0xFFFFFFFF
  | none => false

/-- Whether an image is the islet image of `i`, or a unit image. -/
def ProgId.isIslet (p : ProgId) (i : IsletNo) : Bool :=
  match p with
  | .islet j _ => j == i
  | _ => false

def ProgId.isUnit : ProgId → Bool
  | .unit _ => true
  | _ => false

/-- The live image that serves a kind for an islet (R88, R89). Kinds 2 to 4 run the stock programs. -/
def State.imageFor (s : State) (c : CoreId) (i : IsletNo) (kind : Nat) : Option ImageSt :=
  if kind = 2 ∨ kind = 3 ∨ kind = 4 then none
  else
    match (s.store c).find? (fun m => m.live && i.val != 0 && m.id.isIslet i && m.serves kind) with
    | some m => some m
    | none => (s.store c).find? (fun m => m.live && m.id.isUnit && m.serves kind)

/-- The program of an item, where its image starts, and its entry address (R89). -/
def State.programFor (s : State) (c : CoreId) (i : IsletNo) (kind : Nat) : ProgId × Nat × Nat :=
  match s.imageFor c i kind with
  | some m => (m.id, m.base, m.base + 4 * ((m.entry[kind]?).getD 0).toNat)
  | none => (.stock, 0, Config.stockEntry kind)

/-! ### The receiver's reports (R194, R195, R409) -/

/-- A report of a tunnel falls due within `delay` ns (R195). -/
def State.reportIn (s : State) (x : Seat) (t : Tunnel) (delay : Nat) : State :=
  let u := s.tun x t
  let by' := s.ut (s.servingCore x) + delay
  let v := match u.reportBy with
    | some b => min b by'
    | none => by'
  s.setTun x t { u with reportBy := some v }

/-- `ACK_SEQ` of a tunnel passes every frame whose items have ended, up to `RECEIVED`. -/
def advanceAck : Nat → TunSt → TunSt
  | 0, u => u
  | n + 1, u =>
    if u.ack = u.recv ∨ (tget u.acting u.ack.toNat 0) ≠ 0 then u
    else advanceAck n { u with ack := u.ack + 1 }

/-- Advance `ACK_SEQ` where the owner has dealt with the frames; USB and NET advances are withheld during
hold-back (R409, 05 R136). -/
def State.ackPass (s : State) (x : Seat) (t : Tunnel) : State :=
  let held := (s.dispatch (s.servingCore x)).holdBack && (t = .usb || t = .net)
  if held then s
  else
    let u := s.tun x t
    let v := advanceAck 64 u
    if v.ack = u.ack then s else (s.setTun x t v).reportIn x t 100000

/-- One item or operation made from a received frame has ended (R409). -/
def State.actDone (s : State) (x : Seat) (t : Tunnel) (seq : Half) : State :=
  let u := s.tun x t
  let n := tget u.acting seq.toNat 0
  (s.setTun x t { u with acting := tset u.acting seq.toNat (n - 1) 0 }).ackPass x t

/-- An item or operation is made from a received frame (R409). -/
def State.actMake (s : State) (x : Seat) (t : Tunnel) (seq : Half) : State :=
  let u := s.tun x t
  s.setTun x t { u with acting := tset u.acting seq.toNat (tget u.acting seq.toNat 0 + 1) 0 }

/-- Leaving hold-back opens the docks' windows again: the advances withheld meanwhile are made (05 R136). -/
def State.releaseAcks (s : State) (c : CoreId) : State :=
  (List.finRange 64).foldl (fun s x =>
    if s.servingCore x = c then (s.ackPass x .usb).ackPass x .net else s) s

/-! ### Ready queues (R130 to R132, R136) -/

/-- Places in use: ready items and one reserved place for each suspended item, which it keeps while it is ready
to resume (R136). -/
def DispSt.places (d : DispSt) : Nat := (d.ready.filter fun (x : Item) => !x.resume).length + d.suspended.length

/-- The queue engine begins new rounds for the queues that a core serves: in hold-back no entry could be taken,
so the rounds ended (03 R70). -/
def State.newRounds (s : State) (c : CoreId) : State :=
  bothCores.foldl (fun s k =>
    if s.runs k = c then (List.finRange 129).foldl (fun s i => s.newRound k i) s else s) s

/-- Enter or leave hold-back (R136). On leaving it, what it withheld goes on. -/
def State.holdCheck (s : State) (c : CoreId) : State :=
  let d := s.dispatch c
  if !d.holdBack && decide (15360 ≤ d.places) then
    (s.setDispatch c { d with holdBack := true, episodes := d.episodes + 1 }).edge c 840
  else if d.holdBack && decide (d.places ≤ 14336) then
    (((s.setDispatch c { d with holdBack := false }).edge c 841).newRounds c).releaseAcks c
  else s

/-- Insert in the order of readiness: by UT, and within a fabric clock cycle by flow identifier (R132). -/
def insertReady (it : Item) : List Item → List Item
  | [] => [it]
  | x :: r =>
    if fabricCycles it.readyUt = fabricCycles x.readyUt ∧ it.flow.toNat < x.flow.toNat then it :: x :: r
    else x :: insertReady it r

/-- An item enters the ready queue of its level in a cluster, whose domain it wakes (R129, R130, 11 R307). -/
def State.readyIn (s : State) (c : CoreId) (it : Item) (level : Fin 8) (home : Fin 4) : State :=
  let d := s.dispatch c
  let v : Item := { it with level := level, home := home, readyUt := s.ut c, passed := 0 }
  let s := (s.setDispatch c { d with ready := insertReady v d.ready }).holdCheck c
  if (s.domain c (2 + v.home.val)).st = .on then s else s.wake c (2 + v.home.val)

/-- An item becomes ready at a level in its home cluster (R129, R130). -/
def State.readyAt (s : State) (c : CoreId) (it : Item) (level : Fin 8) : State :=
  s.readyIn c it level ((s.dispatch c).home it)

/-- An item of kinds 0 to 5 becomes ready at its kind's level (R130). -/
def State.readyItem (s : State) (c : CoreId) (it : Item) : State :=
  s.readyAt c it ((s.dispatch c).level it.kind)

/-- An item of an ISO frame of a seat. -/
def Item.isoOf (it : Item) (x : Option Seat) : Bool := it.iso && it.seat == x

/-- A seat's items of ISO frames: eight are ready at most, and further ones wait in the seat interface, in order
(R136). -/
def State.readyIso (s : State) (c : CoreId) (it : Item) : State :=
  let d := s.dispatch c
  if d.isoWait.any (fun (x : Item) => x.isoOf it.seat) ||
      decide (8 ≤ (d.ready.filter fun (x : Item) => x.isoOf it.seat).length) then
    s.setDispatch c { d with isoWait := d.isoWait ++ [it] }
  else s.readyItem c it

/-- A place of a seat's ISO items is free: the next that waits becomes ready. -/
def State.feedIso (s : State) (c : CoreId) (x : Option Seat) : State :=
  let d := s.dispatch c
  match d.isoWait.find? (fun (it : Item) => it.isoOf x) with
  | none => s
  | some it => (s.setDispatch c { d with isoWait := d.isoWait.erase it }).readyItem c it

/-- The runs that hold a flow: in service, staged, pre-empted (R131). -/
def TeSt.runs (t : TeSt) : List Run := t.cur.toList ++ t.staged.toList ++ t.pre.toList

/-- The transfer engines of a core that the table lists. -/
def State.coreTes (s : State) (c : CoreId) : List TeSt :=
  (s.te.tes.filter fun e => e.1 / 32 == c.num).map (·.2)

def State.heldRuns (s : State) (c : CoreId) : List Run :=
  ((s.coreTes c).map TeSt.runs).flatten ++ (s.dispatch c).suspended.map (·.1)

/-- A flow is held (R131). -/
def State.flowHeld (s : State) (c : CoreId) (fl : BitVec 24) : Bool :=
  (s.heldRuns c).any fun r => r.item.flow == fl

/-- The eligible items of a home cluster, in the order of readiness: the earliest of a flow not held. An item
that resumes holds its flow itself. -/
def eligible (held : BitVec 24 → Bool) (home : Fin 4) : List Item → List (BitVec 24) → List Item
  | [], _ => []
  | x :: r, seen =>
    if seen.contains x.flow || (held x.flow && !x.resume) then eligible held home r seen
    else if x.home == home then x :: eligible held home r (x.flow :: seen)
    else eligible held home r (x.flow :: seen)

/-- The flow last ran on the TE: its most recent `done` was there and is among the TE's last 16 (R132). -/
def State.lastRan (s : State) (c : CoreId) (t : TeNo) (fl : BitVec 24) : Bool :=
  ((s.teSt c t).lastFlows.contains fl) && tget (s.dispatch c).lastTe fl.toNat 32 == t.val

def maxLevel (e : List Item) : Nat := (e.map (·.level.val)).foldl max 0

/-- The dispatcher's window W and its pick for TE t among items above level `above` (R132). -/
def State.pick (s : State) (c : CoreId) (t : TeNo) (above : Option Nat) : Option (List Item × Item) :=
  let d := s.dispatch c
  let e := (eligible (s.flowHeld c) (teCluster t) d.ready []).filter fun x =>
    (x.kind != 5 || s.flt.token == c) &&
    match above with
    | some l => decide (l < x.level.val)
    | none => true
  let w := (e.filter fun (x : Item) => x.level.val == maxLevel e).take 4
  let p := match w.find? (fun (x : Item) => decide (3 ≤ x.passed)) with
    | some x => some x
    | none => match w.find? (fun (x : Item) => s.lastRan c t x.flow) with
      | some x => some x
      | none => w.head?
  p.map fun x => (w, x)

/-- One item of the ready queue was overtaken. -/
def passOver (x : Item) : List Item → List Item
  | [] => []
  | y :: r => if y = x then { y with passed := y.passed + 1 } :: r else y :: passOver x r

/-- Remove the pick from the ready items and count it against those of W that stood before it (R132). -/
def takePick (w : List Item) (p : Item) (ready : List Item) : List Item :=
  (w.takeWhile fun (x : Item) => x != p).foldl (fun l x => passOver x l) (ready.erase p)

/-! ### Runs -/

/-- The bus budget of a segment: B_HS, or 0 without an accepted profile (06 R154). -/
def State.busBudget (s : State) (x : Option Seat) : Nat :=
  match x with
  | some x =>
    match (s.usbSeat x).profile with
    | some p => min p.hsWindow 59600
    | none => 0
  | none => 0

/-- A new run of an item in a scratch half: registers 0 but g1, stacks empty, tokens idle, its frame (R90,
R93). -/
def newRun (it : Item) (slot : Fin 2) : Run :=
  { item := it, prog := .stock, base := 0, regs := (Vector.replicate 32 0).set 1 it.arg, pc := 0, loops := [],
    rets := [], toks := Vector.replicate 8 .idle, scratch := it.frame, count := 0, script := none,
    startUt := 0, slot := slot, tickRd := 0 }

/-- A suspended run goes on after its `tick`: the script of the next micro-frame opens, and `tick` writes its
number (R110). -/
def State.resumeRun (s : State) (c : CoreId) (r : Run) : Run :=
  let n := (match r.script with
    | some sc => sc.n
    | none => 0) + 1
  { r with item := { r.item with resume := false }, startUt := s.ut c, count := 0,
           script := some { n := n, recs := [], budget := s.busBudget r.item.seat },
           regs := if r.tickRd = 0 then r.regs else r.regs.set r.tickRd.val (BitVec.ofNat 64 n) }

/-- A run's first dispatch starts its first segment: its program and entry are chosen (R89, R123), and a
kind 0 item's script opens (R109, R154). -/
def State.beginRun (s : State) (c : CoreId) (r : Run) : Run :=
  let it := r.item
  let (prog, base, pc) := s.programFor c it.islet it.kind
  let sc := if it.kind = 0 then some { n := it.arg.toNat, recs := [], budget := s.busBudget it.seat } else none
  { r with prog := prog, base := base, pc := pc, startUt := s.ut c, script := sc }

/-- A run enters service: its first dispatch, or its resumption after `tick`, starts a segment (R128). -/
def State.startRun (s : State) (c : CoreId) (r : Run) : Run :=
  if r.item.resume then s.resumeRun c r else s.beginRun c r

/-- The scratch half that no run of the TE owns (R92). -/
def TeSt.freeSlot (t : TeSt) : Fin 2 := if t.runs.any (fun r => r.slot == 0) then 1 else 0

/-- Count a staging or dispatch: the wait, the level's largest wait, the events (R128, 14 R363, R369). -/
def State.countStart (s : State) (c : CoreId) (t : TeNo) (it : Item) : State :=
  let wait := s.ut c - it.readyUt
  let d := s.dispatch c
  let old := (tget d.maxWait it.level.val 0).toNat
  let v : W32 := BitVec.ofNat 32 (min 0xFFFFFFFF (max old wait))
  let s := s.setDispatch c { d with maxWait := tset d.maxWait it.level.val v 0 }
  let s := s.count c 0x014 [(1, it.islet.val), (3, t.val), (5, it.level.val)] 1
  let s := s.count c 0x017 [(1, it.islet.val), (5, it.level.val)] wait
  s.latency c it.islet 5 wait

/-- The run of an item that is staged or dispatched: a new one, or the suspended one that it resumes, at the
level it has now (R110, R128, R130). -/
def State.openRun (s : State) (c : CoreId) (p : Item) (slot : Fin 2) : Run × State :=
  let d := s.dispatch c
  match (if p.resume then d.suspended.find? (fun r => r.1.item.flow == p.flow) else none) with
  | some r => ({ r.1 with item := p, slot := slot }, s.setDispatch c { d with suspended := d.suspended.erase r })
  | none => (newRun p slot, s)

/-- TE t stages or dispatches the dispatcher's pick among the eligible items above a level (R132 to R134).
`none`: no such item. -/
def State.takeItem (s : State) (c : CoreId) (t : TeNo) (above : Option Nat) (stage : Bool) : Option State :=
  match s.pick c t above with
  | none => none
  | some (w, p) =>
    let d := s.dispatch c
    let s := s.setDispatch c { d with ready := takePick w p d.ready }
    let te := s.teSt c t
    let (r, s) := s.openRun c p te.freeSlot
    let te := if stage then { te with staged := some r } else { te with cur := some (s.startRun c r) }
    let s := ((s.setTeSt c t te).countStart c t p).holdCheck c
    some (if p.iso then s.feedIso c p.seat else s)

/-- A TE with a free local slot asks for work (R132, R133; in pre-emption mode only an idle TE, R134). -/
def State.teAsk (s : State) (c : CoreId) (t : TeNo) : State :=
  let te := s.teSt c t
  let cl := teCluster t
  let d := s.dispatch c
  if !s.teClock c t then s
  else if te.cur.isNone && te.staged.isNone && te.pre.isNone && !te.inHandler then (s.takeItem c t none false).getD s
  else if te.cur.isSome && te.staged.isNone && te.pre.isNone && !d.preempts cl then
    (s.takeItem c t none true).getD s
  else s

/-- The running item's level on a TE that may be pre-empted (R134). -/
def State.preemptible (s : State) (c : CoreId) (t : TeNo) : Option Nat :=
  let te := s.teSt c t
  match te.cur with
  | some r => if te.pre.isNone && te.staged.isNone && !te.late && !te.inHandler && s.teClock c t then some r.item.level.val
              else none
  | none => none

/-- The transfer engines of a cluster (05). -/
def clusterTes (cl : Fin 4) : List TeNo := (List.finRange 32).filter fun t => teCluster t == cl

/-- The TE that a new item of a cluster pre-empts: the lowest running level, ties to the lowest number. -/
def State.lowestTe (s : State) (c : CoreId) (cl : Fin 4) : Option (TeNo × Nat) :=
  (clusterTes cl).foldl (fun best t =>
    match s.preemptible c t, best with
    | some l, some (_, l') => if l < l' then some (t, l) else best
    | some l, none => some (t, l)
    | none, _ => best) none

/-- Pre-emption in a cluster (R134): an idle TE asks, else the lowest running item gives way to a higher
one; its context is kept on the TE. -/
def State.preemptCluster (s : State) (c : CoreId) (cl : Fin 4) : State :=
  if !(s.dispatch c).preempts cl then s
  else
    match (clusterTes cl).find? (fun t =>
        let te := s.teSt c t
        te.cur.isNone && te.staged.isNone && te.pre.isNone && !te.inHandler && s.teClock c t) with
    | some t => s.teAsk c t
    | none =>
      match s.lowestTe c cl with
      | none => s
      | some (t, l) =>
        let te := s.teSt c t
        let s' := s.setTeSt c t { te with cur := none, pre := te.cur, waiting := false }
        match s'.takeItem c t (some l) false with
        | some s'' => s''.count c 0x016 [(3, t.val)] 1
        | none => s

/-- The pre-empting item has left: a still higher eligible item runs first, else the pre-empted one is
restored (R134); once pre-emption has stopped it resumes at once (R135). -/
def State.restorePre (s : State) (c : CoreId) (t : TeNo) : State :=
  let te := s.teSt c t
  match te.cur, te.pre with
  | none, some r =>
    if !s.teClock c t then s
    else
      let back := s.setTeSt c t { te with cur := some r, pre := none }
      if (s.dispatch c).preempts (teCluster t) then
        (s.takeItem c t (some r.item.level.val) false).getD back
      else back
  | _, _ => s

/-- A staged item starts when its TE becomes free (R133). -/
def State.startStaged (s : State) (c : CoreId) (t : TeNo) : State :=
  let te := s.teSt c t
  match te.cur, te.staged with
  | none, some r => s.setTeSt c t { te with cur := some (s.startRun c r), staged := none }
  | _, _ => s

/-- A cluster changes mode: what its TEs have staged runs to its end in pre-emption mode (R135). -/
def State.markLate (s : State) (c : CoreId) (cl : Fin 4) (late : Bool) : State :=
  (clusterTes cl).foldl (fun s t =>
    let te := s.teSt c t
    s.setTeSt c t { te with late := late && te.staged.isSome }) s

/-- A write of `CLUSTER_MODE`: a cluster whose bit changes is `CHANGING` (R135). -/
def State.writeClusterMode (s : State) (c : CoreId) (v : W32) : State :=
  let d := s.dispatch c
  let p : BitVec 4 := BitVec.ofNat 4 v.toNat
  let x := p ^^^ d.preempt
  let s := s.setDispatch c { d with preempt := p, changing := d.changing ||| x }
  (List.finRange 4).foldl (fun s cl => if x.getLsbD cl.val then s.markLate c cl (p.getLsbD cl.val) else s) s

/-- All eight TEs of a cluster work in its mode (R135). -/
def State.clusterInMode (s : State) (c : CoreId) (cl : Fin 4) : Bool :=
  (clusterTes cl).all fun t =>
    let te := s.teSt c t
    if (s.dispatch c).preempts cl then te.staged.isNone && !te.late else te.pre.isNone

/-! ### The meanings of the dispatcher's commands -/

/-- A TE with a free local slot stages or dispatches the chosen eligible item (R132). -/
def execItemDispatch (c : CoreId) (t : TeNo) (s : State) : Host.Outcome State Fault Refusal :=
  .next (s.teAsk c t)

/-- A higher-level item pre-empts the lowest running item of a pre-emption cluster (R134). -/
def execPreemption (c : CoreId) (cl : Fin 4) (s : State) : Host.Outcome State Fault Refusal :=
  .next (if s.serves c then s.preemptCluster c cl else s)

/-- A pre-empted item is restored when the pre-empting item has left (R134). -/
def execPreemptedRestore (c : CoreId) (t : TeNo) (s : State) : Host.Outcome State Fault Refusal :=
  .next (s.restorePre c t)

/-- A unit-wide write of `CLUSTER_MODE` (R33, R135). -/
def execClusterModeWrite (w : Via) (c : CoreId) (v : W32) (s : State) : Host.Outcome State Fault Refusal :=
  .next (if s.viaHeard w && s.viaMay w then s.writeClusterMode c v else s)

/-- `CHANGING` clears when all eight TEs work in the new mode (R135). -/
def execClusterModeChanged (c : CoreId) (cl : Fin 4) (s : State) : Host.Outcome State Fault Refusal :=
  let d := s.dispatch c
  .next (if s.clusterInMode c cl then
      s.setDispatch c { d with changing := d.changing &&& ~~~(1#4 <<< cl.val) }
    else s)

/-- A host read of `DISPATCH_LEVEL_l` returns `MAX_WAIT` with `DEPTH` and clears it (16 R389). The word
leaves as the read's completion. -/
def State.readMaxWait (s : State) (c : CoreId) (l : Fin 8) : W64 × State :=
  let d := s.dispatch c
  let depth := (d.ready.filter fun x => x.level == l).length
  let v : W64 := BitVec.ofNat 64 ((tget d.maxWait l.val 0).toNat * 2 ^ 32 + depth)
  (v, s.setDispatch c { d with maxWait := tset d.maxWait l.val 0 0 })

def execMaxWaitRead (f : FnId) (l : Fin 8) (s : State) : Host.Outcome State Fault Refusal :=
  .next (if s.fnUp f then
      let (v, s) := s.readMaxWait f.core l
      s.sendHost (.completion f (leBytes 8 v.toNat))
    else if s.fencedReads f then s.sendHost (.completion f (List.replicate 8 0xFF))
    else s)

end Sys2Proof.Machine
end

