-- ==== Sys2Proof/Machine/Strait.lean ====
section
/-! DEFINITION. Strait frames: building and sending them, what the partner's reports free, and the unit's
own reports (07 R187 to R198, R409). -/

namespace Sys2Proof.Machine

/-! ### Rates and line time -/

/-- A rate code in tenths of Gb/s (07 `RATE`); no rate counts as 2.5 Gb/s (10 R268). -/
def rateTenths (r : Nat) : Nat :=
  if r = 2 then 50 else if r = 3 then 100 else if r = 4 then 250 else 25

/-- A frame of L bytes with its overhead ends within `window` ns (10 R271). -/
def fitsIn (l overhead rate window : Nat) : Bool := decide ((l + overhead) * 80 ≤ window * rateTenths rate)

/-- Line time of a frame in ns, rounded up (10 R271). -/
def lineTime (l overhead rate : Nat) : Nat := cdiv ((l + overhead) * 80) (rateTenths rate)

/-! ### Link state -/

/-- `STATE` of `SEAT_LINK_STATUS`. -/
def LinkState.code : LinkState → Nat
  | .noPartner => 0
  | .negotiating => 1
  | .training => 2
  | .greeting => 3
  | .up => 4
  | .holdDown => 5
  | .rateChange => 6
  | .unenrolled => 7
  | .authFailed => 8
  | .foreign => 9
  | .disabled => 10

/-- What `STATE` of `SEAT_LINK_STATUS` shows: a link that is not up shows `RATE_CHANGE` from the stop of a rate
change (R220), else `HOLD_DOWN` while one runs (R210). -/
def State.linkState (s : State) (x : Seat) : LinkState :=
  let l := s.link_ x
  let down := match l.st with
    | .noPartner => true
    | .negotiating => true
    | .training => true
    | .greeting => true
    | _ => false
  if down && decide ((s.seatTime x).ratePhase = .changing) then .rateChange
  else if down && l.holdStart.isSome then .holdDown else l.st

/-- The link carries frames of any kind: it is up, greeting, or up for CTRL, SYNC and DISP (R205). -/
def LinkState.carries : LinkState → Bool
  | .greeting => true
  | .up => true
  | .unenrolled => true
  | .authFailed => true
  | _ => false

/-- Whether the unit may send frames of a tunnel now (R205, R207, R208). -/
def SeatLink.maySend (l : SeatLink) (t : Tunnel) : Bool :=
  match l.st, t with
  | st, .ctrl => st.carries
  | st, .sync => st.carries
  | .up, _ => !l.live
  | .unenrolled, .disp => !l.live
  | .authFailed, .disp => !l.live
  | _, _ => false

/-! ### The sender (R187 to R198) -/

/-- The line's present rate code, and the overhead of the schedule in force (10 R267, R270). -/
def State.rateOf (s : State) (x : Seat) : Nat := (s.link_ x).rate.toNat
def State.overheadOf (s : State) (x : Seat) : Nat := (s.seatTraf x).appliedOverhead

/-- The tunnel whose report rides next: the one due first (R195). -/
def State.dueReport (s : State) (x : Seat) : Option Tunnel :=
  (allTunnels.filter (·.reliable)).foldl (fun best t =>
    match (s.tun x t).reportBy, best with
    | some b, some t' =>
      match (s.tun x t').reportBy with
      | some b' => if b < b' then some t else best
      | none => some t
    | some _, none => some t
    | none, _ => best) none

/-- What the seat interface sends to the PCS for a frame: start, preamble and SFD, the frame, terminate, and idle for the
rest of the minimum gap of 12 (R182). -/
def lineChars (b : List Byte) : List PcsChar :=
  .start :: (List.replicate 6 (.data 0x55) ++ (.data 0xD5 :: (b.map .data ++ (.terminate :: List.replicate 11 .idle))))

/-- The bytes of a strait frame (R187, R188): tunnel and flags, the report, payload and CRC. -/
def straitBytes (t : Tunnel) (ackReq unseq : Bool) (seq : Half) (report : Option (Tunnel × Half × Half))
    (stamp : Nat) (payload : List Byte) : List Byte :=
  let b0 := t.code + at_ t.cls 3 + at_ (b2n ackReq) 6 + at_ (b2n report.isSome) 7
  let (b1, a, r) := match report with
    | some (k, a, r) => (k.code, a.toNat, r.toNat)
    | none => (0, 0, 0)
  let h := leBytes 1 b0 ++ leBytes 1 (b1 + at_ (b2n unseq) 7) ++ leBytes 2 seq.toNat ++ leBytes 2 a ++
    leBytes 2 r ++ leBytes 2 payload.length ++ leBytes 2 0 ++ leBytes 4 stamp
  let m := h ++ payload
  m ++ leBytes 4 (crc32 m).toNat

/-- The seat counter of the first of steps 1 to 3 of R189 that a received frame fails. -/
def straitCheck (pcsError : Bool) (b : List Byte) : Option Nat :=
  let n := b.length
  if pcsError ∨ n < 20 ∨ 9216 < n then some 4
  else if fld b (n - 4) 4 ≠ (crc32 (b.take (n - 4))).toNat then some 5
  else if fld b 8 2 ≠ n - 20 then some 6
  else none

/-- `UT_FULL` of a `TIME_BASE` is written again for every frame that carries it (R215). -/
def stampSync (t : Tunnel) (stamp : Nat) (b : List Byte) : List Byte :=
  if t = .sync ∧ fld b 0 1 = 0x10 then b.take 4 ++ leBytes 8 stamp ++ b.drop 12 else b

/-- Put a frame on the line at the present time: the report that rides on it is no longer due, the line is
busy for its line time, and the counters follow. -/
def State.putLine (s : State) (x : Seat) (t : Tunnel) (ackReq unseq : Bool) (seq : Half)
    (payload : List Byte) : State :=
  let c := s.servingCore x
  let now := s.ut c
  let rep := match s.dueReport x with
    | some k => some k
    | none => if unseq then some Tunnel.ctrl else none
  let report := rep.map fun k => (k, (s.tun x k).ack, (s.tun x k).recv)
  let b := straitBytes t ackReq unseq seq report now (stampSync t now payload)
  let s := match rep with
    | some k => s.setTun x k { s.tun x k with reportBy := none }
    | none => s
  let s := s.setLink { s.link with line := s.link.line ++ [{ seat := x, chars := lineChars b }] }
  let l := s.link_ x
  let s := s.setLink_ x { l with lastTx := now }
  let w := s.wfq x
  let s := s.setWfq x { w with busyUntil := now + lineTime b.length (s.overheadOf x) (s.rateOf x) }
  let s := (s.bumpSeat x 1 1).bumpSeat x 3 b.length
  let s := (s.count c 0x050 [(2, x.val), (6, t.code)] 1).count c 0x051 [(2, x.val), (6, t.code)] b.length
  let d := s.demand x
  s.setDemand x { d with sent := tset d.sent t.code (satAdd 0xFFFFFFFF (tget d.sent t.code 0) b.length) 0 }

/-- Start a retransmit timer at the end of a frame sent with `ACK_REQ`, its last CRC byte (R197). -/
def State.startTimer (s : State) (x : Seat) (t : Tunnel) (f : TxFrame) : State :=
  let u := s.tun x t
  let e := s.ut (s.servingCore x) + lineTime (f.bytes.length + 20) 8 (s.rateOf x)
  s.setTun x t { u with timers := (u.timers.filter fun r => r.seq != f.seq) ++ [{ seq := f.seq, due := e + 30000, paused := 0 }] }

/-- Send a new frame of a tunnel: its number, `ACK_REQ` at least every 16th and on the last of the queue
(R193); ISO frames carry none, and their cells are freed once they are sent (R198, 09 R260). -/
def State.sendNew (s : State) (x : Seat) (t : Tunnel) (f : TxFrame) (rest : List TxFrame) : State :=
  let u := s.tun x t
  let req := t.reliable && (decide (15 ≤ u.sinceReq) || rest.isEmpty || decide (63 ≤ sub16 u.next u.free))
  let seq := u.next
  let c := s.servingCore x
  let keeps := t.reliable || f.deadline.isSome
  let s := s.setTun x t { u with next := u.next + 1, queue := rest, sinceReq := if req then 0 else u.sinceReq + 1,
                                 held := u.held ++ (if keeps then [{ f with seq := seq, frame := if t.reliable then f.frame else 0 }] else []) }
  let s := if f.frame = 0 then s else (s.bwCount c x.val true (f.bytes.length + 16)).markSent c (f.frame - 1) x.val
  let s := if t.reliable then s else s.freeNumbered c x f.frame
  let s := s.putLine x t req false seq f.bytes
  if req then s.startTimer x t { f with seq := seq } else s

/-- Resend a held frame; `ACK_REQ` on the last of those to resend (R196, R197). -/
def State.sendAgain (s : State) (x : Seat) (t : Tunnel) (seq : Half) (rest : List Half) : State :=
  let u := s.tun x t
  let s := s.setTun x t { u with resend := rest }
  match u.held.find? (fun f => f.seq == seq) with
  | none => s
  | some f =>
    let req := t.reliable && rest.isEmpty
    let s := if f.frame = 0 then s else s.bwCount (s.servingCore x) x.val true (f.bytes.length + 16)
    let s := s.putLine x t req false seq f.bytes
    let s := (s.bumpSeat x 9 1).count (s.servingCore x) 0x053 [(2, x.val), (6, t.code)] 1
    if req then s.startTimer x t f else s

/-- A bare frame: a report, or a NAK (R191). -/
def State.sendBare (s : State) (x : Seat) (payload : List Byte) : State :=
  s.putLine x .ctrl false true 0 payload

/-- The sender frees a held frame: its cells, and the entry that its acknowledgement completes (09 R260, 10
R279). -/
def State.freeTx (s : State) (x : Seat) (f : TxFrame) (acked : Bool) : State :=
  let s := s.freeNumbered (s.servingCore x) x f.frame
  match f.handle, acked with
  | some h, true => s.finish h 0x00 f.bytes.length (b2n f.yellow)
  | _, _ => s

/-- The frames below `ACK_SEQ` are freed, and `RECEIVED` stops the timers of the frames it passes (R193, R195, R197). -/
def State.takeReport (s : State) (x : Seat) (t : Tunnel) (ack recv : Half) : State :=
  let u := s.tun x t
  let n := sub16 ack u.free
  let freed := u.held.filter fun f => decide (sub16 f.seq u.free < n)
  let kept := u.held.filter fun f => decide (n ≤ sub16 f.seq u.free)
  let moved := decide (sub16 u.peerRecv u.free < sub16 recv u.free)
  let passed (q : Half) : Bool := decide (sub16 q u.free < sub16 recv u.free)
  let s := s.setTun x t { u with
    held := kept, free := ack, peerRecv := recv, timers := u.timers.filter fun r => !passed r.seq,
    expiries := if moved then 0 else u.expiries,
    resend := u.resend.filter fun q => !passed q }
  freed.foldl (fun s f => s.freeTx x f true) s

/-- A report lies within the sender's frames (R189). -/
def TunSt.reportOk (u : TunSt) (ack recv : Half) : Bool :=
  decide (sub16 ack u.free ≤ sub16 u.next u.free ∧ sub16 recv u.free ≤ sub16 u.next u.free ∧
    sub16 recv ack ≤ 64)

/-- ISO frames whose deadline has passed are freed (R198), sent or not. -/
def State.dropIso (s : State) (x : Seat) : State :=
  let u := s.tun x .iso
  let now := s.ut (s.servingCore x)
  let late (f : TxFrame) : Bool := match f.deadline with
    | some d => decide (d ≤ now)
    | none => false
  let gone := u.held.filter late ++ u.queue.filter late
  let keep := u.held.filter fun f => !late f
  let s := s.setTun x .iso { u with
    held := keep, queue := u.queue.filter (fun f => !late f),
    resend := u.resend.filter fun q => keep.any fun f => f.seq == q,
    free := match keep with
      | f :: _ => f.seq
      | [] => u.next }
  gone.foldl (fun s f => s.freeTx x f false) s

end Sys2Proof.Machine
end

