-- ==== Sys2Proof/Machine/Shares.lean ====
section
/-! DEFINITION. The heads of a seat output's queues and their tags under weighted fair queuing (10 R272, R273), and how a
block hands a frame to a seat's tunnel (09 R261). -/

namespace Sys2Proof.Machine

/-! ### Virtual time (R273) -/

/-- Tags are 48-bit numbers, compared modulo 2^48. -/
def tagAdd (a b : Nat) : Nat := (a + b) % 2 ^ 48
def tagLt (a b : Nat) : Bool :=
  let d := (b + 2 ^ 48 - a % 2 ^ 48) % 2 ^ 48
  decide (0 < d ∧ d < 2 ^ 47)
def tagMax (a b : Nat) : Nat := if tagLt a b then b else a

/-- The cost of a frame (R273). -/
def frameCost (len overhead weight : Nat) : Nat := cdiv ((len + overhead) * 4096) (max 1 weight)

/-- A head is tagged when it becomes the head of its queue. -/
def WfqQ.tag (q : WfqQ) (v cost id : Nat) : WfqQ :=
  if q.tagged = some id then q
  else
    let a := tagMax v q.lastF
    { q with start := a, finish := tagAdd a cost, tagged := some id }

/-- At an entry start a head behind V is tagged again. -/
def WfqQ.again (q : WfqQ) (v cost : Nat) : WfqQ :=
  if q.tagged.isSome && tagLt q.start v then { q with start := v, finish := tagAdd v cost } else q

/-- The queue sent its head. -/
def WfqQ.sent (q : WfqQ) : WfqQ := { q with tagged := none, lastF := q.finish }

/-! ### Heads (R272) -/

/-- A frame that a tunnel could send next: a resend by its number, or a new frame with what stays behind. -/
structure Cand where
  tn : Tunnel
  resend : Option (Half × List Half)
  f : TxFrame
  rest : List TxFrame
  deriving DecidableEq, Repr

/-- The strait frame's length. -/
def Cand.len (x : Cand) : Nat := x.f.bytes.length + 20
/-- What the tags of a head name: the number of a resend, or the frame that the fabric admitted. -/
def Cand.id (x : Cand) : Nat :=
  match x.resend with
  | some (q, _) => q.toNat + 2
  | none => x.f.frame + 65538

/-- The oldest resend of a tunnel (R196). -/
def TunSt.resendHead (u : TunSt) (t : Tunnel) : Option Cand :=
  match u.resend with
  | [] => none
  | q :: r => (u.held.find? fun f => f.seq == q).map fun f => { tn := t, resend := some (q, r), f := f, rest := u.queue }

/-- The sender's window is open (R193); ISO has none (R198). -/
def TunSt.windowOpen (u : TunSt) (t : Tunnel) : Bool := !t.reliable || decide (sub16 u.next u.free < 64)

/-- The oldest new frame of a tunnel that meets a test; it is a head whether or not the window is open. -/
def TunSt.newHead (u : TunSt) (t : Tunnel) (p : TxFrame → Bool) : Option Cand :=
  (u.queue.find? p).map fun f => { tn := t, resend := none, f := f, rest := u.queue.erase f }

def TunSt.headOf (u : TunSt) (t : Tunnel) : Option Cand :=
  match u.resendHead t with
  | some x => some x
  | none => u.newHead t fun _ => true

/-- Weights (`TUNNEL_WEIGHTS_s`). -/
def SeatTraf.weight (t : SeatTraf) (k : Tunnel) : Nat :=
  let w := t.weights.toNat
  max 1 (match k with
    | .usb => bits w 7 0
    | .iso => bits w 15 8
    | .disp => bits w 23 16
    | .net => bits w 31 24
    | _ => 1)

def State.subWeight (s : State) (x : Seat) (l : Fin 2) : Nat :=
  let w := (s.seatTraf x).weights.toNat
  max 1 (if (s.view (unitHead x l)).source.isSome then bits w 47 40 else bits w 39 32)

/-- Tag the sub-queues of DISP under V_D, and give the sub-queue whose head goes first (R273). -/
def State.dispHead (s : State) (x : Seat) : State × Option Cand :=
  let u := s.tun x .disp
  let ov := s.overheadOf x
  let w := s.wfq x
  match u.resendHead .disp with
  | some c =>
    let l := toFin 1 c.f.local_
    let cost := frameCost c.len ov (s.subWeight x l)
    (s.setWfq x (if l = 0 then { w with disp0 := w.disp0.tag w.vd cost c.id } else { w with disp1 := w.disp1.tag w.vd cost c.id }), some c)
  | none =>
    let h0 := u.newHead .disp fun f => f.local_ == 0
    let h1 := u.newHead .disp fun f => f.local_ != 0
    let t (q : WfqQ) (h : Option Cand) (l : Fin 2) : WfqQ :=
      match h with
      | some c => q.tag w.vd (frameCost c.len ov (s.subWeight x l)) c.id
      | none => q
    let q0 := t w.disp0 h0 0
    let q1 := t w.disp1 h1 1
    let pick := match h0, h1 with
      | some a, some b => if tagLt q1.finish q0.finish then some b else some a
      | some a, none => some a
      | none, b => b
    (s.setWfq x { w with disp0 := q0, disp1 := q1 }, pick)

/-- Tag the heads of the four queues under V (R273), and give them in the order of tunnel codes. -/
def State.tagHeads (s : State) (x : Seat) : State × List Cand :=
  let (s, d) := s.dispHead x
  let t := s.seatTraf x
  let ov := s.overheadOf x
  let u := (s.tun x .usb).headOf .usb
  let i := (s.tun x .iso).headOf .iso
  let n := (s.tun x .net).headOf .net
  let w := s.wfq x
  let f (q : WfqQ) (h : Option Cand) : WfqQ :=
    match h with
    | some c => q.tag w.v (frameCost c.len ov (t.weight c.tn)) c.id
    | none => q
  (s.setWfq x { w with usb := f w.usb u, iso := f w.iso i, disp := f w.disp d, net := f w.net n },
    u.toList ++ i.toList ++ d.toList ++ n.toList)

/-! ### The schedule's time (R267, R268) -/

/-- A schedule and a calibration change that have come into force by `now` (R267, R268). -/
def SeatTraf.settle (t : SeatTraf) (now : Nat) : SeatTraf :=
  let t := match t.nextSchedule with
    | some (u, l, o) => if u ≤ now then { t with applied := l, appliedOverhead := o, nextSchedule := none, fallback := false } else t
    | none => t
  let due := t.calNext.filter fun c => decide (c.1 * frameNs ≤ now)
  match due.reverse with
  | c :: _ => { t with calNow := c.2, calNext := t.calNext.filter fun c => decide (now < c.1 * frameNs) }
  | [] => t

/-- Bring the seat's schedule up to the present time; heads keep the tags that the schedule before gave them (R273). -/
def State.settleGate (s : State) (x : Seat) : State :=
  let s := (s.tagHeads x).1
  s.setSeatTraf x ((s.seatTraf x).settle (s.ut (s.servingCore x)))

def SeatWfq.q (w : SeatWfq) : Tunnel → WfqQ
  | .usb => w.usb
  | .iso => w.iso
  | .disp => w.disp
  | .net => w.net
  | _ => WfqQ.init

/-- The port started a frame: V becomes its finish tag (R273). -/
def SeatWfq.started (w : SeatWfq) (c : Cand) : SeatWfq :=
  let w := { w with v := if c.tn = .ctrl ∨ c.tn = .sync then w.v else (w.q c.tn).finish }
  match c.tn with
  | .usb => { w with usb := w.usb.sent }
  | .iso => { w with iso := w.iso.sent }
  | .net => { w with net := w.net.sent }
  | .disp =>
    if c.f.local_ = 0 then { w with disp := w.disp.sent, vd := w.disp0.finish, disp0 := w.disp0.sent }
    else { w with disp := w.disp.sent, vd := w.disp1.finish, disp1 := w.disp1.sent }
  | _ => w

/-! ### Queueing a frame (09 R261) -/

/-- A hand-over with a payload, an account and an input. -/
def Hand.plain (b : List Byte) (acct input : Nat) : Hand :=
  { bytes := b, acct := acct, input := input, handle := none, deadline := none, local_ := 0, ends := false }

/-- The frame of a hand-over that the fabric stored under a number. -/
def Hand.frame (h : Hand) (number : Nat) : TxFrame :=
  { seq := 0, bytes := h.bytes, acct := h.acct, frame := number, handle := h.handle, deadline := h.deadline,
    yellow := false, local_ := h.local_, ends := h.ends }

/-- A stored frame stands in the output queue of a seat's tunnel; one that is its queue's head is tagged (10 R273). -/
def State.enterTun (s : State) (x : Seat) (t : Tunnel) (f : TxFrame) : State :=
  let s := s.settleGate x
  let u := s.tun x t
  ((s.setTun x t { u with queue := u.queue ++ [f] }).tagHeads x).1

/-- A block offers a frame to the fabric; false: it was refused and the block keeps it (09 R259, R261). -/
def State.putFrame (s : State) (c : CoreId) (k : KeptFrame) : Bool × State :=
  match k.group with
  | none =>
    k.seats.foldl (fun (a : Bool × State) x =>
      let (n, s) := a.2.allowIn c k.hand.input x.val (toFin 7 k.tn.cls) k.hand.acct k.hand.bytes
      match n with
      | some n => (a.1, s.enterTun x k.tn (k.hand.frame n))
      | none => (false, s)) (true, s)
  | some g =>
    let (r, s) := s.offerGroup c g k.seats (toFin 7 k.tn.cls) k.hand
    match r with
    | .taken n outs => (true, (k.seats.filter fun x => outs.contains x.val).foldl (fun s x => s.enterTun x k.tn (k.hand.frame n)) s)
    | .dropped => (true, s)
    | .refused => (false, s)

/-- A block hands a frame to the fabric: behind the frames of that input that are still kept, else at once; one that is
refused is kept and offered again (09 R261). -/
def State.handIn (s : State) (c : CoreId) (k : KeptFrame) : State :=
  let keep (s : State) : State := s.setFabCore c { s.fabCore c with kept := (s.fabCore c).kept ++ [k] }
  if (s.fabCore c).kept.any fun e => e.hand.input == k.hand.input then keep s
  else
    let (ok, s) := s.putFrame c k
    if ok then s else keep s

/-- The kept frames of a core are offered again, in order at each input (09 R261). -/
def State.offerKept (s : State) (c : CoreId) : State :=
  let k := (s.fabCore c).kept
  let s := s.setFabCore c { s.fabCore c with kept := [] }
  k.foldl (fun s f => s.handIn c f) s

/-- A block hands a frame to a seat's tunnel. -/
def State.queueFrame (s : State) (x : Seat) (t : Tunnel) (h : Hand) : State :=
  s.handIn (s.servingCore x) { seats := [x], tn := t, group := none, hand := h }

/-- What blocks keep for a seat's tunnel. -/
def State.keptFor (s : State) (x : Seat) (t : Tunnel) : List Hand :=
  (bothCores.map fun c => ((s.fabCore c).kept.filter fun k => k.tn == t && k.seats.contains x).map (·.hand)).flatten

/-- The frames that blocks keep for a seat's tunnel go nowhere. -/
def State.dropKept (s : State) (x : Seat) (t : Tunnel) : State :=
  bothCores.foldl (fun s c =>
    let k := s.fabCore c
    if k.kept.any (fun e => e.tn == t && e.seats.contains x) then
      s.setFabCore c { k with
        kept := (k.kept.map fun e => if e.tn = t then { e with seats := e.seats.filter (· != x) } else e).filter fun e =>
          !e.seats.isEmpty || e.group.isSome }
    else s) s

/-- A CTRL or SYNC message: a 4-byte header and its body (R199). -/
def ctrlMsg (code : Nat) (body : List Byte) : List Byte :=
  leBytes 1 code ++ leBytes 1 0 ++ leBytes 2 body.length ++ body

/-- A USB or ISO message: a 16-byte header and its body (06 R164). -/
def usbMsg (code p0 p1 : Nat) (body : List Byte) : List Byte :=
  leBytes 1 code ++ leBytes 1 0 ++ leBytes 2 body.length ++ leBytes 4 p0 ++ leBytes 4 p1 ++ leBytes 4 0 ++ body

/-- CTRL and SYNC messages are the supervisor's: they enter at its port with class 7 (09 R246, R248; log entry 104). -/
def State.sendCtrl (s : State) (x : Seat) (code : Nat) (body : List Byte) : State :=
  s.queueFrame x .ctrl (Hand.plain (ctrlMsg code body) 0 152)

def State.sendSync (s : State) (x : Seat) (code : Nat) (body : List Byte) : State :=
  s.queueFrame x .sync (Hand.plain (ctrlMsg code body) 0 152)

end Sys2Proof.Machine
end

