-- ==== Sys2Proof/Machine/Usb.lean ====
section
/-! DEFINITION. USB endpoints, transfers and scripts (06 R149 to R172, R410, R411): the operations. -/

namespace Sys2Proof.Machine

/-! ### Costs and admission (R152, R153, R157, R158) -/

/-- ⌈28N/3⌉, the worst-case bit times of N payload bytes (R153). -/
def stuffed (n : Nat) : Nat := cdiv (28 * n) 3

/-- Transfer type of an endpoint: 0 control, 1 isochronous, 2 bulk, 3 interrupt (R156 `MODE`). -/
def EpSt.type (e : EpSt) : Nat := e.mode.toNat % 4
def EpSt.interval (e : EpSt) : Nat := bits e.mode.toNat 7 4
def EpSt.periodic (e : EpSt) : Bool := e.type == 1 || e.type == 3
def EpSt.packetSize (e : EpSt) : Nat := bits e.maxPacket.toNat 10 0
/-- Transactions per micro-frame. -/
def EpSt.mult (e : EpSt) : Nat := bits e.maxPacket.toNat 12 11 + 1
def EpSt.viaTt (e : EpSt) : Bool := (e.speed == 1 || e.speed == 2) && bits e.ttHub.toNat 6 0 != 0

/-- Bytes per service opportunity (R162). -/
def EpSt.perService (e : EpSt) : Nat :=
  if e.speed = 4 then e.packetSize * (e.burst + 1) else e.packetSize * e.mult

/-- The full- or low-speed worst-case cost of one transaction (R153). -/
def fsCost (speed n : Nat) : Nat := if speed = 1 then 8 * (stuffed n + 104) else stuffed n + 104

/-- The worst-case cost of one service opportunity on its engine (R153). -/
def EpSt.worst (e : EpSt) : Nat :=
  let n := e.packetSize
  if e.speed = 4 then (n + 32) * (e.burst + 1)
  else if e.speed = 3 then (stuffed n + 440) * e.mult
  else fsCost e.speed n

/-- The period: 2^INTERVAL, at least 8 on the full/low-speed engine and behind a TT (R157). -/
def EpSt.period (e : EpSt) : Nat :=
  let p := 2 ^ e.interval
  if e.speed = 1 ∨ e.speed = 2 then max 8 p else p

/-- The start and complete splits of a TT endpoint at a frame of its phase: offset in micro-frames and
bytes carried, after section 11.18 of USB 2.0 (PRESUMED, log entry 14). -/
def EpSt.splits (e : EpSt) : List (Nat × Nat) :=
  let n := e.packetSize
  if e.type = 1 ∧ !e.dirIn then (List.range (max 1 (cdiv n 188))).map fun k => (k, min 188 (n - 188 * k))
  else if e.type = 1 then (0, 0) :: ((List.range (cdiv n 188 + 1)).map fun k => (k + 2, min 188 n))
  else if e.dirIn then [(0, 0), (2, n), (3, n), (4, n)]
  else [(0, n), (2, 0), (3, 0), (4, 0)]

/-- Positions of the 256-entry period table at a phase (R157). -/
def EpSt.positions (e : EpSt) (phase : Nat) : List Nat :=
  (List.range (256 / e.period)).map fun k => phase + k * e.period

/-- The micro-frame of the service opportunity that a record in the script of micro-frame `n` belongs to: a split's
records reach past it. -/
def EpSt.serviceOf (e : EpSt) (n : Nat) : Nat :=
  let p := e.period
  if e.viaTt then n - (n + p - e.phase % p) % p else n

/-- Charges of a periodic endpoint at a phase: position, high-speed, full/low-speed and Gen 1 (R157, R158). -/
def EpSt.charges (e : EpSt) (phase : Nat) : List (Nat × Nat × Nat × Nat) :=
  if e.viaTt then
    ((e.positions phase).map fun x => e.splits.map fun (o, n) => ((x + o) % 256, stuffed n + 472, 0, 0)).flatten
  else (e.positions phase).map fun x =>
    if e.speed = 4 then (x, 0, 0, e.worst) else if e.speed = 3 then (x, e.worst, 0, 0) else (x, 0, e.worst, 0)

/-- Frame positions of a TT account that a TT endpoint charges (R158). -/
def EpSt.ttFrames (e : EpSt) (phase : Nat) : List Nat := (e.positions phase).map fun x => x / 8 % 32

/-- The address of a seat's period table entry in the ISW (R171). -/
def periodAddr (x : Seat) (pos : Nat) : Nat := 0x10000 + 2048 * x.val + 8 * pos

def readNat (m : Memory) (a n : Nat) : Nat := leNat (readBytes m a n)
def writeNat (m : Memory) (a n v : Nat) : Memory := writeBytes m a (leBytes n v)

/-- Key of a TT account: core, seat, hub, and port where the hub has one TT per port (R158). -/
def EpSt.ttKey (e : EpSt) (c : CoreId) : Nat :=
  ((c.num * 64 + e.seat.val) * 128 + bits e.ttHub.toNat 6 0) * 128 +
    (if e.ttHub.getLsbD 7 then bits e.ttPort.toNat 6 0 else 0)

/-- The limits of R152 at one position of the period table. -/
def State.positionFits (s : State) (c : CoreId) (e : EpSt) (q : Nat × Nat × Nat × Nat) : Bool :=
  let m := s.isw c e.islet
  let a := periodAddr e.seat q.1
  let gen1 := match (s.usbSeat e.seat).profile with
    | some p => p.gen1Bytes
    | none => 0
  decide (readNat m a 2 + q.2.1 ≤ 48000) && decide (readNat m (a + 2) 2 + q.2.2.1 ≤ 10530) &&
    (q.2.2.2 == 0 || decide (5 * (readNat m (a + 4) 4 + q.2.2.2) ≤ 4 * gen1))

def ttWord (w : List Nat) (f : Nat) : Nat := (w[f]?).getD 0

/-- Accounts that a seat holds on a core (R158). -/
def State.ttAccounts (s : State) (c : CoreId) (x : Seat) : Nat :=
  (s.usb.tts.filter fun e => e.1 / 16384 == c.num * 64 + x.val).length

/-- The charges of one position together: splits of neighbouring frames can share one (R157). -/
def chargesAt (l : List (Nat × Nat × Nat × Nat)) (x : Nat) : Nat × Nat × Nat × Nat :=
  let m := l.filter fun q => q.1 == x
  (x, (m.map (·.2.1)).sum, (m.map (·.2.2.1)).sum, (m.map (·.2.2.2)).sum)

/-- Whether a periodic endpoint fits at a phase (R157, R158). -/
def State.phaseFits (s : State) (c : CoreId) (e : EpSt) (phase : Nat) : Bool :=
  let l := e.charges phase
  (l.all fun q => s.positionFits c e (chargesAt l q.1)) &&
  (!e.viaTt ||
    let w := tget s.usb.tts (e.ttKey c) []
    (decide (w ≠ []) || decide (s.ttAccounts c e.seat < 256)) &&
      (e.ttFrames phase).all fun f => decide (ttWord w f + e.worst ≤ 10530))

/-- The phases tried, in turn (R157). -/
def EpSt.phases (e : EpSt) : List Nat :=
  if e.speed = 1 ∨ e.speed = 2 then (List.range (e.period / 8)).map (8 * ·) else List.range e.period

/-- Add or take back an endpoint's charges (R157, R158). -/
def State.applyCharges (s : State) (c : CoreId) (e : EpSt) (add : Bool) : State :=
  let upd (a n : Nat) : Nat := if add then a + n else a - n
  let s := s.iswPut c e.islet fun m => (e.charges e.phase).foldl (fun m q =>
    let a := periodAddr e.seat q.1
    let m := writeNat m a 2 (upd (readNat m a 2) q.2.1)
    let m := writeNat m (a + 2) 2 (upd (readNat m (a + 2) 2) q.2.2.1)
    writeNat m (a + 4) 4 (upd (readNat m (a + 4) 4) q.2.2.2)) m
  if e.viaTt then
    let put (s : State) (c : CoreId) : State :=
      let w := tget s.usb.tts (e.ttKey c) []
      let w := if w.isEmpty then List.replicate 32 0 else w
      let w := (e.ttFrames e.phase).foldl (fun w f => w.set f (upd (ttWord w f) e.worst)) w
      s.setUsb { s.usb with tts := tset s.usb.tts (e.ttKey c) (if w.all (· == 0) then [] else w) [] }
    if s.protects e.islet then put (put s c) c.twin else put s c
  else s

/-! ### Endpoint contexts (R157, R171) -/

/-- The context of an islet for a seat, address, endpoint and direction (R157). -/
def State.findEp (s : State) (i : IsletNo) (x : Seat) (addr ep : Nat) (dirIn : Bool) : Option Nat :=
  (s.usb.eps.find? fun e =>
    e.2.state != 0 && e.2.islet == i && e.2.seat == x && e.2.addr == addr && e.2.ep == ep &&
      (e.2.dirIn == dirIn || e.2.type == 0)).map (·.1)

/-- Contexts an islet has open on a core (R157). -/
def State.openContexts (s : State) (i : IsletNo) (c : CoreId) : Nat :=
  (s.usb.eps.filter fun e => e.2.islet == i && s.servingCore e.2.seat == c).length

/-- The context index of a new endpoint: the lowest that no context of the islet has, else the lowest free on the
serving core (R157; log entry 95). -/
def State.freeContext (s : State) (i : IsletNo) (c : CoreId) : Option Nat :=
  let mine := s.usb.eps.filter fun e => e.2.islet == i
  let here := mine.filter fun e => s.servingCore e.2.seat == c
  let free (l : Tab EpSt) (n : Nat) : Bool := l.all fun e => e.1 % 4096 != n
  match (List.range (min 4096 (mine.length + 1))).find? (free mine) with
  | some n => some n
  | none => (List.range 4096).find? (free here)

/-- The context of a seat with an index. -/
def State.ctxOf (s : State) (i : IsletNo) (x : Seat) (n : Nat) : Nat :=
  ((s.usb.eps.find? fun e => e.2.islet == i && e.2.seat == x && e.1 % 4096 == n).map (·.1)).getD (epKey i (s.servingCore x) n)

/-- The context's list in the seat's async list (R171): bulk and control contexts. -/
def State.asyncList (s : State) (c : CoreId) (i : IsletNo) (x : Seat) : List Nat :=
  let m := s.isw c i
  let a := 0x30000 + 1024 * x.val
  (List.range (readNat m a 2)).map fun k => readNat m (a + 8 + 2 * k) 2

/-- The list holds 508 contexts at most (R171; further ones wait for a place, log entry 96). -/
def State.putAsync (s : State) (c : CoreId) (i : IsletNo) (x : Seat) (l : List Nat) : State :=
  let a := 0x30000 + 1024 * x.val
  let l := l.take 508
  s.iswPut c i fun m => writeBytes (writeNat m a 2 l.length) (a + 8)
    ((l.map fun v => leBytes 2 v).flatten ++ leBytes (if l.length < 508 then 2 else 0) 0)

/-- A context leaves the seat's async list; the first that waits for a place takes it. -/
def State.leaveAsync (s : State) (c : CoreId) (i : IsletNo) (x : Seat) (n : Nat) : State :=
  let l := (s.asyncList c i x).filter (· != n)
  let rest := ((s.usb.eps.filter fun e => e.2.islet == i && e.2.seat == x && !e.2.periodic).map (·.1 % 4096)).filter
    fun k => k != n && !l.contains k
  s.putAsync c i x (l ++ rest)

/-! ### Ending transfers (R159, R163, R411) -/

/-- Fields of a 16-byte transaction record (R166). -/
def recKind (r : List Byte) : Nat := fld r 0 1
def recAddr (r : List Byte) : Nat := fld r 1 1 % 128
def recEp (r : List Byte) : Nat := fld r 2 1 % 16
def recIn (r : List Byte) : Bool := bit (fld r 2 1) 7
def recPort (r : List Byte) : Nat := fld r 3 1 % 16

/-- A record of 16 bytes for a `FLUSH` (R166). -/
def EpSt.flushRecord (e : EpSt) : List Byte :=
  leBytes 1 0x0B ++ leBytes 1 e.addr ++ leBytes 1 (e.ep + at_ e.type 4 + at_ (b2n e.dirIn) 7) ++
  leBytes 1 (e.rootPort.val + 1 + at_ e.speed 4 + at_ (b2n e.viaTt) 7) ++ leBytes 12 0

/-- Place a `FLUSH` record in the next script sealed for the seat; the stream's offset starts at 0 (R159,
R165). -/
def State.flushEp (s : State) (k : Nat) : State :=
  let e := s.ep k
  let u := s.usbSeat e.seat
  (s.setUsbSeat e.seat { u with flushes := u.flushes ++ [e.flushRecord] }).setEp k { e with outOff := 0 }

/-- A `FLUSH` of the endpoint's key waits to be placed, or its result is not known: no data goes to the stream, whose
offset the dock has still to set to 0 (R165, log entry 86). -/
def UsbSeat.flushing (u : UsbSeat) (e : EpSt) : Bool :=
  let hit (r : List Byte) : Bool := recKind r == 0x0B && recAddr r == e.addr && recEp r == e.ep && recPort r == e.rootPort.val + 1
  u.flushes.any hit || (u.scripts.any fun sc => sc.recs.any fun r => !r.2 && hit r.1) || u.hubOps.any fun o =>
    match o with
    | .flush _ r => hit r
    | _ => false

/-- The key of an OUT stream: address, endpoint, root port (R164, R165). -/
def streamKey (addr ep port : Nat) : Nat := addr + at_ ep 8 + at_ port 12
def EpSt.streamParam (e : EpSt) : Nat := streamKey e.addr e.ep (e.rootPort.val + 1)

/-- Bytes in the dock's stream that their transfer no longer counts stay there until a `FLUSH` has run (R165). -/
def State.leaveStale (s : State) (e : EpSt) (n : Nat) : State :=
  let u := s.usbSeat e.seat
  if e.type = 1 ∨ n = 0 then s
  else s.setUsbSeat e.seat { u with stale := tset u.stale e.streamParam (tget u.stale e.streamParam 0 + n) 0 }

def State.xfer (s : State) (h : Nat) : XferSt := tget s.usb.xfers h XferSt.init
def State.setXfer (s : State) (h : Nat) (v : XferSt) : State :=
  s.setUsb { s.usb with xfers := tset s.usb.xfers h v XferSt.init }

/-- The values of a packet that count as an error or as not executed (R162). -/
def IsoPkt.bad (p : IsoPkt) : Bool := p.value == some 0xFFFF || p.value == some 0xFFFE
def IsoPkt.actual (p : IsoPkt) : Nat := if p.bad then 0 else ((p.value.getD 0).toNat)

/-- `COUNT` and `DETAIL` of a transfer (R163). -/
def XferSt.outcome (v : XferSt) (type : Nat) : Nat × Nat :=
  if type = 0 then (v.moved, v.stage)
  else if type = 1 then
    ((v.pkts.map IsoPkt.actual).sum,
      (v.pkts.filter IsoPkt.bad).length +
        at_ (if v.dirIn then (v.pkts.filter fun p => !p.bad && decide (p.actual < p.len)).length else 0) 16)
  else (v.moved, v.lastDock.toNat)

/-- Pieces of host memory that `n` bytes from offset `off` of a buffer cover. -/
def pieces : List (Nat × Nat) → Nat → Nat → List (Nat × Nat)
  | [], _, _ => []
  | (a, len) :: r, off, n =>
    if n = 0 then []
    else if len ≤ off then pieces r (off - len) n
    else
      let k := min (len - off) n
      (a + off, k) :: pieces r 0 (n - k)

/-- Write a transfer's data into its host buffer; false where a write failed (02 R30). -/
def State.writePieces (s : State) (h : Nat) (e : EntrySt) (b : List Byte) :
    List (Nat × Nat) → Bool × State
  | [] => (true, s)
  | (a, k) :: r =>
    let (ok, s) := s.writeEntry h e a (b.take k)
    let (ok', s) := s.writePieces h e (b.drop k) r
    (ok && ok', s)

/-- The packets of an IN entry have their values written behind the data (R162). -/
def State.writeIsoValues (s : State) (h : Nat) (v : XferSt) : Bool × State :=
  match s.entry? h with
  | none => (true, s)
  | some e =>
    let t := (v.pkts.map (·.len)).sum
    let b := (v.pkts.map fun p => leBytes 2 (p.value.getD 0xFFFF).toNat).flatten
    match v.segs with
    | (a, _) :: _ => s.writeEntry h e (a + t) b
    | [] => (true, s)

/-- The start of an isochronous entry's first micro-frame, for its latency (14 R369). -/
def XferSt.latencyFrom (v : XferSt) (e : EntrySt) : Nat :=
  match v.pkts with
  | p :: _ => p.n * microFrame
  | [] => e.takenUt

/-- Packets that no result has decided when the entry completes: lost when a record of theirs reached the dock, not
executed when none did (R162, R410). -/
def XferSt.decided (v : XferSt) : XferSt :=
  { v with pkts := v.pkts.map fun p => if p.value.isNone then { p with value := some (if p.sent then 0xFFFF else 0xFFFE) } else p }

/-- A `FLUSH` for the endpoint's stream: what its transfers have sent and no result confirms is sent again (R410). -/
def State.resetStream (s : State) (k : Nat) : State :=
  let s := s.flushEp k
  (s.ep k).queue.foldl (fun s h =>
    let v := s.xfer h
    (s.leaveStale (s.ep k) (v.outSent - v.outDone)).setXfer h { v with outSent := v.outDone }) s

/-- A transfer that ended early has left bytes in the dock's stream, and no `FLUSH` is on its way (log entry 86). -/
def State.leavesBytes (s : State) (e : EpSt) (v : XferSt) : Bool :=
  e.type != 1 && e.state != 3 && decide (v.outDone < v.outSent) && !(s.usbSeat e.seat).flushing e

/-- A transfer's record is made: its cause, or `HOST_ACCESS` after a failed host write (R163, R411). -/
def State.finishXfer (s : State) (h : Nat) (status : Byte) : State :=
  let v := (s.xfer h).decided
  let k := v.ep
  let e := s.ep k
  let (ok, s) := if e.type = 1 && v.dirIn then s.writeIsoValues h v else (true, s)
  let st := if v.hostFail || !ok then 0x01 else status.toNat
  let (n, d) := v.outcome e.type
  let s := match s.entry? h with
    | some x => s.finishFrom h st n d (v.latencyFrom x)
    | none => s
  let s := s.setUsb { s.usb with xfers := terase s.usb.xfers h }
  let s := s.setEp k { s.ep k with queue := (s.ep k).queue.filter (· != h), sentBytes := 0 }
  let left := v.outSent - v.outDone
  if s.leavesBytes e v then (s.leaveStale e left).resetStream k
  else if (s.usbSeat e.seat).flushing e then s.leaveStale e left
  else s

/-- A closing endpoint with no transfer left is freed, and the entries that waited for it complete (R159). -/
def State.settleEp (s : State) (k : Nat) : State :=
  let e := s.ep k
  let waits := e.queue.any fun h => (s.xfer h).ending.isSome
  if e.state = 3 then
    if e.queue.isEmpty then
      let c := s.servingCore e.seat
      let s := if e.periodic then s.applyCharges c e false else
        s.leaveAsync c e.islet e.seat (k % 4096)
      let s := s.setEp k EpSt.init
      e.closers.foldl (fun s h => s.finish h 0x00 0 0) s
    else s
  else if e.closers.isEmpty || waits then s
  else
    let s := s.setEp k { e with closers := [] }
    e.closers.foldl (fun s h => s.finish h 0x00 0 0) s

/-- Results are still to come: of a record, or of an isochronous packet that a record carried (R162, R163). -/
def XferSt.waits (v : XferSt) : Bool :=
  if v.pkts.isEmpty then v.outstanding != 0 else v.pkts.any fun p => p.sent && p.value.isNone

/-- A transfer ends with a cause: at once, or after the results of its records at the dock (R159, R163). -/
def State.endXfer (s : State) (h : Nat) (status : Byte) : State :=
  let v := s.xfer h
  if v.ending.isSome then s
  else if !v.waits then (s.finishXfer h status).settleEp v.ep
  else s.setXfer h { v with ending := some status }

/-- Every posted transfer of an endpoint ends with a cause. -/
def State.endAll (s : State) (k : Nat) (status : Byte) : State :=
  (s.ep k).queue.foldl (fun s h => s.endXfer h status) s

/-- An endpoint closes: no further records, its transfers end, its context is freed after them (R159). -/
def State.closeEp (s : State) (k : Nat) (status : Byte) (flush : Bool) (closer : Option Nat) : State :=
  let e := s.ep k
  if e.state = 0 then s
  else
    let s := s.setEp k { e with state := 3, closers := e.closers ++ closer.toList }
    let s := if flush then s.flushEp k else s
    (s.endAll k status).settleEp k

/-- The contexts of a seat that meet a test. -/
def State.epsOf (s : State) (x : Seat) (p : EpSt → Bool) : List Nat :=
  (s.usb.eps.filter fun e => e.2.seat == x && p e.2).map (·.1)

/-- Close every endpoint behind a root port (R173). -/
def State.closeBehind (s : State) (x : Seat) (p : RootPort) (status : Byte) : State :=
  (s.epsOf x fun e => e.rootPort == p).foldl (fun s k => s.closeEp k status true none) s

/-- At a flush the transfers end at once, records at the dock or not (R210). -/
def State.closeAtOnce (s : State) (x : Seat) (status : Byte) : State :=
  (s.epsOf x fun _ => true).foldl (fun s k =>
    let e := s.ep k
    let s := s.setEp k { e with state := 3 }
    let s := e.queue.foldl (fun s h =>
      let v := s.xfer h
      s.finishXfer h ((v.ending).getD status)) s
    (s.setEp k { s.ep k with state := 3 }).settleEp k) s

/-! ### OUT streams (R164, R165) -/

/-- OUT bytes of a transfer sent and not consumed: of an isochronous one, those of packets not decided. -/
def XferSt.unconfirmed (v : XferSt) : Nat :=
  if v.pkts.isEmpty then v.outSent - v.outDone
  else if v.dirIn then 0 else ((v.pkts.filter fun p => p.sent && p.value.isNone).map (·.len)).sum

/-- OUT bytes of a seat sent and not consumed, those that wait for a `FLUSH` to run among them (R165). -/
def State.seatUnconfirmed (s : State) (x : Seat) : Nat :=
  (s.usb.xfers.map fun v => if (s.ep v.2.ep).seat == x then v.2.unconfirmed else 0).sum + ((s.usbSeat x).stale.map (·.2)).sum

/-- Room in the dock's OUT buffer: `OUT_BUFFER_KIB` × 1,024 less what is not consumed (R165). -/
def State.outRoom (s : State) (x : Seat) : Nat :=
  match (s.usbSeat x).profile with
  | some p => p.outKib * 1024 - s.seatUnconfirmed x
  | none => 0

/-- The input port of a seat's USB frames: the TE cluster that serves the seat (09 R246). -/
def State.usbInput (s : State) (x : Seat) : Nat := 140 + 2 * ((s.dispatch (s.servingCore x)).seatHome x).val

/-- Send one chunk of a transfer's OUT stream where the dock's buffer has room. -/
def State.sendOutChunk (s : State) (h : Nat) : Option State :=
  let v := s.xfer h
  let e := s.ep v.ep
  let n := min (v.outData.length - v.outSent) 9180
  if n = 0 ∨ s.outRoom e.seat < n ∨ (s.usbSeat e.seat).flushing e then none
  else
    let b := (v.outData.drop v.outSent).take n
    let s := s.queueFrame e.seat .usb
      (Hand.plain (usbMsg 0x02 e.streamParam e.outOff b) e.islet.val (s.usbInput e.seat))
    let s := s.setEp v.ep { e with outOff := e.outOff + n }
    some ((s.setXfer h { v with outSent := v.outSent + n }).hand h)

def State.sendOutUpTo : Nat → State → Nat → State
  | 0, s, _ => s
  | n + 1, s, h =>
    match s.sendOutChunk h with
    | some s => State.sendOutUpTo n s h
    | none => s

/-- The OUT bytes of an endpoint go to the dock in the order of its transfers. -/
def pumpList : List Nat → State → State
  | [], s => s
  | h :: r, s =>
    let s := State.sendOutUpTo ((s.xfer h).outData.length / 9180 + 1) s h
    let v := s.xfer h
    if v.outSent = v.outLen then pumpList r s else s

def State.pumpOut (s : State) (k : Nat) : State :=
  let e := s.ep k
  if e.type = 1 ∨ e.state ≠ 1 then s else pumpList e.queue s

/-- The streams of a seat go on where there is room, or their `FLUSH` has run (R165). -/
def State.pumpSeat (s : State) (x : Seat) : State := (s.epsOf x fun e => e.type != 1).foldl State.pumpOut s

/-- The data of an isochronous OUT packet goes to the dock in the ISO tunnel, with its record's script, within the seat's
OUT buffer (R164, R165, 07 R198). -/
def State.sendIso (s : State) (h m : Nat) : State :=
  let v := s.xfer h
  let e := s.ep v.ep
  match v.pkts.find? (fun p => p.n == m) with
  | none => s
  | some p =>
    if p.sent ∨ s.outRoom e.seat < p.len then s
    else
      let off := ((v.pkts.takeWhile fun q => q.n != m).map (·.len)).sum
      s.queueFrame e.seat .iso
        { bytes := usbMsg 0x02 e.streamParam m ((v.outData.drop off).take p.len), acct := e.islet.val,
          input := s.usbInput e.seat, handle := none, deadline := some (m * microFrame), local_ := 0, ends := false }

/-- Data of an outstanding OUT read has come: the stream goes on (02 R30). -/
def State.outArrived (s : State) (h : Nat) (b : List Byte) : State :=
  match s.entry? h with
  | none => s
  | some _ =>
    let v := s.xfer h
    (s.setXfer h { v with outData := v.outData ++ b }).pumpOut v.ep

/-! ### Scripts (R164, R166) -/

/-- `ZLP_END` of an OUT entry (R161) asks for a zero-length packet behind its bytes. -/
def State.zlpAsked (s : State) (h : Nat) (e : EpSt) (v : XferSt) : Bool :=
  match s.entry? h with
  | some x => !v.dirIn && bit (fld x.bytes 11 1) 0 && v.len != 0 && v.len % max 1 e.packetSize == 0
  | none => false

/-- Whether IN data follows the record's result. -/
def recDataIn (r : List Byte) : Bool :=
  if recKind r = 3 then bit (fld r 12 4) 14 else recKind r = 1 || ((recKind r = 4 || recKind r = 5) && recIn r)

/-- The context that a record concerns: that of the islet that owns the seat. -/
def State.recContext (s : State) (x : Seat) (r : List Byte) : Option Nat :=
  (s.usb.eps.find? fun e =>
    e.2.state != 0 && e.2.seat == x && e.2.addr == recAddr r && e.2.ep == recEp r &&
      (e.2.dirIn == recIn r || e.2.type == 0) && e.2.rootPort.val + 1 == recPort r).map (·.1)

/-- A sealed record is at the dock: its transfer, or its isochronous packet, waits for its result. -/
def State.noteSent (s : State) (x : Seat) (n : Nat) (r : List Byte) : State :=
  match s.recContext x r with
  | none => s
  | some k =>
    let e := s.ep k
    if recKind r = 0x0B then s
    else if e.type = 1 then
      let m := e.serviceOf n
      match e.queue.find? (fun h => (s.xfer h).pkts.any fun p => p.n == m) with
      | none => s
      | some h =>
        let s := if e.dirIn then s else s.sendIso h m
        let v := s.xfer h
        (s.setXfer h { v with outstanding := v.outstanding + 1,
                              pkts := v.pkts.map fun p => if p.n == m then { p with sent := true } else p }).hand h
    else
      match e.queue with
      | [] => s
      | h :: _ =>
        let v := s.xfer h
        let s := (s.setXfer h { v with outstanding := v.outstanding + 1 }).hand h
        s.setEp k { s.ep k with sentBytes := (s.ep k).sentBytes + fld r 8 4 % 2 ^ 24 }

/-- A port record (R166). -/
def PortRec.bytes (p : PortRec) : List Byte :=
  leBytes 1 0x07 ++ leBytes 2 0 ++ leBytes 1 (p.port.val + 1) ++ leBytes 4 0 ++ leBytes 1 p.op.toNat ++ leBytes 7 0

/-- Seal a script and hand it to the seat: the transaction records, the `FLUSH` records that wait while the
dock's limit allows, and the port records, at most 8 (R164, R166, 04 R110). -/
def State.sealScript (s : State) (x : Seat) (n : Nat) (recs : List (List Byte)) : State :=
  let u := s.usbSeat x
  let limit := match u.profile with
    | some p => p.maxRecords
    | none => 0
  let fl := u.flushes.take (limit - recs.length)
  let all := recs ++ fl
  let ports := u.portRecs.take 8
  let body := all.flatten ++ (ports.map PortRec.bytes).flatten
  let msg := usbMsg 0x01 (n % 2 ^ 32) (all.length + at_ ports.length 16) body
  let sc : SentScript := { n := n, recs := all.map fun r => (r, false), ports := ports.map fun p => (p, false) }
  let keep := (u.scripts ++ [sc]).drop ((u.scripts.length + 1) - 64)
  let s := s.setUsbSeat x { u with flushes := u.flushes.drop fl.length, portRecs := u.portRecs.drop 8,
                                   scripts := keep }
  let s := all.foldl (fun s r => s.noteSent x n r) s
  if (s.link_ x).svcEpoch = 0 then s
  else s.queueFrame x .usb (Hand.plain msg (s.owner x).val (s.usbInput x))

end Sys2Proof.Machine
end

