-- ==== Sys2Proof/Machine/UsbRun.lean ====
section
/-! DEFINITION. The commands of the USB host service (06): entries, results, the virtual root hub. -/

namespace Sys2Proof.Machine

/-! ### Body checks of USB entries (R156, R161; 03 R81, R86) -/

def reservedNz : Byte := 0x03
def badBody : Byte := 0x0B

/-- The body of a `USB_ENDPOINT` entry (R156); `none`: well formed. -/
def endpointBody (b : List Byte) : Option Byte :=
  let ep := fld b 9 1
  let op := fld b 11 1
  let mp := fld b 12 2
  let mode := fld b 14 1
  let sp := fld b 15 1
  let hub := fld b 17 1
  let type := mode % 4
  if bit (fld b 8 1) 7 ∨ bits ep 6 4 ≠ 0 ∨ !allZero (slice b 20 12) then some reservedNz
  else if op = 1 ∧ (bits mp 15 13 ≠ 0 ∨ bits mode 3 2 ≠ 0) then some reservedNz
  else if 63 < fld b 10 1 ∨ op = 0 ∨ 4 < op then some badBody
  else if op ≠ 1 then (if allZero (slice b 12 7) && fld b 19 1 == 0 then none else some badBody)
  else if 1024 < bits mp 10 0 ∨ 2 < bits mp 12 11 ∨ (bits mp 12 11 ≠ 0 ∧ ¬(sp = 3 ∧ (type = 1 ∨ type = 3))) then
    some badBody
  else if 8 < bits mode 7 4 ∨ (bits mode 7 4 ≠ 0 ∧ (type = 0 ∨ type = 2)) then some badBody
  else if sp = 0 ∨ 4 < sp ∨ fld b 16 1 = 0 ∨ 8 < fld b 16 1 then some badBody
  else if (type = 0 ∧ bit ep 7) ∨ (bit hub 7 ∧ hub % 128 = 0) then some badBody
  else if (hub = 0 ∧ fld b 18 1 ≠ 0) ∨ (hub ≠ 0 ∧ (fld b 18 1 = 0 ∨ 127 < fld b 18 1)) then some badBody
  else if (sp = 4 ∧ 15 < fld b 19 1) ∨ (sp ≠ 4 ∧ fld b 19 1 ≠ 0) then some badBody
  else none

/-- Bytes 8 to 10 of a transfer entry (R161). -/
def transferHead (b : List Byte) : Option Byte :=
  if bit (fld b 8 1) 7 ∨ bits (fld b 9 1) 6 4 ≠ 0 then some reservedNz
  else if 63 < fld b 10 1 then some badBody else none

def controlBody (b : List Byte) : Option Byte :=
  match transferHead b with
  | some x => some x
  | none =>
    if fld b 11 1 ≠ 0 then some reservedNz
    else if bit (fld b 9 1) 7 then some badBody
    else if fld b 12 2 ≠ fld b 22 2 then some badBody
    else if fld b 12 2 = 0 ∧ fld b 24 8 ≠ 0 then some badBody
    else none

/-- Scatter elements of 16 bytes from offset 32: (address, bytes). -/
def scatterOf (b : List Byte) (n : Nat) : List (Nat × Nat) :=
  (List.range n).map fun j => (fld b (32 + 16 * j) 8, fld b (40 + 16 * j) 4)

/-- Elements within their range whose bytes sum to the length (R161, 10 R276). -/
def scatterOk (b : List Byte) (n len most : Nat) : Option Byte :=
  let l := scatterOf b n
  if (List.range n).any (fun j => fld b (44 + 16 * j) 4 != 0) then some reservedNz
  else if l.any (fun e => e.2 == 0 || decide (most < e.2)) || (l.map (·.2)).sum != len then some badBody
  else none

def bulkBody (b : List Byte) : Option Byte :=
  let n := fld b 1 1
  match transferHead b with
  | some x => some x
  | none =>
    if bits (fld b 11 1) 7 1 ≠ 0 ∨ fld b 14 2 ≠ 0 ∨ fld b 28 4 ≠ 0 then some reservedNz
    else if 16777215 < fld b 24 4 ∨ (3 ≤ n ∧ fld b 16 8 ≠ 0) then some badBody
    else if 3 ≤ n then scatterOk b (n - 2) (fld b 24 4) 16777215 else none

def interruptBody (b : List Byte) : Option Byte :=
  match transferHead b with
  | some x => some x
  | none =>
    if bits (fld b 11 1) 7 1 ≠ 0 ∨ fld b 14 2 ≠ 0 ∨ fld b 28 4 ≠ 0 then some reservedNz
    else if 3072 < fld b 24 4 then some badBody else none

/-- The body of a `USB_ISOCH` entry; `most`: the longest packet of the endpoint's speed (R86, R161). -/
def isochBody (b : List Byte) (most : Nat) : Option Byte :=
  let n := fld b 1 1
  let k := fld b 28 1
  match transferHead b with
  | some x => some x
  | none =>
    if bits (fld b 11 1) 7 1 ≠ 0 ∨ !allZero (slice b 29 3) then some reservedNz
    else if k = 0 ∨ 64 < k then some badBody
    else if 3 ≤ n ∧ (fld b 12 4 ≠ 0 ∨ n ≠ 2 + cdiv k 8) then some badBody
    else if 3 ≤ n ∧ !allZero (slice b (32 + 2 * k) (16 * (n - 2) - 2 * k)) then some reservedNz
    else if (isoLengths b).any (fun l => decide (most < l)) then some badBody
    else none

/-! ### USB_ENDPOINT (R157, R159) -/

/-- The open entry of a handle that its engine has not begun, when its core and type are as named; one whose record waits
for earlier ones has ended. -/
def State.entryOf (s : State) (c : CoreId) (h type : Nat) : Option EntrySt :=
  match s.entry? h with
  | some e => if s.runs e.core = c ∧ e.type = type ∧ !e.started ∧ e.ended.isNone then some e else none
  | none => none

/-- Profile of a seat's root port: its capability byte. -/
def State.portCaps (s : State) (x : Seat) (p : RootPort) : Nat :=
  match (s.usbSeat x).profile with
  | some f => ((f.caps[p.val]?).getD 0).toNat
  | none => 0

/-- `GEN1_CAPABLE` (06 `ROOT_PORT_s_p`). -/
def State.gen1Capable (s : State) (x : Seat) (p : RootPort) : Bool :=
  bit (s.portCaps x p) 2 && decide (3 ≤ (s.link_ x).rate.toNat)

/-- The endpoint that an `OPEN` names (R156). -/
def openWants (i : IsletNo) (b : List Byte) : EpSt :=
  { islet := i, seat := toSeat (fld b 10 1), addr := fld b 8 1 % 128, ep := fld b 9 1 % 16,
    dirIn := bit (fld b 9 1) 7, mode := BitVec.ofNat 8 (fld b 14 1), maxPacket := BitVec.ofNat 16 (fld b 12 2),
    speed := fld b 15 1, rootPort := toFin 7 (fld b 16 1 - 1), ttHub := BitVec.ofNat 8 (fld b 17 1),
    ttPort := BitVec.ofNat 8 (fld b 18 1), burst := fld b 19 1, state := 1, toggle := false, phase := 0,
    cost := 0, queue := [], doneBytes := 0, sentBytes := 0, nextN := 0, outOff := 0, closers := [] }

/-- Whether a port's capabilities allow a speed (R157 step 4). -/
def speedAllowed (caps speed : Nat) : Bool :=
  if speed = 3 then caps % 4 == 2 else if speed = 4 then bit caps 2 else speed == 1 || speed == 2

/-- The present micro-frame (00 R11). -/
def State.uframe (s : State) (c : CoreId) : Nat := s.ut c / microFrame

/-- The first service opportunity at or after micro-frame `n` (R157, R161). -/
def EpSt.serviceFrom (e : EpSt) (n : Nat) : Nat :=
  let p := e.period
  n + (e.phase + p - n % p) % p

/-- An `OPEN` in the order of R157: a refusal's status, or the context opened. -/
def State.openCheck (s : State) (e : EpSt) : Nat ⊕ (EpSt × Nat) :=
  let c := s.servingCore e.seat
  let ports := match (s.usbSeat e.seat).profile with
    | some f => f.rootPorts
    | none => 0
  if s.owner e.seat ≠ e.islet then .inl 0x48
  else if (s.findEp e.islet e.seat e.addr e.ep e.dirIn).isSome then .inl 0x4C
  else if (s.rootPort e.seat e.rootPort).st ≠ .enabled then .inl 0x4B
  else if ports ≤ e.rootPort.val ∨ !speedAllowed (s.portCaps e.seat e.rootPort) e.speed then .inl 0x48
  else if e.speed = 4 ∧ !s.gen1Capable e.seat e.rootPort then .inl 0x4A
  else if 4096 ≤ s.openContexts e.islet c then .inl 0x47
  else
    match s.freeContext e.islet c with
    | none => .inl 0x47
    | some n =>
      if e.periodic then
        match e.phases.find? (s.phaseFits c e) with
        | none => .inl 0x46
        | some φ => .inr ({ e with phase := φ, cost := e.worst }, n)
      else .inr (e, n)

/-- A `USB_ENDPOINT` `OPEN` (R157, R158). -/
def State.openEp (s : State) (h : Nat) (e : EntrySt) : State :=
  let w := openWants e.islet e.bytes
  match s.openCheck w with
  | .inl st => s.finish h st 0 0
  | .inr (v, n) =>
    let c := s.servingCore v.seat
    let k := epKey e.islet c n
    let s := if v.periodic then s.applyCharges c v true else s.putAsync c v.islet v.seat (s.asyncList c v.islet v.seat ++ [n])
    let next := if v.periodic then v.serviceFrom (s.uframe c + 3) else 0
    (s.setEp k { v with nextN := next }).finish h 0x00 0 (n + at_ v.phase 16)

def execUsbOpen (c : CoreId) (h : Nat) (s : State) : Host.Outcome State Fault Refusal :=
  .next (match s.entryOf c h 0x14 with
    | some e => if fld e.bytes 11 1 = 1 then s.openEp h e else s
    | none => s)

/-- The endpoint that an entry names: of its islet, open or halted (R159, R161). -/
def State.named (s : State) (e : EntrySt) : Option Nat :=
  let b := e.bytes
  match s.findEp e.islet (toSeat (fld b 10 1)) (fld b 8 1 % 128) (fld b 9 1 % 16) (bit (fld b 9 1) 7) with
  | some k => if (s.ep k).state = 3 ∨ s.owner (s.ep k).seat ≠ e.islet then none else some k
  | none => none

def execClose (c : CoreId) (h : Nat) (s : State) : Host.Outcome State Fault Refusal :=
  .next (match s.entryOf c h 0x14 with
    | some e =>
      if fld e.bytes 11 1 ≠ 2 then s
      else match s.named e with
        | none => s.finish h 0x45 0 0
        | some k => (s.begin_ h).closeEp k 0x05 true (some h)
    | none => s)

/-- A halted endpoint resumes with toggle 0 (R159). -/
def execClearHalt (c : CoreId) (h : Nat) (s : State) : Host.Outcome State Fault Refusal :=
  .next (match s.entryOf c h 0x14 with
    | some e =>
      if fld e.bytes 11 1 ≠ 3 then s
      else match s.named e with
        | none => s.finish h 0x45 0 0
        | some k =>
          let v := s.ep k
          let s := if v.state = 2 then (s.setEp k { v with state := 1, toggle := false }).pumpOut k else s
          s.finish h 0x00 0 0
    | none => s)

/-- Posted transfers complete `ABORTED`; the endpoint stays open (R159). -/
def execAbort (c : CoreId) (h : Nat) (s : State) : Host.Outcome State Fault Refusal :=
  .next (match s.entryOf c h 0x14 with
    | some e =>
      if fld e.bytes 11 1 ≠ 4 then s
      else match s.named e with
        | none => s.finish h 0x45 0 0
        | some k =>
          let s := ((s.begin_ h).flushEp k).endAll k 0x05
          (s.setEp k { s.ep k with closers := (s.ep k).closers ++ [h] }).settleEp k
    | none => s)

/-! ### Transfers (R161, R162) -/

/-- A host read of an OUT transfer has failed, or cannot be made: the transfer completes `HOST_ACCESS` (02 R30, R41). -/
def State.failOut (s : State) (h : Nat) : State :=
  (s.setXfer h { s.xfer h with hostFail := true }).endXfer h 0x01

/-- Read a buffer's pieces from host memory for OUT data (02 R30). -/
def State.readPieces (s : State) (e : EntrySt) (h : Nat) : List (Nat × Nat) → State
  | [] => s
  | (a, n) :: r =>
    let s := if n = 0 then s else s.issueRead (s.entryFn e) e.islet a n (.usbOut h)
    s.readPieces e h r

/-- The deadline that `TIMEOUT_MS` sets (R163). -/
def timeoutAt (e : EntrySt) (timeoutMs : Nat) : Option Nat :=
  if timeoutMs = 0 then none else some (e.takenUt + timeoutMs * ms)

/-- The OUT data of a posted transfer is fetched. -/
def State.fetchOut (s : State) (h : Nat) (e : EntrySt) (v : XferSt) : State :=
  if v.dirIn ∨ v.len = 0 then s
  else if s.readsRefused (s.entryFn e) then (s.failCount (s.entryFn e) e.islet).failOut h
  else s.readPieces e h v.segs

/-- Post a transfer on its endpoint. -/
def State.postXfer (s : State) (h : Nat) (e : EntrySt) (v : XferSt) : State :=
  let s := (s.begin_ h).setXfer h v
  let s := s.setEp v.ep { s.ep v.ep with queue := (s.ep v.ep).queue ++ [h] }
  (s.fetchOut h e v).pumpOut v.ep

/-- The endpoint of a transfer entry whose type must be `type`: else `NOT_OPEN` (R161). -/
def State.withEp (s : State) (c : CoreId) (h entryType type : Nat) (f : EntrySt → Nat → State) : State :=
  match s.entryOf c h entryType with
  | none => s
  | some e =>
    match s.named e with
    | none => s.finish h 0x45 0 0
    | some k => if (s.ep k).type = type then f e k else s.finish h 0x45 0 0

def execUsbControl (c : CoreId) (h : Nat) (s : State) : Host.Outcome State Fault Refusal :=
  .next (s.withEp c h 0x10 0 fun e k =>
    let b := e.bytes
    let n := fld b 12 2
    let dirIn := bit (fld b 16 1) 7 || n == 0
    s.postXfer h e { XferSt.init with
      ep := k, dirIn := dirIn, len := n, segs := [(fld b 24 8, n)], deadline := timeoutAt e (fld b 14 2),
      outData := slice b 16 8, outLen := if dirIn then 8 else 8 + n })

/-- The host buffer of a bulk or interrupt entry. -/
def bulkSegs (b : List Byte) : List (Nat × Nat) :=
  if 3 ≤ fld b 1 1 then scatterOf b (fld b 1 1 - 2) else [(fld b 16 8, fld b 24 4)]

def bulkXfer (s : State) (e : EntrySt) (k : Nat) : XferSt :=
  let n := fld e.bytes 24 4
  let dirIn := (s.ep k).dirIn
  { XferSt.init with ep := k, dirIn := dirIn, len := n, segs := bulkSegs e.bytes, deadline := timeoutAt e (fld e.bytes 12 2), outLen := if dirIn then 0 else n }

def execUsbBulk (c : CoreId) (h : Nat) (s : State) : Host.Outcome State Fault Refusal :=
  .next (s.withEp c h 0x11 2 fun e k => s.postXfer h e (bulkXfer s e k))

def execUsbInterrupt (c : CoreId) (h : Nat) (s : State) : Host.Outcome State Fault Refusal :=
  .next (s.withEp c h 0x12 3 fun e k => s.postXfer h e (bulkXfer s e k))

/-- The micro-frame that `START` names: within 2^31 of the present one (R161). -/
def startFrame (now start : Nat) : Nat :=
  let base := now - now % 2 ^ 32 + start
  if base < now then (if now - base ≤ 2 ^ 31 then base else base + 2 ^ 32)
  else if base - now < 2 ^ 31 then base else base - 2 ^ 32

def isoPackets : List Nat → Nat → Nat → List IsoPkt
  | [], _, _ => []
  | l :: r, n, p => { n := n, len := l, value := none, sent := false, got := 0 } :: isoPackets r (n + p) p

/-- A `USB_ISOCH` entry of which no packet is executed completes with a status (R162). -/
def State.endIsoch (s : State) (h : Nat) (e : EntrySt) (status : Nat) : State :=
  let (ok, s) := s.isoNotRun h e
  s.finish h (if ok then status else 0x01) 0 (isoLengths e.bytes).length

/-- A `USB_ISOCH` entry: its size check, its deadline, then its packets are scheduled (R161, R162, 03 R80). The model takes
the present micro-frame plus 3 as the first whose script is not yet built, for `ASAP` (DESIGN CHOICE, log entry 97). -/
def State.isochTake (s : State) (c : CoreId) (h : Nat) (e : EntrySt) (k : Nat) : State :=
  let v := s.ep k
  let b := e.bytes
  let lens := isoLengths b
  let now := s.uframe c
  let asap := bit (fld b 11 1) 0
  let n := if asap then v.serviceFrom (now + 3) else v.serviceFrom (startFrame now (fld b 24 4))
  let t := lens.sum
  let all : XferSt :=
    { XferSt.init with ep := k, dirIn := v.dirIn, len := t, segs := [(fld b 16 8, t)], pkts := isoPackets lens n v.period, outLen := if v.dirIn then 0 else t }
  if lens.any (fun l => decide (v.perService < l)) then s.endIsoch h e 0x4D
  else if !asap && decide ((n - 2) * microFrame ≤ e.takenUt) then
    s.endIsoch h e 0x02
  else
    let s := (s.begin_ h).setXfer h all
    let s := s.setEp k { v with queue := v.queue ++ [h] }
    s.fetchOut h e all

def execUsbIsoch (c : CoreId) (h : Nat) (s : State) : Host.Outcome State Fault Refusal :=
  .next (s.withEp c h 0x13 1 fun e k => s.isochTake c h e k)

/-- `TIMEOUT_MS` has passed since the entry was taken (R163). -/
def execTimedOut (c : CoreId) (h : Nat) (ut : Nat) (s : State) : Host.Outcome State Fault Refusal :=
  let s := s.arrive ut
  .next (match s.entry? h, (s.xfer h).deadline with
    | some e, some d => if s.runs e.core = c ∧ d ≤ s.ut c then s.endXfer h 0x49 else s
    | _, _ => s)

/-! ### Isochronous packets (R162, R168) -/

/-- An entry whose packets are all decided completes, and one that a cause has ended when no result is to come (R162). -/
def State.isoSettle (s : State) (h : Nat) : State :=
  let v := s.xfer h
  if v.pkts.isEmpty || v.pkts.any (fun p => p.value.isNone && (p.sent || v.ending.isNone)) then s
  else (s.finishXfer h (v.ending.getD 0x00)).settleEp v.ep

/-- Count lost packets (14 R363, R367). -/
def State.countLost (s : State) (x : Seat) (n : Nat) : State :=
  if n = 0 then s else (s.bumpSeat x 19 n).count (s.servingCore x) 0x062 [(2, x.val)] n

/-- Service micro-frames of an isochronous endpoint with a record in a script up to that of micro-frame n whose result
has not come (R168). -/
def State.unheard (s : State) (x : Seat) (k n : Nat) : List Nat :=
  let e := s.ep k
  (((s.usbSeat x).scripts.filter fun sc => decide (sc.n ≤ n)).map fun sc =>
    if sc.recs.any fun r => !r.2 && s.recContext x r.1 == some k then [e.serviceOf sc.n] else []).flatten

/-- The packets of isochronous records in scripts up to that of micro-frame n whose results have not come are lost,
0xFFFF, and packets of those micro-frames that no record carried are not executed, 0xFFFE (R162, R168). The records of a
packet behind a TT lie within 8 micro-frames. -/
def State.isoLost (s : State) (x : Seat) (n : Nat) : State :=
  (s.epsOf x fun e => e.type == 1).foldl (fun s k =>
    let late := s.unheard x k n
    (s.ep k).queue.foldl (fun s h =>
      let v := s.xfer h
      let hit (p : IsoPkt) : Bool :=
        p.value.isNone && decide (p.n ≤ n) && (!p.sent || late.contains p.n || decide (p.n + 8 ≤ n))
      let lost := (v.pkts.filter hit).length
      let pk := v.pkts.map fun p => if hit p then { p with value := some (if p.sent then 0xFFFF else 0xFFFE) } else p
      if lost = 0 then s
      else ((s.setXfer h { v with pkts := pk }).countLost x lost).isoSettle h) s) s

def execIsoResultLost (x : Seat) (n : Nat) (ut : Nat) (s : State) : Host.Outcome State Fault Refusal :=
  let s := s.arrive ut
  .next (if (n + 6) * microFrame ≤ s.ut (s.servingCore x) then s.isoLost x n else s)

/-! ### Results (R168, R169, R172, R410, R411) -/

/-- A result record with the data that follows it. -/
structure ResIn where
  bytes : List Byte
  data : List Byte
  deriving DecidableEq, Repr

def ResIn.kind (r : ResIn) : Nat := fld r.bytes 0 1
def ResIn.code (r : ResIn) : Nat := fld r.bytes 1 1
def ResIn.index (r : ResIn) : Nat := fld r.bytes 2 1
def ResIn.flags (r : ResIn) : Nat := fld r.bytes 3 1
def ResIn.count (r : ResIn) : Nat := fld r.bytes 8 4
def ResIn.frameLow (r : ResIn) : Nat := fld r.bytes 12 4

/-- The script whose low 32 bits a result names. -/
def UsbSeat.script? (u : UsbSeat) (low : Nat) : Option SentScript :=
  u.scripts.find? fun sc => sc.n % 2 ^ 32 == low

/-- The record that a result names: its bytes, `none` where its index names none (R169). -/
def UsbSeat.recordOf (u : UsbSeat) (b : List Byte) : Option (List Byte) :=
  match u.script? (fld b 12 4) with
  | none => none
  | some sc =>
    if fld b 0 1 = 7 then (sc.ports[fld b 2 1]?).map fun p => p.1.bytes
    else (sc.recs[fld b 2 1]?).map (·.1)

/-- Read `n` result records from a message body; `none`: the message is malformed (R169; a reserved bit of `FLAGS`: 00 R7). -/
def readResults (u : UsbSeat) : Nat → List Byte → Option (List ResIn)
  | 0, b => if b.isEmpty then some [] else none
  | n + 1, b =>
    if b.length < 16 then none
    else
      let r := b.take 16
      let rest := b.drop 16
      if bit (fld r 3 1) 7 then none
      else if fld r 0 1 = 0x10 then (readResults u n rest).map fun l => { bytes := r, data := [] } :: l
      else
        match u.recordOf r with
        | none => none
        | some q =>
          if fld q 0 1 ≠ fld r 0 1 then none
          else
            let k := if recDataIn q then fld r 8 4 else 0
            let pad := 8 * cdiv k 8
            if rest.length < k then none
            else if rest.length < pad then none
            else (readResults u n (rest.drop pad)).map fun l => { bytes := r, data := rest.take k } :: l

/-- Mark a record's result processed; the second result says that it already was. -/
def UsbSeat.markDone (u : UsbSeat) (b : List Byte) : UsbSeat × Bool :=
  let low := fld b 12 4
  let i := fld b 2 1
  let port := decide (fld b 0 1 = 7)
  let was := match u.script? low with
    | none => true
    | some sc => if port then ((sc.ports[i]?).map (·.2)).getD true else ((sc.recs[i]?).map (·.2)).getD true
  let upd (sc : SentScript) : SentScript :=
    if port then { sc with ports := sc.ports.modify i fun e => (e.1, true) }
    else { sc with recs := sc.recs.modify i fun e => (e.1, true) }
  ({ u with scripts := u.scripts.map fun sc => if sc.n % 2 ^ 32 = low then upd sc else sc }, was)

/-- The result codes that R168 lists. -/
def listedResult (n : Nat) : Bool := decide (n ≤ 0x0E)

/-- A transfer whose ending waits for its records completes when the last result is in (R159, R163). -/
def State.afterResult (s : State) (h : Nat) : State :=
  let v := s.xfer h
  match v.ending with
  | some st => if v.outstanding = 0 then (s.finishXfer h st).settleEp v.ep else s
  | none => s

/-- The results complete a transfer: with the status they give, whatever cause came before (R411). -/
def State.completeXfer (s : State) (h : Nat) (st : Byte) : State :=
  let v := s.xfer h
  (s.setXfer h { v with ending := some st }).afterResult h

/-- The transfer ends in an error; a bulk or interrupt endpoint halts on `STALL`, `XACT_ERROR` and `BABBLE`
(R160, R410). -/
def State.failXfer (s : State) (k h : Nat) (st : Byte) (halts : Bool) : State :=
  let e := s.ep k
  let s := if halts && (e.type == 2 || e.type == 3) && e.state == 1 then s.setEp k { e with state := 2 } else s
  s.completeXfer h st

/-- Data or bytes of a transaction count as moved; IN data goes to the host buffer (R410, 02 R30). `BYTES` of a `CONTROL`
OUT result is taken as the bytes of its data stage, without the setup packet (DESIGN CHOICE, log entry 98). -/
def State.moveBytes (s : State) (h : Nat) (r : ResIn) (bytes : Nat) : State :=
  let v := s.xfer h
  match s.entry? h with
  | none => s
  | some e =>
    let (ok, s) :=
      if v.dirIn then s.writePieces h e r.data (pieces v.segs v.moved r.data.length)
      else (true, s)
    let s := s.setXfer h { v with moved := v.moved + bytes, hostFail := v.hostFail || !ok }
    s.setEntry h { e with moved := v.moved + bytes }

/-- A result has given the transfer its status: it is complete, or has failed (R410, R411). -/
def XferSt.resulted (v : XferSt) : Bool :=
  match v.ending with
  | some st => st == 0x00 || decide (0x40 ≤ st.toNat ∧ st.toNat ≤ 0x43)
  | none => false

/-- The control stage completed: the data stage only when all of its bytes are moved, or it ended short (R163, R167). -/
def stageOf (v : XferSt) (r : ResIn) (code : Nat) : Nat :=
  let g := bits r.flags 3 2
  let moved := v.moved + (if code ≤ 2 then r.count else 0)
  max v.stage (if g = 2 ∧ moved < v.len ∧ ¬bit r.flags 1 ∧ code ≠ 1 then 1 else g)

/-- The results so far complete the transfer: every byte moved and no zero-length packet owed, an IN transfer ended
short, or the status stage done (R411). -/
def State.whole (s : State) (h : Nat) (e : EpSt) (r : ResIn) (code : Nat) : Bool :=
  let v := s.xfer h
  if e.type = 0 then v.stage == 3
  else (v.dirIn && (code == 1 || bit r.flags 1)) || (decide (v.len ≤ v.moved) && (code != 2 || (v.len != 0 && !s.zlpAsked h e v)))

/-- The result of record `q` of a control, bulk or interrupt transfer (R410, R411). -/
def State.resultXfer (s : State) (k h : Nat) (r : ResIn) (q : List Byte) (code : Nat) : State :=
  let e := s.ep k
  let v := s.xfer h
  let s := s.setEp k { e with toggle := if code = 0x0C then e.toggle else bit r.flags 0, sentBytes := e.sentBytes - fld q 8 4 % 2 ^ 24 }
  let s := s.setXfer h { v with outstanding := v.outstanding - 1 }
  if v.resulted then (s.afterResult h).pumpSeat e.seat
  else if code = 0x0C then s.afterResult h
  else
    let stage := if e.type = 0 then stageOf v r code else 0
    let s := s.setXfer h { s.xfer h with stage := stage, lastDock := BitVec.ofNat 8 r.code }
    let s := if code ≤ 2 then s.moveBytes h r r.count else s
    let v := s.xfer h
    let setup := if e.type = 0 && decide (1 ≤ stage) then 8 else 0
    let consumed := if v.dirIn then max v.outDone setup else if e.type = 0 then max v.outDone (setup + v.moved) else v.moved
    let s := s.setXfer h { v with outDone := min consumed v.outSent }
    let s := s.setEp k { s.ep k with doneBytes := v.moved }
    let s :=
      if code ≤ 2 then (if s.whole h e r code then s.completeXfer h 0x00 else s.afterResult h)
      else if code = 0x03 then s.failXfer k h 0x40 true
      else if code = 0x04 then s.failXfer k h 0x42 true
      else if code = 0x05 then s.failXfer k h 0x41 true
      else if code = 0x07 then (s.resetStream k).afterResult h
      else if code = 0x0B then s.failXfer k h 0x43 false
      else s.afterResult h
    s.pumpSeat e.seat

/-- The value that a result gives an isochronous packet of which results have moved `got` bytes, its own among them;
`none`: not decided yet (R410). `part`: a start split of a packet that has further ones, which decides it only by failing. A
packet that was on the wire in part and then was not is taken as failed. -/
def isoValue (code got : Nat) (part : Bool) : Option Half :=
  if code = 0x00 ∨ code = 0x01 then (if part then none else some (BitVec.ofNat 16 got))
  else if code = 0x06 ∨ code = 0x07 ∨ code = 0x08 then (if got = 0 then some 0xFFFE else some 0xFFFF)
  else if code = 0x0A ∨ code = 0x0C then none
  else some 0xFFFF

/-- A start split of an isochronous OUT packet that is not the last: its split position is begin or middle (R166). -/
def recPart (q : List Byte) : Bool := recKind q == 4 && !recIn q && (bits (fld q 12 4) 31 30 == 1 || bits (fld q 12 4) 31 30 == 2)

/-- The result of isochronous record `q`, of the packet of micro-frame `n` (R410): its bytes follow those of the
packet's earlier splits. -/
def State.resultIso (s : State) (x : Seat) (h n : Nat) (r : ResIn) (q : List Byte) (code : Nat) : State :=
  let v := s.xfer h
  let s := s.setXfer h { v with outstanding := v.outstanding - 1 }
  match v.pkts.find? (fun p => p.n == n) with
  | none => s.isoSettle h
  | some p =>
    if code = 0x0C ∨ p.value.isSome then s.isoSettle h
    else
      let bytes := if code ≤ 1 ∨ code = 0x0A then r.count else 0
      let off := ((v.pkts.takeWhile fun p => p.n != n).map (·.len)).sum + p.got
      let (ok, s) := match s.entry? h with
        | some e => if v.dirIn then s.writePieces h e r.data (pieces v.segs off r.data.length) else (true, s)
        | none => (true, s)
      let val := isoValue code (p.got + bytes) (recPart q)
      let pk := v.pkts.map fun p => if p.n == n then { p with value := val, got := p.got + bytes } else p
      let s := s.setXfer h { s.xfer h with pkts := pk, hostFail := v.hostFail || !ok }
      let s := if val = some 0xFFFF ∨ val = some 0xFFFE then s.countLost x 1 else s
      s.isoSettle h

/-- The whole micro-frame number of a script named by its low 32 bits. -/
def UsbSeat.scriptN (u : UsbSeat) (low : Nat) : Nat := ((u.script? low).map (·.n)).getD low

/-- One result record of a transaction, not processed before, acts on its transfer or packet (R410); one of a `FLUSH`
goes to the root hub operations (R172). -/
def State.applyResult (s : State) (x : Seat) (r : ResIn) : State :=
  let u := s.usbSeat x
  let q := (u.recordOf r.bytes).getD []
  if recKind q = 0x0B then s.setUsbSeat x { u with hubOps := u.hubOps ++ [.flush r.code q] }
  else
    let odd := !listedResult r.code || r.code = 0x09 || r.code = 0x0D || r.code = 0x0E
    let s := if odd then s.bumpSeat x 12 1 else s
    let code := if odd then 0x04 else r.code
    let s := if r.code = 0x06 then s.count (s.servingCore x) 0x061 [(2, x.val)] 1 else s
    match s.recContext x q with
    | none => s
    | some k =>
      let e := s.ep k
      let n := e.serviceOf (u.scriptN r.frameLow)
      if e.type = 1 then
        match e.queue.find? (fun h => (s.xfer h).pkts.any fun p => p.n == n) with
        | some h => s.resultIso x h n r q code
        | none => s
      else
        match e.queue with
        | h :: _ => s.resultXfer k h r q code
        | [] => s

/-! ### Kind 1 items (R172) -/

/-- The results of one endpoint, cut into items of at most 64 results and 61,440 IN bytes. -/
def cutItems : List ResIn → List ResIn → List (List ResIn)
  | [], cur => if cur.isEmpty then [] else [cur]
  | r :: rest, cur =>
    let n := ((cur.map (·.data.length)).sum) + r.data.length
    if cur.length < 64 ∧ n ≤ 61440 ∨ cur.isEmpty then cutItems rest (cur ++ [r])
    else cur :: cutItems rest [r]

/-- A byte string as memory cells from an address; bytes that read 0 unwritten are not listed. -/
def cellsAt (a : Nat) (b : List Byte) : Memory := writeBytes [] a b

/-- One kind 1 item of an endpoint's results; `iso`: they came in the ISO tunnel (05 R136). -/
def State.resultItem (s : State) (x : Seat) (k : Nat) (l : List ResIn) (src : Option (Tunnel × Half)) (iso : Bool) : State :=
  let e := s.ep k
  let frame := writeBytes (cellsAt 0 (l.map (·.bytes)).flatten) 0x1000 (l.map (·.data)).flatten
  let it : Item :=
    { Item.init with kind := 1, flow := BitVec.ofNat 24 e.flow, islet := e.islet, seat := some x,
                     arg := BitVec.ofNat 64 (k % 4096 + at_ l.length 16), frame := frame,
                     srcFrame := src.map fun p => (x, p.2), iso := iso }
  let s := match src with
    | some (t, q) => s.actMake x t q
    | none => s
  if iso then s.readyIso (s.servingCore x) it else s.readyItem (s.servingCore x) it

/-- Items of every endpoint that has results in a message (R172). -/
def State.resultItems (s : State) (x : Seat) (l : List ResIn) (src : Option (Tunnel × Half)) (iso : Bool) : State :=
  let u := s.usbSeat x
  let tagged := l.filterMap fun r =>
    if r.kind = 0x10 ∨ r.kind = 0x07 ∨ r.kind = 0x0B then none
    else (s.recContext x ((u.recordOf r.bytes).getD [])).map fun k => (k, r)
  let keys := (tagged.map (·.1)).eraseDups
  keys.foldl (fun s k =>
    (cutItems ((tagged.filter fun e => e.1 == k).map (·.2)) []).foldl (fun s l => s.resultItem x k l src iso) s) s

/-- An event's number follows the last one processed: a resent event, already processed, is ignored (R168 to R170; the
half of the numbers behind it counts as processed, log entry 99). -/
def UsbSeat.newEvent (u : UsbSeat) (n : Nat) : Bool :=
  match u.lastEvent with
  | none => true
  | some m => decide ((n + 511 - m) % 256 < 128)

/-- The results of a message that were not processed before, in order, each marked processed (R169). -/
def freshResults : List ResIn → UsbSeat → UsbSeat × List ResIn
  | [], u => (u, [])
  | r :: rest, u =>
    if r.kind = 0x10 then
      if u.newEvent r.index then
        let (v, l) := freshResults rest { u with lastEvent := some r.index }
        (v, r :: l)
      else freshResults rest u
    else
      let (v, was) := u.markDone r.bytes
      if was then freshResults rest v
      else
        let (v, l) := freshResults rest v
        (v, r :: l)

/-- The port record that a result names. -/
def UsbSeat.portRec (u : UsbSeat) (b : List Byte) : Option PortRec :=
  match u.script? (fld b 12 4) with
  | none => none
  | some sc => (sc.ports[fld b 2 1]?).map (·.1)

/-- What waits for the root hub, with the frame it came in, which is acknowledged after it (R170, R172, R173). -/
def State.hubWaits (s : State) (x : Seat) (o : HubOp) (src : Option (Tunnel × Half)) : State :=
  let u := s.usbSeat x
  let s := s.setUsbSeat x { u with hubOps := u.hubOps ++ [o] }
  match src with
  | some (t, q) => s.actMake x t q
  | none => s

/-- What concerns the root hub waits for its operation (R172, R173). -/
def State.hubResults (s : State) (x : Seat) (l : List ResIn) (src : Option (Tunnel × Half)) : State :=
  l.foldl (fun s r =>
    if r.kind = 0x10 then s.hubWaits x (.event r.bytes (src.map (·.2))) src
    else if r.kind = 0x07 then
      match (s.usbSeat x).portRec r.bytes with
      | some p => s.hubWaits x (.port r.code p (src.map (·.2))) src
      | none => s
    else s) s

/-- A `RESULTS` message: its items are made, its results act, its port results wait for the root hub. The
flag says that the message is malformed, which takes the link down (R169). -/
def State.takeResults (s : State) (x : Seat) (param0 : Nat) (body : List Byte) (src : Option (Tunnel × Half)) (iso : Bool) :
    State × Bool :=
  match readResults (s.usbSeat x) param0 body with
  | none => (s.bumpSeat x 12 1, true)
  | some l =>
    let (u, l) := freshResults l (s.usbSeat x)
    let s := s.setUsbSeat x u
    let s := s.resultItems x l src iso
    let s := s.hubResults x l src
    ((l.filter fun r => r.kind != 0x10 && r.kind != 0x07).foldl (fun s r => s.applyResult x r) s, false)

/-! ### The virtual root hub (R173 to R178) -/

def chConnect : BitVec 7 := 0x01
def chEnable : BitVec 7 := 0x02
def chSuspend : BitVec 7 := 0x04
def chOvercurrent : BitVec 7 := 0x08
def chReset : BitVec 7 := 0x10
def chWake : BitVec 7 := 0x20
def chRejected : BitVec 7 := 0x40

/-- Set change bits; the first after none makes a port change record (R174). -/
def State.portChange (s : State) (x : Seat) (p : RootPort) (m : BitVec 7) : State :=
  let v := s.rootPort x p
  let s1 := s.setRootPort x p { v with changes := v.changes ||| m }
  let i := s.owner x
  if v.changes = 0 ∧ m ≠ 0 ∧ i.val ≠ 0 then
    let c := s.servingCore x
    let d := x.val + at_ (p.val + 1) 8 + at_ m.toNat 16
    s1.changeRecord c i (recordBytes 0 0 0xFC 0x4E 0 0 d (s.ut c))
  else s1

/-- Place a port record in the next script's port section. -/
def State.placePort (s : State) (x : Seat) (p : RootPort) (op : Byte) (cmd : Option Nat) : State :=
  let u := s.usbSeat x
  s.setUsbSeat x { u with portRecs := u.portRecs ++ [{ port := p, op := op, cmd := cmd }] }

/-- A command ends with a result; a former owner's result is not shown (R173). -/
def State.endPortCmd (s : State) (x : Seat) (p : RootPort) (result : Byte) : State :=
  let v := s.rootPort x p
  if v.busy.isNone then s
  else s.setRootPort x p { v with busy := none, former := false, last := if v.former then v.last else result }

/-- A refused command changes only `LAST_RESULT` and `REJECTED` (R173). -/
def State.refusePort (s : State) (x : Seat) (p : RootPort) (result : Byte) : State :=
  (s.setRootPort x p { s.rootPort x p with last := result }).portChange x p chRejected

/-- A port is switched (`POWER_SWITCHED`). -/
def State.portSwitched (s : State) (x : Seat) (p : RootPort) : Bool := bit (s.portCaps x p) 3

/-- A command is accepted: busy from now, the state before it kept for a refusal of its record. -/
def State.acceptPort (s : State) (x : Seat) (p : RootPort) (k : PortCmd) (st : PortState) (op : Option Byte) : State :=
  let v := s.rootPort x p
  let s := s.setRootPort x p { v with busy := some k, former := false, before := v.st, st := st, cmdNo := v.cmdNo + 1,
                                      byCommand := if k = .resume then op.isSome else v.byCommand }
  match op with
  | some o => s.placePort x p o (some (v.cmdNo + 1))
  | none => s

/-- The command table of R173. -/
def State.portCommand (s : State) (x : Seat) (p : RootPort) (k : PortCmd) : State :=
  let v := s.rootPort x p
  let resuming := v.busy = some .resume ∧ k = .reset
  let offOk := k = .powerOff ∧ s.portSwitched x p ∧ v.st ≠ .notPresent ∧ v.st ≠ .poweredOff
  if v.busy.isSome ∧ (v.former ∨ (¬resuming ∧ ¬offOk)) then s.refusePort x p 0x03
  else
    match k with
    | .reset =>
      match v.st with
      | .resetting => s.refusePort x p 0x03
      | .disabled | .enabled | .suspended =>
        (s.acceptPort x p .reset .resetting (some 1)).closeBehind x p 0x44
      | .resuming =>
        let s := s.setRootPort x p { v with ignoreResume := true }
        let s := s.endPortCmd x p 0x06
        (s.acceptPort x p .reset .resetting (some 1)).closeBehind x p 0x44
      | _ => s.refusePort x p 0x04
    | .suspend =>
      match v.st with
      | .enabled => s.acceptPort x p .suspend .enabled (some 2)
      | .resetting | .resuming => s.refusePort x p 0x03
      | _ => s.refusePort x p 0x04
    | .resume =>
      match v.st with
      | .suspended => s.acceptPort x p .resume .resuming (some 3)
      | .resuming => if v.byCommand then s.refusePort x p 0x03 else s.acceptPort x p .resume .resuming none
      | _ => s.refusePort x p 0x04
    | .disable =>
      match v.st with
      | .enabled => s.acceptPort x p .disable .enabled (some 4)
      | .suspended => s.acceptPort x p .disable .suspended (some 4)
      | .resetting | .resuming => s.refusePort x p 0x03
      | _ => s.refusePort x p 0x04
    | .powerOff =>
      if offOk then (s.endPortCmd x p 0x08).acceptPort x p .powerOff v.st (some 5)
      else s.refusePort x p 0x04
    | .powerOn =>
      match v.st with
      | .poweredOff => s.acceptPort x p .powerOn .poweredOff (some 6)
      | _ => s.refusePort x p 0x04

/-- The port loses its device (R173, R177, R178). -/
def State.portDisconnect (s : State) (x : Seat) (p : RootPort) : State :=
  let v := s.rootPort x p
  let was := v.st = .enabled ∨ v.st = .suspended ∨ v.st = .resuming
  let s := if v.busy = some .powerOn ∨ v.busy = some .powerOff then s else s.endPortCmd x p 0x05
  let v := s.rootPort x p
  let s := s.setRootPort x p { v with st := .disconnected, connected := false, speed := 0 }
  let s := s.closeBehind x p 0x07
  let s := s.portChange x p (if was then chConnect ||| chEnable else chConnect)
  let v := s.rootPort x p
  if v.ssOff && s.gen1Capable x p then (s.setRootPort x p { v with ssOff := false }).placePort x p 8 none else s

/-- The port loses its power (R173). -/
def State.portUnpowered (s : State) (x : Seat) (p : RootPort) (m : BitVec 7) : State :=
  let v := s.rootPort x p
  let conn := if v.connected then chConnect else 0
  let s := s.setRootPort x p { v with st := .poweredOff, power := false, connected := false, speed := 0, powering := false }
  (s.closeBehind x p 0x07).portChange x p (m ||| conn)

/-- A dock event (R168, R173, R177). The events of other pairs are counted and change nothing. -/
def State.portEvent (s : State) (x : Seat) (r : List Byte) : State :=
  let code := fld r 1 1
  let speed := bits (fld r 3 1) 6 4
  let n := fld r 5 1
  let ignored := s.bumpSeat x 17 1
  if code = 0x08 then s.bumpSeat x 18 1
  else if n = 0 ∨ 8 < n then ignored
  else
    let p : RootPort := toFin 7 (n - 1)
    let v := s.rootPort x p
    let linked := v.st = .disabled ∨ v.st = .enabled ∨ v.st = .suspended ∨ v.st = .resuming ∨ v.st = .resetting
    match code with
    | 0x01 =>
      if v.st = .disconnected then
        (s.setRootPort x p { v with st := .disabled, connected := true, speed := speed }).portChange x p chConnect
      else ignored
    | 0x02 => if linked then s.portDisconnect x p else ignored
    | 0x03 =>
      if v.power ∨ v.powering ∨ v.busy = some .powerOn then
        let s := if v.busy = some .powerOff then s else s.endPortCmd x p 0x08
        let s := s.setRootPort x p { s.rootPort x p with overcurrent := true }
        s.portUnpowered x p chOvercurrent
      else ignored
    | 0x04 =>
      if v.overcurrent then (s.setRootPort x p { v with overcurrent := false }).portChange x p chOvercurrent
      else ignored
    | 0x05 =>
      if v.st = .suspended ∨ v.st = .resuming then
        (s.setRootPort x p { v with st := .resuming, byCommand := false }).portChange x p chWake
      else ignored
    | 0x06 =>
      if v.st = .resuming then
        let s := (s.setRootPort x p { v with st := .enabled }).portChange x p chSuspend
        if v.busy = some .resume then s.endPortCmd x p (if v.byCommand then 0x01 else 0x02) else s
      else if v.ignoreResume then s.setRootPort x p { v with ignoreResume := false }
      else ignored
    | 0x07 =>
      if v.st = .resetting then
        let s := s.setRootPort x p { v with st := .enabled, speed := speed, ignoreResume := false }
        (if v.busy = some .reset then s.endPortCmd x p 0x01 else s).portChange x p (chReset ||| chEnable)
      else ignored
    | _ => ignored

/-- The result of a port record (R173). -/
def State.portResult (s : State) (x : Seat) (code : Nat) (r : PortRec) : State :=
  let p := r.port
  let op := r.op.toNat
  let v := s.rootPort x p
  let mine := v.busy.isSome && r.cmd == some v.cmdNo
  if code = 0x06 then s.placePort x p r.op r.cmd
  else
    let s := if code = 0x0D ∨ code = 0x0E then s else s.bumpSeat x 12 1
    if code = 0x0D then
      match op with
      | 2 => if mine && v.st == .enabled then
              (s.setRootPort x p { v with st := .suspended }).endPortCmd x p 0x01
             else s
      | 4 => if mine then (s.setRootPort x p { v with st := .disabled }).endPortCmd x p 0x01 else s
      | 5 =>
        if mine then
          let s := if v.st = .poweredOff then s else s.portUnpowered x p 0
          s.endPortCmd x p 0x01
        else s
      | 6 =>
        let on := v.st == .poweredOff && (mine || (r.cmd.isNone && v.powering))
        let s := if on then s.setRootPort x p { v with st := .disconnected, power := true, powering := false } else s
        if mine then s.endPortCmd x p 0x01 else s
      | _ => s
    else if r.cmd.isNone then (if op = 6 then s.setRootPort x p { v with powering := false } else s)
    else if mine then
      if op = 5 ∧ v.st = .poweredOff then s.endPortCmd x p 0x01
      else (s.setRootPort x p { v with st := if op = 1 ∨ op = 3 then v.before else v.st }).endPortCmd x p 0x04
    else s

/-- A root hub operation of a received frame has ended (R170). -/
def State.hubDone (s : State) (x : Seat) (q : Option Half) : State :=
  match q with
  | some seq => s.actDone x .usb seq
  | none => s

/-- A `FLUSH` has run, and its stream is empty; one whose script came late is placed again, as a port record is (R165,
R167; log entry 86). -/
def State.flushResult (s : State) (x : Seat) (code : Nat) (q : List Byte) : State :=
  let u := s.usbSeat x
  if code = 0x06 then s.setUsbSeat x { u with flushes := u.flushes ++ [q] }
  else (s.setUsbSeat x { u with stale := terase u.stale (streamKey (recAddr q) (recEp q) (recPort q)) }).pumpSeat x

/-- One thing that waits for the root hub. -/
def State.hubStep (s : State) (x : Seat) (o : HubOp) : State :=
  match o with
  | .cmd i p (some k) => if s.owner x = i then s.portCommand x p k else s
  | .cmd i p none => if s.owner x = i then s.refusePort x p 0x07 else s
  | .event r q => (s.portEvent x r).hubDone x q
  | .port code r q => (s.portResult x code r).hubDone x q
  | .flush code q => s.flushResult x code q

/-- A root hub operation on the seat's flow: what waits is carried out in order, between the flow's items
(R173). -/
def State.hubOperation (s : State) (x : Seat) : State :=
  if s.flowHeld (s.servingCore x) (BitVec.ofNat 24 x.val) then s
  else
    let u := s.usbSeat x
    u.hubOps.foldl (fun s o => s.hubStep x o) (s.setUsbSeat x { u with hubOps := [] })

def execRootHubOperation (x : Seat) (s : State) : Host.Outcome State Fault Refusal :=
  .next (s.hubOperation x)

/-- Whether an islet window of a function presents a seat's root port (02 R28, 06, virtual root hub). -/
def State.presents (s : State) (f : FnId) (i : IsletNo) (x : Seat) : Bool :=
  s.fnUp f && i.val != 0 && (s.islet i).boundVia f && s.owner x == i

/-- A write with `GO` submits a command (R173). -/
def State.submitPort (s : State) (f : FnId) (i : IsletNo) (x : Seat) (p : RootPort) (k : Option PortCmd) : State :=
  if s.presents f i x then
    let u := s.usbSeat x
    s.setUsbSeat x { u with hubOps := u.hubOps ++ [.cmd i p k] }
  else s

def execRootPortReset (f : FnId) (i : IsletNo) (x : Seat) (p : RootPort) (s : State) :
    Host.Outcome State Fault Refusal := .next (s.submitPort f i x p (some .reset))
def execRootPortSuspend (f : FnId) (i : IsletNo) (x : Seat) (p : RootPort) (s : State) :
    Host.Outcome State Fault Refusal := .next (s.submitPort f i x p (some .suspend))
def execRootPortResume (f : FnId) (i : IsletNo) (x : Seat) (p : RootPort) (s : State) :
    Host.Outcome State Fault Refusal := .next (s.submitPort f i x p (some .resume))
def execRootPortDisable (f : FnId) (i : IsletNo) (x : Seat) (p : RootPort) (s : State) :
    Host.Outcome State Fault Refusal := .next (s.submitPort f i x p (some .disable))
def execRootPortPowerOff (f : FnId) (i : IsletNo) (x : Seat) (p : RootPort) (s : State) :
    Host.Outcome State Fault Refusal := .next (s.submitPort f i x p (some .powerOff))
def execRootPortPowerOn (f : FnId) (i : IsletNo) (x : Seat) (p : RootPort) (s : State) :
    Host.Outcome State Fault Refusal := .next (s.submitPort f i x p (some .powerOn))

/-- Commands 0 and 7: the root hub operation refuses them with `BAD_COMMAND` (R173), also while `BUSY` reads 1
(DESIGN CHOICE, log entry 100). -/
def execRootPortBadCommand (f : FnId) (i : IsletNo) (x : Seat) (p : RootPort) (s : State) :
    Host.Outcome State Fault Refusal := .next (s.submitPort f i x p none)

/-- A write of 1 to change bits clears them (R173). -/
def State.clearPortChange (s : State) (f : FnId) (i : IsletNo) (x : Seat) (p : RootPort) (b : BitVec 7) : State :=
  if s.presents f i x then
    let v := s.rootPort x p
    s.setRootPort x p { v with changes := v.changes &&& ~~~b }
  else s

def execRootPortChangeClear (f : FnId) (i : IsletNo) (x : Seat) (p : RootPort) (bits : BitVec 7) (s : State) :
    Host.Outcome State Fault Refusal := .next (s.clearPortChange f i x p bits)

/-- The ports of a seat. -/
def allRootPorts : List RootPort := List.finRange 8

/-- A flush of the seat: every port reads `NOT_PRESENT` (R173, 07 R210). -/
def State.flushPorts (s : State) (x : Seat) : State :=
  allRootPorts.foldl (fun s p =>
    let v := s.rootPort x p
    let s := s.endPortCmd x p 0x05
    let s := s.setRootPort x p { s.rootPort x p with st := .notPresent, connected := false, speed := 0, power := false, overcurrent := false, powering := false }
    if v.connected then s.portChange x p chConnect else s) s

/-- An islet gains a seat: its root port registers start afresh (R173). -/
def State.freshPorts (s : State) (x : Seat) : State :=
  allRootPorts.foldl (fun s p =>
    let v := s.rootPort x p
    let s := s.setRootPort x p { v with changes := 0, last := 0, former := v.busy.isSome }
    if v.connected then s.portChange x p chConnect else s) s

/-- The rate falls below 10 Gb/s: Gen 1 ports go SuperSpeed off (R178). -/
def State.gen1Fall (s : State) (x : Seat) : State :=
  allRootPorts.foldl (fun s p =>
    if bit (s.portCaps x p) 2 && (s.rootPort x p).st != .notPresent && !(s.rootPort x p).ssOff then
      let s := (s.setRootPort x p { s.rootPort x p with ssOff := true }).placePort x p 7 none
      if (s.rootPort x p).speed = 4 ∧ (s.rootPort x p).connected then s.portDisconnect x p else s
    else s) s

/-- The rate is back at 10 Gb/s or more: SuperSpeed on where no device is (R178). -/
def State.gen1Rise (s : State) (x : Seat) : State :=
  allRootPorts.foldl (fun s p =>
    let v := s.rootPort x p
    if v.ssOff && (v.st == .poweredOff || v.st == .disconnected) then
      (s.setRootPort x p { v with ssOff := false }).placePort x p 8 none
    else s) s

/-! ### The dock profile (R150, R151) -/

/-- The first offset of a profile body that R150 refuses, `none` where it is accepted. -/
def profileBad (b : List Byte) : Option Nat :=
  let ports := fld b 1 1
  let caps := slice b 16 8
  let badCap := (List.range 8).find? fun p =>
    let v := ((caps[p]?).getD 0).toNat
    if p < ports then v % 4 == 0 || v % 4 == 3 || bits v 7 4 != 0 else v != 0
  if b.length < 32 then some b.length
  else if fld b 0 1 ≠ 1 then some 0
  else if 8 < ports then some 1
  else if fld b 2 1 < 3 ∨ 8 < fld b 2 1 then some 2
  else if fld b 3 1 ≠ 0 then some 3
  else if fld b 4 2 < 64 then some 4
  else if fld b 6 2 < 64 then some 6
  else
    match badCap with
    | some p => some (16 + p)
    | none => if allZero (slice b 24 8) then none else some (24 + ((slice b 24 8).takeWhile (· == 0)).length)

def profileOf (b : List Byte) : Profile :=
  { rootPorts := fld b 1 1, depth := fld b 2 1, maxRecords := min 256 (fld b 4 2),
    outKib := min 8192 (fld b 6 2), hsWindow := min 59600 (fld b 8 4), gen1Bytes := min 62500 (fld b 12 4),
    caps := slice b 16 8 }

/-- SuperSpeed of a `GEN1` port of a new profile: off below 10 Gb/s, and on again where it was off before (R178; log
entry 101). -/
def State.profileSuper (s : State) (x : Seat) (p : RootPort) : State :=
  let v := s.rootPort x p
  if !bit (s.portCaps x p) 2 then s.setRootPort x p { v with ssOff := false }
  else if !s.gen1Capable x p then (s.setRootPort x p { v with ssOff := true }).placePort x p 7 none
  else if v.ssOff then (s.setRootPort x p { v with ssOff := false }).placePort x p 8 none
  else s

/-- The ports of an accepted profile: the unit's `POWER_ON` runs for switched ports, which shows no `BUSY`; the others
start `DISCONNECTED` with their power on (R151; DESIGN CHOICE, log entry 102). -/
def State.profilePorts (s : State) (x : Seat) (f : Profile) : State :=
  allRootPorts.foldl (fun s p =>
    let caps := ((f.caps[p.val]?).getD 0).toNat
    let o := s.rootPort x p
    let v := { RootPortSt.init with changes := o.changes, last := o.last, cmdNo := o.cmdNo, ssOff := o.ssOff }
    if f.rootPorts ≤ p.val then s.setRootPort x p { v with ssOff := false }
    else if bit caps 3 then ((s.setRootPort x p { v with st := .poweredOff, powering := true }).placePort x p 6 none).profileSuper x p
    else (s.setRootPort x p { v with st := .disconnected, power := true }).profileSuper x p) s

def seatName (x : Seat) : List Byte := ascii "S" ++ decPad 2 x.val

/-- A `PROFILE` message (R150, R151). -/
def State.takeProfile (s : State) (x : Seat) (b : List Byte) : State :=
  let u := s.usbSeat x
  if (s.link_ x).st ≠ .up ∨ u.profileSeen then s.bumpSeat x 12 1
  else
    match profileBad b with
    | some o =>
      (s.setUsbSeat x { u with profileSeen := true, profile := none }).logLine
        (ascii "seat " ++ seatName x ++ ascii " profile refused at offset " ++ dec o)
    | none =>
      let f := profileOf b
      (s.setUsbSeat x { u with profileSeen := true, profile := some f }).profilePorts x f

def execProfile (x : Seat) (body : List Byte) (s : State) : Host.Outcome State Fault Refusal :=
  .next (s.takeProfile x body)

end Sys2Proof.Machine
end

