-- ==== Sys2Proof/Machine/Votes.lean ====
section
/-! DEFINITION. Power domains: the votes, the targets and what blocks them (11 R304 to R306, R309). -/

namespace Sys2Proof.Machine

def DomState.rank : DomState → Nat
  | .off => 0
  | .retention => 1
  | .on => 2

def DomState.ofRank (n : Nat) : DomState := if n = 0 then .off else if n = 1 then .retention else .on

/-- Domains that may be off, and that may be in retention (domain table). -/
def mayOff (d : Nat) : Bool := decide ((2 ≤ d ∧ d ≤ 23) ∨ d = 26)

/-- A target that a domain does not allow acts as the next state above it (R304). -/
def allowed (d : Nat) (t : DomState) : DomState :=
  if d = 0 then .on else if t = .off ∧ !mayOff d then .retention else t

/-! ### Votes (R305, R306) -/

/-- A seat holds a vote on a core (R305). -/
def State.seatVotes (s : State) (c : CoreId) (x : Seat) : Bool :=
  s.servingCore x == c &&
    match s.linkState x with
    | .noPartner => false
    | .foreign => false
    | .disabled => false
    | _ => true

/-- A seat vote is held for a domain. -/
def State.seatVoteFor (s : State) (c : CoreId) (d : Nat) : Bool :=
  if d = 27 ∨ (18 ≤ d ∧ d ≤ 23) then allSeats.any fun x => s.seatVotes c x
  else if 10 ≤ d ∧ d ≤ 17 then allSeats.any fun x => x.val / 8 == d - 10 && s.seatVotes c x
  else if 2 ≤ d ∧ d ≤ 5 then allSeats.any fun x => ((s.dispatch c).seatHome x).val == d - 2 && s.seatVotes c x
  else false

/-- The function of a core on a port, for HP0 and HP1. -/
def hpFn (c : CoreId) (d : Nat) : FnId := { port := if d = 24 then .h0 else .h1, core := c }

/-- Heads attached on a core. -/
def State.headsOn (s : State) (c : CoreId) : Nat :=
  (s.disp.heads.filter fun e => e.2.st == .attached && s.servingCore (toSeat (e.1 / 2)) == c).length

/-- The supervisor holds its votes from the completion of a start on (R306; log entry 111). -/
def State.votesHeld (s : State) : Bool := s.mode.mode != .unpowered && !s.mode.mode.isStart

/-- 10 s into a SAFE STOP of cause 3, the domains of the hot core but AO, SUP and the DRAM channels are kept in retention
(12 R336). -/
def State.heldHot (s : State) (c : CoreId) (d : Nat) : Bool :=
  s.mode.mode == .safeStop && s.mode.stopHot == some c && !(decide (d ≤ 1) || decide (18 ≤ d ∧ d ≤ 23))

/-- The supervisor's vote in service (R306): 0 none, 1 retention, 2 on. -/
def State.supVote (s : State) (c : CoreId) (d : Nat) : Nat :=
  if !s.votesHeld then 0
  else if d = 1 ∨ d = 27 ∨ d = 26 ∨ (18 ≤ d ∧ d ≤ 23) ∨ (2 ≤ d ∧ d ≤ 5) then 2
  else if d = 24 ∨ d = 25 then (if (s.fnSt (hpFn c d)).link == .up then 2 else 0)
  else if 6 ≤ d ∧ d ≤ 9 then (if d - 6 < cdiv (s.headsOn c) 32 then 2 else 1)
  else if 10 ≤ d ∧ d ≤ 17 then (if allSeats.any fun x => x.val / 8 == d - 10 && s.servingCore x != c then 1 else 0)
  else 0

/-- The highest vote held for a domain; with none, off (R305). -/
def State.domTarget (s : State) (c : CoreId) (d : Nat) : DomState :=
  let x := s.domain c d
  let v (b : BitVec 2) : Nat := min 2 b.toNat
  let n := max (max (v x.policy) (v x.managerH0)) (max (v x.managerH1) (max (s.supVote c d) (if s.seatVoteFor c d then 2 else 0)))
  allowed d (DomState.ofRank n)

/-! ### Blocks (R306) -/

/-- An item of a home cluster is ready, staged, pre-empted or suspended. -/
def State.clusterWork (s : State) (c : CoreId) (cl : Nat) : Bool :=
  (s.dispatch c).ready.any (fun (i : Item) => i.home.val == cl) ||
  (s.dispatch c).suspended.any (fun (r : Run × Fin 4) => r.2.val == cl) ||
  (clusterTes (toFin 3 cl)).any fun t => !(s.teSt c t).runs.isEmpty

/-- An unmasked source targets a TE of a cluster. -/
def State.clusterEvents (s : State) (c : CoreId) (cl : Nat) : Bool :=
  let e := s.evtCore c
  e.mask.any (fun m => (List.range 64).any fun b =>
    !m.2.getLsbD b && decide (bits (e.src (64 * m.1 + b)).toNat 5 0 < 32 ∧ bits (e.src (64 * m.1 + b)).toNat 5 0 / 8 = cl)) ||
  e.privMask.any fun m => decide (m.1 < 32 ∧ m.1 / 8 = cl ∧ m.2 &&& 0xFFFFFFFF ≠ 0xFFFFFFFF)

/-- A channel or pipe of a display group holds work. -/
def State.groupWork (s : State) (c : CoreId) (g : Nat) : Bool :=
  (List.range 4).any fun k => (s.gather c (4 * g + k)).busy.isSome || (s.pipe c (4 * g + k)).isSome

/-- Why a domain may not be in a state; 0 for no block. -/
def State.blockOf (s : State) (c : CoreId) (d : Nat) (t : DomState) : Nat :=
  if t = .on then 0
  else if 2 ≤ d ∧ d ≤ 5 then
    if t ≠ .off then 0
    else if s.clusterWork c (d - 2) then 1
    else if s.clusterEvents c (d - 2) then 2
    else if allSeats.any (fun x => s.servingCore x == c && ((s.dispatch c).seatHome x).val == d - 2) then 3
    else 0
  else if 6 ≤ d ∧ d ≤ 9 then (if s.groupWork c (d - 6) then 1 else 0)
  else if 10 ≤ d ∧ d ≤ 17 then
    if allSeats.any (fun x => x.val / 8 == d - 10 && s.seatVotes c x) then 3
    else if t == .off && s.causewayUp && allSeats.any (fun x => x.val / 8 == d - 10 && s.servingCore x != c) then 4
    else 0
  else if 18 ≤ d ∧ d ≤ 23 then (if t = .off ∧ s.mode.mode ≠ .safeStop then 5 else 0)
  else if d = 24 ∨ d = 25 then (if (s.fnSt (hpFn c d)).link == .up && !(s.fnSt (hpFn c d)).aspmL1 then 6 else 0)
  else if d = 26 then (if s.serves c.twin then 4 else 0)
  else if d = 27 then
    (if (List.range 27).any fun k => decide (2 ≤ k ∧ ¬(18 ≤ k ∧ k ≤ 23)) && (s.domain c k).st == .on then 7 else 0)
  else 0

/-- The lowest state at or above the target that nothing blocks, and the block met (R306). -/
def State.domGoal (s : State) (c : CoreId) (d : Nat) (t : DomState) : DomState × Nat :=
  let b := s.blockOf c d t
  if b = 0 then (t, 0)
  else if t = .off then
    (let b' := s.blockOf c d .retention
     if b' = 0 then (.retention, b) else (.on, b))
  else (.on, b)

/-! ### Targets (R305 to R307, R309) -/

/-- A domain that is in no transition moves towards its goal. A woken domain stays on while its hold lasts. -/
def State.moveDomain (s : State) (c : CoreId) (d : Nat) : State :=
  let x := s.domain c d
  if x.going.isSome || s.railWaits c d || (s.heldHot c d && x.st == .off) then s
  else
    let (goal, b) := if s.heldHot c d then (.retention, 0) else s.domGoal c d x.target
    let new' := b ≠ 0 ∧ x.block = 0
    let s := s.setDomain c d { x with block := BitVec.ofNat 4 b }
    let s := if new' then s.edge c 889 else s
    if goal.rank = x.st.rank then s
    else if x.st.rank < goal.rank then s.startExit c d
    else if x.holdUntil.isSome then s
    else
      let x := s.domain c d
      s.setDomain c d { x with going := some (goal, s.ut c + entryTime d (goal == .off)) }

/-- Evaluate a domain's target; a change during a transition becomes the pending target (R305, R309). Before a start is
complete the targets stay as they reset (log entry 111). -/
def State.settleDomain (s : State) (c : CoreId) (d : Nat) : State :=
  let x := s.domain c d
  let t := s.domTarget c d
  if !s.votesHeld then s
  else if s.heldHot c d then s.moveDomain c d
  else if t = x.target then s.moveDomain c d
  else if x.going.isSome || s.railWaits c d then s.setDomain c d { x with target := t, pendingT := some t }
  else (s.setDomain c d { x with target := t }).moveDomain c d

/-- Evaluate the domains that a seat's votes reach, on both cores. -/
def State.settleSeat (s : State) (x : Seat) : State :=
  bothCores.foldl (fun s c => (s.settleDomain c (10 + x.val / 8)).settleDomain c (2 + ((s.dispatch c).seatHome x).val)) s

/-- Evaluate every domain of both cores. -/
def State.settleAll (s : State) : State := bothCores.foldl (fun s c => (List.range 28).foldl (fun s d => s.settleDomain c d) s) s

/-- The work of a display group that was woken has ended: it stays on for 100 µs more, and its target is evaluated again
(R306, R307). -/
def State.groupEnds (before s : State) (c : CoreId) (g : Nat) : State :=
  if before.groupWork c g && !s.groupWork c g then
    let x := s.domain c (6 + g)
    (if x.holdUntil.isSome then s.setDomain c (6 + g) { x with holdUntil := some (s.ut c + 100000) } else s).settleDomain c (6 + g)
  else s

/-- Evaluate the display groups of a core after its heads change. -/
def State.settleGroups (s : State) (c : CoreId) : State := [6, 7, 8, 9].foldl (fun s d => s.settleDomain c d) s

end Sys2Proof.Machine
end

