-- ==== Sys2Proof/Machine/Display.lean ====
section
/-! DEFINITION. The display service (08): heads, gathers, slices, viewers, the status screen. -/

namespace Sys2Proof.Machine

/-! ### Geometry (R222) -/

/-- The slice height Y. -/
def sliceHeight (v : Nat) : Nat := 8 * cdiv (cdiv v 32) 8
def sliceRows (v : Nat) : Nat := cdiv v (sliceHeight v)
def sliceBytes (h v bpp : Nat) : Nat := sliceHeight v * cdiv (h / 4 * bpp) 8
/-- The charge of a head in MiB (R224). -/
def headCharge (h v bpp : Nat) : Nat := cdiv (4 * h * v + 4 * sliceRows v * sliceBytes h v bpp) (2 ^ 20)

/-- Every slice position of a picture. -/
def allPositions (v : Nat) : List Nat := List.range (4 * sliceRows v)

/-- Slice p intersects tile t; a tile is named x + 65536 y as in the index table. -/
def sliceTouches (h v p t : Nat) : Bool :=
  let x := t % 65536
  let y := t / 65536
  let c := p % 4
  let r := p / 4
  let yy := sliceHeight v
  decide (64 * x < (c + 1) * (h / 4) ∧ c * (h / 4) < min (64 * x + 64) h ∧
    64 * y < (r + 1) * yy ∧ r * yy < min (64 * y + 64) v)

/-- The pixels that slice p encodes: lines beyond V - 1 repeat it. -/
def slicePixels (f : Tab (BitVec 24)) (h v p : Nat) : List (BitVec 24) :=
  let c := p % 4
  let r := p / 4
  let yy := sliceHeight v
  ((List.range yy).map fun j => (List.range (h / 4)).map fun k =>
    tget f (c * (h / 4) + k + 4096 * min (r * yy + j) (v - 1)) 0).flatten

/-- The settings of every head's encoding (R232): RGB at 8 bits per component, the encoded picture and slices of R222. -/
def dscSettings (h v bpp : Nat) : DscSettings :=
  { convertRgb := true, bitsPerComponent := 8, blockPrediction := true, lineBufferDepth := 9, native422 := false, native420 := false,
    bitsPerPixel := bpp, pictureWidth := h, pictureHeight := sliceRows v * sliceHeight v, sliceWidth := h / 4,
    sliceHeight := sliceHeight v, rateControl := Config.dscRateControl bpp }

/-- The 128-byte picture parameter set of a geometry (R232). -/
def ppsBytes (h v bpp : Nat) : List Byte := (List.range 128).map fun k => Config.ppsByte (dscSettings h v bpp) k

/-- The encoding of a slice of a reference frame (R232). -/
def encodeSlice (f : Tab (BitVec 24)) (h v bpp p : Nat) : List Byte :=
  let pps := ppsBytes h v bpp
  let px := slicePixels f h v p
  (List.range (sliceBytes h v bpp)).map fun k => Config.dscByte pps px k

/-! ### Viewers (R234, R236) -/

/-- The head that a seat output shows: its broadcast source, else its own (R234). -/
def State.shown (s : State) (o : HeadNo) : HeadNo :=
  match (s.view o).source with
  | some (_, h) => h
  | none => o

/-- The viewers of a head. -/
def State.viewers (s : State) (h : HeadNo) : List HeadNo :=
  (List.finRange 128).filter fun o =>
    if o == h then (s.view o).source.isNone
    else match (s.view o).source with
      | some (_, h') => h' == h
      | none => false

/-- An output that does not show an attached head shows the status screen (R241). -/
def State.showsScreen (s : State) (o : HeadNo) : Bool :=
  let l := (s.link_ (headSeat o)).st
  (s.head (s.shown o)).st != .attached || (s.owner (headSeat o)).val == 0 || l == .unenrolled ||
    l == .authFailed || s.mode.mode == .orphaned || s.mode.mode == .safeStop

/-- Change bits of `HEAD_STATUS`: `SOURCE_CHANGE`, `APPLIED_CHANGE`, `REFRESH_CHANGE`, `MONITOR_CHANGE`. -/
def hcSource : BitVec 4 := 1
def hcApplied : BitVec 4 := 2
def hcRefresh : BitVec 4 := 4
def hcMonitor : BitVec 4 := 8

/-- Set a change bit; the first after none makes a head change record (R244). -/
def State.headChange (s : State) (o : HeadNo) (m : BitVec 4) : State :=
  let v := s.view o
  let s1 := s.setView o { v with changes := v.changes ||| m }
  let x := headSeat o
  let i := s.owner x
  let c := s.servingCore x
  let s1 := s1.edge c (128 + o.val)
  if v.changes = 0 ∧ i.val ≠ 0 then
    let d := o.val + at_ m.toNat 8 + at_ v.applied.toNat 16
    s1.changeRecord c i (recordBytes 0 0 0xFB 0x58 0 0 d (s.ut c))
  else s1

/-! ### Messages to the dock (R237) -/

def dispMsg (code : Nat) (l : Fin 2) (p0 p1 : Nat) (body : List Byte) : List Byte :=
  leBytes 1 code ++ leBytes 1 l.val ++ leBytes 2 body.length ++ leBytes 4 p0 ++ leBytes 4 p1 ++ leBytes 4 0 ++ body

/-- A DISP message of a head as the display engine hands it over (09 R246: input 124 + head mod 16). -/
def dispHand (shown : HeadNo) (l : Fin 2) (acct : Nat) (ends : Bool) (b : List Byte) : Hand :=
  { Hand.plain b acct (124 + shown.val % 16) with local_ := l.val, ends := ends }

/-- Hand a DISP message to a seat output. -/
def State.sendDisp (s : State) (o shown : HeadNo) (acct : Nat) (ends : Bool) (b : List Byte) : State :=
  s.queueFrame (headSeat o) .disp (dispHand shown (localHead o) acct ends b)

def Timing.bytes (t : Timing) : List Byte :=
  leBytes 2 t.h ++ leBytes 2 t.v ++ leBytes 4 t.clock ++ leBytes 2 t.ht ++ leBytes 2 t.vt ++ leBytes 2 t.hf ++
  leBytes 2 t.hs ++ leBytes 1 t.vf ++ leBytes 1 t.vs ++ leBytes 1 (t.flags.toNat % 4) ++ leBytes 1 0

/-- Send `HEAD_CONFIG` with the seat's next config number; an `ATTACH` entry may wait for its answer (R237,
R238), and one that waits already goes on waiting for its own. -/
def State.sendConfig (s : State) (o : HeadNo) (t : Timing) (pps : List Byte) (acct : Nat) (waits : Option Nat) : State :=
  let x := headSeat o
  let n := tget s.disp.configNos x.val 0 + 1
  let s := s.setDisp { s.disp with configNos := tset s.disp.configNos x.val n 0 }
  let v := s.view o
  let s := s.setView o { v with config := match v.config, waits with
    | some (m, some k), none => some (m, some k)
    | _, _ => some (n, waits) }
  s.sendDisp o o acct false (dispMsg 0x01 (localHead o) n.toNat 0 (t.bytes ++ pps))

/-- An `ATTACH` that waits for `CONFIG_DONE` of an output, or for its `HEAD_CONFIG` to be sent, ends (log entry 34). -/
def State.dropConfig (s : State) (o : HeadNo) (status : Nat) : State :=
  let v := s.view o
  let s := s.setView o { v with config := none, owed := v.owed.map fun w => (w.1, w.2.1, w.2.2.1, none) }
  let s := match v.config with
    | some (_, some k) => s.finish k status 0 0
    | _ => s
  match v.owed with
  | some (_, _, _, some k) => s.finish k status 0 0
  | _ => s

/-- `HEAD_CONFIG` of an output whose own head is attached: that head's timing, the parameter set of the head shown (R224,
R236). -/
def State.configFor (s : State) (o : HeadNo) (waits : Option Nat) : State :=
  let own := s.head o
  let d := s.head (s.shown o)
  s.sendConfig o own.timing (ppsBytes d.timing.h d.timing.v d.bpp) own.islet.val waits

/-! ### Multicast groups of broadcast heads (R236; 09 R257, R258) -/

/-- The multicast group of a broadcast head for the outputs of one local number: their messages carry that number, so one
frame serves them all (log entry 107). -/
def groupOf (h : HeadNo) (l : Fin 2) : Fin 256 := toFin 255 (h.val + 128 * l.val)

/-- What a core's group of a head holds: the outputs that view the head, and on the head's own core the copy for the
twin. -/
def State.wantGroup (s : State) (c : CoreId) (h : HeadNo) (l : Fin 2) : W64 × Bool × Bool :=
  let d := s.head h
  if d.st = .attached ∧ d.bcastSrc then
    let mine := (s.viewers h).filter fun o => localHead o == l
    let seats := (mine.filter fun o => s.servingCore (headSeat o) == c).foldl (fun m o => m ||| (1#64 <<< (headSeat o).val)) 0#64
    let away := mine.any fun o => s.servingCore (headSeat o) != c
    (seats, true, s.servingCore (headSeat h) == c && s.twinUp && (l == 0 || away))
  else (0, false, false)

/-- The display engine writes the groups of a head that no longer hold what they should. -/
def State.regroup (s : State) (h : HeadNo) : State :=
  (bothCores.filter s.serves).foldl (fun s c => [(0 : Fin 2), 1].foldl (fun s l =>
    let x := (s.fabCore c).group (groupOf h l).val
    let w := s.wantGroup c h l
    if (x.seats, x.valid, x.causeway) = w then s else s.landGroup c (groupOf h l).val w.1 w.2.1 w.2.2) s) s

/-- The generation whose predecessors must retire before `HEAD_CONFIG` goes to an output that a write has taken out of a
head's group (09 R258). -/
def State.mustRetire (before after : State) (o h : HeadNo) : Option (CoreId × Fin 256 × Byte) :=
  let x := headSeat o
  let c := before.servingCore x
  let g := groupOf h (localHead o)
  let was := (before.fabCore c).group g.val
  let now := (after.fabCore c).group g.val
  if was.seats.getLsbD x.val && !now.seats.getLsbD x.val && !now.inside.isEmpty then some (c, g, now.gen) else none

/-- Every generation before one has retired. -/
def State.retiredBefore (s : State) (c : CoreId) (g : Fin 256) (n : Byte) : Bool :=
  let x := (s.fabCore c).group g.val
  x.inside.all fun m => decide ((x.gen - m).toNat ≤ (x.gen - n).toNat)

/-- Configure an output that showed head `h` before: at once, or when its old group's generations have retired. -/
def State.reconfigure (before s : State) (o h : HeadNo) (waits : Option Nat) : State :=
  match before.mustRetire s o h with
  | some (c, g, n) => s.setView o { s.view o with owed := some (c, g, n, waits) }
  | none => (s.setView o { s.view o with owed := none }).configFor o waits

/-- Send a `HEAD_CONFIG` that waited for a generation to retire; `now`: without waiting, where the fabric that held its
frames is gone. -/
def State.sendOwed (s : State) (o : HeadNo) (now : Bool) : State :=
  match (s.view o).owed with
  | some (c, g, n, k) =>
    if now || s.retiredBefore c g n then
      let s := s.setView o { s.view o with owed := none }
      if (s.head o).st = .attached then s.configFor o k else s
    else s
  | none => s

/-- The timing of the status screen (R241). -/
def defaultTiming : Timing :=
  { h := 1920, v := 1080, clock := 148500, ht := 2200, vt := 1125, hf := 88, hs := 44, vf := 4, vs := 5, flags := 3 }

/-- Whether a timing lies within R223. -/
def timingOk (t : Timing) : Bool :=
  t.h % 8 == 0 && decide (640 ≤ t.h ∧ t.h ≤ 3840 ∧ 480 ≤ t.v ∧ t.v ≤ 2160 ∧ 25000 ≤ t.clock ∧ t.clock ≤ 600000 ∧
    t.h + t.hf + t.hs + 8 ≤ t.ht ∧ t.ht ≤ 8192 ∧ t.v + t.vf + t.vs + 1 ≤ t.vt ∧ t.vt ≤ 4096 ∧
    1 ≤ t.hf ∧ t.hf ≤ 1023 ∧ 1 ≤ t.hs ∧ t.hs ≤ 1023 ∧ 1 ≤ t.vf ∧ t.vf ≤ 255 ∧ 1 ≤ t.vs ∧ t.vs ≤ 255)

/-- The first detailed timing of an EDID as ten numbers in the order of `HEAD_CONFIG`. -/
def timingOfEdid (e : List Byte) : Option Timing :=
  match Config.edidTiming e with
  | some [h, v, ck, ht, vt, hf, hs, vf, vs, fl] =>
    some { h := h, v := v, clock := ck, ht := ht, vt := vt, hf := hf, hs := hs, vf := vf, vs := vs, flags := BitVec.ofNat 8 fl }
  | _ => none

def State.screenTiming (s : State) (o : HeadNo) : Timing :=
  match timingOfEdid (s.view o).edid with
  | some t => if timingOk t then t else defaultTiming
  | none => defaultTiming

/-- Seconds left in SAFE STOP before seat power goes off (12 R336). -/
def State.stopLeft (s : State) : Nat := cdiv (s.mode.stopUt + 10000 * ms - s.now) (1000 * ms)

/-- What the status screen shows: unit, seat, local head, mode, link state, `DOCK_ID`'s last four digits, and
in SAFE STOP the seconds left (R241), during a start its step (12 R337). -/
def State.screenFacts (s : State) (o : HeadNo) : List Nat :=
  let x := headSeat o
  let l := s.link_ x
  [s.host.unitIndex.toNat, x.val, (localHead o).val, s.mode.mode.code, l.st.code,
    l.dockId.toNat % 65536] ++ (if s.mode.mode = .safeStop then [s.stopLeft] else []) ++ s.startStep.toList

/-- `REFRESH_REQUIRED` of a head becomes 1 (R224, R240). -/
def State.needRefresh (s : State) (h : HeadNo) : State :=
  if (s.head h).refresh then s else (s.setHead h { s.head h with refresh := true }).headChange h hcRefresh

/-! ### Bodies (R223, R225, R226) -/

def headBody (b : List Byte) : Option Byte :=
  let op := fld b 10 1
  if fld b 31 1 ≠ 0 then some reservedNz
  else if op = 1 ∧ bits (fld b 30 1) 7 3 ≠ 0 then some reservedNz
  else if op = 5 ∧ bits (fld b 14 2) 15 1 ≠ 0 then some reservedNz
  else if op ≠ 1 ∧ !allZero (if op = 4 then slice b 24 8 else slice b 16 16) then some reservedNz
  else if 63 < fld b 8 1 ∨ 1 < fld b 9 1 ∨ op = 0 ∨ 5 < op then some badBody
  else if op = 1 then
    let t : Timing :=
      { h := fld b 12 2, v := fld b 14 2, clock := fld b 16 4, ht := fld b 20 2, vt := fld b 22 2,
        hf := fld b 24 2, hs := fld b 26 2, vf := fld b 28 1, vs := fld b 29 1, flags := 0 }
    let bpp := fld b 11 1
    if timingOk t && (bpp == 0 || decide (6 ≤ bpp ∧ bpp ≤ 12)) then none else some badBody
  else if fld b 11 1 ≠ 0 then some badBody
  else if op = 5 then
    let i := fld b 12 2 % 256
    if i = 0 ∨ 128 < i ∨ 127 < fld b 12 2 / 256 then some badBody else none
  else if fld b 12 4 ≠ 0 then some badBody
  else if op = 4 ∧ fld b 16 8 % 64 ≠ 0 then some badBody
  else none

/-- Bytes per pixel of a format and swap pair; none for a pair that R226 does not list. -/
def pixelBytes (format swap : Nat) : Option Nat :=
  if (format = 1 ∨ format = 2) ∧ (swap = 0 ∨ swap = 1) then some 4
  else if format = 3 ∧ (swap = 0 ∨ swap = 2) then some 2 else none

/-- The body of a `DISPLAY_FRAME`; the head's limits are checked only for an attached head (R225). -/
def frameBody (b : List Byte) (geometry : Option (Nat × Nat)) : Option Byte :=
  let n := fld b 28 4
  let full := bit (fld b 12 1) 0
  if bits (fld b 12 1) 7 1 ≠ 0 ∨ !allZero (slice b 13 3) ∨ !allZero (slice b 40 24) then some reservedNz
  else if 63 < fld b 8 1 ∨ 1 < fld b 9 1 ∨ fld b 16 8 % 64 ≠ 0 ∨ fld b 32 8 % 4 ≠ 0 then some badBody
  else
    match pixelBytes (fld b 10 1) (fld b 11 1) with
    | none => some badBody
    | some k =>
      if (full ∧ n ≠ 0) ∨ (n = 0 ∧ fld b 32 8 ≠ 0) then some badBody
      else
        match geometry with
        | none => none
        | some (h, v) =>
          if fld b 24 4 % 64 ≠ 0 ∨ 1048576 < fld b 24 4 ∨ fld b 24 4 < h * k ∨ tileCount h v < n then some badBody else none

/-! ### Gather (R227, R228, R230, R231) -/

/-- One pixel of host memory as red, green, blue (R226). -/
def pixelOf (format swap : Nat) (b : List Byte) : BitVec 24 :=
  let at' (k : Nat) : Nat := fld b k 1
  let rgb (r g bl : Nat) : BitVec 24 := BitVec.ofNat 24 (bl + 256 * g + 65536 * r)
  if format = 3 then
    let w := if swap = 2 then at' 1 + 256 * at' 0 else at' 0 + 256 * at' 1
    let r := bits w 15 11
    let g := bits w 10 5
    let bl := bits w 4 0
    rgb (8 * r + r / 4) (4 * g + g / 16) (8 * bl + bl / 4)
  else
    let k (n : Nat) : Nat := at' (if swap = 1 then 3 - n else n)
    if format = 1 then rgb (k 2) (k 1) (k 0) else rgb (k 0) (k 1) (k 2)

/-- Place a line of pixels into a frame. -/
def putPixels (format swap k : Nat) : Nat → Nat → List Byte → Tab (BitVec 24) → Tab (BitVec 24)
  | 0, _, _, f => f
  | n + 1, at', b, f => putPixels format swap k n (at' + 1) (b.drop k) (tset f at' (pixelOf format swap (b.take k)) 0)

/-- A read belongs to a channel. -/
def HostRead.ofChannel (r : HostRead) (c : CoreId) (ch : Fin 16) : Bool :=
  match r.why with
  | .gatherIndex c' g => c' == c && g == ch
  | .gatherLine c' g _ _ _ _ => c' == c && g == ch
  | _ => false

/-- The lines of a tile of the table are all in. -/
def State.tilePending (s : State) (c : CoreId) (ch : Fin 16) (pos : Nat) : Bool :=
  s.host.reads.any fun r =>
    match r.2.why with
    | .gatherLine c' g p _ _ _ => c' == c && g == ch && p == pos
    | _ => false

/-- The entry of the frame that a head has begun. -/
def State.curEntry (s : State) (h : HeadNo) : Option (Nat × EntrySt) :=
  match (s.head h).cur with
  | some (k, _) => (s.entry? k).map fun e => (k, e)
  | none => none

/-- Issue the line reads of one tile (R228). -/
def State.readTile (s : State) (c : CoreId) (ch : Fin 16) (h : HeadNo) (e : EntrySt) (t pos : Nat) : State :=
  let b := e.bytes
  let d := s.head h
  let k := (pixelBytes (fld b 10 1) (fld b 11 1)).getD 4
  let x := 64 * (t % 65536)
  let y := 64 * (t / 65536)
  let w := min 64 (d.timing.h - x)
  let f := s.entryFn e
  (List.range (min 64 (d.timing.v - y))).foldl (fun s j =>
    s.issueRead f e.islet (fld b 16 8 + (y + j) * fld b 24 4 + x * k) (w * k) (.gatherLine c ch pos x (y + j) w)) s

/-- The tiles of an index table up to the first entry out of range (R227). -/
def tilesOf (h v : Nat) (b : List Byte) : List Nat → List Nat × Bool
  | [] => ([], false)
  | j :: r =>
    let t := fld b (4 * j) 4
    if tileCols h ≤ t % 65536 ∨ tileRows v ≤ t / 65536 then ([], true)
    else
      let (l, bad) := tilesOf h v b r
      (t :: l, bad)

/-- The positions that tiles and held-over marks affect (R233). -/
def affected (h v : Nat) (tiles held : List Nat) : List Nat :=
  (allPositions v).filter fun p => held.contains p || tiles.any (sliceTouches h v p)

/-- The display group of a gather channel or pipe is on (11 R306). -/
def State.groupOn (s : State) (c : CoreId) (k : Nat) : Bool :=
  let x := s.domain c (6 + k / 4)
  x.st == .on && x.going.isNone

/-- Work waits for a channel or pipe: the lowest group that is not on is woken (11 R307). -/
def State.wakeGroup (s : State) (c : CoreId) : State :=
  match (List.range 4).find? (fun g => !s.groupOn c (4 * g)) with
  | some g => s.wake c (6 + g)
  | none => s

/-- Give free pipes, lowest first, a head's affected slices whose tiles have all landed (R232). -/
def State.feedHead (s : State) (c : CoreId) (h : HeadNo) : State :=
  let d := s.head h
  let waitTiles := match d.gather with
    | some ch => ((s.gather c ch.val).todo.filter fun (t : Nat × Nat) => !(s.gather c ch.val).tiles.contains t.2).map fun (t : Nat × Nat) => t.1
    | none => []
  let onPipe (s : State) (p : Nat) : Bool := (List.range 16).any fun k => s.pipe c k == some (h, p)
  d.todo.foldl (fun s p =>
    if onPipe s p || waitTiles.any (sliceTouches d.timing.h d.timing.v p) then s
    else match (List.range 16).find? (fun k => (s.pipe c k).isNone && s.groupOn c k) with
      | some k => s.setPipe c k (some (h, p))
      | none => s.wakeGroup c) s

/-- The free pipes of a core go to the waiting slices of every head it serves, the lowest head first (log entry 108). -/
def State.feedPipes (s : State) (c : CoreId) : State :=
  s.disp.heads.foldl (fun s e =>
    let h := toHead e.1
    if (s.head h).todo.isEmpty || s.servingCore (headSeat h) != c then s else s.feedHead c h) s

/-- Channels or pipes are free that were not before: they go to what waits, and a display group may have no work left
(R232; 11 R307). -/
def State.freed (before s : State) (c : CoreId) : State :=
  (List.range 4).foldl (fun s g => before.groupEnds s c g) (s.feedPipes c)

/-- The bytes of host data that reach a gather channel cross the fabric from the trunk to its port (09 R246, R248). -/
def State.gatherData (s : State) (f : FnId) (ch : Fin 16) (n : Nat) : State := s.transit f.core (trunkIn f.port) (124 + ch.val) 4 n

/-- `DETAIL` of a `DISPLAY_FRAME` (R243). -/
def frameDetail (no : Half) (d : HeadSt) (residue : Nat) : Nat :=
  no.toNat + at_ (d.encoded % 256) 16 + at_ (d.changed % 256) 24 + at_ residue 32

/-- A gather is aborted (R231): the channel stops, the slices of its landed tiles are held over, the frame
completes. -/
def State.abortGather (s : State) (h : HeadNo) (status : Nat) : State :=
  let before := s
  let d := s.head h
  match d.gather, d.cur with
  | some ch, some (k, no) =>
    let c := match s.entry? k with
      | some e => s.runs e.core
      | none => s.servingCore (headSeat h)
    let g := s.gather c ch.val
    let landed := (g.todo.filter fun t => g.tiles.contains t.2).map (·.1)
    let residue := g.total - g.fetched.toNat
    let s := s.dropReads fun r => r.ofChannel c ch
    let s := (List.range 16).foldl (fun s p => match s.pipe c p with
      | some (h', _) => if h' = h then s.setPipe c p none else s
      | none => s) s
    let s := s.setGather c ch.val { g with state := 3, residue := BitVec.ofNat 16 residue, busy := none, todo := [], tiles := [] }
    let held := affected d.timing.h d.timing.v landed d.heldOver
    let s := s.setHead h { d with gather := none, cur := none, todo := [], heldOver := held, landed := true }
    before.freed ((s.finish k status d.tiles (frameDetail no d residue)).edge c (256 + ch.val)) c
  | _, _ => s

/-- The channel has its tiles: read them, and name the slices they affect. -/
def State.beginTiles (s : State) (c : CoreId) (ch : Fin 16) (h : HeadNo) (e : EntrySt) (tiles : List Nat) (bad : Bool) : State :=
  let g := s.gather c ch.val
  let listed := tiles.zipIdx
  let s := s.setGather c ch.val { g with todo := listed, bad := bad }
  let d := s.head h
  let s := s.setHead h { d with todo := if bad then [] else affected d.timing.h d.timing.v tiles d.heldOver }
  if s.readsRefused (s.entryFn e) then (s.failCount (s.entryFn e) e.islet).abortGather h 0x01
  else listed.foldl (fun s t => s.readTile c ch h e t.1 t.2) s

/-- The line of a tile has come: its pixels go to the reference frame and, while the causeway is up, to the
mirror (R228, R230). -/
def State.lineArrived (s : State) (c : CoreId) (ch : Fin 16) (pos x y n : Nat) (b : List Byte) : State :=
  let g := s.gather c ch.val
  match g.busy with
  | none => s
  | some h =>
    match s.curEntry h with
    | none => s
    | some (_, e) =>
      let fmt := fld e.bytes 10 1
      let sw := fld e.bytes 11 1
      let k := (pixelBytes fmt sw).getD 4
      let put (f : Tab (BitVec 24)) : Tab (BitVec 24) := putPixels fmt sw k n (x + 4096 * y) b f
      let d := s.head h
      let s := s.setHead h { d with frame := put d.frame }
      let s := s.gatherData (s.entryFn e) ch b.length
      let s := if s.twinUp then
          (s.setDisp { s.disp with mirrors := tset s.disp.mirrors h.val (put (tget s.disp.mirrors h.val [])) [] }).transit c (124 + h.val % 16) 88 3 (4 * n)
        else s
      if s.tilePending c ch pos then s
      else
        let s := s.setGather c ch.val { g with tiles := g.tiles ++ [pos], fetched := g.fetched + 1 }
        let d := s.head h
        let s := (s.setHead h { d with tiles := d.tiles + 1 }).count c 0x070 [(1, d.islet.val), (2, (headSeat h).val)] 1
        s.feedPipes c

/-- The frames of a head that have not begun complete with a status, with no tile fetched. -/
def State.dropWaiting (s : State) (h : HeadNo) (status : Nat) : State :=
  let d := s.head h
  let s := s.setHead h { d with waiting := [] }
  d.waiting.foldl (fun s w => s.finish w.1 status 0 (s.waitingDetail d w)) s

/-- A begun frame that is past its gather completes; its encoding stops. -/
def State.dropCurrent (s : State) (h : HeadNo) (status : Nat) : State :=
  let d := s.head h
  match d.cur with
  | some (k, no) =>
    let t := bothCores.foldl (fun s c => (List.range 16).foldl (fun s p => match s.pipe c p with
      | some (h', _) => if h' = h then s.setPipe c p none else s
      | none => s) s) s
    let t := (t.setHead h { d with cur := none, todo := [] }).finish k status d.tiles (frameDetail no d 0)
    bothCores.foldl (fun t c => s.freed t c) t
  | none => s

/-- Frames begun, running or waiting. -/
def HeadSt.framesOpen (d : HeadSt) : Nat := d.waiting.length + (if d.gather.isSome then 1 else 0)

/-! ### Full resend, sources (R236, R239) -/

/-- Every position of a viewer becomes pending and a commit follows (R239). -/
def State.fullResend (s : State) (o : HeadNo) : State :=
  let v := s.view o
  let t := (s.head (s.shown o)).timing
  let s := s.setView o { v with pendingPos := allPositions t.v, commitDue := true, screen := false }
  s.count (s.servingCore (headSeat o)) 0x074 [(2, (headSeat o).val)] 1

/-- The output returns to its own head (R236). Heads of its queues keep the tags they have (10 R273). -/
def State.returnOwn (s : State) (o : HeadNo) (flag : Bool) : State :=
  let was := s.shown o
  let s := (s.tagHeads (headSeat o)).1
  let before := s
  let s := (s.setView o { s.view o with source := none, behind := false, lastCommit := 0 }).regroup was
  let s := s.regroup o
  let s := if (s.head o).st = .attached then (before.reconfigure s o was none).fullResend o
    else match before.mustRetire s o was with
      | some (c, g, n) => s.setView o { s.view o with owed := some (c, g, n, none) }
      | none => s
  if flag then s.headChange o hcSource else s

/-- Every broadcast viewer of a head returns to its own (R236). -/
def State.returnViewers (s : State) (h : HeadNo) : State :=
  ((s.viewers h).filter (· != h)).foldl (fun s o => s.returnOwn o true) s

/-- A head is detached: its frames complete, its charge is returned, its viewers return (R224, R231). -/
def State.detachHead (s : State) (h : HeadNo) (status : Nat) : State :=
  let s := ((s.abortGather h status).dropCurrent h status).dropWaiting h status
  let s := s.returnViewers h
  let d := s.head h
  if d.st = .attached then
    let was := s.shown h
    let before := s
    let s := s.setHead h { HeadSt.init with st := .detached, frameNo := d.frameNo }
    let v := s.view h
    let s := s.setView h { v with source := none, pendingPos := [], commitDue := false, behind := false }
    let s := s.setDisp { s.disp with mirrors := tset s.disp.mirrors h.val [] [], twinStores := tset s.disp.twinStores h.val [] [] }
    let s := (s.regroup was).regroup h
    match before.mustRetire s h was with
    | some (c, g, n) => (s.setView h { s.view h with owed := some (c, g, n, none) }).settleGroups (s.servingCore (headSeat h))
    | none => s.settleGroups (s.servingCore (headSeat h))
  else s

/-- The heads of a seat. -/
def seatHeads (x : Seat) : List HeadNo := [unitHead x 0, unitHead x 1]

/-! ### Entries of a head (R223, R224) -/

def entryHead (e : EntrySt) : HeadNo := unitHead (toSeat (fld e.bytes 8 1)) (toFin 1 (fld e.bytes 9 1))

/-- The display engine makes at most two ready items per head (05 R136). -/
def State.headItem (s : State) (c : CoreId) (k : Nat) (h : HeadNo) (i : IsletNo) : State :=
  let n := ((s.dispatch c).ready.filter fun x => x.kind == 3 && x.head == some h).length
  if 2 ≤ n then s
  else s.readyItem c { Item.init with kind := 3, flow := BitVec.ofNat 24 (0x100 + h.val), islet := i, head := some h, arg := BitVec.ofNat 64 k }

/-- A `DISPLAY_HEAD` entry with its operation. -/
def State.withHead (s : State) (c : CoreId) (k op : Nat) (f : State → EntrySt → HeadNo → State) : State :=
  match s.entryOf c k 0x21 with
  | some e =>
    if fld e.bytes 10 1 = op then f ((s.begin_ k).headItem c k (entryHead e) e.islet) e (entryHead e) else s
  | none => s

/-- MiB that an islet's heads on a core charge, without one head (R224). -/
def State.headCharges (s : State) (i : IsletNo) (c : CoreId) (without : HeadNo) : Nat :=
  (s.disp.heads.map fun e =>
    if e.2.st == .attached && e.2.islet == i && e.1 != without.val && s.servingCore (toSeat (e.1 / 2)) == c then e.2.charge
    else 0).sum

def attachTiming (b : List Byte) : Timing :=
  { h := fld b 12 2, v := fld b 14 2, clock := fld b 16 4, ht := fld b 20 2, vt := fld b 22 2, hf := fld b 24 2,
    hs := fld b 26 2, vf := fld b 28 1, vs := fld b 29 1, flags := BitVec.ofNat 8 (fld b 30 1) }

def attachBpp (b : List Byte) : Nat := if fld b 11 1 = 0 then 8 else fld b 11 1

/-- The checks of `ATTACH` in order; the status of the first failure (R224, R236). -/
def State.attachCheck (s : State) (e : EntrySt) (h : HeadNo) : Option Nat :=
  let t := attachTiming e.bytes
  let bpp := attachBpp e.bytes
  let v := s.view h
  let x := headSeat h
  if s.owner x ≠ e.islet then some 0x57
  else if (s.head h).st = .absent then some 0x51
  else if v.maxClock < t.clock ∨ v.storeBytes < 2 * (4 * sliceRows t.v * sliceBytes t.h t.v bpp) then some 0x53
  else if (s.islet e.islet).dispMib < headCharge t.h t.v bpp + s.headCharges e.islet (s.servingCore x) h then some 0x52
  else if bit (fld e.bytes 30 1) 2 && !(s.islet e.islet).bcast then some 0x55
  else none

/-- An entry was posted on the same queue after another. -/
def EntrySt.after (e' e : EntrySt) : Bool :=
  e'.core == e.core && e'.islet == e.islet && e'.queue == e.queue && e'.idx != e.idx && decide (sub16 e'.idx e.idx < 32768)

/-- Frames of a head taken after an `ATTACH` that has now run: they are numbered from 1 (R224, R229). -/
def State.laterFrames (s : State) (e : EntrySt) (h : HeadNo) : List (Nat × Half) :=
  ((s.head h).waiting.filter fun w => (s.entry? w.1).any fun e' => e'.after e).zipIdx.map fun w => (w.1.1, BitVec.ofNat 16 (w.2 + 1))

/-- `ATTACH` (R224). -/
def State.attachHead (s : State) (k : Nat) (e : EntrySt) (h : HeadNo) : State :=
  match s.attachCheck e h with
  | some st => s.finish k st 0 0
  | none =>
    let later := s.laterFrames e h
    let s := s.setHead h { s.head h with waiting := (s.head h).waiting.filter fun w => !later.any fun l => l.1 == w.1 }
    let s := (((s.dropConfig h 0x05).abortGather h 0x05).dropCurrent h 0x05).dropWaiting h 0x05
    let s := if (s.head h).bcastSrc then s.returnViewers h else s
    let was := s.shown h
    let t := attachTiming e.bytes
    let bpp := attachBpp e.bytes
    let s := (s.tagHeads (headSeat h)).1
    let before := s
    let s := s.setHead h { HeadSt.init with
      st := .attached, timing := t, bpp := bpp, bcastSrc := bit (fld e.bytes 30 1) 2, islet := e.islet,
      charge := headCharge t.h t.v bpp, mirrored := s.twinUp, waiting := later, frameNo := BitVec.ofNat 16 later.length }
    let s := s.setDisp { s.disp with mirrors := tset s.disp.mirrors h.val [] [], twinStores := tset s.disp.twinStores h.val [] [] }
    let s := s.setView h { s.view h with source := none, behind := false, lastCommit := 0 }
    let s := (s.regroup was).regroup h
    (((before.reconfigure s h was (some k)).fullResend h).hand k).settleGroups (s.servingCore (headSeat h))

def execAttach (c : CoreId) (h : Nat) (s : State) : Host.Outcome State Fault Refusal :=
  .next (s.withHead c h 0x01 fun s e o => s.attachHead h e o)

/-- Whether the head is attached by the entry's islet (R224). -/
def State.attachedBy (s : State) (e : EntrySt) (o : HeadNo) : Bool := (s.head o).st == .attached && (s.head o).islet == e.islet

def execDetach (c : CoreId) (h : Nat) (s : State) : Host.Outcome State Fault Refusal :=
  .next (s.withHead c h 0x02 fun s e o =>
    if s.attachedBy e o then ((s.dropConfig o 0x05).detachHead o 0x05).finish h 0x00 0 0 else s.finish h 0x50 0 0)

/-- `ABORT_FRAME` (R231). -/
def State.abortFrames (s : State) (k : Nat) (o : HeadNo) : State :=
  let n := (s.head o).framesOpen
  ((s.abortGather o 0x05).dropWaiting o 0x05).finish k 0x00 n 0

def execAbortFrame (c : CoreId) (h : Nat) (s : State) : Host.Outcome State Fault Refusal :=
  .next (s.withHead c h 0x03 fun s e o => if s.attachedBy e o then s.abortFrames h o else s.finish h 0x50 0 0)

/-- `READ_EDID` (R224). -/
def State.readEdid (s : State) (k : Nat) (e : EntrySt) (o : HeadNo) : State :=
  if (s.head o).st = .absent then s.finish k 0x51 0 0
  else
    let b := (s.view o).edid
    let (ok, s) := s.writeEntry k e (fld e.bytes 16 8) b
    if ok then s.finish k 0x00 b.length 0 else s.finish k 0x01 0 0

def execReadEdid (c : CoreId) (h : Nat) (s : State) : Host.Outcome State Fault Refusal :=
  .next (s.withHead c h 0x04 fun s e o => s.readEdid h e o)

/-- `SELECT_SOURCE` (R236). -/
def State.selectSource (s : State) (k : Nat) (e : EntrySt) (o : HeadNo) : State :=
  let b := e.bytes
  if !s.attachedBy e o then s.finish k 0x50 0 0
  else if bit (fld b 14 2) 0 then
    let i := toIslet (fld b 12 2 % 256)
    let h := toHead (fld b 12 2 / 256)
    let src := s.head h
    let own := s.head o
    let bad := (s.islet i).st == .free || src.st != .attached || !src.bcastSrc || src.islet != i ||
      !((s.islet i).bmask.getLsbD (headSeat o).val) || src.timing.h != own.timing.h || src.timing.v != own.timing.v
    if bad then s.finish k 0x55 0 0
    else if (s.view o).storeBytes < 2 * (4 * sliceRows src.timing.v * sliceBytes src.timing.h src.timing.v src.bpp) then
      s.finish k 0x53 0 0
    else
      let was := s.shown o
      let s := (s.tagHeads (headSeat o)).1
      let before := s
      let s := s.setView o { s.view o with source := some (i, h), lastCommitUt := s.ut (s.runs e.core) }
      let s := (s.regroup was).regroup h
      ((before.reconfigure s o was none).fullResend o).finish k 0x00 0 0
  else (s.returnOwn o false).finish k 0x00 0 0

def execSelectSource (c : CoreId) (h : Nat) (s : State) : Host.Outcome State Fault Refusal :=
  .next (s.withHead c h 0x05 fun s e o => s.selectSource h e o)

/-! ### Frames (R225, R229, R230) -/

/-- A `DISPLAY_FRAME` is taken: `NOT_ATTACHED`, or its number and its place behind the head's frames (R225, R229). -/
def State.frameTaken (s : State) (k : Nat) (e : EntrySt) : State :=
  let h := entryHead e
  if !s.attachedBy e h then s.finish k 0x50 0 0
  else
    let d := s.head h
    let no := d.frameNo + 1
    s.setHead h { d with frameNo := no, waiting := d.waiting ++ [(k, no)] }

/-- The frame's command runs: the head may begin it when its turn comes. -/
def execDisplayFrame (c : CoreId) (h : Nat) (s : State) : Host.Outcome State Fault Refusal :=
  .next (match s.entryOf c h 0x20 with
    | some e => (s.begin_ h).headItem c h (entryHead e) e.islet
    | none => s)

/-- Pacing allows the head's next frame: the commit of the last one has been handed to its own output; it waits for
nothing before the first encode, while that output shows a broadcast, and while `REFRESH_REQUIRED` keeps every commit back
(R229, R240; log entry 109). -/
def State.paced (s : State) (h : HeadNo) : Bool :=
  let d := s.head h
  d.cur.isNone && d.todo.isEmpty &&
    ((s.view h).lastCommit == d.newest || (s.view h).source.isSome || !d.encodedAny || d.refresh)

/-- The viewers get a commit of the newest frame (R235). -/
def State.commitsDue (s : State) (h : HeadNo) : State :=
  (s.viewers h).foldl (fun s o => s.setView o { s.view o with commitDue := true }) s

/-- A frame's encode has completed: it is the newest (R235). -/
def State.encodeDone (s : State) (h : HeadNo) : State :=
  let d := s.head h
  match d.cur with
  | some (_, no) =>
    if d.landed && d.todo.isEmpty && (d.newest != no || !d.encodedAny) then
      (s.setHead h { d with newest := no, encodedAny := true }).commitsDue h
    else s
  | none => s

/-- Begin a head's next frame (R229 to R231, R240). -/
def State.startFrame (s : State) (c : CoreId) (h : HeadNo) : State :=
  let d := s.head h
  match d.waiting with
  | [] => s
  | (k, no) :: rest =>
    match s.entry? k with
    | none => s.setHead h { d with waiting := rest }
    | some e =>
      if !e.started || !s.mayEmit e.islet then s else
      let full := bit (fld e.bytes 12 1) 0
      let n := fld e.bytes 28 4
      if d.refresh && !full then (s.setHead h { d with waiting := rest }).finish k 0x56 0 (s.waitingDetail d (k, no))
      else if n = 0 ∧ !full then
        let s := s.setHead h { d with waiting := rest, cur := some (k, no), landed := true, todo := [], tiles := 0, encoded := 0, changed := 0 }
        s.encodeDone h
      else
        match (List.finRange 16).find? (fun ch => (s.gather c ch.val).busy.isNone && s.groupOn c ch.val) with
        | none => s.wakeGroup c
        | some ch =>
          let s := (s.setHead h { d with waiting := rest, cur := some (k, no), landed := false, gather := some ch, todo := [], tiles := 0, encoded := 0, changed := 0 }).hand k
          let count := if full then tileCount d.timing.h d.timing.v else n
          let s := s.setGather c ch.val
            { state := 1, head := BitVec.ofNat 8 h.val, fetched := 0, residue := 0, busy := some h, todo := [], tiles := [], total := count, bad := false }
          if full then
            let tiles := ((List.range (tileRows d.timing.v)).map fun y => (List.range (tileCols d.timing.h)).map fun x => x + 65536 * y).flatten
            s.beginTiles c ch h e tiles false
          else if s.readsRefused (s.entryFn e) then (s.failCount (s.entryFn e) e.islet).abortGather h 0x01
          else s.issueRead (s.entryFn e) e.islet (fld e.bytes 32 8) (4 * n) (.gatherIndex c ch)

def execGatherStart (c : CoreId) (hd : HeadNo) (s : State) : Host.Outcome State Fault Refusal :=
  .next (if s.servingCore (headSeat hd) = c ∧ (s.head hd).st = .attached ∧ s.paced hd then s.startFrame c hd else s)

/-- The index table has come (R227). -/
def State.indexArrived (s : State) (c : CoreId) (ch : Fin 16) (b : List Byte) : State :=
  match (s.gather c ch.val).busy with
  | none => s
  | some h =>
    match s.curEntry h with
    | none => s
    | some (_, e) =>
      let d := s.head h
      let (tiles, bad) := tilesOf d.timing.h d.timing.v b (List.range (s.gather c ch.val).total)
      let s := s.gatherData (s.entryFn e) ch b.length
      s.beginTiles c ch h e tiles bad

/-- A gather whose tiles have all landed is done; one that met an entry out of range is aborted (R227, R230). -/
def State.gatherEnd (s : State) (c : CoreId) (ch : Fin 16) : State :=
  let g := s.gather c ch.val
  match g.busy with
  | none => s
  | some h =>
    if s.host.reads.any fun r => r.2.ofChannel c ch then s
    else if g.bad then s.abortGather h 0x54
    else
      let t := s.setGather c ch.val { g with state := 2, busy := none, residue := 0 }
      let d := t.head h
      let t := (t.setHead h { d with gather := none, landed := true }).edge c (256 + ch.val)
      (s.freed t c).encodeDone h

def execGatherDone (c : CoreId) (ch : Fin 16) (s : State) : Host.Outcome State Fault Refusal :=
  .next (s.gatherEnd c ch)

/-! ### Slices and commits (R233 to R235) -/

/-- Insert a position in ascending order, once. -/
def insertPos (p : Nat) : List Nat → List Nat
  | [] => [p]
  | q :: r => if p < q then p :: q :: r else if p = q then q :: r else q :: insertPos p r

/-- The output is served by the twin of the core that serves the head it shows (R234). -/
def State.awayView (s : State) (o : HeadNo) : Bool := s.servingCore (headSeat o) != s.servingCore (headSeat (s.shown o))

/-- A position of a broadcast that the twin serves can be handed: its copy has crossed, or the twin's mirror is complete
(R236; log entry 110). -/
def State.awayReady (s : State) (h : HeadNo) (p : Nat) : Bool :=
  !(tget (tget s.disp.twinStores h.val []) p []).isEmpty || (s.head h).mirrored

/-- The bytes a viewer is sent for a position: the status screen's, the slice store's content, or for the twin's viewers
that of the twin's copy (R234, R236). -/
def State.sliceContent (s : State) (o : HeadNo) (p : Nat) : List Byte :=
  let v := s.view o
  if v.screen then
    let t := v.screenAt
    (List.range (sliceBytes t.h t.v 8)).map fun k => Config.screenByte v.screenFacts t.h t.v p k
  else
    let h := s.shown o
    let d := s.head h
    let away := s.awayView o
    let b := if away then tget (tget s.disp.twinStores h.val []) p [] else tget d.store p []
    if b.isEmpty then encodeSlice (if away then tget s.disp.mirrors h.val [] else d.frame) d.timing.h d.timing.v d.bpp p else b

/-- The `SLICE` messages of one slice: offsets rise by 9,180 (R237). -/
def sliceMsgs : Nat → Fin 2 → Nat → Nat → Nat → List Byte → List (List Byte)
  | 0, _, _, _, _, _ => []
  | n + 1, l, p, no, off, b =>
    if b.isEmpty then []
    else dispMsg 0x02 l (p + at_ no 16) off (b.take 9180) :: sliceMsgs n l p no (off + 9180) (b.drop 9180)

/-- The account of a viewer's frames: the islet of the head shown, 0 for the status screen (R241). -/
def State.viewAcct (s : State) (o : HeadNo) : Nat := if (s.view o).screen then 0 else (s.head (s.shown o)).islet.val

/-- The messages of a slice, the last marked as its end. -/
def sliceHands (shown : HeadNo) (l : Fin 2) (acct p no : Nat) (b : List Byte) : List Hand :=
  let n := cdiv b.length 9180
  (sliceMsgs (n + 1) l p no 0 b).zipIdx.map fun m => dispHand shown l acct (m.2 + 1 == n) m.1

/-- The frame number of a head's slices: of the frame in hand, or the newest. -/
def HeadSt.sliceNo (d : HeadSt) : Nat :=
  match d.cur with
  | some (_, n) => n.toNat
  | none => d.newest.toNat

/-- A slice is handed: event 0x072. -/
def State.countHanded (s : State) (o h : HeadNo) : State :=
  s.count (s.servingCore (headSeat o)) 0x072 [(1, (s.head h).islet.val), (2, (headSeat o).val)] 1

/-- Hand one slice to one viewer (R234). -/
def State.handSlice (s : State) (o : HeadNo) (p : Nat) : State :=
  let h := s.shown o
  let b := s.sliceContent o p
  let d := s.head h
  let s := if (s.view o).screen || s.awayView o || !(tget d.store p []).isEmpty then s
    else s.setHead h { d with store := tset d.store p b [] }
  let s := (sliceHands h (localHead o) (s.viewAcct o) p d.sliceNo b).foldl (fun s m => s.queueFrame (headSeat o) .disp m) s
  s.countHanded o h

/-- Slices handed to a seat output that have not left: those whose last message waits in the fabric or at its input. -/
def State.slicesWaiting (s : State) (o : HeadNo) : Nat :=
  let l := (localHead o).val
  ((s.tun (headSeat o) .disp).queue.filter fun f => f.ends && f.local_ == l).length +
    ((s.keptFor (headSeat o) .disp).filter fun f => f.ends && f.local_ == l).length

/-- A viewer is ready (R234). -/
def State.viewReady (s : State) (o : HeadNo) : Bool :=
  let v := s.view o
  v.pendingPos.isEmpty && decide (s.slicesWaiting o ≤ 2) && !(s.head (s.shown o)).refresh && v.owed.isNone

/-- A changed slice becomes pending for a viewer that is not ready; an output in the status screen needs none of it. -/
def State.pend (s : State) (o : HeadNo) (p : Nat) : State :=
  let v := s.view o
  if v.screen then s
  else
    let s1 := s.setView o { v with pendingPos := insertPos p v.pendingPos }
    if v.pendingPos.contains p then s1.count (s.servingCore (headSeat o)) 0x073 [(2, (headSeat o).val)] 1 else s1

/-- Hand the messages of a slice at a core's fabric to ready viewers, by the group of their local number (R234). -/
def State.castSlice (s : State) (c : CoreId) (h : HeadNo) (l : Fin 2) (ready : List HeadNo) (hs : List Hand) : State :=
  let seats := ready.map headSeat
  hs.foldl (fun s m => s.handIn c { seats := seats, tn := .disp, group := some (groupOf h l), hand := m }) s

/-- A changed slice of a broadcast head is offered to the viewers that its core serves and, in the same frames, to the twin
(R234; log entry 107). -/
def State.offerCast (s : State) (c : CoreId) (h : HeadNo) (p : Nat) (l : Fin 2) : State :=
  let d := s.head h
  let mine := (s.viewers h).filter fun o => localHead o == l && s.servingCore (headSeat o) == c && !(s.view o).screen
  let now := mine.filter s.viewReady
  let s := (mine.filter fun o => !now.contains o).foldl (fun s o => s.pend o p) s
  if now.isEmpty && !((s.fabCore c).group (groupOf h l).val).causeway then s
  else
    let s := s.castSlice c h l now (sliceHands h l d.islet.val p d.sliceNo (tget d.store p []))
    now.foldl (fun s o => s.countHanded o h) s

/-- A changed slice is offered to the viewers of a head: at once to those that are ready, pending for the others (R234). -/
def State.offer (s : State) (c : CoreId) (h : HeadNo) (p : Nat) : State :=
  if (s.head h).bcastSrc then [(0 : Fin 2), 1].foldl (fun s l => s.offerCast c h p l) s
  else (s.viewers h).foldl (fun s o => if (s.view o).screen then s else if s.viewReady o then s.handSlice o p else s.pend o p) s

/-- A copy of a broadcast slice's message has crossed to the twin: it goes on to the twin's ready viewers, and at the slice's
end the twin's copy of the store takes it; other viewers have it pending (R234, R236). -/
def State.copyArrives (s : State) (c : CoreId) (g : Fin 256) (acct : Nat) (l : Nat) (ends : Bool) (data : List Byte) : State :=
  let h := toHead (g.val % 128)
  let p := bits (fld data 4 4) 6 0
  let key := g.val * 128 + p
  let mine := (s.viewers h).filter fun o => (localHead o).val == l && s.servingCore (headSeat o) == c && !(s.view o).screen
  let (b, go) := if fld data 8 4 = 0 then ([], (mine.filter s.viewReady).map (·.val)) else tget s.disp.twinParts key ([], [])
  let b := b ++ data.drop 16
  let s := s.setDisp { s.disp with twinParts := tset s.disp.twinParts key (if ends then ([], []) else (b, go)) ([], []) }
  let s := if go.isEmpty then s
    else s.castSlice c h (toFin 1 l) (go.map toHead) [{ dispHand h (toFin 1 l) acct ends data with input := 88 }]
  if ends then
    let s := s.setDisp { s.disp with twinStores := tset s.disp.twinStores h.val (tset (tget s.disp.twinStores h.val []) p b []) [] }
    (mine.filter fun o => !go.contains o.val).foldl (fun s o => s.pend o p) s
  else s

/-- Copies of a head's slices are still on their way to the twin. -/
def State.copiesOut (s : State) (h : HeadNo) : Bool :=
  let c := s.servingCore (headSeat h)
  let of (g : Fin 256) : Bool := g.val % 128 == h.val
  ((s.fabCore c).frames.any fun f => f.2.group.any (fun x => of x.1) && f.2.dests.any fun o => trunkOf o == some 2) ||
    ((s.fabCore c).kept.any fun k => k.group.any of) || (s.disp.twinParts.any fun e => e.1 / 128 % 128 == h.val)

/-- A pipe has encoded its slice: it is compared with the slice store and offered where it differs (R232,
R233). -/
def State.sliceDone (s : State) (c : CoreId) (k : Fin 16) : State :=
  match s.pipe c k.val with
  | none => s
  | some (h, p) =>
    let before := s
    let s := s.setPipe c k.val none
    let d := s.head h
    let b := encodeSlice d.frame d.timing.h d.timing.v d.bpp p
    let same := tget d.store p [] == b
    let s := s.setHead h { d with
      store := if same then d.store else tset d.store p b [], todo := d.todo.filter (· != p),
      heldOver := d.heldOver.filter (· != p), encoded := d.encoded + 1, changed := if same then d.changed else d.changed + 1 }
    let s := if same then s else s.offer c h p
    let s := (s.count c 0x071 [(1, d.islet.val), (2, (headSeat h).val)] 1).edge c (272 + k.val)
    (before.freed s c).encodeDone h

def execSliceEncoded (c : CoreId) (pipe : Fin 16) (s : State) : Host.Outcome State Fault Refusal :=
  .next (s.sliceDone c pipe)

/-- A viewer's lowest pending position is handed while it has fewer than 2 slices waiting (R234). -/
def State.handPending (s : State) (h o : HeadNo) : State :=
  let v := s.view o
  if s.shown o ≠ h ∨ (!v.screen && ((s.head h).refresh || v.owed.isSome)) then s
  else
    match v.pendingPos with
    | [] => s
    | p :: rest =>
      if !v.screen && s.awayView o && !s.awayReady h p then s
      else if s.slicesWaiting o < 2 then (s.setView o { v with pendingPos := rest }).handSlice o p else s

def execSliceHandoff (hd viewer : HeadNo) (s : State) : Host.Outcome State Fault Refusal :=
  .next (s.handPending hd viewer)

/-- An encode of a frame later than the newest, or a re-encode after a failover or an error, is in progress (R235). -/
def State.encoding (s : State) (h : HeadNo) : Bool :=
  let d := s.head h
  let c := s.servingCore (headSeat h)
  let busy := (List.range 16).any fun k => (s.pipe c k).any fun x => x.1 == h
  match d.cur with
  | none => !d.todo.isEmpty
  | some (_, no) => if d.encodedAny && d.newest == no then !d.todo.isEmpty else decide (0 < d.encoded) || busy

/-- A commit naming the newest encoded frame is handed to a viewer (R235); to one that the twin serves, after the copies
that are still crossing. -/
def State.handCommit (s : State) (h o : HeadNo) : State :=
  let v := s.view o
  let d := s.head h
  let idle := v.screen || (!s.encoding h && !d.refresh && v.owed.isNone && !(s.awayView o && s.copiesOut h))
  if s.shown o = h ∧ v.commitDue ∧ v.pendingPos.isEmpty ∧ idle then
    let s := s.sendDisp o h (s.viewAcct o) false (dispMsg 0x03 (localHead o) (at_ d.newest.toNat 16) 0 [])
    s.setView o { s.view o with commitDue := false, lastCommit := d.newest, lastCommitUt := s.ut (s.servingCore (headSeat o)), behind := false }
  else s

def execCommitHandoff (hd viewer : HeadNo) (s : State) : Host.Outcome State Fault Refusal :=
  .next (s.handCommit hd viewer)

/-- 1 s without a commit on an output that shows a broadcast (R235). -/
def execBehindTimeout (hd : HeadNo) (ut : Nat) (s : State) : Host.Outcome State Fault Refusal :=
  let s := s.arrive ut
  let v := s.view hd
  .next (if v.source.isSome && decide (v.lastCommitUt + 1000 * ms ≤ s.ut (s.servingCore (headSeat hd))) then
      s.setView hd { v with behind := true }
    else s)

/-- The frame's record is made after its last tile has landed and every affected slice is encoded (R230). A
`FULL_FETCH` frame ends `REFRESH_REQUIRED` (R240). -/
def State.recordFrame (s : State) (h : HeadNo) : State :=
  let d := s.head h
  match d.cur with
  | some (k, no) =>
    if d.landed && d.todo.isEmpty then
      let full := match s.entry? k with
        | some e => bit (fld e.bytes 12 1) 0
        | none => false
      let s := s.setHead h { d with cur := none, refresh := d.refresh && !full }
      s.finish k 0x00 d.tiles (frameDetail no d 0)
    else s
  | none => s

def execFrameRecord (c : CoreId) (hd : HeadNo) (s : State) : Host.Outcome State Fault Refusal :=
  .next (if s.servingCore (headSeat hd) = c then s.recordFrame hd else s)

/-- A whole-frame copy to the twin is complete (R230); the twin's viewers of the head missed what changed before it (log
entry 110). -/
def State.mirrorWhole (s : State) (h : HeadNo) : State :=
  let d := s.head h
  if s.twinUp && d.st == .attached then
    let t := (s.setHead h { d with mirrored := true }).transit (s.servingCore (headSeat h)) (124 + h.val % 16) 88 0 (4 * d.timing.h * d.timing.v)
    let t := t.setDisp { t.disp with mirrors := tset t.disp.mirrors h.val d.frame [] }
    if d.mirrored then t else ((t.viewers h).filter t.awayView).foldl (fun t o => if (t.view o).screen then t else t.fullResend o) t
  else s

def execMirrorCopyDone (c : CoreId) (hd : HeadNo) (s : State) : Host.Outcome State Fault Refusal :=
  .next (if s.servingCore (headSeat hd) = c then s.mirrorWhole hd else s)

/-- A head's mirror falls more than 1 s behind (13 R352). -/
def execMirrorLagTimeout (hd : HeadNo) (ut : Nat) (s : State) : Host.Outcome State Fault Refusal :=
  let s := s.arrive ut
  .next (s.setHead hd { s.head hd with mirrored := false })

/-! ### What the dock reports (R237 to R239) -/

/-- The link carries DISP messages from the dock. -/
def State.dispOpen (s : State) (x : Seat) : Bool := (s.link_ x).maySend .disp

/-- `MONITOR` (R237, R238). -/
def State.takeMonitor (s : State) (o : HeadNo) (p0 p1 : Nat) (edid : List Byte) : State :=
  if bits p0 11 1 ≠ 0 ∨ 512 < edid.length then s.bumpSeat (headSeat o) 12 1
  else
    let v := s.view o
    let m := bit p0 0
    let s := if (s.head o).st = .absent then s.setHead o { s.head o with st := .detached } else s
    let s := s.setView o { s.view o with monitor := m, maxClock := bits p0 31 12 * 1000, storeBytes := p1, edid := edid }
    if m = v.monitor then s else s.headChange o hcMonitor

def execMonitor (x : Seat) (lh : Fin 2) (param0 param1 : W32) (edid : List Byte) (s : State) :
    Host.Outcome State Fault Refusal :=
  .next (if s.dispOpen x then s.takeMonitor (unitHead x lh) param0.toNat param1.toNat edid else s)

/-- `CONFIG_DONE`: the `ATTACH` that waits completes, or is refused and its charge returned (R224, R238). -/
def State.takeConfigDone (s : State) (o : HeadNo) (p0 : Nat) : State :=
  let v := s.view o
  if bits p0 31 17 ≠ 0 then s.bumpSeat (headSeat o) 12 1
  else
    match v.config with
    | none => s
    | some (n, waits) =>
      if n.toNat ≠ p0 % 65536 then s
      else
        let s := s.setView o { v with config := none }
        match waits with
        | none => s
        | some k =>
          if bit p0 16 then (s.detachHead o 0x05).finish k 0x53 0 0
          else s.finish k 0x00 0 (s.head o).charge

def execConfigDone (x : Seat) (lh : Fin 2) (param0 : W32) (s : State) : Host.Outcome State Fault Refusal :=
  .next (if s.dispOpen x then s.takeConfigDone (unitHead x lh) param0.toNat else s)

/-- The UT nearest to the present one with given low 32 bits. -/
def extendUt (now low : Nat) : Nat :=
  let base := now - now % 2 ^ 32 + low
  if now + 2 ^ 31 < base then base - 2 ^ 32 else if base + 2 ^ 31 ≤ now then base + 2 ^ 32 else base

/-- `APPLIED` (R238). -/
def State.takeApplied (s : State) (o : HeadNo) (p0 p1 : Nat) : State :=
  if p0 % 65536 ≠ 0 then s.bumpSeat (headSeat o) 12 1
  else
    let v := s.view o
    let n : Half := BitVec.ofNat 16 (p0 / 65536)
    let at' := extendUt (s.ut (s.servingCore (headSeat o))) p1
    let s := s.setView o { v with applied := n, appliedUt := BitVec.ofNat 64 at' }
    if n = v.applied then s else s.headChange o hcApplied

def execApplied (x : Seat) (lh : Fin 2) (param0 param1 : W32) (s : State) : Host.Outcome State Fault Refusal :=
  .next (if s.dispOpen x then s.takeApplied (unitHead x lh) param0.toNat param1.toNat else s)

/-- `STORE_LOST`: a full resend to that output (R239). -/
def State.takeStoreLost (s : State) (o : HeadNo) : State :=
  if (s.view o).screen then
    s.setView o { s.view o with pendingPos := allPositions (s.view o).screenAt.v, commitDue := true }
  else if (s.head (s.shown o)).st = .attached then s.fullResend o else s

def execStoreLost (x : Seat) (lh : Fin 2) (s : State) : Host.Outcome State Fault Refusal :=
  .next (if s.dispOpen x then s.takeStoreLost (unitHead x lh) else s)

/-! ### The status screen (R241) -/

/-- The status screen of an output is drawn from its facts: configured first where the output is not attached at its timing,
then every slice and a commit. -/
def State.drawScreen (s : State) (o : HeadNo) : State :=
  let v := s.view o
  let t := s.screenTiming o
  let s := if v.screen && v.screenAt == t then s else s.sendConfig o t (ppsBytes t.h t.v 8) 0 none
  s.setView o { s.view o with
    screen := true, screenAt := t, screenUt := s.ut (s.servingCore (headSeat o)), screenFacts := s.screenFacts o,
    pendingPos := allPositions t.v, commitDue := true }

/-- A redraw is due: the output shows no screen yet, its facts have changed, or the monitor's timing has. -/
def State.screenDue (s : State) (o : HeadNo) : Bool :=
  let v := s.view o
  !v.screen || v.screenFacts != s.screenFacts o || v.screenAt != s.screenTiming o

def execStatusScreenRedraw (hd : HeadNo) (ut : Nat) (s : State) : Host.Outcome State Fault Refusal :=
  let s := s.arrive ut
  .next (if s.mode.mode != .unsupervised && s.showsScreen hd && (s.head hd).st != .absent && (s.view hd).owed.isNone &&
      s.screenDue hd then s.drawScreen hd
    else s)

/-- A return from the status screen to the head that the output shows: `HEAD_CONFIG` and a full resend
(R239, R241). -/
def State.leaveScreen (s : State) (o : HeadNo) : State :=
  if (s.view o).screen && !s.showsScreen o then
    (s.configFor o none).fullResend o
  else s

end Sys2Proof.Machine
end

