-- ==== Sys2Proof/Machine/Domains.lean ====
section
/-! DEFINITION. Power domains: transitions and wakes, and the regulators' requests (11 R304, R307 to R312). -/

namespace Sys2Proof.Machine

/-! ### Transitions (R307 to R309) -/

/-- The outputs of a TE cluster follow its domain (09 R263). -/
def State.clusterPorts (s : State) (c : CoreId) (d : Nat) : State :=
  if 2 ≤ d ∧ d ≤ 5 then
    let st : FabState := match (s.domain c d).st with
      | .on => .up
      | .retention => .sleeping
      | .off => .down
    (s.setPortState c (140 + 2 * (d - 2)) st).setPortState c (141 + 2 * (d - 2)) st
  else s

/-! ### Regulators (R312) -/

/-- Domains of a rail: VTE, or VDSP. -/
def railDomains (vdsp : Bool) : List Nat := if vdsp then [6, 7, 8, 9] else [2, 3, 4, 5]

/-- When all four domains of a rail have left on, the rail is to be lowered. -/
def State.lowerRail (s : State) (c : CoreId) (vdsp : Bool) : State :=
  let idle := (railDomains vdsp).all fun d => (s.domain c d).st != .on && (s.domain c d).going.isNone
  let p := s.powCore c
  let req : RailReq := { raise := false, second := false, sentUt := s.ut c, waiters := [] }
  if !idle then s
  else if vdsp then (if p.vdspLow || p.vdsp.isSome then s else s.setPowCore c { p with vdsp := some req })
  else if p.vteLow || p.vte.isSome then s
  else s.setPowCore c { p with vte := some req }

/-- The regulator has answered: the rail is raised and its domains start their exits, or it is lowered. The AO controller is the
requester, so that the supervisor's private source 5 is not raised (R312). -/
def State.railAck (s : State) (c : CoreId) (vdsp : Bool) : State :=
  let p := s.powCore c
  match (if vdsp then p.vdsp else p.vte) with
  | none => s
  | some r =>
    let s := s.setPowCore c (if vdsp then { p with vdsp := none, vdspLow := !r.raise } else { p with vte := none, vteLow := !r.raise })
    r.waiters.foldl (fun s d => s.startExit c d) s

/-- A domain that is off has lost its contents (R304): the engines of a cluster, the channels and pipes of a display group,
the seat interfaces of a port group, the DRAM (log entry 112). -/
def State.loseDomain (s : State) (c : CoreId) (d : Nat) : State :=
  if 2 ≤ d ∧ d ≤ 5 then (clusterTes (toFin 3 (d - 2))).foldl (fun s t => s.setTeSt c t TeSt.init) s
  else if 6 ≤ d ∧ d ≤ 9 then (List.range 4).foldl (fun s k => (s.setGather c (4 * (d - 6) + k) GatherSt.init).setPipe c (4 * (d - 6) + k) none) s
  else if 10 ≤ d ∧ d ≤ 17 then
    (allSeats.filter fun x => x.val / 8 == d - 10 && s.servingCore x == c).foldl (fun s x =>
      allTunnels.foldl (fun s t =>
        let u := s.tun x t
        (u.held ++ u.queue).foldl (fun s f => s.freeTx x f false) (s.setTun x t TunSt.init)) s) s
  else if 18 ≤ d ∧ d ≤ 23 then s.setDram c []
  else s

/-- A candidate source waits for a target that lies in the domain (05 R144). -/
def State.candidateFor (s : State) (c : CoreId) (d : Nat) : Bool :=
  let e := s.evtCore c
  (e.pending.any fun w => (List.range 64).any fun b =>
    (w.2 &&& ~~~(e.maskW w.1)).getLsbD b && targetDomain (bits (e.src (64 * w.1 + b)).toNat 5 0) == some d) ||
  e.privPending.any fun w => targetDomain w.1 == some d && w.2 &&& ~~~(e.privMaskW w.1) != 0

/-- A domain's transition has ended (R307 to R310). -/
def State.transitionDone (s : State) (c : CoreId) (d : Nat) : State :=
  let x := s.domain c d
  match x.going with
  | none => s
  | some (st, t) =>
    if s.ut c < t then s
    else
      let up := st = .on
      let y := { x with st := st, going := none, transitions := x.transitions + 1, oscSince := if up then some (s.ut c) else none,
                        holdUntil := if up ∧ x.target ≠ .on then some (s.ut c + 100000) else none }
      let s := ((s.setDomain c d y).edge c 888).count c 0x090 [] 1
      let s := if up then s.edge c 891 else s
      let s := s.clusterPorts c d
      let s := if st = .off then s.loseDomain c d else s
      let s := if st = .retention ∧ s.candidateFor c d then s.wake c d else s
      let s := if up ∧ 6 ≤ d ∧ d ≤ 9 then s.feedPipes c else s
      let y := s.domain c d
      if y.wakeLatched && !up then (s.setDomain c d { y with wakeLatched := false }).startExit c d
      else
        let s := s.setDomain c d { y with pendingT := if y.holdUntil.isSome then y.pendingT else none, wakeLatched := false }
        let s := s.moveDomain c d
        if 2 ≤ d ∧ d ≤ 5 then s.lowerRail c false else if 6 ≤ d ∧ d ≤ 9 then s.lowerRail c true else s

def execDomainTransitionDone (c : CoreId) (d : DomainNo) (ut : Nat) (s : State) : Host.Outcome State Fault Refusal :=
  .next ((s.arrive ut).transitionDone c d.val)

def execDomainWake (c : CoreId) (d : DomainNo) (ut : Nat) (s : State) : Host.Outcome State Fault Refusal :=
  let s := s.arrive ut
  .next (if d.val = 0 then s else (s.wake c d.val))

/-- A woken domain whose work has ended returns to its target 100 µs later, and a pending target then runs (R307, R309). -/
def State.holdEnd (s : State) (c : CoreId) (d : Nat) : State :=
  let x := s.domain c d
  match x.holdUntil with
  | none => s
  | some t =>
    let work := (2 ≤ d ∧ d ≤ 5 ∧ s.clusterWork c (d - 2)) ∨ (6 ≤ d ∧ d ≤ 9 ∧ s.groupWork c (d - 6))
    if s.ut c < t ∨ work then s else (s.setDomain c d { x with holdUntil := none, pendingT := none }).settleDomain c d

def execWakeHoldEnd (c : CoreId) (d : DomainNo) (ut : Nat) (s : State) : Host.Outcome State Fault Refusal :=
  .next ((s.arrive ut).holdEnd c d.val)

/-- The supervisor switches a domain to its PLL (R310). -/
def State.clockSwitch (s : State) (c : CoreId) (d : Nat) : State := s.setDomain c d { s.domain c d with oscSince := none }

def execClockSwitch (c : CoreId) (d : DomainNo) (s : State) : Host.Outcome State Fault Refusal :=
  .next (s.clockSwitch c d.val)

/-- 1 ms after the exit the AO controller makes the switch (R310). -/
def execClockSwitchTimeout (c : CoreId) (d : DomainNo) (ut : Nat) (s : State) : Host.Outcome State Fault Refusal :=
  let s := s.arrive ut
  .next (match (s.domain c d.val).oscSince with
    | some t => if t + ms ≤ s.ut c then s.clockSwitch c d.val else s
    | none => s)

def execPmbusAck (c : CoreId) (vdsp : Bool) (s : State) : Host.Outcome State Fault Refusal :=
  .next (s.railAck c vdsp)

/-- A client vote is written: the policy's through the unit-registers window, a manager's through its port's
function (`DOMAIN_VOTE_d`). -/
def State.writeVote (s : State) (w : Via) (c : CoreId) (d : Nat) (v : W64) : State :=
  let x := s.domain c d
  let f (l : Nat) : BitVec 2 := BitVec.ofNat 2 (bits v.toNat (l + 1) l)
  (s.setDomain c d (match w with
    | .prog _ => { x with policy := f 8 }
    | .host ⟨.h0, _⟩ => { x with managerH0 := f 2 }
    | .host ⟨.h1, _⟩ => { x with managerH1 := f 4 })).settleDomain c d

def execDomainVoteWrite (w : Via) (c : CoreId) (d : DomainNo) (v : W64) (s : State) : Host.Outcome State Fault Refusal :=
  .next (if s.viaHeard w then s.writeVote w c d.val v else s)

end Sys2Proof.Machine
end

