-- ==== Sys2Proof/Machine/SeatPower.lean ====
section
/-! DEFINITION. Seat ports as power sourcing equipment: detection, classes, power on, faults and shedding (11 R296
to R303). Powers are in 0.1 W. -/

namespace Sys2Proof.Machine

/-- `Pclass` of an assigned class (R296). -/
def pClass (a : Nat) : Nat :=
  if a = 1 then 40 else if a = 2 then 70 else if a = 3 then 154 else if a = 4 then 300 else if a = 5 then 450
  else if a = 6 then 600 else 0

def PowerState.code : PowerState → Nat
  | .off => 0
  | .detecting => 1
  | .classifying => 2
  | .waiting => 3
  | .powering => 4
  | .powered => 5
  | .shed => 6
  | .retryWait => 7
  | .fault => 8
  | .foreign => 9
  | .test => 10

/-- A seat port's registers change; its source follows a change of `STATE`. -/
def State.putPower (s : State) (x : Seat) (v : SeatPower) : State :=
  let old := (s.seatPower x).st
  let s := s.setSeatPower x v
  if v.st = old then s else s.edge (s.servingCore x) (64 + x.val)

def State.watts (s : State) (x : Seat) : Nat := min 60 (bits (s.seatTraf x).watts.toNat 7 0)

def SeatPower.isPowered (v : SeatPower) : Bool := v.st == .powered || v.st == .powering

/-- Power is removed from a port (R298 to R302). -/
def State.removePower (s : State) (x : Seat) (cause : Nat) (st : PowerState) (waitUntil : Nat) : State :=
  let v := s.seatPower x
  s.putPower x { v with
    st := st, cause := if v.isPowered then BitVec.ofNat 4 cause else v.cause, assigned := 0, pairsets := 0, waitUntil := waitUntil,
    mean1s := 0, peak1s := 0, volts := 0 }

/-- `ENABLE` and `WATTS` decide whether the port may be powered (R297). -/
def State.mayPower (s : State) (x : Seat) : Bool := (s.seatPower x).enable && s.watts x != 0

/-- `ENABLE` or `WATTS` has changed: a port that may not be powered reads `OFF`; one that may again detects. -/
def State.powerAllowed (s : State) (x : Seat) : State :=
  let v := s.seatPower x
  if s.mayPower x then (if v.st = .off then s.putPower x { v with st := .detecting, waitUntil := 0 } else s)
  else if v.st = .off ∨ v.st = .test ∨ v.st = .foreign then s
  else s.removePower x 7 .off 0

/-- The committed power of a powered port (R297). -/
def State.committed (s : State) (x : Seat) : Nat :=
  let v := s.seatPower x
  if v.isPowered then (if s.now < v.poweredUt + 10000 * ms then max v.mean1s (pClass v.assigned) else v.mean1s) else 0

/-- The classes assignable to a requested class, highest first (R296, R297). `one`: one pairset only, or a
dual-signature PD: at most class 4. -/
def assignable (c : Nat) (one : Bool) : List Nat :=
  let top := min c (if one then 4 else 6)
  let all := top :: ((if 5 ≤ top then [4] else []) ++ if 4 ≤ top then [3] else [])
  all.filter fun a => decide (0 < a)

/-- The highest assignable class that meets both conditions of R297. -/
def State.classFor (s : State) (x : Seat) : Option Nat :=
  let v := s.seatPower x
  let k := (allSeats.map fun y => if y = x then 0 else s.committed y).sum
  (assignable v.requested (v.dual || v.sigPairs != 3)).find? fun a =>
    decide (pClass a ≤ max (10 * s.watts x) 154 ∧ k + pClass a ≤ 10 * s.pow.budget)

/-- A port is powered. -/
def State.powerOn (s : State) (x : Seat) (a : Nat) : State :=
  let v := s.seatPower x
  s.putPower x { v with st := .powered, assigned := a, pairsets := if v.dual then 1 else v.sigPairs, poweredUt := s.now, mean1s := 0, peak1s := 0 }

/-- Seat power is served: not in SAFE STOP or without supply, nor before step 7 of a cold start (12 R319, R336). -/
def State.powerServed (s : State) : Bool :=
  match s.mode.mode with
  | .safeStop => false
  | .unpowered => false
  | .coldStart => decide (7 ≤ (s.startStep).getD 0)
  | _ => true

/-- Detection (R297): a valid signature is classified; the port then waits for its turn. A signature on one
pairset only is an open conductor (R302). -/
def State.detect (s : State) (x : Seat) (g : PdSig) : State :=
  let v := s.seatPower x
  if !s.mayPower x then s.powerAllowed x
  else if v.st ≠ .detecting ∨ s.now < v.waitUntil then s
  else
    let pairs : BitVec 2 := BitVec.ofNat 2 (b2n g.pairsetA + 2 * b2n g.pairsetB)
    if g.valid && g.classReq.val != 0 && pairs != 0 then
      s.putPower x { v with st := .classifying, requested := g.classReq.val, dual := g.dual, sigPairs := pairs }
    else s.putPower x { v with requested := 0, sigPairs := 0, waitUntil := s.now + 500 * ms }

def execDetection (x : Seat) (sig : PdSig) (ut : Nat) (s : State) : Host.Outcome State Fault Refusal :=
  let s := s.arrive ut
  .next (if s.powerServed then s.detect x sig else s)

/-- Waiting ports are examined in ascending order; at most one port is powered on in each 10 ms (R297). -/
def State.examine (s : State) : State :=
  let ready := allSeats.filter fun x => (s.seatPower x).st == .classifying || (s.seatPower x).st == .waiting
  let may := match s.pow.lastOn with
    | none => true
    | some t => decide (t + 10 * ms ≤ s.now)
  let first := if may then ready.find? fun x => s.mayPower x && (s.classFor x).isSome else none
  let s := ready.foldl (fun s x =>
    let v := s.seatPower x
    if !s.mayPower x then s.powerAllowed x
    else if some x = first then s
    else if v.st = .classifying ∧ (s.classFor x).isNone then s.putPower x { v with st := .waiting }
    else s) s
  match first with
  | none => s
  | some x =>
    match s.classFor x with
    | some a => (s.powerOn x a).setPow { (s.powerOn x a).pow with lastOn := some s.now }
    | none => s

def execPowerOnExamine (ut : Nat) (s : State) : Host.Outcome State Fault Refusal :=
  let s := s.arrive ut
  .next (if s.powerServed then s.examine else s)

/-- The maintain power signature is lost (R299). -/
def execMpsLost (x : Seat) (ut : Nat) (s : State) : Host.Outcome State Fault Refusal :=
  let s := s.arrive ut
  .next (if (s.seatPower x).isPowered then s.removePower x 5 .detecting 0 else s)

/-! ### Shedding (R301) -/

/-- S in 0.1 W: the 1 s means of the powered ports (11 R301). -/
def State.totalDraw (s : State) : Nat := (allSeats.map fun x => if (s.seatPower x).isPowered then (s.seatPower x).mean1s else 0).sum

/-- S in W, as `SEAT_DRAW_W` shows it. -/
def State.drawW (s : State) : Nat := s.totalDraw / 10

/-- The latest 1 s means of the powered ports. -/
def State.takeMeans (s : State) (m : List Nat) : State :=
  allSeats.foldl (fun s x =>
    let v := s.seatPower x
    if v.isPowered then s.setSeatPower x { v with mean1s := (m[x.val]?).getD 0 } else s) s

/-- The powered port that is shed first: the greatest draw above its allotment, ties to the higher seat. -/
def State.shedNext (s : State) : Option Seat :=
  allSeats.foldl (fun best x =>
    if !(s.seatPower x).isPowered then best
    else
      let key (y : Seat) : Int := ((s.seatPower y).mean1s : Int) - 10 * (s.watts y : Int)
      match best with
      | none => some x
      | some b => if key b ≤ key x then some x else some b) none

/-- Remove ports until S ≤ B. -/
def State.shedUntil : Nat → State → Nat → State
  | 0, s, _ => s
  | n + 1, s, cause =>
    if s.totalDraw ≤ 10 * s.pow.budget then s
    else
      match s.shedNext with
      | none => s
      | some x =>
        let s := s.removePower x cause .shed (s.now + 2000 * ms)
        State.shedUntil n (s.setPow { s.pow with sheds := s.pow.sheds + 1 }) cause

def execSoftShed (mean1s : List Nat) (ut : Nat) (s : State) : Host.Outcome State Fault Refusal :=
  .next (((s.arrive ut).takeMeans mean1s).shedUntil 64 3)

/-- A supply delivers: present, input and output good (R292). -/
def SupplySt.delivers (v : SupplySt) : Bool := v.present && v.acOk && v.dcOk

/-- One supply delivers alone above 105 % of its rating. -/
def State.aloneOver (s : State) : Bool :=
  (s.pow.sa.delivers && !s.pow.sb.delivers && s.pow.sa.overload) || (s.pow.sb.delivers && !s.pow.sa.delivers && s.pow.sb.overload)

def execHardShed (mean1s : List Nat) (ut : Nat) (s : State) : Host.Outcome State Fault Refusal :=
  let s := (s.arrive ut).takeMeans mean1s
  .next (if s.aloneOver then s.shedUntil 64 4 else s)

def execShedEnd (x : Seat) (ut : Nat) (s : State) : Host.Outcome State Fault Refusal :=
  let s := s.arrive ut
  let v := s.seatPower x
  .next (if v.st = .shed ∧ v.waitUntil ≤ s.now then s.putPower x { v with st := .waiting } else s)

/-! ### Pair faults (R302) -/

/-- A short or an overload: a retry after 2 s; after 5 retries in a row that fail, `FAULT` and every 60 s. -/
def State.pairFault (s : State) (x : Seat) (cause : Nat) : State :=
  let v := s.seatPower x
  if !v.isPowered then s
  else
    let n : Byte := if v.retrying then BitVec.ofNat 8 (satAdd 0xFF v.retries.toNat 1) else v.retries
    let failed := decide (5 ≤ n.toNat)
    let s := s.setSeatPower x { v with retries := n }
    s.removePower x cause (if failed then .fault else .retryWait) (s.now + if failed then 60000 * ms else 2000 * ms)

def execPairShort (x : Seat) (ut : Nat) (s : State) : Host.Outcome State Fault Refusal :=
  .next ((s.arrive ut).pairFault x 1)

def execPairOverload (x : Seat) (ut : Nat) (s : State) : Host.Outcome State Fault Refusal :=
  .next ((s.arrive ut).pairFault x 2)

def execFaultRetry (x : Seat) (ut : Nat) (s : State) : Host.Outcome State Fault Refusal :=
  let s := s.arrive ut
  let v := s.seatPower x
  .next (if (v.st = .retryWait ∨ v.st = .fault) ∧ v.waitUntil ≤ s.now then
      s.putPower x { v with st := .detecting, retrying := true, waitUntil := 0 }
    else s)

def execFaultRetryCountClear (x : Seat) (ut : Nat) (s : State) : Host.Outcome State Fault Refusal :=
  let s := s.arrive ut
  let v := s.seatPower x
  .next (if v.isPowered ∧ v.poweredUt + 60000 * ms ≤ s.now then s.setSeatPower x { v with retries := 0, retrying := false } else s)

/-- Only the good pairset stays powered, or will be, at class 4 at most; the distance is measured (R302). -/
def State.openConductor (s : State) (x : Seat) (goodA : Bool) (metres : Nat) : State :=
  let v := s.seatPower x
  let p : BitVec 2 := if goodA then 1 else 2
  let v := { v with sigPairs := p, openDistance := BitVec.ofNat 8 (min 0xFE metres) }
  s.setSeatPower x (if v.isPowered then { v with pairsets := p, assigned := min 4 v.assigned } else v)

def execOpenConductorDetected (x : Seat) (goodA : Bool) (metres : Nat) (s : State) : Host.Outcome State Fault Refusal :=
  .next (s.openConductor x goodA metres)

/-! ### `SEAT_POWER_CONTROL` -/

/-- `CYCLE`: no power for 2 s, then detection again (R298). -/
def State.cyclePort (s : State) (x : Seat) : State :=
  if (s.seatPower x).isPowered then s.removePower x 8 .detecting (s.now + 2000 * ms) else s

def execCycle (w : Via) (x : Seat) (s : State) : Host.Outcome State Fault Refusal :=
  .next (if s.viaHeard w && s.viaMay w then s.cyclePort x else s)

/-- `ENABLE` and `WAKE_ENABLES_LINK` are written and stored; `CYCLE` may come with them. -/
def State.writePowerControl (s : State) (x : Seat) (v : W64) : State :=
  let p := s.seatPower x
  let s := s.setSeatPower x { p with enable := v.getLsbD 0, wakeLink := v.getLsbD 2 }
  let s := s.storeUpdate fun t => { t with powerCtl := tset t.powerCtl x.val (v &&& 5) 5 }
  let s := s.powerAllowed x
  if v.getLsbD 1 then s.cyclePort x else s

def execSeatPowerEnableWrite (w : Via) (x : Seat) (v : W64) (s : State) : Host.Outcome State Fault Refusal :=
  .next (if s.viaHeard w && s.viaMay w then s.writePowerControl x v else s)

end Sys2Proof.Machine
end

