-- ==== Sys2Proof/Machine/Gate.lean ====
section
/-! DEFINITION. Gate schedules, the calibration slot, weighted fair queuing and the choice of the next frame on
a seat's line (10 R267 to R274, R282, R284; 07 R215, R218). -/

namespace Sys2Proof.Machine

/-! ### Schedules and the keep-clear interval (R267) -/

/-- A valid entry of the staged schedule (`GATE_ENTRY_s_e`). -/
def SeatTraf.entryWord (t : SeatTraf) (e : Nat) : Nat := (tget t.entries e (gateEntryInit e)).toNat

/-- The staged entries as a schedule, when the valid ones are 0 to k - 1 with no gap (R268 step 1). -/
def SeatTraf.staged (t : SeatTraf) : Option (List (Nat × BitVec 6)) :=
  let v := (List.range 16).filter fun e => bit (t.entryWord e) 40
  if v = List.range v.length ∧ v ≠ [] then
    some (v.map fun e => (bits (t.entryWord e) 16 0, BitVec.ofNat 6 (bits (t.entryWord e) 37 32)))
  else none

/-- Entries with their ends: the next start, or 125,000 ns (R267). -/
def withEnds : List (Nat × BitVec 6) → List (Nat × Nat × BitVec 6)
  | [] => []
  | (a, o) :: r =>
    let e := match r with
      | [] => microFrame
      | (b, _) :: _ => b
    (a, e, o) :: withEnds r

/-- Steps 2 and 3 of R268. -/
def scheduleShape (l : List (Nat × BitVec 6)) : Bool :=
  (match l with
    | (0, _) :: _ => true
    | _ => false) &&
  (withEnds l).all fun e => decide (e.1 + 1000 ≤ e.2.1)

/-- The schedule in force: the reset entries under `FALLBACK` (R270). -/
def SeatTraf.inForce (t : SeatTraf) : List (Nat × Nat × BitVec 6) := withEnds (if t.fallback then resetSchedule else t.applied)

/-- The keep-clear interval of a slot, as its parts within a frame: one that starts in the frame before has a part at
that frame's end; none without a slot (R267). -/
def keepClear (slot : Nat × Nat) (d : Nat) : List (Nat × Nat) :=
  if slot.2 = 0 then []
  else if d + 100 ≤ slot.1 then [(slot.1 - (d + 100), slot.1 + slot.2)]
  else [(0, slot.1 + slot.2), (frameNs + slot.1 - (d + 100), frameNs)]

/-- The unbroken parts of a stretch of a frame that are clear of the interval. -/
def clearParts (clear : List (Nat × Nat)) (a b : Nat) : List (Nat × Nat) :=
  clear.foldl (fun l k => l.flatMap fun p => [(p.1, min p.2 k.1), (max p.1 k.2, p.2)]) [(a, b)]

/-- A tunnel is open in an entry: CTRL and SYNC always are (R267). -/
def opens (o : BitVec 6) (t : Tunnel) : Bool :=
  match t with
  | .ctrl => true
  | .sync => true
  | t => o.getLsbD t.code

/-- The fit check of R269: for each of USB, ISO, DISP and NET and each micro-frame, an entry holds a part long
enough for the largest frame. -/
def fitCheck (l : List (Nat × BitVec 6)) (overhead rate : Nat) (clear : List (Nat × Nat)) : Bool :=
  [Tunnel.usb, .iso, .disp, .net].all fun t =>
    (List.range 8).all fun p =>
      (withEnds l).any fun e =>
        let a := p * microFrame + e.1
        let b := p * microFrame + e.2.1
        opens e.2.2 t && (clearParts clear a b).any fun q => fitsIn 9216 overhead rate (q.2 - q.1)

/-- The rate that a fit check uses: 2.5 Gb/s while the link is down (R268). -/
def State.fitRate (s : State) (x : Seat) : Nat := if (s.link_ x).st.carries then (s.link_ x).rate.toNat else 1

def State.clearOf (s : State) (x : Seat) : List (Nat × Nat) :=
  let t := s.seatTraf x
  keepClear (t.calOff, t.calLen) (s.seatTime x).dDelay

/-- `MARGIN` and `MIN_MARGIN`: 0x8000 while the slot in force has no length (07 R219). -/
def State.margins (s : State) (x : Seat) : Half × Half :=
  if ((s.seatTraf x).settle (s.ut (s.servingCore x))).calNow.2 = 0 then (0x8000, 0x8000)
  else ((s.seatTime x).margin, (s.seatTime x).minMargin)

/-- At a `WELCOME` and at a change of rate the applied schedule, the last one accepted, is checked again (R270): one that
waits for its micro-frame and fails governs no micro-frame. -/
def State.gateRecheck (s : State) (x : Seat) : State :=
  let s := s.settleGate x
  let t := s.seatTraf x
  let ok (l : List (Nat × BitVec 6)) (ov : Nat) : Bool := fitCheck l ov (s.link_ x).rate.toNat (s.clearOf x)
  s.setSeatTraf x (match t.nextSchedule with
    | some (_, l, ov) =>
      if ok l ov then { t with fallback := !ok t.applied t.appliedOverhead }
      else { t with applied := l, appliedOverhead := ov, nextSchedule := none, fallback := true }
    | none => { t with fallback := !ok t.applied t.appliedOverhead })

/-! ### `TIME_BASE` (07 R215; 10 R267) -/

/-- The calibration fields that the dock holds once every `TIME_BASE` sent has applied. -/
def SeatTraf.calTold (t : SeatTraf) : Nat × Nat := ((t.calNext.getLast?).map (·.2)).getD t.calNow

/-- Send a `TIME_BASE` with the present delay and calibration fields; they apply 3 frames on, which is at least
2 frames after the frame of its first transmission (log entry 15). -/
def State.sendTimeBase (s : State) (x : Seat) : State :=
  let c := s.servingCore x
  let t := s.seatTraf x
  let d := s.seatTime x
  let m := s.ut c / frameNs + 3
  let s := s.setSeatTime x { d with lastBase := s.ut c }
  let s := s.setSeatTraf x { t with calNext := if t.calTold = (t.calOff, t.calLen) then t.calNext else t.calNext ++ [(m, t.calOff, t.calLen)] }
  s.sendSync x 0x10 (leBytes 8 (s.ut c) ++ leBytes 4 d.dDelay ++ leBytes 4 t.calOff ++ leBytes 2 t.calLen ++ leBytes 2 0 ++ leBytes 8 m)

/-! ### Buckets (R282, R284) -/

def regDepth (v : W64) : Nat := max 9042 (bits v.toNat 47 24)
def regRate (v : W64) : Nat := min 1000 (bits v.toNat 10 0)

/-- The charge of a desk frame (R282). -/
def frameCharge (n : Nat) : Nat := max n 60 + 24

/-- The level at `now`, in 1/8000 byte (R282). -/
def Bucket.eval (b : Bucket) (rate depth now : Nat) : Bucket :=
  { level := min (depth * 8000) (b.level + rate * (now - b.ut)), ut := now }

def Bucket.has (b : Bucket) (n : Nat) : Bool := decide (n * 8000 ≤ b.level)
def Bucket.take (b : Bucket) (n : Nat) : Bucket := { b with level := b.level - n * 8000 }

/-- The peak rate of a pair: 0 blocks, else at least the committed rate (10, zero cases). -/
def peakRate (c p : W64) : Nat := if regRate p = 0 then 0 else max (regRate c) (regRate p)

/-- The shaper's two buckets at `now`. -/
def SeatTraf.shaper (t : SeatTraf) (now : Nat) : Bucket × Bucket :=
  (t.bShapeC.eval (regRate t.shapeC) (regDepth t.shapeC) now, t.bShapeP.eval (peakRate t.shapeC t.shapeP) (regDepth t.shapeP) now)

/-- The policer's two buckets at `now`. -/
def SeatTraf.policer (t : SeatTraf) (now : Nat) : Bucket × Bucket :=
  (t.bPoliceC.eval (regRate t.policeC) (regDepth t.policeC) now, t.bPoliceP.eval (peakRate t.policeC t.policeP) (regDepth t.policeP) now)

/-- The NET head may start (R284). -/
def SeatTraf.netEligible (t : SeatTraf) (now n : Nat) : Bool :=
  peakRate t.shapeC t.shapeP != 0 && (t.shaper now).2.has n

/-- The NET head is yellow: a committed rate of 0 makes every frame so (R284). -/
def SeatTraf.netYellow (t : SeatTraf) (now n : Nat) : Bool := regRate t.shapeC == 0 || !(t.shaper now).1.has n

/-! ### Frames discarded before they are sent (09 R263) -/

/-- A queued frame's islet may still use the seat: account 0, the owner, or a DISP frame of a head that the
output shows (08 R234). -/
def State.mayLeave (s : State) (x : Seat) (t : Tunnel) (f : TxFrame) : Bool :=
  f.acct == 0 || (s.owner x).val == f.acct ||
    (t == .disp && (s.islet (toIslet f.acct)).st != .free && (s.view (unitHead x (toFin 1 f.local_))).source.isSome)

/-- Discard queued frames of islets that are gone or no longer own the seat, and in a hold-down the frames held for them
(07 R211); the port counts them. -/
def State.dropDisowned (s : State) (x : Seat) : State :=
  allTunnels.foldl (fun s t =>
    let u := s.tun x t
    let down := (s.link_ x).holdStart.isSome
    let lost (f : TxFrame) : Bool := !s.mayLeave x t f
    let gone := u.queue.filter lost ++ (if down then u.held.filter lost else [])
    if gone.isEmpty then s
    else
      let c := s.servingCore x
      let s := s.setTun x t { u with queue := u.queue.filter (fun f => !lost f), held := if down then u.held.filter (fun f => !lost f) else u.held }
      let s := gone.foldl (fun s f => s.freeNumbered c x f.frame) s
      let p := s.fabPort c x.val
      s.setFabPort c x.val { p with discards := p.discards + BitVec.ofNat 16 gone.length }) s

/-! ### The choice (R271, R272) -/

/-- The window left from `now` for a frame: to the end of the entry in force and to the keep-clear interval; 0
inside that interval. With it, the open set. -/
def SeatTraf.window (t : SeatTraf) (now d : Nat) : Nat × BitVec 6 :=
  let p := now % microFrame
  let f := now % frameNs
  match (t.inForce).find? (fun e => decide (e.1 ≤ p ∧ p < e.2.1)) with
  | none => (0, 0)
  | some (_, e, o) =>
    ((keepClear t.calNow d).foldl (fun n k => if k.1 ≤ f ∧ f < k.2 then 0 else if f < k.1 then min n (k.1 - f) else n) (e - p), o)

/-- A bare frame with a payload of `n` bytes may start now: like CTRL it is open in every entry, and the guard band
holds for it (R271, 07 R195). -/
def State.bareRoom (s : State) (x : Seat) (n : Nat) : Bool :=
  let t := (s.seatTraf x).settle (s.ut (s.servingCore x))
  (s.link_ x).maySend .ctrl &&
    fitsIn (n + 20) t.appliedOverhead (s.rateOf x) (t.window (s.ut (s.servingCore x)) (s.seatTime x).dDelay).1

/-- A candidate's frame may start: its tunnel may send, the window is open for a new frame (07 R193), and a NET head is
eligible (R284). -/
def State.candOk (s : State) (x : Seat) (c : Cand) : Bool :=
  (s.link_ x).maySend c.tn && (c.resend.isSome || (s.tun x c.tn).windowOpen c.tn) &&
    (c.tn != .net || c.resend.isSome || (s.seatTraf x).netEligible (s.ut (s.servingCore x)) (frameCharge c.f.bytes.length))

def State.candYellow (s : State) (x : Seat) (c : Cand) : Bool :=
  c.tn == .net && c.resend.isNone && (s.seatTraf x).netYellow (s.ut (s.servingCore x)) (frameCharge c.f.bytes.length)

/-- Charge the shaper for a NET frame that starts (R284). -/
def State.chargeShaper (s : State) (x : Seat) (n : Nat) (yellow : Bool) : State :=
  let t := s.seatTraf x
  let (c, p) := t.shaper (s.ut (s.servingCore x))
  let s := s.setSeatTraf x { t with bShapeC := if yellow then c else c.take n, bShapeP := p.take n }
  if yellow then
    let d := s.demand x
    s.setDemand x { d with excess := satAdd 0xFFFFFFFF d.excess n }
  else s

/-- Send the chosen frame. -/
def State.sendCand (s : State) (x : Seat) (c : Cand) : State :=
  let yellow := s.candYellow x c
  let s := s.setWfq x ((s.wfq x).started c)
  match c.resend with
  | some (q, r) => s.sendAgain x c.tn q r
  | none =>
    let s := if c.tn = .net then s.chargeShaper x (frameCharge c.f.bytes.length) yellow else s
    s.sendNew x c.tn { c.f with yellow := yellow } c.rest

/-- The candidate with the smallest finish tag; ties to the lower tunnel code. -/
def smallest (w : SeatWfq) : List Cand → Option Cand
  | [] => none
  | c :: r =>
    match smallest w r with
    | none => some c
    | some d => if tagLt (w.q d.tn).finish (w.q c.tn).finish then some d else some c

/-- The CTRL or SYNC frame that goes first: resends before new frames, CTRL before SYNC (R272). -/
def State.controlHead (s : State) (x : Seat) (fits : Cand → Bool) : Option Cand :=
  let ok (c : Option Cand) : Option Cand := c.filter fun c => fits c && s.candOk x c
  let u := s.tun x .ctrl
  let v := s.tun x .sync
  ((ok (u.resendHead .ctrl)).or (ok (v.resendHead .sync))).or
    (((ok (if u.resend.isEmpty then u.newHead .ctrl (fun _ => true) else none))).or
      (ok (if v.resend.isEmpty then v.newHead .sync (fun _ => true) else none)))

/-- The line is free: choose and send (R272). -/
def State.lineFree (s : State) (x : Seat) : State :=
  let c := s.servingCore x
  let s := (((s.settleGate x).dropDisowned x).offerKept c).dropIso x
  let t := s.seatTraf x
  let now := s.ut c
  let (win, o) := t.window now (s.seatTime x).dDelay
  let room (n : Nat) : Bool := fitsIn n t.appliedOverhead (s.rateOf x) win
  match s.controlHead x (fun f => room f.len) with
  | some f => s.sendCand x f
  | none =>
    let (s, heads) := s.tagHeads x
    let able := heads.filter fun f => opens o f.tn && s.candOk x f && room f.len
    match smallest (s.wfq x) (able.filter fun f => !s.candYellow x f) with
    | some f => s.sendCand x f
    | none =>
      match able with
      | f :: _ => s.sendCand x f
      | [] =>
        let due := (s.dueReport x).isSome || decide ((s.link_ x).lastTx + 50000 ≤ now)
        if due && s.bareRoom x 0 then s.sendBare x [] else s

/-- The seat output may start a frame now: served, link carrying frames, no `HOLD`, line free (R267, 09 R263). The
exchange that ends a hold-down passes while the output is still in `HOLD` (07 R200; log entry 105). -/
def State.lineReady (s : State) (x : Seat) : Bool :=
  (s.link_ x).st.carries && s.serves (s.servingCore x) && ((s.fabPort (s.servingCore x) x.val).state != .hold || (s.link_ x).st == .greeting) &&
    decide ((s.wfq x).busyUntil ≤ s.ut (s.servingCore x))

def execLineFreeSelect (x : Seat) (ut : Nat) (s : State) : Host.Outcome State Fault Refusal :=
  let s := s.arrive ut
  .next (if s.lineReady x then s.lineFree x else s)

/-- At the start of an entry, heads of its open queues that are behind V are tagged again (R273). -/
def State.retag (s : State) (x : Seat) (o : BitVec 6) : State :=
  let (s, heads) := s.tagHeads x
  let t := s.seatTraf x
  let w := s.wfq x
  let cost (k : Tunnel) : Nat :=
    match heads.find? (fun c => c.tn == k) with
    | some c => frameCost c.len (s.overheadOf x) (t.weight k)
    | none => 0
  let f (q : WfqQ) (k : Tunnel) : WfqQ := if opens o k then q.again w.v (cost k) else q
  s.setWfq x { w with usb := f w.usb .usb, iso := f w.iso .iso, disp := f w.disp .disp, net := f w.net .net }

def execEntryStart (x : Seat) (ut : Nat) (s : State) : Host.Outcome State Fault Refusal :=
  let s := (s.arrive ut).settleGate x
  .next (match ((s.seatTraf x).inForce).find? (fun e => e.1 == ut % microFrame) with
    | some e => if s.ut (s.servingCore x) = ut then s.retag x e.2.2 else s
    | none => s)

/-! ### `GATE_CONTROL_s` (R267, R268) -/

/-- Whether a calibration slot may be set (R267). -/
def calOk (off len : Nat) : Bool :=
  decide (len ≤ 8000) && (decide (len = 0) || decide (55100 ≤ off % microFrame ∧ off % microFrame + len ≤ microFrame))

/-- `APPLY`: the checks of R268 in order; the schedule governs from the next micro-frame. -/
def State.applyGate (s : State) (x : Seat) : State :=
  let t := s.seatTraf x
  let now := s.ut (s.servingCore x)
  let ov := max 27 t.overhead.toNat
  match t.staged with
  | some l =>
    if scheduleShape l && fitCheck l ov (s.fitRate x) (s.clearOf x) then
      s.setSeatTraf x { t with nextSchedule := some ((now / microFrame + 1) * microFrame, l, ov) }
    else s.setSeatTraf x { t with refused := true }
  | none => s.setSeatTraf x { t with refused := true }

/-- A write of `GATE_CONTROL_s`: a refused calibration change changes no field (R267). -/
def State.writeGate (s : State) (x : Seat) (v : W64) : State :=
  let s := s.settleGate x
  let t := s.seatTraf x
  let off := bits v.toNat 19 0
  let len := bits v.toNat 44 32
  let changes := decide (off ≠ t.calOff ∨ len ≠ t.calLen)
  if changes && !calOk off len then s.setSeatTraf x { t with refused := true }
  else
    let s := s.setSeatTraf x { t with refused := rw1c t.refused (bit v.toNat 62), overhead := BitVec.ofNat 8 (bits v.toNat 55 48),
                                      calOff := off, calLen := len }
    let s := if changes && (s.link_ x).maySend .sync && (s.link_ x).st != .greeting then s.sendTimeBase x else s
    if bit v.toNat 61 then s.applyGate x else s

/-- A write of `GATE_CONTROL_s` through a function or a program. One without semaphore 0 is refused, and an `APPLY` or a
calibration change among it sets `GATE_REFUSED` (02 R33). -/
def State.gateWrite (s : State) (w : Via) (x : Seat) (v : W64) : State :=
  if !s.viaHeard w then s
  else if s.viaMay w then s.writeGate x v
  else
    let t := s.seatTraf x
    if bit v.toNat 61 ∨ bits v.toNat 19 0 ≠ t.calOff ∨ bits v.toNat 44 32 ≠ t.calLen then s.setSeatTraf x { t with refused := true } else s

def execGateApply (w : Via) (x : Seat) (v : W64) (s : State) : Host.Outcome State Fault Refusal :=
  .next (s.gateWrite w x v)

def execGateControlCalWrite (w : Via) (x : Seat) (v : W64) (s : State) : Host.Outcome State Fault Refusal :=
  .next (s.gateWrite w x v)

end Sys2Proof.Machine
end

