-- ==== Sys2Proof/Machine/Net.lean ====
section
/-! DEFINITION. Desk network entries and frames, demand records, the policy tick and the allotments (10 R275 to
R290). -/

namespace Sys2Proof.Machine

/-! ### Entry bodies (R276, R277) -/

/-- The body of a `NET_TRANSMIT`: its cause when malformed. -/
def netTxBody (b : List Byte) : Option Byte :=
  let n := fld b 1 1
  let len := fld b 10 2
  if fld b 9 1 ≠ 0 ∨ fld b 12 4 ≠ 0 ∨ fld b 24 8 ≠ 0 then some reservedNz
  else if 63 < fld b 8 1 ∨ len < 14 ∨ 9018 < len then some badBody
  else if 3 ≤ n then (if fld b 16 8 ≠ 0 then some badBody else scatterOk b (n - 2) len 9018)
  else none

/-- The body of a `NET_RECEIVE_BUFFER`. -/
def netRxBody (b : List Byte) : Option Byte :=
  let len := fld b 12 4
  if fld b 9 3 ≠ 0 ∨ fld b 24 8 ≠ 0 then some reservedNz
  else if 63 < fld b 8 1 ∨ len < 64 ∨ 16384 < len ∨ fld b 16 8 % 8 ≠ 0 then some badBody
  else none

/-- Open entries of a type for a seat. -/
def State.netEntries (s : State) (type : Nat) (x : Seat) : Nat :=
  (s.wq.entries.filter fun e => e.2.type == type && fld e.2.bytes 8 1 == x.val && e.2.ended.isNone).length

/-- Transmit frames of a seat taken and not sent (`TX_WAITING`): those sent wait for their acknowledgement only. -/
def State.netWaiting (s : State) (x : Seat) : Nat :=
  s.netEntries 0x30 x - ((s.tun x .net).held.filter fun f => f.handle.isSome).length

/-- Receive buffers of a seat taken and not filled (`RX_BUFFERS`). -/
def State.netBuffers (s : State) (x : Seat) : Nat := s.netEntries 0x31 x

/-- The limits of R278 on taking: an entry of a type for a seat. -/
def State.netHolds (s : State) (type : Nat) (x : Seat) : Bool :=
  (type == 0x30 && decide (256 ≤ s.netWaiting x)) || (type == 0x31 && decide (512 ≤ s.netBuffers x))

/-! ### Transmit (R278, R279) -/

/-- The input port of the network engine for a seat: one of ports 148 to 151 (09 R246; log entry 16). -/
def netInput (x : Seat) : Nat := 148 + x.val % 4

/-- The host buffer of a transmit entry. -/
def netSegs (b : List Byte) : List (Nat × Nat) :=
  if 3 ≤ fld b 1 1 then scatterOf b (fld b 1 1 - 2) else [(fld b 16 8, fld b 10 2)]

/-- A kind 4 item for one frame of a seat (R281): g1 holds the seat, the direction and the count; the descriptor's bytes are
free values (log entry 17). -/
def State.netItem (s : State) (x : Seat) (rx : Bool) (i : IsletNo) (src : Option Half) : State :=
  let c := s.servingCore x
  let (n, s) := s.draw
  let it : Item :=
    { Item.init with kind := 4, flow := BitVec.ofNat 24 ((if rx then 0x500 else 0x400) + x.val), islet := i, seat := some x,
                     arg := BitVec.ofNat 64 (x.val + at_ (b2n rx) 8 + at_ 1 16), frame := (List.range 64).filterMap fun k =>
                       if Config.descriptorByte n k = 0 then none else some (k, Config.descriptorByte n k),
                     srcFrame := src.map fun q => (x, q) }
  let s := match src with
    | some q => s.actMake x .net q
    | none => s
  s.readyItem c it

/-- Frames whose bytes have all come go to the seat's tunnel, in the order their entries were taken (R279). -/
def netPump : Nat → State → Seat → State
  | 0, s, _ => s
  | n + 1, s, x =>
    let u := s.seatNet x
    match u.tx with
    | [] => s
    | h :: r =>
      match s.entry? h with
      | none => netPump n (s.setSeatNet x { u with tx := r }) x
      | some e =>
        let b := tget u.data h []
        if b.length < fld e.bytes 10 2 || !s.mayEmit e.islet then s
        else
          let s := s.setSeatNet x { u with tx := r, data := terase u.data h }
          let s := (s.queueFrame x .net { Hand.plain b e.islet.val (netInput x) with handle := some h }).hand h
          netPump n (s.netItem x false e.islet none) x

/-- Data of a transmit frame has come (02 R30). -/
def State.netArrived (s : State) (h : Nat) (b : List Byte) : State :=
  match s.entry? h with
  | none => s
  | some e =>
    let x := toSeat (fld e.bytes 8 1)
    let f := s.entryFn e
    let s := s.transit f.core (trunkIn f.port) (netInput x) 2 b.length
    let u := s.seatNet x
    let s := s.setSeatNet x { u with data := tput u.data h (tget u.data h [] ++ b) }
    netPump 256 s x

/-- Issue the reads of a transmit entry. -/
def State.netReads (s : State) (e : EntrySt) (h : Nat) : List (Nat × Nat) → State
  | [] => s
  | (a, n) :: r => (s.issueRead (s.entryFn e) e.islet a n (.netTx h)).netReads e h r

/-- A `NET_TRANSMIT` is taken: it completes at once, or takes its place among the seat's frames (R278, R279). -/
def State.netTaken (s : State) (h : Nat) (e : EntrySt) : State :=
  let x := toSeat (fld e.bytes 8 1)
  let st := s.linkState x
  if s.owner x ≠ e.islet then s.finish h 0x60 0 0
  else if st = .unenrolled ∨ st = .authFailed then s.finish h 0x61 0 0
  else if st = .noPartner ∨ st = .foreign ∨ st = .disabled then s.finish h 0x03 0 0
  else
    let u := s.seatNet x
    s.setSeatNet x { u with tx := u.tx ++ [h] }

/-- The entry's data is fetched; a read that PASID Enable forbids fails at once (02 R41). -/
def State.netTransmit (s : State) (h : Nat) (e : EntrySt) : State :=
  if s.readsRefused (s.entryFn e) then ((s.failCount (s.entryFn e) e.islet).finish h 0x01 0 0).dropWork h
  else (s.begin_ h).netReads e h (netSegs e.bytes)

def execNetTransmit (c : CoreId) (h : Nat) (s : State) : Host.Outcome State Fault Refusal :=
  .next (match s.entryOf c h 0x30 with
    | some e => s.netTransmit h e
    | none => s)

/-- A receive buffer is taken: it waits for frames in every state of the link (R278). -/
def State.bufferTaken (s : State) (h : Nat) (e : EntrySt) : State :=
  let x := toSeat (fld e.bytes 8 1)
  if s.owner x ≠ e.islet then s.finish h 0x60 0 0
  else
    let u := s.seatNet x
    s.setSeatNet x { u with rx := u.rx ++ [h] }

/-- The command of a receive buffer runs: the buffer waits since it was taken. -/
def execNetReceiveBuffer (c : CoreId) (h : Nat) (s : State) : Host.Outcome State Fault Refusal :=
  .next (match s.entryOf c h 0x31 with
    | some _ => s.begin_ h
    | none => s)

/-! ### Receive (R279, R283) -/

inductive Colour where
  | green | yellow | red
  deriving DecidableEq, Repr

/-- The ingress policer (R283). -/
def SeatTraf.police (t : SeatTraf) (now n : Nat) : Colour × SeatTraf :=
  let (c, p) := t.policer now
  if peakRate t.policeC t.policeP = 0 ∨ !p.has n then (.red, { t with bPoliceC := c, bPoliceP := p })
  else if regRate t.policeC = 0 ∨ !c.has n then (.yellow, { t with bPoliceC := c, bPoliceP := p.take n })
  else (.green, { t with bPoliceC := c.take n, bPoliceP := p.take n })

/-- A NET frame is written to a buffer, which completes (R279 stage 3, R280). -/
def State.fillBuffer (s : State) (x : Seat) (h : Nat) (e : EntrySt) (low : Nat) (b : List Byte) (yellow : Bool) (src : Option Half) : State :=
  let u := s.seatNet x
  let now := s.ut (s.servingCore x)
  let s := s.setSeatNet x { u with rx := u.rx.filter (· != h) }
  let (ok, s) := s.writeEntry h e (fld e.bytes 16 8) b
  let f := s.entryFn e
  let s := s.transit f.core (netInput x) (trunkIn f.port) 2 b.length
  let s := if ok then s.finishFrom h 0x00 b.length (low + at_ (b2n yellow) 32) now else s.finishFrom h 0x01 0 0 now
  s.netItem x true e.islet src

/-- A NET frame delivered in sequence (R279). -/
def State.takeNet (s : State) (x : Seat) (low : Nat) (b : List Byte) (src : Option Half) : State :=
  let n := frameCharge b.length
  let (col, t) := (s.seatTraf x).police (s.ut (s.servingCore x)) n
  let s := s.setSeatTraf x t
  let d := s.demand x
  let s := s.setDemand x { d with
    rxNet := satAdd 0xFFFFFFFF d.rxNet n,
    yellow := if col = .yellow then satAdd 0xFFFFFFFF d.yellow n else d.yellow,
    red := if col = .red then satAdd 0xFFFFFFFF d.red n else d.red }
  let u := s.seatNet x
  if col = .red then s.setSeatNet x { u with red := u.red + 1 }
  else
    match u.rx with
    | [] => s.setSeatNet x { u with noBuffer := u.noBuffer + 1 }
    | h :: _ =>
      match s.entry? h with
      | none => s
      | some e =>
        if fld e.bytes 12 4 < b.length then s.setSeatNet x { u with tooLong := u.tooLong + 1 }
        else if col = .yellow ∧ u.rx.length < 16 then s.setSeatNet x { u with yellowDrop := u.yellowDrop + 1 }
        else s.fillBuffer x h e low b (col == .yellow) src

def execNetFrameReceive (x : Seat) (utLow : W32) (frame : List Byte) (ut : Nat) (s : State) :
    Host.Outcome State Fault Refusal :=
  let s := s.arrive ut
  .next (if (s.link_ x).maySend .net then s.takeNet x utLow.toNat frame none else s)

/-- The network entries of a seat complete with a status (R278, 07 R210): transmit frames taken and not
acknowledged, and receive buffers not filled. The tunnel's frames go with its flush. -/
def State.endNet (s : State) (x : Seat) (status : Nat) (buffers : Bool) : State :=
  let u := s.seatNet x
  let k := s.tun x .net
  let inTun := (k.held ++ k.queue).filterMap (·.handle) ++ (s.keptFor x .net).filterMap (·.handle)
  let s := (inTun ++ u.tx).foldl (fun s h => s.finish h status 0 0) s
  let s := if buffers then u.rx.foldl (fun s h => s.finish h status 0 0) s else s
  (s.setSeatNet x { s.seatNet x with tx := [], data := [], rx := if buffers then [] else u.rx }).dropKept x .net

/-! ### Demand records (R286) -/

/-- Strait frame bytes that wait in a tunnel. -/
def State.waitBytes (s : State) (x : Seat) (t : Tunnel) : Nat :=
  let u := s.tun x t
  min 0xFFFFFFFF (((u.queue ++ u.held.filter fun f => u.resend.contains f.seq).map fun f => f.bytes.length + 20).sum)

/-- The demand record of a seat for frame `m1` (R286). -/
def State.demandRecord (s : State) (x : Seat) (power m1 : Nat) : List Byte :=
  let d := s.demand x
  let sent (t : Tunnel) : List Byte := leBytes 4 (tget d.sent t.code 0)
  sent .usb ++ sent .iso ++ sent .disp ++ sent .net ++ leBytes 4 (s.waitBytes x .usb) ++ leBytes 4 (s.waitBytes x .disp) ++
    leBytes 4 (s.waitBytes x .net) ++ leBytes 4 d.rxNet ++ leBytes 4 d.yellow ++ leBytes 4 d.red ++ leBytes 4 d.excess ++
    leBytes 2 (min 0xFFFF power) ++ leBytes 2 0 ++ leBytes 8 m1 ++ leBytes 8 0

/-- Latch a seat's record and start the next frame's counts. -/
def State.latchSeat (s : State) (x : Seat) (power m1 : Nat) : State :=
  let p := s.seatPower x
  let s := s.setSeatPower x { p with meanFrame := power }
  s.setDemand x { Demand.init with latched := s.demandRecord x power m1 }

/-- The host demand of each islet in the last frame (`HOST_DEMAND`). -/
def State.latchIslets (s : State) : State :=
  allIslets.foldl (fun s i =>
    let d := s.isletTraf i
    s.setIsletTraf i { d with demand := BitVec.ofNat 64 (at_ (min 0xFFFFFFFF d.readNow) 32 + min 0xFFFFFFFF d.writeNow), readNow := 0, writeNow := 0 }) s

/-- At the start of frame m core `c` latches the records of the seats it serves, once (R286). -/
def State.latchDemand (s : State) (c : CoreId) (power : List Nat) (m : Nat) : State :=
  let seats := allSeats.filter fun x => s.servingCore x == c && !((s.demand x).latched != [] && fld (s.demand x).latched 48 8 == m - 1)
  let s := seats.foldl (fun s x => s.latchSeat x ((power[x.val]?).getD 0) (m - 1)) s
  if s.traf.latchedFrame < m then (s.latchIslets).setTraf { (s.latchIslets).traf with latchedFrame := m } else s

def execDemandLatch (c : CoreId) (meanFrame : List Nat) (ut : Nat) (s : State) : Host.Outcome State Fault Refusal :=
  let s := s.arrive ut
  .next (if s.serves c ∧ ut % frameNs = 0 ∧ 0 < ut ∧ s.ut c = ut then s.latchDemand c meanFrame (ut / frameNs) else s)

/-! ### The policy tick (R286, R289) -/

def State.frozen (s : State) : Bool := s.traf.control.getLsbD 0

/-- The tick of frame m makes the policy item, or the item that is still ready takes it (R286). -/
def State.policyTick (s : State) (m : Nat) : State :=
  let c := s.flt.token
  let d := s.dispatch c
  if d.ready.any fun x => x.kind == 5 then
    let s := s.setDispatch c { d with ready := d.ready.map fun (x : Item) => if x.kind == 5 then { x with arg := BitVec.ofNat 64 m } else x }
    s.setTraf { s.traf with missed := s.traf.missed + 1 }
  else s.readyItem c { Item.init with kind := 5, flow := 0x000700, arg := BitVec.ofNat 64 m }

def execPolicyTick (ut : Nat) (s : State) : Host.Outcome State Fault Refusal :=
  let s := s.arrive ut
  .next (if ut % frameNs = 250000 ∧ s.now = ut ∧ !s.mode.mode.isStart ∧ !s.frozen ∧ s.serves s.flt.token then
      s.policyTick (ut / frameNs)
    else s)

/-! ### Allotments (R287, R288) -/

/-- Bounds of the islet that owns a seat, as (least, most); none without an owner. -/
structure Bounds where
  lo : Nat
  hi : Nat
  deriving DecidableEq, Repr

def Bounds.clamp (b : Option Bounds) (v : Nat) : Nat :=
  match b with
  | some b => clampNat b.lo b.hi v
  | none => v

def IsletTraf.usb (t : IsletTraf) : Bounds := ⟨bits t.weights.toNat 7 0, bits t.weights.toNat 15 8⟩
def IsletTraf.disp (t : IsletTraf) : Bounds := ⟨bits t.weights.toNat 23 16, bits t.weights.toNat 31 24⟩
def IsletTraf.net (t : IsletTraf) : Bounds := ⟨bits t.weights.toNat 39 32, bits t.weights.toNat 47 40⟩
def IsletTraf.commit (t : IsletTraf) : Bounds := ⟨bits t.rates.toNat 10 0, bits t.rates.toNat 26 16⟩
def IsletTraf.peak (t : IsletTraf) : Bounds := ⟨0, bits t.rates.toNat 42 32⟩
def IsletTraf.power (t : IsletTraf) : Bounds := ⟨bits t.hostPower.toNat 7 0, bits t.hostPower.toNat 15 8⟩
def IsletTraf.shareB (t : IsletTraf) : Bounds := ⟨bits t.hostPower.toNat 41 32, bits t.hostPower.toNat 57 48⟩

/-- The bounds that act on a seat. -/
def State.boundsOf (s : State) (x : Seat) (f : IsletTraf → Bounds) : Option Bounds :=
  let i := s.owner x
  if i.val = 0 then none else some (f (s.isletTraf i))

/-- Replace bits [h:l] of a word. -/
def putBits (w h l v : Nat) : Nat := w - at_ (bits w h l) l + at_ (v % 2 ^ (h + 1 - l)) l

/-- One allotment field of a word: its place and the bounds that act on it. -/
structure AllotField where
  h : Nat
  l : Nat
  bound : Option Bounds
  most : Nat
  deriving DecidableEq, Repr

/-- Write allotment fields of a word: each accepted value is clamped; a field refused is ignored. The second
result says that a field was refused. -/
def writeAllots (allowed : Bool) (v : Nat) : List AllotField → Nat → Nat × Bool
  | [], w => (w, false)
  | f :: r, w =>
    let new' := bits v f.h f.l
    let (w, bad) :=
      if new' = bits w f.h f.l then (w, false)
      else if allowed then (putBits w f.h f.l (min f.most (Bounds.clamp f.bound (min f.most new'))), false)
      else (w, true)
    let (w, bad') := writeAllots allowed v r w
    (w, bad || bad')

/-- Whether a writer may change allotment fields of an islet's seats, or of seats that no islet owns (R287). -/
def State.mayAllot (s : State) (w : Via) (i : IsletNo) : Bool :=
  match w with
  | .prog _ => true
  | .host f => s.frozen && (s.host.wiring || i.val == 0 || (s.islet i).owner == f.port)

def Via.isHost : Via → Bool
  | .host _ => true
  | .prog _ => false

def State.noteIgnored (s : State) (bad : Bool) : State :=
  if bad then s.setTraf { s.traf with control := s.traf.control ||| 2#64 } else s

/-- A bucket register changes: the level is evaluated with the old values and capped at the new depth (R282). -/
def Bucket.cap (b : Bucket) (depth : Nat) : Bucket := { b with level := min (depth * 8000) b.level }

/-- Bring the four buckets of a seat up to the present. -/
def State.settleBuckets (s : State) (x : Seat) : State :=
  let t := s.seatTraf x
  let now := s.ut (s.servingCore x)
  s.setSeatTraf x { t with bPoliceC := (t.policer now).1, bPoliceP := (t.policer now).2, bShapeC := (t.shaper now).1, bShapeP := (t.shaper now).2 }

def State.capBuckets (s : State) (x : Seat) : State :=
  let t := s.seatTraf x
  s.setSeatTraf x { t with bPoliceC := t.bPoliceC.cap (regDepth t.policeC), bPoliceP := t.bPoliceP.cap (regDepth t.policeP),
                           bShapeC := t.bShapeC.cap (regDepth t.shapeC), bShapeP := t.bShapeP.cap (regDepth t.shapeP) }

/-- `TUNNEL_WEIGHTS_s` is written (R287). Heads already queued keep their tags (R273). -/
def State.writeWeights (s : State) (w : Via) (x : Seat) (v : W64) : State :=
  let s := (s.tagHeads x).1
  let t := s.seatTraf x
  let old := t.weights.toNat
  let base := if Via.isHost w then putBits (putBits old 47 32 (bits v.toNat 47 32)) 15 8 (bits v.toNat 15 8) else old
  let (n, bad) := writeAllots (s.mayAllot w (s.owner x)) v.toNat
    [⟨31, 24, s.boundsOf x IsletTraf.net, 255⟩, ⟨23, 16, s.boundsOf x IsletTraf.disp, 255⟩, ⟨7, 0, s.boundsOf x IsletTraf.usb, 255⟩] base
  (s.setSeatTraf x { t with weights := BitVec.ofNat 64 n }).noteIgnored bad

/-- The new value of a bucket register. -/
def State.bucketWord (s : State) (w : Via) (x : Seat) (old v : W64) (b : IsletTraf → Bounds) : W64 × Bool :=
  let base := if Via.isHost w then putBits old.toNat 47 24 (bits v.toNat 47 24) else old.toNat
  let (n, bad) := writeAllots (s.mayAllot w (s.owner x)) v.toNat [⟨10, 0, s.boundsOf x b, 2047⟩] base
  (BitVec.ofNat 64 n, bad)

def State.writeBucket (s : State) (w : Via) (x : Seat) (get : SeatTraf → W64) (put : SeatTraf → W64 → SeatTraf) (b : IsletTraf → Bounds)
    (v : W64) : State :=
  let s := s.settleBuckets x
  let t := s.seatTraf x
  let (n, bad) := s.bucketWord w x (get t) v b
  ((s.setSeatTraf x (put t n)).capBuckets x).noteIgnored bad

/-- An allotment register is written (R287). -/
def State.writeAllot (s : State) (w : Via) (r : AllotReg) (v : W64) : State :=
  match r with
  | .tunnelWeights x => s.writeWeights w x v
  | .policeCommitted x => s.writeBucket w x SeatTraf.policeC (fun t n => { t with policeC := n }) IsletTraf.commit v
  | .policePeak x => s.writeBucket w x SeatTraf.policeP (fun t n => { t with policeP := n }) IsletTraf.peak v
  | .shapeCommitted x => s.writeBucket w x SeatTraf.shapeC (fun t n => { t with shapeC := n }) IsletTraf.commit v
  | .shapePeak x => s.writeBucket w x SeatTraf.shapeP (fun t n => { t with shapeP := n }) IsletTraf.peak v
  | .power x =>
    let t := s.seatTraf x
    let (n, bad) := writeAllots (s.mayAllot w (s.owner x)) v.toNat [⟨7, 0, s.boundsOf x IsletTraf.power, 255⟩] t.watts.toNat
    ((s.setSeatTraf x { t with watts := BitVec.ofNat 64 n }).noteIgnored bad).powerAllowed x
  | .hostShare i =>
    if i.val = 0 then s
    else
      let t := s.isletTraf i
      let (n, bad) := writeAllots (s.mayAllot w i) v.toNat [⟨9, 0, some t.shareB, 1023⟩] t.share.toNat
      (s.setIsletTraf i { t with share := BitVec.ofNat 64 n }).noteIgnored bad

def execAllotmentWrite (w : Via) (r : AllotReg) (v : W64) (s : State) : Host.Outcome State Fault Refusal :=
  .next (if s.viaHeard w then s.writeAllot w r v else s)

/-- Clamp the present allotments of a seat into its islet's bounds (R288). -/
def State.clampSeat (s : State) (x : Seat) (t : IsletTraf) : State :=
  let s := ((s.tagHeads x).1).settleBuckets x
  let v := s.seatTraf x
  let rate (w : W64) (b : Bounds) : W64 := BitVec.ofNat 64 (putBits w.toNat 10 0 (clampNat b.lo b.hi (bits w.toNat 10 0)))
  let w := v.weights.toNat
  let w := putBits w 31 24 (clampNat t.net.lo t.net.hi (bits w 31 24))
  let w := putBits w 23 16 (clampNat t.disp.lo t.disp.hi (bits w 23 16))
  let w := putBits w 7 0 (clampNat t.usb.lo t.usb.hi (bits w 7 0))
  State.powerAllowed (x := x) <| s.setSeatTraf x { v with
    weights := BitVec.ofNat 64 w, policeC := rate v.policeC t.commit, policeP := rate v.policeP t.peak,
    shapeC := rate v.shapeC t.commit, shapeP := rate v.shapeP t.peak,
    watts := BitVec.ofNat 64 (clampNat t.power.lo t.power.hi v.watts.toNat) }

/-- A bound word is written: only through a host function, and in split wiring through the islet's own port
(R288). -/
def State.writeBound (s : State) (w : Via) (i : IsletNo) (r : BoundReg) (v : W64) : State :=
  let ok := match w with
    | .host f => s.host.wiring || (s.islet i).owner == f.port
    | .prog _ => false
  if !ok || i.val = 0 then s
  else
    let t := s.isletTraf i
    let t := match r with
      | .weights => { t with weights := v &&& 0x0000FFFFFFFFFFFF }
      | .rates => { t with rates := v &&& 0x000007FF07FF07FF }
      | .hostPower => { t with hostPower := v &&& 0x03FF03FF0000FFFF }
    let t := { t with share := BitVec.ofNat 64 (clampNat t.shareB.lo t.shareB.hi t.share.toNat) }
    let s := s.setIsletTraf i t
    if (s.islet i).st = .free then s else (maskSeats (s.islet i).seats).foldl (fun s x => s.clampSeat x t) s

def execBoundWrite (w : Via) (i : IsletNo) (r : BoundReg) (v : W64) (s : State) : Host.Outcome State Fault Refusal :=
  .next (if s.viaHeard w then s.writeBound w i r v else s)

/-- `POLICY_CONTROL` is written (R289). -/
def State.writePolicy (s : State) (v : W64) : State :=
  let old := s.traf.control
  let keep := rw1c (old.getLsbD 1) (v.getLsbD 1)
  s.setTraf { s.traf with control := (v &&& 0x1F01) ||| (if keep then 2#64 else 0#64) }

def execPolicyControlWrite (w : Via) (v : W64) (s : State) : Host.Outcome State Fault Refusal :=
  .next (if s.viaHeard w && s.viaMay w then s.writePolicy v else s)

end Sys2Proof.Machine
end

