-- ==== Sys2Proof/Machine/Fabric.lean ====
section
/-! DEFINITION. The cell fabric: cells, the crossbar, verdicts, trunks, multicast groups and output states (09
R246 to R258, R263, R264). -/

namespace Sys2Proof.Machine

/-- A frame is gone from the fabric: its cells are freed at every output it has not left, and no cell or queue
names it. -/
def State.removeFrame (s : State) (c : CoreId) (key : Nat) : State :=
  let f := tget (s.fabCore c).frames key FabFrame.none_
  let s := f.dests.foldl (fun s o => s.leaveOutput c key o) s
  let k := s.fabCore c
  s.setFabCore c { k with
    landed := k.landed.filter fun l => l.1 != key
    ports := tmap (fun p => { p with staging := p.staging.filter (fun x => x.frame != key), queues := tmap (·.filter (· != key)) (fun _ => []) p.queues })
      (FabPort.init (c == .b)) k.ports }

/-! ### Resequencers (R256) -/

def FabCore.reseqAt (k : FabCore) (key : Nat) : ReseqSt := tget k.reseq key ReseqSt.init

/-- Pass on the held numbers that are next in order. -/
def reseqRun : Nat → ReseqSt → List Nat × ReseqSt
  | 0, r => ([], r)
  | n + 1, r =>
    match r.held.find? (fun h => h.1 == r.next) with
    | none => ([], r)
    | some h =>
      let (l, r') := reseqRun n { r with next := r.next + 1, held := r.held.filter fun x => x.1 != h.1 }
      (h.2.toList ++ l, r')

/-- A number arrives, with its frame or as a skip; after a restart the first one is the next (R263). -/
def ReseqSt.arrive (r : ReseqSt) (n : Half) (frame : Option Nat) (now : Nat) : List Nat × ReseqSt :=
  let r := if r.restart then { r with next := n, restart := false } else r
  let (l, v) := reseqRun (r.held.length + 1) { r with held := r.held ++ [(n, frame)] }
  (l, { v with since := if v.held.isEmpty then none else if l.isEmpty then r.since.or (some now) else some now })

/-- A waiting resequencer gives up the missing numbers (R256). -/
def ReseqSt.giveUp (r : ReseqSt) (now : Nat) : List Nat × ReseqSt :=
  match r.held with
  | [] => ([], r)
  | h :: t =>
    let first := t.foldl (fun b x => if sub16 x.1 r.next < sub16 b r.next then x.1 else b) h.1
    let (l, v) := reseqRun (r.held.length + 1) { r with next := first }
    (l, { v with since := if v.held.isEmpty then none else some now })

/-- The block behind a trunk passes a frame on: the causeway port hands a display copy to the twin (R256; 08 R234). -/
def State.passOn (s : State) (c : CoreId) (key : Nat) : State :=
  let k := s.fabCore c
  let f := tget k.behind key FabFrame.none_
  let s := s.setFabCore c { k with behind := terase k.behind key, sent := k.sent ++ [key] }
  match f.group, f.copy with
  | some (g, _), some (l, ends) => if s.causewayUp then s.copyArrives c.twin g f.account l ends f.data else s
  | _, _ => s

/-- A number of a frame, or a skip, reaches the block behind a trunk. -/
def State.behindTrunk (s : State) (c : CoreId) (t : Fin 3) (f : FabFrame) (o : Nat) (key : Option Nat) : State :=
  let ky := intoKey f.input t f.cls.val
  let k := s.fabCore c
  let (l, v) := (k.reseqAt ky).arrive (tget f.trunkSeq o 0) key (s.ut c)
  l.foldl (fun s k => s.passOn c k) (s.setFabCore c { k with reseq := tset k.reseq ky v ReseqSt.init })

/-- A frame that leaves a trunk's member without being sent passes its number as a skip (R256). -/
def State.skipInto (s : State) (c : CoreId) (o key : Nat) : State :=
  match trunkOf o with
  | some t => s.behindTrunk c t (tget (s.fabCore c).frames key FabFrame.none_) o none
  | none => s

/-- A queued frame is discarded at an output and counted (R263). -/
def State.discardOut (s : State) (c : CoreId) (o key : Nat) : State :=
  let s := (s.skipInto c o key).leaveOutput c key o
  let p := s.fabPort c o
  s.setFabPort c o { p with queues := tmap (·.filter (· != key)) (fun _ => []) p.queues, discards := p.discards + 1 }

/-- Frames queued at an output are discarded and counted (R263: a seat that moves, the causeway down). -/
def State.discardQueued (s : State) (c : CoreId) (o : Nat) : State :=
  let p := s.fabPort c o
  let all := (p.sending.map (·.1)).toList ++ (p.queues.map (·.2)).flatten
  all.foldl (fun s k => s.discardOut c o k) (s.setFabPort c o { p with sending := none })

/-- The causeway trunk of a core goes down: its frames are discarded; or up: its resequencers restart (R263). -/
def State.causewayTrunk (s : State) (c : CoreId) (up : Bool) : State :=
  let s := (trunkPorts 2).foldl (fun s o => (if up then s else s.discardQueued c o).setPortState c o (if up then .up else .down)) s
  if up then
    let k := s.fabCore c
    let mine (ky : Nat) : Bool := (if ky < 4000 then ky else ky - 4000) / 8 % 3 == 2
    s.setFabCore c { k with
      reseq := (k.reseq.map fun e => if mine e.1 then (e.1, { e.2 with restart := true, held := [], since := none }) else e) }
  else s

/-! ### Admission at the first cell (R247, R252, R257, R259, R261) -/

/-- The fabric header's checks (R247). -/
def headerOk (b : List Byte) : Bool :=
  let kind := fld b 0 1
  decide (16 ≤ b.length ∧ 17 ≤ fld b 2 2 ∧ fld b 2 2 ≤ 9232 ∧ fld b 5 1 ≤ 128) &&
    decide (kind = 1 ∨ (kind = 0 ∧ fld b 1 1 < 154))

/-- The class of a frame: for one received from a dock that of its tunnel, else its `CLASS` (R248). -/
def cellClass (x : CellIn) : Fin 8 :=
  let own := toFin 7 (fld x.bytes 4 1 % 8)
  if x.input.val < 64 && bit (fld x.bytes 7 1) 0 then
    match Tunnel.ofCode (fld x.bytes 16 1 % 8) with
    | some t => toFin 7 t.cls
    | none => own
  else own

/-- The frame of a first cell. A trunk's block numbers its frames itself (R256). -/
def frameOf (x : CellIn) (dests : List Nat) (a : Admit) (g : Option (Fin 256 × Byte)) : FabFrame :=
  let b := x.bytes
  let flags := fld b 7 1
  { FabFrame.none_ with
    input := x.input.val, dests := dests, cls := cellClass x, account := fld b 5 1, cells := cellsOf (fld b 2 2), bytes := fld b 2 2,
    strait := bit flags 0, allowIn := a, group := g, unsent := dests, header := slice b 0 16,
    outSeq := if (trunkOf x.input.val).isSome && bit flags 1 then some (BitVec.ofNat 16 (fld b 8 2)) else none }

/-- The outcome of a first cell: stored under a key, discarded and counted, or refused. -/
inductive FirstCell where
  | stored (key : Nat)
  | discarded
  | refused
  deriving DecidableEq, Repr

/-- A unicast frame's first cell. -/
def State.firstUnicast (s : State) (c : CoreId) (x : CellIn) : FirstCell × State :=
  let d := fld x.bytes 1 1
  let o := match trunkOf d with
    | some t => s.trunkMember c t
    | none => d
  let cls := cellClass x
  match s.newFrame c o with
  | .discard => (.discarded, s)
  | .refuse => (.refused, s)
  | .allowIn =>
    match s.admitFrom c o cls.val (fld x.bytes 5 1) (cellsOf (fld x.bytes 2 2)) with
    | none => (.refused, s.noteRefusal c o cls.val)
    | some a =>
      let (k, s) := s.storeFrame c (frameOf x [o] a none)
      (.stored k, s)

/-- A multicast frame's first cell: it takes the group's entry in force; from the pool only (R258, R259). -/
def State.firstMulticast (s : State) (c : CoreId) (x : CellIn) : FirstCell × State :=
  let d := fld x.bytes 1 1
  let g := (s.fabCore c).group d
  let n := cellsOf (fld x.bytes 2 2)
  let ds := (s.groupDests c g).filter fun o => s.newFrame c o == .allowIn && s.outTakes c o n
  if !g.valid then (.discarded, s)
  else if ds.isEmpty || !s.poolTakes c (cellClass x).val n then (.refused, s.noteRefusal c x.input.val (cellClass x).val)
  else
    let (k, s) := s.storeFrame c (frameOf x ds .pool (some (toFin 255 d, g.gen)))
    (.stored k, s)

/-- Seat inputs lose a refused frame, which is counted; every other block keeps it and offers it again (R261). -/
def State.refusedCell (s : State) (c : CoreId) (p : Nat) : Option State :=
  if p < 64 then some ((s.discardAt c p).bumpSeat (toSeat p) 8 1) else none

/-! ### Cells at an input (R249, R251) -/

/-- The verdict on a whole frame (R251): steps 1 to 3 of 07 R189 for a strait frame, else `CHECK` and `LENGTH`. -/
def FabFrame.failure (f : FabFrame) (pcsError : Bool) : Option Nat :=
  if f.strait then straitCheck pcsError f.data
  else if f.bytes = f.data.length + 16 ∧ fld f.header 12 4 = (crc32c (slice f.header 0 12 ++ leBytes 4 0 ++ f.data)).toNat then none
  else some 0

/-- `SOURCE` holds the input port, whatever the block wrote (R247). -/
def FabFrame.stamped (f : FabFrame) : FabFrame := { f with header := f.header.take 6 ++ leBytes 1 f.input ++ f.header.drop 7 }

/-- Stage a cell of a stored frame; the last one carries the verdict. A failed frame of a seat input counts with its seat
too (R251). -/
def State.stageCell (s : State) (c : CoreId) (x : CellIn) (key : Nat) : State :=
  let p := x.input.val
  let k := s.fabCore c
  let f := tget k.frames key FabFrame.none_
  let f := { f with data := f.data ++ (if x.first then x.bytes.drop 16 else x.bytes) }
  let bad := f.failure x.pcsError
  let f := if x.last then { f.stamped with verdict := some bad.isNone } else f
  let s := s.setFabCore c { k with frames := tput k.frames key f }
  let s := if x.last then s.bwCount c p false f.bytes else s
  let s := match bad with
    | some n => if x.last && decide (p < 64 ∧ 0 < n) then s.bumpSeat (toSeat p) n 1 else s
    | none => s
  let v := s.fabPort c p
  s.setFabPort c p { v with staging := v.staging ++ [{ frame := key, left := f.dests, first := x.first, last := x.last }],
                            arriving := if x.last then none else some (key + 1) }

/-- The rest of a frame that is not stored passes and is dropped. -/
def State.passOver (s : State) (c : CoreId) (x : CellIn) : State :=
  let v := s.fabPort c x.input.val
  s.setFabPort c x.input.val { v with arriving := if x.last then none else some 0 }

/-- One offered cell. The input takes it while its staging register has room; a kept frame is not taken. -/
def State.takeCell (s : State) (c : CoreId) (x : CellIn) : State :=
  let p := x.input.val
  let v := s.fabPort c p
  if 2 ≤ v.staging.length then s
  else
    match x.first, v.arriving with
    | true, none =>
      if v.state = .spare then s
      else if !headerOk x.bytes then (s.discardAt c p).passOver c x
      else
        let (r, s) := if fld x.bytes 0 1 = 1 then s.firstMulticast c x else s.firstUnicast c x
        match r with
        | .stored k => s.stageCell c x k
        | .discarded => (s.discardAt c p).passOver c x
        | .refused =>
          match s.refusedCell c p with
          | some s => s.passOver c x
          | none => s
    | false, some 0 => s.passOver c x
    | false, some (k + 1) => s.stageCell c x k
    | _, _ => s

/-! ### The crossbar (R250) -/

/-- Matches of a cell time so far: input, the place of its cell in the staging register, the outputs. -/
structure Match where
  input : Nat
  cell : Nat
  outs : List Nat
  deriving DecidableEq, Repr

/-- The place of a number at or after a pointer, modulo 160. -/
def after (ptr n : Nat) : Nat := (n + 160 - ptr % 160) % 160

/-- The first at or after a pointer. -/
def atOrAfter (ptr : Nat) : List Nat → Option Nat
  | [] => none
  | a :: r =>
    match atOrAfter ptr r with
    | none => some a
    | some b => if after ptr b < after ptr a then some b else some a

/-- The last at or after a pointer. -/
def lastAfter (ptr : Nat) : List Nat → Option Nat
  | [] => none
  | a :: r =>
    match lastAfter ptr r with
    | none => some a
    | some b => if after ptr a < after ptr b then some b else some a

/-- One round: requests, grants and accepts. -/
def State.matchRound (s : State) (c : CoreId) (inputs : List Nat) (done : List Match) : List Match :=
  let freeIn := inputs.filter fun i => !(done.any fun m => m.input == i)
  let needs (i : Nat) : List (List Nat) := (s.fabPort c i).staging.map (·.left)
  let taken := (done.map (·.outs)).flatten
  let outs := (((freeIn.map fun i => (needs i).flatten).flatten).filter fun o => !taken.contains o).eraseDups
  let grants := outs.filterMap fun o =>
    (atOrAfter (s.fabPort c o).grantPtr (freeIn.filter fun i => (needs i).any (·.contains o))).map fun i => (o, i)
  freeIn.filterMap fun i =>
    let mine := (grants.filter fun g => g.2 == i).map (·.1)
    let accept (k : Nat) : Option Match :=
      match (needs i)[k]? with
      | none => none
      | some l =>
        let g := mine.filter fun o => l.contains o
        if g.isEmpty then none
        else
          let f := match (s.fabPort c i).staging[k]? with
            | some x => tget (s.fabCore c).frames x.frame FabFrame.none_
            | none => FabFrame.none_
          if f.group.isSome then some { input := i, cell := k, outs := g }
          else (atOrAfter (s.fabPort c i).acceptPtr g).map fun o => { input := i, cell := k, outs := [o] }
    match accept 0 with
    | some m => some m
    | none => accept 1

/-- Pointers move on the acceptances of round 1. -/
def State.movePointers (s : State) (c : CoreId) (ms : List Match) : State :=
  ms.foldl (fun s m =>
    let s := m.outs.foldl (fun s o => s.setFabPort c o { s.fabPort c o with grantPtr := (m.input + 1) % 160 }) s
    let v := s.fabPort c m.input
    match lastAfter v.acceptPtr m.outs with
    | some o => s.setFabPort c m.input { v with acceptPtr := (o + 1) % 160 }
    | none => s) s

/-- The matched cells cross; a last cell lands at its output (R251, R254). -/
def State.crossCells (s : State) (c : CoreId) (ms : List Match) : State :=
  ms.foldl (fun s m =>
    let v := s.fabPort c m.input
    match v.staging[m.cell]? with
    | none => s
    | some x =>
      let left := x.left.filter fun o => !m.outs.contains o
      let st := if left.isEmpty then v.staging.eraseIdx m.cell else v.staging.set m.cell { x with left := left }
      let s := s.setFabPort c m.input { v with staging := st }
      if x.last then
        let k := s.fabCore c
        s.setFabCore c { k with landed := k.landed ++ m.outs.map fun o => (x.frame, o) }
      else s) s

/-- An overdue resequencer passes on the frames behind the gap. -/
def State.reseqTimeout (s : State) (c : CoreId) (key : Nat) (use : State → Nat → State) : State :=
  let r := (s.fabCore c).reseqAt key
  match r.since with
  | none => s
  | some t =>
    if t + 10000 ≤ s.ut c then
      let (l, v) := r.giveUp (s.ut c)
      let k := s.fabCore c
      let s := s.setFabCore c { k with reseq := tset k.reseq key v ReseqSt.init }
      l.foldl use ((s.edge c 313).count c 0x043 [] 1)
    else s

/-! ### Output queues (R251, R254, R264) -/

/-- The tunnel of a class at a seat output (R248). -/
def tunnelOfClass (k : Nat) : Option Tunnel :=
  if k = 7 then some .ctrl else if k = 6 then some .iso else if k = 5 then some .usb else if k = 4 then some .disp
  else if k = 2 then some .net else none

/-- A frame enters an output's queue of its class; at a seat output it joins its tunnel's frames. -/
def State.enterQueue (s : State) (c : CoreId) (o key : Nat) : State :=
  let f := tget (s.fabCore c).frames key FabFrame.none_
  match (if o < 64 then tunnelOfClass f.cls.val else none) with
  | some t => s.enterTun (toSeat o) t { (Hand.plain f.data f.account f.input).frame (key + 1) with local_ := if t = .disp then fld f.data 1 1 % 2 else 0 }
  | none =>
    let p := s.fabPort c o
    s.setFabPort c o { p with queues := tset p.queues f.cls.val (tget p.queues f.cls.val [] ++ [key]) [] }

/-- A frame that a resequencer lets pass enters the queue of the output, or of its own member of a trunk (R255). -/
def State.enterOwn (s : State) (c : CoreId) (o key : Nat) : State :=
  match (tget (s.fabCore c).frames key FabFrame.none_).dests.find? (fun d => asOne d == asOne o) with
  | some d => s.enterQueue c d key
  | none => s

/-- A frame, or a skip, that its trunk's block has numbered passes its output's resequencer (R256). -/
def State.passReseq (s : State) (c : CoreId) (o key : Nat) (ok : Bool) : State :=
  let f := tget (s.fabCore c).frames key FabFrame.none_
  match trunkOf f.input, f.outSeq with
  | some t, some n =>
    let ky := outOfKey o t f.cls.val
    let k := s.fabCore c
    let (l, v) := (k.reseqAt ky).arrive n (if ok then some key else none) (s.ut c)
    let s := s.setFabCore c { k with reseq := tset k.reseq ky v ReseqSt.init }
    l.foldl (fun s k => s.enterOwn c o k) s
  | _, _ => if ok then s.enterQueue c o key else s

/-- Skips of a frame that is discarded: the resequencers at its outputs and behind its trunks learn its numbers (R256). -/
def State.skipNumbers (s : State) (c : CoreId) (key : Nat) : State :=
  (tget (s.fabCore c).frames key FabFrame.none_).dests.foldl (fun s o => (s.skipInto c o key).passReseq c o key false) s

/-- A landed frame enters its output's queue, or fails its check and is discarded (R251). -/
def State.verdictOf (s : State) (c : CoreId) (l : Nat × Nat) : State :=
  let f := tget (s.fabCore c).frames l.1 FabFrame.none_
  match f.verdict with
  | some true => s.passReseq c l.2 l.1 true
  | some false => (((s.skipNumbers c l.1).removeFrame c l.1).discardAt c f.input)
  | none => s

/-- Frames that landed up to the first of an input, in the order of R254. -/
def upTo (p : Nat × Nat → Bool) : List (Nat × Nat) → List (Nat × Nat)
  | [] => []
  | a :: r => if p a then [a] else a :: upTo p r

/-- The oldest landed frame of an input gets its verdict, after every frame that landed before it. -/
def State.landFrames (s : State) (c : CoreId) (p : Nat) : State :=
  let k := s.fabCore c
  let mine (l : Nat × Nat) : Bool := (tget k.frames l.1 FabFrame.none_).input == p
  if k.landed.any mine then
    let now := upTo mine k.landed
    let s := s.setFabCore c { k with landed := k.landed.drop now.length }
    now.foldl (fun s l => s.verdictOf c l) s
  else s

/-! ### Sending from outputs that are not seats (R260, R264) -/

/-- The highest class of an output that has a frame. -/
def FabPort.nextOut (p : FabPort) : Option (Nat × Nat × List Nat) :=
  ((List.range 8).reverse.findSome? fun k =>
    match tget p.queues k [] with
    | f :: r => some (k, f, r)
    | [] => none)

/-- A frame has been sent: the block behind a trunk passes frames on in `TRUNK_SEQ` order (R256). -/
def State.frameSent (s : State) (c : CoreId) (o key : Nat) : State :=
  let f := tget (s.fabCore c).frames key FabFrame.none_
  let s := (s.bwCount c o true f.bytes).leaveOutput c key o
  let k := s.fabCore c
  match trunkOf o with
  | some t => (s.setFabCore c { k with behind := tput k.behind key f }).behindTrunk c t f o (some key)
  | none => s.setFabCore c { k with sent := k.sent ++ [key] }

/-- A frame's islet is gone: the frame is discarded before it is sent (R263). -/
def State.frameGone (s : State) (c : CoreId) (key : Nat) : Bool :=
  let a := (tget (s.fabCore c).frames key FabFrame.none_).account
  a != 0 && (s.islet (toIslet a)).st == .free

/-- One cell time at an output: 50 Gb/s is one cell in two cell times; a frame begun is never interrupted. -/
def State.sendCellTime (s : State) (c : CoreId) (o : Nat) : State :=
  let p := s.fabPort c o
  if p.state ≠ .up then s
  else
    match p.sending with
    | some (key, n) =>
      if n ≤ 1 then (s.setFabPort c o { p with sending := none }).frameSent c o key
      else s.setFabPort c o { p with sending := some (key, n - 1) }
    | none =>
      match p.nextOut with
      | none => s
      | some (k, f, r) =>
        if s.frameGone c f then s.discardOut c o f
        else
        let n := 2 * (tget (s.fabCore c).frames f FabFrame.none_).cells
        s.setFabPort c o { p with queues := tset p.queues k r [], sending := some (f, n) }

/-- One cell time (R249, R250, R261): kept frames are offered again, the outputs send, offered cells are staged, and three
rounds match. -/
def State.cellTime (s : State) (c : CoreId) (offered : List CellIn) : State :=
  let s := s.offerKept c
  let s := ((s.fabCore c).ports.filter fun p => decide (64 ≤ p.1)).foldl (fun s p => s.sendCellTime c p.1) s
  let s := offered.foldl (fun s x => s.takeCell c x) s
  let inputs := ((s.fabCore c).ports.filter fun p => !p.2.staging.isEmpty).map (·.1)
  let m1 := s.matchRound c inputs []
  let m2 := s.matchRound c inputs m1
  let m3 := s.matchRound c inputs (m1 ++ m2)
  let all := inputs.filterMap fun i => (m1 ++ m2 ++ m3).find? fun m => m.input == i
  (s.movePointers c m1).crossCells c all

def execCellTime (c : CoreId) (offered : List CellIn) (s : State) : Host.Outcome State Fault Refusal :=
  .next (if s.serves c then s.cellTime c offered else s)

def execFrameVerdict (c : CoreId) (p : Fin 160) (s : State) : Host.Outcome State Fault Refusal :=
  .next (if s.serves c then s.landFrames c p.val else s)

/-- A resequencer that has waited 10 µs: that of an output, and that of the block behind a trunk (R256). -/
def State.reseqDue (s : State) (c : CoreId) (o : Nat) (t : Fin 3) (k : Nat) : State :=
  let s := s.reseqTimeout c (outOfKey o t k) fun s f => s.enterOwn c o f
  s.reseqTimeout c (intoKey o t k) fun s f => s.passOn c f

def execResequencerTimeout (c : CoreId) (output : Fin 160) (trunk : Fin 3) (cls : Fin 8) (ut : Nat) (s : State) :
    Host.Outcome State Fault Refusal :=
  .next ((s.arrive ut).reseqDue c output.val trunk cls.val)

/-! ### Multicast groups (R257, R258) -/

/-- Only unit-level code writes a group (R257). -/
def State.writeGroup (s : State) (w : Via) (c : CoreId) (g : Nat) (word1 : Bool) (v : W64) : State :=
  match w with
  | .host _ => s
  | .prog _ =>
    if word1 then s.landGroup c g ((s.fabCore c).group g).staged (bit v.toNat 31) (bit v.toNat 30)
    else
      let k := s.fabCore c
      s.setFabCore c (k.setGroup g { k.group g with staged := v })

def execFabMcastWrite (w : Via) (c : CoreId) (g : Fin 256) (word1 : Bool) (v : W64) (s : State) :
    Host.Outcome State Fault Refusal :=
  .next (if s.viaHeard w then s.writeGroup w c g.val word1 v else s)

/-- Generations of a group retire, and the configurations that waited for them are sent (R258). -/
def State.generationsRetire (s : State) (c : CoreId) (g : Nat) : State :=
  let s := s.retireGroup c g
  s.disp.views.foldl (fun s e => if e.2.owed.any (fun w => w.1 == c && w.2.1.val == g) then s.sendOwed (toHead e.1) false else s) s

def execGenerationRetire (c : CoreId) (g : Fin 256) (s : State) : Host.Outcome State Fault Refusal :=
  .next (s.generationsRetire c g.val)

/-! ### `FAB_OUT_MIN_p` (R262) -/

/-- A write is refused when the minimums would exceed 524,288 cells; ports 154 to 159 ignore it. -/
def State.writeOutMin (s : State) (c : CoreId) (p : Nat) (v : W64) : State :=
  if 154 ≤ p then s
  else
    let x := s.fabPort c p
    let t := s.setFabPort c p { x with outMin := v }
    if t.outMinSum c + t.isletMinSum ≤ 524288 then s.poolAlarm t c
    else s.setFabCore c { s.fabCore c with refused := true }

/-- A write of `FAB_OUT_MIN_p`; one without semaphore 0 is refused (02 R33). -/
def State.outMinWrite (s : State) (w : Via) (c : CoreId) (p : Nat) (v : W64) : State :=
  if !s.viaHeard w then s
  else if s.viaMay w then s.writeOutMin c p v
  else s.setFabCore c { s.fabCore c with refused := true }

def execFabOutMinWrite (w : Via) (c : CoreId) (p : Fin 160) (v : W64) (s : State) : Host.Outcome State Fault Refusal :=
  .next (s.outMinWrite w c p.val v)

end Sys2Proof.Machine
end

