-- ==== Sys2Proof/Machine/Items.lean ====
section
/-! DEFINITION. How an item ends, is suspended, resumes or aborts (04 R96, R110, R115, R116, R127; 05 R128, R131). -/

namespace Sys2Proof.Machine

/-! ### Images in use (R123) -/

/-- Whether a run executes an image: its program, where it was when the run began. -/
def Run.uses (r : Run) (m : ImageSt) : Bool := m.id == r.prog && m.base == r.base

/-- The image that a run executes. -/
def State.imageOf (s : State) (c : CoreId) (r : Run) : Option ImageSt := (s.store c).find? r.uses

/-- The image that a run executes is still the program loaded in its slot (R123). -/
def State.onLive (s : State) (c : CoreId) (r : Run) : Bool := ((s.imageOf c r).map (·.live)).getD false

/-- The image of a program that its items use, live or not. -/
def State.anyImage (s : State) (c : CoreId) (p : ProgId) : Option ImageSt := (s.store c).find? fun m => m.id == p

/-- Unloaded code is freed when the last item that runs it has ended (R123). -/
def State.freeImages (s : State) (c : CoreId) : State :=
  s.setStore c ((s.store c).filter fun m => m.live || (s.heldRuns c).any fun r => r.uses m)

/-! ### Leaving a TE -/

/-- The run in service has left its TE: an item staged ahead of it starts (05 R133). A TE that ran the last item
it had staged works in the mode of its cluster (05 R135). -/
def State.vacate (s : State) (c : CoreId) (t : TeNo) : State :=
  let te := s.teSt c t
  (s.setTeSt c t { te with cur := none, waiting := false, late := te.late && te.staged.isSome }).startStaged c t

/-- An item of a protected islet made an ISW store, which the twin's copy takes with its `done` or `tick` (04 R97). -/
def State.noteStore (s : State) (c : CoreId) (fl : BitVec 24) (i : IsletNo) (o : Nat) (b : List Byte) : State :=
  if s.protects i then
    let k := flowKey c fl
    s.setMem { s.mem with unsent := tset s.mem.unsent k (tget s.mem.unsent k [] ++ [(i, o, b)]) [] }
  else s

/-- The twin's copy takes an ISW store: in the seat aperture, of the due lists of the item's seat (06 R171). -/
def State.copyStore (s : State) (c : CoreId) (x : Option Seat) (i : IsletNo) (o : Nat) (b : List Byte) : State :=
  if !s.protects i then s
  else if o < 0x10000 then
    match x with
    | some a => s.setDue c.twin a (writeBytes (s.due c.twin a) o b)
    | none => s
  else s.setIsw c.twin i (writeBytes (s.isw c.twin i) o b)

/-- The ISW stores of an item's flow reach the twin's copy, in issue order, before its `done` or `tick`
completes (R97): they cross the causeway from the item's cluster with class 3 (09 R246, R248; log entry 106). -/
def State.copyStores (s : State) (c : CoreId) (t : TeNo) (it : Item) : State :=
  let k := flowKey c it.flow
  ((tget s.mem.unsent k []).foldl (fun s e =>
    (s.copyStore c it.seat e.1 e.2.1 e.2.2).transit c (140 + 2 * (teCluster t).val) 88 3 e.2.2.length) s).sentAll k

/-- What was made from a received frame is acknowledged once its items have ended (07 R409). -/
def State.settleSource (s : State) (it : Item) : State :=
  match it.srcFrame with
  | none => s
  | some (x, q) => s.actDone x (if it.kind = 4 then .net else .usb) q

/-- `done`: the flow is released and last ran on this TE (R96, 05 R132). -/
def State.noteDone (s : State) (c : CoreId) (t : TeNo) (it : Item) : State :=
  let te := s.teSt c t
  let d := s.dispatch c
  let s := s.setTeSt c t { te with lastFlows := (it.flow :: te.lastFlows).take 16 }
  s.setDispatch c { d with lastTe := tset d.lastTe it.flow.toNat t.val 32 }

/-- An item of a loaded program ended by `done`: its run of aborts is over (R127). -/
def State.clearAborts (s : State) (c : CoreId) (r : Run) : State :=
  if s.onLive c r then
    bothCores.foldl (fun s c => s.setStore c ((s.store c).map fun m =>
      if m.id == r.prog && m.live then { m with aborts := 0 } else m)) s
  else s

/-- A policy item has ended (10 `POLICY_STATUS`). -/
def State.notePolicy (s : State) (c : CoreId) (r : Run) : State :=
  if r.item.kind = 5 then
    s.setTraf { s.traf with lastFrame := BitVec.ofNat 32 r.item.arg.toNat,
                            lastUs := BitVec.ofNat 16 (min 0xFFFF ((s.ut c - r.startUt) / 1000)) }
  else s

/-- A token is in flight (R101). -/
def Run.inFlight (r : Run) : Bool := r.toks.toList.any fun x =>
  match x with
  | .flight _ _ _ _ => true
  | _ => false

/-- The item in service on TE t ends with `done`. -/
def State.endItem (s : State) (c : CoreId) (t : TeNo) (r : Run) : State :=
  let s := match r.script, r.item.seat with
    | some sc, some x => s.sealScript x sc.n sc.recs
    | _, _ => s
  let s := (((s.copyStores c t r.item).noteDone c t r.item).notePolicy c r).clearAborts c r
  (((s.vacate c t).settleSource r.item)).freeImages c

/-! ### `tick` (R110) -/

/-- The item is suspended to the start of the next micro-frame; its script is sealed. -/
def State.suspend (s : State) (c : CoreId) (t : TeNo) (r : Run) (rd : Reg) : State :=
  match r.script, r.item.seat with
  | some sc, some x =>
    let s := (s.sealScript x sc.n sc.recs).copyStores c t r.item
    let resume := (s.ut c / microFrame + 1) * microFrame
    let r := { r with startUt := resume, tickRd := rd, scratch := r.scratch.filter fun k => decide (k.1 < 0x1000) }
    let d := s.dispatch c
    let s := s.setDispatch c { d with suspended := d.suspended ++ [(r, teCluster t)] }
    (s.vacate c t).holdCheck c
  | _, _ => s

/-- A suspended item of a seat is due to resume in the cluster of TE t, where it last ran, and is not yet ready to
(R110, 05 R129). -/
def resumes (s : State) (c : CoreId) (t : TeNo) (x : Seat) (r : Run × Fin 4) : Bool :=
  r.1.item.seat == some x && r.2 == teCluster t && decide (r.1.startUt ≤ s.ut c) &&
    (s.dispatch c).ready.all fun (it : Item) => !(it.resume && it.flow == r.1.item.flow)

/-- A suspended item of a seat becomes ready again in the cluster where it last ran, at its kind's level
(R110, 05 R128 to R130). -/
def State.resumeTick (s : State) (c : CoreId) (t : TeNo) (x : Seat) : State :=
  let d := s.dispatch c
  match d.suspended.find? (resumes s c t x) with
  | none => s
  | some p => s.readyIn c { p.1.item with resume := true } (d.level 0) p.2

/-- `TICK_RESUME`: the seat's item is ready to resume, and TE t, with a free local slot, asks for work (05 R132). -/
def execTickResume (c : CoreId) (t : TeNo) (x : Seat) (ut : Nat) (s : State) : Host.Outcome State Fault Refusal :=
  .next (((s.arrive ut).resumeTick c t x).teAsk c t)

/-! ### Aborts (R115, R116, R127) -/

/-- The fault record of an item (R115). -/
def State.faultBytes (s : State) (c : CoreId) (r : Run) (code : Nat) : List Byte :=
  let m := s.imageOf c r
  let (tag, queue) := match r.prog, m with
    | .islet _ _, some m => (m.tag.toNat, m.queue.toNat)
    | _, _ => (0, 0)
  let detail := code + at_ r.item.kind 8 + at_ r.item.flow.toNat 16 + at_ ((r.pc - r.base) / 4 % 2 ^ 24) 40
  recordBytes tag queue 0xFD (if code = 1 then 0x06 else 0x76) 0 1 detail (s.ut c)

/-- Unload a unit slot on both cores. -/
def State.unloadUnit (s : State) (slot : Fin 4) : State :=
  bothCores.foldl (fun s c =>
    (s.setStore c ((s.store c).map fun m => if m.id == .unit slot then { m with live := false } else m)).freeImages c) s

/-- Each port's registers show the aborted items of unit-loaded programs (`UNIT_PROGRAM_STATUS`). -/
def State.countUnitFault (s : State) : State :=
  bothPorts.foldl (fun s p =>
    let v := s.portSt p
    s.setPort p { v with progFaults := BitVec.ofNat 16 (satAdd 0xFFFF v.progFaults.toNat 1) }) s

/-- 16 aborts in a row of the program loaded in a unit slot unload it (R127). -/
def State.noteAbort (s : State) (c : CoreId) (r : Run) : State :=
  match r.prog with
  | .unit slot =>
    if s.onLive c r then
      let s := bothCores.foldl (fun s c => s.setStore c ((s.store c).map fun m =>
        if m.id == r.prog && m.live then { m with aborts := m.aborts + 1 } else m)) s
      if bothCores.any fun c => (s.store c).any fun m => m.id == r.prog && m.live && decide (16 ≤ m.aborts) then
        bothPorts.foldl (fun s q => s.setPort q { s.portSt q with stockRestored := true }) (s.unloadUnit slot)
      else s
    else s
  | _ => s

/-- The item's argument is an open entry handle of its islet (R88, R115). -/
def State.argHandle (s : State) (it : Item) : Option Nat :=
  if it.kind = 2 ∨ it.kind = 3 ∨ it.kind = 6 then
    match s.entry? it.arg.toNat with
    | some e => if e.islet = it.islet then some it.arg.toNat else none
    | none => none
  else none

/-- What a run's tokens still ask its host for is given up (R115; log entry 116). -/
def State.dropTokens (s : State) (c : CoreId) (t : TeNo) (slot : Fin 2) : State :=
  s.endReqs fun w => match w with
    | .token c' t' sl _ => c' == c && t' == t && sl == slot
    | _ => false

/-- The item in service on TE t aborts with a fault code (R112, R115). -/
def State.abortItem (s : State) (c : CoreId) (t : TeNo) (r : Run) (code : Nat) : State :=
  let it := r.item
  let s := match r.script, it.seat with
    | some sc, some x => s.sealScript x sc.n []
    | _, _ => s
  let s := match s.argHandle it with
    | some h => s.finish h (if code = 1 then 0x06 else 0x76) 0 0
    | none => s
  let b := s.faultBytes c r code
  let s := if it.islet.val = 0 then s.logLine (ascii "item fault 0x" ++ hex 2 code) else s.faultRecord c it.islet b
  let s := (s.count c 0x015 [(1, it.islet.val)] 1).bumpIslet c it.islet 5
  let s := if it.islet.val = 0 || r.prog.isUnit then s.countUnitFault else s
  let te := s.teSt c t
  let s := (s.setTeSt c t { te with inHandler := false }).dropTokens c t r.slot
  ((((s.notePolicy c r).noteAbort c r).vacate c t).settleSource it).freeImages c

/-- The latched record of a ring is written or held once it has a place (R116). -/
def execFaultRecordRelease (c : CoreId) (i : IsletNo) (r : Fin 256) (s : State) : Host.Outcome State Fault Refusal :=
  .next (s.releaseLatch c i r.val)

end Sys2Proof.Machine
end

