-- ==== Sys2Proof/Machine/Links.lean ====
section
/-! DEFINITION. Strait links: partners, negotiation and training, the greeting, link loss, the hold-down, its flush,
and the change of rate (07 R180 to R186, R199 to R212, R220, R221). -/

namespace Sys2Proof.Machine

/-! ### State changes -/

/-- After an operation on a seat's link: its source is raised where `STATE` has changed or a hold-down has started
or ended, and the votes of the seat are counted again (07 "Seat link registers"; 11 R305). -/
def State.linkDone (before : State) (x : Seat) (s : State) : State :=
  let same := decide (before.linkState x = s.linkState x) && (before.link_ x).holdStart.isSome == (s.link_ x).holdStart.isSome
  if same then s else (s.edge (s.servingCore x) x.val).settleSeat x

/-- The seat's port group domain wakes for work on its line (11 R307). -/
def State.wakeSeat (s : State) (x : Seat) : State := s.wake (s.servingCore x) (10 + x.val / 8)

/-! ### Rates (R180, R183, R185, R220, R221) -/

/-- The bit of a rate code in `RATES`. -/
def rateBit (r : Nat) : BitVec 4 := if r = 0 ∨ 4 < r then 0 else BitVec.ofNat 4 (2 ^ (r - 1))

/-- `RATE_MAX` as it acts. -/
def SeatLink.maxRate (l : SeatLink) : Nat := if l.rateMax = 0 ∨ 4 < l.rateMax.toNat then 4 else l.rateMax.toNat

/-- The highest rate code of a set, 0 for none. -/
def highestRate (m : BitVec 4) : Nat :=
  if m.getLsbD 3 then 4 else if m.getLsbD 2 then 3 else if m.getLsbD 1 then 2 else if m.getLsbD 0 then 1 else 0

/-- The target while only it is advertised (R220, R221). -/
def State.targetOnly (s : State) (x : Seat) : Option Nat :=
  let t := s.seatTime x
  match t.ratePhase with
  | .changing => t.recorded.map (·.toNat)
  | .recorded => t.recorded.map (·.toNat)
  | _ => none

/-- The rates the unit advertises (R185). -/
def State.advertised (s : State) (x : Seat) : BitVec 4 :=
  match s.targetOnly x with
  | some r => rateBit r
  | none => BitVec.ofNat 4 (2 ^ (s.link_ x).maxRate - 1) &&& ~~~(s.link_ x).dropped

/-- A rate change ends with a result (`RATE_RESULT`). -/
def State.endRate (s : State) (x : Seat) (result : BitVec 3) : State :=
  let t := s.seatTime x
  let s := s.setSeatTime x { t with ratePhase := .none, recorded := none, targetFrom := none }
  s.setLink_ x { s.link_ x with rateResult := result }

/-! ### Negotiation (R185, R221) -/

/-- Miolyn's OUI (R184). -/
def miolynOui : Nat := 0x5C71E8

/-- The unit's strait word: version 1, role 0, its rates (R184). -/
def unitWord (rates : BitVec 4) : Nat := at_ 1 16 + at_ rates.toNat 11

/-- The four unformatted pages of the OUI-tagged message with a strait word (R184). -/
def ouiPages (word : Nat) : List (BitVec 11) :=
  [BitVec.ofNat 11 (bits miolynOui 23 13), BitVec.ofNat 11 (bits miolynOui 12 2),
   BitVec.ofNat 11 (at_ (bits miolynOui 1 0) 9 + bits word 19 11), BitVec.ofNat 11 (bits word 10 0)]

/-- The strait word of a partner's message; none where its OUI is another (R184). -/
def straitWord (m : BitVec 11 × BitVec 11 × BitVec 11 × BitVec 11) : Option Nat :=
  if m.1.toNat = bits miolynOui 23 13 ∧ m.2.1.toNat = bits miolynOui 12 2 ∧ bits m.2.2.1.toNat 10 9 = bits miolynOui 1 0 then
    some (at_ (bits m.2.2.1.toNat 8 0) 11 + m.2.2.2.toNat)
  else none

/-- The first negotiation that advertises only the target starts (R221). -/
def State.startTarget (s : State) (x : Seat) (now : Nat) : State :=
  let t := s.seatTime x
  if (s.targetOnly x).isSome && t.targetFrom.isNone then s.setSeatTime x { t with targetFrom := some now } else s

/-- The unit negotiates afresh: no rate, no training, no PCS. Its pages carry the rates it advertises (R184, R185). -/
def State.negotiate (s : State) (x : Seat) : State :=
  let l := s.link_ x
  let now := s.ut (s.servingCore x)
  let s := s.setLink_ x { l with
    st := if l.energyAt.isSome then .negotiating else .noPartner, pcsUp := false, rate := 0, trainEnd := none, live := false,
    rehome := false, offered := s.advertised x, pages := ouiPages (unitWord (s.advertised x)) }
  s.startTarget x now

/-- The link is not up and its port is not disabled. -/
def SeatLink.seeking (l : SeatLink) : Bool := !l.pcsUp && (l.st == .noPartner || l.st == .negotiating)

/-! ### Foreign partners (R186) -/

/-- A partner is found foreign: the unit's pages advertise no technology, so that no link forms, and its power is
removed. -/
def State.becomeForeign (s : State) (x : Seat) : State :=
  let l := s.link_ x
  let s := s.setLink_ x { l with st := .foreign, pcsUp := false, rate := 0, trainEnd := none, offered := 0, pages := [] }
  let s := s.bumpSeat x 21 1
  if (s.seatPower x).isPowered then s.removePower x 6 .foreign 0 else s

/-- A foreign seat's port may detect again. -/
def State.powerUnforeign (s : State) (x : Seat) : State :=
  let v := s.seatPower x
  if v.st = .foreign then (s.putPower x { v with st := .detecting, waitUntil := 0 }).powerAllowed x else s

/-- The strait word is that of a dock whose rates are those of its pages (R184). -/
def straitWordOk (w : Nat) (pages : BitVec 4) : Bool :=
  bits w 19 16 == 1 && bit w 15 && bits w 14 11 == pages.toNat && bits w 10 0 == 0

/-- The partner lacks every rate that the unit offers: a recorded target alone has failed (R221), that of a hold-down is
tried until it expires (R220), and otherwise the partner is foreign (R186). -/
def State.noRate (s : State) (x : Seat) : State :=
  if (s.targetOnly x).isNone then s.becomeForeign x
  else if (s.link_ x).holdStart.isSome || (s.seatTime x).ratePhase == .changing then s.negotiate x
  else (s.endRate x 3).negotiate x

/-- Auto-negotiation completes with the partner's OUI-tagged message and the rates of its base and next pages (R183 to
R186, R221). -/
def State.autoneg (s : State) (x : Seat) (msg : Option (BitVec 11 × BitVec 11 × BitVec 11 × BitVec 11)) (rates : BitVec 4) : State :=
  let l := s.link_ x
  if !l.seeking then s
  else
    let now := s.ut (s.servingCore x)
    let s := (s.wakeSeat x).startTarget x now
    let s := s.setLink_ x { l with energyAt := some (l.energyAt.getD now), paged := true }
    let ok := match msg.bind straitWord with
      | some w => straitWordOk w rates
      | none => false
    if !ok then s.becomeForeign x
    else
      let r := highestRate (s.advertised x &&& rates)
      let l := s.link_ x
      if r = 0 then s.noRate x
      else s.setLink_ x { l with
        st := .training, trainRate := BitVec.ofNat 4 r, trainEnd := some (now + 2500 * ms), partnerRates := rates,
        trainFails := if l.trainRate.toNat = r then l.trainFails else 0 }

def execAutonegComplete (x : Seat) (msg : Option (BitVec 11 × BitVec 11 × BitVec 11 × BitVec 11)) (rates : BitVec 4) (s : State) :
    Host.Outcome State Fault Refusal :=
  .next (s.linkDone x (s.autoneg x msg rates))

/-- Energy for 3 s with no base-page exchange completed (R186). -/
def State.foreignEnergy (s : State) (x : Seat) : State :=
  let l := s.link_ x
  match l.energyAt with
  | some e => if l.seeking && !l.paged && decide (e + 3000 * ms ≤ s.ut (s.servingCore x)) then s.becomeForeign x else s
  | none => s

def execForeignEnergyTimeout (x : Seat) (ut : Nat) (s : State) : Host.Outcome State Fault Refusal :=
  let s := s.arrive ut
  .next (s.linkDone x (s.foreignEnergy x))

/-- 2 s with no energy and no signature end the foreign state (R186). -/
def State.foreignClear (s : State) (x : Seat) : State :=
  let l := s.link_ x
  if l.st = .foreign then
    ((s.setLink_ x { l with st := .noPartner, energyAt := none, paged := false, dropped := 0, trainFails := 0 }).negotiate x).powerUnforeign x
  else s

def execForeignClear (x : Seat) (ut : Nat) (s : State) : Host.Outcome State Fault Refusal :=
  let s := s.arrive ut
  .next (s.linkDone x (s.foreignClear x))

/-- Energy appears or returns: the partner is one that has disconnected before (R183, R186). -/
def State.energy (s : State) (x : Seat) : State :=
  let l := s.link_ x
  if l.st = .noPartner ∧ l.energyAt.isNone then
    ((s.wakeSeat x).setLink_ x { l with energyAt := some (s.ut (s.servingCore x)), paged := false, dropped := 0, trainFails := 0 }).negotiate x
  else s

/-- Ports can find a partner: not without supply, nor before step 8 of a cold start (12 R319). -/
def State.portsServed (s : State) : Bool :=
  match s.mode.mode with
  | .unpowered => false
  | .coldStart => decide (8 ≤ (s.startStep).getD 0)
  | _ => true

def execPartnerEnergyDetected (x : Seat) (ut : Nat) (s : State) : Host.Outcome State Fault Refusal :=
  let s := s.arrive ut
  .next (if s.portsServed then s.linkDone x (s.energy x) else s)

/-! ### Training (R183) -/

/-- Training ends: the line has its rate, and the PHY shows the pair swaps and polarities that it corrected (R183; 11
R302). The fit of the gate schedule is checked at the new rate (10 R270). -/
def State.trained (s : State) (x : Seat) (pairs : BitVec 6) : State :=
  let l := s.link_ x
  if l.st = .training ∧ l.trainEnd.isSome then
    let s := s.setLink_ x { l with rate := l.trainRate, trainEnd := none, trainFails := 0 }
    (s.setSeatPower x { s.seatPower x with pairMap := BitVec.ofNat 8 pairs.toNat }).gateRecheck x
  else s

def execTrainingComplete (l : TrainedLine) (s : State) : Host.Outcome State Fault Refusal :=
  .next (s.linkDone l.seat (s.trained l.seat l.pairs))

/-- Training fails; at the second failure in a row the rate is dropped. -/
def State.trainFailed (s : State) (x : Seat) : State :=
  let l := s.link_ x
  match l.trainEnd with
  | some e =>
    if s.ut (s.servingCore x) < e then s
    else if l.trainFails = 0 then (s.setLink_ x { l with trainFails := 1 }).negotiate x
    else (s.setLink_ x { l with trainFails := 0, dropped := l.dropped ||| rateBit l.trainRate.toNat }).negotiate x
  | none => s

def execTrainingTimeout (x : Seat) (ut : Nat) (s : State) : Host.Outcome State Fault Refusal :=
  let s := s.arrive ut
  .next (s.linkDone x (s.trainFailed x))

/-! ### The greeting (R199 to R201, R207) -/

/-- A tunnel's frames are discarded and its numbers start at 0. -/
def State.clearTunnel (s : State) (x : Seat) (t : Tunnel) : State :=
  let u := s.tun x t
  (((u.held ++ u.queue).foldl (fun s f => s.freeTx x f false) (s.setTun x t TunSt.init))).dropKept x t

/-- A data tunnel of a new service epoch: its numbers start at 0. Transmit frames that waited for the link are sent in
it (10 R278, R279). -/
def State.freshTunnel (s : State) (x : Seat) (t : Tunnel) : State :=
  if t = .net then
    let u := s.tun x t
    u.held.foldl (fun s f => s.freeTx x f false) (s.setTun x t { TunSt.init with queue := u.queue })
  else s.clearTunnel x t

/-- Send a `HELLO`: a new epoch, a fresh nonce, CTRL and SYNC afresh (R200). -/
def State.sendHello (s : State) (x : Seat) : State :=
  let (n, s) := s.draw
  let nonce := (List.range 16).map (Config.nonceByte n)
  let l := s.link_ x
  let e : Half := if l.epoch = 0xFFFF then 1 else l.epoch + 1
  let s := (s.clearTunnel x .ctrl).clearTunnel x .sync
  let s := s.setLink_ x { l with epoch := e, nonce := nonce, helloLast := s.ut (s.servingCore x) }
  s.sendCtrl x 0x01 (leBytes 1 1 ++ leBytes 1 (b2n l.rehome + at_ (b2n l.afterRate) 1) ++ leBytes 2 e.toNat ++
    leBytes 2 l.priorEpoch.toNat ++ leBytes 1 x.val ++ leBytes 1 s.host.unitIndex.toNat ++ nonce)

/-- PCS link up (R200): the rate's consequences for Gen 1 ports, the fit check, and the greeting. The return of a seat
that a failover moved during its hold-down is a rehome (R211). -/
def State.linkUp (s : State) (x : Seat) : State :=
  let l := s.link_ x
  if l.st = .training ∧ l.trainEnd.isNone ∧ !l.pcsUp ∧ l.rate ≠ 0 then
    let now := s.ut (s.servingCore x)
    let s := (s.wakeSeat x).setLink_ x { l with
      st := .greeting, pcsUp := true, lastRx := now, lastTx := now, helloFirst := now, live := false, rehome := l.moved,
      priorEpoch := l.svcEpoch, afterRate := (s.seatTime x).ratePhase == .changing, lastRate := l.rate }
    let s := if l.rate.toNat < 3 ∧ 3 ≤ l.lastRate.toNat then s.gen1Fall x
      else if 3 ≤ l.rate.toNat ∧ l.lastRate.toNat < 3 then s.gen1Rise x else s
    (s.gateRecheck x).sendHello x
  else s

def execPcsLinkUp (x : Seat) (s : State) : Host.Outcome State Fault Refusal :=
  .next (s.linkDone x (s.linkUp x))

/-- A `HELLO` waits for its reply. -/
def SeatLink.waitsReply (l : SeatLink) : Bool := l.pcsUp && (l.st == .greeting || l.live)

/-- A new `HELLO` after 10 ms, or after 50 µs of a rehome, while 1,000 ms have not passed (R200). -/
def State.helloAgain (s : State) (x : Seat) : State :=
  let l := s.link_ x
  let now := s.ut (s.servingCore x)
  if l.waitsReply && decide (l.helloLast + (if l.rehome then 50000 else 10 * ms) ≤ now ∧ now < l.helloFirst + 1000 * ms)
  then s.sendHello x else s

def execHelloRetry (x : Seat) (ut : Nat) (s : State) : Host.Outcome State Fault Refusal :=
  .next ((s.arrive ut).helloAgain x)

/-- The exchange is run again over a live link (R205, R208, R212). -/
def State.renewExchange (s : State) (x : Seat) : State :=
  let l := s.link_ x
  if l.pcsUp && (l.st == .up || l.st == .unenrolled || l.st == .authFailed) then
    (s.setLink_ x { l with
      live := true, rehome := false, afterRate := false, authAt := none, helloFirst := s.ut (s.servingCore x),
      priorEpoch := if l.st = .up then l.svcEpoch else 0 }).sendHello x
  else s

def execAuthRetry (x : Seat) (ut : Nat) (s : State) : Host.Outcome State Fault Refusal :=
  let s := s.arrive ut
  .next (match (s.link_ x).st, (s.link_ x).authAt with
    | .authFailed, some t => if t ≤ s.ut (s.servingCore x) then s.renewExchange x else s
    | _, _ => s)

/-! ### The flush of a seat (R210) -/

def dataTunnels : List Tunnel := [.usb, .iso, .disp, .net]

/-- The hold-down of a seat is over, and its output serves again. -/
def State.endHold (s : State) (x : Seat) : State :=
  let s := s.setLink_ x { s.link_ x with holdStart := none, holdLen := 0, moved := false }
  let c := s.servingCore x
  if (s.fabPort c x.val).state = .hold then s.setPortState c x.val .up else s

/-- The seat is flushed: frames discarded, entries `LINK_LOST`, ports `NOT_PRESENT`, heads detached. -/
def State.flushSeat (s : State) (x : Seat) : State :=
  let s := (s.endNet x 0x03 true).closeAtOnce x 0x03
  let u := s.usbSeat x
  let s := s.setUsbSeat x { UsbSeat.init with
    lastBuild := u.lastBuild,
    hubOps := u.hubOps.filter fun (o : HubOp) => match o with
      | .cmd _ _ _ => true
      | _ => false }
  let s := s.flushPorts x
  let s := (seatHeads x).foldl (fun s o => (s.dropConfig o 0x03).detachHead o 0x03) s
  let s := s.settleGroups (s.servingCore x)
  let s := dataTunnels.foldl (fun s t => s.clearTunnel x t) s
  let s := s.discardQueued (s.servingCore x) x.val
  let w := s.wfq x
  let off (q : WfqQ) : WfqQ := { q with tagged := none }
  let s := s.setWfq x { w with usb := off w.usb, iso := off w.iso, disp := off w.disp, net := off w.net, disp0 := off w.disp0, disp1 := off w.disp1 }
  let s := s.setLink_ x { s.link_ x with svcEpoch := 0, svcDock := 0 }
  (s.endHold x).bumpSeat x 16 1

/-! ### The link goes down (R209, R210, R220) -/

/-- Length of a hold-down in ns: `HOLD_DOWN_MS`, or 3,000 ms for a rate change or a recorded target (R210, R211). -/
def State.holdLength (s : State) (x : Seat) : Nat :=
  if (s.targetOnly x).isSome then 3000 * ms else min 4000 (s.link_ x).holdMs.toNat * ms

/-- The numbers of CTRL and SYNC are gone, and no timer of the link runs. -/
def State.stopTunnels (s : State) (x : Seat) : State :=
  let s := (s.clearTunnel x .ctrl).clearTunnel x .sync
  dataTunnels.foldl (fun s t => s.setTun x t { s.tun x t with timers := [], expiries := 0, reportBy := none, nakAfter := 0 }) s

/-- A link goes down with a cause. `atOnce`: no hold-down (R210). -/
def State.goDown (s : State) (x : Seat) (cause : Nat) (atOnce : Bool) : State :=
  let l := s.link_ x
  if !l.pcsUp then s
  else
    let now := s.ut (s.servingCore x)
    let s := s.bumpSeat x 14 1
    let t := s.seatTime x
    let s := if t.ratePhase = .waitAck ∨ t.ratePhase = .waitStop then
        s.setSeatTime x { t with ratePhase := .recorded, targetFrom := none, ys := [] }
      else s.setSeatTime x { t with ys := [] }
    let s := s.setLink_ x { l with
      pcsUp := false, rate := 0, live := false, rehome := false, afterRate := false, authAt := none, downCause := BitVec.ofNat 4 cause,
      energyAt := if cause = 1 then none else some now, paged := l.paged && cause != 1, st := .noPartner }
    let s := s.stopTunnels x
    let s :=
      if l.svcEpoch = 0 then s
      else if atOnce then s.flushSeat x
      else
        let s := if l.holdStart.isSome then s
          else (s.setLink_ x { s.link_ x with holdStart := some now, holdLen := s.holdLength x }).setPortState (s.servingCore x) x.val .hold
        if (s.link_ x).holdLen = 0 then s.flushSeat x else s
    if l.disable then s.setLink_ x { s.link_ x with st := .disabled, offered := 0, pages := [] } else s.negotiate x

/-- The end of a hold-down with no link: the flush, and the end of a rate change (R210, R220). -/
def State.holdExpired (s : State) (x : Seat) : State :=
  match (s.link_ x).holdStart with
  | some h =>
    if s.ut (s.servingCore x) < h + (s.link_ x).holdLen then s
    else
      let s := s.flushSeat x
      if (s.targetOnly x).isSome then
        let s := s.endRate x 3
        if (s.link_ x).st = .foreign then s else s.negotiate x
      else s
  | none => s

def execHoldDownExpiry (x : Seat) (ut : Nat) (s : State) : Host.Outcome State Fault Refusal :=
  let s := s.arrive ut
  .next (s.linkDone x (s.holdExpired x))

def execGoodbye (x : Seat) (s : State) : Host.Outcome State Fault Refusal :=
  .next (s.linkDone x (s.goDown x 4 false))

/-- Link fail of the PMA: an up link goes down; a partner that was only being negotiated with is gone. -/
def State.phyFail (s : State) (x : Seat) : State :=
  let l := s.link_ x
  if l.pcsUp then s.goDown x 1 false
  else if l.st = .negotiating ∨ l.st = .training then
    (s.setLink_ x { l with st := .noPartner, rate := 0, trainEnd := none, energyAt := none, paged := false }).negotiate x
  else s

def execPhyLinkFail (x : Seat) (s : State) : Host.Outcome State Fault Refusal :=
  .next (s.linkDone x (s.phyFail x))

/-- 1,000 ms with no reply: the PHY is reset and negotiates again (R200). -/
def State.helloGiveUp (s : State) (x : Seat) : State :=
  let l := s.link_ x
  let now := s.ut (s.servingCore x)
  if l.waitsReply && decide (l.helloFirst + 1000 * ms ≤ now) then
    if l.st = .greeting then ((s.stopTunnels x).setLink_ x { l with energyAt := some now }).negotiate x
    else s.goDown x 1 false
  else s

def execHelloGiveUp (x : Seat) (ut : Nat) (s : State) : Host.Outcome State Fault Refusal :=
  let s := s.arrive ut
  .next (if s.mode.mode = .unsupervised then s else s.linkDone x (s.helloGiveUp x))

/-- Time of calibration slots within [a, b), over the two frames from a's (R197, R209). -/
def State.slotTime (s : State) (x : Seat) (a b : Nat) : Nat :=
  let slot := (s.seatTraf x).calNow
  let part (m : Nat) : Nat := min b (m * frameNs + slot.1 + slot.2) - max a (m * frameNs + slot.1)
  part (a / frameNs) + part (a / frameNs + 1)

/-- No frame for 500 µs outside the calibration slot (R209). -/
def State.silence (s : State) (x : Seat) : State :=
  let l := s.link_ x
  let now := s.ut (s.servingCore x)
  if l.pcsUp && decide (l.lastRx + 500000 + s.slotTime x l.lastRx now ≤ now) then s.goDown x 3 false else s

def execSilence (x : Seat) (ut : Nat) (s : State) : Host.Outcome State Fault Refusal :=
  let s := s.arrive ut
  .next (s.linkDone x (s.silence x))

/-! ### `WELCOME` (R202 to R206) -/

/-- M of R203. -/
def macText (l : SeatLink) (x : Seat) (dockNonce : List Byte) (id : W64) : List Byte :=
  l.nonce ++ dockNonce ++ leBytes 8 id.toNat ++ leBytes 2 l.epoch.toNat ++ leBytes 1 x.val

/-- The first 16 bytes of the HMAC of R203 under a label. -/
def straitMac (key : List Byte) (label : String) (m : List Byte) : List Byte := (hmac key (ascii label ++ m)).take 16

/-- The key of a dock. -/
def State.dockKey (s : State) (id : W64) : Option (List Byte) := (s.link.keys.find? fun k => k.1 == id).map (·.2)

/-- `RECEIVED` and next `SEQ` of a tunnel in a `TUNNEL_STATE` at offset 48 (R201). -/
def tunnelState (b : List Byte) (t : Tunnel) : Half × Half :=
  let o := 48 + 4 * (t.code - 2)
  (BitVec.ofNat 16 (fld b o 2), BitVec.ofNat 16 (fld b (o + 2) 2))

/-- The check of R206 for a reliable tunnel. After a rehome the twin does not hold the failed core's next `SEQ`,
so the window of R193 bounds what the dock may have received (R212). -/
def TunSt.stateOk (u : TunSt) (rehome : Bool) (v : Half × Half) : Bool :=
  decide (sub16 v.1 u.free ≤ (if rehome then 64 else sub16 u.next u.free)) && decide (sub16 v.2 u.recv ≤ 64)

/-- The epoch resumes: numbers continue, and held frames from the dock's `RECEIVED` are sent again (R206, R212). -/
def State.resumeTunnel (s : State) (x : Seat) (t : Tunnel) (rehome : Bool) (r : Half) : State :=
  let u := s.tun x t
  if rehome then s.setTun x t { u with next := r, free := r, peerRecv := r, held := [], queue := u.queue, resend := [], timers := [], expiries := 0 }
  else
    let again := u.held.filter fun f => if t.reliable then decide (sub16 r u.free ≤ sub16 f.seq u.free) else decide (sub16 f.seq r < 32768)
    s.setTun x t { u with
      peerRecv := if t.reliable then r else u.peerRecv, resend := again.map (·.seq), timers := [], expiries := 0 }

/-- What `RESULT` is (R204). -/
inductive Welcome where
  | fresh | resumed | unenrolled | authFailed
  deriving DecidableEq, Repr

def Welcome.code : Welcome → Nat
  | .fresh => 1
  | .resumed => 2
  | .unenrolled => 3
  | .authFailed => 4

/-- Step 3 of R204. -/
def State.mayResume (s : State) (x : Seat) (b : List Byte) : Bool :=
  let l := s.link_ x
  l.priorEpoch != 0 && fld b 4 2 == l.priorEpoch.toNat && l.svcEpoch == l.priorEpoch && l.svcDock == BitVec.ofNat 64 (fld b 8 8) &&
    [Tunnel.usb, .disp, .net].all (fun t => (s.tun x t).stateOk l.rehome (tunnelState b t)) && (l.live || l.holdStart.isSome)

/-- The decision of R204, in its order. -/
def State.welcomeFor (s : State) (x : Seat) (b : List Byte) : Welcome :=
  let l := s.link_ x
  let id : W64 := BitVec.ofNat 64 (fld b 8 8)
  match if id = 0 then none else s.dockKey id with
  | none => .unenrolled
  | some k =>
    if slice b 32 16 ≠ straitMac k "STRAIT-D" (macText l x (slice b 16 16) id) then .authFailed
    else if s.mayResume x b then .resumed else .fresh

/-- What the result makes of the seat: its service, its link state (R204 to R206). -/
def State.enterResult (s : State) (x : Seat) (b : List Byte) (r : Welcome) : State :=
  let l := s.link_ x
  let flush (s : State) : State := if l.svcEpoch = 0 then s else s.flushSeat x
  let now := s.ut (s.servingCore x)
  match r with
  | .unenrolled => let s := flush s; s.setLink_ x { s.link_ x with st := .unenrolled, authAt := none }
  | .authFailed => let s := flush s; s.setLink_ x { s.link_ x with st := .authFailed, authAt := some (now + 60000 * ms) }
  | .resumed =>
    let s := (dataTunnels.foldl (fun s t => s.resumeTunnel x t l.rehome (tunnelState b t).1) s).dropIso x
    let s := if l.holdStart.isSome then (s.endHold x).bumpSeat x 15 1 else s
    s.setLink_ x { s.link_ x with st := .up, svcEpoch := l.epoch, authAt := none }
  | .fresh =>
    let s := flush s
    let s := dataTunnels.foldl (fun s t => s.freshTunnel x t) s
    s.setLink_ x { s.link_ x with st := .up, svcEpoch := l.epoch, svcDock := BitVec.ofNat 64 (fld b 8 8), authAt := none }

/-- `TUNNEL_STATE` of a `RESUMED` `WELCOME` (R202). -/
def State.ownState (s : State) (x : Seat) : List Byte :=
  (dataTunnels.map fun t => leBytes 2 (s.tun x t).recv.toNat ++ leBytes 2 (s.tun x t).next.toNat).flatten

/-- What the outputs of the seat need after a `WELCOME` (08 R239). -/
def State.welcomeHeads (s : State) (x : Seat) (r : Welcome) (afterRate : Bool) : State :=
  (seatHeads x).foldl (fun s o =>
    let d := s.head (s.shown o)
    match r with
    | .fresh =>
      let s := s.setView o { s.view o with screen := false }
      if (s.head o).st = .attached then ((s.setView o { s.view o with owed := none }).configFor o none).fullResend o else s
    | .resumed => if afterRate && d.st == .attached then s.fullResend o else s
    | _ => s.setView o { s.view o with screen := false }) s

/-- The body of a `HELLO_REPLY` has its length and no reserved byte set (R201, 00 R7). -/
def replyForm (b : List Byte) : Bool := b.length == 64 && fld b 1 1 == 0 && fld b 6 2 == 0

/-- A `HELLO_REPLY` answers the latest `HELLO` (R200, R201): `WELCOME` and what follows from its result. -/
def State.helloReply (s : State) (x : Seat) (b : List Byte) : State :=
  let l := s.link_ x
  if !replyForm b then s.bumpSeat x 12 1
  else if !l.waitsReply ∨ fld b 0 1 ≠ 1 ∨ fld b 2 2 ≠ l.epoch.toNat then s
  else
    let id : W64 := BitVec.ofNat 64 (fld b 8 8)
    let r := s.welcomeFor x b
    let good := r == .fresh || r == .resumed
    let mac := if good then straitMac ((s.dockKey id).getD []) "STRAIT-U" (macText l x (slice b 16 16) id) else List.replicate 16 0
    let s := s.enterResult x b r
    let s := s.setLink_ x { s.link_ x with
      live := false, rehome := false, afterRate := false, dockId := id, dockNonce := slice b 16 16 }
    let s := s.sendCtrl x 0x03 (leBytes 1 r.code ++ leBytes 1 0 ++ leBytes 2 l.epoch.toNat ++ leBytes 4 0 ++ mac ++
      (if r = .resumed then s.ownState x else List.replicate 16 0))
    let s := if good && s.targetOnly x == some l.rate.toNat then s.endRate x 1 else s
    let s := (s.gateRecheck x).sendTimeBase x
    s.welcomeHeads x r l.afterRate

def execHelloReply (x : Seat) (body : List Byte) (s : State) : Host.Outcome State Fault Refusal :=
  .next (if s.mode.mode = .unsupervised then s else s.linkDone x (s.helloReply x body))

/-! ### `SEAT_LINK_CONTROL` (R183, R209, R211) -/

/-- `DISABLE` becomes 1: the link is held down, and any hold-down ends at once (R209, R210). -/
def State.disableSeat (s : State) (x : Seat) : State :=
  let s := s.setLink_ x { s.link_ x with disable := true }
  if (s.link_ x).pcsUp then s.goDown x 7 true
  else
    let s := if (s.link_ x).holdStart.isSome then s.flushSeat x else s
    s.setLink_ x { s.link_ x with st := .disabled, rate := 0, trainEnd := none, offered := 0, pages := [] }

/-- `DISABLE` becomes 0: negotiation starts, and a foreign port is one no longer (R186). `seen`: a dock is known to
be there (11 R303). -/
def State.enableSeat (s : State) (x : Seat) (seen : Bool) : State :=
  let l := s.link_ x
  let e := if seen then some (l.energyAt.getD (s.ut (s.servingCore x))) else l.energyAt
  ((s.setLink_ x { l with disable := false, energyAt := e, paged := false }).negotiate x).powerUnforeign x

/-- A new `HOLD_DOWN_MS` moves the end of a hold-down that it governs (R211). -/
def State.holdWritten (s : State) (x : Seat) : State :=
  let l := s.link_ x
  match l.holdStart with
  | some h =>
    if (s.targetOnly x).isSome then s
    else
      let s := s.setLink_ x { l with holdLen := s.holdLength x }
      if h + s.holdLength x ≤ s.ut (s.servingCore x) then s.flushSeat x else s
  | none => s

/-! ### The change of rate (R220, R221) -/

/-- A `RATE_CHANGE` is sent: the stop lies 12 frames on, so that an answer within 10 ms comes before it. -/
def State.startRate (s : State) (x : Seat) (r : Nat) : State :=
  let now := s.ut (s.servingCore x)
  let stop := (now / frameNs + 12) * frameNs
  let t := s.seatTime x
  let s := s.setSeatTime x { t with ratePhase := .waitAck, recorded := some (BitVec.ofNat 4 r), stopUt := stop, ackBy := now + 10 * ms, targetFrom := none }
  let s := s.setLink_ x { s.link_ x with rateResult := 4 }
  s.sendCtrl x 0x05 (leBytes 2 r ++ leBytes 6 0 ++ leBytes 8 stop)

/-- The target is recorded for the next negotiation (R211, R221). -/
def State.recordRate (s : State) (x : Seat) (r : Nat) : State :=
  let t := s.seatTime x
  let s := s.setSeatTime x { t with
    ratePhase := if t.ratePhase = .changing then .changing else .recorded, recorded := some (BitVec.ofNat 4 r), targetFrom := none }
  s.setLink_ x { s.link_ x with rateResult := 4 }

/-- A write of `RATE_TARGET`. -/
def State.writeTarget (s : State) (x : Seat) (r : Nat) : State :=
  let l := s.link_ x
  let s := s.setLink_ x { l with rateTarget := BitVec.ofNat 4 r, dropped := 0 }
  let refused (s : State) : State := s.setLink_ x { s.link_ x with rateResult := 2 }
  let live := s.linkState x == .up || s.linkState x == .unenrolled || s.linkState x == .authFailed
  if r = 0 ∨ (live ∧ r = l.rate.toNat) then s
  else if l.maxRate < r then refused s
  else
    match s.linkState x with
    | .up => if (l.partnerRates &&& rateBit r) = 0 then refused s else s.startRate x r
    | .unenrolled => if (l.partnerRates &&& rateBit r) = 0 then refused s else s.startRate x r
    | .authFailed => if (l.partnerRates &&& rateBit r) = 0 then refused s else s.startRate x r
    | .holdDown =>
      let s := s.recordRate x r
      s.setLink_ x { s.link_ x with holdLen := 3000 * ms }
    | .rateChange => s.recordRate x r
    | .negotiating => ((s.recordRate x r).stopTunnels x).negotiate x
    | .training => ((s.recordRate x r).stopTunnels x).negotiate x
    | .greeting => ((s.recordRate x r).stopTunnels x).negotiate x
    | _ => s.recordRate x r

def execRateTargetWrite (w : Via) (x : Seat) (rate : BitVec 4) (s : State) : Host.Outcome State Fault Refusal :=
  .next (if s.viaHeard w && s.viaMay w then s.linkDone x (s.writeTarget x rate.toNat) else s)

/-- `SEAT_LINK_CONTROL` is written whole: its stored fields, `HOLD_DOWN_MS`, `DISABLE`, then `RATE_TARGET`. -/
def State.writeLinkControl (s : State) (x : Seat) (v : W64) : State :=
  let n := v.toNat
  let l := s.link_ x
  let s := s.setLink_ x { l with rateMax := BitVec.ofNat 4 (bits n 27 24), holdMs := BitVec.ofNat 13 (bits n 12 0), dropped := 0 }
  let s := s.storeUpdate fun t => { t with linkCtl := tset t.linkCtl x.val (v &&& 0x0F001FFF) 0x040000FA }
  let s := s.holdWritten x
  let s := if bit n 31 && !l.disable then s.disableSeat x else if !bit n 31 && l.disable then s.enableSeat x false else s
  s.writeTarget x (bits n 19 16)

def execSeatLinkControlWrite (w : Via) (x : Seat) (v : W64) (s : State) : Host.Outcome State Fault Refusal :=
  .next (if s.viaHeard w && s.viaMay w then s.linkDone x (s.writeLinkControl x v) else s)

/-- The dock agrees with the same 16 bytes (R220). -/
def State.rateAck (s : State) (x : Seat) (b : List Byte) : State :=
  let t := s.seatTime x
  if b.length ≠ 16 then s.bumpSeat x 12 1
  else if t.ratePhase = .waitAck ∧ s.ut (s.servingCore x) < t.ackBy ∧ fld b 0 2 = (t.recorded.map (·.toNat)).getD 0 ∧ fld b 2 6 = 0 ∧
      fld b 8 8 = t.stopUt then
    s.setSeatTime x { t with ratePhase := .waitStop }
  else s

def execRateAck (x : Seat) (body : List Byte) (s : State) : Host.Outcome State Fault Refusal :=
  .next (s.rateAck x body)

def State.rateUnanswered (s : State) (x : Seat) : State :=
  let t := s.seatTime x
  if t.ratePhase = .waitAck ∧ t.ackBy ≤ s.ut (s.servingCore x) then s.endRate x 2 else s

def execRateAckTimeout (x : Seat) (ut : Nat) (s : State) : Host.Outcome State Fault Refusal :=
  .next ((s.arrive ut).rateUnanswered x)

/-- The stop time: the link goes down, and only the target is negotiated (R220). -/
def State.rateStop (s : State) (x : Seat) : State :=
  let t := s.seatTime x
  if t.ratePhase = .waitStop ∧ t.stopUt ≤ s.ut (s.servingCore x) then
    (s.setSeatTime x { t with ratePhase := .changing, targetFrom := none }).goDown x 5 false
  else s

def execRateChangeStop (x : Seat) (ut : Nat) (s : State) : Host.Outcome State Fault Refusal :=
  let s := s.arrive ut
  .next (s.linkDone x (s.rateStop x))

/-- 3,000 ms after the first negotiation for the target alone, with no link up at it; in a hold-down its expiry decides
(R220, R221). -/
def State.rateLate (s : State) (x : Seat) : State :=
  match (s.seatTime x).targetFrom with
  | some t =>
    let l := s.link_ x
    if (s.targetOnly x).isSome && l.holdStart.isNone && !(l.pcsUp && s.targetOnly x == some l.rate.toNat) &&
        decide (t + 3000 * ms ≤ s.ut (s.servingCore x)) then
      let s := s.endRate x 3
      let st := (s.link_ x).st
      if st = .noPartner ∨ st = .negotiating ∨ st = .training ∨ st = .greeting then (s.stopTunnels x).negotiate x else s
    else s
  | none => s

def execRateChangeTimeout (x : Seat) (ut : Nat) (s : State) : Host.Outcome State Fault Refusal :=
  let s := s.arrive ut
  .next (s.linkDone x (s.rateLate x))

/-! ### The wake pattern (11 R303) -/

def State.wakePattern (s : State) (x : Seat) : State :=
  let p := s.seatPower x
  if p.isPowered && !(s.link_ x).pcsUp then
    let s := ((s.setSeatPower x { p with wakeSeen := true }).edge (s.servingCore x) (64 + x.val)).wakeSeat x
    if p.wakeLink && (s.link_ x).disable then s.enableSeat x true else s
  else s

def execWakePattern (x : Seat) (s : State) : Host.Outcome State Fault Refusal :=
  .next (s.linkDone x (s.wakePattern x))

end Sys2Proof.Machine
end

