-- ==== Sys2Proof/Machine/LinkRx.lean ====
section
/-! DEFINITION. Strait frames received, reports, NAKs, retransmission, keep-alives, the time lock and the
calibration slots (07 R187 to R198, R213 to R219, R409). -/

namespace Sys2Proof.Machine

/-! ### Messages in a frame -/

/-- A payload as whole messages with an `h`-byte header and a length at offset 2; false where bytes remain that are
no whole message (R164, R199). -/
def splitMsgs (h : Nat) : Nat → List Byte → List (List Byte) × Bool
  | 0, b => ([], b.isEmpty)
  | n + 1, b =>
    let len := h + fld b 2 2
    if b.isEmpty then ([], true)
    else if b.length < h ∨ b.length < len then ([], false)
    else
      let (r, ok) := splitMsgs h n (b.drop len)
      (b.take len :: r, ok)

/-! ### NAK (R196) -/

/-- Numbers in the order of the sender's window, without repeats. -/
def insertSeq (free q : Half) : List Half → List Half
  | [] => [q]
  | r :: l => if q = r then r :: l else if sub16 q free < sub16 r free then q :: r :: l else r :: insertSeq free q l

/-- A `NAK`: the named frames still held are sent again first. One that is malformed is discarded and counted (R196, 00
R7). -/
def State.takeNak (s : State) (x : Seat) (b : List Byte) : State :=
  match (if b.length = 12 ∧ fld b 1 1 = 0 then (Tunnel.ofCode (fld b 0 1)).filter (·.reliable) else none) with
  | none => s.bumpSeat x 12 1
  | some t =>
    let u := s.tun x t
    let base := fld b 2 2
    let miss := fld b 4 8
    let named := u.held.filter fun f => decide (sub16 f.seq (BitVec.ofNat 16 base) < 64) && bit miss (sub16 f.seq (BitVec.ofNat 16 base))
    (s.setTun x t { u with resend := (named.map (·.seq)).foldl (fun l q => insertSeq u.free q l) u.resend }).bumpSeat x 11 1

def execNak (x : Seat) (body : List Byte) (s : State) : Host.Outcome State Fault Refusal :=
  .next (if (s.link_ x).pcsUp then s.takeNak x body else s)

/-- Bit i of `MISSING`: `RECEIVED` + i is missing below the highest frame held. -/
def TunSt.missing (u : TunSt) : Nat :=
  let top := (u.ahead.map fun f => sub16 f.1 u.recv).foldl max 0
  ((List.range top).map fun i => if u.ahead.any (fun f => sub16 f.1 u.recv == i) then 0 else 2 ^ i).sum

/-- The line is free for a bare frame with a payload of `n` bytes; a port in `HOLD` sends none (10 R267). -/
def State.bareReady (s : State) (x : Seat) (n : Nat) : Bool :=
  (s.link_ x).st.carries && s.serves (s.servingCore x) && (s.fabPort (s.servingCore x) x.val).state != .hold && decide ((s.wfq x).busyUntil ≤ s.ut (s.servingCore x)) && s.bareRoom x n

/-- A NAK for a tunnel with a gap, at most one in 10 µs. -/
def State.sendNak (s : State) (x : Seat) (t : Tunnel) : State :=
  let u := s.tun x t
  let c := s.servingCore x
  if t.reliable && !u.ahead.isEmpty && decide (u.nakAfter ≤ s.ut c) && s.bareReady x 16 then
    let s := s.setTun x t { u with nakAfter := s.ut c + 10000 }
    let s := s.sendBare x (ctrlMsg 0x04 (leBytes 1 t.code ++ leBytes 1 0 ++ leBytes 2 u.recv.toNat ++ leBytes 8 u.missing))
    s.count c 0x054 [(2, x.val)] 1
  else s

def execNakSend (x : Seat) (tn : Tunnel) (ut : Nat) (s : State) : Host.Outcome State Fault Refusal :=
  .next ((s.arrive ut).sendNak x tn)

/-! ### Reports, keep-alives and retransmission (R192, R195, R197) -/

def execReportDue (x : Seat) (tn : Tunnel) (ut : Nat) (s : State) : Host.Outcome State Fault Refusal :=
  let s := s.arrive ut
  .next (match (s.tun x tn).reportBy with
    | some b => if b ≤ s.ut (s.servingCore x) ∧ s.bareReady x 0 then s.sendBare x [] else s
    | none => s)

def execKeepaliveDue (x : Seat) (ut : Nat) (s : State) : Host.Outcome State Fault Refusal :=
  let s := s.arrive ut
  .next (if (s.link_ x).lastTx + 50000 ≤ s.ut (s.servingCore x) ∧ s.bareReady x 0 then s.sendBare x [] else s)

/-- A retransmit timer has run its time, which does not count time in which it stands still (R197). -/
def State.timerOver (s : State) (x : Seat) (r : ReTimer) : Bool :=
  let now := s.ut (s.servingCore x)
  decide (r.due + r.paused + s.slotTime x (r.due - 30000) now ≤ now)

/-- A retransmit timer expires: held frames at or above `RECEIVED` go again, or the link goes down. -/
def State.retransmit (s : State) (x : Seat) (t : Tunnel) : State :=
  let u := s.tun x t
  match u.timers.find? (s.timerOver x) with
  | some r =>
    if t.reliable && (s.link_ x).pcsUp then
      let s := s.bumpSeat x 10 1
      if 16 ≤ u.expiries + 1 then s.goDown x 2 false
      else s.setTun x t { u with
        timers := u.timers.erase r, expiries := u.expiries + 1,
        resend := (u.held.filter fun f => decide (sub16 u.peerRecv u.free ≤ sub16 f.seq u.free)).map (·.seq) }
    else s
  | none => s

def execRetransmitTimerExpiry (x : Seat) (tn : Tunnel) (ut : Nat) (s : State) : Host.Outcome State Fault Refusal :=
  let s := s.arrive ut
  .next (s.linkDone x (s.retransmit x tn))

/-! ### The time lock (R213 to R216) -/

/-- `DOCK_TIME`; one that is malformed is discarded and counted (R215, 00 R7). -/
def State.takeDockTime (s : State) (x : Seat) (b : List Byte) : State :=
  let t := s.seatTime x
  if b.length ≠ 8 ∨ fld b 1 1 ≠ 0 ∨ fld b 6 2 ≠ 0 then s.bumpSeat x 12 1
  else s.setSeatTime x { t with
    lock := BitVec.ofNat 2 (if 3 < fld b 0 1 then 0 else fld b 0 1), phase := BitVec.ofNat 16 (fld b 2 2),
    dockMargin := BitVec.ofNat 16 (fld b 4 2) }

def execDockTime (x : Seat) (body : List Byte) (s : State) : Host.Outcome State Fault Refusal :=
  .next (if (s.link_ x).pcsUp then s.takeDockTime x body else s)

/-- Arrival less stamp, from the low 32 bits of the stamp. -/
def stampDelay (arrival low : Nat) : Int :=
  let d : Nat := (arrival % 2 ^ 32 + 2 ^ 32 - low % 2 ^ 32) % 2 ^ 32
  if d < 2 ^ 31 then (d : Int) else (d : Int) - 2 ^ 32

def insertInt (v : Int) : List Int → List Int
  | [] => [v]
  | a :: l => if v ≤ a then v :: a :: l else a :: insertInt v l

/-- The median: of an even number, the mean of the middle two, rounded down. -/
def median (l : List Int) : Option Int :=
  let m := l.foldl (fun a v => insertInt v a) []
  let k := m.length / 2
  match m[k]? with
  | none => none
  | some v => if m.length % 2 = 1 then some v else some (Int.fdiv (v + (m[k - 1]?).getD v) 2)

/-- D_new of R215, within the range of `DELAY_NS`. -/
def newDelay (ys : List Int) (d : Nat) : Nat :=
  match median ys with
  | some y => min 100000 (Int.fdiv (y + d) 2).toNat
  | none => d

/-- The millisecond's delay update: a `TIME_BASE` where D moves by 2 ns or 100 ms have passed. -/
def State.delayUpdate (s : State) (x : Seat) : State :=
  let l := s.link_ x
  let t := s.seatTime x
  let now := s.ut (s.servingCore x)
  if (l.st == .up || l.st == .unenrolled || l.st == .authFailed) && decide (t.lastUpdate + ms ≤ now) then
    let n := newDelay t.ys t.dDelay
    let moved := decide (n + 2 ≤ t.dDelay ∨ t.dDelay + 2 ≤ n)
    let s := s.setSeatTime x { t with ys := [], lastUpdate := now, dDelay := if moved then n else t.dDelay }
    if moved || decide (t.lastBase + 100 * ms ≤ now) then s.sendTimeBase x else s
  else s

def execDelayUpdate (x : Seat) (ut : Nat) (s : State) : Host.Outcome State Fault Refusal :=
  .next ((s.arrive ut).delayUpdate x)

/-! ### Calibration slots (R218, R219) -/

/-- The least of margins, signed. -/
def leastMargin : List Half → Half
  | [] => 0x8000
  | [m] => m
  | m :: r => if m.toInt ≤ (leastMargin r).toInt then m else leastMargin r

def State.calibrate (s : State) (x : Seat) (m : Half) : State :=
  let s := s.settleGate x
  if !(s.link_ x).pcsUp then s
  else
    let t := s.seatTime x
    if (s.seatTraf x).calNow.2 = 0 then s.setSeatTime x { t with margin := 0x8000, minMargin := 0x8000, margins := [] }
    else
      let ms := (m :: t.margins).take 1000
      (s.setSeatTime x { t with margin := m, margins := ms, minMargin := leastMargin ms }).bumpSeat x 20 1

def execCalibrationSlot (x : Seat) (margin : Half) (ut : Nat) (s : State) : Host.Outcome State Fault Refusal :=
  .next ((s.arrive ut).calibrate x margin)

/-! ### Messages delivered -/

/-- A CTRL or SYNC message in a sequenced frame (R199, R207). A reply to an earlier `HELLO` counts as lost, so the
tunnel still expects `SEQ` 0 (R200, R201; log entry 18). -/
def State.ctrlMessage (s : State) (x : Seat) (t : Tunnel) (seq : Half) (m : List Byte) : State :=
  let b := m.drop 4
  if fld m 1 1 ≠ 0 then s.bumpSeat x 12 1
  else match t, fld m 0 1 with
  | .sync, 0x11 => s.takeDockTime x b
  | .ctrl, 0x02 =>
    if (s.link_ x).waitsReply ∧ (seq ≠ 0 ∨ !replyForm b ∨ fld b 0 1 ≠ 1 ∨ fld b 2 2 ≠ (s.link_ x).epoch.toNat) then
      (s.setTun x .ctrl { s.tun x .ctrl with recv := 0, ack := 0, ahead := [] }).bumpSeat x 12 (b2n (!replyForm b))
    else if seq = 0 then s.helloReply x b else s
  | .ctrl, 0x06 => s.rateAck x b
  | .ctrl, 0x07 => if b.isEmpty then s.goDown x 4 false else s.bumpSeat x 12 1
  | _, _ => s.bumpSeat x 12 1

/-- `RESULTS` (06 R169): a malformed message takes the link down with no hold-down. -/
def State.resultsMessage (s : State) (x : Seat) (param0 : Nat) (b : List Byte) (src : Option (Tunnel × Half)) (iso : Bool) : State :=
  let (s, bad) := s.takeResults x param0 b src iso
  if bad then s.goDown x 6 true else s

def execResults (x : Seat) (iso : Bool) (param0 : W32) (body : List Byte) (s : State) : Host.Outcome State Fault Refusal :=
  .next (if (s.link_ x).maySend (if iso then .iso else .usb) then s.linkDone x (s.resultsMessage x param0.toNat body none iso) else s)

/-- A USB or ISO message (06 R164). Header bytes that should be 0 and are not make a `RESULTS` malformed (06 R169); any other
message with them is discarded and counted (00 R7; log entry 103). -/
def State.usbMessage (s : State) (x : Seat) (t : Tunnel) (seq : Half) (m : List Byte) : State :=
  let b := m.drop 16
  let form := fld m 1 1 == 0 && fld m 8 4 == 0 && fld m 12 4 == 0
  match fld m 0 1 with
  | 3 =>
    if form then s.resultsMessage x (fld m 4 4) b (if t = .usb then some (t, seq) else none) (t == .iso)
    else (s.bumpSeat x 12 1).goDown x 6 true
  | 4 => if t = .usb ∧ form ∧ fld m 4 4 = 0 then s.takeProfile x b else s.bumpSeat x 12 1
  | _ => s.bumpSeat x 12 1

/-- A DISP message has the form of its row of 08 R237: a local head, no reserved header byte set, the parameters that are
0, and a body only where the row has one (00 R7; log entry 103). -/
def dispForm (m : List Byte) : Bool :=
  let empty := m.length == 16
  decide (fld m 1 1 ≤ 1) && fld m 12 4 == 0 && match fld m 0 1 with
    | 0x11 => fld m 8 4 == 0 && empty
    | 0x12 => empty
    | 0x13 => fld m 4 4 == 0 && fld m 8 4 == 0 && empty
    | _ => true

/-- A DISP message (08 R237). -/
def State.dispMessage (s : State) (x : Seat) (m : List Byte) : State :=
  let b := m.drop 16
  let o := unitHead x (toFin 1 (fld m 1 1))
  let p0 := fld m 4 4
  let p1 := fld m 8 4
  if !dispForm m then s.bumpSeat x 12 1
  else
    match fld m 0 1 with
    | 0x10 => s.takeMonitor o p0 p1 b
    | 0x11 => s.takeConfigDone o p0
    | 0x12 => s.takeApplied o p0 p1
    | 0x13 => s.takeStoreLost o
    | _ => s.bumpSeat x 12 1

/-- Each message of a frame in turn, while the link stays up. -/
def State.eachMessage (s : State) (x : Seat) (h : Nat) (b : List Byte) (f : State → List Byte → State) : State :=
  let (l, ok) := splitMsgs h b.length b
  let s := l.foldl (fun s m => if (s.link_ x).pcsUp then f s m else s) s
  if ok then s else s.bumpSeat x 12 1

/-- A frame's payload goes to the block that owns its content (R194, R409). -/
def State.deliver (s : State) (x : Seat) (t : Tunnel) (seq : Half) (low : Nat) (b : List Byte) : State :=
  match t with
  | .ctrl => s.eachMessage x 4 b fun s m => s.ctrlMessage x .ctrl seq m
  | .sync => s.eachMessage x 4 b fun s m => s.ctrlMessage x .sync seq m
  | .usb => s.eachMessage x 16 b fun s m => s.usbMessage x .usb seq m
  | .iso => s.eachMessage x 16 b fun s m => s.usbMessage x .iso seq m
  | .disp => s.eachMessage x 16 b fun s m => s.dispMessage x m
  | .net => s.takeNet x low b (some seq)

/-! ### Sequence (R194, R198, R205, 09 R261) -/

/-- The fabric output of the block that a seat's frames of a tunnel go to (09 R246; log entry 16). -/
def State.blockPort (s : State) (x : Seat) (t : Tunnel) : Nat :=
  match t with
  | .usb => s.usbInput x
  | .iso => s.usbInput x
  | .disp => 124 + 2 * x.val % 16
  | .net => netInput x
  | _ => 152

/-- The fabric admits a received frame; a refusal is counted (09 R259, R261). -/
def State.rxAdmit (s : State) (x : Seat) (t : Tunnel) (len : Nat) : Bool × State :=
  let c := s.servingCore x
  let o := s.blockPort x t
  let full := (s.admitFrom c o t.cls (s.owner x).val (cellsOf (len + 16))).isNone
  let down := s.newFrame c o == .refuse
  if down || full then (false, ((if down then s else s.noteRefusal c o t.cls).bumpSeat x 8 1).discardAt c x.val)
  else (true, ((s.wakeOutput c o).bwCount c x.val false (len + 16)).bwCount c o true (len + 16))

/-- The tunnel is closed to the dock: before `WELCOME`, or by R205. -/
def State.blocked (s : State) (x : Seat) (t : Tunnel) : Bool :=
  match (s.link_ x).st, t with
  | _, .ctrl => false
  | _, .sync => false
  | .up, _ => false
  | .unenrolled, .disp => false
  | .authFailed, .disp => false
  | _, _ => true

/-- Frames held above the gap follow in order while they are there. -/
def State.drainAhead (s : State) (x : Seat) (t : Tunnel) : Nat → State
  | 0 => s
  | n + 1 =>
    let u := s.tun x t
    if !(s.link_ x).pcsUp then s
    else
      match u.ahead.find? (fun f => f.1 == u.recv) with
      | none => s
      | some (q, b) =>
        let s := s.setTun x t { u with recv := u.recv + 1, ahead := u.ahead.filter fun f => f.1 != q }
        (s.deliver x t q (fld b 0 4) (b.drop 4)).drainAhead x t n

/-- A frame of a reliable tunnel by its number (R194). A frame held above a gap keeps its stamp before it. -/
def State.takeSequenced (s : State) (x : Seat) (t : Tunnel) (seq : Half) (low len : Nat) (b : List Byte) : State :=
  let u := s.tun x t
  let d := sub16 seq u.recv
  if 32768 ≤ d then s.reportIn x t 10000
  else if 64 ≤ d ∨ u.ahead.any (fun f => f.1 == seq) then s
  else
    let (ok, s) := s.rxAdmit x t len
    if !ok then s
    else
      let u := s.tun x t
      let s := s.setTun x t { u with ahead := u.ahead ++ [(seq, leBytes 4 low ++ b)] }
      if d ≠ 0 then s
      else
        let s := s.drainAhead x t 64
        if (s.link_ x).pcsUp then (s.ackPass x t).reportIn x t 100000 else s

/-- An ISO frame (R198). -/
def State.takeIso (s : State) (x : Seat) (seq : Half) (low len : Nat) (b : List Byte) : State :=
  let u := s.tun x .iso
  if 32768 ≤ sub16 seq u.recv then s
  else
    let s := s.setTun x .iso { u with recv := seq + 1 }
    let (ok, s) := s.rxAdmit x .iso len
    if ok then s.deliver x .iso seq low b else s

/-! ### The checks of a frame (R189, R191) -/

/-- The header conditions of step 4: for an `UNSEQ` frame those of R191. -/
def headerForm (b : List Byte) : Option Tunnel :=
  let b0 := fld b 0 1
  let b1 := fld b 1 1
  let len := fld b 8 2
  let valid := bit b0 7
  match Tunnel.ofCode (b0 % 8) with
  | none => none
  | some t =>
    let report := if valid then ((Tunnel.ofCode (b1 % 8)).map (·.reliable)).getD false else b1 % 8 == 0 && fld b 4 4 == 0
    let form := if bit b1 7 then t == .ctrl && fld b 2 2 == 0 && !bit b0 6 && valid else decide (1 ≤ len)
    if report && form && bits b1 6 3 == 0 && fld b 10 2 == 0 then some t else none

/-- The counter of the first check of R189 that a received frame fails, or its tunnel. -/
def frameCheck (pcsError : Bool) (b : List Byte) : Nat ⊕ Tunnel :=
  match straitCheck pcsError b with
  | some k => .inl k
  | none =>
    match headerForm b with
    | some t => .inr t
    | none => .inl 7

/-- A frame of the numbering before the `HELLO` of an exchange over a live link: CTRL and SYNC have started afresh, and
the dock has not answered (R200, R208; log entry 18). -/
def State.oldFrame (s : State) (x : Seat) (t : Tunnel) (seq : Half) : Bool :=
  (s.link_ x).waitsReply && (s.link_ x).live && (t == .sync || (t == .ctrl && seq != 0))

/-- The report of a good frame is used, or takes the link down (R189). While a `HELLO` over a live link waits, a report
of CTRL or SYNC can still be one of the numbering before it, and says nothing (log entry 18). -/
def State.useReport (s : State) (x : Seat) (b : List Byte) : State :=
  if bit (fld b 0 1) 7 then
    match Tunnel.ofCode (fld b 1 1 % 8) with
    | some k =>
      let a : Half := BitVec.ofNat 16 (fld b 4 2)
      let r : Half := BitVec.ofNat 16 (fld b 6 2)
      if (s.tun x k).reportOk a r then s.takeReport x k a r
      else if (s.link_ x).waitsReply && (s.link_ x).live && (k == .ctrl || k == .sync) then s else s.goDown x 6 false
    | none => s
  else s

/-- The payload of an `UNSEQ` frame: nothing, or one NAK (R191). -/
def State.takeBare (s : State) (x : Seat) (p : List Byte) : State :=
  if p.isEmpty then s
  else
    match splitMsgs 4 1 p with
    | ([m], true) => if fld m 0 1 = 0x04 ∧ fld m 1 1 = 0 then s.takeNak x (m.drop 4) else s.bumpSeat x 12 1
    | _ => s.bumpSeat x 12 1

/-- Retransmit timers stand still while a frame arrives, from its start character to its end (R197). -/
def State.pauseTimers (s : State) (x : Seat) (time : Nat) : State :=
  let now := s.ut (s.servingCore x)
  [Tunnel.ctrl, .sync, .usb, .disp, .net].foldl (fun s t =>
    let u := s.tun x t
    s.setTun x t { u with timers := u.timers.map fun r => { r with paused := r.paused + min time (now - (r.due - 30000)) } }) s

/-- A received strait frame, at its end (R189 to R198, R213). -/
def State.receive (s : State) (x : Seat) (pcsError : Bool) (b : List Byte) : State :=
  if !(s.link_ x).pcsUp then s
  else
    let time := lineTime b.length 8 (s.rateOf x)
    let s := s.pauseTimers x time
    match frameCheck pcsError b with
    | .inl k => if k = 7 then s.bumpSeat x k 1 else (s.bumpSeat x k 1).discardAt (s.servingCore x) x.val
    | .inr t =>
      let now := s.ut (s.servingCore x)
      let s := ((s.bumpSeat x 0 1).bumpSeat x 2 b.length).count (s.servingCore x) 0x052 [(2, x.val), (6, t.code)] 1
      let s := s.setLink_ x { s.link_ x with lastRx := now }
      let d := s.seatTime x
      let s := s.setSeatTime x { d with ys := d.ys ++ [stampDelay (now - time) (fld b 12 4)] }
      let s := s.useReport x b
      let p := (b.drop 16).take (fld b 8 2)
      let seq : Half := BitVec.ofNat 16 (fld b 2 2)
      if !(s.link_ x).pcsUp then s
      else if bit (fld b 1 1) 7 then s.takeBare x p
      else if s.blocked x t then (if (s.link_ x).st = .greeting then s else s.bumpSeat x 13 1)
      else if s.oldFrame x t seq then s
      else if t = .iso then s.takeIso x seq (fld b 12 4) b.length p
      else
        let d := sub16 seq (s.tun x t).recv
        let s := s.takeSequenced x t seq (fld b 12 4) b.length p
        if bit (fld b 0 1) 6 && !decide (64 ≤ d ∧ d < 32768) && (s.link_ x).pcsUp then s.reportIn x t 10000 else s

def execStraitFrameReceive (x : Seat) (pcsError : Bool) (bytes : List Byte) (ut : Nat) (s : State) :
    Host.Outcome State Fault Refusal :=
  let s := s.arrive ut
  .next (s.linkDone x (s.receive x pcsError bytes))

end Sys2Proof.Machine
end

