-- ==== Sys2Proof/Machine/Queues.lean ====
section
/-! DEFINITION. Doorbells, queue and ring configuration, the entry cache, taking entries, consumer indices and what
comes back from host reads (03 R55 to R86; 02 R30, R43, R44). -/

namespace Sys2Proof.Machine

/-! ### The two sides of a queue (02 R43, R44) -/

/-- The core runs: it serves and, where it runs the twin's queues, has adopted them (13 R345). -/
def State.running (s : State) (c : CoreId) : Bool := s.serves (s.runs c)

/-- `PROTECTION_LAPSED` is set; no verdict is compared any more (R44). -/
def State.lapse (s : State) (i : IsletNo) : State :=
  let s := s.setIslet i { s.islet i with lapsed := true }
  State.restallAll (i := i) <| bothCores.foldl (fun s c => (List.range ((s.islet i).queues c)).foldl (fun s q =>
    (s.setQueue c i q { s.queue c i q with seen := [] }).setShQueue c i q { s.shQueue c i q with seen := [] }) s) s

/-- The serving core's verdict on a doorbell, compared with the twin's at the same position (R44). -/
def State.judged (s : State) (c : CoreId) (i : IsletNo) (q : Nat) (bad : Bool) : State :=
  if !s.protects i then s
  else
    let x := s.queue c i q
    let y := s.shQueue c i q
    match y.seen with
    | [] => s.setQueue c i q { x with seen := x.seen ++ [(bad, x.p)] }
    | v :: r => if v = (bad, x.p) then s.setShQueue c i q { y with seen := r } else s.lapse i

/-- The twin's verdict, compared with the serving core's. -/
def State.judgedShadow (s : State) (c : CoreId) (i : IsletNo) (q : Nat) (bad : Bool) : State :=
  let x := s.queue c i q
  let y := s.shQueue c i q
  match x.seen with
  | [] => s.setShQueue c i q { y with seen := y.seen ++ [(bad, y.p)] }
  | v :: r => if v = (bad, y.p) then s.setQueue c i q { x with seen := r } else s.lapse i

/-! ### Rounds (R69, R70) -/

/-- No earlier entry of the queue is open, or made and neither written nor held (R70 `FENCE`). -/
def State.fenceClear (s : State) (c : CoreId) (i : IsletNo) (q : Nat) : Bool :=
  let open' := s.wq.entries.any fun e => e.2.core == c && e.2.islet == i && e.2.queue.val == q
  let made := (s.ring c i (s.queue c i q).ring.toNat).made.any fun v =>
    fld v.bytes 4 2 == queueField c q && decide (fld v.bytes 6 1 < 0xFD)
  !open' && !made

/-- The queue can take its next entry (R70, R69, 05 R136, 10 R278, 12 R336). -/
def State.canTake (s : State) (c : CoreId) (i : IsletNo) (q : Nat) : Bool :=
  let x := s.queue c i q
  match x.cache with
  | [] => false
  | v :: _ =>
    (s.islet i).st == .active && s.mode.mode != .safeStop && s.running c && !(s.dispatch (s.runs c)).holdBack &&
    x.enable && !x.frozen && s.hasPlace c i x.ring.toNat 0 && (!bit (fld v.bytes 2 2) 1 || s.fenceClear c i q) &&
    !s.netHolds (fld v.bytes 0 1) (toSeat (fld v.bytes 8 1))

/-- No queue of the islet can take: its round has ended (R70). -/
def State.roundIdle (s : State) (c : CoreId) (i : IsletNo) : Bool :=
  (List.range ((s.islet i).queues c)).all fun q => !s.canTake c i q

/-- A round that has ended is followed by a new one; every command that lets a queue take again asks first (R70). -/
def State.roundCheck (s : State) (c : CoreId) (i : IsletNo) : State := if s.roundIdle c i then s.newRound c i else s

/-! ### Doorbells (R65 to R68, R73) -/

/-- The inline units at an index. -/
def QueueSt.inlAt (x : QueueSt) (idx : Half) : List Byte :=
  match x.inl.find? (fun e => e.1 == idx) with
  | some e => e.2
  | none => []

def bellOp (d : List Byte) : Nat := fld d 2 1
def bellCore (d : List Byte) : Nat := fld d 4 1
def bellPi (d : List Byte) : Half := BitVec.ofNat 16 (fld d 0 2)
def bellInline (d : List Byte) : Nat := if bellOp d = 1 then fld d 3 1 % 4 else 0
def bellStart (d : List Byte) : Half := BitVec.ofNat 16 (fld d 8 2)
def bellUnits (d : List Byte) : Nat := fld d 10 2

/-- Reserved bits and bytes of a doorbell that are not 0 (R65, R7). -/
def bellReserved (d : List Byte) : Bool :=
  !allZero (slice d 5 3) || !allZero (slice d 12 4) || decide (4 ≤ fld d 3 1) ||
  (bellOp d == 1 && !allZero (slice d 8 4)) || (bellOp d == 2 && fld d 3 1 != 0) ||
  !allZero (d.drop (16 + 16 * bellInline d))

/-- Steps 1 to 4 of R67, or the checks of R73, against a queue's P and C: the cause of a malformed doorbell. -/
def QueueSt.judge (x : QueueSt) (c : Half) (coreOk : Bool) (d : List Byte) : Option Byte :=
  let n := bellInline d
  let k := sub16 (bellPi d) x.p
  let o := sub16 (bellPi d) c
  let a := sub16 x.p (bellStart d)
  if bellOp d ≠ 1 ∧ bellOp d ≠ 2 then some 0x01
  else if !coreOk then some 0x02
  else if bellReserved d then some 0x03
  else if bellOp d = 2 then
    (if bellPi d ≠ x.p ∨ bellUnits d = 0 ∨ a < bellUnits d ∨ x.size < a then some 0x09 else none)
  else if x.size < o ∨ o < k then some 0x04
  else if k < n then some 0x05
  else none

/-- The C against which the twin judges: no further than its own P while a shadow doorbell is still to come. -/
def QueueSt.shadowC (x : QueueSt) : Half := if sub16 x.p x.c ≤ x.size then x.c else x.p

/-- A good POST: P becomes N (R67), the inline units are kept (R68), and a freeze ends with boundaries made afresh to N
(R73). -/
def QueueSt.post (x : QueueSt) (d : List Byte) (ut : Nat) : QueueSt :=
  let n := bellInline d
  let from' := if x.frozen then (match x.posts.getLast? with
    | some e => e.2.1
    | none => x.next) else x.p
  let posts := if from' = bellPi d then x.posts else x.posts ++ [(from', bellPi d, ut)]
  let inl := if n = 0 then x.inl else x.inl.filter (fun e => e.1 != x.p) ++ [(x.p, (d.drop 16).take (16 * n))]
  { x with p := bellPi d, posts := posts, inl := inl, frozen := false }

/-- The cached entries that stay and those that an INVALIDATE's range drops (R73). -/
def cutCache (c lo hi : Nat) (base : Half) : List Cached → List Cached × List Cached
  | [] => ([], [])
  | v :: r =>
    let rel := sub16 v.idx base
    if c + rel < hi ∧ lo < c + rel + v.bytes.length / 16 then ([], v :: r)
    else
      let (k, d) := cutCache c lo hi base r
      (v :: k, d)

/-- A good INVALIDATE: frozen, the entries in range and after are dropped, and with them the inline units and boundaries
from there on; its record waits for a place (R73). Where it drops no cached entry, the inline units and boundaries of
posted entries not yet cached are dropped from the range's start on (DESIGN CHOICE, log entry 91: R73 speaks of dropped
cached entries only). Offsets are taken from P - a where that lies before C. -/
def QueueSt.invalidate (x : QueueSt) (d : List Byte) : QueueSt :=
  let span := sub16 x.p x.c
  let a := sub16 x.p (bellStart d)
  let base := max span a
  let lo := base - a
  let rel (h : Half) : Nat := base - span + sub16 h x.c
  let (keep, drop) := cutCache (base - span) lo (lo + bellUnits d) x.c x.cache
  let first := match drop with
    | v :: _ => rel v.idx
    | [] => max lo (base - span)
  let inlKept := x.inl.filter fun e => decide (rel e.1 < first) &&
    (!drop.isEmpty || decide (rel e.1 + max 1 (fld e.2 1 1) ≤ lo))
  { x with
    frozen := true, cache := keep, inl := inlKept,
    posts := x.posts.filter fun e => decide (rel e.2.1 ≤ first),
    next := (match drop with
      | v :: _ => v.idx
      | [] => x.next),
    again := x.again + drop.length,
    invals := x.invals ++ [(x.c, (drop.map fun v => v.bytes.length / 16).sum)] }

/-- The twin hears of a C advance: entries would be fetched again from there (R83, 13 R345). -/
def QueueSt.shadowTo (y : QueueSt) (p : Half) : QueueSt :=
  let past (h : Half) : Bool := decide (sub16 h y.c ≤ sub16 p y.c)
  { y with c := p, next := p, posts := y.posts.filter (fun e => !past e.2.1),
           inl := y.inl.filter fun e => !past (e.1 + 1) }

/-- A doorbell write that is discarded and counted (R65). -/
def State.discardBell (s : State) (g : CoreId) (i : IsletNo) : State :=
  let k := ciKey g i
  (s.setWq { s.wq with discards := tset s.wq.discards k (tget s.wq.discards k 0 + 1) 0 }).count g 0x021 [(1, i.val)] 1

/-- The core that a doorbell's `CORE` names. -/
def bellNames (d : List Byte) : Option CoreId :=
  if bellCore d = 0 then some .a else if bellCore d = 1 then some .b else none

/-- The checked core of R65: the core named, when the receiving core runs its queues or the islet is protected. -/
def State.checkedCore (s : State) (g : CoreId) (i : IsletNo) (d : List Byte) : CoreId :=
  match bellNames d with
  | some n => if s.runs n = g || s.protects i then n else g
  | none => g

/-- A doorbell for a queue that the receiving core runs (R67, R73, R82). -/
def State.ownBell (s : State) (g c : CoreId) (i : IsletNo) (q : Nat) (d : List Byte) : State :=
  let s := (s.roundCheck c i).count g 0x020 [(1, i.val)] 1
  let x := s.queue c i q
  match x.judge x.c (bellNames d == some c) d with
  | some cause => (s.malformed c i q cause (bellPi d)).judged c i q true
  | none =>
    ((s.setQueue c i q (if bellOp d = 2 then x.invalidate d else x.post d (s.ut g))).judged c i q false)

/-- A shadow doorbell (R66): the shadow's P and inline units follow, and nothing is halted. -/
def State.shadowBell (s : State) (g c : CoreId) (i : IsletNo) (q : Nat) (d : List Byte) : State :=
  let y := s.shQueue c i q
  let s := s.count g 0x020 [(1, i.val)] 1
  match y.judge y.shadowC true d with
  | some _ => s.judgedShadow c i q true
  | none => (s.setShQueue c i q (if bellOp d = 2 then { y.invalidate d with invals := y.invals } else y.post d (s.ut g))).judgedShadow c i q false

/-- A write to doorbell space of an islet window of function `f`: BAR2 offset and bytes (R65). -/
def State.doorbell (s : State) (f : FnId) (off : Nat) (d : List Byte) : State :=
  let i := toIslet (off / 0x10000 + 1)
  let o := off % 0x10000
  let q := o / 64
  let g := f.core
  let x := s.islet i
  if !s.fnUp f || decide (0x800000 ≤ off ∨ 0x8000 ≤ o) then s
  else if x.st == .free then s.discardBell g i
  else if !x.boundVia f then s
  else if d.length ≠ 64 ∨ o % 64 ≠ 0 then s.discardBell g i
  else
    let c := s.checkedCore g i d
    let own := s.runs c == g
    let enabled := if own then (s.queue c i q).enable else (s.shQueue c i q).enable
    if x.queues c ≤ q ∨ x.lost c ∨ !enabled then s.discardBell g i
    else if own then s.ownBell g c i q d else s.shadowBell g c i q d

/-- A doorbell other than an INVALIDATE (R67). -/
def execDoorbellPost (f : FnId) (off : Nat) (data : List Byte) (s : State) : Host.Outcome State Fault Refusal :=
  .next (if bellOp data = 2 then s else s.doorbell f off data)

/-- An INVALIDATE doorbell (R73). -/
def execDoorbellInvalidate (f : FnId) (off : Nat) (data : List Byte) (s : State) : Host.Outcome State Fault Refusal :=
  .next (if bellOp data = 2 then s.doorbell f off data else s)

/-! ### Configuration (R59 to R61) -/

/-- Which word of a configuration pair a write names. -/
def cfgEnable (v : W64) : Bool := v.getLsbD 63

/-- A `QUEUE_CONFIG` write against R60: none where it is refused. -/
def State.queueConfigured (s : State) (c : CoreId) (i : IsletNo) (x : QueueSt) (v : W64) : Option QueueSt :=
  let w := v.toNat
  let n : QueueSt :=
    { x with log2 := BitVec.ofNat 4 (bits w 35 32), ring := BitVec.ofNat 8 (bits w 23 16), weight := BitVec.ofNat 8 (bits w 15 8), burst := BitVec.ofNat 5 (bits w 4 0) }
  let st := (s.islet i).st
  if cfgEnable v then
    if x.enable then
      (if n = x then some x else none)
    else
      let r := s.ring c i n.ring.toNat
      if st == .free || decide (n.log2.toNat < 4) || n.weight == 0 || n.burst == 0 || decide (16 < n.burst.toNat) ||
          !r.enable || decide ((s.islet i).rings c ≤ n.ring.toNat) then none
      else some { QueueSt.init with base := n.base, log2 := n.log2, ring := n.ring, weight := n.weight, burst := n.burst, enable := true, refused := n.refused, credit := n.weight.toNat }
  else if x.enable && st != .quiesced && st != .halted then none
  else some { n with enable := false }

/-- A `RING_CONFIG` write against R60: none where it is refused. Enabling sets both indices to 0; records made and held stay
and are written from there (R79). -/
def State.ringConfigured (s : State) (c : CoreId) (i : IsletNo) (r : Nat) (x : RingSt) (v : W64) : Option RingSt :=
  let w := v.toNat
  let y := s.islet i
  let n : RingSt := { x with log2 := BitVec.ofNat 4 (bits w 35 32), vector := BitVec.ofNat 16 (bits w 15 0) }
  let named := (List.range (y.queues c)).any fun q =>
    (s.queue c i q).enable && (s.queue c i q).ring.toNat == r
  if cfgEnable v then
    if x.enable then
      (if n = x then some x else none)
    else if y.st == .free || decide (n.log2.toNat < 4) || (n.vector != 0xFFFF && decide (y.vectors ≤ n.vector.toNat)) then none
    else some { n with enable := true, p := 0, c := 0 }
  else if x.enable && ((y.st != .quiesced && y.st != .halted) || named) then none
  else some { n with enable := false }

/-- The registers of a queue of the function's core that exists (R59). A protected islet's twin shadow follows every
accepted write (R61). -/
def State.putQueueCfg (s : State) (c : CoreId) (i : IsletNo) (q : Nat) (v : QueueSt) : State :=
  let s := s.setQueue c i q v
  if s.protects i then
    let y := s.shQueue c i q
    let y := if v.enable && !y.enable then QueueSt.init else y
    s.setShQueue c i q { y with base := v.base, enable := v.enable, log2 := v.log2, ring := v.ring, weight := v.weight, burst := v.burst }
  else s

def State.putRingCfg (s : State) (c : CoreId) (i : IsletNo) (r : Nat) (v : RingSt) : State :=
  let s := s.setRing c i r v
  let s := if s.protects i then
      let y := s.shRing c i r
      let y := if v.enable && !y.enable then RingSt.init else y
      s.setShRing c i r { y with base := v.base, enable := v.enable, log2 := v.log2, vector := v.vector }
    else s
  s.restall c i r

/-- The queue that number q names at a core's functions: the core's own queue q or, above those, one that the core runs
for its failed twin (02 R45, R50; R55, R59; 13 R345, R348; DESIGN CHOICE, log entry 90). None lies beyond the islet's
allocation, and none belongs to a `FREE` islet. -/
def State.localQueue (s : State) (g : CoreId) (i : IsletNo) (q : Nat) : Option (CoreId × Nat) :=
  let x := s.islet i
  if x.st = .free then none
  else if q < x.queues g then some (g, q)
  else if s.runs g.twin = g ∧ x.lost g.twin = false ∧ q - x.queues g < x.queues g.twin then some (g.twin, q - x.queues g)
  else none

/-- As `localQueue`, for rings. -/
def State.localRing (s : State) (g : CoreId) (i : IsletNo) (r : Nat) : Option (CoreId × Nat) :=
  let x := s.islet i
  if x.st = .free then none
  else if r < x.rings g then some (g, r)
  else if s.runs g.twin = g ∧ x.lost g.twin = false ∧ r - x.rings g < x.rings g.twin then some (g.twin, r - x.rings g)
  else none

/-- A write of `QUEUE_CONFIG` of queue q through a function of core `g` (R59, R60). For a `FREE` islet no queue exists, so
the write is ignored as one beyond the allocation (R59) and sets no `CONFIG_REFUSED` (R60; DESIGN CHOICE, log entry 92). -/
def State.writeQueueConfig (s : State) (g : CoreId) (i : IsletNo) (q : Nat) (v : W64) : State :=
  match s.localQueue g i q with
  | none => s
  | some (c, q) =>
    let x := s.queue c i q
    let x := { x with refused := rw1c x.refused (v.getLsbD 62) }
    match s.queueConfigured c i x v with
    | none => s.setQueue c i q { x with refused := true }
    | some n => s.putQueueCfg c i q n

def State.writeRingConfig (s : State) (g : CoreId) (i : IsletNo) (r : Nat) (v : W64) : State :=
  match s.localRing g i r with
  | none => s
  | some (c, r) =>
    let x := s.ring c i r
    let x := { x with refused := rw1c x.refused (v.getLsbD 62) }
    match s.ringConfigured c i r x v with
    | none => s.setRing c i r { x with refused := true }
    | some n => s.putRingCfg c i r n

/-- A write of `QUEUE_BASE` or `RING_BASE` (R59, R60). -/
def State.writeQueueBase (s : State) (g : CoreId) (i : IsletNo) (q : Nat) (v : W64) : State :=
  match s.localQueue g i q with
  | none => s
  | some (c, q) =>
    let x := s.queue c i q
    let b : W64 := (v >>> 8) <<< 8
    if b = x.base then s
    else if x.enable then s.setQueue c i q { x with refused := true }
    else s.putQueueCfg c i q { x with base := b }

def State.writeRingBase (s : State) (g : CoreId) (i : IsletNo) (r : Nat) (v : W64) : State :=
  match s.localRing g i r with
  | none => s
  | some (c, r) =>
    let x := s.ring c i r
    let b : W64 := (v >>> 8) <<< 8
    if b = x.base then s
    else if x.enable then s.setRing c i r { x with refused := true }
    else s.putRingCfg c i r { x with base := b }

def execQueueConfigWrite (f : FnId) (i : IsletNo) (q : Fin 512) (v : W64) (s : State) : Host.Outcome State Fault Refusal :=
  .next (if s.fnUp f then s.writeQueueConfig f.core i q.val v else s)

def execRingConfigWrite (f : FnId) (i : IsletNo) (r : Fin 256) (v : W64) (s : State) : Host.Outcome State Fault Refusal :=
  .next (if s.fnUp f then s.writeRingConfig f.core i r.val v else s)

/-! ### Consumer indices (R50, R78, R84) -/

/-- Whether the twin's shadow consumer index differs from the serving core's, and since when (R84). -/
def State.noteDiffer (s : State) (c : CoreId) (i : IsletNo) (r : Nat) : State :=
  let x := s.ring c i r
  if s.protects i && (s.shRing c i r).c != x.c then
    (if x.differSince.isSome then s else s.setRing c i r { x with differSince := some (s.ut (s.runs c)) })
  else if x.differSince.isNone then s else s.setRing c i r { x with differSince := none }

/-- The consumer index of a ring advances (R78); its places and its latch follow. -/
def State.advanceRing (s : State) (c : CoreId) (i : IsletNo) (r : Nat) (n : Half) : State :=
  let s := s.roundCheck c i
  ((s.setRing c i r { s.ring c i r with c := n }).noteDiffer c i r).restall c i r

/-- `RING_MANAGER_CONSUMER` (R50, R59): the twin's shadow index is copied from an accepted write. -/
def State.writeManagerConsumer (s : State) (g : CoreId) (i : IsletNo) (r : Nat) (v : W64) : State :=
  let y := s.islet i
  match s.localRing g i r with
  | none => s
  | some (c, r) =>
    let x := s.ring c i r
    let x := { x with errMw := rw1c x.errMw (v.getLsbD 16) }
    let s := s.setRing c i r x
    let n : Half := BitVec.ofNat 16 v.toNat
    let may := y.st == .quiescing || y.st == .halting || y.st == .halted || y.st == .reattach
    if n = x.c then s
    else if !may then s.setRing c i r { x with errMw := true }
    else
      match consumerMove x.p x.c n with
      | none => s.setRing c i r { x with errMw := true }
      | some n =>
        let s := if s.protects i then s.setShRing c i r { s.shRing c i r with c := n } else s
        s.advanceRing c i r n

def execRingManagerConsumerWrite (f : FnId) (i : IsletNo) (r : Fin 256) (v : W64) (s : State) :
    Host.Outcome State Fault Refusal :=
  .next (if s.fnUp f then s.writeManagerConsumer f.core i r.val v else s)

/-- `CQ_CONSUMER` (R78, R84): the ring of the core that bit 24 names, its shadow, or an error. `CONSUMER_ERROR` stands in
the register of the function's own core. -/
def State.writeConsumer (s : State) (f : FnId) (i : IsletNo) (r : Nat) (v : W64) : State :=
  let y := s.islet i
  let g := f.core
  let c : CoreId := if v.getLsbD 24 then .b else .a
  let n : Half := BitVec.ofNat 16 v.toNat
  if !y.boundVia f then s
  else
    let s := if (s.ring g i r).errIw && v.getLsbD 16 then s.setRing g i r { s.ring g i r with errIw := false } else s
    let err (s : State) : State := s.setRing g i r { s.ring g i r with errIw := true }
    if s.runs c = g then
      if y.rings c ≤ r then s
      else
        let x := s.ring c i r
        match consumerMove x.p x.c n with
        | none => err s
        | some n => if n = x.c then s else s.advanceRing c i r n
    else if s.protects i then
      if y.rings c ≤ r then s
      else
        let x := s.shRing c i r
        match consumerMove x.p x.c n with
        | none => err s
        | some n =>
          if n = x.c then s
          else
            let s := s.roundCheck c i
            ((s.setShRing c i r { x with c := n }).noteDiffer c i r).restall c i r
    else if y.rings g ≤ r then s
    else err s

def execCqConsumerWrite (f : FnId) (i : IsletNo) (r : Fin 256) (v : W64) (s : State) : Host.Outcome State Fault Refusal :=
  .next (if s.fnUp f then s.writeConsumer f i r.val v else s)

/-- The twin's shadow consumer index has differed for 1 ms: protection lapses, and places are counted from the serving
core's own index (R84). -/
def execShadowConsumerLapse (i : IsletNo) (c : CoreId) (r : Fin 256) (ut : Nat) (s : State) : Host.Outcome State Fault Refusal :=
  let s := s.arrive ut
  .next (match (s.ring c i r.val).differSince with
    | some t => if s.protects i && decide (t + ms ≤ s.ut (s.runs c)) then (s.roundCheck c i).lapse i else s
    | none => s)

/-! ### Fetching entries (R58, R67 steps 5 to 7, R72) -/

/-- `LENGTH` range of an entry type (R63). -/
def lengthRange (type : Nat) : Option (Nat × Nat) :=
  match type with
  | 0x01 => some (1, 1)
  | 0x10 => some (2, 2)
  | 0x11 => some (2, 64)
  | 0x12 => some (2, 2)
  | 0x13 => some (2, 64)
  | 0x14 => some (2, 2)
  | 0x20 => some (4, 4)
  | 0x21 => some (2, 2)
  | 0x30 => some (2, 64)
  | 0x31 => some (2, 2)
  | 0x40 => some (2, 2)
  | _ => none

/-- Step 6 of R67 on a header (R62, R63). -/
def headerCause (h : List Byte) : Option Byte :=
  match lengthRange (fld h 0 1) with
  | none => some 0x06
  | some (lo, hi) =>
    if fld h 1 1 < lo ∨ hi < fld h 1 1 then some 0x07
    else if 4 ≤ fld h 2 2 ∨ (fld h 0 1 = 1 ∧ fld h 8 8 ≠ 0) then some 0x03
    else none

/-- What a fetch gives: a cause, or the entry's bytes; none while bytes are missing. `inl`: its inline units; `left`: units
to the next producer index; `data`: what the host read of the other units returned. -/
def parseEntry (inl : List Byte) (left : Nat) (data : Option (List Byte)) : Option (Byte ⊕ List Byte) :=
  let all := inl ++ data.getD []
  let n := inl.length / 16
  let l := fld all 1 1
  if all.length < 16 then (if data.isNone then some (.inl 0x0A) else none)
  else if l < n then some (.inl 0x05)
  else
    match headerCause all with
    | some cause => some (.inl cause)
    | none =>
      if left < l then some (.inl 0x08)
      else if l ≤ n then some (.inr (inl.take (16 * l)))
      else if data.isNone then some (.inl 0x0A)
      else if all.length < 16 * l then none
      else some (.inr (all.take (16 * l)))

/-- The host address of an index's slot (R57). -/
def QueueSt.slotAddr (x : QueueSt) (idx : Half) : Nat := x.base.toNat + 16 * (idx.toNat % x.size)

/-- Where `n` units from an index lie in host memory: in two parts where they run past the last slot (R57, R58). -/
def QueueSt.unitParts (x : QueueSt) (idx : Half) (n : Nat) : List (Nat × Nat) :=
  let k := idx.toNat % x.size
  if n = 0 then []
  else if k + n ≤ x.size then [(x.slotAddr idx, 16 * n)]
  else [(x.slotAddr idx, 16 * (x.size - k)), (x.base.toNat, 16 * (k + n - x.size))]

/-- The reads that fetch the entry at `next`: its header where that is not inline, and then the units that its `LENGTH`
adds (R58; DESIGN CHOICE, log entry 93). None reaches past the producer index `left` units on. -/
def QueueSt.fetchParts (x : QueueSt) (inl : List Byte) (left : Nat) (data : Option (List Byte)) : List (Nat × Nat) :=
  let n := inl.length / 16
  let all := inl ++ data.getD []
  let l := fld all 1 1
  let rest := if 16 ≤ all.length ∧ (headerCause all).isNone ∧ l ≤ left then
      x.unitParts (x.next + BitVec.ofNat 16 (max 1 n)) (l - max 1 n) else []
  (if n = 0 then x.unitParts x.next 1 else []) ++ rest

/-- An entry lands in the cache. -/
def QueueSt.land (x : QueueSt) (b : List Byte) : QueueSt :=
  match x.posts with
  | [] => x
  | (_, new', ut) :: rest =>
    let nx := x.next + BitVec.ofNat 16 (b.length / 16)
    { x with
      cache := x.cache ++ [{ idx := x.next, bytes := b, ut := ut }],
      next := nx, inl := x.inl.filter (fun e => e.1 != x.next),
      posts := (if nx = new' then rest else x.posts), again := x.again - 1 }

/-- An entry's units have been fetched (R72): it enters the cache, or its malformation counts once it is the next to be
taken (R67). A read waits while Bus Master Enable is 0 (16 R395); without PASID Enable it is not made, and fails (02 R41). -/
def State.fetchDone (s : State) (c : CoreId) (i : IsletNo) (q : Nat) (data : Option (List Byte)) : State :=
  let x := s.queue c i q
  let f := s.islFn c i
  match x.posts with
  | [] => s
  | (_, new', _) :: _ =>
    let inl := x.inlAt x.next
    let data := if (s.fnSt f).pasidEn then data else none
    let whole := !inl.isEmpty && decide (fld inl 1 1 ≤ inl.length / 16)
    if (s.islet i).st == .free || !s.running c || !x.enable || x.frozen || decide (16 ≤ x.cache.length) ||
        (!whole && !s.canRequest f) then s
    else
      let left := sub16 new' x.next
      let reads (s : State) : State :=
        let s := if data.isNone && !whole then s.failCount f i else s
        if (s.fnSt f).pasidEn then
          (x.fetchParts inl left data).foldl (fun s e =>
            (((s.countDemand i e.2 0).sendReads f i e.1 e.2).count f.core 0x030 [(1, i.val), (7, f.port.num)] e.2)) s
        else s
      match parseEntry inl left data with
      | none => s
      | some (.inl cause) => if x.cache.isEmpty then (reads s).malformed c i q cause x.next else s
      | some (.inr b) =>
        if 64 < (x.cache.map fun v => v.bytes.length / 16).sum + b.length / 16 then s
        else
          let s := (reads s).roundCheck c i
          let x := s.queue c i q
          let s := if x.again = 0 then s else s.count f.core 0x026 [(1, i.val)] 1
          s.setQueue c i q (x.land b)

def execEntryFetchDone (c : CoreId) (i : IsletNo) (q : Fin 512) (data : Option (List Byte)) (s : State) :
    Host.Outcome State Fault Refusal :=
  .next (s.fetchDone c i q.val data)

/-! ### Taking entries (R69, R70, R72, R80) -/

/-- The body of a `PROGRAM_LOAD` (04 R121). -/
def programBody (b : List Byte) : Option Byte :=
  let len := fld b 24 4
  if !allZero (slice b 10 6) ∨ fld b 28 4 ≠ 0 then some reservedNz
  else if 3 < fld b 8 1 then some badBody
  else if fld b 9 1 = 1 then
    (if fld b 16 8 % 64 ≠ 0 ∨ len < 4 ∨ 2097216 < len ∨ len % 4 ≠ 0 then some badBody else none)
  else if fld b 9 1 = 2 then (if fld b 16 8 ≠ 0 ∨ len ≠ 4 then some badBody else none)
  else some badBody

/-- The body check of an entry, by its type (R81 `BAD_BODY`; log entry 12). -/
def State.bodyCause (s : State) (c : CoreId) (i : IsletNo) (q : Nat) (b : List Byte) : Option Byte :=
  let e : EntrySt := { EntrySt.init with core := c, islet := i, queue := toFin 511 q, bytes := b }
  match fld b 0 1 with
  | 0x10 => controlBody b
  | 0x11 => bulkBody b
  | 0x12 => interruptBody b
  | 0x13 => isochBody b (match s.named e with
    | some k => if (s.ep k).speed = 4 then 49152 else 3072
    | none => 49152)
  | 0x14 => endpointBody b
  | 0x20 => frameBody b (if s.attachedBy e (entryHead e) then some ((s.head (entryHead e)).timing.h, (s.head (entryHead e)).timing.v) else none)
  | 0x21 => headBody b
  | 0x30 => netTxBody b
  | 0x31 => netRxBody b
  | 0x40 => programBody b
  | _ => none

/-- The flow of an entry that a kind 2 item serves (04 R88, R106); none for the types with items of their own. -/
def intakeFlow (i : IsletNo) (q : Nat) (b : List Byte) : Option Nat :=
  let type := fld b 0 1
  if type = 0x01 then some (0x1000 + q)
  else if type = 0x40 then some (0x600 + (i.val - 1))
  else if 0x10 ≤ type ∧ type ≤ 0x14 then
    some (0x400000 + 4096 * (fld b 10 1 % 64) + 32 * (fld b 8 1 % 128) + 2 * (fld b 9 1 % 16) + b2n (bit (fld b 9 1) 7))
  else none

/-- The queue that the round visits next among those that can take, whether its visit goes on, and whether a new round
begins (R70). -/
def State.nextQueue (s : State) (c : CoreId) (i : IsletNo) : Option (Nat × Bool × Bool) :=
  let n := (s.islet i).queues c
  let (cur, k) := tget s.wq.visit (ciKey c i) (0, 0)
  let ready (q : Nat) : Bool := decide (0 < (s.queue c i q).credit) && s.canTake c i q
  if cur < n ∧ k < (s.queue c i cur).burst.toNat ∧ ready cur then some (cur, true, false)
  else
    match (List.range n).find? (fun q => decide (cur < q) && ready q) with
    | some q => some (q, false, false)
    | none => match (List.range n).find? ready with
      | some q => some (q, false, false)
      | none => ((List.range n).find? fun q => s.canTake c i q).map fun q => (q, false, true)

/-- The next handle: 32 bits, of an entry that is not open (04 R89). -/
def freeHandle : Nat → Nat → Tab EntrySt → Nat
  | 0, h, _ => h
  | n + 1, h, t => if tget t h EntrySt.init = EntrySt.init then h else freeHandle n ((h + 1) % 2 ^ 32) t

def State.freshHandle (s : State) : Nat := freeHandle s.wq.entries.length s.wq.nextHandle s.wq.entries

/-- The block of an entry's type hears that it was taken: a frame is numbered or refused, network frames and buffers join
their seat's (08 R225, R229; 10 R278, R279). -/
def State.blockTakes (s : State) (h : Nat) (e : EntrySt) : State :=
  match fld e.bytes 0 1 with
  | 0x20 => s.frameTaken h e
  | 0x30 => s.netTaken h e
  | 0x31 => s.bufferTaken h e
  | _ => s

/-- The entry is taken: C advances and the twin hears of it (R70, R83), a handle opens, the ring owes a record (R69). -/
def State.takeEntry (s : State) (c : CoreId) (i : IsletNo) (q : Nat) (v : Cached) (rest : List Cached) : State :=
  let x := s.queue c i q
  let g := s.runs c
  let p := v.idx + BitVec.ofNat 16 (v.bytes.length / 16)
  let s := s.setQueue c i q { x with cache := rest, c := p, credit := x.credit - 1 }
  let s := if s.protects i then s.setShQueue c i q ((s.shQueue c i q).shadowTo p) else s
  let r := x.ring.toNat
  let h := s.freshHandle
  let e : EntrySt :=
    { core := c, islet := i, queue := toFin 511 q, ring := x.ring, port := none, ended := none, idx := v.idx, bytes := v.bytes, takenUt := if fld v.bytes 0 1 = 0x20 then v.ut else s.ut g, handed := false, started := false, moved := 0 }
  let s := s.setWq { s.wq with entries := tput s.wq.entries h e, nextHandle := (h + 1) % 2 ^ 32 }
  let s := match intakeFlow i q v.bytes with
    | some fl => s.readyItem g { Item.init with kind := 2, flow := BitVec.ofNat 24 fl, islet := i, arg := BitVec.ofNat 64 h }
    | none => s
  ((s.count g 0x022 [(1, i.val)] 1).restall c i r).blockTakes h e

/-- The taking round reaches queue q (R70): its next entry is taken, or is malformed in its body (R82). -/
def State.take (s : State) (c : CoreId) (i : IsletNo) (q : Nat) : State :=
  match s.nextQueue c i, (s.queue c i q).cache with
  | some (n, goesOn, fresh), v :: rest =>
    if n ≠ q then s
    else
      match s.bodyCause c i q v.bytes with
      | some cause => s.malformed c i q cause v.idx
      | none =>
        let s := if fresh then s.newRound c i else s
        let k := if goesOn then (tget s.wq.visit (ciKey c i) (0, 0)).2 else 0
        let s := s.setWq { s.wq with visit := tset s.wq.visit (ciKey c i) (q, k + 1) (0, 0) }
        (s.takeEntry c i q v rest).roundCheck c i
  | _, _ => s

def execEntryTake (c : CoreId) (i : IsletNo) (q : Fin 512) (s : State) : Host.Outcome State Fault Refusal :=
  .next (s.take c i q.val)

/-- A `NOP` entry completes `OK` (R63). -/
def execNop (c : CoreId) (h : Nat) (s : State) : Host.Outcome State Fault Refusal :=
  .next (match s.entryOf c h 0x01 with
    | some _ => s.finish h 0x00 0 0
    | none => s)

/-! ### The ring writer and the twin's shadow (R77, R83) -/

def execRingWriterPass (c : CoreId) (i : IsletNo) (r : Fin 256) (s : State) : Host.Outcome State Fault Refusal :=
  .next (if s.running c then (s.roundCheck c i).ringPass c i r.val else s)

/-- The first record of a list that the twin has not received. -/
def firstUnsent : List Rec → Option Nat
  | [] => none
  | v :: r => if v.sent then (firstUnsent r).map (· + 1) else some 0

def markRec (l : List Rec) (n : Nat) : List Rec :=
  match l[n]? with
  | some v => l.set n { v with sent := true }
  | none => l

/-- The twin receives a C advance, the next record not yet sent, or a report of a written record (R83). -/
def State.shadowUpdate (s : State) (c : CoreId) (i : IsletNo) (u : ShadowUpdate) : State :=
  if !s.protects i || !s.running c then s
  else
    match u with
    | .consumer q => s.setShQueue c i q.val ((s.shQueue c i q.val).shadowTo (s.queue c i q.val).c)
    | .record r =>
      let x := s.ring c i r.val
      let all := x.held ++ x.made
      match firstUnsent all with
      | none => s
      | some n =>
        if 64 ≤ (s.shRing c i r.val).unreported.length then s
        else
          let b := match all[n]? with
            | some v => v.bytes
            | none => []
          let k := x.held.length
          let x := if n < k then { x with held := markRec x.held n } else { x with made := markRec x.made (n - k) }
          (s.setRing c i r.val x).sendShadow c i r.val (x.p + BitVec.ofNat 16 n) b
    | .written r =>
      let y := s.shRing c i r.val
      match y.unreported with
      | [] => s
      | (idx, _) :: rest =>
        if sub16 (s.ring c i r.val).p (idx + 1) < 0x8000 then
          s.setShRing c i r.val { y with unreported := rest, p := idx + 1 }
        else s

def execShadowRecordUpdate (c : CoreId) (i : IsletNo) (u : ShadowUpdate) (s : State) : Host.Outcome State Fault Refusal :=
  .next (s.shadowUpdate c i u)

/-- A completion record could not be written: the islet halts (02 R30, R49). -/
def execCompletionWriteFault (c : CoreId) (i : IsletNo) (r : Fin 256) (s : State) : Host.Outcome State Fault Refusal :=
  .next (if (s.ring c i r.val).enable && s.running c then (s.failCount (s.islFn c i) i).haltIslet i 0x03 else s)

/-! ### Host reads (02 R30) -/

/-- A host read of an entry has failed: the entry completes `HOST_ACCESS` (02 R30). -/
def State.readFailed (s : State) (why : ReadFor) : State :=
  match why with
  | .usbOut h => s.failOut h
  | .netTx h => (s.finish h 0x01 0 0).dropWork h
  | .gatherIndex c ch =>
    match (s.gather c ch.val).busy with
    | some hd => s.abortGather hd 0x01
    | none => s
  | .gatherLine c ch _ _ _ _ =>
    match (s.gather c ch.val).busy with
    | some hd => s.abortGather hd 0x01
    | none => s

/-- The data of a host read is used. -/
def State.readArrived (s : State) (why : ReadFor) (b : List Byte) : State :=
  match why with
  | .usbOut h => s.outArrived h b
  | .netTx h => s.netArrived h b
  | .gatherIndex c ch => s.indexArrived c ch b
  | .gatherLine c ch pos x y n => s.lineArrived c ch pos x y n b

/-- Data is used in the order in which a purpose's reads were issued. -/
def State.useReads : Nat → State → ReadFor → State
  | 0, s, _ => s
  | n + 1, s, why =>
    match s.host.reads.find? (fun r => r.2.why == why) with
    | some (id, r) =>
      match r.got with
      | some b => State.useReads n ((s.setHost { s.host with reads := terase s.host.reads id }).readArrived why b) why
      | none => s
    | none => s

/-- The host read of a number, and the request of a number when it has been issued. -/
def State.read? (s : State) (id : Nat) : Option HostRead := (s.host.reads.find? (fun r => r.1 == id)).map (·.2)
def State.req? (s : State) (id : Nat) : Option ReqSt := (s.host.reqs.find? (fun r => r.1 == id && r.2.issued.isSome)).map (·.2)

/-- A request ends, and another may take its place (02 R27). -/
def State.closeReq (s : State) (id : Nat) (f : FnId) : State :=
  (s.setHost { s.host with reqs := terase s.host.reqs id }).pump f

/-- A read's latency is counted when it ends (14 R369 class 6). -/
def State.readLatency (s : State) (r : HostRead) : State := s.latency r.fn.core r.islet 6 (s.ut r.fn.core - r.ut)

/-- A host read has failed: every other read of its purpose is dropped, since its entry ends (R30). -/
def State.failRead (s : State) (n : Nat) : State :=
  match s.read? n with
  | none => s
  | some r => if r.got.isSome then s else ((s.readLatency r).dropReads (·.why == r.why)).readFailed r.why

/-- Data of a request of read `n` comes; with the last of them the read's data is used. -/
def State.partArrived (s : State) (n off : Nat) (r : HostRead) (b : List Byte) : State :=
  let parts := tput r.parts off b
  let all := (parts.map (·.2)).flatten
  if all.length < r.len then s.setHost { s.host with reads := tput s.host.reads n { r with parts := parts } }
  else
    let s := s.readLatency r
    let s := s.setHost { s.host with reads := tput s.host.reads n { r with parts := parts, got := some all } }
    State.useReads s.host.reads.length s r.why

/-- A completion returns for a request: data of the length asked for, or Unsupported Request or Completer Abort (R30). A
request of a wait token ends with that token's own row. -/
def State.readDone (s : State) (id : Nat) (data : Option (List Byte)) : State :=
  match s.req? id with
  | none => s
  | some q =>
    match q.why with
    | .read n =>
      let s := if data.isNone then s.failCount q.fn q.islet else s
      match s.read? n, data with
      | none, _ => s.closeReq id q.fn
      | some _, none => (s.closeReq id q.fn).failRead n
      | some r, some b => (s.closeReq id q.fn).partArrived n q.off r (slice b 0 q.len)
    | _ => s

def execHostReadCompletion (id : Nat) (data : Option (List Byte)) (s : State) : Host.Outcome State Fault Refusal :=
  .next (s.readDone id data)

/-- A request has had no completion for its function's completion timeout (R27, R30). -/
def State.timedOut (s : State) (id : Nat) : State :=
  match s.req? id with
  | none => s
  | some q =>
    match q.issued with
    | some t => if t + (s.fnSt q.fn).timeout ≤ s.ut q.fn.core then s.readDone id none else s
    | none => s

def execCompletionTimeout (id : Nat) (s : State) : Host.Outcome State Fault Refusal :=
  .next (s.timedOut id)

end Sys2Proof.Machine
end

