-- ==== Sys2Proof/Machine/Hosts.lean ====
section
/-! DEFINITION. Managers, leases and semaphores, and what happens to a function: its link, its enables, its MSI-X
vectors (02 R26 to R36, R41, R42, R54, R408; 12 R335; 16 R395; 17 R401). -/

namespace Sys2Proof.Machine

/-! ### `MANAGER_CONTROL`, `MANAGER_LEASE` (R32 to R34) -/

/-- A write of `MANAGER_CONTROL` through a port (R33). A change of the unit-wide fields is stored (11 R295) and shows on
the resting mode. -/
def State.writeManagerControl (s : State) (p : PortId) (v : W32) : State :=
  let x := s.portSt p
  let x := { x with leaseMs := BitVec.ofNat 16 v.toNat, wiringRefused := rw1c x.wiringRefused (v.getLsbD 23) }
  let s := s.setPort p x
  let idx : BitVec 4 := BitVec.ofNat 4 (bits v.toNat 31 28)
  let w := v.getLsbD 24
  if idx = s.host.unitIndex ∧ w = s.host.wiring then s
  else if s.mayUnitWide p && (w == s.host.wiring || !s.anyIslet) then
    ((s.setHost { s.host with unitIndex := idx, wiring := w }).storeUpdate (fun k => { k with unitIndex := idx, wiring := w })).reMode
  else s.setPort p { x with wiringRefused := true }

def execManagerControlWrite (f : FnId) (v : W32) (s : State) : Host.Outcome State Fault Refusal :=
  .next (if s.fnUp f then s.writeManagerControl f.port v else s)

/-- The lease period in ns (`LEASE_MS`). -/
def PortSt.leaseNs (x : PortSt) : Nat := clampNat 100 10000 x.leaseMs.toNat * ms

/-- A new lease period begins (R32). -/
def State.renewLease (s : State) (p : PortId) : State :=
  (s.setPort p { s.portSt p with leaseEnd := some (s.now + (s.portSt p).leaseNs) }).reMode

def execManagerLeaseRenew (f : FnId) (s : State) : Host.Outcome State Fault Refusal :=
  .next (if s.fnUp f then s.renewLease f.port else s)

/-- A semaphore that the port holds is free and marked broken (R34). -/
def freeHeld (p : PortId) (x : SemSt) : SemSt := if x.holder = some p then { holder := none, broken := true } else x

/-- The referee releases every semaphore that a port holds (R34). -/
def State.releaseSems (s : State) (p : PortId) : State :=
  s.setHost { s.host with sems := tmap (freeHeld p) (fun _ => SemSt.init) s.host.sems }

/-- The lease of a port has run out (R34). -/
def State.expireLease (s : State) (p : PortId) : State :=
  match (s.portSt p).leaseEnd with
  | some t =>
    if t ≤ s.now then ((s.setPort p { s.portSt p with leaseEnd := none }).releaseSems p).reMode else s
  | none => s

def execLeaseExpiry (p : PortId) (ut : Nat) (s : State) : Host.Outcome State Fault Refusal :=
  .next ((s.arrive ut).expireLease p)

/-! ### Semaphores (R35, R36) -/

/-- The word that a read of `SEM_n` returns. -/
def semWord (acquired broken lost : Bool) (h : Option PortId) : Nat :=
  at_ (b2n acquired) 31 + at_ (b2n broken) 30 + at_ (b2n lost) 29 +
    at_ (match h with
      | none => 0
      | some .h0 => 1
      | some .h1 => 2) 24

/-- A read of `SEM_n` by a port: the word and the state after it. `tie`: the other port's request for the same semaphore
comes in the same referee cycle (R35). -/
def State.readSem (s : State) (p : PortId) (n : Nat) (tie : Bool) : Nat × State :=
  if s.flt.refereeLost then (semWord false false true none, s)
  else
    let x := s.sem n
    match x.holder with
    | some q =>
      if q = p then (semWord true x.broken false (some p), s.setSem n { x with broken := false })
      else (semWord false false false (some q), s)
    | none =>
      let win := if tie then s.host.tieNext else p
      let s := if tie then s.setHost { s.host with tieNext := win.other } else s
      if win = p then (semWord true x.broken false (some p), s.setSem n { holder := some p, broken := false })
      else (semWord false false false (some win), s.setSem n { x with holder := some win })

def execSemAcquireRead (f : FnId) (n : Fin 64) (tie : Bool) (s : State) : Host.Outcome State Fault Refusal :=
  .next (if s.fnUp f then
      let (w, s) := s.readSem f.port n.val tie
      s.sendHost (.completion f (leBytes 4 w))
    else if s.fencedReads f then s.sendHost (.completion f (List.replicate 4 0xFF))
    else s)

/-- A write of 1 to `RELEASE` (R35). -/
def State.releaseSem (s : State) (p : PortId) (n : Nat) : State :=
  if !s.flt.refereeLost && (s.sem n).holder == some p then s.setSem n SemSt.init else s

def execSemRelease (f : FnId) (n : Fin 64) (s : State) : Host.Outcome State Fault Refusal :=
  .next (if s.fnUp f then s.releaseSem f.port n.val else s)

/-! ### Enables and vectors (R41, R408; 16 R395) -/

/-- Commands of a function that wait for Bus Master Enable issue their read (R407). -/
def State.wakeCommands (s : State) (f : FnId) : State :=
  [CmdSet.islet, .unitProgram, .dockKey, .unitCmd].foldl (fun s k =>
    bothPorts.foldl (fun s p =>
      let x := s.cmdSt p k
      if x.phase = .waitBme ∧ x.fn = f then s.setCmdSt p k { x with phase := .waitRead } else s) s) s

/-- Bus Master Enable is set (R395, R408). -/
def State.bmeOn (s : State) (f : FnId) : State :=
  (((s.setFn f { s.fnSt f with bme := true }).wakeCommands f).pump f).releaseMsix f

def execBusMasterEnableSet (f : FnId) (s : State) : Host.Outcome State Fault Refusal :=
  .next (s.bmeOn f)

def execBusMasterEnableCleared (f : FnId) (s : State) : Host.Outcome State Fault Refusal :=
  .next (s.setFn f { s.fnSt f with bme := false })

def execPasidEnableCleared (f : FnId) (s : State) : Host.Outcome State Fault Refusal :=
  .next (s.setFn f { s.fnSt f with pasidEn := false })

def execPasidEnableSet (f : FnId) (s : State) : Host.Outcome State Fault Refusal :=
  .next ((s.setFn f { s.fnSt f with pasidEn := true }).releaseMsix f)

/-- MSI-X Enable is set, or a vector is unmasked: a held message is sent once (R408). -/
def execMsixVectorUnmasked (f : FnId) (enable : Bool) (v : Fin 2048) (s : State) : Host.Outcome State Fault Refusal :=
  let x := s.fnSt f
  .next ((s.setFn f (if enable then { x with msixEn := true }
    else { x with unmasked := tset x.unmasked v.val true false })).releaseMsix f)

/-- The host link leaves L0 for L1: HP retention is no longer blocked (11 R306). -/
def execAspmL1Entry (f : FnId) (s : State) : Host.Outcome State Fault Refusal :=
  .next (if (s.fnSt f).link = .up then
      (s.setFn f { s.fnSt f with aspmL1 := true }).settleDomain f.core (if f.port = .h0 then 24 else 25)
    else s)

/-! ### Host trunks (09 R263) -/

/-- The trunk of a host port. -/
def hostTrunk (p : PortId) : Fin 3 :=
  match p with
  | .h0 => 0
  | .h1 => 1

/-- The corresponding member of the other port's trunk. -/
def otherMember (o : Nat) : Nat := if o < 76 then o + 12 else o - 12

/-- A frame is queued at an output, or has begun to leave it. -/
def FabPort.holds (v : FabPort) (key : Nat) : Bool := v.queues.any (fun q => q.2.contains key) || v.sending.any (fun e => e.1 == key)

/-- Keys rise in the order in which frames were queued. -/
def insertKey (key : Nat) : List Nat → List Nat
  | [] => [key]
  | a :: r => if key < a then key :: a :: r else a :: insertKey key r

/-- A stored frame moves from one output to another: it leaves its trunk's order as a skip, and its charge, its place in the
queue and its number are those of the new output (R256, R259, R263). -/
def State.moveFrame (s : State) (c : CoreId) (key o o' : Nat) : State :=
  let s := s.skipInto c o key
  let f := tget (s.fabCore c).frames key FabFrame.none_
  let s := s.uncharge c f o
  let v := s.fabPort c o
  let s := s.setFabPort c o { v with
    queues := tmap (·.filter (· != key)) (fun _ => []) v.queues, sending := v.sending.filter fun e => e.1 != key }
  let w := s.fabPort c o'
  let w := { w with cells := w.cells + f.cells, queues := tset w.queues f.cls.val (insertKey key (tget w.queues f.cls.val [])) [] }
  let s := s.setFabPort c o' (match f.allowIn with
    | .outMin => { w with minUsed := tset w.minUsed f.cls.val (tget w.minUsed f.cls.val 0 + f.cells) 0 }
    | .isletMin => w
    | .pool => { w with poolCells := w.poolCells + f.cells })
  let at' (d : Nat) : Nat := if d = o then o' else d
  let k := s.fabCore c
  match trunkOf o' with
  | some t =>
    let (n, k) := k.nextSeq (intoKey f.input t f.cls.val)
    s.setFabCore c { k with frames := tput k.frames key { f with
      dests := f.dests.map at', unsent := f.unsent.map at', trunkSeq := tput (terase f.trunkSeq o) o' n } }
  | none => s.setFabCore c { k with frames := tput k.frames key { f with dests := f.dests.map at', unsent := f.unsent.map at' } }

/-- The frames of one (input, class) that are queued at a trunk take the numbers they hold in the order of their keys, so
that moved frames go ahead of later ones (R256, R263). -/
def State.renumber (s : State) (c : CoreId) (t : Fin 3) (ky : Nat) : State :=
  let k := s.fabCore c
  let out (e : Nat × FabFrame) : Option Nat := (trunkPorts t).find? fun o =>
    e.2.dests.contains o && (tget (s.fabPort c o).queues e.2.cls.val []).contains e.1
  let mine := k.frames.filter fun e => intoKey e.2.input t e.2.cls.val == ky && (out e).isSome
  let seqOf (e : Nat × FabFrame) : Half := tget e.2.trunkSeq ((out e).getD 0) 0
  let ns := mine.foldl (fun l e => insertSeq (k.reseqAt ky).next (seqOf e) l) []
  (mine.zip ns).foldl (fun s p =>
    let k := s.fabCore c
    s.setFabCore c { k with frames := tput k.frames p.1.1 { p.1.2 with trunkSeq := tput p.1.2.trunkSeq ((out p.1).getD 0) p.2 } }) s

/-- Frames queued at a host trunk for paired-bound islets go to the same core's trunk on the other port in their queued
order, ahead of later ones (R263). -/
def State.movePaired (s : State) (c : CoreId) (p : PortId) : State :=
  let go := (s.fabCore c).frames.filter fun e =>
    let a := toIslet e.2.account
    (s.islet a).st != .free && (s.islet a).paired && e.2.account == a.val
  let s := go.foldl (fun s e => (trunkPorts (hostTrunk p)).foldl (fun s o =>
    if (s.fabPort c o).holds e.1 then s.moveFrame c e.1 o (otherMember o) else s) s) s
  let t := hostTrunk p.other
  ((go.map fun e => intoKey e.2.input t e.2.cls.val).eraseDups).foldl (fun s ky => s.renumber c t ky) s

/-! ### A function's link (R54, R335, R408) -/

/-- Some function of a core that binds the islet is up. -/
def State.reaches (s : State) (i : IsletNo) (g : CoreId) : Bool :=
  (coreFns g).any fun f => (s.islet i).boundVia f && s.fnUp f

/-- The islet has queues or rings that a core runs. -/
def State.sitsOn (s : State) (i : IsletNo) (g : CoreId) : Bool :=
  bothCores.any fun c => s.runs c == g && decide (0 < (s.islet i).queues c + (s.islet i).rings c)

/-- An islet after function `f` is lost: its traffic moves to the other port, or it halts `HOST_PATH_LOST` (R54). -/
def State.lostPath (s : State) (f : FnId) (i : IsletNo) : State :=
  let x := s.islet i
  let g := f.core
  if x.st = .free then s
  else if !s.reaches i g then (if s.sitsOn i g then s.haltIslet i 0x02 else s)
  else if x.paired && x.fnFor g == f then s.setIslet i (x.setViaOther g (f.port == x.home))
  else s

/-- Entry to `ORPHANED` halts every islet (R335). -/
def State.orphan (s : State) : State :=
  if s.mode.mode = .orphaned then allIslets.foldl (fun s i => s.haltIslet i 0x02) s else s

/-- The resting mode is taken (R316). `ORPHANED` halts the islets; leaving it, or UNSUPERVISED, brings attached heads back
(R335). -/
def State.restMode (s : State) : State :=
  let was := s.mode.mode
  let s := s.enterMode s.resting
  if was ≠ .orphaned ∧ s.mode.mode = .orphaned then s.orphan
  else if (was = .orphaned ∨ was = .unsupervised) ∧ s.mode.mode ≠ .orphaned then (List.finRange 128).foldl (fun s o => s.leaveScreen o) s
  else s

/-- The resting mode is evaluated after a function or a core came or went (R316). -/
def State.reModeFn (s : State) : State := if s.mode.mode.isResting then s.restMode else s

/-- The source of a core's function on a port: its link, its D3hot state or a hot reset (05 R146). -/
def State.fnEdge (s : State) (f : FnId) : State := s.edge f.core (288 + f.port.num)

/-- Function `f` stops serving: link down, D3hot or hot reset (R54). -/
def State.loseFn (s : State) (f : FnId) (st : FnLink) : State :=
  if (s.fnSt f).link = .down then s
  else if (s.fnSt f).link ≠ .up then (s.setFn f { s.fnSt f with link := st }).fnEdge f
  else
    let s := (s.setFn f { s.fnSt f with link := st, aspmL1 := false }).fnEdge f
    let s := (trunkPorts (hostTrunk f.port)).foldl (fun s o => s.setPortState f.core o .down) s
    let s := if s.fnUp { f with port := f.port.other } then s.movePaired f.core f.port else s
    let s := allIslets.foldl (fun s i => s.lostPath f i) s
    (s.settleDomain f.core (if f.port = .h0 then 24 else 25)).reModeFn

def linkAfter (w : LinkLoss) : FnLink :=
  match w with
  | .linkDown => .down
  | .d3hot => .d3hot
  | .hotReset => .hotReset

def execHostLinkDown (f : FnId) (why : LinkLoss) (s : State) : Host.Outcome State Fault Refusal :=
  .next (s.loseFn f (linkAfter why))

/-- The configuration of a function as its host has left it (R27). -/
def FnSt.configured (x : FnSt) (en : PcieEnables) (k : PcieControl) (l : PcieLink) : FnSt :=
  { x with link := .up, bme := en.bme, pasidEn := en.pasidEn, msixEn := en.msixEn, maxPay := 128 * 2 ^ k.payload.val,
           maxRead := 128 * 2 ^ k.readReq.val, timeout := k.timeoutMs * ms, ecrc := k.ecrc, gen := l.gen.val + 1,
           width := 8 / 2 ^ l.width.val, aspmL1 := false }

/-- A paired-bound islet that no function reached uses the one that is back (R54). -/
def State.pathBack (s : State) (f : FnId) (i : IsletNo) : State :=
  let x := s.islet i
  if x.boundVia f && x.paired && !s.fnUp (x.fnFor f.core) then s.setIslet i (x.setViaOther f.core (f.port != x.home)) else s

/-- Function `f` is up in D0 with its configuration (R27, R54, R408, 16 R395); not before step 9 of a start (12 R321). -/
def State.fnComes (s : State) (f : FnId) (en : PcieEnables) (k : PcieControl) (l : PcieLink) : State :=
  if s.mode.mode = .unpowered ∨ (s.coreSt f.core).heldReset ∨ decide (s.startStep.getD 9 < 9) then s
  else
    let s := allIslets.foldl (fun s i => s.pathBack f i) s
    let s := if (s.fnSt f).link = .up then s else s.fnEdge f
    let s := s.setFn f ((s.fnSt f).configured en k l)
    let s := (trunkPorts (hostTrunk f.port)).foldl (fun s o => s.setPortState f.core o .up) s
    let s := if en.bme then (s.wakeCommands f).pump f else s
    ((s.releaseMsix f).settleDomain f.core (if f.port = .h0 then 24 else 25)).reModeFn

def execHostLinkUp (f : FnId) (en : PcieEnables) (ctl : PcieControl) (link : PcieLink) (s : State) :
    Host.Outcome State Fault Refusal :=
  .next (s.fnComes f en ctl link)

/-- Requests of a paired-bound islet move back to its home port; an entry whose data has left by the other keeps it
(01 R20; R42). -/
def State.pairedReturn (s : State) (i : IsletNo) (c : CoreId) : State :=
  let x := s.islet i
  if x.st != .free && x.viaOther c && s.canRequest { port := x.home, core := c } then s.setIslet i (x.setViaOther c false)
  else s

def execPairedTrafficReturn (i : IsletNo) (c : CoreId) (s : State) : Host.Outcome State Fault Refusal :=
  .next (s.pairedReturn i c)

/-- A function's enables are 0, as after a reset (17 R401). -/
def State.clearEnables (s : State) (f : FnId) : State := s.setFn f { s.fnSt f with bme := false, pasidEn := false, msixEn := false }

/-- PERST# resets both functions of a port (17 R401): each is lost as by a hot reset, its enables 0. -/
def State.resetPort (s : State) (p : PortId) : State :=
  let s := (s.loseFn ⟨p, .a⟩ .hotReset).loseFn ⟨p, .b⟩ .hotReset
  (s.clearEnables ⟨p, .a⟩).clearEnables ⟨p, .b⟩

def execPerstAsserted (p : PortId) (s : State) : Host.Outcome State Fault Refusal :=
  .next (s.resetPort p)

end Sys2Proof.Machine
end

