-- ==== Sys2Proof/Machine/Islets.lean ====
section
/-! DEFINITION. Command register sets, islets and their commands (02 R37 to R52, R407). -/

namespace Sys2Proof.Machine

/-! ### The command registers (R47, R51, R407) -/

/-- `GO` is written: the command and its address are latched, and it takes its place in the order of arrival (R51, R407).
A write while `BUSY` is 1 has no effect. -/
def State.goCmd (s : State) (f : FnId) (k : CmdSet) (op arg : Byte) (force : Bool) : State :=
  let x := s.cmdSt f.port k
  if x.busy then s
  else
    s.setCmdSt f.port k { x with
      busy := true, op := op, arg := arg, force := force, fn := f, latched := x.addr, goUt := s.now,
      turn := (s.cmdSt f.port.other k).turn + 1, phase := .waitTurn }

/-- A command completes: status, detail, and vector 0 in the function that wrote `GO`. -/
def State.endCmd (s : State) (p : PortId) (k : CmdSet) (status : Byte) (detail : W32) : State :=
  let x := s.cmdSt p k
  (s.setCmdSt p k { x with busy := false, status := status, detail := detail, phase := .idle }).msix x.fn 0

/-- A command reads host memory: it waits while Bus Master Enable is 0 (R407). -/
def State.needRead (s : State) (p : PortId) (k : CmdSet) : State :=
  let x := s.cmdSt p k
  s.setCmdSt p k { x with phase := if (s.fnSt x.fn).bme then .waitRead else .waitBme }

/-- A command that is under way (R51). -/
def CmdSt.underWay (x : CmdSt) : Bool := x.busy && x.phase != .waitTurn

/-- Every command in progress completes `RETRY` when the charge token moves (R51), but for those named. -/
def State.retryCmds (s : State) (keep : CmdSt → Bool) : State :=
  [CmdSet.islet, .unitProgram, .dockKey, .unitCmd].foldl (fun s k =>
    bothPorts.foldl (fun s p =>
      if (s.cmdSt p k).busy && !(k == .unitCmd && keep (s.cmdSt p k)) then s.endCmd p k 0x12 0 else s) s) s

/-! ### The descriptor (R37) -/

def dIslet (b : List Byte) : Nat := fld b 0 1
def dProt (b : List Byte) : Bool := bit (fld b 1 1) 0
def dBcast (b : List Byte) : Bool := bit (fld b 1 1) 1
def dGrant (b : List Byte) : Bool := bit (fld b 1 1) 2
def dPaired (b : List Byte) : Bool := bit (fld b 1 1) 3
def dHome (b : List Byte) : PortId := if fld b 2 1 = 0 then .h0 else .h1
def dPasid (b : List Byte) : Nat := fld b 4 4
def dSeats (b : List Byte) : W64 := BitVec.ofNat 64 (fld b 8 8)

/-- A descriptor is malformed: ranges, reserved fields, combinations (R37). -/
def descriptorBad (b : List Byte) (islet : Nat) (paired : Bool) (from' : PortId) : Bool :=
  let qa := fld b 16 2
  let qb := fld b 18 2
  let ra := fld b 20 2
  let rb := fld b 22 2
  decide (b.length ≠ 64 ∨ dIslet b ≠ islet ∨ 16 ≤ fld b 1 1 ∨ 1 < fld b 2 1 ∨ fld b 3 1 ≠ 0 ∨ 2 ^ 20 ≤ dPasid b ∨
    512 < qa ∨ 512 < qb ∨ qa + qb = 0 ∨ 256 < ra ∨ 256 < rb ∨ (0 < qa ∧ ra = 0) ∨ (0 < qb ∧ rb = 0) ∨
    2032 < fld b 24 2 ∨ fld b 26 2 = 0 ∨ 1024 < fld b 26 2 ∨ 1000000 < fld b 28 4 ∨ 16384 < fld b 32 4 ∨
    16384 < fld b 36 4 ∨ (fld b 40 8 ≠ 0 ∧ dBcast b = false)) ||
  !allZero (slice b 48 16) || (dPaired b && !paired) || (!paired && dHome b != from')

/-! ### Pools (R38) -/

def sumIslets (s : State) (f : IsletSt → Nat) : Nat := (s.isl.map fun e => if e.1 = 0 ∨ e.2.st = .free then 0 else f e.2).sum

/-- An islet's charge of queues on core `g`, lost ones aside. -/
def State.queueCharge (s : State) (x : IsletSt) (g : CoreId) : Nat :=
  (bothCores.map fun c =>
    if s.runs c = g then (if x.lost c then 0 else x.queues c) else if x.prot then x.queues c else 0).sum

def State.ringCharge (s : State) (x : IsletSt) (g : CoreId) : Nat :=
  (bothCores.map fun c =>
    if s.runs c = g then (if x.lost c then 0 else x.rings c) else if x.prot then x.rings c else 0).sum

/-- Every core's pool covers the charges of the islets and one more. -/
def State.queuesFit (s : State) (x : IsletSt) : Bool :=
  bothCores.all fun g => decide (sumIslets s (fun y => s.queueCharge y g) + s.queueCharge x g ≤ 4096)

def State.ringsFit (s : State) (x : IsletSt) : Bool :=
  bothCores.all fun g => decide (sumIslets s (fun y => s.ringCharge y g) + s.ringCharge x g ≤ 512)

/-- Two islets are bound through a function in common. -/
def IsletSt.shares (x y : IsletSt) : Bool := x.paired || y.paired || x.home == y.home

/-- A block of vectors from `base` is free in every function that the islet is bound through. -/
def State.vectorsFree (s : State) (x : IsletSt) (base : Nat) : Bool :=
  decide (base + x.vectors ≤ 2048) && s.isl.all fun e =>
    let y := e.2
    y.st == .free || !x.shares y || y.vectors == 0 || decide (base + x.vectors ≤ y.vbase ∨ y.vbase + y.vectors ≤ base)

/-- The block of vectors of a new islet: the spec leaves its base open, and the model takes the lowest base from 16 at which
the block is free, and base 0 for no vectors (DESIGN CHOICE, log entry 94); none where no base has room (R38). -/
def State.vectorBlock (s : State) (x : IsletSt) : Option Nat :=
  if x.vectors = 0 then some 0
  else ((List.range 2048).filter fun n => decide (16 ≤ n)).find? fun n => s.vectorsFree x n

/-! ### Seats come and go (R40, R47) -/

/-- A seat leaves its islet: heads detached, endpoints closed, its devices reported disconnected, its desk network entries
ended (R47, 06 R156, R159; 08 R231). -/
def State.loseSeat (s : State) (x : Seat) : State :=
  let i := s.owner x
  let s := (seatHeads x).foldl (fun s o => ((s.dropConfig o 0x07).detachHead o 0x07)) s
  let s := (s.epsOf x fun _ => true).foldl (fun s k => s.closeEp k 0x07 true none) s
  let s := s.endNet x 0x07 true
  let s := allRootPorts.foldl (fun s p => if (s.rootPort x p).connected then s.portChange x p chConnect else s) s
  let s := s.setIslet i { s.islet i with seats := (s.islet i).seats &&& ~~~(1#64 <<< x.val) }
  let s := bothCores.foldl (fun s c => (s.setDue c x []).settleGroups c) s
  (s.dropDisowned x).settleSeat x

/-- An islet gains a free seat (06 R173). -/
def State.gainSeat (s : State) (i : IsletNo) (x : Seat) : State :=
  let s := s.setIslet i { s.islet i with seats := (s.islet i).seats ||| (1#64 <<< x.val) }
  (s.freshPorts x).settleSeat x

/-- A seat of a mask is owned by another islet (R40). -/
def State.seatTaken (s : State) (i : IsletNo) (m : W64) : Bool :=
  (maskSeats m).any fun x => (s.owner x).val ≠ 0 && s.owner x != i

/-! ### CREATE (R37 to R41, R47) -/

/-- The islet that a descriptor describes, before its charges. -/
def isletOf (b : List Byte) : IsletSt :=
  { IsletSt.init with
    st := .active, prot := dProt b, bcast := dBcast b, grant := dGrant b, paired := dPaired b, home := dHome b, owner := dHome b,
    pasid := BitVec.ofNat 20 (dPasid b), seats := 0, dqa := fld b 16 2, dqb := fld b 18 2, dra := fld b 20 2, drb := fld b 22 2, qa := fld b 16 2, qb := fld b 18 2, ra := fld b 20 2, rb := fld b 22 2,
    vectors := fld b 24 2, weight := fld b 26 2, budget := if fld b 28 4 = 0 then 20000 else fld b 28 4,
    dispMib := fld b 32 4, fabKib := fld b 36 4, bmask := BitVec.ofNat 64 (fld b 40 8) }

/-- The functions that an islet is bound through, on cores that serve. -/
def State.bindFns (s : State) (x : IsletSt) : List FnId := allFns.filter fun f => x.boundVia f && s.serves f.core

/-- With the referee and the whole causeway lost, each core commands only what lies wholly on it (13 R351). -/
def State.apart (s : State) : Bool := s.flt.refereeLost && s.flt.lanes == 0

def State.allOn (s : State) (x : IsletSt) (seats : W64) (g : CoreId) : Bool :=
  x.queues g.twin == 0 && x.rings g.twin == 0 && (maskSeats seats).all fun y => s.servingCore y == g

/-- The checks of CREATE that follow the read, in the order of R52: the first failure. -/
def State.createCheck (s : State) (p : PortId) (b : List Byte) (islet : Nat) (g : CoreId) : Option Byte :=
  let x := isletOf b
  if s.apart && !s.allOn x (dSeats b) g then some 0x05
  else if (s.islet (toIslet islet)).st != .free then some 0x06
  else if descriptorBad b islet s.host.wiring p then some 0x08
  else if x.prot && !s.twinUp then some 0x09
  else if (s.bindFns x).any (fun f => !(s.fnSt f).pasidEn) then some 0x0A
  else if s.isl.any (fun e => e.1 ≠ 0 && e.2.st != .free && e.2.pasid == x.pasid && x.shares e.2) then some 0x0B
  else if s.seatTaken 0 (dSeats b) then some 0x0C
  else if !s.queuesFit x then some 0x0D
  else if !s.ringsFit x then some 0x0E
  else if (s.vectorBlock x).isNone then some 0x0F
  else if 16384 < sumIslets s (·.dispMib) + x.dispMib then some 0x10
  else if 16384 < sumIslets s (·.fabKib) + x.fabKib ∨
      bothCores.any (fun c => decide (524288 < s.outMinSum c + s.isletMinSum + x.minCells)) then some 0x11
  else none

/-- The islet is charged, bound and `ACTIVE`, its queues empty, its ISW 0, its bounds at their defaults (R38, R47; 04
R94, 10 R288). -/
def State.createIslet (s : State) (i : IsletNo) (p : PortId) (b : List Byte) : State :=
  let x := isletOf b
  let s := s.poolAlarms (s.setIslet i { x with owner := p, vbase := (s.vectorBlock x).getD 0 })
  let s := bothCores.foldl (fun s c => s.setIsw c i []) (s.setIsletTraf i IsletTraf.init)
  let s := (maskSeats (dSeats b)).foldl (fun s y => s.gainSeat i y) s
  s.reMode

/-! ### Draining (R48) -/

/-- No item of the islet is in a transfer engine or in the dispatcher. -/
def State.noItems (s : State) (i : IsletNo) : Bool :=
  bothCores.all fun c =>
    (s.dispatch c).ready.all (fun (x : Item) => x.islet != i) && (s.heldRuns c).all fun r => r.item.islet != i

/-- No record of the islet's seats is outstanding at any dock. -/
def State.noRecords (s : State) (i : IsletNo) : Bool :=
  (maskSeats (s.islet i).seats).all fun x =>
    (s.usbSeat x).scripts.all fun (k : SentScript) => k.recs.all (·.2) && k.ports.all (·.2)

/-- No completion is held on chip for any of its rings. -/
def State.noHeld (s : State) (i : IsletNo) : Bool :=
  bothCores.all fun c => (List.range ((s.islet i).rings c)).all fun r =>
    (s.ring c i r).held.isEmpty && (s.ring c i r).made.isEmpty

/-- No gather channel or DSC pipe holds its work. -/
def State.noDisplay (s : State) (i : IsletNo) : Bool :=
  let of (h : HeadNo) : Bool := (s.head h).islet == i
  bothCores.all fun c => (List.range 16).all fun n =>
    (match (s.gather c n).busy with
      | some h => !of h
      | none => true) &&
    (match s.pipe c n with
      | some (h, _) => !of h
      | none => true)

def State.drained (s : State) (i : IsletNo) : Bool := s.noItems i && s.noRecords i && s.noHeld i && s.noDisplay i

/-- A drained islet leaves `QUIESCING` or `HALTING` (R46, R48, R49). -/
def execIsletDrained (i : IsletNo) (s : State) : Host.Outcome State Fault Refusal :=
  let x := s.islet i
  .next (if !s.drained i then s
    else match x.st with
      | .quiescing => s.setIslet i { x with st := .quiesced }
      | .halting => s.setIslet i { x with st := .halted }
      | _ => s)

/-! ### RESET, DESTROY (R47; 04 R94) -/

/-- The open entries of an islet are gone. -/
def State.dropEntries (s : State) (i : IsletNo) : State :=
  (s.openOf i).foldl (fun s h => (s.dropWork h).setEntry h EntrySt.init) s

/-- The entries that are still open complete `ABORTED` (R64, R75; DEDUCED, log entry 49). -/
def State.abortEntries (s : State) (i : IsletNo) : State :=
  (s.openOf i).foldl (fun s h =>
    match s.entry? h with
    | some e => if e.ended.isSome then s else (s.dropWork h).finish h 0x05 e.moved 0
    | none => s) s

def QueueSt.fresh (x : QueueSt) : QueueSt :=
  { QueueSt.init with base := x.base, enable := x.enable, refused := x.refused, log2 := x.log2, ring := x.ring,
                      weight := x.weight, burst := x.burst, credit := x.weight.toNat }

/-- A ring after RESET: indices 0; no record is dropped (R79). -/
def RingSt.fresh (x : RingSt) : RingSt :=
  { x with p := 0, c := 0, unreported := [], differSince := none }

/-- RESET after a failover: the queues and rings that were lost are made again on the surviving core, disabled, numbered
above the islet's own there (R45; DEDUCED, log entry 90). -/
def IsletSt.remade (x : IsletSt) : IsletSt :=
  let x := if x.lostA then { x with qb := x.qb + x.qa, rb := x.rb + x.ra, qa := 0, ra := 0, lostA := false } else x
  if x.lostB then { x with qa := x.qa + x.qb, ra := x.ra + x.rb, qb := 0, rb := 0, lostB := false } else x

/-- Every queue, ring and shadow of an islet through a change. -/
def State.mapQueues (s : State) (i : IsletNo) (fq : QueueSt → QueueSt) (fr : RingSt → RingSt) : State :=
  bothCores.foldl (fun s c =>
    let s := (List.range ((s.islet i).queues c)).foldl (fun s q =>
      (s.setQueue c i q (fq (s.queue c i q))).setShQueue c i q (fq (s.shQueue c i q))) s
    let s := (List.range ((s.islet i).rings c)).foldl (fun s r =>
      (s.setRing c i r (fr (s.ring c i r))).setShRing c i r (fr (s.shRing c i r))) s
    s.setWq { s.wq with visit := tset s.wq.visit (ciKey c i) (0, 0) (0, 0) }) s

/-- The lost queues and rings of an islet hold nothing (R45). -/
def State.clearLost (s : State) (i : IsletNo) : State :=
  bothCores.foldl (fun s c =>
    if (s.islet i).lost c then
      let s := (List.range ((s.islet i).queues c)).foldl (fun s q => (s.setQueue c i q QueueSt.init).setShQueue c i q QueueSt.init) s
      (List.range ((s.islet i).rings c)).foldl (fun s r => (s.setRing c i r RingSt.init).setShRing c i r RingSt.init) s
    else s) s

/-- The program area of an islet's ISW from the data blocks of its images; the stock area is 0 (04 R94). -/
def State.iswFresh (s : State) (c : CoreId) (i : IsletNo) : Memory :=
  ((s.store c).filter fun m => m.live && m.id.isIslet i).foldl (fun mem m => writeBytes mem (0x80000 + m.dataOff) m.data) []

/-- RESET: open entries end, indices 0, caches empty, halt cleared, lost queues made again, `QUIESCED` (R45, R47, R64). With one core fenced a
protected islet shows `PROTECTION_LAPSED` again at once (13 R345). -/
def State.resetIslet (s : State) (i : IsletNo) : State :=
  let s := s.abortEntries i
  let s := ((s.usb.eps.filter fun e => e.2.islet == i).map (·.1)).foldl (fun s k => s.closeEp k 0x05 true none) s
  let s := (s.mapQueues i QueueSt.fresh RingSt.fresh).clearLost i
  let s := s.setIslet i (s.islet i).remade
  let s := (bothCores.foldl (fun s c => s.setIsw c i (s.iswFresh c i)) s).dropStores fun _ j => j == i
  let s := (maskSeats (s.islet i).seats).foldl (fun s x => bothCores.foldl (fun s c => s.setDue c x []) s) s
  let x := s.islet i
  State.restallAll (i := i) <| s.setIslet i { x with
    st := .quiesced, halt := 0, lapsed := x.prot && !(s.serves .a && s.serves .b), haltInfoA := 0, haltInfoB := 0 }

/-- Frames of an islet queued at outputs that are no seats are discarded and counted (09 R263). -/
def State.freeTrunks (s : State) (i : IsletNo) : State :=
  bothCores.foldl (fun s c => ((s.fabCore c).frames.filter fun e => e.2.account == i.val).foldl (fun s e =>
    (e.2.dests.filter fun o => decide (64 ≤ o) && (tget (s.fabPort c o).queues e.2.cls.val []).contains e.1).foldl
      (fun s o => s.discardOut c o e.1) s) s) s

/-- Every image of an islet is unloaded on both cores (04 R94). -/
def State.unloadIslet (s : State) (i : IsletNo) : State :=
  bothCores.foldl (fun s c => (s.setStore c ((s.store c).map fun m => if m.id.isIslet i then { m with live := false } else m)).freeImages c) s

/-- DESTROY: seats freed, charges returned, ISW 0, `FREE` (R47; 04 R94; 07 R211). -/
def State.destroyIslet (s : State) (i : IsletNo) : State :=
  let seats := maskSeats (s.islet i).seats
  let s := seats.foldl (fun s x => s.loseSeat x) s
  let s := (s.dropEntries i).mapQueues i (fun _ => QueueSt.init) (fun _ => RingSt.init)
  let s := (s.unloadIslet i).freeTrunks i
  let s := s.setUsb { s.usb with eps := s.usb.eps.filter fun e => e.2.islet != i }
  let s := bothCores.foldl (fun s c => s.setIsw c i []) s
  let s := s.dropStores fun _ j => j == i
  let s := s.poolAlarms (((s.poolIslet i).setIslet i IsletSt.init).setIsletTraf i IsletTraf.init)
  let s := seats.foldl (fun s x => s.dropDisowned x) s
  s.reMode

/-- RESUME: the islet is active, and its frames whose data has come go on (R47, R48). -/
def State.resumeIslet (s : State) (i : IsletNo) : State :=
  let s := s.setIslet i { s.islet i with st := .active }
  (maskSeats (s.islet i).seats).foldl (fun s x => netPump 256 s x) s

/-! ### SET_SEATS (R47) -/

/-- A field of the descriptor matches the islet or is 0. -/
def agrees (d v : Nat) : Bool := d == 0 || d == v

/-- The descriptor of SET_SEATS is malformed or differs from the islet (R37, R47). -/
def seatsDescriptorBad (b : List Byte) (n : Nat) (x : IsletSt) : Bool :=
  let flags := b2n x.prot + at_ (b2n x.bcast) 1 + at_ (b2n x.grant) 2 + at_ (b2n x.paired) 3
  !(b.length == 64 && agrees (fld b 0 1) n && agrees (fld b 1 1) flags && agrees (fld b 2 1) x.home.num && fld b 3 1 == 0 &&
    agrees (fld b 4 4) x.pasid.toNat && agrees (fld b 16 2) x.dqa && agrees (fld b 18 2) x.dqb && agrees (fld b 20 2) x.dra &&
    agrees (fld b 22 2) x.drb && agrees (fld b 24 2) x.vectors && agrees (fld b 26 2) x.weight && agrees (fld b 28 4) x.budget &&
    agrees (fld b 32 4) x.dispMib && agrees (fld b 36 4) x.fabKib && agrees (fld b 40 8) x.bmask.toNat && allZero (slice b 48 16))

def State.setSeats (s : State) (i : IsletNo) (m : W64) : State :=
  let old := (s.islet i).seats
  let s := (maskSeats (old &&& ~~~m)).foldl (fun s x => s.loseSeat x) s
  (maskSeats (m &&& ~~~old)).foldl (fun s x => s.gainSeat i x) s

/-! ### Carrying out a command (R47, R51, R52; 12 R330) -/

/-- The mode forbids the command (R51, 12 R330, R334). -/
def State.modeForbids (s : State) (op : Byte) : Bool :=
  match s.mode.mode with
  | .unsupervised => true
  | .safeStop => true
  | .service => op == 0x01
  | .rolling => op == 0x01 || op == 0x05 || op == 0x06
  | _ => false

/-- The checks of an islet command before any read, in the order of R52. -/
def State.isletCheck (s : State) (p : PortId) (x : CmdSt) : Option Byte :=
  let n := x.arg.toNat
  let i := toIslet n
  let y := s.islet i
  if n = 0 ∨ 128 < n then some 0x01
  else if x.op.toNat = 0 ∨ 6 < x.op.toNat then some 0x02
  else if s.modeForbids x.op then some 0x03
  else if !s.host.wiring && y.st != .free && y.owner != p then some 0x04
  else if s.apart && y.st != .free && !s.allOn y y.seats x.fn.core then some 0x05
  else
    match x.op.toNat with
    | 1 => if y.st = .free then none else some 0x06
    | 2 => if y.st = .active then none else some 0x06
    | 3 => if y.st = .quiesced then none else some 0x06
    | 4 => if (y.st = .quiesced ∨ y.st = .halted ∨ y.st = .reattach) ∧ s.drained i then none else some 0x07
    | 5 => if (y.st = .quiesced ∨ y.st = .halted) ∧ s.drained i then none else some 0x07
    | _ => if y.st = .quiesced ∧ s.drained i then none else some 0x07

/-- The lost queues and rings fit again in the surviving core's pools (R52). -/
def State.resetFits (s : State) (i : IsletNo) : Option Byte :=
  let x := { s.islet i with lostA := false, lostB := false }
  let without := s.setIslet i IsletSt.init
  if !without.queuesFit x then some 0x0D else if !without.ringsFit x then some 0x0E else none

/-- An islet command is carried out as far as it goes without a read. -/
def State.isletRun (s : State) (p : PortId) : State :=
  let x := s.cmdSt p .islet
  let i := toIslet x.arg.toNat
  let y := s.islet i
  match s.isletCheck p x with
  | some st => s.endCmd p .islet st 0
  | none =>
    match x.op.toNat with
    | 1 => s.needRead p .islet
    | 2 => (s.setIslet i { y with st := .quiescing }).endCmd p .islet 0x00 0
    | 3 => (((s.roundCheck .a i).roundCheck .b i).resumeIslet i).endCmd p .islet 0x00 0
    | 4 => match s.resetFits i with
      | some st => s.endCmd p .islet st 0
      | none => (s.resetIslet i).endCmd p .islet 0x00 0
    | 5 => (s.destroyIslet i).endCmd p .islet 0x00 0
    | _ => s.needRead p .islet

/-- A read of `len` bytes of a command's record or image from offset `off` on, which carries no PASID and counts for the
islet that it is made for (R29; 10 `HOST_DEMAND`; log entry 93). -/
def State.commandRead (s : State) (p : PortId) (k : CmdSet) (off len : Nat) : State :=
  let x := s.cmdSt p k
  let i : IsletNo := if k = .islet then toIslet x.arg.toNat else 0
  ((s.countDemand i len 0).sendReads x.fn 0 (x.latched.toNat + off) len).count x.fn.core 0x030 [(1, i.val), (7, x.fn.port.num)] len

/-- The descriptor has come, or its read failed (R52 `BAD_DESCRIPTOR`). -/
def State.isletRead (s : State) (p : PortId) (data : Option (List Byte)) : State :=
  let x := s.cmdSt p .islet
  let i := toIslet x.arg.toNat
  match s.isletCheck p x, data with
  | some st, _ => s.endCmd p .islet st 0
  | none, none => s.endCmd p .islet 0x08 0
  | none, some b =>
    if x.op = 1 then
      match s.createCheck p b x.arg.toNat x.fn.core with
      | some st => s.endCmd p .islet st 0
      | none => (s.createIslet i p b).endCmd p .islet 0x00 0
    else if seatsDescriptorBad b x.arg.toNat (s.islet i) then s.endCmd p .islet 0x08 0
    else if s.seatTaken i (dSeats b) then s.endCmd p .islet 0x0C 0
    else (s.setSeats i (dSeats b)).endCmd p .islet 0x00 0

end Sys2Proof.Machine
end

