-- ==== Sys2Proof/Machine/Verifier.lean ====
section
/-! DEFINITION. Yelcy images: the words of R103 and R104 as the verifier reads them, the rules of R119, the bound of
R120, the program store, loading and unloading (04 R118 to R127). -/

namespace Sys2Proof.Machine

/-! ### Code words (R103, R104) -/

/-- A code word as the verifier sees it. Offsets are in words from the next instruction. -/
inductive VIns where
  | bad
  | plain
  | unitOnly
  | eret
  | branch (off : Int)
  | jump (off : Int)
  | call (off : Int)
  | ret
  | loop (bound len : Nat) (always : Bool)
  | lbrk
  | lidx
  | mem0 (size : Nat) (imm : Int)
  | script
  | tick
  | done
  deriving DecidableEq, Repr

def vWhen (b : Bool) (x : VIns) : VIns := if b then x else .bad

/-- Rule 0x01: the instruction of a code word, or `bad` (R103, R104). -/
def vDecode (w : W32) : VIns :=
  let n := w.toNat
  let f5 (l : Nat) : Nat := bits n (l + 4) l
  let s16 : Int := (BitVec.ofNat 16 n).toInt
  let s26 : Int := (BitVec.ofNat 26 n).toInt
  let mem (size : Nat) : VIns := if f5 16 = 0 then .mem0 size s16 else .plain
  match bits n 31 26 with
  | 0x00 => vWhen (decide (bits n 10 0 ≤ 0x00D)) .plain
  | 0x01 => .plain
  | 0x02 => .plain
  | 0x03 => .plain
  | 0x04 => .plain
  | 0x05 => .plain
  | 0x06 => .plain
  | 0x07 => vWhen (f5 16 == 0) .plain
  | 0x08 => vWhen (bits n 15 6 == 0) .plain
  | 0x09 => vWhen (bits n 15 6 == 0) .plain
  | 0x0A => vWhen (bits n 15 6 == 0) .plain
  | 0x0C => vWhen (bits n 3 0 == 0 && decide (bits n 15 10 + bits n 9 4 + 1 ≤ 64)) .plain
  | 0x0D => vWhen (bits n 3 0 == 0 && decide (bits n 15 10 + bits n 9 4 + 1 ≤ 64)) .plain
  | 0x10 => mem 1
  | 0x11 => mem 2
  | 0x12 => mem 4
  | 0x13 => mem 8
  | 0x14 => mem 1
  | 0x15 => mem 2
  | 0x16 => mem 4
  | 0x17 => mem 8
  | 0x18 => vWhen (decide (bits n 10 0 ≤ 1)) .plain
  | 0x19 => vWhen (bits n 25 0 == 0) .plain
  | 0x1C => vWhen (bits n 7 0 == 0) .plain
  | 0x1D => vWhen (bits n 7 0 == 0) .plain
  | 0x1E => vWhen (bits n 20 11 == 0 && bits n 7 0 == 0) .plain
  | 0x20 => .branch s16
  | 0x21 => .branch s16
  | 0x22 => .branch s16
  | 0x23 => .branch s16
  | 0x24 => .branch s16
  | 0x25 => .branch s16
  | 0x26 => .jump s26
  | 0x27 => .call s26
  | 0x28 => vWhen (bits n 25 0 == 0) .ret
  | 0x2C => .loop (bits n 11 0) (bits n 20 12) (f5 21 == 0)
  | 0x2D => vWhen (bits n 25 0 == 0) .lbrk
  | 0x2E => vWhen (bits n 20 0 == 0) .lidx
  | 0x30 => vWhen (bits n 10 0 == 0) .script
  | 0x31 => vWhen (bits n 15 0 == 0) .script
  | 0x32 => vWhen (bits n 20 0 == 0) .tick
  | 0x33 => vWhen (f5 21 == 0 && bits n 10 0 == 0) .plain
  | 0x34 => vWhen (bits n 10 0 == 0) .plain
  | 0x35 => vWhen (f5 21 == 0 && bits n 15 0 == 0) .plain
  | 0x36 => vWhen (bits n 10 0 == 0) .plain
  | 0x37 => vWhen (bits n 25 0 == 0) .done
  | 0x38 => vWhen (f5 16 == 0) .plain
  | 0x39 => vWhen (bits n 20 0 == 0) .plain
  | 0x3C => vWhen (f5 16 == 0) .unitOnly
  | 0x3D => vWhen (f5 21 == 0) .unitOnly
  | 0x3E => vWhen (bits n 25 0 == 0) .eret
  | 0x3F => vWhen (bits n 25 0 == 0) .unitOnly
  | _ => .bad

/-! ### Rules of single words and of transfers (R119 0x01 to 0x06, 0x08) -/

/-- A broken rule: instruction index and rule code. -/
abbrev Broken := Nat × Nat

/-- The target of a transfer at index i, in the image or not. -/
def vTarget (i : Nat) (off : Int) : Int := (i : Int) + 1 + off

/-- The loops of an image: index, first index after the body. -/
def vLoops (ws : List VIns) : List (Nat × Nat) :=
  ws.zipIdx.filterMap fun e =>
    match e.1 with
    | .loop _ len _ => some (e.2, e.2 + 1 + len)
    | _ => none

/-- A word is in the body of a loop. -/
def inBody (l : Nat × Nat) (t : Int) : Bool := decide ((l.1 : Int) < t ∧ t < (l.2 : Int))

/-- Rule 0x05 for a transfer that is no call: it enters no body, and from inside a body goes no further than its last
word. -/
def transferBad (loops : List (Nat × Nat)) (i : Nat) (t : Int) (isCall : Bool) : Bool :=
  loops.any fun l => (inBody l t && !inBody l i) || (!isCall && inBody l i && decide ((l.2 : Int) ≤ t))

/-- The rules that one word breaks, the path rules aside. -/
def wordRules (unit : Bool) (len : Nat) (loops : List (Nat × Nat)) (entries : List Nat) (i : Nat) (v : VIns) : List Nat :=
  let outside (t : Int) : Bool := decide (t < 0 ∨ (len : Int) ≤ t)
  match v with
  | .bad => [0x01]
  | .unitOnly => if unit then [] else [0x02]
  | .eret => if unit then [] else [0x02]
  | .branch off =>
    (if outside (vTarget i off) || decide (off < 0) then [0x03] else []) ++
      (if transferBad loops i (vTarget i off) false then [0x05] else [])
  | .jump off =>
    (if outside (vTarget i off) || decide (off < 0) then [0x03] else []) ++
      (if transferBad loops i (vTarget i off) false then [0x05] else [])
  | .call off =>
    (if outside (vTarget i off) then [0x03] else []) ++
      (if transferBad loops i (vTarget i off) true then [0x05] else []) ++
      (if entries.any (fun e => decide ((e : Int) = vTarget i off)) then [0x06] else [])
  | .loop bound body _ =>
    if bound = 0 ∨ body = 0 ∨ len < i + 1 + body ∨ loops.any (fun l => inBody l i && decide (l.2 < i + 1 + body)) then [0x04] else []
  | .mem0 size imm => if imm < 0 ∨ 0x10000 < imm + size then [0x08] else []
  | _ => []

/-! ### Paths (R119 0x04, 0x06, 0x07, 0x09, 0x0B, 0x0C) -/

/-- The words of a region, a body of a loop taken as skipped (also that of a loop whose count register is g0, which always
runs: DESIGN CHOICE, log entry 113), that paths from its start reach; its end index counts as
reached where a path runs off it. `fall`: the word before falls through; `tgt`: targets ahead. -/
def walk (i : Nat) : List VIns → Bool → List Nat → List Nat
  | [], fall, tgt => if fall || tgt.contains i then [i] else []
  | v :: r, fall, tgt =>
    if fall || tgt.contains i then
      i :: match v with
        | .branch off => walk (i + 1) r true ((i + 1 + off.toNat) :: tgt)
        | .jump off => walk (i + 1) r false ((i + 1 + off.toNat) :: tgt)
        | .loop _ len _ => walk (i + 1) r false ((i + 1 + len) :: tgt)
        | .ret => walk (i + 1) r false tgt
        | .lbrk => walk (i + 1) r false tgt
        | .done => walk (i + 1) r false tgt
        | .eret => walk (i + 1) r false tgt
        | .bad => walk (i + 1) r false tgt
        | _ => walk (i + 1) r true tgt
    else walk (i + 1) r false tgt

/-- The words reached from the start of the region at index `base`, each with the number of loops that its function has
open there (at most six are followed). -/
def reached : Nat → Nat → Nat → List VIns → List (Nat × Nat)
  | 0, _, _, _ => []
  | fuel + 1, base, d, ws =>
    let here := walk base ws true []
    here.map (fun i => (i, d)) ++
      (here.map fun i =>
        match ws[i - base]? with
        | some (.loop _ len _) =>
          (reached fuel (i + 1) (d + 1) ((ws.drop (i + 1 - base)).take len)).filter fun e => decide (e.1 < i + 1 + len)
        | _ => []).flatten

/-- What a start (an entry point or a function) brings with it: the words it reaches, the kinds of the entry points that
reach it, the most and the fewest loops open around it, the calls above it, and whether it is an entry point. -/
structure VStart where
  at_ : Nat
  visits : List (Nat × Nat)
  kinds : List Nat
  most : Nat
  fewest : Nat
  depth : Nat
  entry : Bool
  deriving DecidableEq, Repr

/-- The calls of a start: index, loops open in it there, target. -/
def VStart.calls (x : VStart) (ws : List VIns) : List (Nat × Nat × Nat) :=
  x.visits.filterMap fun (e : Nat × Nat) =>
    match (ws[e.1]? : Option VIns) with
    | some (VIns.call off) => if 0 ≤ vTarget e.1 off then some (e.1, e.2, (vTarget e.1 off).toNat) else none
    | _ => none

def visitsOf (ws : List VIns) (f : Nat) : List (Nat × Nat) := reached 6 f 0 (ws.drop f)

/-- One call carries what its caller has to its target; a target not met before is a new start. -/
def joinStart (ws : List VIns) (f : Nat) (y : VStart) : List VStart → List VStart
  | [] => if f < ws.length then [{ y with at_ := f, visits := visitsOf ws f, entry := false }] else []
  | x :: r =>
    if x.at_ = f then
      { x with kinds := x.kinds ++ y.kinds.filter (fun k => !x.kinds.contains k), most := min 9 (max x.most y.most),
               fewest := min x.fewest y.fewest, depth := min 9 (max x.depth y.depth) } :: r
    else x :: joinStart ws f y r

/-- One round over all calls of all starts. -/
def spread (ws : List VIns) (l : List VStart) : List VStart :=
  l.foldl (fun acc x => (x.calls ws).foldl (fun acc c =>
    joinStart ws c.2.2 { x with most := x.most + c.2.1, fewest := x.fewest + c.2.1, depth := x.depth + 1 } acc) acc) l

def rounds {α : Type} (f : α → α) : Nat → α → α
  | 0, x => x
  | n + 1, x => rounds f n (f x)

/-- The starts of an image that entries reach: kind and index of each. -/
def vStarts (ws : List VIns) (entries : List (Nat × Nat)) : List VStart :=
  let init := entries.foldl (fun (acc : List VStart) (e : Nat × Nat) =>
    match acc.find? (fun (x : VStart) => x.at_ == e.2) with
    | some _ => acc.map fun (x : VStart) => if x.at_ = e.2 then { x with kinds := x.kinds ++ [e.1] } else x
    | none => acc ++ [{ at_ := e.2, visits := visitsOf ws e.2, kinds := [e.1], most := 0, fewest := 0, depth := 0, entry := true }]) []
  let calls := (ws.filter fun v => match v with
    | .call _ => true
    | _ => false).length
  rounds (spread ws) (10 + calls) init

/-- The calls that end a chain of more than eight, or one without end, from an entry point or from any function, called or not
(0x06). -/
def callRules (ws : List VIns) (entries : List (Nat × Nat)) : List Broken :=
  let fns := (ws.zipIdx.filterMap fun e => match e.1 with
    | .call off => if 0 ≤ vTarget e.2 off ∧ vTarget e.2 off < (ws.length : Int) then some (0, (vTarget e.2 off).toNat) else none
    | _ => none).eraseDups
  ((vStarts ws (entries ++ fns)).map fun x => if 8 < x.depth + 1 then (x.calls ws).map fun e => (e.1, 0x06) else []).flatten

/-- The other rules that a start's paths break. -/
def pathRules (ws : List VIns) (x : VStart) : List Broken :=
  (x.visits.map fun e =>
    let (i, d) := e
    match ws[i]? with
    | none => [(ws.length - 1, 0x09)]
    | some v =>
      match v with
      | .loop _ _ _ => if 4 < x.most + d + 1 then [(i, 0x04)] else []
      | .ret => if x.entry || decide (0 < d) then [(i, 0x07)] else []
      | .eret => [(i, 0x09)]
      | .script => if x.kinds.any (· != 0) then [(i, 0x0B)] else []
      | .tick => if x.kinds.any (· != 0) then [(i, 0x0B)] else []
      | .lbrk => if x.fewest + d = 0 then [(i, 0x0C)] else []
      | .lidx => if x.fewest + d = 0 then [(i, 0x0C)] else []
      | _ => []).flatten

/-- The kinds that an image of a level may serve (R88). -/
def kindAllowed (unit : Bool) (k : Nat) : Bool := k == 0 || k == 1 || k == 6 || (unit && k == 5)

def brokenMin : List Broken → Option Broken
  | [] => none
  | x :: r => match brokenMin r with
    | none => some x
    | some y => if x.1 < y.1 ∨ (x.1 = y.1 ∧ x.2 ≤ y.2) then some x else some y

/-- The first rule broken, in instruction order and then in rule order (R119); index none: the entry table breaks 0x0A
at no instruction of the image. -/
def verify (unit : Bool) (words : List W32) (entry : List W32) : Option (Option Nat × Nat) :=
  let ws := words.map vDecode
  let all := (entry.zipIdx.filter fun e => e.1 != 0xFFFFFFFF).map fun e => (e.2, e.1.toNat)
  let inside := all.filter fun e => decide (e.2 < ws.length)
  let loops := vLoops ws
  let single := (ws.zipIdx.map fun e =>
    (wordRules unit ws.length loops (inside.map (·.2)) e.2 e.1).map fun r => (e.2, r)).flatten
  let kinds := (inside.filter fun e => !kindAllowed unit e.1).map fun e => (e.2, 0x0A)
  let paths := ((vStarts ws inside).map (pathRules ws)).flatten
  match brokenMin (single ++ kinds ++ paths ++ callRules ws inside) with
  | some b => some (some b.1, b.2)
  | none => if all.isEmpty || inside.length != all.length then some (none, 0x0A) else none

/-! ### The bound of R120 -/

/-- Instruction counts of the paths through a stretch of code: to its end without a `tick`, from its last `tick` to its
end, the same to a loop exit by `lbrk`, from its start to its first `tick` or `done`, and the most between two ticks. -/
structure Span where
  thru : Option Nat
  tail : Option Nat
  bthru : Option Nat
  btail : Option Nat
  head : Option Nat
  inner : Nat
  deriving DecidableEq, Repr

def Span.none_ : Span := { thru := none, tail := none, bthru := none, btail := none, head := none, inner := 0 }
def Span.unit : Span := { Span.none_ with thru := some 0 }

def omax (a b : Option Nat) : Option Nat :=
  match a, b with
  | some x, some y => some (max x y)
  | some x, none => some x
  | none, y => y

def oadd (a b : Option Nat) : Option Nat :=
  match a, b with
  | some x, some y => some (x + y)
  | _, _ => none

def Span.join (a b : Span) : Span :=
  { thru := omax a.thru b.thru, tail := omax a.tail b.tail, bthru := omax a.bthru b.bthru, btail := omax a.btail b.btail,
    head := omax a.head b.head, inner := max a.inner b.inner }

/-- `b` follows `a`. -/
def Span.seq (a b : Span) : Span :=
  { thru := oadd a.thru b.thru, tail := omax b.tail (oadd a.tail b.thru),
    bthru := omax a.bthru (oadd a.thru b.bthru), btail := omax a.btail (omax b.btail (oadd a.tail b.bthru)),
    head := omax a.head (oadd a.thru b.head), inner := max a.inner (max b.inner ((oadd a.tail b.head).getD 0)) }

def Span.instr : Span := { Span.none_ with thru := some 1 }
def Span.tick : Span := { Span.none_ with head := some 1, tail := some 0 }
def Span.done : Span := { Span.none_ with head := some 1 }

/-- The passes of a loop: up to its bound, or its bound exactly when its count register is g0; its `lbrk` ends it. -/
def Span.passes (body : Span) (always : Bool) : Nat → Span → Span → Span
  | 0, soFar, acc => acc.join soFar
  | n + 1, soFar, acc =>
    let s := soFar.seq body
    let out : Span := { Span.none_ with thru := s.bthru, tail := s.btail, head := s.head, inner := s.inner }
    let full : Span := { s with bthru := none, btail := none }
    Span.passes body always n full ((acc.join out).join (if always then Span.none_ else soFar))

/-- Spans from each word of a region to its end, first to last. -/
def spans (fn : Nat → Span) : Nat → Nat → List VIns → Span → List Span
  | 0, _, _, _ => []
  | fuel + 1, base, ws, off' =>
    (ws.zipIdx.foldr (fun e (acc : List Span) =>
      let (v, k) := e
      let i := base + k
      let next := acc.headD off'
      let at_ (n : Nat) : Span := (acc[n]?).getD Span.none_
      let x := match v with
        | .branch off => Span.instr.seq (next.join (at_ off.toNat))
        | .jump off => Span.instr.seq (at_ off.toNat)
        | .call off => (Span.instr.seq (fn (vTarget i off).toNat)).seq next
        | .loop bound len always =>
          let body := (spans fn fuel (i + 1) ((ws.drop (k + 1)).take len) Span.unit).headD Span.unit
          (Span.instr.seq (Span.passes body always bound Span.unit Span.none_)).seq (at_ len)
        | .ret => Span.instr.seq Span.unit
        | .lbrk => { Span.none_ with bthru := some 1 }
        | .tick => Span.tick.seq next
        | .done => Span.done
        | .eret => Span.done
        | .bad => Span.none_
        | _ => Span.instr.seq next
      x :: acc) [off'])

/-- The span of a start under the spans of the functions known so far. -/
def startSpan (ws : List VIns) (known : List (Nat × Span)) (f : Nat) : Span :=
  let fn (t : Nat) : Span := match known.find? (fun e => e.1 == t) with
    | some e => e.2
    | none => Span.none_
  (spans fn 6 f (ws.drop f) Span.none_).headD Span.none_

/-- The most instructions that a segment can retire, saturating (R120). -/
def imageBound (words : List W32) (entry : List W32) : Nat :=
  let ws := words.map vDecode
  let es := (entry.filter fun e => e != 0xFFFFFFFF).map (·.toNat)
  let fns := (ws.zipIdx.filterMap fun e => match e.1 with
    | .call off => some (vTarget e.2 off).toNat
    | _ => none).eraseDups
  let known := rounds (fun k => fns.map fun f => (f, startSpan ws k f)) 9 []
  min 0xFFFFFFFF ((es.map fun e =>
    let x := startSpan ws known e
    max x.inner (max (x.head.getD 0) (x.tail.getD 0))).foldl max 0)

/-! ### The header (R118) -/

def imageLevel (b : List Byte) : Nat := fld b 6 1
def imageWords (b : List Byte) : Nat := fld b 8 4
def imageDataBytes (b : List Byte) : Nat := fld b 12 4
def imageDataOffset (b : List Byte) : Nat := fld b 16 4
def imageLength (b : List Byte) : Nat := 64 + 4 * imageWords b + imageDataBytes b
def imageEntry (b : List Byte) : List W32 := (List.range 7).map fun k => BitVec.ofNat 32 (fld b (24 + 4 * k) 4)

def codeWords : Nat → List Byte → List W32
  | 0, _ => []
  | n + 1, b => BitVec.ofNat 32 (fld b 0 4) :: codeWords n (b.drop 4)

/-- The header's own fields are in range (R7, R118). -/
def headerGood (b : List Byte) : Bool :=
  decide (64 ≤ b.length ∧ fld b 0 4 = 0x59434C59 ∧ fld b 4 2 = 1 ∧ imageLevel b ≤ 1 ∧ fld b 7 1 = 0 ∧ 1 ≤ imageWords b ∧
    imageWords b ≤ 393216 ∧ imageDataBytes b ≤ 524288 ∧ imageDataBytes b % 8 = 0 ∧ imageDataOffset b ≤ 524280 ∧
    imageDataOffset b % 8 = 0 ∧ imageDataOffset b + imageDataBytes b ≤ 524288 ∧
    (imageDataBytes b = 0 → imageDataOffset b = 0)) && allZero (slice b 52 12)

/-- The whole image has its stated length and its check word. -/
def imageGood (b : List Byte) : Bool :=
  headerGood b && b.length == imageLength b && fld b 20 4 == (crc32 (b.drop 64)).toNat

/-! ### The program store (R126) -/

/-- Bytes of store that an image takes. -/
def ImageSt.room (m : ImageSt) : Nat := cdiv (4 * m.words.length) 4096 * 4096

/-- Block k of the loaded-code space is free. -/
def blockFree (l : List ImageSt) (k : Nat) : Bool :=
  l.all fun m => decide (0x80000 + 4096 * k + 4096 ≤ m.base ∨ m.base + m.room ≤ 0x80000 + 4096 * k)

/-- The lowest run of free blocks that holds so many words. -/
def storePlace (l : List ImageSt) (words : Nat) : Option Nat :=
  let n := cdiv (4 * words) 4096
  ((List.range 384).find? fun k => decide (k + n ≤ 384) && (List.range n).all fun j => blockFree l (k + j)).map
    fun k => 0x80000 + 4096 * k

/-- Free words of a core's store. -/
def freeWords (l : List ImageSt) : Nat := 1024 * ((List.range 384).filter (blockFree l)).length

/-- Another slot of the same owner serves a kind that the entry table serves (R122 step 5). -/
def kindTaken (l : List ImageSt) (id : ProgId) (entry : List W32) : Bool :=
  l.any fun m => m.live && m.id != id &&
    (match m.id, id with
      | .islet i _, .islet j _ => i == j
      | .unit _, .unit _ => true
      | _, _ => false) &&
    (List.range 7).any fun k => m.serves k && (entry[k]?).getD 0xFFFFFFFF != 0xFFFFFFFF

/-- How steps 2 to 6 of R122 end on one image: a status with its `DETAIL`, or none where it loads. -/
inductive LoadEnd where
  | fails (status : Nat) (detail : Nat)
  | unknownIndex
  | loads
  deriving DecidableEq, Repr

def State.loadCheck (s : State) (cores : List CoreId) (id : ProgId) (unit : Bool) (b : List Byte) : LoadEnd :=
  let words := codeWords (imageWords b) (b.drop 64)
  let entry := imageEntry b
  if !imageGood b then .fails 0x71 0
  else if imageLevel b ≠ b2n unit then .fails 0x73 0
  else
    match verify unit words entry with
    | some (some i, r) => .fails 0x70 (r + at_ (i % 2 ^ 24) 8)
    | some (none, _) => .unknownIndex
    | none =>
      if cores.any fun c => kindTaken (s.store c) id entry then .fails 0x74 0
      else if cores.any fun c => (storePlace (s.store c) words.length).isNone then .fails 0x72 0
      else .loads

/-- The slot's image is unloaded on a core; its code stays while items run it (R123). -/
def State.dropImage (s : State) (c : CoreId) (id : ProgId) : State :=
  (s.setStore c ((s.store c).map fun m => if m.id == id then { m with live := false } else m)).freeImages c

/-- Steps 6 and 7 of R122 on one core: the code is placed, the slot's former image unloaded, the data block copied. -/
def State.placeImage (s : State) (c : CoreId) (id : ProgId) (i : IsletNo) (tag : W32) (queue : Half) (b : List Byte) : State :=
  let words := codeWords (imageWords b) (b.drop 64)
  match storePlace (s.store c) words.length with
  | none => s
  | some base =>
    let data := (b.drop (64 + 4 * imageWords b)).take (imageDataBytes b)
    let s := s.dropImage c id
    let m : ImageSt :=
      { id := id, base := base, words := words, entry := imageEntry b, data := data, dataOff := imageDataOffset b, tag := tag,
        queue := queue, live := true, aborts := 0 }
    let s := s.setStore c (s.store c ++ [m])
    s.setIsw c i (writeBytes (s.isw c i) (0x80000 + m.dataOff) data)

/-- The free index of a broken entry table (log entry 3). -/
def State.freeIndex (s : State) : Nat × State :=
  let (k, s) := s.draw
  ((Config.freeWord k).toNat % 2 ^ 24, s)

/-! ### PROGRAM_LOAD entries (R121 to R124) -/

/-- The cores whose stores a load of an islet's queue acts on. -/
def State.loadCores (s : State) (c : CoreId) (i : IsletNo) : List CoreId := if s.protects i then [c, c.twin] else [c]

def entrySlot (e : EntrySt) : Fin 4 := toFin 3 (fld e.bytes 8 1)

/-- A load entry whose image has been read, or whose read failed. -/
def State.programLoad (s : State) (c : CoreId) (h : Nat) (e : EntrySt) (data : Option (List Byte)) : State :=
  let f := s.entryFn e
  let id := ProgId.islet e.islet (entrySlot e)
  let cores := s.loadCores c e.islet
  let len := fld e.bytes 24 4
  let s := if s.readsRefused f then s
    else ((s.countDemand e.islet len 0).sendReads f e.islet (fld e.bytes 16 8) len).count f.core 0x030 [(1, e.islet.val), (7, f.port.num)] len
  match (if s.readsRefused f then none else data) with
  | none => (s.failCount f e.islet).finish h 0x01 0 0
  | some b =>
    if b.length ≠ fld e.bytes 24 4 ∨ b.length ≠ imageLength b then s.finish h 0x71 0 0
    else
      match s.loadCheck cores id false b with
      | .fails st d => s.finish h st 0 d
      | .unknownIndex =>
        let (k, s) := s.freeIndex
        s.finish h 0x70 0 (0x0A + at_ k 8)
      | .loads =>
        let q := BitVec.ofNat 16 (queueField e.core e.queue.val)
        let s := cores.foldl (fun s g => s.placeImage g id e.islet (BitVec.ofNat 32 (EntrySt.tag e)) q b) s
        let bound := imageBound (codeWords (imageWords b) (b.drop 64)) (imageEntry b)
        s.finish h 0x00 b.length (bound + at_ (freeWords (s.store c)) 32)

/-- A `PROGRAM_LOAD` entry with `ACTION` 0x01 proceeds (R122). Its read waits while Bus Master Enable is 0. -/
def execProgramLoadLoad (c : CoreId) (h : Nat) (data : Option (List Byte)) (s : State) : Host.Outcome State Fault Refusal :=
  .next (match s.entryOf c h 0x40 with
    | some e => if fld e.bytes 9 1 = 1 ∧ s.canRequest (s.entryFn e) = true then s.programLoad c h e data else s
    | none => s)

/-- An unload entry (R123, R124). -/
def State.programUnload (s : State) (c : CoreId) (h : Nat) (e : EntrySt) : State :=
  let id := ProgId.islet e.islet (entrySlot e)
  if !(s.store c).any fun m => m.live && m.id == id then s.finish h 0x75 0 0
  else
    let s := (s.loadCores c e.islet).foldl (fun s g => s.dropImage g id) s
    s.finish h 0x00 0 (at_ (freeWords (s.store c)) 32)

def execProgramLoadUnload (c : CoreId) (h : Nat) (s : State) : Host.Outcome State Fault Refusal :=
  .next (match s.entryOf c h 0x40 with
    | some e => if fld e.bytes 9 1 = 2 then s.programUnload c h e else s
    | none => s)

/-! ### Unit images (R127) -/

/-- The cores whose stores can take a unit image: those that serve. -/
def State.unitCores (s : State) : List CoreId := bothCores.filter fun c => s.serves c

/-- `UNIT_PROGRAM_CMD` without a read: a bad field, the mode, an unload; none where the image is to be read. -/
def State.progRun (s : State) (p : PortId) : State :=
  let x := s.cmdSt p .unitProgram
  if (x.op ≠ 1 ∧ x.op ≠ 2) ∨ 3 < x.arg.toNat then s.endCmd p .unitProgram 0x08 0
  else if s.mode.mode == .unsupervised || s.mode.mode == .safeStop then s.endCmd p .unitProgram 0x03 0
  else if !s.mayUnitWide x.fn.port || s.apart then s.endCmd p .unitProgram 0x05 0
  else if x.op = 1 then s.needRead p .unitProgram
  else
    let slot : Fin 4 := toFin 3 x.arg.toNat
    if bothCores.any fun c => (s.store c).any fun m => m.live && m.id == .unit slot then
      let s := s.unloadUnit slot
      s.endCmd p .unitProgram 0x00 0
    else s.endCmd p .unitProgram 0x75 0

/-- The image of a unit load has come, or its read failed. -/
def State.progRead (s : State) (p : PortId) (data : Option (List Byte)) : State :=
  let x := s.cmdSt p .unitProgram
  let id := ProgId.unit (toFin 3 x.arg.toNat)
  match data with
  | none => s.endCmd p .unitProgram 0x08 0
  | some b =>
    if !headerGood b then s.endCmd p .unitProgram 0x71 0
    else if b.length < imageLength b then s.endCmd p .unitProgram 0x08 0
    else
      let b := b.take (imageLength b)
      match s.loadCheck s.unitCores id true b with
      | .fails st d => s.endCmd p .unitProgram (BitVec.ofNat 8 st) (BitVec.ofNat 32 d)
      | .unknownIndex =>
        let (k, s) := s.freeIndex
        s.endCmd p .unitProgram 0x70 (BitVec.ofNat 32 (0x0A + at_ k 8))
      | .loads =>
        let s := s.unitCores.foldl (fun s g => s.placeImage g id 0 0 0 b) s
        let s := bothPorts.foldl (fun s q => s.setPort q { s.portSt q with progFaults := 0 }) s
        let bound := imageBound (codeWords (imageWords b) (b.drop 64)) (imageEntry b)
        s.endCmd p .unitProgram 0x00 (BitVec.ofNat 32 bound)

end Sys2Proof.Machine
end

