-- ==== Sys2Proof/Machine/Modes.lean ====
section
/-! DEFINITION. Starts, images, conditions, SAFE STOP and the unit commands that need no failover (12 R315 to R329,
R334 to R336; 15 R376). -/

namespace Sys2Proof.Machine

/-! ### The saved event log (15 R376) -/

/-- The newest 256 lines are written to the configuration store. -/
def State.saveLog (s : State) : State :=
  let l := s.svc.log.drop (s.svc.log.length - 256)
  (s.setSvc { s.svc with saved := l }).storeUpdate fun t => { t with savedLog := l }

/-! ### Images (R324, R325) -/

def State.slot (s : State) (n : Fin 3) : SlotSt :=
  if n = 0 then s.mode.slot0 else if n = 1 then s.mode.slot1 else s.mode.golden

def State.setSlot (s : State) (n : Fin 2) (v : SlotSt) : State :=
  if n = 0 then s.setMode { s.mode with slot0 := v } else s.setMode { s.mode with slot1 := v }

/-- A slot becomes valid or not, in its register and in the configuration store. -/
def State.markSlot (s : State) (n : Fin 2) (v : SlotSt) : State :=
  (s.setSlot n v).storeUpdate fun t => if n = 0 then { t with valid0 := v.valid } else { t with valid1 := v.valid }

def slotOf (n : Fin 2) : Fin 3 := ⟨n.val, by omega⟩

def otherSlot (n : Fin 2) : Fin 2 := if n = 0 then 1 else 0

/-- The image that a cold start runs (R325). -/
def State.startImage (s : State) : Fin 3 :=
  let b := s.mode.bootSlot
  if s.mode.goldenHeld then 2
  else if (s.slot (slotOf b)).valid then slotOf b
  else if (s.slot (slotOf (otherSlot b))).valid then slotOf (otherSlot b)
  else 2

/-- The image that the unit runs: that of the token holder. -/
def State.runningImage (s : State) : Fin 3 := if s.flt.token = .a then s.mode.runningA else s.mode.runningB

/-! ### The state at a cold start (R319; 11 R294, R295) -/

/-- A supply after a restart: its state stands, and its readings are taken again (R291, R294). -/
def SupplySt.again (v : SupplySt) : SupplySt := { v with vins := [], changed := false, vin := 0, pout := 0 }

def linkAgain (t : StoreCopy) (x : Nat) : SeatLink :=
  let v := (tget t.linkCtl x 0x040000FA).toNat
  { SeatLink.init with
    disable := bit v 31, rateMax := BitVec.ofNat 4 (bits v 27 24), holdMs := BitVec.ofNat 13 (bits v 12 0),
    st := if bit v 31 then .disabled else .noPartner }

def powerAgain (t : StoreCopy) (x : Nat) : SeatPower :=
  let v := (tget t.powerCtl x 5).toNat
  { SeatPower.init with enable := bit v 0, wakeLink := bit v 2 }

def tabOf {α : Type} [DecidableEq α] (n : Nat) (f : Nat → α) (d : α) : Tab α :=
  (List.range n).foldl (fun t k => tset t k (f k) d) []

/-- Everything volatile is at its reset value; stored values come from the configuration store (R295), and what lies
outside the unit (supplies, fans, temperatures, the service port's power) is as it was. Causes that last keep their
reasons and their time. What has already left the unit and the waiting commands are the MODEL's own and stay. -/
def State.coldReset (s : State) : State :=
  let r := State.reset
  let t := s.stored
  let left (d : Option Nat) : Option Nat := d.map (· - s.now)
  let keep : BitVec 16 := 0x00A6
  { r with
    host := { r.host with unitIndex := t.unitIndex, wiring := t.wiring, store := s.host.store, tx := s.host.tx, nextRead := s.host.nextRead }
    wq := { r.wq with nextHandle := s.wq.nextHandle }
    link := { r.link with seats := tabOf 64 (linkAgain t) SeatLink.init, keys := t.keys, line := s.link.line }
    pow := { r.pow with sa := s.pow.sa.again, sb := s.pow.sb.again, seats := tabOf 64 (powerAgain t) SeatPower.init }
    fab := { a := { r.fab.a with sent := s.fab.a.sent }, b := { r.fab.b with sent := s.fab.b.sent } }
    mode := { r.mode with
      prev := s.mode.mode, failCount := s.mode.failCount, failedShown := s.mode.failedShown, goldenHeld := s.mode.goldenHeld,
      onGolden := s.mode.onGolden, slot0 := s.mode.slot0, slot1 := s.mode.slot1, golden := s.mode.golden, runningA := s.mode.runningA, runningB := s.mode.runningB,
      verified := s.mode.verified, bootSlot := t.bootSlot, junctionA := s.mode.junctionA, junctionB := s.mode.junctionB, inlet := s.mode.inlet,
      causes := s.mode.causes &&& keep, reasons := s.mode.reasons &&& keep,
      clearing := tmap left (fun _ => none) (s.mode.clearing.filter fun e => keep.getLsbD e.1), timers := tmap left (fun _ => none) s.mode.timers }
    svc := { r.svc with
      outRj := s.svc.outRj, outUsb := s.svc.outUsb, saved := t.savedLog, fans := s.svc.fans,
      usb := { r.svc.usb with vbus := s.svc.usb.vbus } }
    free := s.free
    pending := s.pending }

/-- A cold start begins at step 0 from an image (R319, R325, R326). -/
def State.coldBegin (s : State) (image : Fin 3) : State :=
  let record := match s.mode.start with
    | some x => x.recordService
    | none => false
  let s := s.coldReset
  (s.setMode { s.mode with
    mode := .coldStart, onGolden := image == 2,
    start := some { cold := true, step := 0, t0 := 0, image := image, recordService := record } }).setModeChange.logLine
      (ascii "mode " ++ Mode.coldStart.text)

/-- A cold-start request: the log is saved, a named slot becomes `BOOT_SLOT` (R325, R327, R376). -/
def State.coldRequest (s : State) (slot : Option (Fin 2)) : State :=
  let s := (s.logLine (ascii "cold start")).saveLog
  let s := match slot with
    | some n => (s.setMode { s.mode with bootSlot := n, goldenHeld := false }).storeUpdate fun t => { t with bootSlot := n }
    | none => s
  s.coldBegin s.startImage

/-- No supply delivers: everything held in logic or DRAM is lost (R294, R323). -/
def State.losePower (s : State) : State :=
  let s := s.coldReset
  let s := s.setSvc { s.svc with measMv := 0 }
  s.setMode { s.mode with mode := .unpowered, prev := .coldStart, failCount := 0, failedShown := 0, goldenHeld := false, onGolden := false,
                          reasons := 0, causes := 0, clearing := [], start := none }

/-- A supply delivers (R292, R328): from UNPOWERED a cold start begins. -/
def State.supplyDelivers (s : State) : State :=
  if s.mode.mode = .unpowered then s.coldBegin s.startImage else s

/-! ### SAFE STOP (R336) -/

/-- A safe-stop cause occurs. A rolling update ends with it. -/
def State.safeStop (s : State) (cause : Nat) : State :=
  if s.mode.mode = .safeStop ∨ s.mode.mode = .unpowered then s
  else
    let s := match s.mode.roll with
      | some r => (s.setMode { s.mode with roll := none }).endCmd r.port .unitCmd 0x26 0
      | none => s
    let s := s.setMode { s.mode with stopCause := BitVec.ofNat 4 cause, stopUt := s.now, stopOff := false, stopHot := none, start := none }
    ((s.enterMode .safeStop).reasonOff 10).saveLog

def execSafeStop (cause : Fin 5) (s : State) : Host.Outcome State Fault Refusal :=
  .next (if cause = 0 then s else s.safeStop cause.val)

/-- A seat's link is gone with its power; nothing is flushed into an islet (R336). -/
def State.linkCut (s : State) (x : Seat) : State :=
  let l := s.link_ x
  let s1 := s.stopTunnels x
  let s1 := if l.pcsUp then s1.bumpSeat x 14 1 else s1
  s.linkDone x (s1.setLink_ x { l with
    st := if l.disable then .disabled else .noPartner, pcsUp := false, rate := 0, live := false, rehome := false, afterRate := false, authAt := none, energyAt := none,
    trainEnd := none, holdStart := none, holdLen := 0, svcEpoch := 0, svcDock := 0, downCause := if l.pcsUp then 1 else l.downCause })

/-- A port's power is taken away by no cause of `SEAT_POWER_STATUS`. -/
def State.powerCut (s : State) (x : Seat) (st : PowerState) : State :=
  let v := s.seatPower x
  s.putPower x { v with st := st, assigned := 0, pairsets := 0, waitUntil := 0, mean1s := 0, peak1s := 0, volts := 0 }

/-- The core whose junction is the hotter one (cause 0x3). -/
def State.hotCore (s : State) : CoreId := if s.mode.junctionB ≤ s.mode.junctionA then .a else .b

/-- 10 s into SAFE STOP: seat power off, links down; for cause 0x3 the hot core's domains enter retention but for AO,
SUP and the DRAM channels. -/
def State.stopPowerOff (s : State) : State :=
  if s.mode.mode = .safeStop ∧ !s.mode.stopOff ∧ s.mode.stopUt + 10000 * ms ≤ s.now then
    let s := s.setMode { s.mode with stopOff := true }
    let s := allSeats.foldl (fun s x => (s.linkCut x).powerCut x .off) s
    if s.mode.stopCause = 3 then
      let c := s.hotCore
      let s := s.setMode { s.mode with stopHot := some c }
      (List.range 28).foldl (fun s d =>
        if d ≤ 1 ∨ (18 ≤ d ∧ d ≤ 23) then s
        else
          let v := s.domain c d
          if v.st = .on then
            s.setDomain c d { v with target := .retention, pendingT := none, holdUntil := none, going := some (.retention, s.ut c + entryTime d false) }
          else if v.st = .retention ∨ v.going.isSome then s.setDomain c d { v with target := .retention, pendingT := none } else s) s
    else s
  else s

def execSafeStopPowerOff (ut : Nat) (s : State) : Host.Outcome State Fault Refusal :=
  .next ((s.arrive ut).stopPowerOff)

/-! ### Cores at a start (R320) -/

/-- A seat is served by a core from now on: its lane and its fabric port follow (01 R13, 09 R263). -/
def State.seatTo (s : State) (x : Seat) (c : CoreId) : State :=
  let s := (s.setServing x c).setPortState c.twin x.val .notServed
  s.setPortState c x.val (if (s.link_ x).holdStart.isSome then .hold else .up)

/-- A core is fenced with a cause: CORE_LOST, its supervisor stands down, its causeway port stops (13 R343). -/
def State.fenceCore (s : State) (c : CoreId) (cause : Nat) : State :=
  let s := s.setCore c { s.coreSt c with fenced := true, fenceCause := BitVec.ofNat 4 cause, sup := .standingDown, supRestarts := false }
  s.reasonOn 6

/-- Display copies end with the causeway: no mirror is complete, the twin's slice stores are gone (08 R230, R236). -/
def State.endMirrors (s : State) : State :=
  s.setDisp { s.disp with
    heads := tmap (fun d => { d with mirrored := false }) (fun _ => HeadSt.init) s.disp.heads, twinStores := [] }

/-- The groups of broadcast heads follow what their cores serve (08 R236; 09 R257). -/
def State.regroupAll (s : State) : State :=
  (s.disp.heads.filter fun e => e.2.bcastSrc).foldl (fun s e => s.regroup (toFin 127 e.1)) s

/-- The causeway trunk of each core follows whether the causeway carries traffic (09 R263). -/
def State.settleCauseway (s : State) : State :=
  let up := s.causewayUp
  let s := bothCores.foldl (fun s c => if ((s.fabPort c 88).state == .up) == up then s else s.causewayTrunk c up) s
  (if up then s else s.endMirrors).regroupAll

/-- Lanes n of the causeway are up: the reasons of a degraded or lost causeway follow (R317). -/
def State.setLanes (s : State) (l : BitVec 16) : State :=
  let s := (s.setFlt { s.flt with lanes := l }).settleCauseway
  let both := s.serves .a && s.serves .b
  let s := if l != 0 && l != 0xFFFF then s.reasonOn 8 else s.reasonOff 8
  if l == 0 && both then s.reasonOn 9 else s.reasonOff 9

/-- The fence of R342 row 4 within a start: the core without the token, and its seats to the holder. -/
def State.fenceForCauseway (s : State) : State :=
  let x := s.flt.token.twin
  let s := (s.fenceCore x 3).errLog x.twin 0x22 x 3 x.num 4
  (allSeats.foldl (fun s y => if s.servingCore y = x then s.seatTo y x.twin else s) s).settleCauseway

/-- A quad PHY is lost: its four ports lose power and link (R317). -/
def State.phyLost (s : State) (q : Nat) : State :=
  let s := s.reasonOn 4
  (allSeats.filter fun x => x.val / 4 == q).foldl (fun s x => s.linkDone x (s.goDown x 1 false) |>.powerCut x .off) s

/-! ### Starts (R319 to R326) -/

/-- A start in progress; a unit in COLD START whose steps have not begun is at step 0 (log entry 8). -/
def State.theStart (s : State) : Option StartSt :=
  if s.mode.mode.isStart then
    some (s.mode.start.getD { cold := true, step := 0, t0 := 0, image := s.startImage, recordService := false })
  else none

/-- Step 8 of a warm start: `HELLO` on every live link with `REHOME` and no prior epoch; a hold-down ends in its flush
(R322). -/
def State.warmGreet (s : State) : State :=
  allSeats.foldl (fun s x =>
    let l := s.link_ x
    if l.pcsUp then
      s.linkDone x ((s.setLink_ x { l with
        live := l.st != .greeting, rehome := true, afterRate := false, priorEpoch := 0, authAt := none, helloFirst := s.ut (s.servingCore x) }).sendHello x)
    else if l.holdStart.isSome then s.linkDone x (s.flushSeat x)
    else s) s

/-- The start goes on with a step. -/
def State.toStep (s : State) (x : StartSt) (k : Nat) : State :=
  let s := s.setMode { s.mode with start := some { x with step := k } }
  if !x.cold && k == 8 then s.warmGreet else s

/-- A start fails (R323). -/
def State.startFails (s : State) (x : StartSt) (signature : Bool) : State :=
  let s := if signature && decide (x.image.val < 2) then s.markSlot (toFin 1 x.image.val) { s.slot x.image with valid := false } else s
  let n := s.mode.failCount + 1
  let s := (s.setMode { s.mode with failCount := n }).logLine (ascii "start failed")
  if x.image = 2 then s.safeStop 1
  else if 3 ≤ n then (s.setMode { s.mode with goldenHeld := true }).coldBegin 2
  else s.coldBegin s.startImage

/-- A start completes (R323, R326, R328). -/
def State.startComplete (s : State) (x : StartSt) : State :=
  let s := s.setMode { s.mode with start := none, failedShown := min 3 s.mode.failCount, failCount := 0, lastInput := s.now }
  let s := s.setSvc { s.svc with measCode := 0, selected := 0 }
  let run (c : CoreId) (old : Fin 3) : Fin 3 := if s.serves c then x.image else old
  let s := s.setMode { s.mode with runningA := run .a s.mode.runningA, runningB := run .b s.mode.runningB, onGolden := x.image == 2 }
  (if x.recordService && !s.anyIslet then s.enterMode .service else s.enterMode s.resting).settleAll

/-- Steps 2 and 3: a core with a failed channel is fenced (R320, R323). -/
def State.memoryStep (s : State) (x : StartSt) (r : StepResult) : State :=
  let fence (s : State) (c : CoreId) (bad : Bool) : State := if bad && !(s.coreSt c).fenced then s.fenceCore c 4 else s
  let s := fence (fence s .a r.fenceA) .b r.fenceB
  if s.serves .a ∨ s.serves .b then s.toStep x (x.step + 1) else s.startFails x false

/-- Step 4: the referee grants the token, or is lost (R320). -/
def State.refereeStep (s : State) (x : StartSt) (ok : Bool) : State :=
  let holder : CoreId := if (s.coreSt .a).fenced then .b else .a
  let s := s.setFlt { s.flt with refereeLost := !ok, token := if x.cold then holder else s.flt.token }
  let s := if ok then s.reasonOff 3 else s.reasonOn 3
  let s := if ok && x.cold then
      bothCores.foldl (fun s c => if (s.coreSt c).fenced then
        allSeats.foldl (fun s y => if s.servingCore y = c then s.seatTo y c.twin else s) s else s) s
    else s
  s.toStep x 5

/-- Step 5: the causeway's lanes; with none up, R342 row 4 or R351 applies (R320). -/
def State.lanesStep (s : State) (x : StartSt) (l : BitVec 16) : State :=
  let s := s.setLanes l
  let s := if l == 0 then s.driftApart else s
  let s := if l == 0 && s.serves .a && s.serves .b && !s.flt.refereeLost then s.fenceForCauseway else s
  s.toStep x (if x.cold then 6 else 8)

/-- The console prints and the event log keeps each step's number and outcome (15 R374, R376). -/
def State.stepLine (s : State) (k : Nat) (ok : Bool) : State :=
  let t := Config.wording 0 ++ dec k ++ Config.wording (if ok then 1 else 2)
  (s.consoleOut t).logLine t

/-- A start step has ended (R319, R320, R323). -/
def State.stepDone (s : State) (x : StartSt) (r : StepResult) : State :=
  match x.step with
  | 0 => if r.ok then s.toStep x (if !x.cold && x.image == s.mode.verified then 4 else 1) else s
  | 1 => if r.ok then (s.setMode { s.mode with verified := x.image }).toStep x (if x.cold then 2 else 4) else s.startFails x true
  | 2 => s.memoryStep x r
  | 3 => s.memoryStep x r
  | 4 => s.refereeStep x r.ok
  | 5 => s.lanesStep x r.lanes
  | 6 => ((List.range 16).foldl (fun s q => if r.phyFail.getLsbD q then s.phyLost q else s) s).toStep x 7
  | 7 => s.toStep x 8
  | 8 => s.toStep x 9
  | _ => s.startComplete x

def execStartStepDone (r : StepResult) (ut : Nat) (s : State) : Host.Outcome State Fault Refusal :=
  let s := s.arrive ut
  .next (match s.theStart with
    | some x => (s.stepLine x.step r.ok).stepDone x r
    | none => s)

/-- 30 s after t = 0 the AO watchdog fails the start (R323). -/
def execStartWatchdog (ut : Nat) (s : State) : Host.Outcome State Fault Refusal :=
  let s := s.arrive ut
  .next (match s.theStart with
    | some x => if x.t0 + 30000 * ms ≤ s.now then s.startFails x false else s
    | none => s)

/-! ### The warm start (R322) -/

/-- The service device is off the bus until its host enumerates it again; the line coding stays stored (15 R377, R378). -/
def SvcUsb.detach (u : SvcUsb) : SvcUsb := { SvcUsb.init with vbus := u.vbus, coding := u.coding }

/-- Commands in progress end with the supervisors that ran them; no message leaves (R322). -/
def State.dropCmds (s : State) : State :=
  [CmdSet.islet, .unitProgram, .dockKey, .unitCmd].foldl (fun s k =>
    bothPorts.foldl (fun s p =>
      let x := s.cmdSt p k
      if x.busy then s.setCmdSt p k { x with busy := false, status := 0x12, detail := 0, phase := .idle } else s) s) s

/-- A warm start begins: host requests and functions end, every islet ends with no record and no interrupt, leases end
(R322); histograms of islets 1 to 128 become 0 (14 R361). -/
def State.warmBegin (s : State) (image : Fin 3) : State :=
  let s := s.setMode { s.mode with start := some { cold := false, step := 0, t0 := s.now, image := image, recordService := false } }
  let s := s.enterMode .warmStart
  let s := allFns.foldl (fun s f =>
    let s := s.setFn f { s.fnSt f with link := .down, aspmL1 := false, bme := false, pasidEn := false, msixEn := false, pba := [] }
    (trunkPorts (hostTrunk f.port)).foldl (fun s o => s.setPortState f.core o .down) s) s
  let s := s.setTe { s.te with tes := [], dispA := { s.te.dispA with ready := [], isoWait := [], suspended := [] }, dispB := { s.te.dispB with ready := [], isoWait := [], suspended := [] } }
  let s := allIslets.foldl (fun s i => if (s.islet i).st = .free then s else s.destroyIslet i) s
  let s := s.setHost { s.host with reads := [], reqs := [], waiting := [], deficit := [], turn := [] }
  let s := bothPorts.foldl (fun s p => s.setPort p { s.portSt p with leaseEnd := none }) s
  let s := s.dropCmds
  let s := bothCores.foldl (fun s c =>
    let k := s.cntCore c
    let s := s.setCntCore c { k with hist := k.hist.filter fun e => decide (e.1 < 256) }
    let v := s.coreSt c
    if v.fenced then s else s.setCore c { v with sup := .running, supRestarts := false, supZeros := 0 }) s
  let s := bothCores.foldl (fun s c => [24, 25].foldl (fun s d => s.settleDomain c d) s) s
  (s.setMode { s.mode with writing := none }).setSvc { s.svc with usb := s.svc.usb.detach, confirm := none }

/-! ### Conditions (R317, R318) -/

/-- A condition's cause begins: its 10 s run. -/
def State.startCause (s : State) (k : Nat) : State :=
  if (tget s.mode.timers k none).isSome then s
  else s.setMode { s.mode with timers := tset s.mode.timers k (some (s.now + 10000 * ms)) none }

def State.endCause (s : State) (k : Nat) : State := s.setMode { s.mode with timers := tset s.mode.timers k none none }

def CondTimer.key (k : CondTimer) : Nat :=
  match k with
  | .supply .sa => 0
  | .supply .sb => 1
  | .fan n => 2 + n.val

/-- A supply or fan fault has lasted 10 s. -/
def execConditionTimer (k : CondTimer) (ut : Nat) (s : State) : Host.Outcome State Fault Refusal :=
  let s := s.arrive ut
  .next (match tget s.mode.timers (CondTimer.key k) none with
    | some t => if t ≤ s.now then s.reasonOn (match k with
        | .supply _ => 1
        | .fan _ => 2) else s
    | none => s)

/-- Reasons 0x01 to 0x05 clear 10 s after their cause ended. -/
def execReasonClear (code : Fin 16) (ut : Nat) (s : State) : Host.Outcome State Fault Refusal :=
  let s := s.arrive ut
  .next (match tget s.mode.clearing code.val none with
    | some t => if t ≤ s.now then s.reasonClear code else s
    | none => s)

/-- 30 min without console input end the service session (R328). -/
def execServiceTimeout (ut : Nat) (s : State) : Host.Outcome State Fault Refusal :=
  let s := s.arrive ut
  .next (if s.mode.mode = .service ∧ s.mode.lastInput + 1800000 * ms ≤ s.now then s.enterMode s.resting else s)

/-! ### Images written (R324, R327) -/

/-- The header and the signature of a firmware image (R324). -/
def firmwareGood (b : List Byte) : Bool :=
  decide (b.length = fld b 12 4 ∧ fld b 0 4 = 0x4E544E47 ∧ fld b 10 2 = 0 ∧ 4096 ≤ fld b 12 4 ∧ fld b 12 4 ≤ 33554432) &&
    Config.signatureOk b

/-- The header alone: what the read of the image goes by. -/
def firmwareHeader (b : List Byte) : Bool :=
  decide (16 ≤ b.length ∧ fld b 0 4 = 0x4E544E47 ∧ fld b 10 2 = 0 ∧ 4096 ≤ fld b 12 4 ∧ fld b 12 4 ≤ 33554432)

/-- The image of `WRITE_IMAGE` has been read: checked, then written (R327). -/
def State.writeImage (s : State) (p : PortId) (n : Fin 2) (b : List Byte) : State :=
  if !firmwareHeader b then s.endCmd p .unitCmd 0x23 0
  else if b.length < fld b 12 4 then s.endCmd p .unitCmd 0x08 0
  else
    let b := b.take (fld b 12 4)
    if !firmwareGood b then s.endCmd p .unitCmd 0x23 0
    else
      let s := s.markSlot n { s.slot (slotOf n) with valid := false }
      let s := s.setMode { s.mode with writing := some (p, n, b) }
      s.setCmdSt p .unitCmd { s.cmdSt p .unitCmd with phase := .running }

/-- The slot has been written and read back (R327); the `COMPAT` that a slot shows whose read-back failed is free (log entry
3). -/
def State.flashDone (s : State) (ok : Bool) : State :=
  match s.mode.writing with
  | none => s
  | some (p, n, b) =>
    let s := s.setMode { s.mode with writing := none }
    if ok then
      (s.markSlot n { valid := true, version := BitVec.ofNat 32 (fld b 4 4), compat := BitVec.ofNat 16 (fld b 8 2) }).endCmd p .unitCmd 0x00 0
    else
      let (k, s) := s.draw
      (s.markSlot n { s.slot (slotOf n) with compat := BitVec.ofNat 16 (Config.freeWord k).toNat }).endCmd p .unitCmd 0x28 0

end Sys2Proof.Machine
end

