-- ==== Sys2Proof/Machine/Faults.lean ====
section
/-! DEFINITION. Heartbeats, fencing, failover, rolling moves, the referee, the causeway's lanes and memory errors
(13 R338 to R358; 12 R331 to R334; 01 R13, R16). -/

namespace Sys2Proof.Machine

/-! ### The charge token (R344, R349; 02 R51) -/

/-- The referee grants the token to core `y` and tells its supervisor (05 R147): commands in progress complete `RETRY`, but
for a rolling update and a supervisor restart, which the referee itself carries on. The other core follows the new time
master (01 R16). -/
def State.moveToken (s : State) (y : CoreId) : State :=
  if s.flt.token = y then s
  else
    let s := s.retryCmds fun x => x.op == 3 || x.op == 5
    let s := s.setMode { s.mode with writing := none }
    let s := s.setSvc { s.svc with usb := s.svc.usb.detach, lineRj := [], lineUsb := [] }
    let s := s.setTraf { s.traf with rateDrops := [] }
    let s := (s.setFlt { s.flt with token := y }).privEdge y 32 4
    (if s.causewayUp then s.steerAgain else s).consoleOut (ascii "recorder: core " ++ coreLetter y)

/-! ### What a core loses (R345) -/

def FabPort.cleared (p : FabPort) : FabPort :=
  { p with minUsed := [], poolCells := 0, cells := 0, staging := [], arriving := none, queues := [], sending := none }

/-- The frames in a core's fabric, and those its blocks keep, are gone; no multicast generation has a frame inside. -/
def State.clearFabric (s : State) (x : CoreId) : State :=
  let k := s.fabCore x
  s.setFabCore x { k with
    ports := tmap FabPort.cleared (FabPort.init (x == .b)) k.ports, frames := [], trunkNext := [], reseq := [], poolUsed := 0,
    isletUsed := [], landed := [], kept := [], behind := [],
    groups := tmap (fun g => { g with inside := [], retired := g.gen - 1 }) (fun _ => GroupSt.init) k.groups }

/-- The items, the event controller and the counters of a core are gone, and its gather channels and pipes. -/
def State.clearEngines (s : State) (x : CoreId) : State :=
  let d := s.dispatch x
  let s := s.setDispatch x { d with ready := [], isoWait := [], suspended := [], lastTe := [], holdBack := false }
  let s := s.setTe { s.te with tes := s.te.tes.filter fun e => e.1 / 32 != x.num }
  let s := s.endReqs fun w => match w with
    | .token c _ _ _ => c == x
    | _ => false
  let s := (s.setEvtCore x EvtCore.init).setCntCore x CntCore.init
  (List.range 16).foldl (fun s n => (s.setGather x n GatherSt.init).setPipe x n none) s

/-- Protection was in force when the core failed (02 R43, R44). -/
def IsletSt.guarded (x : IsletSt) : Bool := x.st != .free && x.prot && !x.lapsed

/-- A seat's lane leaves a core: frames sent and not confirmed are lost, a desk frame not acknowledged is carried out
again, and what the core received without acknowledging comes again from the dock (R345; 06 R170). -/
def State.dropSeatFrames (s : State) (x : Seat) : State :=
  let k := s.tun x .net
  let again := (k.held ++ k.queue).filterMap (·.handle) ++ (s.keptFor x .net).filterMap (·.handle)
  let s := dataTunnels.foldl (fun s t =>
    let u := s.tun x t
    (s.setTun x t { u with held := [], queue := [], resend := [], timers := [], expiries := 0, reportBy := none, nakAfter := 0,
                           ahead := [], acting := [], recv := u.ack }).dropKept x t) s
  let n := s.seatNet x
  let s := s.setSeatNet x { n with tx := again ++ n.tx, data := again.foldl (fun t h => terase t h) n.data }
  (s.setWfq x SeatWfq.init).setDemand x Demand.init

/-- A read of a transfer's or a desk frame's data. -/
def ReadFor.ofEntry (w : ReadFor) (p : Nat → Bool) : Bool :=
  match w with
  | .usbOut h => p h
  | .netTx h => p h
  | _ => false

/-- Reads of core `x`'s functions are made again through core `y`'s, from their start. -/
def State.moveReads (s : State) (x y : CoreId) (mine : HostRead → Bool) : State :=
  (s.host.reads.filter fun r => r.2.fn.core == x && mine r.2).foldl (fun s e =>
    let r := e.2
    let f : FnId := { r.fn with core := y }
    let s := s.endReqs fun w => w == .read e.1
    let s := s.setHost { s.host with reads := tput s.host.reads e.1 { r with fn := f, parts := [] } }
    if r.got.isSome then s
    else if s.readsRefused f then (s.failCount f r.islet).failRead e.1
    else s.addReqs f r.islet r.addr r.len (.read e.1)) s

/-- What a core had still to send leaves by the same port's function of another core. -/
def HostTx.on (x : HostTx) (c : CoreId) : HostTx :=
  match x with
  | .data f i a b t => .data { f with core := c } i a b t
  | .record f i a b t => .record { f with core := c } i a b t
  | .read f i n a l t => .read { f with core := c } i n a l t
  | .msix f v a d t => .msix { f with core := c } v a d t
  | .completion f b => .completion { f with core := c } b
  | .completerAbort f => .completerAbort { f with core := c }

/-- The host requests of core `x` when core `y` takes over: reads for a protected islet's transfers are made again, its
writes, records and messages that wait leave through the survivor; everything else is gone (R345). -/
def State.moveRequests (s : State) (x y : CoreId) : State :=
  let safe (i : IsletNo) : Bool := (s.islet i).guarded
  let s := s.dropReads fun r => r.fn.core == x && !(safe r.islet && r.why.ofEntry fun _ => true)
  let moved (q : HostReq) : Option HostReq :=
    if q.fn.core ≠ x ∨ q.read.isSome then some q
    else if safe q.islet then some { q with fn := { q.fn with core := y }, tx := q.tx.on y }
    else none
  let s := s.setHost { s.host with waiting := s.host.waiting.filterMap moved }
  let s := s.moveReads x y fun _ => true
  (coreFns y).foldl (fun s f => s.pump f) s

/-- The seats that a core serves. -/
def State.seatsOf (s : State) (c : CoreId) : List Seat := allSeats.filter fun x => s.servingCore x == c

def seatMask (l : List Seat) : W64 := l.foldl (fun m x => m ||| (1#64 <<< x.val)) 0

/-- The seats of a core move to the other (R343, R344): lanes and frames now, the state at the adoption. -/
def State.moveSeats (s : State) (x y : CoreId) (seats : List Seat) : State :=
  let n := s.ut y / microFrame
  let mine := s.disp.heads.map (·.1)
  let s := mine.foldl (fun s h =>
    let o := toHead h
    if s.servingCore (headSeat o) = x then s else s.setHead o { s.head o with mirrored := false }) s
  let s := (s.moveRequests x y).dropStores fun c _ => c == x
  let s := seats.foldl (fun s a => ((s.dropSeatFrames a).seatTo a y).settleSeat a) s
  let s := ((s.clearFabric x).clearEngines x).regroupAll
  let s := s.setFlt { s.flt with
    adopt := some x, moved := seatMask seats, buildFrom := seats.foldl (fun t a => tset t a.val (n + 3) 0) s.flt.buildFrom }
  s.setCore y { s.coreSt y with failovers := (s.coreSt y).failovers + 1 }

/-! ### Adoption (R345 to R347; 03 R85; 08 R240; 07 R212) -/

/-- A queue from its shadow: its cache is fetched again from C. -/
def QueueSt.adopted (own sh : QueueSt) : QueueSt :=
  { own with base := sh.base, enable := sh.enable, log2 := sh.log2, ring := sh.ring, weight := sh.weight, burst := sh.burst,
             p := sh.p, c := sh.c, cache := [], inl := sh.inl, posts := sh.posts, next := sh.c, credit := sh.weight.toNat,
             frozen := sh.frozen, seen := [], again := 0 }

/-- A ring from its shadow (R85): records that the twin holds and that were not reported are written again into their
slots; records that it does not hold are made again. What waits in its latch still does (03 R79). -/
def RingSt.adopted (own sh : RingSt) (ut : Nat) : RingSt :=
  let again (b : List Byte) : Rec := { bytes := b, notify := true, ut := ut, port := none, sent := true, lat := none }
  let rest := (own.held ++ own.made).filter fun (v : Rec) => !v.sent
  let made := sh.unreported.map (fun e => again e.2) ++ rest
  { RingSt.init with
    base := sh.base, enable := sh.enable, refused := own.refused, log2 := sh.log2, vector := sh.vector,
    p := (match sh.unreported with
      | (k, _) :: _ => k
      | [] => sh.p),
    c := sh.c, made := made, latch := own.latch }

/-- The open entries of an islet's queues of a core. -/
def State.entriesOn (s : State) (x : CoreId) (i : IsletNo) : List (Nat × EntrySt) :=
  s.wq.entries.filter fun e => e.2.core == x && e.2.islet == i

/-- An entry taken and not begun is taken in again by the survivor. -/
def State.againItem (s : State) (by' : CoreId) (h : Nat) (e : EntrySt) : State :=
  if e.started || e.handed then s
  else
    match intakeFlow e.islet e.queue.val e.bytes with
    | some fl => s.readyItem by' { Item.init with kind := 2, flow := BitVec.ofNat 24 fl, islet := e.islet, arg := BitVec.ofNat 64 h }
    | none => s

/-- The queues, rings and entries of a protected islet that core `home` held, now run by `by'`. -/
def State.adoptIslet (s : State) (home by' : CoreId) (i : IsletNo) : State :=
  let x := s.islet i
  let s := (List.range (x.queues home)).foldl (fun s q =>
    s.setQueue home i q ((s.queue home i q).adopted (s.shQueue home i q))) s
  let s := (List.range (x.rings home)).foldl (fun s r =>
    let again := (s.shRing home i r).unreported.length
    let s := (List.range again).foldl (fun s _ => s.bumpIslet by' i 4) s
    (s.setRing home i r ((s.ring home i r).adopted (s.shRing home i r) (s.ut by'))).restall home i r) s
  let s := s.setWq { s.wq with visit := tset s.wq.visit (ciKey home i) (0, 0) (0, 0) }
  (s.entriesOn home i).foldl (fun s e => s.againItem by' e.1 e.2) s

/-- An unprotected islet loses its queues and rings on the core (02 R45). -/
def State.loseQueues (s : State) (x : CoreId) (i : IsletNo) : State :=
  let s := (s.entriesOn x i).foldl (fun s e => (s.dropWork e.1).setEntry e.1 EntrySt.init) s
  let v := s.islet i
  let s := (List.range (v.queues x)).foldl (fun s q => (s.setQueue x i q QueueSt.init).setShQueue x i q QueueSt.init) s
  let s := (List.range (v.rings x)).foldl (fun s r => (s.setRing x i r RingSt.init).setShRing x i r RingSt.init) s
  let s := s.setWq { s.wq with visit := tset s.wq.visit (ciKey x i) (0, 0) (0, 0) }
  if v.queues x + v.rings x = 0 then s
  else
    let v := s.islet i
    s.setIslet i (match x with
      | .a => { v with st := .reattach, lostA := true }
      | .b => { v with st := .reattach, lostB := true })

/-- A moved seat of an unprotected islet is as newly gained: endpoints closed, ports afresh (R347). -/
def State.seatAfresh (s : State) (x : Seat) : State :=
  let s := (s.epsOf x fun _ => true).foldl (fun s k => s.closeEp k 0x07 true none) s
  s.freshPorts x

/-- A head that the other core takes over: the mirror becomes its reference frame, every slice is encoded again, a frame in
gather is fetched again (08 R239, R240). -/
def State.adoptHead (s : State) (h : HeadNo) : State :=
  let d := s.head h
  if d.st != .attached then s
  else
    let first := d.cur.toList
    let w := (first ++ d.waiting).filter fun e => (s.entry? e.1).isSome
    let s := s.setHead h { d with
      frame := tget s.disp.mirrors h.val [], store := [], heldOver := [], waiting := w, gather := none, cur := none,
      todo := allPositions d.timing.v, landed := true, mirrored := false, tiles := 0, encoded := 0, changed := 0 }
    let s := s.setDisp { s.disp with mirrors := tset s.disp.mirrors h.val [] [], twinStores := tset s.disp.twinStores h.val [] [] }
    if d.mirrored then s else s.needRefresh h

/-- An output served anew: a configuration without its answer is sent again, then everything (08 R239). -/
def State.resendView (s : State) (o : HeadNo) : State :=
  let s := match (s.view o).config with
    | some (_, w) => (s.setView o { s.view o with config := none }).configFor o w
    | none => s
  s.takeStoreLost o

/-- The rehome of a moved seat whose link is up (07 R212); one in its hold-down is greeted so when it returns (07 R211). -/
def State.rehome (s : State) (x : Seat) : State :=
  let l := s.link_ x
  if l.pcsUp then
    s.linkDone x ((s.setLink_ x { l with
      live := l.st != .greeting, rehome := true, afterRate := false, priorEpoch := l.svcEpoch, authAt := none,
      helloFirst := s.ut (s.servingCore x) }).sendHello x)
  else if l.holdStart.isSome then s.setLink_ x { l with moved := true }
  else s

/-- The desk frames of a seat that are carried out again (R345). -/
def State.rereadNet (s : State) (x : Seat) : State :=
  (s.seatNet x).tx.foldl (fun s h =>
    match s.entry? h with
    | some e =>
      if (tget (s.seatNet x).data h []).isEmpty && !(s.host.reads.any fun r => r.2.why == .netTx h) then s.netReads e h (netSegs e.bytes)
      else s
    | none => s) s

/-- TT accounts of a seat follow it to the other core (06 R158). -/
def State.moveTts (s : State) (x : Seat) (c d : CoreId) : State :=
  s.setUsb { s.usb with tts := s.usb.tts.foldl (fun t e =>
    if e.1 / 16384 = c.num * 64 + x.val then
      tset (terase t e.1) ((d.num * 64 + x.val) * 16384 + e.1 % 16384) e.2 [] else t) s.usb.tts }

/-- One moved seat at the adoption. -/
def State.adoptSeat (s : State) (from' by' : CoreId) (x : Seat) : State :=
  let i := s.owner x
  let g := (s.islet i).guarded
  let s := if i.val = 0 || g then s else s.seatAfresh x
  let s := (s.setDue by' x (if g then s.due from' x else [])).setDue from' x []
  let s := s.moveTts x from' by'
  (seatHeads x).foldl (fun s o => s.adoptHead o) s |>.rereadNet x

/-- The surviving core `by'` adopts the state of `from'`: the queues that core `home` held, the moved seats, their heads
and links (R345 to R347). `lapse`: no twin is left. -/
def State.handOver (s : State) (home from' by' : CoreId) (lapse : Bool) : State :=
  let seats := maskSeats s.flt.moved
  let moved := s.flt.moved
  let s := s.setFlt { s.flt with adopt := none, adopted := if home = by' then none else some home }
  let s := allIslets.foldl (fun s i =>
    let v := s.islet i
    if v.st = .free then s
    else
      let s := if v.guarded then s.adoptIslet home by' i else s.loseQueues home i
      let v := s.islet i
      if (v.seats &&& moved) != 0 then s.setIslet i { v with failovers := v.failovers + 1 } else s) s
  let s := seats.foldl (fun s x => s.adoptSeat from' by' x) s
  let s := if home = by' then s else allIslets.foldl (fun s i => s.setIsw home i []) s
  let s := s.settleGroups by'
  let s := s.regroupAll
  let s := (s.disp.views.filter fun e => e.2.owed.any fun w => w.1 == from').foldl (fun s e => s.sendOwed (toHead e.1) true) s
  let outs := ((seats.map fun x => seatHeads x).flatten.map fun o => o :: s.viewers o).flatten.eraseDups
  let s := outs.foldl (fun s o => s.resendView o) s
  let s := (seats.foldl (fun s x => s.rehome x) s).feedPipes by'
  if lapse then allIslets.foldl (fun s i => if (s.islet i).st != .free && (s.islet i).prot then s.lapse i else s) s else s

def execFailoverAdoption (c : CoreId) (s : State) : Host.Outcome State Fault Refusal :=
  .next (if s.flt.adopt = some c.twin && s.serves c && s.mode.roll.isNone then s.handOver c.twin c.twin c true else s)

/-! ### The first build of a moved seat (R346) -/

/-- The seat's build item of micro-frame n at its home cluster (05 R137; 04 R88, R106). -/
def State.buildItem (s : State) (x : Seat) (n : Nat) : State :=
  s.readyItem (s.servingCore x)
    { Item.init with kind := 0, flow := BitVec.ofNat 24 x.val, islet := s.owner x, seat := some x, arg := BitVec.ofNat 64 n }

/-- Records whose results did not come were not run: their transfers wait for none, and port records go again. -/
def State.dropScripts (s : State) (x : Seat) : State :=
  let u := s.usbSeat x
  let ports := ((u.scripts.map (·.ports)).flatten.filter fun (e : PortRec × Bool) => !e.2).map (·.1)
  let done (k : SentScript) : SentScript := { k with recs := k.recs.map fun r => (r.1, true), ports := k.ports.map fun p => (p.1, true) }
  let fl := ((u.scripts.map (·.recs)).flatten.filter fun (e : List Byte × Bool) => !e.2 && recKind e.1 == 0x0B).map (·.1)
  let s := s.setUsbSeat x { u with scripts := u.scripts.map done, portRecs := ports ++ u.portRecs, flushes := fl ++ u.flushes }
  (s.epsOf x fun e => e.type != 1).foldl (fun s k =>
    let s := s.setEp k { s.ep k with sentBytes := 0 }
    (s.ep k).queue.foldl (fun s h => (s.setXfer h { s.xfer h with outstanding := 0 }).afterResult h) s) s

/-- Streams with bytes that no result confirms are flushed and sent again (R346). -/
def State.restartStreams (s : State) (x : Seat) : State :=
  (s.epsOf x fun e => e.type != 1).foldl (fun s k =>
    if (s.ep k).queue.any fun h => decide ((s.xfer h).outDone < (s.xfer h).outSent) then s.resetStream k else s) s

/-- The first build item after a failover: at a micro-frame start, with every resent result processed (R346). -/
def State.firstBuild (s : State) (x : Seat) (ut : Nat) : State :=
  let n := ut / microFrame
  let from' := tget s.flt.buildFrom x.val 0
  let l := s.link_ x
  let c := s.servingCore x
  let busy := !(s.tun x .usb).acting.isEmpty || (s.heldRuns c).any fun r => r.item.kind == 1 && r.item.seat == some x
  if from' = 0 ∨ n < from' ∨ ut % microFrame ≠ 0 ∨ s.flt.adopt.isSome ∨ l.st ≠ .up ∨ l.live ∨ busy then s
  else
    let s := s.setFlt { s.flt with buildFrom := tset s.flt.buildFrom x.val 0 0 }
    let s := ((s.dropScripts x).restartStreams x).isoLost x (n + 1)
    let s := s.setUsbSeat x { s.usbSeat x with lastBuild := n + 2 }
    s.buildItem x (n + 2)

def execFailoverFirstBuild (x : Seat) (ut : Nat) (s : State) : Host.Outcome State Fault Refusal :=
  .next ((s.arrive ut).firstBuild x ut)

/-! ### A rolling update ends (12 R331 to R333) -/

def State.endRolling (s : State) (status : Byte) : State :=
  match s.mode.roll with
  | none => s
  | some r =>
    let s := (s.setMode { s.mode with roll := none }).endCmd r.port .unitCmd status 0
    if s.mode.mode = .rolling then s.restMode else s

/-- The core that restarts or is being filled. -/
def State.restarting (s : State) : Option CoreId :=
  match s.mode.roll with
  | some r => if r.phase = 3 ∨ r.phase = 4 then some r.x else if r.phase = 8 ∨ r.phase = 9 then some r.x.twin else none
  | none => none

/-! ### The referee's decisions (R342 to R344, R349) -/

/-- The log core of events about core `x`: the survivor's. -/
def State.logCore (s : State) (x : CoreId) : CoreId := if (s.coreSt x.twin).fenced then x else x.twin

/-- Core X is fenced and its seats move to Y (R342 rows 3 and 4, R343, R344). -/
def State.failover (s : State) (x : CoreId) (cause row : Nat) : State :=
  let y := x.twin
  let seats := s.seatsOf x
  let s := s.fenceCore x cause
  let s := s.setCore x { s.coreSt x with failed := false, fenceAsked := some (s.ut y) }
  let s := (s.moveSeats x y seats).settleCauseway
  let s := s.privEdge y 32 4
  let s := (s.setCntCore y { s.cntCore y with bwUntil := s.ut y + 10000 * ms }).bwSettle y
  let s := if row = 4 then (s.reasonOn 9).errLog y 0x32 y 4 0 0 else s
  let s := s.moveToken y
  let s := (s.errLog y 0x22 x 3 x.num row).errLog y 0x23 x 3 seats.length (seatMask seats).toNat
  let s := s.endRolling 0x26
  s.reModeFn

/-- A core fault in UNSUPERVISED: fenced, its seats not moved (R342 row 2). -/
def State.fenceOnly (s : State) (x : CoreId) : State :=
  let s := s.fenceCore x 6
  let s := s.setCore x { s.coreSt x with fenceAsked := some (s.ut x.twin) }
  s.settleCauseway.errLog x.twin 0x22 x 3 x.num 2

/-- X's supervisor is lost and its data path healthy (R349): the token moves, one restart is asked for. A console that nobody
serves any longer loses its USB port (15 R378). -/
def State.supervisorLost (s : State) (x : CoreId) : State :=
  let v := s.coreSt x
  if v.fenced || v.sup != .running then s
  else
    let s := s.setCore x { v with sup := if v.supRestarts then .lost else .restarting }
    let s := s.errLog (s.logCore x) 0x24 x 4 x.num 0
    if s.flt.token ≠ x then s
    else if !s.flt.refereeLost && s.serves x.twin then s.moveToken x.twin
    else s.setSvc { s.svc with usb := s.svc.usb.detach }

/-- Both supervisors are lost (R342 row 5; 12 R328, R334). -/
def State.unsupervise (s : State) : State :=
  if s.mode.mode.isResting ∨ s.mode.mode = .service ∨ s.mode.mode = .rolling then
    let s := bothCores.foldl (fun s c =>
      let v := s.coreSt c
      if v.fenced then s
      else
        let s := if v.sup = .running then s.errLog c 0x24 c 4 c.num 0 else s
        s.setCore c { s.coreSt c with sup := .lost }) s
    let s := match s.mode.roll with
      | some r => (s.setMode { s.mode with roll := none }).endCmd r.port .unitCmd 0x26 0
      | none => s
    let s := s.setSvc { s.svc with usb := s.svc.usb.detach, confirm := none, noticeUt := s.now }
    (s.enterMode .unsupervised).reasonOn 10
  else s

/-- A supervisor that no heartbeat of the last four has shown running. -/
def State.supGone (s : State) (c : CoreId) : Bool := !s.serves c || decide (4 ≤ (s.coreSt c).supZeros)

/-- While the referee is lost no failover is possible: a core that fails is marked (R350). -/
def State.markFailed (s : State) (bad : CoreId → Bool) : State :=
  let s := bothCores.foldl (fun s c =>
    if bad c && s.serves c then ((s.setCore c { s.coreSt c with failed := true }).reasonOn 6).settleCauseway else s) s
  if !s.serves .a && !s.serves .b then s.safeStop 2 else s.reModeFn

/-- The rows of R342 in order; the first that applies is acted on. `lost`: no heartbeat has come for 200 µs. -/
def State.refereeEvaluate (s : State) (lost : CoreId → Bool) : State :=
  let down (c : CoreId) : Bool := !(s.coreSt c).fenced && (lost c || (s.coreSt c).failed || !(s.coreSt c).dataOk)
  let gone (c : CoreId) : Bool := (s.coreSt c).fenced || down c
  let early := s.mode.mode = .coldStart ∧ s.startStep.getD 9 < 5
  if s.mode.mode = .unpowered ∨ s.mode.mode = .safeStop ∨ early then s
  else
    match s.restarting with
    | some r => if down r.twin then s.safeStop 2 else s
    | none =>
      if s.flt.refereeLost then (if down .a || down .b then s.markFailed down else s)
      else if gone .a && gone .b then (if down .a || down .b then s.safeStop 2 else s)
      else if down .a || down .b then
        let x : CoreId := if down .a then .a else .b
        if s.mode.mode = .unsupervised then s.fenceOnly x
        else s.failover x (if lost x || (s.coreSt x).failed then 1 else 2) 3
      else if s.serves .a && s.serves .b && decide (4 ≤ (s.coreSt .a).cwZeros ∨ 4 ≤ (s.coreSt .b).cwZeros) then
        s.failover s.flt.token.twin 3 4
      else if s.supGone .a && s.supGone .b then s.unsupervise
      else if s.serves .a && s.supGone .a then s.supervisorLost .a
      else if s.serves .b && s.supGone .b then s.supervisorLost .b
      else s

def none' (_ : CoreId) : Bool := false

def countZeros (n : Nat) (ok : Bool) : Nat := if ok then 0 else min 4 (n + 1)

/-- A heartbeat of core `c` reaches the referee, and over the causeway the twin (R340, R342). -/
def State.heartbeat (s : State) (c : CoreId) (dataOk supOk cwOk : Bool) : State :=
  let v := s.coreSt c
  if v.fenced || v.heldReset then s
  else
    let s := s.setCore c { v with
      dataOk := dataOk && v.hardError == 0, cwZeros := countZeros v.cwZeros cwOk, supZeros := countZeros v.supZeros supOk,
      lastBeat := s.ut c }
    let s := s.setCore c.twin { s.coreSt c.twin with aliveTwin := s.flt.lanes != 0 }
    s.refereeEvaluate none'

def execHeartbeat (c : CoreId) (dataOk supOk cwOk : Bool) (_token : Bool) (ut : Nat) (s : State) : Host.Outcome State Fault Refusal :=
  .next ((s.arrive ut).heartbeat c dataOk supOk cwOk)

/-- No heartbeat of a core for 200 µs: it is lost; a missed heartbeat shows at the twin (R340, R342). -/
def State.heartbeatLost (s : State) (c : CoreId) (ut : Nat) : State :=
  let late (x : CoreId) : Bool := decide ((s.coreSt x).lastBeat + 200000 ≤ ut)
  if (s.coreSt c).fenced || !late c then s
  else
    let s := s.setCore c.twin { s.coreSt c.twin with aliveTwin := false }
    let s := s.privEdge c.twin 32 3
    let s := if s.mode.mode = .unpowered then s else s.errLog (s.logCore c) 0x20 c 3 c.num 0
    s.refereeEvaluate late

def execHeartbeatLost (c : CoreId) (ut : Nat) (s : State) : Host.Outcome State Fault Refusal :=
  .next ((s.arrive ut).heartbeatLost c ut)

/-- The source and the record of an uncorrectable error of the output buffer, or of a TE's scratch or the program store. Which
cell, and which TE and address, the command does not say (R341, R357; 05 R147; log entry 115). -/
def State.memoryError (s : State) (c : CoreId) (code : Byte) : State :=
  let (n, t) := s.draw
  let v := (Config.freeWord n).toNat
  if code = 1 then (t.edge c 315).errLog (t.logCore c) 0x11 c 3 0 (v % 786432)
  else if code = 3 then
    let (k, t) := t.draw
    let te := (Config.freeWord k).toNat % 33
    (t.privEdge c (if te = 32 then v % 32 else te) 2).errLog (t.logCore c) 0x12 c 3 (if te = 32 then 0xFF else te) v
  else s

/-- A hard error latches (R341): the code shows, `DATA_OK` is 0, the referee evaluates. -/
def State.hardErr (s : State) (c : CoreId) (code : Byte) : State :=
  let v := s.coreSt c
  if v.fenced ∨ code = 0 ∨ 7 < code.toNat then s
  else
    let s := s.memoryError c code
    let s := s.setCore c { s.coreSt c with hardError := code, dataOk := false }
    let s := s.errLog (s.logCore c) 0x21 c 3 code.toNat 0
    s.refereeEvaluate none'

def execHardError (c : CoreId) (code : Byte) (s : State) : Host.Outcome State Fault Refusal :=
  .next (s.hardErr c code)

/-! ### The fence (R343) -/

/-- A core that does not confirm its fence within 100 µs is held in reset; its functions lose their links (R343; 02 R54). -/
def State.fenceTimeout (s : State) (c : CoreId) : State :=
  match (s.coreSt c).fenceAsked with
  | some t =>
    if s.ut c.twin < t + 100000 then s
    else
      let s := s.setCore c { s.coreSt c with heldReset := true, fenceAsked := none }
      let taken := s.flt.adopt == some c || s.flt.adopted == some c
      (coreFns c).foldl (fun s f =>
        if taken then
          let s := s.setFn f { s.fnSt f with link := .down, aspmL1 := false }
          (trunkPorts (hostTrunk f.port)).foldl (fun s o => s.setPortState f.core o .down) s
        else s.loseFn f .down) s
  | none => s

def execFenceConfirmTimeout (c : CoreId) (ut : Nat) (s : State) : Host.Outcome State Fault Refusal :=
  .next ((s.arrive ut).fenceTimeout c)

/-! ### Supervisors (R349; 12 R334) -/

/-- A supervisor that restarts runs, or does not within 1 s. -/
def State.supervisorBack (s : State) (c : CoreId) (ok : Bool) : State :=
  let v := s.coreSt c
  if v.sup != .restarting || v.fenced then s
  else
    let s := if ok then (s.setCore c { v with sup := .running, supZeros := 0 }).errLog c 0x25 c 1 c.num 0
      else s.setCore c { v with sup := .lost, supRestarts := true }
    if s.mode.mode != .unsupervised then s
    else
      let asked (s : State) (f : State → PortId → State) : State :=
        bothPorts.foldl (fun s p => if (s.cmdSt p .unitCmd).busy && (s.cmdSt p .unitCmd).op == 5 then f s p else s) s
      if ok then ((asked s fun s p => s.endCmd p .unitCmd 0x00 0).restMode).reasonOff 10
      else if bothCores.any fun d => (s.coreSt d).sup == .restarting then s
      else asked s fun s p => s.endCmd p .unitCmd 0x27 0

def execSupervisorRestartDone (c : CoreId) (ok : Bool) (s : State) : Host.Outcome State Fault Refusal :=
  .next (s.supervisorBack c ok)

/-! ### The referee and the causeway (R350 to R352; 01 R16) -/

/-- A core declares the referee lost; its twin follows. -/
def State.loseReferee (s : State) (c : CoreId) : State :=
  if s.flt.refereeLost then s
  else
    let s := (s.setFlt { s.flt with refereeLost := true }).reasonOn 3
    (s.errLog c 0x40 c 4 0 0).reMode

def execRefereeLost (c : CoreId) (_selfCheck : Bool) (ut : Nat) (s : State) : Host.Outcome State Fault Refusal :=
  .next ((s.arrive ut).loseReferee c)

/-- The referee has answered on both links for 100 ms: every semaphore is free, the holder is adopted (R350). -/
def State.refereeBack (s : State) : State :=
  if !s.flt.refereeLost then s
  else
    let s := (s.setFlt { s.flt with refereeLost := false }).reasonOff 3
    let s := s.setHost { s.host with sems := [], tieNext := .h0 }
    (s.errLog s.flt.token 0x41 s.flt.token 1 0 0).reMode

def execRefereeReturned (ut : Nat) (s : State) : Host.Outcome State Fault Refusal :=
  .next (s.arrive ut).refereeBack

/-- Nothing is shadowed while no lane carries traffic, and the cores' unit times part (02 R44; R351; 01 R16). -/
def State.causewayGone (s : State) : State :=
  let s := s.driftApart
  let s := allIslets.foldl (fun s i => if (s.islet i).st != .free && (s.islet i).prot then s.lapse i else s) s
  bothCores.foldl (fun s c => s.errLog c 0x32 c 4 0 0) s

def bit16 (n : Nat) : BitVec 16 := 1#16 <<< n

/-- A lane is removed: its source is raised, its loss logged (R352). -/
def State.laneDown (s : State) (n : Fin 16) : State :=
  if !s.flt.lanes.getLsbD n.val then s
  else
    let s := s.setLanes (s.flt.lanes &&& ~~~bit16 n.val)
    let s := (s.edgeBoth (296 + n.val))
    let s := bothCores.foldl (fun s c => s.errLog c 0x30 c 4 n.val 0) s
    if s.flt.lanes = 0 then
      let s := s.causewayGone
      bothCores.foldl (fun s c => if (s.powCore c).onCausewayRef then s.hardErr c 6 else s) s
    else s

def execLaneRemoved (n : Fin 16) (s : State) : Host.Outcome State Fault Refusal :=
  .next (s.laneDown n)

/-- A removed lane has retrained and rejoins. -/
def State.laneUp (s : State) (n : Fin 16) : State :=
  if s.flt.lanes.getLsbD n.val then s
  else
    let first := s.flt.lanes == 0
    let s := (s.setLanes (s.flt.lanes ||| bit16 n.val)).edgeBoth (296 + n.val)
    let s := bothCores.foldl (fun s c => s.errLog c 0x31 c 1 n.val 0) s
    if first then bothCores.foldl (fun s c => s.errLog c 0x33 c 1 0 0) s.steerAgain else s

def execLaneRetrain (n : Fin 16) (ok : Bool) (s : State) : Host.Outcome State Fault Refusal :=
  .next (if ok then s.laneUp n else s)

/-- A causeway timestamp: the core without the token steers its UT towards the master's (01 R16; log entry 1). -/
def execCausewayTimeSample (ut : Nat) (s : State) : Host.Outcome State Fault Refusal :=
  let s := s.arrive ut
  .next (if s.causewayUp then s.steerAgain else s)

/-! ### Memory errors (R353 to R355) -/

def State.corrected (s : State) (c : CoreId) (p : EccPlace) (detail : Nat) : State :=
  match p with
  | .dram ch => ((s.count c 0x080 [] 1).edge c (290 + ch.val)).errLog c 0x01 c 0 ch.val detail
  | .outputBuffer => ((s.count c 0x081 [] 1).edge c 314).errLog c 0x10 c 0 0 detail

def execCorrectableError (c : CoreId) (p : EccPlace) (detail : Nat) (s : State) : Host.Outcome State Fault Refusal :=
  .next (s.corrected c p detail)

/-- A line of an ISW is repaired from the twin's copy, or becomes 0 (R355). -/
def State.iswLine (s : State) (c : CoreId) (i : IsletNo) (line detail : Nat) : State :=
  let a := 64 * line
  if s.protects i then
    let b := readBytes (s.isw c.twin i) a 64
    (s.setIsw c i (writeBytes (s.isw c i) a b)).errLog c 0x05 c 1 i.val detail
  else (s.setIsw c i (writeBytes (s.isw c i) a (List.replicate 64 0))).errLog c 0x06 c 2 i.val detail

/-- An uncorrectable DRAM error by its region (R355). -/
def State.uncorrected (s : State) (c : CoreId) (r : DramRegion) (ch : Fin 6) (detail : Nat) : State :=
  let s := if r = .supervisor then s else s.edge c (290 + ch.val)
  match r with
  | .refFrame h =>
    let s := s.errLog c 0x02 c 2 h.val detail
    if (s.head h).st = .attached then s.needRefresh h else s
  | .mirror h => (s.setHead h { s.head h with mirrored := false }).errLog c 0x04 c 1 h.val detail
  | .sliceStore h =>
    let s := s.errLog c 0x03 c 1 h.val detail
    let d := s.head h
    if d.st = .attached then
      let s := s.setHead h { d with store := [], todo := allPositions d.timing.v }
      ((s.viewers h).foldl (fun s o => s.takeStoreLost o) s).feedPipes c
    else s
  | .isw i line => s.iswLine c i line detail
  | .supervisor => ((s.privEdge c 32 2).errLog c 0x15 c 1 0 detail).supervisorLost c
  | .other => (s.errLog (s.logCore c) 0x07 c 3 ch.val detail).hardErr c 2

def execUncorrectableDramError (c : CoreId) (r : DramRegion) (channel : Fin 6) (detail : Nat) (s : State) :
    Host.Outcome State Fault Refusal :=
  .next (s.uncorrected c r channel detail)

/-! ### The phases of a rolling update (12 R331 to R333) -/

/-- Shadows, mirrors and ISW copies of what core `y` serves are made whole on `x`, for the return of `x` (phases 4, 9). -/
def State.copyToTwin (s : State) (x y : CoreId) : State :=
  let s := allIslets.foldl (fun s i =>
    let v := s.islet i
    if v.st = .free then s
    else
      let s := if v.guarded then
          bothCores.foldl (fun s c =>
            let s := (List.range (v.queues c)).foldl (fun s q =>
              let k := s.queue c i q
              let posts := match k.cache with
                | [] => k.posts
                | e :: _ => if k.next = e.idx then k.posts else (e.idx, k.next, e.ut) :: k.posts
              s.setShQueue c i q { k with cache := [], next := k.c, posts := posts, seen := [] }) s
            (List.range (v.rings c)).foldl (fun s r =>
              let k := s.ring c i r
              s.setShRing c i r { RingSt.init with base := k.base, enable := k.enable, log2 := k.log2, vector := k.vector, p := k.p, c := k.c }) s) s
        else s
      s.setIsw x i (s.isw y i)) s
  s.setDisp { s.disp with
    mirrors := (s.disp.heads.filter fun h => h.2.st == .attached).foldl (fun t h => tset t h.1 h.2.frame []) s.disp.mirrors
    heads := tmap (fun d => { d with mirrored := d.st == .attached }) (fun _ => HeadSt.init) s.disp.heads }

/-- A seat moves away from a core that works: the frames queued for it there are discarded and counted (09 R263). -/
def State.discardSeat (s : State) (c : CoreId) (a : Seat) : State :=
  let s := dataTunnels.foldl (fun s t =>
    let u := s.tun a t
    u.queue.foldl (fun s _ => s.discardAt c a.val) ((u.held ++ u.queue).foldl (fun s f => s.freeTx a f false) s)) s
  s.discardQueued c a.val

/-- Phases 2 and 7: the seats of X move to its twin, and X restarts alone. -/
def State.rollOut (s : State) (x : CoreId) : State :=
  let y := x.twin
  let seats := s.seatsOf x
  let s := (seats.foldl (fun s a => s.discardSeat x a) s).moveSeats x y seats
  let s := (s.handOver x x y false).setCore x { s.coreSt x with failed := true }
  s.settleCauseway

/-- What core `y` does for core `x` and its seats ends on `y`: items, channels, pipes, frames (phases 5 and 10). -/
def State.leaveCore (s : State) (x y : CoreId) (seats : List Seat) : State :=
  let ofX (h : Nat) : Bool := match s.entry? h with
    | some e => e.core == x
    | none => false
  let stays (it : Item) : Bool :=
    (match it.seat with
      | some a => !seats.contains a
      | none => true) && !(it.kind == 2 && ofX it.arg.toNat)
  let keep (r : Option Run) : Option Run := r.filter fun (k : Run) => stays k.item
  let d := s.dispatch y
  let s := s.setDispatch y { d with ready := d.ready.filter stays, isoWait := d.isoWait.filter stays, suspended := d.suspended.filter fun r => stays r.1.item }
  let s := (List.finRange 32).foldl (fun s (t : TeNo) =>
    let e := s.teSt y t
    let cur := keep e.cur
    let s := (e.runs.filter fun r => !stays r.item).foldl (fun s r => s.dropTokens y t r.slot) s
    s.setTeSt y t { e with cur := cur, staged := keep e.staged, pre := keep e.pre, waiting := e.waiting && decide (cur = e.cur) }) s
  let s := s.moveReads y x fun r => r.why.ofEntry ofX
  let s := (List.finRange 16).foldl (fun s ch =>
    let s := match (s.gather y ch.val).busy with
      | some h => if seats.contains (headSeat h) then (s.dropReads fun r => r.ofChannel y ch).setGather y ch.val GatherSt.init else s
      | none => s
    match s.pipe y ch.val with
    | some (h, _) => if seats.contains (headSeat h) then s.setPipe y ch.val none else s
    | none => s) s
  (seats.foldl (fun s a => s.discardSeat y a) s).feedPipes y

/-- Phases 5 and 10: the seats of X move back to it, and both cores serve. -/
def State.rollBack (s : State) (x : CoreId) : State :=
  let y := x.twin
  let seats := allSeats.filter fun a => normalCore a.val == x
  let s := (s.copyToTwin x y).setCore x { s.coreSt x with failed := false, sup := .running, supZeros := 0, cwZeros := 0, supRestarts := false }
  let n := s.ut x / microFrame
  let s := s.leaveCore x y seats
  let s := (seats.foldl (fun s a => ((s.dropSeatFrames a).seatTo a x).settleSeat a) s).regroupAll
  let s := s.setFlt { s.flt with moved := seatMask seats, buildFrom := seats.foldl (fun t a => tset t a.val (n + 3) 0) s.flt.buildFrom }
  let s := s.setCore x { s.coreSt x with failovers := (s.coreSt x).failovers + 1 }
  ((s.handOver x y x false).settleCauseway).copyToTwin y x

def State.setRoll (s : State) (r : RollSt) : State := s.setMode { s.mode with roll := some r }

def State.setRunning (s : State) (c : CoreId) (n : Fin 3) : State :=
  s.setMode (match c with
    | .a => { s.mode with runningA := n }
    | .b => { s.mode with runningB := n })

/-- A core's restart on the new image ends: on it, on the image that ran before, or not at all (R333). -/
def State.rollStarted (s : State) (r : RollSt) (x : CoreId) (next' : Nat) (ok fallbackOk : Bool) : State :=
  if ok then (s.setRunning x (slotOf r.slot)).setRoll { r with phase := next' }
  else if fallbackOk then s.setRoll { r with phase := next', failed := true }
  else
    let s := (s.setCore x { s.coreSt x with failed := false }).fenceCore x 5
    let s := (s.errLog x.twin 0x22 x 3 x.num 0).settleCauseway
    let s := allIslets.foldl (fun s i => if (s.islet i).st != .free && (s.islet i).prot then s.lapse i else s) s
    s.endRolling 0x26

/-- A phase of the rolling update is complete (R331). The phases that move lanes or the token need the referee: while it is
lost they stand (01 R13, 13 R350; DESIGN CHOICE, log entry 114). -/
def State.rollStep (s : State) (r : RollSt) (ok fallbackOk : Bool) : State :=
  let go (s : State) (k : Nat) : State := s.setRoll { r with phase := k }
  if s.flt.refereeLost && [2, 5, 6, 7, 10].contains r.phase then s
  else
    match r.phase with
    | 1 => go s 2
    | 2 => go (s.rollOut r.x) 3
    | 3 => s.rollStarted r r.x 4 ok fallbackOk
    | 4 => go (s.copyToTwin r.x r.x.twin) 5
    | 5 => let s := s.rollBack r.x; if r.failed then s.endRolling 0x26 else go s 6
    | 6 => go (s.moveToken r.x) 7
    | 7 => go (s.rollOut r.x.twin) 8
    | 8 => s.rollStarted r r.x.twin 9 ok fallbackOk
    | 9 => go (s.copyToTwin r.x.twin r.x) 10
    | 10 => let s := s.rollBack r.x.twin; if r.failed then s.endRolling 0x26 else go s 11
    | _ =>
      let s := s.setMode { s.mode with bootSlot := r.slot, goldenHeld := false, verified := slotOf r.slot, onGolden := false }
      (s.storeUpdate fun t => { t with bootSlot := r.slot }).endRolling 0x00

def execRollingUpdatePhaseDone (ok fallbackOk : Bool) (s : State) : Host.Outcome State Fault Refusal :=
  .next (match s.mode.roll with
    | some r => s.rollStep r ok fallbackOk
    | none => s)

end Sys2Proof.Machine
end

