-- ==== Sys2Proof/Machine/Mains.lean ====
section
/-! DEFINITION. Supplies and the seat budget, the regulators, the reference, fans and temperatures (11 R291 to R294,
R312, R313; 12 R317; 17 R405). -/

namespace Sys2Proof.Machine

/-! ### Supplies (R291 to R293) -/

/-- P(V): the rated output at an input of V whole volts (R291). -/
def ratedOutput (v : Nat) : Nat := if v ≤ 132 then 1200 else if v ≤ 179 then 1200 + 25 * (v - 132) else 2400

/-- V_s: the lowest input reported in the last second, in whole volts (R293). -/
def SupplySt.lowest (v : SupplySt) : Option Nat :=
  match v.vins with
  | [] => none
  | e :: r => some (r.foldl (fun m x => min m x.2) e.2 / 10)

/-- `RATING`: P(V_s), 0 while the supply does not deliver. -/
def SupplySt.rating (v : SupplySt) : Nat :=
  if v.delivers then match v.lowest with
    | some n => ratedOutput n
    | none => 0
  else 0

/-- A supply changes: any change of bits 3:0 sets `CHANGED` and raises source 895 (R293, 11 R314); 10 s without delivery
run (12 R317); power fails with the last supply, and comes with the first (R294; 12 R328). -/
def State.putSupply (s : State) (x : SupplyId) (v : SupplySt) : State :=
  let old := s.supply x
  let differs := old.present != v.present || old.acOk != v.acOk || old.dcOk != v.dcOk || old.overload != v.overload
  let s := s.setSupply x (if differs then { v with changed := true } else v)
  let s := if differs then s.edgeBoth 895 else s
  let k := CondTimer.key (.supply x)
  let others := (s.supply .sa).delivers && (s.supply .sb).delivers
  let s := if v.delivers then
      let s := s.endCause k
      if others then s.reasonOff 1 else s
    else s.startCause k
  if !(s.supply .sa).delivers && !(s.supply .sb).delivers then (if s.mode.mode = .unpowered then s else s.losePower)
  else s.supplyDelivers

def State.inputLost (s : State) (x : SupplyId) : State :=
  let v := s.supply x
  if v.acOk then s.putSupply x { v with acOk := false, dcOk := false, overload := false } else s

def execSupplyInputLost (x : SupplyId) (ut : Nat) (s : State) : Host.Outcome State Fault Refusal :=
  .next ((s.arrive ut).inputLost x)

def State.inputGood (s : State) (x : SupplyId) : State :=
  let v := s.supply x
  if v.present && !v.acOk then s.putSupply x { v with acOk := true, dcOk := true } else s

def execSupplyInputGood (x : SupplyId) (ut : Nat) (s : State) : Host.Outcome State Fault Refusal :=
  .next ((s.arrive ut).inputGood x)

/-- A supply is inserted: it shares once its input has become good (R292). -/
def State.inserted (s : State) (x : SupplyId) : State :=
  let v := s.supply x
  if v.present then s else s.putSupply x { v with present := true, acOk := false, dcOk := false, overload := false, vins := [] }

def execSupplyInserted (x : SupplyId) (ut : Nat) (s : State) : Host.Outcome State Fault Refusal :=
  .next ((s.arrive ut).inserted x)

def State.withdrawn (s : State) (x : SupplyId) : State :=
  let v := s.supply x
  if v.present then s.putSupply x { v with present := false, acOk := false, dcOk := false, overload := false, vins := [] } else s

def execSupplyWithdrawn (x : SupplyId) (ut : Nat) (s : State) : Host.Outcome State Fault Refusal :=
  .next ((s.arrive ut).withdrawn x)

def State.outputFailed (s : State) (x : SupplyId) : State :=
  let v := s.supply x
  if v.dcOk then s.putSupply x { v with dcOk := false, overload := false } else s

def execSupplyOutputFailed (x : SupplyId) (ut : Nat) (s : State) : Host.Outcome State Fault Refusal :=
  .next ((s.arrive ut).outputFailed x)

/-- Neither feed is there: both supplies stop, and everything volatile is lost (R294). -/
def State.feedsLost (s : State) : State := (s.inputLost .sa).inputLost .sb

def execBothFeedsLost (s : State) : Host.Outcome State Fault Refusal := .next s.feedsLost

/-- One reading of a supply: the readings of the last second, `OVERLOAD` above 105 % of the rating (R293). -/
def State.readSupply (s : State) (x : SupplyId) (vin pout : Nat) : State :=
  let v := s.supply x
  if !v.present then s
  else
    let now := s.now
    let v := { v with vin := vin, pout := pout, vins := (v.vins.filter fun (e : Nat × Nat) => decide (now < e.1 + 1000 * ms)) ++ [(now, vin)] }
    s.putSupply x { v with overload := v.delivers && decide (105 * v.rating < 100 * pout) }

/-- B: what the weakest delivering supply leaves above the logic's 580 W, at most 1,280 W (R293). -/
def State.seatBudget (s : State) : Nat :=
  let one (v : SupplySt) (b : Nat) : Nat := if v.delivers then min b (v.rating - 580) else b
  one s.pow.sa (one s.pow.sb 1280)

/-- The supervisor that holds the token reads both supplies over the PMBus: its request is acknowledged, which raises its private
source 5 (R293, R312; 05 R147; DEDUCED, log entry 121), and B follows the readings. -/
def State.poll (s : State) (vinA vinB poutA poutB : Nat) : State :=
  if s.mode.mode = .unpowered ∨ s.mode.mode = .unsupervised then s
  else
    let s := s.privEdge s.flt.token 32 5
    let s := (s.readSupply .sa vinA poutA).readSupply .sb vinB poutB
    let b := s.seatBudget
    if b = s.pow.budget then s else (s.setPow { s.pow with budget := b }).edgeBoth 894

def execSupplyPoll (vinA vinB poutA poutB : Nat) (ut : Nat) (s : State) : Host.Outcome State Fault Refusal :=
  .next ((s.arrive ut).poll vinA vinB poutA poutB)

/-! ### Regulators and the reference (R312, R313) -/

def PowCore.req (p : PowCore) (vdsp : Bool) : Option RailReq := if vdsp then p.vdsp else p.vte
def PowCore.setReq (p : PowCore) (vdsp : Bool) (r : Option RailReq) : PowCore := if vdsp then { p with vdsp := r } else { p with vte := r }

/-- No acknowledgement within 200 µs: the request is sent once more, then has failed. The log names the rail by a number
that the spec does not give (log entry 3). -/
def State.railLate (s : State) (c : CoreId) (vdsp : Bool) : State :=
  match (s.powCore c).req vdsp with
  | none => s
  | some r =>
    let now := s.ut c
    if now < r.sentUt + 200000 then s
    else if !r.second then s.setPowCore c ((s.powCore c).setReq vdsp (some { r with second := true, sentUt := now }))
    else
      let s := ((s.setPowCore c ((s.powCore c).setReq vdsp none)).edge c 890).reasonOn 11
      let (n, s) := s.draw
      let s := s.errLog c 0x50 c 4 ((Config.freeWord n).toNat % 2 ^ 32) 0
      if r.raise then s.hardErr c 5 else s

def execPmbusTimeout (c : CoreId) (vdsp : Bool) (ut : Nat) (s : State) : Host.Outcome State Fault Refusal :=
  .next ((s.arrive ut).railLate c vdsp)

/-- A core's reference is lost: the causeway's takes over, or the core has a hard error (R313, R341). -/
def State.loseReference (s : State) (c : CoreId) : State :=
  let p := s.powCore c
  if p.onCausewayRef then s
  else
    let s := ((s.edge c 892).reasonOn 7).errLog c 0x51 c 4 c.num 0
    if s.flt.lanes = 0 then s.hardErr c 6 else s.setPowCore c { s.powCore c with onCausewayRef := true }

def execReferenceLoss (c : CoreId) (s : State) : Host.Outcome State Fault Refusal :=
  .next (s.loseReference c)

/-! ### Fans, temperatures, quads (12 R317; 17 R405) -/

def State.fan (s : State) (n : Fin 6) : FanSt := tget s.svc.fans n.val FanSt.init
def State.setFan (s : State) (n : Fin 6) (v : FanSt) : State := s.setSvc { s.svc with fans := tset s.svc.fans n.val v FanSt.init }

/-- A fan that is absent or slow: its cause runs (12 R317). -/
def State.fanBad (s : State) (n : Fin 6) : Bool := (tget s.mode.timers (CondTimer.key (.fan n)) none).isSome

/-- A fan at full speed, 9,500 rpm ±10 %: which of these its tachometer reads is open (17 R405; log entry 3). -/
def State.fullSpeed (s : State) (n : Fin 6) : State :=
  let (k, s) := s.draw
  s.setFan n { present := true, rpm := 8550 + (Config.freeWord k).toNat % 1901 }

/-- A fan is lost: the other five go to full speed. -/
def State.fanLost (s : State) (n : Fin 6) (rpm : Nat) : State :=
  let s := (s.setFan n { present := rpm != 0, rpm := rpm }).startCause (CondTimer.key (.fan n))
  (List.finRange 6).foldl (fun s k => if s.fanBad k then s else s.fullSpeed k) s

def execFanLoss (n : Fin 6) (rpm : Nat) (ut : Nat) (s : State) : Host.Outcome State Fault Refusal :=
  .next ((s.arrive ut).fanLost n rpm)

/-- A fan is there again; the cause ends with the last. -/
def State.fanBack (s : State) (n : Fin 6) : State :=
  let s := (s.fullSpeed n).endCause (CondTimer.key (.fan n))
  if (List.finRange 6).any fun k => s.fanBad k then s else s.reasonOff 2

def execFanInserted (n : Fin 6) (ut : Nat) (s : State) : Host.Outcome State Fault Refusal :=
  .next ((s.arrive ut).fanBack n)

/-- Temperatures in °C: `THERMAL` from 100 at a junction or 40 at the inlet. -/
def State.thermal (s : State) (a b inlet : Int) : State :=
  let s := s.setMode { s.mode with junctionA := a, junctionB := b, inlet := inlet }
  if 100 ≤ a ∨ 100 ≤ b ∨ 40 ≤ inlet then s.reasonOn 5 else s.reasonOff 5

def execThermalLimitCrossed (junctionA junctionB inlet : Int) (ut : Nat) (s : State) : Host.Outcome State Fault Refusal :=
  .next ((s.arrive ut).thermal junctionA junctionB inlet)

def execPhyManagementTimeout (q : Fin 16) (ut : Nat) (s : State) : Host.Outcome State Fault Refusal :=
  .next ((s.arrive ut).phyLost q.val)

end Sys2Proof.Machine
end

