-- ==== Sys2Proof/Machine/Counters.lean ====
section
/-! DEFINITION. The counter registers that a host or a program writes, the timed freeze and the bandwidth windows (14). -/

namespace Sys2Proof.Machine

/-! ### Selections (R362, R363) -/

/-- The filter modes that an event accepts beyond mode 0 (R363); none for an event that is not listed. -/
def eventFilters (n : Nat) : Option (List Nat) :=
  match n with
  | 0x000 => some []
  | 0x001 => some []
  | 0x002 => some []
  | 0x010 => some [3, 1, 5]
  | 0x011 => some [3]
  | 0x012 => some [3]
  | 0x013 => some [3]
  | 0x014 => some [3, 1, 5]
  | 0x015 => some [1]
  | 0x016 => some [3]
  | 0x017 => some [1, 5]
  | 0x018 => some []
  | 0x020 => some [1]
  | 0x021 => some [1]
  | 0x022 => some [1]
  | 0x023 => some [1]
  | 0x024 => some [1]
  | 0x025 => some [1]
  | 0x026 => some [1]
  | 0x030 => some [1, 7]
  | 0x031 => some [1, 7]
  | 0x032 => some [1, 7]
  | 0x040 => some [4, 5]
  | 0x041 => some [4, 5]
  | 0x042 => some [4]
  | 0x043 => some []
  | 0x050 => some [2, 6]
  | 0x051 => some [2, 6]
  | 0x052 => some [2, 6]
  | 0x053 => some [2, 6]
  | 0x054 => some [2]
  | 0x060 => some [2, 1]
  | 0x061 => some [2]
  | 0x062 => some [2]
  | 0x070 => some [2, 1]
  | 0x071 => some [2, 1]
  | 0x072 => some [2, 1]
  | 0x073 => some [2]
  | 0x074 => some [2]
  | 0x080 => some []
  | 0x081 => some []
  | 0x090 => some []
  | 0x091 => some []
  | _ => none

/-- Values below this lie in the range of a filter mode. -/
def filterLimit (mode : Nat) : Nat :=
  match mode with
  | 0 => 65536
  | 1 => 129
  | 2 => 64
  | 3 => 32
  | 4 => 160
  | 5 => 8
  | 6 => 6
  | _ => 2

def selectOk (v : Nat) : Bool :=
  match eventFilters (bits v 11 0) with
  | none => false
  | some l => (bits v 34 32 == 0 || l.contains (bits v 34 32)) && decide (bits v 31 16 < filterLimit (bits v 34 32))

/-- The writable bits of `COUNTER_SELECT_n`. -/
def selectMask : W64 := 0x7FFFFC07FFFF0FFF

/-- A writer of unit-wide settings whose writes reach the unit (02 R33; 13 R343). -/
def State.cntMay (s : State) (w : Via) : Bool := s.viaHeard w && s.viaMay w

/-- A write of `COUNTER_SELECT_n` (R362): its RW1C bits clear, and the rest is taken or refused. -/
def State.writeSelect (s : State) (c : CoreId) (n : Nat) (v : W64) : State :=
  let k := s.cntCore c
  let old := k.sel n
  let put (x : W64) : State := s.setCntCore c { k with select := tset k.select n x 0x2000000000000000 }
  if selectOk v.toNat then
    let keep : W64 := old &&& (0x8000000000008000#64 &&& ~~~v)
    put ((v &&& selectMask) ||| keep)
  else put (old ||| 0x8000#64)

/-- A write of `COUNTER_SELECT_n`; one without semaphore 0 is refused (02 R33). -/
def State.selectWrite (s : State) (w : Via) (c : CoreId) (n : Nat) (v : W64) : State :=
  if !s.viaHeard w then s
  else if s.viaMay w then s.writeSelect c n v
  else
    let k := s.cntCore c
    s.setCntCore c { k with select := tset k.select n (k.sel n ||| 0x8000#64) 0x2000000000000000 }

def execCounterSelectWrite (w : Via) (c : CoreId) (n : Fin 512) (v : W64) (s : State) : Host.Outcome State Fault Refusal :=
  .next (s.selectWrite w c n.val v)

/-- A write of `COUNTER_VALUE_n` (R362). -/
def State.writeValue (s : State) (c : CoreId) (n : Nat) (v : W64) : State :=
  let k := s.cntCore c
  s.setCntCore c { k with value := tset k.value n (v.toNat % 2 ^ 48) 0 }

def execCounterValueWrite (w : Via) (c : CoreId) (n : Fin 512) (v : W64) (s : State) : Host.Outcome State Fault Refusal :=
  .next (if s.cntMay w then s.writeValue c n.val v else s)

/-! ### `COUNTER_CONTROL` (R365, R370) -/

/-- `FREEZE` takes its value. -/
def State.setFreeze (s : State) (c : CoreId) (v : W64) : State :=
  let k := s.cntCore c
  s.setCntCore c { k with control := (k.control &&& 0xFE) ||| (if v.getLsbD 0 then 1 else 0) }

/-- `SNAPSHOT`: every value is copied, with the UT of the cycle. -/
def State.takeSnapshot (s : State) (c : CoreId) (v : W64) : State :=
  if v.getLsbD 1 then
    let k := s.cntCore c
    s.setCntCore c { k with snap := k.value, snapUt := BitVec.ofNat 64 (s.ut c) }
  else s

/-- `CLEAR`: every counter, bin, window and overflow bit of the core becomes 0. -/
def State.clearCounters (s : State) (c : CoreId) (v : W64) : State :=
  if v.getLsbD 2 then
    let k := s.cntCore c
    s.setCntCore c { k with
      value := [], seat := [], seatOvf := [], islet := [], hist := [], bwNow := [], bwLast := [], bwPeak := [],
      select := tmap (fun x => x &&& 0x7FFFFFFFFFFFFFFF) (fun _ => 0x2000000000000000) k.select }
  else s

/-- `WINDOW_10MS` and `BW_FORCE` take their values; the length in force changes at the next 10 ms boundary. -/
def State.setWindows (s : State) (c : CoreId) (v : W64) : State :=
  let k := s.cntCore c
  let s := s.setCntCore c { k with control := (k.control &&& 0xE7) ||| (if v.getLsbD 3 then 8 else 0) ||| (if v.getLsbD 4 then 16 else 0) }
  s.bwSettle c

/-- A write of `COUNTER_CONTROL`: `FREEZE`, then `SNAPSHOT`, then `CLEAR` (R365). -/
def State.writeControl (s : State) (c : CoreId) (v : W64) : State :=
  (((s.setFreeze c v).takeSnapshot c v).clearCounters c v).setWindows c v

def execCounterFreeze (w : Via) (c : CoreId) (v : W64) (s : State) : Host.Outcome State Fault Refusal :=
  .next (if s.cntMay w then s.writeControl c v else s)

def execCounterSnapshot (w : Via) (c : CoreId) (v : W64) (s : State) : Host.Outcome State Fault Refusal :=
  .next (if s.cntMay w then ((s.setFreeze c v).takeSnapshot c v).clearCounters c v |>.setWindows c v else s)

def execCounterClear (w : Via) (c : CoreId) (v : W64) (s : State) : Host.Outcome State Fault Refusal :=
  .next (if s.cntMay w then (((s.setFreeze c v).takeSnapshot c v).clearCounters c v).setWindows c v else s)

def execCounterWindowSelect (w : Via) (c : CoreId) (v : W64) (s : State) : Host.Outcome State Fault Refusal :=
  .next (if s.cntMay w then (s.setFreeze c v |>.takeSnapshot c v |>.clearCounters c v).setWindows c v else s)

/-! ### The timed freeze (R366) -/

/-- A write of `COUNTER_FREEZE_UT`: 0 disarms; a value that UT has reached freezes at once. -/
def State.writeFreezeUt (s : State) (c : CoreId) (v : W64) : State :=
  (s.setCntCore c { s.cntCore c with freezeUt := v }).freezeNow c

def execCounterFreezeUtWrite (w : Via) (c : CoreId) (v : W64) (s : State) : Host.Outcome State Fault Refusal :=
  .next (if s.cntMay w then s.writeFreezeUt c v else s)

def execCounterFreezeUtFire (c : CoreId) (ut : Nat) (s : State) : Host.Outcome State Fault Refusal :=
  .next ((s.arrive ut).freezeNow c)

/-! ### The end of a window (R370) -/

/-- The end of a window: what it counted is shown and goes into the peaks; at a 10 ms boundary a new length comes into
force. -/
def State.windowEnd (s : State) (c : CoreId) : State := s.bwFollow c

def execBandwidthWindowEnd (c : CoreId) (ut : Nat) (s : State) : Host.Outcome State Fault Refusal :=
  .next ((s.arrive ut).windowEnd c)

end Sys2Proof.Machine
end

