-- ==== Sys2Proof/Machine/Console.lean ====
section
/-! DEFINITION. The words of the recorder console: names, output lines, and the reading of a line (15 R373 to R376,
R379, R380, R387). Words that the spec does not give are values of `Config.wording` (log entry 3). -/

namespace Sys2Proof.Machine

/-! ### Names and numbers -/

def joined (sep : List Byte) : List (List Byte) → List Byte
  | [] => []
  | [x] => x
  | x :: r => x ++ sep ++ joined sep r

def sp : List Byte := ascii " "

/-- A signed number of tenths. -/
def tenthsInt (n : Int) : List Byte := if n < 0 then ascii "-" ++ tenths n.natAbs else tenths n.natAbs

def seatText (x : Seat) : List Byte := ascii "S" ++ decPad 2 x.val

/-- The pairs A to D. -/
def pairText (p : Fin 4) : List Byte := [BitVec.ofNat 8 (65 + p.val)]

/-- Link states in the short words of 15 R385. -/
def LinkState.short : LinkState → List Byte
  | .up => ascii "UP"
  | .holdDown => ascii "HOLD"
  | .negotiating => ascii "NEG"
  | .training => ascii "NEG"
  | .greeting => ascii "NEG"
  | .rateChange => ascii "NEG"
  | .foreign => ascii "FRGN"
  | .authFailed => ascii "AUTH"
  | .unenrolled => ascii "ENRL"
  | .disabled => ascii "DIS"
  | .noPartner => ascii "NONE"

def rateText (r : Nat) : List Byte :=
  if r = 1 then ascii "2.5G" else if r = 2 then ascii "5G" else if r = 3 then ascii "10G" else if r = 4 then ascii "25G" else []

def PowerState.name : PowerState → List Byte
  | .off => ascii "OFF"
  | .detecting => ascii "DETECTING"
  | .classifying => ascii "CLASSIFYING"
  | .waiting => ascii "WAITING"
  | .powering => ascii "POWERING"
  | .powered => ascii "POWERED"
  | .shed => ascii "SHED"
  | .retryWait => ascii "RETRY_WAIT"
  | .fault => ascii "FAULT"
  | .foreign => ascii "FOREIGN"
  | .test => ascii "TEST"

/-- Causes of a link loss (07 R209). -/
def downText (c : Nat) : List Byte :=
  if c = 1 then ascii "PHY" else if c = 2 then ascii "RETRY" else if c = 3 then ascii "SILENCE" else if c = 4 then ascii "GOODBYE"
  else if c = 5 then ascii "RATE_CHANGE" else if c = 6 then ascii "PROTOCOL" else if c = 7 then ascii "DISABLED" else Config.wording 10

def PortState.name : PortState → List Byte
  | .poweredOff => ascii "POWERED_OFF"
  | .disconnected => ascii "DISCONNECTED"
  | .disabled => ascii "DISABLED"
  | .resetting => ascii "RESETTING"
  | .enabled => ascii "ENABLED"
  | .suspended => ascii "SUSPENDED"
  | .resuming => ascii "RESUMING"
  | .notPresent => ascii "NOT_PRESENT"

def speedText (v : Nat) : List Byte :=
  if v = 1 then ascii " LS" else if v = 2 then ascii " FS" else if v = 3 then ascii " HS" else if v = 4 then Config.wording 11 else []

/-- The replace-me reasons (12 R317). -/
def reasonName (n : Nat) : List Byte :=
  if n = 1 then ascii "SUPPLY_LOST" else if n = 2 then ascii "FAN_LOST" else if n = 3 then ascii "REFEREE_LOST"
  else if n = 4 then ascii "PHY_LOST" else if n = 5 then ascii "THERMAL" else if n = 6 then ascii "CORE_LOST"
  else if n = 7 then ascii "REFERENCE_LOST" else if n = 8 then ascii "CAUSEWAY_DEGRADED" else if n = 9 then ascii "CAUSEWAY_LOST"
  else if n = 10 then ascii "SUPERVISORS_LOST" else if n = 11 then ascii "REGULATOR" else []

/-- The error log's codes (13 R357). -/
def errName (n : Nat) : List Byte :=
  if n = 0x01 then ascii "DRAM_CORRECTED" else if n = 0x10 then ascii "BUFFER_CORRECTED" else if n = 0x11 then ascii "BUFFER_UNCORRECTED"
  else if n = 0x12 then ascii "SCRATCH_OR_STORE_UNCORRECTED" else if n = 0x15 then ascii "SUP_MEMORY_UNCORRECTED"
  else if n = 0x20 then ascii "HEARTBEAT_LOST" else if n = 0x21 then ascii "HARD_ERROR" else if n = 0x22 then ascii "FENCED"
  else if n = 0x23 then ascii "FAILOVER" else if n = 0x24 then ascii "SUPERVISOR_LOST" else if n = 0x25 then ascii "SUPERVISOR_RESTARTED"
  else if n = 0x30 then ascii "LANE_DOWN" else if n = 0x31 then ascii "LANE_UP" else if n = 0x32 then ascii "CAUSEWAY_LOST"
  else if n = 0x33 then ascii "CAUSEWAY_RETURNED" else if n = 0x40 then ascii "REFEREE_LOST" else if n = 0x41 then ascii "REFEREE_RETURNED"
  else if n = 0x50 then ascii "REGULATOR" else if n = 0x51 then ascii "REFERENCE_LOST" else Config.wording (0x1000 + n)

/-- The encodings of MEAS (R379). -/
def measName (n : Nat) : List Byte :=
  if n = 0 then ascii "Mode" else if n = 1 then ascii "Verdict of the last self-test" else if n = 2 then ascii "Input voltage, supply A"
  else if n = 3 then ascii "Input voltage, supply B" else if n = 4 then ascii "Seat budget B" else if n = 5 then ascii "Seat draw S"
  else if n = 6 then ascii "MEAN_1S of the selected seat" else if n = 7 then ascii "MIN_MARGIN of the selected seat"
  else if n = 8 then ascii "Continuity loop resistance of the selected seat" else if n = 9 then ascii "Hotter core junction"
  else if n = 10 then ascii "Inlet air" else if n = 11 then ascii "FIRST replace-me reason" else ascii "Slowest fan"

/-- The self-tests (R387). -/
def testName (n : Nat) : List Byte :=
  if n = 1 then ascii "Supplies" else if n = 2 then ascii "Fans" else if n = 3 then ascii "Referee" else if n = 4 then ascii "Causeway"
  else if n = 5 then ascii "Rails" else if n = 6 then ascii "Panel" else if n = 7 then ascii "PHY loopback" else if n = 8 then ascii "Lane switches"
  else if n = 9 then ascii "Memory" else ascii "Seat detection"

def testText (n : Nat) : List Byte := ascii "T" ++ decPad 2 n

/-- A test's last verdict: `PASS`, `FAIL`, or none yet. -/
def verdictText (v : Nat) : List Byte := if v = 2 then ascii "PASS" else if v = 3 then ascii "FAIL" else Config.wording (20 + v)

/-! ### Output (R373, R375) -/

/-- The prompt: unit index, mode, "> ". -/
def State.prompt (s : State) : State :=
  s.consolePut (ascii "U" ++ dec s.host.unitIndex.toNat ++ sp ++ s.mode.mode.text ++ ascii "> ")

def State.say (s : State) (lines : List (List Byte)) : State := lines.foldl State.consoleOut s

def helpLines : List (List Byte) :=
  [ascii "help", ascii "status", ascii "seat show NN", ascii "seat list", ascii "seat cycle NN", ascii "seat cont NN P [blink]",
    ascii "seat cont", ascii "seat cont off", ascii "seat tdr NN", ascii "supply", ascii "fans", ascii "log [N]", ascii "log prev",
    ascii "errors [core]", ascii "tp", ascii "meas NN", ascii "test list", ascii "test run N", ascii "service", ascii "service end",
    ascii "warm", ascii "cold [S]", ascii "restart", ascii "stop"]

/-- The active reasons, the first one first. -/
def State.activeReasons (s : State) : List Nat :=
  let all := (List.range 16).filter fun n => s.mode.reasons.getLsbD n
  let f := s.mode.first.toNat
  if all.contains f then f :: all.filter (· != f) else all

def State.reasonLine (s : State) : List Byte :=
  let l := s.activeReasons
  ascii "replace-me: " ++
    (if l.isEmpty then ascii "none" else joined (ascii ", ") (l.map fun n => ascii "0x" ++ hex 2 n ++ sp ++ reasonName n))

def SupplySt.word (v : SupplySt) : List Byte := if v.delivers && !v.overload then ascii "OK" else Config.wording 12

def SupplySt.brief (v : SupplySt) : List Byte := tenths v.vin ++ ascii " V " ++ dec v.pout ++ ascii " W " ++ v.word

def allFans : List (Fin 6) := List.finRange 6

/-- A fan's state at the console. -/
def State.fanWord (s : State) (n : Fin 6) : List Byte :=
  if !(s.fan n).present then ascii "ABSENT" else if s.fanBad n then ascii "SLOW" else ascii "OK"

def State.slowestFan (s : State) : Nat := (allFans.map fun n => (s.fan n).rpm).foldl min (s.fan 0).rpm

def State.lanesUp (s : State) : Nat := (List.range 16).countP fun n => s.flt.lanes.getLsbD n

def State.statusLines (s : State) : List (List Byte) :=
  let m := s.mode
  let ok := allFans.countP fun n => (s.fan n).present && !s.fanBad n
  [ascii "XF-6440 U" ++ dec s.host.unitIndex.toNat ++ ascii "  mode " ++ m.mode.text ++ ascii "  prev " ++ m.prev.text ++
      ascii "  token " ++ coreLetter s.flt.token ++ ascii "  cores " ++ (bothCores.filter s.serves).flatMap coreLetter ++
      ascii "  referee " ++ (if s.flt.refereeLost then Config.wording 13 else ascii "OK") ++ ascii "  causeway " ++ dec s.lanesUp ++ ascii "/16",
    ascii "supply A " ++ s.pow.sa.brief ++ ascii "   supply B " ++ s.pow.sb.brief ++
      ascii "   budget " ++ dec s.pow.budget ++ ascii " W  draw " ++ dec s.drawW ++ ascii " W",
    ascii "fans " ++ dec ok ++ ascii "/6 min " ++ dec s.slowestFan ++ ascii " rpm   junction A " ++ decInt m.junctionA ++
      ascii " C  B " ++ decInt m.junctionB ++ ascii " C   inlet " ++ decInt m.inlet ++ ascii " C",
    s.reasonLine]

def marginText (v : Half) : List Byte := if v = 0x8000 then Config.wording 14 else tenthsInt v.toInt ++ ascii " dB"

def pairsetText (p : BitVec 2) : List Byte := (if p.getLsbD 0 then ascii "A" else []) ++ (if p.getLsbD 1 then ascii "B" else [])

def ownerText (i : IsletNo) : List Byte := if i = 0 then ascii "-" else dec i.val

/-- Causes of a removal of power (11 `SEAT_POWER_STATUS`). -/
def causeText (n : Nat) : List Byte :=
  if n = 1 then ascii "SHORT" else if n = 2 then ascii "OVERLOAD" else if n = 6 then ascii "FOREIGN" else if n = 8 then ascii "CYCLE"
  else if n = 9 then ascii "TEST" else Config.wording (30 + n)

def State.headText (s : State) (x : Seat) (l : Fin 2) : List Byte :=
  let h := unitHead x l
  let v := s.head h
  dec l.val ++ (match v.st with
    | .absent => ascii " ABSENT"
    | .detached => ascii " DETACHED"
    | .attached => ascii " ATTACHED " ++ dec v.timing.h ++ ascii "x" ++ dec v.timing.v ++ ascii " applied 0x" ++ hex 4 (s.view h).applied.toNat)

def State.portText (s : State) (x : Seat) (p : RootPort) : List Byte :=
  let r := s.rootPort x p
  dec (p.val + 1) ++ sp ++ r.st.name ++ speedText r.speed

def State.seatLines (s : State) (x : Seat) : List (List Byte) :=
  let l := s.link_ x
  let t := s.seatTime x
  let v := s.seatPower x
  let n := match (s.usbSeat x).profile with
    | some p => p.rootPorts
    | none => 0
  let rate := if l.rate = 0 then [] else sp ++ rateText l.rate.toNat
  [seatText x ++ ascii " core " ++ coreLetter (s.servingCore x) ++ ascii "  link " ++ (s.linkState x).short ++ rate ++
      ascii "  epoch 0x" ++ hex 4 l.epoch.toNat ++ ascii "  dock .." ++ hex 4 (l.dockId.toNat % 65536) ++ ascii "  lock " ++ dec t.lock.toNat ++
      ascii "  phase " ++ decInt t.phase.toInt ++ ascii " ns  delay " ++ dec t.dDelay ++ ascii " ns",
    ascii "margin " ++ marginText (s.margins x).1 ++ ascii "  min " ++ marginText (s.margins x).2 ++ ascii "  dock " ++ marginText t.dockMargin ++
      ascii "  last down " ++ downText l.downCause.toNat ++ ascii "  hold " ++ dec (min 4000 l.holdMs.toNat) ++ ascii " ms",
    ascii "power " ++ v.st.name ++ (if v.st = .fault ∨ v.st = .shed then ascii "  " ++ causeText v.cause.toNat else []) ++
      ascii "  class " ++ dec v.assigned ++ ascii " of " ++ dec v.requested ++ ascii "  pairsets " ++ pairsetText v.pairsets ++ ascii "  " ++
      tenths v.mean1s ++ ascii " W  map 0x" ++ hex 2 v.pairMap.toNat ++ ascii "  islet " ++ ownerText (s.owner x),
    ascii "usb " ++ dec n ++ ascii " ports" ++ (if n = 0 then [] else
      ascii ": " ++ joined (ascii ", ") (((List.finRange 8).filter fun p => decide (p.val < n)).map fun p => s.portText x p)),
    ascii "heads: " ++ s.headText x 0 ++ ascii ", " ++ s.headText x 1]

def State.seatRow (s : State) (x : Seat) : List Byte :=
  let l := s.link_ x
  let v := s.seatPower x
  joined sp [seatText x, coreLetter (s.servingCore x), (s.linkState x).short, rateText l.rate.toNat, v.st.name, dec v.assigned, ownerText (s.owner x)]

def SupplySt.low4 (v : SupplySt) : Nat := b2n v.present + 2 * b2n v.acOk + 4 * b2n v.dcOk + 8 * b2n v.overload

def SupplySt.line (v : SupplySt) : List Byte := joined sp [tenths v.vin, dec v.pout, dec v.rating, hex 1 v.low4]

def State.supplyLines (s : State) : List (List Byte) :=
  [ascii "A " ++ s.pow.sa.line, ascii "B " ++ s.pow.sb.line, joined sp [dec s.pow.budget, dec s.drawW, dec s.pow.sheds.toNat]]

def State.fanLines (s : State) : List (List Byte) :=
  allFans.map fun n => dec (n.val + 1) ++ sp ++ dec (s.fan n).rpm ++ sp ++ s.fanWord n

def LogRec.line (r : LogRec) : List Byte :=
  joined sp [dec r.seq.toNat, dec r.ut, errName r.code.toNat, dec r.severity.toNat, dec r.location.toNat, dec r.count.toNat]

def State.errorLines (s : State) (c : CoreId) : List (List Byte) :=
  (match c with
    | .a => s.flt.logA
    | .b => s.flt.logB).map LogRec.line

/-- The expected range of a test point, in mV: TP6 and TP7 with their rail lowered read lower (R380). -/
def State.tpRange (s : State) (n : Nat) : Nat × Nat :=
  let vte (c : CoreId) : Nat × Nat := if (s.powCore c).vteLow then (530, 570) else (720, 780)
  if n = 1 then (11400, 12600) else if n = 2 then (52000, 56000) else if n = 3 then (3200, 3400) else if n ≤ 5 then (770, 830)
  else if n = 6 then vte .a else if n = 7 then vte .b else (1740, 1860)

/-- A voltage in mV, to 10 mV. -/
def volts (mV : Nat) : List Byte := dec (mV / 1000) ++ ascii "." ++ decPad 2 (mV % 1000 / 10)

def State.tpLines (s : State) (mV : List Nat) : List (List Byte) :=
  (List.range 8).map fun k =>
    let r := s.tpRange (k + 1)
    ascii "TP" ++ dec (k + 1) ++ sp ++ volts ((mV[k]?).getD 0) ++ ascii " V  " ++ volts r.1 ++ ascii " to " ++ volts r.2 ++ ascii " V"

def State.testLines (s : State) : List (List Byte) :=
  (List.range 10).map fun k => testText (k + 1) ++ sp ++ testName (k + 1) ++ sp ++ verdictText (tget s.svc.verdicts (k + 1) 0)

/-- What a continuity test reads (R382). -/
def ContRead.text : ContRead → List Byte
  | .none => Config.wording 15
  | .open_ => ascii "open"
  | .load r => ascii "load " ++ decInt r
  | .loop r => ascii "loop " ++ tenthsInt r ++ ascii " ohm (about " ++ decInt ((r * 100 + 94) / 188) ++ ascii " m)"
  | .foreign => ascii "foreign voltage"

/-- What the cable test finds on a pair (R383). -/
def cableText (p : Fin 4) : CableResult → List Byte
  | .ok => pairText p ++ ascii " OK"
  | .open_ m => pairText p ++ ascii " OPEN " ++ dec m ++ ascii " m"
  | .short m => pairText p ++ ascii " SHORT " ++ dec m ++ ascii " m"
  | .crossed => pairText p ++ ascii " CROSSED"

/-- A command as the event log names it. -/
def ConsCmd.text : ConsCmd → List Byte
  | .help => ascii "help"
  | .status => ascii "status"
  | .seatShow x => ascii "seat show " ++ decPad 2 x.val
  | .seatList => ascii "seat list"
  | .seatCycle x => ascii "seat cycle " ++ decPad 2 x.val
  | .seatCont x p b => ascii "seat cont " ++ decPad 2 x.val ++ sp ++ pairText p ++ (if b then ascii " blink" else [])
  | .seatContRead => ascii "seat cont"
  | .seatContOff => ascii "seat cont off"
  | .seatTdr x => ascii "seat tdr " ++ decPad 2 x.val
  | .supply => ascii "supply"
  | .fans => ascii "fans"
  | .log n => ascii "log" ++ (match n with
    | some k => sp ++ dec k
    | none => [])
  | .logPrev => ascii "log prev"
  | .errors c => ascii "errors" ++ (match c with
    | some k => sp ++ coreLetter k
    | none => [])
  | .tp => ascii "tp"
  | .meas n => ascii "meas " ++ decPad 2 n
  | .testList => ascii "test list"
  | .testRun n => ascii "test run " ++ dec n
  | .service => ascii "service"
  | .serviceEnd => ascii "service end"
  | .warm => ascii "warm"
  | .cold n => ascii "cold" ++ (match n with
    | some k => sp ++ dec k.val
    | none => [])
  | .restart => ascii "restart"
  | .stop => ascii "stop"

/-! ### Reading a line (R373, R375) -/

/-- The words of a line: runs of characters between spaces. -/
def wordsAux : List Byte → List Byte → List (List Byte)
  | w, [] => if w.isEmpty then [] else [w]
  | w, c :: r => if c = 0x20 then (if w.isEmpty then wordsAux [] r else w :: wordsAux [] r) else wordsAux (w ++ [c]) r

def lineWords (l : List Byte) : List (List Byte) := wordsAux [] l

def isDigit (c : Byte) : Bool := decide (48 ≤ c.toNat ∧ c.toNat ≤ 57)

/-- A decimal number. -/
def numberOf (w : List Byte) : Option Nat :=
  if !w.isEmpty && w.all isDigit then some (w.foldl (fun v (c : Byte) => 10 * v + (c.toNat - 48)) 0) else none

/-- A seat number: two digits (00 R9). -/
def seatOf (w : List Byte) : Option Seat :=
  if w.length = 2 then (numberOf w).bind fun n => if n ≤ 63 then some (toSeat n) else none else none

def pairOf (w : List Byte) : Option (Fin 4) :=
  if w = ascii "A" then some 0 else if w = ascii "B" then some 1 else if w = ascii "C" then some 2 else if w = ascii "D" then some 3 else none

def coreOf (w : List Byte) : Option CoreId := if w = ascii "A" then some .a else if w = ascii "B" then some .b else none

def slotNo (w : List Byte) : Option (Fin 2) := if w = ascii "0" then some 0 else if w = ascii "1" then some 1 else none

/-- A command of one word. -/
def parse1 (a : List Byte) : Option ConsCmd :=
  if a = ascii "help" then some .help else if a = ascii "status" then some .status else if a = ascii "supply" then some .supply
  else if a = ascii "fans" then some .fans else if a = ascii "log" then some (.log none) else if a = ascii "errors" then some (.errors none)
  else if a = ascii "tp" then some .tp else if a = ascii "service" then some .service else if a = ascii "warm" then some .warm
  else if a = ascii "cold" then some (.cold none) else if a = ascii "restart" then some .restart else if a = ascii "stop" then some .stop
  else none

/-- A command of two words: the command, or the word that is none of its words. -/
def parse2 (a b : List Byte) : ConsCmd ⊕ List Byte :=
  let or' (o : Option ConsCmd) : ConsCmd ⊕ List Byte := match o with
    | some c => .inl c
    | none => .inr b
  if a = ascii "seat" then
    or' (if b = ascii "list" then some .seatList else if b = ascii "cont" then some .seatContRead else none)
  else if a = ascii "log" then
    or' (if b = ascii "prev" then some .logPrev else (numberOf b).map fun n => .log (some n))
  else if a = ascii "errors" then or' ((coreOf b).map fun c => .errors (some c))
  else if a = ascii "meas" then or' ((numberOf b).map .meas)
  else if a = ascii "test" then or' (if b = ascii "list" then some .testList else none)
  else if a = ascii "service" then or' (if b = ascii "end" then some .serviceEnd else none)
  else if a = ascii "cold" then or' ((slotNo b).map fun n => .cold (some n))
  else if (parse1 a).isSome then .inr b
  else .inr a

/-- A command of three words or more. -/
def parse3 (a b c : List Byte) (rest : List (List Byte)) : ConsCmd ⊕ List Byte :=
  let seat (f : Seat → ConsCmd) : ConsCmd ⊕ List Byte := match seatOf c, rest with
    | some x, [] => .inl (f x)
    | some _, w :: _ => .inr w
    | none, _ => .inr c
  if a = ascii "seat" then
    if b = ascii "show" then seat .seatShow
    else if b = ascii "cycle" then seat .seatCycle
    else if b = ascii "tdr" then seat .seatTdr
    else if b = ascii "cont" then
      if c = ascii "off" then (match rest with
        | [] => .inl .seatContOff
        | w :: _ => .inr w)
      else match seatOf c, rest with
        | none, _ => .inr c
        | some _, [] => .inr c
        | some x, w :: r => match pairOf w, r with
          | none, _ => .inr w
          | some p, [] => .inl (.seatCont x p false)
          | some p, v :: t => if v = ascii "blink" ∧ t = [] then .inl (.seatCont x p true) else .inr v
    else .inr b
  else if a = ascii "test" ∧ b = ascii "run" then
    match numberOf c, rest with
    | some n, [] => .inl (.testRun n)
    | some _, w :: _ => .inr w
    | none, _ => .inr c
  else match parse2 a b with
    | .inl _ => .inr c
    | .inr w => .inr w

/-- A line as a command, or the unknown word; an empty line is neither. -/
def parseLine (l : List Byte) : Option (ConsCmd ⊕ List Byte) :=
  match lineWords l with
  | [] => none
  | [a] => some (match parse1 a with
    | some c => .inl c
    | none => .inr a)
  | [a, b] => some (parse2 a b)
  | a :: b :: c :: r => some (parse3 a b c r)

end Sys2Proof.Machine
end

