-- ==== Sys2Proof/Machine/Service.lean ====
section
/-! DEFINITION. Field service: the recorder console, the meter jacks, the seat tests, the front panel, the self-tests
and the service USB port (15 R373 to R387). -/

namespace Sys2Proof.Machine

/-! ### Who serves the console (R374) -/

/-- The console has power. -/
def State.consoleLive (s : State) : Bool := s.mode.mode != .unpowered

/-- The token holder's supervisor runs: a supervisor serves the console. -/
def State.consoleServed (s : State) : Bool :=
  s.consoleLive && s.mode.mode != .unsupervised && s.serves s.flt.token && (s.coreSt s.flt.token).sup == .running

/-- A resting mode or SERVICE. -/
def Mode.restsOrServes (m : Mode) : Bool := m.isResting || m == .service

/-! ### Seat tests (R381 to R383) -/

/-- A seat test is allowed on a seat: none, or the reply that refuses it (R381). -/
def State.seatTestRefusal (s : State) (x : Seat) : Option (List Byte) :=
  if s.mode.mode = .service then none
  else if s.mode.mode.isResting then (if s.owner x = 0 then none else some (ascii "! seat owned"))
  else some (ascii "! not in " ++ s.mode.mode.text)

/-- A seat test starts: power off with cause `TEST`, link down with cause `PHY`, no detection (R381). -/
def State.testBegins (s : State) (x : Seat) : State :=
  let s := s.removePower x 9 .test 0
  s.linkDone x (s.goDown x 1 false)

/-- A seat test ends: the port detects again. -/
def State.testEnds (s : State) (x : Seat) : State :=
  let v := s.seatPower x
  if v.st = .test then (s.putPower x { v with st := .detecting, waitUntil := 0 }).powerAllowed x else s

/-- The continuity test in progress ends. -/
def State.contEnd (s : State) : State :=
  match s.svc.cont with
  | some t => (s.setSvc { s.svc with cont := none }).testEnds t.seat
  | none => s

/-- The reading of a voltage at the jack, in mV (R382). -/
def contRead (mV : Int) : ContRead :=
  if 10500 < mV ∨ mV < -500 then .foreign
  else if 9900 ≤ mV then .open_
  else
    let deci := (20000 * mV + (10000 - mV)) / (2 * (10000 - mV))
    if 1000 * mV < 200 * (10000 - mV) then .loop deci else .load ((2000 * mV + (10000 - mV)) / (2 * (10000 - mV)))

/-- A measurement of the running continuity test; a foreign voltage ends it (R382). -/
def State.contMeasure (s : State) (mV : Int) : State :=
  match s.svc.cont with
  | none => s
  | some t =>
    let r := contRead mV
    let s := s.setSvc { s.svc with cont := some { t with reading := r } }
    if r = .foreign then (s.consoleOut r.text).contEnd else s

def execContinuityMeasure (mV : Int) (ut : Nat) (s : State) : Host.Outcome State Fault Refusal :=
  .next ((s.arrive ut).contMeasure mV)

/-- The cable test ends (R381, R383). -/
def State.tdrEnd (s : State) : State :=
  match s.svc.tdr with
  | some (x, _) => (s.setSvc { s.svc with tdr := none }).testEnds x
  | none => s

/-- A seat is under a continuity test, or under a cable test. -/
def State.contOn (s : State) (x : Seat) : Bool :=
  match s.svc.cont with
  | some t => t.seat == x
  | none => false
def State.tdrOn (s : State) (x : Seat) : Bool :=
  match s.svc.tdr with
  | some (y, _) => y == x
  | none => false

/-- A continuity test starts: it ends the one before, and a cable test of its seat (DESIGN CHOICE, log entry 131). -/
def State.contBegin (s : State) (x : Seat) (p : Fin 4) (blink : Bool) : State :=
  let s := s.contEnd
  let s := (if s.tdrOn x then s.tdrEnd else s).testBegins x
  s.setSvc { s.svc with cont := some { seat := x, pair := p, blink := blink, started := s.now, reading := .none } }

def execContinuityTimeout (ut : Nat) (s : State) : Host.Outcome State Fault Refusal :=
  let s := s.arrive ut
  .next (match s.svc.cont with
    | some t => if t.started + 600000 * ms ≤ s.now then s.contEnd else s
    | none => s)

def State.tdrBegin (s : State) (x : Seat) (p : Option ConsPort) : State :=
  let s := s.tdrEnd.testBegins x
  s.setSvc { s.svc with tdr := some (x, p) }

def cableDistance : CableResult → Option Nat
  | .open_ m => some m
  | .short m => some m
  | _ => none

def cablePair (pairs : List (Fin 4 × CableResult)) (p : Fin 4) : CableResult :=
  match pairs.find? (fun e => e.1 == p) with
  | some e => e.2
  | none => .ok

/-- The cable test reports each pair; the first distance is kept in `OPEN_DISTANCE` (R383). -/
def State.cableDone (s : State) (pairs : List (Fin 4 × CableResult)) : State :=
  match s.svc.tdr with
  | none => s
  | some (x, p) =>
    let all := (List.finRange 4).map fun k => (k, cablePair pairs k)
    let s := s.setSvc { s.svc with cable := all }
    let s := match all.findSome? fun e => cableDistance e.2 with
      | some m => s.setSeatPower x { s.seatPower x with openDistance := BitVec.ofNat 8 (min 0xFE m) }
      | none => s
    let s := s.tdrEnd
    if p.isSome then (s.say (all.map fun e => cableText e.1 e.2)).prompt else s

def execCableTestDone (pairs : List (Fin 4 × CableResult)) (s : State) : Host.Outcome State Fault Refusal :=
  .next (s.cableDone pairs)

/-! ### Meter jacks (R379) -/

/-- A value beyond the range is held at 0 V or 9.9 V. -/
def held (mV : Int) : Nat := min 9900 mV.toNat

/-- The voltage of the selected encoding, in mV (R379). -/
def State.measValue (s : State) (code : Nat) : Nat :=
  let x := s.svc.selected
  let vin (v : SupplySt) : Nat := if v.acOk then held (10 * v.vin / 3 : Nat) else 0
  if code = 0 then held (500 * s.mode.mode.code : Nat)
  else if code = 1 then
    (if s.svc.lastVerdict = 0 then 1000 else if s.svc.lastVerdict = 1 then 6000 else if s.svc.lastVerdict = 2 then 9000 else 3000)
  else if code = 2 then vin s.pow.sa
  else if code = 3 then vin s.pow.sb
  else if code = 4 then held (1000 * s.pow.budget / 160 : Nat)
  else if code = 5 then held (1000 * s.drawW / 160 : Nat)
  else if code = 6 then held (10 * (s.seatPower x).mean1s : Nat)
  else if code = 7 then
    let m := (s.margins x).2
    if m = 0x8000 then 10000 else held (100 * m.toInt)
  else if code = 8 then
    match s.svc.cont with
    | some t =>
      if t.seat ≠ x then 10000
      else match t.reading with
        | .loop r => held (5 * r)
        | .load r => held (50 * r)
        | _ => 10000
    | none => 10000
  else if code = 9 then held (80 * max s.mode.junctionA s.mode.junctionB)
  else if code = 10 then held (200 * s.mode.inlet)
  else if code = 11 then (if s.mode.first = 0 then 200 else held (500 * s.mode.first.toNat : Nat))
  else held (s.slowestFan : Nat)

/-- What MEAS gives from now on: nothing without power, the mode in UNSUPERVISED, its last value while no supervisor
serves (R379). -/
def State.measOut (s : State) : Nat :=
  if !s.consoleLive then 0
  else if s.mode.mode = .unsupervised then s.measValue 0
  else if s.consoleServed then s.measValue s.svc.measCode
  else s.svc.measMv

def execMeasUpdate (ut : Nat) (s : State) : Host.Outcome State Fault Refusal :=
  let s := s.arrive ut
  .next (if s.svc.measUt + 100 * ms ≤ s.now then s.setSvc { s.svc with measMv := s.measOut, measUt := s.now } else s)

/-! ### Self-tests (R387) -/

/-- A self-test is accepted now: none, or the reply that refuses it. -/
def State.selfTestRefusal (s : State) (n : Nat) : Option (List Byte) :=
  let m := s.mode.mode
  let no := some (ascii "! not in " ++ m.text)
  if s.svc.running.isSome then some (ascii "! busy")
  else if n = 4 then (if m.restsOrServes then none else no)
  else if n = 7 ∨ n = 9 then (if m = .service then none else no)
  else if n = 8 then (if m = .service ∧ s.serves .a ∧ s.serves .b then none else no)
  else if n = 10 then s.seatTestRefusal s.svc.selected
  else none

def State.linksDown (s : State) (l : List Seat) : State := l.foldl (fun s x => s.linkDone x (s.goDown x 1 false)) s

/-- A self-test starts; tests 7, 8 and 10 take links down (R387). -/
def State.selfTestBegins (s : State) (n : Nat) (p : Option ConsPort) : State :=
  let s := s.setSvc { s.svc with running := some (n, p), lastVerdict := 1 }
  if n = 7 ∨ n = 8 then s.linksDown allSeats else if n = 10 then s.linksDown [s.svc.selected] else s

/-- A self-test ends: its verdict is recorded (R387). -/
def State.selfTestEnds (s : State) (pass : Bool) (item : Nat) : State :=
  match s.svc.running with
  | none => s
  | some (n, p) =>
    let v := if pass then 2 else 3
    let t := testText n ++ sp ++ verdictText v
    let s := (s.setSvc { s.svc with running := none, lastVerdict := v, verdicts := tset s.svc.verdicts n v 0 }).logLine t
    if p.isSome then
      let extra : List Byte := if pass then (if n = 10 then sp ++ dec (s.seatPower s.svc.selected).requested else []) else sp ++ dec item
      (s.consoleOut (t ++ extra)).prompt
    else s

def execSelfTestDone (pass : Bool) (item : Nat) (s : State) : Host.Outcome State Fault Refusal :=
  .next (s.selfTestEnds pass item)

/-! ### What the console accepts (R374, R375) -/

/-- The commands accepted during a start, at its step (R374). -/
def ConsCmd.inStart (c : ConsCmd) (step : Nat) : Bool :=
  match c with
  | .service => true
  | .cold _ => true
  | .help => true
  | .status => true
  | .supply => true
  | .fans => true
  | .log _ => true
  | .logPrev => true
  | .tp => true
  | .meas _ => true
  | .testList => true
  | .errors _ => decide (4 ≤ step)
  | _ => false

/-- The mode accepts a command, apart from a start and UNSUPERVISED (R375). -/
def State.modeTakes (s : State) (c : ConsCmd) : Bool :=
  let m := s.mode.mode
  match c with
  | .seatCycle _ => m.restsOrServes
  | .warm => m.restsOrServes
  | .service => m.isResting && !s.anyIslet
  | .serviceEnd => m == .service
  | .restart => false
  | .stop => m != .safeStop
  | _ => true

/-- Why a command is refused, if it is (R375, R379, R381, R387). -/
def State.consoleRefusal (s : State) (c : ConsCmd) : Option (List Byte) :=
  match s.startStep with
  | some k => if c.inStart k then none else some (ascii "! starting")
  | none =>
    if !s.modeTakes c then some (ascii "! not in " ++ s.mode.mode.text)
    else match c with
      | .seatCont x _ _ => s.seatTestRefusal x
      | .seatTdr x => match s.seatTestRefusal x with
        | some r => some r
        | none => if s.contOn x then some (ascii "! seat busy") else none
      | .testRun n => if n = 0 ∨ 10 < n then some (ascii "? unknown: " ++ dec n) else s.selfTestRefusal n
      | _ => none

/-- The same for every mode: an encoding of MEAS that there is not. -/
def ConsCmd.unknown : ConsCmd → Option (List Byte)
  | .meas n => if 12 < n then some (ascii "? unknown: " ++ decPad 2 n) else none
  | _ => none

def ConsCmd.confirms : ConsCmd → Bool
  | .seatCycle _ => true
  | .warm => true
  | .cold _ => true
  | .stop => true
  | _ => false

/-- The seat that a seat command names (R379). -/
def ConsCmd.seat : ConsCmd → Option Seat
  | .seatShow x => some x
  | .seatCycle x => some x
  | .seatCont x _ _ => some x
  | .seatTdr x => some x
  | _ => none

/-! ### What the commands do (R375) -/

/-- `service`: SERVICE is entered, or recorded for the start (12 R326, R328). -/
def State.serviceBegin (s : State) : State :=
  match s.theStart with
  | some x => s.setMode { s.mode with start := some { x with recordService := true } }
  | none => if s.mode.mode.isResting && !s.anyIslet then s.enterMode .service else s

def State.serviceStop (s : State) : State := if s.mode.mode = .service then s.enterMode s.resting else s

/-- The referee restarts the supervisor of every unfenced core (12 R334). -/
def State.restartSups (s : State) : State :=
  bothCores.foldl (fun s c => if (s.coreSt c).fenced then s else s.setCore c { s.coreSt c with sup := .restarting }) s

def lastLines (n : Nat) (l : List (List Byte)) : List (List Byte) := l.drop (l.length - n)

/-- Readings that a command does not bring are free (log entry 3). -/
def State.freeReadings (s : State) : Nat → List Nat × State
  | 0 => ([], s)
  | n + 1 =>
    let (k, s) := s.draw
    let (r, s) := s.freeReadings n
    ((Config.freeWord k).toNat % 65536 :: r, s)

/-- Carry out an accepted and, where needed, confirmed command. `rails`: the readings of TP1 to TP8. -/
def State.consoleCarry (s : State) (p : ConsPort) (c : ConsCmd) (rails : Option (List Nat)) : State :=
  match c with
  | .help => (s.say helpLines).prompt
  | .status => (s.say s.statusLines).prompt
  | .seatShow x => (s.say (s.seatLines x)).prompt
  | .seatList => (s.say (allSeats.map s.seatRow)).prompt
  | .seatCycle x => ((s.cyclePort x).consoleOut (seatText x ++ ascii " cycled")).prompt
  | .seatCont x q b =>
    ((s.contBegin x q b).consoleOut (seatText x ++ ascii " pair " ++ pairText q ++ ascii ": 10.0 V via 1 kohm")).prompt
  | .seatContRead => (s.consoleOut (match s.svc.cont with
      | some t => t.reading.text
      | none => ascii "no test")).prompt
  | .seatContOff => (match s.svc.cont with
      | some t => s.contEnd.consoleOut (seatText t.seat ++ ascii " test ended")
      | none => s.consoleOut (ascii "no test")).prompt
  | .seatTdr x => s.tdrBegin x (some p)
  | .supply => (s.say s.supplyLines).prompt
  | .fans => (s.say s.fanLines).prompt
  | .log n => (s.say (lastLines (n.getD 20) s.svc.log)).prompt
  | .logPrev => (s.say s.svc.saved).prompt
  | .errors k => (s.say (s.errorLines (k.getD s.flt.token))).prompt
  | .tp =>
    let (v, s) := match rails with
      | some v => (v, s)
      | none => s.freeReadings 8
    (s.say (s.tpLines v)).prompt
  | .meas n =>
    let s := s.setSvc { s.svc with measCode := n }
    (s.consoleOut (measName n ++ sp ++ volts (s.measValue n) ++ ascii " V")).prompt
  | .testList => (s.say s.testLines).prompt
  | .testRun n => s.selfTestBegins n (some p)
  | .service => s.serviceBegin.prompt
  | .serviceEnd => s.serviceStop.prompt
  | .warm => (s.warmBegin s.runningImage).prompt
  | .cold n => (s.coldRequest n).prompt
  | .restart => s.restartSups
  | .stop => (s.safeStop 4).prompt

def consPortText (p : ConsPort) : List Byte := if p = .rj45 then ascii "RJ45 " else ascii "USB "

/-- A reply that ends a command without carrying it out. -/
def State.consoleReply (s : State) (r : List Byte) : State := (s.consoleOut r).prompt

/-- The referee's console takes `cold` and `restart` alone, without confirmation (R374). -/
def State.refereeLine (s : State) (p : ConsPort) (c : ConsCmd) : State :=
  if c = .cold none then (s.logLine (consPortText p ++ c.text)).coldRequest none
  else if c = .restart then (s.logLine (consPortText p ++ c.text)).restartSups
  else s

/-- A command arrives on a port, with no other waiting for its confirmation. -/
def State.consoleCmd (s : State) (p : ConsPort) (c : ConsCmd) (rails : Option (List Nat)) : State :=
  if s.mode.mode = .unsupervised then s.refereeLine p c
  else
    let s := s.logLine (consPortText p ++ c.text)
    match (match c.unknown with
      | some r => some r
      | none => s.consoleRefusal c) with
    | some r => s.consoleReply r
    | none =>
      let s := match c.seat with
        | some x => s.setSvc { s.svc with selected := x }
        | none => s
      if c.confirms then
        (s.consoleOut (ascii "confirm? (yes)")).setSvc { (s.consoleOut (ascii "confirm? (yes)")).svc with confirm := some (p, c, s.now) }
      else s.consoleCarry p c rails

/-- A waiting command is cancelled (R375). -/
def State.consoleCancel (s : State) : State := (s.setSvc { s.svc with confirm := none }).consoleReply (ascii "cancelled")

/-- A line arrives on a port (R374, R375): in UNSUPERVISED the referee reads it; `yes` on the port that was asked, within 30 s, carries the waiting command out; any
other line cancels it. A line of the port that was asked is its answer; a line of the other port, or one that comes too
late, is then carried out itself (log entry 21). -/
def State.consoleEnter (s : State) (p : ConsPort) (yes : Bool) (run : State → State) : State :=
  if !s.consoleLive then s
  else
    let s := s.setMode { s.mode with lastInput := s.now }
    match s.svc.confirm with
    | none => run s
    | some (q, c, t) =>
      if s.mode.mode = .unsupervised then run s
      else if s.now < t + 30000 * ms ∧ p = q then
        if yes then
          let s := s.setSvc { s.svc with confirm := none }
          match s.consoleRefusal c with
          | some r => s.consoleReply r
          | none => s.consoleCarry p c none
        else s.consoleCancel
      else run s.consoleCancel

/-- One command line. -/
def State.consoleRun (s : State) (p : ConsPort) (c : ConsCmd) (rails : Option (List Nat)) : State :=
  s.consoleEnter p false fun s => s.consoleCmd p c rails

/-- One line as text. -/
def State.consoleText (s : State) (p : ConsPort) (line : List Byte) : State :=
  s.consoleEnter p (decide (lineWords line = [ascii "yes"])) fun s =>
    match parseLine line with
    | some (.inl c) => s.consoleCmd p c none
    | some (.inr w) =>
      if s.mode.mode = .unsupervised then s
      else if s.startStep.isSome then s.consoleReply (ascii "! starting")
      else s.consoleReply (ascii "? unknown: " ++ w)
    | none => if s.mode.mode = .unsupervised then s else s.prompt

/-! ### Characters and lines (R373) -/

def SvcSt.line (v : SvcSt) (p : ConsPort) : List Byte := if p = .rj45 then v.lineRj else v.lineUsb
def SvcSt.setLine (v : SvcSt) (p : ConsPort) (l : List Byte) : SvcSt := if p = .rj45 then { v with lineRj := l } else { v with lineUsb := l }

/-- The line of a port is complete. -/
def State.lineEnds (s : State) (p : ConsPort) : State :=
  let l := s.svc.line p
  (s.setSvc (s.svc.setLine p [])).consoleText p l

/-- Each port echoes its own input. -/
def State.echo (s : State) (p : ConsPort) (c : Byte) : State :=
  match p with
  | .rj45 => s.setSvc { s.svc with outRj := s.svc.outRj ++ [c] }
  | .usbc => s.setSvc { s.svc with usb := s.svc.usb.give [c] }

/-- A character arrives: it raises the supervisor's private source 6 (05 R147); CR ends the line, LF is ignored, BS and DEL
remove, 80 characters at most. -/
def State.rxChar (s : State) (p : ConsPort) (c : Byte) : State :=
  if !s.consoleLive then s
  else
    let s := s.privEdge s.flt.token 32 6
    let s := s.setMode { s.mode with lastInput := s.now }
    let l := s.svc.line p
    if c = 0x0A then s
    else if c = 0x0D then (s.echo p c).lineEnds p
    else if c = 0x08 ∨ c = 0x7F then (s.echo p c).setSvc ((s.echo p c).svc.setLine p l.dropLast)
    else if l.length < 80 then (s.echo p c).setSvc ((s.echo p c).svc.setLine p (l ++ [c]))
    else s.echo p c

def execConsoleRxCharacter (p : ConsPort) (ch : Byte) (s : State) : Host.Outcome State Fault Refusal := .next (s.rxChar p ch)

def execConsoleLine (p : ConsPort) (s : State) : Host.Outcome State Fault Refusal :=
  .next (if s.consoleLive then s.lineEnds p else s)

def execHelp (p : ConsPort) (s : State) : Host.Outcome State Fault Refusal := .next (s.consoleRun p .help none)
def execStatus (p : ConsPort) (s : State) : Host.Outcome State Fault Refusal := .next (s.consoleRun p .status none)
def execSeatShow (p : ConsPort) (x : Seat) (s : State) : Host.Outcome State Fault Refusal := .next (s.consoleRun p (.seatShow x) none)
def execSeatList (p : ConsPort) (s : State) : Host.Outcome State Fault Refusal := .next (s.consoleRun p .seatList none)
def execSeatCycle (p : ConsPort) (x : Seat) (s : State) : Host.Outcome State Fault Refusal := .next (s.consoleRun p (.seatCycle x) none)
def execSeatCont (p : ConsPort) (x : Seat) (pair : Fin 4) (blink : Bool) (s : State) : Host.Outcome State Fault Refusal :=
  .next (s.consoleRun p (.seatCont x pair blink) none)
def execSeatContRead (p : ConsPort) (s : State) : Host.Outcome State Fault Refusal := .next (s.consoleRun p .seatContRead none)
def execSeatContOff (p : ConsPort) (s : State) : Host.Outcome State Fault Refusal := .next (s.consoleRun p .seatContOff none)
def execSeatTdr (p : ConsPort) (x : Seat) (s : State) : Host.Outcome State Fault Refusal := .next (s.consoleRun p (.seatTdr x) none)
def execSupply (p : ConsPort) (s : State) : Host.Outcome State Fault Refusal := .next (s.consoleRun p .supply none)
def execFans (p : ConsPort) (s : State) : Host.Outcome State Fault Refusal := .next (s.consoleRun p .fans none)
def execLog (p : ConsPort) (n : Option Nat) (s : State) : Host.Outcome State Fault Refusal := .next (s.consoleRun p (.log n) none)
def execLogPrev (p : ConsPort) (s : State) : Host.Outcome State Fault Refusal := .next (s.consoleRun p .logPrev none)
def execErrors (p : ConsPort) (c : Option CoreId) (s : State) : Host.Outcome State Fault Refusal := .next (s.consoleRun p (.errors c) none)
def execTp (p : ConsPort) (mV : List Nat) (s : State) : Host.Outcome State Fault Refusal := .next (s.consoleRun p .tp (some mV))
def execMeas (p : ConsPort) (code : Nat) (s : State) : Host.Outcome State Fault Refusal := .next (s.consoleRun p (.meas code) none)
def execTestList (p : ConsPort) (s : State) : Host.Outcome State Fault Refusal := .next (s.consoleRun p .testList none)
def execTestRun (p : ConsPort) (n : Nat) (s : State) : Host.Outcome State Fault Refusal := .next (s.consoleRun p (.testRun n) none)
def execService (p : ConsPort) (s : State) : Host.Outcome State Fault Refusal := .next (s.consoleRun p .service none)
def execServiceEnd (p : ConsPort) (s : State) : Host.Outcome State Fault Refusal := .next (s.consoleRun p .serviceEnd none)
def execConsoleWarm (p : ConsPort) (s : State) : Host.Outcome State Fault Refusal := .next (s.consoleRun p .warm none)
def execConsoleCold (p : ConsPort) (slot : Option (Fin 2)) (s : State) : Host.Outcome State Fault Refusal :=
  .next (s.consoleRun p (.cold slot) none)
def execConsoleRestart (p : ConsPort) (s : State) : Host.Outcome State Fault Refusal := .next (s.consoleRun p .restart none)
def execConsoleStop (p : ConsPort) (s : State) : Host.Outcome State Fault Refusal := .next (s.consoleRun p .stop none)

/-- The next line after `confirm? (yes)`. -/
def execConfirmReply (p : ConsPort) (line : List Byte) (s : State) : Host.Outcome State Fault Refusal := .next (s.consoleText p line)

/-- 30 s without a reply (R375). -/
def execConfirmTimeout (ut : Nat) (s : State) : Host.Outcome State Fault Refusal :=
  let s := s.arrive ut
  .next (match s.svc.confirm with
    | some (_, _, t) => if t + 30000 * ms ≤ s.now then s.consoleCancel else s
    | none => s)

/-- Every 10 s in UNSUPERVISED (R374). -/
def execUnsupervisedNotice (ut : Nat) (s : State) : Host.Outcome State Fault Refusal :=
  let s := s.arrive ut
  .next (if s.mode.mode = .unsupervised ∧ s.svc.noticeUt + 10000 * ms ≤ s.now then
      (s.consoleOut (ascii "recorder offline: UNSUPERVISED")).setSvc
        { (s.consoleOut (ascii "recorder offline: UNSUPERVISED")).svc with noticeUt := s.now }
    else s)

/-! ### The front panel (R384 to R386) -/

def State.setPanel (s : State) (v : Panel) : State := s.setSvc { s.svc with panel := v }

/-- The last choice that an item's taps step to: pairs, codes, tests. -/
def lastChoice (item : Nat) : Nat := if item = 4 then 3 else if item = 6 then 12 else if item = 7 then 9 else 0

/-- A tap steps through an item's choices and then to the next item, from the last to the first (log entry 22). -/
def Panel.tap (v : Panel) (now : Nat) : Panel :=
  let v := { v with lastPress := now, sureUt := none, noUt := none, sub := if v.item = 1 then v.sub else 0 }
  if v.item = 1 ∧ v.sub = 1 then { v with value := (v.value / 10 + 1) % 7 * 10 + v.value % 10 }
  else if v.item = 1 ∧ v.sub = 2 then
    let n := if v.value / 10 = 6 then 4 else 10
    { v with value := v.value / 10 * 10 + (v.value % 10 + 1) % n }
  else if v.value < lastChoice v.item then { v with value := v.value + 1 }
  else { v with item := if v.item = 9 then 1 else v.item + 1, sub := 0, value := 0 }

/-- The panel works outside starts. -/
def State.panelOn (s : State) : Bool := s.consoleLive && s.startStep.isNone

def execSelectTap (ut : Nat) (s : State) : Host.Outcome State Fault Refusal :=
  let s := s.arrive ut
  .next (if s.panelOn then s.setPanel (s.svc.panel.tap s.now) else s)

/-- A refused request shows `NO` for 2 s. -/
def State.panelNo (s : State) : State := s.setPanel { s.svc.panel with noUt := some (s.now + 2000 * ms) }

/-- Digits of a seat: the digits that editing starts from are open (log entry 3). -/
def State.seatDigits (s : State) : State :=
  let v := s.svc.panel
  if v.sub = 0 then
    let (k, s) := s.draw
    s.setPanel { v with sub := 1, value := (Config.freeWord k).toNat % 7 * 10 }
  else if v.sub = 1 then
    let (k, s) := s.draw
    let n := if v.value / 10 = 6 then 4 else 10
    s.setPanel { v with sub := 2, value := v.value / 10 * 10 + (Config.freeWord k).toNat % n }
  else (s.setSvc { s.svc with selected := toSeat v.value }).setPanel { v with sub := 0, value := 0 }

/-- A hold acts on the shown item (R385). A cable test or a self-test that the panel has started shows its result. -/
def State.panelHold (s : State) : State :=
  let v := s.svc.panel
  let x := s.svc.selected
  let try' (refused : Bool) (f : State) : State := if refused then s.panelNo else f
  if v.item = 1 then s.seatDigits
  else if v.item = 4 then
    (if s.svc.cont.isSome then s.contEnd else try' (s.seatTestRefusal x).isSome (s.contBegin x (toFin 3 v.value) true))
  else if v.item = 5 then try' ((s.seatTestRefusal x).isSome || s.contOn x) ((s.tdrBegin x none).setPanel { v with sub := 1 })
  else if v.item = 6 then try' (s.mode.mode == .unsupervised) (s.setSvc { s.svc with measCode := v.value })
  else if v.item = 7 then
    try' (s.selfTestRefusal (v.value + 1)).isSome ((s.selfTestBegins (v.value + 1) none).setPanel { v with sub := 1 })
  else if v.item = 8 then try' (!s.modeTakes .service) s.serviceBegin
  else if v.item = 9 then
    match v.sureUt with
    | some t => if s.now < t then s.coldRequest none else s.setPanel { v with sureUt := some (s.now + 5000 * ms) }
    | none => s.setPanel { v with sureUt := some (s.now + 5000 * ms) }
  else s

/-- SELECT held through step 9 records SERVICE (R385; 12 R326). -/
def State.startHold (s : State) : State := if s.startStep = some 9 then s.serviceBegin else s

def execSelectHold (ut : Nat) (s : State) : Host.Outcome State Fault Refusal :=
  let s := s.arrive ut
  .next (if s.panelOn then (s.setPanel { s.svc.panel with lastPress := s.now }).panelHold else s.startHold)

def execSelectLongHold (ut : Nat) (s : State) : Host.Outcome State Fault Refusal :=
  let s := s.arrive ut
  .next (if s.panelOn then (s.setPanel { s.svc.panel with lastPress := s.now }).serviceStop else s.startHold)

/-- 60 s without a press. -/
def execPanelIdle (ut : Nat) (s : State) : Host.Outcome State Fault Refusal :=
  let s := s.arrive ut
  .next (if s.svc.panel.lastPress + 60000 * ms ≤ s.now then
      s.setPanel { s.svc.panel with item := 0, sub := 0, value := 0, sureUt := none, noUt := none }
    else s)

/-- What the display shows at rest (R384). `odd`: the second of the alternating texts. -/
def State.restText (s : State) (odd : Bool) : List Byte :=
  match s.startStep with
  | some k => ascii "ST " ++ dec k
  | none =>
    if s.mode.mode = .safeStop ∧ s.stopLeft ≠ 0 then (if odd then dec s.stopLeft else ascii "STOP")
    else if s.mode.reasons ≠ 0 then
      (if odd then ascii "C " ++ hex 2 (((List.range 16).find? fun n => s.mode.reasons.getLsbD n).getD 0) else ascii "SWAP")
    else s.mode.mode.text

/-- The link item's text (R385). -/
def State.linkItem (s : State) (x : Seat) : List Byte :=
  let r := (s.link_ x).rate.toNat
  if s.linkState x = .up then
    ascii "UP" ++ (if r = 1 then ascii "2" else if r = 2 then ascii "5" else if r = 3 then ascii "10" else ascii "25")
  else (s.linkState x).short

/-- The power item's text (R385). -/
def State.powerItem (s : State) (x : Seat) : List Byte :=
  match (s.seatPower x).st with
  | .powered => ascii "P" ++ dec ((s.seatPower x).mean1s / 10)
  | .powering => ascii "P" ++ dec ((s.seatPower x).mean1s / 10)
  | .off => ascii "OFF"
  | .waiting => ascii "WAIT"
  | .shed => ascii "SHED"
  | .fault => ascii "FLT"
  | _ => Config.wording 16

def ContRead.short : ContRead → List Byte
  | .open_ => ascii "OPEN"
  | .load _ => ascii "LOAD"
  | .loop r => decInt (r / 10)
  | _ => Config.wording 17

def cableShort (p : Fin 4) : CableResult → List Byte
  | .ok => pairText p ++ ascii " OK"
  | .open_ m => pairText p ++ sp ++ dec m
  | .short m => pairText p ++ sp ++ dec m
  | .crossed => pairText p ++ Config.wording 18

/-- What the display shows in the second `tick` (R384, R385): texts alternate, and the cable test's pairs take turns. -/
def State.display (s : State) (tick : Nat) : List Byte :=
  let v := s.svc.panel
  let x := s.svc.selected
  let no := match v.noUt with
    | some t => decide (s.now < t)
    | none => false
  let sure := match v.sureUt with
    | some t => decide (s.now < t)
    | none => false
  if s.startStep.isSome ∨ v.item = 0 then s.restText (tick % 2 == 1)
  else if no then ascii "NO"
  else if v.item = 1 then ascii "S" ++ decPad 2 (if v.sub = 0 then x.val else v.value)
  else if v.item = 2 then s.linkItem x
  else if v.item = 3 then s.powerItem x
  else if v.item = 4 then (match s.svc.cont with
    | some t => t.reading.short
    | none => ascii "CNT" ++ pairText (toFin 3 v.value))
  else if v.item = 5 then
    (match s.svc.cable[tick % 4]? with
      | some e => if v.sub = 1 ∧ s.svc.tdr.isNone then cableShort e.1 e.2 else ascii "TDR"
      | none => ascii "TDR")
  else if v.item = 6 then ascii "M" ++ decPad 2 v.value
  else if v.item = 7 then
    (if v.sub = 0 then ascii "T" ++ decPad 2 (v.value + 1)
      else if s.svc.running.isSome then ascii "RUN"
      else verdictText (tget s.svc.verdicts (v.value + 1) 0))
  else if v.item = 8 then ascii "SERV"
  else if sure then ascii "SURE" else ascii "COLD"

def SupplySt.lamp (v : SupplySt) : Lamp := if v.delivers then .on else if v.present && !v.acOk then .flashing else .off

/-- The lamp UNIT (R386). -/
def State.unitLamp (s : State) : Lamp :=
  let m := s.mode.mode
  if m.isResting then .on
  else if m.isStart || m == .service || m == .rolling then .flashing
  else if m = .safeStop ∨ m = .unpowered then .off
  else .unstated

/-- The lamp ATTN (R386). -/
def State.attnLamp (s : State) : Lamp :=
  let m := s.mode.mode
  if m = .unsupervised ∨ m = .safeStop then .flashing else if s.mode.reasons ≠ 0 then .on else .off

/-! ### The service USB port (R377, R378) -/

def State.setUsbDev (s : State) (v : SvcUsb) : State := s.setSvc { s.svc with usb := v }

/-- VBUS is there: the pull-up is connected once a supervisor serves the console. -/
def State.attachUsb (s : State) : State :=
  let u := { s.svc.usb with vbus := true }
  s.setUsbDev (if s.consoleServed then { u with pullup := true } else u)

def execVbusPresent (s : State) : Host.Outcome State Fault Refusal := .next s.attachUsb

def execVbusLost (s : State) : Host.Outcome State Fault Refusal := .next (s.setUsbDev { s.svc.usb.detach with vbus := false })

/-- A bus reset: the default state, the buffers empty; a stored line coding stays. -/
def execUsbBusReset (s : State) : Host.Outcome State Fault Refusal :=
  let u := s.svc.usb
  .next (if u.pullup then s.setUsbDev { SvcUsb.init with vbus := u.vbus, pullup := true, coding := u.coding } else s)

def execUsbSuspend (s : State) : Host.Outcome State Fault Refusal :=
  .next (if s.svc.usb.pullup then s.setUsbDev { s.svc.usb with suspended := true } else s)

def execUsbResume (s : State) : Host.Outcome State Fault Refusal :=
  .next (if s.svc.usb.suspended && s.consoleServed then s.setUsbDev { s.svc.usb with suspended := false } else s)

/-- A class request reaches the device: only a configured device has interfaces (log entry 23). -/
def State.classRequest (s : State) (f : SvcUsb → SvcUsb) : State :=
  let u := s.svc.usb
  if u.pullup && !u.suspended then s.setUsbDev (f { u with configured := true, stalled := false, reply := [] }) else s

def execSetLineCoding (coding : List Byte) (completed : Bool) (s : State) : Host.Outcome State Fault Refusal :=
  .next (if completed then s.classRequest fun u => { u with coding := some coding } else s)

/-- 115,200 baud, 1 stop bit, no parity, 8 data bits, as the CDC class lays them out (log entry 23). -/
def coding8n1 : List Byte := leBytes 4 115200 ++ [0, 0, 8]

def execGetLineCoding (s : State) : Host.Outcome State Fault Refusal :=
  .next (s.classRequest fun u => { u with reply := u.coding.getD coding8n1 })

/-- DTR; its rise sends one `SERIAL_STATE`. -/
def execSetControlLineState (dtr : Bool) (s : State) : Host.Outcome State Fault Refusal :=
  .next (s.classRequest fun u => { u with dtr := dtr, notify := u.notify || (dtr && !u.dtr) })

def execClassRequestStall (_request : Byte) (s : State) : Host.Outcome State Fault Refusal :=
  .next (s.classRequest fun u => { u with stalled := true })

/-- A bulk OUT packet is console input. -/
def execBulkOutReceive (bytes : List Byte) (s : State) : Host.Outcome State Fault Refusal :=
  let u := s.svc.usb
  .next (if u.pullup && u.configured && !u.suspended then
      bytes.foldl (fun s c => s.rxChar .usbc c) (s.setUsbDev { u with outBuf := bytes })
    else s)

/-- The host takes the bulk IN buffer. -/
def execBulkInToken (s : State) : Host.Outcome State Fault Refusal :=
  let u := s.svc.usb
  .next (if u.pullup && u.configured && !u.suspended then
      s.setSvc { s.svc with outUsb := s.svc.outUsb ++ u.inBuf, usb := { u with inBuf := [] } }
    else s)

end Sys2Proof.Machine
end

