-- ==== Sys2Proof/Machine/Commands.lean ====
section
/-! DEFINITION. The four command register sets of a port: what writing `GO` starts (02 R47, R51, R52, R407; 04 R127; 07
R208; 12 R327, R331). -/

namespace Sys2Proof.Machine

/-! ### Dock keys (07 R208) -/

/-- A key record that is malformed: no dock, a reserved field (07, "The key store"; 00 R7). -/
def keyRecordBad (op : Byte) (b : List Byte) : Bool :=
  decide (b.length ≠ 64 ∨ fld b 0 8 = 0) || !allZero (slice b 40 24) || (op == 2 && !allZero (slice b 8 32))

/-- The key store changes, in use and stored. -/
def State.setKeys (s : State) (k : List (W64 × List Byte)) : State :=
  (s.setLink { s.link with keys := k }).storeUpdate fun t => { t with keys := k }

/-- The exchange runs again on the seats of a dock whose link is in one of two states. -/
def State.renewDocks (s : State) (id : W64) (st st' : LinkState) : State :=
  allSeats.foldl (fun s x =>
    let l := s.link_ x
    if l.dockId = id ∧ (l.st = st ∨ l.st = st') then s.linkDone x (s.renewExchange x) else s) s

/-- A dock key command as far as it goes without a read (R407). -/
def State.keyRun (s : State) (p : PortId) : State :=
  let x := s.cmdSt p .dockKey
  if x.op = 0 ∨ 3 < x.op.toNat then s.endCmd p .dockKey 0x08 0
  else if s.mode.mode = .unsupervised ∨ s.mode.mode = .safeStop then s.endCmd p .dockKey 0x03 0
  else if !s.mayUnitWide p || s.apart then s.endCmd p .dockKey 0x05 0
  else if x.op = 3 then
    let ids := s.link.keys.map (·.1)
    let s := s.setKeys []
    (ids.foldl (fun s id => s.renewDocks id .up .up) s).endCmd p .dockKey 0x00 0
  else s.needRead p .dockKey

/-- The key record has come, or its read failed. -/
def State.keyRead (s : State) (p : PortId) (data : Option (List Byte)) : State :=
  let x := s.cmdSt p .dockKey
  match data with
  | none => s.endCmd p .dockKey 0x08 0
  | some b =>
    let id := BitVec.ofNat 64 (fld b 0 8)
    let known := (s.dockKey id).isSome
    let rest := s.link.keys.filter fun k => k.1 != id
    if keyRecordBad x.op b then s.endCmd p .dockKey 0x08 0
    else if x.op = 1 then
      if !known && decide (512 ≤ s.link.keys.length) then s.endCmd p .dockKey 0x20 0
      else
        let s := s.setKeys (rest ++ [(id, slice b 8 32)])
        let s := if known then s.renewDocks id .up .authFailed else s.renewDocks id .unenrolled .unenrolled
        s.endCmd p .dockKey 0x00 0
    else if !known then s.endCmd p .dockKey 0x21 0
    else ((s.setKeys rest).renewDocks id .up .up).endCmd p .dockKey 0x00 0

/-! ### Unit commands (12 R327) -/

/-- The mode accepts a unit command; during a start none is (R326, R327, R336). -/
def State.unitModeTakes (s : State) (op : Byte) : Bool :=
  let m := s.mode.mode
  if m.isStart then false
  else match op.toNat with
    | 1 => m.restsOrServes
    | 2 => true
    | 3 => m == .single || m == .dual || m == .awaiting
    | 4 => m.restsOrServes
    | _ => m == .unsupervised

/-- An unprotected islet holds queues or rings (R331). -/
def State.unprotectedWork (s : State) : Bool :=
  allIslets.any fun i =>
    let y := s.islet i
    y.st != .free && !y.guarded && decide (0 < y.qa + y.qb + y.ra + y.rb)

/-- The checks of `ROLLING_UPDATE`, in R331's order. -/
def State.rollCheck (s : State) (n : Fin 2) (force : Bool) : Option Byte :=
  let v := s.slot (slotOf n)
  if !v.valid || v.compat != (s.slot s.runningImage).compat then some 0x25
  else if !s.causewayUp || s.flt.refereeLost then some 0x09
  else if s.unprotectedWork && !force then some 0x22
  else none

/-- A rolling update is accepted. -/
def State.rollBegin (s : State) (p : PortId) (n : Fin 2) (force : Bool) : State :=
  let s := s.setCmdSt p .unitCmd { s.cmdSt p .unitCmd with phase := .running }
  let s := s.setMode { s.mode with roll := some { slot := n, force := force, phase := 1, port := p, x := s.flt.token.twin, failed := false } }
  s.enterMode .rolling

/-- No action is judged: during a start, and in UNSUPERVISED but for `COLD_START` and `SUPERVISOR_RESTART` (R326, R327). -/
def State.unitCmdOff (s : State) (op : Byte) : Bool :=
  s.mode.mode.isStart || (s.mode.mode == .unsupervised && op != 2 && op != 5)

/-- A unit command as far as it goes without a read (R327, R407). One that the mode does not accept leaves it unchanged and is
recorded in the event log (R328). -/
def State.unitRun (s : State) (p : PortId) : State :=
  let x := s.cmdSt p .unitCmd
  let n : Fin 2 := toFin 1 x.arg.toNat
  if s.unitCmdOff x.op then (s.logLine (Config.wording 3 ++ hex 2 x.op.toNat)).endCmd p .unitCmd 0x03 0
  else if x.op = 0 ∨ 5 < x.op.toNat ∨ (x.op ≠ 5 ∧ 1 < x.arg.toNat) then s.endCmd p .unitCmd 0x08 0
  else if !s.unitModeTakes x.op then (s.logLine (Config.wording 3 ++ hex 2 x.op.toNat)).endCmd p .unitCmd 0x03 0
  else if !s.mayUnitWide p then s.endCmd p .unitCmd 0x05 0
  else match x.op.toNat with
    | 1 => (s.endCmd p .unitCmd 0x00 0).warmBegin (slotOf n)
    | 2 => (s.endCmd p .unitCmd 0x00 0).coldRequest (some n)
    | 3 => match s.rollCheck n x.force with
      | some st => s.endCmd p .unitCmd st 0
      | none => s.rollBegin p n x.force
    | 4 =>
      if s.mode.runningA = slotOf n ∨ s.mode.runningB = slotOf n then s.endCmd p .unitCmd 0x24 0
      else s.needRead p .unitCmd
    | _ => (s.setCmdSt p .unitCmd { x with phase := .running }).restartSups

/-- The image of `WRITE_IMAGE` has come, or its read failed. -/
def State.unitRead (s : State) (p : PortId) (data : Option (List Byte)) : State :=
  match data with
  | none => s.endCmd p .unitCmd 0x08 0
  | some b => s.writeImage p (toFin 1 (s.cmdSt p .unitCmd).arg.toNat) b

/-! ### Turns (02 R51) -/

/-- The command of a set whose turn it is runs: one at a time, in the order of arrival. -/
def State.turnOnce (s : State) (k : CmdSet) (run : State → PortId → State) : State :=
  let a := s.cmdSt .h0 k
  let b := s.cmdSt .h1 k
  if a.underWay || b.underWay then s
  else if a.busy && (!b.busy || decide (a.turn < b.turn)) then run s .h0
  else if b.busy then run s .h1
  else s

def State.settleSet (s : State) (k : CmdSet) (run : State → PortId → State) : State := (s.turnOnce k run).turnOnce k run

/-- A unit command runs at once, but for a second `WRITE_IMAGE` while one is under way. -/
def State.settleUnit (s : State) : State :=
  bothPorts.foldl (fun s p =>
    let x := s.cmdSt p .unitCmd
    let y := s.cmdSt p.other .unitCmd
    if x.busy && x.phase == .waitTurn && !(x.op == 4 && y.op == 4 && y.underWay) then s.unitRun p else s) s

/-- Every command that may go on does. -/
def State.settle (s : State) (k : CmdSet) : State :=
  match k with
  | .islet => s.settleSet .islet State.isletRun
  | .unitProgram => s.settleSet .unitProgram State.progRun
  | .dockKey => s.settleSet .dockKey State.keyRun
  | .unitCmd => s.settleUnit

/-- `GO` is written through a function. -/
def State.command (s : State) (f : FnId) (k : CmdSet) (op arg : Byte) (force : Bool) : State :=
  if s.fnUp f then (s.goCmd f k op arg force).settle k else s

def execCreate (f : FnId) (islet : Byte) (s : State) : Host.Outcome State Fault Refusal := .next (s.command f .islet 1 islet false)
def execQuiesce (f : FnId) (islet : Byte) (s : State) : Host.Outcome State Fault Refusal := .next (s.command f .islet 2 islet false)
def execResume (f : FnId) (islet : Byte) (s : State) : Host.Outcome State Fault Refusal := .next (s.command f .islet 3 islet false)
def execReset (f : FnId) (islet : Byte) (s : State) : Host.Outcome State Fault Refusal := .next (s.command f .islet 4 islet false)
def execDestroy (f : FnId) (islet : Byte) (s : State) : Host.Outcome State Fault Refusal := .next (s.command f .islet 5 islet false)
def execSetSeats (f : FnId) (islet : Byte) (s : State) : Host.Outcome State Fault Refusal := .next (s.command f .islet 6 islet false)

/-- An opcode that R47 does not give. -/
def execIsletCmdBadOpcode (f : FnId) (opcode islet : Byte) (s : State) : Host.Outcome State Fault Refusal :=
  .next (s.command f .islet opcode islet false)

def execUnitProgramLoad (f : FnId) (slot : Fin 4) (s : State) : Host.Outcome State Fault Refusal :=
  .next (s.command f .unitProgram 1 (BitVec.ofNat 8 slot.val) false)
def execUnitProgramUnload (f : FnId) (slot : Fin 4) (s : State) : Host.Outcome State Fault Refusal :=
  .next (s.command f .unitProgram 2 (BitVec.ofNat 8 slot.val) false)
def execUnitProgramBadField (f : FnId) (action slot : Byte) (s : State) : Host.Outcome State Fault Refusal :=
  .next (s.command f .unitProgram action slot false)

def execDockKeyAdd (f : FnId) (s : State) : Host.Outcome State Fault Refusal := .next (s.command f .dockKey 1 0 false)
def execDockKeyRemove (f : FnId) (s : State) : Host.Outcome State Fault Refusal := .next (s.command f .dockKey 2 0 false)
def execDockKeyRemoveAll (f : FnId) (s : State) : Host.Outcome State Fault Refusal := .next (s.command f .dockKey 3 0 false)
def execDockKeyBadAction (f : FnId) (action : Byte) (s : State) : Host.Outcome State Fault Refusal :=
  .next (s.command f .dockKey action 0 false)

def execWarmStart (f : FnId) (slot : Fin 2) (s : State) : Host.Outcome State Fault Refusal :=
  .next (s.command f .unitCmd 1 (BitVec.ofNat 8 slot.val) false)
def execColdStart (f : FnId) (slot : Fin 2) (s : State) : Host.Outcome State Fault Refusal :=
  .next (s.command f .unitCmd 2 (BitVec.ofNat 8 slot.val) false)
def execRollingUpdate (f : FnId) (slot : Fin 2) (force : Bool) (s : State) : Host.Outcome State Fault Refusal :=
  .next (s.command f .unitCmd 3 (BitVec.ofNat 8 slot.val) force)
def execWriteImage (f : FnId) (slot : Fin 2) (s : State) : Host.Outcome State Fault Refusal :=
  .next (s.command f .unitCmd 4 (BitVec.ofNat 8 slot.val) false)
def execSupervisorRestart (f : FnId) (s : State) : Host.Outcome State Fault Refusal := .next (s.command f .unitCmd 5 0 false)
def execUnitCmdBadField (f : FnId) (action slot : Byte) (s : State) : Host.Outcome State Fault Refusal :=
  .next (s.command f .unitCmd action slot false)

/-- What a command reads: its 64-byte record, or an image's header and then the length that the header states (R51; 04 R127;
12 R327; DESIGN CHOICE, log entry 93). -/
def cmdParts (k : CmdSet) (data : Option (List Byte)) : List (Nat × Nat) :=
  let b := data.getD []
  match k with
  | .unitProgram => (0, 64) :: (if headerGood b && decide (64 < imageLength b) then [(64, imageLength b - 64)] else [])
  | .unitCmd => (0, 16) :: (if firmwareHeader b then [(16, fld b 12 4 - 16)] else [])
  | _ => [(0, 64)]

/-- The host read of a waiting command returns (R407); a command that has ended does not take it. -/
def execDescriptorReadCompletion (p : PortId) (set : CmdSet) (data : Option (List Byte)) (s : State) : Host.Outcome State Fault Refusal :=
  let x := s.cmdSt p set
  .next (if x.busy && x.phase == .waitRead then
      let s := (cmdParts set data).foldl (fun s e => s.commandRead p set e.1 e.2) s
      (match set with
        | .islet => s.isletRead p data
        | .unitProgram => s.progRead p data
        | .dockKey => s.keyRead p data
        | .unitCmd => s.unitRead p data).settle set
    else s)

/-- 2 ms without Bus Master Enable (R407). -/
def execBusMasterWaitTimeout (p : PortId) (set : CmdSet) (ut : Nat) (s : State) : Host.Outcome State Fault Refusal :=
  let s := s.arrive ut
  let x := s.cmdSt p set
  .next (if x.busy && x.phase == .waitBme && decide (x.goUt + 2 * ms ≤ s.now) then (s.endCmd p set 0x08 0).settle set else s)

def execFlashWriteComplete (ok : Bool) (s : State) : Host.Outcome State Fault Refusal :=
  .next ((s.flashDone ok).settle .unitCmd)

end Sys2Proof.Machine
end

