-- ==== Sys2Proof/Machine/Events.lean ====
section
/-! DEFINITION. The event controller's words, its timers and the sweep (05 R138 to R148), and the seat tick (05 R137). -/

namespace Sys2Proof.Machine

/-! ### Edges and words (R138 to R145) -/

def execEventEdge (c : CoreId) (src : Fin 2048) (s : State) : Host.Outcome State Fault Refusal :=
  .next (s.edge c src.val)

/-- Only programs of the core and its supervisor write the controller; a host's writes are ignored (R145). -/
def Via.writesEvents (w : Via) (c : CoreId) : Bool := decide (w = .prog c)

/-- Sources that are pending and not masked request their targets' wakes (R144). -/
def State.wakePending (s : State) (c : CoreId) (w : Nat) : State :=
  (List.range 64).foldl (fun s b =>
    let e := s.evtCore c
    if (e.pend w).getLsbD b && !(e.maskW w).getLsbD b then s.wakeTarget c (bits (e.src (64 * w + b)).toNat 5 0) else s) s

/-- The same for a target's private sources. -/
def State.wakePriv (s : State) (c : CoreId) (t : Nat) : State :=
  let e := s.evtCore c
  if (e.privPend t &&& ~~~(e.privMaskW t)) &&& 0xFFFFFFFF = 0 then s else s.wakeTarget c t

/-- A plain write of a pending word: it sets and clears bits as it is written (R141). -/
def State.writePending (s : State) (c : CoreId) (priv : Bool) (k : Nat) (v : W64) : State :=
  let e := s.evtCore c
  if priv then (s.setEvtCore c { e with privPending := tset e.privPending k (v &&& 0xFFFFFFFF) 0 }).wakePriv c k
  else if k < 32 then (s.setEvtCore c { e with pending := tset e.pending k v 0 }).wakePending c k
  else s

def execEvtPendingWrite (w : Via) (c : CoreId) (priv : Bool) (k : Fin 33) (v : W64) (s : State) : Host.Outcome State Fault Refusal :=
  .next (if s.viaHeard w && Via.writesEvents w c then s.writePending c priv k.val v else s)

/-- A write of a mask word (R142). -/
def State.writeMask (s : State) (c : CoreId) (priv : Bool) (k : Nat) (v : W64) : State :=
  let e := s.evtCore c
  if priv then (s.setEvtCore c { e with privMask := tset e.privMask k (v &&& 0xFFFFFFFF) 0x00000000FFFFFFFF }).wakePriv c k
  else if k < 32 then (s.setEvtCore c { e with mask := tset e.mask k v 0xFFFFFFFFFFFFFFFF }).wakePending c k
  else s

def execEvtMaskWrite (w : Via) (c : CoreId) (priv : Bool) (k : Fin 33) (v : W64) (s : State) : Host.Outcome State Fault Refusal :=
  .next (if s.viaHeard w && Via.writesEvents w c then s.writeMask c priv k.val v else s)

/-- A shared source's target and priority change as one; a pending source goes to the new target (R143). -/
def State.writeSource (s : State) (c : CoreId) (n : Nat) (v : W64) : State :=
  let e := s.evtCore c
  (s.setEvtCore c { e with source := tset e.source n (v &&& 0xF3F) 0x20 }).wakePending c (n / 64)

def execEvtSourceWrite (w : Via) (c : CoreId) (n : Fin 2048) (v : W64) (s : State) : Host.Outcome State Fault Refusal :=
  .next (if s.viaHeard w && Via.writesEvents w c then s.writeSource c n.val v else s)

/-- A target's vector base; one too large for a TE is ignored (R140). -/
def State.writeVectorBase (s : State) (c : CoreId) (t : Nat) (v : W64) : State :=
  let e := s.evtCore c
  let b := v &&& 0xFFFFF000
  if t < 32 ∧ 0x1EF000 < b.toNat then s else s.setEvtCore c { e with base := tset e.base t b 0 }

def execEvtVectorBaseWrite (w : Via) (c : CoreId) (t : Fin 33) (v : W64) (s : State) : Host.Outcome State Fault Refusal :=
  .next (if s.viaHeard w && Via.writesEvents w c then s.writeVectorBase c t.val v else s)

/-- A write of `EVT_TIMER` arms the timer, or disarms it with 0. -/
def State.writeTimer (s : State) (c : CoreId) (t : Nat) (v : W64) : State :=
  let e := s.evtCore c
  s.setEvtCore c { e with timer := tset e.timer t v 0, armed := tset e.armed t (v != 0) false }

def execEvtTimerWrite (w : Via) (c : CoreId) (t : Fin 33) (v : W64) (s : State) : Host.Outcome State Fault Refusal :=
  .next (if s.viaHeard w && Via.writesEvents w c then s.writeTimer c t.val v else s)

/-- UT has reached an armed timer's `COMPARE`: private source 0 is raised once. -/
def State.fireTimer (s : State) (c : CoreId) (t : Nat) : State :=
  let e := s.evtCore c
  if tget e.armed t false && decide ((tget e.timer t 0).toNat ≤ s.ut c) then
    (s.setEvtCore c { e with armed := tset e.armed t false false }).privEdge c t 0
  else s

def execEvtTimerFire (c : CoreId) (t : Fin 33) (ut : Nat) (s : State) : Host.Outcome State Fault Refusal :=
  .next ((s.arrive ut).fireTimer c t.val)

/-- Once in every frame the supervisor reads the status registers of every hardware source (R148, rule 6). What its
handlers then do is the runtime's; no read of these registers changes them. -/
def execSupervisorSweep (ut : Nat) (s : State) : Host.Outcome State Fault Refusal :=
  let s := s.arrive ut
  .next (if s.consoleServed && decide (s.evt.lastSweep / frameNs < s.now / frameNs) then s.setEvt { s.evt with lastSweep := s.now } else s)

/-! ### The seat tick (R137) -/

/-- Isochronous packets whose micro-frame has passed without a script are marked 0xFFFE (07 R210). -/
def State.isoPassed (s : State) (x : Seat) (n : Nat) : State :=
  (s.epsOf x fun e => e.type == 1).foldl (fun s k =>
    (s.ep k).queue.foldl (fun s h =>
      let v := s.xfer h
      let hit (p : IsoPkt) : Bool := p.value.isNone && !p.sent && decide (p.n < n)
      let lost := (v.pkts.filter hit).length
      if lost = 0 then s
      else
        let pk := v.pkts.map fun p => if hit p then { p with value := some 0xFFFE } else p
        ((s.setXfer h { v with pkts := pk }).countLost x lost).isoSettle h) s) s

/-- The item of micro-frame n − 1 that is still ready. -/
def stillReady (x : Seat) (n : Nat) (it : Item) : Bool :=
  it.kind == 0 && it.seat == some x && it.arg == BitVec.ofNat 64 (n - 1)

/-- The tick of a seat at the start of micro-frame n − 2. -/
def State.seatTick (s : State) (c : CoreId) (x : Seat) (n : Nat) : State :=
  let u := s.usbSeat x
  let d := s.dispatch c
  if n ≤ u.lastBuild ∨ tget s.flt.buildFrom x.val 0 ≠ 0 then s
  else if (s.link_ x).holdStart.isSome then s.isoPassed x (n - 2)
  else if d.suspended.any fun r => r.1.item.flow == BitVec.ofNat 24 x.val then s
  else
    let s := s.setUsbSeat x { u with lastBuild := n }
    if d.ready.any (stillReady x n) then
      let s := s.setDispatch c { d with ready := d.ready.map fun (it : Item) => if stillReady x n it then { it with arg := BitVec.ofNat 64 n } else it }
      s.sealScript x (n - 1) []
    else s.buildItem x n

def execSeatTick (c : CoreId) (x : Seat) (ut : Nat) (s : State) : Host.Outcome State Fault Refusal :=
  let s := s.arrive ut
  .next (if ut % microFrame = 0 ∧ s.ut c = ut ∧ s.serves c ∧ s.servingCore x = c ∧ !s.mode.mode.isStart ∧ s.mode.mode ≠ .unpowered then
      s.seatTick c x (ut / microFrame + 2)
    else s)

end Sys2Proof.Machine
end

