-- ==== Sys2Proof/Machine/RegMap.lean ====
section
/-! DEFINITION. The register map: what a read of each register shows and where a write goes (16 R388 to R394; the fields
are those of the owning chapters). -/

namespace Sys2Proof.Machine

/-- The instance, and the offset within it, of a block of `count` instances of `stride` bytes from `base`. -/
def inst (o base stride count : Nat) : Option (Nat × Nat) :=
  if base ≤ o ∧ o < base + stride * count then some ((o - base) / stride, (o - base) % stride) else none

/-- The instance whose register stands at offset `at'` of the block. -/
def instAt (o base stride count at' : Nat) : Option Nat :=
  match inst o base stride count with
  | some (k, d) => if d = at' then some k else none
  | none => none

/-! ### What registers show -/

/-- `STATE` codes (02 R46). -/
def IslState.code : IslState → Nat
  | .free => 0
  | .active => 1
  | .quiescing => 2
  | .quiesced => 3
  | .halting => 4
  | .halted => 5
  | .reattach => 6

/-- `ISLET_STATE` (02 R53). -/
def IsletSt.word (x : IsletSt) : Nat :=
  if x.st == .free then 0
  else at_ x.halt.toNat 24 + at_ x.failovers.toNat 16 + at_ (b2n x.lapsed) 5 + at_ (b2n x.prot) 4 + x.st.code

/-- `ISLET_TABLE_i` (R393). -/
def IsletSt.tableWord (x : IsletSt) : Nat :=
  if x.st == .free then 0
  else at_ x.pasid.toNat 44 + at_ (b2n x.paired) 41 + at_ x.home.num 40 + x.word

/-- `MANAGER_CONTROL` (02 R32, R33). -/
def State.managerWord (s : State) (p : PortId) : Nat :=
  let x := s.portSt p
  at_ s.host.unitIndex.toNat 28 + at_ (b2n s.host.wiring) 24 + at_ (b2n x.wiringRefused) 23 + at_ (b2n x.leaseEnd.isSome) 16 + x.leaseMs.toNat

/-- The status registers of the four command sets (02 R47; 04 R127; 07 R208; 12 R327). -/
def State.cmdWord (s : State) (p : PortId) (k : CmdSet) : Nat :=
  let x := s.cmdSt p k
  let v := s.portSt p
  at_ (b2n x.busy) 31 + x.status.toNat + (match k with
    | .islet => at_ x.arg.toNat 16 + at_ x.op.toNat 8
    | .unitProgram => at_ x.detail.toNat 32 + at_ (b2n v.stockRestored) 30 + at_ v.progFaults.toNat 8
    | .dockKey => at_ s.link.keys.length 16
    | .unitCmd => match s.mode.roll with
      | some r => if r.port = p then at_ r.phase 8 else 0
      | none => 0)

/-- `UNIT_MODE` as a function shows it (12 R315 to R318). At reset no start has begun, and `START_STEP` reads 0 (R12). -/
def State.unitModeWord (s : State) (f : FnId) : Nat :=
  let m := s.mode
  let step := match m.start with
    | some x => if x.step = 0 then 10 else x.step
    | none => 0
  let up (k : Nat) (g : FnId) : Nat := at_ (b2n (s.fnUp g)) k
  at_ m.stopCause.toNat 48 + at_ step 44 + at_ (m.failedShown % 4) 42 + at_ (b2n m.onGolden) 41 + at_ (b2n (m.reasons != 0)) 40 +
    at_ (bits m.reasons.toNat 5 1) 30 + up 20 ⟨.h0, .a⟩ + up 21 ⟨.h0, .b⟩ + up 22 ⟨.h1, .a⟩ + up 23 ⟨.h1, .b⟩ +
    at_ (b2n (s.serves .b)) 19 + at_ (b2n (s.serves .a)) 18 + at_ (b2n (s.fnSt f).modeChange) 16 + at_ m.prev.code 8 + m.mode.code

/-- `REPLACE_ME` (12 R317). -/
def State.replaceWord (s : State) : Nat := at_ s.mode.first.toNat 24 + at_ (bits s.mode.reasons.toNat 15 1) 1

/-- `IMAGE_SLOT_n` (12 R324). -/
def State.slotWord (s : State) (n : Fin 3) : Nat :=
  let v := s.slot n
  (if v.valid then at_ v.version.toNat 32 else 0) + at_ v.compat.toNat 16 + at_ (b2n (decide (n.val = s.mode.bootSlot.val))) 3 +
    at_ (b2n (decide (s.mode.runningB = n))) 2 + at_ (b2n (decide (s.mode.runningA = n))) 1 + b2n v.valid

def SupState.code : SupState → Nat
  | .running => 0
  | .restarting => 1
  | .lost => 2
  | .standingDown => 3

/-- `CORE_STATUS` of a core (13). -/
def State.coreWord (s : State) (c : CoreId) : Nat :=
  let x := s.coreSt c
  at_ s.flt.lanes.toNat 48 + at_ x.failovers.toNat 40 + at_ x.fenceCause.toNat 36 + at_ x.hardError.toNat 24 + at_ (b2n (!s.flt.refereeLost)) 7 +
    at_ (b2n x.aliveTwin) 6 + at_ x.sup.code 4 + at_ (b2n (decide (s.flt.token = c))) 2 + at_ (b2n x.fenced) 1 + c.num

/-- An error log record (13 R356). -/
def LogRec.bytes (r : LogRec) : List Byte :=
  leBytes 8 r.ut ++ leBytes 4 r.seq.toNat ++ leBytes 2 r.code.toNat ++ leBytes 1 r.core.num ++ [r.severity] ++ leBytes 4 r.location.toNat ++
    leBytes 4 r.count.toNat ++ leBytes 8 r.detail.toNat

/-- Word `d` / 8 of place `k` of the error log of a core (13 R356). -/
def State.logWord (s : State) (c : CoreId) (k d : Nat) : Nat :=
  match (match c with
    | .a => s.flt.logA
    | .b => s.flt.logB).find? (fun (r : LogRec) => r.seq.toNat % 256 == k) with
  | some r => fld r.bytes d 8
  | none => 0

/-- `CLUSTER_MODE` and `DISPATCH_STATUS` (05 R135, R136). -/
def DispSt.modeWord (d : DispSt) : Nat := at_ d.changing.toNat 8 + d.preempt.toNat
def DispSt.word (d : DispSt) : Nat := at_ d.places 32 + at_ (b2n d.holdBack) 16 + d.episodes.toNat

/-- `TE_STATUS_t` (05). -/
def State.teWord (s : State) (c : CoreId) (t : TeNo) : Nat :=
  let te := s.teSt c t
  let st := if !s.teClock c t then 4 else if !te.active then 0 else if te.staged.isSome then 2 else if te.pre.isSome then 3 else 1
  let flow := match te.cur with
    | some r => if st = 0 ∨ st = 4 then 0 else r.item.flow.toNat
    | none => 0
  at_ flow 40 + at_ te.load 30 + at_ (b2n te.inHandler) 3 + st

/-- `SEAT_LINK_STATUS` (07): the time left in whole ms (log entry 24). -/
def State.linkWord (s : State) (x : Seat) : Nat :=
  let l := s.link_ x
  let left := match l.holdStart with
    | some h => (h + l.holdLen - s.ut (s.servingCore x)) / ms
    | none => 0
  at_ l.epoch.toNat 48 + at_ left 32 + at_ l.downCause.toNat 24 + at_ l.rateResult.toNat 17 + at_ (s.servingCore x).num 16 + at_ l.rate.toNat 8 +
    (s.linkState x).code

/-- `SEAT_LINK_CONTROL`, `SEAT_MARGIN`, `SEAT_TIME` (07). -/
def SeatLink.controlWord (l : SeatLink) : Nat :=
  at_ (b2n l.disable) 31 + at_ l.rateMax.toNat 24 + at_ l.rateTarget.toNat 16 + l.holdMs.toNat
def State.marginWord (s : State) (x : Seat) : Nat :=
  let m := s.margins x
  at_ (s.seatTime x).dockMargin.toNat 32 + at_ m.2.toNat 16 + m.1.toNat
def SeatTime.word (t : SeatTime) : Nat := at_ (min 0xFFFF t.dDelay) 32 + at_ t.phase.toNat 16 + t.lock.toNat

/-- `GATHER_STATUS_c` (08). -/
def GatherSt.word (g : GatherSt) : Nat := at_ g.residue.toNat 48 + at_ g.fetched.toNat 32 + at_ g.head.toNat 16 + g.state.toNat

def FabState.code : FabState → Nat
  | .down => 0
  | .up => 1
  | .hold => 2
  | .notServed => 3
  | .spare => 4
  | .sleeping => 5

/-- `FAB_PORT_STATUS_p`, `FAB_POOL_STATUS`, `FAB_ISLET_USE_i`, word 1 of `FAB_MCAST_g` (09). -/
def FabPort.word (p : FabPort) : Nat :=
  at_ p.cells 44 + at_ (p.poolCells + p.excess) 24 + at_ p.discards.toNat 8 + p.state.code
def State.poolWord (s : State) (c : CoreId) : Nat :=
  at_ (b2n (s.fabCore c).refused) 63 + at_ (s.poolSize c) 32 + s.poolFree c
def State.useWord (s : State) (c : CoreId) (i : IsletNo) : Nat :=
  at_ (s.islet i).minCells 32 + tget (s.fabCore c).isletUsed i.val 0
def GroupSt.word (g : GroupSt) : Nat :=
  at_ (b2n g.valid) 31 + at_ (b2n g.causeway) 30 + at_ (b2n !g.inside.isEmpty) 16 + at_ g.retired.toNat 8 + g.gen.toNat

/-- `GATE_CONTROL_s` of a schedule brought up to the present time (10). -/
def SeatTraf.controlWord (t : SeatTraf) : Nat :=
  at_ (b2n t.fallback) 63 + at_ (b2n t.refused) 62 + at_ t.overhead.toNat 48 + at_ t.calLen 32 + t.calOff

/-- `POLICY_STATUS` (10). -/
def TrafSt.policyWord (t : TrafSt) : Nat := at_ t.lastFrame.toNat 32 + at_ t.lastUs.toNat 16 + t.missed.toNat

/-- `SUPPLY_STATUS` and `SEAT_BUDGET` (11). -/
def SupplySt.regWord (v : SupplySt) : Nat :=
  at_ v.pout 48 + at_ v.vin 32 + at_ v.rating 20 + at_ (b2n v.changed) 7 + v.low4
def State.budgetWord (s : State) : Nat :=
  at_ s.pow.sheds.toNat 48 + at_ (s.pow.sa.pout + s.pow.sb.pout - s.drawW) 32 + at_ s.drawW 16 + s.pow.budget

/-- `SEAT_POWER_STATUS` and `SEAT_POWER_CONTROL` (11). -/
def SeatPower.word (v : SeatPower) : Nat :=
  at_ v.openDistance.toNat 56 + at_ v.retries.toNat 48 + at_ v.pairMap.toNat 40 + at_ v.pairsets.toNat 32 + at_ (b2n v.wakeSeen) 24 +
    at_ v.cause.toNat 20 + at_ v.assigned 12 + at_ v.requested 8 + v.st.code
def SeatPower.controlWord (v : SeatPower) : Nat := at_ (b2n v.wakeLink) 2 + b2n v.enable

/-- `DOMAIN_VOTE_d` and `DOMAIN_STATUS_d` (11 R304 to R312). -/
def State.voteWord (s : State) (c : CoreId) (d : Nat) : Nat :=
  let x := s.domain c d
  at_ x.policy.toNat 8 + at_ (s.supVote c d) 6 + at_ x.managerH1.toNat 4 + at_ x.managerH0.toNat 2 + (if s.seatVoteFor c d then 2 else 0)
def State.domWord (s : State) (c : CoreId) (d : Nat) : Nat :=
  let x := s.domain c d
  let pending := match x.pendingT with
    | some t => at_ 1 19 + at_ t.rank 17
    | none => 0
  at_ x.transitions.toNat 32 + at_ x.block.toNat 20 + pending + at_ (b2n x.wakeLatched) 15 + at_ (b2n x.oscSince.isSome) 14 +
    at_ (b2n (x.going.isSome || s.railWaits c d)) 13 + at_ (b2n (s.railLow c d)) 12 + at_ x.target.rank 8 + x.st.rank

/-- `COUNTER_CONTROL` and `COUNTER_OVERFLOW_w` (14 R364, R365). -/
def State.counterWord (s : State) (c : CoreId) : Nat := at_ (b2n (s.bwActive c)) 8 + (s.cntCore c).control.toNat
def CntCore.overflowWord (k : CntCore) (w : Nat) : Nat :=
  ((List.range 64).map fun b => at_ (b2n ((k.sel (64 * w + b)).getLsbD 63)) b).sum

/-- Two bins of a histogram, and two byte counts of a port (14 R369, R370). -/
def CntCore.bins (k : CntCore) (i cls b : Nat) : Nat :=
  let g (n : Nat) : Nat := tget k.hist ((i * 8 + cls) * 32 + n) 0
  at_ (g (b + 1)) 32 + g b
def bwWord (t : Tab Nat) (p : Nat) : Nat := at_ (tget t (2 * p) 0) 32 + tget t (2 * p + 1) 0

/-- `QUEUE_CONFIG`, `RING_CONFIG`, `RING_MANAGER_CONSUMER` (03 R59). -/
def QueueSt.configWord (x : QueueSt) : Nat :=
  at_ (b2n x.enable) 63 + at_ (b2n x.refused) 62 + at_ x.log2.toNat 32 + at_ x.ring.toNat 16 + at_ x.weight.toNat 8 + x.burst.toNat
def RingSt.configWord (x : RingSt) : Nat :=
  at_ (b2n x.enable) 63 + at_ (b2n x.refused) 62 + at_ x.log2.toNat 32 + x.vector.toNat
def RingSt.managerWord (x : RingSt) : Nat := at_ (b2n x.errMw) 16 + x.c.toNat

/-! ### The registers of an islet window (02 R53) -/

/-- The queue status word; `CQ_PRODUCER`; `CQ_CONSUMER` (03). -/
def QueueSt.statusWord (x : QueueSt) : Nat :=
  at_ x.cause.toNat 56 + at_ x.cache.length 48 + at_ (b2n x.frozen) 40 + at_ (b2n x.enable) 39 + at_ x.p.toNat 16 + x.c.toNat
def RingSt.producerWord (x : RingSt) : Nat := at_ (b2n x.stalled) 32 + at_ x.held.length 16 + x.p.toNat
def RingSt.consumerWord (x : RingSt) : Nat := at_ (b2n x.errIw) 16 + x.c.toNat

def PortState.code : PortState → Nat
  | .poweredOff => 0
  | .disconnected => 1
  | .disabled => 2
  | .resetting => 3
  | .enabled => 4
  | .suspended => 5
  | .resuming => 6
  | .notPresent => 7

/-- `ROOT_PORT_s_p` (06 R173). -/
def State.rootWord (s : State) (x : Seat) (p : RootPort) : Nat :=
  let v := s.rootPort x p
  at_ v.last.toNat 40 + at_ v.changes.toNat 16 + at_ v.st.code 8 + at_ v.speed 5 + at_ (b2n (s.gen1Capable x p)) 4 + at_ (b2n v.power) 3 +
    at_ (b2n v.overcurrent) 2 + at_ (b2n v.connected) 1 + b2n v.busy.isSome

/-- `HEAD_STATUS` (08). -/
def State.headWord (s : State) (o : HeadNo) : Nat :=
  let v := s.view o
  let d := s.head o
  at_ v.applied.toNat 48 + at_ v.pendingPos.length 40 + at_ v.changes.toNat 20 + at_ (b2n v.behind) 15 + at_ (b2n d.mirrored) 14 +
    at_ (b2n d.refresh) 13 + at_ (b2n v.source.isSome) 12 + at_ (b2n v.monitor) 11 + (match d.st with
      | .absent => 0
      | .detached => 1
      | .attached => 2)

/-- `HEAD_MODE` (08). -/
def HeadSt.modeWord (d : HeadSt) : Nat :=
  (if d.st == .attached then at_ d.bpp 56 else 0) + at_ (sliceRows d.timing.v) 48 + at_ (sliceHeight d.timing.v) 32 + at_ d.timing.v 16 + d.timing.h

/-- `NET_STATUS` and `NET_DROPS` (10). -/
def State.netWord (s : State) (x : Seat) : Nat := at_ (s.netWaiting x) 32 + s.netBuffers x
def SeatNet.dropWord (v : SeatNet) : Nat := at_ v.red.toNat 48 + at_ v.yellowDrop.toNat 32 + at_ v.noBuffer.toNat 16 + v.tooLong.toNat

/-- View slot k of an islet: its lowest-numbered counter of that slot (14 R372). -/
def CntCore.viewSlot (k : CntCore) (i : IsletNo) (n : Nat) : Nat :=
  match k.select.find? (fun e => bits e.2.toNat 55 48 == i.val && bits e.2.toNat 47 42 == n) with
  | some e => tget k.value e.1 0
  | none => 0

/-- The eight bytes at an 8-byte-aligned offset of an islet's window (02 R53; 14 R372). -/
def State.readWin (s : State) (f : FnId) (i : IsletNo) (o : Nat) : Nat :=
  let c := f.core
  let y := s.islet i
  let seat (k : Nat) (v : Nat) : Nat := if s.owner (toSeat k) == i then v else 0
  if i.val = 0 || y.st == .free || !y.boundVia f then 0
  else if o < 0x8000 then 0
  else if o < 0x9000 then
    (match s.localQueue c i ((o - 0x8000) / 8) with
     | some (g, q) => (s.queue g i q).statusWord
     | none => 0)
  else if o < 0xA000 then
    (match s.localRing c i ((o - 0x9000) / 16) with
     | some (g, r) => if o % 16 = 0 then (s.ring g i r).producerWord else (s.ring g i r).consumerWord
     | none => 0)
  else if o = 0xA000 then y.word
  else if o < 0xB000 then 0
  else if o < 0xC000 then (let k := (o - 0xB000) / 64; seat k (s.rootWord (toSeat k) (toFin 7 (o / 8))))
  else if o < 0xD000 then
    (let k := s.cntCore c
     let d := o - 0xC000
     if !y.grant then 0
     else if d < 0x400 then k.bins i.val (d / 128) (d % 128 / 4)
     else if d < 0x600 then k.viewSlot i ((d - 0x400) / 8)
     else if d < 0x640 then tget k.islet (i.val * 8 + (d - 0x600) / 8) 0
     else 0)
  else if o < 0xE000 then
    (let h := toHead ((o - 0xD000) / 32)
     seat (headSeat h).val (match o % 32 with
       | 0 => s.headWord h
       | 8 => (s.view h).appliedUt.toNat
       | 16 => (s.head h).modeWord
       | _ => 0))
  else if o < 0xF000 then
    (let x := toSeat ((o - 0xE000) / 64)
     seat x.val (match o % 64 with
       | 0 => s.netWord x
       | 8 => (s.seatNet x).dropWord
       | _ => 0))
  else 0

/-! ### The manager window -/

/-- Registers of a host port (scope P, R390). -/
def State.portReg (s : State) (p : PortId) (o : Nat) : Option Nat :=
  match o with
  | 0x1000 => some (s.managerWord p)
  | 0x3008 => some (s.cmdSt p .islet).addr.toNat
  | 0x3010 => some (s.cmdWord p .islet)
  | 0x5008 => some (s.cmdSt p .unitProgram).addr.toNat
  | 0x5010 => some (s.cmdWord p .unitProgram)
  | 0x7008 => some (s.cmdSt p .dockKey).addr.toNat
  | 0x7010 => some (s.cmdWord p .dockKey)
  | 0x8018 => some (s.cmdSt p .unitCmd).addr.toNat
  | 0x8020 => some (s.cmdWord p .unitCmd)
  | _ => none

/-- Dispatch, mode, image and core registers. -/
def State.unitReg (s : State) (f : FnId) (o : Nat) : Option Nat :=
  let c := f.core
  let d := s.dispatch c
  match o with
  | 0x5018 => some s.host.budget.toNat
  | 0x6000 => some d.modeWord
  | 0x6008 => some d.levels.toNat
  | 0x6010 => some d.clusterLo.toNat
  | 0x6018 => some d.clusterHi.toNat
  | 0x6020 => some d.word
  | 0x8000 => some (s.unitModeWord f)
  | 0x8008 => some s.replaceWord
  | 0x9000 => some (s.coreWord c)
  | 0x9008 => some (s.coreWord c.twin)
  | 0x9010 => some (match c with
    | .a => s.flt.nextA
    | .b => s.flt.nextB).toNat
  | _ =>
    match instAt o 0x4000 8 128 0 with
    | some k => some (s.islet (toIslet (k + 1))).tableWord
    | none => match instAt o 0x6100 8 32 0 with
      | some t => some (s.teWord c (toFin 31 t))
      | none => match instAt o 0x8028 8 3 0 with
        | some n => some (s.slotWord (toFin 2 n))
        | none => match inst o 0xA000 32 256 with
          | some (k, d) => some (s.logWord c k d)
          | none => none

/-- The event controller (05). -/
def EvtCore.reg (e : EvtCore) (o : Nat) : Option Nat :=
  match instAt o 0x10000 8 32 0 with
  | some w => some (e.pend w).toNat
  | none => match instAt o 0x10100 8 32 0 with
    | some w => some (e.maskW w).toNat
    | none => match instAt o 0x10200 8 33 0 with
      | some t => some (e.privPend t).toNat
      | none => match instAt o 0x10400 8 33 0 with
        | some t => some (e.privMaskW t).toNat
        | none => match instAt o 0x10600 8 33 0 with
          | some t => some (tget e.base t 0).toNat
          | none => match instAt o 0x10800 8 33 0 with
            | some t => some (tget e.timer t 0).toNat
            | none => match instAt o 0x12000 8 2048 0 with
              | some n => some (e.src n).toNat
              | none => none

/-- Seat links, gather channels and the fabric (07, 08, 09). -/
def State.linkReg (s : State) (c : CoreId) (o : Nat) : Option Nat :=
  match inst o 0x20000 64 64 with
  | some (k, d) =>
    let x := toSeat k
    (match d with
      | 0 => some (s.linkWord x)
      | 8 => some (s.link_ x).controlWord
      | 16 => some (s.link_ x).dockId.toNat
      | 24 => some (s.marginWord x)
      | 32 => some (s.seatTime x).word
      | _ => none)
  | none => match instAt o 0x30000 8 16 0 with
    | some g => some (s.gather c g).word
    | none => match instAt o 0x40000 8 160 0 with
      | some p => some (s.fabPort c p).outMin.toNat
      | none => match instAt o 0x44000 8 160 0 with
        | some p => some (s.fabPort c p).word
        | none => match inst o 0x45000 32 256 with
          | some (g, d) =>
            let v := (s.fabCore c).group g
            (match d with
              | 0 => some v.seats.toNat
              | 8 => some v.word
              | _ => none)
          | none => match instAt o 0x47000 8 128 0 with
            | some k => some (s.useWord c (toIslet (k + 1)))
            | none => if o = 0x43000 then some (s.fabCore c).poolControl.toNat else if o = 0x43008 then some (s.poolWord c) else none

/-- Gates, allotments, bounds, policy, demand records (10). -/
def State.trafReg (s : State) (o : Nat) : Option Nat :=
  match inst o 0x50000 128 64 with
  | some (k, d) => some ((s.seatTraf (toSeat k)).entryWord (d / 8))
  | none => match inst o 0x52000 64 64 with
    | some (k, d) =>
      let t := s.seatTraf (toSeat k)
      (match d with
        | 0 => some (t.settle (s.ut (s.servingCore (toSeat k)))).controlWord
        | 8 => some t.weights.toNat
        | 16 => some t.policeC.toNat
        | 24 => some t.policeP.toNat
        | 32 => some t.shapeC.toNat
        | 40 => some t.shapeP.toNat
        | 48 => some t.watts.toNat
        | _ => none)
    | none => match inst o 0x53000 64 128 with
      | some (k, d) =>
        let t := s.isletTraf (toIslet (k + 1))
        (match d with
          | 0 => some t.weights.toNat
          | 8 => some t.rates.toNat
          | 16 => some t.hostPower.toNat
          | 24 => some t.share.toNat
          | 32 => some t.demand.toNat
          | _ => none)
      | none => match inst o 0x56000 64 64 with
        | some (k, d) => some (fld (s.demand (toSeat k)).latched d 8)
        | none => if o = 0x55000 then some s.traf.control.toNat else if o = 0x55008 then some s.traf.policyWord else none

/-- Supplies, seat power and domains (11), but for `SEAT_POWER_MEASURE`. -/
def State.powReg (s : State) (c : CoreId) (o : Nat) : Option Nat :=
  match inst o 0x61000 64 64 with
  | some (k, d) =>
    let v := s.seatPower (toSeat k)
    (match d with
      | 0 => some v.word
      | 8 => some v.controlWord
      | _ => none)
  | none => match inst o 0x62000 16 28 with
    | some (n, d) => some (if d = 0 then s.voteWord c n else s.domWord c n)
    | none =>
      if o = 0x60000 then some s.pow.sa.regWord else if o = 0x60008 then some s.pow.sb.regWord
      else if o = 0x60010 then some s.budgetWord else none

/-- Counters (14). -/
def State.cntReg (s : State) (c : CoreId) (o : Nat) : Option Nat :=
  let k := s.cntCore c
  match instAt o 0x70040 8 8 0 with
  | some w => some (k.overflowWord w)
  | none => match inst o 0x70100 32 33 with
    | some (t, d) => some (match d with
      | 0 => (tget k.samplePc t 0).toNat
      | 8 => (tget k.sampleFlow t 0).toNat
      | 16 => (tget k.sampleUt t 0).toNat
      | _ => (tget k.sampleLost t 0).toNat)
    | none => match inst o 0x71000 16 512 with
      | some (n, d) => some (if d = 0 then (k.sel n).toNat else tget k.value n 0)
      | none => match instAt o 0x74000 8 512 0 with
        | some n => some (tget k.snap n 0)
        | none => match inst o 0x78000 256 64 with
          | some (x, d) => some (if d = 248 then (tget k.seatOvf x 0).toNat else tget k.seat (x * 32 + d / 8) 0)
          | none => match inst o 0x7C000 16 160 with
            | some (p, d) => some (bwWord (if d = 0 then k.bwLast else k.bwPeak) p)
            | none => match inst o 0x80000 1024 129 with
              | some (i, d) => some (k.bins i (d / 128) (d % 128 / 4))
              | none => match inst o 0xA1000 64 129 with
                | some (i, d) => some (tget k.islet (i * 8 + d / 8) 0)
                | none =>
                  if o = 0x70000 then some (s.counterWord c) else if o = 0x70008 then some k.freezeUt.toNat
                  else if o = 0x70010 then some k.snapUt.toNat else none

/-- The configuration blocks of the islets (03 R59). -/
def State.blockReg (s : State) (c : CoreId) (o : Nat) : Option Nat :=
  match inst o 0x400000 0x8000 128 with
  | none => none
  | some (k, b) =>
    let i := toIslet (k + 1)
    let y := s.islet i
    if b < 0x4000 then
      (s.localQueue c i (b / 32)).bind fun (g, q) =>
        if b % 32 = 0 then some (s.queue g i q).base.toNat else if b % 32 = 8 then some (s.queue g i q).configWord else none
    else if b < 0x6000 then
      (s.localRing c i ((b - 0x4000) / 32)).bind fun (g, r) =>
        if b % 32 = 0 then some (s.ring g i r).base.toNat else if b % 32 = 8 then some (s.ring g i r).configWord
        else if b % 32 = 16 then some (s.ring g i r).managerWord else none
    else if b = 0x6000 then some (y.haltInfo c).toNat
    else if b = 0x6008 then some (tget s.wq.discards (ciKey c i) 0).toNat
    else none

/-- A writer's port and function: a program sees the layout of its core's own function without the registers of a port
(04 R95, R390). -/
def viaFn (w : Via) : FnId :=
  match w with
  | .host f => f
  | .prog c => ⟨.h0, c⟩

/-- The eight bytes at an 8-byte-aligned offset of the manager window (R388 to R390), but for the fields that change when
read and those that are measured as they are read. -/
def State.showReg (s : State) (w : Via) (o : Nat) : Nat :=
  let f := viaFn w
  let c := f.core
  let port := match w with
    | .host f => s.portReg f.port o
    | .prog _ => none
  ((port.orElse fun _ => (s.unitReg f o).orElse fun _ => ((s.evtCore c).reg o).orElse fun _ => (s.linkReg c o).orElse fun _ =>
    (s.trafReg o).orElse fun _ => (s.powReg c o).orElse fun _ => (s.cntReg c o).orElse fun _ => s.blockReg c o).getD 0)

/-- A read of `n` bytes at offset `k` of the eight from an aligned offset, as a program makes it: `MAX_WAIT` is cleared when
it is wholly among the bytes (R389), and what `SEAT_POWER_MEASURE` reads on a powered port is free (log entry 3). -/
def State.readReg (s : State) (w : Via) (o k n : Nat) : Nat × State :=
  let c := (viaFn w).core
  match instAt o 0x6040 8 8 0 with
  | some l =>
    let (v, t) := s.readMaxWait c (toFin 7 l)
    (v.toNat, if k ≤ 4 ∧ 8 ≤ k + n then t else s)
  | none => match instAt o 0x61000 64 64 16 with
    | some x =>
      let v := s.seatPower (toSeat x)
      let low := at_ (v.mean1s % 65536) 16 + v.meanFrame % 65536
      if v.isPowered then
        let (d, s) := s.draw
        (at_ (bits (Config.freeWord d).toNat 63 32) 32 + low, s)
      else (low, s)
    | none => (s.showReg w o, s)

/-! ### Configuration space (R395 to R397) -/

/-- The identity of a function, field by field: offset, size and value (R395; 00 R9). -/
def identity (f : FnId) : List (Nat × Nat × Nat) :=
  [(0x00, 2, 0x1F3E), (0x02, 2, match f.core with
      | .a => 0x6440
      | .b => 0x6441),
   (0x08, 1, 0x01), (0x09, 3, 0x0C0380), (0x0E, 1, 0x00), (0x2C, 2, 0x1F3E), (0x2E, 2, 0x6440), (0x34, 1, 0x40), (0x3D, 1, 0x00)]

/-- The Command register: Memory Space Enable, which a function that is up holds set, Bus Master Enable, and Interrupt Disable,
which reads 1; I/O Space Enable reads 0 (R395). -/
def State.commandRegister (s : State) (f : FnId) : Nat :=
  at_ 1 10 + at_ (b2n (s.fnSt f).bme) 2 + at_ (b2n (s.fnUp f)) 1

/-! ### BAR4 (02 R28) -/

/-- A vector's 16 bytes of the MSI-X table: address, data, and the mask bit. -/
def FnSt.tableEntry (x : FnSt) (v : Nat) : List Byte :=
  let e := tget x.table v (0, 0)
  leBytes 8 e.1.toNat ++ leBytes 4 e.2.toNat ++ leBytes 4 (b2n (!tget x.unmasked v false))

/-- The pending-bit array's byte of vectors 8k to 8k + 7. -/
def FnSt.pbaByte (x : FnSt) (k : Nat) : Byte :=
  BitVec.ofNat 8 ((List.range 8).map fun b => at_ (b2n (tget x.pba (8 * k + b) false)) b).sum

/-- The byte at an offset of BAR4: the table at 0, the pending-bit array at 0x8000 (02 R28). -/
def FnSt.bar4Byte (x : FnSt) (o : Nat) : Byte :=
  if o < 0x8000 then (x.tableEntry (o / 16)).getD (o % 16) 0
  else if o < 0x8100 then x.pbaByte (o - 0x8000)
  else 0

/-- A table entry takes 16 bytes. -/
def FnSt.setEntry (x : FnSt) (v : Nat) (b : List Byte) : FnSt :=
  { x with table := tset x.table v (BitVec.ofNat 64 (fld b 0 8), BitVec.ofNat 32 (fld b 8 4)) (0, 0),
           unmasked := tset x.unmasked v (fld b 12 4 % 2 == 0) false }

/-- A host writes BAR4: an aligned write of 4 or 8 bytes of the MSI-X table is taken, and a vector that it unmasks sends its held
message (02 R28, R408); any other is ignored (PRESUMED, log entry 117). -/
def State.writeBar4 (s : State) (f : FnId) (off : Nat) (data : List Byte) : State :=
  let n := data.length
  if (n = 4 ∨ n = 8) ∧ off % n = 0 ∧ off + n ≤ 0x8000 then
    let x := s.fnSt f
    let e := x.tableEntry (off / 16)
    (s.setFn f (x.setEntry (off / 16) (e.take (off % 16) ++ data ++ e.drop (off % 16 + n)))).releaseMsix f
  else s

/-- The vendor-specific extended capability of a function, from its body at +8 (R397). -/
def State.vsec (s : State) (f : FnId) : List Byte :=
  leBytes 1 f.core.num ++ leBytes 1 f.port.num ++ leBytes 1 s.host.unitIndex.toNat ++ leBytes 5 0

/-- The Device Serial Number capability, equal in all four functions (R396; 17 R406). -/
def deviceSerial (_ : FnId) : W64 := Config.serial

/-- The capability chain of every function: offset and ID (R396). -/
def capabilities : List (Nat × Nat) :=
  [(0x40, 0x01), (0x50, 0x11), (0x70, 0x10), (0x100, 0x0001), (0x148, 0x0003), (0x158, 0x0019), (0x178, 0x001B), (0x180, 0x0025),
   (0x190, 0x0026), (0x1C0, 0x0027), (0x200, 0x002A), (0x230, 0x002F), (0x240, 0x0031), (0x260, 0x0032), (0x280, 0x000B)]

/-! ### Writes -/

/-- A write of a command register set's register: `GO` starts the command. -/
def State.writeCmd (s : State) (f : FnId) (k : CmdSet) (v : Nat) : State :=
  if !bit v 31 then s
  else
    let op : Byte := BitVec.ofNat 8 (bits v 23 16)
    match k with
    | .islet => s.command f .islet op (BitVec.ofNat 8 (bits v 15 8)) false
    | .unitProgram => s.command f .unitProgram op (BitVec.ofNat 8 (bits v 15 8)) false
    | .dockKey => s.command f .dockKey op 0 false
    | .unitCmd => s.command f .unitCmd op (BitVec.ofNat 8 (bits v 1 0)) (bit v 8)

/-- A write of an address register: host address bits 63:6. -/
def State.writeAddr (s : State) (p : PortId) (k : CmdSet) (v : W64) : State :=
  s.setCmdSt p k { s.cmdSt p k with addr := (v >>> 6) <<< 6 }

/-- The registers of a port that take 4 bytes or 8 (R389); `none` where there is none. -/
def State.writePort32 (s : State) (f : FnId) (o : Nat) (v : W32) : Option State :=
  match o with
  | 0x1000 => some (s.writeManagerControl f.port v)
  | 0x1008 => some (s.renewLease f.port)
  | 0x3000 => some (s.writeCmd f .islet v.toNat)
  | 0x5000 => some (s.writeCmd f .unitProgram v.toNat)
  | 0x7000 => some (s.writeCmd f .dockKey v.toNat)
  | 0x8010 => some (s.writeCmd f .unitCmd v.toNat)
  | _ => match instAt o 0x2000 8 64 0 with
    | some n => some (if v.getLsbD 0 then s.releaseSem f.port n else s)
    | none => none

/-- `DISPATCH_LEVELS` (05 R130). -/
def State.writeLevels (s : State) (c : CoreId) (v : W32) : State :=
  s.setDispatch c { s.dispatch c with levels := BitVec.ofNat 18 v.toNat }

/-- `SEAT_CLUSTER_LO` and `_HI` (05 R129): the seats' votes go with their homes. -/
def State.writeCluster (s : State) (c : CoreId) (hi : Bool) (v : W64) : State :=
  let d := s.dispatch c
  let s := s.setDispatch c (if hi then { d with clusterHi := v } else { d with clusterLo := v })
  [2, 3, 4, 5].foldl (fun s k => s.settleDomain c k) s

/-- The registers of a core or the unit that take 4 bytes or 8. -/
def State.writeUnit32 (s : State) (w : Via) (o : Nat) (v : W32) : Option State :=
  let c := w.core
  let may (t : State) : Option State := some (if s.viaMay w then t else s)
  match o with
  | 0x5018 => may (s.setHost { s.host with budget := v })
  | 0x6000 => may (s.writeClusterMode c v)
  | 0x6008 => may (s.writeLevels c v)
  | _ => none

/-- A bit is written 1 and clears (RW1C). -/
def cleared (v : W64) (n : Nat) : Bool := v.getLsbD n

def State.writePort64 (s : State) (p : PortId) (o : Nat) (v : W64) : Option State :=
  match o with
  | 0x3008 => some (s.writeAddr p .islet v)
  | 0x5008 => some (s.writeAddr p .unitProgram v)
  | 0x5010 => some (if cleared v 30 then s.setPort p { s.portSt p with stockRestored := false } else s)
  | 0x7008 => some (s.writeAddr p .dockKey v)
  | 0x8018 => some (s.writeAddr p .unitCmd v)
  | _ => none

def State.writeEvents (s : State) (c : CoreId) (o : Nat) (v : W64) : Option State :=
  match instAt o 0x10000 8 32 0 with
  | some w => some (s.writePending c false w v)
  | none => match instAt o 0x10100 8 32 0 with
    | some w => some (s.writeMask c false w v)
    | none => match instAt o 0x10200 8 33 0 with
      | some t => some (s.writePending c true t v)
      | none => match instAt o 0x10400 8 33 0 with
        | some t => some (s.writeMask c true t v)
        | none => match instAt o 0x10600 8 33 0 with
          | some t => some (s.writeVectorBase c t v)
          | none => match instAt o 0x10800 8 33 0 with
            | some t => some (s.writeTimer c t v)
            | none => match instAt o 0x12000 8 2048 0 with
              | some n => some (s.writeSource c n v)
              | none => none

/-- `FAB_POOL_CONTROL` (09 R260); a raised threshold may be the alarm's edge (R266). -/
def State.writePool (s : State) (c : CoreId) (v : W64) : State :=
  s.poolAlarms <| s.setFabCore c { s.fabCore c with poolControl := v &&& 0x3F00FFFFFFFFFFFF }

def State.writeLinks (s : State) (w : Via) (o : Nat) (v : W64) : Option State :=
  let c := w.core
  match instAt o 0x20000 64 64 8 with
  | some k => some (if s.viaMay w then s.linkDone (toSeat k) (s.writeLinkControl (toSeat k) v) else s)
  | none => match instAt o 0x40000 8 160 0 with
    | some p => some (s.outMinWrite w c p v)
    | none => match inst o 0x45000 32 256 with
      | some (g, d) => if d = 0 then some (s.writeGroup w c g false v) else if d = 8 then some (s.writeGroup w c g true v) else none
      | none =>
        if o = 0x43000 then some (if s.viaMay w then s.writePool c v else s)
        else if o = 0x43008 then some (if cleared v 63 then s.setFabCore c { s.fabCore c with refused := false } else s)
        else none

/-- `GATE_ENTRY_s_e` is staged (10 R267). -/
def State.writeGateEntry (s : State) (x : Seat) (e : Nat) (v : W64) : State :=
  let t := s.seatTraf x
  s.setSeatTraf x { t with entries := tset t.entries e (v &&& 0x13F0001FFFF) (gateEntryInit e) }

def seatAllot (x : Seat) (d : Nat) : Option AllotReg :=
  match d with
  | 8 => some (.tunnelWeights x)
  | 16 => some (.policeCommitted x)
  | 24 => some (.policePeak x)
  | 32 => some (.shapeCommitted x)
  | 40 => some (.shapePeak x)
  | 48 => some (.power x)
  | _ => none

def State.writeTraf (s : State) (w : Via) (o : Nat) (v : W64) : Option State :=
  match inst o 0x50000 128 64 with
  | some (k, d) => some (if s.viaMay w then s.writeGateEntry (toSeat k) (d / 8) v else s)
  | none => match inst o 0x52000 64 64 with
    | some (k, d) =>
      let x := toSeat k
      if d = 0 then some (s.gateWrite w x v) else (seatAllot x d).map fun r => s.writeAllot w r v
    | none => match inst o 0x53000 64 128 with
      | some (k, d) =>
        let i := toIslet (k + 1)
        (match d with
          | 0 => some (s.writeBound w i .weights v)
          | 8 => some (s.writeBound w i .rates v)
          | 16 => some (s.writeBound w i .hostPower v)
          | 24 => some (s.writeAllot w (.hostShare i) v)
          | _ => none)
      | none => if o = 0x55000 then some (if s.viaMay w then s.writePolicy v else s) else none

def State.writePow (s : State) (w : Via) (o : Nat) (v : W64) : Option State :=
  match inst o 0x61000 64 64 with
  | some (k, d) =>
    let x := toSeat k
    if d = 0 then some (if cleared v 24 then s.setSeatPower x { s.seatPower x with wakeSeen := false } else s)
    else if d = 8 then some (if s.viaMay w then s.writePowerControl x v else s)
    else none
  | none => match instAt o 0x62000 16 28 0 with
    | some d => some (s.writeVote w w.core d v)
    | none =>
      let ack (x : SupplyId) : State := if cleared v 7 then s.setSupply x { s.supply x with changed := false } else s
      if o = 0x60000 then some (ack .sa) else if o = 0x60008 then some (ack .sb) else none

def State.writeCnt (s : State) (w : Via) (o : Nat) (v : W64) : Option State :=
  let c := w.core
  let may (t : State) : Option State := some (if s.viaMay w then t else s)
  match inst o 0x71000 16 512 with
  | some (n, d) => if d = 0 then some (s.selectWrite w c n v) else may (s.writeValue c n v)
  | none => match instAt o 0x78000 256 64 248 with
    | some x =>
      let k := s.cntCore c
      may (s.setCntCore c { k with seatOvf := tset k.seatOvf x (tget k.seatOvf x 0 &&& ~~~v) 0 })
    | none => if o = 0x70000 then may (s.writeControl c v) else if o = 0x70008 then may (s.writeFreezeUt c v) else none

def State.writeBlock (s : State) (c : CoreId) (o : Nat) (v : W64) : Option State :=
  match inst o 0x400000 0x8000 128 with
  | none => none
  | some (k, b) =>
    let i := toIslet (k + 1)
    let q := b / 32
    let r := (b - 0x4000) / 32
    if b < 0x4000 then
      (if b % 32 = 0 then some (s.writeQueueBase c i q v) else if b % 32 = 8 then some (s.writeQueueConfig c i q v) else none)
    else if b < 0x6000 then
      (if b % 32 = 0 then some (s.writeRingBase c i r v) else if b % 32 = 8 then some (s.writeRingConfig c i r v)
       else if b % 32 = 16 then some (s.writeManagerConsumer c i r v) else none)
    else none

/-- An 8-byte write of a 64-bit register (R389, R390, R392). -/
def State.write64 (s : State) (w : Via) (o : Nat) (v : W64) : Option State :=
  let c := w.core
  let may (t : State) : Option State := some (if s.viaMay w then t else s)
  let port := match w with
    | .host f => s.writePort64 f.port o v
    | .prog _ => none
  let evt := match w with
    | .host _ => none
    | .prog _ => s.writeEvents c o v
  let unit := match o with
    | 0x6010 => may (s.writeCluster c false v)
    | 0x6018 => may (s.writeCluster c true v)
    | 0x8000 => some (if cleared v 16 then s.setFn (viaFn w) { s.fnSt (viaFn w) with modeChange := false } else s)
    | _ => none
  port.orElse fun _ => unit.orElse fun _ => evt.orElse fun _ => (s.writeLinks w o v).orElse fun _ => (s.writeTraf w o v).orElse fun _ =>
    (s.writePow w o v).orElse fun _ => (s.writeCnt w o v).orElse fun _ => s.writeBlock c o v

/-- A write to the manager window of `n` bytes: any other size or alignment is ignored (R388, R389). -/
def State.writeReg (s : State) (w : Via) (o n : Nat) (v : W64) : State :=
  if !s.viaHeard w || o % 8 != 0 || !(n == 4 || n == 8) then s
  else
    let low : W32 := BitVec.ofNat 32 v.toNat
    let port := match w with
      | .host f => s.writePort32 f o low
      | .prog _ => none
    match port.orElse fun _ => s.writeUnit32 w o low with
    | some t => t
    | none => if n = 8 then (s.write64 w o v).getD s else s

/-- The command that a `COMMAND` code of `ROOT_PORT_s_p` names; 0 and 7 name none (06 R173). -/
def portCmdOf : Nat → Option PortCmd
  | 1 => some .reset
  | 2 => some .suspend
  | 3 => some .resume
  | 4 => some .disable
  | 5 => some .powerOff
  | 6 => some .powerOn
  | _ => none

/-- An 8-byte write to a register of an islet window (02 R53). -/
def State.writeWin (s : State) (f : FnId) (i : IsletNo) (o : Nat) (v : W64) : State :=
  match instAt o 0x9000 16 256 8 with
  | some r => s.writeConsumer f i r v
  | none => match inst o 0xB000 64 64 with
    | some (k, d) =>
      let x := toSeat k
      let p : RootPort := toFin 7 (d / 8)
      let s := s.clearPortChange f i x p (BitVec.ofNat 7 (bits v.toNat 22 16))
      if bit v.toNat 63 then s.submitPort f i x p (portCmdOf (bits v.toNat 62 60)) else s
    | none => match instAt o 0xD000 32 128 0 with
      | some h =>
        let o := toHead h
        if s.presents f i (headSeat o) then
          s.setView o { s.view o with changes := (s.view o).changes &&& ~~~(BitVec.ofNat 4 (bits v.toNat 23 20)) }
        else s
      | none => s

/-- A host writes bytes at an offset of a BAR (02 R28, R53; R388 to R392). -/
def State.hostWrite (s : State) (f : FnId) (bar : Bar) (off : Nat) (data : List Byte) : State :=
  let n := data.length
  let v : W64 := BitVec.ofNat 64 (leNat data)
  if !s.fnUp f then s
  else match bar with
    | .bar0 => s.writeReg (.host f) off n v
    | .bar4 => s.writeBar4 f off data
    | .bar2 =>
      if off % 0x10000 < 0x8000 then s.doorbell f off data
      else
        let i := off / 0x10000 + 1
        if n = 8 ∧ off % 8 = 0 ∧ i ≤ 128 then s.writeWin f (toIslet i) (off % 0x10000) v else s

def execRegisterWrite (f : FnId) (bar : Bar) (off : Nat) (data : List Byte) (s : State) : Host.Outcome State Fault Refusal :=
  .next (s.hostWrite f bar off data)

/-- A read larger than 64 bytes, or across a 64-byte boundary, completes with Completer Abort and has no side effect
(R389); a fenced core answers every read with 0xFF (13 R343). -/
def execRegisterReadOversized (f : FnId) (off size : Nat) (s : State) : Host.Outcome State Fault Refusal :=
  .next (if s.fencedReads f then s.sendHost (.completion f (List.replicate size 0xFF))
    else if s.fnUp f && decide (64 < off % 64 + size) then s.sendHost (.completerAbort f) else s)

end Sys2Proof.Machine
end

