-- ==== Sys2Proof/Machine/Stock.lean ====
section
/-! DEFINITION. What the stock programs of kinds 0 and 5 do in an item that they serve: the stock schedule (06) and the
stock policy (10 R290). Their code is not in the spec; an item that retires nothing but its `done` takes the whole
effect there (log entry 25). -/

namespace Sys2Proof.Machine

/-! ### Transaction records (06 R166) -/

/-- A transaction record of an endpoint. -/
def EpSt.record (e : EpSt) (kind count len rule : Nat) : List Byte :=
  let size := if e.speed = 4 then e.packetSize + at_ e.burst 11 else bits e.maxPacket.toNat 12 0
  leBytes 1 kind ++ leBytes 1 e.addr ++ leBytes 1 (e.ep + at_ e.type 4 + at_ (b2n e.periodic) 6 + at_ (b2n e.dirIn) 7) ++
    leBytes 1 (e.rootPort.val + 1 + at_ e.speed 4 + at_ (b2n e.viaTt) 7) ++ leBytes 2 size ++ leBytes 2 count ++ leBytes 4 (len % 2 ^ 24) ++
    leBytes 4 rule

/-- The TT fields of `RULE`. -/
def EpSt.ttRule (e : EpSt) : Nat :=
  if e.viaTt then at_ (bits e.ttHub.toNat 6 0) 16 + at_ (bits e.ttPort.toNat 6 0) 23 else 0

/-- `NAK_LIMIT` and `ERROR_LIMIT`: 255 and 3 for a bulk transfer, as in the worked example; else free (log entry 3). -/
def State.limits (s : State) (e : EpSt) : Nat × State :=
  if e.type = 2 then (0x3FF, s)
  else
    let (k, s) := s.draw
    (bits (Config.freeWord k).toNat 9 0, s)

/-- The toggle that the first packet of a further record has: packets whose results are outstanding count. -/
def EpSt.nextToggle (e : EpSt) : Bool := e.toggle != (e.sentBytes / max 1 e.packetSize % 2 == 1)

/-- The endpoint may have records: open, its root port `ENABLED` (R173), its islet running (02 R48). -/
def State.mayRecord (s : State) (e : EpSt) : Bool :=
  e.state == 1 && (s.rootPort e.seat e.rootPort).st == .enabled && (s.islet e.islet).st == .active

/-- The transfer at the head of an endpoint that may have further records. -/
def State.armed (s : State) (k : Nat) : Option (Nat × XferSt) :=
  let e := s.ep k
  match e.queue with
  | h :: _ => if s.mayRecord e && (s.xfer h).ending.isNone then some (h, s.xfer h) else none
  | [] => none

/-- Bytes of an OUT data stage of `len` bytes that records may take when `sent` are in the stream: whole packets until
its last byte is there. -/
def EpSt.ready (e : EpSt) (len sent : Nat) : Nat := if len ≤ sent then len else sent - sent % max 1 e.packetSize

/-- Bytes of a transfer that no record at the dock covers: of an OUT transfer, those already in the stream. -/
def leftBytes (e : EpSt) (v : XferSt) : Nat := (if v.dirIn then v.len else e.ready v.len v.outSent) - v.moved - e.sentBytes

/-- A bulk or interrupt transfer has something to do that no outstanding record covers: bytes, or a zero-length packet. -/
def wantsRecord (e : EpSt) (v : XferSt) : Bool := decide (0 < leftBytes e v) || (decide (v.len ≤ v.moved) && v.outstanding == 0)

/-- Packets that carry `n` bytes. -/
def EpSt.packets (e : EpSt) (n : Nat) : Nat := max 1 (cdiv n (max 1 e.packetSize))

/-- `ZLP_END` (R161, R166): the record carries the last bytes of an OUT entry with the flag. -/
def State.zlp (s : State) (h : Nat) (e : EpSt) (v : XferSt) (len : Nat) : Nat :=
  if len != 0 && v.moved + e.sentBytes + len == v.len && s.zlpAsked h e v then at_ 1 11 else 0

/-- The data of an isochronous OUT packet is here, and the dock's OUT buffer has room for it (R165). -/
def State.isoReady (s : State) (e : EpSt) (v : XferSt) (p : IsoPkt) : Bool :=
  e.dirIn || p.sent || (decide (((v.pkts.takeWhile fun q => q.n != p.n).map (·.len)).sum + p.len ≤ v.outData.length) &&
    decide (p.len ≤ s.outRoom e.seat))

/-! ### The periodic pass (04, "the stock periodic pass"; 06 R171) -/

/-- A ready-made record of a due list, its bus cost and its endpoint flow. -/
structure DueEntry where
  record : List Byte
  cost : Nat
  flow : Nat
  deriving DecidableEq, Repr

/-- The high-speed cost that a due entry carries: 0 on the other engines. -/
def EpSt.dueCost (e : EpSt) (count len : Nat) : Nat := if e.speed = 3 then 8 * len + 440 * count else 0

/-- The split records of an endpoint behind a TT in micro-frame `n` (R167, log entry 14). -/
def EpSt.splitRecords (e : EpSt) (n len rule : Nat) (starts : Bool) : List DueEntry :=
  let o := n - e.serviceOf n
  let last := ((e.splits.map (·.1)).foldl max 0)
  let outIso := e.type == 1 && !e.dirIn
  (e.splits.filter fun q => q.1 == o).filterMap fun (q : Nat × Nat) =>
    let start := q.1 == 0 || outIso
    let bytes := min q.2 (if e.type = 1 ∧ e.dirIn then q.2 else len)
    let pos := if !outIso || last = 0 then 0 else if q.1 = 0 then 1 else if q.1 = last then 3 else 2
    if start && q.1 == 0 && !starts then none
    else some { record := e.record (if start then 4 else 5) 0 bytes (rule + at_ pos 30), cost := 8 * bytes + 472, flow := e.flow }

/-- The due entries of one periodic endpoint for micro-frame `n`: none while no transfer is posted. -/
def State.dueOf (s : State) (k n : Nat) : State × List DueEntry :=
  let e := s.ep k
  if !s.mayRecord e then (s, [])
  else
    let rule0 := e.ttRule + at_ (b2n e.nextToggle) 10
    let one (s : State) (len : Nat) : State × List DueEntry :=
      let (lim, s) := s.limits e
      let rule := lim + rule0
      if e.viaTt then (s, e.splitRecords n len rule true)
      else
        let m := e.packets len
        (s, [{ record := e.record (if e.dirIn then 1 else 2) m len rule, cost := e.dueCost m len, flow := e.flow }])
    if e.serviceOf n % e.period ≠ e.phase % e.period then (s, [])
    else if e.type = 1 then
      match e.queue.find? (fun h => (s.xfer h).ending.isNone && (s.xfer h).pkts.any fun p => p.n == e.serviceOf n && p.value.isNone) with
      | none => (s, [])
      | some h =>
        match (s.xfer h).pkts.find? (fun p => p.n == e.serviceOf n) with
        | some p => if s.isoReady e (s.xfer h) p then one s p.len else (s, [])
        | none => (s, [])
    else
      match s.armed k with
      | none => (s, [])
      | some (h, v) =>
        let most := e.perService
        let len := min (leftBytes e v) most
        if e.viaTt && n ≠ e.serviceOf n then
          (if e.nextN = e.serviceOf n + e.period then one s (min v.len e.packetSize) else (s, []))
        else if wantsRecord e v then
          let (t, l) := one s (if e.viaTt then min len e.packetSize else len)
          (t, l.map fun d => { d with record := d.record.take 12 ++ leBytes 4 (fld d.record 12 4 + s.zlp h e v len) })
        else (s, [])

/-- The endpoints of a seat that belong to its islet, by rising context. -/
def State.seatEps (s : State) (x : Seat) (periodic : Bool) : List Nat := s.epsOf x fun e => e.periodic == periodic && e.islet == s.owner x

/-- The due list of a seat for micro-frame `n`. -/
def State.dueList (s : State) (x : Seat) (n : Nat) : State × List DueEntry :=
  (s.seatEps x true).foldl (fun p k =>
    let (s, l) := p.1.dueOf k n
    (s, p.2 ++ l)) (s, [])

/-- The list in memory: a count, then 32 bytes for each entry (04). -/
def dueBytes (l : List DueEntry) : List Byte :=
  let l := l.take 255
  leBytes 8 l.length ++ leBytes 8 0 ++ leBytes 16 0 ++ (l.map fun d => d.record ++ leBytes 8 d.cost ++ leBytes 8 d.flow).flatten

/-- Due list (n mod 8) of a seat is written; the twin's copy follows for a protected islet (04 R97, 06 R171). -/
def State.putDue (s : State) (c : CoreId) (x : Seat) (n : Nat) (l : List DueEntry) : State :=
  let f (m : Memory) : Memory := writeBytes m (8192 * (n % 8)) (dueBytes l)
  let t := s.setDue c x (f (s.due c x))
  if s.protects (s.owner x) then t.setDue c.twin x (f (t.due c.twin x)) else t

/-- What a build has left on each engine, and its records so far. -/
structure Build where
  hs : Nat
  fs : Nat
  gen1 : Nat
  limit : Nat
  recs : List (List Byte)
  deriving DecidableEq, Repr

/-- One pass of the due loop: no room leaves the entry out, and a full script takes no more (04 R109). -/
def Build.due (b : Build) (d : DueEntry) : Build :=
  if b.hs < d.cost then b
  else
    let b := { b with hs := b.hs - d.cost }
    if b.limit ≤ b.recs.length then b else { b with recs := b.recs ++ [d.record] }

/-- Nominal cost of a direct full- or low-speed transfer of `len` bytes in `m` packets (R153). -/
def fsNominal (speed m len : Nat) : Nat := (if speed = 1 then 8 else 1) * (8 * len + 104 * m)

/-- The other engines are charged in software for the periodic records. -/
def State.chargeDue (s : State) (b : Build) (k : Nat) (d : DueEntry) : Build :=
  let e := s.ep k
  let m := fld d.record 6 2
  let len := fld d.record 8 4
  if e.flow ≠ d.flow then b
  else if e.speed = 4 then { b with gen1 := b.gen1 - (len + 32 * m) }
  else if e.speed = 3 ∨ e.viaTt then b
  else { b with fs := b.fs - fsNominal e.speed m len }

/-- An endpoint served in micro-frame `n` has its next service a period on. -/
def State.servedEp (s : State) (k n : Nat) : State :=
  let e := s.ep k
  if n % e.period = e.phase % e.period then s.setEp k { e with nextN := n + e.period } else s

/-! ### The asynchronous fill -/

/-- The engine that an asynchronous record is charged to, and its cost in `m` packets of `len` bytes with `more` further
transactions (R153). -/
def EpSt.asyncCost (e : EpSt) (m len more : Nat) : Nat :=
  if e.speed = 4 then len + 32 * (m + more)
  else if e.viaTt then 8 * len + 944 * (m + more)
  else if e.speed = 3 then 8 * len + 440 * (m + more)
  else fsNominal e.speed (m + more) len

def Build.room (b : Build) (e : EpSt) : Nat :=
  if e.speed = 4 then b.gen1 else if e.speed = 3 ∨ e.viaTt then b.hs else b.fs

def Build.charge (b : Build) (e : EpSt) (cost : Nat) : Build :=
  if e.speed = 4 then { b with gen1 := b.gen1 - cost }
  else if e.speed = 3 ∨ e.viaTt then { b with hs := b.hs - cost }
  else { b with fs := b.fs - cost }

/-- Whole packets that fit: each of the full size. -/
def EpSt.fits (e : EpSt) (room more : Nat) : Nat :=
  let base := e.asyncCost 0 (if more = 0 then 0 else 8) more
  (room - base) / max 1 (e.asyncCost 1 e.packetSize 0)

/-- A bulk endpoint's record: its bytes up to the budget, or one split (06, stock schedule). -/
def State.bulkRecord (s : State) (b : Build) (k h : Nat) (v : XferSt) : State × Build :=
  let e := s.ep k
  let want := if e.viaTt then 1 else e.packets (leftBytes e v)
  let take (m : Nat) : Nat := min (leftBytes e v) (m * e.packetSize)
  let fit (m : Nat) : Bool := decide (e.asyncCost m (take m) (b2n (s.zlp h e v (take m) != 0)) ≤ b.room e)
  let most := min want (e.fits (b.room e) 0)
  let m := if fit want then want else if fit most then most else most - 1
  let len := take m
  if m = 0 || !wantsRecord e v then (s, b)
  else
    let (lim, s) := s.limits e
    let zlp := s.zlp h e v len
    let rule := lim + e.ttRule + at_ (b2n e.nextToggle) 10 + zlp
    (s, { b.charge e (e.asyncCost m len (b2n (zlp != 0))) with recs := b.recs ++ [e.record (if e.dirIn then 1 else 2) m len rule] })

/-- A control endpoint's group: the stages that its transfer has still to do (R164 to R167). -/
def State.controlRecord (s : State) (b : Build) (k : Nat) (v : XferSt) : State × Build :=
  let e := s.ep k
  let setup := v.stage == 0
  let rest := if 2 ≤ v.stage then 0 else v.len - v.moved
  let left := if v.dirIn then rest else min rest (e.ready v.len (v.outSent - 8) - v.moved)
  let need := if rest = 0 then 0 else e.packets rest
  let more := b2n setup + 1
  let m := min (min need (if left = 0 then 0 else e.packets left)) (e.fits (b.room e) more)
  let whole := m == need
  let len := min left (m * e.packetSize)
  if v.outstanding ≠ 0 || (setup && decide (v.outSent < 8)) || decide (b.room e < e.asyncCost 0 8 more) || (need != 0 && m == 0) then (s, b)
  else
    let (lim, s) := s.limits e
    let rule := lim + e.ttRule + at_ (b2n (setup || rest == 0 || e.toggle)) 10 + at_ (b2n setup) 12 + at_ (b2n whole) 13 + at_ (b2n (v.dirIn && v.len != 0)) 14
    let bytes := if v.dirIn then len else len + 8 * b2n setup
    (s, { b.charge e (e.asyncCost m (len + 8 * b2n setup) more) with recs := b.recs ++ [e.record 3 m bytes rule] })

/-- One endpoint's share of the round; direct full- and low-speed records go only with every eighth script (R167). -/
def State.asyncShare (s : State) (b : Build) (k n : Nat) : State × Build :=
  let e := s.ep k
  if b.limit ≤ b.recs.length then (s, b)
  else if (e.speed = 1 ∨ e.speed = 2) ∧ !e.viaTt ∧ n % 8 ≠ 0 then (s, b)
  else match s.armed k with
    | none => (s, b)
    | some (h, v) => if e.type = 0 then s.controlRecord b k v else s.bulkRecord b k h v

/-- The round of a seat's async list from its round-robin position, which moves on by one (06 R171; log entry 25). -/
def State.asyncRound (s : State) (c : CoreId) (x : Seat) (n : Nat) (b : Build) : State × Build :=
  let i := s.owner x
  let l := s.asyncList c i x
  if l.isEmpty then (s, b)
  else
    let a := 0x30000 + 1024 * x.val
    let pos := readNat (s.isw c i) (a + 2) 2 % l.length
    let (s, b) := (l.drop pos ++ l.take pos).foldl (fun (p : State × Build) k => p.1.asyncShare p.2 (s.ctxOf i x k) n) (s, b)
    (s.iswPut c i fun m => writeNat m (a + 2) 2 ((pos + 1) % l.length), b)

/-- The stock kind 0 program: the periodic pass, the asynchronous fill, the closing step (06, stock schedule). -/
def State.stockBuild (s : State) (c : CoreId) (x : Seat) (sc : Script) : State × Script :=
  match (s.usbSeat x).profile with
  | none => (s, sc)
  | some p =>
    let (s, l) := s.dueList x sc.n
    let s := s.putDue c x sc.n l
    let b0 : Build := { hs := sc.budget, fs := 11700, gen1 := p.gen1Bytes, limit := p.maxRecords, recs := sc.recs }
    let ks := s.seatEps x true
    let b := (l.take 255).foldl (fun (b : Build) d => ks.foldl (fun b k => s.chargeDue b k d) (b.due d)) b0
    let s := ks.foldl (fun s k => if l.any fun d => d.flow == (s.ep k).flow then s.servedEp k sc.n else s) s
    let (s, b) := s.asyncRound c x sc.n b
    let (s, next) := s.dueList x (sc.n + 8)
    (s.putDue c x (sc.n + 8) next, { sc with recs := b.recs, budget := b.hs })

/-! ### The stock policy program (10 R290) -/

def stepOn (s : State) (n : Nat) : Bool := s.traf.control.getLsbD n

/-- A field of a seat's demand record. -/
def State.demandAt (s : State) (x : Seat) (off n : Nat) : Nat := fld (s.demand x).latched off n

/-- Step 1: weights from the bytes sent and waiting. -/
def State.policyWeights (s : State) (c : CoreId) (x : Seat) : State :=
  let usb := s.demandAt x 0 4 + s.demandAt x 16 4
  let disp := s.demandAt x 8 4 + s.demandAt x 20 4
  let net := s.demandAt x 12 4 + s.demandAt x 24 4
  let sum := usb + disp + net
  if sum = 0 then s
  else
    let share (d : Nat) : Nat := cdiv (128 * d) sum
    let w := putBits (putBits (putBits (s.seatTraf x).weights.toNat 31 24 (share net)) 23 16 (share disp)) 7 0 (share usb)
    s.writeAllot (.prog c) (.tunnelWeights x) (BitVec.ofNat 64 w)

/-- Step 2 for one bucket pair: a committed rate, its excess and its use. -/
def policyRate (c excess use : Nat) : Nat :=
  let a := 125 * c
  if a < 8 * excess then max (5 * c / 4) (c + 8) else if excess = 0 ∧ 2 * use < a then 3 * c / 4 else c

def State.policyRates (s : State) (c : CoreId) (x : Seat) : State :=
  let t := s.seatTraf x
  let peak := bits (s.isletTraf (s.owner x)).rates.toNat 42 32
  let put (w : W64) (r : Nat) : W64 := BitVec.ofNat 64 (putBits w.toNat 10 0 (min 2047 r))
  let s := s.writeAllot (.prog c) (.policeCommitted x) (put t.policeC (policyRate (regRate t.policeC) (s.demandAt x 32 4) (s.demandAt x 28 4)))
  let s := s.writeAllot (.prog c) (.shapeCommitted x) (put t.shapeC (policyRate (regRate t.shapeC) (s.demandAt x 40 4) (s.demandAt x 12 4)))
  let s := s.writeAllot (.prog c) (.policePeak x) (put t.policeP peak)
  s.writeAllot (.prog c) (.shapePeak x) (put t.shapeP peak)

/-- Bytes that an islet asked of its hosts in the last frame. -/
def IsletTraf.asked (t : IsletTraf) : Nat := bits t.demand.toNat 63 32 + bits t.demand.toNat 31 0

/-- Step 3: host shares of the islets that exist. -/
def State.policyShares (s : State) (c : CoreId) : State :=
  let l := allIslets.filter fun i => (s.islet i).st != .free
  let sum := (l.map fun i => (s.isletTraf i).asked).sum
  if sum = 0 then s
  else l.foldl (fun s i => s.writeAllot (.prog c) (.hostShare i) (BitVec.ofNat 64 (cdiv (1023 * (s.isletTraf i).asked) sum))) s

/-- A seat's target of step 4, within its bounds. -/
def State.powerTarget (s : State) (x : Seat) : Nat :=
  Bounds.clamp (s.boundsOf x IsletTraf.power) (cdiv (s.demandAt x 44 2) 10 + 4)

def State.powerLeast (s : State) (x : Seat) : Nat :=
  let b := (s.isletTraf (s.owner x)).power
  min b.lo b.hi

/-- Step 4: power, shared above the least of each when the targets exceed the budget. -/
def State.policyPower (s : State) (c : CoreId) (seats : List Seat) : State :=
  let l := seats.filter fun x => (s.seatPower x).isPowered
  let target := (l.map s.powerTarget).sum
  let least := (l.map s.powerLeast).sum
  let excess := (l.map fun x => s.powerTarget x - s.powerLeast x).sum
  let b := s.pow.budget
  let watts (x : Seat) : Nat :=
    if target ≤ b then s.powerTarget x
    else if b < least then s.powerLeast x
    else s.powerLeast x + (s.powerTarget x - s.powerLeast x) * (b - least) / max 1 excess
  (l.map fun x => (x, watts x)).foldl (fun s p => s.writeAllot (.prog c) (.power p.1) (BitVec.ofNat 64 p.2)) s

/-- A rate change of the seat is in progress. -/
def State.rateChanging (s : State) (x : Seat) : Bool := (s.link_ x).rateResult == 4

/-- Step 5: one rate down when the least margin is below 1.0 dB. -/
def State.policyLine (s : State) (x : Seat) : State :=
  let m := (s.margins x).2
  let r := (s.link_ x).rate.toNat
  let last := tget s.traf.rateDrops x.val 0
  let recent := last != 0 && decide (s.now < last + 10000 * ms)
  if m != 0x8000 && decide (m.toInt < 10) && decide (1 < r) && !s.rateChanging x && !recent then
    let s := s.setTraf { s.traf with rateDrops := tset s.traf.rateDrops x.val s.now 0 }
    s.linkDone x (s.writeTarget x (r - 1))
  else s

/-- The steps that `STEPS` enables, in order, over every seat that an islet owns. -/
def State.stockPolicy (s : State) (c : CoreId) : State :=
  let seats := allSeats.filter fun x => (s.owner x).val != 0
  let s := if stepOn s 8 then seats.foldl (fun s x => s.policyWeights c x) s else s
  let s := if stepOn s 9 then seats.foldl (fun s x => s.policyRates c x) s else s
  let s := if stepOn s 10 then s.policyShares c else s
  let s := if stepOn s 11 then s.policyPower c seats else s
  if stepOn s 12 then seats.foldl (fun s x => s.policyLine x) s else s

/-- What an item of a stock program that retires nothing but `done` does. -/
def State.stockRun (s : State) (c : CoreId) (r : Run) : State × Run :=
  if r.prog ≠ .stock ∨ r.count ≠ 0 then (s, r)
  else if r.item.kind = 5 then (s.stockPolicy c, r)
  else match r.script, r.item.seat with
    | some sc, some x =>
      let (s, sc) := s.stockBuild c x sc
      (s, { r with script := some sc })
    | _, _ => (s, r)

end Sys2Proof.Machine
end

