-- ==== Sys2Proof/Machine/Yelcy.lean ====
section
/-! DEFINITION. The instructions of the Yelcy instruction set on a transfer engine, and the entry into and the return from
an event handler (04 R90 to R117; 05 R139, R140). A command names the TE and carries the operands of its instruction; the
model does not hold them against the word of the program store at the pc (log entry 12). -/

namespace Sys2Proof.Machine

/-! ### What an instruction sees -/

/-- The TE at an instruction boundary: the item's run (a placeholder on an idle TE in a handler), the handler's bank and
address, and the address at which execution goes on. -/
structure TeCtx where
  core : CoreId
  te : TeNo
  run : Run
  handler : Bool
  bank : Vector W64 8
  pc : Nat
  next : Nat
  deriving DecidableEq, Repr

/-- How an instruction ends: it retires, it faults (R112), it stalls and runs again, or the item leaves the TE. -/
inductive TeOut where
  | ok (s : State) (x : TeCtx)
  | fault (code : Nat)
  | stall
  | left (leave : State → Run → State)

/-- A general register: g0 reads 0, g24 to g31 are the handler's bank in a handler (R90). -/
def TeCtx.get (x : TeCtx) (r : Reg) : W64 :=
  if r.val = 0 then 0
  else if x.handler && decide (24 ≤ r.val) then x.bank[(r.val - 24) % 8]'(Nat.mod_lt _ (by decide))
  else x.run.regs[r]

/-- A write of a general register; one to g0 has no effect (R90). -/
def TeCtx.set (x : TeCtx) (r : Reg) (v : W64) : TeCtx :=
  if r.val = 0 then x
  else if x.handler && decide (24 ≤ r.val) then { x with bank := x.bank.set ((r.val - 24) % 8) v (Nat.mod_lt _ (by decide)) }
  else { x with run := { x.run with regs := x.run.regs.set r.val v } }

/-- The instruction runs at islet level: an islet image's item, not a handler (R87). -/
def TeCtx.isletLevel (x : TeCtx) : Bool :=
  !x.handler && (match x.run.prog with
    | .islet _ _ => true
    | _ => false)

def TeCtx.islet (x : TeCtx) : IsletNo := x.run.item.islet
def TeCtx.jump (x : TeCtx) (a : Nat) : TeCtx := { x with next := a % 2 ^ 64 }

/-- The context of TE t. -/
def State.teCtx (s : State) (c : CoreId) (t : TeNo) : TeCtx :=
  let te := s.teSt c t
  let run := te.cur.getD te.idle
  let pc := if te.inHandler then te.hpc else run.pc
  { core := c, te := t, run := run, handler := te.inHandler, bank := te.hbank, pc := pc, next := (pc + 4) % 2 ^ 64 }

/-- An instruction can run: the TE's clock runs, it runs an item or a handler, and it does not wait in `wfi`. -/
def State.teRuns (s : State) (c : CoreId) (t : TeNo) : Bool :=
  let te := s.teSt c t
  s.teClock c t && (te.cur.isSome || te.inHandler) && !te.waiting

/-- The instruction budget of an item (R115, `UNIT_ITEM_BUDGET`). -/
def State.itemBudget (s : State) (i : IsletNo) : Nat :=
  if i.val = 0 then (if s.host.budget = 0 then 200000 else min 10000000 s.host.budget.toNat) else (s.islet i).budget

/-! ### Loops and calls (R107, R108) -/

/-- Where control goes when execution reaches an address: at the end of the innermost body of this function the next pass
starts, or the loop closes (R107). -/
def settleLoops : List LoopFrame → Nat → Nat → List LoopFrame × Nat
  | [], _, a => ([], a)
  | f :: r, depth, a =>
    if f.depth = depth ∧ a = f.start + 4 * f.len then
      if 1 < f.left then ({ f with left := f.left - 1, idx := f.idx + 1 } :: r, f.start) else settleLoops r depth a
    else (f :: r, a)

/-- The next address once loop ends are settled. -/
def TeCtx.settle (x : TeCtx) : TeCtx :=
  let (l, a) := settleLoops x.run.loops x.run.rets.length x.next
  { x with run := { x.run with loops := l }, next := a }

/-! ### Retiring -/

/-- Where the instruction stands, for the sample registers (14 R371). -/
def TeCtx.sampleAt (x : TeCtx) : SampleAt := { te := x.te.val, pc := x.pc, flow := x.run.item.flow.toNat, kind := x.run.item.kind }

/-- Count a retired instruction (R115, 14 R363). -/
def State.countRetired (s : State) (x : TeCtx) : State :=
  if x.handler then s.countAt x.core 0x011 [(3, x.te.val)] 1 (some x.sampleAt)
  else s.countAt x.core 0x010 [(3, x.te.val), (1, x.islet.val), (5, x.run.item.level.val)] 1 (some x.sampleAt)

/-- Put a context back on its TE, at an address. -/
def State.putCtx (s : State) (x : TeCtx) : State :=
  let te := s.teSt x.core x.te
  let run := if x.handler then x.run else { x.run with pc := x.next }
  let te := { te with hbank := x.bank, hpc := if x.handler then x.next else te.hpc }
  s.setTeSt x.core x.te (match te.cur with
    | some _ => { te with cur := some run }
    | none => { te with idle := run })

/-- The instruction retires. -/
def State.retire (s : State) (x : TeCtx) : State :=
  let x := x.settle
  let x := if x.handler then x else { x with run := { x.run with count := x.run.count + 1 } }
  (s.putCtx x).countRetired x

/-- A fault aborts the item beneath the instruction; on an idle TE only the handler ends (R112). -/
def State.teFault (s : State) (c : CoreId) (t : TeNo) (code : Nat) : State :=
  let te := s.teSt c t
  match te.cur with
  | some r => s.abortItem c t r code
  | none => s.setTeSt c t { te with inHandler := false }

/-- The budget of the segment is used up (R115). -/
def State.overBudget (s : State) (x : TeCtx) : Bool := !x.handler && decide (s.itemBudget x.islet ≤ x.run.count)

/-- One instruction on TE t. -/
def State.instr (s : State) (c : CoreId) (t : TeNo) (f : State → TeCtx → TeOut) : State :=
  let x := s.teCtx c t
  if !s.teRuns c t then s
  else if s.overBudget x then s.teFault c t 0x01
  else match f s x with
    | .ok s' x' => s'.retire x'
    | .fault code => s.teFault c t code
    | .stall => s
    | .left leave => leave (s.countRetired x) { x.run with pc := x.settle.next, loops := x.settle.run.loops }

/-- An instruction that only writes a register. -/
def State.alu (s : State) (c : CoreId) (t : TeNo) (rd : Reg) (f : TeCtx → W64) : State :=
  s.instr c t fun s x => .ok s (x.set rd (f x))

/-! ### Arithmetic (R104) -/

def sext (imm : Half) : W64 := imm.signExtend 64
def zext (imm : Half) : W64 := imm.zeroExtend 64
def flag (b : Bool) : W64 := if b then 1 else 0
def sh64 (v : W64) : Nat := v.toNat % 64

/-- The unsigned quotient; all ones when the divisor is 0. -/
def divu64 (a b : W64) : W64 := if b = 0 then 0xFFFFFFFFFFFFFFFF else BitVec.ofNat 64 (a.toNat / b.toNat)
/-- The unsigned remainder; the dividend when the divisor is 0. -/
def remu64 (a b : W64) : W64 := if b = 0 then a else BitVec.ofNat 64 (a.toNat % b.toNat)
/-- The upper 64 bits of the unsigned product. -/
def mulhu64 (a b : W64) : W64 := BitVec.ofNat 64 (a.toNat * b.toNat / 2 ^ 64)
/-- `bfx`: (ra ÷ 2^pos) mod 2^len. -/
def bfx64 (a : W64) (pos len : Nat) : W64 := BitVec.ofNat 64 (a.toNat / 2 ^ pos % 2 ^ len)
/-- `bfi`: bits pos + len − 1 to pos of d become the low bits of a. -/
def bfi64 (d a : W64) (pos len : Nat) : W64 :=
  let mask : W64 := BitVec.ofNat 64 ((2 ^ len - 1) * 2 ^ pos)
  (d &&& ~~~mask) ||| (BitVec.ofNat 64 (a.toNat % 2 ^ len * 2 ^ pos) &&& mask)

def execAdd (c : CoreId) (t : TeNo) (rd ra rb : Reg) (s : State) : Host.Outcome State Fault Refusal :=
  .next (s.alu c t rd fun x => x.get ra + x.get rb)
def execSub (c : CoreId) (t : TeNo) (rd ra rb : Reg) (s : State) : Host.Outcome State Fault Refusal :=
  .next (s.alu c t rd fun x => x.get ra - x.get rb)
def execAnd (c : CoreId) (t : TeNo) (rd ra rb : Reg) (s : State) : Host.Outcome State Fault Refusal :=
  .next (s.alu c t rd fun x => x.get ra &&& x.get rb)
def execOr (c : CoreId) (t : TeNo) (rd ra rb : Reg) (s : State) : Host.Outcome State Fault Refusal :=
  .next (s.alu c t rd fun x => x.get ra ||| x.get rb)
def execXor (c : CoreId) (t : TeNo) (rd ra rb : Reg) (s : State) : Host.Outcome State Fault Refusal :=
  .next (s.alu c t rd fun x => x.get ra ^^^ x.get rb)
def execSll (c : CoreId) (t : TeNo) (rd ra rb : Reg) (s : State) : Host.Outcome State Fault Refusal :=
  .next (s.alu c t rd fun x => x.get ra <<< sh64 (x.get rb))
def execSrl (c : CoreId) (t : TeNo) (rd ra rb : Reg) (s : State) : Host.Outcome State Fault Refusal :=
  .next (s.alu c t rd fun x => x.get ra >>> sh64 (x.get rb))
def execSra (c : CoreId) (t : TeNo) (rd ra rb : Reg) (s : State) : Host.Outcome State Fault Refusal :=
  .next (s.alu c t rd fun x => (x.get ra).sshiftRight (sh64 (x.get rb)))
def execSlt (c : CoreId) (t : TeNo) (rd ra rb : Reg) (s : State) : Host.Outcome State Fault Refusal :=
  .next (s.alu c t rd fun x => flag ((x.get ra).slt (x.get rb)))
def execSltu (c : CoreId) (t : TeNo) (rd ra rb : Reg) (s : State) : Host.Outcome State Fault Refusal :=
  .next (s.alu c t rd fun x => flag ((x.get ra).ult (x.get rb)))
def execMul (c : CoreId) (t : TeNo) (rd ra rb : Reg) (s : State) : Host.Outcome State Fault Refusal :=
  .next (s.alu c t rd fun x => x.get ra * x.get rb)
def execMulhu (c : CoreId) (t : TeNo) (rd ra rb : Reg) (s : State) : Host.Outcome State Fault Refusal :=
  .next (s.alu c t rd fun x => mulhu64 (x.get ra) (x.get rb))
def execDivu (c : CoreId) (t : TeNo) (rd ra rb : Reg) (s : State) : Host.Outcome State Fault Refusal :=
  .next (s.alu c t rd fun x => divu64 (x.get ra) (x.get rb))
def execRemu (c : CoreId) (t : TeNo) (rd ra rb : Reg) (s : State) : Host.Outcome State Fault Refusal :=
  .next (s.alu c t rd fun x => remu64 (x.get ra) (x.get rb))
def execAddi (c : CoreId) (t : TeNo) (rd ra : Reg) (imm : Half) (s : State) : Host.Outcome State Fault Refusal :=
  .next (s.alu c t rd fun x => x.get ra + sext imm)
def execAndi (c : CoreId) (t : TeNo) (rd ra : Reg) (imm : Half) (s : State) : Host.Outcome State Fault Refusal :=
  .next (s.alu c t rd fun x => x.get ra &&& zext imm)
def execOri (c : CoreId) (t : TeNo) (rd ra : Reg) (imm : Half) (s : State) : Host.Outcome State Fault Refusal :=
  .next (s.alu c t rd fun x => x.get ra ||| zext imm)
def execXori (c : CoreId) (t : TeNo) (rd ra : Reg) (imm : Half) (s : State) : Host.Outcome State Fault Refusal :=
  .next (s.alu c t rd fun x => x.get ra ^^^ zext imm)
def execSlti (c : CoreId) (t : TeNo) (rd ra : Reg) (imm : Half) (s : State) : Host.Outcome State Fault Refusal :=
  .next (s.alu c t rd fun x => flag ((x.get ra).slt (sext imm)))
def execSltiu (c : CoreId) (t : TeNo) (rd ra : Reg) (imm : Half) (s : State) : Host.Outcome State Fault Refusal :=
  .next (s.alu c t rd fun x => flag ((x.get ra).ult (sext imm)))
def execLui (c : CoreId) (t : TeNo) (rd : Reg) (imm : Half) (s : State) : Host.Outcome State Fault Refusal :=
  .next (s.alu c t rd fun _ => sext imm <<< 16)
def execSlli (c : CoreId) (t : TeNo) (rd ra : Reg) (sh : Fin 64) (s : State) : Host.Outcome State Fault Refusal :=
  .next (s.alu c t rd fun x => x.get ra <<< sh.val)
def execSrli (c : CoreId) (t : TeNo) (rd ra : Reg) (sh : Fin 64) (s : State) : Host.Outcome State Fault Refusal :=
  .next (s.alu c t rd fun x => x.get ra >>> sh.val)
def execSrai (c : CoreId) (t : TeNo) (rd ra : Reg) (sh : Fin 64) (s : State) : Host.Outcome State Fault Refusal :=
  .next (s.alu c t rd fun x => (x.get ra).sshiftRight sh.val)
def execBfx (c : CoreId) (t : TeNo) (rd ra : Reg) (pos lenM1 : Fin 64) (s : State) : Host.Outcome State Fault Refusal :=
  .next (s.alu c t rd fun x => bfx64 (x.get ra) pos.val (lenM1.val + 1))
def execBfi (c : CoreId) (t : TeNo) (rd ra : Reg) (pos lenM1 : Fin 64) (s : State) : Host.Outcome State Fault Refusal :=
  .next (s.alu c t rd fun x => bfi64 (x.get rd) (x.get ra) pos.val (lenM1.val + 1))

/-! ### Data windows (R92 to R98) -/

/-- Where an address of an item lies, with its offset there (R92, R171). -/
inductive Win where
  | scratch (o : Nat)
  | isw (o : Nat)
  | dram (o : Nat)
  | regs (o : Nat)
  deriving DecidableEq, Repr

/-- The window that holds all `n` bytes from `a` and that the level may use; `none` is a `WINDOW` fault (R92, R105). -/
def window (islet store : Bool) (a n : Nat) : Option Win :=
  if a + n ≤ 0x10000 then some (.scratch a)
  else if 0x100000000 ≤ a ∧ a + n ≤ 0x100100000 then
    (if islet && store && decide (a < 0x100080000) then none else some (.isw (a - 0x100000000)))
  else if islet then none
  else if 0x10000000000 ≤ a ∧ a + n ≤ 0x10C00000000 then some (.dram (a - 0x10000000000))
  else if 0x20000000000 ≤ a ∧ a + n ≤ 0x20001000000 then some (.regs (a - 0x20000000000))
  else none

/-- An address and displacement, modulo 2^64. -/
def TeCtx.addr (x : TeCtx) (ra : Reg) (imm : Half) : Nat := (x.get ra + sext imm).toNat

/-- Two byte ranges have a byte in common. -/
def overlaps (a n b m : Nat) : Bool := decide (a < b + m ∧ b < a + n ∧ 0 < n ∧ 0 < m)

/-- A scratch byte of the range is covered by an `hld` or `hst` in flight (R101). -/
def Run.covered (r : Run) (a n : Nat) : Bool :=
  r.toks.toList.any fun k =>
    match k with
    | .flight _ b m _ => overlaps a n b m
    | _ => false

/-- Loads from the ISW: the seat aperture presents the due lists of the item's seat, else 0 (R171). -/
def State.iswLoad (s : State) (x : TeCtx) (o n : Nat) : Nat :=
  if o < 0x10000 then
    match x.run.item.seat with
    | some a => leNat (readBytes (s.due x.core a) o n)
    | none => 0
  else leNat (readBytes (s.isw x.core x.islet) o n)

/-- A store to the ISW or its aperture; for a protected islet the twin's copy follows with the next `done` or
`tick` of the flow (R97). -/
def State.iswStore (s : State) (x : TeCtx) (o : Nat) (b : List Byte) : State :=
  let s := s.noteStore x.core x.run.item.flow x.islet o b
  if o < 0x10000 then
    match x.run.item.seat with
    | some a => s.setDue x.core a (writeBytes (s.due x.core a) o b)
    | none => s
  else s.setIsw x.core x.islet (writeBytes (s.isw x.core x.islet) o b)

/-- A load of `n` bytes, zero-extended. -/
def State.loadAt (s : State) (x : TeCtx) (w : Win) (n : Nat) : Nat × State :=
  match w with
  | .scratch o => (leNat (readBytes x.run.scratch o n), s)
  | .isw o => (s.iswLoad x o n, s)
  | .dram o => (leNat (readBytes (s.dram x.core) o n), s)
  | .regs o =>
    let k := o % 8
    let (v, s) := s.readReg (.prog x.core) (o - k) k n
    (v / 2 ^ (8 * k) % 2 ^ (8 * n), s)

/-- A store of `n` bytes. -/
def State.storeAt (s : State) (x : TeCtx) (w : Win) (n : Nat) (v : W64) : State × TeCtx :=
  let b := leBytes n v.toNat
  match w with
  | .scratch o => (s, { x with run := { x.run with scratch := writeBytes x.run.scratch o b } })
  | .isw o => (s.iswStore x o b, x)
  | .dram o => (s.setDram x.core (writeBytes (s.dram x.core) o b), x)
  | .regs o => (s.writeReg (.prog x.core) o n (BitVec.ofNat 64 (v.toNat % 2 ^ (8 * n))), x)

/-- A scratch access waits for the tokens in flight that cover its bytes (R101). -/
def Win.waits (w : Win) (r : Run) (n : Nat) : Bool :=
  match w with
  | .scratch o => r.covered o n
  | _ => false

/-- `ld8` to `ld64` (R104, R105). -/
def State.load (s : State) (c : CoreId) (t : TeNo) (rd ra : Reg) (imm : Half) (n : Nat) : State :=
  s.instr c t fun s x =>
    let a := x.addr ra imm
    match window x.isletLevel false a n with
    | none => .fault 0x02
    | some w =>
      if a % n ≠ 0 then .fault 0x03
      else if w.waits x.run n then .stall
      else
        let (v, s) := s.loadAt x w n
        .ok s (x.set rd (BitVec.ofNat 64 v))

/-- `st8` to `st64` (R104, R105). -/
def State.store_ (s : State) (c : CoreId) (t : TeNo) (rs ra : Reg) (imm : Half) (n : Nat) : State :=
  s.instr c t fun s x =>
    let a := x.addr ra imm
    match window x.isletLevel true a n with
    | none => .fault 0x02
    | some w =>
      if a % n ≠ 0 then .fault 0x03
      else if w.waits x.run n then .stall
      else
        let (s, x) := s.storeAt x w n (x.get rs)
        .ok s x

def execLd8 (c : CoreId) (t : TeNo) (rd ra : Reg) (imm : Half) (s : State) : Host.Outcome State Fault Refusal :=
  .next (s.load c t rd ra imm 1)
def execLd16 (c : CoreId) (t : TeNo) (rd ra : Reg) (imm : Half) (s : State) : Host.Outcome State Fault Refusal :=
  .next (s.load c t rd ra imm 2)
def execLd32 (c : CoreId) (t : TeNo) (rd ra : Reg) (imm : Half) (s : State) : Host.Outcome State Fault Refusal :=
  .next (s.load c t rd ra imm 4)
def execLd64 (c : CoreId) (t : TeNo) (rd ra : Reg) (imm : Half) (s : State) : Host.Outcome State Fault Refusal :=
  .next (s.load c t rd ra imm 8)
def execSt8 (c : CoreId) (t : TeNo) (rs ra : Reg) (imm : Half) (s : State) : Host.Outcome State Fault Refusal :=
  .next (s.store_ c t rs ra imm 1)
def execSt16 (c : CoreId) (t : TeNo) (rs ra : Reg) (imm : Half) (s : State) : Host.Outcome State Fault Refusal :=
  .next (s.store_ c t rs ra imm 2)
def execSt32 (c : CoreId) (t : TeNo) (rs ra : Reg) (imm : Half) (s : State) : Host.Outcome State Fault Refusal :=
  .next (s.store_ c t rs ra imm 4)
def execSt64 (c : CoreId) (t : TeNo) (rs ra : Reg) (imm : Half) (s : State) : Host.Outcome State Fault Refusal :=
  .next (s.store_ c t rs ra imm 8)

/-- `amoadd` and `amoswp`: on the ISW and unit DRAM only (R98). `f`: the new bytes from the old and g[rb]. -/
def State.amo (s : State) (c : CoreId) (t : TeNo) (rd ra rb : Reg) (f : W64 → W64 → W64) : State :=
  s.instr c t fun s x =>
    let a := (x.get ra).toNat
    let go (w : Win) : TeOut :=
      if a % 8 ≠ 0 then .fault 0x03
      else
        let (v, s) := s.loadAt x w 8
        let old : W64 := BitVec.ofNat 64 v
        let (s, y) := s.storeAt x w 8 (f old (x.get rb))
        .ok s (y.set rd old)
    match window x.isletLevel true a 8 with
    | some (.isw o) => go (.isw o)
    | some (.dram o) => go (.dram o)
    | _ => .fault 0x02

def execAmoadd (c : CoreId) (t : TeNo) (rd ra rb : Reg) (s : State) : Host.Outcome State Fault Refusal :=
  .next (s.amo c t rd ra rb fun old b => old + b)
def execAmoswp (c : CoreId) (t : TeNo) (rd ra rb : Reg) (s : State) : Host.Outcome State Fault Refusal :=
  .next (s.amo c t rd ra rb fun _ b => b)

/-- Stores take effect in order and at once, so `fence` has nothing to wait for (R96). -/
def execFence (c : CoreId) (t : TeNo) (s : State) : Host.Outcome State Fault Refusal :=
  .next (s.instr c t fun s x => .ok s x)

/-! ### Host memory (R99 to R102) -/

def TeCtx.setTok (x : TeCtx) (k : Tok) (v : TokSt) : TeCtx := { x with run := { x.run with toks := x.run.toks.set k.val v } }

def TokSt.inFlight : TokSt → Bool
  | .flight _ _ _ _ => true
  | _ => false

/-- The fault of an `hld` or `hst`, if any (R99, R100). An empty range leaves no area (DEDUCED, log entry 19). Of several
faults that hold, `WINDOW` is raised before `LENGTH`, and that before `TOKEN` (DESIGN CHOICE, log entry 118). -/
def hostFault (x : TeCtx) (tk : Tok) (rs rl : Reg) : Option Nat :=
  let len := (x.get rl).toNat
  if x.islet.val = 0 then some 0x02
  else if 4096 < len ∨ (len ≠ 0 ∧ 0x10000 < (x.get rs).toNat + len) then some 0x08
  else if (x.run.toks[tk]).inFlight then some 0x07
  else none

/-- The function of an item's requests (R99): its entry's, where its argument is an open entry, so that the entry's data and
its record leave through one function (02 R42). -/
def State.itemFn (s : State) (c : CoreId) (it : Item) : FnId :=
  match (s.argHandle it).bind s.entry? with
  | some e => s.entryFn e
  | none => s.islFn c it.islet

/-- An item's `hst` has used a port: its entry's record leaves by it too (01 R20). -/
def State.itemUses (s : State) (it : Item) (p : PortId) : State :=
  match s.argHandle it with
  | some h => s.usePort h p
  | none => s

/-- An `hld` issues its read requests (R99; 14 R363, 10 R286); `none` where PASID Enable forbids them, and they count as one
that has failed (02 R41). -/
def State.issueHld (s : State) (x : TeCtx) (tk : Tok) (addr len : Nat) : Bool × State :=
  let i := x.islet
  let f := s.itemFn x.core x.run.item
  if s.readsRefused f then (false, s.failCount f i)
  else (true, ((s.countDemand i len 0).addReqs f i addr len (.token x.core x.te x.run.slot tk)).count x.core 0x030
    [(1, i.val), (7, f.port.num)] len)

def execHld (c : CoreId) (t : TeNo) (tk : Tok) (rs rh rl : Reg) (s : State) : Host.Outcome State Fault Refusal :=
  .next (s.instr c t fun s x =>
    match hostFault x tk rs rl with
    | some code => .fault code
    | none =>
      let len := (x.get rl).toNat
      if len = 0 then .ok s (x.setTok tk (.done false))
      else
        let (ok, s) := s.issueHld x tk (x.get rh).toNat len
        .ok s (x.setTok tk (if ok then .flight false (x.get rs).toNat len (x.get rh).toNat else .done true)))

/-- An `hst`'s writes leave as it issues, in order (R102), in requests of at most Max Payload Size with Relaxed Ordering (R99);
one that cannot be carried fails (02 R30). -/
def execHst (c : CoreId) (t : TeNo) (tk : Tok) (rs rh rl : Reg) (s : State) : Host.Outcome State Fault Refusal :=
  .next (s.instr c t fun s x =>
    match hostFault x tk rs rl with
    | some code => .fault code
    | none =>
      let len := (x.get rl).toNat
      let a := (x.get rs).toNat
      if len = 0 then .ok s (x.setTok tk (.done false))
      else
        let f := s.itemFn x.core x.run.item
        let (ok, s) := s.writeHost f x.islet (x.get rh).toNat (readBytes x.run.scratch a len)
        .ok (if ok then s.itemUses x.run.item f.port else s) (x.setTok tk (if ok then .flight true a len (x.get rh).toNat else .done true)))

/-- A run's token completes: an `hld` that succeeded lands its data; `none` is a request that failed (R101). -/
def Run.complete (r : Run) (tk : Tok) (data : Option (List Byte)) : Run :=
  match r.toks[tk], data with
  | .flight false a n _, some b =>
    { r with toks := r.toks.set tk.val (.done false), scratch := writeBytes r.scratch a (slice b 0 n) }
  | .flight true _ _ _, some _ => { r with toks := r.toks.set tk.val (.done false) }
  | .flight _ _ _ _, none => { r with toks := r.toks.set tk.val (.done true) }
  | _, _ => r

/-- Change the run of a TE that owns a scratch half. -/
def TeSt.onSlot (te : TeSt) (slot : Fin 2) (f : Run → Run) : TeSt :=
  let g (r : Option Run) : Option Run := r.map fun (k : Run) => if k.slot = slot then f k else k
  { te with cur := g te.cur, staged := g te.staged, pre := g te.pre }

/-- A request of a token waits and is not issued: it cannot have finished (R101). An `hst`'s are known by their address. -/
def State.tokenWaits (s : State) (c : CoreId) (t : TeNo) (slot : Fin 2) (tk : Tok) (r : Run) : Bool :=
  (s.host.reqs.any fun e => e.2.why == .token c t slot tk && e.2.issued.isNone) ||
    (match r.toks[tk] with
      | .flight true _ len addr => s.host.waiting.any fun w =>
        match w.tx with
        | .data _ i a _ _ => i == r.item.islet && decide (addr ≤ a ∧ a < addr + len)
        | _ => false
      | _ => false)

/-- All requests of an `hld` or `hst` of the run in a scratch half have finished; a failed one is counted (R101). -/
def State.tokenComplete (s : State) (c : CoreId) (t : TeNo) (slot : Fin 2) (tk : Tok) (data : Option (List Byte)) : State :=
  let te := s.teSt c t
  match te.runs.find? (fun (r : Run) => r.slot == slot) with
  | none => s
  | some r =>
    if (r.toks[tk]).inFlight && !s.tokenWaits c t slot tk r then
      let s := (s.setTeSt c t (te.onSlot slot fun k => k.complete tk data)).endReqs (· == .token c t slot tk)
      let f := s.itemFn c r.item
      match data with
      | some _ => s
      | none => s.failCount f r.item.islet
    else s

def execHostTokenComplete (c : CoreId) (t : TeNo) (slot : Fin 2) (tk : Tok) (data : Option (List Byte)) (s : State) :
    Host.Outcome State Fault Refusal :=
  .next (s.tokenComplete c t slot tk data)

/-- `hwait` stalls while the token is in flight; one never used reads 0 (R101). -/
def execHwait (c : CoreId) (t : TeNo) (rd : Reg) (tk : Tok) (s : State) : Host.Outcome State Fault Refusal :=
  .next (s.instr c t fun s x =>
    match x.run.toks[tk] with
    | .flight _ _ _ _ => .stall
    | .idle => .ok s (x.set rd 0)
    | .done st => .ok s (x.set rd (flag st)))

/-! ### Control flow (R103, R107, R108) -/

/-- The target of a branch or a jump: pc + 4 + 4 × off. -/
def TeCtx.target (x : TeCtx) (off : W64) : Nat := (BitVec.ofNat 64 (x.pc + 4) + off * 4).toNat

/-- A branch taken when `p` holds of ra and rb. -/
def State.branch (s : State) (c : CoreId) (t : TeNo) (ra rb : Reg) (off : Half) (p : W64 → W64 → Bool) : State :=
  s.instr c t fun s x => .ok s (if p (x.get ra) (x.get rb) then x.jump (x.target (sext off)) else x)

def execBeq (c : CoreId) (t : TeNo) (ra rb : Reg) (off : Half) (s : State) : Host.Outcome State Fault Refusal :=
  .next (s.branch c t ra rb off fun a b => a == b)
def execBne (c : CoreId) (t : TeNo) (ra rb : Reg) (off : Half) (s : State) : Host.Outcome State Fault Refusal :=
  .next (s.branch c t ra rb off fun a b => a != b)
def execBlt (c : CoreId) (t : TeNo) (ra rb : Reg) (off : Half) (s : State) : Host.Outcome State Fault Refusal :=
  .next (s.branch c t ra rb off fun a b => a.slt b)
def execBge (c : CoreId) (t : TeNo) (ra rb : Reg) (off : Half) (s : State) : Host.Outcome State Fault Refusal :=
  .next (s.branch c t ra rb off fun a b => !a.slt b)
def execBltu (c : CoreId) (t : TeNo) (ra rb : Reg) (off : Half) (s : State) : Host.Outcome State Fault Refusal :=
  .next (s.branch c t ra rb off fun a b => a.ult b)
def execBgeu (c : CoreId) (t : TeNo) (ra rb : Reg) (off : Half) (s : State) : Host.Outcome State Fault Refusal :=
  .next (s.branch c t ra rb off fun a b => !a.ult b)

def execJmp (c : CoreId) (t : TeNo) (off : BitVec 26) (s : State) : Host.Outcome State Fault Refusal :=
  .next (s.instr c t fun s x => .ok s (x.jump (x.target (off.signExtend 64))))

/-- `call` pushes pc + 4; the return stack holds eight entries (R108). -/
def execCall (c : CoreId) (t : TeNo) (off : BitVec 26) (s : State) : Host.Outcome State Fault Refusal :=
  .next (s.instr c t fun s x =>
    .ok s ({ x with run := { x.run with rets := ((x.pc + 4) :: x.run.rets).take 8 } }.jump (x.target (off.signExtend 64))))

/-- `ret` pops the return stack. The verifier lets it be reached only inside a function (R119); on an empty stack execution
goes on. -/
def execRet (c : CoreId) (t : TeNo) (s : State) : Host.Outcome State Fault Refusal :=
  .next (s.instr c t fun s x =>
    match x.run.rets with
    | [] => .ok s x
    | a :: r => .ok s ({ x with run := { x.run with rets := r } }.jump a))

/-- `loop` opens a body of `len` words for N passes; with N = 0 execution goes on after it (R107). -/
def execLoop (c : CoreId) (t : TeNo) (rc : Reg) (bound : BitVec 12) (len : BitVec 9) (s : State) : Host.Outcome State Fault Refusal :=
  .next (s.instr c t fun s x =>
    let n := if rc.val = 0 then bound.toNat else min (x.get rc).toNat bound.toNat
    let f : LoopFrame := { start := x.pc + 4, len := len.toNat, left := n, idx := 0, depth := x.run.rets.length }
    if n = 0 ∨ len = 0 then .ok s (x.jump (x.pc + 4 + 4 * len.toNat))
    else .ok s { x with run := { x.run with loops := (f :: x.run.loops).take 4 } })

/-- `lbrk` leaves the innermost loop at the first instruction after its body. -/
def execLbrk (c : CoreId) (t : TeNo) (s : State) : Host.Outcome State Fault Refusal :=
  .next (s.instr c t fun s x =>
    match x.run.loops with
    | [] => .ok s x
    | f :: r => .ok s ({ x with run := { x.run with loops := r } }.jump (f.start + 4 * f.len)))

/-- `lidx`; what it reads with no loop open is free (log entry 3). -/
def execLidx (c : CoreId) (t : TeNo) (rd : Reg) (s : State) : Host.Outcome State Fault Refusal :=
  .next (s.instr c t fun s x =>
    match x.run.loops with
    | f :: _ => .ok s (x.set rd (BitVec.ofNat 64 f.idx))
    | [] =>
      let (k, s) := s.draw
      .ok s (x.set rd (Config.freeWord k)))

/-! ### Script, budget, tick (R109, R110) -/

/-- The open script of a kind 0 item. -/
def TeCtx.script (x : TeCtx) : Option Script := if x.run.item.kind = 0 then x.run.script else none

/-- The record limit: `MAX_RECORDS` of the seat's accepted profile (R109). -/
def State.recordLimit (s : State) (x : Option Seat) : Nat :=
  match x with
  | some a =>
    match (s.usbSeat a).profile with
    | some p => p.maxRecords
    | none => 0
  | none => 0

/-- Records that a program adds to its open script are counted (14 R363). -/
def State.countRecords (s : State) (c : CoreId) (it : Item) (n : Nat) : State :=
  match it.seat with
  | some a => s.count c 0x060 [(2, a.val), (1, it.islet.val)] n
  | none => s

def execEmit (c : CoreId) (t : TeNo) (rd ra rb : Reg) (s : State) : Host.Outcome State Fault Refusal :=
  .next (s.instr c t fun s x =>
    match x.script with
    | none => .fault 0x06
    | some sc =>
      if s.recordLimit x.run.item.seat ≤ sc.recs.length then .ok s (x.set rd 0xFFFFFFFFFFFFFFFF)
      else
        let recs := sc.recs ++ [leBytes 8 (x.get ra).toNat ++ leBytes 8 (x.get rb).toNat]
        let y := { x with run := { x.run with script := some { sc with recs := recs } } }
        .ok (s.countRecords c x.run.item 1) (y.set rd (BitVec.ofNat 64 recs.length)))

def execBudg (c : CoreId) (t : TeNo) (rd ra : Reg) (s : State) : Host.Outcome State Fault Refusal :=
  .next (s.instr c t fun s x =>
    match x.script with
    | none => .fault 0x06
    | some sc =>
      let n := (x.get ra).toNat
      if n ≤ sc.budget then
        let y := { x with run := { x.run with script := some { sc with budget := sc.budget - n } } }
        .ok s (y.set rd (BitVec.ofNat 64 (sc.budget - n)))
      else .ok s (x.set rd (BitVec.ofNat 64 (sc.budget + 2 ^ 63))))

/-- `tick` waits for every token, then seals the script and suspends the item. A handler has no item to suspend: there it
only retires (log entry 26). -/
def execTick (c : CoreId) (t : TeNo) (rd : Reg) (s : State) : Host.Outcome State Fault Refusal :=
  .next (s.instr c t fun s x =>
    if x.handler then .ok s x
    else match x.script with
      | none => .fault 0x06
      | some _ => if x.run.inFlight then .stall else .left fun s r => s.suspend c t r rd)

/-- `done` waits for every token and ends the item; a stock program's effect is taken here (log entry 25). -/
def execDone (c : CoreId) (t : TeNo) (s : State) : Host.Outcome State Fault Refusal :=
  .next (s.instr c t fun s x =>
    if x.handler then .ok s x
    else if x.run.inFlight then .stall
    else .left fun s r =>
      let (s, r') := s.stockRun c r
      let n := match r'.script, r.script with
        | some a, some b => a.recs.length - b.recs.length
        | _, _ => 0
      (if n = 0 then s else s.countRecords c r.item n).endItem c t r')

/-! ### Completions, frames, vectors, items (R111 to R114) -/

/-- The codes that a record's `STATUS` can hold (03 R75 and the code tables of 04, 06, 08, 10). -/
def statusWritten (v : Nat) : Bool :=
  decide (v ≤ 0x07) || decide (0x40 ≤ v ∧ v ≤ 0x4E) || decide (0x50 ≤ v ∧ v ≤ 0x58) || decide (0x60 ≤ v ∧ v ≤ 0x61) ||
    decide (0x70 ≤ v ∧ v ≤ 0x76)

/-- A handle names an open entry of the islet (R111); one that has ended is open no more, though its record may wait for
earlier ones. -/
def State.handleOf (s : State) (i : IsletNo) (v : W64) : Option Nat :=
  match s.entry? v.toNat with
  | some e => if e.islet = i ∧ e.ended.isNone then some v.toNat else none
  | none => none

/-- `postc`. Of several faults that hold, `WINDOW` is raised before `ALIGN`, that before `HANDLE`, and that before `STATUS`
(R111, R112; DESIGN CHOICE, log entry 119). -/
def execPostc (c : CoreId) (t : TeNo) (ra rb : Reg) (s : State) : Host.Outcome State Fault Refusal :=
  .next (s.instr c t fun s x =>
    let a := (x.get ra).toNat
    if 0x10000 < a + 32 then .fault 0x02
    else if a % 32 ≠ 0 then .fault 0x03
    else if x.run.covered a 32 then .stall
    else match s.handleOf x.islet (x.get rb) with
      | none => .fault 0x04
      | some h =>
        let b := readBytes x.run.scratch a 32
        let st := fld b 7 1
        if statusWritten st then .ok (s.finish h st (fld b 12 4) (fld b 16 8)) x else .fault 0x05)

/-- The descriptor of a `send`: seat, tunnel, class, when the level may use them (R113). -/
def State.sendTarget (s : State) (x : TeCtx) (b : List Byte) : Option (Seat × Tunnel × Fin 8) :=
  let seat := fld b 0 1
  let cls := fld b 2 1
  match Tunnel.ofCode (fld b 1 1) with
  | none => none
  | some t =>
    if 63 < seat ∨ 7 < cls then none
    else if x.isletLevel && !(decide (s.owner (toSeat seat) = x.islet) && (t == .usb || t == .net)) then none
    else some (toSeat seat, t, toFin 7 cls)

/-- A TE hands a frame to a seat's tunnel; one that admission refuses is not sent, and the refusal counts as any does
(R113; 09 R261, R266). -/
def State.sendFrame (s : State) (x : TeCtx) (a : Seat) (t : Tunnel) (cls : Fin 8) (b : List Byte) : Bool × State :=
  let h := Hand.plain b x.islet.val (140 + 2 * (teCluster x.te).val)
  match s.allowIn (s.servingCore a) h.input a.val cls h.acct b with
  | (some n, s) => (true, s.enterTun a t (h.frame n))
  | (none, s) => (false, s)

def execSend (c : CoreId) (t : TeNo) (rd ra rb : Reg) (s : State) : Host.Outcome State Fault Refusal :=
  .next (s.instr c t fun s x =>
    let a := (x.get ra).toNat
    let len := (x.get rb).toNat
    if len = 0 ∨ 9196 < len then .fault 0x08
    else if 0x10000 < a + 8 + len then .fault 0x02
    else if x.run.covered a (8 + len) then .stall
    else match s.sendTarget x (readBytes x.run.scratch a 8) with
      | none => .fault 0x02
      | some (seat, tu, cls) =>
        let (ok, s) := s.sendFrame x seat tu cls (readBytes x.run.scratch (a + 8) len)
        .ok s (x.set rd (if ok then 0 else 1)))

/-- `evt` raises a vector of the islet's block (R114, 02 R38). Islet 0 has no block and no `VECTORS`: it counts as 0, and `evt`
of an item of islet 0 raises `WINDOW` (DESIGN CHOICE, log entry 120). -/
def execEvt (c : CoreId) (t : TeNo) (ra : Reg) (s : State) : Host.Outcome State Fault Refusal :=
  .next (s.instr c t fun s x =>
    let v := (x.get ra).toNat
    let i := s.islet x.islet
    if (x.isletLevel || x.islet.val == 0) && decide (i.vectors ≤ v) then .fault 0x02
    else if i.vbase + v < 2048 then .ok (s.msixFor (s.itemFn c x.run.item) (i.vbase + v)) x
    else .ok s x)

/-- The target of a `qitem`: the custom flow's islet, the flow and the level, when the level of the program may use them
(R106, R114). -/
def qitemTarget (x : TeCtx) (w : Nat) : Option (IsletNo × BitVec 24 × Fin 8) :=
  let flow := bits w 23 0
  let level := bits w 26 24
  if 2 ^ 27 ≤ w ∨ flow < 0x800000 ∨ 0xC00000 ≤ flow then none
  else
    let i := toIslet ((flow - 0x800000) / 32768 + 1)
    if x.isletLevel && !(decide (i = x.islet) && decide (level ≤ 3)) then none
    else some (i, BitVec.ofNat 24 flow, toFin 7 level)

def execQitem (c : CoreId) (t : TeNo) (rd ra rb : Reg) (s : State) : Host.Outcome State Fault Refusal :=
  .next (s.instr c t fun s x =>
    match qitemTarget x (x.get ra).toNat with
    | none => .fault 0x02
    | some (i, flow, level) =>
      if (s.dispatch c).holdBack then .ok s (x.set rd 1)
      else
        let it : Item := { Item.init with kind := 6, flow := flow, islet := i, arg := x.get rb }
        .ok (s.readyAt c it level) (x.set rd 0))

/-! ### Context, time, CSRs (R91, R117) -/

def allOnes : W64 := 0xFFFFFFFFFFFFFFFF
def w64 (n : Nat) : W64 := BitVec.ofNat 64 n

/-- The item context by selector (R91). -/
def State.itemContext (s : State) (x : TeCtx) (sel : Nat) : W64 :=
  let it := x.run.item
  let sc := x.script
  match sel with
  | 0 => w64 it.kind
  | 1 => w64 it.level.val
  | 2 => w64 it.flow.toNat
  | 3 => w64 it.islet.val
  | 4 => (it.seat.map fun a => w64 a.val).getD allOnes
  | 5 => (it.head.map fun h => w64 h.val).getD allOnes
  | 6 => (sc.map fun k => w64 k.n).getD allOnes
  | 7 => w64 ((sc.map fun k => k.recs.length).getD 0)
  | 8 => w64 ((sc.map fun k => k.budget).getD 0)
  | 9 => w64 x.run.count
  | 10 => w64 (s.itemBudget it.islet)
  | 11 => w64 x.run.startUt
  | 12 => w64 x.te.val
  | 13 => w64 x.core.num
  | _ => 0

def execRdctx (c : CoreId) (t : TeNo) (rd : Reg) (sel : Half) (s : State) : Host.Outcome State Fault Refusal :=
  .next (s.instr c t fun s x => .ok s (x.set rd (s.itemContext x sel.toNat)))
def execRdut (c : CoreId) (t : TeNo) (rd : Reg) (s : State) : Host.Outcome State Fault Refusal :=
  .next (s.instr c t fun s x => .ok s (x.set rd (w64 (s.ut c))))

/-- `ESTATE`. -/
def TeSt.estate (te : TeSt) : W64 := w64 (b2n te.inHandler + at_ (b2n te.priorUnit) 1)

/-- A CSR's value; `none` is a number that R117 does not list. -/
def TeSt.csr (te : TeSt) (n : Nat) : Option W64 :=
  match n with
  | 0 => some te.epc
  | 1 => some te.ecause
  | 2 => some te.estate
  | _ => none

def execCsrr (c : CoreId) (t : TeNo) (rd : Reg) (csr : Half) (s : State) : Host.Outcome State Fault Refusal :=
  .next (s.instr c t fun s x =>
    match (s.teSt c t).csr csr.toNat with
    | some v => if x.isletLevel then .fault 0x09 else .ok s (x.set rd v)
    | none => .fault 0x09)

/-- `csrw`: `ECAUSE` and `ESTATE` are read-only. -/
def execCsrw (c : CoreId) (t : TeNo) (ra : Reg) (csr : Half) (s : State) : Host.Outcome State Fault Refusal :=
  .next (s.instr c t fun s x =>
    if x.isletLevel || decide (2 < csr.toNat) then .fault 0x09
    else if csr = 0 then .ok (s.setTeSt c t { s.teSt c t with epc := x.get ra }) x
    else .ok s x)

/-! ### Events (R117; 05 R139, R140) -/

/-- `eret` ends a handler: the item goes on at `EPC` with its level and bank. -/
def State.leaveHandler (s : State) (c : CoreId) (t : TeNo) : State :=
  let te := s.teSt c t
  s.setTeSt c t { te with inHandler := false, cur := te.cur.map fun (r : Run) => { r with pc := te.epc.toNat } }

/-- `eret`. An islet image holds none (R119): there the command does nothing. -/
def execEret (c : CoreId) (t : TeNo) (s : State) : Host.Outcome State Fault Refusal :=
  .next (s.instr c t fun s x =>
    if x.isletLevel then .stall
    else if x.handler then .left fun s _ => s.leaveHandler c t
    else .ok s (x.jump (s.teSt c t).epc.toNat))

/-- The better of two candidates (priority, source): the higher priority, then the lower source number. -/
def better (a b : Option (Nat × Nat)) : Option (Nat × Nat) :=
  match a, b with
  | none, b => b
  | a, none => a
  | some p, some q => if q.1 > p.1 || (q.1 == p.1 && decide (q.2 < p.2)) then some q else some p

/-- The candidate that the controller presents to a target (R138, R139): private sources have priority 15. -/
def EvtCore.presented (e : EvtCore) (t : Nat) : Option (Nat × Nat) :=
  let shared := e.pending.foldl (fun best w =>
    let v := w.2 &&& ~~~(e.maskW w.1)
    if v = 0 then best
    else (List.range 64).foldl (fun best b =>
      let n := 64 * w.1 + b
      let src := (e.src n).toNat
      if v.getLsbD b && decide (bits src 5 0 = t) then better best (some (bits src 11 8, n)) else best) best) none
  let p := e.privPend t &&& ~~~(e.privMaskW t)
  (List.range 32).foldl (fun best k => if p.getLsbD k then better best (some (15, 2048 + k)) else best) shared

/-- Delivery clears the source's pending bit (R140). -/
def EvtCore.deliver (e : EvtCore) (t n : Nat) : EvtCore := if n < 2048 then e.setPend n false else e.setPriv t (n - 2048) false

/-- `wfi` waits until an event is presented. An islet image holds none (R119): there the command does nothing. -/
def execWfi (c : CoreId) (t : TeNo) (s : State) : Host.Outcome State Fault Refusal :=
  let te := s.teSt c t
  let seen := ((s.evtCore c).presented t.val).isSome
  let s := if te.waiting && seen && s.teClock c t then s.setTeSt c t { te with waiting := false } else s
  .next (s.instr c t fun s x =>
    if x.isletLevel then .stall
    else if seen then .ok s x
    else .left fun _ _ => s.setTeSt c t { te with waiting := true })

/-- A TE enters the handler of a source: `EPC` takes the address of the item's next instruction, a `wfi` that waited has
ended (R117, R140). -/
def State.enterHandler (s : State) (c : CoreId) (t : TeNo) (n : Nat) : State :=
  let te := s.teSt c t
  let s := s.setEvtCore c ((s.evtCore c).deliver t.val n)
  let s := s.setTeSt c t { te with waiting := false }
  let s := if te.waiting then s.retire (s.teCtx c t) else s
  let te := s.teSt c t
  let base := tget (s.evtCore c).base t.val 0
  s.setTeSt c t { te with
    epc := match te.cur with
      | some r => BitVec.ofNat 64 r.pc
      | none => te.epc,
    ecause := w64 n, inHandler := true, hpc := base.toNat + 32 * n,
    priorUnit := match (te.cur.getD te.idle).prog with
      | .islet _ _ => false
      | _ => true }

/-- A TE can take an event at this boundary (R139); one presented during a restore waits for the item that runs next
(R134). -/
def State.teTakes (s : State) (c : CoreId) (t : TeNo) : Bool :=
  let te := s.teSt c t
  s.teClock c t && !te.inHandler && (te.cur.isSome || (te.staged.isNone && te.pre.isNone))

def State.eventEntry (s : State) (c : CoreId) (t : TeNo) : State :=
  if s.teTakes c t then
    match (s.evtCore c).presented t.val with
    | some (_, n) => s.enterHandler c t n
    | none => s
  else s

/-- The supervisor takes the presented source (R139, R140): its pending bit clears and the supervisor goes to the vector
address. It has its interrupts enabled whenever it runs (DESIGN CHOICE, log entry 75). -/
def State.supervisorTakes (s : State) (c : CoreId) : State :=
  let e := s.evtCore c
  if (s.coreSt c).sup = .running ∧ (s.domain c 1).st = .on then
    match e.presented 32 with
    | some (_, n) => s.setEvtCore c { e.deliver 32 n with supVector := (tget e.base 32 0).toNat + 32 * n }
    | none => s
  else s

def execEventEntry (c : CoreId) (t : Fin 33) (s : State) : Host.Outcome State Fault Refusal :=
  .next (if h : t.val < 32 then s.eventEntry c ⟨t.val, h⟩ else s.supervisorTakes c)

end Sys2Proof.Machine
end

