-- ==== Sys2Proof/Machine/Dispatch.lean ====
section
/-! DEFINITION. One arm per command: the call of its meaning. -/

namespace Sys2Proof.Machine

def exec (i : Instr) (s : State) : Host.Outcome State Fault Refusal :=
  match i with
  | .managerControlWrite f v => Sys2Proof.Machine.execManagerControlWrite f v s
  | .managerLeaseRenew f => Sys2Proof.Machine.execManagerLeaseRenew f s
  | .leaseExpiry p ut => Sys2Proof.Machine.execLeaseExpiry p ut s
  | .semAcquireRead f n tie => Sys2Proof.Machine.execSemAcquireRead f n tie s
  | .semRelease f n => Sys2Proof.Machine.execSemRelease f n s
  | .create f islet => Sys2Proof.Machine.execCreate f islet s
  | .quiesce f islet => Sys2Proof.Machine.execQuiesce f islet s
  | .resume f islet => Sys2Proof.Machine.execResume f islet s
  | .reset f islet => Sys2Proof.Machine.execReset f islet s
  | .destroy f islet => Sys2Proof.Machine.execDestroy f islet s
  | .setSeats f islet => Sys2Proof.Machine.execSetSeats f islet s
  | .isletCmdBadOpcode f opcode islet => Sys2Proof.Machine.execIsletCmdBadOpcode f opcode islet s
  | .descriptorReadCompletion p set data => Sys2Proof.Machine.execDescriptorReadCompletion p set data s
  | .busMasterWaitTimeout p set ut => Sys2Proof.Machine.execBusMasterWaitTimeout p set ut s
  | .busMasterEnableSet f => Sys2Proof.Machine.execBusMasterEnableSet f s
  | .isletDrained j => Sys2Proof.Machine.execIsletDrained j s
  | .hostLinkDown f why => Sys2Proof.Machine.execHostLinkDown f why s
  | .hostLinkUp f en ctl link => Sys2Proof.Machine.execHostLinkUp f en ctl link s
  | .pairedTrafficReturn j c => Sys2Proof.Machine.execPairedTrafficReturn j c s
  | .pasidEnableCleared f => Sys2Proof.Machine.execPasidEnableCleared f s
  | .perstAsserted p => Sys2Proof.Machine.execPerstAsserted p s
  | .hostReadCompletion id data => Sys2Proof.Machine.execHostReadCompletion id data s
  | .completionTimeout id => Sys2Proof.Machine.execCompletionTimeout id s
  | .completionWriteFault c j r => Sys2Proof.Machine.execCompletionWriteFault c j r s
  | .doorbellPost f off data => Sys2Proof.Machine.execDoorbellPost f off data s
  | .doorbellInvalidate f off data => Sys2Proof.Machine.execDoorbellInvalidate f off data s
  | .queueConfigWrite f j q v => Sys2Proof.Machine.execQueueConfigWrite f j q v s
  | .ringConfigWrite f j r v => Sys2Proof.Machine.execRingConfigWrite f j r v s
  | .ringManagerConsumerWrite f j r v => Sys2Proof.Machine.execRingManagerConsumerWrite f j r v s
  | .cqConsumerWrite f j r v => Sys2Proof.Machine.execCqConsumerWrite f j r v s
  | .shadowConsumerLapse j c r ut => Sys2Proof.Machine.execShadowConsumerLapse j c r ut s
  | .entryFetchDone c j q data => Sys2Proof.Machine.execEntryFetchDone c j q data s
  | .entryTake c j q => Sys2Proof.Machine.execEntryTake c j q s
  | .nop c h => Sys2Proof.Machine.execNop c h s
  | .ringWriterPass c j r => Sys2Proof.Machine.execRingWriterPass c j r s
  | .shadowRecordUpdate c j u => Sys2Proof.Machine.execShadowRecordUpdate c j u s
  | .add c t rd ra rb => Sys2Proof.Machine.execAdd c t rd ra rb s
  | .sub c t rd ra rb => Sys2Proof.Machine.execSub c t rd ra rb s
  | .and c t rd ra rb => Sys2Proof.Machine.execAnd c t rd ra rb s
  | .or c t rd ra rb => Sys2Proof.Machine.execOr c t rd ra rb s
  | .xor c t rd ra rb => Sys2Proof.Machine.execXor c t rd ra rb s
  | .sll c t rd ra rb => Sys2Proof.Machine.execSll c t rd ra rb s
  | .srl c t rd ra rb => Sys2Proof.Machine.execSrl c t rd ra rb s
  | .sra c t rd ra rb => Sys2Proof.Machine.execSra c t rd ra rb s
  | .slt c t rd ra rb => Sys2Proof.Machine.execSlt c t rd ra rb s
  | .sltu c t rd ra rb => Sys2Proof.Machine.execSltu c t rd ra rb s
  | .mul c t rd ra rb => Sys2Proof.Machine.execMul c t rd ra rb s
  | .mulhu c t rd ra rb => Sys2Proof.Machine.execMulhu c t rd ra rb s
  | .divu c t rd ra rb => Sys2Proof.Machine.execDivu c t rd ra rb s
  | .remu c t rd ra rb => Sys2Proof.Machine.execRemu c t rd ra rb s
  | .addi c t rd ra imm => Sys2Proof.Machine.execAddi c t rd ra imm s
  | .andi c t rd ra imm => Sys2Proof.Machine.execAndi c t rd ra imm s
  | .ori c t rd ra imm => Sys2Proof.Machine.execOri c t rd ra imm s
  | .xori c t rd ra imm => Sys2Proof.Machine.execXori c t rd ra imm s
  | .slti c t rd ra imm => Sys2Proof.Machine.execSlti c t rd ra imm s
  | .sltiu c t rd ra imm => Sys2Proof.Machine.execSltiu c t rd ra imm s
  | .lui c t rd imm => Sys2Proof.Machine.execLui c t rd imm s
  | .slli c t rd ra sh => Sys2Proof.Machine.execSlli c t rd ra sh s
  | .srli c t rd ra sh => Sys2Proof.Machine.execSrli c t rd ra sh s
  | .srai c t rd ra sh => Sys2Proof.Machine.execSrai c t rd ra sh s
  | .bfx c t rd ra pos lenM1 => Sys2Proof.Machine.execBfx c t rd ra pos lenM1 s
  | .bfi c t rd ra pos lenM1 => Sys2Proof.Machine.execBfi c t rd ra pos lenM1 s
  | .ld8 c t rd ra imm => Sys2Proof.Machine.execLd8 c t rd ra imm s
  | .ld16 c t rd ra imm => Sys2Proof.Machine.execLd16 c t rd ra imm s
  | .ld32 c t rd ra imm => Sys2Proof.Machine.execLd32 c t rd ra imm s
  | .ld64 c t rd ra imm => Sys2Proof.Machine.execLd64 c t rd ra imm s
  | .st8 c t rs ra imm => Sys2Proof.Machine.execSt8 c t rs ra imm s
  | .st16 c t rs ra imm => Sys2Proof.Machine.execSt16 c t rs ra imm s
  | .st32 c t rs ra imm => Sys2Proof.Machine.execSt32 c t rs ra imm s
  | .st64 c t rs ra imm => Sys2Proof.Machine.execSt64 c t rs ra imm s
  | .amoadd c t rd ra rb => Sys2Proof.Machine.execAmoadd c t rd ra rb s
  | .amoswp c t rd ra rb => Sys2Proof.Machine.execAmoswp c t rd ra rb s
  | .fence c t => Sys2Proof.Machine.execFence c t s
  | .hld c t tk rs rh rl => Sys2Proof.Machine.execHld c t tk rs rh rl s
  | .hst c t tk rs rh rl => Sys2Proof.Machine.execHst c t tk rs rh rl s
  | .hostTokenComplete c t slot tk data => Sys2Proof.Machine.execHostTokenComplete c t slot tk data s
  | .hwait c t rd tk => Sys2Proof.Machine.execHwait c t rd tk s
  | .beq c t ra rb off => Sys2Proof.Machine.execBeq c t ra rb off s
  | .bne c t ra rb off => Sys2Proof.Machine.execBne c t ra rb off s
  | .blt c t ra rb off => Sys2Proof.Machine.execBlt c t ra rb off s
  | .bge c t ra rb off => Sys2Proof.Machine.execBge c t ra rb off s
  | .bltu c t ra rb off => Sys2Proof.Machine.execBltu c t ra rb off s
  | .bgeu c t ra rb off => Sys2Proof.Machine.execBgeu c t ra rb off s
  | .jmp c t off => Sys2Proof.Machine.execJmp c t off s
  | .call c t off => Sys2Proof.Machine.execCall c t off s
  | .ret c t => Sys2Proof.Machine.execRet c t s
  | .loop c t rc bound len => Sys2Proof.Machine.execLoop c t rc bound len s
  | .lbrk c t => Sys2Proof.Machine.execLbrk c t s
  | .lidx c t rd => Sys2Proof.Machine.execLidx c t rd s
  | .emit c t rd ra rb => Sys2Proof.Machine.execEmit c t rd ra rb s
  | .budg c t rd ra => Sys2Proof.Machine.execBudg c t rd ra s
  | .tick c t rd => Sys2Proof.Machine.execTick c t rd s
  | .tickResume c t x ut => Sys2Proof.Machine.execTickResume c t x ut s
  | .postc c t ra rb => Sys2Proof.Machine.execPostc c t ra rb s
  | .send c t rd ra rb => Sys2Proof.Machine.execSend c t rd ra rb s
  | .evt c t ra => Sys2Proof.Machine.execEvt c t ra s
  | .qitem c t rd ra rb => Sys2Proof.Machine.execQitem c t rd ra rb s
  | .done c t => Sys2Proof.Machine.execDone c t s
  | .rdctx c t rd sel => Sys2Proof.Machine.execRdctx c t rd sel s
  | .rdut c t rd => Sys2Proof.Machine.execRdut c t rd s
  | .csrr c t rd csr => Sys2Proof.Machine.execCsrr c t rd csr s
  | .csrw c t ra csr => Sys2Proof.Machine.execCsrw c t ra csr s
  | .eret c t => Sys2Proof.Machine.execEret c t s
  | .wfi c t => Sys2Proof.Machine.execWfi c t s
  | .faultRecordRelease c j r => Sys2Proof.Machine.execFaultRecordRelease c j r s
  | .eventEntry c t => Sys2Proof.Machine.execEventEntry c t s
  | .programLoadLoad c h data => Sys2Proof.Machine.execProgramLoadLoad c h data s
  | .programLoadUnload c h => Sys2Proof.Machine.execProgramLoadUnload c h s
  | .unitProgramLoad f slot => Sys2Proof.Machine.execUnitProgramLoad f slot s
  | .unitProgramUnload f slot => Sys2Proof.Machine.execUnitProgramUnload f slot s
  | .unitProgramBadField f action slot => Sys2Proof.Machine.execUnitProgramBadField f action slot s
  | .itemDispatch c t => Sys2Proof.Machine.execItemDispatch c t s
  | .preemption c cl => Sys2Proof.Machine.execPreemption c cl s
  | .preemptedRestore c t => Sys2Proof.Machine.execPreemptedRestore c t s
  | .clusterModeWrite w c v => Sys2Proof.Machine.execClusterModeWrite w c v s
  | .clusterModeChanged c cl => Sys2Proof.Machine.execClusterModeChanged c cl s
  | .seatTick c x ut => Sys2Proof.Machine.execSeatTick c x ut s
  | .maxWaitRead f l => Sys2Proof.Machine.execMaxWaitRead f l s
  | .eventEdge c src => Sys2Proof.Machine.execEventEdge c src s
  | .evtPendingWrite w c priv k v => Sys2Proof.Machine.execEvtPendingWrite w c priv k v s
  | .evtMaskWrite w c priv k v => Sys2Proof.Machine.execEvtMaskWrite w c priv k v s
  | .evtSourceWrite w c n v => Sys2Proof.Machine.execEvtSourceWrite w c n v s
  | .evtVectorBaseWrite w c t v => Sys2Proof.Machine.execEvtVectorBaseWrite w c t v s
  | .evtTimerWrite w c t v => Sys2Proof.Machine.execEvtTimerWrite w c t v s
  | .evtTimerFire c t ut => Sys2Proof.Machine.execEvtTimerFire c t ut s
  | .supervisorSweep ut => Sys2Proof.Machine.execSupervisorSweep ut s
  | .profile x body => Sys2Proof.Machine.execProfile x body s
  | .usbOpen c h => Sys2Proof.Machine.execUsbOpen c h s
  | .close c h => Sys2Proof.Machine.execClose c h s
  | .clearHalt c h => Sys2Proof.Machine.execClearHalt c h s
  | .abort c h => Sys2Proof.Machine.execAbort c h s
  | .usbControl c h => Sys2Proof.Machine.execUsbControl c h s
  | .usbBulk c h => Sys2Proof.Machine.execUsbBulk c h s
  | .usbInterrupt c h => Sys2Proof.Machine.execUsbInterrupt c h s
  | .usbIsoch c h => Sys2Proof.Machine.execUsbIsoch c h s
  | .results x iso param0 body => Sys2Proof.Machine.execResults x iso param0 body s
  | .timedOut c h ut => Sys2Proof.Machine.execTimedOut c h ut s
  | .isoResultLost x n ut => Sys2Proof.Machine.execIsoResultLost x n ut s
  | .rootPortReset f j x p => Sys2Proof.Machine.execRootPortReset f j x p s
  | .rootPortSuspend f j x p => Sys2Proof.Machine.execRootPortSuspend f j x p s
  | .rootPortResume f j x p => Sys2Proof.Machine.execRootPortResume f j x p s
  | .rootPortDisable f j x p => Sys2Proof.Machine.execRootPortDisable f j x p s
  | .rootPortPowerOff f j x p => Sys2Proof.Machine.execRootPortPowerOff f j x p s
  | .rootPortPowerOn f j x p => Sys2Proof.Machine.execRootPortPowerOn f j x p s
  | .rootPortBadCommand f j x p => Sys2Proof.Machine.execRootPortBadCommand f j x p s
  | .rootPortChangeClear f j x p bits => Sys2Proof.Machine.execRootPortChangeClear f j x p bits s
  | .rootHubOperation x => Sys2Proof.Machine.execRootHubOperation x s
  | .autonegComplete x msg rates => Sys2Proof.Machine.execAutonegComplete x msg rates s
  | .foreignEnergyTimeout x ut => Sys2Proof.Machine.execForeignEnergyTimeout x ut s
  | .foreignClear x ut => Sys2Proof.Machine.execForeignClear x ut s
  | .trainingComplete l => Sys2Proof.Machine.execTrainingComplete l s
  | .trainingTimeout x ut => Sys2Proof.Machine.execTrainingTimeout x ut s
  | .pcsLinkUp x => Sys2Proof.Machine.execPcsLinkUp x s
  | .straitFrameReceive x pcsError bytes ut => Sys2Proof.Machine.execStraitFrameReceive x pcsError bytes ut s
  | .nak x body => Sys2Proof.Machine.execNak x body s
  | .nakSend x tn ut => Sys2Proof.Machine.execNakSend x tn ut s
  | .reportDue x tn ut => Sys2Proof.Machine.execReportDue x tn ut s
  | .keepaliveDue x ut => Sys2Proof.Machine.execKeepaliveDue x ut s
  | .retransmitTimerExpiry x tn ut => Sys2Proof.Machine.execRetransmitTimerExpiry x tn ut s
  | .helloRetry x ut => Sys2Proof.Machine.execHelloRetry x ut s
  | .helloGiveUp x ut => Sys2Proof.Machine.execHelloGiveUp x ut s
  | .helloReply x body => Sys2Proof.Machine.execHelloReply x body s
  | .authRetry x ut => Sys2Proof.Machine.execAuthRetry x ut s
  | .goodbye x => Sys2Proof.Machine.execGoodbye x s
  | .phyLinkFail x => Sys2Proof.Machine.execPhyLinkFail x s
  | .silence x ut => Sys2Proof.Machine.execSilence x ut s
  | .holdDownExpiry x ut => Sys2Proof.Machine.execHoldDownExpiry x ut s
  | .seatLinkControlWrite w x v => Sys2Proof.Machine.execSeatLinkControlWrite w x v s
  | .rateTargetWrite w x rate => Sys2Proof.Machine.execRateTargetWrite w x rate s
  | .rateAck x body => Sys2Proof.Machine.execRateAck x body s
  | .rateAckTimeout x ut => Sys2Proof.Machine.execRateAckTimeout x ut s
  | .rateChangeStop x ut => Sys2Proof.Machine.execRateChangeStop x ut s
  | .rateChangeTimeout x ut => Sys2Proof.Machine.execRateChangeTimeout x ut s
  | .delayUpdate x ut => Sys2Proof.Machine.execDelayUpdate x ut s
  | .dockTime x body => Sys2Proof.Machine.execDockTime x body s
  | .calibrationSlot x margin ut => Sys2Proof.Machine.execCalibrationSlot x margin ut s
  | .dockKeyAdd f => Sys2Proof.Machine.execDockKeyAdd f s
  | .dockKeyRemove f => Sys2Proof.Machine.execDockKeyRemove f s
  | .dockKeyRemoveAll f => Sys2Proof.Machine.execDockKeyRemoveAll f s
  | .dockKeyBadAction f action => Sys2Proof.Machine.execDockKeyBadAction f action s
  | .attach c h => Sys2Proof.Machine.execAttach c h s
  | .detach c h => Sys2Proof.Machine.execDetach c h s
  | .abortFrame c h => Sys2Proof.Machine.execAbortFrame c h s
  | .readEdid c h => Sys2Proof.Machine.execReadEdid c h s
  | .selectSource c h => Sys2Proof.Machine.execSelectSource c h s
  | .displayFrame c h => Sys2Proof.Machine.execDisplayFrame c h s
  | .gatherStart c hd => Sys2Proof.Machine.execGatherStart c hd s
  | .gatherDone c ch => Sys2Proof.Machine.execGatherDone c ch s
  | .sliceEncoded c pipe => Sys2Proof.Machine.execSliceEncoded c pipe s
  | .sliceHandoff hd viewer => Sys2Proof.Machine.execSliceHandoff hd viewer s
  | .commitHandoff hd viewer => Sys2Proof.Machine.execCommitHandoff hd viewer s
  | .behindTimeout hd ut => Sys2Proof.Machine.execBehindTimeout hd ut s
  | .frameRecord c hd => Sys2Proof.Machine.execFrameRecord c hd s
  | .mirrorCopyDone c hd => Sys2Proof.Machine.execMirrorCopyDone c hd s
  | .monitor x lh param0 param1 edid => Sys2Proof.Machine.execMonitor x lh param0 param1 edid s
  | .configDone x lh param0 => Sys2Proof.Machine.execConfigDone x lh param0 s
  | .applied x lh param0 param1 => Sys2Proof.Machine.execApplied x lh param0 param1 s
  | .storeLost x lh => Sys2Proof.Machine.execStoreLost x lh s
  | .statusScreenRedraw hd ut => Sys2Proof.Machine.execStatusScreenRedraw hd ut s
  | .cellTime c offered => Sys2Proof.Machine.execCellTime c offered s
  | .frameVerdict c p => Sys2Proof.Machine.execFrameVerdict c p s
  | .resequencerTimeout c output trunk cls ut => Sys2Proof.Machine.execResequencerTimeout c output trunk cls ut s
  | .fabMcastWrite w c g word1 v => Sys2Proof.Machine.execFabMcastWrite w c g word1 v s
  | .generationRetire c g => Sys2Proof.Machine.execGenerationRetire c g s
  | .fabOutMinWrite w c p v => Sys2Proof.Machine.execFabOutMinWrite w c p v s
  | .gateApply w x v => Sys2Proof.Machine.execGateApply w x v s
  | .gateControlCalWrite w x v => Sys2Proof.Machine.execGateControlCalWrite w x v s
  | .entryStart x ut => Sys2Proof.Machine.execEntryStart x ut s
  | .lineFreeSelect x ut => Sys2Proof.Machine.execLineFreeSelect x ut s
  | .netTransmit c h => Sys2Proof.Machine.execNetTransmit c h s
  | .netReceiveBuffer c h => Sys2Proof.Machine.execNetReceiveBuffer c h s
  | .netFrameReceive x utLow frame ut => Sys2Proof.Machine.execNetFrameReceive x utLow frame ut s
  | .demandLatch c meanFrame ut => Sys2Proof.Machine.execDemandLatch c meanFrame ut s
  | .policyTick ut => Sys2Proof.Machine.execPolicyTick ut s
  | .allotmentWrite w r v => Sys2Proof.Machine.execAllotmentWrite w r v s
  | .boundWrite w j r v => Sys2Proof.Machine.execBoundWrite w j r v s
  | .policyControlWrite w v => Sys2Proof.Machine.execPolicyControlWrite w v s
  | .supplyInputLost x ut => Sys2Proof.Machine.execSupplyInputLost x ut s
  | .supplyInputGood x ut => Sys2Proof.Machine.execSupplyInputGood x ut s
  | .supplyInserted x ut => Sys2Proof.Machine.execSupplyInserted x ut s
  | .supplyWithdrawn x ut => Sys2Proof.Machine.execSupplyWithdrawn x ut s
  | .bothFeedsLost => Sys2Proof.Machine.execBothFeedsLost s
  | .supplyPoll vinA vinB poutA poutB ut => Sys2Proof.Machine.execSupplyPoll vinA vinB poutA poutB ut s
  | .detection x sig ut => Sys2Proof.Machine.execDetection x sig ut s
  | .powerOnExamine ut => Sys2Proof.Machine.execPowerOnExamine ut s
  | .mpsLost x ut => Sys2Proof.Machine.execMpsLost x ut s
  | .softShed mean1s ut => Sys2Proof.Machine.execSoftShed mean1s ut s
  | .hardShed mean1s ut => Sys2Proof.Machine.execHardShed mean1s ut s
  | .shedEnd x ut => Sys2Proof.Machine.execShedEnd x ut s
  | .pairShort x ut => Sys2Proof.Machine.execPairShort x ut s
  | .pairOverload x ut => Sys2Proof.Machine.execPairOverload x ut s
  | .faultRetry x ut => Sys2Proof.Machine.execFaultRetry x ut s
  | .cycle w x => Sys2Proof.Machine.execCycle w x s
  | .seatPowerEnableWrite w x v => Sys2Proof.Machine.execSeatPowerEnableWrite w x v s
  | .wakePattern x => Sys2Proof.Machine.execWakePattern x s
  | .domainVoteWrite w c d v => Sys2Proof.Machine.execDomainVoteWrite w c d v s
  | .domainTransitionDone c d ut => Sys2Proof.Machine.execDomainTransitionDone c d ut s
  | .domainWake c d ut => Sys2Proof.Machine.execDomainWake c d ut s
  | .wakeHoldEnd c d ut => Sys2Proof.Machine.execWakeHoldEnd c d ut s
  | .clockSwitch c d => Sys2Proof.Machine.execClockSwitch c d s
  | .clockSwitchTimeout c d ut => Sys2Proof.Machine.execClockSwitchTimeout c d ut s
  | .pmbusAck c vdsp => Sys2Proof.Machine.execPmbusAck c vdsp s
  | .pmbusTimeout c vdsp ut => Sys2Proof.Machine.execPmbusTimeout c vdsp ut s
  | .referenceLoss c => Sys2Proof.Machine.execReferenceLoss c s
  | .warmStart f slot => Sys2Proof.Machine.execWarmStart f slot s
  | .coldStart f slot => Sys2Proof.Machine.execColdStart f slot s
  | .rollingUpdate f slot force => Sys2Proof.Machine.execRollingUpdate f slot force s
  | .rollingUpdatePhaseDone ok fallbackOk => Sys2Proof.Machine.execRollingUpdatePhaseDone ok fallbackOk s
  | .writeImage f slot => Sys2Proof.Machine.execWriteImage f slot s
  | .supervisorRestart f => Sys2Proof.Machine.execSupervisorRestart f s
  | .unitCmdBadField f action slot => Sys2Proof.Machine.execUnitCmdBadField f action slot s
  | .startStepDone r ut => Sys2Proof.Machine.execStartStepDone r ut s
  | .startWatchdog ut => Sys2Proof.Machine.execStartWatchdog ut s
  | .reasonClear code ut => Sys2Proof.Machine.execReasonClear code ut s
  | .conditionTimer k ut => Sys2Proof.Machine.execConditionTimer k ut s
  | .serviceTimeout ut => Sys2Proof.Machine.execServiceTimeout ut s
  | .safeStop cause => Sys2Proof.Machine.execSafeStop cause s
  | .safeStopPowerOff ut => Sys2Proof.Machine.execSafeStopPowerOff ut s
  | .heartbeat c dataOk supOk cwOk token ut => Sys2Proof.Machine.execHeartbeat c dataOk supOk cwOk token ut s
  | .heartbeatLost c ut => Sys2Proof.Machine.execHeartbeatLost c ut s
  | .hardError c code => Sys2Proof.Machine.execHardError c code s
  | .fenceConfirmTimeout c ut => Sys2Proof.Machine.execFenceConfirmTimeout c ut s
  | .failoverAdoption c => Sys2Proof.Machine.execFailoverAdoption c s
  | .failoverFirstBuild x ut => Sys2Proof.Machine.execFailoverFirstBuild x ut s
  | .supervisorRestartDone c ok => Sys2Proof.Machine.execSupervisorRestartDone c ok s
  | .refereeLost c selfCheck ut => Sys2Proof.Machine.execRefereeLost c selfCheck ut s
  | .refereeReturned ut => Sys2Proof.Machine.execRefereeReturned ut s
  | .laneRemoved n => Sys2Proof.Machine.execLaneRemoved n s
  | .laneRetrain n ok => Sys2Proof.Machine.execLaneRetrain n ok s
  | .causewayTimeSample ut => Sys2Proof.Machine.execCausewayTimeSample ut s
  | .correctableError c at_ detail => Sys2Proof.Machine.execCorrectableError c at_ detail s
  | .uncorrectableDramError c r channel detail => Sys2Proof.Machine.execUncorrectableDramError c r channel detail s
  | .counterSelectWrite w c n v => Sys2Proof.Machine.execCounterSelectWrite w c n v s
  | .counterValueWrite w c n v => Sys2Proof.Machine.execCounterValueWrite w c n v s
  | .counterFreeze w c v => Sys2Proof.Machine.execCounterFreeze w c v s
  | .counterSnapshot w c v => Sys2Proof.Machine.execCounterSnapshot w c v s
  | .counterClear w c v => Sys2Proof.Machine.execCounterClear w c v s
  | .counterWindowSelect w c v => Sys2Proof.Machine.execCounterWindowSelect w c v s
  | .counterFreezeUtWrite w c v => Sys2Proof.Machine.execCounterFreezeUtWrite w c v s
  | .counterFreezeUtFire c ut => Sys2Proof.Machine.execCounterFreezeUtFire c ut s
  | .bandwidthWindowEnd c ut => Sys2Proof.Machine.execBandwidthWindowEnd c ut s
  | .consoleLine p => Sys2Proof.Machine.execConsoleLine p s
  | .help p => Sys2Proof.Machine.execHelp p s
  | .status p => Sys2Proof.Machine.execStatus p s
  | .seatShow p x => Sys2Proof.Machine.execSeatShow p x s
  | .seatList p => Sys2Proof.Machine.execSeatList p s
  | .seatCycle p x => Sys2Proof.Machine.execSeatCycle p x s
  | .seatCont p x pair blink => Sys2Proof.Machine.execSeatCont p x pair blink s
  | .seatContRead p => Sys2Proof.Machine.execSeatContRead p s
  | .seatContOff p => Sys2Proof.Machine.execSeatContOff p s
  | .continuityMeasure mV ut => Sys2Proof.Machine.execContinuityMeasure mV ut s
  | .continuityTimeout ut => Sys2Proof.Machine.execContinuityTimeout ut s
  | .seatTdr p x => Sys2Proof.Machine.execSeatTdr p x s
  | .cableTestDone pairs => Sys2Proof.Machine.execCableTestDone pairs s
  | .supply p => Sys2Proof.Machine.execSupply p s
  | .fans p => Sys2Proof.Machine.execFans p s
  | .log p n => Sys2Proof.Machine.execLog p n s
  | .logPrev p => Sys2Proof.Machine.execLogPrev p s
  | .errors p c => Sys2Proof.Machine.execErrors p c s
  | .tp p mV => Sys2Proof.Machine.execTp p mV s
  | .meas p code => Sys2Proof.Machine.execMeas p code s
  | .measUpdate ut => Sys2Proof.Machine.execMeasUpdate ut s
  | .testList p => Sys2Proof.Machine.execTestList p s
  | .testRun p n => Sys2Proof.Machine.execTestRun p n s
  | .selfTestDone pass item => Sys2Proof.Machine.execSelfTestDone pass item s
  | .service p => Sys2Proof.Machine.execService p s
  | .serviceEnd p => Sys2Proof.Machine.execServiceEnd p s
  | .consoleWarm p => Sys2Proof.Machine.execConsoleWarm p s
  | .consoleCold p slot => Sys2Proof.Machine.execConsoleCold p slot s
  | .consoleRestart p => Sys2Proof.Machine.execConsoleRestart p s
  | .consoleStop p => Sys2Proof.Machine.execConsoleStop p s
  | .confirmReply p line => Sys2Proof.Machine.execConfirmReply p line s
  | .confirmTimeout ut => Sys2Proof.Machine.execConfirmTimeout ut s
  | .unsupervisedNotice ut => Sys2Proof.Machine.execUnsupervisedNotice ut s
  | .selectTap ut => Sys2Proof.Machine.execSelectTap ut s
  | .selectHold ut => Sys2Proof.Machine.execSelectHold ut s
  | .selectLongHold ut => Sys2Proof.Machine.execSelectLongHold ut s
  | .panelIdle ut => Sys2Proof.Machine.execPanelIdle ut s
  | .usbBusReset => Sys2Proof.Machine.execUsbBusReset s
  | .usbSuspend => Sys2Proof.Machine.execUsbSuspend s
  | .usbResume => Sys2Proof.Machine.execUsbResume s
  | .vbusLost => Sys2Proof.Machine.execVbusLost s
  | .vbusPresent => Sys2Proof.Machine.execVbusPresent s
  | .setLineCoding coding completed => Sys2Proof.Machine.execSetLineCoding coding completed s
  | .getLineCoding => Sys2Proof.Machine.execGetLineCoding s
  | .setControlLineState dtr => Sys2Proof.Machine.execSetControlLineState dtr s
  | .classRequestStall request => Sys2Proof.Machine.execClassRequestStall request s
  | .bulkOutReceive bytes => Sys2Proof.Machine.execBulkOutReceive bytes s
  | .registerReadOversized f off size => Sys2Proof.Machine.execRegisterReadOversized f off size s
  | .registerWrite f bar off data => Sys2Proof.Machine.execRegisterWrite f bar off data s
  | .supplyOutputFailed x ut => Sys2Proof.Machine.execSupplyOutputFailed x ut s
  | .fanLoss n rpm ut => Sys2Proof.Machine.execFanLoss n rpm ut s
  | .fanInserted n ut => Sys2Proof.Machine.execFanInserted n ut s
  | .thermalLimitCrossed junctionA junctionB inlet ut => Sys2Proof.Machine.execThermalLimitCrossed junctionA junctionB inlet ut s
  | .phyManagementTimeout q ut => Sys2Proof.Machine.execPhyManagementTimeout q ut s
  | .partnerEnergyDetected x ut => Sys2Proof.Machine.execPartnerEnergyDetected x ut s
  | .openConductorDetected x goodA metres => Sys2Proof.Machine.execOpenConductorDetected x goodA metres s
  | .faultRetryCountClear x ut => Sys2Proof.Machine.execFaultRetryCountClear x ut s
  | .busMasterEnableCleared f => Sys2Proof.Machine.execBusMasterEnableCleared f s
  | .pasidEnableSet f => Sys2Proof.Machine.execPasidEnableSet f s
  | .msixVectorUnmasked f enable v => Sys2Proof.Machine.execMsixVectorUnmasked f enable v s
  | .aspmL1Entry f => Sys2Proof.Machine.execAspmL1Entry f s
  | .flashWriteComplete ok => Sys2Proof.Machine.execFlashWriteComplete ok s
  | .mirrorLagTimeout hd ut => Sys2Proof.Machine.execMirrorLagTimeout hd ut s
  | .consoleRxCharacter p ch => Sys2Proof.Machine.execConsoleRxCharacter p ch s
  | .bulkInToken => Sys2Proof.Machine.execBulkInToken s

end Sys2Proof.Machine
end

