-- ==== Sys2Proof/Safety.lean ====
section
/-! DEFINITION. The terms that claims about the unit are stated in: what a command yields, what holds of every sound
state, and what a command may change. -/

namespace Sys2Proof.Machine

/-- A command in a state answers a next state of which `P` holds. -/
def Yields (i : Instr) (s : State) (P : State → Prop) : Prop := ∃ t, exec i s = .next t ∧ P t

/-- Every memory of the unit, and the table that holds it, is in canonical form. -/
def MemSt.wf (m : MemSt) : Bool :=
  twf (fun _ => []) m.isw && twf (fun _ => []) m.dram && twf (fun _ => []) m.due &&
    m.isw.all (fun e => Memory.wf e.2) && m.dram.all (fun e => Memory.wf e.2) && m.due.all (fun e => Memory.wf e.2)

/-- A command register set is idle at both ports (02 R51). -/
def SetIdle (s : State) (k : CmdSet) : Prop := ∀ p, (s.cmdSt p k).busy = false

/-- The command of a set at a port has ended with this status (02 R47). -/
def Ended (t : State) (p : PortId) (k : CmdSet) (status : Byte) : Prop :=
  (t.cmdSt p k).busy = false ∧ (t.cmdSt p k).status = status

/-- The command of a set at a port waits for the data of its host read, and the other port's set is idle (02 R407). -/
def Reading (s : State) (p : PortId) (k : CmdSet) (op : Byte) : Prop :=
  (s.cmdSt p k).busy = true ∧ (s.cmdSt p k).phase = .waitRead ∧ (s.cmdSt p k).op = op ∧ (s.cmdSt p.other k).busy = false

/-- A command written through `f` has latched its operands and waits for its read, or for Bus Master Enable (02 R407). -/
def AwaitsRead (s t : State) (f : FnId) (k : CmdSet) (op arg : Byte) : Prop :=
  (t.cmdSt f.port k).busy = true ∧ (t.cmdSt f.port k).op = op ∧ (t.cmdSt f.port k).arg = arg ∧ (t.cmdSt f.port k).fn = f ∧
    (t.cmdSt f.port k).latched = (s.cmdSt f.port k).addr ∧
    (t.cmdSt f.port k).phase = (if (s.fnSt f).bme then .waitRead else .waitBme)

/-- The bytes of the records made for an entry's ring that the ring writer has yet to take. -/
def State.madeFor (s : State) (e : EntrySt) : List (List Byte) := (s.ring e.core e.islet e.ring.toNat).made.map (·.bytes)

/-- The open entry `e` of handle `h` ends. The oldest of its queue's flow gives its record to the entry's ring, and its handle
is free; a later one keeps its result until those before it have given theirs (03 R64, R71, R75). -/
def Completes (s t : State) (h : Nat) (e : EntrySt) (status count detail : Nat) : Prop :=
  if (s.firstOf e).map (·.1) = some h then
    t.entry? h = none ∧
      (s.madeFor e ++ [recordBytes e.tag (queueField e.core e.queue.val) e.type status e.idx.toNat count detail (s.ut (s.runs e.core))]) <+:
        t.madeFor e
  else
    t.madeFor e = s.madeFor e ∧
      ∃ x d, t.entry? h = some x ∧ x.ended = some d ∧ x.bytes = e.bytes ∧ d.status = status ∧ d.count = count ∧ d.detail = detail

/-- The entry of a handle has ended: nothing of it is open but, at most, a result that waits for earlier ones (03 R71). -/
def Finished (t : State) (h : Nat) : Prop := ∀ e, t.entry? h = some e → e.ended.isSome = true

/-- The entry `v` that queue `q` gives up is refused as it is taken: it has ended, with this status where no earlier entry of
its flow is open (03 R63, R64). -/
def RefusedAtTaking (s t : State) (c : CoreId) (i : IsletNo) (q : Fin 512) (v : Cached) (status : Nat) : Prop :=
  Finished t s.freshHandle ∧ ∀ e : EntrySt, e.core = c → e.islet = i → e.queue = q → e.ring = (s.queue c i q.val).ring →
    e.bytes = v.bytes → s.firstOf e = none →
    (t.madeFor e).getLast? = some (recordBytes e.tag (queueField c q.val) e.type status v.idx.toNat 0 0 (s.ut (s.runs c)))

/-- The entry `v` that queue `q` gives up is taken, and is open under the next handle (03 R70; 04 R89). -/
def Opened (s t : State) (c : CoreId) (i : IsletNo) (q : Fin 512) (v : Cached) : Prop :=
  ∃ e, t.entry? s.freshHandle = some e ∧ e.bytes = v.bytes ∧ e.core = c ∧ e.islet = i ∧ e.queue = q ∧ e.idx = v.idx ∧
    e.ring = (s.queue c i q.val).ring ∧ e.ended = none

/-- The next entry that a taking round of an islet on a core takes is `v`, of queue `q`, and its body is good (03 R70, R82). -/
def TakesNext (s : State) (c : CoreId) (i : IsletNo) (q : Fin 512) (v : Cached) : Prop :=
  (∃ goesOn fresh, s.nextQueue c i = some (q.val, goesOn, fresh)) ∧ (s.queue c i q.val).cache.head? = some v ∧
    s.bodyCause c i q.val v.bytes = none

/-- The bytes have gone to host memory from an address through a function, in requests of at most its Max Payload Size, with
the islet's PASID and Relaxed Ordering (01 R21; 02 R27, R29). -/
def Writes (s t : State) (f : FnId) (i : IsletNo) (addr : Nat) (b : List Byte) : Prop :=
  ∀ e ∈ chunks (s.fnSt f).maxPay addr b.length, HostTx.data f i (addr + e.1) (slice b e.1 e.2) (s.tlp f i true) ∈ t.host.tx

/-- The error log of a core (13 R356). -/
def State.errors (s : State) : CoreId → List LogRec
  | .a => s.flt.logA
  | .b => s.flt.logB

/-- The error log of a core holds a record of this event and location (13 R356, R357). -/
def Logged (t : State) (c : CoreId) (code loc : Nat) : Prop := ∃ r ∈ t.errors c, r.code.toNat = code ∧ r.location.toNat = loc

/-- A console command is accepted on its port now: the console has power, no command waits for its confirmation, the mode and
the rules of the command allow it (15 R374, R375). -/
def TakesLine (s : State) (c : ConsCmd) : Prop :=
  s.consoleLive = true ∧ s.svc.confirm = none ∧ s.mode.mode ≠ .unsupervised ∧ c.unknown = none ∧ s.consoleRefusal c = none

/-- The console command that a row is, and its port; `tp` takes the voltages of the test points as its operand, which a line
does not carry (15 R375, R380). -/
def consRow : Instr → Option (ConsPort × ConsCmd)
  | .help p => some (p, .help)
  | .status p => some (p, .status)
  | .seatShow p x => some (p, .seatShow x)
  | .seatList p => some (p, .seatList)
  | .seatCycle p x => some (p, .seatCycle x)
  | .seatCont p x q b => some (p, .seatCont x q b)
  | .seatContRead p => some (p, .seatContRead)
  | .seatContOff p => some (p, .seatContOff)
  | .seatTdr p x => some (p, .seatTdr x)
  | .supply p => some (p, .supply)
  | .fans p => some (p, .fans)
  | .log p n => some (p, .log n)
  | .logPrev p => some (p, .logPrev)
  | .errors p c => some (p, .errors c)
  | .meas p n => some (p, .meas n)
  | .testList p => some (p, .testList)
  | .testRun p n => some (p, .testRun n)
  | .service p => some (p, .service)
  | .serviceEnd p => some (p, .serviceEnd)
  | .consoleWarm p => some (p, .warm)
  | .consoleCold p n => some (p, .cold n)
  | .consoleRestart p => some (p, .restart)
  | .consoleStop p => some (p, .stop)
  | _ => none

/-- Output lines as bytes. -/
def linesText (l : List (List Byte)) : List Byte := l.flatMap fun x => x ++ Config.lineEnd

/-- The prompt of a state: unit index, mode, `> ` (15 R375). -/
def State.promptText (s : State) : List Byte := ascii "U" ++ dec s.host.unitIndex.toNat ++ sp ++ s.mode.mode.text ++ ascii "> "

/-- The console has printed these lines and then the prompt. -/
def Says (s t : State) (l : List (List Byte)) : Prop := t.svc.outRj = s.svc.outRj ++ linesText l ++ t.promptText

/-- A TE is at an instruction that may run: its clock runs, it runs an item or a handler, and the item's budget is not used
up (04 R115; 05 R139). -/
def TeReady (s : State) (c : CoreId) (t : TeNo) : Prop := s.teRuns c t = true ∧ s.overBudget (s.teCtx c t) = false

/-- What the TE holds once the instruction that made `x` has retired: control has gone on, and the item's instruction is
counted (04 R107, R115). -/
def TeCtx.after (x : TeCtx) : TeCtx :=
  let y := x.settle
  { y with
    run := if x.handler then y.run else { y.run with pc := y.next, count := y.run.count + 1 }
    pc := y.next
    next := (y.next + 4) % 2 ^ 64 }

/-- An islet command for islet `n` passes the checks that every opcode shares (02 R51, R52). -/
def IsletCmdFits (s : State) (f : FnId) (op n : Byte) : Prop :=
  s.fnUp f = true ∧ SetIdle s .islet ∧ 1 ≤ n.toNat ∧ n.toNat ≤ 128 ∧ s.modeForbids op = false ∧ s.apart = false ∧
    (s.host.wiring = true ∨ (s.islet (toIslet n.toNat)).st = .free ∨ (s.islet (toIslet n.toNat)).owner = f.port)

/-- A function's link and registers, but for the messages it holds. -/
abbrev FnSt.regs (f : FnSt) : FnSt := { f with pba := [], modeChange := false }

/-- The messages that a function holds, and its `MODE_CHANGE` (02 R408; 12 R318). -/
abbrev FnSt.held (f : FnSt) : Tab Bool × Bool := (f.pba, f.modeChange)

/-- The parts of the state, for frames. -/
inductive Part where
  /-- Unit time of both cores. -/
  | time
  /-- The link and the registers of the four functions, but for held messages. -/
  | functions
  /-- The ports' managers, leases and commands. -/
  | ports
  /-- Unit index, wiring, semaphores, item budget, configuration store. -/
  | managers
  /-- Host reads in flight. -/
  | hostReads
  /-- The islets. -/
  | islets
  /-- The queues and their shadows. -/
  | queues
  /-- The completion rings and their shadows. -/
  | rings
  /-- The open entries. -/
  | entries
  /-- Discarded doorbells. -/
  | discards
  /-- The program stores. -/
  | programs
  /-- The transfer engines. -/
  | engines
  /-- The dispatchers. -/
  | dispatchers
  /-- The event controllers. -/
  | events
  /-- ISW, unit DRAM, due lists. -/
  | memory
  /-- The seats of the USB service. -/
  | usbSeats
  /-- The root ports. -/
  | rootPorts
  /-- The endpoint contexts. -/
  | endpoints
  /-- The transfers. -/
  | transfers
  /-- The split tables. -/
  | splits
  /-- The seat links. -/
  | links
  /-- Dock time. -/
  | dockTimes
  /-- The tunnels. -/
  | tunnels
  /-- The dock keys. -/
  | dockKeys
  /-- The heads. -/
  | heads
  /-- The views. -/
  | views
  /-- Gathers and encoders. -/
  | gathers
  /-- Mirrors and twin stores. -/
  | mirrors
  /-- Configuration numbers. -/
  | configNos
  /-- The fabric. -/
  | fabric
  /-- The seats' gates. -/
  | gates
  /-- The line queues. -/
  | lineQueues
  /-- The seats' network. -/
  | network
  /-- Demand. -/
  | demand
  /-- The islets' rates. -/
  | isletRates
  /-- The policy registers. -/
  | policy
  /-- Seat power. -/
  | seatPower
  /-- The power domains. -/
  | domains
  /-- Supplies, budget and sheds. -/
  | supplies
  /-- The mode. -/
  | mode
  /-- Starts, slots, rolling updates, conditions. -/
  | starts
  /-- The reasons. -/
  | reasons
  /-- Cores, referee, lanes, serving cores. -/
  | faults
  /-- Reference steering. -/
  | clocks
  /-- The error logs. -/
  | errorLogs
  /-- The counters. -/
  | counters
  /-- Console, panel and service port. -/
  | service
  /-- The number of the next free value. -/
  | free
  /-- Held messages and the functions' mode changes. -/
  | messages
  /-- Host requests: issued, waiting, sent. -/
  | requests
  /-- What the lines carry. -/
  | lines
  /-- The part of a nanosecond that steering has yet to give. -/
  | carry
  deriving DecidableEq, Repr

/-- A part is the same in both states. -/
def Part.same (p : Part) (s t : State) : Prop :=
  match p with
  | .time => t.time.utA = s.time.utA ∧ t.time.utB = s.time.utB
  | .functions => ∀ f, (t.fnSt f).regs = (s.fnSt f).regs
  | .ports => ∀ p, t.portSt p = s.portSt p
  | .managers => t.host.unitIndex = s.host.unitIndex ∧ t.host.wiring = s.host.wiring ∧ t.host.sems = s.host.sems ∧
      t.host.tieNext = s.host.tieNext ∧ t.host.budget = s.host.budget ∧ t.host.store = s.host.store
  | .hostReads => t.host.reads = s.host.reads ∧ t.host.lastRead = s.host.lastRead
  | .islets => t.isl = s.isl
  | .queues => t.wq.queues = s.wq.queues ∧ t.wq.shQueues = s.wq.shQueues
  | .rings => t.wq.rings = s.wq.rings ∧ t.wq.shRings = s.wq.shRings
  | .entries => t.wq.entries = s.wq.entries ∧ t.wq.nextHandle = s.wq.nextHandle
  | .discards => t.wq.discards = s.wq.discards ∧ t.wq.visit = s.wq.visit
  | .programs => t.prog = s.prog
  | .engines => t.te.tes = s.te.tes
  | .dispatchers => t.te.dispA = s.te.dispA ∧ t.te.dispB = s.te.dispB
  | .events => t.evt = s.evt
  | .memory => t.mem = s.mem
  | .usbSeats => t.usb.seats = s.usb.seats
  | .rootPorts => t.usb.ports = s.usb.ports
  | .endpoints => t.usb.eps = s.usb.eps
  | .transfers => t.usb.xfers = s.usb.xfers
  | .splits => t.usb.tts = s.usb.tts
  | .links => t.link.seats = s.link.seats
  | .dockTimes => t.link.times = s.link.times
  | .tunnels => t.link.tuns = s.link.tuns
  | .dockKeys => t.link.keys = s.link.keys
  | .heads => t.disp.heads = s.disp.heads
  | .views => t.disp.views = s.disp.views
  | .gathers => t.disp.gathers = s.disp.gathers ∧ t.disp.pipes = s.disp.pipes
  | .mirrors => t.disp.mirrors = s.disp.mirrors ∧ t.disp.twinStores = s.disp.twinStores ∧
      t.disp.twinParts = s.disp.twinParts
  | .configNos => t.disp.configNos = s.disp.configNos
  | .fabric => t.fab = s.fab
  | .gates => t.traf.seats = s.traf.seats
  | .lineQueues => t.traf.wfq = s.traf.wfq
  | .network => t.traf.net = s.traf.net
  | .demand => t.traf.demand = s.traf.demand
  | .isletRates => t.traf.islets = s.traf.islets
  | .policy => t.traf.control = s.traf.control ∧ t.traf.lastFrame = s.traf.lastFrame ∧
      t.traf.lastUs = s.traf.lastUs ∧ t.traf.missed = s.traf.missed ∧
      t.traf.latchedFrame = s.traf.latchedFrame ∧ t.traf.rateDrops = s.traf.rateDrops
  | .seatPower => t.pow.seats = s.pow.seats
  | .domains => t.pow.a = s.pow.a ∧ t.pow.b = s.pow.b
  | .supplies => t.pow.sa = s.pow.sa ∧ t.pow.sb = s.pow.sb ∧ t.pow.budget = s.pow.budget ∧
      t.pow.sheds = s.pow.sheds ∧ t.pow.lastOn = s.pow.lastOn ∧ t.pow.hardSince = s.pow.hardSince
  | .mode => t.mode.mode = s.mode.mode
  | .starts => t.mode.prev = s.mode.prev ∧ t.mode.start = s.mode.start ∧ t.mode.failCount = s.mode.failCount ∧
      t.mode.failedShown = s.mode.failedShown ∧ t.mode.onGolden = s.mode.onGolden ∧
      t.mode.goldenHeld = s.mode.goldenHeld ∧ t.mode.stopCause = s.mode.stopCause ∧
      t.mode.stopUt = s.mode.stopUt ∧ t.mode.stopOff = s.mode.stopOff ∧
      t.mode.stopHot = s.mode.stopHot ∧ t.mode.slot0 = s.mode.slot0 ∧ t.mode.slot1 = s.mode.slot1 ∧
      t.mode.golden = s.mode.golden ∧ t.mode.runningA = s.mode.runningA ∧
      t.mode.runningB = s.mode.runningB ∧ t.mode.bootSlot = s.mode.bootSlot ∧
      t.mode.verified = s.mode.verified ∧ t.mode.roll = s.mode.roll ∧ t.mode.writing = s.mode.writing ∧
      t.mode.lastInput = s.mode.lastInput ∧ t.mode.timers = s.mode.timers ∧
      t.mode.junctionA = s.mode.junctionA ∧ t.mode.junctionB = s.mode.junctionB ∧
      t.mode.inlet = s.mode.inlet
  | .reasons => t.mode.reasons = s.mode.reasons ∧ t.mode.first = s.mode.first ∧
      t.mode.clearing = s.mode.clearing ∧ t.mode.causes = s.mode.causes
  | .faults => t.flt.a = s.flt.a ∧ t.flt.b = s.flt.b ∧ t.flt.token = s.flt.token ∧
      t.flt.refereeLost = s.flt.refereeLost ∧ t.flt.lanes = s.flt.lanes ∧ t.flt.seats = s.flt.seats ∧
      t.flt.adopt = s.flt.adopt ∧ t.flt.adopted = s.flt.adopted ∧ t.flt.moved = s.flt.moved ∧
      t.flt.buildFrom = s.flt.buildFrom
  | .clocks => t.flt.steerPpm = s.flt.steerPpm ∧ t.flt.utDiff = s.flt.utDiff
  | .errorLogs => t.flt.logA = s.flt.logA ∧ t.flt.logB = s.flt.logB ∧ t.flt.nextA = s.flt.nextA ∧
      t.flt.nextB = s.flt.nextB
  | .counters => t.cnt = s.cnt
  | .service => t.svc = s.svc
  | .free => t.free = s.free
  | .messages => ∀ f, (t.fnSt f).held = (s.fnSt f).held
  | .requests => t.host.reqs = s.host.reqs ∧ t.host.nextRead = s.host.nextRead ∧ t.host.waiting = s.host.waiting ∧
      t.host.deficit = s.host.deficit ∧ t.host.turn = s.host.turn ∧ t.host.tx = s.host.tx
  | .lines => t.link.line = s.link.line
  | .carry => t.time.rem = s.time.rem

/-- Every part that the list does not name is the same. -/
def Only (l : List Part) (s t : State) : Prop := ∀ p, p ∉ l → p.same s t

/-- Every part. -/
def Part.all : List Part :=
  [.time, .functions, .ports, .managers, .hostReads, .islets, .queues, .rings, .entries, .discards, .programs, .engines, .dispatchers, .events, .memory, .usbSeats, .rootPorts, .endpoints, .transfers, .splits, .links, .dockTimes, .tunnels, .dockKeys, .heads, .views, .gathers, .mirrors, .configNos, .fabric, .gates, .lineQueues, .network, .demand, .isletRates, .policy, .seatPower, .domains, .supplies, .mode, .starts, .reasons, .faults, .clocks, .errorLogs, .counters, .service, .free, .messages, .requests, .lines, .carry]

/-- The parts that a command may change; it changes no other. -/
def mayChange : Instr → List Part
  | .managerControlWrite _ _ => [.ports, .managers, .mode, .starts, .counters, .service, .messages, .requests]
  | .managerLeaseRenew _ => [.ports, .mode, .starts, .counters, .service, .messages, .requests]
  | .leaseExpiry _ _ =>
    [.time, .ports, .managers, .engines, .events, .domains, .mode, .starts, .counters, .service, 
      .messages, .requests, .carry]
  | .semAcquireRead _ _ _ => [.managers, .requests]
  | .semRelease _ _ => [.managers]
  | .create _ _ | .quiesce _ _ | .resume _ _ | .reset _ _ | .destroy _ _ | .setSeats _ _
  | .isletCmdBadOpcode _ _ _ | .descriptorReadCompletion _ _ _ | .busMasterWaitTimeout _ _ _ | .st8 _ _ _ _ _
  | .st16 _ _ _ _ _ | .st32 _ _ _ _ _ | .st64 _ _ _ _ _ | .amoadd _ _ _ _ _ | .amoswp _ _ _ _ _
  | .unitProgramLoad _ _ | .unitProgramUnload _ _ | .unitProgramBadField _ _ _ | .dockKeyAdd _ | .dockKeyRemove _
  | .dockKeyRemoveAll _ | .dockKeyBadAction _ _ | .warmStart _ _ | .coldStart _ _ | .rollingUpdate _ _ _
  | .writeImage _ _ | .supervisorRestart _ | .unitCmdBadField _ _ _ | .startStepDone _ _ | .consoleLine _
  | .help _ | .status _ | .seatShow _ _ | .seatList _ | .seatCycle _ _ | .seatCont _ _ _ _ | .seatContRead _
  | .seatContOff _ | .seatTdr _ _ | .supply _ | .fans _ | .log _ _ | .logPrev _ | .errors _ _ | .tp _ _
  | .meas _ _ | .testList _ | .testRun _ _ | .service _ | .serviceEnd _ | .consoleWarm _ | .consoleCold _ _
  | .consoleRestart _ | .consoleStop _ | .confirmReply _ _ | .selectHold _ | .bulkOutReceive _
  | .registerWrite _ _ _ _ | .flashWriteComplete _ | .consoleRxCharacter _ _ => Part.all
  | .busMasterEnableSet _ => [.functions, .ports, .messages, .requests]
  | .isletDrained _ | .pairedTrafficReturn _ _ => [.islets]
  | .hostLinkDown _ _ | .perstAsserted _ =>
    Part.all.filter (· ∉ [.time, .ports, .managers, .hostReads, .queues, .discards, .programs, .engines, 
      .dispatchers, .usbSeats, .rootPorts, .splits, .links, .dockTimes, .dockKeys, .gathers, .demand, 
      .policy, .seatPower, .supplies, .reasons, .faults, .clocks, .errorLogs, .free, .lines, .carry])
  | .hostLinkUp _ _ _ _ =>
    Part.all.filter (· ∉ [.time, .managers, .hostReads, .queues, .discards, .programs, .engines, 
      .dispatchers, .usbSeats, .rootPorts, .splits, .links, .dockTimes, .dockKeys, .gathers, .mirrors, 
      .demand, .policy, .seatPower, .supplies, .reasons, .faults, .clocks, .errorLogs, .free, .lines, 
      .carry])
  | .pasidEnableCleared _ | .busMasterEnableCleared _ => [.functions]
  | .hostReadCompletion _ _ | .completionTimeout _ =>
    Part.all.filter (· ∉ [.time, .functions, .ports, .managers, .islets, .programs, .engines, .rootPorts, 
      .links, .dockTimes, .dockKeys, .views, .configNos, .demand, .policy, .seatPower, .supplies, .mode, 
      .starts, .reasons, .faults, .clocks, .errorLogs, .service, .messages, .lines, .carry])
  | .completionWriteFault _ _ _ =>
    [.islets, .rings, .entries, .events, .memory, .endpoints, .transfers, .heads, .network, .isletRates, 
      .domains, .counters, .messages, .requests]
  | .doorbellPost _ _ _ | .doorbellInvalidate _ _ _ | .entryFetchDone _ _ _ _ | .ringWriterPass _ _ _ =>
    [.islets, .queues, .rings, .entries, .discards, .events, .memory, .endpoints, .transfers, .heads, 
      .network, .isletRates, .domains, .counters, .messages, .requests]
  | .queueConfigWrite _ _ _ _ => [.queues]
  | .ringConfigWrite _ _ _ _ => [.rings, .events, .domains, .counters]
  | .ringManagerConsumerWrite _ _ _ _ | .cqConsumerWrite _ _ _ _ => [.queues, .rings, .discards, .events, .domains, .counters]
  | .shadowConsumerLapse _ _ _ _ => [.time, .islets, .queues, .rings, .discards, .engines, .events, .domains, .counters, .carry]
  | .entryTake _ _ _ =>
    [.islets, .queues, .rings, .entries, .discards, .dispatchers, .events, .memory, .endpoints, 
      .transfers, .tunnels, .heads, .network, .isletRates, .domains, .counters, .messages, .requests]
  | .nop _ _ => [.rings, .entries, .events, .domains, .counters]
  | .shadowRecordUpdate _ _ _ => [.queues, .rings]
  | .add _ _ _ _ _ | .sub _ _ _ _ _ | .and _ _ _ _ _ | .or _ _ _ _ _ | .xor _ _ _ _ _ | .sll _ _ _ _ _
  | .srl _ _ _ _ _ | .sra _ _ _ _ _ | .slt _ _ _ _ _ | .sltu _ _ _ _ _ | .mul _ _ _ _ _ | .mulhu _ _ _ _ _
  | .divu _ _ _ _ _ | .remu _ _ _ _ _ | .addi _ _ _ _ _ | .andi _ _ _ _ _ | .ori _ _ _ _ _ | .xori _ _ _ _ _
  | .slti _ _ _ _ _ | .sltiu _ _ _ _ _ | .lui _ _ _ _ | .slli _ _ _ _ _ | .srli _ _ _ _ _ | .srai _ _ _ _ _
  | .bfx _ _ _ _ _ _ | .bfi _ _ _ _ _ _ | .fence _ _ | .hwait _ _ _ _ | .beq _ _ _ _ _ | .bne _ _ _ _ _
  | .blt _ _ _ _ _ | .bge _ _ _ _ _ | .bltu _ _ _ _ _ | .bgeu _ _ _ _ _ | .jmp _ _ _ | .call _ _ _ | .ret _ _
  | .loop _ _ _ _ _ | .lbrk _ _ | .emit _ _ _ _ _ | .budg _ _ _ _ | .postc _ _ _ _ | .send _ _ _ _ _
  | .rdctx _ _ _ _ | .rdut _ _ _ | .csrr _ _ _ _ | .csrw _ _ _ _ | .eret _ _ | .wfi _ _ =>
    [.ports, .rings, .entries, .programs, .engines, .events, .memory, .usbSeats, .endpoints, .transfers, 
      .tunnels, .fabric, .gates, .lineQueues, .policy, .domains, .counters, .service, .requests]
  | .ld8 _ _ _ _ _ | .ld16 _ _ _ _ _ | .ld32 _ _ _ _ _ | .ld64 _ _ _ _ _ =>
    [.ports, .rings, .entries, .programs, .engines, .dispatchers, .events, .memory, .usbSeats, 
      .endpoints, .transfers, .tunnels, .fabric, .gates, .lineQueues, .policy, .domains, .counters, 
      .service, .free, .requests]
  | .hld _ _ _ _ _ _ | .hst _ _ _ _ _ _ =>
    [.ports, .rings, .entries, .programs, .engines, .events, .memory, .usbSeats, .endpoints, .transfers, 
      .tunnels, .fabric, .gates, .lineQueues, .isletRates, .policy, .domains, .counters, .service, 
      .requests]
  | .hostTokenComplete _ _ _ _ _ => [.engines, .events, .domains, .counters, .requests]
  | .lidx _ _ _ =>
    [.ports, .rings, .entries, .programs, .engines, .events, .memory, .usbSeats, .endpoints, .transfers, 
      .tunnels, .fabric, .gates, .lineQueues, .policy, .domains, .counters, .service, .free, .requests]
  | .tick _ _ _ | .qitem _ _ _ _ _ =>
    [.ports, .queues, .rings, .entries, .discards, .programs, .engines, .dispatchers, .events, .memory, 
      .usbSeats, .endpoints, .transfers, .tunnels, .fabric, .gates, .lineQueues, .policy, .domains, 
      .counters, .service, .requests]
  | .tickResume _ _ _ _ => [.time, .queues, .discards, .engines, .dispatchers, .events, .tunnels, .domains, .counters, .carry]
  | .evt _ _ _ =>
    [.ports, .rings, .entries, .programs, .engines, .events, .memory, .usbSeats, .endpoints, .transfers, 
      .tunnels, .fabric, .gates, .lineQueues, .policy, .domains, .counters, .service, .messages, 
      .requests]
  | .done _ _ =>
    Part.all.filter (· ∉ [.time, .functions, .managers, .hostReads, .islets, .queues, .discards, 
      .rootPorts, .splits, .dockKeys, .heads, .views, .gathers, .mirrors, .configNos, .network, .demand, 
      .supplies, .mode, .starts, .reasons, .faults, .clocks, .errorLogs, .messages, .lines, .carry])
  | .faultRecordRelease _ _ _ => [.rings]
  | .eventEntry _ _ => [.engines, .events, .domains, .counters]
  | .programLoadLoad _ _ _ => [.rings, .entries, .programs, .events, .memory, .isletRates, .domains, .counters, .free, .requests]
  | .programLoadUnload _ _ => [.rings, .entries, .programs, .events, .domains, .counters]
  | .itemDispatch _ _ | .preemption _ _ | .preemptedRestore _ _ => [.queues, .discards, .engines, .dispatchers, .events, .tunnels, .domains, .counters]
  | .clusterModeWrite _ _ _ => [.engines, .dispatchers]
  | .clusterModeChanged _ _ => [.dispatchers]
  | .seatTick _ _ _ =>
    [.time, .queues, .rings, .entries, .discards, .engines, .dispatchers, .events, .memory, .usbSeats, 
      .endpoints, .transfers, .splits, .tunnels, .fabric, .gates, .lineQueues, .isletRates, .domains, 
      .counters, .requests, .carry]
  | .maxWaitRead _ _ => [.dispatchers, .requests]
  | .eventEdge _ _ | .evtPendingWrite _ _ _ _ _ | .evtMaskWrite _ _ _ _ _ | .evtSourceWrite _ _ _ _
  | .domainVoteWrite _ _ _ _ => [.events, .domains, .counters]
  | .evtVectorBaseWrite _ _ _ _ | .evtTimerWrite _ _ _ _ => [.events]
  | .evtTimerFire _ _ _ | .supervisorSweep _ | .domainWake _ _ _ | .wakeHoldEnd _ _ _ | .clockSwitchTimeout _ _ _
  | .counterFreezeUtFire _ _ | .bandwidthWindowEnd _ _ => [.time, .engines, .events, .domains, .counters, .carry]
  | .profile _ _ => [.usbSeats, .rootPorts, .counters, .service]
  | .usbOpen _ _ => [.rings, .entries, .events, .memory, .endpoints, .splits, .domains, .counters]
  | .close _ _ | .abort _ _ =>
    [.rings, .entries, .events, .memory, .usbSeats, .endpoints, .transfers, .splits, .isletRates, 
      .domains, .counters, .requests]
  | .clearHalt _ _ =>
    [.rings, .entries, .events, .memory, .endpoints, .transfers, .tunnels, .fabric, .gates, .lineQueues, 
      .domains, .counters]
  | .usbControl _ _ | .usbBulk _ _ | .usbInterrupt _ _ =>
    [.hostReads, .rings, .entries, .events, .memory, .usbSeats, .endpoints, .transfers, .splits, 
      .tunnels, .fabric, .gates, .lineQueues, .isletRates, .domains, .counters, .requests]
  | .usbIsoch _ _ =>
    [.hostReads, .rings, .entries, .events, .memory, .usbSeats, .endpoints, .transfers, .splits, 
      .isletRates, .domains, .counters, .requests]
  | .results _ _ _ _ =>
    Part.all.filter (· ∉ [.time, .functions, .ports, .managers, .islets, .programs, .engines, .dockKeys, 
      .demand, .policy, .seatPower, .supplies, .mode, .starts, .reasons, .faults, .clocks, .errorLogs, 
      .service, .free, .messages, .lines, .carry])
  | .timedOut _ _ _ | .isoResultLost _ _ _ =>
    [.time, .rings, .entries, .engines, .events, .memory, .usbSeats, .endpoints, .transfers, .splits, 
      .isletRates, .domains, .counters, .requests, .carry]
  | .rootPortReset _ _ _ _ | .rootPortSuspend _ _ _ _ | .rootPortResume _ _ _ _ | .rootPortDisable _ _ _ _
  | .rootPortPowerOff _ _ _ _ | .rootPortPowerOn _ _ _ _ | .rootPortBadCommand _ _ _ _ => [.usbSeats]
  | .rootPortChangeClear _ _ _ _ _ => [.rootPorts]
  | .rootHubOperation _ =>
    [.rings, .entries, .events, .memory, .usbSeats, .rootPorts, .endpoints, .transfers, .splits, 
      .tunnels, .fabric, .gates, .lineQueues, .isletRates, .domains, .counters, .requests]
  | .autonegComplete _ _ _ | .wakePattern _ => [.events, .links, .dockTimes, .seatPower, .domains, .counters]
  | .foreignEnergyTimeout _ _ => [.time, .engines, .events, .links, .seatPower, .domains, .counters, .carry]
  | .foreignClear _ _ => [.time, .engines, .events, .links, .dockTimes, .seatPower, .domains, .counters, .carry]
  | .trainingComplete _ => [.events, .links, .gates, .lineQueues, .seatPower, .domains, .counters]
  | .trainingTimeout _ _ | .rateAckTimeout _ _ | .partnerEnergyDetected _ _ => [.time, .engines, .events, .links, .dockTimes, .domains, .counters, .carry]
  | .pcsLinkUp _ =>
    [.rings, .entries, .events, .memory, .usbSeats, .rootPorts, .endpoints, .transfers, .splits, .links, 
      .tunnels, .fabric, .gates, .lineQueues, .isletRates, .domains, .counters, .free, .requests]
  | .straitFrameReceive _ _ _ _ =>
    Part.all.filter (· ∉ [.functions, .ports, .managers, .islets, .programs, .dockKeys, .policy, 
      .seatPower, .supplies, .mode, .starts, .reasons, .faults, .clocks, .errorLogs, .messages, .lines])
  | .nak _ _ => [.tunnels, .counters]
  | .nakSend _ _ _ | .reportDue _ _ _ | .keepaliveDue _ _ =>
    [.time, .engines, .events, .links, .tunnels, .lineQueues, .demand, .domains, .counters, .lines, 
      .carry]
  | .retransmitTimerExpiry _ _ _ | .helloGiveUp _ _ | .silence _ _ | .holdDownExpiry _ _ | .rateChangeStop _ _ =>
    Part.all.filter (· ∉ [.functions, .ports, .managers, .islets, .queues, .discards, .programs, 
      .dispatchers, .dockKeys, .demand, .policy, .seatPower, .supplies, .mode, .starts, .reasons, .faults, 
      .clocks, .errorLogs, .service, .free, .messages, .lines])
  | .helloRetry _ _ | .authRetry _ _ =>
    [.time, .rings, .entries, .engines, .events, .links, .tunnels, .fabric, .gates, .lineQueues, 
      .domains, .counters, .free, .carry]
  | .helloReply _ _ | .goodbye _ | .phyLinkFail _ =>
    Part.all.filter (· ∉ [.time, .functions, .ports, .managers, .islets, .queues, .discards, .programs, 
      .engines, .dispatchers, .dockKeys, .demand, .policy, .seatPower, .supplies, .mode, .starts, .reasons, 
      .faults, .clocks, .errorLogs, .service, .free, .messages, .lines, .carry])
  | .seatLinkControlWrite _ _ _ =>
    Part.all.filter (· ∉ [.time, .functions, .ports, .islets, .queues, .discards, .programs, .engines, 
      .dispatchers, .dockKeys, .demand, .policy, .supplies, .mode, .starts, .reasons, .faults, .clocks, 
      .errorLogs, .service, .free, .messages, .lines, .carry])
  | .rateTargetWrite _ _ _ =>
    [.rings, .entries, .events, .links, .dockTimes, .tunnels, .fabric, .gates, .lineQueues, .domains, 
      .counters]
  | .rateAck _ _ | .dockTime _ _ => [.dockTimes, .counters]
  | .rateChangeTimeout _ _ =>
    [.time, .rings, .entries, .engines, .events, .links, .dockTimes, .tunnels, .fabric, .domains, 
      .counters, .carry]
  | .delayUpdate _ _ =>
    [.time, .engines, .events, .dockTimes, .tunnels, .fabric, .gates, .lineQueues, .domains, .counters, 
      .carry]
  | .calibrationSlot _ _ _ => [.time, .engines, .events, .dockTimes, .gates, .lineQueues, .domains, .counters, .carry]
  | .attach _ _ | .detach _ _ =>
    [.hostReads, .queues, .rings, .entries, .discards, .dispatchers, .events, .tunnels, .heads, .views, 
      .gathers, .mirrors, .configNos, .fabric, .gates, .lineQueues, .domains, .counters, .requests]
  | .abortFrame _ _ =>
    [.hostReads, .queues, .rings, .entries, .discards, .dispatchers, .events, .tunnels, .heads, .gathers, 
      .domains, .counters, .requests]
  | .readEdid _ _ =>
    [.queues, .rings, .entries, .discards, .dispatchers, .events, .tunnels, .isletRates, .domains, 
      .counters, .requests]
  | .selectSource _ _ =>
    [.queues, .rings, .entries, .discards, .dispatchers, .events, .tunnels, .views, .configNos, .fabric, 
      .gates, .lineQueues, .domains, .counters]
  | .displayFrame _ _ => [.queues, .entries, .discards, .dispatchers, .events, .tunnels, .domains, .counters]
  | .gatherStart _ _ =>
    [.hostReads, .rings, .entries, .events, .heads, .views, .gathers, .isletRates, .domains, .counters, 
      .requests]
  | .gatherDone _ _ => [.hostReads, .rings, .entries, .events, .heads, .views, .gathers, .domains, .counters, .requests]
  | .sliceEncoded _ _ => [.events, .tunnels, .heads, .views, .gathers, .fabric, .gates, .lineQueues, .domains, .counters]
  | .sliceHandoff _ _ => [.events, .tunnels, .heads, .views, .fabric, .gates, .lineQueues, .domains, .counters]
  | .commitHandoff _ _ => [.events, .tunnels, .views, .fabric, .gates, .lineQueues, .domains, .counters]
  | .behindTimeout _ _ => [.time, .engines, .events, .views, .domains, .counters, .carry]
  | .frameRecord _ _ => [.rings, .entries, .events, .heads, .domains, .counters]
  | .mirrorCopyDone _ _ => [.events, .heads, .views, .mirrors, .domains, .counters]
  | .monitor _ _ _ _ _ => [.rings, .events, .heads, .views, .domains, .counters]
  | .configDone _ _ _ =>
    [.hostReads, .rings, .entries, .events, .tunnels, .heads, .views, .gathers, .mirrors, .configNos, 
      .fabric, .gates, .lineQueues, .domains, .counters, .requests]
  | .applied _ _ _ _ => [.rings, .events, .views, .domains, .counters]
  | .storeLost _ _ => [.events, .views, .domains, .counters]
  | .statusScreenRedraw _ _ =>
    [.time, .engines, .events, .tunnels, .views, .configNos, .fabric, .gates, .lineQueues, .domains, 
      .counters, .carry]
  | .cellTime _ _ | .frameVerdict _ _ => [.events, .tunnels, .views, .mirrors, .fabric, .gates, .lineQueues, .domains, .counters]
  | .resequencerTimeout _ _ _ _ _ =>
    [.time, .engines, .events, .tunnels, .views, .mirrors, .fabric, .gates, .lineQueues, .domains, 
      .counters, .carry]
  | .fabMcastWrite _ _ _ _ _ | .fabOutMinWrite _ _ _ _ => [.events, .fabric, .domains, .counters]
  | .generationRetire _ _ => [.events, .tunnels, .views, .configNos, .fabric, .gates, .lineQueues, .domains, .counters]
  | .gateApply _ _ _ | .gateControlCalWrite _ _ _ => [.events, .dockTimes, .tunnels, .fabric, .gates, .lineQueues, .domains, .counters]
  | .entryStart _ _ => [.time, .engines, .events, .gates, .lineQueues, .domains, .counters, .carry]
  | .lineFreeSelect _ _ =>
    [.time, .rings, .entries, .engines, .events, .links, .tunnels, .fabric, .gates, .lineQueues, .demand, 
      .domains, .counters, .lines, .carry]
  | .netTransmit _ _ =>
    [.hostReads, .rings, .entries, .events, .memory, .endpoints, .transfers, .heads, .network, 
      .isletRates, .domains, .counters, .requests]
  | .netReceiveBuffer _ _ => [.entries]
  | .netFrameReceive _ _ _ _ =>
    [.time, .queues, .rings, .entries, .discards, .engines, .dispatchers, .events, .tunnels, .gates, 
      .network, .demand, .isletRates, .domains, .counters, .free, .requests, .carry]
  | .demandLatch _ _ _ => [.time, .engines, .events, .demand, .isletRates, .policy, .seatPower, .domains, .counters, .carry]
  | .policyTick _ =>
    [.time, .queues, .discards, .engines, .dispatchers, .events, .tunnels, .policy, .domains, .counters, 
      .carry]
  | .allotmentWrite _ _ _ => [.events, .gates, .lineQueues, .isletRates, .policy, .seatPower, .domains, .counters]
  | .boundWrite _ _ _ _ => [.events, .gates, .lineQueues, .isletRates, .seatPower, .domains, .counters]
  | .policyControlWrite _ _ => [.policy]
  | .supplyInputLost _ _ | .supplyInputGood _ _ | .supplyInserted _ _ | .supplyWithdrawn _ _ | .bothFeedsLost
  | .supplyPoll _ _ _ _ _ | .startWatchdog _ | .supplyOutputFailed _ _ => Part.all.filter (· ∉ [.free])
  | .detection _ _ _ | .mpsLost _ _ | .shedEnd _ _ | .pairShort _ _ | .pairOverload _ _ | .faultRetry _ _
  | .faultRetryCountClear _ _ => [.time, .engines, .events, .seatPower, .domains, .counters, .carry]
  | .powerOnExamine _ | .softShed _ _ | .hardShed _ _ => [.time, .engines, .events, .seatPower, .domains, .supplies, .counters, .carry]
  | .cycle _ _ => [.events, .seatPower, .domains, .counters]
  | .seatPowerEnableWrite _ _ _ => [.managers, .events, .seatPower, .domains, .counters]
  | .domainTransitionDone _ _ _ =>
    [.time, .rings, .entries, .engines, .events, .memory, .tunnels, .gathers, .fabric, .domains, 
      .counters, .carry]
  | .clockSwitch _ _ | .pmbusAck _ _ => [.domains]
  | .pmbusTimeout _ _ _ =>
    Part.all.filter (· ∉ [.functions, .queues, .discards, .programs, .rootPorts, .links, .dockTimes, 
      .dockKeys, .seatPower, .supplies, .lines])
  | .referenceLoss _ | .hardError _ _ | .uncorrectableDramError _ _ _ _ =>
    Part.all.filter (· ∉ [.time, .functions, .queues, .discards, .programs, .rootPorts, .links, 
      .dockTimes, .dockKeys, .seatPower, .supplies, .lines])
  | .rollingUpdatePhaseDone _ _ =>
    Part.all.filter (· ∉ [.time, .functions, .programs, .dockTimes, .dockKeys, .seatPower, .supplies, 
      .lines])
  | .reasonClear _ _ => [.time, .engines, .events, .domains, .reasons, .counters, .messages, .requests, .carry]
  | .conditionTimer _ _ | .thermalLimitCrossed _ _ _ _ =>
    [.time, .engines, .events, .domains, .mode, .starts, .reasons, .counters, .service, .messages, 
      .requests, .carry]
  | .serviceTimeout _ | .selectLongHold _ =>
    [.time, .engines, .events, .domains, .mode, .starts, .counters, .service, .messages, .requests, 
      .carry]
  | .safeStop _ => [.ports, .managers, .mode, .starts, .reasons, .counters, .service, .messages, .requests]
  | .safeStopPowerOff _ =>
    [.time, .ports, .managers, .rings, .entries, .engines, .events, .links, .tunnels, .fabric, 
      .seatPower, .domains, .mode, .starts, .reasons, .counters, .service, .messages, .requests, .carry]
  | .heartbeat _ _ _ _ _ _ | .heartbeatLost _ _ =>
    Part.all.filter (· ∉ [.functions, .queues, .discards, .programs, .rootPorts, .links, .dockTimes, 
      .dockKeys, .seatPower, .supplies, .free, .lines])
  | .fenceConfirmTimeout _ _ =>
    Part.all.filter (· ∉ [.ports, .managers, .hostReads, .queues, .discards, .programs, .dispatchers, 
      .usbSeats, .rootPorts, .splits, .links, .dockTimes, .dockKeys, .gathers, .demand, .policy, 
      .seatPower, .supplies, .reasons, .clocks, .errorLogs, .free, .lines])
  | .failoverAdoption _ =>
    Part.all.filter (· ∉ [.time, .functions, .ports, .managers, .programs, .engines, .dockTimes, 
      .dockKeys, .demand, .policy, .seatPower, .supplies, .mode, .starts, .reasons, .clocks, .errorLogs, 
      .service, .messages, .lines, .carry])
  | .failoverFirstBuild _ _ =>
    [.time, .queues, .rings, .entries, .discards, .engines, .dispatchers, .events, .memory, .usbSeats, 
      .endpoints, .transfers, .splits, .tunnels, .isletRates, .domains, .faults, .counters, .requests, 
      .carry]
  | .supervisorRestartDone _ _ =>
    Part.all.filter (· ∉ [.time, .functions, .managers, .hostReads, .queues, .discards, .programs, 
      .engines, .dispatchers, .usbSeats, .rootPorts, .splits, .links, .dockTimes, .dockKeys, .gathers, 
      .mirrors, .demand, .policy, .seatPower, .supplies, .clocks, .free, .lines, .carry])
  | .refereeLost _ _ _ =>
    [.time, .engines, .events, .domains, .mode, .starts, .reasons, .faults, .errorLogs, .counters, 
      .service, .messages, .requests, .carry]
  | .refereeReturned _ =>
    [.time, .managers, .engines, .events, .domains, .mode, .starts, .reasons, .faults, .errorLogs, 
      .counters, .service, .messages, .requests, .carry]
  | .laneRemoved _ =>
    Part.all.filter (· ∉ [.time, .functions, .discards, .programs, .rootPorts, .links, .dockTimes, 
      .dockKeys, .seatPower, .supplies, .lines])
  | .laneRetrain _ _ =>
    [.events, .tunnels, .heads, .views, .mirrors, .fabric, .gates, .lineQueues, .domains, .mode, .starts, 
      .reasons, .faults, .clocks, .errorLogs, .counters, .service, .messages, .requests, .carry]
  | .causewayTimeSample _ => [.time, .engines, .events, .domains, .clocks, .counters, .carry]
  | .correctableError _ _ _ => [.events, .domains, .errorLogs, .counters, .service, .messages, .requests]
  | .counterSelectWrite _ _ _ _ | .counterValueWrite _ _ _ _ | .counterFreeze _ _ _ | .counterSnapshot _ _ _
  | .counterClear _ _ _ | .counterWindowSelect _ _ _ | .counterFreezeUtWrite _ _ _ => [.counters]
  | .continuityMeasure _ _ | .continuityTimeout _ => [.time, .engines, .events, .seatPower, .domains, .counters, .service, .carry]
  | .cableTestDone _ => [.events, .seatPower, .domains, .counters, .service]
  | .measUpdate _ | .confirmTimeout _ | .unsupervisedNotice _ | .selectTap _ | .panelIdle _ => [.time, .engines, .events, .domains, .counters, .service, .carry]
  | .selfTestDone _ _ | .usbBusReset | .usbSuspend | .usbResume | .vbusLost | .vbusPresent | .setLineCoding _ _
  | .getLineCoding | .setControlLineState _ | .classRequestStall _ | .bulkInToken => [.service]
  | .registerReadOversized _ _ _ => [.requests]
  | .fanLoss _ _ _ => [.time, .engines, .events, .domains, .starts, .counters, .service, .free, .carry]
  | .fanInserted _ _ =>
    [.time, .engines, .events, .domains, .starts, .reasons, .counters, .service, .free, .messages, 
      .requests, .carry]
  | .phyManagementTimeout _ _ =>
    Part.all.filter (· ∉ [.functions, .ports, .managers, .islets, .queues, .discards, .programs, 
      .dispatchers, .dockKeys, .demand, .policy, .supplies, .faults, .clocks, .errorLogs, .free, .lines])
  | .openConductorDetected _ _ _ => [.seatPower]
  | .pasidEnableSet _ | .msixVectorUnmasked _ _ _ => [.functions, .messages, .requests]
  | .aspmL1Entry _ => [.functions, .events, .domains, .counters]
  | .mirrorLagTimeout _ _ => [.time, .engines, .events, .heads, .domains, .counters, .carry]

end Sys2Proof.Machine

namespace Sys2Proof

/-! ### Words of Yelcy instructions -/

/-- A code word from its major opcode, the fields [25:21] and [20:16], and what lies below (04 R103). -/
def yWord (op a b low : Nat) : W32 := BitVec.ofNat 32 (op * 2 ^ 26 + a * 2 ^ 21 + b * 2 ^ 16 + low)

/-- The word of an instruction of a program, from the formats of 04 and the table of 04 R104; `bfx` and `bfi` have one only
while pos + len ≤ 64. -/
def Instr.word : Instr → Option W32
  | .add _ _ rd ra rb => some (yWord 0x00 rd.val ra.val (rb.val * 2048 + 0))
  | .sub _ _ rd ra rb => some (yWord 0x00 rd.val ra.val (rb.val * 2048 + 1))
  | .and _ _ rd ra rb => some (yWord 0x00 rd.val ra.val (rb.val * 2048 + 2))
  | .or _ _ rd ra rb => some (yWord 0x00 rd.val ra.val (rb.val * 2048 + 3))
  | .xor _ _ rd ra rb => some (yWord 0x00 rd.val ra.val (rb.val * 2048 + 4))
  | .sll _ _ rd ra rb => some (yWord 0x00 rd.val ra.val (rb.val * 2048 + 5))
  | .srl _ _ rd ra rb => some (yWord 0x00 rd.val ra.val (rb.val * 2048 + 6))
  | .sra _ _ rd ra rb => some (yWord 0x00 rd.val ra.val (rb.val * 2048 + 7))
  | .slt _ _ rd ra rb => some (yWord 0x00 rd.val ra.val (rb.val * 2048 + 8))
  | .sltu _ _ rd ra rb => some (yWord 0x00 rd.val ra.val (rb.val * 2048 + 9))
  | .mul _ _ rd ra rb => some (yWord 0x00 rd.val ra.val (rb.val * 2048 + 10))
  | .mulhu _ _ rd ra rb => some (yWord 0x00 rd.val ra.val (rb.val * 2048 + 11))
  | .divu _ _ rd ra rb => some (yWord 0x00 rd.val ra.val (rb.val * 2048 + 12))
  | .remu _ _ rd ra rb => some (yWord 0x00 rd.val ra.val (rb.val * 2048 + 13))
  | .addi _ _ rd ra imm => some (yWord 0x01 rd.val ra.val imm.toNat)
  | .andi _ _ rd ra imm => some (yWord 0x02 rd.val ra.val imm.toNat)
  | .ori _ _ rd ra imm => some (yWord 0x03 rd.val ra.val imm.toNat)
  | .xori _ _ rd ra imm => some (yWord 0x04 rd.val ra.val imm.toNat)
  | .slti _ _ rd ra imm => some (yWord 0x05 rd.val ra.val imm.toNat)
  | .sltiu _ _ rd ra imm => some (yWord 0x06 rd.val ra.val imm.toNat)
  | .lui _ _ rd imm => some (yWord 0x07 rd.val 0 imm.toNat)
  | .slli _ _ rd ra sh => some (yWord 0x08 rd.val ra.val sh.val)
  | .srli _ _ rd ra sh => some (yWord 0x09 rd.val ra.val sh.val)
  | .srai _ _ rd ra sh => some (yWord 0x0A rd.val ra.val sh.val)
  | .bfx _ _ rd ra p l => if p.val + l.val + 1 ≤ 64 then some (yWord 0x0C rd.val ra.val (p.val * 1024 + l.val * 16)) else none
  | .bfi _ _ rd ra p l => if p.val + l.val + 1 ≤ 64 then some (yWord 0x0D rd.val ra.val (p.val * 1024 + l.val * 16)) else none
  | .ld8 _ _ rd ra imm => some (yWord 0x10 rd.val ra.val imm.toNat)
  | .ld16 _ _ rd ra imm => some (yWord 0x11 rd.val ra.val imm.toNat)
  | .ld32 _ _ rd ra imm => some (yWord 0x12 rd.val ra.val imm.toNat)
  | .ld64 _ _ rd ra imm => some (yWord 0x13 rd.val ra.val imm.toNat)
  | .st8 _ _ rd ra imm => some (yWord 0x14 rd.val ra.val imm.toNat)
  | .st16 _ _ rd ra imm => some (yWord 0x15 rd.val ra.val imm.toNat)
  | .st32 _ _ rd ra imm => some (yWord 0x16 rd.val ra.val imm.toNat)
  | .st64 _ _ rd ra imm => some (yWord 0x17 rd.val ra.val imm.toNat)
  | .amoadd _ _ rd ra rb => some (yWord 0x18 rd.val ra.val (rb.val * 2048 + 0))
  | .amoswp _ _ rd ra rb => some (yWord 0x18 rd.val ra.val (rb.val * 2048 + 1))
  | .fence _ _ => some (yWord 0x19 0 0 0)
  | .hld _ _ tk rs rh rl => some (yWord 0x1C rs.val rh.val (rl.val * 2048 + tk.val * 256))
  | .hst _ _ tk rs rh rl => some (yWord 0x1D rs.val rh.val (rl.val * 2048 + tk.val * 256))
  | .hwait _ _ rd tk => some (yWord 0x1E rd.val 0 (tk.val * 256))
  | .beq _ _ ra rb off => some (yWord 0x20 ra.val rb.val off.toNat)
  | .bne _ _ ra rb off => some (yWord 0x21 ra.val rb.val off.toNat)
  | .blt _ _ ra rb off => some (yWord 0x22 ra.val rb.val off.toNat)
  | .bge _ _ ra rb off => some (yWord 0x23 ra.val rb.val off.toNat)
  | .bltu _ _ ra rb off => some (yWord 0x24 ra.val rb.val off.toNat)
  | .bgeu _ _ ra rb off => some (yWord 0x25 ra.val rb.val off.toNat)
  | .jmp _ _ off => some (yWord 0x26 0 0 off.toNat)
  | .call _ _ off => some (yWord 0x27 0 0 off.toNat)
  | .ret _ _ => some (yWord 0x28 0 0 0)
  | .loop _ _ rc bound len => some (yWord 0x2C rc.val 0 (len.toNat * 4096 + bound.toNat))
  | .lbrk _ _ => some (yWord 0x2D 0 0 0)
  | .lidx _ _ rd => some (yWord 0x2E rd.val 0 0)
  | .emit _ _ rd ra rb => some (yWord 0x30 rd.val ra.val (rb.val * 2048))
  | .budg _ _ rd ra => some (yWord 0x31 rd.val ra.val 0)
  | .tick _ _ rd => some (yWord 0x32 rd.val 0 0)
  | .postc _ _ ra rb => some (yWord 0x33 0 ra.val (rb.val * 2048))
  | .send _ _ rd ra rb => some (yWord 0x34 rd.val ra.val (rb.val * 2048))
  | .evt _ _ ra => some (yWord 0x35 0 ra.val 0)
  | .qitem _ _ rd ra rb => some (yWord 0x36 rd.val ra.val (rb.val * 2048))
  | .done _ _ => some (yWord 0x37 0 0 0)
  | .rdctx _ _ rd sel => some (yWord 0x38 rd.val 0 sel.toNat)
  | .rdut _ _ rd => some (yWord 0x39 rd.val 0 0)
  | .csrr _ _ rd k => some (yWord 0x3C rd.val 0 k.toNat)
  | .csrw _ _ ra k => some (yWord 0x3D 0 ra.val k.toNat)
  | .eret _ _ => some (yWord 0x3E 0 0 0)
  | .wfi _ _ => some (yWord 0x3F 0 0 0)
  | _ => none

/-- The TE that an instruction of a program runs on. -/
def Instr.onTe : Instr → Option (CoreId × TeNo)
  | .add c t _ _ _ | .sub c t _ _ _ | .and c t _ _ _ | .or c t _ _ _ | .xor c t _ _ _ | .sll c t _ _ _ | .srl c t _ _ _
  | .sra c t _ _ _ | .slt c t _ _ _ | .sltu c t _ _ _ | .mul c t _ _ _ | .mulhu c t _ _ _ | .divu c t _ _ _
  | .remu c t _ _ _ | .addi c t _ _ _ | .andi c t _ _ _ | .ori c t _ _ _ | .xori c t _ _ _ | .slti c t _ _ _
  | .sltiu c t _ _ _ | .lui c t _ _ | .slli c t _ _ _ | .srli c t _ _ _ | .srai c t _ _ _ | .bfx c t _ _ _ _
  | .bfi c t _ _ _ _ | .ld8 c t _ _ _ | .ld16 c t _ _ _ | .ld32 c t _ _ _ | .ld64 c t _ _ _ | .st8 c t _ _ _
  | .st16 c t _ _ _ | .st32 c t _ _ _ | .st64 c t _ _ _ | .amoadd c t _ _ _ | .amoswp c t _ _ _ | .fence c t
  | .hld c t _ _ _ _ | .hst c t _ _ _ _ | .hwait c t _ _ | .beq c t _ _ _ | .bne c t _ _ _ | .blt c t _ _ _
  | .bge c t _ _ _ | .bltu c t _ _ _ | .bgeu c t _ _ _ | .jmp c t _ | .call c t _ | .ret c t | .loop c t _ _ _
  | .lbrk c t | .lidx c t _ | .emit c t _ _ _ | .budg c t _ _ | .tick c t _ | .postc c t _ _ | .send c t _ _ _
  | .evt c t _ | .qitem c t _ _ _ | .done c t | .rdctx c t _ _ | .rdut c t _ | .csrr c t _ _ | .csrw c t _ _ | .eret c t
  | .wfi c t => some (c, t)
  | _ => none

end Sys2Proof
end

