-- ==== Sys2Proof/Certificates/Slice0/Obligations.lean ====
section
/-! DEFINITION. What is claimed of the unit. A statement of a command says on what state and operands it has its own effect,
and that effect: `Yields i s P` is "command `i` in state `s` answers a next state of which `P` holds". Where a command reads
the clock, `u` is the state with unit time at the command's time. -/

open Sys2Proof Sys2Proof.Machine

/-- The queue of waiting commands: a step takes the command at its front and runs it on the state with the queue's rest. The
model's choice (log entry 5): on an empty queue a step lets one nanosecond of unit time pass. -/
def Obligations.StepTakesTheFront : Prop :=
  (∀ (i : Instr) (s : State), step (s.setPending (i :: s.pending)) = exec i s) ∧
  (∀ s : State, s.pending = [] → step s = .next (s.arrive (s.now + 1)) ∧
    (s.arrive (s.now + 1)).ut s.flt.token = s.now + 1 ∧ ∀ c, s.ut c ≤ (s.arrive (s.now + 1)).ut c)

/-- No command and no step ends in a fault or a refusal: the unit answers every command with a next state. -/
def Obligations.NoCommandStops : Prop :=
  (∀ (i : Instr) (s : State), ∃ t, exec i s = .next t) ∧ ∀ s : State, ∃ t, step s = .next t

/-- The state after reset: memory canonical and empty, UT 0, COLD START, no command waits, every islet and semaphore free, the
registers at the values that the register map gives. -/
def Obligations.ResetState : Prop :=
  State.reset.mem.wf = true ∧ State.reset.pending = [] ∧ State.reset.mode.mode = .coldStart ∧ State.reset.mode.reasons = 0 ∧
  (∀ c, State.reset.ut c = 0) ∧ (∀ i, (State.reset.islet i).st = .free) ∧ (∀ n, (State.reset.sem n).holder = none) ∧
  (∀ p, (State.reset.portSt p).leaseMs = 0x03E8) ∧ State.reset.host.budget = 0x00030D40 ∧ State.reset.traf.control = 0x1F00 ∧
  (∀ c i r, (State.reset.ring c i r).vector = 0xFFFF) ∧ (∀ c w, (State.reset.evtCore c).maskW w = BitVec.allOnes 64) ∧
  (∀ c n, (State.reset.evtCore c).src n = 0x20) ∧ (∀ c n, (State.reset.cntCore c).sel n = 0x2000000000000000) ∧
  (∀ x : Seat, State.reset.servingCore x = if x.val < 32 then .a else .b)

/-- Frames: each command leaves every part of the state as it was but those that `mayChange` lists for it, and no command
touches the queue of waiting commands. -/
def Obligations.CommandFrames : Prop :=
  (∀ (i : Instr) (s t : State), exec i s = .next t → Only (mayChange i) s t) ∧
  (∀ (i : Instr) (s t : State), exec i s = .next t → t.pending = s.pending)

/-- An invariant of every step: each memory of the unit lists its bytes in rising order and none that reads as an unlisted one. -/
def Obligations.MemoryStaysCanonical : Prop :=
  ∀ s t : State, s.mem.wf = true → step s = .next t → t.mem.wf = true

/-- Unit time (01 R15) never runs back on either core but for a cold start, where both cores start again at 0. -/
def Obligations.UnitTimeNeverRunsBack : Prop :=
  ∀ s t : State, step s = .next t → (∀ c, s.ut c ≤ t.ut c) ∨ ∀ c, t.ut c = 0

/-- A byte of memory reads as it was last written, every other byte as before, and the list stays canonical. -/
def Obligations.MemoryReadsWhatWasWritten : Prop :=
  ∀ (m : Memory) (a : Nat) (l : List Byte),
    (∀ b, readByte (writeBytes m a l) b = if a ≤ b ∧ b < a + l.length then (l[b - a]?).getD 0 else readByte m b) ∧
    (Memory.wf m = true → Memory.wf (writeBytes m a l) = true)

/-- Managers, leases and semaphores (02 R32 to R36): what each command leaves. And: The functions of the host links (02 R41, R42, R54, R408; 16 R395; 17 R401): links, enables, vectors. -/
def Obligations.ManagersAndFunctions : Prop :=
  ((∀ (f : FnId) (v : W32) (s : State), s.fnUp f = true → Yields (.managerControlWrite f v) s fun t =>
    (t.portSt f.port).leaseMs = BitVec.ofNat 16 v.toNat ∧
    (if s.mayUnitWide f.port && (v.getLsbD 24 == s.host.wiring || !s.anyIslet) then
      t.host.unitIndex = BitVec.ofNat 4 (v.toNat / 2 ^ 28) ∧ t.host.wiring = v.getLsbD 24
    else t.host.unitIndex = s.host.unitIndex ∧ t.host.wiring = s.host.wiring ∧
      ((t.portSt f.port).wiringRefused = true ∨
        (BitVec.ofNat 4 (v.toNat / 2 ^ 28) = s.host.unitIndex ∧ v.getLsbD 24 = s.host.wiring)))) ∧
  (∀ (f : FnId) (s : State), s.fnUp f = true → Yields (.managerLeaseRenew f) s fun t =>
    (t.portSt f.port).leaseEnd = some (s.now + clampNat 100 10000 (s.portSt f.port).leaseMs.toNat * ms) ∧
      t.host.sems = s.host.sems ∧ t.isl = s.isl) ∧
  (∀ (p : PortId) (ut e : Nat) (s : State), (s.portSt p).leaseEnd = some e → e ≤ ut → Yields (.leaseExpiry p ut) s fun t =>
    (t.portSt p).leaseEnd = none ∧ t.isl = s.isl ∧ t.wq = s.wq ∧
    ∀ n, t.sem n = if (s.sem n).holder = some p then { holder := none, broken := true } else s.sem n) ∧
  (∀ (f : FnId) (n : Fin 64) (s : State), s.fnUp f = true → s.flt.refereeLost = false → (s.sem n.val).holder = none →
    Yields (.semAcquireRead f n false) s fun t => t.sem n.val = { holder := some f.port, broken := false } ∧
      t.host.tx = s.host.tx ++ [.completion f (leBytes 4 (2 ^ 31 + (if (s.sem n.val).broken then 2 ^ 30 else 0) +
        (match f.port with | .h0 => 2 ^ 24 | .h1 => 2 ^ 25)))]) ∧
  (∀ (f : FnId) (n : Fin 64) (s : State), s.fnUp f = true → s.flt.refereeLost = false → (s.sem n.val).holder = none →
    Yields (.semAcquireRead f n true) s fun t => (t.sem n.val).holder = some s.host.tieNext ∧
      t.host.tieNext = s.host.tieNext.other) ∧
  (∀ (f : FnId) (n : Fin 64) (s : State), s.fnUp f = true → s.flt.refereeLost = true → ∀ tie : Bool,
    Yields (.semAcquireRead f n tie) s fun t => t.host.sems = s.host.sems ∧
      t.host.tx = s.host.tx ++ [.completion f (leBytes 4 (2 ^ 29))]) ∧
  (∀ (f : FnId) (n : Fin 64) (s : State), s.fnUp f = true → s.flt.refereeLost = false →
    (s.sem n.val).holder = some f.port → Yields (.semRelease f n) s fun t => (t.sem n.val).holder = none)) ∧
  ((∀ (f : FnId) (s : State), Yields (.busMasterEnableSet f) s fun t => (t.fnSt f).bme = true ∧
    ∀ p k, (s.cmdSt p k).phase = .waitBme → (s.cmdSt p k).fn = f → (t.cmdSt p k).phase = .waitRead) ∧
  (∀ (f : FnId) (s : State), Yields (.busMasterEnableCleared f) s fun t => t.fnSt f = { s.fnSt f with bme := false } ∧
    ∀ g, g ≠ f → t.fnSt g = s.fnSt g) ∧
  (∀ (f : FnId) (s : State), Yields (.pasidEnableCleared f) s fun t => t.fnSt f = { s.fnSt f with pasidEn := false } ∧
    ∀ g, g ≠ f → t.fnSt g = s.fnSt g) ∧
  (∀ (f : FnId) (s : State), Yields (.pasidEnableSet f) s fun t => (t.fnSt f).pasidEn = true ∧ ∀ g, g ≠ f → t.fnSt g = s.fnSt g) ∧
  (∀ (f : FnId) (v : Fin 2048) (s : State),
    (Yields (.msixVectorUnmasked f true v) s fun t => (t.fnSt f).msixEn = true ∧ (t.fnSt f).unmasked = (s.fnSt f).unmasked) ∧
    (Yields (.msixVectorUnmasked f false v) s fun t => tget (t.fnSt f).unmasked v.val false = true ∧
      ∀ n, n ≠ v.val → tget (t.fnSt f).unmasked n false = tget (s.fnSt f).unmasked n false)) ∧
  (∀ (f : FnId) (s : State), (s.fnSt f).link = .up → Yields (.aspmL1Entry f) s fun t =>
    (t.fnSt f).aspmL1 = true ∧ (t.fnSt f).link = .up) ∧
  (∀ (f : FnId) (why : LinkLoss) (s : State), (s.fnSt f).link = .up → Yields (.hostLinkDown f why) s fun t =>
    (t.fnSt f).link = (match why with | .linkDown => .down | .d3hot => .d3hot | .hotReset => .hotReset) ∧ t.fnUp f = false ∧
    ∀ g, g ≠ f → (t.fnSt g).link = (s.fnSt g).link) ∧
  (∀ (f : FnId) (en : PcieEnables) (ctl : PcieControl) (link : PcieLink) (s : State), s.mode.mode ≠ .unpowered → (s.coreSt f.core).heldReset = false →
    9 ≤ s.startStep.getD 9 → Yields (.hostLinkUp f en ctl link) s fun t => (t.fnSt f).link = .up ∧
      (t.fnSt f).bme = en.bme ∧ (t.fnSt f).pasidEn = en.pasidEn ∧ (t.fnSt f).msixEn = en.msixEn ∧
      (t.fnSt f).maxPay = 128 * 2 ^ ctl.payload.val ∧ (t.fnSt f).maxRead = 128 * 2 ^ ctl.readReq.val ∧
      (t.fnSt f).timeout = ctl.timeoutMs * ms ∧ (t.fnSt f).gen = link.gen.val + 1 ∧ (t.fnSt f).width = 8 / 2 ^ link.width.val ∧
      (t.fnSt f).ecrc = ctl.ecrc ∧ (t.fnSt f).table = (s.fnSt f).table) ∧
  (∀ (i : IsletNo) (c : CoreId) (s : State), (s.islet i).st ≠ .free → (s.islet i).viaOther c = true →
    s.canRequest { port := (s.islet i).home, core := c } = true → Yields (.pairedTrafficReturn i c) s fun t =>
      (t.islet i).fnFor c = { port := (s.islet i).home, core := c } ∧ ∀ j, j ≠ i → t.islet j = s.islet j) ∧
  (∀ (p : PortId) (s : State), Yields (.perstAsserted p) s fun t => ∀ c : CoreId,
    t.fnUp ⟨p, c⟩ = false ∧ (t.fnSt ⟨p, c⟩).bme = false ∧ (t.fnSt ⟨p, c⟩).pasidEn = false ∧ (t.fnSt ⟨p, c⟩).msixEn = false))

/-- The islet commands (02 R37 to R52): what each leaves of its islet and of its register set. -/
def Obligations.IsletCommands : Prop :=
  (∀ (f : FnId) (n : Byte) (s : State), IsletCmdFits s f 2 n → (s.islet (toIslet n.toNat)).st = .active →
    Yields (.quiesce f n) s fun t => t.islet (toIslet n.toNat) = { s.islet (toIslet n.toNat) with st := .quiescing } ∧
      (∀ j, j ≠ toIslet n.toNat → t.islet j = s.islet j) ∧ Ended t f.port .islet 0x00) ∧
  (∀ (f : FnId) (n : Byte) (s : State), IsletCmdFits s f 3 n → (s.islet (toIslet n.toNat)).st = .quiesced →
    Yields (.resume f n) s fun t => t.islet (toIslet n.toNat) = { s.islet (toIslet n.toNat) with st := .active } ∧
      (∀ j, j ≠ toIslet n.toNat → t.islet j = s.islet j) ∧ Ended t f.port .islet 0x00) ∧
  (∀ (f : FnId) (n : Byte) (s : State), IsletCmdFits s f 4 n →
    ((s.islet (toIslet n.toNat)).st = .quiesced ∨ (s.islet (toIslet n.toNat)).st = .halted ∨ (s.islet (toIslet n.toNat)).st = .reattach) →
    s.drained (toIslet n.toNat) = true → s.resetFits (toIslet n.toNat) = none →
    Yields (.reset f n) s fun t => (t.islet (toIslet n.toNat)).st = .quiesced ∧ (t.islet (toIslet n.toNat)).halt = 0 ∧
      Ended t f.port .islet 0x00) ∧
  (∀ (f : FnId) (n : Byte) (s : State), IsletCmdFits s f 5 n →
    ((s.islet (toIslet n.toNat)).st = .quiesced ∨ (s.islet (toIslet n.toNat)).st = .halted) → s.drained (toIslet n.toNat) = true →
    Yields (.destroy f n) s fun t => t.islet (toIslet n.toNat) = IsletSt.init ∧ Ended t f.port .islet 0x00) ∧
  (∀ (f : FnId) (n : Byte) (s : State), IsletCmdFits s f 1 n → (s.islet (toIslet n.toNat)).st = .free →
    Yields (.create f n) s fun t => AwaitsRead s t f .islet 1 n ∧ t.isl = s.isl) ∧
  (∀ (f : FnId) (n : Byte) (s : State), IsletCmdFits s f 6 n → (s.islet (toIslet n.toNat)).st = .quiesced →
    s.drained (toIslet n.toNat) = true → Yields (.setSeats f n) s fun t => AwaitsRead s t f .islet 6 n ∧ t.isl = s.isl) ∧
  (∀ (f : FnId) (op n : Byte) (s : State), s.fnUp f = true → SetIdle s .islet → 1 ≤ n.toNat → n.toNat ≤ 128 →
    (op = 0 ∨ 6 < op.toNat) → Yields (.isletCmdBadOpcode f op n) s fun t => t.isl = s.isl ∧ Ended t f.port .islet 0x02) ∧
  (∀ (i : IsletNo) (s : State), s.drained i = true →
    Yields (.isletDrained i) s fun t => (t.islet i).st = (match (s.islet i).st with
      | .quiescing => .quiesced
      | .halting => .halted
      | st => st) ∧ ∀ j, j ≠ i → t.islet j = s.islet j)

/-- The data of a command's host read (02 R37 to R41, R47, R407; 06 R156; 07 R208): CREATE makes the islet that the
descriptor describes, SET_SEATS adds seats, a dock key is stored or removed; a failed read or 2 ms without Bus Master Enable
end the command with 0x08. -/
def Obligations.CommandReads : Prop :=
  (∀ (p : PortId) (b : List Byte) (s : State), Reading s p .islet 1 → s.isletCheck p (s.cmdSt p .islet) = none →
    s.createCheck p b (s.cmdSt p .islet).arg.toNat (s.cmdSt p .islet).fn.core = none →
    Yields (.descriptorReadCompletion p .islet (some b)) s fun t =>
      (t.islet (toIslet (s.cmdSt p .islet).arg.toNat)).st = .active ∧
      (t.islet (toIslet (s.cmdSt p .islet).arg.toNat)).seats = dSeats b ∧
      (t.islet (toIslet (s.cmdSt p .islet).arg.toNat)).pasid = BitVec.ofNat 20 (dPasid b) ∧
      (t.islet (toIslet (s.cmdSt p .islet).arg.toNat)).home = dHome b ∧ Ended t p .islet 0x00) ∧
  (∀ (p : PortId) (b : List Byte) (s : State), Reading s p .islet 6 → s.isletCheck p (s.cmdSt p .islet) = none →
    seatsDescriptorBad b (s.cmdSt p .islet).arg.toNat (s.islet (toIslet (s.cmdSt p .islet).arg.toNat)) = false →
    s.seatTaken (toIslet (s.cmdSt p .islet).arg.toNat) (dSeats b) = false →
    (s.islet (toIslet (s.cmdSt p .islet).arg.toNat)).seats &&& ~~~(dSeats b) = 0 →
    Yields (.descriptorReadCompletion p .islet (some b)) s fun t =>
      t.islet (toIslet (s.cmdSt p .islet).arg.toNat) =
        { s.islet (toIslet (s.cmdSt p .islet).arg.toNat) with seats := dSeats b } ∧ Ended t p .islet 0x00) ∧
  (∀ (p : PortId) (b : List Byte) (s : State), Reading s p .dockKey 1 → keyRecordBad 1 b = false →
    ((s.dockKey (BitVec.ofNat 64 (fld b 0 8))).isSome = true ∨ s.link.keys.length < 512) →
    Yields (.descriptorReadCompletion p .dockKey (some b)) s fun t =>
      t.dockKey (BitVec.ofNat 64 (fld b 0 8)) = some (slice b 8 32) ∧ Ended t p .dockKey 0x00) ∧
  (∀ (p : PortId) (b : List Byte) (s : State), Reading s p .dockKey 2 → keyRecordBad 2 b = false →
    (s.dockKey (BitVec.ofNat 64 (fld b 0 8))).isSome = true →
    Yields (.descriptorReadCompletion p .dockKey (some b)) s fun t =>
      t.dockKey (BitVec.ofNat 64 (fld b 0 8)) = none ∧ Ended t p .dockKey 0x00) ∧
  (∀ (p : PortId) (k : CmdSet) (op : Byte) (s : State), Reading s p k op →
    (k = .islet → s.isletCheck p (s.cmdSt p .islet) = none) →
    Yields (.descriptorReadCompletion p k none) s fun t => Ended t p k 0x08 ∧ t.isl = s.isl ∧ t.link = s.link) ∧
  (∀ (p : PortId) (k : CmdSet) (ut : Nat) (s : State), (s.cmdSt p k).busy = true → (s.cmdSt p k).phase = .waitBme →
    (s.cmdSt p.other k).busy = false → (s.cmdSt p k).goUt + 2000000 ≤ ut →
    Yields (.busMasterWaitTimeout p k ut) s fun t => Ended t p k 0x08 ∧ t.isl = s.isl)

/-- Unit images, dock keys and unit commands as they are written (04 R127; 07 R208; 12 R322, R327, R331, R334; 13 R349). -/
def Obligations.UnitCommands : Prop :=
  (∀ (f : FnId) (slot : Fin 4) (s : State), s.fnUp f = true → SetIdle s .unitProgram → s.mode.mode ≠ .unsupervised →
    s.mode.mode ≠ .safeStop → s.mayUnitWide f.port = true → s.apart = false →
    (Yields (.unitProgramLoad f slot) s fun t => AwaitsRead s t f .unitProgram 1 (BitVec.ofNat 8 slot.val) ∧ t.prog = s.prog) ∧
    ((bothCores.any fun c => (s.store c).any fun m => m.live && m.id == .unit slot) = true →
      Yields (.unitProgramUnload f slot) s fun t => Ended t f.port .unitProgram 0x00 ∧
        ∀ c, ((t.store c).any fun m => m.live && m.id == .unit slot) = false)) ∧
  (∀ (f : FnId) (a n : Byte) (s : State), s.fnUp f = true → SetIdle s .unitProgram → (a ≠ 1 ∧ a ≠ 2 ∨ 3 < n.toNat) →
    Yields (.unitProgramBadField f a n) s fun t => Ended t f.port .unitProgram 0x08 ∧ t.prog = s.prog) ∧
  (∀ (f : FnId) (s : State), s.fnUp f = true → SetIdle s .dockKey → s.mode.mode ≠ .unsupervised →
    s.mode.mode ≠ .safeStop → s.mayUnitWide f.port = true → s.apart = false →
    (Yields (.dockKeyAdd f) s fun t => AwaitsRead s t f .dockKey 1 0 ∧ t.link = s.link) ∧
    (Yields (.dockKeyRemove f) s fun t => AwaitsRead s t f .dockKey 2 0 ∧ t.link = s.link) ∧
    (Yields (.dockKeyRemoveAll f) s fun t => t.link.keys = [] ∧ Ended t f.port .dockKey 0x00)) ∧
  (∀ (f : FnId) (a : Byte) (s : State), s.fnUp f = true → SetIdle s .dockKey → (a = 0 ∨ 3 < a.toNat) →
    Yields (.dockKeyBadAction f a) s fun t => Ended t f.port .dockKey 0x08 ∧ t.link = s.link) ∧
  (∀ (f : FnId) (slot : Fin 2) (s : State), s.fnUp f = true → SetIdle s .unitCmd → s.mayUnitWide f.port = true →
    (s.unitModeTakes 1 = true → Yields (.warmStart f slot) s fun t => t.mode.mode = .warmStart ∧
      (∀ g, (t.fnSt g).link = .down ∧ (t.fnSt g).bme = false) ∧ ∀ p, (t.portSt p).leaseEnd = none) ∧
    (s.unitModeTakes 2 = true → Yields (.coldStart f slot) s fun t => t.mode.mode = .coldStart ∧ t.mode.bootSlot = slot ∧
      t.isl = [] ∧ t.time = { utA := 0, utB := 0, rem := 0 }) ∧
    (∀ force : Bool, s.unitModeTakes 3 = true → s.rollCheck slot force = none →
      Yields (.rollingUpdate f slot force) s fun t => t.mode.mode = .rolling ∧
        (t.cmdSt f.port .unitCmd).busy = true ∧ t.isl = s.isl) ∧
    (s.unitModeTakes 4 = true → s.mode.runningA ≠ slotOf slot → s.mode.runningB ≠ slotOf slot →
      Yields (.writeImage f slot) s fun t => AwaitsRead s t f .unitCmd 4 (BitVec.ofNat 8 slot.val) ∧ t.mode = s.mode)) ∧
  (∀ (f : FnId) (s : State), s.fnUp f = true → SetIdle s .unitCmd → s.mayUnitWide f.port = true → s.mode.mode = .unsupervised →
    Yields (.supervisorRestart f) s fun t => (t.cmdSt f.port .unitCmd).busy = true ∧
      ∀ c, (t.coreSt c).sup = (if (s.coreSt c).fenced then (s.coreSt c).sup else .restarting)) ∧
  (∀ (f : FnId) (a n : Byte) (s : State), s.fnUp f = true → SetIdle s .unitCmd →
    (s.unitCmdOff a = false → (a = 0 ∨ 5 < a.toNat ∨ (a ≠ 5 ∧ 1 < n.toNat)) →
      Yields (.unitCmdBadField f a n) s fun t => Ended t f.port .unitCmd 0x08 ∧ t.mode = s.mode) ∧
    (s.unitCmdOff a = true → Yields (.unitCmdBadField f a n) s fun t => Ended t f.port .unitCmd 0x03 ∧ t.mode = s.mode)) ∧
  (∀ (p : PortId) (n : Fin 2) (b : List Byte) (s : State), (s.cmdSt p.other .unitCmd).busy = false → s.mode.writing = some (p, n, b) →
    (Yields (.flashWriteComplete true) s fun t => (t.slot (slotOf n)).valid = true ∧
      (t.slot (slotOf n)).version = BitVec.ofNat 32 (fld b 4 4) ∧ t.mode.writing = none ∧ Ended t p .unitCmd 0x00) ∧
    (Yields (.flashWriteComplete false) s fun t => (t.slot (slotOf n)).valid = (s.slot (slotOf n)).valid ∧
      (t.slot (slotOf n)).version = (s.slot (slotOf n)).version ∧ t.mode.writing = none ∧
      Ended t p .unitCmd 0x28))

/-- Doorbells and the configuration of queues and rings (03 R59 to R67, R73, R82): a good POST moves P, a malformed one halts
the islet, an INVALIDATE freezes the queue, an accepted configuration enables. -/
def Obligations.DoorbellsAndConfiguration : Prop :=
  (∀ (f : FnId) (i : IsletNo) (q : Nat) (d : List Byte) (s : State), 1 ≤ i.val → s.fnUp f = true → (s.islet i).st ≠ .free →
    (s.islet i).boundVia f = true → d.length = 64 → bellNames d = some f.core → s.runs f.core = f.core →
    q < (s.islet i).queues f.core → q < 512 → (s.islet i).lost f.core = false → (s.queue f.core i q).enable = true →
    ((bellOp d = 1 → (s.queue f.core i q).judge (s.queue f.core i q).c true d = none →
      Yields (.doorbellPost f ((i.val - 1) * 65536 + q * 64) d) s fun t =>
        (t.queue f.core i q).p = bellPi d ∧ (t.queue f.core i q).c = (s.queue f.core i q).c ∧ (t.islet i).st = (s.islet i).st) ∧
     (∀ cause, bellOp d ≠ 2 → (s.queue f.core i q).judge (s.queue f.core i q).c true d = some cause → (s.islet i).st = .active →
      Yields (.doorbellPost f ((i.val - 1) * 65536 + q * 64) d) s fun t =>
        (t.islet i).st = .halting ∧ (t.islet i).halt = 0x01 ∧ (t.queue f.core i q).p = (s.queue f.core i q).p ∧
        (t.queue f.core i q).cause = (if (s.queue f.core i q).cause = 0 then cause else (s.queue f.core i q).cause)) ∧
     (bellOp d = 2 → (s.queue f.core i q).judge (s.queue f.core i q).c true d = none →
      Yields (.doorbellInvalidate f ((i.val - 1) * 65536 + q * 64) d) s fun t =>
        (t.queue f.core i q).frozen = true ∧ (t.queue f.core i q).p = (s.queue f.core i q).p))) ∧
  (∀ (f : FnId) (i : IsletNo) (q : Fin 512) (v : W64) (s : State), s.fnUp f = true → (s.islet i).st ≠ .free →
    q.val < (s.islet i).queues f.core → (s.queue f.core i q.val).enable = false → v.getLsbD 63 = true →
    4 ≤ v.toNat / 2 ^ 32 % 16 → 1 ≤ v.toNat / 2 ^ 8 % 256 → 1 ≤ v.toNat % 32 → v.toNat % 32 ≤ 16 →
    v.toNat / 2 ^ 16 % 256 < (s.islet i).rings f.core → (s.ring f.core i (v.toNat / 2 ^ 16 % 256)).enable = true →
    Yields (.queueConfigWrite f i q v) s fun t => (t.queue f.core i q.val).enable = true ∧
      (t.queue f.core i q.val).log2.toNat = v.toNat / 2 ^ 32 % 16 ∧ (t.queue f.core i q.val).ring.toNat = v.toNat / 2 ^ 16 % 256 ∧
      (t.queue f.core i q.val).weight.toNat = v.toNat / 2 ^ 8 % 256 ∧ (t.queue f.core i q.val).burst.toNat = v.toNat % 32 ∧
      (t.queue f.core i q.val).p = 0 ∧ (t.queue f.core i q.val).c = 0 ∧
      ∀ c j k, qKey c j k ≠ qKey f.core i q.val → t.queue c j k = s.queue c j k) ∧
  (∀ (f : FnId) (i : IsletNo) (r : Fin 256) (v : W64) (s : State), s.fnUp f = true → (s.islet i).st ≠ .free →
    r.val < (s.islet i).rings f.core → (s.ring f.core i r.val).enable = false → v.getLsbD 63 = true →
    4 ≤ v.toNat / 2 ^ 32 % 16 → (v.toNat % 65536 = 0xFFFF ∨ v.toNat % 65536 < (s.islet i).vectors) →
    Yields (.ringConfigWrite f i r v) s fun t => (t.ring f.core i r.val).enable = true ∧
      (t.ring f.core i r.val).log2.toNat = v.toNat / 2 ^ 32 % 16 ∧ (t.ring f.core i r.val).vector.toNat = v.toNat % 65536 ∧
      (t.ring f.core i r.val).p = 0 ∧ (t.ring f.core i r.val).c = 0) ∧
  (∀ (f : FnId) (i : IsletNo) (r : Fin 256) (v : W64) (s : State), s.fnUp f = true → r.val < (s.islet i).rings f.core →
    ((s.islet i).st = .quiescing ∨ (s.islet i).st = .halting ∨ (s.islet i).st = .halted ∨ (s.islet i).st = .reattach) →
    sub16 (BitVec.ofNat 16 v.toNat) (s.ring f.core i r.val).c ≤ sub16 (s.ring f.core i r.val).p (s.ring f.core i r.val).c →
    Yields (.ringManagerConsumerWrite f i r v) s fun t => (t.ring f.core i r.val).c = BitVec.ofNat 16 v.toNat ∧
      (t.ring f.core i r.val).p = (s.ring f.core i r.val).p) ∧
  (∀ (f : FnId) (i : IsletNo) (r : Fin 256) (v : W64) (s : State), s.fnUp f = true → (s.islet i).boundVia f = true →
    s.runs f.core = f.core → (v.getLsbD 24 = true ↔ f.core = .b) → r.val < (s.islet i).rings f.core →
    Yields (.cqConsumerWrite f i r v) s fun t =>
      if sub16 (BitVec.ofNat 16 v.toNat) (s.ring f.core i r.val).c ≤ sub16 (s.ring f.core i r.val).p (s.ring f.core i r.val).c
      then (t.ring f.core i r.val).c = BitVec.ofNat 16 v.toNat
      else (t.ring f.core i r.val).c = (s.ring f.core i r.val).c ∧ (t.ring f.core i r.val).errIw = true) ∧
  (∀ (i : IsletNo) (c : CoreId) (r : Fin 256) (ut t0 : Nat) (s : State), (s.ring c i r.val).differSince = some t0 →
    s.protects i = true → t0 + 1000000 ≤ ut → Yields (.shadowConsumerLapse i c r ut) s fun t =>
      (t.islet i).lapsed = true ∧ t.protects i = false)

/-- Entries, records and host reads (02 R30, R49; 03 R63, R70, R72, R77, R83). -/
def Obligations.EntriesAndRecords : Prop :=
  (∀ (c : CoreId) (i : IsletNo) (q : Fin 512) (data : Option (List Byte)) (a n : Half) (ut : Nat) (l : List (Half × Half × Nat))
    (b : List Byte) (s : State), (s.queue c i q.val).posts = (a, n, ut) :: l → (s.islet i).st ≠ .free → s.running c = true →
    (s.queue c i q.val).enable = true → (s.queue c i q.val).frozen = false → (s.queue c i q.val).cache.length < 16 →
    (s.queue c i q.val).inlAt (s.queue c i q.val).next = [] → s.canRequest (s.islFn c i) = true →
    (s.fnSt (s.islFn c i)).pasidEn = true → parseEntry [] (sub16 n (s.queue c i q.val).next) data = some (.inr b) →
    ((s.queue c i q.val).cache.map fun v => v.bytes.length / 16).sum + b.length / 16 ≤ 64 →
    Yields (.entryFetchDone c i q data) s fun t =>
      (t.queue c i q.val).cache = (s.queue c i q.val).cache ++ [{ idx := (s.queue c i q.val).next, bytes := b, ut := ut }] ∧
      (t.queue c i q.val).next = (s.queue c i q.val).next + BitVec.ofNat 16 (b.length / 16)) ∧
  (∀ (c : CoreId) (i : IsletNo) (q : Fin 512) (v : Cached) (s : State), TakesNext s c i q v → v.bytes ≠ [] →
    Yields (.entryTake c i q) s fun t =>
      (t.queue c i q.val).c = v.idx + BitVec.ofNat 16 (v.bytes.length / 16) ∧ (t.queue c i q.val).cache = (s.queue c i q.val).cache.tail ∧
      t.wq.nextHandle = (s.freshHandle + 1) % 2 ^ 32 ∧
      ((fld v.bytes 0 1 = 0x20 → (s.head (unitHead (toSeat (fld v.bytes 8 1)) (toFin 1 (fld v.bytes 9 1)))).st = .attached ∧
          (s.head (unitHead (toSeat (fld v.bytes 8 1)) (toFin 1 (fld v.bytes 9 1)))).islet = i) →
        (fld v.bytes 0 1 = 0x30 → s.owner (toSeat (fld v.bytes 8 1)) = i ∧
          s.linkState (toSeat (fld v.bytes 8 1)) ≠ .unenrolled ∧ s.linkState (toSeat (fld v.bytes 8 1)) ≠ .authFailed ∧
          s.linkState (toSeat (fld v.bytes 8 1)) ≠ .noPartner ∧ s.linkState (toSeat (fld v.bytes 8 1)) ≠ .foreign ∧
          s.linkState (toSeat (fld v.bytes 8 1)) ≠ .disabled) →
        (fld v.bytes 0 1 = 0x31 → s.owner (toSeat (fld v.bytes 8 1)) = i) →
        Opened s t c i q v)) ∧
  (∀ (c : CoreId) (h : Nat) (e : EntrySt) (s : State), s.entryOf c h 0x01 = some e →
    Yields (.nop c h) s fun t => Completes s t h e 0x00 0 0) ∧
  (∀ (c : CoreId) (i : IsletNo) (r : Fin 256) (v : Rec) (s : State), s.running c = true → (s.ring c i r.val).enable = true →
    (s.ring c i r.val).made = [v] → (s.ring c i r.val).held = [] → s.protects i = false →
    (∀ q, (s.queue c i q).invals = []) → s.occupied c i r.val < 2 ^ (s.ring c i r.val).log2.toNat →
    s.canRequestFor (s.recFn c i v) = true → (∀ w ∈ s.host.waiting, w.islet ≠ i ∨ w.fn ≠ s.recFn c i v) →
    Yields (.ringWriterPass c i r) s fun t => (t.ring c i r.val).p = (s.ring c i r.val).p + 1 ∧ (t.ring c i r.val).made = [] ∧
      HostTx.record (s.recFn c i v) i ((s.ring c i r.val).base.toNat +
        32 * ((s.ring c i r.val).p.toNat % 2 ^ (s.ring c i r.val).log2.toNat)) v.bytes (s.tlp (s.recFn c i v) i false) ∈ t.host.tx) ∧
  (∀ (c : CoreId) (i : IsletNo) (q : Fin 512) (s : State), s.protects i = true → s.running c = true →
    Yields (.shadowRecordUpdate c i (.consumer q)) s fun t => (t.shQueue c i q.val).c = (s.queue c i q.val).c ∧
      (t.shQueue c i q.val).p = (s.shQueue c i q.val).p) ∧
  (∀ (c : CoreId) (i : IsletNo) (r : Fin 256) (s : State), (s.ring c i r.val).enable = true → s.running c = true →
    Yields (.completionWriteFault c i r) s fun t =>
      ((s.islet i).st = .active ∨ (s.islet i).st = .quiescing → (t.islet i).st = .halting ∧ (t.islet i).halt = 0x03) ∧
      ((s.islet i).st = .quiesced → (t.islet i).st = .halted ∧ (t.islet i).halt = 0x03)) ∧
  (∀ (id n t0 : Nat) (b : List Byte) (r : HostRead) (q : ReqSt) (h : Nat) (e : EntrySt) (s : State), s.host.reads = [(n, r)] →
    s.req? id = some q → q.why = .read n → q.issued = some t0 → r.got = none → r.why = .netTx h → s.entry? h = some e →
    e.type = 0x30 → e.ended = none → (s.seatNet (toSeat (fld e.bytes 8 1))).tx = [h] →
    ((tget (s.seatNet (toSeat (fld e.bytes 8 1))).data h []).length + r.len < fld e.bytes 10 2) →
    (q.off = 0 → q.len = r.len → r.parts = [] → 0 < r.len →
      Yields (.hostReadCompletion id (some b)) s fun t => t.host.reads = [] ∧
        tget (t.seatNet (toSeat (fld e.bytes 8 1))).data h [] =
          tget (s.seatNet (toSeat (fld e.bytes 8 1))).data h [] ++ slice b 0 r.len) ∧
    (((tput r.parts q.off (slice b 0 q.len)).map (·.2)).flatten.length < r.len →
      Yields (.hostReadCompletion id (some b)) s fun t =>
        t.host.reads = [(n, { r with parts := tput r.parts q.off (slice b 0 q.len) })] ∧ t.req? id = none) ∧
    (Yields (.hostReadCompletion id none) s fun t => t.host.reads = [] ∧ Finished t h) ∧
    (t0 + (s.fnSt q.fn).timeout ≤ s.ut q.fn.core → Yields (.completionTimeout id) s fun t => t.host.reads = [] ∧ Finished t h))

/-- The dispatcher and the items it moves (05 R128, R132 to R136; 04 R110, R116; 16 R389): what each command leaves. -/
def Obligations.DispatcherAndItems : Prop :=
  (∀ (c : CoreId) (n : TeNo) (w : List Item) (p : Item) (s : State), s.teClock c n = true → (s.teSt c n).cur = none →
    (s.teSt c n).staged = none → (s.teSt c n).pre = none → (s.teSt c n).inHandler = false → s.pick c n none = some (w, p) →
    Yields (.itemDispatch c n) s fun t => (∃ r, (t.teSt c n).cur = some r ∧ r.item = p ∧ r.loops = [] ∧ r.rets = [] ∧
      r.regs[1] = p.arg) ∧ (t.dispatch c).ready = takePick w p (s.dispatch c).ready) ∧
  (∀ (c : CoreId) (cl : Fin 4) (n : TeNo) (l : Nat) (w : List Item) (p : Item) (s : State), s.serves c = true →
    (s.dispatch c).preempts cl = true → (∀ j ∈ clusterTes cl, (s.teSt c j).cur.isSome = true) → s.lowestTe c cl = some (n, l) →
    (s.setTeSt c n { s.teSt c n with cur := none, pre := (s.teSt c n).cur, waiting := false }).pick c n (some l) = some (w, p) →
    Yields (.preemption c cl) s fun t => (t.teSt c n).pre = (s.teSt c n).cur ∧ ∃ r, (t.teSt c n).cur = some r ∧ r.item = p) ∧
  (∀ (c : CoreId) (n : TeNo) (r : Run) (s : State), s.teClock c n = true → (s.teSt c n).cur = none → (s.teSt c n).pre = some r →
    ((s.dispatch c).preempts (teCluster n) = false ∨ s.pick c n (some r.item.level.val) = none) →
    Yields (.preemptedRestore c n) s fun t => (t.teSt c n).cur = some r ∧ (t.teSt c n).pre = none) ∧
  (∀ (w : Via) (c : CoreId) (v : W32) (s : State), s.viaHeard w = true → s.viaMay w = true → Yields (.clusterModeWrite w c v) s fun t =>
    (t.dispatch c).preempt = BitVec.ofNat 4 v.toNat ∧
    ∀ cl : Fin 4, (t.dispatch c).changing.getLsbD cl.val =
      ((s.dispatch c).changing.getLsbD cl.val || (v.getLsbD cl.val != (s.dispatch c).preempt.getLsbD cl.val))) ∧
  (∀ (c : CoreId) (cl : Fin 4) (s : State), s.clusterInMode c cl = true → Yields (.clusterModeChanged c cl) s fun t =>
    (t.dispatch c).changing.getLsbD cl.val = false ∧
    ∀ j : Fin 4, j ≠ cl → (t.dispatch c).changing.getLsbD j.val = (s.dispatch c).changing.getLsbD j.val) ∧
  (∀ (f : FnId) (l : Fin 8) (s : State), s.fnUp f = true → Yields (.maxWaitRead f l) s fun t =>
    tget (t.dispatch f.core).maxWait l.val 0 = 0 ∧ t.host.tx = s.host.tx ++ [.completion f (leBytes 8
      ((tget (s.dispatch f.core).maxWait l.val 0).toNat * 2 ^ 32 +
        ((s.dispatch f.core).ready.filter fun x => x.level == l).length))]) ∧
  (∀ (c : CoreId) (n : TeNo) (x : Seat) (ut : Nat) (p : Run × Fin 4) (s u : State), u = s.arrive ut →
    (u.dispatch c).suspended.find? (fun r => r.1.item.seat == some x && r.2 == teCluster n && decide (r.1.startUt ≤ u.ut c)) = some p →
    (u.teSt c n).runs = [] → (u.teSt c n).inHandler = false → u.teClock c n = true →
    Yields (.tickResume c n x ut) s fun t => (t.dispatch c).suspended = (u.dispatch c).suspended.erase p ∧
      ∃ r, (t.teSt c n).cur = some r ∧ r.pc = p.1.pc ∧ r.count = 0 ∧ r.startUt = u.ut c ∧ r.item.level = (u.dispatch c).level 0 ∧
        r.item.flow = p.1.item.flow) ∧
  (∀ (c : CoreId) (i : IsletNo) (r : Fin 256) (v : Latched) (rest : List Latched) (s : State),
    (s.ring c i r.val).latch = v :: rest → (s.ring c i r.val).enable = true → s.hasPlace c i r.val 1 = true →
    Yields (.faultRecordRelease c i r) s fun t => (t.ring c i r.val).latch = rest ∧
      (t.ring c i r.val).made.map (·.bytes) = (s.ring c i r.val).made.map (·.bytes) ++ [v.bytes])

/-- The event controllers (05 R138 to R148) and the seat's tick (05 R137). -/
def Obligations.EventController : Prop :=
  (∀ (c : CoreId) (n : Fin 2048) (s : State), Yields (.eventEdge c n) s fun t =>
    ((t.evtCore c).pend (n.val / 64)).getLsbD (n.val % 64) = true ∧ (t.evtCore c).mask = (s.evtCore c).mask) ∧
  (∀ (c : CoreId) (k : Fin 33) (v : W64) (s : State), (s.coreSt c).fenced = false →
    (k.val < 32 → Yields (.evtPendingWrite (.prog c) c false k v) s fun t =>
      ∀ b, v.getLsbD b = true → ((t.evtCore c).pend k.val).getLsbD b = true) ∧
    (Yields (.evtPendingWrite (.prog c) c true k v) s fun t => (t.evtCore c).privPend k.val = v &&& 0xFFFFFFFF) ∧
    (k.val < 32 → Yields (.evtMaskWrite (.prog c) c false k v) s fun t => (t.evtCore c).maskW k.val = v) ∧
    (Yields (.evtMaskWrite (.prog c) c true k v) s fun t => (t.evtCore c).privMaskW k.val = v &&& 0xFFFFFFFF) ∧
    (Yields (.evtVectorBaseWrite (.prog c) c k v) s fun t =>
      if k.val < 32 ∧ 0x1EF000 < (v &&& 0xFFFFF000).toNat then t = s
      else tget (t.evtCore c).base k.val 0 = v &&& 0xFFFFF000) ∧
    (Yields (.evtTimerWrite (.prog c) c k v) s fun t => tget (t.evtCore c).timer k.val 0 = v ∧
      tget (t.evtCore c).armed k.val false = (v != 0) ∧ (t.evtCore c).pending = (s.evtCore c).pending)) ∧
  (∀ (c : CoreId) (n : Fin 2048) (v : W64) (s : State), (s.coreSt c).fenced = false →
    Yields (.evtSourceWrite (.prog c) c n v) s fun t => (t.evtCore c).src n.val = v &&& 0xF3F) ∧
  (∀ (c : CoreId) (k : Fin 33) (ut : Nat) (s u : State), u = s.arrive ut → tget (u.evtCore c).armed k.val false = true →
    (tget (u.evtCore c).timer k.val 0).toNat ≤ u.ut c → Yields (.evtTimerFire c k ut) s fun t =>
      tget (t.evtCore c).armed k.val false = false ∧ ((t.evtCore c).privPend k.val).getLsbD 0 = true) ∧
  (∀ (ut : Nat) (s u : State), u = s.arrive ut → u.consoleServed = true → u.evt.lastSweep / frameNs < u.now / frameNs →
    Yields (.supervisorSweep ut) s fun t => t = u.setEvt { u.evt with lastSweep := u.now }) ∧
  (∀ (c : CoreId) (x : Seat) (ut : Nat) (s u : State), u = s.arrive ut → ut % microFrame = 0 → u.ut c = ut → u.serves c = true →
    u.servingCore x = c → u.mode.mode.isStart = false → u.mode.mode ≠ .unpowered → (u.usbSeat x).lastBuild < ut / microFrame + 2 →
    tget u.flt.buildFrom x.val 0 = 0 → (u.link_ x).holdStart = none →
    ((u.dispatch c).suspended.any fun r => r.1.item.flow == BitVec.ofNat 24 x.val) = false →
    ((u.dispatch c).ready.any (stillReady x (ut / microFrame + 2))) = false →
    Yields (.seatTick c x ut) s fun t => (t.usbSeat x).lastBuild = ut / microFrame + 2 ∧
      ∃ it ∈ (t.dispatch c).ready, it.kind = 0 ∧ it.seat = some x ∧ it.arg = BitVec.ofNat 64 (ut / microFrame + 2))

/-- `PROGRAM_LOAD` entries (04 R121 to R124): a good image is placed, a failed read or a dropped image is recorded. -/
def Obligations.ProgramLoads : Prop :=
  (∀ (c : CoreId) (h : Nat) (e : EntrySt) (s : State), s.entryOf c h 0x40 = some e → fld e.bytes 9 1 = 1 →
    s.canRequest (s.islFn e.core e.islet) = true → (s.fnSt (s.islFn e.core e.islet)).pasidEn = true →
    (Yields (.programLoadLoad c h none) s fun t => Completes s t h e 0x01 0 0 ∧ t.prog = s.prog) ∧
    (∀ b, b.length = fld e.bytes 24 4 → b.length = imageLength b →
      s.loadCheck (s.loadCores c e.islet) (.islet e.islet (entrySlot e)) false b = .loads →
      Yields (.programLoadLoad c h (some b)) s fun t =>
        (∃ m ∈ t.store c, m.live = true ∧ m.id = .islet e.islet (entrySlot e) ∧ m.words = codeWords (imageWords b) (b.drop 64) ∧
          m.entry = imageEntry b) ∧
        Completes s t h e 0x00 b.length (imageBound (codeWords (imageWords b) (b.drop 64)) (imageEntry b) +
          at_ (freeWords (t.store c)) 32)) ∧
    (∀ b st d, b.length = fld e.bytes 24 4 → b.length = imageLength b →
      s.loadCheck (s.loadCores c e.islet) (.islet e.islet (entrySlot e)) false b = .fails st d →
      Yields (.programLoadLoad c h (some b)) s fun t => Completes s t h e st 0 d ∧ t.prog = s.prog)) ∧
  (∀ (c : CoreId) (h : Nat) (e : EntrySt) (s : State), s.entryOf c h 0x40 = some e → fld e.bytes 9 1 = 2 →
    ((s.store c).any fun m => m.live && m.id == .islet e.islet (entrySlot e)) = true →
    Yields (.programLoadUnload c h) s fun t =>
      ((t.store c).any fun m => m.live && m.id == .islet e.islet (entrySlot e)) = false ∧
      Completes s t h e 0x00 0 (at_ (freeWords (t.store c)) 32))

/-- The entries of the USB host service (06 R156 to R163): endpoints open, close, resume and abort, transfers are posted and
time out. -/
def Obligations.UsbEntries : Prop :=
  (∀ (c : CoreId) (h : Nat) (e : EntrySt) (s : State), s.entryOf c h 0x14 = some e → fld e.bytes 11 1 = 1 →
    (∀ st, s.openCheck (openWants e.islet e.bytes) = .inl st → Yields (.usbOpen c h) s fun t =>
      Completes s t h e st 0 0 ∧ t.usb = s.usb) ∧
    (∀ v n, s.openCheck (openWants e.islet e.bytes) = .inr (v, n) → Yields (.usbOpen c h) s fun t =>
      Completes s t h e 0x00 0 (n + at_ v.phase 16) ∧
      t.ep (epKey e.islet (s.servingCore v.seat) n) = { v with
        nextN := if v.periodic then v.serviceFrom (s.uframe (s.servingCore v.seat) + 3) else 0 } ∧
      ∀ k, k ≠ epKey e.islet (s.servingCore v.seat) n → t.ep k = s.ep k)) ∧
  (∀ (c : CoreId) (h : Nat) (e : EntrySt) (s : State), s.entryOf c h 0x14 = some e →
    (fld e.bytes 11 1 = 2 → s.named e = none → Yields (.close c h) s fun t => Completes s t h e 0x45 0 0 ∧ t.usb = s.usb) ∧
    (fld e.bytes 11 1 = 3 → s.named e = none → Yields (.clearHalt c h) s fun t => Completes s t h e 0x45 0 0 ∧ t.usb = s.usb) ∧
    (fld e.bytes 11 1 = 4 → s.named e = none → Yields (.abort c h) s fun t => Completes s t h e 0x45 0 0 ∧ t.usb = s.usb)) ∧
  (∀ (c : CoreId) (h k : Nat) (e : EntrySt) (s : State), s.entryOf c h 0x14 = some e → s.named e = some k → (s.ep k).state ≠ 0 →
    (fld e.bytes 11 1 = 2 → (s.ep k).queue = [] → (s.ep k).closers = [] → Yields (.close c h) s fun t =>
      t.ep k = EpSt.init ∧ Completes s t h e 0x00 0 0) ∧
    (fld e.bytes 11 1 = 3 → (s.ep k).state = 2 → Yields (.clearHalt c h) s fun t =>
      (t.ep k).state = 1 ∧ (t.ep k).toggle = false ∧ Completes s t h e 0x00 0 0) ∧
    (fld e.bytes 11 1 = 4 → (s.ep k).state ≠ 3 → (s.ep k).queue = [] → (s.ep k).closers = [] → Yields (.abort c h) s fun t =>
      (t.ep k).state = (s.ep k).state ∧ (t.usbSeat (s.ep k).seat).flushes = (s.usbSeat (s.ep k).seat).flushes ++ [(s.ep k).flushRecord] ∧
      Completes s t h e 0x00 0 0)) ∧
  (∀ (c : CoreId) (h k : Nat) (e : EntrySt) (s : State), s.entryOf c h 0x10 = some e → s.named e = some k → (s.ep k).type = 0 →
    (bit (fld e.bytes 16 1) 7 = true ∨ fld e.bytes 12 2 = 0 ∨ s.readsRefused (s.entryFn e) = false) →
    Yields (.usbControl c h) s fun t => (t.ep k).queue = (s.ep k).queue ++ [h] ∧ (t.xfer h).ep = k ∧
      (t.xfer h).len = fld e.bytes 12 2 ∧ (t.xfer h).segs = [(fld e.bytes 24 8, fld e.bytes 12 2)] ∧
      (t.xfer h).dirIn = (bit (fld e.bytes 16 1) 7 || fld e.bytes 12 2 == 0) ∧
      (t.xfer h).deadline = timeoutAt e (fld e.bytes 14 2)) ∧
  (∀ (c : CoreId) (h k : Nat) (e : EntrySt) (s : State), s.named e = some k →
    ((s.ep k).dirIn = true ∨ s.readsRefused (s.entryFn e) = false) →
    (s.entryOf c h 0x11 = some e → (s.ep k).type = 2 → Yields (.usbBulk c h) s fun t =>
      (t.ep k).queue = (s.ep k).queue ++ [h] ∧ (t.xfer h).ep = k ∧ (t.xfer h).len = fld e.bytes 24 4 ∧
      (t.xfer h).segs = bulkSegs e.bytes ∧ (t.xfer h).deadline = timeoutAt e (fld e.bytes 12 2)) ∧
    (s.entryOf c h 0x12 = some e → (s.ep k).type = 3 → Yields (.usbInterrupt c h) s fun t =>
      (t.ep k).queue = (s.ep k).queue ++ [h] ∧ (t.xfer h).ep = k ∧ (t.xfer h).len = fld e.bytes 24 4 ∧
      (t.xfer h).segs = bulkSegs e.bytes ∧ (t.xfer h).deadline = timeoutAt e (fld e.bytes 12 2))) ∧
  (∀ (c : CoreId) (h k : Nat) (e : EntrySt) (s : State), s.entryOf c h 0x13 = some e → s.named e = some k → (s.ep k).type = 1 →
    ((isoLengths e.bytes).any (fun l => decide ((s.ep k).perService < l)) = true → Yields (.usbIsoch c h) s fun t =>
      Completes s t h e (if (s.isoNotRun h e).1 then 0x4D else 0x01) 0 (isoLengths e.bytes).length ∧ t.usb = s.usb) ∧
    (∀ n, (isoLengths e.bytes).any (fun l => decide ((s.ep k).perService < l)) = false →
      n = (s.ep k).serviceFrom (if bit (fld e.bytes 11 1) 0 then s.uframe c + 3 else startFrame (s.uframe c) (fld e.bytes 24 4)) →
      (bit (fld e.bytes 11 1) 0 = false → (n - 2) * microFrame ≤ e.takenUt → Yields (.usbIsoch c h) s fun t =>
        Completes s t h e (if (s.isoNotRun h e).1 then 0x02 else 0x01) 0 (isoLengths e.bytes).length ∧ t.usb = s.usb) ∧
      ((bit (fld e.bytes 11 1) 0 = true ∨ e.takenUt < (n - 2) * microFrame) →
        ((s.ep k).dirIn = true ∨ s.readsRefused (s.entryFn e) = false) →
        Yields (.usbIsoch c h) s fun t => (t.ep k).queue = (s.ep k).queue ++ [h] ∧ (t.xfer h).ep = k ∧
          (t.xfer h).pkts = isoPackets (isoLengths e.bytes) n (s.ep k).period))) ∧
  (∀ (c : CoreId) (h ut d : Nat) (e : EntrySt) (s u : State), u = s.arrive ut → u.entry? h = some e →
    (u.xfer h).deadline = some d → u.runs e.core = c → d ≤ u.ut c → (u.xfer h).ending = none →
    ((u.xfer h).waits = false → Yields (.timedOut c h ut) s fun t => Finished t h ∧ t.xfer h = XferSt.init) ∧
    ((u.xfer h).waits = true → Yields (.timedOut c h ut) s fun t =>
      (t.xfer h).ending = some 0x49 ∧ t.entry? h = some e)) ∧
  (∀ (x : Seat) (n ut k h : Nat) (p p' : IsoPkt) (s u : State), u = s.arrive ut → (n + 6) * microFrame ≤ u.ut (u.servingCore x) →
    (u.epsOf x fun e => e.type == 1) = [k] → (u.ep k).queue = [h] → (u.xfer h).pkts = [p, p'] → p.value = none → p.n ≤ n →
    (p.sent = true → (u.unheard x k n).contains p.n = true ∨ p.n + 8 ≤ n) → p'.value = none → n < p'.n → (u.xfer h).ending = none → Yields (.isoResultLost x n ut) s fun t =>
      (t.xfer h).pkts = [{ p with value := some (if p.sent then 0xFFFF else 0xFFFE) }, p'])

/-- The virtual root hub, profiles and results (06 R150, R151, R168 to R178, R410). -/
def Obligations.RootHubAndResults : Prop :=
  (∀ (f : FnId) (i : IsletNo) (x : Seat) (p : RootPort) (s : State), s.presents f i x = true →
    (Yields (.rootPortReset f i x p) s fun t => t.usbSeat x = { s.usbSeat x with hubOps := (s.usbSeat x).hubOps ++ [.cmd i p (some .reset)] }) ∧
    (Yields (.rootPortSuspend f i x p) s fun t => t.usbSeat x = { s.usbSeat x with hubOps := (s.usbSeat x).hubOps ++ [.cmd i p (some .suspend)] }) ∧
    (Yields (.rootPortResume f i x p) s fun t => t.usbSeat x = { s.usbSeat x with hubOps := (s.usbSeat x).hubOps ++ [.cmd i p (some .resume)] }) ∧
    (Yields (.rootPortDisable f i x p) s fun t => t.usbSeat x = { s.usbSeat x with hubOps := (s.usbSeat x).hubOps ++ [.cmd i p (some .disable)] }) ∧
    (Yields (.rootPortPowerOff f i x p) s fun t =>
      t.usbSeat x = { s.usbSeat x with hubOps := (s.usbSeat x).hubOps ++ [.cmd i p (some .powerOff)] }) ∧
    (Yields (.rootPortPowerOn f i x p) s fun t =>
      t.usbSeat x = { s.usbSeat x with hubOps := (s.usbSeat x).hubOps ++ [.cmd i p (some .powerOn)] }) ∧
    (Yields (.rootPortBadCommand f i x p) s fun t =>
      t.usbSeat x = { s.usbSeat x with hubOps := (s.usbSeat x).hubOps ++ [.cmd i p none] }) ∧
    (∀ b : BitVec 7, Yields (.rootPortChangeClear f i x p b) s fun t =>
      t.rootPort x p = { s.rootPort x p with changes := (s.rootPort x p).changes &&& ~~~b })) ∧
  (∀ (i : IsletNo) (x : Seat) (p : RootPort) (s : State), s.flowHeld (s.servingCore x) (BitVec.ofNat 24 x.val) = false →
    s.owner x = i → (s.rootPort x p).busy = none →
    ((s.usbSeat x).hubOps = [.cmd i p none] → Yields (.rootHubOperation x) s fun t => (t.usbSeat x).hubOps = [] ∧
      (t.rootPort x p).last = 0x07 ∧ (t.rootPort x p).changes = (s.rootPort x p).changes ||| 0x40 ∧
      (t.rootPort x p).st = (s.rootPort x p).st ∧ (t.rootPort x p).busy = none) ∧
    ((s.usbSeat x).hubOps = [.cmd i p (some .suspend)] → (s.rootPort x p).st = .enabled → Yields (.rootHubOperation x) s fun t =>
      (t.usbSeat x).hubOps = [] ∧ (t.usbSeat x).portRecs = (s.usbSeat x).portRecs ++ [{ port := p, op := 2, cmd := some ((s.rootPort x p).cmdNo + 1) }] ∧
      t.rootPort x p = { s.rootPort x p with
        busy := some .suspend, former := false, before := .enabled, cmdNo := (s.rootPort x p).cmdNo + 1 }) ∧
    ((s.usbSeat x).hubOps = [.cmd i p (some .reset)] → (s.rootPort x p).st = .disconnected → Yields (.rootHubOperation x) s fun t =>
      (t.usbSeat x).hubOps = [] ∧ (t.usbSeat x).portRecs = (s.usbSeat x).portRecs ∧ (t.rootPort x p).last = 0x04 ∧
      (t.rootPort x p).changes = (s.rootPort x p).changes ||| 0x40 ∧ (t.rootPort x p).busy = none)) ∧
  (∀ (x : Seat) (b : List Byte) (s : State), (s.link_ x).st = .up → (s.usbSeat x).profileSeen = false → profileBad b = none →
    Yields (.profile x b) s fun t => (t.usbSeat x).profile = some (profileOf b) ∧ (t.usbSeat x).profileSeen = true) ∧
  (∀ (x : Seat) (b : List Byte) (o : Nat) (s : State), (s.link_ x).st = .up → (s.usbSeat x).profileSeen = false →
    profileBad b = some o → Yields (.profile x b) s fun t => (t.usbSeat x).profile = none ∧ (t.usbSeat x).profileSeen = true) ∧
  (∀ (x : Seat) (n : W32) (body : List Byte) (r : ResIn) (s : State), (s.link_ x).maySend .usb = true →
    readResults (s.usbSeat x) n.toNat body = some [r] →
    (r.kind = 0x10 → (s.usbSeat x).newEvent r.index = true → Yields (.results x false n body) s fun t =>
      t.usbSeat x = { s.usbSeat x with hubOps := (s.usbSeat x).hubOps ++ [.event r.bytes none], lastEvent := some r.index } ∧ t.usb.xfers = s.usb.xfers) ∧
    (∀ q k h, r.kind ≠ 0x10 → r.kind ≠ 0x07 → r.code = 0x03 → ((s.usbSeat x).markDone r.bytes).2 = false →
      (s.usbSeat x).recordOf r.bytes = some q → recKind q ≠ 0x0B → s.recContext x q = some k → (s.ep k).type = 2 → (s.ep k).state = 1 →
      (s.ep k).queue = [h] → (s.ep k).closers = [] → (s.xfer h).ep = k → (s.xfer h).outstanding = 1 → (s.xfer h).resulted = false →
      Yields (.results x false n body) s fun t => (t.ep k).state = 2 ∧ (t.ep k).queue = [] ∧ Finished t h ∧ t.xfer h = XferSt.init))

/-- A link forms (07 R183 to R186, R200 to R208; 11 R303): auto-negotiation, training, the greeting, the result of `WELCOME`. -/
def Obligations.LinkForming : Prop :=
  (∀ (x : Seat) (m : BitVec 11 × BitVec 11 × BitVec 11 × BitVec 11) (w : Nat) (pages : BitVec 4) (s : State),
    (s.link_ x).seeking = true → straitWord m = some w → straitWordOk w pages = true →
    (highestRate (s.advertised x &&& pages) = 0 → (s.targetOnly x).isNone = true → Yields (.autonegComplete x (some m) pages) s fun t =>
      (t.link_ x).st = .foreign ∧ (t.link_ x).rate = 0 ∧ (t.link_ x).trainEnd = none) ∧
    (highestRate (s.advertised x &&& pages) ≠ 0 → Yields (.autonegComplete x (some m) pages) s fun t =>
      (t.link_ x).st = .training ∧ (t.link_ x).trainRate = BitVec.ofNat 4 (highestRate (s.advertised x &&& pages)) ∧
      (t.link_ x).trainEnd = some (s.ut (s.servingCore x) + 2500 * ms) ∧ (t.link_ x).partnerRates = pages ∧ (t.link_ x).paged = true)) ∧
  (∀ (x : Seat) (m : Option (BitVec 11 × BitVec 11 × BitVec 11 × BitVec 11)) (pages : BitVec 4) (s : State),
    (s.link_ x).seeking = true → m.bind straitWord = none → Yields (.autonegComplete x m pages) s fun t =>
    (t.link_ x).st = .foreign ∧ (t.link_ x).rate = 0 ∧ (t.link_ x).trainEnd = none) ∧
  (∀ (x : Seat) (ut e : Nat) (s u : State), u = s.arrive ut → (u.link_ x).energyAt = some e → (u.link_ x).seeking = true →
    (u.link_ x).paged = false → e + 3000 * ms ≤ u.ut (u.servingCore x) → Yields (.foreignEnergyTimeout x ut) s fun t =>
      (t.link_ x).st = .foreign ∧ (t.link_ x).rate = 0) ∧
  (∀ (x : Seat) (ut : Nat) (s u : State), u = s.arrive ut → (u.link_ x).st = .foreign → Yields (.foreignClear x ut) s fun t =>
    (t.link_ x).st = .noPartner ∧ (t.link_ x).energyAt = none ∧ (t.link_ x).paged = false ∧ (t.link_ x).dropped = 0 ∧
      (t.link_ x).trainFails = 0 ∧ (t.link_ x).rate = 0) ∧
  (∀ (x : Seat) (ut : Nat) (s u : State), u = s.arrive ut → u.portsServed = true → (u.link_ x).st = .noPartner →
    (u.link_ x).energyAt = none → Yields (.partnerEnergyDetected x ut) s fun t => (t.link_ x).st = .negotiating ∧
      (t.link_ x).energyAt = some (u.ut (u.servingCore x)) ∧ (t.link_ x).dropped = 0) ∧
  (∀ (x : Seat) (pairs : BitVec 6) (s : State), (s.link_ x).st = .training → (s.link_ x).trainEnd.isSome = true →
    Yields (.trainingComplete ⟨x, pairs⟩) s fun t =>
      t.link_ x = { s.link_ x with rate := (s.link_ x).trainRate, trainEnd := none, trainFails := 0 } ∧
      (t.seatPower x).pairMap.toNat = pairs.toNat) ∧
  (∀ (x : Seat) (ut e : Nat) (s u : State), u = s.arrive ut → (u.link_ x).trainEnd = some e → e ≤ u.ut (u.servingCore x) →
    Yields (.trainingTimeout x ut) s fun t => (t.link_ x).trainEnd = none ∧ (t.link_ x).rate = 0 ∧
      (t.link_ x).trainFails = (if (u.link_ x).trainFails = 0 then 1 else 0) ∧
      (t.link_ x).dropped = (if (u.link_ x).trainFails = 0 then (u.link_ x).dropped
        else (u.link_ x).dropped ||| rateBit (u.link_ x).trainRate.toNat)) ∧
  (∀ (x : Seat) (s : State), (s.link_ x).st = .training → (s.link_ x).trainEnd = none → (s.link_ x).pcsUp = false →
    (s.link_ x).rate ≠ 0 → Yields (.pcsLinkUp x) s fun t => (t.link_ x).st = .greeting ∧ (t.link_ x).pcsUp = true ∧
      (t.link_ x).epoch = (if (s.link_ x).epoch = 0xFFFF then 1 else (s.link_ x).epoch + 1) ∧
      (t.link_ x).helloFirst = s.ut (s.servingCore x) ∧ (t.link_ x).helloLast = s.ut (s.servingCore x)) ∧
  (∀ (x : Seat) (ut : Nat) (s u : State), u = s.arrive ut → (u.link_ x).waitsReply = true →
    (u.link_ x).helloLast + (if (u.link_ x).rehome then 50000 else 10 * ms) ≤ u.ut (u.servingCore x) →
    u.ut (u.servingCore x) < (u.link_ x).helloFirst + 1000 * ms → Yields (.helloRetry x ut) s fun t =>
      (t.link_ x).epoch = (if (u.link_ x).epoch = 0xFFFF then 1 else (u.link_ x).epoch + 1) ∧
      (t.link_ x).helloFirst = (u.link_ x).helloFirst ∧ (t.link_ x).helloLast = u.ut (u.servingCore x)) ∧
  (∀ (x : Seat) (ut t0 : Nat) (s u : State), u = s.arrive ut → (u.link_ x).st = .authFailed → (u.link_ x).authAt = some t0 →
    t0 ≤ u.ut (u.servingCore x) → (u.link_ x).pcsUp = true → Yields (.authRetry x ut) s fun t => (t.link_ x).st = .authFailed ∧
      (t.link_ x).live = true ∧ (t.link_ x).authAt = none ∧ (t.link_ x).priorEpoch = 0 ∧
      (t.link_ x).epoch = (if (u.link_ x).epoch = 0xFFFF then 1 else (u.link_ x).epoch + 1)) ∧
  (∀ (x : Seat) (b : List Byte) (s : State), s.mode.mode ≠ .unsupervised → (s.link_ x).waitsReply = true → replyForm b = true → fld b 0 1 = 1 →
    fld b 2 2 = (s.link_ x).epoch.toNat → Yields (.helloReply x b) s fun t => (t.link_ x).live = false ∧
      (t.link_ x).dockId = BitVec.ofNat 64 (fld b 8 8) ∧
      match s.welcomeFor x b with
      | .fresh => (t.link_ x).st = .up ∧ (t.link_ x).svcEpoch = (s.link_ x).epoch ∧ (t.link_ x).svcDock = BitVec.ofNat 64 (fld b 8 8)
      | .resumed => (t.link_ x).st = .up ∧ (t.link_ x).svcEpoch = (s.link_ x).epoch ∧ (t.link_ x).holdStart = none
      | .unenrolled => (t.link_ x).st = .unenrolled ∧ (t.link_ x).svcEpoch = 0
      | .authFailed => (t.link_ x).st = .authFailed ∧ (t.link_ x).svcEpoch = 0 ∧
          (t.link_ x).authAt = some (s.ut (s.servingCore x) + 60000 * ms)) ∧
  (∀ (x : Seat) (s : State), (s.seatPower x).isPowered = true → (s.link_ x).pcsUp = false → Yields (.wakePattern x) s fun t =>
    (t.seatPower x).wakeSeen = true ∧
    ((s.seatPower x).wakeLink = true → (s.link_ x).disable = true → (t.link_ x).disable = false))

/-- A link is lost (07 R196, R200, R209 to R211): its cause, its hold-down, the flush at the hold-down's end; and what
`SEAT_LINK_CONTROL` does. -/
def Obligations.LinkLoss : Prop :=
  (∀ (x : Seat) (s : State), (s.link_ x).pcsUp = true →
    (Yields (.goodbye x) s fun t => (t.link_ x).pcsUp = false ∧ (t.link_ x).downCause = 4 ∧ (t.link_ x).rate = 0 ∧
      ((s.link_ x).svcEpoch ≠ 0 → (s.link_ x).holdStart = none → (s.link_ x).holdMs ≠ 0 →
        (t.link_ x).holdStart = some (s.ut (s.servingCore x)) ∧ (t.link_ x).svcEpoch = (s.link_ x).svcEpoch)) ∧
    (Yields (.phyLinkFail x) s fun t => (t.link_ x).pcsUp = false ∧ (t.link_ x).downCause = 1 ∧ (t.link_ x).rate = 0 ∧
      (t.link_ x).energyAt = none ∧ ((s.link_ x).svcEpoch = 0 → (t.link_ x).holdStart = (s.link_ x).holdStart))) ∧
  (∀ (x : Seat) (ut : Nat) (s u : State), u = s.arrive ut → (u.link_ x).pcsUp = true →
    (u.link_ x).lastRx + 500000 + u.slotTime x (u.link_ x).lastRx (u.ut (u.servingCore x)) ≤ u.ut (u.servingCore x) →
    Yields (.silence x ut) s fun t => (t.link_ x).pcsUp = false ∧ (t.link_ x).downCause = 3) ∧
  (∀ (x : Seat) (ut : Nat) (s u : State), u = s.arrive ut → u.mode.mode ≠ .unsupervised → (u.link_ x).waitsReply = true →
    (u.link_ x).helloFirst + 1000 * ms ≤ u.ut (u.servingCore x) → Yields (.helloGiveUp x ut) s fun t => (t.link_ x).pcsUp = false ∧
      (if (u.link_ x).st = .greeting then (t.link_ x).st = .negotiating ∧ (t.link_ x).downCause = (u.link_ x).downCause
       else (t.link_ x).downCause = 1)) ∧
  (∀ (x : Seat) (ut h : Nat) (s u : State), u = s.arrive ut → (u.link_ x).holdStart = some h →
    h + (u.link_ x).holdLen ≤ u.ut (u.servingCore x) → Yields (.holdDownExpiry x ut) s fun t =>
      (t.link_ x).holdStart = none ∧ (t.link_ x).svcEpoch = 0 ∧ (t.usbSeat x).profile = none ∧ (t.usbSeat x).profileSeen = false) ∧
  (∀ (w : Via) (x : Seat) (v : W64) (s : State), s.viaHeard w = true → s.viaMay w = true → bits v.toNat 19 16 = 0 →
    Yields (.seatLinkControlWrite w x v) s fun t => (t.link_ x).disable = v.getLsbD 31 ∧
      (t.link_ x).rateMax = BitVec.ofNat 4 (bits v.toNat 27 24) ∧ (t.link_ x).holdMs = BitVec.ofNat 13 (bits v.toNat 12 0) ∧
      (v.getLsbD 31 = true → (s.link_ x).disable = false → (t.link_ x).st = .disabled ∧ (t.link_ x).pcsUp = false)) ∧
  (∀ (x : Seat) (k : Tunnel) (ut : Nat) (r : ReTimer) (s u : State), u = s.arrive ut → k.reliable = true →
    (u.tun x k).timers = [r] → (u.link_ x).pcsUp = true →
    r.due + r.paused + u.slotTime x (r.due - 30000) (u.ut (u.servingCore x)) ≤ u.ut (u.servingCore x) →
    Yields (.retransmitTimerExpiry x k ut) s fun t =>
      if 16 ≤ (u.tun x k).expiries + 1 then (t.link_ x).pcsUp = false ∧ (t.link_ x).downCause = 2
      else (t.tun x k).timers = [] ∧ (t.tun x k).expiries = (u.tun x k).expiries + 1 ∧ (t.tun x k).held = (u.tun x k).held ∧
        (t.tun x k).resend = ((u.tun x k).held.filter fun f =>
          decide (sub16 (u.tun x k).peerRecv (u.tun x k).free ≤ sub16 f.seq (u.tun x k).free)).map (·.seq))

/-- The change of a link's rate (07 R220, R221). -/
def Obligations.RateChange : Prop :=
  (∀ (w : Via) (x : Seat) (r : BitVec 4) (s : State), s.viaHeard w = true → s.viaMay w = true →
    (r ≠ 0 → r ≠ (s.link_ x).rate → (s.link_ x).maxRate < r.toNat → Yields (.rateTargetWrite w x r) s fun t => (t.link_ x).rateTarget = r ∧
      (t.link_ x).rateResult = 2 ∧ (t.seatTime x).ratePhase = (s.seatTime x).ratePhase) ∧
    (r ≠ 0 → r.toNat ≤ (s.link_ x).maxRate → s.linkState x = .up → r ≠ (s.link_ x).rate →
      (s.link_ x).partnerRates &&& rateBit r.toNat ≠ 0 → Yields (.rateTargetWrite w x r) s fun t => (t.link_ x).rateTarget = r ∧
        (t.link_ x).rateResult = 4 ∧ (t.seatTime x).ratePhase = .waitAck ∧ (t.seatTime x).recorded = some r ∧
        (t.seatTime x).ackBy = s.ut (s.servingCore x) + 10 * ms)) ∧
  (∀ (x : Seat) (b : List Byte) (s : State), b.length = 16 → (s.seatTime x).ratePhase = .waitAck → s.ut (s.servingCore x) < (s.seatTime x).ackBy →
    fld b 0 2 = ((s.seatTime x).recorded.map (·.toNat)).getD 0 → fld b 2 6 = 0 → fld b 8 8 = (s.seatTime x).stopUt →
    Yields (.rateAck x b) s fun t => t.seatTime x = { s.seatTime x with ratePhase := .waitStop }) ∧
  (∀ (x : Seat) (ut : Nat) (s u : State), u = s.arrive ut → (u.seatTime x).ratePhase = .waitAck →
    (u.seatTime x).ackBy ≤ u.ut (u.servingCore x) → Yields (.rateAckTimeout x ut) s fun t =>
      (t.seatTime x).ratePhase = .none ∧ (t.link_ x).rateResult = 2 ∧ (t.link_ x).pcsUp = (u.link_ x).pcsUp) ∧
  (∀ (x : Seat) (ut : Nat) (s u : State), u = s.arrive ut → (u.seatTime x).ratePhase = .waitStop →
    (u.seatTime x).stopUt ≤ u.ut (u.servingCore x) → (u.link_ x).pcsUp = true → Yields (.rateChangeStop x ut) s fun t =>
      (t.seatTime x).ratePhase = .changing ∧ (t.link_ x).pcsUp = false ∧ (t.link_ x).downCause = 5) ∧
  (∀ (x : Seat) (ut t0 : Nat) (s u : State), u = s.arrive ut → (u.seatTime x).targetFrom = some t0 → (u.targetOnly x).isSome = true →
    (u.link_ x).holdStart = none → (u.link_ x).pcsUp = false → t0 + 3000 * ms ≤ u.ut (u.servingCore x) → Yields (.rateChangeTimeout x ut) s fun t =>
      (t.seatTime x).ratePhase = .none ∧ (t.link_ x).rateResult = 3)

/-- Frames of a link, its reports and its time lock (07 R189 to R197, R213 to R219). -/
def Obligations.FramesAndTime : Prop :=
  (∀ (x : Seat) (b : List Byte) (k : Tunnel) (s : State), (s.link_ x).pcsUp = true → b.length = 12 → fld b 1 1 = 0 →
    Tunnel.ofCode (fld b 0 1) = some k → k.reliable = true → Yields (.nak x b) s fun t => (t.tun x k).held = (s.tun x k).held ∧
      ∀ f ∈ (s.tun x k).held, sub16 f.seq (BitVec.ofNat 16 (fld b 2 2)) < 64 →
        bit (fld b 4 8) (sub16 f.seq (BitVec.ofNat 16 (fld b 2 2))) = true → f.seq ∈ (t.tun x k).resend) ∧
  (∀ (x : Seat) (k : Tunnel) (ut : Nat) (s u : State), u = s.arrive ut → k.reliable = true → (u.tun x k).ahead ≠ [] →
    (u.tun x k).nakAfter ≤ u.ut (u.servingCore x) → u.bareReady x 16 = true → Yields (.nakSend x k ut) s fun t =>
      (t.tun x k).nakAfter = u.ut (u.servingCore x) + 10000 ∧ t.link.line.length = u.link.line.length + 1) ∧
  (∀ (x : Seat) (k : Tunnel) (ut d : Nat) (s u : State), u = s.arrive ut → (u.tun x k).reportBy = some d →
    d ≤ u.ut (u.servingCore x) → u.bareReady x 0 = true → Yields (.reportDue x k ut) s fun t =>
      t.link.line.length = u.link.line.length + 1 ∧ (t.link_ x).lastTx = u.ut (u.servingCore x)) ∧
  (∀ (x : Seat) (ut : Nat) (s u : State), u = s.arrive ut → (u.link_ x).lastTx + 50000 ≤ u.ut (u.servingCore x) →
    u.bareReady x 0 = true → Yields (.keepaliveDue x ut) s fun t =>
      t.link.line.length = u.link.line.length + 1 ∧ (t.link_ x).lastTx = u.ut (u.servingCore x)) ∧
  (∀ (x : Seat) (b : List Byte) (s : State), (s.link_ x).pcsUp = true → b.length = 8 → fld b 1 1 = 0 → fld b 6 2 = 0 →
    Yields (.dockTime x b) s fun t =>
    t.seatTime x = { s.seatTime x with
      lock := BitVec.ofNat 2 (if 3 < fld b 0 1 then 0 else fld b 0 1), phase := BitVec.ofNat 16 (fld b 2 2),
      dockMargin := BitVec.ofNat 16 (fld b 4 2) }) ∧
  (∀ (x : Seat) (ut : Nat) (s u : State), u = s.arrive ut → (u.link_ x).st = .up → (u.seatTime x).lastUpdate + ms ≤ u.ut (u.servingCore x) →
    Yields (.delayUpdate x ut) s fun t => (t.seatTime x).ys = [] ∧ (t.seatTime x).lastUpdate = u.ut (u.servingCore x) ∧
      (t.seatTime x).dDelay = (if newDelay (u.seatTime x).ys (u.seatTime x).dDelay + 2 ≤ (u.seatTime x).dDelay ∨
          (u.seatTime x).dDelay + 2 ≤ newDelay (u.seatTime x).ys (u.seatTime x).dDelay
        then newDelay (u.seatTime x).ys (u.seatTime x).dDelay else (u.seatTime x).dDelay)) ∧
  (∀ (x : Seat) (m : Half) (ut : Nat) (s u : State), u = (s.arrive ut).settleGate x → (u.link_ x).pcsUp = true →
    (u.seatTraf x).calNow.2 ≠ 0 → Yields (.calibrationSlot x m ut) s fun t => (t.seatTime x).margin = m ∧
      (t.seatTime x).margins = (m :: (u.seatTime x).margins).take 1000) ∧
  (∀ (x : Seat) (pcs : Bool) (b : List Byte) (ut k : Nat) (s u : State), u = s.arrive ut → (u.link_ x).pcsUp = true →
    frameCheck pcs b = .inl k → Yields (.straitFrameReceive x pcs b ut) s fun t =>
      let v := (u.pauseTimers x (lineTime b.length 8 (u.rateOf x))).bumpSeat x k 1
      t = if k = 7 then v else v.discardAt (u.servingCore x) x.val) ∧
  (∀ (x : Seat) (b m p : List Byte) (ut : Nat) (s u : State), u = s.arrive ut → (u.link_ x).pcsUp = true → (u.link_ x).st = .up →
    (u.link_ x).live = false → frameCheck false b = .inr .sync → bit (fld b 0 1) 7 = false → bit (fld b 1 1) 7 = false →
    p = (b.drop 16).take (fld b 8 2) → splitMsgs 4 p.length p = ([m], true) → fld m 0 1 = 0x11 →
    fld m 1 1 = 0 → m.length = 12 → fld m 5 1 = 0 → fld m 10 2 = 0 → (u.rxAdmit x .sync b.length).1 = true →
    fld b 2 2 = (u.tun x .sync).recv.toNat → (u.tun x .sync).ahead = [] →
    Yields (.straitFrameReceive x false b ut) s fun t => (t.tun x .sync).recv = (u.tun x .sync).recv + 1 ∧
      (t.link_ x).lastRx = u.ut (u.servingCore x) ∧ (t.seatTime x).phase = BitVec.ofNat 16 (fld m 6 2))

/-- `DISPLAY_HEAD` and `DISPLAY_FRAME` entries (08 R223 to R225, R231, R236). -/
def Obligations.HeadEntries : Prop :=
  (∀ (c : CoreId) (h : Nat) (e : EntrySt) (s : State), s.entryOf c h 0x21 = some e →
    (∀ st, fld e.bytes 10 1 = 1 → s.attachCheck e (entryHead e) = some st → Yields (.attach c h) s fun t =>
      Completes s t h e st 0 0 ∧ t.disp = s.disp) ∧
    (fld e.bytes 10 1 = 1 → s.attachCheck e (entryHead e) = none → Yields (.attach c h) s fun t =>
      (t.head (entryHead e)).st = .attached ∧ (t.head (entryHead e)).timing = attachTiming e.bytes ∧
      (t.head (entryHead e)).bpp = attachBpp e.bytes ∧ (t.head (entryHead e)).islet = e.islet ∧
      (t.view (entryHead e)).source = none ∧ (t.view (entryHead e)).commitDue = true ∧
      (t.view (entryHead e)).pendingPos = allPositions (attachTiming e.bytes).v ∧
      ((∃ n, (t.view (entryHead e)).config = some (n, some h)) ∨
        ∃ w, (t.view (entryHead e)).owed = some w ∧ w.2.2.2 = some h)) ∧
    (fld e.bytes 10 1 = 2 → s.attachedBy e (entryHead e) = true → Yields (.detach c h) s fun t =>
      (t.head (entryHead e)).st = .detached ∧ (t.head (entryHead e)).charge = 0 ∧ Finished t h) ∧
    (fld e.bytes 10 1 = 2 → s.attachedBy e (entryHead e) = false → Yields (.detach c h) s fun t =>
      Completes s t h e 0x50 0 0 ∧ t.disp = s.disp) ∧
    (fld e.bytes 10 1 = 3 → s.attachedBy e (entryHead e) = true → Yields (.abortFrame c h) s fun t =>
      (t.head (entryHead e)).waiting = [] ∧ (t.head (entryHead e)).st = .attached ∧ Finished t h ∧
      ((s.head (entryHead e)).cur.isSome = true → (t.head (entryHead e)).gather = none)) ∧
    (fld e.bytes 10 1 = 3 → s.attachedBy e (entryHead e) = false → Yields (.abortFrame c h) s fun t =>
      Completes s t h e 0x50 0 0 ∧ t.disp = s.disp) ∧
    (fld e.bytes 10 1 = 4 → (s.head (entryHead e)).st = .absent → Yields (.readEdid c h) s fun t =>
      Completes s t h e 0x51 0 0 ∧ t.host.tx = s.host.tx) ∧
    (fld e.bytes 10 1 = 4 → (s.head (entryHead e)).st ≠ .absent → s.canRequestFor (s.entryFn e) = true →
      (∀ w ∈ s.host.waiting, w.islet ≠ e.islet ∨ w.fn ≠ s.entryFn e) →
      Yields (.readEdid c h) s fun t => Completes s t h e 0x00 (s.view (entryHead e)).edid.length 0 ∧
        Writes s t (s.entryFn e) e.islet (fld e.bytes 16 8) (s.view (entryHead e)).edid) ∧
    (fld e.bytes 10 1 = 5 → s.attachedBy e (entryHead e) = false → Yields (.selectSource c h) s fun t =>
      Completes s t h e 0x50 0 0 ∧ t.disp = s.disp) ∧
    (fld e.bytes 10 1 = 5 → s.attachedBy e (entryHead e) = true → bit (fld e.bytes 14 2) 0 = false →
      Yields (.selectSource c h) s fun t => Completes s t h e 0x00 0 0 ∧ (t.view (entryHead e)).source = none ∧
        (t.view (entryHead e)).behind = false) ∧
    (∀ i d, fld e.bytes 10 1 = 5 → s.attachedBy e (entryHead e) = true → bit (fld e.bytes 14 2) 0 = true →
      i = toIslet (fld e.bytes 12 2 % 256) → d = s.head (toHead (fld e.bytes 12 2 / 256)) → (s.islet i).st ≠ .free →
      d.st = .attached → d.bcastSrc = true → d.islet = i → (s.islet i).bmask.getLsbD (headSeat (entryHead e)).val = true →
      d.timing.h = (s.head (entryHead e)).timing.h → d.timing.v = (s.head (entryHead e)).timing.v →
      2 * (4 * sliceRows d.timing.v * sliceBytes d.timing.h d.timing.v d.bpp) ≤ (s.view (entryHead e)).storeBytes →
      Yields (.selectSource c h) s fun t => Completes s t h e 0x00 0 0 ∧
        (t.view (entryHead e)).source = some (i, toHead (fld e.bytes 12 2 / 256)) ∧ (t.view (entryHead e)).commitDue = true ∧
        (t.view (entryHead e)).pendingPos = allPositions d.timing.v)) ∧
  (∀ (c : CoreId) (h : Nat) (e : EntrySt) (s : State), s.entryOf c h 0x20 = some e →
    Yields (.displayFrame c h) s fun t => t.entry? h = some { e with started := true } ∧ t.disp = s.disp) ∧
  (∀ (c : CoreId) (i : IsletNo) (q : Fin 512) (v : Cached) (o : HeadNo) (s : State), TakesNext s c i q v →
    fld v.bytes 0 1 = 0x20 → o = unitHead (toSeat (fld v.bytes 8 1)) (toFin 1 (fld v.bytes 9 1)) →
    ((s.head o).st = .attached → (s.head o).islet = i → Yields (.entryTake c i q) s fun t => Opened s t c i q v ∧
      t.head o = { s.head o with
        frameNo := (s.head o).frameNo + 1, waiting := (s.head o).waiting ++ [(s.freshHandle, (s.head o).frameNo + 1)] }) ∧
    (((s.head o).st ≠ .attached ∨ (s.head o).islet ≠ i) → Yields (.entryTake c i q) s fun t =>
      RefusedAtTaking s t c i q v 0x50 ∧ t.head o = s.head o))

/-- A frame on its way: gather, encode, slices, commit, record, mirror (08 R227 to R236; 13 R352). -/
def Obligations.FramesOnTheirWay : Prop :=
  (∀ (c : CoreId) (d : HeadNo) (k : Nat) (no : Half) (rest : List (Nat × Half)) (e : EntrySt) (ch : Fin 16) (s : State),
    s.servingCore (headSeat d) = c → (s.head d).st = .attached → s.paced d = true → (s.head d).waiting = (k, no) :: rest →
    s.entry? k = some e → e.started = true → s.mayEmit e.islet = true → s.readsRefused (s.entryFn e) = false →
    (bit (fld e.bytes 12 1) 0 = true ∨ ((s.head d).refresh = false ∧ fld e.bytes 28 4 ≠ 0)) →
    (List.finRange 16).find? (fun j => (s.gather c j.val).busy.isNone && s.groupOn c j.val) = some ch →
    Yields (.gatherStart c d) s fun t => (t.head d).waiting = rest ∧ (t.head d).cur = some (k, no) ∧ (t.head d).gather = some ch ∧
      (t.gather c ch.val).state = 1 ∧ (t.gather c ch.val).busy = some d ∧ (t.gather c ch.val).fetched = 0) ∧
  (∀ (c : CoreId) (ch : Fin 16) (d : HeadNo) (s : State), (s.gather c ch.val).busy = some d → (s.gather c ch.val).bad = false →
    (∀ r ∈ s.host.reads, r.2.why ≠ .gatherIndex c ch ∧ ∀ p x y n, r.2.why ≠ .gatherLine c ch p x y n) →
    Yields (.gatherDone c ch) s fun t => (t.gather c ch.val).state = 2 ∧ (t.gather c ch.val).busy = none ∧
      (t.head d).gather = none ∧ (t.head d).landed = true) ∧
  (∀ (c : CoreId) (k : Fin 16) (d : HeadNo) (p : Nat) (s : State), s.pipe c k.val = some (d, p) →
    Yields (.sliceEncoded c k) s fun t =>
      tget (t.head d).store p [] = encodeSlice (s.head d).frame (s.head d).timing.h (s.head d).timing.v (s.head d).bpp p ∧
      (t.head d).todo = (s.head d).todo.filter (· != p) ∧ (t.head d).heldOver = (s.head d).heldOver.filter (· != p) ∧
      (t.head d).encoded = (s.head d).encoded + 1) ∧
  (∀ (d o : HeadNo) (p : Nat) (rest : List Nat) (s : State), s.shown o = d →
    ((s.view o).screen = true ∨ (s.head d).refresh = false ∧ (s.view o).owed = none) →
    ((s.view o).screen = true ∨ s.awayView o = false ∨ s.awayReady d p = true) →
    (s.view o).pendingPos = p :: rest → s.slicesWaiting o < 2 → Yields (.sliceHandoff d o) s fun t => (t.view o).pendingPos = rest) ∧
  (∀ (d o : HeadNo) (s : State), s.shown o = d → (s.view o).commitDue = true → (s.view o).pendingPos = [] →
    ((s.view o).screen = true ∨ (s.encoding d = false ∧ (s.head d).refresh = false ∧ (s.view o).owed = none ∧
      (s.awayView o = false ∨ s.copiesOut d = false))) →
    Yields (.commitHandoff d o) s fun t => (t.view o).commitDue = false ∧ (t.view o).lastCommit = (s.head d).newest ∧
      (t.view o).lastCommitUt = s.ut (s.servingCore (headSeat o)) ∧ (t.view o).behind = false) ∧
  (∀ (d : HeadNo) (ut : Nat) (s u : State), u = s.arrive ut → (u.view d).source.isSome = true →
    (u.view d).lastCommitUt + 1000 * ms ≤ u.ut (u.servingCore (headSeat d)) → Yields (.behindTimeout d ut) s fun t =>
      t.view d = { u.view d with behind := true }) ∧
  (∀ (c : CoreId) (d : HeadNo) (k : Nat) (no : Half) (e : EntrySt) (s : State), s.servingCore (headSeat d) = c →
    (s.head d).cur = some (k, no) → (s.head d).landed = true → (s.head d).todo = [] → s.entry? k = some e → e.ended = none →
    Yields (.frameRecord c d) s fun t => Completes s t k e 0x00 (s.head d).tiles (frameDetail no (s.head d) 0) ∧
      (t.head d).cur = none ∧ (t.head d).refresh = ((s.head d).refresh && !bit (fld e.bytes 12 1) 0)) ∧
  (∀ (c : CoreId) (d : HeadNo) (s : State), s.servingCore (headSeat d) = c → s.twinUp = true → (s.head d).st = .attached →
    Yields (.mirrorCopyDone c d) s fun t => (t.head d).mirrored = true ∧ tget t.disp.mirrors d.val [] = (s.head d).frame) ∧
  (∀ (d : HeadNo) (ut : Nat) (s : State), Yields (.mirrorLagTimeout d ut) s fun t => (t.head d).mirrored = false ∧
    ((s.arrive ut).head d).frame = (t.head d).frame)

/-- What a dock reports of its outputs, and the status screen (08 R237 to R241). -/
def Obligations.DockReports : Prop :=
  (∀ (x : Seat) (l : Fin 2) (p0 p1 : W32) (b : List Byte) (s : State), s.dispOpen x = true → bits p0.toNat 11 1 = 0 →
    b.length ≤ 512 → Yields (.monitor x l p0 p1 b) s fun t => (t.view (unitHead x l)).monitor = bit p0.toNat 0 ∧
      (t.view (unitHead x l)).maxClock = bits p0.toNat 31 12 * 1000 ∧ (t.view (unitHead x l)).storeBytes = p1.toNat ∧
      (t.view (unitHead x l)).edid = b ∧ (t.head (unitHead x l)).st ≠ .absent) ∧
  (∀ (x : Seat) (l : Fin 2) (p0 : W32) (n : Half) (k : Nat) (e : EntrySt) (s : State), s.dispOpen x = true →
    bits p0.toNat 31 17 = 0 → (s.view (unitHead x l)).config = some (n, some k) → n.toNat = p0.toNat % 65536 → s.entry? k = some e → e.ended = none →
    (bit p0.toNat 16 = false → Yields (.configDone x l p0) s fun t => (t.view (unitHead x l)).config = none ∧
      Completes s t k e 0x00 0 (s.head (unitHead x l)).charge) ∧
    (bit p0.toNat 16 = true → (s.head (unitHead x l)).st = .attached → Yields (.configDone x l p0) s fun t =>
      (t.head (unitHead x l)).st = .detached ∧ (t.head (unitHead x l)).charge = 0 ∧ Finished t k)) ∧
  (∀ (x : Seat) (l : Fin 2) (p0 p1 : W32) (s : State), s.dispOpen x = true → p0.toNat % 65536 = 0 →
    Yields (.applied x l p0 p1) s fun t => (t.view (unitHead x l)).applied = BitVec.ofNat 16 (p0.toNat / 65536) ∧
      (t.view (unitHead x l)).appliedUt = BitVec.ofNat 64 (extendUt (s.ut (s.servingCore x)) p1.toNat)) ∧
  (∀ (x : Seat) (l : Fin 2) (s : State), s.dispOpen x = true → (s.view (unitHead x l)).screen = false →
    (s.head (s.shown (unitHead x l))).st = .attached → Yields (.storeLost x l) s fun t => (t.view (unitHead x l)).commitDue = true ∧
      (t.view (unitHead x l)).pendingPos = allPositions (s.head (s.shown (unitHead x l))).timing.v) ∧
  (∀ (d : HeadNo) (ut : Nat) (s u : State), u = s.arrive ut → u.mode.mode ≠ .unsupervised → u.showsScreen d = true →
    (u.head d).st ≠ .absent → (u.view d).owed = none →
    ((u.view d).screen = false ∨ (u.view d).screenFacts ≠ u.screenFacts d ∨ (u.view d).screenAt ≠ u.screenTiming d) →
    Yields (.statusScreenRedraw d ut) s fun t => (t.view d).screen = true ∧ (t.view d).commitDue = true ∧
      (t.view d).pendingPos = allPositions (u.screenTiming d).v ∧ (t.view d).screenFacts = u.screenFacts d ∧ (t.view d).screenAt = u.screenTiming d ∧
      (t.view d).screenUt = u.ut (u.servingCore (headSeat d)))

/-- The cell fabric (09 R249 to R258, R262, R263): a cell crosses, a frame lands, groups and minimums are written. -/
def Obligations.FabricCommands : Prop :=
  (∀ (c : CoreId) (i o : Nat) (v : FabPort) (x : StagedCell) (s : State), s.serves c = true → (s.fabCore c).ports = [(i, v)] → (s.fabCore c).kept = [] → i < 64 →
    o < 160 → v.staging = [x] → x.left = [o] → Yields (.cellTime c []) s fun t => (t.fabPort c i).staging = [] ∧
      (t.fabPort c i).acceptPtr = (o + 1) % 160 ∧ (t.fabPort c o).grantPtr = (i + 1) % 160 ∧
      (t.fabCore c).landed = (s.fabCore c).landed ++ (if x.last then [(x.frame, o)] else [])) ∧
  (∀ (c : CoreId) (o : Nat) (v : FabPort) (key n : Nat) (s : State), s.serves c = true → (s.fabCore c).ports = [(o, v)] → (s.fabCore c).kept = [] → 64 ≤ o →
    v.state = .up → v.staging = [] → v.sending = some (key, n + 2) → Yields (.cellTime c []) s fun t =>
      (t.fabPort c o).sending = some (key, n + 1)) ∧
  (∀ (c : CoreId) (p : Fin 160) (k o : Nat) (f : FabFrame) (s : State), s.serves c = true → (s.fabCore c).landed = [(k, o)] →
    tget (s.fabCore c).frames k FabFrame.none_ = f → f.input = p.val → trunkOf o = none → trunkOf f.input = none → 64 ≤ o →
    f.verdict = some true → Yields (.frameVerdict c p) s fun t => (t.fabCore c).landed = [] ∧
      tget (t.fabPort c o).queues f.cls.val [] = tget (s.fabPort c o).queues f.cls.val [] ++ [k]) ∧
  (∀ (c : CoreId) (o : Fin 160) (j : Fin 3) (k : Fin 8) (ut t0 : Nat) (s u : State), u = s.arrive ut →
    ((u.fabCore c).reseqAt (outOfKey o.val j k.val)).since = some t0 → t0 + 10000 ≤ u.ut c →
    Yields (.resequencerTimeout c o j k ut) s fun t =>
      (t.fabCore c).reseqAt (outOfKey o.val j k.val) = (((u.fabCore c).reseqAt (outOfKey o.val j k.val)).giveUp (u.ut c)).2 ∧
      ((t.evtCore c).pend 4).getLsbD 57 = true) ∧
  (∀ (d c : CoreId) (g : Fin 256) (v : W64) (s : State), (s.coreSt d).fenced = false →
    (Yields (.fabMcastWrite (.prog d) c g false v) s fun t => ((t.fabCore c).group g.val).staged = v ∧
      ((t.fabCore c).group g.val).seats = ((s.fabCore c).group g.val).seats) ∧
    (Yields (.fabMcastWrite (.prog d) c g true v) s fun t => ((t.fabCore c).group g.val).seats = ((s.fabCore c).group g.val).staged ∧
      ((t.fabCore c).group g.val).valid = v.getLsbD 31 ∧ ((t.fabCore c).group g.val).causeway = v.getLsbD 30 ∧
      ((t.fabCore c).group g.val).gen = ((s.fabCore c).group g.val).gen + 1)) ∧
  (∀ (c : CoreId) (g : Fin 256) (n : Byte) (s : State), ((s.fabCore c).group g.val).inside = [n] →
    (s.fabCore c).genInside g.val n = false →
    Yields (.generationRetire c g) s fun t => (t.fabCore c).group g.val =
      { (s.fabCore c).group g.val with inside := [], retired := n } ∧ ((t.evtCore c).pend 4).getLsbD 60 = true) ∧
  (∀ (w : Via) (c : CoreId) (p : Fin 160) (v : W64) (s t0 : State), s.viaHeard w = true → s.viaMay w = true → p.val < 154 →
    t0 = s.setFabPort c p.val { s.fabPort c p.val with outMin := v } →
    (t0.outMinSum c + t0.isletMinSum ≤ 524288 → Yields (.fabOutMinWrite w c p v) s fun t => (t.fabPort c p.val).outMin = v ∧
      (t.fabCore c).refused = (s.fabCore c).refused) ∧
    (524288 < t0.outMinSum c + t0.isletMinSum → Yields (.fabOutMinWrite w c p v) s fun t =>
      (t.fabPort c p.val).outMin = (s.fabPort c p.val).outMin ∧ (t.fabCore c).refused = true)) ∧
  (∀ (f : FnId) (c : CoreId) (p : Fin 160) (v : W64) (s : State), s.fnUp f = true → s.mayUnitWide f.port = false →
    Yields (.fabOutMinWrite (.host f) c p v) s fun t => t.fabPort c p.val = s.fabPort c p.val ∧ (t.fabCore c).refused = true)

/-- Gate schedules and the choice of the next frame on a seat's line (10 R267 to R273). -/
def Obligations.SeatGates : Prop :=
  (∀ (w : Via) (x : Seat) (v : W64) (l : List (Nat × BitVec 6)) (s : State) (z : SeatTraf), s.viaHeard w = true → s.viaMay w = true →
    z = (s.settleGate x).seatTraf x → bits v.toNat 19 0 = z.calOff → bits v.toNat 44 32 = z.calLen → bit v.toNat 61 = true →
    z.staged = some l →
    (scheduleShape l = true →
      fitCheck l (max 27 (bits v.toNat 55 48)) (s.fitRate x) (keepClear (z.calOff, z.calLen) (s.seatTime x).dDelay) = true →
      Yields (.gateApply w x v) s fun t => (t.seatTraf x).nextSchedule =
        some ((s.ut (s.servingCore x) / microFrame + 1) * microFrame, l, max 27 (bits v.toNat 55 48))) ∧
    (scheduleShape l = false → Yields (.gateApply w x v) s fun t => (t.seatTraf x).refused = true ∧
      (t.seatTraf x).nextSchedule = z.nextSchedule ∧ (t.seatTraf x).applied = z.applied)) ∧
  (∀ (w : Via) (x : Seat) (v : W64) (s : State) (z : SeatTraf), s.viaHeard w = true → s.viaMay w = true →
    z = (s.settleGate x).seatTraf x → bit v.toNat 61 = false →
    (calOk (bits v.toNat 19 0) (bits v.toNat 44 32) = true → Yields (.gateControlCalWrite w x v) s fun t =>
      (t.seatTraf x).calOff = bits v.toNat 19 0 ∧ (t.seatTraf x).calLen = bits v.toNat 44 32 ∧
      (t.seatTraf x).overhead = BitVec.ofNat 8 (bits v.toNat 55 48)) ∧
    (calOk (bits v.toNat 19 0) (bits v.toNat 44 32) = false → (bits v.toNat 19 0 ≠ z.calOff ∨ bits v.toNat 44 32 ≠ z.calLen) →
      Yields (.gateControlCalWrite w x v) s fun t => t.seatTraf x = { z with refused := true })) ∧
  (∀ (x : Seat) (ut a b : Nat) (o : BitVec 6) (c : Cand) (s u : State), u = (s.arrive ut).settleGate x →
    (u.seatTraf x).inForce.find? (fun e => e.1 == ut % microFrame) = some (a, b, o) → u.ut (u.servingCore x) = ut →
    opens o .usb = true → (u.tun x .usb).headOf .usb = some c → (u.wfq x).usb.tagged = some c.id →
    tagLt (u.wfq x).usb.start (u.wfq x).v = true → Yields (.entryStart x ut) s fun t => (t.wfq x).usb.start = (u.wfq x).v ∧
      (t.wfq x).usb.finish = tagAdd (u.wfq x).v (frameCost c.len (u.overheadOf x) ((u.seatTraf x).weight .usb)) ∧
      (t.wfq x).v = (u.wfq x).v) ∧
  (∀ (x : Seat) (ut : Nat) (f : Cand) (s u z : State), u = s.arrive ut → u.lineReady x = true →
    z = (((u.settleGate x).dropDisowned x).offerKept (u.servingCore x)).dropIso x →
    z.controlHead x (fun f => fitsIn f.len (z.seatTraf x).appliedOverhead (z.rateOf x)
      ((z.seatTraf x).window (u.ut (u.servingCore x)) (z.seatTime x).dDelay).1) = some f → f.resend = none →
    Yields (.lineFreeSelect x ut) s fun t => (t.tun x f.tn).next = (z.tun x f.tn).next + 1 ∧ (t.tun x f.tn).queue = f.rest ∧
      t.link.line.length = u.link.line.length + 1 ∧ (t.link_ x).lastTx = u.ut (u.servingCore x))

/-- The desk network (10 R275 to R284): transmit frames and receive buffers join their seat's as they are taken, a transmit
frame's data is read when its command runs, and a received frame is policed and fills the oldest buffer. -/
def Obligations.NetEntries : Prop :=
  (∀ (c : CoreId) (i : IsletNo) (q : Fin 512) (v : Cached) (x : Seat) (s : State), TakesNext s c i q v →
    x = toSeat (fld v.bytes 8 1) →
    (fld v.bytes 0 1 = 0x30 →
      (s.owner x ≠ i → Yields (.entryTake c i q) s fun t => RefusedAtTaking s t c i q v 0x60 ∧ t.seatNet x = s.seatNet x) ∧
      (s.owner x = i → (s.linkState x = .unenrolled ∨ s.linkState x = .authFailed) → Yields (.entryTake c i q) s fun t =>
        RefusedAtTaking s t c i q v 0x61 ∧ t.seatNet x = s.seatNet x) ∧
      (s.owner x = i → (s.linkState x = .noPartner ∨ s.linkState x = .foreign ∨ s.linkState x = .disabled) →
        Yields (.entryTake c i q) s fun t => RefusedAtTaking s t c i q v 0x03 ∧ t.seatNet x = s.seatNet x) ∧
      (s.owner x = i → s.linkState x ≠ .unenrolled → s.linkState x ≠ .authFailed → s.linkState x ≠ .noPartner →
        s.linkState x ≠ .foreign → s.linkState x ≠ .disabled → Yields (.entryTake c i q) s fun t => Opened s t c i q v ∧
          t.seatNet x = { s.seatNet x with tx := (s.seatNet x).tx ++ [s.freshHandle] })) ∧
    (fld v.bytes 0 1 = 0x31 →
      (s.owner x ≠ i → Yields (.entryTake c i q) s fun t => RefusedAtTaking s t c i q v 0x60 ∧ t.seatNet x = s.seatNet x) ∧
      (s.owner x = i → Yields (.entryTake c i q) s fun t => Opened s t c i q v ∧
        t.seatNet x = { s.seatNet x with rx := (s.seatNet x).rx ++ [s.freshHandle] }))) ∧
  (∀ (c : CoreId) (h : Nat) (e : EntrySt) (s : State), s.entryOf c h 0x30 = some e →
    (s.readsRefused (s.entryFn e) = true → Yields (.netTransmit c h) s fun t => Completes s t h e 0x01 0 0) ∧
    (s.readsRefused (s.entryFn e) = false → (∀ r ∈ s.host.reads, r.1 < s.host.nextRead) → Yields (.netTransmit c h) s fun t =>
      t.entry? h = some { e with started := true } ∧ t.traf.net = s.traf.net ∧
      t.host.reads.map (fun r => (r.2.why, r.2.addr, r.2.len)) =
        s.host.reads.map (fun r => (r.2.why, r.2.addr, r.2.len)) ++ (netSegs e.bytes).map (fun a => (.netTx h, a.1, a.2)))) ∧
  (∀ (c : CoreId) (h : Nat) (e : EntrySt) (s : State), s.entryOf c h 0x31 = some e →
    Yields (.netReceiveBuffer c h) s fun t => t.entry? h = some { e with started := true } ∧ t.traf = s.traf) ∧
  (∀ (x : Seat) (low : W32) (b : List Byte) (ut : Nat) (s u : State), u = s.arrive ut → (u.link_ x).maySend .net = true →
    (((u.seatTraf x).police (u.ut (u.servingCore x)) (frameCharge b.length)).1 = .red → Yields (.netFrameReceive x low b ut) s fun t =>
      t.seatNet x = { u.seatNet x with red := (u.seatNet x).red + 1 } ∧
      (t.demand x).red = satAdd 0xFFFFFFFF (u.demand x).red (frameCharge b.length)) ∧
    (((u.seatTraf x).police (u.ut (u.servingCore x)) (frameCharge b.length)).1 ≠ .red → (u.seatNet x).rx = [] →
      Yields (.netFrameReceive x low b ut) s fun t => t.seatNet x = { u.seatNet x with noBuffer := (u.seatNet x).noBuffer + 1 }) ∧
    (∀ h rest e, ((u.seatTraf x).police (u.ut (u.servingCore x)) (frameCharge b.length)).1 = .green → (u.seatNet x).rx = h :: rest →
      u.entry? h = some e → e.ended = none → b.length ≤ fld e.bytes 12 4 → u.canRequestFor (u.entryFn e) = true →
      (∀ w ∈ u.host.waiting, w.islet ≠ e.islet ∨ w.fn ≠ u.entryFn e) →
      Yields (.netFrameReceive x low b ut) s fun t => Completes u t h e 0x00 b.length low.toNat ∧
        (t.seatNet x).rx = (h :: rest).filter (· != h) ∧
        Writes u t (u.entryFn e) e.islet (fld e.bytes 16 8) b))

/-- Demand records, the policy tick, allotments and bounds (10 R286 to R289). -/
def Obligations.AllotmentsAndPolicy : Prop :=
  (∀ (c : CoreId) (l : List Nat) (x : Seat) (ut : Nat) (s u : State), u = s.arrive ut → u.serves c = true → ut % frameNs = 0 → 0 < ut →
    u.ut c = ut → u.servingCore x = c → (u.demand x).latched = [] → Yields (.demandLatch c l ut) s fun t =>
      t.demand x = { Demand.init with latched := u.demandRecord x ((l[x.val]?).getD 0) (ut / frameNs - 1) } ∧
      (t.seatPower x).meanFrame = (l[x.val]?).getD 0) ∧
  (∀ (ut : Nat) (s u : State), u = s.arrive ut → ut % frameNs = 250000 → u.now = ut → u.mode.mode.isStart = false → u.frozen = false →
    u.serves u.flt.token = true →
    (((u.dispatch u.flt.token).ready.any fun x => x.kind == 5) = false → Yields (.policyTick ut) s fun t =>
      ∃ it ∈ (t.dispatch u.flt.token).ready, it.kind = 5 ∧ it.flow = 0x000700 ∧ it.arg = BitVec.ofNat 64 (ut / frameNs)) ∧
    (((u.dispatch u.flt.token).ready.any fun x => x.kind == 5) = true → Yields (.policyTick ut) s fun t =>
      t.traf.missed = u.traf.missed + 1 ∧ ∀ it ∈ (t.dispatch u.flt.token).ready, it.kind = 5 → it.arg = BitVec.ofNat 64 (ut / frameNs))) ∧
  (∀ (w : Via) (i : IsletNo) (v : W64) (s : State), s.viaHeard w = true → i.val ≠ 0 →
    bits v.toNat 9 0 ≠ bits (s.isletTraf i).share.toNat 9 0 →
    (s.mayAllot w i = true → Yields (.allotmentWrite w (.hostShare i) v) s fun t => (t.isletTraf i).share =
      BitVec.ofNat 64 (putBits (s.isletTraf i).share.toNat 9 0 (min 1023 (clampNat (bits (s.isletTraf i).hostPower.toNat 41 32)
        (bits (s.isletTraf i).hostPower.toNat 57 48) (min 1023 (bits v.toNat 9 0)))))) ∧
    (s.mayAllot w i = false → Yields (.allotmentWrite w (.hostShare i) v) s fun t => (t.isletTraf i).share = (s.isletTraf i).share ∧
      t.traf.control.getLsbD 1 = true)) ∧
  (∀ (c : CoreId) (x : Seat) (v : W64) (s : State), (s.coreSt c).fenced = false →
    bits v.toNat 10 0 ≠ bits (s.seatTraf x).policeC.toNat 10 0 → Yields (.allotmentWrite (.prog c) (.policeCommitted x) v) s fun t =>
      (t.seatTraf x).policeC = BitVec.ofNat 64 (putBits (s.seatTraf x).policeC.toNat 10 0
        (min 2047 (Bounds.clamp (s.boundsOf x IsletTraf.commit) (min 2047 (bits v.toNat 10 0)))))) ∧
  (∀ (f : FnId) (i : IsletNo) (v : W64) (s : State), s.fnUp f = true → i.val ≠ 0 → (s.host.wiring = true ∨ (s.islet i).owner = f.port) →
    (Yields (.boundWrite (.host f) i .rates v) s fun t => (t.isletTraf i).rates = v &&& 0x000007FF07FF07FF ∧
      (t.isletTraf i).weights = (s.isletTraf i).weights) ∧
    (Yields (.boundWrite (.host f) i .weights v) s fun t => (t.isletTraf i).weights = v &&& 0x0000FFFFFFFFFFFF ∧
      (t.isletTraf i).rates = (s.isletTraf i).rates) ∧
    (Yields (.boundWrite (.host f) i .hostPower v) s fun t => (t.isletTraf i).hostPower = v &&& 0x03FF03FF0000FFFF ∧
      (t.isletTraf i).rates = (s.isletTraf i).rates)) ∧
  (∀ (w : Via) (v : W64) (s : State), s.viaHeard w = true → s.viaMay w = true → Yields (.policyControlWrite w v) s fun t =>
    t.traf.control &&& 0x1F01 = v &&& 0x1F01 ∧ t.traf.control.getLsbD 1 = (s.traf.control.getLsbD 1 && !v.getLsbD 1))

/-- Seat ports as power sourcing equipment (11 R297 to R302): detection, powering on, removal, retries, `SEAT_POWER_CONTROL`. -/
def Obligations.SeatPowerCommands : Prop :=
  (∀ (x : Seat) (g : PdSig) (ut : Nat) (s u : State), u = s.arrive ut → u.powerServed = true → u.mayPower x = true →
    (u.seatPower x).st = .detecting → (u.seatPower x).waitUntil ≤ u.now → Yields (.detection x g ut) s fun t =>
      if g.valid = true ∧ g.classReq.val ≠ 0 ∧ (g.pairsetA = true ∨ g.pairsetB = true) then
        (t.seatPower x).st = .classifying ∧ (t.seatPower x).requested = g.classReq.val ∧ (t.seatPower x).dual = g.dual ∧
        (t.seatPower x).sigPairs.getLsbD 0 = g.pairsetA ∧ (t.seatPower x).sigPairs.getLsbD 1 = g.pairsetB
      else (t.seatPower x).st = .detecting ∧ (t.seatPower x).waitUntil = u.now + 500 * ms) ∧
  (∀ (x : Seat) (ut a : Nat) (s u : State), u = s.arrive ut → u.powerServed = true → (∀ b, u.pow.lastOn = some b → b + 10 * ms ≤ u.now) →
    (allSeats.filter fun y => (u.seatPower y).st == .classifying || (u.seatPower y).st == .waiting).find?
      (fun y => u.mayPower y && (u.classFor y).isSome) = some x → u.classFor x = some a →
    Yields (.powerOnExamine ut) s fun t => (t.seatPower x).st = .powered ∧ (t.seatPower x).assigned = a ∧
      (t.seatPower x).poweredUt = u.now ∧ t.pow.lastOn = some u.now) ∧
  (∀ (x : Seat) (ut : Nat) (s u : State), u = s.arrive ut → (u.seatPower x).isPowered = true → Yields (.mpsLost x ut) s fun t =>
    (t.seatPower x).st = .detecting ∧ (t.seatPower x).cause = 5 ∧ (t.seatPower x).assigned = 0 ∧ (t.seatPower x).pairsets = 0) ∧
  (∀ (x : Seat) (ut : Nat) (s u : State), u = s.arrive ut → (u.seatPower x).st = .shed → (u.seatPower x).waitUntil ≤ u.now →
    Yields (.shedEnd x ut) s fun t => t.seatPower x = { u.seatPower x with st := .waiting }) ∧
  (∀ (x : Seat) (ut : Nat) (s u : State), u = s.arrive ut → (u.seatPower x).isPowered = true →
    ((u.seatPower x).retrying = false → (u.seatPower x).retries.toNat < 5 →
      Yields (.pairShort x ut) s (fun t => (t.seatPower x).st = .retryWait ∧ (t.seatPower x).cause = 1 ∧
        (t.seatPower x).retries = (u.seatPower x).retries ∧ (t.seatPower x).waitUntil = u.now + 2000 * ms) ∧
      Yields (.pairOverload x ut) s fun t => (t.seatPower x).st = .retryWait ∧ (t.seatPower x).cause = 2 ∧
        (t.seatPower x).waitUntil = u.now + 2000 * ms) ∧
    ((u.seatPower x).retrying = true → (u.seatPower x).retries.toNat < 4 →
      Yields (.pairShort x ut) s fun t => (t.seatPower x).st = .retryWait ∧
        (t.seatPower x).retries = (u.seatPower x).retries + 1) ∧
    ((u.seatPower x).retrying = true → 4 ≤ (u.seatPower x).retries.toNat →
      Yields (.pairOverload x ut) s fun t => (t.seatPower x).st = .fault ∧ (t.seatPower x).waitUntil = u.now + 60000 * ms)) ∧
  (∀ (x : Seat) (ut : Nat) (s u : State), u = s.arrive ut → ((u.seatPower x).st = .retryWait ∨ (u.seatPower x).st = .fault) →
    (u.seatPower x).waitUntil ≤ u.now → Yields (.faultRetry x ut) s fun t =>
      t.seatPower x = { u.seatPower x with st := .detecting, retrying := true, waitUntil := 0 }) ∧
  (∀ (x : Seat) (ut : Nat) (s u : State), u = s.arrive ut → (u.seatPower x).isPowered = true →
    (u.seatPower x).poweredUt + 60000 * ms ≤ u.now → Yields (.faultRetryCountClear x ut) s fun t =>
      t.seatPower x = { u.seatPower x with retries := 0, retrying := false }) ∧
  (∀ (x : Seat) (a : Bool) (m : Nat) (s : State), (s.seatPower x).isPowered = true → Yields (.openConductorDetected x a m) s fun t =>
    (t.seatPower x).st = (s.seatPower x).st ∧ (t.seatPower x).pairsets = (if a then 1 else 2) ∧
    (t.seatPower x).assigned = min 4 (s.seatPower x).assigned ∧ (t.seatPower x).openDistance.toNat = min 0xFE m) ∧
  (∀ (w : Via) (x : Seat) (s : State), s.viaHeard w = true → s.viaMay w = true → (s.seatPower x).isPowered = true →
    Yields (.cycle w x) s fun t => (t.seatPower x).st = .detecting ∧ (t.seatPower x).cause = 8 ∧
      (t.seatPower x).waitUntil = s.now + 2000 * ms) ∧
  (∀ (w : Via) (x : Seat) (v : W64) (s : State), s.viaHeard w = true → s.viaMay w = true →
    Yields (.seatPowerEnableWrite w x v) s fun t => (t.seatPower x).enable = v.getLsbD 0 ∧ (t.seatPower x).wakeLink = v.getLsbD 2 ∧
      tget t.stored.powerCtl x.val 5 = v &&& 5 ∧
      (v.getLsbD 0 = false → (s.seatPower x).isPowered = true → (t.seatPower x).st = .off ∧ (t.seatPower x).cause = 7) ∧
      (v.getLsbD 0 = true → s.watts x ≠ 0 → (s.seatPower x).st = .off → (t.seatPower x).st = .detecting))

/-- Shedding (11 R301): the port that draws most above its allotment goes first, and ports go until the draw is within the
budget; the hard shed acts only for a supply alone above its rating. -/
def Obligations.Shedding : Prop :=
  (∀ (m : List Nat) (ut : Nat) (s u : State), u = (s.arrive ut).takeMeans m →
    Yields (.softShed m ut) s (fun t => t.totalDraw ≤ 10 * t.pow.budget ∧ t.pow.budget = u.pow.budget ∧
      (∀ x, (u.seatPower x).isPowered = false → t.seatPower x = u.seatPower x) ∧
      (∀ x, (u.seatPower x).isPowered = true → t.seatPower x = u.seatPower x ∨ (t.seatPower x).st = .shed ∧ (t.seatPower x).cause = 3) ∧
      (u.totalDraw ≤ 10 * u.pow.budget → t = u) ∧
      (∀ x, 10 * u.pow.budget < u.totalDraw → u.shedNext = some x → (t.seatPower x).st = .shed ∧
        (t.seatPower x).waitUntil = u.now + 2000 * ms)) ∧
    (u.aloneOver = true → Yields (.hardShed m ut) s fun t => t.totalDraw ≤ 10 * t.pow.budget ∧
      (∀ x, (u.seatPower x).isPowered = true → t.seatPower x = u.seatPower x ∨ (t.seatPower x).st = .shed ∧ (t.seatPower x).cause = 4)) ∧
    (u.aloneOver = false → Yields (.hardShed m ut) s fun t => t = u))

/-- Counter registers (14 R362, R365, R366, R370): selections, values, `COUNTER_CONTROL`, the timed freeze, bandwidth windows. -/
def Obligations.CounterCommands : Prop :=
  (∀ (w : Via) (c : CoreId) (n : Fin 512) (v : W64) (s : State), s.viaHeard w = true → Yields (.counterSelectWrite w c n v) s fun t =>
    ((t.cntCore c).sel n.val = if s.viaMay w = true ∧ selectOk v.toNat = true then
      (v &&& selectMask) ||| ((s.cntCore c).sel n.val &&& (0x8000000000008000#64 &&& ~~~v))
      else (s.cntCore c).sel n.val ||| 0x8000#64) ∧
    ∀ k, k ≠ n.val → (t.cntCore c).sel k = (s.cntCore c).sel k) ∧
  (∀ (w : Via) (c : CoreId) (n : Fin 512) (v : W64) (s : State), s.cntMay w = true → Yields (.counterValueWrite w c n v) s fun t =>
    tget (t.cntCore c).value n.val 0 = v.toNat % 2 ^ 48 ∧
    ∀ k, k ≠ n.val → tget (t.cntCore c).value k 0 = tget (s.cntCore c).value k 0) ∧
  (∀ (w : Via) (c : CoreId) (v : W64) (s : State), s.cntMay w = true →
    ∀ i ∈ [Instr.counterFreeze w c v, .counterSnapshot w c v, .counterClear w c v, .counterWindowSelect w c v], Yields i s fun t =>
      (t.cntCore c).control.getLsbD 0 = v.getLsbD 0 ∧ (t.cntCore c).control.getLsbD 3 = v.getLsbD 3 ∧
      (t.cntCore c).control.getLsbD 4 = v.getLsbD 4 ∧
      (v.getLsbD 1 = true → (t.cntCore c).snap = (s.cntCore c).value ∧ (t.cntCore c).snapUt = BitVec.ofNat 64 (s.ut c)) ∧
      (v.getLsbD 1 = false → (t.cntCore c).snap = (s.cntCore c).snap ∧ (t.cntCore c).snapUt = (s.cntCore c).snapUt) ∧
      (v.getLsbD 2 = true → (t.cntCore c).value = [] ∧ (t.cntCore c).seat = [] ∧ (t.cntCore c).seatOvf = [] ∧
        (t.cntCore c).islet = [] ∧ (t.cntCore c).hist = [] ∧ (t.cntCore c).bwNow = [] ∧ (t.cntCore c).bwPeak = []) ∧
      (v.getLsbD 2 = false → (t.cntCore c).value = (s.cntCore c).value ∧ (t.cntCore c).seat = (s.cntCore c).seat)) ∧
  (∀ (w : Via) (c : CoreId) (v : W64) (s : State), s.cntMay w = true → Yields (.counterFreezeUtWrite w c v) s fun t =>
    t.cntCore c = { s.cntCore c with freezeUt := v }) ∧
  (∀ (c : CoreId) (ut : Nat) (s u : State), u = s.arrive ut → (s.cntCore c).freezeUt ≠ 0 → (s.cntCore c).freezeUt.toNat ≤ u.ut c →
    Yields (.counterFreezeUtFire c ut) s fun t => (t.cntCore c).control = (s.cntCore c).control ||| 1 ∧
      (t.cntCore c).freezeUt = 0 ∧ (t.cntCore c).snap = (s.cntCore c).snap) ∧
  (∀ (c : CoreId) (ut : Nat) (s u : State), u = s.arrive ut → (s.cntCore c).bwOn = true → s.counting c = true →
    (s.cntCore c).freezeUt = 0 → u.bwActive c = true → u.ut c % (s.cntCore c).window = 0 →
    u.ut c / (s.cntCore c).window = (s.cntCore c).bwStart / (s.cntCore c).window + 1 → Yields (.bandwidthWindowEnd c ut) s fun t =>
      (t.cntCore c).bwLast = (s.cntCore c).bwNow ∧ (t.cntCore c).bwNow = [] ∧ (t.cntCore c).bwStart = u.ut c ∧
      ((s.cntCore c).control.getLsbD 3 = (s.cntCore c).win10 →
        (t.cntCore c).bwPeak = peaks (s.cntCore c).bwNow (s.cntCore c).bwPeak ∧ (t.cntCore c).win10 = (s.cntCore c).win10) ∧
      ((s.cntCore c).control.getLsbD 3 ≠ (s.cntCore c).win10 → u.ut c % 10000000 = 0 →
        (t.cntCore c).bwPeak = [] ∧ (t.cntCore c).win10 = (s.cntCore c).control.getLsbD 3))

/-- Supplies (11 R291 to R294; 12 R317, R328): what their inputs, outputs and readings do. -/
def Obligations.SupplyCommands : Prop :=
  (∀ (x : SupplyId) (ut : Nat) (s u : State), u = s.arrive ut →
    ((u.supply x).acOk = true → Yields (.supplyInputLost x ut) s fun t => (t.supply x).acOk = false ∧ (t.supply x).dcOk = false ∧
      (t.supply x).overload = false ∧ (t.supply x).present = (u.supply x).present ∧
      ((u.mode.mode = .unpowered ↔ (t.supply .sa).delivers = false ∧ (t.supply .sb).delivers = false) → (t.supply x).changed = true) ∧
      ((t.supply .sa).delivers = false → (t.supply .sb).delivers = false → t.mode.mode = .unpowered)) ∧
    ((u.supply x).present = true → (u.supply x).acOk = false → Yields (.supplyInputGood x ut) s fun t => (t.supply x).acOk = true ∧
      (t.supply x).dcOk = true ∧ (u.mode.mode = .unpowered → t.mode.mode = .coldStart) ∧
      (u.mode.mode ≠ .unpowered → (t.supply x).changed = true ∧ tget t.mode.timers (CondTimer.key (.supply x)) none = none)) ∧
    ((u.supply x).present = false → Yields (.supplyInserted x ut) s fun t => (t.supply x).present = true ∧
      (t.supply x).acOk = false ∧ (t.supply x).dcOk = false ∧
      ((u.mode.mode = .unpowered ↔ (t.supply .sa).delivers = false ∧ (t.supply .sb).delivers = false) →
        t.supply x = { u.supply x with present := true, acOk := false, dcOk := false, overload := false, vins := [], changed := true })) ∧
    ((u.supply x).present = true → Yields (.supplyWithdrawn x ut) s fun t => (t.supply x).present = false ∧
      (t.supply x).acOk = false ∧ (t.supply x).dcOk = false ∧
      ((u.mode.mode = .unpowered ↔ (t.supply .sa).delivers = false ∧ (t.supply .sb).delivers = false) →
        t.supply x = { u.supply x with present := false, acOk := false, dcOk := false, overload := false, vins := [], changed := true })) ∧
    ((u.supply x).dcOk = true → Yields (.supplyOutputFailed x ut) s fun t => (t.supply x).dcOk = false ∧
      (t.supply x).acOk = (u.supply x).acOk ∧ (t.supply x).overload = false ∧
      ((u.mode.mode = .unpowered ↔ (t.supply .sa).delivers = false ∧ (t.supply .sb).delivers = false) → (t.supply x).changed = true))) ∧
  (∀ s : State, ((s.supply .sa).acOk = true ∨ (s.supply .sb).acOk = true) → Yields .bothFeedsLost s fun t =>
    t.mode.mode = .unpowered ∧ ∀ x, (t.supply x).acOk = false) ∧
  (∀ (va vb pa pb ut : Nat) (s u : State), u = s.arrive ut → u.mode.mode ≠ .unpowered → u.mode.mode ≠ .unsupervised →
    Yields (.supplyPoll va vb pa pb ut) s fun t => t.pow.budget = t.seatBudget ∧
      ((u.supply .sa).present = true → (t.supply .sa).vin = va ∧ (t.supply .sa).pout = pa) ∧
      ((u.supply .sb).present = true → (t.supply .sb).vin = vb ∧ (t.supply .sb).pout = pb) ∧
      ((u.supply .sa).delivers = true → (t.supply .sa).overload = decide (105 * (t.supply .sa).rating < 100 * pa)) ∧
      ((u.supply .sb).delivers = true → (t.supply .sb).overload = decide (105 * (t.supply .sb).rating < 100 * pb)))

/-- Regulators, the reference, fans, temperatures, quads (11 R312, R313; 12 R317; 17 R405). -/
def Obligations.PlantCommands : Prop :=
  (∀ (c : CoreId) (v : Bool) (ut : Nat) (r : RailReq) (s u : State), u = s.arrive ut → (u.powCore c).req v = some r →
    r.sentUt + 200000 ≤ u.ut c →
    (r.second = false → Yields (.pmbusTimeout c v ut) s fun t =>
      (t.powCore c).req v = some { r with second := true, sentUt := u.ut c }) ∧
    (r.second = true → r.raise = false → Yields (.pmbusTimeout c v ut) s fun t => t.mode.reasons.getLsbD 11 = true) ∧
    (r.second = true → r.raise = true → (u.coreSt c).fenced = false → Yields (.pmbusTimeout c v ut) s fun t =>
      (t.coreSt c).hardError = 5)) ∧
  (∀ (c : CoreId) (s : State), (s.powCore c).onCausewayRef = false →
    (s.flt.lanes ≠ 0 → Yields (.referenceLoss c) s fun t => (t.powCore c).onCausewayRef = true ∧ t.mode.reasons.getLsbD 7 = true) ∧
    (s.flt.lanes = 0 → (s.coreSt c).fenced = false → Yields (.referenceLoss c) s fun t => (t.coreSt c).hardError = 6)) ∧
  (∀ (n : Fin 6) (rpm ut : Nat) (s u : State), u = s.arrive ut → Yields (.fanLoss n rpm ut) s fun t =>
    t.fan n = { present := rpm != 0, rpm := rpm } ∧ t.fanBad n = true ∧
    ∀ k, k ≠ n → u.fanBad k = false → (t.fan k).present = true ∧ 8550 ≤ (t.fan k).rpm ∧ (t.fan k).rpm ≤ 10450) ∧
  (∀ (n : Fin 6) (ut : Nat) (s u : State), u = s.arrive ut → Yields (.fanInserted n ut) s fun t => (t.fan n).present = true ∧
    t.fanBad n = false ∧ ∀ k, k ≠ n → t.fan k = u.fan k ∧ t.fanBad k = u.fanBad k) ∧
  (∀ (a b l : Int) (ut : Nat) (s u : State), u = s.arrive ut → Yields (.thermalLimitCrossed a b l ut) s fun t =>
    t.mode.junctionA = a ∧ t.mode.junctionB = b ∧ t.mode.inlet = l ∧
    (100 ≤ a ∨ 100 ≤ b ∨ 40 ≤ l → t.mode.reasons.getLsbD 5 = true ∧ t.mode.causes.getLsbD 5 = true) ∧
    (a < 100 → b < 100 → l < 40 → t.mode.reasons.getLsbD 5 = u.mode.reasons.getLsbD 5 ∧ (u.mode.causes.getLsbD 5 = true →
      t.mode.causes.getLsbD 5 = false ∧ tget t.mode.clearing 5 none = some (u.now + 10000 * ms)))) ∧
  (∀ (q : Fin 16) (ut : Nat) (s : State), Yields (.phyManagementTimeout q ut) s fun t => t.mode.reasons.getLsbD 4 = true ∧
    ∀ x : Seat, x.val / 4 = q.val → (t.link_ x).pcsUp = false ∧ (t.seatPower x).st = .off)

/-- Power domains (11 R304 to R312): transitions, wakes, clock switches, regulators' answers, votes. -/
def Obligations.DomainCommands : Prop :=
  (∀ (c : CoreId) (d : DomainNo) (ut e : Nat) (g : DomState) (s u : State), u = s.arrive ut →
    (u.domain c d.val).going = some (g, e) → e ≤ u.ut c → Yields (.domainTransitionDone c d ut) s fun t =>
      (t.domain c d.val).st = g ∧ (t.domain c d.val).transitions = (u.domain c d.val).transitions + 1 ∧
      (t.domain c d.val).target = (u.domain c d.val).target) ∧
  (∀ (c : CoreId) (d : DomainNo) (ut : Nat) (s u : State), u = s.arrive ut → d.val ≠ 0 →
    ((u.domain c d.val).going = none → (u.domain c d.val).st ≠ .on → u.railLow c d.val = false →
      Yields (.domainWake c d ut) s fun t => t.domain c d.val = { u.domain c d.val with
        going := some (.on, u.ut c + exitTime d.val ((u.domain c d.val).st == .off)) }) ∧
    ((u.domain c d.val).going = none → (u.domain c d.val).st = .on → (u.domain c d.val).target ≠ .on →
      Yields (.domainWake c d ut) s fun t => t.domain c d.val = { u.domain c d.val with holdUntil := some (u.ut c + 100000) }) ∧
    (∀ g e, (u.domain c d.val).going = some (g, e) → g ≠ .on → (u.domain c d.val).wakeLatched = false →
      Yields (.domainWake c d ut) s fun t => (t.domain c d.val).wakeLatched = true ∧ (t.domain c d.val).going = some (g, e) ∧
        ((t.evtCore c).pend 13).getLsbD 61 = true)) ∧
  (∀ (c : CoreId) (d : DomainNo) (ut h : Nat) (g : DomState) (s u w : State), u = s.arrive ut →
    u.votesHeld = true → u.heldHot c d.val = false → (u.domain c d.val).holdUntil = some h → h ≤ u.ut c →
    ¬((2 ≤ d.val ∧ d.val ≤ 5 ∧ u.clusterWork c (d.val - 2) = true) ∨ (6 ≤ d.val ∧ d.val ≤ 9 ∧ u.groupWork c (d.val - 6) = true)) →
    w = u.setDomain c d.val { u.domain c d.val with holdUntil := none } → w.domTarget c d.val = (u.domain c d.val).target →
    (u.domain c d.val).going = none → w.domGoal c d.val (u.domain c d.val).target = (g, 0) → g.rank < (u.domain c d.val).st.rank →
    Yields (.wakeHoldEnd c d ut) s fun t => (t.domain c d.val).holdUntil = none ∧
      (t.domain c d.val).going = some (g, u.ut c + entryTime d.val (g == .off))) ∧
  (∀ (c : CoreId) (d : DomainNo) (s : State), Yields (.clockSwitch c d) s fun t =>
    t.domain c d.val = { s.domain c d.val with oscSince := none }) ∧
  (∀ (c : CoreId) (d : DomainNo) (ut o : Nat) (s u : State), u = s.arrive ut → (u.domain c d.val).oscSince = some o → o + ms ≤ u.ut c →
    Yields (.clockSwitchTimeout c d ut) s fun t => t.domain c d.val = { u.domain c d.val with oscSince := none }) ∧
  (∀ (c : CoreId) (v : Bool) (r : RailReq) (s : State), (s.powCore c).req v = some r → Yields (.pmbusAck c v) s fun t =>
    (if v then (t.powCore c).vdspLow else (t.powCore c).vteLow) = !r.raise ∧
    (r.raise = true ∨ r.waiters = [] → (t.powCore c).req v = none) ∧
    ∀ d ∈ r.waiters, t.railLow c d = false →
      (t.domain c d).going = some (.on, s.ut c + exitTime d ((s.domain c d).st == .off))) ∧
  (∀ (w : Via) (c : CoreId) (d : DomainNo) (v : W64) (s : State), s.viaHeard w = true → Yields (.domainVoteWrite w c d v) s fun t =>
    (t.domain c d.val).target = (if s.votesHeld && !s.heldHot c d.val then t.domTarget c d.val else (s.domain c d.val).target) ∧
    match w with
    | .prog _ => (t.domain c d.val).policy = BitVec.ofNat 2 (bits v.toNat 9 8) ∧
        (t.domain c d.val).managerH0 = (s.domain c d.val).managerH0 ∧ (t.domain c d.val).managerH1 = (s.domain c d.val).managerH1
    | .host ⟨.h0, _⟩ => (t.domain c d.val).managerH0 = BitVec.ofNat 2 (bits v.toNat 3 2) ∧
        (t.domain c d.val).policy = (s.domain c d.val).policy ∧ (t.domain c d.val).managerH1 = (s.domain c d.val).managerH1
    | .host ⟨.h1, _⟩ => (t.domain c d.val).managerH1 = BitVec.ofNat 2 (bits v.toNat 5 4) ∧
        (t.domain c d.val).policy = (s.domain c d.val).policy ∧ (t.domain c d.val).managerH0 = (s.domain c d.val).managerH0)

/-- Heartbeats, hard errors and the fence (13 R340 to R344): a core that fails is fenced, and its twin takes its seats and the token. -/
def Obligations.CoreFaults : Prop :=
  (∀ (c : CoreId) (d p w k : Bool) (ut : Nat) (s u : State), u = s.arrive ut → (u.coreSt c).fenced = false → (u.coreSt c).heldReset = false →
    Yields (.heartbeat c d p w k ut) s fun t => (t.coreSt c).lastBeat = u.ut c ∧
      (t.coreSt c).dataOk = (d && (u.coreSt c).hardError == 0) ∧
      (t.coreSt c).cwZeros = countZeros (u.coreSt c).cwZeros w ∧ (t.coreSt c.twin).aliveTwin = (u.flt.lanes != 0)) ∧
  (∀ (c : CoreId) (ut : Nat) (s u : State), u = s.arrive ut → (u.coreSt c).fenced = false → (u.coreSt c).lastBeat + 200000 ≤ ut →
    Yields (.heartbeatLost c ut) s fun t => (t.coreSt c.twin).aliveTwin = false) ∧
  (∀ (c : CoreId) (code : Byte) (s : State), (s.coreSt c).fenced = false → code ≠ 0 → code.toNat ≤ 7 →
    Yields (.hardError c code) s fun t => (t.coreSt c).hardError = code ∧ (t.coreSt c).dataOk = false ∧
      (s.mode.mode.isResting = true → s.mode.roll = none → s.flt.refereeLost = false → (s.coreSt c.twin).fenced = false →
        (s.coreSt c.twin).failed = false → (s.coreSt c.twin).dataOk = true → (s.coreSt c).failed = false →
        (t.coreSt c).fenced = true ∧ (t.coreSt c).fenceCause = 2 ∧ (t.coreSt c).fenceAsked = some (s.ut c.twin) ∧
        t.flt.token = c.twin ∧ t.flt.adopt = some c ∧ ∀ x, t.servingCore x = c.twin)) ∧
  (∀ (c : CoreId) (ut e : Nat) (s u : State), u = s.arrive ut → (u.coreSt c).fenceAsked = some e → e + 100000 ≤ u.ut c.twin →
    Yields (.fenceConfirmTimeout c ut) s fun t => (t.coreSt c).heldReset = true ∧ (t.coreSt c).fenceAsked = none ∧
      ∀ f : FnId, f.core = c → (t.fnSt f).link = .down)

/-- The hand-over after a failover and the first build of a moved seat (13 R345 to R347; 02 R45). -/
def Obligations.Adoption : Prop :=
  (∀ (c : CoreId) (s : State), s.flt.adopt = some c.twin → s.serves c = true → s.mode.roll = none →
    Yields (.failoverAdoption c) s fun t => t.flt.adopt = none ∧ t.flt.adopted = some c.twin ∧
      (∀ i, (s.islet i).st ≠ .free → (s.islet i).prot = true → (t.islet i).lapsed = true) ∧
      (∀ i, (s.islet i).st ≠ .free → (s.islet i).guarded = false → (s.islet i).queues c.twin + (s.islet i).rings c.twin ≠ 0 →
        (t.islet i).st = .reattach) ∧
      (∀ i, (s.islet i).guarded = true → (t.islet i).st = (s.islet i).st ∧
        (t.islet i).failovers = if (s.islet i).seats &&& s.flt.moved = 0 then (s.islet i).failovers else (s.islet i).failovers + 1)) ∧
  (∀ (x : Seat) (ut : Nat) (s u : State), u = s.arrive ut → tget u.flt.buildFrom x.val 0 ≠ 0 →
    tget u.flt.buildFrom x.val 0 ≤ ut / microFrame → ut % microFrame = 0 → u.flt.adopt = none → (u.link_ x).st = .up →
    (u.link_ x).live = false → (u.tun x .usb).acting = [] →
    (∀ r ∈ u.heldRuns (u.servingCore x), ¬(r.item.kind = 1 ∧ r.item.seat = some x)) → Yields (.failoverFirstBuild x ut) s fun t =>
      tget t.flt.buildFrom x.val 0 = 0 ∧ (t.usbSeat x).lastBuild = ut / microFrame + 2)

/-- Supervisors, the referee, the causeway, memory errors, rolling updates (13 R349 to R355; 12 R331 to R334; 01 R16). -/
def Obligations.RecoveryCommands : Prop :=
  (∀ (c : CoreId) (s : State), (s.coreSt c).sup = .restarting → (s.coreSt c).fenced = false →
    Yields (.supervisorRestartDone c true) s (fun t => (t.coreSt c).sup = .running ∧ (t.coreSt c).supZeros = 0 ∧
      t.mode.mode ≠ .unsupervised) ∧
    Yields (.supervisorRestartDone c false) s fun t => (t.coreSt c).sup = .lost ∧ (t.coreSt c).supRestarts = true) ∧
  (∀ (c : CoreId) (k : Bool) (ut : Nat) (s u : State), u = s.arrive ut → u.flt.refereeLost = false → Yields (.refereeLost c k ut) s fun t =>
    t.flt.refereeLost = true ∧ t.mode.reasons.getLsbD 3 = true ∧ Logged t c 0x40 0 ∧ t.flt.token = u.flt.token) ∧
  (∀ (ut : Nat) (s u : State), u = s.arrive ut → u.flt.refereeLost = true → Yields (.refereeReturned ut) s fun t =>
    t.flt.refereeLost = false ∧ (∀ n, t.sem n = SemSt.init) ∧ Logged t u.flt.token 0x41 0 ∧ t.flt.token = u.flt.token) ∧
  (∀ (n : Fin 16) (s : State), s.flt.lanes.getLsbD n.val = true → Yields (.laneRemoved n) s fun t =>
    t.flt.lanes.getLsbD n.val = false ∧ (∀ m : Fin 16, m ≠ n → t.flt.lanes.getLsbD m.val = s.flt.lanes.getLsbD m.val) ∧
    (t.flt.lanes ≠ 0 → ∀ c, Logged t c 0x30 n.val ∧ ((t.evtCore c).pend ((296 + n.val) / 64)).getLsbD ((296 + n.val) % 64) = true) ∧
    (t.flt.lanes = 0 → ∀ h, (t.head h).mirrored = false)) ∧
  (∀ (n : Fin 16) (s : State), s.flt.lanes.getLsbD n.val = false → Yields (.laneRetrain n true) s fun t =>
    t.flt.lanes.getLsbD n.val = true ∧ (∀ m : Fin 16, m ≠ n → t.flt.lanes.getLsbD m.val = s.flt.lanes.getLsbD m.val) ∧
    ∀ c, (s.flt.lanes ≠ 0 → Logged t c 0x31 n.val) ∧ ((t.evtCore c).pend ((296 + n.val) / 64)).getLsbD ((296 + n.val) % 64) = true) ∧
  (∀ (ut : Nat) (s u : State), u = s.arrive ut → u.causewayUp = true → Yields (.causewayTimeSample ut) s fun t =>
    t.flt.utDiff = (u.now : Int) - u.ut u.flt.token.twin ∧
    t.flt.steerPpm = (if u.now = u.ut u.flt.token.twin then 0 else if u.ut u.flt.token.twin < u.now then 100 else -100) ∧ t.time.rem = 0 ∧
    (∀ c, t.ut c = u.ut c)) ∧
  (∀ (ut : Nat) (s : State), s.flt.steerPpm.natAbs ≤ 100 → s.time.rem < 1000000 → s.now ≤ ut →
    1000000 * ((((s.arrive ut).ut s.flt.token.twin : Int) - s.ut s.flt.token.twin) - (ut - s.now : Nat)).natAbs ≤
      s.time.rem + 100 * (ut - s.now)) ∧
  (∀ (c : CoreId) (n : Nat) (s : State),
    (∀ ch : Fin 6, Yields (.correctableError c (.dram ch) n) s fun t => Logged t c 0x01 ch.val ∧
      ((t.evtCore c).pend 4).getLsbD (34 + ch.val) = true) ∧
    Yields (.correctableError c .outputBuffer n) s fun t => Logged t c 0x10 0 ∧ ((t.evtCore c).pend 4).getLsbD 58 = true) ∧
  (∀ (c : CoreId) (ch : Fin 6) (n : Nat) (s : State),
    (∀ h, (s.head h).st = .attached → Yields (.uncorrectableDramError c (.refFrame h) ch n) s fun t =>
      (t.head h).refresh = true ∧ Logged t c 0x02 h.val) ∧
    (∀ h, Yields (.uncorrectableDramError c (.mirror h) ch n) s fun t => (t.head h).mirrored = false ∧ Logged t c 0x04 h.val) ∧
    (∀ h, (s.head h).st = .attached → Yields (.uncorrectableDramError c (.sliceStore h) ch n) s fun t =>
      (t.head h).store = [] ∧ (t.head h).todo = allPositions (s.head h).timing.v ∧ Logged t c 0x03 h.val) ∧
    (∀ i line, Yields (.uncorrectableDramError c (.isw i line) ch n) s fun t =>
      readBytes (t.isw c i) (64 * line) 64 =
        (if s.protects i = true then readBytes (s.isw c.twin i) (64 * line) 64 else List.replicate 64 0) ∧
      Logged t c (if s.protects i = true then 0x05 else 0x06) i.val) ∧
    ((s.coreSt c).fenced = false → (s.coreSt c).sup = .running → Yields (.uncorrectableDramError c .supervisor ch n) s fun t =>
      (t.coreSt c).sup = if (s.coreSt c).supRestarts = true then .lost else .restarting) ∧
    ((s.coreSt c).fenced = false → Yields (.uncorrectableDramError c .other ch n) s fun t => (t.coreSt c).hardError = 2)) ∧
  (∀ (ok fb : Bool) (r : RollSt) (s : State), s.mode.roll = some r →
    (r.phase = 1 → Yields (.rollingUpdatePhaseDone ok fb) s fun t => t.mode.roll = some { r with phase := 2 }) ∧
    (r.phase = 2 → s.flt.refereeLost = false → Yields (.rollingUpdatePhaseDone ok fb) s fun t => t.mode.roll = some { r with phase := 3 } ∧
      ∀ x, s.servingCore x = r.x → t.servingCore x = r.x.twin) ∧
    (r.phase = 3 → ok = true → Yields (.rollingUpdatePhaseDone ok fb) s fun t => t.mode.roll = some { r with phase := 4 } ∧
      (match r.x with
        | .a => t.mode.runningA
        | .b => t.mode.runningB) = slotOf r.slot) ∧
    (r.phase = 6 → s.flt.refereeLost = false → Yields (.rollingUpdatePhaseDone ok fb) s fun t => t.mode.roll = some { r with phase := 7 } ∧ t.flt.token = r.x) ∧
    ((r.phase = 3 ∨ r.phase = 8) → ok = false → fb = false → Yields (.rollingUpdatePhaseDone ok fb) s fun t =>
      t.mode.roll = none ∧ (t.coreSt (if r.phase = 3 then r.x else r.x.twin)).fenced = true) ∧
    (r.phase = 11 → Yields (.rollingUpdatePhaseDone ok fb) s fun t => t.mode.roll = none ∧ t.mode.bootSlot = r.slot ∧
      t.stored.bootSlot = r.slot))

/-- Starts (12 R319 to R326): what the end of each step leaves, and the watchdog. -/
def Obligations.Starts : Prop :=
  (∀ (r : StepResult) (x : StartSt) (ut : Nat) (s u : State), u = s.arrive ut → u.theStart = some x →
    (x.step = 0 → r.ok = true → Yields (.startStepDone r ut) s fun t =>
      t.mode.start = some { x with step := if x.cold = false ∧ x.image = u.mode.verified then 4 else 1 }) ∧
    (x.step = 1 → r.ok = true → Yields (.startStepDone r ut) s fun t => t.mode.verified = x.image ∧
      t.mode.start = some { x with step := if x.cold then 2 else 4 }) ∧
    (x.step = 1 → r.ok = false → x.image = 2 → Yields (.startStepDone r ut) s fun t => t.mode.mode = .safeStop ∧ t.mode.stopCause = 1) ∧
    (x.step = 1 → r.ok = false → x.image ≠ 2 → u.mode.failCount < 2 → Yields (.startStepDone r ut) s fun t =>
      t.mode.mode = .coldStart ∧ t.mode.failCount = u.mode.failCount + 1 ∧ (t.slot x.image).valid = false) ∧
    (x.step = 1 → r.ok = false → x.image ≠ 2 → 2 ≤ u.mode.failCount → Yields (.startStepDone r ut) s fun t =>
      t.mode.mode = .coldStart ∧ t.mode.goldenHeld = true ∧ ∃ y, t.mode.start = some y ∧ y.image = 2 ∧ y.step = 0) ∧
    ((x.step = 2 ∨ x.step = 3) → u.serves .a = true → u.serves .b = true → r.fenceB = false → Yields (.startStepDone r ut) s fun t =>
      t.mode.start = some { x with step := x.step + 1 } ∧ (t.coreSt .a).fenced = r.fenceA ∧
      (r.fenceA = true → (t.coreSt .a).fenceCause = 4 ∧ t.mode.reasons.getLsbD 6 = true)) ∧
    (x.step = 4 → Yields (.startStepDone r ut) s fun t => t.mode.start = some { x with step := 5 } ∧ t.flt.refereeLost = !r.ok ∧
      (x.cold = true → t.flt.token = if (u.coreSt .a).fenced = true then .b else .a)) ∧
    (x.step = 5 → Yields (.startStepDone r ut) s fun t => t.mode.start = some { x with step := if x.cold then 6 else 8 } ∧
      t.flt.lanes = r.lanes) ∧
    (x.step = 6 → Yields (.startStepDone r ut) s fun t => t.mode.start = some { x with step := 7 } ∧
      ∀ y : Seat, r.phyFail.getLsbD (y.val / 4) = true → (t.seatPower y).st = .off) ∧
    (x.step = 7 → Yields (.startStepDone r ut) s fun t => t.mode.start = some { x with step := 8 }) ∧
    (x.step = 8 → Yields (.startStepDone r ut) s fun t => t.mode.start = some { x with step := 9 }) ∧
    (x.step = 9 → Yields (.startStepDone r ut) s fun t => t.mode.start = none ∧ t.mode.failCount = 0 ∧
      t.mode.mode = if x.recordService = true ∧ u.anyIslet = false then .service else u.resting)) ∧
  (∀ (x : StartSt) (ut : Nat) (s u : State), u = s.arrive ut → u.theStart = some x → x.t0 + 30000 * ms ≤ u.now →
    Yields (.startWatchdog ut) s fun t =>
      if x.image = 2 then t.mode.mode = .safeStop ∧ t.mode.stopCause = 1
      else t.mode.mode = .coldStart ∧ t.mode.failCount = u.mode.failCount + 1)

/-- SAFE STOP, conditions, the service session's end (12 R317, R318, R328, R336). -/
def Obligations.ModeCommands : Prop :=
  (∀ (k : Fin 5) (s : State), k ≠ 0 → s.mode.mode ≠ .safeStop → s.mode.mode ≠ .unpowered → Yields (.safeStop k) s fun t =>
    t.mode.mode = .safeStop ∧ t.mode.prev = s.mode.mode ∧ t.mode.stopCause = BitVec.ofNat 4 k.val ∧ t.mode.stopUt = s.now ∧
    t.mode.start = none ∧ t.mode.roll = none) ∧
  (∀ (ut : Nat) (s u : State), u = s.arrive ut → u.mode.mode = .safeStop → u.mode.stopOff = false →
    u.mode.stopUt + 10000 * ms ≤ u.now → Yields (.safeStopPowerOff ut) s fun t => t.mode.stopOff = true ∧
      (∀ x, (t.seatPower x).st = .off ∧ (t.link_ x).pcsUp = false) ∧
      (u.mode.stopCause = 3 → ∀ d : DomainNo, d.val ≠ 0 → d.val ≠ 1 → ¬(18 ≤ d.val ∧ d.val ≤ 23) → (u.domain u.hotCore d.val).st = .on →
        (t.domain u.hotCore d.val).going = some (.retention, u.ut u.hotCore + entryTime d.val false))) ∧
  (∀ (k : CondTimer) (ut e : Nat) (s u : State), u = s.arrive ut → tget u.mode.timers (CondTimer.key k) none = some e → e ≤ u.now →
    Yields (.conditionTimer k ut) s fun t => match k with
      | .supply _ => t.mode.reasons.getLsbD 1 = true
      | .fan _ => t.mode.reasons.getLsbD 2 = true) ∧
  (∀ (n : Fin 16) (ut e : Nat) (s u : State), u = s.arrive ut → tget u.mode.clearing n.val none = some e → e ≤ u.now →
    Yields (.reasonClear n ut) s fun t => t.mode.reasons.getLsbD n.val = false ∧
      ∀ m : Fin 16, m ≠ n → t.mode.reasons.getLsbD m.val = u.mode.reasons.getLsbD m.val) ∧
  (∀ (ut : Nat) (s u : State), u = s.arrive ut → u.mode.mode = .service → u.mode.lastInput + 1800000 * ms ≤ u.now →
    Yields (.serviceTimeout ut) s fun t => t.mode.mode = u.resting ∧ t.mode.prev = .service)

/-- Register accesses of a host (02 R53; 05 R130; 16 R388 to R392; 13 R343). -/
def Obligations.RegisterAccess : Prop :=
  (∀ (f : FnId) (off : Nat) (data : List Byte) (s : State), s.fnUp f = true → (off % 8 ≠ 0 ∨ (data.length ≠ 4 ∧ data.length ≠ 8)) →
    Yields (.registerWrite f .bar0 off data) s fun t => t = s) ∧
  (∀ (f : FnId) (data : List Byte) (s : State), s.fnUp f = true → s.mayUnitWide f.port = true → (data.length = 4 ∨ data.length = 8) →
    (Yields (.registerWrite f .bar0 0x5018 data) s fun t => t = s.setHost { s.host with budget := BitVec.ofNat 32 (leNat data) }) ∧
    (Yields (.registerWrite f .bar0 0x6008 data) s fun t =>
      t = s.setDispatch f.core { s.dispatch f.core with levels := BitVec.ofNat 18 (leNat data) })) ∧
  (∀ (f : FnId) (data : List Byte) (s : State), s.fnUp f = true → data.length = 8 → Yields (.registerWrite f .bar0 0x3008 data) s fun t =>
    (t.cmdSt f.port .islet).addr = (BitVec.ofNat 64 (leNat data) >>> 6) <<< 6) ∧
  (∀ (f : FnId) (data : List Byte) (s : State), s.fnUp f = true → s.mayUnitWide f.port = false →
    Yields (.registerWrite f .bar0 0x5018 data) s fun t => t.host.budget = s.host.budget) ∧
  (∀ (f : FnId) (off size : Nat) (s : State),
    (s.fnUp f = true → 64 < off % 64 + size → Yields (.registerReadOversized f off size) s fun t =>
      t = s.setHost { s.host with tx := s.host.tx ++ [.completerAbort f] }) ∧
    (s.fencedReads f = true → Yields (.registerReadOversized f off size) s fun t =>
      t = s.setHost { s.host with tx := s.host.tx ++ [.completion f (List.replicate size 0xFF)] }))

/-- Console commands (15 R373 to R375): an accepted command that shows something prints its lines and the prompt. -/
def Obligations.ConsoleShows : Prop :=
  ∀ (p : ConsPort) (s : State),
    (TakesLine s .help → Yields (.help p) s fun t => Says s t helpLines) ∧
    (TakesLine s .status → Yields (.status p) s fun t => Says s t s.statusLines) ∧
    (∀ x, TakesLine s (.seatShow x) → Yields (.seatShow p x) s fun t => Says s t (s.seatLines x) ∧ t.svc.selected = x) ∧
    (TakesLine s .seatList → Yields (.seatList p) s fun t => Says s t (allSeats.map s.seatRow)) ∧
    (TakesLine s .supply → Yields (.supply p) s fun t => Says s t s.supplyLines) ∧
    (TakesLine s .fans → Yields (.fans p) s fun t => Says s t s.fanLines) ∧
    (∀ n, TakesLine s (.log n) → Yields (.log p n) s fun t => Says s t (lastLines (n.getD 20) t.svc.log)) ∧
    (TakesLine s .logPrev → Yields (.logPrev p) s fun t => Says s t s.svc.saved) ∧
    (∀ c, TakesLine s (.errors c) → Yields (.errors p c) s fun t => Says s t (s.errorLines (c.getD s.flt.token))) ∧
    (∀ mV, TakesLine s .tp → Yields (.tp p mV) s fun t => Says s t (s.tpLines mV)) ∧
    (TakesLine s .testList → Yields (.testList p) s fun t => Says s t s.testLines) ∧
    (∀ n, TakesLine s (.meas n) → Yields (.meas p n) s fun t => t.svc.measCode = n ∧
      Says s t [measName n ++ sp ++ volts (s.measValue n) ++ ascii " V"]) ∧
    (TakesLine s .seatContRead → Yields (.seatContRead p) s fun t => Says s t [match s.svc.cont with
      | some k => k.reading.text
      | none => ascii "no test"]) ∧
    (∀ c r, s.consoleLive = true → s.svc.confirm = none → s.mode.mode ≠ .unsupervised → c = ConsCmd.serviceEnd →
      s.consoleRefusal c = some r → Yields (.serviceEnd p) s fun t => Says s t [r] ∧ t.mode.mode = s.mode.mode)

/-- Console commands that act (15 R373 to R375, R379, R381, R387; 12 R326, R328, R334): those that ask first and their
answer, SERVICE, tests, the line editor. -/
def Obligations.ConsoleActs : Prop :=
  (∀ (p : ConsPort) (s : State),
    (∀ i c, (i, c) ∈ [(Instr.consoleWarm p, ConsCmd.warm), (.consoleStop p, .stop), (.consoleCold p none, .cold none),
        (.consoleCold p (some 0), .cold (some 0)), (.consoleCold p (some 1), .cold (some 1))] → TakesLine s c →
      Yields i s fun t => t.svc.confirm = some (p, c, s.now) ∧ t.mode.mode = s.mode.mode ∧
        t.svc.outRj = s.svc.outRj ++ linesText [ascii "confirm? (yes)"]) ∧
    (∀ x, TakesLine s (.seatCycle x) → Yields (.seatCycle p x) s fun t => t.svc.confirm = some (p, .seatCycle x, s.now) ∧
      t.svc.selected = x ∧ t.seatPower x = s.seatPower x) ∧
    (s.startStep = none → TakesLine s .service → Yields (.service p) s fun t => t.mode.mode = .service) ∧
    (∀ x, s.theStart = some x → TakesLine s .service → Yields (.service p) s fun t =>
      t.mode.start = some { x with recordService := true } ∧ t.mode.mode = s.mode.mode) ∧
    (TakesLine s .serviceEnd → s.startStep = none → Yields (.serviceEnd p) s fun t => t.mode.mode = s.resting) ∧
    (s.mode.mode = .unsupervised → s.svc.confirm = none → Yields (.consoleRestart p) s fun t => ∀ c, (s.coreSt c).fenced = false →
      (t.coreSt c).sup = .restarting) ∧
    (∀ x q b, TakesLine s (.seatCont x q b) → s.startStep = none → Yields (.seatCont p x q b) s fun t =>
      t.svc.cont = some { seat := x, pair := q, blink := b, started := s.now, reading := .none } ∧
      (t.seatPower x).st = .test ∧ (t.link_ x).pcsUp = false) ∧
    (∀ k, TakesLine s .seatContOff → s.svc.cont = some k → Yields (.seatContOff p) s fun t => t.svc.cont = none ∧
      (t.seatPower k.seat).st ≠ .test ∧ Says s t [seatText k.seat ++ ascii " test ended"]) ∧
    (∀ x, TakesLine s (.seatTdr x) → Yields (.seatTdr p x) s fun t => t.svc.tdr = some (x, some p) ∧
      (t.seatPower x).st = .test ∧ (t.link_ x).pcsUp = false) ∧
    (∀ n, TakesLine s (.testRun n) → Yields (.testRun p n) s fun t => t.svc.running = some (n, some p) ∧ t.svc.lastVerdict = 1 ∧
      (n = 7 ∨ n = 8 → ∀ x, (t.link_ x).pcsUp = false))) ∧
  (∀ (p : ConsPort) (line : List Byte) (c : ConsCmd) (a : Nat) (s : State), s.consoleLive = true → s.mode.mode ≠ .unsupervised →
    s.svc.confirm = some (p, c, a) → s.now < a + 30000 * ms →
    (lineWords line ≠ [ascii "yes"] → Yields (.confirmReply p line) s fun t => t.svc.confirm = none ∧ t.mode.mode = s.mode.mode ∧
      Says s t [ascii "cancelled"]) ∧
    (lineWords line = [ascii "yes"] → s.consoleRefusal c = none →
      (c = .stop → s.mode.mode ≠ .safeStop → Yields (.confirmReply p line) s fun t => t.mode.mode = .safeStop ∧ t.mode.stopCause = 4) ∧
      (c = .warm → Yields (.confirmReply p line) s fun t => t.mode.mode = .warmStart) ∧
      (∀ n, c = .cold n → Yields (.confirmReply p line) s fun t => t.mode.mode = .coldStart) ∧
      (∀ x, c = .seatCycle x → (s.seatPower x).isPowered = true → Yields (.confirmReply p line) s fun t =>
        (t.seatPower x).st = .detecting ∧ (t.seatPower x).cause = 8))) ∧
  (∀ (q : ConsPort × ConsCmd × Nat) (ut : Nat) (s u : State), u = s.arrive ut → u.svc.confirm = some q → q.2.2 + 30000 * ms ≤ u.now →
    Yields (.confirmTimeout ut) s fun t => t.svc.confirm = none ∧ t.mode.mode = u.mode.mode) ∧
  (∀ (ut : Nat) (s u : State), u = s.arrive ut → u.mode.mode = .unsupervised → u.svc.noticeUt + 10000 * ms ≤ u.now →
    Yields (.unsupervisedNotice ut) s fun t => t.svc.noticeUt = u.now ∧
      t.svc.outRj = u.svc.outRj ++ linesText [ascii "recorder offline: UNSUPERVISED"]) ∧
  (∀ (p : ConsPort) (b : Byte) (s : State), s.consoleLive = true →
    (b ≠ 0x0A → b ≠ 0x0D → b ≠ 0x08 → b ≠ 0x7F → (s.svc.line p).length < 80 → Yields (.consoleRxCharacter p b) s fun t =>
      t.svc.line p = s.svc.line p ++ [b] ∧ (p = .rj45 → t.svc.outRj = s.svc.outRj ++ [b])) ∧
    (b = 0x08 ∨ b = 0x7F → Yields (.consoleRxCharacter p b) s fun t => t.svc.line p = (s.svc.line p).dropLast) ∧
    (b = 0x0A → Yields (.consoleRxCharacter p b) s fun t => t.svc = s.svc)) ∧
  (∀ (p : ConsPort) (w : List Byte) (s : State), s.consoleLive = true → s.svc.confirm = none → s.mode.mode ≠ .unsupervised →
    s.startStep = none → parseLine (s.svc.line p) = some (.inr w) → Yields (.consoleLine p) s fun t => t.svc.line p = [] ∧
      Says s t [ascii "? unknown: " ++ w]) ∧
  (∀ (p : ConsPort) (s z : State), s.consoleLive = true → z = s.setSvc (s.svc.setLine p []) →
    (Yields (.consoleLine p) s fun t => exec (.confirmReply p (s.svc.line p)) z = .next t) ∧
    (s.svc.confirm = none → ∀ c i, parseLine (s.svc.line p) = some (.inl c) → consRow i = some (p, c) →
      Yields (.consoleLine p) s fun t => exec i z = .next t) ∧
    (parseLine (s.svc.line p) = some (.inl .tp) → TakesLine s .tp → Yields (.consoleLine p) s fun t => t.svc.line p = [] ∧
      ∃ v, v.length = 8 ∧ Says s t (s.tpLines v)) ∧
    (parseLine (s.svc.line p) = some (.inl .help) → TakesLine s .help → Yields (.consoleLine p) s fun t => t.svc.line p = [] ∧
      Says s t helpLines))

/-- Seat tests, the meter, self-tests and the front panel (15 R379, R381 to R385, R387). -/
def Obligations.TestsAndPanel : Prop :=
  (∀ (v : Int) (k : ContTest) (ut : Nat) (s u : State), u = s.arrive ut → u.svc.cont = some k → Yields (.continuityMeasure v ut) s fun t =>
    if contRead v = .foreign then t.svc.cont = none else t.svc.cont = some { k with reading := contRead v }) ∧
  (∀ (k : ContTest) (ut : Nat) (s u : State), u = s.arrive ut → u.svc.cont = some k → k.started + 600000 * ms ≤ u.now →
    Yields (.continuityTimeout ut) s fun t => t.svc.cont = none ∧ (t.seatPower k.seat).st ≠ .test) ∧
  (∀ (l : List (Fin 4 × CableResult)) (x : Seat) (p : Option ConsPort) (s : State), s.svc.tdr = some (x, p) →
    Yields (.cableTestDone l) s fun t => t.svc.tdr = none ∧ (t.seatPower x).st ≠ .test ∧
      t.svc.cable = (List.finRange 4).map fun k => (k, cablePair l k)) ∧
  (∀ (ut : Nat) (s u : State), u = s.arrive ut → u.svc.measUt + 100 * ms ≤ u.now → Yields (.measUpdate ut) s fun t =>
    t.svc = { u.svc with measMv := u.measOut, measUt := u.now }) ∧
  (∀ (pass : Bool) (item n : Nat) (p : Option ConsPort) (s : State), s.svc.running = some (n, p) → Yields (.selfTestDone pass item) s fun t =>
    t.svc.running = none ∧ t.svc.lastVerdict = (if pass then 2 else 3) ∧ tget t.svc.verdicts n 0 = (if pass then 2 else 3)) ∧
  (∀ (ut : Nat) (s u : State), u = s.arrive ut → u.panelOn = true →
    (Yields (.selectTap ut) s fun t => t.svc.panel = u.svc.panel.tap u.now) ∧
    (u.svc.panel.item = 6 → u.mode.mode ≠ .unsupervised → Yields (.selectHold ut) s fun t => t.svc.measCode = u.svc.panel.value) ∧
    (u.svc.panel.item = 9 → u.svc.panel.sureUt = none → Yields (.selectHold ut) s fun t =>
      t.svc.panel.sureUt = some (u.now + 5000 * ms) ∧ t.mode.mode = u.mode.mode) ∧
    (∀ e, u.svc.panel.item = 9 → u.svc.panel.sureUt = some e → u.now < e → Yields (.selectHold ut) s fun t => t.mode.mode = .coldStart) ∧
    (u.mode.mode = .service → Yields (.selectLongHold ut) s fun t => t.mode.mode = u.resting)) ∧
  (∀ (ut : Nat) (s u : State), u = s.arrive ut → u.svc.panel.lastPress + 60000 * ms ≤ u.now → Yields (.panelIdle ut) s fun t =>
    t.svc.panel.item = 0 ∧ t.svc.panel.sureUt = none ∧ t.svc.panel.noUt = none ∧ t.svc.selected = u.svc.selected)

/-- The service USB port (15 R377, R378). -/
def Obligations.ServicePort : Prop :=
  ∀ s : State,
    (Yields .vbusPresent s fun t => t.svc.usb.vbus = true ∧ (s.consoleServed = true → t.svc.usb.pullup = true)) ∧
    (Yields .vbusLost s fun t => t.svc.usb.vbus = false ∧ t.svc.usb.pullup = false ∧ t.svc.usb.configured = false ∧ t.svc.usb.inBuf = []) ∧
    (s.svc.usb.pullup = true → Yields .usbBusReset s fun t => t.svc.usb.configured = false ∧ t.svc.usb.dtr = false ∧
      t.svc.usb.inBuf = [] ∧ t.svc.usb.outBuf = [] ∧ t.svc.usb.pullup = true ∧ t.svc.usb.coding = s.svc.usb.coding) ∧
    (s.svc.usb.pullup = true → Yields .usbSuspend s fun t => t.svc.usb = { s.svc.usb with suspended := true }) ∧
    (s.svc.usb.suspended = true → s.consoleServed = true → Yields .usbResume s fun t => t.svc.usb = { s.svc.usb with suspended := false }) ∧
    (s.svc.usb.pullup = true → s.svc.usb.suspended = false →
      (∀ b, Yields (.setLineCoding b true) s fun t => t.svc.usb.coding = some b) ∧
      (Yields .getLineCoding s fun t => t.svc.usb.reply = s.svc.usb.coding.getD coding8n1 ∧ t.svc.usb.coding = s.svc.usb.coding) ∧
      (∀ d, Yields (.setControlLineState d) s fun t => t.svc.usb.dtr = d ∧
        t.svc.usb.notify = (s.svc.usb.notify || (d && !s.svc.usb.dtr))) ∧
      (∀ r, Yields (.classRequestStall r) s fun t => t.svc.usb.stalled = true ∧ t.svc.usb.coding = s.svc.usb.coding) ∧
      (s.svc.usb.configured = true → s.consoleLive = true →
        (∀ b : List Byte, (∀ x ∈ b, x ≠ 0x0A ∧ x ≠ 0x0D ∧ x ≠ 0x08 ∧ x ≠ 0x7F) → (s.svc.line .usbc).length + b.length ≤ 80 →
          Yields (.bulkOutReceive b) s fun t => t.svc.line .usbc = s.svc.line .usbc ++ b ∧ t.svc.usb.outBuf = b) ∧
        Yields .bulkInToken s fun t => t.svc.outUsb = s.svc.outUsb ++ s.svc.usb.inBuf ∧ t.svc.usb.inBuf = []))

/-- Yelcy register instructions (04 R104): the value that each writes to its destination, with control at the next
instruction and nothing else of the TE changed; `bfi` puts the low len bits of the source at pos and keeps the others. -/
def Obligations.YelcyArithmetic : Prop :=
  (∀ (c : CoreId) (n : TeNo) (rd ra rb : Reg) (imm : Half) (sh len : Fin 64) (s : State) (x : TeCtx), TeReady s c n → x = s.teCtx c n →
    ∀ e ∈ [(Instr.add c n rd ra rb, x.get ra + x.get rb), (.sub c n rd ra rb, x.get ra - x.get rb),
      (.and c n rd ra rb, x.get ra &&& x.get rb), (.or c n rd ra rb, x.get ra ||| x.get rb), (.xor c n rd ra rb, x.get ra ^^^ x.get rb),
      (.sll c n rd ra rb, x.get ra <<< ((x.get rb).toNat % 64)), (.srl c n rd ra rb, x.get ra >>> ((x.get rb).toNat % 64)),
      (.sra c n rd ra rb, (x.get ra).sshiftRight ((x.get rb).toNat % 64)),
      (.slt c n rd ra rb, if (x.get ra).toInt < (x.get rb).toInt then 1 else 0),
      (.sltu c n rd ra rb, if (x.get ra).toNat < (x.get rb).toNat then 1 else 0),
      (.mul c n rd ra rb, BitVec.ofNat 64 ((x.get ra).toNat * (x.get rb).toNat)),
      (.mulhu c n rd ra rb, BitVec.ofNat 64 ((x.get ra).toNat * (x.get rb).toNat / 2 ^ 64)),
      (.divu c n rd ra rb, if x.get rb = 0 then BitVec.allOnes 64 else x.get ra / x.get rb),
      (.remu c n rd ra rb, if x.get rb = 0 then x.get ra else x.get ra % x.get rb),
      (.addi c n rd ra imm, x.get ra + imm.signExtend 64), (.andi c n rd ra imm, x.get ra &&& imm.zeroExtend 64),
      (.ori c n rd ra imm, x.get ra ||| imm.zeroExtend 64), (.xori c n rd ra imm, x.get ra ^^^ imm.zeroExtend 64),
      (.slti c n rd ra imm, if (x.get ra).toInt < (imm.signExtend 64).toInt then 1 else 0),
      (.sltiu c n rd ra imm, if (x.get ra).toNat < (imm.signExtend 64).toNat then 1 else 0),
      (.lui c n rd imm, imm.signExtend 64 <<< 16), (.slli c n rd ra sh, x.get ra <<< sh.val), (.srli c n rd ra sh, x.get ra >>> sh.val),
      (.srai c n rd ra sh, (x.get ra).sshiftRight sh.val),
      (.bfx c n rd ra sh len, BitVec.ofNat 64 ((x.get ra).toNat / 2 ^ sh.val % 2 ^ (len.val + 1))),
      (.rdctx c n rd imm, s.itemContext x imm.toNat), (.rdut c n rd, BitVec.ofNat 64 (s.ut c))],
    Yields e.1 s fun t => t.teCtx c n = (x.set rd e.2).after) ∧
  (∀ (c : CoreId) (n : TeNo) (rd ra : Reg) (pos len : Fin 64) (s : State) (x : TeCtx), TeReady s c n → x = s.teCtx c n →
    Yields (.bfi c n rd ra pos len) s fun t => ∃ v : W64, t.teCtx c n = (x.set rd v).after ∧ ∀ k, k < 64 → v.getLsbD k =
      if pos.val ≤ k ∧ k < pos.val + (len.val + 1) then (x.get ra).getLsbD (k - pos.val) else (x.get rd).getLsbD k)

/-- Yelcy loads, stores, `amoadd`, `amoswp`, `fence` (04 R92, R96 to R98, R101, R104, R105): what a load writes, what a store
leaves in memory, where they fault; the old value of an atomic goes to its destination, the new one to memory. -/
def Obligations.YelcyMemory : Prop :=
  (∀ (c : CoreId) (n : TeNo) (rd ra : Reg) (imm : Half) (s : State) (x : TeCtx), TeReady s c n → x = s.teCtx c n →
    (∀ e ∈ [(Instr.ld8 c n rd ra imm, 1), (.ld16 c n rd ra imm, 2), (.ld32 c n rd ra imm, 4), (.ld64 c n rd ra imm, 8)],
      (∀ w, window x.isletLevel false (x.addr ra imm) e.2 = some w → x.addr ra imm % e.2 = 0 →
        (w.waits x.run e.2 = false → Yields e.1 s fun t => t.teCtx c n = (x.set rd (BitVec.ofNat 64 (s.loadAt x w e.2).1)).after) ∧
        (w.waits x.run e.2 = true → Yields e.1 s fun t => t = s)) ∧
      (∀ w, window x.isletLevel false (x.addr ra imm) e.2 = some w → x.addr ra imm % e.2 ≠ 0 →
        Yields e.1 s fun t => t = s.teFault c n 0x03) ∧
      (window x.isletLevel false (x.addr ra imm) e.2 = none → Yields e.1 s fun t => t = s.teFault c n 0x02)) ∧
    (∀ e ∈ [(Instr.st8 c n rd ra imm, 1), (.st16 c n rd ra imm, 2), (.st32 c n rd ra imm, 4), (.st64 c n rd ra imm, 8)],
      (∀ w, window x.isletLevel true (x.addr ra imm) e.2 = some w → x.addr ra imm % e.2 = 0 → w.waits x.run e.2 = false →
        (∀ o, w = .scratch o → Yields e.1 s fun t => t.mem = s.mem ∧
          t.teCtx c n = (({ x with run := { x.run with scratch := (t.teCtx c n).run.scratch } } : TeCtx)).after ∧
          ∀ a, readByte (t.teCtx c n).run.scratch a =
            if o ≤ a ∧ a < o + e.2 then ((leBytes e.2 (x.get rd).toNat)[a - o]?).getD 0 else readByte x.run.scratch a) ∧
        (∀ o, w = .dram o → Yields e.1 s fun t => t.teCtx c n = x.after ∧ t.dram c.twin = s.dram c.twin ∧ t.mem.isw = s.mem.isw ∧
          ∀ a, readByte (t.dram c) a = if o ≤ a ∧ a < o + e.2 then ((leBytes e.2 (x.get rd).toNat)[a - o]?).getD 0 else readByte (s.dram c) a) ∧
        (∀ o, w = .isw o → 0x10000 ≤ o → Yields e.1 s fun t => t.teCtx c n = x.after ∧ t.mem.dram = s.mem.dram ∧
          (∀ a, readByte (t.isw c x.islet) a =
            if o ≤ a ∧ a < o + e.2 then ((leBytes e.2 (x.get rd).toNat)[a - o]?).getD 0 else readByte (s.isw c x.islet) a) ∧
          t.isw c.twin x.islet = s.isw c.twin x.islet ∧
          tget t.mem.unsent (flowKey c x.run.item.flow) [] = tget s.mem.unsent (flowKey c x.run.item.flow) [] ++
            (if s.protects x.islet = true then [(x.islet, o, leBytes e.2 (x.get rd).toNat)] else [])) ∧
        (∀ o, w = .regs o → Yields e.1 s fun t =>
          t = (s.writeReg (.prog c) o e.2 (BitVec.ofNat 64 ((x.get rd).toNat % 2 ^ (8 * e.2)))).retire x)) ∧
      (∀ w, window x.isletLevel true (x.addr ra imm) e.2 = some w → x.addr ra imm % e.2 ≠ 0 →
        Yields e.1 s fun t => t = s.teFault c n 0x03) ∧
      (window x.isletLevel true (x.addr ra imm) e.2 = none → Yields e.1 s fun t => t = s.teFault c n 0x02))) ∧
  ((∀ (c : CoreId) (n : TeNo) (rd ra rb : Reg) (o : Nat) (old : W64) (s : State) (x : TeCtx), TeReady s c n → x = s.teCtx c n →
    (x.get ra).toNat % 8 = 0 →
    (window x.isletLevel true (x.get ra).toNat 8 = some (.dram o) → old = BitVec.ofNat 64 (leNat (readBytes (s.dram c) o 8)) →
      Yields (.amoadd c n rd ra rb) s (fun t => t.teCtx c n = (x.set rd old).after ∧
        readBytes (t.dram c) o 8 = leBytes 8 (old + x.get rb).toNat) ∧
      Yields (.amoswp c n rd ra rb) s fun t => t.teCtx c n = (x.set rd old).after ∧
        readBytes (t.dram c) o 8 = leBytes 8 (x.get rb).toNat) ∧
    (window x.isletLevel true (x.get ra).toNat 8 = some (.isw o) → 0x10000 ≤ o → old = BitVec.ofNat 64 (leNat (readBytes (s.isw c x.islet) o 8)) →
      Yields (.amoadd c n rd ra rb) s (fun t => t.teCtx c n = (x.set rd old).after ∧
        readBytes (t.isw c x.islet) o 8 = leBytes 8 (old + x.get rb).toNat) ∧
      Yields (.amoswp c n rd ra rb) s fun t => t.teCtx c n = (x.set rd old).after ∧
        readBytes (t.isw c x.islet) o 8 = leBytes 8 (x.get rb).toNat)) ∧
  (∀ (c : CoreId) (n : TeNo) (s : State) (x : TeCtx), TeReady s c n → x = s.teCtx c n →
    Yields (.fence c n) s fun t => t.teCtx c n = x.after ∧ t.mem = s.mem))

/-- Host memory of a program (04 R99 to R102): `hld`, `hst`, their completion, `hwait`. -/
def Obligations.YelcyHostMemory : Prop :=
  (∀ (c : CoreId) (n : TeNo) (tk : Tok) (rs rh rl : Reg) (s : State) (x : TeCtx), TeReady s c n → x = s.teCtx c n →
    (hostFault x tk rs rl = none →
      (Yields (.hld c n tk rs rh rl) s fun t => t.teCtx c n = (x.setTok tk (if x.get rl = 0 then .done false
        else if s.readsRefused (s.itemFn c x.run.item) then .done true
        else .flight false (x.get rs).toNat (x.get rl).toNat (x.get rh).toNat)).after) ∧
      (x.get rl ≠ 0 → s.readsRefused (s.itemFn c x.run.item) = false → (∀ r ∈ s.host.reqs, r.1 < s.host.nextRead) →
        Yields (.hld c n tk rs rh rl) s fun t =>
          t.host.reqs.map (fun r => (r.2.why, r.2.off, r.2.len)) = s.host.reqs.map (fun r => (r.2.why, r.2.off, r.2.len)) ++
            (chunks (s.fnSt (s.itemFn c x.run.item)).maxRead (x.get rh).toNat (x.get rl).toNat).map
              (fun e => (.token c n x.run.slot tk, e.1, e.2))) ∧
      (x.get rl ≠ 0 → Yields (.hst c n tk rs rh rl) s fun t =>
        t.host = (s.writeHost (s.itemFn c x.run.item) x.islet (x.get rh).toNat (readBytes x.run.scratch (x.get rs).toNat (x.get rl).toNat)).2.host ∧
        t.teCtx c n = (x.setTok tk (if (s.writeHost (s.itemFn c x.run.item) x.islet (x.get rh).toNat
            (readBytes x.run.scratch (x.get rs).toNat (x.get rl).toNat)).1 then
          .flight true (x.get rs).toNat (x.get rl).toNat (x.get rh).toNat else .done true)).after) ∧
      (x.get rl = 0 → Yields (.hst c n tk rs rh rl) s fun t => t.teCtx c n = (x.setTok tk (.done false)).after)) ∧
    (∀ k, hostFault x tk rs rl = some k → Yields (.hld c n tk rs rh rl) s (fun t => t = s.teFault c n k) ∧
      Yields (.hst c n tk rs rh rl) s fun t => t = s.teFault c n k)) ∧
  (∀ (c : CoreId) (n : TeNo) (sl : Fin 2) (tk : Tok) (r : Run) (b : List Byte) (st : Bool) (a len h : Nat) (s : State),
    (s.teSt c n).cur = some r → r.slot = sl → r.toks[tk] = .flight st a len h → s.tokenWaits c n sl tk r = false →
    Yields (.hostTokenComplete c n sl tk (some b)) s (fun t => ∃ q, (t.teSt c n).cur = some q ∧ q.toks = r.toks.set tk.val (.done false) ∧
      q.scratch = (if st then r.scratch else writeBytes r.scratch a (slice b 0 len)) ∧ q.regs = r.regs ∧ q.pc = r.pc) ∧
    Yields (.hostTokenComplete c n sl tk none) s fun t => ∃ q, (t.teSt c n).cur = some q ∧ q.toks = r.toks.set tk.val (.done true) ∧
      q.scratch = r.scratch ∧ q.regs = r.regs ∧ q.pc = r.pc) ∧
  (∀ (c : CoreId) (n : TeNo) (rd : Reg) (tk : Tok) (s : State) (x : TeCtx), TeReady s c n → x = s.teCtx c n →
    Yields (.hwait c n rd tk) s fun t => match x.run.toks[tk] with
      | .flight _ _ _ _ => t = s
      | .idle => t.teCtx c n = (x.set rd 0).after
      | .done st => t.teCtx c n = (x.set rd (if st then 1 else 0)).after)

/-- Yelcy control flow (04 R103, R107, R108): branches, jumps, calls, loops. At the end of a loop body a pass that is not the
last returns to the body's first instruction; the last leaves it. -/
def Obligations.YelcyControlFlow : Prop :=
  (∀ (c : CoreId) (n : TeNo) (s : State) (x : TeCtx), TeReady s c n → x = s.teCtx c n →
    (∀ (ra rb : Reg) (off : Half), ∀ e ∈ [(Instr.beq c n ra rb off, decide (x.get ra = x.get rb)),
        (.bne c n ra rb off, decide (x.get ra ≠ x.get rb)), (.blt c n ra rb off, decide ((x.get ra).toInt < (x.get rb).toInt)),
        (.bge c n ra rb off, decide ((x.get rb).toInt ≤ (x.get ra).toInt)),
        (.bltu c n ra rb off, decide ((x.get ra).toNat < (x.get rb).toNat)),
        (.bgeu c n ra rb off, decide ((x.get rb).toNat ≤ (x.get ra).toNat))],
      Yields e.1 s fun t => t.teCtx c n =
        (if e.2 then ({ x with next := (BitVec.ofNat 64 (x.pc + 4) + off.signExtend 64 * 4).toNat } : TeCtx) else x).after) ∧
    (∀ off : BitVec 26,
      (Yields (.jmp c n off) s fun t => t.teCtx c n =
        ({ x with next := (BitVec.ofNat 64 (x.pc + 4) + off.signExtend 64 * 4).toNat } : TeCtx).after) ∧
      Yields (.call c n off) s fun t => t.teCtx c n =
        ({ x with next := (BitVec.ofNat 64 (x.pc + 4) + off.signExtend 64 * 4).toNat,
                  run := { x.run with rets := ((x.pc + 4) :: x.run.rets).take 8 } } : TeCtx).after) ∧
    (∀ a r, x.run.rets = a :: r → Yields (.ret c n) s fun t =>
      t.teCtx c n = ({ x with next := a % 2 ^ 64, run := { x.run with rets := r } } : TeCtx).after) ∧
    (∀ (rc : Reg) (bound : BitVec 12) (len : BitVec 9) (k : Nat),
      k = (if rc.val = 0 then bound.toNat else min (x.get rc).toNat bound.toNat) →
      (k = 0 → Yields (.loop c n rc bound len) s fun t => t.teCtx c n = ({ x with next := (x.pc + 4 + 4 * len.toNat) % 2 ^ 64 } : TeCtx).after) ∧
      (k ≠ 0 → len ≠ 0 → Yields (.loop c n rc bound len) s fun t => t.teCtx c n = ({ x with run := { x.run with loops :=
        ({ start := x.pc + 4, len := len.toNat, left := k, idx := 0, depth := x.run.rets.length } :: x.run.loops).take 4 } } : TeCtx).after)) ∧
    (∀ f r, x.run.loops = f :: r →
      (Yields (.lbrk c n) s fun t => t.teCtx c n = ({ x with next := (f.start + 4 * f.len) % 2 ^ 64, run := { x.run with loops := r } } : TeCtx).after) ∧
      ∀ rd, Yields (.lidx c n rd) s fun t => t.teCtx c n = (x.set rd (BitVec.ofNat 64 f.idx)).after) ∧
    (x.run.rets = [] → Yields (.ret c n) s fun t => t.teCtx c n = x.after) ∧
    (x.run.loops = [] → (Yields (.lbrk c n) s fun t => t.teCtx c n = x.after) ∧
      ∀ rd, Yields (.lidx c n rd) s fun t => ∃ k, t.teCtx c n = (x.set rd (Config.freeWord k)).after)) ∧
  (∀ (x : TeCtx) (f : LoopFrame) (r : List LoopFrame), x.run.loops = f :: r → f.depth = x.run.rets.length → x.next = f.start + 4 * f.len →
    (1 < f.left → x.settle.next = f.start ∧ x.settle.run.loops = { f with left := f.left - 1, idx := f.idx + 1 } :: r) ∧
    (f.left ≤ 1 → r = [] → x.settle.next = x.next ∧ x.settle.run.loops = []))

/-- Script, budget, `tick`, `done` (04 R96, R101, R109, R110). -/
def Obligations.YelcyScripts : Prop :=
  ∀ (c : CoreId) (n : TeNo) (s : State) (x : TeCtx), TeReady s c n → x = s.teCtx c n →
    (∀ (rd ra rb : Reg) (k : Script), x.script = some k →
      (s.recordLimit x.run.item.seat ≤ k.recs.length → Yields (.emit c n rd ra rb) s fun t =>
        t.teCtx c n = (x.set rd (BitVec.allOnes 64)).after) ∧
      (k.recs.length < s.recordLimit x.run.item.seat → Yields (.emit c n rd ra rb) s fun t => t.teCtx c n =
        (({ x with run := { x.run with script := some { k with recs := k.recs ++ [leBytes 8 (x.get ra).toNat ++ leBytes 8 (x.get rb).toNat] } } } :
          TeCtx).set rd (BitVec.ofNat 64 (k.recs.length + 1))).after) ∧
      ((x.get ra).toNat ≤ k.budget → Yields (.budg c n rd ra) s fun t => t.teCtx c n =
        (({ x with run := { x.run with script := some { k with budget := k.budget - (x.get ra).toNat } } } :
          TeCtx).set rd (BitVec.ofNat 64 (k.budget - (x.get ra).toNat))).after) ∧
      (k.budget < (x.get ra).toNat → Yields (.budg c n rd ra) s fun t => t.teCtx c n =
        (x.set rd (BitVec.ofNat 64 (k.budget + 2 ^ 63))).after)) ∧
    (∀ rd ra rb, x.script = none → Yields (.emit c n rd ra rb) s (fun t => t = s.teFault c n 0x06) ∧
      Yields (.budg c n rd ra) s fun t => t = s.teFault c n 0x06) ∧
    (x.handler = false → x.run.inFlight = false →
      (∀ rd k a, x.script = some k → x.run.item.seat = some a → Yields (.tick c n rd) s fun t => ∃ q,
        (t.dispatch c).suspended = (s.dispatch c).suspended ++ [(q, teCluster n)] ∧ q.pc = x.settle.next ∧ q.tickRd = rd ∧
        q.item = x.run.item ∧ q.startUt = (s.ut c / microFrame + 1) * microFrame) ∧
      ((s.teSt c n).staged = none → Yields (.done c n) s fun t => (t.teSt c n).cur = none ∧
        tget (t.dispatch c).lastTe x.run.item.flow.toNat 32 = n.val ∧ tget t.mem.unsent (flowKey c x.run.item.flow) [] = [])) ∧
    (x.handler = false → x.run.inFlight = true → Yields (.done c n) s fun t => t = s)

/-- Completions, frames, vectors, items (04 R111 to R114). -/
def Obligations.YelcyOutputs : Prop :=
  ∀ (c : CoreId) (n : TeNo) (s : State) (x : TeCtx), TeReady s c n → x = s.teCtx c n →
    (∀ (ra rb : Reg) (h : Nat) (e : EntrySt) (b : List Byte), (x.get ra).toNat + 32 ≤ 0x10000 → (x.get ra).toNat % 32 = 0 →
      x.run.covered (x.get ra).toNat 32 = false → s.handleOf x.islet (x.get rb) = some h → s.entry? h = some e →
      b = readBytes x.run.scratch (x.get ra).toNat 32 → statusWritten (fld b 7 1) = true → Yields (.postc c n ra rb) s fun t =>
        t.teCtx c n = x.after ∧ Completes s t h e (fld b 7 1) (fld b 12 4) (fld b 16 8)) ∧
    (∀ ra rb, (x.get ra).toNat + 32 ≤ 0x10000 → (x.get ra).toNat % 32 = 0 → x.run.covered (x.get ra).toNat 32 = false →
      s.handleOf x.islet (x.get rb) = none → Yields (.postc c n ra rb) s fun t => t = s.teFault c n 0x04) ∧
    (∀ (rd ra rb : Reg) (a : Seat) (u : Tunnel) (k : Fin 8), x.get rb ≠ 0 → (x.get rb).toNat ≤ 9196 →
      (x.get ra).toNat + 8 + (x.get rb).toNat ≤ 0x10000 → x.run.covered (x.get ra).toNat (8 + (x.get rb).toNat) = false →
      s.sendTarget x (readBytes x.run.scratch (x.get ra).toNat 8) = some (a, u, k) → Yields (.send c n rd ra rb) s fun t =>
        match s.sendFrame x a u k (readBytes x.run.scratch ((x.get ra).toNat + 8) (x.get rb).toNat) with
        | (true, _) => t.teCtx c n = (x.set rd 0).after ∧ (t.tun a u).queue.length = (s.tun a u).queue.length + 1
        | (false, _) => t.teCtx c n = (x.set rd 1).after ∧ t.tun a u = s.tun a u) ∧
    (∀ ra, ¬((x.isletLevel = true ∨ x.islet.val = 0) ∧ (s.islet x.islet).vectors ≤ (x.get ra).toNat) →
      (s.islet x.islet).vbase + (x.get ra).toNat < 2048 → Yields (.evt c n ra) s fun t => t.teCtx c n = x.after ∧
        t.host = (s.msixFor (s.itemFn c x.run.item) ((s.islet x.islet).vbase + (x.get ra).toNat)).host) ∧
    (∀ (rd ra rb : Reg) (i : IsletNo) (f : BitVec 24) (l : Fin 8), qitemTarget x (x.get ra).toNat = some (i, f, l) →
      ((s.dispatch c).holdBack = true → Yields (.qitem c n rd ra rb) s fun t => t.teCtx c n = (x.set rd 1).after ∧
        (t.dispatch c).ready = (s.dispatch c).ready) ∧
      ((s.dispatch c).holdBack = false → Yields (.qitem c n rd ra rb) s fun t => t.teCtx c n = (x.set rd 0).after ∧
        ∃ v ∈ (t.dispatch c).ready, v.kind = 6 ∧ v.flow = f ∧ v.islet = i ∧ v.level = l ∧ v.arg = x.get rb))

/-- CSRs and events (04 R117; 05 R139, R140). -/
def Obligations.YelcyEvents : Prop :=
  (∀ (c : CoreId) (n : TeNo) (s : State) (x : TeCtx), TeReady s c n → x = s.teCtx c n →
    (x.isletLevel = false →
      (∀ rd (k : Half) v, (s.teSt c n).csr k.toNat = some v → Yields (.csrr c n rd k) s fun t => t.teCtx c n = (x.set rd v).after) ∧
      (∀ ra, Yields (.csrw c n ra 0) s fun t => t.teCtx c n = x.after ∧ (t.teSt c n).epc = x.get ra) ∧
      (∀ ra (k : Half), (k = 1 ∨ k = 2) → Yields (.csrw c n ra k) s fun t => t.teCtx c n = x.after ∧
        (t.teSt c n).ecause = (s.teSt c n).ecause ∧ (t.teSt c n).estate = (s.teSt c n).estate ∧ (t.teSt c n).epc = (s.teSt c n).epc) ∧
      (x.handler = true → Yields (.eret c n) s fun t => (t.teSt c n).inHandler = false ∧
        (t.teSt c n).cur = (s.teSt c n).cur.map fun r => { r with pc := (s.teSt c n).epc.toNat }) ∧
      (((s.evtCore c).presented n.val).isSome = true → Yields (.wfi c n) s fun t => t.teCtx c n = x.after) ∧
      ((s.evtCore c).presented n.val = none → Yields (.wfi c n) s fun t => t = s.setTeSt c n { s.teSt c n with waiting := true })) ∧
    (x.isletLevel = true → ∀ rd (k : Half), Yields (.csrr c n rd k) s (fun t => t = s.teFault c n 0x09) ∧
      Yields (.csrw c n rd k) s fun t => t = s.teFault c n 0x09)) ∧
  (∀ (c : CoreId) (n : TeNo) (pr k : Nat) (s : State), s.teTakes c n = true → (s.evtCore c).presented n.val = some (pr, k) →
    (s.teSt c n).waiting = false → Yields (.eventEntry c ⟨n.val, by omega⟩) s fun t => (t.teSt c n).inHandler = true ∧
      (t.teSt c n).ecause = BitVec.ofNat 64 k ∧ (t.teSt c n).hpc = (tget (s.evtCore c).base n.val 0).toNat + 32 * k ∧
      t.evtCore c = (s.evtCore c).deliver n.val k ∧ (t.teSt c n).cur = (s.teSt c n).cur ∧
      ∀ r, (s.teSt c n).cur = some r → (t.teSt c n).epc = BitVec.ofNat 64 r.pc) ∧
  (∀ (c : CoreId) (pr k : Nat) (s : State), (s.coreSt c).sup = .running → (s.domain c 1).st = .on →
    (s.evtCore c).presented 32 = some (pr, k) → Yields (.eventEntry c 32) s fun t =>
      t.evtCore c = { (s.evtCore c).deliver 32 k with supVector := (tget (s.evtCore c).base 32 0).toNat + 32 * k } ∧ t.te = s.te)

/-- The general registers (04 R90): g0 reads 0 and takes no write; a write changes the register that it names and no other;
in a handler g24 to g31 are the handler's bank and the item's stay. -/
def Obligations.YelcyRegisters : Prop :=
  ∀ (x : TeCtx) (r q : Reg) (v : W64),
    x.get 0 = 0 ∧ (r.val = 0 → x.set r v = x) ∧ (r.val ≠ 0 → (x.set r v).get r = v) ∧ (q ≠ r → (x.set r v).get q = x.get q) ∧
    (x.handler = true → 24 ≤ r.val → (x.set r v).run = x.run)

/-- Yelcy encodings (04 R103, R104, R119 rule 0x01): the verifier takes a word for an instruction exactly when it is the
word of one, and instructions of one TE that differ have different words, so no bit of an operand is dropped. Last, words
written out from the manual. -/
def Obligations.YelcyEncodings : Prop :=
  ((∀ w : W32, vDecode w ≠ .bad ↔ ∃ i : Instr, i.word = some w) ∧
  (∀ (i j : Instr) (w : W32), i.word = some w → j.word = some w → i.onTe = j.onTe → i = j) ∧
  (∀ (i : Instr) (w : W32), i.word = some w → match i with
    | .beq _ _ _ _ off | .bne _ _ _ _ off | .blt _ _ _ _ off | .bge _ _ _ _ off | .bltu _ _ _ _ off | .bgeu _ _ _ _ off =>
      vDecode w = .branch off.toInt
    | .jmp _ _ off => vDecode w = .jump off.toInt
    | .call _ _ off => vDecode w = .call off.toInt
    | .loop _ _ rc bound len => vDecode w = .loop bound.toNat len.toNat (decide (rc.val = 0))
    | .ret _ _ => vDecode w = .ret
    | .lbrk _ _ => vDecode w = .lbrk
    | .tick _ _ _ => vDecode w = .tick
    | .done _ _ => vDecode w = .done
    | .eret _ _ => vDecode w = .eret
    | .csrr _ _ _ _ | .csrw _ _ _ _ | .wfi _ _ => vDecode w = .unitOnly
    | _ => True)) ∧
  ((Instr.addi .a 0 5 3 0xFFF8).word = some 0x04A3FFF8 ∧ (Instr.loop .a 0 9 64 12).word = some 0xB120C040 ∧
  (Instr.addi .a 0 0 0 0).word = some 0x04000000 ∧ vDecode 0x04A3FFF8 = .plain ∧ vDecode 0xB120C040 = .loop 64 12 false ∧
  vDecode 0xDC000000 = .done ∧ vDecode 0xDC000001 = .bad ∧ vDecode 0x0000000E = .bad ∧ vDecode 0x2C000000 = .bad)

/-- A program's instruction on a TE that may not run it (04 R115; 05 R139): with no item, no handler or no clock it has no
effect; past the item's budget it faults with `BUDGET`, and a fault takes the item off its TE. -/
def Obligations.YelcyBudgetAndFaults : Prop :=
  (∀ (i : Instr) (c : CoreId) (n : TeNo) (s : State), i.onTe = some (c, n) →
    (s.teRuns c n = false → i ≠ .wfi c n → exec i s = .next s) ∧
    (s.teRuns c n = true → s.overBudget (s.teCtx c n) = true → exec i s = .next (s.teFault c n 0x01))) ∧
  (∀ (c : CoreId) (n : TeNo) (k : Nat) (s : State), (s.teSt c n).staged = none →
    ((s.teSt c n).cur.isSome = true → ((s.teFault c n k).teSt c n).cur = none) ∧ ((s.teFault c n k).teSt c n).inHandler = false)

/-- `CQ_CONSUMER` (03 R78): with c = (new − C) mod 2^16, more than the occupied count is ignored and sets `CONSUMER_ERROR`, 0 has
no effect, else c places are freed. -/
def Obligations.ConsumerIndex : Prop :=
  ∀ (f : FnId) (i : IsletNo) (r : Fin 256) (v : W64) (s : State) (x : RingSt), s.fnUp f = true → (s.islet i).boundVia f = true →
    s.runs f.core = f.core → (v.getLsbD 24 = true ↔ f.core = .b) → r.val < (s.islet i).rings f.core → x = s.ring f.core i r.val →
    ((x.p - x.c).toNat < (BitVec.ofNat 16 v.toNat - x.c).toNat → Yields (.cqConsumerWrite f i r v) s fun t =>
      t.ring f.core i r.val = { x with errIw := true }) ∧
    (BitVec.ofNat 16 v.toNat - x.c = 0 → Yields (.cqConsumerWrite f i r v) s fun t =>
      t.ring f.core i r.val = { x with errIw := x.errIw && !v.getLsbD 16 } ∧ t.wq.entries = s.wq.entries ∧ t.host = s.host) ∧
    (BitVec.ofNat 16 v.toNat - x.c ≠ 0 → (BitVec.ofNat 16 v.toNat - x.c).toNat ≤ (x.p - x.c).toNat →
      Yields (.cqConsumerWrite f i r v) s fun t => (t.ring f.core i r.val).c = x.c + (BitVec.ofNat 16 v.toNat - x.c))

/-- `hld` and `hst` (04 R100): lengths 0 to 4,096; a length of 0 issues nothing and completes the token with status 0; a longer
one, or a range that leaves the item frame and work area, raises `LENGTH`; a token in flight raises `TOKEN`. Items of islet 0
have no host window (04 R99). -/
def Obligations.YelcyHostLengths : Prop :=
  ∀ (c : CoreId) (n : TeNo) (tk : Tok) (rs rh rl : Reg) (s : State) (x : TeCtx), TeReady s c n → x = s.teCtx c n → x.islet.val ≠ 0 →
    ∀ i ∈ [Instr.hld c n tk rs rh rl, .hst c n tk rs rh rl],
      (4096 < (x.get rl).toNat ∨ (x.get rl ≠ 0 ∧ 0x10000 < (x.get rs).toNat + (x.get rl).toNat) → Yields i s fun t => t = s.teFault c n 0x08) ∧
      ((x.get rl).toNat ≤ 4096 → (x.get rl = 0 ∨ (x.get rs).toNat + (x.get rl).toNat ≤ 0x10000) →
        ((x.run.toks[tk]).inFlight = true → Yields i s fun t => t = s.teFault c n 0x07) ∧
        ((x.run.toks[tk]).inFlight = false → Yields i s fun t => (x.get rl = 0 →
          t.teCtx c n = (x.setTok tk (.done false)).after ∧ t.host = s.host) ∧
          (x.get rl ≠ 0 → ((t.teCtx c n).run.toks[tk]).inFlight = true ∨ (t.teCtx c n).run.toks[tk] = .done true)))

/-- Tokens (04 R101): `hwait` stalls until the token completes and then reads 0 for success, 1 for a failed request, 0 for a token
never used; loads, stores, `postc` and `send` that touch a covered scratch byte stall; `tick` and `done` wait for every token. -/
def Obligations.YelcyTokens : Prop :=
  (∀ (c : CoreId) (n : TeNo) (rd : Reg) (tk : Tok) (s : State) (x : TeCtx), TeReady s c n → x = s.teCtx c n →
    (∀ st a l h, x.run.toks[tk] = .flight st a l h → Yields (.hwait c n rd tk) s (fun t => t = s) ∧
      (x.handler = false → s.tokenWaits c n x.run.slot tk x.run = false → ∀ b, Yields (.hostTokenComplete c n x.run.slot tk b) s fun t =>
        (t.teCtx c n).run.toks[tk] = .done b.isNone)) ∧
    (∀ st, x.run.toks[tk] = .done st → Yields (.hwait c n rd tk) s fun t => t.teCtx c n = (x.set rd (if st then 1 else 0)).after) ∧
    (x.run.toks[tk] = .idle → Yields (.hwait c n rd tk) s fun t => t.teCtx c n = (x.set rd 0).after)) ∧
  (∀ (c : CoreId) (n : TeNo) (rd ra rb : Reg) (imm : Half) (s : State) (x : TeCtx), TeReady s c n → x = s.teCtx c n →
    (∀ e ∈ [(Instr.ld8 c n rd ra imm, 1), (.ld16 c n rd ra imm, 2), (.ld32 c n rd ra imm, 4), (.ld64 c n rd ra imm, 8),
        (.st8 c n rd ra imm, 1), (.st16 c n rd ra imm, 2), (.st32 c n rd ra imm, 4), (.st64 c n rd ra imm, 8)],
      x.addr ra imm + e.2 ≤ 0x10000 → x.addr ra imm % e.2 = 0 → x.run.covered (x.addr ra imm) e.2 = true →
        Yields e.1 s fun t => t = s) ∧
    ((x.get ra).toNat + 32 ≤ 0x10000 → (x.get ra).toNat % 32 = 0 → x.run.covered (x.get ra).toNat 32 = true →
      Yields (.postc c n ra rb) s fun t => t = s) ∧
    (x.get rb ≠ 0 → (x.get rb).toNat ≤ 9196 → (x.get ra).toNat + 8 + (x.get rb).toNat ≤ 0x10000 →
      x.run.covered (x.get ra).toNat (8 + (x.get rb).toNat) = true → Yields (.send c n rd ra rb) s fun t => t = s) ∧
    (x.handler = false → x.run.inFlight = true → Yields (.done c n) s (fun t => t = s) ∧
      (x.script.isSome = true → Yields (.tick c n rd) s fun t => t = s)))

/-- Alignment (04 R105): a load or store that is not aligned to its size raises `ALIGN`; the access checks of R92 hold for every
byte of the access. -/
def Obligations.YelcyAlignment : Prop :=
  (∀ (c : CoreId) (n : TeNo) (rd ra : Reg) (imm : Half) (s : State) (x : TeCtx), TeReady s c n → x = s.teCtx c n →
    (∀ e ∈ [(Instr.ld16 c n rd ra imm, 2), (.ld32 c n rd ra imm, 4), (.ld64 c n rd ra imm, 8)],
      window x.isletLevel false (x.addr ra imm) e.2 ≠ none → x.addr ra imm % e.2 ≠ 0 → Yields e.1 s fun t => t = s.teFault c n 0x03) ∧
    (∀ e ∈ [(Instr.st16 c n rd ra imm, 2), (.st32 c n rd ra imm, 4), (.st64 c n rd ra imm, 8)],
      window x.isletLevel true (x.addr ra imm) e.2 ≠ none → x.addr ra imm % e.2 ≠ 0 → Yields e.1 s fun t => t = s.teFault c n 0x03) ∧
    (∀ e ∈ [(Instr.ld8 c n rd ra imm, false, 1), (.ld16 c n rd ra imm, false, 2), (.ld32 c n rd ra imm, false, 4),
        (.ld64 c n rd ra imm, false, 8), (.st8 c n rd ra imm, true, 1), (.st16 c n rd ra imm, true, 2), (.st32 c n rd ra imm, true, 4),
        (.st64 c n rd ra imm, true, 8)],
      (∃ k, k < e.2.2 ∧ window x.isletLevel e.2.1 (x.addr ra imm + k) 1 = none) → Yields e.1 s fun t => t = s.teFault c n 0x02))

/-- A wake that meets an entry (11 R308): it is latched, `WAKE_LATCHED` and source 893 are set, the entry is completed, and the exit
begins as soon as it is; with its rail lowered the exit waits for the regulator (11 R312). -/
def Obligations.LatchedWake : Prop :=
  (∀ (c : CoreId) (d : DomainNo) (ut e : Nat) (g : DomState) (s u : State), u = s.arrive ut → d.val ≠ 0 →
    (u.domain c d.val).going = some (g, e) → g ≠ .on → (u.domain c d.val).wakeLatched = false → Yields (.domainWake c d ut) s fun t =>
      (t.domain c d.val).wakeLatched = true ∧ (t.domain c d.val).going = some (g, e) ∧ (t.domain c d.val).st = (u.domain c d.val).st ∧
      ((t.evtCore c).pend 13).getLsbD 61 = true) ∧
  (∀ (c : CoreId) (d : DomainNo) (ut e : Nat) (g : DomState) (s u : State), u = s.arrive ut →
    (u.domain c d.val).going = some (g, e) → g ≠ .on → (u.domain c d.val).wakeLatched = true → e ≤ u.ut c →
    Yields (.domainTransitionDone c d ut) s fun t => (t.domain c d.val).st = g ∧ (t.domain c d.val).wakeLatched = false ∧
      (u.railLow c d.val = false → (t.domain c d.val).going = some (.on, u.ut c + exitTime d.val (g == .off))) ∧
      (u.railLow c d.val = true → ∃ r, (t.powCore c).req (decide (6 ≤ d.val)) = some r ∧ r.raise = true ∧ d.val ∈ r.waiters))
end

