-- ==== Sys2Proof/Laws/State.lean ====
section
/-! SUPPORT. Each field of the state after each setter. -/

namespace Sys2Proof.Machine

@[simp] theorem State.setTime_time (s : State) (v) : (s.setTime v).time = v := rfl
@[simp] theorem State.setTime_host (s : State) (v) : (s.setTime v).host = s.host := rfl
@[simp] theorem State.setTime_isl (s : State) (v) : (s.setTime v).isl = s.isl := rfl
@[simp] theorem State.setTime_wq (s : State) (v) : (s.setTime v).wq = s.wq := rfl
@[simp] theorem State.setTime_prog (s : State) (v) : (s.setTime v).prog = s.prog := rfl
@[simp] theorem State.setTime_te (s : State) (v) : (s.setTime v).te = s.te := rfl
@[simp] theorem State.setTime_evt (s : State) (v) : (s.setTime v).evt = s.evt := rfl
@[simp] theorem State.setTime_mem (s : State) (v) : (s.setTime v).mem = s.mem := rfl
@[simp] theorem State.setTime_usb (s : State) (v) : (s.setTime v).usb = s.usb := rfl
@[simp] theorem State.setTime_link (s : State) (v) : (s.setTime v).link = s.link := rfl
@[simp] theorem State.setTime_disp (s : State) (v) : (s.setTime v).disp = s.disp := rfl
@[simp] theorem State.setTime_fab (s : State) (v) : (s.setTime v).fab = s.fab := rfl
@[simp] theorem State.setTime_traf (s : State) (v) : (s.setTime v).traf = s.traf := rfl
@[simp] theorem State.setTime_pow (s : State) (v) : (s.setTime v).pow = s.pow := rfl
@[simp] theorem State.setTime_mode (s : State) (v) : (s.setTime v).mode = s.mode := rfl
@[simp] theorem State.setTime_flt (s : State) (v) : (s.setTime v).flt = s.flt := rfl
@[simp] theorem State.setTime_cnt (s : State) (v) : (s.setTime v).cnt = s.cnt := rfl
@[simp] theorem State.setTime_svc (s : State) (v) : (s.setTime v).svc = s.svc := rfl
@[simp] theorem State.setTime_free (s : State) (v) : (s.setTime v).free = s.free := rfl
@[simp] theorem State.setTime_pending (s : State) (v) : (s.setTime v).pending = s.pending := rfl
@[simp] theorem State.setHost_time (s : State) (v) : (s.setHost v).time = s.time := rfl
@[simp] theorem State.setHost_host (s : State) (v) : (s.setHost v).host = v := rfl
@[simp] theorem State.setHost_isl (s : State) (v) : (s.setHost v).isl = s.isl := rfl
@[simp] theorem State.setHost_wq (s : State) (v) : (s.setHost v).wq = s.wq := rfl
@[simp] theorem State.setHost_prog (s : State) (v) : (s.setHost v).prog = s.prog := rfl
@[simp] theorem State.setHost_te (s : State) (v) : (s.setHost v).te = s.te := rfl
@[simp] theorem State.setHost_evt (s : State) (v) : (s.setHost v).evt = s.evt := rfl
@[simp] theorem State.setHost_mem (s : State) (v) : (s.setHost v).mem = s.mem := rfl
@[simp] theorem State.setHost_usb (s : State) (v) : (s.setHost v).usb = s.usb := rfl
@[simp] theorem State.setHost_link (s : State) (v) : (s.setHost v).link = s.link := rfl
@[simp] theorem State.setHost_disp (s : State) (v) : (s.setHost v).disp = s.disp := rfl
@[simp] theorem State.setHost_fab (s : State) (v) : (s.setHost v).fab = s.fab := rfl
@[simp] theorem State.setHost_traf (s : State) (v) : (s.setHost v).traf = s.traf := rfl
@[simp] theorem State.setHost_pow (s : State) (v) : (s.setHost v).pow = s.pow := rfl
@[simp] theorem State.setHost_mode (s : State) (v) : (s.setHost v).mode = s.mode := rfl
@[simp] theorem State.setHost_flt (s : State) (v) : (s.setHost v).flt = s.flt := rfl
@[simp] theorem State.setHost_cnt (s : State) (v) : (s.setHost v).cnt = s.cnt := rfl
@[simp] theorem State.setHost_svc (s : State) (v) : (s.setHost v).svc = s.svc := rfl
@[simp] theorem State.setHost_free (s : State) (v) : (s.setHost v).free = s.free := rfl
@[simp] theorem State.setHost_pending (s : State) (v) : (s.setHost v).pending = s.pending := rfl
@[simp] theorem State.setIsl_time (s : State) (v) : (s.setIsl v).time = s.time := rfl
@[simp] theorem State.setIsl_host (s : State) (v) : (s.setIsl v).host = s.host := rfl
@[simp] theorem State.setIsl_isl (s : State) (v) : (s.setIsl v).isl = v := rfl
@[simp] theorem State.setIsl_wq (s : State) (v) : (s.setIsl v).wq = s.wq := rfl
@[simp] theorem State.setIsl_prog (s : State) (v) : (s.setIsl v).prog = s.prog := rfl
@[simp] theorem State.setIsl_te (s : State) (v) : (s.setIsl v).te = s.te := rfl
@[simp] theorem State.setIsl_evt (s : State) (v) : (s.setIsl v).evt = s.evt := rfl
@[simp] theorem State.setIsl_mem (s : State) (v) : (s.setIsl v).mem = s.mem := rfl
@[simp] theorem State.setIsl_usb (s : State) (v) : (s.setIsl v).usb = s.usb := rfl
@[simp] theorem State.setIsl_link (s : State) (v) : (s.setIsl v).link = s.link := rfl
@[simp] theorem State.setIsl_disp (s : State) (v) : (s.setIsl v).disp = s.disp := rfl
@[simp] theorem State.setIsl_fab (s : State) (v) : (s.setIsl v).fab = s.fab := rfl
@[simp] theorem State.setIsl_traf (s : State) (v) : (s.setIsl v).traf = s.traf := rfl
@[simp] theorem State.setIsl_pow (s : State) (v) : (s.setIsl v).pow = s.pow := rfl
@[simp] theorem State.setIsl_mode (s : State) (v) : (s.setIsl v).mode = s.mode := rfl
@[simp] theorem State.setIsl_flt (s : State) (v) : (s.setIsl v).flt = s.flt := rfl
@[simp] theorem State.setIsl_cnt (s : State) (v) : (s.setIsl v).cnt = s.cnt := rfl
@[simp] theorem State.setIsl_svc (s : State) (v) : (s.setIsl v).svc = s.svc := rfl
@[simp] theorem State.setIsl_free (s : State) (v) : (s.setIsl v).free = s.free := rfl
@[simp] theorem State.setIsl_pending (s : State) (v) : (s.setIsl v).pending = s.pending := rfl
@[simp] theorem State.setWq_time (s : State) (v) : (s.setWq v).time = s.time := rfl
@[simp] theorem State.setWq_host (s : State) (v) : (s.setWq v).host = s.host := rfl
@[simp] theorem State.setWq_isl (s : State) (v) : (s.setWq v).isl = s.isl := rfl
@[simp] theorem State.setWq_wq (s : State) (v) : (s.setWq v).wq = v := rfl
@[simp] theorem State.setWq_prog (s : State) (v) : (s.setWq v).prog = s.prog := rfl
@[simp] theorem State.setWq_te (s : State) (v) : (s.setWq v).te = s.te := rfl
@[simp] theorem State.setWq_evt (s : State) (v) : (s.setWq v).evt = s.evt := rfl
@[simp] theorem State.setWq_mem (s : State) (v) : (s.setWq v).mem = s.mem := rfl
@[simp] theorem State.setWq_usb (s : State) (v) : (s.setWq v).usb = s.usb := rfl
@[simp] theorem State.setWq_link (s : State) (v) : (s.setWq v).link = s.link := rfl
@[simp] theorem State.setWq_disp (s : State) (v) : (s.setWq v).disp = s.disp := rfl
@[simp] theorem State.setWq_fab (s : State) (v) : (s.setWq v).fab = s.fab := rfl
@[simp] theorem State.setWq_traf (s : State) (v) : (s.setWq v).traf = s.traf := rfl
@[simp] theorem State.setWq_pow (s : State) (v) : (s.setWq v).pow = s.pow := rfl
@[simp] theorem State.setWq_mode (s : State) (v) : (s.setWq v).mode = s.mode := rfl
@[simp] theorem State.setWq_flt (s : State) (v) : (s.setWq v).flt = s.flt := rfl
@[simp] theorem State.setWq_cnt (s : State) (v) : (s.setWq v).cnt = s.cnt := rfl
@[simp] theorem State.setWq_svc (s : State) (v) : (s.setWq v).svc = s.svc := rfl
@[simp] theorem State.setWq_free (s : State) (v) : (s.setWq v).free = s.free := rfl
@[simp] theorem State.setWq_pending (s : State) (v) : (s.setWq v).pending = s.pending := rfl
@[simp] theorem State.setProg_time (s : State) (v) : (s.setProg v).time = s.time := rfl
@[simp] theorem State.setProg_host (s : State) (v) : (s.setProg v).host = s.host := rfl
@[simp] theorem State.setProg_isl (s : State) (v) : (s.setProg v).isl = s.isl := rfl
@[simp] theorem State.setProg_wq (s : State) (v) : (s.setProg v).wq = s.wq := rfl
@[simp] theorem State.setProg_prog (s : State) (v) : (s.setProg v).prog = v := rfl
@[simp] theorem State.setProg_te (s : State) (v) : (s.setProg v).te = s.te := rfl
@[simp] theorem State.setProg_evt (s : State) (v) : (s.setProg v).evt = s.evt := rfl
@[simp] theorem State.setProg_mem (s : State) (v) : (s.setProg v).mem = s.mem := rfl
@[simp] theorem State.setProg_usb (s : State) (v) : (s.setProg v).usb = s.usb := rfl
@[simp] theorem State.setProg_link (s : State) (v) : (s.setProg v).link = s.link := rfl
@[simp] theorem State.setProg_disp (s : State) (v) : (s.setProg v).disp = s.disp := rfl
@[simp] theorem State.setProg_fab (s : State) (v) : (s.setProg v).fab = s.fab := rfl
@[simp] theorem State.setProg_traf (s : State) (v) : (s.setProg v).traf = s.traf := rfl
@[simp] theorem State.setProg_pow (s : State) (v) : (s.setProg v).pow = s.pow := rfl
@[simp] theorem State.setProg_mode (s : State) (v) : (s.setProg v).mode = s.mode := rfl
@[simp] theorem State.setProg_flt (s : State) (v) : (s.setProg v).flt = s.flt := rfl
@[simp] theorem State.setProg_cnt (s : State) (v) : (s.setProg v).cnt = s.cnt := rfl
@[simp] theorem State.setProg_svc (s : State) (v) : (s.setProg v).svc = s.svc := rfl
@[simp] theorem State.setProg_free (s : State) (v) : (s.setProg v).free = s.free := rfl
@[simp] theorem State.setProg_pending (s : State) (v) : (s.setProg v).pending = s.pending := rfl
@[simp] theorem State.setTe_time (s : State) (v) : (s.setTe v).time = s.time := rfl
@[simp] theorem State.setTe_host (s : State) (v) : (s.setTe v).host = s.host := rfl
@[simp] theorem State.setTe_isl (s : State) (v) : (s.setTe v).isl = s.isl := rfl
@[simp] theorem State.setTe_wq (s : State) (v) : (s.setTe v).wq = s.wq := rfl
@[simp] theorem State.setTe_prog (s : State) (v) : (s.setTe v).prog = s.prog := rfl
@[simp] theorem State.setTe_te (s : State) (v) : (s.setTe v).te = v := rfl
@[simp] theorem State.setTe_evt (s : State) (v) : (s.setTe v).evt = s.evt := rfl
@[simp] theorem State.setTe_mem (s : State) (v) : (s.setTe v).mem = s.mem := rfl
@[simp] theorem State.setTe_usb (s : State) (v) : (s.setTe v).usb = s.usb := rfl
@[simp] theorem State.setTe_link (s : State) (v) : (s.setTe v).link = s.link := rfl
@[simp] theorem State.setTe_disp (s : State) (v) : (s.setTe v).disp = s.disp := rfl
@[simp] theorem State.setTe_fab (s : State) (v) : (s.setTe v).fab = s.fab := rfl
@[simp] theorem State.setTe_traf (s : State) (v) : (s.setTe v).traf = s.traf := rfl
@[simp] theorem State.setTe_pow (s : State) (v) : (s.setTe v).pow = s.pow := rfl
@[simp] theorem State.setTe_mode (s : State) (v) : (s.setTe v).mode = s.mode := rfl
@[simp] theorem State.setTe_flt (s : State) (v) : (s.setTe v).flt = s.flt := rfl
@[simp] theorem State.setTe_cnt (s : State) (v) : (s.setTe v).cnt = s.cnt := rfl
@[simp] theorem State.setTe_svc (s : State) (v) : (s.setTe v).svc = s.svc := rfl
@[simp] theorem State.setTe_free (s : State) (v) : (s.setTe v).free = s.free := rfl
@[simp] theorem State.setTe_pending (s : State) (v) : (s.setTe v).pending = s.pending := rfl
@[simp] theorem State.setEvt_time (s : State) (v) : (s.setEvt v).time = s.time := rfl
@[simp] theorem State.setEvt_host (s : State) (v) : (s.setEvt v).host = s.host := rfl
@[simp] theorem State.setEvt_isl (s : State) (v) : (s.setEvt v).isl = s.isl := rfl
@[simp] theorem State.setEvt_wq (s : State) (v) : (s.setEvt v).wq = s.wq := rfl
@[simp] theorem State.setEvt_prog (s : State) (v) : (s.setEvt v).prog = s.prog := rfl
@[simp] theorem State.setEvt_te (s : State) (v) : (s.setEvt v).te = s.te := rfl
@[simp] theorem State.setEvt_evt (s : State) (v) : (s.setEvt v).evt = v := rfl
@[simp] theorem State.setEvt_mem (s : State) (v) : (s.setEvt v).mem = s.mem := rfl
@[simp] theorem State.setEvt_usb (s : State) (v) : (s.setEvt v).usb = s.usb := rfl
@[simp] theorem State.setEvt_link (s : State) (v) : (s.setEvt v).link = s.link := rfl
@[simp] theorem State.setEvt_disp (s : State) (v) : (s.setEvt v).disp = s.disp := rfl
@[simp] theorem State.setEvt_fab (s : State) (v) : (s.setEvt v).fab = s.fab := rfl
@[simp] theorem State.setEvt_traf (s : State) (v) : (s.setEvt v).traf = s.traf := rfl
@[simp] theorem State.setEvt_pow (s : State) (v) : (s.setEvt v).pow = s.pow := rfl
@[simp] theorem State.setEvt_mode (s : State) (v) : (s.setEvt v).mode = s.mode := rfl
@[simp] theorem State.setEvt_flt (s : State) (v) : (s.setEvt v).flt = s.flt := rfl
@[simp] theorem State.setEvt_cnt (s : State) (v) : (s.setEvt v).cnt = s.cnt := rfl
@[simp] theorem State.setEvt_svc (s : State) (v) : (s.setEvt v).svc = s.svc := rfl
@[simp] theorem State.setEvt_free (s : State) (v) : (s.setEvt v).free = s.free := rfl
@[simp] theorem State.setEvt_pending (s : State) (v) : (s.setEvt v).pending = s.pending := rfl
@[simp] theorem State.setMem_time (s : State) (v) : (s.setMem v).time = s.time := rfl
@[simp] theorem State.setMem_host (s : State) (v) : (s.setMem v).host = s.host := rfl
@[simp] theorem State.setMem_isl (s : State) (v) : (s.setMem v).isl = s.isl := rfl
@[simp] theorem State.setMem_wq (s : State) (v) : (s.setMem v).wq = s.wq := rfl
@[simp] theorem State.setMem_prog (s : State) (v) : (s.setMem v).prog = s.prog := rfl
@[simp] theorem State.setMem_te (s : State) (v) : (s.setMem v).te = s.te := rfl
@[simp] theorem State.setMem_evt (s : State) (v) : (s.setMem v).evt = s.evt := rfl
@[simp] theorem State.setMem_mem (s : State) (v) : (s.setMem v).mem = v := rfl
@[simp] theorem State.setMem_usb (s : State) (v) : (s.setMem v).usb = s.usb := rfl
@[simp] theorem State.setMem_link (s : State) (v) : (s.setMem v).link = s.link := rfl
@[simp] theorem State.setMem_disp (s : State) (v) : (s.setMem v).disp = s.disp := rfl
@[simp] theorem State.setMem_fab (s : State) (v) : (s.setMem v).fab = s.fab := rfl
@[simp] theorem State.setMem_traf (s : State) (v) : (s.setMem v).traf = s.traf := rfl
@[simp] theorem State.setMem_pow (s : State) (v) : (s.setMem v).pow = s.pow := rfl
@[simp] theorem State.setMem_mode (s : State) (v) : (s.setMem v).mode = s.mode := rfl
@[simp] theorem State.setMem_flt (s : State) (v) : (s.setMem v).flt = s.flt := rfl
@[simp] theorem State.setMem_cnt (s : State) (v) : (s.setMem v).cnt = s.cnt := rfl
@[simp] theorem State.setMem_svc (s : State) (v) : (s.setMem v).svc = s.svc := rfl
@[simp] theorem State.setMem_free (s : State) (v) : (s.setMem v).free = s.free := rfl
@[simp] theorem State.setMem_pending (s : State) (v) : (s.setMem v).pending = s.pending := rfl
@[simp] theorem State.setUsb_time (s : State) (v) : (s.setUsb v).time = s.time := rfl
@[simp] theorem State.setUsb_host (s : State) (v) : (s.setUsb v).host = s.host := rfl
@[simp] theorem State.setUsb_isl (s : State) (v) : (s.setUsb v).isl = s.isl := rfl
@[simp] theorem State.setUsb_wq (s : State) (v) : (s.setUsb v).wq = s.wq := rfl
@[simp] theorem State.setUsb_prog (s : State) (v) : (s.setUsb v).prog = s.prog := rfl
@[simp] theorem State.setUsb_te (s : State) (v) : (s.setUsb v).te = s.te := rfl
@[simp] theorem State.setUsb_evt (s : State) (v) : (s.setUsb v).evt = s.evt := rfl
@[simp] theorem State.setUsb_mem (s : State) (v) : (s.setUsb v).mem = s.mem := rfl
@[simp] theorem State.setUsb_usb (s : State) (v) : (s.setUsb v).usb = v := rfl
@[simp] theorem State.setUsb_link (s : State) (v) : (s.setUsb v).link = s.link := rfl
@[simp] theorem State.setUsb_disp (s : State) (v) : (s.setUsb v).disp = s.disp := rfl
@[simp] theorem State.setUsb_fab (s : State) (v) : (s.setUsb v).fab = s.fab := rfl
@[simp] theorem State.setUsb_traf (s : State) (v) : (s.setUsb v).traf = s.traf := rfl
@[simp] theorem State.setUsb_pow (s : State) (v) : (s.setUsb v).pow = s.pow := rfl
@[simp] theorem State.setUsb_mode (s : State) (v) : (s.setUsb v).mode = s.mode := rfl
@[simp] theorem State.setUsb_flt (s : State) (v) : (s.setUsb v).flt = s.flt := rfl
@[simp] theorem State.setUsb_cnt (s : State) (v) : (s.setUsb v).cnt = s.cnt := rfl
@[simp] theorem State.setUsb_svc (s : State) (v) : (s.setUsb v).svc = s.svc := rfl
@[simp] theorem State.setUsb_free (s : State) (v) : (s.setUsb v).free = s.free := rfl
@[simp] theorem State.setUsb_pending (s : State) (v) : (s.setUsb v).pending = s.pending := rfl
@[simp] theorem State.setLink_time (s : State) (v) : (s.setLink v).time = s.time := rfl
@[simp] theorem State.setLink_host (s : State) (v) : (s.setLink v).host = s.host := rfl
@[simp] theorem State.setLink_isl (s : State) (v) : (s.setLink v).isl = s.isl := rfl
@[simp] theorem State.setLink_wq (s : State) (v) : (s.setLink v).wq = s.wq := rfl
@[simp] theorem State.setLink_prog (s : State) (v) : (s.setLink v).prog = s.prog := rfl
@[simp] theorem State.setLink_te (s : State) (v) : (s.setLink v).te = s.te := rfl
@[simp] theorem State.setLink_evt (s : State) (v) : (s.setLink v).evt = s.evt := rfl
@[simp] theorem State.setLink_mem (s : State) (v) : (s.setLink v).mem = s.mem := rfl
@[simp] theorem State.setLink_usb (s : State) (v) : (s.setLink v).usb = s.usb := rfl
@[simp] theorem State.setLink_link (s : State) (v) : (s.setLink v).link = v := rfl
@[simp] theorem State.setLink_disp (s : State) (v) : (s.setLink v).disp = s.disp := rfl
@[simp] theorem State.setLink_fab (s : State) (v) : (s.setLink v).fab = s.fab := rfl
@[simp] theorem State.setLink_traf (s : State) (v) : (s.setLink v).traf = s.traf := rfl
@[simp] theorem State.setLink_pow (s : State) (v) : (s.setLink v).pow = s.pow := rfl
@[simp] theorem State.setLink_mode (s : State) (v) : (s.setLink v).mode = s.mode := rfl
@[simp] theorem State.setLink_flt (s : State) (v) : (s.setLink v).flt = s.flt := rfl
@[simp] theorem State.setLink_cnt (s : State) (v) : (s.setLink v).cnt = s.cnt := rfl
@[simp] theorem State.setLink_svc (s : State) (v) : (s.setLink v).svc = s.svc := rfl
@[simp] theorem State.setLink_free (s : State) (v) : (s.setLink v).free = s.free := rfl
@[simp] theorem State.setLink_pending (s : State) (v) : (s.setLink v).pending = s.pending := rfl
@[simp] theorem State.setDisp_time (s : State) (v) : (s.setDisp v).time = s.time := rfl
@[simp] theorem State.setDisp_host (s : State) (v) : (s.setDisp v).host = s.host := rfl
@[simp] theorem State.setDisp_isl (s : State) (v) : (s.setDisp v).isl = s.isl := rfl
@[simp] theorem State.setDisp_wq (s : State) (v) : (s.setDisp v).wq = s.wq := rfl
@[simp] theorem State.setDisp_prog (s : State) (v) : (s.setDisp v).prog = s.prog := rfl
@[simp] theorem State.setDisp_te (s : State) (v) : (s.setDisp v).te = s.te := rfl
@[simp] theorem State.setDisp_evt (s : State) (v) : (s.setDisp v).evt = s.evt := rfl
@[simp] theorem State.setDisp_mem (s : State) (v) : (s.setDisp v).mem = s.mem := rfl
@[simp] theorem State.setDisp_usb (s : State) (v) : (s.setDisp v).usb = s.usb := rfl
@[simp] theorem State.setDisp_link (s : State) (v) : (s.setDisp v).link = s.link := rfl
@[simp] theorem State.setDisp_disp (s : State) (v) : (s.setDisp v).disp = v := rfl
@[simp] theorem State.setDisp_fab (s : State) (v) : (s.setDisp v).fab = s.fab := rfl
@[simp] theorem State.setDisp_traf (s : State) (v) : (s.setDisp v).traf = s.traf := rfl
@[simp] theorem State.setDisp_pow (s : State) (v) : (s.setDisp v).pow = s.pow := rfl
@[simp] theorem State.setDisp_mode (s : State) (v) : (s.setDisp v).mode = s.mode := rfl
@[simp] theorem State.setDisp_flt (s : State) (v) : (s.setDisp v).flt = s.flt := rfl
@[simp] theorem State.setDisp_cnt (s : State) (v) : (s.setDisp v).cnt = s.cnt := rfl
@[simp] theorem State.setDisp_svc (s : State) (v) : (s.setDisp v).svc = s.svc := rfl
@[simp] theorem State.setDisp_free (s : State) (v) : (s.setDisp v).free = s.free := rfl
@[simp] theorem State.setDisp_pending (s : State) (v) : (s.setDisp v).pending = s.pending := rfl
@[simp] theorem State.setFab_time (s : State) (v) : (s.setFab v).time = s.time := rfl
@[simp] theorem State.setFab_host (s : State) (v) : (s.setFab v).host = s.host := rfl
@[simp] theorem State.setFab_isl (s : State) (v) : (s.setFab v).isl = s.isl := rfl
@[simp] theorem State.setFab_wq (s : State) (v) : (s.setFab v).wq = s.wq := rfl
@[simp] theorem State.setFab_prog (s : State) (v) : (s.setFab v).prog = s.prog := rfl
@[simp] theorem State.setFab_te (s : State) (v) : (s.setFab v).te = s.te := rfl
@[simp] theorem State.setFab_evt (s : State) (v) : (s.setFab v).evt = s.evt := rfl
@[simp] theorem State.setFab_mem (s : State) (v) : (s.setFab v).mem = s.mem := rfl
@[simp] theorem State.setFab_usb (s : State) (v) : (s.setFab v).usb = s.usb := rfl
@[simp] theorem State.setFab_link (s : State) (v) : (s.setFab v).link = s.link := rfl
@[simp] theorem State.setFab_disp (s : State) (v) : (s.setFab v).disp = s.disp := rfl
@[simp] theorem State.setFab_fab (s : State) (v) : (s.setFab v).fab = v := rfl
@[simp] theorem State.setFab_traf (s : State) (v) : (s.setFab v).traf = s.traf := rfl
@[simp] theorem State.setFab_pow (s : State) (v) : (s.setFab v).pow = s.pow := rfl
@[simp] theorem State.setFab_mode (s : State) (v) : (s.setFab v).mode = s.mode := rfl
@[simp] theorem State.setFab_flt (s : State) (v) : (s.setFab v).flt = s.flt := rfl
@[simp] theorem State.setFab_cnt (s : State) (v) : (s.setFab v).cnt = s.cnt := rfl
@[simp] theorem State.setFab_svc (s : State) (v) : (s.setFab v).svc = s.svc := rfl
@[simp] theorem State.setFab_free (s : State) (v) : (s.setFab v).free = s.free := rfl
@[simp] theorem State.setFab_pending (s : State) (v) : (s.setFab v).pending = s.pending := rfl
@[simp] theorem State.setTraf_time (s : State) (v) : (s.setTraf v).time = s.time := rfl
@[simp] theorem State.setTraf_host (s : State) (v) : (s.setTraf v).host = s.host := rfl
@[simp] theorem State.setTraf_isl (s : State) (v) : (s.setTraf v).isl = s.isl := rfl
@[simp] theorem State.setTraf_wq (s : State) (v) : (s.setTraf v).wq = s.wq := rfl
@[simp] theorem State.setTraf_prog (s : State) (v) : (s.setTraf v).prog = s.prog := rfl
@[simp] theorem State.setTraf_te (s : State) (v) : (s.setTraf v).te = s.te := rfl
@[simp] theorem State.setTraf_evt (s : State) (v) : (s.setTraf v).evt = s.evt := rfl
@[simp] theorem State.setTraf_mem (s : State) (v) : (s.setTraf v).mem = s.mem := rfl
@[simp] theorem State.setTraf_usb (s : State) (v) : (s.setTraf v).usb = s.usb := rfl
@[simp] theorem State.setTraf_link (s : State) (v) : (s.setTraf v).link = s.link := rfl
@[simp] theorem State.setTraf_disp (s : State) (v) : (s.setTraf v).disp = s.disp := rfl
@[simp] theorem State.setTraf_fab (s : State) (v) : (s.setTraf v).fab = s.fab := rfl
@[simp] theorem State.setTraf_traf (s : State) (v) : (s.setTraf v).traf = v := rfl
@[simp] theorem State.setTraf_pow (s : State) (v) : (s.setTraf v).pow = s.pow := rfl
@[simp] theorem State.setTraf_mode (s : State) (v) : (s.setTraf v).mode = s.mode := rfl
@[simp] theorem State.setTraf_flt (s : State) (v) : (s.setTraf v).flt = s.flt := rfl
@[simp] theorem State.setTraf_cnt (s : State) (v) : (s.setTraf v).cnt = s.cnt := rfl
@[simp] theorem State.setTraf_svc (s : State) (v) : (s.setTraf v).svc = s.svc := rfl
@[simp] theorem State.setTraf_free (s : State) (v) : (s.setTraf v).free = s.free := rfl
@[simp] theorem State.setTraf_pending (s : State) (v) : (s.setTraf v).pending = s.pending := rfl
@[simp] theorem State.setPow_time (s : State) (v) : (s.setPow v).time = s.time := rfl
@[simp] theorem State.setPow_host (s : State) (v) : (s.setPow v).host = s.host := rfl
@[simp] theorem State.setPow_isl (s : State) (v) : (s.setPow v).isl = s.isl := rfl
@[simp] theorem State.setPow_wq (s : State) (v) : (s.setPow v).wq = s.wq := rfl
@[simp] theorem State.setPow_prog (s : State) (v) : (s.setPow v).prog = s.prog := rfl
@[simp] theorem State.setPow_te (s : State) (v) : (s.setPow v).te = s.te := rfl
@[simp] theorem State.setPow_evt (s : State) (v) : (s.setPow v).evt = s.evt := rfl
@[simp] theorem State.setPow_mem (s : State) (v) : (s.setPow v).mem = s.mem := rfl
@[simp] theorem State.setPow_usb (s : State) (v) : (s.setPow v).usb = s.usb := rfl
@[simp] theorem State.setPow_link (s : State) (v) : (s.setPow v).link = s.link := rfl
@[simp] theorem State.setPow_disp (s : State) (v) : (s.setPow v).disp = s.disp := rfl
@[simp] theorem State.setPow_fab (s : State) (v) : (s.setPow v).fab = s.fab := rfl
@[simp] theorem State.setPow_traf (s : State) (v) : (s.setPow v).traf = s.traf := rfl
@[simp] theorem State.setPow_pow (s : State) (v) : (s.setPow v).pow = v := rfl
@[simp] theorem State.setPow_mode (s : State) (v) : (s.setPow v).mode = s.mode := rfl
@[simp] theorem State.setPow_flt (s : State) (v) : (s.setPow v).flt = s.flt := rfl
@[simp] theorem State.setPow_cnt (s : State) (v) : (s.setPow v).cnt = s.cnt := rfl
@[simp] theorem State.setPow_svc (s : State) (v) : (s.setPow v).svc = s.svc := rfl
@[simp] theorem State.setPow_free (s : State) (v) : (s.setPow v).free = s.free := rfl
@[simp] theorem State.setPow_pending (s : State) (v) : (s.setPow v).pending = s.pending := rfl
@[simp] theorem State.setMode_time (s : State) (v) : (s.setMode v).time = s.time := rfl
@[simp] theorem State.setMode_host (s : State) (v) : (s.setMode v).host = s.host := rfl
@[simp] theorem State.setMode_isl (s : State) (v) : (s.setMode v).isl = s.isl := rfl
@[simp] theorem State.setMode_wq (s : State) (v) : (s.setMode v).wq = s.wq := rfl
@[simp] theorem State.setMode_prog (s : State) (v) : (s.setMode v).prog = s.prog := rfl
@[simp] theorem State.setMode_te (s : State) (v) : (s.setMode v).te = s.te := rfl
@[simp] theorem State.setMode_evt (s : State) (v) : (s.setMode v).evt = s.evt := rfl
@[simp] theorem State.setMode_mem (s : State) (v) : (s.setMode v).mem = s.mem := rfl
@[simp] theorem State.setMode_usb (s : State) (v) : (s.setMode v).usb = s.usb := rfl
@[simp] theorem State.setMode_link (s : State) (v) : (s.setMode v).link = s.link := rfl
@[simp] theorem State.setMode_disp (s : State) (v) : (s.setMode v).disp = s.disp := rfl
@[simp] theorem State.setMode_fab (s : State) (v) : (s.setMode v).fab = s.fab := rfl
@[simp] theorem State.setMode_traf (s : State) (v) : (s.setMode v).traf = s.traf := rfl
@[simp] theorem State.setMode_pow (s : State) (v) : (s.setMode v).pow = s.pow := rfl
@[simp] theorem State.setMode_mode (s : State) (v) : (s.setMode v).mode = v := rfl
@[simp] theorem State.setMode_flt (s : State) (v) : (s.setMode v).flt = s.flt := rfl
@[simp] theorem State.setMode_cnt (s : State) (v) : (s.setMode v).cnt = s.cnt := rfl
@[simp] theorem State.setMode_svc (s : State) (v) : (s.setMode v).svc = s.svc := rfl
@[simp] theorem State.setMode_free (s : State) (v) : (s.setMode v).free = s.free := rfl
@[simp] theorem State.setMode_pending (s : State) (v) : (s.setMode v).pending = s.pending := rfl
@[simp] theorem State.setFlt_time (s : State) (v) : (s.setFlt v).time = s.time := rfl
@[simp] theorem State.setFlt_host (s : State) (v) : (s.setFlt v).host = s.host := rfl
@[simp] theorem State.setFlt_isl (s : State) (v) : (s.setFlt v).isl = s.isl := rfl
@[simp] theorem State.setFlt_wq (s : State) (v) : (s.setFlt v).wq = s.wq := rfl
@[simp] theorem State.setFlt_prog (s : State) (v) : (s.setFlt v).prog = s.prog := rfl
@[simp] theorem State.setFlt_te (s : State) (v) : (s.setFlt v).te = s.te := rfl
@[simp] theorem State.setFlt_evt (s : State) (v) : (s.setFlt v).evt = s.evt := rfl
@[simp] theorem State.setFlt_mem (s : State) (v) : (s.setFlt v).mem = s.mem := rfl
@[simp] theorem State.setFlt_usb (s : State) (v) : (s.setFlt v).usb = s.usb := rfl
@[simp] theorem State.setFlt_link (s : State) (v) : (s.setFlt v).link = s.link := rfl
@[simp] theorem State.setFlt_disp (s : State) (v) : (s.setFlt v).disp = s.disp := rfl
@[simp] theorem State.setFlt_fab (s : State) (v) : (s.setFlt v).fab = s.fab := rfl
@[simp] theorem State.setFlt_traf (s : State) (v) : (s.setFlt v).traf = s.traf := rfl
@[simp] theorem State.setFlt_pow (s : State) (v) : (s.setFlt v).pow = s.pow := rfl
@[simp] theorem State.setFlt_mode (s : State) (v) : (s.setFlt v).mode = s.mode := rfl
@[simp] theorem State.setFlt_flt (s : State) (v) : (s.setFlt v).flt = v := rfl
@[simp] theorem State.setFlt_cnt (s : State) (v) : (s.setFlt v).cnt = s.cnt := rfl
@[simp] theorem State.setFlt_svc (s : State) (v) : (s.setFlt v).svc = s.svc := rfl
@[simp] theorem State.setFlt_free (s : State) (v) : (s.setFlt v).free = s.free := rfl
@[simp] theorem State.setFlt_pending (s : State) (v) : (s.setFlt v).pending = s.pending := rfl
@[simp] theorem State.setCnt_time (s : State) (v) : (s.setCnt v).time = s.time := rfl
@[simp] theorem State.setCnt_host (s : State) (v) : (s.setCnt v).host = s.host := rfl
@[simp] theorem State.setCnt_isl (s : State) (v) : (s.setCnt v).isl = s.isl := rfl
@[simp] theorem State.setCnt_wq (s : State) (v) : (s.setCnt v).wq = s.wq := rfl
@[simp] theorem State.setCnt_prog (s : State) (v) : (s.setCnt v).prog = s.prog := rfl
@[simp] theorem State.setCnt_te (s : State) (v) : (s.setCnt v).te = s.te := rfl
@[simp] theorem State.setCnt_evt (s : State) (v) : (s.setCnt v).evt = s.evt := rfl
@[simp] theorem State.setCnt_mem (s : State) (v) : (s.setCnt v).mem = s.mem := rfl
@[simp] theorem State.setCnt_usb (s : State) (v) : (s.setCnt v).usb = s.usb := rfl
@[simp] theorem State.setCnt_link (s : State) (v) : (s.setCnt v).link = s.link := rfl
@[simp] theorem State.setCnt_disp (s : State) (v) : (s.setCnt v).disp = s.disp := rfl
@[simp] theorem State.setCnt_fab (s : State) (v) : (s.setCnt v).fab = s.fab := rfl
@[simp] theorem State.setCnt_traf (s : State) (v) : (s.setCnt v).traf = s.traf := rfl
@[simp] theorem State.setCnt_pow (s : State) (v) : (s.setCnt v).pow = s.pow := rfl
@[simp] theorem State.setCnt_mode (s : State) (v) : (s.setCnt v).mode = s.mode := rfl
@[simp] theorem State.setCnt_flt (s : State) (v) : (s.setCnt v).flt = s.flt := rfl
@[simp] theorem State.setCnt_cnt (s : State) (v) : (s.setCnt v).cnt = v := rfl
@[simp] theorem State.setCnt_svc (s : State) (v) : (s.setCnt v).svc = s.svc := rfl
@[simp] theorem State.setCnt_free (s : State) (v) : (s.setCnt v).free = s.free := rfl
@[simp] theorem State.setCnt_pending (s : State) (v) : (s.setCnt v).pending = s.pending := rfl
@[simp] theorem State.setSvc_time (s : State) (v) : (s.setSvc v).time = s.time := rfl
@[simp] theorem State.setSvc_host (s : State) (v) : (s.setSvc v).host = s.host := rfl
@[simp] theorem State.setSvc_isl (s : State) (v) : (s.setSvc v).isl = s.isl := rfl
@[simp] theorem State.setSvc_wq (s : State) (v) : (s.setSvc v).wq = s.wq := rfl
@[simp] theorem State.setSvc_prog (s : State) (v) : (s.setSvc v).prog = s.prog := rfl
@[simp] theorem State.setSvc_te (s : State) (v) : (s.setSvc v).te = s.te := rfl
@[simp] theorem State.setSvc_evt (s : State) (v) : (s.setSvc v).evt = s.evt := rfl
@[simp] theorem State.setSvc_mem (s : State) (v) : (s.setSvc v).mem = s.mem := rfl
@[simp] theorem State.setSvc_usb (s : State) (v) : (s.setSvc v).usb = s.usb := rfl
@[simp] theorem State.setSvc_link (s : State) (v) : (s.setSvc v).link = s.link := rfl
@[simp] theorem State.setSvc_disp (s : State) (v) : (s.setSvc v).disp = s.disp := rfl
@[simp] theorem State.setSvc_fab (s : State) (v) : (s.setSvc v).fab = s.fab := rfl
@[simp] theorem State.setSvc_traf (s : State) (v) : (s.setSvc v).traf = s.traf := rfl
@[simp] theorem State.setSvc_pow (s : State) (v) : (s.setSvc v).pow = s.pow := rfl
@[simp] theorem State.setSvc_mode (s : State) (v) : (s.setSvc v).mode = s.mode := rfl
@[simp] theorem State.setSvc_flt (s : State) (v) : (s.setSvc v).flt = s.flt := rfl
@[simp] theorem State.setSvc_cnt (s : State) (v) : (s.setSvc v).cnt = s.cnt := rfl
@[simp] theorem State.setSvc_svc (s : State) (v) : (s.setSvc v).svc = v := rfl
@[simp] theorem State.setSvc_free (s : State) (v) : (s.setSvc v).free = s.free := rfl
@[simp] theorem State.setSvc_pending (s : State) (v) : (s.setSvc v).pending = s.pending := rfl
@[simp] theorem State.setFree_time (s : State) (v) : (s.setFree v).time = s.time := rfl
@[simp] theorem State.setFree_host (s : State) (v) : (s.setFree v).host = s.host := rfl
@[simp] theorem State.setFree_isl (s : State) (v) : (s.setFree v).isl = s.isl := rfl
@[simp] theorem State.setFree_wq (s : State) (v) : (s.setFree v).wq = s.wq := rfl
@[simp] theorem State.setFree_prog (s : State) (v) : (s.setFree v).prog = s.prog := rfl
@[simp] theorem State.setFree_te (s : State) (v) : (s.setFree v).te = s.te := rfl
@[simp] theorem State.setFree_evt (s : State) (v) : (s.setFree v).evt = s.evt := rfl
@[simp] theorem State.setFree_mem (s : State) (v) : (s.setFree v).mem = s.mem := rfl
@[simp] theorem State.setFree_usb (s : State) (v) : (s.setFree v).usb = s.usb := rfl
@[simp] theorem State.setFree_link (s : State) (v) : (s.setFree v).link = s.link := rfl
@[simp] theorem State.setFree_disp (s : State) (v) : (s.setFree v).disp = s.disp := rfl
@[simp] theorem State.setFree_fab (s : State) (v) : (s.setFree v).fab = s.fab := rfl
@[simp] theorem State.setFree_traf (s : State) (v) : (s.setFree v).traf = s.traf := rfl
@[simp] theorem State.setFree_pow (s : State) (v) : (s.setFree v).pow = s.pow := rfl
@[simp] theorem State.setFree_mode (s : State) (v) : (s.setFree v).mode = s.mode := rfl
@[simp] theorem State.setFree_flt (s : State) (v) : (s.setFree v).flt = s.flt := rfl
@[simp] theorem State.setFree_cnt (s : State) (v) : (s.setFree v).cnt = s.cnt := rfl
@[simp] theorem State.setFree_svc (s : State) (v) : (s.setFree v).svc = s.svc := rfl
@[simp] theorem State.setFree_free (s : State) (v) : (s.setFree v).free = v := rfl
@[simp] theorem State.setFree_pending (s : State) (v) : (s.setFree v).pending = s.pending := rfl
@[simp] theorem State.setPending_time (s : State) (v) : (s.setPending v).time = s.time := rfl
@[simp] theorem State.setPending_host (s : State) (v) : (s.setPending v).host = s.host := rfl
@[simp] theorem State.setPending_isl (s : State) (v) : (s.setPending v).isl = s.isl := rfl
@[simp] theorem State.setPending_wq (s : State) (v) : (s.setPending v).wq = s.wq := rfl
@[simp] theorem State.setPending_prog (s : State) (v) : (s.setPending v).prog = s.prog := rfl
@[simp] theorem State.setPending_te (s : State) (v) : (s.setPending v).te = s.te := rfl
@[simp] theorem State.setPending_evt (s : State) (v) : (s.setPending v).evt = s.evt := rfl
@[simp] theorem State.setPending_mem (s : State) (v) : (s.setPending v).mem = s.mem := rfl
@[simp] theorem State.setPending_usb (s : State) (v) : (s.setPending v).usb = s.usb := rfl
@[simp] theorem State.setPending_link (s : State) (v) : (s.setPending v).link = s.link := rfl
@[simp] theorem State.setPending_disp (s : State) (v) : (s.setPending v).disp = s.disp := rfl
@[simp] theorem State.setPending_fab (s : State) (v) : (s.setPending v).fab = s.fab := rfl
@[simp] theorem State.setPending_traf (s : State) (v) : (s.setPending v).traf = s.traf := rfl
@[simp] theorem State.setPending_pow (s : State) (v) : (s.setPending v).pow = s.pow := rfl
@[simp] theorem State.setPending_mode (s : State) (v) : (s.setPending v).mode = s.mode := rfl
@[simp] theorem State.setPending_flt (s : State) (v) : (s.setPending v).flt = s.flt := rfl
@[simp] theorem State.setPending_cnt (s : State) (v) : (s.setPending v).cnt = s.cnt := rfl
@[simp] theorem State.setPending_svc (s : State) (v) : (s.setPending v).svc = s.svc := rfl
@[simp] theorem State.setPending_free (s : State) (v) : (s.setPending v).free = s.free := rfl
@[simp] theorem State.setPending_pending (s : State) (v) : (s.setPending v).pending = v := rfl

end Sys2Proof.Machine
end

