-- ==== Sys2Proof/Laws/Tab.lean ====
section
/-! SUPPORT. Sparse arrays and byte memory: what a read after a write gives, and that every write keeps the canonical form. -/

namespace Sys2Proof.Machine

variable {α : Type}

@[simp] theorem tget_nil (k : Nat) (d : α) : tget [] k d = d := rfl

theorem tget_terase (t : Tab α) (k j : Nat) (d : α) : tget (terase t k) j d = if j = k then d else tget t j d := by
  induction t with
  | nil => simp [terase]
  | cons e t ih =>
    obtain ⟨a, v⟩ := e
    simp only [terase] at ih
    by_cases h : a = k
    · subst h
      by_cases hj : j = a
      · subst hj; simpa [terase, tget] using ih
      · have hj' : ¬ a = j := fun x => hj x.symm
        simpa [terase, tget, hj, hj'] using ih
    · simp only [terase, ne_eq, h, not_false_eq_true, decide_true, List.filter_cons_of_pos, tget]
      by_cases hj : a = j
      · subst hj; simp [h]
      · simp only [hj, if_false]; exact ih

theorem tget_tput (t : Tab α) (k j : Nat) (v d : α) : tget (tput t k v) j d = if j = k then v else tget t j d := by
  induction t with
  | nil => by_cases h : k = j <;> simp [tput, tget, h, eq_comm]
  | cons e t ih =>
    obtain ⟨a, w⟩ := e
    unfold tput
    by_cases h1 : k < a
    · by_cases h : k = j
      · subst h; simp [h1, tget]
      · simp [h1, tget, h, Ne.symm h]
    · by_cases h2 : a = k
      · subst h2
        by_cases h : a = j
        · subst h; simp [tget]
        · simp [tget, h, Ne.symm h]
      · simp only [h1, h2, if_false, tget, ih]
        by_cases h : a = j
        · subst h; simp [h2]
        · simp [h]

variable [DecidableEq α]

/-- A read after a write: the value written at its key, every other key as before. -/
theorem tget_tset (t : Tab α) (k j : Nat) (v d : α) : tget (tset t k v d) j d = if j = k then v else tget t j d := by
  unfold tset
  split
  · rename_i h; rw [tget_terase, h]
  · exact tget_tput t k j v d

@[simp] theorem tget_tset_same (t : Tab α) (k : Nat) (v d : α) : tget (tset t k v d) k d = v := by simp [tget_tset]

theorem tget_tset_ne (t : Tab α) {k j : Nat} (v d d' : α) (h : j ≠ k) : tget (tset t k v d) j d' = tget t j d' := by
  unfold tset
  split
  · rw [tget_terase, if_neg h]
  · rw [tget_tput, if_neg h]

theorem tget_tset_other (t : Tab α) {k j : Nat} (v d : α) (h : j ≠ k) : tget (tset t k v d) j d = tget t j d := by
  simp [tget_tset, h]

theorem twfFrom_mono (d : Nat → α) {lo lo' : Nat} (h : lo' ≤ lo) (t : Tab α) : twfFrom d lo t = true → twfFrom d lo' t = true := by
  cases t with
  | nil => simp [twfFrom]
  | cons e t =>
    obtain ⟨k, v⟩ := e
    simp only [twfFrom, Bool.and_eq_true, decide_eq_true_eq]
    exact fun x => ⟨⟨Nat.le_trans h x.1.1, x.1.2⟩, x.2⟩

theorem twfFrom_terase (d : Nat → α) (t : Tab α) (k : Nat) : ∀ lo, twfFrom d lo t = true → twfFrom d lo (terase t k) = true := by
  induction t with
  | nil => simp [terase, twfFrom]
  | cons e t ih =>
    obtain ⟨a, v⟩ := e
    intro lo h
    simp only [twfFrom, Bool.and_eq_true, decide_eq_true_eq] at h
    by_cases hk : a = k
    · have : terase ((a, v) :: t) k = terase t k := by simp [terase, hk]
      rw [this]
      exact twfFrom_mono d (by omega) _ (ih _ h.2)
    · have : terase ((a, v) :: t) k = (a, v) :: terase t k := by simp [terase, hk]
      rw [this]
      simp only [twfFrom, Bool.and_eq_true, decide_eq_true_eq]
      exact ⟨h.1, ih _ h.2⟩

theorem twfFrom_tput (d : Nat → α) (t : Tab α) (k : Nat) (v : α) (hv : v ≠ d k) :
    ∀ lo, lo ≤ k → twfFrom d lo t = true → twfFrom d lo (tput t k v) = true := by
  induction t with
  | nil => intro lo h _; simp [tput, twfFrom, h, hv]
  | cons e t ih =>
    obtain ⟨a, w⟩ := e
    intro lo h hw
    simp only [twfFrom, Bool.and_eq_true, decide_eq_true_eq] at hw
    unfold tput
    by_cases h1 : k < a
    · simp only [h1, if_true, twfFrom, Bool.and_eq_true, decide_eq_true_eq]
      exact ⟨⟨h, hv⟩, ⟨by omega, hw.1.2⟩, hw.2⟩
    · by_cases h2 : a = k
      · subst h2
        simp only [Nat.lt_irrefl, if_false, if_true, twfFrom, Bool.and_eq_true, decide_eq_true_eq]
        exact ⟨⟨h, hv⟩, hw.2⟩
      · simp only [h1, h2, if_false, twfFrom, Bool.and_eq_true, decide_eq_true_eq]
        exact ⟨hw.1, ih _ (by omega) hw.2⟩

/-- A write keeps the canonical form. -/
theorem twf_tset (d : Nat → α) (t : Tab α) (k : Nat) (v : α) (h : twf d t = true) : twf d (tset t k v (d k)) = true := by
  unfold tset
  split
  · exact twfFrom_terase d t k 0 h
  · rename_i hv; exact twfFrom_tput d t k v hv 0 (Nat.zero_le _) h

/-- A read after every listed value changed, where the change keeps the default. -/
theorem tget_tmap (f : α → α) (d : Nat → α) (t : Tab α) (k : Nat) (h : f (d k) = d k) :
    tget (tmap f d t) k (d k) = f (tget t k (d k)) := by
  induction t with
  | nil => simp [tmap, h]
  | cons e t ih =>
    obtain ⟨a, v⟩ := e
    simp only [tmap, List.foldr_cons] at ih ⊢
    by_cases ha : a = k
    · subst ha; simp [tget]
    · rw [tget_tset_ne _ _ _ _ (Ne.symm ha)]
      simpa [tget, ha, tmap] using ih

theorem twf_tmap (f : α → α) (d : Nat → α) (t : Tab α) : twf d (tmap f d t) = true := by
  induction t with
  | nil => rfl
  | cons e t ih => exact twf_tset d _ e.1 _ ih

/-! ### Byte memory -/

/-- Reading a byte after writing one (04 R92). -/
theorem readByte_writeByte (m : Memory) (a b : Nat) (v : Byte) : readByte (writeByte m a v) b = if b = a then v else readByte m b :=
  tget_tset m a b v Memory.unlisted

theorem writeByte_wf (m : Memory) (a : Nat) (v : Byte) (h : Memory.wf m = true) : Memory.wf (writeByte m a v) = true :=
  twf_tset (fun _ => Memory.unlisted) m a v h

theorem writeBytes_wf (b : List Byte) : ∀ (m : Memory) (a : Nat), Memory.wf m = true → Memory.wf (writeBytes m a b) = true := by
  induction b with
  | nil => intro m a h; exact h
  | cons x b ih => intro m a h; exact ih _ _ (writeByte_wf m a x h)

/-- Bytes outside the range written read as before. -/
theorem readByte_writeBytes_outside (b : List Byte) : ∀ (m : Memory) (a j : Nat), j < a ∨ a + b.length ≤ j →
    readByte (writeBytes m a b) j = readByte m j := by
  induction b with
  | nil => intro m a j _; rfl
  | cons x b ih =>
    intro m a j h
    simp only [List.length_cons] at h
    rw [writeBytes, ih _ _ _ (by omega), readByte_writeByte, if_neg (by omega)]

/-- Bytes inside the range written read as written. -/
theorem readByte_writeBytes_inside (b : List Byte) : ∀ (m : Memory) (a k : Nat) (h : k < b.length),
    readByte (writeBytes m a b) (a + k) = b[k] := by
  induction b with
  | nil => intro m a k h; simp at h
  | cons x b ih =>
    intro m a k h
    rw [writeBytes]
    cases k with
    | zero => rw [readByte_writeBytes_outside _ _ _ _ (by omega), readByte_writeByte, if_pos (by omega)]; rfl
    | succ k =>
      have := ih (writeByte m a x) (a + 1) k (by simpa using h)
      rw [show a + (k + 1) = a + 1 + k by omega, this]; rfl

theorem readBytes_length (m : Memory) (n : Nat) : ∀ a, (readBytes m a n).length = n := by
  induction n with
  | zero => intro a; rfl
  | succ n ih => intro a; simp [readBytes, ih]

/-- Reading back what was written. -/
theorem readBytes_writeBytes (b : List Byte) : ∀ (m : Memory) (a : Nat), readBytes (writeBytes m a b) a b.length = b := by
  induction b with
  | nil => intro m a; rfl
  | cons x b ih =>
    intro m a
    simp only [List.length_cons, readBytes, writeBytes]
    rw [readByte_writeBytes_outside _ _ _ _ (by omega), readByte_writeByte, if_pos rfl, ih]

theorem leBytes_length (n : Nat) : ∀ v, (leBytes n v).length = n := by
  induction n with
  | zero => intro v; rfl
  | succ n ih => intro v; simp [leBytes, ih]

/-- The number of the little-endian bytes of a number (00 R4). -/
theorem leNat_leBytes (n : Nat) : ∀ v, leNat (leBytes n v) = v % 2 ^ (8 * n) := by
  induction n with
  | zero => intro v; simp [leBytes, leNat, Nat.mod_one]
  | succ n ih =>
    intro v
    have e : 2 ^ (8 * (n + 1)) = 256 * 2 ^ (8 * n) := by rw [show 8 * (n + 1) = 8 + 8 * n by omega, Nat.pow_add]
    have h := Nat.mod_mul (x := v) (a := 256) (b := 2 ^ (8 * n))
    simp only [leBytes, leNat, ih, BitVec.toNat_ofNat, e]
    omega

end Sys2Proof.Machine
end

