-- ==== Sys2Proof/Laws/Access.lean ====
section
/-! SUPPORT. Each accessor after its own setter. -/

namespace Sys2Proof.Machine

@[simp] theorem State.islet_setIslet (s : State) (i) (v) : (s.setIslet i v).islet i = v := by
  simp [State.islet, State.setIslet]
@[simp] theorem State.sem_setSem (s : State) (n) (v) : (s.setSem n v).sem n = v := by
  simp [State.sem, State.setSem]
@[simp] theorem State.queue_setQueue (s : State) (c i q) (v) : (s.setQueue c i q v).queue c i q = v := by
  simp [State.queue, State.setQueue]
@[simp] theorem State.ring_setRing (s : State) (c i r) (v) : (s.setRing c i r v).ring c i r = v := by
  simp [State.ring, State.setRing]
@[simp] theorem State.shQueue_setShQueue (s : State) (c i q) (v) : (s.setShQueue c i q v).shQueue c i q = v := by
  simp [State.shQueue, State.setShQueue]
@[simp] theorem State.shRing_setShRing (s : State) (c i r) (v) : (s.setShRing c i r v).shRing c i r = v := by
  simp [State.shRing, State.setShRing]
@[simp] theorem State.teSt_setTeSt (s : State) (c t) (v) : (s.setTeSt c t v).teSt c t = v := by
  simp [State.teSt, State.setTeSt]
@[simp] theorem State.isw_setIsw (s : State) (c i) (v) : (s.setIsw c i v).isw c i = v := by
  simp [State.isw, State.setIsw]
@[simp] theorem State.dram_setDram (s : State) (c) (v) : (s.setDram c v).dram c = v := by
  simp [State.dram, State.setDram]
@[simp] theorem State.due_setDue (s : State) (c x) (v) : (s.setDue c x v).due c x = v := by
  simp [State.due, State.setDue]
@[simp] theorem State.usbSeat_setUsbSeat (s : State) (x) (v) : (s.setUsbSeat x v).usbSeat x = v := by
  simp [State.usbSeat, State.setUsbSeat]
@[simp] theorem State.rootPort_setRootPort (s : State) (x p) (v) : (s.setRootPort x p v).rootPort x p = v := by
  simp [State.rootPort, State.setRootPort]
@[simp] theorem State.link__setLink_ (s : State) (x) (v) : (s.setLink_ x v).link_ x = v := by
  simp [State.link_, State.setLink_]
@[simp] theorem State.seatTime_setSeatTime (s : State) (x) (v) : (s.setSeatTime x v).seatTime x = v := by
  simp [State.seatTime, State.setSeatTime]
@[simp] theorem State.tun_setTun (s : State) (x t) (v) : (s.setTun x t v).tun x t = v := by
  simp [State.tun, State.setTun]
@[simp] theorem State.head_setHead (s : State) (h) (v) : (s.setHead h v).head h = v := by
  simp [State.head, State.setHead]
@[simp] theorem State.view_setView (s : State) (h) (v) : (s.setView h v).view h = v := by
  simp [State.view, State.setView]
@[simp] theorem State.gather_setGather (s : State) (c g) (v) : (s.setGather c g v).gather c g = v := by
  simp [State.gather, State.setGather]
@[simp] theorem State.pipe_setPipe (s : State) (c p) (v) : (s.setPipe c p v).pipe c p = v := by
  simp [State.pipe, State.setPipe]
@[simp] theorem State.seatTraf_setSeatTraf (s : State) (x) (v) : (s.setSeatTraf x v).seatTraf x = v := by
  simp [State.seatTraf, State.setSeatTraf]
@[simp] theorem State.wfq_setWfq (s : State) (x) (v) : (s.setWfq x v).wfq x = v := by
  simp [State.wfq, State.setWfq]
@[simp] theorem State.seatNet_setSeatNet (s : State) (x) (v) : (s.setSeatNet x v).seatNet x = v := by
  simp [State.seatNet, State.setSeatNet]
@[simp] theorem State.demand_setDemand (s : State) (x) (v) : (s.setDemand x v).demand x = v := by
  simp [State.demand, State.setDemand]
@[simp] theorem State.isletTraf_setIsletTraf (s : State) (i) (v) : (s.setIsletTraf i v).isletTraf i = v := by
  simp [State.isletTraf, State.setIsletTraf]
@[simp] theorem State.seatPower_setSeatPower (s : State) (x) (v) : (s.setSeatPower x v).seatPower x = v := by
  simp [State.seatPower, State.setSeatPower]
@[simp] theorem State.dispatch_setDispatch (s : State) (c) (v) : (s.setDispatch c v).dispatch c = v := by
  cases c <;> simp [State.dispatch, State.setDispatch]
@[simp] theorem State.evtCore_setEvtCore (s : State) (c) (v) : (s.setEvtCore c v).evtCore c = v := by
  cases c <;> simp [State.evtCore, State.setEvtCore]
@[simp] theorem State.store_setStore (s : State) (c) (v) : (s.setStore c v).store c = v := by
  cases c <;> simp [State.store, State.setStore]
@[simp] theorem State.powCore_setPowCore (s : State) (c) (v) : (s.setPowCore c v).powCore c = v := by
  cases c <;> simp [State.powCore, State.setPowCore]
@[simp] theorem State.fabCore_setFabCore (s : State) (c) (v) : (s.setFabCore c v).fabCore c = v := by
  cases c <;> simp [State.fabCore, State.setFabCore]
@[simp] theorem State.cntCore_setCntCore (s : State) (c) (v) : (s.setCntCore c v).cntCore c = v := by
  cases c <;> simp [State.cntCore, State.setCntCore]
@[simp] theorem State.coreSt_setCore (s : State) (c) (v) : (s.setCore c v).coreSt c = v := by
  cases c <;> simp [State.coreSt, State.setCore]
@[simp] theorem State.supply_setSupply (s : State) (x) (v) : (s.setSupply x v).supply x = v := by
  cases x <;> simp [State.supply, State.setSupply]
@[simp] theorem State.portSt_setPort (s : State) (p) (v) : (s.setPort p v).portSt p = v := by
  cases p <;> simp [State.portSt, State.setPort]
@[simp] theorem State.fnSt_setFn (s : State) (f v) : (s.setFn f v).fnSt f = v := by
  obtain ⟨p, c⟩ := f; cases p <;> cases c <;> simp [State.fnSt, State.setFn]
@[simp] theorem State.servingCore_setServing (s : State) (x c) : (s.setServing x c).servingCore x = c := by
  simp [State.servingCore, State.setServing]
@[simp] theorem PortSt.cmd_setCmd (p : PortSt) (k v) : (p.setCmd k v).cmd k = v := by cases k <;> rfl
@[simp] theorem State.cmdSt_setCmdSt (s : State) (p k v) : (s.setCmdSt p k v).cmdSt p k = v := by
  simp [State.cmdSt, State.setCmdSt]
@[simp] theorem State.domain_setDomain (s : State) (c d v) : (s.setDomain c d v).domain c d = v := by
  simp [State.domain, State.setDomain]
@[simp] theorem State.fabPort_setFabPort (s : State) (c p v) : (s.setFabPort c p v).fabPort c p = v := by
  simp [State.fabPort, State.setFabPort]

end Sys2Proof.Machine
end

