-- ==== Sys2Proof/Laws/Quiet.lean ====
section
/-! SUPPORT. What the operations that count, raise events and wake domains leave alone: everything but the event
controllers, the power domains and the counters. -/

namespace Sys2Proof.Machine

/-- `t` differs from `s` at most in the event controllers, the power state and the counters. -/
def Quiet (s t : State) : Prop := { t with evt := s.evt, pow := s.pow, cnt := s.cnt } = s

theorem Quiet.rfl' (s : State) : Quiet s s := rfl

theorem Quiet.trans {s t u : State} (h : Quiet s t) (h' : Quiet t u) : Quiet s u := by
  cases s; cases t; cases u
  simp only [Quiet, State.mk.injEq] at *
  simp_all

theorem Quiet.foldl {α : Type} {f : State → α → State} (hf : ∀ s a, Quiet s (f s a)) (l : List α) :
    ∀ s, Quiet s (l.foldl f s) := by
  induction l with
  | nil => exact Quiet.rfl'
  | cons a l ih => intro s; exact (hf s a).trans (ih _)

theorem quiet_setEvtCore (s : State) (c v) : Quiet s (s.setEvtCore c v) := rfl
theorem quiet_setPowCore (s : State) (c v) : Quiet s (s.setPowCore c v) := rfl
theorem quiet_setDomain (s : State) (c d v) : Quiet s (s.setDomain c d v) := rfl
theorem quiet_setCntCore (s : State) (c v) : Quiet s (s.setCntCore c v) := rfl

theorem quiet_startExit (s : State) (c d) : Quiet s (s.startExit c d) := by
  unfold State.startExit; split
  · split <;> rfl
  · rfl

theorem quiet_wake0 (s : State) (c d) : Quiet s (s.wake0 c d).1 := by
  unfold State.wake0
  dsimp only
  split
  · split
    · rfl
    · split
      · split <;> rfl
      · exact quiet_startExit s c d
  · rfl
  · split <;> rfl

theorem quiet_countLatched (s : State) (c) : Quiet s (s.countLatched c) := by
  unfold State.countLatched
  dsimp only
  split
  · apply Quiet.foldl
    intro s a
    split
    · split <;> rfl
    · rfl
  · rfl

theorem quiet_wakeTarget (s : State) (c t) : Quiet s (s.wakeTarget c t) := by
  unfold State.wakeTarget
  split
  · rfl
  · rename_i d _
    dsimp only
    split
    · rfl
    · split
      · rfl
      · split
        · exact (quiet_wake0 s c d).trans ((quiet_setEvtCore _ _ _).trans (quiet_countLatched _ _))
        · exact quiet_wake0 s c d

theorem quiet_edge (s : State) (c n) : Quiet s (s.edge c n) := by
  unfold State.edge
  dsimp only
  split
  · rfl
  · exact (quiet_setEvtCore s c _).trans (quiet_wakeTarget _ _ _)

theorem quiet_privEdge (s : State) (c t k) : Quiet s (s.privEdge c t k) := by
  unfold State.privEdge
  dsimp only
  split
  · rfl
  · exact (quiet_setEvtCore s c _).trans (quiet_wakeTarget _ _ _)

theorem quiet_sample (s : State) (c t a) : Quiet s (s.sample c t a) := by
  unfold State.sample
  split
  · rfl
  · split
    · rfl
    · dsimp only
      exact (quiet_setCntCore s c _).trans (quiet_privEdge _ _ _ _)

theorem quiet_addCounter (s : State) (c n m a) : Quiet s (s.addCounter c n m a) := by
  unfold State.addCounter
  dsimp only
  split
  · rfl
  · split
    · exact (quiet_setCntCore s c _).trans ((quiet_setCntCore _ _ _).trans ((quiet_edge _ _ _).trans (quiet_sample _ _ _ _)))
    · exact (quiet_setCntCore s c _).trans ((quiet_setCntCore _ _ _).trans (quiet_edge _ _ _))

theorem quiet_countAt (s : State) (c ev ctx m a) : Quiet s (s.countAt c ev ctx m a) := by
  unfold State.countAt
  split
  · apply Quiet.foldl
    intro s e
    dsimp only
    split
    · exact quiet_addCounter _ _ _ _ _
    · rfl
  · rfl

theorem quiet_count (s : State) (c ev ctx m) : Quiet s (s.count c ev ctx m) := quiet_countAt _ _ _ _ _ _

theorem quiet_wake (s : State) (c d) : Quiet s (s.wake c d) := by
  unfold State.wake
  dsimp only
  split
  · exact (quiet_wake0 s c d).trans ((quiet_edge _ _ _).trans (quiet_count _ _ _ _ _))
  · exact quiet_wake0 s c d

theorem quiet_latency (s : State) (c i k l) : Quiet s (s.latency c i k l) := by
  unfold State.latency; split <;> rfl

theorem quiet_bumpSeat (s : State) (x k m) : Quiet s (s.bumpSeat x k m) := by
  unfold State.bumpSeat; dsimp only; split <;> rfl

theorem quiet_bumpIslet (s : State) (c i k) : Quiet s (s.bumpIslet c i k) := by
  unfold State.bumpIslet; dsimp only; split <;> rfl

theorem quiet_bwSettle (s : State) (c) : Quiet s (s.bwSettle c) := by
  unfold State.bwSettle; dsimp only
  split
  · rfl
  · split <;> rfl

theorem quiet_bwFollow (s : State) (c) : Quiet s (s.bwFollow c) := by
  unfold State.bwFollow; dsimp only
  split
  · exact quiet_bwSettle s c
  · split
    · exact (quiet_setCntCore s c _).trans ((quiet_bwSettle _ _).trans (quiet_setCntCore _ _ _))
    · rfl

theorem quiet_bwCount (s : State) (c p o b) : Quiet s (s.bwCount c p o b) := by
  unfold State.bwCount; dsimp only
  split
  · exact (quiet_bwSettle s c).trans rfl
  · exact quiet_bwSettle s c

/-! ### The same, field by field -/

theorem Quiet.time {s t : State} (h : Quiet s t) : t.time = s.time := by
  unfold Quiet at h; have e := congrArg State.time h; exact e
theorem Quiet.host {s t : State} (h : Quiet s t) : t.host = s.host := by
  unfold Quiet at h; have e := congrArg State.host h; exact e
theorem Quiet.isl {s t : State} (h : Quiet s t) : t.isl = s.isl := by
  unfold Quiet at h; have e := congrArg State.isl h; exact e
theorem Quiet.wq {s t : State} (h : Quiet s t) : t.wq = s.wq := by
  unfold Quiet at h; have e := congrArg State.wq h; exact e
theorem Quiet.prog {s t : State} (h : Quiet s t) : t.prog = s.prog := by
  unfold Quiet at h; have e := congrArg State.prog h; exact e
theorem Quiet.te {s t : State} (h : Quiet s t) : t.te = s.te := by
  unfold Quiet at h; have e := congrArg State.te h; exact e
theorem Quiet.mem {s t : State} (h : Quiet s t) : t.mem = s.mem := by
  unfold Quiet at h; have e := congrArg State.mem h; exact e
theorem Quiet.usb {s t : State} (h : Quiet s t) : t.usb = s.usb := by
  unfold Quiet at h; have e := congrArg State.usb h; exact e
theorem Quiet.link {s t : State} (h : Quiet s t) : t.link = s.link := by
  unfold Quiet at h; have e := congrArg State.link h; exact e
theorem Quiet.disp {s t : State} (h : Quiet s t) : t.disp = s.disp := by
  unfold Quiet at h; have e := congrArg State.disp h; exact e
theorem Quiet.fab {s t : State} (h : Quiet s t) : t.fab = s.fab := by
  unfold Quiet at h; have e := congrArg State.fab h; exact e
theorem Quiet.traf {s t : State} (h : Quiet s t) : t.traf = s.traf := by
  unfold Quiet at h; have e := congrArg State.traf h; exact e
theorem Quiet.mode {s t : State} (h : Quiet s t) : t.mode = s.mode := by
  unfold Quiet at h; have e := congrArg State.mode h; exact e
theorem Quiet.flt {s t : State} (h : Quiet s t) : t.flt = s.flt := by
  unfold Quiet at h; have e := congrArg State.flt h; exact e
theorem Quiet.svc {s t : State} (h : Quiet s t) : t.svc = s.svc := by
  unfold Quiet at h; have e := congrArg State.svc h; exact e
theorem Quiet.free {s t : State} (h : Quiet s t) : t.free = s.free := by
  unfold Quiet at h; have e := congrArg State.free h; exact e
theorem Quiet.pending {s t : State} (h : Quiet s t) : t.pending = s.pending := by
  unfold Quiet at h; have e := congrArg State.pending h; exact e

@[simp] theorem State.edge_time (s : State) (c n) : (s.edge c n).time = s.time := (quiet_edge s c n).time
@[simp] theorem State.edge_host (s : State) (c n) : (s.edge c n).host = s.host := (quiet_edge s c n).host
@[simp] theorem State.edge_isl (s : State) (c n) : (s.edge c n).isl = s.isl := (quiet_edge s c n).isl
@[simp] theorem State.edge_wq (s : State) (c n) : (s.edge c n).wq = s.wq := (quiet_edge s c n).wq
@[simp] theorem State.edge_prog (s : State) (c n) : (s.edge c n).prog = s.prog := (quiet_edge s c n).prog
@[simp] theorem State.edge_te (s : State) (c n) : (s.edge c n).te = s.te := (quiet_edge s c n).te
@[simp] theorem State.edge_mem (s : State) (c n) : (s.edge c n).mem = s.mem := (quiet_edge s c n).mem
@[simp] theorem State.edge_usb (s : State) (c n) : (s.edge c n).usb = s.usb := (quiet_edge s c n).usb
@[simp] theorem State.edge_link (s : State) (c n) : (s.edge c n).link = s.link := (quiet_edge s c n).link
@[simp] theorem State.edge_disp (s : State) (c n) : (s.edge c n).disp = s.disp := (quiet_edge s c n).disp
@[simp] theorem State.edge_fab (s : State) (c n) : (s.edge c n).fab = s.fab := (quiet_edge s c n).fab
@[simp] theorem State.edge_traf (s : State) (c n) : (s.edge c n).traf = s.traf := (quiet_edge s c n).traf
@[simp] theorem State.edge_mode (s : State) (c n) : (s.edge c n).mode = s.mode := (quiet_edge s c n).mode
@[simp] theorem State.edge_flt (s : State) (c n) : (s.edge c n).flt = s.flt := (quiet_edge s c n).flt
@[simp] theorem State.edge_svc (s : State) (c n) : (s.edge c n).svc = s.svc := (quiet_edge s c n).svc
@[simp] theorem State.edge_free (s : State) (c n) : (s.edge c n).free = s.free := (quiet_edge s c n).free
@[simp] theorem State.edge_pending (s : State) (c n) : (s.edge c n).pending = s.pending := (quiet_edge s c n).pending
@[simp] theorem State.privEdge_time (s : State) (c t k) : (s.privEdge c t k).time = s.time := (quiet_privEdge s c t k).time
@[simp] theorem State.privEdge_host (s : State) (c t k) : (s.privEdge c t k).host = s.host := (quiet_privEdge s c t k).host
@[simp] theorem State.privEdge_isl (s : State) (c t k) : (s.privEdge c t k).isl = s.isl := (quiet_privEdge s c t k).isl
@[simp] theorem State.privEdge_wq (s : State) (c t k) : (s.privEdge c t k).wq = s.wq := (quiet_privEdge s c t k).wq
@[simp] theorem State.privEdge_prog (s : State) (c t k) : (s.privEdge c t k).prog = s.prog := (quiet_privEdge s c t k).prog
@[simp] theorem State.privEdge_te (s : State) (c t k) : (s.privEdge c t k).te = s.te := (quiet_privEdge s c t k).te
@[simp] theorem State.privEdge_mem (s : State) (c t k) : (s.privEdge c t k).mem = s.mem := (quiet_privEdge s c t k).mem
@[simp] theorem State.privEdge_usb (s : State) (c t k) : (s.privEdge c t k).usb = s.usb := (quiet_privEdge s c t k).usb
@[simp] theorem State.privEdge_link (s : State) (c t k) : (s.privEdge c t k).link = s.link := (quiet_privEdge s c t k).link
@[simp] theorem State.privEdge_disp (s : State) (c t k) : (s.privEdge c t k).disp = s.disp := (quiet_privEdge s c t k).disp
@[simp] theorem State.privEdge_fab (s : State) (c t k) : (s.privEdge c t k).fab = s.fab := (quiet_privEdge s c t k).fab
@[simp] theorem State.privEdge_traf (s : State) (c t k) : (s.privEdge c t k).traf = s.traf := (quiet_privEdge s c t k).traf
@[simp] theorem State.privEdge_mode (s : State) (c t k) : (s.privEdge c t k).mode = s.mode := (quiet_privEdge s c t k).mode
@[simp] theorem State.privEdge_flt (s : State) (c t k) : (s.privEdge c t k).flt = s.flt := (quiet_privEdge s c t k).flt
@[simp] theorem State.privEdge_svc (s : State) (c t k) : (s.privEdge c t k).svc = s.svc := (quiet_privEdge s c t k).svc
@[simp] theorem State.privEdge_free (s : State) (c t k) : (s.privEdge c t k).free = s.free := (quiet_privEdge s c t k).free
@[simp] theorem State.privEdge_pending (s : State) (c t k) : (s.privEdge c t k).pending = s.pending := (quiet_privEdge s c t k).pending
@[simp] theorem State.countAt_time (s : State) (c ev ctx m a) : (s.countAt c ev ctx m a).time = s.time := (quiet_countAt s c ev ctx m a).time
@[simp] theorem State.countAt_host (s : State) (c ev ctx m a) : (s.countAt c ev ctx m a).host = s.host := (quiet_countAt s c ev ctx m a).host
@[simp] theorem State.countAt_isl (s : State) (c ev ctx m a) : (s.countAt c ev ctx m a).isl = s.isl := (quiet_countAt s c ev ctx m a).isl
@[simp] theorem State.countAt_wq (s : State) (c ev ctx m a) : (s.countAt c ev ctx m a).wq = s.wq := (quiet_countAt s c ev ctx m a).wq
@[simp] theorem State.countAt_prog (s : State) (c ev ctx m a) : (s.countAt c ev ctx m a).prog = s.prog := (quiet_countAt s c ev ctx m a).prog
@[simp] theorem State.countAt_te (s : State) (c ev ctx m a) : (s.countAt c ev ctx m a).te = s.te := (quiet_countAt s c ev ctx m a).te
@[simp] theorem State.countAt_mem (s : State) (c ev ctx m a) : (s.countAt c ev ctx m a).mem = s.mem := (quiet_countAt s c ev ctx m a).mem
@[simp] theorem State.countAt_usb (s : State) (c ev ctx m a) : (s.countAt c ev ctx m a).usb = s.usb := (quiet_countAt s c ev ctx m a).usb
@[simp] theorem State.countAt_link (s : State) (c ev ctx m a) : (s.countAt c ev ctx m a).link = s.link := (quiet_countAt s c ev ctx m a).link
@[simp] theorem State.countAt_disp (s : State) (c ev ctx m a) : (s.countAt c ev ctx m a).disp = s.disp := (quiet_countAt s c ev ctx m a).disp
@[simp] theorem State.countAt_fab (s : State) (c ev ctx m a) : (s.countAt c ev ctx m a).fab = s.fab := (quiet_countAt s c ev ctx m a).fab
@[simp] theorem State.countAt_traf (s : State) (c ev ctx m a) : (s.countAt c ev ctx m a).traf = s.traf := (quiet_countAt s c ev ctx m a).traf
@[simp] theorem State.countAt_mode (s : State) (c ev ctx m a) : (s.countAt c ev ctx m a).mode = s.mode := (quiet_countAt s c ev ctx m a).mode
@[simp] theorem State.countAt_flt (s : State) (c ev ctx m a) : (s.countAt c ev ctx m a).flt = s.flt := (quiet_countAt s c ev ctx m a).flt
@[simp] theorem State.countAt_svc (s : State) (c ev ctx m a) : (s.countAt c ev ctx m a).svc = s.svc := (quiet_countAt s c ev ctx m a).svc
@[simp] theorem State.countAt_free (s : State) (c ev ctx m a) : (s.countAt c ev ctx m a).free = s.free := (quiet_countAt s c ev ctx m a).free
@[simp] theorem State.countAt_pending (s : State) (c ev ctx m a) : (s.countAt c ev ctx m a).pending = s.pending := (quiet_countAt s c ev ctx m a).pending
@[simp] theorem State.count_time (s : State) (c ev ctx m) : (s.count c ev ctx m).time = s.time := (quiet_count s c ev ctx m).time
@[simp] theorem State.count_host (s : State) (c ev ctx m) : (s.count c ev ctx m).host = s.host := (quiet_count s c ev ctx m).host
@[simp] theorem State.count_isl (s : State) (c ev ctx m) : (s.count c ev ctx m).isl = s.isl := (quiet_count s c ev ctx m).isl
@[simp] theorem State.count_wq (s : State) (c ev ctx m) : (s.count c ev ctx m).wq = s.wq := (quiet_count s c ev ctx m).wq
@[simp] theorem State.count_prog (s : State) (c ev ctx m) : (s.count c ev ctx m).prog = s.prog := (quiet_count s c ev ctx m).prog
@[simp] theorem State.count_te (s : State) (c ev ctx m) : (s.count c ev ctx m).te = s.te := (quiet_count s c ev ctx m).te
@[simp] theorem State.count_mem (s : State) (c ev ctx m) : (s.count c ev ctx m).mem = s.mem := (quiet_count s c ev ctx m).mem
@[simp] theorem State.count_usb (s : State) (c ev ctx m) : (s.count c ev ctx m).usb = s.usb := (quiet_count s c ev ctx m).usb
@[simp] theorem State.count_link (s : State) (c ev ctx m) : (s.count c ev ctx m).link = s.link := (quiet_count s c ev ctx m).link
@[simp] theorem State.count_disp (s : State) (c ev ctx m) : (s.count c ev ctx m).disp = s.disp := (quiet_count s c ev ctx m).disp
@[simp] theorem State.count_fab (s : State) (c ev ctx m) : (s.count c ev ctx m).fab = s.fab := (quiet_count s c ev ctx m).fab
@[simp] theorem State.count_traf (s : State) (c ev ctx m) : (s.count c ev ctx m).traf = s.traf := (quiet_count s c ev ctx m).traf
@[simp] theorem State.count_mode (s : State) (c ev ctx m) : (s.count c ev ctx m).mode = s.mode := (quiet_count s c ev ctx m).mode
@[simp] theorem State.count_flt (s : State) (c ev ctx m) : (s.count c ev ctx m).flt = s.flt := (quiet_count s c ev ctx m).flt
@[simp] theorem State.count_svc (s : State) (c ev ctx m) : (s.count c ev ctx m).svc = s.svc := (quiet_count s c ev ctx m).svc
@[simp] theorem State.count_free (s : State) (c ev ctx m) : (s.count c ev ctx m).free = s.free := (quiet_count s c ev ctx m).free
@[simp] theorem State.count_pending (s : State) (c ev ctx m) : (s.count c ev ctx m).pending = s.pending := (quiet_count s c ev ctx m).pending
@[simp] theorem State.wake_time (s : State) (c d) : (s.wake c d).time = s.time := (quiet_wake s c d).time
@[simp] theorem State.wake_host (s : State) (c d) : (s.wake c d).host = s.host := (quiet_wake s c d).host
@[simp] theorem State.wake_isl (s : State) (c d) : (s.wake c d).isl = s.isl := (quiet_wake s c d).isl
@[simp] theorem State.wake_wq (s : State) (c d) : (s.wake c d).wq = s.wq := (quiet_wake s c d).wq
@[simp] theorem State.wake_prog (s : State) (c d) : (s.wake c d).prog = s.prog := (quiet_wake s c d).prog
@[simp] theorem State.wake_te (s : State) (c d) : (s.wake c d).te = s.te := (quiet_wake s c d).te
@[simp] theorem State.wake_mem (s : State) (c d) : (s.wake c d).mem = s.mem := (quiet_wake s c d).mem
@[simp] theorem State.wake_usb (s : State) (c d) : (s.wake c d).usb = s.usb := (quiet_wake s c d).usb
@[simp] theorem State.wake_link (s : State) (c d) : (s.wake c d).link = s.link := (quiet_wake s c d).link
@[simp] theorem State.wake_disp (s : State) (c d) : (s.wake c d).disp = s.disp := (quiet_wake s c d).disp
@[simp] theorem State.wake_fab (s : State) (c d) : (s.wake c d).fab = s.fab := (quiet_wake s c d).fab
@[simp] theorem State.wake_traf (s : State) (c d) : (s.wake c d).traf = s.traf := (quiet_wake s c d).traf
@[simp] theorem State.wake_mode (s : State) (c d) : (s.wake c d).mode = s.mode := (quiet_wake s c d).mode
@[simp] theorem State.wake_flt (s : State) (c d) : (s.wake c d).flt = s.flt := (quiet_wake s c d).flt
@[simp] theorem State.wake_svc (s : State) (c d) : (s.wake c d).svc = s.svc := (quiet_wake s c d).svc
@[simp] theorem State.wake_free (s : State) (c d) : (s.wake c d).free = s.free := (quiet_wake s c d).free
@[simp] theorem State.wake_pending (s : State) (c d) : (s.wake c d).pending = s.pending := (quiet_wake s c d).pending
@[simp] theorem State.wakeTarget_time (s : State) (c t) : (s.wakeTarget c t).time = s.time := (quiet_wakeTarget s c t).time
@[simp] theorem State.wakeTarget_host (s : State) (c t) : (s.wakeTarget c t).host = s.host := (quiet_wakeTarget s c t).host
@[simp] theorem State.wakeTarget_isl (s : State) (c t) : (s.wakeTarget c t).isl = s.isl := (quiet_wakeTarget s c t).isl
@[simp] theorem State.wakeTarget_wq (s : State) (c t) : (s.wakeTarget c t).wq = s.wq := (quiet_wakeTarget s c t).wq
@[simp] theorem State.wakeTarget_prog (s : State) (c t) : (s.wakeTarget c t).prog = s.prog := (quiet_wakeTarget s c t).prog
@[simp] theorem State.wakeTarget_te (s : State) (c t) : (s.wakeTarget c t).te = s.te := (quiet_wakeTarget s c t).te
@[simp] theorem State.wakeTarget_mem (s : State) (c t) : (s.wakeTarget c t).mem = s.mem := (quiet_wakeTarget s c t).mem
@[simp] theorem State.wakeTarget_usb (s : State) (c t) : (s.wakeTarget c t).usb = s.usb := (quiet_wakeTarget s c t).usb
@[simp] theorem State.wakeTarget_link (s : State) (c t) : (s.wakeTarget c t).link = s.link := (quiet_wakeTarget s c t).link
@[simp] theorem State.wakeTarget_disp (s : State) (c t) : (s.wakeTarget c t).disp = s.disp := (quiet_wakeTarget s c t).disp
@[simp] theorem State.wakeTarget_fab (s : State) (c t) : (s.wakeTarget c t).fab = s.fab := (quiet_wakeTarget s c t).fab
@[simp] theorem State.wakeTarget_traf (s : State) (c t) : (s.wakeTarget c t).traf = s.traf := (quiet_wakeTarget s c t).traf
@[simp] theorem State.wakeTarget_mode (s : State) (c t) : (s.wakeTarget c t).mode = s.mode := (quiet_wakeTarget s c t).mode
@[simp] theorem State.wakeTarget_flt (s : State) (c t) : (s.wakeTarget c t).flt = s.flt := (quiet_wakeTarget s c t).flt
@[simp] theorem State.wakeTarget_svc (s : State) (c t) : (s.wakeTarget c t).svc = s.svc := (quiet_wakeTarget s c t).svc
@[simp] theorem State.wakeTarget_free (s : State) (c t) : (s.wakeTarget c t).free = s.free := (quiet_wakeTarget s c t).free
@[simp] theorem State.wakeTarget_pending (s : State) (c t) : (s.wakeTarget c t).pending = s.pending := (quiet_wakeTarget s c t).pending
@[simp] theorem State.latency_time (s : State) (c i k l) : (s.latency c i k l).time = s.time := (quiet_latency s c i k l).time
@[simp] theorem State.latency_host (s : State) (c i k l) : (s.latency c i k l).host = s.host := (quiet_latency s c i k l).host
@[simp] theorem State.latency_isl (s : State) (c i k l) : (s.latency c i k l).isl = s.isl := (quiet_latency s c i k l).isl
@[simp] theorem State.latency_wq (s : State) (c i k l) : (s.latency c i k l).wq = s.wq := (quiet_latency s c i k l).wq
@[simp] theorem State.latency_prog (s : State) (c i k l) : (s.latency c i k l).prog = s.prog := (quiet_latency s c i k l).prog
@[simp] theorem State.latency_te (s : State) (c i k l) : (s.latency c i k l).te = s.te := (quiet_latency s c i k l).te
@[simp] theorem State.latency_mem (s : State) (c i k l) : (s.latency c i k l).mem = s.mem := (quiet_latency s c i k l).mem
@[simp] theorem State.latency_usb (s : State) (c i k l) : (s.latency c i k l).usb = s.usb := (quiet_latency s c i k l).usb
@[simp] theorem State.latency_link (s : State) (c i k l) : (s.latency c i k l).link = s.link := (quiet_latency s c i k l).link
@[simp] theorem State.latency_disp (s : State) (c i k l) : (s.latency c i k l).disp = s.disp := (quiet_latency s c i k l).disp
@[simp] theorem State.latency_fab (s : State) (c i k l) : (s.latency c i k l).fab = s.fab := (quiet_latency s c i k l).fab
@[simp] theorem State.latency_traf (s : State) (c i k l) : (s.latency c i k l).traf = s.traf := (quiet_latency s c i k l).traf
@[simp] theorem State.latency_mode (s : State) (c i k l) : (s.latency c i k l).mode = s.mode := (quiet_latency s c i k l).mode
@[simp] theorem State.latency_flt (s : State) (c i k l) : (s.latency c i k l).flt = s.flt := (quiet_latency s c i k l).flt
@[simp] theorem State.latency_svc (s : State) (c i k l) : (s.latency c i k l).svc = s.svc := (quiet_latency s c i k l).svc
@[simp] theorem State.latency_free (s : State) (c i k l) : (s.latency c i k l).free = s.free := (quiet_latency s c i k l).free
@[simp] theorem State.latency_pending (s : State) (c i k l) : (s.latency c i k l).pending = s.pending := (quiet_latency s c i k l).pending
@[simp] theorem State.bumpSeat_time (s : State) (x k m) : (s.bumpSeat x k m).time = s.time := (quiet_bumpSeat s x k m).time
@[simp] theorem State.bumpSeat_host (s : State) (x k m) : (s.bumpSeat x k m).host = s.host := (quiet_bumpSeat s x k m).host
@[simp] theorem State.bumpSeat_isl (s : State) (x k m) : (s.bumpSeat x k m).isl = s.isl := (quiet_bumpSeat s x k m).isl
@[simp] theorem State.bumpSeat_wq (s : State) (x k m) : (s.bumpSeat x k m).wq = s.wq := (quiet_bumpSeat s x k m).wq
@[simp] theorem State.bumpSeat_prog (s : State) (x k m) : (s.bumpSeat x k m).prog = s.prog := (quiet_bumpSeat s x k m).prog
@[simp] theorem State.bumpSeat_te (s : State) (x k m) : (s.bumpSeat x k m).te = s.te := (quiet_bumpSeat s x k m).te
@[simp] theorem State.bumpSeat_mem (s : State) (x k m) : (s.bumpSeat x k m).mem = s.mem := (quiet_bumpSeat s x k m).mem
@[simp] theorem State.bumpSeat_usb (s : State) (x k m) : (s.bumpSeat x k m).usb = s.usb := (quiet_bumpSeat s x k m).usb
@[simp] theorem State.bumpSeat_link (s : State) (x k m) : (s.bumpSeat x k m).link = s.link := (quiet_bumpSeat s x k m).link
@[simp] theorem State.bumpSeat_disp (s : State) (x k m) : (s.bumpSeat x k m).disp = s.disp := (quiet_bumpSeat s x k m).disp
@[simp] theorem State.bumpSeat_fab (s : State) (x k m) : (s.bumpSeat x k m).fab = s.fab := (quiet_bumpSeat s x k m).fab
@[simp] theorem State.bumpSeat_traf (s : State) (x k m) : (s.bumpSeat x k m).traf = s.traf := (quiet_bumpSeat s x k m).traf
@[simp] theorem State.bumpSeat_mode (s : State) (x k m) : (s.bumpSeat x k m).mode = s.mode := (quiet_bumpSeat s x k m).mode
@[simp] theorem State.bumpSeat_flt (s : State) (x k m) : (s.bumpSeat x k m).flt = s.flt := (quiet_bumpSeat s x k m).flt
@[simp] theorem State.bumpSeat_svc (s : State) (x k m) : (s.bumpSeat x k m).svc = s.svc := (quiet_bumpSeat s x k m).svc
@[simp] theorem State.bumpSeat_free (s : State) (x k m) : (s.bumpSeat x k m).free = s.free := (quiet_bumpSeat s x k m).free
@[simp] theorem State.bumpSeat_pending (s : State) (x k m) : (s.bumpSeat x k m).pending = s.pending := (quiet_bumpSeat s x k m).pending
@[simp] theorem State.bumpIslet_time (s : State) (c i k) : (s.bumpIslet c i k).time = s.time := (quiet_bumpIslet s c i k).time
@[simp] theorem State.bumpIslet_host (s : State) (c i k) : (s.bumpIslet c i k).host = s.host := (quiet_bumpIslet s c i k).host
@[simp] theorem State.bumpIslet_isl (s : State) (c i k) : (s.bumpIslet c i k).isl = s.isl := (quiet_bumpIslet s c i k).isl
@[simp] theorem State.bumpIslet_wq (s : State) (c i k) : (s.bumpIslet c i k).wq = s.wq := (quiet_bumpIslet s c i k).wq
@[simp] theorem State.bumpIslet_prog (s : State) (c i k) : (s.bumpIslet c i k).prog = s.prog := (quiet_bumpIslet s c i k).prog
@[simp] theorem State.bumpIslet_te (s : State) (c i k) : (s.bumpIslet c i k).te = s.te := (quiet_bumpIslet s c i k).te
@[simp] theorem State.bumpIslet_mem (s : State) (c i k) : (s.bumpIslet c i k).mem = s.mem := (quiet_bumpIslet s c i k).mem
@[simp] theorem State.bumpIslet_usb (s : State) (c i k) : (s.bumpIslet c i k).usb = s.usb := (quiet_bumpIslet s c i k).usb
@[simp] theorem State.bumpIslet_link (s : State) (c i k) : (s.bumpIslet c i k).link = s.link := (quiet_bumpIslet s c i k).link
@[simp] theorem State.bumpIslet_disp (s : State) (c i k) : (s.bumpIslet c i k).disp = s.disp := (quiet_bumpIslet s c i k).disp
@[simp] theorem State.bumpIslet_fab (s : State) (c i k) : (s.bumpIslet c i k).fab = s.fab := (quiet_bumpIslet s c i k).fab
@[simp] theorem State.bumpIslet_traf (s : State) (c i k) : (s.bumpIslet c i k).traf = s.traf := (quiet_bumpIslet s c i k).traf
@[simp] theorem State.bumpIslet_mode (s : State) (c i k) : (s.bumpIslet c i k).mode = s.mode := (quiet_bumpIslet s c i k).mode
@[simp] theorem State.bumpIslet_flt (s : State) (c i k) : (s.bumpIslet c i k).flt = s.flt := (quiet_bumpIslet s c i k).flt
@[simp] theorem State.bumpIslet_svc (s : State) (c i k) : (s.bumpIslet c i k).svc = s.svc := (quiet_bumpIslet s c i k).svc
@[simp] theorem State.bumpIslet_free (s : State) (c i k) : (s.bumpIslet c i k).free = s.free := (quiet_bumpIslet s c i k).free
@[simp] theorem State.bumpIslet_pending (s : State) (c i k) : (s.bumpIslet c i k).pending = s.pending := (quiet_bumpIslet s c i k).pending
@[simp] theorem State.bwSettle_time (s : State) (c) : (s.bwSettle c).time = s.time := (quiet_bwSettle s c).time
@[simp] theorem State.bwSettle_host (s : State) (c) : (s.bwSettle c).host = s.host := (quiet_bwSettle s c).host
@[simp] theorem State.bwSettle_isl (s : State) (c) : (s.bwSettle c).isl = s.isl := (quiet_bwSettle s c).isl
@[simp] theorem State.bwSettle_wq (s : State) (c) : (s.bwSettle c).wq = s.wq := (quiet_bwSettle s c).wq
@[simp] theorem State.bwSettle_prog (s : State) (c) : (s.bwSettle c).prog = s.prog := (quiet_bwSettle s c).prog
@[simp] theorem State.bwSettle_te (s : State) (c) : (s.bwSettle c).te = s.te := (quiet_bwSettle s c).te
@[simp] theorem State.bwSettle_mem (s : State) (c) : (s.bwSettle c).mem = s.mem := (quiet_bwSettle s c).mem
@[simp] theorem State.bwSettle_usb (s : State) (c) : (s.bwSettle c).usb = s.usb := (quiet_bwSettle s c).usb
@[simp] theorem State.bwSettle_link (s : State) (c) : (s.bwSettle c).link = s.link := (quiet_bwSettle s c).link
@[simp] theorem State.bwSettle_disp (s : State) (c) : (s.bwSettle c).disp = s.disp := (quiet_bwSettle s c).disp
@[simp] theorem State.bwSettle_fab (s : State) (c) : (s.bwSettle c).fab = s.fab := (quiet_bwSettle s c).fab
@[simp] theorem State.bwSettle_traf (s : State) (c) : (s.bwSettle c).traf = s.traf := (quiet_bwSettle s c).traf
@[simp] theorem State.bwSettle_mode (s : State) (c) : (s.bwSettle c).mode = s.mode := (quiet_bwSettle s c).mode
@[simp] theorem State.bwSettle_flt (s : State) (c) : (s.bwSettle c).flt = s.flt := (quiet_bwSettle s c).flt
@[simp] theorem State.bwSettle_svc (s : State) (c) : (s.bwSettle c).svc = s.svc := (quiet_bwSettle s c).svc
@[simp] theorem State.bwSettle_free (s : State) (c) : (s.bwSettle c).free = s.free := (quiet_bwSettle s c).free
@[simp] theorem State.bwSettle_pending (s : State) (c) : (s.bwSettle c).pending = s.pending := (quiet_bwSettle s c).pending
@[simp] theorem State.bwCount_time (s : State) (c p o b) : (s.bwCount c p o b).time = s.time := (quiet_bwCount s c p o b).time
@[simp] theorem State.bwCount_host (s : State) (c p o b) : (s.bwCount c p o b).host = s.host := (quiet_bwCount s c p o b).host
@[simp] theorem State.bwCount_isl (s : State) (c p o b) : (s.bwCount c p o b).isl = s.isl := (quiet_bwCount s c p o b).isl
@[simp] theorem State.bwCount_wq (s : State) (c p o b) : (s.bwCount c p o b).wq = s.wq := (quiet_bwCount s c p o b).wq
@[simp] theorem State.bwCount_prog (s : State) (c p o b) : (s.bwCount c p o b).prog = s.prog := (quiet_bwCount s c p o b).prog
@[simp] theorem State.bwCount_te (s : State) (c p o b) : (s.bwCount c p o b).te = s.te := (quiet_bwCount s c p o b).te
@[simp] theorem State.bwCount_mem (s : State) (c p o b) : (s.bwCount c p o b).mem = s.mem := (quiet_bwCount s c p o b).mem
@[simp] theorem State.bwCount_usb (s : State) (c p o b) : (s.bwCount c p o b).usb = s.usb := (quiet_bwCount s c p o b).usb
@[simp] theorem State.bwCount_link (s : State) (c p o b) : (s.bwCount c p o b).link = s.link := (quiet_bwCount s c p o b).link
@[simp] theorem State.bwCount_disp (s : State) (c p o b) : (s.bwCount c p o b).disp = s.disp := (quiet_bwCount s c p o b).disp
@[simp] theorem State.bwCount_fab (s : State) (c p o b) : (s.bwCount c p o b).fab = s.fab := (quiet_bwCount s c p o b).fab
@[simp] theorem State.bwCount_traf (s : State) (c p o b) : (s.bwCount c p o b).traf = s.traf := (quiet_bwCount s c p o b).traf
@[simp] theorem State.bwCount_mode (s : State) (c p o b) : (s.bwCount c p o b).mode = s.mode := (quiet_bwCount s c p o b).mode
@[simp] theorem State.bwCount_flt (s : State) (c p o b) : (s.bwCount c p o b).flt = s.flt := (quiet_bwCount s c p o b).flt
@[simp] theorem State.bwCount_svc (s : State) (c p o b) : (s.bwCount c p o b).svc = s.svc := (quiet_bwCount s c p o b).svc
@[simp] theorem State.bwCount_free (s : State) (c p o b) : (s.bwCount c p o b).free = s.free := (quiet_bwCount s c p o b).free
@[simp] theorem State.bwCount_pending (s : State) (c p o b) : (s.bwCount c p o b).pending = s.pending := (quiet_bwCount s c p o b).pending

end Sys2Proof.Machine
end

