-- ==== Sys2Proof/Laws/Time.lean ====
section
/-! SUPPORT. The passing of unit time (01 R15, R16; 14 R366, R370): what it changes and what it leaves alone. -/

namespace Sys2Proof.Machine

/-- `t` differs from `s` at most in unit time, the TEs, the event controllers, the power state and the counters. -/
def Passes (s t : State) : Prop := { t with time := s.time, te := s.te, evt := s.evt, pow := s.pow, cnt := s.cnt } = s

theorem Quiet.passes {s t : State} (h : Quiet s t) : Passes s t := by
  cases s; cases t
  simp only [Quiet, Passes, State.mk.injEq] at *
  simp_all

theorem Passes.trans {s t u : State} (h : Passes s t) (h' : Passes t u) : Passes s u := by
  cases s; cases t; cases u
  simp only [Passes, State.mk.injEq] at *
  simp_all

theorem Passes.foldl {α : Type} {f : State → α → State} (hf : ∀ s a, Passes s (f s a)) (l : List α) (s : State) :
    Passes s (l.foldl f s) := by
  induction l generalizing s with
  | nil => exact Eq.refl _
  | cons a l ih => exact (hf s a).trans (ih _)

theorem passes_elapse (s : State) (c a b) : Passes s (s.elapseTes c a b) := by
  unfold State.elapseTes
  refine Passes.foldl (fun s e => ?_) _ s
  dsimp only
  split
  · have k : Passes s (s.setTe { s.te with tes := tset s.te.tes e.1 (e.2.elapse a b) TeSt.init }) := Eq.refl _
    split
    · exact k.trans (quiet_countAt _ _ _ _ _ _).passes
    · exact k
  · exact Eq.refl _

theorem passes_advanceCore (s : State) (c ut) : Passes s (s.advanceCore c ut) := by
  unfold State.advanceCore
  dsimp only
  split
  · exact Eq.refl _
  · have m (b : Bool) {x : State} (n : Nat) (h : Passes s x) : Passes s (if b = true then x.count c 0x018 [] n else x) := by
      split
      · exact h.trans (quiet_count _ _ _ _ _).passes
      · exact h
    refine (m _ _ (Passes.trans (Passes.trans ?_ (quiet_count _ _ _ _ _).passes) (passes_elapse _ _ _ _))).trans (quiet_bwFollow _ _).passes
    refine Passes.trans ?_ (quiet_count _ _ _ _ _).passes
    cases c <;> exact Eq.refl _

theorem quiet_freezeNow (s : State) (c) : Quiet s (s.freezeNow c) := by
  unfold State.freezeNow; dsimp only
  split
  · exact quiet_setCntCore _ _ _
  · exact Eq.refl _

theorem passes_arriveCore (s : State) (c ut) : Passes s (s.arriveCore c ut) := by
  unfold State.arriveCore; dsimp only
  split
  · exact (passes_advanceCore _ _ _).trans ((quiet_freezeNow _ _).passes.trans (passes_advanceCore _ _ _))
  · exact passes_advanceCore _ _ _

theorem passes_arrive (s : State) (ut) : Passes s (s.arrive ut) := by
  unfold State.arrive; dsimp only
  split
  · exact Eq.refl _
  · refine Passes.trans (t := s.setTime { s.time with rem := (s.gains (ut - s.ut s.flt.token)).2 }) (Eq.refl _) ?_
    exact (passes_arriveCore _ _ _).trans (passes_arriveCore _ _ _)

/-! ### The same, field by field -/

theorem Passes.host {s t : State} (h : Passes s t) : t.host = s.host := by
  unfold Passes at h; have e := congrArg State.host h; exact e
theorem Passes.isl {s t : State} (h : Passes s t) : t.isl = s.isl := by
  unfold Passes at h; have e := congrArg State.isl h; exact e
theorem Passes.wq {s t : State} (h : Passes s t) : t.wq = s.wq := by
  unfold Passes at h; have e := congrArg State.wq h; exact e
theorem Passes.prog {s t : State} (h : Passes s t) : t.prog = s.prog := by
  unfold Passes at h; have e := congrArg State.prog h; exact e
theorem Passes.mem {s t : State} (h : Passes s t) : t.mem = s.mem := by
  unfold Passes at h; have e := congrArg State.mem h; exact e
theorem Passes.usb {s t : State} (h : Passes s t) : t.usb = s.usb := by
  unfold Passes at h; have e := congrArg State.usb h; exact e
theorem Passes.link {s t : State} (h : Passes s t) : t.link = s.link := by
  unfold Passes at h; have e := congrArg State.link h; exact e
theorem Passes.disp {s t : State} (h : Passes s t) : t.disp = s.disp := by
  unfold Passes at h; have e := congrArg State.disp h; exact e
theorem Passes.fab {s t : State} (h : Passes s t) : t.fab = s.fab := by
  unfold Passes at h; have e := congrArg State.fab h; exact e
theorem Passes.traf {s t : State} (h : Passes s t) : t.traf = s.traf := by
  unfold Passes at h; have e := congrArg State.traf h; exact e
theorem Passes.mode {s t : State} (h : Passes s t) : t.mode = s.mode := by
  unfold Passes at h; have e := congrArg State.mode h; exact e
theorem Passes.flt {s t : State} (h : Passes s t) : t.flt = s.flt := by
  unfold Passes at h; have e := congrArg State.flt h; exact e
theorem Passes.svc {s t : State} (h : Passes s t) : t.svc = s.svc := by
  unfold Passes at h; have e := congrArg State.svc h; exact e
theorem Passes.free {s t : State} (h : Passes s t) : t.free = s.free := by
  unfold Passes at h; have e := congrArg State.free h; exact e
theorem Passes.pending {s t : State} (h : Passes s t) : t.pending = s.pending := by
  unfold Passes at h; have e := congrArg State.pending h; exact e

@[simp] theorem State.arrive_host (s : State) (ut) : (s.arrive ut).host = s.host := (passes_arrive s ut).host
@[simp] theorem State.arrive_isl (s : State) (ut) : (s.arrive ut).isl = s.isl := (passes_arrive s ut).isl
@[simp] theorem State.arrive_wq (s : State) (ut) : (s.arrive ut).wq = s.wq := (passes_arrive s ut).wq
@[simp] theorem State.arrive_prog (s : State) (ut) : (s.arrive ut).prog = s.prog := (passes_arrive s ut).prog
@[simp] theorem State.arrive_mem (s : State) (ut) : (s.arrive ut).mem = s.mem := (passes_arrive s ut).mem
@[simp] theorem State.arrive_usb (s : State) (ut) : (s.arrive ut).usb = s.usb := (passes_arrive s ut).usb
@[simp] theorem State.arrive_link (s : State) (ut) : (s.arrive ut).link = s.link := (passes_arrive s ut).link
@[simp] theorem State.arrive_disp (s : State) (ut) : (s.arrive ut).disp = s.disp := (passes_arrive s ut).disp
@[simp] theorem State.arrive_fab (s : State) (ut) : (s.arrive ut).fab = s.fab := (passes_arrive s ut).fab
@[simp] theorem State.arrive_traf (s : State) (ut) : (s.arrive ut).traf = s.traf := (passes_arrive s ut).traf
@[simp] theorem State.arrive_mode (s : State) (ut) : (s.arrive ut).mode = s.mode := (passes_arrive s ut).mode
@[simp] theorem State.arrive_flt (s : State) (ut) : (s.arrive ut).flt = s.flt := (passes_arrive s ut).flt
@[simp] theorem State.arrive_svc (s : State) (ut) : (s.arrive ut).svc = s.svc := (passes_arrive s ut).svc
@[simp] theorem State.arrive_free (s : State) (ut) : (s.arrive ut).free = s.free := (passes_arrive s ut).free
@[simp] theorem State.arrive_pending (s : State) (ut) : (s.arrive ut).pending = s.pending := (passes_arrive s ut).pending

/-! ### Unit time -/

theorem Quiet.ut {s t : State} (h : Quiet s t) (d : CoreId) : t.ut d = s.ut d := by
  have k (x : State) : x.ut d = (match d with | .a => x.time.utA | .b => x.time.utB) := by cases d <;> rfl
  rw [k, k, h.time]

theorem elapse_ut (s : State) (c a b d) : (s.elapseTes c a b).ut d = s.ut d := by
  unfold State.elapseTes
  suffices h : ∀ (l : Tab TeSt) (x : State), (l.foldl (fun s e =>
      if e.1 / 32 = c.num then
        let s := s.setTe { s.te with tes := tset s.te.tes e.1 (e.2.elapse a b) TeSt.init }
        if e.2.active then s.countAt c 0x012 [(3, e.1 % 32)] (2 * (b - a)) (some (e.2.sampleAt (e.1 % 32))) else s
      else s) x).ut d = x.ut d from h _ _
  intro l
  induction l with
  | nil => exact fun x => Eq.refl _
  | cons e l ih =>
    intro x
    refine (ih _).trans ?_
    dsimp only
    have k : (x.setTe { x.te with tes := tset x.te.tes e.1 (e.2.elapse a b) TeSt.init }).ut d = x.ut d := by cases d <;> rfl
    split
    · split
      · exact ((quiet_countAt _ _ _ _ _ _).ut d).trans k
      · exact k
    · exact Eq.refl _

/-- UT of the core that time passes on: the later of the two times. -/
theorem State.advanceCore_ut (s : State) (c d ut) : (s.advanceCore c ut).ut d = if d = c then max (s.ut d) ut else s.ut d := by
  unfold State.advanceCore
  dsimp only
  split
  · rename_i h
    split
    · rename_i e; subst e; omega
    · exact Eq.refl _
  · rename_i h
    have m (b : Bool) (x : State) (n : Nat) : (if b = true then x.count c 0x018 [] n else x).ut d = x.ut d := by
      split
      · exact (quiet_count _ _ _ _ _).ut d
      · exact Eq.refl _
    rw [(quiet_bwFollow _ _).ut d, m, elapse_ut, (quiet_count _ _ _ _ _).ut d, (quiet_count _ _ _ _ _).ut d]
    cases c <;> cases d <;> simp [State.ut, State.setTime] at h ⊢ <;> omega

theorem State.arriveCore_ut (s : State) (c d ut) : (s.arriveCore c ut).ut d = if d = c then max (s.ut d) ut else s.ut d := by
  unfold State.arriveCore
  dsimp only
  split
  · rename_i h
    have e : (s.cntCore c).freezeUt.toNat ≤ ut := by simp at h; exact h.2
    rw [State.advanceCore_ut, (quiet_freezeNow _ _).ut d, State.advanceCore_ut]
    split <;> omega
  · exact State.advanceCore_ut s c d ut

theorem CoreId.twin_ne (c : CoreId) : c ≠ c.twin := by cases c <;> decide

/-- R15: the time master's UT goes to the time named, and does not decrease. -/
@[simp] theorem State.arrive_now (s : State) (ut) : (s.arrive ut).now = max s.now ut := by
  simp only [State.now, State.arrive_flt]
  unfold State.arrive
  dsimp only
  split
  · omega
  · rw [State.arriveCore_ut, if_neg (CoreId.twin_ne _), State.arriveCore_ut, if_pos (Eq.refl _)]
    cases s.flt.token <;> exact Eq.refl _

/-- R15: neither core's UT decreases. -/
theorem State.le_arrive_ut (s : State) (c ut) : s.ut c ≤ (s.arrive ut).ut c := by
  unfold State.arrive
  dsimp only
  split
  · exact Nat.le_refl _
  · rw [State.arriveCore_ut, State.arriveCore_ut]
    have e : (s.setTime { s.time with rem := (s.gains (ut - s.ut s.flt.token)).2 }).ut c = s.ut c := by cases c <;> exact Eq.refl _
    simp only [e]
    split <;> split <;> omega

end Sys2Proof.Machine
end

