-- ==== Sys2Proof/Laws/Aside.lean ====
section
/-! SUPPORT. What the operations that report leave alone: messages to a manager, the event log and the consoles, the unit's
mode and its reasons, counters, events, wakes and the passing of time. -/

namespace Sys2Proof.Machine

/-- The state with everything that those operations change wiped. -/
def State.aside (s : State) : State :=
  let h : HostSt := { s.host with h0a := FnSt.init, h0b := FnSt.init, h1a := FnSt.init, h1b := FnSt.init, reqs := [] }
  { s with time := State.reset.time, te := State.reset.te, evt := State.reset.evt, pow := State.reset.pow, cnt := State.reset.cnt,
           svc := State.reset.svc, mode := State.reset.mode, host := { h with waiting := [], deficit := [], turn := [], tx := [] } }

/-- `t` differs from `s` at most in what those operations change. -/
def Aside (s t : State) : Prop := t.aside = s.aside

theorem Aside.trans {s t u : State} (h : Aside s t) (h' : Aside t u) : Aside s u := Eq.trans h' h

theorem Aside.foldl {α : Type} {f : State → α → State} (hf : ∀ s a, Aside s (f s a)) (l : List α) : ∀ s, Aside s (l.foldl f s) := by
  induction l with
  | nil => intro s; rfl
  | cons a l ih => intro s; exact (hf s a).trans (ih _)

theorem Aside.isl {s t : State} (h : Aside s t) : t.isl = s.isl := by
  have e := congrArg State.isl (show t.aside = s.aside from h); exact e
theorem Aside.wq {s t : State} (h : Aside s t) : t.wq = s.wq := by
  have e := congrArg State.wq (show t.aside = s.aside from h); exact e
theorem Aside.prog {s t : State} (h : Aside s t) : t.prog = s.prog := by
  have e := congrArg State.prog (show t.aside = s.aside from h); exact e
theorem Aside.mem {s t : State} (h : Aside s t) : t.mem = s.mem := by
  have e := congrArg State.mem (show t.aside = s.aside from h); exact e
theorem Aside.usb {s t : State} (h : Aside s t) : t.usb = s.usb := by
  have e := congrArg State.usb (show t.aside = s.aside from h); exact e
theorem Aside.link {s t : State} (h : Aside s t) : t.link = s.link := by
  have e := congrArg State.link (show t.aside = s.aside from h); exact e
theorem Aside.disp {s t : State} (h : Aside s t) : t.disp = s.disp := by
  have e := congrArg State.disp (show t.aside = s.aside from h); exact e
theorem Aside.fab {s t : State} (h : Aside s t) : t.fab = s.fab := by
  have e := congrArg State.fab (show t.aside = s.aside from h); exact e
theorem Aside.traf {s t : State} (h : Aside s t) : t.traf = s.traf := by
  have e := congrArg State.traf (show t.aside = s.aside from h); exact e
theorem Aside.flt {s t : State} (h : Aside s t) : t.flt = s.flt := by
  have e := congrArg State.flt (show t.aside = s.aside from h); exact e
theorem Aside.free {s t : State} (h : Aside s t) : t.free = s.free := by
  have e := congrArg State.free (show t.aside = s.aside from h); exact e
theorem Aside.pending {s t : State} (h : Aside s t) : t.pending = s.pending := by
  have e := congrArg State.pending (show t.aside = s.aside from h); exact e
theorem Aside.p0 {s t : State} (h : Aside s t) : t.host.p0 = s.host.p0 := by
  have e := congrArg (fun x : State => x.host.p0) (show t.aside = s.aside from h); exact e
theorem Aside.p1 {s t : State} (h : Aside s t) : t.host.p1 = s.host.p1 := by
  have e := congrArg (fun x : State => x.host.p1) (show t.aside = s.aside from h); exact e
theorem Aside.unitIndex {s t : State} (h : Aside s t) : t.host.unitIndex = s.host.unitIndex := by
  have e := congrArg (fun x : State => x.host.unitIndex) (show t.aside = s.aside from h); exact e
theorem Aside.wiring {s t : State} (h : Aside s t) : t.host.wiring = s.host.wiring := by
  have e := congrArg (fun x : State => x.host.wiring) (show t.aside = s.aside from h); exact e
theorem Aside.sems {s t : State} (h : Aside s t) : t.host.sems = s.host.sems := by
  have e := congrArg (fun x : State => x.host.sems) (show t.aside = s.aside from h); exact e
theorem Aside.tieNext {s t : State} (h : Aside s t) : t.host.tieNext = s.host.tieNext := by
  have e := congrArg (fun x : State => x.host.tieNext) (show t.aside = s.aside from h); exact e
theorem Aside.budget {s t : State} (h : Aside s t) : t.host.budget = s.host.budget := by
  have e := congrArg (fun x : State => x.host.budget) (show t.aside = s.aside from h); exact e
theorem Aside.reads {s t : State} (h : Aside s t) : t.host.reads = s.host.reads := by
  have e := congrArg (fun x : State => x.host.reads) (show t.aside = s.aside from h); exact e
theorem Aside.nextRead {s t : State} (h : Aside s t) : t.host.nextRead = s.host.nextRead := by
  have e := congrArg (fun x : State => x.host.nextRead) (show t.aside = s.aside from h); exact e
theorem Aside.lastRead {s t : State} (h : Aside s t) : t.host.lastRead = s.host.lastRead := by
  have e := congrArg (fun x : State => x.host.lastRead) (show t.aside = s.aside from h); exact e
theorem Aside.store {s t : State} (h : Aside s t) : t.host.store = s.host.store := by
  have e := congrArg (fun x : State => x.host.store) (show t.aside = s.aside from h); exact e

theorem Aside.portSt {s t : State} (h : Aside s t) (p : PortId) : t.portSt p = s.portSt p := by
  cases p <;> simp [State.portSt, h.p0, h.p1]
theorem Aside.cmdSt {s t : State} (h : Aside s t) (p : PortId) (k : CmdSet) : t.cmdSt p k = s.cmdSt p k := by
  simp [State.cmdSt, h.portSt p]

theorem Quiet.aside {s t : State} (h : Quiet s t) : Aside s t := by
  simp only [Aside, State.aside, h.host, h.isl, h.wq, h.prog, h.mem, h.usb, h.link, h.disp, h.fab, h.traf, h.flt, h.free, h.pending]

theorem Passes.aside {s t : State} (h : Passes s t) : Aside s t := by
  simp only [Aside, State.aside, h.host, h.isl, h.wq, h.prog, h.mem, h.usb, h.link, h.disp, h.fab, h.traf, h.flt, h.free, h.pending]

theorem aside_arrive (s : State) (ut) : Aside s (s.arrive ut) := (passes_arrive s ut).aside

theorem aside_setFn (s : State) (f v) : Aside s (s.setFn f v) := by
  obtain ⟨p, c⟩ := f; cases p <;> cases c <;> rfl
theorem aside_sendHost (s : State) (x) : Aside s (s.sendHost x) := rfl
theorem aside_issueReq (s : State) (q) : Aside s (s.issueReq q) := by
  unfold State.issueReq; dsimp only
  split
  · exact aside_sendHost s _
  · split
    · rfl
    · exact aside_sendHost s _
theorem aside_request (s : State) (q) : Aside s (s.request q) := by
  unfold State.request; split
  · exact aside_issueReq s q
  · rfl
theorem aside_setMode (s : State) (v) : Aside s (s.setMode v) := rfl
theorem aside_setSvc (s : State) (v) : Aside s (s.setSvc v) := rfl
theorem aside_setTime (s : State) (v) : Aside s (s.setTime v) := rfl
theorem aside_setTe (s : State) (v) : Aside s (s.setTe v) := rfl
theorem aside_setEvt (s : State) (v) : Aside s (s.setEvt v) := rfl
theorem aside_setPow (s : State) (v) : Aside s (s.setPow v) := rfl
theorem aside_setCnt (s : State) (v) : Aside s (s.setCnt v) := rfl
theorem aside_logLine (s : State) (t) : Aside s (s.logLine t) := by
  unfold State.logLine; exact aside_setSvc s _
theorem aside_consolePut (s : State) (t) : Aside s (s.consolePut t) := by
  unfold State.consolePut; exact aside_setSvc s _
theorem aside_consoleOut (s : State) (t) : Aside s (s.consoleOut t) := aside_consolePut s _

theorem aside_msix (s : State) (f v) : Aside s (s.msix f v) := by
  unfold State.msix; split
  · exact aside_request _ _
  · exact aside_setFn _ _ _
theorem aside_msixFor (s : State) (f v) : Aside s (s.msixFor f v) := by
  unfold State.msixFor; split
  · exact aside_msix _ _ _
  · exact aside_setFn _ _ _
theorem aside_managerVectorPort (s : State) (p v) : Aside s (s.managerVectorPort p v) :=
  (aside_msix s _ v).trans (aside_msix _ _ v)
theorem aside_managerVectorUp (s : State) (l v) : Aside s (s.managerVectorUp l v) := by
  unfold State.managerVectorUp
  apply Aside.foldl
  intro s f; split
  · exact aside_msix _ _ _
  · rfl
theorem aside_releaseMsix (s : State) (f) : Aside s (s.releaseMsix f) := by
  unfold State.releaseMsix
  apply Aside.foldl
  intro s e; split
  · exact (aside_setFn s _ _).trans (aside_request _ _)
  · rfl
theorem aside_setModeChange (s : State) : Aside s s.setModeChange := by
  unfold State.setModeChange
  apply Aside.foldl
  intro s f; exact aside_setFn _ _ _
theorem aside_enterMode (s : State) (m) : Aside s (s.enterMode m) := by
  unfold State.enterMode; split
  · rfl
  · exact (aside_setMode s _).trans ((aside_setModeChange _).trans ((quiet_bwSettle _ _).aside.trans ((quiet_bwSettle _ _).aside.trans
      ((aside_logLine _ _).trans (aside_managerVectorUp _ _ _)))))
theorem aside_reMode (s : State) : Aside s s.reMode := by
  unfold State.reMode; split
  · exact aside_enterMode _ _
  · rfl
theorem aside_reasonOn (s : State) (n) : Aside s (s.reasonOn n) := by
  unfold State.reasonOn; dsimp only; split
  · rfl
  · exact (aside_setMode s _).trans ((aside_logLine _ _).trans (aside_managerVectorUp _ _ _))
theorem aside_reasonClear (s : State) (n) : Aside s (s.reasonClear n) := by
  unfold State.reasonClear; split
  · exact (aside_setMode s _).trans (aside_managerVectorUp _ _ _)
  · rfl
theorem aside_reasonOff (s : State) (n) : Aside s (s.reasonOff n) := by
  unfold State.reasonOff; dsimp only; split
  · split
    · rfl
    · split
      · rfl
      · exact (aside_setMode s _).trans (aside_reasonClear _ _)
  · rfl

/-! ### The same, field by field -/

@[simp] theorem State.setFn_isl (s : State) (f v) : (s.setFn f v).isl = s.isl := (aside_setFn s f v).isl
@[simp] theorem State.setFn_wq (s : State) (f v) : (s.setFn f v).wq = s.wq := (aside_setFn s f v).wq
@[simp] theorem State.setFn_prog (s : State) (f v) : (s.setFn f v).prog = s.prog := (aside_setFn s f v).prog
@[simp] theorem State.setFn_mem (s : State) (f v) : (s.setFn f v).mem = s.mem := (aside_setFn s f v).mem
@[simp] theorem State.setFn_usb (s : State) (f v) : (s.setFn f v).usb = s.usb := (aside_setFn s f v).usb
@[simp] theorem State.setFn_link (s : State) (f v) : (s.setFn f v).link = s.link := (aside_setFn s f v).link
@[simp] theorem State.setFn_disp (s : State) (f v) : (s.setFn f v).disp = s.disp := (aside_setFn s f v).disp
@[simp] theorem State.setFn_fab (s : State) (f v) : (s.setFn f v).fab = s.fab := (aside_setFn s f v).fab
@[simp] theorem State.setFn_traf (s : State) (f v) : (s.setFn f v).traf = s.traf := (aside_setFn s f v).traf
@[simp] theorem State.setFn_flt (s : State) (f v) : (s.setFn f v).flt = s.flt := (aside_setFn s f v).flt
@[simp] theorem State.setFn_free (s : State) (f v) : (s.setFn f v).free = s.free := (aside_setFn s f v).free
@[simp] theorem State.setFn_pending (s : State) (f v) : (s.setFn f v).pending = s.pending := (aside_setFn s f v).pending
@[simp] theorem State.setFn_p0 (s : State) (f v) : (s.setFn f v).host.p0 = s.host.p0 := (aside_setFn s f v).p0
@[simp] theorem State.setFn_p1 (s : State) (f v) : (s.setFn f v).host.p1 = s.host.p1 := (aside_setFn s f v).p1
@[simp] theorem State.setFn_unitIndex (s : State) (f v) : (s.setFn f v).host.unitIndex = s.host.unitIndex := (aside_setFn s f v).unitIndex
@[simp] theorem State.setFn_wiring (s : State) (f v) : (s.setFn f v).host.wiring = s.host.wiring := (aside_setFn s f v).wiring
@[simp] theorem State.setFn_sems (s : State) (f v) : (s.setFn f v).host.sems = s.host.sems := (aside_setFn s f v).sems
@[simp] theorem State.setFn_tieNext (s : State) (f v) : (s.setFn f v).host.tieNext = s.host.tieNext := (aside_setFn s f v).tieNext
@[simp] theorem State.setFn_budget (s : State) (f v) : (s.setFn f v).host.budget = s.host.budget := (aside_setFn s f v).budget
@[simp] theorem State.setFn_reads (s : State) (f v) : (s.setFn f v).host.reads = s.host.reads := (aside_setFn s f v).reads
@[simp] theorem State.setFn_nextRead (s : State) (f v) : (s.setFn f v).host.nextRead = s.host.nextRead := (aside_setFn s f v).nextRead
@[simp] theorem State.setFn_lastRead (s : State) (f v) : (s.setFn f v).host.lastRead = s.host.lastRead := (aside_setFn s f v).lastRead
@[simp] theorem State.setFn_store (s : State) (f v) : (s.setFn f v).host.store = s.host.store := (aside_setFn s f v).store
@[simp] theorem State.setFn_portSt (s : State) (f v) (q) : (s.setFn f v).portSt q = s.portSt q := (aside_setFn s f v).portSt q
@[simp] theorem State.setFn_cmdSt (s : State) (f v) (q k) : (s.setFn f v).cmdSt q k = s.cmdSt q k := (aside_setFn s f v).cmdSt q k
@[simp] theorem State.msix_isl (s : State) (f v) : (s.msix f v).isl = s.isl := (aside_msix s f v).isl
@[simp] theorem State.msix_wq (s : State) (f v) : (s.msix f v).wq = s.wq := (aside_msix s f v).wq
@[simp] theorem State.msix_prog (s : State) (f v) : (s.msix f v).prog = s.prog := (aside_msix s f v).prog
@[simp] theorem State.msix_mem (s : State) (f v) : (s.msix f v).mem = s.mem := (aside_msix s f v).mem
@[simp] theorem State.msix_usb (s : State) (f v) : (s.msix f v).usb = s.usb := (aside_msix s f v).usb
@[simp] theorem State.msix_link (s : State) (f v) : (s.msix f v).link = s.link := (aside_msix s f v).link
@[simp] theorem State.msix_disp (s : State) (f v) : (s.msix f v).disp = s.disp := (aside_msix s f v).disp
@[simp] theorem State.msix_fab (s : State) (f v) : (s.msix f v).fab = s.fab := (aside_msix s f v).fab
@[simp] theorem State.msix_traf (s : State) (f v) : (s.msix f v).traf = s.traf := (aside_msix s f v).traf
@[simp] theorem State.msix_flt (s : State) (f v) : (s.msix f v).flt = s.flt := (aside_msix s f v).flt
@[simp] theorem State.msix_free (s : State) (f v) : (s.msix f v).free = s.free := (aside_msix s f v).free
@[simp] theorem State.msix_pending (s : State) (f v) : (s.msix f v).pending = s.pending := (aside_msix s f v).pending
@[simp] theorem State.msix_p0 (s : State) (f v) : (s.msix f v).host.p0 = s.host.p0 := (aside_msix s f v).p0
@[simp] theorem State.msix_p1 (s : State) (f v) : (s.msix f v).host.p1 = s.host.p1 := (aside_msix s f v).p1
@[simp] theorem State.msix_unitIndex (s : State) (f v) : (s.msix f v).host.unitIndex = s.host.unitIndex := (aside_msix s f v).unitIndex
@[simp] theorem State.msix_wiring (s : State) (f v) : (s.msix f v).host.wiring = s.host.wiring := (aside_msix s f v).wiring
@[simp] theorem State.msix_sems (s : State) (f v) : (s.msix f v).host.sems = s.host.sems := (aside_msix s f v).sems
@[simp] theorem State.msix_tieNext (s : State) (f v) : (s.msix f v).host.tieNext = s.host.tieNext := (aside_msix s f v).tieNext
@[simp] theorem State.msix_budget (s : State) (f v) : (s.msix f v).host.budget = s.host.budget := (aside_msix s f v).budget
@[simp] theorem State.msix_reads (s : State) (f v) : (s.msix f v).host.reads = s.host.reads := (aside_msix s f v).reads
@[simp] theorem State.msix_nextRead (s : State) (f v) : (s.msix f v).host.nextRead = s.host.nextRead := (aside_msix s f v).nextRead
@[simp] theorem State.msix_lastRead (s : State) (f v) : (s.msix f v).host.lastRead = s.host.lastRead := (aside_msix s f v).lastRead
@[simp] theorem State.msix_store (s : State) (f v) : (s.msix f v).host.store = s.host.store := (aside_msix s f v).store
@[simp] theorem State.msix_portSt (s : State) (f v) (q) : (s.msix f v).portSt q = s.portSt q := (aside_msix s f v).portSt q
@[simp] theorem State.msix_cmdSt (s : State) (f v) (q k) : (s.msix f v).cmdSt q k = s.cmdSt q k := (aside_msix s f v).cmdSt q k
@[simp] theorem State.msixFor_isl (s : State) (f v) : (s.msixFor f v).isl = s.isl := (aside_msixFor s f v).isl
@[simp] theorem State.msixFor_wq (s : State) (f v) : (s.msixFor f v).wq = s.wq := (aside_msixFor s f v).wq
@[simp] theorem State.msixFor_prog (s : State) (f v) : (s.msixFor f v).prog = s.prog := (aside_msixFor s f v).prog
@[simp] theorem State.msixFor_mem (s : State) (f v) : (s.msixFor f v).mem = s.mem := (aside_msixFor s f v).mem
@[simp] theorem State.msixFor_usb (s : State) (f v) : (s.msixFor f v).usb = s.usb := (aside_msixFor s f v).usb
@[simp] theorem State.msixFor_link (s : State) (f v) : (s.msixFor f v).link = s.link := (aside_msixFor s f v).link
@[simp] theorem State.msixFor_disp (s : State) (f v) : (s.msixFor f v).disp = s.disp := (aside_msixFor s f v).disp
@[simp] theorem State.msixFor_fab (s : State) (f v) : (s.msixFor f v).fab = s.fab := (aside_msixFor s f v).fab
@[simp] theorem State.msixFor_traf (s : State) (f v) : (s.msixFor f v).traf = s.traf := (aside_msixFor s f v).traf
@[simp] theorem State.msixFor_flt (s : State) (f v) : (s.msixFor f v).flt = s.flt := (aside_msixFor s f v).flt
@[simp] theorem State.msixFor_free (s : State) (f v) : (s.msixFor f v).free = s.free := (aside_msixFor s f v).free
@[simp] theorem State.msixFor_pending (s : State) (f v) : (s.msixFor f v).pending = s.pending := (aside_msixFor s f v).pending
@[simp] theorem State.msixFor_p0 (s : State) (f v) : (s.msixFor f v).host.p0 = s.host.p0 := (aside_msixFor s f v).p0
@[simp] theorem State.msixFor_p1 (s : State) (f v) : (s.msixFor f v).host.p1 = s.host.p1 := (aside_msixFor s f v).p1
@[simp] theorem State.msixFor_unitIndex (s : State) (f v) : (s.msixFor f v).host.unitIndex = s.host.unitIndex := (aside_msixFor s f v).unitIndex
@[simp] theorem State.msixFor_wiring (s : State) (f v) : (s.msixFor f v).host.wiring = s.host.wiring := (aside_msixFor s f v).wiring
@[simp] theorem State.msixFor_sems (s : State) (f v) : (s.msixFor f v).host.sems = s.host.sems := (aside_msixFor s f v).sems
@[simp] theorem State.msixFor_tieNext (s : State) (f v) : (s.msixFor f v).host.tieNext = s.host.tieNext := (aside_msixFor s f v).tieNext
@[simp] theorem State.msixFor_budget (s : State) (f v) : (s.msixFor f v).host.budget = s.host.budget := (aside_msixFor s f v).budget
@[simp] theorem State.msixFor_reads (s : State) (f v) : (s.msixFor f v).host.reads = s.host.reads := (aside_msixFor s f v).reads
@[simp] theorem State.msixFor_nextRead (s : State) (f v) : (s.msixFor f v).host.nextRead = s.host.nextRead := (aside_msixFor s f v).nextRead
@[simp] theorem State.msixFor_lastRead (s : State) (f v) : (s.msixFor f v).host.lastRead = s.host.lastRead := (aside_msixFor s f v).lastRead
@[simp] theorem State.msixFor_store (s : State) (f v) : (s.msixFor f v).host.store = s.host.store := (aside_msixFor s f v).store
@[simp] theorem State.msixFor_portSt (s : State) (f v) (q) : (s.msixFor f v).portSt q = s.portSt q := (aside_msixFor s f v).portSt q
@[simp] theorem State.msixFor_cmdSt (s : State) (f v) (q k) : (s.msixFor f v).cmdSt q k = s.cmdSt q k := (aside_msixFor s f v).cmdSt q k
@[simp] theorem State.managerVectorPort_isl (s : State) (p v) : (s.managerVectorPort p v).isl = s.isl := (aside_managerVectorPort s p v).isl
@[simp] theorem State.managerVectorPort_wq (s : State) (p v) : (s.managerVectorPort p v).wq = s.wq := (aside_managerVectorPort s p v).wq
@[simp] theorem State.managerVectorPort_prog (s : State) (p v) : (s.managerVectorPort p v).prog = s.prog := (aside_managerVectorPort s p v).prog
@[simp] theorem State.managerVectorPort_mem (s : State) (p v) : (s.managerVectorPort p v).mem = s.mem := (aside_managerVectorPort s p v).mem
@[simp] theorem State.managerVectorPort_usb (s : State) (p v) : (s.managerVectorPort p v).usb = s.usb := (aside_managerVectorPort s p v).usb
@[simp] theorem State.managerVectorPort_link (s : State) (p v) : (s.managerVectorPort p v).link = s.link := (aside_managerVectorPort s p v).link
@[simp] theorem State.managerVectorPort_disp (s : State) (p v) : (s.managerVectorPort p v).disp = s.disp := (aside_managerVectorPort s p v).disp
@[simp] theorem State.managerVectorPort_fab (s : State) (p v) : (s.managerVectorPort p v).fab = s.fab := (aside_managerVectorPort s p v).fab
@[simp] theorem State.managerVectorPort_traf (s : State) (p v) : (s.managerVectorPort p v).traf = s.traf := (aside_managerVectorPort s p v).traf
@[simp] theorem State.managerVectorPort_flt (s : State) (p v) : (s.managerVectorPort p v).flt = s.flt := (aside_managerVectorPort s p v).flt
@[simp] theorem State.managerVectorPort_free (s : State) (p v) : (s.managerVectorPort p v).free = s.free := (aside_managerVectorPort s p v).free
@[simp] theorem State.managerVectorPort_pending (s : State) (p v) : (s.managerVectorPort p v).pending = s.pending := (aside_managerVectorPort s p v).pending
@[simp] theorem State.managerVectorPort_p0 (s : State) (p v) : (s.managerVectorPort p v).host.p0 = s.host.p0 := (aside_managerVectorPort s p v).p0
@[simp] theorem State.managerVectorPort_p1 (s : State) (p v) : (s.managerVectorPort p v).host.p1 = s.host.p1 := (aside_managerVectorPort s p v).p1
@[simp] theorem State.managerVectorPort_unitIndex (s : State) (p v) : (s.managerVectorPort p v).host.unitIndex = s.host.unitIndex := (aside_managerVectorPort s p v).unitIndex
@[simp] theorem State.managerVectorPort_wiring (s : State) (p v) : (s.managerVectorPort p v).host.wiring = s.host.wiring := (aside_managerVectorPort s p v).wiring
@[simp] theorem State.managerVectorPort_sems (s : State) (p v) : (s.managerVectorPort p v).host.sems = s.host.sems := (aside_managerVectorPort s p v).sems
@[simp] theorem State.managerVectorPort_tieNext (s : State) (p v) : (s.managerVectorPort p v).host.tieNext = s.host.tieNext := (aside_managerVectorPort s p v).tieNext
@[simp] theorem State.managerVectorPort_budget (s : State) (p v) : (s.managerVectorPort p v).host.budget = s.host.budget := (aside_managerVectorPort s p v).budget
@[simp] theorem State.managerVectorPort_reads (s : State) (p v) : (s.managerVectorPort p v).host.reads = s.host.reads := (aside_managerVectorPort s p v).reads
@[simp] theorem State.managerVectorPort_nextRead (s : State) (p v) : (s.managerVectorPort p v).host.nextRead = s.host.nextRead := (aside_managerVectorPort s p v).nextRead
@[simp] theorem State.managerVectorPort_lastRead (s : State) (p v) : (s.managerVectorPort p v).host.lastRead = s.host.lastRead := (aside_managerVectorPort s p v).lastRead
@[simp] theorem State.managerVectorPort_store (s : State) (p v) : (s.managerVectorPort p v).host.store = s.host.store := (aside_managerVectorPort s p v).store
@[simp] theorem State.managerVectorPort_portSt (s : State) (p v) (q) : (s.managerVectorPort p v).portSt q = s.portSt q := (aside_managerVectorPort s p v).portSt q
@[simp] theorem State.managerVectorPort_cmdSt (s : State) (p v) (q k) : (s.managerVectorPort p v).cmdSt q k = s.cmdSt q k := (aside_managerVectorPort s p v).cmdSt q k
@[simp] theorem State.managerVectorUp_isl (s : State) (l v) : (s.managerVectorUp l v).isl = s.isl := (aside_managerVectorUp s l v).isl
@[simp] theorem State.managerVectorUp_wq (s : State) (l v) : (s.managerVectorUp l v).wq = s.wq := (aside_managerVectorUp s l v).wq
@[simp] theorem State.managerVectorUp_prog (s : State) (l v) : (s.managerVectorUp l v).prog = s.prog := (aside_managerVectorUp s l v).prog
@[simp] theorem State.managerVectorUp_mem (s : State) (l v) : (s.managerVectorUp l v).mem = s.mem := (aside_managerVectorUp s l v).mem
@[simp] theorem State.managerVectorUp_usb (s : State) (l v) : (s.managerVectorUp l v).usb = s.usb := (aside_managerVectorUp s l v).usb
@[simp] theorem State.managerVectorUp_link (s : State) (l v) : (s.managerVectorUp l v).link = s.link := (aside_managerVectorUp s l v).link
@[simp] theorem State.managerVectorUp_disp (s : State) (l v) : (s.managerVectorUp l v).disp = s.disp := (aside_managerVectorUp s l v).disp
@[simp] theorem State.managerVectorUp_fab (s : State) (l v) : (s.managerVectorUp l v).fab = s.fab := (aside_managerVectorUp s l v).fab
@[simp] theorem State.managerVectorUp_traf (s : State) (l v) : (s.managerVectorUp l v).traf = s.traf := (aside_managerVectorUp s l v).traf
@[simp] theorem State.managerVectorUp_flt (s : State) (l v) : (s.managerVectorUp l v).flt = s.flt := (aside_managerVectorUp s l v).flt
@[simp] theorem State.managerVectorUp_free (s : State) (l v) : (s.managerVectorUp l v).free = s.free := (aside_managerVectorUp s l v).free
@[simp] theorem State.managerVectorUp_pending (s : State) (l v) : (s.managerVectorUp l v).pending = s.pending := (aside_managerVectorUp s l v).pending
@[simp] theorem State.managerVectorUp_p0 (s : State) (l v) : (s.managerVectorUp l v).host.p0 = s.host.p0 := (aside_managerVectorUp s l v).p0
@[simp] theorem State.managerVectorUp_p1 (s : State) (l v) : (s.managerVectorUp l v).host.p1 = s.host.p1 := (aside_managerVectorUp s l v).p1
@[simp] theorem State.managerVectorUp_unitIndex (s : State) (l v) : (s.managerVectorUp l v).host.unitIndex = s.host.unitIndex := (aside_managerVectorUp s l v).unitIndex
@[simp] theorem State.managerVectorUp_wiring (s : State) (l v) : (s.managerVectorUp l v).host.wiring = s.host.wiring := (aside_managerVectorUp s l v).wiring
@[simp] theorem State.managerVectorUp_sems (s : State) (l v) : (s.managerVectorUp l v).host.sems = s.host.sems := (aside_managerVectorUp s l v).sems
@[simp] theorem State.managerVectorUp_tieNext (s : State) (l v) : (s.managerVectorUp l v).host.tieNext = s.host.tieNext := (aside_managerVectorUp s l v).tieNext
@[simp] theorem State.managerVectorUp_budget (s : State) (l v) : (s.managerVectorUp l v).host.budget = s.host.budget := (aside_managerVectorUp s l v).budget
@[simp] theorem State.managerVectorUp_reads (s : State) (l v) : (s.managerVectorUp l v).host.reads = s.host.reads := (aside_managerVectorUp s l v).reads
@[simp] theorem State.managerVectorUp_nextRead (s : State) (l v) : (s.managerVectorUp l v).host.nextRead = s.host.nextRead := (aside_managerVectorUp s l v).nextRead
@[simp] theorem State.managerVectorUp_lastRead (s : State) (l v) : (s.managerVectorUp l v).host.lastRead = s.host.lastRead := (aside_managerVectorUp s l v).lastRead
@[simp] theorem State.managerVectorUp_store (s : State) (l v) : (s.managerVectorUp l v).host.store = s.host.store := (aside_managerVectorUp s l v).store
@[simp] theorem State.managerVectorUp_portSt (s : State) (l v) (q) : (s.managerVectorUp l v).portSt q = s.portSt q := (aside_managerVectorUp s l v).portSt q
@[simp] theorem State.managerVectorUp_cmdSt (s : State) (l v) (q k) : (s.managerVectorUp l v).cmdSt q k = s.cmdSt q k := (aside_managerVectorUp s l v).cmdSt q k
@[simp] theorem State.releaseMsix_isl (s : State) (f) : (s.releaseMsix f).isl = s.isl := (aside_releaseMsix s f).isl
@[simp] theorem State.releaseMsix_wq (s : State) (f) : (s.releaseMsix f).wq = s.wq := (aside_releaseMsix s f).wq
@[simp] theorem State.releaseMsix_prog (s : State) (f) : (s.releaseMsix f).prog = s.prog := (aside_releaseMsix s f).prog
@[simp] theorem State.releaseMsix_mem (s : State) (f) : (s.releaseMsix f).mem = s.mem := (aside_releaseMsix s f).mem
@[simp] theorem State.releaseMsix_usb (s : State) (f) : (s.releaseMsix f).usb = s.usb := (aside_releaseMsix s f).usb
@[simp] theorem State.releaseMsix_link (s : State) (f) : (s.releaseMsix f).link = s.link := (aside_releaseMsix s f).link
@[simp] theorem State.releaseMsix_disp (s : State) (f) : (s.releaseMsix f).disp = s.disp := (aside_releaseMsix s f).disp
@[simp] theorem State.releaseMsix_fab (s : State) (f) : (s.releaseMsix f).fab = s.fab := (aside_releaseMsix s f).fab
@[simp] theorem State.releaseMsix_traf (s : State) (f) : (s.releaseMsix f).traf = s.traf := (aside_releaseMsix s f).traf
@[simp] theorem State.releaseMsix_flt (s : State) (f) : (s.releaseMsix f).flt = s.flt := (aside_releaseMsix s f).flt
@[simp] theorem State.releaseMsix_free (s : State) (f) : (s.releaseMsix f).free = s.free := (aside_releaseMsix s f).free
@[simp] theorem State.releaseMsix_pending (s : State) (f) : (s.releaseMsix f).pending = s.pending := (aside_releaseMsix s f).pending
@[simp] theorem State.releaseMsix_p0 (s : State) (f) : (s.releaseMsix f).host.p0 = s.host.p0 := (aside_releaseMsix s f).p0
@[simp] theorem State.releaseMsix_p1 (s : State) (f) : (s.releaseMsix f).host.p1 = s.host.p1 := (aside_releaseMsix s f).p1
@[simp] theorem State.releaseMsix_unitIndex (s : State) (f) : (s.releaseMsix f).host.unitIndex = s.host.unitIndex := (aside_releaseMsix s f).unitIndex
@[simp] theorem State.releaseMsix_wiring (s : State) (f) : (s.releaseMsix f).host.wiring = s.host.wiring := (aside_releaseMsix s f).wiring
@[simp] theorem State.releaseMsix_sems (s : State) (f) : (s.releaseMsix f).host.sems = s.host.sems := (aside_releaseMsix s f).sems
@[simp] theorem State.releaseMsix_tieNext (s : State) (f) : (s.releaseMsix f).host.tieNext = s.host.tieNext := (aside_releaseMsix s f).tieNext
@[simp] theorem State.releaseMsix_budget (s : State) (f) : (s.releaseMsix f).host.budget = s.host.budget := (aside_releaseMsix s f).budget
@[simp] theorem State.releaseMsix_reads (s : State) (f) : (s.releaseMsix f).host.reads = s.host.reads := (aside_releaseMsix s f).reads
@[simp] theorem State.releaseMsix_nextRead (s : State) (f) : (s.releaseMsix f).host.nextRead = s.host.nextRead := (aside_releaseMsix s f).nextRead
@[simp] theorem State.releaseMsix_lastRead (s : State) (f) : (s.releaseMsix f).host.lastRead = s.host.lastRead := (aside_releaseMsix s f).lastRead
@[simp] theorem State.releaseMsix_store (s : State) (f) : (s.releaseMsix f).host.store = s.host.store := (aside_releaseMsix s f).store
@[simp] theorem State.releaseMsix_portSt (s : State) (f) (q) : (s.releaseMsix f).portSt q = s.portSt q := (aside_releaseMsix s f).portSt q
@[simp] theorem State.releaseMsix_cmdSt (s : State) (f) (q k) : (s.releaseMsix f).cmdSt q k = s.cmdSt q k := (aside_releaseMsix s f).cmdSt q k
@[simp] theorem State.setModeChange_isl (s : State)  : s.setModeChange.isl = s.isl := (aside_setModeChange s ).isl
@[simp] theorem State.setModeChange_wq (s : State)  : s.setModeChange.wq = s.wq := (aside_setModeChange s ).wq
@[simp] theorem State.setModeChange_prog (s : State)  : s.setModeChange.prog = s.prog := (aside_setModeChange s ).prog
@[simp] theorem State.setModeChange_mem (s : State)  : s.setModeChange.mem = s.mem := (aside_setModeChange s ).mem
@[simp] theorem State.setModeChange_usb (s : State)  : s.setModeChange.usb = s.usb := (aside_setModeChange s ).usb
@[simp] theorem State.setModeChange_link (s : State)  : s.setModeChange.link = s.link := (aside_setModeChange s ).link
@[simp] theorem State.setModeChange_disp (s : State)  : s.setModeChange.disp = s.disp := (aside_setModeChange s ).disp
@[simp] theorem State.setModeChange_fab (s : State)  : s.setModeChange.fab = s.fab := (aside_setModeChange s ).fab
@[simp] theorem State.setModeChange_traf (s : State)  : s.setModeChange.traf = s.traf := (aside_setModeChange s ).traf
@[simp] theorem State.setModeChange_flt (s : State)  : s.setModeChange.flt = s.flt := (aside_setModeChange s ).flt
@[simp] theorem State.setModeChange_free (s : State)  : s.setModeChange.free = s.free := (aside_setModeChange s ).free
@[simp] theorem State.setModeChange_pending (s : State)  : s.setModeChange.pending = s.pending := (aside_setModeChange s ).pending
@[simp] theorem State.setModeChange_p0 (s : State)  : s.setModeChange.host.p0 = s.host.p0 := (aside_setModeChange s ).p0
@[simp] theorem State.setModeChange_p1 (s : State)  : s.setModeChange.host.p1 = s.host.p1 := (aside_setModeChange s ).p1
@[simp] theorem State.setModeChange_unitIndex (s : State)  : s.setModeChange.host.unitIndex = s.host.unitIndex := (aside_setModeChange s ).unitIndex
@[simp] theorem State.setModeChange_wiring (s : State)  : s.setModeChange.host.wiring = s.host.wiring := (aside_setModeChange s ).wiring
@[simp] theorem State.setModeChange_sems (s : State)  : s.setModeChange.host.sems = s.host.sems := (aside_setModeChange s ).sems
@[simp] theorem State.setModeChange_tieNext (s : State)  : s.setModeChange.host.tieNext = s.host.tieNext := (aside_setModeChange s ).tieNext
@[simp] theorem State.setModeChange_budget (s : State)  : s.setModeChange.host.budget = s.host.budget := (aside_setModeChange s ).budget
@[simp] theorem State.setModeChange_reads (s : State)  : s.setModeChange.host.reads = s.host.reads := (aside_setModeChange s ).reads
@[simp] theorem State.setModeChange_nextRead (s : State)  : s.setModeChange.host.nextRead = s.host.nextRead := (aside_setModeChange s ).nextRead
@[simp] theorem State.setModeChange_lastRead (s : State)  : s.setModeChange.host.lastRead = s.host.lastRead := (aside_setModeChange s ).lastRead
@[simp] theorem State.setModeChange_store (s : State)  : s.setModeChange.host.store = s.host.store := (aside_setModeChange s ).store
@[simp] theorem State.setModeChange_portSt (s : State)  (q) : s.setModeChange.portSt q = s.portSt q := (aside_setModeChange s ).portSt q
@[simp] theorem State.setModeChange_cmdSt (s : State)  (q k) : s.setModeChange.cmdSt q k = s.cmdSt q k := (aside_setModeChange s ).cmdSt q k
@[simp] theorem State.enterMode_isl (s : State) (m) : (s.enterMode m).isl = s.isl := (aside_enterMode s m).isl
@[simp] theorem State.enterMode_wq (s : State) (m) : (s.enterMode m).wq = s.wq := (aside_enterMode s m).wq
@[simp] theorem State.enterMode_prog (s : State) (m) : (s.enterMode m).prog = s.prog := (aside_enterMode s m).prog
@[simp] theorem State.enterMode_mem (s : State) (m) : (s.enterMode m).mem = s.mem := (aside_enterMode s m).mem
@[simp] theorem State.enterMode_usb (s : State) (m) : (s.enterMode m).usb = s.usb := (aside_enterMode s m).usb
@[simp] theorem State.enterMode_link (s : State) (m) : (s.enterMode m).link = s.link := (aside_enterMode s m).link
@[simp] theorem State.enterMode_disp (s : State) (m) : (s.enterMode m).disp = s.disp := (aside_enterMode s m).disp
@[simp] theorem State.enterMode_fab (s : State) (m) : (s.enterMode m).fab = s.fab := (aside_enterMode s m).fab
@[simp] theorem State.enterMode_traf (s : State) (m) : (s.enterMode m).traf = s.traf := (aside_enterMode s m).traf
@[simp] theorem State.enterMode_flt (s : State) (m) : (s.enterMode m).flt = s.flt := (aside_enterMode s m).flt
@[simp] theorem State.enterMode_free (s : State) (m) : (s.enterMode m).free = s.free := (aside_enterMode s m).free
@[simp] theorem State.enterMode_pending (s : State) (m) : (s.enterMode m).pending = s.pending := (aside_enterMode s m).pending
@[simp] theorem State.enterMode_p0 (s : State) (m) : (s.enterMode m).host.p0 = s.host.p0 := (aside_enterMode s m).p0
@[simp] theorem State.enterMode_p1 (s : State) (m) : (s.enterMode m).host.p1 = s.host.p1 := (aside_enterMode s m).p1
@[simp] theorem State.enterMode_unitIndex (s : State) (m) : (s.enterMode m).host.unitIndex = s.host.unitIndex := (aside_enterMode s m).unitIndex
@[simp] theorem State.enterMode_wiring (s : State) (m) : (s.enterMode m).host.wiring = s.host.wiring := (aside_enterMode s m).wiring
@[simp] theorem State.enterMode_sems (s : State) (m) : (s.enterMode m).host.sems = s.host.sems := (aside_enterMode s m).sems
@[simp] theorem State.enterMode_tieNext (s : State) (m) : (s.enterMode m).host.tieNext = s.host.tieNext := (aside_enterMode s m).tieNext
@[simp] theorem State.enterMode_budget (s : State) (m) : (s.enterMode m).host.budget = s.host.budget := (aside_enterMode s m).budget
@[simp] theorem State.enterMode_reads (s : State) (m) : (s.enterMode m).host.reads = s.host.reads := (aside_enterMode s m).reads
@[simp] theorem State.enterMode_nextRead (s : State) (m) : (s.enterMode m).host.nextRead = s.host.nextRead := (aside_enterMode s m).nextRead
@[simp] theorem State.enterMode_lastRead (s : State) (m) : (s.enterMode m).host.lastRead = s.host.lastRead := (aside_enterMode s m).lastRead
@[simp] theorem State.enterMode_store (s : State) (m) : (s.enterMode m).host.store = s.host.store := (aside_enterMode s m).store
@[simp] theorem State.enterMode_portSt (s : State) (m) (q) : (s.enterMode m).portSt q = s.portSt q := (aside_enterMode s m).portSt q
@[simp] theorem State.enterMode_cmdSt (s : State) (m) (q k) : (s.enterMode m).cmdSt q k = s.cmdSt q k := (aside_enterMode s m).cmdSt q k
@[simp] theorem State.reMode_isl (s : State)  : s.reMode.isl = s.isl := (aside_reMode s ).isl
@[simp] theorem State.reMode_wq (s : State)  : s.reMode.wq = s.wq := (aside_reMode s ).wq
@[simp] theorem State.reMode_prog (s : State)  : s.reMode.prog = s.prog := (aside_reMode s ).prog
@[simp] theorem State.reMode_mem (s : State)  : s.reMode.mem = s.mem := (aside_reMode s ).mem
@[simp] theorem State.reMode_usb (s : State)  : s.reMode.usb = s.usb := (aside_reMode s ).usb
@[simp] theorem State.reMode_link (s : State)  : s.reMode.link = s.link := (aside_reMode s ).link
@[simp] theorem State.reMode_disp (s : State)  : s.reMode.disp = s.disp := (aside_reMode s ).disp
@[simp] theorem State.reMode_fab (s : State)  : s.reMode.fab = s.fab := (aside_reMode s ).fab
@[simp] theorem State.reMode_traf (s : State)  : s.reMode.traf = s.traf := (aside_reMode s ).traf
@[simp] theorem State.reMode_flt (s : State)  : s.reMode.flt = s.flt := (aside_reMode s ).flt
@[simp] theorem State.reMode_free (s : State)  : s.reMode.free = s.free := (aside_reMode s ).free
@[simp] theorem State.reMode_pending (s : State)  : s.reMode.pending = s.pending := (aside_reMode s ).pending
@[simp] theorem State.reMode_p0 (s : State)  : s.reMode.host.p0 = s.host.p0 := (aside_reMode s ).p0
@[simp] theorem State.reMode_p1 (s : State)  : s.reMode.host.p1 = s.host.p1 := (aside_reMode s ).p1
@[simp] theorem State.reMode_unitIndex (s : State)  : s.reMode.host.unitIndex = s.host.unitIndex := (aside_reMode s ).unitIndex
@[simp] theorem State.reMode_wiring (s : State)  : s.reMode.host.wiring = s.host.wiring := (aside_reMode s ).wiring
@[simp] theorem State.reMode_sems (s : State)  : s.reMode.host.sems = s.host.sems := (aside_reMode s ).sems
@[simp] theorem State.reMode_tieNext (s : State)  : s.reMode.host.tieNext = s.host.tieNext := (aside_reMode s ).tieNext
@[simp] theorem State.reMode_budget (s : State)  : s.reMode.host.budget = s.host.budget := (aside_reMode s ).budget
@[simp] theorem State.reMode_reads (s : State)  : s.reMode.host.reads = s.host.reads := (aside_reMode s ).reads
@[simp] theorem State.reMode_nextRead (s : State)  : s.reMode.host.nextRead = s.host.nextRead := (aside_reMode s ).nextRead
@[simp] theorem State.reMode_lastRead (s : State)  : s.reMode.host.lastRead = s.host.lastRead := (aside_reMode s ).lastRead
@[simp] theorem State.reMode_store (s : State)  : s.reMode.host.store = s.host.store := (aside_reMode s ).store
@[simp] theorem State.reMode_portSt (s : State)  (q) : s.reMode.portSt q = s.portSt q := (aside_reMode s ).portSt q
@[simp] theorem State.reMode_cmdSt (s : State)  (q k) : s.reMode.cmdSt q k = s.cmdSt q k := (aside_reMode s ).cmdSt q k
@[simp] theorem State.reasonOn_isl (s : State) (n) : (s.reasonOn n).isl = s.isl := (aside_reasonOn s n).isl
@[simp] theorem State.reasonOn_wq (s : State) (n) : (s.reasonOn n).wq = s.wq := (aside_reasonOn s n).wq
@[simp] theorem State.reasonOn_prog (s : State) (n) : (s.reasonOn n).prog = s.prog := (aside_reasonOn s n).prog
@[simp] theorem State.reasonOn_mem (s : State) (n) : (s.reasonOn n).mem = s.mem := (aside_reasonOn s n).mem
@[simp] theorem State.reasonOn_usb (s : State) (n) : (s.reasonOn n).usb = s.usb := (aside_reasonOn s n).usb
@[simp] theorem State.reasonOn_link (s : State) (n) : (s.reasonOn n).link = s.link := (aside_reasonOn s n).link
@[simp] theorem State.reasonOn_disp (s : State) (n) : (s.reasonOn n).disp = s.disp := (aside_reasonOn s n).disp
@[simp] theorem State.reasonOn_fab (s : State) (n) : (s.reasonOn n).fab = s.fab := (aside_reasonOn s n).fab
@[simp] theorem State.reasonOn_traf (s : State) (n) : (s.reasonOn n).traf = s.traf := (aside_reasonOn s n).traf
@[simp] theorem State.reasonOn_flt (s : State) (n) : (s.reasonOn n).flt = s.flt := (aside_reasonOn s n).flt
@[simp] theorem State.reasonOn_free (s : State) (n) : (s.reasonOn n).free = s.free := (aside_reasonOn s n).free
@[simp] theorem State.reasonOn_pending (s : State) (n) : (s.reasonOn n).pending = s.pending := (aside_reasonOn s n).pending
@[simp] theorem State.reasonOn_p0 (s : State) (n) : (s.reasonOn n).host.p0 = s.host.p0 := (aside_reasonOn s n).p0
@[simp] theorem State.reasonOn_p1 (s : State) (n) : (s.reasonOn n).host.p1 = s.host.p1 := (aside_reasonOn s n).p1
@[simp] theorem State.reasonOn_unitIndex (s : State) (n) : (s.reasonOn n).host.unitIndex = s.host.unitIndex := (aside_reasonOn s n).unitIndex
@[simp] theorem State.reasonOn_wiring (s : State) (n) : (s.reasonOn n).host.wiring = s.host.wiring := (aside_reasonOn s n).wiring
@[simp] theorem State.reasonOn_sems (s : State) (n) : (s.reasonOn n).host.sems = s.host.sems := (aside_reasonOn s n).sems
@[simp] theorem State.reasonOn_tieNext (s : State) (n) : (s.reasonOn n).host.tieNext = s.host.tieNext := (aside_reasonOn s n).tieNext
@[simp] theorem State.reasonOn_budget (s : State) (n) : (s.reasonOn n).host.budget = s.host.budget := (aside_reasonOn s n).budget
@[simp] theorem State.reasonOn_reads (s : State) (n) : (s.reasonOn n).host.reads = s.host.reads := (aside_reasonOn s n).reads
@[simp] theorem State.reasonOn_nextRead (s : State) (n) : (s.reasonOn n).host.nextRead = s.host.nextRead := (aside_reasonOn s n).nextRead
@[simp] theorem State.reasonOn_lastRead (s : State) (n) : (s.reasonOn n).host.lastRead = s.host.lastRead := (aside_reasonOn s n).lastRead
@[simp] theorem State.reasonOn_store (s : State) (n) : (s.reasonOn n).host.store = s.host.store := (aside_reasonOn s n).store
@[simp] theorem State.reasonOn_portSt (s : State) (n) (q) : (s.reasonOn n).portSt q = s.portSt q := (aside_reasonOn s n).portSt q
@[simp] theorem State.reasonOn_cmdSt (s : State) (n) (q k) : (s.reasonOn n).cmdSt q k = s.cmdSt q k := (aside_reasonOn s n).cmdSt q k
@[simp] theorem State.reasonClear_isl (s : State) (n) : (s.reasonClear n).isl = s.isl := (aside_reasonClear s n).isl
@[simp] theorem State.reasonClear_wq (s : State) (n) : (s.reasonClear n).wq = s.wq := (aside_reasonClear s n).wq
@[simp] theorem State.reasonClear_prog (s : State) (n) : (s.reasonClear n).prog = s.prog := (aside_reasonClear s n).prog
@[simp] theorem State.reasonClear_mem (s : State) (n) : (s.reasonClear n).mem = s.mem := (aside_reasonClear s n).mem
@[simp] theorem State.reasonClear_usb (s : State) (n) : (s.reasonClear n).usb = s.usb := (aside_reasonClear s n).usb
@[simp] theorem State.reasonClear_link (s : State) (n) : (s.reasonClear n).link = s.link := (aside_reasonClear s n).link
@[simp] theorem State.reasonClear_disp (s : State) (n) : (s.reasonClear n).disp = s.disp := (aside_reasonClear s n).disp
@[simp] theorem State.reasonClear_fab (s : State) (n) : (s.reasonClear n).fab = s.fab := (aside_reasonClear s n).fab
@[simp] theorem State.reasonClear_traf (s : State) (n) : (s.reasonClear n).traf = s.traf := (aside_reasonClear s n).traf
@[simp] theorem State.reasonClear_flt (s : State) (n) : (s.reasonClear n).flt = s.flt := (aside_reasonClear s n).flt
@[simp] theorem State.reasonClear_free (s : State) (n) : (s.reasonClear n).free = s.free := (aside_reasonClear s n).free
@[simp] theorem State.reasonClear_pending (s : State) (n) : (s.reasonClear n).pending = s.pending := (aside_reasonClear s n).pending
@[simp] theorem State.reasonClear_p0 (s : State) (n) : (s.reasonClear n).host.p0 = s.host.p0 := (aside_reasonClear s n).p0
@[simp] theorem State.reasonClear_p1 (s : State) (n) : (s.reasonClear n).host.p1 = s.host.p1 := (aside_reasonClear s n).p1
@[simp] theorem State.reasonClear_unitIndex (s : State) (n) : (s.reasonClear n).host.unitIndex = s.host.unitIndex := (aside_reasonClear s n).unitIndex
@[simp] theorem State.reasonClear_wiring (s : State) (n) : (s.reasonClear n).host.wiring = s.host.wiring := (aside_reasonClear s n).wiring
@[simp] theorem State.reasonClear_sems (s : State) (n) : (s.reasonClear n).host.sems = s.host.sems := (aside_reasonClear s n).sems
@[simp] theorem State.reasonClear_tieNext (s : State) (n) : (s.reasonClear n).host.tieNext = s.host.tieNext := (aside_reasonClear s n).tieNext
@[simp] theorem State.reasonClear_budget (s : State) (n) : (s.reasonClear n).host.budget = s.host.budget := (aside_reasonClear s n).budget
@[simp] theorem State.reasonClear_reads (s : State) (n) : (s.reasonClear n).host.reads = s.host.reads := (aside_reasonClear s n).reads
@[simp] theorem State.reasonClear_nextRead (s : State) (n) : (s.reasonClear n).host.nextRead = s.host.nextRead := (aside_reasonClear s n).nextRead
@[simp] theorem State.reasonClear_lastRead (s : State) (n) : (s.reasonClear n).host.lastRead = s.host.lastRead := (aside_reasonClear s n).lastRead
@[simp] theorem State.reasonClear_store (s : State) (n) : (s.reasonClear n).host.store = s.host.store := (aside_reasonClear s n).store
@[simp] theorem State.reasonClear_portSt (s : State) (n) (q) : (s.reasonClear n).portSt q = s.portSt q := (aside_reasonClear s n).portSt q
@[simp] theorem State.reasonClear_cmdSt (s : State) (n) (q k) : (s.reasonClear n).cmdSt q k = s.cmdSt q k := (aside_reasonClear s n).cmdSt q k
@[simp] theorem State.reasonOff_isl (s : State) (n) : (s.reasonOff n).isl = s.isl := (aside_reasonOff s n).isl
@[simp] theorem State.reasonOff_wq (s : State) (n) : (s.reasonOff n).wq = s.wq := (aside_reasonOff s n).wq
@[simp] theorem State.reasonOff_prog (s : State) (n) : (s.reasonOff n).prog = s.prog := (aside_reasonOff s n).prog
@[simp] theorem State.reasonOff_mem (s : State) (n) : (s.reasonOff n).mem = s.mem := (aside_reasonOff s n).mem
@[simp] theorem State.reasonOff_usb (s : State) (n) : (s.reasonOff n).usb = s.usb := (aside_reasonOff s n).usb
@[simp] theorem State.reasonOff_link (s : State) (n) : (s.reasonOff n).link = s.link := (aside_reasonOff s n).link
@[simp] theorem State.reasonOff_disp (s : State) (n) : (s.reasonOff n).disp = s.disp := (aside_reasonOff s n).disp
@[simp] theorem State.reasonOff_fab (s : State) (n) : (s.reasonOff n).fab = s.fab := (aside_reasonOff s n).fab
@[simp] theorem State.reasonOff_traf (s : State) (n) : (s.reasonOff n).traf = s.traf := (aside_reasonOff s n).traf
@[simp] theorem State.reasonOff_flt (s : State) (n) : (s.reasonOff n).flt = s.flt := (aside_reasonOff s n).flt
@[simp] theorem State.reasonOff_free (s : State) (n) : (s.reasonOff n).free = s.free := (aside_reasonOff s n).free
@[simp] theorem State.reasonOff_pending (s : State) (n) : (s.reasonOff n).pending = s.pending := (aside_reasonOff s n).pending
@[simp] theorem State.reasonOff_p0 (s : State) (n) : (s.reasonOff n).host.p0 = s.host.p0 := (aside_reasonOff s n).p0
@[simp] theorem State.reasonOff_p1 (s : State) (n) : (s.reasonOff n).host.p1 = s.host.p1 := (aside_reasonOff s n).p1
@[simp] theorem State.reasonOff_unitIndex (s : State) (n) : (s.reasonOff n).host.unitIndex = s.host.unitIndex := (aside_reasonOff s n).unitIndex
@[simp] theorem State.reasonOff_wiring (s : State) (n) : (s.reasonOff n).host.wiring = s.host.wiring := (aside_reasonOff s n).wiring
@[simp] theorem State.reasonOff_sems (s : State) (n) : (s.reasonOff n).host.sems = s.host.sems := (aside_reasonOff s n).sems
@[simp] theorem State.reasonOff_tieNext (s : State) (n) : (s.reasonOff n).host.tieNext = s.host.tieNext := (aside_reasonOff s n).tieNext
@[simp] theorem State.reasonOff_budget (s : State) (n) : (s.reasonOff n).host.budget = s.host.budget := (aside_reasonOff s n).budget
@[simp] theorem State.reasonOff_reads (s : State) (n) : (s.reasonOff n).host.reads = s.host.reads := (aside_reasonOff s n).reads
@[simp] theorem State.reasonOff_nextRead (s : State) (n) : (s.reasonOff n).host.nextRead = s.host.nextRead := (aside_reasonOff s n).nextRead
@[simp] theorem State.reasonOff_lastRead (s : State) (n) : (s.reasonOff n).host.lastRead = s.host.lastRead := (aside_reasonOff s n).lastRead
@[simp] theorem State.reasonOff_store (s : State) (n) : (s.reasonOff n).host.store = s.host.store := (aside_reasonOff s n).store
@[simp] theorem State.reasonOff_portSt (s : State) (n) (q) : (s.reasonOff n).portSt q = s.portSt q := (aside_reasonOff s n).portSt q
@[simp] theorem State.reasonOff_cmdSt (s : State) (n) (q k) : (s.reasonOff n).cmdSt q k = s.cmdSt q k := (aside_reasonOff s n).cmdSt q k

@[simp] theorem State.arrive_portSt (s : State) (ut p) : (s.arrive ut).portSt p = s.portSt p := (aside_arrive s ut).portSt p
@[simp] theorem State.arrive_cmdSt (s : State) (ut p k) : (s.arrive ut).cmdSt p k = s.cmdSt p k := (aside_arrive s ut).cmdSt p k

@[simp] theorem State.request_mode (s : State) (q) : (s.request q).mode = s.mode := by
  unfold State.request State.issueReq; dsimp only
  split
  · split
    · rfl
    · split <;> rfl
  · rfl
/-- The mode after `enterMode` (12 R318). -/
@[simp] theorem State.managerVectorUp_mode (s : State) (l v) : (s.managerVectorUp l v).mode = s.mode := by
  unfold State.managerVectorUp
  induction l generalizing s with
  | nil => rfl
  | cons f l ih =>
    simp only [List.foldl_cons, ih]
    split
    · unfold State.msix; split
      · exact State.request_mode _ _
      · rfl
    · rfl
@[simp] theorem State.setFn_mode (s : State) (f v) : (s.setFn f v).mode = s.mode := by
  obtain ⟨p, c⟩ := f; cases p <;> cases c <;> rfl
@[simp] theorem State.setModeChange_mode (s : State) : s.setModeChange.mode = s.mode := by
  simp [State.setModeChange, allFns]
@[simp] theorem State.logLine_mode (s : State) (t) : (s.logLine t).mode = s.mode := by
  unfold State.logLine; exact State.setSvc_mode s _
@[simp] theorem State.enterMode_mode (s : State) (m) : (s.enterMode m).mode.mode = m := by
  unfold State.enterMode; split
  · rename_i h; exact h.symm
  · simp

end Sys2Proof.Machine
end

