-- ==== Sys2Proof/Laws/Keep.lean ====
section
/-! SUPPORT. `Keep K s t`: the parts of the state that the bits of `K` name are the same in `t` as in `s`, and, for three
further bits, the memories stay in canonical form and unit time does not go back, or is the same or at 0. One lemma of this form per operation
says what it may change. -/

namespace Sys2Proof.Machine

/-- Part 0 of the state. -/
def State.part0 (x : State) := (x.time.utA, x.time.utB)
/-- Part 1 of the state. -/
def State.part1 (x : State) := (x.host.h0a.regs, x.host.h0b.regs, x.host.h1a.regs, x.host.h1b.regs)
/-- Part 2 of the state. -/
def State.part2 (x : State) := (x.host.p0, x.host.p1)
/-- Part 3 of the state. -/
def State.part3 (x : State) := (x.host.unitIndex, x.host.wiring, x.host.sems, x.host.tieNext, x.host.budget, x.host.store)
/-- Part 4 of the state. -/
def State.part4 (x : State) := (x.host.reads, x.host.lastRead)
/-- Part 5 of the state. -/
def State.part5 (x : State) := x.isl
/-- Part 6 of the state. -/
def State.part6 (x : State) := (x.wq.queues, x.wq.shQueues)
/-- Part 7 of the state. -/
def State.part7 (x : State) := (x.wq.rings, x.wq.shRings)
/-- Part 8 of the state. -/
def State.part8 (x : State) := (x.wq.entries, x.wq.nextHandle)
/-- Part 9 of the state. -/
def State.part9 (x : State) := (x.wq.discards, x.wq.visit)
/-- Part 10 of the state. -/
def State.part10 (x : State) := x.prog
/-- Part 11 of the state. -/
def State.part11 (x : State) := x.te.tes
/-- Part 12 of the state. -/
def State.part12 (x : State) := (x.te.dispA, x.te.dispB)
/-- Part 13 of the state. -/
def State.part13 (x : State) := x.evt
/-- Part 14 of the state. -/
def State.part14 (x : State) := x.mem
/-- Part 15 of the state. -/
def State.part15 (x : State) := x.usb.seats
/-- Part 16 of the state. -/
def State.part16 (x : State) := x.usb.ports
/-- Part 17 of the state. -/
def State.part17 (x : State) := x.usb.eps
/-- Part 18 of the state. -/
def State.part18 (x : State) := x.usb.xfers
/-- Part 19 of the state. -/
def State.part19 (x : State) := x.usb.tts
/-- Part 20 of the state. -/
def State.part20 (x : State) := x.link.seats
/-- Part 21 of the state. -/
def State.part21 (x : State) := x.link.times
/-- Part 22 of the state. -/
def State.part22 (x : State) := x.link.tuns
/-- Part 23 of the state. -/
def State.part23 (x : State) := x.link.keys
/-- Part 24 of the state. -/
def State.part24 (x : State) := x.disp.heads
/-- Part 25 of the state. -/
def State.part25 (x : State) := x.disp.views
/-- Part 26 of the state. -/
def State.part26 (x : State) := (x.disp.gathers, x.disp.pipes)
/-- Part 27 of the state. -/
def State.part27 (x : State) := (x.disp.mirrors, x.disp.twinStores, x.disp.twinParts)
/-- Part 28 of the state. -/
def State.part28 (x : State) := x.disp.configNos
/-- Part 29 of the state. -/
def State.part29 (x : State) := x.fab
/-- Part 30 of the state. -/
def State.part30 (x : State) := x.traf.seats
/-- Part 31 of the state. -/
def State.part31 (x : State) := x.traf.wfq
/-- Part 32 of the state. -/
def State.part32 (x : State) := x.traf.net
/-- Part 33 of the state. -/
def State.part33 (x : State) := x.traf.demand
/-- Part 34 of the state. -/
def State.part34 (x : State) := x.traf.islets
/-- Part 35 of the state. -/
def State.part35 (x : State) := (x.traf.control, x.traf.lastFrame, x.traf.lastUs, x.traf.missed, x.traf.latchedFrame, x.traf.rateDrops)
/-- Part 36 of the state. -/
def State.part36 (x : State) := x.pow.seats
/-- Part 37 of the state. -/
def State.part37 (x : State) := (x.pow.a, x.pow.b)
/-- Part 38 of the state. -/
def State.part38 (x : State) := (x.pow.sa, x.pow.sb, x.pow.budget, x.pow.sheds, x.pow.lastOn, x.pow.hardSince)
/-- Part 39 of the state. -/
def State.part39 (x : State) := x.mode.mode
/-- Part 40 of the state. -/
def State.part40 (x : State) := (x.mode.prev, x.mode.start, x.mode.failCount, x.mode.failedShown, x.mode.onGolden, x.mode.goldenHeld, x.mode.stopCause, x.mode.stopUt, x.mode.stopOff, x.mode.stopHot, x.mode.slot0, x.mode.slot1, x.mode.golden, x.mode.runningA, x.mode.runningB, x.mode.bootSlot, x.mode.verified, x.mode.roll, x.mode.writing, x.mode.lastInput, x.mode.timers, x.mode.junctionA, x.mode.junctionB, x.mode.inlet)
/-- Part 41 of the state. -/
def State.part41 (x : State) := (x.mode.reasons, x.mode.first, x.mode.clearing, x.mode.causes)
/-- Part 42 of the state. -/
def State.part42 (x : State) := (x.flt.a, x.flt.b, x.flt.token, x.flt.refereeLost, x.flt.lanes, x.flt.seats, x.flt.adopt, x.flt.adopted, x.flt.moved, x.flt.buildFrom)
/-- Part 43 of the state. -/
def State.part43 (x : State) := (x.flt.steerPpm, x.flt.utDiff)
/-- Part 44 of the state. -/
def State.part44 (x : State) := (x.flt.logA, x.flt.logB, x.flt.nextA, x.flt.nextB)
/-- Part 45 of the state. -/
def State.part45 (x : State) := x.cnt
/-- Part 46 of the state. -/
def State.part46 (x : State) := x.svc
/-- Part 47 of the state. -/
def State.part47 (x : State) := x.free
/-- Part 48 of the state. -/
def State.part48 (x : State) := x.pending
/-- Part 49 of the state. -/
def State.part49 (x : State) := (x.host.h0a.held, x.host.h0b.held, x.host.h1a.held, x.host.h1b.held)
/-- Part 50 of the state. -/
def State.part50 (x : State) := (x.host.reqs, x.host.nextRead, x.host.waiting, x.host.deficit, x.host.turn, x.host.tx)
/-- Part 51 of the state. -/
def State.part51 (x : State) := x.link.line
/-- Part 52 of the state. -/
def State.part52 (x : State) := x.time.rem

/-- The parts that the bits of `K` name are the same. -/
structure Keep (K : Nat) (s t : State) : Prop where
  time : K.testBit 0 = true → t.part0 = s.part0
  fns : K.testBit 1 = true → t.part1 = s.part1
  ports : K.testBit 2 = true → t.part2 = s.part2
  hcfg : K.testBit 3 = true → t.part3 = s.part3
  reads : K.testBit 4 = true → t.part4 = s.part4
  isl : K.testBit 5 = true → t.part5 = s.part5
  queues : K.testBit 6 = true → t.part6 = s.part6
  rings : K.testBit 7 = true → t.part7 = s.part7
  entries : K.testBit 8 = true → t.part8 = s.part8
  wqRest : K.testBit 9 = true → t.part9 = s.part9
  prog : K.testBit 10 = true → t.part10 = s.part10
  tes : K.testBit 11 = true → t.part11 = s.part11
  sched : K.testBit 12 = true → t.part12 = s.part12
  evt : K.testBit 13 = true → t.part13 = s.part13
  mem : K.testBit 14 = true → t.part14 = s.part14
  usbSeats : K.testBit 15 = true → t.part15 = s.part15
  usbPorts : K.testBit 16 = true → t.part16 = s.part16
  usbEps : K.testBit 17 = true → t.part17 = s.part17
  usbXfers : K.testBit 18 = true → t.part18 = s.part18
  usbTts : K.testBit 19 = true → t.part19 = s.part19
  linkSeats : K.testBit 20 = true → t.part20 = s.part20
  linkTimes : K.testBit 21 = true → t.part21 = s.part21
  linkTuns : K.testBit 22 = true → t.part22 = s.part22
  linkKeys : K.testBit 23 = true → t.part23 = s.part23
  heads : K.testBit 24 = true → t.part24 = s.part24
  views : K.testBit 25 = true → t.part25 = s.part25
  gathers : K.testBit 26 = true → t.part26 = s.part26
  mirrors : K.testBit 27 = true → t.part27 = s.part27
  configNos : K.testBit 28 = true → t.part28 = s.part28
  fab : K.testBit 29 = true → t.part29 = s.part29
  tSeats : K.testBit 30 = true → t.part30 = s.part30
  wfq : K.testBit 31 = true → t.part31 = s.part31
  net : K.testBit 32 = true → t.part32 = s.part32
  demand : K.testBit 33 = true → t.part33 = s.part33
  tIslets : K.testBit 34 = true → t.part34 = s.part34
  tRest : K.testBit 35 = true → t.part35 = s.part35
  pSeats : K.testBit 36 = true → t.part36 = s.part36
  pCores : K.testBit 37 = true → t.part37 = s.part37
  pRest : K.testBit 38 = true → t.part38 = s.part38
  mode0 : K.testBit 39 = true → t.part39 = s.part39
  modeRest : K.testBit 40 = true → t.part40 = s.part40
  reasons : K.testBit 41 = true → t.part41 = s.part41
  fltA : K.testBit 42 = true → t.part42 = s.part42
  fltB : K.testBit 43 = true → t.part43 = s.part43
  logs : K.testBit 44 = true → t.part44 = s.part44
  cnt : K.testBit 45 = true → t.part45 = s.part45
  svc : K.testBit 46 = true → t.part46 = s.part46
  free : K.testBit 47 = true → t.part47 = s.part47
  pending : K.testBit 48 = true → t.part48 = s.part48
  msgs : K.testBit 49 = true → t.part49 = s.part49
  hreq : K.testBit 50 = true → t.part50 = s.part50
  line : K.testBit 51 = true → t.part51 = s.part51
  carry : K.testBit 52 = true → t.part52 = s.part52
  memOk : K.testBit 53 = true → s.mem.wf = true → t.mem.wf = true
  timeUp : K.testBit 54 = true → s.time.utA ≤ t.time.utA ∧ s.time.utB ≤ t.time.utB
  timeOr : K.testBit 55 = true → t.part0 = s.part0 ∨ t.part0 = (0, 0)

theorem Keep.rfl' {K : Nat} {s : State} : Keep K s s := by
  constructor
  case memOk => exact fun _ h => h
  case timeUp => exact fun _ => ⟨Nat.le_refl _, Nat.le_refl _⟩
  case timeOr => exact fun _ => .inl (Eq.refl _)
  all_goals exact fun _ => rfl

theorem Keep.trans {K : Nat} {s t u : State} (h : Keep K s t) (g : Keep K t u) : Keep K s u :=
  ⟨fun k => (g.time k).trans (h.time k), fun k => (g.fns k).trans (h.fns k), fun k => (g.ports k).trans (h.ports k), fun k => (g.hcfg k).trans (h.hcfg k), fun k => (g.reads k).trans (h.reads k), fun k => (g.isl k).trans (h.isl k), fun k => (g.queues k).trans (h.queues k), fun k => (g.rings k).trans (h.rings k), fun k => (g.entries k).trans (h.entries k), fun k => (g.wqRest k).trans (h.wqRest k), fun k => (g.prog k).trans (h.prog k), fun k => (g.tes k).trans (h.tes k), fun k => (g.sched k).trans (h.sched k), fun k => (g.evt k).trans (h.evt k), fun k => (g.mem k).trans (h.mem k), fun k => (g.usbSeats k).trans (h.usbSeats k), fun k => (g.usbPorts k).trans (h.usbPorts k), fun k => (g.usbEps k).trans (h.usbEps k), fun k => (g.usbXfers k).trans (h.usbXfers k), fun k => (g.usbTts k).trans (h.usbTts k), fun k => (g.linkSeats k).trans (h.linkSeats k), fun k => (g.linkTimes k).trans (h.linkTimes k), fun k => (g.linkTuns k).trans (h.linkTuns k), fun k => (g.linkKeys k).trans (h.linkKeys k), fun k => (g.heads k).trans (h.heads k), fun k => (g.views k).trans (h.views k), fun k => (g.gathers k).trans (h.gathers k), fun k => (g.mirrors k).trans (h.mirrors k), fun k => (g.configNos k).trans (h.configNos k), fun k => (g.fab k).trans (h.fab k), fun k => (g.tSeats k).trans (h.tSeats k), fun k => (g.wfq k).trans (h.wfq k), fun k => (g.net k).trans (h.net k), fun k => (g.demand k).trans (h.demand k), fun k => (g.tIslets k).trans (h.tIslets k), fun k => (g.tRest k).trans (h.tRest k), fun k => (g.pSeats k).trans (h.pSeats k), fun k => (g.pCores k).trans (h.pCores k), fun k => (g.pRest k).trans (h.pRest k), fun k => (g.mode0 k).trans (h.mode0 k), fun k => (g.modeRest k).trans (h.modeRest k), fun k => (g.reasons k).trans (h.reasons k), fun k => (g.fltA k).trans (h.fltA k), fun k => (g.fltB k).trans (h.fltB k), fun k => (g.logs k).trans (h.logs k), fun k => (g.cnt k).trans (h.cnt k), fun k => (g.svc k).trans (h.svc k), fun k => (g.free k).trans (h.free k), fun k => (g.pending k).trans (h.pending k), fun k => (g.msgs k).trans (h.msgs k), fun k => (g.hreq k).trans (h.hreq k), fun k => (g.line k).trans (h.line k), fun k => (g.carry k).trans (h.carry k), fun k w => g.memOk k (h.memOk k w), fun k => ⟨Nat.le_trans (h.timeUp k).1 (g.timeUp k).1, Nat.le_trans (h.timeUp k).2 (g.timeUp k).2⟩, fun k => (g.timeOr k).elim (fun a => a ▸ h.timeOr k) .inr⟩

/-- Fewer parts. -/
theorem Keep.weaken {K L : Nat} {s t : State} (e : K &&& L = K) (h : Keep L s t) : Keep K s t := by
  have b (i : Nat) (k : K.testBit i = true) : L.testBit i = true := by
    have := congrArg (·.testBit i) e
    simp only [Nat.testBit_and, k, Bool.true_and] at this
    exact this
  exact ⟨fun k => h.time (b _ k), fun k => h.fns (b _ k), fun k => h.ports (b _ k), fun k => h.hcfg (b _ k), fun k => h.reads (b _ k), fun k => h.isl (b _ k), fun k => h.queues (b _ k), fun k => h.rings (b _ k), fun k => h.entries (b _ k), fun k => h.wqRest (b _ k), fun k => h.prog (b _ k), fun k => h.tes (b _ k), fun k => h.sched (b _ k), fun k => h.evt (b _ k), fun k => h.mem (b _ k), fun k => h.usbSeats (b _ k), fun k => h.usbPorts (b _ k), fun k => h.usbEps (b _ k), fun k => h.usbXfers (b _ k), fun k => h.usbTts (b _ k), fun k => h.linkSeats (b _ k), fun k => h.linkTimes (b _ k), fun k => h.linkTuns (b _ k), fun k => h.linkKeys (b _ k), fun k => h.heads (b _ k), fun k => h.views (b _ k), fun k => h.gathers (b _ k), fun k => h.mirrors (b _ k), fun k => h.configNos (b _ k), fun k => h.fab (b _ k), fun k => h.tSeats (b _ k), fun k => h.wfq (b _ k), fun k => h.net (b _ k), fun k => h.demand (b _ k), fun k => h.tIslets (b _ k), fun k => h.tRest (b _ k), fun k => h.pSeats (b _ k), fun k => h.pCores (b _ k), fun k => h.pRest (b _ k), fun k => h.mode0 (b _ k), fun k => h.modeRest (b _ k), fun k => h.reasons (b _ k), fun k => h.fltA (b _ k), fun k => h.fltB (b _ k), fun k => h.logs (b _ k), fun k => h.cnt (b _ k), fun k => h.svc (b _ k), fun k => h.free (b _ k), fun k => h.pending (b _ k), fun k => h.msgs (b _ k), fun k => h.hreq (b _ k), fun k => h.line (b _ k), fun k => h.carry (b _ k), fun k => h.memOk (b _ k), fun k => h.timeUp (b _ k), fun k => h.timeOr (b _ k)⟩

/-- An operation that keeps the parts of `L`, after a state that keeps those of `K`. -/
theorem Keep.step {K L : Nat} {s x y : State} (hf : Keep L x y) (e : K &&& L = K) (h : Keep K s x) : Keep K s y :=
  h.trans (hf.weaken e)

theorem Keep.ite {K : Nat} {s a b : State} {c : Prop} [Decidable c] (ha : Keep K s a) (hb : Keep K s b) :
    Keep K s (if c then a else b) := by split <;> assumption
theorem Keep.iteFst {K : Nat} {β : Type} {s : State} {a b : State × β} {c : Prop} [Decidable c] (ha : Keep K s a.1) (hb : Keep K s b.1) :
    Keep K s (if c then a else b).1 := by split <;> assumption
theorem Keep.iteSnd {K : Nat} {β : Type} {s : State} {a b : β × State} {c : Prop} [Decidable c] (ha : Keep K s a.2) (hb : Keep K s b.2) :
    Keep K s (if c then a else b).2 := by split <;> assumption

theorem Keep.foldl {K : Nat} {α : Type} {f : State → α → State} {l : List α} {s x : State} (h : Keep K s x)
    (hf : ∀ t a, Keep K t (f t a)) : Keep K s (l.foldl f x) := by
  induction l generalizing x with
  | nil => exact h
  | cons a l ih => exact ih (h.trans (hf x a))

theorem Keep.foldlFst {K : Nat} {α β : Type} {f : State × β → α → State × β} {l : List α} {s : State} {x : State × β} (h : Keep K s x.1)
    (hf : ∀ t a, Keep K t.1 (f t a).1) : Keep K s (l.foldl f x).1 := by
  induction l generalizing x with
  | nil => exact h
  | cons a l ih => exact ih (h.trans (hf x a))

theorem Keep.foldlSnd {K : Nat} {α β : Type} {f : β × State → α → β × State} {l : List α} {s : State} {x : β × State} (h : Keep K s x.2)
    (hf : ∀ t a, Keep K t.2 (f t a).2) : Keep K s (l.foldl f x).2 := by
  induction l generalizing x with
  | nil => exact h
  | cons a l ih => exact ih (h.trans (hf x a))

/-- The same of an optional state. -/
def KeepO (K : Nat) (s : State) (o : Option State) : Prop := ∀ t, o = some t → Keep K s t

theorem KeepO.none {K : Nat} {s : State} : KeepO K s none := by intro t h; cases h
theorem KeepO.some {K : Nat} {s x : State} (h : Keep K s x) : KeepO K s (some x) := by intro t e; cases e; exact h
theorem KeepO.of {K : Nat} {s t : State} {o : Option State} (h : KeepO K s o) (e : o = Option.some t) : Keep K s t := h t e
theorem KeepO.step {K L : Nat} {s x : State} {o : Option State} (hf : KeepO L x o) (e : K &&& L = K) (h : Keep K s x) : KeepO K s o :=
  fun t ht => Keep.step (hf t ht) e h
theorem KeepO.orElse {K : Nat} {s : State} {o : Option State} {g : Unit → Option State} (h : KeepO K s o) (hg : KeepO K s (g ())) :
    KeepO K s (o.orElse g) := by
  cases o with
  | none => exact hg
  | some t => exact h
theorem KeepO.mapAll {K : Nat} {s : State} {α : Type} {o : Option α} {f : α → State} (h : ∀ a, Keep K s (f a)) : KeepO K s (o.map f) := by
  cases o with
  | none => exact KeepO.none
  | some a => exact KeepO.some (h a)
theorem Keep.getD {K : Nat} {s x : State} {o : Option State} (h : KeepO K s o) (g : Keep K s x) : Keep K s (o.getD x) := by
  cases o with
  | none => exact g
  | some t => exact h t rfl

/-- The same of a command's outcome. -/
def KeepX (K : Nat) (s : State) (o : Host.Outcome State Fault Refusal) : Prop := ∀ t, o = .next t → Keep K s t

theorem KeepX.next {K : Nat} {s x : State} (h : Keep K s x) : KeepX K s (.next x) := by intro t e; cases e; exact h
theorem KeepX.step {K L : Nat} {s x : State} {o : Host.Outcome State Fault Refusal} (hf : KeepX L x o) (e : K &&& L = K) (h : Keep K s x) :
    KeepX K s o := fun t ht => Keep.step (hf t ht) e h

theorem Keep.setTime {K : Nat} {s x : State} {v} (h : Keep K s x)
    (h0 : K.testBit 0 = true → (v.utA, v.utB) = (x.time.utA, x.time.utB))
    (h52 : K.testBit 52 = true → v.rem = x.time.rem)
    (hm : K.testBit 54 = true → x.time.utA ≤ v.utA ∧ x.time.utB ≤ v.utB)
    (ho : K.testBit 55 = true → (v.utA, v.utB) = (x.time.utA, x.time.utB) ∨ (v.utA, v.utB) = (0, 0)) :
    Keep K s (x.setTime v) :=
  ⟨fun k => Eq.trans (h0 k) (h.time k), h.fns, h.ports, h.hcfg, h.reads, h.isl, h.queues, h.rings, h.entries, h.wqRest, h.prog, h.tes, h.sched, h.evt, h.mem, h.usbSeats, h.usbPorts, h.usbEps, h.usbXfers, h.usbTts, h.linkSeats, h.linkTimes, h.linkTuns, h.linkKeys, h.heads, h.views, h.gathers, h.mirrors, h.configNos, h.fab, h.tSeats, h.wfq, h.net, h.demand, h.tIslets, h.tRest, h.pSeats, h.pCores, h.pRest, h.mode0, h.modeRest, h.reasons, h.fltA, h.fltB, h.logs, h.cnt, h.svc, h.free, h.pending, h.msgs, h.hreq, h.line, fun k => Eq.trans (h52 k) (h.carry k), h.memOk, fun k => ⟨Nat.le_trans (h.timeUp k).1 (hm k).1, Nat.le_trans (h.timeUp k).2 (hm k).2⟩, fun k => (ho k).elim (fun a => (h.timeOr k).imp (Eq.trans a) (Eq.trans a)) .inr⟩

theorem Keep.setHost {K : Nat} {s x : State} {v} (h : Keep K s x)
    (h1 : K.testBit 1 = true → (v.h0a.regs, v.h0b.regs, v.h1a.regs, v.h1b.regs) = (x.host.h0a.regs, x.host.h0b.regs, x.host.h1a.regs, x.host.h1b.regs))
    (h2 : K.testBit 2 = true → (v.p0, v.p1) = (x.host.p0, x.host.p1))
    (h3 : K.testBit 3 = true → (v.unitIndex, v.wiring, v.sems, v.tieNext, v.budget, v.store) = (x.host.unitIndex, x.host.wiring, x.host.sems, x.host.tieNext, x.host.budget, x.host.store))
    (h4 : K.testBit 4 = true → (v.reads, v.lastRead) = (x.host.reads, x.host.lastRead))
    (h49 : K.testBit 49 = true → (v.h0a.held, v.h0b.held, v.h1a.held, v.h1b.held) = (x.host.h0a.held, x.host.h0b.held, x.host.h1a.held, x.host.h1b.held))
    (h50 : K.testBit 50 = true → (v.reqs, v.nextRead, v.waiting, v.deficit, v.turn, v.tx) = (x.host.reqs, x.host.nextRead, x.host.waiting, x.host.deficit, x.host.turn, x.host.tx)) :
    Keep K s (x.setHost v) :=
  ⟨h.time, fun k => Eq.trans (h1 k) (h.fns k), fun k => Eq.trans (h2 k) (h.ports k), fun k => Eq.trans (h3 k) (h.hcfg k), fun k => Eq.trans (h4 k) (h.reads k), h.isl, h.queues, h.rings, h.entries, h.wqRest, h.prog, h.tes, h.sched, h.evt, h.mem, h.usbSeats, h.usbPorts, h.usbEps, h.usbXfers, h.usbTts, h.linkSeats, h.linkTimes, h.linkTuns, h.linkKeys, h.heads, h.views, h.gathers, h.mirrors, h.configNos, h.fab, h.tSeats, h.wfq, h.net, h.demand, h.tIslets, h.tRest, h.pSeats, h.pCores, h.pRest, h.mode0, h.modeRest, h.reasons, h.fltA, h.fltB, h.logs, h.cnt, h.svc, h.free, h.pending, fun k => Eq.trans (h49 k) (h.msgs k), fun k => Eq.trans (h50 k) (h.hreq k), h.line, h.carry, h.memOk, h.timeUp, h.timeOr⟩

theorem Keep.setIsl {K : Nat} {s x : State} {v} (h : Keep K s x)
    (h5 : K.testBit 5 = false) :
    Keep K s (x.setIsl v) :=
  ⟨h.time, h.fns, h.ports, h.hcfg, h.reads, fun k => absurd k (by simp [h5]), h.queues, h.rings, h.entries, h.wqRest, h.prog, h.tes, h.sched, h.evt, h.mem, h.usbSeats, h.usbPorts, h.usbEps, h.usbXfers, h.usbTts, h.linkSeats, h.linkTimes, h.linkTuns, h.linkKeys, h.heads, h.views, h.gathers, h.mirrors, h.configNos, h.fab, h.tSeats, h.wfq, h.net, h.demand, h.tIslets, h.tRest, h.pSeats, h.pCores, h.pRest, h.mode0, h.modeRest, h.reasons, h.fltA, h.fltB, h.logs, h.cnt, h.svc, h.free, h.pending, h.msgs, h.hreq, h.line, h.carry, h.memOk, h.timeUp, h.timeOr⟩

theorem Keep.setWq {K : Nat} {s x : State} {v} (h : Keep K s x)
    (h6 : K.testBit 6 = true → (v.queues, v.shQueues) = (x.wq.queues, x.wq.shQueues))
    (h7 : K.testBit 7 = true → (v.rings, v.shRings) = (x.wq.rings, x.wq.shRings))
    (h8 : K.testBit 8 = true → (v.entries, v.nextHandle) = (x.wq.entries, x.wq.nextHandle))
    (h9 : K.testBit 9 = true → (v.discards, v.visit) = (x.wq.discards, x.wq.visit)) :
    Keep K s (x.setWq v) :=
  ⟨h.time, h.fns, h.ports, h.hcfg, h.reads, h.isl, fun k => Eq.trans (h6 k) (h.queues k), fun k => Eq.trans (h7 k) (h.rings k), fun k => Eq.trans (h8 k) (h.entries k), fun k => Eq.trans (h9 k) (h.wqRest k), h.prog, h.tes, h.sched, h.evt, h.mem, h.usbSeats, h.usbPorts, h.usbEps, h.usbXfers, h.usbTts, h.linkSeats, h.linkTimes, h.linkTuns, h.linkKeys, h.heads, h.views, h.gathers, h.mirrors, h.configNos, h.fab, h.tSeats, h.wfq, h.net, h.demand, h.tIslets, h.tRest, h.pSeats, h.pCores, h.pRest, h.mode0, h.modeRest, h.reasons, h.fltA, h.fltB, h.logs, h.cnt, h.svc, h.free, h.pending, h.msgs, h.hreq, h.line, h.carry, h.memOk, h.timeUp, h.timeOr⟩

theorem Keep.setProg {K : Nat} {s x : State} {v} (h : Keep K s x)
    (h10 : K.testBit 10 = false) :
    Keep K s (x.setProg v) :=
  ⟨h.time, h.fns, h.ports, h.hcfg, h.reads, h.isl, h.queues, h.rings, h.entries, h.wqRest, fun k => absurd k (by simp [h10]), h.tes, h.sched, h.evt, h.mem, h.usbSeats, h.usbPorts, h.usbEps, h.usbXfers, h.usbTts, h.linkSeats, h.linkTimes, h.linkTuns, h.linkKeys, h.heads, h.views, h.gathers, h.mirrors, h.configNos, h.fab, h.tSeats, h.wfq, h.net, h.demand, h.tIslets, h.tRest, h.pSeats, h.pCores, h.pRest, h.mode0, h.modeRest, h.reasons, h.fltA, h.fltB, h.logs, h.cnt, h.svc, h.free, h.pending, h.msgs, h.hreq, h.line, h.carry, h.memOk, h.timeUp, h.timeOr⟩

theorem Keep.setTe {K : Nat} {s x : State} {v} (h : Keep K s x)
    (h11 : K.testBit 11 = true → v.tes = x.te.tes)
    (h12 : K.testBit 12 = true → (v.dispA, v.dispB) = (x.te.dispA, x.te.dispB)) :
    Keep K s (x.setTe v) :=
  ⟨h.time, h.fns, h.ports, h.hcfg, h.reads, h.isl, h.queues, h.rings, h.entries, h.wqRest, h.prog, fun k => Eq.trans (h11 k) (h.tes k), fun k => Eq.trans (h12 k) (h.sched k), h.evt, h.mem, h.usbSeats, h.usbPorts, h.usbEps, h.usbXfers, h.usbTts, h.linkSeats, h.linkTimes, h.linkTuns, h.linkKeys, h.heads, h.views, h.gathers, h.mirrors, h.configNos, h.fab, h.tSeats, h.wfq, h.net, h.demand, h.tIslets, h.tRest, h.pSeats, h.pCores, h.pRest, h.mode0, h.modeRest, h.reasons, h.fltA, h.fltB, h.logs, h.cnt, h.svc, h.free, h.pending, h.msgs, h.hreq, h.line, h.carry, h.memOk, h.timeUp, h.timeOr⟩

theorem Keep.setEvt {K : Nat} {s x : State} {v} (h : Keep K s x)
    (h13 : K.testBit 13 = false) :
    Keep K s (x.setEvt v) :=
  ⟨h.time, h.fns, h.ports, h.hcfg, h.reads, h.isl, h.queues, h.rings, h.entries, h.wqRest, h.prog, h.tes, h.sched, fun k => absurd k (by simp [h13]), h.mem, h.usbSeats, h.usbPorts, h.usbEps, h.usbXfers, h.usbTts, h.linkSeats, h.linkTimes, h.linkTuns, h.linkKeys, h.heads, h.views, h.gathers, h.mirrors, h.configNos, h.fab, h.tSeats, h.wfq, h.net, h.demand, h.tIslets, h.tRest, h.pSeats, h.pCores, h.pRest, h.mode0, h.modeRest, h.reasons, h.fltA, h.fltB, h.logs, h.cnt, h.svc, h.free, h.pending, h.msgs, h.hreq, h.line, h.carry, h.memOk, h.timeUp, h.timeOr⟩

theorem Keep.setMem {K : Nat} {s x : State} {v} (h : Keep K s x)
    (h14 : K.testBit 14 = false)
    (hm : K.testBit 53 = true → x.mem.wf = true → v.wf = true) :
    Keep K s (x.setMem v) :=
  ⟨h.time, h.fns, h.ports, h.hcfg, h.reads, h.isl, h.queues, h.rings, h.entries, h.wqRest, h.prog, h.tes, h.sched, h.evt, fun k => absurd k (by simp [h14]), h.usbSeats, h.usbPorts, h.usbEps, h.usbXfers, h.usbTts, h.linkSeats, h.linkTimes, h.linkTuns, h.linkKeys, h.heads, h.views, h.gathers, h.mirrors, h.configNos, h.fab, h.tSeats, h.wfq, h.net, h.demand, h.tIslets, h.tRest, h.pSeats, h.pCores, h.pRest, h.mode0, h.modeRest, h.reasons, h.fltA, h.fltB, h.logs, h.cnt, h.svc, h.free, h.pending, h.msgs, h.hreq, h.line, h.carry, fun k w => hm k (h.memOk k w), h.timeUp, h.timeOr⟩

theorem Keep.setUsb {K : Nat} {s x : State} {v} (h : Keep K s x)
    (h15 : K.testBit 15 = true → v.seats = x.usb.seats)
    (h16 : K.testBit 16 = true → v.ports = x.usb.ports)
    (h17 : K.testBit 17 = true → v.eps = x.usb.eps)
    (h18 : K.testBit 18 = true → v.xfers = x.usb.xfers)
    (h19 : K.testBit 19 = true → v.tts = x.usb.tts) :
    Keep K s (x.setUsb v) :=
  ⟨h.time, h.fns, h.ports, h.hcfg, h.reads, h.isl, h.queues, h.rings, h.entries, h.wqRest, h.prog, h.tes, h.sched, h.evt, h.mem, fun k => Eq.trans (h15 k) (h.usbSeats k), fun k => Eq.trans (h16 k) (h.usbPorts k), fun k => Eq.trans (h17 k) (h.usbEps k), fun k => Eq.trans (h18 k) (h.usbXfers k), fun k => Eq.trans (h19 k) (h.usbTts k), h.linkSeats, h.linkTimes, h.linkTuns, h.linkKeys, h.heads, h.views, h.gathers, h.mirrors, h.configNos, h.fab, h.tSeats, h.wfq, h.net, h.demand, h.tIslets, h.tRest, h.pSeats, h.pCores, h.pRest, h.mode0, h.modeRest, h.reasons, h.fltA, h.fltB, h.logs, h.cnt, h.svc, h.free, h.pending, h.msgs, h.hreq, h.line, h.carry, h.memOk, h.timeUp, h.timeOr⟩

theorem Keep.setLink {K : Nat} {s x : State} {v} (h : Keep K s x)
    (h20 : K.testBit 20 = true → v.seats = x.link.seats)
    (h21 : K.testBit 21 = true → v.times = x.link.times)
    (h22 : K.testBit 22 = true → v.tuns = x.link.tuns)
    (h23 : K.testBit 23 = true → v.keys = x.link.keys)
    (h51 : K.testBit 51 = true → v.line = x.link.line) :
    Keep K s (x.setLink v) :=
  ⟨h.time, h.fns, h.ports, h.hcfg, h.reads, h.isl, h.queues, h.rings, h.entries, h.wqRest, h.prog, h.tes, h.sched, h.evt, h.mem, h.usbSeats, h.usbPorts, h.usbEps, h.usbXfers, h.usbTts, fun k => Eq.trans (h20 k) (h.linkSeats k), fun k => Eq.trans (h21 k) (h.linkTimes k), fun k => Eq.trans (h22 k) (h.linkTuns k), fun k => Eq.trans (h23 k) (h.linkKeys k), h.heads, h.views, h.gathers, h.mirrors, h.configNos, h.fab, h.tSeats, h.wfq, h.net, h.demand, h.tIslets, h.tRest, h.pSeats, h.pCores, h.pRest, h.mode0, h.modeRest, h.reasons, h.fltA, h.fltB, h.logs, h.cnt, h.svc, h.free, h.pending, h.msgs, h.hreq, fun k => Eq.trans (h51 k) (h.line k), h.carry, h.memOk, h.timeUp, h.timeOr⟩

theorem Keep.setDisp {K : Nat} {s x : State} {v} (h : Keep K s x)
    (h24 : K.testBit 24 = true → v.heads = x.disp.heads)
    (h25 : K.testBit 25 = true → v.views = x.disp.views)
    (h26 : K.testBit 26 = true → (v.gathers, v.pipes) = (x.disp.gathers, x.disp.pipes))
    (h27 : K.testBit 27 = true → (v.mirrors, v.twinStores, v.twinParts) = (x.disp.mirrors, x.disp.twinStores, x.disp.twinParts))
    (h28 : K.testBit 28 = true → v.configNos = x.disp.configNos) :
    Keep K s (x.setDisp v) :=
  ⟨h.time, h.fns, h.ports, h.hcfg, h.reads, h.isl, h.queues, h.rings, h.entries, h.wqRest, h.prog, h.tes, h.sched, h.evt, h.mem, h.usbSeats, h.usbPorts, h.usbEps, h.usbXfers, h.usbTts, h.linkSeats, h.linkTimes, h.linkTuns, h.linkKeys, fun k => Eq.trans (h24 k) (h.heads k), fun k => Eq.trans (h25 k) (h.views k), fun k => Eq.trans (h26 k) (h.gathers k), fun k => Eq.trans (h27 k) (h.mirrors k), fun k => Eq.trans (h28 k) (h.configNos k), h.fab, h.tSeats, h.wfq, h.net, h.demand, h.tIslets, h.tRest, h.pSeats, h.pCores, h.pRest, h.mode0, h.modeRest, h.reasons, h.fltA, h.fltB, h.logs, h.cnt, h.svc, h.free, h.pending, h.msgs, h.hreq, h.line, h.carry, h.memOk, h.timeUp, h.timeOr⟩

theorem Keep.setFab {K : Nat} {s x : State} {v} (h : Keep K s x)
    (h29 : K.testBit 29 = false) :
    Keep K s (x.setFab v) :=
  ⟨h.time, h.fns, h.ports, h.hcfg, h.reads, h.isl, h.queues, h.rings, h.entries, h.wqRest, h.prog, h.tes, h.sched, h.evt, h.mem, h.usbSeats, h.usbPorts, h.usbEps, h.usbXfers, h.usbTts, h.linkSeats, h.linkTimes, h.linkTuns, h.linkKeys, h.heads, h.views, h.gathers, h.mirrors, h.configNos, fun k => absurd k (by simp [h29]), h.tSeats, h.wfq, h.net, h.demand, h.tIslets, h.tRest, h.pSeats, h.pCores, h.pRest, h.mode0, h.modeRest, h.reasons, h.fltA, h.fltB, h.logs, h.cnt, h.svc, h.free, h.pending, h.msgs, h.hreq, h.line, h.carry, h.memOk, h.timeUp, h.timeOr⟩

theorem Keep.setTraf {K : Nat} {s x : State} {v} (h : Keep K s x)
    (h30 : K.testBit 30 = true → v.seats = x.traf.seats)
    (h31 : K.testBit 31 = true → v.wfq = x.traf.wfq)
    (h32 : K.testBit 32 = true → v.net = x.traf.net)
    (h33 : K.testBit 33 = true → v.demand = x.traf.demand)
    (h34 : K.testBit 34 = true → v.islets = x.traf.islets)
    (h35 : K.testBit 35 = true → (v.control, v.lastFrame, v.lastUs, v.missed, v.latchedFrame, v.rateDrops) = (x.traf.control, x.traf.lastFrame, x.traf.lastUs, x.traf.missed, x.traf.latchedFrame, x.traf.rateDrops)) :
    Keep K s (x.setTraf v) :=
  ⟨h.time, h.fns, h.ports, h.hcfg, h.reads, h.isl, h.queues, h.rings, h.entries, h.wqRest, h.prog, h.tes, h.sched, h.evt, h.mem, h.usbSeats, h.usbPorts, h.usbEps, h.usbXfers, h.usbTts, h.linkSeats, h.linkTimes, h.linkTuns, h.linkKeys, h.heads, h.views, h.gathers, h.mirrors, h.configNos, h.fab, fun k => Eq.trans (h30 k) (h.tSeats k), fun k => Eq.trans (h31 k) (h.wfq k), fun k => Eq.trans (h32 k) (h.net k), fun k => Eq.trans (h33 k) (h.demand k), fun k => Eq.trans (h34 k) (h.tIslets k), fun k => Eq.trans (h35 k) (h.tRest k), h.pSeats, h.pCores, h.pRest, h.mode0, h.modeRest, h.reasons, h.fltA, h.fltB, h.logs, h.cnt, h.svc, h.free, h.pending, h.msgs, h.hreq, h.line, h.carry, h.memOk, h.timeUp, h.timeOr⟩

theorem Keep.setPow {K : Nat} {s x : State} {v} (h : Keep K s x)
    (h36 : K.testBit 36 = true → v.seats = x.pow.seats)
    (h37 : K.testBit 37 = true → (v.a, v.b) = (x.pow.a, x.pow.b))
    (h38 : K.testBit 38 = true → (v.sa, v.sb, v.budget, v.sheds, v.lastOn, v.hardSince) = (x.pow.sa, x.pow.sb, x.pow.budget, x.pow.sheds, x.pow.lastOn, x.pow.hardSince)) :
    Keep K s (x.setPow v) :=
  ⟨h.time, h.fns, h.ports, h.hcfg, h.reads, h.isl, h.queues, h.rings, h.entries, h.wqRest, h.prog, h.tes, h.sched, h.evt, h.mem, h.usbSeats, h.usbPorts, h.usbEps, h.usbXfers, h.usbTts, h.linkSeats, h.linkTimes, h.linkTuns, h.linkKeys, h.heads, h.views, h.gathers, h.mirrors, h.configNos, h.fab, h.tSeats, h.wfq, h.net, h.demand, h.tIslets, h.tRest, fun k => Eq.trans (h36 k) (h.pSeats k), fun k => Eq.trans (h37 k) (h.pCores k), fun k => Eq.trans (h38 k) (h.pRest k), h.mode0, h.modeRest, h.reasons, h.fltA, h.fltB, h.logs, h.cnt, h.svc, h.free, h.pending, h.msgs, h.hreq, h.line, h.carry, h.memOk, h.timeUp, h.timeOr⟩

theorem Keep.setMode {K : Nat} {s x : State} {v} (h : Keep K s x)
    (h39 : K.testBit 39 = true → v.mode = x.mode.mode)
    (h40 : K.testBit 40 = true → (v.prev, v.start, v.failCount, v.failedShown, v.onGolden, v.goldenHeld, v.stopCause, v.stopUt, v.stopOff, v.stopHot, v.slot0, v.slot1, v.golden, v.runningA, v.runningB, v.bootSlot, v.verified, v.roll, v.writing, v.lastInput, v.timers, v.junctionA, v.junctionB, v.inlet) = (x.mode.prev, x.mode.start, x.mode.failCount, x.mode.failedShown, x.mode.onGolden, x.mode.goldenHeld, x.mode.stopCause, x.mode.stopUt, x.mode.stopOff, x.mode.stopHot, x.mode.slot0, x.mode.slot1, x.mode.golden, x.mode.runningA, x.mode.runningB, x.mode.bootSlot, x.mode.verified, x.mode.roll, x.mode.writing, x.mode.lastInput, x.mode.timers, x.mode.junctionA, x.mode.junctionB, x.mode.inlet))
    (h41 : K.testBit 41 = true → (v.reasons, v.first, v.clearing, v.causes) = (x.mode.reasons, x.mode.first, x.mode.clearing, x.mode.causes)) :
    Keep K s (x.setMode v) :=
  ⟨h.time, h.fns, h.ports, h.hcfg, h.reads, h.isl, h.queues, h.rings, h.entries, h.wqRest, h.prog, h.tes, h.sched, h.evt, h.mem, h.usbSeats, h.usbPorts, h.usbEps, h.usbXfers, h.usbTts, h.linkSeats, h.linkTimes, h.linkTuns, h.linkKeys, h.heads, h.views, h.gathers, h.mirrors, h.configNos, h.fab, h.tSeats, h.wfq, h.net, h.demand, h.tIslets, h.tRest, h.pSeats, h.pCores, h.pRest, fun k => Eq.trans (h39 k) (h.mode0 k), fun k => Eq.trans (h40 k) (h.modeRest k), fun k => Eq.trans (h41 k) (h.reasons k), h.fltA, h.fltB, h.logs, h.cnt, h.svc, h.free, h.pending, h.msgs, h.hreq, h.line, h.carry, h.memOk, h.timeUp, h.timeOr⟩

theorem Keep.setFlt {K : Nat} {s x : State} {v} (h : Keep K s x)
    (h42 : K.testBit 42 = true → (v.a, v.b, v.token, v.refereeLost, v.lanes, v.seats, v.adopt, v.adopted, v.moved, v.buildFrom) = (x.flt.a, x.flt.b, x.flt.token, x.flt.refereeLost, x.flt.lanes, x.flt.seats, x.flt.adopt, x.flt.adopted, x.flt.moved, x.flt.buildFrom))
    (h43 : K.testBit 43 = true → (v.steerPpm, v.utDiff) = (x.flt.steerPpm, x.flt.utDiff))
    (h44 : K.testBit 44 = true → (v.logA, v.logB, v.nextA, v.nextB) = (x.flt.logA, x.flt.logB, x.flt.nextA, x.flt.nextB)) :
    Keep K s (x.setFlt v) :=
  ⟨h.time, h.fns, h.ports, h.hcfg, h.reads, h.isl, h.queues, h.rings, h.entries, h.wqRest, h.prog, h.tes, h.sched, h.evt, h.mem, h.usbSeats, h.usbPorts, h.usbEps, h.usbXfers, h.usbTts, h.linkSeats, h.linkTimes, h.linkTuns, h.linkKeys, h.heads, h.views, h.gathers, h.mirrors, h.configNos, h.fab, h.tSeats, h.wfq, h.net, h.demand, h.tIslets, h.tRest, h.pSeats, h.pCores, h.pRest, h.mode0, h.modeRest, h.reasons, fun k => Eq.trans (h42 k) (h.fltA k), fun k => Eq.trans (h43 k) (h.fltB k), fun k => Eq.trans (h44 k) (h.logs k), h.cnt, h.svc, h.free, h.pending, h.msgs, h.hreq, h.line, h.carry, h.memOk, h.timeUp, h.timeOr⟩

theorem Keep.setCnt {K : Nat} {s x : State} {v} (h : Keep K s x)
    (h45 : K.testBit 45 = false) :
    Keep K s (x.setCnt v) :=
  ⟨h.time, h.fns, h.ports, h.hcfg, h.reads, h.isl, h.queues, h.rings, h.entries, h.wqRest, h.prog, h.tes, h.sched, h.evt, h.mem, h.usbSeats, h.usbPorts, h.usbEps, h.usbXfers, h.usbTts, h.linkSeats, h.linkTimes, h.linkTuns, h.linkKeys, h.heads, h.views, h.gathers, h.mirrors, h.configNos, h.fab, h.tSeats, h.wfq, h.net, h.demand, h.tIslets, h.tRest, h.pSeats, h.pCores, h.pRest, h.mode0, h.modeRest, h.reasons, h.fltA, h.fltB, h.logs, fun k => absurd k (by simp [h45]), h.svc, h.free, h.pending, h.msgs, h.hreq, h.line, h.carry, h.memOk, h.timeUp, h.timeOr⟩

theorem Keep.setSvc {K : Nat} {s x : State} {v} (h : Keep K s x)
    (h46 : K.testBit 46 = false) :
    Keep K s (x.setSvc v) :=
  ⟨h.time, h.fns, h.ports, h.hcfg, h.reads, h.isl, h.queues, h.rings, h.entries, h.wqRest, h.prog, h.tes, h.sched, h.evt, h.mem, h.usbSeats, h.usbPorts, h.usbEps, h.usbXfers, h.usbTts, h.linkSeats, h.linkTimes, h.linkTuns, h.linkKeys, h.heads, h.views, h.gathers, h.mirrors, h.configNos, h.fab, h.tSeats, h.wfq, h.net, h.demand, h.tIslets, h.tRest, h.pSeats, h.pCores, h.pRest, h.mode0, h.modeRest, h.reasons, h.fltA, h.fltB, h.logs, h.cnt, fun k => absurd k (by simp [h46]), h.free, h.pending, h.msgs, h.hreq, h.line, h.carry, h.memOk, h.timeUp, h.timeOr⟩

theorem Keep.setFree {K : Nat} {s x : State} {v} (h : Keep K s x)
    (h47 : K.testBit 47 = false) :
    Keep K s (x.setFree v) :=
  ⟨h.time, h.fns, h.ports, h.hcfg, h.reads, h.isl, h.queues, h.rings, h.entries, h.wqRest, h.prog, h.tes, h.sched, h.evt, h.mem, h.usbSeats, h.usbPorts, h.usbEps, h.usbXfers, h.usbTts, h.linkSeats, h.linkTimes, h.linkTuns, h.linkKeys, h.heads, h.views, h.gathers, h.mirrors, h.configNos, h.fab, h.tSeats, h.wfq, h.net, h.demand, h.tIslets, h.tRest, h.pSeats, h.pCores, h.pRest, h.mode0, h.modeRest, h.reasons, h.fltA, h.fltB, h.logs, h.cnt, h.svc, fun k => absurd k (by simp [h47]), h.pending, h.msgs, h.hreq, h.line, h.carry, h.memOk, h.timeUp, h.timeOr⟩

theorem Keep.setPending {K : Nat} {s x : State} {v} (h : Keep K s x)
    (h48 : K.testBit 48 = false) :
    Keep K s (x.setPending v) :=
  ⟨h.time, h.fns, h.ports, h.hcfg, h.reads, h.isl, h.queues, h.rings, h.entries, h.wqRest, h.prog, h.tes, h.sched, h.evt, h.mem, h.usbSeats, h.usbPorts, h.usbEps, h.usbXfers, h.usbTts, h.linkSeats, h.linkTimes, h.linkTuns, h.linkKeys, h.heads, h.views, h.gathers, h.mirrors, h.configNos, h.fab, h.tSeats, h.wfq, h.net, h.demand, h.tIslets, h.tRest, h.pSeats, h.pCores, h.pRest, h.mode0, h.modeRest, h.reasons, h.fltA, h.fltB, h.logs, h.cnt, h.svc, h.free, fun k => absurd k (by simp [h48]), h.msgs, h.hreq, h.line, h.carry, h.memOk, h.timeUp, h.timeOr⟩

end Sys2Proof.Machine
end

