-- ==== Sys2Proof/Laws/Mem.lean ====
section
/-! SUPPORT. The memories of the unit: each one of a sound state is in canonical form, and an update with a memory in
canonical form keeps it so. -/

namespace Sys2Proof.Machine

theorem all_terase {α : Type} (p : α → Bool) (k : Nat) (t : Tab α) (h : t.all (fun e => p e.2) = true) :
    (terase t k).all (fun e => p e.2) = true := by
  simp only [terase, List.all_eq_true, List.mem_filter] at *
  exact fun e he => h e he.1

theorem all_tput {α : Type} (p : α → Bool) (k : Nat) (v : α) (hv : p v = true) (t : Tab α)
    (h : t.all (fun e => p e.2) = true) : (tput t k v).all (fun e => p e.2) = true := by
  induction t with
  | nil => simp [tput, hv]
  | cons e t ih =>
    simp only [List.all_cons, Bool.and_eq_true] at h
    unfold tput
    split
    · simp [hv, h.1, h.2]
    · split
      · simp [hv, h.2]
      · simp [h.1, ih h.2]

theorem all_tset {α : Type} [DecidableEq α] (p : α → Bool) (k : Nat) (v d : α) (hv : p v = true) (t : Tab α)
    (h : t.all (fun e => p e.2) = true) : (tset t k v d).all (fun e => p e.2) = true := by
  unfold tset; split
  · exact all_terase p k t h
  · exact all_tput p k v hv t h

theorem tget_all {α : Type} (p : α → Bool) (k : Nat) (d : α) (hd : p d = true) (t : Tab α)
    (h : t.all (fun e => p e.2) = true) : p (tget t k d) = true := by
  induction t with
  | nil => exact hd
  | cons e t ih =>
    obtain ⟨a, v⟩ := e
    simp only [List.all_cons, Bool.and_eq_true] at h
    unfold tget; split
    · exact h.1
    · exact ih h.2

theorem writeNat_wf (m : Memory) (a n v : Nat) (h : Memory.wf m = true) : Memory.wf (writeNat m a n v) = true := by
  unfold writeNat; exact writeBytes_wf _ _ _ h

theorem foldl_mem_wf {α : Type} (f : Memory → α → Memory) (l : List α) (m : Memory) (h : Memory.wf m = true)
    (hf : ∀ m a, Memory.wf m = true → Memory.wf (f m a) = true) : Memory.wf (l.foldl f m) = true := by
  induction l generalizing m with
  | nil => exact h
  | cons a l ih => exact ih _ (hf m a h)

theorem MemSt.wf_iff (m : MemSt) : m.wf = true ↔
    ((((twf (fun _ => []) m.isw = true ∧ twf (fun _ => []) m.dram = true) ∧ twf (fun _ => []) m.due = true) ∧
      m.isw.all (fun e => Memory.wf e.2) = true) ∧ m.dram.all (fun e => Memory.wf e.2) = true) ∧
      m.due.all (fun e => Memory.wf e.2) = true := by
  simp only [MemSt.wf, Bool.and_eq_true]

theorem State.isw_wf {s : State} {c : CoreId} {i : IsletNo} (h : s.mem.wf = true) : Memory.wf (s.isw c i) = true :=
  tget_all Memory.wf _ _ rfl _ ((MemSt.wf_iff _).1 h).1.1.2

theorem State.dram_wf {s : State} {c : CoreId} (h : s.mem.wf = true) : Memory.wf (s.dram c) = true :=
  tget_all Memory.wf _ _ rfl _ ((MemSt.wf_iff _).1 h).1.2

theorem State.due_wf {s : State} {c : CoreId} {x : Seat} (h : s.mem.wf = true) : Memory.wf (s.due c x) = true :=
  tget_all Memory.wf _ _ rfl _ ((MemSt.wf_iff _).1 h).2

theorem Keep.setIsw {K : Nat} {s x : State} {c : CoreId} {i : IsletNo} {m : Memory} (h : Keep K s x)
    (k : K.testBit 14 = false) (hm : x.mem.wf = true → Memory.wf m = true) : Keep K s (x.setIsw c i m) := by
  refine h.setMem k fun _ w => ?_
  have v := hm w
  rw [MemSt.wf_iff] at *
  exact ⟨⟨⟨⟨⟨twf_tset (fun _ => []) _ _ _ w.1.1.1.1.1, w.1.1.1.1.2⟩, w.1.1.1.2⟩, all_tset _ _ _ _ v _ w.1.1.2⟩, w.1.2⟩, w.2⟩

theorem Keep.setDram {K : Nat} {s x : State} {c : CoreId} {m : Memory} (h : Keep K s x)
    (k : K.testBit 14 = false) (hm : x.mem.wf = true → Memory.wf m = true) : Keep K s (x.setDram c m) := by
  refine h.setMem k fun _ w => ?_
  have v := hm w
  rw [MemSt.wf_iff] at *
  exact ⟨⟨⟨⟨⟨w.1.1.1.1.1, twf_tset (fun _ => []) _ _ _ w.1.1.1.1.2⟩, w.1.1.1.2⟩, w.1.1.2⟩, all_tset _ _ _ _ v _ w.1.2⟩, w.2⟩

theorem Keep.setDue {K : Nat} {s x : State} {c : CoreId} {a : Seat} {m : Memory} (h : Keep K s x)
    (k : K.testBit 14 = false) (hm : x.mem.wf = true → Memory.wf m = true) : Keep K s (x.setDue c a m) := by
  refine h.setMem k fun _ w => ?_
  have v := hm w
  rw [MemSt.wf_iff] at *
  exact ⟨⟨⟨⟨⟨w.1.1.1.1.1, w.1.1.1.1.2⟩, twf_tset (fun _ => []) _ _ _ w.1.1.1.2⟩, w.1.1.2⟩, w.1.2⟩, all_tset _ _ _ _ v _ w.2⟩

end Sys2Proof.Machine
end

