-- ==== Sys2Proof/Laws/KeepOps.lean ====
section
/-! SUPPORT. What the operations of Machine/Ops.lean may change: one lemma each. -/

namespace Sys2Proof.Machine

/-- A function's registers: what they hold of the parts that are kept. -/
theorem Keep.setFnQ {K : Nat} {s x : State} {f v} (h : Keep K s x) (h1 : K.testBit 1 = true → v.regs = (x.fnSt f).regs)
    (h2 : K.testBit 49 = true → v.held = (x.fnSt f).held) : Keep K s (x.setFn f v) := by
  obtain ⟨p, c⟩ := f
  refine h.trans ?_
  cases p <;> cases c <;> constructor <;> intro k <;> first
    | rfl
    | (intro h; exact h)
    | exact ⟨Nat.le_refl _, Nat.le_refl _⟩
    | exact Or.inl rfl
    | (have a := h1 k
       simp only [State.fnSt] at a
       simp [State.part1, State.setFn, a])
    | (have a := h2 k
       simp only [State.fnSt] at a
       simp [State.part49, State.setFn, a])

theorem State.setPort_keep {s : State} {p : PortId} {v : PortSt} :
    Keep 72057594037927931 s (State.setPort s p v) := by
  cases p <;> constructor <;> first | (intro k; exact absurd k (by decide)) | (intro _; rfl) | (intro _ h; exact h) | (intro _; exact ⟨Nat.le_refl _, Nat.le_refl _⟩) | exact fun _ => Or.inl rfl
theorem State.setCore_keep {s : State} {c : CoreId} {v : CoreSt} :
    Keep 72053195991416831 s (State.setCore s c v) := by
  cases c <;> constructor <;> first | (intro k; exact absurd k (by decide)) | (intro _; rfl) | (intro _ h; exact h) | (intro _; exact ⟨Nat.le_refl _, Nat.le_refl _⟩) | exact fun _ => Or.inl rfl
theorem State.setDispatch_keep {s : State} {c : CoreId} {v : DispSt} :
    Keep 72057594037923839 s (State.setDispatch s c v) := by
  cases c <;> constructor <;> first | (intro k; exact absurd k (by decide)) | (intro _; rfl) | (intro _ h; exact h) | (intro _; exact ⟨Nat.le_refl _, Nat.le_refl _⟩) | exact fun _ => Or.inl rfl
theorem State.setTeSt_keep {s : State} {c : CoreId} {t : TeNo} {v : TeSt} :
    Keep 72057594037925887 s (State.setTeSt s c t v) := by
  constructor <;> first | (intro k; exact absurd k (by decide)) | (intro _; rfl) | (intro _ h; exact h) | (intro _; exact ⟨Nat.le_refl _, Nat.le_refl _⟩) | exact fun _ => Or.inl rfl
theorem State.setStore_keep {s : State} {c : CoreId} {v : List ImageSt} :
    Keep 72057594037926911 s (State.setStore s c v) := by
  cases c <;> constructor <;> first | (intro k; exact absurd k (by decide)) | (intro _; rfl) | (intro _ h; exact h) | (intro _; exact ⟨Nat.le_refl _, Nat.le_refl _⟩) | exact fun _ => Or.inl rfl
theorem State.setEvtCore_keep {s : State} {c : CoreId} {v : EvtCore} :
    Keep 72057594037919743 s (State.setEvtCore s c v) := by
  cases c <;> constructor <;> first | (intro k; exact absurd k (by decide)) | (intro _; rfl) | (intro _ h; exact h) | (intro _; exact ⟨Nat.le_refl _, Nat.le_refl _⟩) | exact fun _ => Or.inl rfl
theorem State.setPowCore_keep {s : State} {c : CoreId} {v : PowCore} :
    Keep 72057456598974463 s (State.setPowCore s c v) := by
  cases c <;> constructor <;> first | (intro k; exact absurd k (by decide)) | (intro _; rfl) | (intro _ h; exact h) | (intro _; exact ⟨Nat.le_refl _, Nat.le_refl _⟩) | exact fun _ => Or.inl rfl
theorem State.setSupply_keep {s : State} {x : SupplyId} {v : SupplySt} :
    Keep 72057319160020991 s (State.setSupply s x v) := by
  cases x <;> constructor <;> first | (intro k; exact absurd k (by decide)) | (intro _; rfl) | (intro _ h; exact h) | (intro _; exact ⟨Nat.le_refl _, Nat.le_refl _⟩) | exact fun _ => Or.inl rfl
theorem State.setFabCore_keep {s : State} {c : CoreId} {v : FabCore} :
    Keep 72057593501057023 s (State.setFabCore s c v) := by
  cases c <;> constructor <;> first | (intro k; exact absurd k (by decide)) | (intro _; rfl) | (intro _ h; exact h) | (intro _; exact ⟨Nat.le_refl _, Nat.le_refl _⟩) | exact fun _ => Or.inl rfl
theorem State.setCntCore_keep {s : State} {c : CoreId} {v : CntCore} :
    Keep 72022409665839103 s (State.setCntCore s c v) := by
  cases c <;> constructor <;> first | (intro k; exact absurd k (by decide)) | (intro _; rfl) | (intro _ h; exact h) | (intro _; exact ⟨Nat.le_refl _, Nat.le_refl _⟩) | exact fun _ => Or.inl rfl

theorem State.draw_keep {s : State} :
    Keep 71916856549572607 s (State.draw s).2 := by
  unfold State.draw; try dsimp only
  repeat' first
    | with_reducible exact Keep.rfl'
    | with_reducible assumption
    | with_reducible apply Keep.setFree
    | exact fun k => absurd k (by decide)
    | with_reducible exact fun _ => rfl
    | with_reducible rfl
    | decide
    | split
    | dsimp only
theorem State.draw_keepE {s : State} {rE tE} (hE : (State.draw s) = (rE, tE)) : Keep 71916856549572607 s tE := by
  have k := @State.draw_keep s; rw [hE] at k; exact k

theorem State.setCmdSt_keep {s : State} {p : PortId} {k : CmdSet} {v : CmdSt} :
    Keep 72057594037927931 s (State.setCmdSt s p k v) := by
  unfold State.setCmdSt; try dsimp only
  repeat' first
    | with_reducible exact Keep.rfl'
    | with_reducible assumption
    | (with_reducible apply Keep.step State.setPort_keep; decide)
    | split
    | dsimp only

theorem State.setSem_keep {s : State} {n : Nat} {v : SemSt} :
    Keep 72057594037927927 s (State.setSem s n v) := by
  unfold State.setSem; try dsimp only
  repeat' first
    | with_reducible exact Keep.rfl'
    | with_reducible assumption
    | with_reducible apply Keep.setHost
    | exact fun k => absurd k (by decide)
    | with_reducible exact fun _ => rfl
    | with_reducible rfl
    | decide
    | split
    | dsimp only

theorem State.setServing_keep {s : State} {x : Seat} {c : CoreId} :
    Keep 72053195991416831 s (State.setServing s x c) := by
  unfold State.setServing; try dsimp only
  repeat' first
    | with_reducible exact Keep.rfl'
    | with_reducible assumption
    | with_reducible apply Keep.setFlt
    | exact fun k => absurd k (by decide)
    | with_reducible exact fun _ => rfl
    | with_reducible rfl
    | decide
    | split
    | dsimp only

theorem State.setIslet_keep {s : State} {i : IsletNo} {v : IsletSt} :
    Keep 72057594037927903 s (State.setIslet s i v) := by
  unfold State.setIslet; try dsimp only
  repeat' first
    | with_reducible exact Keep.rfl'
    | with_reducible assumption
    | with_reducible apply Keep.setIsl
    | exact fun k => absurd k (by decide)
    | with_reducible exact fun _ => rfl
    | with_reducible rfl
    | decide
    | split
    | dsimp only

theorem State.setQueue_keep {s : State} {c : CoreId} {i : IsletNo} {q : Nat} {v : QueueSt} :
    Keep 72057594037927871 s (State.setQueue s c i q v) := by
  unfold State.setQueue; try dsimp only
  repeat' first
    | with_reducible exact Keep.rfl'
    | with_reducible assumption
    | with_reducible apply Keep.setWq
    | exact fun k => absurd k (by decide)
    | with_reducible exact fun _ => rfl
    | with_reducible rfl
    | decide
    | split
    | dsimp only

theorem State.setRing_keep {s : State} {c : CoreId} {i : IsletNo} {r : Nat} {v : RingSt} :
    Keep 72057594037927807 s (State.setRing s c i r v) := by
  unfold State.setRing; try dsimp only
  repeat' first
    | with_reducible exact Keep.rfl'
    | with_reducible assumption
    | with_reducible apply Keep.setWq
    | exact fun k => absurd k (by decide)
    | with_reducible exact fun _ => rfl
    | with_reducible rfl
    | decide
    | split
    | dsimp only

theorem State.setShQueue_keep {s : State} {c : CoreId} {i : IsletNo} {q : Nat} {v : QueueSt} :
    Keep 72057594037927871 s (State.setShQueue s c i q v) := by
  unfold State.setShQueue; try dsimp only
  repeat' first
    | with_reducible exact Keep.rfl'
    | with_reducible assumption
    | with_reducible apply Keep.setWq
    | exact fun k => absurd k (by decide)
    | with_reducible exact fun _ => rfl
    | with_reducible rfl
    | decide
    | split
    | dsimp only

theorem State.setShRing_keep {s : State} {c : CoreId} {i : IsletNo} {r : Nat} {v : RingSt} :
    Keep 72057594037927807 s (State.setShRing s c i r v) := by
  unfold State.setShRing; try dsimp only
  repeat' first
    | with_reducible exact Keep.rfl'
    | with_reducible assumption
    | with_reducible apply Keep.setWq
    | exact fun k => absurd k (by decide)
    | with_reducible exact fun _ => rfl
    | with_reducible rfl
    | decide
    | split
    | dsimp only

theorem State.setEntry_keep {s : State} {h : Nat} {v : EntrySt} :
    Keep 72057594037927679 s (State.setEntry s h v) := by
  unfold State.setEntry; try dsimp only
  repeat' first
    | with_reducible exact Keep.rfl'
    | with_reducible assumption
    | with_reducible apply Keep.setWq
    | exact fun k => absurd k (by decide)
    | with_reducible exact fun _ => rfl
    | with_reducible rfl
    | decide
    | split
    | dsimp only

theorem State.usePort_keep {s : State} {h : Nat} {p : PortId} :
    Keep 72057594037927679 s (State.usePort s h p) := by
  unfold State.usePort; try dsimp only
  repeat' first
    | with_reducible exact Keep.rfl'
    | with_reducible assumption
    | (with_reducible apply Keep.step State.setEntry_keep; decide)
    | split
    | dsimp only

theorem State.sentAll_keep {s : State} {k : Nat} :
    Keep 72057594037911551 s (State.sentAll s k) := by
  unfold State.sentAll; try dsimp only
  repeat' first
    | with_reducible exact Keep.rfl'
    | with_reducible assumption
    | with_reducible apply Keep.setMem
    | exact fun k => absurd k (by decide)
    | with_reducible exact fun _ => rfl
    | with_reducible rfl
    | decide
    | exact fun _ h => h
    | split
    | dsimp only

theorem State.dropStores_keep {s : State} {gone : CoreId → IsletNo → Bool} :
    Keep 72057594037911551 s (State.dropStores s gone) := by
  unfold State.dropStores; try dsimp only
  repeat' first
    | with_reducible exact Keep.rfl'
    | with_reducible assumption
    | with_reducible apply Keep.setMem
    | exact fun k => absurd k (by decide)
    | with_reducible exact fun _ => rfl
    | with_reducible rfl
    | decide
    | exact fun _ h => h
    | with_reducible apply Keep.ite
    | split
    | dsimp only

theorem State.setUsbSeat_keep {s : State} {x : Seat} {v : UsbSeat} :
    Keep 72057594037895167 s (State.setUsbSeat s x v) := by
  unfold State.setUsbSeat; try dsimp only
  repeat' first
    | with_reducible exact Keep.rfl'
    | with_reducible assumption
    | with_reducible apply Keep.setUsb
    | exact fun k => absurd k (by decide)
    | with_reducible exact fun _ => rfl
    | with_reducible rfl
    | decide
    | split
    | dsimp only

theorem State.setRootPort_keep {s : State} {x : Seat} {p : RootPort} {v : RootPortSt} :
    Keep 72057594037862399 s (State.setRootPort s x p v) := by
  unfold State.setRootPort; try dsimp only
  repeat' first
    | with_reducible exact Keep.rfl'
    | with_reducible assumption
    | with_reducible apply Keep.setUsb
    | exact fun k => absurd k (by decide)
    | with_reducible exact fun _ => rfl
    | with_reducible rfl
    | decide
    | split
    | dsimp only

theorem State.setLink__keep {s : State} {x : Seat} {v : SeatLink} :
    Keep 72057594036879359 s (State.setLink_ s x v) := by
  unfold State.setLink_; try dsimp only
  repeat' first
    | with_reducible exact Keep.rfl'
    | with_reducible assumption
    | with_reducible apply Keep.setLink
    | exact fun k => absurd k (by decide)
    | with_reducible exact fun _ => rfl
    | with_reducible rfl
    | decide
    | split
    | dsimp only

theorem State.setSeatTime_keep {s : State} {x : Seat} {v : SeatTime} :
    Keep 72057594035830783 s (State.setSeatTime s x v) := by
  unfold State.setSeatTime; try dsimp only
  repeat' first
    | with_reducible exact Keep.rfl'
    | with_reducible assumption
    | with_reducible apply Keep.setLink
    | exact fun k => absurd k (by decide)
    | with_reducible exact fun _ => rfl
    | with_reducible rfl
    | decide
    | split
    | dsimp only

theorem State.setTun_keep {s : State} {x : Seat} {t : Tunnel} {v : TunSt} :
    Keep 72057594033733631 s (State.setTun s x t v) := by
  unfold State.setTun; try dsimp only
  repeat' first
    | with_reducible exact Keep.rfl'
    | with_reducible assumption
    | with_reducible apply Keep.setLink
    | exact fun k => absurd k (by decide)
    | with_reducible exact fun _ => rfl
    | with_reducible rfl
    | decide
    | split
    | dsimp only

theorem State.setHead_keep {s : State} {h : HeadNo} {v : HeadSt} :
    Keep 72057594021150719 s (State.setHead s h v) := by
  unfold State.setHead; try dsimp only
  repeat' first
    | with_reducible exact Keep.rfl'
    | with_reducible assumption
    | with_reducible apply Keep.setDisp
    | exact fun k => absurd k (by decide)
    | with_reducible exact fun _ => rfl
    | with_reducible rfl
    | decide
    | split
    | dsimp only

theorem State.setView_keep {s : State} {h : HeadNo} {v : ViewSt} :
    Keep 72057594004373503 s (State.setView s h v) := by
  unfold State.setView; try dsimp only
  repeat' first
    | with_reducible exact Keep.rfl'
    | with_reducible assumption
    | with_reducible apply Keep.setDisp
    | exact fun k => absurd k (by decide)
    | with_reducible exact fun _ => rfl
    | with_reducible rfl
    | decide
    | split
    | dsimp only

theorem State.setGather_keep {s : State} {c : CoreId} {g : Nat} {v : GatherSt} :
    Keep 72057593970819071 s (State.setGather s c g v) := by
  unfold State.setGather; try dsimp only
  repeat' first
    | with_reducible exact Keep.rfl'
    | with_reducible assumption
    | with_reducible apply Keep.setDisp
    | exact fun k => absurd k (by decide)
    | with_reducible exact fun _ => rfl
    | with_reducible rfl
    | decide
    | split
    | dsimp only

theorem State.setPipe_keep {s : State} {c : CoreId} {p : Nat} {v : Option (HeadNo × Nat)} :
    Keep 72057593970819071 s (State.setPipe s c p v) := by
  unfold State.setPipe; try dsimp only
  repeat' first
    | with_reducible exact Keep.rfl'
    | with_reducible assumption
    | with_reducible apply Keep.setDisp
    | exact fun k => absurd k (by decide)
    | with_reducible exact fun _ => rfl
    | with_reducible rfl
    | decide
    | split
    | dsimp only

theorem State.setSeatTraf_keep {s : State} {x : Seat} {v : SeatTraf} :
    Keep 72057592964186111 s (State.setSeatTraf s x v) := by
  unfold State.setSeatTraf; try dsimp only
  repeat' first
    | with_reducible exact Keep.rfl'
    | with_reducible assumption
    | with_reducible apply Keep.setTraf
    | exact fun k => absurd k (by decide)
    | with_reducible exact fun _ => rfl
    | with_reducible rfl
    | decide
    | split
    | dsimp only

theorem State.setWfq_keep {s : State} {x : Seat} {v : SeatWfq} :
    Keep 72057591890444287 s (State.setWfq s x v) := by
  unfold State.setWfq; try dsimp only
  repeat' first
    | with_reducible exact Keep.rfl'
    | with_reducible assumption
    | with_reducible apply Keep.setTraf
    | exact fun k => absurd k (by decide)
    | with_reducible exact fun _ => rfl
    | with_reducible rfl
    | decide
    | split
    | dsimp only

theorem State.setSeatNet_keep {s : State} {x : Seat} {v : SeatNet} :
    Keep 72057589742960639 s (State.setSeatNet s x v) := by
  unfold State.setSeatNet; try dsimp only
  repeat' first
    | with_reducible exact Keep.rfl'
    | with_reducible assumption
    | with_reducible apply Keep.setTraf
    | exact fun k => absurd k (by decide)
    | with_reducible exact fun _ => rfl
    | with_reducible rfl
    | decide
    | split
    | dsimp only

theorem State.setDemand_keep {s : State} {x : Seat} {v : Demand} :
    Keep 72057585447993343 s (State.setDemand s x v) := by
  unfold State.setDemand; try dsimp only
  repeat' first
    | with_reducible exact Keep.rfl'
    | with_reducible assumption
    | with_reducible apply Keep.setTraf
    | exact fun k => absurd k (by decide)
    | with_reducible exact fun _ => rfl
    | with_reducible rfl
    | decide
    | split
    | dsimp only

theorem State.setIsletTraf_keep {s : State} {i : IsletNo} {v : IsletTraf} :
    Keep 72057576858058751 s (State.setIsletTraf s i v) := by
  unfold State.setIsletTraf; try dsimp only
  repeat' first
    | with_reducible exact Keep.rfl'
    | with_reducible assumption
    | with_reducible apply Keep.setTraf
    | exact fun k => absurd k (by decide)
    | with_reducible exact fun _ => rfl
    | with_reducible rfl
    | decide
    | split
    | dsimp only

theorem State.setSeatPower_keep {s : State} {x : Seat} {v : SeatPower} :
    Keep 72057525318451199 s (State.setSeatPower s x v) := by
  unfold State.setSeatPower; try dsimp only
  repeat' first
    | with_reducible exact Keep.rfl'
    | with_reducible assumption
    | with_reducible apply Keep.setPow
    | exact fun k => absurd k (by decide)
    | with_reducible exact fun _ => rfl
    | with_reducible rfl
    | decide
    | split
    | dsimp only

theorem State.setDomain_keep {s : State} {c : CoreId} {d : Nat} {v : DomSt} :
    Keep 72057456598974463 s (State.setDomain s c d v) := by
  unfold State.setDomain; try dsimp only
  repeat' first
    | with_reducible exact Keep.rfl'
    | with_reducible assumption
    | (with_reducible apply Keep.step State.setPowCore_keep; decide)
    | split
    | dsimp only

theorem State.setFabPort_keep {s : State} {c : CoreId} {p : Nat} {v : FabPort} :
    Keep 72057593501057023 s (State.setFabPort s c p v) := by
  unfold State.setFabPort; try dsimp only
  repeat' first
    | with_reducible exact Keep.rfl'
    | with_reducible assumption
    | (with_reducible apply Keep.step State.setFabCore_keep; decide)
    | split
    | dsimp only

theorem State.sendHost_keep {s : State} {x : HostTx} :
    Keep 70931694131085311 s (State.sendHost s x) := by
  unfold State.sendHost; try dsimp only
  repeat' first
    | with_reducible exact Keep.rfl'
    | with_reducible assumption
    | with_reducible apply Keep.setHost
    | exact fun k => absurd k (by decide)
    | with_reducible exact fun _ => rfl
    | with_reducible rfl
    | decide
    | split
    | dsimp only

theorem State.issueReq_keep {s : State} {q : HostReq} :
    Keep 70931694131085311 s (State.issueReq s q) := by
  unfold State.issueReq; try dsimp only
  repeat' first
    | with_reducible exact Keep.rfl'
    | with_reducible assumption
    | (with_reducible apply Keep.step State.sendHost_keep; decide)
    | with_reducible apply Keep.setHost
    | exact fun k => absurd k (by decide)
    | with_reducible exact fun _ => rfl
    | with_reducible rfl
    | decide
    | split
    | dsimp only

theorem State.request_keep {s : State} {q : HostReq} :
    Keep 70931694131085311 s (State.request s q) := by
  unfold State.request; try dsimp only
  repeat' first
    | with_reducible exact Keep.rfl'
    | with_reducible assumption
    | (with_reducible apply Keep.step State.issueReq_keep; decide)
    | with_reducible apply Keep.setHost
    | exact fun k => absurd k (by decide)
    | with_reducible exact fun _ => rfl
    | with_reducible rfl
    | decide
    | with_reducible apply Keep.ite
    | split
    | dsimp only

theorem State.issueNext_keep {s : State} {f : FnId} :
    KeepO 70931694131085311 s (State.issueNext s f) := by
  unfold State.issueNext; try dsimp only
  repeat' first
    | with_reducible exact Keep.rfl'
    | with_reducible assumption
    | (with_reducible apply Keep.step State.issueReq_keep; decide)
    | with_reducible apply Keep.setHost
    | exact fun k => absurd k (by decide)
    | with_reducible exact fun _ => rfl
    | with_reducible rfl
    | decide
    | with_reducible exact KeepO.none
    | with_reducible refine KeepO.some ?_
    | with_reducible apply Keep.ite
    | split
    | dsimp only

theorem State.pumpReqs_keep {a0 : Nat} {a1 : State} {a2 : FnId} :
    Keep 70931694131085311 a1 (State.pumpReqs a0 a1 a2) := by
  induction a0 generalizing a1 a2 with
  | zero => unfold State.pumpReqs; exact Keep.rfl'
  | succ n ih =>
    unfold State.pumpReqs; try dsimp only
    repeat' first
      | with_reducible exact Keep.rfl'
      | with_reducible assumption
      | with_reducible refine Keep.step (KeepO.of State.issueNext_keep (by assumption)) (by decide) ?_
      | (with_reducible apply KeepO.step State.issueNext_keep; decide)
      | (with_reducible apply Keep.step ih; decide)
      | split
      | dsimp only

theorem State.pump_keep {s : State} {f : FnId} :
    Keep 70931694131085311 s (State.pump s f) := by
  unfold State.pump; try dsimp only
  repeat' first
    | with_reducible exact Keep.rfl'
    | with_reducible assumption
    | (with_reducible apply Keep.step State.pumpReqs_keep; decide)
    | split
    | dsimp only

theorem State.msix_keep {s : State} {f : FnId} {v : Nat} :
    Keep 70368744177663999 s (State.msix s f v) := by
  unfold State.msix; try dsimp only
  repeat' first
    | with_reducible exact Keep.rfl'
    | with_reducible assumption
    | (with_reducible apply Keep.step State.request_keep; decide)
    | with_reducible apply Keep.setFnQ
    | exact fun k => absurd k (by decide)
    | with_reducible exact fun _ => rfl
    | with_reducible rfl
    | decide
    | with_reducible apply Keep.ite
    | split
    | dsimp only

theorem State.msixFor_keep {s : State} {f : FnId} {v : Nat} :
    Keep 70368744177663999 s (State.msixFor s f v) := by
  unfold State.msixFor; try dsimp only
  repeat' first
    | with_reducible exact Keep.rfl'
    | with_reducible assumption
    | (with_reducible apply Keep.step State.msix_keep; decide)
    | with_reducible apply Keep.setFnQ
    | exact fun k => absurd k (by decide)
    | with_reducible exact fun _ => rfl
    | with_reducible rfl
    | decide
    | with_reducible apply Keep.ite
    | split
    | dsimp only

theorem State.releaseMsix_keep {s : State} {f : FnId} :
    Keep 70368744177663999 s (State.releaseMsix s f) := by
  unfold State.releaseMsix; try dsimp only
  repeat' first
    | with_reducible exact Keep.rfl'
    | with_reducible assumption
    | (with_reducible apply Keep.step State.request_keep; decide)
    | with_reducible apply Keep.setFnQ
    | exact fun k => absurd k (by decide)
    | with_reducible exact fun _ => rfl
    | with_reducible rfl
    | decide
    | with_reducible refine Keep.foldl ?_ (fun _ _ => ?_)
    | with_reducible refine Keep.foldlFst ?_ (fun _ _ => ?_)
    | with_reducible refine Keep.foldlSnd ?_ (fun _ _ => ?_)
    | with_reducible apply Keep.ite
    | with_reducible apply Keep.iteFst
    | with_reducible apply Keep.iteSnd
    | split
    | dsimp only

theorem State.countDemand_keep {s : State} {i : IsletNo} {rd : Nat} {wr : Nat} :
    Keep 72057576858058751 s (State.countDemand s i rd wr) := by
  unfold State.countDemand; try dsimp only
  repeat' first
    | with_reducible exact Keep.rfl'
    | with_reducible assumption
    | (with_reducible apply Keep.step State.setIsletTraf_keep; decide)
    | with_reducible apply Keep.ite
    | split
    | dsimp only

theorem State.addReq_keep {s : State} {f : FnId} {i : IsletNo} {addr : Nat} {off : Nat} {len : Nat} {why : ReqFor} :
    Keep 70931694131085311 s (State.addReq s f i addr off len why) := by
  unfold State.addReq; try dsimp only
  repeat' first
    | with_reducible exact Keep.rfl'
    | with_reducible assumption
    | (with_reducible apply Keep.step State.request_keep; decide)
    | with_reducible apply Keep.setHost
    | exact fun k => absurd k (by decide)
    | with_reducible exact fun _ => rfl
    | with_reducible rfl
    | decide
    | split
    | dsimp only

theorem State.addReqs_keep {s : State} {f : FnId} {i : IsletNo} {addr : Nat} {len : Nat} {why : ReqFor} :
    Keep 70931694131085311 s (State.addReqs s f i addr len why) := by
  unfold State.addReqs; try dsimp only
  repeat' first
    | with_reducible exact Keep.rfl'
    | with_reducible assumption
    | (with_reducible apply Keep.step State.addReq_keep; decide)
    | with_reducible refine Keep.foldl ?_ (fun _ _ => ?_)
    | with_reducible refine Keep.foldlFst ?_ (fun _ _ => ?_)
    | with_reducible refine Keep.foldlSnd ?_ (fun _ _ => ?_)
    | split
    | dsimp only

theorem State.issueRead_keep {s : State} {f : FnId} {i : IsletNo} {addr : Nat} {len : Nat} {why : ReadFor} :
    Keep 70931676951216111 s (State.issueRead s f i addr len why) := by
  unfold State.issueRead; try dsimp only
  repeat' first
    | with_reducible exact Keep.rfl'
    | with_reducible assumption
    | (with_reducible apply Keep.step State.addReqs_keep; decide)
    | (with_reducible apply Keep.step State.countDemand_keep; decide)
    | with_reducible apply Keep.setHost
    | exact fun k => absurd k (by decide)
    | with_reducible exact fun _ => rfl
    | with_reducible rfl
    | decide
    | split
    | dsimp only

theorem State.endReqs_keep {s : State} {gone : ReqFor → Bool} :
    Keep 70931694131085311 s (State.endReqs s gone) := by
  unfold State.endReqs; try dsimp only
  repeat' first
    | with_reducible exact Keep.rfl'
    | with_reducible assumption
    | (with_reducible apply Keep.step State.pump_keep; decide)
    | with_reducible apply Keep.setHost
    | exact fun k => absurd k (by decide)
    | with_reducible exact fun _ => rfl
    | with_reducible rfl
    | decide
    | with_reducible refine Keep.foldl ?_ (fun _ _ => ?_)
    | with_reducible refine Keep.foldlFst ?_ (fun _ _ => ?_)
    | with_reducible refine Keep.foldlSnd ?_ (fun _ _ => ?_)
    | with_reducible apply Keep.ite
    | with_reducible apply Keep.iteFst
    | with_reducible apply Keep.iteSnd
    | split
    | dsimp only

theorem State.dropReads_keep {s : State} {gone : HostRead → Bool} :
    Keep 70931694131085295 s (State.dropReads s gone) := by
  unfold State.dropReads; try dsimp only
  repeat' first
    | with_reducible exact Keep.rfl'
    | with_reducible assumption
    | (with_reducible apply Keep.step State.endReqs_keep; decide)
    | with_reducible apply Keep.setHost
    | exact fun k => absurd k (by decide)
    | with_reducible exact fun _ => rfl
    | with_reducible rfl
    | decide
    | split
    | dsimp only

theorem State.sendReads_keep {s : State} {f : FnId} {i : IsletNo} {addr : Nat} {len : Nat} :
    Keep 70931694131085311 s (State.sendReads s f i addr len) := by
  unfold State.sendReads; try dsimp only
  repeat' first
    | with_reducible exact Keep.rfl'
    | with_reducible assumption
    | (with_reducible apply Keep.step State.sendHost_keep; decide)
    | with_reducible apply Keep.setHost
    | exact fun k => absurd k (by decide)
    | with_reducible exact fun _ => rfl
    | with_reducible rfl
    | decide
    | with_reducible refine Keep.foldl ?_ (fun _ _ => ?_)
    | with_reducible refine Keep.foldlFst ?_ (fun _ _ => ?_)
    | with_reducible refine Keep.foldlSnd ?_ (fun _ _ => ?_)
    | split
    | dsimp only

theorem State.writeData_keep {s : State} {f : FnId} {i : IsletNo} {addr : Nat} {b : List Byte} :
    Keep 70931676951216127 s (State.writeData s f i addr b).2 := by
  unfold State.writeData; try dsimp only
  repeat' first
    | with_reducible exact Keep.rfl'
    | with_reducible assumption
    | (with_reducible apply Keep.step State.countDemand_keep; decide)
    | (with_reducible apply Keep.step State.request_keep; decide)
    | with_reducible refine Keep.foldl ?_ (fun _ _ => ?_)
    | with_reducible refine Keep.foldlFst ?_ (fun _ _ => ?_)
    | with_reducible refine Keep.foldlSnd ?_ (fun _ _ => ?_)
    | with_reducible apply Keep.ite
    | with_reducible apply Keep.iteFst
    | with_reducible apply Keep.iteSnd
    | split
    | dsimp only
theorem State.writeData_keepE {s : State} {f : FnId} {i : IsletNo} {addr : Nat} {b : List Byte} {rE tE} (hE : (State.writeData s f i addr b) = (rE, tE)) : Keep 70931676951216127 s tE := by
  have k := @State.writeData_keep s f i addr b; rw [hE] at k; exact k

theorem State.managerVectorPort_keep {s : State} {p : PortId} {v : Nat} :
    Keep 70368744177663999 s (State.managerVectorPort s p v) := by
  unfold State.managerVectorPort; try dsimp only
  repeat' first
    | with_reducible exact Keep.rfl'
    | with_reducible assumption
    | (with_reducible apply Keep.step State.msix_keep; decide)
    | split
    | dsimp only

theorem State.managerVectorUp_keep {s : State} {fs : List FnId} {v : Nat} :
    Keep 70368744177663999 s (State.managerVectorUp s fs v) := by
  unfold State.managerVectorUp; try dsimp only
  repeat' first
    | with_reducible exact Keep.rfl'
    | with_reducible assumption
    | (with_reducible apply Keep.step State.msix_keep; decide)
    | with_reducible refine Keep.foldl ?_ (fun _ _ => ?_)
    | with_reducible refine Keep.foldlFst ?_ (fun _ _ => ?_)
    | with_reducible refine Keep.foldlSnd ?_ (fun _ _ => ?_)
    | with_reducible apply Keep.ite
    | with_reducible apply Keep.iteFst
    | with_reducible apply Keep.iteSnd
    | split
    | dsimp only

end Sys2Proof.Machine
end

