-- ==== Sys2Proof/Laws/KeepFlags.lean ====
section
/-! SUPPORT. What the operations of Machine/Flags.lean may change: one lemma each. -/

namespace Sys2Proof.Machine

theorem State.startExit_keep {s : State} {c : CoreId} {d : Nat} :
    Keep 72057456598974463 s (State.startExit s c d) := by
  unfold State.startExit; try dsimp only
  repeat' first
    | with_reducible exact Keep.rfl'
    | with_reducible assumption
    | (with_reducible apply Keep.step State.setDomain_keep; decide)
    | (with_reducible apply Keep.step State.setPowCore_keep; decide)
    | with_reducible apply Keep.ite
    | split
    | dsimp only

theorem State.wake0_keep {s : State} {c : CoreId} {d : Nat} :
    Keep 72057456598974463 s (State.wake0 s c d).1 := by
  unfold State.wake0; try dsimp only
  repeat' first
    | with_reducible exact Keep.rfl'
    | with_reducible assumption
    | (with_reducible apply Keep.step State.setDomain_keep; decide)
    | (with_reducible apply Keep.step State.startExit_keep; decide)
    | with_reducible apply Keep.ite
    | with_reducible apply Keep.iteFst
    | split
    | dsimp only
theorem State.wake0_keepE {s : State} {c : CoreId} {d : Nat} {tE rE} (hE : (State.wake0 s c d) = (tE, rE)) : Keep 72057456598974463 s tE := by
  have k := @State.wake0_keep s c d; rw [hE] at k; exact k

theorem State.countLatched_keep {s : State} {c : CoreId} :
    Keep 72022409665830911 s (State.countLatched s c) := by
  unfold State.countLatched; try dsimp only
  repeat' first
    | with_reducible exact Keep.rfl'
    | with_reducible assumption
    | (with_reducible apply Keep.step State.setCntCore_keep; decide)
    | (with_reducible apply Keep.step State.setEvtCore_keep; decide)
    | with_reducible refine Keep.foldl ?_ (fun _ _ => ?_)
    | with_reducible refine Keep.foldlFst ?_ (fun _ _ => ?_)
    | with_reducible refine Keep.foldlSnd ?_ (fun _ _ => ?_)
    | with_reducible apply Keep.ite
    | with_reducible apply Keep.iteFst
    | with_reducible apply Keep.iteSnd
    | split
    | dsimp only

theorem State.wakeTarget_keep {s : State} {c : CoreId} {t : Nat} :
    Keep 72022272226877439 s (State.wakeTarget s c t) := by
  unfold State.wakeTarget; try dsimp only
  repeat' first
    | with_reducible exact Keep.rfl'
    | with_reducible assumption
    | (with_reducible apply Keep.step State.countLatched_keep; decide)
    | (with_reducible apply Keep.step State.setEvtCore_keep; decide)
    | (with_reducible apply Keep.step State.wake0_keep; decide)
    | with_reducible refine Keep.step (State.wake0_keepE (by assumption)) (by decide) ?_
    | with_reducible refine Keep.getD ?_ ?_
    | with_reducible apply Keep.ite
    | split
    | dsimp only

theorem State.edge_keep {s : State} {c : CoreId} {n : Nat} :
    Keep 72022272226877439 s (State.edge s c n) := by
  unfold State.edge; try dsimp only
  repeat' first
    | with_reducible exact Keep.rfl'
    | with_reducible assumption
    | (with_reducible apply Keep.step State.setEvtCore_keep; decide)
    | (with_reducible apply Keep.step State.wakeTarget_keep; decide)
    | with_reducible apply Keep.ite
    | split
    | dsimp only

theorem State.edgeBoth_keep {s : State} {n : Nat} :
    Keep 72022272226877439 s (State.edgeBoth s n) := by
  unfold State.edgeBoth; try dsimp only
  repeat' first
    | with_reducible exact Keep.rfl'
    | with_reducible assumption
    | (with_reducible apply Keep.step State.edge_keep; decide)
    | split
    | dsimp only

theorem State.privEdge_keep {s : State} {c : CoreId} {t : Nat} {k : Nat} :
    Keep 72022272226877439 s (State.privEdge s c t k) := by
  unfold State.privEdge; try dsimp only
  repeat' first
    | with_reducible exact Keep.rfl'
    | with_reducible assumption
    | (with_reducible apply Keep.step State.setEvtCore_keep; decide)
    | (with_reducible apply Keep.step State.wakeTarget_keep; decide)
    | with_reducible apply Keep.ite
    | split
    | dsimp only

theorem State.sample_keep {s : State} {c : CoreId} {t : Nat} {at' : Option SampleAt} :
    Keep 72022272226877439 s (State.sample s c t at') := by
  unfold State.sample; try dsimp only
  repeat' first
    | with_reducible exact Keep.rfl'
    | with_reducible assumption
    | (with_reducible apply Keep.step State.privEdge_keep; decide)
    | (with_reducible apply Keep.step State.setCntCore_keep; decide)
    | with_reducible apply Keep.ite
    | split
    | dsimp only

theorem State.addCounter_keep {s : State} {c : CoreId} {n : Nat} {m : Nat} {at' : Option SampleAt} :
    Keep 72022272226877439 s (State.addCounter s c n m at') := by
  unfold State.addCounter; try dsimp only
  repeat' first
    | with_reducible exact Keep.rfl'
    | with_reducible assumption
    | (with_reducible apply Keep.step State.edge_keep; decide)
    | (with_reducible apply Keep.step State.sample_keep; decide)
    | (with_reducible apply Keep.step State.setCntCore_keep; decide)
    | with_reducible apply Keep.ite
    | split
    | dsimp only

theorem State.countAt_keep {s : State} {c : CoreId} {ev : Nat} {ctx : List (Nat × Nat)} {m : Nat} {at' : Option SampleAt} :
    Keep 72022272226877439 s (State.countAt s c ev ctx m at') := by
  unfold State.countAt; try dsimp only
  repeat' first
    | with_reducible exact Keep.rfl'
    | with_reducible assumption
    | (with_reducible apply Keep.step State.addCounter_keep; decide)
    | with_reducible refine Keep.foldl ?_ (fun _ _ => ?_)
    | with_reducible refine Keep.foldlFst ?_ (fun _ _ => ?_)
    | with_reducible refine Keep.foldlSnd ?_ (fun _ _ => ?_)
    | with_reducible apply Keep.ite
    | with_reducible apply Keep.iteFst
    | with_reducible apply Keep.iteSnd
    | split
    | dsimp only

theorem State.count_keep {s : State} {c : CoreId} {ev : Nat} {ctx : List (Nat × Nat)} {m : Nat} :
    Keep 72022272226877439 s (State.count s c ev ctx m) := by
  unfold State.count; try dsimp only
  repeat' first
    | with_reducible exact Keep.rfl'
    | with_reducible assumption
    | (with_reducible apply Keep.step State.countAt_keep; decide)
    | split
    | dsimp only

theorem State.wake_keep {s : State} {c : CoreId} {d : Nat} :
    Keep 72022272226877439 s (State.wake s c d) := by
  unfold State.wake; try dsimp only
  repeat' first
    | with_reducible exact Keep.rfl'
    | with_reducible assumption
    | (with_reducible apply Keep.step State.count_keep; decide)
    | (with_reducible apply Keep.step State.edge_keep; decide)
    | (with_reducible apply Keep.step State.wake0_keep; decide)
    | with_reducible refine Keep.step (State.wake0_keepE (by assumption)) (by decide) ?_
    | with_reducible apply Keep.ite
    | split
    | dsimp only

theorem State.bumpSeat_keep {s : State} {x : Seat} {k : Nat} {m : Nat} :
    Keep 72022409665839103 s (State.bumpSeat s x k m) := by
  unfold State.bumpSeat; try dsimp only
  repeat' first
    | with_reducible exact Keep.rfl'
    | with_reducible assumption
    | (with_reducible apply Keep.step State.setCntCore_keep; decide)
    | with_reducible apply Keep.ite
    | split
    | dsimp only

theorem State.bumpIslet_keep {s : State} {c : CoreId} {i : IsletNo} {k : Nat} :
    Keep 72022409665839103 s (State.bumpIslet s c i k) := by
  unfold State.bumpIslet; try dsimp only
  repeat' first
    | with_reducible exact Keep.rfl'
    | with_reducible assumption
    | (with_reducible apply Keep.step State.setCntCore_keep; decide)
    | with_reducible apply Keep.ite
    | split
    | dsimp only

theorem State.latency_keep {s : State} {c : CoreId} {i : IsletNo} {cls : Nat} {l : Nat} :
    Keep 72022409665839103 s (State.latency s c i cls l) := by
  unfold State.latency; try dsimp only
  repeat' first
    | with_reducible exact Keep.rfl'
    | with_reducible assumption
    | (with_reducible apply Keep.step State.setCntCore_keep; decide)
    | with_reducible apply Keep.ite
    | split
    | dsimp only

theorem State.bwSettle_keep {s : State} {c : CoreId} :
    Keep 72022409665839103 s (State.bwSettle s c) := by
  unfold State.bwSettle; try dsimp only
  repeat' first
    | with_reducible exact Keep.rfl'
    | with_reducible assumption
    | (with_reducible apply Keep.step State.setCntCore_keep; decide)
    | with_reducible apply Keep.ite
    | split
    | dsimp only

theorem State.bwFollow_keep {s : State} {c : CoreId} :
    Keep 72022409665839103 s (State.bwFollow s c) := by
  unfold State.bwFollow; try dsimp only
  repeat' first
    | with_reducible exact Keep.rfl'
    | with_reducible assumption
    | (with_reducible apply Keep.step State.bwSettle_keep; decide)
    | (with_reducible apply Keep.step State.setCntCore_keep; decide)
    | with_reducible apply Keep.ite
    | split
    | dsimp only

theorem State.bwCount_keep {s : State} {c : CoreId} {p : Nat} {out : Bool} {bytes : Nat} :
    Keep 72022409665839103 s (State.bwCount s c p out bytes) := by
  unfold State.bwCount; try dsimp only
  repeat' first
    | with_reducible exact Keep.rfl'
    | with_reducible assumption
    | (with_reducible apply Keep.step State.bwSettle_keep; decide)
    | (with_reducible apply Keep.step State.setCntCore_keep; decide)
    | with_reducible apply Keep.ite
    | split
    | dsimp only

theorem State.elapseTes_keep {s : State} {c : CoreId} {old : Nat} {new' : Nat} :
    Keep 72022272226875391 s (State.elapseTes s c old new') := by
  unfold State.elapseTes; try dsimp only
  repeat' first
    | with_reducible exact Keep.rfl'
    | with_reducible assumption
    | (with_reducible apply Keep.step State.countAt_keep; decide)
    | with_reducible apply Keep.setTe
    | exact fun k => absurd k (by decide)
    | with_reducible exact fun _ => rfl
    | with_reducible rfl
    | decide
    | with_reducible refine Keep.foldl ?_ (fun _ _ => ?_)
    | with_reducible refine Keep.foldlFst ?_ (fun _ _ => ?_)
    | with_reducible refine Keep.foldlSnd ?_ (fun _ _ => ?_)
    | with_reducible apply Keep.ite
    | with_reducible apply Keep.iteFst
    | with_reducible apply Keep.iteSnd
    | split
    | dsimp only

theorem State.advanceCore_keep {s : State} {c : CoreId} {ut : Nat} :
    Keep 31489875580540926 s (State.advanceCore s c ut) := by
  have hc : ¬ ut ≤ s.ut c → Keep 31489875580540926 s (s.setTime (match c with
      | .a => { s.time with utA := ut }
      | .b => { s.time with utB := ut })) := fun h => by
    refine Keep.setTime Keep.rfl' (fun k => absurd k (by decide)) (fun _ => by cases c <;> rfl) (fun _ => ?_) fun k => absurd k (by decide)
    cases c <;> simp only [State.ut] at h
    · exact ⟨show s.time.utA ≤ ut by omega, Nat.le_refl _⟩
    · exact ⟨Nat.le_refl _, show s.time.utB ≤ ut by omega⟩
  unfold State.advanceCore; dsimp only
  split
  · exact Keep.rfl'
  · rename_i h
    have k := hc h
    have m (b : Bool) {x : State} (c : CoreId) (n : Nat) (h : Keep 31489875580540926 s x) :
        Keep 31489875580540926 s (if b = true then x.count c 0x018 [] n else x) := by
      split
      · exact Keep.step State.count_keep (by decide) h
      · exact h
    exact Keep.step State.bwFollow_keep (by decide) (m _ c _ (Keep.step State.elapseTes_keep (by decide)
      (Keep.step State.count_keep (by decide) (Keep.step State.count_keep (by decide) k))))

theorem State.freezeNow_keep {s : State} {c : CoreId} :
    Keep 72022409665839103 s (State.freezeNow s c) := by
  unfold State.freezeNow; try dsimp only
  repeat' first
    | with_reducible exact Keep.rfl'
    | with_reducible assumption
    | (with_reducible apply Keep.step State.setCntCore_keep; decide)
    | with_reducible apply Keep.ite
    | split
    | dsimp only

theorem State.arriveCore_keep {s : State} {c : CoreId} {ut : Nat} :
    Keep 31489875580540926 s (State.arriveCore s c ut) := by
  unfold State.arriveCore; try dsimp only
  repeat' first
    | with_reducible exact Keep.rfl'
    | with_reducible assumption
    | (with_reducible apply Keep.step State.advanceCore_keep; decide)
    | (with_reducible apply Keep.step State.freezeNow_keep; decide)
    | with_reducible apply Keep.ite
    | split
    | dsimp only

theorem State.arrive_keep {s : State} {ut : Nat} :
    Keep 31489875580540926 s (State.arrive s ut) := by
  unfold State.arrive; try dsimp only
  repeat' first
    | with_reducible exact Keep.rfl'
    | with_reducible assumption
    | (with_reducible apply Keep.step State.arriveCore_keep; decide)
    | with_reducible apply Keep.setTime
    | exact fun k => absurd k (by decide)
    | with_reducible exact fun _ => rfl
    | with_reducible rfl
    | decide
    | exact fun _ => rfl
    | exact fun _ => ⟨Nat.le_refl _, Nat.le_refl _⟩
    | exact fun _ => .inl rfl
    | with_reducible apply Keep.ite
    | split
    | dsimp only

theorem State.steerAgain_keep {s : State} :
    Keep 67545198317535231 s (State.steerAgain s) := by
  unfold State.steerAgain; try dsimp only
  repeat' first
    | with_reducible exact Keep.rfl'
    | with_reducible assumption
    | with_reducible apply Keep.setFlt
    | with_reducible apply Keep.setTime
    | exact fun k => absurd k (by decide)
    | with_reducible exact fun _ => rfl
    | with_reducible rfl
    | decide
    | exact fun _ => rfl
    | exact fun _ => ⟨Nat.le_refl _, Nat.le_refl _⟩
    | exact fun _ => .inl rfl
    | with_reducible apply Keep.ite
    | split
    | dsimp only

theorem State.driftApart_keep {s : State} :
    Keep 67404460829179903 s (State.driftApart s) := by
  unfold State.driftApart; try dsimp only
  repeat' first
    | with_reducible exact Keep.rfl'
    | with_reducible assumption
    | (with_reducible apply Keep.step State.draw_keep; decide)
    | with_reducible refine Keep.step (State.draw_keepE (by assumption)) (by decide) ?_
    | with_reducible apply Keep.setFlt
    | with_reducible apply Keep.setTime
    | exact fun k => absurd k (by decide)
    | with_reducible exact fun _ => rfl
    | with_reducible rfl
    | decide
    | exact fun _ => rfl
    | exact fun _ => ⟨Nat.le_refl _, Nat.le_refl _⟩
    | exact fun _ => .inl rfl
    | split
    | dsimp only

theorem State.readHost_keep {s : State} {f : FnId} {i : IsletNo} {addr : Nat} {len : Nat} {why : ReadFor} :
    Keep 70896355140165615 s (State.readHost s f i addr len why) := by
  unfold State.readHost; try dsimp only
  repeat' first
    | with_reducible exact Keep.rfl'
    | with_reducible assumption
    | (with_reducible apply Keep.step State.count_keep; decide)
    | (with_reducible apply Keep.step State.issueRead_keep; decide)
    | split
    | dsimp only

theorem State.failCount_keep {s : State} {f : FnId} {i : IsletNo} :
    Keep 72022272226877439 s (State.failCount s f i) := by
  unfold State.failCount; try dsimp only
  repeat' first
    | with_reducible exact Keep.rfl'
    | with_reducible assumption
    | (with_reducible apply Keep.step State.count_keep; decide)
    | split
    | dsimp only

theorem State.writeHost_keep {s : State} {f : FnId} {i : IsletNo} {addr : Nat} {b : List Byte} :
    Keep 70896355140165631 s (State.writeHost s f i addr b).2 := by
  unfold State.writeHost; try dsimp only
  repeat' first
    | with_reducible exact Keep.rfl'
    | with_reducible assumption
    | (with_reducible apply Keep.step State.count_keep; decide)
    | (with_reducible apply Keep.step State.failCount_keep; decide)
    | (with_reducible apply Keep.step State.writeData_keep; decide)
    | with_reducible refine Keep.step (State.writeData_keepE (by assumption)) (by decide) ?_
    | with_reducible apply Keep.ite
    | with_reducible apply Keep.iteSnd
    | split
    | dsimp only
theorem State.writeHost_keepE {s : State} {f : FnId} {i : IsletNo} {addr : Nat} {b : List Byte} {rE tE} (hE : (State.writeHost s f i addr b) = (rE, tE)) : Keep 70896355140165631 s tE := by
  have k := @State.writeHost_keep s f i addr b; rw [hE] at k; exact k

theorem State.writeEntry_keep {s : State} {h : Nat} {e : EntrySt} {addr : Nat} {b : List Byte} :
    Keep 70896355140165375 s (State.writeEntry s h e addr b).2 := by
  unfold State.writeEntry; try dsimp only
  repeat' first
    | with_reducible exact Keep.rfl'
    | with_reducible assumption
    | (with_reducible apply Keep.step State.usePort_keep; decide)
    | (with_reducible apply Keep.step State.writeHost_keep; decide)
    | with_reducible refine Keep.step (State.writeHost_keepE (by assumption)) (by decide) ?_
    | with_reducible apply Keep.ite
    | with_reducible apply Keep.iteSnd
    | split
    | dsimp only
theorem State.writeEntry_keepE {s : State} {h : Nat} {e : EntrySt} {addr : Nat} {b : List Byte} {rE tE} (hE : (State.writeEntry s h e addr b) = (rE, tE)) : Keep 70896355140165375 s tE := by
  have k := @State.writeEntry_keep s h e addr b; rw [hE] at k; exact k

theorem State.logLine_keep {s : State} {text : List Byte} :
    Keep 71987225293750271 s (State.logLine s text) := by
  unfold State.logLine; try dsimp only
  repeat' first
    | with_reducible exact Keep.rfl'
    | with_reducible assumption
    | with_reducible apply Keep.setSvc
    | exact fun k => absurd k (by decide)
    | with_reducible exact fun _ => rfl
    | with_reducible rfl
    | decide
    | split
    | dsimp only

theorem State.consolePut_keep {s : State} {b : List Byte} :
    Keep 71987225293750271 s (State.consolePut s b) := by
  unfold State.consolePut; try dsimp only
  repeat' first
    | with_reducible exact Keep.rfl'
    | with_reducible assumption
    | with_reducible apply Keep.setSvc
    | exact fun k => absurd k (by decide)
    | with_reducible exact fun _ => rfl
    | with_reducible rfl
    | decide
    | split
    | dsimp only

theorem State.consoleOut_keep {s : State} {text : List Byte} :
    Keep 71987225293750271 s (State.consoleOut s text) := by
  unfold State.consoleOut; try dsimp only
  repeat' first
    | with_reducible exact Keep.rfl'
    | with_reducible assumption
    | (with_reducible apply Keep.step State.consolePut_keep; decide)
    | split
    | dsimp only

theorem State.errLog_keep {s : State} {c : CoreId} {code : Nat} {about : CoreId} {sev : Nat} {loc : Nat} {detail : Nat} :
    Keep 70280783247441919 s (State.errLog s c code about sev loc detail) := by
  unfold State.errLog; try dsimp only
  repeat' first
    | with_reducible exact Keep.rfl'
    | with_reducible assumption
    | (with_reducible apply Keep.step State.logLine_keep; decide)
    | (with_reducible apply Keep.step State.managerVectorUp_keep; decide)
    | with_reducible apply Keep.setFlt
    | exact fun k => absurd k (by decide)
    | with_reducible exact fun _ => rfl
    | with_reducible rfl
    | decide
    | with_reducible apply Keep.ite
    | split
    | dsimp only

theorem State.setModeChange_keep {s : State} :
    Keep 71494644084506623 s (State.setModeChange s) := by
  unfold State.setModeChange; try dsimp only
  repeat' first
    | with_reducible exact Keep.rfl'
    | with_reducible assumption
    | with_reducible apply Keep.setFnQ
    | exact fun k => absurd k (by decide)
    | with_reducible exact fun _ => rfl
    | with_reducible rfl
    | decide
    | with_reducible refine Keep.foldl ?_ (fun _ _ => ?_)
    | with_reducible refine Keep.foldlFst ?_ (fun _ _ => ?_)
    | with_reducible refine Keep.foldlSnd ?_ (fun _ _ => ?_)
    | split
    | dsimp only

theorem State.enterMode_keep {s : State} {m : Mode} :
    Keep 70261541793955839 s (State.enterMode s m) := by
  unfold State.enterMode; try dsimp only
  repeat' first
    | with_reducible exact Keep.rfl'
    | with_reducible assumption
    | (with_reducible apply Keep.step State.bwSettle_keep; decide)
    | (with_reducible apply Keep.step State.logLine_keep; decide)
    | (with_reducible apply Keep.step State.managerVectorUp_keep; decide)
    | (with_reducible apply Keep.step State.setModeChange_keep; decide)
    | with_reducible apply Keep.setMode
    | exact fun k => absurd k (by decide)
    | with_reducible exact fun _ => rfl
    | with_reducible rfl
    | decide
    | with_reducible apply Keep.ite
    | split
    | dsimp only

theorem State.reMode_keep {s : State} :
    Keep 70261541793955839 s (State.reMode s) := by
  unfold State.reMode; try dsimp only
  repeat' first
    | with_reducible exact Keep.rfl'
    | with_reducible assumption
    | (with_reducible apply Keep.step State.enterMode_keep; decide)
    | with_reducible apply Keep.ite
    | split
    | dsimp only

theorem State.reasonOn_keep {s : State} {n : Fin 16} :
    Keep 70294527142789119 s (State.reasonOn s n) := by
  unfold State.reasonOn; try dsimp only
  repeat' first
    | with_reducible exact Keep.rfl'
    | with_reducible assumption
    | (with_reducible apply Keep.step State.logLine_keep; decide)
    | (with_reducible apply Keep.step State.managerVectorUp_keep; decide)
    | with_reducible apply Keep.setMode
    | exact fun k => absurd k (by decide)
    | with_reducible exact fun _ => rfl
    | with_reducible rfl
    | decide
    | with_reducible apply Keep.ite
    | split
    | dsimp only

theorem State.reasonClear_keep {s : State} {n : Fin 16} :
    Keep 70366545154408447 s (State.reasonClear s n) := by
  unfold State.reasonClear; try dsimp only
  repeat' first
    | with_reducible exact Keep.rfl'
    | with_reducible assumption
    | (with_reducible apply Keep.step State.managerVectorUp_keep; decide)
    | with_reducible apply Keep.setMode
    | exact fun k => absurd k (by decide)
    | with_reducible exact fun _ => rfl
    | with_reducible rfl
    | decide
    | with_reducible apply Keep.ite
    | split
    | dsimp only

theorem State.reasonOff_keep {s : State} {n : Fin 16} :
    Keep 70366545154408447 s (State.reasonOff s n) := by
  unfold State.reasonOff; try dsimp only
  repeat' first
    | with_reducible exact Keep.rfl'
    | with_reducible assumption
    | (with_reducible apply Keep.step State.reasonClear_keep; decide)
    | with_reducible apply Keep.setMode
    | exact fun k => absurd k (by decide)
    | with_reducible exact fun _ => rfl
    | with_reducible rfl
    | decide
    | with_reducible apply Keep.ite
    | split
    | dsimp only

theorem State.storeUpdate_keep {s : State} {f : StoreCopy → StoreCopy} :
    Keep 72057594037927927 s (State.storeUpdate s f) := by
  unfold State.storeUpdate; try dsimp only
  repeat' first
    | with_reducible exact Keep.rfl'
    | with_reducible assumption
    | with_reducible apply Keep.setHost
    | exact fun k => absurd k (by decide)
    | with_reducible exact fun _ => rfl
    | with_reducible rfl
    | decide
    | split
    | dsimp only

end Sys2Proof.Machine
end

