-- ==== Sys2Proof/Laws/KeepRings.lean ====
section
/-! SUPPORT. What the operations of Machine/Rings.lean may change: one lemma each. -/

namespace Sys2Proof.Machine

theorem State.restall_keep {s : State} {c : CoreId} {i : IsletNo} {r : Nat} :
    Keep 72022272226877311 s (State.restall s c i r) := by
  unfold State.restall; try dsimp only
  repeat' first
    | with_reducible exact Keep.rfl'
    | with_reducible assumption
    | (with_reducible apply Keep.step State.edge_keep; decide)
    | (with_reducible apply Keep.step State.setRing_keep; decide)
    | with_reducible apply Keep.ite
    | split
    | dsimp only

theorem State.restallAll_keep {s : State} {i : IsletNo} :
    Keep 72022272226877311 s (State.restallAll s i) := by
  unfold State.restallAll; try dsimp only
  repeat' first
    | with_reducible exact Keep.rfl'
    | with_reducible assumption
    | (with_reducible apply Keep.step State.restall_keep; decide)
    | with_reducible refine Keep.foldl ?_ (fun _ _ => ?_)
    | with_reducible refine Keep.foldlFst ?_ (fun _ _ => ?_)
    | with_reducible refine Keep.foldlSnd ?_ (fun _ _ => ?_)
    | split
    | dsimp only

theorem State.newRound_keep {s : State} {c : CoreId} {i : IsletNo} :
    Keep 72057594037927359 s (State.newRound s c i) := by
  unfold State.newRound; try dsimp only
  repeat' first
    | with_reducible exact Keep.rfl'
    | with_reducible assumption
    | (with_reducible apply Keep.step State.setQueue_keep; decide)
    | with_reducible apply Keep.setWq
    | exact fun k => absurd k (by decide)
    | with_reducible exact fun _ => rfl
    | with_reducible rfl
    | decide
    | with_reducible refine Keep.foldl ?_ (fun _ _ => ?_)
    | with_reducible refine Keep.foldlFst ?_ (fun _ _ => ?_)
    | with_reducible refine Keep.foldlSnd ?_ (fun _ _ => ?_)
    | split
    | dsimp only

theorem State.pushRecord_keep {s : State} {c : CoreId} {i : IsletNo} {r : Nat} {v : Rec} :
    Keep 72057594037927807 s (State.pushRecord s c i r v) := by
  unfold State.pushRecord; try dsimp only
  repeat' first
    | with_reducible exact Keep.rfl'
    | with_reducible assumption
    | (with_reducible apply Keep.step State.setRing_keep; decide)
    | split
    | dsimp only

theorem State.releaseFlow_keep {a0 : Nat} {a1 : State} {a2 : EntrySt} :
    Keep 72057594037927551 a1 (State.releaseFlow a0 a1 a2) := by
  induction a0 generalizing a1 a2 with
  | zero => unfold State.releaseFlow; exact Keep.rfl'
  | succ n ih =>
    unfold State.releaseFlow; try dsimp only
    repeat' first
      | with_reducible exact Keep.rfl'
      | with_reducible assumption
      | (with_reducible apply Keep.step State.pushRecord_keep; decide)
      | (with_reducible apply Keep.step State.setEntry_keep; decide)
      | (with_reducible apply Keep.step ih; decide)
      | split
      | dsimp only

theorem State.finishFrom_keep {s : State} {h : Nat} {status : Nat} {count : Nat} {detail : Nat} {from' : Nat} :
    Keep 72022272226877055 s (State.finishFrom s h status count detail from') := by
  unfold State.finishFrom; try dsimp only
  repeat' first
    | with_reducible exact Keep.rfl'
    | with_reducible assumption
    | (with_reducible apply Keep.step State.bumpIslet_keep; decide)
    | (with_reducible apply Keep.step State.count_keep; decide)
    | (with_reducible apply Keep.step State.releaseFlow_keep; decide)
    | (with_reducible apply Keep.step State.setEntry_keep; decide)
    | with_reducible apply Keep.ite
    | split
    | dsimp only

theorem State.finish_keep {s : State} {h : Nat} {status : Nat} {count : Nat} {detail : Nat} :
    Keep 72022272226877055 s (State.finish s h status count detail) := by
  unfold State.finish; try dsimp only
  repeat' first
    | with_reducible exact Keep.rfl'
    | with_reducible assumption
    | (with_reducible apply Keep.step State.finishFrom_keep; decide)
    | split
    | dsimp only

theorem State.begin__keep {s : State} {h : Nat} :
    Keep 72057594037927679 s (State.begin_ s h) := by
  unfold State.begin_; try dsimp only
  repeat' first
    | with_reducible exact Keep.rfl'
    | with_reducible assumption
    | (with_reducible apply Keep.step State.setEntry_keep; decide)
    | split
    | dsimp only

theorem State.hand_keep {s : State} {h : Nat} :
    Keep 72057594037927679 s (State.hand s h) := by
  unfold State.hand; try dsimp only
  repeat' first
    | with_reducible exact Keep.rfl'
    | with_reducible assumption
    | (with_reducible apply Keep.step State.setEntry_keep; decide)
    | split
    | dsimp only

theorem State.changeRecord_keep {s : State} {c : CoreId} {i : IsletNo} {b : List Byte} :
    Keep 72022272226877311 s (State.changeRecord s c i b) := by
  unfold State.changeRecord; try dsimp only
  repeat' first
    | with_reducible exact Keep.rfl'
    | with_reducible assumption
    | (with_reducible apply Keep.step State.bumpIslet_keep; decide)
    | (with_reducible apply Keep.step State.restall_keep; decide)
    | (with_reducible apply Keep.step State.setRing_keep; decide)
    | split
    | dsimp only

theorem State.faultRecord_keep {s : State} {c : CoreId} {i : IsletNo} {b : List Byte} :
    Keep 72022272226877311 s (State.faultRecord s c i b) := by
  unfold State.faultRecord; try dsimp only
  repeat' first
    | with_reducible exact Keep.rfl'
    | with_reducible assumption
    | (with_reducible apply Keep.step State.bumpIslet_keep; decide)
    | (with_reducible apply Keep.step State.restall_keep; decide)
    | (with_reducible apply Keep.step State.setRing_keep; decide)
    | split
    | dsimp only

theorem State.ringMessages_keep {s : State} {i : IsletNo} :
    Keep 70368744177663999 s (State.ringMessages s i) := by
  unfold State.ringMessages; try dsimp only
  repeat' first
    | with_reducible exact Keep.rfl'
    | with_reducible assumption
    | (with_reducible apply Keep.step State.msixFor_keep; decide)
    | with_reducible refine Keep.foldl ?_ (fun _ _ => ?_)
    | with_reducible refine Keep.foldlFst ?_ (fun _ _ => ?_)
    | with_reducible refine Keep.foldlSnd ?_ (fun _ _ => ?_)
    | with_reducible apply Keep.ite
    | with_reducible apply Keep.iteFst
    | with_reducible apply Keep.iteSnd
    | split
    | dsimp only

theorem State.iswPut_keepH {K : Nat} {s x : State} {c : CoreId} {i : IsletNo} {f : Memory → Memory} (h : Keep K s x)
    (k : K.testBit 14 = false) (hf : ∀ m, Memory.wf m = true → Memory.wf (f m) = true) : Keep K s (State.iswPut x c i f) := by
  unfold State.iswPut; dsimp only
  have h1 : Keep K s (x.setIsw c i (f (x.isw c i))) := h.setIsw k fun w => hf _ (State.isw_wf w)
  split
  · exact h1.setIsw k fun w => hf _ (State.isw_wf w)
  · exact h1

theorem State.setEp_keep {s : State} {k : Nat} {v : EpSt} :
    Keep 72057594037780479 s (State.setEp s k v) := by
  unfold State.setEp; try dsimp only
  repeat' first
    | with_reducible exact Keep.rfl'
    | with_reducible assumption
    | with_reducible apply State.iswPut_keepH
    | with_reducible apply Keep.setUsb
    | exact fun k => absurd k (by decide)
    | with_reducible exact fun _ => rfl
    | with_reducible rfl
    | decide
    | decide
    | with_reducible apply writeBytes_wf
    | with_reducible apply writeNat_wf
    | with_reducible apply foldl_mem_wf
    | exact State.isw_wf (by assumption)
    | exact State.due_wf (by assumption)
    | exact State.dram_wf (by assumption)
    | with_reducible rfl
    | intro _
    | decide
    | intro _
    | with_reducible apply Keep.ite
    | split
    | dsimp only

theorem State.dropWork_keep {s : State} {h : Nat} :
    Keep 72057589725773823 s (State.dropWork s h) := by
  unfold State.dropWork; try dsimp only
  repeat' first
    | with_reducible exact Keep.rfl'
    | with_reducible assumption
    | (with_reducible apply Keep.step State.setEp_keep; decide)
    | with_reducible apply Keep.setDisp
    | with_reducible apply Keep.setTraf
    | with_reducible apply Keep.setUsb
    | exact fun k => absurd k (by decide)
    | with_reducible exact fun _ => rfl
    | with_reducible rfl
    | decide
    | with_reducible refine Keep.foldl ?_ (fun _ _ => ?_)
    | with_reducible refine Keep.foldlFst ?_ (fun _ _ => ?_)
    | with_reducible refine Keep.foldlSnd ?_ (fun _ _ => ?_)
    | split
    | dsimp only

theorem State.isoNotRun_keep {s : State} {h : Nat} {e : EntrySt} :
    Keep 70896355140165375 s (State.isoNotRun s h e).2 := by
  unfold State.isoNotRun; try dsimp only
  repeat' first
    | with_reducible exact Keep.rfl'
    | with_reducible assumption
    | (with_reducible apply Keep.step State.writeEntry_keep; decide)
    | with_reducible refine Keep.step (State.writeEntry_keepE (by assumption)) (by decide) ?_
    | with_reducible apply Keep.ite
    | with_reducible apply Keep.iteSnd
    | split
    | dsimp only
theorem State.isoNotRun_keepE {s : State} {h : Nat} {e : EntrySt} {rE tE} (hE : (State.isoNotRun s h e) = (rE, tE)) : Keep 70896355140165375 s tE := by
  have k := @State.isoNotRun_keep s h e; rw [hE] at k; exact k

theorem State.endHalted_keep {s : State} {h : Nat} {e : EntrySt} :
    Keep 70896350828011135 s (State.endHalted s h e) := by
  unfold State.endHalted; try dsimp only
  repeat' first
    | with_reducible exact Keep.rfl'
    | with_reducible assumption
    | (with_reducible apply Keep.step State.dropWork_keep; decide)
    | (with_reducible apply Keep.step State.finish_keep; decide)
    | (with_reducible apply Keep.step State.isoNotRun_keep; decide)
    | with_reducible refine Keep.step (State.isoNotRun_keepE (by assumption)) (by decide) ?_
    | with_reducible apply Keep.ite
    | split
    | dsimp only

theorem State.completeHalted_keep {s : State} {i : IsletNo} :
    Keep 70896350828011135 s (State.completeHalted s i) := by
  unfold State.completeHalted; try dsimp only
  repeat' first
    | with_reducible exact Keep.rfl'
    | with_reducible assumption
    | (with_reducible apply Keep.step State.endHalted_keep; decide)
    | with_reducible refine Keep.foldl ?_ (fun _ _ => ?_)
    | with_reducible refine Keep.foldlFst ?_ (fun _ _ => ?_)
    | with_reducible refine Keep.foldlSnd ?_ (fun _ _ => ?_)
    | with_reducible apply Keep.ite
    | with_reducible apply Keep.iteFst
    | with_reducible apply Keep.iteSnd
    | split
    | dsimp only

theorem State.haltIslet_keep {s : State} {i : IsletNo} {reason : Byte} :
    Keep 70333400874589791 s (State.haltIslet s i reason) := by
  unfold State.haltIslet; try dsimp only
  repeat' first
    | with_reducible exact Keep.rfl'
    | with_reducible assumption
    | (with_reducible apply Keep.step State.completeHalted_keep; decide)
    | (with_reducible apply Keep.step State.managerVectorPort_keep; decide)
    | (with_reducible apply Keep.step State.ringMessages_keep; decide)
    | (with_reducible apply Keep.step State.setIslet_keep; decide)
    | split
    | dsimp only

theorem State.malformed_keep {s : State} {c : CoreId} {i : IsletNo} {q : Nat} {cause : Byte} {index : Half} :
    Keep 70333400874589727 s (State.malformed s c i q cause index) := by
  unfold State.malformed; try dsimp only
  repeat' first
    | with_reducible exact Keep.rfl'
    | with_reducible assumption
    | (with_reducible apply Keep.step State.haltIslet_keep; decide)
    | (with_reducible apply Keep.step State.setIslet_keep; decide)
    | (with_reducible apply Keep.step State.setQueue_keep; decide)
    | with_reducible apply Keep.ite
    | split
    | dsimp only

theorem State.sendShadow_keep {s : State} {c : CoreId} {i : IsletNo} {r : Nat} {idx : Half} {b : List Byte} :
    Keep 72057594037927807 s (State.sendShadow s c i r idx b) := by
  unfold State.sendShadow; try dsimp only
  repeat' first
    | with_reducible exact Keep.rfl'
    | with_reducible assumption
    | (with_reducible apply Keep.step State.setShRing_keep; decide)
    | split
    | dsimp only

theorem State.countLat_keep {s : State} {k : CoreId} {i : IsletNo} {v : Rec} :
    Keep 72022409665839103 s (State.countLat s k i v) := by
  unfold State.countLat; try dsimp only
  repeat' first
    | with_reducible exact Keep.rfl'
    | with_reducible assumption
    | (with_reducible apply Keep.step State.latency_keep; decide)
    | split
    | dsimp only

theorem State.putRecord_keep {s : State} {c : CoreId} {i : IsletNo} {r : Nat} {x : RingSt} {v : Rec} :
    Keep 70896355140165503 s (State.putRecord s c i r x v) := by
  unfold State.putRecord; try dsimp only
  repeat' first
    | with_reducible exact Keep.rfl'
    | with_reducible assumption
    | (with_reducible apply Keep.step State.count_keep; decide)
    | (with_reducible apply Keep.step State.countDemand_keep; decide)
    | (with_reducible apply Keep.step State.latency_keep; decide)
    | (with_reducible apply Keep.step State.request_keep; decide)
    | (with_reducible apply Keep.step State.sendShadow_keep; decide)
    | (with_reducible apply Keep.step State.setRing_keep; decide)
    | with_reducible apply Keep.ite
    | split
    | dsimp only

theorem State.holdRecord_keep {s : State} {c : CoreId} {i : IsletNo} {r : Nat} {x : RingSt} {v : Rec} :
    Keep 72022272226877311 s (State.holdRecord s c i r x v) := by
  unfold State.holdRecord; try dsimp only
  repeat' first
    | with_reducible exact Keep.rfl'
    | with_reducible assumption
    | (with_reducible apply Keep.step State.count_keep; decide)
    | (with_reducible apply Keep.step State.countLat_keep; decide)
    | (with_reducible apply Keep.step State.setRing_keep; decide)
    | split
    | dsimp only

theorem State.writeOne_keep {s : State} {c : CoreId} {i : IsletNo} {r : Nat} :
    KeepO 70896355140165503 s ((State.writeOne s c i r).map Prod.fst) := by
  unfold State.writeOne; try dsimp only
  repeat' first
    | with_reducible exact Keep.rfl'
    | with_reducible assumption
    | (with_reducible apply Keep.step State.countLat_keep; decide)
    | (with_reducible apply Keep.step State.holdRecord_keep; decide)
    | (with_reducible apply Keep.step State.putRecord_keep; decide)
    | with_reducible exact KeepO.none
    | with_reducible refine KeepO.some ?_
    | simp only [Option.map_none, Option.map_some]
    | with_reducible apply Keep.ite
    | split
    | dsimp only
theorem State.writeOne_keepE {s : State} {c : CoreId} {i : IsletNo} {r : Nat} {tE rE} (hE : (State.writeOne s c i r) = some (tE, rE)) : Keep 70896355140165503 s tE := by
  have k := @State.writeOne_keep s c i r; rw [hE] at k; exact k tE rfl

theorem State.writeUpTo_keep {a0 : Nat} {a1 : State} {a2 : CoreId} {a3 : IsletNo} {a4 : Nat} {a5 : FnId} {a6 : Bool} :
    Keep 70896355140165503 a1 (State.writeUpTo a0 a1 a2 a3 a4 a5 a6).1 := by
  induction a0 generalizing a1 a6 with
  | zero => exact Keep.rfl'
  | succ n ih =>
    unfold State.writeUpTo
    split
    · exact Keep.rfl'
    · split
      · exact Keep.rfl'
      · exact Keep.step ih (by decide) (Keep.step (State.writeOne_keepE (by assumption)) (by decide) Keep.rfl')
theorem State.writeUpTo_keepE {a0 : Nat} {a1 : State} {a2 : CoreId} {a3 : IsletNo} {a4 : Nat} {a5 : FnId} {a6 : Bool} {t r} (h : (State.writeUpTo a0 a1 a2 a3 a4 a5 a6) = (t, r)) : Keep 70896355140165503 a1 t := by
  have k := @State.writeUpTo_keep a0 a1 a2 a3 a4 a5 a6; rw [h] at k; exact k

theorem State.releaseInvals_keep {s : State} {c : CoreId} {i : IsletNo} {r : Nat} :
    Keep 72057594037927743 s (State.releaseInvals s c i r) := by
  unfold State.releaseInvals; try dsimp only
  repeat' first
    | with_reducible exact Keep.rfl'
    | with_reducible assumption
    | (with_reducible apply Keep.step State.pushRecord_keep; decide)
    | (with_reducible apply Keep.step State.setQueue_keep; decide)
    | with_reducible refine Keep.foldl ?_ (fun _ _ => ?_)
    | with_reducible refine Keep.foldlFst ?_ (fun _ _ => ?_)
    | with_reducible refine Keep.foldlSnd ?_ (fun _ _ => ?_)
    | with_reducible apply Keep.ite
    | with_reducible apply Keep.iteFst
    | with_reducible apply Keep.iteSnd
    | split
    | dsimp only

theorem State.ringPass_keep {s : State} {c : CoreId} {i : IsletNo} {r : Nat} :
    Keep 70333400874589727 s (State.ringPass s c i r) := by
  unfold State.ringPass; try dsimp only
  repeat' first
    | with_reducible exact Keep.rfl'
    | with_reducible assumption
    | (with_reducible apply Keep.step State.failCount_keep; decide)
    | (with_reducible apply Keep.step State.haltIslet_keep; decide)
    | (with_reducible apply Keep.step State.msixFor_keep; decide)
    | (with_reducible apply Keep.step State.releaseInvals_keep; decide)
    | (with_reducible apply Keep.step State.restall_keep; decide)
    | (with_reducible apply Keep.step State.writeUpTo_keep; decide)
    | with_reducible refine Keep.step (State.writeUpTo_keepE (by assumption)) (by decide) ?_
    | with_reducible apply Keep.ite
    | split
    | dsimp only

theorem State.releaseLatch_keep {s : State} {c : CoreId} {i : IsletNo} {r : Nat} :
    Keep 72057594037927807 s (State.releaseLatch s c i r) := by
  unfold State.releaseLatch; try dsimp only
  repeat' first
    | with_reducible exact Keep.rfl'
    | with_reducible assumption
    | (with_reducible apply Keep.step State.pushRecord_keep; decide)
    | (with_reducible apply Keep.step State.setRing_keep; decide)
    | with_reducible apply Keep.ite
    | split
    | dsimp only

end Sys2Proof.Machine
end

