-- ==== Sys2Proof/Laws/KeepEngine.lean ====
section
/-! SUPPORT. What the operations of Machine/Engine.lean may change: one lemma each. -/

namespace Sys2Proof.Machine

theorem State.reportIn_keep {s : State} {x : Seat} {t : Tunnel} {delay : Nat} :
    Keep 72057594033733631 s (State.reportIn s x t delay) := by
  unfold State.reportIn; try dsimp only
  repeat' first
    | with_reducible exact Keep.rfl'
    | with_reducible assumption
    | (with_reducible apply Keep.step State.setTun_keep; decide)
    | split
    | dsimp only

theorem State.ackPass_keep {s : State} {x : Seat} {t : Tunnel} :
    Keep 72057594033733631 s (State.ackPass s x t) := by
  unfold State.ackPass; try dsimp only
  repeat' first
    | with_reducible exact Keep.rfl'
    | with_reducible assumption
    | (with_reducible apply Keep.step State.reportIn_keep; decide)
    | (with_reducible apply Keep.step State.setTun_keep; decide)
    | with_reducible apply Keep.ite
    | split
    | dsimp only

theorem State.actDone_keep {s : State} {x : Seat} {t : Tunnel} {seq : Half} :
    Keep 72057594033733631 s (State.actDone s x t seq) := by
  unfold State.actDone; try dsimp only
  repeat' first
    | with_reducible exact Keep.rfl'
    | with_reducible assumption
    | (with_reducible apply Keep.step State.ackPass_keep; decide)
    | (with_reducible apply Keep.step State.setTun_keep; decide)
    | split
    | dsimp only

theorem State.actMake_keep {s : State} {x : Seat} {t : Tunnel} {seq : Half} :
    Keep 72057594033733631 s (State.actMake s x t seq) := by
  unfold State.actMake; try dsimp only
  repeat' first
    | with_reducible exact Keep.rfl'
    | with_reducible assumption
    | (with_reducible apply Keep.step State.setTun_keep; decide)
    | split
    | dsimp only

theorem State.releaseAcks_keep {s : State} {c : CoreId} :
    Keep 72057594033733631 s (State.releaseAcks s c) := by
  unfold State.releaseAcks; try dsimp only
  repeat' first
    | with_reducible exact Keep.rfl'
    | with_reducible assumption
    | (with_reducible apply Keep.step State.ackPass_keep; decide)
    | with_reducible refine Keep.foldl ?_ (fun _ _ => ?_)
    | with_reducible refine Keep.foldlFst ?_ (fun _ _ => ?_)
    | with_reducible refine Keep.foldlSnd ?_ (fun _ _ => ?_)
    | with_reducible apply Keep.ite
    | with_reducible apply Keep.iteFst
    | with_reducible apply Keep.iteSnd
    | split
    | dsimp only

theorem State.newRounds_keep {s : State} {c : CoreId} :
    Keep 72057594037927359 s (State.newRounds s c) := by
  unfold State.newRounds; try dsimp only
  repeat' first
    | with_reducible exact Keep.rfl'
    | with_reducible assumption
    | (with_reducible apply Keep.step State.newRound_keep; decide)
    | with_reducible refine Keep.foldl ?_ (fun _ _ => ?_)
    | with_reducible refine Keep.foldlFst ?_ (fun _ _ => ?_)
    | with_reducible refine Keep.foldlSnd ?_ (fun _ _ => ?_)
    | with_reducible apply Keep.ite
    | with_reducible apply Keep.iteFst
    | with_reducible apply Keep.iteSnd
    | split
    | dsimp only

theorem State.holdCheck_keep {s : State} {c : CoreId} :
    Keep 72022272222678463 s (State.holdCheck s c) := by
  unfold State.holdCheck; try dsimp only
  repeat' first
    | with_reducible exact Keep.rfl'
    | with_reducible assumption
    | (with_reducible apply Keep.step State.edge_keep; decide)
    | (with_reducible apply Keep.step State.newRounds_keep; decide)
    | (with_reducible apply Keep.step State.releaseAcks_keep; decide)
    | (with_reducible apply Keep.step State.setDispatch_keep; decide)
    | with_reducible apply Keep.ite
    | split
    | dsimp only

theorem State.readyIn_keep {s : State} {c : CoreId} {it : Item} {level : Fin 8} {home : Fin 4} :
    Keep 72022272222678463 s (State.readyIn s c it level home) := by
  unfold State.readyIn; try dsimp only
  repeat' first
    | with_reducible exact Keep.rfl'
    | with_reducible assumption
    | (with_reducible apply Keep.step State.holdCheck_keep; decide)
    | (with_reducible apply Keep.step State.setDispatch_keep; decide)
    | (with_reducible apply Keep.step State.wake_keep; decide)
    | with_reducible apply Keep.ite
    | split
    | dsimp only

theorem State.readyAt_keep {s : State} {c : CoreId} {it : Item} {level : Fin 8} :
    Keep 72022272222678463 s (State.readyAt s c it level) := by
  unfold State.readyAt; try dsimp only
  repeat' first
    | with_reducible exact Keep.rfl'
    | with_reducible assumption
    | (with_reducible apply Keep.step State.readyIn_keep; decide)
    | split
    | dsimp only

theorem State.readyItem_keep {s : State} {c : CoreId} {it : Item} :
    Keep 72022272222678463 s (State.readyItem s c it) := by
  unfold State.readyItem; try dsimp only
  repeat' first
    | with_reducible exact Keep.rfl'
    | with_reducible assumption
    | (with_reducible apply Keep.step State.readyAt_keep; decide)
    | split
    | dsimp only

theorem State.readyIso_keep {s : State} {c : CoreId} {it : Item} :
    Keep 72022272222678463 s (State.readyIso s c it) := by
  unfold State.readyIso; try dsimp only
  repeat' first
    | with_reducible exact Keep.rfl'
    | with_reducible assumption
    | (with_reducible apply Keep.step State.readyItem_keep; decide)
    | (with_reducible apply Keep.step State.setDispatch_keep; decide)
    | with_reducible apply Keep.ite
    | split
    | dsimp only

theorem State.feedIso_keep {s : State} {c : CoreId} {x : Option Seat} :
    Keep 72022272222678463 s (State.feedIso s c x) := by
  unfold State.feedIso; try dsimp only
  repeat' first
    | with_reducible exact Keep.rfl'
    | with_reducible assumption
    | (with_reducible apply Keep.step State.readyItem_keep; decide)
    | (with_reducible apply Keep.step State.setDispatch_keep; decide)
    | split
    | dsimp only

theorem State.countStart_keep {s : State} {c : CoreId} {t : TeNo} {it : Item} :
    Keep 72022272226873343 s (State.countStart s c t it) := by
  unfold State.countStart; try dsimp only
  repeat' first
    | with_reducible exact Keep.rfl'
    | with_reducible assumption
    | (with_reducible apply Keep.step State.count_keep; decide)
    | (with_reducible apply Keep.step State.latency_keep; decide)
    | (with_reducible apply Keep.step State.setDispatch_keep; decide)
    | split
    | dsimp only

theorem State.openRun_keep {s : State} {c : CoreId} {p : Item} {slot : Fin 2} :
    Keep 72057594037923839 s (State.openRun s c p slot).2 := by
  unfold State.openRun; try dsimp only
  repeat' first
    | with_reducible exact Keep.rfl'
    | with_reducible assumption
    | (with_reducible apply Keep.step State.setDispatch_keep; decide)
    | with_reducible apply Keep.ite
    | with_reducible apply Keep.iteSnd
    | split
    | dsimp only
theorem State.openRun_keepE {s : State} {c : CoreId} {p : Item} {slot : Fin 2} {rE tE} (hE : (State.openRun s c p slot) = (rE, tE)) : Keep 72057594037923839 s tE := by
  have k := @State.openRun_keep s c p slot; rw [hE] at k; exact k

theorem State.takeItem_keep {s : State} {c : CoreId} {t : TeNo} {above : Option Nat} {stage : Bool} :
    KeepO 72022272222676415 s (State.takeItem s c t above stage) := by
  unfold State.takeItem; try dsimp only
  repeat' first
    | with_reducible exact Keep.rfl'
    | with_reducible assumption
    | (with_reducible apply Keep.step State.countStart_keep; decide)
    | (with_reducible apply Keep.step State.feedIso_keep; decide)
    | (with_reducible apply Keep.step State.holdCheck_keep; decide)
    | (with_reducible apply Keep.step State.openRun_keep; decide)
    | with_reducible refine Keep.step (State.openRun_keepE (by assumption)) (by decide) ?_
    | (with_reducible apply Keep.step State.setDispatch_keep; decide)
    | (with_reducible apply Keep.step State.setTeSt_keep; decide)
    | with_reducible exact KeepO.none
    | with_reducible refine KeepO.some ?_
    | with_reducible apply Keep.ite
    | split
    | dsimp only

theorem State.teAsk_keep {s : State} {c : CoreId} {t : TeNo} :
    Keep 72022272222676415 s (State.teAsk s c t) := by
  unfold State.teAsk; try dsimp only
  repeat' first
    | with_reducible exact Keep.rfl'
    | with_reducible assumption
    | with_reducible refine Keep.step (KeepO.of State.takeItem_keep (by assumption)) (by decide) ?_
    | (with_reducible apply KeepO.step State.takeItem_keep; decide)
    | with_reducible refine Keep.getD ?_ ?_
    | with_reducible apply Keep.ite
    | split
    | dsimp only

theorem State.preemptCluster_keep {s : State} {c : CoreId} {cl : Fin 4} :
    Keep 72022272222676415 s (State.preemptCluster s c cl) := by
  unfold State.preemptCluster; try dsimp only
  repeat' first
    | with_reducible exact Keep.rfl'
    | with_reducible assumption
    | (with_reducible apply Keep.step State.count_keep; decide)
    | (with_reducible apply Keep.step State.setTeSt_keep; decide)
    | with_reducible refine Keep.step (KeepO.of State.takeItem_keep (by assumption)) (by decide) ?_
    | (with_reducible apply KeepO.step State.takeItem_keep; decide)
    | (with_reducible apply Keep.step State.teAsk_keep; decide)
    | with_reducible apply Keep.ite
    | split
    | dsimp only

theorem State.restorePre_keep {s : State} {c : CoreId} {t : TeNo} :
    Keep 72022272222676415 s (State.restorePre s c t) := by
  unfold State.restorePre; try dsimp only
  repeat' first
    | with_reducible exact Keep.rfl'
    | with_reducible assumption
    | (with_reducible apply Keep.step State.setTeSt_keep; decide)
    | with_reducible refine Keep.step (KeepO.of State.takeItem_keep (by assumption)) (by decide) ?_
    | (with_reducible apply KeepO.step State.takeItem_keep; decide)
    | with_reducible refine Keep.getD ?_ ?_
    | with_reducible apply Keep.ite
    | split
    | dsimp only

theorem State.startStaged_keep {s : State} {c : CoreId} {t : TeNo} :
    Keep 72057594037925887 s (State.startStaged s c t) := by
  unfold State.startStaged; try dsimp only
  repeat' first
    | with_reducible exact Keep.rfl'
    | with_reducible assumption
    | (with_reducible apply Keep.step State.setTeSt_keep; decide)
    | split
    | dsimp only

theorem State.markLate_keep {s : State} {c : CoreId} {cl : Fin 4} {late : Bool} :
    Keep 72057594037925887 s (State.markLate s c cl late) := by
  unfold State.markLate; try dsimp only
  repeat' first
    | with_reducible exact Keep.rfl'
    | with_reducible assumption
    | (with_reducible apply Keep.step State.setTeSt_keep; decide)
    | with_reducible refine Keep.foldl ?_ (fun _ _ => ?_)
    | with_reducible refine Keep.foldlFst ?_ (fun _ _ => ?_)
    | with_reducible refine Keep.foldlSnd ?_ (fun _ _ => ?_)
    | split
    | dsimp only

theorem State.writeClusterMode_keep {s : State} {c : CoreId} {v : W32} :
    Keep 72057594037921791 s (State.writeClusterMode s c v) := by
  unfold State.writeClusterMode; try dsimp only
  repeat' first
    | with_reducible exact Keep.rfl'
    | with_reducible assumption
    | (with_reducible apply Keep.step State.markLate_keep; decide)
    | (with_reducible apply Keep.step State.setDispatch_keep; decide)
    | with_reducible refine Keep.foldl ?_ (fun _ _ => ?_)
    | with_reducible refine Keep.foldlFst ?_ (fun _ _ => ?_)
    | with_reducible refine Keep.foldlSnd ?_ (fun _ _ => ?_)
    | with_reducible apply Keep.ite
    | with_reducible apply Keep.iteFst
    | with_reducible apply Keep.iteSnd
    | split
    | dsimp only

theorem execItemDispatch_keep {c : CoreId} {t : TeNo} {s : State} :
    KeepX 72022272222676415 s (execItemDispatch c t s) := by
  unfold execItemDispatch; try dsimp only
  repeat' first
    | with_reducible exact Keep.rfl'
    | with_reducible assumption
    | (with_reducible apply Keep.step State.teAsk_keep; decide)
    | with_reducible refine KeepX.next ?_
    | split
    | dsimp only

theorem execPreemption_keep {c : CoreId} {cl : Fin 4} {s : State} :
    KeepX 72022272222676415 s (execPreemption c cl s) := by
  unfold execPreemption; try dsimp only
  repeat' first
    | with_reducible exact Keep.rfl'
    | with_reducible assumption
    | (with_reducible apply Keep.step State.preemptCluster_keep; decide)
    | with_reducible refine KeepX.next ?_
    | with_reducible apply Keep.ite
    | split
    | dsimp only

theorem execPreemptedRestore_keep {c : CoreId} {t : TeNo} {s : State} :
    KeepX 72022272222676415 s (execPreemptedRestore c t s) := by
  unfold execPreemptedRestore; try dsimp only
  repeat' first
    | with_reducible exact Keep.rfl'
    | with_reducible assumption
    | (with_reducible apply Keep.step State.restorePre_keep; decide)
    | with_reducible refine KeepX.next ?_
    | split
    | dsimp only

theorem execClusterModeWrite_keep {w : Via} {c : CoreId} {v : W32} {s : State} :
    KeepX 72057594037921791 s (execClusterModeWrite w c v s) := by
  unfold execClusterModeWrite; try dsimp only
  repeat' first
    | with_reducible exact Keep.rfl'
    | with_reducible assumption
    | (with_reducible apply Keep.step State.writeClusterMode_keep; decide)
    | with_reducible refine KeepX.next ?_
    | with_reducible apply Keep.ite
    | split
    | dsimp only

theorem execClusterModeChanged_keep {c : CoreId} {cl : Fin 4} {s : State} :
    KeepX 72057594037923839 s (execClusterModeChanged c cl s) := by
  unfold execClusterModeChanged; try dsimp only
  repeat' first
    | with_reducible exact Keep.rfl'
    | with_reducible assumption
    | (with_reducible apply Keep.step State.setDispatch_keep; decide)
    | with_reducible refine KeepX.next ?_
    | with_reducible apply Keep.ite
    | split
    | dsimp only

theorem State.readMaxWait_keep {s : State} {c : CoreId} {l : Fin 8} :
    Keep 72057594037923839 s (State.readMaxWait s c l).2 := by
  unfold State.readMaxWait; try dsimp only
  repeat' first
    | with_reducible exact Keep.rfl'
    | with_reducible assumption
    | (with_reducible apply Keep.step State.setDispatch_keep; decide)
    | split
    | dsimp only
theorem State.readMaxWait_keepE {s : State} {c : CoreId} {l : Fin 8} {rE tE} (hE : (State.readMaxWait s c l) = (rE, tE)) : Keep 72057594037923839 s tE := by
  have k := @State.readMaxWait_keep s c l; rw [hE] at k; exact k

theorem execMaxWaitRead_keep {f : FnId} {l : Fin 8} {s : State} :
    KeepX 70931694131081215 s (execMaxWaitRead f l s) := by
  unfold execMaxWaitRead; try dsimp only
  repeat' first
    | with_reducible exact Keep.rfl'
    | with_reducible assumption
    | (with_reducible apply Keep.step State.readMaxWait_keep; decide)
    | with_reducible refine Keep.step (State.readMaxWait_keepE (by assumption)) (by decide) ?_
    | (with_reducible apply Keep.step State.sendHost_keep; decide)
    | with_reducible refine KeepX.next ?_
    | with_reducible apply Keep.ite
    | split
    | dsimp only

end Sys2Proof.Machine
end

