-- ==== Sys2Proof/Laws/KeepCrypto.lean ====
section
/-! SUPPORT. What the operations of Machine/Crypto.lean may change: one lemma each. -/

namespace Sys2Proof.Machine

end Sys2Proof.Machine
end

