-- ==== Sys2Proof/Laws/KeepBuffer.lean ====
section
/-! SUPPORT. What the operations of Machine/Buffer.lean may change: one lemma each. -/

namespace Sys2Proof.Machine

theorem State.chargeFrame_keep {s : State} {c : CoreId} {f : FabFrame} :
    Keep 72057593501057023 s (State.chargeFrame s c f) := by
  unfold State.chargeFrame; try dsimp only
  repeat' first
    | with_reducible exact Keep.rfl'
    | with_reducible assumption
    | (with_reducible apply Keep.step State.setFabCore_keep; decide)
    | (with_reducible apply Keep.step State.setFabPort_keep; decide)
    | with_reducible refine Keep.foldl ?_ (fun _ _ => ?_)
    | with_reducible refine Keep.foldlFst ?_ (fun _ _ => ?_)
    | with_reducible refine Keep.foldlSnd ?_ (fun _ _ => ?_)
    | split
    | dsimp only

theorem State.poolAlarm_keep {before : State} {s : State} {c : CoreId} :
    Keep 72022272226877439 s (State.poolAlarm before s c) := by
  unfold State.poolAlarm; try dsimp only
  repeat' first
    | with_reducible exact Keep.rfl'
    | with_reducible assumption
    | (with_reducible apply Keep.step State.edge_keep; decide)
    | with_reducible apply Keep.ite
    | split
    | dsimp only

theorem State.poolAlarms_keep {before : State} {s : State} :
    Keep 72022272226877439 s (State.poolAlarms before s) := by
  unfold State.poolAlarms; try dsimp only
  repeat' first
    | with_reducible exact Keep.rfl'
    | with_reducible assumption
    | (with_reducible apply Keep.step State.poolAlarm_keep; decide)
    | with_reducible refine Keep.foldl ?_ (fun _ _ => ?_)
    | with_reducible refine Keep.foldlFst ?_ (fun _ _ => ?_)
    | with_reducible refine Keep.foldlSnd ?_ (fun _ _ => ?_)
    | split
    | dsimp only

theorem State.noteRefusal_keep {s : State} {c : CoreId} {o : Nat} {cls : Nat} :
    Keep 72022271690006527 s (State.noteRefusal s c o cls) := by
  unfold State.noteRefusal; try dsimp only
  repeat' first
    | with_reducible exact Keep.rfl'
    | with_reducible assumption
    | (with_reducible apply Keep.step State.count_keep; decide)
    | (with_reducible apply Keep.step State.edge_keep; decide)
    | (with_reducible apply Keep.step State.setFabCore_keep; decide)
    | with_reducible apply Keep.ite
    | split
    | dsimp only

theorem State.wakeOutput_keep {s : State} {c : CoreId} {o : Nat} :
    Keep 72022272226877439 s (State.wakeOutput s c o) := by
  unfold State.wakeOutput; try dsimp only
  repeat' first
    | with_reducible exact Keep.rfl'
    | with_reducible assumption
    | (with_reducible apply Keep.step State.wake_keep; decide)
    | with_reducible apply Keep.ite
    | split
    | dsimp only

theorem State.discardAt_keep {s : State} {c : CoreId} {p : Nat} :
    Keep 72022271690006527 s (State.discardAt s c p) := by
  unfold State.discardAt; try dsimp only
  repeat' first
    | with_reducible exact Keep.rfl'
    | with_reducible assumption
    | (with_reducible apply Keep.step State.count_keep; decide)
    | (with_reducible apply Keep.step State.setFabPort_keep; decide)
    | split
    | dsimp only

theorem State.numberFrame_keep {s : State} {c : CoreId} {key : Nat} :
    Keep 72057593501057023 s (State.numberFrame s c key) := by
  unfold State.numberFrame; try dsimp only
  repeat' first
    | with_reducible exact Keep.rfl'
    | with_reducible assumption
    | (with_reducible apply Keep.step State.setFabCore_keep; decide)
    | with_reducible refine Keep.foldl ?_ (fun _ _ => ?_)
    | with_reducible refine Keep.foldlFst ?_ (fun _ _ => ?_)
    | with_reducible refine Keep.foldlSnd ?_ (fun _ _ => ?_)
    | split
    | dsimp only

theorem State.storeFrame_keep {s : State} {c : CoreId} {f : FabFrame} :
    Keep 72022271690006527 s (State.storeFrame s c f).2 := by
  unfold State.storeFrame; try dsimp only
  repeat' first
    | with_reducible exact Keep.rfl'
    | with_reducible assumption
    | (with_reducible apply Keep.step State.chargeFrame_keep; decide)
    | (with_reducible apply Keep.step State.count_keep; decide)
    | (with_reducible apply Keep.step State.numberFrame_keep; decide)
    | (with_reducible apply Keep.step State.poolAlarm_keep; decide)
    | (with_reducible apply Keep.step State.setFabCore_keep; decide)
    | (with_reducible apply Keep.step State.wakeOutput_keep; decide)
    | with_reducible refine Keep.foldl ?_ (fun _ _ => ?_)
    | with_reducible refine Keep.foldlFst ?_ (fun _ _ => ?_)
    | with_reducible refine Keep.foldlSnd ?_ (fun _ _ => ?_)
    | split
    | dsimp only
theorem State.storeFrame_keepE {s : State} {c : CoreId} {f : FabFrame} {rE tE} (hE : (State.storeFrame s c f) = (rE, tE)) : Keep 72022271690006527 s tE := by
  have k := @State.storeFrame_keep s c f; rw [hE] at k; exact k

theorem State.allowIn_keep {s : State} {c : CoreId} {input : Nat} {o : Nat} {cls : Fin 8} {acct : Nat} {data : List Byte} :
    Keep 72022271690006527 s (State.allowIn s c input o cls acct data).2 := by
  unfold State.allowIn; try dsimp only
  repeat' first
    | with_reducible exact Keep.rfl'
    | with_reducible assumption
    | (with_reducible apply Keep.step State.bwCount_keep; decide)
    | (with_reducible apply Keep.step State.noteRefusal_keep; decide)
    | (with_reducible apply Keep.step State.storeFrame_keep; decide)
    | with_reducible refine Keep.step (State.storeFrame_keepE (by assumption)) (by decide) ?_
    | split
    | dsimp only
theorem State.allowIn_keepE {s : State} {c : CoreId} {input : Nat} {o : Nat} {cls : Fin 8} {acct : Nat} {data : List Byte} {rE tE} (hE : (State.allowIn s c input o cls acct data) = (rE, tE)) : Keep 72022271690006527 s tE := by
  have k := @State.allowIn_keep s c input o cls acct data; rw [hE] at k; exact k

theorem State.transit_keep {s : State} {c : CoreId} {input : Nat} {output : Nat} {cls : Nat} {n : Nat} :
    Keep 72022272226877439 s (State.transit s c input output cls n) := by
  unfold State.transit; try dsimp only
  repeat' first
    | with_reducible exact Keep.rfl'
    | with_reducible assumption
    | (with_reducible apply Keep.step State.bwCount_keep; decide)
    | (with_reducible apply Keep.step State.count_keep; decide)
    | split
    | dsimp only

theorem State.retireGroup_keep {s : State} {c : CoreId} {g : Nat} :
    Keep 72022271690006527 s (State.retireGroup s c g) := by
  unfold State.retireGroup; try dsimp only
  repeat' first
    | with_reducible exact Keep.rfl'
    | with_reducible assumption
    | (with_reducible apply Keep.step State.edge_keep; decide)
    | (with_reducible apply Keep.step State.setFabCore_keep; decide)
    | with_reducible refine Keep.foldl ?_ (fun _ _ => ?_)
    | with_reducible refine Keep.foldlFst ?_ (fun _ _ => ?_)
    | with_reducible refine Keep.foldlSnd ?_ (fun _ _ => ?_)
    | with_reducible apply Keep.ite
    | with_reducible apply Keep.iteFst
    | with_reducible apply Keep.iteSnd
    | split
    | dsimp only

theorem State.landGroup_keep {s : State} {c : CoreId} {g : Nat} {seats : W64} {valid : Bool} {causeway : Bool} :
    Keep 72022271690006527 s (State.landGroup s c g seats valid causeway) := by
  unfold State.landGroup; try dsimp only
  repeat' first
    | with_reducible exact Keep.rfl'
    | with_reducible assumption
    | (with_reducible apply Keep.step State.retireGroup_keep; decide)
    | (with_reducible apply Keep.step State.setFabCore_keep; decide)
    | split
    | dsimp only

theorem State.offerGroup_keep {s : State} {c : CoreId} {g : Fin 256} {seats : List Seat} {cls : Fin 8} {h : Hand} :
    Keep 72022271690006527 s (State.offerGroup s c g seats cls h).2 := by
  unfold State.offerGroup; try dsimp only
  repeat' first
    | with_reducible exact Keep.rfl'
    | with_reducible assumption
    | (with_reducible apply Keep.step State.bwCount_keep; decide)
    | (with_reducible apply Keep.step State.discardAt_keep; decide)
    | (with_reducible apply Keep.step State.noteRefusal_keep; decide)
    | (with_reducible apply Keep.step State.setFabPort_keep; decide)
    | (with_reducible apply Keep.step State.storeFrame_keep; decide)
    | with_reducible refine Keep.step (State.storeFrame_keepE (by assumption)) (by decide) ?_
    | with_reducible refine Keep.foldl ?_ (fun _ _ => ?_)
    | with_reducible refine Keep.foldlFst ?_ (fun _ _ => ?_)
    | with_reducible refine Keep.foldlSnd ?_ (fun _ _ => ?_)
    | with_reducible apply Keep.ite
    | with_reducible apply Keep.iteFst
    | with_reducible apply Keep.iteSnd
    | split
    | dsimp only
theorem State.offerGroup_keepE {s : State} {c : CoreId} {g : Fin 256} {seats : List Seat} {cls : Fin 8} {h : Hand} {rE tE} (hE : (State.offerGroup s c g seats cls h) = (rE, tE)) : Keep 72022271690006527 s tE := by
  have k := @State.offerGroup_keep s c g seats cls h; rw [hE] at k; exact k

theorem State.uncharge_keep {s : State} {c : CoreId} {f : FabFrame} {o : Nat} :
    Keep 72057593501057023 s (State.uncharge s c f o) := by
  unfold State.uncharge; try dsimp only
  repeat' first
    | with_reducible exact Keep.rfl'
    | with_reducible assumption
    | (with_reducible apply Keep.step State.setFabPort_keep; decide)
    | split
    | dsimp only

theorem State.leaveOutput_keep {s : State} {c : CoreId} {key : Nat} {o : Nat} :
    Keep 72057593501057023 s (State.leaveOutput s c key o) := by
  unfold State.leaveOutput; try dsimp only
  repeat' first
    | with_reducible exact Keep.rfl'
    | with_reducible assumption
    | (with_reducible apply Keep.step State.setFabCore_keep; decide)
    | (with_reducible apply Keep.step State.uncharge_keep; decide)
    | with_reducible apply Keep.ite
    | split
    | dsimp only

theorem State.markSent_keep {s : State} {c : CoreId} {key : Nat} {o : Nat} :
    Keep 72057593501057023 s (State.markSent s c key o) := by
  unfold State.markSent; try dsimp only
  repeat' first
    | with_reducible exact Keep.rfl'
    | with_reducible assumption
    | (with_reducible apply Keep.step State.setFabCore_keep; decide)
    | with_reducible apply Keep.ite
    | split
    | dsimp only

theorem State.poolIslet_keep {s : State} {i : IsletNo} :
    Keep 72022271690006527 s (State.poolIslet s i) := by
  unfold State.poolIslet; try dsimp only
  repeat' first
    | with_reducible exact Keep.rfl'
    | with_reducible assumption
    | (with_reducible apply Keep.step State.allowIn_keep; decide)
    | with_reducible refine Keep.step (State.allowIn_keepE (by assumption)) (by decide) ?_
    | (with_reducible apply Keep.step State.setFabCore_keep; decide)
    | (with_reducible apply Keep.step State.setFabPort_keep; decide)
    | with_reducible refine Keep.foldl ?_ (fun _ _ => ?_)
    | with_reducible refine Keep.foldlFst ?_ (fun _ _ => ?_)
    | with_reducible refine Keep.foldlSnd ?_ (fun _ _ => ?_)
    | with_reducible apply Keep.ite
    | with_reducible apply Keep.iteFst
    | with_reducible apply Keep.iteSnd
    | split
    | dsimp only

theorem State.freeNumbered_keep {s : State} {c : CoreId} {x : Seat} {number : Nat} :
    Keep 72057593501057023 s (State.freeNumbered s c x number) := by
  unfold State.freeNumbered; try dsimp only
  repeat' first
    | with_reducible exact Keep.rfl'
    | with_reducible assumption
    | (with_reducible apply Keep.step State.leaveOutput_keep; decide)
    | with_reducible apply Keep.ite
    | split
    | dsimp only

theorem State.setPortState_keep {s : State} {c : CoreId} {o : Nat} {st : FabState} :
    Keep 72022271690006527 s (State.setPortState s c o st) := by
  unfold State.setPortState; try dsimp only
  repeat' first
    | with_reducible exact Keep.rfl'
    | with_reducible assumption
    | (with_reducible apply Keep.step State.edge_keep; decide)
    | (with_reducible apply Keep.step State.setFabPort_keep; decide)
    | with_reducible apply Keep.ite
    | split
    | dsimp only

end Sys2Proof.Machine
end

