-- ==== Sys2Proof/Laws/KeepStrait.lean ====
section
/-! SUPPORT. What the operations of Machine/Strait.lean may change: one lemma each. -/

namespace Sys2Proof.Machine

theorem State.putLine_keep {s : State} {x : Seat} {t : Tunnel} {ackReq : Bool} {unseq : Bool} {seq : Half} {payload : List Byte} :
    Keep 69770461670531071 s (State.putLine s x t ackReq unseq seq payload) := by
  unfold State.putLine; try dsimp only
  repeat' first
    | with_reducible exact Keep.rfl'
    | with_reducible assumption
    | (with_reducible apply Keep.step State.bumpSeat_keep; decide)
    | (with_reducible apply Keep.step State.count_keep; decide)
    | (with_reducible apply Keep.step State.setDemand_keep; decide)
    | (with_reducible apply Keep.step State.setLink__keep; decide)
    | (with_reducible apply Keep.step State.setTun_keep; decide)
    | (with_reducible apply Keep.step State.setWfq_keep; decide)
    | with_reducible apply Keep.setLink
    | exact fun k => absurd k (by decide)
    | with_reducible exact fun _ => rfl
    | with_reducible rfl
    | decide
    | with_reducible apply Keep.ite
    | split
    | dsimp only

theorem State.startTimer_keep {s : State} {x : Seat} {t : Tunnel} {f : TxFrame} :
    Keep 72057594033733631 s (State.startTimer s x t f) := by
  unfold State.startTimer; try dsimp only
  repeat' first
    | with_reducible exact Keep.rfl'
    | with_reducible assumption
    | (with_reducible apply Keep.step State.setTun_keep; decide)
    | split
    | dsimp only

theorem State.sendNew_keep {s : State} {x : Seat} {t : Tunnel} {f : TxFrame} {rest : List TxFrame} :
    Keep 69770461133660159 s (State.sendNew s x t f rest) := by
  unfold State.sendNew; try dsimp only
  repeat' first
    | with_reducible exact Keep.rfl'
    | with_reducible assumption
    | (with_reducible apply Keep.step State.bwCount_keep; decide)
    | (with_reducible apply Keep.step State.freeNumbered_keep; decide)
    | (with_reducible apply Keep.step State.markSent_keep; decide)
    | (with_reducible apply Keep.step State.putLine_keep; decide)
    | (with_reducible apply Keep.step State.setTun_keep; decide)
    | (with_reducible apply Keep.step State.startTimer_keep; decide)
    | with_reducible apply Keep.ite
    | split
    | dsimp only

theorem State.sendAgain_keep {s : State} {x : Seat} {t : Tunnel} {seq : Half} {rest : List Half} :
    Keep 69770461670531071 s (State.sendAgain s x t seq rest) := by
  unfold State.sendAgain; try dsimp only
  repeat' first
    | with_reducible exact Keep.rfl'
    | with_reducible assumption
    | (with_reducible apply Keep.step State.bumpSeat_keep; decide)
    | (with_reducible apply Keep.step State.bwCount_keep; decide)
    | (with_reducible apply Keep.step State.count_keep; decide)
    | (with_reducible apply Keep.step State.putLine_keep; decide)
    | (with_reducible apply Keep.step State.setTun_keep; decide)
    | (with_reducible apply Keep.step State.startTimer_keep; decide)
    | with_reducible apply Keep.ite
    | split
    | dsimp only

theorem State.sendBare_keep {s : State} {x : Seat} {payload : List Byte} :
    Keep 69770461670531071 s (State.sendBare s x payload) := by
  unfold State.sendBare; try dsimp only
  repeat' first
    | with_reducible exact Keep.rfl'
    | with_reducible assumption
    | (with_reducible apply Keep.step State.putLine_keep; decide)
    | split
    | dsimp only

theorem State.freeTx_keep {s : State} {x : Seat} {f : TxFrame} {acked : Bool} :
    Keep 72022271690006143 s (State.freeTx s x f acked) := by
  unfold State.freeTx; try dsimp only
  repeat' first
    | with_reducible exact Keep.rfl'
    | with_reducible assumption
    | (with_reducible apply Keep.step State.finish_keep; decide)
    | (with_reducible apply Keep.step State.freeNumbered_keep; decide)
    | split
    | dsimp only

theorem State.takeReport_keep {s : State} {x : Seat} {t : Tunnel} {ack : Half} {recv : Half} :
    Keep 72022271685811839 s (State.takeReport s x t ack recv) := by
  unfold State.takeReport; try dsimp only
  repeat' first
    | with_reducible exact Keep.rfl'
    | with_reducible assumption
    | (with_reducible apply Keep.step State.freeTx_keep; decide)
    | (with_reducible apply Keep.step State.setTun_keep; decide)
    | with_reducible refine Keep.foldl ?_ (fun _ _ => ?_)
    | with_reducible refine Keep.foldlFst ?_ (fun _ _ => ?_)
    | with_reducible refine Keep.foldlSnd ?_ (fun _ _ => ?_)
    | with_reducible apply Keep.ite
    | with_reducible apply Keep.iteFst
    | with_reducible apply Keep.iteSnd
    | split
    | dsimp only

theorem State.dropIso_keep {s : State} {x : Seat} :
    Keep 72022271685811839 s (State.dropIso s x) := by
  unfold State.dropIso; try dsimp only
  repeat' first
    | with_reducible exact Keep.rfl'
    | with_reducible assumption
    | (with_reducible apply Keep.step State.freeTx_keep; decide)
    | (with_reducible apply Keep.step State.setTun_keep; decide)
    | with_reducible refine Keep.foldl ?_ (fun _ _ => ?_)
    | with_reducible refine Keep.foldlFst ?_ (fun _ _ => ?_)
    | with_reducible refine Keep.foldlSnd ?_ (fun _ _ => ?_)
    | split
    | dsimp only

end Sys2Proof.Machine
end

