-- ==== Sys2Proof/Laws/KeepShares.lean ====
section
/-! SUPPORT. What the operations of Machine/Shares.lean may change: one lemma each. -/

namespace Sys2Proof.Machine

theorem State.dispHead_keep {s : State} {x : Seat} :
    Keep 72057591890444287 s (State.dispHead s x).1 := by
  unfold State.dispHead; try dsimp only
  repeat' first
    | with_reducible exact Keep.rfl'
    | with_reducible assumption
    | (with_reducible apply Keep.step State.setWfq_keep; decide)
    | with_reducible apply Keep.ite
    | with_reducible apply Keep.iteFst
    | split
    | dsimp only
theorem State.dispHead_keepE {s : State} {x : Seat} {tE rE} (hE : (State.dispHead s x) = (tE, rE)) : Keep 72057591890444287 s tE := by
  have k := @State.dispHead_keep s x; rw [hE] at k; exact k

theorem State.tagHeads_keep {s : State} {x : Seat} :
    Keep 72057591890444287 s (State.tagHeads s x).1 := by
  unfold State.tagHeads; try dsimp only
  repeat' first
    | with_reducible exact Keep.rfl'
    | with_reducible assumption
    | (with_reducible apply Keep.step State.dispHead_keep; decide)
    | with_reducible refine Keep.step (State.dispHead_keepE (by assumption)) (by decide) ?_
    | (with_reducible apply Keep.step State.setWfq_keep; decide)
    | split
    | dsimp only
theorem State.tagHeads_keepE {s : State} {x : Seat} {tE rE} (hE : (State.tagHeads s x) = (tE, rE)) : Keep 72057591890444287 s tE := by
  have k := @State.tagHeads_keep s x; rw [hE] at k; exact k

theorem State.settleGate_keep {s : State} {x : Seat} :
    Keep 72057590816702463 s (State.settleGate s x) := by
  unfold State.settleGate; try dsimp only
  repeat' first
    | with_reducible exact Keep.rfl'
    | with_reducible assumption
    | (with_reducible apply Keep.step State.setSeatTraf_keep; decide)
    | (with_reducible apply Keep.step State.tagHeads_keep; decide)
    | with_reducible refine Keep.step (State.tagHeads_keepE (by assumption)) (by decide) ?_
    | split
    | dsimp only

theorem State.enterTun_keep {s : State} {x : Seat} {t : Tunnel} {f : TxFrame} :
    Keep 72057590812508159 s (State.enterTun s x t f) := by
  unfold State.enterTun; try dsimp only
  repeat' first
    | with_reducible exact Keep.rfl'
    | with_reducible assumption
    | (with_reducible apply Keep.step State.setTun_keep; decide)
    | (with_reducible apply Keep.step State.settleGate_keep; decide)
    | (with_reducible apply Keep.step State.tagHeads_keep; decide)
    | with_reducible refine Keep.step (State.tagHeads_keepE (by assumption)) (by decide) ?_
    | split
    | dsimp only

theorem State.putFrame_keep {s : State} {c : CoreId} {k : KeptFrame} :
    Keep 72022268464586751 s (State.putFrame s c k).2 := by
  unfold State.putFrame; try dsimp only
  repeat' first
    | with_reducible exact Keep.rfl'
    | with_reducible assumption
    | (with_reducible apply Keep.step State.allowIn_keep; decide)
    | with_reducible refine Keep.step (State.allowIn_keepE (by assumption)) (by decide) ?_
    | (with_reducible apply Keep.step State.enterTun_keep; decide)
    | (with_reducible apply Keep.step State.offerGroup_keep; decide)
    | with_reducible refine Keep.step (State.offerGroup_keepE (by assumption)) (by decide) ?_
    | with_reducible refine Keep.foldl ?_ (fun _ _ => ?_)
    | with_reducible refine Keep.foldlFst ?_ (fun _ _ => ?_)
    | with_reducible refine Keep.foldlSnd ?_ (fun _ _ => ?_)
    | split
    | dsimp only
theorem State.putFrame_keepE {s : State} {c : CoreId} {k : KeptFrame} {rE tE} (hE : (State.putFrame s c k) = (rE, tE)) : Keep 72022268464586751 s tE := by
  have k := @State.putFrame_keep s c k; rw [hE] at k; exact k

theorem State.handIn_keep {s : State} {c : CoreId} {k : KeptFrame} :
    Keep 72022268464586751 s (State.handIn s c k) := by
  unfold State.handIn; try dsimp only
  repeat' first
    | with_reducible exact Keep.rfl'
    | with_reducible assumption
    | (with_reducible apply Keep.step State.putFrame_keep; decide)
    | with_reducible refine Keep.step (State.putFrame_keepE (by assumption)) (by decide) ?_
    | (with_reducible apply Keep.step State.setFabCore_keep; decide)
    | with_reducible apply Keep.ite
    | split
    | dsimp only

theorem State.offerKept_keep {s : State} {c : CoreId} :
    Keep 72022268464586751 s (State.offerKept s c) := by
  unfold State.offerKept; try dsimp only
  repeat' first
    | with_reducible exact Keep.rfl'
    | with_reducible assumption
    | (with_reducible apply Keep.step State.handIn_keep; decide)
    | (with_reducible apply Keep.step State.setFabCore_keep; decide)
    | with_reducible refine Keep.foldl ?_ (fun _ _ => ?_)
    | with_reducible refine Keep.foldlFst ?_ (fun _ _ => ?_)
    | with_reducible refine Keep.foldlSnd ?_ (fun _ _ => ?_)
    | split
    | dsimp only

theorem State.queueFrame_keep {s : State} {x : Seat} {t : Tunnel} {h : Hand} :
    Keep 72022268464586751 s (State.queueFrame s x t h) := by
  unfold State.queueFrame; try dsimp only
  repeat' first
    | with_reducible exact Keep.rfl'
    | with_reducible assumption
    | (with_reducible apply Keep.step State.handIn_keep; decide)
    | split
    | dsimp only

theorem State.dropKept_keep {s : State} {x : Seat} {t : Tunnel} :
    Keep 72057593501057023 s (State.dropKept s x t) := by
  unfold State.dropKept; try dsimp only
  repeat' first
    | with_reducible exact Keep.rfl'
    | with_reducible assumption
    | (with_reducible apply Keep.step State.setFabCore_keep; decide)
    | with_reducible refine Keep.foldl ?_ (fun _ _ => ?_)
    | with_reducible refine Keep.foldlFst ?_ (fun _ _ => ?_)
    | with_reducible refine Keep.foldlSnd ?_ (fun _ _ => ?_)
    | with_reducible apply Keep.ite
    | with_reducible apply Keep.iteFst
    | with_reducible apply Keep.iteSnd
    | split
    | dsimp only

theorem State.sendCtrl_keep {s : State} {x : Seat} {code : Nat} {body : List Byte} :
    Keep 72022268464586751 s (State.sendCtrl s x code body) := by
  unfold State.sendCtrl; try dsimp only
  repeat' first
    | with_reducible exact Keep.rfl'
    | with_reducible assumption
    | (with_reducible apply Keep.step State.queueFrame_keep; decide)
    | split
    | dsimp only

theorem State.sendSync_keep {s : State} {x : Seat} {code : Nat} {body : List Byte} :
    Keep 72022268464586751 s (State.sendSync s x code body) := by
  unfold State.sendSync; try dsimp only
  repeat' first
    | with_reducible exact Keep.rfl'
    | with_reducible assumption
    | (with_reducible apply Keep.step State.queueFrame_keep; decide)
    | split
    | dsimp only

end Sys2Proof.Machine
end

