-- ==== Sys2Proof/Laws/KeepUsb.lean ====
section
/-! SUPPORT. What the operations of Machine/Usb.lean may change: one lemma each. -/

namespace Sys2Proof.Machine

theorem State.applyCharges_keep {s : State} {c : CoreId} {e : EpSt} {add : Bool} :
    Keep 72057594037387263 s (State.applyCharges s c e add) := by
  unfold State.applyCharges
  extract_lets upd s1 put
  have h1 : Keep 72057594037387263 s s1 := by
    refine State.iswPut_keepH Keep.rfl' (by decide) fun m hm => foldl_mem_wf _ _ _ hm fun m a h => ?_
    exact writeNat_wf _ _ _ _ (writeNat_wf _ _ _ _ (writeNat_wf _ _ _ _ h))
  have hp : ∀ x c, Keep 72057594037387263 x (put x c) := fun x c => by
    refine Keep.setUsb Keep.rfl' ?_ ?_ ?_ ?_ ?_ <;> first
      | exact fun k => absurd k (by decide)
      | exact fun _ => rfl
  split
  · split
    · exact (h1.trans (hp _ _)).trans (hp _ _)
    · exact h1.trans (hp _ _)
  · exact h1

theorem State.putAsync_keep {s : State} {c : CoreId} {i : IsletNo} {x : Seat} {l : List Nat} :
    Keep 72057594037911551 s (State.putAsync s c i x l) := by
  unfold State.putAsync; try dsimp only
  repeat' first
    | with_reducible exact Keep.rfl'
    | with_reducible assumption
    | with_reducible apply State.iswPut_keepH
    | decide
    | with_reducible apply writeBytes_wf
    | with_reducible apply writeNat_wf
    | with_reducible apply foldl_mem_wf
    | exact State.isw_wf (by assumption)
    | exact State.due_wf (by assumption)
    | exact State.dram_wf (by assumption)
    | with_reducible rfl
    | intro _
    | decide
    | intro _
    | with_reducible apply Keep.ite
    | split
    | dsimp only

theorem State.leaveAsync_keep {s : State} {c : CoreId} {i : IsletNo} {x : Seat} {n : Nat} :
    Keep 72057594037911551 s (State.leaveAsync s c i x n) := by
  unfold State.leaveAsync; try dsimp only
  repeat' first
    | with_reducible exact Keep.rfl'
    | with_reducible assumption
    | (with_reducible apply Keep.step State.putAsync_keep; decide)
    | split
    | dsimp only

theorem State.flushEp_keep {s : State} {k : Nat} :
    Keep 72057594037747711 s (State.flushEp s k) := by
  unfold State.flushEp; try dsimp only
  repeat' first
    | with_reducible exact Keep.rfl'
    | with_reducible assumption
    | (with_reducible apply Keep.step State.setEp_keep; decide)
    | (with_reducible apply Keep.step State.setUsbSeat_keep; decide)
    | split
    | dsimp only

theorem State.leaveStale_keep {s : State} {e : EpSt} {n : Nat} :
    Keep 72057594037895167 s (State.leaveStale s e n) := by
  unfold State.leaveStale; try dsimp only
  repeat' first
    | with_reducible exact Keep.rfl'
    | with_reducible assumption
    | (with_reducible apply Keep.step State.setUsbSeat_keep; decide)
    | with_reducible apply Keep.ite
    | split
    | dsimp only

theorem State.setXfer_keep {s : State} {h : Nat} {v : XferSt} :
    Keep 72057594037665791 s (State.setXfer s h v) := by
  unfold State.setXfer; try dsimp only
  repeat' first
    | with_reducible exact Keep.rfl'
    | with_reducible assumption
    | with_reducible apply Keep.setUsb
    | exact fun k => absurd k (by decide)
    | with_reducible exact fun _ => rfl
    | with_reducible rfl
    | decide
    | split
    | dsimp only

theorem State.writePieces_keep {s : State} {h : Nat} {e : EntrySt} {b : List Byte} {a0 : List (Nat × Nat)} :
    Keep 70896355140165375 s (State.writePieces s h e b a0).2 := by
  induction a0 generalizing s h e b with
  | nil => unfold State.writePieces; exact Keep.rfl'
  | cons e r ih =>
    unfold State.writePieces; try dsimp only
    repeat' first
      | with_reducible exact Keep.rfl'
      | with_reducible assumption
      | (with_reducible apply Keep.step State.writeEntry_keep; decide)
      | with_reducible refine Keep.step (State.writeEntry_keepE (by assumption)) (by decide) ?_
      | (with_reducible apply Keep.step ih; decide)
      | split
      | dsimp only
theorem State.writePieces_keepE {s : State} {h : Nat} {e : EntrySt} {b : List Byte} {a0 : List (Nat × Nat)} {rE tE} (hE : (State.writePieces s h e b a0) = (rE, tE)) : Keep 70896355140165375 s tE := by
  have k := @State.writePieces_keep s h e b a0; rw [hE] at k; exact k

theorem State.writeIsoValues_keep {s : State} {h : Nat} {v : XferSt} :
    Keep 70896355140165375 s (State.writeIsoValues s h v).2 := by
  unfold State.writeIsoValues; try dsimp only
  repeat' first
    | with_reducible exact Keep.rfl'
    | with_reducible assumption
    | (with_reducible apply Keep.step State.writeEntry_keep; decide)
    | with_reducible refine Keep.step (State.writeEntry_keepE (by assumption)) (by decide) ?_
    | with_reducible refine Keep.getD ?_ ?_
    | split
    | dsimp only
theorem State.writeIsoValues_keepE {s : State} {h : Nat} {v : XferSt} {rE tE} (hE : (State.writeIsoValues s h v) = (rE, tE)) : Keep 70896355140165375 s tE := by
  have k := @State.writeIsoValues_keep s h v; rw [hE] at k; exact k

theorem State.resetStream_keep {s : State} {k : Nat} :
    Keep 72057594037485567 s (State.resetStream s k) := by
  unfold State.resetStream; try dsimp only
  repeat' first
    | with_reducible exact Keep.rfl'
    | with_reducible assumption
    | (with_reducible apply Keep.step State.flushEp_keep; decide)
    | (with_reducible apply Keep.step State.leaveStale_keep; decide)
    | (with_reducible apply Keep.step State.setXfer_keep; decide)
    | with_reducible refine Keep.foldl ?_ (fun _ _ => ?_)
    | with_reducible refine Keep.foldlFst ?_ (fun _ _ => ?_)
    | with_reducible refine Keep.foldlSnd ?_ (fun _ _ => ?_)
    | split
    | dsimp only

theorem State.finishXfer_keep {s : State} {h : Nat} {status : Byte} :
    Keep 70896355139722879 s (State.finishXfer s h status) := by
  unfold State.finishXfer; try dsimp only
  repeat' first
    | with_reducible exact Keep.rfl'
    | with_reducible assumption
    | (with_reducible apply Keep.step State.finishFrom_keep; decide)
    | (with_reducible apply Keep.step State.leaveStale_keep; decide)
    | (with_reducible apply Keep.step State.resetStream_keep; decide)
    | (with_reducible apply Keep.step State.setEp_keep; decide)
    | (with_reducible apply Keep.step State.writeIsoValues_keep; decide)
    | with_reducible refine Keep.step (State.writeIsoValues_keepE (by assumption)) (by decide) ?_
    | with_reducible apply Keep.setUsb
    | exact fun k => absurd k (by decide)
    | with_reducible exact fun _ => rfl
    | with_reducible rfl
    | decide
    | with_reducible apply Keep.ite
    | split
    | dsimp only

theorem State.settleEp_keep {s : State} {k : Nat} :
    Keep 72022272226205311 s (State.settleEp s k) := by
  unfold State.settleEp; try dsimp only
  repeat' first
    | with_reducible exact Keep.rfl'
    | with_reducible assumption
    | (with_reducible apply Keep.step State.applyCharges_keep; decide)
    | (with_reducible apply Keep.step State.finish_keep; decide)
    | (with_reducible apply Keep.step State.leaveAsync_keep; decide)
    | (with_reducible apply Keep.step State.setEp_keep; decide)
    | with_reducible refine Keep.foldl ?_ (fun _ _ => ?_)
    | with_reducible refine Keep.foldlFst ?_ (fun _ _ => ?_)
    | with_reducible refine Keep.foldlSnd ?_ (fun _ _ => ?_)
    | with_reducible apply Keep.ite
    | with_reducible apply Keep.iteFst
    | with_reducible apply Keep.iteSnd
    | split
    | dsimp only

theorem State.endXfer_keep {s : State} {h : Nat} {status : Byte} :
    Keep 70896355139198591 s (State.endXfer s h status) := by
  unfold State.endXfer; try dsimp only
  repeat' first
    | with_reducible exact Keep.rfl'
    | with_reducible assumption
    | (with_reducible apply Keep.step State.finishXfer_keep; decide)
    | (with_reducible apply Keep.step State.setXfer_keep; decide)
    | (with_reducible apply Keep.step State.settleEp_keep; decide)
    | with_reducible apply Keep.ite
    | split
    | dsimp only

theorem State.endAll_keep {s : State} {k : Nat} {status : Byte} :
    Keep 70896355139198591 s (State.endAll s k status) := by
  unfold State.endAll; try dsimp only
  repeat' first
    | with_reducible exact Keep.rfl'
    | with_reducible assumption
    | (with_reducible apply Keep.step State.endXfer_keep; decide)
    | with_reducible refine Keep.foldl ?_ (fun _ _ => ?_)
    | with_reducible refine Keep.foldlFst ?_ (fun _ _ => ?_)
    | with_reducible refine Keep.foldlSnd ?_ (fun _ _ => ?_)
    | split
    | dsimp only

theorem State.closeEp_keep {s : State} {k : Nat} {status : Byte} {flush : Bool} {closer : Option Nat} :
    Keep 70896355139198591 s (State.closeEp s k status flush closer) := by
  unfold State.closeEp; try dsimp only
  repeat' first
    | with_reducible exact Keep.rfl'
    | with_reducible assumption
    | (with_reducible apply Keep.step State.endAll_keep; decide)
    | (with_reducible apply Keep.step State.flushEp_keep; decide)
    | (with_reducible apply Keep.step State.setEp_keep; decide)
    | (with_reducible apply Keep.step State.settleEp_keep; decide)
    | with_reducible apply Keep.ite
    | split
    | dsimp only

theorem State.closeBehind_keep {s : State} {x : Seat} {p : RootPort} {status : Byte} :
    Keep 70896355139198591 s (State.closeBehind s x p status) := by
  unfold State.closeBehind; try dsimp only
  repeat' first
    | with_reducible exact Keep.rfl'
    | with_reducible assumption
    | (with_reducible apply Keep.step State.closeEp_keep; decide)
    | with_reducible refine Keep.foldl ?_ (fun _ _ => ?_)
    | with_reducible refine Keep.foldlFst ?_ (fun _ _ => ?_)
    | with_reducible refine Keep.foldlSnd ?_ (fun _ _ => ?_)
    | split
    | dsimp only

theorem State.closeAtOnce_keep {s : State} {x : Seat} {status : Byte} :
    Keep 70896355139198591 s (State.closeAtOnce s x status) := by
  unfold State.closeAtOnce; try dsimp only
  repeat' first
    | with_reducible exact Keep.rfl'
    | with_reducible assumption
    | (with_reducible apply Keep.step State.finishXfer_keep; decide)
    | (with_reducible apply Keep.step State.setEp_keep; decide)
    | (with_reducible apply Keep.step State.settleEp_keep; decide)
    | with_reducible refine Keep.foldl ?_ (fun _ _ => ?_)
    | with_reducible refine Keep.foldlFst ?_ (fun _ _ => ?_)
    | with_reducible refine Keep.foldlSnd ?_ (fun _ _ => ?_)
    | with_reducible refine Keep.getD ?_ ?_
    | split
    | dsimp only

theorem State.sendOutChunk_keep {s : State} {h : Nat} :
    KeepO 72022268464176895 s (State.sendOutChunk s h) := by
  unfold State.sendOutChunk; try dsimp only
  repeat' first
    | with_reducible exact Keep.rfl'
    | with_reducible assumption
    | (with_reducible apply Keep.step State.hand_keep; decide)
    | (with_reducible apply Keep.step State.queueFrame_keep; decide)
    | (with_reducible apply Keep.step State.setEp_keep; decide)
    | (with_reducible apply Keep.step State.setXfer_keep; decide)
    | with_reducible exact KeepO.none
    | with_reducible refine KeepO.some ?_
    | with_reducible apply Keep.ite
    | split
    | dsimp only

theorem State.sendOutUpTo_keep {a0 : Nat} {a1 : State} {a2 : Nat} :
    Keep 72022268464176895 a1 (State.sendOutUpTo a0 a1 a2) := by
  induction a0 generalizing a1 a2 with
  | zero => unfold State.sendOutUpTo; exact Keep.rfl'
  | succ n ih =>
    unfold State.sendOutUpTo; try dsimp only
    repeat' first
      | with_reducible exact Keep.rfl'
      | with_reducible assumption
      | with_reducible refine Keep.step (KeepO.of State.sendOutChunk_keep (by assumption)) (by decide) ?_
      | (with_reducible apply KeepO.step State.sendOutChunk_keep; decide)
      | (with_reducible apply Keep.step ih; decide)
      | split
      | dsimp only

theorem pumpList_keep {a0 : List Nat} {a1 : State} :
    Keep 72022268464176895 a1 (pumpList a0 a1) := by
  induction a0 generalizing a1 with
  | nil => unfold pumpList; exact Keep.rfl'
  | cons e r ih =>
    unfold pumpList; try dsimp only
    repeat' first
      | with_reducible exact Keep.rfl'
      | with_reducible assumption
      | (with_reducible apply Keep.step State.sendOutUpTo_keep; decide)
      | (with_reducible apply Keep.step ih; decide)
      | with_reducible apply Keep.ite
      | split
      | dsimp only

theorem State.pumpOut_keep {s : State} {k : Nat} :
    Keep 72022268464176895 s (State.pumpOut s k) := by
  unfold State.pumpOut; try dsimp only
  repeat' first
    | with_reducible exact Keep.rfl'
    | with_reducible assumption
    | (with_reducible apply Keep.step pumpList_keep; decide)
    | with_reducible apply Keep.ite
    | split
    | dsimp only

theorem State.pumpSeat_keep {s : State} {x : Seat} :
    Keep 72022268464176895 s (State.pumpSeat s x) := by
  unfold State.pumpSeat; try dsimp only
  repeat' first
    | with_reducible exact Keep.rfl'
    | with_reducible assumption
    | (with_reducible apply Keep.step State.pumpOut_keep; decide)
    | with_reducible refine Keep.foldl ?_ (fun _ _ => ?_)
    | with_reducible refine Keep.foldlFst ?_ (fun _ _ => ?_)
    | with_reducible refine Keep.foldlSnd ?_ (fun _ _ => ?_)
    | split
    | dsimp only

theorem State.sendIso_keep {s : State} {h : Nat} {m : Nat} :
    Keep 72022268464586751 s (State.sendIso s h m) := by
  unfold State.sendIso; try dsimp only
  repeat' first
    | with_reducible exact Keep.rfl'
    | with_reducible assumption
    | (with_reducible apply Keep.step State.queueFrame_keep; decide)
    | with_reducible apply Keep.ite
    | split
    | dsimp only

theorem State.outArrived_keep {s : State} {h : Nat} {b : List Byte} :
    Keep 72022268464176895 s (State.outArrived s h b) := by
  unfold State.outArrived; try dsimp only
  repeat' first
    | with_reducible exact Keep.rfl'
    | with_reducible assumption
    | (with_reducible apply Keep.step State.pumpOut_keep; decide)
    | (with_reducible apply Keep.step State.setXfer_keep; decide)
    | split
    | dsimp only

theorem State.noteSent_keep {s : State} {x : Seat} {n : Nat} {r : List Byte} :
    Keep 72022268464176895 s (State.noteSent s x n r) := by
  unfold State.noteSent; try dsimp only
  repeat' first
    | with_reducible exact Keep.rfl'
    | with_reducible assumption
    | (with_reducible apply Keep.step State.hand_keep; decide)
    | (with_reducible apply Keep.step State.sendIso_keep; decide)
    | (with_reducible apply Keep.step State.setEp_keep; decide)
    | (with_reducible apply Keep.step State.setXfer_keep; decide)
    | with_reducible apply Keep.ite
    | split
    | dsimp only

theorem State.sealScript_keep {s : State} {x : Seat} {n : Nat} {recs : List (List Byte)} :
    Keep 72022268464144127 s (State.sealScript s x n recs) := by
  unfold State.sealScript; try dsimp only
  repeat' first
    | with_reducible exact Keep.rfl'
    | with_reducible assumption
    | (with_reducible apply Keep.step State.noteSent_keep; decide)
    | (with_reducible apply Keep.step State.queueFrame_keep; decide)
    | (with_reducible apply Keep.step State.setUsbSeat_keep; decide)
    | with_reducible refine Keep.foldl ?_ (fun _ _ => ?_)
    | with_reducible refine Keep.foldlFst ?_ (fun _ _ => ?_)
    | with_reducible refine Keep.foldlSnd ?_ (fun _ _ => ?_)
    | with_reducible apply Keep.ite
    | with_reducible apply Keep.iteFst
    | with_reducible apply Keep.iteSnd
    | split
    | dsimp only

end Sys2Proof.Machine
end

