-- ==== Sys2Proof/Laws/KeepUsbRun.lean ====
section
/-! SUPPORT. What the operations of Machine/UsbRun.lean may change: one lemma each. -/

namespace Sys2Proof.Machine

theorem State.openEp_keep {s : State} {h : Nat} {e : EntrySt} :
    Keep 72022272226205311 s (State.openEp s h e) := by
  unfold State.openEp; try dsimp only
  repeat' first
    | with_reducible exact Keep.rfl'
    | with_reducible assumption
    | (with_reducible apply Keep.step State.applyCharges_keep; decide)
    | (with_reducible apply Keep.step State.finish_keep; decide)
    | (with_reducible apply Keep.step State.putAsync_keep; decide)
    | (with_reducible apply Keep.step State.setEp_keep; decide)
    | with_reducible apply Keep.ite
    | split
    | dsimp only

theorem execUsbOpen_keep {c : CoreId} {h : Nat} {s : State} :
    KeepX 72022272226205311 s (execUsbOpen c h s) := by
  unfold execUsbOpen; try dsimp only
  repeat' first
    | with_reducible exact Keep.rfl'
    | with_reducible assumption
    | (with_reducible apply Keep.step State.openEp_keep; decide)
    | with_reducible refine KeepX.next ?_
    | with_reducible apply Keep.ite
    | split
    | dsimp only

theorem execClose_keep {c : CoreId} {h : Nat} {s : State} :
    KeepX 70896355139198591 s (execClose c h s) := by
  unfold execClose; try dsimp only
  repeat' first
    | with_reducible exact Keep.rfl'
    | with_reducible assumption
    | (with_reducible apply Keep.step State.begin__keep; decide)
    | (with_reducible apply Keep.step State.closeEp_keep; decide)
    | (with_reducible apply Keep.step State.finish_keep; decide)
    | with_reducible refine KeepX.next ?_
    | with_reducible apply Keep.ite
    | split
    | dsimp only

theorem execClearHalt_keep {c : CoreId} {h : Nat} {s : State} :
    KeepX 72022268464176767 s (execClearHalt c h s) := by
  unfold execClearHalt; try dsimp only
  repeat' first
    | with_reducible exact Keep.rfl'
    | with_reducible assumption
    | (with_reducible apply Keep.step State.finish_keep; decide)
    | (with_reducible apply Keep.step State.pumpOut_keep; decide)
    | (with_reducible apply Keep.step State.setEp_keep; decide)
    | with_reducible refine KeepX.next ?_
    | with_reducible apply Keep.ite
    | split
    | dsimp only

theorem execAbort_keep {c : CoreId} {h : Nat} {s : State} :
    KeepX 70896355139198591 s (execAbort c h s) := by
  unfold execAbort; try dsimp only
  repeat' first
    | with_reducible exact Keep.rfl'
    | with_reducible assumption
    | (with_reducible apply Keep.step State.begin__keep; decide)
    | (with_reducible apply Keep.step State.endAll_keep; decide)
    | (with_reducible apply Keep.step State.finish_keep; decide)
    | (with_reducible apply Keep.step State.flushEp_keep; decide)
    | (with_reducible apply Keep.step State.setEp_keep; decide)
    | (with_reducible apply Keep.step State.settleEp_keep; decide)
    | with_reducible refine KeepX.next ?_
    | with_reducible apply Keep.ite
    | split
    | dsimp only

theorem State.failOut_keep {s : State} {h : Nat} :
    Keep 70896355139198591 s (State.failOut s h) := by
  unfold State.failOut; try dsimp only
  repeat' first
    | with_reducible exact Keep.rfl'
    | with_reducible assumption
    | (with_reducible apply Keep.step State.endXfer_keep; decide)
    | (with_reducible apply Keep.step State.setXfer_keep; decide)
    | split
    | dsimp only

theorem State.readPieces_keep {s : State} {e : EntrySt} {h : Nat} {a0 : List (Nat × Nat)} :
    Keep 70931676951216111 s (State.readPieces s e h a0) := by
  induction a0 generalizing s e h with
  | nil => unfold State.readPieces; exact Keep.rfl'
  | cons e r ih =>
    unfold State.readPieces; try dsimp only
    repeat' first
      | with_reducible exact Keep.rfl'
      | with_reducible assumption
      | (with_reducible apply Keep.step State.issueRead_keep; decide)
      | (with_reducible apply Keep.step ih; decide)
      | with_reducible apply Keep.ite
      | split
      | dsimp only

theorem State.fetchOut_keep {s : State} {h : Nat} {e : EntrySt} {v : XferSt} :
    Keep 70896355139198575 s (State.fetchOut s h e v) := by
  unfold State.fetchOut; try dsimp only
  repeat' first
    | with_reducible exact Keep.rfl'
    | with_reducible assumption
    | (with_reducible apply Keep.step State.failCount_keep; decide)
    | (with_reducible apply Keep.step State.failOut_keep; decide)
    | (with_reducible apply Keep.step State.readPieces_keep; decide)
    | with_reducible apply Keep.ite
    | split
    | dsimp only

theorem State.postXfer_keep {s : State} {h : Nat} {e : EntrySt} {v : XferSt} :
    Keep 70896351376907887 s (State.postXfer s h e v) := by
  unfold State.postXfer; try dsimp only
  repeat' first
    | with_reducible exact Keep.rfl'
    | with_reducible assumption
    | (with_reducible apply Keep.step State.begin__keep; decide)
    | (with_reducible apply Keep.step State.fetchOut_keep; decide)
    | (with_reducible apply Keep.step State.pumpOut_keep; decide)
    | (with_reducible apply Keep.step State.setEp_keep; decide)
    | (with_reducible apply Keep.step State.setXfer_keep; decide)
    | split
    | dsimp only

theorem State.withEp_keepH {K : Nat} {s x : State} {c : CoreId} {h entryType type : Nat} {f : EntrySt → Nat → State}
    (hx : Keep K s x) (e : K &&& 72022272226877055 = K) (hf : ∀ e k, Keep K s (f e k)) :
    Keep K s (State.withEp x c h entryType type f) := by
  unfold State.withEp
  split
  · exact hx
  · split
    · exact Keep.step State.finish_keep (by rw [← e, Nat.and_assoc]; rfl) hx
    · split
      · exact hf _ _
      · exact Keep.step State.finish_keep (by rw [← e, Nat.and_assoc]; rfl) hx

theorem execUsbControl_keep {c : CoreId} {h : Nat} {s : State} :
    KeepX 70896351376907887 s (execUsbControl c h s) := by
  unfold execUsbControl; try dsimp only
  repeat' first
    | with_reducible exact Keep.rfl'
    | with_reducible assumption
    | (with_reducible apply Keep.step State.postXfer_keep; decide)
    | with_reducible apply State.withEp_keepH
    | with_reducible refine KeepX.next ?_
    | decide
    | intro _
    | with_reducible apply Keep.ite
    | split
    | dsimp only

theorem execUsbBulk_keep {c : CoreId} {h : Nat} {s : State} :
    KeepX 70896351376907887 s (execUsbBulk c h s) := by
  unfold execUsbBulk; try dsimp only
  repeat' first
    | with_reducible exact Keep.rfl'
    | with_reducible assumption
    | (with_reducible apply Keep.step State.postXfer_keep; decide)
    | with_reducible apply State.withEp_keepH
    | with_reducible refine KeepX.next ?_
    | decide
    | intro _
    | split
    | dsimp only

theorem execUsbInterrupt_keep {c : CoreId} {h : Nat} {s : State} :
    KeepX 70896351376907887 s (execUsbInterrupt c h s) := by
  unfold execUsbInterrupt; try dsimp only
  repeat' first
    | with_reducible exact Keep.rfl'
    | with_reducible assumption
    | (with_reducible apply Keep.step State.postXfer_keep; decide)
    | with_reducible apply State.withEp_keepH
    | with_reducible refine KeepX.next ?_
    | decide
    | intro _
    | split
    | dsimp only

theorem State.endIsoch_keep {s : State} {h : Nat} {e : EntrySt} {status : Nat} :
    Keep 70896355140165247 s (State.endIsoch s h e status) := by
  unfold State.endIsoch; try dsimp only
  repeat' first
    | with_reducible exact Keep.rfl'
    | with_reducible assumption
    | (with_reducible apply Keep.step State.finish_keep; decide)
    | (with_reducible apply Keep.step State.isoNotRun_keep; decide)
    | with_reducible refine Keep.step (State.isoNotRun_keepE (by assumption)) (by decide) ?_
    | with_reducible apply Keep.ite
    | split
    | dsimp only

theorem State.isochTake_keep {s : State} {c : CoreId} {h : Nat} {e : EntrySt} {k : Nat} :
    Keep 70896355139198575 s (State.isochTake s c h e k) := by
  unfold State.isochTake; try dsimp only
  repeat' first
    | with_reducible exact Keep.rfl'
    | with_reducible assumption
    | (with_reducible apply Keep.step State.begin__keep; decide)
    | (with_reducible apply Keep.step State.endIsoch_keep; decide)
    | (with_reducible apply Keep.step State.fetchOut_keep; decide)
    | (with_reducible apply Keep.step State.setEp_keep; decide)
    | (with_reducible apply Keep.step State.setXfer_keep; decide)
    | with_reducible apply Keep.ite
    | split
    | dsimp only

theorem execUsbIsoch_keep {c : CoreId} {h : Nat} {s : State} :
    KeepX 70896355139198575 s (execUsbIsoch c h s) := by
  unfold execUsbIsoch; try dsimp only
  repeat' first
    | with_reducible exact Keep.rfl'
    | with_reducible assumption
    | (with_reducible apply Keep.step State.isochTake_keep; decide)
    | with_reducible apply State.withEp_keepH
    | with_reducible refine KeepX.next ?_
    | decide
    | intro _
    | split
    | dsimp only

theorem execTimedOut_keep {c : CoreId} {h : Nat} {ut : Nat} {s : State} :
    KeepX 30363958492862078 s (execTimedOut c h ut s) := by
  unfold execTimedOut; try dsimp only
  repeat' first
    | with_reducible exact Keep.rfl'
    | with_reducible assumption
    | (with_reducible apply Keep.step State.arrive_keep; decide)
    | (with_reducible apply Keep.step State.endXfer_keep; decide)
    | with_reducible refine KeepX.next ?_
    | with_reducible apply Keep.ite
    | split
    | dsimp only

theorem State.isoSettle_keep {s : State} {h : Nat} :
    Keep 70896355139198591 s (State.isoSettle s h) := by
  unfold State.isoSettle; try dsimp only
  repeat' first
    | with_reducible exact Keep.rfl'
    | with_reducible assumption
    | (with_reducible apply Keep.step State.finishXfer_keep; decide)
    | (with_reducible apply Keep.step State.settleEp_keep; decide)
    | with_reducible refine Keep.getD ?_ ?_
    | with_reducible apply Keep.ite
    | split
    | dsimp only

theorem State.countLost_keep {s : State} {x : Seat} {n : Nat} :
    Keep 72022272226877439 s (State.countLost s x n) := by
  unfold State.countLost; try dsimp only
  repeat' first
    | with_reducible exact Keep.rfl'
    | with_reducible assumption
    | (with_reducible apply Keep.step State.bumpSeat_keep; decide)
    | (with_reducible apply Keep.step State.count_keep; decide)
    | with_reducible apply Keep.ite
    | split
    | dsimp only

theorem State.isoLost_keep {s : State} {x : Seat} {n : Nat} :
    Keep 70896355139198591 s (State.isoLost s x n) := by
  unfold State.isoLost; try dsimp only
  repeat' first
    | with_reducible exact Keep.rfl'
    | with_reducible assumption
    | (with_reducible apply Keep.step State.countLost_keep; decide)
    | (with_reducible apply Keep.step State.isoSettle_keep; decide)
    | (with_reducible apply Keep.step State.setXfer_keep; decide)
    | with_reducible refine Keep.foldl ?_ (fun _ _ => ?_)
    | with_reducible refine Keep.foldlFst ?_ (fun _ _ => ?_)
    | with_reducible refine Keep.foldlSnd ?_ (fun _ _ => ?_)
    | with_reducible apply Keep.ite
    | with_reducible apply Keep.iteFst
    | with_reducible apply Keep.iteSnd
    | split
    | dsimp only

theorem execIsoResultLost_keep {x : Seat} {n : Nat} {ut : Nat} {s : State} :
    KeepX 30363958492862078 s (execIsoResultLost x n ut s) := by
  unfold execIsoResultLost; try dsimp only
  repeat' first
    | with_reducible exact Keep.rfl'
    | with_reducible assumption
    | (with_reducible apply Keep.step State.arrive_keep; decide)
    | (with_reducible apply Keep.step State.isoLost_keep; decide)
    | with_reducible refine KeepX.next ?_
    | with_reducible apply Keep.ite
    | split
    | dsimp only

theorem State.afterResult_keep {s : State} {h : Nat} :
    Keep 70896355139198591 s (State.afterResult s h) := by
  unfold State.afterResult; try dsimp only
  repeat' first
    | with_reducible exact Keep.rfl'
    | with_reducible assumption
    | (with_reducible apply Keep.step State.finishXfer_keep; decide)
    | (with_reducible apply Keep.step State.settleEp_keep; decide)
    | with_reducible apply Keep.ite
    | split
    | dsimp only

theorem State.completeXfer_keep {s : State} {h : Nat} {st : Byte} :
    Keep 70896355139198591 s (State.completeXfer s h st) := by
  unfold State.completeXfer; try dsimp only
  repeat' first
    | with_reducible exact Keep.rfl'
    | with_reducible assumption
    | (with_reducible apply Keep.step State.afterResult_keep; decide)
    | (with_reducible apply Keep.step State.setXfer_keep; decide)
    | split
    | dsimp only

theorem State.failXfer_keep {s : State} {k : Nat} {h : Nat} {st : Byte} {halts : Bool} :
    Keep 70896355139198591 s (State.failXfer s k h st halts) := by
  unfold State.failXfer; try dsimp only
  repeat' first
    | with_reducible exact Keep.rfl'
    | with_reducible assumption
    | (with_reducible apply Keep.step State.completeXfer_keep; decide)
    | (with_reducible apply Keep.step State.setEp_keep; decide)
    | with_reducible apply Keep.ite
    | split
    | dsimp only

theorem State.moveBytes_keep {s : State} {h : Nat} {r : ResIn} {bytes : Nat} :
    Keep 70896355139903231 s (State.moveBytes s h r bytes) := by
  unfold State.moveBytes; try dsimp only
  repeat' first
    | with_reducible exact Keep.rfl'
    | with_reducible assumption
    | (with_reducible apply Keep.step State.setEntry_keep; decide)
    | (with_reducible apply Keep.step State.setXfer_keep; decide)
    | (with_reducible apply Keep.step State.writePieces_keep; decide)
    | with_reducible refine Keep.step (State.writePieces_keepE (by assumption)) (by decide) ?_
    | with_reducible apply Keep.ite
    | split
    | dsimp only

theorem State.resultXfer_keep {s : State} {k : Nat} {h : Nat} {r : ResIn} {q : List Byte} {code : Nat} :
    Keep 70896351376907903 s (State.resultXfer s k h r q code) := by
  unfold State.resultXfer; try dsimp only
  repeat' first
    | with_reducible exact Keep.rfl'
    | with_reducible assumption
    | (with_reducible apply Keep.step State.afterResult_keep; decide)
    | (with_reducible apply Keep.step State.completeXfer_keep; decide)
    | (with_reducible apply Keep.step State.failXfer_keep; decide)
    | (with_reducible apply Keep.step State.moveBytes_keep; decide)
    | (with_reducible apply Keep.step State.pumpSeat_keep; decide)
    | (with_reducible apply Keep.step State.resetStream_keep; decide)
    | (with_reducible apply Keep.step State.setEp_keep; decide)
    | (with_reducible apply Keep.step State.setXfer_keep; decide)
    | with_reducible apply Keep.ite
    | split
    | dsimp only

theorem State.resultIso_keep {s : State} {x : Seat} {h : Nat} {n : Nat} {r : ResIn} {q : List Byte} {code : Nat} :
    Keep 70896355139198591 s (State.resultIso s x h n r q code) := by
  unfold State.resultIso; try dsimp only
  repeat' first
    | with_reducible exact Keep.rfl'
    | with_reducible assumption
    | (with_reducible apply Keep.step State.countLost_keep; decide)
    | (with_reducible apply Keep.step State.isoSettle_keep; decide)
    | (with_reducible apply Keep.step State.setXfer_keep; decide)
    | (with_reducible apply Keep.step State.writePieces_keep; decide)
    | with_reducible refine Keep.step (State.writePieces_keepE (by assumption)) (by decide) ?_
    | with_reducible apply Keep.ite
    | split
    | dsimp only

theorem State.applyResult_keep {s : State} {x : Seat} {r : ResIn} :
    Keep 70896351376907903 s (State.applyResult s x r) := by
  unfold State.applyResult; try dsimp only
  repeat' first
    | with_reducible exact Keep.rfl'
    | with_reducible assumption
    | (with_reducible apply Keep.step State.bumpSeat_keep; decide)
    | (with_reducible apply Keep.step State.count_keep; decide)
    | (with_reducible apply Keep.step State.resultIso_keep; decide)
    | (with_reducible apply Keep.step State.resultXfer_keep; decide)
    | (with_reducible apply Keep.step State.setUsbSeat_keep; decide)
    | with_reducible refine Keep.getD ?_ ?_
    | with_reducible apply Keep.ite
    | split
    | dsimp only

theorem State.resultItem_keep {s : State} {x : Seat} {k : Nat} {l : List ResIn} {src : Option (Tunnel × Half)} {iso : Bool} :
    Keep 72022272222678463 s (State.resultItem s x k l src iso) := by
  unfold State.resultItem; try dsimp only
  repeat' first
    | with_reducible exact Keep.rfl'
    | with_reducible assumption
    | (with_reducible apply Keep.step State.actMake_keep; decide)
    | (with_reducible apply Keep.step State.readyIso_keep; decide)
    | (with_reducible apply Keep.step State.readyItem_keep; decide)
    | with_reducible apply Keep.ite
    | split
    | dsimp only

theorem State.resultItems_keep {s : State} {x : Seat} {l : List ResIn} {src : Option (Tunnel × Half)} {iso : Bool} :
    Keep 72022272222678463 s (State.resultItems s x l src iso) := by
  unfold State.resultItems; try dsimp only
  repeat' first
    | with_reducible exact Keep.rfl'
    | with_reducible assumption
    | (with_reducible apply Keep.step State.resultItem_keep; decide)
    | with_reducible refine Keep.foldl ?_ (fun _ _ => ?_)
    | with_reducible refine Keep.foldlFst ?_ (fun _ _ => ?_)
    | with_reducible refine Keep.foldlSnd ?_ (fun _ _ => ?_)
    | with_reducible refine Keep.getD ?_ ?_
    | with_reducible apply Keep.ite
    | with_reducible apply Keep.iteFst
    | with_reducible apply Keep.iteSnd
    | split
    | dsimp only

theorem State.hubWaits_keep {s : State} {x : Seat} {o : HubOp} {src : Option (Tunnel × Half)} :
    Keep 72057594033700863 s (State.hubWaits s x o src) := by
  unfold State.hubWaits; try dsimp only
  repeat' first
    | with_reducible exact Keep.rfl'
    | with_reducible assumption
    | (with_reducible apply Keep.step State.actMake_keep; decide)
    | (with_reducible apply Keep.step State.setUsbSeat_keep; decide)
    | split
    | dsimp only

theorem State.hubResults_keep {s : State} {x : Seat} {l : List ResIn} {src : Option (Tunnel × Half)} :
    Keep 72057594033700863 s (State.hubResults s x l src) := by
  unfold State.hubResults; try dsimp only
  repeat' first
    | with_reducible exact Keep.rfl'
    | with_reducible assumption
    | (with_reducible apply Keep.step State.hubWaits_keep; decide)
    | with_reducible refine Keep.foldl ?_ (fun _ _ => ?_)
    | with_reducible refine Keep.foldlFst ?_ (fun _ _ => ?_)
    | with_reducible refine Keep.foldlSnd ?_ (fun _ _ => ?_)
    | with_reducible apply Keep.ite
    | with_reducible apply Keep.iteFst
    | with_reducible apply Keep.iteSnd
    | split
    | dsimp only

theorem State.takeResults_keep {s : State} {x : Seat} {param0 : Nat} {body : List Byte} {src : Option (Tunnel × Half)} {iso : Bool} :
    Keep 70896351376903231 s (State.takeResults s x param0 body src iso).1 := by
  unfold State.takeResults; try dsimp only
  repeat' first
    | with_reducible exact Keep.rfl'
    | with_reducible assumption
    | (with_reducible apply Keep.step State.applyResult_keep; decide)
    | (with_reducible apply Keep.step State.bumpSeat_keep; decide)
    | (with_reducible apply Keep.step State.hubResults_keep; decide)
    | (with_reducible apply Keep.step State.resultItems_keep; decide)
    | (with_reducible apply Keep.step State.setUsbSeat_keep; decide)
    | with_reducible refine Keep.foldl ?_ (fun _ _ => ?_)
    | with_reducible refine Keep.foldlFst ?_ (fun _ _ => ?_)
    | with_reducible refine Keep.foldlSnd ?_ (fun _ _ => ?_)
    | split
    | dsimp only
theorem State.takeResults_keepE {s : State} {x : Seat} {param0 : Nat} {body : List Byte} {src : Option (Tunnel × Half)} {iso : Bool} {tE rE} (hE : (State.takeResults s x param0 body src iso) = (tE, rE)) : Keep 70896351376903231 s tE := by
  have k := @State.takeResults_keep s x param0 body src iso; rw [hE] at k; exact k

theorem State.portChange_keep {s : State} {x : Seat} {p : RootPort} {m : BitVec 7} :
    Keep 72022272226811775 s (State.portChange s x p m) := by
  unfold State.portChange; try dsimp only
  repeat' first
    | with_reducible exact Keep.rfl'
    | with_reducible assumption
    | (with_reducible apply Keep.step State.changeRecord_keep; decide)
    | (with_reducible apply Keep.step State.setRootPort_keep; decide)
    | with_reducible apply Keep.ite
    | split
    | dsimp only

theorem State.placePort_keep {s : State} {x : Seat} {p : RootPort} {op : Byte} {cmd : Option Nat} :
    Keep 72057594037895167 s (State.placePort s x p op cmd) := by
  unfold State.placePort; try dsimp only
  repeat' first
    | with_reducible exact Keep.rfl'
    | with_reducible assumption
    | (with_reducible apply Keep.step State.setUsbSeat_keep; decide)
    | split
    | dsimp only

theorem State.endPortCmd_keep {s : State} {x : Seat} {p : RootPort} {result : Byte} :
    Keep 72057594037862399 s (State.endPortCmd s x p result) := by
  unfold State.endPortCmd; try dsimp only
  repeat' first
    | with_reducible exact Keep.rfl'
    | with_reducible assumption
    | (with_reducible apply Keep.step State.setRootPort_keep; decide)
    | with_reducible apply Keep.ite
    | split
    | dsimp only

theorem State.refusePort_keep {s : State} {x : Seat} {p : RootPort} {result : Byte} :
    Keep 72022272226811775 s (State.refusePort s x p result) := by
  unfold State.refusePort; try dsimp only
  repeat' first
    | with_reducible exact Keep.rfl'
    | with_reducible assumption
    | (with_reducible apply Keep.step State.portChange_keep; decide)
    | (with_reducible apply Keep.step State.setRootPort_keep; decide)
    | split
    | dsimp only

theorem State.acceptPort_keep {s : State} {x : Seat} {p : RootPort} {k : PortCmd} {st : PortState} {op : Option Byte} :
    Keep 72057594037829631 s (State.acceptPort s x p k st op) := by
  unfold State.acceptPort; try dsimp only
  repeat' first
    | with_reducible exact Keep.rfl'
    | with_reducible assumption
    | (with_reducible apply Keep.step State.placePort_keep; decide)
    | (with_reducible apply Keep.step State.setRootPort_keep; decide)
    | with_reducible apply Keep.ite
    | split
    | dsimp only

theorem State.portCommand_keep {s : State} {x : Seat} {p : RootPort} {k : PortCmd} :
    Keep 70896355139133055 s (State.portCommand s x p k) := by
  unfold State.portCommand; try dsimp only
  repeat' first
    | with_reducible exact Keep.rfl'
    | with_reducible assumption
    | (with_reducible apply Keep.step State.acceptPort_keep; decide)
    | (with_reducible apply Keep.step State.closeBehind_keep; decide)
    | (with_reducible apply Keep.step State.endPortCmd_keep; decide)
    | (with_reducible apply Keep.step State.refusePort_keep; decide)
    | (with_reducible apply Keep.step State.setRootPort_keep; decide)
    | with_reducible apply Keep.ite
    | split
    | dsimp only

theorem State.portDisconnect_keep {s : State} {x : Seat} {p : RootPort} :
    Keep 70896355139133055 s (State.portDisconnect s x p) := by
  unfold State.portDisconnect; try dsimp only
  repeat' first
    | with_reducible exact Keep.rfl'
    | with_reducible assumption
    | (with_reducible apply Keep.step State.closeBehind_keep; decide)
    | (with_reducible apply Keep.step State.endPortCmd_keep; decide)
    | (with_reducible apply Keep.step State.placePort_keep; decide)
    | (with_reducible apply Keep.step State.portChange_keep; decide)
    | (with_reducible apply Keep.step State.setRootPort_keep; decide)
    | with_reducible apply Keep.ite
    | split
    | dsimp only

theorem State.portUnpowered_keep {s : State} {x : Seat} {p : RootPort} {m : BitVec 7} :
    Keep 70896355139133055 s (State.portUnpowered s x p m) := by
  unfold State.portUnpowered; try dsimp only
  repeat' first
    | with_reducible exact Keep.rfl'
    | with_reducible assumption
    | (with_reducible apply Keep.step State.closeBehind_keep; decide)
    | (with_reducible apply Keep.step State.portChange_keep; decide)
    | (with_reducible apply Keep.step State.setRootPort_keep; decide)
    | with_reducible apply Keep.ite
    | split
    | dsimp only

theorem State.portEvent_keep {s : State} {x : Seat} {r : List Byte} :
    Keep 70896355139133055 s (State.portEvent s x r) := by
  unfold State.portEvent; try dsimp only
  repeat' first
    | with_reducible exact Keep.rfl'
    | with_reducible assumption
    | (with_reducible apply Keep.step State.bumpSeat_keep; decide)
    | (with_reducible apply Keep.step State.endPortCmd_keep; decide)
    | (with_reducible apply Keep.step State.portChange_keep; decide)
    | (with_reducible apply Keep.step State.portDisconnect_keep; decide)
    | (with_reducible apply Keep.step State.portUnpowered_keep; decide)
    | (with_reducible apply Keep.step State.setRootPort_keep; decide)
    | with_reducible apply Keep.ite
    | split
    | dsimp only

theorem State.portResult_keep {s : State} {x : Seat} {code : Nat} {r : PortRec} :
    Keep 70896355139133055 s (State.portResult s x code r) := by
  unfold State.portResult; try dsimp only
  repeat' first
    | with_reducible exact Keep.rfl'
    | with_reducible assumption
    | (with_reducible apply Keep.step State.bumpSeat_keep; decide)
    | (with_reducible apply Keep.step State.endPortCmd_keep; decide)
    | (with_reducible apply Keep.step State.placePort_keep; decide)
    | (with_reducible apply Keep.step State.portUnpowered_keep; decide)
    | (with_reducible apply Keep.step State.setRootPort_keep; decide)
    | with_reducible apply Keep.ite
    | split
    | dsimp only

theorem State.hubDone_keep {s : State} {x : Seat} {q : Option Half} :
    Keep 72057594033733631 s (State.hubDone s x q) := by
  unfold State.hubDone; try dsimp only
  repeat' first
    | with_reducible exact Keep.rfl'
    | with_reducible assumption
    | (with_reducible apply Keep.step State.actDone_keep; decide)
    | split
    | dsimp only

theorem State.flushResult_keep {s : State} {x : Seat} {code : Nat} {q : List Byte} :
    Keep 72022268464144127 s (State.flushResult s x code q) := by
  unfold State.flushResult; try dsimp only
  repeat' first
    | with_reducible exact Keep.rfl'
    | with_reducible assumption
    | (with_reducible apply Keep.step State.pumpSeat_keep; decide)
    | (with_reducible apply Keep.step State.setUsbSeat_keep; decide)
    | with_reducible apply Keep.ite
    | split
    | dsimp only

theorem State.hubStep_keep {s : State} {x : Seat} {o : HubOp} :
    Keep 70896351376842367 s (State.hubStep s x o) := by
  unfold State.hubStep; try dsimp only
  repeat' first
    | with_reducible exact Keep.rfl'
    | with_reducible assumption
    | (with_reducible apply Keep.step State.flushResult_keep; decide)
    | (with_reducible apply Keep.step State.hubDone_keep; decide)
    | (with_reducible apply Keep.step State.portCommand_keep; decide)
    | (with_reducible apply Keep.step State.portEvent_keep; decide)
    | (with_reducible apply Keep.step State.portResult_keep; decide)
    | (with_reducible apply Keep.step State.refusePort_keep; decide)
    | with_reducible apply Keep.ite
    | split
    | dsimp only

theorem State.hubOperation_keep {s : State} {x : Seat} :
    Keep 70896351376842367 s (State.hubOperation s x) := by
  unfold State.hubOperation; try dsimp only
  repeat' first
    | with_reducible exact Keep.rfl'
    | with_reducible assumption
    | (with_reducible apply Keep.step State.hubStep_keep; decide)
    | (with_reducible apply Keep.step State.setUsbSeat_keep; decide)
    | with_reducible refine Keep.foldl ?_ (fun _ _ => ?_)
    | with_reducible refine Keep.foldlFst ?_ (fun _ _ => ?_)
    | with_reducible refine Keep.foldlSnd ?_ (fun _ _ => ?_)
    | with_reducible apply Keep.ite
    | with_reducible apply Keep.iteFst
    | with_reducible apply Keep.iteSnd
    | split
    | dsimp only

theorem execRootHubOperation_keep {x : Seat} {s : State} :
    KeepX 70896351376842367 s (execRootHubOperation x s) := by
  unfold execRootHubOperation; try dsimp only
  repeat' first
    | with_reducible exact Keep.rfl'
    | with_reducible assumption
    | (with_reducible apply Keep.step State.hubOperation_keep; decide)
    | with_reducible refine KeepX.next ?_
    | split
    | dsimp only

theorem State.submitPort_keep {s : State} {f : FnId} {i : IsletNo} {x : Seat} {p : RootPort} {k : Option PortCmd} :
    Keep 72057594037895167 s (State.submitPort s f i x p k) := by
  unfold State.submitPort; try dsimp only
  repeat' first
    | with_reducible exact Keep.rfl'
    | with_reducible assumption
    | (with_reducible apply Keep.step State.setUsbSeat_keep; decide)
    | with_reducible apply Keep.ite
    | split
    | dsimp only

theorem execRootPortReset_keep {f : FnId} {i : IsletNo} {x : Seat} {p : RootPort} {s : State} :
    KeepX 72057594037895167 s (execRootPortReset f i x p s) := by
  unfold execRootPortReset; try dsimp only
  repeat' first
    | with_reducible exact Keep.rfl'
    | with_reducible assumption
    | (with_reducible apply Keep.step State.submitPort_keep; decide)
    | with_reducible refine KeepX.next ?_
    | split
    | dsimp only

theorem execRootPortSuspend_keep {f : FnId} {i : IsletNo} {x : Seat} {p : RootPort} {s : State} :
    KeepX 72057594037895167 s (execRootPortSuspend f i x p s) := by
  unfold execRootPortSuspend; try dsimp only
  repeat' first
    | with_reducible exact Keep.rfl'
    | with_reducible assumption
    | (with_reducible apply Keep.step State.submitPort_keep; decide)
    | with_reducible refine KeepX.next ?_
    | split
    | dsimp only

theorem execRootPortResume_keep {f : FnId} {i : IsletNo} {x : Seat} {p : RootPort} {s : State} :
    KeepX 72057594037895167 s (execRootPortResume f i x p s) := by
  unfold execRootPortResume; try dsimp only
  repeat' first
    | with_reducible exact Keep.rfl'
    | with_reducible assumption
    | (with_reducible apply Keep.step State.submitPort_keep; decide)
    | with_reducible refine KeepX.next ?_
    | split
    | dsimp only

theorem execRootPortDisable_keep {f : FnId} {i : IsletNo} {x : Seat} {p : RootPort} {s : State} :
    KeepX 72057594037895167 s (execRootPortDisable f i x p s) := by
  unfold execRootPortDisable; try dsimp only
  repeat' first
    | with_reducible exact Keep.rfl'
    | with_reducible assumption
    | (with_reducible apply Keep.step State.submitPort_keep; decide)
    | with_reducible refine KeepX.next ?_
    | split
    | dsimp only

theorem execRootPortPowerOff_keep {f : FnId} {i : IsletNo} {x : Seat} {p : RootPort} {s : State} :
    KeepX 72057594037895167 s (execRootPortPowerOff f i x p s) := by
  unfold execRootPortPowerOff; try dsimp only
  repeat' first
    | with_reducible exact Keep.rfl'
    | with_reducible assumption
    | (with_reducible apply Keep.step State.submitPort_keep; decide)
    | with_reducible refine KeepX.next ?_
    | split
    | dsimp only

theorem execRootPortPowerOn_keep {f : FnId} {i : IsletNo} {x : Seat} {p : RootPort} {s : State} :
    KeepX 72057594037895167 s (execRootPortPowerOn f i x p s) := by
  unfold execRootPortPowerOn; try dsimp only
  repeat' first
    | with_reducible exact Keep.rfl'
    | with_reducible assumption
    | (with_reducible apply Keep.step State.submitPort_keep; decide)
    | with_reducible refine KeepX.next ?_
    | split
    | dsimp only

theorem execRootPortBadCommand_keep {f : FnId} {i : IsletNo} {x : Seat} {p : RootPort} {s : State} :
    KeepX 72057594037895167 s (execRootPortBadCommand f i x p s) := by
  unfold execRootPortBadCommand; try dsimp only
  repeat' first
    | with_reducible exact Keep.rfl'
    | with_reducible assumption
    | (with_reducible apply Keep.step State.submitPort_keep; decide)
    | with_reducible refine KeepX.next ?_
    | split
    | dsimp only

theorem State.clearPortChange_keep {s : State} {f : FnId} {i : IsletNo} {x : Seat} {p : RootPort} {b : BitVec 7} :
    Keep 72057594037862399 s (State.clearPortChange s f i x p b) := by
  unfold State.clearPortChange; try dsimp only
  repeat' first
    | with_reducible exact Keep.rfl'
    | with_reducible assumption
    | (with_reducible apply Keep.step State.setRootPort_keep; decide)
    | with_reducible apply Keep.ite
    | split
    | dsimp only

theorem execRootPortChangeClear_keep {f : FnId} {i : IsletNo} {x : Seat} {p : RootPort} {bits : BitVec 7} {s : State} :
    KeepX 72057594037862399 s (execRootPortChangeClear f i x p bits s) := by
  unfold execRootPortChangeClear; try dsimp only
  repeat' first
    | with_reducible exact Keep.rfl'
    | with_reducible assumption
    | (with_reducible apply Keep.step State.clearPortChange_keep; decide)
    | with_reducible refine KeepX.next ?_
    | split
    | dsimp only

theorem State.flushPorts_keep {s : State} {x : Seat} :
    Keep 72022272226811775 s (State.flushPorts s x) := by
  unfold State.flushPorts; try dsimp only
  repeat' first
    | with_reducible exact Keep.rfl'
    | with_reducible assumption
    | (with_reducible apply Keep.step State.endPortCmd_keep; decide)
    | (with_reducible apply Keep.step State.portChange_keep; decide)
    | (with_reducible apply Keep.step State.setRootPort_keep; decide)
    | with_reducible refine Keep.foldl ?_ (fun _ _ => ?_)
    | with_reducible refine Keep.foldlFst ?_ (fun _ _ => ?_)
    | with_reducible refine Keep.foldlSnd ?_ (fun _ _ => ?_)
    | with_reducible apply Keep.ite
    | with_reducible apply Keep.iteFst
    | with_reducible apply Keep.iteSnd
    | split
    | dsimp only

theorem State.freshPorts_keep {s : State} {x : Seat} :
    Keep 72022272226811775 s (State.freshPorts s x) := by
  unfold State.freshPorts; try dsimp only
  repeat' first
    | with_reducible exact Keep.rfl'
    | with_reducible assumption
    | (with_reducible apply Keep.step State.portChange_keep; decide)
    | (with_reducible apply Keep.step State.setRootPort_keep; decide)
    | with_reducible refine Keep.foldl ?_ (fun _ _ => ?_)
    | with_reducible refine Keep.foldlFst ?_ (fun _ _ => ?_)
    | with_reducible refine Keep.foldlSnd ?_ (fun _ _ => ?_)
    | with_reducible apply Keep.ite
    | with_reducible apply Keep.iteFst
    | with_reducible apply Keep.iteSnd
    | split
    | dsimp only

theorem State.gen1Fall_keep {s : State} {x : Seat} :
    Keep 70896355139133055 s (State.gen1Fall s x) := by
  unfold State.gen1Fall; try dsimp only
  repeat' first
    | with_reducible exact Keep.rfl'
    | with_reducible assumption
    | (with_reducible apply Keep.step State.placePort_keep; decide)
    | (with_reducible apply Keep.step State.portDisconnect_keep; decide)
    | (with_reducible apply Keep.step State.setRootPort_keep; decide)
    | with_reducible refine Keep.foldl ?_ (fun _ _ => ?_)
    | with_reducible refine Keep.foldlFst ?_ (fun _ _ => ?_)
    | with_reducible refine Keep.foldlSnd ?_ (fun _ _ => ?_)
    | with_reducible apply Keep.ite
    | with_reducible apply Keep.iteFst
    | with_reducible apply Keep.iteSnd
    | split
    | dsimp only

theorem State.gen1Rise_keep {s : State} {x : Seat} :
    Keep 72057594037829631 s (State.gen1Rise s x) := by
  unfold State.gen1Rise; try dsimp only
  repeat' first
    | with_reducible exact Keep.rfl'
    | with_reducible assumption
    | (with_reducible apply Keep.step State.placePort_keep; decide)
    | (with_reducible apply Keep.step State.setRootPort_keep; decide)
    | with_reducible refine Keep.foldl ?_ (fun _ _ => ?_)
    | with_reducible refine Keep.foldlFst ?_ (fun _ _ => ?_)
    | with_reducible refine Keep.foldlSnd ?_ (fun _ _ => ?_)
    | with_reducible apply Keep.ite
    | with_reducible apply Keep.iteFst
    | with_reducible apply Keep.iteSnd
    | split
    | dsimp only

theorem State.profileSuper_keep {s : State} {x : Seat} {p : RootPort} :
    Keep 72057594037829631 s (State.profileSuper s x p) := by
  unfold State.profileSuper; try dsimp only
  repeat' first
    | with_reducible exact Keep.rfl'
    | with_reducible assumption
    | (with_reducible apply Keep.step State.placePort_keep; decide)
    | (with_reducible apply Keep.step State.setRootPort_keep; decide)
    | with_reducible apply Keep.ite
    | split
    | dsimp only

theorem State.profilePorts_keep {s : State} {x : Seat} {f : Profile} :
    Keep 72057594037829631 s (State.profilePorts s x f) := by
  unfold State.profilePorts; try dsimp only
  repeat' first
    | with_reducible exact Keep.rfl'
    | with_reducible assumption
    | (with_reducible apply Keep.step State.placePort_keep; decide)
    | (with_reducible apply Keep.step State.profileSuper_keep; decide)
    | (with_reducible apply Keep.step State.setRootPort_keep; decide)
    | with_reducible refine Keep.foldl ?_ (fun _ _ => ?_)
    | with_reducible refine Keep.foldlFst ?_ (fun _ _ => ?_)
    | with_reducible refine Keep.foldlSnd ?_ (fun _ _ => ?_)
    | with_reducible refine Keep.getD ?_ ?_
    | with_reducible apply Keep.ite
    | with_reducible apply Keep.iteFst
    | with_reducible apply Keep.iteSnd
    | split
    | dsimp only

theorem State.takeProfile_keep {s : State} {x : Seat} {b : List Byte} :
    Keep 71952040921563135 s (State.takeProfile s x b) := by
  unfold State.takeProfile; try dsimp only
  repeat' first
    | with_reducible exact Keep.rfl'
    | with_reducible assumption
    | (with_reducible apply Keep.step State.bumpSeat_keep; decide)
    | (with_reducible apply Keep.step State.logLine_keep; decide)
    | (with_reducible apply Keep.step State.profilePorts_keep; decide)
    | (with_reducible apply Keep.step State.setUsbSeat_keep; decide)
    | with_reducible apply Keep.ite
    | split
    | dsimp only

theorem execProfile_keep {x : Seat} {body : List Byte} {s : State} :
    KeepX 71952040921563135 s (execProfile x body s) := by
  unfold execProfile; try dsimp only
  repeat' first
    | with_reducible exact Keep.rfl'
    | with_reducible assumption
    | (with_reducible apply Keep.step State.takeProfile_keep; decide)
    | with_reducible refine KeepX.next ?_
    | split
    | dsimp only

end Sys2Proof.Machine
end

