-- ==== Sys2Proof/Laws/KeepVotes.lean ====
section
/-! SUPPORT. What the operations of Machine/Votes.lean may change: one lemma each. -/

namespace Sys2Proof.Machine

theorem State.moveDomain_keep {s : State} {c : CoreId} {d : Nat} :
    Keep 72022272226877439 s (State.moveDomain s c d) := by
  unfold State.moveDomain; try dsimp only
  repeat' first
    | with_reducible exact Keep.rfl'
    | with_reducible assumption
    | (with_reducible apply Keep.step State.edge_keep; decide)
    | (with_reducible apply Keep.step State.setDomain_keep; decide)
    | (with_reducible apply Keep.step State.startExit_keep; decide)
    | with_reducible apply Keep.ite
    | split
    | dsimp only

theorem State.settleDomain_keep {s : State} {c : CoreId} {d : Nat} :
    Keep 72022272226877439 s (State.settleDomain s c d) := by
  unfold State.settleDomain; try dsimp only
  repeat' first
    | with_reducible exact Keep.rfl'
    | with_reducible assumption
    | (with_reducible apply Keep.step State.moveDomain_keep; decide)
    | (with_reducible apply Keep.step State.setDomain_keep; decide)
    | with_reducible apply Keep.ite
    | split
    | dsimp only

theorem State.settleSeat_keep {s : State} {x : Seat} :
    Keep 72022272226877439 s (State.settleSeat s x) := by
  unfold State.settleSeat; try dsimp only
  repeat' first
    | with_reducible exact Keep.rfl'
    | with_reducible assumption
    | (with_reducible apply Keep.step State.settleDomain_keep; decide)
    | with_reducible refine Keep.foldl ?_ (fun _ _ => ?_)
    | with_reducible refine Keep.foldlFst ?_ (fun _ _ => ?_)
    | with_reducible refine Keep.foldlSnd ?_ (fun _ _ => ?_)
    | split
    | dsimp only

theorem State.settleAll_keep {s : State} :
    Keep 72022272226877439 s (State.settleAll s) := by
  unfold State.settleAll; try dsimp only
  repeat' first
    | with_reducible exact Keep.rfl'
    | with_reducible assumption
    | (with_reducible apply Keep.step State.settleDomain_keep; decide)
    | with_reducible refine Keep.foldl ?_ (fun _ _ => ?_)
    | with_reducible refine Keep.foldlFst ?_ (fun _ _ => ?_)
    | with_reducible refine Keep.foldlSnd ?_ (fun _ _ => ?_)
    | split
    | dsimp only

theorem State.groupEnds_keep {before : State} {s : State} {c : CoreId} {g : Nat} :
    Keep 72022272226877439 s (State.groupEnds before s c g) := by
  unfold State.groupEnds; try dsimp only
  repeat' first
    | with_reducible exact Keep.rfl'
    | with_reducible assumption
    | (with_reducible apply Keep.step State.setDomain_keep; decide)
    | (with_reducible apply Keep.step State.settleDomain_keep; decide)
    | with_reducible apply Keep.ite
    | split
    | dsimp only

theorem State.settleGroups_keep {s : State} {c : CoreId} :
    Keep 72022272226877439 s (State.settleGroups s c) := by
  unfold State.settleGroups; try dsimp only
  repeat' first
    | with_reducible exact Keep.rfl'
    | with_reducible assumption
    | (with_reducible apply Keep.step State.settleDomain_keep; decide)
    | with_reducible refine Keep.foldl ?_ (fun _ _ => ?_)
    | with_reducible refine Keep.foldlFst ?_ (fun _ _ => ?_)
    | with_reducible refine Keep.foldlSnd ?_ (fun _ _ => ?_)
    | split
    | dsimp only

end Sys2Proof.Machine
end

