-- ==== Sys2Proof/Laws/KeepDisplay.lean ====
section
/-! SUPPORT. What the operations of Machine/Display.lean may change: one lemma each. -/

namespace Sys2Proof.Machine

theorem State.headChange_keep {s : State} {o : HeadNo} {m : BitVec 4} :
    Keep 72022272193322879 s (State.headChange s o m) := by
  unfold State.headChange; try dsimp only
  repeat' first
    | with_reducible exact Keep.rfl'
    | with_reducible assumption
    | (with_reducible apply Keep.step State.changeRecord_keep; decide)
    | (with_reducible apply Keep.step State.edge_keep; decide)
    | (with_reducible apply Keep.step State.setView_keep; decide)
    | with_reducible apply Keep.ite
    | split
    | dsimp only

theorem State.sendDisp_keep {s : State} {o : HeadNo} {shown : HeadNo} {acct : Nat} {ends : Bool} {b : List Byte} :
    Keep 72022268464586751 s (State.sendDisp s o shown acct ends b) := by
  unfold State.sendDisp; try dsimp only
  repeat' first
    | with_reducible exact Keep.rfl'
    | with_reducible assumption
    | (with_reducible apply Keep.step State.queueFrame_keep; decide)
    | split
    | dsimp only

theorem State.sendConfig_keep {s : State} {o : HeadNo} {t : Timing} {pps : List Byte} {acct : Nat} {waits : Option Nat} :
    Keep 72022268162596863 s (State.sendConfig s o t pps acct waits) := by
  unfold State.sendConfig; try dsimp only
  repeat' first
    | with_reducible exact Keep.rfl'
    | with_reducible assumption
    | (with_reducible apply Keep.step State.sendDisp_keep; decide)
    | (with_reducible apply Keep.step State.setView_keep; decide)
    | with_reducible apply Keep.setDisp
    | exact fun k => absurd k (by decide)
    | with_reducible exact fun _ => rfl
    | with_reducible rfl
    | decide
    | split
    | dsimp only

theorem State.dropConfig_keep {s : State} {o : HeadNo} {status : Nat} :
    Keep 72022272193322623 s (State.dropConfig s o status) := by
  unfold State.dropConfig; try dsimp only
  repeat' first
    | with_reducible exact Keep.rfl'
    | with_reducible assumption
    | (with_reducible apply Keep.step State.finish_keep; decide)
    | (with_reducible apply Keep.step State.setView_keep; decide)
    | split
    | dsimp only

theorem State.configFor_keep {s : State} {o : HeadNo} {waits : Option Nat} :
    Keep 72022268162596863 s (State.configFor s o waits) := by
  unfold State.configFor; try dsimp only
  repeat' first
    | with_reducible exact Keep.rfl'
    | with_reducible assumption
    | (with_reducible apply Keep.step State.sendConfig_keep; decide)
    | split
    | dsimp only

theorem State.regroup_keep {s : State} {h : HeadNo} :
    Keep 72022271690006527 s (State.regroup s h) := by
  unfold State.regroup; try dsimp only
  repeat' first
    | with_reducible exact Keep.rfl'
    | with_reducible assumption
    | (with_reducible apply Keep.step State.landGroup_keep; decide)
    | with_reducible refine Keep.foldl ?_ (fun _ _ => ?_)
    | with_reducible refine Keep.foldlFst ?_ (fun _ _ => ?_)
    | with_reducible refine Keep.foldlSnd ?_ (fun _ _ => ?_)
    | with_reducible apply Keep.ite
    | with_reducible apply Keep.iteFst
    | with_reducible apply Keep.iteSnd
    | split
    | dsimp only

theorem State.reconfigure_keep {before : State} {s : State} {o : HeadNo} {h : HeadNo} {waits : Option Nat} :
    Keep 72022268162596863 s (State.reconfigure before s o h waits) := by
  unfold State.reconfigure; try dsimp only
  repeat' first
    | with_reducible exact Keep.rfl'
    | with_reducible assumption
    | (with_reducible apply Keep.step State.configFor_keep; decide)
    | (with_reducible apply Keep.step State.setView_keep; decide)
    | split
    | dsimp only

theorem State.sendOwed_keep {s : State} {o : HeadNo} {now : Bool} :
    Keep 72022268162596863 s (State.sendOwed s o now) := by
  unfold State.sendOwed; try dsimp only
  repeat' first
    | with_reducible exact Keep.rfl'
    | with_reducible assumption
    | (with_reducible apply Keep.step State.configFor_keep; decide)
    | (with_reducible apply Keep.step State.setView_keep; decide)
    | with_reducible apply Keep.ite
    | split
    | dsimp only

theorem State.needRefresh_keep {s : State} {h : HeadNo} :
    Keep 72022272176545663 s (State.needRefresh s h) := by
  unfold State.needRefresh; try dsimp only
  repeat' first
    | with_reducible exact Keep.rfl'
    | with_reducible assumption
    | (with_reducible apply Keep.step State.headChange_keep; decide)
    | (with_reducible apply Keep.step State.setHead_keep; decide)
    | with_reducible apply Keep.ite
    | split
    | dsimp only

theorem State.readTile_keep {s : State} {c : CoreId} {ch : Fin 16} {h : HeadNo} {e : EntrySt} {t : Nat} {pos : Nat} :
    Keep 70931676951216111 s (State.readTile s c ch h e t pos) := by
  unfold State.readTile; try dsimp only
  repeat' first
    | with_reducible exact Keep.rfl'
    | with_reducible assumption
    | (with_reducible apply Keep.step State.issueRead_keep; decide)
    | with_reducible refine Keep.foldl ?_ (fun _ _ => ?_)
    | with_reducible refine Keep.foldlFst ?_ (fun _ _ => ?_)
    | with_reducible refine Keep.foldlSnd ?_ (fun _ _ => ?_)
    | with_reducible refine Keep.getD ?_ ?_
    | split
    | dsimp only

theorem State.wakeGroup_keep {s : State} {c : CoreId} :
    Keep 72022272226877439 s (State.wakeGroup s c) := by
  unfold State.wakeGroup; try dsimp only
  repeat' first
    | with_reducible exact Keep.rfl'
    | with_reducible assumption
    | (with_reducible apply Keep.step State.wake_keep; decide)
    | split
    | dsimp only

theorem State.feedHead_keep {s : State} {c : CoreId} {h : HeadNo} :
    Keep 72022272159768575 s (State.feedHead s c h) := by
  unfold State.feedHead; try dsimp only
  repeat' first
    | with_reducible exact Keep.rfl'
    | with_reducible assumption
    | (with_reducible apply Keep.step State.setPipe_keep; decide)
    | (with_reducible apply Keep.step State.wakeGroup_keep; decide)
    | with_reducible refine Keep.foldl ?_ (fun _ _ => ?_)
    | with_reducible refine Keep.foldlFst ?_ (fun _ _ => ?_)
    | with_reducible refine Keep.foldlSnd ?_ (fun _ _ => ?_)
    | with_reducible apply Keep.ite
    | with_reducible apply Keep.iteFst
    | with_reducible apply Keep.iteSnd
    | split
    | dsimp only

theorem State.feedPipes_keep {s : State} {c : CoreId} :
    Keep 72022272159768575 s (State.feedPipes s c) := by
  unfold State.feedPipes; try dsimp only
  repeat' first
    | with_reducible exact Keep.rfl'
    | with_reducible assumption
    | (with_reducible apply Keep.step State.feedHead_keep; decide)
    | with_reducible refine Keep.foldl ?_ (fun _ _ => ?_)
    | with_reducible refine Keep.foldlFst ?_ (fun _ _ => ?_)
    | with_reducible refine Keep.foldlSnd ?_ (fun _ _ => ?_)
    | with_reducible apply Keep.ite
    | with_reducible apply Keep.iteFst
    | with_reducible apply Keep.iteSnd
    | split
    | dsimp only

theorem State.freed_keep {before : State} {s : State} {c : CoreId} :
    Keep 72022272159768575 s (State.freed before s c) := by
  unfold State.freed; try dsimp only
  repeat' first
    | with_reducible exact Keep.rfl'
    | with_reducible assumption
    | (with_reducible apply Keep.step State.feedPipes_keep; decide)
    | (with_reducible apply Keep.step State.groupEnds_keep; decide)
    | with_reducible refine Keep.foldl ?_ (fun _ _ => ?_)
    | with_reducible refine Keep.foldlFst ?_ (fun _ _ => ?_)
    | with_reducible refine Keep.foldlSnd ?_ (fun _ _ => ?_)
    | split
    | dsimp only

theorem State.gatherData_keep {s : State} {f : FnId} {ch : Fin 16} {n : Nat} :
    Keep 72022272226877439 s (State.gatherData s f ch n) := by
  unfold State.gatherData; try dsimp only
  repeat' first
    | with_reducible exact Keep.rfl'
    | with_reducible assumption
    | (with_reducible apply Keep.step State.transit_keep; decide)
    | split
    | dsimp only

theorem State.abortGather_keep {s : State} {h : HeadNo} {status : Nat} :
    Keep 70896372236148335 s (State.abortGather s h status) := by
  unfold State.abortGather; try dsimp only
  repeat' first
    | with_reducible exact Keep.rfl'
    | with_reducible assumption
    | (with_reducible apply Keep.step State.dropReads_keep; decide)
    | (with_reducible apply Keep.step State.edge_keep; decide)
    | (with_reducible apply Keep.step State.finish_keep; decide)
    | (with_reducible apply Keep.step State.freed_keep; decide)
    | (with_reducible apply Keep.step State.setGather_keep; decide)
    | (with_reducible apply Keep.step State.setHead_keep; decide)
    | (with_reducible apply Keep.step State.setPipe_keep; decide)
    | with_reducible refine Keep.foldl ?_ (fun _ _ => ?_)
    | with_reducible refine Keep.foldlFst ?_ (fun _ _ => ?_)
    | with_reducible refine Keep.foldlSnd ?_ (fun _ _ => ?_)
    | with_reducible apply Keep.ite
    | with_reducible apply Keep.iteFst
    | with_reducible apply Keep.iteSnd
    | split
    | dsimp only

theorem State.beginTiles_keep {s : State} {c : CoreId} {ch : Fin 16} {h : HeadNo} {e : EntrySt} {tiles : List Nat} {bad : Bool} :
    Keep 70896355056279151 s (State.beginTiles s c ch h e tiles bad) := by
  unfold State.beginTiles; try dsimp only
  repeat' first
    | with_reducible exact Keep.rfl'
    | with_reducible assumption
    | (with_reducible apply Keep.step State.abortGather_keep; decide)
    | (with_reducible apply Keep.step State.failCount_keep; decide)
    | (with_reducible apply Keep.step State.readTile_keep; decide)
    | (with_reducible apply Keep.step State.setGather_keep; decide)
    | (with_reducible apply Keep.step State.setHead_keep; decide)
    | with_reducible refine Keep.foldl ?_ (fun _ _ => ?_)
    | with_reducible refine Keep.foldlFst ?_ (fun _ _ => ?_)
    | with_reducible refine Keep.foldlSnd ?_ (fun _ _ => ?_)
    | with_reducible apply Keep.ite
    | with_reducible apply Keep.iteFst
    | with_reducible apply Keep.iteSnd
    | split
    | dsimp only

theorem State.lineArrived_keep {s : State} {c : CoreId} {ch : Fin 16} {pos : Nat} {x : Nat} {y : Nat} {n : Nat} {b : List Byte} :
    Keep 72022272008773631 s (State.lineArrived s c ch pos x y n b) := by
  unfold State.lineArrived; try dsimp only
  repeat' first
    | with_reducible exact Keep.rfl'
    | with_reducible assumption
    | (with_reducible apply Keep.step State.count_keep; decide)
    | (with_reducible apply Keep.step State.feedPipes_keep; decide)
    | (with_reducible apply Keep.step State.gatherData_keep; decide)
    | (with_reducible apply Keep.step State.setGather_keep; decide)
    | (with_reducible apply Keep.step State.setHead_keep; decide)
    | (with_reducible apply Keep.step State.transit_keep; decide)
    | with_reducible apply Keep.setDisp
    | exact fun k => absurd k (by decide)
    | with_reducible exact fun _ => rfl
    | with_reducible rfl
    | decide
    | with_reducible refine Keep.getD ?_ ?_
    | with_reducible apply Keep.ite
    | split
    | dsimp only

theorem State.dropWaiting_keep {s : State} {h : HeadNo} {status : Nat} :
    Keep 72022272210099839 s (State.dropWaiting s h status) := by
  unfold State.dropWaiting; try dsimp only
  repeat' first
    | with_reducible exact Keep.rfl'
    | with_reducible assumption
    | (with_reducible apply Keep.step State.finish_keep; decide)
    | (with_reducible apply Keep.step State.setHead_keep; decide)
    | with_reducible refine Keep.foldl ?_ (fun _ _ => ?_)
    | with_reducible refine Keep.foldlFst ?_ (fun _ _ => ?_)
    | with_reducible refine Keep.foldlSnd ?_ (fun _ _ => ?_)
    | split
    | dsimp only

theorem State.dropCurrent_keep {s : State} {h : HeadNo} {status : Nat} :
    Keep 72022272142990975 s (State.dropCurrent s h status) := by
  unfold State.dropCurrent; try dsimp only
  repeat' first
    | with_reducible exact Keep.rfl'
    | with_reducible assumption
    | (with_reducible apply Keep.step State.finish_keep; decide)
    | (with_reducible apply Keep.step State.freed_keep; decide)
    | (with_reducible apply Keep.step State.setHead_keep; decide)
    | (with_reducible apply Keep.step State.setPipe_keep; decide)
    | with_reducible refine Keep.foldl ?_ (fun _ _ => ?_)
    | with_reducible refine Keep.foldlFst ?_ (fun _ _ => ?_)
    | with_reducible refine Keep.foldlSnd ?_ (fun _ _ => ?_)
    | with_reducible apply Keep.ite
    | with_reducible apply Keep.iteFst
    | with_reducible apply Keep.iteSnd
    | split
    | dsimp only

theorem State.fullResend_keep {s : State} {o : HeadNo} :
    Keep 72022272193323007 s (State.fullResend s o) := by
  unfold State.fullResend; try dsimp only
  repeat' first
    | with_reducible exact Keep.rfl'
    | with_reducible assumption
    | (with_reducible apply Keep.step State.count_keep; decide)
    | (with_reducible apply Keep.step State.setView_keep; decide)
    | split
    | dsimp only

theorem State.returnOwn_keep {s : State} {o : HeadNo} {flag : Bool} :
    Keep 72022268162596735 s (State.returnOwn s o flag) := by
  unfold State.returnOwn; try dsimp only
  repeat' first
    | with_reducible exact Keep.rfl'
    | with_reducible assumption
    | (with_reducible apply Keep.step State.fullResend_keep; decide)
    | (with_reducible apply Keep.step State.headChange_keep; decide)
    | (with_reducible apply Keep.step State.reconfigure_keep; decide)
    | (with_reducible apply Keep.step State.regroup_keep; decide)
    | (with_reducible apply Keep.step State.setView_keep; decide)
    | (with_reducible apply Keep.step State.tagHeads_keep; decide)
    | with_reducible refine Keep.step (State.tagHeads_keepE (by assumption)) (by decide) ?_
    | with_reducible apply Keep.ite
    | split
    | dsimp only

theorem State.returnViewers_keep {s : State} {h : HeadNo} :
    Keep 72022268162596735 s (State.returnViewers s h) := by
  unfold State.returnViewers; try dsimp only
  repeat' first
    | with_reducible exact Keep.rfl'
    | with_reducible assumption
    | (with_reducible apply Keep.step State.returnOwn_keep; decide)
    | with_reducible refine Keep.foldl ?_ (fun _ _ => ?_)
    | with_reducible refine Keep.foldlFst ?_ (fun _ _ => ?_)
    | with_reducible refine Keep.foldlSnd ?_ (fun _ _ => ?_)
    | split
    | dsimp only

theorem State.detachHead_keep {s : State} {h : HeadNo} {status : Nat} :
    Keep 70896368037650031 s (State.detachHead s h status) := by
  unfold State.detachHead; try dsimp only
  repeat' first
    | with_reducible exact Keep.rfl'
    | with_reducible assumption
    | (with_reducible apply Keep.step State.abortGather_keep; decide)
    | (with_reducible apply Keep.step State.dropCurrent_keep; decide)
    | (with_reducible apply Keep.step State.dropWaiting_keep; decide)
    | (with_reducible apply Keep.step State.regroup_keep; decide)
    | (with_reducible apply Keep.step State.returnViewers_keep; decide)
    | (with_reducible apply Keep.step State.setHead_keep; decide)
    | (with_reducible apply Keep.step State.setView_keep; decide)
    | (with_reducible apply Keep.step State.settleGroups_keep; decide)
    | with_reducible apply Keep.setDisp
    | exact fun k => absurd k (by decide)
    | with_reducible exact fun _ => rfl
    | with_reducible rfl
    | decide
    | with_reducible apply Keep.ite
    | split
    | dsimp only

theorem State.headItem_keep {s : State} {c : CoreId} {k : Nat} {h : HeadNo} {i : IsletNo} :
    Keep 72022272222678463 s (State.headItem s c k h i) := by
  unfold State.headItem; try dsimp only
  repeat' first
    | with_reducible exact Keep.rfl'
    | with_reducible assumption
    | (with_reducible apply Keep.step State.readyItem_keep; decide)
    | with_reducible apply Keep.ite
    | split
    | dsimp only

theorem State.withHead_keepH {K : Nat} {s x : State} {c : CoreId} {k op : Nat} {f : State → EntrySt → HeadNo → State}
    (hx : Keep K s x) (e : K &&& 72022272222678207 = K) (hf : ∀ y e o, Keep K s y → Keep K s (f y e o)) :
    Keep K s (State.withHead x c k op f) := by
  unfold State.withHead
  split
  · split
    · exact hf _ _ _ (Keep.step State.headItem_keep (by rw [← e, Nat.and_assoc]; rfl)
        (Keep.step State.begin__keep (by rw [← e, Nat.and_assoc]; rfl) hx))
    · exact hx
  · exact hx

theorem State.attachHead_keep {s : State} {k : Nat} {e : EntrySt} {h : HeadNo} :
    Keep 70896368037650031 s (State.attachHead s k e h) := by
  unfold State.attachHead; try dsimp only
  repeat' first
    | with_reducible exact Keep.rfl'
    | with_reducible assumption
    | (with_reducible apply Keep.step State.abortGather_keep; decide)
    | (with_reducible apply Keep.step State.dropConfig_keep; decide)
    | (with_reducible apply Keep.step State.dropCurrent_keep; decide)
    | (with_reducible apply Keep.step State.dropWaiting_keep; decide)
    | (with_reducible apply Keep.step State.finish_keep; decide)
    | (with_reducible apply Keep.step State.fullResend_keep; decide)
    | (with_reducible apply Keep.step State.hand_keep; decide)
    | (with_reducible apply Keep.step State.reconfigure_keep; decide)
    | (with_reducible apply Keep.step State.regroup_keep; decide)
    | (with_reducible apply Keep.step State.returnViewers_keep; decide)
    | (with_reducible apply Keep.step State.setHead_keep; decide)
    | (with_reducible apply Keep.step State.setView_keep; decide)
    | (with_reducible apply Keep.step State.settleGroups_keep; decide)
    | (with_reducible apply Keep.step State.tagHeads_keep; decide)
    | with_reducible refine Keep.step (State.tagHeads_keepE (by assumption)) (by decide) ?_
    | with_reducible apply Keep.setDisp
    | exact fun k => absurd k (by decide)
    | with_reducible exact fun _ => rfl
    | with_reducible rfl
    | decide
    | with_reducible apply Keep.ite
    | split
    | dsimp only

theorem execAttach_keep {c : CoreId} {h : Nat} {s : State} :
    KeepX 70896368037645359 s (execAttach c h s) := by
  unfold execAttach; try dsimp only
  repeat' first
    | with_reducible exact Keep.rfl'
    | with_reducible assumption
    | (with_reducible apply Keep.step State.attachHead_keep; decide)
    | with_reducible apply State.withHead_keepH
    | with_reducible refine KeepX.next ?_
    | decide
    | intro _
    | split
    | dsimp only

theorem execDetach_keep {c : CoreId} {h : Nat} {s : State} :
    KeepX 70896368037645359 s (execDetach c h s) := by
  unfold execDetach; try dsimp only
  repeat' first
    | with_reducible exact Keep.rfl'
    | with_reducible assumption
    | (with_reducible apply Keep.step State.detachHead_keep; decide)
    | (with_reducible apply Keep.step State.dropConfig_keep; decide)
    | (with_reducible apply Keep.step State.finish_keep; decide)
    | with_reducible apply State.withHead_keepH
    | with_reducible refine KeepX.next ?_
    | decide
    | intro _
    | with_reducible apply Keep.ite
    | split
    | dsimp only

theorem State.abortFrames_keep {s : State} {k : Nat} {o : HeadNo} :
    Keep 70896372236148335 s (State.abortFrames s k o) := by
  unfold State.abortFrames; try dsimp only
  repeat' first
    | with_reducible exact Keep.rfl'
    | with_reducible assumption
    | (with_reducible apply Keep.step State.abortGather_keep; decide)
    | (with_reducible apply Keep.step State.dropWaiting_keep; decide)
    | (with_reducible apply Keep.step State.finish_keep; decide)
    | split
    | dsimp only

theorem execAbortFrame_keep {c : CoreId} {h : Nat} {s : State} :
    KeepX 70896372231949359 s (execAbortFrame c h s) := by
  unfold execAbortFrame; try dsimp only
  repeat' first
    | with_reducible exact Keep.rfl'
    | with_reducible assumption
    | (with_reducible apply Keep.step State.abortFrames_keep; decide)
    | (with_reducible apply Keep.step State.finish_keep; decide)
    | with_reducible apply State.withHead_keepH
    | with_reducible refine KeepX.next ?_
    | decide
    | intro _
    | with_reducible apply Keep.ite
    | split
    | dsimp only

theorem State.readEdid_keep {s : State} {k : Nat} {e : EntrySt} {o : HeadNo} :
    Keep 70896355140165247 s (State.readEdid s k e o) := by
  unfold State.readEdid; try dsimp only
  repeat' first
    | with_reducible exact Keep.rfl'
    | with_reducible assumption
    | (with_reducible apply Keep.step State.finish_keep; decide)
    | (with_reducible apply Keep.step State.writeEntry_keep; decide)
    | with_reducible refine Keep.step (State.writeEntry_keepE (by assumption)) (by decide) ?_
    | with_reducible apply Keep.ite
    | split
    | dsimp only

theorem execReadEdid_keep {c : CoreId} {h : Nat} {s : State} :
    KeepX 70896355135966271 s (execReadEdid c h s) := by
  unfold execReadEdid; try dsimp only
  repeat' first
    | with_reducible exact Keep.rfl'
    | with_reducible assumption
    | (with_reducible apply Keep.step State.readEdid_keep; decide)
    | with_reducible apply State.withHead_keepH
    | with_reducible refine KeepX.next ?_
    | decide
    | intro _
    | split
    | dsimp only

theorem State.selectSource_keep {s : State} {k : Nat} {e : EntrySt} {o : HeadNo} :
    Keep 72022268162596479 s (State.selectSource s k e o) := by
  unfold State.selectSource; try dsimp only
  repeat' first
    | with_reducible exact Keep.rfl'
    | with_reducible assumption
    | (with_reducible apply Keep.step State.finish_keep; decide)
    | (with_reducible apply Keep.step State.fullResend_keep; decide)
    | (with_reducible apply Keep.step State.reconfigure_keep; decide)
    | (with_reducible apply Keep.step State.regroup_keep; decide)
    | (with_reducible apply Keep.step State.returnOwn_keep; decide)
    | (with_reducible apply Keep.step State.setView_keep; decide)
    | (with_reducible apply Keep.step State.tagHeads_keep; decide)
    | with_reducible refine Keep.step (State.tagHeads_keepE (by assumption)) (by decide) ?_
    | with_reducible apply Keep.ite
    | split
    | dsimp only

theorem execSelectSource_keep {c : CoreId} {h : Nat} {s : State} :
    KeepX 72022268162591807 s (execSelectSource c h s) := by
  unfold execSelectSource; try dsimp only
  repeat' first
    | with_reducible exact Keep.rfl'
    | with_reducible assumption
    | (with_reducible apply Keep.step State.selectSource_keep; decide)
    | with_reducible apply State.withHead_keepH
    | with_reducible refine KeepX.next ?_
    | decide
    | intro _
    | split
    | dsimp only

theorem State.frameTaken_keep {s : State} {k : Nat} {e : EntrySt} :
    Keep 72022272210099839 s (State.frameTaken s k e) := by
  unfold State.frameTaken; try dsimp only
  repeat' first
    | with_reducible exact Keep.rfl'
    | with_reducible assumption
    | (with_reducible apply Keep.step State.finish_keep; decide)
    | (with_reducible apply Keep.step State.setHead_keep; decide)
    | with_reducible apply Keep.ite
    | split
    | dsimp only

theorem execDisplayFrame_keep {c : CoreId} {h : Nat} {s : State} :
    KeepX 72022272222678207 s (execDisplayFrame c h s) := by
  unfold execDisplayFrame; try dsimp only
  repeat' first
    | with_reducible exact Keep.rfl'
    | with_reducible assumption
    | (with_reducible apply Keep.step State.begin__keep; decide)
    | (with_reducible apply Keep.step State.headItem_keep; decide)
    | with_reducible refine KeepX.next ?_
    | split
    | dsimp only

theorem State.commitsDue_keep {s : State} {h : HeadNo} :
    Keep 72057594004373503 s (State.commitsDue s h) := by
  unfold State.commitsDue; try dsimp only
  repeat' first
    | with_reducible exact Keep.rfl'
    | with_reducible assumption
    | (with_reducible apply Keep.step State.setView_keep; decide)
    | with_reducible refine Keep.foldl ?_ (fun _ _ => ?_)
    | with_reducible refine Keep.foldlFst ?_ (fun _ _ => ?_)
    | with_reducible refine Keep.foldlSnd ?_ (fun _ _ => ?_)
    | split
    | dsimp only

theorem State.encodeDone_keep {s : State} {h : HeadNo} :
    Keep 72057593987596287 s (State.encodeDone s h) := by
  unfold State.encodeDone; try dsimp only
  repeat' first
    | with_reducible exact Keep.rfl'
    | with_reducible assumption
    | (with_reducible apply Keep.step State.commitsDue_keep; decide)
    | (with_reducible apply Keep.step State.setHead_keep; decide)
    | with_reducible apply Keep.ite
    | split
    | dsimp only

theorem State.startFrame_keep {s : State} {c : CoreId} {h : HeadNo} :
    Keep 70896355022724719 s (State.startFrame s c h) := by
  unfold State.startFrame; try dsimp only
  repeat' first
    | with_reducible exact Keep.rfl'
    | with_reducible assumption
    | (with_reducible apply Keep.step State.abortGather_keep; decide)
    | (with_reducible apply Keep.step State.beginTiles_keep; decide)
    | (with_reducible apply Keep.step State.encodeDone_keep; decide)
    | (with_reducible apply Keep.step State.failCount_keep; decide)
    | (with_reducible apply Keep.step State.finish_keep; decide)
    | (with_reducible apply Keep.step State.hand_keep; decide)
    | (with_reducible apply Keep.step State.issueRead_keep; decide)
    | (with_reducible apply Keep.step State.setGather_keep; decide)
    | (with_reducible apply Keep.step State.setHead_keep; decide)
    | (with_reducible apply Keep.step State.wakeGroup_keep; decide)
    | with_reducible apply Keep.ite
    | split
    | dsimp only

theorem execGatherStart_keep {c : CoreId} {hd : HeadNo} {s : State} :
    KeepX 70896355022724719 s (execGatherStart c hd s) := by
  unfold execGatherStart; try dsimp only
  repeat' first
    | with_reducible exact Keep.rfl'
    | with_reducible assumption
    | (with_reducible apply Keep.step State.startFrame_keep; decide)
    | with_reducible refine KeepX.next ?_
    | with_reducible apply Keep.ite
    | split
    | dsimp only

theorem State.indexArrived_keep {s : State} {c : CoreId} {ch : Fin 16} {b : List Byte} :
    Keep 70896355056279151 s (State.indexArrived s c ch b) := by
  unfold State.indexArrived; try dsimp only
  repeat' first
    | with_reducible exact Keep.rfl'
    | with_reducible assumption
    | (with_reducible apply Keep.step State.beginTiles_keep; decide)
    | (with_reducible apply Keep.step State.gatherData_keep; decide)
    | split
    | dsimp only

theorem State.gatherEnd_keep {s : State} {c : CoreId} {ch : Fin 16} :
    Keep 70896372202593903 s (State.gatherEnd s c ch) := by
  unfold State.gatherEnd; try dsimp only
  repeat' first
    | with_reducible exact Keep.rfl'
    | with_reducible assumption
    | (with_reducible apply Keep.step State.abortGather_keep; decide)
    | (with_reducible apply Keep.step State.edge_keep; decide)
    | (with_reducible apply Keep.step State.encodeDone_keep; decide)
    | (with_reducible apply Keep.step State.freed_keep; decide)
    | (with_reducible apply Keep.step State.setGather_keep; decide)
    | (with_reducible apply Keep.step State.setHead_keep; decide)
    | with_reducible apply Keep.ite
    | split
    | dsimp only

theorem execGatherDone_keep {c : CoreId} {ch : Fin 16} {s : State} :
    KeepX 70896372202593903 s (execGatherDone c ch s) := by
  unfold execGatherDone; try dsimp only
  repeat' first
    | with_reducible exact Keep.rfl'
    | with_reducible assumption
    | (with_reducible apply Keep.step State.gatherEnd_keep; decide)
    | with_reducible refine KeepX.next ?_
    | split
    | dsimp only

theorem State.countHanded_keep {s : State} {o : HeadNo} {h : HeadNo} :
    Keep 72022272226877439 s (State.countHanded s o h) := by
  unfold State.countHanded; try dsimp only
  repeat' first
    | with_reducible exact Keep.rfl'
    | with_reducible assumption
    | (with_reducible apply Keep.step State.count_keep; decide)
    | split
    | dsimp only

theorem State.handSlice_keep {s : State} {o : HeadNo} {p : Nat} :
    Keep 72022268447809535 s (State.handSlice s o p) := by
  unfold State.handSlice; try dsimp only
  repeat' first
    | with_reducible exact Keep.rfl'
    | with_reducible assumption
    | (with_reducible apply Keep.step State.countHanded_keep; decide)
    | (with_reducible apply Keep.step State.queueFrame_keep; decide)
    | (with_reducible apply Keep.step State.setHead_keep; decide)
    | with_reducible refine Keep.foldl ?_ (fun _ _ => ?_)
    | with_reducible refine Keep.foldlFst ?_ (fun _ _ => ?_)
    | with_reducible refine Keep.foldlSnd ?_ (fun _ _ => ?_)
    | with_reducible apply Keep.ite
    | with_reducible apply Keep.iteFst
    | with_reducible apply Keep.iteSnd
    | split
    | dsimp only

theorem State.pend_keep {s : State} {o : HeadNo} {p : Nat} :
    Keep 72022272193323007 s (State.pend s o p) := by
  unfold State.pend; try dsimp only
  repeat' first
    | with_reducible exact Keep.rfl'
    | with_reducible assumption
    | (with_reducible apply Keep.step State.count_keep; decide)
    | (with_reducible apply Keep.step State.setView_keep; decide)
    | with_reducible apply Keep.ite
    | split
    | dsimp only

theorem State.castSlice_keep {s : State} {c : CoreId} {h : HeadNo} {l : Fin 2} {ready : List HeadNo} {hs : List Hand} :
    Keep 72022268464586751 s (State.castSlice s c h l ready hs) := by
  unfold State.castSlice; try dsimp only
  repeat' first
    | with_reducible exact Keep.rfl'
    | with_reducible assumption
    | (with_reducible apply Keep.step State.handIn_keep; decide)
    | with_reducible refine Keep.foldl ?_ (fun _ _ => ?_)
    | with_reducible refine Keep.foldlFst ?_ (fun _ _ => ?_)
    | with_reducible refine Keep.foldlSnd ?_ (fun _ _ => ?_)
    | split
    | dsimp only

theorem State.offerCast_keep {s : State} {c : CoreId} {h : HeadNo} {p : Nat} {l : Fin 2} :
    Keep 72022268431032319 s (State.offerCast s c h p l) := by
  unfold State.offerCast; try dsimp only
  repeat' first
    | with_reducible exact Keep.rfl'
    | with_reducible assumption
    | (with_reducible apply Keep.step State.castSlice_keep; decide)
    | (with_reducible apply Keep.step State.countHanded_keep; decide)
    | (with_reducible apply Keep.step State.pend_keep; decide)
    | with_reducible refine Keep.foldl ?_ (fun _ _ => ?_)
    | with_reducible refine Keep.foldlFst ?_ (fun _ _ => ?_)
    | with_reducible refine Keep.foldlSnd ?_ (fun _ _ => ?_)
    | with_reducible apply Keep.ite
    | with_reducible apply Keep.iteFst
    | with_reducible apply Keep.iteSnd
    | split
    | dsimp only

theorem State.offer_keep {s : State} {c : CoreId} {h : HeadNo} {p : Nat} :
    Keep 72022268414255103 s (State.offer s c h p) := by
  unfold State.offer; try dsimp only
  repeat' first
    | with_reducible exact Keep.rfl'
    | with_reducible assumption
    | (with_reducible apply Keep.step State.handSlice_keep; decide)
    | (with_reducible apply Keep.step State.offerCast_keep; decide)
    | (with_reducible apply Keep.step State.pend_keep; decide)
    | with_reducible refine Keep.foldl ?_ (fun _ _ => ?_)
    | with_reducible refine Keep.foldlFst ?_ (fun _ _ => ?_)
    | with_reducible refine Keep.foldlSnd ?_ (fun _ _ => ?_)
    | with_reducible apply Keep.ite
    | with_reducible apply Keep.iteFst
    | with_reducible apply Keep.iteSnd
    | split
    | dsimp only

theorem State.copyArrives_keep {s : State} {c : CoreId} {g : Fin 256} {acct : Nat} {l : Nat} {ends : Bool} {data : List Byte} :
    Keep 72022268296814591 s (State.copyArrives s c g acct l ends data) := by
  unfold State.copyArrives; try dsimp only
  repeat' first
    | with_reducible exact Keep.rfl'
    | with_reducible assumption
    | (with_reducible apply Keep.step State.castSlice_keep; decide)
    | (with_reducible apply Keep.step State.pend_keep; decide)
    | with_reducible apply Keep.setDisp
    | exact fun k => absurd k (by decide)
    | with_reducible exact fun _ => rfl
    | with_reducible rfl
    | decide
    | with_reducible refine Keep.foldl ?_ (fun _ _ => ?_)
    | with_reducible refine Keep.foldlFst ?_ (fun _ _ => ?_)
    | with_reducible refine Keep.foldlSnd ?_ (fun _ _ => ?_)
    | with_reducible apply Keep.ite
    | with_reducible apply Keep.iteFst
    | with_reducible apply Keep.iteSnd
    | split
    | dsimp only

theorem State.sliceDone_keep {s : State} {c : CoreId} {k : Fin 16} :
    Keep 72022268347146239 s (State.sliceDone s c k) := by
  unfold State.sliceDone; try dsimp only
  repeat' first
    | with_reducible exact Keep.rfl'
    | with_reducible assumption
    | (with_reducible apply Keep.step State.count_keep; decide)
    | (with_reducible apply Keep.step State.edge_keep; decide)
    | (with_reducible apply Keep.step State.encodeDone_keep; decide)
    | (with_reducible apply Keep.step State.freed_keep; decide)
    | (with_reducible apply Keep.step State.offer_keep; decide)
    | (with_reducible apply Keep.step State.setHead_keep; decide)
    | (with_reducible apply Keep.step State.setPipe_keep; decide)
    | with_reducible apply Keep.ite
    | split
    | dsimp only

theorem execSliceEncoded_keep {c : CoreId} {pipe : Fin 16} {s : State} :
    KeepX 72022268347146239 s (execSliceEncoded c pipe s) := by
  unfold execSliceEncoded; try dsimp only
  repeat' first
    | with_reducible exact Keep.rfl'
    | with_reducible assumption
    | (with_reducible apply Keep.step State.sliceDone_keep; decide)
    | with_reducible refine KeepX.next ?_
    | split
    | dsimp only

theorem State.handPending_keep {s : State} {h : HeadNo} {o : HeadNo} :
    Keep 72022268414255103 s (State.handPending s h o) := by
  unfold State.handPending; try dsimp only
  repeat' first
    | with_reducible exact Keep.rfl'
    | with_reducible assumption
    | (with_reducible apply Keep.step State.handSlice_keep; decide)
    | (with_reducible apply Keep.step State.setView_keep; decide)
    | with_reducible apply Keep.ite
    | split
    | dsimp only

theorem execSliceHandoff_keep {hd : HeadNo} {viewer : HeadNo} {s : State} :
    KeepX 72022268414255103 s (execSliceHandoff hd viewer s) := by
  unfold execSliceHandoff; try dsimp only
  repeat' first
    | with_reducible exact Keep.rfl'
    | with_reducible assumption
    | (with_reducible apply Keep.step State.handPending_keep; decide)
    | with_reducible refine KeepX.next ?_
    | split
    | dsimp only

theorem State.handCommit_keep {s : State} {h : HeadNo} {o : HeadNo} :
    Keep 72022268431032319 s (State.handCommit s h o) := by
  unfold State.handCommit; try dsimp only
  repeat' first
    | with_reducible exact Keep.rfl'
    | with_reducible assumption
    | (with_reducible apply Keep.step State.sendDisp_keep; decide)
    | (with_reducible apply Keep.step State.setView_keep; decide)
    | with_reducible apply Keep.ite
    | split
    | dsimp only

theorem execCommitHandoff_keep {hd : HeadNo} {viewer : HeadNo} {s : State} :
    KeepX 72022268431032319 s (execCommitHandoff hd viewer s) := by
  unfold execCommitHandoff; try dsimp only
  repeat' first
    | with_reducible exact Keep.rfl'
    | with_reducible assumption
    | (with_reducible apply Keep.step State.handCommit_keep; decide)
    | with_reducible refine KeepX.next ?_
    | split
    | dsimp only

theorem execBehindTimeout_keep {hd : HeadNo} {ut : Nat} {s : State} :
    KeepX 31489875546986494 s (execBehindTimeout hd ut s) := by
  unfold execBehindTimeout; try dsimp only
  repeat' first
    | with_reducible exact Keep.rfl'
    | with_reducible assumption
    | (with_reducible apply Keep.step State.arrive_keep; decide)
    | (with_reducible apply Keep.step State.setView_keep; decide)
    | with_reducible refine KeepX.next ?_
    | with_reducible apply Keep.ite
    | split
    | dsimp only

theorem State.recordFrame_keep {s : State} {h : HeadNo} :
    Keep 72022272210099839 s (State.recordFrame s h) := by
  unfold State.recordFrame; try dsimp only
  repeat' first
    | with_reducible exact Keep.rfl'
    | with_reducible assumption
    | (with_reducible apply Keep.step State.finish_keep; decide)
    | (with_reducible apply Keep.step State.setHead_keep; decide)
    | with_reducible apply Keep.ite
    | split
    | dsimp only

theorem execFrameRecord_keep {c : CoreId} {hd : HeadNo} {s : State} :
    KeepX 72022272210099839 s (execFrameRecord c hd s) := by
  unfold execFrameRecord; try dsimp only
  repeat' first
    | with_reducible exact Keep.rfl'
    | with_reducible assumption
    | (with_reducible apply Keep.step State.recordFrame_keep; decide)
    | with_reducible refine KeepX.next ?_
    | with_reducible apply Keep.ite
    | split
    | dsimp only

theorem State.mirrorWhole_keep {s : State} {h : HeadNo} :
    Keep 72022272042328063 s (State.mirrorWhole s h) := by
  unfold State.mirrorWhole; try dsimp only
  repeat' first
    | with_reducible exact Keep.rfl'
    | with_reducible assumption
    | (with_reducible apply Keep.step State.fullResend_keep; decide)
    | (with_reducible apply Keep.step State.setHead_keep; decide)
    | (with_reducible apply Keep.step State.transit_keep; decide)
    | with_reducible apply Keep.setDisp
    | exact fun k => absurd k (by decide)
    | with_reducible exact fun _ => rfl
    | with_reducible rfl
    | decide
    | with_reducible refine Keep.foldl ?_ (fun _ _ => ?_)
    | with_reducible refine Keep.foldlFst ?_ (fun _ _ => ?_)
    | with_reducible refine Keep.foldlSnd ?_ (fun _ _ => ?_)
    | with_reducible apply Keep.ite
    | with_reducible apply Keep.iteFst
    | with_reducible apply Keep.iteSnd
    | split
    | dsimp only

theorem execMirrorCopyDone_keep {c : CoreId} {hd : HeadNo} {s : State} :
    KeepX 72022272042328063 s (execMirrorCopyDone c hd s) := by
  unfold execMirrorCopyDone; try dsimp only
  repeat' first
    | with_reducible exact Keep.rfl'
    | with_reducible assumption
    | (with_reducible apply Keep.step State.mirrorWhole_keep; decide)
    | with_reducible refine KeepX.next ?_
    | with_reducible apply Keep.ite
    | split
    | dsimp only

theorem execMirrorLagTimeout_keep {hd : HeadNo} {ut : Nat} {s : State} :
    KeepX 31489875563763710 s (execMirrorLagTimeout hd ut s) := by
  unfold execMirrorLagTimeout; try dsimp only
  repeat' first
    | with_reducible exact Keep.rfl'
    | with_reducible assumption
    | (with_reducible apply Keep.step State.arrive_keep; decide)
    | (with_reducible apply Keep.step State.setHead_keep; decide)
    | with_reducible refine KeepX.next ?_
    | split
    | dsimp only

theorem State.takeMonitor_keep {s : State} {o : HeadNo} {p0 : Nat} {p1 : Nat} {edid : List Byte} :
    Keep 72022272176545663 s (State.takeMonitor s o p0 p1 edid) := by
  unfold State.takeMonitor; try dsimp only
  repeat' first
    | with_reducible exact Keep.rfl'
    | with_reducible assumption
    | (with_reducible apply Keep.step State.bumpSeat_keep; decide)
    | (with_reducible apply Keep.step State.headChange_keep; decide)
    | (with_reducible apply Keep.step State.setHead_keep; decide)
    | (with_reducible apply Keep.step State.setView_keep; decide)
    | with_reducible apply Keep.ite
    | split
    | dsimp only

theorem execMonitor_keep {x : Seat} {lh : Fin 2} {param0 : W32} {param1 : W32} {edid : List Byte} {s : State} :
    KeepX 72022272176545663 s (execMonitor x lh param0 param1 edid s) := by
  unfold execMonitor; try dsimp only
  repeat' first
    | with_reducible exact Keep.rfl'
    | with_reducible assumption
    | (with_reducible apply Keep.step State.takeMonitor_keep; decide)
    | with_reducible refine KeepX.next ?_
    | with_reducible apply Keep.ite
    | split
    | dsimp only

theorem State.takeConfigDone_keep {s : State} {o : HeadNo} {p0 : Nat} :
    Keep 70896368037650031 s (State.takeConfigDone s o p0) := by
  unfold State.takeConfigDone; try dsimp only
  repeat' first
    | with_reducible exact Keep.rfl'
    | with_reducible assumption
    | (with_reducible apply Keep.step State.bumpSeat_keep; decide)
    | (with_reducible apply Keep.step State.detachHead_keep; decide)
    | (with_reducible apply Keep.step State.finish_keep; decide)
    | (with_reducible apply Keep.step State.setView_keep; decide)
    | with_reducible apply Keep.ite
    | split
    | dsimp only

theorem execConfigDone_keep {x : Seat} {lh : Fin 2} {param0 : W32} {s : State} :
    KeepX 70896368037650031 s (execConfigDone x lh param0 s) := by
  unfold execConfigDone; try dsimp only
  repeat' first
    | with_reducible exact Keep.rfl'
    | with_reducible assumption
    | (with_reducible apply Keep.step State.takeConfigDone_keep; decide)
    | with_reducible refine KeepX.next ?_
    | with_reducible apply Keep.ite
    | split
    | dsimp only

theorem State.takeApplied_keep {s : State} {o : HeadNo} {p0 : Nat} {p1 : Nat} :
    Keep 72022272193322879 s (State.takeApplied s o p0 p1) := by
  unfold State.takeApplied; try dsimp only
  repeat' first
    | with_reducible exact Keep.rfl'
    | with_reducible assumption
    | (with_reducible apply Keep.step State.bumpSeat_keep; decide)
    | (with_reducible apply Keep.step State.headChange_keep; decide)
    | (with_reducible apply Keep.step State.setView_keep; decide)
    | with_reducible apply Keep.ite
    | split
    | dsimp only

theorem execApplied_keep {x : Seat} {lh : Fin 2} {param0 : W32} {param1 : W32} {s : State} :
    KeepX 72022272193322879 s (execApplied x lh param0 param1 s) := by
  unfold execApplied; try dsimp only
  repeat' first
    | with_reducible exact Keep.rfl'
    | with_reducible assumption
    | (with_reducible apply Keep.step State.takeApplied_keep; decide)
    | with_reducible refine KeepX.next ?_
    | with_reducible apply Keep.ite
    | split
    | dsimp only

theorem State.takeStoreLost_keep {s : State} {o : HeadNo} :
    Keep 72022272193323007 s (State.takeStoreLost s o) := by
  unfold State.takeStoreLost; try dsimp only
  repeat' first
    | with_reducible exact Keep.rfl'
    | with_reducible assumption
    | (with_reducible apply Keep.step State.fullResend_keep; decide)
    | (with_reducible apply Keep.step State.setView_keep; decide)
    | with_reducible apply Keep.ite
    | split
    | dsimp only

theorem execStoreLost_keep {x : Seat} {lh : Fin 2} {s : State} :
    KeepX 72022272193323007 s (execStoreLost x lh s) := by
  unfold execStoreLost; try dsimp only
  repeat' first
    | with_reducible exact Keep.rfl'
    | with_reducible assumption
    | (with_reducible apply Keep.step State.takeStoreLost_keep; decide)
    | with_reducible refine KeepX.next ?_
    | with_reducible apply Keep.ite
    | split
    | dsimp only

theorem State.drawScreen_keep {s : State} {o : HeadNo} :
    Keep 72022268162596863 s (State.drawScreen s o) := by
  unfold State.drawScreen; try dsimp only
  repeat' first
    | with_reducible exact Keep.rfl'
    | with_reducible assumption
    | (with_reducible apply Keep.step State.sendConfig_keep; decide)
    | (with_reducible apply Keep.step State.setView_keep; decide)
    | with_reducible apply Keep.ite
    | split
    | dsimp only

theorem execStatusScreenRedraw_keep {hd : HeadNo} {ut : Nat} {s : State} :
    KeepX 31489871516260350 s (execStatusScreenRedraw hd ut s) := by
  unfold execStatusScreenRedraw; try dsimp only
  repeat' first
    | with_reducible exact Keep.rfl'
    | with_reducible assumption
    | (with_reducible apply Keep.step State.arrive_keep; decide)
    | (with_reducible apply Keep.step State.drawScreen_keep; decide)
    | with_reducible refine KeepX.next ?_
    | with_reducible apply Keep.ite
    | split
    | dsimp only

theorem State.leaveScreen_keep {s : State} {o : HeadNo} :
    Keep 72022268162596863 s (State.leaveScreen s o) := by
  unfold State.leaveScreen; try dsimp only
  repeat' first
    | with_reducible exact Keep.rfl'
    | with_reducible assumption
    | (with_reducible apply Keep.step State.configFor_keep; decide)
    | (with_reducible apply Keep.step State.fullResend_keep; decide)
    | with_reducible apply Keep.ite
    | split
    | dsimp only

end Sys2Proof.Machine
end

