-- ==== Sys2Proof/Laws/KeepDomains.lean ====
section
/-! SUPPORT. What the operations of Machine/Domains.lean may change: one lemma each. -/

namespace Sys2Proof.Machine

theorem State.clusterPorts_keep {s : State} {c : CoreId} {d : Nat} :
    Keep 72022271690006527 s (State.clusterPorts s c d) := by
  unfold State.clusterPorts; try dsimp only
  repeat' first
    | with_reducible exact Keep.rfl'
    | with_reducible assumption
    | (with_reducible apply Keep.step State.setPortState_keep; decide)
    | with_reducible apply Keep.ite
    | split
    | dsimp only

theorem State.lowerRail_keep {s : State} {c : CoreId} {vdsp : Bool} :
    Keep 72057456598974463 s (State.lowerRail s c vdsp) := by
  unfold State.lowerRail; try dsimp only
  repeat' first
    | with_reducible exact Keep.rfl'
    | with_reducible assumption
    | (with_reducible apply Keep.step State.setPowCore_keep; decide)
    | with_reducible apply Keep.ite
    | split
    | dsimp only

theorem State.railAck_keep {s : State} {c : CoreId} {vdsp : Bool} :
    Keep 72057456598974463 s (State.railAck s c vdsp) := by
  unfold State.railAck; try dsimp only
  repeat' first
    | with_reducible exact Keep.rfl'
    | with_reducible assumption
    | (with_reducible apply Keep.step State.setPowCore_keep; decide)
    | (with_reducible apply Keep.step State.startExit_keep; decide)
    | with_reducible refine Keep.foldl ?_ (fun _ _ => ?_)
    | with_reducible refine Keep.foldlFst ?_ (fun _ _ => ?_)
    | with_reducible refine Keep.foldlSnd ?_ (fun _ _ => ?_)
    | with_reducible apply Keep.ite
    | with_reducible apply Keep.iteFst
    | with_reducible apply Keep.iteSnd
    | split
    | dsimp only

theorem State.loseDomain_keep {s : State} {c : CoreId} {d : Nat} :
    Keep 72022271618684543 s (State.loseDomain s c d) := by
  unfold State.loseDomain; try dsimp only
  repeat' first
    | with_reducible exact Keep.rfl'
    | with_reducible assumption
    | (with_reducible apply Keep.step State.freeTx_keep; decide)
    | with_reducible apply Keep.setDram
    | (with_reducible apply Keep.step State.setGather_keep; decide)
    | (with_reducible apply Keep.step State.setPipe_keep; decide)
    | (with_reducible apply Keep.step State.setTeSt_keep; decide)
    | (with_reducible apply Keep.step State.setTun_keep; decide)
    | decide
    | with_reducible apply writeBytes_wf
    | with_reducible apply writeNat_wf
    | with_reducible apply foldl_mem_wf
    | exact State.isw_wf (by assumption)
    | exact State.due_wf (by assumption)
    | exact State.dram_wf (by assumption)
    | with_reducible rfl
    | intro _
    | with_reducible refine Keep.foldl ?_ (fun _ _ => ?_)
    | with_reducible refine Keep.foldlFst ?_ (fun _ _ => ?_)
    | with_reducible refine Keep.foldlSnd ?_ (fun _ _ => ?_)
    | with_reducible apply Keep.ite
    | with_reducible apply Keep.iteFst
    | with_reducible apply Keep.iteSnd
    | split
    | dsimp only

theorem State.transitionDone_keep {s : State} {c : CoreId} {d : Nat} :
    Keep 72022271618684543 s (State.transitionDone s c d) := by
  unfold State.transitionDone; try dsimp only
  repeat' first
    | with_reducible exact Keep.rfl'
    | with_reducible assumption
    | (with_reducible apply Keep.step State.clusterPorts_keep; decide)
    | (with_reducible apply Keep.step State.count_keep; decide)
    | (with_reducible apply Keep.step State.edge_keep; decide)
    | (with_reducible apply Keep.step State.feedPipes_keep; decide)
    | (with_reducible apply Keep.step State.loseDomain_keep; decide)
    | (with_reducible apply Keep.step State.lowerRail_keep; decide)
    | (with_reducible apply Keep.step State.moveDomain_keep; decide)
    | (with_reducible apply Keep.step State.setDomain_keep; decide)
    | (with_reducible apply Keep.step State.startExit_keep; decide)
    | (with_reducible apply Keep.step State.wake_keep; decide)
    | with_reducible apply Keep.ite
    | split
    | dsimp only

theorem execDomainTransitionDone_keep {c : CoreId} {d : DomainNo} {ut : Nat} {s : State} :
    KeepX 31489874972350078 s (execDomainTransitionDone c d ut s) := by
  unfold execDomainTransitionDone; try dsimp only
  repeat' first
    | with_reducible exact Keep.rfl'
    | with_reducible assumption
    | (with_reducible apply Keep.step State.arrive_keep; decide)
    | (with_reducible apply Keep.step State.transitionDone_keep; decide)
    | with_reducible refine KeepX.next ?_
    | split
    | dsimp only

theorem execDomainWake_keep {c : CoreId} {d : DomainNo} {ut : Nat} {s : State} :
    KeepX 31489875580540926 s (execDomainWake c d ut s) := by
  unfold execDomainWake; try dsimp only
  repeat' first
    | with_reducible exact Keep.rfl'
    | with_reducible assumption
    | (with_reducible apply Keep.step State.arrive_keep; decide)
    | (with_reducible apply Keep.step State.wake_keep; decide)
    | with_reducible refine KeepX.next ?_
    | with_reducible apply Keep.ite
    | split
    | dsimp only

theorem State.holdEnd_keep {s : State} {c : CoreId} {d : Nat} :
    Keep 72022272226877439 s (State.holdEnd s c d) := by
  unfold State.holdEnd; try dsimp only
  repeat' first
    | with_reducible exact Keep.rfl'
    | with_reducible assumption
    | (with_reducible apply Keep.step State.setDomain_keep; decide)
    | (with_reducible apply Keep.step State.settleDomain_keep; decide)
    | with_reducible apply Keep.ite
    | split
    | dsimp only

theorem execWakeHoldEnd_keep {c : CoreId} {d : DomainNo} {ut : Nat} {s : State} :
    KeepX 31489875580540926 s (execWakeHoldEnd c d ut s) := by
  unfold execWakeHoldEnd; try dsimp only
  repeat' first
    | with_reducible exact Keep.rfl'
    | with_reducible assumption
    | (with_reducible apply Keep.step State.arrive_keep; decide)
    | (with_reducible apply Keep.step State.holdEnd_keep; decide)
    | with_reducible refine KeepX.next ?_
    | split
    | dsimp only

theorem State.clockSwitch_keep {s : State} {c : CoreId} {d : Nat} :
    Keep 72057456598974463 s (State.clockSwitch s c d) := by
  unfold State.clockSwitch; try dsimp only
  repeat' first
    | with_reducible exact Keep.rfl'
    | with_reducible assumption
    | (with_reducible apply Keep.step State.setDomain_keep; decide)
    | split
    | dsimp only

theorem execClockSwitch_keep {c : CoreId} {d : DomainNo} {s : State} :
    KeepX 72057456598974463 s (execClockSwitch c d s) := by
  unfold execClockSwitch; try dsimp only
  repeat' first
    | with_reducible exact Keep.rfl'
    | with_reducible assumption
    | (with_reducible apply Keep.step State.clockSwitch_keep; decide)
    | with_reducible refine KeepX.next ?_
    | split
    | dsimp only

theorem execClockSwitchTimeout_keep {c : CoreId} {d : DomainNo} {ut : Nat} {s : State} :
    KeepX 31489875580540926 s (execClockSwitchTimeout c d ut s) := by
  unfold execClockSwitchTimeout; try dsimp only
  repeat' first
    | with_reducible exact Keep.rfl'
    | with_reducible assumption
    | (with_reducible apply Keep.step State.arrive_keep; decide)
    | (with_reducible apply Keep.step State.clockSwitch_keep; decide)
    | with_reducible refine KeepX.next ?_
    | with_reducible apply Keep.ite
    | split
    | dsimp only

theorem execPmbusAck_keep {c : CoreId} {vdsp : Bool} {s : State} :
    KeepX 72057456598974463 s (execPmbusAck c vdsp s) := by
  unfold execPmbusAck; try dsimp only
  repeat' first
    | with_reducible exact Keep.rfl'
    | with_reducible assumption
    | (with_reducible apply Keep.step State.railAck_keep; decide)
    | with_reducible refine KeepX.next ?_
    | split
    | dsimp only

theorem State.writeVote_keep {s : State} {w : Via} {c : CoreId} {d : Nat} {v : W64} :
    Keep 72022272226877439 s (State.writeVote s w c d v) := by
  unfold State.writeVote; try dsimp only
  repeat' first
    | with_reducible exact Keep.rfl'
    | with_reducible assumption
    | (with_reducible apply Keep.step State.setDomain_keep; decide)
    | (with_reducible apply Keep.step State.settleDomain_keep; decide)
    | split
    | dsimp only

theorem execDomainVoteWrite_keep {w : Via} {c : CoreId} {d : DomainNo} {v : W64} {s : State} :
    KeepX 72022272226877439 s (execDomainVoteWrite w c d v s) := by
  unfold execDomainVoteWrite; try dsimp only
  repeat' first
    | with_reducible exact Keep.rfl'
    | with_reducible assumption
    | (with_reducible apply Keep.step State.writeVote_keep; decide)
    | with_reducible refine KeepX.next ?_
    | with_reducible apply Keep.ite
    | split
    | dsimp only

end Sys2Proof.Machine
end

