-- ==== Sys2Proof/Laws/KeepSeatPower.lean ====
section
/-! SUPPORT. What the operations of Machine/SeatPower.lean may change: one lemma each. -/

namespace Sys2Proof.Machine

theorem State.putPower_keep {s : State} {x : Seat} {v : SeatPower} :
    Keep 72022203507400703 s (State.putPower s x v) := by
  unfold State.putPower; try dsimp only
  repeat' first
    | with_reducible exact Keep.rfl'
    | with_reducible assumption
    | (with_reducible apply Keep.step State.edge_keep; decide)
    | (with_reducible apply Keep.step State.setSeatPower_keep; decide)
    | with_reducible apply Keep.ite
    | split
    | dsimp only

theorem State.removePower_keep {s : State} {x : Seat} {cause : Nat} {st : PowerState} {waitUntil : Nat} :
    Keep 72022203507400703 s (State.removePower s x cause st waitUntil) := by
  unfold State.removePower; try dsimp only
  repeat' first
    | with_reducible exact Keep.rfl'
    | with_reducible assumption
    | (with_reducible apply Keep.step State.putPower_keep; decide)
    | with_reducible apply Keep.ite
    | split
    | dsimp only

theorem State.powerAllowed_keep {s : State} {x : Seat} :
    Keep 72022203507400703 s (State.powerAllowed s x) := by
  unfold State.powerAllowed; try dsimp only
  repeat' first
    | with_reducible exact Keep.rfl'
    | with_reducible assumption
    | (with_reducible apply Keep.step State.putPower_keep; decide)
    | (with_reducible apply Keep.step State.removePower_keep; decide)
    | with_reducible apply Keep.ite
    | split
    | dsimp only

theorem State.powerOn_keep {s : State} {x : Seat} {a : Nat} :
    Keep 72022203507400703 s (State.powerOn s x a) := by
  unfold State.powerOn; try dsimp only
  repeat' first
    | with_reducible exact Keep.rfl'
    | with_reducible assumption
    | (with_reducible apply Keep.step State.putPower_keep; decide)
    | with_reducible apply Keep.ite
    | split
    | dsimp only

theorem State.detect_keep {s : State} {x : Seat} {g : PdSig} :
    Keep 72022203507400703 s (State.detect s x g) := by
  unfold State.detect; try dsimp only
  repeat' first
    | with_reducible exact Keep.rfl'
    | with_reducible assumption
    | (with_reducible apply Keep.step State.powerAllowed_keep; decide)
    | (with_reducible apply Keep.step State.putPower_keep; decide)
    | with_reducible apply Keep.ite
    | split
    | dsimp only

theorem execDetection_keep {x : Seat} {sig : PdSig} {ut : Nat} {s : State} :
    KeepX 31489806861064190 s (execDetection x sig ut s) := by
  unfold execDetection; try dsimp only
  repeat' first
    | with_reducible exact Keep.rfl'
    | with_reducible assumption
    | (with_reducible apply Keep.step State.arrive_keep; decide)
    | (with_reducible apply Keep.step State.detect_keep; decide)
    | with_reducible refine KeepX.next ?_
    | with_reducible apply Keep.ite
    | split
    | dsimp only

theorem State.examine_keep {s : State} :
    Keep 72021928629493759 s (State.examine s) := by
  unfold State.examine; try dsimp only
  repeat' first
    | with_reducible exact Keep.rfl'
    | with_reducible assumption
    | (with_reducible apply Keep.step State.powerAllowed_keep; decide)
    | (with_reducible apply Keep.step State.powerOn_keep; decide)
    | (with_reducible apply Keep.step State.putPower_keep; decide)
    | with_reducible apply Keep.setPow
    | exact fun k => absurd k (by decide)
    | with_reducible exact fun _ => rfl
    | with_reducible rfl
    | decide
    | with_reducible refine Keep.foldl ?_ (fun _ _ => ?_)
    | with_reducible refine Keep.foldlFst ?_ (fun _ _ => ?_)
    | with_reducible refine Keep.foldlSnd ?_ (fun _ _ => ?_)
    | with_reducible apply Keep.ite
    | with_reducible apply Keep.iteFst
    | with_reducible apply Keep.iteSnd
    | split
    | dsimp only

theorem execPowerOnExamine_keep {ut : Nat} {s : State} :
    KeepX 31489531983157246 s (execPowerOnExamine ut s) := by
  unfold execPowerOnExamine; try dsimp only
  repeat' first
    | with_reducible exact Keep.rfl'
    | with_reducible assumption
    | (with_reducible apply Keep.step State.arrive_keep; decide)
    | (with_reducible apply Keep.step State.examine_keep; decide)
    | with_reducible refine KeepX.next ?_
    | with_reducible apply Keep.ite
    | split
    | dsimp only

theorem execMpsLost_keep {x : Seat} {ut : Nat} {s : State} :
    KeepX 31489806861064190 s (execMpsLost x ut s) := by
  unfold execMpsLost; try dsimp only
  repeat' first
    | with_reducible exact Keep.rfl'
    | with_reducible assumption
    | (with_reducible apply Keep.step State.arrive_keep; decide)
    | (with_reducible apply Keep.step State.removePower_keep; decide)
    | with_reducible refine KeepX.next ?_
    | with_reducible apply Keep.ite
    | split
    | dsimp only

theorem State.takeMeans_keep {s : State} {m : List Nat} :
    Keep 72057525318451199 s (State.takeMeans s m) := by
  unfold State.takeMeans; try dsimp only
  repeat' first
    | with_reducible exact Keep.rfl'
    | with_reducible assumption
    | (with_reducible apply Keep.step State.setSeatPower_keep; decide)
    | with_reducible refine Keep.foldl ?_ (fun _ _ => ?_)
    | with_reducible refine Keep.foldlFst ?_ (fun _ _ => ?_)
    | with_reducible refine Keep.foldlSnd ?_ (fun _ _ => ?_)
    | with_reducible refine Keep.getD ?_ ?_
    | with_reducible apply Keep.ite
    | with_reducible apply Keep.iteFst
    | with_reducible apply Keep.iteSnd
    | split
    | dsimp only

theorem State.shedUntil_keep {a0 : Nat} {a1 : State} {a2 : Nat} :
    Keep 72021928629493759 a1 (State.shedUntil a0 a1 a2) := by
  induction a0 generalizing a1 a2 with
  | zero => unfold State.shedUntil; exact Keep.rfl'
  | succ n ih =>
    unfold State.shedUntil; try dsimp only
    repeat' first
      | with_reducible exact Keep.rfl'
      | with_reducible assumption
      | (with_reducible apply Keep.step State.removePower_keep; decide)
      | with_reducible apply Keep.setPow
      | exact fun k => absurd k (by decide)
      | with_reducible exact fun _ => rfl
      | with_reducible rfl
      | decide
      | (with_reducible apply Keep.step ih; decide)
      | with_reducible apply Keep.ite
      | split
      | dsimp only

theorem execSoftShed_keep {mean1s : List Nat} {ut : Nat} {s : State} :
    KeepX 31489531983157246 s (execSoftShed mean1s ut s) := by
  unfold execSoftShed; try dsimp only
  repeat' first
    | with_reducible exact Keep.rfl'
    | with_reducible assumption
    | (with_reducible apply Keep.step State.arrive_keep; decide)
    | (with_reducible apply Keep.step State.shedUntil_keep; decide)
    | (with_reducible apply Keep.step State.takeMeans_keep; decide)
    | with_reducible refine KeepX.next ?_
    | split
    | dsimp only

theorem execHardShed_keep {mean1s : List Nat} {ut : Nat} {s : State} :
    KeepX 31489531983157246 s (execHardShed mean1s ut s) := by
  unfold execHardShed; try dsimp only
  repeat' first
    | with_reducible exact Keep.rfl'
    | with_reducible assumption
    | (with_reducible apply Keep.step State.arrive_keep; decide)
    | (with_reducible apply Keep.step State.shedUntil_keep; decide)
    | (with_reducible apply Keep.step State.takeMeans_keep; decide)
    | with_reducible refine KeepX.next ?_
    | with_reducible apply Keep.ite
    | split
    | dsimp only

theorem execShedEnd_keep {x : Seat} {ut : Nat} {s : State} :
    KeepX 31489806861064190 s (execShedEnd x ut s) := by
  unfold execShedEnd; try dsimp only
  repeat' first
    | with_reducible exact Keep.rfl'
    | with_reducible assumption
    | (with_reducible apply Keep.step State.arrive_keep; decide)
    | (with_reducible apply Keep.step State.putPower_keep; decide)
    | with_reducible refine KeepX.next ?_
    | with_reducible apply Keep.ite
    | split
    | dsimp only

theorem State.pairFault_keep {s : State} {x : Seat} {cause : Nat} :
    Keep 72022203507400703 s (State.pairFault s x cause) := by
  unfold State.pairFault; try dsimp only
  repeat' first
    | with_reducible exact Keep.rfl'
    | with_reducible assumption
    | (with_reducible apply Keep.step State.removePower_keep; decide)
    | (with_reducible apply Keep.step State.setSeatPower_keep; decide)
    | with_reducible apply Keep.ite
    | split
    | dsimp only

theorem execPairShort_keep {x : Seat} {ut : Nat} {s : State} :
    KeepX 31489806861064190 s (execPairShort x ut s) := by
  unfold execPairShort; try dsimp only
  repeat' first
    | with_reducible exact Keep.rfl'
    | with_reducible assumption
    | (with_reducible apply Keep.step State.arrive_keep; decide)
    | (with_reducible apply Keep.step State.pairFault_keep; decide)
    | with_reducible refine KeepX.next ?_
    | split
    | dsimp only

theorem execPairOverload_keep {x : Seat} {ut : Nat} {s : State} :
    KeepX 31489806861064190 s (execPairOverload x ut s) := by
  unfold execPairOverload; try dsimp only
  repeat' first
    | with_reducible exact Keep.rfl'
    | with_reducible assumption
    | (with_reducible apply Keep.step State.arrive_keep; decide)
    | (with_reducible apply Keep.step State.pairFault_keep; decide)
    | with_reducible refine KeepX.next ?_
    | split
    | dsimp only

theorem execFaultRetry_keep {x : Seat} {ut : Nat} {s : State} :
    KeepX 31489806861064190 s (execFaultRetry x ut s) := by
  unfold execFaultRetry; try dsimp only
  repeat' first
    | with_reducible exact Keep.rfl'
    | with_reducible assumption
    | (with_reducible apply Keep.step State.arrive_keep; decide)
    | (with_reducible apply Keep.step State.putPower_keep; decide)
    | with_reducible refine KeepX.next ?_
    | with_reducible apply Keep.ite
    | split
    | dsimp only

theorem execFaultRetryCountClear_keep {x : Seat} {ut : Nat} {s : State} :
    KeepX 31489806861064190 s (execFaultRetryCountClear x ut s) := by
  unfold execFaultRetryCountClear; try dsimp only
  repeat' first
    | with_reducible exact Keep.rfl'
    | with_reducible assumption
    | (with_reducible apply Keep.step State.arrive_keep; decide)
    | (with_reducible apply Keep.step State.setSeatPower_keep; decide)
    | with_reducible refine KeepX.next ?_
    | with_reducible apply Keep.ite
    | split
    | dsimp only

theorem State.openConductor_keep {s : State} {x : Seat} {goodA : Bool} {metres : Nat} :
    Keep 72057525318451199 s (State.openConductor s x goodA metres) := by
  unfold State.openConductor; try dsimp only
  repeat' first
    | with_reducible exact Keep.rfl'
    | with_reducible assumption
    | (with_reducible apply Keep.step State.setSeatPower_keep; decide)
    | with_reducible apply Keep.ite
    | split
    | dsimp only

theorem execOpenConductorDetected_keep {x : Seat} {goodA : Bool} {metres : Nat} {s : State} :
    KeepX 72057525318451199 s (execOpenConductorDetected x goodA metres s) := by
  unfold execOpenConductorDetected; try dsimp only
  repeat' first
    | with_reducible exact Keep.rfl'
    | with_reducible assumption
    | (with_reducible apply Keep.step State.openConductor_keep; decide)
    | with_reducible refine KeepX.next ?_
    | split
    | dsimp only

theorem State.cyclePort_keep {s : State} {x : Seat} :
    Keep 72022203507400703 s (State.cyclePort s x) := by
  unfold State.cyclePort; try dsimp only
  repeat' first
    | with_reducible exact Keep.rfl'
    | with_reducible assumption
    | (with_reducible apply Keep.step State.removePower_keep; decide)
    | with_reducible apply Keep.ite
    | split
    | dsimp only

theorem execCycle_keep {w : Via} {x : Seat} {s : State} :
    KeepX 72022203507400703 s (execCycle w x s) := by
  unfold execCycle; try dsimp only
  repeat' first
    | with_reducible exact Keep.rfl'
    | with_reducible assumption
    | (with_reducible apply Keep.step State.cyclePort_keep; decide)
    | with_reducible refine KeepX.next ?_
    | with_reducible apply Keep.ite
    | split
    | dsimp only

theorem State.writePowerControl_keep {s : State} {x : Seat} {v : W64} :
    Keep 72022203507400695 s (State.writePowerControl s x v) := by
  unfold State.writePowerControl; try dsimp only
  repeat' first
    | with_reducible exact Keep.rfl'
    | with_reducible assumption
    | (with_reducible apply Keep.step State.cyclePort_keep; decide)
    | (with_reducible apply Keep.step State.powerAllowed_keep; decide)
    | (with_reducible apply Keep.step State.setSeatPower_keep; decide)
    | (with_reducible apply Keep.step State.storeUpdate_keep; decide)
    | with_reducible apply Keep.ite
    | split
    | dsimp only

theorem execSeatPowerEnableWrite_keep {w : Via} {x : Seat} {v : W64} {s : State} :
    KeepX 72022203507400695 s (execSeatPowerEnableWrite w x v s) := by
  unfold execSeatPowerEnableWrite; try dsimp only
  repeat' first
    | with_reducible exact Keep.rfl'
    | with_reducible assumption
    | (with_reducible apply Keep.step State.writePowerControl_keep; decide)
    | with_reducible refine KeepX.next ?_
    | with_reducible apply Keep.ite
    | split
    | dsimp only

end Sys2Proof.Machine
end

