-- ==== Sys2Proof/Laws/KeepGate.lean ====
section
/-! SUPPORT. What the operations of Machine/Gate.lean may change: one lemma each. -/

namespace Sys2Proof.Machine

theorem State.gateRecheck_keep {s : State} {x : Seat} :
    Keep 72057590816702463 s (State.gateRecheck s x) := by
  unfold State.gateRecheck; try dsimp only
  repeat' first
    | with_reducible exact Keep.rfl'
    | with_reducible assumption
    | (with_reducible apply Keep.step State.setSeatTraf_keep; decide)
    | (with_reducible apply Keep.step State.settleGate_keep; decide)
    | with_reducible apply Keep.ite
    | split
    | dsimp only

theorem State.sendTimeBase_keep {s : State} {x : Seat} :
    Keep 72022268462489599 s (State.sendTimeBase s x) := by
  unfold State.sendTimeBase; try dsimp only
  repeat' first
    | with_reducible exact Keep.rfl'
    | with_reducible assumption
    | (with_reducible apply Keep.step State.sendSync_keep; decide)
    | (with_reducible apply Keep.step State.setSeatTime_keep; decide)
    | (with_reducible apply Keep.step State.setSeatTraf_keep; decide)
    | with_reducible apply Keep.ite
    | split
    | dsimp only

theorem State.dropDisowned_keep {s : State} {x : Seat} :
    Keep 72057593496862719 s (State.dropDisowned s x) := by
  unfold State.dropDisowned; try dsimp only
  repeat' first
    | with_reducible exact Keep.rfl'
    | with_reducible assumption
    | (with_reducible apply Keep.step State.freeNumbered_keep; decide)
    | (with_reducible apply Keep.step State.setFabPort_keep; decide)
    | (with_reducible apply Keep.step State.setTun_keep; decide)
    | with_reducible refine Keep.foldl ?_ (fun _ _ => ?_)
    | with_reducible refine Keep.foldlFst ?_ (fun _ _ => ?_)
    | with_reducible refine Keep.foldlSnd ?_ (fun _ _ => ?_)
    | with_reducible apply Keep.ite
    | with_reducible apply Keep.iteFst
    | with_reducible apply Keep.iteSnd
    | split
    | dsimp only

theorem State.chargeShaper_keep {s : State} {x : Seat} {n : Nat} {yellow : Bool} :
    Keep 72057584374251519 s (State.chargeShaper s x n yellow) := by
  unfold State.chargeShaper; try dsimp only
  repeat' first
    | with_reducible exact Keep.rfl'
    | with_reducible assumption
    | (with_reducible apply Keep.step State.setDemand_keep; decide)
    | (with_reducible apply Keep.step State.setSeatTraf_keep; decide)
    | with_reducible apply Keep.ite
    | split
    | dsimp only

theorem State.sendCand_keep {s : State} {x : Seat} {c : Cand} :
    Keep 69770460059918335 s (State.sendCand s x c) := by
  unfold State.sendCand; try dsimp only
  repeat' first
    | with_reducible exact Keep.rfl'
    | with_reducible assumption
    | (with_reducible apply Keep.step State.chargeShaper_keep; decide)
    | (with_reducible apply Keep.step State.sendAgain_keep; decide)
    | (with_reducible apply Keep.step State.sendNew_keep; decide)
    | (with_reducible apply Keep.step State.setWfq_keep; decide)
    | with_reducible apply Keep.ite
    | split
    | dsimp only

theorem State.lineFree_keep {s : State} {x : Seat} :
    Keep 69770460059917951 s (State.lineFree s x) := by
  unfold State.lineFree; try dsimp only
  repeat' first
    | with_reducible exact Keep.rfl'
    | with_reducible assumption
    | (with_reducible apply Keep.step State.dropDisowned_keep; decide)
    | (with_reducible apply Keep.step State.dropIso_keep; decide)
    | (with_reducible apply Keep.step State.offerKept_keep; decide)
    | (with_reducible apply Keep.step State.sendBare_keep; decide)
    | (with_reducible apply Keep.step State.sendCand_keep; decide)
    | (with_reducible apply Keep.step State.settleGate_keep; decide)
    | (with_reducible apply Keep.step State.tagHeads_keep; decide)
    | with_reducible refine Keep.step (State.tagHeads_keepE (by assumption)) (by decide) ?_
    | with_reducible apply Keep.ite
    | split
    | dsimp only

theorem execLineFreeSelect_keep {x : Seat} {ut : Nat} {s : State} :
    KeepX 29238063413581438 s (execLineFreeSelect x ut s) := by
  unfold execLineFreeSelect; try dsimp only
  repeat' first
    | with_reducible exact Keep.rfl'
    | with_reducible assumption
    | (with_reducible apply Keep.step State.arrive_keep; decide)
    | (with_reducible apply Keep.step State.lineFree_keep; decide)
    | with_reducible refine KeepX.next ?_
    | with_reducible apply Keep.ite
    | split
    | dsimp only

theorem State.retag_keep {s : State} {x : Seat} {o : BitVec 6} :
    Keep 72057591890444287 s (State.retag s x o) := by
  unfold State.retag; try dsimp only
  repeat' first
    | with_reducible exact Keep.rfl'
    | with_reducible assumption
    | (with_reducible apply Keep.step State.setWfq_keep; decide)
    | (with_reducible apply Keep.step State.tagHeads_keep; decide)
    | with_reducible refine Keep.step (State.tagHeads_keepE (by assumption)) (by decide) ?_
    | with_reducible apply Keep.ite
    | split
    | dsimp only

theorem execEntryStart_keep {x : Seat} {ut : Nat} {s : State} :
    KeepX 31489872359315454 s (execEntryStart x ut s) := by
  unfold execEntryStart; try dsimp only
  repeat' first
    | with_reducible exact Keep.rfl'
    | with_reducible assumption
    | (with_reducible apply Keep.step State.arrive_keep; decide)
    | (with_reducible apply Keep.step State.retag_keep; decide)
    | (with_reducible apply Keep.step State.settleGate_keep; decide)
    | with_reducible refine KeepX.next ?_
    | with_reducible apply Keep.ite
    | split
    | dsimp only

theorem State.applyGate_keep {s : State} {x : Seat} :
    Keep 72057592964186111 s (State.applyGate s x) := by
  unfold State.applyGate; try dsimp only
  repeat' first
    | with_reducible exact Keep.rfl'
    | with_reducible assumption
    | (with_reducible apply Keep.step State.setSeatTraf_keep; decide)
    | with_reducible apply Keep.ite
    | split
    | dsimp only

theorem State.writeGate_keep {s : State} {x : Seat} {v : W64} :
    Keep 72022268462489599 s (State.writeGate s x v) := by
  unfold State.writeGate; try dsimp only
  repeat' first
    | with_reducible exact Keep.rfl'
    | with_reducible assumption
    | (with_reducible apply Keep.step State.applyGate_keep; decide)
    | (with_reducible apply Keep.step State.sendTimeBase_keep; decide)
    | (with_reducible apply Keep.step State.setSeatTraf_keep; decide)
    | (with_reducible apply Keep.step State.settleGate_keep; decide)
    | with_reducible apply Keep.ite
    | split
    | dsimp only

theorem State.gateWrite_keep {s : State} {w : Via} {x : Seat} {v : W64} :
    Keep 72022268462489599 s (State.gateWrite s w x v) := by
  unfold State.gateWrite; try dsimp only
  repeat' first
    | with_reducible exact Keep.rfl'
    | with_reducible assumption
    | (with_reducible apply Keep.step State.setSeatTraf_keep; decide)
    | (with_reducible apply Keep.step State.writeGate_keep; decide)
    | with_reducible apply Keep.ite
    | split
    | dsimp only

theorem execGateApply_keep {w : Via} {x : Seat} {v : W64} {s : State} :
    KeepX 72022268462489599 s (execGateApply w x v s) := by
  unfold execGateApply; try dsimp only
  repeat' first
    | with_reducible exact Keep.rfl'
    | with_reducible assumption
    | (with_reducible apply Keep.step State.gateWrite_keep; decide)
    | with_reducible refine KeepX.next ?_
    | split
    | dsimp only

theorem execGateControlCalWrite_keep {w : Via} {x : Seat} {v : W64} {s : State} :
    KeepX 72022268462489599 s (execGateControlCalWrite w x v s) := by
  unfold execGateControlCalWrite; try dsimp only
  repeat' first
    | with_reducible exact Keep.rfl'
    | with_reducible assumption
    | (with_reducible apply Keep.step State.gateWrite_keep; decide)
    | with_reducible refine KeepX.next ?_
    | split
    | dsimp only

end Sys2Proof.Machine
end

