-- ==== Sys2Proof/Laws/KeepNet.lean ====
section
/-! SUPPORT. What the operations of Machine/Net.lean may change: one lemma each. -/

namespace Sys2Proof.Machine

theorem State.netItem_keep {s : State} {x : Seat} {rx : Bool} {i : IsletNo} {src : Option Half} :
    Keep 71881534734323135 s (State.netItem s x rx i src) := by
  unfold State.netItem; try dsimp only
  repeat' first
    | with_reducible exact Keep.rfl'
    | with_reducible assumption
    | (with_reducible apply Keep.step State.actMake_keep; decide)
    | (with_reducible apply Keep.step State.draw_keep; decide)
    | with_reducible refine Keep.step (State.draw_keepE (by assumption)) (by decide) ?_
    | (with_reducible apply Keep.step State.readyItem_keep; decide)
    | with_reducible apply Keep.ite
    | split
    | dsimp only

theorem netPump_keep {a0 : Nat} {a1 : State} {a2 : Seat} :
    Keep 71881526681259199 a1 (netPump a0 a1 a2) := by
  induction a0 generalizing a1 a2 with
  | zero => unfold netPump; exact Keep.rfl'
  | succ n ih =>
    unfold netPump; try dsimp only
    repeat' first
      | with_reducible exact Keep.rfl'
      | with_reducible assumption
      | (with_reducible apply Keep.step State.hand_keep; decide)
      | (with_reducible apply Keep.step State.netItem_keep; decide)
      | (with_reducible apply Keep.step State.queueFrame_keep; decide)
      | (with_reducible apply Keep.step State.setSeatNet_keep; decide)
      | (with_reducible apply Keep.step ih; decide)
      | with_reducible apply Keep.ite
      | split
      | dsimp only

theorem State.netArrived_keep {s : State} {h : Nat} {b : List Byte} :
    Keep 71881526681259199 s (State.netArrived s h b) := by
  unfold State.netArrived; try dsimp only
  repeat' first
    | with_reducible exact Keep.rfl'
    | with_reducible assumption
    | (with_reducible apply Keep.step State.setSeatNet_keep; decide)
    | (with_reducible apply Keep.step State.transit_keep; decide)
    | (with_reducible apply Keep.step netPump_keep; decide)
    | split
    | dsimp only

theorem State.netReads_keep {s : State} {e : EntrySt} {h : Nat} {a0 : List (Nat × Nat)} :
    Keep 70931676951216111 s (State.netReads s e h a0) := by
  induction a0 generalizing s e h with
  | nil => unfold State.netReads; exact Keep.rfl'
  | cons e r ih =>
    unfold State.netReads; try dsimp only
    repeat' first
      | with_reducible exact Keep.rfl'
      | with_reducible assumption
      | (with_reducible apply Keep.step State.issueRead_keep; decide)
      | (with_reducible apply Keep.step ih; decide)
      | split
      | dsimp only

theorem State.netTaken_keep {s : State} {h : Nat} {e : EntrySt} :
    Keep 72022267931909759 s (State.netTaken s h e) := by
  unfold State.netTaken; try dsimp only
  repeat' first
    | with_reducible exact Keep.rfl'
    | with_reducible assumption
    | (with_reducible apply Keep.step State.finish_keep; decide)
    | (with_reducible apply Keep.step State.setSeatNet_keep; decide)
    | with_reducible apply Keep.ite
    | split
    | dsimp only

theorem State.netTransmit_keep {s : State} {h : Nat} {e : EntrySt} :
    Keep 70896350828011119 s (State.netTransmit s h e) := by
  unfold State.netTransmit; try dsimp only
  repeat' first
    | with_reducible exact Keep.rfl'
    | with_reducible assumption
    | (with_reducible apply Keep.step State.begin__keep; decide)
    | (with_reducible apply Keep.step State.dropWork_keep; decide)
    | (with_reducible apply Keep.step State.failCount_keep; decide)
    | (with_reducible apply Keep.step State.finish_keep; decide)
    | (with_reducible apply Keep.step State.netReads_keep; decide)
    | with_reducible apply Keep.ite
    | split
    | dsimp only

theorem execNetTransmit_keep {c : CoreId} {h : Nat} {s : State} :
    KeepX 70896350828011119 s (execNetTransmit c h s) := by
  unfold execNetTransmit; try dsimp only
  repeat' first
    | with_reducible exact Keep.rfl'
    | with_reducible assumption
    | (with_reducible apply Keep.step State.netTransmit_keep; decide)
    | with_reducible refine KeepX.next ?_
    | split
    | dsimp only

theorem State.bufferTaken_keep {s : State} {h : Nat} {e : EntrySt} :
    Keep 72022267931909759 s (State.bufferTaken s h e) := by
  unfold State.bufferTaken; try dsimp only
  repeat' first
    | with_reducible exact Keep.rfl'
    | with_reducible assumption
    | (with_reducible apply Keep.step State.finish_keep; decide)
    | (with_reducible apply Keep.step State.setSeatNet_keep; decide)
    | with_reducible apply Keep.ite
    | split
    | dsimp only

theorem execNetReceiveBuffer_keep {c : CoreId} {h : Nat} {s : State} :
    KeepX 72057594037927679 s (execNetReceiveBuffer c h s) := by
  unfold execNetReceiveBuffer; try dsimp only
  repeat' first
    | with_reducible exact Keep.rfl'
    | with_reducible assumption
    | (with_reducible apply Keep.step State.begin__keep; decide)
    | with_reducible refine KeepX.next ?_
    | split
    | dsimp only

theorem State.fillBuffer_keep {s : State} {x : Seat} {h : Nat} {e : EntrySt} {low : Nat} {b : List Byte} {yellow : Bool} {src : Option Half} :
    Keep 70755613352643647 s (State.fillBuffer s x h e low b yellow src) := by
  unfold State.fillBuffer; try dsimp only
  repeat' first
    | with_reducible exact Keep.rfl'
    | with_reducible assumption
    | (with_reducible apply Keep.step State.finishFrom_keep; decide)
    | (with_reducible apply Keep.step State.netItem_keep; decide)
    | (with_reducible apply Keep.step State.setSeatNet_keep; decide)
    | (with_reducible apply Keep.step State.transit_keep; decide)
    | (with_reducible apply Keep.step State.writeEntry_keep; decide)
    | with_reducible refine Keep.step (State.writeEntry_keepE (by assumption)) (by decide) ?_
    | with_reducible apply Keep.ite
    | split
    | dsimp only

theorem State.takeNet_keep {s : State} {x : Seat} {low : Nat} {b : List Byte} {src : Option Half} :
    Keep 70755603688967231 s (State.takeNet s x low b src) := by
  unfold State.takeNet; try dsimp only
  repeat' first
    | with_reducible exact Keep.rfl'
    | with_reducible assumption
    | (with_reducible apply Keep.step State.fillBuffer_keep; decide)
    | (with_reducible apply Keep.step State.setDemand_keep; decide)
    | (with_reducible apply Keep.step State.setSeatNet_keep; decide)
    | (with_reducible apply Keep.step State.setSeatTraf_keep; decide)
    | with_reducible apply Keep.ite
    | split
    | dsimp only

theorem execNetFrameReceive_keep {x : Seat} {utLow : W32} {frame : List Byte} {ut : Nat} {s : State} :
    KeepX 30223207042630718 s (execNetFrameReceive x utLow frame ut s) := by
  unfold execNetFrameReceive; try dsimp only
  repeat' first
    | with_reducible exact Keep.rfl'
    | with_reducible assumption
    | (with_reducible apply Keep.step State.arrive_keep; decide)
    | (with_reducible apply Keep.step State.takeNet_keep; decide)
    | with_reducible refine KeepX.next ?_
    | with_reducible apply Keep.ite
    | split
    | dsimp only

theorem State.endNet_keep {s : State} {x : Seat} {status : Nat} {buffers : Bool} :
    Keep 72022267395038847 s (State.endNet s x status buffers) := by
  unfold State.endNet; try dsimp only
  repeat' first
    | with_reducible exact Keep.rfl'
    | with_reducible assumption
    | (with_reducible apply Keep.step State.dropKept_keep; decide)
    | (with_reducible apply Keep.step State.finish_keep; decide)
    | (with_reducible apply Keep.step State.setSeatNet_keep; decide)
    | with_reducible refine Keep.foldl ?_ (fun _ _ => ?_)
    | with_reducible refine Keep.foldlFst ?_ (fun _ _ => ?_)
    | with_reducible refine Keep.foldlSnd ?_ (fun _ _ => ?_)
    | with_reducible apply Keep.ite
    | with_reducible apply Keep.iteFst
    | with_reducible apply Keep.iteSnd
    | split
    | dsimp only

theorem State.latchSeat_keep {s : State} {x : Seat} {power : Nat} {m1 : Nat} :
    Keep 72057516728516607 s (State.latchSeat s x power m1) := by
  unfold State.latchSeat; try dsimp only
  repeat' first
    | with_reducible exact Keep.rfl'
    | with_reducible assumption
    | (with_reducible apply Keep.step State.setDemand_keep; decide)
    | (with_reducible apply Keep.step State.setSeatPower_keep; decide)
    | split
    | dsimp only

theorem State.latchIslets_keep {s : State} :
    Keep 72057576858058751 s (State.latchIslets s) := by
  unfold State.latchIslets; try dsimp only
  repeat' first
    | with_reducible exact Keep.rfl'
    | with_reducible assumption
    | (with_reducible apply Keep.step State.setIsletTraf_keep; decide)
    | with_reducible refine Keep.foldl ?_ (fun _ _ => ?_)
    | with_reducible refine Keep.foldlFst ?_ (fun _ _ => ?_)
    | with_reducible refine Keep.foldlSnd ?_ (fun _ _ => ?_)
    | split
    | dsimp only

theorem State.latchDemand_keep {s : State} {c : CoreId} {power : List Nat} {m : Nat} :
    Keep 72057465188909055 s (State.latchDemand s c power m) := by
  unfold State.latchDemand; try dsimp only
  repeat' first
    | with_reducible exact Keep.rfl'
    | with_reducible assumption
    | (with_reducible apply Keep.step State.latchIslets_keep; decide)
    | (with_reducible apply Keep.step State.latchSeat_keep; decide)
    | with_reducible apply Keep.setTraf
    | exact fun k => absurd k (by decide)
    | with_reducible exact fun _ => rfl
    | with_reducible rfl
    | decide
    | with_reducible refine Keep.foldl ?_ (fun _ _ => ?_)
    | with_reducible refine Keep.foldlFst ?_ (fun _ _ => ?_)
    | with_reducible refine Keep.foldlSnd ?_ (fun _ _ => ?_)
    | with_reducible refine Keep.getD ?_ ?_
    | with_reducible apply Keep.ite
    | with_reducible apply Keep.iteFst
    | with_reducible apply Keep.iteSnd
    | split
    | dsimp only

theorem execDemandLatch_keep {c : CoreId} {meanFrame : List Nat} {ut : Nat} {s : State} :
    KeepX 31489746731522046 s (execDemandLatch c meanFrame ut s) := by
  unfold execDemandLatch; try dsimp only
  repeat' first
    | with_reducible exact Keep.rfl'
    | with_reducible assumption
    | (with_reducible apply Keep.step State.arrive_keep; decide)
    | (with_reducible apply Keep.step State.latchDemand_keep; decide)
    | with_reducible refine KeepX.next ?_
    | with_reducible apply Keep.ite
    | split
    | dsimp only

theorem State.policyTick_keep {s : State} {m : Nat} :
    Keep 72022237862940095 s (State.policyTick s m) := by
  unfold State.policyTick; try dsimp only
  repeat' first
    | with_reducible exact Keep.rfl'
    | with_reducible assumption
    | (with_reducible apply Keep.step State.readyItem_keep; decide)
    | (with_reducible apply Keep.step State.setDispatch_keep; decide)
    | with_reducible apply Keep.setTraf
    | exact fun k => absurd k (by decide)
    | with_reducible exact fun _ => rfl
    | with_reducible rfl
    | decide
    | with_reducible apply Keep.ite
    | split
    | dsimp only

theorem execPolicyTick_keep {ut : Nat} {s : State} :
    KeepX 31489841216603582 s (execPolicyTick ut s) := by
  unfold execPolicyTick; try dsimp only
  repeat' first
    | with_reducible exact Keep.rfl'
    | with_reducible assumption
    | (with_reducible apply Keep.step State.arrive_keep; decide)
    | (with_reducible apply Keep.step State.policyTick_keep; decide)
    | with_reducible refine KeepX.next ?_
    | with_reducible apply Keep.ite
    | split
    | dsimp only

theorem State.noteIgnored_keep {s : State} {bad : Bool} :
    Keep 72057559678189567 s (State.noteIgnored s bad) := by
  unfold State.noteIgnored; try dsimp only
  repeat' first
    | with_reducible exact Keep.rfl'
    | with_reducible assumption
    | with_reducible apply Keep.setTraf
    | exact fun k => absurd k (by decide)
    | with_reducible exact fun _ => rfl
    | with_reducible rfl
    | decide
    | with_reducible apply Keep.ite
    | split
    | dsimp only

theorem State.settleBuckets_keep {s : State} {x : Seat} :
    Keep 72057592964186111 s (State.settleBuckets s x) := by
  unfold State.settleBuckets; try dsimp only
  repeat' first
    | with_reducible exact Keep.rfl'
    | with_reducible assumption
    | (with_reducible apply Keep.step State.setSeatTraf_keep; decide)
    | split
    | dsimp only

theorem State.capBuckets_keep {s : State} {x : Seat} :
    Keep 72057592964186111 s (State.capBuckets s x) := by
  unfold State.capBuckets; try dsimp only
  repeat' first
    | with_reducible exact Keep.rfl'
    | with_reducible assumption
    | (with_reducible apply Keep.step State.setSeatTraf_keep; decide)
    | split
    | dsimp only

theorem State.writeWeights_keep {s : State} {w : Via} {x : Seat} {v : W64} :
    Keep 72057556456964095 s (State.writeWeights s w x v) := by
  unfold State.writeWeights; try dsimp only
  repeat' first
    | with_reducible exact Keep.rfl'
    | with_reducible assumption
    | (with_reducible apply Keep.step State.noteIgnored_keep; decide)
    | (with_reducible apply Keep.step State.setSeatTraf_keep; decide)
    | (with_reducible apply Keep.step State.tagHeads_keep; decide)
    | with_reducible refine Keep.step (State.tagHeads_keepE (by assumption)) (by decide) ?_
    | with_reducible apply Keep.ite
    | split
    | dsimp only

theorem State.writeBucket_keep {s : State} {w : Via} {x : Seat} {get : SeatTraf → W64} {put : SeatTraf → W64 → SeatTraf} {b : IsletTraf → Bounds} {v : W64} :
    Keep 72057558604447743 s (State.writeBucket s w x get put b v) := by
  unfold State.writeBucket; try dsimp only
  repeat' first
    | with_reducible exact Keep.rfl'
    | with_reducible assumption
    | (with_reducible apply Keep.step State.capBuckets_keep; decide)
    | (with_reducible apply Keep.step State.noteIgnored_keep; decide)
    | (with_reducible apply Keep.step State.setSeatTraf_keep; decide)
    | (with_reducible apply Keep.step State.settleBuckets_keep; decide)
    | split
    | dsimp only

theorem State.writeAllot_keep {s : State} {w : Via} {r : AllotReg} {v : W64} :
    Keep 72022148746567679 s (State.writeAllot s w r v) := by
  unfold State.writeAllot; try dsimp only
  repeat' first
    | with_reducible exact Keep.rfl'
    | with_reducible assumption
    | (with_reducible apply Keep.step State.noteIgnored_keep; decide)
    | (with_reducible apply Keep.step State.powerAllowed_keep; decide)
    | (with_reducible apply Keep.step State.setIsletTraf_keep; decide)
    | (with_reducible apply Keep.step State.setSeatTraf_keep; decide)
    | (with_reducible apply Keep.step State.writeBucket_keep; decide)
    | (with_reducible apply Keep.step State.writeWeights_keep; decide)
    | with_reducible apply Keep.ite
    | split
    | dsimp only

theorem execAllotmentWrite_keep {w : Via} {r : AllotReg} {v : W64} {s : State} :
    KeepX 72022148746567679 s (execAllotmentWrite w r v s) := by
  unfold execAllotmentWrite; try dsimp only
  repeat' first
    | with_reducible exact Keep.rfl'
    | with_reducible assumption
    | (with_reducible apply Keep.step State.writeAllot_keep; decide)
    | with_reducible refine KeepX.next ?_
    | with_reducible apply Keep.ite
    | split
    | dsimp only

theorem State.clampSeat_keep {s : State} {x : Seat} {t : IsletTraf} :
    Keep 72022200286175231 s (State.clampSeat s x t) := by
  unfold State.clampSeat; try dsimp only
  repeat' first
    | with_reducible exact Keep.rfl'
    | with_reducible assumption
    | (with_reducible apply Keep.step State.powerAllowed_keep; decide)
    | (with_reducible apply Keep.step State.setSeatTraf_keep; decide)
    | (with_reducible apply Keep.step State.settleBuckets_keep; decide)
    | (with_reducible apply Keep.step State.tagHeads_keep; decide)
    | with_reducible refine Keep.step (State.tagHeads_keepE (by assumption)) (by decide) ?_
    | split
    | dsimp only

theorem State.writeBound_keep {s : State} {w : Via} {i : IsletNo} {r : BoundReg} {v : W64} :
    Keep 72022183106306047 s (State.writeBound s w i r v) := by
  unfold State.writeBound; try dsimp only
  repeat' first
    | with_reducible exact Keep.rfl'
    | with_reducible assumption
    | (with_reducible apply Keep.step State.clampSeat_keep; decide)
    | (with_reducible apply Keep.step State.setIsletTraf_keep; decide)
    | with_reducible refine Keep.foldl ?_ (fun _ _ => ?_)
    | with_reducible refine Keep.foldlFst ?_ (fun _ _ => ?_)
    | with_reducible refine Keep.foldlSnd ?_ (fun _ _ => ?_)
    | with_reducible apply Keep.ite
    | with_reducible apply Keep.iteFst
    | with_reducible apply Keep.iteSnd
    | split
    | dsimp only

theorem execBoundWrite_keep {w : Via} {i : IsletNo} {r : BoundReg} {v : W64} {s : State} :
    KeepX 72022183106306047 s (execBoundWrite w i r v s) := by
  unfold execBoundWrite; try dsimp only
  repeat' first
    | with_reducible exact Keep.rfl'
    | with_reducible assumption
    | (with_reducible apply Keep.step State.writeBound_keep; decide)
    | with_reducible refine KeepX.next ?_
    | with_reducible apply Keep.ite
    | split
    | dsimp only

theorem State.writePolicy_keep {s : State} {v : W64} :
    Keep 72057559678189567 s (State.writePolicy s v) := by
  unfold State.writePolicy; try dsimp only
  repeat' first
    | with_reducible exact Keep.rfl'
    | with_reducible assumption
    | with_reducible apply Keep.setTraf
    | exact fun k => absurd k (by decide)
    | with_reducible exact fun _ => rfl
    | with_reducible rfl
    | decide
    | with_reducible apply Keep.ite
    | split
    | dsimp only

theorem execPolicyControlWrite_keep {w : Via} {v : W64} {s : State} :
    KeepX 72057559678189567 s (execPolicyControlWrite w v s) := by
  unfold execPolicyControlWrite; try dsimp only
  repeat' first
    | with_reducible exact Keep.rfl'
    | with_reducible assumption
    | (with_reducible apply Keep.step State.writePolicy_keep; decide)
    | with_reducible refine KeepX.next ?_
    | with_reducible apply Keep.ite
    | split
    | dsimp only

end Sys2Proof.Machine
end

