-- ==== Sys2Proof/Laws/KeepFabric.lean ====
section
/-! SUPPORT. What the operations of Machine/Fabric.lean may change: one lemma each. -/

namespace Sys2Proof.Machine

theorem State.removeFrame_keep {s : State} {c : CoreId} {key : Nat} :
    Keep 72057593501057023 s (State.removeFrame s c key) := by
  unfold State.removeFrame; try dsimp only
  repeat' first
    | with_reducible exact Keep.rfl'
    | with_reducible assumption
    | (with_reducible apply Keep.step State.leaveOutput_keep; decide)
    | (with_reducible apply Keep.step State.setFabCore_keep; decide)
    | with_reducible refine Keep.foldl ?_ (fun _ _ => ?_)
    | with_reducible refine Keep.foldlFst ?_ (fun _ _ => ?_)
    | with_reducible refine Keep.foldlSnd ?_ (fun _ _ => ?_)
    | split
    | dsimp only

theorem State.passOn_keep {s : State} {c : CoreId} {key : Nat} :
    Keep 72022268296814591 s (State.passOn s c key) := by
  unfold State.passOn; try dsimp only
  repeat' first
    | with_reducible exact Keep.rfl'
    | with_reducible assumption
    | (with_reducible apply Keep.step State.copyArrives_keep; decide)
    | (with_reducible apply Keep.step State.setFabCore_keep; decide)
    | with_reducible apply Keep.ite
    | split
    | dsimp only

theorem State.behindTrunk_keep {s : State} {c : CoreId} {t : Fin 3} {f : FabFrame} {o : Nat} {key : Option Nat} :
    Keep 72022268296814591 s (State.behindTrunk s c t f o key) := by
  unfold State.behindTrunk; try dsimp only
  repeat' first
    | with_reducible exact Keep.rfl'
    | with_reducible assumption
    | (with_reducible apply Keep.step State.passOn_keep; decide)
    | (with_reducible apply Keep.step State.setFabCore_keep; decide)
    | with_reducible refine Keep.foldl ?_ (fun _ _ => ?_)
    | with_reducible refine Keep.foldlFst ?_ (fun _ _ => ?_)
    | with_reducible refine Keep.foldlSnd ?_ (fun _ _ => ?_)
    | split
    | dsimp only

theorem State.skipInto_keep {s : State} {c : CoreId} {o : Nat} {key : Nat} :
    Keep 72022268296814591 s (State.skipInto s c o key) := by
  unfold State.skipInto; try dsimp only
  repeat' first
    | with_reducible exact Keep.rfl'
    | with_reducible assumption
    | (with_reducible apply Keep.step State.behindTrunk_keep; decide)
    | split
    | dsimp only

theorem State.discardOut_keep {s : State} {c : CoreId} {o : Nat} {key : Nat} :
    Keep 72022268296814591 s (State.discardOut s c o key) := by
  unfold State.discardOut; try dsimp only
  repeat' first
    | with_reducible exact Keep.rfl'
    | with_reducible assumption
    | (with_reducible apply Keep.step State.leaveOutput_keep; decide)
    | (with_reducible apply Keep.step State.setFabPort_keep; decide)
    | (with_reducible apply Keep.step State.skipInto_keep; decide)
    | split
    | dsimp only

theorem State.discardQueued_keep {s : State} {c : CoreId} {o : Nat} :
    Keep 72022268296814591 s (State.discardQueued s c o) := by
  unfold State.discardQueued; try dsimp only
  repeat' first
    | with_reducible exact Keep.rfl'
    | with_reducible assumption
    | (with_reducible apply Keep.step State.discardOut_keep; decide)
    | (with_reducible apply Keep.step State.setFabPort_keep; decide)
    | with_reducible refine Keep.foldl ?_ (fun _ _ => ?_)
    | with_reducible refine Keep.foldlFst ?_ (fun _ _ => ?_)
    | with_reducible refine Keep.foldlSnd ?_ (fun _ _ => ?_)
    | split
    | dsimp only

theorem State.causewayTrunk_keep {s : State} {c : CoreId} {up : Bool} :
    Keep 72022268296814591 s (State.causewayTrunk s c up) := by
  unfold State.causewayTrunk; try dsimp only
  repeat' first
    | with_reducible exact Keep.rfl'
    | with_reducible assumption
    | (with_reducible apply Keep.step State.discardQueued_keep; decide)
    | (with_reducible apply Keep.step State.setFabCore_keep; decide)
    | (with_reducible apply Keep.step State.setPortState_keep; decide)
    | with_reducible refine Keep.foldl ?_ (fun _ _ => ?_)
    | with_reducible refine Keep.foldlFst ?_ (fun _ _ => ?_)
    | with_reducible refine Keep.foldlSnd ?_ (fun _ _ => ?_)
    | with_reducible apply Keep.ite
    | with_reducible apply Keep.iteFst
    | with_reducible apply Keep.iteSnd
    | split
    | dsimp only

theorem State.firstUnicast_keep {s : State} {c : CoreId} {x : CellIn} :
    Keep 72022271690006527 s (State.firstUnicast s c x).2 := by
  unfold State.firstUnicast; try dsimp only
  repeat' first
    | with_reducible exact Keep.rfl'
    | with_reducible assumption
    | (with_reducible apply Keep.step State.noteRefusal_keep; decide)
    | (with_reducible apply Keep.step State.storeFrame_keep; decide)
    | with_reducible refine Keep.step (State.storeFrame_keepE (by assumption)) (by decide) ?_
    | split
    | dsimp only
theorem State.firstUnicast_keepE {s : State} {c : CoreId} {x : CellIn} {rE tE} (hE : (State.firstUnicast s c x) = (rE, tE)) : Keep 72022271690006527 s tE := by
  have k := @State.firstUnicast_keep s c x; rw [hE] at k; exact k

theorem State.firstMulticast_keep {s : State} {c : CoreId} {x : CellIn} :
    Keep 72022271690006527 s (State.firstMulticast s c x).2 := by
  unfold State.firstMulticast; try dsimp only
  repeat' first
    | with_reducible exact Keep.rfl'
    | with_reducible assumption
    | (with_reducible apply Keep.step State.noteRefusal_keep; decide)
    | (with_reducible apply Keep.step State.storeFrame_keep; decide)
    | with_reducible refine Keep.step (State.storeFrame_keepE (by assumption)) (by decide) ?_
    | with_reducible apply Keep.ite
    | with_reducible apply Keep.iteSnd
    | split
    | dsimp only
theorem State.firstMulticast_keepE {s : State} {c : CoreId} {x : CellIn} {rE tE} (hE : (State.firstMulticast s c x) = (rE, tE)) : Keep 72022271690006527 s tE := by
  have k := @State.firstMulticast_keep s c x; rw [hE] at k; exact k

theorem State.refusedCell_keep {s : State} {c : CoreId} {p : Nat} :
    KeepO 72022271690006527 s (State.refusedCell s c p) := by
  unfold State.refusedCell; try dsimp only
  repeat' first
    | with_reducible exact Keep.rfl'
    | with_reducible assumption
    | (with_reducible apply Keep.step State.bumpSeat_keep; decide)
    | (with_reducible apply Keep.step State.discardAt_keep; decide)
    | with_reducible exact KeepO.none
    | with_reducible refine KeepO.some ?_
    | with_reducible apply Keep.ite
    | split
    | dsimp only

theorem State.stageCell_keep {s : State} {c : CoreId} {x : CellIn} {key : Nat} :
    Keep 72022409128968191 s (State.stageCell s c x key) := by
  unfold State.stageCell; try dsimp only
  repeat' first
    | with_reducible exact Keep.rfl'
    | with_reducible assumption
    | (with_reducible apply Keep.step State.bumpSeat_keep; decide)
    | (with_reducible apply Keep.step State.bwCount_keep; decide)
    | (with_reducible apply Keep.step State.setFabCore_keep; decide)
    | (with_reducible apply Keep.step State.setFabPort_keep; decide)
    | with_reducible apply Keep.ite
    | split
    | dsimp only

theorem State.passOver_keep {s : State} {c : CoreId} {x : CellIn} :
    Keep 72057593501057023 s (State.passOver s c x) := by
  unfold State.passOver; try dsimp only
  repeat' first
    | with_reducible exact Keep.rfl'
    | with_reducible assumption
    | (with_reducible apply Keep.step State.setFabPort_keep; decide)
    | with_reducible apply Keep.ite
    | split
    | dsimp only

theorem State.takeCell_keep {s : State} {c : CoreId} {x : CellIn} :
    Keep 72022271690006527 s (State.takeCell s c x) := by
  unfold State.takeCell; try dsimp only
  repeat' first
    | with_reducible exact Keep.rfl'
    | with_reducible assumption
    | (with_reducible apply Keep.step State.discardAt_keep; decide)
    | (with_reducible apply Keep.step State.firstMulticast_keep; decide)
    | with_reducible refine Keep.step (State.firstMulticast_keepE (by assumption)) (by decide) ?_
    | (with_reducible apply Keep.step State.firstUnicast_keep; decide)
    | with_reducible refine Keep.step (State.firstUnicast_keepE (by assumption)) (by decide) ?_
    | (with_reducible apply Keep.step State.passOver_keep; decide)
    | with_reducible refine Keep.step (KeepO.of State.refusedCell_keep (by assumption)) (by decide) ?_
    | (with_reducible apply KeepO.step State.refusedCell_keep; decide)
    | (with_reducible apply Keep.step State.stageCell_keep; decide)
    | with_reducible apply Keep.ite
    | split
    | dsimp only

theorem State.movePointers_keep {s : State} {c : CoreId} {ms : List Match} :
    Keep 72057593501057023 s (State.movePointers s c ms) := by
  unfold State.movePointers; try dsimp only
  repeat' first
    | with_reducible exact Keep.rfl'
    | with_reducible assumption
    | (with_reducible apply Keep.step State.setFabPort_keep; decide)
    | with_reducible refine Keep.foldl ?_ (fun _ _ => ?_)
    | with_reducible refine Keep.foldlFst ?_ (fun _ _ => ?_)
    | with_reducible refine Keep.foldlSnd ?_ (fun _ _ => ?_)
    | split
    | dsimp only

theorem State.crossCells_keep {s : State} {c : CoreId} {ms : List Match} :
    Keep 72057593501057023 s (State.crossCells s c ms) := by
  unfold State.crossCells; try dsimp only
  repeat' first
    | with_reducible exact Keep.rfl'
    | with_reducible assumption
    | (with_reducible apply Keep.step State.setFabCore_keep; decide)
    | (with_reducible apply Keep.step State.setFabPort_keep; decide)
    | with_reducible refine Keep.foldl ?_ (fun _ _ => ?_)
    | with_reducible refine Keep.foldlFst ?_ (fun _ _ => ?_)
    | with_reducible refine Keep.foldlSnd ?_ (fun _ _ => ?_)
    | with_reducible apply Keep.ite
    | with_reducible apply Keep.iteFst
    | with_reducible apply Keep.iteSnd
    | split
    | dsimp only

theorem State.reseqTimeout_keepH {K : Nat} {s x : State} {c : CoreId} {key : Nat} {use : State → Nat → State}
    (hx : Keep K s x) (e : K &&& 72022271690006527 = K) (hf : ∀ y f, Keep K y (use y f)) :
    Keep K s (State.reseqTimeout x c key use) := by
  unfold State.reseqTimeout; dsimp only
  split
  · exact hx
  · split
    · exact Keep.foldl (Keep.step State.count_keep (by rw [← e, Nat.and_assoc]; rfl)
        (Keep.step State.edge_keep (by rw [← e, Nat.and_assoc]; rfl)
          (Keep.step State.setFabCore_keep (by rw [← e, Nat.and_assoc]; rfl) hx))) hf
    · exact hx

theorem State.enterQueue_keep {s : State} {c : CoreId} {o : Nat} {key : Nat} :
    Keep 72057590275637247 s (State.enterQueue s c o key) := by
  unfold State.enterQueue; try dsimp only
  repeat' first
    | with_reducible exact Keep.rfl'
    | with_reducible assumption
    | (with_reducible apply Keep.step State.enterTun_keep; decide)
    | (with_reducible apply Keep.step State.setFabPort_keep; decide)
    | with_reducible apply Keep.ite
    | split
    | dsimp only

theorem State.enterOwn_keep {s : State} {c : CoreId} {o : Nat} {key : Nat} :
    Keep 72057590275637247 s (State.enterOwn s c o key) := by
  unfold State.enterOwn; try dsimp only
  repeat' first
    | with_reducible exact Keep.rfl'
    | with_reducible assumption
    | (with_reducible apply Keep.step State.enterQueue_keep; decide)
    | split
    | dsimp only

theorem State.passReseq_keep {s : State} {c : CoreId} {o : Nat} {key : Nat} {ok : Bool} :
    Keep 72057590275637247 s (State.passReseq s c o key ok) := by
  unfold State.passReseq; try dsimp only
  repeat' first
    | with_reducible exact Keep.rfl'
    | with_reducible assumption
    | (with_reducible apply Keep.step State.enterOwn_keep; decide)
    | (with_reducible apply Keep.step State.enterQueue_keep; decide)
    | (with_reducible apply Keep.step State.setFabCore_keep; decide)
    | with_reducible refine Keep.foldl ?_ (fun _ _ => ?_)
    | with_reducible refine Keep.foldlFst ?_ (fun _ _ => ?_)
    | with_reducible refine Keep.foldlSnd ?_ (fun _ _ => ?_)
    | with_reducible apply Keep.ite
    | with_reducible apply Keep.iteFst
    | with_reducible apply Keep.iteSnd
    | split
    | dsimp only

theorem State.skipNumbers_keep {s : State} {c : CoreId} {key : Nat} :
    Keep 72022268296814591 s (State.skipNumbers s c key) := by
  unfold State.skipNumbers; try dsimp only
  repeat' first
    | with_reducible exact Keep.rfl'
    | with_reducible assumption
    | (with_reducible apply Keep.step State.passReseq_keep; decide)
    | (with_reducible apply Keep.step State.skipInto_keep; decide)
    | with_reducible refine Keep.foldl ?_ (fun _ _ => ?_)
    | with_reducible refine Keep.foldlFst ?_ (fun _ _ => ?_)
    | with_reducible refine Keep.foldlSnd ?_ (fun _ _ => ?_)
    | split
    | dsimp only

theorem State.verdictOf_keep {s : State} {c : CoreId} {l : Nat × Nat} :
    Keep 72022268296814591 s (State.verdictOf s c l) := by
  unfold State.verdictOf; try dsimp only
  repeat' first
    | with_reducible exact Keep.rfl'
    | with_reducible assumption
    | (with_reducible apply Keep.step State.discardAt_keep; decide)
    | (with_reducible apply Keep.step State.passReseq_keep; decide)
    | (with_reducible apply Keep.step State.removeFrame_keep; decide)
    | (with_reducible apply Keep.step State.skipNumbers_keep; decide)
    | split
    | dsimp only

theorem State.landFrames_keep {s : State} {c : CoreId} {p : Nat} :
    Keep 72022268296814591 s (State.landFrames s c p) := by
  unfold State.landFrames; try dsimp only
  repeat' first
    | with_reducible exact Keep.rfl'
    | with_reducible assumption
    | (with_reducible apply Keep.step State.setFabCore_keep; decide)
    | (with_reducible apply Keep.step State.verdictOf_keep; decide)
    | with_reducible refine Keep.foldl ?_ (fun _ _ => ?_)
    | with_reducible refine Keep.foldlFst ?_ (fun _ _ => ?_)
    | with_reducible refine Keep.foldlSnd ?_ (fun _ _ => ?_)
    | with_reducible apply Keep.ite
    | with_reducible apply Keep.iteFst
    | with_reducible apply Keep.iteSnd
    | split
    | dsimp only

theorem State.frameSent_keep {s : State} {c : CoreId} {o : Nat} {key : Nat} :
    Keep 72022268296814591 s (State.frameSent s c o key) := by
  unfold State.frameSent; try dsimp only
  repeat' first
    | with_reducible exact Keep.rfl'
    | with_reducible assumption
    | (with_reducible apply Keep.step State.behindTrunk_keep; decide)
    | (with_reducible apply Keep.step State.bwCount_keep; decide)
    | (with_reducible apply Keep.step State.leaveOutput_keep; decide)
    | (with_reducible apply Keep.step State.setFabCore_keep; decide)
    | split
    | dsimp only

theorem State.sendCellTime_keep {s : State} {c : CoreId} {o : Nat} :
    Keep 72022268296814591 s (State.sendCellTime s c o) := by
  unfold State.sendCellTime; try dsimp only
  repeat' first
    | with_reducible exact Keep.rfl'
    | with_reducible assumption
    | (with_reducible apply Keep.step State.discardOut_keep; decide)
    | (with_reducible apply Keep.step State.frameSent_keep; decide)
    | (with_reducible apply Keep.step State.setFabPort_keep; decide)
    | with_reducible apply Keep.ite
    | split
    | dsimp only

theorem State.cellTime_keep {s : State} {c : CoreId} {offered : List CellIn} :
    Keep 72022268296814591 s (State.cellTime s c offered) := by
  unfold State.cellTime; try dsimp only
  repeat' first
    | with_reducible exact Keep.rfl'
    | with_reducible assumption
    | (with_reducible apply Keep.step State.crossCells_keep; decide)
    | (with_reducible apply Keep.step State.movePointers_keep; decide)
    | (with_reducible apply Keep.step State.offerKept_keep; decide)
    | (with_reducible apply Keep.step State.sendCellTime_keep; decide)
    | (with_reducible apply Keep.step State.takeCell_keep; decide)
    | with_reducible refine Keep.foldl ?_ (fun _ _ => ?_)
    | with_reducible refine Keep.foldlFst ?_ (fun _ _ => ?_)
    | with_reducible refine Keep.foldlSnd ?_ (fun _ _ => ?_)
    | split
    | dsimp only

theorem execCellTime_keep {c : CoreId} {offered : List CellIn} {s : State} :
    KeepX 72022268296814591 s (execCellTime c offered s) := by
  unfold execCellTime; try dsimp only
  repeat' first
    | with_reducible exact Keep.rfl'
    | with_reducible assumption
    | (with_reducible apply Keep.step State.cellTime_keep; decide)
    | with_reducible refine KeepX.next ?_
    | with_reducible apply Keep.ite
    | split
    | dsimp only

theorem execFrameVerdict_keep {c : CoreId} {p : Fin 160} {s : State} :
    KeepX 72022268296814591 s (execFrameVerdict c p s) := by
  unfold execFrameVerdict; try dsimp only
  repeat' first
    | with_reducible exact Keep.rfl'
    | with_reducible assumption
    | (with_reducible apply Keep.step State.landFrames_keep; decide)
    | with_reducible refine KeepX.next ?_
    | with_reducible apply Keep.ite
    | split
    | dsimp only

theorem State.reseqDue_keep {s : State} {c : CoreId} {o : Nat} {t : Fin 3} {k : Nat} :
    Keep 72022268296814591 s (State.reseqDue s c o t k) := by
  unfold State.reseqDue; try dsimp only
  repeat' first
    | with_reducible exact Keep.rfl'
    | with_reducible assumption
    | (with_reducible apply Keep.step State.enterOwn_keep; decide)
    | (with_reducible apply Keep.step State.passOn_keep; decide)
    | with_reducible apply State.reseqTimeout_keepH
    | decide
    | intro _
    | split
    | dsimp only

theorem execResequencerTimeout_keep {c : CoreId} {output : Fin 160} {trunk : Fin 3} {cls : Fin 8} {ut : Nat} {s : State} :
    KeepX 31489871650478078 s (execResequencerTimeout c output trunk cls ut s) := by
  unfold execResequencerTimeout; try dsimp only
  repeat' first
    | with_reducible exact Keep.rfl'
    | with_reducible assumption
    | (with_reducible apply Keep.step State.arrive_keep; decide)
    | (with_reducible apply Keep.step State.reseqDue_keep; decide)
    | with_reducible refine KeepX.next ?_
    | split
    | dsimp only

theorem State.writeGroup_keep {s : State} {w : Via} {c : CoreId} {g : Nat} {word1 : Bool} {v : W64} :
    Keep 72022271690006527 s (State.writeGroup s w c g word1 v) := by
  unfold State.writeGroup; try dsimp only
  repeat' first
    | with_reducible exact Keep.rfl'
    | with_reducible assumption
    | (with_reducible apply Keep.step State.landGroup_keep; decide)
    | (with_reducible apply Keep.step State.setFabCore_keep; decide)
    | with_reducible apply Keep.ite
    | split
    | dsimp only

theorem execFabMcastWrite_keep {w : Via} {c : CoreId} {g : Fin 256} {word1 : Bool} {v : W64} {s : State} :
    KeepX 72022271690006527 s (execFabMcastWrite w c g word1 v s) := by
  unfold execFabMcastWrite; try dsimp only
  repeat' first
    | with_reducible exact Keep.rfl'
    | with_reducible assumption
    | (with_reducible apply Keep.step State.writeGroup_keep; decide)
    | with_reducible refine KeepX.next ?_
    | with_reducible apply Keep.ite
    | split
    | dsimp only

theorem State.generationsRetire_keep {s : State} {c : CoreId} {g : Nat} :
    Keep 72022268162596863 s (State.generationsRetire s c g) := by
  unfold State.generationsRetire; try dsimp only
  repeat' first
    | with_reducible exact Keep.rfl'
    | with_reducible assumption
    | (with_reducible apply Keep.step State.retireGroup_keep; decide)
    | (with_reducible apply Keep.step State.sendOwed_keep; decide)
    | with_reducible refine Keep.foldl ?_ (fun _ _ => ?_)
    | with_reducible refine Keep.foldlFst ?_ (fun _ _ => ?_)
    | with_reducible refine Keep.foldlSnd ?_ (fun _ _ => ?_)
    | with_reducible apply Keep.ite
    | with_reducible apply Keep.iteFst
    | with_reducible apply Keep.iteSnd
    | split
    | dsimp only

theorem execGenerationRetire_keep {c : CoreId} {g : Fin 256} {s : State} :
    KeepX 72022268162596863 s (execGenerationRetire c g s) := by
  unfold execGenerationRetire; try dsimp only
  repeat' first
    | with_reducible exact Keep.rfl'
    | with_reducible assumption
    | (with_reducible apply Keep.step State.generationsRetire_keep; decide)
    | with_reducible refine KeepX.next ?_
    | split
    | dsimp only

theorem State.writeOutMin_keep {s : State} {c : CoreId} {p : Nat} {v : W64} :
    Keep 72022271690006527 s (State.writeOutMin s c p v) := by
  unfold State.writeOutMin; try dsimp only
  repeat' first
    | with_reducible exact Keep.rfl'
    | with_reducible assumption
    | (with_reducible apply Keep.step State.poolAlarm_keep; decide)
    | (with_reducible apply Keep.step State.setFabCore_keep; decide)
    | (with_reducible apply Keep.step State.setFabPort_keep; decide)
    | with_reducible apply Keep.ite
    | split
    | dsimp only

theorem State.outMinWrite_keep {s : State} {w : Via} {c : CoreId} {p : Nat} {v : W64} :
    Keep 72022271690006527 s (State.outMinWrite s w c p v) := by
  unfold State.outMinWrite; try dsimp only
  repeat' first
    | with_reducible exact Keep.rfl'
    | with_reducible assumption
    | (with_reducible apply Keep.step State.setFabCore_keep; decide)
    | (with_reducible apply Keep.step State.writeOutMin_keep; decide)
    | with_reducible apply Keep.ite
    | split
    | dsimp only

theorem execFabOutMinWrite_keep {w : Via} {c : CoreId} {p : Fin 160} {v : W64} {s : State} :
    KeepX 72022271690006527 s (execFabOutMinWrite w c p v s) := by
  unfold execFabOutMinWrite; try dsimp only
  repeat' first
    | with_reducible exact Keep.rfl'
    | with_reducible assumption
    | (with_reducible apply Keep.step State.outMinWrite_keep; decide)
    | with_reducible refine KeepX.next ?_
    | split
    | dsimp only

end Sys2Proof.Machine
end

