-- ==== Sys2Proof/Laws/KeepItems.lean ====
section
/-! SUPPORT. What the operations of Machine/Items.lean may change: one lemma each. -/

namespace Sys2Proof.Machine

theorem State.freeImages_keep {s : State} {c : CoreId} :
    Keep 72057594037926911 s (State.freeImages s c) := by
  unfold State.freeImages; try dsimp only
  repeat' first
    | with_reducible exact Keep.rfl'
    | with_reducible assumption
    | (with_reducible apply Keep.step State.setStore_keep; decide)
    | split
    | dsimp only

theorem State.vacate_keep {s : State} {c : CoreId} {t : TeNo} :
    Keep 72057594037925887 s (State.vacate s c t) := by
  unfold State.vacate; try dsimp only
  repeat' first
    | with_reducible exact Keep.rfl'
    | with_reducible assumption
    | (with_reducible apply Keep.step State.setTeSt_keep; decide)
    | (with_reducible apply Keep.step State.startStaged_keep; decide)
    | split
    | dsimp only

theorem State.noteStore_keep {s : State} {c : CoreId} {fl : BitVec 24} {i : IsletNo} {o : Nat} {b : List Byte} :
    Keep 72057594037911551 s (State.noteStore s c fl i o b) := by
  unfold State.noteStore; try dsimp only
  repeat' first
    | with_reducible exact Keep.rfl'
    | with_reducible assumption
    | with_reducible apply Keep.setMem
    | exact fun k => absurd k (by decide)
    | with_reducible exact fun _ => rfl
    | with_reducible rfl
    | decide
    | exact fun _ h => h
    | with_reducible apply Keep.ite
    | split
    | dsimp only

theorem State.copyStore_keep {s : State} {c : CoreId} {x : Option Seat} {i : IsletNo} {o : Nat} {b : List Byte} :
    Keep 72057594037911551 s (State.copyStore s c x i o b) := by
  unfold State.copyStore; try dsimp only
  repeat' first
    | with_reducible exact Keep.rfl'
    | with_reducible assumption
    | with_reducible apply Keep.setDue
    | with_reducible apply Keep.setIsw
    | decide
    | with_reducible apply writeBytes_wf
    | with_reducible apply writeNat_wf
    | with_reducible apply foldl_mem_wf
    | exact State.isw_wf (by assumption)
    | exact State.due_wf (by assumption)
    | exact State.dram_wf (by assumption)
    | with_reducible rfl
    | intro _
    | with_reducible apply Keep.ite
    | split
    | dsimp only

theorem State.copyStores_keep {s : State} {c : CoreId} {t : TeNo} {it : Item} :
    Keep 72022272226861055 s (State.copyStores s c t it) := by
  unfold State.copyStores; try dsimp only
  repeat' first
    | with_reducible exact Keep.rfl'
    | with_reducible assumption
    | (with_reducible apply Keep.step State.copyStore_keep; decide)
    | (with_reducible apply Keep.step State.sentAll_keep; decide)
    | (with_reducible apply Keep.step State.transit_keep; decide)
    | with_reducible refine Keep.foldl ?_ (fun _ _ => ?_)
    | with_reducible refine Keep.foldlFst ?_ (fun _ _ => ?_)
    | with_reducible refine Keep.foldlSnd ?_ (fun _ _ => ?_)
    | split
    | dsimp only

theorem State.settleSource_keep {s : State} {it : Item} :
    Keep 72057594033733631 s (State.settleSource s it) := by
  unfold State.settleSource; try dsimp only
  repeat' first
    | with_reducible exact Keep.rfl'
    | with_reducible assumption
    | (with_reducible apply Keep.step State.actDone_keep; decide)
    | with_reducible apply Keep.ite
    | split
    | dsimp only

theorem State.noteDone_keep {s : State} {c : CoreId} {t : TeNo} {it : Item} :
    Keep 72057594037921791 s (State.noteDone s c t it) := by
  unfold State.noteDone; try dsimp only
  repeat' first
    | with_reducible exact Keep.rfl'
    | with_reducible assumption
    | (with_reducible apply Keep.step State.setDispatch_keep; decide)
    | (with_reducible apply Keep.step State.setTeSt_keep; decide)
    | split
    | dsimp only

theorem State.clearAborts_keep {s : State} {c : CoreId} {r : Run} :
    Keep 72057594037926911 s (State.clearAborts s c r) := by
  unfold State.clearAborts; try dsimp only
  repeat' first
    | with_reducible exact Keep.rfl'
    | with_reducible assumption
    | (with_reducible apply Keep.step State.setStore_keep; decide)
    | with_reducible refine Keep.foldl ?_ (fun _ _ => ?_)
    | with_reducible refine Keep.foldlFst ?_ (fun _ _ => ?_)
    | with_reducible refine Keep.foldlSnd ?_ (fun _ _ => ?_)
    | with_reducible apply Keep.ite
    | with_reducible apply Keep.iteFst
    | with_reducible apply Keep.iteSnd
    | split
    | dsimp only

theorem State.notePolicy_keep {s : State} {c : CoreId} {r : Run} :
    Keep 72057559678189567 s (State.notePolicy s c r) := by
  unfold State.notePolicy; try dsimp only
  repeat' first
    | with_reducible exact Keep.rfl'
    | with_reducible assumption
    | with_reducible apply Keep.setTraf
    | exact fun k => absurd k (by decide)
    | with_reducible exact fun _ => rfl
    | with_reducible rfl
    | decide
    | with_reducible apply Keep.ite
    | split
    | dsimp only

theorem State.endItem_keep {s : State} {c : CoreId} {t : TeNo} {r : Run} :
    Keep 72022234104398591 s (State.endItem s c t r) := by
  unfold State.endItem; try dsimp only
  repeat' first
    | with_reducible exact Keep.rfl'
    | with_reducible assumption
    | (with_reducible apply Keep.step State.clearAborts_keep; decide)
    | (with_reducible apply Keep.step State.copyStores_keep; decide)
    | (with_reducible apply Keep.step State.freeImages_keep; decide)
    | (with_reducible apply Keep.step State.noteDone_keep; decide)
    | (with_reducible apply Keep.step State.notePolicy_keep; decide)
    | (with_reducible apply Keep.step State.sealScript_keep; decide)
    | (with_reducible apply Keep.step State.settleSource_keep; decide)
    | (with_reducible apply Keep.step State.vacate_keep; decide)
    | split
    | dsimp only

theorem State.suspend_keep {s : State} {c : CoreId} {t : TeNo} {r : Run} {rd : Reg} :
    Keep 72022268464137407 s (State.suspend s c t r rd) := by
  unfold State.suspend; try dsimp only
  repeat' first
    | with_reducible exact Keep.rfl'
    | with_reducible assumption
    | (with_reducible apply Keep.step State.copyStores_keep; decide)
    | (with_reducible apply Keep.step State.holdCheck_keep; decide)
    | (with_reducible apply Keep.step State.sealScript_keep; decide)
    | (with_reducible apply Keep.step State.setDispatch_keep; decide)
    | (with_reducible apply Keep.step State.vacate_keep; decide)
    | split
    | dsimp only

theorem State.resumeTick_keep {s : State} {c : CoreId} {t : TeNo} {x : Seat} :
    Keep 72022272222678463 s (State.resumeTick s c t x) := by
  unfold State.resumeTick; try dsimp only
  repeat' first
    | with_reducible exact Keep.rfl'
    | with_reducible assumption
    | (with_reducible apply Keep.step State.readyIn_keep; decide)
    | split
    | dsimp only

theorem execTickResume_keep {c : CoreId} {t : TeNo} {x : Seat} {ut : Nat} {s : State} :
    KeepX 31489875576341950 s (execTickResume c t x ut s) := by
  unfold execTickResume; try dsimp only
  repeat' first
    | with_reducible exact Keep.rfl'
    | with_reducible assumption
    | (with_reducible apply Keep.step State.arrive_keep; decide)
    | (with_reducible apply Keep.step State.resumeTick_keep; decide)
    | (with_reducible apply Keep.step State.teAsk_keep; decide)
    | with_reducible refine KeepX.next ?_
    | split
    | dsimp only

theorem State.unloadUnit_keep {s : State} {slot : Fin 4} :
    Keep 72057594037926911 s (State.unloadUnit s slot) := by
  unfold State.unloadUnit; try dsimp only
  repeat' first
    | with_reducible exact Keep.rfl'
    | with_reducible assumption
    | (with_reducible apply Keep.step State.freeImages_keep; decide)
    | (with_reducible apply Keep.step State.setStore_keep; decide)
    | with_reducible refine Keep.foldl ?_ (fun _ _ => ?_)
    | with_reducible refine Keep.foldlFst ?_ (fun _ _ => ?_)
    | with_reducible refine Keep.foldlSnd ?_ (fun _ _ => ?_)
    | with_reducible apply Keep.ite
    | with_reducible apply Keep.iteFst
    | with_reducible apply Keep.iteSnd
    | split
    | dsimp only

theorem State.countUnitFault_keep {s : State} :
    Keep 72057594037927931 s (State.countUnitFault s) := by
  unfold State.countUnitFault; try dsimp only
  repeat' first
    | with_reducible exact Keep.rfl'
    | with_reducible assumption
    | (with_reducible apply Keep.step State.setPort_keep; decide)
    | with_reducible refine Keep.foldl ?_ (fun _ _ => ?_)
    | with_reducible refine Keep.foldlFst ?_ (fun _ _ => ?_)
    | with_reducible refine Keep.foldlSnd ?_ (fun _ _ => ?_)
    | split
    | dsimp only

theorem State.noteAbort_keep {s : State} {c : CoreId} {r : Run} :
    Keep 72057594037926907 s (State.noteAbort s c r) := by
  unfold State.noteAbort; try dsimp only
  repeat' first
    | with_reducible exact Keep.rfl'
    | with_reducible assumption
    | (with_reducible apply Keep.step State.setPort_keep; decide)
    | (with_reducible apply Keep.step State.setStore_keep; decide)
    | (with_reducible apply Keep.step State.unloadUnit_keep; decide)
    | with_reducible refine Keep.foldl ?_ (fun _ _ => ?_)
    | with_reducible refine Keep.foldlFst ?_ (fun _ _ => ?_)
    | with_reducible refine Keep.foldlSnd ?_ (fun _ _ => ?_)
    | with_reducible apply Keep.ite
    | with_reducible apply Keep.iteFst
    | with_reducible apply Keep.iteSnd
    | split
    | dsimp only

theorem State.dropTokens_keep {s : State} {c : CoreId} {t : TeNo} {slot : Fin 2} :
    Keep 70931694131085311 s (State.dropTokens s c t slot) := by
  unfold State.dropTokens; try dsimp only
  repeat' first
    | with_reducible exact Keep.rfl'
    | with_reducible assumption
    | (with_reducible apply Keep.step State.endReqs_keep; decide)
    | split
    | dsimp only

theorem State.abortItem_keep {s : State} {c : CoreId} {t : TeNo} {r : Run} {code : Nat} :
    Keep 70825965453382267 s (State.abortItem s c t r code) := by
  unfold State.abortItem; try dsimp only
  repeat' first
    | with_reducible exact Keep.rfl'
    | with_reducible assumption
    | (with_reducible apply Keep.step State.bumpIslet_keep; decide)
    | (with_reducible apply Keep.step State.count_keep; decide)
    | (with_reducible apply Keep.step State.countUnitFault_keep; decide)
    | (with_reducible apply Keep.step State.dropTokens_keep; decide)
    | (with_reducible apply Keep.step State.faultRecord_keep; decide)
    | (with_reducible apply Keep.step State.finish_keep; decide)
    | (with_reducible apply Keep.step State.freeImages_keep; decide)
    | (with_reducible apply Keep.step State.logLine_keep; decide)
    | (with_reducible apply Keep.step State.noteAbort_keep; decide)
    | (with_reducible apply Keep.step State.notePolicy_keep; decide)
    | (with_reducible apply Keep.step State.sealScript_keep; decide)
    | (with_reducible apply Keep.step State.setTeSt_keep; decide)
    | (with_reducible apply Keep.step State.settleSource_keep; decide)
    | (with_reducible apply Keep.step State.vacate_keep; decide)
    | with_reducible apply Keep.ite
    | split
    | dsimp only

theorem execFaultRecordRelease_keep {c : CoreId} {i : IsletNo} {r : Fin 256} {s : State} :
    KeepX 72057594037927807 s (execFaultRecordRelease c i r s) := by
  unfold execFaultRecordRelease; try dsimp only
  repeat' first
    | with_reducible exact Keep.rfl'
    | with_reducible assumption
    | (with_reducible apply Keep.step State.releaseLatch_keep; decide)
    | with_reducible refine KeepX.next ?_
    | split
    | dsimp only

end Sys2Proof.Machine
end

