-- ==== Sys2Proof/Laws/KeepLinks.lean ====
section
/-! SUPPORT. What the operations of Machine/Links.lean may change: one lemma each. -/

namespace Sys2Proof.Machine

theorem State.linkDone_keep {before : State} {x : Seat} {s : State} :
    Keep 72022272226877439 s (State.linkDone before x s) := by
  unfold State.linkDone; try dsimp only
  repeat' first
    | with_reducible exact Keep.rfl'
    | with_reducible assumption
    | (with_reducible apply Keep.step State.edge_keep; decide)
    | (with_reducible apply Keep.step State.settleSeat_keep; decide)
    | with_reducible apply Keep.ite
    | split
    | dsimp only

theorem State.wakeSeat_keep {s : State} {x : Seat} :
    Keep 72022272226877439 s (State.wakeSeat s x) := by
  unfold State.wakeSeat; try dsimp only
  repeat' first
    | with_reducible exact Keep.rfl'
    | with_reducible assumption
    | (with_reducible apply Keep.step State.wake_keep; decide)
    | split
    | dsimp only

theorem State.endRate_keep {s : State} {x : Seat} {result : BitVec 3} :
    Keep 72057594034782207 s (State.endRate s x result) := by
  unfold State.endRate; try dsimp only
  repeat' first
    | with_reducible exact Keep.rfl'
    | with_reducible assumption
    | (with_reducible apply Keep.step State.setLink__keep; decide)
    | (with_reducible apply Keep.step State.setSeatTime_keep; decide)
    | split
    | dsimp only

theorem State.startTarget_keep {s : State} {x : Seat} {now : Nat} :
    Keep 72057594035830783 s (State.startTarget s x now) := by
  unfold State.startTarget; try dsimp only
  repeat' first
    | with_reducible exact Keep.rfl'
    | with_reducible assumption
    | (with_reducible apply Keep.step State.setSeatTime_keep; decide)
    | with_reducible apply Keep.ite
    | split
    | dsimp only

theorem State.negotiate_keep {s : State} {x : Seat} :
    Keep 72057594034782207 s (State.negotiate s x) := by
  unfold State.negotiate; try dsimp only
  repeat' first
    | with_reducible exact Keep.rfl'
    | with_reducible assumption
    | (with_reducible apply Keep.step State.setLink__keep; decide)
    | (with_reducible apply Keep.step State.startTarget_keep; decide)
    | with_reducible apply Keep.ite
    | split
    | dsimp only

theorem State.becomeForeign_keep {s : State} {x : Seat} :
    Keep 72022203506352127 s (State.becomeForeign s x) := by
  unfold State.becomeForeign; try dsimp only
  repeat' first
    | with_reducible exact Keep.rfl'
    | with_reducible assumption
    | (with_reducible apply Keep.step State.bumpSeat_keep; decide)
    | (with_reducible apply Keep.step State.removePower_keep; decide)
    | (with_reducible apply Keep.step State.setLink__keep; decide)
    | with_reducible apply Keep.ite
    | split
    | dsimp only

theorem State.powerUnforeign_keep {s : State} {x : Seat} :
    Keep 72022203507400703 s (State.powerUnforeign s x) := by
  unfold State.powerUnforeign; try dsimp only
  repeat' first
    | with_reducible exact Keep.rfl'
    | with_reducible assumption
    | (with_reducible apply Keep.step State.powerAllowed_keep; decide)
    | (with_reducible apply Keep.step State.putPower_keep; decide)
    | with_reducible apply Keep.ite
    | split
    | dsimp only

theorem State.noRate_keep {s : State} {x : Seat} :
    Keep 72022203504254975 s (State.noRate s x) := by
  unfold State.noRate; try dsimp only
  repeat' first
    | with_reducible exact Keep.rfl'
    | with_reducible assumption
    | (with_reducible apply Keep.step State.becomeForeign_keep; decide)
    | (with_reducible apply Keep.step State.endRate_keep; decide)
    | (with_reducible apply Keep.step State.negotiate_keep; decide)
    | with_reducible apply Keep.ite
    | split
    | dsimp only

theorem State.autoneg_keep {s : State} {x : Seat} {msg : Option (BitVec 11 × BitVec 11 × BitVec 11 × BitVec 11)} {rates : BitVec 4} :
    Keep 72022203504254975 s (State.autoneg s x msg rates) := by
  unfold State.autoneg; try dsimp only
  repeat' first
    | with_reducible exact Keep.rfl'
    | with_reducible assumption
    | (with_reducible apply Keep.step State.becomeForeign_keep; decide)
    | (with_reducible apply Keep.step State.noRate_keep; decide)
    | (with_reducible apply Keep.step State.setLink__keep; decide)
    | (with_reducible apply Keep.step State.startTarget_keep; decide)
    | (with_reducible apply Keep.step State.wakeSeat_keep; decide)
    | with_reducible refine Keep.getD ?_ ?_
    | with_reducible apply Keep.ite
    | split
    | dsimp only

theorem execAutonegComplete_keep {x : Seat} {msg : Option (BitVec 11 × BitVec 11 × BitVec 11 × BitVec 11)} {rates : BitVec 4} {s : State} :
    KeepX 72022203504254975 s (execAutonegComplete x msg rates s) := by
  unfold execAutonegComplete; try dsimp only
  repeat' first
    | with_reducible exact Keep.rfl'
    | with_reducible assumption
    | (with_reducible apply Keep.step State.autoneg_keep; decide)
    | (with_reducible apply Keep.step State.linkDone_keep; decide)
    | with_reducible refine KeepX.next ?_
    | split
    | dsimp only

theorem State.foreignEnergy_keep {s : State} {x : Seat} :
    Keep 72022203506352127 s (State.foreignEnergy s x) := by
  unfold State.foreignEnergy; try dsimp only
  repeat' first
    | with_reducible exact Keep.rfl'
    | with_reducible assumption
    | (with_reducible apply Keep.step State.becomeForeign_keep; decide)
    | with_reducible apply Keep.ite
    | split
    | dsimp only

theorem execForeignEnergyTimeout_keep {x : Seat} {ut : Nat} {s : State} :
    KeepX 31489806860015614 s (execForeignEnergyTimeout x ut s) := by
  unfold execForeignEnergyTimeout; try dsimp only
  repeat' first
    | with_reducible exact Keep.rfl'
    | with_reducible assumption
    | (with_reducible apply Keep.step State.arrive_keep; decide)
    | (with_reducible apply Keep.step State.foreignEnergy_keep; decide)
    | (with_reducible apply Keep.step State.linkDone_keep; decide)
    | with_reducible refine KeepX.next ?_
    | split
    | dsimp only

theorem State.foreignClear_keep {s : State} {x : Seat} :
    Keep 72022203504254975 s (State.foreignClear s x) := by
  unfold State.foreignClear; try dsimp only
  repeat' first
    | with_reducible exact Keep.rfl'
    | with_reducible assumption
    | (with_reducible apply Keep.step State.negotiate_keep; decide)
    | (with_reducible apply Keep.step State.powerUnforeign_keep; decide)
    | (with_reducible apply Keep.step State.setLink__keep; decide)
    | with_reducible apply Keep.ite
    | split
    | dsimp only

theorem execForeignClear_keep {x : Seat} {ut : Nat} {s : State} :
    KeepX 31489806857918462 s (execForeignClear x ut s) := by
  unfold execForeignClear; try dsimp only
  repeat' first
    | with_reducible exact Keep.rfl'
    | with_reducible assumption
    | (with_reducible apply Keep.step State.arrive_keep; decide)
    | (with_reducible apply Keep.step State.foreignClear_keep; decide)
    | (with_reducible apply Keep.step State.linkDone_keep; decide)
    | with_reducible refine KeepX.next ?_
    | split
    | dsimp only

theorem State.energy_keep {s : State} {x : Seat} :
    Keep 72022272223731711 s (State.energy s x) := by
  unfold State.energy; try dsimp only
  repeat' first
    | with_reducible exact Keep.rfl'
    | with_reducible assumption
    | (with_reducible apply Keep.step State.negotiate_keep; decide)
    | (with_reducible apply Keep.step State.setLink__keep; decide)
    | (with_reducible apply Keep.step State.wakeSeat_keep; decide)
    | with_reducible apply Keep.ite
    | split
    | dsimp only

theorem execPartnerEnergyDetected_keep {x : Seat} {ut : Nat} {s : State} :
    KeepX 31489875577395198 s (execPartnerEnergyDetected x ut s) := by
  unfold execPartnerEnergyDetected; try dsimp only
  repeat' first
    | with_reducible exact Keep.rfl'
    | with_reducible assumption
    | (with_reducible apply Keep.step State.arrive_keep; decide)
    | (with_reducible apply Keep.step State.energy_keep; decide)
    | (with_reducible apply Keep.step State.linkDone_keep; decide)
    | with_reducible refine KeepX.next ?_
    | with_reducible apply Keep.ite
    | split
    | dsimp only

theorem State.trained_keep {s : State} {x : Seat} {pairs : BitVec 6} :
    Keep 72057522096177151 s (State.trained s x pairs) := by
  unfold State.trained; try dsimp only
  repeat' first
    | with_reducible exact Keep.rfl'
    | with_reducible assumption
    | (with_reducible apply Keep.step State.gateRecheck_keep; decide)
    | (with_reducible apply Keep.step State.setLink__keep; decide)
    | (with_reducible apply Keep.step State.setSeatPower_keep; decide)
    | with_reducible apply Keep.ite
    | split
    | dsimp only

theorem execTrainingComplete_keep {l : TrainedLine} {s : State} :
    KeepX 72022200285126655 s (execTrainingComplete l s) := by
  unfold execTrainingComplete; try dsimp only
  repeat' first
    | with_reducible exact Keep.rfl'
    | with_reducible assumption
    | (with_reducible apply Keep.step State.linkDone_keep; decide)
    | (with_reducible apply Keep.step State.trained_keep; decide)
    | with_reducible refine KeepX.next ?_
    | split
    | dsimp only

theorem State.trainFailed_keep {s : State} {x : Seat} :
    Keep 72057594034782207 s (State.trainFailed s x) := by
  unfold State.trainFailed; try dsimp only
  repeat' first
    | with_reducible exact Keep.rfl'
    | with_reducible assumption
    | (with_reducible apply Keep.step State.negotiate_keep; decide)
    | (with_reducible apply Keep.step State.setLink__keep; decide)
    | with_reducible apply Keep.ite
    | split
    | dsimp only

theorem execTrainingTimeout_keep {x : Seat} {ut : Nat} {s : State} :
    KeepX 31489875577395198 s (execTrainingTimeout x ut s) := by
  unfold execTrainingTimeout; try dsimp only
  repeat' first
    | with_reducible exact Keep.rfl'
    | with_reducible assumption
    | (with_reducible apply Keep.step State.arrive_keep; decide)
    | (with_reducible apply Keep.step State.linkDone_keep; decide)
    | (with_reducible apply Keep.step State.trainFailed_keep; decide)
    | with_reducible refine KeepX.next ?_
    | split
    | dsimp only

theorem State.clearTunnel_keep {s : State} {x : Seat} {t : Tunnel} :
    Keep 72022271685811839 s (State.clearTunnel s x t) := by
  unfold State.clearTunnel; try dsimp only
  repeat' first
    | with_reducible exact Keep.rfl'
    | with_reducible assumption
    | (with_reducible apply Keep.step State.dropKept_keep; decide)
    | (with_reducible apply Keep.step State.freeTx_keep; decide)
    | (with_reducible apply Keep.step State.setTun_keep; decide)
    | with_reducible refine Keep.foldl ?_ (fun _ _ => ?_)
    | with_reducible refine Keep.foldlFst ?_ (fun _ _ => ?_)
    | with_reducible refine Keep.foldlSnd ?_ (fun _ _ => ?_)
    | split
    | dsimp only

theorem State.freshTunnel_keep {s : State} {x : Seat} {t : Tunnel} :
    Keep 72022271685811839 s (State.freshTunnel s x t) := by
  unfold State.freshTunnel; try dsimp only
  repeat' first
    | with_reducible exact Keep.rfl'
    | with_reducible assumption
    | (with_reducible apply Keep.step State.clearTunnel_keep; decide)
    | (with_reducible apply Keep.step State.freeTx_keep; decide)
    | (with_reducible apply Keep.step State.setTun_keep; decide)
    | with_reducible refine Keep.foldl ?_ (fun _ _ => ?_)
    | with_reducible refine Keep.foldlFst ?_ (fun _ _ => ?_)
    | with_reducible refine Keep.foldlSnd ?_ (fun _ _ => ?_)
    | with_reducible apply Keep.ite
    | with_reducible apply Keep.iteFst
    | with_reducible apply Keep.iteSnd
    | split
    | dsimp only

theorem State.sendHello_keep {s : State} {x : Seat} :
    Keep 71881530975182463 s (State.sendHello s x) := by
  unfold State.sendHello; try dsimp only
  repeat' first
    | with_reducible exact Keep.rfl'
    | with_reducible assumption
    | (with_reducible apply Keep.step State.clearTunnel_keep; decide)
    | (with_reducible apply Keep.step State.draw_keep; decide)
    | with_reducible refine Keep.step (State.draw_keepE (by assumption)) (by decide) ?_
    | (with_reducible apply Keep.step State.sendCtrl_keep; decide)
    | (with_reducible apply Keep.step State.setLink__keep; decide)
    | with_reducible apply Keep.ite
    | split
    | dsimp only

theorem State.linkUp_keep {s : State} {x : Seat} :
    Keep 70755613887438463 s (State.linkUp s x) := by
  unfold State.linkUp; try dsimp only
  repeat' first
    | with_reducible exact Keep.rfl'
    | with_reducible assumption
    | (with_reducible apply Keep.step State.gateRecheck_keep; decide)
    | (with_reducible apply Keep.step State.gen1Fall_keep; decide)
    | (with_reducible apply Keep.step State.gen1Rise_keep; decide)
    | (with_reducible apply Keep.step State.sendHello_keep; decide)
    | (with_reducible apply Keep.step State.setLink__keep; decide)
    | (with_reducible apply Keep.step State.wakeSeat_keep; decide)
    | with_reducible apply Keep.ite
    | split
    | dsimp only

theorem execPcsLinkUp_keep {x : Seat} {s : State} :
    KeepX 70755613887438463 s (execPcsLinkUp x s) := by
  unfold execPcsLinkUp; try dsimp only
  repeat' first
    | with_reducible exact Keep.rfl'
    | with_reducible assumption
    | (with_reducible apply Keep.step State.linkDone_keep; decide)
    | (with_reducible apply Keep.step State.linkUp_keep; decide)
    | with_reducible refine KeepX.next ?_
    | split
    | dsimp only

theorem State.helloAgain_keep {s : State} {x : Seat} :
    Keep 71881530975182463 s (State.helloAgain s x) := by
  unfold State.helloAgain; try dsimp only
  repeat' first
    | with_reducible exact Keep.rfl'
    | with_reducible assumption
    | (with_reducible apply Keep.step State.sendHello_keep; decide)
    | with_reducible apply Keep.ite
    | split
    | dsimp only

theorem execHelloRetry_keep {x : Seat} {ut : Nat} {s : State} :
    KeepX 31349134328845950 s (execHelloRetry x ut s) := by
  unfold execHelloRetry; try dsimp only
  repeat' first
    | with_reducible exact Keep.rfl'
    | with_reducible assumption
    | (with_reducible apply Keep.step State.arrive_keep; decide)
    | (with_reducible apply Keep.step State.helloAgain_keep; decide)
    | with_reducible refine KeepX.next ?_
    | split
    | dsimp only

theorem State.renewExchange_keep {s : State} {x : Seat} :
    Keep 71881530975182463 s (State.renewExchange s x) := by
  unfold State.renewExchange; try dsimp only
  repeat' first
    | with_reducible exact Keep.rfl'
    | with_reducible assumption
    | (with_reducible apply Keep.step State.sendHello_keep; decide)
    | (with_reducible apply Keep.step State.setLink__keep; decide)
    | with_reducible apply Keep.ite
    | split
    | dsimp only

theorem execAuthRetry_keep {x : Seat} {ut : Nat} {s : State} :
    KeepX 31349134328845950 s (execAuthRetry x ut s) := by
  unfold execAuthRetry; try dsimp only
  repeat' first
    | with_reducible exact Keep.rfl'
    | with_reducible assumption
    | (with_reducible apply Keep.step State.arrive_keep; decide)
    | (with_reducible apply Keep.step State.renewExchange_keep; decide)
    | with_reducible refine KeepX.next ?_
    | with_reducible apply Keep.ite
    | split
    | dsimp only

theorem State.endHold_keep {s : State} {x : Seat} :
    Keep 72022271688957951 s (State.endHold s x) := by
  unfold State.endHold; try dsimp only
  repeat' first
    | with_reducible exact Keep.rfl'
    | with_reducible assumption
    | (with_reducible apply Keep.step State.setLink__keep; decide)
    | (with_reducible apply Keep.step State.setPortState_keep; decide)
    | with_reducible apply Keep.ite
    | split
    | dsimp only

theorem State.flushSeat_keep {s : State} {x : Seat} :
    Keep 70896346560732783 s (State.flushSeat s x) := by
  unfold State.flushSeat; try dsimp only
  repeat' first
    | with_reducible exact Keep.rfl'
    | with_reducible assumption
    | (with_reducible apply Keep.step State.bumpSeat_keep; decide)
    | (with_reducible apply Keep.step State.clearTunnel_keep; decide)
    | (with_reducible apply Keep.step State.closeAtOnce_keep; decide)
    | (with_reducible apply Keep.step State.detachHead_keep; decide)
    | (with_reducible apply Keep.step State.discardQueued_keep; decide)
    | (with_reducible apply Keep.step State.dropConfig_keep; decide)
    | (with_reducible apply Keep.step State.endHold_keep; decide)
    | (with_reducible apply Keep.step State.endNet_keep; decide)
    | (with_reducible apply Keep.step State.flushPorts_keep; decide)
    | (with_reducible apply Keep.step State.setLink__keep; decide)
    | (with_reducible apply Keep.step State.setUsbSeat_keep; decide)
    | (with_reducible apply Keep.step State.setWfq_keep; decide)
    | (with_reducible apply Keep.step State.settleGroups_keep; decide)
    | with_reducible refine Keep.foldl ?_ (fun _ _ => ?_)
    | with_reducible refine Keep.foldlFst ?_ (fun _ _ => ?_)
    | with_reducible refine Keep.foldlSnd ?_ (fun _ _ => ?_)
    | split
    | dsimp only

theorem State.stopTunnels_keep {s : State} {x : Seat} :
    Keep 72022271685811839 s (State.stopTunnels s x) := by
  unfold State.stopTunnels; try dsimp only
  repeat' first
    | with_reducible exact Keep.rfl'
    | with_reducible assumption
    | (with_reducible apply Keep.step State.clearTunnel_keep; decide)
    | (with_reducible apply Keep.step State.setTun_keep; decide)
    | with_reducible refine Keep.foldl ?_ (fun _ _ => ?_)
    | with_reducible refine Keep.foldlFst ?_ (fun _ _ => ?_)
    | with_reducible refine Keep.foldlSnd ?_ (fun _ _ => ?_)
    | split
    | dsimp only

theorem State.goDown_keep {s : State} {x : Seat} {cause : Nat} {atOnce : Bool} :
    Keep 70896346558635631 s (State.goDown s x cause atOnce) := by
  unfold State.goDown; try dsimp only
  repeat' first
    | with_reducible exact Keep.rfl'
    | with_reducible assumption
    | (with_reducible apply Keep.step State.bumpSeat_keep; decide)
    | (with_reducible apply Keep.step State.flushSeat_keep; decide)
    | (with_reducible apply Keep.step State.negotiate_keep; decide)
    | (with_reducible apply Keep.step State.setLink__keep; decide)
    | (with_reducible apply Keep.step State.setPortState_keep; decide)
    | (with_reducible apply Keep.step State.setSeatTime_keep; decide)
    | (with_reducible apply Keep.step State.stopTunnels_keep; decide)
    | with_reducible apply Keep.ite
    | split
    | dsimp only

theorem State.holdExpired_keep {s : State} {x : Seat} :
    Keep 70896346558635631 s (State.holdExpired s x) := by
  unfold State.holdExpired; try dsimp only
  repeat' first
    | with_reducible exact Keep.rfl'
    | with_reducible assumption
    | (with_reducible apply Keep.step State.endRate_keep; decide)
    | (with_reducible apply Keep.step State.flushSeat_keep; decide)
    | (with_reducible apply Keep.step State.negotiate_keep; decide)
    | with_reducible apply Keep.ite
    | split
    | dsimp only

theorem execHoldDownExpiry_keep {x : Seat} {ut : Nat} {s : State} :
    KeepX 30363949912299118 s (execHoldDownExpiry x ut s) := by
  unfold execHoldDownExpiry; try dsimp only
  repeat' first
    | with_reducible exact Keep.rfl'
    | with_reducible assumption
    | (with_reducible apply Keep.step State.arrive_keep; decide)
    | (with_reducible apply Keep.step State.holdExpired_keep; decide)
    | (with_reducible apply Keep.step State.linkDone_keep; decide)
    | with_reducible refine KeepX.next ?_
    | split
    | dsimp only

theorem execGoodbye_keep {x : Seat} {s : State} :
    KeepX 70896346558635631 s (execGoodbye x s) := by
  unfold execGoodbye; try dsimp only
  repeat' first
    | with_reducible exact Keep.rfl'
    | with_reducible assumption
    | (with_reducible apply Keep.step State.goDown_keep; decide)
    | (with_reducible apply Keep.step State.linkDone_keep; decide)
    | with_reducible refine KeepX.next ?_
    | split
    | dsimp only

theorem State.phyFail_keep {s : State} {x : Seat} :
    Keep 70896346558635631 s (State.phyFail s x) := by
  unfold State.phyFail; try dsimp only
  repeat' first
    | with_reducible exact Keep.rfl'
    | with_reducible assumption
    | (with_reducible apply Keep.step State.goDown_keep; decide)
    | (with_reducible apply Keep.step State.negotiate_keep; decide)
    | (with_reducible apply Keep.step State.setLink__keep; decide)
    | with_reducible apply Keep.ite
    | split
    | dsimp only

theorem execPhyLinkFail_keep {x : Seat} {s : State} :
    KeepX 70896346558635631 s (execPhyLinkFail x s) := by
  unfold execPhyLinkFail; try dsimp only
  repeat' first
    | with_reducible exact Keep.rfl'
    | with_reducible assumption
    | (with_reducible apply Keep.step State.linkDone_keep; decide)
    | (with_reducible apply Keep.step State.phyFail_keep; decide)
    | with_reducible refine KeepX.next ?_
    | split
    | dsimp only

theorem State.helloGiveUp_keep {s : State} {x : Seat} :
    Keep 70896346558635631 s (State.helloGiveUp s x) := by
  unfold State.helloGiveUp; try dsimp only
  repeat' first
    | with_reducible exact Keep.rfl'
    | with_reducible assumption
    | (with_reducible apply Keep.step State.goDown_keep; decide)
    | (with_reducible apply Keep.step State.negotiate_keep; decide)
    | (with_reducible apply Keep.step State.setLink__keep; decide)
    | (with_reducible apply Keep.step State.stopTunnels_keep; decide)
    | with_reducible apply Keep.ite
    | split
    | dsimp only

theorem execHelloGiveUp_keep {x : Seat} {ut : Nat} {s : State} :
    KeepX 30363949912299118 s (execHelloGiveUp x ut s) := by
  unfold execHelloGiveUp; try dsimp only
  repeat' first
    | with_reducible exact Keep.rfl'
    | with_reducible assumption
    | (with_reducible apply Keep.step State.arrive_keep; decide)
    | (with_reducible apply Keep.step State.helloGiveUp_keep; decide)
    | (with_reducible apply Keep.step State.linkDone_keep; decide)
    | with_reducible refine KeepX.next ?_
    | with_reducible apply Keep.ite
    | split
    | dsimp only

theorem State.silence_keep {s : State} {x : Seat} :
    Keep 70896346558635631 s (State.silence s x) := by
  unfold State.silence; try dsimp only
  repeat' first
    | with_reducible exact Keep.rfl'
    | with_reducible assumption
    | (with_reducible apply Keep.step State.goDown_keep; decide)
    | with_reducible apply Keep.ite
    | split
    | dsimp only

theorem execSilence_keep {x : Seat} {ut : Nat} {s : State} :
    KeepX 30363949912299118 s (execSilence x ut s) := by
  unfold execSilence; try dsimp only
  repeat' first
    | with_reducible exact Keep.rfl'
    | with_reducible assumption
    | (with_reducible apply Keep.step State.arrive_keep; decide)
    | (with_reducible apply Keep.step State.linkDone_keep; decide)
    | (with_reducible apply Keep.step State.silence_keep; decide)
    | with_reducible refine KeepX.next ?_
    | split
    | dsimp only

theorem State.resumeTunnel_keep {s : State} {x : Seat} {t : Tunnel} {rehome : Bool} {r : Half} :
    Keep 72057594033733631 s (State.resumeTunnel s x t rehome r) := by
  unfold State.resumeTunnel; try dsimp only
  repeat' first
    | with_reducible exact Keep.rfl'
    | with_reducible assumption
    | (with_reducible apply Keep.step State.setTun_keep; decide)
    | with_reducible apply Keep.ite
    | split
    | dsimp only

theorem State.enterResult_keep {s : State} {x : Seat} {b : List Byte} {r : Welcome} :
    Keep 70896346560732783 s (State.enterResult s x b r) := by
  unfold State.enterResult; try dsimp only
  repeat' first
    | with_reducible exact Keep.rfl'
    | with_reducible assumption
    | (with_reducible apply Keep.step State.bumpSeat_keep; decide)
    | (with_reducible apply Keep.step State.dropIso_keep; decide)
    | (with_reducible apply Keep.step State.endHold_keep; decide)
    | (with_reducible apply Keep.step State.flushSeat_keep; decide)
    | (with_reducible apply Keep.step State.freshTunnel_keep; decide)
    | (with_reducible apply Keep.step State.resumeTunnel_keep; decide)
    | (with_reducible apply Keep.step State.setLink__keep; decide)
    | with_reducible refine Keep.foldl ?_ (fun _ _ => ?_)
    | with_reducible refine Keep.foldlFst ?_ (fun _ _ => ?_)
    | with_reducible refine Keep.foldlSnd ?_ (fun _ _ => ?_)
    | with_reducible apply Keep.ite
    | with_reducible apply Keep.iteFst
    | with_reducible apply Keep.iteSnd
    | split
    | dsimp only

theorem State.welcomeHeads_keep {s : State} {x : Seat} {r : Welcome} {afterRate : Bool} :
    Keep 72022268162596863 s (State.welcomeHeads s x r afterRate) := by
  unfold State.welcomeHeads; try dsimp only
  repeat' first
    | with_reducible exact Keep.rfl'
    | with_reducible assumption
    | (with_reducible apply Keep.step State.configFor_keep; decide)
    | (with_reducible apply Keep.step State.fullResend_keep; decide)
    | (with_reducible apply Keep.step State.setView_keep; decide)
    | with_reducible refine Keep.foldl ?_ (fun _ _ => ?_)
    | with_reducible refine Keep.foldlFst ?_ (fun _ _ => ?_)
    | with_reducible refine Keep.foldlSnd ?_ (fun _ _ => ?_)
    | with_reducible apply Keep.ite
    | with_reducible apply Keep.iteFst
    | with_reducible apply Keep.iteSnd
    | split
    | dsimp only

theorem State.helloReply_keep {s : State} {x : Seat} {b : List Byte} :
    Keep 70896346558635631 s (State.helloReply s x b) := by
  unfold State.helloReply; try dsimp only
  repeat' first
    | with_reducible exact Keep.rfl'
    | with_reducible assumption
    | (with_reducible apply Keep.step State.bumpSeat_keep; decide)
    | (with_reducible apply Keep.step State.endRate_keep; decide)
    | (with_reducible apply Keep.step State.enterResult_keep; decide)
    | (with_reducible apply Keep.step State.gateRecheck_keep; decide)
    | (with_reducible apply Keep.step State.sendCtrl_keep; decide)
    | (with_reducible apply Keep.step State.sendTimeBase_keep; decide)
    | (with_reducible apply Keep.step State.setLink__keep; decide)
    | (with_reducible apply Keep.step State.welcomeHeads_keep; decide)
    | with_reducible refine Keep.getD ?_ ?_
    | with_reducible apply Keep.ite
    | split
    | dsimp only

theorem execHelloReply_keep {x : Seat} {body : List Byte} {s : State} :
    KeepX 70896346558635631 s (execHelloReply x body s) := by
  unfold execHelloReply; try dsimp only
  repeat' first
    | with_reducible exact Keep.rfl'
    | with_reducible assumption
    | (with_reducible apply Keep.step State.helloReply_keep; decide)
    | (with_reducible apply Keep.step State.linkDone_keep; decide)
    | with_reducible refine KeepX.next ?_
    | with_reducible apply Keep.ite
    | split
    | dsimp only

theorem State.disableSeat_keep {s : State} {x : Seat} :
    Keep 70896346558635631 s (State.disableSeat s x) := by
  unfold State.disableSeat; try dsimp only
  repeat' first
    | with_reducible exact Keep.rfl'
    | with_reducible assumption
    | (with_reducible apply Keep.step State.flushSeat_keep; decide)
    | (with_reducible apply Keep.step State.goDown_keep; decide)
    | (with_reducible apply Keep.step State.setLink__keep; decide)
    | with_reducible apply Keep.ite
    | split
    | dsimp only

theorem State.enableSeat_keep {s : State} {x : Seat} {seen : Bool} :
    Keep 72022203504254975 s (State.enableSeat s x seen) := by
  unfold State.enableSeat; try dsimp only
  repeat' first
    | with_reducible exact Keep.rfl'
    | with_reducible assumption
    | (with_reducible apply Keep.step State.negotiate_keep; decide)
    | (with_reducible apply Keep.step State.powerUnforeign_keep; decide)
    | (with_reducible apply Keep.step State.setLink__keep; decide)
    | with_reducible refine Keep.getD ?_ ?_
    | with_reducible apply Keep.ite
    | split
    | dsimp only

theorem State.holdWritten_keep {s : State} {x : Seat} :
    Keep 70896346560732783 s (State.holdWritten s x) := by
  unfold State.holdWritten; try dsimp only
  repeat' first
    | with_reducible exact Keep.rfl'
    | with_reducible assumption
    | (with_reducible apply Keep.step State.flushSeat_keep; decide)
    | (with_reducible apply Keep.step State.setLink__keep; decide)
    | with_reducible apply Keep.ite
    | split
    | dsimp only

theorem State.startRate_keep {s : State} {x : Seat} {r : Nat} :
    Keep 72022268461441023 s (State.startRate s x r) := by
  unfold State.startRate; try dsimp only
  repeat' first
    | with_reducible exact Keep.rfl'
    | with_reducible assumption
    | (with_reducible apply Keep.step State.sendCtrl_keep; decide)
    | (with_reducible apply Keep.step State.setLink__keep; decide)
    | (with_reducible apply Keep.step State.setSeatTime_keep; decide)
    | split
    | dsimp only

theorem State.recordRate_keep {s : State} {x : Seat} {r : Nat} :
    Keep 72057594034782207 s (State.recordRate s x r) := by
  unfold State.recordRate; try dsimp only
  repeat' first
    | with_reducible exact Keep.rfl'
    | with_reducible assumption
    | (with_reducible apply Keep.step State.setLink__keep; decide)
    | (with_reducible apply Keep.step State.setSeatTime_keep; decide)
    | with_reducible apply Keep.ite
    | split
    | dsimp only

theorem State.writeTarget_keep {s : State} {x : Seat} {r : Nat} :
    Keep 72022268461440639 s (State.writeTarget s x r) := by
  unfold State.writeTarget; try dsimp only
  repeat' first
    | with_reducible exact Keep.rfl'
    | with_reducible assumption
    | (with_reducible apply Keep.step State.negotiate_keep; decide)
    | (with_reducible apply Keep.step State.recordRate_keep; decide)
    | (with_reducible apply Keep.step State.setLink__keep; decide)
    | (with_reducible apply Keep.step State.startRate_keep; decide)
    | (with_reducible apply Keep.step State.stopTunnels_keep; decide)
    | with_reducible apply Keep.ite
    | split
    | dsimp only

theorem execRateTargetWrite_keep {w : Via} {x : Seat} {rate : BitVec 4} {s : State} :
    KeepX 72022268461440639 s (execRateTargetWrite w x rate s) := by
  unfold execRateTargetWrite; try dsimp only
  repeat' first
    | with_reducible exact Keep.rfl'
    | with_reducible assumption
    | (with_reducible apply Keep.step State.linkDone_keep; decide)
    | (with_reducible apply Keep.step State.writeTarget_keep; decide)
    | with_reducible refine KeepX.next ?_
    | with_reducible apply Keep.ite
    | split
    | dsimp only

theorem State.writeLinkControl_keep {s : State} {x : Seat} {v : W64} :
    Keep 70896277839158887 s (State.writeLinkControl s x v) := by
  unfold State.writeLinkControl; try dsimp only
  repeat' first
    | with_reducible exact Keep.rfl'
    | with_reducible assumption
    | (with_reducible apply Keep.step State.disableSeat_keep; decide)
    | (with_reducible apply Keep.step State.enableSeat_keep; decide)
    | (with_reducible apply Keep.step State.holdWritten_keep; decide)
    | (with_reducible apply Keep.step State.setLink__keep; decide)
    | (with_reducible apply Keep.step State.storeUpdate_keep; decide)
    | (with_reducible apply Keep.step State.writeTarget_keep; decide)
    | with_reducible apply Keep.ite
    | split
    | dsimp only

theorem execSeatLinkControlWrite_keep {w : Via} {x : Seat} {v : W64} {s : State} :
    KeepX 70896277839158887 s (execSeatLinkControlWrite w x v s) := by
  unfold execSeatLinkControlWrite; try dsimp only
  repeat' first
    | with_reducible exact Keep.rfl'
    | with_reducible assumption
    | (with_reducible apply Keep.step State.linkDone_keep; decide)
    | (with_reducible apply Keep.step State.writeLinkControl_keep; decide)
    | with_reducible refine KeepX.next ?_
    | with_reducible apply Keep.ite
    | split
    | dsimp only

theorem State.rateAck_keep {s : State} {x : Seat} {b : List Byte} :
    Keep 72022409663741951 s (State.rateAck s x b) := by
  unfold State.rateAck; try dsimp only
  repeat' first
    | with_reducible exact Keep.rfl'
    | with_reducible assumption
    | (with_reducible apply Keep.step State.bumpSeat_keep; decide)
    | (with_reducible apply Keep.step State.setSeatTime_keep; decide)
    | with_reducible refine Keep.getD ?_ ?_
    | with_reducible apply Keep.ite
    | split
    | dsimp only

theorem execRateAck_keep {x : Seat} {body : List Byte} {s : State} :
    KeepX 72022409663741951 s (execRateAck x body s) := by
  unfold execRateAck; try dsimp only
  repeat' first
    | with_reducible exact Keep.rfl'
    | with_reducible assumption
    | (with_reducible apply Keep.step State.rateAck_keep; decide)
    | with_reducible refine KeepX.next ?_
    | split
    | dsimp only

theorem State.rateUnanswered_keep {s : State} {x : Seat} :
    Keep 72057594034782207 s (State.rateUnanswered s x) := by
  unfold State.rateUnanswered; try dsimp only
  repeat' first
    | with_reducible exact Keep.rfl'
    | with_reducible assumption
    | (with_reducible apply Keep.step State.endRate_keep; decide)
    | with_reducible apply Keep.ite
    | split
    | dsimp only

theorem execRateAckTimeout_keep {x : Seat} {ut : Nat} {s : State} :
    KeepX 31489875577395198 s (execRateAckTimeout x ut s) := by
  unfold execRateAckTimeout; try dsimp only
  repeat' first
    | with_reducible exact Keep.rfl'
    | with_reducible assumption
    | (with_reducible apply Keep.step State.arrive_keep; decide)
    | (with_reducible apply Keep.step State.rateUnanswered_keep; decide)
    | with_reducible refine KeepX.next ?_
    | split
    | dsimp only

theorem State.rateStop_keep {s : State} {x : Seat} :
    Keep 70896346558635631 s (State.rateStop s x) := by
  unfold State.rateStop; try dsimp only
  repeat' first
    | with_reducible exact Keep.rfl'
    | with_reducible assumption
    | (with_reducible apply Keep.step State.goDown_keep; decide)
    | (with_reducible apply Keep.step State.setSeatTime_keep; decide)
    | with_reducible apply Keep.ite
    | split
    | dsimp only

theorem execRateChangeStop_keep {x : Seat} {ut : Nat} {s : State} :
    KeepX 30363949912299118 s (execRateChangeStop x ut s) := by
  unfold execRateChangeStop; try dsimp only
  repeat' first
    | with_reducible exact Keep.rfl'
    | with_reducible assumption
    | (with_reducible apply Keep.step State.arrive_keep; decide)
    | (with_reducible apply Keep.step State.linkDone_keep; decide)
    | (with_reducible apply Keep.step State.rateStop_keep; decide)
    | with_reducible refine KeepX.next ?_
    | split
    | dsimp only

theorem State.rateLate_keep {s : State} {x : Seat} :
    Keep 72022271682666111 s (State.rateLate s x) := by
  unfold State.rateLate; try dsimp only
  repeat' first
    | with_reducible exact Keep.rfl'
    | with_reducible assumption
    | (with_reducible apply Keep.step State.endRate_keep; decide)
    | (with_reducible apply Keep.step State.negotiate_keep; decide)
    | (with_reducible apply Keep.step State.stopTunnels_keep; decide)
    | with_reducible apply Keep.ite
    | split
    | dsimp only

theorem execRateChangeTimeout_keep {x : Seat} {ut : Nat} {s : State} :
    KeepX 31489875036329598 s (execRateChangeTimeout x ut s) := by
  unfold execRateChangeTimeout; try dsimp only
  repeat' first
    | with_reducible exact Keep.rfl'
    | with_reducible assumption
    | (with_reducible apply Keep.step State.arrive_keep; decide)
    | (with_reducible apply Keep.step State.linkDone_keep; decide)
    | (with_reducible apply Keep.step State.rateLate_keep; decide)
    | with_reducible refine KeepX.next ?_
    | split
    | dsimp only

theorem State.wakePattern_keep {s : State} {x : Seat} :
    Keep 72022203504254975 s (State.wakePattern s x) := by
  unfold State.wakePattern; try dsimp only
  repeat' first
    | with_reducible exact Keep.rfl'
    | with_reducible assumption
    | (with_reducible apply Keep.step State.edge_keep; decide)
    | (with_reducible apply Keep.step State.enableSeat_keep; decide)
    | (with_reducible apply Keep.step State.setSeatPower_keep; decide)
    | (with_reducible apply Keep.step State.wakeSeat_keep; decide)
    | with_reducible apply Keep.ite
    | split
    | dsimp only

theorem execWakePattern_keep {x : Seat} {s : State} :
    KeepX 72022203504254975 s (execWakePattern x s) := by
  unfold execWakePattern; try dsimp only
  repeat' first
    | with_reducible exact Keep.rfl'
    | with_reducible assumption
    | (with_reducible apply Keep.step State.linkDone_keep; decide)
    | (with_reducible apply Keep.step State.wakePattern_keep; decide)
    | with_reducible refine KeepX.next ?_
    | split
    | dsimp only

end Sys2Proof.Machine
end

