-- ==== Sys2Proof/Laws/KeepLinkRx.lean ====
section
/-! SUPPORT. What the operations of Machine/LinkRx.lean may change: one lemma each. -/

namespace Sys2Proof.Machine

theorem State.takeNak_keep {s : State} {x : Seat} {b : List Byte} :
    Keep 72022409661644799 s (State.takeNak s x b) := by
  unfold State.takeNak; try dsimp only
  repeat' first
    | with_reducible exact Keep.rfl'
    | with_reducible assumption
    | (with_reducible apply Keep.step State.bumpSeat_keep; decide)
    | (with_reducible apply Keep.step State.setTun_keep; decide)
    | with_reducible refine Keep.foldl ?_ (fun _ _ => ?_)
    | with_reducible refine Keep.foldlFst ?_ (fun _ _ => ?_)
    | with_reducible refine Keep.foldlSnd ?_ (fun _ _ => ?_)
    | with_reducible apply Keep.ite
    | with_reducible apply Keep.iteFst
    | with_reducible apply Keep.iteSnd
    | split
    | dsimp only

theorem execNak_keep {x : Seat} {body : List Byte} {s : State} :
    KeepX 72022409661644799 s (execNak x body s) := by
  unfold execNak; try dsimp only
  repeat' first
    | with_reducible exact Keep.rfl'
    | with_reducible assumption
    | (with_reducible apply Keep.step State.takeNak_keep; decide)
    | with_reducible refine KeepX.next ?_
    | with_reducible apply Keep.ite
    | split
    | dsimp only

theorem State.sendNak_keep {s : State} {x : Seat} {t : Tunnel} :
    Keep 69770461670531071 s (State.sendNak s x t) := by
  unfold State.sendNak; try dsimp only
  repeat' first
    | with_reducible exact Keep.rfl'
    | with_reducible assumption
    | (with_reducible apply Keep.step State.count_keep; decide)
    | (with_reducible apply Keep.step State.sendBare_keep; decide)
    | (with_reducible apply Keep.step State.setTun_keep; decide)
    | with_reducible apply Keep.ite
    | split
    | dsimp only

theorem execNakSend_keep {x : Seat} {tn : Tunnel} {ut : Nat} {s : State} :
    KeepX 29238065024194558 s (execNakSend x tn ut s) := by
  unfold execNakSend; try dsimp only
  repeat' first
    | with_reducible exact Keep.rfl'
    | with_reducible assumption
    | (with_reducible apply Keep.step State.arrive_keep; decide)
    | (with_reducible apply Keep.step State.sendNak_keep; decide)
    | with_reducible refine KeepX.next ?_
    | split
    | dsimp only

theorem execReportDue_keep {x : Seat} {tn : Tunnel} {ut : Nat} {s : State} :
    KeepX 29238065024194558 s (execReportDue x tn ut s) := by
  unfold execReportDue; try dsimp only
  repeat' first
    | with_reducible exact Keep.rfl'
    | with_reducible assumption
    | (with_reducible apply Keep.step State.arrive_keep; decide)
    | (with_reducible apply Keep.step State.sendBare_keep; decide)
    | with_reducible refine KeepX.next ?_
    | with_reducible apply Keep.ite
    | split
    | dsimp only

theorem execKeepaliveDue_keep {x : Seat} {ut : Nat} {s : State} :
    KeepX 29238065024194558 s (execKeepaliveDue x ut s) := by
  unfold execKeepaliveDue; try dsimp only
  repeat' first
    | with_reducible exact Keep.rfl'
    | with_reducible assumption
    | (with_reducible apply Keep.step State.arrive_keep; decide)
    | (with_reducible apply Keep.step State.sendBare_keep; decide)
    | with_reducible refine KeepX.next ?_
    | with_reducible apply Keep.ite
    | split
    | dsimp only

theorem State.retransmit_keep {s : State} {x : Seat} {t : Tunnel} :
    Keep 70896346558635631 s (State.retransmit s x t) := by
  unfold State.retransmit; try dsimp only
  repeat' first
    | with_reducible exact Keep.rfl'
    | with_reducible assumption
    | (with_reducible apply Keep.step State.bumpSeat_keep; decide)
    | (with_reducible apply Keep.step State.goDown_keep; decide)
    | (with_reducible apply Keep.step State.setTun_keep; decide)
    | with_reducible apply Keep.ite
    | split
    | dsimp only

theorem execRetransmitTimerExpiry_keep {x : Seat} {tn : Tunnel} {ut : Nat} {s : State} :
    KeepX 30363949912299118 s (execRetransmitTimerExpiry x tn ut s) := by
  unfold execRetransmitTimerExpiry; try dsimp only
  repeat' first
    | with_reducible exact Keep.rfl'
    | with_reducible assumption
    | (with_reducible apply Keep.step State.arrive_keep; decide)
    | (with_reducible apply Keep.step State.linkDone_keep; decide)
    | (with_reducible apply Keep.step State.retransmit_keep; decide)
    | with_reducible refine KeepX.next ?_
    | split
    | dsimp only

theorem State.takeDockTime_keep {s : State} {x : Seat} {b : List Byte} :
    Keep 72022409663741951 s (State.takeDockTime s x b) := by
  unfold State.takeDockTime; try dsimp only
  repeat' first
    | with_reducible exact Keep.rfl'
    | with_reducible assumption
    | (with_reducible apply Keep.step State.bumpSeat_keep; decide)
    | (with_reducible apply Keep.step State.setSeatTime_keep; decide)
    | with_reducible apply Keep.ite
    | split
    | dsimp only

theorem execDockTime_keep {x : Seat} {body : List Byte} {s : State} :
    KeepX 72022409663741951 s (execDockTime x body s) := by
  unfold execDockTime; try dsimp only
  repeat' first
    | with_reducible exact Keep.rfl'
    | with_reducible assumption
    | (with_reducible apply Keep.step State.takeDockTime_keep; decide)
    | with_reducible refine KeepX.next ?_
    | with_reducible apply Keep.ite
    | split
    | dsimp only

theorem State.delayUpdate_keep {s : State} {x : Seat} :
    Keep 72022268462489599 s (State.delayUpdate s x) := by
  unfold State.delayUpdate; try dsimp only
  repeat' first
    | with_reducible exact Keep.rfl'
    | with_reducible assumption
    | (with_reducible apply Keep.step State.sendTimeBase_keep; decide)
    | (with_reducible apply Keep.step State.setSeatTime_keep; decide)
    | with_reducible apply Keep.ite
    | split
    | dsimp only

theorem execDelayUpdate_keep {x : Seat} {ut : Nat} {s : State} :
    KeepX 31489871816153086 s (execDelayUpdate x ut s) := by
  unfold execDelayUpdate; try dsimp only
  repeat' first
    | with_reducible exact Keep.rfl'
    | with_reducible assumption
    | (with_reducible apply Keep.step State.arrive_keep; decide)
    | (with_reducible apply Keep.step State.delayUpdate_keep; decide)
    | with_reducible refine KeepX.next ?_
    | split
    | dsimp only

theorem State.calibrate_keep {s : State} {x : Seat} {m : Half} :
    Keep 72022406442516479 s (State.calibrate s x m) := by
  unfold State.calibrate; try dsimp only
  repeat' first
    | with_reducible exact Keep.rfl'
    | with_reducible assumption
    | (with_reducible apply Keep.step State.bumpSeat_keep; decide)
    | (with_reducible apply Keep.step State.setSeatTime_keep; decide)
    | (with_reducible apply Keep.step State.settleGate_keep; decide)
    | with_reducible apply Keep.ite
    | split
    | dsimp only

theorem execCalibrationSlot_keep {x : Seat} {margin : Half} {ut : Nat} {s : State} :
    KeepX 31489872357218302 s (execCalibrationSlot x margin ut s) := by
  unfold execCalibrationSlot; try dsimp only
  repeat' first
    | with_reducible exact Keep.rfl'
    | with_reducible assumption
    | (with_reducible apply Keep.step State.arrive_keep; decide)
    | (with_reducible apply Keep.step State.calibrate_keep; decide)
    | with_reducible refine KeepX.next ?_
    | split
    | dsimp only

theorem State.ctrlMessage_keep {s : State} {x : Seat} {t : Tunnel} {seq : Half} {m : List Byte} :
    Keep 70896346558635631 s (State.ctrlMessage s x t seq m) := by
  unfold State.ctrlMessage; try dsimp only
  repeat' first
    | with_reducible exact Keep.rfl'
    | with_reducible assumption
    | (with_reducible apply Keep.step State.bumpSeat_keep; decide)
    | (with_reducible apply Keep.step State.goDown_keep; decide)
    | (with_reducible apply Keep.step State.helloReply_keep; decide)
    | (with_reducible apply Keep.step State.rateAck_keep; decide)
    | (with_reducible apply Keep.step State.setTun_keep; decide)
    | (with_reducible apply Keep.step State.takeDockTime_keep; decide)
    | with_reducible apply Keep.ite
    | split
    | dsimp only

theorem State.resultsMessage_keep {s : State} {x : Seat} {param0 : Nat} {b : List Byte} {src : Option (Tunnel × Half)} {iso : Bool} :
    Keep 70896346558630959 s (State.resultsMessage s x param0 b src iso) := by
  unfold State.resultsMessage; try dsimp only
  repeat' first
    | with_reducible exact Keep.rfl'
    | with_reducible assumption
    | (with_reducible apply Keep.step State.goDown_keep; decide)
    | (with_reducible apply Keep.step State.takeResults_keep; decide)
    | with_reducible refine Keep.step (State.takeResults_keepE (by assumption)) (by decide) ?_
    | with_reducible apply Keep.ite
    | split
    | dsimp only

theorem execResults_keep {x : Seat} {iso : Bool} {param0 : W32} {body : List Byte} {s : State} :
    KeepX 70896346558630959 s (execResults x iso param0 body s) := by
  unfold execResults; try dsimp only
  repeat' first
    | with_reducible exact Keep.rfl'
    | with_reducible assumption
    | (with_reducible apply Keep.step State.linkDone_keep; decide)
    | (with_reducible apply Keep.step State.resultsMessage_keep; decide)
    | with_reducible refine KeepX.next ?_
    | with_reducible apply Keep.ite
    | split
    | dsimp only

theorem State.usbMessage_keep {s : State} {x : Seat} {t : Tunnel} {seq : Half} {m : List Byte} :
    Keep 70825977814453295 s (State.usbMessage s x t seq m) := by
  unfold State.usbMessage; try dsimp only
  repeat' first
    | with_reducible exact Keep.rfl'
    | with_reducible assumption
    | (with_reducible apply Keep.step State.bumpSeat_keep; decide)
    | (with_reducible apply Keep.step State.goDown_keep; decide)
    | (with_reducible apply Keep.step State.resultsMessage_keep; decide)
    | (with_reducible apply Keep.step State.takeProfile_keep; decide)
    | with_reducible apply Keep.ite
    | split
    | dsimp only

theorem State.dispMessage_keep {s : State} {x : Seat} {m : List Byte} :
    Keep 70896368037650031 s (State.dispMessage s x m) := by
  unfold State.dispMessage; try dsimp only
  repeat' first
    | with_reducible exact Keep.rfl'
    | with_reducible assumption
    | (with_reducible apply Keep.step State.bumpSeat_keep; decide)
    | (with_reducible apply Keep.step State.takeApplied_keep; decide)
    | (with_reducible apply Keep.step State.takeConfigDone_keep; decide)
    | (with_reducible apply Keep.step State.takeMonitor_keep; decide)
    | (with_reducible apply Keep.step State.takeStoreLost_keep; decide)
    | with_reducible apply Keep.ite
    | split
    | dsimp only

theorem State.eachMessage_keepH {K : Nat} {s x : State} {a : Seat} {h : Nat} {b : List Byte} {f : State → List Byte → State}
    (hx : Keep K s x) (e : K &&& 72022409665839103 = K) (hf : ∀ y m, Keep K y (f y m)) :
    Keep K s (State.eachMessage x a h b f) := by
  unfold State.eachMessage; dsimp only
  have h1 : Keep K s ((splitMsgs h b.length b).1.foldl (fun s m => if (s.link_ a).pcsUp then f s m else s) x) :=
    Keep.foldl hx fun y m => Keep.ite (hf y m) Keep.rfl'
  exact Keep.ite h1 (Keep.step State.bumpSeat_keep (by rw [← e, Nat.and_assoc]; rfl) h1)

theorem State.deliver_keep {s : State} {x : Seat} {t : Tunnel} {seq : Half} {low : Nat} {b : List Byte} :
    Keep 70685231736163375 s (State.deliver s x t seq low b) := by
  unfold State.deliver; try dsimp only
  repeat' first
    | with_reducible exact Keep.rfl'
    | with_reducible assumption
    | (with_reducible apply Keep.step State.ctrlMessage_keep; decide)
    | (with_reducible apply Keep.step State.dispMessage_keep; decide)
    | with_reducible apply State.eachMessage_keepH
    | (with_reducible apply Keep.step State.takeNet_keep; decide)
    | (with_reducible apply Keep.step State.usbMessage_keep; decide)
    | decide
    | intro _
    | split
    | dsimp only

theorem State.rxAdmit_keep {s : State} {x : Seat} {t : Tunnel} {len : Nat} :
    Keep 72022271690006527 s (State.rxAdmit s x t len).2 := by
  unfold State.rxAdmit; try dsimp only
  repeat' first
    | with_reducible exact Keep.rfl'
    | with_reducible assumption
    | (with_reducible apply Keep.step State.bumpSeat_keep; decide)
    | (with_reducible apply Keep.step State.bwCount_keep; decide)
    | (with_reducible apply Keep.step State.discardAt_keep; decide)
    | (with_reducible apply Keep.step State.noteRefusal_keep; decide)
    | (with_reducible apply Keep.step State.wakeOutput_keep; decide)
    | with_reducible apply Keep.ite
    | with_reducible apply Keep.iteSnd
    | split
    | dsimp only
theorem State.rxAdmit_keepE {s : State} {x : Seat} {t : Tunnel} {len : Nat} {rE tE} (hE : (State.rxAdmit s x t len) = (rE, tE)) : Keep 72022271690006527 s tE := by
  have k := @State.rxAdmit_keep s x t len; rw [hE] at k; exact k

theorem State.drainAhead_keep {s : State} {x : Seat} {t : Tunnel} {a0 : Nat} :
    Keep 70685231736163375 s (State.drainAhead s x t a0) := by
  induction a0 generalizing s x t with
  | zero => unfold State.drainAhead; exact Keep.rfl'
  | succ n ih =>
    unfold State.drainAhead; try dsimp only
    repeat' first
      | with_reducible exact Keep.rfl'
      | with_reducible assumption
      | (with_reducible apply Keep.step State.deliver_keep; decide)
      | (with_reducible apply Keep.step State.setTun_keep; decide)
      | (with_reducible apply Keep.step ih; decide)
      | with_reducible apply Keep.ite
      | split
      | dsimp only

theorem State.takeSequenced_keep {s : State} {x : Seat} {t : Tunnel} {seq : Half} {low : Nat} {len : Nat} {b : List Byte} :
    Keep 70685231736163375 s (State.takeSequenced s x t seq low len b) := by
  unfold State.takeSequenced; try dsimp only
  repeat' first
    | with_reducible exact Keep.rfl'
    | with_reducible assumption
    | (with_reducible apply Keep.step State.ackPass_keep; decide)
    | (with_reducible apply Keep.step State.drainAhead_keep; decide)
    | (with_reducible apply Keep.step State.reportIn_keep; decide)
    | (with_reducible apply Keep.step State.rxAdmit_keep; decide)
    | with_reducible refine Keep.step (State.rxAdmit_keepE (by assumption)) (by decide) ?_
    | (with_reducible apply Keep.step State.setTun_keep; decide)
    | with_reducible apply Keep.ite
    | split
    | dsimp only

theorem State.takeIso_keep {s : State} {x : Seat} {seq : Half} {low : Nat} {len : Nat} {b : List Byte} :
    Keep 70685231736163375 s (State.takeIso s x seq low len b) := by
  unfold State.takeIso; try dsimp only
  repeat' first
    | with_reducible exact Keep.rfl'
    | with_reducible assumption
    | (with_reducible apply Keep.step State.deliver_keep; decide)
    | (with_reducible apply Keep.step State.rxAdmit_keep; decide)
    | with_reducible refine Keep.step (State.rxAdmit_keepE (by assumption)) (by decide) ?_
    | (with_reducible apply Keep.step State.setTun_keep; decide)
    | with_reducible apply Keep.ite
    | split
    | dsimp only

theorem State.useReport_keep {s : State} {x : Seat} {b : List Byte} :
    Keep 70896346558635631 s (State.useReport s x b) := by
  unfold State.useReport; try dsimp only
  repeat' first
    | with_reducible exact Keep.rfl'
    | with_reducible assumption
    | (with_reducible apply Keep.step State.goDown_keep; decide)
    | (with_reducible apply Keep.step State.takeReport_keep; decide)
    | with_reducible apply Keep.ite
    | split
    | dsimp only

theorem State.takeBare_keep {s : State} {x : Seat} {p : List Byte} :
    Keep 72022409661644799 s (State.takeBare s x p) := by
  unfold State.takeBare; try dsimp only
  repeat' first
    | with_reducible exact Keep.rfl'
    | with_reducible assumption
    | (with_reducible apply Keep.step State.bumpSeat_keep; decide)
    | (with_reducible apply Keep.step State.takeNak_keep; decide)
    | with_reducible apply Keep.ite
    | split
    | dsimp only

theorem State.pauseTimers_keep {s : State} {x : Seat} {time : Nat} :
    Keep 72057594033733631 s (State.pauseTimers s x time) := by
  unfold State.pauseTimers; try dsimp only
  repeat' first
    | with_reducible exact Keep.rfl'
    | with_reducible assumption
    | (with_reducible apply Keep.step State.setTun_keep; decide)
    | with_reducible refine Keep.foldl ?_ (fun _ _ => ?_)
    | with_reducible refine Keep.foldlFst ?_ (fun _ _ => ?_)
    | with_reducible refine Keep.foldlSnd ?_ (fun _ _ => ?_)
    | split
    | dsimp only

theorem State.receive_keep {s : State} {x : Seat} {pcsError : Bool} {b : List Byte} :
    Keep 70685231736163375 s (State.receive s x pcsError b) := by
  unfold State.receive; try dsimp only
  repeat' first
    | with_reducible exact Keep.rfl'
    | with_reducible assumption
    | (with_reducible apply Keep.step State.bumpSeat_keep; decide)
    | (with_reducible apply Keep.step State.count_keep; decide)
    | (with_reducible apply Keep.step State.discardAt_keep; decide)
    | (with_reducible apply Keep.step State.pauseTimers_keep; decide)
    | (with_reducible apply Keep.step State.reportIn_keep; decide)
    | (with_reducible apply Keep.step State.setLink__keep; decide)
    | (with_reducible apply Keep.step State.setSeatTime_keep; decide)
    | (with_reducible apply Keep.step State.takeBare_keep; decide)
    | (with_reducible apply Keep.step State.takeIso_keep; decide)
    | (with_reducible apply Keep.step State.takeSequenced_keep; decide)
    | (with_reducible apply Keep.step State.useReport_keep; decide)
    | with_reducible apply Keep.ite
    | split
    | dsimp only

theorem execStraitFrameReceive_keep {x : Seat} {pcsError : Bool} {bytes : List Byte} {ut : Nat} {s : State} :
    KeepX 30152835089826862 s (execStraitFrameReceive x pcsError bytes ut s) := by
  unfold execStraitFrameReceive; try dsimp only
  repeat' first
    | with_reducible exact Keep.rfl'
    | with_reducible assumption
    | (with_reducible apply Keep.step State.arrive_keep; decide)
    | (with_reducible apply Keep.step State.linkDone_keep; decide)
    | (with_reducible apply Keep.step State.receive_keep; decide)
    | with_reducible refine KeepX.next ?_
    | split
    | dsimp only

end Sys2Proof.Machine
end

