-- ==== Sys2Proof/Laws/KeepQueues.lean ====
section
/-! SUPPORT. What the operations of Machine/Queues.lean may change: one lemma each. -/

namespace Sys2Proof.Machine

theorem State.lapse_keep {s : State} {i : IsletNo} :
    Keep 72022272226877215 s (State.lapse s i) := by
  unfold State.lapse; try dsimp only
  repeat' first
    | with_reducible exact Keep.rfl'
    | with_reducible assumption
    | (with_reducible apply Keep.step State.restallAll_keep; decide)
    | (with_reducible apply Keep.step State.setIslet_keep; decide)
    | (with_reducible apply Keep.step State.setQueue_keep; decide)
    | (with_reducible apply Keep.step State.setShQueue_keep; decide)
    | with_reducible refine Keep.foldl ?_ (fun _ _ => ?_)
    | with_reducible refine Keep.foldlFst ?_ (fun _ _ => ?_)
    | with_reducible refine Keep.foldlSnd ?_ (fun _ _ => ?_)
    | split
    | dsimp only

theorem State.judged_keep {s : State} {c : CoreId} {i : IsletNo} {q : Nat} {bad : Bool} :
    Keep 72022272226877215 s (State.judged s c i q bad) := by
  unfold State.judged; try dsimp only
  repeat' first
    | with_reducible exact Keep.rfl'
    | with_reducible assumption
    | (with_reducible apply Keep.step State.lapse_keep; decide)
    | (with_reducible apply Keep.step State.setQueue_keep; decide)
    | (with_reducible apply Keep.step State.setShQueue_keep; decide)
    | with_reducible apply Keep.ite
    | split
    | dsimp only

theorem State.judgedShadow_keep {s : State} {c : CoreId} {i : IsletNo} {q : Nat} {bad : Bool} :
    Keep 72022272226877215 s (State.judgedShadow s c i q bad) := by
  unfold State.judgedShadow; try dsimp only
  repeat' first
    | with_reducible exact Keep.rfl'
    | with_reducible assumption
    | (with_reducible apply Keep.step State.lapse_keep; decide)
    | (with_reducible apply Keep.step State.setQueue_keep; decide)
    | (with_reducible apply Keep.step State.setShQueue_keep; decide)
    | with_reducible apply Keep.ite
    | split
    | dsimp only

theorem State.roundCheck_keep {s : State} {c : CoreId} {i : IsletNo} :
    Keep 72057594037927359 s (State.roundCheck s c i) := by
  unfold State.roundCheck; try dsimp only
  repeat' first
    | with_reducible exact Keep.rfl'
    | with_reducible assumption
    | (with_reducible apply Keep.step State.newRound_keep; decide)
    | with_reducible apply Keep.ite
    | split
    | dsimp only

theorem State.discardBell_keep {s : State} {g : CoreId} {i : IsletNo} :
    Keep 72022272226876927 s (State.discardBell s g i) := by
  unfold State.discardBell; try dsimp only
  repeat' first
    | with_reducible exact Keep.rfl'
    | with_reducible assumption
    | (with_reducible apply Keep.step State.count_keep; decide)
    | with_reducible apply Keep.setWq
    | exact fun k => absurd k (by decide)
    | with_reducible exact fun _ => rfl
    | with_reducible rfl
    | decide
    | split
    | dsimp only

theorem State.ownBell_keep {s : State} {g : CoreId} {c : CoreId} {i : IsletNo} {q : Nat} {d : List Byte} :
    Keep 70333400874589215 s (State.ownBell s g c i q d) := by
  unfold State.ownBell; try dsimp only
  repeat' first
    | with_reducible exact Keep.rfl'
    | with_reducible assumption
    | (with_reducible apply Keep.step State.count_keep; decide)
    | (with_reducible apply Keep.step State.judged_keep; decide)
    | (with_reducible apply Keep.step State.malformed_keep; decide)
    | (with_reducible apply Keep.step State.roundCheck_keep; decide)
    | (with_reducible apply Keep.step State.setQueue_keep; decide)
    | with_reducible apply Keep.ite
    | split
    | dsimp only

theorem State.shadowBell_keep {s : State} {g : CoreId} {c : CoreId} {i : IsletNo} {q : Nat} {d : List Byte} :
    Keep 72022272226877215 s (State.shadowBell s g c i q d) := by
  unfold State.shadowBell; try dsimp only
  repeat' first
    | with_reducible exact Keep.rfl'
    | with_reducible assumption
    | (with_reducible apply Keep.step State.count_keep; decide)
    | (with_reducible apply Keep.step State.judgedShadow_keep; decide)
    | (with_reducible apply Keep.step State.setShQueue_keep; decide)
    | with_reducible apply Keep.ite
    | split
    | dsimp only

theorem State.doorbell_keep {s : State} {f : FnId} {off : Nat} {d : List Byte} :
    Keep 70333400874589215 s (State.doorbell s f off d) := by
  unfold State.doorbell; try dsimp only
  repeat' first
    | with_reducible exact Keep.rfl'
    | with_reducible assumption
    | (with_reducible apply Keep.step State.discardBell_keep; decide)
    | (with_reducible apply Keep.step State.ownBell_keep; decide)
    | (with_reducible apply Keep.step State.shadowBell_keep; decide)
    | with_reducible apply Keep.ite
    | split
    | dsimp only

theorem execDoorbellPost_keep {f : FnId} {off : Nat} {data : List Byte} {s : State} :
    KeepX 70333400874589215 s (execDoorbellPost f off data s) := by
  unfold execDoorbellPost; try dsimp only
  repeat' first
    | with_reducible exact Keep.rfl'
    | with_reducible assumption
    | (with_reducible apply Keep.step State.doorbell_keep; decide)
    | with_reducible refine KeepX.next ?_
    | with_reducible apply Keep.ite
    | split
    | dsimp only

theorem execDoorbellInvalidate_keep {f : FnId} {off : Nat} {data : List Byte} {s : State} :
    KeepX 70333400874589215 s (execDoorbellInvalidate f off data s) := by
  unfold execDoorbellInvalidate; try dsimp only
  repeat' first
    | with_reducible exact Keep.rfl'
    | with_reducible assumption
    | (with_reducible apply Keep.step State.doorbell_keep; decide)
    | with_reducible refine KeepX.next ?_
    | with_reducible apply Keep.ite
    | split
    | dsimp only

theorem State.putQueueCfg_keep {s : State} {c : CoreId} {i : IsletNo} {q : Nat} {v : QueueSt} :
    Keep 72057594037927871 s (State.putQueueCfg s c i q v) := by
  unfold State.putQueueCfg; try dsimp only
  repeat' first
    | with_reducible exact Keep.rfl'
    | with_reducible assumption
    | (with_reducible apply Keep.step State.setQueue_keep; decide)
    | (with_reducible apply Keep.step State.setShQueue_keep; decide)
    | with_reducible apply Keep.ite
    | split
    | dsimp only

theorem State.putRingCfg_keep {s : State} {c : CoreId} {i : IsletNo} {r : Nat} {v : RingSt} :
    Keep 72022272226877311 s (State.putRingCfg s c i r v) := by
  unfold State.putRingCfg; try dsimp only
  repeat' first
    | with_reducible exact Keep.rfl'
    | with_reducible assumption
    | (with_reducible apply Keep.step State.restall_keep; decide)
    | (with_reducible apply Keep.step State.setRing_keep; decide)
    | (with_reducible apply Keep.step State.setShRing_keep; decide)
    | with_reducible apply Keep.ite
    | split
    | dsimp only

theorem State.writeQueueConfig_keep {s : State} {g : CoreId} {i : IsletNo} {q : Nat} {v : W64} :
    Keep 72057594037927871 s (State.writeQueueConfig s g i q v) := by
  unfold State.writeQueueConfig; try dsimp only
  repeat' first
    | with_reducible exact Keep.rfl'
    | with_reducible assumption
    | (with_reducible apply Keep.step State.putQueueCfg_keep; decide)
    | (with_reducible apply Keep.step State.setQueue_keep; decide)
    | split
    | dsimp only

theorem State.writeRingConfig_keep {s : State} {g : CoreId} {i : IsletNo} {r : Nat} {v : W64} :
    Keep 72022272226877311 s (State.writeRingConfig s g i r v) := by
  unfold State.writeRingConfig; try dsimp only
  repeat' first
    | with_reducible exact Keep.rfl'
    | with_reducible assumption
    | (with_reducible apply Keep.step State.putRingCfg_keep; decide)
    | (with_reducible apply Keep.step State.setRing_keep; decide)
    | split
    | dsimp only

theorem State.writeQueueBase_keep {s : State} {g : CoreId} {i : IsletNo} {q : Nat} {v : W64} :
    Keep 72057594037927871 s (State.writeQueueBase s g i q v) := by
  unfold State.writeQueueBase; try dsimp only
  repeat' first
    | with_reducible exact Keep.rfl'
    | with_reducible assumption
    | (with_reducible apply Keep.step State.putQueueCfg_keep; decide)
    | (with_reducible apply Keep.step State.setQueue_keep; decide)
    | with_reducible apply Keep.ite
    | split
    | dsimp only

theorem State.writeRingBase_keep {s : State} {g : CoreId} {i : IsletNo} {r : Nat} {v : W64} :
    Keep 72022272226877311 s (State.writeRingBase s g i r v) := by
  unfold State.writeRingBase; try dsimp only
  repeat' first
    | with_reducible exact Keep.rfl'
    | with_reducible assumption
    | (with_reducible apply Keep.step State.putRingCfg_keep; decide)
    | (with_reducible apply Keep.step State.setRing_keep; decide)
    | with_reducible apply Keep.ite
    | split
    | dsimp only

theorem execQueueConfigWrite_keep {f : FnId} {i : IsletNo} {q : Fin 512} {v : W64} {s : State} :
    KeepX 72057594037927871 s (execQueueConfigWrite f i q v s) := by
  unfold execQueueConfigWrite; try dsimp only
  repeat' first
    | with_reducible exact Keep.rfl'
    | with_reducible assumption
    | (with_reducible apply Keep.step State.writeQueueConfig_keep; decide)
    | with_reducible refine KeepX.next ?_
    | with_reducible apply Keep.ite
    | split
    | dsimp only

theorem execRingConfigWrite_keep {f : FnId} {i : IsletNo} {r : Fin 256} {v : W64} {s : State} :
    KeepX 72022272226877311 s (execRingConfigWrite f i r v s) := by
  unfold execRingConfigWrite; try dsimp only
  repeat' first
    | with_reducible exact Keep.rfl'
    | with_reducible assumption
    | (with_reducible apply Keep.step State.writeRingConfig_keep; decide)
    | with_reducible refine KeepX.next ?_
    | with_reducible apply Keep.ite
    | split
    | dsimp only

theorem State.noteDiffer_keep {s : State} {c : CoreId} {i : IsletNo} {r : Nat} :
    Keep 72057594037927807 s (State.noteDiffer s c i r) := by
  unfold State.noteDiffer; try dsimp only
  repeat' first
    | with_reducible exact Keep.rfl'
    | with_reducible assumption
    | (with_reducible apply Keep.step State.setRing_keep; decide)
    | with_reducible apply Keep.ite
    | split
    | dsimp only

theorem State.advanceRing_keep {s : State} {c : CoreId} {i : IsletNo} {r : Nat} {n : Half} :
    Keep 72022272226876735 s (State.advanceRing s c i r n) := by
  unfold State.advanceRing; try dsimp only
  repeat' first
    | with_reducible exact Keep.rfl'
    | with_reducible assumption
    | (with_reducible apply Keep.step State.noteDiffer_keep; decide)
    | (with_reducible apply Keep.step State.restall_keep; decide)
    | (with_reducible apply Keep.step State.roundCheck_keep; decide)
    | (with_reducible apply Keep.step State.setRing_keep; decide)
    | split
    | dsimp only

theorem State.writeManagerConsumer_keep {s : State} {g : CoreId} {i : IsletNo} {r : Nat} {v : W64} :
    Keep 72022272226876735 s (State.writeManagerConsumer s g i r v) := by
  unfold State.writeManagerConsumer; try dsimp only
  repeat' first
    | with_reducible exact Keep.rfl'
    | with_reducible assumption
    | (with_reducible apply Keep.step State.advanceRing_keep; decide)
    | (with_reducible apply Keep.step State.setRing_keep; decide)
    | (with_reducible apply Keep.step State.setShRing_keep; decide)
    | with_reducible apply Keep.ite
    | split
    | dsimp only

theorem execRingManagerConsumerWrite_keep {f : FnId} {i : IsletNo} {r : Fin 256} {v : W64} {s : State} :
    KeepX 72022272226876735 s (execRingManagerConsumerWrite f i r v s) := by
  unfold execRingManagerConsumerWrite; try dsimp only
  repeat' first
    | with_reducible exact Keep.rfl'
    | with_reducible assumption
    | (with_reducible apply Keep.step State.writeManagerConsumer_keep; decide)
    | with_reducible refine KeepX.next ?_
    | with_reducible apply Keep.ite
    | split
    | dsimp only

theorem State.writeConsumer_keep {s : State} {f : FnId} {i : IsletNo} {r : Nat} {v : W64} :
    Keep 72022272226876735 s (State.writeConsumer s f i r v) := by
  unfold State.writeConsumer; try dsimp only
  repeat' first
    | with_reducible exact Keep.rfl'
    | with_reducible assumption
    | (with_reducible apply Keep.step State.advanceRing_keep; decide)
    | (with_reducible apply Keep.step State.noteDiffer_keep; decide)
    | (with_reducible apply Keep.step State.restall_keep; decide)
    | (with_reducible apply Keep.step State.roundCheck_keep; decide)
    | (with_reducible apply Keep.step State.setRing_keep; decide)
    | (with_reducible apply Keep.step State.setShRing_keep; decide)
    | with_reducible apply Keep.ite
    | split
    | dsimp only

theorem execCqConsumerWrite_keep {f : FnId} {i : IsletNo} {r : Fin 256} {v : W64} {s : State} :
    KeepX 72022272226876735 s (execCqConsumerWrite f i r v s) := by
  unfold execCqConsumerWrite; try dsimp only
  repeat' first
    | with_reducible exact Keep.rfl'
    | with_reducible assumption
    | (with_reducible apply Keep.step State.writeConsumer_keep; decide)
    | with_reducible refine KeepX.next ?_
    | with_reducible apply Keep.ite
    | split
    | dsimp only

theorem execShadowConsumerLapse_keep {i : IsletNo} {c : CoreId} {r : Fin 256} {ut : Nat} {s : State} :
    KeepX 31489875580540190 s (execShadowConsumerLapse i c r ut s) := by
  unfold execShadowConsumerLapse; try dsimp only
  repeat' first
    | with_reducible exact Keep.rfl'
    | with_reducible assumption
    | (with_reducible apply Keep.step State.arrive_keep; decide)
    | (with_reducible apply Keep.step State.lapse_keep; decide)
    | (with_reducible apply Keep.step State.roundCheck_keep; decide)
    | with_reducible refine KeepX.next ?_
    | with_reducible apply Keep.ite
    | split
    | dsimp only

theorem State.fetchDone_keep {s : State} {c : CoreId} {i : IsletNo} {q : Nat} {data : Option (List Byte)} :
    Keep 70333400874589215 s (State.fetchDone s c i q data) := by
  unfold State.fetchDone; try dsimp only
  repeat' first
    | with_reducible exact Keep.rfl'
    | with_reducible assumption
    | (with_reducible apply Keep.step State.count_keep; decide)
    | (with_reducible apply Keep.step State.countDemand_keep; decide)
    | (with_reducible apply Keep.step State.failCount_keep; decide)
    | (with_reducible apply Keep.step State.malformed_keep; decide)
    | (with_reducible apply Keep.step State.roundCheck_keep; decide)
    | (with_reducible apply Keep.step State.sendReads_keep; decide)
    | (with_reducible apply Keep.step State.setQueue_keep; decide)
    | with_reducible refine Keep.foldl ?_ (fun _ _ => ?_)
    | with_reducible refine Keep.foldlFst ?_ (fun _ _ => ?_)
    | with_reducible refine Keep.foldlSnd ?_ (fun _ _ => ?_)
    | with_reducible apply Keep.ite
    | with_reducible apply Keep.iteFst
    | with_reducible apply Keep.iteSnd
    | split
    | dsimp only

theorem execEntryFetchDone_keep {c : CoreId} {i : IsletNo} {q : Fin 512} {data : Option (List Byte)} {s : State} :
    KeepX 70333400874589215 s (execEntryFetchDone c i q data s) := by
  unfold execEntryFetchDone; try dsimp only
  repeat' first
    | with_reducible exact Keep.rfl'
    | with_reducible assumption
    | (with_reducible apply Keep.step State.fetchDone_keep; decide)
    | with_reducible refine KeepX.next ?_
    | split
    | dsimp only

theorem State.blockTakes_keep {s : State} {h : Nat} {e : EntrySt} :
    Keep 72022267915132543 s (State.blockTakes s h e) := by
  unfold State.blockTakes; try dsimp only
  repeat' first
    | with_reducible exact Keep.rfl'
    | with_reducible assumption
    | (with_reducible apply Keep.step State.bufferTaken_keep; decide)
    | (with_reducible apply Keep.step State.frameTaken_keep; decide)
    | (with_reducible apply Keep.step State.netTaken_keep; decide)
    | split
    | dsimp only

theorem State.takeEntry_keep {s : State} {c : CoreId} {i : IsletNo} {q : Nat} {v : Cached} {rest : List Cached} :
    Keep 72022267910933567 s (State.takeEntry s c i q v rest) := by
  unfold State.takeEntry; try dsimp only
  repeat' first
    | with_reducible exact Keep.rfl'
    | with_reducible assumption
    | (with_reducible apply Keep.step State.blockTakes_keep; decide)
    | (with_reducible apply Keep.step State.count_keep; decide)
    | (with_reducible apply Keep.step State.readyItem_keep; decide)
    | (with_reducible apply Keep.step State.restall_keep; decide)
    | (with_reducible apply Keep.step State.setQueue_keep; decide)
    | (with_reducible apply Keep.step State.setShQueue_keep; decide)
    | with_reducible apply Keep.setWq
    | exact fun k => absurd k (by decide)
    | with_reducible exact fun _ => rfl
    | with_reducible rfl
    | decide
    | with_reducible apply Keep.ite
    | split
    | dsimp only

theorem State.take_keep {s : State} {c : CoreId} {i : IsletNo} {q : Nat} :
    Keep 70333400870390815 s (State.take s c i q) := by
  unfold State.take; try dsimp only
  repeat' first
    | with_reducible exact Keep.rfl'
    | with_reducible assumption
    | (with_reducible apply Keep.step State.malformed_keep; decide)
    | (with_reducible apply Keep.step State.newRound_keep; decide)
    | (with_reducible apply Keep.step State.roundCheck_keep; decide)
    | (with_reducible apply Keep.step State.takeEntry_keep; decide)
    | with_reducible apply Keep.setWq
    | exact fun k => absurd k (by decide)
    | with_reducible exact fun _ => rfl
    | with_reducible rfl
    | decide
    | with_reducible apply Keep.ite
    | split
    | dsimp only

theorem execEntryTake_keep {c : CoreId} {i : IsletNo} {q : Fin 512} {s : State} :
    KeepX 70333400870390815 s (execEntryTake c i q s) := by
  unfold execEntryTake; try dsimp only
  repeat' first
    | with_reducible exact Keep.rfl'
    | with_reducible assumption
    | (with_reducible apply Keep.step State.take_keep; decide)
    | with_reducible refine KeepX.next ?_
    | split
    | dsimp only

theorem execNop_keep {c : CoreId} {h : Nat} {s : State} :
    KeepX 72022272226877055 s (execNop c h s) := by
  unfold execNop; try dsimp only
  repeat' first
    | with_reducible exact Keep.rfl'
    | with_reducible assumption
    | (with_reducible apply Keep.step State.finish_keep; decide)
    | with_reducible refine KeepX.next ?_
    | split
    | dsimp only

theorem execRingWriterPass_keep {c : CoreId} {i : IsletNo} {r : Fin 256} {s : State} :
    KeepX 70333400874589215 s (execRingWriterPass c i r s) := by
  unfold execRingWriterPass; try dsimp only
  repeat' first
    | with_reducible exact Keep.rfl'
    | with_reducible assumption
    | (with_reducible apply Keep.step State.ringPass_keep; decide)
    | (with_reducible apply Keep.step State.roundCheck_keep; decide)
    | with_reducible refine KeepX.next ?_
    | with_reducible apply Keep.ite
    | split
    | dsimp only

theorem State.shadowUpdate_keep {s : State} {c : CoreId} {i : IsletNo} {u : ShadowUpdate} :
    Keep 72057594037927743 s (State.shadowUpdate s c i u) := by
  unfold State.shadowUpdate; try dsimp only
  repeat' first
    | with_reducible exact Keep.rfl'
    | with_reducible assumption
    | (with_reducible apply Keep.step State.sendShadow_keep; decide)
    | (with_reducible apply Keep.step State.setRing_keep; decide)
    | (with_reducible apply Keep.step State.setShQueue_keep; decide)
    | (with_reducible apply Keep.step State.setShRing_keep; decide)
    | with_reducible apply Keep.ite
    | split
    | dsimp only

theorem execShadowRecordUpdate_keep {c : CoreId} {i : IsletNo} {u : ShadowUpdate} {s : State} :
    KeepX 72057594037927743 s (execShadowRecordUpdate c i u s) := by
  unfold execShadowRecordUpdate; try dsimp only
  repeat' first
    | with_reducible exact Keep.rfl'
    | with_reducible assumption
    | (with_reducible apply Keep.step State.shadowUpdate_keep; decide)
    | with_reducible refine KeepX.next ?_
    | split
    | dsimp only

theorem execCompletionWriteFault_keep {c : CoreId} {i : IsletNo} {r : Fin 256} {s : State} :
    KeepX 70333400874589791 s (execCompletionWriteFault c i r s) := by
  unfold execCompletionWriteFault; try dsimp only
  repeat' first
    | with_reducible exact Keep.rfl'
    | with_reducible assumption
    | (with_reducible apply Keep.step State.failCount_keep; decide)
    | (with_reducible apply Keep.step State.haltIslet_keep; decide)
    | with_reducible refine KeepX.next ?_
    | with_reducible apply Keep.ite
    | split
    | dsimp only

theorem State.readFailed_keep {s : State} {why : ReadFor} :
    Keep 70896350760345199 s (State.readFailed s why) := by
  unfold State.readFailed; try dsimp only
  repeat' first
    | with_reducible exact Keep.rfl'
    | with_reducible assumption
    | (with_reducible apply Keep.step State.abortGather_keep; decide)
    | (with_reducible apply Keep.step State.dropWork_keep; decide)
    | (with_reducible apply Keep.step State.failOut_keep; decide)
    | (with_reducible apply Keep.step State.finish_keep; decide)
    | split
    | dsimp only

theorem State.readArrived_keep {s : State} {why : ReadFor} {b : List Byte} :
    Keep 70755609376033839 s (State.readArrived s why b) := by
  unfold State.readArrived; try dsimp only
  repeat' first
    | with_reducible exact Keep.rfl'
    | with_reducible assumption
    | (with_reducible apply Keep.step State.indexArrived_keep; decide)
    | (with_reducible apply Keep.step State.lineArrived_keep; decide)
    | (with_reducible apply Keep.step State.netArrived_keep; decide)
    | (with_reducible apply Keep.step State.outArrived_keep; decide)
    | split
    | dsimp only

theorem State.useReads_keep {a0 : Nat} {a1 : State} {a2 : ReadFor} :
    Keep 70755609376033839 a1 (State.useReads a0 a1 a2) := by
  induction a0 generalizing a1 a2 with
  | zero => unfold State.useReads; exact Keep.rfl'
  | succ n ih =>
    unfold State.useReads; try dsimp only
    repeat' first
      | with_reducible exact Keep.rfl'
      | with_reducible assumption
      | (with_reducible apply Keep.step State.readArrived_keep; decide)
      | with_reducible apply Keep.setHost
      | exact fun k => absurd k (by decide)
      | with_reducible exact fun _ => rfl
      | with_reducible rfl
      | decide
      | (with_reducible apply Keep.step ih; decide)
      | split
      | dsimp only

theorem State.closeReq_keep {s : State} {id : Nat} {f : FnId} :
    Keep 70931694131085311 s (State.closeReq s id f) := by
  unfold State.closeReq; try dsimp only
  repeat' first
    | with_reducible exact Keep.rfl'
    | with_reducible assumption
    | (with_reducible apply Keep.step State.pump_keep; decide)
    | with_reducible apply Keep.setHost
    | exact fun k => absurd k (by decide)
    | with_reducible exact fun _ => rfl
    | with_reducible rfl
    | decide
    | split
    | dsimp only

theorem State.readLatency_keep {s : State} {r : HostRead} :
    Keep 72022409665839103 s (State.readLatency s r) := by
  unfold State.readLatency; try dsimp only
  repeat' first
    | with_reducible exact Keep.rfl'
    | with_reducible assumption
    | (with_reducible apply Keep.step State.latency_keep; decide)
    | split
    | dsimp only

theorem State.failRead_keep {s : State} {n : Nat} :
    Keep 70896350760345199 s (State.failRead s n) := by
  unfold State.failRead; try dsimp only
  repeat' first
    | with_reducible exact Keep.rfl'
    | with_reducible assumption
    | (with_reducible apply Keep.step State.dropReads_keep; decide)
    | (with_reducible apply Keep.step State.readFailed_keep; decide)
    | (with_reducible apply Keep.step State.readLatency_keep; decide)
    | with_reducible apply Keep.ite
    | split
    | dsimp only

theorem State.partArrived_keep {s : State} {n : Nat} {off : Nat} {r : HostRead} {b : List Byte} :
    Keep 70755609376033839 s (State.partArrived s n off r b) := by
  unfold State.partArrived; try dsimp only
  repeat' first
    | with_reducible exact Keep.rfl'
    | with_reducible assumption
    | (with_reducible apply Keep.step State.readLatency_keep; decide)
    | (with_reducible apply Keep.step State.useReads_keep; decide)
    | with_reducible apply Keep.setHost
    | exact fun k => absurd k (by decide)
    | with_reducible exact fun _ => rfl
    | with_reducible rfl
    | decide
    | with_reducible apply Keep.ite
    | split
    | dsimp only

theorem State.readDone_keep {s : State} {id : Nat} {data : Option (List Byte)} :
    Keep 70755609375476783 s (State.readDone s id data) := by
  unfold State.readDone; try dsimp only
  repeat' first
    | with_reducible exact Keep.rfl'
    | with_reducible assumption
    | (with_reducible apply Keep.step State.closeReq_keep; decide)
    | (with_reducible apply Keep.step State.failCount_keep; decide)
    | (with_reducible apply Keep.step State.failRead_keep; decide)
    | (with_reducible apply Keep.step State.partArrived_keep; decide)
    | with_reducible apply Keep.ite
    | split
    | dsimp only

theorem execHostReadCompletion_keep {id : Nat} {data : Option (List Byte)} {s : State} :
    KeepX 70755609375476783 s (execHostReadCompletion id data s) := by
  unfold execHostReadCompletion; try dsimp only
  repeat' first
    | with_reducible exact Keep.rfl'
    | with_reducible assumption
    | (with_reducible apply Keep.step State.readDone_keep; decide)
    | with_reducible refine KeepX.next ?_
    | split
    | dsimp only

theorem State.timedOut_keep {s : State} {id : Nat} :
    Keep 70755609375476783 s (State.timedOut s id) := by
  unfold State.timedOut; try dsimp only
  repeat' first
    | with_reducible exact Keep.rfl'
    | with_reducible assumption
    | (with_reducible apply Keep.step State.readDone_keep; decide)
    | with_reducible apply Keep.ite
    | split
    | dsimp only

theorem execCompletionTimeout_keep {id : Nat} {s : State} :
    KeepX 70755609375476783 s (execCompletionTimeout id s) := by
  unfold execCompletionTimeout; try dsimp only
  repeat' first
    | with_reducible exact Keep.rfl'
    | with_reducible assumption
    | (with_reducible apply Keep.step State.timedOut_keep; decide)
    | with_reducible refine KeepX.next ?_
    | split
    | dsimp only

end Sys2Proof.Machine
end

