-- ==== Sys2Proof/Laws/KeepHosts.lean ====
section
/-! SUPPORT. What the operations of Machine/Hosts.lean may change: one lemma each. -/

namespace Sys2Proof.Machine

theorem State.writeManagerControl_keep {s : State} {p : PortId} {v : W32} :
    Keep 70261541793955827 s (State.writeManagerControl s p v) := by
  unfold State.writeManagerControl; try dsimp only
  repeat' first
    | with_reducible exact Keep.rfl'
    | with_reducible assumption
    | (with_reducible apply Keep.step State.reMode_keep; decide)
    | (with_reducible apply Keep.step State.setPort_keep; decide)
    | (with_reducible apply Keep.step State.storeUpdate_keep; decide)
    | with_reducible apply Keep.setHost
    | exact fun k => absurd k (by decide)
    | with_reducible exact fun _ => rfl
    | with_reducible rfl
    | decide
    | with_reducible apply Keep.ite
    | split
    | dsimp only

theorem execManagerControlWrite_keep {f : FnId} {v : W32} {s : State} :
    KeepX 70261541793955827 s (execManagerControlWrite f v s) := by
  unfold execManagerControlWrite; try dsimp only
  repeat' first
    | with_reducible exact Keep.rfl'
    | with_reducible assumption
    | (with_reducible apply Keep.step State.writeManagerControl_keep; decide)
    | with_reducible refine KeepX.next ?_
    | with_reducible apply Keep.ite
    | split
    | dsimp only

theorem State.renewLease_keep {s : State} {p : PortId} :
    Keep 70261541793955835 s (State.renewLease s p) := by
  unfold State.renewLease; try dsimp only
  repeat' first
    | with_reducible exact Keep.rfl'
    | with_reducible assumption
    | (with_reducible apply Keep.step State.reMode_keep; decide)
    | (with_reducible apply Keep.step State.setPort_keep; decide)
    | split
    | dsimp only

theorem execManagerLeaseRenew_keep {f : FnId} {s : State} :
    KeepX 70261541793955835 s (execManagerLeaseRenew f s) := by
  unfold execManagerLeaseRenew; try dsimp only
  repeat' first
    | with_reducible exact Keep.rfl'
    | with_reducible assumption
    | (with_reducible apply Keep.step State.renewLease_keep; decide)
    | with_reducible refine KeepX.next ?_
    | with_reducible apply Keep.ite
    | split
    | dsimp only

theorem State.releaseSems_keep {s : State} {p : PortId} :
    Keep 72057594037927927 s (State.releaseSems s p) := by
  unfold State.releaseSems; try dsimp only
  repeat' first
    | with_reducible exact Keep.rfl'
    | with_reducible assumption
    | with_reducible apply Keep.setHost
    | exact fun k => absurd k (by decide)
    | with_reducible exact fun _ => rfl
    | with_reducible rfl
    | decide
    | split
    | dsimp only

theorem State.expireLease_keep {s : State} {p : PortId} :
    Keep 70261541793955827 s (State.expireLease s p) := by
  unfold State.expireLease; try dsimp only
  repeat' first
    | with_reducible exact Keep.rfl'
    | with_reducible assumption
    | (with_reducible apply Keep.step State.reMode_keep; decide)
    | (with_reducible apply Keep.step State.releaseSems_keep; decide)
    | (with_reducible apply Keep.step State.setPort_keep; decide)
    | with_reducible apply Keep.ite
    | split
    | dsimp only

theorem execLeaseExpiry_keep {p : PortId} {ut : Nat} {s : State} :
    KeepX 29729007708657650 s (execLeaseExpiry p ut s) := by
  unfold execLeaseExpiry; try dsimp only
  repeat' first
    | with_reducible exact Keep.rfl'
    | with_reducible assumption
    | (with_reducible apply Keep.step State.arrive_keep; decide)
    | (with_reducible apply Keep.step State.expireLease_keep; decide)
    | with_reducible refine KeepX.next ?_
    | split
    | dsimp only

theorem State.readSem_keep {s : State} {p : PortId} {n : Nat} {tie : Bool} :
    Keep 72057594037927927 s (State.readSem s p n tie).2 := by
  unfold State.readSem; try dsimp only
  repeat' first
    | with_reducible exact Keep.rfl'
    | with_reducible assumption
    | (with_reducible apply Keep.step State.setSem_keep; decide)
    | with_reducible apply Keep.setHost
    | exact fun k => absurd k (by decide)
    | with_reducible exact fun _ => rfl
    | with_reducible rfl
    | decide
    | with_reducible apply Keep.ite
    | with_reducible apply Keep.iteSnd
    | split
    | dsimp only
theorem State.readSem_keepE {s : State} {p : PortId} {n : Nat} {tie : Bool} {rE tE} (hE : (State.readSem s p n tie) = (rE, tE)) : Keep 72057594037927927 s tE := by
  have k := @State.readSem_keep s p n tie; rw [hE] at k; exact k

theorem execSemAcquireRead_keep {f : FnId} {n : Fin 64} {tie : Bool} {s : State} :
    KeepX 70931694131085303 s (execSemAcquireRead f n tie s) := by
  unfold execSemAcquireRead; try dsimp only
  repeat' first
    | with_reducible exact Keep.rfl'
    | with_reducible assumption
    | (with_reducible apply Keep.step State.readSem_keep; decide)
    | with_reducible refine Keep.step (State.readSem_keepE (by assumption)) (by decide) ?_
    | (with_reducible apply Keep.step State.sendHost_keep; decide)
    | with_reducible refine KeepX.next ?_
    | with_reducible apply Keep.ite
    | split
    | dsimp only

theorem State.releaseSem_keep {s : State} {p : PortId} {n : Nat} :
    Keep 72057594037927927 s (State.releaseSem s p n) := by
  unfold State.releaseSem; try dsimp only
  repeat' first
    | with_reducible exact Keep.rfl'
    | with_reducible assumption
    | (with_reducible apply Keep.step State.setSem_keep; decide)
    | with_reducible apply Keep.ite
    | split
    | dsimp only

theorem execSemRelease_keep {f : FnId} {n : Fin 64} {s : State} :
    KeepX 72057594037927927 s (execSemRelease f n s) := by
  unfold execSemRelease; try dsimp only
  repeat' first
    | with_reducible exact Keep.rfl'
    | with_reducible assumption
    | (with_reducible apply Keep.step State.releaseSem_keep; decide)
    | with_reducible refine KeepX.next ?_
    | with_reducible apply Keep.ite
    | split
    | dsimp only

theorem State.wakeCommands_keep {s : State} {f : FnId} :
    Keep 72057594037927931 s (State.wakeCommands s f) := by
  unfold State.wakeCommands; try dsimp only
  repeat' first
    | with_reducible exact Keep.rfl'
    | with_reducible assumption
    | (with_reducible apply Keep.step State.setCmdSt_keep; decide)
    | with_reducible refine Keep.foldl ?_ (fun _ _ => ?_)
    | with_reducible refine Keep.foldlFst ?_ (fun _ _ => ?_)
    | with_reducible refine Keep.foldlSnd ?_ (fun _ _ => ?_)
    | with_reducible apply Keep.ite
    | with_reducible apply Keep.iteFst
    | with_reducible apply Keep.iteSnd
    | split
    | dsimp only

theorem State.bmeOn_keep {s : State} {f : FnId} :
    Keep 70368744177663993 s (State.bmeOn s f) := by
  unfold State.bmeOn; try dsimp only
  repeat' first
    | with_reducible exact Keep.rfl'
    | with_reducible assumption
    | (with_reducible apply Keep.step State.pump_keep; decide)
    | (with_reducible apply Keep.step State.releaseMsix_keep; decide)
    | with_reducible apply Keep.setFnQ
    | (with_reducible apply Keep.step State.wakeCommands_keep; decide)
    | exact fun k => absurd k (by decide)
    | with_reducible exact fun _ => rfl
    | with_reducible rfl
    | decide
    | split
    | dsimp only

theorem execBusMasterEnableSet_keep {f : FnId} {s : State} :
    KeepX 70368744177663993 s (execBusMasterEnableSet f s) := by
  unfold execBusMasterEnableSet; try dsimp only
  repeat' first
    | with_reducible exact Keep.rfl'
    | with_reducible assumption
    | (with_reducible apply Keep.step State.bmeOn_keep; decide)
    | with_reducible refine KeepX.next ?_
    | split
    | dsimp only

theorem execBusMasterEnableCleared_keep {f : FnId} {s : State} :
    KeepX 72057594037927933 s (execBusMasterEnableCleared f s) := by
  unfold execBusMasterEnableCleared; try dsimp only
  repeat' first
    | with_reducible exact Keep.rfl'
    | with_reducible assumption
    | with_reducible apply Keep.setFnQ
    | exact fun k => absurd k (by decide)
    | with_reducible exact fun _ => rfl
    | with_reducible rfl
    | decide
    | with_reducible refine KeepX.next ?_
    | split
    | dsimp only

theorem execPasidEnableCleared_keep {f : FnId} {s : State} :
    KeepX 72057594037927933 s (execPasidEnableCleared f s) := by
  unfold execPasidEnableCleared; try dsimp only
  repeat' first
    | with_reducible exact Keep.rfl'
    | with_reducible assumption
    | with_reducible apply Keep.setFnQ
    | exact fun k => absurd k (by decide)
    | with_reducible exact fun _ => rfl
    | with_reducible rfl
    | decide
    | with_reducible refine KeepX.next ?_
    | split
    | dsimp only

theorem execPasidEnableSet_keep {f : FnId} {s : State} :
    KeepX 70368744177663997 s (execPasidEnableSet f s) := by
  unfold execPasidEnableSet; try dsimp only
  repeat' first
    | with_reducible exact Keep.rfl'
    | with_reducible assumption
    | (with_reducible apply Keep.step State.releaseMsix_keep; decide)
    | with_reducible apply Keep.setFnQ
    | exact fun k => absurd k (by decide)
    | with_reducible exact fun _ => rfl
    | with_reducible rfl
    | decide
    | with_reducible refine KeepX.next ?_
    | split
    | dsimp only

theorem execMsixVectorUnmasked_keep {f : FnId} {enable : Bool} {v : Fin 2048} {s : State} :
    KeepX 70368744177663997 s (execMsixVectorUnmasked f enable v s) := by
  unfold execMsixVectorUnmasked; try dsimp only
  repeat' first
    | with_reducible exact Keep.rfl'
    | with_reducible assumption
    | (with_reducible apply Keep.step State.releaseMsix_keep; decide)
    | with_reducible apply Keep.setFnQ
    | exact fun k => absurd k (by decide)
    | with_reducible exact fun _ => rfl
    | with_reducible rfl
    | decide
    | with_reducible refine KeepX.next ?_
    | with_reducible apply Keep.ite
    | split
    | dsimp only

theorem execAspmL1Entry_keep {f : FnId} {s : State} :
    KeepX 72022272226877437 s (execAspmL1Entry f s) := by
  unfold execAspmL1Entry; try dsimp only
  repeat' first
    | with_reducible exact Keep.rfl'
    | with_reducible assumption
    | with_reducible apply Keep.setFnQ
    | (with_reducible apply Keep.step State.settleDomain_keep; decide)
    | exact fun k => absurd k (by decide)
    | with_reducible exact fun _ => rfl
    | with_reducible rfl
    | decide
    | with_reducible refine KeepX.next ?_
    | with_reducible apply Keep.ite
    | split
    | dsimp only

theorem State.moveFrame_keep {s : State} {c : CoreId} {key : Nat} {o : Nat} {o' : Nat} :
    Keep 72022268296814591 s (State.moveFrame s c key o o') := by
  unfold State.moveFrame; try dsimp only
  repeat' first
    | with_reducible exact Keep.rfl'
    | with_reducible assumption
    | (with_reducible apply Keep.step State.setFabCore_keep; decide)
    | (with_reducible apply Keep.step State.setFabPort_keep; decide)
    | (with_reducible apply Keep.step State.skipInto_keep; decide)
    | (with_reducible apply Keep.step State.uncharge_keep; decide)
    | with_reducible apply Keep.ite
    | split
    | dsimp only

theorem State.renumber_keep {s : State} {c : CoreId} {t : Fin 3} {ky : Nat} :
    Keep 72057593501057023 s (State.renumber s c t ky) := by
  unfold State.renumber; try dsimp only
  repeat' first
    | with_reducible exact Keep.rfl'
    | with_reducible assumption
    | (with_reducible apply Keep.step State.setFabCore_keep; decide)
    | with_reducible refine Keep.foldl ?_ (fun _ _ => ?_)
    | with_reducible refine Keep.foldlFst ?_ (fun _ _ => ?_)
    | with_reducible refine Keep.foldlSnd ?_ (fun _ _ => ?_)
    | with_reducible refine Keep.getD ?_ ?_
    | split
    | dsimp only

theorem State.movePaired_keep {s : State} {c : CoreId} {p : PortId} :
    Keep 72022268296814591 s (State.movePaired s c p) := by
  unfold State.movePaired; try dsimp only
  repeat' first
    | with_reducible exact Keep.rfl'
    | with_reducible assumption
    | (with_reducible apply Keep.step State.moveFrame_keep; decide)
    | (with_reducible apply Keep.step State.renumber_keep; decide)
    | with_reducible refine Keep.foldl ?_ (fun _ _ => ?_)
    | with_reducible refine Keep.foldlFst ?_ (fun _ _ => ?_)
    | with_reducible refine Keep.foldlSnd ?_ (fun _ _ => ?_)
    | with_reducible apply Keep.ite
    | with_reducible apply Keep.iteFst
    | with_reducible apply Keep.iteSnd
    | split
    | dsimp only

theorem State.lostPath_keep {s : State} {f : FnId} {i : IsletNo} :
    Keep 70333400874589791 s (State.lostPath s f i) := by
  unfold State.lostPath; try dsimp only
  repeat' first
    | with_reducible exact Keep.rfl'
    | with_reducible assumption
    | (with_reducible apply Keep.step State.haltIslet_keep; decide)
    | (with_reducible apply Keep.step State.setIslet_keep; decide)
    | with_reducible apply Keep.ite
    | split
    | dsimp only

theorem State.orphan_keep {s : State} :
    Keep 70333400874589791 s (State.orphan s) := by
  unfold State.orphan; try dsimp only
  repeat' first
    | with_reducible exact Keep.rfl'
    | with_reducible assumption
    | (with_reducible apply Keep.step State.haltIslet_keep; decide)
    | with_reducible refine Keep.foldl ?_ (fun _ _ => ?_)
    | with_reducible refine Keep.foldlFst ?_ (fun _ _ => ?_)
    | with_reducible refine Keep.foldlSnd ?_ (fun _ _ => ?_)
    | with_reducible apply Keep.ite
    | with_reducible apply Keep.iteFst
    | with_reducible apply Keep.iteSnd
    | split
    | dsimp only

theorem State.restMode_keep {s : State} :
    Keep 70261378798689887 s (State.restMode s) := by
  unfold State.restMode; try dsimp only
  repeat' first
    | with_reducible exact Keep.rfl'
    | with_reducible assumption
    | (with_reducible apply Keep.step State.enterMode_keep; decide)
    | (with_reducible apply Keep.step State.leaveScreen_keep; decide)
    | (with_reducible apply Keep.step State.orphan_keep; decide)
    | with_reducible refine Keep.foldl ?_ (fun _ _ => ?_)
    | with_reducible refine Keep.foldlFst ?_ (fun _ _ => ?_)
    | with_reducible refine Keep.foldlSnd ?_ (fun _ _ => ?_)
    | with_reducible apply Keep.ite
    | with_reducible apply Keep.iteFst
    | with_reducible apply Keep.iteSnd
    | split
    | dsimp only

theorem State.reModeFn_keep {s : State} :
    Keep 70261378798689887 s (State.reModeFn s) := by
  unfold State.reModeFn; try dsimp only
  repeat' first
    | with_reducible exact Keep.rfl'
    | with_reducible assumption
    | (with_reducible apply Keep.step State.restMode_keep; decide)
    | with_reducible apply Keep.ite
    | split
    | dsimp only

theorem State.fnEdge_keep {s : State} {f : FnId} :
    Keep 72022272226877439 s (State.fnEdge s f) := by
  unfold State.fnEdge; try dsimp only
  repeat' first
    | with_reducible exact Keep.rfl'
    | with_reducible assumption
    | (with_reducible apply Keep.step State.edge_keep; decide)
    | split
    | dsimp only

theorem State.loseFn_keep {s : State} {f : FnId} {st : FnLink} :
    Keep 70261378664472157 s (State.loseFn s f st) := by
  unfold State.loseFn; try dsimp only
  repeat' first
    | with_reducible exact Keep.rfl'
    | with_reducible assumption
    | (with_reducible apply Keep.step State.fnEdge_keep; decide)
    | (with_reducible apply Keep.step State.lostPath_keep; decide)
    | (with_reducible apply Keep.step State.movePaired_keep; decide)
    | (with_reducible apply Keep.step State.reModeFn_keep; decide)
    | with_reducible apply Keep.setFnQ
    | (with_reducible apply Keep.step State.setPortState_keep; decide)
    | (with_reducible apply Keep.step State.settleDomain_keep; decide)
    | exact fun k => absurd k (by decide)
    | with_reducible exact fun _ => rfl
    | with_reducible rfl
    | decide
    | with_reducible refine Keep.foldl ?_ (fun _ _ => ?_)
    | with_reducible refine Keep.foldlFst ?_ (fun _ _ => ?_)
    | with_reducible refine Keep.foldlSnd ?_ (fun _ _ => ?_)
    | with_reducible apply Keep.ite
    | with_reducible apply Keep.iteFst
    | with_reducible apply Keep.iteSnd
    | split
    | dsimp only

theorem execHostLinkDown_keep {f : FnId} {why : LinkLoss} {s : State} :
    KeepX 70261378664472157 s (execHostLinkDown f why s) := by
  unfold execHostLinkDown; try dsimp only
  repeat' first
    | with_reducible exact Keep.rfl'
    | with_reducible assumption
    | (with_reducible apply Keep.step State.loseFn_keep; decide)
    | with_reducible refine KeepX.next ?_
    | split
    | dsimp only

theorem State.pathBack_keep {s : State} {f : FnId} {i : IsletNo} :
    Keep 72057594037927903 s (State.pathBack s f i) := by
  unfold State.pathBack; try dsimp only
  repeat' first
    | with_reducible exact Keep.rfl'
    | with_reducible assumption
    | (with_reducible apply Keep.step State.setIslet_keep; decide)
    | with_reducible apply Keep.ite
    | split
    | dsimp only

theorem State.fnComes_keep {s : State} {f : FnId} {en : PcieEnables} {k : PcieControl} {l : PcieLink} :
    Keep 70261378798689881 s (State.fnComes s f en k l) := by
  unfold State.fnComes; try dsimp only
  repeat' first
    | with_reducible exact Keep.rfl'
    | with_reducible assumption
    | (with_reducible apply Keep.step State.fnEdge_keep; decide)
    | (with_reducible apply Keep.step State.pathBack_keep; decide)
    | (with_reducible apply Keep.step State.pump_keep; decide)
    | (with_reducible apply Keep.step State.reModeFn_keep; decide)
    | (with_reducible apply Keep.step State.releaseMsix_keep; decide)
    | with_reducible apply Keep.setFnQ
    | (with_reducible apply Keep.step State.setPortState_keep; decide)
    | (with_reducible apply Keep.step State.settleDomain_keep; decide)
    | (with_reducible apply Keep.step State.wakeCommands_keep; decide)
    | exact fun k => absurd k (by decide)
    | with_reducible exact fun _ => rfl
    | with_reducible rfl
    | decide
    | with_reducible refine Keep.foldl ?_ (fun _ _ => ?_)
    | with_reducible refine Keep.foldlFst ?_ (fun _ _ => ?_)
    | with_reducible refine Keep.foldlSnd ?_ (fun _ _ => ?_)
    | with_reducible refine Keep.getD ?_ ?_
    | with_reducible apply Keep.ite
    | with_reducible apply Keep.iteFst
    | with_reducible apply Keep.iteSnd
    | split
    | dsimp only

theorem execHostLinkUp_keep {f : FnId} {en : PcieEnables} {ctl : PcieControl} {link : PcieLink} {s : State} :
    KeepX 70261378798689881 s (execHostLinkUp f en ctl link s) := by
  unfold execHostLinkUp; try dsimp only
  repeat' first
    | with_reducible exact Keep.rfl'
    | with_reducible assumption
    | (with_reducible apply Keep.step State.fnComes_keep; decide)
    | with_reducible refine KeepX.next ?_
    | split
    | dsimp only

theorem State.pairedReturn_keep {s : State} {i : IsletNo} {c : CoreId} :
    Keep 72057594037927903 s (State.pairedReturn s i c) := by
  unfold State.pairedReturn; try dsimp only
  repeat' first
    | with_reducible exact Keep.rfl'
    | with_reducible assumption
    | (with_reducible apply Keep.step State.setIslet_keep; decide)
    | with_reducible apply Keep.ite
    | split
    | dsimp only

theorem execPairedTrafficReturn_keep {i : IsletNo} {c : CoreId} {s : State} :
    KeepX 72057594037927903 s (execPairedTrafficReturn i c s) := by
  unfold execPairedTrafficReturn; try dsimp only
  repeat' first
    | with_reducible exact Keep.rfl'
    | with_reducible assumption
    | (with_reducible apply Keep.step State.pairedReturn_keep; decide)
    | with_reducible refine KeepX.next ?_
    | split
    | dsimp only

theorem State.clearEnables_keep {s : State} {f : FnId} :
    Keep 72057594037927933 s (State.clearEnables s f) := by
  unfold State.clearEnables; try dsimp only
  repeat' first
    | with_reducible exact Keep.rfl'
    | with_reducible assumption
    | with_reducible apply Keep.setFnQ
    | exact fun k => absurd k (by decide)
    | with_reducible exact fun _ => rfl
    | with_reducible rfl
    | decide
    | split
    | dsimp only

theorem State.resetPort_keep {s : State} {p : PortId} :
    Keep 70261378664472157 s (State.resetPort s p) := by
  unfold State.resetPort; try dsimp only
  repeat' first
    | with_reducible exact Keep.rfl'
    | with_reducible assumption
    | (with_reducible apply Keep.step State.clearEnables_keep; decide)
    | (with_reducible apply Keep.step State.loseFn_keep; decide)
    | split
    | dsimp only

theorem execPerstAsserted_keep {p : PortId} {s : State} :
    KeepX 70261378664472157 s (execPerstAsserted p s) := by
  unfold execPerstAsserted; try dsimp only
  repeat' first
    | with_reducible exact Keep.rfl'
    | with_reducible assumption
    | (with_reducible apply Keep.step State.resetPort_keep; decide)
    | with_reducible refine KeepX.next ?_
    | split
    | dsimp only

end Sys2Proof.Machine
end

