-- ==== Sys2Proof/Laws/KeepIslets.lean ====
section
/-! SUPPORT. What the operations of Machine/Islets.lean may change: one lemma each. -/

namespace Sys2Proof.Machine

theorem State.iswFresh_wf {s : State} {c : CoreId} {i : IsletNo} : Memory.wf (s.iswFresh c i) = true := by
  unfold State.iswFresh
  exact foldl_mem_wf _ _ _ rfl fun m a h => writeBytes_wf _ _ _ h

theorem State.goCmd_keep {s : State} {f : FnId} {k : CmdSet} {op : Byte} {arg : Byte} {force : Bool} :
    Keep 72057594037927931 s (State.goCmd s f k op arg force) := by
  unfold State.goCmd; try dsimp only
  repeat' first
    | with_reducible exact Keep.rfl'
    | with_reducible assumption
    | (with_reducible apply Keep.step State.setCmdSt_keep; decide)
    | with_reducible apply Keep.ite
    | split
    | dsimp only

theorem State.endCmd_keep {s : State} {p : PortId} {k : CmdSet} {status : Byte} {detail : W32} :
    Keep 70368744177663995 s (State.endCmd s p k status detail) := by
  unfold State.endCmd; try dsimp only
  repeat' first
    | with_reducible exact Keep.rfl'
    | with_reducible assumption
    | (with_reducible apply Keep.step State.msix_keep; decide)
    | (with_reducible apply Keep.step State.setCmdSt_keep; decide)
    | split
    | dsimp only

theorem State.needRead_keep {s : State} {p : PortId} {k : CmdSet} :
    Keep 72057594037927931 s (State.needRead s p k) := by
  unfold State.needRead; try dsimp only
  repeat' first
    | with_reducible exact Keep.rfl'
    | with_reducible assumption
    | (with_reducible apply Keep.step State.setCmdSt_keep; decide)
    | with_reducible apply Keep.ite
    | split
    | dsimp only

theorem State.retryCmds_keep {s : State} {keep : CmdSt → Bool} :
    Keep 70368744177663995 s (State.retryCmds s keep) := by
  unfold State.retryCmds; try dsimp only
  repeat' first
    | with_reducible exact Keep.rfl'
    | with_reducible assumption
    | (with_reducible apply Keep.step State.endCmd_keep; decide)
    | with_reducible refine Keep.foldl ?_ (fun _ _ => ?_)
    | with_reducible refine Keep.foldlFst ?_ (fun _ _ => ?_)
    | with_reducible refine Keep.foldlSnd ?_ (fun _ _ => ?_)
    | with_reducible apply Keep.ite
    | with_reducible apply Keep.iteFst
    | with_reducible apply Keep.iteSnd
    | split
    | dsimp only

theorem State.loseSeat_keep {s : State} {x : Seat} :
    Keep 70896346561781327 s (State.loseSeat s x) := by
  unfold State.loseSeat; try dsimp only
  repeat' first
    | with_reducible exact Keep.rfl'
    | with_reducible assumption
    | (with_reducible apply Keep.step State.closeEp_keep; decide)
    | (with_reducible apply Keep.step State.detachHead_keep; decide)
    | (with_reducible apply Keep.step State.dropConfig_keep; decide)
    | (with_reducible apply Keep.step State.dropDisowned_keep; decide)
    | (with_reducible apply Keep.step State.endNet_keep; decide)
    | (with_reducible apply Keep.step State.portChange_keep; decide)
    | with_reducible apply Keep.setDue
    | (with_reducible apply Keep.step State.setIslet_keep; decide)
    | (with_reducible apply Keep.step State.settleGroups_keep; decide)
    | (with_reducible apply Keep.step State.settleSeat_keep; decide)
    | decide
    | with_reducible apply writeBytes_wf
    | with_reducible apply writeNat_wf
    | with_reducible apply foldl_mem_wf
    | exact State.isw_wf (by assumption)
    | exact State.due_wf (by assumption)
    | exact State.dram_wf (by assumption)
    | with_reducible rfl
    | intro _
    | with_reducible refine Keep.foldl ?_ (fun _ _ => ?_)
    | with_reducible refine Keep.foldlFst ?_ (fun _ _ => ?_)
    | with_reducible refine Keep.foldlSnd ?_ (fun _ _ => ?_)
    | with_reducible apply Keep.ite
    | with_reducible apply Keep.iteFst
    | with_reducible apply Keep.iteSnd
    | split
    | dsimp only

theorem State.gainSeat_keep {s : State} {i : IsletNo} {x : Seat} :
    Keep 72022272226811743 s (State.gainSeat s i x) := by
  unfold State.gainSeat; try dsimp only
  repeat' first
    | with_reducible exact Keep.rfl'
    | with_reducible assumption
    | (with_reducible apply Keep.step State.freshPorts_keep; decide)
    | (with_reducible apply Keep.step State.setIslet_keep; decide)
    | (with_reducible apply Keep.step State.settleSeat_keep; decide)
    | split
    | dsimp only

theorem State.createIslet_keep {s : State} {i : IsletNo} {p : PortId} {b : List Byte} :
    Keep 70261387175042911 s (State.createIslet s i p b) := by
  unfold State.createIslet; try dsimp only
  repeat' first
    | with_reducible exact Keep.rfl'
    | with_reducible assumption
    | (with_reducible apply Keep.step State.gainSeat_keep; decide)
    | (with_reducible apply Keep.step State.poolAlarms_keep; decide)
    | (with_reducible apply Keep.step State.reMode_keep; decide)
    | (with_reducible apply Keep.step State.setIslet_keep; decide)
    | (with_reducible apply Keep.step State.setIsletTraf_keep; decide)
    | with_reducible apply Keep.setIsw
    | decide
    | with_reducible apply writeBytes_wf
    | with_reducible apply writeNat_wf
    | with_reducible apply foldl_mem_wf
    | exact State.isw_wf (by assumption)
    | exact State.due_wf (by assumption)
    | exact State.dram_wf (by assumption)
    | with_reducible rfl
    | intro _
    | with_reducible refine Keep.foldl ?_ (fun _ _ => ?_)
    | with_reducible refine Keep.foldlFst ?_ (fun _ _ => ?_)
    | with_reducible refine Keep.foldlSnd ?_ (fun _ _ => ?_)
    | with_reducible refine Keep.getD ?_ ?_
    | split
    | dsimp only

theorem execIsletDrained_keep {i : IsletNo} {s : State} :
    KeepX 72057594037927903 s (execIsletDrained i s) := by
  unfold execIsletDrained; try dsimp only
  repeat' first
    | with_reducible exact Keep.rfl'
    | with_reducible assumption
    | (with_reducible apply Keep.step State.setIslet_keep; decide)
    | with_reducible refine KeepX.next ?_
    | with_reducible apply Keep.ite
    | split
    | dsimp only

theorem State.dropEntries_keep {s : State} {i : IsletNo} :
    Keep 72057589725773567 s (State.dropEntries s i) := by
  unfold State.dropEntries; try dsimp only
  repeat' first
    | with_reducible exact Keep.rfl'
    | with_reducible assumption
    | (with_reducible apply Keep.step State.dropWork_keep; decide)
    | (with_reducible apply Keep.step State.setEntry_keep; decide)
    | with_reducible refine Keep.foldl ?_ (fun _ _ => ?_)
    | with_reducible refine Keep.foldlFst ?_ (fun _ _ => ?_)
    | with_reducible refine Keep.foldlSnd ?_ (fun _ _ => ?_)
    | split
    | dsimp only

theorem State.abortEntries_keep {s : State} {i : IsletNo} :
    Keep 72022267914722943 s (State.abortEntries s i) := by
  unfold State.abortEntries; try dsimp only
  repeat' first
    | with_reducible exact Keep.rfl'
    | with_reducible assumption
    | (with_reducible apply Keep.step State.dropWork_keep; decide)
    | (with_reducible apply Keep.step State.finish_keep; decide)
    | with_reducible refine Keep.foldl ?_ (fun _ _ => ?_)
    | with_reducible refine Keep.foldlFst ?_ (fun _ _ => ?_)
    | with_reducible refine Keep.foldlSnd ?_ (fun _ _ => ?_)
    | with_reducible apply Keep.ite
    | with_reducible apply Keep.iteFst
    | with_reducible apply Keep.iteSnd
    | split
    | dsimp only

theorem State.mapQueues_keep {s : State} {i : IsletNo} {fq : QueueSt → QueueSt} {fr : RingSt → RingSt} :
    Keep 72057594037927231 s (State.mapQueues s i fq fr) := by
  unfold State.mapQueues; try dsimp only
  repeat' first
    | with_reducible exact Keep.rfl'
    | with_reducible assumption
    | (with_reducible apply Keep.step State.setQueue_keep; decide)
    | (with_reducible apply Keep.step State.setRing_keep; decide)
    | (with_reducible apply Keep.step State.setShQueue_keep; decide)
    | (with_reducible apply Keep.step State.setShRing_keep; decide)
    | with_reducible apply Keep.setWq
    | exact fun k => absurd k (by decide)
    | with_reducible exact fun _ => rfl
    | with_reducible rfl
    | decide
    | with_reducible refine Keep.foldl ?_ (fun _ _ => ?_)
    | with_reducible refine Keep.foldlFst ?_ (fun _ _ => ?_)
    | with_reducible refine Keep.foldlSnd ?_ (fun _ _ => ?_)
    | split
    | dsimp only

theorem State.clearLost_keep {s : State} {i : IsletNo} :
    Keep 72057594037927743 s (State.clearLost s i) := by
  unfold State.clearLost; try dsimp only
  repeat' first
    | with_reducible exact Keep.rfl'
    | with_reducible assumption
    | (with_reducible apply Keep.step State.setQueue_keep; decide)
    | (with_reducible apply Keep.step State.setRing_keep; decide)
    | (with_reducible apply Keep.step State.setShQueue_keep; decide)
    | (with_reducible apply Keep.step State.setShRing_keep; decide)
    | with_reducible refine Keep.foldl ?_ (fun _ _ => ?_)
    | with_reducible refine Keep.foldlFst ?_ (fun _ _ => ?_)
    | with_reducible refine Keep.foldlSnd ?_ (fun _ _ => ?_)
    | with_reducible apply Keep.ite
    | with_reducible apply Keep.iteFst
    | with_reducible apply Keep.iteSnd
    | split
    | dsimp only

theorem State.resetIslet_keep {s : State} {i : IsletNo} :
    Keep 70896350827453471 s (State.resetIslet s i) := by
  unfold State.resetIslet; try dsimp only
  repeat' first
    | with_reducible exact Keep.rfl'
    | with_reducible assumption
    | (with_reducible apply Keep.step State.abortEntries_keep; decide)
    | (with_reducible apply Keep.step State.clearLost_keep; decide)
    | (with_reducible apply Keep.step State.closeEp_keep; decide)
    | (with_reducible apply Keep.step State.dropStores_keep; decide)
    | (with_reducible apply Keep.step State.mapQueues_keep; decide)
    | (with_reducible apply Keep.step State.restallAll_keep; decide)
    | with_reducible apply Keep.setDue
    | (with_reducible apply Keep.step State.setIslet_keep; decide)
    | with_reducible apply Keep.setIsw
    | decide
    | with_reducible apply writeBytes_wf
    | with_reducible apply writeNat_wf
    | with_reducible apply foldl_mem_wf
    | exact State.isw_wf (by assumption)
    | exact State.due_wf (by assumption)
    | exact State.dram_wf (by assumption)
    | with_reducible rfl
    | with_reducible apply State.iswFresh_wf
    | intro _
    | with_reducible refine Keep.foldl ?_ (fun _ _ => ?_)
    | with_reducible refine Keep.foldlFst ?_ (fun _ _ => ?_)
    | with_reducible refine Keep.foldlSnd ?_ (fun _ _ => ?_)
    | split
    | dsimp only

theorem State.freeTrunks_keep {s : State} {i : IsletNo} :
    Keep 72022268296814591 s (State.freeTrunks s i) := by
  unfold State.freeTrunks; try dsimp only
  repeat' first
    | with_reducible exact Keep.rfl'
    | with_reducible assumption
    | (with_reducible apply Keep.step State.discardOut_keep; decide)
    | with_reducible refine Keep.foldl ?_ (fun _ _ => ?_)
    | with_reducible refine Keep.foldlFst ?_ (fun _ _ => ?_)
    | with_reducible refine Keep.foldlSnd ?_ (fun _ _ => ?_)
    | split
    | dsimp only

theorem State.unloadIslet_keep {s : State} {i : IsletNo} :
    Keep 72057594037926911 s (State.unloadIslet s i) := by
  unfold State.unloadIslet; try dsimp only
  repeat' first
    | with_reducible exact Keep.rfl'
    | with_reducible assumption
    | (with_reducible apply Keep.step State.freeImages_keep; decide)
    | (with_reducible apply Keep.step State.setStore_keep; decide)
    | with_reducible refine Keep.foldl ?_ (fun _ _ => ?_)
    | with_reducible refine Keep.foldlFst ?_ (fun _ _ => ?_)
    | with_reducible refine Keep.foldlSnd ?_ (fun _ _ => ?_)
    | with_reducible apply Keep.ite
    | with_reducible apply Keep.iteFst
    | with_reducible apply Keep.iteSnd
    | split
    | dsimp only

theorem State.destroyIslet_keep {s : State} {i : IsletNo} :
    Keep 70261378596739087 s (State.destroyIslet s i) := by
  unfold State.destroyIslet; try dsimp only
  repeat' first
    | with_reducible exact Keep.rfl'
    | with_reducible assumption
    | (with_reducible apply Keep.step State.dropDisowned_keep; decide)
    | (with_reducible apply Keep.step State.dropEntries_keep; decide)
    | (with_reducible apply Keep.step State.dropStores_keep; decide)
    | (with_reducible apply Keep.step State.freeTrunks_keep; decide)
    | (with_reducible apply Keep.step State.loseSeat_keep; decide)
    | (with_reducible apply Keep.step State.mapQueues_keep; decide)
    | (with_reducible apply Keep.step State.poolAlarms_keep; decide)
    | (with_reducible apply Keep.step State.poolIslet_keep; decide)
    | (with_reducible apply Keep.step State.reMode_keep; decide)
    | (with_reducible apply Keep.step State.setIslet_keep; decide)
    | (with_reducible apply Keep.step State.setIsletTraf_keep; decide)
    | with_reducible apply Keep.setIsw
    | (with_reducible apply Keep.step State.unloadIslet_keep; decide)
    | with_reducible apply Keep.setUsb
    | exact fun k => absurd k (by decide)
    | with_reducible exact fun _ => rfl
    | with_reducible rfl
    | decide
    | decide
    | with_reducible apply writeBytes_wf
    | with_reducible apply writeNat_wf
    | with_reducible apply foldl_mem_wf
    | exact State.isw_wf (by assumption)
    | exact State.due_wf (by assumption)
    | exact State.dram_wf (by assumption)
    | with_reducible rfl
    | intro _
    | with_reducible refine Keep.foldl ?_ (fun _ _ => ?_)
    | with_reducible refine Keep.foldlFst ?_ (fun _ _ => ?_)
    | with_reducible refine Keep.foldlSnd ?_ (fun _ _ => ?_)
    | split
    | dsimp only

theorem State.resumeIslet_keep {s : State} {i : IsletNo} :
    Keep 71881526681259167 s (State.resumeIslet s i) := by
  unfold State.resumeIslet; try dsimp only
  repeat' first
    | with_reducible exact Keep.rfl'
    | with_reducible assumption
    | (with_reducible apply Keep.step State.setIslet_keep; decide)
    | (with_reducible apply Keep.step netPump_keep; decide)
    | with_reducible refine Keep.foldl ?_ (fun _ _ => ?_)
    | with_reducible refine Keep.foldlFst ?_ (fun _ _ => ?_)
    | with_reducible refine Keep.foldlSnd ?_ (fun _ _ => ?_)
    | split
    | dsimp only

theorem State.setSeats_keep {s : State} {i : IsletNo} {m : W64} :
    Keep 70896346561781327 s (State.setSeats s i m) := by
  unfold State.setSeats; try dsimp only
  repeat' first
    | with_reducible exact Keep.rfl'
    | with_reducible assumption
    | (with_reducible apply Keep.step State.gainSeat_keep; decide)
    | (with_reducible apply Keep.step State.loseSeat_keep; decide)
    | with_reducible refine Keep.foldl ?_ (fun _ _ => ?_)
    | with_reducible refine Keep.foldlFst ?_ (fun _ _ => ?_)
    | with_reducible refine Keep.foldlSnd ?_ (fun _ _ => ?_)
    | split
    | dsimp only

theorem State.isletRun_keep {s : State} {p : PortId} :
    Keep 70120641108379659 s (State.isletRun s p) := by
  unfold State.isletRun; try dsimp only
  repeat' first
    | with_reducible exact Keep.rfl'
    | with_reducible assumption
    | (with_reducible apply Keep.step State.destroyIslet_keep; decide)
    | (with_reducible apply Keep.step State.endCmd_keep; decide)
    | (with_reducible apply Keep.step State.needRead_keep; decide)
    | (with_reducible apply Keep.step State.resetIslet_keep; decide)
    | (with_reducible apply Keep.step State.resumeIslet_keep; decide)
    | (with_reducible apply Keep.step State.roundCheck_keep; decide)
    | (with_reducible apply Keep.step State.setIslet_keep; decide)
    | split
    | dsimp only

theorem State.commandRead_keep {s : State} {p : PortId} {k : CmdSet} {off : Nat} {len : Nat} :
    Keep 70896355140165631 s (State.commandRead s p k off len) := by
  unfold State.commandRead; try dsimp only
  repeat' first
    | with_reducible exact Keep.rfl'
    | with_reducible assumption
    | (with_reducible apply Keep.step State.count_keep; decide)
    | (with_reducible apply Keep.step State.countDemand_keep; decide)
    | (with_reducible apply Keep.step State.sendReads_keep; decide)
    | with_reducible apply Keep.ite
    | split
    | dsimp only

theorem State.isletRead_keep {s : State} {p : PortId} {data : Option (List Byte)} :
    Keep 70261378596740683 s (State.isletRead s p data) := by
  unfold State.isletRead; try dsimp only
  repeat' first
    | with_reducible exact Keep.rfl'
    | with_reducible assumption
    | (with_reducible apply Keep.step State.createIslet_keep; decide)
    | (with_reducible apply Keep.step State.endCmd_keep; decide)
    | (with_reducible apply Keep.step State.setSeats_keep; decide)
    | with_reducible apply Keep.ite
    | split
    | dsimp only

end Sys2Proof.Machine
end

