-- ==== Sys2Proof/Laws/KeepVerifier.lean ====
section
/-! SUPPORT. What the operations of Machine/Verifier.lean may change: one lemma each. -/

namespace Sys2Proof.Machine

theorem State.dropImage_keep {s : State} {c : CoreId} {id : ProgId} :
    Keep 72057594037926911 s (State.dropImage s c id) := by
  unfold State.dropImage; try dsimp only
  repeat' first
    | with_reducible exact Keep.rfl'
    | with_reducible assumption
    | (with_reducible apply Keep.step State.freeImages_keep; decide)
    | (with_reducible apply Keep.step State.setStore_keep; decide)
    | with_reducible apply Keep.ite
    | split
    | dsimp only

theorem State.placeImage_keep {s : State} {c : CoreId} {id : ProgId} {i : IsletNo} {tag : W32} {queue : Half} {b : List Byte} :
    Keep 72057594037910527 s (State.placeImage s c id i tag queue b) := by
  unfold State.placeImage; try dsimp only
  repeat' first
    | with_reducible exact Keep.rfl'
    | with_reducible assumption
    | (with_reducible apply Keep.step State.dropImage_keep; decide)
    | with_reducible apply Keep.setIsw
    | (with_reducible apply Keep.step State.setStore_keep; decide)
    | decide
    | with_reducible apply writeBytes_wf
    | with_reducible apply writeNat_wf
    | with_reducible apply foldl_mem_wf
    | exact State.isw_wf (by assumption)
    | exact State.due_wf (by assumption)
    | exact State.dram_wf (by assumption)
    | with_reducible rfl
    | intro _
    | split
    | dsimp only

theorem State.freeIndex_keep {s : State} :
    Keep 71916856549572607 s (State.freeIndex s).2 := by
  unfold State.freeIndex; try dsimp only
  repeat' first
    | with_reducible exact Keep.rfl'
    | with_reducible assumption
    | (with_reducible apply Keep.step State.draw_keep; decide)
    | with_reducible refine Keep.step (State.draw_keepE (by assumption)) (by decide) ?_
    | split
    | dsimp only
theorem State.freeIndex_keepE {s : State} {rE tE} (hE : (State.freeIndex s) = (rE, tE)) : Keep 71916856549572607 s tE := by
  have k := @State.freeIndex_keep s; rw [hE] at k; exact k

theorem State.programLoad_keep {s : State} {c : CoreId} {h : Nat} {e : EntrySt} {data : Option (List Byte)} :
    Keep 70755617651792511 s (State.programLoad s c h e data) := by
  unfold State.programLoad; try dsimp only
  repeat' first
    | with_reducible exact Keep.rfl'
    | with_reducible assumption
    | (with_reducible apply Keep.step State.count_keep; decide)
    | (with_reducible apply Keep.step State.countDemand_keep; decide)
    | (with_reducible apply Keep.step State.failCount_keep; decide)
    | (with_reducible apply Keep.step State.finish_keep; decide)
    | (with_reducible apply Keep.step State.freeIndex_keep; decide)
    | with_reducible refine Keep.step (State.freeIndex_keepE (by assumption)) (by decide) ?_
    | (with_reducible apply Keep.step State.placeImage_keep; decide)
    | (with_reducible apply Keep.step State.sendReads_keep; decide)
    | with_reducible refine Keep.foldl ?_ (fun _ _ => ?_)
    | with_reducible refine Keep.foldlFst ?_ (fun _ _ => ?_)
    | with_reducible refine Keep.foldlSnd ?_ (fun _ _ => ?_)
    | with_reducible apply Keep.ite
    | with_reducible apply Keep.iteFst
    | with_reducible apply Keep.iteSnd
    | split
    | dsimp only

theorem execProgramLoadLoad_keep {c : CoreId} {h : Nat} {data : Option (List Byte)} {s : State} :
    KeepX 70755617651792511 s (execProgramLoadLoad c h data s) := by
  unfold execProgramLoadLoad; try dsimp only
  repeat' first
    | with_reducible exact Keep.rfl'
    | with_reducible assumption
    | (with_reducible apply Keep.step State.programLoad_keep; decide)
    | with_reducible refine KeepX.next ?_
    | with_reducible apply Keep.ite
    | split
    | dsimp only

theorem State.programUnload_keep {s : State} {c : CoreId} {h : Nat} {e : EntrySt} :
    Keep 72022272226876031 s (State.programUnload s c h e) := by
  unfold State.programUnload; try dsimp only
  repeat' first
    | with_reducible exact Keep.rfl'
    | with_reducible assumption
    | (with_reducible apply Keep.step State.dropImage_keep; decide)
    | (with_reducible apply Keep.step State.finish_keep; decide)
    | with_reducible refine Keep.foldl ?_ (fun _ _ => ?_)
    | with_reducible refine Keep.foldlFst ?_ (fun _ _ => ?_)
    | with_reducible refine Keep.foldlSnd ?_ (fun _ _ => ?_)
    | with_reducible apply Keep.ite
    | with_reducible apply Keep.iteFst
    | with_reducible apply Keep.iteSnd
    | split
    | dsimp only

theorem execProgramLoadUnload_keep {c : CoreId} {h : Nat} {s : State} :
    KeepX 72022272226876031 s (execProgramLoadUnload c h s) := by
  unfold execProgramLoadUnload; try dsimp only
  repeat' first
    | with_reducible exact Keep.rfl'
    | with_reducible assumption
    | (with_reducible apply Keep.step State.programUnload_keep; decide)
    | with_reducible refine KeepX.next ?_
    | with_reducible apply Keep.ite
    | split
    | dsimp only

theorem State.progRun_keep {s : State} {p : PortId} :
    Keep 70368744177662971 s (State.progRun s p) := by
  unfold State.progRun; try dsimp only
  repeat' first
    | with_reducible exact Keep.rfl'
    | with_reducible assumption
    | (with_reducible apply Keep.step State.endCmd_keep; decide)
    | (with_reducible apply Keep.step State.needRead_keep; decide)
    | (with_reducible apply Keep.step State.unloadUnit_keep; decide)
    | with_reducible apply Keep.ite
    | split
    | dsimp only

theorem State.progRead_keep {s : State} {p : PortId} {data : Option (List Byte)} :
    Keep 70228006689291259 s (State.progRead s p data) := by
  unfold State.progRead; try dsimp only
  repeat' first
    | with_reducible exact Keep.rfl'
    | with_reducible assumption
    | (with_reducible apply Keep.step State.endCmd_keep; decide)
    | (with_reducible apply Keep.step State.freeIndex_keep; decide)
    | with_reducible refine Keep.step (State.freeIndex_keepE (by assumption)) (by decide) ?_
    | (with_reducible apply Keep.step State.placeImage_keep; decide)
    | (with_reducible apply Keep.step State.setPort_keep; decide)
    | with_reducible refine Keep.foldl ?_ (fun _ _ => ?_)
    | with_reducible refine Keep.foldlFst ?_ (fun _ _ => ?_)
    | with_reducible refine Keep.foldlSnd ?_ (fun _ _ => ?_)
    | with_reducible apply Keep.ite
    | with_reducible apply Keep.iteFst
    | with_reducible apply Keep.iteSnd
    | split
    | dsimp only

end Sys2Proof.Machine
end

