-- ==== Sys2Proof/Laws/KeepModes.lean ====
section
/-! SUPPORT. What the operations of Machine/Modes.lean may change: one lemma each. -/

namespace Sys2Proof.Machine

theorem State.saveLog_keep {s : State} :
    Keep 71987225293750263 s (State.saveLog s) := by
  unfold State.saveLog; try dsimp only
  repeat' first
    | with_reducible exact Keep.rfl'
    | with_reducible assumption
    | (with_reducible apply Keep.step State.storeUpdate_keep; decide)
    | with_reducible apply Keep.setSvc
    | exact fun k => absurd k (by decide)
    | with_reducible exact fun _ => rfl
    | with_reducible rfl
    | decide
    | split
    | dsimp only

theorem State.setSlot_keep {s : State} {n : Fin 2} {v : SlotSt} :
    Keep 72056494526300159 s (State.setSlot s n v) := by
  unfold State.setSlot; try dsimp only
  repeat' first
    | with_reducible exact Keep.rfl'
    | with_reducible assumption
    | with_reducible apply Keep.setMode
    | exact fun k => absurd k (by decide)
    | with_reducible exact fun _ => rfl
    | with_reducible rfl
    | decide
    | with_reducible apply Keep.ite
    | split
    | dsimp only

theorem State.markSlot_keep {s : State} {n : Fin 2} {v : SlotSt} :
    Keep 72056494526300151 s (State.markSlot s n v) := by
  unfold State.markSlot; try dsimp only
  repeat' first
    | with_reducible exact Keep.rfl'
    | with_reducible assumption
    | (with_reducible apply Keep.step State.setSlot_keep; decide)
    | (with_reducible apply Keep.step State.storeUpdate_keep; decide)
    | with_reducible apply Keep.ite
    | split
    | dsimp only

theorem State.coldReset_keep {s : State} : Keep 45458208738770944 s (State.coldReset s) := by
  constructor <;> first
    | exact fun k => absurd k (by decide)
    | exact fun _ => rfl
    | exact fun _ _ => rfl
    | exact fun _ => Or.inr rfl

theorem State.coldBegin_keep {s : State} {image : Fin 3} :
    Keep 45458208738770944 s (State.coldBegin s image) := by
  unfold State.coldBegin; try dsimp only
  repeat' first
    | with_reducible exact Keep.rfl'
    | with_reducible assumption
    | (with_reducible apply Keep.step State.coldReset_keep; decide)
    | (with_reducible apply Keep.step State.logLine_keep; decide)
    | (with_reducible apply Keep.step State.setModeChange_keep; decide)
    | with_reducible apply Keep.setMode
    | exact fun k => absurd k (by decide)
    | with_reducible exact fun _ => rfl
    | with_reducible rfl
    | decide
    | split
    | dsimp only

theorem State.coldRequest_keep {s : State} {slot : Option (Fin 2)} :
    Keep 45458208738770944 s (State.coldRequest s slot) := by
  unfold State.coldRequest; try dsimp only
  repeat' first
    | with_reducible exact Keep.rfl'
    | with_reducible assumption
    | (with_reducible apply Keep.step State.coldBegin_keep; decide)
    | (with_reducible apply Keep.step State.logLine_keep; decide)
    | (with_reducible apply Keep.step State.saveLog_keep; decide)
    | (with_reducible apply Keep.step State.storeUpdate_keep; decide)
    | with_reducible apply Keep.setMode
    | exact fun k => absurd k (by decide)
    | with_reducible exact fun _ => rfl
    | with_reducible rfl
    | decide
    | split
    | dsimp only

theorem State.losePower_keep {s : State} :
    Keep 45458208738770944 s (State.losePower s) := by
  unfold State.losePower; try dsimp only
  repeat' first
    | with_reducible exact Keep.rfl'
    | with_reducible assumption
    | (with_reducible apply Keep.step State.coldReset_keep; decide)
    | with_reducible apply Keep.setMode
    | with_reducible apply Keep.setSvc
    | exact fun k => absurd k (by decide)
    | with_reducible exact fun _ => rfl
    | with_reducible rfl
    | decide
    | split
    | dsimp only

theorem State.supplyDelivers_keep {s : State} :
    Keep 45458208738770944 s (State.supplyDelivers s) := by
  unfold State.supplyDelivers; try dsimp only
  repeat' first
    | with_reducible exact Keep.rfl'
    | with_reducible assumption
    | (with_reducible apply Keep.step State.coldBegin_keep; decide)
    | with_reducible apply Keep.ite
    | split
    | dsimp only

theorem State.safeStop_keep {s : State} {cause : Nat} :
    Keep 70259342770700275 s (State.safeStop s cause) := by
  unfold State.safeStop; try dsimp only
  repeat' first
    | with_reducible exact Keep.rfl'
    | with_reducible assumption
    | (with_reducible apply Keep.step State.endCmd_keep; decide)
    | (with_reducible apply Keep.step State.enterMode_keep; decide)
    | (with_reducible apply Keep.step State.reasonOff_keep; decide)
    | (with_reducible apply Keep.step State.saveLog_keep; decide)
    | with_reducible apply Keep.setMode
    | exact fun k => absurd k (by decide)
    | with_reducible exact fun _ => rfl
    | with_reducible rfl
    | decide
    | with_reducible apply Keep.ite
    | split
    | dsimp only

theorem execSafeStop_keep {cause : Fin 5} {s : State} :
    KeepX 70259342770700275 s (execSafeStop cause s) := by
  unfold execSafeStop; try dsimp only
  repeat' first
    | with_reducible exact Keep.rfl'
    | with_reducible assumption
    | (with_reducible apply Keep.step State.safeStop_keep; decide)
    | with_reducible refine KeepX.next ?_
    | with_reducible apply Keep.ite
    | split
    | dsimp only

theorem State.linkCut_keep {s : State} {x : Seat} :
    Keep 72022271684763263 s (State.linkCut s x) := by
  unfold State.linkCut; try dsimp only
  repeat' first
    | with_reducible exact Keep.rfl'
    | with_reducible assumption
    | (with_reducible apply Keep.step State.bumpSeat_keep; decide)
    | (with_reducible apply Keep.step State.linkDone_keep; decide)
    | (with_reducible apply Keep.step State.setLink__keep; decide)
    | (with_reducible apply Keep.step State.stopTunnels_keep; decide)
    | with_reducible apply Keep.ite
    | split
    | dsimp only

theorem State.powerCut_keep {s : State} {x : Seat} {st : PowerState} :
    Keep 72022203507400703 s (State.powerCut s x st) := by
  unfold State.powerCut; try dsimp only
  repeat' first
    | with_reducible exact Keep.rfl'
    | with_reducible assumption
    | (with_reducible apply Keep.step State.putPower_keep; decide)
    | split
    | dsimp only

theorem State.stopPowerOff_keep {s : State} :
    Keep 70259136070147699 s (State.stopPowerOff s) := by
  unfold State.stopPowerOff; try dsimp only
  repeat' first
    | with_reducible exact Keep.rfl'
    | with_reducible assumption
    | (with_reducible apply Keep.step State.linkCut_keep; decide)
    | (with_reducible apply Keep.step State.powerCut_keep; decide)
    | (with_reducible apply Keep.step State.safeStop_keep; decide)
    | (with_reducible apply Keep.step State.setDomain_keep; decide)
    | with_reducible apply Keep.setMode
    | exact fun k => absurd k (by decide)
    | with_reducible exact fun _ => rfl
    | with_reducible rfl
    | decide
    | with_reducible refine Keep.foldl ?_ (fun _ _ => ?_)
    | with_reducible refine Keep.foldlFst ?_ (fun _ _ => ?_)
    | with_reducible refine Keep.foldlSnd ?_ (fun _ _ => ?_)
    | with_reducible apply Keep.ite
    | with_reducible apply Keep.iteFst
    | with_reducible apply Keep.iteSnd
    | split
    | dsimp only

theorem execSafeStopPowerOff_keep {ut : Nat} {s : State} :
    KeepX 29726739423811186 s (execSafeStopPowerOff ut s) := by
  unfold execSafeStopPowerOff; try dsimp only
  repeat' first
    | with_reducible exact Keep.rfl'
    | with_reducible assumption
    | (with_reducible apply Keep.step State.arrive_keep; decide)
    | (with_reducible apply Keep.step State.stopPowerOff_keep; decide)
    | with_reducible refine KeepX.next ?_
    | split
    | dsimp only

theorem State.seatTo_keep {s : State} {x : Seat} {c : CoreId} :
    Keep 72017873643495423 s (State.seatTo s x c) := by
  unfold State.seatTo; try dsimp only
  repeat' first
    | with_reducible exact Keep.rfl'
    | with_reducible assumption
    | (with_reducible apply Keep.step State.setPortState_keep; decide)
    | (with_reducible apply Keep.step State.setServing_keep; decide)
    | with_reducible apply Keep.ite
    | split
    | dsimp only

theorem State.fenceCore_keep {s : State} {c : CoreId} {cause : Nat} :
    Keep 70290129096278015 s (State.fenceCore s c cause) := by
  unfold State.fenceCore; try dsimp only
  repeat' first
    | with_reducible exact Keep.rfl'
    | with_reducible assumption
    | (with_reducible apply Keep.step State.reasonOn_keep; decide)
    | (with_reducible apply Keep.step State.setCore_keep; decide)
    | split
    | dsimp only

theorem State.endMirrors_keep {s : State} :
    Keep 72057593886932991 s (State.endMirrors s) := by
  unfold State.endMirrors; try dsimp only
  repeat' first
    | with_reducible exact Keep.rfl'
    | with_reducible assumption
    | with_reducible apply Keep.setDisp
    | exact fun k => absurd k (by decide)
    | with_reducible exact fun _ => rfl
    | with_reducible rfl
    | decide
    | split
    | dsimp only

theorem State.regroupAll_keep {s : State} :
    Keep 72022271690006527 s (State.regroupAll s) := by
  unfold State.regroupAll; try dsimp only
  repeat' first
    | with_reducible exact Keep.rfl'
    | with_reducible assumption
    | (with_reducible apply Keep.step State.regroup_keep; decide)
    | with_reducible refine Keep.foldl ?_ (fun _ _ => ?_)
    | with_reducible refine Keep.foldlFst ?_ (fun _ _ => ?_)
    | with_reducible refine Keep.foldlSnd ?_ (fun _ _ => ?_)
    | split
    | dsimp only

theorem State.settleCauseway_keep {s : State} :
    Keep 72022268280037375 s (State.settleCauseway s) := by
  unfold State.settleCauseway; try dsimp only
  repeat' first
    | with_reducible exact Keep.rfl'
    | with_reducible assumption
    | (with_reducible apply Keep.step State.causewayTrunk_keep; decide)
    | (with_reducible apply Keep.step State.endMirrors_keep; decide)
    | (with_reducible apply Keep.step State.regroupAll_keep; decide)
    | with_reducible refine Keep.foldl ?_ (fun _ _ => ?_)
    | with_reducible refine Keep.foldlFst ?_ (fun _ _ => ?_)
    | with_reducible refine Keep.foldlSnd ?_ (fun _ _ => ?_)
    | with_reducible apply Keep.ite
    | with_reducible apply Keep.iteFst
    | with_reducible apply Keep.iteSnd
    | split
    | dsimp only

theorem State.setLanes_keep {s : State} {l : BitVec 16} :
    Keep 70254803338387455 s (State.setLanes s l) := by
  unfold State.setLanes; try dsimp only
  repeat' first
    | with_reducible exact Keep.rfl'
    | with_reducible assumption
    | (with_reducible apply Keep.step State.reasonOff_keep; decide)
    | (with_reducible apply Keep.step State.reasonOn_keep; decide)
    | (with_reducible apply Keep.step State.settleCauseway_keep; decide)
    | with_reducible apply Keep.setFlt
    | exact fun k => absurd k (by decide)
    | with_reducible exact fun _ => rfl
    | with_reducible rfl
    | decide
    | with_reducible apply Keep.ite
    | split
    | dsimp only

theorem State.fenceForCauseway_keep {s : State} :
    Keep 70237211152343039 s (State.fenceForCauseway s) := by
  unfold State.fenceForCauseway; try dsimp only
  repeat' first
    | with_reducible exact Keep.rfl'
    | with_reducible assumption
    | (with_reducible apply Keep.step State.errLog_keep; decide)
    | (with_reducible apply Keep.step State.fenceCore_keep; decide)
    | (with_reducible apply Keep.step State.seatTo_keep; decide)
    | (with_reducible apply Keep.step State.settleCauseway_keep; decide)
    | with_reducible refine Keep.foldl ?_ (fun _ _ => ?_)
    | with_reducible refine Keep.foldlFst ?_ (fun _ _ => ?_)
    | with_reducible refine Keep.foldlSnd ?_ (fun _ _ => ?_)
    | with_reducible apply Keep.ite
    | with_reducible apply Keep.iteFst
    | with_reducible apply Keep.iteSnd
    | split
    | dsimp only

theorem State.phyLost_keep {s : State} {q : Nat} :
    Keep 70259110850862703 s (State.phyLost s q) := by
  unfold State.phyLost; try dsimp only
  repeat' first
    | with_reducible exact Keep.rfl'
    | with_reducible assumption
    | (with_reducible apply Keep.step State.goDown_keep; decide)
    | (with_reducible apply Keep.step State.linkDone_keep; decide)
    | (with_reducible apply Keep.step State.powerCut_keep; decide)
    | (with_reducible apply Keep.step State.reasonOn_keep; decide)
    | with_reducible refine Keep.foldl ?_ (fun _ _ => ?_)
    | with_reducible refine Keep.foldlFst ?_ (fun _ _ => ?_)
    | with_reducible refine Keep.foldlSnd ?_ (fun _ _ => ?_)
    | split
    | dsimp only

theorem State.warmGreet_keep {s : State} :
    Keep 70755609072377455 s (State.warmGreet s) := by
  unfold State.warmGreet; try dsimp only
  repeat' first
    | with_reducible exact Keep.rfl'
    | with_reducible assumption
    | (with_reducible apply Keep.step State.flushSeat_keep; decide)
    | (with_reducible apply Keep.step State.linkDone_keep; decide)
    | (with_reducible apply Keep.step State.sendHello_keep; decide)
    | (with_reducible apply Keep.step State.setLink__keep; decide)
    | with_reducible refine Keep.foldl ?_ (fun _ _ => ?_)
    | with_reducible refine Keep.foldlFst ?_ (fun _ _ => ?_)
    | with_reducible refine Keep.foldlSnd ?_ (fun _ _ => ?_)
    | with_reducible apply Keep.ite
    | with_reducible apply Keep.iteFst
    | with_reducible apply Keep.iteSnd
    | split
    | dsimp only

theorem State.toStep_keep {s : State} {x : StartSt} {k : Nat} :
    Keep 70754509560749679 s (State.toStep s x k) := by
  unfold State.toStep; try dsimp only
  repeat' first
    | with_reducible exact Keep.rfl'
    | with_reducible assumption
    | (with_reducible apply Keep.step State.warmGreet_keep; decide)
    | with_reducible apply Keep.setMode
    | exact fun k => absurd k (by decide)
    | with_reducible exact fun _ => rfl
    | with_reducible rfl
    | decide
    | with_reducible apply Keep.ite
    | split
    | dsimp only

theorem State.startFails_keep {s : State} {x : StartSt} {signature : Bool} :
    Keep 45458208738770944 s (State.startFails s x signature) := by
  unfold State.startFails; try dsimp only
  repeat' first
    | with_reducible exact Keep.rfl'
    | with_reducible assumption
    | (with_reducible apply Keep.step State.coldBegin_keep; decide)
    | (with_reducible apply Keep.step State.logLine_keep; decide)
    | (with_reducible apply Keep.step State.markSlot_keep; decide)
    | (with_reducible apply Keep.step State.safeStop_keep; decide)
    | with_reducible apply Keep.setMode
    | exact fun k => absurd k (by decide)
    | with_reducible exact fun _ => rfl
    | with_reducible rfl
    | decide
    | with_reducible apply Keep.ite
    | split
    | dsimp only

theorem State.startComplete_keep {s : State} {x : StartSt} :
    Keep 70261404354994175 s (State.startComplete s x) := by
  unfold State.startComplete; try dsimp only
  repeat' first
    | with_reducible exact Keep.rfl'
    | with_reducible assumption
    | (with_reducible apply Keep.step State.enterMode_keep; decide)
    | (with_reducible apply Keep.step State.settleAll_keep; decide)
    | with_reducible apply Keep.setMode
    | with_reducible apply Keep.setSvc
    | exact fun k => absurd k (by decide)
    | with_reducible exact fun _ => rfl
    | with_reducible rfl
    | decide
    | with_reducible apply Keep.ite
    | split
    | dsimp only

theorem State.memoryStep_keep {s : State} {x : StartSt} {r : StepResult} :
    Keep 45317471250415616 s (State.memoryStep s x r) := by
  unfold State.memoryStep; try dsimp only
  repeat' first
    | with_reducible exact Keep.rfl'
    | with_reducible assumption
    | (with_reducible apply Keep.step State.fenceCore_keep; decide)
    | (with_reducible apply Keep.step State.startFails_keep; decide)
    | (with_reducible apply Keep.step State.toStep_keep; decide)
    | with_reducible apply Keep.ite
    | split
    | dsimp only

theorem State.refereeStep_keep {s : State} {x : StartSt} {ok : Bool} :
    Keep 70114044037570159 s (State.refereeStep s x ok) := by
  unfold State.refereeStep; try dsimp only
  repeat' first
    | with_reducible exact Keep.rfl'
    | with_reducible assumption
    | (with_reducible apply Keep.step State.reasonOff_keep; decide)
    | (with_reducible apply Keep.step State.reasonOn_keep; decide)
    | (with_reducible apply Keep.step State.seatTo_keep; decide)
    | (with_reducible apply Keep.step State.toStep_keep; decide)
    | with_reducible apply Keep.setFlt
    | exact fun k => absurd k (by decide)
    | with_reducible exact fun _ => rfl
    | with_reducible rfl
    | decide
    | with_reducible refine Keep.foldl ?_ (fun _ _ => ?_)
    | with_reducible refine Keep.foldlFst ?_ (fun _ _ => ?_)
    | with_reducible refine Keep.foldlSnd ?_ (fun _ _ => ?_)
    | with_reducible apply Keep.ite
    | with_reducible apply Keep.iteFst
    | with_reducible apply Keep.iteSnd
    | split
    | dsimp only

theorem State.lanesStep_keep {s : State} {x : StartSt} {l : BitVec 16} :
    Keep 65584056131133039 s (State.lanesStep s x l) := by
  unfold State.lanesStep; try dsimp only
  repeat' first
    | with_reducible exact Keep.rfl'
    | with_reducible assumption
    | (with_reducible apply Keep.step State.driftApart_keep; decide)
    | (with_reducible apply Keep.step State.fenceForCauseway_keep; decide)
    | (with_reducible apply Keep.step State.setLanes_keep; decide)
    | (with_reducible apply Keep.step State.toStep_keep; decide)
    | with_reducible apply Keep.ite
    | split
    | dsimp only

theorem State.stepLine_keep {s : State} {k : Nat} {ok : Bool} :
    Keep 71987225293750271 s (State.stepLine s k ok) := by
  unfold State.stepLine; try dsimp only
  repeat' first
    | with_reducible exact Keep.rfl'
    | with_reducible assumption
    | (with_reducible apply Keep.step State.consoleOut_keep; decide)
    | (with_reducible apply Keep.step State.logLine_keep; decide)
    | with_reducible apply Keep.ite
    | split
    | dsimp only

theorem State.stepDone_keep {s : State} {x : StartSt} {r : StepResult} :
    Keep 45317471250415616 s (State.stepDone s x r) := by
  unfold State.stepDone; try dsimp only
  repeat' first
    | with_reducible exact Keep.rfl'
    | with_reducible assumption
    | (with_reducible apply Keep.step State.lanesStep_keep; decide)
    | (with_reducible apply Keep.step State.memoryStep_keep; decide)
    | (with_reducible apply Keep.step State.phyFail_keep; decide)
    | (with_reducible apply Keep.step State.phyLost_keep; decide)
    | (with_reducible apply Keep.step State.refereeStep_keep; decide)
    | (with_reducible apply Keep.step State.startComplete_keep; decide)
    | (with_reducible apply Keep.step State.startFails_keep; decide)
    | (with_reducible apply Keep.step State.toStep_keep; decide)
    | with_reducible apply Keep.setMode
    | exact fun k => absurd k (by decide)
    | with_reducible exact fun _ => rfl
    | with_reducible rfl
    | decide
    | with_reducible refine Keep.foldl ?_ (fun _ _ => ?_)
    | with_reducible refine Keep.foldlFst ?_ (fun _ _ => ?_)
    | with_reducible refine Keep.foldlSnd ?_ (fun _ _ => ?_)
    | with_reducible apply Keep.ite
    | with_reducible apply Keep.iteFst
    | with_reducible apply Keep.iteSnd
    | split
    | dsimp only

theorem execStartStepDone_keep {r : StepResult} {ut : Nat} {s : State} :
    KeepX 9288674231451648 s (execStartStepDone r ut s) := by
  unfold execStartStepDone; try dsimp only
  repeat' first
    | with_reducible exact Keep.rfl'
    | with_reducible assumption
    | (with_reducible apply Keep.step State.arrive_keep; decide)
    | (with_reducible apply Keep.step State.stepDone_keep; decide)
    | (with_reducible apply Keep.step State.stepLine_keep; decide)
    | with_reducible refine KeepX.next ?_
    | split
    | dsimp only

theorem execStartWatchdog_keep {ut : Nat} {s : State} :
    KeepX 9429411719806976 s (execStartWatchdog ut s) := by
  unfold execStartWatchdog; try dsimp only
  repeat' first
    | with_reducible exact Keep.rfl'
    | with_reducible assumption
    | (with_reducible apply Keep.step State.arrive_keep; decide)
    | (with_reducible apply Keep.step State.startFails_keep; decide)
    | with_reducible refine KeepX.next ?_
    | with_reducible apply Keep.ite
    | split
    | dsimp only

theorem State.dropCmds_keep {s : State} :
    Keep 72057594037927931 s (State.dropCmds s) := by
  unfold State.dropCmds; try dsimp only
  repeat' first
    | with_reducible exact Keep.rfl'
    | with_reducible assumption
    | (with_reducible apply Keep.step State.setCmdSt_keep; decide)
    | with_reducible refine Keep.foldl ?_ (fun _ _ => ?_)
    | with_reducible refine Keep.foldlFst ?_ (fun _ _ => ?_)
    | with_reducible refine Keep.foldlSnd ?_ (fun _ _ => ?_)
    | with_reducible apply Keep.ite
    | with_reducible apply Keep.iteFst
    | with_reducible apply Keep.iteSnd
    | split
    | dsimp only

theorem State.warmBegin_keep {s : State} {image : Fin 3} :
    Keep 70256980550221833 s (State.warmBegin s image) := by
  unfold State.warmBegin; try dsimp only
  repeat' first
    | with_reducible exact Keep.rfl'
    | with_reducible assumption
    | (with_reducible apply Keep.step State.destroyIslet_keep; decide)
    | (with_reducible apply Keep.step State.dropCmds_keep; decide)
    | (with_reducible apply Keep.step State.enterMode_keep; decide)
    | (with_reducible apply Keep.step State.setCntCore_keep; decide)
    | (with_reducible apply Keep.step State.setCore_keep; decide)
    | with_reducible apply Keep.setFnQ
    | (with_reducible apply Keep.step State.setPort_keep; decide)
    | (with_reducible apply Keep.step State.setPortState_keep; decide)
    | (with_reducible apply Keep.step State.settleDomain_keep; decide)
    | with_reducible apply Keep.setHost
    | with_reducible apply Keep.setMode
    | with_reducible apply Keep.setSvc
    | with_reducible apply Keep.setTe
    | exact fun k => absurd k (by decide)
    | with_reducible exact fun _ => rfl
    | with_reducible rfl
    | decide
    | with_reducible refine Keep.foldl ?_ (fun _ _ => ?_)
    | with_reducible refine Keep.foldlFst ?_ (fun _ _ => ?_)
    | with_reducible refine Keep.foldlSnd ?_ (fun _ _ => ?_)
    | with_reducible apply Keep.ite
    | with_reducible apply Keep.iteFst
    | with_reducible apply Keep.iteSnd
    | split
    | dsimp only

theorem State.startCause_keep {s : State} {k : Nat} :
    Keep 72056494526300159 s (State.startCause s k) := by
  unfold State.startCause; try dsimp only
  repeat' first
    | with_reducible exact Keep.rfl'
    | with_reducible assumption
    | with_reducible apply Keep.setMode
    | exact fun k => absurd k (by decide)
    | with_reducible exact fun _ => rfl
    | with_reducible rfl
    | decide
    | with_reducible apply Keep.ite
    | split
    | dsimp only

theorem State.endCause_keep {s : State} {k : Nat} :
    Keep 72056494526300159 s (State.endCause s k) := by
  unfold State.endCause; try dsimp only
  repeat' first
    | with_reducible exact Keep.rfl'
    | with_reducible assumption
    | with_reducible apply Keep.setMode
    | exact fun k => absurd k (by decide)
    | with_reducible exact fun _ => rfl
    | with_reducible rfl
    | decide
    | split
    | dsimp only

theorem execConditionTimer_keep {k : CondTimer} {ut : Nat} {s : State} :
    KeepX 29726808685402110 s (execConditionTimer k ut s) := by
  unfold execConditionTimer; try dsimp only
  repeat' first
    | with_reducible exact Keep.rfl'
    | with_reducible assumption
    | (with_reducible apply Keep.step State.arrive_keep; decide)
    | (with_reducible apply Keep.step State.reasonOn_keep; decide)
    | with_reducible refine KeepX.next ?_
    | with_reducible apply Keep.ite
    | split
    | dsimp only

theorem execReasonClear_keep {code : Fin 16} {ut : Nat} {s : State} :
    KeepX 29798826697021438 s (execReasonClear code ut s) := by
  unfold execReasonClear; try dsimp only
  repeat' first
    | with_reducible exact Keep.rfl'
    | with_reducible assumption
    | (with_reducible apply Keep.step State.arrive_keep; decide)
    | (with_reducible apply Keep.step State.reasonClear_keep; decide)
    | with_reducible refine KeepX.next ?_
    | with_reducible apply Keep.ite
    | split
    | dsimp only

theorem execServiceTimeout_keep {ut : Nat} {s : State} :
    KeepX 29729007708657662 s (execServiceTimeout ut s) := by
  unfold execServiceTimeout; try dsimp only
  repeat' first
    | with_reducible exact Keep.rfl'
    | with_reducible assumption
    | (with_reducible apply Keep.step State.arrive_keep; decide)
    | (with_reducible apply Keep.step State.enterMode_keep; decide)
    | with_reducible refine KeepX.next ?_
    | with_reducible apply Keep.ite
    | split
    | dsimp only

theorem State.writeImage_keep {s : State} {p : PortId} {n : Fin 2} {b : List Byte} :
    Keep 70367644666036211 s (State.writeImage s p n b) := by
  unfold State.writeImage; try dsimp only
  repeat' first
    | with_reducible exact Keep.rfl'
    | with_reducible assumption
    | (with_reducible apply Keep.step State.endCmd_keep; decide)
    | (with_reducible apply Keep.step State.markSlot_keep; decide)
    | (with_reducible apply Keep.step State.setCmdSt_keep; decide)
    | with_reducible apply Keep.setMode
    | exact fun k => absurd k (by decide)
    | with_reducible exact fun _ => rfl
    | with_reducible rfl
    | decide
    | with_reducible apply Keep.ite
    | split
    | dsimp only

theorem State.flashDone_keep {s : State} {ok : Bool} :
    Keep 70226907177680883 s (State.flashDone s ok) := by
  unfold State.flashDone; try dsimp only
  repeat' first
    | with_reducible exact Keep.rfl'
    | with_reducible assumption
    | (with_reducible apply Keep.step State.draw_keep; decide)
    | with_reducible refine Keep.step (State.draw_keepE (by assumption)) (by decide) ?_
    | (with_reducible apply Keep.step State.endCmd_keep; decide)
    | (with_reducible apply Keep.step State.markSlot_keep; decide)
    | with_reducible apply Keep.setMode
    | exact fun k => absurd k (by decide)
    | with_reducible exact fun _ => rfl
    | with_reducible rfl
    | decide
    | with_reducible apply Keep.ite
    | split
    | dsimp only

end Sys2Proof.Machine
end

