-- ==== Sys2Proof/Laws/KeepFaults.lean ====
section
/-! SUPPORT. What the operations of Machine/Faults.lean may change: one lemma each. -/

namespace Sys2Proof.Machine

theorem State.moveToken_keep {s : State} {y : CoreId} :
    Keep 65745125984165883 s (State.moveToken s y) := by
  unfold State.moveToken; try dsimp only
  repeat' first
    | with_reducible exact Keep.rfl'
    | with_reducible assumption
    | (with_reducible apply Keep.step State.consoleOut_keep; decide)
    | (with_reducible apply Keep.step State.privEdge_keep; decide)
    | (with_reducible apply Keep.step State.retryCmds_keep; decide)
    | (with_reducible apply Keep.step State.steerAgain_keep; decide)
    | with_reducible apply Keep.setFlt
    | with_reducible apply Keep.setMode
    | with_reducible apply Keep.setSvc
    | with_reducible apply Keep.setTraf
    | exact fun k => absurd k (by decide)
    | with_reducible exact fun _ => rfl
    | with_reducible rfl
    | decide
    | with_reducible apply Keep.ite
    | split
    | dsimp only

theorem State.clearFabric_keep {s : State} {x : CoreId} :
    Keep 72057593501057023 s (State.clearFabric s x) := by
  unfold State.clearFabric; try dsimp only
  repeat' first
    | with_reducible exact Keep.rfl'
    | with_reducible assumption
    | (with_reducible apply Keep.step State.setFabCore_keep; decide)
    | split
    | dsimp only

theorem State.clearEngines_keep {s : State} {x : CoreId} :
    Keep 70896509691873279 s (State.clearEngines s x) := by
  unfold State.clearEngines; try dsimp only
  repeat' first
    | with_reducible exact Keep.rfl'
    | with_reducible assumption
    | (with_reducible apply Keep.step State.endReqs_keep; decide)
    | (with_reducible apply Keep.step State.setCntCore_keep; decide)
    | (with_reducible apply Keep.step State.setDispatch_keep; decide)
    | (with_reducible apply Keep.step State.setEvtCore_keep; decide)
    | (with_reducible apply Keep.step State.setGather_keep; decide)
    | (with_reducible apply Keep.step State.setPipe_keep; decide)
    | with_reducible apply Keep.setTe
    | exact fun k => absurd k (by decide)
    | with_reducible exact fun _ => rfl
    | with_reducible rfl
    | decide
    | with_reducible refine Keep.foldl ?_ (fun _ _ => ?_)
    | with_reducible refine Keep.foldlFst ?_ (fun _ _ => ?_)
    | with_reducible refine Keep.foldlSnd ?_ (fun _ _ => ?_)
    | split
    | dsimp only

theorem State.dropSeatFrames_keep {s : State} {x : Seat} :
    Keep 72057578464477183 s (State.dropSeatFrames s x) := by
  unfold State.dropSeatFrames; try dsimp only
  repeat' first
    | with_reducible exact Keep.rfl'
    | with_reducible assumption
    | (with_reducible apply Keep.step State.dropKept_keep; decide)
    | (with_reducible apply Keep.step State.setDemand_keep; decide)
    | (with_reducible apply Keep.step State.setSeatNet_keep; decide)
    | (with_reducible apply Keep.step State.setTun_keep; decide)
    | (with_reducible apply Keep.step State.setWfq_keep; decide)
    | with_reducible refine Keep.foldl ?_ (fun _ _ => ?_)
    | with_reducible refine Keep.foldlFst ?_ (fun _ _ => ?_)
    | with_reducible refine Keep.foldlSnd ?_ (fun _ _ => ?_)
    | split
    | dsimp only

theorem State.moveReads_keep {s : State} {x : CoreId} {y : CoreId} {mine : HostRead → Bool} :
    Keep 70896350760345199 s (State.moveReads s x y mine) := by
  unfold State.moveReads; try dsimp only
  repeat' first
    | with_reducible exact Keep.rfl'
    | with_reducible assumption
    | (with_reducible apply Keep.step State.addReqs_keep; decide)
    | (with_reducible apply Keep.step State.endReqs_keep; decide)
    | (with_reducible apply Keep.step State.failCount_keep; decide)
    | (with_reducible apply Keep.step State.failRead_keep; decide)
    | with_reducible apply Keep.setHost
    | exact fun k => absurd k (by decide)
    | with_reducible exact fun _ => rfl
    | with_reducible rfl
    | decide
    | with_reducible refine Keep.foldl ?_ (fun _ _ => ?_)
    | with_reducible refine Keep.foldlFst ?_ (fun _ _ => ?_)
    | with_reducible refine Keep.foldlSnd ?_ (fun _ _ => ?_)
    | with_reducible apply Keep.ite
    | with_reducible apply Keep.iteFst
    | with_reducible apply Keep.iteSnd
    | split
    | dsimp only

theorem State.moveRequests_keep {s : State} {x : CoreId} {y : CoreId} :
    Keep 70896350760345199 s (State.moveRequests s x y) := by
  unfold State.moveRequests; try dsimp only
  repeat' first
    | with_reducible exact Keep.rfl'
    | with_reducible assumption
    | (with_reducible apply Keep.step State.dropReads_keep; decide)
    | (with_reducible apply Keep.step State.moveReads_keep; decide)
    | (with_reducible apply Keep.step State.pump_keep; decide)
    | with_reducible apply Keep.setHost
    | exact fun k => absurd k (by decide)
    | with_reducible exact fun _ => rfl
    | with_reducible rfl
    | decide
    | with_reducible refine Keep.foldl ?_ (fun _ _ => ?_)
    | with_reducible refine Keep.foldlFst ?_ (fun _ _ => ?_)
    | with_reducible refine Keep.foldlSnd ?_ (fun _ _ => ?_)
    | with_reducible apply Keep.ite
    | with_reducible apply Keep.iteFst
    | with_reducible apply Keep.iteSnd
    | split
    | dsimp only

theorem State.moveSeats_keep {s : State} {x : CoreId} {y : CoreId} {seats : List Seat} :
    Keep 70891941435344495 s (State.moveSeats s x y seats) := by
  unfold State.moveSeats; try dsimp only
  repeat' first
    | with_reducible exact Keep.rfl'
    | with_reducible assumption
    | (with_reducible apply Keep.step State.clearEngines_keep; decide)
    | (with_reducible apply Keep.step State.clearFabric_keep; decide)
    | (with_reducible apply Keep.step State.dropSeatFrames_keep; decide)
    | (with_reducible apply Keep.step State.dropStores_keep; decide)
    | (with_reducible apply Keep.step State.moveRequests_keep; decide)
    | (with_reducible apply Keep.step State.regroupAll_keep; decide)
    | (with_reducible apply Keep.step State.seatTo_keep; decide)
    | (with_reducible apply Keep.step State.setCore_keep; decide)
    | (with_reducible apply Keep.step State.setHead_keep; decide)
    | (with_reducible apply Keep.step State.settleSeat_keep; decide)
    | with_reducible apply Keep.setFlt
    | exact fun k => absurd k (by decide)
    | with_reducible exact fun _ => rfl
    | with_reducible rfl
    | decide
    | with_reducible refine Keep.foldl ?_ (fun _ _ => ?_)
    | with_reducible refine Keep.foldlFst ?_ (fun _ _ => ?_)
    | with_reducible refine Keep.foldlSnd ?_ (fun _ _ => ?_)
    | with_reducible apply Keep.ite
    | with_reducible apply Keep.iteFst
    | with_reducible apply Keep.iteSnd
    | split
    | dsimp only

theorem State.againItem_keep {s : State} {by' : CoreId} {h : Nat} {e : EntrySt} :
    Keep 72022272222678463 s (State.againItem s by' h e) := by
  unfold State.againItem; try dsimp only
  repeat' first
    | with_reducible exact Keep.rfl'
    | with_reducible assumption
    | (with_reducible apply Keep.step State.readyItem_keep; decide)
    | with_reducible apply Keep.ite
    | split
    | dsimp only

theorem State.adoptIslet_keep {s : State} {home : CoreId} {by' : CoreId} {i : IsletNo} :
    Keep 72022272222678335 s (State.adoptIslet s home by' i) := by
  unfold State.adoptIslet; try dsimp only
  repeat' first
    | with_reducible exact Keep.rfl'
    | with_reducible assumption
    | (with_reducible apply Keep.step State.againItem_keep; decide)
    | (with_reducible apply Keep.step State.bumpIslet_keep; decide)
    | (with_reducible apply Keep.step State.restall_keep; decide)
    | (with_reducible apply Keep.step State.setQueue_keep; decide)
    | (with_reducible apply Keep.step State.setRing_keep; decide)
    | with_reducible apply Keep.setWq
    | exact fun k => absurd k (by decide)
    | with_reducible exact fun _ => rfl
    | with_reducible rfl
    | decide
    | with_reducible refine Keep.foldl ?_ (fun _ _ => ?_)
    | with_reducible refine Keep.foldlFst ?_ (fun _ _ => ?_)
    | with_reducible refine Keep.foldlSnd ?_ (fun _ _ => ?_)
    | split
    | dsimp only

theorem State.loseQueues_keep {s : State} {x : CoreId} {i : IsletNo} :
    Keep 72057589725772831 s (State.loseQueues s x i) := by
  unfold State.loseQueues; try dsimp only
  repeat' first
    | with_reducible exact Keep.rfl'
    | with_reducible assumption
    | (with_reducible apply Keep.step State.dropWork_keep; decide)
    | (with_reducible apply Keep.step State.setEntry_keep; decide)
    | (with_reducible apply Keep.step State.setIslet_keep; decide)
    | (with_reducible apply Keep.step State.setQueue_keep; decide)
    | (with_reducible apply Keep.step State.setRing_keep; decide)
    | (with_reducible apply Keep.step State.setShQueue_keep; decide)
    | (with_reducible apply Keep.step State.setShRing_keep; decide)
    | with_reducible apply Keep.setWq
    | exact fun k => absurd k (by decide)
    | with_reducible exact fun _ => rfl
    | with_reducible rfl
    | decide
    | with_reducible refine Keep.foldl ?_ (fun _ _ => ?_)
    | with_reducible refine Keep.foldlFst ?_ (fun _ _ => ?_)
    | with_reducible refine Keep.foldlSnd ?_ (fun _ _ => ?_)
    | with_reducible apply Keep.ite
    | with_reducible apply Keep.iteFst
    | with_reducible apply Keep.iteSnd
    | split
    | dsimp only

theorem State.seatAfresh_keep {s : State} {x : Seat} :
    Keep 70896355139133055 s (State.seatAfresh s x) := by
  unfold State.seatAfresh; try dsimp only
  repeat' first
    | with_reducible exact Keep.rfl'
    | with_reducible assumption
    | (with_reducible apply Keep.step State.closeEp_keep; decide)
    | (with_reducible apply Keep.step State.freshPorts_keep; decide)
    | with_reducible refine Keep.foldl ?_ (fun _ _ => ?_)
    | with_reducible refine Keep.foldlFst ?_ (fun _ _ => ?_)
    | with_reducible refine Keep.foldlSnd ?_ (fun _ _ => ?_)
    | split
    | dsimp only

theorem State.adoptHead_keep {s : State} {h : HeadNo} :
    Keep 72022272042327935 s (State.adoptHead s h) := by
  unfold State.adoptHead; try dsimp only
  repeat' first
    | with_reducible exact Keep.rfl'
    | with_reducible assumption
    | (with_reducible apply Keep.step State.needRefresh_keep; decide)
    | (with_reducible apply Keep.step State.setHead_keep; decide)
    | with_reducible apply Keep.setDisp
    | exact fun k => absurd k (by decide)
    | with_reducible exact fun _ => rfl
    | with_reducible rfl
    | decide
    | with_reducible apply Keep.ite
    | split
    | dsimp only

theorem State.resendView_keep {s : State} {o : HeadNo} :
    Keep 72022268162596863 s (State.resendView s o) := by
  unfold State.resendView; try dsimp only
  repeat' first
    | with_reducible exact Keep.rfl'
    | with_reducible assumption
    | (with_reducible apply Keep.step State.configFor_keep; decide)
    | (with_reducible apply Keep.step State.setView_keep; decide)
    | (with_reducible apply Keep.step State.takeStoreLost_keep; decide)
    | split
    | dsimp only

theorem State.rehome_keep {s : State} {x : Seat} :
    Keep 71881530975182463 s (State.rehome s x) := by
  unfold State.rehome; try dsimp only
  repeat' first
    | with_reducible exact Keep.rfl'
    | with_reducible assumption
    | (with_reducible apply Keep.step State.linkDone_keep; decide)
    | (with_reducible apply Keep.step State.sendHello_keep; decide)
    | (with_reducible apply Keep.step State.setLink__keep; decide)
    | with_reducible apply Keep.ite
    | split
    | dsimp only

theorem State.rereadNet_keep {s : State} {x : Seat} :
    Keep 70931676951216111 s (State.rereadNet s x) := by
  unfold State.rereadNet; try dsimp only
  repeat' first
    | with_reducible exact Keep.rfl'
    | with_reducible assumption
    | (with_reducible apply Keep.step State.netReads_keep; decide)
    | with_reducible refine Keep.foldl ?_ (fun _ _ => ?_)
    | with_reducible refine Keep.foldlFst ?_ (fun _ _ => ?_)
    | with_reducible refine Keep.foldlSnd ?_ (fun _ _ => ?_)
    | with_reducible apply Keep.ite
    | with_reducible apply Keep.iteFst
    | with_reducible apply Keep.iteSnd
    | split
    | dsimp only

theorem State.moveTts_keep {s : State} {x : Seat} {c : CoreId} {d : CoreId} :
    Keep 72057594037403647 s (State.moveTts s x c d) := by
  unfold State.moveTts; try dsimp only
  repeat' first
    | with_reducible exact Keep.rfl'
    | with_reducible assumption
    | with_reducible apply Keep.setUsb
    | exact fun k => absurd k (by decide)
    | with_reducible exact fun _ => rfl
    | with_reducible rfl
    | decide
    | with_reducible refine Keep.foldl ?_ (fun _ _ => ?_)
    | with_reducible refine Keep.foldlFst ?_ (fun _ _ => ?_)
    | with_reducible refine Keep.foldlSnd ?_ (fun _ _ => ?_)
    | with_reducible apply Keep.ite
    | with_reducible apply Keep.iteFst
    | with_reducible apply Keep.iteSnd
    | split
    | dsimp only

theorem State.adoptSeat_keep {s : State} {from' : CoreId} {by' : CoreId} {x : Seat} :
    Keep 70896354954583663 s (State.adoptSeat s from' by' x) := by
  unfold State.adoptSeat; try dsimp only
  repeat' first
    | with_reducible exact Keep.rfl'
    | with_reducible assumption
    | (with_reducible apply Keep.step State.adoptHead_keep; decide)
    | (with_reducible apply Keep.step State.moveTts_keep; decide)
    | (with_reducible apply Keep.step State.rereadNet_keep; decide)
    | (with_reducible apply Keep.step State.seatAfresh_keep; decide)
    | with_reducible apply Keep.setDue
    | decide
    | with_reducible apply writeBytes_wf
    | with_reducible apply writeNat_wf
    | with_reducible apply foldl_mem_wf
    | exact State.isw_wf (by assumption)
    | exact State.due_wf (by assumption)
    | exact State.dram_wf (by assumption)
    | with_reducible rfl
    | intro _
    | with_reducible refine Keep.foldl ?_ (fun _ _ => ?_)
    | with_reducible refine Keep.foldlFst ?_ (fun _ _ => ?_)
    | with_reducible refine Keep.foldlSnd ?_ (fun _ _ => ?_)
    | with_reducible apply Keep.ite
    | with_reducible apply Keep.iteFst
    | with_reducible apply Keep.iteSnd
    | split
    | dsimp only

theorem State.handOver_keep {s : State} {home : CoreId} {from' : CoreId} {by' : CoreId} {lapse : Bool} :
    Keep 70751211025861647 s (State.handOver s home from' by' lapse) := by
  unfold State.handOver; try dsimp only
  repeat' first
    | with_reducible exact Keep.rfl'
    | with_reducible assumption
    | (with_reducible apply Keep.step State.adoptIslet_keep; decide)
    | (with_reducible apply Keep.step State.adoptSeat_keep; decide)
    | (with_reducible apply Keep.step State.feedPipes_keep; decide)
    | (with_reducible apply Keep.step State.lapse_keep; decide)
    | (with_reducible apply Keep.step State.loseQueues_keep; decide)
    | (with_reducible apply Keep.step State.regroupAll_keep; decide)
    | (with_reducible apply Keep.step State.rehome_keep; decide)
    | (with_reducible apply Keep.step State.resendView_keep; decide)
    | (with_reducible apply Keep.step State.sendOwed_keep; decide)
    | (with_reducible apply Keep.step State.setIslet_keep; decide)
    | with_reducible apply Keep.setIsw
    | (with_reducible apply Keep.step State.settleGroups_keep; decide)
    | with_reducible apply Keep.setFlt
    | exact fun k => absurd k (by decide)
    | with_reducible exact fun _ => rfl
    | with_reducible rfl
    | decide
    | decide
    | with_reducible apply writeBytes_wf
    | with_reducible apply writeNat_wf
    | with_reducible apply foldl_mem_wf
    | exact State.isw_wf (by assumption)
    | exact State.due_wf (by assumption)
    | exact State.dram_wf (by assumption)
    | with_reducible rfl
    | intro _
    | with_reducible refine Keep.foldl ?_ (fun _ _ => ?_)
    | with_reducible refine Keep.foldlFst ?_ (fun _ _ => ?_)
    | with_reducible refine Keep.foldlSnd ?_ (fun _ _ => ?_)
    | with_reducible apply Keep.ite
    | with_reducible apply Keep.iteFst
    | with_reducible apply Keep.iteSnd
    | split
    | dsimp only

theorem execFailoverAdoption_keep {c : CoreId} {s : State} :
    KeepX 70751211025861647 s (execFailoverAdoption c s) := by
  unfold execFailoverAdoption; try dsimp only
  repeat' first
    | with_reducible exact Keep.rfl'
    | with_reducible assumption
    | (with_reducible apply Keep.step State.handOver_keep; decide)
    | with_reducible refine KeepX.next ?_
    | with_reducible apply Keep.ite
    | split
    | dsimp only

theorem State.buildItem_keep {s : State} {x : Seat} {n : Nat} :
    Keep 72022272222678463 s (State.buildItem s x n) := by
  unfold State.buildItem; try dsimp only
  repeat' first
    | with_reducible exact Keep.rfl'
    | with_reducible assumption
    | (with_reducible apply Keep.step State.readyItem_keep; decide)
    | split
    | dsimp only

theorem State.dropScripts_keep {s : State} {x : Seat} :
    Keep 70896355139198591 s (State.dropScripts s x) := by
  unfold State.dropScripts; try dsimp only
  repeat' first
    | with_reducible exact Keep.rfl'
    | with_reducible assumption
    | (with_reducible apply Keep.step State.afterResult_keep; decide)
    | (with_reducible apply Keep.step State.setEp_keep; decide)
    | (with_reducible apply Keep.step State.setUsbSeat_keep; decide)
    | (with_reducible apply Keep.step State.setXfer_keep; decide)
    | with_reducible refine Keep.foldl ?_ (fun _ _ => ?_)
    | with_reducible refine Keep.foldlFst ?_ (fun _ _ => ?_)
    | with_reducible refine Keep.foldlSnd ?_ (fun _ _ => ?_)
    | split
    | dsimp only

theorem State.restartStreams_keep {s : State} {x : Seat} :
    Keep 72057594037485567 s (State.restartStreams s x) := by
  unfold State.restartStreams; try dsimp only
  repeat' first
    | with_reducible exact Keep.rfl'
    | with_reducible assumption
    | (with_reducible apply Keep.step State.resetStream_keep; decide)
    | with_reducible refine Keep.foldl ?_ (fun _ _ => ?_)
    | with_reducible refine Keep.foldlFst ?_ (fun _ _ => ?_)
    | with_reducible refine Keep.foldlSnd ?_ (fun _ _ => ?_)
    | with_reducible apply Keep.ite
    | with_reducible apply Keep.iteFst
    | with_reducible apply Keep.iteSnd
    | split
    | dsimp only

theorem State.firstBuild_keep {s : State} {x : Seat} {ut : Nat} :
    Keep 70891957088488511 s (State.firstBuild s x ut) := by
  unfold State.firstBuild; try dsimp only
  repeat' first
    | with_reducible exact Keep.rfl'
    | with_reducible assumption
    | (with_reducible apply Keep.step State.buildItem_keep; decide)
    | (with_reducible apply Keep.step State.dropScripts_keep; decide)
    | (with_reducible apply Keep.step State.isoLost_keep; decide)
    | (with_reducible apply Keep.step State.restartStreams_keep; decide)
    | (with_reducible apply Keep.step State.setUsbSeat_keep; decide)
    | with_reducible apply Keep.setFlt
    | exact fun k => absurd k (by decide)
    | with_reducible exact fun _ => rfl
    | with_reducible rfl
    | decide
    | with_reducible apply Keep.ite
    | split
    | dsimp only

theorem execFailoverFirstBuild_keep {x : Seat} {ut : Nat} {s : State} :
    KeepX 30359560442151998 s (execFailoverFirstBuild x ut s) := by
  unfold execFailoverFirstBuild; try dsimp only
  repeat' first
    | with_reducible exact Keep.rfl'
    | with_reducible assumption
    | (with_reducible apply Keep.step State.arrive_keep; decide)
    | (with_reducible apply Keep.step State.firstBuild_keep; decide)
    | with_reducible refine KeepX.next ?_
    | split
    | dsimp only

theorem State.endRolling_keep {s : State} {status : Byte} :
    Keep 70261378798689883 s (State.endRolling s status) := by
  unfold State.endRolling; try dsimp only
  repeat' first
    | with_reducible exact Keep.rfl'
    | with_reducible assumption
    | (with_reducible apply Keep.step State.endCmd_keep; decide)
    | (with_reducible apply Keep.step State.restMode_keep; decide)
    | with_reducible apply Keep.setMode
    | exact fun k => absurd k (by decide)
    | with_reducible exact fun _ => rfl
    | with_reducible rfl
    | decide
    | with_reducible apply Keep.ite
    | split
    | dsimp only

theorem State.failover_keep {s : State} {x : CoreId} {cause : Nat} {row : Nat} :
    Keep 65724750670923339 s (State.failover s x cause row) := by
  unfold State.failover; try dsimp only
  repeat' first
    | with_reducible exact Keep.rfl'
    | with_reducible assumption
    | (with_reducible apply Keep.step State.bwSettle_keep; decide)
    | (with_reducible apply Keep.step State.endRolling_keep; decide)
    | (with_reducible apply Keep.step State.errLog_keep; decide)
    | (with_reducible apply Keep.step State.fenceCore_keep; decide)
    | (with_reducible apply Keep.step State.moveSeats_keep; decide)
    | (with_reducible apply Keep.step State.moveToken_keep; decide)
    | (with_reducible apply Keep.step State.privEdge_keep; decide)
    | (with_reducible apply Keep.step State.reModeFn_keep; decide)
    | (with_reducible apply Keep.step State.reasonOn_keep; decide)
    | (with_reducible apply Keep.step State.setCntCore_keep; decide)
    | (with_reducible apply Keep.step State.setCore_keep; decide)
    | (with_reducible apply Keep.step State.settleCauseway_keep; decide)
    | with_reducible apply Keep.ite
    | split
    | dsimp only

theorem State.fenceOnly_keep {s : State} {x : CoreId} :
    Keep 70237211152343039 s (State.fenceOnly s x) := by
  unfold State.fenceOnly; try dsimp only
  repeat' first
    | with_reducible exact Keep.rfl'
    | with_reducible assumption
    | (with_reducible apply Keep.step State.errLog_keep; decide)
    | (with_reducible apply Keep.step State.fenceCore_keep; decide)
    | (with_reducible apply Keep.step State.setCore_keep; decide)
    | (with_reducible apply Keep.step State.settleCauseway_keep; decide)
    | split
    | dsimp only

theorem State.supervisorLost_keep {s : State} {x : CoreId} :
    Keep 65727533798121467 s (State.supervisorLost s x) := by
  unfold State.supervisorLost; try dsimp only
  repeat' first
    | with_reducible exact Keep.rfl'
    | with_reducible assumption
    | (with_reducible apply Keep.step State.errLog_keep; decide)
    | (with_reducible apply Keep.step State.moveToken_keep; decide)
    | (with_reducible apply Keep.step State.setCore_keep; decide)
    | with_reducible apply Keep.setSvc
    | exact fun k => absurd k (by decide)
    | with_reducible exact fun _ => rfl
    | with_reducible rfl
    | decide
    | with_reducible apply Keep.ite
    | split
    | dsimp only

theorem State.unsupervise_keep {s : State} :
    Keep 70237352538144763 s (State.unsupervise s) := by
  unfold State.unsupervise; try dsimp only
  repeat' first
    | with_reducible exact Keep.rfl'
    | with_reducible assumption
    | (with_reducible apply Keep.step State.endCmd_keep; decide)
    | (with_reducible apply Keep.step State.enterMode_keep; decide)
    | (with_reducible apply Keep.step State.errLog_keep; decide)
    | (with_reducible apply Keep.step State.reasonOn_keep; decide)
    | (with_reducible apply Keep.step State.setCore_keep; decide)
    | with_reducible apply Keep.setMode
    | with_reducible apply Keep.setSvc
    | exact fun k => absurd k (by decide)
    | with_reducible exact fun _ => rfl
    | with_reducible rfl
    | decide
    | with_reducible refine Keep.foldl ?_ (fun _ _ => ?_)
    | with_reducible refine Keep.foldlFst ?_ (fun _ _ => ?_)
    | with_reducible refine Keep.foldlSnd ?_ (fun _ _ => ?_)
    | with_reducible apply Keep.ite
    | with_reducible apply Keep.iteFst
    | with_reducible apply Keep.iteSnd
    | split
    | dsimp only

theorem State.markFailed_keep {s : State} {bad : CoreId → Bool} :
    Keep 70254781594705491 s (State.markFailed s bad) := by
  unfold State.markFailed; try dsimp only
  repeat' first
    | with_reducible exact Keep.rfl'
    | with_reducible assumption
    | (with_reducible apply Keep.step State.reModeFn_keep; decide)
    | (with_reducible apply Keep.step State.reasonOn_keep; decide)
    | (with_reducible apply Keep.step State.safeStop_keep; decide)
    | (with_reducible apply Keep.step State.setCore_keep; decide)
    | (with_reducible apply Keep.step State.settleCauseway_keep; decide)
    | with_reducible refine Keep.foldl ?_ (fun _ _ => ?_)
    | with_reducible refine Keep.foldlFst ?_ (fun _ _ => ?_)
    | with_reducible refine Keep.foldlSnd ?_ (fun _ _ => ?_)
    | with_reducible apply Keep.ite
    | with_reducible apply Keep.iteFst
    | with_reducible apply Keep.iteSnd
    | split
    | dsimp only

theorem State.refereeEvaluate_keep {s : State} {lost : CoreId → Bool} :
    Keep 65724750670923331 s (State.refereeEvaluate s lost) := by
  unfold State.refereeEvaluate; try dsimp only
  repeat' first
    | with_reducible exact Keep.rfl'
    | with_reducible assumption
    | (with_reducible apply Keep.step State.failover_keep; decide)
    | (with_reducible apply Keep.step State.fenceOnly_keep; decide)
    | (with_reducible apply Keep.step State.markFailed_keep; decide)
    | (with_reducible apply Keep.step State.safeStop_keep; decide)
    | (with_reducible apply Keep.step State.supervisorLost_keep; decide)
    | (with_reducible apply Keep.step State.unsupervise_keep; decide)
    | with_reducible refine Keep.getD ?_ ?_
    | with_reducible apply Keep.ite
    | split
    | dsimp only

theorem State.heartbeat_keep {s : State} {c : CoreId} {dataOk : Bool} {supOk : Bool} {cwOk : Bool} :
    Keep 65724750670923331 s (State.heartbeat s c dataOk supOk cwOk) := by
  unfold State.heartbeat; try dsimp only
  repeat' first
    | with_reducible exact Keep.rfl'
    | with_reducible assumption
    | (with_reducible apply Keep.step State.refereeEvaluate_keep; decide)
    | (with_reducible apply Keep.step State.setCore_keep; decide)
    | with_reducible apply Keep.ite
    | split
    | dsimp only

theorem execHeartbeat_keep {c : CoreId} {dataOk : Bool} {supOk : Bool} {cwOk : Bool} {_token : Bool} {ut : Nat} {s : State} :
    KeepX 29695953651959362 s (execHeartbeat c dataOk supOk cwOk _token ut s) := by
  unfold execHeartbeat; try dsimp only
  repeat' first
    | with_reducible exact Keep.rfl'
    | with_reducible assumption
    | (with_reducible apply Keep.step State.arrive_keep; decide)
    | (with_reducible apply Keep.step State.heartbeat_keep; decide)
    | with_reducible refine KeepX.next ?_
    | split
    | dsimp only

theorem State.heartbeatLost_keep {s : State} {c : CoreId} {ut : Nat} :
    Keep 65724750670923331 s (State.heartbeatLost s c ut) := by
  unfold State.heartbeatLost; try dsimp only
  repeat' first
    | with_reducible exact Keep.rfl'
    | with_reducible assumption
    | (with_reducible apply Keep.step State.errLog_keep; decide)
    | (with_reducible apply Keep.step State.privEdge_keep; decide)
    | (with_reducible apply Keep.step State.refereeEvaluate_keep; decide)
    | (with_reducible apply Keep.step State.setCore_keep; decide)
    | with_reducible apply Keep.ite
    | split
    | dsimp only

theorem execHeartbeatLost_keep {c : CoreId} {ut : Nat} {s : State} :
    KeepX 29695953651959362 s (execHeartbeatLost c ut s) := by
  unfold execHeartbeatLost; try dsimp only
  repeat' first
    | with_reducible exact Keep.rfl'
    | with_reducible assumption
    | (with_reducible apply Keep.step State.arrive_keep; decide)
    | (with_reducible apply Keep.step State.heartbeatLost_keep; decide)
    | with_reducible refine KeepX.next ?_
    | split
    | dsimp only

theorem State.memoryError_keep {s : State} {c : CoreId} {code : Byte} :
    Keep 70104723948036095 s (State.memoryError s c code) := by
  unfold State.memoryError; try dsimp only
  repeat' first
    | with_reducible exact Keep.rfl'
    | with_reducible assumption
    | (with_reducible apply Keep.step State.draw_keep; decide)
    | with_reducible refine Keep.step (State.draw_keepE (by assumption)) (by decide) ?_
    | (with_reducible apply Keep.step State.edge_keep; decide)
    | (with_reducible apply Keep.step State.errLog_keep; decide)
    | (with_reducible apply Keep.step State.privEdge_keep; decide)
    | with_reducible apply Keep.ite
    | split
    | dsimp only

theorem State.hardErr_keep {s : State} {c : CoreId} {code : Byte} :
    Keep 65584013182568003 s (State.hardErr s c code) := by
  unfold State.hardErr; try dsimp only
  repeat' first
    | with_reducible exact Keep.rfl'
    | with_reducible assumption
    | (with_reducible apply Keep.step State.errLog_keep; decide)
    | (with_reducible apply Keep.step State.memoryError_keep; decide)
    | (with_reducible apply Keep.step State.refereeEvaluate_keep; decide)
    | (with_reducible apply Keep.step State.setCore_keep; decide)
    | with_reducible apply Keep.ite
    | split
    | dsimp only

theorem execHardError_keep {c : CoreId} {code : Byte} {s : State} :
    KeepX 65584013182568003 s (execHardError c code s) := by
  unfold execHardError; try dsimp only
  repeat' first
    | with_reducible exact Keep.rfl'
    | with_reducible assumption
    | (with_reducible apply Keep.step State.hardErr_keep; decide)
    | with_reducible refine KeepX.next ?_
    | split
    | dsimp only

theorem State.fenceTimeout_keep {s : State} {c : CoreId} :
    Keep 70256980617961053 s (State.fenceTimeout s c) := by
  unfold State.fenceTimeout; try dsimp only
  repeat' first
    | with_reducible exact Keep.rfl'
    | with_reducible assumption
    | (with_reducible apply Keep.step State.loseFn_keep; decide)
    | (with_reducible apply Keep.step State.setCore_keep; decide)
    | with_reducible apply Keep.setFnQ
    | (with_reducible apply Keep.step State.setPortState_keep; decide)
    | exact fun k => absurd k (by decide)
    | with_reducible exact fun _ => rfl
    | with_reducible rfl
    | decide
    | with_reducible refine Keep.foldl ?_ (fun _ _ => ?_)
    | with_reducible refine Keep.foldlFst ?_ (fun _ _ => ?_)
    | with_reducible refine Keep.foldlSnd ?_ (fun _ _ => ?_)
    | with_reducible apply Keep.ite
    | with_reducible apply Keep.iteFst
    | with_reducible apply Keep.iteSnd
    | split
    | dsimp only

theorem execFenceConfirmTimeout_keep {c : CoreId} {ut : Nat} {s : State} :
    KeepX 29724583971624540 s (execFenceConfirmTimeout c ut s) := by
  unfold execFenceConfirmTimeout; try dsimp only
  repeat' first
    | with_reducible exact Keep.rfl'
    | with_reducible assumption
    | (with_reducible apply Keep.step State.arrive_keep; decide)
    | (with_reducible apply Keep.step State.fenceTimeout_keep; decide)
    | with_reducible refine KeepX.next ?_
    | split
    | dsimp only

theorem State.supervisorBack_keep {s : State} {c : CoreId} {ok : Bool} :
    Keep 70237189542878811 s (State.supervisorBack s c ok) := by
  unfold State.supervisorBack; try dsimp only
  repeat' first
    | with_reducible exact Keep.rfl'
    | with_reducible assumption
    | (with_reducible apply Keep.step State.endCmd_keep; decide)
    | (with_reducible apply Keep.step State.errLog_keep; decide)
    | (with_reducible apply Keep.step State.reasonOff_keep; decide)
    | (with_reducible apply Keep.step State.restMode_keep; decide)
    | (with_reducible apply Keep.step State.setCore_keep; decide)
    | with_reducible refine Keep.foldl ?_ (fun _ _ => ?_)
    | with_reducible refine Keep.foldlFst ?_ (fun _ _ => ?_)
    | with_reducible refine Keep.foldlSnd ?_ (fun _ _ => ?_)
    | with_reducible apply Keep.ite
    | with_reducible apply Keep.iteFst
    | with_reducible apply Keep.iteSnd
    | split
    | dsimp only

theorem execSupervisorRestartDone_keep {c : CoreId} {ok : Bool} {s : State} :
    KeepX 70237189542878811 s (execSupervisorRestartDone c ok s) := by
  unfold execSupervisorRestartDone; try dsimp only
  repeat' first
    | with_reducible exact Keep.rfl'
    | with_reducible assumption
    | (with_reducible apply Keep.step State.supervisorBack_keep; decide)
    | with_reducible refine KeepX.next ?_
    | split
    | dsimp only

theorem State.loseReferee_keep {s : State} {c : CoreId} :
    Keep 70237352538144767 s (State.loseReferee s c) := by
  unfold State.loseReferee; try dsimp only
  repeat' first
    | with_reducible exact Keep.rfl'
    | with_reducible assumption
    | (with_reducible apply Keep.step State.errLog_keep; decide)
    | (with_reducible apply Keep.step State.reMode_keep; decide)
    | (with_reducible apply Keep.step State.reasonOn_keep; decide)
    | with_reducible apply Keep.setFlt
    | exact fun k => absurd k (by decide)
    | with_reducible exact fun _ => rfl
    | with_reducible rfl
    | decide
    | with_reducible apply Keep.ite
    | split
    | dsimp only

theorem execRefereeLost_keep {c : CoreId} {_selfCheck : Bool} {ut : Nat} {s : State} :
    KeepX 29704818452846590 s (execRefereeLost c _selfCheck ut s) := by
  unfold execRefereeLost; try dsimp only
  repeat' first
    | with_reducible exact Keep.rfl'
    | with_reducible assumption
    | (with_reducible apply Keep.step State.arrive_keep; decide)
    | (with_reducible apply Keep.step State.loseReferee_keep; decide)
    | with_reducible refine KeepX.next ?_
    | split
    | dsimp only

theorem State.refereeBack_keep {s : State} :
    Keep 70237352538144759 s (State.refereeBack s) := by
  unfold State.refereeBack; try dsimp only
  repeat' first
    | with_reducible exact Keep.rfl'
    | with_reducible assumption
    | (with_reducible apply Keep.step State.errLog_keep; decide)
    | (with_reducible apply Keep.step State.reMode_keep; decide)
    | (with_reducible apply Keep.step State.reasonOff_keep; decide)
    | with_reducible apply Keep.setFlt
    | with_reducible apply Keep.setHost
    | exact fun k => absurd k (by decide)
    | with_reducible exact fun _ => rfl
    | with_reducible rfl
    | decide
    | with_reducible apply Keep.ite
    | split
    | dsimp only

theorem execRefereeReturned_keep {ut : Nat} {s : State} :
    KeepX 29704818452846582 s (execRefereeReturned ut s) := by
  unfold execRefereeReturned; try dsimp only
  repeat' first
    | with_reducible exact Keep.rfl'
    | with_reducible assumption
    | (with_reducible apply Keep.step State.arrive_keep; decide)
    | (with_reducible apply Keep.step State.refereeBack_keep; decide)
    | with_reducible refine KeepX.next ?_
    | split
    | dsimp only

theorem State.causewayGone_keep {s : State} :
    Keep 65592328227643167 s (State.causewayGone s) := by
  unfold State.causewayGone; try dsimp only
  repeat' first
    | with_reducible exact Keep.rfl'
    | with_reducible assumption
    | (with_reducible apply Keep.step State.driftApart_keep; decide)
    | (with_reducible apply Keep.step State.errLog_keep; decide)
    | (with_reducible apply Keep.step State.lapse_keep; decide)
    | with_reducible refine Keep.foldl ?_ (fun _ _ => ?_)
    | with_reducible refine Keep.foldlFst ?_ (fun _ _ => ?_)
    | with_reducible refine Keep.foldlSnd ?_ (fun _ _ => ?_)
    | with_reducible apply Keep.ite
    | with_reducible apply Keep.iteFst
    | with_reducible apply Keep.iteSnd
    | split
    | dsimp only

theorem State.laneDown_keep {s : State} {n : Fin 16} :
    Keep 65584013182567939 s (State.laneDown s n) := by
  unfold State.laneDown; try dsimp only
  repeat' first
    | with_reducible exact Keep.rfl'
    | with_reducible assumption
    | (with_reducible apply Keep.step State.causewayGone_keep; decide)
    | (with_reducible apply Keep.step State.edgeBoth_keep; decide)
    | (with_reducible apply Keep.step State.errLog_keep; decide)
    | (with_reducible apply Keep.step State.hardErr_keep; decide)
    | (with_reducible apply Keep.step State.setLanes_keep; decide)
    | with_reducible refine Keep.foldl ?_ (fun _ _ => ?_)
    | with_reducible refine Keep.foldlFst ?_ (fun _ _ => ?_)
    | with_reducible refine Keep.foldlSnd ?_ (fun _ _ => ?_)
    | with_reducible apply Keep.ite
    | with_reducible apply Keep.iteFst
    | with_reducible apply Keep.iteSnd
    | split
    | dsimp only

theorem execLaneRemoved_keep {n : Fin 16} {s : State} :
    KeepX 65584013182567939 s (execLaneRemoved n s) := by
  unfold execLaneRemoved; try dsimp only
  repeat' first
    | with_reducible exact Keep.rfl'
    | with_reducible assumption
    | (with_reducible apply Keep.step State.laneDown_keep; decide)
    | with_reducible refine KeepX.next ?_
    | split
    | dsimp only

theorem State.laneUp_keep {s : State} {n : Fin 16} :
    Keep 65724815431950335 s (State.laneUp s n) := by
  unfold State.laneUp; try dsimp only
  repeat' first
    | with_reducible exact Keep.rfl'
    | with_reducible assumption
    | (with_reducible apply Keep.step State.edgeBoth_keep; decide)
    | (with_reducible apply Keep.step State.errLog_keep; decide)
    | (with_reducible apply Keep.step State.setLanes_keep; decide)
    | (with_reducible apply Keep.step State.steerAgain_keep; decide)
    | with_reducible refine Keep.foldl ?_ (fun _ _ => ?_)
    | with_reducible refine Keep.foldlFst ?_ (fun _ _ => ?_)
    | with_reducible refine Keep.foldlSnd ?_ (fun _ _ => ?_)
    | with_reducible apply Keep.ite
    | with_reducible apply Keep.iteFst
    | with_reducible apply Keep.iteSnd
    | split
    | dsimp only

theorem execLaneRetrain_keep {n : Fin 16} {ok : Bool} {s : State} :
    KeepX 65724815431950335 s (execLaneRetrain n ok s) := by
  unfold execLaneRetrain; try dsimp only
  repeat' first
    | with_reducible exact Keep.rfl'
    | with_reducible assumption
    | (with_reducible apply Keep.step State.laneUp_keep; decide)
    | with_reducible refine KeepX.next ?_
    | with_reducible apply Keep.ite
    | split
    | dsimp only

theorem execCausewayTimeSample_keep {ut : Nat} {s : State} :
    KeepX 31481079487518718 s (execCausewayTimeSample ut s) := by
  unfold execCausewayTimeSample; try dsimp only
  repeat' first
    | with_reducible exact Keep.rfl'
    | with_reducible assumption
    | (with_reducible apply Keep.step State.arrive_keep; decide)
    | (with_reducible apply Keep.step State.steerAgain_keep; decide)
    | with_reducible refine KeepX.next ?_
    | with_reducible apply Keep.ite
    | split
    | dsimp only

theorem State.corrected_keep {s : State} {c : CoreId} {p : EccPlace} {detail : Nat} :
    Keep 70245461436391423 s (State.corrected s c p detail) := by
  unfold State.corrected; try dsimp only
  repeat' first
    | with_reducible exact Keep.rfl'
    | with_reducible assumption
    | (with_reducible apply Keep.step State.count_keep; decide)
    | (with_reducible apply Keep.step State.edge_keep; decide)
    | (with_reducible apply Keep.step State.errLog_keep; decide)
    | split
    | dsimp only

theorem execCorrectableError_keep {c : CoreId} {p : EccPlace} {detail : Nat} {s : State} :
    KeepX 70245461436391423 s (execCorrectableError c p detail s) := by
  unfold execCorrectableError; try dsimp only
  repeat' first
    | with_reducible exact Keep.rfl'
    | with_reducible assumption
    | (with_reducible apply Keep.step State.corrected_keep; decide)
    | with_reducible refine KeepX.next ?_
    | split
    | dsimp only

theorem State.iswLine_keep {s : State} {c : CoreId} {i : IsletNo} {line : Nat} {detail : Nat} :
    Keep 70280783247425535 s (State.iswLine s c i line detail) := by
  unfold State.iswLine; try dsimp only
  repeat' first
    | with_reducible exact Keep.rfl'
    | with_reducible assumption
    | (with_reducible apply Keep.step State.errLog_keep; decide)
    | with_reducible apply Keep.setIsw
    | decide
    | with_reducible apply writeBytes_wf
    | with_reducible apply writeNat_wf
    | with_reducible apply foldl_mem_wf
    | exact State.isw_wf (by assumption)
    | exact State.due_wf (by assumption)
    | exact State.dram_wf (by assumption)
    | with_reducible rfl
    | intro _
    | with_reducible apply Keep.ite
    | split
    | dsimp only

theorem State.uncorrected_keep {s : State} {c : CoreId} {r : DramRegion} {ch : Fin 6} {detail : Nat} :
    Keep 65584013182568003 s (State.uncorrected s c r ch detail) := by
  unfold State.uncorrected; try dsimp only
  repeat' first
    | with_reducible exact Keep.rfl'
    | with_reducible assumption
    | (with_reducible apply Keep.step State.edge_keep; decide)
    | (with_reducible apply Keep.step State.errLog_keep; decide)
    | (with_reducible apply Keep.step State.feedPipes_keep; decide)
    | (with_reducible apply Keep.step State.hardErr_keep; decide)
    | (with_reducible apply Keep.step State.iswLine_keep; decide)
    | (with_reducible apply Keep.step State.needRefresh_keep; decide)
    | (with_reducible apply Keep.step State.privEdge_keep; decide)
    | (with_reducible apply Keep.step State.setHead_keep; decide)
    | (with_reducible apply Keep.step State.supervisorLost_keep; decide)
    | (with_reducible apply Keep.step State.takeStoreLost_keep; decide)
    | with_reducible refine Keep.foldl ?_ (fun _ _ => ?_)
    | with_reducible refine Keep.foldlFst ?_ (fun _ _ => ?_)
    | with_reducible refine Keep.foldlSnd ?_ (fun _ _ => ?_)
    | with_reducible apply Keep.ite
    | with_reducible apply Keep.iteFst
    | with_reducible apply Keep.iteSnd
    | split
    | dsimp only

theorem execUncorrectableDramError_keep {c : CoreId} {r : DramRegion} {channel : Fin 6} {detail : Nat} {s : State} :
    KeepX 65584013182568003 s (execUncorrectableDramError c r channel detail s) := by
  unfold execUncorrectableDramError; try dsimp only
  repeat' first
    | with_reducible exact Keep.rfl'
    | with_reducible assumption
    | (with_reducible apply Keep.step State.uncorrected_keep; decide)
    | with_reducible refine KeepX.next ?_
    | split
    | dsimp only

theorem State.copyToTwin_keep {s : State} {x : CoreId} {y : CoreId} :
    Keep 72057593886916415 s (State.copyToTwin s x y) := by
  unfold State.copyToTwin; try dsimp only
  repeat' first
    | with_reducible exact Keep.rfl'
    | with_reducible assumption
    | with_reducible apply Keep.setIsw
    | (with_reducible apply Keep.step State.setShQueue_keep; decide)
    | (with_reducible apply Keep.step State.setShRing_keep; decide)
    | with_reducible apply Keep.setDisp
    | exact fun k => absurd k (by decide)
    | with_reducible exact fun _ => rfl
    | with_reducible rfl
    | decide
    | decide
    | with_reducible apply writeBytes_wf
    | with_reducible apply writeNat_wf
    | with_reducible apply foldl_mem_wf
    | exact State.isw_wf (by assumption)
    | exact State.due_wf (by assumption)
    | exact State.dram_wf (by assumption)
    | with_reducible rfl
    | intro _
    | with_reducible refine Keep.foldl ?_ (fun _ _ => ?_)
    | with_reducible refine Keep.foldlFst ?_ (fun _ _ => ?_)
    | with_reducible refine Keep.foldlSnd ?_ (fun _ _ => ?_)
    | with_reducible apply Keep.ite
    | with_reducible apply Keep.iteFst
    | with_reducible apply Keep.iteSnd
    | split
    | dsimp only

theorem State.discardSeat_keep {s : State} {c : CoreId} {a : Seat} :
    Keep 72022268296814207 s (State.discardSeat s c a) := by
  unfold State.discardSeat; try dsimp only
  repeat' first
    | with_reducible exact Keep.rfl'
    | with_reducible assumption
    | (with_reducible apply Keep.step State.discardAt_keep; decide)
    | (with_reducible apply Keep.step State.discardQueued_keep; decide)
    | (with_reducible apply Keep.step State.freeTx_keep; decide)
    | with_reducible refine Keep.foldl ?_ (fun _ _ => ?_)
    | with_reducible refine Keep.foldlFst ?_ (fun _ _ => ?_)
    | with_reducible refine Keep.foldlSnd ?_ (fun _ _ => ?_)
    | split
    | dsimp only

theorem State.rollOut_keep {s : State} {x : CoreId} :
    Keep 70751202435925007 s (State.rollOut s x) := by
  unfold State.rollOut; try dsimp only
  repeat' first
    | with_reducible exact Keep.rfl'
    | with_reducible assumption
    | (with_reducible apply Keep.step State.discardSeat_keep; decide)
    | (with_reducible apply Keep.step State.handOver_keep; decide)
    | (with_reducible apply Keep.step State.moveSeats_keep; decide)
    | (with_reducible apply Keep.step State.setCore_keep; decide)
    | (with_reducible apply Keep.step State.settleCauseway_keep; decide)
    | with_reducible refine Keep.foldl ?_ (fun _ _ => ?_)
    | with_reducible refine Keep.foldlFst ?_ (fun _ _ => ?_)
    | with_reducible refine Keep.foldlSnd ?_ (fun _ _ => ?_)
    | split
    | dsimp only

theorem State.leaveCore_keep {s : State} {x : CoreId} {y : CoreId} {seats : List Seat} :
    Keep 70896346830276207 s (State.leaveCore s x y seats) := by
  unfold State.leaveCore; try dsimp only
  repeat' first
    | with_reducible exact Keep.rfl'
    | with_reducible assumption
    | (with_reducible apply Keep.step State.discardSeat_keep; decide)
    | (with_reducible apply Keep.step State.dropReads_keep; decide)
    | (with_reducible apply Keep.step State.dropTokens_keep; decide)
    | (with_reducible apply Keep.step State.feedPipes_keep; decide)
    | (with_reducible apply Keep.step State.moveReads_keep; decide)
    | (with_reducible apply Keep.step State.setDispatch_keep; decide)
    | (with_reducible apply Keep.step State.setGather_keep; decide)
    | (with_reducible apply Keep.step State.setPipe_keep; decide)
    | (with_reducible apply Keep.step State.setTeSt_keep; decide)
    | with_reducible refine Keep.foldl ?_ (fun _ _ => ?_)
    | with_reducible refine Keep.foldlFst ?_ (fun _ _ => ?_)
    | with_reducible refine Keep.foldlSnd ?_ (fun _ _ => ?_)
    | with_reducible apply Keep.ite
    | with_reducible apply Keep.iteFst
    | with_reducible apply Keep.iteSnd
    | split
    | dsimp only

theorem State.rollBack_keep {s : State} {x : CoreId} :
    Keep 70751202435925007 s (State.rollBack s x) := by
  unfold State.rollBack; try dsimp only
  repeat' first
    | with_reducible exact Keep.rfl'
    | with_reducible assumption
    | (with_reducible apply Keep.step State.copyToTwin_keep; decide)
    | (with_reducible apply Keep.step State.dropSeatFrames_keep; decide)
    | (with_reducible apply Keep.step State.handOver_keep; decide)
    | (with_reducible apply Keep.step State.leaveCore_keep; decide)
    | (with_reducible apply Keep.step State.regroupAll_keep; decide)
    | (with_reducible apply Keep.step State.seatTo_keep; decide)
    | (with_reducible apply Keep.step State.setCore_keep; decide)
    | (with_reducible apply Keep.step State.settleCauseway_keep; decide)
    | (with_reducible apply Keep.step State.settleSeat_keep; decide)
    | with_reducible apply Keep.setFlt
    | exact fun k => absurd k (by decide)
    | with_reducible exact fun _ => rfl
    | with_reducible rfl
    | decide
    | with_reducible refine Keep.foldl ?_ (fun _ _ => ?_)
    | with_reducible refine Keep.foldlFst ?_ (fun _ _ => ?_)
    | with_reducible refine Keep.foldlSnd ?_ (fun _ _ => ?_)
    | split
    | dsimp only

theorem State.setRoll_keep {s : State} {r : RollSt} :
    Keep 72056494526300159 s (State.setRoll s r) := by
  unfold State.setRoll; try dsimp only
  repeat' first
    | with_reducible exact Keep.rfl'
    | with_reducible assumption
    | with_reducible apply Keep.setMode
    | exact fun k => absurd k (by decide)
    | with_reducible exact fun _ => rfl
    | with_reducible rfl
    | decide
    | split
    | dsimp only

theorem State.setRunning_keep {s : State} {c : CoreId} {n : Fin 3} :
    Keep 72053745747230719 s (State.setRunning s c n) := by
  unfold State.setRunning; try dsimp only
  repeat' first
    | with_reducible exact Keep.rfl'
    | with_reducible assumption
    | with_reducible apply Keep.setMode
    | exact fun k => absurd k (by decide)
    | with_reducible exact fun _ => rfl
    | with_reducible rfl
    | decide
    | split
    | dsimp only

theorem State.rollStarted_keep {s : State} {r : RollSt} {x : CoreId} {next' : Nat} {ok : Bool} {fallbackOk : Bool} :
    Keep 70237189408661019 s (State.rollStarted s r x next' ok fallbackOk) := by
  unfold State.rollStarted; try dsimp only
  repeat' first
    | with_reducible exact Keep.rfl'
    | with_reducible assumption
    | (with_reducible apply Keep.step State.endRolling_keep; decide)
    | (with_reducible apply Keep.step State.errLog_keep; decide)
    | (with_reducible apply Keep.step State.fenceCore_keep; decide)
    | (with_reducible apply Keep.step State.lapse_keep; decide)
    | (with_reducible apply Keep.step State.setCore_keep; decide)
    | (with_reducible apply Keep.step State.setRoll_keep; decide)
    | (with_reducible apply Keep.step State.setRunning_keep; decide)
    | (with_reducible apply Keep.step State.settleCauseway_keep; decide)
    | with_reducible refine Keep.foldl ?_ (fun _ _ => ?_)
    | with_reducible refine Keep.foldlFst ?_ (fun _ _ => ?_)
    | with_reducible refine Keep.foldlSnd ?_ (fun _ _ => ?_)
    | with_reducible apply Keep.ite
    | with_reducible apply Keep.iteFst
    | with_reducible apply Keep.iteSnd
    | split
    | dsimp only

theorem State.rollStep_keep {s : State} {r : RollSt} {ok : Bool} {fallbackOk : Bool} :
    Keep 65584013181453315 s (State.rollStep s r ok fallbackOk) := by
  unfold State.rollStep; try dsimp only
  repeat' first
    | with_reducible exact Keep.rfl'
    | with_reducible assumption
    | (with_reducible apply Keep.step State.copyToTwin_keep; decide)
    | (with_reducible apply Keep.step State.endRolling_keep; decide)
    | (with_reducible apply Keep.step State.moveToken_keep; decide)
    | (with_reducible apply Keep.step State.rollBack_keep; decide)
    | (with_reducible apply Keep.step State.rollOut_keep; decide)
    | (with_reducible apply Keep.step State.rollStarted_keep; decide)
    | (with_reducible apply Keep.step State.setRoll_keep; decide)
    | (with_reducible apply Keep.step State.storeUpdate_keep; decide)
    | with_reducible apply Keep.setMode
    | exact fun k => absurd k (by decide)
    | with_reducible exact fun _ => rfl
    | with_reducible rfl
    | decide
    | with_reducible apply Keep.ite
    | split
    | dsimp only

theorem execRollingUpdatePhaseDone_keep {ok : Bool} {fallbackOk : Bool} {s : State} :
    KeepX 65584013181453315 s (execRollingUpdatePhaseDone ok fallbackOk s) := by
  unfold execRollingUpdatePhaseDone; try dsimp only
  repeat' first
    | with_reducible exact Keep.rfl'
    | with_reducible assumption
    | (with_reducible apply Keep.step State.rollStep_keep; decide)
    | with_reducible refine KeepX.next ?_
    | split
    | dsimp only

end Sys2Proof.Machine
end

