-- ==== Sys2Proof/Laws/KeepMains.lean ====
section
/-! SUPPORT. What the operations of Machine/Mains.lean may change: one lemma each. -/

namespace Sys2Proof.Machine

theorem State.putSupply_keep {s : State} {x : SupplyId} {v : SupplySt} :
    Keep 45458208738770944 s (State.putSupply s x v) := by
  unfold State.putSupply; try dsimp only
  repeat' first
    | with_reducible exact Keep.rfl'
    | with_reducible assumption
    | (with_reducible apply Keep.step State.edgeBoth_keep; decide)
    | (with_reducible apply Keep.step State.endCause_keep; decide)
    | (with_reducible apply Keep.step State.losePower_keep; decide)
    | (with_reducible apply Keep.step State.reasonOff_keep; decide)
    | (with_reducible apply Keep.step State.setSupply_keep; decide)
    | (with_reducible apply Keep.step State.startCause_keep; decide)
    | (with_reducible apply Keep.step State.supplyDelivers_keep; decide)
    | with_reducible apply Keep.ite
    | split
    | dsimp only

theorem State.inputLost_keep {s : State} {x : SupplyId} :
    Keep 45458208738770944 s (State.inputLost s x) := by
  unfold State.inputLost; try dsimp only
  repeat' first
    | with_reducible exact Keep.rfl'
    | with_reducible assumption
    | (with_reducible apply Keep.step State.putSupply_keep; decide)
    | with_reducible apply Keep.ite
    | split
    | dsimp only

theorem execSupplyInputLost_keep {x : SupplyId} {ut : Nat} {s : State} :
    KeepX 9429411719806976 s (execSupplyInputLost x ut s) := by
  unfold execSupplyInputLost; try dsimp only
  repeat' first
    | with_reducible exact Keep.rfl'
    | with_reducible assumption
    | (with_reducible apply Keep.step State.arrive_keep; decide)
    | (with_reducible apply Keep.step State.inputLost_keep; decide)
    | with_reducible refine KeepX.next ?_
    | split
    | dsimp only

theorem State.inputGood_keep {s : State} {x : SupplyId} :
    Keep 45458208738770944 s (State.inputGood s x) := by
  unfold State.inputGood; try dsimp only
  repeat' first
    | with_reducible exact Keep.rfl'
    | with_reducible assumption
    | (with_reducible apply Keep.step State.putSupply_keep; decide)
    | with_reducible apply Keep.ite
    | split
    | dsimp only

theorem execSupplyInputGood_keep {x : SupplyId} {ut : Nat} {s : State} :
    KeepX 9429411719806976 s (execSupplyInputGood x ut s) := by
  unfold execSupplyInputGood; try dsimp only
  repeat' first
    | with_reducible exact Keep.rfl'
    | with_reducible assumption
    | (with_reducible apply Keep.step State.arrive_keep; decide)
    | (with_reducible apply Keep.step State.inputGood_keep; decide)
    | with_reducible refine KeepX.next ?_
    | split
    | dsimp only

theorem State.inserted_keep {s : State} {x : SupplyId} :
    Keep 45458208738770944 s (State.inserted s x) := by
  unfold State.inserted; try dsimp only
  repeat' first
    | with_reducible exact Keep.rfl'
    | with_reducible assumption
    | (with_reducible apply Keep.step State.putSupply_keep; decide)
    | with_reducible apply Keep.ite
    | split
    | dsimp only

theorem execSupplyInserted_keep {x : SupplyId} {ut : Nat} {s : State} :
    KeepX 9429411719806976 s (execSupplyInserted x ut s) := by
  unfold execSupplyInserted; try dsimp only
  repeat' first
    | with_reducible exact Keep.rfl'
    | with_reducible assumption
    | (with_reducible apply Keep.step State.arrive_keep; decide)
    | (with_reducible apply Keep.step State.inserted_keep; decide)
    | with_reducible refine KeepX.next ?_
    | split
    | dsimp only

theorem State.withdrawn_keep {s : State} {x : SupplyId} :
    Keep 45458208738770944 s (State.withdrawn s x) := by
  unfold State.withdrawn; try dsimp only
  repeat' first
    | with_reducible exact Keep.rfl'
    | with_reducible assumption
    | (with_reducible apply Keep.step State.putSupply_keep; decide)
    | with_reducible apply Keep.ite
    | split
    | dsimp only

theorem execSupplyWithdrawn_keep {x : SupplyId} {ut : Nat} {s : State} :
    KeepX 9429411719806976 s (execSupplyWithdrawn x ut s) := by
  unfold execSupplyWithdrawn; try dsimp only
  repeat' first
    | with_reducible exact Keep.rfl'
    | with_reducible assumption
    | (with_reducible apply Keep.step State.arrive_keep; decide)
    | (with_reducible apply Keep.step State.withdrawn_keep; decide)
    | with_reducible refine KeepX.next ?_
    | split
    | dsimp only

theorem State.outputFailed_keep {s : State} {x : SupplyId} :
    Keep 45458208738770944 s (State.outputFailed s x) := by
  unfold State.outputFailed; try dsimp only
  repeat' first
    | with_reducible exact Keep.rfl'
    | with_reducible assumption
    | (with_reducible apply Keep.step State.putSupply_keep; decide)
    | with_reducible apply Keep.ite
    | split
    | dsimp only

theorem execSupplyOutputFailed_keep {x : SupplyId} {ut : Nat} {s : State} :
    KeepX 9429411719806976 s (execSupplyOutputFailed x ut s) := by
  unfold execSupplyOutputFailed; try dsimp only
  repeat' first
    | with_reducible exact Keep.rfl'
    | with_reducible assumption
    | (with_reducible apply Keep.step State.arrive_keep; decide)
    | (with_reducible apply Keep.step State.outputFailed_keep; decide)
    | with_reducible refine KeepX.next ?_
    | split
    | dsimp only

theorem State.feedsLost_keep {s : State} :
    Keep 45458208738770944 s (State.feedsLost s) := by
  unfold State.feedsLost; try dsimp only
  repeat' first
    | with_reducible exact Keep.rfl'
    | with_reducible assumption
    | (with_reducible apply Keep.step State.inputLost_keep; decide)
    | split
    | dsimp only

theorem execBothFeedsLost_keep {s : State} :
    KeepX 45458208738770944 s (execBothFeedsLost s) := by
  unfold execBothFeedsLost; try dsimp only
  repeat' first
    | with_reducible exact Keep.rfl'
    | with_reducible assumption
    | (with_reducible apply Keep.step State.feedsLost_keep; decide)
    | with_reducible refine KeepX.next ?_
    | split
    | dsimp only

theorem State.readSupply_keep {s : State} {x : SupplyId} {vin : Nat} {pout : Nat} :
    Keep 45458208738770944 s (State.readSupply s x vin pout) := by
  unfold State.readSupply; try dsimp only
  repeat' first
    | with_reducible exact Keep.rfl'
    | with_reducible assumption
    | (with_reducible apply Keep.step State.putSupply_keep; decide)
    | with_reducible apply Keep.ite
    | split
    | dsimp only

theorem State.poll_keep {s : State} {vinA : Nat} {vinB : Nat} {poutA : Nat} {poutB : Nat} :
    Keep 45458208738770944 s (State.poll s vinA vinB poutA poutB) := by
  unfold State.poll; try dsimp only
  repeat' first
    | with_reducible exact Keep.rfl'
    | with_reducible assumption
    | (with_reducible apply Keep.step State.edgeBoth_keep; decide)
    | (with_reducible apply Keep.step State.privEdge_keep; decide)
    | (with_reducible apply Keep.step State.readSupply_keep; decide)
    | with_reducible apply Keep.setPow
    | exact fun k => absurd k (by decide)
    | with_reducible exact fun _ => rfl
    | with_reducible rfl
    | decide
    | with_reducible apply Keep.ite
    | split
    | dsimp only

theorem execSupplyPoll_keep {vinA : Nat} {vinB : Nat} {poutA : Nat} {poutB : Nat} {ut : Nat} {s : State} :
    KeepX 9429411719806976 s (execSupplyPoll vinA vinB poutA poutB ut s) := by
  unfold execSupplyPoll; try dsimp only
  repeat' first
    | with_reducible exact Keep.rfl'
    | with_reducible assumption
    | (with_reducible apply Keep.step State.arrive_keep; decide)
    | (with_reducible apply Keep.step State.poll_keep; decide)
    | with_reducible refine KeepX.next ?_
    | split
    | dsimp only

theorem State.railLate_keep {s : State} {c : CoreId} {vdsp : Bool} :
    Keep 65584013182568003 s (State.railLate s c vdsp) := by
  unfold State.railLate; try dsimp only
  repeat' first
    | with_reducible exact Keep.rfl'
    | with_reducible assumption
    | (with_reducible apply Keep.step State.draw_keep; decide)
    | with_reducible refine Keep.step (State.draw_keepE (by assumption)) (by decide) ?_
    | (with_reducible apply Keep.step State.edge_keep; decide)
    | (with_reducible apply Keep.step State.errLog_keep; decide)
    | (with_reducible apply Keep.step State.hardErr_keep; decide)
    | (with_reducible apply Keep.step State.reasonOn_keep; decide)
    | (with_reducible apply Keep.step State.setPowCore_keep; decide)
    | with_reducible apply Keep.ite
    | split
    | dsimp only

theorem execPmbusTimeout_keep {c : CoreId} {vdsp : Bool} {ut : Nat} {s : State} :
    KeepX 29555216163604034 s (execPmbusTimeout c vdsp ut s) := by
  unfold execPmbusTimeout; try dsimp only
  repeat' first
    | with_reducible exact Keep.rfl'
    | with_reducible assumption
    | (with_reducible apply Keep.step State.arrive_keep; decide)
    | (with_reducible apply Keep.step State.railLate_keep; decide)
    | with_reducible refine KeepX.next ?_
    | split
    | dsimp only

theorem State.loseReference_keep {s : State} {c : CoreId} :
    Keep 65584013182568003 s (State.loseReference s c) := by
  unfold State.loseReference; try dsimp only
  repeat' first
    | with_reducible exact Keep.rfl'
    | with_reducible assumption
    | (with_reducible apply Keep.step State.edge_keep; decide)
    | (with_reducible apply Keep.step State.errLog_keep; decide)
    | (with_reducible apply Keep.step State.hardErr_keep; decide)
    | (with_reducible apply Keep.step State.reasonOn_keep; decide)
    | (with_reducible apply Keep.step State.setPowCore_keep; decide)
    | with_reducible apply Keep.ite
    | split
    | dsimp only

theorem execReferenceLoss_keep {c : CoreId} {s : State} :
    KeepX 65584013182568003 s (execReferenceLoss c s) := by
  unfold execReferenceLoss; try dsimp only
  repeat' first
    | with_reducible exact Keep.rfl'
    | with_reducible assumption
    | (with_reducible apply Keep.step State.loseReference_keep; decide)
    | with_reducible refine KeepX.next ?_
    | split
    | dsimp only

theorem State.setFan_keep {s : State} {n : Fin 6} {v : FanSt} :
    Keep 71987225293750271 s (State.setFan s n v) := by
  unfold State.setFan; try dsimp only
  repeat' first
    | with_reducible exact Keep.rfl'
    | with_reducible assumption
    | with_reducible apply Keep.setSvc
    | exact fun k => absurd k (by decide)
    | with_reducible exact fun _ => rfl
    | with_reducible rfl
    | decide
    | split
    | dsimp only

theorem State.fullSpeed_keep {s : State} {n : Fin 6} :
    Keep 71846487805394943 s (State.fullSpeed s n) := by
  unfold State.fullSpeed; try dsimp only
  repeat' first
    | with_reducible exact Keep.rfl'
    | with_reducible assumption
    | (with_reducible apply Keep.step State.draw_keep; decide)
    | with_reducible refine Keep.step (State.draw_keepE (by assumption)) (by decide) ?_
    | (with_reducible apply Keep.step State.setFan_keep; decide)
    | split
    | dsimp only

theorem State.fanLost_keep {s : State} {n : Fin 6} {rpm : Nat} :
    Keep 71845388293767167 s (State.fanLost s n rpm) := by
  unfold State.fanLost; try dsimp only
  repeat' first
    | with_reducible exact Keep.rfl'
    | with_reducible assumption
    | (with_reducible apply Keep.step State.fullSpeed_keep; decide)
    | (with_reducible apply Keep.step State.setFan_keep; decide)
    | (with_reducible apply Keep.step State.startCause_keep; decide)
    | with_reducible refine Keep.foldl ?_ (fun _ _ => ?_)
    | with_reducible refine Keep.foldlFst ?_ (fun _ _ => ?_)
    | with_reducible refine Keep.foldlSnd ?_ (fun _ _ => ?_)
    | with_reducible apply Keep.ite
    | with_reducible apply Keep.iteFst
    | with_reducible apply Keep.iteSnd
    | split
    | dsimp only

theorem execFanLoss_keep {n : Fin 6} {rpm : Nat} {ut : Nat} {s : State} :
    KeepX 31277669836380158 s (execFanLoss n rpm ut s) := by
  unfold execFanLoss; try dsimp only
  repeat' first
    | with_reducible exact Keep.rfl'
    | with_reducible assumption
    | (with_reducible apply Keep.step State.arrive_keep; decide)
    | (with_reducible apply Keep.step State.fanLost_keep; decide)
    | with_reducible refine KeepX.next ?_
    | split
    | dsimp only

theorem State.fanBack_keep {s : State} {n : Fin 6} :
    Keep 70154339410247679 s (State.fanBack s n) := by
  unfold State.fanBack; try dsimp only
  repeat' first
    | with_reducible exact Keep.rfl'
    | with_reducible assumption
    | (with_reducible apply Keep.step State.endCause_keep; decide)
    | (with_reducible apply Keep.step State.fullSpeed_keep; decide)
    | (with_reducible apply Keep.step State.reasonOff_keep; decide)
    | with_reducible apply Keep.ite
    | split
    | dsimp only

theorem execFanInserted_keep {n : Fin 6} {ut : Nat} {s : State} :
    KeepX 29586620952860670 s (execFanInserted n ut s) := by
  unfold execFanInserted; try dsimp only
  repeat' first
    | with_reducible exact Keep.rfl'
    | with_reducible assumption
    | (with_reducible apply Keep.step State.arrive_keep; decide)
    | (with_reducible apply Keep.step State.fanBack_keep; decide)
    | with_reducible refine KeepX.next ?_
    | split
    | dsimp only

theorem State.thermal_keep {s : State} {a : Int} {b : Int} {inlet : Int} :
    Keep 70294527142789119 s (State.thermal s a b inlet) := by
  unfold State.thermal; try dsimp only
  repeat' first
    | with_reducible exact Keep.rfl'
    | with_reducible assumption
    | (with_reducible apply Keep.step State.reasonOff_keep; decide)
    | (with_reducible apply Keep.step State.reasonOn_keep; decide)
    | with_reducible apply Keep.setMode
    | exact fun k => absurd k (by decide)
    | with_reducible exact fun _ => rfl
    | with_reducible rfl
    | decide
    | with_reducible apply Keep.ite
    | split
    | dsimp only

theorem execThermalLimitCrossed_keep {junctionA : Int} {junctionB : Int} {inlet : Int} {ut : Nat} {s : State} :
    KeepX 29726808685402110 s (execThermalLimitCrossed junctionA junctionB inlet ut s) := by
  unfold execThermalLimitCrossed; try dsimp only
  repeat' first
    | with_reducible exact Keep.rfl'
    | with_reducible assumption
    | (with_reducible apply Keep.step State.arrive_keep; decide)
    | (with_reducible apply Keep.step State.thermal_keep; decide)
    | with_reducible refine KeepX.next ?_
    | split
    | dsimp only

theorem execPhyManagementTimeout_keep {q : Fin 16} {ut : Nat} {s : State} :
    KeepX 29726714204526190 s (execPhyManagementTimeout q ut s) := by
  unfold execPhyManagementTimeout; try dsimp only
  repeat' first
    | with_reducible exact Keep.rfl'
    | with_reducible assumption
    | (with_reducible apply Keep.step State.arrive_keep; decide)
    | (with_reducible apply Keep.step State.phyLost_keep; decide)
    | with_reducible refine KeepX.next ?_
    | split
    | dsimp only

end Sys2Proof.Machine
end

