-- ==== Sys2Proof/Laws/KeepCounters.lean ====
section
/-! SUPPORT. What the operations of Machine/Counters.lean may change: one lemma each. -/

namespace Sys2Proof.Machine

theorem State.writeSelect_keep {s : State} {c : CoreId} {n : Nat} {v : W64} :
    Keep 72022409665839103 s (State.writeSelect s c n v) := by
  unfold State.writeSelect; try dsimp only
  repeat' first
    | with_reducible exact Keep.rfl'
    | with_reducible assumption
    | (with_reducible apply Keep.step State.setCntCore_keep; decide)
    | with_reducible apply Keep.ite
    | split
    | dsimp only

theorem State.selectWrite_keep {s : State} {w : Via} {c : CoreId} {n : Nat} {v : W64} :
    Keep 72022409665839103 s (State.selectWrite s w c n v) := by
  unfold State.selectWrite; try dsimp only
  repeat' first
    | with_reducible exact Keep.rfl'
    | with_reducible assumption
    | (with_reducible apply Keep.step State.setCntCore_keep; decide)
    | (with_reducible apply Keep.step State.writeSelect_keep; decide)
    | with_reducible apply Keep.ite
    | split
    | dsimp only

theorem execCounterSelectWrite_keep {w : Via} {c : CoreId} {n : Fin 512} {v : W64} {s : State} :
    KeepX 72022409665839103 s (execCounterSelectWrite w c n v s) := by
  unfold execCounterSelectWrite; try dsimp only
  repeat' first
    | with_reducible exact Keep.rfl'
    | with_reducible assumption
    | (with_reducible apply Keep.step State.selectWrite_keep; decide)
    | with_reducible refine KeepX.next ?_
    | split
    | dsimp only

theorem State.writeValue_keep {s : State} {c : CoreId} {n : Nat} {v : W64} :
    Keep 72022409665839103 s (State.writeValue s c n v) := by
  unfold State.writeValue; try dsimp only
  repeat' first
    | with_reducible exact Keep.rfl'
    | with_reducible assumption
    | (with_reducible apply Keep.step State.setCntCore_keep; decide)
    | split
    | dsimp only

theorem execCounterValueWrite_keep {w : Via} {c : CoreId} {n : Fin 512} {v : W64} {s : State} :
    KeepX 72022409665839103 s (execCounterValueWrite w c n v s) := by
  unfold execCounterValueWrite; try dsimp only
  repeat' first
    | with_reducible exact Keep.rfl'
    | with_reducible assumption
    | (with_reducible apply Keep.step State.writeValue_keep; decide)
    | with_reducible refine KeepX.next ?_
    | with_reducible apply Keep.ite
    | split
    | dsimp only

theorem State.setFreeze_keep {s : State} {c : CoreId} {v : W64} :
    Keep 72022409665839103 s (State.setFreeze s c v) := by
  unfold State.setFreeze; try dsimp only
  repeat' first
    | with_reducible exact Keep.rfl'
    | with_reducible assumption
    | (with_reducible apply Keep.step State.setCntCore_keep; decide)
    | with_reducible apply Keep.ite
    | split
    | dsimp only

theorem State.takeSnapshot_keep {s : State} {c : CoreId} {v : W64} :
    Keep 72022409665839103 s (State.takeSnapshot s c v) := by
  unfold State.takeSnapshot; try dsimp only
  repeat' first
    | with_reducible exact Keep.rfl'
    | with_reducible assumption
    | (with_reducible apply Keep.step State.setCntCore_keep; decide)
    | with_reducible apply Keep.ite
    | split
    | dsimp only

theorem State.clearCounters_keep {s : State} {c : CoreId} {v : W64} :
    Keep 72022409665839103 s (State.clearCounters s c v) := by
  unfold State.clearCounters; try dsimp only
  repeat' first
    | with_reducible exact Keep.rfl'
    | with_reducible assumption
    | (with_reducible apply Keep.step State.setCntCore_keep; decide)
    | with_reducible apply Keep.ite
    | split
    | dsimp only

theorem State.setWindows_keep {s : State} {c : CoreId} {v : W64} :
    Keep 72022409665839103 s (State.setWindows s c v) := by
  unfold State.setWindows; try dsimp only
  repeat' first
    | with_reducible exact Keep.rfl'
    | with_reducible assumption
    | (with_reducible apply Keep.step State.bwSettle_keep; decide)
    | (with_reducible apply Keep.step State.setCntCore_keep; decide)
    | with_reducible apply Keep.ite
    | split
    | dsimp only

theorem State.writeControl_keep {s : State} {c : CoreId} {v : W64} :
    Keep 72022409665839103 s (State.writeControl s c v) := by
  unfold State.writeControl; try dsimp only
  repeat' first
    | with_reducible exact Keep.rfl'
    | with_reducible assumption
    | (with_reducible apply Keep.step State.clearCounters_keep; decide)
    | (with_reducible apply Keep.step State.setFreeze_keep; decide)
    | (with_reducible apply Keep.step State.setWindows_keep; decide)
    | (with_reducible apply Keep.step State.takeSnapshot_keep; decide)
    | split
    | dsimp only

theorem execCounterFreeze_keep {w : Via} {c : CoreId} {v : W64} {s : State} :
    KeepX 72022409665839103 s (execCounterFreeze w c v s) := by
  unfold execCounterFreeze; try dsimp only
  repeat' first
    | with_reducible exact Keep.rfl'
    | with_reducible assumption
    | (with_reducible apply Keep.step State.writeControl_keep; decide)
    | with_reducible refine KeepX.next ?_
    | with_reducible apply Keep.ite
    | split
    | dsimp only

theorem execCounterSnapshot_keep {w : Via} {c : CoreId} {v : W64} {s : State} :
    KeepX 72022409665839103 s (execCounterSnapshot w c v s) := by
  unfold execCounterSnapshot; try dsimp only
  repeat' first
    | with_reducible exact Keep.rfl'
    | with_reducible assumption
    | (with_reducible apply Keep.step State.clearCounters_keep; decide)
    | (with_reducible apply Keep.step State.setFreeze_keep; decide)
    | (with_reducible apply Keep.step State.setWindows_keep; decide)
    | (with_reducible apply Keep.step State.takeSnapshot_keep; decide)
    | with_reducible refine KeepX.next ?_
    | with_reducible apply Keep.ite
    | split
    | dsimp only

theorem execCounterClear_keep {w : Via} {c : CoreId} {v : W64} {s : State} :
    KeepX 72022409665839103 s (execCounterClear w c v s) := by
  unfold execCounterClear; try dsimp only
  repeat' first
    | with_reducible exact Keep.rfl'
    | with_reducible assumption
    | (with_reducible apply Keep.step State.clearCounters_keep; decide)
    | (with_reducible apply Keep.step State.setFreeze_keep; decide)
    | (with_reducible apply Keep.step State.setWindows_keep; decide)
    | (with_reducible apply Keep.step State.takeSnapshot_keep; decide)
    | with_reducible refine KeepX.next ?_
    | with_reducible apply Keep.ite
    | split
    | dsimp only

theorem execCounterWindowSelect_keep {w : Via} {c : CoreId} {v : W64} {s : State} :
    KeepX 72022409665839103 s (execCounterWindowSelect w c v s) := by
  unfold execCounterWindowSelect; try dsimp only
  repeat' first
    | with_reducible exact Keep.rfl'
    | with_reducible assumption
    | (with_reducible apply Keep.step State.clearCounters_keep; decide)
    | (with_reducible apply Keep.step State.setFreeze_keep; decide)
    | (with_reducible apply Keep.step State.setWindows_keep; decide)
    | (with_reducible apply Keep.step State.takeSnapshot_keep; decide)
    | with_reducible refine KeepX.next ?_
    | with_reducible apply Keep.ite
    | split
    | dsimp only

theorem State.writeFreezeUt_keep {s : State} {c : CoreId} {v : W64} :
    Keep 72022409665839103 s (State.writeFreezeUt s c v) := by
  unfold State.writeFreezeUt; try dsimp only
  repeat' first
    | with_reducible exact Keep.rfl'
    | with_reducible assumption
    | (with_reducible apply Keep.step State.freezeNow_keep; decide)
    | (with_reducible apply Keep.step State.setCntCore_keep; decide)
    | split
    | dsimp only

theorem execCounterFreezeUtWrite_keep {w : Via} {c : CoreId} {v : W64} {s : State} :
    KeepX 72022409665839103 s (execCounterFreezeUtWrite w c v s) := by
  unfold execCounterFreezeUtWrite; try dsimp only
  repeat' first
    | with_reducible exact Keep.rfl'
    | with_reducible assumption
    | (with_reducible apply Keep.step State.writeFreezeUt_keep; decide)
    | with_reducible refine KeepX.next ?_
    | with_reducible apply Keep.ite
    | split
    | dsimp only

theorem execCounterFreezeUtFire_keep {c : CoreId} {ut : Nat} {s : State} :
    KeepX 31489875580540926 s (execCounterFreezeUtFire c ut s) := by
  unfold execCounterFreezeUtFire; try dsimp only
  repeat' first
    | with_reducible exact Keep.rfl'
    | with_reducible assumption
    | (with_reducible apply Keep.step State.arrive_keep; decide)
    | (with_reducible apply Keep.step State.freezeNow_keep; decide)
    | with_reducible refine KeepX.next ?_
    | split
    | dsimp only

theorem State.windowEnd_keep {s : State} {c : CoreId} :
    Keep 72022409665839103 s (State.windowEnd s c) := by
  unfold State.windowEnd; try dsimp only
  repeat' first
    | with_reducible exact Keep.rfl'
    | with_reducible assumption
    | (with_reducible apply Keep.step State.bwFollow_keep; decide)
    | split
    | dsimp only

theorem execBandwidthWindowEnd_keep {c : CoreId} {ut : Nat} {s : State} :
    KeepX 31489875580540926 s (execBandwidthWindowEnd c ut s) := by
  unfold execBandwidthWindowEnd; try dsimp only
  repeat' first
    | with_reducible exact Keep.rfl'
    | with_reducible assumption
    | (with_reducible apply Keep.step State.arrive_keep; decide)
    | (with_reducible apply Keep.step State.windowEnd_keep; decide)
    | with_reducible refine KeepX.next ?_
    | split
    | dsimp only

end Sys2Proof.Machine
end

