-- ==== Sys2Proof/Laws/KeepConsole.lean ====
section
/-! SUPPORT. What the operations of Machine/Console.lean may change: one lemma each. -/

namespace Sys2Proof.Machine

theorem State.prompt_keep {s : State} :
    Keep 71987225293750271 s (State.prompt s) := by
  unfold State.prompt; try dsimp only
  repeat' first
    | with_reducible exact Keep.rfl'
    | with_reducible assumption
    | (with_reducible apply Keep.step State.consolePut_keep; decide)
    | split
    | dsimp only

theorem State.say_keep {s : State} {lines : List (List Byte)} :
    Keep 71987225293750271 s (State.say s lines) := by
  unfold State.say; try dsimp only
  repeat' first
    | with_reducible exact Keep.rfl'
    | with_reducible assumption
    | (with_reducible apply Keep.step State.consoleOut_keep; decide)
    | with_reducible refine Keep.foldl ?_ (fun _ _ => ?_)
    | with_reducible refine Keep.foldlFst ?_ (fun _ _ => ?_)
    | with_reducible refine Keep.foldlSnd ?_ (fun _ _ => ?_)
    | split
    | dsimp only

end Sys2Proof.Machine
end

