-- ==== Sys2Proof/Laws/KeepService.lean ====
section
/-! SUPPORT. What the operations of Machine/Service.lean may change: one lemma each. -/

namespace Sys2Proof.Machine

theorem State.testBegins_keep {s : State} {x : Seat} :
    Keep 70896277839158895 s (State.testBegins s x) := by
  unfold State.testBegins; try dsimp only
  repeat' first
    | with_reducible exact Keep.rfl'
    | with_reducible assumption
    | (with_reducible apply Keep.step State.goDown_keep; decide)
    | (with_reducible apply Keep.step State.linkDone_keep; decide)
    | (with_reducible apply Keep.step State.removePower_keep; decide)
    | split
    | dsimp only

theorem State.testEnds_keep {s : State} {x : Seat} :
    Keep 72022203507400703 s (State.testEnds s x) := by
  unfold State.testEnds; try dsimp only
  repeat' first
    | with_reducible exact Keep.rfl'
    | with_reducible assumption
    | (with_reducible apply Keep.step State.powerAllowed_keep; decide)
    | (with_reducible apply Keep.step State.putPower_keep; decide)
    | with_reducible apply Keep.ite
    | split
    | dsimp only

theorem State.contEnd_keep {s : State} :
    Keep 71951834763223039 s (State.contEnd s) := by
  unfold State.contEnd; try dsimp only
  repeat' first
    | with_reducible exact Keep.rfl'
    | with_reducible assumption
    | (with_reducible apply Keep.step State.testEnds_keep; decide)
    | with_reducible apply Keep.setSvc
    | exact fun k => absurd k (by decide)
    | with_reducible exact fun _ => rfl
    | with_reducible rfl
    | decide
    | split
    | dsimp only

theorem State.contMeasure_keep {s : State} {mV : Int} :
    Keep 71951834763223039 s (State.contMeasure s mV) := by
  unfold State.contMeasure; try dsimp only
  repeat' first
    | with_reducible exact Keep.rfl'
    | with_reducible assumption
    | (with_reducible apply Keep.step State.consoleOut_keep; decide)
    | (with_reducible apply Keep.step State.contEnd_keep; decide)
    | with_reducible apply Keep.setSvc
    | exact fun k => absurd k (by decide)
    | with_reducible exact fun _ => rfl
    | with_reducible rfl
    | decide
    | with_reducible apply Keep.ite
    | split
    | dsimp only

theorem execContinuityMeasure_keep {mV : Int} {ut : Nat} {s : State} :
    KeepX 31419438116886526 s (execContinuityMeasure mV ut s) := by
  unfold execContinuityMeasure; try dsimp only
  repeat' first
    | with_reducible exact Keep.rfl'
    | with_reducible assumption
    | (with_reducible apply Keep.step State.arrive_keep; decide)
    | (with_reducible apply Keep.step State.contMeasure_keep; decide)
    | with_reducible refine KeepX.next ?_
    | split
    | dsimp only

theorem State.tdrEnd_keep {s : State} :
    Keep 71951834763223039 s (State.tdrEnd s) := by
  unfold State.tdrEnd; try dsimp only
  repeat' first
    | with_reducible exact Keep.rfl'
    | with_reducible assumption
    | (with_reducible apply Keep.step State.testEnds_keep; decide)
    | with_reducible apply Keep.setSvc
    | exact fun k => absurd k (by decide)
    | with_reducible exact fun _ => rfl
    | with_reducible rfl
    | decide
    | split
    | dsimp only

theorem State.contBegin_keep {s : State} {x : Seat} {p : Fin 4} {blink : Bool} :
    Keep 70825909094981231 s (State.contBegin s x p blink) := by
  unfold State.contBegin; try dsimp only
  repeat' first
    | with_reducible exact Keep.rfl'
    | with_reducible assumption
    | (with_reducible apply Keep.step State.contEnd_keep; decide)
    | (with_reducible apply Keep.step State.tdrEnd_keep; decide)
    | (with_reducible apply Keep.step State.testBegins_keep; decide)
    | with_reducible apply Keep.setSvc
    | exact fun k => absurd k (by decide)
    | with_reducible exact fun _ => rfl
    | with_reducible rfl
    | decide
    | with_reducible apply Keep.ite
    | split
    | dsimp only

theorem execContinuityTimeout_keep {ut : Nat} {s : State} :
    KeepX 31419438116886526 s (execContinuityTimeout ut s) := by
  unfold execContinuityTimeout; try dsimp only
  repeat' first
    | with_reducible exact Keep.rfl'
    | with_reducible assumption
    | (with_reducible apply Keep.step State.arrive_keep; decide)
    | (with_reducible apply Keep.step State.contEnd_keep; decide)
    | with_reducible refine KeepX.next ?_
    | with_reducible apply Keep.ite
    | split
    | dsimp only

theorem State.tdrBegin_keep {s : State} {x : Seat} {p : Option ConsPort} :
    Keep 70825909094981231 s (State.tdrBegin s x p) := by
  unfold State.tdrBegin; try dsimp only
  repeat' first
    | with_reducible exact Keep.rfl'
    | with_reducible assumption
    | (with_reducible apply Keep.step State.tdrEnd_keep; decide)
    | (with_reducible apply Keep.step State.testBegins_keep; decide)
    | with_reducible apply Keep.setSvc
    | exact fun k => absurd k (by decide)
    | with_reducible exact fun _ => rfl
    | with_reducible rfl
    | decide
    | split
    | dsimp only

theorem State.cableDone_keep {s : State} {pairs : List (Fin 4 × CableResult)} :
    Keep 71951834763223039 s (State.cableDone s pairs) := by
  unfold State.cableDone; try dsimp only
  repeat' first
    | with_reducible exact Keep.rfl'
    | with_reducible assumption
    | (with_reducible apply Keep.step State.prompt_keep; decide)
    | (with_reducible apply Keep.step State.say_keep; decide)
    | (with_reducible apply Keep.step State.setSeatPower_keep; decide)
    | (with_reducible apply Keep.step State.tdrEnd_keep; decide)
    | with_reducible apply Keep.setSvc
    | exact fun k => absurd k (by decide)
    | with_reducible exact fun _ => rfl
    | with_reducible rfl
    | decide
    | with_reducible apply Keep.ite
    | split
    | dsimp only

theorem execCableTestDone_keep {pairs : List (Fin 4 × CableResult)} {s : State} :
    KeepX 71951834763223039 s (execCableTestDone pairs s) := by
  unfold execCableTestDone; try dsimp only
  repeat' first
    | with_reducible exact Keep.rfl'
    | with_reducible assumption
    | (with_reducible apply Keep.step State.cableDone_keep; decide)
    | with_reducible refine KeepX.next ?_
    | split
    | dsimp only

theorem execMeasUpdate_keep {ut : Nat} {s : State} :
    KeepX 31419506836363262 s (execMeasUpdate ut s) := by
  unfold execMeasUpdate; try dsimp only
  repeat' first
    | with_reducible exact Keep.rfl'
    | with_reducible assumption
    | (with_reducible apply Keep.step State.arrive_keep; decide)
    | with_reducible apply Keep.setSvc
    | exact fun k => absurd k (by decide)
    | with_reducible exact fun _ => rfl
    | with_reducible rfl
    | decide
    | with_reducible refine KeepX.next ?_
    | with_reducible apply Keep.ite
    | split
    | dsimp only

theorem State.linksDown_keep {s : State} {l : List Seat} :
    Keep 70896346558635631 s (State.linksDown s l) := by
  unfold State.linksDown; try dsimp only
  repeat' first
    | with_reducible exact Keep.rfl'
    | with_reducible assumption
    | (with_reducible apply Keep.step State.goDown_keep; decide)
    | (with_reducible apply Keep.step State.linkDone_keep; decide)
    | with_reducible refine Keep.foldl ?_ (fun _ _ => ?_)
    | with_reducible refine Keep.foldlFst ?_ (fun _ _ => ?_)
    | with_reducible refine Keep.foldlSnd ?_ (fun _ _ => ?_)
    | split
    | dsimp only

theorem State.selfTestBegins_keep {s : State} {n : Nat} {p : Option ConsPort} :
    Keep 70825977814457967 s (State.selfTestBegins s n p) := by
  unfold State.selfTestBegins; try dsimp only
  repeat' first
    | with_reducible exact Keep.rfl'
    | with_reducible assumption
    | (with_reducible apply Keep.step State.linksDown_keep; decide)
    | with_reducible apply Keep.setSvc
    | exact fun k => absurd k (by decide)
    | with_reducible exact fun _ => rfl
    | with_reducible rfl
    | decide
    | with_reducible apply Keep.ite
    | split
    | dsimp only

theorem State.selfTestEnds_keep {s : State} {pass : Bool} {item : Nat} :
    Keep 71987225293750271 s (State.selfTestEnds s pass item) := by
  unfold State.selfTestEnds; try dsimp only
  repeat' first
    | with_reducible exact Keep.rfl'
    | with_reducible assumption
    | (with_reducible apply Keep.step State.consoleOut_keep; decide)
    | (with_reducible apply Keep.step State.logLine_keep; decide)
    | (with_reducible apply Keep.step State.prompt_keep; decide)
    | with_reducible apply Keep.setSvc
    | exact fun k => absurd k (by decide)
    | with_reducible exact fun _ => rfl
    | with_reducible rfl
    | decide
    | with_reducible apply Keep.ite
    | split
    | dsimp only

theorem execSelfTestDone_keep {pass : Bool} {item : Nat} {s : State} :
    KeepX 71987225293750271 s (execSelfTestDone pass item s) := by
  unfold execSelfTestDone; try dsimp only
  repeat' first
    | with_reducible exact Keep.rfl'
    | with_reducible assumption
    | (with_reducible apply Keep.step State.selfTestEnds_keep; decide)
    | with_reducible refine KeepX.next ?_
    | split
    | dsimp only

theorem State.serviceBegin_keep {s : State} :
    Keep 70261541793955839 s (State.serviceBegin s) := by
  unfold State.serviceBegin; try dsimp only
  repeat' first
    | with_reducible exact Keep.rfl'
    | with_reducible assumption
    | (with_reducible apply Keep.step State.enterMode_keep; decide)
    | with_reducible apply Keep.setMode
    | exact fun k => absurd k (by decide)
    | with_reducible exact fun _ => rfl
    | with_reducible rfl
    | decide
    | with_reducible apply Keep.ite
    | split
    | dsimp only

theorem State.serviceStop_keep {s : State} :
    Keep 70261541793955839 s (State.serviceStop s) := by
  unfold State.serviceStop; try dsimp only
  repeat' first
    | with_reducible exact Keep.rfl'
    | with_reducible assumption
    | (with_reducible apply Keep.step State.enterMode_keep; decide)
    | with_reducible apply Keep.ite
    | split
    | dsimp only

theorem State.restartSups_keep {s : State} :
    Keep 72053195991416831 s (State.restartSups s) := by
  unfold State.restartSups; try dsimp only
  repeat' first
    | with_reducible exact Keep.rfl'
    | with_reducible assumption
    | (with_reducible apply Keep.step State.setCore_keep; decide)
    | with_reducible refine Keep.foldl ?_ (fun _ _ => ?_)
    | with_reducible refine Keep.foldlFst ?_ (fun _ _ => ?_)
    | with_reducible refine Keep.foldlSnd ?_ (fun _ _ => ?_)
    | with_reducible apply Keep.ite
    | with_reducible apply Keep.iteFst
    | with_reducible apply Keep.iteSnd
    | split
    | dsimp only

theorem State.freeReadings_keep {s : State} {a0 : Nat} :
    Keep 71916856549572607 s (State.freeReadings s a0).2 := by
  induction a0 generalizing s with
  | zero => unfold State.freeReadings; exact Keep.rfl'
  | succ n ih =>
    unfold State.freeReadings; try dsimp only
    repeat' first
      | with_reducible exact Keep.rfl'
      | with_reducible assumption
      | (with_reducible apply Keep.step State.draw_keep; decide)
      | with_reducible refine Keep.step (State.draw_keepE (by assumption)) (by decide) ?_
      | (with_reducible apply Keep.step ih; decide)
      | split
      | dsimp only
theorem State.freeReadings_keepE {s : State} {a0 : Nat} {rE tE} (hE : (State.freeReadings s a0) = (rE, tE)) : Keep 71916856549572607 s tE := by
  have k := @State.freeReadings_keep s a0; rw [hE] at k; exact k

theorem State.consoleCarry_keep {s : State} {p : ConsPort} {c : ConsCmd} {rails : Option (List Nat)} :
    Keep 45317471250415616 s (State.consoleCarry s p c rails) := by
  unfold State.consoleCarry; try dsimp only
  repeat' first
    | with_reducible exact Keep.rfl'
    | with_reducible assumption
    | (with_reducible apply Keep.step State.coldRequest_keep; decide)
    | (with_reducible apply Keep.step State.consoleOut_keep; decide)
    | (with_reducible apply Keep.step State.contBegin_keep; decide)
    | (with_reducible apply Keep.step State.contEnd_keep; decide)
    | (with_reducible apply Keep.step State.cyclePort_keep; decide)
    | (with_reducible apply Keep.step State.freeReadings_keep; decide)
    | with_reducible refine Keep.step (State.freeReadings_keepE (by assumption)) (by decide) ?_
    | (with_reducible apply Keep.step State.prompt_keep; decide)
    | (with_reducible apply Keep.step State.restartSups_keep; decide)
    | (with_reducible apply Keep.step State.safeStop_keep; decide)
    | (with_reducible apply Keep.step State.say_keep; decide)
    | (with_reducible apply Keep.step State.selfTestBegins_keep; decide)
    | (with_reducible apply Keep.step State.serviceBegin_keep; decide)
    | (with_reducible apply Keep.step State.serviceStop_keep; decide)
    | (with_reducible apply Keep.step State.tdrBegin_keep; decide)
    | (with_reducible apply Keep.step State.warmBegin_keep; decide)
    | with_reducible apply Keep.setSvc
    | exact fun k => absurd k (by decide)
    | with_reducible exact fun _ => rfl
    | with_reducible rfl
    | decide
    | with_reducible refine Keep.getD ?_ ?_
    | split
    | dsimp only

theorem State.consoleReply_keep {s : State} {r : List Byte} :
    Keep 71987225293750271 s (State.consoleReply s r) := by
  unfold State.consoleReply; try dsimp only
  repeat' first
    | with_reducible exact Keep.rfl'
    | with_reducible assumption
    | (with_reducible apply Keep.step State.consoleOut_keep; decide)
    | (with_reducible apply Keep.step State.prompt_keep; decide)
    | split
    | dsimp only

theorem State.refereeLine_keep {s : State} {p : ConsPort} {c : ConsCmd} :
    Keep 45458208738770944 s (State.refereeLine s p c) := by
  unfold State.refereeLine; try dsimp only
  repeat' first
    | with_reducible exact Keep.rfl'
    | with_reducible assumption
    | (with_reducible apply Keep.step State.coldRequest_keep; decide)
    | (with_reducible apply Keep.step State.logLine_keep; decide)
    | (with_reducible apply Keep.step State.restartSups_keep; decide)
    | with_reducible apply Keep.ite
    | split
    | dsimp only

theorem State.consoleCmd_keep {s : State} {p : ConsPort} {c : ConsCmd} {rails : Option (List Nat)} :
    Keep 45317471250415616 s (State.consoleCmd s p c rails) := by
  unfold State.consoleCmd; try dsimp only
  repeat' first
    | with_reducible exact Keep.rfl'
    | with_reducible assumption
    | (with_reducible apply Keep.step State.consoleCarry_keep; decide)
    | (with_reducible apply Keep.step State.consoleOut_keep; decide)
    | (with_reducible apply Keep.step State.consoleReply_keep; decide)
    | (with_reducible apply Keep.step State.logLine_keep; decide)
    | (with_reducible apply Keep.step State.refereeLine_keep; decide)
    | with_reducible apply Keep.setSvc
    | exact fun k => absurd k (by decide)
    | with_reducible exact fun _ => rfl
    | with_reducible rfl
    | decide
    | with_reducible apply Keep.ite
    | split
    | dsimp only

theorem State.consoleCancel_keep {s : State} :
    Keep 71987225293750271 s (State.consoleCancel s) := by
  unfold State.consoleCancel; try dsimp only
  repeat' first
    | with_reducible exact Keep.rfl'
    | with_reducible assumption
    | (with_reducible apply Keep.step State.consoleReply_keep; decide)
    | with_reducible apply Keep.setSvc
    | exact fun k => absurd k (by decide)
    | with_reducible exact fun _ => rfl
    | with_reducible rfl
    | decide
    | split
    | dsimp only

theorem State.consoleEnter_keepH {K : Nat} {s x : State} {p : ConsPort} {yes : Bool} {run : State → State}
    (hx : Keep K s x) (e : K &&& 45317471250415616 = K) (hf : ∀ y, Keep K s y → Keep K s (run y)) :
    Keep K s (State.consoleEnter x p yes run) := by
  have w {L : Nat} (g : 45317471250415616 &&& L = 45317471250415616) : K &&& L = K := by rw [← e, Nat.and_assoc, g]
  unfold State.consoleEnter; dsimp only
  refine Keep.ite hx ?_
  have h1 : Keep K s (x.setMode { x.mode with lastInput := x.now }) := by
    refine hx.trans (Keep.weaken e ?_)
    with_reducible apply Keep.setMode
    · exact Keep.rfl'
    all_goals first
      | exact fun k => absurd k (by decide)
      | exact fun _ => rfl
  split
  · exact hf _ h1
  · refine Keep.ite (hf _ h1) ?_
    refine Keep.ite ?_ (hf _ (Keep.step State.consoleCancel_keep (w (by decide)) h1))
    refine Keep.ite ?_ (Keep.step State.consoleCancel_keep (w (by decide)) h1)
    have h2 := h1.trans (Keep.weaken e (Keep.setSvc (K := 45317471250415616) (v := { x.svc with confirm := none }) Keep.rfl' (by decide)))
    split
    · exact Keep.step State.consoleReply_keep (w (by decide)) h2
    · exact Keep.step State.consoleCarry_keep (w (by decide)) h2

theorem State.consoleRun_keep {s : State} {p : ConsPort} {c : ConsCmd} {rails : Option (List Nat)} :
    Keep 45317471250415616 s (State.consoleRun s p c rails) := by
  unfold State.consoleRun; try dsimp only
  repeat' first
    | with_reducible exact Keep.rfl'
    | with_reducible assumption
    | (with_reducible apply Keep.step State.consoleCmd_keep; decide)
    | with_reducible apply State.consoleEnter_keepH
    | decide
    | intro _
    | split
    | dsimp only

theorem State.consoleText_keep {s : State} {p : ConsPort} {line : List Byte} :
    Keep 45317471250415616 s (State.consoleText s p line) := by
  unfold State.consoleText; try dsimp only
  repeat' first
    | with_reducible exact Keep.rfl'
    | with_reducible assumption
    | (with_reducible apply Keep.step State.consoleCmd_keep; decide)
    | with_reducible apply State.consoleEnter_keepH
    | (with_reducible apply Keep.step State.consoleReply_keep; decide)
    | (with_reducible apply Keep.step State.prompt_keep; decide)
    | decide
    | intro _
    | with_reducible apply Keep.ite
    | split
    | dsimp only

theorem State.lineEnds_keep {s : State} {p : ConsPort} :
    Keep 45317471250415616 s (State.lineEnds s p) := by
  unfold State.lineEnds; try dsimp only
  repeat' first
    | with_reducible exact Keep.rfl'
    | with_reducible assumption
    | (with_reducible apply Keep.step State.consoleText_keep; decide)
    | with_reducible apply Keep.setSvc
    | exact fun k => absurd k (by decide)
    | with_reducible exact fun _ => rfl
    | with_reducible rfl
    | decide
    | split
    | dsimp only

theorem State.echo_keep {s : State} {p : ConsPort} {c : Byte} :
    Keep 71987225293750271 s (State.echo s p c) := by
  unfold State.echo; try dsimp only
  repeat' first
    | with_reducible exact Keep.rfl'
    | with_reducible assumption
    | with_reducible apply Keep.setSvc
    | exact fun k => absurd k (by decide)
    | with_reducible exact fun _ => rfl
    | with_reducible rfl
    | decide
    | split
    | dsimp only

theorem State.rxChar_keep {s : State} {p : ConsPort} {c : Byte} :
    Keep 45317471250415616 s (State.rxChar s p c) := by
  unfold State.rxChar; try dsimp only
  repeat' first
    | with_reducible exact Keep.rfl'
    | with_reducible assumption
    | (with_reducible apply Keep.step State.echo_keep; decide)
    | (with_reducible apply Keep.step State.lineEnds_keep; decide)
    | (with_reducible apply Keep.step State.privEdge_keep; decide)
    | with_reducible apply Keep.setMode
    | with_reducible apply Keep.setSvc
    | exact fun k => absurd k (by decide)
    | with_reducible exact fun _ => rfl
    | with_reducible rfl
    | decide
    | with_reducible apply Keep.ite
    | split
    | dsimp only

theorem execConsoleRxCharacter_keep {p : ConsPort} {ch : Byte} {s : State} :
    KeepX 45317471250415616 s (execConsoleRxCharacter p ch s) := by
  unfold execConsoleRxCharacter; try dsimp only
  repeat' first
    | with_reducible exact Keep.rfl'
    | with_reducible assumption
    | (with_reducible apply Keep.step State.rxChar_keep; decide)
    | with_reducible refine KeepX.next ?_
    | split
    | dsimp only

theorem execConsoleLine_keep {p : ConsPort} {s : State} :
    KeepX 45317471250415616 s (execConsoleLine p s) := by
  unfold execConsoleLine; try dsimp only
  repeat' first
    | with_reducible exact Keep.rfl'
    | with_reducible assumption
    | (with_reducible apply Keep.step State.lineEnds_keep; decide)
    | with_reducible refine KeepX.next ?_
    | with_reducible apply Keep.ite
    | split
    | dsimp only

theorem execHelp_keep {p : ConsPort} {s : State} :
    KeepX 45317471250415616 s (execHelp p s) := by
  unfold execHelp; try dsimp only
  repeat' first
    | with_reducible exact Keep.rfl'
    | with_reducible assumption
    | (with_reducible apply Keep.step State.consoleRun_keep; decide)
    | with_reducible refine KeepX.next ?_
    | split
    | dsimp only

theorem execStatus_keep {p : ConsPort} {s : State} :
    KeepX 45317471250415616 s (execStatus p s) := by
  unfold execStatus; try dsimp only
  repeat' first
    | with_reducible exact Keep.rfl'
    | with_reducible assumption
    | (with_reducible apply Keep.step State.consoleRun_keep; decide)
    | with_reducible refine KeepX.next ?_
    | split
    | dsimp only

theorem execSeatShow_keep {p : ConsPort} {x : Seat} {s : State} :
    KeepX 45317471250415616 s (execSeatShow p x s) := by
  unfold execSeatShow; try dsimp only
  repeat' first
    | with_reducible exact Keep.rfl'
    | with_reducible assumption
    | (with_reducible apply Keep.step State.consoleRun_keep; decide)
    | with_reducible refine KeepX.next ?_
    | split
    | dsimp only

theorem execSeatList_keep {p : ConsPort} {s : State} :
    KeepX 45317471250415616 s (execSeatList p s) := by
  unfold execSeatList; try dsimp only
  repeat' first
    | with_reducible exact Keep.rfl'
    | with_reducible assumption
    | (with_reducible apply Keep.step State.consoleRun_keep; decide)
    | with_reducible refine KeepX.next ?_
    | split
    | dsimp only

theorem execSeatCycle_keep {p : ConsPort} {x : Seat} {s : State} :
    KeepX 45317471250415616 s (execSeatCycle p x s) := by
  unfold execSeatCycle; try dsimp only
  repeat' first
    | with_reducible exact Keep.rfl'
    | with_reducible assumption
    | (with_reducible apply Keep.step State.consoleRun_keep; decide)
    | with_reducible refine KeepX.next ?_
    | split
    | dsimp only

theorem execSeatCont_keep {p : ConsPort} {x : Seat} {pair : Fin 4} {blink : Bool} {s : State} :
    KeepX 45317471250415616 s (execSeatCont p x pair blink s) := by
  unfold execSeatCont; try dsimp only
  repeat' first
    | with_reducible exact Keep.rfl'
    | with_reducible assumption
    | (with_reducible apply Keep.step State.consoleRun_keep; decide)
    | with_reducible refine KeepX.next ?_
    | split
    | dsimp only

theorem execSeatContRead_keep {p : ConsPort} {s : State} :
    KeepX 45317471250415616 s (execSeatContRead p s) := by
  unfold execSeatContRead; try dsimp only
  repeat' first
    | with_reducible exact Keep.rfl'
    | with_reducible assumption
    | (with_reducible apply Keep.step State.consoleRun_keep; decide)
    | with_reducible refine KeepX.next ?_
    | split
    | dsimp only

theorem execSeatContOff_keep {p : ConsPort} {s : State} :
    KeepX 45317471250415616 s (execSeatContOff p s) := by
  unfold execSeatContOff; try dsimp only
  repeat' first
    | with_reducible exact Keep.rfl'
    | with_reducible assumption
    | (with_reducible apply Keep.step State.consoleRun_keep; decide)
    | with_reducible refine KeepX.next ?_
    | split
    | dsimp only

theorem execSeatTdr_keep {p : ConsPort} {x : Seat} {s : State} :
    KeepX 45317471250415616 s (execSeatTdr p x s) := by
  unfold execSeatTdr; try dsimp only
  repeat' first
    | with_reducible exact Keep.rfl'
    | with_reducible assumption
    | (with_reducible apply Keep.step State.consoleRun_keep; decide)
    | with_reducible refine KeepX.next ?_
    | split
    | dsimp only

theorem execSupply_keep {p : ConsPort} {s : State} :
    KeepX 45317471250415616 s (execSupply p s) := by
  unfold execSupply; try dsimp only
  repeat' first
    | with_reducible exact Keep.rfl'
    | with_reducible assumption
    | (with_reducible apply Keep.step State.consoleRun_keep; decide)
    | with_reducible refine KeepX.next ?_
    | split
    | dsimp only

theorem execFans_keep {p : ConsPort} {s : State} :
    KeepX 45317471250415616 s (execFans p s) := by
  unfold execFans; try dsimp only
  repeat' first
    | with_reducible exact Keep.rfl'
    | with_reducible assumption
    | (with_reducible apply Keep.step State.consoleRun_keep; decide)
    | with_reducible refine KeepX.next ?_
    | split
    | dsimp only

theorem execLog_keep {p : ConsPort} {n : Option Nat} {s : State} :
    KeepX 45317471250415616 s (execLog p n s) := by
  unfold execLog; try dsimp only
  repeat' first
    | with_reducible exact Keep.rfl'
    | with_reducible assumption
    | (with_reducible apply Keep.step State.consoleRun_keep; decide)
    | with_reducible refine KeepX.next ?_
    | split
    | dsimp only

theorem execLogPrev_keep {p : ConsPort} {s : State} :
    KeepX 45317471250415616 s (execLogPrev p s) := by
  unfold execLogPrev; try dsimp only
  repeat' first
    | with_reducible exact Keep.rfl'
    | with_reducible assumption
    | (with_reducible apply Keep.step State.consoleRun_keep; decide)
    | with_reducible refine KeepX.next ?_
    | split
    | dsimp only

theorem execErrors_keep {p : ConsPort} {c : Option CoreId} {s : State} :
    KeepX 45317471250415616 s (execErrors p c s) := by
  unfold execErrors; try dsimp only
  repeat' first
    | with_reducible exact Keep.rfl'
    | with_reducible assumption
    | (with_reducible apply Keep.step State.consoleRun_keep; decide)
    | with_reducible refine KeepX.next ?_
    | split
    | dsimp only

theorem execTp_keep {p : ConsPort} {mV : List Nat} {s : State} :
    KeepX 45317471250415616 s (execTp p mV s) := by
  unfold execTp; try dsimp only
  repeat' first
    | with_reducible exact Keep.rfl'
    | with_reducible assumption
    | (with_reducible apply Keep.step State.consoleRun_keep; decide)
    | with_reducible refine KeepX.next ?_
    | split
    | dsimp only

theorem execMeas_keep {p : ConsPort} {code : Nat} {s : State} :
    KeepX 45317471250415616 s (execMeas p code s) := by
  unfold execMeas; try dsimp only
  repeat' first
    | with_reducible exact Keep.rfl'
    | with_reducible assumption
    | (with_reducible apply Keep.step State.consoleRun_keep; decide)
    | with_reducible refine KeepX.next ?_
    | split
    | dsimp only

theorem execTestList_keep {p : ConsPort} {s : State} :
    KeepX 45317471250415616 s (execTestList p s) := by
  unfold execTestList; try dsimp only
  repeat' first
    | with_reducible exact Keep.rfl'
    | with_reducible assumption
    | (with_reducible apply Keep.step State.consoleRun_keep; decide)
    | with_reducible refine KeepX.next ?_
    | split
    | dsimp only

theorem execTestRun_keep {p : ConsPort} {n : Nat} {s : State} :
    KeepX 45317471250415616 s (execTestRun p n s) := by
  unfold execTestRun; try dsimp only
  repeat' first
    | with_reducible exact Keep.rfl'
    | with_reducible assumption
    | (with_reducible apply Keep.step State.consoleRun_keep; decide)
    | with_reducible refine KeepX.next ?_
    | split
    | dsimp only

theorem execService_keep {p : ConsPort} {s : State} :
    KeepX 45317471250415616 s (execService p s) := by
  unfold execService; try dsimp only
  repeat' first
    | with_reducible exact Keep.rfl'
    | with_reducible assumption
    | (with_reducible apply Keep.step State.consoleRun_keep; decide)
    | with_reducible refine KeepX.next ?_
    | split
    | dsimp only

theorem execServiceEnd_keep {p : ConsPort} {s : State} :
    KeepX 45317471250415616 s (execServiceEnd p s) := by
  unfold execServiceEnd; try dsimp only
  repeat' first
    | with_reducible exact Keep.rfl'
    | with_reducible assumption
    | (with_reducible apply Keep.step State.consoleRun_keep; decide)
    | with_reducible refine KeepX.next ?_
    | split
    | dsimp only

theorem execConsoleWarm_keep {p : ConsPort} {s : State} :
    KeepX 45317471250415616 s (execConsoleWarm p s) := by
  unfold execConsoleWarm; try dsimp only
  repeat' first
    | with_reducible exact Keep.rfl'
    | with_reducible assumption
    | (with_reducible apply Keep.step State.consoleRun_keep; decide)
    | with_reducible refine KeepX.next ?_
    | split
    | dsimp only

theorem execConsoleCold_keep {p : ConsPort} {slot : Option (Fin 2)} {s : State} :
    KeepX 45317471250415616 s (execConsoleCold p slot s) := by
  unfold execConsoleCold; try dsimp only
  repeat' first
    | with_reducible exact Keep.rfl'
    | with_reducible assumption
    | (with_reducible apply Keep.step State.consoleRun_keep; decide)
    | with_reducible refine KeepX.next ?_
    | split
    | dsimp only

theorem execConsoleRestart_keep {p : ConsPort} {s : State} :
    KeepX 45317471250415616 s (execConsoleRestart p s) := by
  unfold execConsoleRestart; try dsimp only
  repeat' first
    | with_reducible exact Keep.rfl'
    | with_reducible assumption
    | (with_reducible apply Keep.step State.consoleRun_keep; decide)
    | with_reducible refine KeepX.next ?_
    | split
    | dsimp only

theorem execConsoleStop_keep {p : ConsPort} {s : State} :
    KeepX 45317471250415616 s (execConsoleStop p s) := by
  unfold execConsoleStop; try dsimp only
  repeat' first
    | with_reducible exact Keep.rfl'
    | with_reducible assumption
    | (with_reducible apply Keep.step State.consoleRun_keep; decide)
    | with_reducible refine KeepX.next ?_
    | split
    | dsimp only

theorem execConfirmReply_keep {p : ConsPort} {line : List Byte} {s : State} :
    KeepX 45317471250415616 s (execConfirmReply p line s) := by
  unfold execConfirmReply; try dsimp only
  repeat' first
    | with_reducible exact Keep.rfl'
    | with_reducible assumption
    | (with_reducible apply Keep.step State.consoleText_keep; decide)
    | with_reducible refine KeepX.next ?_
    | split
    | dsimp only

theorem execConfirmTimeout_keep {ut : Nat} {s : State} :
    KeepX 31419506836363262 s (execConfirmTimeout ut s) := by
  unfold execConfirmTimeout; try dsimp only
  repeat' first
    | with_reducible exact Keep.rfl'
    | with_reducible assumption
    | (with_reducible apply Keep.step State.arrive_keep; decide)
    | (with_reducible apply Keep.step State.consoleCancel_keep; decide)
    | with_reducible refine KeepX.next ?_
    | with_reducible apply Keep.ite
    | split
    | dsimp only

theorem execUnsupervisedNotice_keep {ut : Nat} {s : State} :
    KeepX 31419506836363262 s (execUnsupervisedNotice ut s) := by
  unfold execUnsupervisedNotice; try dsimp only
  repeat' first
    | with_reducible exact Keep.rfl'
    | with_reducible assumption
    | (with_reducible apply Keep.step State.arrive_keep; decide)
    | (with_reducible apply Keep.step State.consoleOut_keep; decide)
    | with_reducible apply Keep.setSvc
    | exact fun k => absurd k (by decide)
    | with_reducible exact fun _ => rfl
    | with_reducible rfl
    | decide
    | with_reducible refine KeepX.next ?_
    | with_reducible apply Keep.ite
    | split
    | dsimp only

theorem State.setPanel_keep {s : State} {v : Panel} :
    Keep 71987225293750271 s (State.setPanel s v) := by
  unfold State.setPanel; try dsimp only
  repeat' first
    | with_reducible exact Keep.rfl'
    | with_reducible assumption
    | with_reducible apply Keep.setSvc
    | exact fun k => absurd k (by decide)
    | with_reducible exact fun _ => rfl
    | with_reducible rfl
    | decide
    | split
    | dsimp only

theorem execSelectTap_keep {ut : Nat} {s : State} :
    KeepX 31419506836363262 s (execSelectTap ut s) := by
  unfold execSelectTap; try dsimp only
  repeat' first
    | with_reducible exact Keep.rfl'
    | with_reducible assumption
    | (with_reducible apply Keep.step State.arrive_keep; decide)
    | (with_reducible apply Keep.step State.setPanel_keep; decide)
    | with_reducible refine KeepX.next ?_
    | with_reducible apply Keep.ite
    | split
    | dsimp only

theorem State.panelNo_keep {s : State} :
    Keep 71987225293750271 s (State.panelNo s) := by
  unfold State.panelNo; try dsimp only
  repeat' first
    | with_reducible exact Keep.rfl'
    | with_reducible assumption
    | (with_reducible apply Keep.step State.setPanel_keep; decide)
    | split
    | dsimp only

theorem State.seatDigits_keep {s : State} :
    Keep 71846487805394943 s (State.seatDigits s) := by
  unfold State.seatDigits; try dsimp only
  repeat' first
    | with_reducible exact Keep.rfl'
    | with_reducible assumption
    | (with_reducible apply Keep.step State.draw_keep; decide)
    | with_reducible refine Keep.step (State.draw_keepE (by assumption)) (by decide) ?_
    | (with_reducible apply Keep.step State.setPanel_keep; decide)
    | with_reducible apply Keep.setSvc
    | exact fun k => absurd k (by decide)
    | with_reducible exact fun _ => rfl
    | with_reducible rfl
    | decide
    | with_reducible apply Keep.ite
    | split
    | dsimp only

theorem State.panelHold_keep {s : State} :
    Keep 45317471250415616 s (State.panelHold s) := by
  unfold State.panelHold; try dsimp only
  repeat' first
    | with_reducible exact Keep.rfl'
    | with_reducible assumption
    | (with_reducible apply Keep.step State.coldRequest_keep; decide)
    | (with_reducible apply Keep.step State.contBegin_keep; decide)
    | (with_reducible apply Keep.step State.contEnd_keep; decide)
    | (with_reducible apply Keep.step State.panelNo_keep; decide)
    | (with_reducible apply Keep.step State.seatDigits_keep; decide)
    | (with_reducible apply Keep.step State.selfTestBegins_keep; decide)
    | (with_reducible apply Keep.step State.serviceBegin_keep; decide)
    | (with_reducible apply Keep.step State.setPanel_keep; decide)
    | (with_reducible apply Keep.step State.tdrBegin_keep; decide)
    | with_reducible apply Keep.setSvc
    | exact fun k => absurd k (by decide)
    | with_reducible exact fun _ => rfl
    | with_reducible rfl
    | decide
    | with_reducible apply Keep.ite
    | split
    | dsimp only

theorem State.startHold_keep {s : State} :
    Keep 70261541793955839 s (State.startHold s) := by
  unfold State.startHold; try dsimp only
  repeat' first
    | with_reducible exact Keep.rfl'
    | with_reducible assumption
    | (with_reducible apply Keep.step State.serviceBegin_keep; decide)
    | with_reducible apply Keep.ite
    | split
    | dsimp only

theorem execSelectHold_keep {ut : Nat} {s : State} :
    KeepX 9288674231451648 s (execSelectHold ut s) := by
  unfold execSelectHold; try dsimp only
  repeat' first
    | with_reducible exact Keep.rfl'
    | with_reducible assumption
    | (with_reducible apply Keep.step State.arrive_keep; decide)
    | (with_reducible apply Keep.step State.panelHold_keep; decide)
    | (with_reducible apply Keep.step State.setPanel_keep; decide)
    | (with_reducible apply Keep.step State.startHold_keep; decide)
    | with_reducible refine KeepX.next ?_
    | with_reducible apply Keep.ite
    | split
    | dsimp only

theorem execSelectLongHold_keep {ut : Nat} {s : State} :
    KeepX 29729007708657662 s (execSelectLongHold ut s) := by
  unfold execSelectLongHold; try dsimp only
  repeat' first
    | with_reducible exact Keep.rfl'
    | with_reducible assumption
    | (with_reducible apply Keep.step State.arrive_keep; decide)
    | (with_reducible apply Keep.step State.serviceStop_keep; decide)
    | (with_reducible apply Keep.step State.setPanel_keep; decide)
    | (with_reducible apply Keep.step State.startHold_keep; decide)
    | with_reducible refine KeepX.next ?_
    | with_reducible apply Keep.ite
    | split
    | dsimp only

theorem execPanelIdle_keep {ut : Nat} {s : State} :
    KeepX 31419506836363262 s (execPanelIdle ut s) := by
  unfold execPanelIdle; try dsimp only
  repeat' first
    | with_reducible exact Keep.rfl'
    | with_reducible assumption
    | (with_reducible apply Keep.step State.arrive_keep; decide)
    | (with_reducible apply Keep.step State.setPanel_keep; decide)
    | with_reducible refine KeepX.next ?_
    | with_reducible apply Keep.ite
    | split
    | dsimp only

theorem State.setUsbDev_keep {s : State} {v : SvcUsb} :
    Keep 71987225293750271 s (State.setUsbDev s v) := by
  unfold State.setUsbDev; try dsimp only
  repeat' first
    | with_reducible exact Keep.rfl'
    | with_reducible assumption
    | with_reducible apply Keep.setSvc
    | exact fun k => absurd k (by decide)
    | with_reducible exact fun _ => rfl
    | with_reducible rfl
    | decide
    | split
    | dsimp only

theorem State.attachUsb_keep {s : State} :
    Keep 71987225293750271 s (State.attachUsb s) := by
  unfold State.attachUsb; try dsimp only
  repeat' first
    | with_reducible exact Keep.rfl'
    | with_reducible assumption
    | (with_reducible apply Keep.step State.setUsbDev_keep; decide)
    | with_reducible apply Keep.ite
    | split
    | dsimp only

theorem execVbusPresent_keep {s : State} :
    KeepX 71987225293750271 s (execVbusPresent s) := by
  unfold execVbusPresent; try dsimp only
  repeat' first
    | with_reducible exact Keep.rfl'
    | with_reducible assumption
    | (with_reducible apply Keep.step State.attachUsb_keep; decide)
    | with_reducible refine KeepX.next ?_
    | split
    | dsimp only

theorem execVbusLost_keep {s : State} :
    KeepX 71987225293750271 s (execVbusLost s) := by
  unfold execVbusLost; try dsimp only
  repeat' first
    | with_reducible exact Keep.rfl'
    | with_reducible assumption
    | (with_reducible apply Keep.step State.setUsbDev_keep; decide)
    | with_reducible refine KeepX.next ?_
    | split
    | dsimp only

theorem execUsbBusReset_keep {s : State} :
    KeepX 71987225293750271 s (execUsbBusReset s) := by
  unfold execUsbBusReset; try dsimp only
  repeat' first
    | with_reducible exact Keep.rfl'
    | with_reducible assumption
    | (with_reducible apply Keep.step State.setUsbDev_keep; decide)
    | with_reducible refine KeepX.next ?_
    | with_reducible apply Keep.ite
    | split
    | dsimp only

theorem execUsbSuspend_keep {s : State} :
    KeepX 71987225293750271 s (execUsbSuspend s) := by
  unfold execUsbSuspend; try dsimp only
  repeat' first
    | with_reducible exact Keep.rfl'
    | with_reducible assumption
    | (with_reducible apply Keep.step State.setUsbDev_keep; decide)
    | with_reducible refine KeepX.next ?_
    | with_reducible apply Keep.ite
    | split
    | dsimp only

theorem execUsbResume_keep {s : State} :
    KeepX 71987225293750271 s (execUsbResume s) := by
  unfold execUsbResume; try dsimp only
  repeat' first
    | with_reducible exact Keep.rfl'
    | with_reducible assumption
    | (with_reducible apply Keep.step State.setUsbDev_keep; decide)
    | with_reducible refine KeepX.next ?_
    | with_reducible apply Keep.ite
    | split
    | dsimp only

theorem State.classRequest_keep {s : State} {f : SvcUsb → SvcUsb} :
    Keep 71987225293750271 s (State.classRequest s f) := by
  unfold State.classRequest; try dsimp only
  repeat' first
    | with_reducible exact Keep.rfl'
    | with_reducible assumption
    | (with_reducible apply Keep.step State.setUsbDev_keep; decide)
    | with_reducible apply Keep.ite
    | split
    | dsimp only

theorem execSetLineCoding_keep {coding : List Byte} {completed : Bool} {s : State} :
    KeepX 71987225293750271 s (execSetLineCoding coding completed s) := by
  unfold execSetLineCoding; try dsimp only
  repeat' first
    | with_reducible exact Keep.rfl'
    | with_reducible assumption
    | (with_reducible apply Keep.step State.classRequest_keep; decide)
    | with_reducible refine KeepX.next ?_
    | with_reducible apply Keep.ite
    | split
    | dsimp only

theorem execGetLineCoding_keep {s : State} :
    KeepX 71987225293750271 s (execGetLineCoding s) := by
  unfold execGetLineCoding; try dsimp only
  repeat' first
    | with_reducible exact Keep.rfl'
    | with_reducible assumption
    | (with_reducible apply Keep.step State.classRequest_keep; decide)
    | with_reducible refine Keep.getD ?_ ?_
    | with_reducible refine KeepX.next ?_
    | split
    | dsimp only

theorem execSetControlLineState_keep {dtr : Bool} {s : State} :
    KeepX 71987225293750271 s (execSetControlLineState dtr s) := by
  unfold execSetControlLineState; try dsimp only
  repeat' first
    | with_reducible exact Keep.rfl'
    | with_reducible assumption
    | (with_reducible apply Keep.step State.classRequest_keep; decide)
    | with_reducible refine KeepX.next ?_
    | split
    | dsimp only

theorem execClassRequestStall_keep {_request : Byte} {s : State} :
    KeepX 71987225293750271 s (execClassRequestStall _request s) := by
  unfold execClassRequestStall; try dsimp only
  repeat' first
    | with_reducible exact Keep.rfl'
    | with_reducible assumption
    | (with_reducible apply Keep.step State.classRequest_keep; decide)
    | with_reducible refine KeepX.next ?_
    | split
    | dsimp only

theorem execBulkOutReceive_keep {bytes : List Byte} {s : State} :
    KeepX 45317471250415616 s (execBulkOutReceive bytes s) := by
  unfold execBulkOutReceive; try dsimp only
  repeat' first
    | with_reducible exact Keep.rfl'
    | with_reducible assumption
    | (with_reducible apply Keep.step State.rxChar_keep; decide)
    | (with_reducible apply Keep.step State.setUsbDev_keep; decide)
    | with_reducible refine Keep.foldl ?_ (fun _ _ => ?_)
    | with_reducible refine Keep.foldlFst ?_ (fun _ _ => ?_)
    | with_reducible refine Keep.foldlSnd ?_ (fun _ _ => ?_)
    | with_reducible refine KeepX.next ?_
    | with_reducible apply Keep.ite
    | with_reducible apply Keep.iteFst
    | with_reducible apply Keep.iteSnd
    | split
    | dsimp only

theorem execBulkInToken_keep {s : State} :
    KeepX 71987225293750271 s (execBulkInToken s) := by
  unfold execBulkInToken; try dsimp only
  repeat' first
    | with_reducible exact Keep.rfl'
    | with_reducible assumption
    | with_reducible apply Keep.setSvc
    | exact fun k => absurd k (by decide)
    | with_reducible exact fun _ => rfl
    | with_reducible rfl
    | decide
    | with_reducible refine KeepX.next ?_
    | with_reducible apply Keep.ite
    | split
    | dsimp only

end Sys2Proof.Machine
end

