-- ==== Sys2Proof/Laws/KeepCommands.lean ====
section
/-! SUPPORT. What the operations of Machine/Commands.lean may change: one lemma each. -/

namespace Sys2Proof.Machine

theorem State.setKeys_keep {s : State} {k : List (W64 × List Byte)} :
    Keep 72057594029539319 s (State.setKeys s k) := by
  unfold State.setKeys; try dsimp only
  repeat' first
    | with_reducible exact Keep.rfl'
    | with_reducible assumption
    | (with_reducible apply Keep.step State.storeUpdate_keep; decide)
    | with_reducible apply Keep.setLink
    | exact fun k => absurd k (by decide)
    | with_reducible exact fun _ => rfl
    | with_reducible rfl
    | decide
    | split
    | dsimp only

theorem State.renewDocks_keep {s : State} {id : W64} {st : LinkState} {st' : LinkState} :
    Keep 71881530975182463 s (State.renewDocks s id st st') := by
  unfold State.renewDocks; try dsimp only
  repeat' first
    | with_reducible exact Keep.rfl'
    | with_reducible assumption
    | (with_reducible apply Keep.step State.linkDone_keep; decide)
    | (with_reducible apply Keep.step State.renewExchange_keep; decide)
    | with_reducible refine Keep.foldl ?_ (fun _ _ => ?_)
    | with_reducible refine Keep.foldlFst ?_ (fun _ _ => ?_)
    | with_reducible refine Keep.foldlSnd ?_ (fun _ _ => ?_)
    | with_reducible apply Keep.ite
    | with_reducible apply Keep.iteFst
    | with_reducible apply Keep.iteSnd
    | split
    | dsimp only

theorem State.keyRun_keep {s : State} {p : PortId} :
    Keep 70118464071655027 s (State.keyRun s p) := by
  unfold State.keyRun; try dsimp only
  repeat' first
    | with_reducible exact Keep.rfl'
    | with_reducible assumption
    | (with_reducible apply Keep.step State.endCmd_keep; decide)
    | (with_reducible apply Keep.step State.needRead_keep; decide)
    | (with_reducible apply Keep.step State.renewDocks_keep; decide)
    | (with_reducible apply Keep.step State.safeStop_keep; decide)
    | (with_reducible apply Keep.step State.setKeys_keep; decide)
    | with_reducible refine Keep.foldl ?_ (fun _ _ => ?_)
    | with_reducible refine Keep.foldlFst ?_ (fun _ _ => ?_)
    | with_reducible refine Keep.foldlSnd ?_ (fun _ _ => ?_)
    | with_reducible apply Keep.ite
    | with_reducible apply Keep.iteFst
    | with_reducible apply Keep.iteSnd
    | split
    | dsimp only

theorem State.keyRead_keep {s : State} {p : PortId} {data : Option (List Byte)} :
    Keep 70192681106529907 s (State.keyRead s p data) := by
  unfold State.keyRead; try dsimp only
  repeat' first
    | with_reducible exact Keep.rfl'
    | with_reducible assumption
    | (with_reducible apply Keep.step State.endCmd_keep; decide)
    | (with_reducible apply Keep.step State.renewDocks_keep; decide)
    | (with_reducible apply Keep.step State.setKeys_keep; decide)
    | with_reducible apply Keep.ite
    | split
    | dsimp only

theorem State.rollBegin_keep {s : State} {p : PortId} {n : Fin 2} {force : Bool} :
    Keep 70261541793955835 s (State.rollBegin s p n force) := by
  unfold State.rollBegin; try dsimp only
  repeat' first
    | with_reducible exact Keep.rfl'
    | with_reducible assumption
    | (with_reducible apply Keep.step State.enterMode_keep; decide)
    | (with_reducible apply Keep.step State.setCmdSt_keep; decide)
    | with_reducible apply Keep.setMode
    | exact fun k => absurd k (by decide)
    | with_reducible exact fun _ => rfl
    | with_reducible rfl
    | decide
    | split
    | dsimp only

theorem State.unitRun_keep {s : State} {p : PortId} :
    Keep 45458208738770944 s (State.unitRun s p) := by
  unfold State.unitRun; try dsimp only
  repeat' first
    | with_reducible exact Keep.rfl'
    | with_reducible assumption
    | (with_reducible apply Keep.step State.coldRequest_keep; decide)
    | (with_reducible apply Keep.step State.endCmd_keep; decide)
    | (with_reducible apply Keep.step State.logLine_keep; decide)
    | (with_reducible apply Keep.step State.needRead_keep; decide)
    | (with_reducible apply Keep.step State.restartSups_keep; decide)
    | (with_reducible apply Keep.step State.rollBegin_keep; decide)
    | (with_reducible apply Keep.step State.setCmdSt_keep; decide)
    | (with_reducible apply Keep.step State.warmBegin_keep; decide)
    | with_reducible apply Keep.ite
    | split
    | dsimp only

theorem State.unitRead_keep {s : State} {p : PortId} {data : Option (List Byte)} :
    Keep 70367644666036211 s (State.unitRead s p data) := by
  unfold State.unitRead; try dsimp only
  repeat' first
    | with_reducible exact Keep.rfl'
    | with_reducible assumption
    | (with_reducible apply Keep.step State.endCmd_keep; decide)
    | (with_reducible apply Keep.step State.writeImage_keep; decide)
    | split
    | dsimp only

theorem State.turnOnce_keepH {K : Nat} {s x : State} {k : CmdSet} {run : State → PortId → State}
    (hx : Keep K s x) (hf : ∀ y p, Keep K s y → Keep K s (run y p)) :
    Keep K s (State.turnOnce x k run) := by
  unfold State.turnOnce; dsimp only
  exact Keep.ite hx (Keep.ite (hf _ _ hx) (Keep.ite (hf _ _ hx) hx))

theorem State.settleSet_keepH {K : Nat} {s x : State} {k : CmdSet} {run : State → PortId → State}
    (hx : Keep K s x) (hf : ∀ y p, Keep K s y → Keep K s (run y p)) :
    Keep K s (State.settleSet x k run) := by
  unfold State.settleSet
  exact State.turnOnce_keepH (State.turnOnce_keepH hx hf) hf

theorem State.settleUnit_keep {s : State} :
    Keep 45458208738770944 s (State.settleUnit s) := by
  unfold State.settleUnit; try dsimp only
  repeat' first
    | with_reducible exact Keep.rfl'
    | with_reducible assumption
    | (with_reducible apply Keep.step State.unitRun_keep; decide)
    | with_reducible refine Keep.foldl ?_ (fun _ _ => ?_)
    | with_reducible refine Keep.foldlFst ?_ (fun _ _ => ?_)
    | with_reducible refine Keep.foldlSnd ?_ (fun _ _ => ?_)
    | with_reducible apply Keep.ite
    | with_reducible apply Keep.iteFst
    | with_reducible apply Keep.iteSnd
    | split
    | dsimp only

theorem State.settle_keep {s : State} {k : CmdSet} :
    Keep 45317471250415616 s (State.settle s k) := by
  unfold State.settle; try dsimp only
  repeat' first
    | with_reducible exact Keep.rfl'
    | with_reducible assumption
    | (with_reducible apply Keep.step State.isletRun_keep; decide)
    | (with_reducible apply Keep.step State.keyRun_keep; decide)
    | (with_reducible apply Keep.step State.progRun_keep; decide)
    | with_reducible apply State.settleSet_keepH
    | (with_reducible apply Keep.step State.settleUnit_keep; decide)
    | decide
    | intro _
    | split
    | dsimp only

theorem State.command_keep {s : State} {f : FnId} {k : CmdSet} {op : Byte} {arg : Byte} {force : Bool} :
    Keep 45317471250415616 s (State.command s f k op arg force) := by
  unfold State.command; try dsimp only
  repeat' first
    | with_reducible exact Keep.rfl'
    | with_reducible assumption
    | (with_reducible apply Keep.step State.goCmd_keep; decide)
    | (with_reducible apply Keep.step State.settle_keep; decide)
    | with_reducible apply Keep.ite
    | split
    | dsimp only

theorem execCreate_keep {f : FnId} {islet : Byte} {s : State} :
    KeepX 45317471250415616 s (execCreate f islet s) := by
  unfold execCreate; try dsimp only
  repeat' first
    | with_reducible exact Keep.rfl'
    | with_reducible assumption
    | (with_reducible apply Keep.step State.command_keep; decide)
    | with_reducible refine KeepX.next ?_
    | split
    | dsimp only

theorem execQuiesce_keep {f : FnId} {islet : Byte} {s : State} :
    KeepX 45317471250415616 s (execQuiesce f islet s) := by
  unfold execQuiesce; try dsimp only
  repeat' first
    | with_reducible exact Keep.rfl'
    | with_reducible assumption
    | (with_reducible apply Keep.step State.command_keep; decide)
    | with_reducible refine KeepX.next ?_
    | split
    | dsimp only

theorem execResume_keep {f : FnId} {islet : Byte} {s : State} :
    KeepX 45317471250415616 s (execResume f islet s) := by
  unfold execResume; try dsimp only
  repeat' first
    | with_reducible exact Keep.rfl'
    | with_reducible assumption
    | (with_reducible apply Keep.step State.command_keep; decide)
    | with_reducible refine KeepX.next ?_
    | split
    | dsimp only

theorem execReset_keep {f : FnId} {islet : Byte} {s : State} :
    KeepX 45317471250415616 s (execReset f islet s) := by
  unfold execReset; try dsimp only
  repeat' first
    | with_reducible exact Keep.rfl'
    | with_reducible assumption
    | (with_reducible apply Keep.step State.command_keep; decide)
    | with_reducible refine KeepX.next ?_
    | split
    | dsimp only

theorem execDestroy_keep {f : FnId} {islet : Byte} {s : State} :
    KeepX 45317471250415616 s (execDestroy f islet s) := by
  unfold execDestroy; try dsimp only
  repeat' first
    | with_reducible exact Keep.rfl'
    | with_reducible assumption
    | (with_reducible apply Keep.step State.command_keep; decide)
    | with_reducible refine KeepX.next ?_
    | split
    | dsimp only

theorem execSetSeats_keep {f : FnId} {islet : Byte} {s : State} :
    KeepX 45317471250415616 s (execSetSeats f islet s) := by
  unfold execSetSeats; try dsimp only
  repeat' first
    | with_reducible exact Keep.rfl'
    | with_reducible assumption
    | (with_reducible apply Keep.step State.command_keep; decide)
    | with_reducible refine KeepX.next ?_
    | split
    | dsimp only

theorem execIsletCmdBadOpcode_keep {f : FnId} {opcode : Byte} {islet : Byte} {s : State} :
    KeepX 45317471250415616 s (execIsletCmdBadOpcode f opcode islet s) := by
  unfold execIsletCmdBadOpcode; try dsimp only
  repeat' first
    | with_reducible exact Keep.rfl'
    | with_reducible assumption
    | (with_reducible apply Keep.step State.command_keep; decide)
    | with_reducible refine KeepX.next ?_
    | split
    | dsimp only

theorem execUnitProgramLoad_keep {f : FnId} {slot : Fin 4} {s : State} :
    KeepX 45317471250415616 s (execUnitProgramLoad f slot s) := by
  unfold execUnitProgramLoad; try dsimp only
  repeat' first
    | with_reducible exact Keep.rfl'
    | with_reducible assumption
    | (with_reducible apply Keep.step State.command_keep; decide)
    | with_reducible refine KeepX.next ?_
    | split
    | dsimp only

theorem execUnitProgramUnload_keep {f : FnId} {slot : Fin 4} {s : State} :
    KeepX 45317471250415616 s (execUnitProgramUnload f slot s) := by
  unfold execUnitProgramUnload; try dsimp only
  repeat' first
    | with_reducible exact Keep.rfl'
    | with_reducible assumption
    | (with_reducible apply Keep.step State.command_keep; decide)
    | with_reducible refine KeepX.next ?_
    | split
    | dsimp only

theorem execUnitProgramBadField_keep {f : FnId} {action : Byte} {slot : Byte} {s : State} :
    KeepX 45317471250415616 s (execUnitProgramBadField f action slot s) := by
  unfold execUnitProgramBadField; try dsimp only
  repeat' first
    | with_reducible exact Keep.rfl'
    | with_reducible assumption
    | (with_reducible apply Keep.step State.command_keep; decide)
    | with_reducible refine KeepX.next ?_
    | split
    | dsimp only

theorem execDockKeyAdd_keep {f : FnId} {s : State} :
    KeepX 45317471250415616 s (execDockKeyAdd f s) := by
  unfold execDockKeyAdd; try dsimp only
  repeat' first
    | with_reducible exact Keep.rfl'
    | with_reducible assumption
    | (with_reducible apply Keep.step State.command_keep; decide)
    | with_reducible refine KeepX.next ?_
    | split
    | dsimp only

theorem execDockKeyRemove_keep {f : FnId} {s : State} :
    KeepX 45317471250415616 s (execDockKeyRemove f s) := by
  unfold execDockKeyRemove; try dsimp only
  repeat' first
    | with_reducible exact Keep.rfl'
    | with_reducible assumption
    | (with_reducible apply Keep.step State.command_keep; decide)
    | with_reducible refine KeepX.next ?_
    | split
    | dsimp only

theorem execDockKeyRemoveAll_keep {f : FnId} {s : State} :
    KeepX 45317471250415616 s (execDockKeyRemoveAll f s) := by
  unfold execDockKeyRemoveAll; try dsimp only
  repeat' first
    | with_reducible exact Keep.rfl'
    | with_reducible assumption
    | (with_reducible apply Keep.step State.command_keep; decide)
    | with_reducible refine KeepX.next ?_
    | split
    | dsimp only

theorem execDockKeyBadAction_keep {f : FnId} {action : Byte} {s : State} :
    KeepX 45317471250415616 s (execDockKeyBadAction f action s) := by
  unfold execDockKeyBadAction; try dsimp only
  repeat' first
    | with_reducible exact Keep.rfl'
    | with_reducible assumption
    | (with_reducible apply Keep.step State.command_keep; decide)
    | with_reducible refine KeepX.next ?_
    | split
    | dsimp only

theorem execWarmStart_keep {f : FnId} {slot : Fin 2} {s : State} :
    KeepX 45317471250415616 s (execWarmStart f slot s) := by
  unfold execWarmStart; try dsimp only
  repeat' first
    | with_reducible exact Keep.rfl'
    | with_reducible assumption
    | (with_reducible apply Keep.step State.command_keep; decide)
    | with_reducible refine KeepX.next ?_
    | split
    | dsimp only

theorem execColdStart_keep {f : FnId} {slot : Fin 2} {s : State} :
    KeepX 45317471250415616 s (execColdStart f slot s) := by
  unfold execColdStart; try dsimp only
  repeat' first
    | with_reducible exact Keep.rfl'
    | with_reducible assumption
    | (with_reducible apply Keep.step State.command_keep; decide)
    | with_reducible refine KeepX.next ?_
    | split
    | dsimp only

theorem execRollingUpdate_keep {f : FnId} {slot : Fin 2} {force : Bool} {s : State} :
    KeepX 45317471250415616 s (execRollingUpdate f slot force s) := by
  unfold execRollingUpdate; try dsimp only
  repeat' first
    | with_reducible exact Keep.rfl'
    | with_reducible assumption
    | (with_reducible apply Keep.step State.command_keep; decide)
    | with_reducible refine KeepX.next ?_
    | split
    | dsimp only

theorem execWriteImage_keep {f : FnId} {slot : Fin 2} {s : State} :
    KeepX 45317471250415616 s (execWriteImage f slot s) := by
  unfold execWriteImage; try dsimp only
  repeat' first
    | with_reducible exact Keep.rfl'
    | with_reducible assumption
    | (with_reducible apply Keep.step State.command_keep; decide)
    | with_reducible refine KeepX.next ?_
    | split
    | dsimp only

theorem execSupervisorRestart_keep {f : FnId} {s : State} :
    KeepX 45317471250415616 s (execSupervisorRestart f s) := by
  unfold execSupervisorRestart; try dsimp only
  repeat' first
    | with_reducible exact Keep.rfl'
    | with_reducible assumption
    | (with_reducible apply Keep.step State.command_keep; decide)
    | with_reducible refine KeepX.next ?_
    | split
    | dsimp only

theorem execUnitCmdBadField_keep {f : FnId} {action : Byte} {slot : Byte} {s : State} :
    KeepX 45317471250415616 s (execUnitCmdBadField f action slot s) := by
  unfold execUnitCmdBadField; try dsimp only
  repeat' first
    | with_reducible exact Keep.rfl'
    | with_reducible assumption
    | (with_reducible apply Keep.step State.command_keep; decide)
    | with_reducible refine KeepX.next ?_
    | split
    | dsimp only

theorem execDescriptorReadCompletion_keep {p : PortId} {set : CmdSet} {data : Option (List Byte)} {s : State} :
    KeepX 45317471250415616 s (execDescriptorReadCompletion p set data s) := by
  unfold execDescriptorReadCompletion; try dsimp only
  repeat' first
    | with_reducible exact Keep.rfl'
    | with_reducible assumption
    | (with_reducible apply Keep.step State.commandRead_keep; decide)
    | (with_reducible apply Keep.step State.isletRead_keep; decide)
    | (with_reducible apply Keep.step State.keyRead_keep; decide)
    | (with_reducible apply Keep.step State.progRead_keep; decide)
    | (with_reducible apply Keep.step State.settle_keep; decide)
    | (with_reducible apply Keep.step State.unitRead_keep; decide)
    | with_reducible refine Keep.foldl ?_ (fun _ _ => ?_)
    | with_reducible refine Keep.foldlFst ?_ (fun _ _ => ?_)
    | with_reducible refine Keep.foldlSnd ?_ (fun _ _ => ?_)
    | with_reducible refine KeepX.next ?_
    | with_reducible apply Keep.ite
    | with_reducible apply Keep.iteFst
    | with_reducible apply Keep.iteSnd
    | split
    | dsimp only

theorem execBusMasterWaitTimeout_keep {p : PortId} {set : CmdSet} {ut : Nat} {s : State} :
    KeepX 9288674231451648 s (execBusMasterWaitTimeout p set ut s) := by
  unfold execBusMasterWaitTimeout; try dsimp only
  repeat' first
    | with_reducible exact Keep.rfl'
    | with_reducible assumption
    | (with_reducible apply Keep.step State.arrive_keep; decide)
    | (with_reducible apply Keep.step State.endCmd_keep; decide)
    | (with_reducible apply Keep.step State.settle_keep; decide)
    | with_reducible refine KeepX.next ?_
    | with_reducible apply Keep.ite
    | split
    | dsimp only

theorem execFlashWriteComplete_keep {ok : Bool} {s : State} :
    KeepX 45317471250415616 s (execFlashWriteComplete ok s) := by
  unfold execFlashWriteComplete; try dsimp only
  repeat' first
    | with_reducible exact Keep.rfl'
    | with_reducible assumption
    | (with_reducible apply Keep.step State.flashDone_keep; decide)
    | (with_reducible apply Keep.step State.settle_keep; decide)
    | with_reducible refine KeepX.next ?_
    | split
    | dsimp only

end Sys2Proof.Machine
end

