-- ==== Sys2Proof/Laws/KeepEvents.lean ====
section
/-! SUPPORT. What the operations of Machine/Events.lean may change: one lemma each. -/

namespace Sys2Proof.Machine

theorem execEventEdge_keep {c : CoreId} {src : Fin 2048} {s : State} :
    KeepX 72022272226877439 s (execEventEdge c src s) := by
  unfold execEventEdge; try dsimp only
  repeat' first
    | with_reducible exact Keep.rfl'
    | with_reducible assumption
    | (with_reducible apply Keep.step State.edge_keep; decide)
    | with_reducible refine KeepX.next ?_
    | split
    | dsimp only

theorem State.wakePending_keep {s : State} {c : CoreId} {w : Nat} :
    Keep 72022272226877439 s (State.wakePending s c w) := by
  unfold State.wakePending; try dsimp only
  repeat' first
    | with_reducible exact Keep.rfl'
    | with_reducible assumption
    | (with_reducible apply Keep.step State.wakeTarget_keep; decide)
    | with_reducible refine Keep.foldl ?_ (fun _ _ => ?_)
    | with_reducible refine Keep.foldlFst ?_ (fun _ _ => ?_)
    | with_reducible refine Keep.foldlSnd ?_ (fun _ _ => ?_)
    | with_reducible apply Keep.ite
    | with_reducible apply Keep.iteFst
    | with_reducible apply Keep.iteSnd
    | split
    | dsimp only

theorem State.wakePriv_keep {s : State} {c : CoreId} {t : Nat} :
    Keep 72022272226877439 s (State.wakePriv s c t) := by
  unfold State.wakePriv; try dsimp only
  repeat' first
    | with_reducible exact Keep.rfl'
    | with_reducible assumption
    | (with_reducible apply Keep.step State.wakeTarget_keep; decide)
    | with_reducible apply Keep.ite
    | split
    | dsimp only

theorem State.writePending_keep {s : State} {c : CoreId} {priv : Bool} {k : Nat} {v : W64} :
    Keep 72022272226877439 s (State.writePending s c priv k v) := by
  unfold State.writePending; try dsimp only
  repeat' first
    | with_reducible exact Keep.rfl'
    | with_reducible assumption
    | (with_reducible apply Keep.step State.setEvtCore_keep; decide)
    | (with_reducible apply Keep.step State.wakePending_keep; decide)
    | (with_reducible apply Keep.step State.wakePriv_keep; decide)
    | with_reducible apply Keep.ite
    | split
    | dsimp only

theorem execEvtPendingWrite_keep {w : Via} {c : CoreId} {priv : Bool} {k : Fin 33} {v : W64} {s : State} :
    KeepX 72022272226877439 s (execEvtPendingWrite w c priv k v s) := by
  unfold execEvtPendingWrite; try dsimp only
  repeat' first
    | with_reducible exact Keep.rfl'
    | with_reducible assumption
    | (with_reducible apply Keep.step State.writePending_keep; decide)
    | with_reducible refine KeepX.next ?_
    | with_reducible apply Keep.ite
    | split
    | dsimp only

theorem State.writeMask_keep {s : State} {c : CoreId} {priv : Bool} {k : Nat} {v : W64} :
    Keep 72022272226877439 s (State.writeMask s c priv k v) := by
  unfold State.writeMask; try dsimp only
  repeat' first
    | with_reducible exact Keep.rfl'
    | with_reducible assumption
    | (with_reducible apply Keep.step State.setEvtCore_keep; decide)
    | (with_reducible apply Keep.step State.wakePending_keep; decide)
    | (with_reducible apply Keep.step State.wakePriv_keep; decide)
    | with_reducible apply Keep.ite
    | split
    | dsimp only

theorem execEvtMaskWrite_keep {w : Via} {c : CoreId} {priv : Bool} {k : Fin 33} {v : W64} {s : State} :
    KeepX 72022272226877439 s (execEvtMaskWrite w c priv k v s) := by
  unfold execEvtMaskWrite; try dsimp only
  repeat' first
    | with_reducible exact Keep.rfl'
    | with_reducible assumption
    | (with_reducible apply Keep.step State.writeMask_keep; decide)
    | with_reducible refine KeepX.next ?_
    | with_reducible apply Keep.ite
    | split
    | dsimp only

theorem State.writeSource_keep {s : State} {c : CoreId} {n : Nat} {v : W64} :
    Keep 72022272226877439 s (State.writeSource s c n v) := by
  unfold State.writeSource; try dsimp only
  repeat' first
    | with_reducible exact Keep.rfl'
    | with_reducible assumption
    | (with_reducible apply Keep.step State.setEvtCore_keep; decide)
    | (with_reducible apply Keep.step State.wakePending_keep; decide)
    | split
    | dsimp only

theorem execEvtSourceWrite_keep {w : Via} {c : CoreId} {n : Fin 2048} {v : W64} {s : State} :
    KeepX 72022272226877439 s (execEvtSourceWrite w c n v s) := by
  unfold execEvtSourceWrite; try dsimp only
  repeat' first
    | with_reducible exact Keep.rfl'
    | with_reducible assumption
    | (with_reducible apply Keep.step State.writeSource_keep; decide)
    | with_reducible refine KeepX.next ?_
    | with_reducible apply Keep.ite
    | split
    | dsimp only

theorem State.writeVectorBase_keep {s : State} {c : CoreId} {t : Nat} {v : W64} :
    Keep 72057594037919743 s (State.writeVectorBase s c t v) := by
  unfold State.writeVectorBase; try dsimp only
  repeat' first
    | with_reducible exact Keep.rfl'
    | with_reducible assumption
    | (with_reducible apply Keep.step State.setEvtCore_keep; decide)
    | with_reducible apply Keep.ite
    | split
    | dsimp only

theorem execEvtVectorBaseWrite_keep {w : Via} {c : CoreId} {t : Fin 33} {v : W64} {s : State} :
    KeepX 72057594037919743 s (execEvtVectorBaseWrite w c t v s) := by
  unfold execEvtVectorBaseWrite; try dsimp only
  repeat' first
    | with_reducible exact Keep.rfl'
    | with_reducible assumption
    | (with_reducible apply Keep.step State.writeVectorBase_keep; decide)
    | with_reducible refine KeepX.next ?_
    | with_reducible apply Keep.ite
    | split
    | dsimp only

theorem State.writeTimer_keep {s : State} {c : CoreId} {t : Nat} {v : W64} :
    Keep 72057594037919743 s (State.writeTimer s c t v) := by
  unfold State.writeTimer; try dsimp only
  repeat' first
    | with_reducible exact Keep.rfl'
    | with_reducible assumption
    | (with_reducible apply Keep.step State.setEvtCore_keep; decide)
    | split
    | dsimp only

theorem execEvtTimerWrite_keep {w : Via} {c : CoreId} {t : Fin 33} {v : W64} {s : State} :
    KeepX 72057594037919743 s (execEvtTimerWrite w c t v s) := by
  unfold execEvtTimerWrite; try dsimp only
  repeat' first
    | with_reducible exact Keep.rfl'
    | with_reducible assumption
    | (with_reducible apply Keep.step State.writeTimer_keep; decide)
    | with_reducible refine KeepX.next ?_
    | with_reducible apply Keep.ite
    | split
    | dsimp only

theorem State.fireTimer_keep {s : State} {c : CoreId} {t : Nat} :
    Keep 72022272226877439 s (State.fireTimer s c t) := by
  unfold State.fireTimer; try dsimp only
  repeat' first
    | with_reducible exact Keep.rfl'
    | with_reducible assumption
    | (with_reducible apply Keep.step State.privEdge_keep; decide)
    | (with_reducible apply Keep.step State.setEvtCore_keep; decide)
    | with_reducible apply Keep.ite
    | split
    | dsimp only

theorem execEvtTimerFire_keep {c : CoreId} {t : Fin 33} {ut : Nat} {s : State} :
    KeepX 31489875580540926 s (execEvtTimerFire c t ut s) := by
  unfold execEvtTimerFire; try dsimp only
  repeat' first
    | with_reducible exact Keep.rfl'
    | with_reducible assumption
    | (with_reducible apply Keep.step State.arrive_keep; decide)
    | (with_reducible apply Keep.step State.fireTimer_keep; decide)
    | with_reducible refine KeepX.next ?_
    | split
    | dsimp only

theorem execSupervisorSweep_keep {ut : Nat} {s : State} :
    KeepX 31489875580540926 s (execSupervisorSweep ut s) := by
  unfold execSupervisorSweep; try dsimp only
  repeat' first
    | with_reducible exact Keep.rfl'
    | with_reducible assumption
    | (with_reducible apply Keep.step State.arrive_keep; decide)
    | with_reducible apply Keep.setEvt
    | exact fun k => absurd k (by decide)
    | with_reducible exact fun _ => rfl
    | with_reducible rfl
    | decide
    | with_reducible refine KeepX.next ?_
    | with_reducible apply Keep.ite
    | split
    | dsimp only

theorem State.isoPassed_keep {s : State} {x : Seat} {n : Nat} :
    Keep 70896355139198591 s (State.isoPassed s x n) := by
  unfold State.isoPassed; try dsimp only
  repeat' first
    | with_reducible exact Keep.rfl'
    | with_reducible assumption
    | (with_reducible apply Keep.step State.countLost_keep; decide)
    | (with_reducible apply Keep.step State.isoSettle_keep; decide)
    | (with_reducible apply Keep.step State.setXfer_keep; decide)
    | with_reducible refine Keep.foldl ?_ (fun _ _ => ?_)
    | with_reducible refine Keep.foldlFst ?_ (fun _ _ => ?_)
    | with_reducible refine Keep.foldlSnd ?_ (fun _ _ => ?_)
    | with_reducible apply Keep.ite
    | with_reducible apply Keep.iteFst
    | with_reducible apply Keep.iteSnd
    | split
    | dsimp only

theorem State.seatTick_keep {s : State} {c : CoreId} {x : Seat} {n : Nat} :
    Keep 70896351376903231 s (State.seatTick s c x n) := by
  unfold State.seatTick; try dsimp only
  repeat' first
    | with_reducible exact Keep.rfl'
    | with_reducible assumption
    | (with_reducible apply Keep.step State.buildItem_keep; decide)
    | (with_reducible apply Keep.step State.isoPassed_keep; decide)
    | (with_reducible apply Keep.step State.sealScript_keep; decide)
    | (with_reducible apply Keep.step State.setDispatch_keep; decide)
    | (with_reducible apply Keep.step State.setUsbSeat_keep; decide)
    | with_reducible apply Keep.ite
    | split
    | dsimp only

theorem execSeatTick_keep {c : CoreId} {x : Seat} {ut : Nat} {s : State} :
    KeepX 30363954730566718 s (execSeatTick c x ut s) := by
  unfold execSeatTick; try dsimp only
  repeat' first
    | with_reducible exact Keep.rfl'
    | with_reducible assumption
    | (with_reducible apply Keep.step State.arrive_keep; decide)
    | (with_reducible apply Keep.step State.seatTick_keep; decide)
    | with_reducible refine KeepX.next ?_
    | with_reducible apply Keep.ite
    | split
    | dsimp only

end Sys2Proof.Machine
end

