-- ==== Sys2Proof/Laws/KeepRegMap.lean ====
section
/-! SUPPORT. What the operations of Machine/RegMap.lean may change: one lemma each. -/

namespace Sys2Proof.Machine

theorem State.readReg_keep {s : State} {w : Via} {o : Nat} {k : Nat} {n : Nat} :
    Keep 71916856549568511 s (State.readReg s w o k n).2 := by
  unfold State.readReg; try dsimp only
  repeat' first
    | with_reducible exact Keep.rfl'
    | with_reducible assumption
    | (with_reducible apply Keep.step State.draw_keep; decide)
    | with_reducible refine Keep.step (State.draw_keepE (by assumption)) (by decide) ?_
    | (with_reducible apply Keep.step State.readMaxWait_keep; decide)
    | with_reducible refine Keep.step (State.readMaxWait_keepE (by assumption)) (by decide) ?_
    | with_reducible apply Keep.ite
    | with_reducible apply Keep.iteSnd
    | split
    | dsimp only
theorem State.readReg_keepE {s : State} {w : Via} {o : Nat} {k : Nat} {n : Nat} {rE tE} (hE : (State.readReg s w o k n) = (rE, tE)) : Keep 71916856549568511 s tE := by
  have k := @State.readReg_keep s w o k n; rw [hE] at k; exact k

theorem State.writeBar4_keep {s : State} {f : FnId} {off : Nat} {data : List Byte} :
    Keep 70368744177663997 s (State.writeBar4 s f off data) := by
  unfold State.writeBar4; try dsimp only
  repeat' first
    | with_reducible exact Keep.rfl'
    | with_reducible assumption
    | (with_reducible apply Keep.step State.releaseMsix_keep; decide)
    | with_reducible apply Keep.setFnQ
    | exact fun k => absurd k (by decide)
    | with_reducible exact fun _ => rfl
    | with_reducible rfl
    | decide
    | with_reducible apply Keep.ite
    | split
    | dsimp only

theorem State.writeCmd_keep {s : State} {f : FnId} {k : CmdSet} {v : Nat} :
    Keep 45317471250415616 s (State.writeCmd s f k v) := by
  unfold State.writeCmd; try dsimp only
  repeat' first
    | with_reducible exact Keep.rfl'
    | with_reducible assumption
    | (with_reducible apply Keep.step State.command_keep; decide)
    | with_reducible apply Keep.ite
    | split
    | dsimp only

theorem State.writeAddr_keep {s : State} {p : PortId} {k : CmdSet} {v : W64} :
    Keep 72057594037927931 s (State.writeAddr s p k v) := by
  unfold State.writeAddr; try dsimp only
  repeat' first
    | with_reducible exact Keep.rfl'
    | with_reducible assumption
    | (with_reducible apply Keep.step State.setCmdSt_keep; decide)
    | split
    | dsimp only

theorem State.writePort32_keep {s : State} {f : FnId} {o : Nat} {v : W32} :
    KeepO 45317471250415616 s (State.writePort32 s f o v) := by
  unfold State.writePort32; try dsimp only
  repeat' first
    | with_reducible exact Keep.rfl'
    | with_reducible assumption
    | (with_reducible apply Keep.step State.releaseSem_keep; decide)
    | (with_reducible apply Keep.step State.renewLease_keep; decide)
    | (with_reducible apply Keep.step State.writeCmd_keep; decide)
    | (with_reducible apply Keep.step State.writeManagerControl_keep; decide)
    | with_reducible exact KeepO.none
    | with_reducible refine KeepO.some ?_
    | with_reducible apply Keep.ite
    | split
    | dsimp only

theorem State.writeLevels_keep {s : State} {c : CoreId} {v : W32} :
    Keep 72057594037923839 s (State.writeLevels s c v) := by
  unfold State.writeLevels; try dsimp only
  repeat' first
    | with_reducible exact Keep.rfl'
    | with_reducible assumption
    | (with_reducible apply Keep.step State.setDispatch_keep; decide)
    | split
    | dsimp only

theorem State.writeCluster_keep {s : State} {c : CoreId} {hi : Bool} {v : W64} :
    Keep 72022272226873343 s (State.writeCluster s c hi v) := by
  unfold State.writeCluster; try dsimp only
  repeat' first
    | with_reducible exact Keep.rfl'
    | with_reducible assumption
    | (with_reducible apply Keep.step State.setDispatch_keep; decide)
    | (with_reducible apply Keep.step State.settleDomain_keep; decide)
    | with_reducible refine Keep.foldl ?_ (fun _ _ => ?_)
    | with_reducible refine Keep.foldlFst ?_ (fun _ _ => ?_)
    | with_reducible refine Keep.foldlSnd ?_ (fun _ _ => ?_)
    | with_reducible apply Keep.ite
    | with_reducible apply Keep.iteFst
    | with_reducible apply Keep.iteSnd
    | split
    | dsimp only

theorem State.writeUnit32_keep {s : State} {w : Via} {o : Nat} {v : W32} :
    KeepO 72057594037921783 s (State.writeUnit32 s w o v) := by
  unfold State.writeUnit32; try dsimp only
  repeat' first
    | with_reducible exact Keep.rfl'
    | with_reducible assumption
    | (with_reducible apply Keep.step State.writeClusterMode_keep; decide)
    | (with_reducible apply Keep.step State.writeLevels_keep; decide)
    | with_reducible apply Keep.setHost
    | exact fun k => absurd k (by decide)
    | with_reducible exact fun _ => rfl
    | with_reducible rfl
    | decide
    | with_reducible exact KeepO.none
    | with_reducible refine KeepO.some ?_
    | with_reducible apply Keep.ite
    | split
    | dsimp only

theorem State.writePort64_keep {s : State} {p : PortId} {o : Nat} {v : W64} :
    KeepO 72057594037927931 s (State.writePort64 s p o v) := by
  unfold State.writePort64; try dsimp only
  repeat' first
    | with_reducible exact Keep.rfl'
    | with_reducible assumption
    | (with_reducible apply Keep.step State.setPort_keep; decide)
    | (with_reducible apply Keep.step State.writeAddr_keep; decide)
    | with_reducible exact KeepO.none
    | with_reducible refine KeepO.some ?_
    | with_reducible apply Keep.ite
    | split
    | dsimp only

theorem State.writeEvents_keep {s : State} {c : CoreId} {o : Nat} {v : W64} :
    KeepO 72022272226877439 s (State.writeEvents s c o v) := by
  unfold State.writeEvents; try dsimp only
  repeat' first
    | with_reducible exact Keep.rfl'
    | with_reducible assumption
    | (with_reducible apply Keep.step State.writeMask_keep; decide)
    | (with_reducible apply Keep.step State.writePending_keep; decide)
    | (with_reducible apply Keep.step State.writeSource_keep; decide)
    | (with_reducible apply Keep.step State.writeTimer_keep; decide)
    | (with_reducible apply Keep.step State.writeVectorBase_keep; decide)
    | with_reducible exact KeepO.none
    | with_reducible refine KeepO.some ?_
    | split
    | dsimp only

theorem State.writePool_keep {s : State} {c : CoreId} {v : W64} :
    Keep 72022271690006527 s (State.writePool s c v) := by
  unfold State.writePool; try dsimp only
  repeat' first
    | with_reducible exact Keep.rfl'
    | with_reducible assumption
    | (with_reducible apply Keep.step State.poolAlarms_keep; decide)
    | (with_reducible apply Keep.step State.setFabCore_keep; decide)
    | split
    | dsimp only

theorem State.writeLinks_keep {s : State} {w : Via} {o : Nat} {v : W64} :
    KeepO 70896277839158887 s (State.writeLinks s w o v) := by
  unfold State.writeLinks; try dsimp only
  repeat' first
    | with_reducible exact Keep.rfl'
    | with_reducible assumption
    | (with_reducible apply Keep.step State.linkDone_keep; decide)
    | (with_reducible apply Keep.step State.outMinWrite_keep; decide)
    | (with_reducible apply Keep.step State.setFabCore_keep; decide)
    | (with_reducible apply Keep.step State.writeGroup_keep; decide)
    | (with_reducible apply Keep.step State.writeLinkControl_keep; decide)
    | (with_reducible apply Keep.step State.writePool_keep; decide)
    | with_reducible exact KeepO.none
    | with_reducible refine KeepO.some ?_
    | with_reducible apply Keep.ite
    | split
    | dsimp only

theorem State.writeGateEntry_keep {s : State} {x : Seat} {e : Nat} {v : W64} :
    Keep 72057592964186111 s (State.writeGateEntry s x e v) := by
  unfold State.writeGateEntry; try dsimp only
  repeat' first
    | with_reducible exact Keep.rfl'
    | with_reducible assumption
    | (with_reducible apply Keep.step State.setSeatTraf_keep; decide)
    | split
    | dsimp only

theorem State.writeTraf_keep {s : State} {w : Via} {o : Nat} {v : W64} :
    KeepO 72022148203405311 s (State.writeTraf s w o v) := by
  unfold State.writeTraf; try dsimp only
  repeat' first
    | with_reducible exact Keep.rfl'
    | with_reducible assumption
    | (with_reducible apply Keep.step State.gateWrite_keep; decide)
    | (with_reducible apply Keep.step State.writeAllot_keep; decide)
    | (with_reducible apply Keep.step State.writeBound_keep; decide)
    | (with_reducible apply Keep.step State.writeGateEntry_keep; decide)
    | (with_reducible apply Keep.step State.writePolicy_keep; decide)
    | with_reducible exact KeepO.none
    | with_reducible refine KeepO.some ?_
    | with_reducible refine KeepO.mapAll (fun _ => ?_)
    | with_reducible apply Keep.ite
    | split
    | dsimp only

theorem State.writePow_keep {s : State} {w : Via} {o : Nat} {v : W64} :
    KeepO 72021928629493751 s (State.writePow s w o v) := by
  unfold State.writePow; try dsimp only
  repeat' first
    | with_reducible exact Keep.rfl'
    | with_reducible assumption
    | (with_reducible apply Keep.step State.setSeatPower_keep; decide)
    | (with_reducible apply Keep.step State.setSupply_keep; decide)
    | (with_reducible apply Keep.step State.writePowerControl_keep; decide)
    | (with_reducible apply Keep.step State.writeVote_keep; decide)
    | with_reducible exact KeepO.none
    | with_reducible refine KeepO.some ?_
    | with_reducible apply Keep.ite
    | split
    | dsimp only

theorem State.writeCnt_keep {s : State} {w : Via} {o : Nat} {v : W64} :
    KeepO 72022409665839103 s (State.writeCnt s w o v) := by
  unfold State.writeCnt; try dsimp only
  repeat' first
    | with_reducible exact Keep.rfl'
    | with_reducible assumption
    | (with_reducible apply Keep.step State.selectWrite_keep; decide)
    | (with_reducible apply Keep.step State.setCntCore_keep; decide)
    | (with_reducible apply Keep.step State.writeControl_keep; decide)
    | (with_reducible apply Keep.step State.writeFreezeUt_keep; decide)
    | (with_reducible apply Keep.step State.writeValue_keep; decide)
    | with_reducible exact KeepO.none
    | with_reducible refine KeepO.some ?_
    | with_reducible apply Keep.ite
    | split
    | dsimp only

theorem State.writeBlock_keep {s : State} {c : CoreId} {o : Nat} {v : W64} :
    KeepO 72022272226876735 s (State.writeBlock s c o v) := by
  unfold State.writeBlock; try dsimp only
  repeat' first
    | with_reducible exact Keep.rfl'
    | with_reducible assumption
    | (with_reducible apply Keep.step State.writeManagerConsumer_keep; decide)
    | (with_reducible apply Keep.step State.writeQueueBase_keep; decide)
    | (with_reducible apply Keep.step State.writeQueueConfig_keep; decide)
    | (with_reducible apply Keep.step State.writeRingBase_keep; decide)
    | (with_reducible apply Keep.step State.writeRingConfig_keep; decide)
    | with_reducible exact KeepO.none
    | with_reducible refine KeepO.some ?_
    | with_reducible apply Keep.ite
    | split
    | dsimp only

theorem State.write64_keep {s : State} {w : Via} {o : Nat} {v : W64} :
    KeepO 70333018648087585 s (State.write64 s w o v) := by
  unfold State.write64; try dsimp only
  repeat' first
    | with_reducible exact Keep.rfl'
    | with_reducible assumption
    | with_reducible apply Keep.setFnQ
    | with_reducible refine Keep.step (KeepO.of State.writeBlock_keep (by assumption)) (by decide) ?_
    | (with_reducible apply KeepO.step State.writeBlock_keep; decide)
    | (with_reducible apply Keep.step State.writeCluster_keep; decide)
    | with_reducible refine Keep.step (KeepO.of State.writeCnt_keep (by assumption)) (by decide) ?_
    | (with_reducible apply KeepO.step State.writeCnt_keep; decide)
    | with_reducible refine Keep.step (KeepO.of State.writeEvents_keep (by assumption)) (by decide) ?_
    | (with_reducible apply KeepO.step State.writeEvents_keep; decide)
    | with_reducible refine Keep.step (KeepO.of State.writeLinks_keep (by assumption)) (by decide) ?_
    | (with_reducible apply KeepO.step State.writeLinks_keep; decide)
    | with_reducible refine Keep.step (KeepO.of State.writePort64_keep (by assumption)) (by decide) ?_
    | (with_reducible apply KeepO.step State.writePort64_keep; decide)
    | with_reducible refine Keep.step (KeepO.of State.writePow_keep (by assumption)) (by decide) ?_
    | (with_reducible apply KeepO.step State.writePow_keep; decide)
    | with_reducible refine Keep.step (KeepO.of State.writeTraf_keep (by assumption)) (by decide) ?_
    | (with_reducible apply KeepO.step State.writeTraf_keep; decide)
    | exact fun k => absurd k (by decide)
    | with_reducible exact fun _ => rfl
    | with_reducible rfl
    | decide
    | with_reducible exact KeepO.none
    | with_reducible refine KeepO.some ?_
    | with_reducible apply KeepO.orElse
    | with_reducible apply Keep.ite
    | split
    | dsimp only

theorem State.writeReg_keep {s : State} {w : Via} {o : Nat} {n : Nat} {v : W64} :
    Keep 45317471250415616 s (State.writeReg s w o n v) := by
  unfold State.writeReg; dsimp only
  refine Keep.ite Keep.rfl' ?_
  split
  · rename_i t e
    refine KeepO.of (KeepO.orElse ?_ (KeepO.step State.writeUnit32_keep (by decide) Keep.rfl')) e
    split
    · exact KeepO.step State.writePort32_keep (by decide) Keep.rfl'
    · exact KeepO.none
  · exact Keep.ite (Keep.getD (KeepO.step State.write64_keep (by decide) Keep.rfl') Keep.rfl') Keep.rfl'

theorem State.writeWin_keep {s : State} {f : FnId} {i : IsletNo} {o : Nat} {v : W64} :
    Keep 72022272193223999 s (State.writeWin s f i o v) := by
  unfold State.writeWin; try dsimp only
  repeat' first
    | with_reducible exact Keep.rfl'
    | with_reducible assumption
    | (with_reducible apply Keep.step State.clearPortChange_keep; decide)
    | (with_reducible apply Keep.step State.setView_keep; decide)
    | (with_reducible apply Keep.step State.submitPort_keep; decide)
    | (with_reducible apply Keep.step State.writeConsumer_keep; decide)
    | with_reducible apply Keep.ite
    | split
    | dsimp only

theorem State.hostWrite_keep {s : State} {f : FnId} {bar : Bar} {off : Nat} {data : List Byte} :
    Keep 45317471250415616 s (State.hostWrite s f bar off data) := by
  unfold State.hostWrite; try dsimp only
  repeat' first
    | with_reducible exact Keep.rfl'
    | with_reducible assumption
    | (with_reducible apply Keep.step State.doorbell_keep; decide)
    | (with_reducible apply Keep.step State.writeBar4_keep; decide)
    | (with_reducible apply Keep.step State.writeReg_keep; decide)
    | (with_reducible apply Keep.step State.writeWin_keep; decide)
    | with_reducible apply Keep.ite
    | split
    | dsimp only

theorem execRegisterWrite_keep {f : FnId} {bar : Bar} {off : Nat} {data : List Byte} {s : State} :
    KeepX 45317471250415616 s (execRegisterWrite f bar off data s) := by
  unfold execRegisterWrite; try dsimp only
  repeat' first
    | with_reducible exact Keep.rfl'
    | with_reducible assumption
    | (with_reducible apply Keep.step State.hostWrite_keep; decide)
    | with_reducible refine KeepX.next ?_
    | split
    | dsimp only

theorem execRegisterReadOversized_keep {f : FnId} {off : Nat} {size : Nat} {s : State} :
    KeepX 70931694131085311 s (execRegisterReadOversized f off size s) := by
  unfold execRegisterReadOversized; try dsimp only
  repeat' first
    | with_reducible exact Keep.rfl'
    | with_reducible assumption
    | (with_reducible apply Keep.step State.sendHost_keep; decide)
    | with_reducible refine KeepX.next ?_
    | with_reducible apply Keep.ite
    | split
    | dsimp only

end Sys2Proof.Machine
end

