-- ==== Sys2Proof/Laws/KeepStock.lean ====
section
/-! SUPPORT. What the operations of Machine/Stock.lean may change: one lemma each. -/

namespace Sys2Proof.Machine

theorem State.limits_keep {s : State} {e : EpSt} :
    Keep 71916856549572607 s (State.limits s e).2 := by
  unfold State.limits; try dsimp only
  repeat' first
    | with_reducible exact Keep.rfl'
    | with_reducible assumption
    | (with_reducible apply Keep.step State.draw_keep; decide)
    | with_reducible refine Keep.step (State.draw_keepE (by assumption)) (by decide) ?_
    | with_reducible apply Keep.ite
    | with_reducible apply Keep.iteSnd
    | split
    | dsimp only
theorem State.limits_keepE {s : State} {e : EpSt} {rE tE} (hE : (State.limits s e) = (rE, tE)) : Keep 71916856549572607 s tE := by
  have k := @State.limits_keep s e; rw [hE] at k; exact k

theorem State.dueOf_keep {s : State} {k : Nat} {n : Nat} :
    Keep 71916856549572607 s (State.dueOf s k n).1 := by
  unfold State.dueOf; try dsimp only
  repeat' first
    | with_reducible exact Keep.rfl'
    | with_reducible assumption
    | (with_reducible apply Keep.step State.limits_keep; decide)
    | with_reducible refine Keep.step (State.limits_keepE (by assumption)) (by decide) ?_
    | with_reducible apply Keep.ite
    | with_reducible apply Keep.iteFst
    | split
    | dsimp only
theorem State.dueOf_keepE {s : State} {k : Nat} {n : Nat} {tE rE} (hE : (State.dueOf s k n) = (tE, rE)) : Keep 71916856549572607 s tE := by
  have k := @State.dueOf_keep s k n; rw [hE] at k; exact k

theorem State.dueList_keep {s : State} {x : Seat} {n : Nat} :
    Keep 71916856549572607 s (State.dueList s x n).1 := by
  unfold State.dueList; try dsimp only
  repeat' first
    | with_reducible exact Keep.rfl'
    | with_reducible assumption
    | (with_reducible apply Keep.step State.dueOf_keep; decide)
    | with_reducible refine Keep.step (State.dueOf_keepE (by assumption)) (by decide) ?_
    | with_reducible refine Keep.foldl ?_ (fun _ _ => ?_)
    | with_reducible refine Keep.foldlFst ?_ (fun _ _ => ?_)
    | with_reducible refine Keep.foldlSnd ?_ (fun _ _ => ?_)
    | split
    | dsimp only
theorem State.dueList_keepE {s : State} {x : Seat} {n : Nat} {tE rE} (hE : (State.dueList s x n) = (tE, rE)) : Keep 71916856549572607 s tE := by
  have k := @State.dueList_keep s x n; rw [hE] at k; exact k

theorem State.putDue_keep {s : State} {c : CoreId} {x : Seat} {n : Nat} {l : List DueEntry} :
    Keep 72057594037911551 s (State.putDue s c x n l) := by
  unfold State.putDue; try dsimp only
  repeat' first
    | with_reducible exact Keep.rfl'
    | with_reducible assumption
    | with_reducible apply Keep.setDue
    | decide
    | with_reducible apply writeBytes_wf
    | with_reducible apply writeNat_wf
    | with_reducible apply foldl_mem_wf
    | exact State.isw_wf (by assumption)
    | exact State.due_wf (by assumption)
    | exact State.dram_wf (by assumption)
    | with_reducible rfl
    | intro _
    | with_reducible apply Keep.ite
    | split
    | dsimp only

theorem State.servedEp_keep {s : State} {k : Nat} {n : Nat} :
    Keep 72057594037780479 s (State.servedEp s k n) := by
  unfold State.servedEp; try dsimp only
  repeat' first
    | with_reducible exact Keep.rfl'
    | with_reducible assumption
    | (with_reducible apply Keep.step State.setEp_keep; decide)
    | with_reducible apply Keep.ite
    | split
    | dsimp only

theorem State.bulkRecord_keep {s : State} {b : Build} {k : Nat} {h : Nat} {v : XferSt} :
    Keep 71916856549572607 s (State.bulkRecord s b k h v).1 := by
  unfold State.bulkRecord; try dsimp only
  repeat' first
    | with_reducible exact Keep.rfl'
    | with_reducible assumption
    | (with_reducible apply Keep.step State.limits_keep; decide)
    | with_reducible refine Keep.step (State.limits_keepE (by assumption)) (by decide) ?_
    | with_reducible apply Keep.ite
    | with_reducible apply Keep.iteFst
    | split
    | dsimp only
theorem State.bulkRecord_keepE {s : State} {b : Build} {k : Nat} {h : Nat} {v : XferSt} {tE rE} (hE : (State.bulkRecord s b k h v) = (tE, rE)) : Keep 71916856549572607 s tE := by
  have k := @State.bulkRecord_keep s b k h v; rw [hE] at k; exact k

theorem State.controlRecord_keep {s : State} {b : Build} {k : Nat} {v : XferSt} :
    Keep 71916856549572607 s (State.controlRecord s b k v).1 := by
  unfold State.controlRecord; try dsimp only
  repeat' first
    | with_reducible exact Keep.rfl'
    | with_reducible assumption
    | (with_reducible apply Keep.step State.limits_keep; decide)
    | with_reducible refine Keep.step (State.limits_keepE (by assumption)) (by decide) ?_
    | with_reducible apply Keep.ite
    | with_reducible apply Keep.iteFst
    | split
    | dsimp only
theorem State.controlRecord_keepE {s : State} {b : Build} {k : Nat} {v : XferSt} {tE rE} (hE : (State.controlRecord s b k v) = (tE, rE)) : Keep 71916856549572607 s tE := by
  have k := @State.controlRecord_keep s b k v; rw [hE] at k; exact k

theorem State.asyncShare_keep {s : State} {b : Build} {k : Nat} {n : Nat} :
    Keep 71916856549572607 s (State.asyncShare s b k n).1 := by
  unfold State.asyncShare; try dsimp only
  repeat' first
    | with_reducible exact Keep.rfl'
    | with_reducible assumption
    | (with_reducible apply Keep.step State.bulkRecord_keep; decide)
    | with_reducible refine Keep.step (State.bulkRecord_keepE (by assumption)) (by decide) ?_
    | (with_reducible apply Keep.step State.controlRecord_keep; decide)
    | with_reducible refine Keep.step (State.controlRecord_keepE (by assumption)) (by decide) ?_
    | with_reducible apply Keep.ite
    | with_reducible apply Keep.iteFst
    | split
    | dsimp only
theorem State.asyncShare_keepE {s : State} {b : Build} {k : Nat} {n : Nat} {tE rE} (hE : (State.asyncShare s b k n) = (tE, rE)) : Keep 71916856549572607 s tE := by
  have k := @State.asyncShare_keep s b k n; rw [hE] at k; exact k

theorem State.asyncRound_keep {s : State} {c : CoreId} {x : Seat} {n : Nat} {b : Build} :
    Keep 71916856549556223 s (State.asyncRound s c x n b).1 := by
  unfold State.asyncRound; try dsimp only
  repeat' first
    | with_reducible exact Keep.rfl'
    | with_reducible assumption
    | (with_reducible apply Keep.step State.asyncShare_keep; decide)
    | with_reducible refine Keep.step (State.asyncShare_keepE (by assumption)) (by decide) ?_
    | with_reducible apply State.iswPut_keepH
    | decide
    | with_reducible apply writeBytes_wf
    | with_reducible apply writeNat_wf
    | with_reducible apply foldl_mem_wf
    | exact State.isw_wf (by assumption)
    | exact State.due_wf (by assumption)
    | exact State.dram_wf (by assumption)
    | with_reducible rfl
    | intro _
    | with_reducible refine Keep.foldl ?_ (fun _ _ => ?_)
    | with_reducible refine Keep.foldlFst ?_ (fun _ _ => ?_)
    | with_reducible refine Keep.foldlSnd ?_ (fun _ _ => ?_)
    | decide
    | intro _
    | with_reducible apply Keep.ite
    | with_reducible apply Keep.iteFst
    | with_reducible apply Keep.iteSnd
    | split
    | dsimp only
theorem State.asyncRound_keepE {s : State} {c : CoreId} {x : Seat} {n : Nat} {b : Build} {tE rE} (hE : (State.asyncRound s c x n b) = (tE, rE)) : Keep 71916856549556223 s tE := by
  have k := @State.asyncRound_keep s c x n b; rw [hE] at k; exact k

theorem State.stockBuild_keep {s : State} {c : CoreId} {x : Seat} {sc : Script} :
    Keep 71916856549425151 s (State.stockBuild s c x sc).1 := by
  unfold State.stockBuild; try dsimp only
  repeat' first
    | with_reducible exact Keep.rfl'
    | with_reducible assumption
    | (with_reducible apply Keep.step State.asyncRound_keep; decide)
    | with_reducible refine Keep.step (State.asyncRound_keepE (by assumption)) (by decide) ?_
    | (with_reducible apply Keep.step State.dueList_keep; decide)
    | with_reducible refine Keep.step (State.dueList_keepE (by assumption)) (by decide) ?_
    | (with_reducible apply Keep.step State.putDue_keep; decide)
    | (with_reducible apply Keep.step State.servedEp_keep; decide)
    | with_reducible refine Keep.foldl ?_ (fun _ _ => ?_)
    | with_reducible refine Keep.foldlFst ?_ (fun _ _ => ?_)
    | with_reducible refine Keep.foldlSnd ?_ (fun _ _ => ?_)
    | with_reducible apply Keep.ite
    | with_reducible apply Keep.iteFst
    | with_reducible apply Keep.iteSnd
    | split
    | dsimp only
theorem State.stockBuild_keepE {s : State} {c : CoreId} {x : Seat} {sc : Script} {tE rE} (hE : (State.stockBuild s c x sc) = (tE, rE)) : Keep 71916856549425151 s tE := by
  have k := @State.stockBuild_keep s c x sc; rw [hE] at k; exact k

theorem State.policyWeights_keep {s : State} {c : CoreId} {x : Seat} :
    Keep 72022148746567679 s (State.policyWeights s c x) := by
  unfold State.policyWeights; try dsimp only
  repeat' first
    | with_reducible exact Keep.rfl'
    | with_reducible assumption
    | (with_reducible apply Keep.step State.writeAllot_keep; decide)
    | with_reducible apply Keep.ite
    | split
    | dsimp only

theorem State.policyRates_keep {s : State} {c : CoreId} {x : Seat} :
    Keep 72022148746567679 s (State.policyRates s c x) := by
  unfold State.policyRates; try dsimp only
  repeat' first
    | with_reducible exact Keep.rfl'
    | with_reducible assumption
    | (with_reducible apply Keep.step State.writeAllot_keep; decide)
    | split
    | dsimp only

theorem State.policyShares_keep {s : State} {c : CoreId} :
    Keep 72022148746567679 s (State.policyShares s c) := by
  unfold State.policyShares; try dsimp only
  repeat' first
    | with_reducible exact Keep.rfl'
    | with_reducible assumption
    | (with_reducible apply Keep.step State.writeAllot_keep; decide)
    | with_reducible refine Keep.foldl ?_ (fun _ _ => ?_)
    | with_reducible refine Keep.foldlFst ?_ (fun _ _ => ?_)
    | with_reducible refine Keep.foldlSnd ?_ (fun _ _ => ?_)
    | with_reducible apply Keep.ite
    | with_reducible apply Keep.iteFst
    | with_reducible apply Keep.iteSnd
    | split
    | dsimp only

theorem State.policyPower_keep {s : State} {c : CoreId} {seats : List Seat} :
    Keep 72022148746567679 s (State.policyPower s c seats) := by
  unfold State.policyPower; try dsimp only
  repeat' first
    | with_reducible exact Keep.rfl'
    | with_reducible assumption
    | (with_reducible apply Keep.step State.writeAllot_keep; decide)
    | with_reducible refine Keep.foldl ?_ (fun _ _ => ?_)
    | with_reducible refine Keep.foldlFst ?_ (fun _ _ => ?_)
    | with_reducible refine Keep.foldlSnd ?_ (fun _ _ => ?_)
    | with_reducible apply Keep.ite
    | with_reducible apply Keep.iteFst
    | with_reducible apply Keep.iteSnd
    | split
    | dsimp only

theorem State.policyLine_keep {s : State} {x : Seat} :
    Keep 72022234101702271 s (State.policyLine s x) := by
  unfold State.policyLine; try dsimp only
  repeat' first
    | with_reducible exact Keep.rfl'
    | with_reducible assumption
    | (with_reducible apply Keep.step State.linkDone_keep; decide)
    | (with_reducible apply Keep.step State.writeTarget_keep; decide)
    | with_reducible apply Keep.setTraf
    | exact fun k => absurd k (by decide)
    | with_reducible exact fun _ => rfl
    | with_reducible rfl
    | decide
    | with_reducible apply Keep.ite
    | split
    | dsimp only

theorem State.stockPolicy_keep {s : State} {c : CoreId} :
    Keep 72022148202356351 s (State.stockPolicy s c) := by
  unfold State.stockPolicy; try dsimp only
  repeat' first
    | with_reducible exact Keep.rfl'
    | with_reducible assumption
    | (with_reducible apply Keep.step State.policyLine_keep; decide)
    | (with_reducible apply Keep.step State.policyPower_keep; decide)
    | (with_reducible apply Keep.step State.policyRates_keep; decide)
    | (with_reducible apply Keep.step State.policyShares_keep; decide)
    | (with_reducible apply Keep.step State.policyWeights_keep; decide)
    | with_reducible refine Keep.foldl ?_ (fun _ _ => ?_)
    | with_reducible refine Keep.foldlFst ?_ (fun _ _ => ?_)
    | with_reducible refine Keep.foldlSnd ?_ (fun _ _ => ?_)
    | with_reducible apply Keep.ite
    | with_reducible apply Keep.iteFst
    | with_reducible apply Keep.iteSnd
    | split
    | dsimp only

theorem State.stockRun_keep {s : State} {c : CoreId} {r : Run} :
    Keep 71881410713853567 s (State.stockRun s c r).1 := by
  unfold State.stockRun; try dsimp only
  repeat' first
    | with_reducible exact Keep.rfl'
    | with_reducible assumption
    | (with_reducible apply Keep.step State.stockBuild_keep; decide)
    | with_reducible refine Keep.step (State.stockBuild_keepE (by assumption)) (by decide) ?_
    | (with_reducible apply Keep.step State.stockPolicy_keep; decide)
    | with_reducible apply Keep.ite
    | with_reducible apply Keep.iteFst
    | split
    | dsimp only
theorem State.stockRun_keepE {s : State} {c : CoreId} {r : Run} {tE rE} (hE : (State.stockRun s c r) = (tE, rE)) : Keep 71881410713853567 s tE := by
  have k := @State.stockRun_keep s c r; rw [hE] at k; exact k

end Sys2Proof.Machine
end

