-- ==== Sys2Proof/Laws/KeepYelcy.lean ====
section
/-! SUPPORT. What the operations of Machine/Yelcy.lean may change: one lemma each. -/

namespace Sys2Proof.Machine

/-- How an instruction ends: what it may have changed by then. -/
def KeepT (K : Nat) (s : State) : TeOut → Prop
  | .ok t _ => Keep K s t
  | .fault _ => True
  | .stall => True
  | .left f => ∀ t r, Keep K s t → Keep K s (f t r)

theorem KeepT.ok {K : Nat} {s t : State} {x : TeCtx} (h : Keep K s t) : KeepT K s (.ok t x) := h
theorem KeepT.fault {K : Nat} {s : State} {n : Nat} : KeepT K s (.fault n) := trivial
theorem KeepT.stall {K : Nat} {s : State} : KeepT K s .stall := trivial
theorem KeepT.left {K : Nat} {s : State} {f : State → Run → State} (h : ∀ t r, Keep K s t → Keep K s (f t r)) : KeepT K s (.left f) := h
theorem KeepT.ite {K : Nat} {s : State} {a b : TeOut} {c : Prop} [Decidable c] (ha : KeepT K s a) (hb : KeepT K s b) :
    KeepT K s (if c then a else b) := by split <;> assumption

theorem State.countRetired_keep {s : State} {x : TeCtx} :
    Keep 72022272226877439 s (State.countRetired s x) := by
  unfold State.countRetired; try dsimp only
  repeat' first
    | with_reducible exact Keep.rfl'
    | with_reducible assumption
    | (with_reducible apply Keep.step State.countAt_keep; decide)
    | with_reducible apply Keep.ite
    | split
    | dsimp only

theorem State.putCtx_keep {s : State} {x : TeCtx} :
    Keep 72057594037925887 s (State.putCtx s x) := by
  unfold State.putCtx; try dsimp only
  repeat' first
    | with_reducible exact Keep.rfl'
    | with_reducible assumption
    | (with_reducible apply Keep.step State.setTeSt_keep; decide)
    | with_reducible apply Keep.ite
    | split
    | dsimp only

theorem State.retire_keep {s : State} {x : TeCtx} :
    Keep 72022272226875391 s (State.retire s x) := by
  unfold State.retire; try dsimp only
  repeat' first
    | with_reducible exact Keep.rfl'
    | with_reducible assumption
    | (with_reducible apply Keep.step State.countRetired_keep; decide)
    | (with_reducible apply Keep.step State.putCtx_keep; decide)
    | with_reducible apply Keep.ite
    | split
    | dsimp only

theorem State.teFault_keep {s : State} {c : CoreId} {t : TeNo} {code : Nat} :
    Keep 70825965453382267 s (State.teFault s c t code) := by
  unfold State.teFault; try dsimp only
  repeat' first
    | with_reducible exact Keep.rfl'
    | with_reducible assumption
    | (with_reducible apply Keep.step State.abortItem_keep; decide)
    | (with_reducible apply Keep.step State.setTeSt_keep; decide)
    | split
    | dsimp only

theorem State.instr_keepH {K : Nat} {s x : State} {c : CoreId} {t : TeNo} {f : State → TeCtx → TeOut}
    (hx : Keep K s x) (e : K &&& 70825965453382267 = K) (hf : ∀ y, KeepT K s (f x y)) : Keep K s (State.instr x c t f) := by
  have w {L : Nat} (g : 70825965453382267 &&& L = 70825965453382267) : K &&& L = K := by rw [← e, Nat.and_assoc, g]
  unfold State.instr; dsimp only
  refine Keep.ite hx (Keep.ite (Keep.step State.teFault_keep (w (by decide)) hx) ?_)
  have h := hf (x.teCtx c t)
  split
  · rename_i e; rw [e] at h; exact Keep.step State.retire_keep (w (by decide)) h
  · exact Keep.step State.teFault_keep (w (by decide)) hx
  · exact hx
  · rename_i e; rw [e] at h; exact h _ _ (Keep.step State.countRetired_keep (w (by decide)) hx)

theorem State.alu_keep {s : State} {c : CoreId} {t : TeNo} {rd : Reg} {f : TeCtx → W64} :
    Keep 70825965453382267 s (State.alu s c t rd f) := by
  unfold State.alu; try dsimp only
  repeat' first
    | with_reducible exact Keep.rfl'
    | with_reducible assumption
    | with_reducible apply State.instr_keepH
    | with_reducible exact KeepT.fault
    | with_reducible exact KeepT.stall
    | with_reducible apply KeepT.ok
    | with_reducible refine KeepT.left (fun _ _ _ => ?_)
    | with_reducible apply KeepT.ite
    | decide
    | intro _
    | split
    | dsimp only

theorem execAdd_keep {c : CoreId} {t : TeNo} {rd : Reg} {ra : Reg} {rb : Reg} {s : State} :
    KeepX 70825965453382267 s (execAdd c t rd ra rb s) := by
  unfold execAdd; try dsimp only
  repeat' first
    | with_reducible exact Keep.rfl'
    | with_reducible assumption
    | (with_reducible apply Keep.step State.alu_keep; decide)
    | with_reducible refine KeepX.next ?_
    | split
    | dsimp only

theorem execSub_keep {c : CoreId} {t : TeNo} {rd : Reg} {ra : Reg} {rb : Reg} {s : State} :
    KeepX 70825965453382267 s (execSub c t rd ra rb s) := by
  unfold execSub; try dsimp only
  repeat' first
    | with_reducible exact Keep.rfl'
    | with_reducible assumption
    | (with_reducible apply Keep.step State.alu_keep; decide)
    | with_reducible refine KeepX.next ?_
    | split
    | dsimp only

theorem execAnd_keep {c : CoreId} {t : TeNo} {rd : Reg} {ra : Reg} {rb : Reg} {s : State} :
    KeepX 70825965453382267 s (execAnd c t rd ra rb s) := by
  unfold execAnd; try dsimp only
  repeat' first
    | with_reducible exact Keep.rfl'
    | with_reducible assumption
    | (with_reducible apply Keep.step State.alu_keep; decide)
    | with_reducible refine KeepX.next ?_
    | split
    | dsimp only

theorem execOr_keep {c : CoreId} {t : TeNo} {rd : Reg} {ra : Reg} {rb : Reg} {s : State} :
    KeepX 70825965453382267 s (execOr c t rd ra rb s) := by
  unfold execOr; try dsimp only
  repeat' first
    | with_reducible exact Keep.rfl'
    | with_reducible assumption
    | (with_reducible apply Keep.step State.alu_keep; decide)
    | with_reducible refine KeepX.next ?_
    | split
    | dsimp only

theorem execXor_keep {c : CoreId} {t : TeNo} {rd : Reg} {ra : Reg} {rb : Reg} {s : State} :
    KeepX 70825965453382267 s (execXor c t rd ra rb s) := by
  unfold execXor; try dsimp only
  repeat' first
    | with_reducible exact Keep.rfl'
    | with_reducible assumption
    | (with_reducible apply Keep.step State.alu_keep; decide)
    | with_reducible refine KeepX.next ?_
    | split
    | dsimp only

theorem execSll_keep {c : CoreId} {t : TeNo} {rd : Reg} {ra : Reg} {rb : Reg} {s : State} :
    KeepX 70825965453382267 s (execSll c t rd ra rb s) := by
  unfold execSll; try dsimp only
  repeat' first
    | with_reducible exact Keep.rfl'
    | with_reducible assumption
    | (with_reducible apply Keep.step State.alu_keep; decide)
    | with_reducible refine KeepX.next ?_
    | split
    | dsimp only

theorem execSrl_keep {c : CoreId} {t : TeNo} {rd : Reg} {ra : Reg} {rb : Reg} {s : State} :
    KeepX 70825965453382267 s (execSrl c t rd ra rb s) := by
  unfold execSrl; try dsimp only
  repeat' first
    | with_reducible exact Keep.rfl'
    | with_reducible assumption
    | (with_reducible apply Keep.step State.alu_keep; decide)
    | with_reducible refine KeepX.next ?_
    | split
    | dsimp only

theorem execSra_keep {c : CoreId} {t : TeNo} {rd : Reg} {ra : Reg} {rb : Reg} {s : State} :
    KeepX 70825965453382267 s (execSra c t rd ra rb s) := by
  unfold execSra; try dsimp only
  repeat' first
    | with_reducible exact Keep.rfl'
    | with_reducible assumption
    | (with_reducible apply Keep.step State.alu_keep; decide)
    | with_reducible refine KeepX.next ?_
    | split
    | dsimp only

theorem execSlt_keep {c : CoreId} {t : TeNo} {rd : Reg} {ra : Reg} {rb : Reg} {s : State} :
    KeepX 70825965453382267 s (execSlt c t rd ra rb s) := by
  unfold execSlt; try dsimp only
  repeat' first
    | with_reducible exact Keep.rfl'
    | with_reducible assumption
    | (with_reducible apply Keep.step State.alu_keep; decide)
    | with_reducible refine KeepX.next ?_
    | split
    | dsimp only

theorem execSltu_keep {c : CoreId} {t : TeNo} {rd : Reg} {ra : Reg} {rb : Reg} {s : State} :
    KeepX 70825965453382267 s (execSltu c t rd ra rb s) := by
  unfold execSltu; try dsimp only
  repeat' first
    | with_reducible exact Keep.rfl'
    | with_reducible assumption
    | (with_reducible apply Keep.step State.alu_keep; decide)
    | with_reducible refine KeepX.next ?_
    | split
    | dsimp only

theorem execMul_keep {c : CoreId} {t : TeNo} {rd : Reg} {ra : Reg} {rb : Reg} {s : State} :
    KeepX 70825965453382267 s (execMul c t rd ra rb s) := by
  unfold execMul; try dsimp only
  repeat' first
    | with_reducible exact Keep.rfl'
    | with_reducible assumption
    | (with_reducible apply Keep.step State.alu_keep; decide)
    | with_reducible refine KeepX.next ?_
    | split
    | dsimp only

theorem execMulhu_keep {c : CoreId} {t : TeNo} {rd : Reg} {ra : Reg} {rb : Reg} {s : State} :
    KeepX 70825965453382267 s (execMulhu c t rd ra rb s) := by
  unfold execMulhu; try dsimp only
  repeat' first
    | with_reducible exact Keep.rfl'
    | with_reducible assumption
    | (with_reducible apply Keep.step State.alu_keep; decide)
    | with_reducible refine KeepX.next ?_
    | split
    | dsimp only

theorem execDivu_keep {c : CoreId} {t : TeNo} {rd : Reg} {ra : Reg} {rb : Reg} {s : State} :
    KeepX 70825965453382267 s (execDivu c t rd ra rb s) := by
  unfold execDivu; try dsimp only
  repeat' first
    | with_reducible exact Keep.rfl'
    | with_reducible assumption
    | (with_reducible apply Keep.step State.alu_keep; decide)
    | with_reducible refine KeepX.next ?_
    | split
    | dsimp only

theorem execRemu_keep {c : CoreId} {t : TeNo} {rd : Reg} {ra : Reg} {rb : Reg} {s : State} :
    KeepX 70825965453382267 s (execRemu c t rd ra rb s) := by
  unfold execRemu; try dsimp only
  repeat' first
    | with_reducible exact Keep.rfl'
    | with_reducible assumption
    | (with_reducible apply Keep.step State.alu_keep; decide)
    | with_reducible refine KeepX.next ?_
    | split
    | dsimp only

theorem execAddi_keep {c : CoreId} {t : TeNo} {rd : Reg} {ra : Reg} {imm : Half} {s : State} :
    KeepX 70825965453382267 s (execAddi c t rd ra imm s) := by
  unfold execAddi; try dsimp only
  repeat' first
    | with_reducible exact Keep.rfl'
    | with_reducible assumption
    | (with_reducible apply Keep.step State.alu_keep; decide)
    | with_reducible refine KeepX.next ?_
    | split
    | dsimp only

theorem execAndi_keep {c : CoreId} {t : TeNo} {rd : Reg} {ra : Reg} {imm : Half} {s : State} :
    KeepX 70825965453382267 s (execAndi c t rd ra imm s) := by
  unfold execAndi; try dsimp only
  repeat' first
    | with_reducible exact Keep.rfl'
    | with_reducible assumption
    | (with_reducible apply Keep.step State.alu_keep; decide)
    | with_reducible refine KeepX.next ?_
    | split
    | dsimp only

theorem execOri_keep {c : CoreId} {t : TeNo} {rd : Reg} {ra : Reg} {imm : Half} {s : State} :
    KeepX 70825965453382267 s (execOri c t rd ra imm s) := by
  unfold execOri; try dsimp only
  repeat' first
    | with_reducible exact Keep.rfl'
    | with_reducible assumption
    | (with_reducible apply Keep.step State.alu_keep; decide)
    | with_reducible refine KeepX.next ?_
    | split
    | dsimp only

theorem execXori_keep {c : CoreId} {t : TeNo} {rd : Reg} {ra : Reg} {imm : Half} {s : State} :
    KeepX 70825965453382267 s (execXori c t rd ra imm s) := by
  unfold execXori; try dsimp only
  repeat' first
    | with_reducible exact Keep.rfl'
    | with_reducible assumption
    | (with_reducible apply Keep.step State.alu_keep; decide)
    | with_reducible refine KeepX.next ?_
    | split
    | dsimp only

theorem execSlti_keep {c : CoreId} {t : TeNo} {rd : Reg} {ra : Reg} {imm : Half} {s : State} :
    KeepX 70825965453382267 s (execSlti c t rd ra imm s) := by
  unfold execSlti; try dsimp only
  repeat' first
    | with_reducible exact Keep.rfl'
    | with_reducible assumption
    | (with_reducible apply Keep.step State.alu_keep; decide)
    | with_reducible refine KeepX.next ?_
    | split
    | dsimp only

theorem execSltiu_keep {c : CoreId} {t : TeNo} {rd : Reg} {ra : Reg} {imm : Half} {s : State} :
    KeepX 70825965453382267 s (execSltiu c t rd ra imm s) := by
  unfold execSltiu; try dsimp only
  repeat' first
    | with_reducible exact Keep.rfl'
    | with_reducible assumption
    | (with_reducible apply Keep.step State.alu_keep; decide)
    | with_reducible refine KeepX.next ?_
    | split
    | dsimp only

theorem execLui_keep {c : CoreId} {t : TeNo} {rd : Reg} {imm : Half} {s : State} :
    KeepX 70825965453382267 s (execLui c t rd imm s) := by
  unfold execLui; try dsimp only
  repeat' first
    | with_reducible exact Keep.rfl'
    | with_reducible assumption
    | (with_reducible apply Keep.step State.alu_keep; decide)
    | with_reducible refine KeepX.next ?_
    | split
    | dsimp only

theorem execSlli_keep {c : CoreId} {t : TeNo} {rd : Reg} {ra : Reg} {sh : Fin 64} {s : State} :
    KeepX 70825965453382267 s (execSlli c t rd ra sh s) := by
  unfold execSlli; try dsimp only
  repeat' first
    | with_reducible exact Keep.rfl'
    | with_reducible assumption
    | (with_reducible apply Keep.step State.alu_keep; decide)
    | with_reducible refine KeepX.next ?_
    | split
    | dsimp only

theorem execSrli_keep {c : CoreId} {t : TeNo} {rd : Reg} {ra : Reg} {sh : Fin 64} {s : State} :
    KeepX 70825965453382267 s (execSrli c t rd ra sh s) := by
  unfold execSrli; try dsimp only
  repeat' first
    | with_reducible exact Keep.rfl'
    | with_reducible assumption
    | (with_reducible apply Keep.step State.alu_keep; decide)
    | with_reducible refine KeepX.next ?_
    | split
    | dsimp only

theorem execSrai_keep {c : CoreId} {t : TeNo} {rd : Reg} {ra : Reg} {sh : Fin 64} {s : State} :
    KeepX 70825965453382267 s (execSrai c t rd ra sh s) := by
  unfold execSrai; try dsimp only
  repeat' first
    | with_reducible exact Keep.rfl'
    | with_reducible assumption
    | (with_reducible apply Keep.step State.alu_keep; decide)
    | with_reducible refine KeepX.next ?_
    | split
    | dsimp only

theorem execBfx_keep {c : CoreId} {t : TeNo} {rd : Reg} {ra : Reg} {pos : Fin 64} {lenM1 : Fin 64} {s : State} :
    KeepX 70825965453382267 s (execBfx c t rd ra pos lenM1 s) := by
  unfold execBfx; try dsimp only
  repeat' first
    | with_reducible exact Keep.rfl'
    | with_reducible assumption
    | (with_reducible apply Keep.step State.alu_keep; decide)
    | with_reducible refine KeepX.next ?_
    | split
    | dsimp only

theorem execBfi_keep {c : CoreId} {t : TeNo} {rd : Reg} {ra : Reg} {pos : Fin 64} {lenM1 : Fin 64} {s : State} :
    KeepX 70825965453382267 s (execBfi c t rd ra pos lenM1 s) := by
  unfold execBfi; try dsimp only
  repeat' first
    | with_reducible exact Keep.rfl'
    | with_reducible assumption
    | (with_reducible apply Keep.step State.alu_keep; decide)
    | with_reducible refine KeepX.next ?_
    | split
    | dsimp only

theorem State.iswStore_keep {s : State} {x : TeCtx} {o : Nat} {b : List Byte} :
    Keep 72057594037911551 s (State.iswStore s x o b) := by
  unfold State.iswStore; try dsimp only
  repeat' first
    | with_reducible exact Keep.rfl'
    | with_reducible assumption
    | (with_reducible apply Keep.step State.noteStore_keep; decide)
    | with_reducible apply Keep.setDue
    | with_reducible apply Keep.setIsw
    | decide
    | with_reducible apply writeBytes_wf
    | with_reducible apply writeNat_wf
    | with_reducible apply foldl_mem_wf
    | exact State.isw_wf (by assumption)
    | exact State.due_wf (by assumption)
    | exact State.dram_wf (by assumption)
    | with_reducible rfl
    | intro _
    | with_reducible apply Keep.ite
    | split
    | dsimp only

theorem State.loadAt_keep {s : State} {x : TeCtx} {w : Win} {n : Nat} :
    Keep 71916856549568511 s (State.loadAt s x w n).2 := by
  unfold State.loadAt; try dsimp only
  repeat' first
    | with_reducible exact Keep.rfl'
    | with_reducible assumption
    | (with_reducible apply Keep.step State.readReg_keep; decide)
    | with_reducible refine Keep.step (State.readReg_keepE (by assumption)) (by decide) ?_
    | split
    | dsimp only
theorem State.loadAt_keepE {s : State} {x : TeCtx} {w : Win} {n : Nat} {rE tE} (hE : (State.loadAt s x w n) = (rE, tE)) : Keep 71916856549568511 s tE := by
  have k := @State.loadAt_keep s x w n; rw [hE] at k; exact k

theorem State.storeAt_keep {s : State} {x : TeCtx} {w : Win} {n : Nat} {v : W64} :
    Keep 45317471250415616 s (State.storeAt s x w n v).1 := by
  unfold State.storeAt; try dsimp only
  repeat' first
    | with_reducible exact Keep.rfl'
    | with_reducible assumption
    | (with_reducible apply Keep.step State.iswStore_keep; decide)
    | with_reducible apply Keep.setDram
    | (with_reducible apply Keep.step State.writeReg_keep; decide)
    | decide
    | with_reducible apply writeBytes_wf
    | with_reducible apply writeNat_wf
    | with_reducible apply foldl_mem_wf
    | exact State.isw_wf (by assumption)
    | exact State.due_wf (by assumption)
    | exact State.dram_wf (by assumption)
    | with_reducible rfl
    | intro _
    | split
    | dsimp only
theorem State.storeAt_keepE {s : State} {x : TeCtx} {w : Win} {n : Nat} {v : W64} {tE rE} (hE : (State.storeAt s x w n v) = (tE, rE)) : Keep 45317471250415616 s tE := by
  have k := @State.storeAt_keep s x w n v; rw [hE] at k; exact k

theorem State.load_keep {s : State} {c : CoreId} {t : TeNo} {rd : Reg} {ra : Reg} {imm : Half} {n : Nat} :
    Keep 70685227965022843 s (State.load s c t rd ra imm n) := by
  unfold State.load; try dsimp only
  repeat' first
    | with_reducible exact Keep.rfl'
    | with_reducible assumption
    | with_reducible apply State.instr_keepH
    | (with_reducible apply Keep.step State.loadAt_keep; decide)
    | with_reducible refine Keep.step (State.loadAt_keepE (by assumption)) (by decide) ?_
    | with_reducible exact KeepT.fault
    | with_reducible exact KeepT.stall
    | with_reducible apply KeepT.ok
    | with_reducible refine KeepT.left (fun _ _ _ => ?_)
    | with_reducible apply KeepT.ite
    | decide
    | intro _
    | with_reducible apply Keep.ite
    | split
    | dsimp only

theorem State.store__keep {s : State} {c : CoreId} {t : TeNo} {rs : Reg} {ra : Reg} {imm : Half} {n : Nat} :
    Keep 45317471250415616 s (State.store_ s c t rs ra imm n) := by
  unfold State.store_; try dsimp only
  repeat' first
    | with_reducible exact Keep.rfl'
    | with_reducible assumption
    | with_reducible apply State.instr_keepH
    | (with_reducible apply Keep.step State.storeAt_keep; decide)
    | with_reducible refine Keep.step (State.storeAt_keepE (by assumption)) (by decide) ?_
    | with_reducible exact KeepT.fault
    | with_reducible exact KeepT.stall
    | with_reducible apply KeepT.ok
    | with_reducible refine KeepT.left (fun _ _ _ => ?_)
    | with_reducible apply KeepT.ite
    | decide
    | intro _
    | with_reducible apply Keep.ite
    | split
    | dsimp only

theorem execLd8_keep {c : CoreId} {t : TeNo} {rd : Reg} {ra : Reg} {imm : Half} {s : State} :
    KeepX 70685227965022843 s (execLd8 c t rd ra imm s) := by
  unfold execLd8; try dsimp only
  repeat' first
    | with_reducible exact Keep.rfl'
    | with_reducible assumption
    | (with_reducible apply Keep.step State.load_keep; decide)
    | with_reducible refine KeepX.next ?_
    | split
    | dsimp only

theorem execLd16_keep {c : CoreId} {t : TeNo} {rd : Reg} {ra : Reg} {imm : Half} {s : State} :
    KeepX 70685227965022843 s (execLd16 c t rd ra imm s) := by
  unfold execLd16; try dsimp only
  repeat' first
    | with_reducible exact Keep.rfl'
    | with_reducible assumption
    | (with_reducible apply Keep.step State.load_keep; decide)
    | with_reducible refine KeepX.next ?_
    | split
    | dsimp only

theorem execLd32_keep {c : CoreId} {t : TeNo} {rd : Reg} {ra : Reg} {imm : Half} {s : State} :
    KeepX 70685227965022843 s (execLd32 c t rd ra imm s) := by
  unfold execLd32; try dsimp only
  repeat' first
    | with_reducible exact Keep.rfl'
    | with_reducible assumption
    | (with_reducible apply Keep.step State.load_keep; decide)
    | with_reducible refine KeepX.next ?_
    | split
    | dsimp only

theorem execLd64_keep {c : CoreId} {t : TeNo} {rd : Reg} {ra : Reg} {imm : Half} {s : State} :
    KeepX 70685227965022843 s (execLd64 c t rd ra imm s) := by
  unfold execLd64; try dsimp only
  repeat' first
    | with_reducible exact Keep.rfl'
    | with_reducible assumption
    | (with_reducible apply Keep.step State.load_keep; decide)
    | with_reducible refine KeepX.next ?_
    | split
    | dsimp only

theorem execSt8_keep {c : CoreId} {t : TeNo} {rs : Reg} {ra : Reg} {imm : Half} {s : State} :
    KeepX 45317471250415616 s (execSt8 c t rs ra imm s) := by
  unfold execSt8; try dsimp only
  repeat' first
    | with_reducible exact Keep.rfl'
    | with_reducible assumption
    | (with_reducible apply Keep.step State.store__keep; decide)
    | with_reducible refine KeepX.next ?_
    | split
    | dsimp only

theorem execSt16_keep {c : CoreId} {t : TeNo} {rs : Reg} {ra : Reg} {imm : Half} {s : State} :
    KeepX 45317471250415616 s (execSt16 c t rs ra imm s) := by
  unfold execSt16; try dsimp only
  repeat' first
    | with_reducible exact Keep.rfl'
    | with_reducible assumption
    | (with_reducible apply Keep.step State.store__keep; decide)
    | with_reducible refine KeepX.next ?_
    | split
    | dsimp only

theorem execSt32_keep {c : CoreId} {t : TeNo} {rs : Reg} {ra : Reg} {imm : Half} {s : State} :
    KeepX 45317471250415616 s (execSt32 c t rs ra imm s) := by
  unfold execSt32; try dsimp only
  repeat' first
    | with_reducible exact Keep.rfl'
    | with_reducible assumption
    | (with_reducible apply Keep.step State.store__keep; decide)
    | with_reducible refine KeepX.next ?_
    | split
    | dsimp only

theorem execSt64_keep {c : CoreId} {t : TeNo} {rs : Reg} {ra : Reg} {imm : Half} {s : State} :
    KeepX 45317471250415616 s (execSt64 c t rs ra imm s) := by
  unfold execSt64; try dsimp only
  repeat' first
    | with_reducible exact Keep.rfl'
    | with_reducible assumption
    | (with_reducible apply Keep.step State.store__keep; decide)
    | with_reducible refine KeepX.next ?_
    | split
    | dsimp only

theorem State.amo_keep {s : State} {c : CoreId} {t : TeNo} {rd : Reg} {ra : Reg} {rb : Reg} {f : W64 → W64 → W64} :
    Keep 45317471250415616 s (State.amo s c t rd ra rb f) := by
  unfold State.amo; try dsimp only
  repeat' first
    | with_reducible exact Keep.rfl'
    | with_reducible assumption
    | with_reducible apply State.instr_keepH
    | (with_reducible apply Keep.step State.loadAt_keep; decide)
    | with_reducible refine Keep.step (State.loadAt_keepE (by assumption)) (by decide) ?_
    | (with_reducible apply Keep.step State.storeAt_keep; decide)
    | with_reducible refine Keep.step (State.storeAt_keepE (by assumption)) (by decide) ?_
    | with_reducible exact KeepT.fault
    | with_reducible exact KeepT.stall
    | with_reducible apply KeepT.ok
    | with_reducible refine KeepT.left (fun _ _ _ => ?_)
    | with_reducible apply KeepT.ite
    | decide
    | intro _
    | with_reducible apply Keep.ite
    | split
    | dsimp only

theorem execAmoadd_keep {c : CoreId} {t : TeNo} {rd : Reg} {ra : Reg} {rb : Reg} {s : State} :
    KeepX 45317471250415616 s (execAmoadd c t rd ra rb s) := by
  unfold execAmoadd; try dsimp only
  repeat' first
    | with_reducible exact Keep.rfl'
    | with_reducible assumption
    | (with_reducible apply Keep.step State.amo_keep; decide)
    | with_reducible refine KeepX.next ?_
    | split
    | dsimp only

theorem execAmoswp_keep {c : CoreId} {t : TeNo} {rd : Reg} {ra : Reg} {rb : Reg} {s : State} :
    KeepX 45317471250415616 s (execAmoswp c t rd ra rb s) := by
  unfold execAmoswp; try dsimp only
  repeat' first
    | with_reducible exact Keep.rfl'
    | with_reducible assumption
    | (with_reducible apply Keep.step State.amo_keep; decide)
    | with_reducible refine KeepX.next ?_
    | split
    | dsimp only

theorem execFence_keep {c : CoreId} {t : TeNo} {s : State} :
    KeepX 70825965453382267 s (execFence c t s) := by
  unfold execFence; try dsimp only
  repeat' first
    | with_reducible exact Keep.rfl'
    | with_reducible assumption
    | with_reducible apply State.instr_keepH
    | with_reducible refine KeepX.next ?_
    | with_reducible exact KeepT.fault
    | with_reducible exact KeepT.stall
    | with_reducible apply KeepT.ok
    | with_reducible refine KeepT.left (fun _ _ _ => ?_)
    | with_reducible apply KeepT.ite
    | decide
    | intro _
    | split
    | dsimp only

theorem State.itemUses_keep {s : State} {it : Item} {p : PortId} :
    Keep 72057594037927679 s (State.itemUses s it p) := by
  unfold State.itemUses; try dsimp only
  repeat' first
    | with_reducible exact Keep.rfl'
    | with_reducible assumption
    | (with_reducible apply Keep.step State.usePort_keep; decide)
    | split
    | dsimp only

theorem State.issueHld_keep {s : State} {x : TeCtx} {tk : Tok} {addr : Nat} {len : Nat} :
    Keep 70896355140165631 s (State.issueHld s x tk addr len).2 := by
  unfold State.issueHld; try dsimp only
  repeat' first
    | with_reducible exact Keep.rfl'
    | with_reducible assumption
    | (with_reducible apply Keep.step State.addReqs_keep; decide)
    | (with_reducible apply Keep.step State.count_keep; decide)
    | (with_reducible apply Keep.step State.countDemand_keep; decide)
    | (with_reducible apply Keep.step State.failCount_keep; decide)
    | with_reducible apply Keep.ite
    | with_reducible apply Keep.iteSnd
    | split
    | dsimp only
theorem State.issueHld_keepE {s : State} {x : TeCtx} {tk : Tok} {addr : Nat} {len : Nat} {rE tE} (hE : (State.issueHld s x tk addr len) = (rE, tE)) : Keep 70896355140165631 s tE := by
  have k := @State.issueHld_keep s x tk addr len; rw [hE] at k; exact k

theorem execHld_keep {c : CoreId} {t : TeNo} {tk : Tok} {rs : Reg} {rh : Reg} {rl : Reg} {s : State} :
    KeepX 70825948273513083 s (execHld c t tk rs rh rl s) := by
  unfold execHld; try dsimp only
  repeat' first
    | with_reducible exact Keep.rfl'
    | with_reducible assumption
    | with_reducible apply State.instr_keepH
    | (with_reducible apply Keep.step State.issueHld_keep; decide)
    | with_reducible refine Keep.step (State.issueHld_keepE (by assumption)) (by decide) ?_
    | with_reducible refine KeepX.next ?_
    | with_reducible exact KeepT.fault
    | with_reducible exact KeepT.stall
    | with_reducible apply KeepT.ok
    | with_reducible refine KeepT.left (fun _ _ _ => ?_)
    | with_reducible apply KeepT.ite
    | decide
    | intro _
    | with_reducible apply Keep.ite
    | split
    | dsimp only

theorem execHst_keep {c : CoreId} {t : TeNo} {tk : Tok} {rs : Reg} {rh : Reg} {rl : Reg} {s : State} :
    KeepX 70825948273513083 s (execHst c t tk rs rh rl s) := by
  unfold execHst; try dsimp only
  repeat' first
    | with_reducible exact Keep.rfl'
    | with_reducible assumption
    | with_reducible apply State.instr_keepH
    | (with_reducible apply Keep.step State.itemUses_keep; decide)
    | (with_reducible apply Keep.step State.writeHost_keep; decide)
    | with_reducible refine Keep.step (State.writeHost_keepE (by assumption)) (by decide) ?_
    | with_reducible refine KeepX.next ?_
    | with_reducible exact KeepT.fault
    | with_reducible exact KeepT.stall
    | with_reducible apply KeepT.ok
    | with_reducible refine KeepT.left (fun _ _ _ => ?_)
    | with_reducible apply KeepT.ite
    | decide
    | intro _
    | with_reducible apply Keep.ite
    | split
    | dsimp only

theorem State.tokenComplete_keep {s : State} {c : CoreId} {t : TeNo} {slot : Fin 2} {tk : Tok} {data : Option (List Byte)} :
    Keep 70896372320032767 s (State.tokenComplete s c t slot tk data) := by
  unfold State.tokenComplete; try dsimp only
  repeat' first
    | with_reducible exact Keep.rfl'
    | with_reducible assumption
    | (with_reducible apply Keep.step State.endReqs_keep; decide)
    | (with_reducible apply Keep.step State.failCount_keep; decide)
    | (with_reducible apply Keep.step State.setTeSt_keep; decide)
    | with_reducible apply Keep.ite
    | split
    | dsimp only

theorem execHostTokenComplete_keep {c : CoreId} {t : TeNo} {slot : Fin 2} {tk : Tok} {data : Option (List Byte)} {s : State} :
    KeepX 70896372320032767 s (execHostTokenComplete c t slot tk data s) := by
  unfold execHostTokenComplete; try dsimp only
  repeat' first
    | with_reducible exact Keep.rfl'
    | with_reducible assumption
    | (with_reducible apply Keep.step State.tokenComplete_keep; decide)
    | with_reducible refine KeepX.next ?_
    | split
    | dsimp only

theorem execHwait_keep {c : CoreId} {t : TeNo} {rd : Reg} {tk : Tok} {s : State} :
    KeepX 70825965453382267 s (execHwait c t rd tk s) := by
  unfold execHwait; try dsimp only
  repeat' first
    | with_reducible exact Keep.rfl'
    | with_reducible assumption
    | with_reducible apply State.instr_keepH
    | with_reducible refine KeepX.next ?_
    | with_reducible exact KeepT.fault
    | with_reducible exact KeepT.stall
    | with_reducible apply KeepT.ok
    | with_reducible refine KeepT.left (fun _ _ _ => ?_)
    | with_reducible apply KeepT.ite
    | decide
    | intro _
    | split
    | dsimp only

theorem State.branch_keep {s : State} {c : CoreId} {t : TeNo} {ra : Reg} {rb : Reg} {off : Half} {p : W64 → W64 → Bool} :
    Keep 70825965453382267 s (State.branch s c t ra rb off p) := by
  unfold State.branch; try dsimp only
  repeat' first
    | with_reducible exact Keep.rfl'
    | with_reducible assumption
    | with_reducible apply State.instr_keepH
    | with_reducible exact KeepT.fault
    | with_reducible exact KeepT.stall
    | with_reducible apply KeepT.ok
    | with_reducible refine KeepT.left (fun _ _ _ => ?_)
    | with_reducible apply KeepT.ite
    | decide
    | intro _
    | with_reducible apply Keep.ite
    | split
    | dsimp only

theorem execBeq_keep {c : CoreId} {t : TeNo} {ra : Reg} {rb : Reg} {off : Half} {s : State} :
    KeepX 70825965453382267 s (execBeq c t ra rb off s) := by
  unfold execBeq; try dsimp only
  repeat' first
    | with_reducible exact Keep.rfl'
    | with_reducible assumption
    | (with_reducible apply Keep.step State.branch_keep; decide)
    | with_reducible refine KeepX.next ?_
    | split
    | dsimp only

theorem execBne_keep {c : CoreId} {t : TeNo} {ra : Reg} {rb : Reg} {off : Half} {s : State} :
    KeepX 70825965453382267 s (execBne c t ra rb off s) := by
  unfold execBne; try dsimp only
  repeat' first
    | with_reducible exact Keep.rfl'
    | with_reducible assumption
    | (with_reducible apply Keep.step State.branch_keep; decide)
    | with_reducible refine KeepX.next ?_
    | split
    | dsimp only

theorem execBlt_keep {c : CoreId} {t : TeNo} {ra : Reg} {rb : Reg} {off : Half} {s : State} :
    KeepX 70825965453382267 s (execBlt c t ra rb off s) := by
  unfold execBlt; try dsimp only
  repeat' first
    | with_reducible exact Keep.rfl'
    | with_reducible assumption
    | (with_reducible apply Keep.step State.branch_keep; decide)
    | with_reducible refine KeepX.next ?_
    | split
    | dsimp only

theorem execBge_keep {c : CoreId} {t : TeNo} {ra : Reg} {rb : Reg} {off : Half} {s : State} :
    KeepX 70825965453382267 s (execBge c t ra rb off s) := by
  unfold execBge; try dsimp only
  repeat' first
    | with_reducible exact Keep.rfl'
    | with_reducible assumption
    | (with_reducible apply Keep.step State.branch_keep; decide)
    | with_reducible refine KeepX.next ?_
    | split
    | dsimp only

theorem execBltu_keep {c : CoreId} {t : TeNo} {ra : Reg} {rb : Reg} {off : Half} {s : State} :
    KeepX 70825965453382267 s (execBltu c t ra rb off s) := by
  unfold execBltu; try dsimp only
  repeat' first
    | with_reducible exact Keep.rfl'
    | with_reducible assumption
    | (with_reducible apply Keep.step State.branch_keep; decide)
    | with_reducible refine KeepX.next ?_
    | split
    | dsimp only

theorem execBgeu_keep {c : CoreId} {t : TeNo} {ra : Reg} {rb : Reg} {off : Half} {s : State} :
    KeepX 70825965453382267 s (execBgeu c t ra rb off s) := by
  unfold execBgeu; try dsimp only
  repeat' first
    | with_reducible exact Keep.rfl'
    | with_reducible assumption
    | (with_reducible apply Keep.step State.branch_keep; decide)
    | with_reducible refine KeepX.next ?_
    | split
    | dsimp only

theorem execJmp_keep {c : CoreId} {t : TeNo} {off : BitVec 26} {s : State} :
    KeepX 70825965453382267 s (execJmp c t off s) := by
  unfold execJmp; try dsimp only
  repeat' first
    | with_reducible exact Keep.rfl'
    | with_reducible assumption
    | with_reducible apply State.instr_keepH
    | with_reducible refine KeepX.next ?_
    | with_reducible exact KeepT.fault
    | with_reducible exact KeepT.stall
    | with_reducible apply KeepT.ok
    | with_reducible refine KeepT.left (fun _ _ _ => ?_)
    | with_reducible apply KeepT.ite
    | decide
    | intro _
    | split
    | dsimp only

theorem execCall_keep {c : CoreId} {t : TeNo} {off : BitVec 26} {s : State} :
    KeepX 70825965453382267 s (execCall c t off s) := by
  unfold execCall; try dsimp only
  repeat' first
    | with_reducible exact Keep.rfl'
    | with_reducible assumption
    | with_reducible apply State.instr_keepH
    | with_reducible refine KeepX.next ?_
    | with_reducible exact KeepT.fault
    | with_reducible exact KeepT.stall
    | with_reducible apply KeepT.ok
    | with_reducible refine KeepT.left (fun _ _ _ => ?_)
    | with_reducible apply KeepT.ite
    | decide
    | intro _
    | split
    | dsimp only

theorem execRet_keep {c : CoreId} {t : TeNo} {s : State} :
    KeepX 70825965453382267 s (execRet c t s) := by
  unfold execRet; try dsimp only
  repeat' first
    | with_reducible exact Keep.rfl'
    | with_reducible assumption
    | with_reducible apply State.instr_keepH
    | with_reducible refine KeepX.next ?_
    | with_reducible exact KeepT.fault
    | with_reducible exact KeepT.stall
    | with_reducible apply KeepT.ok
    | with_reducible refine KeepT.left (fun _ _ _ => ?_)
    | with_reducible apply KeepT.ite
    | decide
    | intro _
    | split
    | dsimp only

theorem execLoop_keep {c : CoreId} {t : TeNo} {rc : Reg} {bound : BitVec 12} {len : BitVec 9} {s : State} :
    KeepX 70825965453382267 s (execLoop c t rc bound len s) := by
  unfold execLoop; try dsimp only
  repeat' first
    | with_reducible exact Keep.rfl'
    | with_reducible assumption
    | with_reducible apply State.instr_keepH
    | with_reducible refine KeepX.next ?_
    | with_reducible exact KeepT.fault
    | with_reducible exact KeepT.stall
    | with_reducible apply KeepT.ok
    | with_reducible refine KeepT.left (fun _ _ _ => ?_)
    | with_reducible apply KeepT.ite
    | decide
    | intro _
    | with_reducible apply Keep.ite
    | split
    | dsimp only

theorem execLbrk_keep {c : CoreId} {t : TeNo} {s : State} :
    KeepX 70825965453382267 s (execLbrk c t s) := by
  unfold execLbrk; try dsimp only
  repeat' first
    | with_reducible exact Keep.rfl'
    | with_reducible assumption
    | with_reducible apply State.instr_keepH
    | with_reducible refine KeepX.next ?_
    | with_reducible exact KeepT.fault
    | with_reducible exact KeepT.stall
    | with_reducible apply KeepT.ok
    | with_reducible refine KeepT.left (fun _ _ _ => ?_)
    | with_reducible apply KeepT.ite
    | decide
    | intro _
    | split
    | dsimp only

theorem execLidx_keep {c : CoreId} {t : TeNo} {rd : Reg} {s : State} :
    KeepX 70685227965026939 s (execLidx c t rd s) := by
  unfold execLidx; try dsimp only
  repeat' first
    | with_reducible exact Keep.rfl'
    | with_reducible assumption
    | (with_reducible apply Keep.step State.draw_keep; decide)
    | with_reducible refine Keep.step (State.draw_keepE (by assumption)) (by decide) ?_
    | with_reducible apply State.instr_keepH
    | with_reducible refine KeepX.next ?_
    | with_reducible exact KeepT.fault
    | with_reducible exact KeepT.stall
    | with_reducible apply KeepT.ok
    | with_reducible refine KeepT.left (fun _ _ _ => ?_)
    | with_reducible apply KeepT.ite
    | decide
    | intro _
    | split
    | dsimp only

theorem State.countRecords_keep {s : State} {c : CoreId} {it : Item} {n : Nat} :
    Keep 72022272226877439 s (State.countRecords s c it n) := by
  unfold State.countRecords; try dsimp only
  repeat' first
    | with_reducible exact Keep.rfl'
    | with_reducible assumption
    | (with_reducible apply Keep.step State.count_keep; decide)
    | split
    | dsimp only

theorem execEmit_keep {c : CoreId} {t : TeNo} {rd : Reg} {ra : Reg} {rb : Reg} {s : State} :
    KeepX 70825965453382267 s (execEmit c t rd ra rb s) := by
  unfold execEmit; try dsimp only
  repeat' first
    | with_reducible exact Keep.rfl'
    | with_reducible assumption
    | (with_reducible apply Keep.step State.countRecords_keep; decide)
    | with_reducible apply State.instr_keepH
    | with_reducible refine KeepX.next ?_
    | with_reducible exact KeepT.fault
    | with_reducible exact KeepT.stall
    | with_reducible apply KeepT.ok
    | with_reducible refine KeepT.left (fun _ _ _ => ?_)
    | with_reducible apply KeepT.ite
    | decide
    | intro _
    | with_reducible apply Keep.ite
    | split
    | dsimp only

theorem execBudg_keep {c : CoreId} {t : TeNo} {rd : Reg} {ra : Reg} {s : State} :
    KeepX 70825965453382267 s (execBudg c t rd ra s) := by
  unfold execBudg; try dsimp only
  repeat' first
    | with_reducible exact Keep.rfl'
    | with_reducible assumption
    | with_reducible apply State.instr_keepH
    | with_reducible refine KeepX.next ?_
    | with_reducible exact KeepT.fault
    | with_reducible exact KeepT.stall
    | with_reducible apply KeepT.ok
    | with_reducible refine KeepT.left (fun _ _ _ => ?_)
    | with_reducible apply KeepT.ite
    | decide
    | intro _
    | with_reducible apply Keep.ite
    | split
    | dsimp only

theorem execTick_keep {c : CoreId} {t : TeNo} {rd : Reg} {s : State} :
    KeepX 70825965453377595 s (execTick c t rd s) := by
  unfold execTick; try dsimp only
  repeat' first
    | with_reducible exact Keep.rfl'
    | with_reducible assumption
    | with_reducible apply State.instr_keepH
    | (with_reducible apply Keep.step State.suspend_keep; decide)
    | with_reducible refine KeepX.next ?_
    | with_reducible exact KeepT.fault
    | with_reducible exact KeepT.stall
    | with_reducible apply KeepT.ok
    | with_reducible refine KeepT.left (fun _ _ _ => ?_)
    | with_reducible apply KeepT.ite
    | decide
    | intro _
    | with_reducible apply Keep.ite
    | split
    | dsimp only

theorem execDone_keep {c : CoreId} {t : TeNo} {s : State} :
    KeepX 70685142062531195 s (execDone c t s) := by
  unfold execDone; try dsimp only
  repeat' first
    | with_reducible exact Keep.rfl'
    | with_reducible assumption
    | (with_reducible apply Keep.step State.countRecords_keep; decide)
    | (with_reducible apply Keep.step State.endItem_keep; decide)
    | with_reducible apply State.instr_keepH
    | (with_reducible apply Keep.step State.stockRun_keep; decide)
    | with_reducible refine Keep.step (State.stockRun_keepE (by assumption)) (by decide) ?_
    | with_reducible refine KeepX.next ?_
    | with_reducible exact KeepT.fault
    | with_reducible exact KeepT.stall
    | with_reducible apply KeepT.ok
    | with_reducible refine KeepT.left (fun _ _ _ => ?_)
    | with_reducible apply KeepT.ite
    | decide
    | intro _
    | with_reducible apply Keep.ite
    | split
    | dsimp only

theorem execPostc_keep {c : CoreId} {t : TeNo} {ra : Reg} {rb : Reg} {s : State} :
    KeepX 70825965453382267 s (execPostc c t ra rb s) := by
  unfold execPostc; try dsimp only
  repeat' first
    | with_reducible exact Keep.rfl'
    | with_reducible assumption
    | (with_reducible apply Keep.step State.finish_keep; decide)
    | with_reducible apply State.instr_keepH
    | with_reducible refine KeepX.next ?_
    | with_reducible exact KeepT.fault
    | with_reducible exact KeepT.stall
    | with_reducible apply KeepT.ok
    | with_reducible refine KeepT.left (fun _ _ _ => ?_)
    | with_reducible apply KeepT.ite
    | decide
    | intro _
    | with_reducible apply Keep.ite
    | split
    | dsimp only

theorem State.sendFrame_keep {s : State} {x : TeCtx} {a : Seat} {t : Tunnel} {cls : Fin 8} {b : List Byte} :
    Keep 72022268464586751 s (State.sendFrame s x a t cls b).2 := by
  unfold State.sendFrame; try dsimp only
  repeat' first
    | with_reducible exact Keep.rfl'
    | with_reducible assumption
    | (with_reducible apply Keep.step State.allowIn_keep; decide)
    | with_reducible refine Keep.step (State.allowIn_keepE (by assumption)) (by decide) ?_
    | (with_reducible apply Keep.step State.enterTun_keep; decide)
    | split
    | dsimp only
theorem State.sendFrame_keepE {s : State} {x : TeCtx} {a : Seat} {t : Tunnel} {cls : Fin 8} {b : List Byte} {rE tE} (hE : (State.sendFrame s x a t cls b) = (rE, tE)) : Keep 72022268464586751 s tE := by
  have k := @State.sendFrame_keep s x a t cls b; rw [hE] at k; exact k

theorem execSend_keep {c : CoreId} {t : TeNo} {rd : Reg} {ra : Reg} {rb : Reg} {s : State} :
    KeepX 70825965453382267 s (execSend c t rd ra rb s) := by
  unfold execSend; try dsimp only
  repeat' first
    | with_reducible exact Keep.rfl'
    | with_reducible assumption
    | with_reducible apply State.instr_keepH
    | (with_reducible apply Keep.step State.sendFrame_keep; decide)
    | with_reducible refine Keep.step (State.sendFrame_keepE (by assumption)) (by decide) ?_
    | with_reducible refine KeepX.next ?_
    | with_reducible exact KeepT.fault
    | with_reducible exact KeepT.stall
    | with_reducible apply KeepT.ok
    | with_reducible refine KeepT.left (fun _ _ _ => ?_)
    | with_reducible apply KeepT.ite
    | decide
    | intro _
    | with_reducible apply Keep.ite
    | split
    | dsimp only

theorem execEvt_keep {c : CoreId} {t : TeNo} {ra : Reg} {s : State} :
    KeepX 70263015499960955 s (execEvt c t ra s) := by
  unfold execEvt; try dsimp only
  repeat' first
    | with_reducible exact Keep.rfl'
    | with_reducible assumption
    | with_reducible apply State.instr_keepH
    | (with_reducible apply Keep.step State.msixFor_keep; decide)
    | with_reducible refine KeepX.next ?_
    | with_reducible exact KeepT.fault
    | with_reducible exact KeepT.stall
    | with_reducible apply KeepT.ok
    | with_reducible refine KeepT.left (fun _ _ _ => ?_)
    | with_reducible apply KeepT.ite
    | decide
    | intro _
    | with_reducible apply Keep.ite
    | split
    | dsimp only

theorem execQitem_keep {c : CoreId} {t : TeNo} {rd : Reg} {ra : Reg} {rb : Reg} {s : State} :
    KeepX 70825965453377595 s (execQitem c t rd ra rb s) := by
  unfold execQitem; try dsimp only
  repeat' first
    | with_reducible exact Keep.rfl'
    | with_reducible assumption
    | with_reducible apply State.instr_keepH
    | (with_reducible apply Keep.step State.readyAt_keep; decide)
    | with_reducible refine KeepX.next ?_
    | with_reducible exact KeepT.fault
    | with_reducible exact KeepT.stall
    | with_reducible apply KeepT.ok
    | with_reducible refine KeepT.left (fun _ _ _ => ?_)
    | with_reducible apply KeepT.ite
    | decide
    | intro _
    | with_reducible apply Keep.ite
    | split
    | dsimp only

theorem execRdctx_keep {c : CoreId} {t : TeNo} {rd : Reg} {sel : Half} {s : State} :
    KeepX 70825965453382267 s (execRdctx c t rd sel s) := by
  unfold execRdctx; try dsimp only
  repeat' first
    | with_reducible exact Keep.rfl'
    | with_reducible assumption
    | with_reducible apply State.instr_keepH
    | with_reducible refine KeepX.next ?_
    | with_reducible exact KeepT.fault
    | with_reducible exact KeepT.stall
    | with_reducible apply KeepT.ok
    | with_reducible refine KeepT.left (fun _ _ _ => ?_)
    | with_reducible apply KeepT.ite
    | decide
    | intro _
    | split
    | dsimp only

theorem execRdut_keep {c : CoreId} {t : TeNo} {rd : Reg} {s : State} :
    KeepX 70825965453382267 s (execRdut c t rd s) := by
  unfold execRdut; try dsimp only
  repeat' first
    | with_reducible exact Keep.rfl'
    | with_reducible assumption
    | with_reducible apply State.instr_keepH
    | with_reducible refine KeepX.next ?_
    | with_reducible exact KeepT.fault
    | with_reducible exact KeepT.stall
    | with_reducible apply KeepT.ok
    | with_reducible refine KeepT.left (fun _ _ _ => ?_)
    | with_reducible apply KeepT.ite
    | decide
    | intro _
    | split
    | dsimp only

theorem execCsrr_keep {c : CoreId} {t : TeNo} {rd : Reg} {csr : Half} {s : State} :
    KeepX 70825965453382267 s (execCsrr c t rd csr s) := by
  unfold execCsrr; try dsimp only
  repeat' first
    | with_reducible exact Keep.rfl'
    | with_reducible assumption
    | with_reducible apply State.instr_keepH
    | with_reducible refine KeepX.next ?_
    | with_reducible exact KeepT.fault
    | with_reducible exact KeepT.stall
    | with_reducible apply KeepT.ok
    | with_reducible refine KeepT.left (fun _ _ _ => ?_)
    | with_reducible apply KeepT.ite
    | decide
    | intro _
    | with_reducible apply Keep.ite
    | split
    | dsimp only

theorem execCsrw_keep {c : CoreId} {t : TeNo} {ra : Reg} {csr : Half} {s : State} :
    KeepX 70825965453382267 s (execCsrw c t ra csr s) := by
  unfold execCsrw; try dsimp only
  repeat' first
    | with_reducible exact Keep.rfl'
    | with_reducible assumption
    | with_reducible apply State.instr_keepH
    | (with_reducible apply Keep.step State.setTeSt_keep; decide)
    | with_reducible refine KeepX.next ?_
    | with_reducible exact KeepT.fault
    | with_reducible exact KeepT.stall
    | with_reducible apply KeepT.ok
    | with_reducible refine KeepT.left (fun _ _ _ => ?_)
    | with_reducible apply KeepT.ite
    | decide
    | intro _
    | with_reducible apply Keep.ite
    | split
    | dsimp only

theorem State.leaveHandler_keep {s : State} {c : CoreId} {t : TeNo} :
    Keep 72057594037925887 s (State.leaveHandler s c t) := by
  unfold State.leaveHandler; try dsimp only
  repeat' first
    | with_reducible exact Keep.rfl'
    | with_reducible assumption
    | (with_reducible apply Keep.step State.setTeSt_keep; decide)
    | split
    | dsimp only

theorem execEret_keep {c : CoreId} {t : TeNo} {s : State} :
    KeepX 70825965453382267 s (execEret c t s) := by
  unfold execEret; try dsimp only
  repeat' first
    | with_reducible exact Keep.rfl'
    | with_reducible assumption
    | with_reducible apply State.instr_keepH
    | (with_reducible apply Keep.step State.leaveHandler_keep; decide)
    | with_reducible refine KeepX.next ?_
    | with_reducible exact KeepT.fault
    | with_reducible exact KeepT.stall
    | with_reducible apply KeepT.ok
    | with_reducible refine KeepT.left (fun _ _ _ => ?_)
    | with_reducible apply KeepT.ite
    | decide
    | intro _
    | with_reducible apply Keep.ite
    | split
    | dsimp only

theorem execWfi_keep {c : CoreId} {t : TeNo} {s : State} :
    KeepX 70825965453382267 s (execWfi c t s) := by
  unfold execWfi; try dsimp only
  repeat' first
    | with_reducible exact Keep.rfl'
    | with_reducible assumption
    | with_reducible apply State.instr_keepH
    | (with_reducible apply Keep.step State.setTeSt_keep; decide)
    | with_reducible refine KeepX.next ?_
    | with_reducible exact KeepT.fault
    | with_reducible exact KeepT.stall
    | with_reducible apply KeepT.ok
    | with_reducible refine KeepT.left (fun _ _ _ => ?_)
    | with_reducible apply KeepT.ite
    | decide
    | intro _
    | with_reducible apply Keep.ite
    | split
    | dsimp only

theorem State.enterHandler_keep {s : State} {c : CoreId} {t : TeNo} {n : Nat} :
    Keep 72022272226875391 s (State.enterHandler s c t n) := by
  unfold State.enterHandler; try dsimp only
  repeat' first
    | with_reducible exact Keep.rfl'
    | with_reducible assumption
    | (with_reducible apply Keep.step State.retire_keep; decide)
    | (with_reducible apply Keep.step State.setEvtCore_keep; decide)
    | (with_reducible apply Keep.step State.setTeSt_keep; decide)
    | with_reducible refine Keep.getD ?_ ?_
    | with_reducible apply Keep.ite
    | split
    | dsimp only

theorem State.eventEntry_keep {s : State} {c : CoreId} {t : TeNo} :
    Keep 72022272226875391 s (State.eventEntry s c t) := by
  unfold State.eventEntry; try dsimp only
  repeat' first
    | with_reducible exact Keep.rfl'
    | with_reducible assumption
    | (with_reducible apply Keep.step State.enterHandler_keep; decide)
    | with_reducible apply Keep.ite
    | split
    | dsimp only

theorem State.supervisorTakes_keep {s : State} {c : CoreId} :
    Keep 72057594037919743 s (State.supervisorTakes s c) := by
  unfold State.supervisorTakes; try dsimp only
  repeat' first
    | with_reducible exact Keep.rfl'
    | with_reducible assumption
    | (with_reducible apply Keep.step State.setEvtCore_keep; decide)
    | with_reducible apply Keep.ite
    | split
    | dsimp only

theorem execEventEntry_keep {c : CoreId} {t : Fin 33} {s : State} :
    KeepX 72022272226875391 s (execEventEntry c t s) := by
  unfold execEventEntry; try dsimp only
  repeat' first
    | with_reducible exact Keep.rfl'
    | with_reducible assumption
    | (with_reducible apply Keep.step State.eventEntry_keep; decide)
    | (with_reducible apply Keep.step State.supervisorTakes_keep; decide)
    | with_reducible refine KeepX.next ?_
    | with_reducible apply Keep.ite
    | split
    | dsimp only

end Sys2Proof.Machine
end

