-- ==== Sys2Proof/Laws/KeepExec.lean ====
section
/-! SUPPORT. What no command does: it touches no other command's place in the queue, it leaves every memory in canonical
form, and unit time never goes back but to start again at 0. -/

namespace Sys2Proof.Machine

/-- Unit time does not go back, or both clocks are at 0. -/
def UtUp (s t : State) : Prop := (s.time.utA ≤ t.time.utA ∧ s.time.utB ≤ t.time.utB) ∨ t.part0 = (0, 0)

theorem UtUp.same {s t : State} (e : t.part0 = s.part0) : s.time.utA ≤ t.time.utA ∧ s.time.utB ≤ t.time.utB := by
  simp only [State.part0, Prod.mk.injEq] at e
  omega

theorem UtUp.after {s u t : State} (e : t.part0 = u.part0) (h : s.time.utA ≤ u.time.utA ∧ s.time.utB ≤ u.time.utB) :
    s.time.utA ≤ t.time.utA ∧ s.time.utB ≤ t.time.utB := by
  simp only [State.part0, Prod.mk.injEq] at e
  omega

theorem UtUp.of_keep {s t : State} (h : Keep 18014398509481984 s t) : UtUp s t := .inl (h.timeUp (by decide))

theorem UtUp.of_or {s t : State} (h : Keep 36028797018963968 s t) : UtUp s t :=
  (h.timeOr (by decide)).elim (fun e => .inl (UtUp.same e)) .inr

theorem UtUp.of_arrive {s t : State} {ut : Nat} (h : Keep 36028797018963968 (s.arrive ut) t) : UtUp s t := by
  rcases h.timeOr (by decide) with e | e
  · exact .inl (UtUp.after e (State.arrive_keep.timeUp (by decide)))
  · exact .inr e

/-- The same of a command's outcome. -/
def UtUpX (s : State) (o : Host.Outcome State Fault Refusal) : Prop := ∀ t, o = .next t → UtUp s t

theorem execStartStepDone_ut {r : StepResult} {ut : Nat} {s : State} : UtUpX s (execStartStepDone r ut s) := by
  intro t e
  unfold execStartStepDone at e; cases e
  refine UtUp.of_arrive (ut := ut) ?_
  repeat' first
    | with_reducible exact Keep.rfl'
    | with_reducible assumption
    | (with_reducible apply Keep.step State.arrive_keep; decide)
    | (with_reducible apply Keep.step State.stepDone_keep; decide)
    | (with_reducible apply Keep.step State.stepLine_keep; decide)
    | with_reducible refine KeepX.next ?_
    | split
    | dsimp only

theorem execStartWatchdog_ut {ut : Nat} {s : State} : UtUpX s (execStartWatchdog ut s) := by
  intro t e
  unfold execStartWatchdog at e; cases e
  refine UtUp.of_arrive (ut := ut) ?_
  repeat' first
    | with_reducible exact Keep.rfl'
    | with_reducible assumption
    | (with_reducible apply Keep.step State.arrive_keep; decide)
    | (with_reducible apply Keep.step State.startFails_keep; decide)
    | with_reducible refine KeepX.next ?_
    | with_reducible apply Keep.ite
    | split
    | dsimp only

theorem execSupplyInputLost_ut {x : SupplyId} {ut : Nat} {s : State} : UtUpX s (execSupplyInputLost x ut s) := by
  intro t e
  unfold execSupplyInputLost at e; cases e
  refine UtUp.of_arrive (ut := ut) ?_
  repeat' first
    | with_reducible exact Keep.rfl'
    | with_reducible assumption
    | (with_reducible apply Keep.step State.arrive_keep; decide)
    | (with_reducible apply Keep.step State.inputLost_keep; decide)
    | with_reducible refine KeepX.next ?_
    | split
    | dsimp only

theorem execSupplyInputGood_ut {x : SupplyId} {ut : Nat} {s : State} : UtUpX s (execSupplyInputGood x ut s) := by
  intro t e
  unfold execSupplyInputGood at e; cases e
  refine UtUp.of_arrive (ut := ut) ?_
  repeat' first
    | with_reducible exact Keep.rfl'
    | with_reducible assumption
    | (with_reducible apply Keep.step State.arrive_keep; decide)
    | (with_reducible apply Keep.step State.inputGood_keep; decide)
    | with_reducible refine KeepX.next ?_
    | split
    | dsimp only

theorem execSupplyInserted_ut {x : SupplyId} {ut : Nat} {s : State} : UtUpX s (execSupplyInserted x ut s) := by
  intro t e
  unfold execSupplyInserted at e; cases e
  refine UtUp.of_arrive (ut := ut) ?_
  repeat' first
    | with_reducible exact Keep.rfl'
    | with_reducible assumption
    | (with_reducible apply Keep.step State.arrive_keep; decide)
    | (with_reducible apply Keep.step State.inserted_keep; decide)
    | with_reducible refine KeepX.next ?_
    | split
    | dsimp only

theorem execSupplyWithdrawn_ut {x : SupplyId} {ut : Nat} {s : State} : UtUpX s (execSupplyWithdrawn x ut s) := by
  intro t e
  unfold execSupplyWithdrawn at e; cases e
  refine UtUp.of_arrive (ut := ut) ?_
  repeat' first
    | with_reducible exact Keep.rfl'
    | with_reducible assumption
    | (with_reducible apply Keep.step State.arrive_keep; decide)
    | (with_reducible apply Keep.step State.withdrawn_keep; decide)
    | with_reducible refine KeepX.next ?_
    | split
    | dsimp only

theorem execSupplyOutputFailed_ut {x : SupplyId} {ut : Nat} {s : State} : UtUpX s (execSupplyOutputFailed x ut s) := by
  intro t e
  unfold execSupplyOutputFailed at e; cases e
  refine UtUp.of_arrive (ut := ut) ?_
  repeat' first
    | with_reducible exact Keep.rfl'
    | with_reducible assumption
    | (with_reducible apply Keep.step State.arrive_keep; decide)
    | (with_reducible apply Keep.step State.outputFailed_keep; decide)
    | with_reducible refine KeepX.next ?_
    | split
    | dsimp only

theorem execSupplyPoll_ut {vinA : Nat} {vinB : Nat} {poutA : Nat} {poutB : Nat} {ut : Nat} {s : State} : UtUpX s (execSupplyPoll vinA vinB poutA poutB ut s) := by
  intro t e
  unfold execSupplyPoll at e; cases e
  refine UtUp.of_arrive (ut := ut) ?_
  repeat' first
    | with_reducible exact Keep.rfl'
    | with_reducible assumption
    | (with_reducible apply Keep.step State.arrive_keep; decide)
    | (with_reducible apply Keep.step State.poll_keep; decide)
    | with_reducible refine KeepX.next ?_
    | split
    | dsimp only

theorem execSelectHold_ut {ut : Nat} {s : State} : UtUpX s (execSelectHold ut s) := by
  intro t e
  unfold execSelectHold at e; cases e
  refine UtUp.of_arrive (ut := ut) ?_
  repeat' first
    | with_reducible exact Keep.rfl'
    | with_reducible assumption
    | (with_reducible apply Keep.step State.arrive_keep; decide)
    | (with_reducible apply Keep.step State.panelHold_keep; decide)
    | (with_reducible apply Keep.step State.setPanel_keep; decide)
    | (with_reducible apply Keep.step State.startHold_keep; decide)
    | with_reducible refine KeepX.next ?_
    | with_reducible apply Keep.ite
    | split
    | dsimp only

theorem execBusMasterWaitTimeout_ut {p : PortId} {set : CmdSet} {ut : Nat} {s : State} : UtUpX s (execBusMasterWaitTimeout p set ut s) := by
  intro t e
  unfold execBusMasterWaitTimeout at e; cases e
  refine UtUp.of_arrive (ut := ut) ?_
  repeat' first
    | with_reducible exact Keep.rfl'
    | with_reducible assumption
    | (with_reducible apply Keep.step State.arrive_keep; decide)
    | (with_reducible apply Keep.step State.endCmd_keep; decide)
    | (with_reducible apply Keep.step State.settle_keep; decide)
    | with_reducible refine KeepX.next ?_
    | with_reducible apply Keep.ite
    | split
    | dsimp only

/-- No command touches the queue, and every memory stays in canonical form. -/
theorem exec_keep (i : Instr) (s : State) : KeepX 9288674231451648 s (exec i s) := by
  cases i
  case managerControlWrite => exact KeepX.step execManagerControlWrite_keep (by decide) Keep.rfl'
  case managerLeaseRenew => exact KeepX.step execManagerLeaseRenew_keep (by decide) Keep.rfl'
  case leaseExpiry => exact KeepX.step execLeaseExpiry_keep (by decide) Keep.rfl'
  case semAcquireRead => exact KeepX.step execSemAcquireRead_keep (by decide) Keep.rfl'
  case semRelease => exact KeepX.step execSemRelease_keep (by decide) Keep.rfl'
  case create => exact KeepX.step execCreate_keep (by decide) Keep.rfl'
  case quiesce => exact KeepX.step execQuiesce_keep (by decide) Keep.rfl'
  case resume => exact KeepX.step execResume_keep (by decide) Keep.rfl'
  case reset => exact KeepX.step execReset_keep (by decide) Keep.rfl'
  case destroy => exact KeepX.step execDestroy_keep (by decide) Keep.rfl'
  case setSeats => exact KeepX.step execSetSeats_keep (by decide) Keep.rfl'
  case isletCmdBadOpcode => exact KeepX.step execIsletCmdBadOpcode_keep (by decide) Keep.rfl'
  case descriptorReadCompletion => exact KeepX.step execDescriptorReadCompletion_keep (by decide) Keep.rfl'
  case busMasterWaitTimeout => exact KeepX.step execBusMasterWaitTimeout_keep (by decide) Keep.rfl'
  case busMasterEnableSet => exact KeepX.step execBusMasterEnableSet_keep (by decide) Keep.rfl'
  case isletDrained => exact KeepX.step execIsletDrained_keep (by decide) Keep.rfl'
  case hostLinkDown => exact KeepX.step execHostLinkDown_keep (by decide) Keep.rfl'
  case hostLinkUp => exact KeepX.step execHostLinkUp_keep (by decide) Keep.rfl'
  case pairedTrafficReturn => exact KeepX.step execPairedTrafficReturn_keep (by decide) Keep.rfl'
  case pasidEnableCleared => exact KeepX.step execPasidEnableCleared_keep (by decide) Keep.rfl'
  case perstAsserted => exact KeepX.step execPerstAsserted_keep (by decide) Keep.rfl'
  case hostReadCompletion => exact KeepX.step execHostReadCompletion_keep (by decide) Keep.rfl'
  case completionTimeout => exact KeepX.step execCompletionTimeout_keep (by decide) Keep.rfl'
  case completionWriteFault => exact KeepX.step execCompletionWriteFault_keep (by decide) Keep.rfl'
  case doorbellPost => exact KeepX.step execDoorbellPost_keep (by decide) Keep.rfl'
  case doorbellInvalidate => exact KeepX.step execDoorbellInvalidate_keep (by decide) Keep.rfl'
  case queueConfigWrite => exact KeepX.step execQueueConfigWrite_keep (by decide) Keep.rfl'
  case ringConfigWrite => exact KeepX.step execRingConfigWrite_keep (by decide) Keep.rfl'
  case ringManagerConsumerWrite => exact KeepX.step execRingManagerConsumerWrite_keep (by decide) Keep.rfl'
  case cqConsumerWrite => exact KeepX.step execCqConsumerWrite_keep (by decide) Keep.rfl'
  case shadowConsumerLapse => exact KeepX.step execShadowConsumerLapse_keep (by decide) Keep.rfl'
  case entryFetchDone => exact KeepX.step execEntryFetchDone_keep (by decide) Keep.rfl'
  case entryTake => exact KeepX.step execEntryTake_keep (by decide) Keep.rfl'
  case nop => exact KeepX.step execNop_keep (by decide) Keep.rfl'
  case ringWriterPass => exact KeepX.step execRingWriterPass_keep (by decide) Keep.rfl'
  case shadowRecordUpdate => exact KeepX.step execShadowRecordUpdate_keep (by decide) Keep.rfl'
  case add => exact KeepX.step execAdd_keep (by decide) Keep.rfl'
  case sub => exact KeepX.step execSub_keep (by decide) Keep.rfl'
  case and => exact KeepX.step execAnd_keep (by decide) Keep.rfl'
  case or => exact KeepX.step execOr_keep (by decide) Keep.rfl'
  case xor => exact KeepX.step execXor_keep (by decide) Keep.rfl'
  case sll => exact KeepX.step execSll_keep (by decide) Keep.rfl'
  case srl => exact KeepX.step execSrl_keep (by decide) Keep.rfl'
  case sra => exact KeepX.step execSra_keep (by decide) Keep.rfl'
  case slt => exact KeepX.step execSlt_keep (by decide) Keep.rfl'
  case sltu => exact KeepX.step execSltu_keep (by decide) Keep.rfl'
  case mul => exact KeepX.step execMul_keep (by decide) Keep.rfl'
  case mulhu => exact KeepX.step execMulhu_keep (by decide) Keep.rfl'
  case divu => exact KeepX.step execDivu_keep (by decide) Keep.rfl'
  case remu => exact KeepX.step execRemu_keep (by decide) Keep.rfl'
  case addi => exact KeepX.step execAddi_keep (by decide) Keep.rfl'
  case andi => exact KeepX.step execAndi_keep (by decide) Keep.rfl'
  case ori => exact KeepX.step execOri_keep (by decide) Keep.rfl'
  case xori => exact KeepX.step execXori_keep (by decide) Keep.rfl'
  case slti => exact KeepX.step execSlti_keep (by decide) Keep.rfl'
  case sltiu => exact KeepX.step execSltiu_keep (by decide) Keep.rfl'
  case lui => exact KeepX.step execLui_keep (by decide) Keep.rfl'
  case slli => exact KeepX.step execSlli_keep (by decide) Keep.rfl'
  case srli => exact KeepX.step execSrli_keep (by decide) Keep.rfl'
  case srai => exact KeepX.step execSrai_keep (by decide) Keep.rfl'
  case bfx => exact KeepX.step execBfx_keep (by decide) Keep.rfl'
  case bfi => exact KeepX.step execBfi_keep (by decide) Keep.rfl'
  case ld8 => exact KeepX.step execLd8_keep (by decide) Keep.rfl'
  case ld16 => exact KeepX.step execLd16_keep (by decide) Keep.rfl'
  case ld32 => exact KeepX.step execLd32_keep (by decide) Keep.rfl'
  case ld64 => exact KeepX.step execLd64_keep (by decide) Keep.rfl'
  case st8 => exact KeepX.step execSt8_keep (by decide) Keep.rfl'
  case st16 => exact KeepX.step execSt16_keep (by decide) Keep.rfl'
  case st32 => exact KeepX.step execSt32_keep (by decide) Keep.rfl'
  case st64 => exact KeepX.step execSt64_keep (by decide) Keep.rfl'
  case amoadd => exact KeepX.step execAmoadd_keep (by decide) Keep.rfl'
  case amoswp => exact KeepX.step execAmoswp_keep (by decide) Keep.rfl'
  case fence => exact KeepX.step execFence_keep (by decide) Keep.rfl'
  case hld => exact KeepX.step execHld_keep (by decide) Keep.rfl'
  case hst => exact KeepX.step execHst_keep (by decide) Keep.rfl'
  case hostTokenComplete => exact KeepX.step execHostTokenComplete_keep (by decide) Keep.rfl'
  case hwait => exact KeepX.step execHwait_keep (by decide) Keep.rfl'
  case beq => exact KeepX.step execBeq_keep (by decide) Keep.rfl'
  case bne => exact KeepX.step execBne_keep (by decide) Keep.rfl'
  case blt => exact KeepX.step execBlt_keep (by decide) Keep.rfl'
  case bge => exact KeepX.step execBge_keep (by decide) Keep.rfl'
  case bltu => exact KeepX.step execBltu_keep (by decide) Keep.rfl'
  case bgeu => exact KeepX.step execBgeu_keep (by decide) Keep.rfl'
  case jmp => exact KeepX.step execJmp_keep (by decide) Keep.rfl'
  case call => exact KeepX.step execCall_keep (by decide) Keep.rfl'
  case ret => exact KeepX.step execRet_keep (by decide) Keep.rfl'
  case loop => exact KeepX.step execLoop_keep (by decide) Keep.rfl'
  case lbrk => exact KeepX.step execLbrk_keep (by decide) Keep.rfl'
  case lidx => exact KeepX.step execLidx_keep (by decide) Keep.rfl'
  case emit => exact KeepX.step execEmit_keep (by decide) Keep.rfl'
  case budg => exact KeepX.step execBudg_keep (by decide) Keep.rfl'
  case tick => exact KeepX.step execTick_keep (by decide) Keep.rfl'
  case tickResume => exact KeepX.step execTickResume_keep (by decide) Keep.rfl'
  case postc => exact KeepX.step execPostc_keep (by decide) Keep.rfl'
  case send => exact KeepX.step execSend_keep (by decide) Keep.rfl'
  case evt => exact KeepX.step execEvt_keep (by decide) Keep.rfl'
  case qitem => exact KeepX.step execQitem_keep (by decide) Keep.rfl'
  case done => exact KeepX.step execDone_keep (by decide) Keep.rfl'
  case rdctx => exact KeepX.step execRdctx_keep (by decide) Keep.rfl'
  case rdut => exact KeepX.step execRdut_keep (by decide) Keep.rfl'
  case csrr => exact KeepX.step execCsrr_keep (by decide) Keep.rfl'
  case csrw => exact KeepX.step execCsrw_keep (by decide) Keep.rfl'
  case eret => exact KeepX.step execEret_keep (by decide) Keep.rfl'
  case wfi => exact KeepX.step execWfi_keep (by decide) Keep.rfl'
  case faultRecordRelease => exact KeepX.step execFaultRecordRelease_keep (by decide) Keep.rfl'
  case eventEntry => exact KeepX.step execEventEntry_keep (by decide) Keep.rfl'
  case programLoadLoad => exact KeepX.step execProgramLoadLoad_keep (by decide) Keep.rfl'
  case programLoadUnload => exact KeepX.step execProgramLoadUnload_keep (by decide) Keep.rfl'
  case unitProgramLoad => exact KeepX.step execUnitProgramLoad_keep (by decide) Keep.rfl'
  case unitProgramUnload => exact KeepX.step execUnitProgramUnload_keep (by decide) Keep.rfl'
  case unitProgramBadField => exact KeepX.step execUnitProgramBadField_keep (by decide) Keep.rfl'
  case itemDispatch => exact KeepX.step execItemDispatch_keep (by decide) Keep.rfl'
  case preemption => exact KeepX.step execPreemption_keep (by decide) Keep.rfl'
  case preemptedRestore => exact KeepX.step execPreemptedRestore_keep (by decide) Keep.rfl'
  case clusterModeWrite => exact KeepX.step execClusterModeWrite_keep (by decide) Keep.rfl'
  case clusterModeChanged => exact KeepX.step execClusterModeChanged_keep (by decide) Keep.rfl'
  case seatTick => exact KeepX.step execSeatTick_keep (by decide) Keep.rfl'
  case maxWaitRead => exact KeepX.step execMaxWaitRead_keep (by decide) Keep.rfl'
  case eventEdge => exact KeepX.step execEventEdge_keep (by decide) Keep.rfl'
  case evtPendingWrite => exact KeepX.step execEvtPendingWrite_keep (by decide) Keep.rfl'
  case evtMaskWrite => exact KeepX.step execEvtMaskWrite_keep (by decide) Keep.rfl'
  case evtSourceWrite => exact KeepX.step execEvtSourceWrite_keep (by decide) Keep.rfl'
  case evtVectorBaseWrite => exact KeepX.step execEvtVectorBaseWrite_keep (by decide) Keep.rfl'
  case evtTimerWrite => exact KeepX.step execEvtTimerWrite_keep (by decide) Keep.rfl'
  case evtTimerFire => exact KeepX.step execEvtTimerFire_keep (by decide) Keep.rfl'
  case supervisorSweep => exact KeepX.step execSupervisorSweep_keep (by decide) Keep.rfl'
  case profile => exact KeepX.step execProfile_keep (by decide) Keep.rfl'
  case usbOpen => exact KeepX.step execUsbOpen_keep (by decide) Keep.rfl'
  case close => exact KeepX.step execClose_keep (by decide) Keep.rfl'
  case clearHalt => exact KeepX.step execClearHalt_keep (by decide) Keep.rfl'
  case abort => exact KeepX.step execAbort_keep (by decide) Keep.rfl'
  case usbControl => exact KeepX.step execUsbControl_keep (by decide) Keep.rfl'
  case usbBulk => exact KeepX.step execUsbBulk_keep (by decide) Keep.rfl'
  case usbInterrupt => exact KeepX.step execUsbInterrupt_keep (by decide) Keep.rfl'
  case usbIsoch => exact KeepX.step execUsbIsoch_keep (by decide) Keep.rfl'
  case results => exact KeepX.step execResults_keep (by decide) Keep.rfl'
  case timedOut => exact KeepX.step execTimedOut_keep (by decide) Keep.rfl'
  case isoResultLost => exact KeepX.step execIsoResultLost_keep (by decide) Keep.rfl'
  case rootPortReset => exact KeepX.step execRootPortReset_keep (by decide) Keep.rfl'
  case rootPortSuspend => exact KeepX.step execRootPortSuspend_keep (by decide) Keep.rfl'
  case rootPortResume => exact KeepX.step execRootPortResume_keep (by decide) Keep.rfl'
  case rootPortDisable => exact KeepX.step execRootPortDisable_keep (by decide) Keep.rfl'
  case rootPortPowerOff => exact KeepX.step execRootPortPowerOff_keep (by decide) Keep.rfl'
  case rootPortPowerOn => exact KeepX.step execRootPortPowerOn_keep (by decide) Keep.rfl'
  case rootPortBadCommand => exact KeepX.step execRootPortBadCommand_keep (by decide) Keep.rfl'
  case rootPortChangeClear => exact KeepX.step execRootPortChangeClear_keep (by decide) Keep.rfl'
  case rootHubOperation => exact KeepX.step execRootHubOperation_keep (by decide) Keep.rfl'
  case autonegComplete => exact KeepX.step execAutonegComplete_keep (by decide) Keep.rfl'
  case foreignEnergyTimeout => exact KeepX.step execForeignEnergyTimeout_keep (by decide) Keep.rfl'
  case foreignClear => exact KeepX.step execForeignClear_keep (by decide) Keep.rfl'
  case trainingComplete => exact KeepX.step execTrainingComplete_keep (by decide) Keep.rfl'
  case trainingTimeout => exact KeepX.step execTrainingTimeout_keep (by decide) Keep.rfl'
  case pcsLinkUp => exact KeepX.step execPcsLinkUp_keep (by decide) Keep.rfl'
  case straitFrameReceive => exact KeepX.step execStraitFrameReceive_keep (by decide) Keep.rfl'
  case nak => exact KeepX.step execNak_keep (by decide) Keep.rfl'
  case nakSend => exact KeepX.step execNakSend_keep (by decide) Keep.rfl'
  case reportDue => exact KeepX.step execReportDue_keep (by decide) Keep.rfl'
  case keepaliveDue => exact KeepX.step execKeepaliveDue_keep (by decide) Keep.rfl'
  case retransmitTimerExpiry => exact KeepX.step execRetransmitTimerExpiry_keep (by decide) Keep.rfl'
  case helloRetry => exact KeepX.step execHelloRetry_keep (by decide) Keep.rfl'
  case helloGiveUp => exact KeepX.step execHelloGiveUp_keep (by decide) Keep.rfl'
  case helloReply => exact KeepX.step execHelloReply_keep (by decide) Keep.rfl'
  case authRetry => exact KeepX.step execAuthRetry_keep (by decide) Keep.rfl'
  case goodbye => exact KeepX.step execGoodbye_keep (by decide) Keep.rfl'
  case phyLinkFail => exact KeepX.step execPhyLinkFail_keep (by decide) Keep.rfl'
  case silence => exact KeepX.step execSilence_keep (by decide) Keep.rfl'
  case holdDownExpiry => exact KeepX.step execHoldDownExpiry_keep (by decide) Keep.rfl'
  case seatLinkControlWrite => exact KeepX.step execSeatLinkControlWrite_keep (by decide) Keep.rfl'
  case rateTargetWrite => exact KeepX.step execRateTargetWrite_keep (by decide) Keep.rfl'
  case rateAck => exact KeepX.step execRateAck_keep (by decide) Keep.rfl'
  case rateAckTimeout => exact KeepX.step execRateAckTimeout_keep (by decide) Keep.rfl'
  case rateChangeStop => exact KeepX.step execRateChangeStop_keep (by decide) Keep.rfl'
  case rateChangeTimeout => exact KeepX.step execRateChangeTimeout_keep (by decide) Keep.rfl'
  case delayUpdate => exact KeepX.step execDelayUpdate_keep (by decide) Keep.rfl'
  case dockTime => exact KeepX.step execDockTime_keep (by decide) Keep.rfl'
  case calibrationSlot => exact KeepX.step execCalibrationSlot_keep (by decide) Keep.rfl'
  case dockKeyAdd => exact KeepX.step execDockKeyAdd_keep (by decide) Keep.rfl'
  case dockKeyRemove => exact KeepX.step execDockKeyRemove_keep (by decide) Keep.rfl'
  case dockKeyRemoveAll => exact KeepX.step execDockKeyRemoveAll_keep (by decide) Keep.rfl'
  case dockKeyBadAction => exact KeepX.step execDockKeyBadAction_keep (by decide) Keep.rfl'
  case attach => exact KeepX.step execAttach_keep (by decide) Keep.rfl'
  case detach => exact KeepX.step execDetach_keep (by decide) Keep.rfl'
  case abortFrame => exact KeepX.step execAbortFrame_keep (by decide) Keep.rfl'
  case readEdid => exact KeepX.step execReadEdid_keep (by decide) Keep.rfl'
  case selectSource => exact KeepX.step execSelectSource_keep (by decide) Keep.rfl'
  case displayFrame => exact KeepX.step execDisplayFrame_keep (by decide) Keep.rfl'
  case gatherStart => exact KeepX.step execGatherStart_keep (by decide) Keep.rfl'
  case gatherDone => exact KeepX.step execGatherDone_keep (by decide) Keep.rfl'
  case sliceEncoded => exact KeepX.step execSliceEncoded_keep (by decide) Keep.rfl'
  case sliceHandoff => exact KeepX.step execSliceHandoff_keep (by decide) Keep.rfl'
  case commitHandoff => exact KeepX.step execCommitHandoff_keep (by decide) Keep.rfl'
  case behindTimeout => exact KeepX.step execBehindTimeout_keep (by decide) Keep.rfl'
  case frameRecord => exact KeepX.step execFrameRecord_keep (by decide) Keep.rfl'
  case mirrorCopyDone => exact KeepX.step execMirrorCopyDone_keep (by decide) Keep.rfl'
  case monitor => exact KeepX.step execMonitor_keep (by decide) Keep.rfl'
  case configDone => exact KeepX.step execConfigDone_keep (by decide) Keep.rfl'
  case applied => exact KeepX.step execApplied_keep (by decide) Keep.rfl'
  case storeLost => exact KeepX.step execStoreLost_keep (by decide) Keep.rfl'
  case statusScreenRedraw => exact KeepX.step execStatusScreenRedraw_keep (by decide) Keep.rfl'
  case cellTime => exact KeepX.step execCellTime_keep (by decide) Keep.rfl'
  case frameVerdict => exact KeepX.step execFrameVerdict_keep (by decide) Keep.rfl'
  case resequencerTimeout => exact KeepX.step execResequencerTimeout_keep (by decide) Keep.rfl'
  case fabMcastWrite => exact KeepX.step execFabMcastWrite_keep (by decide) Keep.rfl'
  case generationRetire => exact KeepX.step execGenerationRetire_keep (by decide) Keep.rfl'
  case fabOutMinWrite => exact KeepX.step execFabOutMinWrite_keep (by decide) Keep.rfl'
  case gateApply => exact KeepX.step execGateApply_keep (by decide) Keep.rfl'
  case gateControlCalWrite => exact KeepX.step execGateControlCalWrite_keep (by decide) Keep.rfl'
  case entryStart => exact KeepX.step execEntryStart_keep (by decide) Keep.rfl'
  case lineFreeSelect => exact KeepX.step execLineFreeSelect_keep (by decide) Keep.rfl'
  case netTransmit => exact KeepX.step execNetTransmit_keep (by decide) Keep.rfl'
  case netReceiveBuffer => exact KeepX.step execNetReceiveBuffer_keep (by decide) Keep.rfl'
  case netFrameReceive => exact KeepX.step execNetFrameReceive_keep (by decide) Keep.rfl'
  case demandLatch => exact KeepX.step execDemandLatch_keep (by decide) Keep.rfl'
  case policyTick => exact KeepX.step execPolicyTick_keep (by decide) Keep.rfl'
  case allotmentWrite => exact KeepX.step execAllotmentWrite_keep (by decide) Keep.rfl'
  case boundWrite => exact KeepX.step execBoundWrite_keep (by decide) Keep.rfl'
  case policyControlWrite => exact KeepX.step execPolicyControlWrite_keep (by decide) Keep.rfl'
  case supplyInputLost => exact KeepX.step execSupplyInputLost_keep (by decide) Keep.rfl'
  case supplyInputGood => exact KeepX.step execSupplyInputGood_keep (by decide) Keep.rfl'
  case supplyInserted => exact KeepX.step execSupplyInserted_keep (by decide) Keep.rfl'
  case supplyWithdrawn => exact KeepX.step execSupplyWithdrawn_keep (by decide) Keep.rfl'
  case bothFeedsLost => exact KeepX.step execBothFeedsLost_keep (by decide) Keep.rfl'
  case supplyPoll => exact KeepX.step execSupplyPoll_keep (by decide) Keep.rfl'
  case detection => exact KeepX.step execDetection_keep (by decide) Keep.rfl'
  case powerOnExamine => exact KeepX.step execPowerOnExamine_keep (by decide) Keep.rfl'
  case mpsLost => exact KeepX.step execMpsLost_keep (by decide) Keep.rfl'
  case softShed => exact KeepX.step execSoftShed_keep (by decide) Keep.rfl'
  case hardShed => exact KeepX.step execHardShed_keep (by decide) Keep.rfl'
  case shedEnd => exact KeepX.step execShedEnd_keep (by decide) Keep.rfl'
  case pairShort => exact KeepX.step execPairShort_keep (by decide) Keep.rfl'
  case pairOverload => exact KeepX.step execPairOverload_keep (by decide) Keep.rfl'
  case faultRetry => exact KeepX.step execFaultRetry_keep (by decide) Keep.rfl'
  case cycle => exact KeepX.step execCycle_keep (by decide) Keep.rfl'
  case seatPowerEnableWrite => exact KeepX.step execSeatPowerEnableWrite_keep (by decide) Keep.rfl'
  case wakePattern => exact KeepX.step execWakePattern_keep (by decide) Keep.rfl'
  case domainVoteWrite => exact KeepX.step execDomainVoteWrite_keep (by decide) Keep.rfl'
  case domainTransitionDone => exact KeepX.step execDomainTransitionDone_keep (by decide) Keep.rfl'
  case domainWake => exact KeepX.step execDomainWake_keep (by decide) Keep.rfl'
  case wakeHoldEnd => exact KeepX.step execWakeHoldEnd_keep (by decide) Keep.rfl'
  case clockSwitch => exact KeepX.step execClockSwitch_keep (by decide) Keep.rfl'
  case clockSwitchTimeout => exact KeepX.step execClockSwitchTimeout_keep (by decide) Keep.rfl'
  case pmbusAck => exact KeepX.step execPmbusAck_keep (by decide) Keep.rfl'
  case pmbusTimeout => exact KeepX.step execPmbusTimeout_keep (by decide) Keep.rfl'
  case referenceLoss => exact KeepX.step execReferenceLoss_keep (by decide) Keep.rfl'
  case warmStart => exact KeepX.step execWarmStart_keep (by decide) Keep.rfl'
  case coldStart => exact KeepX.step execColdStart_keep (by decide) Keep.rfl'
  case rollingUpdate => exact KeepX.step execRollingUpdate_keep (by decide) Keep.rfl'
  case rollingUpdatePhaseDone => exact KeepX.step execRollingUpdatePhaseDone_keep (by decide) Keep.rfl'
  case writeImage => exact KeepX.step execWriteImage_keep (by decide) Keep.rfl'
  case supervisorRestart => exact KeepX.step execSupervisorRestart_keep (by decide) Keep.rfl'
  case unitCmdBadField => exact KeepX.step execUnitCmdBadField_keep (by decide) Keep.rfl'
  case startStepDone => exact KeepX.step execStartStepDone_keep (by decide) Keep.rfl'
  case startWatchdog => exact KeepX.step execStartWatchdog_keep (by decide) Keep.rfl'
  case reasonClear => exact KeepX.step execReasonClear_keep (by decide) Keep.rfl'
  case conditionTimer => exact KeepX.step execConditionTimer_keep (by decide) Keep.rfl'
  case serviceTimeout => exact KeepX.step execServiceTimeout_keep (by decide) Keep.rfl'
  case safeStop => exact KeepX.step execSafeStop_keep (by decide) Keep.rfl'
  case safeStopPowerOff => exact KeepX.step execSafeStopPowerOff_keep (by decide) Keep.rfl'
  case heartbeat => exact KeepX.step (execHeartbeat_keep (_token := false)) (by decide) Keep.rfl'
  case heartbeatLost => exact KeepX.step execHeartbeatLost_keep (by decide) Keep.rfl'
  case hardError => exact KeepX.step execHardError_keep (by decide) Keep.rfl'
  case fenceConfirmTimeout => exact KeepX.step execFenceConfirmTimeout_keep (by decide) Keep.rfl'
  case failoverAdoption => exact KeepX.step execFailoverAdoption_keep (by decide) Keep.rfl'
  case failoverFirstBuild => exact KeepX.step execFailoverFirstBuild_keep (by decide) Keep.rfl'
  case supervisorRestartDone => exact KeepX.step execSupervisorRestartDone_keep (by decide) Keep.rfl'
  case refereeLost => exact KeepX.step (execRefereeLost_keep (_selfCheck := false)) (by decide) Keep.rfl'
  case refereeReturned => exact KeepX.step execRefereeReturned_keep (by decide) Keep.rfl'
  case laneRemoved => exact KeepX.step execLaneRemoved_keep (by decide) Keep.rfl'
  case laneRetrain => exact KeepX.step execLaneRetrain_keep (by decide) Keep.rfl'
  case causewayTimeSample => exact KeepX.step execCausewayTimeSample_keep (by decide) Keep.rfl'
  case correctableError => exact KeepX.step execCorrectableError_keep (by decide) Keep.rfl'
  case uncorrectableDramError => exact KeepX.step execUncorrectableDramError_keep (by decide) Keep.rfl'
  case counterSelectWrite => exact KeepX.step execCounterSelectWrite_keep (by decide) Keep.rfl'
  case counterValueWrite => exact KeepX.step execCounterValueWrite_keep (by decide) Keep.rfl'
  case counterFreeze => exact KeepX.step execCounterFreeze_keep (by decide) Keep.rfl'
  case counterSnapshot => exact KeepX.step execCounterSnapshot_keep (by decide) Keep.rfl'
  case counterClear => exact KeepX.step execCounterClear_keep (by decide) Keep.rfl'
  case counterWindowSelect => exact KeepX.step execCounterWindowSelect_keep (by decide) Keep.rfl'
  case counterFreezeUtWrite => exact KeepX.step execCounterFreezeUtWrite_keep (by decide) Keep.rfl'
  case counterFreezeUtFire => exact KeepX.step execCounterFreezeUtFire_keep (by decide) Keep.rfl'
  case bandwidthWindowEnd => exact KeepX.step execBandwidthWindowEnd_keep (by decide) Keep.rfl'
  case consoleLine => exact KeepX.step execConsoleLine_keep (by decide) Keep.rfl'
  case help => exact KeepX.step execHelp_keep (by decide) Keep.rfl'
  case status => exact KeepX.step execStatus_keep (by decide) Keep.rfl'
  case seatShow => exact KeepX.step execSeatShow_keep (by decide) Keep.rfl'
  case seatList => exact KeepX.step execSeatList_keep (by decide) Keep.rfl'
  case seatCycle => exact KeepX.step execSeatCycle_keep (by decide) Keep.rfl'
  case seatCont => exact KeepX.step execSeatCont_keep (by decide) Keep.rfl'
  case seatContRead => exact KeepX.step execSeatContRead_keep (by decide) Keep.rfl'
  case seatContOff => exact KeepX.step execSeatContOff_keep (by decide) Keep.rfl'
  case continuityMeasure => exact KeepX.step execContinuityMeasure_keep (by decide) Keep.rfl'
  case continuityTimeout => exact KeepX.step execContinuityTimeout_keep (by decide) Keep.rfl'
  case seatTdr => exact KeepX.step execSeatTdr_keep (by decide) Keep.rfl'
  case cableTestDone => exact KeepX.step execCableTestDone_keep (by decide) Keep.rfl'
  case supply => exact KeepX.step execSupply_keep (by decide) Keep.rfl'
  case fans => exact KeepX.step execFans_keep (by decide) Keep.rfl'
  case log => exact KeepX.step execLog_keep (by decide) Keep.rfl'
  case logPrev => exact KeepX.step execLogPrev_keep (by decide) Keep.rfl'
  case errors => exact KeepX.step execErrors_keep (by decide) Keep.rfl'
  case tp => exact KeepX.step execTp_keep (by decide) Keep.rfl'
  case meas => exact KeepX.step execMeas_keep (by decide) Keep.rfl'
  case measUpdate => exact KeepX.step execMeasUpdate_keep (by decide) Keep.rfl'
  case testList => exact KeepX.step execTestList_keep (by decide) Keep.rfl'
  case testRun => exact KeepX.step execTestRun_keep (by decide) Keep.rfl'
  case selfTestDone => exact KeepX.step execSelfTestDone_keep (by decide) Keep.rfl'
  case service => exact KeepX.step execService_keep (by decide) Keep.rfl'
  case serviceEnd => exact KeepX.step execServiceEnd_keep (by decide) Keep.rfl'
  case consoleWarm => exact KeepX.step execConsoleWarm_keep (by decide) Keep.rfl'
  case consoleCold => exact KeepX.step execConsoleCold_keep (by decide) Keep.rfl'
  case consoleRestart => exact KeepX.step execConsoleRestart_keep (by decide) Keep.rfl'
  case consoleStop => exact KeepX.step execConsoleStop_keep (by decide) Keep.rfl'
  case confirmReply => exact KeepX.step execConfirmReply_keep (by decide) Keep.rfl'
  case confirmTimeout => exact KeepX.step execConfirmTimeout_keep (by decide) Keep.rfl'
  case unsupervisedNotice => exact KeepX.step execUnsupervisedNotice_keep (by decide) Keep.rfl'
  case selectTap => exact KeepX.step execSelectTap_keep (by decide) Keep.rfl'
  case selectHold => exact KeepX.step execSelectHold_keep (by decide) Keep.rfl'
  case selectLongHold => exact KeepX.step execSelectLongHold_keep (by decide) Keep.rfl'
  case panelIdle => exact KeepX.step execPanelIdle_keep (by decide) Keep.rfl'
  case usbBusReset => exact KeepX.step execUsbBusReset_keep (by decide) Keep.rfl'
  case usbSuspend => exact KeepX.step execUsbSuspend_keep (by decide) Keep.rfl'
  case usbResume => exact KeepX.step execUsbResume_keep (by decide) Keep.rfl'
  case vbusLost => exact KeepX.step execVbusLost_keep (by decide) Keep.rfl'
  case vbusPresent => exact KeepX.step execVbusPresent_keep (by decide) Keep.rfl'
  case setLineCoding => exact KeepX.step execSetLineCoding_keep (by decide) Keep.rfl'
  case getLineCoding => exact KeepX.step execGetLineCoding_keep (by decide) Keep.rfl'
  case setControlLineState => exact KeepX.step execSetControlLineState_keep (by decide) Keep.rfl'
  case classRequestStall => exact KeepX.step (execClassRequestStall_keep (_request := ‹_›)) (by decide) Keep.rfl'
  case bulkOutReceive => exact KeepX.step execBulkOutReceive_keep (by decide) Keep.rfl'
  case registerReadOversized => exact KeepX.step execRegisterReadOversized_keep (by decide) Keep.rfl'
  case registerWrite => exact KeepX.step execRegisterWrite_keep (by decide) Keep.rfl'
  case supplyOutputFailed => exact KeepX.step execSupplyOutputFailed_keep (by decide) Keep.rfl'
  case fanLoss => exact KeepX.step execFanLoss_keep (by decide) Keep.rfl'
  case fanInserted => exact KeepX.step execFanInserted_keep (by decide) Keep.rfl'
  case thermalLimitCrossed => exact KeepX.step execThermalLimitCrossed_keep (by decide) Keep.rfl'
  case phyManagementTimeout => exact KeepX.step execPhyManagementTimeout_keep (by decide) Keep.rfl'
  case partnerEnergyDetected => exact KeepX.step execPartnerEnergyDetected_keep (by decide) Keep.rfl'
  case openConductorDetected => exact KeepX.step execOpenConductorDetected_keep (by decide) Keep.rfl'
  case faultRetryCountClear => exact KeepX.step execFaultRetryCountClear_keep (by decide) Keep.rfl'
  case busMasterEnableCleared => exact KeepX.step execBusMasterEnableCleared_keep (by decide) Keep.rfl'
  case pasidEnableSet => exact KeepX.step execPasidEnableSet_keep (by decide) Keep.rfl'
  case msixVectorUnmasked => exact KeepX.step execMsixVectorUnmasked_keep (by decide) Keep.rfl'
  case aspmL1Entry => exact KeepX.step execAspmL1Entry_keep (by decide) Keep.rfl'
  case flashWriteComplete => exact KeepX.step execFlashWriteComplete_keep (by decide) Keep.rfl'
  case mirrorLagTimeout => exact KeepX.step execMirrorLagTimeout_keep (by decide) Keep.rfl'
  case consoleRxCharacter => exact KeepX.step execConsoleRxCharacter_keep (by decide) Keep.rfl'
  case bulkInToken => exact KeepX.step execBulkInToken_keep (by decide) Keep.rfl'

/-- No command puts unit time back, unless it starts again at 0. -/
theorem exec_ut (i : Instr) (s : State) : UtUpX s (exec i s) := by
  cases i
  case managerControlWrite => exact fun t e => .of_keep (KeepX.step execManagerControlWrite_keep (by decide) Keep.rfl' t e)
  case managerLeaseRenew => exact fun t e => .of_keep (KeepX.step execManagerLeaseRenew_keep (by decide) Keep.rfl' t e)
  case leaseExpiry => exact fun t e => .of_keep (KeepX.step execLeaseExpiry_keep (by decide) Keep.rfl' t e)
  case semAcquireRead => exact fun t e => .of_keep (KeepX.step execSemAcquireRead_keep (by decide) Keep.rfl' t e)
  case semRelease => exact fun t e => .of_keep (KeepX.step execSemRelease_keep (by decide) Keep.rfl' t e)
  case create => exact fun t e => .of_or (KeepX.step execCreate_keep (by decide) Keep.rfl' t e)
  case quiesce => exact fun t e => .of_or (KeepX.step execQuiesce_keep (by decide) Keep.rfl' t e)
  case resume => exact fun t e => .of_or (KeepX.step execResume_keep (by decide) Keep.rfl' t e)
  case reset => exact fun t e => .of_or (KeepX.step execReset_keep (by decide) Keep.rfl' t e)
  case destroy => exact fun t e => .of_or (KeepX.step execDestroy_keep (by decide) Keep.rfl' t e)
  case setSeats => exact fun t e => .of_or (KeepX.step execSetSeats_keep (by decide) Keep.rfl' t e)
  case isletCmdBadOpcode => exact fun t e => .of_or (KeepX.step execIsletCmdBadOpcode_keep (by decide) Keep.rfl' t e)
  case descriptorReadCompletion => exact fun t e => .of_or (KeepX.step execDescriptorReadCompletion_keep (by decide) Keep.rfl' t e)
  case busMasterWaitTimeout => exact execBusMasterWaitTimeout_ut
  case busMasterEnableSet => exact fun t e => .of_keep (KeepX.step execBusMasterEnableSet_keep (by decide) Keep.rfl' t e)
  case isletDrained => exact fun t e => .of_keep (KeepX.step execIsletDrained_keep (by decide) Keep.rfl' t e)
  case hostLinkDown => exact fun t e => .of_keep (KeepX.step execHostLinkDown_keep (by decide) Keep.rfl' t e)
  case hostLinkUp => exact fun t e => .of_keep (KeepX.step execHostLinkUp_keep (by decide) Keep.rfl' t e)
  case pairedTrafficReturn => exact fun t e => .of_keep (KeepX.step execPairedTrafficReturn_keep (by decide) Keep.rfl' t e)
  case pasidEnableCleared => exact fun t e => .of_keep (KeepX.step execPasidEnableCleared_keep (by decide) Keep.rfl' t e)
  case perstAsserted => exact fun t e => .of_keep (KeepX.step execPerstAsserted_keep (by decide) Keep.rfl' t e)
  case hostReadCompletion => exact fun t e => .of_keep (KeepX.step execHostReadCompletion_keep (by decide) Keep.rfl' t e)
  case completionTimeout => exact fun t e => .of_keep (KeepX.step execCompletionTimeout_keep (by decide) Keep.rfl' t e)
  case completionWriteFault => exact fun t e => .of_keep (KeepX.step execCompletionWriteFault_keep (by decide) Keep.rfl' t e)
  case doorbellPost => exact fun t e => .of_keep (KeepX.step execDoorbellPost_keep (by decide) Keep.rfl' t e)
  case doorbellInvalidate => exact fun t e => .of_keep (KeepX.step execDoorbellInvalidate_keep (by decide) Keep.rfl' t e)
  case queueConfigWrite => exact fun t e => .of_keep (KeepX.step execQueueConfigWrite_keep (by decide) Keep.rfl' t e)
  case ringConfigWrite => exact fun t e => .of_keep (KeepX.step execRingConfigWrite_keep (by decide) Keep.rfl' t e)
  case ringManagerConsumerWrite => exact fun t e => .of_keep (KeepX.step execRingManagerConsumerWrite_keep (by decide) Keep.rfl' t e)
  case cqConsumerWrite => exact fun t e => .of_keep (KeepX.step execCqConsumerWrite_keep (by decide) Keep.rfl' t e)
  case shadowConsumerLapse => exact fun t e => .of_keep (KeepX.step execShadowConsumerLapse_keep (by decide) Keep.rfl' t e)
  case entryFetchDone => exact fun t e => .of_keep (KeepX.step execEntryFetchDone_keep (by decide) Keep.rfl' t e)
  case entryTake => exact fun t e => .of_keep (KeepX.step execEntryTake_keep (by decide) Keep.rfl' t e)
  case nop => exact fun t e => .of_keep (KeepX.step execNop_keep (by decide) Keep.rfl' t e)
  case ringWriterPass => exact fun t e => .of_keep (KeepX.step execRingWriterPass_keep (by decide) Keep.rfl' t e)
  case shadowRecordUpdate => exact fun t e => .of_keep (KeepX.step execShadowRecordUpdate_keep (by decide) Keep.rfl' t e)
  case add => exact fun t e => .of_keep (KeepX.step execAdd_keep (by decide) Keep.rfl' t e)
  case sub => exact fun t e => .of_keep (KeepX.step execSub_keep (by decide) Keep.rfl' t e)
  case and => exact fun t e => .of_keep (KeepX.step execAnd_keep (by decide) Keep.rfl' t e)
  case or => exact fun t e => .of_keep (KeepX.step execOr_keep (by decide) Keep.rfl' t e)
  case xor => exact fun t e => .of_keep (KeepX.step execXor_keep (by decide) Keep.rfl' t e)
  case sll => exact fun t e => .of_keep (KeepX.step execSll_keep (by decide) Keep.rfl' t e)
  case srl => exact fun t e => .of_keep (KeepX.step execSrl_keep (by decide) Keep.rfl' t e)
  case sra => exact fun t e => .of_keep (KeepX.step execSra_keep (by decide) Keep.rfl' t e)
  case slt => exact fun t e => .of_keep (KeepX.step execSlt_keep (by decide) Keep.rfl' t e)
  case sltu => exact fun t e => .of_keep (KeepX.step execSltu_keep (by decide) Keep.rfl' t e)
  case mul => exact fun t e => .of_keep (KeepX.step execMul_keep (by decide) Keep.rfl' t e)
  case mulhu => exact fun t e => .of_keep (KeepX.step execMulhu_keep (by decide) Keep.rfl' t e)
  case divu => exact fun t e => .of_keep (KeepX.step execDivu_keep (by decide) Keep.rfl' t e)
  case remu => exact fun t e => .of_keep (KeepX.step execRemu_keep (by decide) Keep.rfl' t e)
  case addi => exact fun t e => .of_keep (KeepX.step execAddi_keep (by decide) Keep.rfl' t e)
  case andi => exact fun t e => .of_keep (KeepX.step execAndi_keep (by decide) Keep.rfl' t e)
  case ori => exact fun t e => .of_keep (KeepX.step execOri_keep (by decide) Keep.rfl' t e)
  case xori => exact fun t e => .of_keep (KeepX.step execXori_keep (by decide) Keep.rfl' t e)
  case slti => exact fun t e => .of_keep (KeepX.step execSlti_keep (by decide) Keep.rfl' t e)
  case sltiu => exact fun t e => .of_keep (KeepX.step execSltiu_keep (by decide) Keep.rfl' t e)
  case lui => exact fun t e => .of_keep (KeepX.step execLui_keep (by decide) Keep.rfl' t e)
  case slli => exact fun t e => .of_keep (KeepX.step execSlli_keep (by decide) Keep.rfl' t e)
  case srli => exact fun t e => .of_keep (KeepX.step execSrli_keep (by decide) Keep.rfl' t e)
  case srai => exact fun t e => .of_keep (KeepX.step execSrai_keep (by decide) Keep.rfl' t e)
  case bfx => exact fun t e => .of_keep (KeepX.step execBfx_keep (by decide) Keep.rfl' t e)
  case bfi => exact fun t e => .of_keep (KeepX.step execBfi_keep (by decide) Keep.rfl' t e)
  case ld8 => exact fun t e => .of_keep (KeepX.step execLd8_keep (by decide) Keep.rfl' t e)
  case ld16 => exact fun t e => .of_keep (KeepX.step execLd16_keep (by decide) Keep.rfl' t e)
  case ld32 => exact fun t e => .of_keep (KeepX.step execLd32_keep (by decide) Keep.rfl' t e)
  case ld64 => exact fun t e => .of_keep (KeepX.step execLd64_keep (by decide) Keep.rfl' t e)
  case st8 => exact fun t e => .of_or (KeepX.step execSt8_keep (by decide) Keep.rfl' t e)
  case st16 => exact fun t e => .of_or (KeepX.step execSt16_keep (by decide) Keep.rfl' t e)
  case st32 => exact fun t e => .of_or (KeepX.step execSt32_keep (by decide) Keep.rfl' t e)
  case st64 => exact fun t e => .of_or (KeepX.step execSt64_keep (by decide) Keep.rfl' t e)
  case amoadd => exact fun t e => .of_or (KeepX.step execAmoadd_keep (by decide) Keep.rfl' t e)
  case amoswp => exact fun t e => .of_or (KeepX.step execAmoswp_keep (by decide) Keep.rfl' t e)
  case fence => exact fun t e => .of_keep (KeepX.step execFence_keep (by decide) Keep.rfl' t e)
  case hld => exact fun t e => .of_keep (KeepX.step execHld_keep (by decide) Keep.rfl' t e)
  case hst => exact fun t e => .of_keep (KeepX.step execHst_keep (by decide) Keep.rfl' t e)
  case hostTokenComplete => exact fun t e => .of_keep (KeepX.step execHostTokenComplete_keep (by decide) Keep.rfl' t e)
  case hwait => exact fun t e => .of_keep (KeepX.step execHwait_keep (by decide) Keep.rfl' t e)
  case beq => exact fun t e => .of_keep (KeepX.step execBeq_keep (by decide) Keep.rfl' t e)
  case bne => exact fun t e => .of_keep (KeepX.step execBne_keep (by decide) Keep.rfl' t e)
  case blt => exact fun t e => .of_keep (KeepX.step execBlt_keep (by decide) Keep.rfl' t e)
  case bge => exact fun t e => .of_keep (KeepX.step execBge_keep (by decide) Keep.rfl' t e)
  case bltu => exact fun t e => .of_keep (KeepX.step execBltu_keep (by decide) Keep.rfl' t e)
  case bgeu => exact fun t e => .of_keep (KeepX.step execBgeu_keep (by decide) Keep.rfl' t e)
  case jmp => exact fun t e => .of_keep (KeepX.step execJmp_keep (by decide) Keep.rfl' t e)
  case call => exact fun t e => .of_keep (KeepX.step execCall_keep (by decide) Keep.rfl' t e)
  case ret => exact fun t e => .of_keep (KeepX.step execRet_keep (by decide) Keep.rfl' t e)
  case loop => exact fun t e => .of_keep (KeepX.step execLoop_keep (by decide) Keep.rfl' t e)
  case lbrk => exact fun t e => .of_keep (KeepX.step execLbrk_keep (by decide) Keep.rfl' t e)
  case lidx => exact fun t e => .of_keep (KeepX.step execLidx_keep (by decide) Keep.rfl' t e)
  case emit => exact fun t e => .of_keep (KeepX.step execEmit_keep (by decide) Keep.rfl' t e)
  case budg => exact fun t e => .of_keep (KeepX.step execBudg_keep (by decide) Keep.rfl' t e)
  case tick => exact fun t e => .of_keep (KeepX.step execTick_keep (by decide) Keep.rfl' t e)
  case tickResume => exact fun t e => .of_keep (KeepX.step execTickResume_keep (by decide) Keep.rfl' t e)
  case postc => exact fun t e => .of_keep (KeepX.step execPostc_keep (by decide) Keep.rfl' t e)
  case send => exact fun t e => .of_keep (KeepX.step execSend_keep (by decide) Keep.rfl' t e)
  case evt => exact fun t e => .of_keep (KeepX.step execEvt_keep (by decide) Keep.rfl' t e)
  case qitem => exact fun t e => .of_keep (KeepX.step execQitem_keep (by decide) Keep.rfl' t e)
  case done => exact fun t e => .of_keep (KeepX.step execDone_keep (by decide) Keep.rfl' t e)
  case rdctx => exact fun t e => .of_keep (KeepX.step execRdctx_keep (by decide) Keep.rfl' t e)
  case rdut => exact fun t e => .of_keep (KeepX.step execRdut_keep (by decide) Keep.rfl' t e)
  case csrr => exact fun t e => .of_keep (KeepX.step execCsrr_keep (by decide) Keep.rfl' t e)
  case csrw => exact fun t e => .of_keep (KeepX.step execCsrw_keep (by decide) Keep.rfl' t e)
  case eret => exact fun t e => .of_keep (KeepX.step execEret_keep (by decide) Keep.rfl' t e)
  case wfi => exact fun t e => .of_keep (KeepX.step execWfi_keep (by decide) Keep.rfl' t e)
  case faultRecordRelease => exact fun t e => .of_keep (KeepX.step execFaultRecordRelease_keep (by decide) Keep.rfl' t e)
  case eventEntry => exact fun t e => .of_keep (KeepX.step execEventEntry_keep (by decide) Keep.rfl' t e)
  case programLoadLoad => exact fun t e => .of_keep (KeepX.step execProgramLoadLoad_keep (by decide) Keep.rfl' t e)
  case programLoadUnload => exact fun t e => .of_keep (KeepX.step execProgramLoadUnload_keep (by decide) Keep.rfl' t e)
  case unitProgramLoad => exact fun t e => .of_or (KeepX.step execUnitProgramLoad_keep (by decide) Keep.rfl' t e)
  case unitProgramUnload => exact fun t e => .of_or (KeepX.step execUnitProgramUnload_keep (by decide) Keep.rfl' t e)
  case unitProgramBadField => exact fun t e => .of_or (KeepX.step execUnitProgramBadField_keep (by decide) Keep.rfl' t e)
  case itemDispatch => exact fun t e => .of_keep (KeepX.step execItemDispatch_keep (by decide) Keep.rfl' t e)
  case preemption => exact fun t e => .of_keep (KeepX.step execPreemption_keep (by decide) Keep.rfl' t e)
  case preemptedRestore => exact fun t e => .of_keep (KeepX.step execPreemptedRestore_keep (by decide) Keep.rfl' t e)
  case clusterModeWrite => exact fun t e => .of_keep (KeepX.step execClusterModeWrite_keep (by decide) Keep.rfl' t e)
  case clusterModeChanged => exact fun t e => .of_keep (KeepX.step execClusterModeChanged_keep (by decide) Keep.rfl' t e)
  case seatTick => exact fun t e => .of_keep (KeepX.step execSeatTick_keep (by decide) Keep.rfl' t e)
  case maxWaitRead => exact fun t e => .of_keep (KeepX.step execMaxWaitRead_keep (by decide) Keep.rfl' t e)
  case eventEdge => exact fun t e => .of_keep (KeepX.step execEventEdge_keep (by decide) Keep.rfl' t e)
  case evtPendingWrite => exact fun t e => .of_keep (KeepX.step execEvtPendingWrite_keep (by decide) Keep.rfl' t e)
  case evtMaskWrite => exact fun t e => .of_keep (KeepX.step execEvtMaskWrite_keep (by decide) Keep.rfl' t e)
  case evtSourceWrite => exact fun t e => .of_keep (KeepX.step execEvtSourceWrite_keep (by decide) Keep.rfl' t e)
  case evtVectorBaseWrite => exact fun t e => .of_keep (KeepX.step execEvtVectorBaseWrite_keep (by decide) Keep.rfl' t e)
  case evtTimerWrite => exact fun t e => .of_keep (KeepX.step execEvtTimerWrite_keep (by decide) Keep.rfl' t e)
  case evtTimerFire => exact fun t e => .of_keep (KeepX.step execEvtTimerFire_keep (by decide) Keep.rfl' t e)
  case supervisorSweep => exact fun t e => .of_keep (KeepX.step execSupervisorSweep_keep (by decide) Keep.rfl' t e)
  case profile => exact fun t e => .of_keep (KeepX.step execProfile_keep (by decide) Keep.rfl' t e)
  case usbOpen => exact fun t e => .of_keep (KeepX.step execUsbOpen_keep (by decide) Keep.rfl' t e)
  case close => exact fun t e => .of_keep (KeepX.step execClose_keep (by decide) Keep.rfl' t e)
  case clearHalt => exact fun t e => .of_keep (KeepX.step execClearHalt_keep (by decide) Keep.rfl' t e)
  case abort => exact fun t e => .of_keep (KeepX.step execAbort_keep (by decide) Keep.rfl' t e)
  case usbControl => exact fun t e => .of_keep (KeepX.step execUsbControl_keep (by decide) Keep.rfl' t e)
  case usbBulk => exact fun t e => .of_keep (KeepX.step execUsbBulk_keep (by decide) Keep.rfl' t e)
  case usbInterrupt => exact fun t e => .of_keep (KeepX.step execUsbInterrupt_keep (by decide) Keep.rfl' t e)
  case usbIsoch => exact fun t e => .of_keep (KeepX.step execUsbIsoch_keep (by decide) Keep.rfl' t e)
  case results => exact fun t e => .of_keep (KeepX.step execResults_keep (by decide) Keep.rfl' t e)
  case timedOut => exact fun t e => .of_keep (KeepX.step execTimedOut_keep (by decide) Keep.rfl' t e)
  case isoResultLost => exact fun t e => .of_keep (KeepX.step execIsoResultLost_keep (by decide) Keep.rfl' t e)
  case rootPortReset => exact fun t e => .of_keep (KeepX.step execRootPortReset_keep (by decide) Keep.rfl' t e)
  case rootPortSuspend => exact fun t e => .of_keep (KeepX.step execRootPortSuspend_keep (by decide) Keep.rfl' t e)
  case rootPortResume => exact fun t e => .of_keep (KeepX.step execRootPortResume_keep (by decide) Keep.rfl' t e)
  case rootPortDisable => exact fun t e => .of_keep (KeepX.step execRootPortDisable_keep (by decide) Keep.rfl' t e)
  case rootPortPowerOff => exact fun t e => .of_keep (KeepX.step execRootPortPowerOff_keep (by decide) Keep.rfl' t e)
  case rootPortPowerOn => exact fun t e => .of_keep (KeepX.step execRootPortPowerOn_keep (by decide) Keep.rfl' t e)
  case rootPortBadCommand => exact fun t e => .of_keep (KeepX.step execRootPortBadCommand_keep (by decide) Keep.rfl' t e)
  case rootPortChangeClear => exact fun t e => .of_keep (KeepX.step execRootPortChangeClear_keep (by decide) Keep.rfl' t e)
  case rootHubOperation => exact fun t e => .of_keep (KeepX.step execRootHubOperation_keep (by decide) Keep.rfl' t e)
  case autonegComplete => exact fun t e => .of_keep (KeepX.step execAutonegComplete_keep (by decide) Keep.rfl' t e)
  case foreignEnergyTimeout => exact fun t e => .of_keep (KeepX.step execForeignEnergyTimeout_keep (by decide) Keep.rfl' t e)
  case foreignClear => exact fun t e => .of_keep (KeepX.step execForeignClear_keep (by decide) Keep.rfl' t e)
  case trainingComplete => exact fun t e => .of_keep (KeepX.step execTrainingComplete_keep (by decide) Keep.rfl' t e)
  case trainingTimeout => exact fun t e => .of_keep (KeepX.step execTrainingTimeout_keep (by decide) Keep.rfl' t e)
  case pcsLinkUp => exact fun t e => .of_keep (KeepX.step execPcsLinkUp_keep (by decide) Keep.rfl' t e)
  case straitFrameReceive => exact fun t e => .of_keep (KeepX.step execStraitFrameReceive_keep (by decide) Keep.rfl' t e)
  case nak => exact fun t e => .of_keep (KeepX.step execNak_keep (by decide) Keep.rfl' t e)
  case nakSend => exact fun t e => .of_keep (KeepX.step execNakSend_keep (by decide) Keep.rfl' t e)
  case reportDue => exact fun t e => .of_keep (KeepX.step execReportDue_keep (by decide) Keep.rfl' t e)
  case keepaliveDue => exact fun t e => .of_keep (KeepX.step execKeepaliveDue_keep (by decide) Keep.rfl' t e)
  case retransmitTimerExpiry => exact fun t e => .of_keep (KeepX.step execRetransmitTimerExpiry_keep (by decide) Keep.rfl' t e)
  case helloRetry => exact fun t e => .of_keep (KeepX.step execHelloRetry_keep (by decide) Keep.rfl' t e)
  case helloGiveUp => exact fun t e => .of_keep (KeepX.step execHelloGiveUp_keep (by decide) Keep.rfl' t e)
  case helloReply => exact fun t e => .of_keep (KeepX.step execHelloReply_keep (by decide) Keep.rfl' t e)
  case authRetry => exact fun t e => .of_keep (KeepX.step execAuthRetry_keep (by decide) Keep.rfl' t e)
  case goodbye => exact fun t e => .of_keep (KeepX.step execGoodbye_keep (by decide) Keep.rfl' t e)
  case phyLinkFail => exact fun t e => .of_keep (KeepX.step execPhyLinkFail_keep (by decide) Keep.rfl' t e)
  case silence => exact fun t e => .of_keep (KeepX.step execSilence_keep (by decide) Keep.rfl' t e)
  case holdDownExpiry => exact fun t e => .of_keep (KeepX.step execHoldDownExpiry_keep (by decide) Keep.rfl' t e)
  case seatLinkControlWrite => exact fun t e => .of_keep (KeepX.step execSeatLinkControlWrite_keep (by decide) Keep.rfl' t e)
  case rateTargetWrite => exact fun t e => .of_keep (KeepX.step execRateTargetWrite_keep (by decide) Keep.rfl' t e)
  case rateAck => exact fun t e => .of_keep (KeepX.step execRateAck_keep (by decide) Keep.rfl' t e)
  case rateAckTimeout => exact fun t e => .of_keep (KeepX.step execRateAckTimeout_keep (by decide) Keep.rfl' t e)
  case rateChangeStop => exact fun t e => .of_keep (KeepX.step execRateChangeStop_keep (by decide) Keep.rfl' t e)
  case rateChangeTimeout => exact fun t e => .of_keep (KeepX.step execRateChangeTimeout_keep (by decide) Keep.rfl' t e)
  case delayUpdate => exact fun t e => .of_keep (KeepX.step execDelayUpdate_keep (by decide) Keep.rfl' t e)
  case dockTime => exact fun t e => .of_keep (KeepX.step execDockTime_keep (by decide) Keep.rfl' t e)
  case calibrationSlot => exact fun t e => .of_keep (KeepX.step execCalibrationSlot_keep (by decide) Keep.rfl' t e)
  case dockKeyAdd => exact fun t e => .of_or (KeepX.step execDockKeyAdd_keep (by decide) Keep.rfl' t e)
  case dockKeyRemove => exact fun t e => .of_or (KeepX.step execDockKeyRemove_keep (by decide) Keep.rfl' t e)
  case dockKeyRemoveAll => exact fun t e => .of_or (KeepX.step execDockKeyRemoveAll_keep (by decide) Keep.rfl' t e)
  case dockKeyBadAction => exact fun t e => .of_or (KeepX.step execDockKeyBadAction_keep (by decide) Keep.rfl' t e)
  case attach => exact fun t e => .of_keep (KeepX.step execAttach_keep (by decide) Keep.rfl' t e)
  case detach => exact fun t e => .of_keep (KeepX.step execDetach_keep (by decide) Keep.rfl' t e)
  case abortFrame => exact fun t e => .of_keep (KeepX.step execAbortFrame_keep (by decide) Keep.rfl' t e)
  case readEdid => exact fun t e => .of_keep (KeepX.step execReadEdid_keep (by decide) Keep.rfl' t e)
  case selectSource => exact fun t e => .of_keep (KeepX.step execSelectSource_keep (by decide) Keep.rfl' t e)
  case displayFrame => exact fun t e => .of_keep (KeepX.step execDisplayFrame_keep (by decide) Keep.rfl' t e)
  case gatherStart => exact fun t e => .of_keep (KeepX.step execGatherStart_keep (by decide) Keep.rfl' t e)
  case gatherDone => exact fun t e => .of_keep (KeepX.step execGatherDone_keep (by decide) Keep.rfl' t e)
  case sliceEncoded => exact fun t e => .of_keep (KeepX.step execSliceEncoded_keep (by decide) Keep.rfl' t e)
  case sliceHandoff => exact fun t e => .of_keep (KeepX.step execSliceHandoff_keep (by decide) Keep.rfl' t e)
  case commitHandoff => exact fun t e => .of_keep (KeepX.step execCommitHandoff_keep (by decide) Keep.rfl' t e)
  case behindTimeout => exact fun t e => .of_keep (KeepX.step execBehindTimeout_keep (by decide) Keep.rfl' t e)
  case frameRecord => exact fun t e => .of_keep (KeepX.step execFrameRecord_keep (by decide) Keep.rfl' t e)
  case mirrorCopyDone => exact fun t e => .of_keep (KeepX.step execMirrorCopyDone_keep (by decide) Keep.rfl' t e)
  case monitor => exact fun t e => .of_keep (KeepX.step execMonitor_keep (by decide) Keep.rfl' t e)
  case configDone => exact fun t e => .of_keep (KeepX.step execConfigDone_keep (by decide) Keep.rfl' t e)
  case applied => exact fun t e => .of_keep (KeepX.step execApplied_keep (by decide) Keep.rfl' t e)
  case storeLost => exact fun t e => .of_keep (KeepX.step execStoreLost_keep (by decide) Keep.rfl' t e)
  case statusScreenRedraw => exact fun t e => .of_keep (KeepX.step execStatusScreenRedraw_keep (by decide) Keep.rfl' t e)
  case cellTime => exact fun t e => .of_keep (KeepX.step execCellTime_keep (by decide) Keep.rfl' t e)
  case frameVerdict => exact fun t e => .of_keep (KeepX.step execFrameVerdict_keep (by decide) Keep.rfl' t e)
  case resequencerTimeout => exact fun t e => .of_keep (KeepX.step execResequencerTimeout_keep (by decide) Keep.rfl' t e)
  case fabMcastWrite => exact fun t e => .of_keep (KeepX.step execFabMcastWrite_keep (by decide) Keep.rfl' t e)
  case generationRetire => exact fun t e => .of_keep (KeepX.step execGenerationRetire_keep (by decide) Keep.rfl' t e)
  case fabOutMinWrite => exact fun t e => .of_keep (KeepX.step execFabOutMinWrite_keep (by decide) Keep.rfl' t e)
  case gateApply => exact fun t e => .of_keep (KeepX.step execGateApply_keep (by decide) Keep.rfl' t e)
  case gateControlCalWrite => exact fun t e => .of_keep (KeepX.step execGateControlCalWrite_keep (by decide) Keep.rfl' t e)
  case entryStart => exact fun t e => .of_keep (KeepX.step execEntryStart_keep (by decide) Keep.rfl' t e)
  case lineFreeSelect => exact fun t e => .of_keep (KeepX.step execLineFreeSelect_keep (by decide) Keep.rfl' t e)
  case netTransmit => exact fun t e => .of_keep (KeepX.step execNetTransmit_keep (by decide) Keep.rfl' t e)
  case netReceiveBuffer => exact fun t e => .of_keep (KeepX.step execNetReceiveBuffer_keep (by decide) Keep.rfl' t e)
  case netFrameReceive => exact fun t e => .of_keep (KeepX.step execNetFrameReceive_keep (by decide) Keep.rfl' t e)
  case demandLatch => exact fun t e => .of_keep (KeepX.step execDemandLatch_keep (by decide) Keep.rfl' t e)
  case policyTick => exact fun t e => .of_keep (KeepX.step execPolicyTick_keep (by decide) Keep.rfl' t e)
  case allotmentWrite => exact fun t e => .of_keep (KeepX.step execAllotmentWrite_keep (by decide) Keep.rfl' t e)
  case boundWrite => exact fun t e => .of_keep (KeepX.step execBoundWrite_keep (by decide) Keep.rfl' t e)
  case policyControlWrite => exact fun t e => .of_keep (KeepX.step execPolicyControlWrite_keep (by decide) Keep.rfl' t e)
  case supplyInputLost => exact execSupplyInputLost_ut
  case supplyInputGood => exact execSupplyInputGood_ut
  case supplyInserted => exact execSupplyInserted_ut
  case supplyWithdrawn => exact execSupplyWithdrawn_ut
  case bothFeedsLost => exact fun t e => .of_or (KeepX.step execBothFeedsLost_keep (by decide) Keep.rfl' t e)
  case supplyPoll => exact execSupplyPoll_ut
  case detection => exact fun t e => .of_keep (KeepX.step execDetection_keep (by decide) Keep.rfl' t e)
  case powerOnExamine => exact fun t e => .of_keep (KeepX.step execPowerOnExamine_keep (by decide) Keep.rfl' t e)
  case mpsLost => exact fun t e => .of_keep (KeepX.step execMpsLost_keep (by decide) Keep.rfl' t e)
  case softShed => exact fun t e => .of_keep (KeepX.step execSoftShed_keep (by decide) Keep.rfl' t e)
  case hardShed => exact fun t e => .of_keep (KeepX.step execHardShed_keep (by decide) Keep.rfl' t e)
  case shedEnd => exact fun t e => .of_keep (KeepX.step execShedEnd_keep (by decide) Keep.rfl' t e)
  case pairShort => exact fun t e => .of_keep (KeepX.step execPairShort_keep (by decide) Keep.rfl' t e)
  case pairOverload => exact fun t e => .of_keep (KeepX.step execPairOverload_keep (by decide) Keep.rfl' t e)
  case faultRetry => exact fun t e => .of_keep (KeepX.step execFaultRetry_keep (by decide) Keep.rfl' t e)
  case cycle => exact fun t e => .of_keep (KeepX.step execCycle_keep (by decide) Keep.rfl' t e)
  case seatPowerEnableWrite => exact fun t e => .of_keep (KeepX.step execSeatPowerEnableWrite_keep (by decide) Keep.rfl' t e)
  case wakePattern => exact fun t e => .of_keep (KeepX.step execWakePattern_keep (by decide) Keep.rfl' t e)
  case domainVoteWrite => exact fun t e => .of_keep (KeepX.step execDomainVoteWrite_keep (by decide) Keep.rfl' t e)
  case domainTransitionDone => exact fun t e => .of_keep (KeepX.step execDomainTransitionDone_keep (by decide) Keep.rfl' t e)
  case domainWake => exact fun t e => .of_keep (KeepX.step execDomainWake_keep (by decide) Keep.rfl' t e)
  case wakeHoldEnd => exact fun t e => .of_keep (KeepX.step execWakeHoldEnd_keep (by decide) Keep.rfl' t e)
  case clockSwitch => exact fun t e => .of_keep (KeepX.step execClockSwitch_keep (by decide) Keep.rfl' t e)
  case clockSwitchTimeout => exact fun t e => .of_keep (KeepX.step execClockSwitchTimeout_keep (by decide) Keep.rfl' t e)
  case pmbusAck => exact fun t e => .of_keep (KeepX.step execPmbusAck_keep (by decide) Keep.rfl' t e)
  case pmbusTimeout => exact fun t e => .of_keep (KeepX.step execPmbusTimeout_keep (by decide) Keep.rfl' t e)
  case referenceLoss => exact fun t e => .of_keep (KeepX.step execReferenceLoss_keep (by decide) Keep.rfl' t e)
  case warmStart => exact fun t e => .of_or (KeepX.step execWarmStart_keep (by decide) Keep.rfl' t e)
  case coldStart => exact fun t e => .of_or (KeepX.step execColdStart_keep (by decide) Keep.rfl' t e)
  case rollingUpdate => exact fun t e => .of_or (KeepX.step execRollingUpdate_keep (by decide) Keep.rfl' t e)
  case rollingUpdatePhaseDone => exact fun t e => .of_keep (KeepX.step execRollingUpdatePhaseDone_keep (by decide) Keep.rfl' t e)
  case writeImage => exact fun t e => .of_or (KeepX.step execWriteImage_keep (by decide) Keep.rfl' t e)
  case supervisorRestart => exact fun t e => .of_or (KeepX.step execSupervisorRestart_keep (by decide) Keep.rfl' t e)
  case unitCmdBadField => exact fun t e => .of_or (KeepX.step execUnitCmdBadField_keep (by decide) Keep.rfl' t e)
  case startStepDone => exact execStartStepDone_ut
  case startWatchdog => exact execStartWatchdog_ut
  case reasonClear => exact fun t e => .of_keep (KeepX.step execReasonClear_keep (by decide) Keep.rfl' t e)
  case conditionTimer => exact fun t e => .of_keep (KeepX.step execConditionTimer_keep (by decide) Keep.rfl' t e)
  case serviceTimeout => exact fun t e => .of_keep (KeepX.step execServiceTimeout_keep (by decide) Keep.rfl' t e)
  case safeStop => exact fun t e => .of_keep (KeepX.step execSafeStop_keep (by decide) Keep.rfl' t e)
  case safeStopPowerOff => exact fun t e => .of_keep (KeepX.step execSafeStopPowerOff_keep (by decide) Keep.rfl' t e)
  case heartbeat => exact fun t e => .of_keep (KeepX.step (execHeartbeat_keep (_token := false)) (by decide) Keep.rfl' t e)
  case heartbeatLost => exact fun t e => .of_keep (KeepX.step execHeartbeatLost_keep (by decide) Keep.rfl' t e)
  case hardError => exact fun t e => .of_keep (KeepX.step execHardError_keep (by decide) Keep.rfl' t e)
  case fenceConfirmTimeout => exact fun t e => .of_keep (KeepX.step execFenceConfirmTimeout_keep (by decide) Keep.rfl' t e)
  case failoverAdoption => exact fun t e => .of_keep (KeepX.step execFailoverAdoption_keep (by decide) Keep.rfl' t e)
  case failoverFirstBuild => exact fun t e => .of_keep (KeepX.step execFailoverFirstBuild_keep (by decide) Keep.rfl' t e)
  case supervisorRestartDone => exact fun t e => .of_keep (KeepX.step execSupervisorRestartDone_keep (by decide) Keep.rfl' t e)
  case refereeLost => exact fun t e => .of_keep (KeepX.step (execRefereeLost_keep (_selfCheck := false)) (by decide) Keep.rfl' t e)
  case refereeReturned => exact fun t e => .of_keep (KeepX.step execRefereeReturned_keep (by decide) Keep.rfl' t e)
  case laneRemoved => exact fun t e => .of_keep (KeepX.step execLaneRemoved_keep (by decide) Keep.rfl' t e)
  case laneRetrain => exact fun t e => .of_keep (KeepX.step execLaneRetrain_keep (by decide) Keep.rfl' t e)
  case causewayTimeSample => exact fun t e => .of_keep (KeepX.step execCausewayTimeSample_keep (by decide) Keep.rfl' t e)
  case correctableError => exact fun t e => .of_keep (KeepX.step execCorrectableError_keep (by decide) Keep.rfl' t e)
  case uncorrectableDramError => exact fun t e => .of_keep (KeepX.step execUncorrectableDramError_keep (by decide) Keep.rfl' t e)
  case counterSelectWrite => exact fun t e => .of_keep (KeepX.step execCounterSelectWrite_keep (by decide) Keep.rfl' t e)
  case counterValueWrite => exact fun t e => .of_keep (KeepX.step execCounterValueWrite_keep (by decide) Keep.rfl' t e)
  case counterFreeze => exact fun t e => .of_keep (KeepX.step execCounterFreeze_keep (by decide) Keep.rfl' t e)
  case counterSnapshot => exact fun t e => .of_keep (KeepX.step execCounterSnapshot_keep (by decide) Keep.rfl' t e)
  case counterClear => exact fun t e => .of_keep (KeepX.step execCounterClear_keep (by decide) Keep.rfl' t e)
  case counterWindowSelect => exact fun t e => .of_keep (KeepX.step execCounterWindowSelect_keep (by decide) Keep.rfl' t e)
  case counterFreezeUtWrite => exact fun t e => .of_keep (KeepX.step execCounterFreezeUtWrite_keep (by decide) Keep.rfl' t e)
  case counterFreezeUtFire => exact fun t e => .of_keep (KeepX.step execCounterFreezeUtFire_keep (by decide) Keep.rfl' t e)
  case bandwidthWindowEnd => exact fun t e => .of_keep (KeepX.step execBandwidthWindowEnd_keep (by decide) Keep.rfl' t e)
  case consoleLine => exact fun t e => .of_or (KeepX.step execConsoleLine_keep (by decide) Keep.rfl' t e)
  case help => exact fun t e => .of_or (KeepX.step execHelp_keep (by decide) Keep.rfl' t e)
  case status => exact fun t e => .of_or (KeepX.step execStatus_keep (by decide) Keep.rfl' t e)
  case seatShow => exact fun t e => .of_or (KeepX.step execSeatShow_keep (by decide) Keep.rfl' t e)
  case seatList => exact fun t e => .of_or (KeepX.step execSeatList_keep (by decide) Keep.rfl' t e)
  case seatCycle => exact fun t e => .of_or (KeepX.step execSeatCycle_keep (by decide) Keep.rfl' t e)
  case seatCont => exact fun t e => .of_or (KeepX.step execSeatCont_keep (by decide) Keep.rfl' t e)
  case seatContRead => exact fun t e => .of_or (KeepX.step execSeatContRead_keep (by decide) Keep.rfl' t e)
  case seatContOff => exact fun t e => .of_or (KeepX.step execSeatContOff_keep (by decide) Keep.rfl' t e)
  case continuityMeasure => exact fun t e => .of_keep (KeepX.step execContinuityMeasure_keep (by decide) Keep.rfl' t e)
  case continuityTimeout => exact fun t e => .of_keep (KeepX.step execContinuityTimeout_keep (by decide) Keep.rfl' t e)
  case seatTdr => exact fun t e => .of_or (KeepX.step execSeatTdr_keep (by decide) Keep.rfl' t e)
  case cableTestDone => exact fun t e => .of_keep (KeepX.step execCableTestDone_keep (by decide) Keep.rfl' t e)
  case supply => exact fun t e => .of_or (KeepX.step execSupply_keep (by decide) Keep.rfl' t e)
  case fans => exact fun t e => .of_or (KeepX.step execFans_keep (by decide) Keep.rfl' t e)
  case log => exact fun t e => .of_or (KeepX.step execLog_keep (by decide) Keep.rfl' t e)
  case logPrev => exact fun t e => .of_or (KeepX.step execLogPrev_keep (by decide) Keep.rfl' t e)
  case errors => exact fun t e => .of_or (KeepX.step execErrors_keep (by decide) Keep.rfl' t e)
  case tp => exact fun t e => .of_or (KeepX.step execTp_keep (by decide) Keep.rfl' t e)
  case meas => exact fun t e => .of_or (KeepX.step execMeas_keep (by decide) Keep.rfl' t e)
  case measUpdate => exact fun t e => .of_keep (KeepX.step execMeasUpdate_keep (by decide) Keep.rfl' t e)
  case testList => exact fun t e => .of_or (KeepX.step execTestList_keep (by decide) Keep.rfl' t e)
  case testRun => exact fun t e => .of_or (KeepX.step execTestRun_keep (by decide) Keep.rfl' t e)
  case selfTestDone => exact fun t e => .of_keep (KeepX.step execSelfTestDone_keep (by decide) Keep.rfl' t e)
  case service => exact fun t e => .of_or (KeepX.step execService_keep (by decide) Keep.rfl' t e)
  case serviceEnd => exact fun t e => .of_or (KeepX.step execServiceEnd_keep (by decide) Keep.rfl' t e)
  case consoleWarm => exact fun t e => .of_or (KeepX.step execConsoleWarm_keep (by decide) Keep.rfl' t e)
  case consoleCold => exact fun t e => .of_or (KeepX.step execConsoleCold_keep (by decide) Keep.rfl' t e)
  case consoleRestart => exact fun t e => .of_or (KeepX.step execConsoleRestart_keep (by decide) Keep.rfl' t e)
  case consoleStop => exact fun t e => .of_or (KeepX.step execConsoleStop_keep (by decide) Keep.rfl' t e)
  case confirmReply => exact fun t e => .of_or (KeepX.step execConfirmReply_keep (by decide) Keep.rfl' t e)
  case confirmTimeout => exact fun t e => .of_keep (KeepX.step execConfirmTimeout_keep (by decide) Keep.rfl' t e)
  case unsupervisedNotice => exact fun t e => .of_keep (KeepX.step execUnsupervisedNotice_keep (by decide) Keep.rfl' t e)
  case selectTap => exact fun t e => .of_keep (KeepX.step execSelectTap_keep (by decide) Keep.rfl' t e)
  case selectHold => exact execSelectHold_ut
  case selectLongHold => exact fun t e => .of_keep (KeepX.step execSelectLongHold_keep (by decide) Keep.rfl' t e)
  case panelIdle => exact fun t e => .of_keep (KeepX.step execPanelIdle_keep (by decide) Keep.rfl' t e)
  case usbBusReset => exact fun t e => .of_keep (KeepX.step execUsbBusReset_keep (by decide) Keep.rfl' t e)
  case usbSuspend => exact fun t e => .of_keep (KeepX.step execUsbSuspend_keep (by decide) Keep.rfl' t e)
  case usbResume => exact fun t e => .of_keep (KeepX.step execUsbResume_keep (by decide) Keep.rfl' t e)
  case vbusLost => exact fun t e => .of_keep (KeepX.step execVbusLost_keep (by decide) Keep.rfl' t e)
  case vbusPresent => exact fun t e => .of_keep (KeepX.step execVbusPresent_keep (by decide) Keep.rfl' t e)
  case setLineCoding => exact fun t e => .of_keep (KeepX.step execSetLineCoding_keep (by decide) Keep.rfl' t e)
  case getLineCoding => exact fun t e => .of_keep (KeepX.step execGetLineCoding_keep (by decide) Keep.rfl' t e)
  case setControlLineState => exact fun t e => .of_keep (KeepX.step execSetControlLineState_keep (by decide) Keep.rfl' t e)
  case classRequestStall => exact fun t e => .of_keep (KeepX.step (execClassRequestStall_keep (_request := ‹_›)) (by decide) Keep.rfl' t e)
  case bulkOutReceive => exact fun t e => .of_or (KeepX.step execBulkOutReceive_keep (by decide) Keep.rfl' t e)
  case registerReadOversized => exact fun t e => .of_keep (KeepX.step execRegisterReadOversized_keep (by decide) Keep.rfl' t e)
  case registerWrite => exact fun t e => .of_or (KeepX.step execRegisterWrite_keep (by decide) Keep.rfl' t e)
  case supplyOutputFailed => exact execSupplyOutputFailed_ut
  case fanLoss => exact fun t e => .of_keep (KeepX.step execFanLoss_keep (by decide) Keep.rfl' t e)
  case fanInserted => exact fun t e => .of_keep (KeepX.step execFanInserted_keep (by decide) Keep.rfl' t e)
  case thermalLimitCrossed => exact fun t e => .of_keep (KeepX.step execThermalLimitCrossed_keep (by decide) Keep.rfl' t e)
  case phyManagementTimeout => exact fun t e => .of_keep (KeepX.step execPhyManagementTimeout_keep (by decide) Keep.rfl' t e)
  case partnerEnergyDetected => exact fun t e => .of_keep (KeepX.step execPartnerEnergyDetected_keep (by decide) Keep.rfl' t e)
  case openConductorDetected => exact fun t e => .of_keep (KeepX.step execOpenConductorDetected_keep (by decide) Keep.rfl' t e)
  case faultRetryCountClear => exact fun t e => .of_keep (KeepX.step execFaultRetryCountClear_keep (by decide) Keep.rfl' t e)
  case busMasterEnableCleared => exact fun t e => .of_keep (KeepX.step execBusMasterEnableCleared_keep (by decide) Keep.rfl' t e)
  case pasidEnableSet => exact fun t e => .of_keep (KeepX.step execPasidEnableSet_keep (by decide) Keep.rfl' t e)
  case msixVectorUnmasked => exact fun t e => .of_keep (KeepX.step execMsixVectorUnmasked_keep (by decide) Keep.rfl' t e)
  case aspmL1Entry => exact fun t e => .of_keep (KeepX.step execAspmL1Entry_keep (by decide) Keep.rfl' t e)
  case flashWriteComplete => exact fun t e => .of_or (KeepX.step execFlashWriteComplete_keep (by decide) Keep.rfl' t e)
  case mirrorLagTimeout => exact fun t e => .of_keep (KeepX.step execMirrorLagTimeout_keep (by decide) Keep.rfl' t e)
  case consoleRxCharacter => exact fun t e => .of_or (KeepX.step execConsoleRxCharacter_keep (by decide) Keep.rfl' t e)
  case bulkInToken => exact fun t e => .of_keep (KeepX.step execBulkInToken_keep (by decide) Keep.rfl' t e)

end Sys2Proof.Machine
end

