-- ==== Sys2Proof/Laws/Frame.lean ====
section
/-! SUPPORT. From `Keep` to the parts of the state that frames name. -/

namespace Sys2Proof.Machine

/-- The bit of `Keep` that a part has. -/
def Part.idx : Part → Nat
  | .time => 0
  | .functions => 1
  | .ports => 2
  | .managers => 3
  | .hostReads => 4
  | .islets => 5
  | .queues => 6
  | .rings => 7
  | .entries => 8
  | .discards => 9
  | .programs => 10
  | .engines => 11
  | .dispatchers => 12
  | .events => 13
  | .memory => 14
  | .usbSeats => 15
  | .rootPorts => 16
  | .endpoints => 17
  | .transfers => 18
  | .splits => 19
  | .links => 20
  | .dockTimes => 21
  | .tunnels => 22
  | .dockKeys => 23
  | .heads => 24
  | .views => 25
  | .gathers => 26
  | .mirrors => 27
  | .configNos => 28
  | .fabric => 29
  | .gates => 30
  | .lineQueues => 31
  | .network => 32
  | .demand => 33
  | .isletRates => 34
  | .policy => 35
  | .seatPower => 36
  | .domains => 37
  | .supplies => 38
  | .mode => 39
  | .starts => 40
  | .reasons => 41
  | .faults => 42
  | .clocks => 43
  | .errorLogs => 44
  | .counters => 45
  | .service => 46
  | .free => 47
  | .messages => 49
  | .requests => 50
  | .lines => 51
  | .carry => 52

theorem Part.same_of_keep {K : Nat} {s t : State} (h : Keep K s t) (p : Part) (k : K.testBit p.idx = true) : p.same s t := by
  cases p
  case time =>
    have e := h.time k
    simp only [State.part0, Prod.mk.injEq] at e
    exact e
  case functions =>
    intro f
    have e := h.fns k
    simp only [State.part1, Prod.mk.injEq] at e
    obtain ⟨p, c⟩ := f
    cases p <;> cases c <;> simp only [State.fnSt, e]
  case messages =>
    intro f
    have e := h.msgs k
    simp only [State.part49, Prod.mk.injEq] at e
    obtain ⟨p, c⟩ := f
    cases p <;> cases c <;> simp only [FnSt.held, State.fnSt, e]
  case requests => simpa [Part.same, State.part50] using h.hreq k
  case lines => exact h.line k
  case carry => exact h.carry k
  case ports =>
    intro p
    have e := h.ports k
    simp only [State.part2, Prod.mk.injEq] at e
    cases p
    · exact e.1
    · exact e.2
  case managers => simpa [Part.same, State.part3] using h.hcfg k
  case hostReads => simpa [Part.same, State.part4] using h.reads k
  case islets => exact h.isl k
  case queues => simpa [Part.same, State.part6] using h.queues k
  case rings => simpa [Part.same, State.part7] using h.rings k
  case entries => simpa [Part.same, State.part8] using h.entries k
  case discards => simpa [Part.same, State.part9] using h.wqRest k
  case programs => exact h.prog k
  case engines => exact h.tes k
  case dispatchers => simpa [Part.same, State.part12] using h.sched k
  case events => exact h.evt k
  case memory => exact h.mem k
  case usbSeats => exact h.usbSeats k
  case rootPorts => exact h.usbPorts k
  case endpoints => exact h.usbEps k
  case transfers => exact h.usbXfers k
  case splits => exact h.usbTts k
  case links => exact h.linkSeats k
  case dockTimes => exact h.linkTimes k
  case tunnels => exact h.linkTuns k
  case dockKeys => exact h.linkKeys k
  case heads => exact h.heads k
  case views => exact h.views k
  case gathers => simpa [Part.same, State.part26] using h.gathers k
  case mirrors => simpa [Part.same, State.part27] using h.mirrors k
  case configNos => exact h.configNos k
  case fabric => exact h.fab k
  case gates => exact h.tSeats k
  case lineQueues => exact h.wfq k
  case network => exact h.net k
  case demand => exact h.demand k
  case isletRates => exact h.tIslets k
  case policy => simpa [Part.same, State.part35] using h.tRest k
  case seatPower => exact h.pSeats k
  case domains => simpa [Part.same, State.part37] using h.pCores k
  case supplies => simpa [Part.same, State.part38] using h.pRest k
  case mode => exact h.mode0 k
  case starts => simpa [Part.same, State.part40] using h.modeRest k
  case reasons => simpa [Part.same, State.part41] using h.reasons k
  case faults => simpa [Part.same, State.part42] using h.fltA k
  case clocks => simpa [Part.same, State.part43] using h.fltB k
  case errorLogs => simpa [Part.same, State.part44] using h.logs k
  case counters => exact h.cnt k
  case service => exact h.svc k
  case free => exact h.free k

theorem Part.mem_all (p : Part) : p ∈ Part.all := by cases p <;> decide

/-- What an operation that keeps the parts of `K` leaves the same. -/
theorem Only.of_keep {K : Nat} {s t : State} {l : List Part} (h : Keep K s t)
    (hl : Part.all.all (fun p => l.contains p || K.testBit p.idx) = true) : Only l s t := fun p hp => by
  refine Part.same_of_keep h p ?_
  have e := List.all_eq_true.1 hl p p.mem_all
  simpa [hp] using e

end Sys2Proof.Machine
end

