-- ==== Sys2Proof/WellFormed.lean ====
section
/-! DEFINITION. Checks on a command's operands that its types do not make. A command that fails one names
nothing that can happen: a host write outside its BAR, a completion timeout outside range B, a cell time with two cells at one input, a sample
list that does not cover the seats. -/

namespace Sys2Proof

/-- The size of a BAR (02 R28). -/
def Bar.size : Bar → Nat
  | .bar0 => 0x1000000
  | .bar2 => 0x800000
  | .bar4 => 0x10000

/-- A write lies within its BAR (02 R28). -/
def inBar (b : Bar) (off n : Nat) : Bool := decide (off + n ≤ b.size)

/-- At most one cell per input (09 R249). -/
def oneCellEach : List CellIn → Bool
  | [] => true
  | x :: r => r.all (fun y => y.input != x.input) && oneCellEach r

/-- At most one result per pair (15 R383). -/
def onePairEach : List (Fin 4 × CableResult) → Bool
  | [] => true
  | x :: r => r.all (fun y => y.1 != x.1) && onePairEach r

def Instr.wf : Instr → Bool
  | .doorbellPost _ off d => inBar .bar2 off d.length && decide (0 < d.length)
  | .doorbellInvalidate _ off d => inBar .bar2 off d.length && decide (0 < d.length)
  | .registerWrite _ b off d => inBar b off d.length && decide (0 < d.length)
  | .registerReadOversized _ off n => decide (64 < n ∨ off / 64 ≠ (off + n - 1) / 64)
  | .cellTime _ cells => oneCellEach cells
  | .demandLatch _ m _ => decide (m.length = 64)
  | .softShed m _ => decide (m.length = 64)
  | .hardShed m _ => decide (m.length = 64)
  | .cableTestDone ps => onePairEach ps
  | .tp _ v => decide (v.length = 8)
  | .setLineCoding c _ => decide (c.length = 7)
  | .bulkOutReceive b => decide (b.length ≤ 512)
  | .isoResultLost _ n _ => decide (n < 2 ^ 61)
  | .hostLinkUp _ _ k _ => decide (10 ≤ k.timeoutMs ∧ k.timeoutMs ≤ 250)
  | _ => true

end Sys2Proof
end

