-- ==== Sys2Proof/Tests/Slice0.lean ====
section
/-! SUPPORT. Own tests: ill-formed commands that the check refuses, worked examples of the manual, and, for each statement
with hypotheses, a state and operands that meet them, clause by clause. -/

namespace Sys2Proof.Tests
open Sys2Proof Sys2Proof.Machine
set_option maxRecDepth 100000
set_option Elab.async false

/-! ### Ill-formed commands -/

theorem test_wf_post_outside_bar : (Instr.doorbellPost ⟨.h0, .a⟩ 0x7FFFFF [1, 2]).wf = false := by decide +kernel
theorem test_wf_post_empty : (Instr.doorbellPost ⟨.h0, .a⟩ 0 []).wf = false := by decide +kernel
theorem test_wf_invalidate_outside_bar : (Instr.doorbellInvalidate ⟨.h0, .a⟩ 0x800000 [1]).wf = false := by decide +kernel
theorem test_wf_invalidate_empty : (Instr.doorbellInvalidate ⟨.h0, .a⟩ 0 []).wf = false := by decide +kernel
theorem test_wf_write_outside_bar : (Instr.registerWrite ⟨.h0, .a⟩ .bar0 0xFFFFFF [1, 2]).wf = false := by decide +kernel
theorem test_wf_write_empty : (Instr.registerWrite ⟨.h0, .a⟩ .bar0 0 []).wf = false := by decide +kernel
theorem test_wf_read_not_oversized : (Instr.registerReadOversized ⟨.h0, .a⟩ 64 64).wf = false := by decide +kernel
theorem test_wf_read_oversized : (Instr.registerReadOversized ⟨.h0, .a⟩ 0x3C 8).wf = true := by decide +kernel
def wfCell (n : Fin 160) : CellIn := { input := n, first := true, last := true, bytes := List.replicate 64 0, pcsError := false }
theorem test_wf_two_cells_at_an_input : (Instr.cellTime .a [wfCell 3, wfCell 4, wfCell 3]).wf = false := by decide +kernel
theorem test_wf_a_cell_an_input : (Instr.cellTime .a [wfCell 3, wfCell 4]).wf = true := by decide +kernel
theorem test_wf_demand_short : (Instr.demandLatch .a [1, 2] 0).wf = false := by decide +kernel
theorem test_wf_soft_shed_short : (Instr.softShed [1] 0).wf = false := by decide +kernel
theorem test_wf_hard_shed_short : (Instr.hardShed [1] 0).wf = false := by decide +kernel
theorem test_wf_cable_pair_twice : (Instr.cableTestDone [(1, .ok), (1, .crossed)]).wf = false := by decide +kernel
theorem test_wf_tp_short : (Instr.tp .rj45 [1]).wf = false := by decide +kernel
theorem test_wf_coding_short : (Instr.setLineCoding [1] true).wf = false := by decide +kernel
theorem test_wf_bulk_out_long : (Instr.bulkOutReceive (List.replicate 513 0)).wf = false := by decide +kernel
theorem test_wf_result_lost_late : (Instr.isoResultLost 0 (2 ^ 61) 0).wf = false := by decide +kernel
theorem test_wf_result_lost : (Instr.isoResultLost 0 8 0).wf = true := by decide +kernel

/-! ### States that the tests start from -/

def wFn : FnSt := { FnSt.init with link := .up, bme := true, pasidEn := true, msixEn := true }
/-- Both host ports up, H0 holding semaphore 0, in mode DUAL at UT `t`. -/
def unit (t : Nat) : State :=
  { State.reset with
    time := { State.reset.time with utA := t, utB := t }
    host := { HostSt.init with h0a := wFn, h0b := wFn, h1a := wFn, h1b := wFn, sems := [(0, { holder := some .h0, broken := false })] }
    mode := { ModeSt.init with mode := .dual }
    flt := { State.reset.flt with lanes := 0xFFFF } }
def h0a : FnId := ⟨.h0, .a⟩
def h0b : FnId := ⟨.h0, .b⟩
def h1a : FnId := ⟨.h1, .a⟩
def h1b : FnId := ⟨.h1, .b⟩
/-- An islet of H0 with seats, queues, rings. -/
def isl (st : IslState) : IsletSt :=
  { IsletSt.init with st := st, seats := 0x00000003, qa := 16, qb := 16, ra := 4, rb := 4, dqa := 16, dqb := 16, dra := 4, drb := 4, vectors := 8, vbase := 16, weight := 1, pasid := 7 }
/-- Queue 0 of islet 1 on core A. -/
def wQ : QueueSt := { QueueSt.init with base := 0x10000, enable := true, log2 := 6, weight := 1, burst := 4 }
/-- Ring 0 of islet 1 on core A. -/
def wR : RingSt := { RingSt.init with base := 0x20000, enable := true, log2 := 6 }
/-- Islet 1 with a queue and a ring on each core. -/
def wWork (t : Nat) (x : IsletSt) (q : QueueSt) (r : RingSt) : State :=
  ((((unit t).setIslet 1 x).setQueue .a 1 0 q).setRing .a 1 0 r)
/-- Islet 1 with entry 5 open. -/
def wOpen (bytes : List Byte) : State :=
  (wWork 1000000 (isl .active) wQ wR).setEntry 5
    { EntrySt.init with core := .a, islet := 1, queue := 0, idx := 0, bytes := bytes, takenUt := 900 }
def wEntry (bytes : List Byte) : EntrySt :=
  { EntrySt.init with core := .a, islet := 1, queue := 0, idx := 0, bytes := bytes, takenUt := 900 }

/-- The state after a command. -/
def after (s : State) (i : Instr) : State :=
  match exec i s with
  | .next t => t
  | _ => s

/-! ### Worked examples of the manual -/

/-- 03, worked example of a doorbell: islet 7, queue 5, 256 slots, both indices at 0x03FE. -/
def exIslet : IsletSt := { isl .active with qa := 6, qb := 3, ra := 2, rb := 2, vectors := 12, pasid := 0x2A31, prot := true, paired := true }
def exQueue : QueueSt := { wQ with log2 := 8, ring := 1, weight := 4, p := 0x03FE, c := 0x03FE, next := 0x03FE }
def exBell : List Byte :=
  [2, 4, 1, 2] ++ List.replicate 12 0 ++ [0x11, 2, 1, 0, 1, 0x0A, 0, 0] ++ List.replicate 24 0 ++ List.replicate 16 0
def exDoor : State := ((unit 1000000).setIslet 7 exIslet).setQueue .a 7 5 exQueue
theorem test_doorbell_moves_p : ((after exDoor (.doorbellPost h0a 0x060140 exBell)).queue .a 7 5).p = 0x0402 := by decide +kernel
theorem test_doorbell_keeps_inline_units :
    ((after exDoor (.doorbellPost h0a 0x060140 exBell)).queue .a 7 5).inlAt 0x03FE =
      [0x11, 2, 1, 0, 1, 0x0A, 0, 0] ++ List.replicate 24 0 := by decide +kernel
theorem test_queue_status_word :
    ({ exQueue with p := 0x0402, c := 0x0402 } : QueueSt).statusWord = 0x0000008004020402 := by decide +kernel

/-- 16: islet 7's queue 5 on core A is configured at MW 0x4300A0, through H0A. -/
def exCold : State := ((unit 1000000).setIslet 7 exIslet).setQueue .a 7 5 { QueueSt.init with base := 0 }
theorem test_queue_base_address :
    ((after exCold (.registerWrite h0a .bar0 0x4300A0 [0, 0, 0x34, 0x12, 0, 0, 0, 0])).queue .a 7 5).base = 0x12340000 := by decide +kernel

/-- 02, worked example: the descriptor of islet 7. -/
def exDescriptor : List Byte :=
  [7, 9, 0, 0, 0x31, 0x2A, 0, 0, 0, 0x0C, 0, 0, 0, 1, 0, 0, 6, 0, 3, 0, 2, 0, 2, 0, 12, 0, 16, 0, 0, 0, 0, 0, 120, 0, 0, 0, 192, 0, 0, 0] ++
    List.replicate 24 0
def exCreate : State :=
  ((unit 1000).setHost { (unit 1000).host with wiring := true }).setCmdSt .h0 .islet { CmdSt.init with busy := true, op := 1, arg := 7, fn := h0a, phase := .waitRead }
def exCreated : State := after exCreate (.descriptorReadCompletion .h0 .islet (some exDescriptor))
theorem test_create_status : (exCreated.cmdSt .h0 .islet).status = 0 ∧ (exCreated.islet 7).st = .active := by decide +kernel
theorem test_create_fields : (exCreated.islet 7).qa = 6 ∧ (exCreated.islet 7).qb = 3 ∧ (exCreated.islet 7).vectors = 12 ∧
    (exCreated.islet 7).pasid = 0x2A31 ∧ (exCreated.islet 7).seats = 0x0000010000000C00 := by decide +kernel

/-- 05, worked example of affinity: items 1 to 5 of cluster 1, level 5. -/
def exItem (flow : BitVec 24) (passed : Nat) : Item := { Item.init with kind := 1, level := 5, flow := flow, islet := 1, home := 1, passed := passed }
def exItems : List Item := [exItem 0x405023 0, exItem 0x409063 2, exItem 0x40D045 0, exItem 0x4110A3 0, exItem 0x409085 0]
def exDisp : State :=
  (((unit 1000).setDispatch .a { DispSt.init with ready := exItems, lastTe := [(0x4110A3, 9)] }).setTeSt .a 12
    { TeSt.init with cur := some { Run.init with item := exItem 0x405023 0 } }).setTeSt .a 9 { TeSt.init with lastFlows := [0x4110A3] }
theorem test_affinity_first_pick : (exDisp.pick .a 9 none).map (·.2.flow) = some 0x4110A3 := by decide +kernel
theorem test_affinity_passed :
    ((after exDisp (.itemDispatch .a 9)).dispatch .a).ready.map (·.passed) = [0, 3, 1, 0] := by decide +kernel
theorem test_affinity_second_pick :
    ((after exDisp (.itemDispatch .a 9)).pick .a 10 none).map (·.2.flow) = some 0x409063 := by decide +kernel

/-- 05, worked example of a lost pending bit: sources 256 and 261 share `EVT_PENDING_4`. -/
def exPending : State := after (after (unit 1000) (.eventEdge .a 256)) (.eventEdge .a 261)
theorem test_pending_word : (exPending.evtCore .a).pend 4 = 0x21 := by decide +kernel
theorem test_pending_lost : ((after exPending (.evtPendingWrite (.prog .a) .a false 4 0)).evtCore .a).pend 4 = 0 := by decide +kernel

/-- 06, worked example of an agent desk: costs of the webcam and the headset. -/
theorem test_webcam_cost : ({ EpSt.init with speed := 3, maxPacket := 1024 } : EpSt).worst = 9998 := by decide +kernel
theorem test_headset_cost : ({ EpSt.init with speed := 2, maxPacket := 96 } : EpSt).worst = 1000 := by decide +kernel

/-- 09, worked example of a slice: cells of the frames. -/
theorem test_slice_cells : cellsOf 9212 = 144 ∧ cellsOf 4892 = 77 := by decide +kernel

/-- 11, worked example of a generator sag: both feeds at 140 V, B = 820 W. -/
def exSag : SupplySt := { SupplySt.init with vins := [(1000, 1400)] }
theorem test_sag_rating : exSag.rating = 1400 := by decide +kernel
def exFloor : State :=
  let u := unit 100000000000
  let u := u.setPow { u.pow with budget := 820, seats := allSeats.map fun x => (x.val, { SeatPower.init with st := .powered, assigned := 4, requested := 4 }) }
  u.setTraf { u.traf with seats := allSeats.map fun x => (x.val, { SeatTraf.init with watts := if x.val < 4 then 13 else 12 }) }
def exDraw : List Nat := (List.range 64).map fun k => if k < 4 then 150 else 140
theorem test_sag_shed : (allSeats.filter fun x => ((after exFloor (.softShed exDraw 100000000000)).seatPower x).st = .shed) =
    [58, 59, 60, 61, 62, 63] := by decide +kernel

/-- 13 and 04: CRC-32 and SHA-256 of the published check strings. -/
theorem test_crc32 : crc32 [0x31, 0x32, 0x33, 0x34, 0x35, 0x36, 0x37, 0x38, 0x39] = 0xCBF43926 := by decide +kernel
theorem test_sha256 : (sha256 [0x61, 0x62, 0x63]).take 4 = [0xBA, 0x78, 0x16, 0xBF] := by decide +kernel

/-! ### Single commands -/

/-- 02 R35: a lease that runs out is over. -/
def wExLease : State := (unit 1000).setPort .h0 { PortSt.init with leaseEnd := some 1500 }
theorem test_lease_ends : ((after wExLease (.leaseExpiry .h0 1500)).portSt .h0).leaseEnd = none := by decide +kernel
theorem test_step_runs_front :
    step ((unit 1000).setPending [.eventEdge .a 256]) = exec (.eventEdge .a 256) (unit 1000) := rfl
theorem test_step_idles : ((unit 1000).arrive 1001).ut .a = 1001 ∧ ((unit 1000).arrive 1001).ut .b = 1001 := by decide +kernel
/-- 02 R33: a semaphore held by the other port reads as held, and a release by another port has no effect. -/
theorem test_sem_release_by_other : ((after (unit 1000) (.semRelease h1a 0)).sem 0).holder = some .h0 := by decide +kernel
/-- A TE with item registers g1 = 2^64 − 1, g2 = 2, g3 = 0. -/
def exTe : State :=
  (wWork 1000000 { isl .active with budget := 20000 } wQ wR).setTeSt .a 3
    { TeSt.init with cur := some { Run.init with item := { Item.init with kind := 3, islet := 1 }, regs := ((Vector.replicate 32 0).set 1 0xFFFFFFFFFFFFFFFF).set 2 2 } }
def exG (i : Instr) (r : Reg) : W64 := ((after exTe i).teCtx .a 3).get r
theorem test_add_wraps : exG (.add .a 3 5 1 2) 5 = 1 := by decide +kernel
theorem test_g0_takes_no_write : exG (.add .a 3 0 1 2) 0 = 0 := by decide +kernel
theorem test_divu_by_zero : exG (.divu .a 3 5 2 3) 5 = 0xFFFFFFFFFFFFFFFF := by decide +kernel
theorem test_remu_by_zero : exG (.remu .a 3 5 2 3) 5 = 2 := by decide +kernel
theorem test_mulhu : exG (.mulhu .a 3 5 1 2) 5 = 1 := by decide +kernel
theorem test_lui_sign_extends : exG (.lui .a 3 5 0x8000) 5 = 0xFFFFFFFF80000000 := by decide +kernel
theorem test_andi_zero_extends : exG (.andi .a 3 5 1 0xFFF8) 5 = 0xFFF8 := by decide +kernel
theorem test_slti_signed : exG (.slti .a 3 5 1 0) 5 = 1 := by decide +kernel
theorem test_sltu_unsigned : exG (.sltu .a 3 5 1 2) 5 = 0 := by decide +kernel
theorem test_bfi_keeps_others : exG (.bfi .a 3 1 2 4 3) 1 = 0xFFFFFFFFFFFFFF2F := by decide +kernel
/-- 04 R103: the two words that the manual writes out. -/
theorem test_word_addi : (Instr.addi .a 0 5 3 0xFFF8).word = some 0x04A3FFF8 := by decide +kernel
theorem test_word_loop : (Instr.loop .a 0 9 64 12).word = some 0xB120C040 := by decide +kernel
theorem test_no_word_spells_a_command : decodeTableWord 32 0x04A3FFF8 = none := by decide +kernel

theorem forall_port (P : PortId → Prop) : (∀ p, P p) ↔ P .h0 ∧ P .h1 :=
  ⟨fun h => ⟨h .h0, h .h1⟩, fun h p => by cases p; exacts [h.1, h.2]⟩

/-! ### States and operands that meet the hypotheses of the statements -/

theorem witness_StepTakesTheFront : State.reset.pending = [] := rfl
theorem witness_CommandFrames : exec (.nop .a 0) State.reset = .next (after State.reset (.nop .a 0)) := rfl
theorem witness_MemoryStaysCanonical : State.reset.mem.wf = true ∧ step State.reset = .next (State.reset.arrive (State.reset.now + 1)) :=
  ⟨by decide +kernel, rfl⟩
theorem witness_UnitTimeNeverRunsBack : step State.reset = .next (State.reset.arrive (State.reset.now + 1)) := rfl
theorem witness_MemoryReadsWhatWasWritten : Memory.wf [(3, 7)] = true ∧ (3 ≤ 3 ∧ 3 < 3 + [7, 8].length) ∧ ¬(3 ≤ 5 ∧ 5 < 3 + [7, 8].length) := by
  decide +kernel
theorem witness_YelcyRegisters : (0 : Reg).val = 0 ∧ (31 : Reg).val ≠ 0 ∧ (1 : Reg) ≠ 31 ∧
    ({ exTe.teCtx .a 3 with handler := true } : TeCtx).handler = true ∧ 24 ≤ (24 : Reg).val := by decide +kernel
theorem witness_YelcyEncodings : (Instr.beq .a 0 1 2 0x8000).word = some 0x80228000 ∧ (Instr.addi .a 0 5 3 0xFFF8).onTe = (Instr.beq .a 0 1 2 0x8000).onTe := by
  decide +kernel

namespace G1
def wLease : State := (unit 1000).setPort .h0 { PortSt.init with leaseEnd := some 1500 }
def wNoReferee : State := (unit 1000).setFlt { (unit 1000).flt with refereeLost := true }
def wSemHeld : State := (unit 1000).setSem 3 { holder := some .h0, broken := false }
def wOther : State := (unit 1000).setIslet 1 { isl .active with viaOtherA := true }
theorem witness_ManagersAndFunctions :
    -- clause 0.0
    (((unit 1000).fnUp h0a = true)) ∧
    -- clause 0.2
    (((wLease.portSt PortId.h0).leaseEnd = some 1500)) ∧
    -- clause 0.3
    (((unit 1000).fnUp h0a = true) ∧
     ((unit 1000).flt.refereeLost = false) ∧
     (((unit (1000 : ℕ)).sem ↑(3 : Fin (64 : ℕ))).holder = none)) ∧
    -- clause 0.4
    (((unit 1000).fnUp h0a = true) ∧
     ((unit 1000).flt.refereeLost = false) ∧
     (((unit (1000 : ℕ)).sem ↑(63 : Fin (64 : ℕ))).holder = none)) ∧
    -- clause 0.5
    ((wNoReferee.fnUp h0a = true) ∧
     (wNoReferee.flt.refereeLost = true)) ∧
    -- clause 0.6
    ((wSemHeld.fnUp h0a = true) ∧
     (wSemHeld.flt.refereeLost = false) ∧
     ((wSemHeld.sem ↑(3 : Fin (64 : ℕ))).holder = some h0a.port)) ∧
    -- clause 6
    ((((unit 1000).fnSt h0a).link = FnLink.up)) ∧
    -- clause 8
    (((unit 1000).mode.mode ≠ Mode.unpowered) ∧
     (((unit 1000).coreSt h0a.core).heldReset = false) ∧
     (9 ≤ (unit 1000).startStep.getD 9)) ∧
    -- clause 9
    (((wOther.islet 1).st ≠ IslState.free) ∧
     ((wOther.islet 1).viaOther CoreId.a = true) ∧
     (wOther.canRequest { port := (wOther.islet (1 : IsletNo)).home, core := CoreId.a : FnId } = true)) := by
  and_intros <;> decide +kernel
end G1

namespace G2
def wIsl (st : IslState) : State := (unit 1000).setIslet 1 (isl st)
/-- A command set of port H0 waits for the data of its host read. -/
def wReading (k : CmdSet) (op arg : Byte) (s : State) : State :=
  s.setCmdSt .h0 k { CmdSt.init with busy := true, op := op, arg := arg, fn := h0a, phase := .waitRead }
/-- A descriptor of islet 1: seats 0 and 1, PASID 7, 16 queues and 4 rings a core, 8 vectors, weight 1. -/
def wDescriptor : List Byte :=
  [1, 0, 0, 0, 7, 0, 0, 0, 3, 0, 0, 0, 0, 0, 0, 0, 16, 0, 16, 0, 4, 0, 4, 0, 8, 0, 1, 0] ++ List.replicate 36 0
def wSeatsDescriptor : List Byte :=
  [1, 0, 0, 0, 7, 0, 0, 0, 7, 0, 0, 0, 0, 0, 0, 0, 16, 0, 16, 0, 4, 0, 4, 0, 8, 0, 1, 0] ++ List.replicate 36 0
/-- A key record of dock 5. -/
def wKey : List Byte := [5, 0, 0, 0, 0, 0, 0, 0] ++ List.replicate 32 0xAA ++ List.replicate 24 0
def wKeyName : List Byte := [5, 0, 0, 0, 0, 0, 0, 0] ++ List.replicate 56 0
def wWithKey : State := (unit 1000).setLink { (unit 1000).link with keys := [(5, List.replicate 32 0xAA)] }
def wWaitBme : State :=
  (unit 3000000).setCmdSt .h0 .islet { CmdSt.init with busy := true, op := 1, arg := 1, fn := h0a, phase := .waitBme, goUt := 1000000 }
def wImage : ImageSt :=
  { id := .unit 2, base := 0, words := [0xDC000000], entry := [0], data := [], dataOff := 0, tag := 0, queue := 0, live := true, aborts := 0 }
def wWithImage : State := ((unit 1000).setStore .a [wImage]).setStore .b [wImage]
def wTwoSlots : State := (unit 1000).setMode { (unit 1000).mode with slot1 := SlotSt.init true }
def wUnsupervised : State := (unit 1000).setMode { (unit 1000).mode with mode := .unsupervised }
def wWriting : State :=
  (unit 1000).setMode { (unit 1000).mode with writing := some (.h0, 1, [0, 0, 0, 0, 9, 0, 0, 0]) }
theorem witness_IsletCommands :
    -- clause 0
    ((IsletCmdFits (wIsl IslState.active) h0a 2 1) ∧
     (((wIsl IslState.active).islet (toIslet (BitVec.toNat (1 : Byte)))).st = IslState.active)) ∧
    -- clause 1
    ((IsletCmdFits (wIsl IslState.quiesced) h0a 3 1) ∧
     (((wIsl IslState.quiesced).islet (toIslet (BitVec.toNat (1 : Byte)))).st = IslState.quiesced)) ∧
    -- clause 2
    ((IsletCmdFits (wIsl IslState.halted) h0a 4 1) ∧
     (((wIsl IslState.halted).islet (toIslet (BitVec.toNat (1 : Byte)))).st = IslState.quiesced ∨ ((wIsl IslState.halted).islet (toIslet (BitVec.toNat (1 : Byte)))).st = IslState.halted ∨ ((wIsl IslState.halted).islet (toIslet (BitVec.toNat (1 : Byte)))).st = IslState.reattach) ∧
     ((wIsl IslState.halted).drained (toIslet (BitVec.toNat (1 : Byte))) = true) ∧
     ((wIsl IslState.halted).resetFits (toIslet (BitVec.toNat (1 : Byte))) = none)) ∧
    -- clause 3
    ((IsletCmdFits (wIsl IslState.quiesced) h0a 5 1) ∧
     (((wIsl IslState.quiesced).islet (toIslet (BitVec.toNat (1 : Byte)))).st = IslState.quiesced ∨ ((wIsl IslState.quiesced).islet (toIslet (BitVec.toNat (1 : Byte)))).st = IslState.halted) ∧
     ((wIsl IslState.quiesced).drained (toIslet (BitVec.toNat (1 : Byte))) = true)) ∧
    -- clause 4
    ((IsletCmdFits (unit 1000) h0a 1 128) ∧
     (((unit (1000 : ℕ)).islet (toIslet (BitVec.toNat (128 : Byte)))).st = IslState.free)) ∧
    -- clause 5
    ((IsletCmdFits (wIsl IslState.quiesced) h0a 6 1) ∧
     (((wIsl IslState.quiesced).islet (toIslet (BitVec.toNat (1 : Byte)))).st = IslState.quiesced) ∧
     ((wIsl IslState.quiesced).drained (toIslet (BitVec.toNat (1 : Byte))) = true)) ∧
    -- clause 6
    (((unit 1000).fnUp h0a = true) ∧
     (SetIdle (unit 1000) CmdSet.islet) ∧
     ((1 : ℕ) ≤ BitVec.toNat (1 : Byte)) ∧
     (BitVec.toNat (1 : Byte) ≤ (128 : ℕ)) ∧
     ((7 : Byte) = (0 : Byte) ∨ (6 : ℕ) < BitVec.toNat (7 : Byte))) ∧
    -- clause 7
    (((wIsl IslState.halting).drained 1 = true)) := by
  unfold IsletCmdFits SetIdle
  simp only [forall_port]
  and_intros <;> decide +kernel
theorem witness_CommandReads :
    -- clause 0
    ((Reading (wReading CmdSet.islet 1 1 (unit 1000)) PortId.h0 CmdSet.islet 1) ∧
     ((wReading CmdSet.islet 1 1 (unit 1000)).isletCheck PortId.h0 ((wReading CmdSet.islet 1 1 (unit 1000)).cmdSt PortId.h0 CmdSet.islet) = none) ∧
     ((wReading CmdSet.islet 1 1 (unit 1000)).createCheck PortId.h0 wDescriptor (BitVec.toNat ((wReading CmdSet.islet 1 1 (unit 1000)).cmdSt PortId.h0 CmdSet.islet).arg) ((wReading CmdSet.islet 1 1 (unit 1000)).cmdSt PortId.h0 CmdSet.islet).fn.core = none)) ∧
    -- clause 1
    ((Reading (wReading CmdSet.islet 6 1 (wIsl IslState.quiesced)) PortId.h0 CmdSet.islet 6) ∧
     ((wReading CmdSet.islet 6 1 (wIsl IslState.quiesced)).isletCheck PortId.h0 ((wReading CmdSet.islet 6 1 (wIsl IslState.quiesced)).cmdSt PortId.h0 CmdSet.islet) = none) ∧
     (seatsDescriptorBad wSeatsDescriptor (BitVec.toNat ((wReading CmdSet.islet 6 1 (wIsl IslState.quiesced)).cmdSt PortId.h0 CmdSet.islet).arg) ((wReading CmdSet.islet 6 1 (wIsl IslState.quiesced)).islet (toIslet (BitVec.toNat ((wReading CmdSet.islet 6 1 (wIsl IslState.quiesced)).cmdSt PortId.h0 CmdSet.islet).arg))) = false) ∧
     ((wReading CmdSet.islet 6 1 (wIsl IslState.quiesced)).seatTaken (toIslet (BitVec.toNat ((wReading CmdSet.islet 6 1 (wIsl IslState.quiesced)).cmdSt PortId.h0 CmdSet.islet).arg)) (dSeats wSeatsDescriptor) = false) ∧
     (((wReading CmdSet.islet 6 1 (wIsl IslState.quiesced)).islet (toIslet (BitVec.toNat ((wReading CmdSet.islet 6 1 (wIsl IslState.quiesced)).cmdSt PortId.h0 CmdSet.islet).arg))).seats &&& ~~~dSeats wSeatsDescriptor = 0)) ∧
    -- clause 2
    ((Reading (wReading CmdSet.dockKey 1 0 (unit 1000)) PortId.h0 CmdSet.dockKey 1) ∧
     (keyRecordBad 1 wKey = false) ∧
     (((wReading CmdSet.dockKey (1 : Byte) (0 : Byte) (unit (1000 : ℕ))).dockKey (BitVec.ofNat (64 : ℕ) (fld wKey (0 : ℕ) (8 : ℕ)))).isSome = true ∨ (wReading CmdSet.dockKey (1 : Byte) (0 : Byte) (unit (1000 : ℕ))).link.keys.length < (512 : ℕ))) ∧
    -- clause 3
    ((Reading (wReading CmdSet.dockKey 2 0 wWithKey) PortId.h0 CmdSet.dockKey 2) ∧
     (keyRecordBad 2 wKeyName = false) ∧
     (((wReading CmdSet.dockKey (2 : Byte) (0 : Byte) wWithKey).dockKey (BitVec.ofNat (64 : ℕ) (fld wKeyName (0 : ℕ) (8 : ℕ)))).isSome = true)) ∧
    -- clause 4
    ((Reading (wReading CmdSet.islet 1 1 (unit 1000)) PortId.h0 CmdSet.islet 1) ∧
     (CmdSet.islet = CmdSet.islet → (wReading CmdSet.islet 1 1 (unit 1000)).isletCheck PortId.h0 ((wReading CmdSet.islet 1 1 (unit 1000)).cmdSt PortId.h0 CmdSet.islet) = none)) ∧
    -- clause 4
    ((Reading (wReading CmdSet.unitProgram 1 1 (unit 1000)) PortId.h0 CmdSet.unitProgram 1) ∧
     (CmdSet.unitProgram = CmdSet.islet → (wReading CmdSet.unitProgram 1 1 (unit 1000)).isletCheck PortId.h0 ((wReading CmdSet.unitProgram 1 1 (unit 1000)).cmdSt PortId.h0 CmdSet.islet) = none)) ∧
    -- clause 5
    (((wWaitBme.cmdSt PortId.h0 CmdSet.islet).busy = true) ∧
     ((wWaitBme.cmdSt PortId.h0 CmdSet.islet).phase = CmdPhase.waitBme) ∧
     ((wWaitBme.cmdSt PortId.h0.other CmdSet.islet).busy = false) ∧
     ((wWaitBme.cmdSt PortId.h0 CmdSet.islet).goUt + 2000000 ≤ 3000000)) := by
  unfold Reading
  and_intros <;> decide +kernel
theorem witness_UnitCommands :
    -- clause 0.0
    (((unit 1000).fnUp h0a = true) ∧
     (SetIdle (unit 1000) CmdSet.unitProgram) ∧
     ((unit 1000).mode.mode ≠ Mode.unsupervised) ∧
     ((unit 1000).mode.mode ≠ Mode.safeStop) ∧
     ((unit 1000).mayUnitWide h0a.port = true) ∧
     ((unit 1000).apart = false)) ∧
    -- clause 0.1
    ((wWithImage.fnUp h0a = true) ∧
     (SetIdle wWithImage CmdSet.unitProgram) ∧
     (wWithImage.mode.mode ≠ Mode.unsupervised) ∧
     (wWithImage.mode.mode ≠ Mode.safeStop) ∧
     (wWithImage.mayUnitWide h0a.port = true) ∧
     (wWithImage.apart = false) ∧
     ((bothCores.any fun c => (wWithImage.store c).any fun m => m.live && m.id == ProgId.unit 2) = true)) ∧
    -- clause 1
    (((unit 1000).fnUp h0a = true) ∧
     (SetIdle (unit 1000) CmdSet.unitProgram) ∧
     ((1 : Byte) ≠ (1 : Byte) ∧ (1 : Byte) ≠ (2 : Byte) ∨ (3 : ℕ) < BitVec.toNat (4 : Byte))) ∧
    -- clause 2.0
    ((wWithKey.fnUp h0a = true) ∧
     (SetIdle wWithKey CmdSet.dockKey) ∧
     (wWithKey.mode.mode ≠ Mode.unsupervised) ∧
     (wWithKey.mode.mode ≠ Mode.safeStop) ∧
     (wWithKey.mayUnitWide h0a.port = true) ∧
     (wWithKey.apart = false)) ∧
    -- clause 3
    ((wWithKey.fnUp h0a = true) ∧
     (SetIdle wWithKey CmdSet.dockKey) ∧
     ((4 : Byte) = (0 : Byte) ∨ (3 : ℕ) < BitVec.toNat (4 : Byte))) ∧
    -- clause 4.0
    ((wTwoSlots.fnUp h0a = true) ∧
     (SetIdle wTwoSlots CmdSet.unitCmd) ∧
     (wTwoSlots.mayUnitWide h0a.port = true) ∧
     (wTwoSlots.unitModeTakes 1 = true)) ∧
    -- clause 4.1
    ((wTwoSlots.fnUp h0a = true) ∧
     (SetIdle wTwoSlots CmdSet.unitCmd) ∧
     (wTwoSlots.mayUnitWide h0a.port = true) ∧
     (wTwoSlots.unitModeTakes 2 = true)) ∧
    -- clause 4.2
    ((wTwoSlots.fnUp h0a = true) ∧
     (SetIdle wTwoSlots CmdSet.unitCmd) ∧
     (wTwoSlots.mayUnitWide h0a.port = true) ∧
     (wTwoSlots.unitModeTakes 3 = true) ∧
     (wTwoSlots.rollCheck 1 false = none)) ∧
    -- clause 4.3
    ((wTwoSlots.fnUp h0a = true) ∧
     (SetIdle wTwoSlots CmdSet.unitCmd) ∧
     (wTwoSlots.mayUnitWide h0a.port = true) ∧
     (wTwoSlots.unitModeTakes 4 = true) ∧
     (wTwoSlots.mode.runningA ≠ slotOf 1) ∧
     (wTwoSlots.mode.runningB ≠ slotOf 1)) ∧
    -- clause 5
    ((wUnsupervised.fnUp h0a = true) ∧
     (SetIdle wUnsupervised CmdSet.unitCmd) ∧
     (wUnsupervised.mayUnitWide h0a.port = true) ∧
     (wUnsupervised.mode.mode = Mode.unsupervised)) ∧
    -- clause 6.0
    (((unit 1000).fnUp h0a = true) ∧
     (SetIdle (unit 1000) CmdSet.unitCmd) ∧
     ((unit 1000).unitCmdOff 1 = false) ∧
     ((1 : Byte) = (0 : Byte) ∨ (5 : ℕ) < BitVec.toNat (1 : Byte) ∨ (1 : Byte) ≠ (5 : Byte) ∧ (1 : ℕ) < BitVec.toNat (2 : Byte))) ∧
    -- clause 6.1
    ((wUnsupervised.fnUp h0a = true) ∧
     (SetIdle wUnsupervised CmdSet.unitCmd) ∧
     (wUnsupervised.unitCmdOff 1 = true)) ∧
    -- clause 7.0
    (((wWriting.cmdSt PortId.h0.other CmdSet.unitCmd).busy = false) ∧
     (wWriting.mode.writing = some (PortId.h0, 1, [0, 0, 0, 0, 9, 0, 0, 0]))) := by
  unfold SetIdle
  simp only [forall_port]
  and_intros <;> decide +kernel
end G2

namespace G3
/-- A doorbell: producer index, operation, core A. -/
def wBell (pi op : Byte) : List Byte := [pi, 0, op, 0] ++ List.replicate 60 0
def wInvalidate : List Byte := [2, 0, 2, 0, 0, 0, 0, 0, 0, 0, 1, 0] ++ List.replicate 52 0
def wBase : State := wWork 1000000 (isl .active) wQ wR
def wPosted : State := wWork 1000000 (isl .active) { wQ with p := 2 } wR
def wDrainRing (st : IslState) : State := wWork 1000000 (isl st) wQ { wR with p := 3 }
def wDiffer : State := wWork 1000000 { isl .active with prot := true } wQ { wR with differSince := some 100 }
def wNop : List Byte := [1, 1, 0, 0, 9, 0, 0, 0] ++ List.replicate 8 0
def wFetch : State := wWork 1000000 (isl .active) { wQ with p := 2, posts := [(0, 2, 900)] } wR
def wCached : State := wWork 1000000 (isl .active) { wQ with p := 2, next := 1, credit := 1, cache := [⟨0, wNop, 900⟩] } wR
def wRec : Rec := { bytes := List.replicate 32 1, notify := false, ut := 900, port := none, sent := false, lat := none }
def wMade : State := wWork 1000000 (isl .active) wQ { wR with made := [wRec] }
def wProtected : State := wWork 1000000 { isl .active with prot := true } { wQ with c := 3 } wR
/-- A NET_TRANSMIT entry of 100 bytes for seat 0. -/
def wNetTx : List Byte := [0x30, 2, 0, 0, 0, 0, 0, 0, 0, 0, 100, 0, 0, 0, 0, 0, 0, 0x10, 0, 0, 0, 0, 0, 0] ++ List.replicate 8 0
def wNetRead (parts : Tab (List Byte)) : HostRead :=
  { fn := h0a, islet := 1, addr := 0x1000, len := 64, why := .netTx 5, ut := 900, parts := parts, got := none }
def wNetReq (off len : Nat) : ReqSt :=
  { fn := h0a, islet := 1, why := .read 3, off := off, len := len, issued := some 900 }
def wNetReading (off len : Nat) (parts : Tab (List Byte)) : State :=
  ((wOpen wNetTx).setHost { (wOpen wNetTx).host with
    reads := [(3, wNetRead parts)], nextRead := 9, reqs := [(8, wNetReq off len)] }).setSeatNet 0 { SeatNet.init with tx := [5] }
theorem witness_DoorbellsAndConfiguration :
    -- clause 0.0
    (((1 : ℕ) ≤ ↑(1 : IsletNo)) ∧
     (wBase.fnUp h0a = true) ∧
     ((wBase.islet 1).st ≠ IslState.free) ∧
     ((wBase.islet 1).boundVia h0a = true) ∧
     ((wBell 2 1).length = 64) ∧
     (bellNames (wBell 2 1) = some h0a.core) ∧
     (wBase.runs h0a.core = h0a.core) ∧
     (0 < (wBase.islet 1).queues h0a.core) ∧
     ((wBase.islet 1).lost h0a.core = false) ∧
     ((wBase.queue h0a.core 1 0).enable = true) ∧
     (bellOp (wBell 2 1) = 1) ∧
     ((wBase.queue h0a.core 1 0).judge (wBase.queue h0a.core 1 0).c true (wBell 2 1) = none)) ∧
    -- clause 0.1
    (((1 : ℕ) ≤ ↑(1 : IsletNo)) ∧
     (wBase.fnUp h0a = true) ∧
     ((wBase.islet 1).st ≠ IslState.free) ∧
     ((wBase.islet 1).boundVia h0a = true) ∧
     ((wBell 0 3).length = 64) ∧
     (bellNames (wBell 0 3) = some h0a.core) ∧
     (wBase.runs h0a.core = h0a.core) ∧
     (0 < (wBase.islet 1).queues h0a.core) ∧
     ((wBase.islet 1).lost h0a.core = false) ∧
     ((wBase.queue h0a.core 1 0).enable = true) ∧
     (bellOp (wBell 0 3) ≠ 2) ∧
     ((wBase.queue h0a.core 1 0).judge (wBase.queue h0a.core 1 0).c true (wBell 0 3) = some 1) ∧
     ((wBase.islet 1).st = IslState.active)) ∧
    -- clause 0.1
    (((1 : ℕ) ≤ ↑(1 : IsletNo)) ∧
     (wBase.fnUp h0a = true) ∧
     ((wBase.islet 1).st ≠ IslState.free) ∧
     ((wBase.islet 1).boundVia h0a = true) ∧
     ((wBell 65 1).length = 64) ∧
     (bellNames (wBell 65 1) = some h0a.core) ∧
     (wBase.runs h0a.core = h0a.core) ∧
     (0 < (wBase.islet 1).queues h0a.core) ∧
     ((wBase.islet 1).lost h0a.core = false) ∧
     ((wBase.queue h0a.core 1 0).enable = true) ∧
     (bellOp (wBell 65 1) ≠ 2) ∧
     ((wBase.queue h0a.core 1 0).judge (wBase.queue h0a.core 1 0).c true (wBell 65 1) = some 4) ∧
     ((wBase.islet 1).st = IslState.active)) ∧
    -- clause 0.2
    (((1 : ℕ) ≤ ↑(1 : IsletNo)) ∧
     (wPosted.fnUp h0a = true) ∧
     ((wPosted.islet 1).st ≠ IslState.free) ∧
     ((wPosted.islet 1).boundVia h0a = true) ∧
     (wInvalidate.length = 64) ∧
     (bellNames wInvalidate = some h0a.core) ∧
     (wPosted.runs h0a.core = h0a.core) ∧
     (0 < (wPosted.islet 1).queues h0a.core) ∧
     ((wPosted.islet 1).lost h0a.core = false) ∧
     ((wPosted.queue h0a.core 1 0).enable = true) ∧
     (bellOp wInvalidate = 2) ∧
     ((wPosted.queue h0a.core 1 0).judge (wPosted.queue h0a.core 1 0).c true wInvalidate = none)) ∧
    -- clause 1
    ((wBase.fnUp h0a = true) ∧
     ((wBase.islet 1).st ≠ IslState.free) ∧
     (↑(15 : Fin (512 : ℕ)) < (wBase.islet (1 : IsletNo)).queues h0a.core) ∧
     ((wBase.queue h0a.core (1 : IsletNo) ↑(15 : Fin (512 : ℕ))).enable = false) ∧
     (BitVec.getLsbD (9223372054034645249 : W64) (63 : ℕ) = true) ∧
     ((4 : ℕ) ≤ BitVec.toNat (9223372054034645249 : W64) / (2 : ℕ) ^ (32 : ℕ) % (16 : ℕ)) ∧
     ((1 : ℕ) ≤ BitVec.toNat (9223372054034645249 : W64) / (2 : ℕ) ^ (8 : ℕ) % (256 : ℕ)) ∧
     ((1 : ℕ) ≤ BitVec.toNat (9223372054034645249 : W64) % (32 : ℕ)) ∧
     (BitVec.toNat (9223372054034645249 : W64) % (32 : ℕ) ≤ (16 : ℕ)) ∧
     (BitVec.toNat (9223372054034645249 : W64) / (2 : ℕ) ^ (16 : ℕ) % (256 : ℕ) < (wBase.islet (1 : IsletNo)).rings h0a.core) ∧
     ((wBase.ring h0a.core (1 : IsletNo) (BitVec.toNat (9223372054034645249 : W64) / (2 : ℕ) ^ (16 : ℕ) % (256 : ℕ))).enable = true)) ∧
    -- clause 2
    ((wBase.fnUp h0a = true) ∧
     ((wBase.islet 1).st ≠ IslState.free) ∧
     (↑(3 : Fin (256 : ℕ)) < (wBase.islet (1 : IsletNo)).rings h0a.core) ∧
     ((wBase.ring h0a.core (1 : IsletNo) ↑(3 : Fin (256 : ℕ))).enable = false) ∧
     (BitVec.getLsbD (9223372101279285255 : W64) (63 : ℕ) = true) ∧
     ((4 : ℕ) ≤ BitVec.toNat (9223372101279285255 : W64) / (2 : ℕ) ^ (32 : ℕ) % (16 : ℕ)) ∧
     (BitVec.toNat (9223372101279285255 : W64) % (65536 : ℕ) = (65535 : ℕ) ∨ BitVec.toNat (9223372101279285255 : W64) % (65536 : ℕ) < (wBase.islet (1 : IsletNo)).vectors)) ∧
    -- clause 3
    (((wDrainRing IslState.quiescing).fnUp h0a = true) ∧
     (↑(0 : Fin (256 : ℕ)) < ((wDrainRing IslState.quiescing).islet (1 : IsletNo)).rings h0a.core) ∧
     (((wDrainRing IslState.quiescing).islet 1).st = IslState.quiescing ∨ ((wDrainRing IslState.quiescing).islet 1).st = IslState.halting ∨ ((wDrainRing IslState.quiescing).islet 1).st = IslState.halted ∨ ((wDrainRing IslState.quiescing).islet 1).st = IslState.reattach) ∧
     (sub16 (BitVec.ofNat (16 : ℕ) (BitVec.toNat (3 : W64))) ((wDrainRing IslState.quiescing).ring h0a.core (1 : IsletNo) ↑(0 : Fin (256 : ℕ))).c ≤ sub16 ((wDrainRing IslState.quiescing).ring h0a.core (1 : IsletNo) ↑(0 : Fin (256 : ℕ))).p ((wDrainRing IslState.quiescing).ring h0a.core (1 : IsletNo) ↑(0 : Fin (256 : ℕ))).c)) ∧
    -- clause 3
    (((wDrainRing IslState.reattach).fnUp h0a = true) ∧
     (↑(0 : Fin (256 : ℕ)) < ((wDrainRing IslState.reattach).islet (1 : IsletNo)).rings h0a.core) ∧
     (((wDrainRing IslState.reattach).islet 1).st = IslState.quiescing ∨ ((wDrainRing IslState.reattach).islet 1).st = IslState.halting ∨ ((wDrainRing IslState.reattach).islet 1).st = IslState.halted ∨ ((wDrainRing IslState.reattach).islet 1).st = IslState.reattach) ∧
     (sub16 (BitVec.ofNat (16 : ℕ) (BitVec.toNat (0 : W64))) ((wDrainRing IslState.reattach).ring h0a.core (1 : IsletNo) ↑(0 : Fin (256 : ℕ))).c ≤ sub16 ((wDrainRing IslState.reattach).ring h0a.core (1 : IsletNo) ↑(0 : Fin (256 : ℕ))).p ((wDrainRing IslState.reattach).ring h0a.core (1 : IsletNo) ↑(0 : Fin (256 : ℕ))).c)) ∧
    -- clause 4
    (((wDrainRing IslState.active).fnUp h0a = true) ∧
     (((wDrainRing IslState.active).islet 1).boundVia h0a = true) ∧
     ((wDrainRing IslState.active).runs h0a.core = h0a.core) ∧
     (BitVec.getLsbD (3 : W64) (24 : ℕ) = true ↔ h0a.core = CoreId.b) ∧
     (↑(0 : Fin (256 : ℕ)) < ((wDrainRing IslState.active).islet (1 : IsletNo)).rings h0a.core)) ∧
    -- clause 4
    (((wDrainRing IslState.active).fnUp h0a = true) ∧
     (((wDrainRing IslState.active).islet 1).boundVia h0a = true) ∧
     ((wDrainRing IslState.active).runs h0a.core = h0a.core) ∧
     (BitVec.getLsbD (4 : W64) (24 : ℕ) = true ↔ h0a.core = CoreId.b) ∧
     (↑(0 : Fin (256 : ℕ)) < ((wDrainRing IslState.active).islet (1 : IsletNo)).rings h0a.core)) ∧
    -- clause 5
    (((wDiffer.ring CoreId.a (1 : IsletNo) ↑(0 : Fin (256 : ℕ))).differSince = some (100 : ℕ)) ∧
     (wDiffer.protects 1 = true) ∧
     (100 + 1000000 ≤ 2000000)) := by
  and_intros <;> decide +kernel
theorem witness_EntriesAndRecords :
    -- clause 0
    (((wFetch.queue CoreId.a (1 : IsletNo) ↑(0 : Fin (512 : ℕ))).posts = [((0 : Half), (2 : Half), (900 : ℕ))]) ∧
     ((wFetch.islet 1).st ≠ IslState.free) ∧
     (wFetch.running CoreId.a = true) ∧
     ((wFetch.queue CoreId.a (1 : IsletNo) ↑(0 : Fin (512 : ℕ))).enable = true) ∧
     ((wFetch.queue CoreId.a (1 : IsletNo) ↑(0 : Fin (512 : ℕ))).frozen = false) ∧
     ((wFetch.queue CoreId.a (1 : IsletNo) ↑(0 : Fin (512 : ℕ))).cache.length < (16 : ℕ)) ∧
     ((wFetch.queue CoreId.a (1 : IsletNo) ↑(0 : Fin (512 : ℕ))).inlAt (wFetch.queue CoreId.a (1 : IsletNo) ↑(0 : Fin (512 : ℕ))).next = []) ∧
     (wFetch.canRequest (wFetch.islFn CoreId.a 1) = true) ∧
     ((wFetch.fnSt (wFetch.islFn CoreId.a 1)).pasidEn = true) ∧
     (parseEntry [] (sub16 (2 : Half) (wFetch.queue CoreId.a (1 : IsletNo) ↑(0 : Fin (512 : ℕ))).next) (some wNop) = some (Sum.inr wNop)) ∧
     ((List.map (fun v => v.bytes.length / (16 : ℕ)) (wFetch.queue CoreId.a (1 : IsletNo) ↑(0 : Fin (512 : ℕ))).cache).sum + wNop.length / (16 : ℕ) ≤ (64 : ℕ))) ∧
    -- clause 1
    ((TakesNext wCached CoreId.a (1 : IsletNo) (0 : Fin (512 : ℕ)) { idx := (0 : Half), bytes := wNop, ut := (900 : ℕ) : Cached }) ∧
     ({ idx := (0 : Half), bytes := wNop, ut := (900 : ℕ) : Cached }.bytes ≠ [])) ∧
    -- clause 2
    (((wOpen wNop).entryOf CoreId.a 5 1 = some (wEntry wNop))) ∧
    -- clause 3
    ((wMade.running CoreId.a = true) ∧
     ((wMade.ring CoreId.a (1 : IsletNo) ↑(0 : Fin (256 : ℕ))).enable = true) ∧
     ((wMade.ring CoreId.a (1 : IsletNo) ↑(0 : Fin (256 : ℕ))).made = [wRec]) ∧
     ((wMade.ring CoreId.a (1 : IsletNo) ↑(0 : Fin (256 : ℕ))).held = []) ∧
     (wMade.protects 1 = false) ∧
     (∀ (q : ℕ), (wMade.queue CoreId.a 1 q).invals = []) ∧
     (wMade.occupied CoreId.a (1 : IsletNo) ↑(0 : Fin (256 : ℕ)) < (2 : ℕ) ^ (wMade.ring CoreId.a (1 : IsletNo) ↑(0 : Fin (256 : ℕ))).log2.toNat) ∧
     (wMade.canRequestFor (wMade.recFn CoreId.a 1 wRec) = true) ∧
     (∀ w ∈ wMade.host.waiting, w.islet ≠ 1 ∨ w.fn ≠ wMade.recFn CoreId.a 1 wRec)) ∧
    -- clause 4
    ((wProtected.protects 1 = true) ∧
     (wProtected.running CoreId.a = true)) ∧
    -- clause 5.0
    (((wBase.ring CoreId.a (1 : IsletNo) ↑(0 : Fin (256 : ℕ))).enable = true) ∧
     (wBase.running CoreId.a = true)) ∧
    -- clause 5.0
    ((((wWork (1000000 : ℕ) (isl IslState.quiesced) wQ wR).ring CoreId.a (1 : IsletNo) ↑(0 : Fin (256 : ℕ))).enable = true) ∧
     ((wWork 1000000 (isl IslState.quiesced) wQ wR).running CoreId.a = true)) ∧
    -- clause 6.0
    (((wNetReading 0 64 []).host.reads = [(3, wNetRead [])]) ∧
     ((wNetReading 0 64 []).req? 8 = some (wNetReq 0 64)) ∧
     ((wNetReq 0 64).why = ReqFor.read 3) ∧
     ((wNetReq 0 64).issued = some 900) ∧
     ((wNetRead []).got = none) ∧
     ((wNetRead []).why = ReadFor.netTx 5) ∧
     ((wNetReading 0 64 []).entry? 5 = some (wEntry wNetTx)) ∧
     ((wEntry wNetTx).type = 48) ∧
     ((wEntry wNetTx).ended = none) ∧
     (((wNetReading 0 64 []).seatNet (toSeat (fld (wEntry wNetTx).bytes 8 1))).tx = [5]) ∧
     ((tget ((wNetReading 0 64 []).seatNet (toSeat (fld (wEntry wNetTx).bytes 8 1))).data 5 []).length + (wNetRead []).len < fld (wEntry wNetTx).bytes 10 2) ∧
     ((wNetReq 0 64).off = 0) ∧
     ((wNetReq 0 64).len = (wNetRead []).len) ∧
     ((wNetRead []).parts = []) ∧
     (0 < (wNetRead []).len)) ∧
    -- clause 6.1
    (((wNetReading 0 32 []).host.reads = [(3, wNetRead [])]) ∧
     ((wNetReading 0 32 []).req? 8 = some (wNetReq 0 32)) ∧
     ((wNetReq 0 32).why = ReqFor.read 3) ∧
     ((wNetReq 0 32).issued = some 900) ∧
     ((wNetRead []).got = none) ∧
     ((wNetRead []).why = ReadFor.netTx 5) ∧
     ((wNetReading 0 32 []).entry? 5 = some (wEntry wNetTx)) ∧
     ((wEntry wNetTx).type = 48) ∧
     ((wEntry wNetTx).ended = none) ∧
     (((wNetReading 0 32 []).seatNet (toSeat (fld (wEntry wNetTx).bytes 8 1))).tx = [5]) ∧
     ((tget ((wNetReading 0 32 []).seatNet (toSeat (fld (wEntry wNetTx).bytes 8 1))).data 5 []).length + (wNetRead []).len < fld (wEntry wNetTx).bytes 10 2) ∧
     ((List.map (fun x => x.2) (tput (wNetRead []).parts (wNetReq 0 32).off (slice (List.replicate 64 7) 0 (wNetReq 0 32).len))).flatten.length < (wNetRead []).len)) ∧
    -- clause 6.1
    (((wNetReading 32 32 [(0, [1, 2])]).host.reads = [(3, wNetRead [(0, [1, 2])])]) ∧
     ((wNetReading 32 32 [(0, [1, 2])]).req? 8 = some (wNetReq 32 32)) ∧
     ((wNetReq 32 32).why = ReqFor.read 3) ∧
     ((wNetReq 32 32).issued = some 900) ∧
     ((wNetRead [(0, [1, 2])]).got = none) ∧
     ((wNetRead [(0, [1, 2])]).why = ReadFor.netTx 5) ∧
     ((wNetReading 32 32 [(0, [1, 2])]).entry? 5 = some (wEntry wNetTx)) ∧
     ((wEntry wNetTx).type = 48) ∧
     ((wEntry wNetTx).ended = none) ∧
     (((wNetReading 32 32 [(0, [1, 2])]).seatNet (toSeat (fld (wEntry wNetTx).bytes 8 1))).tx = [5]) ∧
     ((tget ((wNetReading 32 32 [(0, [1, 2])]).seatNet (toSeat (fld (wEntry wNetTx).bytes 8 1))).data 5 []).length + (wNetRead [(0, [1, 2])]).len < fld (wEntry wNetTx).bytes 10 2) ∧
     ((List.map (fun x => x.2) (tput (wNetRead [(0, [1, 2])]).parts (wNetReq 32 32).off (slice (List.replicate 64 7) 0 (wNetReq 32 32).len))).flatten.length < (wNetRead [(0, [1, 2])]).len)) ∧
    -- clause 6.2
    (((wNetReading 32 32 [(0, [1, 2])]).host.reads = [(3, wNetRead [(0, [1, 2])])]) ∧
     ((wNetReading 32 32 [(0, [1, 2])]).req? 8 = some (wNetReq 32 32)) ∧
     ((wNetReq 32 32).why = ReqFor.read 3) ∧
     ((wNetReq 32 32).issued = some 900) ∧
     ((wNetRead [(0, [1, 2])]).got = none) ∧
     ((wNetRead [(0, [1, 2])]).why = ReadFor.netTx 5) ∧
     ((wNetReading 32 32 [(0, [1, 2])]).entry? 5 = some (wEntry wNetTx)) ∧
     ((wEntry wNetTx).type = 48) ∧
     ((wEntry wNetTx).ended = none) ∧
     (((wNetReading 32 32 [(0, [1, 2])]).seatNet (toSeat (fld (wEntry wNetTx).bytes 8 1))).tx = [5]) ∧
     ((tget ((wNetReading 32 32 [(0, [1, 2])]).seatNet (toSeat (fld (wEntry wNetTx).bytes 8 1))).data 5 []).length + (wNetRead [(0, [1, 2])]).len < fld (wEntry wNetTx).bytes 10 2)) ∧
    -- clause 6.3
    ((((wNetReading 0 32 []).arrive 60000000).host.reads = [(3, wNetRead [])]) ∧
     (((wNetReading 0 32 []).arrive 60000000).req? 8 = some (wNetReq 0 32)) ∧
     ((wNetReq 0 32).why = ReqFor.read 3) ∧
     ((wNetReq 0 32).issued = some 900) ∧
     ((wNetRead []).got = none) ∧
     ((wNetRead []).why = ReadFor.netTx 5) ∧
     (((wNetReading 0 32 []).arrive 60000000).entry? 5 = some (wEntry wNetTx)) ∧
     ((wEntry wNetTx).type = 48) ∧
     ((wEntry wNetTx).ended = none) ∧
     ((((wNetReading 0 32 []).arrive 60000000).seatNet (toSeat (fld (wEntry wNetTx).bytes 8 1))).tx = [5]) ∧
     ((tget (((wNetReading 0 32 []).arrive 60000000).seatNet (toSeat (fld (wEntry wNetTx).bytes 8 1))).data 5 []).length + (wNetRead []).len < fld (wEntry wNetTx).bytes 10 2) ∧
     (900 + (((wNetReading 0 32 []).arrive 60000000).fnSt (wNetReq 0 32).fn).timeout ≤ ((wNetReading 0 32 []).arrive 60000000).ut (wNetReq 0 32).fn.core)) := by
  unfold TakesNext
  and_intros <;> first
    | decide +kernel
    | (intro q; obtain ⟨k, e⟩ : ∃ k, wMade.wq.queues = [(k, wQ)] := ⟨_, rfl⟩
       unfold State.queue; rw [e]; simp only [tget]; split <;> rfl)
end G3

namespace G4
def wItem (level : Fin 8) : Item := { Item.init with kind := 6, level := level, flow := 0x010005, islet := 1, arg := 77, readyUt := 900 }
def wReady : State := (unit 1000000).setDispatch .a { DispSt.init with ready := [wItem 4] }
def wRun (level : Fin 8) : Run := { Run.init with item := { wItem level with flow := 0x010006 }, pc := 64, regs := Vector.replicate 32 5 }
/-- Eight items of level 2 run on cluster 0, one of level 4 is ready. -/
def wFull : State :=
  { wReady with te := { wReady.te with tes := (List.range 8).map fun k => (k, { TeSt.init with cur := some { wRun 2 with item := { (wRun 2).item with flow := BitVec.ofNat 24 (0x010010 + k) } } }),
                                       dispA := { wReady.te.dispA with preempt := 1 } } }
def wPre : State := (unit 1000000).setTeSt .a 0 { TeSt.init with pre := some (wRun 2) }
def wTicked : Run :=
  { wRun 7 with item := { Item.init with kind := 0, level := 7, flow := 0, islet := 0, seat := some 0, arg := 9 }, startUt := 1250000,
                script := some { n := 9, recs := [], budget := 100 } }
def wSuspended : State := (unit 1000000).setDispatch .a { DispSt.init with suspended := [(wTicked, 0)] }
def wLatch : State := wWork 1000000 (isl .active) wQ { wR with latch := [{ merge := true, bytes := List.replicate 32 1 }] }
def wArmed : State := (unit 1000).setEvtCore .a { EvtCore.init with timer := [(3, 1500)], armed := [(3, true)] }
theorem witness_DispatcherAndItems :
    -- clause 0
    ((wReady.teClock CoreId.a 0 = true) ∧
     ((wReady.teSt CoreId.a 0).cur = none) ∧
     ((wReady.teSt CoreId.a 0).staged = none) ∧
     ((wReady.teSt CoreId.a 0).pre = none) ∧
     ((wReady.teSt CoreId.a 0).inHandler = false) ∧
     (wReady.pick CoreId.a 0 none = some ([wItem 4], wItem 4))) ∧
    -- clause 1
    ((wFull.serves CoreId.a = true) ∧
     ((wFull.dispatch CoreId.a).preempts 0 = true) ∧
     (∀ j ∈ clusterTes 0, (wFull.teSt CoreId.a j).cur.isSome = true) ∧
     (wFull.lowestTe CoreId.a 0 = some (0, 2))) ∧
    -- clause 2
    ((wPre.teClock CoreId.a 0 = true) ∧
     ((wPre.teSt CoreId.a 0).cur = none) ∧
     ((wPre.teSt CoreId.a 0).pre = some (wRun 2)) ∧
     ((wPre.dispatch CoreId.a).preempts (teCluster (0 : TeNo)) = false ∨ wPre.pick CoreId.a (0 : TeNo) (some ↑(wRun (2 : Fin (8 : ℕ))).item.level) = none)) ∧
    -- clause 3
    (((unit 1000).viaHeard (Via.host h0a) = true) ∧
     ((unit 1000).viaMay (Via.host h0a) = true)) ∧
    -- clause 3
    (((unit 1000).viaHeard (Via.prog CoreId.a) = true) ∧
     ((unit 1000).viaMay (Via.prog CoreId.a) = true)) ∧
    -- clause 4
    (((unit 1000).clusterInMode CoreId.a 0 = true)) ∧
    -- clause 5
    ((wReady.fnUp h0a = true)) ∧
    -- clause 6
    ((List.find? (fun r => r.1.item.seat == some 0 && r.2 == teCluster 0 && decide (r.1.startUt ≤ (wSuspended.arrive 1250000).ut CoreId.a)) ((wSuspended.arrive 1250000).dispatch CoreId.a).suspended = some (wTicked, 0)) ∧
     (((wSuspended.arrive 1250000).teSt CoreId.a 0).runs = []) ∧
     (((wSuspended.arrive 1250000).teSt CoreId.a 0).inHandler = false) ∧
     ((wSuspended.arrive 1250000).teClock CoreId.a 0 = true)) ∧
    -- clause 7
    (((wLatch.ring CoreId.a (1 : IsletNo) ↑(0 : Fin (256 : ℕ))).latch = [{ merge := true, bytes := List.replicate (32 : ℕ) (1 : Byte) : Latched }]) ∧
     ((wLatch.ring CoreId.a (1 : IsletNo) ↑(0 : Fin (256 : ℕ))).enable = true) ∧
     (wLatch.hasPlace CoreId.a (1 : IsletNo) ↑(0 : Fin (256 : ℕ)) (1 : ℕ) = true)) := by
  and_intros <;> decide +kernel
theorem witness_EventController :
    -- clause 1.0
    ((((unit 1000).coreSt CoreId.a).fenced = false) ∧
     (↑(31 : Fin (33 : ℕ)) < (32 : ℕ))) ∧
    -- clause 1.1
    ((((unit 1000).coreSt CoreId.a).fenced = false)) ∧
    -- clause 3
    ((tget ((wArmed.arrive (2000 : ℕ)).evtCore CoreId.a).armed (↑(3 : Fin (33 : ℕ))) false = true) ∧
     (BitVec.toNat (tget ((wArmed.arrive (2000 : ℕ)).evtCore CoreId.a).timer ↑(3 : Fin (33 : ℕ)) (0 : W64)) ≤ (wArmed.arrive (2000 : ℕ)).ut CoreId.a)) ∧
    -- clause 4
    ((((unit 1000).arrive 1000000).consoleServed = true) ∧
     (((unit 1000).arrive 1000000).evt.lastSweep / frameNs < ((unit 1000).arrive 1000000).now / frameNs)) ∧
    -- clause 5
    ((1000000 % microFrame = 0) ∧
     (((unit 1000).arrive 1000000).ut CoreId.a = 1000000) ∧
     (((unit 1000).arrive 1000000).serves CoreId.a = true) ∧
     (((unit 1000).arrive 1000000).servingCore 0 = CoreId.a) ∧
     (((unit 1000).arrive 1000000).mode.mode.isStart = false) ∧
     (((unit 1000).arrive 1000000).mode.mode ≠ Mode.unpowered) ∧
     ((((unit 1000).arrive 1000000).usbSeat 0).lastBuild < 1000000 / microFrame + 2) ∧
     (tget ((unit (1000 : ℕ)).arrive (1000000 : ℕ)).flt.buildFrom ↑(0 : Seat) (0 : ℕ) = (0 : ℕ)) ∧
     ((((unit 1000).arrive 1000000).link_ 0).holdStart = none) ∧
     (((((unit (1000 : ℕ)).arrive (1000000 : ℕ)).dispatch CoreId.a).suspended.any fun r => r.1.item.flow == BitVec.ofNat (24 : ℕ) ↑(0 : Seat)) = false) ∧
     ((((unit 1000).arrive 1000000).dispatch CoreId.a).ready.any (stillReady 0 (1000000 / microFrame + 2)) = false)) := by
  and_intros <;> decide +kernel
end G4

namespace G5
def wImage : ImageSt :=
  { id := .unit 2, base := 0, words := [0xDC000000], entry := [0], data := [], dataOff := 0, tag := 0, queue := 0, live := true, aborts := 0 }
def wProgram : List Byte :=
  [89, 76, 67, 89, 1, 0, 0, 0, 1, 0, 0, 0, 0, 0, 0, 0, 0, 0, 0, 0, 227, 65, 33, 174] ++ List.replicate 24 255 ++ List.replicate 16 0 ++ [0, 0, 0, 0xDC]
def wBadProgram : List Byte := wProgram.take 8 ++ [2, 0, 0, 0] ++ wProgram.drop 12 ++ [0, 0, 0, 0]
/-- A PROGRAM_LOAD entry for slot 1: action, image length. -/
def wLoad (action len : Byte) : List Byte :=
  [0x40, 2, 0, 0, 9, 0, 0, 0, 1, action, 0, 0, 0, 0, 0, 0, 0, 0x10, 0, 0, 0, 0, 0, 0, len, 0, 0, 0, 0, 0, 0, 0]
def wLoaded : State := (wOpen (wLoad 2 0)).setStore .a [{ wImage with id := .islet 1 1 }]
theorem witness_ProgramLoads :
    -- clause 0.0
    (((wOpen (wLoad 1 68)).entryOf CoreId.a 5 64 = some (wEntry (wLoad 1 68))) ∧
     (fld (wEntry (wLoad 1 68)).bytes 9 1 = 1) ∧
     ((wOpen (wLoad 1 68)).canRequest ((wOpen (wLoad 1 68)).islFn (wEntry (wLoad 1 68)).core (wEntry (wLoad 1 68)).islet) = true) ∧
     (((wOpen (wLoad 1 68)).fnSt ((wOpen (wLoad 1 68)).islFn (wEntry (wLoad 1 68)).core (wEntry (wLoad 1 68)).islet)).pasidEn = true)) ∧
    -- clause 0.1
    (((wOpen (wLoad 1 68)).entryOf CoreId.a 5 64 = some (wEntry (wLoad 1 68))) ∧
     (fld (wEntry (wLoad 1 68)).bytes 9 1 = 1) ∧
     ((wOpen (wLoad 1 68)).canRequest ((wOpen (wLoad 1 68)).islFn (wEntry (wLoad 1 68)).core (wEntry (wLoad 1 68)).islet) = true) ∧
     (((wOpen (wLoad 1 68)).fnSt ((wOpen (wLoad 1 68)).islFn (wEntry (wLoad 1 68)).core (wEntry (wLoad 1 68)).islet)).pasidEn = true) ∧
     (wProgram.length = fld (wEntry (wLoad 1 68)).bytes 24 4) ∧
     (wProgram.length = imageLength wProgram) ∧
     ((wOpen (wLoad 1 68)).loadCheck ((wOpen (wLoad 1 68)).loadCores CoreId.a (wEntry (wLoad 1 68)).islet) (ProgId.islet (wEntry (wLoad 1 68)).islet (entrySlot (wEntry (wLoad 1 68)))) false wProgram = LoadEnd.loads)) ∧
    -- clause 0.2
    (((wOpen (wLoad 1 72)).entryOf CoreId.a 5 64 = some (wEntry (wLoad 1 72))) ∧
     (fld (wEntry (wLoad 1 72)).bytes 9 1 = 1) ∧
     ((wOpen (wLoad 1 72)).canRequest ((wOpen (wLoad 1 72)).islFn (wEntry (wLoad 1 72)).core (wEntry (wLoad 1 72)).islet) = true) ∧
     (((wOpen (wLoad 1 72)).fnSt ((wOpen (wLoad 1 72)).islFn (wEntry (wLoad 1 72)).core (wEntry (wLoad 1 72)).islet)).pasidEn = true) ∧
     (wBadProgram.length = fld (wEntry (wLoad 1 72)).bytes 24 4) ∧
     (wBadProgram.length = imageLength wBadProgram) ∧
     ((wOpen (wLoad 1 72)).loadCheck ((wOpen (wLoad 1 72)).loadCores CoreId.a (wEntry (wLoad 1 72)).islet) (ProgId.islet (wEntry (wLoad 1 72)).islet (entrySlot (wEntry (wLoad 1 72)))) false wBadProgram = LoadEnd.fails 113 0)) ∧
    -- clause 1
    ((wLoaded.entryOf CoreId.a 5 64 = some (wEntry (wLoad 2 0))) ∧
     (fld (wEntry (wLoad 2 0)).bytes 9 1 = 2) ∧
     (((wLoaded.store CoreId.a).any fun m => m.live && m.id == ProgId.islet (wEntry (wLoad 2 0)).islet (entrySlot (wEntry (wLoad 2 0)))) = true)) := by
  and_intros <;> decide +kernel
end G5

namespace G6
def wBase : State := wWork 1000000 (isl .active) wQ wR
/-- A USB_ENDPOINT entry: device address 3, endpoint, seat 0, action, max packet 512, mode, high speed, root port 1. -/
def wEpEntry (ep action mode : Byte) : List Byte :=
  [0x14, 2, 0, 0, 9, 0, 0, 0, 3, ep, 0, action, 0, 2, mode, 3, 1, 0, 0, 0] ++ List.replicate 12 0
/-- An open context of islet 1: address 3, endpoint 0x81 of seat 0, high speed. -/
def wEp (mode : Byte) (q : List Nat) : EpSt :=
  { EpSt.init with islet := 1, seat := 0, addr := 3, ep := 1, dirIn := true, mode := mode, maxPacket := 512, speed := 3, state := 1, queue := q }
def wProfile : Profile :=
  { rootPorts := 4, depth := 5, maxRecords := 64, outKib := 64, hsWindow := 50000, gen1Bytes := 0, caps := [2, 2, 2, 2, 0, 0, 0, 0] }
def wPorts (s : State) : State :=
  { s with usb := { s.usb with seats := [(0, { UsbSeat.init with profile := some wProfile, profileSeen := true })],
                               ports := [(0, { RootPortSt.init with st := .enabled, speed := 3, power := true, connected := true })] } }
def wEps (s : State) (k : EpSt) : State := { s with usb := { s.usb with eps := [(4096, k)] } }
def wWith1 := { wEp 2 [] with state := 2, toggle := true }
/-- Transfer entries of endpoint 0x81. -/
def wControl : List Byte :=
  [0x10, 2, 0, 0, 9, 0, 0, 0, 3, 0x81, 0, 0, 8, 0, 10, 0, 0x80, 6, 0, 1, 0, 0, 8, 0, 0, 0x10, 0, 0, 0, 0, 0, 0]
def wBulk (type : Byte) : List Byte :=
  [type, 2, 0, 0, 9, 0, 0, 0, 3, 0x81, 0, 0, 10, 0, 0, 0, 0, 0x10, 0, 0, 0, 0, 0, 0, 64, 0, 0, 0, 0, 0, 0, 0]
def wIso (len : Byte) : List Byte :=
  [0x13, 2, 0, 0, 9, 0, 0, 0, 3, 0x81, 0, 1, 0, len, 0, 0, 0, 0x10, 0, 0, 0, 0, 0, 0, 0, 0, 0, 0, 2, 0, 0, 0]
def wTimed (out : Nat) : State :=
  let s := wEps (wOpen (wBulk 0x11)) (wEp 2 [5])
  { s with usb := { s.usb with xfers := [(5, { XferSt.init with ep := 4096, dirIn := true, len := 64, deadline := some 2000000, outstanding := out })] } }
def wPkt (n : Nat) (sent : Bool) : IsoPkt := { n := n, len := 100, value := none, sent := sent, got := 0 }
def wIsoLate : State :=
  let s := wEps (wOpen (wIso 2)) (wEp 1 [5])
  { s with usb := { s.usb with xfers := [(5, { XferSt.init with ep := 4096, dirIn := true, pkts := [wPkt 8 true, wPkt 17 false] })] } }
def wHub : State := wPorts wBase
def wHubCmd (c : Option PortCmd) (st : PortState) : State :=
  let s := wPorts wBase
  { s with usb := { s.usb with seats := [(0, { UsbSeat.init with profile := some wProfile, profileSeen := true, hubOps := [.cmd 1 0 c] })],
                               ports := [(0, { RootPortSt.init with st := st, power := true })] } }
def wLinkUp : SeatLink := { SeatLink.init with st := .up, pcsUp := true, rate := 4, epoch := 3, svcEpoch := 3, lastRx := 900, lastTx := 900 }
def wUp (s : State) : State := s.setLink_ 0 wLinkUp
def wProfileMsg (v : Byte) : List Byte :=
  [v, 2, 5, 0, 64, 0, 64, 0, 0x50, 0xC3, 0, 0, 0, 0, 0, 0, 2, 10] ++ List.replicate 14 0
def wEvent : List Byte := [0x10, 1, 0, 0] ++ List.replicate 12 0
/-- A bulk record of endpoint 0x81 in the script of micro-frame 8, and its result STALL. -/
def wBulkRec : List Byte := [4, 3, 0xA1, 0x31] ++ List.replicate 12 0
def wStall : List Byte := [4, 3, 0, 0, 0, 0, 0, 0, 0, 0, 0, 0, 8, 0, 0, 0]
def wSent : State :=
  let s := wUp (wEps (wPorts (wOpen (wBulk 0x11))) (wEp 2 [5]))
  { s with usb := { s.usb with seats := [(0, { UsbSeat.init with profile := some wProfile, profileSeen := true, scripts := [{ n := 8, recs := [(wBulkRec, false)], ports := [] }] })],
                               xfers := [(5, { XferSt.init with ep := 4096, dirIn := true, len := 64, outstanding := 1 })] } }
theorem witness_UsbEntries :
    -- clause 0.0
    (((wOpen (wEpEntry 129 1 2)).entryOf CoreId.a 5 20 = some (wEntry (wEpEntry 129 1 2))) ∧
     (fld (wEntry (wEpEntry 129 1 2)).bytes 11 1 = 1) ∧
     ((wOpen (wEpEntry 129 1 2)).openCheck (openWants (wEntry (wEpEntry 129 1 2)).islet (wEntry (wEpEntry 129 1 2)).bytes) = Sum.inl 75)) ∧
    -- clause 0.1
    (((wPorts (wOpen (wEpEntry 129 1 2))).entryOf CoreId.a 5 20 = some (wEntry (wEpEntry 129 1 2))) ∧
     (fld (wEntry (wEpEntry 129 1 2)).bytes 11 1 = 1) ∧
     ((wPorts (wOpen (wEpEntry 129 1 2))).openCheck (openWants (wEntry (wEpEntry 129 1 2)).islet (wEntry (wEpEntry 129 1 2)).bytes) = Sum.inr (openWants 1 (wEpEntry 129 1 2), 0))) ∧
    -- clause 1.0
    (((wOpen (wEpEntry 129 2 2)).entryOf CoreId.a 5 20 = some (wEntry (wEpEntry 129 2 2))) ∧
     (fld (wEntry (wEpEntry 129 2 2)).bytes 11 1 = 2) ∧
     ((wOpen (wEpEntry 129 2 2)).named (wEntry (wEpEntry 129 2 2)) = none)) ∧
    -- clause 1.1
    (((wOpen (wEpEntry 129 3 2)).entryOf CoreId.a 5 20 = some (wEntry (wEpEntry 129 3 2))) ∧
     (fld (wEntry (wEpEntry 129 3 2)).bytes 11 1 = 3) ∧
     ((wOpen (wEpEntry 129 3 2)).named (wEntry (wEpEntry 129 3 2)) = none)) ∧
    -- clause 1.2
    (((wOpen (wEpEntry 129 4 2)).entryOf CoreId.a 5 20 = some (wEntry (wEpEntry 129 4 2))) ∧
     (fld (wEntry (wEpEntry 129 4 2)).bytes 11 1 = 4) ∧
     ((wOpen (wEpEntry 129 4 2)).named (wEntry (wEpEntry 129 4 2)) = none)) ∧
    -- clause 2.0
    (((wEps (wOpen (wEpEntry 129 2 2)) (wEp 2 [])).entryOf CoreId.a 5 20 = some (wEntry (wEpEntry 129 2 2))) ∧
     ((wEps (wOpen (wEpEntry 129 2 2)) (wEp 2 [])).named (wEntry (wEpEntry 129 2 2)) = some 4096) ∧
     (((wEps (wOpen (wEpEntry 129 2 2)) (wEp 2 [])).ep 4096).state ≠ 0) ∧
     (fld (wEntry (wEpEntry 129 2 2)).bytes 11 1 = 2) ∧
     (((wEps (wOpen (wEpEntry 129 2 2)) (wEp 2 [])).ep 4096).queue = []) ∧
     (((wEps (wOpen (wEpEntry 129 2 2)) (wEp 2 [])).ep 4096).closers = [])) ∧
    -- clause 2.1
    (((wEps (wOpen (wEpEntry 129 3 2)) wWith1).entryOf CoreId.a 5 20 = some (wEntry (wEpEntry 129 3 2))) ∧
     ((wEps (wOpen (wEpEntry 129 3 2)) wWith1).named (wEntry (wEpEntry 129 3 2)) = some 4096) ∧
     (((wEps (wOpen (wEpEntry 129 3 2)) wWith1).ep 4096).state ≠ 0) ∧
     (fld (wEntry (wEpEntry 129 3 2)).bytes 11 1 = 3) ∧
     (((wEps (wOpen (wEpEntry 129 3 2)) wWith1).ep 4096).state = 2)) ∧
    -- clause 2.2
    (((wEps (wOpen (wEpEntry 129 4 2)) (wEp 2 [])).entryOf CoreId.a 5 20 = some (wEntry (wEpEntry 129 4 2))) ∧
     ((wEps (wOpen (wEpEntry 129 4 2)) (wEp 2 [])).named (wEntry (wEpEntry 129 4 2)) = some 4096) ∧
     (((wEps (wOpen (wEpEntry 129 4 2)) (wEp 2 [])).ep 4096).state ≠ 0) ∧
     (fld (wEntry (wEpEntry 129 4 2)).bytes 11 1 = 4) ∧
     (((wEps (wOpen (wEpEntry 129 4 2)) (wEp 2 [])).ep 4096).state ≠ 3) ∧
     (((wEps (wOpen (wEpEntry 129 4 2)) (wEp 2 [])).ep 4096).queue = []) ∧
     (((wEps (wOpen (wEpEntry 129 4 2)) (wEp 2 [])).ep 4096).closers = [])) ∧
    -- clause 3
    (((wEps (wOpen wControl) (wEp 0 [])).entryOf CoreId.a 5 16 = some (wEntry wControl)) ∧
     ((wEps (wOpen wControl) (wEp 0 [])).named (wEntry wControl) = some 4096) ∧
     (((wEps (wOpen wControl) (wEp 0 [])).ep 4096).type = 0) ∧
     (bit (fld (wEntry wControl).bytes 16 1) 7 = true ∨ fld (wEntry wControl).bytes 12 2 = 0 ∨ (wEps (wOpen wControl) (wEp 0 [])).readsRefused ((wEps (wOpen wControl) (wEp 0 [])).entryFn (wEntry wControl)) = false)) ∧
    -- clause 4.0
    (((wEps (wOpen (wBulk 17)) (wEp 2 [])).named (wEntry (wBulk 17)) = some 4096) ∧
     (((wEps (wOpen (wBulk 17)) (wEp 2 [])).ep 4096).dirIn = true ∨ (wEps (wOpen (wBulk 17)) (wEp 2 [])).readsRefused ((wEps (wOpen (wBulk 17)) (wEp 2 [])).entryFn (wEntry (wBulk 17))) = false) ∧
     ((wEps (wOpen (wBulk 17)) (wEp 2 [])).entryOf CoreId.a 5 17 = some (wEntry (wBulk 17))) ∧
     (((wEps (wOpen (wBulk 17)) (wEp 2 [])).ep 4096).type = 2)) ∧
    -- clause 4.1
    (((wEps (wOpen (wBulk 18)) (wEp 3 [])).named (wEntry (wBulk 18)) = some 4096) ∧
     (((wEps (wOpen (wBulk 18)) (wEp 3 [])).ep 4096).dirIn = true ∨ (wEps (wOpen (wBulk 18)) (wEp 3 [])).readsRefused ((wEps (wOpen (wBulk 18)) (wEp 3 [])).entryFn (wEntry (wBulk 18))) = false) ∧
     ((wEps (wOpen (wBulk 18)) (wEp 3 [])).entryOf CoreId.a 5 18 = some (wEntry (wBulk 18))) ∧
     (((wEps (wOpen (wBulk 18)) (wEp 3 [])).ep 4096).type = 3)) ∧
    -- clause 5.0
    (((wEps (wOpen (wIso 3)) (wEp 1 [])).entryOf CoreId.a 5 19 = some (wEntry (wIso 3))) ∧
     ((wEps (wOpen (wIso 3)) (wEp 1 [])).named (wEntry (wIso 3)) = some 4096) ∧
     (((wEps (wOpen (wIso 3)) (wEp 1 [])).ep 4096).type = 1) ∧
     (((isoLengths (wEntry (wIso 3)).bytes).any fun l => decide (((wEps (wOpen (wIso 3)) (wEp 1 [])).ep 4096).perService < l)) = true)) ∧
    -- clause 5.1
    (((wEps (wOpen (wIso 2)) (wEp 1 [])).entryOf CoreId.a 5 19 = some (wEntry (wIso 2))) ∧
     ((wEps (wOpen (wIso 2)) (wEp 1 [])).named (wEntry (wIso 2)) = some 4096) ∧
     (((wEps (wOpen (wIso 2)) (wEp 1 [])).ep 4096).type = 1)) ∧
    -- clause 6.0
    ((((wTimed 0).arrive 2000000).entry? 5 = some (wEntry (wBulk 17))) ∧
     ((((wTimed 0).arrive 2000000).xfer 5).deadline = some 2000000) ∧
     (((wTimed 0).arrive 2000000).runs (wEntry (wBulk 17)).core = CoreId.a) ∧
     (2000000 ≤ ((wTimed 0).arrive 2000000).ut CoreId.a) ∧
     ((((wTimed 0).arrive 2000000).xfer 5).ending = none) ∧
     ((((wTimed 0).arrive 2000000).xfer 5).waits = false)) ∧
    -- clause 6.1
    ((((wTimed 1).arrive 2000000).entry? 5 = some (wEntry (wBulk 17))) ∧
     ((((wTimed 1).arrive 2000000).xfer 5).deadline = some 2000000) ∧
     (((wTimed 1).arrive 2000000).runs (wEntry (wBulk 17)).core = CoreId.a) ∧
     (2000000 ≤ ((wTimed 1).arrive 2000000).ut CoreId.a) ∧
     ((((wTimed 1).arrive 2000000).xfer 5).ending = none) ∧
     ((((wTimed 1).arrive 2000000).xfer 5).waits = true)) ∧
    -- clause 7
    (((16 + 6) * microFrame ≤ (wIsoLate.arrive 2750000).ut ((wIsoLate.arrive 2750000).servingCore 0)) ∧
     (((wIsoLate.arrive 2750000).epsOf 0 fun e => e.type == 1) = [4096]) ∧
     (((wIsoLate.arrive 2750000).ep 4096).queue = [5]) ∧
     (((wIsoLate.arrive 2750000).xfer 5).pkts = [wPkt 8 true, wPkt 17 false]) ∧
     ((wPkt 8 true).value = none) ∧
     ((wPkt 8 true).n ≤ 16) ∧
     ((wPkt 8 true).sent = true → ((wIsoLate.arrive 2750000).unheard 0 4096 16).contains (wPkt 8 true).n = true ∨ (wPkt 8 true).n + 8 ≤ 16) ∧
     ((wPkt 17 false).value = none) ∧
     (16 < (wPkt 17 false).n) ∧
     (((wIsoLate.arrive 2750000).xfer 5).ending = none)) := by
  and_intros <;> decide +kernel
theorem witness_RootHubAndResults :
    -- clause 0.0
    ((wHub.presents h0a 1 0 = true)) ∧
    -- clause 1.0
    (((wHubCmd none PortState.enabled).flowHeld ((wHubCmd none PortState.enabled).servingCore (0 : Seat)) (BitVec.ofNat (24 : ℕ) ↑(0 : Seat)) = false) ∧
     ((wHubCmd none PortState.enabled).owner 0 = 1) ∧
     (((wHubCmd none PortState.enabled).rootPort 0 0).busy = none) ∧
     (((wHubCmd none PortState.enabled).usbSeat 0).hubOps = [HubOp.cmd 1 0 none])) ∧
    -- clause 1.1
    (((wHubCmd (some PortCmd.suspend) PortState.enabled).flowHeld ((wHubCmd (some PortCmd.suspend) PortState.enabled).servingCore (0 : Seat)) (BitVec.ofNat (24 : ℕ) ↑(0 : Seat)) = false) ∧
     ((wHubCmd (some PortCmd.suspend) PortState.enabled).owner 0 = 1) ∧
     (((wHubCmd (some PortCmd.suspend) PortState.enabled).rootPort 0 0).busy = none) ∧
     (((wHubCmd (some PortCmd.suspend) PortState.enabled).usbSeat 0).hubOps = [HubOp.cmd 1 0 (some PortCmd.suspend)]) ∧
     (((wHubCmd (some PortCmd.suspend) PortState.enabled).rootPort 0 0).st = PortState.enabled)) ∧
    -- clause 1.2
    (((wHubCmd (some PortCmd.reset) PortState.disconnected).flowHeld ((wHubCmd (some PortCmd.reset) PortState.disconnected).servingCore (0 : Seat)) (BitVec.ofNat (24 : ℕ) ↑(0 : Seat)) = false) ∧
     ((wHubCmd (some PortCmd.reset) PortState.disconnected).owner 0 = 1) ∧
     (((wHubCmd (some PortCmd.reset) PortState.disconnected).rootPort 0 0).busy = none) ∧
     (((wHubCmd (some PortCmd.reset) PortState.disconnected).usbSeat 0).hubOps = [HubOp.cmd 1 0 (some PortCmd.reset)]) ∧
     (((wHubCmd (some PortCmd.reset) PortState.disconnected).rootPort 0 0).st = PortState.disconnected)) ∧
    -- clause 2
    ((((wUp wBase).link_ 0).st = LinkState.up) ∧
     (((wUp wBase).usbSeat 0).profileSeen = false) ∧
     (profileBad (wProfileMsg 1) = none)) ∧
    -- clause 3
    ((((wUp wBase).link_ 0).st = LinkState.up) ∧
     (((wUp wBase).usbSeat 0).profileSeen = false) ∧
     (profileBad (wProfileMsg 2) = some 0)) ∧
    -- clause 4.0
    ((((wUp (wPorts wBase)).link_ 0).maySend Tunnel.usb = true) ∧
     (readResults ((wUp (wPorts wBase)).usbSeat (0 : Seat)) (BitVec.toNat (1 : W32)) wEvent = some [{ bytes := wEvent, data := [] : ResIn }]) ∧
     ({ bytes := wEvent, data := [] : ResIn }.kind = (16 : ℕ)) ∧
     (((wUp (wPorts wBase)).usbSeat (0 : Seat)).newEvent { bytes := wEvent, data := [] : ResIn }.index = true)) ∧
    -- clause 4.1
    (((wSent.link_ 0).maySend Tunnel.usb = true) ∧
     (readResults (wSent.usbSeat (0 : Seat)) (BitVec.toNat (1 : W32)) wStall = some [{ bytes := wStall, data := [] : ResIn }]) ∧
     ({ bytes := wStall, data := [] : ResIn }.kind ≠ (16 : ℕ)) ∧
     ({ bytes := wStall, data := [] : ResIn }.kind ≠ (7 : ℕ)) ∧
     ({ bytes := wStall, data := [] : ResIn }.code = (3 : ℕ)) ∧
     (((wSent.usbSeat (0 : Seat)).markDone { bytes := wStall, data := [] : ResIn }.bytes).2 = false) ∧
     ((wSent.usbSeat (0 : Seat)).recordOf { bytes := wStall, data := [] : ResIn }.bytes = some wBulkRec) ∧
     (recKind wBulkRec ≠ 11) ∧
     (wSent.recContext 0 wBulkRec = some 4096) ∧
     ((wSent.ep 4096).type = 2) ∧
     ((wSent.ep 4096).state = 1) ∧
     ((wSent.ep 4096).queue = [5]) ∧
     ((wSent.ep 4096).closers = []) ∧
     ((wSent.xfer 5).ep = 4096) ∧
     ((wSent.xfer 5).outstanding = 1) ∧
     ((wSent.xfer 5).resulted = false)) := by
  and_intros <;> decide +kernel
end G6

namespace G7
def wLinkSt (l : SeatLink) : State := (unit 5000000000).setLink_ 0 l
def wSeek : State := wLinkSt { SeatLink.init with energyAt := some 1000000000, st := .negotiating }
/-- An OUI-tagged message: the unit's OUI, a strait word. -/
def wPages (w : Nat) : BitVec 11 × BitVec 11 × BitVec 11 × BitVec 11 :=
  (BitVec.ofNat 11 (0x5C71E8 / 8192), BitVec.ofNat 11 (0x5C71E8 / 4 % 2048), BitVec.ofNat 11 (0x5C71E8 % 4 * 512 + w / 2048), BitVec.ofNat 11 w)
def wLow : State := wLinkSt { SeatLink.init with energyAt := some 1000000000, st := .negotiating, rateMax := 1 }
def wForeign : State := wLinkSt { SeatLink.init with st := .foreign, energyAt := some 1000000000 }
def wTraining (e : Option Nat) : State := wLinkSt { SeatLink.init with st := .training, trainRate := 4, trainEnd := e, rate := if e.isNone then 4 else 0 }
def wGreet : SeatLink :=
  { SeatLink.init with st := .greeting, pcsUp := true, rate := 4, epoch := 3, helloFirst := 5000000000, helloLast := 5000000000 }
def wAuth : State := wLinkSt { wGreet with st := .authFailed, authAt := some 5010000000 }
def wReply : List Byte := [1, 0, 3, 0, 0, 0, 0, 0, 5, 0, 0, 0, 0, 0, 0, 0] ++ List.replicate 48 0
def wWith1 := { (wLinkSt wGreet).link with keys := [(5, List.replicate 32 1)] }
def wWith2 := { wGreet with svcEpoch := 2, svcDock := 5, holdStart := some 4900000000 }
def wPower : SeatPower := { SeatPower.init with st := .powered, assigned := 4, requested := 4, pairsets := 3, poweredUt := 1000 }
def wAsleep : State := (wLinkSt { SeatLink.init with disable := true, st := .disabled }).setSeatPower 0 wPower
def wLinkUp : SeatLink :=
  { SeatLink.init with st := .up, pcsUp := true, rate := 4, epoch := 3, svcEpoch := 3, lastRx := 4999999000, lastTx := 4999999000 }
def wUp : State := wLinkSt wLinkUp
def wWith3 := { wLinkUp with svcEpoch := 0, st := .unenrolled }
def wWith4 := { wGreet with st := .up, live := true }
def wHeld : State := wLinkSt { SeatLink.init with holdStart := some 4900000000, holdLen := 250000000, svcEpoch := 3 }
def wTimer (n : Nat) : State :=
  wUp.setTun 0 .usb { TunSt.init with next := 2, free := 0, peerRecv := 1, timers := [⟨1, 5000100000, 0⟩], expiries := n, held := [⟨0, [1], 0, 0, none, none, false, 0, false⟩, ⟨1, [2], 0, 0, none, none, false, 0, false⟩] }
def wWith5 := { wLinkUp with rateMax := 3, rate := 2 }
def wWith6 := { wLinkUp with partnerRates := 0xF }
def wRate (p : RatePhase) : State :=
  wUp.setSeatTime 0 { SeatTime.init with ratePhase := p, recorded := some 3, ackBy := 5010000000, stopUt := 5020000000, targetFrom := if p = .changing then some 4000000000 else none }
def wChanging : State := (wRate .changing).setLink_ 0 { wLinkUp with pcsUp := false, st := .negotiating }
def wRateAck : List Byte := [3, 0, 0, 0, 0, 0, 0, 0, 0, 0x1F, 0x37, 0x2B, 1, 0, 0, 0]
def wNak : List Byte := [2, 0, 0, 0, 3, 0, 0, 0, 0, 0, 0, 0]
def wAhead : State := wUp.setTun 0 .usb { TunSt.init with ahead := [(1, [1])] }
def wReport : State := wUp.setTun 0 .usb { TunSt.init with reportBy := some 5000000000 }
def wYs : State := wUp.setSeatTime 0 { SeatTime.init with ys := [400, 410, 420], dDelay := 100, lastUpdate := 4990000000 }
def wSyncMsg : List Byte := [17, 0, 8, 0, 1, 0, 52, 18, 0, 0, 0, 0]
def wSyncFrame : List Byte := [1, 0, 0, 0, 0, 0, 0, 0, 12, 0, 0, 0, 0, 0, 0, 0] ++ wSyncMsg ++ [191, 215, 248, 159]
theorem witness_LinkForming :
    -- clause 0.0
    (((wLow.link_ 0).seeking = true) ∧
     (straitWord (wPages 114688) = some 114688) ∧
     (straitWordOk 114688 8 = true) ∧
     (highestRate (wLow.advertised 0 &&& 8) = 0) ∧
     ((wLow.targetOnly 0).isNone = true)) ∧
    -- clause 0.1
    (((wSeek.link_ 0).seeking = true) ∧
     (straitWord (wPages 129024) = some 129024) ∧
     (straitWordOk 129024 15 = true) ∧
     (highestRate (wSeek.advertised 0 &&& 15) ≠ 0)) ∧
    -- clause 1
    (((wSeek.link_ 0).seeking = true) ∧
     (none.bind straitWord = none)) ∧
    -- clause 1
    (((wSeek.link_ 0).seeking = true) ∧
     ((some (1, 2, 3, 4)).bind straitWord = none)) ∧
    -- clause 2
    ((((wSeek.arrive 5000000000).link_ 0).energyAt = some 1000000000) ∧
     (((wSeek.arrive 5000000000).link_ 0).seeking = true) ∧
     (((wSeek.arrive 5000000000).link_ 0).paged = false) ∧
     (1000000000 + 3000 * ms ≤ (wSeek.arrive 5000000000).ut ((wSeek.arrive 5000000000).servingCore 0))) ∧
    -- clause 3
    ((((wForeign.arrive 5000000001).link_ 0).st = LinkState.foreign)) ∧
    -- clause 4
    ((((unit 5000000000).arrive 5000000001).portsServed = true) ∧
     ((((unit 5000000000).arrive 5000000001).link_ 0).st = LinkState.noPartner) ∧
     ((((unit 5000000000).arrive 5000000001).link_ 0).energyAt = none)) ∧
    -- clause 5
    ((((wTraining (some 6000000000)).link_ 0).st = LinkState.training) ∧
     (((wTraining (some 6000000000)).link_ 0).trainEnd.isSome = true)) ∧
    -- clause 6
    (((((wTraining (some 6000000000)).arrive 6000000000).link_ 0).trainEnd = some 6000000000) ∧
     (6000000000 ≤ ((wTraining (some 6000000000)).arrive 6000000000).ut (((wTraining (some 6000000000)).arrive 6000000000).servingCore 0))) ∧
    -- clause 7
    ((((wTraining none).link_ 0).st = LinkState.training) ∧
     (((wTraining none).link_ 0).trainEnd = none) ∧
     (((wTraining none).link_ 0).pcsUp = false) ∧
     (((wTraining none).link_ 0).rate ≠ 0)) ∧
    -- clause 8
    (((((wLinkSt wGreet).arrive 5010000000).link_ 0).waitsReply = true) ∧
     (((((wLinkSt wGreet).arrive 5010000000).link_ 0).helloLast + if (((wLinkSt wGreet).arrive 5010000000).link_ 0).rehome = true then 50000 else 10 * ms) ≤ ((wLinkSt wGreet).arrive 5010000000).ut (((wLinkSt wGreet).arrive 5010000000).servingCore 0)) ∧
     (((wLinkSt wGreet).arrive 5010000000).ut (((wLinkSt wGreet).arrive 5010000000).servingCore 0) < (((wLinkSt wGreet).arrive 5010000000).link_ 0).helloFirst + 1000 * ms)) ∧
    -- clause 9
    ((((wAuth.arrive 5010000000).link_ 0).st = LinkState.authFailed) ∧
     (((wAuth.arrive 5010000000).link_ 0).authAt = some 5010000000) ∧
     (5010000000 ≤ (wAuth.arrive 5010000000).ut ((wAuth.arrive 5010000000).servingCore 0)) ∧
     (((wAuth.arrive 5010000000).link_ 0).pcsUp = true)) ∧
    -- clause 10
    (((wLinkSt wGreet).mode.mode ≠ Mode.unsupervised) ∧
     (((wLinkSt wGreet).link_ 0).waitsReply = true) ∧
     (replyForm wReply = true) ∧
     (fld wReply 0 1 = 1) ∧
     (fld wReply 2 2 = BitVec.toNat ((wLinkSt wGreet).link_ 0).epoch)) ∧
    -- clause 10
    ((((wLinkSt wGreet).setLink wWith1).mode.mode ≠ Mode.unsupervised) ∧
     ((((wLinkSt wGreet).setLink wWith1).link_ 0).waitsReply = true) ∧
     (replyForm wReply = true) ∧
     (fld wReply 0 1 = 1) ∧
     (fld wReply 2 2 = BitVec.toNat (((wLinkSt wGreet).setLink wWith1).link_ 0).epoch)) ∧
    -- clause 11
    (((wAsleep.seatPower 0).isPowered = true) ∧
     ((wAsleep.link_ 0).pcsUp = false)) := by
  and_intros <;> decide +kernel
theorem witness_LinkLoss :
    -- clause 0.0
    (((wUp.link_ 0).pcsUp = true)) ∧
    -- clause 0.1
    ((((wLinkSt wWith3).link_ 0).pcsUp = true)) ∧
    -- clause 1
    ((((wUp.arrive 5004000000).link_ 0).pcsUp = true) ∧
     (((wUp.arrive 5004000000).link_ 0).lastRx + 500000 + (wUp.arrive 5004000000).slotTime 0 ((wUp.arrive 5004000000).link_ 0).lastRx ((wUp.arrive 5004000000).ut ((wUp.arrive 5004000000).servingCore 0)) ≤ (wUp.arrive 5004000000).ut ((wUp.arrive 5004000000).servingCore 0))) ∧
    -- clause 2
    ((((wLinkSt wGreet).arrive 6000000000).mode.mode ≠ Mode.unsupervised) ∧
     ((((wLinkSt wGreet).arrive 6000000000).link_ 0).waitsReply = true) ∧
     ((((wLinkSt wGreet).arrive 6000000000).link_ 0).helloFirst + 1000 * ms ≤ ((wLinkSt wGreet).arrive 6000000000).ut (((wLinkSt wGreet).arrive 6000000000).servingCore 0))) ∧
    -- clause 2
    ((((wLinkSt wWith4).arrive 6000000000).mode.mode ≠ Mode.unsupervised) ∧
     ((((wLinkSt wWith4).arrive 6000000000).link_ 0).waitsReply = true) ∧
     ((((wLinkSt wWith4).arrive 6000000000).link_ 0).helloFirst + 1000 * ms ≤ ((wLinkSt wWith4).arrive 6000000000).ut (((wLinkSt wWith4).arrive 6000000000).servingCore 0))) ∧
    -- clause 3
    ((((wHeld.arrive 5150000000).link_ 0).holdStart = some 4900000000) ∧
     (4900000000 + ((wHeld.arrive 5150000000).link_ 0).holdLen ≤ (wHeld.arrive 5150000000).ut ((wHeld.arrive 5150000000).servingCore 0))) ∧
    -- clause 4
    ((wUp.viaHeard (Via.host h0a) = true) ∧
     (wUp.viaMay (Via.host h0a) = true) ∧
     (bits (BitVec.toNat (2197815546 : W64)) (19 : ℕ) (16 : ℕ) = (0 : ℕ))) ∧
    -- clause 5
    ((Tunnel.usb.reliable = true) ∧
     ((((wTimer (0 : ℕ)).arrive (5000100000 : ℕ)).tun (0 : Seat) Tunnel.usb).timers = [{ seq := (1 : Half), due := (5000100000 : ℕ), paused := (0 : ℕ) : ReTimer }]) ∧
     ((((wTimer 0).arrive 5000100000).link_ 0).pcsUp = true) ∧
     ({ seq := (1 : Half), due := (5000100000 : ℕ), paused := (0 : ℕ) : ReTimer }.due + { seq := (1 : Half), due := (5000100000 : ℕ), paused := (0 : ℕ) : ReTimer }.paused + ((wTimer (0 : ℕ)).arrive (5000100000 : ℕ)).slotTime (0 : Seat) ({ seq := (1 : Half), due := (5000100000 : ℕ), paused := (0 : ℕ) : ReTimer }.due - (30000 : ℕ)) (((wTimer (0 : ℕ)).arrive (5000100000 : ℕ)).ut (((wTimer (0 : ℕ)).arrive (5000100000 : ℕ)).servingCore (0 : Seat))) ≤ ((wTimer (0 : ℕ)).arrive (5000100000 : ℕ)).ut (((wTimer (0 : ℕ)).arrive (5000100000 : ℕ)).servingCore (0 : Seat)))) ∧
    -- clause 5
    ((Tunnel.usb.reliable = true) ∧
     ((((wTimer (15 : ℕ)).arrive (5000100000 : ℕ)).tun (0 : Seat) Tunnel.usb).timers = [{ seq := (1 : Half), due := (5000100000 : ℕ), paused := (0 : ℕ) : ReTimer }]) ∧
     ((((wTimer 15).arrive 5000100000).link_ 0).pcsUp = true) ∧
     ({ seq := (1 : Half), due := (5000100000 : ℕ), paused := (0 : ℕ) : ReTimer }.due + { seq := (1 : Half), due := (5000100000 : ℕ), paused := (0 : ℕ) : ReTimer }.paused + ((wTimer (15 : ℕ)).arrive (5000100000 : ℕ)).slotTime (0 : Seat) ({ seq := (1 : Half), due := (5000100000 : ℕ), paused := (0 : ℕ) : ReTimer }.due - (30000 : ℕ)) (((wTimer (15 : ℕ)).arrive (5000100000 : ℕ)).ut (((wTimer (15 : ℕ)).arrive (5000100000 : ℕ)).servingCore (0 : Seat))) ≤ ((wTimer (15 : ℕ)).arrive (5000100000 : ℕ)).ut (((wTimer (15 : ℕ)).arrive (5000100000 : ℕ)).servingCore (0 : Seat)))) := by
  and_intros <;> decide +kernel
theorem witness_RateChange :
    -- clause 0.0
    (((wLinkSt wWith5).viaHeard (Via.prog CoreId.a) = true) ∧
     ((wLinkSt wWith5).viaMay (Via.prog CoreId.a) = true) ∧
     (4 ≠ ((wLinkSt wWith5).link_ 0).rate) ∧
     (((wLinkSt wWith5).link_ (0 : Seat)).maxRate < BitVec.toNat (4 : BitVec (4 : ℕ)))) ∧
    -- clause 0.1
    (((wLinkSt wWith6).viaHeard (Via.prog CoreId.a) = true) ∧
     ((wLinkSt wWith6).viaMay (Via.prog CoreId.a) = true) ∧
     (BitVec.toNat (3 : BitVec (4 : ℕ)) ≤ ((wLinkSt wWith6).link_ (0 : Seat)).maxRate) ∧
     ((wLinkSt wWith6).linkState 0 = LinkState.up) ∧
     (3 ≠ ((wLinkSt wWith6).link_ 0).rate) ∧
     (((wLinkSt wWith6).link_ (0 : Seat)).partnerRates &&& rateBit (BitVec.toNat (3 : BitVec (4 : ℕ))) ≠ (0 : BitVec (4 : ℕ)))) ∧
    -- clause 1
    ((wRateAck.length = 16) ∧
     (((wRate RatePhase.waitAck).seatTime 0).ratePhase = RatePhase.waitAck) ∧
     ((wRate RatePhase.waitAck).ut ((wRate RatePhase.waitAck).servingCore 0) < ((wRate RatePhase.waitAck).seatTime 0).ackBy) ∧
     (fld wRateAck 0 2 = (Option.map (fun x => x.toNat) ((wRate RatePhase.waitAck).seatTime 0).recorded).getD 0) ∧
     (fld wRateAck 2 6 = 0) ∧
     (fld wRateAck 8 8 = ((wRate RatePhase.waitAck).seatTime 0).stopUt)) ∧
    -- clause 2
    (((((wRate RatePhase.waitAck).arrive 5010000000).seatTime 0).ratePhase = RatePhase.waitAck) ∧
     ((((wRate RatePhase.waitAck).arrive 5010000000).seatTime 0).ackBy ≤ ((wRate RatePhase.waitAck).arrive 5010000000).ut (((wRate RatePhase.waitAck).arrive 5010000000).servingCore 0))) ∧
    -- clause 3
    (((((wRate RatePhase.waitStop).arrive 5020000000).seatTime 0).ratePhase = RatePhase.waitStop) ∧
     ((((wRate RatePhase.waitStop).arrive 5020000000).seatTime 0).stopUt ≤ ((wRate RatePhase.waitStop).arrive 5020000000).ut (((wRate RatePhase.waitStop).arrive 5020000000).servingCore 0)) ∧
     ((((wRate RatePhase.waitStop).arrive 5020000000).link_ 0).pcsUp = true)) ∧
    -- clause 4
    ((((wChanging.arrive 7000000000).seatTime 0).targetFrom = some 4000000000) ∧
     (((wChanging.arrive 7000000000).targetOnly 0).isSome = true) ∧
     (((wChanging.arrive 7000000000).link_ 0).holdStart = none) ∧
     (((wChanging.arrive 7000000000).link_ 0).pcsUp = false) ∧
     (4000000000 + 3000 * ms ≤ (wChanging.arrive 7000000000).ut ((wChanging.arrive 7000000000).servingCore 0))) := by
  and_intros <;> decide +kernel
theorem witness_FramesAndTime :
    -- clause 0
    ((((wTimer 0).link_ 0).pcsUp = true) ∧
     (wNak.length = 12) ∧
     (fld wNak 1 1 = 0) ∧
     (Tunnel.ofCode (fld wNak 0 1) = some Tunnel.usb) ∧
     (Tunnel.usb.reliable = true)) ∧
    -- clause 1
    ((Tunnel.usb.reliable = true) ∧
     (((wAhead.arrive 5000000000).tun 0 Tunnel.usb).ahead ≠ []) ∧
     (((wAhead.arrive 5000000000).tun 0 Tunnel.usb).nakAfter ≤ (wAhead.arrive 5000000000).ut ((wAhead.arrive 5000000000).servingCore 0)) ∧
     ((wAhead.arrive 5000000000).bareReady 0 16 = true)) ∧
    -- clause 2
    ((((wReport.arrive 5000000000).tun 0 Tunnel.usb).reportBy = some 5000000000) ∧
     (5000000000 ≤ (wReport.arrive 5000000000).ut ((wReport.arrive 5000000000).servingCore 0)) ∧
     ((wReport.arrive 5000000000).bareReady 0 0 = true)) ∧
    -- clause 3
    ((((wUp.arrive 5000050000).link_ 0).lastTx + 50000 ≤ (wUp.arrive 5000050000).ut ((wUp.arrive 5000050000).servingCore 0)) ∧
     ((wUp.arrive 5000050000).bareReady 0 0 = true)) ∧
    -- clause 4
    (((wUp.link_ 0).pcsUp = true) ∧
     ([2, 0, 52, 18, 86, 0, 0, 0].length = 8) ∧
     (fld [2, 0, 52, 18, 86, 0, 0, 0] 1 1 = 0) ∧
     (fld [2, 0, 52, 18, 86, 0, 0, 0] 6 2 = 0)) ∧
    -- clause 5
    ((((wYs.arrive 5000000000).link_ 0).st = LinkState.up) ∧
     (((wYs.arrive 5000000000).seatTime 0).lastUpdate + ms ≤ (wYs.arrive 5000000000).ut ((wYs.arrive 5000000000).servingCore 0))) ∧
    -- clause 6
    (((((wUp.arrive 5000000000).settleGate 0).link_ 0).pcsUp = true) ∧
     ((((wUp.arrive 5000000000).settleGate 0).seatTraf 0).calNow.2 ≠ 0)) ∧
    -- clause 7
    ((((wUp.arrive 5000000000).link_ 0).pcsUp = true) ∧
     (frameCheck false [1, 2, 3] = Sum.inl 4)) ∧
    -- clause 8
    ((((wUp.arrive 5000000000).link_ 0).pcsUp = true) ∧
     (((wUp.arrive 5000000000).link_ 0).st = LinkState.up) ∧
     (((wUp.arrive 5000000000).link_ 0).live = false) ∧
     (frameCheck false wSyncFrame = Sum.inr Tunnel.sync) ∧
     (bit (fld wSyncFrame 0 1) 7 = false) ∧
     (bit (fld wSyncFrame 1 1) 7 = false) ∧
     (wSyncMsg = List.take (fld wSyncFrame 8 2) (List.drop 16 wSyncFrame)) ∧
     (splitMsgs 4 wSyncMsg.length wSyncMsg = ([wSyncMsg], true)) ∧
     (fld wSyncMsg 0 1 = 17) ∧
     (fld wSyncMsg 1 1 = 0) ∧
     (wSyncMsg.length = 12) ∧
     (fld wSyncMsg 5 1 = 0) ∧
     (fld wSyncMsg 10 2 = 0) ∧
     (((wUp.arrive 5000000000).rxAdmit 0 Tunnel.sync wSyncFrame.length).1 = true) ∧
     (fld wSyncFrame 2 2 = BitVec.toNat ((wUp.arrive 5000000000).tun 0 Tunnel.sync).recv) ∧
     (((wUp.arrive 5000000000).tun 0 Tunnel.sync).ahead = [])) := by
  and_intros <;> decide +kernel
end G7

namespace G8
def wBase : State := wWork 1000000 (isl .active) wQ wR
/-- A DISPLAY_HEAD entry of head 0 of seat 0 with an operation, 64 by 8 at 8 bits. -/
def wHeadEntry (op : Byte) : List Byte :=
  [0x21, 2, 0, 0, 9, 0, 0, 0, 0, 0, op, 8, 64, 0, 8, 0, 0, 0x10, 0, 0, 100, 0, 16, 0, 4, 0, 4, 0, 1, 1, 0, 0]
def wEdid (op : Byte) : List Byte := [0x21, 2, 0, 0, 9, 0, 0, 0, 0, 0, op, 0, 0, 0, 0, 0, 0, 0x10] ++ List.replicate 14 0
def wSource (v : Byte) : List Byte := [0x21, 2, 0, 0, 9, 0, 0, 0, 0, 0, 5, 0, 2, 2, v, 0] ++ List.replicate 16 0
def wTiming : Timing := { h := 64, v := 8, clock := 4096, ht := 100, vt := 16, hf := 4, hs := 4, vf := 1, vs := 1, flags := 0 }
def wHead : HeadSt := { HeadSt.init with st := .attached, timing := wTiming, bpp := 8, islet := 1 }
def wView : ViewSt := { ViewSt.init with monitor := true, maxClock := 600000, storeBytes := 0x100000, edid := List.replicate 8 1 }
def wScreen (s : State) (h : HeadSt) (v : ViewSt) : State := (s.setHead 0 h).setView 0 v
def wDetached : HeadSt := { HeadSt.init with st := .detached }
def wMib (s : State) : State := s.setIslet 1 { isl .active with dispMib := 4 }
/-- Islet 2 broadcasts head 2 to seat 0. -/
def wBroadcast : State :=
  ((wScreen (wOpen (wSource 1)) wHead wView).setIslet 2 { isl .active with seats := 4, bcast := true, bmask := 1 }).setHead 2 { wHead with islet := 2, bcastSrc := true }
def wWith1 := { wHead with islet := 2, bcastSrc := true }
/-- A DISPLAY_FRAME entry of head 0 that gathers every tile. -/
def wFrame : List Byte := [0x20, 2, 0, 0, 9, 0, 0, 0, 0, 0, 0, 0, 1, 0, 0, 1, 0, 0, 0x10, 0] ++ List.replicate 12 0
/-- A full frame of head 0 at 0x100000, 256 bytes a line. -/
def wWholeFrame : List Byte :=
  [0x20, 4, 0, 0, 9, 0, 0, 0, 0, 0, 1, 1, 1, 0, 0, 0, 0, 0, 0x10, 0, 0, 0, 0, 0, 0, 1, 0, 0] ++ List.replicate 36 0
/-- A frame of islet 1 is the next to be taken. -/
def wTaking (d : HeadSt) : State :=
  wScreen (wWork 1000000 (isl .active) { wQ with p := 4, next := 4, credit := 1, cache := [⟨0, wWholeFrame, 900⟩] } wR) d wView
/-- The frame's entry has started. -/
def wBegun : EntrySt := { wEntry wFrame with started := true }
def wWith2 := { wHead with waiting := [(5, 1)] }
def wGathering : State :=
  (wScreen (wOpen wFrame) { wHead with cur := some (5, 1), gather := some 0, landed := false } wView).setGather .a 0
    { GatherSt.init with state := 1, busy := some 0, total := 1, tiles := [0] }
def wPipe : State :=
  (wScreen (wOpen wFrame) { wHead with cur := some (5, 1), todo := [1, 2] } wView).setPipe .a 3 (some (0, 1))
def wWith3 := { wView with pendingPos := [1, 2] }
def wWith4 := { wHead with newest := 4 }
def wWith5 := { wView with commitDue := true }
def wFollow : State := wScreen (unit 1000000) wHead { wView with source := some (2, 2), lastCommitUt := 1000000 }
def wWith6 := { wHead with cur := some (5, 1), newest := 1, refresh := true }
def wWith7 := { wHead with frame := [(3, 5)] }
def wWith8 := { wHead with mirrored := true }
def wLinkUp : SeatLink :=
  { SeatLink.init with st := .up, pcsUp := true, rate := 4, epoch := 3, svcEpoch := 3, lastRx := 900, lastTx := 900 }
def wDock (h : HeadSt) (v : ViewSt) (b : List Byte) : State := (wScreen (wOpen b) h v).setLink_ 0 wLinkUp
def wWith9 := { wHead with charge := 1 }
def wWith10 := { wView with config := some (7, some 5) }
theorem witness_HeadEntries :
    -- clause 0.0
    (((wOpen (wHeadEntry 1)).entryOf CoreId.a 5 33 = some (wEntry (wHeadEntry 1))) ∧
     (fld (wEntry (wHeadEntry 1)).bytes 10 1 = 1) ∧
     ((wOpen (wHeadEntry 1)).attachCheck (wEntry (wHeadEntry 1)) (entryHead (wEntry (wHeadEntry 1))) = some 81)) ∧
    -- clause 0.1
    (((wMib (wScreen (wOpen (wHeadEntry 1)) wDetached wView)).entryOf CoreId.a 5 33 = some (wEntry (wHeadEntry 1))) ∧
     (fld (wEntry (wHeadEntry 1)).bytes 10 1 = 1) ∧
     ((wMib (wScreen (wOpen (wHeadEntry 1)) wDetached wView)).attachCheck (wEntry (wHeadEntry 1)) (entryHead (wEntry (wHeadEntry 1))) = none)) ∧
    -- clause 0.2
    (((wScreen (wOpen (wEdid 2)) wHead wView).entryOf CoreId.a 5 33 = some (wEntry (wEdid 2))) ∧
     (fld (wEntry (wEdid 2)).bytes 10 1 = 2) ∧
     ((wScreen (wOpen (wEdid 2)) wHead wView).attachedBy (wEntry (wEdid 2)) (entryHead (wEntry (wEdid 2))) = true)) ∧
    -- clause 0.3
    (((wScreen (wOpen (wEdid 2)) wDetached wView).entryOf CoreId.a 5 33 = some (wEntry (wEdid 2))) ∧
     (fld (wEntry (wEdid 2)).bytes 10 1 = 2) ∧
     ((wScreen (wOpen (wEdid 2)) wDetached wView).attachedBy (wEntry (wEdid 2)) (entryHead (wEntry (wEdid 2))) = false)) ∧
    -- clause 0.4
    (((wScreen (wOpen (wEdid 3)) wHead wView).entryOf CoreId.a 5 33 = some (wEntry (wEdid 3))) ∧
     (fld (wEntry (wEdid 3)).bytes 10 1 = 3) ∧
     ((wScreen (wOpen (wEdid 3)) wHead wView).attachedBy (wEntry (wEdid 3)) (entryHead (wEntry (wEdid 3))) = true)) ∧
    -- clause 0.5
    (((wScreen (wOpen (wEdid 3)) wDetached wView).entryOf CoreId.a 5 33 = some (wEntry (wEdid 3))) ∧
     (fld (wEntry (wEdid 3)).bytes 10 1 = 3) ∧
     ((wScreen (wOpen (wEdid 3)) wDetached wView).attachedBy (wEntry (wEdid 3)) (entryHead (wEntry (wEdid 3))) = false)) ∧
    -- clause 0.6
    (((wOpen (wEdid 4)).entryOf CoreId.a 5 33 = some (wEntry (wEdid 4))) ∧
     (fld (wEntry (wEdid 4)).bytes 10 1 = 4) ∧
     (((wOpen (wEdid 4)).head (entryHead (wEntry (wEdid 4)))).st = HeadState.absent)) ∧
    -- clause 0.7
    (((wScreen (wOpen (wEdid 4)) wDetached wView).entryOf CoreId.a 5 33 = some (wEntry (wEdid 4))) ∧
     (fld (wEntry (wEdid 4)).bytes 10 1 = 4) ∧
     (((wScreen (wOpen (wEdid 4)) wDetached wView).head (entryHead (wEntry (wEdid 4)))).st ≠ HeadState.absent) ∧
     ((wScreen (wOpen (wEdid 4)) wDetached wView).canRequestFor ((wScreen (wOpen (wEdid 4)) wDetached wView).entryFn (wEntry (wEdid 4))) = true) ∧
     (∀ w ∈ (wScreen (wOpen (wEdid 4)) wDetached wView).host.waiting, w.islet ≠ (wEntry (wEdid 4)).islet ∨ w.fn ≠ (wScreen (wOpen (wEdid 4)) wDetached wView).entryFn (wEntry (wEdid 4)))) ∧
    -- clause 0.8
    (((wScreen (wOpen (wSource 1)) wDetached wView).entryOf CoreId.a 5 33 = some (wEntry (wSource 1))) ∧
     (fld (wEntry (wSource 1)).bytes 10 1 = 5) ∧
     ((wScreen (wOpen (wSource 1)) wDetached wView).attachedBy (wEntry (wSource 1)) (entryHead (wEntry (wSource 1))) = false)) ∧
    -- clause 0.9
    (((wScreen (wOpen (wSource 0)) wHead wView).entryOf CoreId.a 5 33 = some (wEntry (wSource 0))) ∧
     (fld (wEntry (wSource 0)).bytes 10 1 = 5) ∧
     ((wScreen (wOpen (wSource 0)) wHead wView).attachedBy (wEntry (wSource 0)) (entryHead (wEntry (wSource 0))) = true) ∧
     (bit (fld (wEntry (wSource 0)).bytes 14 2) 0 = false)) ∧
    -- clause 0.10
    ((wBroadcast.entryOf CoreId.a 5 33 = some (wEntry (wSource 1))) ∧
     (fld (wEntry (wSource 1)).bytes 10 1 = 5) ∧
     (wBroadcast.attachedBy (wEntry (wSource 1)) (entryHead (wEntry (wSource 1))) = true) ∧
     (bit (fld (wEntry (wSource 1)).bytes 14 2) 0 = true) ∧
     (2 = toIslet (fld (wEntry (wSource 1)).bytes 12 2 % 256)) ∧
     (wWith1 = wBroadcast.head (toHead (fld (wEntry (wSource 1)).bytes 12 2 / 256))) ∧
     ((wBroadcast.islet 2).st ≠ IslState.free) ∧
     (wWith1.st = HeadState.attached) ∧
     (wWith1.bcastSrc = true) ∧
     (wWith1.islet = 2) ∧
     (BitVec.getLsbD (wBroadcast.islet (2 : IsletNo)).bmask ↑(headSeat (entryHead (wEntry (wSource (1 : Byte))))) = true) ∧
     (wWith1.timing.h = (wBroadcast.head (entryHead (wEntry (wSource 1)))).timing.h) ∧
     (wWith1.timing.v = (wBroadcast.head (entryHead (wEntry (wSource 1)))).timing.v) ∧
     (2 * (4 * sliceRows wWith1.timing.v * sliceBytes wWith1.timing.h wWith1.timing.v wWith1.bpp) ≤ (wBroadcast.view (entryHead (wEntry (wSource 1)))).storeBytes)) ∧
    -- clause 1
    (((wScreen (wOpen wFrame) wHead wView).entryOf CoreId.a 5 32 = some (wEntry wFrame))) ∧
    -- clause 2.0
    ((TakesNext (wTaking wHead) CoreId.a (1 : IsletNo) (0 : Fin (512 : ℕ)) { idx := (0 : Half), bytes := wWholeFrame, ut := (900 : ℕ) : Cached }) ∧
     (fld { idx := (0 : Half), bytes := wWholeFrame, ut := (900 : ℕ) : Cached }.bytes (0 : ℕ) (1 : ℕ) = (32 : ℕ)) ∧
     ((0 : HeadNo) = unitHead (toSeat (fld { idx := (0 : Half), bytes := wWholeFrame, ut := (900 : ℕ) : Cached }.bytes (8 : ℕ) (1 : ℕ))) (toFin (1 : ℕ) (fld { idx := (0 : Half), bytes := wWholeFrame, ut := (900 : ℕ) : Cached }.bytes (9 : ℕ) (1 : ℕ)))) ∧
     (((wTaking wHead).head 0).st = HeadState.attached) ∧
     (((wTaking wHead).head 0).islet = 1)) ∧
    -- clause 2.1
    ((TakesNext (wTaking wDetached) CoreId.a (1 : IsletNo) (0 : Fin (512 : ℕ)) { idx := (0 : Half), bytes := wWholeFrame, ut := (900 : ℕ) : Cached }) ∧
     (fld { idx := (0 : Half), bytes := wWholeFrame, ut := (900 : ℕ) : Cached }.bytes (0 : ℕ) (1 : ℕ) = (32 : ℕ)) ∧
     ((0 : HeadNo) = unitHead (toSeat (fld { idx := (0 : Half), bytes := wWholeFrame, ut := (900 : ℕ) : Cached }.bytes (8 : ℕ) (1 : ℕ))) (toFin (1 : ℕ) (fld { idx := (0 : Half), bytes := wWholeFrame, ut := (900 : ℕ) : Cached }.bytes (9 : ℕ) (1 : ℕ)))) ∧
     (((wTaking wDetached).head 0).st ≠ HeadState.attached ∨ ((wTaking wDetached).head 0).islet ≠ 1)) := by
  unfold TakesNext
  and_intros <;> decide +kernel
theorem witness_FramesOnTheirWay :
    -- clause 0
    (((wScreen ((wOpen wFrame).setEntry 5 wBegun) wWith2 wView).servingCore (headSeat 0) = CoreId.a) ∧
     (((wScreen ((wOpen wFrame).setEntry 5 wBegun) wWith2 wView).head 0).st = HeadState.attached) ∧
     ((wScreen ((wOpen wFrame).setEntry 5 wBegun) wWith2 wView).paced 0 = true) ∧
     (((wScreen ((wOpen wFrame).setEntry 5 wBegun) wWith2 wView).head 0).waiting = [(5, 1)]) ∧
     ((wScreen ((wOpen wFrame).setEntry 5 wBegun) wWith2 wView).entry? 5 = some wBegun) ∧
     (wBegun.started = true) ∧
     ((wScreen ((wOpen wFrame).setEntry 5 wBegun) wWith2 wView).mayEmit wBegun.islet = true) ∧
     ((wScreen ((wOpen wFrame).setEntry 5 wBegun) wWith2 wView).readsRefused ((wScreen ((wOpen wFrame).setEntry 5 wBegun) wWith2 wView).entryFn wBegun) = false) ∧
     (bit (fld wBegun.bytes 12 1) 0 = true ∨ ((wScreen ((wOpen wFrame).setEntry 5 wBegun) wWith2 wView).head 0).refresh = false ∧ fld wBegun.bytes 28 4 ≠ 0) ∧
     (List.find? (fun j => ((wScreen ((wOpen wFrame).setEntry (5 : ℕ) wBegun) wWith2 wView).gather CoreId.a ↑j).busy.isNone && (wScreen ((wOpen wFrame).setEntry (5 : ℕ) wBegun) wWith2 wView).groupOn CoreId.a ↑j) (List.finRange (16 : ℕ)) = some (0 : Fin (16 : ℕ)))) ∧
    -- clause 1
    (((wGathering.gather CoreId.a ↑(0 : Fin (16 : ℕ))).busy = some (0 : HeadNo)) ∧
     ((wGathering.gather CoreId.a ↑(0 : Fin (16 : ℕ))).bad = false) ∧
     (∀ r ∈ wGathering.host.reads, r.2.why ≠ ReadFor.gatherIndex CoreId.a 0 ∧ ∀ (p x y n : ℕ), r.2.why ≠ ReadFor.gatherLine CoreId.a 0 p x y n)) ∧
    -- clause 2
    ((wPipe.pipe CoreId.a ↑(3 : Fin (16 : ℕ)) = some ((0 : HeadNo), (1 : ℕ)))) ∧
    -- clause 3
    (((wScreen (wOpen wFrame) wHead wWith3).shown 0 = 0) ∧
     (((wScreen (wOpen wFrame) wHead wWith3).view 0).screen = true ∨ ((wScreen (wOpen wFrame) wHead wWith3).head 0).refresh = false ∧ ((wScreen (wOpen wFrame) wHead wWith3).view 0).owed = none) ∧
     (((wScreen (wOpen wFrame) wHead wWith3).view 0).screen = true ∨ (wScreen (wOpen wFrame) wHead wWith3).awayView 0 = false ∨ (wScreen (wOpen wFrame) wHead wWith3).awayReady 0 1 = true) ∧
     (((wScreen (wOpen wFrame) wHead wWith3).view 0).pendingPos = [1, 2]) ∧
     ((wScreen (wOpen wFrame) wHead wWith3).slicesWaiting 0 < 2)) ∧
    -- clause 4
    (((wScreen (wOpen wFrame) wWith4 wWith5).shown 0 = 0) ∧
     (((wScreen (wOpen wFrame) wWith4 wWith5).view 0).commitDue = true) ∧
     (((wScreen (wOpen wFrame) wWith4 wWith5).view 0).pendingPos = []) ∧
     (((wScreen (wOpen wFrame) wWith4 wWith5).view 0).screen = true ∨ (wScreen (wOpen wFrame) wWith4 wWith5).encoding 0 = false ∧ ((wScreen (wOpen wFrame) wWith4 wWith5).head 0).refresh = false ∧ ((wScreen (wOpen wFrame) wWith4 wWith5).view 0).owed = none ∧ ((wScreen (wOpen wFrame) wWith4 wWith5).awayView 0 = false ∨ (wScreen (wOpen wFrame) wWith4 wWith5).copiesOut 0 = false))) ∧
    -- clause 5
    ((((wFollow.arrive 1001000000).view 0).source.isSome = true) ∧
     (((wFollow.arrive 1001000000).view 0).lastCommitUt + 1000 * ms ≤ (wFollow.arrive 1001000000).ut ((wFollow.arrive 1001000000).servingCore (headSeat 0)))) ∧
    -- clause 6
    (((wScreen (wOpen wFrame) wWith6 wView).servingCore (headSeat 0) = CoreId.a) ∧
     (((wScreen (wOpen wFrame) wWith6 wView).head 0).cur = some (5, 1)) ∧
     (((wScreen (wOpen wFrame) wWith6 wView).head 0).landed = true) ∧
     (((wScreen (wOpen wFrame) wWith6 wView).head 0).todo = []) ∧
     ((wScreen (wOpen wFrame) wWith6 wView).entry? 5 = some (wEntry wFrame)) ∧
     ((wEntry wFrame).ended = none)) ∧
    -- clause 7
    (((wScreen (wOpen wFrame) wWith7 wView).servingCore (headSeat 0) = CoreId.a) ∧
     ((wScreen (wOpen wFrame) wWith7 wView).twinUp = true) ∧
     (((wScreen (wOpen wFrame) wWith7 wView).head 0).st = HeadState.attached)) := by
  and_intros <;> first
    | decide +kernel
    | (rw [show wGathering.host.reads = [] from rfl]; simp)
theorem witness_DockReports :
    -- clause 0
    (((wDock HeadSt.init ViewSt.init wFrame).dispOpen 0 = true) ∧
     (bits (BitVec.toNat (2457601 : W32)) (11 : ℕ) (1 : ℕ) = (0 : ℕ)) ∧
     ([1, 2].length ≤ 512)) ∧
    -- clause 1.0
    (((wDock wWith9 wWith10 (wHeadEntry 1)).dispOpen 0 = true) ∧
     (bits (BitVec.toNat (7 : W32)) (31 : ℕ) (17 : ℕ) = (0 : ℕ)) ∧
     (((wDock wWith9 wWith10 (wHeadEntry 1)).view (unitHead 0 0)).config = some (7, some 5)) ∧
     (BitVec.toNat (7 : Half) = BitVec.toNat (7 : W32) % (65536 : ℕ)) ∧
     ((wDock wWith9 wWith10 (wHeadEntry 1)).entry? 5 = some (wEntry (wHeadEntry 1))) ∧
     ((wEntry (wHeadEntry 1)).ended = none) ∧
     (bit (BitVec.toNat (7 : W32)) (16 : ℕ) = false)) ∧
    -- clause 1.1
    (((wDock wWith9 wWith10 (wHeadEntry 1)).dispOpen 0 = true) ∧
     (bits (BitVec.toNat (65543 : W32)) (31 : ℕ) (17 : ℕ) = (0 : ℕ)) ∧
     (((wDock wWith9 wWith10 (wHeadEntry 1)).view (unitHead 0 0)).config = some (7, some 5)) ∧
     (BitVec.toNat (7 : Half) = BitVec.toNat (65543 : W32) % (65536 : ℕ)) ∧
     ((wDock wWith9 wWith10 (wHeadEntry 1)).entry? 5 = some (wEntry (wHeadEntry 1))) ∧
     ((wEntry (wHeadEntry 1)).ended = none) ∧
     (bit (BitVec.toNat (65543 : W32)) (16 : ℕ) = true) ∧
     (((wDock wWith9 wWith10 (wHeadEntry 1)).head (unitHead 0 0)).st = HeadState.attached)) ∧
    -- clause 2
    (((wDock wHead wView wFrame).dispOpen 0 = true) ∧
     (BitVec.toNat (589824 : W32) % (65536 : ℕ) = (0 : ℕ))) ∧
    -- clause 3
    (((wDock wHead wView wFrame).dispOpen 0 = true) ∧
     (((wDock wHead wView wFrame).view (unitHead 0 0)).screen = false) ∧
     (((wDock wHead wView wFrame).head ((wDock wHead wView wFrame).shown (unitHead 0 0))).st = HeadState.attached)) ∧
    -- clause 4
    ((((wScreen (unit 1000000) wDetached wView).arrive 2000000).mode.mode ≠ Mode.unsupervised) ∧
     (((wScreen (unit 1000000) wDetached wView).arrive 2000000).showsScreen 0 = true) ∧
     ((((wScreen (unit 1000000) wDetached wView).arrive 2000000).head 0).st ≠ HeadState.absent) ∧
     ((((wScreen (unit 1000000) wDetached wView).arrive 2000000).view 0).owed = none) ∧
     ((((wScreen (unit 1000000) wDetached wView).arrive 2000000).view 0).screen = false ∨ (((wScreen (unit 1000000) wDetached wView).arrive 2000000).view 0).screenFacts ≠ ((wScreen (unit 1000000) wDetached wView).arrive 2000000).screenFacts 0 ∨ (((wScreen (unit 1000000) wDetached wView).arrive 2000000).view 0).screenAt ≠ ((wScreen (unit 1000000) wDetached wView).arrive 2000000).screenTiming 0)) := by
  and_intros <;> decide +kernel
end G8

namespace G9
def wBase : State := wWork 1000000 (isl .active) wQ wR
def wCell (o : Nat) : StagedCell := { frame := 3, left := [o], first := true, last := true }
def wFabPort (i o : Nat) : FabPort := { FabPort.init false i with staging := [wCell o] }
def wFab (ports : Tab FabPort) (frames : Tab FabFrame) (landed : List (Nat × Nat)) : State :=
  (unit 1000000).setFabCore .a { FabCore.init with ports := ports, frames := frames, landed := landed }
def wFr : FabFrame :=
  { input := 0, dests := [], cls := 3, account := 1, cells := 2, bytes := 100, strait := true, verdict := some true, allowIn := .pool, group := none, trunkSeq := [],
    outSeq := none, unsent := [], header := [], data := [], copy := none }
def wWith1 := { wFr with dests := [130] }
def wWith2 := { wFr with dests := [159] }
def wWith3 := { wFr with dests := [5] }
def wWith4 := { wFr with dests := [64] }
def wSending : FabPort := { FabPort.init false 130 with sending := some (3, 4) }
def wReseq : State :=
  (unit 1000000).setFabCore .a { FabCore.init with reseq := [(outOfKey 130 2 3, { next := 4, restart := false, held := [(6, none)], since := some 1000000 })] }
def wWith5 := { GroupSt.init with staged := 7, gen := 255 }
def wWith6 := { FabCore.init with groups := [(255, wWith5)] }
def wRetiring : State := (unit 1000).setFabCore .a { FabCore.init with groups := [(9, { GroupSt.init with inside := [2], gen := 3 })] }
def wWith7 := { (unit 1000).fabPort .a 153 with outMin := 0 }
def wWith8 := { isl .active with fabKib := 0x2000000 }
def wWith9 := { ((unit 1000).setIslet 1 wWith8).fabPort .a 153 with outMin := 0xFFFFFFFFFFFFFFFF }
/-- The schedule staged at reset. -/
def wGates : List (Nat × BitVec 6) := (SeatTraf.init.staged).getD []
def wBadGate : State := (unit 1000).setSeatTraf 0 { SeatTraf.init with entries := [(1, 0x0000013700000100)] }
def wLinkUp : SeatLink :=
  { SeatLink.init with st := .up, pcsUp := true, rate := 4, epoch := 3, svcEpoch := 3, lastRx := 900, lastTx := 900 }
def wTx : TxFrame := ⟨0, List.replicate 100 1, 0, 0, none, none, false, 0, false⟩
def wLate : State :=
  ((wBase.setLink_ 0 wLinkUp).setTun 0 .usb { TunSt.init with queue := [wTx] }).setWfq 0
    { SeatWfq.init with v := 50, usb := { start := 20, finish := 30, tagged := some 65538, lastF := 0 } }
def wCtrl : State := (wBase.setLink_ 0 wLinkUp).setTun 0 .ctrl { TunSt.init with queue := [wTx] }
theorem witness_FabricCommands :
    -- clause 0
    (((wFab [(0, wFabPort 0 130)] [(3, wWith1)] []).serves CoreId.a = true) ∧
     (((wFab [(0, wFabPort 0 130)] [(3, wWith1)] []).fabCore CoreId.a).ports = [(0, wFabPort 0 130)]) ∧
     (((wFab [(0, wFabPort 0 130)] [(3, wWith1)] []).fabCore CoreId.a).kept = []) ∧
     ((wFabPort 0 130).staging = [wCell 130]) ∧
     ((wCell 130).left = [130])) ∧
    -- clause 0
    (((wFab [(63, wFabPort 63 159)] [(3, wWith2)] []).serves CoreId.a = true) ∧
     (((wFab [(63, wFabPort 63 159)] [(3, wWith2)] []).fabCore CoreId.a).ports = [(63, wFabPort 63 159)]) ∧
     (((wFab [(63, wFabPort 63 159)] [(3, wWith2)] []).fabCore CoreId.a).kept = []) ∧
     ((wFabPort 63 159).staging = [wCell 159]) ∧
     ((wCell 159).left = [159])) ∧
    -- clause 1
    (((wFab [(130, wSending)] [(3, wFr)] []).serves CoreId.a = true) ∧
     (((wFab [(130, wSending)] [(3, wFr)] []).fabCore CoreId.a).ports = [(130, wSending)]) ∧
     (((wFab [(130, wSending)] [(3, wFr)] []).fabCore CoreId.a).kept = []) ∧
     (wSending.state = FabState.up) ∧
     (wSending.staging = []) ∧
     (wSending.sending = some (3, 2 + 2))) ∧
    -- clause 2
    (((wFab [] [(3, wFr)] [(3, 130)]).serves CoreId.a = true) ∧
     (((wFab [] [(3, wFr)] [(3, 130)]).fabCore CoreId.a).landed = [(3, 130)]) ∧
     (tget ((wFab [] [(3, wFr)] [(3, 130)]).fabCore CoreId.a).frames 3 FabFrame.none_ = wFr) ∧
     (wFr.input = ↑(0 : Fin (160 : ℕ))) ∧
     (trunkOf 130 = none) ∧
     (trunkOf wFr.input = none) ∧
     (wFr.verdict = some true)) ∧
    -- clause 3
    (((((wReseq.arrive (1010000 : ℕ)).fabCore CoreId.a).reseqAt (outOfKey ↑(130 : Fin (160 : ℕ)) (2 : Fin (3 : ℕ)) ↑(3 : Fin (8 : ℕ)))).since = some (1000000 : ℕ)) ∧
     (1000000 + 10000 ≤ (wReseq.arrive 1010000).ut CoreId.a)) ∧
    -- clause 4.0
    ((((unit 1000).coreSt CoreId.a).fenced = false)) ∧
    -- clause 4.1
    (((((unit 1000).setFabCore CoreId.b wWith6).coreSt CoreId.a).fenced = false)) ∧
    -- clause 5
    ((((wRetiring.fabCore CoreId.a).group ↑(9 : Fin (256 : ℕ))).inside = [(2 : Byte)]) ∧
     ((wRetiring.fabCore CoreId.a).genInside ↑(9 : Fin (256 : ℕ)) (2 : Byte) = false)) ∧
    -- clause 6.0
    (((unit 1000).viaHeard (Via.host h0a) = true) ∧
     ((unit 1000).viaMay (Via.host h0a) = true) ∧
     (↑(153 : Fin (160 : ℕ)) < (154 : ℕ)) ∧
     (((unit 1000).setFabPort CoreId.a 153 wWith7).outMinSum CoreId.a + ((unit 1000).setFabPort CoreId.a 153 wWith7).isletMinSum ≤ 524288)) ∧
    -- clause 6.1
    ((((unit 1000).setIslet 1 wWith8).viaHeard (Via.prog CoreId.a) = true) ∧
     (((unit 1000).setIslet 1 wWith8).viaMay (Via.prog CoreId.a) = true) ∧
     (↑(153 : Fin (160 : ℕ)) < (154 : ℕ)) ∧
     (524288 < (((unit 1000).setIslet 1 wWith8).setFabPort CoreId.a 153 wWith9).outMinSum CoreId.a + (((unit 1000).setIslet 1 wWith8).setFabPort CoreId.a 153 wWith9).isletMinSum)) ∧
    -- clause 7
    (((unit 1000).fnUp h1a = true) ∧
     ((unit 1000).mayUnitWide h1a.port = false)) := by
  and_intros <;> decide +kernel
theorem witness_SeatGates :
    -- clause 0.0
    (((unit 1000).viaHeard (Via.host h0a) = true) ∧
     ((unit 1000).viaMay (Via.host h0a) = true) ∧
     (bits (BitVec.toNat (2313451423520471664 : W64)) (19 : ℕ) (0 : ℕ) = (((unit (1000 : ℕ)).settleGate (0 : Seat)).seatTraf (0 : Seat)).calOff) ∧
     (bits (BitVec.toNat (2313451423520471664 : W64)) (44 : ℕ) (32 : ℕ) = (((unit (1000 : ℕ)).settleGate (0 : Seat)).seatTraf (0 : Seat)).calLen) ∧
     (bit (BitVec.toNat (2313451423520471664 : W64)) (61 : ℕ) = true) ∧
     ((((unit 1000).settleGate 0).seatTraf 0).staged = some wGates) ∧
     (scheduleShape wGates = true) ∧
     (fitCheck wGates (max (27 : ℕ) (bits (BitVec.toNat (2313451423520471664 : W64)) (55 : ℕ) (48 : ℕ))) ((unit (1000 : ℕ)).fitRate (0 : Seat)) (keepClear ((((unit (1000 : ℕ)).settleGate (0 : Seat)).seatTraf (0 : Seat)).calOff, (((unit (1000 : ℕ)).settleGate (0 : Seat)).seatTraf (0 : Seat)).calLen) ((unit (1000 : ℕ)).seatTime (0 : Seat)).dDelay) = true)) ∧
    -- clause 0.1
    ((wBadGate.viaHeard (Via.host h0a) = true) ∧
     (wBadGate.viaMay (Via.host h0a) = true) ∧
     (bits (BitVec.toNat (2313451423520471664 : W64)) (19 : ℕ) (0 : ℕ) = ((wBadGate.settleGate (0 : Seat)).seatTraf (0 : Seat)).calOff) ∧
     (bits (BitVec.toNat (2313451423520471664 : W64)) (44 : ℕ) (32 : ℕ) = ((wBadGate.settleGate (0 : Seat)).seatTraf (0 : Seat)).calLen) ∧
     (bit (BitVec.toNat (2313451423520471664 : W64)) (61 : ℕ) = true) ∧
     (((wBadGate.settleGate 0).seatTraf 0).staged = some [(0, 15), (256, 55)]) ∧
     (scheduleShape [(0, 15), (256, 55)] = false)) ∧
    -- clause 1.0
    (((unit 1000).viaHeard (Via.host h0a) = true) ∧
     ((unit 1000).viaMay (Via.host h0a) = true) ∧
     (bit (BitVec.toNat (7885594316192368 : W64)) (61 : ℕ) = false) ∧
     (calOk (bits (BitVec.toNat (7885594316192368 : W64)) (19 : ℕ) (0 : ℕ)) (bits (BitVec.toNat (7885594316192368 : W64)) (44 : ℕ) (32 : ℕ)) = true)) ∧
    -- clause 1.1
    (((unit 1000).viaHeard (Via.host h0a) = true) ∧
     ((unit 1000).viaMay (Via.host h0a) = true) ∧
     (bit (BitVec.toNat (7915663382231664 : W64)) (61 : ℕ) = false) ∧
     (calOk (bits (BitVec.toNat (7915663382231664 : W64)) (19 : ℕ) (0 : ℕ)) (bits (BitVec.toNat (7915663382231664 : W64)) (44 : ℕ) (32 : ℕ)) = false) ∧
     (bits (BitVec.toNat (7915663382231664 : W64)) (19 : ℕ) (0 : ℕ) ≠ (((unit (1000 : ℕ)).settleGate (0 : Seat)).seatTraf (0 : Seat)).calOff ∨ bits (BitVec.toNat (7915663382231664 : W64)) (44 : ℕ) (32 : ℕ) ≠ (((unit (1000 : ℕ)).settleGate (0 : Seat)).seatTraf (0 : Seat)).calLen)) ∧
    -- clause 2
    ((List.find? (fun e => e.1 == 1000000 % microFrame) (((wLate.arrive 1000000).settleGate 0).seatTraf 0).inForce = some (0, 35000, 15)) ∧
     (((wLate.arrive 1000000).settleGate 0).ut (((wLate.arrive 1000000).settleGate 0).servingCore 0) = 1000000) ∧
     (opens 15 Tunnel.usb = true) ∧
     ((((wLate.arrive (1000000 : ℕ)).settleGate (0 : Seat)).tun (0 : Seat) Tunnel.usb).headOf Tunnel.usb = some { tn := Tunnel.usb, resend := none, f := wTx, rest := [] : Cand }) ∧
     ((((wLate.arrive (1000000 : ℕ)).settleGate (0 : Seat)).wfq (0 : Seat)).usb.tagged = some { tn := Tunnel.usb, resend := none, f := wTx, rest := [] : Cand }.id) ∧
     (tagLt (((wLate.arrive 1000000).settleGate 0).wfq 0).usb.start (((wLate.arrive 1000000).settleGate 0).wfq 0).v = true)) ∧
    -- clause 3
    (((wCtrl.arrive 1000000).lineReady 0 = true) ∧
     (((((((wCtrl.arrive (1000000 : ℕ)).settleGate (0 : Seat)).dropDisowned (0 : Seat)).offerKept ((wCtrl.arrive (1000000 : ℕ)).servingCore (0 : Seat))).dropIso (0 : Seat)).controlHead (0 : Seat) fun f => fitsIn f.len ((((((wCtrl.arrive (1000000 : ℕ)).settleGate (0 : Seat)).dropDisowned (0 : Seat)).offerKept ((wCtrl.arrive (1000000 : ℕ)).servingCore (0 : Seat))).dropIso (0 : Seat)).seatTraf (0 : Seat)).appliedOverhead ((((((wCtrl.arrive (1000000 : ℕ)).settleGate (0 : Seat)).dropDisowned (0 : Seat)).offerKept ((wCtrl.arrive (1000000 : ℕ)).servingCore (0 : Seat))).dropIso (0 : Seat)).rateOf (0 : Seat)) (((((((wCtrl.arrive (1000000 : ℕ)).settleGate (0 : Seat)).dropDisowned (0 : Seat)).offerKept ((wCtrl.arrive (1000000 : ℕ)).servingCore (0 : Seat))).dropIso (0 : Seat)).seatTraf (0 : Seat)).window ((wCtrl.arrive (1000000 : ℕ)).ut ((wCtrl.arrive (1000000 : ℕ)).servingCore (0 : Seat))) ((((((wCtrl.arrive (1000000 : ℕ)).settleGate (0 : Seat)).dropDisowned (0 : Seat)).offerKept ((wCtrl.arrive (1000000 : ℕ)).servingCore (0 : Seat))).dropIso (0 : Seat)).seatTime (0 : Seat)).dDelay).1) = some { tn := Tunnel.ctrl, resend := none, f := wTx, rest := [] : Cand }) ∧
     ({ tn := Tunnel.ctrl, resend := none, f := wTx, rest := [] : Cand }.resend = none)) := by
  and_intros <;> decide +kernel
end G9

namespace G10
def wLinkUp : SeatLink :=
  { SeatLink.init with st := .up, pcsUp := true, rate := 4, epoch := 3, svcEpoch := 3, lastRx := 900, lastTx := 900 }
def wNetTx : List Byte := [0x30, 2, 0, 0, 0, 0, 0, 0, 0, 0, 100, 0, 0, 0, 0, 0, 0, 0x10, 0, 0, 0, 0, 0, 0] ++ List.replicate 8 0
def wNetTx9 : List Byte := [0x30, 2, 0, 0, 0, 0, 0, 0, 9, 0, 100, 0, 0, 0, 0, 0, 0, 0x10, 0, 0, 0, 0, 0, 0] ++ List.replicate 8 0
def wNetRx (x : Byte) : List Byte := [0x31, 2, 0, 0, 0, 0, 0, 0, x, 0, 0, 0, 0, 8, 0, 0, 0, 0x10, 0, 0, 0, 0, 0, 0] ++ List.replicate 8 0
def wNet (b : List Byte) (st : LinkState) : State := (wOpen b).setLink_ 0 { wLinkUp with st := st }
/-- An entry of islet 1 is the next to be taken. -/
def wTaking (b : List Byte) (st : LinkState) : State :=
  (wWork 1000000 (isl .active) { wQ with p := 2, next := 2, credit := 1, cache := [⟨0, b, 900⟩] } wR).setLink_ 0 { wLinkUp with st := st }
def wSend (x : Byte) : List Byte := [0x30, 2, 0, 0, 0, 0, 0, 0, x, 0, 100, 0, 0, 0, 0, 0, 0, 0x10] ++ List.replicate 14 0
def wBuf (x : Byte) : List Byte := [0x31, 2, 0, 0, 0, 0, 0, 0, x, 0, 0, 0, 0, 8, 0, 0, 0, 0x10] ++ List.replicate 14 0
def wNoPasid (b : List Byte) : State :=
  (wNet b .up).setHost { (wNet b .up).host with h0a := { wFn with pasidEn := false } }
def wPoor : State := (wNet (wNetRx 0) .up).setSeatTraf 0 { SeatTraf.init with policeC := 0, policeP := 0, bPoliceC := ⟨0, 1000000⟩, bPoliceP := ⟨0, 1000000⟩ }
def wBuffered : State := (wNet (wNetRx 0) .up).setSeatNet 0 { SeatNet.init with rx := [5] }
def wPolicyReady : State := (unit 1000000).setDispatch .a { DispSt.init with ready := [{ Item.init with kind := 5, flow := 0x700, arg := 0 }] }
def wAllot : State := wWork 1000000 (isl .active) wQ wR
theorem witness_NetEntries :
    -- clause 0.0.0
    ((TakesNext (wTaking (wSend (9 : Byte)) LinkState.up) CoreId.a (1 : IsletNo) (0 : Fin (512 : ℕ)) { idx := (0 : Half), bytes := wSend (9 : Byte), ut := (900 : ℕ) : Cached }) ∧
     ((9 : Seat) = toSeat (fld { idx := (0 : Half), bytes := wSend (9 : Byte), ut := (900 : ℕ) : Cached }.bytes (8 : ℕ) (1 : ℕ))) ∧
     (fld { idx := (0 : Half), bytes := wSend (9 : Byte), ut := (900 : ℕ) : Cached }.bytes (0 : ℕ) (1 : ℕ) = (48 : ℕ)) ∧
     ((wTaking (wSend 9) LinkState.up).owner 9 ≠ 1)) ∧
    -- clause 0.0.1
    ((TakesNext (wTaking (wSend (0 : Byte)) LinkState.unenrolled) CoreId.a (1 : IsletNo) (0 : Fin (512 : ℕ)) { idx := (0 : Half), bytes := wSend (0 : Byte), ut := (900 : ℕ) : Cached }) ∧
     ((0 : Seat) = toSeat (fld { idx := (0 : Half), bytes := wSend (0 : Byte), ut := (900 : ℕ) : Cached }.bytes (8 : ℕ) (1 : ℕ))) ∧
     (fld { idx := (0 : Half), bytes := wSend (0 : Byte), ut := (900 : ℕ) : Cached }.bytes (0 : ℕ) (1 : ℕ) = (48 : ℕ)) ∧
     ((wTaking (wSend 0) LinkState.unenrolled).owner 0 = 1) ∧
     ((wTaking (wSend 0) LinkState.unenrolled).linkState 0 = LinkState.unenrolled ∨ (wTaking (wSend 0) LinkState.unenrolled).linkState 0 = LinkState.authFailed)) ∧
    -- clause 0.0.2
    ((TakesNext (wTaking (wSend (0 : Byte)) LinkState.foreign) CoreId.a (1 : IsletNo) (0 : Fin (512 : ℕ)) { idx := (0 : Half), bytes := wSend (0 : Byte), ut := (900 : ℕ) : Cached }) ∧
     ((0 : Seat) = toSeat (fld { idx := (0 : Half), bytes := wSend (0 : Byte), ut := (900 : ℕ) : Cached }.bytes (8 : ℕ) (1 : ℕ))) ∧
     (fld { idx := (0 : Half), bytes := wSend (0 : Byte), ut := (900 : ℕ) : Cached }.bytes (0 : ℕ) (1 : ℕ) = (48 : ℕ)) ∧
     ((wTaking (wSend 0) LinkState.foreign).owner 0 = 1) ∧
     ((wTaking (wSend 0) LinkState.foreign).linkState 0 = LinkState.noPartner ∨ (wTaking (wSend 0) LinkState.foreign).linkState 0 = LinkState.foreign ∨ (wTaking (wSend 0) LinkState.foreign).linkState 0 = LinkState.disabled)) ∧
    -- clause 0.0.3
    ((TakesNext (wTaking (wSend (0 : Byte)) LinkState.up) CoreId.a (1 : IsletNo) (0 : Fin (512 : ℕ)) { idx := (0 : Half), bytes := wSend (0 : Byte), ut := (900 : ℕ) : Cached }) ∧
     ((0 : Seat) = toSeat (fld { idx := (0 : Half), bytes := wSend (0 : Byte), ut := (900 : ℕ) : Cached }.bytes (8 : ℕ) (1 : ℕ))) ∧
     (fld { idx := (0 : Half), bytes := wSend (0 : Byte), ut := (900 : ℕ) : Cached }.bytes (0 : ℕ) (1 : ℕ) = (48 : ℕ)) ∧
     ((wTaking (wSend 0) LinkState.up).owner 0 = 1) ∧
     ((wTaking (wSend 0) LinkState.up).linkState 0 ≠ LinkState.unenrolled) ∧
     ((wTaking (wSend 0) LinkState.up).linkState 0 ≠ LinkState.authFailed) ∧
     ((wTaking (wSend 0) LinkState.up).linkState 0 ≠ LinkState.noPartner) ∧
     ((wTaking (wSend 0) LinkState.up).linkState 0 ≠ LinkState.foreign) ∧
     ((wTaking (wSend 0) LinkState.up).linkState 0 ≠ LinkState.disabled)) ∧
    -- clause 0.1.0
    ((TakesNext (wTaking (wBuf (9 : Byte)) LinkState.up) CoreId.a (1 : IsletNo) (0 : Fin (512 : ℕ)) { idx := (0 : Half), bytes := wBuf (9 : Byte), ut := (900 : ℕ) : Cached }) ∧
     ((9 : Seat) = toSeat (fld { idx := (0 : Half), bytes := wBuf (9 : Byte), ut := (900 : ℕ) : Cached }.bytes (8 : ℕ) (1 : ℕ))) ∧
     (fld { idx := (0 : Half), bytes := wBuf (9 : Byte), ut := (900 : ℕ) : Cached }.bytes (0 : ℕ) (1 : ℕ) = (49 : ℕ)) ∧
     ((wTaking (wBuf 9) LinkState.up).owner 9 ≠ 1)) ∧
    -- clause 0.1.1
    ((TakesNext (wTaking (wBuf (0 : Byte)) LinkState.up) CoreId.a (1 : IsletNo) (0 : Fin (512 : ℕ)) { idx := (0 : Half), bytes := wBuf (0 : Byte), ut := (900 : ℕ) : Cached }) ∧
     ((0 : Seat) = toSeat (fld { idx := (0 : Half), bytes := wBuf (0 : Byte), ut := (900 : ℕ) : Cached }.bytes (8 : ℕ) (1 : ℕ))) ∧
     (fld { idx := (0 : Half), bytes := wBuf (0 : Byte), ut := (900 : ℕ) : Cached }.bytes (0 : ℕ) (1 : ℕ) = (49 : ℕ)) ∧
     ((wTaking (wBuf 0) LinkState.up).owner 0 = 1)) ∧
    -- clause 1.0
    (((wNoPasid wNetTx).entryOf CoreId.a 5 48 = some (wEntry wNetTx)) ∧
     ((wNoPasid wNetTx).readsRefused ((wNoPasid wNetTx).entryFn (wEntry wNetTx)) = true)) ∧
    -- clause 1.1
    (((wNet wNetTx LinkState.up).entryOf CoreId.a 5 48 = some (wEntry wNetTx)) ∧
     ((wNet wNetTx LinkState.up).readsRefused ((wNet wNetTx LinkState.up).entryFn (wEntry wNetTx)) = false) ∧
     (∀ r ∈ (wNet wNetTx LinkState.up).host.reads, r.1 < (wNet wNetTx LinkState.up).host.nextRead)) ∧
    -- clause 2
    (((wNet (wNetRx 0) LinkState.up).entryOf CoreId.a 5 49 = some (wEntry (wNetRx 0)))) ∧
    -- clause 3.0
    ((((wPoor.arrive 1000000).link_ 0).maySend Tunnel.net = true) ∧
     ((((wPoor.arrive 1000000).seatTraf 0).police ((wPoor.arrive 1000000).ut ((wPoor.arrive 1000000).servingCore 0)) (frameCharge (List.replicate 100 3).length)).1 = Colour.red)) ∧
    -- clause 3.1
    (((((wNet (wNetRx 0) LinkState.up).arrive 1000000).link_ 0).maySend Tunnel.net = true) ∧
     (((((wNet (wNetRx 0) LinkState.up).arrive 1000000).seatTraf 0).police (((wNet (wNetRx 0) LinkState.up).arrive 1000000).ut (((wNet (wNetRx 0) LinkState.up).arrive 1000000).servingCore 0)) (frameCharge (List.replicate 100 3).length)).1 ≠ Colour.red) ∧
     ((((wNet (wNetRx 0) LinkState.up).arrive 1000000).seatNet 0).rx = [])) ∧
    -- clause 3.2
    ((((wBuffered.arrive 1000000).link_ 0).maySend Tunnel.net = true) ∧
     ((((wBuffered.arrive 1000000).seatTraf 0).police ((wBuffered.arrive 1000000).ut ((wBuffered.arrive 1000000).servingCore 0)) (frameCharge (List.replicate 100 3).length)).1 = Colour.green) ∧
     (((wBuffered.arrive 1000000).seatNet 0).rx = [5]) ∧
     ((wBuffered.arrive 1000000).entry? 5 = some (wEntry (wNetRx 0))) ∧
     ((wEntry (wNetRx 0)).ended = none) ∧
     ((List.replicate 100 3).length ≤ fld (wEntry (wNetRx 0)).bytes 12 4) ∧
     ((wBuffered.arrive 1000000).canRequestFor ((wBuffered.arrive 1000000).entryFn (wEntry (wNetRx 0))) = true) ∧
     (∀ w ∈ (wBuffered.arrive 1000000).host.waiting, w.islet ≠ (wEntry (wNetRx 0)).islet ∨ w.fn ≠ (wBuffered.arrive 1000000).entryFn (wEntry (wNetRx 0)))) := by
  unfold TakesNext
  and_intros <;> decide +kernel
theorem witness_AllotmentsAndPolicy :
    -- clause 0
    ((((unit 999000).arrive 1000000).serves CoreId.a = true) ∧
     (1000000 % frameNs = 0) ∧
     (((unit 999000).arrive 1000000).ut CoreId.a = 1000000) ∧
     (((unit 999000).arrive 1000000).servingCore 0 = CoreId.a) ∧
     ((((unit 999000).arrive 1000000).demand 0).latched = [])) ∧
    -- clause 1.0
    ((1250000 % frameNs = 250000) ∧
     (((unit 1000000).arrive 1250000).now = 1250000) ∧
     (((unit 1000000).arrive 1250000).mode.mode.isStart = false) ∧
     (((unit 1000000).arrive 1250000).frozen = false) ∧
     (((unit 1000000).arrive 1250000).serves ((unit 1000000).arrive 1250000).flt.token = true) ∧
     (((((unit 1000000).arrive 1250000).dispatch ((unit 1000000).arrive 1250000).flt.token).ready.any fun x => x.kind == 5) = false)) ∧
    -- clause 1.1
    ((1250000 % frameNs = 250000) ∧
     ((wPolicyReady.arrive 1250000).now = 1250000) ∧
     ((wPolicyReady.arrive 1250000).mode.mode.isStart = false) ∧
     ((wPolicyReady.arrive 1250000).frozen = false) ∧
     ((wPolicyReady.arrive 1250000).serves (wPolicyReady.arrive 1250000).flt.token = true) ∧
     ((((wPolicyReady.arrive 1250000).dispatch (wPolicyReady.arrive 1250000).flt.token).ready.any fun x => x.kind == 5) = true)) ∧
    -- clause 2.0
    ((wAllot.viaHeard (Via.prog CoreId.a) = true) ∧
     (↑(1 : IsletNo) ≠ (0 : ℕ)) ∧
     (bits (BitVec.toNat (1023 : W64)) (9 : ℕ) (0 : ℕ) ≠ bits (BitVec.toNat (wAllot.isletTraf (1 : IsletNo)).share) (9 : ℕ) (0 : ℕ)) ∧
     (wAllot.mayAllot (Via.prog CoreId.a) 1 = true)) ∧
    -- clause 2.1
    ((wAllot.viaHeard (Via.host h1a) = true) ∧
     (↑(1 : IsletNo) ≠ (0 : ℕ)) ∧
     (bits (BitVec.toNat (1023 : W64)) (9 : ℕ) (0 : ℕ) ≠ bits (BitVec.toNat (wAllot.isletTraf (1 : IsletNo)).share) (9 : ℕ) (0 : ℕ)) ∧
     (wAllot.mayAllot (Via.host h1a) 1 = false)) ∧
    -- clause 3
    (((wAllot.coreSt CoreId.a).fenced = false) ∧
     (bits (BitVec.toNat (2047 : W64)) (10 : ℕ) (0 : ℕ) ≠ bits (BitVec.toNat (wAllot.seatTraf (0 : Seat)).policeC) (10 : ℕ) (0 : ℕ))) ∧
    -- clause 4.0
    ((wAllot.fnUp h0a = true) ∧
     (↑(1 : IsletNo) ≠ (0 : ℕ)) ∧
     (wAllot.host.wiring = true ∨ (wAllot.islet 1).owner = h0a.port)) ∧
    -- clause 5
    (((unit 1000).viaHeard (Via.prog CoreId.a) = true) ∧
     ((unit 1000).viaMay (Via.prog CoreId.a) = true)) ∧
    -- clause 5
    (((unit 1000).viaHeard (Via.host h0a) = true) ∧
     ((unit 1000).viaMay (Via.host h0a) = true)) := by
  and_intros <;> decide +kernel
end G10

namespace G11
def wNow : Nat := 100000000000
def wPow (p : SeatPower) : State := (unit wNow).setSeatPower 0 p
def wPowered : SeatPower := { SeatPower.init with st := .powered, assigned := 6, requested := 6, pairsets := 3, sigPairs := 3, poweredUt := 1000, mean1s := 400 }
def wSig : PdSig := { valid := true, classReq := 4, dual := false, pairsetA := true, pairsetB := true }
def wWith1 := { wSig with pairsetA := false, dual := true }
def wWith2 := { wSig with classReq := 0 }
def wClassed : State :=
  ((unit wNow).setPow { (unit wNow).pow with budget := 1000 }).setSeatPower 0 { SeatPower.init with st := .classifying, requested := 4, sigPairs := 3 }
def wShed : State := wPow { SeatPower.init with st := .shed, waitUntil := wNow }
def wWith3 := { wPowered with retrying := true, retries := 3 }
def wWith4 := { wPowered with retrying := true, retries := 4 }
def wFault : State := wPow { SeatPower.init with st := .fault, waitUntil := wNow }
def wWith5 := { SeatPower.init with st := .off, enable := false }
def wLoad64 : List Nat := (List.range 64).map fun k => if k = 0 then 500 else if k = 1 then 600 else 0
def wTwo : State :=
  (((unit wNow).setPow { (unit wNow).pow with budget := 90 }).setSeatPower 0 wPowered).setSeatPower 1 wPowered
def wAlone : State := wTwo.setPow { wTwo.pow with sb := { SupplySt.init with dcOk := false }, sa := { SupplySt.init with overload := true } }
def wFreeze : State := (unit 1000).setCntCore .a { CntCore.init with freezeUt := 2000 }
def wBw : State := (unit 999000).setCntCore .a { CntCore.init with bwNow := [(3, 7)], bwOn := true, bwStart := 0, control := 0x10 }
def wBw10 : State := (unit 9999000).setCntCore .a { CntCore.init with bwNow := [(3, 7)], bwOn := true, bwStart := 9000000, control := 0x18 }
theorem witness_SeatPowerCommands :
    -- clause 0
    ((((unit wNow).arrive wNow).powerServed = true) ∧
     (((unit wNow).arrive wNow).mayPower 0 = true) ∧
     ((((unit wNow).arrive wNow).seatPower 0).st = PowerState.detecting) ∧
     ((((unit wNow).arrive wNow).seatPower 0).waitUntil ≤ ((unit wNow).arrive wNow).now)) ∧
    -- clause 1
    (((wClassed.arrive wNow).powerServed = true) ∧
     (∀ (b : ℕ), (wClassed.arrive wNow).pow.lastOn = some b → b + 10 * ms ≤ (wClassed.arrive wNow).now) ∧
     (List.find? (fun y => (wClassed.arrive wNow).mayPower y && ((wClassed.arrive wNow).classFor y).isSome) (List.filter (fun y => ((wClassed.arrive wNow).seatPower y).st == PowerState.classifying || ((wClassed.arrive wNow).seatPower y).st == PowerState.waiting) allSeats) = some 0) ∧
     ((wClassed.arrive wNow).classFor 0 = some 4)) ∧
    -- clause 2
    (((((wPow wPowered).arrive wNow).seatPower 0).isPowered = true)) ∧
    -- clause 3
    ((((wShed.arrive wNow).seatPower 0).st = PowerState.shed) ∧
     (((wShed.arrive wNow).seatPower 0).waitUntil ≤ (wShed.arrive wNow).now)) ∧
    -- clause 4.0.0
    (((((wPow wPowered).arrive wNow).seatPower 0).isPowered = true) ∧
     ((((wPow wPowered).arrive wNow).seatPower 0).retrying = false) ∧
     (BitVec.toNat (((wPow wPowered).arrive wNow).seatPower 0).retries < 5)) ∧
    -- clause 4.1
    (((((wPow wWith3).arrive wNow).seatPower 0).isPowered = true) ∧
     ((((wPow wWith3).arrive wNow).seatPower 0).retrying = true) ∧
     (BitVec.toNat (((wPow wWith3).arrive wNow).seatPower 0).retries < 4)) ∧
    -- clause 4.2
    (((((wPow wWith4).arrive wNow).seatPower 0).isPowered = true) ∧
     ((((wPow wWith4).arrive wNow).seatPower 0).retrying = true) ∧
     (4 ≤ BitVec.toNat (((wPow wWith4).arrive wNow).seatPower 0).retries)) ∧
    -- clause 5
    ((((wFault.arrive wNow).seatPower 0).st = PowerState.retryWait ∨ ((wFault.arrive wNow).seatPower 0).st = PowerState.fault) ∧
     (((wFault.arrive wNow).seatPower 0).waitUntil ≤ (wFault.arrive wNow).now)) ∧
    -- clause 6
    (((((wPow wWith3).arrive wNow).seatPower 0).isPowered = true) ∧
     ((((wPow wWith3).arrive wNow).seatPower 0).poweredUt + 60000 * ms ≤ ((wPow wWith3).arrive wNow).now)) ∧
    -- clause 7
    ((((wPow wPowered).seatPower 0).isPowered = true)) ∧
    -- clause 8
    (((wPow wPowered).viaHeard (Via.host h0a) = true) ∧
     ((wPow wPowered).viaMay (Via.host h0a) = true) ∧
     (((wPow wPowered).seatPower 0).isPowered = true)) ∧
    -- clause 9
    (((wPow wPowered).viaHeard (Via.host h0a) = true) ∧
     ((wPow wPowered).viaMay (Via.host h0a) = true)) ∧
    -- clause 9
    (((wPow wWith5).viaHeard (Via.prog CoreId.a) = true) ∧
     ((wPow wWith5).viaMay (Via.prog CoreId.a) = true)) := by
  and_intros <;> decide +kernel
theorem witness_Shedding :
    -- clause 1
    ((((wAlone.arrive wNow).takeMeans wLoad64).aloneOver = true)) ∧
    -- clause 2
    ((((wTwo.arrive wNow).takeMeans wLoad64).aloneOver = false)) := by
  and_intros <;> decide +kernel
theorem witness_CounterCommands :
    -- clause 0
    (((unit 1000).viaHeard (Via.host h0a) = true)) ∧
    -- clause 0
    (((unit 1000).viaHeard (Via.host h1a) = true)) ∧
    -- clause 1
    (((unit 1000).cntMay (Via.host h0a) = true)) ∧
    -- clause 4
    (((wFreeze.cntCore CoreId.a).freezeUt ≠ 0) ∧
     (BitVec.toNat (wFreeze.cntCore CoreId.a).freezeUt ≤ (wFreeze.arrive 2000).ut CoreId.a)) ∧
    -- clause 5
    (((wBw.cntCore CoreId.a).bwOn = true) ∧
     (wBw.counting CoreId.a = true) ∧
     ((wBw.cntCore CoreId.a).freezeUt = 0) ∧
     ((wBw.arrive 1000000).bwActive CoreId.a = true) ∧
     ((wBw.arrive 1000000).ut CoreId.a % (wBw.cntCore CoreId.a).window = 0) ∧
     ((wBw.arrive 1000000).ut CoreId.a / (wBw.cntCore CoreId.a).window = (wBw.cntCore CoreId.a).bwStart / (wBw.cntCore CoreId.a).window + 1)) ∧
    -- clause 5
    (((wBw10.cntCore CoreId.a).bwOn = true) ∧
     (wBw10.counting CoreId.a = true) ∧
     ((wBw10.cntCore CoreId.a).freezeUt = 0) ∧
     ((wBw10.arrive 10000000).bwActive CoreId.a = true) ∧
     ((wBw10.arrive 10000000).ut CoreId.a % (wBw10.cntCore CoreId.a).window = 0) ∧
     ((wBw10.arrive 10000000).ut CoreId.a / (wBw10.cntCore CoreId.a).window = (wBw10.cntCore CoreId.a).bwStart / (wBw10.cntCore CoreId.a).window + 1)) := by
  and_intros <;> decide +kernel
end G11

namespace G12
def wNow : Nat := 100000000000
def wOne (x : SupplySt) : State := (unit wNow).setPow { (unit wNow).pow with sb := x }
def wWith1 := { SupplySt.init with dcOk := false }
def wDark : State := { wOne { SupplySt.init with acOk := false, dcOk := false } with mode := { (unit wNow).mode with mode := .unpowered } }
def wWith2 := { SupplySt.init with acOk := false, dcOk := false }
def wWith3 := { SupplySt.init with present := false, acOk := false, dcOk := false }
def wReq (second raise : Bool) : State :=
  (unit wNow).setPowCore .a { PowCore.init with vte := some { raise := raise, second := second, sentUt := 1000, waiters := [2] } }
def wNoLanes : State := (unit wNow).setFlt { (unit wNow).flt with lanes := 0 }
def wHot : State := (unit wNow).setMode { (unit wNow).mode with reasons := 0x20, causes := 0x20 }
def wGoing (g : DomState) (l : Bool) : State := (unit wNow).setDomain .a 2 { DomSt.init with target := g, going := some (g, wNow), wakeLatched := l }
def wOff : State := (unit wNow).setDomain .a 2 { DomSt.init with target := .off, st := .off }
def wOnLow : State := (unit wNow).setDomain .a 2 { DomSt.init with target := .off }
def wHold : State := (unit wNow).setDomain .a 10 { DomSt.init with target := .off, holdUntil := some wNow }
def wWith4 := { (wHold.arrive wNow).domain .a 10 with holdUntil := none }
def wWith5 := { DomSt.init with oscSince := some 1000 }
def wOsc : State := (unit wNow).setDomain .a 2 { DomSt.init with oscSince := some 1000 }
def wFenced : State := (unit wNow).setCore .a { CoreSt.init with fenced := true, fenceAsked := some 1000 }
def wAdopt : State :=
  let s := ((unit wNow).setIslet 1 { isl .active with prot := true }).setIslet 2 { isl .active with seats := 4 }
  let s := s.setCore .b { CoreSt.init with fenced := true }
  s.setFlt { s.flt with token := .a, adopt := some .b, moved := 3, seats := (List.range 32).map fun k => (k + 32, .a) }
def wLinkUp : SeatLink :=
  { SeatLink.init with st := .up, pcsUp := true, rate := 4, epoch := 3, svcEpoch := 3, lastRx := wNow, lastTx := wNow }
def wFirst : State := ((unit wNow).setLink_ 40 wLinkUp).setFlt { (unit wNow).flt with buildFrom := [(40, 800000)] }
theorem witness_SupplyCommands :
    -- clause 0.0
    (((((unit wNow).arrive wNow).supply SupplyId.sa).acOk = true)) ∧
    -- clause 0.0
    (((((wOne wWith1).arrive wNow).supply SupplyId.sa).acOk = true)) ∧
    -- clause 0.1
    (((((wOne wWith2).arrive wNow).supply SupplyId.sb).present = true) ∧
     ((((wOne wWith2).arrive wNow).supply SupplyId.sb).acOk = false)) ∧
    -- clause 0.1
    ((((wDark.arrive wNow).supply SupplyId.sb).present = true) ∧
     (((wDark.arrive wNow).supply SupplyId.sb).acOk = false)) ∧
    -- clause 0.2
    (((((wOne wWith3).arrive wNow).supply SupplyId.sb).present = false)) ∧
    -- clause 0.3
    (((((unit wNow).arrive wNow).supply SupplyId.sb).present = true)) ∧
    -- clause 0.4
    (((((unit wNow).arrive wNow).supply SupplyId.sb).dcOk = true)) ∧
    -- clause 1
    ((((unit wNow).supply SupplyId.sa).acOk = true ∨ ((unit wNow).supply SupplyId.sb).acOk = true)) ∧
    -- clause 2
    ((((unit wNow).arrive wNow).mode.mode ≠ Mode.unpowered) ∧
     (((unit wNow).arrive wNow).mode.mode ≠ Mode.unsupervised)) := by
  and_intros <;> decide +kernel
theorem witness_PlantCommands :
    -- clause 0.0
    (((((wReq false true).arrive wNow).powCore CoreId.a).req false = some { raise := true, second := false, sentUt := (1000 : ℕ), waiters := [(2 : ℕ)] : RailReq }) ∧
     ({ raise := true, second := false, sentUt := (1000 : ℕ), waiters := [(2 : ℕ)] : RailReq }.sentUt + (200000 : ℕ) ≤ ((wReq false true).arrive wNow).ut CoreId.a) ∧
     ({ raise := true, second := false, sentUt := (1000 : ℕ), waiters := [(2 : ℕ)] : RailReq }.second = false)) ∧
    -- clause 0.1
    (((((wReq true false).arrive wNow).powCore CoreId.a).req false = some { raise := false, second := true, sentUt := (1000 : ℕ), waiters := [(2 : ℕ)] : RailReq }) ∧
     ({ raise := false, second := true, sentUt := (1000 : ℕ), waiters := [(2 : ℕ)] : RailReq }.sentUt + (200000 : ℕ) ≤ ((wReq true false).arrive wNow).ut CoreId.a) ∧
     ({ raise := false, second := true, sentUt := (1000 : ℕ), waiters := [(2 : ℕ)] : RailReq }.second = true) ∧
     ({ raise := false, second := true, sentUt := (1000 : ℕ), waiters := [(2 : ℕ)] : RailReq }.raise = false)) ∧
    -- clause 0.2
    (((((wReq true true).arrive wNow).powCore CoreId.a).req false = some { raise := true, second := true, sentUt := (1000 : ℕ), waiters := [(2 : ℕ)] : RailReq }) ∧
     ({ raise := true, second := true, sentUt := (1000 : ℕ), waiters := [(2 : ℕ)] : RailReq }.sentUt + (200000 : ℕ) ≤ ((wReq true true).arrive wNow).ut CoreId.a) ∧
     ({ raise := true, second := true, sentUt := (1000 : ℕ), waiters := [(2 : ℕ)] : RailReq }.second = true) ∧
     ({ raise := true, second := true, sentUt := (1000 : ℕ), waiters := [(2 : ℕ)] : RailReq }.raise = true) ∧
     ((((wReq true true).arrive wNow).coreSt CoreId.a).fenced = false)) ∧
    -- clause 1.0
    ((((unit wNow).powCore CoreId.a).onCausewayRef = false) ∧
     ((unit wNow).flt.lanes ≠ 0)) ∧
    -- clause 1.1
    (((wNoLanes.powCore CoreId.a).onCausewayRef = false) ∧
     (wNoLanes.flt.lanes = 0) ∧
     ((wNoLanes.coreSt CoreId.a).fenced = false)) := by
  and_intros <;> decide +kernel
theorem witness_DomainCommands :
    -- clause 0
    (((((wGoing DomState.retention false).arrive wNow).domain CoreId.a ↑(2 : DomainNo)).going = some (DomState.retention, wNow)) ∧
     (wNow ≤ ((wGoing DomState.retention false).arrive wNow).ut CoreId.a)) ∧
    -- clause 1.0
    ((↑(2 : DomainNo) ≠ (0 : ℕ)) ∧
     (((wOff.arrive wNow).domain CoreId.a ↑(2 : DomainNo)).going = none) ∧
     (((wOff.arrive wNow).domain CoreId.a ↑(2 : DomainNo)).st ≠ DomState.on) ∧
     ((wOff.arrive wNow).railLow CoreId.a ↑(2 : DomainNo) = false)) ∧
    -- clause 1.1
    ((↑(2 : DomainNo) ≠ (0 : ℕ)) ∧
     (((wOnLow.arrive wNow).domain CoreId.a ↑(2 : DomainNo)).going = none) ∧
     (((wOnLow.arrive wNow).domain CoreId.a ↑(2 : DomainNo)).st = DomState.on) ∧
     (((wOnLow.arrive wNow).domain CoreId.a ↑(2 : DomainNo)).target ≠ DomState.on)) ∧
    -- clause 1.2
    ((↑(2 : DomainNo) ≠ (0 : ℕ)) ∧
     ((((wGoing DomState.retention false).arrive wNow).domain CoreId.a ↑(2 : DomainNo)).going = some (DomState.retention, wNow)) ∧
     (DomState.retention ≠ DomState.on) ∧
     ((((wGoing DomState.retention false).arrive wNow).domain CoreId.a ↑(2 : DomainNo)).wakeLatched = false)) ∧
    -- clause 2
    (((wHold.arrive wNow).votesHeld = true) ∧
     ((wHold.arrive wNow).heldHot CoreId.a ↑(10 : DomainNo) = false) ∧
     (((wHold.arrive wNow).domain CoreId.a ↑(10 : DomainNo)).holdUntil = some wNow) ∧
     (wNow ≤ (wHold.arrive wNow).ut CoreId.a) ∧
     (¬((2 : ℕ) ≤ ↑(10 : DomainNo) ∧ ↑(10 : DomainNo) ≤ (5 : ℕ) ∧ (wHold.arrive wNow).clusterWork CoreId.a (↑(10 : DomainNo) - (2 : ℕ)) = true ∨ (6 : ℕ) ≤ ↑(10 : DomainNo) ∧ ↑(10 : DomainNo) ≤ (9 : ℕ) ∧ (wHold.arrive wNow).groupWork CoreId.a (↑(10 : DomainNo) - (6 : ℕ)) = true)) ∧
     (((wHold.arrive wNow).setDomain CoreId.a (10 : ℕ) wWith4).domTarget CoreId.a ↑(10 : DomainNo) = ((wHold.arrive wNow).domain CoreId.a ↑(10 : DomainNo)).target) ∧
     (((wHold.arrive wNow).domain CoreId.a ↑(10 : DomainNo)).going = none) ∧
     (((wHold.arrive wNow).setDomain CoreId.a (10 : ℕ) wWith4).domGoal CoreId.a (↑(10 : DomainNo)) ((wHold.arrive wNow).domain CoreId.a ↑(10 : DomainNo)).target = (DomState.off, (0 : ℕ))) ∧
     (DomState.off.rank < ((wHold.arrive wNow).domain CoreId.a ↑(10 : DomainNo)).st.rank)) ∧
    -- clause 4
    ((((wOsc.arrive wNow).domain CoreId.a ↑(2 : DomainNo)).oscSince = some (1000 : ℕ)) ∧
     (1000 + ms ≤ (wOsc.arrive wNow).ut CoreId.a)) ∧
    -- clause 5
    ((((wReq false true).powCore CoreId.a).req false = some { raise := true, second := false, sentUt := (1000 : ℕ), waiters := [(2 : ℕ)] : RailReq })) ∧
    -- clause 6
    (((unit wNow).viaHeard (Via.prog CoreId.a) = true)) ∧
    -- clause 6
    (((unit wNow).viaHeard (Via.host h0a) = true)) := by
  and_intros <;> decide +kernel
theorem witness_CoreFaults :
    -- clause 0
    (((((unit wNow).arrive wNow).coreSt CoreId.a).fenced = false) ∧
     ((((unit wNow).arrive wNow).coreSt CoreId.a).heldReset = false)) ∧
    -- clause 1
    (((((unit wNow).arrive wNow).coreSt CoreId.a).fenced = false) ∧
     ((((unit wNow).arrive wNow).coreSt CoreId.a).lastBeat + 200000 ≤ wNow)) ∧
    -- clause 2
    ((((unit wNow).coreSt CoreId.a).fenced = false) ∧
     (BitVec.toNat (7 : Byte) ≤ (7 : ℕ))) ∧
    -- clause 3
    ((((wFenced.arrive wNow).coreSt CoreId.a).fenceAsked = some 1000) ∧
     (1000 + 100000 ≤ (wFenced.arrive wNow).ut CoreId.a.twin)) := by
  and_intros <;> decide +kernel
theorem witness_Adoption :
    -- clause 0
    ((wAdopt.flt.adopt = some CoreId.a.twin) ∧
     (wAdopt.serves CoreId.a = true) ∧
     (wAdopt.mode.roll = none)) ∧
    -- clause 1
    ((tget (wFirst.arrive wNow).flt.buildFrom ↑(40 : Seat) (0 : ℕ) ≠ (0 : ℕ)) ∧
     (tget (wFirst.arrive wNow).flt.buildFrom ↑(40 : Seat) (0 : ℕ) ≤ wNow / microFrame) ∧
     (wNow % microFrame = 0) ∧
     ((wFirst.arrive wNow).flt.adopt = none) ∧
     (((wFirst.arrive wNow).link_ 40).st = LinkState.up) ∧
     (((wFirst.arrive wNow).link_ 40).live = false) ∧
     (((wFirst.arrive wNow).tun 40 Tunnel.usb).acting = []) ∧
     (∀ r ∈ (wFirst.arrive wNow).heldRuns ((wFirst.arrive wNow).servingCore 40), ¬(r.item.kind = 1 ∧ r.item.seat = some 40))) := by
  and_intros <;> decide +kernel
end G12

namespace G13
def wNow : Nat := 100000000000
def wUns : State := (unit wNow).setMode { (unit wNow).mode with mode := .unsupervised }
def wRestarting : State := (wUns.setCore .a { CoreSt.init with sup := .restarting }).setCore .b { CoreSt.init with sup := .restarting }
def wWith1 := { CoreSt.init with sup := .restarting }
def wNoReferee : State := (unit wNow).setFlt { (unit wNow).flt with refereeLost := true }
def wLane (l : BitVec 16) : State := (unit wNow).setFlt { (unit wNow).flt with lanes := l }
def wApart (p : Int) (b : Nat) : State :=
  { (unit wNow) with time := { utA := wNow, utB := b, rem := 7 }, flt := { (unit wNow).flt with steerPpm := p } }
def wHead : HeadSt := { HeadSt.init with st := .attached, timing := { Timing.init with h := 64, v := 8 }, bpp := 8, islet := 1, mirrored := true }
def wHeads : State := ((unit wNow).setHead 0 wHead).setIslet 1 { isl .active with prot := true }
def wRoll (n : Nat) : RollSt := { slot := 1, force := true, phase := n, port := .h0, x := .b, failed := false }
def wRolling (n : Nat) : State := (unit wNow).setMode { (unit wNow).mode with mode := .rolling, roll := some (wRoll n), slot1 := SlotSt.init true }
def wWith2 := { CoreSt.init with failed := true }
def wResult : StepResult := { ok := true, fenceA := false, fenceB := false, lanes := 0xFFFF, phyFail := 0 }
def wStart (x : StartSt) (fails : Nat) : State :=
  (unit wNow).setMode { ModeSt.init with mode := if x.cold then .coldStart else .warmStart, start := some x, failCount := fails }
def wSt (cold : Bool) (step : Nat) (image : Fin 3) : StartSt := { cold := cold, step := step, t0 := 1000, image := image, recordService := false }
def wWith3 := { wResult with ok := false }
def wWith4 := { wResult with fenceA := true }
def wWith5 := { wResult with lanes := 0 }
def wWith6 := { wResult with phyFail := 3 }
def wWith7 := { wSt true 9 0 with recordService := true }
def wStopped (k : BitVec 4) : State := (unit wNow).setMode { (unit wNow).mode with mode := .safeStop, stopCause := k, stopUt := 1000 }
def wTimers : State := (unit wNow).setMode { (unit wNow).mode with timers := [(0, some wNow), (2, some wNow), (3, some wNow)] }
def wClear : State := (unit wNow).setMode { (unit wNow).mode with reasons := 0x22, clearing := [(5, some wNow)] }
def wService : State := (unit 2000000000000).setMode { (unit wNow).mode with mode := .service, lastInput := 100000000000 }
def wWith8 := { CoreSt.init with fenced := true }
theorem witness_RecoveryCommands :
    -- clause 0.0
    (((wRestarting.coreSt CoreId.a).sup = SupState.restarting) ∧
     ((wRestarting.coreSt CoreId.a).fenced = false)) ∧
    -- clause 0.0
    (((((unit wNow).setCore CoreId.a wWith1).coreSt CoreId.a).sup = SupState.restarting) ∧
     ((((unit wNow).setCore CoreId.a wWith1).coreSt CoreId.a).fenced = false)) ∧
    -- clause 1
    ((((unit wNow).arrive wNow).flt.refereeLost = false)) ∧
    -- clause 2
    (((wNoReferee.arrive wNow).flt.refereeLost = true)) ∧
    -- clause 3
    (((unit wNow).flt.lanes.getLsbD ↑(15 : Fin (16 : ℕ)) = true)) ∧
    -- clause 3
    (((wLane (32768 : BitVec (16 : ℕ))).flt.lanes.getLsbD ↑(15 : Fin (16 : ℕ)) = true)) ∧
    -- clause 4
    (((wLane (32767 : BitVec (16 : ℕ))).flt.lanes.getLsbD ↑(15 : Fin (16 : ℕ)) = false)) ∧
    -- clause 4
    (((wLane (0 : BitVec (16 : ℕ))).flt.lanes.getLsbD ↑(15 : Fin (16 : ℕ)) = false)) ∧
    -- clause 5
    ((((wApart 0 (wNow - 30)).arrive wNow).causewayUp = true)) ∧
    -- clause 5
    ((((wApart 0 (wNow + 30)).arrive wNow).causewayUp = true)) ∧
    -- clause 6
    (((wApart 100 (wNow - 30)).flt.steerPpm.natAbs ≤ 100) ∧
     ((wApart 100 (wNow - 30)).time.rem < 1000000) ∧
     ((wApart 100 (wNow - 30)).now ≤ wNow + 1000000)) ∧
    -- clause 6
    (((wApart (-100) (wNow + 3000)).flt.steerPpm.natAbs ≤ 100) ∧
     ((wApart (-100) (wNow + 3000)).time.rem < 1000000) ∧
     ((wApart (-100) (wNow + 3000)).now ≤ wNow + 1000000)) ∧
    -- clause 8.0
    (((wHeads.head 0).st = HeadState.attached)) ∧
    -- clause 8.4
    (((wHeads.coreSt CoreId.a).fenced = false) ∧
     ((wHeads.coreSt CoreId.a).sup = SupState.running)) ∧
    -- clause 8.5
    (((wHeads.coreSt CoreId.a).fenced = false)) ∧
    -- clause 9.0
    (((wRolling 1).mode.roll = some (wRoll 1)) ∧
     ((wRoll 1).phase = 1)) ∧
    -- clause 9.1
    (((wRolling 2).mode.roll = some (wRoll 2)) ∧
     ((wRoll 2).phase = 2) ∧
     ((wRolling 2).flt.refereeLost = false)) ∧
    -- clause 9.2
    (((wRolling 3).mode.roll = some (wRoll 3)) ∧
     ((wRoll 3).phase = 3)) ∧
    -- clause 9.3
    (((wRolling 6).mode.roll = some (wRoll 6)) ∧
     ((wRoll 6).phase = 6) ∧
     ((wRolling 6).flt.refereeLost = false)) ∧
    -- clause 9.4
    ((((wRolling 3).setCore CoreId.b wWith2).mode.roll = some (wRoll 3)) ∧
     ((wRoll 3).phase = 3 ∨ (wRoll 3).phase = 8)) ∧
    -- clause 9.4
    ((((wRolling 8).setCore CoreId.a wWith2).mode.roll = some (wRoll 8)) ∧
     ((wRoll 8).phase = 3 ∨ (wRoll 8).phase = 8)) ∧
    -- clause 9.5
    (((wRolling 11).mode.roll = some (wRoll 11)) ∧
     ((wRoll 11).phase = 11)) := by
  and_intros <;> decide +kernel
theorem witness_Starts :
    -- clause 0.0
    ((((wStart (wSt true 0 0) 0).arrive wNow).theStart = some (wSt true 0 0)) ∧
     ((wSt true 0 0).step = 0) ∧
     (wResult.ok = true)) ∧
    -- clause 0.0
    ((((wStart (wSt false 0 0) 0).arrive wNow).theStart = some (wSt false 0 0)) ∧
     ((wSt false 0 0).step = 0) ∧
     (wResult.ok = true)) ∧
    -- clause 0.1
    ((((wStart (wSt true 1 0) 0).arrive wNow).theStart = some (wSt true 1 0)) ∧
     ((wSt true 1 0).step = 1) ∧
     (wResult.ok = true)) ∧
    -- clause 0.1
    ((((wStart (wSt false 1 1) 0).arrive wNow).theStart = some (wSt false 1 1)) ∧
     ((wSt false 1 1).step = 1) ∧
     (wResult.ok = true)) ∧
    -- clause 0.2
    ((((wStart (wSt true 1 2) 0).arrive wNow).theStart = some (wSt true 1 2)) ∧
     ((wSt true 1 2).step = 1) ∧
     (wWith3.ok = false) ∧
     ((wSt true 1 2).image = 2)) ∧
    -- clause 0.3
    ((((wStart (wSt true 1 1) 1).arrive wNow).theStart = some (wSt true 1 1)) ∧
     ((wSt true 1 1).step = 1) ∧
     (wWith3.ok = false) ∧
     ((wSt true 1 1).image ≠ 2) ∧
     (((wStart (wSt true 1 1) 1).arrive wNow).mode.failCount < 2)) ∧
    -- clause 0.3
    ((((wStart (wSt false 1 1) 1).arrive wNow).theStart = some (wSt false 1 1)) ∧
     ((wSt false 1 1).step = 1) ∧
     (wWith3.ok = false) ∧
     ((wSt false 1 1).image ≠ 2) ∧
     (((wStart (wSt false 1 1) 1).arrive wNow).mode.failCount < 2)) ∧
    -- clause 0.4
    ((((wStart (wSt true 1 1) 2).arrive wNow).theStart = some (wSt true 1 1)) ∧
     ((wSt true 1 1).step = 1) ∧
     (wWith3.ok = false) ∧
     ((wSt true 1 1).image ≠ 2) ∧
     (2 ≤ ((wStart (wSt true 1 1) 2).arrive wNow).mode.failCount)) ∧
    -- clause 0.5
    ((((wStart (wSt true 2 0) 0).arrive wNow).theStart = some (wSt true 2 0)) ∧
     ((wSt true 2 0).step = 2 ∨ (wSt true 2 0).step = 3) ∧
     (((wStart (wSt true 2 0) 0).arrive wNow).serves CoreId.a = true) ∧
     (((wStart (wSt true 2 0) 0).arrive wNow).serves CoreId.b = true) ∧
     (wWith4.fenceB = false)) ∧
    -- clause 0.5
    ((((wStart (wSt true 3 0) 0).arrive wNow).theStart = some (wSt true 3 0)) ∧
     ((wSt true 3 0).step = 2 ∨ (wSt true 3 0).step = 3) ∧
     (((wStart (wSt true 3 0) 0).arrive wNow).serves CoreId.a = true) ∧
     (((wStart (wSt true 3 0) 0).arrive wNow).serves CoreId.b = true) ∧
     (wResult.fenceB = false)) ∧
    -- clause 0.6
    ((((wStart (wSt true 4 0) 0).arrive wNow).theStart = some (wSt true 4 0)) ∧
     ((wSt true 4 0).step = 4)) ∧
    -- clause 0.6
    ((((wStart (wSt false 4 0) 0).arrive wNow).theStart = some (wSt false 4 0)) ∧
     ((wSt false 4 0).step = 4)) ∧
    -- clause 0.7
    ((((wStart (wSt true 5 0) 0).arrive wNow).theStart = some (wSt true 5 0)) ∧
     ((wSt true 5 0).step = 5)) ∧
    -- clause 0.7
    ((((wStart (wSt false 5 0) 0).arrive wNow).theStart = some (wSt false 5 0)) ∧
     ((wSt false 5 0).step = 5)) ∧
    -- clause 0.8
    ((((wStart (wSt true 6 0) 0).arrive wNow).theStart = some (wSt true 6 0)) ∧
     ((wSt true 6 0).step = 6)) ∧
    -- clause 0.9
    ((((wStart (wSt true 7 0) 0).arrive wNow).theStart = some (wSt true 7 0)) ∧
     ((wSt true 7 0).step = 7)) ∧
    -- clause 0.10
    ((((wStart (wSt true 8 0) 0).arrive wNow).theStart = some (wSt true 8 0)) ∧
     ((wSt true 8 0).step = 8)) ∧
    -- clause 0.10
    ((((wStart (wSt false 8 0) 0).arrive wNow).theStart = some (wSt false 8 0)) ∧
     ((wSt false 8 0).step = 8)) ∧
    -- clause 0.11
    ((((wStart (wSt true 9 0) 1).arrive wNow).theStart = some (wSt true 9 0)) ∧
     ((wSt true 9 0).step = 9)) ∧
    -- clause 0.11
    ((((wStart wWith7 1).arrive wNow).theStart = some wWith7) ∧
     (wWith7.step = 9)) ∧
    -- clause 1
    ((((wStart (wSt true 5 0) 0).arrive wNow).theStart = some (wSt true 5 0)) ∧
     ((wSt true 5 0).t0 + 30000 * ms ≤ ((wStart (wSt true 5 0) 0).arrive wNow).now)) ∧
    -- clause 1
    ((((wStart (wSt true 5 2) 0).arrive wNow).theStart = some (wSt true 5 2)) ∧
     ((wSt true 5 2).t0 + 30000 * ms ≤ ((wStart (wSt true 5 2) 0).arrive wNow).now)) := by
  and_intros <;> decide +kernel
theorem witness_ModeCommands :
    -- clause 0
    (((unit wNow).mode.mode ≠ Mode.safeStop) ∧
     ((unit wNow).mode.mode ≠ Mode.unpowered)) ∧
    -- clause 1
    ((((wStopped 3).arrive wNow).mode.mode = Mode.safeStop) ∧
     (((wStopped 3).arrive wNow).mode.stopOff = false) ∧
     (((wStopped 3).arrive wNow).mode.stopUt + 10000 * ms ≤ ((wStopped 3).arrive wNow).now)) ∧
    -- clause 2
    ((tget (wTimers.arrive wNow).mode.timers (CondTimer.key (CondTimer.supply SupplyId.sa)) none = some wNow) ∧
     (wNow ≤ (wTimers.arrive wNow).now)) ∧
    -- clause 2
    ((tget (wTimers.arrive wNow).mode.timers (CondTimer.key (CondTimer.fan 0)) none = some wNow) ∧
     (wNow ≤ (wTimers.arrive wNow).now)) ∧
    -- clause 3
    ((tget (wClear.arrive wNow).mode.clearing (↑(5 : Fin (16 : ℕ))) none = some wNow) ∧
     (wNow ≤ (wClear.arrive wNow).now)) ∧
    -- clause 4
    (((wService.arrive 2000000000000).mode.mode = Mode.service) ∧
     ((wService.arrive 2000000000000).mode.lastInput + 1800000 * ms ≤ (wService.arrive 2000000000000).now)) := by
  and_intros <;> decide +kernel
theorem witness_RegisterAccess :
    -- clause 0
    (((unit 1000).fnUp h0a = true) ∧
     (3 % 8 ≠ 0 ∨ [1, 2, 3, 4].length ≠ 4 ∧ [1, 2, 3, 4].length ≠ 8)) ∧
    -- clause 0
    (((unit 1000).fnUp h0a = true) ∧
     (8 % 8 ≠ 0 ∨ [1, 2, 3].length ≠ 4 ∧ [1, 2, 3].length ≠ 8)) ∧
    -- clause 1.0
    (((unit 1000).fnUp h0a = true) ∧
     ((unit 1000).mayUnitWide h0a.port = true) ∧
     ([1, 2, 3, 4].length = 4 ∨ [1, 2, 3, 4].length = 8)) ∧
    -- clause 1.0
    (((unit 1000).fnUp h0b = true) ∧
     ((unit 1000).mayUnitWide h0b.port = true) ∧
     ([1, 2, 3, 4, 5, 6, 7, 8].length = 4 ∨ [1, 2, 3, 4, 5, 6, 7, 8].length = 8)) ∧
    -- clause 2
    (((unit 1000).fnUp h0a = true) ∧
     ([127, 2, 3, 4, 5, 6, 7, 8].length = 8)) ∧
    -- clause 3
    (((unit 1000).fnUp h1a = true) ∧
     ((unit 1000).mayUnitWide h1a.port = false)) ∧
    -- clause 4.0
    (((unit 1000).fnUp h0a = true) ∧
     (64 < 60 % 64 + 8)) ∧
    -- clause 4.1
    ((((unit 1000).setCore CoreId.a wWith8).fencedReads h0a = true)) := by
  and_intros <;> decide +kernel
end G13

namespace G14
def wNow : Nat := 100000000000
def wConsole : State := (unit wNow).setSvc { SvcSt.init with log := [ascii "one", ascii "two"], saved := [ascii "old"] }
def wCont : ContTest := { seat := 0, pair := 1, blink := false, started := 99000000000, reading := .none }
def wService : State :=
  ((unit wNow).setMode { (unit wNow).mode with mode := .service, lastInput := 99000000000 }).setSvc { SvcSt.init with cont := some wCont }
def wPowered : SeatPower := { SeatPower.init with st := .powered, assigned := 6, requested := 6, pairsets := 3, sigPairs := 3, poweredUt := 1000, mean1s := 400 }
def wStarting : State := (unit wNow).setMode { (unit wNow).mode with mode := .coldStart, start := some { cold := true, step := 5, t0 := 1000, image := 0, recordService := false } }
def wUns : State := (unit wNow).setMode { (unit wNow).mode with mode := .unsupervised }
def wServ : State := (unit wNow).setMode { (unit wNow).mode with mode := .service, lastInput := 99000000000 }
def wAsked (c : ConsCmd) : State := ((unit wNow).setSvc { SvcSt.init with confirm := some (.rj45, c, 99000000000) }).setSeatPower 3 wPowered
def wWith1 := { wConsole.svc with lineRj := [0x61] }
def wWith2 := { wConsole.svc with lineRj := ascii "frob" }
def wTyped (l : String) : State := wConsole.setSvc { wConsole.svc with lineRj := ascii l }
def wBare : State := wConsole.setSvc (wConsole.svc.setLine .rj45 [])
def wAskedBare : State := (wAsked .stop).setSvc ((wAsked .stop).svc.setLine .rj45 [])
def wWith3 := { (wAsked .stop).svc with lineRj := ascii "yes" }

def wWith4 := { SvcSt.init with tdr := some (0, none) }
def wWith5 := { SvcSt.init with tdr := some (0, some .rj45) }
def wTesting : State := wServ.setSvc { SvcSt.init with running := some (2, some .rj45) }
def wPanel (p : Panel) : State := (unit wNow).setSvc { SvcSt.init with panel := p }
def wPan : Panel := { item := 6, sub := 0, value := 3, lastPress := 1000, sureUt := none, noUt := none }
def wWith6 := { wPan with item := 9 }
def wWith7 := { wPan with item := 9, sureUt := some 100000000001 }
def wUsb (v : SvcUsb) : State := (unit wNow).setSvc { SvcSt.init with usb := v }
def wAttached : SvcUsb := { SvcUsb.init with vbus := true, pullup := true, configured := true, dtr := true, inBuf := [0x61], outBuf := [1] }
def wWith8 := { wAttached with suspended := true }
def wWith9 := { wAttached with dtr := false }
theorem witness_ConsoleShows :
    -- clause 0
    ((TakesLine wConsole ConsCmd.help)) ∧
    -- clause 1
    ((TakesLine wConsole ConsCmd.status)) ∧
    -- clause 2
    ((TakesLine wConsole (ConsCmd.seatShow 9))) ∧
    -- clause 3
    ((TakesLine wConsole ConsCmd.seatList)) ∧
    -- clause 4
    ((TakesLine wConsole ConsCmd.supply)) ∧
    -- clause 5
    ((TakesLine wConsole ConsCmd.fans)) ∧
    -- clause 6
    ((TakesLine wConsole (ConsCmd.log (some 1)))) ∧
    -- clause 7
    ((TakesLine wConsole ConsCmd.logPrev)) ∧
    -- clause 8
    ((TakesLine wConsole (ConsCmd.errors none))) ∧
    -- clause 9
    ((TakesLine wConsole ConsCmd.tp)) ∧
    -- clause 10
    ((TakesLine wConsole ConsCmd.testList)) ∧
    -- clause 11
    ((TakesLine wConsole (ConsCmd.meas 0))) ∧
    -- clause 12
    ((TakesLine wService ConsCmd.seatContRead)) ∧
    -- clause 13
    ((wConsole.consoleLive = true) ∧
     (wConsole.svc.confirm = none) ∧
     (wConsole.mode.mode ≠ Mode.unsupervised) ∧
     (wConsole.consoleRefusal ConsCmd.serviceEnd = some (ascii "! not in DUAL"))) := by
  unfold TakesLine
  and_intros <;> decide +kernel
theorem witness_ConsoleActs :
    -- clause 0.0
    ((TakesLine wConsole ConsCmd.warm)) ∧
    -- clause 0.0
    ((TakesLine wConsole ConsCmd.stop)) ∧
    -- clause 0.1
    ((TakesLine wConsole (ConsCmd.seatCycle 3))) ∧
    -- clause 0.2
    ((wConsole.startStep = none) ∧
     (TakesLine wConsole ConsCmd.service)) ∧
    -- clause 0.3
    ((wStarting.theStart = some { cold := true, step := (5 : ℕ), t0 := (1000 : ℕ), image := (0 : Fin (3 : ℕ)), recordService := false : StartSt }) ∧
     (TakesLine wStarting ConsCmd.service)) ∧
    -- clause 0.4
    ((TakesLine wService ConsCmd.serviceEnd) ∧
     (wService.startStep = none)) ∧
    -- clause 0.5
    ((wUns.mode.mode = Mode.unsupervised) ∧
     (wUns.svc.confirm = none)) ∧
    -- clause 0.6
    ((TakesLine wServ (ConsCmd.seatCont 0 3 true)) ∧
     (wServ.startStep = none)) ∧
    -- clause 0.7
    ((TakesLine wService ConsCmd.seatContOff) ∧
     (wService.svc.cont = some wCont)) ∧
    -- clause 0.8
    ((TakesLine wServ (ConsCmd.seatTdr 0))) ∧
    -- clause 0.9
    ((TakesLine wServ (ConsCmd.testRun 7))) ∧
    -- clause 0.9
    ((TakesLine wServ (ConsCmd.testRun 2))) ∧
    -- clause 1.0
    (((wAsked ConsCmd.stop).consoleLive = true) ∧
     ((wAsked ConsCmd.stop).mode.mode ≠ Mode.unsupervised) ∧
     ((wAsked ConsCmd.stop).svc.confirm = some (ConsPort.rj45, ConsCmd.stop, 99000000000)) ∧
     ((wAsked ConsCmd.stop).now < 99000000000 + 30000 * ms) ∧
     (lineWords (ascii "no") ≠ [ascii "yes"])) ∧
    -- clause 1.1.0
    (((wAsked ConsCmd.stop).consoleLive = true) ∧
     ((wAsked ConsCmd.stop).mode.mode ≠ Mode.unsupervised) ∧
     ((wAsked ConsCmd.stop).svc.confirm = some (ConsPort.rj45, ConsCmd.stop, 99000000000)) ∧
     ((wAsked ConsCmd.stop).now < 99000000000 + 30000 * ms) ∧
     (lineWords (ascii "yes") = [ascii "yes"]) ∧
     ((wAsked ConsCmd.stop).consoleRefusal ConsCmd.stop = none) ∧
     ((wAsked ConsCmd.stop).mode.mode ≠ Mode.safeStop)) ∧
    -- clause 1.1.1
    (((wAsked ConsCmd.warm).consoleLive = true) ∧
     ((wAsked ConsCmd.warm).mode.mode ≠ Mode.unsupervised) ∧
     ((wAsked ConsCmd.warm).svc.confirm = some (ConsPort.rj45, ConsCmd.warm, 99000000000)) ∧
     ((wAsked ConsCmd.warm).now < 99000000000 + 30000 * ms) ∧
     (lineWords (ascii "yes") = [ascii "yes"]) ∧
     ((wAsked ConsCmd.warm).consoleRefusal ConsCmd.warm = none)) ∧
    -- clause 1.1.2
    (((wAsked (ConsCmd.cold (some 1))).consoleLive = true) ∧
     ((wAsked (ConsCmd.cold (some 1))).mode.mode ≠ Mode.unsupervised) ∧
     ((wAsked (ConsCmd.cold (some 1))).svc.confirm = some (ConsPort.rj45, ConsCmd.cold (some 1), 99000000000)) ∧
     ((wAsked (ConsCmd.cold (some 1))).now < 99000000000 + 30000 * ms) ∧
     (lineWords (ascii "yes") = [ascii "yes"]) ∧
     ((wAsked (ConsCmd.cold (some 1))).consoleRefusal (ConsCmd.cold (some 1)) = none)) ∧
    -- clause 1.1.2
    (((wAsked (ConsCmd.cold none)).consoleLive = true) ∧
     ((wAsked (ConsCmd.cold none)).mode.mode ≠ Mode.unsupervised) ∧
     ((wAsked (ConsCmd.cold none)).svc.confirm = some (ConsPort.rj45, ConsCmd.cold none, 99000000000)) ∧
     ((wAsked (ConsCmd.cold none)).now < 99000000000 + 30000 * ms) ∧
     (lineWords (ascii "yes") = [ascii "yes"]) ∧
     ((wAsked (ConsCmd.cold none)).consoleRefusal (ConsCmd.cold none) = none)) ∧
    -- clause 1.1.3
    (((wAsked (ConsCmd.seatCycle 3)).consoleLive = true) ∧
     ((wAsked (ConsCmd.seatCycle 3)).mode.mode ≠ Mode.unsupervised) ∧
     ((wAsked (ConsCmd.seatCycle 3)).svc.confirm = some (ConsPort.rj45, ConsCmd.seatCycle 3, 99000000000)) ∧
     ((wAsked (ConsCmd.seatCycle 3)).now < 99000000000 + 30000 * ms) ∧
     (lineWords (ascii "yes") = [ascii "yes"]) ∧
     ((wAsked (ConsCmd.seatCycle 3)).consoleRefusal (ConsCmd.seatCycle 3) = none) ∧
     (((wAsked (ConsCmd.seatCycle 3)).seatPower 3).isPowered = true)) ∧
    -- clause 2
    ((((wAsked ConsCmd.stop).arrive 129000000000).svc.confirm = some (ConsPort.rj45, ConsCmd.stop, 99000000000)) ∧
     ((ConsPort.rj45, ConsCmd.stop, 99000000000).2.2 + 30000 * ms ≤ ((wAsked ConsCmd.stop).arrive 129000000000).now)) ∧
    -- clause 3
    (((wUns.arrive wNow).mode.mode = Mode.unsupervised) ∧
     ((wUns.arrive wNow).svc.noticeUt + 10000 * ms ≤ (wUns.arrive wNow).now)) ∧
    -- clause 4.0
    ((wConsole.consoleLive = true) ∧
     ((wConsole.svc.line ConsPort.rj45).length < 80)) ∧
    -- clause 4.1
    (((wConsole.setSvc wWith1).consoleLive = true) ∧
     (127 = 8 ∨ 127 = 127)) ∧
    -- clause 4.2
    ((wConsole.consoleLive = true)) ∧
    -- clause 5
    (((wConsole.setSvc wWith2).consoleLive = true) ∧
     ((wConsole.setSvc wWith2).svc.confirm = none) ∧
     ((wConsole.setSvc wWith2).mode.mode ≠ Mode.unsupervised) ∧
     ((wConsole.setSvc wWith2).startStep = none) ∧
     (parseLine ((wConsole.setSvc wWith2).svc.line ConsPort.rj45) = some (Sum.inr (ascii "frob")))) ∧
    -- clause 6.0
    ((((wAsked ConsCmd.stop).setSvc wWith3).consoleLive = true) ∧
     (wAskedBare = ((wAsked ConsCmd.stop).setSvc wWith3).setSvc (((wAsked ConsCmd.stop).setSvc wWith3).svc.setLine ConsPort.rj45 []))) ∧
    -- clause 6.0
    (((wTyped "frob").consoleLive = true) ∧
     (wBare = (wTyped "frob").setSvc ((wTyped "frob").svc.setLine ConsPort.rj45 []))) ∧
    -- clause 6.1
    (((wTyped "help").consoleLive = true) ∧
     (wBare = (wTyped "help").setSvc ((wTyped "help").svc.setLine ConsPort.rj45 [])) ∧
     ((wTyped "help").svc.confirm = none) ∧
     (parseLine ((wTyped "help").svc.line ConsPort.rj45) = some (Sum.inl ConsCmd.help)) ∧
     (consRow (Instr.help ConsPort.rj45) = some (ConsPort.rj45, ConsCmd.help))) ∧
    -- clause 6.1
    (((wTyped "status").consoleLive = true) ∧
     (wBare = (wTyped "status").setSvc ((wTyped "status").svc.setLine ConsPort.rj45 [])) ∧
     ((wTyped "status").svc.confirm = none) ∧
     (parseLine ((wTyped "status").svc.line ConsPort.rj45) = some (Sum.inl ConsCmd.status)) ∧
     (consRow (Instr.status ConsPort.rj45) = some (ConsPort.rj45, ConsCmd.status))) ∧
    -- clause 6.2
    (((wTyped "tp").consoleLive = true) ∧
     (wBare = (wTyped "tp").setSvc ((wTyped "tp").svc.setLine ConsPort.rj45 [])) ∧
     (parseLine ((wTyped "tp").svc.line ConsPort.rj45) = some (Sum.inl ConsCmd.tp)) ∧
     (TakesLine (wTyped "tp") ConsCmd.tp)) ∧
    -- clause 6.3
    (((wTyped "help").consoleLive = true) ∧
     (wBare = (wTyped "help").setSvc ((wTyped "help").svc.setLine ConsPort.rj45 [])) ∧
     (parseLine ((wTyped "help").svc.line ConsPort.rj45) = some (Sum.inl ConsCmd.help)) ∧
     (TakesLine (wTyped "help") ConsCmd.help)) := by
  unfold TakesLine
  and_intros <;> decide +kernel
theorem witness_TestsAndPanel :
    -- clause 0
    (((wService.arrive wNow).svc.cont = some wCont)) ∧
    -- clause 1
    (((wService.arrive 699000000000).svc.cont = some wCont) ∧
     (wCont.started + 600000 * ms ≤ (wService.arrive 699000000000).now)) ∧
    -- clause 2
    (((wServ.setSvc wWith4).svc.tdr = some (0, none))) ∧
    -- clause 2
    (((wServ.setSvc wWith5).svc.tdr = some (0, some ConsPort.rj45))) ∧
    -- clause 3
    ((((unit wNow).arrive wNow).svc.measUt + 100 * ms ≤ ((unit wNow).arrive wNow).now)) ∧
    -- clause 4
    ((wTesting.svc.running = some (2, some ConsPort.rj45))) ∧
    -- clause 5.0
    ((((unit wNow).arrive wNow).panelOn = true)) ∧
    -- clause 5.1
    ((((wPanel wPan).arrive wNow).panelOn = true) ∧
     (((wPanel wPan).arrive wNow).svc.panel.item = 6) ∧
     (((wPanel wPan).arrive wNow).mode.mode ≠ Mode.unsupervised)) ∧
    -- clause 5.2
    ((((wPanel wWith6).arrive wNow).panelOn = true) ∧
     (((wPanel wWith6).arrive wNow).svc.panel.item = 9) ∧
     (((wPanel wWith6).arrive wNow).svc.panel.sureUt = none)) ∧
    -- clause 5.3
    ((((wPanel wWith7).arrive wNow).panelOn = true) ∧
     (((wPanel wWith7).arrive wNow).svc.panel.item = 9) ∧
     (((wPanel wWith7).arrive wNow).svc.panel.sureUt = some 100000000001) ∧
     (((wPanel wWith7).arrive wNow).now < 100000000001)) ∧
    -- clause 5.4
    (((wServ.arrive wNow).panelOn = true) ∧
     ((wServ.arrive wNow).mode.mode = Mode.service)) ∧
    -- clause 6
    ((((wPanel wPan).arrive wNow).svc.panel.lastPress + 60000 * ms ≤ ((wPanel wPan).arrive wNow).now)) := by
  and_intros <;> decide +kernel
theorem witness_ServicePort :
    -- clause 2
    (((wUsb wAttached).svc.usb.pullup = true)) ∧
    -- clause 4
    (((wUsb wWith8).svc.usb.suspended = true) ∧
     ((wUsb wWith8).consoleServed = true)) ∧
    -- clause 5.0
    (((wUsb wAttached).svc.usb.pullup = true) ∧
     ((wUsb wAttached).svc.usb.suspended = false)) ∧
    -- clause 5.2
    (((wUsb wWith9).svc.usb.pullup = true) ∧
     ((wUsb wWith9).svc.usb.suspended = false)) ∧
    -- clause 5.4.0
    (((wUsb wAttached).svc.usb.pullup = true) ∧
     ((wUsb wAttached).svc.usb.suspended = false) ∧
     ((wUsb wAttached).svc.usb.configured = true) ∧
     ((wUsb wAttached).consoleLive = true) ∧
     (∀ x ∈ [97, 98], x ≠ 10 ∧ x ≠ 13 ∧ x ≠ 8 ∧ x ≠ 127) ∧
     (((wUsb wAttached).svc.line ConsPort.usbc).length + [97, 98].length ≤ 80)) ∧
    -- clause 5.4.1
    (((wUsb wAttached).svc.usb.pullup = true) ∧
     ((wUsb wAttached).svc.usb.suspended = false) ∧
     ((wUsb wAttached).svc.usb.configured = true) ∧
     ((wUsb wAttached).consoleLive = true)) := by
  and_intros <;> decide +kernel
end G14

namespace G15
/-- The general registers: g1 = 0x40, g2 = 8, g3 = 5, g4 to g8 window addresses, g9 = -1, g10 = 0. -/
def wRegs : Vector W64 32 :=
  ((((((((Vector.replicate 32 (0 : W64)).set 1 0x40).set 2 8).set 3 5).set 4 0x100090000).set 5 0x10000000000).set 6 0x20000005018).set 7 0x100000).set 9 0xFFFFFFFFFFFFFFFF
def wRun : Run :=
  { Run.init with item := { Item.init with kind := 6, level := 4, flow := 0x810005, islet := 1, arg := 77 }, prog := .stock, pc := 0x400, regs := wRegs, scratch := [(0x40, 0x12), (0x41, 0x34)] }
def wOn (r : Run) : State := ((wWork 1000000 { isl .active with budget := 20000 } wQ wR).setTeSt .a 3 { TeSt.init with cur := some r }).setEntry 5 (wEntry [1, 1, 0, 0, 9])
def wUnit : State := wOn wRun
def wIslet : State := wOn { wRun with prog := .islet 1 0 }
/-- The TE is in a handler. -/
def wHandler : State :=
  wUnit.setTeSt .a 3 { TeSt.init with cur := some wRun, inHandler := true, hpc := 0x8000, epc := 0x400, hbank := Vector.replicate 8 7 }
def wIdle : State := wUnit.setTeSt .a 3 { TeSt.init with inHandler := true, hpc := 0x8000, hbank := Vector.replicate 8 7 }
def wWith1 := { isl .active with prot := true, budget := 20000 }
/-- Token 1 has an `hld` in flight into the item frame; g11 = 64. -/
def wFlight (st : Bool) : State :=
  wOn { wRun with toks := (Vector.replicate 8 TokSt.idle).set 1 (.flight st 0x40 8 0x1000), item := { wRun.item with kind := 0, seat := some 0 }, script := some { n := 9, recs := [], budget := 100 } }
def wDone : State := wOn { wRun with toks := (Vector.replicate 8 TokSt.idle).set 1 (.done true) }
def wFlightRun (st : Bool) : Run :=
  { wRun with toks := (Vector.replicate 8 TokSt.idle).set 1 (.flight st 0x40 8 0x1000), item := { wRun.item with kind := 0, seat := some 0 }, script := some { n := 9, recs := [], budget := 100 } }
def wCalled : State := wOn { wRun with rets := [0x500, 0x600], loops := [{ start := 0x3FC, len := 2, left := 3, idx := 1, depth := 2 }] }
def wLoopCtx (left : Nat) : TeCtx :=
  { wUnit.teCtx .a 3 with run := { wRun with loops := [{ start := 0x3F8, len := 3, left := left, idx := 1, depth := 0 }] } }
def wBuild (n : Nat) : State :=
  (wOn { wRun with item := { wRun.item with kind := 0, seat := some 0, flow := 0, islet := 1 }, script := some { n := 9, recs := List.replicate n (List.replicate 16 1), budget := 60 } }).setUsbSeat 0
    { UsbSeat.init with profile := some { rootPorts := 4, depth := 5, maxRecords := 2, outKib := 64, hsWindow := 50000, gen1Bytes := 0, caps := [2, 2, 2, 2] }, profileSeen := true }
def wScript (n : Nat) : Script := { n := 9, recs := List.replicate n (List.replicate 16 1), budget := 60 }
def wPost : Run := { wRun with scratch := (leBytes 8 0x4000000000000000).zipIdx.map fun e => (0x40 + e.2, e.1), regs := wRegs.set 3 5 }
def wPostc : State := wOn { wRun with scratch := [(0x47, 0x40), (0x4C, 9)] }
/-- A descriptor at 0x40: seat 0, tunnel NET, class 2; then the payload. -/
def wSend : State := wOn { wRun with scratch := [(0x41, 5), (0x42, 2), (0x48, 1)] }
def wSendI : State := wOn { wRun with scratch := [(0x41, 5), (0x42, 2), (0x48, 1)], prog := .islet 1 0 }
def wQ8 : State := wOn { wRun with regs := wRegs.set 3 0x3807FFF }
def wWith2 := { DispSt.init with holdBack := true, ready := List.replicate 14400 Item.init }
def wEvents (s : State) : State := s.setEvtCore .a { EvtCore.init with pending := [(31, 0x8000000000000000)], mask := [(31, 0x7FFFFFFFFFFFFFFF)], source := [(2047, 0x303)] }
def wEdge : State := wOn { wRun with regs := wRegs.set 7 0xFFFC }
def wSpent : State := wOn { wRun with count := 20000 }
def wRing (p c : Half) : State := wWork 1000000 (isl .active) wQ { wR with p := p, c := c }
def wWith3 := { wR with p := 5, c := 0 }
def wWith4 := { wR with p := 2, c := 0xFFFF }
def wGoing (l : Bool) : State := (unit 1000000).setDomain .a 2 { DomSt.init with target := .retention, going := some (.retention, 1000000), wakeLatched := l }
def wLow : State := (wGoing true).setPowCore .a { (wGoing true).powCore .a with vteLow := true }
theorem witness_YelcyArithmetic :
    -- clause 0
    ((TeReady wUnit CoreId.a 3)) ∧
    -- clause 0
    ((TeReady wIslet CoreId.a 3)) := by
  unfold TeReady
  and_intros <;> decide +kernel
theorem witness_YelcyMemory :
    -- clause 0.0.0
    ((TeReady wUnit CoreId.a 3) ∧
     (window (wUnit.teCtx CoreId.a 3).isletLevel false ((wUnit.teCtx CoreId.a 3).addr 1 0) (Instr.ld8 CoreId.a 3 11 1 0, 1).2 = some (Win.scratch 64)) ∧
     ((wUnit.teCtx CoreId.a 3).addr 1 0 % (Instr.ld8 CoreId.a 3 11 1 0, 1).2 = 0)) ∧
    -- clause 0.0.0
    ((TeReady wUnit CoreId.a 3) ∧
     (window (wUnit.teCtx CoreId.a 3).isletLevel false ((wUnit.teCtx CoreId.a 3).addr 1 65528) (Instr.ld64 CoreId.a 3 11 1 65528, 8).2 = some (Win.scratch 56)) ∧
     ((wUnit.teCtx CoreId.a 3).addr 1 65528 % (Instr.ld64 CoreId.a 3 11 1 65528, 8).2 = 0)) ∧
    -- clause 0.0.1
    ((TeReady wUnit CoreId.a 3) ∧
     (window (wUnit.teCtx CoreId.a 3).isletLevel false ((wUnit.teCtx CoreId.a 3).addr 1 1) (Instr.ld16 CoreId.a 3 11 1 1, 2).2 = some (Win.scratch 65)) ∧
     ((wUnit.teCtx CoreId.a 3).addr 1 1 % (Instr.ld16 CoreId.a 3 11 1 1, 2).2 ≠ 0)) ∧
    -- clause 0.0.2
    ((TeReady wUnit CoreId.a 3) ∧
     (window (wUnit.teCtx CoreId.a 3).isletLevel false ((wUnit.teCtx CoreId.a 3).addr 7 0) (Instr.ld8 CoreId.a 3 11 7 0, 1).2 = none)) ∧
    -- clause 0.1.0.0
    ((TeReady wUnit CoreId.a 3) ∧
     (window (wUnit.teCtx CoreId.a 3).isletLevel true ((wUnit.teCtx CoreId.a 3).addr 1 0) (Instr.st64 CoreId.a 3 9 1 0, 8).2 = some (Win.scratch 64)) ∧
     ((wUnit.teCtx CoreId.a 3).addr 1 0 % (Instr.st64 CoreId.a 3 9 1 0, 8).2 = 0) ∧
     ((Win.scratch 64).waits (wUnit.teCtx CoreId.a 3).run (Instr.st64 CoreId.a 3 9 1 0, 8).2 = false)) ∧
    -- clause 0.1.0.0
    ((TeReady wHandler CoreId.a 3) ∧
     (window (wHandler.teCtx CoreId.a 3).isletLevel true ((wHandler.teCtx CoreId.a 3).addr 1 0) (Instr.st64 CoreId.a 3 9 1 0, 8).2 = some (Win.scratch 64)) ∧
     ((wHandler.teCtx CoreId.a 3).addr 1 0 % (Instr.st64 CoreId.a 3 9 1 0, 8).2 = 0) ∧
     ((Win.scratch 64).waits (wHandler.teCtx CoreId.a 3).run (Instr.st64 CoreId.a 3 9 1 0, 8).2 = false)) ∧
    -- clause 0.1.0.1
    ((TeReady wUnit CoreId.a 3) ∧
     (window (wUnit.teCtx CoreId.a 3).isletLevel true ((wUnit.teCtx CoreId.a 3).addr 5 0) (Instr.st32 CoreId.a 3 9 5 0, 4).2 = some (Win.dram 0)) ∧
     ((wUnit.teCtx CoreId.a 3).addr 5 0 % (Instr.st32 CoreId.a 3 9 5 0, 4).2 = 0) ∧
     ((Win.dram 0).waits (wUnit.teCtx CoreId.a 3).run (Instr.st32 CoreId.a 3 9 5 0, 4).2 = false)) ∧
    -- clause 0.1.0.2
    ((TeReady wUnit CoreId.a 3) ∧
     (window (wUnit.teCtx CoreId.a 3).isletLevel true ((wUnit.teCtx CoreId.a 3).addr 4 0) (Instr.st64 CoreId.a 3 9 4 0, 8).2 = some (Win.isw 589824)) ∧
     ((wUnit.teCtx CoreId.a 3).addr 4 0 % (Instr.st64 CoreId.a 3 9 4 0, 8).2 = 0) ∧
     ((Win.isw 589824).waits (wUnit.teCtx CoreId.a 3).run (Instr.st64 CoreId.a 3 9 4 0, 8).2 = false)) ∧
    -- clause 0.1.0.2
    ((TeReady (wUnit.setIslet 1 wWith1) CoreId.a 3) ∧
     (window ((wUnit.setIslet 1 wWith1).teCtx CoreId.a 3).isletLevel true (((wUnit.setIslet 1 wWith1).teCtx CoreId.a 3).addr 4 0) (Instr.st64 CoreId.a 3 9 4 0, 8).2 = some (Win.isw 589824)) ∧
     (((wUnit.setIslet 1 wWith1).teCtx CoreId.a 3).addr 4 0 % (Instr.st64 CoreId.a 3 9 4 0, 8).2 = 0) ∧
     ((Win.isw 589824).waits ((wUnit.setIslet 1 wWith1).teCtx CoreId.a 3).run (Instr.st64 CoreId.a 3 9 4 0, 8).2 = false)) ∧
    -- clause 0.1.0.3
    ((TeReady wUnit CoreId.a 3) ∧
     (window (wUnit.teCtx CoreId.a 3).isletLevel true ((wUnit.teCtx CoreId.a 3).addr 6 0) (Instr.st32 CoreId.a 3 9 6 0, 4).2 = some (Win.regs 20504)) ∧
     ((wUnit.teCtx CoreId.a 3).addr 6 0 % (Instr.st32 CoreId.a 3 9 6 0, 4).2 = 0) ∧
     ((Win.regs 20504).waits (wUnit.teCtx CoreId.a 3).run (Instr.st32 CoreId.a 3 9 6 0, 4).2 = false)) ∧
    -- clause 0.1.1
    ((TeReady wUnit CoreId.a 3) ∧
     (window (wUnit.teCtx CoreId.a 3).isletLevel true ((wUnit.teCtx CoreId.a 3).addr 1 1) (Instr.st16 CoreId.a 3 9 1 1, 2).2 = some (Win.scratch 65)) ∧
     ((wUnit.teCtx CoreId.a 3).addr 1 1 % (Instr.st16 CoreId.a 3 9 1 1, 2).2 ≠ 0)) ∧
    -- clause 0.1.2
    ((TeReady wUnit CoreId.a 3) ∧
     (window (wUnit.teCtx CoreId.a 3).isletLevel true ((wUnit.teCtx CoreId.a 3).addr 7 0) (Instr.st8 CoreId.a 3 9 7 0, 1).2 = none)) ∧
    -- clause 1.0.0
    ((TeReady wUnit CoreId.a 3) ∧
     (BitVec.toNat ((wUnit.teCtx CoreId.a 3).get 5) % 8 = 0) ∧
     (window (wUnit.teCtx CoreId.a 3).isletLevel true (BitVec.toNat ((wUnit.teCtx CoreId.a 3).get 5)) 8 = some (Win.dram 0)) ∧
     ((0 : W64) = BitVec.ofNat (64 : ℕ) (leNat (readBytes (wUnit.dram CoreId.a) (0 : ℕ) (8 : ℕ))))) ∧
    -- clause 2
    ((TeReady wUnit CoreId.a 3)) := by
  unfold TeReady
  and_intros <;> decide +kernel
theorem witness_YelcyHostMemory :
    -- clause 0.0.0
    ((TeReady wUnit CoreId.a 3) ∧
     (hostFault (wUnit.teCtx CoreId.a 3) 1 2 2 = none)) ∧
    -- clause 0.0.0
    ((TeReady wUnit CoreId.a 3) ∧
     (hostFault (wUnit.teCtx CoreId.a 3) 1 2 10 = none)) ∧
    -- clause 0.0.1
    ((TeReady wUnit CoreId.a 3) ∧
     (hostFault (wUnit.teCtx CoreId.a 3) 1 2 2 = none) ∧
     ((wUnit.teCtx CoreId.a 3).get 2 ≠ 0) ∧
     (wUnit.readsRefused (wUnit.itemFn CoreId.a (wUnit.teCtx CoreId.a 3).run.item) = false) ∧
     (∀ r ∈ wUnit.host.reqs, r.1 < wUnit.host.nextRead)) ∧
    -- clause 0.0.2
    ((TeReady wUnit CoreId.a 3) ∧
     (hostFault (wUnit.teCtx CoreId.a 3) 1 2 2 = none) ∧
     ((wUnit.teCtx CoreId.a 3).get 2 ≠ 0)) ∧
    -- clause 0.0.3
    ((TeReady wUnit CoreId.a 3) ∧
     (hostFault (wUnit.teCtx CoreId.a 3) 1 2 10 = none) ∧
     ((wUnit.teCtx CoreId.a 3).get 10 = 0)) ∧
    -- clause 0.1.0
    ((TeReady wUnit CoreId.a 3) ∧
     (hostFault (wUnit.teCtx CoreId.a 3) 1 2 9 = some 8)) ∧
    -- clause 0.1.1
    ((TeReady (wFlight true) CoreId.a 3) ∧
     (hostFault ((wFlight true).teCtx CoreId.a 3) 1 2 2 = some 7)) ∧
    -- clause 2
    ((TeReady (wFlight false) CoreId.a 3)) ∧
    -- clause 1.0
    ((((wFlight false).teSt CoreId.a 3).cur = some (wFlightRun false)) ∧
     ((wFlightRun false).slot = 0) ∧
     ((wFlightRun false).toks[1] = TokSt.flight false 64 8 4096) ∧
     ((wFlight false).tokenWaits CoreId.a 3 0 1 (wFlightRun false) = false)) ∧
    -- clause 1.1
    ((((wFlight true).teSt CoreId.a 3).cur = some (wFlightRun true)) ∧
     ((wFlightRun true).slot = 0) ∧
     ((wFlightRun true).toks[1] = TokSt.flight true 64 8 4096) ∧
     ((wFlight true).tokenWaits CoreId.a 3 0 1 (wFlightRun true) = false)) := by
  unfold TeReady
  and_intros <;> decide +kernel
theorem witness_YelcyControlFlow :
    -- clause 0.0
    ((TeReady wUnit CoreId.a 3)) ∧
    -- clause 0.0
    ((TeReady wHandler CoreId.a 3)) ∧
    -- clause 0.2
    ((TeReady wCalled CoreId.a 3) ∧
     ((wCalled.teCtx CoreId.a 3).run.rets = [1280, 1536])) ∧
    -- clause 0.3.0
    ((TeReady wUnit CoreId.a 3) ∧
     ((0 : ℕ) = if ↑(10 : Reg) = (0 : ℕ) then BitVec.toNat (64 : BitVec (12 : ℕ)) else min (BitVec.toNat ((wUnit.teCtx CoreId.a (3 : TeNo)).get (10 : Reg))) (BitVec.toNat (64 : BitVec (12 : ℕ))))) ∧
    -- clause 0.3.0
    ((TeReady wUnit CoreId.a 3) ∧
     ((0 : ℕ) = if ↑(0 : Reg) = (0 : ℕ) then BitVec.toNat (0 : BitVec (12 : ℕ)) else min (BitVec.toNat ((wUnit.teCtx CoreId.a (3 : TeNo)).get (0 : Reg))) (BitVec.toNat (0 : BitVec (12 : ℕ))))) ∧
    -- clause 0.3.1
    ((TeReady wUnit CoreId.a 3) ∧
     ((64 : ℕ) = if ↑(9 : Reg) = (0 : ℕ) then BitVec.toNat (64 : BitVec (12 : ℕ)) else min (BitVec.toNat ((wUnit.teCtx CoreId.a (3 : TeNo)).get (9 : Reg))) (BitVec.toNat (64 : BitVec (12 : ℕ))))) ∧
    -- clause 0.3.1
    ((TeReady wUnit CoreId.a 3) ∧
     ((8 : ℕ) = if ↑(2 : Reg) = (0 : ℕ) then BitVec.toNat (64 : BitVec (12 : ℕ)) else min (BitVec.toNat ((wUnit.teCtx CoreId.a (3 : TeNo)).get (2 : Reg))) (BitVec.toNat (64 : BitVec (12 : ℕ))))) ∧
    -- clause 0.4.0
    ((TeReady wCalled CoreId.a 3) ∧
     ((wCalled.teCtx CoreId.a (3 : TeNo)).run.loops = [{ start := (1020 : ℕ), len := (2 : ℕ), left := (3 : ℕ), idx := (1 : ℕ), depth := (2 : ℕ) : LoopFrame }])) ∧
    -- clause 0.5
    ((TeReady wUnit CoreId.a 3) ∧
     ((wUnit.teCtx CoreId.a 3).run.rets = [])) ∧
    -- clause 0.6.0
    ((TeReady wUnit CoreId.a 3) ∧
     ((wUnit.teCtx CoreId.a 3).run.loops = [])) ∧
    -- clause 1.0
    (((wLoopCtx (2 : ℕ)).run.loops = [{ start := (1016 : ℕ), len := (3 : ℕ), left := (2 : ℕ), idx := (1 : ℕ), depth := (0 : ℕ) : LoopFrame }]) ∧
     ({ start := (1016 : ℕ), len := (3 : ℕ), left := (2 : ℕ), idx := (1 : ℕ), depth := (0 : ℕ) : LoopFrame }.depth = (wLoopCtx (2 : ℕ)).run.rets.length) ∧
     ((wLoopCtx (2 : ℕ)).next = { start := (1016 : ℕ), len := (3 : ℕ), left := (2 : ℕ), idx := (1 : ℕ), depth := (0 : ℕ) : LoopFrame }.start + (4 : ℕ) * { start := (1016 : ℕ), len := (3 : ℕ), left := (2 : ℕ), idx := (1 : ℕ), depth := (0 : ℕ) : LoopFrame }.len) ∧
     ((1 : ℕ) < { start := (1016 : ℕ), len := (3 : ℕ), left := (2 : ℕ), idx := (1 : ℕ), depth := (0 : ℕ) : LoopFrame }.left)) ∧
    -- clause 1.1
    (((wLoopCtx (1 : ℕ)).run.loops = [{ start := (1016 : ℕ), len := (3 : ℕ), left := (1 : ℕ), idx := (1 : ℕ), depth := (0 : ℕ) : LoopFrame }]) ∧
     ({ start := (1016 : ℕ), len := (3 : ℕ), left := (1 : ℕ), idx := (1 : ℕ), depth := (0 : ℕ) : LoopFrame }.depth = (wLoopCtx (1 : ℕ)).run.rets.length) ∧
     ((wLoopCtx (1 : ℕ)).next = { start := (1016 : ℕ), len := (3 : ℕ), left := (1 : ℕ), idx := (1 : ℕ), depth := (0 : ℕ) : LoopFrame }.start + (4 : ℕ) * { start := (1016 : ℕ), len := (3 : ℕ), left := (1 : ℕ), idx := (1 : ℕ), depth := (0 : ℕ) : LoopFrame }.len) ∧
     ({ start := (1016 : ℕ), len := (3 : ℕ), left := (1 : ℕ), idx := (1 : ℕ), depth := (0 : ℕ) : LoopFrame }.left ≤ (1 : ℕ))) := by
  unfold TeReady
  and_intros <;> decide +kernel
theorem witness_YelcyScripts :
    -- clause 0.0
    ((TeReady (wBuild 2) CoreId.a 3) ∧
     (((wBuild 2).teCtx CoreId.a 3).script = some (wScript 2)) ∧
     ((wBuild 2).recordLimit ((wBuild 2).teCtx CoreId.a 3).run.item.seat ≤ (wScript 2).recs.length)) ∧
    -- clause 0.1
    ((TeReady (wBuild 1) CoreId.a 3) ∧
     (((wBuild 1).teCtx CoreId.a 3).script = some (wScript 1)) ∧
     ((wScript 1).recs.length < (wBuild 1).recordLimit ((wBuild 1).teCtx CoreId.a 3).run.item.seat)) ∧
    -- clause 0.2
    ((TeReady (wBuild 1) CoreId.a 3) ∧
     (((wBuild 1).teCtx CoreId.a 3).script = some (wScript 1)) ∧
     (BitVec.toNat (((wBuild 1).teCtx CoreId.a 3).get 2) ≤ (wScript 1).budget)) ∧
    -- clause 0.3
    ((TeReady (wBuild 1) CoreId.a 3) ∧
     (((wBuild 1).teCtx CoreId.a 3).script = some (wScript 1)) ∧
     ((wScript 1).budget < BitVec.toNat (((wBuild 1).teCtx CoreId.a 3).get 1))) ∧
    -- clause 0.3
    ((TeReady (wBuild 1) CoreId.a 3) ∧
     (((wBuild 1).teCtx CoreId.a 3).script = some (wScript 1)) ∧
     ((wScript 1).budget < BitVec.toNat (((wBuild 1).teCtx CoreId.a 3).get 9))) ∧
    -- clause 1
    ((TeReady wUnit CoreId.a 3) ∧
     ((wUnit.teCtx CoreId.a 3).script = none)) ∧
    -- clause 2.1
    ((TeReady wUnit CoreId.a 3) ∧
     ((wUnit.teCtx CoreId.a 3).handler = false) ∧
     ((wUnit.teCtx CoreId.a 3).run.inFlight = false) ∧
     ((wUnit.teSt CoreId.a 3).staged = none)) ∧
    -- clause 2.1
    ((TeReady (wBuild 1) CoreId.a 3) ∧
     (((wBuild 1).teCtx CoreId.a 3).handler = false) ∧
     (((wBuild 1).teCtx CoreId.a 3).run.inFlight = false) ∧
     (((wBuild 1).teSt CoreId.a 3).staged = none)) ∧
    -- clause 3
    ((TeReady (wFlight false) CoreId.a 3) ∧
     (((wFlight false).teCtx CoreId.a 3).handler = false) ∧
     (((wFlight false).teCtx CoreId.a 3).run.inFlight = true)) := by
  unfold TeReady
  and_intros <;> decide +kernel
theorem witness_YelcyOutputs :
    -- clause 0
    ((TeReady wPostc CoreId.a 3) ∧
     (BitVec.toNat ((wPostc.teCtx CoreId.a 3).get 1) + 32 ≤ 65536) ∧
     (BitVec.toNat ((wPostc.teCtx CoreId.a 3).get 1) % 32 = 0) ∧
     ((wPostc.teCtx CoreId.a 3).run.covered (BitVec.toNat ((wPostc.teCtx CoreId.a 3).get 1)) 32 = false) ∧
     (wPostc.handleOf (wPostc.teCtx CoreId.a 3).islet ((wPostc.teCtx CoreId.a 3).get 3) = some 5) ∧
     (wPostc.entry? 5 = some (wEntry [1, 1, 0, 0, 9])) ∧
     (readBytes [(71, 64), (76, 9)] 64 32 = readBytes (wPostc.teCtx CoreId.a 3).run.scratch (BitVec.toNat ((wPostc.teCtx CoreId.a 3).get 1)) 32) ∧
     (statusWritten (fld (readBytes [(71, 64), (76, 9)] 64 32) 7 1) = true)) ∧
    -- clause 1
    ((TeReady wPostc CoreId.a 3) ∧
     (BitVec.toNat ((wPostc.teCtx CoreId.a 3).get 1) + 32 ≤ 65536) ∧
     (BitVec.toNat ((wPostc.teCtx CoreId.a 3).get 1) % 32 = 0) ∧
     ((wPostc.teCtx CoreId.a 3).run.covered (BitVec.toNat ((wPostc.teCtx CoreId.a 3).get 1)) 32 = false) ∧
     (wPostc.handleOf (wPostc.teCtx CoreId.a 3).islet ((wPostc.teCtx CoreId.a 3).get 2) = none)) ∧
    -- clause 2
    ((TeReady wSend CoreId.a 3) ∧
     ((wSend.teCtx CoreId.a 3).get 2 ≠ 0) ∧
     (BitVec.toNat ((wSend.teCtx CoreId.a 3).get 2) ≤ 9196) ∧
     (BitVec.toNat ((wSend.teCtx CoreId.a 3).get 1) + 8 + BitVec.toNat ((wSend.teCtx CoreId.a 3).get 2) ≤ 65536) ∧
     ((wSend.teCtx CoreId.a 3).run.covered (BitVec.toNat ((wSend.teCtx CoreId.a 3).get 1)) (8 + BitVec.toNat ((wSend.teCtx CoreId.a 3).get 2)) = false) ∧
     (wSend.sendTarget (wSend.teCtx CoreId.a 3) (readBytes (wSend.teCtx CoreId.a 3).run.scratch (BitVec.toNat ((wSend.teCtx CoreId.a 3).get 1)) 8) = some (0, Tunnel.net, 2))) ∧
    -- clause 2
    ((TeReady wSendI CoreId.a 3) ∧
     ((wSendI.teCtx CoreId.a 3).get 2 ≠ 0) ∧
     (BitVec.toNat ((wSendI.teCtx CoreId.a 3).get 2) ≤ 9196) ∧
     (BitVec.toNat ((wSendI.teCtx CoreId.a 3).get 1) + 8 + BitVec.toNat ((wSendI.teCtx CoreId.a 3).get 2) ≤ 65536) ∧
     ((wSendI.teCtx CoreId.a 3).run.covered (BitVec.toNat ((wSendI.teCtx CoreId.a 3).get 1)) (8 + BitVec.toNat ((wSendI.teCtx CoreId.a 3).get 2)) = false) ∧
     (wSendI.sendTarget (wSendI.teCtx CoreId.a 3) (readBytes (wSendI.teCtx CoreId.a 3).run.scratch (BitVec.toNat ((wSendI.teCtx CoreId.a 3).get 1)) 8) = some (0, Tunnel.net, 2))) ∧
    -- clause 3
    ((TeReady wUnit CoreId.a 3) ∧
     (¬(((wUnit.teCtx CoreId.a (3 : TeNo)).isletLevel = true ∨ ↑(wUnit.teCtx CoreId.a (3 : TeNo)).islet = (0 : ℕ)) ∧ (wUnit.islet (wUnit.teCtx CoreId.a (3 : TeNo)).islet).vectors ≤ BitVec.toNat ((wUnit.teCtx CoreId.a (3 : TeNo)).get (3 : Reg)))) ∧
     ((wUnit.islet (wUnit.teCtx CoreId.a 3).islet).vbase + BitVec.toNat ((wUnit.teCtx CoreId.a 3).get 3) < 2048)) ∧
    -- clause 4.0
    ((TeReady (wQ8.setDispatch CoreId.a wWith2) CoreId.a 3) ∧
     (qitemTarget ((wQ8.setDispatch CoreId.a wWith2).teCtx CoreId.a 3) (BitVec.toNat (((wQ8.setDispatch CoreId.a wWith2).teCtx CoreId.a 3).get 3)) = some (1, 8421375, 3)) ∧
     (((wQ8.setDispatch CoreId.a wWith2).dispatch CoreId.a).holdBack = true)) ∧
    -- clause 4.1
    ((TeReady wQ8 CoreId.a 3) ∧
     (qitemTarget (wQ8.teCtx CoreId.a 3) (BitVec.toNat ((wQ8.teCtx CoreId.a 3).get 3)) = some (1, 8421375, 3)) ∧
     ((wQ8.dispatch CoreId.a).holdBack = false)) := by
  unfold TeReady
  and_intros <;> decide +kernel
theorem witness_YelcyEvents :
    -- clause 0.0.0
    ((TeReady wHandler CoreId.a 3) ∧
     ((wHandler.teCtx CoreId.a 3).isletLevel = false) ∧
     ((wHandler.teSt CoreId.a (3 : TeNo)).csr (BitVec.toNat (2 : Half)) = some (1 : W64))) ∧
    -- clause 0.0.1
    ((TeReady wHandler CoreId.a 3) ∧
     ((wHandler.teCtx CoreId.a 3).isletLevel = false)) ∧
    -- clause 0.0.2
    ((TeReady wHandler CoreId.a 3) ∧
     ((wHandler.teCtx CoreId.a 3).isletLevel = false) ∧
     (2 = 1 ∨ 2 = 2)) ∧
    -- clause 0.0.3
    ((TeReady wHandler CoreId.a 3) ∧
     ((wHandler.teCtx CoreId.a 3).isletLevel = false) ∧
     ((wHandler.teCtx CoreId.a 3).handler = true)) ∧
    -- clause 0.0.3
    ((TeReady wIdle CoreId.a 3) ∧
     ((wIdle.teCtx CoreId.a 3).isletLevel = false) ∧
     ((wIdle.teCtx CoreId.a 3).handler = true)) ∧
    -- clause 0.0.4
    ((TeReady (wEvents wUnit) CoreId.a 3) ∧
     (((wEvents wUnit).teCtx CoreId.a 3).isletLevel = false) ∧
     ((((wEvents wUnit).evtCore CoreId.a).presented ↑(3 : TeNo)).isSome = true)) ∧
    -- clause 0.0.5
    ((TeReady wUnit CoreId.a 3) ∧
     ((wUnit.teCtx CoreId.a 3).isletLevel = false) ∧
     ((wUnit.evtCore CoreId.a).presented ↑(3 : TeNo) = none)) ∧
    -- clause 0.1
    ((TeReady wIslet CoreId.a 3) ∧
     ((wIslet.teCtx CoreId.a 3).isletLevel = true)) ∧
    -- clause 1
    (((wEvents wUnit).teTakes CoreId.a 3 = true) ∧
     (((wEvents wUnit).evtCore CoreId.a).presented ↑(3 : TeNo) = some ((3 : ℕ), (2047 : ℕ))) ∧
     (((wEvents wUnit).teSt CoreId.a 3).waiting = false)) := by
  unfold TeReady
  and_intros <;> decide +kernel
theorem witness_YelcyHostLengths :
    -- clause of the statement
    ((TeReady wUnit CoreId.a 3) ∧
     (↑(wUnit.teCtx CoreId.a (3 : TeNo)).islet ≠ (0 : ℕ))) := by
  unfold TeReady
  and_intros <;> decide +kernel
theorem witness_YelcyTokens :
    -- clause 0.0.0
    ((TeReady (wFlight true) CoreId.a 3) ∧
     (((wFlight true).teCtx CoreId.a 3).run.toks[1] = TokSt.flight true 64 8 4096)) ∧
    -- clause 0.0.1
    ((TeReady (wFlight true) CoreId.a 3) ∧
     (((wFlight true).teCtx CoreId.a 3).run.toks[1] = TokSt.flight true 64 8 4096) ∧
     (((wFlight true).teCtx CoreId.a 3).handler = false) ∧
     ((wFlight true).tokenWaits CoreId.a 3 ((wFlight true).teCtx CoreId.a 3).run.slot 1 ((wFlight true).teCtx CoreId.a 3).run = false)) ∧
    -- clause 0.0.1
    ((TeReady (wFlight false) CoreId.a 3) ∧
     (((wFlight false).teCtx CoreId.a 3).run.toks[1] = TokSt.flight false 64 8 4096) ∧
     (((wFlight false).teCtx CoreId.a 3).handler = false) ∧
     ((wFlight false).tokenWaits CoreId.a 3 ((wFlight false).teCtx CoreId.a 3).run.slot 1 ((wFlight false).teCtx CoreId.a 3).run = false)) ∧
    -- clause 0.1
    ((TeReady wDone CoreId.a 3) ∧
     ((wDone.teCtx CoreId.a 3).run.toks[1] = TokSt.done true)) ∧
    -- clause 0.2
    ((TeReady wDone CoreId.a 3) ∧
     ((wDone.teCtx CoreId.a 3).run.toks[2] = TokSt.idle)) ∧
    -- clause 1.0
    ((TeReady (wFlight false) CoreId.a 3)) ∧
    -- clause 1.1
    ((TeReady (wFlight false) CoreId.a 3) ∧
     (BitVec.toNat (((wFlight false).teCtx CoreId.a 3).get 1) + 32 ≤ 65536) ∧
     (BitVec.toNat (((wFlight false).teCtx CoreId.a 3).get 1) % 32 = 0) ∧
     (((wFlight false).teCtx CoreId.a 3).run.covered (BitVec.toNat (((wFlight false).teCtx CoreId.a 3).get 1)) 32 = true)) ∧
    -- clause 1.2
    ((TeReady (wFlight false) CoreId.a 3) ∧
     (((wFlight false).teCtx CoreId.a 3).get 2 ≠ 0) ∧
     (BitVec.toNat (((wFlight false).teCtx CoreId.a 3).get 2) ≤ 9196) ∧
     (BitVec.toNat (((wFlight false).teCtx CoreId.a 3).get 1) + 8 + BitVec.toNat (((wFlight false).teCtx CoreId.a 3).get 2) ≤ 65536) ∧
     (((wFlight false).teCtx CoreId.a 3).run.covered (BitVec.toNat (((wFlight false).teCtx CoreId.a 3).get 1)) (8 + BitVec.toNat (((wFlight false).teCtx CoreId.a 3).get 2)) = true)) ∧
    -- clause 1.3
    ((TeReady (wFlight false) CoreId.a 3) ∧
     (((wFlight false).teCtx CoreId.a 3).handler = false) ∧
     (((wFlight false).teCtx CoreId.a 3).run.inFlight = true)) := by
  unfold TeReady
  and_intros <;> decide +kernel
theorem witness_YelcyAlignment :
    -- clause 0.0
    ((TeReady wUnit CoreId.a 3)) ∧
    -- clause 0.2
    ((TeReady wEdge CoreId.a 3)) := by
  unfold TeReady
  and_intros <;> decide +kernel
theorem witness_YelcyBudgetAndFaults :
    -- clause 0.0
    (((Instr.add CoreId.a 3 1 2 3).onTe = some (CoreId.a, 3)) ∧
     ((unit 1000).teRuns CoreId.a 3 = false) ∧
     (Instr.add CoreId.a 3 1 2 3 ≠ Instr.wfi CoreId.a 3)) ∧
    -- clause 0.1
    (((Instr.add CoreId.a 3 1 2 3).onTe = some (CoreId.a, 3)) ∧
     (wSpent.teRuns CoreId.a 3 = true) ∧
     (wSpent.overBudget (wSpent.teCtx CoreId.a 3) = true)) ∧
    -- clause 0.1
    (((Instr.wfi CoreId.a 3).onTe = some (CoreId.a, 3)) ∧
     (wSpent.teRuns CoreId.a 3 = true) ∧
     (wSpent.overBudget (wSpent.teCtx CoreId.a 3) = true)) ∧
    -- clause 1
    (((wUnit.teSt CoreId.a 3).staged = none)) ∧
    -- clause 1
    (((wIdle.teSt CoreId.a 3).staged = none)) := by
  and_intros <;> decide +kernel
theorem witness_ConsumerIndex :
    -- clause 0
    (((wRing 5 0).fnUp h0a = true) ∧
     (((wRing 5 0).islet 1).boundVia h0a = true) ∧
     ((wRing 5 0).runs h0a.core = h0a.core) ∧
     (BitVec.getLsbD (6 : W64) (24 : ℕ) = true ↔ h0a.core = CoreId.b) ∧
     (↑(0 : Fin (256 : ℕ)) < ((wRing (5 : Half) (0 : Half)).islet (1 : IsletNo)).rings h0a.core) ∧
     (wWith3 = (wRing (5 : Half) (0 : Half)).ring h0a.core (1 : IsletNo) ↑(0 : Fin (256 : ℕ))) ∧
     (BitVec.toNat (wWith3.p - wWith3.c) < (BitVec.ofNat (16 : ℕ) (BitVec.toNat (6 : W64)) - wWith3.c).toNat)) ∧
    -- clause 1
    (((wRing 5 0).fnUp h0a = true) ∧
     (((wRing 5 0).islet 1).boundVia h0a = true) ∧
     ((wRing 5 0).runs h0a.core = h0a.core) ∧
     (BitVec.getLsbD (65536 : W64) (24 : ℕ) = true ↔ h0a.core = CoreId.b) ∧
     (↑(0 : Fin (256 : ℕ)) < ((wRing (5 : Half) (0 : Half)).islet (1 : IsletNo)).rings h0a.core) ∧
     (wWith3 = (wRing (5 : Half) (0 : Half)).ring h0a.core (1 : IsletNo) ↑(0 : Fin (256 : ℕ))) ∧
     (BitVec.ofNat (16 : ℕ) (BitVec.toNat (65536 : W64)) - wWith3.c = (0 : BitVec (16 : ℕ)))) ∧
    -- clause 2
    (((wRing 5 0).fnUp h0a = true) ∧
     (((wRing 5 0).islet 1).boundVia h0a = true) ∧
     ((wRing 5 0).runs h0a.core = h0a.core) ∧
     (BitVec.getLsbD (5 : W64) (24 : ℕ) = true ↔ h0a.core = CoreId.b) ∧
     (↑(0 : Fin (256 : ℕ)) < ((wRing (5 : Half) (0 : Half)).islet (1 : IsletNo)).rings h0a.core) ∧
     (wWith3 = (wRing (5 : Half) (0 : Half)).ring h0a.core (1 : IsletNo) ↑(0 : Fin (256 : ℕ))) ∧
     (BitVec.ofNat (16 : ℕ) (BitVec.toNat (5 : W64)) - wWith3.c ≠ (0 : BitVec (16 : ℕ))) ∧
     ((BitVec.ofNat (16 : ℕ) (BitVec.toNat (5 : W64)) - wWith3.c).toNat ≤ BitVec.toNat (wWith3.p - wWith3.c))) ∧
    -- clause 2
    (((wRing 2 65535).fnUp h0a = true) ∧
     (((wRing 2 65535).islet 1).boundVia h0a = true) ∧
     ((wRing 2 65535).runs h0a.core = h0a.core) ∧
     (BitVec.getLsbD (1 : W64) (24 : ℕ) = true ↔ h0a.core = CoreId.b) ∧
     (↑(0 : Fin (256 : ℕ)) < ((wRing (2 : Half) (65535 : Half)).islet (1 : IsletNo)).rings h0a.core) ∧
     (wWith4 = (wRing (2 : Half) (65535 : Half)).ring h0a.core (1 : IsletNo) ↑(0 : Fin (256 : ℕ))) ∧
     (BitVec.ofNat (16 : ℕ) (BitVec.toNat (1 : W64)) - wWith4.c ≠ (0 : BitVec (16 : ℕ))) ∧
     ((BitVec.ofNat (16 : ℕ) (BitVec.toNat (1 : W64)) - wWith4.c).toNat ≤ BitVec.toNat (wWith4.p - wWith4.c))) := by
  and_intros <;> decide +kernel
theorem witness_LatchedWake :
    -- clause 0
    ((↑(2 : DomainNo) ≠ (0 : ℕ)) ∧
     ((((wGoing false).arrive (1000000 : ℕ)).domain CoreId.a ↑(2 : DomainNo)).going = some (DomState.retention, (1000000 : ℕ))) ∧
     (DomState.retention ≠ DomState.on) ∧
     ((((wGoing false).arrive (1000000 : ℕ)).domain CoreId.a ↑(2 : DomainNo)).wakeLatched = false)) ∧
    -- clause 1
    (((((wGoing true).arrive (1000000 : ℕ)).domain CoreId.a ↑(2 : DomainNo)).going = some (DomState.retention, (1000000 : ℕ))) ∧
     (DomState.retention ≠ DomState.on) ∧
     ((((wGoing true).arrive (1000000 : ℕ)).domain CoreId.a ↑(2 : DomainNo)).wakeLatched = true) ∧
     (1000000 ≤ ((wGoing true).arrive 1000000).ut CoreId.a)) ∧
    -- clause 1
    ((((wLow.arrive (1000000 : ℕ)).domain CoreId.a ↑(2 : DomainNo)).going = some (DomState.retention, (1000000 : ℕ))) ∧
     (DomState.retention ≠ DomState.on) ∧
     (((wLow.arrive (1000000 : ℕ)).domain CoreId.a ↑(2 : DomainNo)).wakeLatched = true) ∧
     (1000000 ≤ (wLow.arrive 1000000).ut CoreId.a)) := by
  and_intros <;> decide +kernel
end G15

end Sys2Proof.Tests
end

/-! PROOFS. `CQ_CONSUMER` (03 R78): what a write does to the ring of the function's own core. -/

namespace Sys2Proof.Machine

/-! ### What the operations on a ring leave of its consumer index -/

@[simp] theorem State.ring_edge (s : State) (d n c i r) : (s.edge d n).ring c i r = s.ring c i r := by
  simp [State.ring]

/-- `STALLED` is all that `restall` may change in its ring (R69). -/
@[simp] theorem State.restall_ring_c (s : State) (c i r) : ((s.restall c i r).ring c i r).c = (s.ring c i r).c := by
  unfold State.restall
  dsimp only
  split
  · rfl
  · split <;> simp

/-- Only the time of the difference may change in the ring that `noteDiffer` looks at (R84). -/
@[simp] theorem State.noteDiffer_ring_c (s : State) (c i r) :
    ((s.noteDiffer c i r).ring c i r).c = (s.ring c i r).c := by
  unfold State.noteDiffer
  dsimp only
  split <;> split <;> simp

/-- An advance leaves the ring with the index written (R78). -/
@[simp] theorem State.advanceRing_ring_c (s : State) (c i r n) : ((s.advanceRing c i r n).ring c i r).c = n := by
  simp [State.advanceRing]

/-! ### The write -/

/-- The part of the write that stands in bit 16: a 1 clears `CONSUMER_ERROR` (RW1C) of the function's core. -/
def State.ackConsumerError (s : State) (g : CoreId) (i : IsletNo) (r : Nat) (v : W64) : State :=
  if (s.ring g i r).errIw && v.getLsbD 16 then s.setRing g i r { s.ring g i r with errIw := false } else s

theorem State.ackConsumerError_ring (s : State) (g i r) (v : W64) :
    (s.ackConsumerError g i r v).ring g i r =
      { s.ring g i r with errIw := (s.ring g i r).errIw && !v.getLsbD 16 } := by
  unfold State.ackConsumerError
  split
  next h =>
    obtain ⟨_, hbit⟩ := Bool.and_eq_true_iff.1 h
    rw [State.ring_setRing, hbit, Bool.not_true, Bool.and_false]
  next h =>
    have same : ((s.ring g i r).errIw && !v.getLsbD 16) = (s.ring g i r).errIw := by
      cases herr : (s.ring g i r).errIw
      · rfl
      · simpa [herr] using h
    rw [same]

@[simp] theorem State.ackConsumerError_runs (s : State) (g i r) (v : W64) (c) :
    (s.ackConsumerError g i r v).runs c = s.runs c := by
  unfold State.ackConsumerError
  split <;> rfl

@[simp] theorem State.ackConsumerError_entries (s : State) (g i r) (v : W64) :
    (s.ackConsumerError g i r v).wq.entries = s.wq.entries := by
  unfold State.ackConsumerError
  split <;> rfl

@[simp] theorem State.ackConsumerError_host (s : State) (g i r) (v : W64) :
    (s.ackConsumerError g i r v).host = s.host := by
  unfold State.ackConsumerError
  split <;> rfl

/-- A write through a function that is up is the write of the register. -/
theorem exec_cqConsumerWrite_of_fnUp {f : FnId} {s : State} (i : IsletNo) (r : Fin 256) (v : W64) (up : s.fnUp f = true) :
    exec (.cqConsumerWrite f i r v) s = .next (s.writeConsumer f i r.val v) := by
  simp [exec, execCqConsumerWrite, up]

/-- The write of an islet's own function names that function's core, which runs its own rings, of which ring `r` is one
(R84). -/
structure OwnConsumerWrite (s : State) (f : FnId) (i : IsletNo) (r : Nat) (v : W64) : Prop where
  bound : (s.islet i).boundVia f = true
  runs : s.runs f.core = f.core
  names : v.getLsbD 24 = true ↔ f.core = .b
  ring : r < (s.islet i).rings f.core

section own
variable {s : State} {f : FnId} {i : IsletNo} {r : Nat} {v : W64}

/-- Bit 24 of such a write gives the function's core. -/
theorem OwnConsumerWrite.core (h : OwnConsumerWrite s f i r v) : (if v.getLsbD 24 then CoreId.b else .a) = f.core := by
  split
  next hb => exact (h.names.1 hb).symm
  next hb =>
    cases hc : f.core
    case a => rfl
    case b => exact absurd (h.names.2 hc) hb

/-- The write of a function's own ring, judged by R78 after bit 16 has had its effect. -/
theorem OwnConsumerWrite.writeConsumer_eq (h : OwnConsumerWrite s f i r v) :
    s.writeConsumer f i r v =
      if sub16 (BitVec.ofNat 16 v.toNat) (s.ring f.core i r).c ≤ sub16 (s.ring f.core i r).p (s.ring f.core i r).c then
        if BitVec.ofNat 16 v.toNat = (s.ring f.core i r).c then s.ackConsumerError f.core i r v
        else (s.ackConsumerError f.core i r v).advanceRing f.core i r (BitVec.ofNat 16 v.toNat)
      else (s.ackConsumerError f.core i r v).setRing f.core i r { s.ring f.core i r with errIw := true } := by
  have fold : (if (s.ring f.core i r).errIw && v.getLsbD 16 then
      s.setRing f.core i r { s.ring f.core i r with errIw := false } else s) = s.ackConsumerError f.core i r v := rfl
  simp only [State.writeConsumer, h.core, h.bound, fold, State.ackConsumerError_runs, h.runs,
    State.ackConsumerError_ring, if_neg (Nat.not_le.2 h.ring), Bool.not_true, Bool.false_eq_true, if_false, if_true,
    consumerMove]
  by_cases within : sub16 (BitVec.ofNat 16 v.toNat) (s.ring f.core i r).c ≤ sub16 (s.ring f.core i r).p (s.ring f.core i r).c
  · simp only [if_pos within]
  · simp only [if_neg within]

/-- More than the occupied count: the write is ignored and sets `CONSUMER_ERROR`. -/
theorem OwnConsumerWrite.writeConsumer_ring_of_beyond (h : OwnConsumerWrite s f i r v)
    (hc : sub16 (s.ring f.core i r).p (s.ring f.core i r).c < sub16 (BitVec.ofNat 16 v.toNat) (s.ring f.core i r).c) :
    (s.writeConsumer f i r v).ring f.core i r = { s.ring f.core i r with errIw := true } := by
  rw [h.writeConsumer_eq, if_neg (Nat.not_le.2 hc), State.ring_setRing]

/-- The present index written again: nothing but the effect of bit 16. -/
theorem OwnConsumerWrite.writeConsumer_of_same (h : OwnConsumerWrite s f i r v)
    (hc : BitVec.ofNat 16 v.toNat = (s.ring f.core i r).c) :
    s.writeConsumer f i r v = s.ackConsumerError f.core i r v := by
  have within : sub16 (s.ring f.core i r).c (s.ring f.core i r).c ≤ sub16 (s.ring f.core i r).p (s.ring f.core i r).c := by
    simp [sub16]
  rw [h.writeConsumer_eq, hc, if_pos within, if_pos rfl]

/-- At most the occupied count and not 0: the index moves to the one written. -/
theorem OwnConsumerWrite.writeConsumer_ring_c_of_within (h : OwnConsumerWrite s f i r v)
    (hne : BitVec.ofNat 16 v.toNat ≠ (s.ring f.core i r).c)
    (hc : sub16 (BitVec.ofNat 16 v.toNat) (s.ring f.core i r).c ≤ sub16 (s.ring f.core i r).p (s.ring f.core i r).c) :
    ((s.writeConsumer f i r v).ring f.core i r).c = BitVec.ofNat 16 v.toNat := by
  rw [h.writeConsumer_eq, if_pos hc, if_neg hne, State.advanceRing_ring_c]

end own

/-- Settles O56: the three cases of R78, one lemma each. -/
theorem consumerIndex : Obligations.ConsumerIndex := by
  intro f i r v s x up bound runs names ring hx
  subst hx
  have own : OwnConsumerWrite s f i r.val v := ⟨bound, runs, names, ring⟩
  have yields {P : State → Prop} (hP : P (s.writeConsumer f i r.val v)) : Yields (.cqConsumerWrite f i r v) s P :=
    ⟨_, exec_cqConsumerWrite_of_fnUp i r v up, hP⟩
  refine ⟨fun beyond => yields (own.writeConsumer_ring_of_beyond beyond), fun same => yields ?_, fun moves within => yields ?_⟩
  · rw [own.writeConsumer_of_same (sub_eq_zero.1 same)]
    exact ⟨s.ackConsumerError_ring _ _ _ _, s.ackConsumerError_entries _ _ _ _, s.ackConsumerError_host _ _ _ _⟩
  · have ne : BitVec.ofNat 16 v.toNat ≠ (s.ring f.core i r.val).c := fun e => moves (sub_eq_zero.2 e)
    rw [own.writeConsumer_ring_c_of_within ne within, BitVec.add_comm, BitVec.sub_add_cancel]

end Sys2Proof.Machine

/-! PROOFS. Instructions on a TE that may run (04 R90, R107, R112, R115): how each way to end one leaves the TE. -/

namespace Sys2Proof.Machine

/-! ### A context on its TE -/

theorem State.teSt_of_keep {K : Nat} {s t : State} (h : Keep K s t) (kept : K.testBit 11 = true) (c n) :
    t.teSt c n = s.teSt c n := by
  have tes : t.te.tes = s.te.tes := h.tes kept
  rw [State.teSt, State.teSt, tes]

@[simp] theorem State.teSt_countRetired (s : State) (x : TeCtx) (c n) : (s.countRetired x).teSt c n = s.teSt c n :=
  State.teSt_of_keep State.countRetired_keep (by decide) c n

/-- The context `y` stands on TE `n` of core `c`, in a handler when the TE is in one. -/
structure TeCtx.On (y : TeCtx) (s : State) (c : CoreId) (n : TeNo) : Prop where
  core : y.core = c
  te : y.te = n
  handler : (s.teSt c n).inHandler = y.handler

section on
variable {y : TeCtx} {s t : State} {c : CoreId} {n : TeNo}

theorem State.teCtx_on (s : State) (c n) : (s.teCtx c n).On s c n := ⟨rfl, rfl, rfl⟩

theorem TeCtx.On.set (h : y.On s c n) (r v) : (y.set r v).On s c n := by
  unfold TeCtx.set
  split
  · exact h
  · split <;> exact ⟨h.core, h.te, h.handler⟩

theorem TeCtx.On.setTok (h : y.On s c n) (k v) : (y.setTok k v).On s c n := ⟨h.core, h.te, h.handler⟩

theorem TeCtx.On.of_teSt_eq (h : y.On s c n) (same : t.teSt c n = s.teSt c n) : y.On t c n :=
  ⟨h.core, h.te, by rw [same, h.handler]⟩

/-- A context put back is what its TE holds, at the address where execution goes on. -/
theorem TeCtx.On.teCtx_putCtx (h : y.On s c n) : (s.putCtx y).teCtx c n =
    { y with run := if y.handler then y.run else { y.run with pc := y.next }, pc := y.next, next := (y.next + 4) % 2 ^ 64 } := by
  obtain ⟨rfl, rfl, handler⟩ := h
  rw [State.teCtx, State.putCtx, State.teSt_setTeSt]
  cases hy : y.handler <;> cases (s.teSt y.core y.te).cur <;> simp [handler, hy]

theorem TeCtx.On.settle (h : y.On s c n) : y.settle.On s c n := ⟨h.core, h.te, h.handler⟩

/-- The instruction counts for the item it belongs to, not in a handler (R115). -/
def TeCtx.counted (x : TeCtx) : TeCtx :=
  if x.handler then x else { x with run := { x.run with count := x.run.count + 1 } }

theorem TeCtx.On.counted (h : y.On s c n) : y.counted.On s c n := by
  unfold TeCtx.counted
  split <;> exact ⟨h.core, h.te, h.handler⟩

theorem State.retire_eq (s : State) (x : TeCtx) : s.retire x = (s.putCtx x.settle.counted).countRetired x.settle.counted := rfl

@[simp] theorem State.teCtx_countRetired (s : State) (x : TeCtx) (c n) : (s.countRetired x).teCtx c n = s.teCtx c n := by
  simp [State.teCtx]

/-- An instruction that retires leaves its context on the TE, gone on to the next one. -/
theorem TeCtx.On.teCtx_retire (h : y.On s c n) : (s.retire y).teCtx c n = y.after := by
  rw [State.retire_eq, State.teCtx_countRetired, h.settle.counted.teCtx_putCtx]
  have hs : y.settle.handler = y.handler := rfl
  unfold TeCtx.counted TeCtx.after
  cases hy : y.handler <;> simp [hs, hy]

end on

@[simp] theorem State.retire_host (s : State) (x : TeCtx) : (s.retire x).host = s.host := by
  simp only [State.retire, State.countRetired]
  split <;> simp [State.putCtx, State.setTeSt]

@[simp] theorem TeCtx.after_toks (x : TeCtx) : x.after.run.toks = x.run.toks := by
  unfold TeCtx.after
  dsimp only
  split <;> rfl

@[simp] theorem TeCtx.setTok_toks (x : TeCtx) (k : Tok) (v : TokSt) : (x.setTok k v).run.toks[k] = v := by
  simp [TeCtx.setTok]

theorem State.teCtx_run {s : State} {c n r} (cur : (s.teSt c n).cur = some r) : (s.teCtx c n).run = r := by
  simp [State.teCtx, cur]

/-- Outside a handler, a TE that may run is in service of an item. -/
theorem TeReady.cur {s : State} {c n} (ready : TeReady s c n) (item : (s.teCtx c n).handler = false) :
    (s.teSt c n).cur = some (s.teCtx c n).run := by
  have runs := ready.1
  have notIn : (s.teSt c n).inHandler = false := item
  cases hc : (s.teSt c n).cur
  case none => simp [State.teRuns, hc, notIn] at runs
  case some r => rw [State.teCtx_run hc]

/-! ### The ways to end an instruction -/

/-- The command `i` is the instruction of meaning `f` on TE `n` of core `c`. -/
def Means (i : Instr) (c : CoreId) (n : TeNo) (f : State → TeCtx → TeOut) : Prop :=
  ∀ s, exec i s = .next (s.instr c n f)

section ends
variable {i : Instr} {c : CoreId} {n : TeNo} {f : State → TeCtx → TeOut} {s : State}

theorem Means.yields_fault (means : Means i c n f) (ready : TeReady s c n) {k : Nat}
    (h : f s (s.teCtx c n) = .fault k) : Yields i s fun t => t = s.teFault c n k :=
  ⟨_, means s, by simp [State.instr, ready.1, ready.2, h]⟩

theorem Means.yields_stall (means : Means i c n f) (ready : TeReady s c n)
    (h : f s (s.teCtx c n) = .stall) : Yields i s fun t => t = s :=
  ⟨_, means s, by simp [State.instr, ready.1, ready.2, h]⟩

theorem Means.yields_retire (means : Means i c n f) (ready : TeReady s c n) {t : State} {y : TeCtx}
    (h : f s (s.teCtx c n) = .ok t y) {P : State → Prop} (hP : P (t.retire y)) : Yields i s P :=
  ⟨_, means s, by simpa [State.instr, ready.1, ready.2, h] using hP⟩

end ends

/-! ### Loads and stores (04 R92, R101, R105) -/

/-- What loads and stores of `n` bytes share: the checks of the address, and then `go` in the window found. -/
def memAccess (store : Bool) (ra : Reg) (imm : Half) (n : Nat) (go : State → TeCtx → Win → TeOut)
    (s : State) (x : TeCtx) : TeOut :=
  match window x.isletLevel store (x.addr ra imm) n with
  | none => .fault 0x02
  | some w => if x.addr ra imm % n ≠ 0 then .fault 0x03 else if w.waits x.run n then .stall else go s x w

/-- The command `i` is a load or a store of `n` bytes. -/
def Accesses (i : Instr) (c : CoreId) (t : TeNo) (ra : Reg) (imm : Half) (store : Bool) (n : Nat) : Prop :=
  ∃ go, Means i c t (memAccess store ra imm n go)

/-- The loads, with the bytes that each reads (04 R104). -/
def loadsOf (c : CoreId) (t : TeNo) (rd ra : Reg) (imm : Half) : List (Instr × Nat) :=
  [(.ld8 c t rd ra imm, 1), (.ld16 c t rd ra imm, 2), (.ld32 c t rd ra imm, 4), (.ld64 c t rd ra imm, 8)]

/-- The stores, with the bytes that each writes (04 R104). -/
def storesOf (c : CoreId) (t : TeNo) (rd ra : Reg) (imm : Half) : List (Instr × Nat) :=
  [(.st8 c t rd ra imm, 1), (.st16 c t rd ra imm, 2), (.st32 c t rd ra imm, 4), (.st64 c t rd ra imm, 8)]

section access
variable {i : Instr} {c : CoreId} {t : TeNo} {rd ra : Reg} {imm : Half} {store : Bool} {n : Nat} {s : State} {e : Instr × Nat}

theorem accesses_of_load (h : ∀ s, exec i s = .next (s.load c t rd ra imm n)) : Accesses i c t ra imm false n :=
  ⟨fun s x w => .ok (s.loadAt x w n).2 (x.set rd (BitVec.ofNat 64 (s.loadAt x w n).1)), h⟩

theorem accesses_of_store (h : ∀ s, exec i s = .next (s.store_ c t rd ra imm n)) : Accesses i c t ra imm true n :=
  ⟨fun s x w => .ok (s.storeAt x w n (x.get rd)).1 (s.storeAt x w n (x.get rd)).2, h⟩

theorem accesses_of_mem_loadsOf (he : e ∈ loadsOf c t rd ra imm) : Accesses e.1 c t ra imm false e.2 := by
  simp only [loadsOf, List.mem_cons, List.not_mem_nil, or_false] at he
  rcases he with rfl | rfl | rfl | rfl <;> exact accesses_of_load (rd := rd) fun _ => rfl

theorem accesses_of_mem_storesOf (he : e ∈ storesOf c t rd ra imm) : Accesses e.1 c t ra imm true e.2 := by
  simp only [storesOf, List.mem_cons, List.not_mem_nil, or_false] at he
  rcases he with rfl | rfl | rfl | rfl <;> exact accesses_of_store (rd := rd) fun _ => rfl

theorem Accesses.yields_window (h : Accesses i c t ra imm store n) (ready : TeReady s c t)
    (outside : window (s.teCtx c t).isletLevel store ((s.teCtx c t).addr ra imm) n = none) :
    Yields i s fun u => u = s.teFault c t 0x02 := by
  obtain ⟨go, means⟩ := h
  exact means.yields_fault ready (by simp only [memAccess, outside])

theorem Accesses.yields_align (h : Accesses i c t ra imm store n) (ready : TeReady s c t)
    (inside : window (s.teCtx c t).isletLevel store ((s.teCtx c t).addr ra imm) n ≠ none)
    (misaligned : (s.teCtx c t).addr ra imm % n ≠ 0) : Yields i s fun u => u = s.teFault c t 0x03 := by
  obtain ⟨go, means⟩ := h
  obtain ⟨w, hw⟩ := Option.ne_none_iff_exists'.1 inside
  exact means.yields_fault ready (by simp only [memAccess, hw, if_pos misaligned])

/-- An aligned access to scratch waits for a token in flight that covers a byte of it (R101). -/
theorem Accesses.yields_stall (h : Accesses i c t ra imm store n) (ready : TeReady s c t)
    (scratch : (s.teCtx c t).addr ra imm + n ≤ 0x10000) (aligned : (s.teCtx c t).addr ra imm % n = 0)
    (covered : (s.teCtx c t).run.covered ((s.teCtx c t).addr ra imm) n = true) : Yields i s fun u => u = s := by
  obtain ⟨go, means⟩ := h
  exact means.yields_stall ready (by simp [memAccess, window, scratch, aligned, Win.waits, covered])

/-- Where a level may load or store (R92): scratch, the ISW but for an islet's stores below its upper half, and for unit code
also unit DRAM and the registers. -/
theorem window_ne_none_iff {islet store : Bool} {a n : Nat} : window islet store a n ≠ none ↔
    a + n ≤ 0x10000 ∨
    (0x100000000 ≤ a ∧ a + n ≤ 0x100100000 ∧ ¬(islet = true ∧ store = true ∧ a < 0x100080000)) ∨
    (islet = false ∧ ((0x10000000000 ≤ a ∧ a + n ≤ 0x10C00000000) ∨ (0x20000000000 ≤ a ∧ a + n ≤ 0x20001000000))) := by
  unfold window
  split_ifs <;> simp_all

/-- Every byte of an access inside a window lies in a window that the level may use (R92, R105). -/
theorem window_byte {islet store : Bool} {a n k : Nat} (hk : k < n) (inside : window islet store a n ≠ none) :
    window islet store (a + k) 1 ≠ none := by
  rw [window_ne_none_iff] at *
  rcases inside with scratch | ⟨lo, hi, may⟩ | ⟨unit, dram | regs⟩
  · exact .inl (by omega)
  · exact .inr (.inl ⟨by omega, by omega, fun ⟨hi, hs, ha⟩ => may ⟨hi, hs, by omega⟩⟩)
  · exact .inr (.inr ⟨unit, .inl (by omega)⟩)
  · exact .inr (.inr ⟨unit, .inr (by omega)⟩)

end access

/-- Settles O59: a load or a store finds its window, looks at its alignment, and a byte outside every window leaves the whole
access outside them. That the window comes before the alignment is the model's reading (log entry 36). -/
theorem yelcyAlignment : Obligations.YelcyAlignment := by
  intro c n rd ra imm s x ready hx
  subst hx
  have outside {i : Instr} {store : Bool} {m : Nat} (access : Accesses i c n ra imm store m)
      (byte : ∃ k, k < m ∧ window (s.teCtx c n).isletLevel store ((s.teCtx c n).addr ra imm + k) 1 = none) :
      Yields i s fun t => t = s.teFault c n 0x02 := by
    obtain ⟨k, hk, out⟩ := byte
    exact access.yields_window ready (by_contra fun inside => window_byte hk inside out)
  refine ⟨fun e he => (accesses_of_mem_loadsOf (List.mem_cons_of_mem _ he)).yields_align ready,
    fun e he => (accesses_of_mem_storesOf (List.mem_cons_of_mem _ he)).yields_align ready, ?_⟩
  intro e he
  have split : e ∈ (loadsOf c n rd ra imm).map (fun e => (e.1, false, e.2)) ++
      (storesOf c n rd ra imm).map (fun e => (e.1, true, e.2)) := he
  rw [List.mem_append, List.mem_map, List.mem_map] at split
  rcases split with ⟨l, hl, rfl⟩ | ⟨l, hl, rfl⟩
  · exact outside (accesses_of_mem_loadsOf hl)
  · exact outside (accesses_of_mem_storesOf hl)

/-! ### Host memory (04 R99 to R102) -/

/-- What `hld` and `hst` share: their faults, a length of 0, and then `go`. -/
def hostTransfer (tk : Tok) (rs rl : Reg) (go : State → TeCtx → TeOut) (s : State) (x : TeCtx) : TeOut :=
  match hostFault x tk rs rl with
  | some code => .fault code
  | none => if (x.get rl).toNat = 0 then .ok s (x.setTok tk (.done false)) else go s x

/-- What a transfer of a length other than 0 does to its TE: its token is in flight or has failed, and nothing else changes
there. -/
def Issues (tk : Tok) (s : State) (x : TeCtx) (o : TeOut) : Prop :=
  ∃ t v, o = .ok t (x.setTok tk v) ∧ (∀ c n, t.teSt c n = s.teSt c n) ∧ (v.inFlight = true ∨ v = .done true)

/-- The command `i` is a transfer between host memory and scratch. -/
def Transfers (i : Instr) (c : CoreId) (n : TeNo) (tk : Tok) (rs rl : Reg) : Prop :=
  ∃ go, Means i c n (hostTransfer tk rs rl go) ∧ ∀ s x, Issues tk s x (go s x)

/-- The transfer of an `hld`: its token is in flight once its requests are issued, or has failed. -/
def hldIssue (tk : Tok) (rs rh rl : Reg) (s : State) (x : TeCtx) : TeOut :=
  let w := s.issueHld x tk (x.get rh).toNat (x.get rl).toNat
  .ok w.2 (x.setTok tk (if w.1 then .flight false (x.get rs).toNat (x.get rl).toNat (x.get rh).toNat else .done true))

/-- The transfer of an `hst`: its token is in flight once its writes have left, or has failed. -/
def hstIssue (tk : Tok) (rs rh rl : Reg) (s : State) (x : TeCtx) : TeOut :=
  let f := s.itemFn x.core x.run.item
  let w := s.writeHost f x.islet (x.get rh).toNat (readBytes x.run.scratch (x.get rs).toNat (x.get rl).toNat)
  .ok (if w.1 then w.2.itemUses x.run.item f.port else w.2)
    (x.setTok tk (if w.1 then .flight true (x.get rs).toNat (x.get rl).toNat (x.get rh).toNat else .done true))

section transfer
variable {i : Instr} {c : CoreId} {n : TeNo} {tk : Tok} {rs rh rl : Reg} {s : State} {x : TeCtx}

/-- The token of a transfer that was carried is in flight, that of another has failed. -/
theorem inFlight_or_failed (ok st : Bool) (a l h : Nat) :
    (if ok then TokSt.flight st a l h else .done true).inFlight = true ∨
      (if ok then TokSt.flight st a l h else .done true) = .done true := by
  cases ok
  · exact .inr rfl
  · exact .inl rfl

theorem issues_hldIssue : Issues tk s x (hldIssue tk rs rh rl s x) :=
  ⟨_, _, rfl, State.teSt_of_keep State.issueHld_keep (by decide), inFlight_or_failed _ _ _ _ _⟩

theorem issues_hstIssue : Issues tk s x (hstIssue tk rs rh rl s x) := by
  refine ⟨_, _, rfl, ?_, inFlight_or_failed _ _ _ _ _⟩
  have written {f i a b} (c n) : (s.writeHost f i a b).2.teSt c n = s.teSt c n :=
    State.teSt_of_keep State.writeHost_keep (by decide) c n
  intro c n
  split
  · exact (State.teSt_of_keep State.itemUses_keep (by decide) c n).trans (written c n)
  · exact written c n

theorem transfers_hld : Transfers (.hld c n tk rs rh rl) c n tk rs rl :=
  ⟨hldIssue tk rs rh rl, fun _ => rfl, fun _ _ => issues_hldIssue⟩

theorem transfers_hst : Transfers (.hst c n tk rs rh rl) c n tk rs rl :=
  ⟨hstIssue tk rs rh rl, fun _ => rfl, fun _ _ => issues_hstIssue⟩

theorem toNat_eq_zero_iff {v : W64} : v.toNat = 0 ↔ v = 0 :=
  BitVec.toNat_inj (y := 0)

/-- The faults of an item with a host window (R100). -/
theorem hostFault_eq (islet : x.islet.val ≠ 0) : hostFault x tk rs rl =
    if 4096 < (x.get rl).toNat ∨ (x.get rl ≠ 0 ∧ 0x10000 < (x.get rs).toNat + (x.get rl).toNat) then some 0x08
    else if (x.run.toks[tk]).inFlight then some 0x07 else none := by
  have empty : (x.get rl).toNat ≠ 0 ↔ x.get rl ≠ 0 := not_congr toNat_eq_zero_iff
  simp only [hostFault, if_neg islet, empty]

theorem Transfers.yields_fault (h : Transfers i c n tk rs rl) (ready : TeReady s c n) {k : Nat}
    (fault : hostFault (s.teCtx c n) tk rs rl = some k) : Yields i s fun t => t = s.teFault c n k := by
  obtain ⟨go, means, _⟩ := h
  exact means.yields_fault ready (by simp only [hostTransfer, fault])

/-- A length of 0 completes the token at once and issues nothing (R100). -/
theorem Transfers.yields_empty (h : Transfers i c n tk rs rl) (ready : TeReady s c n)
    (free : hostFault (s.teCtx c n) tk rs rl = none) (empty : (s.teCtx c n).get rl = 0) :
    Yields i s fun t => t.teCtx c n = ((s.teCtx c n).setTok tk (.done false)).after ∧ t.host = s.host := by
  obtain ⟨go, means, _⟩ := h
  exact means.yields_retire ready (y := (s.teCtx c n).setTok tk (.done false)) (by simp [hostTransfer, free, empty])
    ⟨((s.teCtx_on c n).setTok tk _).teCtx_retire, State.retire_host _ _⟩

/-- A transfer of another length leaves its token in flight, or failed. -/
theorem Transfers.yields_issued (h : Transfers i c n tk rs rl) (ready : TeReady s c n)
    (free : hostFault (s.teCtx c n) tk rs rl = none) (nonempty : (s.teCtx c n).get rl ≠ 0) :
    Yields i s fun t => ((t.teCtx c n).run.toks[tk]).inFlight = true ∨ (t.teCtx c n).run.toks[tk] = .done true := by
  obtain ⟨go, means, issues⟩ := h
  obtain ⟨u, v, hgo, same, hv⟩ := issues s (s.teCtx c n)
  have len : ((s.teCtx c n).get rl).toNat ≠ 0 := mt toNat_eq_zero_iff.1 nonempty
  have on : ((s.teCtx c n).setTok tk v).On u c n :=
    ((s.teCtx_on c n).setTok tk v).of_teSt_eq (same c n)
  refine means.yields_retire ready (t := u) (y := (s.teCtx c n).setTok tk v) (by simp [hostTransfer, free, len, hgo]) ?_
  rwa [on.teCtx_retire, TeCtx.after_toks, TeCtx.setTok_toks]

end transfer

/-- Settles O57: the faults of R100 in the model's order (log entry 118), and with no fault the token's state by the length. -/
theorem yelcyHostLengths : Obligations.YelcyHostLengths := by
  intro c n tk rs rh rl s x ready hx islet i hi
  subst hx
  have transfers : Transfers i c n tk rs rl := by
    simp only [List.mem_cons, List.not_mem_nil, or_false] at hi
    rcases hi with rfl | rfl
    · exact transfers_hld
    · exact transfers_hst
  have fault := hostFault_eq (tk := tk) (rs := rs) (rl := rl) islet
  refine ⟨fun long => transfers.yields_fault ready (by rw [fault, if_pos long]), fun short fits => ?_⟩
  have within : ¬(4096 < ((s.teCtx c n).get rl).toNat ∨
      ((s.teCtx c n).get rl ≠ 0 ∧ 0x10000 < ((s.teCtx c n).get rs).toNat + ((s.teCtx c n).get rl).toNat)) := by
    rintro (long | ⟨nonempty, leaves⟩)
    · omega
    · exact fits.elim nonempty (by omega)
  rw [if_neg within] at fault
  refine ⟨fun busy => transfers.yields_fault ready (by rw [fault, if_pos busy]), fun idle => ?_⟩
  have free : hostFault (s.teCtx c n) tk rs rl = none := by rw [fault, idle]; rfl
  by_cases empty : (s.teCtx c n).get rl = 0
  · obtain ⟨t, step, done⟩ := transfers.yields_empty ready free empty
    exact ⟨t, step, fun _ => done, fun nonempty => absurd empty nonempty⟩
  · obtain ⟨t, step, issued⟩ := transfers.yields_issued ready free empty
    exact ⟨t, step, fun zero => absurd zero empty, fun _ => issued⟩

/-! ### Tokens (04 R101) -/

section tokens
variable {c : CoreId} {n : TeNo} {tk : Tok} {rd ra rb : Reg} {s : State} {r : Run} {st : Bool} {a l h : Nat}

/-- `hwait` reads the status of a token that is done, and 0 of one never used. -/
def hwaitOut (rd : Reg) (tk : Tok) (s : State) (x : TeCtx) : TeOut :=
  match x.run.toks[tk] with
  | .flight _ _ _ _ => .stall
  | .idle => .ok s (x.set rd 0)
  | .done st => .ok s (x.set rd (flag st))

theorem means_hwait : Means (.hwait c n rd tk) c n (hwaitOut rd tk) := fun _ => rfl

theorem yields_hwait_stall (ready : TeReady s c n) (busy : (s.teCtx c n).run.toks[tk] = .flight st a l h) :
    Yields (.hwait c n rd tk) s fun t => t = s :=
  means_hwait.yields_stall ready (by simp only [hwaitOut, busy])

theorem yields_hwait_done (ready : TeReady s c n) (done : (s.teCtx c n).run.toks[tk] = .done st) :
    Yields (.hwait c n rd tk) s fun t => t.teCtx c n = ((s.teCtx c n).set rd (if st then 1 else 0)).after :=
  means_hwait.yields_retire ready (by simp only [hwaitOut, done, flag]) ((s.teCtx_on c n).set rd _).teCtx_retire

theorem yields_hwait_idle (ready : TeReady s c n) (idle : (s.teCtx c n).run.toks[tk] = .idle) :
    Yields (.hwait c n rd tk) s fun t => t.teCtx c n = ((s.teCtx c n).set rd 0).after :=
  means_hwait.yields_retire ready (by simp only [hwaitOut, idle]) ((s.teCtx_on c n).set rd 0).teCtx_retire

/-- A token completes with the status of its requests. -/
theorem Run.toks_complete (busy : r.toks[tk] = .flight st a l h) (b : Option (List Byte)) :
    (r.complete tk b).toks[tk] = .done b.isNone := by
  unfold Run.complete
  cases st <;> cases b <;> simp [busy]

/-- The completion of a token in flight, none of whose requests waits, completes it in the item in service. -/
theorem State.tokenComplete_cur (cur : (s.teSt c n).cur = some r) (busy : r.toks[tk] = .flight st a l h)
    (issued : s.tokenWaits c n r.slot tk r = false) (b : Option (List Byte)) :
    ((s.tokenComplete c n r.slot tk b).teSt c n).cur = some (r.complete tk b) := by
  have own : (s.teSt c n).runs.find? (fun r' : Run => r'.slot == r.slot) = some r := by simp [TeSt.runs, cur]
  have flight : (r.toks[tk]).inFlight = true := by rw [busy]; rfl
  have ended {t : State} {gone} : (t.endReqs gone).teSt c n = t.teSt c n :=
    State.teSt_of_keep State.endReqs_keep (by decide) c n
  have failed {t : State} {f i} : (t.failCount f i).teSt c n = t.teSt c n :=
    State.teSt_of_keep State.failCount_keep (by decide) c n
  simp only [State.tokenComplete, own, flight, issued, Bool.not_false, Bool.and_self, if_true]
  cases b <;> simp [ended, failed, TeSt.onSlot, cur]

theorem yields_hostTokenComplete (ready : TeReady s c n) (item : (s.teCtx c n).handler = false)
    (busy : (s.teCtx c n).run.toks[tk] = .flight st a l h)
    (issued : s.tokenWaits c n (s.teCtx c n).run.slot tk (s.teCtx c n).run = false) (b : Option (List Byte)) :
    Yields (.hostTokenComplete c n (s.teCtx c n).run.slot tk b) s fun t => (t.teCtx c n).run.toks[tk] = .done b.isNone := by
  have run := State.teCtx_run (State.tokenComplete_cur (ready.cur item) busy issued b)
  exact ⟨_, rfl, by simpa only [run] using Run.toks_complete busy b⟩

theorem yields_postc_stall (ready : TeReady s c n) (fits : ((s.teCtx c n).get ra).toNat + 32 ≤ 0x10000)
    (aligned : ((s.teCtx c n).get ra).toNat % 32 = 0) (covered : (s.teCtx c n).run.covered ((s.teCtx c n).get ra).toNat 32 = true) :
    Yields (.postc c n ra rb) s fun t => t = s :=
  Means.yields_stall (fun _ => rfl) ready
    (by simp only [if_neg (Nat.not_lt.2 fits), aligned, covered, ne_eq, not_true, if_false, if_true])

theorem yields_send_stall (ready : TeReady s c n) (nonempty : (s.teCtx c n).get rb ≠ 0)
    (short : ((s.teCtx c n).get rb).toNat ≤ 9196)
    (fits : ((s.teCtx c n).get ra).toNat + 8 + ((s.teCtx c n).get rb).toNat ≤ 0x10000)
    (covered : (s.teCtx c n).run.covered ((s.teCtx c n).get ra).toNat (8 + ((s.teCtx c n).get rb).toNat) = true) :
    Yields (.send c n rd ra rb) s fun t => t = s := by
  have len : ¬(((s.teCtx c n).get rb).toNat = 0 ∨ 9196 < ((s.teCtx c n).get rb).toNat) := by
    rintro (empty | long)
    · exact nonempty (toNat_eq_zero_iff.1 empty)
    · omega
  exact Means.yields_stall (fun _ => rfl) ready (by simp only [if_neg len, if_neg (Nat.not_lt.2 fits), covered, if_true])

theorem yields_done_stall (ready : TeReady s c n) (item : (s.teCtx c n).handler = false)
    (busy : (s.teCtx c n).run.inFlight = true) : Yields (.done c n) s fun t => t = s :=
  Means.yields_stall (fun _ => rfl) ready (by simp only [item, busy, Bool.false_eq_true, if_false, if_true])

theorem yields_tick_stall (ready : TeReady s c n) (item : (s.teCtx c n).handler = false)
    (busy : (s.teCtx c n).run.inFlight = true) (script : (s.teCtx c n).script.isSome = true) :
    Yields (.tick c n rd) s fun t => t = s := by
  obtain ⟨k, hk⟩ := Option.isSome_iff_exists.1 script
  exact Means.yields_stall (fun _ => rfl) ready (by simp only [item, busy, hk, Bool.false_eq_true, if_false, if_true])

end tokens

/-- Settles O58: `hwait` and the completion by the state of the token; the rest by the stall that each meets. -/
theorem yelcyTokens : Obligations.YelcyTokens := by
  constructor
  · intro c n rd tk s x ready hx
    subst hx
    exact ⟨fun st a l h busy => ⟨yields_hwait_stall ready busy, fun item issued =>
        yields_hostTokenComplete ready item busy issued⟩,
      fun st => yields_hwait_done ready, yields_hwait_idle ready⟩
  · intro c n rd ra rb imm s x ready hx
    subst hx
    refine ⟨fun e he scratch aligned covered => ?_, yields_postc_stall ready, yields_send_stall ready,
      fun item busy => ⟨yields_done_stall ready item busy, yields_tick_stall ready item busy⟩⟩
    have split : e ∈ loadsOf c n rd ra imm ++ storesOf c n rd ra imm := he
    rcases List.mem_append.1 split with load | store
    · exact (accesses_of_mem_loadsOf load).yields_stall ready scratch aligned covered
    · exact (accesses_of_mem_storesOf store).yields_stall ready scratch aligned covered

end Sys2Proof.Machine

/-! PROOFS. One step, the byte memory and the general registers: what every command keeps, and what a read after a write gives. -/

namespace Sys2Proof.Machine

/-! ### A step (01 R15; log entry 5) -/

/-- Every command answers a next state. -/
theorem exec_next (i : Instr) (s : State) : ∃ t, exec i s = .next t := by
  cases i <;> exact ⟨_, rfl⟩

theorem step_cons {s : State} {i : Instr} {rest : List Instr} (h : s.pending = i :: rest) :
    step s = exec i (s.setPending rest) := by
  simp only [step, h]

theorem step_nil {s : State} (h : s.pending = []) : step s = .next (s.arrive (s.now + 1)) := by
  simp only [step, h]

/-- A step runs the command at the front on the state with the queue's rest, or lets a nanosecond pass. -/
theorem step_cases (s : State) :
    (∃ i rest, s.pending = i :: rest ∧ step s = exec i (s.setPending rest)) ∨
      (s.pending = [] ∧ step s = .next (s.arrive (s.now + 1))) := by
  cases h : s.pending with
  | nil => exact .inr ⟨rfl, step_nil h⟩
  | cons i rest => exact .inl ⟨i, rest, rfl, step_cons h⟩

/-- Settles O5: each command keeps every memory canonical, and the passing of time touches none. -/
theorem memoryStaysCanonical : Obligations.MemoryStaysCanonical := by
  intro s t wf h
  rcases step_cases s with ⟨i, rest, _, command⟩ | ⟨_, time⟩
  · exact (exec_keep i _ t (command.symm.trans h)).memOk (by decide) wf
  · cases time.symm.trans h
    rwa [State.arrive_mem]

/-- Settles O2: every command and the passing of time answer a next state, also where a command's conditions fail: such a
command has no effect (log entry 29). -/
theorem noCommandStops : Obligations.NoCommandStops := by
  refine ⟨exec_next, fun s => ?_⟩
  rcases step_cases s with ⟨i, rest, _, command⟩ | ⟨_, time⟩
  · obtain ⟨t, answer⟩ := exec_next i (s.setPending rest)
    exact ⟨t, command.trans answer⟩
  · exact ⟨_, time⟩

/-- Settles O1: the two arms of a step; unit time goes on by one nanosecond on the time master and runs back on no core. -/
theorem stepTakesTheFront : Obligations.StepTakesTheFront := by
  refine ⟨fun i s => step_cons rfl, fun s empty => ⟨step_nil empty, ?_, fun c => s.le_arrive_ut c _⟩⟩
  have now : (s.arrive (s.now + 1)).now = s.now + 1 := by simp
  simpa [State.now] using now

/-! ### Byte memory -/

/-- Settles O7: a byte lies inside or outside the range written. -/
theorem memoryReadsWhatWasWritten : Obligations.MemoryReadsWhatWasWritten := by
  refine fun m a l => ⟨fun b => ?_, writeBytes_wf l m a⟩
  split
  next inside =>
    have hk : b - a < l.length := by omega
    have read := readByte_writeBytes_inside l m a (b - a) hk
    rw [Nat.add_sub_cancel' inside.1] at read
    rw [read, List.getElem?_eq_getElem hk, Option.getD_some]
  next outside => exact readByte_writeBytes_outside l m a b (by omega)

/-! ### General registers (04 R90) -/

section registers
variable (x : TeCtx) {r q : Reg} (v : W64)

@[simp] theorem TeCtx.get_zero : x.get 0 = 0 := rfl

theorem TeCtx.set_of_zero (h : r.val = 0) : x.set r v = x := by
  rw [TeCtx.set, if_pos h]

/-- In a handler g24 to g31 are the handler's bank. -/
theorem TeCtx.set_bank (bank : x.handler = true) (h : 24 ≤ r.val) :
    x.set r v = { x with bank := x.bank.set ((r.val - 24) % 8) v (Nat.mod_lt _ (by decide)) } := by
  rw [TeCtx.set, if_neg (by omega), if_pos (by simp [bank, h])]

theorem TeCtx.set_run (h : r.val ≠ 0) (item : (x.handler && decide (24 ≤ r.val)) = false) :
    x.set r v = { x with run := { x.run with regs := x.run.regs.set r.val v } } := by
  rw [TeCtx.set, if_neg h, item, if_neg Bool.false_ne_true]

/-- A register reads as it was last written. -/
theorem TeCtx.get_set_same (h : r.val ≠ 0) : (x.set r v).get r = v := by
  cases item : x.handler && decide (24 ≤ r.val)
  case false =>
    rw [x.set_run v h item, TeCtx.get, if_neg h]
    simp [item]
  case true =>
    obtain ⟨bank, hr⟩ : x.handler = true ∧ 24 ≤ r.val := by simpa using item
    rw [x.set_bank v bank hr, TeCtx.get, if_neg h]
    simp [bank, hr]

/-- A write leaves every other register. -/
theorem TeCtx.get_set_ne (h : q ≠ r) : (x.set r v).get q = x.get q := by
  have hv : r.val ≠ q.val := fun e => h (Fin.ext e.symm)
  by_cases zero : r.val = 0
  · rw [x.set_of_zero v zero]
  cases item : x.handler && decide (24 ≤ r.val)
  case false =>
    rw [x.set_run v zero item]
    simp [TeCtx.get, Vector.getElem_set_ne, hv]
  case true =>
    obtain ⟨bank, hr⟩ : x.handler = true ∧ 24 ≤ r.val := by simpa using item
    rw [x.set_bank v bank hr]
    unfold TeCtx.get
    split
    · rfl
    split
    next inBank =>
      obtain ⟨_, hq⟩ : x.handler = true ∧ 24 ≤ q.val := by simpa using inBank
      exact Vector.getElem_set_ne (by omega) _ (by omega)
    next => rfl

end registers

/-- Settles O53: by the bank that a register of the item or of the handler lies in. -/
theorem yelcyRegisters : Obligations.YelcyRegisters :=
  fun x _ _ v => ⟨x.get_zero, x.set_of_zero v, x.get_set_same v, x.get_set_ne v,
    fun bank h => by rw [x.set_bank v bank h]⟩

end Sys2Proof.Machine

/-! PROOFS. Words of Yelcy instructions (04 R103, R104): a reader of words, and that it and `Instr.word` undo each other. -/

namespace Sys2Proof

open Machine

/-! ### The fields of a word -/

def fieldD (w : W32) : Reg := ⟨bits w.toNat 25 21, by unfold bits; omega⟩
def fieldA (w : W32) : Reg := ⟨bits w.toNat 20 16, by unfold bits; omega⟩
def fieldB (w : W32) : Reg := ⟨bits w.toNat 15 11, by unfold bits; omega⟩
def fieldTok (w : W32) : Tok := ⟨bits w.toNat 10 8, by unfold bits; omega⟩
def fieldPos (w : W32) : Fin 64 := ⟨bits w.toNat 15 10, by unfold bits; omega⟩
def fieldLen (w : W32) : Fin 64 := ⟨bits w.toNat 9 4, by unfold bits; omega⟩
def fieldSh (w : W32) : Fin 64 := ⟨bits w.toNat 5 0, by unfold bits; omega⟩
def fieldImm (w : W32) : Half := BitVec.ofNat 16 w.toNat
def fieldOff (w : W32) : BitVec 26 := BitVec.ofNat 26 w.toNat

/-- The instruction, where the fields that it does not use are 0 (R103). -/
def onlyIf (p : Prop) [Decidable p] (i : Instr) : Option Instr := if p then some i else none

/-- The instructions on two registers, by the code below them (R104). -/
def Instr.ofAlu (c : CoreId) (t : TeNo) (d a b : Reg) (code : Nat) : Option Instr :=
  match code with
  | 0 => some (.add c t d a b)
  | 1 => some (.sub c t d a b)
  | 2 => some (.and c t d a b)
  | 3 => some (.or c t d a b)
  | 4 => some (.xor c t d a b)
  | 5 => some (.sll c t d a b)
  | 6 => some (.srl c t d a b)
  | 7 => some (.sra c t d a b)
  | 8 => some (.slt c t d a b)
  | 9 => some (.sltu c t d a b)
  | 10 => some (.mul c t d a b)
  | 11 => some (.mulhu c t d a b)
  | 12 => some (.divu c t d a b)
  | 13 => some (.remu c t d a b)
  | _ => none

/-- The atomic instructions, by the code below their registers (R98, R104). -/
def Instr.ofAmo (c : CoreId) (t : TeNo) (d a b : Reg) (code : Nat) : Option Instr :=
  match code with
  | 0 => some (.amoadd c t d a b)
  | 1 => some (.amoswp c t d a b)
  | _ => none

/-- The instruction on a TE of a major opcode, with its operands from the fields of a word (R103, R104). -/
def Instr.ofOp (c : CoreId) (t : TeNo) (w : W32) (op : Nat) : Option Instr :=
  let n := w.toNat
  let d := fieldD w
  let a := fieldA w
  let b := fieldB w
  let imm := fieldImm w
  match op with
  | 0x00 => Instr.ofAlu c t d a b (bits n 10 0)
  | 0x01 => some (.addi c t d a imm)
  | 0x02 => some (.andi c t d a imm)
  | 0x03 => some (.ori c t d a imm)
  | 0x04 => some (.xori c t d a imm)
  | 0x05 => some (.slti c t d a imm)
  | 0x06 => some (.sltiu c t d a imm)
  | 0x07 => onlyIf (bits n 20 16 = 0) (.lui c t d imm)
  | 0x08 => onlyIf (bits n 15 6 = 0) (.slli c t d a (fieldSh w))
  | 0x09 => onlyIf (bits n 15 6 = 0) (.srli c t d a (fieldSh w))
  | 0x0A => onlyIf (bits n 15 6 = 0) (.srai c t d a (fieldSh w))
  | 0x0C => onlyIf (bits n 3 0 = 0 ∧ bits n 15 10 + bits n 9 4 + 1 ≤ 64) (.bfx c t d a (fieldPos w) (fieldLen w))
  | 0x0D => onlyIf (bits n 3 0 = 0 ∧ bits n 15 10 + bits n 9 4 + 1 ≤ 64) (.bfi c t d a (fieldPos w) (fieldLen w))
  | 0x10 => some (.ld8 c t d a imm)
  | 0x11 => some (.ld16 c t d a imm)
  | 0x12 => some (.ld32 c t d a imm)
  | 0x13 => some (.ld64 c t d a imm)
  | 0x14 => some (.st8 c t d a imm)
  | 0x15 => some (.st16 c t d a imm)
  | 0x16 => some (.st32 c t d a imm)
  | 0x17 => some (.st64 c t d a imm)
  | 0x18 => Instr.ofAmo c t d a b (bits n 10 0)
  | 0x19 => onlyIf (bits n 25 0 = 0) (.fence c t)
  | 0x1C => onlyIf (bits n 7 0 = 0) (.hld c t (fieldTok w) d a b)
  | 0x1D => onlyIf (bits n 7 0 = 0) (.hst c t (fieldTok w) d a b)
  | 0x1E => onlyIf (bits n 20 11 = 0 ∧ bits n 7 0 = 0) (.hwait c t d (fieldTok w))
  | 0x20 => some (.beq c t d a imm)
  | 0x21 => some (.bne c t d a imm)
  | 0x22 => some (.blt c t d a imm)
  | 0x23 => some (.bge c t d a imm)
  | 0x24 => some (.bltu c t d a imm)
  | 0x25 => some (.bgeu c t d a imm)
  | 0x26 => some (.jmp c t (fieldOff w))
  | 0x27 => some (.call c t (fieldOff w))
  | 0x28 => onlyIf (bits n 25 0 = 0) (.ret c t)
  | 0x2C => some (.loop c t d (BitVec.ofNat 12 n) (BitVec.ofNat 9 (bits n 20 12)))
  | 0x2D => onlyIf (bits n 25 0 = 0) (.lbrk c t)
  | 0x2E => onlyIf (bits n 20 0 = 0) (.lidx c t d)
  | 0x30 => onlyIf (bits n 10 0 = 0) (.emit c t d a b)
  | 0x31 => onlyIf (bits n 15 0 = 0) (.budg c t d a)
  | 0x32 => onlyIf (bits n 20 0 = 0) (.tick c t d)
  | 0x33 => onlyIf (bits n 25 21 = 0 ∧ bits n 10 0 = 0) (.postc c t a b)
  | 0x34 => onlyIf (bits n 10 0 = 0) (.send c t d a b)
  | 0x35 => onlyIf (bits n 25 21 = 0 ∧ bits n 15 0 = 0) (.evt c t a)
  | 0x36 => onlyIf (bits n 10 0 = 0) (.qitem c t d a b)
  | 0x37 => onlyIf (bits n 25 0 = 0) (.done c t)
  | 0x38 => onlyIf (bits n 20 16 = 0) (.rdctx c t d imm)
  | 0x39 => onlyIf (bits n 20 0 = 0) (.rdut c t d)
  | 0x3C => onlyIf (bits n 20 16 = 0) (.csrr c t d imm)
  | 0x3D => onlyIf (bits n 25 21 = 0) (.csrw c t a imm)
  | 0x3E => onlyIf (bits n 25 0 = 0) (.eret c t)
  | 0x3F => onlyIf (bits n 25 0 = 0) (.wfi c t)
  | _ => none

/-- The instruction that a word spells on a TE. -/
def Instr.ofWord (c : CoreId) (t : TeNo) (w : W32) : Option Instr := Instr.ofOp c t w (bits w.toNat 31 26)

/-! ### What the fields hold -/

/-- The number of a word whose fields fit. -/
theorem toNat_yWord {op a b low : Nat} (hop : op < 64) (fits : a * 2097152 + b * 65536 + low < 67108864) :
    (yWord op a b low).toNat = op * 67108864 + (a * 2097152 + b * 65536 + low) := by
  simp only [yWord, BitVec.toNat_ofNat]
  omega

section fields
variable {op a b low : Nat} (hop : op < 64)
include hop

theorem bits_op (fits : a * 2097152 + b * 65536 + low < 67108864) : bits (yWord op a b low).toNat 31 26 = op := by
  rw [toNat_yWord hop fits, bits]
  omega

theorem fieldD_yWord (d : Reg) (hb : b < 32) (hl : low < 65536) : fieldD (yWord op d.val b low) = d := by
  apply Fin.ext
  simp (disch := omega) only [fieldD, toNat_yWord, bits]
  omega

theorem fieldA_yWord (r : Reg) (ha : a < 32) (hl : low < 65536) : fieldA (yWord op a r.val low) = r := by
  apply Fin.ext
  simp (disch := omega) only [fieldA, toNat_yWord, bits]
  omega

theorem fieldB_yWord (r : Reg) (k : Nat) (ha : a < 32) (hb : b < 32) (hk : k < 2048) :
    fieldB (yWord op a b (r.val * 2048 + k)) = r := by
  apply Fin.ext
  simp (disch := omega) only [fieldB, toNat_yWord, bits]
  omega

theorem fieldImm_yWord (imm : Half) (ha : a < 32) (hb : b < 32) : fieldImm (yWord op a b imm.toNat) = imm := by
  apply BitVec.eq_of_toNat_eq
  simp (disch := omega) only [fieldImm, toNat_yWord, BitVec.toNat_ofNat]
  omega

theorem fieldOff_yWord (off : BitVec 26) : fieldOff (yWord op 0 0 off.toNat) = off := by
  apply BitVec.eq_of_toNat_eq
  simp (disch := omega) only [fieldOff, toNat_yWord, BitVec.toNat_ofNat]
  omega

theorem fieldTok_yWord (r : Reg) (tk : Tok) (ha : a < 32) (hb : b < 32) :
    fieldTok (yWord op a b (r.val * 2048 + tk.val * 256)) = tk := by
  apply Fin.ext
  simp (disch := omega) only [fieldTok, toNat_yWord, bits]
  omega

theorem fieldSh_yWord (sh : Fin 64) (ha : a < 32) (hb : b < 32) : fieldSh (yWord op a b sh.val) = sh := by
  apply Fin.ext
  simp (disch := omega) only [fieldSh, toNat_yWord, bits]
  omega

theorem fieldPos_yWord (p l : Fin 64) (ha : a < 32) (hb : b < 32) :
    fieldPos (yWord op a b (p.val * 1024 + l.val * 16)) = p := by
  apply Fin.ext
  simp (disch := omega) only [fieldPos, toNat_yWord, bits]
  omega

theorem fieldLen_yWord (p l : Fin 64) (ha : a < 32) (hb : b < 32) :
    fieldLen (yWord op a b (p.val * 1024 + l.val * 16)) = l := by
  apply Fin.ext
  simp (disch := omega) only [fieldLen, toNat_yWord, bits]
  omega

/-- The code below a third register. -/
theorem bits_code (r : Reg) {k : Nat} (ha : a < 32) (hb : b < 32) (hk : k < 2048) :
    bits (yWord op a b (r.val * 2048 + k)).toNat 10 0 = k := by
  simp (disch := omega) only [toNat_yWord, bits]
  omega

end fields

theorem onlyIf_of {p : Prop} [Decidable p] (h : p) (i : Instr) : onlyIf p i = some i := if_pos h

theorem forall_onlyIf {p : Prop} [Decidable p] {j : Instr} {P : Instr → Prop} :
    (∀ i, onlyIf p j = some i → P i) ↔ (p → P j) := by
  unfold onlyIf
  split <;> simp_all

/-! ### Reading what was written -/

/-- The third register of a word with nothing below it. -/
theorem fieldB_yWord_bare {op a b : Nat} (hop : op < 64) (r : Reg) (ha : a < 32) (hb : b < 32) :
    fieldB (yWord op a b (r.val * 2048)) = r := by
  rw [← Nat.add_zero (r.val * 2048), fieldB_yWord hop r 0 ha hb (by omega)]

/-- A token alone below the registers. -/
theorem fieldTok_yWord_bare {op a b : Nat} (hop : op < 64) (tk : Tok) (ha : a < 32) (hb : b < 32) :
    fieldTok (yWord op a b (tk.val * 256)) = tk := by
  have low : tk.val * 256 = (0 : Reg).val * 2048 + tk.val * 256 := by simp
  rw [low, fieldTok_yWord hop 0 tk ha hb]

section read
variable {c : CoreId} {t : TeNo} {op a b low : Nat} (hop : op < 64)
include hop

theorem Instr.ofWord_yWord (fits : a * 2097152 + b * 65536 + low < 67108864) :
    Instr.ofWord c t (yWord op a b low) = Instr.ofOp c t (yWord op a b low) op := by
  rw [Instr.ofWord, bits_op hop fits]

/-- Three registers and the code below them. -/
theorem Instr.ofWord_code {f : Reg → Reg → Reg → Nat → Option Instr} {d a b : Reg} {k : Nat} (hk : k < 2048)
    (h : ∀ w, Instr.ofOp c t w op = f (fieldD w) (fieldA w) (fieldB w) (bits w.toNat 10 0)) :
    Instr.ofWord c t (yWord op d.val a.val (b.val * 2048 + k)) = f d a b k := by
  rw [Instr.ofWord_yWord hop (by omega), h]
  simp (disch := omega) only [fieldD_yWord, fieldA_yWord, fieldB_yWord, bits_code]

/-- Two registers and an immediate. -/
theorem Instr.ofWord_imm {f : Reg → Reg → Half → Instr} {d a : Reg} {imm : Half}
    (h : ∀ w, Instr.ofOp c t w op = some (f (fieldD w) (fieldA w) (fieldImm w))) :
    Instr.ofWord c t (yWord op d.val a.val imm.toNat) = some (f d a imm) := by
  rw [Instr.ofWord_yWord hop (by omega), h]
  simp (disch := omega) only [fieldD_yWord, fieldA_yWord, fieldImm_yWord]

/-- One offset of 26 bits. -/
theorem Instr.ofWord_off {f : BitVec 26 → Instr} {off : BitVec 26} (h : ∀ w, Instr.ofOp c t w op = some (f (fieldOff w))) :
    Instr.ofWord c t (yWord op 0 0 off.toNat) = some (f off) := by
  rw [Instr.ofWord_yWord hop (by omega), h, fieldOff_yWord hop]

/-- A bit field's place and length. -/
theorem Instr.ofWord_field {f : Reg → Reg → Fin 64 → Fin 64 → Instr} {d a : Reg} {p l : Fin 64} (fits : p.val + l.val + 1 ≤ 64)
    (h : ∀ w, Instr.ofOp c t w op =
      onlyIf (bits w.toNat 3 0 = 0 ∧ bits w.toNat 15 10 + bits w.toNat 9 4 + 1 ≤ 64) (f (fieldD w) (fieldA w) (fieldPos w) (fieldLen w))) :
    Instr.ofWord c t (yWord op d.val a.val (p.val * 1024 + l.val * 16)) = some (f d a p l) := by
  rw [Instr.ofWord_yWord hop (by omega), h]
  simp (disch := omega) only [fieldD_yWord, fieldA_yWord, fieldPos_yWord, fieldLen_yWord, toNat_yWord, bits]
  exact onlyIf_of (by omega) _

/-- Fields that must be 0. -/
theorem Instr.ofWord_onlyIf {p : W32 → Prop} {dec : ∀ w, Decidable (p w)} {f : W32 → Instr} {i : Instr}
    (h : ∀ w, Instr.ofOp c t w op = onlyIf (p w) (f w)) (fits : a * 2097152 + b * 65536 + low < 67108864)
    (zero : p (yWord op a b low)) (same : f (yWord op a b low) = i) : Instr.ofWord c t (yWord op a b low) = some i := by
  rw [Instr.ofWord_yWord hop fits, h, onlyIf_of zero, same]

end read

/-- A word reads as the instruction that it is the word of. -/
theorem Instr.ofWord_of_word {i : Instr} {c : CoreId} {t : TeNo} {w : W32} (h : i.word = some w) (te : i.onTe = some (c, t)) :
    Instr.ofWord c t w = some i := by
  cases i <;> simp only [Instr.word, Instr.onTe, Option.some.injEq, Prod.mk.injEq, reduceCtorEq] at h te
  case bfx | bfi =>
    obtain ⟨rfl, rfl⟩ := te
    split at h
    next fits =>
      cases h
      exact Instr.ofWord_field (by omega) fits fun _ => rfl
    next => cases h
  all_goals
    obtain ⟨rfl, rfl⟩ := te
    subst h
  case add | sub | and | or | xor | sll | srl | sra | slt | sltu | mul | mulhu | divu | remu =>
    exact Instr.ofWord_code (f := Instr.ofAlu _ _) (by omega) (by omega) fun _ => rfl
  case amoadd | amoswp => exact Instr.ofWord_code (f := Instr.ofAmo _ _) (by omega) (by omega) fun _ => rfl
  case addi | andi | ori | xori | slti | sltiu | ld8 | ld16 | ld32 | ld64 | st8 | st16 | st32 | st64 | beq | bne | blt | bge
      | bltu | bgeu => exact Instr.ofWord_imm (by omega) fun _ => rfl
  case jmp | call => exact Instr.ofWord_off (by omega) fun _ => rfl
  case loop rc bound len =>
    rw [Instr.ofWord_yWord (by omega) (by omega)]
    simp only [Instr.ofOp, Option.some.injEq, Instr.loop.injEq, true_and, fieldD, toNat_yWord (show 44 < 64 by omega)
      (show rc.val * 2097152 + 0 * 65536 + (len.toNat * 4096 + bound.toNat) < 67108864 by omega), bits]
    exact ⟨Fin.ext (by simp only; omega), BitVec.eq_of_toNat_eq (by rw [BitVec.toNat_ofNat]; omega),
      BitVec.eq_of_toNat_eq (by rw [BitVec.toNat_ofNat]; omega)⟩
  all_goals
    refine Instr.ofWord_onlyIf (by omega) (fun _ => rfl) (by omega) ?_ ?_
    · simp (disch := omega) only [toNat_yWord, bits]
      omega
    · simp (disch := omega) only [fieldD_yWord, fieldA_yWord, fieldB_yWord, fieldB_yWord_bare, fieldImm_yWord, fieldTok_yWord,
        fieldTok_yWord_bare, fieldSh_yWord]

end Sys2Proof

/-! PROOFS. The verifier's reading of a code word (04 R119, rule 0x01) against `Instr.word`. -/

namespace Sys2Proof

open Machine

/-! ### Writing what was read -/

theorem yWord_eq {w : W32} {op a b low : Nat} (h : op * 67108864 + (a * 2097152 + b * 65536 + low) = w.toNat) :
    yWord op a b low = w := by
  apply BitVec.eq_of_toNat_eq
  rw [← h, yWord, BitVec.toNat_ofNat]
  omega

theorem Instr.word_of_ofAlu {i : Instr} {c : CoreId} {t : TeNo} {d a b : Reg} {code : Nat}
    (h : Instr.ofAlu c t d a b code = some i) : i.word = some (yWord 0x00 d.val a.val (b.val * 2048 + code)) := by
  revert i
  unfold Instr.ofAlu
  split <;> simp [Instr.word]

theorem Instr.word_of_ofAmo {i : Instr} {c : CoreId} {t : TeNo} {d a b : Reg} {code : Nat}
    (h : Instr.ofAmo c t d a b code = some i) : i.word = some (yWord 0x18 d.val a.val (b.val * 2048 + code)) := by
  revert i
  unfold Instr.ofAmo
  split <;> simp [Instr.word]

/-- A word that reads as an instruction is that instruction's word. -/
theorem Instr.word_of_ofWord {c : CoreId} {t : TeNo} {w : W32} : ∀ i, Instr.ofWord c t w = some i → i.word = some w := by
  have hw := w.isLt
  unfold Instr.ofWord
  generalize hop : bits w.toNat 31 26 = op
  unfold Instr.ofOp
  dsimp only
  split
  case h_1 =>
    intro i h
    simp only [Instr.word_of_ofAlu h, fieldD, fieldA, fieldB, Option.some.injEq]
    exact yWord_eq (by unfold bits at *; omega)
  case h_22 =>
    intro i h
    simp only [Instr.word_of_ofAmo h, fieldD, fieldA, fieldB, Option.some.injEq]
    exact yWord_eq (by unfold bits at *; omega)
  case h_12 | h_13 =>
    refine forall_onlyIf.2 fun ⟨zero, fits⟩ => (if_pos fits).trans ?_
    simp only [fieldD, fieldA, fieldPos, fieldLen, Option.some.injEq]
    exact yWord_eq (by unfold bits at *; omega)
  case h_53 =>
    intro i h
    cases h
  all_goals
    simp only [forall_onlyIf, Option.some.injEq, forall_eq']
    intros
    simp only [Instr.word, fieldD, fieldA, fieldB, fieldImm, fieldOff, fieldTok, fieldSh, BitVec.toNat_ofNat, Option.some.injEq]
    exact yWord_eq (by unfold bits at *; omega)

/-! ### The verifier (R119, rule 0x01) -/

/-- What the verifier sees of an instruction. -/
def Instr.verified : Instr → VIns
  | .beq _ _ _ _ off | .bne _ _ _ _ off | .blt _ _ _ _ off | .bge _ _ _ _ off | .bltu _ _ _ _ off | .bgeu _ _ _ _ off =>
    .branch off.toInt
  | .jmp _ _ off => .jump off.toInt
  | .call _ _ off => .call off.toInt
  | .loop _ _ rc bound len => .loop bound.toNat len.toNat (decide (rc.val = 0))
  | .ret _ _ => .ret
  | .lbrk _ _ => .lbrk
  | .lidx _ _ _ => .lidx
  | .ld8 _ _ _ ra imm | .st8 _ _ _ ra imm => if ra.val = 0 then .mem0 1 imm.toInt else .plain
  | .ld16 _ _ _ ra imm | .st16 _ _ _ ra imm => if ra.val = 0 then .mem0 2 imm.toInt else .plain
  | .ld32 _ _ _ ra imm | .st32 _ _ _ ra imm => if ra.val = 0 then .mem0 4 imm.toInt else .plain
  | .ld64 _ _ _ ra imm | .st64 _ _ _ ra imm => if ra.val = 0 then .mem0 8 imm.toInt else .plain
  | .emit _ _ _ _ _ | .budg _ _ _ _ => .script
  | .tick _ _ _ => .tick
  | .done _ _ => .done
  | .eret _ _ => .eret
  | .csrr _ _ _ _ | .csrw _ _ _ _ | .wfi _ _ => .unitOnly
  | _ => .plain

/-- What the verifier sees where no instruction need be spelled. -/
def verifiedOf (o : Option Instr) : VIns := (o.map Instr.verified).getD .bad

theorem verifiedOf_onlyIf {n : Nat} {i : Instr} : verifiedOf (onlyIf (n = 0) i) = vWhen (n == 0) i.verified := by
  unfold onlyIf vWhen
  split <;> simp_all [verifiedOf]

theorem verifiedOf_onlyIf_two {n m : Nat} {i : Instr} :
    verifiedOf (onlyIf (n = 0 ∧ m = 0) i) = vWhen (n == 0 && m == 0) i.verified := by
  unfold onlyIf vWhen
  split <;> simp_all [verifiedOf]

theorem verifiedOf_onlyIf_le {n m k : Nat} {i : Instr} :
    verifiedOf (onlyIf (n = 0 ∧ m ≤ k) i) = vWhen (n == 0 && decide (m ≤ k)) i.verified := by
  unfold onlyIf vWhen
  split <;> simp_all [verifiedOf]

theorem verifiedOf_ofAlu {c : CoreId} {t : TeNo} {d a b : Reg} (code : Nat) :
    verifiedOf (Instr.ofAlu c t d a b code) = vWhen (decide (code ≤ 0x00D)) .plain := by
  rcases Nat.lt_or_ge code 14 with listed | beyond
  · interval_cases code <;> rfl
  · obtain ⟨k, rfl⟩ := Nat.exists_eq_add_of_le' beyond
    simp [Instr.ofAlu, verifiedOf, vWhen]

theorem verifiedOf_ofAmo {c : CoreId} {t : TeNo} {d a b : Reg} (code : Nat) :
    verifiedOf (Instr.ofAmo c t d a b code) = vWhen (decide (code ≤ 1)) .plain := by
  rcases Nat.lt_or_ge code 2 with listed | beyond
  · interval_cases code <;> rfl
  · obtain ⟨k, rfl⟩ := Nat.exists_eq_add_of_le' beyond
    simp [Instr.ofAmo, verifiedOf, vWhen]

/-- The verifier reads a word as the instruction that it spells, and rejects it where it spells none. -/
theorem vDecode_eq (c : CoreId) (t : TeNo) (w : W32) : vDecode w = verifiedOf (Instr.ofWord c t w) := by
  unfold vDecode Instr.ofWord
  dsimp only
  have hop : bits w.toNat 31 26 < 64 := by unfold bits; omega
  generalize bits w.toNat 31 26 = op at hop
  match op, hop with
  | 0, _ => exact (verifiedOf_ofAlu _).symm
  | 24, _ => exact (verifiedOf_ofAmo _).symm
  | 12, _ | 13, _ =>
    symm
    refine verifiedOf_onlyIf_le.trans ?_
    rfl
  | 30, _ | 51, _ | 53, _ =>
    symm
    refine verifiedOf_onlyIf_two.trans ?_
    rfl
  | 7, _ | 8, _ | 9, _ | 10, _ | 25, _ | 28, _ | 29, _ | 40, _ | 45, _ | 46, _ | 48, _ | 49, _
    | 50, _ | 52, _ | 54, _ | 55, _ | 56, _ | 57, _ | 60, _ | 61, _ | 62, _ | 63, _ =>
    symm
    refine verifiedOf_onlyIf.trans ?_
    rfl
  | 44, _ =>
    have bound : bits w.toNat 11 0 = (BitVec.ofNat 12 w.toNat).toNat := by simp [bits]
    have len : bits w.toNat 20 12 = (BitVec.ofNat 9 (bits w.toNat 20 12)).toNat := by simp [bits]
    exact congrArg₂ (VIns.loop · · (decide ((fieldD w).val = 0))) bound len
  | 1, _ | 2, _ | 3, _ | 4, _ | 5, _ | 6, _ | 11, _ | 14, _ | 15, _ | 16, _ | 17, _ | 18, _
    | 19, _ | 20, _ | 21, _ | 22, _ | 23, _ | 26, _ | 27, _ | 31, _ | 32, _ | 33, _ | 34, _
    | 35, _ | 36, _ | 37, _ | 38, _ | 39, _ | 41, _ | 42, _ | 43, _ | 47, _ | 58, _ | 59, _ =>
    rfl
  | beyond + 64, h => exact absurd h (by omega)

/-- An instruction with a word is one of a program, on a TE. -/
theorem Instr.onTe_of_word {i : Instr} {w : W32} (h : i.word = some w) : ∃ c t, i.onTe = some (c, t) := by
  have te : i.onTe.isSome = true := by
    revert h
    cases i <;> simp [Instr.word, Instr.onTe]
  obtain ⟨⟨c, t⟩, te⟩ := Option.isSome_iff_exists.1 te
  exact ⟨c, t, te⟩

/-- The verifier sees an instruction in the word of each. -/
theorem Instr.verified_ne_bad (i : Instr) : i.verified ≠ .bad := by
  unfold Instr.verified
  split <;> (try split) <;> exact VIns.noConfusion

/-- The verifier takes exactly the words that spell an instruction. -/
theorem vDecode_ne_bad_iff (w : W32) : vDecode w ≠ .bad ↔ ∃ i : Instr, i.word = some w := by
  constructor
  · intro taken
    rw [vDecode_eq .a 0 w] at taken
    cases h : Instr.ofWord .a 0 w
    case none => exact absurd (by rw [h]; rfl) taken
    case some i => exact ⟨i, Instr.word_of_ofWord i h⟩
  · rintro ⟨i, h⟩
    obtain ⟨c, t, te⟩ := Instr.onTe_of_word h
    rw [vDecode_eq c t w, Instr.ofWord_of_word h te]
    exact i.verified_ne_bad

theorem vDecode_of_word {i : Instr} {w : W32} (h : i.word = some w) : vDecode w = i.verified := by
  obtain ⟨c, t, te⟩ := Instr.onTe_of_word h
  rw [vDecode_eq c t w, Instr.ofWord_of_word h te]
  rfl

/-- Instructions of one TE with the same word are the same. -/
theorem Instr.word_injective {i j : Instr} {w : W32} (hi : i.word = some w) (hj : j.word = some w) (te : i.onTe = j.onTe) :
    i = j := by
  obtain ⟨c, t, on⟩ := Instr.onTe_of_word hi
  exact Option.some.inj ((Instr.ofWord_of_word hi on).symm.trans (Instr.ofWord_of_word hj (te ▸ on)))

/-- Settles O54: a reader of words undoes `Instr.word`, and the verifier sees what it reads. -/
theorem yelcyEncodings : Obligations.YelcyEncodings := by
  refine ⟨⟨vDecode_ne_bad_iff, fun i j w hi hj te => Instr.word_injective hi hj te, fun i w h => ?_⟩, by decide⟩
  cases i
  case beq | bne | blt | bge | bltu | bgeu | jmp | call | loop | ret | lbrk | tick | done | eret | csrr | csrw | wfi =>
    exact vDecode_of_word h
  all_goals trivial

end Sys2Proof

/-! PROOFS. An instruction on a TE that may not run it, and the item's budget (04 R112, R115; 05 R139). -/

namespace Sys2Proof.Machine

/-! ### Where nothing runs, and past the budget -/

/-- Every instruction of a program but `wfi` is one of a meaning on its TE. -/
theorem means_of_onTe {i : Instr} {c : CoreId} {n : TeNo} (on : i.onTe = some (c, n)) (run : i ≠ .wfi c n) :
    ∃ f, Means i c n f := by
  cases i
  case wfi d m =>
    obtain ⟨rfl, rfl⟩ : d = c ∧ m = n := by simpa [Instr.onTe] using on
    exact absurd rfl run
  all_goals cases on
  all_goals exact ⟨_, fun _ => rfl⟩

theorem State.instr_of_idle {s : State} {c n} (f) (idle : s.teRuns c n = false) : s.instr c n f = s := by
  simp [State.instr, idle]

theorem State.instr_of_overBudget {s : State} {c n} (f) (runs : s.teRuns c n = true)
    (spent : s.overBudget (s.teCtx c n) = true) : s.instr c n f = s.teFault c n 0x01 := by
  simp [State.instr, runs, spent]

theorem waiting_of_teRuns {s : State} {c n} (runs : s.teRuns c n = true) : (s.teSt c n).waiting = false := by
  simp only [State.teRuns, Bool.and_eq_true, Bool.not_eq_true'] at runs
  exact runs.2

/-- A TE that runs does not wait, so `wfi` there is an instruction as any other (R117). -/
theorem exec_wfi_of_teRuns {s : State} {c : CoreId} {n : TeNo} (runs : s.teRuns c n = true) :
    ∃ f, exec (.wfi c n) s = .next (s.instr c n f) :=
  ⟨_, by simp only [exec, execWfi, waiting_of_teRuns runs, Bool.false_and, Bool.false_eq_true, if_false]; rfl⟩

/-! ### A fault -/

section fault
variable {s : State} {c d : CoreId} {n m : TeNo}

theorem State.teSt_sealScript {x k recs} : (s.sealScript x k recs).teSt d m = s.teSt d m :=
  State.teSt_of_keep State.sealScript_keep (by decide) d m
theorem State.teSt_finish {h a b k} : (s.finish h a b k).teSt d m = s.teSt d m :=
  State.teSt_of_keep State.finish_keep (by decide) d m
theorem State.teSt_logLine {b} : (s.logLine b).teSt d m = s.teSt d m :=
  State.teSt_of_keep State.logLine_keep (by decide) d m
theorem State.teSt_faultRecord {i b} : (s.faultRecord c i b).teSt d m = s.teSt d m :=
  State.teSt_of_keep State.faultRecord_keep (by decide) d m
theorem State.teSt_count {e l k} : (s.count c e l k).teSt d m = s.teSt d m :=
  State.teSt_of_keep State.count_keep (by decide) d m
theorem State.teSt_bumpIslet {i k} : (s.bumpIslet c i k).teSt d m = s.teSt d m :=
  State.teSt_of_keep State.bumpIslet_keep (by decide) d m
theorem State.teSt_countUnitFault : s.countUnitFault.teSt d m = s.teSt d m :=
  State.teSt_of_keep State.countUnitFault_keep (by decide) d m
theorem State.teSt_dropTokens {l} : (s.dropTokens c n l).teSt d m = s.teSt d m :=
  State.teSt_of_keep State.dropTokens_keep (by decide) d m
theorem State.teSt_notePolicy {r} : (s.notePolicy c r).teSt d m = s.teSt d m :=
  State.teSt_of_keep State.notePolicy_keep (by decide) d m
theorem State.teSt_noteAbort {r} : (s.noteAbort c r).teSt d m = s.teSt d m :=
  State.teSt_of_keep State.noteAbort_keep (by decide) d m
theorem State.teSt_settleSource {i} : (s.settleSource i).teSt d m = s.teSt d m :=
  State.teSt_of_keep State.settleSource_keep (by decide) d m
theorem State.teSt_freeImages : (s.freeImages c).teSt d m = s.teSt d m :=
  State.teSt_of_keep State.freeImages_keep (by decide) d m

theorem State.teSt_vacate_of_unstaged (none : (s.teSt c n).staged = none) :
    (s.vacate c n).teSt c n = { s.teSt c n with cur := .none, waiting := false, late := false } := by
  simp [State.vacate, State.startStaged, none]

/-- The accounts of an abort, before the item leaves its TE (R115, R116). -/
theorem State.abortItem_eq {r : Run} {k : Nat} : ∃ u : State, u.teSt c n = s.teSt c n ∧ s.abortItem c n r k =
    (((((((u.setTeSt c n { u.teSt c n with inHandler := false }).dropTokens c n r.slot).notePolicy c r).noteAbort c r).vacate
      c n).settleSource r.item).freeImages c) := by
  refine ⟨_, ?_, rfl⟩
  split <;> split <;> split <;> split <;> simp only [State.teSt_sealScript, State.teSt_finish, State.teSt_logLine, State.teSt_faultRecord, State.teSt_count,
    State.teSt_bumpIslet, State.teSt_countUnitFault]

/-- What an aborted item leaves behind does not change its TE, save that the TE is free (R115). -/
theorem State.teSt_abortItem {r : Run} {k : Nat} (none : (s.teSt c n).staged = none) :
    (s.abortItem c n r k).teSt c n = { s.teSt c n with cur := .none, inHandler := false, waiting := false, late := false } := by
  obtain ⟨u, same, eq⟩ := s.abortItem_eq (c := c) (n := n) (r := r) (k := k)
  rw [eq, State.teSt_freeImages, State.teSt_settleSource, State.teSt_vacate_of_unstaged] <;>
    simp only [State.teSt_noteAbort, State.teSt_notePolicy, State.teSt_dropTokens, State.teSt_setTeSt, same, none]

theorem State.teFault_cur {k : Nat} (none : (s.teSt c n).staged = none) (item : (s.teSt c n).cur.isSome = true) :
    ((s.teFault c n k).teSt c n).cur = .none := by
  obtain ⟨r, cur⟩ := Option.isSome_iff_exists.1 item
  simp only [State.teFault, cur, State.teSt_abortItem none]

theorem State.teFault_inHandler {k : Nat} (none : (s.teSt c n).staged = none) :
    ((s.teFault c n k).teSt c n).inHandler = false := by
  cases cur : (s.teSt c n).cur
  case none => simp only [State.teFault, cur, State.teSt_setTeSt]
  case some r => simp only [State.teFault, cur, State.teSt_abortItem none]

end fault

/-- Settles O55: with no item, no handler or no clock an instruction has no effect (log entry 29), past the budget it faults. -/
theorem yelcyBudgetAndFaults : Obligations.YelcyBudgetAndFaults := by
  refine ⟨fun i c n s on => ⟨fun idle run => ?_, fun runs spent => ?_⟩,
    fun c n k s none => ⟨State.teFault_cur none, State.teFault_inHandler none⟩⟩
  · obtain ⟨f, means⟩ := means_of_onTe on run
    rw [means s, State.instr_of_idle f idle]
  · obtain ⟨f, step⟩ : ∃ f, exec i s = .next (s.instr c n f) := by
      by_cases wait : i = .wfi c n
      · exact wait ▸ exec_wfi_of_teRuns runs
      · exact (means_of_onTe on wait).imp fun f means => means s
    rw [step, State.instr_of_overBudget f runs spent]

end Sys2Proof.Machine

/-! PROOFS. Yelcy instructions that change nothing but their TE's context (04 R103, R104, R107, R108). -/

namespace Sys2Proof.Machine

section context
variable {i : Instr} {c : CoreId} {n : TeNo} {s : State}

/-- An instruction that completes leaves its context on the TE. -/
theorem Means.yields_after {f} (means : Means i c n f) (ready : TeReady s c n) {t : State} {y : TeCtx}
    (h : f s (s.teCtx c n) = .ok t y) (on : y.On t c n) : Yields i s fun u => u.teCtx c n = y.after :=
  means.yields_retire ready h on.teCtx_retire

/-- An instruction that only writes a register goes on with that register written (R104). -/
theorem Means.yields_set {rd : Reg} {v : State → TeCtx → W64} (means : Means i c n fun s x => .ok s (x.set rd (v s x)))
    (ready : TeReady s c n) {w : W64} (h : v s (s.teCtx c n) = w) :
    Yields i s fun u => u.teCtx c n = ((s.teCtx c n).set rd w).after :=
  means.yields_after ready (by rw [h]) ((s.teCtx_on c n).set rd w)

end context

/-! ### Values (R104) -/

theorem flag_slt (a b : W64) : flag (a.slt b) = if a.toInt < b.toInt then 1 else 0 := by
  simp [flag, BitVec.slt]

theorem flag_ult (a b : W64) : flag (a.ult b) = if a.toNat < b.toNat then 1 else 0 := by
  simp [flag, BitVec.ult]

theorem mul_eq_ofNat (a b : W64) : a * b = BitVec.ofNat 64 (a.toNat * b.toNat) := rfl

theorem divu64_eq (a b : W64) : divu64 a b = if b = 0 then BitVec.allOnes 64 else a / b := by
  unfold divu64
  split
  · rfl
  · apply BitVec.eq_of_toNat_eq
    rw [BitVec.toNat_ofNat, BitVec.toNat_udiv]
    exact Nat.mod_eq_of_lt (Nat.div_lt_of_lt a.isLt)

theorem remu64_eq (a b : W64) : remu64 a b = if b = 0 then a else a % b := by
  unfold remu64
  split
  · rfl
  · apply BitVec.eq_of_toNat_eq
    rw [BitVec.toNat_ofNat, BitVec.toNat_umod]
    exact Nat.mod_eq_of_lt ((Nat.mod_le _ _).trans_lt a.isLt)

/-- `bfi` puts the low `len` bits of `a` at `pos` and keeps the other bits of `d`. -/
theorem getLsbD_bfi64 (d a : W64) {pos len k : Nat} (hk : k < 64) : (bfi64 d a pos len).getLsbD k =
    if pos ≤ k ∧ k < pos + len then a.getLsbD (k - pos) else d.getLsbD k := by
  have mask : ((2 ^ len - 1) * 2 ^ pos).testBit k = decide (pos ≤ k ∧ k < pos + len) := by
    rw [Nat.testBit_mul_two_pow, Nat.testBit_two_pow_sub_one]
    by_cases hp : pos ≤ k <;> simp [hp]
    omega
  have field : (a.toNat % 2 ^ len * 2 ^ pos).testBit k = (decide (pos ≤ k ∧ k < pos + len) && a.getLsbD (k - pos)) := by
    rw [Nat.testBit_mul_two_pow, Nat.testBit_mod_two_pow]
    by_cases hp : pos ≤ k <;> simp [hp, BitVec.getLsbD]
    congr 1
    simp; omega
  simp only [bfi64, BitVec.getLsbD_or, BitVec.getLsbD_and, BitVec.getLsbD_not, BitVec.getLsbD_ofNat, mask, field, hk,
    decide_true, Bool.true_and]
  by_cases h : pos ≤ k ∧ k < pos + len <;> simp [h]

/-- Settles O46: each of the instructions writes its destination only, and the value written is that of the table in R104. -/
theorem yelcyArithmetic : Obligations.YelcyArithmetic := by
  refine ⟨fun c n rd ra rb imm sh len s x ready hx => ?_, fun c n rd ra pos len s x ready hx => ?_⟩
  · subst hx
    have sets {i : Instr} {v : State → TeCtx → W64} (means : Means i c n fun s x => .ok s (x.set rd (v s x))) {w : W64}
        (h : v s (s.teCtx c n) = w) : Yields i s fun t => t.teCtx c n = ((s.teCtx c n).set rd w).after :=
      means.yields_set ready h
    simp only [List.forall_mem_cons]
    exact ⟨sets (fun _ => rfl) rfl, sets (fun _ => rfl) rfl, sets (fun _ => rfl) rfl, sets (fun _ => rfl) rfl, sets (fun _ => rfl) rfl, sets (fun _ => rfl) rfl,
      sets (fun _ => rfl) rfl, sets (fun _ => rfl) rfl, sets (fun _ => rfl) (flag_slt _ _), sets (fun _ => rfl) (flag_ult _ _),
      sets (fun _ => rfl) rfl, sets (fun _ => rfl) rfl, sets (fun _ => rfl) (divu64_eq _ _), sets (fun _ => rfl) (remu64_eq _ _),
      sets (fun _ => rfl) rfl, sets (fun _ => rfl) rfl, sets (fun _ => rfl) rfl, sets (fun _ => rfl) rfl, sets (fun _ => rfl) (flag_slt _ _),
      sets (fun _ => rfl) (flag_ult _ _), sets (fun _ => rfl) rfl, sets (fun _ => rfl) rfl, sets (fun _ => rfl) rfl, sets (fun _ => rfl) rfl,
      sets (fun _ => rfl) rfl, sets (fun _ => rfl) rfl, sets (fun _ => rfl) rfl, fun _ h => absurd h List.not_mem_nil⟩
  · subst hx
    obtain ⟨t, step, after⟩ := Means.yields_set (i := .bfi c n rd ra pos len) (fun _ => rfl) ready rfl
    exact ⟨t, step, _, after, fun k hk => getLsbD_bfi64 _ _ hk⟩

end Sys2Proof.Machine

/-! PROOFS. Branches, jumps, calls and loops (04 R103, R107, R108). -/

namespace Sys2Proof.Machine

section flow
variable {x : TeCtx} {s : State} {c : CoreId} {n : TeNo}

theorem TeCtx.On.jump (h : x.On s c n) (a) : (x.jump a).On s c n := ⟨h.core, h.te, h.handler⟩

/-- A jump to the target of an offset goes there: the target is an address (R103). -/
theorem TeCtx.jump_target (x : TeCtx) (off : W64) :
    x.jump (x.target off) = { x with next := (BitVec.ofNat 64 (x.pc + 4) + off * 4).toNat } := by
  unfold TeCtx.jump TeCtx.target
  rw [Nat.mod_eq_of_lt (BitVec.isLt _)]

theorem bne_eq_decide (a b : W64) : (a != b) = decide (a ≠ b) := by
  by_cases h : a = b <;> simp [h]

theorem not_slt_eq (a b : W64) : (!a.slt b) = decide (b.toInt ≤ a.toInt) := by
  simp [BitVec.slt, ← decide_not]

theorem not_ult_eq (a b : W64) : (!a.ult b) = decide (b.toNat ≤ a.toNat) := by
  simp [BitVec.ult, ← decide_not]

/-- A branch goes to its target when its condition holds, and on when it does not. -/
theorem yields_branch {i : Instr} {ra rb : Reg} {off : Half} {p : W64 → W64 → Bool} {q : Bool}
    (means : ∀ s, exec i s = .next (s.branch c n ra rb off p))
    (ready : TeReady s c n) (cond : p ((s.teCtx c n).get ra) ((s.teCtx c n).get rb) = q) :
    Yields i s fun t => t.teCtx c n = (if q then ({ s.teCtx c n with
      next := (BitVec.ofNat 64 ((s.teCtx c n).pc + 4) + off.signExtend 64 * 4).toNat } : TeCtx) else s.teCtx c n).after := by
  refine Means.yields_after means ready (y := if q then _ else _) (by rw [cond, TeCtx.jump_target]; rfl) ?_
  split
  · exact ⟨rfl, rfl, rfl⟩
  · exact s.teCtx_on c n

theorem yields_jmp (ready : TeReady s c n) (off : BitVec 26) : Yields (.jmp c n off) s fun t => t.teCtx c n =
    ({ s.teCtx c n with next := (BitVec.ofNat 64 ((s.teCtx c n).pc + 4) + off.signExtend 64 * 4).toNat } : TeCtx).after :=
  Means.yields_after (fun _ => rfl) ready (by rw [TeCtx.jump_target]) ⟨rfl, rfl, rfl⟩

theorem yields_call (ready : TeReady s c n) (off : BitVec 26) : Yields (.call c n off) s fun t => t.teCtx c n =
    ({ s.teCtx c n with
      next := (BitVec.ofNat 64 ((s.teCtx c n).pc + 4) + off.signExtend 64 * 4).toNat,
      run := { (s.teCtx c n).run with rets := (((s.teCtx c n).pc + 4) :: (s.teCtx c n).run.rets).take 8 } } : TeCtx).after :=
  Means.yields_after (fun _ => rfl) ready
    (by unfold TeCtx.jump TeCtx.target; rw [Nat.mod_eq_of_lt (BitVec.isLt _)]) ⟨rfl, rfl, rfl⟩

/-- `ret` as an instruction (R108). -/
theorem means_ret : Means (.ret c n) c n fun s x =>
    match x.run.rets with
    | [] => .ok s x
    | a :: r => .ok s ({ x with run := { x.run with rets := r } }.jump a) := fun _ => rfl

/-- `lbrk` as an instruction (R107). -/
theorem means_lbrk : Means (.lbrk c n) c n fun s x =>
    match x.run.loops with
    | [] => .ok s x
    | f :: r => .ok s ({ x with run := { x.run with loops := r } }.jump (f.start + 4 * f.len)) := fun _ => rfl

/-- `lidx` as an instruction (R107; log entry 3). -/
theorem means_lidx {rd : Reg} : Means (.lidx c n rd) c n fun s x =>
    match x.run.loops with
    | f :: _ => .ok s (x.set rd (BitVec.ofNat 64 f.idx))
    | [] => .ok s.draw.2 (x.set rd (Config.freeWord s.draw.1)) := fun _ => rfl

/-- The frame that a `loop` of `k` passes opens (R107). -/
def TeCtx.loopFrame (x : TeCtx) (len : BitVec 9) (k : Nat) : LoopFrame :=
  { start := x.pc + 4, len := len.toNat, left := k, idx := 0, depth := x.run.rets.length }

/-- `loop` as an instruction (R107). -/
theorem means_loop {rc : Reg} {bound : BitVec 12} {len : BitVec 9} : Means (.loop c n rc bound len) c n fun s x =>
    if (if rc.val = 0 then bound.toNat else min (x.get rc).toNat bound.toNat) = 0 ∨ len = 0 then
      .ok s (x.jump (x.pc + 4 + 4 * len.toNat))
    else .ok s { x with run := { x.run with loops := (x.loopFrame len
      (if rc.val = 0 then bound.toNat else min (x.get rc).toNat bound.toNat) :: x.run.loops).take 4 } } := fun _ => rfl

/-! ### The end of a loop body (R107) -/

theorem settleLoops_next_pass {f : LoopFrame} {r : List LoopFrame} {d a : Nat} (depth : f.depth = d) (ends : a = f.start + 4 * f.len)
    (more : 1 < f.left) : settleLoops (f :: r) d a = ({ f with left := f.left - 1, idx := f.idx + 1 } :: r, f.start) := by
  rw [settleLoops, if_pos ⟨depth, ends⟩, if_pos more]

theorem settleLoops_last_pass {f : LoopFrame} {r : List LoopFrame} {d a : Nat} (depth : f.depth = d) (ends : a = f.start + 4 * f.len)
    (last : f.left ≤ 1) : settleLoops (f :: r) d a = settleLoops r d a := by
  rw [settleLoops, if_pos ⟨depth, ends⟩, if_neg (Nat.not_lt.2 last)]

end flow

/-- Settles O49. What `lidx` reads with no loop open is free (log entry 3); `ret` and `lbrk` with nothing to pop go on, as the
model chooses. -/
theorem yelcyControlFlow : Obligations.YelcyControlFlow := by
  refine ⟨fun c n s x ready hx => ?_, fun x f r loops depth ends => ⟨fun more => ?_, fun last empty => ?_⟩⟩
  · subst hx
    refine ⟨fun ra rb off => ?_, fun off => ⟨yields_jmp ready off, yields_call ready off⟩, fun a r rets => ?_,
      fun rc bound len k hk => ⟨fun zero => ?_, fun pos nonempty => ?_⟩, fun f r loops => ⟨?_, fun rd => ?_⟩, fun none => ?_,
      fun none => ⟨?_, fun rd => ?_⟩⟩
    · simp only [List.forall_mem_cons]
      exact ⟨yields_branch (fun _ => rfl) ready rfl, yields_branch (fun _ => rfl) ready (bne_eq_decide _ _),
        yields_branch (fun _ => rfl) ready rfl, yields_branch (fun _ => rfl) ready (not_slt_eq _ _),
        yields_branch (fun _ => rfl) ready rfl, yields_branch (fun _ => rfl) ready (not_ult_eq _ _),
        fun _ h => absurd h List.not_mem_nil⟩
    · exact means_ret.yields_after ready (by simp only [rets]; rfl) ⟨rfl, rfl, rfl⟩
    · exact means_loop.yields_after ready (by rw [if_pos (.inl (hk.symm.trans zero))]; rfl) ⟨rfl, rfl, rfl⟩
    · subst hk
      exact means_loop.yields_after ready (by rw [if_neg (not_or.2 ⟨pos, nonempty⟩)]; rfl) ⟨rfl, rfl, rfl⟩
    · exact means_lbrk.yields_after ready (by simp only [loops]; rfl) ⟨rfl, rfl, rfl⟩
    · exact means_lidx.yields_after ready (by simp only [loops]) ((s.teCtx_on c n).set rd _)
    · exact means_ret.yields_after ready (by simp only [none]) (s.teCtx_on c n)
    · exact means_lbrk.yields_after ready (by simp only [none]) (s.teCtx_on c n)
    · obtain ⟨t, step, after⟩ := (means_lidx (rd := rd)).yields_after ready (by simp only [none]; rfl)
        (((s.teCtx_on c n).set rd _).of_teSt_eq (State.teSt_of_keep State.draw_keep (by decide) c n))
      exact ⟨t, step, _, after⟩
  · simp only [TeCtx.settle, loops, settleLoops_next_pass depth ends more, and_self]
  · simp only [TeCtx.settle, loops, settleLoops_last_pass depth ends last, empty, settleLoops, and_self]

end Sys2Proof.Machine

/-! PROOFS. Yelcy loads, stores and atomics (04 R92, R96 to R98, R101, R104, R105). -/

namespace Sys2Proof.Machine

/-! ### What stores do to memory -/

theorem twin_num_ne (c : CoreId) : c.twin.num ≠ c.num := by cases c <;> decide

theorem ciKey_twin_ne (c : CoreId) (i : IsletNo) : ciKey c.twin i ≠ ciKey c i := by
  cases c <;> simp [ciKey, CoreId.twin, CoreId.num]

section memory
variable {s : State} {c : CoreId} {i : IsletNo} {m : Memory} {fl : BitVec 24} {o : Nat} {b : List Byte}

@[simp] theorem State.dram_setDram_twin : (s.setDram c m).dram c.twin = s.dram c.twin :=
  tget_tset_other _ _ _ (twin_num_ne c)

@[simp] theorem State.isw_setIsw_twin : (s.setIsw c i m).isw c.twin i = s.isw c.twin i :=
  tget_tset_other _ _ _ (ciKey_twin_ne c i)

/-- The store goes into the list of its flow, of a protected islet only (R97). -/
theorem State.unsent_noteStore : tget (s.noteStore c fl i o b).mem.unsent (flowKey c fl) [] =
    tget s.mem.unsent (flowKey c fl) [] ++ if s.protects i = true then [(i, o, b)] else [] := by
  unfold State.noteStore
  split
  · simp [State.setMem]
  · simp

theorem State.noteStore_isw : (s.noteStore c fl i o b).mem.isw = s.mem.isw := by
  unfold State.noteStore
  split <;> rfl

theorem State.noteStore_dram : (s.noteStore c fl i o b).mem.dram = s.mem.dram := by
  unfold State.noteStore
  split <;> rfl

theorem State.isw_noteStore (d j) : (s.noteStore c fl i o b).isw d j = s.isw d j := by
  rw [State.isw, State.isw, State.noteStore_isw]

end memory

/-- A store of the ISW beyond the seat aperture (R97, R171). -/
theorem State.iswStore_eq {s : State} {x : TeCtx} {o : Nat} (above : 0x10000 ≤ o) (b : List Byte) :
    s.iswStore x o b = (s.noteStore x.core x.run.item.flow x.islet o b).setIsw x.core x.islet
      (writeBytes (s.isw x.core x.islet) o b) := by
  simp only [State.iswStore, if_neg (Nat.not_lt.2 above), State.isw_noteStore]

theorem State.iswLoad_eq {s : State} {x : TeCtx} {o : Nat} (above : 0x10000 ≤ o) (n : Nat) :
    s.iswLoad x o n = leNat (readBytes (s.isw x.core x.islet) o n) := by
  simp only [State.iswLoad, if_neg (Nat.not_lt.2 above)]

/-- A byte of memory once the `n` bytes of a word have been stored. -/
theorem readByte_writeBytes_leBytes (m : Memory) (o n v a : Nat) : readByte (writeBytes m o (leBytes n v)) a =
    if o ≤ a ∧ a < o + n then ((leBytes n v)[a - o]?).getD 0 else readByte m a := by
  rw [(memoryReadsWhatWasWritten m o (leBytes n v)).1 a, leBytes_length]

theorem readBytes_writeBytes_leBytes (m : Memory) (o n v : Nat) :
    readBytes (writeBytes m o (leBytes n v)) o n = leBytes n v := by
  have back := readBytes_writeBytes (leBytes n v) m o
  rwa [leBytes_length] at back

/-! ### What retiring leaves -/

@[simp] theorem State.retire_mem (s : State) (x : TeCtx) : (s.retire x).mem = s.mem :=
  State.retire_keep.mem (by decide)

@[simp] theorem State.retire_dram (s : State) (x : TeCtx) (c) : (s.retire x).dram c = s.dram c := by
  simp only [State.dram, State.retire_mem]

@[simp] theorem State.retire_isw (s : State) (x : TeCtx) (c i) : (s.retire x).isw c i = s.isw c i := by
  simp only [State.isw, State.retire_mem]

@[simp] theorem TeCtx.after_scratch (x : TeCtx) : x.after.run.scratch = x.run.scratch := by
  unfold TeCtx.after
  dsimp only
  split <;> rfl

/-! ### Loads -/

section access
variable {i : Instr} {c : CoreId} {n : TeNo} {rd ra rb : Reg} {imm : Half} {k o : Nat} {w : Win} {s : State} {e : Instr × Nat}

theorem exec_of_mem_loadsOf (he : e ∈ loadsOf c n rd ra imm) (s : State) : exec e.1 s = .next (s.load c n rd ra imm e.2) := by
  simp only [loadsOf, List.mem_cons, List.not_mem_nil, or_false] at he
  rcases he with rfl | rfl | rfl | rfl <;> rfl

theorem exec_of_mem_storesOf (he : e ∈ storesOf c n rd ra imm) (s : State) :
    exec e.1 s = .next (s.store_ c n rd ra imm e.2) := by
  simp only [storesOf, List.mem_cons, List.not_mem_nil, or_false] at he
  rcases he with rfl | rfl | rfl | rfl <;> rfl

/-- A load in a window, aligned and free of tokens in flight, writes what it read (R104). -/
theorem yields_load (load : ∀ s, exec i s = .next (s.load c n rd ra imm k)) (ready : TeReady s c n)
    (inside : window (s.teCtx c n).isletLevel false ((s.teCtx c n).addr ra imm) k = some w)
    (aligned : (s.teCtx c n).addr ra imm % k = 0) (free : w.waits (s.teCtx c n).run k = false) :
    Yields i s fun t => t.teCtx c n =
      ((s.teCtx c n).set rd (BitVec.ofNat 64 (s.loadAt (s.teCtx c n) w k).1)).after :=
  Means.yields_after load ready (by simp only [inside, aligned, free, ne_eq, not_true, Bool.false_eq_true, if_false]; rfl)
    (((s.teCtx_on c n).set rd _).of_teSt_eq (State.teSt_of_keep State.loadAt_keep (by decide) c n))

/-- A store in a window, aligned and free of tokens in flight, is made (R104). -/
theorem yields_store (store : ∀ s, exec i s = .next (s.store_ c n rd ra imm k)) (ready : TeReady s c n)
    (inside : window (s.teCtx c n).isletLevel true ((s.teCtx c n).addr ra imm) k = some w)
    (aligned : (s.teCtx c n).addr ra imm % k = 0) (free : w.waits (s.teCtx c n).run k = false) {P : State → Prop}
    (h : P ((s.storeAt (s.teCtx c n) w k ((s.teCtx c n).get rd)).1.retire
      (s.storeAt (s.teCtx c n) w k ((s.teCtx c n).get rd)).2)) : Yields i s P :=
  Means.yields_retire store ready (by simp only [inside, aligned, free, ne_eq, not_true, Bool.false_eq_true, if_false]) h

theorem State.teSt_storeAt_dram {x : TeCtx} {v : W64} (d m) : (s.storeAt x (.dram o) k v).1.teSt d m = s.teSt d m := rfl

theorem State.teSt_storeAt_isw {x : TeCtx} {v : W64} (d m) : (s.storeAt x (.isw o) k v).1.teSt d m = s.teSt d m :=
  State.teSt_of_keep State.iswStore_keep (by decide) d m

theorem yields_store_scratch (store : ∀ s, exec i s = .next (s.store_ c n rd ra imm k)) (ready : TeReady s c n)
    (inside : window (s.teCtx c n).isletLevel true ((s.teCtx c n).addr ra imm) k = some (.scratch o))
    (aligned : (s.teCtx c n).addr ra imm % k = 0) (free : (Win.scratch o).waits (s.teCtx c n).run k = false) :
    Yields i s fun t => t.mem = s.mem ∧
      t.teCtx c n = (({ s.teCtx c n with run := { (s.teCtx c n).run with scratch := (t.teCtx c n).run.scratch } } : TeCtx)).after ∧
      ∀ a, readByte (t.teCtx c n).run.scratch a =
        if o ≤ a ∧ a < o + k then ((leBytes k ((s.teCtx c n).get rd).toNat)[a - o]?).getD 0
        else readByte (s.teCtx c n).run.scratch a := by
  refine yields_store store ready inside aligned free ?_
  generalize hy : (s.storeAt (s.teCtx c n) (.scratch o) k ((s.teCtx c n).get rd)).2 = y
  have after : ((s.storeAt (s.teCtx c n) (.scratch o) k ((s.teCtx c n).get rd)).1.retire y).teCtx c n = y.after := by
    subst hy
    exact TeCtx.On.teCtx_retire ⟨rfl, rfl, rfl⟩
  rw [after, TeCtx.after_scratch]
  subst hy
  exact ⟨State.retire_mem _ _, rfl, readByte_writeBytes_leBytes _ _ _ _⟩

theorem yields_store_dram (store : ∀ s, exec i s = .next (s.store_ c n rd ra imm k)) (ready : TeReady s c n)
    (inside : window (s.teCtx c n).isletLevel true ((s.teCtx c n).addr ra imm) k = some (.dram o))
    (aligned : (s.teCtx c n).addr ra imm % k = 0) :
    Yields i s fun t => t.teCtx c n = (s.teCtx c n).after ∧ t.dram c.twin = s.dram c.twin ∧ t.mem.isw = s.mem.isw ∧
      ∀ a, readByte (t.dram c) a = if o ≤ a ∧ a < o + k then ((leBytes k ((s.teCtx c n).get rd).toNat)[a - o]?).getD 0
        else readByte (s.dram c) a := by
  refine yields_store store ready inside aligned rfl
    ⟨((s.teCtx_on c n).of_teSt_eq (State.teSt_storeAt_dram c n)).teCtx_retire, ?_, ?_, fun a => ?_⟩
  · rw [State.retire_dram]
    exact State.dram_setDram_twin
  · rw [State.retire_mem]
    rfl
  · rw [State.retire_dram]
    exact (congrArg (readByte · a) (State.dram_setDram _ _ _)).trans (readByte_writeBytes_leBytes _ _ _ _ _)

theorem yields_store_isw (store : ∀ s, exec i s = .next (s.store_ c n rd ra imm k)) (ready : TeReady s c n)
    (inside : window (s.teCtx c n).isletLevel true ((s.teCtx c n).addr ra imm) k = some (.isw o)) (above : 0x10000 ≤ o)
    (aligned : (s.teCtx c n).addr ra imm % k = 0) :
    Yields i s fun t => t.teCtx c n = (s.teCtx c n).after ∧ t.mem.dram = s.mem.dram ∧
      (∀ a, readByte (t.isw c (s.teCtx c n).islet) a =
        if o ≤ a ∧ a < o + k then ((leBytes k ((s.teCtx c n).get rd).toNat)[a - o]?).getD 0
        else readByte (s.isw c (s.teCtx c n).islet) a) ∧
      t.isw c.twin (s.teCtx c n).islet = s.isw c.twin (s.teCtx c n).islet ∧
      tget t.mem.unsent (flowKey c (s.teCtx c n).run.item.flow) [] =
        tget s.mem.unsent (flowKey c (s.teCtx c n).run.item.flow) [] ++ (if s.protects (s.teCtx c n).islet = true then
          [((s.teCtx c n).islet, o, leBytes k ((s.teCtx c n).get rd).toNat)] else []) := by
  refine yields_store store ready inside aligned rfl
    ⟨((s.teCtx_on c n).of_teSt_eq (State.teSt_storeAt_isw c n)).teCtx_retire, ?_, fun a => ?_, ?_, ?_⟩ <;>
    simp only [State.retire_mem, State.retire_isw, State.storeAt, State.iswStore_eq above]
  · exact State.noteStore_dram
  · exact (congrArg (readByte · a) (State.isw_setIsw _ _ _ _)).trans (readByte_writeBytes_leBytes _ _ _ _ _)
  · exact State.isw_setIsw_twin.trans (State.isw_noteStore _ _)
  · exact State.unsent_noteStore

/-- An atomic on unit DRAM (R98). -/
theorem yields_amo_dram {f : W64 → W64 → W64} (amo : ∀ s, exec i s = .next (s.amo c n rd ra rb f)) (ready : TeReady s c n)
    (inside : window (s.teCtx c n).isletLevel true ((s.teCtx c n).get ra).toNat 8 = some (.dram o))
    (aligned : ((s.teCtx c n).get ra).toNat % 8 = 0) {old : W64} (hold : old = BitVec.ofNat 64 (leNat (readBytes (s.dram c) o 8))) :
    Yields i s fun t => t.teCtx c n = ((s.teCtx c n).set rd old).after ∧
      readBytes (t.dram c) o 8 = leBytes 8 (f old ((s.teCtx c n).get rb)).toNat := by
  subst hold
  refine Means.yields_retire amo ready
    (by simp only [inside, aligned, ne_eq, not_true, if_false]; rfl) ⟨TeCtx.On.teCtx_retire ?_, ?_⟩
  · exact ((s.teCtx_on c n).set rd _).of_teSt_eq rfl
  · rw [State.retire_dram]
    exact (congrArg (readBytes · o 8) (State.dram_setDram _ _ _)).trans (readBytes_writeBytes_leBytes _ _ _ _)

/-- An atomic on the ISW beyond the seat aperture (R98). -/
theorem yields_amo_isw {f : W64 → W64 → W64} (amo : ∀ s, exec i s = .next (s.amo c n rd ra rb f)) (ready : TeReady s c n)
    (inside : window (s.teCtx c n).isletLevel true ((s.teCtx c n).get ra).toNat 8 = some (.isw o)) (above : 0x10000 ≤ o)
    (aligned : ((s.teCtx c n).get ra).toNat % 8 = 0) {old : W64}
    (hold : old = BitVec.ofNat 64 (leNat (readBytes (s.isw c (s.teCtx c n).islet) o 8))) :
    Yields i s fun t => t.teCtx c n = ((s.teCtx c n).set rd old).after ∧
      readBytes (t.isw c (s.teCtx c n).islet) o 8 = leBytes 8 (f old ((s.teCtx c n).get rb)).toNat := by
  have load : s.loadAt (s.teCtx c n) (.isw o) 8 = (leNat (readBytes (s.isw c (s.teCtx c n).islet) o 8), s) := by
    rw [State.loadAt, State.iswLoad_eq above]
    rfl
  subst hold
  refine Means.yields_retire amo ready
    (by simp only [inside, aligned, ne_eq, not_true, if_false, load]; rfl) ⟨TeCtx.On.teCtx_retire ?_, ?_⟩
  · exact ((s.teCtx_on c n).set rd _).of_teSt_eq (State.teSt_storeAt_isw c n)
  · rw [State.retire_isw, State.storeAt, State.iswStore_eq above]
    exact (congrArg (readBytes · o 8) (State.isw_setIsw _ _ _ _)).trans (readBytes_writeBytes_leBytes _ _ _ _)

end access

/-- Settles O47, window by window; the model looks for the window before the alignment (log entry 36). -/
theorem yelcyMemory : Obligations.YelcyMemory := by
  refine ⟨fun c n rd ra imm s x ready hx => ⟨fun e he => ⟨fun w inside aligned => ⟨fun free => ?_, fun busy => ?_⟩,
      fun w inside odd => ?_, fun outside => ?_⟩, fun e he => ⟨fun w inside aligned free => ⟨fun o hw => ?_, fun o hw => ?_,
      fun o hw above => ?_, fun o hw => ?_⟩, fun w inside odd => ?_, fun outside => ?_⟩⟩, ?_, fun c n s x ready hx => ?_⟩
  · subst hx
    exact yields_load (exec_of_mem_loadsOf he) ready inside aligned free
  · subst hx
    exact Means.yields_stall (exec_of_mem_loadsOf he) ready
      (by simp only [inside, aligned, busy, ne_eq, not_true, if_false, if_true])
  · subst hx
    exact (accesses_of_mem_loadsOf he).yields_align ready (by rw [inside]; exact Option.some_ne_none w) odd
  · subst hx
    exact (accesses_of_mem_loadsOf he).yields_window ready outside
  · subst hx hw
    exact yields_store_scratch (exec_of_mem_storesOf he) ready inside aligned free
  · subst hx hw
    exact yields_store_dram (exec_of_mem_storesOf he) ready inside aligned
  · subst hx hw
    exact yields_store_isw (exec_of_mem_storesOf he) ready inside above aligned
  · subst hx hw
    exact yields_store (exec_of_mem_storesOf he) ready inside aligned free rfl
  · subst hx
    exact (accesses_of_mem_storesOf he).yields_align ready (by rw [inside]; exact Option.some_ne_none w) odd
  · subst hx
    exact (accesses_of_mem_storesOf he).yields_window ready outside
  · intro c n rd ra rb o old s x ready hx aligned
    subst hx
    exact ⟨fun inside hold => ⟨yields_amo_dram (fun _ => rfl) ready inside aligned hold,
        yields_amo_dram (f := fun _ b => b) (fun _ => rfl) ready inside aligned hold⟩,
      fun inside above hold => ⟨yields_amo_isw (fun _ => rfl) ready inside above aligned hold,
        yields_amo_isw (f := fun _ b => b) (fun _ => rfl) ready inside above aligned hold⟩⟩
  · subst hx
    exact Means.yields_retire (fun _ => rfl) ready rfl ⟨(s.teCtx_on c n).teCtx_retire, State.retire_mem _ _⟩

end Sys2Proof.Machine

/-! PROOFS. What a kept part of the state leaves of the accessors that read it: `Keep` says which parts an operation leaves, and
a statement speaks through accessors. -/

namespace Sys2Proof.Machine

section
variable {K : Nat} {s t : State}

theorem Keep.ut (h : Keep K s t) (kept : K.testBit 0 = true) (c : CoreId) : t.ut c = s.ut c := by
  cases c
  · exact congrArg (fun p : Nat × Nat => p.1) (h.time kept)
  · exact congrArg (fun p : Nat × Nat => p.2) (h.time kept)
theorem Keep.portSt (h : Keep K s t) (kept : K.testBit 2 = true) (p : PortId) : t.portSt p = s.portSt p := by
  cases p
  · exact congrArg (fun p : PortSt × PortSt => p.1) (h.ports kept)
  · exact congrArg (fun p : PortSt × PortSt => p.2) (h.ports kept)
theorem Keep.islet (h : Keep K s t) (kept : K.testBit 5 = true) (i : IsletNo) : t.islet i = s.islet i :=
  congrArg (fun p => tget p (i.val) IsletSt.init) (h.isl kept)
theorem Keep.queue (h : Keep K s t) (kept : K.testBit 6 = true) (c : CoreId) (i : IsletNo) (q : Nat) : t.queue c i q = s.queue c i q :=
  congrArg (fun p : Tab QueueSt × Tab QueueSt => tget p.1 (qKey c i q) QueueSt.init) (h.queues kept)
theorem Keep.shQueue (h : Keep K s t) (kept : K.testBit 6 = true) (c : CoreId) (i : IsletNo) (q : Nat) : t.shQueue c i q = s.shQueue c i q :=
  congrArg (fun p : Tab QueueSt × Tab QueueSt => tget p.2 (qKey c i q) QueueSt.init) (h.queues kept)
theorem Keep.ring (h : Keep K s t) (kept : K.testBit 7 = true) (c : CoreId) (i : IsletNo) (r : Nat) : t.ring c i r = s.ring c i r :=
  congrArg (fun p : Tab RingSt × Tab RingSt => tget p.1 (rKey c i r) RingSt.init) (h.rings kept)
theorem Keep.shRing (h : Keep K s t) (kept : K.testBit 7 = true) (c : CoreId) (i : IsletNo) (r : Nat) : t.shRing c i r = s.shRing c i r :=
  congrArg (fun p : Tab RingSt × Tab RingSt => tget p.2 (rKey c i r) RingSt.init) (h.rings kept)
theorem Keep.entry? (h : Keep K s t) (kept : K.testBit 8 = true) (n : Nat) : t.entry? n = s.entry? n :=
  congrArg (fun p : Tab EntrySt × Nat => if tget p.1 n EntrySt.init = EntrySt.init then none else some (tget p.1 n EntrySt.init)) (h.entries kept)
theorem Keep.store (h : Keep K s t) (kept : K.testBit 10 = true) (c : CoreId) : t.store c = s.store c := by
  cases c
  · exact congrArg (fun p : ProgSt => p.storeA) (h.prog kept)
  · exact congrArg (fun p : ProgSt => p.storeB) (h.prog kept)
theorem Keep.teSt (h : Keep K s t) (kept : K.testBit 11 = true) (c : CoreId) (n : TeNo) : t.teSt c n = s.teSt c n :=
  congrArg (fun p => tget p (teKey c n) TeSt.init) (h.tes kept)
theorem Keep.dispatch (h : Keep K s t) (kept : K.testBit 12 = true) (c : CoreId) : t.dispatch c = s.dispatch c := by
  cases c
  · exact congrArg (fun p : DispSt × DispSt => p.1) (h.sched kept)
  · exact congrArg (fun p : DispSt × DispSt => p.2) (h.sched kept)
theorem Keep.evtCore (h : Keep K s t) (kept : K.testBit 13 = true) (c : CoreId) : t.evtCore c = s.evtCore c := by
  cases c
  · exact congrArg (fun p : EvtSt => p.a) (h.evt kept)
  · exact congrArg (fun p : EvtSt => p.b) (h.evt kept)
theorem Keep.isw (h : Keep K s t) (kept : K.testBit 14 = true) (c : CoreId) (i : IsletNo) : t.isw c i = s.isw c i :=
  congrArg (fun p : MemSt => tget p.isw (ciKey c i) []) (h.mem kept)
theorem Keep.dram (h : Keep K s t) (kept : K.testBit 14 = true) (c : CoreId) : t.dram c = s.dram c :=
  congrArg (fun p : MemSt => tget p.dram (c.num) []) (h.mem kept)
theorem Keep.due (h : Keep K s t) (kept : K.testBit 14 = true) (c : CoreId) (x : Seat) : t.due c x = s.due c x :=
  congrArg (fun p : MemSt => tget p.due (c.num * 64 + x.val) []) (h.mem kept)
theorem Keep.usbSeat (h : Keep K s t) (kept : K.testBit 15 = true) (x : Seat) : t.usbSeat x = s.usbSeat x :=
  congrArg (fun p => tget p (x.val) UsbSeat.init) (h.usbSeats kept)
theorem Keep.rootPort (h : Keep K s t) (kept : K.testBit 16 = true) (x : Seat) (r : RootPort) : t.rootPort x r = s.rootPort x r :=
  congrArg (fun p => tget p (rpKey x r) RootPortSt.init) (h.usbPorts kept)
theorem Keep.ep (h : Keep K s t) (kept : K.testBit 17 = true) (k : Nat) : t.ep k = s.ep k :=
  congrArg (fun p => tget p (k) EpSt.init) (h.usbEps kept)
theorem Keep.xfer (h : Keep K s t) (kept : K.testBit 18 = true) (k : Nat) : t.xfer k = s.xfer k :=
  congrArg (fun p => tget p (k) XferSt.init) (h.usbXfers kept)
theorem Keep.link_ (h : Keep K s t) (kept : K.testBit 20 = true) (x : Seat) : t.link_ x = s.link_ x :=
  congrArg (fun p => tget p (x.val) SeatLink.init) (h.linkSeats kept)
theorem Keep.seatTime (h : Keep K s t) (kept : K.testBit 21 = true) (x : Seat) : t.seatTime x = s.seatTime x :=
  congrArg (fun p => tget p (x.val) SeatTime.init) (h.linkTimes kept)
theorem Keep.tun (h : Keep K s t) (kept : K.testBit 22 = true) (x : Seat) (u : Tunnel) : t.tun x u = s.tun x u :=
  congrArg (fun p => tget p (tunKey x u) TunSt.init) (h.linkTuns kept)
theorem Keep.head (h : Keep K s t) (kept : K.testBit 24 = true) (n : HeadNo) : t.head n = s.head n :=
  congrArg (fun p => tget p (n.val) HeadSt.init) (h.heads kept)
theorem Keep.view (h : Keep K s t) (kept : K.testBit 25 = true) (n : HeadNo) : t.view n = s.view n :=
  congrArg (fun p => tget p (n.val) ViewSt.init) (h.views kept)
theorem Keep.gather (h : Keep K s t) (kept : K.testBit 26 = true) (c : CoreId) (g : Nat) : t.gather c g = s.gather c g :=
  congrArg (fun p : Tab GatherSt × Tab (Option (HeadNo × Nat)) => tget p.1 (gKey c g) GatherSt.init) (h.gathers kept)
theorem Keep.pipe (h : Keep K s t) (kept : K.testBit 26 = true) (c : CoreId) (g : Nat) : t.pipe c g = s.pipe c g :=
  congrArg (fun p : Tab GatherSt × Tab (Option (HeadNo × Nat)) => tget p.2 (gKey c g) none) (h.gathers kept)
theorem Keep.fabCore (h : Keep K s t) (kept : K.testBit 29 = true) (c : CoreId) : t.fabCore c = s.fabCore c := by
  cases c
  · exact congrArg (fun p : FabSt => p.a) (h.fab kept)
  · exact congrArg (fun p : FabSt => p.b) (h.fab kept)
theorem Keep.seatTraf (h : Keep K s t) (kept : K.testBit 30 = true) (x : Seat) : t.seatTraf x = s.seatTraf x :=
  congrArg (fun p => tget p (x.val) SeatTraf.init) (h.tSeats kept)
theorem Keep.seatWfq (h : Keep K s t) (kept : K.testBit 31 = true) (x : Seat) : t.wfq x = s.wfq x :=
  congrArg (fun p => tget p (x.val) SeatWfq.init) (h.wfq kept)
theorem Keep.seatNet (h : Keep K s t) (kept : K.testBit 32 = true) (x : Seat) : t.seatNet x = s.seatNet x :=
  congrArg (fun p => tget p (x.val) SeatNet.init) (h.net kept)
theorem Keep.seatDemand (h : Keep K s t) (kept : K.testBit 33 = true) (x : Seat) : t.demand x = s.demand x :=
  congrArg (fun p => tget p (x.val) Demand.init) (h.demand kept)
theorem Keep.isletTraf (h : Keep K s t) (kept : K.testBit 34 = true) (i : IsletNo) : t.isletTraf i = s.isletTraf i :=
  congrArg (fun p => tget p (i.val) IsletTraf.init) (h.tIslets kept)
theorem Keep.seatPower (h : Keep K s t) (kept : K.testBit 36 = true) (x : Seat) : t.seatPower x = s.seatPower x :=
  congrArg (fun p => tget p (x.val) SeatPower.init) (h.pSeats kept)
theorem Keep.powCore (h : Keep K s t) (kept : K.testBit 37 = true) (c : CoreId) : t.powCore c = s.powCore c := by
  cases c
  · exact congrArg (fun p : PowCore × PowCore => p.1) (h.pCores kept)
  · exact congrArg (fun p : PowCore × PowCore => p.2) (h.pCores kept)
theorem Keep.domain (h : Keep K s t) (kept : K.testBit 37 = true) (c : CoreId) (d : Nat) : t.domain c d = s.domain c d :=
  congrArg (fun p : PowCore => tget p.doms d DomSt.init) (h.powCore kept c)
theorem Keep.supply (h : Keep K s t) (kept : K.testBit 38 = true) (x : SupplyId) : t.supply x = s.supply x := by
  cases x
  · exact congrArg (fun p : SupplySt × SupplySt × _ × _ × _ × _ => p.1) (h.pRest kept)
  · exact congrArg (fun p : SupplySt × SupplySt × _ × _ × _ × _ => p.2.1) (h.pRest kept)
theorem Keep.coreSt (h : Keep K s t) (kept : K.testBit 42 = true) (c : CoreId) : t.coreSt c = s.coreSt c := by
  cases c
  · exact congrArg (fun p : CoreSt × CoreSt × _ × _ × _ × _ × _ × _ × _ × _ => p.1) (h.fltA kept)
  · exact congrArg (fun p : CoreSt × CoreSt × _ × _ × _ × _ × _ × _ × _ × _ => p.2.1) (h.fltA kept)
theorem Keep.servingCore (h : Keep K s t) (kept : K.testBit 42 = true) (x : Seat) : t.servingCore x = s.servingCore x :=
  congrArg (fun p : _ × _ × _ × _ × _ × Tab CoreId × _ × _ × _ × _ => tget p.2.2.2.2.2.1 x.val (normalCore x.val)) (h.fltA kept)
theorem Keep.cntCore (h : Keep K s t) (kept : K.testBit 45 = true) (c : CoreId) : t.cntCore c = s.cntCore c := by
  cases c
  · exact congrArg (fun p : CntSt => p.a) (h.cnt kept)
  · exact congrArg (fun p : CntSt => p.b) (h.cnt kept)
theorem Keep.svc_eq (h : Keep K s t) (kept : K.testBit 46 = true) : t.svc = s.svc := h.svc kept
theorem Keep.mem_eq (h : Keep K s t) (kept : K.testBit 14 = true) : t.mem = s.mem := h.mem kept
theorem Keep.free_eq (h : Keep K s t) (kept : K.testBit 47 = true) : t.free = s.free := h.free kept

end

end Sys2Proof.Machine

/-! PROOFS. Script, budget, `tick` and `done` (04 R96, R101, R109, R110). -/

namespace Sys2Proof.Machine

/-! ### An item leaves its TE -/

section leave
variable {s : State} {c : CoreId} {n : TeNo} {r : Run} {k : Script} {a : Seat} {rd : Reg}

/-- Hold-back does not touch the suspended items. -/
theorem State.holdCheck_suspended : ((s.holdCheck c).dispatch c).suspended = (s.dispatch c).suspended := by
  unfold State.holdCheck
  dsimp only
  split
  · simp only [State.edge_keep.dispatch (by decide), State.dispatch_setDispatch]
  · split
    · simp only [State.releaseAcks_keep.dispatch (by decide), State.newRounds_keep.dispatch (by decide),
        State.edge_keep.dispatch (by decide), State.dispatch_setDispatch]
    · rfl

/-- What of a run is kept from one `tick` to the next micro-frame (R110). -/
def Run.atTick (r : Run) (rd : Reg) (resume : Nat) : Run :=
  { r with startUt := resume, tickRd := rd, scratch := r.scratch.filter fun k => decide (k.1 < 0x1000) }

/-- A suspended item stands last in its core's list, due at the next micro-frame (R110). -/
theorem State.suspend_suspended (script : r.script = some k) (seat : r.item.seat = some a) :
    ((s.suspend c n r rd).dispatch c).suspended =
      (s.dispatch c).suspended ++ [(r.atTick rd ((s.ut c / microFrame + 1) * microFrame), teCluster n)] := by
  simp only [State.suspend, script, seat, State.holdCheck_suspended, State.vacate_keep.dispatch (by decide),
    State.dispatch_setDispatch, State.copyStores_keep.dispatch (by decide), State.sealScript_keep.dispatch (by decide),
    State.copyStores_keep.ut (by decide), State.sealScript_keep.ut (by decide), Run.atTick]

theorem State.unsent_copyStores {it : Item} : tget (s.copyStores c n it).mem.unsent (flowKey c it.flow) [] = [] := by
  simp [State.copyStores, State.sentAll, State.setMem]

theorem State.teSt_setDispatch {v} (d m) : (s.setDispatch c v).teSt d m = s.teSt d m := by
  cases c <;> rfl

theorem State.noteDone_staged {it : Item} : ((s.noteDone c n it).teSt c n).staged = (s.teSt c n).staged := by
  simp only [State.noteDone, State.teSt_setDispatch, State.teSt_setTeSt]

/-- An item that ends frees its TE when none is staged there, is where its flow ran last, and leaves no store that the twin
lacks (R96, R97). -/
theorem State.endItem_leaves {it : Item} (none : (s.teSt c n).staged = none) (own : r.item = it) :
    ((s.endItem c n r).teSt c n).cur = .none ∧ tget ((s.endItem c n r).dispatch c).lastTe it.flow.toNat 32 = n.val ∧
      tget (s.endItem c n r).mem.unsent (flowKey c it.flow) [] = [] := by
  subst own
  unfold State.endItem
  refine ⟨?_, ?_, ?_⟩
  · simp only [State.freeImages_keep.teSt (by decide), State.settleSource_keep.teSt (by decide)]
    rw [State.teSt_vacate_of_unstaged]
    simp only [State.clearAborts_keep.teSt (by decide), State.notePolicy_keep.teSt (by decide), State.noteDone_staged,
      State.copyStores_keep.teSt (by decide)]
    split
    · rw [State.sealScript_keep.teSt (by decide), none]
    · exact none
  · simp only [State.freeImages_keep.dispatch (by decide), State.settleSource_keep.dispatch (by decide),
      State.vacate_keep.dispatch (by decide), State.clearAborts_keep.dispatch (by decide),
      State.notePolicy_keep.dispatch (by decide), State.noteDone, State.dispatch_setDispatch, tget_tset_same]
  · simp only [State.freeImages_keep.mem_eq (by decide), State.settleSource_keep.mem_eq (by decide),
      State.vacate_keep.mem_eq (by decide), State.clearAborts_keep.mem_eq (by decide),
      State.notePolicy_keep.mem_eq (by decide), State.noteDone_keep.mem_eq (by decide), State.unsent_copyStores]

theorem Run.item_stockRun : (s.stockRun c r).2.item = r.item := by
  unfold State.stockRun
  split
  · rfl
  · split
    · rfl
    · split <;> rfl

end leave

/-! ### The instructions -/

section script
variable {c : CoreId} {n : TeNo} {rd ra rb : Reg} {s : State} {k : Script}

/-- `emit` as an instruction (R109). -/
theorem means_emit : Means (.emit c n rd ra rb) c n fun s x =>
    match x.script with
    | none => .fault 0x06
    | some sc =>
      if s.recordLimit x.run.item.seat ≤ sc.recs.length then .ok s (x.set rd 0xFFFFFFFFFFFFFFFF)
      else
        let recs := sc.recs ++ [leBytes 8 (x.get ra).toNat ++ leBytes 8 (x.get rb).toNat]
        .ok (s.countRecords c x.run.item 1)
          (({ x with run := { x.run with script := some { sc with recs := recs } } } : TeCtx).set rd
            (BitVec.ofNat 64 recs.length)) := fun _ => rfl

/-- `budg` as an instruction (R109). -/
theorem means_budg : Means (.budg c n rd ra) c n fun s x =>
    match x.script with
    | none => .fault 0x06
    | some sc =>
      if (x.get ra).toNat ≤ sc.budget then
        .ok s (({ x with run := { x.run with script := some { sc with budget := sc.budget - (x.get ra).toNat } } } : TeCtx).set
          rd (BitVec.ofNat 64 (sc.budget - (x.get ra).toNat)))
      else .ok s (x.set rd (BitVec.ofNat 64 (sc.budget + 2 ^ 63))) := fun _ => rfl

/-- An instruction after which the item leaves its TE. -/
theorem Means.yields_left {i : Instr} {f leave} (means : Means i c n f) (ready : TeReady s c n)
    (h : f s (s.teCtx c n) = .left leave) {P : State → Prop} (hP : P (leave (s.countRetired (s.teCtx c n))
      { (s.teCtx c n).run with pc := (s.teCtx c n).settle.next, loops := (s.teCtx c n).settle.run.loops })) : Yields i s P :=
  ⟨_, means s, by simpa [State.instr, ready.1, ready.2, h] using hP⟩

/-- The open script of an item is that of its run (R109). -/
theorem TeCtx.run_script {x : TeCtx} (open_ : x.script = some k) : x.run.script = some k := by
  unfold TeCtx.script at open_
  split at open_
  · exact open_
  · cases open_

theorem yields_tick {a : Seat} (ready : TeReady s c n) (item : (s.teCtx c n).handler = false)
    (idle : (s.teCtx c n).run.inFlight = false) (script : (s.teCtx c n).script = some k)
    (seat : (s.teCtx c n).run.item.seat = some a) : Yields (.tick c n rd) s fun t => ∃ q,
      (t.dispatch c).suspended = (s.dispatch c).suspended ++ [(q, teCluster n)] ∧ q.pc = (s.teCtx c n).settle.next ∧
      q.tickRd = rd ∧ q.item = (s.teCtx c n).run.item ∧ q.startUt = (s.ut c / microFrame + 1) * microFrame := by
  refine Means.yields_left (fun _ => rfl) ready (by simp only [item, idle, script, Bool.false_eq_true, if_false]; rfl) ?_
  have counted := State.countRetired_keep (s := s) (x := s.teCtx c n)
  rw [← counted.dispatch (by decide), ← counted.ut (by decide)]
  exact ⟨_, State.suspend_suspended (TeCtx.run_script script) seat, rfl, rfl, rfl, rfl⟩

theorem yields_done (ready : TeReady s c n) (item : (s.teCtx c n).handler = false)
    (idle : (s.teCtx c n).run.inFlight = false) (none : (s.teSt c n).staged = none) :
    Yields (.done c n) s fun t => (t.teSt c n).cur = .none ∧
      tget (t.dispatch c).lastTe (s.teCtx c n).run.item.flow.toNat 32 = n.val ∧
      tget t.mem.unsent (flowKey c (s.teCtx c n).run.item.flow) [] = [] := by
  refine Means.yields_left (fun _ => rfl) ready (by simp only [item, idle, Bool.false_eq_true, if_false]; rfl) ?_
  have run {r : Run} : Keep (2 ^ 11) s ((s.countRetired (s.teCtx c n)).stockRun c r).1 :=
    .step State.stockRun_keep (by decide) (.step State.countRetired_keep (by decide) Keep.rfl')
  refine State.endItem_leaves ((congrArg TeSt.staged (Keep.teSt (K := 2 ^ 11) ?_ (by decide) c n)).trans none)
    Run.item_stockRun
  exact Keep.ite run (.step State.countRecords_keep (by decide) run)

end script

/-- Settles O50, an instruction at a time. -/
theorem yelcyScripts : Obligations.YelcyScripts := by
  intro c n s x ready hx
  subst hx
  refine ⟨fun rd ra rb k script => ⟨fun full => ?_, fun room => ?_, fun enough => ?_, fun short => ?_⟩,
    fun rd ra rb none => ⟨?_, ?_⟩, fun item idle => ⟨fun rd k a script seat => yields_tick ready item idle script seat,
      yields_done ready item idle⟩, yields_done_stall ready⟩
  · exact means_emit.yields_after ready (by simp only [script, if_pos full]; rfl) ((s.teCtx_on c n).set rd _)
  · refine means_emit.yields_after ready (by simp only [script, if_neg (Nat.not_le.2 room), List.length_append]; rfl)
      (TeCtx.On.set ⟨rfl, rfl, ?_⟩ rd _)
    rw [State.countRecords_keep.teSt (by decide)]
    rfl
  · exact means_budg.yields_after ready (by simp only [script, if_pos enough]) (TeCtx.On.set ⟨rfl, rfl, rfl⟩ rd _)
  · exact means_budg.yields_after ready (by simp only [script, if_neg (Nat.not_le.2 short)]) ((s.teCtx_on c n).set rd _)
  · exact means_emit.yields_fault ready (by simp only [none])
  · exact means_budg.yields_fault ready (by simp only [none])

end Sys2Proof.Machine

/-! PROOFS. CSRs, `eret`, `wfi` and the entry into a handler (04 R117; 05 R139, R140). -/

namespace Sys2Proof.Machine

/-! ### CSRs -/

section csr
variable {y x : TeCtx} {s : State} {c : CoreId} {n : TeNo} {rd ra : Reg} {k : Half}

/-- An instruction that retires leaves the CSRs of its TE (R117). -/
theorem TeCtx.On.teSt_retire (h : y.On s c n) : ∃ bank hpc cur idle,
    (s.retire y).teSt c n = { s.teSt c n with hbank := bank, hpc := hpc, cur := cur, idle := idle } := by
  obtain ⟨rfl, rfl, -⟩ := h.settle.counted
  rw [State.retire_eq, State.teSt_countRetired, State.putCtx, State.teSt_setTeSt]
  split
  · exact ⟨_, _, _, _, rfl⟩
  · exact ⟨_, _, _, _, rfl⟩

/-- `csrr` as an instruction (R117). -/
theorem means_csrr : Means (.csrr c n rd k) c n fun s x =>
    match (s.teSt c n).csr k.toNat with
    | some v => if x.isletLevel then .fault 0x09 else .ok s (x.set rd v)
    | none => .fault 0x09 := fun _ => rfl

/-- `csrw` as an instruction (R117). -/
theorem means_csrw : Means (.csrw c n ra k) c n fun s x =>
    if x.isletLevel || decide (2 < k.toNat) then .fault 0x09
    else if k = 0 then .ok (s.setTeSt c n { s.teSt c n with epc := x.get ra }) x
    else .ok s x := fun _ => rfl

theorem yields_csrw_epc (ready : TeReady s c n) (unit : (s.teCtx c n).isletLevel = false) :
    Yields (.csrw c n ra 0) s fun t => t.teCtx c n = (s.teCtx c n).after ∧ (t.teSt c n).epc = (s.teCtx c n).get ra := by
  have on : (s.teCtx c n).On (s.setTeSt c n { s.teSt c n with epc := (s.teCtx c n).get ra }) c n :=
    ⟨rfl, rfl, by rw [State.teSt_setTeSt]; rfl⟩
  refine means_csrw.yields_retire ready (by rw [unit]; rfl) ⟨on.teCtx_retire, ?_⟩
  obtain ⟨bank, hpc, cur, idle, eq⟩ := on.teSt_retire
  rw [eq, State.teSt_setTeSt]

theorem yields_csrw_readOnly (ready : TeReady s c n) (unit : (s.teCtx c n).isletLevel = false) (hk : k = 1 ∨ k = 2) :
    Yields (.csrw c n ra k) s fun t => t.teCtx c n = (s.teCtx c n).after ∧ (t.teSt c n).ecause = (s.teSt c n).ecause ∧
      (t.teSt c n).estate = (s.teSt c n).estate ∧ (t.teSt c n).epc = (s.teSt c n).epc := by
  obtain ⟨bank, hpc, cur, idle, eq⟩ := (s.teCtx_on c n).teSt_retire
  refine means_csrw.yields_retire ready (t := s) (y := s.teCtx c n) ?_
    ⟨(s.teCtx_on c n).teCtx_retire, by rw [eq], by rw [eq]; rfl, by rw [eq]⟩
  rcases hk with rfl | rfl <;> simp [unit]

/-! ### `eret` and `wfi` -/

theorem yields_eret (ready : TeReady s c n) (unit : (s.teCtx c n).isletLevel = false) (handler : (s.teCtx c n).handler = true) :
    Yields (.eret c n) s fun t => (t.teSt c n).inHandler = false ∧
      (t.teSt c n).cur = (s.teSt c n).cur.map fun r => { r with pc := (s.teSt c n).epc.toNat } := by
  refine Means.yields_left (fun _ => rfl) ready (by simp only [unit, handler, Bool.false_eq_true, if_false, if_true]; rfl) ?_
  rw [State.leaveHandler, State.teSt_countRetired, State.teSt_setTeSt]
  exact ⟨rfl, rfl⟩

theorem State.instr_ok {f} (ready : TeReady s c n) {t : State} (h : f s (s.teCtx c n) = .ok t y) :
    s.instr c n f = t.retire y := by
  simp [State.instr, ready.1, ready.2, h]

theorem State.instr_left {f leave} (ready : TeReady s c n) (h : f s (s.teCtx c n) = .left leave) :
    s.instr c n f = leave (s.countRetired (s.teCtx c n)) { (s.teCtx c n).run with
      pc := (s.teCtx c n).settle.next, loops := (s.teCtx c n).settle.run.loops } := by
  simp [State.instr, ready.1, ready.2, h]

theorem yields_wfi_presented (ready : TeReady s c n) (unit : (s.teCtx c n).isletLevel = false)
    (seen : ((s.evtCore c).presented n.val).isSome = true) : Yields (.wfi c n) s fun t => t.teCtx c n = (s.teCtx c n).after := by
  refine ⟨_, rfl, ?_⟩
  rw [waiting_of_teRuns ready.1, Bool.false_and, Bool.false_and, if_neg Bool.false_ne_true,
    State.instr_ok ready (by simp only [unit, seen, Bool.false_eq_true, if_false, if_true]; rfl)]
  exact (s.teCtx_on c n).teCtx_retire

theorem yields_wfi_waits (ready : TeReady s c n) (unit : (s.teCtx c n).isletLevel = false)
    (unseen : (s.evtCore c).presented n.val = none) :
    Yields (.wfi c n) s fun t => t = s.setTeSt c n { s.teSt c n with waiting := true } := by
  refine ⟨_, rfl, ?_⟩
  rw [waiting_of_teRuns ready.1, Bool.false_and, Bool.false_and, if_neg Bool.false_ne_true,
    State.instr_left ready (by simp only [unit, unseen, Option.isSome_none, Bool.false_eq_true, if_false]; rfl)]

end csr

/-! ### The entry into a handler (05 R139, R140) -/

theorem EvtCore.deliver_base (e : EvtCore) (t k : Nat) : (e.deliver t k).base = e.base := by
  unfold EvtCore.deliver
  split <;> rfl

section entry
variable {s : State} {c : CoreId} {n : TeNo} {pr k : Nat}

theorem State.teSt_setEvtCore {v} (d m) : (s.setEvtCore c v).teSt d m = s.teSt d m := by
  cases c <;> rfl

theorem State.evtCore_setTeSt {v} (d) : (s.setTeSt c n v).evtCore d = s.evtCore d := by
  cases d <;> rfl

theorem State.eventEntry_of_presented (takes : s.teTakes c n = true) (presented : (s.evtCore c).presented n.val = some (pr, k)) :
    s.eventEntry c n = s.enterHandler c n k := by
  simp only [State.eventEntry, takes, presented, if_true]

/-- A TE that does not wait enters the handler of a source between two instructions of its item (R140). -/
theorem State.enterHandler_leaves (awake : (s.teSt c n).waiting = false) :
    ((s.enterHandler c n k).teSt c n).inHandler = true ∧ ((s.enterHandler c n k).teSt c n).ecause = BitVec.ofNat 64 k ∧
      ((s.enterHandler c n k).teSt c n).hpc = (tget (s.evtCore c).base n.val 0).toNat + 32 * k ∧
      (s.enterHandler c n k).evtCore c = (s.evtCore c).deliver n.val k ∧
      ((s.enterHandler c n k).teSt c n).cur = (s.teSt c n).cur ∧
      ∀ r, (s.teSt c n).cur = some r → ((s.enterHandler c n k).teSt c n).epc = BitVec.ofNat 64 r.pc := by
  simp only [State.enterHandler, awake, Bool.false_eq_true, if_false, State.teSt_setTeSt, State.teSt_setEvtCore,
    State.evtCore_setTeSt, State.evtCore_setEvtCore, EvtCore.deliver_base]
  refine ⟨trivial, rfl, trivial, trivial, trivial, fun r cur => ?_⟩
  rw [cur]

end entry

/-- Settles O52. The supervisor takes events whenever it runs (log entry 75); a `wfi` that waits stays where it is (log
entry 82). -/
theorem yelcyEvents : Obligations.YelcyEvents := by
  refine ⟨fun c n s x ready hx => ⟨fun unit => ⟨fun rd k v csr => ?_, fun ra => ?_, fun ra k hk => ?_, ?_, ?_, ?_⟩,
    fun islet rd k => ⟨?_, ?_⟩⟩, fun c n pr k s takes presented awake => ?_, fun c pr k s sup on presented => ?_⟩
  · subst hx
    exact means_csrr.yields_after ready (by simp only [csr, unit, Bool.false_eq_true, if_false]) ((s.teCtx_on c n).set rd v)
  · subst hx
    exact yields_csrw_epc ready unit
  · subst hx
    exact yields_csrw_readOnly ready unit hk
  · subst hx
    exact yields_eret ready unit
  · subst hx
    exact yields_wfi_presented ready unit
  · subst hx
    exact yields_wfi_waits ready unit
  · subst hx
    refine means_csrr.yields_fault ready ?_
    cases (s.teSt c n).csr k.toNat <;> simp only [islet, if_true]
  · subst hx
    exact means_csrw.yields_fault ready (by simp only [islet, Bool.true_or, if_true])
  · refine ⟨_, rfl, ?_⟩
    rw [dif_pos n.isLt, State.eventEntry_of_presented takes presented]
    exact State.enterHandler_leaves awake
  · refine ⟨_, rfl, ?_⟩
    rw [dif_neg (by decide), State.supervisorTakes]
    simp only [sup, on, presented, and_self, if_true, State.evtCore_setEvtCore, true_and]
    cases c <;> rfl

end Sys2Proof.Machine

/-! PROOFS. The record of an entry behind one that has ended: O51 does not hold of every state. -/

namespace Sys2Proof.Machine

/-- What a command yields holds of the state that it leads to. -/
theorem Yields.next {i : Instr} {s t : State} {P : State → Prop} (h : Yields i s P) (step : exec i s = .next t) : P t := by
  obtain ⟨u, run, holds⟩ := h
  cases step.symm.trans run
  exact holds

/-- An entry that is not the oldest of its flow gives its ring no record as it ends. -/
theorem Completes.madeFor_eq {s t : State} {h : Nat} {e : EntrySt} {a b d : Nat} (ends : Completes s t h e a b d)
    (later : (s.firstOf e).map (·.1) ≠ some h) : t.madeFor e = s.madeFor e := by
  unfold Completes at ends
  rw [if_neg later] at ends
  exact ends.1

/-- An open entry of islet 1. -/
def openEntry : EntrySt := { EntrySt.init with islet := 1, bytes := [1] }

/-- Entries 4 and 5 of one flow, where the older has ended and still waits. No run of the model gets here: an entry that is
the oldest of its flow gives its record as it ends. -/
def endedAhead : State :=
  (State.reset.setEntry 5 openEntry).setEntry 4 { openEntry with ended := some ⟨0, 0, 0, 0⟩ }

/-- An item of islet 1 on TE 3 of core A, with entry 5 named by g3 and a record of status 0x40 at address 0. -/
def postingBehind : State :=
  (endedAhead.setIslet 1 { IsletSt.init with budget := 100 }).setTeSt .a 3 { TeSt.init with cur := some { Run.init with
    item := { Item.init with islet := 1 }, scratch := [(7, 0x40)], regs := (Vector.replicate 32 0).set 3 5 } }

/-- The state after a command. -/
def State.afterExec (s : State) (i : Instr) : State :=
  match exec i s with
  | .next t => t
  | _ => s

theorem exec_eq_afterExec (s : State) (i : Instr) : exec i s = .next (s.afterExec i) := by
  obtain ⟨t, step⟩ := exec_next i s
  rw [State.afterExec, step]

/-- Refutes O51: a `postc` for the later of two entries, the first of which has ended and waits, makes two records, where the
statement has it make none. -/
theorem not_yelcyOutputs : ¬ Obligations.YelcyOutputs := by
  intro h
  obtain ⟨postc, -⟩ := h .a 3 postingBehind _ ⟨by decide +kernel, by decide +kernel⟩ rfl
  have ends := (postc 0 3 5 openEntry _ (by decide +kernel) (by decide +kernel) (by decide +kernel) (by decide +kernel)
    (by decide +kernel) rfl (by decide +kernel)).next (exec_eq_afterExec _ _)
  exact absurd (ends.2.madeFor_eq (by decide +kernel)) (by decide +kernel)

end Sys2Proof.Machine

/-! PROOFS. Host memory of a program: `hld`, `hst`, their completion, `hwait` (04 R99 to R102). -/

namespace Sys2Proof.Machine

/-! ### The requests of a read (02 R27) -/

/-- A number above all those of a table goes to its end. -/
theorem tput_of_lt {α : Type} {l : Tab α} {n : Nat} (v : α) (above : ∀ e ∈ l, e.1 < n) : tput l n v = l ++ [(n, v)] := by
  induction l with
  | nil => rfl
  | cons e l ih =>
    obtain ⟨k, w⟩ := e
    have hk : k < n := above (k, w) List.mem_cons_self
    rw [tput, if_neg (by omega), if_neg (by omega), ih fun e he => above e (List.mem_cons_of_mem _ he), List.cons_append]

/-- The last entry of a table, whose number is above the others', is replaced where it stands. -/
theorem tput_last {α : Type} {l : Tab α} {n : Nat} (v w : α) (above : ∀ e ∈ l, e.1 < n) :
    tput (l ++ [(n, v)]) n w = l ++ [(n, w)] := by
  induction l with
  | nil => simp [tput]
  | cons e l ih =>
    obtain ⟨k, u⟩ := e
    have hk : k < n := above (k, u) List.mem_cons_self
    rw [List.cons_append, tput, if_neg (by omega), if_neg (by omega), ih fun e he => above e (List.mem_cons_of_mem _ he),
      List.cons_append]

/-- What of a request says what it asks for. -/
def ReqSt.asks (r : Nat × ReqSt) : ReqFor × Nat × Nat := (r.2.why, r.2.off, r.2.len)

section requests
variable {s : State} {f : FnId} {i : IsletNo} {addr off len : Nat} {why : ReqFor}

/-- The numbers of the requests outstanding are below the next one. -/
def State.ReqsBelow (s : State) : Prop := ∀ r ∈ s.host.reqs, r.1 < s.host.nextRead

/-- A request, issued or waiting, adds what it asks for to the end of the table. -/
theorem State.addReq_asks (below : s.ReqsBelow) : (s.addReq f i addr off len why).ReqsBelow ∧
    (s.addReq f i addr off len why).host.reqs.map ReqSt.asks = s.host.reqs.map ReqSt.asks ++ [(why, off, len)] := by
  obtain ⟨u, q, add, reqs, next, hq⟩ : ∃ (u : State) (q : HostReq), s.addReq f i addr off len why = u.request q ∧
      u.host.reqs = s.host.reqs ++ [(s.host.nextRead, (⟨f, i, why, off, len, none⟩ : ReqSt))] ∧
      u.host.nextRead = s.host.nextRead + 1 ∧ q.read = some s.host.nextRead :=
    ⟨_, _, rfl, tput_of_lt _ below, rfl, rfl⟩
  obtain ⟨w, reqs', next'⟩ : ∃ w, (u.request q).host.reqs =
      s.host.reqs ++ [(s.host.nextRead, (⟨f, i, why, off, len, w⟩ : ReqSt))] ∧
      (u.request q).host.nextRead = s.host.nextRead + 1 := by
    unfold State.request
    split
    · have found : (u.sendHost q.tx).host.reqs.find? (fun e => e.1 == s.host.nextRead) =
          some (s.host.nextRead, ⟨f, i, why, off, len, none⟩) := by
        have others : s.host.reqs.find? (fun e => e.1 == s.host.nextRead) = none :=
          List.find?_eq_none.2 fun e he => by simpa using Nat.ne_of_lt (below e he)
        show u.host.reqs.find? _ = _
        rw [reqs, List.find?_append, others]
        simp
      simp only [State.issueReq, hq, found]
      refine ⟨some (u.ut q.fn.core), ?_, next⟩
      show tput u.host.reqs _ _ = _
      rw [reqs, tput_last _ _ below]
      rfl
    · exact ⟨none, reqs, next⟩
  rw [add]
  refine ⟨fun r hr => ?_, by rw [reqs', List.map_append]; rfl⟩
  rw [reqs', List.mem_append, List.mem_singleton] at hr
  rw [next']
  rcases hr with old | rfl
  · exact (below r old).trans (Nat.lt_succ_self _)
  · exact Nat.lt_succ_self _

/-- The requests of a read each ask for their part of it. -/
theorem State.addReqs_asks (below : s.ReqsBelow) : (s.addReqs f i addr len why).host.reqs.map ReqSt.asks =
    s.host.reqs.map ReqSt.asks ++ (chunks (s.fnSt f).maxRead addr len).map fun e => (why, e.1, e.2) := by
  unfold State.addReqs
  generalize chunks (s.fnSt f).maxRead addr len = l
  induction l generalizing s with
  | nil => simp
  | cons e l ih =>
    obtain ⟨below', asks⟩ := s.addReq_asks (f := f) (i := i) (addr := addr + e.1) (off := e.1) (len := e.2) (why := why) below
    rw [List.foldl_cons, ih below', asks, List.map_cons, List.append_assoc]
    rfl

end requests

section host
variable {c : CoreId} {n : TeNo} {tk : Tok} {rs rh rl : Reg} {s : State}

/-- A transfer whose range is not empty is what `hld` and `hst` share with nothing but their own part (R99). -/
theorem hostTransfer_go {go : State → TeCtx → TeOut} {x : TeCtx} (free : hostFault x tk rs rl = none) (len : x.get rl ≠ 0) :
    hostTransfer tk rs rl go s x = go s x := by
  simp only [hostTransfer, free, mt toNat_eq_zero_iff.1 len, if_false]

theorem means_hld : Means (.hld c n tk rs rh rl) c n (hostTransfer tk rs rl (hldIssue tk rs rh rl)) := fun _ => rfl

theorem means_hst : Means (.hst c n tk rs rh rl) c n (hostTransfer tk rs rl (hstIssue tk rs rh rl)) := fun _ => rfl

/-- An `hld`'s reads leave, unless PASID Enable forbids them (R99; 02 R41). -/
theorem State.issueHld_fst (s : State) (x : TeCtx) (a l : Nat) :
    (s.issueHld x tk a l).1 = !s.readsRefused (s.itemFn x.core x.run.item) := by
  unfold State.issueHld
  dsimp only
  split
  next h => simp [h]
  next h => simp [h]

theorem yields_hld_token (ready : TeReady s c n) (free : hostFault (s.teCtx c n) tk rs rl = none) :
    Yields (.hld c n tk rs rh rl) s fun t => t.teCtx c n =
      ((s.teCtx c n).setTok tk (if (s.teCtx c n).get rl = 0 then .done false
        else if s.readsRefused (s.itemFn c (s.teCtx c n).run.item) then .done true
        else .flight false ((s.teCtx c n).get rs).toNat ((s.teCtx c n).get rl).toNat ((s.teCtx c n).get rh).toNat)).after := by
  by_cases empty : (s.teCtx c n).get rl = 0
  · rw [if_pos empty]
    exact (transfers_hld.yields_empty ready free empty).imp fun t ht => ⟨ht.1, ht.2.1⟩
  · rw [if_neg empty]
    refine means_hld.yields_after ready (by rw [hostTransfer_go free empty]; rfl) ?_ |>.imp fun t ht => ⟨ht.1, ht.2.trans ?_⟩
    · exact ((s.teCtx_on c n).setTok tk _).of_teSt_eq (State.issueHld_keep.teSt (by decide) c n)
    · rw [State.issueHld_fst]
      show ((s.teCtx c n).setTok tk (if (!s.readsRefused (s.itemFn c (s.teCtx c n).run.item)) = true then _ else _)).after = _
      cases s.readsRefused (s.itemFn c (s.teCtx c n).run.item) <;> rfl

/-- An `hld` asks its host for each of its requests (R99). -/
theorem yields_hld_asks (ready : TeReady s c n) (free : hostFault (s.teCtx c n) tk rs rl = none)
    (len : (s.teCtx c n).get rl ≠ 0) (may : s.readsRefused (s.itemFn c (s.teCtx c n).run.item) = false) (below : s.ReqsBelow) :
    Yields (.hld c n tk rs rh rl) s fun t => t.host.reqs.map ReqSt.asks = s.host.reqs.map ReqSt.asks ++
      (chunks (s.fnSt (s.itemFn c (s.teCtx c n).run.item)).maxRead ((s.teCtx c n).get rh).toNat ((s.teCtx c n).get rl).toNat).map
        fun e => (.token c n (s.teCtx c n).run.slot tk, e.1, e.2) := by
  refine means_hld.yields_retire ready (by rw [hostTransfer_go free len]; rfl) ?_
  have issue : s.issueHld (s.teCtx c n) tk ((s.teCtx c n).get rh).toNat ((s.teCtx c n).get rl).toNat = _ :=
    if_neg (by rw [show s.readsRefused (s.itemFn (s.teCtx c n).core _) = false from may]; exact Bool.false_ne_true)
  rw [State.retire_host, issue, State.count_host]
  have host : ∀ i r w, (s.countDemand i r w).host = s.host := by
    intro i r w
    unfold State.countDemand
    split <;> rfl
  have asks := State.addReqs_asks (s := s.countDemand (s.teCtx c n).islet ((s.teCtx c n).get rl).toNat 0)
    (f := s.itemFn c (s.teCtx c n).run.item) (i := (s.teCtx c n).islet) (addr := ((s.teCtx c n).get rh).toNat)
    (len := ((s.teCtx c n).get rl).toNat) (why := .token c n (s.teCtx c n).run.slot tk)
    (by unfold State.ReqsBelow; rw [host]; exact below)
  have fn : ∀ i r w f, (s.countDemand i r w).fnSt f = s.fnSt f := fun i r w f => by rw [State.fnSt, State.fnSt, host]
  rw [host, fn] at asks
  exact asks

/-- An `hst` writes its bytes, and its token tells whether they could be carried (R99, R102). -/
theorem yields_hst (ready : TeReady s c n) (free : hostFault (s.teCtx c n) tk rs rl = none)
    (len : (s.teCtx c n).get rl ≠ 0) {w : Bool × State}
    (write : s.writeHost (s.itemFn c (s.teCtx c n).run.item) (s.teCtx c n).islet ((s.teCtx c n).get rh).toNat
      (readBytes (s.teCtx c n).run.scratch ((s.teCtx c n).get rs).toNat ((s.teCtx c n).get rl).toNat) = w) :
    Yields (.hst c n tk rs rh rl) s fun t => t.host = w.2.host ∧ t.teCtx c n = ((s.teCtx c n).setTok tk (if w.1 then
      .flight true ((s.teCtx c n).get rs).toNat ((s.teCtx c n).get rl).toNat ((s.teCtx c n).get rh).toNat else .done true)).after := by
  have uses : ∀ u p, (State.itemUses u (s.teCtx c n).run.item p).host = u.host := by
    intro u p
    unfold State.itemUses State.usePort
    split
    · split <;> rfl
    · rfl
  subst write
  refine means_hst.yields_retire ready (by rw [hostTransfer_go free len]; rfl) ⟨?_, TeCtx.On.teCtx_retire ?_⟩
  · rw [State.retire_host]
    split
    · exact uses _ _
    · rfl
  · refine ((s.teCtx_on c n).setTok tk _).of_teSt_eq ?_
    have written {f i a b} : (s.writeHost f i a b).2.teSt c n = s.teSt c n := State.writeHost_keep.teSt (by decide) c n
    split
    · exact (State.itemUses_keep.teSt (by decide) c n).trans written
    · exact written

/-- What a completion changes in its run: the token, and the scratch bytes of an `hld` that succeeded (R101). -/
theorem Run.complete_eq {r : Run} {st : Bool} {a l h : Nat} (busy : r.toks[tk] = .flight st a l h) (b : Option (List Byte)) :
    r.complete tk b = { r with
      toks := r.toks.set tk.val (.done b.isNone)
      scratch := match b with
        | some b => if st then r.scratch else writeBytes r.scratch a (slice b 0 l)
        | none => r.scratch } := by
  unfold Run.complete
  cases st <;> cases b <;> simp [busy]

end host

/-- Settles O48. Where a transfer is cut into requests is log entry 89, the order of its faults log entry 118; an `hst` that
cannot be carried fails as it issues (log entry 82). -/
theorem yelcyHostMemory : Obligations.YelcyHostMemory := by
  refine ⟨fun c n tk rs rh rl s x ready hx => ⟨fun free => ⟨?_, fun len may below => ?_, fun len => ?_, fun empty => ?_⟩,
    fun k fault => ⟨?_, ?_⟩⟩, fun c n sl tk r b st a len h s cur slot busy issued => ⟨?_, ?_⟩, fun c n rd tk s x ready hx => ?_⟩
  · subst hx
    exact yields_hld_token ready free
  · subst hx
    exact yields_hld_asks ready free len may below
  · subst hx
    exact yields_hst ready free len rfl
  · subst hx
    exact (transfers_hst.yields_empty ready free empty).imp fun t ht => ⟨ht.1, ht.2.1⟩
  · subst hx
    exact transfers_hld.yields_fault ready fault
  · subst hx
    exact transfers_hst.yields_fault ready fault
  · subst slot
    refine ⟨_, rfl, _, State.tokenComplete_cur cur busy issued _, ?_⟩
    rw [Run.complete_eq busy]
    exact ⟨rfl, rfl, rfl, rfl⟩
  · subst slot
    refine ⟨_, rfl, _, State.tokenComplete_cur cur busy issued _, ?_⟩
    rw [Run.complete_eq busy]
    exact ⟨rfl, rfl, rfl, rfl⟩
  · subst hx
    cases hk : (s.teCtx c n).run.toks[tk] with
    | idle => exact yields_hwait_idle ready hk
    | flight st a l h => exact yields_hwait_stall ready hk
    | done st => exact yields_hwait_done ready hk

end Sys2Proof.Machine

/-! PROOFS. The command register sets (02 R47, R51, R407): what writing `GO` on idle sets comes to. -/

namespace Sys2Proof.Machine

/-! ### One register set of a port -/

section cmd
variable {s t u : State} {p q : PortId} {k j : CmdSet} {f : FnId} {op arg : Byte} {force : Bool} {st : Byte} {d : W32}

theorem PortSt.cmd_setCmd_ne (x : PortSt) (v : CmdSt) (h : j ≠ k) : (x.setCmd k v).cmd j = x.cmd j := by
  cases k <;> cases j <;> simp_all [PortSt.setCmd, PortSt.cmd]

theorem State.portSt_setPort_ne (s : State) (v : PortSt) (h : q ≠ p) : (s.setPort p v).portSt q = s.portSt q := by
  cases p <;> cases q <;> simp_all [State.portSt, State.setPort, State.setHost]

theorem portOther_ne (p : PortId) : p.other ≠ p := by
  cases p <;> decide

theorem State.cmdSt_setCmdSt_other (s : State) (v : CmdSt) : (s.setCmdSt p k v).cmdSt p.other j = s.cmdSt p.other j :=
  congrArg (PortSt.cmd · j) (s.portSt_setPort_ne _ (portOther_ne p))

theorem port_eq_or_other (p q : PortId) : q = p ∨ q = p.other := by
  cases p <;> cases q <;> decide

theorem Keep.cmdSt {K : Nat} (h : Keep K s t) (kept : K.testBit 2 = true) (p k) : t.cmdSt p k = s.cmdSt p k :=
  congrArg (PortSt.cmd · k) (h.portSt kept p)

/-! ### The end of a command -/

theorem State.endCmd_cmdSt : (s.endCmd p k st d).cmdSt p k =
    { s.cmdSt p k with busy := false, status := st, detail := d, phase := .idle } := by
  rw [State.endCmd, State.msix_keep.cmdSt (by decide), State.cmdSt_setCmdSt]

theorem State.endCmd_cmdSt_other : (s.endCmd p k st d).cmdSt p.other j = s.cmdSt p.other j := by
  rw [State.endCmd, State.msix_keep.cmdSt (by decide), State.cmdSt_setCmdSt_other]

theorem ended_endCmd : Ended (s.endCmd p k st d) p k st := by
  rw [Ended, State.endCmd_cmdSt]
  exact ⟨rfl, rfl⟩

/-! ### `GO` -/

/-- The operands that a command latches as `GO` is written (R51). -/
def State.latched (s : State) (f : FnId) (k : CmdSet) (op arg : Byte) (force : Bool) : CmdSt :=
  { s.cmdSt f.port k with
    busy := true, op := op, arg := arg, force := force, fn := f, latched := (s.cmdSt f.port k).addr, goUt := s.now,
    turn := (s.cmdSt f.port.other k).turn + 1, phase := .waitTurn }

/-- The state once `GO` is written on an idle set. -/
def State.go (s : State) (f : FnId) (k : CmdSet) (op arg : Byte) (force : Bool) : State :=
  s.setCmdSt f.port k (s.latched f k op arg force)

theorem State.go_cmdSt : (s.go f k op arg force).cmdSt f.port k = s.latched f k op arg force :=
  State.cmdSt_setCmdSt _ _ _ _

theorem State.go_cmdSt_other : (s.go f k op arg force).cmdSt f.port.other j = s.cmdSt f.port.other j :=
  State.cmdSt_setCmdSt_other _ _

theorem State.go_keep : Keep 72057594037927931 s (s.go f k op arg force) :=
  State.setCmdSt_keep

theorem State.goCmd_eq (idle : (s.cmdSt f.port k).busy = false) : s.goCmd f k op arg force = s.go f k op arg force := by
  rw [State.goCmd, idle]
  rfl

/-- No command of the set waits for its turn. -/
def State.noneWaits (s : State) (k : CmdSet) : Prop := ∀ p, (s.cmdSt p k).busy = true → (s.cmdSt p k).phase ≠ .waitTurn

theorem State.turnOnce_of_noneWaits {run : State → PortId → State} (h : s.noneWaits k) : s.turnOnce k run = s := by
  unfold State.turnOnce
  have under (p) (busy : (s.cmdSt p k).busy = true) : (s.cmdSt p k).underWay = true := by
    simp [CmdSt.underWay, busy, h p busy]
  cases a : (s.cmdSt .h0 k).busy
  · cases b : (s.cmdSt .h1 k).busy
    · simp [a, b]
    · simp [under .h1 b]
  · simp [under .h0 a]

/-- A command that waits for its turn, with the other port's set idle, runs. -/
theorem State.turnOnce_of_waits {run : State → PortId → State} (busy : (s.cmdSt p k).busy = true)
    (waits : (s.cmdSt p k).phase = .waitTurn) (other : (s.cmdSt p.other k).busy = false) : s.turnOnce k run = run s p := by
  cases p <;> simp only [PortId.other] at other <;> simp [State.turnOnce, CmdSt.underWay, busy, waits, other]

/-- A command of a set that is idle at both ports runs at once, and no other command follows it. -/
theorem State.settleSet_goCmd {run : State → PortId → State} (idle : SetIdle s k)
    (after : run (s.go f k op arg force) f.port = u)
    (done : u.noneWaits k) : (s.goCmd f k op arg force).settleSet k run = u := by
  have ran : (s.goCmd f k op arg force).turnOnce k run = u := by
    rw [State.goCmd_eq (idle f.port)]
    refine (State.turnOnce_of_waits (p := f.port) ?_ ?_ ?_).trans after
    · rw [State.go_cmdSt]
      rfl
    · rw [State.go_cmdSt]
      rfl
    · rw [State.go_cmdSt_other, idle]
  rw [State.settleSet, ran, State.turnOnce_of_noneWaits done]

/-- A command of an idle set that ends at once (R47). -/
theorem State.noneWaits_endCmd (other : (s.cmdSt p.other k).busy = false) : (s.endCmd p k st d).noneWaits k := by
  intro q busy
  rcases port_eq_or_other p q with rfl | rfl
  · rw [State.endCmd_cmdSt] at busy
    cases busy
  · rw [State.endCmd_cmdSt_other, other] at busy
    cases busy

theorem State.needRead_cmdSt : (s.needRead p k).cmdSt p k =
    { s.cmdSt p k with phase := if (s.fnSt (s.cmdSt p k).fn).bme then .waitRead else .waitBme } := by
  rw [State.needRead, State.cmdSt_setCmdSt]

theorem State.noneWaits_needRead (other : (s.cmdSt p.other k).busy = false) : (s.needRead p k).noneWaits k := by
  intro q busy
  rcases port_eq_or_other p q with rfl | rfl
  · rw [State.needRead_cmdSt]
    dsimp only
    split <;> exact nofun
  · rw [State.needRead, State.cmdSt_setCmdSt_other, other] at busy
    cases busy

end cmd

end Sys2Proof.Machine

/-! PROOFS. The islet commands (02 R37 to R52). -/

namespace Sys2Proof.Machine

/-! ### The checks (R51, R52) -/

section checks
variable {s : State} {p : PortId} {k : CmdSet} {v : CmdSt} {f : FnId} {op n : Byte} {i j : IsletNo}

theorem State.wiring_setCmdSt : (s.setCmdSt p k v).host.wiring = s.host.wiring := by
  cases p <;> rfl

theorem State.isletCheck_setCmdSt (q : PortId) (x : CmdSt) : (s.setCmdSt p k v).isletCheck q x = s.isletCheck q x := by
  unfold State.isletCheck
  rw [State.wiring_setCmdSt]
  rfl

/-- What an opcode asks of its islet's state, the last of the checks (R52). -/
def State.stateCheck (s : State) (op : Nat) (i : IsletNo) : Option Byte :=
  match op with
  | 1 => if (s.islet i).st = .free then none else some 0x06
  | 2 => if (s.islet i).st = .active then none else some 0x06
  | 3 => if (s.islet i).st = .quiesced then none else some 0x06
  | 4 => if ((s.islet i).st = .quiesced ∨ (s.islet i).st = .halted ∨ (s.islet i).st = .reattach) ∧ s.drained i then none
    else some 0x07
  | 5 => if ((s.islet i).st = .quiesced ∨ (s.islet i).st = .halted) ∧ s.drained i then none else some 0x07
  | _ => if (s.islet i).st = .quiesced ∧ s.drained i then none else some 0x07

/-- A command that every opcode's checks let pass is judged by the state of its islet. -/
theorem IsletCmdFits.isletCheck (fits : IsletCmdFits s f op n) (known : 1 ≤ op.toNat ∧ op.toNat ≤ 6) :
    (s.go f .islet op n false).isletCheck f.port ((s.go f .islet op n false).cmdSt f.port .islet) =
      s.stateCheck op.toNat (toIslet n.toNat) := by
  obtain ⟨-, -, lo, hi, mode, apart, owner⟩ := fits
  have wired : (!s.host.wiring && (s.islet (toIslet n.toNat)).st != .free && (s.islet (toIslet n.toNat)).owner != f.port) =
      false := by
    rcases owner with h | h | h <;> simp [h]
  rw [State.go_cmdSt, State.go, State.isletCheck_setCmdSt]
  unfold State.isletCheck
  rw [if_neg (by show ¬(n.toNat = 0 ∨ 128 < n.toNat); omega), if_neg (by show ¬(op.toNat = 0 ∨ 6 < op.toNat); omega)]
  simp only [State.latched, mode, wired, apart, Bool.false_and, Bool.false_eq_true, if_false]
  rfl

/-- An islet command that fits comes to what carrying it out comes to. -/
theorem IsletCmdFits.command {u : State} (fits : IsletCmdFits s f op n)
    (runs : (s.go f .islet op n false).isletRun f.port = u) (done : u.noneWaits .islet) :
    s.command f .islet op n false = u := by
  obtain ⟨up, idle, -⟩ := fits
  rw [State.command, if_pos up]
  exact State.settleSet_goCmd idle runs done

/-- A command that ends at once, whatever it has done to the rest of the unit. -/
theorem IsletCmdFits.command_ends {u : State} {st : Byte} {d : W32} (fits : IsletCmdFits s f op n)
    (runs : (s.go f .islet op n false).isletRun f.port = u.endCmd f.port .islet st d)
    (ports : ∀ q, u.cmdSt q .islet = (s.go f .islet op n false).cmdSt q .islet) :
    s.command f .islet op n false = u.endCmd f.port .islet st d := by
  refine fits.command runs (State.noneWaits_endCmd ?_)
  rw [ports, State.go_cmdSt_other, fits.2.1]

theorem State.islet_setIslet_ne {x : IsletSt} (h : j ≠ i) : (s.setIslet i x).islet j = s.islet j :=
  tget_tset_other _ _ _ fun e => h (Fin.ext e)

end checks

/-! ### The commands -/

section commands
variable {s : State} {f : FnId} {n : Byte} {i j : IsletNo}

/-- What holds of the unit once a fitting command has ended. -/
theorem IsletCmdFits.yields_ends {i : Instr} {op : Byte} {u : State} (fits : IsletCmdFits s f op n)
    (cmd : exec i s = .next (s.command f .islet op n false))
    (runs : (s.go f .islet op n false).isletRun f.port = u.endCmd f.port .islet 0x00 0)
    (ports : ∀ q, u.cmdSt q .islet = (s.go f .islet op n false).cmdSt q .islet) {P : State → Prop}
    (holds : P (u.endCmd f.port .islet 0x00 0)) : Yields i s P :=
  ⟨_, cmd.trans (congrArg _ (fits.command_ends runs ports)), holds⟩

theorem State.islet_endCmd {p k st d} : (s.endCmd p k st d).islet i = s.islet i :=
  State.endCmd_keep.islet (by decide) i

theorem IsletCmdFits.yields_quiesce (fits : IsletCmdFits s f 2 n) (state : (s.islet (toIslet n.toNat)).st = .active) :
    Yields (.quiesce f n) s fun t => t.islet (toIslet n.toNat) = { s.islet (toIslet n.toNat) with st := .quiescing } ∧
      (∀ j, j ≠ toIslet n.toNat → t.islet j = s.islet j) ∧ Ended t f.port .islet 0x00 := by
  refine fits.yields_ends rfl (u := (s.go f .islet 2 n false).setIslet (toIslet n.toNat)
    { s.islet (toIslet n.toNat) with st := .quiescing }) ?_ (fun q => rfl) ⟨?_, fun j hj => ?_, ended_endCmd⟩
  · rw [State.isletRun, (fits.isletCheck (by decide)).trans (if_pos state), State.go_cmdSt]
    rfl
  · rw [State.islet_endCmd, State.islet_setIslet]
  · rw [State.islet_endCmd, State.islet_setIslet_ne hj]
    rfl

theorem State.islet_roundCheck {c : CoreId} : (s.roundCheck c i).islet j = s.islet j :=
  State.roundCheck_keep.islet (by decide) j

/-- The frames that go on as an islet resumes leave every islet as it is. -/
theorem State.islet_resumeIslet : (s.resumeIslet i).islet j = (s.setIslet i { s.islet i with st := .active }).islet j := by
  unfold State.resumeIslet
  exact Keep.islet (K := 2 ^ 5) (Keep.foldl Keep.rfl' fun t a => netPump_keep.weaken (by decide)) (by decide) j

theorem IsletCmdFits.yields_resume (fits : IsletCmdFits s f 3 n) (state : (s.islet (toIslet n.toNat)).st = .quiesced) :
    Yields (.resume f n) s fun t => t.islet (toIslet n.toNat) = { s.islet (toIslet n.toNat) with st := .active } ∧
      (∀ j, j ≠ toIslet n.toNat → t.islet j = s.islet j) ∧ Ended t f.port .islet 0x00 := by
  have go (j) : (s.go f .islet 3 n false).islet j = s.islet j := State.go_keep.islet (by decide) j
  refine fits.yields_ends rfl (u := (((s.go f .islet 3 n false).roundCheck .a (toIslet n.toNat)).roundCheck .b
    (toIslet n.toNat)).resumeIslet (toIslet n.toNat)) ?_ (fun q => ?_) ⟨?_, fun j hj => ?_, ended_endCmd⟩
  · rw [State.isletRun, (fits.isletCheck (by decide)).trans (if_pos state), State.go_cmdSt]
    rfl
  · rw [State.resumeIslet_keep.cmdSt (by decide), State.roundCheck_keep.cmdSt (by decide),
      State.roundCheck_keep.cmdSt (by decide)]
  · rw [State.islet_endCmd, State.islet_resumeIslet, State.islet_setIslet, State.islet_roundCheck, State.islet_roundCheck, go]
  · rw [State.islet_endCmd, State.islet_resumeIslet, State.islet_setIslet_ne hj, State.islet_roundCheck,
      State.islet_roundCheck, go]

/-- RESET leaves its islet quiesced, with no cause of a halt (R47). -/
theorem State.islet_resetIslet : ((s.resetIslet i).islet i).st = .quiesced ∧ ((s.resetIslet i).islet i).halt = 0 := by
  unfold State.resetIslet
  rw [State.restallAll_keep.islet (by decide), State.islet_setIslet]
  exact ⟨rfl, rfl⟩

theorem IsletCmdFits.yields_reset (fits : IsletCmdFits s f 4 n)
    (state : (s.islet (toIslet n.toNat)).st = .quiesced ∨ (s.islet (toIslet n.toNat)).st = .halted ∨
      (s.islet (toIslet n.toNat)).st = .reattach) (drained : s.drained (toIslet n.toNat) = true)
    (room : s.resetFits (toIslet n.toNat) = none) :
    Yields (.reset f n) s fun t => (t.islet (toIslet n.toNat)).st = .quiesced ∧ (t.islet (toIslet n.toNat)).halt = 0 ∧
      Ended t f.port .islet 0x00 := by
  have fit : (s.go f .islet 4 n false).resetFits (toIslet n.toNat) = none := room
  refine fits.yields_ends rfl (u := (s.go f .islet 4 n false).resetIslet (toIslet n.toNat)) ?_ (fun q => ?_) ?_
  · rw [State.isletRun, (fits.isletCheck (by decide)).trans (if_pos ⟨state, drained⟩), State.go_cmdSt]
    show (match (s.go f .islet 4 n false).resetFits (toIslet n.toNat) with
      | some st => State.endCmd _ f.port .islet st 0
      | none => State.endCmd _ f.port .islet 0x00 0) = _
    rw [fit]
    rfl
  · exact State.resetIslet_keep.cmdSt (by decide) q .islet
  · rw [State.islet_endCmd]
    exact ⟨State.islet_resetIslet.1, State.islet_resetIslet.2, ended_endCmd⟩

/-- DESTROY leaves no islet (R47). -/
theorem State.islet_destroyIslet : (s.destroyIslet i).islet i = IsletSt.init := by
  unfold State.destroyIslet
  dsimp only
  rw [State.reMode_keep.islet (by decide)]
  refine (Keep.islet (K := 2 ^ 5) (Keep.foldl Keep.rfl' fun t a => State.dropDisowned_keep.weaken (by decide)) (by decide) i).trans ?_
  rw [State.poolAlarms_keep.islet (by decide), State.setIsletTraf_keep.islet (by decide), State.islet_setIslet]

theorem IsletCmdFits.yields_destroy (fits : IsletCmdFits s f 5 n)
    (state : (s.islet (toIslet n.toNat)).st = .quiesced ∨ (s.islet (toIslet n.toNat)).st = .halted)
    (drained : s.drained (toIslet n.toNat) = true) :
    Yields (.destroy f n) s fun t => t.islet (toIslet n.toNat) = IsletSt.init ∧ Ended t f.port .islet 0x00 := by
  refine fits.yields_ends rfl (u := (s.go f .islet 5 n false).destroyIslet (toIslet n.toNat)) ?_ (fun q => ?_) ?_
  · rw [State.isletRun, (fits.isletCheck (by decide)).trans (if_pos ⟨state, drained⟩), State.go_cmdSt]
    rfl
  · exact State.destroyIslet_keep.cmdSt (by decide) q .islet
  · rw [State.islet_endCmd]
    exact ⟨State.islet_destroyIslet, ended_endCmd⟩

/-! ### Commands that read (R407) -/

/-- A command that has latched its operands waits for its read, or for Bus Master Enable. -/
theorem awaitsRead_needRead {k : CmdSet} {op arg : Byte} {force : Bool} :
    AwaitsRead s ((s.go f k op arg force).needRead f.port k) f k op arg := by
  have bme : ((s.go f k op arg force).fnSt f).bme = (s.fnSt f).bme := by
    obtain ⟨p, c⟩ := f
    cases p <;> rfl
  rw [AwaitsRead, State.needRead_cmdSt, State.go_cmdSt]
  exact ⟨rfl, rfl, rfl, rfl, rfl, by rw [← bme]; rfl⟩

theorem IsletCmdFits.yields_needRead {i : Instr} {op : Byte} (fits : IsletCmdFits s f op n)
    (cmd : exec i s = .next (s.command f .islet op n false))
    (runs : (s.go f .islet op n false).isletRun f.port = (s.go f .islet op n false).needRead f.port .islet) :
    Yields i s fun t => AwaitsRead s t f .islet op n ∧ t.isl = s.isl := by
  have waits := (s.go f .islet op n false).noneWaits_needRead (p := f.port) (k := .islet)
    (by rw [State.go_cmdSt_other, fits.2.1])
  exact ⟨_, cmd.trans (congrArg _ (fits.command runs waits)), awaitsRead_needRead, rfl⟩

theorem yields_badOpcode {op : Byte} (up : s.fnUp f = true) (idle : SetIdle s .islet) (lo : 1 ≤ n.toNat) (hi : n.toNat ≤ 128)
    (bad : op = 0 ∨ 6 < op.toNat) :
    Yields (.isletCmdBadOpcode f op n) s fun t => t.isl = s.isl ∧ Ended t f.port .islet 0x02 := by
  have out : op.toNat = 0 ∨ 6 < op.toNat := bad.imp_left fun e => by rw [e]; rfl
  have check : (s.go f .islet op n false).isletCheck f.port (s.latched f .islet op n false) = some 0x02 := by
    unfold State.isletCheck
    rw [if_neg (by show ¬(n.toNat = 0 ∨ 128 < n.toNat); omega)]
    exact if_pos out
  have run : (s.go f .islet op n false).isletRun f.port = (s.go f .islet op n false).endCmd f.port .islet 0x02 0 := by
    rw [State.isletRun, State.go_cmdSt]
    simp only [check]
  have done : ((s.go f .islet op n false).endCmd f.port .islet 0x02 0).noneWaits .islet :=
    State.noneWaits_endCmd (by rw [State.go_cmdSt_other, idle])
  have command : s.command f .islet op n false = _ := (if_pos up).trans (State.settleSet_goCmd idle run done)
  refine ⟨_, congrArg Host.Outcome.next command, ?_, ended_endCmd⟩
  exact State.endCmd_keep.isl (by decide)

/-- A drained islet leaves `QUIESCING` or `HALTING`, and no other islet changes (R46, R48, R49). -/
theorem yields_isletDrained {i : IsletNo} (drained : s.drained i = true) :
    Yields (.isletDrained i) s fun t => (t.islet i).st = (match (s.islet i).st with
      | .quiescing => .quiesced
      | .halting => .halted
      | st => st) ∧ ∀ j, j ≠ i → t.islet j = s.islet j := by
  refine ⟨_, rfl, ?_⟩
  rw [drained]
  cases st : (s.islet i).st
  case quiescing => exact ⟨by simp, fun j hj => State.islet_setIslet_ne hj⟩
  case halting => exact ⟨by simp, fun j hj => State.islet_setIslet_ne hj⟩
  all_goals exact ⟨st, fun j _ => rfl⟩

end commands

/-- Settles O9, a command at a time. -/
theorem isletCommands : Obligations.IsletCommands := by
  refine ⟨fun f n s fits state => fits.yields_quiesce state, fun f n s fits state => fits.yields_resume state,
    fun f n s fits state drained room => fits.yields_reset state drained room,
    fun f n s fits state drained => fits.yields_destroy state drained, fun f n s fits state => ?_,
    fun f n s fits state drained => ?_, fun f op n s up idle lo hi bad => ?_, fun i s drained => yields_isletDrained drained⟩
  · refine fits.yields_needRead rfl ?_
    rw [State.isletRun, (fits.isletCheck (by decide)).trans (if_pos state), State.go_cmdSt]
    rfl
  · refine fits.yields_needRead rfl ?_
    rw [State.isletRun, (fits.isletCheck (by decide)).trans (if_pos ⟨state, drained⟩), State.go_cmdSt]
    rfl
  · exact yields_badOpcode up idle lo hi bad

end Sys2Proof.Machine

/-! PROOFS. The data of a command's host read (02 R37 to R41, R47, R407; 07 R208). -/

namespace Sys2Proof.Machine

/-- The links as a whole. -/
theorem Keep.link_whole {K : Nat} {s t : State} (h : Keep K s t)
    (kept : (K.testBit 20 && K.testBit 21 && K.testBit 22 && K.testBit 23 && K.testBit 51) = true) : t.link = s.link := by
  simp only [Bool.and_eq_true] at kept
  obtain ⟨⟨⟨⟨seats, times⟩, tuns⟩, keys⟩, line⟩ := kept
  have eta (x : LinkSt) : x = ⟨x.seats, x.times, x.tuns, x.keys, x.line⟩ := rfl
  rw [eta t.link, eta s.link, show t.link.seats = s.link.seats from h.linkSeats seats,
    show t.link.times = s.link.times from h.linkTimes times, show t.link.tuns = s.link.tuns from h.linkTuns tuns,
    show t.link.keys = s.link.keys from h.linkKeys keys, show t.link.line = s.link.line from h.line line]

/-! ### What the read itself leaves -/

/-- The state with wiped what the requests of a command's read change. -/
def State.unread (s : State) : State :=
  { s with
    evt := State.reset.evt, pow := State.reset.pow, cnt := State.reset.cnt, traf := { s.traf with islets := [] }
    host := { s.host with reqs := [], nextRead := 0, waiting := [], deficit := [], turn := [], tx := [] } }

section unread
variable {s t : State} {p q : PortId} {k j : CmdSet}

theorem Quiet.unread (h : Quiet s t) : t.unread = s.unread :=
  (show t.unread = ({ t with evt := s.evt, pow := s.pow, cnt := s.cnt } : State).unread from rfl).trans (congrArg State.unread h)

theorem State.sendReads_unread {f : FnId} {i : IsletNo} {a l : Nat} : (s.sendReads f i a l).unread = s.unread := by
  unfold State.sendReads
  generalize chunks (s.fnSt f).maxRead a l = c
  induction c generalizing s with
  | nil => rfl
  | cons e c ih => exact (ih).trans rfl

theorem State.countDemand_unread {i : IsletNo} {r w : Nat} : (s.countDemand i r w).unread = s.unread := by
  unfold State.countDemand
  split <;> rfl

theorem State.commandRead_unread {o l : Nat} : (s.commandRead p k o l).unread = s.unread := by
  unfold State.commandRead
  refine (quiet_count _ _ _ _ _).unread.trans (State.sendReads_unread.trans ?_)
  exact State.countDemand_unread

/-- The state in which the data of a command's read is looked at. -/
def State.readFor (s : State) (p : PortId) (k : CmdSet) (data : Option (List Byte)) : State :=
  (cmdParts k data).foldl (fun s e => s.commandRead p k e.1 e.2) s

theorem State.readFor_unread {data} : (s.readFor p k data).unread = s.unread := by
  unfold State.readFor
  generalize cmdParts k data = c
  induction c generalizing s with
  | nil => rfl
  | cons e c ih => exact ih.trans State.commandRead_unread

theorem State.readFor_keep {data} : Keep 70896355140165631 s (s.readFor p k data) :=
  Keep.foldl Keep.rfl' fun _ _ => State.commandRead_keep

theorem State.readFor_isletCheck {data} (x : CmdSt) : (s.readFor p k data).isletCheck q x = s.isletCheck q x := by
  show (s.readFor p k data).unread.isletCheck q x = s.unread.isletCheck q x
  rw [State.readFor_unread]

theorem State.readFor_createCheck {data} (b n g) : (s.readFor p k data).createCheck q b n g = s.createCheck q b n g := by
  show (s.readFor p k data).unread.createCheck q b n g = s.unread.createCheck q b n g
  rw [State.readFor_unread]

theorem State.readFor_seatTaken {data} (i m) : (s.readFor p k data).seatTaken i m = s.seatTaken i m := by
  show (s.readFor p k data).unread.seatTaken i m = s.unread.seatTaken i m
  rw [State.readFor_unread]

end unread

/-! ### The command goes on -/

section completion
variable {s u : State} {p : PortId} {k : CmdSet} {op : Byte} {data : Option (List Byte)}

/-- A set none of whose commands waits for its turn stays as it is. -/
theorem State.settle_of_noneWaits (h : s.noneWaits k) : s.settle k = s := by
  cases k
  case unitCmd =>
    have skip (p) : ((s.cmdSt p .unitCmd).busy && (s.cmdSt p .unitCmd).phase == .waitTurn) = false := by
      cases busy : (s.cmdSt p .unitCmd).busy
      · rfl
      · simp [h p busy]
    simp only [State.settle, State.settleUnit, bothPorts, List.foldl_cons, List.foldl_nil, skip, Bool.false_and,
      Bool.false_eq_true, if_false]
  all_goals
    simp only [State.settle, State.settleSet]
    rw [State.turnOnce_of_noneWaits h, State.turnOnce_of_noneWaits h]

/-- What the data of its read makes of a command. -/
def State.takeRead (s : State) (p : PortId) (k : CmdSet) (data : Option (List Byte)) : State :=
  match k with
  | .islet => s.isletRead p data
  | .unitProgram => s.progRead p data
  | .dockKey => s.keyRead p data
  | .unitCmd => s.unitRead p data

theorem exec_descriptorReadCompletion (reading : Reading s p k op) :
    exec (.descriptorReadCompletion p k data) s = .next (((s.readFor p k data).takeRead p k data).settle k) := by
  obtain ⟨busy, phase, -, -⟩ := reading
  show Host.Outcome.next (if ((s.cmdSt p k).busy && (s.cmdSt p k).phase == .waitRead) = true then _ else _) = _
  rw [busy, phase, if_pos (by rfl)]
  cases k <;> rfl

/-- A command that ends with the data of its read. -/
theorem Reading.yields_ends (reading : Reading s p k op) {st : Byte} {d : W32}
    (run : (s.readFor p k data).takeRead p k data = u.endCmd p k st d) (ports : ∀ q, u.cmdSt q k = s.cmdSt q k)
    {P : State → Prop} (holds : P (u.endCmd p k st d)) : Yields (.descriptorReadCompletion p k data) s P := by
  refine ⟨_, exec_descriptorReadCompletion reading, ?_⟩
  rw [run, State.settle_of_noneWaits (State.noneWaits_endCmd ?_)]
  · exact holds
  · rw [ports]
    exact reading.2.2.2

/-- A command whose read has failed ends with 0x08 (R407). -/
theorem Reading.yields_failed (reading : Reading s p k op) (check : k = .islet → s.isletCheck p (s.cmdSt p .islet) = none) :
    Yields (.descriptorReadCompletion p k none) s fun t => Ended t p k 0x08 ∧ t.isl = s.isl ∧ t.link = s.link := by
  refine reading.yields_ends (u := s.readFor p k none) (st := 0x08) (d := 0) ?_
    (fun q => State.readFor_keep.cmdSt (by decide) q k) ⟨ended_endCmd, ?_, ?_⟩
  · cases k
    case islet =>
      simp only [State.takeRead, State.isletRead, State.readFor_keep.cmdSt (s := s) (by decide), State.readFor_isletCheck, check]
    all_goals rfl
  · exact (State.endCmd_keep.isl (by decide)).trans (State.readFor_keep.isl (by decide))
  · exact (State.endCmd_keep.link_whole (by decide)).trans (State.readFor_keep.link_whole (by decide))

end completion

/-! ### Seats (R40, R47) -/

section seats
variable {s : State} {i : IsletNo} {x : Seat} {m a : W64}

theorem State.gainSeat_islet : (s.gainSeat i x).islet i = { s.islet i with seats := (s.islet i).seats ||| (1#64 <<< x.val) } := by
  rw [State.gainSeat, State.settleSeat_keep.islet (by decide), State.freshPorts_keep.islet (by decide), State.islet_setIslet]

/-- A mask with the bits of seats added. -/
def addSeats (a : W64) (l : List Seat) : W64 := l.foldl (fun m x => m ||| (1#64 <<< x.val)) a

theorem State.gainSeats_islet (l : List Seat) :
    (l.foldl (fun s x => s.gainSeat i x) s).islet i = { s.islet i with seats := addSeats (s.islet i).seats l } := by
  induction l generalizing s with
  | nil => rfl
  | cons x l ih =>
    rw [List.foldl_cons, ih, State.gainSeat_islet]
    rfl

theorem getLsbD_addSeats {k : Nat} (hk : k < 64) (l : List Seat) :
    (addSeats a l).getLsbD k = (a.getLsbD k || l.any fun x => x.val == k) := by
  induction l generalizing a with
  | nil => simp [addSeats]
  | cons x l ih =>
    have bit : (a ||| 1#64 <<< x.val).getLsbD k = (a.getLsbD k || x.val == k) := by
      rw [BitVec.getLsbD_or, BitVec.getLsbD_shiftLeft, BitVec.getLsbD_one]
      have : (decide (k < 64) && !decide (k < x.val) && decide (0 < 64 ∧ k - x.val = 0)) = (x.val == k) := by
        rw [Bool.eq_iff_iff]
        simp only [Bool.and_eq_true, decide_eq_true_eq, Bool.not_eq_true', decide_eq_false_iff_not, beq_iff_eq]
        omega
      simpa using congrArg (a.getLsbD k || ·) this
    rw [addSeats, List.foldl_cons, ← addSeats, ih, bit, List.any_cons, Bool.or_assoc]

theorem addSeats_maskSeats : addSeats a (maskSeats m) = a ||| m := by
  apply BitVec.eq_of_getLsbD_eq
  intro k hk
  rw [getLsbD_addSeats hk, BitVec.getLsbD_or]
  congr 1
  rw [Bool.eq_iff_iff, List.any_eq_true]
  simp only [maskSeats, List.mem_filter, beq_iff_eq]
  constructor
  · rintro ⟨x, ⟨-, hx⟩, rfl⟩
    exact hx
  · intro h
    exact ⟨⟨k, hk⟩, ⟨List.mem_finRange _, h⟩, rfl⟩

theorem maskSeats_zero : maskSeats 0 = [] := by
  simp only [maskSeats, List.filter_eq_nil_iff]
  intro x _
  simp

/-- Seats that an islet gains alone are the seats that it then has (R40). -/
theorem State.setSeats_islet (kept : (s.islet i).seats &&& ~~~m = 0) :
    (s.setSeats i m).islet i = { s.islet i with seats := m } := by
  have all : (s.islet i).seats ||| (m &&& ~~~(s.islet i).seats) = m := by
    apply BitVec.eq_of_getLsbD_eq
    intro k hk
    have bit := congrArg (BitVec.getLsbD · k) kept
    simp only [BitVec.getLsbD_and, BitVec.getLsbD_not, hk, decide_true, Bool.true_and, show (0 : W64).getLsbD k = false from BitVec.getLsbD_zero] at bit
    simp only [BitVec.getLsbD_or, BitVec.getLsbD_and, BitVec.getLsbD_not, hk, decide_true, Bool.true_and]
    revert bit
    cases (s.islet i).seats.getLsbD k <;> cases m.getLsbD k <;> decide
  simp only [State.setSeats, kept, maskSeats_zero, List.foldl_nil]
  rw [State.gainSeats_islet, addSeats_maskSeats, all]

theorem State.createIslet_islet {p : PortId} {b : List Byte} :
    (s.createIslet i p b).islet i =
      { isletOf b with owner := p, vbase := (s.vectorBlock (isletOf b)).getD 0, seats := dSeats b } := by
  have made : ∀ t : State, (bothCores.foldl (fun s c => s.setIsw c i []) (t.setIsletTraf i IsletTraf.init)).islet i = t.islet i :=
    fun _ => rfl
  rw [State.createIslet, State.reMode_keep.islet (by decide), State.gainSeats_islet, made, State.poolAlarms_keep.islet (by decide),
    State.islet_setIslet, addSeats_maskSeats]
  exact congrArg (fun x => ({ isletOf b with owner := p, vbase := (s.vectorBlock (isletOf b)).getD 0, seats := x } : IsletSt))
    (BitVec.zero_or)

end seats

/-! ### Dock keys (07 R208) -/

section keys
variable {s : State} {p : PortId} {id : W64} {a b : LinkState} {rest : List (W64 × List Byte)} {v : List Byte}

theorem Keep.dockKey {K : Nat} {s t : State} (h : Keep K s t) (kept : K.testBit 23 = true) (id : W64) :
    t.dockKey id = s.dockKey id := by
  rw [State.dockKey, State.dockKey, show t.link.keys = s.link.keys from h.linkKeys kept]

theorem State.setKeys_keys : (s.setKeys rest).link.keys = rest :=
  (State.storeUpdate_keep.linkKeys (by decide)).trans rfl

/-- The other docks' keys of a key store hold no key of the dock. -/
theorem find_filter_ne (l : List (W64 × List Byte)) : ((l.filter fun k => k.1 != id).find? fun k => k.1 == id) = none := by
  simp [List.find?_eq_none]

theorem State.dockKey_setKeys_add :
    (s.setKeys ((s.link.keys.filter fun k => k.1 != id) ++ [(id, v)])).dockKey id = some v := by
  rw [State.dockKey, State.setKeys_keys, List.find?_append, find_filter_ne]
  simp

theorem State.dockKey_setKeys_remove : (s.setKeys (s.link.keys.filter fun k => k.1 != id)).dockKey id = none := by
  rw [State.dockKey, State.setKeys_keys, find_filter_ne]
  rfl

end keys

/-! ### The commands -/

section commands
variable {s : State} {p : PortId} {k : CmdSet} {op : Byte} {b : List Byte} {P : State → Prop}

/-- The islet that the command of the port names. -/
def State.cmdIslet (s : State) (p : PortId) : IsletNo := toIslet (s.cmdSt p .islet).arg.toNat

theorem Reading.createRead (reading : Reading s p .islet 1) (check : s.isletCheck p (s.cmdSt p .islet) = none)
    (create : s.createCheck p b (s.cmdSt p .islet).arg.toNat (s.cmdSt p .islet).fn.core = none) :
    (s.readFor p .islet (some b)).takeRead p .islet (some b) =
      ((s.readFor p .islet (some b)).createIslet (s.cmdIslet p) p b).endCmd p .islet 0x00 0 := by
  simp only [State.takeRead, State.isletRead, State.readFor_keep.cmdSt (s := s) (by decide), State.readFor_isletCheck, check,
    reading.2.2.1, State.readFor_createCheck, create, if_true, State.cmdIslet]

theorem Reading.yields_create (reading : Reading s p .islet 1) (check : s.isletCheck p (s.cmdSt p .islet) = none)
    (create : s.createCheck p b (s.cmdSt p .islet).arg.toNat (s.cmdSt p .islet).fn.core = none) :
    Yields (.descriptorReadCompletion p .islet (some b)) s fun t =>
      (t.islet (s.cmdIslet p)).st = .active ∧ (t.islet (s.cmdIslet p)).seats = dSeats b ∧
      (t.islet (s.cmdIslet p)).pasid = BitVec.ofNat 20 (dPasid b) ∧ (t.islet (s.cmdIslet p)).home = dHome b ∧
      Ended t p .islet 0x00 := by
  refine reading.yields_ends (reading.createRead check create) (fun q => ?_) ?_
  · rw [State.createIslet_keep.cmdSt (by decide), State.readFor_keep.cmdSt (by decide)]
  · rw [State.islet_endCmd, State.createIslet_islet]
    exact ⟨rfl, rfl, rfl, rfl, ended_endCmd⟩

theorem Reading.seatsRead (reading : Reading s p .islet 6) (check : s.isletCheck p (s.cmdSt p .islet) = none)
    (good : seatsDescriptorBad b (s.cmdSt p .islet).arg.toNat (s.islet (s.cmdIslet p)) = false)
    (free : s.seatTaken (s.cmdIslet p) (dSeats b) = false) :
    (s.readFor p .islet (some b)).takeRead p .islet (some b) =
      ((s.readFor p .islet (some b)).setSeats (s.cmdIslet p) (dSeats b)).endCmd p .islet 0x00 0 := by
  unfold State.cmdIslet at *
  simp only [State.takeRead, State.isletRead, State.readFor_keep.cmdSt (s := s) (by decide), State.readFor_isletCheck, check,
    reading.2.2.1, State.readFor_keep.islet (s := s) (by decide), good, State.readFor_seatTaken, free,
    Bool.false_eq_true, if_false, show ¬((6 : Byte) = 1) by decide]

theorem Reading.yields_setSeats (reading : Reading s p .islet 6) (check : s.isletCheck p (s.cmdSt p .islet) = none)
    (good : seatsDescriptorBad b (s.cmdSt p .islet).arg.toNat (s.islet (s.cmdIslet p)) = false)
    (free : s.seatTaken (s.cmdIslet p) (dSeats b) = false) (more : (s.islet (s.cmdIslet p)).seats &&& ~~~(dSeats b) = 0) :
    Yields (.descriptorReadCompletion p .islet (some b)) s fun t =>
      t.islet (s.cmdIslet p) = { s.islet (s.cmdIslet p) with seats := dSeats b } ∧ Ended t p .islet 0x00 := by
  have read : (s.readFor p .islet (some b)).islet (s.cmdIslet p) = s.islet (s.cmdIslet p) := State.readFor_keep.islet (by decide) _
  refine reading.yields_ends (reading.seatsRead check good free) (fun q => ?_) ⟨?_, ended_endCmd⟩
  · rw [State.setSeats_keep.cmdSt (by decide), State.readFor_keep.cmdSt (by decide)]
  · rw [State.islet_endCmd, State.setSeats_islet (by rw [read]; exact more), read]

/-- The dock that a key record names. -/
def recordDock (b : List Byte) : W64 := BitVec.ofNat 64 (fld b 0 8)

/-- What adding the key of a record leaves before the command ends. -/
def State.keyAdded (s : State) (b : List Byte) : State :=
  if (s.dockKey (recordDock b)).isSome then
    (s.setKeys ((s.link.keys.filter fun k => k.1 != recordDock b) ++ [(recordDock b, slice b 8 32)])).renewDocks (recordDock b) .up .authFailed
  else
    (s.setKeys ((s.link.keys.filter fun k => k.1 != recordDock b) ++ [(recordDock b, slice b 8 32)])).renewDocks (recordDock b)
      .unenrolled .unenrolled

/-- What removing the key of a record's dock leaves before the command ends. -/
def State.keyRemoved (s : State) (b : List Byte) : State :=
  (s.setKeys (s.link.keys.filter fun k => k.1 != recordDock b)).renewDocks (recordDock b) .up .up

theorem State.keyAdded_dockKey : (s.keyAdded b).dockKey (recordDock b) = some (slice b 8 32) := by
  unfold State.keyAdded
  split
  · rw [State.renewDocks_keep.dockKey (by decide), State.dockKey_setKeys_add]
  · rw [State.renewDocks_keep.dockKey (by decide), State.dockKey_setKeys_add]

theorem State.keyAdded_cmdSt (q j) : (s.keyAdded b).cmdSt q j = s.cmdSt q j := by
  unfold State.keyAdded
  split
  · rw [State.renewDocks_keep.cmdSt (by decide), State.setKeys_keep.cmdSt (by decide)]
  · rw [State.renewDocks_keep.cmdSt (by decide), State.setKeys_keep.cmdSt (by decide)]

theorem State.keyRemoved_dockKey : (s.keyRemoved b).dockKey (recordDock b) = none := by
  rw [State.keyRemoved, State.renewDocks_keep.dockKey (by decide), State.dockKey_setKeys_remove]

theorem State.keyRemoved_cmdSt (q j) : (s.keyRemoved b).cmdSt q j = s.cmdSt q j := by
  rw [State.keyRemoved, State.renewDocks_keep.cmdSt (by decide), State.setKeys_keep.cmdSt (by decide)]

theorem State.keyRead_add (op : (s.cmdSt p .dockKey).op = 1) (good : keyRecordBad 1 b = false)
    (room : (s.dockKey (recordDock b)).isSome = true ∨ s.link.keys.length < 512) :
    s.keyRead p (some b) = (s.keyAdded b).endCmd p .dockKey 0x00 0 := by
  have fits : (!(s.dockKey (recordDock b)).isSome && decide (512 ≤ s.link.keys.length)) = false := by
    rcases room with known | few
    · simp [known]
    · simp [Nat.not_le.mpr few]
  by_cases known : (s.dockKey (recordDock b)).isSome = true
  · rw [State.keyAdded, if_pos known]
    unfold recordDock at known fits ⊢
    simp only [known] at fits
    simp only [State.keyRead, op, good, fits, known, Bool.false_eq_true, if_false, if_true]
  · rw [State.keyAdded, if_neg known]
    unfold recordDock at known fits ⊢
    simp only [known] at fits
    simp only [State.keyRead, op, good, fits, known, Bool.false_eq_true, if_false, if_true]

theorem State.keyRead_remove (op : (s.cmdSt p .dockKey).op = 2) (good : keyRecordBad 2 b = false)
    (known : (s.dockKey (recordDock b)).isSome = true) :
    s.keyRead p (some b) = (s.keyRemoved b).endCmd p .dockKey 0x00 0 := by
  unfold recordDock at known
  simp only [State.keyRead, op, good, known, Bool.not_true, Bool.false_eq_true, if_false, show ¬((2 : Byte) = 1) by decide,
    State.keyRemoved, recordDock]

theorem Reading.yields_keyAdded (reading : Reading s p .dockKey 1) (good : keyRecordBad 1 b = false)
    (room : (s.dockKey (recordDock b)).isSome = true ∨ s.link.keys.length < 512) :
    Yields (.descriptorReadCompletion p .dockKey (some b)) s fun t =>
      t.dockKey (recordDock b) = some (slice b 8 32) ∧ Ended t p .dockKey 0x00 := by
  have ports (q) : (s.readFor p .dockKey (some b)).cmdSt q .dockKey = s.cmdSt q .dockKey :=
    State.readFor_keep.cmdSt (by decide) q _
  refine reading.yields_ends (u := (s.readFor p .dockKey (some b)).keyAdded b) (data := some b) (State.keyRead_add ?_ good ?_)
    (fun q => (State.keyAdded_cmdSt q _).trans (ports q)) ⟨?_, ended_endCmd⟩
  · rw [ports, reading.2.2.1]
  · rw [State.readFor_keep.dockKey (by decide), Keep.link_whole State.readFor_keep (by decide)]
    exact room
  · rw [State.endCmd_keep.dockKey (by decide), State.keyAdded_dockKey]

theorem Reading.yields_keyRemoved (reading : Reading s p .dockKey 2) (good : keyRecordBad 2 b = false)
    (known : (s.dockKey (recordDock b)).isSome = true) :
    Yields (.descriptorReadCompletion p .dockKey (some b)) s fun t =>
      t.dockKey (recordDock b) = none ∧ Ended t p .dockKey 0x00 := by
  have ports (q) : (s.readFor p .dockKey (some b)).cmdSt q .dockKey = s.cmdSt q .dockKey :=
    State.readFor_keep.cmdSt (by decide) q _
  refine reading.yields_ends (u := (s.readFor p .dockKey (some b)).keyRemoved b) (data := some b) (State.keyRead_remove ?_ good ?_)
    (fun q => (State.keyRemoved_cmdSt q _).trans (ports q)) ⟨?_, ended_endCmd⟩
  · rw [ports, reading.2.2.1]
  · rw [State.readFor_keep.dockKey (by decide)]
    exact known
  · rw [State.endCmd_keep.dockKey (by decide), State.keyRemoved_dockKey]

/-- 2 ms without Bus Master Enable end a command with 0x08 (R407). -/
theorem yields_busMasterWaitTimeout {ut : Nat} (busy : (s.cmdSt p k).busy = true) (phase : (s.cmdSt p k).phase = .waitBme)
    (other : (s.cmdSt p.other k).busy = false) (late : (s.cmdSt p k).goUt + 2000000 ≤ ut) :
    Yields (.busMasterWaitTimeout p k ut) s fun t => Ended t p k 0x08 ∧ t.isl = s.isl := by
  have over_ : (s.cmdSt p k).goUt + 2 * ms ≤ (s.arrive ut).now := by
    rw [State.arrive_now, ms]
    omega
  have same (q) : (s.arrive ut).cmdSt q k = s.cmdSt q k := State.arrive_keep.cmdSt (by decide) q k
  refine ⟨(s.arrive ut).endCmd p k 0x08 0, ?_, ended_endCmd, ?_⟩
  · show Host.Outcome.next (if _ then _ else _) = _
    rw [same, busy, phase, if_pos (by simpa using over_), State.settle_of_noneWaits (State.noneWaits_endCmd (by rw [same, other]))]
  · exact (State.endCmd_keep.isl (by decide)).trans (State.arrive_keep.isl (by decide))

end commands

/-- Settles O10: the read of a command's data leaves what the command's checks look at. -/
theorem commandReads : Obligations.CommandReads :=
  ⟨fun _ _ _ reading check create => reading.yields_create check create,
    fun _ _ _ reading check good free more => reading.yields_setSeats check good free more,
    fun _ _ _ reading good room => reading.yields_keyAdded good room,
    fun _ _ _ reading good known => reading.yields_keyRemoved good known,
    fun _ _ _ _ reading check => reading.yields_failed check,
    fun _ _ _ _ busy phase other late => yields_busMasterWaitTimeout busy phase other late⟩

end Sys2Proof.Machine

/-! PROOFS. Unit images, dock keys and unit commands as they are written (04 R127; 07 R208; 12 R322, R327, R331, R334). -/

namespace Sys2Proof.Machine

/-! ### A fold over a list that treats each member once -/

/-- What a fold gives each member of its list, when a later member leaves it. -/
theorem foldl_forall {α : Type} {g : State → α → State} {P : α → State → Prop} (gives : ∀ s a, P a (g s a))
    (leaves : ∀ s a b, P b s → P b (g s a)) (l : List α) (s : State) : ∀ a ∈ l, P a (l.foldl g s) := by
  have kept (l : List α) (b : α) : ∀ s, P b s → P b (l.foldl g s) := by
    induction l with
    | nil => exact fun s h => h
    | cons x l ih => exact fun s h => ih _ (leaves s x b h)
  induction l generalizing s with
  | nil => exact nofun
  | cons x l ih =>
    intro a ha
    rcases List.mem_cons.mp ha with rfl | ha
    · exact kept l a _ (gives s a)
    · exact ih _ a ha

/-! ### `GO` on an idle set -/

section command
variable {s u : State} {f : FnId} {k : CmdSet} {op arg : Byte} {force : Bool} {st : Byte} {d : W32} {i : Instr} {P : State → Prop}

/-- What carrying out a command of a set comes to. -/
def State.runSet (s : State) (k : CmdSet) (p : PortId) : State :=
  match k with
  | .islet => s.isletRun p
  | .unitProgram => s.progRun p
  | .dockKey => s.keyRun p
  | .unitCmd => s.unitRun p

/-- The unit command of one port runs where its turn has come. -/
def State.unitTurn (s : State) (p : PortId) : State :=
  if (s.cmdSt p .unitCmd).busy && (s.cmdSt p .unitCmd).phase == .waitTurn &&
    !((s.cmdSt p .unitCmd).op == 4 && (s.cmdSt p.other .unitCmd).op == 4 && (s.cmdSt p.other .unitCmd).underWay) then s.unitRun p
  else s

theorem State.settleUnit_eq : s.settleUnit = (s.unitTurn .h0).unitTurn .h1 := rfl

theorem State.unitTurn_of_noneWaits (h : s.noneWaits .unitCmd) (p : PortId) : s.unitTurn p = s := by
  unfold State.unitTurn
  cases busy : (s.cmdSt p .unitCmd).busy
  · rfl
  · simp [h p busy]

theorem State.unitTurn_of_idle {p : PortId} (h : (s.cmdSt p .unitCmd).busy = false) : s.unitTurn p = s := by
  unfold State.unitTurn
  rw [h]
  rfl

theorem State.unitTurn_go (idle : SetIdle s .unitCmd) :
    (s.go f .unitCmd op arg force).unitTurn f.port = (s.go f .unitCmd op arg force).unitRun f.port := by
  rw [State.unitTurn, State.go_cmdSt, State.go_cmdSt_other, CmdSt.underWay, idle]
  exact if_pos (by simp [State.latched])

/-- A unit command whose set is idle at both ports runs at once, and no other command follows it. -/
theorem State.settleUnit_goCmd (idle : SetIdle s .unitCmd) (runs : (s.go f .unitCmd op arg force).unitRun f.port = u)
    (done : u.noneWaits .unitCmd) : (s.goCmd f .unitCmd op arg force).settleUnit = u := by
  have mine := (s.unitTurn_go (f := f) (op := op) (arg := arg) (force := force) idle).trans runs
  have others := s.go_cmdSt_other (f := f) (k := .unitCmd) (j := .unitCmd) (op := op) (arg := arg) (force := force)
  rw [State.goCmd_eq (idle f.port), State.settleUnit_eq]
  obtain ⟨p, c⟩ := f
  cases p
  · rw [mine, State.unitTurn_of_noneWaits done]
  · rw [State.unitTurn_of_idle (p := .h0) ((congrArg CmdSt.busy others).trans (idle _)), mine]

/-- A command of a set that is idle comes to what carrying it out comes to, when none then waits for its turn. -/
theorem State.command_eq (up : s.fnUp f = true) (idle : SetIdle s k) (runs : (s.go f k op arg force).runSet k f.port = u)
    (done : u.noneWaits k) : s.command f k op arg force = u := by
  rw [State.command, if_pos up]
  cases k
  case unitCmd => exact State.settleUnit_goCmd idle runs done
  all_goals exact State.settleSet_goCmd idle runs done

theorem yields_command (up : s.fnUp f = true) (idle : SetIdle s k) (cmd : exec i s = .next (s.command f k op arg force))
    (runs : (s.go f k op arg force).runSet k f.port = u) (done : u.noneWaits k) (holds : P u) : Yields i s P :=
  ⟨u, cmd.trans (congrArg _ (State.command_eq up idle runs done)), holds⟩

/-- A command that ends at once. -/
theorem yields_command_ends (up : s.fnUp f = true) (idle : SetIdle s k)
    (cmd : exec i s = .next (s.command f k op arg force))
    (runs : (s.go f k op arg force).runSet k f.port = u.endCmd f.port k st d)
    (ports : u.cmdSt f.port.other k = s.cmdSt f.port.other k) (holds : P (u.endCmd f.port k st d)) : Yields i s P :=
  yields_command up idle cmd runs (State.noneWaits_endCmd (by rw [ports, idle])) holds

/-- A command that waits for its read. -/
theorem yields_command_reads (up : s.fnUp f = true) (idle : SetIdle s k)
    (cmd : exec i s = .next (s.command f k op arg force))
    (runs : (s.go f k op arg force).runSet k f.port = (s.go f k op arg force).needRead f.port k)
    (holds : P ((s.go f k op arg force).needRead f.port k)) : Yields i s P :=
  yields_command up idle cmd runs (State.noneWaits_needRead (by rw [State.go_cmdSt_other, idle])) holds

theorem State.mayUnitWide_go {p : PortId} : (s.go f k op arg force).mayUnitWide p = s.mayUnitWide p := by
  obtain ⟨q, c⟩ := f
  cases q <;> rfl

end command

/-! ### Unit images (04 R127) -/

section images
variable {s : State} {f : FnId} {a n : Byte} {slot : Fin 4}

theorem unitSlot_ofNat (slot : Fin 4) : toFin 3 (BitVec.ofNat 8 slot.val).toNat = slot := by
  revert slot
  decide

theorem unitSlot_le (slot : Fin 4) : ¬3 < (BitVec.ofNat 8 slot.val).toNat := by
  revert slot
  decide

theorem State.progRun_go (mode : s.mode.mode ≠ .unsupervised) (safe : s.mode.mode ≠ .safeStop)
    (may : s.mayUnitWide f.port = true) (whole : s.apart = false) (known : a = 1 ∨ a = 2) :
    (s.go f .unitProgram a (BitVec.ofNat 8 slot.val) false).progRun f.port =
      if a = 1 then (s.go f .unitProgram a (BitVec.ofNat 8 slot.val) false).needRead f.port .unitProgram
      else if bothCores.any fun c => (s.store c).any fun m => m.live && m.id == .unit slot then
        ((s.go f .unitProgram a (BitVec.ofNat 8 slot.val) false).unloadUnit slot).endCmd f.port .unitProgram 0x00 0
      else (s.go f .unitProgram a (BitVec.ofNat 8 slot.val) false).endCmd f.port .unitProgram 0x75 0 := by
  have fields : ¬((a ≠ 1 ∧ a ≠ 2) ∨ 3 < (BitVec.ofNat 8 slot.val).toNat) :=
    not_or.mpr ⟨fun h => known.elim h.1 h.2, unitSlot_le slot⟩
  rw [State.progRun, State.go_cmdSt]
  simp only [State.latched, State.mayUnitWide_go, may, unitSlot_ofNat]
  rw [if_neg fields, if_neg (by show ¬((s.mode.mode == .unsupervised || s.mode.mode == .safeStop) = true); simp [mode, safe]),
    if_neg (by show ¬((!true || s.apart) = true); simp [whole])]
  rfl

theorem yields_unitProgramLoad (up : s.fnUp f = true) (idle : SetIdle s .unitProgram) (mode : s.mode.mode ≠ .unsupervised)
    (safe : s.mode.mode ≠ .safeStop) (may : s.mayUnitWide f.port = true) (whole : s.apart = false) :
    Yields (.unitProgramLoad f slot) s fun t =>
      AwaitsRead s t f .unitProgram 1 (BitVec.ofNat 8 slot.val) ∧ t.prog = s.prog :=
  yields_command_reads up idle rfl ((State.progRun_go mode safe may whole (.inl rfl)).trans (if_pos rfl))
    ⟨awaitsRead_needRead, rfl⟩

theorem State.store_setStore_ne {c d : CoreId} {v : List ImageSt} (h : c ≠ d) : (s.setStore c v).store d = s.store d := by
  cases c <;> cases d <;> simp_all [State.store, State.setStore, State.setProg]

/-- No image of the slot is left on a core once the slot is unloaded. -/
theorem State.store_unloadUnit (c : CoreId) : ((s.unloadUnit slot).store c).any (fun m => m.live && m.id == .unit slot) = false := by
  have gone (t : State) (c : CoreId) : (((t.setStore c ((t.store c).map fun m =>
      if m.id == .unit slot then { m with live := false } else m)).freeImages c).store c).any
        (fun m => m.live && m.id == .unit slot) = false := by
    rw [State.freeImages, State.store_setStore, State.store_setStore, List.any_eq_false]
    intro m hm
    obtain ⟨k, -, rfl⟩ := List.mem_map.mp (List.mem_of_mem_filter hm)
    split
    · simp
    · simp_all
  have leaves (t : State) (c d : CoreId) (h : (t.store d).any (fun m => m.live && m.id == .unit slot) = false) :
      (((t.setStore c ((t.store c).map fun m => if m.id == .unit slot then { m with live := false } else m)).freeImages c).store
        d).any (fun m => m.live && m.id == .unit slot) = false := by
    by_cases same : c = d
    · subst same
      exact gone t c
    · rw [State.freeImages, State.store_setStore_ne same, State.store_setStore_ne same]
      exact h
  exact foldl_forall (P := fun c t => (State.store t c).any (fun m => m.live && m.id == .unit slot) = false) gone leaves bothCores s c
    (by cases c <;> decide)

theorem yields_unitProgramUnload (up : s.fnUp f = true) (idle : SetIdle s .unitProgram) (mode : s.mode.mode ≠ .unsupervised)
    (safe : s.mode.mode ≠ .safeStop) (may : s.mayUnitWide f.port = true) (whole : s.apart = false)
    (there : (bothCores.any fun c => (s.store c).any fun m => m.live && m.id == .unit slot) = true) :
    Yields (.unitProgramUnload f slot) s fun t => Ended t f.port .unitProgram 0x00 ∧
      ∀ c, ((t.store c).any fun m => m.live && m.id == .unit slot) = false := by
  refine yields_command_ends up idle rfl
    ((State.progRun_go mode safe may whole (.inr rfl)).trans ((if_neg (by decide)).trans (if_pos there))) ?_ ⟨ended_endCmd, fun c => ?_⟩
  · rw [State.unloadUnit_keep.cmdSt (by decide), State.go_cmdSt_other]
  · rw [State.endCmd_keep.store (by decide)]
    exact State.store_unloadUnit c

theorem yields_unitProgramBadField (up : s.fnUp f = true) (idle : SetIdle s .unitProgram)
    (bad : a ≠ 1 ∧ a ≠ 2 ∨ 3 < n.toNat) :
    Yields (.unitProgramBadField f a n) s fun t => Ended t f.port .unitProgram 0x08 ∧ t.prog = s.prog := by
  refine yields_command_ends up idle rfl (u := s.go f .unitProgram a n false) (st := 0x08) (d := 0) ?_ State.go_cmdSt_other
    ⟨ended_endCmd, (State.endCmd_keep.prog (by decide)).trans (State.go_keep.prog (by decide))⟩
  rw [State.runSet, State.progRun, State.go_cmdSt]
  exact if_pos bad

end images

/-! ### Dock keys (07 R208) -/

section keyCommands
variable {s : State} {f : FnId} {a : Byte}

theorem State.keyRun_go (mode : s.mode.mode ≠ .unsupervised) (safe : s.mode.mode ≠ .safeStop)
    (may : s.mayUnitWide f.port = true) (whole : s.apart = false) (known : ¬(a = 0 ∨ 3 < a.toNat)) :
    (s.go f .dockKey a 0 false).keyRun f.port =
      if a = 3 then
        ((s.link.keys.map (·.1)).foldl (fun s id => s.renewDocks id .up .up) ((s.go f .dockKey a 0 false).setKeys [])).endCmd f.port
          .dockKey 0x00 0
      else (s.go f .dockKey a 0 false).needRead f.port .dockKey := by
  rw [State.keyRun, State.go_cmdSt]
  simp only [State.latched, State.mayUnitWide_go, may]
  rw [if_neg known, if_neg (by show ¬(s.mode.mode = .unsupervised ∨ s.mode.mode = .safeStop); exact not_or.mpr ⟨mode, safe⟩),
    if_neg (by show ¬((!true || s.apart) = true); simp [whole])]
  rfl

theorem yields_dockKeyAdd (up : s.fnUp f = true) (idle : SetIdle s .dockKey) (mode : s.mode.mode ≠ .unsupervised)
    (safe : s.mode.mode ≠ .safeStop) (may : s.mayUnitWide f.port = true) (whole : s.apart = false) :
    Yields (.dockKeyAdd f) s fun t => AwaitsRead s t f .dockKey 1 0 ∧ t.link = s.link :=
  yields_command_reads up idle rfl ((State.keyRun_go mode safe may whole (by decide)).trans (if_neg (by decide)))
    ⟨awaitsRead_needRead, rfl⟩

theorem yields_dockKeyRemove (up : s.fnUp f = true) (idle : SetIdle s .dockKey) (mode : s.mode.mode ≠ .unsupervised)
    (safe : s.mode.mode ≠ .safeStop) (may : s.mayUnitWide f.port = true) (whole : s.apart = false) :
    Yields (.dockKeyRemove f) s fun t => AwaitsRead s t f .dockKey 2 0 ∧ t.link = s.link :=
  yields_command_reads up idle rfl ((State.keyRun_go mode safe may whole (by decide)).trans (if_neg (by decide)))
    ⟨awaitsRead_needRead, rfl⟩

theorem yields_dockKeyRemoveAll (up : s.fnUp f = true) (idle : SetIdle s .dockKey) (mode : s.mode.mode ≠ .unsupervised)
    (safe : s.mode.mode ≠ .safeStop) (may : s.mayUnitWide f.port = true) (whole : s.apart = false) :
    Yields (.dockKeyRemoveAll f) s fun t => t.link.keys = [] ∧ Ended t f.port .dockKey 0x00 := by
  have renewed (l : List W64) (t : State) : Keep (2 ^ 2 + 2 ^ 23) t (l.foldl (fun s id => s.renewDocks id .up .up) t) :=
    Keep.foldl Keep.rfl' fun _ _ => State.renewDocks_keep.weaken (by decide)
  refine yields_command_ends up idle rfl ((State.keyRun_go mode safe may whole (by decide)).trans (if_pos rfl)) ?_ ⟨?_, ended_endCmd⟩
  · rw [(renewed _ _).cmdSt (by decide), State.setKeys_keep.cmdSt (by decide), State.go_cmdSt_other]
  · exact (State.endCmd_keep.linkKeys (by decide)).trans (((renewed _ _).linkKeys (by decide)).trans State.setKeys_keys)

theorem yields_dockKeyBadAction (up : s.fnUp f = true) (idle : SetIdle s .dockKey) (bad : a = 0 ∨ 3 < a.toNat) :
    Yields (.dockKeyBadAction f a) s fun t => Ended t f.port .dockKey 0x08 ∧ t.link = s.link := by
  refine yields_command_ends up idle rfl (u := s.go f .dockKey a 0 false) (st := 0x08) (d := 0) ?_ State.go_cmdSt_other
    ⟨ended_endCmd, (State.endCmd_keep.link_whole (by decide)).trans (State.go_keep.link_whole (by decide))⟩
  rw [State.runSet, State.keyRun, State.go_cmdSt]
  exact if_pos bad

end keyCommands

/-! ### A warm start (12 R322) -/

section warm
variable {s t : State} {f : FnId} {i : IsletNo} {image : Fin 3} {c : CoreId} {K : Nat}

theorem Keep.fnLink (h : Keep K s t) (kept : K.testBit 1 = true) (f : FnId) :
    (t.fnSt f).link = (s.fnSt f).link ∧ (t.fnSt f).bme = (s.fnSt f).bme := by
  have regs := h.fns kept
  simp only [State.part1, Prod.mk.injEq] at regs
  obtain ⟨h0a, h0b, h1a, h1b⟩ := regs
  have same {x y : FnSt} (h : x.regs = y.regs) : x.link = y.link ∧ x.bme = y.bme := by
    simp only [FnSt.regs, FnSt.mk.injEq] at h
    exact ⟨h.1, h.2.1⟩
  obtain ⟨p, c⟩ := f
  cases p <;> cases c
  · exact same h0a
  · exact same h0b
  · exact same h1a
  · exact same h1b

/-- No link of a function is up or commands the bus. -/
def State.fnGone (f : FnId) (s : State) : Prop := (s.fnSt f).link = .down ∧ (s.fnSt f).bme = false

theorem State.fnGone_keep (h : Keep K s t) (kept : K.testBit 1 = true) (gone : s.fnGone f) : t.fnGone f := by
  obtain ⟨link, bme⟩ := h.fnLink kept f
  exact ⟨link.trans gone.1, bme.trans gone.2⟩

theorem State.fnSt_setFn_ne {g : FnId} {v : FnSt} (h : g ≠ f) : (s.setFn f v).fnSt g = s.fnSt g := by
  obtain ⟨p, c⟩ := f
  obtain ⟨q, d⟩ := g
  cases p <;> cases c <;> cases q <;> cases d <;> simp_all [State.fnSt, State.setFn, State.setHost]

/-- What a warm start makes of a function. -/
def State.closeFn (s : State) (f : FnId) : State :=
  (trunkPorts (hostTrunk f.port)).foldl (fun s o => s.setPortState f.core o .down)
    (s.setFn f { s.fnSt f with link := .down, aspmL1 := false, bme := false, pasidEn := false, msixEn := false, pba := [] })

/-- The mode and the functions as a warm start begins. -/
def State.warmHost (s : State) (image : Fin 3) : State :=
  allFns.foldl State.closeFn ((s.setMode { s.mode with
    start := some { cold := false, step := 0, t0 := s.now, image := image, recordService := false } }).enterMode .warmStart)

/-- The engines and the islets as a warm start begins. -/
def State.warmIslets (s : State) : State :=
  let s := s.setTe { s.te with tes := [], dispA := { s.te.dispA with ready := [], isoWait := [], suspended := [] }, dispB := { s.te.dispB with ready := [], isoWait := [], suspended := [] } }
  let s := allIslets.foldl (fun s i => if (s.islet i).st = .free then s else s.destroyIslet i) s
  s.setHost { s.host with reads := [], reqs := [], waiting := [], deficit := [], turn := [] }

/-- The leases and the commands as a warm start begins. -/
def State.warmPorts (s : State) : State :=
  (bothPorts.foldl (fun s p => s.setPort p { s.portSt p with leaseEnd := none }) s).dropCmds

/-- The counters, the supervisors and the domains as a warm start begins. -/
def State.warmRest (s : State) : State :=
  let s := bothCores.foldl (fun s c =>
    let k := s.cntCore c
    let s := s.setCntCore c { k with hist := k.hist.filter fun e => decide (e.1 < 256) }
    let v := s.coreSt c
    if v.fenced then s else s.setCore c { v with sup := .running, supRestarts := false, supZeros := 0 }) s
  let s := bothCores.foldl (fun s c => [24, 25].foldl (fun s d => s.settleDomain c d) s) s
  (s.setMode { s.mode with writing := none }).setSvc { s.svc with usb := s.svc.usb.detach, confirm := none }

theorem State.warmBegin_eq : s.warmBegin image = (((s.warmHost image).warmIslets).warmPorts).warmRest := by
  unfold State.warmBegin State.warmRest State.warmPorts State.warmIslets State.warmHost State.closeFn
  dsimp only

theorem State.closeFn_ports : Keep (2 ^ 2 + 2 ^ 39) s (s.closeFn f) := by
  unfold State.closeFn
  refine Keep.foldl (Keep.setFnQ Keep.rfl' ?_ ?_) fun _ _ => State.setPortState_keep.weaken (by decide)
  · exact fun h => absurd h (by decide)
  · exact fun h => absurd h (by decide)

theorem State.fnGone_closeFn : (s.closeFn f).fnGone f := by
  unfold State.closeFn
  refine State.fnGone_keep (K := 2 ^ 1) (Keep.foldl Keep.rfl' fun _ _ => State.setPortState_keep.weaken (by decide)) (by decide) ?_
  rw [State.fnGone, State.fnSt_setFn]
  exact ⟨rfl, rfl⟩

theorem State.fnGone_closeFn_of {g : FnId} (h : s.fnGone g) : (s.closeFn f).fnGone g := by
  by_cases same : g = f
  · rw [same]
    exact State.fnGone_closeFn
  · unfold State.closeFn
    refine State.fnGone_keep (K := 2 ^ 1) (Keep.foldl Keep.rfl' fun _ _ => State.setPortState_keep.weaken (by decide)) (by decide) ?_
    rw [State.fnGone, State.fnSt_setFn_ne same]
    exact h

theorem State.fnGone_warmHost (f : FnId) : (s.warmHost image).fnGone f :=
  foldl_forall (P := State.fnGone) (fun _ _ => State.fnGone_closeFn) (fun _ _ _ => State.fnGone_closeFn_of) allFns _ f (by
    obtain ⟨p, c⟩ := f
    cases p <;> cases c <;> decide)

theorem State.warmHost_mode : (s.warmHost image).mode.mode = .warmStart := by
  have kept (t : State) : Keep (2 ^ 2 + 2 ^ 39) t (allFns.foldl State.closeFn t) := Keep.foldl Keep.rfl' fun _ _ => State.closeFn_ports
  unfold State.warmHost
  exact Eq.trans (b := (State.enterMode _ _).mode.mode) ((kept _).mode0 (by decide)) (State.enterMode_mode _ _)

theorem State.warmHost_cmdSt (p k) : (s.warmHost image).cmdSt p k = s.cmdSt p k := by
  have kept (t : State) : Keep (2 ^ 2 + 2 ^ 39) t (allFns.foldl State.closeFn t) := Keep.foldl Keep.rfl' fun _ _ => State.closeFn_ports
  rw [State.warmHost, (kept _).cmdSt (by decide), State.enterMode_cmdSt]
  rfl

/-- A mode at rest is judged again; any other stays (R316). -/
theorem State.reMode_mode_of_not_resting (kept : Keep (2 ^ 39) s t) (busy : s.mode.mode.isResting = false) :
    t.reMode.mode.mode = s.mode.mode := by
  have same : t.mode.mode = s.mode.mode := kept.mode0 (by decide)
  rw [State.reMode, same, busy]
  exact same

theorem State.destroyIslet_mode (busy : s.mode.mode.isResting = false) : (s.destroyIslet i).mode.mode = s.mode.mode := by
  unfold State.destroyIslet
  refine State.reMode_mode_of_not_resting ?_ busy
  refine Keep.foldl ?_ fun _ _ => State.dropDisowned_keep.weaken (by decide)
  refine Keep.step State.poolAlarms_keep (by decide) ?_
  refine Keep.step State.setIsletTraf_keep (by decide) (Keep.step State.setIslet_keep (by decide) ?_)
  refine Keep.step State.poolIslet_keep (by decide) (Keep.step State.dropStores_keep (by decide) ?_)
  refine Keep.foldl ?_ fun _ _ => Keep.setIsw Keep.rfl' (by decide) fun _ => rfl
  refine Keep.setUsb ?_ (fun h => absurd h (by decide)) (fun h => absurd h (by decide)) (fun h => absurd h (by decide))
    (fun h => absurd h (by decide)) (fun h => absurd h (by decide))
  refine Keep.step State.freeTrunks_keep (by decide) (Keep.step State.unloadIslet_keep (by decide) ?_)
  refine Keep.step State.mapQueues_keep (by decide) (Keep.step State.dropEntries_keep (by decide) ?_)
  exact Keep.foldl Keep.rfl' fun _ _ => State.loseSeat_keep.weaken (by decide)

/-- A warm start ends an islet that is not free. -/
def State.endIslet (s : State) (i : IsletNo) : State := if (s.islet i).st = .free then s else s.destroyIslet i

theorem State.endIslet_mode (warm : s.mode.mode = .warmStart) : (s.endIslet i).mode.mode = .warmStart := by
  unfold State.endIslet
  split
  · exact warm
  · exact (State.destroyIslet_mode (by rw [warm]; rfl)).trans warm

theorem State.endIslet_keep : Keep (2 ^ 1 + 2 ^ 2) s (s.endIslet i) := by
  unfold State.endIslet
  split
  · exact Keep.rfl'
  · exact State.destroyIslet_keep.weaken (by decide)

theorem State.endIslets_mode (l : List IsletNo) (s : State) (warm : s.mode.mode = .warmStart) :
    (l.foldl State.endIslet s).mode.mode = .warmStart := by
  induction l generalizing s with
  | nil => exact warm
  | cons i l ih => exact ih _ (State.endIslet_mode warm)

theorem State.warmIslets_mode (warm : s.mode.mode = .warmStart) : s.warmIslets.mode.mode = .warmStart := by
  unfold State.warmIslets
  generalize allIslets = l
  exact State.endIslets_mode l _ warm

theorem State.warmIslets_keep : Keep (2 ^ 1 + 2 ^ 2) s s.warmIslets := by
  unfold State.warmIslets
  generalize allIslets = l
  refine Keep.trans (t := l.foldl State.endIslet (s.setTe _)) (Keep.foldl (Keep.setTe Keep.rfl' ?_ ?_) fun _ _ => State.endIslet_keep)
    (Keep.setHost Keep.rfl' (fun _ => rfl) (fun _ => rfl) ?_ ?_ ?_ ?_)
  all_goals exact fun h => absurd h (by decide)

/-- A command in progress ends with the supervisor that ran it. -/
def State.dropCmd (s : State) (k : CmdSet) (p : PortId) : State :=
  if (s.cmdSt p k).busy then s.setCmdSt p k { s.cmdSt p k with busy := false, status := 0x12, detail := 0, phase := .idle } else s

theorem State.dropCmds_eq :
    s.dropCmds = [CmdSet.islet, .unitProgram, .dockKey, .unitCmd].foldl (fun s k => bothPorts.foldl (fun s p => s.dropCmd k p) s) s := rfl

theorem State.dropCmd_busy (k : CmdSet) (p : PortId) : ((s.dropCmd k p).cmdSt p k).busy = false := by
  unfold State.dropCmd
  split
  · rw [State.cmdSt_setCmdSt]
  · simp_all

theorem State.dropCmd_busy_of {p q : PortId} {j k : CmdSet} (h : (s.cmdSt q j).busy = false) :
    ((s.dropCmd k p).cmdSt q j).busy = false := by
  by_cases same : q = p ∧ j = k
  · rw [same.1, same.2]
    exact State.dropCmd_busy k p
  · unfold State.dropCmd
    split
    · rw [← h]
      cases p <;> cases q <;> cases k <;> cases j <;> simp_all [State.cmdSt, State.setCmdSt, State.setPort, State.setHost,
        State.portSt, PortSt.cmd, PortSt.setCmd]
    · exact h

theorem State.dropCmds_busy (p k) : (s.dropCmds.cmdSt p k).busy = false := by
  have ports {s : State} (k : CmdSet) : ∀ p, ((bothPorts.foldl (fun s p => s.dropCmd k p) s).cmdSt p k).busy = false := fun p =>
    foldl_forall (P := fun p s => (State.cmdSt s p k).busy = false) (fun _ _ => State.dropCmd_busy k _)
      (fun _ _ _ => State.dropCmd_busy_of) bothPorts s p (by cases p <;> decide)
  rw [State.dropCmds_eq]
  exact foldl_forall (P := fun k s => ∀ p, (State.cmdSt s p k).busy = false) (fun _ _ => ports _)
    (fun s a b h p => State.dropCmd_busy_of (State.dropCmd_busy_of (h p))) _ s k (by cases k <;> decide) p

theorem State.dropCmd_leaseEnd (k : CmdSet) (p q : PortId) : ((s.dropCmd k p).portSt q).leaseEnd = (s.portSt q).leaseEnd := by
  unfold State.dropCmd
  split
  · cases p <;> cases q <;> cases k <;> rfl
  · rfl

theorem State.dropCmds_leaseEnd (p : PortId) : (s.dropCmds.portSt p).leaseEnd = (s.portSt p).leaseEnd := by
  simp only [State.dropCmds_eq, bothPorts, List.foldl_cons, List.foldl_nil, State.dropCmd_leaseEnd]

theorem State.warmPorts_leaseEnd (p : PortId) : (s.warmPorts.portSt p).leaseEnd = none := by
  rw [State.warmPorts, State.dropCmds_leaseEnd]
  cases p <;> rfl

theorem State.warmPorts_keep : Keep (2 ^ 1 + 2 ^ 39) s s.warmPorts :=
  Keep.step State.dropCmds_keep (by decide) (Keep.foldl Keep.rfl' fun _ _ => State.setPort_keep.weaken (by decide))

theorem State.warmRest_keep : Keep (2 ^ 1 + 2 ^ 2 + 2 ^ 39) s s.warmRest := by
  unfold State.warmRest
  refine Keep.setSvc (Keep.setMode (Keep.foldl (Keep.foldl Keep.rfl' fun _ _ => ?_) fun _ _ => ?_) ?_ ?_ ?_) (by decide)
  · dsimp only
    split
    · exact State.setCntCore_keep.weaken (by decide)
    · exact Keep.step State.setCore_keep (by decide) (State.setCntCore_keep.weaken (by decide))
  · exact Keep.foldl Keep.rfl' fun _ _ => State.settleDomain_keep.weaken (by decide)
  · exact fun _ => rfl
  all_goals exact fun h => absurd h (by decide)

/-- What a warm start leaves of the mode, the functions and the ports (R322). -/
theorem State.warmBegin_leaves : (s.warmBegin image).mode.mode = .warmStart ∧
    (∀ g, ((s.warmBegin image).fnSt g).link = .down ∧ ((s.warmBegin image).fnSt g).bme = false) ∧
    (∀ p, ((s.warmBegin image).portSt p).leaseEnd = none) ∧ ∀ p k, ((s.warmBegin image).cmdSt p k).busy = false := by
  rw [State.warmBegin_eq]
  refine ⟨?_, fun g => ?_, fun p => ?_, fun p k => ?_⟩
  · exact (State.warmRest_keep.mode0 (by decide)).trans ((State.warmPorts_keep.mode0 (by decide)).trans
      (State.warmIslets_mode State.warmHost_mode))
  · exact State.fnGone_keep State.warmRest_keep (by decide) (State.fnGone_keep State.warmPorts_keep (by decide)
      (State.fnGone_keep State.warmIslets_keep (by decide) (State.fnGone_warmHost g)))
  · rw [State.warmRest_keep.portSt (by decide), State.warmPorts_leaseEnd]
  · rw [State.warmRest_keep.cmdSt (by decide), State.warmPorts, State.dropCmds_busy]

end warm

/-! ### Unit commands (12 R327) -/

section unitCommands
variable {s u : State} {f : FnId} {p : PortId} {k : CmdSet} {a n : Byte} {slot : Fin 2} {force : Bool} {st : Byte} {d : W32}

theorem State.msix_mode {v : Nat} : (s.msix f v).mode = s.mode := by
  unfold State.msix
  split
  · exact State.request_mode _ _
  · exact State.setFn_mode _ _ _

theorem State.endCmd_mode : (s.endCmd p k st d).mode = s.mode := by
  rw [State.endCmd, State.msix_mode]
  rfl

/-- An action that the mode takes is judged. -/
theorem State.unitCmdOff_of_takes (known : a ∈ [1#8, 2#8, 3#8, 4#8, 5#8]) (takes : s.unitModeTakes a = true) : s.unitCmdOff a = false := by
  have all : ∀ a ∈ [1#8, 2#8, 3#8, 4#8, 5#8], ∀ m : Mode,
      (if m.isStart then false
        else match a.toNat with
          | 1 => m.restsOrServes
          | 2 => true
          | 3 => m == .single || m == .dual || m == .awaiting
          | 4 => m.restsOrServes
          | _ => m == .unsupervised) = true →
      (m.isStart || (m == .unsupervised && a != 2 && a != 5)) = false := by
    intro a ha m
    simp only [List.mem_cons, List.not_mem_nil, or_false] at ha
    rcases ha with rfl | rfl | rfl | rfl | rfl <;> cases m <;> decide
  exact all a known s.mode.mode takes

theorem imageSlot_ofNat (slot : Fin 2) : toFin 1 (BitVec.ofNat 8 slot.val).toNat = slot := by
  revert slot
  decide

theorem imageSlot_le (slot : Fin 2) : (BitVec.ofNat 8 slot.val).toNat ≤ 1 := by
  revert slot
  decide

/-- An action that the mode takes and the port may command is carried out. -/
theorem State.unitRun_go (known : a ∈ [1#8, 2#8, 3#8, 4#8, 5#8]) (takes : s.unitModeTakes a = true)
    (may : s.mayUnitWide f.port = true) (slots : a = 5 ∨ n.toNat ≤ 1) :
    (s.go f .unitCmd a n force).unitRun f.port =
      match a.toNat with
      | 1 => ((s.go f .unitCmd a n force).endCmd f.port .unitCmd 0x00 0).warmBegin (slotOf (toFin 1 n.toNat))
      | 2 => ((s.go f .unitCmd a n force).endCmd f.port .unitCmd 0x00 0).coldRequest (some (toFin 1 n.toNat))
      | 3 => match (s.go f .unitCmd a n force).rollCheck (toFin 1 n.toNat) force with
        | some st => (s.go f .unitCmd a n force).endCmd f.port .unitCmd st 0
        | none => (s.go f .unitCmd a n force).rollBegin f.port (toFin 1 n.toNat) force
      | 4 => if s.mode.runningA = slotOf (toFin 1 n.toNat) ∨ s.mode.runningB = slotOf (toFin 1 n.toNat) then
          (s.go f .unitCmd a n force).endCmd f.port .unitCmd 0x24 0 else (s.go f .unitCmd a n force).needRead f.port .unitCmd
      | _ => ((s.go f .unitCmd a n force).setCmdSt f.port .unitCmd { s.latched f .unitCmd a n force with phase := .running }).restartSups := by
  have fields : ¬(a = 0 ∨ 5 < a.toNat ∨ (a ≠ 5 ∧ 1 < n.toNat)) := by
    have low := (by decide : ∀ a ∈ [1#8, 2#8, 3#8, 4#8, 5#8], a ≠ 0 ∧ ¬5 < a.toNat) a known
    refine not_or.mpr ⟨low.1, not_or.mpr ⟨low.2, fun h => ?_⟩⟩
    rcases slots with h' | h'
    · exact h.1 h'
    · omega
  have judged : (s.go f .unitCmd a n force).unitCmdOff a = false := State.unitCmdOff_of_takes known takes
  have taken : (!(s.go f .unitCmd a n force).unitModeTakes a) = false := by
    show (!s.unitModeTakes a) = false
    rw [takes]
    rfl
  rw [State.unitRun, State.go_cmdSt]
  simp only [State.latched, State.mayUnitWide_go, may]
  rw [judged, if_neg Bool.false_ne_true, if_neg fields, taken, if_neg Bool.false_ne_true, if_neg (by decide)]
  rfl

theorem State.noneWaits_of_idle (h : ∀ p, (s.cmdSt p k).busy = false) : s.noneWaits k := by
  intro p busy
  rw [h] at busy
  cases busy

theorem yields_warmStart (up : s.fnUp f = true) (idle : SetIdle s .unitCmd) (may : s.mayUnitWide f.port = true)
    (takes : s.unitModeTakes 1 = true) :
    Yields (.warmStart f slot) s fun t => t.mode.mode = .warmStart ∧
      (∀ g, (t.fnSt g).link = .down ∧ (t.fnSt g).bme = false) ∧ ∀ p, (t.portSt p).leaseEnd = none := by
  have leaves := State.warmBegin_leaves (image := slotOf (toFin 1 (BitVec.ofNat 8 slot.val).toNat))
    (s := (s.go f .unitCmd 1 (BitVec.ofNat 8 slot.val) false).endCmd f.port .unitCmd 0x00 0)
  obtain ⟨mode, fns, leases, cmds⟩ := leaves
  exact yields_command up idle rfl (State.unitRun_go (by decide) takes may (.inr (imageSlot_le slot)))
    (State.noneWaits_of_idle fun p => cmds p .unitCmd) ⟨mode, fns, leases⟩

/-- An update of the configuration store is what is stored then (11 R295). -/
theorem State.stored_storeUpdate (g : StoreCopy → StoreCopy) : (s.storeUpdate g).stored = g s.stored := by
  show ((s.host.store.update g).current).getD StoreCopy.init = _
  unfold StoreSt.update
  cases s.host.store.newest1 <;> rfl

/-- What a cold start leaves (R319). -/
theorem State.coldBegin_leaves {image : Fin 3} : (s.coldBegin image).mode.mode = .coldStart ∧
    (s.coldBegin image).mode.bootSlot = s.stored.bootSlot ∧ (s.coldBegin image).isl = [] ∧
    (s.coldBegin image).time = { utA := 0, utB := 0, rem := 0 } ∧ ∀ p k, ((s.coldBegin image).cmdSt p k).busy = false := by
  have cmds (p k) : ((s.coldBegin image).cmdSt p k).busy = false := by
    rw [State.coldBegin, State.logLine_keep.cmdSt (by decide), State.setModeChange_keep.cmdSt (by decide)]
    cases p <;> cases k <;> rfl
  refine ⟨?_, ?_, ?_, ?_, cmds⟩
  · rw [State.coldBegin, State.logLine_mode, State.setModeChange_mode]
    rfl
  · rw [State.coldBegin, State.logLine_mode, State.setModeChange_mode]
    rfl
  · exact (State.logLine_keep.isl (by decide)).trans (State.setModeChange_keep.isl (by decide))
  · rfl

theorem yields_coldStart (up : s.fnUp f = true) (idle : SetIdle s .unitCmd) (may : s.mayUnitWide f.port = true)
    (takes : s.unitModeTakes 2 = true) :
    Yields (.coldStart f slot) s fun t => t.mode.mode = .coldStart ∧ t.mode.bootSlot = slot ∧
      t.isl = [] ∧ t.time = { utA := 0, utB := 0, rem := 0 } := by
  have run := s.unitRun_go (f := f) (force := false) (a := 2) (by decide) takes may (.inr (imageSlot_le slot))
  rw [imageSlot_ofNat] at run
  let v := ((s.go f .unitCmd 2 (BitVec.ofNat 8 slot.val) false).endCmd f.port .unitCmd 0x00 0).logLine (ascii "cold start")
  let u := (v.saveLog.setMode { v.saveLog.mode with bootSlot := slot, goldenHeld := false }).storeUpdate fun t =>
    { t with bootSlot := slot }
  obtain ⟨mode, boot, isl, time, cmds⟩ := u.coldBegin_leaves (image := u.startImage)
  refine yields_command up idle rfl (run.trans (rfl : _ = u.coldBegin u.startImage)) (State.noneWaits_of_idle fun p => cmds p .unitCmd)
    ⟨mode, boot.trans ?_, isl, time⟩
  rw [State.stored_storeUpdate]

theorem State.rollCheck_go {op : Byte} {x : Fin 2} {b : Bool} : (s.go f k op n force).rollCheck x b = s.rollCheck x b := by
  obtain ⟨p, c⟩ := f
  cases p <;> rfl

theorem yields_rollingUpdate (up : s.fnUp f = true) (idle : SetIdle s .unitCmd) (may : s.mayUnitWide f.port = true)
    (takes : s.unitModeTakes 3 = true) (check : s.rollCheck slot force = none) :
    Yields (.rollingUpdate f slot force) s fun t => t.mode.mode = .rolling ∧
      (t.cmdSt f.port .unitCmd).busy = true ∧ t.isl = s.isl := by
  have run := s.unitRun_go (f := f) (force := force) (a := 3) (by decide) takes may (.inr (imageSlot_le slot))
  simp only [imageSlot_ofNat, State.rollCheck_go, check] at run
  have mine : (((s.go f .unitCmd 3 (BitVec.ofNat 8 slot.val) force).rollBegin f.port slot force).cmdSt f.port .unitCmd) =
      { s.latched f .unitCmd 3 (BitVec.ofNat 8 slot.val) force with phase := .running } := by
    rw [State.rollBegin, State.enterMode_cmdSt]
    exact (State.cmdSt_setCmdSt _ _ _ _).trans (by rw [State.go_cmdSt])
  have others : (((s.go f .unitCmd 3 (BitVec.ofNat 8 slot.val) force).rollBegin f.port slot force).cmdSt f.port.other .unitCmd) =
      s.cmdSt f.port.other .unitCmd := by
    rw [State.rollBegin, State.enterMode_cmdSt]
    exact (State.cmdSt_setCmdSt_other _ _).trans State.go_cmdSt_other
  refine yields_command up idle rfl (u := (s.go f .unitCmd 3 (BitVec.ofNat 8 slot.val) force).rollBegin f.port slot force) run
    (fun q busy => ?_) ⟨State.enterMode_mode _ _, by rw [mine]; rfl, State.enterMode_isl _ _⟩
  rcases port_eq_or_other f.port q with rfl | rfl
  · rw [mine]
    exact nofun
  · rw [others, idle] at busy
    cases busy

theorem yields_writeImage (up : s.fnUp f = true) (idle : SetIdle s .unitCmd) (may : s.mayUnitWide f.port = true)
    (takes : s.unitModeTakes 4 = true) (notA : s.mode.runningA ≠ slotOf slot) (notB : s.mode.runningB ≠ slotOf slot) :
    Yields (.writeImage f slot) s fun t => AwaitsRead s t f .unitCmd 4 (BitVec.ofNat 8 slot.val) ∧ t.mode = s.mode := by
  have run := s.unitRun_go (f := f) (force := false) (a := 4) (by decide) takes may (.inr (imageSlot_le slot))
  rw [imageSlot_ofNat] at run
  exact yields_command_reads up idle rfl (run.trans (if_neg (not_or.mpr ⟨notA, notB⟩))) ⟨awaitsRead_needRead, rfl⟩

theorem State.restartSups_sup (c : CoreId) :
    (s.restartSups.coreSt c).sup = if (s.coreSt c).fenced then (s.coreSt c).sup else .restarting := by
  have unfenced (t : State) : (if (t.coreSt .b).fenced then t else t.setCore .b { t.coreSt .b with sup := .restarting }).coreSt .a =
      t.coreSt .a := by
    split <;> rfl
  cases c
  · simp only [State.restartSups, bothCores, List.foldl_cons, List.foldl_nil, unfenced]
    split <;> simp_all [State.coreSt, State.setCore, State.setFlt]
  · have same : (if (s.coreSt .a).fenced then s else s.setCore .a { s.coreSt .a with sup := .restarting }).coreSt .b = s.coreSt .b := by
      split <;> rfl
    simp only [State.restartSups, bothCores, List.foldl_cons, List.foldl_nil, same]
    split <;> simp_all [State.coreSt, State.setCore, State.setFlt]

theorem yields_supervisorRestart (up : s.fnUp f = true) (idle : SetIdle s .unitCmd) (may : s.mayUnitWide f.port = true)
    (mode : s.mode.mode = .unsupervised) :
    Yields (.supervisorRestart f) s fun t => (t.cmdSt f.port .unitCmd).busy = true ∧
      ∀ c, (t.coreSt c).sup = (if (s.coreSt c).fenced then (s.coreSt c).sup else .restarting) := by
  have takes : s.unitModeTakes 5 = true := by
    rw [State.unitModeTakes, mode]
    rfl
  let u := (s.go f .unitCmd 5 0 false).setCmdSt f.port .unitCmd { s.latched f .unitCmd 5 0 false with phase := .running }
  have mine : u.restartSups.cmdSt f.port .unitCmd = { s.latched f .unitCmd 5 0 false with phase := .running } :=
    (State.restartSups_keep.cmdSt (by decide) _ _).trans (State.cmdSt_setCmdSt _ _ _ _)
  have others : u.restartSups.cmdSt f.port.other .unitCmd = s.cmdSt f.port.other .unitCmd :=
    (State.restartSups_keep.cmdSt (by decide) _ _).trans ((State.cmdSt_setCmdSt_other _ _).trans State.go_cmdSt_other)
  refine yields_command up idle rfl (s.unitRun_go (by decide) takes may (.inl rfl)) (u := u.restartSups) (fun q busy => ?_) ⟨?_, fun c => ?_⟩
  · rcases port_eq_or_other f.port q with rfl | rfl
    · rw [mine]
      exact nofun
    · rw [others, idle] at busy
      cases busy
  · rw [mine]
    rfl
  · exact State.restartSups_sup c

theorem yields_unitCmdBadField (up : s.fnUp f = true) (idle : SetIdle s .unitCmd) (judged : s.unitCmdOff a = false)
    (bad : a = 0 ∨ 5 < a.toNat ∨ (a ≠ 5 ∧ 1 < n.toNat)) :
    Yields (.unitCmdBadField f a n) s fun t => Ended t f.port .unitCmd 0x08 ∧ t.mode = s.mode := by
  refine yields_command_ends up idle rfl (u := s.go f .unitCmd a n false) (st := 0x08) (d := 0) ?_ State.go_cmdSt_other
    ⟨ended_endCmd, State.endCmd_mode⟩
  rw [State.runSet, State.unitRun, State.go_cmdSt]
  exact (if_neg (by show ¬(s.unitCmdOff a = true); simp [judged])).trans (if_pos bad)

theorem yields_unitCmdOff (up : s.fnUp f = true) (idle : SetIdle s .unitCmd) (off : s.unitCmdOff a = true) :
    Yields (.unitCmdBadField f a n) s fun t => Ended t f.port .unitCmd 0x03 ∧ t.mode = s.mode := by
  refine yields_command_ends up idle rfl (u := (s.go f .unitCmd a n false).logLine (Config.wording 3 ++ hex 2 a.toNat)) (st := 0x03)
    (d := 0) ?_ ?_ ⟨ended_endCmd, State.endCmd_mode⟩
  · rw [State.runSet, State.unitRun, State.go_cmdSt]
    exact if_pos off
  · rw [State.logLine_keep.cmdSt (by decide), State.go_cmdSt_other]

/-! ### The end of a write of an image (R327) -/

theorem State.slot_setSlot (x : Fin 2) (v : SlotSt) : (s.setSlot x v).slot (slotOf x) = v := by
  match x with
  | 0 => rfl
  | 1 => rfl

theorem State.slot_of_mode {t : State} (h : t.mode = s.mode) (x : Fin 3) : t.slot x = s.slot x := by
  rw [State.slot, State.slot, h]

theorem State.slot_markSlot (x : Fin 2) (v : SlotSt) : (s.markSlot x v).slot (slotOf x) = v :=
  (State.slot_of_mode (s := s.setSlot x v) rfl _).trans (State.slot_setSlot x v)

theorem State.markSlot_writing (x : Fin 2) (v : SlotSt) : (s.markSlot x v).mode.writing = s.mode.writing := by
  match x with
  | 0 => rfl
  | 1 => rfl

theorem exec_flashWriteComplete {ok : Bool} (u : State) (done : s.flashDone ok = u.endCmd p .unitCmd st d)
    (ports : ∀ q, u.cmdSt q .unitCmd = s.cmdSt q .unitCmd) (other : (s.cmdSt p.other .unitCmd).busy = false) :
    exec (.flashWriteComplete ok) s = .next (u.endCmd p .unitCmd st d) := by
  show Host.Outcome.next ((s.flashDone ok).settle .unitCmd) = _
  rw [done, State.settle_of_noneWaits (State.noneWaits_endCmd (by rw [ports, other]))]

/-- An image that is written and read back makes its slot valid. -/
theorem yields_flashWriteComplete {x : Fin 2} {b : List Byte} (other : (s.cmdSt p.other .unitCmd).busy = false)
    (writing : s.mode.writing = some (p, x, b)) :
    Yields (.flashWriteComplete true) s fun t => (t.slot (slotOf x)).valid = true ∧
      (t.slot (slotOf x)).version = BitVec.ofNat 32 (fld b 4 4) ∧ t.mode.writing = none ∧ Ended t p .unitCmd 0x00 := by
  let u := (s.setMode { s.mode with writing := none }).markSlot x
    { valid := true, version := BitVec.ofNat 32 (fld b 4 4), compat := BitVec.ofNat 16 (fld b 8 2) }
  have slot : (u.endCmd p .unitCmd 0x00 0).slot (slotOf x) = _ := (State.slot_of_mode State.endCmd_mode _).trans (State.slot_markSlot x _)
  refine ⟨u.endCmd p .unitCmd 0x00 0, exec_flashWriteComplete u ?_ (fun q => State.markSlot_keep.cmdSt (by decide) q _) other, ?_, ?_, ?_, ended_endCmd⟩
  · rw [State.flashDone, writing]
    rfl
  · rw [slot]
  · rw [slot]
  · rw [State.endCmd_mode, State.markSlot_writing]
    rfl

/-- A failed read-back leaves the slot as it showed; its `COMPAT` is free (R327; log entry 3). -/
theorem yields_flashWriteFailed {x : Fin 2} {b : List Byte} (other : (s.cmdSt p.other .unitCmd).busy = false)
    (writing : s.mode.writing = some (p, x, b)) :
    Yields (.flashWriteComplete false) s fun t => (t.slot (slotOf x)).valid = (s.slot (slotOf x)).valid ∧
      (t.slot (slotOf x)).version = (s.slot (slotOf x)).version ∧ t.mode.writing = none ∧ Ended t p .unitCmd 0x28 := by
  let u := ((s.setMode { s.mode with writing := none }).setFree (s.free + 1)).markSlot x
    { s.slot (slotOf x) with compat := BitVec.ofNat 16 (Config.freeWord s.free).toNat }
  have slot : (u.endCmd p .unitCmd 0x28 0).slot (slotOf x) = _ := (State.slot_of_mode State.endCmd_mode _).trans (State.slot_markSlot x _)
  refine ⟨u.endCmd p .unitCmd 0x28 0, exec_flashWriteComplete u ?_ (fun q => State.markSlot_keep.cmdSt (by decide) q _) other, ?_, ?_, ?_, ended_endCmd⟩
  · rw [State.flashDone, writing]
    rfl
  · rw [slot]
  · rw [slot]
  · rw [State.endCmd_mode, State.markSlot_writing]
    rfl

end unitCommands

/-- Settles O11: a command written to an idle set comes to what carrying it out comes to, and none follows it. -/
theorem unitCommands : Obligations.UnitCommands :=
  ⟨fun _ _ _ up idle mode safe may whole =>
      ⟨yields_unitProgramLoad up idle mode safe may whole, yields_unitProgramUnload up idle mode safe may whole⟩,
    fun _ _ _ _ up idle bad => yields_unitProgramBadField up idle bad,
    fun _ _ up idle mode safe may whole => ⟨yields_dockKeyAdd up idle mode safe may whole,
      yields_dockKeyRemove up idle mode safe may whole, yields_dockKeyRemoveAll up idle mode safe may whole⟩,
    fun _ _ _ up idle bad => yields_dockKeyBadAction up idle bad,
    fun _ _ _ up idle may => ⟨yields_warmStart up idle may, yields_coldStart up idle may,
      fun _ takes check => yields_rollingUpdate up idle may takes check, yields_writeImage up idle may⟩,
    fun _ _ up idle may mode => yields_supervisorRestart up idle may mode,
    fun _ _ _ _ up idle => ⟨yields_unitCmdBadField up idle, yields_unitCmdOff up idle⟩,
    fun _ _ _ _ other writing => ⟨yields_flashWriteComplete other writing, yields_flashWriteFailed other writing⟩⟩

end Sys2Proof.Machine

/-! PROOFS. The ends of entries behind one that has ended: O13, O16, O17, O23, O24, O25 and O28 do not hold of every state. In a
run of the model an entry that is the oldest of its flow gives its record as it ends; a state in which it has ended and still
waits gives two records at the next end, where `Completes` has the later entry make none (03 R71). -/

namespace Sys2Proof.Machine

/-- An entry of islet 1 with these bytes. -/
def entryOfBytes (b : List Byte) : EntrySt := { EntrySt.init with islet := 1, bytes := b }

/-- Entries 4 and 5 of one flow of a state, where the older has ended and still waits. -/
def State.behindEnded (s : State) (e : EntrySt) : State := (s.setEntry 5 e).setEntry 4 { e with ended := some ⟨0, 0, 0, 0⟩ }

/-- A command that makes a record where the statement has it make none. -/
theorem not_yields_completes {i : Instr} {s : State} {h : Nat} {e : EntrySt} {a b d : Nat}
    (later : (s.firstOf e).map (·.1) ≠ some h) (made : (s.afterExec i).madeFor e ≠ s.madeFor e) {P : State → Prop}
    (gives : ∀ t, P t → Completes s t h e a b d) : ¬Yields i s P :=
  fun y => made ((gives _ (y.next (exec_eq_afterExec s i))).madeFor_eq later)

/-- Refutes O13: a `NOP` behind an entry that has ended makes two records as it ends. -/
theorem not_entriesAndRecords : ¬ Obligations.EntriesAndRecords := by
  intro h
  obtain ⟨-, -, nop, -⟩ := h
  exact not_yields_completes (by decide +kernel) (by decide +kernel) (fun _ ends => ends)
    (nop .a 5 openEntry endedAhead (by decide +kernel))

/-- An unload of the image in slot 0. -/
def unloadEntry : EntrySt := entryOfBytes [0x40, 0, 0, 0, 0, 0, 0, 0, 0, 2]

/-- Islet 1 has an image in slot 0. -/
def holdsImage : State := State.reset.setStore .a [⟨.islet 1 0, 0, [], [], [], 0, 0, 0, true, 0⟩]

/-- Refutes O16: an unload behind an entry that has ended makes two records as it ends. -/
theorem not_programLoads : ¬ Obligations.ProgramLoads := by
  intro h
  have ends := (h.2 .a 5 unloadEntry (holdsImage.behindEnded unloadEntry) (by decide +kernel) (by decide +kernel)
    (by decide +kernel)).next (exec_eq_afterExec _ _)
  exact absurd (ends.2.madeFor_eq (by decide +kernel)) (by decide +kernel)

/-- A close of an endpoint. -/
def closeEntry : EntrySt := entryOfBytes [0x14, 0, 0, 0, 0, 0, 0, 0, 0, 0, 0, 2]

/-- Refutes O17: a close that names no endpoint, behind an entry that has ended, makes two records as it ends. The other clauses
(log entries 86 and 97) are not touched. -/
theorem not_usbEntries : ¬ Obligations.UsbEntries := by
  intro h
  obtain ⟨-, unnamed, -⟩ := h
  obtain ⟨close, -⟩ := unnamed .a 5 closeEntry (State.reset.behindEnded closeEntry) (by decide +kernel)
  exact not_yields_completes (by decide +kernel) (by decide +kernel) (fun _ ends => ends.1)
    (close (by decide +kernel) (by decide +kernel))

/-- A detach of head 0. -/
def detachEntry : EntrySt := entryOfBytes [0x21, 0, 0, 0, 0, 0, 0, 0, 0, 0, 2]

/-- Refutes O23: a detach of a head that is not attached, behind an entry that has ended, makes two records as it ends. The
other clauses (log entries 89 and 125) are not touched. -/
theorem not_headEntries : ¬ Obligations.HeadEntries := by
  intro h
  obtain ⟨head, -⟩ := h
  obtain ⟨-, -, -, detach, -⟩ := head .a 5 detachEntry (State.reset.behindEnded detachEntry) (by decide +kernel)
  exact not_yields_completes (by decide +kernel) (by decide +kernel) (fun _ ends => ends.1)
    (detach (by decide +kernel) (by decide +kernel))

/-- A frame of head 0. -/
def frameEntry : EntrySt := { entryOfBytes [0x20] with started := true }

/-- The frame of entry 5 is on its way through head 0, gathered and encoded. -/
def encodedFrame : State :=
  (State.reset.behindEnded frameEntry).setHead 0 { State.reset.head 0 with cur := some (5, 0), landed := true, todo := [] }

/-- Refutes O24: a frame behind an entry that has ended makes two records as it ends. -/
theorem not_framesOnTheirWay : ¬ Obligations.FramesOnTheirWay := by
  intro h
  obtain ⟨-, -, -, -, -, -, record, -⟩ := h
  exact not_yields_completes (by decide +kernel) (by decide +kernel) (fun _ ends => ends.1)
    (record .a 0 5 0 frameEntry encodedFrame (by decide +kernel) (by decide +kernel) (by decide +kernel) (by decide +kernel)
      (by decide +kernel) (by decide +kernel))

/-- An attach of head 0. -/
def attachEntry : EntrySt := { entryOfBytes [0x21, 0, 0, 0, 0, 0, 0, 0, 0, 0, 1] with started := true }

/-- The attach of entry 5 waits for its dock's `CONFIG_DONE`. -/
def configSent : State :=
  ((State.reset.behindEnded attachEntry).setLink_ 0 { SeatLink.init with st := .up }).setView 0
    { State.reset.view 0 with config := some (0, some 5) }

/-- Refutes O25: an attach behind an entry that has ended makes two records as its dock answers. -/
theorem not_dockReports : ¬ Obligations.DockReports := by
  intro h
  obtain ⟨-, configDone, -⟩ := h
  obtain ⟨good, -⟩ := configDone 0 0 0 0 5 attachEntry configSent (by decide +kernel) (by decide +kernel) (by decide +kernel)
    (by decide +kernel) (by decide +kernel) (by decide +kernel)
  exact not_yields_completes (by decide +kernel) (by decide +kernel) (fun _ ends => ends.2) (good (by decide +kernel))

/-- A frame to transmit. -/
def transmitEntry : EntrySt := entryOfBytes [0x30]

/-- Refutes O28: a frame to transmit whose data may not be read, behind an entry that has ended, makes two records as it ends.
The other clauses (log entry 89) are not touched. -/
theorem not_netEntries : ¬ Obligations.NetEntries := by
  intro h
  obtain ⟨-, transmit, -⟩ := h
  obtain ⟨refused, -⟩ := transmit .a 5 transmitEntry (State.reset.behindEnded transmitEntry) (by decide +kernel)
  exact not_yields_completes (by decide +kernel) (by decide +kernel) (fun _ ends => ends) (refused (by decide +kernel))

end Sys2Proof.Machine

/-! PROOFS. A lapse is measured by the unit time of the core that runs the ring: O12 does not hold where that core's time is
behind the time master's. -/

namespace Sys2Proof.Machine

/-- A ring of protected islet 1 on core B whose shadow index has differed since time 0; core A, the time master, is 1 ms ahead
of core B. -/
def twinBehind : State :=
  (((State.reset.setFlt { State.reset.flt with lanes := 4 }).setIslet 1 { IsletSt.init with prot := true }).setRing .b 1 0 { RingSt.init with differSince := some 0 }).setTime
    { utA := 1000000, utB := 0, rem := 0 }

/-- Refutes O12: at 1 ms of the time master's clock core B's own is still 0, and the protection has not lapsed. -/
theorem not_doorbellsAndConfiguration : ¬ Obligations.DoorbellsAndConfiguration := by
  intro h
  obtain ⟨-, -, -, -, -, lapse⟩ := h
  have lapsed := (lapse 1 .b 0 1000000 0 twinBehind (by decide +kernel) (by decide +kernel) (by decide +kernel)).next
    (exec_eq_afterExec _ _)
  exact absurd lapsed.1 (by decide +kernel)

end Sys2Proof.Machine

/-! PROOFS. The hand-over goes through islets 1 to 128: O37 does not hold of a state in which islet 0, which stands for the unit
itself, is not free. -/

namespace Sys2Proof.Machine

/-- Core A is to adopt the state of core B; islet 0 is active and protected, which no run of the model makes it. -/
def unitIsletProtected : State :=
  (State.reset.setFlt { State.reset.flt with adopt := some .b }).setIslet 0 { IsletSt.init with st := .active, prot := true }

/-- Refutes O37: the protection of islet 0 does not lapse with that of islets 1 to 128. -/
theorem not_adoption : ¬ Obligations.Adoption := by
  intro h
  have adopted := (h.1 .a unitIsletProtected (by decide +kernel) (by decide +kernel) (by decide +kernel)).next (exec_eq_afterExec _ _)
  obtain ⟨-, -, lapsed, -⟩ := adopted
  exact absurd (lapsed 0 (by decide +kernel) (by decide +kernel)) (by decide +kernel)

end Sys2Proof.Machine

/-! PROOFS. A link forms (07 R183 to R186, R200 to R208; 11 R303). -/

namespace Sys2Proof.Machine

/-! ### What the operations of a link make of it -/

section operations
variable {s t : State} {x : Seat} {l : SeatLink} {K : Nat}

/-- The unit time of the core that serves a seat. -/
def State.seatUt (s : State) (x : Seat) : Nat := s.ut (s.servingCore x)

theorem Keep.seatUt (h : Keep K s t) (kept : (K.testBit 0 && K.testBit 42) = true) (x : Seat) : t.seatUt x = s.seatUt x := by
  rw [Bool.and_eq_true] at kept
  rw [State.seatUt, State.seatUt, h.servingCore kept.2, h.ut kept.1]

theorem State.link_linkDone : (State.linkDone s x t).link_ x = t.link_ x := State.linkDone_keep.link_ (by decide) x

/-- A link that negotiates afresh (R185). -/
def SeatLink.afresh (l : SeatLink) (rates : BitVec 4) : SeatLink :=
  { l with
    st := if l.energyAt.isSome then .negotiating else .noPartner, pcsUp := false, rate := 0, trainEnd := none, live := false,
    rehome := false, offered := rates, pages := ouiPages (unitWord rates) }

theorem State.link_negotiate : (s.negotiate x).link_ x = (s.link_ x).afresh (s.advertised x) := by
  rw [State.negotiate, State.startTarget_keep.link_ (by decide), State.link__setLink_]
  rfl

/-- The link of a partner found foreign (R186). -/
def SeatLink.foreign (l : SeatLink) : SeatLink :=
  { l with st := .foreign, pcsUp := false, rate := 0, trainEnd := none, offered := 0, pages := [] }

theorem State.link_becomeForeign : (s.becomeForeign x).link_ x = (s.link_ x).foreign := by
  have same : ((s.setLink_ x (s.link_ x).foreign).bumpSeat x 21 1).link_ x = (s.link_ x).foreign := by
    rw [State.bumpSeat_keep.link_ (by decide), State.link__setLink_]
  unfold State.becomeForeign
  dsimp only
  split
  · rw [State.removePower_keep.link_ (by decide)]
    exact same
  · exact same

/-- The epoch of the next `HELLO` (R200). -/
def nextEpoch (e : Half) : Half := if e = 0xFFFF then 1 else e + 1

/-- The link that has sent a `HELLO`. -/
def SeatLink.greets (l : SeatLink) (nonce : List Byte) (now : Nat) : SeatLink :=
  { l with epoch := nextEpoch l.epoch, nonce := nonce, helloLast := now }

theorem State.link_sendHello : (s.sendHello x).link_ x =
    (s.link_ x).greets ((List.range 16).map (Config.nonceByte s.free)) (s.seatUt x) := by
  have now : (((s.setFree (s.free + 1)).clearTunnel x .ctrl).clearTunnel x .sync).seatUt x = s.seatUt x := by
    rw [State.clearTunnel_keep.seatUt (by decide), State.clearTunnel_keep.seatUt (by decide)]
    rfl
  unfold State.seatUt at now
  unfold State.sendHello State.draw
  dsimp only
  rw [State.sendCtrl_keep.link_ (by decide), State.link__setLink_, now]
  rfl

end operations

/-! ### Negotiation (R183 to R186) -/

section negotiation
variable {s : State} {x : Seat} {m : BitVec 11 × BitVec 11 × BitVec 11 × BitVec 11} {w ut e : Nat} {pages : BitVec 4}

/-- The state in which auto-negotiation judges what the partner sent. -/
def State.heard (s : State) (x : Seat) : State :=
  ((s.wakeSeat x).startTarget x (s.seatUt x)).setLink_ x
    { s.link_ x with energyAt := some ((s.link_ x).energyAt.getD (s.seatUt x)), paged := true }

theorem State.link_heard : (s.heard x).link_ x =
    { s.link_ x with energyAt := some ((s.link_ x).energyAt.getD (s.seatUt x)), paged := true } := by
  rw [State.heard, State.link__setLink_]

theorem State.targetOnly_heard : (s.heard x).targetOnly x = s.targetOnly x := by
  have woken : (s.wakeSeat x).seatTime x = s.seatTime x := State.wakeSeat_keep.seatTime (by decide) x
  show State.targetOnly ((s.wakeSeat x).startTarget x (s.seatUt x)) x = _
  have same : ((s.wakeSeat x).startTarget x (s.seatUt x)).seatTime x =
      { s.seatTime x with targetFrom := (((s.wakeSeat x).startTarget x (s.seatUt x)).seatTime x).targetFrom } := by
    unfold State.startTarget
    dsimp only
    split
    · rw [State.seatTime_setSeatTime, woken]
    · rw [woken]
  rw [State.targetOnly, State.targetOnly, same]

theorem State.advertised_heard : (s.heard x).advertised x = s.advertised x := by
  rw [State.advertised, State.advertised, State.targetOnly_heard, State.link_heard]
  rfl

/-- The line that trains at the highest rate that both sides have. -/
def State.trains (s : State) (x : Seat) (pages : BitVec 4) (now : Nat) : State :=
  s.setLink_ x { s.link_ x with
    st := .training, trainRate := BitVec.ofNat 4 (highestRate (s.advertised x &&& pages)), trainEnd := some (now + 2500 * ms),
    partnerRates := pages,
    trainFails := if (s.link_ x).trainRate.toNat = highestRate (s.advertised x &&& pages) then (s.link_ x).trainFails else 0 }

/-- The partner is a dock, by what it sent (R184). -/
def isDock (m : Option (BitVec 11 × BitVec 11 × BitVec 11 × BitVec 11)) (pages : BitVec 4) : Bool :=
  match m.bind straitWord with
  | some w => straitWordOk w pages
  | none => false

theorem State.autoneg_eq {m : Option (BitVec 11 × BitVec 11 × BitVec 11 × BitVec 11)} (seeking : (s.link_ x).seeking = true) :
    s.autoneg x m pages = if !isDock m pages then (s.heard x).becomeForeign x
      else if highestRate ((s.heard x).advertised x &&& pages) = 0 then (s.heard x).noRate x else (s.heard x).trains x pages (s.seatUt x) := by
  unfold State.autoneg
  dsimp only
  rw [seeking, if_neg (by decide)]
  rfl

theorem yields_autonegForeign (seeking : (s.link_ x).seeking = true) {m : Option (BitVec 11 × BitVec 11 × BitVec 11 × BitVec 11)}
    (none_ : m.bind straitWord = none) :
    Yields (.autonegComplete x m pages) s fun t => (t.link_ x).st = .foreign ∧ (t.link_ x).rate = 0 ∧ (t.link_ x).trainEnd = none := by
  have dock : isDock m pages = false := by rw [isDock, none_]
  refine ⟨_, rfl, ?_⟩
  dsimp only
  rw [State.link_linkDone, State.autoneg_eq seeking, dock, if_pos (by rfl), State.link_becomeForeign]
  exact ⟨rfl, rfl, rfl⟩

theorem yields_autonegNoRate (seeking : (s.link_ x).seeking = true) (word : straitWord m = some w) (good : straitWordOk w pages = true)
    (noRate : highestRate (s.advertised x &&& pages) = 0) (free : (s.targetOnly x).isNone = true) :
    Yields (.autonegComplete x (some m) pages) s fun t => (t.link_ x).st = .foreign ∧ (t.link_ x).rate = 0 ∧ (t.link_ x).trainEnd = none := by
  have dock : isDock (some m) pages = true := by rw [isDock, Option.bind_some, word]; exact good
  refine ⟨_, rfl, ?_⟩
  dsimp only
  rw [State.link_linkDone, State.autoneg_eq seeking, dock, if_neg (by decide), State.advertised_heard, if_pos noRate, State.noRate,
    State.targetOnly_heard, if_pos free, State.link_becomeForeign]
  exact ⟨rfl, rfl, rfl⟩

theorem yields_autonegTrains (seeking : (s.link_ x).seeking = true) (word : straitWord m = some w) (good : straitWordOk w pages = true)
    (rate : highestRate (s.advertised x &&& pages) ≠ 0) :
    Yields (.autonegComplete x (some m) pages) s fun t =>
      (t.link_ x).st = .training ∧ (t.link_ x).trainRate = BitVec.ofNat 4 (highestRate (s.advertised x &&& pages)) ∧
      (t.link_ x).trainEnd = some (s.ut (s.servingCore x) + 2500 * ms) ∧ (t.link_ x).partnerRates = pages ∧ (t.link_ x).paged = true := by
  have dock : isDock (some m) pages = true := by rw [isDock, Option.bind_some, word]; exact good
  refine ⟨_, rfl, ?_⟩
  dsimp only
  rw [State.link_linkDone, State.autoneg_eq seeking, dock, if_neg (by decide), State.advertised_heard, if_neg rate, State.trains,
    State.link__setLink_, State.advertised_heard, State.link_heard]
  exact ⟨rfl, rfl, rfl, rfl, rfl⟩

end negotiation

/-! ### Foreign partners and energy (R183, R186) -/

section energy
variable {s u : State} {x : Seat} {ut e : Nat}

theorem yields_foreignEnergyTimeout (arrived : u = s.arrive ut) (at_ : (u.link_ x).energyAt = some e)
    (seeking : (u.link_ x).seeking = true) (paged : (u.link_ x).paged = false) (late : e + 3000 * ms ≤ u.ut (u.servingCore x)) :
    Yields (.foreignEnergyTimeout x ut) s fun t => (t.link_ x).st = .foreign ∧ (t.link_ x).rate = 0 := by
  subst arrived
  have run : (s.arrive ut).foreignEnergy x = (s.arrive ut).becomeForeign x := by
    simp only [State.foreignEnergy, at_, seeking, paged, late, Bool.not_false, decide_true, Bool.and_true, if_true]
  refine ⟨_, rfl, ?_⟩
  dsimp only
  rw [State.link_linkDone, run, State.link_becomeForeign]
  exact ⟨rfl, rfl⟩

theorem yields_foreignClear (arrived : u = s.arrive ut) (foreign : (u.link_ x).st = .foreign) :
    Yields (.foreignClear x ut) s fun t => (t.link_ x).st = .noPartner ∧ (t.link_ x).energyAt = none ∧ (t.link_ x).paged = false ∧
      (t.link_ x).dropped = 0 ∧ (t.link_ x).trainFails = 0 ∧ (t.link_ x).rate = 0 := by
  subst arrived
  refine ⟨_, rfl, ?_⟩
  dsimp only
  rw [State.link_linkDone, State.foreignClear, if_pos foreign, State.powerUnforeign_keep.link_ (by decide), State.link_negotiate,
    State.link__setLink_]
  exact ⟨rfl, rfl, rfl, rfl, rfl, rfl⟩

theorem yields_partnerEnergyDetected (arrived : u = s.arrive ut) (served : u.portsServed = true)
    (alone : (u.link_ x).st = .noPartner) (dark : (u.link_ x).energyAt = none) :
    Yields (.partnerEnergyDetected x ut) s fun t => (t.link_ x).st = .negotiating ∧
      (t.link_ x).energyAt = some (u.ut (u.servingCore x)) ∧ (t.link_ x).dropped = 0 := by
  subst arrived
  refine ⟨State.linkDone (s.arrive ut) x ((s.arrive ut).energy x), congrArg Host.Outcome.next (if_pos served), ?_⟩
  dsimp only
  rw [State.link_linkDone, State.energy, if_pos ⟨alone, by rw [dark]; rfl⟩, State.link_negotiate, State.link__setLink_]
  exact ⟨rfl, rfl, rfl⟩

end energy

/-! ### Training (R183) -/

section training
variable {s u : State} {x : Seat} {ut e : Nat} {pairs : BitVec 6}

theorem yields_trainingComplete (trains : (s.link_ x).st = .training) (ends : (s.link_ x).trainEnd.isSome = true) :
    Yields (.trainingComplete ⟨x, pairs⟩) s fun t =>
      t.link_ x = { s.link_ x with rate := (s.link_ x).trainRate, trainEnd := none, trainFails := 0 } ∧
      (t.seatPower x).pairMap.toNat = pairs.toNat := by
  refine ⟨_, rfl, ?_, ?_⟩
  · rw [State.link_linkDone, State.trained, if_pos ⟨trains, ends⟩, State.gateRecheck_keep.link_ (by decide),
      State.setSeatPower_keep.link_ (by decide), State.link__setLink_]
  · rw [State.linkDone_keep.seatPower (by decide), State.trained, if_pos ⟨trains, ends⟩, State.gateRecheck_keep.seatPower (by decide),
      State.seatPower_setSeatPower, BitVec.toNat_ofNat, Nat.mod_eq_of_lt (by have := pairs.isLt; omega)]

theorem yields_trainingTimeout (arrived : u = s.arrive ut) (ends : (u.link_ x).trainEnd = some e)
    (late : e ≤ u.ut (u.servingCore x)) :
    Yields (.trainingTimeout x ut) s fun t => (t.link_ x).trainEnd = none ∧ (t.link_ x).rate = 0 ∧
      (t.link_ x).trainFails = (if (u.link_ x).trainFails = 0 then 1 else 0) ∧
      (t.link_ x).dropped = (if (u.link_ x).trainFails = 0 then (u.link_ x).dropped
        else (u.link_ x).dropped ||| rateBit (u.link_ x).trainRate.toNat) := by
  subst arrived
  refine ⟨_, rfl, ?_⟩
  dsimp only
  rw [State.link_linkDone]
  simp only [State.trainFailed, ends, if_neg (Nat.not_lt.mpr late)]
  split
  · rw [State.link_negotiate, State.link__setLink_]
    exact ⟨rfl, rfl, rfl, rfl⟩
  · rw [State.link_negotiate, State.link__setLink_]
    exact ⟨rfl, rfl, rfl, rfl⟩

end training

/-! ### The greeting (R200 to R206) -/

section greeting
variable {s u : State} {x : Seat} {ut t0 : Nat} {b : List Byte}

/-- The link as its PCS comes up. -/
def SeatLink.comesUp (l : SeatLink) (now : Nat) (changing : Bool) : SeatLink :=
  { l with
    st := .greeting, pcsUp := true, lastRx := now, lastTx := now, helloFirst := now, live := false, rehome := l.moved,
    priorEpoch := l.svcEpoch, afterRate := changing, lastRate := l.rate }

/-- What a change of the rate makes of the Gen 1 ports of a seat. -/
def State.gen1Follows (s : State) (x : Seat) (l : SeatLink) : State :=
  if l.rate.toNat < 3 ∧ 3 ≤ l.lastRate.toNat then s.gen1Fall x
  else if 3 ≤ l.rate.toNat ∧ l.lastRate.toNat < 3 then s.gen1Rise x else s

theorem State.gen1Follows_keep {l : SeatLink} : Keep (2 ^ 0 + 2 ^ 20 + 2 ^ 42) s (s.gen1Follows x l) := by
  unfold State.gen1Follows
  split
  · exact State.gen1Fall_keep.weaken (by decide)
  · split
    · exact State.gen1Rise_keep.weaken (by decide)
    · exact Keep.rfl'

theorem yields_pcsLinkUp (trains : (s.link_ x).st = .training) (ended : (s.link_ x).trainEnd = none)
    (down : (s.link_ x).pcsUp = false) (rate : (s.link_ x).rate ≠ 0) :
    Yields (.pcsLinkUp x) s fun t => (t.link_ x).st = .greeting ∧ (t.link_ x).pcsUp = true ∧
      (t.link_ x).epoch = (if (s.link_ x).epoch = 0xFFFF then 1 else (s.link_ x).epoch + 1) ∧
      (t.link_ x).helloFirst = s.ut (s.servingCore x) ∧ (t.link_ x).helloLast = s.ut (s.servingCore x) := by
  let up := (s.wakeSeat x).setLink_ x ((s.link_ x).comesUp (s.seatUt x) ((s.seatTime x).ratePhase == .changing))
  have run : s.linkUp x = ((up.gen1Follows x (s.link_ x)).gateRecheck x).sendHello x := by
    unfold State.linkUp
    dsimp only
    rw [if_pos ⟨trains, by rw [ended]; rfl, by rw [down]; rfl, rate⟩]
    rfl
  have link : ((up.gen1Follows x (s.link_ x)).gateRecheck x).link_ x = up.link_ x := by
    rw [State.gateRecheck_keep.link_ (by decide), State.gen1Follows_keep.link_ (by decide)]
  have now : ((up.gen1Follows x (s.link_ x)).gateRecheck x).seatUt x = s.seatUt x := by
    rw [State.gateRecheck_keep.seatUt (by decide), State.gen1Follows_keep.seatUt (by decide), State.setLink__keep.seatUt (by decide),
      State.wakeSeat_keep.seatUt (by decide)]
  refine ⟨_, rfl, ?_⟩
  dsimp only
  rw [State.link_linkDone, run, State.link_sendHello, link, now, State.link__setLink_]
  exact ⟨rfl, rfl, rfl, rfl, rfl⟩

theorem yields_helloRetry (arrived : u = s.arrive ut) (waits : (u.link_ x).waitsReply = true)
    (late : (u.link_ x).helloLast + (if (u.link_ x).rehome then 50000 else 10 * ms) ≤ u.ut (u.servingCore x))
    (soon : u.ut (u.servingCore x) < (u.link_ x).helloFirst + 1000 * ms) :
    Yields (.helloRetry x ut) s fun t => (t.link_ x).epoch = (if (u.link_ x).epoch = 0xFFFF then 1 else (u.link_ x).epoch + 1) ∧
      (t.link_ x).helloFirst = (u.link_ x).helloFirst ∧ (t.link_ x).helloLast = u.ut (u.servingCore x) := by
  subst arrived
  refine ⟨_, rfl, ?_⟩
  dsimp only
  rw [State.helloAgain, waits, decide_eq_true ⟨late, soon⟩, if_pos (by rfl), State.link_sendHello]
  exact ⟨rfl, rfl, rfl⟩

theorem yields_authRetry (arrived : u = s.arrive ut) (failed : (u.link_ x).st = .authFailed) (at_ : (u.link_ x).authAt = some t0)
    (late : t0 ≤ u.ut (u.servingCore x)) (up : (u.link_ x).pcsUp = true) :
    Yields (.authRetry x ut) s fun t => (t.link_ x).st = .authFailed ∧
      (t.link_ x).live = true ∧ (t.link_ x).authAt = none ∧ (t.link_ x).priorEpoch = 0 ∧
      (t.link_ x).epoch = (if (u.link_ x).epoch = 0xFFFF then 1 else (u.link_ x).epoch + 1) := by
  subst arrived
  have run : exec (.authRetry x ut) s = .next ((s.arrive ut).renewExchange x) := by
    show Host.Outcome.next (match ((s.arrive ut).link_ x).st, ((s.arrive ut).link_ x).authAt with
      | .authFailed, some t => if t ≤ (s.arrive ut).ut ((s.arrive ut).servingCore x) then (s.arrive ut).renewExchange x else s.arrive ut
      | _, _ => s.arrive ut) = _
    rw [failed, at_]
    exact congrArg Host.Outcome.next (if_pos late)
  refine ⟨_, run, ?_⟩
  dsimp only
  unfold State.renewExchange
  dsimp only
  rw [up, failed, if_pos (by rfl), State.link_sendHello, State.link__setLink_]
  exact ⟨rfl, rfl, rfl, rfl, rfl⟩

end greeting


/-! ### The result of a `HELLO_REPLY` (R204 to R206) -/

section result
variable {s u : State} {x : Seat} {b : List Byte}

theorem State.link_endHold : (s.endHold x).link_ x = { s.link_ x with holdStart := none, holdLen := 0, moved := false } := by
  unfold State.endHold
  dsimp only
  split
  · rw [State.setPortState_keep.link_ (by decide), State.link__setLink_]
  · rw [State.link__setLink_]

theorem State.svcEpoch_flushSeat : ((s.flushSeat x).link_ x).svcEpoch = 0 := by
  unfold State.flushSeat
  dsimp only
  rw [State.bumpSeat_keep.link_ (by decide), State.link_endHold, State.link__setLink_]

/-- The state of a seat is flushed where the unit holds one (R210). -/
def State.flushed (s : State) (x : Seat) : State := if (s.link_ x).svcEpoch = 0 then s else s.flushSeat x

theorem State.svcEpoch_flushed : ((s.flushed x).link_ x).svcEpoch = 0 := by
  unfold State.flushed
  split
  · assumption
  · exact State.svcEpoch_flushSeat

theorem State.link_resumeTunnels (l : List Tunnel) (rehome : Bool) (v : Tunnel → Half) :
    (l.foldl (fun s t => s.resumeTunnel x t rehome (v t)) s).link_ x = s.link_ x :=
  Keep.link_ (K := 2 ^ 20) (Keep.foldl Keep.rfl' fun _ _ => State.resumeTunnel_keep.weaken (by decide)) (by decide) x

theorem State.link_freshTunnels (l : List Tunnel) : (l.foldl (fun s t => s.freshTunnel x t) s).link_ x = s.link_ x :=
  Keep.link_ (K := 2 ^ 20) (Keep.foldl Keep.rfl' fun _ _ => State.freshTunnel_keep.weaken (by decide)) (by decide) x

/-- What a result leaves of a link: its state and its service. -/
def welcomed (l : SeatLink) (now : Nat) (b : List Byte) (r : Welcome) (t : SeatLink) : Prop :=
  match r with
  | .fresh => t.st = .up ∧ t.svcEpoch = l.epoch ∧ t.svcDock = BitVec.ofNat 64 (fld b 8 8)
  | .resumed => t.st = .up ∧ t.svcEpoch = l.epoch ∧ t.holdStart = none
  | .unenrolled => t.st = .unenrolled ∧ t.svcEpoch = 0
  | .authFailed => t.st = .authFailed ∧ t.svcEpoch = 0 ∧ t.authAt = some (now + 60000 * ms)

theorem State.welcomed_enterResult (r : Welcome) :
    welcomed (s.link_ x) (s.ut (s.servingCore x)) b r ((s.enterResult x b r).link_ x) := by
  cases r with
  | unenrolled =>
    unfold State.enterResult
    dsimp only
    rw [State.link__setLink_]
    exact ⟨rfl, State.svcEpoch_flushed⟩
  | authFailed =>
    unfold State.enterResult
    dsimp only
    rw [State.link__setLink_]
    exact ⟨rfl, State.svcEpoch_flushed, rfl⟩
  | fresh =>
    unfold State.enterResult
    dsimp only
    rw [State.link__setLink_]
    exact ⟨rfl, rfl, rfl⟩
  | resumed =>
    unfold State.enterResult
    dsimp only
    rw [State.link__setLink_]
    refine ⟨rfl, rfl, ?_⟩
    have kept : ((State.dropIso (dataTunnels.foldl
        (fun s_1 t => s_1.resumeTunnel x t (s.link_ x).rehome (tunnelState b t).1) s) x).link_ x).holdStart = (s.link_ x).holdStart := by
      rw [State.dropIso_keep.link_ (by decide), State.link_resumeTunnels]
    split
    · rw [State.bumpSeat_keep.link_ (by decide), State.link_endHold]
    · rename_i no
      rw [kept]
      exact Option.not_isSome_iff_eq_none.mp no

/-- A link whose fields that a result fixes are the same is welcomed too. -/
theorem welcomed_congr {l t t' : SeatLink} {now : Nat} {r : Welcome} (h : welcomed l now b r t)
    (same : t'.st = t.st ∧ t'.svcEpoch = t.svcEpoch ∧ t'.svcDock = t.svcDock ∧ t'.holdStart = t.holdStart ∧ t'.authAt = t.authAt) :
    welcomed l now b r t' := by
  obtain ⟨st, epoch, dock, hold, auth⟩ := same
  cases r <;> simp only [welcomed, st, epoch, dock, hold, auth] at h ⊢ <;> exact h

/-- The link once the greeting is over. -/
def SeatLink.answered (l : SeatLink) (b : List Byte) : SeatLink :=
  { l with live := false, rehome := false, afterRate := false, dockId := BitVec.ofNat 64 (fld b 8 8), dockNonce := slice b 16 16 }

/-- The end of a rate change that a good answer completes leaves all of a link but `RATE_RESULT`. -/
theorem State.link_endRate_if {c : Bool} : (if c then s.endRate x 1 else s).link_ x =
    { s.link_ x with rateResult := if c then 1 else (s.link_ x).rateResult } := by
  cases c
  · rfl
  · rw [if_pos rfl, State.endRate, State.link__setLink_, State.setSeatTime_keep.link_ (by decide)]
    rfl

theorem State.link_helloReply (form : replyForm b = true) (waits : (s.link_ x).waitsReply = true) (version : fld b 0 1 = 1)
    (epoch : fld b 2 2 = (s.link_ x).epoch.toNat) :
    ∃ v, (s.helloReply x b).link_ x = { ((s.enterResult x b (s.welcomeFor x b)).link_ x).answered b with rateResult := v } := by
  unfold State.helloReply
  dsimp only
  rw [form, if_neg (by decide), if_neg (by simp [waits, version, epoch])]
  rw [State.welcomeHeads_keep.link_ (by decide), State.sendTimeBase_keep.link_ (by decide), State.gateRecheck_keep.link_ (by decide)]
  rw [State.link_endRate_if, State.sendCtrl_keep.link_ (by decide), State.link__setLink_]
  exact ⟨_, rfl⟩

theorem yields_helloReply (mode : s.mode.mode ≠ .unsupervised) (waits : (s.link_ x).waitsReply = true) (form : replyForm b = true)
    (version : fld b 0 1 = 1) (epoch : fld b 2 2 = (s.link_ x).epoch.toNat) :
    Yields (.helloReply x b) s fun t => (t.link_ x).live = false ∧ (t.link_ x).dockId = BitVec.ofNat 64 (fld b 8 8) ∧
      welcomed (s.link_ x) (s.ut (s.servingCore x)) b (s.welcomeFor x b) (t.link_ x) := by
  refine ⟨State.linkDone s x (s.helloReply x b), congrArg Host.Outcome.next (if_neg mode), ?_⟩
  obtain ⟨v, link⟩ := State.link_helloReply form waits version epoch
  rw [State.link_linkDone, link]
  exact ⟨rfl, rfl, welcomed_congr (State.welcomed_enterResult _) ⟨rfl, rfl, rfl, rfl, rfl⟩⟩

end result

/-! ### The wake pattern (11 R303) -/

section wakePattern
variable {s : State} {x : Seat}

/-- The state in which a wake pattern has been seen. -/
def State.wakeHeard (s : State) (x : Seat) : State :=
  ((s.setSeatPower x { s.seatPower x with wakeSeen := true }).edge (s.servingCore x) (64 + x.val)).wakeSeat x

theorem State.seatPower_wakeHeard : (s.wakeHeard x).seatPower x = { s.seatPower x with wakeSeen := true } := by
  rw [State.wakeHeard, State.wakeSeat_keep.seatPower (by decide), State.edge_keep.seatPower (by decide), State.seatPower_setSeatPower]

theorem State.link_wakeHeard : (s.wakeHeard x).link_ x = s.link_ x := by
  rw [State.wakeHeard, State.wakeSeat_keep.link_ (by decide), State.edge_keep.link_ (by decide), State.setSeatPower_keep.link_ (by decide)]

/-- A powered port is not foreign, and stays as it is when its link is enabled. -/
theorem State.seatPower_enableSeat {seen : Bool} (powered : (s.seatPower x).isPowered = true) :
    (s.enableSeat x seen).seatPower x = s.seatPower x := by
  have same : ∀ l : SeatLink, ((s.setLink_ x l).negotiate x).seatPower x = s.seatPower x := fun l => by
    rw [State.negotiate_keep.seatPower (by decide), State.setLink__keep.seatPower (by decide)]
  unfold State.enableSeat State.powerUnforeign
  dsimp only
  rw [same, if_neg, same]
  intro foreign
  rw [SeatPower.isPowered, foreign] at powered
  cases powered

theorem State.disable_enableSeat {seen : Bool} : ((s.enableSeat x seen).link_ x).disable = false := by
  unfold State.enableSeat
  dsimp only
  rw [State.powerUnforeign_keep.link_ (by decide), State.link_negotiate, State.link__setLink_]
  rfl

theorem yields_wakePattern (powered : (s.seatPower x).isPowered = true) (down : (s.link_ x).pcsUp = false) :
    Yields (.wakePattern x) s fun t => (t.seatPower x).wakeSeen = true ∧
      ((s.seatPower x).wakeLink = true → (s.link_ x).disable = true → (t.link_ x).disable = false) := by
  have run : s.wakePattern x =
      if (s.seatPower x).wakeLink && (s.link_ x).disable then (s.wakeHeard x).enableSeat x true else s.wakeHeard x := by
    unfold State.wakePattern
    dsimp only
    rw [powered, down, if_pos (by rfl)]
    show (if (s.seatPower x).wakeLink && ((s.wakeHeard x).link_ x).disable then _ else _) = _
    rw [State.link_wakeHeard]
    rfl
  refine ⟨_, rfl, ?_, fun wake disabled => ?_⟩
  · rw [State.linkDone_keep.seatPower (by decide), run]
    split
    · rw [State.seatPower_enableSeat (by rw [State.seatPower_wakeHeard]; exact powered), State.seatPower_wakeHeard]
    · rw [State.seatPower_wakeHeard]
  · rw [State.link_linkDone, run, wake, disabled, if_pos (by rfl), State.disable_enableSeat]

end wakePattern

/-- Settles O19. A rate that was dropped is offered again once energy has gone and come back (log entry 43). -/
theorem linkForming : Obligations.LinkForming :=
  ⟨fun _ _ _ _ _ seeking word good => ⟨fun no free => yields_autonegNoRate seeking word good no free,
      fun rate => yields_autonegTrains seeking word good rate⟩,
    fun _ _ _ _ seeking none_ => yields_autonegForeign seeking none_,
    fun _ _ _ _ _ arrived at_ seeking paged late => yields_foreignEnergyTimeout arrived at_ seeking paged late,
    fun _ _ _ _ arrived foreign => yields_foreignClear arrived foreign,
    fun _ _ _ _ arrived served alone dark => yields_partnerEnergyDetected arrived served alone dark,
    fun _ _ _ trains ends => yields_trainingComplete trains ends,
    fun _ _ _ _ _ arrived ends late => yields_trainingTimeout arrived ends late,
    fun _ _ trains ended down rate => yields_pcsLinkUp trains ended down rate,
    fun _ _ _ _ arrived waits late soon => yields_helloRetry arrived waits late soon,
    fun _ _ _ _ _ arrived failed at_ late up => yields_authRetry arrived failed at_ late up,
    fun _ b s mode waits form version epoch => by
      obtain ⟨t, run, live, dock, result⟩ := yields_helloReply mode waits form version epoch
      refine ⟨t, run, live, dock, ?_⟩
      cases h : s.welcomeFor _ b <;> rw [h] at result <;> exact result,
    fun _ _ powered down => yields_wakePattern powered down⟩


end Sys2Proof.Machine

/-! PROOFS. A dispatch of an item that a `tick` suspended: O14 does not hold of it. -/

namespace Sys2Proof.Machine

/-- A ready item that goes on after its `tick`. -/
def resumedItem : Item := { Item.init with islet := 1, resume := true }

/-- The suspended run of that item, within a call. -/
def suspendedRun : Run := { Run.init with item := resumedItem, rets := [4] }

/-- The item is ready at cluster 0 of core A. -/
def resumeReady : State :=
  State.reset.setDispatch .a { State.reset.dispatch .a with ready := [resumedItem], suspended := [(suspendedRun, 0)] }

/-- Refutes O14: the dispatch of an item that a `tick` suspended goes on with its run (04 R110), whose stack of returns is not
empty. -/
theorem not_dispatcherAndItems : ¬ Obligations.DispatcherAndItems := by
  intro h
  obtain ⟨dispatch, -⟩ := h
  have runs := (dispatch .a 3 [resumedItem] resumedItem resumeReady (by decide +kernel) (by decide +kernel) (by decide +kernel)
    (by decide +kernel) (by decide +kernel) (by decide +kernel)).next (exec_eq_afterExec _ _)
  obtain ⟨⟨r, cur, -, -, rets, -⟩, -⟩ := runs
  have kept : ((resumeReady.afterExec (.itemDispatch .a 3)).teSt .a 3).cur.map (·.rets) = some [4] := by decide +kernel
  rw [cur, Option.map_some, rets] at kept
  exact absurd kept (by decide)

end Sys2Proof.Machine

/-! PROOFS. The event controllers (05 R138 to R148) and the seat's tick (05 R137). -/

namespace Sys2Proof.Machine

/-! ### What a wake leaves of an event controller -/

section raises
variable {s t u : State} {c d : CoreId} {n : Nat} {v e : EvtCore} {K : Nat}

/-- An event controller but for its pending words. -/
def EvtCore.rest (e : EvtCore) : EvtCore := { e with pending := [] }

/-- Every source that is pending in `e` is pending in `v`, and nothing else of the controller has changed. -/
def EvtCore.Raises (e v : EvtCore) : Prop :=
  v.rest = e.rest ∧ ∀ w b, (e.pend w).getLsbD b = true → (v.pend w).getLsbD b = true

/-- Sources may have become pending; nothing else of an event controller has changed. -/
def Raises (s t : State) : Prop := ∀ c, (s.evtCore c).Raises (t.evtCore c)

theorem EvtCore.Raises.rfl' : e.Raises e := ⟨rfl, fun _ _ h => h⟩

theorem Raises.rfl' : Raises s s := fun _ => EvtCore.Raises.rfl'

theorem Raises.trans (h : Raises s t) (h' : Raises t u) : Raises s u :=
  fun c => ⟨(h' c).1.trans (h c).1, fun w b p => (h' c).2 w b ((h c).2 w b p)⟩

theorem Keep.raises (h : Keep K s t) (kept : K.testBit 13 = true) : Raises s t := fun c => by
  rw [h.evtCore kept]
  exact EvtCore.Raises.rfl'

theorem State.evtCore_setEvtCore_ne (h : d ≠ c) : (s.setEvtCore c v).evtCore d = s.evtCore d := by
  cases c <;> cases d <;> simp_all [State.evtCore, State.setEvtCore, State.setEvt]

theorem EvtCore.pend_setPend_self : ((e.setPend n true).pend (n / 64)).getLsbD (n % 64) = true := by
  have low : n % 64 < 64 := Nat.mod_lt _ (by decide)
  simp [EvtCore.setPend, EvtCore.pend, tget_tset, low]

theorem EvtCore.raises_setPend : e.Raises (e.setPend n true) := by
  refine ⟨rfl, fun w b p => ?_⟩
  by_cases same : w = n / 64
  · subst same
    simp only [EvtCore.setPend, EvtCore.pend, if_true, tget_tset, BitVec.getLsbD_or] at p ⊢
    rw [p, Bool.true_or]
  · simp only [EvtCore.setPend, EvtCore.pend, if_true] at p ⊢
    rw [tget_tset_ne]
    · exact p
    · exact same

theorem raises_setEvtCore (h : (s.evtCore c).Raises v) : Raises s (s.setEvtCore c v) := by
  intro d
  by_cases same : d = c
  · subst same
    rw [State.evtCore_setEvtCore]
    exact h
  · rw [State.evtCore_setEvtCore_ne same]
    exact EvtCore.Raises.rfl'

theorem Raises.foldl {α : Type} {g : State → α → State} (each : ∀ s a, Raises s (g s a)) (l : List α) (s : State) :
    Raises s (l.foldl g s) := by
  induction l generalizing s with
  | nil => exact Raises.rfl'
  | cons a l ih => exact (each s a).trans (ih _)

theorem raises_countLatched : Raises s (s.countLatched c) := by
  unfold State.countLatched
  dsimp only
  split
  · refine Raises.foldl (fun s a => ?_) _ s
    split
    · split
      · exact State.setCntCore_keep.raises (by decide)
      · exact Raises.trans (t := s.setCntCore c _) (State.setCntCore_keep.raises (by decide)) (raises_setEvtCore EvtCore.raises_setPend)
    · exact Raises.rfl'
  · exact Raises.rfl'

theorem raises_wakeTarget : Raises s (s.wakeTarget c n) := by
  unfold State.wakeTarget
  split
  · exact Raises.rfl'
  · rename_i d _
    dsimp only
    split
    · exact Raises.rfl'
    · split
      · exact Raises.rfl'
      · have woken : Raises s (s.wake0 c d).1 := State.wake0_keep.raises (by decide)
        split
        · exact woken.trans ((raises_setEvtCore EvtCore.raises_setPend).trans raises_countLatched)
        · exact woken

theorem raises_wakePending {w : Nat} : Raises s (s.wakePending c w) := by
  unfold State.wakePending
  refine Raises.foldl (fun s b => ?_) _ s
  dsimp only
  split
  · exact raises_wakeTarget
  · exact Raises.rfl'

theorem raises_wakePriv : Raises s (s.wakePriv c n) := by
  unfold State.wakePriv
  dsimp only
  split
  · exact Raises.rfl'
  · exact raises_wakeTarget

/-- The words of a controller that a wake leaves. -/
theorem EvtCore.Raises.words (h : e.Raises v) : v.mask = e.mask ∧ v.privPending = e.privPending ∧ v.privMask = e.privMask ∧
    v.source = e.source ∧ v.armed = e.armed := by
  obtain ⟨rest, -⟩ := h
  simp only [EvtCore.rest, EvtCore.mk.injEq, true_and] at rest
  obtain ⟨mask, privPending, privMask, -, -, armed, source, -⟩ := rest
  exact ⟨mask, privPending, privMask, source, armed⟩

end raises

/-! ### The words of a controller (R138 to R145) -/

section words
variable {s u : State} {c : CoreId} {n : Fin 2048} {k : Fin 33} {v : W64} {ut : Nat} {x : Seat}

theorem yields_eventEdge : Yields (.eventEdge c n) s fun t =>
    ((t.evtCore c).pend (n.val / 64)).getLsbD (n.val % 64) = true ∧ (t.evtCore c).mask = (s.evtCore c).mask := by
  have after {t : State} (h : Raises (s.setEvtCore c ((s.evtCore c).setPend n.val true)) t) :
      ((t.evtCore c).pend (n.val / 64)).getLsbD (n.val % 64) = true ∧ (t.evtCore c).mask = (s.evtCore c).mask := by
    have raised := h c
    rw [State.evtCore_setEvtCore] at raised
    exact ⟨raised.2 _ _ EvtCore.pend_setPend_self, raised.words.1⟩
  refine ⟨_, rfl, ?_⟩
  dsimp only
  unfold State.edge
  dsimp only
  split
  · exact after Raises.rfl'
  · exact after raises_wakeTarget

/-- A program of a core that is not fenced writes its core's controller (R145). -/
theorem programWrites (serves : (s.coreSt c).fenced = false) : (s.viaHeard (.prog c) && Via.writesEvents (.prog c) c) = true := by
  simp [State.viaHeard, Via.writesEvents, serves]

theorem yields_evtPendingWrite (serves : (s.coreSt c).fenced = false) (shared : k.val < 32) :
    Yields (.evtPendingWrite (.prog c) c false k v) s fun t =>
      ∀ b, v.getLsbD b = true → ((t.evtCore c).pend k.val).getLsbD b = true := by
  refine ⟨_, congrArg Host.Outcome.next (if_pos (programWrites serves)), fun b set => ?_⟩
  rw [State.writePending]
  rw [if_neg (by decide), if_pos shared]
  refine (raises_wakePending c).2 _ _ ?_
  rw [State.evtCore_setEvtCore, EvtCore.pend, tget_tset_same]
  exact set

theorem yields_evtPrivPendingWrite (serves : (s.coreSt c).fenced = false) :
    Yields (.evtPendingWrite (.prog c) c true k v) s fun t => (t.evtCore c).privPend k.val = v &&& 0xFFFFFFFF := by
  refine ⟨_, congrArg Host.Outcome.next (if_pos (programWrites serves)), ?_⟩
  dsimp only
  rw [State.writePending]
  rw [if_pos rfl, EvtCore.privPend, (raises_wakePriv c).words.2.1, State.evtCore_setEvtCore, tget_tset_same]

theorem yields_evtMaskWrite (serves : (s.coreSt c).fenced = false) (shared : k.val < 32) :
    Yields (.evtMaskWrite (.prog c) c false k v) s fun t => (t.evtCore c).maskW k.val = v := by
  refine ⟨_, congrArg Host.Outcome.next (if_pos (programWrites serves)), ?_⟩
  dsimp only
  rw [State.writeMask]
  rw [if_neg (by decide), if_pos shared, EvtCore.maskW, (raises_wakePending c).words.1, State.evtCore_setEvtCore, tget_tset_same]

theorem yields_evtPrivMaskWrite (serves : (s.coreSt c).fenced = false) :
    Yields (.evtMaskWrite (.prog c) c true k v) s fun t => (t.evtCore c).privMaskW k.val = v &&& 0xFFFFFFFF := by
  refine ⟨_, congrArg Host.Outcome.next (if_pos (programWrites serves)), ?_⟩
  dsimp only
  rw [State.writeMask]
  rw [if_pos rfl, EvtCore.privMaskW, (raises_wakePriv c).words.2.2.1, State.evtCore_setEvtCore, tget_tset_same]

theorem yields_evtVectorBaseWrite (serves : (s.coreSt c).fenced = false) :
    Yields (.evtVectorBaseWrite (.prog c) c k v) s fun t =>
      if k.val < 32 ∧ 0x1EF000 < (v &&& 0xFFFFF000).toNat then t = s else tget (t.evtCore c).base k.val 0 = v &&& 0xFFFFF000 := by
  refine ⟨_, congrArg Host.Outcome.next (if_pos (programWrites serves)), ?_⟩
  dsimp only
  rw [State.writeVectorBase]
  split
  · rfl
  · rw [State.evtCore_setEvtCore, tget_tset_same]

theorem yields_evtTimerWrite (serves : (s.coreSt c).fenced = false) :
    Yields (.evtTimerWrite (.prog c) c k v) s fun t => tget (t.evtCore c).timer k.val 0 = v ∧
      tget (t.evtCore c).armed k.val false = (v != 0) ∧ (t.evtCore c).pending = (s.evtCore c).pending := by
  refine ⟨_, congrArg Host.Outcome.next (if_pos (programWrites serves)), ?_⟩
  dsimp only
  rw [State.writeTimer]
  rw [State.evtCore_setEvtCore]
  exact ⟨tget_tset_same _ _ _ _, tget_tset_same _ _ _ _, rfl⟩

theorem yields_evtSourceWrite (serves : (s.coreSt c).fenced = false) :
    Yields (.evtSourceWrite (.prog c) c n v) s fun t => (t.evtCore c).src n.val = v &&& 0xF3F := by
  refine ⟨_, congrArg Host.Outcome.next (if_pos (programWrites serves)), ?_⟩
  dsimp only
  rw [State.writeSource]
  rw [EvtCore.src, (raises_wakePending c).words.2.2.2.1, State.evtCore_setEvtCore, tget_tset_same]

theorem yields_evtTimerFire (arrived : u = s.arrive ut) (armed : tget (u.evtCore c).armed k.val false = true)
    (late : (tget (u.evtCore c).timer k.val 0).toNat ≤ u.ut c) :
    Yields (.evtTimerFire c k ut) s fun t =>
      tget (t.evtCore c).armed k.val false = false ∧ ((t.evtCore c).privPend k.val).getLsbD 0 = true := by
  subst arrived
  let e : EvtCore := { (s.arrive ut).evtCore c with armed := tset ((s.arrive ut).evtCore c).armed k.val false false }
  let w := ((s.arrive ut).setEvtCore c e).setEvtCore c (e.setPriv k.val 0 true)
  have run : (s.arrive ut).fireTimer c k.val = if (e.privMaskW k.val).getLsbD 0 then w else w.wakeTarget c k.val := by
    unfold State.fireTimer
    dsimp only
    rw [armed, decide_eq_true late, if_pos (by rfl), State.privEdge]
    rw [State.evtCore_setEvtCore]
    rfl
  have raised : Raises w ((s.arrive ut).fireTimer c k.val) := by
    rw [run]
    split
    · exact Raises.rfl'
    · exact raises_wakeTarget
  obtain ⟨-, privPending, -, -, armed'⟩ := (raised c).words
  have at_ : w.evtCore c = e.setPriv k.val 0 true := State.evtCore_setEvtCore _ _ _
  refine ⟨_, rfl, ?_, ?_⟩
  · rw [armed', at_]
    show tget (tset ((s.arrive ut).evtCore c).armed k.val false false) k.val false = false
    exact tget_tset_same _ _ _ _
  · rw [EvtCore.privPend, privPending, at_, EvtCore.setPriv, tget_tset_same]
    simp

/-- The sweep reads, and changes the time of the last one alone (log entry 75). -/
theorem yields_supervisorSweep (arrived : u = s.arrive ut) (served : u.consoleServed = true)
    (late : u.evt.lastSweep / frameNs < u.now / frameNs) :
    Yields (.supervisorSweep ut) s fun t => t = u.setEvt { u.evt with lastSweep := u.now } := by
  subst arrived
  refine ⟨_, congrArg Host.Outcome.next (if_pos ?_), rfl⟩
  rw [served, decide_eq_true late]
  rfl

end words

/-! ### The seat's tick (R137) -/

section tick
variable {s u : State} {c : CoreId} {x : Seat} {ut : Nat} {it : Item} {l : List Item} {v : Fin 8} {h : Fin 4}

theorem mem_insertReady : it ∈ insertReady it l := by
  induction l with
  | nil => exact List.mem_singleton.mpr rfl
  | cons a l ih =>
    rw [insertReady]
    split
    · exact List.mem_cons_self
    · exact List.mem_cons_of_mem _ ih

theorem State.ready_holdCheck : ((s.holdCheck c).dispatch c).ready = (s.dispatch c).ready := by
  unfold State.holdCheck
  dsimp only
  split
  · rw [State.edge_keep.dispatch (by decide), State.dispatch_setDispatch]
  · split
    · rw [State.releaseAcks_keep.dispatch (by decide), State.newRounds_keep.dispatch (by decide), State.edge_keep.dispatch (by decide),
        State.dispatch_setDispatch]
    · rfl

/-- An item made ready is among the ready items of its core. -/
theorem State.mem_ready_readyIn :
    { it with level := v, home := h, readyUt := s.ut c, passed := 0 } ∈ ((s.readyIn c it v h).dispatch c).ready := by
  have held : { it with level := v, home := h, readyUt := s.ut c, passed := 0 } ∈ (((s.setDispatch c { s.dispatch c with
      ready := insertReady { it with level := v, home := h, readyUt := s.ut c, passed := 0 } (s.dispatch c).ready }).holdCheck
        c).dispatch c).ready := by
    rw [State.ready_holdCheck, State.dispatch_setDispatch]
    exact mem_insertReady
  unfold State.readyIn
  dsimp only
  split
  · exact held
  · rw [State.wake_keep.dispatch (by decide)]
    exact held

theorem yields_seatTick (arrived : u = s.arrive ut) (start : ut % microFrame = 0) (now : u.ut c = ut) (serves : u.serves c = true)
    (mine : u.servingCore x = c) (started : u.mode.mode.isStart = false) (powered : u.mode.mode ≠ .unpowered)
    (last : (u.usbSeat x).lastBuild < ut / microFrame + 2) (from_ : tget u.flt.buildFrom x.val 0 = 0)
    (hold : (u.link_ x).holdStart = none)
    (suspended : ((u.dispatch c).suspended.any fun r => r.1.item.flow == BitVec.ofNat 24 x.val) = false)
    (ready : ((u.dispatch c).ready.any (stillReady x (ut / microFrame + 2))) = false) :
    Yields (.seatTick c x ut) s fun t => (t.usbSeat x).lastBuild = ut / microFrame + 2 ∧
      ∃ it ∈ (t.dispatch c).ready, it.kind = 0 ∧ it.seat = some x ∧ it.arg = BitVec.ofNat 64 (ut / microFrame + 2) := by
  subst arrived
  have due : ut % microFrame = 0 ∧ (s.arrive ut).ut c = ut ∧ (s.arrive ut).serves c = true ∧ (s.arrive ut).servingCore x = c ∧
      (!(s.arrive ut).mode.mode.isStart) = true ∧ (s.arrive ut).mode.mode ≠ .unpowered :=
    ⟨start, now, serves, mine, by rw [started]; rfl, powered⟩
  have run : (s.arrive ut).seatTick c x (ut / microFrame + 2) =
      ((s.arrive ut).setUsbSeat x { (s.arrive ut).usbSeat x with lastBuild := ut / microFrame + 2 }).buildItem x (ut / microFrame + 2) := by
    unfold State.seatTick
    dsimp only
    rw [if_neg (not_or.mpr ⟨Nat.not_le.mpr last, not_not.mpr from_⟩), hold, if_neg (by decide), suspended, if_neg (by decide), ready,
      if_neg (by decide)]
  refine ⟨_, congrArg Host.Outcome.next (if_pos due), ?_⟩
  dsimp only
  rw [run]
  refine ⟨?_, ?_⟩
  · rw [State.buildItem_keep.usbSeat (by decide), State.usbSeat_setUsbSeat]
  · have serving : ((s.arrive ut).setUsbSeat x { (s.arrive ut).usbSeat x with lastBuild := ut / microFrame + 2 }).servingCore x = c := mine
    rw [State.buildItem, serving]
    exact ⟨_, State.mem_ready_readyIn, rfl, rfl, rfl⟩

end tick

/-- Settles O15. The sweep reads every status register and changes nothing but its own time (log entry 75). -/
theorem eventController : Obligations.EventController :=
  ⟨fun _ _ _ => yields_eventEdge,
    fun _ _ _ _ serves => ⟨yields_evtPendingWrite serves, yields_evtPrivPendingWrite serves, yields_evtMaskWrite serves,
      yields_evtPrivMaskWrite serves, yields_evtVectorBaseWrite serves, yields_evtTimerWrite serves⟩,
    fun _ _ _ _ serves => yields_evtSourceWrite serves,
    fun _ _ _ _ _ arrived armed late => yields_evtTimerFire arrived armed late,
    fun _ _ _ arrived served late => yields_supervisorSweep arrived served late,
    fun _ _ _ _ _ arrived start now serves mine started powered last from_ hold suspended ready =>
      yields_seatTick arrived start now serves mine started powered last from_ hold suspended ready⟩

end Sys2Proof.Machine

/-! PROOFS. Managers, leases and semaphores (02 R32 to R36), and the functions of the host links (02 R41, R42, R54, R408). -/

namespace Sys2Proof.Machine

/-! ### Registers of the managers and of the functions -/

section parts
variable {s t : State} {f g : FnId} {p q : PortId} {K : Nat}

theorem Keep.fnRegs (h : Keep K s t) (kept : K.testBit 1 = true) (f : FnId) : (t.fnSt f).regs = (s.fnSt f).regs := by
  have regs := h.fns kept
  simp only [State.part1, Prod.mk.injEq] at regs
  obtain ⟨h0a, h0b, h1a, h1b⟩ := regs
  obtain ⟨p, c⟩ := f
  cases p <;> cases c <;> assumption

theorem Keep.managers (h : Keep K s t) (kept : K.testBit 3 = true) :
    t.host.unitIndex = s.host.unitIndex ∧ t.host.wiring = s.host.wiring ∧ t.host.sems = s.host.sems ∧
      t.host.tieNext = s.host.tieNext := by
  have regs := h.hcfg kept
  simp only [State.part3, Prod.mk.injEq] at regs
  obtain ⟨index, wiring, sems, tie, -⟩ := regs
  exact ⟨index, wiring, sems, tie⟩

theorem Keep.sem (h : Keep K s t) (kept : K.testBit 3 = true) (n : Nat) : t.sem n = s.sem n :=
  congrArg (tget · n SemSt.init) (h.managers kept).2.2.1

theorem Keep.wq_eq (h : Keep K s t) (queues : K.testBit 6 = true) (rings : K.testBit 7 = true) (entries : K.testBit 8 = true)
    (rest : K.testBit 9 = true) : t.wq = s.wq := by
  have hq := h.queues queues
  have hr := h.rings rings
  have he := h.entries entries
  have hd := h.wqRest rest
  simp only [State.part6, State.part7, State.part8, State.part9, Prod.mk.injEq] at hq hr he hd
  obtain ⟨hq, hsq⟩ := hq
  obtain ⟨hr, hsr⟩ := hr
  obtain ⟨he, hn⟩ := he
  obtain ⟨hd, hv⟩ := hd
  cases wq : t.wq
  cases wq' : s.wq
  simp_all

theorem Keep.fnUp (h : Keep K s t) (fns : K.testBit 1 = true) (cores : K.testBit 42 = true) (f : FnId) : t.fnUp f = s.fnUp f := by
  rw [State.fnUp, State.fnUp, (h.fnLink fns f).1, h.coreSt cores]

theorem Keep.canRequest (h : Keep K s t) (fns : K.testBit 1 = true) (cores : K.testBit 42 = true) (f : FnId) :
    t.canRequest f = s.canRequest f := by
  rw [State.canRequest, State.canRequest, h.fnUp fns cores, (h.fnLink fns f).2]

theorem State.fnUp_of_link (h : (s.fnSt f).link ≠ .up) : s.fnUp f = false := by
  rw [State.fnUp, beq_eq_false_iff_ne.mpr h]
  rfl

end parts

/-! ### Managers, leases and semaphores -/

section managers
variable {s : State} {p q : PortId} {k j : CmdSet} {f g : FnId} {n : Nat} {tie : Bool} {v : W32}

/-- A manager's port after a write of `CONTROL`. -/
def State.controlled (s : State) (p : PortId) (v : W32) : PortSt :=
  { s.portSt p with leaseMs := BitVec.ofNat 16 v.toNat, wiringRefused := rw1c (s.portSt p).wiringRefused (v.getLsbD 23) }

theorem State.writeManagerControl_eq : s.writeManagerControl p v =
    if BitVec.ofNat 4 (bits v.toNat 31 28) = s.host.unitIndex ∧ v.getLsbD 24 = s.host.wiring then
      s.setPort p (s.controlled p v)
    else if s.mayUnitWide p && (v.getLsbD 24 == s.host.wiring || !s.anyIslet) then
      (((s.setPort p (s.controlled p v)).setHost { (s.setPort p (s.controlled p v)).host with
        unitIndex := BitVec.ofNat 4 (bits v.toNat 31 28), wiring := v.getLsbD 24 }).storeUpdate
          (fun k => { k with unitIndex := BitVec.ofNat 4 (bits v.toNat 31 28), wiring := v.getLsbD 24 })).reMode
    else (s.setPort p (s.controlled p v)).setPort p { s.controlled p v with wiringRefused := true } := by
  cases p <;> rfl

theorem unitIndex_bits : BitVec.ofNat 4 (bits v.toNat 31 28) = BitVec.ofNat 4 (v.toNat / 2 ^ 28) := by
  apply BitVec.eq_of_toNat_eq
  simp [bits]

theorem State.hostWiring_setPort {x : PortSt} :
    (s.setPort p x).host.unitIndex = s.host.unitIndex ∧ (s.setPort p x).host.wiring = s.host.wiring := by
  cases p <;> exact ⟨rfl, rfl⟩

theorem State.hostWiring_storeUpdate {g : StoreCopy → StoreCopy} :
    (s.storeUpdate g).host.unitIndex = s.host.unitIndex ∧ (s.storeUpdate g).host.wiring = s.host.wiring := ⟨rfl, rfl⟩

theorem State.sem_releaseSems : (s.releaseSems p).sem n = freeHeld p (s.sem n) :=
  tget_tmap (freeHeld p) (fun _ => SemSt.init) s.host.sems n rfl

theorem State.readSem_lost (lost : s.flt.refereeLost = true) : s.readSem p n tie = (2 ^ 29, s) := by
  rw [State.readSem, if_pos lost]
  rfl

/-- A read of a free semaphore acquires it (02 R36). -/
theorem State.readSem_free (lost : s.flt.refereeLost = false) (free : (s.sem n).holder = none) :
    s.readSem p n false = (semWord true (s.sem n).broken false (some p), s.setSem n { holder := some p, broken := false }) := by
  rw [State.readSem, lost]
  simp [free]

/-- Where both ports read a free semaphore at once, the port whose turn it is acquires it. -/
theorem State.readSem_tie (lost : s.flt.refereeLost = false) (free : (s.sem n).holder = none) :
    ((s.readSem p n true).2.sem n).holder = some s.host.tieNext ∧
      (s.readSem p n true).2.host.tieNext = s.host.tieNext.other := by
  have word : s.readSem p n true = if s.host.tieNext = p then
      (semWord true (s.sem n).broken false (some p),
        (s.setHost { s.host with tieNext := s.host.tieNext.other }).setSem n { holder := some p, broken := false })
    else (semWord false false false (some s.host.tieNext),
      (s.setHost { s.host with tieNext := s.host.tieNext.other }).setSem n { s.sem n with holder := some s.host.tieNext }) := by
    rw [State.readSem, lost]
    simp [free]
  rw [word]
  split
  next mine =>
    refine ⟨?_, rfl⟩
    rw [State.sem_setSem, mine]
  next =>
    refine ⟨?_, rfl⟩
    rw [State.sem_setSem]

end managers

/-! ### Enables, messages and links of a function -/

section functions
variable {s : State} {p q : PortId} {k j : CmdSet} {f g : FnId} {v : FnSt}

theorem State.request_fnSt {r : HostReq} : (s.request r).fnSt g = s.fnSt g := by
  have issue : (s.issueReq r).fnSt g = s.fnSt g := by
    unfold State.issueReq
    split
    · rfl
    · dsimp only
      split <;> rfl
  unfold State.request
  split
  · exact issue
  · rfl

theorem State.releaseMsix_fnSt (other : g ≠ f) : (s.releaseMsix f).fnSt g = s.fnSt g := by
  rw [State.releaseMsix]
  generalize (s.fnSt f).pba = l
  induction l generalizing s with
  | nil => rfl
  | cons e l ih =>
    rw [List.foldl_cons, ih]
    split
    · rw [State.request_fnSt, State.fnSt_setFn_ne other]
    · rfl

theorem State.releaseMsix_regs : ((s.releaseMsix f).fnSt f).regs = (s.fnSt f).regs :=
  State.releaseMsix_keep.fnRegs (by decide) f

/-- A command that waits for Bus Master Enable of function `f`, once that is set (02 R41). -/
def CmdSt.woken (f : FnId) (x : CmdSt) : CmdSt := if x.phase = .waitBme ∧ x.fn = f then { x with phase := .waitRead } else x

/-- Bus Master Enable as one register set sees it. -/
def State.wakeCommand (s : State) (f : FnId) (p : PortId) (k : CmdSet) : State :=
  if (s.cmdSt p k).phase = .waitBme ∧ (s.cmdSt p k).fn = f then s.setCmdSt p k { s.cmdSt p k with phase := .waitRead } else s

theorem State.cmdSt_setCmdSt_ne {v : CmdSt} (h : ¬(q = p ∧ j = k)) : (s.setCmdSt p k v).cmdSt q j = s.cmdSt q j := by
  rcases port_eq_or_other p q with rfl | rfl
  · rw [State.setCmdSt, State.cmdSt, State.portSt_setPort, PortSt.cmd_setCmd_ne _ _ fun same => h ⟨rfl, same⟩]
    rfl
  · exact State.cmdSt_setCmdSt_other _ _

theorem State.cmdSt_wakeCommand : (s.wakeCommand f p k).cmdSt q j =
    if q = p ∧ j = k then (s.cmdSt q j).woken f else s.cmdSt q j := by
  by_cases same : q = p ∧ j = k
  · obtain ⟨rfl, rfl⟩ := same
    rw [if_pos ⟨rfl, rfl⟩, State.wakeCommand, CmdSt.woken]
    split
    · exact State.cmdSt_setCmdSt _ _ _ _
    · rfl
  · rw [if_neg same, State.wakeCommand]
    split
    · exact State.cmdSt_setCmdSt_ne same
    · rfl

theorem State.wakeCommands_eq : s.wakeCommands f =
    [CmdSet.islet, .unitProgram, .dockKey, .unitCmd].foldl (fun s k => (s.wakeCommand f .h0 k).wakeCommand f .h1 k) s := rfl

theorem State.cmdSt_wakeCommands : (s.wakeCommands f).cmdSt q j = (s.cmdSt q j).woken f := by
  rw [State.wakeCommands_eq]
  cases q <;> cases j <;> simp [State.cmdSt_wakeCommand]

end functions

end Sys2Proof.Machine

/-! PROOFS. Links of functions (02 R54; 16 R395): what a loss, a reset and a return leave of the registers. -/

namespace Sys2Proof.Machine

section links
variable {s : State} {p q : PortId} {f g : FnId} {st : FnLink} {en : PcieEnables} {k : PcieControl} {l : PcieLink}

/-- What follows on the loss of a link that was up (02 R54). -/
def State.afterLoss (s : State) (f : FnId) : State :=
  let s := s.fnEdge f
  let s := (trunkPorts (hostTrunk f.port)).foldl (fun s o => s.setPortState f.core o .down) s
  let s := if s.fnUp { f with port := f.port.other } then s.movePaired f.core f.port else s
  let s := allIslets.foldl (fun s i => s.lostPath f i) s
  (s.settleDomain f.core (if f.port = .h0 then 24 else 25)).reModeFn

theorem State.afterLoss_keep : Keep (2 ^ 1) s (s.afterLoss f) := by
  unfold State.afterLoss
  generalize allIslets = l
  refine Keep.step State.reModeFn_keep (by decide) (Keep.step State.settleDomain_keep (by decide) (Keep.foldl ?_
    fun _ _ => State.lostPath_keep.weaken (by decide)))
  have ports : Keep (2 ^ 1) s ((trunkPorts (hostTrunk f.port)).foldl (fun s o => s.setPortState f.core o .down) (s.fnEdge f)) :=
    Keep.foldl (State.fnEdge_keep.weaken (by decide)) fun _ _ => State.setPortState_keep.weaken (by decide)
  split
  · exact Keep.step State.movePaired_keep (by decide) ports
  · exact ports

theorem State.loseFn_eq : s.loseFn f st =
    if (s.fnSt f).link = .down then s
    else if (s.fnSt f).link ≠ .up then (s.setFn f { s.fnSt f with link := st }).fnEdge f
    else (s.setFn f { s.fnSt f with link := st, aspmL1 := false }).afterLoss f := rfl

theorem State.loseFn_link_of_up (up : (s.fnSt f).link = .up) : ((s.loseFn f st).fnSt f).link = st := by
  rw [State.loseFn_eq, if_neg (by rw [up]; decide), if_neg (not_not_intro up), (State.afterLoss_keep.fnLink (by decide) f).1,
    State.fnSt_setFn]

/-- No lost link of a function is up. -/
theorem State.loseFn_link_ne (down : st ≠ .up) : ((s.loseFn f st).fnSt f).link ≠ .up := by
  by_cases up : (s.fnSt f).link = .up
  · rw [State.loseFn_link_of_up up]
    exact down
  · rw [State.loseFn_eq, if_pos up]
    split
    · exact up
    · rw [(State.fnEdge_keep.fnLink (by decide) f).1, State.fnSt_setFn]
      exact down

theorem State.loseFn_link_other (other : g ≠ f) : ((s.loseFn f st).fnSt g).link = (s.fnSt g).link := by
  rw [State.loseFn_eq]
  split
  · rfl
  · split
    · rw [(State.fnEdge_keep.fnLink (by decide) g).1, State.fnSt_setFn_ne other]
    · rw [(State.afterLoss_keep.fnLink (by decide) g).1, State.fnSt_setFn_ne other]

/-- A port's reset takes both its functions' links and enables (02 R54). -/
theorem State.resetPort_leaves (c : CoreId) : (s.resetPort p).fnUp ⟨p, c⟩ = false ∧ ((s.resetPort p).fnSt ⟨p, c⟩).bme = false ∧
    ((s.resetPort p).fnSt ⟨p, c⟩).pasidEn = false ∧ ((s.resetPort p).fnSt ⟨p, c⟩).msixEn = false := by
  have ab : (⟨p, .a⟩ : FnId) ≠ ⟨p, .b⟩ := nofun
  have ba : (⟨p, .b⟩ : FnId) ≠ ⟨p, .a⟩ := nofun
  unfold State.resetPort
  dsimp only
  cases c
  · have lost : (((s.loseFn ⟨p, .a⟩ .hotReset).loseFn ⟨p, .b⟩ .hotReset).fnSt ⟨p, .a⟩).link ≠ .up := by
      rw [State.loseFn_link_other ab]
      exact State.loseFn_link_ne nofun
    rw [State.clearEnables, State.clearEnables, State.fnSt_setFn_ne ab, State.fnSt_setFn]
    refine ⟨State.fnUp_of_link ?_, rfl, rfl, rfl⟩
    rw [State.fnSt_setFn_ne ab, State.fnSt_setFn]
    exact lost
  · have lost : (((s.loseFn ⟨p, .a⟩ .hotReset).loseFn ⟨p, .b⟩ .hotReset).fnSt ⟨p, .b⟩).link ≠ .up := State.loseFn_link_ne nofun
    rw [State.clearEnables, State.clearEnables, State.fnSt_setFn, State.fnSt_setFn_ne ba]
    refine ⟨State.fnUp_of_link ?_, rfl, rfl, rfl⟩
    rw [State.fnSt_setFn]
    exact lost

/-- A link that comes up takes its enables and control values from configuration space (16 R395). -/
theorem State.fnComes_regs (powered : s.mode.mode ≠ .unpowered) (held : (s.coreSt f.core).heldReset = false)
    (started : 9 ≤ s.startStep.getD 9) :
    ((s.fnComes f en k l).fnSt f).regs = ((s.fnSt f).configured en k l).regs := by
  have comes : ¬(s.mode.mode = .unpowered ∨ (s.coreSt f.core).heldReset = true ∨ decide (s.startStep.getD 9 < 9) = true) := by
    rw [held, decide_eq_true_iff]
    exact fun h => h.elim powered fun h => h.elim nofun (not_lt.mpr started)
  rw [State.fnComes, if_neg comes]
  dsimp only
  generalize before : (if ((allIslets.foldl (fun s i => s.pathBack f i) s).fnSt f).link = .up then
      allIslets.foldl (fun s i => s.pathBack f i) s else (allIslets.foldl (fun s i => s.pathBack f i) s).fnEdge f) = u
  have same : (u.fnSt f).regs = (s.fnSt f).regs := by
    have paths : Keep (2 ^ 1) s (allIslets.foldl (fun s i => s.pathBack f i) s) := by
      generalize allIslets = l
      exact Keep.foldl Keep.rfl' fun _ _ => State.pathBack_keep.weaken (by decide)
    rw [← before]
    split
    · exact paths.fnRegs (by decide) f
    · exact (Keep.step State.fnEdge_keep (by decide) paths).fnRegs (by decide) f
  rw [State.reModeFn_keep.fnRegs (by decide), State.settleDomain_keep.fnRegs (by decide), State.releaseMsix_regs]
  have ports : Keep (2 ^ 1) (u.setFn f ((u.fnSt f).configured en k l))
      ((trunkPorts (hostTrunk f.port)).foldl (fun s o => s.setPortState f.core o .up) (u.setFn f ((u.fnSt f).configured en k l))) :=
    Keep.foldl Keep.rfl' fun _ _ => State.setPortState_keep.weaken (by decide)
  have configured : ((u.setFn f ((u.fnSt f).configured en k l)).fnSt f).regs = ((s.fnSt f).configured en k l).regs := by
    rw [State.fnSt_setFn]
    have := congrArg (fun x : FnSt => (x.configured en k l).regs) same
    exact this
  rw [← configured, ← ports.fnRegs (by decide) f]
  split
  · rw [State.pump_keep.fnRegs (by decide), State.wakeCommands_keep.fnRegs (by decide)]
  · rfl

end links

/-! ### The clauses -/

section clauses
variable {s : State} {f : FnId} {p : PortId} {v : W32} {n : Fin 64}

theorem yields_managerControlWrite (up : s.fnUp f = true) : Yields (.managerControlWrite f v) s fun t =>
    (t.portSt f.port).leaseMs = BitVec.ofNat 16 v.toNat ∧
    (if s.mayUnitWide f.port && (v.getLsbD 24 == s.host.wiring || !s.anyIslet) then
      t.host.unitIndex = BitVec.ofNat 4 (v.toNat / 2 ^ 28) ∧ t.host.wiring = v.getLsbD 24
    else t.host.unitIndex = s.host.unitIndex ∧ t.host.wiring = s.host.wiring ∧
      ((t.portSt f.port).wiringRefused = true ∨
        (BitVec.ofNat 4 (v.toNat / 2 ^ 28) = s.host.unitIndex ∧ v.getLsbD 24 = s.host.wiring))) := by
  refine ⟨_, congrArg Host.Outcome.next (if_pos up), ?_⟩
  rw [State.writeManagerControl_eq, unitIndex_bits]
  by_cases same : BitVec.ofNat 4 (v.toNat / 2 ^ 28) = s.host.unitIndex ∧ v.getLsbD 24 = s.host.wiring
  · obtain ⟨index, wiring⟩ := State.hostWiring_setPort (s := s) (p := f.port) (x := s.controlled f.port v)
    rw [if_pos same, State.portSt_setPort, index, wiring]
    refine ⟨rfl, ?_⟩
    split
    · exact ⟨same.1.symm, same.2.symm⟩
    · exact ⟨rfl, rfl, Or.inr same⟩
  · rw [if_neg same]
    split
    · obtain ⟨index, wiring, -⟩ := (State.reMode_keep (s := ((s.setPort f.port (s.controlled f.port v)).setHost
        { (s.setPort f.port (s.controlled f.port v)).host with
          unitIndex := BitVec.ofNat 4 (v.toNat / 2 ^ 28), wiring := v.getLsbD 24 }).storeUpdate
          fun k => { k with unitIndex := BitVec.ofNat 4 (v.toNat / 2 ^ 28), wiring := v.getLsbD 24 })).managers (by decide)
      refine ⟨?_, index, wiring⟩
      rw [State.reMode_keep.portSt (by decide), State.storeUpdate_keep.portSt (by decide)]
      exact congrArg PortSt.leaseMs (State.portSt_setPort s f.port (s.controlled f.port v))
    · rw [State.portSt_setPort]
      refine ⟨rfl, ?_, ?_, Or.inl rfl⟩
      · exact State.hostWiring_setPort.1.trans State.hostWiring_setPort.1
      · exact State.hostWiring_setPort.2.trans State.hostWiring_setPort.2

theorem yields_leaseExpiry {ut e : Nat} (lease : (s.portSt p).leaseEnd = some e) (due : e ≤ ut) :
    Yields (.leaseExpiry p ut) s fun t => (t.portSt p).leaseEnd = none ∧ t.isl = s.isl ∧ t.wq = s.wq ∧
      ∀ n, t.sem n = if (s.sem n).holder = some p then { holder := none, broken := true } else s.sem n := by
  refine ⟨_, rfl, ?_⟩
  have now : e ≤ (s.arrive ut).now := by
    rw [State.arrive_now]
    exact due.trans (le_max_right _ _)
  rw [State.expireLease, State.arrive_portSt, lease]
  dsimp only
  rw [if_pos now]
  generalize cleared : (s.arrive ut).setPort p { s.portSt p with leaseEnd := none } = u
  have kept : Keep 1000 (s.arrive ut) u := by
    rw [← cleared]
    exact State.setPort_keep.weaken (by decide)
  have wide : Keep 992 (s.arrive ut) (u.releaseSems p).reMode :=
    Keep.step State.reMode_keep (by decide) (Keep.step State.releaseSems_keep (by decide) (kept.weaken (by decide)))
  refine ⟨?_, ?_, ?_, fun n => ?_⟩
  · rw [State.reMode_keep.portSt (by decide), State.releaseSems_keep.portSt (by decide), ← cleared, State.portSt_setPort]
  · exact (wide.isl (by decide)).trans (State.arrive_isl s ut)
  · exact (wide.wq_eq (by decide) (by decide) (by decide) (by decide)).trans (State.arrive_wq s ut)
  · rw [State.reMode_keep.sem (by decide), State.sem_releaseSems, kept.sem (by decide)]
    exact congrArg (fun h : HostSt => freeHeld p (tget h.sems n SemSt.init)) (State.arrive_host s ut)

theorem yields_semAcquireRead {tie : Bool} (up : s.fnUp f = true) {P : State → Prop}
    (holds : P ((s.readSem f.port n.val tie).2.sendHost (.completion f (leBytes 4 (s.readSem f.port n.val tie).1)))) :
    Yields (.semAcquireRead f n tie) s P :=
  ⟨_, congrArg Host.Outcome.next (if_pos up), holds⟩

end clauses
end Sys2Proof.Machine

/-! PROOFS. The clauses of the managers and functions, assembled. -/

namespace Sys2Proof.Machine

section clauses
variable {s : State} {f : FnId} {p : PortId} {n : Fin 64} {tie : Bool}

theorem yields_semAcquireRead_free (up : s.fnUp f = true) (found : s.flt.refereeLost = false) (free : (s.sem n.val).holder = none) :
    Yields (.semAcquireRead f n false) s fun t => t.sem n.val = { holder := some f.port, broken := false } ∧
      t.host.tx = s.host.tx ++ [.completion f (leBytes 4 (2 ^ 31 + (if (s.sem n.val).broken then 2 ^ 30 else 0) +
        (match f.port with | .h0 => 2 ^ 24 | .h1 => 2 ^ 25)))] := by
  refine yields_semAcquireRead up ?_
  rw [State.readSem_free found free]
  dsimp only
  refine ⟨(State.sem_setSem s n.val { holder := some f.port, broken := false } :), ?_⟩
  have word : semWord true (s.sem n.val).broken false (some f.port) = 2 ^ 31 + (if (s.sem n.val).broken then 2 ^ 30 else 0) +
      (match f.port with | .h0 => 2 ^ 24 | .h1 => 2 ^ 25) := by
    cases (s.sem n.val).broken <;> cases f.port <;> rfl
  rw [word]
  rfl

theorem yields_semAcquireRead_lost (up : s.fnUp f = true) (lost : s.flt.refereeLost = true) :
    Yields (.semAcquireRead f n tie) s fun t => t.host.sems = s.host.sems ∧
      t.host.tx = s.host.tx ++ [.completion f (leBytes 4 (2 ^ 29))] := by
  refine yields_semAcquireRead up ?_
  rw [State.readSem_lost lost]
  exact ⟨rfl, rfl⟩

theorem yields_semRelease (up : s.fnUp f = true) (found : s.flt.refereeLost = false)
    (mine : (s.sem n.val).holder = some f.port) : Yields (.semRelease f n) s fun t => (t.sem n.val).holder = none := by
  refine ⟨_, congrArg Host.Outcome.next (if_pos up), ?_⟩
  rw [State.releaseSem, found, mine, if_pos (by simp)]
  dsimp only
  rw [State.sem_setSem]
  rfl

/-- What the managers' commands leave (02 R32 to R36). -/
theorem managerCommands_leave :
    (∀ (f : FnId) (v : W32) (s : State), s.fnUp f = true → Yields (.managerControlWrite f v) s fun t =>
      (t.portSt f.port).leaseMs = BitVec.ofNat 16 v.toNat ∧
      (if s.mayUnitWide f.port && (v.getLsbD 24 == s.host.wiring || !s.anyIslet) then
        t.host.unitIndex = BitVec.ofNat 4 (v.toNat / 2 ^ 28) ∧ t.host.wiring = v.getLsbD 24
      else t.host.unitIndex = s.host.unitIndex ∧ t.host.wiring = s.host.wiring ∧
        ((t.portSt f.port).wiringRefused = true ∨
          (BitVec.ofNat 4 (v.toNat / 2 ^ 28) = s.host.unitIndex ∧ v.getLsbD 24 = s.host.wiring)))) ∧
    (∀ (f : FnId) (s : State), s.fnUp f = true → Yields (.managerLeaseRenew f) s fun t =>
      (t.portSt f.port).leaseEnd = some (s.now + clampNat 100 10000 (s.portSt f.port).leaseMs.toNat * ms) ∧
        t.host.sems = s.host.sems ∧ t.isl = s.isl) ∧
    (∀ (p : PortId) (ut e : Nat) (s : State), (s.portSt p).leaseEnd = some e → e ≤ ut → Yields (.leaseExpiry p ut) s fun t =>
      (t.portSt p).leaseEnd = none ∧ t.isl = s.isl ∧ t.wq = s.wq ∧
      ∀ n, t.sem n = if (s.sem n).holder = some p then { holder := none, broken := true } else s.sem n) ∧
    (∀ (f : FnId) (n : Fin 64) (s : State), s.fnUp f = true → s.flt.refereeLost = false → (s.sem n.val).holder = none →
      Yields (.semAcquireRead f n false) s fun t => t.sem n.val = { holder := some f.port, broken := false } ∧
        t.host.tx = s.host.tx ++ [.completion f (leBytes 4 (2 ^ 31 + (if (s.sem n.val).broken then 2 ^ 30 else 0) +
          (match f.port with | .h0 => 2 ^ 24 | .h1 => 2 ^ 25)))]) ∧
    (∀ (f : FnId) (n : Fin 64) (s : State), s.fnUp f = true → s.flt.refereeLost = false → (s.sem n.val).holder = none →
      Yields (.semAcquireRead f n true) s fun t => (t.sem n.val).holder = some s.host.tieNext ∧
        t.host.tieNext = s.host.tieNext.other) ∧
    (∀ (f : FnId) (n : Fin 64) (s : State), s.fnUp f = true → s.flt.refereeLost = true → ∀ tie : Bool,
      Yields (.semAcquireRead f n tie) s fun t => t.host.sems = s.host.sems ∧
        t.host.tx = s.host.tx ++ [.completion f (leBytes 4 (2 ^ 29))]) ∧
    (∀ (f : FnId) (n : Fin 64) (s : State), s.fnUp f = true → s.flt.refereeLost = false →
      (s.sem n.val).holder = some f.port → Yields (.semRelease f n) s fun t => (t.sem n.val).holder = none) := by
  refine ⟨fun f v s up => yields_managerControlWrite up, fun f s up => ?_, fun p ut e s lease due => yields_leaseExpiry lease due,
    fun f n s up found free => yields_semAcquireRead_free up found free, fun f n s up found free => ?_,
    fun f n s up lost tie => yields_semAcquireRead_lost up lost, fun f n s up found mine => yields_semRelease up found mine⟩
  · refine ⟨_, congrArg Host.Outcome.next (if_pos up), ?_, ?_, ?_⟩
    · rw [State.renewLease, State.reMode_keep.portSt (by decide), State.portSt_setPort]
      rfl
    · exact ((Keep.step State.reMode_keep (K := 8) (by decide) (State.setPort_keep.weaken (by decide))).managers (by decide)).2.2.1
    · exact (Keep.step State.reMode_keep (K := 32) (by decide) (State.setPort_keep.weaken (by decide))).isl (by decide)
  · obtain ⟨holder, next⟩ := State.readSem_tie (p := f.port) found free
    exact yields_semAcquireRead up ⟨holder, next⟩

theorem State.setFn_releaseMsix_regs {v : FnSt} : (((s.setFn f v).releaseMsix f).fnSt f).regs = v.regs := by
  rw [State.releaseMsix_regs, State.fnSt_setFn]

theorem yields_msixEnable {v : Fin 2048} : Yields (.msixVectorUnmasked f true v) s fun t =>
    (t.fnSt f).msixEn = true ∧ (t.fnSt f).unmasked = (s.fnSt f).unmasked := by
  have regs := State.setFn_releaseMsix_regs (s := s) (f := f) (v := { s.fnSt f with msixEn := true })
  have unmasked := congrArg FnSt.unmasked regs
  exact ⟨_, rfl, congrArg FnSt.msixEn regs, unmasked⟩

theorem yields_msixUnmask {v : Fin 2048} : Yields (.msixVectorUnmasked f false v) s fun t =>
    tget (t.fnSt f).unmasked v.val false = true ∧
      ∀ n, n ≠ v.val → tget (t.fnSt f).unmasked n false = tget (s.fnSt f).unmasked n false := by
  have regs := State.setFn_releaseMsix_regs (s := s) (f := f)
    (v := { s.fnSt f with unmasked := tset (s.fnSt f).unmasked v.val true false })
  have unmasked : (((s.setFn f { s.fnSt f with unmasked := tset (s.fnSt f).unmasked v.val true false }).releaseMsix f).fnSt f).unmasked =
      tset (s.fnSt f).unmasked v.val true false := congrArg FnSt.unmasked regs
  refine ⟨_, rfl, ?_, fun n other => ?_⟩
  · exact (congrArg (tget · v.val false) unmasked).trans (tget_tset_same _ _ _ _)
  · exact (congrArg (tget · n false) unmasked).trans (tget_tset_ne _ _ _ _ other)

end clauses

/-- What the host links' commands leave (02 R41, R42, R54, R408; 16 R395; 17 R401). -/
theorem functionCommands_leave :
    (∀ (f : FnId) (s : State), Yields (.busMasterEnableSet f) s fun t => (t.fnSt f).bme = true ∧
      ∀ p k, (s.cmdSt p k).phase = .waitBme → (s.cmdSt p k).fn = f → (t.cmdSt p k).phase = .waitRead) ∧
    (∀ (f : FnId) (s : State), Yields (.busMasterEnableCleared f) s fun t => t.fnSt f = { s.fnSt f with bme := false } ∧
      ∀ g, g ≠ f → t.fnSt g = s.fnSt g) ∧
    (∀ (f : FnId) (s : State), Yields (.pasidEnableCleared f) s fun t => t.fnSt f = { s.fnSt f with pasidEn := false } ∧
      ∀ g, g ≠ f → t.fnSt g = s.fnSt g) ∧
    (∀ (f : FnId) (s : State), Yields (.pasidEnableSet f) s fun t => (t.fnSt f).pasidEn = true ∧ ∀ g, g ≠ f → t.fnSt g = s.fnSt g) ∧
    (∀ (f : FnId) (v : Fin 2048) (s : State),
      (Yields (.msixVectorUnmasked f true v) s fun t => (t.fnSt f).msixEn = true ∧ (t.fnSt f).unmasked = (s.fnSt f).unmasked) ∧
      (Yields (.msixVectorUnmasked f false v) s fun t => tget (t.fnSt f).unmasked v.val false = true ∧
        ∀ n, n ≠ v.val → tget (t.fnSt f).unmasked n false = tget (s.fnSt f).unmasked n false)) ∧
    (∀ (f : FnId) (s : State), (s.fnSt f).link = .up → Yields (.aspmL1Entry f) s fun t =>
      (t.fnSt f).aspmL1 = true ∧ (t.fnSt f).link = .up) ∧
    (∀ (f : FnId) (why : LinkLoss) (s : State), (s.fnSt f).link = .up → Yields (.hostLinkDown f why) s fun t =>
      (t.fnSt f).link = (match why with | .linkDown => .down | .d3hot => .d3hot | .hotReset => .hotReset) ∧ t.fnUp f = false ∧
      ∀ g, g ≠ f → (t.fnSt g).link = (s.fnSt g).link) := by
  refine ⟨fun f s => ⟨_, rfl, ?_, fun p k waits mine => ?_⟩, fun f s => ⟨_, rfl, ?_, fun g other => ?_⟩,
    fun f s => ⟨_, rfl, ?_, fun g other => ?_⟩, fun f s => ⟨_, rfl, ?_, fun g other => ?_⟩,
    fun f v s => ⟨?_, ?_⟩, fun f s up => ⟨_, congrArg Host.Outcome.next (if_pos up), ?_⟩,
    fun f why s up => ⟨_, rfl, ?_, ?_, fun g other => State.loseFn_link_other other⟩⟩
  · rw [State.bmeOn, (State.releaseMsix_keep.fnLink (by decide) f).2, (State.pump_keep.fnLink (by decide) f).2,
      (State.wakeCommands_keep.fnLink (by decide) f).2, State.fnSt_setFn]
  · have same : (s.setFn f { s.fnSt f with bme := true }).cmdSt p k = s.cmdSt p k := by
      obtain ⟨q, c⟩ := f
      cases q <;> cases c <;> rfl
    rw [State.bmeOn, State.releaseMsix_keep.cmdSt (by decide), State.pump_keep.cmdSt (by decide), State.cmdSt_wakeCommands, same,
      CmdSt.woken, if_pos ⟨waits, mine⟩]
  · exact State.fnSt_setFn _ _ _
  · exact State.fnSt_setFn_ne other
  · exact State.fnSt_setFn _ _ _
  · exact State.fnSt_setFn_ne other
  · refine (congrArg FnSt.pasidEn State.releaseMsix_regs).trans ?_
    rw [State.fnSt_setFn]
  · rw [State.releaseMsix_fnSt other, State.fnSt_setFn_ne other]
  · exact yields_msixEnable
  · exact yields_msixUnmask
  · have same := (State.settleDomain_keep (s := s.setFn f { s.fnSt f with aspmL1 := true }) (c := f.core)
      (d := if f.port = .h0 then 24 else 25)).fnRegs (by decide) f
    rw [State.fnSt_setFn] at same
    exact ⟨congrArg FnSt.aspmL1 same, (congrArg FnSt.link same).trans up⟩
  · cases why <;> exact State.loseFn_link_of_up up
  · refine State.fnUp_of_link (State.loseFn_link_ne ?_)
    cases why <;> exact nofun

/-- What a link that comes up, the return of a paired islet's traffic and a port's reset leave. -/
theorem linkCommands_leave :
    (∀ (f : FnId) (en : PcieEnables) (ctl : PcieControl) (link : PcieLink) (s : State), s.mode.mode ≠ .unpowered →
      (s.coreSt f.core).heldReset = false → 9 ≤ s.startStep.getD 9 → Yields (.hostLinkUp f en ctl link) s fun t =>
        (t.fnSt f).link = .up ∧ (t.fnSt f).bme = en.bme ∧ (t.fnSt f).pasidEn = en.pasidEn ∧ (t.fnSt f).msixEn = en.msixEn ∧
        (t.fnSt f).maxPay = 128 * 2 ^ ctl.payload.val ∧ (t.fnSt f).maxRead = 128 * 2 ^ ctl.readReq.val ∧
        (t.fnSt f).timeout = ctl.timeoutMs * ms ∧ (t.fnSt f).gen = link.gen.val + 1 ∧ (t.fnSt f).width = 8 / 2 ^ link.width.val ∧
        (t.fnSt f).ecrc = ctl.ecrc ∧ (t.fnSt f).table = (s.fnSt f).table) ∧
    (∀ (i : IsletNo) (c : CoreId) (s : State), (s.islet i).st ≠ .free → (s.islet i).viaOther c = true →
      s.canRequest { port := (s.islet i).home, core := c } = true → Yields (.pairedTrafficReturn i c) s fun t =>
        (t.islet i).fnFor c = { port := (s.islet i).home, core := c } ∧ ∀ j, j ≠ i → t.islet j = s.islet j) ∧
    (∀ (p : PortId) (s : State), Yields (.perstAsserted p) s fun t => ∀ c : CoreId,
      t.fnUp ⟨p, c⟩ = false ∧ (t.fnSt ⟨p, c⟩).bme = false ∧ (t.fnSt ⟨p, c⟩).pasidEn = false ∧ (t.fnSt ⟨p, c⟩).msixEn = false) := by
  refine ⟨fun f en ctl link s powered held started => ⟨_, rfl, ?_⟩, fun i c s bound via can => ⟨_, rfl, ?_⟩,
    fun p s => ⟨_, rfl, fun c => State.resetPort_leaves c⟩⟩
  · have regs := State.fnComes_regs (en := en) (k := ctl) (l := link) powered held started
    have table := congrArg FnSt.table regs
    exact ⟨congrArg FnSt.link regs, congrArg FnSt.bme regs, congrArg FnSt.pasidEn regs, congrArg FnSt.msixEn regs,
      congrArg FnSt.maxPay regs, congrArg FnSt.maxRead regs, congrArg FnSt.timeout regs, congrArg FnSt.gen regs,
      congrArg FnSt.width regs, congrArg FnSt.ecrc regs, table⟩
  · rw [State.pairedReturn, if_pos (by simp [bound, via, can])]
    refine ⟨?_, fun j other => State.islet_setIslet_ne other⟩
    rw [State.islet_setIslet]
    cases c <;> rfl

/-- Settles O8. Each command changes the registers that it names by one write; what follows it (the mode, the domains, the
messages that go out) keeps the parts of the state that hold them. -/
theorem managersAndFunctions : Obligations.ManagersAndFunctions := by
  unfold Obligations.ManagersAndFunctions
  obtain ⟨bmeSet, bmeCleared, pasidCleared, pasidSet, vectors, aspm, down⟩ := functionCommands_leave
  obtain ⟨up, returns, reset⟩ := linkCommands_leave
  exact ⟨managerCommands_leave, bmeSet, bmeCleared, pasidCleared, pasidSet, vectors, aspm, down, up, returns, reset⟩

end Sys2Proof.Machine

/-! PROOFS. A link is lost (07 R196, R200, R209 to R211), and `SEAT_LINK_CONTROL`. -/

namespace Sys2Proof.Machine

/-! ### A flush of a seat (R210) -/

section flush
variable {s t : State} {x : Seat} {l : SeatLink} {K : Nat} {cause : Nat} {atOnce : Bool}

theorem Keep.linkState (h : Keep K s t) (links : K.testBit 20 = true) (times : K.testBit 21 = true) (x : Seat) :
    t.linkState x = s.linkState x := by
  rw [State.linkState, State.linkState, h.link_ links, h.seatTime times]

theorem Keep.targetOnly (h : Keep K s t) (times : K.testBit 21 = true) (x : Seat) : t.targetOnly x = s.targetOnly x := by
  rw [State.targetOnly, State.targetOnly, h.seatTime times]

/-- An operation that leaves the seat's link and its rate change as they were has no follow-up. -/
theorem State.linkDone_of_keep (h : Keep K s t) (links : K.testBit 20 = true) (times : K.testBit 21 = true) :
    s.linkDone x t = t := by
  rw [State.linkDone, h.linkState links times, h.link_ links]
  simp

/-- The link of a seat whose state is flushed. -/
def SeatLink.flushed (l : SeatLink) : SeatLink :=
  { l with svcEpoch := 0, svcDock := 0, holdStart := none, holdLen := 0, moved := false }

theorem State.link_flush_end {u : State} (h : Keep (2 ^ 20) s u) :
    ((((u.setLink_ x { u.link_ x with svcEpoch := 0, svcDock := 0 }).endHold x).bumpSeat x 16 1).link_ x) = (s.link_ x).flushed := by
  rw [State.bumpSeat_keep.link_ (by decide), State.link_endHold, State.link__setLink_, h.link_ (by decide)]
  rfl

theorem State.link_flushSeat : (s.flushSeat x).link_ x = (s.link_ x).flushed := by
  unfold State.flushSeat
  dsimp only
  refine State.link_flush_end ?_
  refine Keep.step State.setWfq_keep (by decide) ?_
  refine Keep.step State.discardQueued_keep (by decide) ?_
  refine Keep.foldl ?_ fun _ _ => State.clearTunnel_keep.weaken (by decide)
  refine Keep.step State.settleGroups_keep (by decide) ?_
  refine Keep.foldl ?_ fun _ _ => Keep.step State.detachHead_keep (by decide) (State.dropConfig_keep.weaken (by decide))
  refine Keep.step State.flushPorts_keep (by decide) ?_
  refine Keep.step State.setUsbSeat_keep (by decide) ?_
  exact Keep.step State.closeAtOnce_keep (by decide) (State.endNet_keep.weaken (by decide))

/-- A flushed seat holds no profile. -/
theorem State.profile_flushSeat : ((s.flushSeat x).usbSeat x).profile = none ∧ ((s.flushSeat x).usbSeat x).profileSeen = false := by
  unfold State.flushSeat
  dsimp only
  rw [State.bumpSeat_keep.usbSeat (by decide), State.endHold_keep.usbSeat (by decide), State.setLink__keep.usbSeat (by decide),
    State.setWfq_keep.usbSeat (by decide), State.discardQueued_keep.usbSeat (by decide),
    Keep.usbSeat (K := 2 ^ 15) (Keep.foldl Keep.rfl' fun _ _ => State.clearTunnel_keep.weaken (by decide)) (by decide),
    State.settleGroups_keep.usbSeat (by decide),
    Keep.usbSeat (K := 2 ^ 15) (Keep.foldl Keep.rfl' fun _ _ => Keep.step State.detachHead_keep (by decide)
      (State.dropConfig_keep.weaken (by decide))) (by decide), State.flushPorts_keep.usbSeat (by decide), State.usbSeat_setUsbSeat]
  exact ⟨rfl, rfl⟩

end flush

/-! ### A link that goes down (R209) -/

section down
variable {s u : State} {x : Seat} {l : SeatLink} {cause : Nat} {atOnce : Bool}

/-- What a lost link is before it is held or flushed. -/
def SeatLink.lost (l : SeatLink) (cause now : Nat) : SeatLink :=
  { l with
    pcsUp := false, rate := 0, live := false, rehome := false, afterRate := false, authAt := none, downCause := BitVec.ofNat 4 cause,
    energyAt := if cause = 1 then none else some now, paged := l.paged && cause != 1, st := .noPartner }

/-- The loss of a link before it is held or flushed. -/
def State.lose (s : State) (x : Seat) (cause : Nat) : State :=
  let l := s.link_ x
  let now := s.ut (s.servingCore x)
  let s := s.bumpSeat x 14 1
  let t := s.seatTime x
  let s := if t.ratePhase = .waitAck ∨ t.ratePhase = .waitStop then
      s.setSeatTime x { t with ratePhase := .recorded, targetFrom := none, ys := [] }
    else s.setSeatTime x { t with ys := [] }
  (s.setLink_ x (l.lost cause now)).stopTunnels x

/-- The begin of a hold-down, where none runs. -/
def State.beginHold (s : State) (x : Seat) (l : SeatLink) (now : Nat) : State :=
  if l.holdStart.isSome then s
  else (s.setLink_ x { s.link_ x with holdStart := some now, holdLen := s.holdLength x }).setPortState (s.servingCore x) x.val .hold

/-- The hold-down or the flush that follows a loss (R210). -/
def State.holdOrFlush (s : State) (x : Seat) (l : SeatLink) (now : Nat) (atOnce : Bool) : State :=
  if l.svcEpoch = 0 then s
  else if atOnce then s.flushSeat x
  else if ((s.beginHold x l now).link_ x).holdLen = 0 then (s.beginHold x l now).flushSeat x
  else s.beginHold x l now

theorem State.goDown_eq (up : (s.link_ x).pcsUp = true) : s.goDown x cause atOnce =
    let t := (s.lose x cause).holdOrFlush x (s.link_ x) (s.seatUt x) atOnce
    if (s.link_ x).disable then t.setLink_ x { t.link_ x with st := .disabled, offered := 0, pages := [] } else t.negotiate x := by
  rw [State.goDown, up]
  rfl

theorem State.link_lose : (s.lose x cause).link_ x = (s.link_ x).lost cause (s.seatUt x) := by
  unfold State.lose
  dsimp only
  rw [State.stopTunnels_keep.link_ (by decide), State.link__setLink_]
  rfl

/-- A link and the same but for what a hold-down or a flush changes of it. -/
def SeatLink.SameButHeld (l m : SeatLink) : Prop :=
  m = { l with holdStart := m.holdStart, holdLen := m.holdLen, svcEpoch := m.svcEpoch, svcDock := m.svcDock, moved := m.moved }

theorem State.link_holdOrFlush {now : Nat} : (u.link_ x).SameButHeld ((u.holdOrFlush x l now atOnce).link_ x) := by
  have flush (v : State) (h : (u.link_ x).SameButHeld (v.link_ x)) : (u.link_ x).SameButHeld ((v.flushSeat x).link_ x) := by
    rw [State.link_flushSeat]
    unfold SeatLink.SameButHeld at h ⊢
    rw [h]
    rfl
  have begun : (u.link_ x).SameButHeld ((u.beginHold x l now).link_ x) := by
    unfold State.beginHold
    split
    · rfl
    · rw [State.setPortState_keep.link_ (by decide), State.link__setLink_]
      rfl
  unfold State.holdOrFlush
  split
  · rfl
  · split
    · exact flush u rfl
    · split
      · exact flush _ begun
      · exact begun

/-- What every loss leaves of the link. -/
theorem State.link_goDown (up : (s.link_ x).pcsUp = true) :
    ((s.goDown x cause atOnce).link_ x).pcsUp = false ∧ ((s.goDown x cause atOnce).link_ x).downCause = BitVec.ofNat 4 cause ∧
    ((s.goDown x cause atOnce).link_ x).rate = 0 ∧
    ((s.goDown x cause atOnce).link_ x).energyAt = (if cause = 1 then none else some (s.seatUt x)) ∧
    ((s.goDown x cause atOnce).link_ x).disable = (s.link_ x).disable ∧
    ((s.goDown x cause atOnce).link_ x).rateMax = (s.link_ x).rateMax ∧
    ((s.goDown x cause atOnce).link_ x).holdMs = (s.link_ x).holdMs ∧
    ((s.link_ x).disable = true → ((s.goDown x cause atOnce).link_ x).st = .disabled) := by
  have held := State.link_holdOrFlush (u := s.lose x cause) (x := x) (l := s.link_ x) (now := s.seatUt x) (atOnce := atOnce)
  rw [State.link_lose] at held
  rw [State.goDown_eq up]
  dsimp only
  generalize (s.lose x cause).holdOrFlush x (s.link_ x) (s.seatUt x) atOnce = v at held
  unfold SeatLink.SameButHeld at held
  split
  next disabled =>
    rw [State.link__setLink_, held]
    exact ⟨rfl, rfl, rfl, rfl, rfl, rfl, rfl, fun _ => rfl⟩
  next enabled =>
    rw [State.link_negotiate, held]
    exact ⟨rfl, rfl, rfl, rfl, rfl, rfl, rfl, fun h => absurd h enabled⟩

theorem State.holdLength_lose (written : (s.link_ x).holdMs ≠ 0) : (s.lose x cause).holdLength x ≠ 0 := by
  have ms_ne : ms ≠ 0 := by decide
  unfold State.holdLength
  split
  · exact Nat.mul_ne_zero (by decide) ms_ne
  · rw [State.link_lose]
    refine Nat.mul_ne_zero (fun none => written ?_) ms_ne
    rw [← BitVec.toNat_inj]
    simpa [SeatLink.lost, Nat.min_eq_zero_iff] using none

/-- A link of a seat that was in service is held where its hold-down is not 0 (R210). -/
theorem State.link_goDown_held (up : (s.link_ x).pcsUp = true) (served : (s.link_ x).svcEpoch ≠ 0)
    (begins : (s.link_ x).holdStart = none) (written : (s.link_ x).holdMs ≠ 0) :
    ((s.goDown x cause false).link_ x).holdStart = some (s.seatUt x) ∧
      ((s.goDown x cause false).link_ x).svcEpoch = (s.link_ x).svcEpoch := by
  have begun : ((s.lose x cause).beginHold x (s.link_ x) (s.seatUt x)).link_ x = { (s.link_ x).lost cause (s.seatUt x) with
      holdStart := some (s.seatUt x), holdLen := (s.lose x cause).holdLength x } := by
    rw [State.beginHold, begins, if_neg (by decide), State.setPortState_keep.link_ (by decide), State.link__setLink_,
      State.link_lose]
  have held : (s.lose x cause).holdOrFlush x (s.link_ x) (s.seatUt x) false =
      (s.lose x cause).beginHold x (s.link_ x) (s.seatUt x) := by
    rw [State.holdOrFlush, if_neg served, if_neg (by decide), begun, if_neg (State.holdLength_lose written)]
  rw [State.goDown_eq up, held]
  dsimp only
  split
  · rw [State.link__setLink_, begun]
    exact ⟨rfl, rfl⟩
  · rw [State.link_negotiate, begun]
    exact ⟨rfl, rfl⟩

/-- A seat that was not in service begins no hold-down. -/
theorem State.holdStart_goDown_unserved (up : (s.link_ x).pcsUp = true) (unserved : (s.link_ x).svcEpoch = 0) :
    ((s.goDown x cause atOnce).link_ x).holdStart = (s.link_ x).holdStart := by
  rw [State.goDown_eq up, State.holdOrFlush, if_pos unserved]
  dsimp only
  split
  · rw [State.link__setLink_, State.link_lose]
    rfl
  · rw [State.link_negotiate, State.link_lose]
    rfl

end down

/-! ### `SEAT_LINK_CONTROL` -/

section control
variable {s u : State} {x : Seat} {v : W64}

theorem State.link_holdWritten : (s.link_ x).SameButHeld ((s.holdWritten x).link_ x) := by
  unfold State.holdWritten
  dsimp only
  split
  · split
    · rfl
    · split
      · rw [State.link_flushSeat, State.link__setLink_]
        rfl
      · rw [State.link__setLink_]
        rfl
  · rfl

theorem State.link_writeTarget_zero : (s.writeTarget x 0).link_ x = { s.link_ x with rateTarget := 0, dropped := 0 } := by
  unfold State.writeTarget
  dsimp only
  rw [if_pos (Or.inl rfl), State.link__setLink_]
  rfl

/-- A seat that is disabled (R200). -/
theorem State.link_disableSeat : ((s.disableSeat x).link_ x).disable = true ∧
    ((s.disableSeat x).link_ x).rateMax = (s.link_ x).rateMax ∧ ((s.disableSeat x).link_ x).holdMs = (s.link_ x).holdMs ∧
    ((s.disableSeat x).link_ x).st = .disabled ∧ ((s.disableSeat x).link_ x).pcsUp = false := by
  have begun := State.link__setLink_ s x { s.link_ x with disable := true }
  unfold State.disableSeat
  dsimp only
  generalize s.setLink_ x { s.link_ x with disable := true } = u at begun
  split
  next up =>
    obtain ⟨down, -, -, -, disable, rateMax, holdMs, st⟩ := State.link_goDown (cause := 7) (atOnce := true) up
    rw [begun] at disable rateMax holdMs st
    exact ⟨disable, rateMax, holdMs, st rfl, down⟩
  next down =>
    have same : (u.link_ x).SameButHeld ((if (u.link_ x).holdStart.isSome then u.flushSeat x else u).link_ x) := by
      split
      · rw [State.link_flushSeat]
        rfl
      · rfl
    rw [State.link__setLink_, same, begun]
    rw [begun] at down
    exact ⟨rfl, rfl, rfl, rfl, eq_false_of_ne_true down⟩

theorem State.link_enableSeat {seen : Bool} : ((s.enableSeat x seen).link_ x).disable = false ∧
    ((s.enableSeat x seen).link_ x).rateMax = (s.link_ x).rateMax ∧ ((s.enableSeat x seen).link_ x).holdMs = (s.link_ x).holdMs := by
  unfold State.enableSeat
  dsimp only
  rw [State.powerUnforeign_keep.link_ (by decide), State.link_negotiate, State.link__setLink_]
  exact ⟨rfl, rfl, rfl⟩

theorem State.link_writeLinkControl (noTarget : bits v.toNat 19 16 = 0) :
    ((s.writeLinkControl x v).link_ x).disable = v.getLsbD 31 ∧
    ((s.writeLinkControl x v).link_ x).rateMax = BitVec.ofNat 4 (bits v.toNat 27 24) ∧
    ((s.writeLinkControl x v).link_ x).holdMs = BitVec.ofNat 13 (bits v.toNat 12 0) ∧
    (v.getLsbD 31 = true → (s.link_ x).disable = false →
      ((s.writeLinkControl x v).link_ x).st = .disabled ∧ ((s.writeLinkControl x v).link_ x).pcsUp = false) := by
  have bit31 : bit v.toNat 31 = v.getLsbD 31 := by
    simp [bit, BitVec.getLsbD]
  unfold State.writeLinkControl
  dsimp only
  rw [noTarget, State.link_writeTarget_zero, bit31]
  have held := State.link_holdWritten (x := x) (s := (s.setLink_ x { s.link_ x with
    rateMax := BitVec.ofNat 4 (bits v.toNat 27 24), holdMs := BitVec.ofNat 13 (bits v.toNat 12 0), dropped := 0 }).storeUpdate
      fun t => { t with linkCtl := tset t.linkCtl x.val (v &&& 0x0F001FFF) 0x040000FA })
  rw [State.storeUpdate_keep.link_ (by decide), State.link__setLink_] at held
  generalize State.holdWritten _ x = u at held
  unfold SeatLink.SameButHeld at held
  have rateMax : (u.link_ x).rateMax = BitVec.ofNat 4 (bits v.toNat 27 24) := by rw [held]
  have holdMs : (u.link_ x).holdMs = BitVec.ofNat 13 (bits v.toNat 12 0) := by rw [held]
  have disable : (u.link_ x).disable = (s.link_ x).disable := by rw [held]
  cases new : v.getLsbD 31 <;> cases old : (s.link_ x).disable
  · exact ⟨disable.trans old, rateMax, holdMs, nofun⟩
  · obtain ⟨on, rate, hold⟩ := State.link_enableSeat (s := u) (x := x) (seen := false)
    exact ⟨on, rate.trans rateMax, hold.trans holdMs, nofun⟩
  · obtain ⟨off, rate, hold, st, down⟩ := State.link_disableSeat (s := u) (x := x)
    exact ⟨off, rate.trans rateMax, hold.trans holdMs, fun _ _ => ⟨st, down⟩⟩
  · exact ⟨disable.trans old, rateMax, holdMs, fun _ => nofun⟩

end control

/-! ### The clauses -/

section clauses
variable {s u : State} {x : Seat} {ut : Nat}

theorem yields_helloGiveUp (arrived : u = s.arrive ut) (mode : u.mode.mode ≠ .unsupervised) (waits : (u.link_ x).waitsReply = true)
    (passed : (u.link_ x).helloFirst + 1000 * ms ≤ u.ut (u.servingCore x)) : Yields (.helloGiveUp x ut) s fun t =>
      (t.link_ x).pcsUp = false ∧
      (if (u.link_ x).st = .greeting then (t.link_ x).st = .negotiating ∧ (t.link_ x).downCause = (u.link_ x).downCause
       else (t.link_ x).downCause = 1) := by
  subst arrived
  have up : ((s.arrive ut).link_ x).pcsUp = true := by
    rw [SeatLink.waitsReply, Bool.and_eq_true] at waits
    exact waits.1
  refine ⟨_, congrArg Host.Outcome.next (if_neg mode), ?_⟩
  dsimp only
  rw [State.link_linkDone, State.helloGiveUp, if_pos (by rw [waits, decide_eq_true passed]; rfl)]
  split
  · rw [State.link_negotiate, State.link__setLink_]
    exact ⟨rfl, rfl, rfl⟩
  · obtain ⟨down, cause, -⟩ := State.link_goDown (cause := 1) (atOnce := false) up
    exact ⟨down, cause⟩

theorem yields_holdDownExpiry {h : Nat} (arrived : u = s.arrive ut) (held : (u.link_ x).holdStart = some h)
    (passed : h + (u.link_ x).holdLen ≤ u.ut (u.servingCore x)) : Yields (.holdDownExpiry x ut) s fun t =>
      (t.link_ x).holdStart = none ∧ (t.link_ x).svcEpoch = 0 ∧ (t.usbSeat x).profile = none ∧ (t.usbSeat x).profileSeen = false := by
  subst arrived
  refine ⟨_, rfl, ?_⟩
  dsimp only
  rw [State.linkDone_keep.usbSeat (by decide), State.link_linkDone, State.holdExpired, held]
  dsimp only
  rw [if_neg (not_lt.mpr passed)]
  have flushed : (((s.arrive ut).flushSeat x).link_ x).holdStart = none ∧ (((s.arrive ut).flushSeat x).link_ x).svcEpoch = 0 := by
    rw [State.link_flushSeat]
    exact ⟨rfl, rfl⟩
  have profile := State.profile_flushSeat (s := s.arrive ut) (x := x)
  generalize (s.arrive ut).flushSeat x = v at flushed profile
  have ended : ((v.endRate x 3).link_ x).holdStart = none ∧ ((v.endRate x 3).link_ x).svcEpoch = 0 := by
    rw [State.endRate, State.link__setLink_, State.setSeatTime_keep.link_ (by decide)]
    exact flushed
  split
  · split
    · rw [State.endRate_keep.usbSeat (by decide)]
      exact ⟨ended.1, ended.2, profile⟩
    · rw [State.negotiate_keep.usbSeat (by decide), State.endRate_keep.usbSeat (by decide), State.link_negotiate]
      exact ⟨ended.1, ended.2, profile⟩
  · exact ⟨flushed.1, flushed.2, profile⟩

theorem yields_retransmitTimerExpiry {k : Tunnel} {r : ReTimer} (arrived : u = s.arrive ut) (reliable : k.reliable = true)
    (timers : (u.tun x k).timers = [r]) (up : (u.link_ x).pcsUp = true)
    (passed : r.due + r.paused + u.slotTime x (r.due - 30000) (u.ut (u.servingCore x)) ≤ u.ut (u.servingCore x)) :
    Yields (.retransmitTimerExpiry x k ut) s fun t =>
      if 16 ≤ (u.tun x k).expiries + 1 then (t.link_ x).pcsUp = false ∧ (t.link_ x).downCause = 2
      else (t.tun x k).timers = [] ∧ (t.tun x k).expiries = (u.tun x k).expiries + 1 ∧ (t.tun x k).held = (u.tun x k).held ∧
        (t.tun x k).resend = ((u.tun x k).held.filter fun f =>
          decide (sub16 (u.tun x k).peerRecv (u.tun x k).free ≤ sub16 f.seq (u.tun x k).free)).map (·.seq) := by
  subst arrived
  refine ⟨_, rfl, ?_⟩
  dsimp only
  have found : ((s.arrive ut).tun x k).timers.find? ((s.arrive ut).timerOver x) = some r := by
    have overdue : (s.arrive ut).timerOver x r = true := by
      unfold State.timerOver
      exact decide_eq_true passed
    rw [timers, List.find?_singleton, if_pos overdue]
  rw [State.retransmit, found]
  dsimp only
  rw [reliable, up, if_pos (show (true && true) = true from rfl)]
  by_cases last : 16 ≤ ((s.arrive ut).tun x k).expiries + 1
  · rw [if_pos last, if_pos last]
    have still : (((s.arrive ut).bumpSeat x 10 1).link_ x).pcsUp = true := by
      rw [State.bumpSeat_keep.link_ (by decide), up]
    obtain ⟨down, cause, -⟩ := State.link_goDown (cause := 2) (atOnce := false) still
    rw [State.link_linkDone]
    exact ⟨down, cause⟩
  · rw [if_neg last, if_neg last]
    rw [State.linkDone_of_keep (K := 2 ^ 20 + 2 ^ 21) (Keep.step State.setTun_keep (by decide) (State.bumpSeat_keep.weaken (by decide)))
      (by decide) (by decide), State.tun_setTun, timers]
    exact ⟨by simp, rfl, rfl, rfl⟩

end clauses

/-- Settles O20. A loss, a flush and a write of the control register change a link by what `SeatLink.lost`, `SeatLink.flushed` and
`SeatLink.SameButHeld` say, and everything else that follows them leaves the link. A live link's giving up with cause 1 and the
paused retransmit timers are log entries 45 and 44 (DEDUCED). -/
theorem linkLoss : Obligations.LinkLoss := by
  unfold Obligations.LinkLoss
  refine ⟨fun x s up => ⟨⟨_, rfl, ?_⟩, ⟨_, rfl, ?_⟩⟩, fun x ut s u arrived up passed => ?_,
    fun x ut s u arrived mode waits passed => yields_helloGiveUp arrived mode waits passed,
    fun x ut h s u arrived held passed => yields_holdDownExpiry arrived held passed, fun w x v s heard may noTarget => ?_,
    fun x k ut r s u arrived reliable timers up passed => yields_retransmitTimerExpiry arrived reliable timers up passed⟩
  · obtain ⟨down, cause, rate, -⟩ := State.link_goDown (cause := 4) (atOnce := false) up
    rw [State.link_linkDone]
    exact ⟨down, cause, rate, fun served begins written => State.link_goDown_held up served begins written⟩
  · obtain ⟨down, cause, rate, energy, -⟩ := State.link_goDown (cause := 1) (atOnce := false) up
    rw [State.link_linkDone, State.phyFail, if_pos up]
    exact ⟨down, cause, rate, energy, fun unserved => State.holdStart_goDown_unserved up unserved⟩
  · subst arrived
    obtain ⟨down, cause, -⟩ := State.link_goDown (cause := 3) (atOnce := false) up
    refine ⟨_, rfl, ?_⟩
    dsimp only
    rw [State.link_linkDone, State.silence, if_pos (by rw [up, decide_eq_true passed]; rfl)]
    exact ⟨down, cause⟩
  · refine ⟨_, congrArg Host.Outcome.next (if_pos (by rw [heard, may]; rfl)), ?_⟩
    dsimp only
    rw [State.link_linkDone]
    exact State.link_writeLinkControl noTarget

end Sys2Proof.Machine

/-! PROOFS. The change of a link's rate (07 R220, R221). -/

namespace Sys2Proof.Machine

section rate
variable {s u : State} {x : Seat} {r : BitVec 4} {l : SeatLink} {now ut : Nat} {b : List Byte}

theorem State.seatTime_linkDone {t : State} : (s.linkDone x t).seatTime x = t.seatTime x :=
  State.linkDone_keep.seatTime (by decide) x

/-- A target that no rate of the seat reaches is refused (R220). -/
theorem State.writeTarget_refused (zero : r ≠ 0) (other : r ≠ (s.link_ x).rate) (high : (s.link_ x).maxRate < r.toNat) :
    ((s.writeTarget x r.toNat).link_ x).rateTarget = r ∧ ((s.writeTarget x r.toNat).link_ x).rateResult = 2 ∧
      (s.writeTarget x r.toNat).seatTime x = s.seatTime x := by
  have change (P : Prop) : ¬(r.toNat = 0 ∨ (P ∧ r.toNat = (s.link_ x).rate.toNat)) := by
    rintro (none | ⟨-, same⟩)
    · exact zero (BitVec.eq_of_toNat_eq none)
    · exact other (BitVec.eq_of_toNat_eq same)
  unfold State.writeTarget
  dsimp only
  rw [if_neg (change _), if_pos high, State.link__setLink_, State.link__setLink_, State.setLink__keep.seatTime (by decide),
    State.setLink__keep.seatTime (by decide), BitVec.ofNat_toNat, BitVec.setWidth_eq]
  exact ⟨rfl, rfl, rfl⟩

theorem State.startRate_leaves (v : Nat) : ((s.startRate x v).link_ x) = { s.link_ x with rateResult := 4 } ∧
    (s.startRate x v).seatTime x = { s.seatTime x with
      ratePhase := .waitAck, recorded := some (BitVec.ofNat 4 v), stopUt := (s.seatUt x / frameNs + 12) * frameNs,
      ackBy := s.seatUt x + 10 * ms, targetFrom := none } := by
  unfold State.startRate
  dsimp only
  rw [State.sendCtrl_keep.link_ (by decide), State.sendCtrl_keep.seatTime (by decide), State.link__setLink_,
    State.setSeatTime_keep.link_ (by decide), State.setLink__keep.seatTime (by decide), State.seatTime_setSeatTime]
  exact ⟨rfl, rfl⟩

/-- A target that a link that is up takes (R220). -/
theorem State.writeTarget_starts (zero : r ≠ 0) (other : r ≠ (s.link_ x).rate) (reached : r.toNat ≤ (s.link_ x).maxRate)
    (up : s.linkState x = .up) (partner : (s.link_ x).partnerRates &&& rateBit r.toNat ≠ 0) :
    s.writeTarget x r.toNat = (s.setLink_ x { s.link_ x with rateTarget := r, dropped := 0 }).startRate x r.toNat := by
  have change (P : Prop) : ¬(r.toNat = 0 ∨ (P ∧ r.toNat = (s.link_ x).rate.toNat)) := by
    rintro (none | ⟨-, same⟩)
    · exact zero (BitVec.eq_of_toNat_eq none)
    · exact other (BitVec.eq_of_toNat_eq same)
  have still : (s.setLink_ x { s.link_ x with rateTarget := r, dropped := 0 }).linkState x = .up := by
    rw [← up, State.linkState, State.linkState, State.link__setLink_, State.setLink__keep.seatTime (by decide)]
  unfold State.writeTarget
  dsimp only
  rw [BitVec.ofNat_toNat, BitVec.setWidth_eq, if_neg (change _), if_neg (not_lt.mpr reached), still]
  dsimp only
  rw [if_neg partner]

/-- A loss leaves the phase of a change that has reached its stop (R221). -/
theorem State.ratePhase_lose (changing : (s.seatTime x).ratePhase = .changing) (cause : Nat) :
    ((s.lose x cause).seatTime x).ratePhase = .changing := by
  have same : ((s.bumpSeat x 14 1).seatTime x).ratePhase = .changing := by
    rw [State.bumpSeat_keep.seatTime (by decide), changing]
  unfold State.lose
  dsimp only
  rw [State.stopTunnels_keep.seatTime (by decide), State.setLink__keep.seatTime (by decide), same, if_neg (by decide),
    State.seatTime_setSeatTime]

theorem State.seatTime_holdOrFlush {atOnce : Bool} : (s.holdOrFlush x l now atOnce).seatTime x = s.seatTime x := by
  have begun : (s.beginHold x l now).seatTime x = s.seatTime x := by
    unfold State.beginHold
    split
    · rfl
    · rw [State.setPortState_keep.seatTime (by decide), State.setLink__keep.seatTime (by decide)]
  unfold State.holdOrFlush
  split
  · rfl
  · split
    · exact State.flushSeat_keep.seatTime (by decide) x
    · split
      · rw [State.flushSeat_keep.seatTime (by decide), begun]
      · exact begun

theorem State.ratePhase_startTarget : ((s.startTarget x now).seatTime x).ratePhase = (s.seatTime x).ratePhase := by
  unfold State.startTarget
  dsimp only
  split
  · rw [State.seatTime_setSeatTime]
  · rfl

theorem State.ratePhase_negotiate : ((s.negotiate x).seatTime x).ratePhase = (s.seatTime x).ratePhase := by
  unfold State.negotiate
  dsimp only
  rw [State.ratePhase_startTarget, State.setLink__keep.seatTime (by decide)]

theorem State.ratePhase_goDown (up : (s.link_ x).pcsUp = true) (changing : (s.seatTime x).ratePhase = .changing) (cause : Nat) :
    ((s.goDown x cause false).seatTime x).ratePhase = .changing := by
  have held : (((s.lose x cause).holdOrFlush x (s.link_ x) (s.seatUt x) false).seatTime x).ratePhase = .changing := by
    rw [State.seatTime_holdOrFlush, State.ratePhase_lose changing]
  rw [State.goDown_eq up]
  dsimp only
  split
  · rw [State.setLink__keep.seatTime (by decide), held]
  · rw [State.ratePhase_negotiate, held]

theorem State.endRate_leaves (v : BitVec 3) : (s.endRate x v).link_ x = { s.link_ x with rateResult := v } ∧
    (s.endRate x v).seatTime x = { s.seatTime x with ratePhase := .none, recorded := none, targetFrom := none } := by
  unfold State.endRate
  dsimp only
  rw [State.link__setLink_, State.setLink__keep.seatTime (by decide), State.seatTime_setSeatTime,
    State.setSeatTime_keep.link_ (by decide)]
  exact ⟨rfl, rfl⟩

/-! ### The clauses -/

theorem yields_rateChangeStop (arrived : u = s.arrive ut) (waits : (u.seatTime x).ratePhase = .waitStop)
    (stop : (u.seatTime x).stopUt ≤ u.ut (u.servingCore x)) (up : (u.link_ x).pcsUp = true) :
    Yields (.rateChangeStop x ut) s fun t =>
      (t.seatTime x).ratePhase = .changing ∧ (t.link_ x).pcsUp = false ∧ (t.link_ x).downCause = 5 := by
  subst arrived
  refine ⟨_, rfl, ?_⟩
  dsimp only
  rw [State.link_linkDone, State.seatTime_linkDone, State.rateStop, if_pos ⟨waits, stop⟩]
  generalize begun : (s.arrive ut).setSeatTime x
    { (s.arrive ut).seatTime x with ratePhase := .changing, targetFrom := none } = v
  have still : (v.link_ x).pcsUp = true := by
    rw [← begun, State.setSeatTime_keep.link_ (by decide), up]
  have changing : (v.seatTime x).ratePhase = .changing := by
    rw [← begun, State.seatTime_setSeatTime]
  obtain ⟨down, cause, -⟩ := State.link_goDown (cause := 5) (atOnce := false) still
  exact ⟨State.ratePhase_goDown still changing 5, down, cause⟩

theorem yields_rateChangeTimeout {t0 : Nat} (arrived : u = s.arrive ut) (from_ : (u.seatTime x).targetFrom = some t0)
    (target : (u.targetOnly x).isSome = true) (held : (u.link_ x).holdStart = none) (down : (u.link_ x).pcsUp = false)
    (late : t0 + 3000 * ms ≤ u.ut (u.servingCore x)) : Yields (.rateChangeTimeout x ut) s fun t =>
      (t.seatTime x).ratePhase = .none ∧ (t.link_ x).rateResult = 3 := by
  subst arrived
  refine ⟨_, rfl, ?_⟩
  dsimp only
  rw [State.link_linkDone, State.seatTime_linkDone, State.rateLate, from_]
  dsimp only
  rw [target, held, down, if_pos (by simp [late])]
  obtain ⟨link, time⟩ := State.endRate_leaves (s := s.arrive ut) (x := x) 3
  split
  · rw [State.ratePhase_negotiate, State.link_negotiate, State.stopTunnels_keep.seatTime (by decide),
      State.stopTunnels_keep.link_ (by decide), link, time]
    exact ⟨rfl, rfl⟩
  · rw [link, time]
    exact ⟨rfl, rfl⟩

end rate

/-- Settles O21. A write of the target is refused or starts a change (`writeTarget_refused`, `startRate_leaves`); each later step
changes only the phase of the change, or ends it (`endRate_leaves`), or takes the link down for it (`link_goDown`). -/
theorem rateChange : Obligations.RateChange := by
  unfold Obligations.RateChange
  refine ⟨fun w x r s heard may => ⟨fun zero other high => ?_, fun zero reached up other partner => ?_⟩,
    fun x b s size waits early rate unused stop => ?_, fun x ut s u arrived waits late => ?_,
    fun x ut s u arrived waits stop up => yields_rateChangeStop arrived waits stop up,
    fun x ut t0 s u arrived from_ target held down late => yields_rateChangeTimeout arrived from_ target held down late⟩
  · obtain ⟨target, result, time⟩ := State.writeTarget_refused zero other high
    refine ⟨_, congrArg Host.Outcome.next (if_pos (by rw [heard, may]; rfl)), ?_⟩
    dsimp only
    rw [State.link_linkDone, State.seatTime_linkDone, time]
    exact ⟨target, result, rfl⟩
  · obtain ⟨link, time⟩ := State.startRate_leaves (x := x) (s := s.setLink_ x { s.link_ x with rateTarget := r, dropped := 0 })
      r.toNat
    refine ⟨_, congrArg Host.Outcome.next (if_pos (by rw [heard, may]; rfl)), ?_⟩
    dsimp only
    rw [State.link_linkDone, State.seatTime_linkDone, State.writeTarget_starts zero other reached up partner, link, time,
      State.link__setLink_, BitVec.ofNat_toNat, BitVec.setWidth_eq]
    exact ⟨rfl, rfl, rfl, rfl, rfl⟩
  · refine ⟨_, rfl, ?_⟩
    rw [State.rateAck, if_neg (not_not_intro size), if_pos ⟨waits, early, rate, unused, stop⟩]
    exact State.seatTime_setSeatTime _ _ _
  · subst arrived
    obtain ⟨link, time⟩ := State.endRate_leaves (s := s.arrive ut) (x := x) 2
    refine ⟨_, rfl, ?_⟩
    rw [State.rateUnanswered, if_pos ⟨waits, late⟩]
    dsimp only
    rw [link, time]
    exact ⟨rfl, rfl, rfl⟩

end Sys2Proof.Machine

/-! PROOFS. Frames of a link, its reports and its time lock (07 R189 to R197, R213 to R219). -/

namespace Sys2Proof.Machine

/-! ### Tunnels -/

section tunnels
variable {s t : State} {x : Seat} {j k : Tunnel} {K : Nat} {time : Nat} {seq : Half} {payload : List Byte} {ack unseq : Bool}

theorem tunKey_ne (h : j ≠ k) : tunKey x j ≠ tunKey x k := by
  cases j <;> cases k <;> simp_all [tunKey, Tunnel.code]

theorem State.tun_setTun_ne {v : TunSt} (h : j ≠ k) : (s.setTun x k v).tun x j = s.tun x j :=
  tget_tset_ne _ _ _ _ (tunKey_ne h)

/-- A tunnel and the same but for when its next report is due. -/
def TunSt.SameButReport (u v : TunSt) : Prop := v = { u with reportBy := v.reportBy }

/-- A tunnel and the same but for its retransmit timers. -/
def TunSt.SameButTimers (u v : TunSt) : Prop := v = { u with timers := v.timers }

theorem State.tun_pauseTimers : (s.tun x k).SameButTimers ((s.pauseTimers x time).tun x k) := by
  unfold State.pauseTimers
  generalize s.ut (s.servingCore x) = now
  generalize [Tunnel.ctrl, .sync, .usb, .disp, .net] = l
  dsimp only
  induction l generalizing s with
  | nil => rfl
  | cons j l ih =>
    rw [List.foldl_cons]
    refine Eq.trans ih ?_
    by_cases same : k = j
    · subst same
      rw [State.tun_setTun]
    · rw [State.tun_setTun_ne same]

end tunnels
/-! ### A frame put on the line -/

section line
variable {s t : State} {x : Seat} {j k : Tunnel} {K : Nat} {seq : Half} {payload : List Byte} {ack unseq : Bool}

theorem Keep.lineLength (h : Keep K s t) (kept : K.testBit 51 = true) : t.link.line.length = s.link.line.length :=
  congrArg List.length (h.line kept)

/-- The report that a frame carries is no longer due. -/
def State.reported (s : State) (x : Seat) (report : Option Tunnel) : State :=
  match report with
  | some k => s.setTun x k { s.tun x k with reportBy := none }
  | none => s

theorem State.reported_leaves (report : Option Tunnel) : (s.reported x report).link_ x = s.link_ x ∧
    (s.reported x report).link.line = s.link.line ∧ (s.tun x j).SameButReport ((s.reported x report).tun x j) := by
  cases report with
  | none => exact ⟨rfl, rfl, rfl⟩
  | some k =>
    refine ⟨rfl, rfl, ?_⟩
    unfold State.reported
    dsimp only
    by_cases same : j = k
    · subst same
      rw [State.tun_setTun]
      rfl
    · rw [State.tun_setTun_ne same]
      rfl

/-- The bytes `b` of a frame on the seat's line, and what is counted of them. -/
def State.onLine (s : State) (x : Seat) (k : Tunnel) (b : List Byte) (now : Nat) (c : CoreId) : State :=
  let s := s.setLink { s.link with line := s.link.line ++ [{ seat := x, chars := lineChars b }] }
  let l := s.link_ x
  let s := s.setLink_ x { l with lastTx := now }
  let w := s.wfq x
  let s := s.setWfq x { w with busyUntil := now + lineTime b.length (s.overheadOf x) (s.rateOf x) }
  let s := (s.bumpSeat x 1 1).bumpSeat x 3 b.length
  let s := (s.count c 0x050 [(2, x.val), (6, k.code)] 1).count c 0x051 [(2, x.val), (6, k.code)] b.length
  let d := s.demand x
  s.setDemand x { d with sent := tset d.sent k.code (satAdd 0xFFFFFFFF (tget d.sent k.code 0) b.length) 0 }

theorem State.putLine_eq : ∃ report b, s.putLine x k ack unseq seq payload =
    (s.reported x report).onLine x k b (s.seatUt x) (s.servingCore x) := ⟨_, _, rfl⟩

theorem State.onLine_leaves {b : List Byte} {now : Nat} {c : CoreId} :
    (s.onLine x k b now c).link.line.length = s.link.line.length + 1 ∧ ((s.onLine x k b now c).link_ x).lastTx = now ∧
    (s.onLine x k b now c).tun x j = s.tun x j := by
  unfold State.onLine
  dsimp only
  refine ⟨?_, ?_, ?_⟩
  · rw [State.setDemand_keep.lineLength (by decide), State.count_keep.lineLength (by decide), State.count_keep.lineLength (by decide),
      State.bumpSeat_keep.lineLength (by decide), State.bumpSeat_keep.lineLength (by decide), State.setWfq_keep.lineLength (by decide),
      State.setLink__keep.lineLength (by decide)]
    exact List.length_append
  · rw [State.setDemand_keep.link_ (by decide), State.count_keep.link_ (by decide), State.count_keep.link_ (by decide),
      State.bumpSeat_keep.link_ (by decide), State.bumpSeat_keep.link_ (by decide), State.setWfq_keep.link_ (by decide),
      State.link__setLink_]
  · rw [State.setDemand_keep.tun (by decide), State.count_keep.tun (by decide), State.count_keep.tun (by decide),
      State.bumpSeat_keep.tun (by decide), State.bumpSeat_keep.tun (by decide), State.setWfq_keep.tun (by decide),
      State.setLink__keep.tun (by decide)]
    rfl

/-- A frame put on the line lengthens it by one, sets the time of the last transmission and clears the report it carries. -/
theorem State.putLine_leaves : (s.putLine x k ack unseq seq payload).link.line.length = s.link.line.length + 1 ∧
    ((s.putLine x k ack unseq seq payload).link_ x).lastTx = s.seatUt x ∧
    (s.tun x j).SameButReport ((s.putLine x k ack unseq seq payload).tun x j) := by
  obtain ⟨report, b, put⟩ := State.putLine_eq (s := s) (x := x) (k := k) (ack := ack) (unseq := unseq) (seq := seq)
    (payload := payload)
  obtain ⟨-, line, tun⟩ := State.reported_leaves (s := s) (x := x) (j := j) report
  obtain ⟨length, last, same⟩ := State.onLine_leaves (s := s.reported x report) (x := x) (k := k) (j := j) (b := b)
    (now := s.seatUt x) (c := s.servingCore x)
  rw [put, length, last, same, line]
  exact ⟨rfl, rfl, tun⟩

end line

end Sys2Proof.Machine

/-! PROOFS. The clauses of a link's frames, reports and time lock. -/

namespace Sys2Proof.Machine

/-! ### Reports, `DOCK_TIME`, delay and calibration -/

section reports
variable {s u : State} {x : Seat} {k : Tunnel} {ut : Nat} {b : List Byte}

theorem mem_insertSeq {free q r : Half} {l : List Half} : r ∈ insertSeq free q l ↔ r = q ∨ r ∈ l := by
  induction l with
  | nil => simp [insertSeq]
  | cons a l ih =>
    unfold insertSeq
    split
    next same =>
      subst same
      simp
    next => split <;> simp [ih, or_left_comm]

/-- Every number that is put into a resend list is in it. -/
theorem mem_insertSeqs {free r : Half} {l : List Half} {m : List Half} (h : r ∈ l ∨ r ∈ m) :
    r ∈ l.foldl (fun m q => insertSeq free q m) m := by
  induction l generalizing m with
  | nil => simpa using h
  | cons q l ih =>
    rw [List.foldl_cons]
    refine ih ?_
    rw [mem_insertSeq, List.mem_cons] at *
    tauto

theorem yields_nak (up : (s.link_ x).pcsUp = true) (size : b.length = 12) (form : fld b 1 1 = 0)
    (tunnel : Tunnel.ofCode (fld b 0 1) = some k) (reliable : k.reliable = true) : Yields (.nak x b) s fun t =>
      (t.tun x k).held = (s.tun x k).held ∧
      ∀ f ∈ (s.tun x k).held, sub16 f.seq (BitVec.ofNat 16 (fld b 2 2)) < 64 →
        bit (fld b 4 8) (sub16 f.seq (BitVec.ofNat 16 (fld b 2 2))) = true → f.seq ∈ (t.tun x k).resend := by
  refine ⟨_, congrArg Host.Outcome.next (if_pos up), ?_⟩
  have named : (if b.length = 12 ∧ fld b 1 1 = 0 then (Tunnel.ofCode (fld b 0 1)).filter (·.reliable) else none) = some k := by
    rw [if_pos ⟨size, form⟩, tunnel, Option.filter_some, reliable]
    rfl
  unfold State.takeNak
  rw [named]
  dsimp only
  rw [State.bumpSeat_keep.tun (by decide), State.tun_setTun]
  refine ⟨rfl, fun f held near missed => mem_insertSeqs (Or.inl (List.mem_map_of_mem (List.mem_filter.mpr ⟨held, ?_⟩)))⟩
  rw [decide_eq_true near, missed]
  rfl

theorem yields_nakSend (arrived : u = s.arrive ut) (reliable : k.reliable = true) (ahead : (u.tun x k).ahead ≠ [])
    (due : (u.tun x k).nakAfter ≤ u.ut (u.servingCore x)) (ready : u.bareReady x 16 = true) : Yields (.nakSend x k ut) s fun t =>
      (t.tun x k).nakAfter = u.ut (u.servingCore x) + 10000 ∧ t.link.line.length = u.link.line.length + 1 := by
  subst arrived
  refine ⟨_, rfl, ?_⟩
  have sends : (k.reliable && !((s.arrive ut).tun x k).ahead.isEmpty &&
      decide (((s.arrive ut).tun x k).nakAfter ≤ (s.arrive ut).ut ((s.arrive ut).servingCore x)) &&
        (s.arrive ut).bareReady x 16) = true := by
    simp [reliable, ready, due, ahead]
  unfold State.sendNak
  dsimp only
  rw [if_pos sends, State.count_keep.tun (by decide), State.count_keep.lineLength (by decide)]
  obtain ⟨length, -, tun⟩ := State.putLine_leaves (j := k) (x := x) (k := .ctrl) (ack := false) (unseq := true) (seq := 0)
    (s := (s.arrive ut).setTun x k { (s.arrive ut).tun x k with
      nakAfter := (s.arrive ut).ut ((s.arrive ut).servingCore x) + 10000 })
    (payload := ctrlMsg 0x04 (leBytes 1 k.code ++ leBytes 1 0 ++ leBytes 2 ((s.arrive ut).tun x k).recv.toNat ++
      leBytes 8 ((s.arrive ut).tun x k).missing))
  rw [State.tun_setTun] at tun
  unfold State.sendBare
  rw [tun, length]
  exact ⟨rfl, rfl⟩

theorem State.sendBare_leaves {payload : List Byte} : (s.sendBare x payload).link.line.length = s.link.line.length + 1 ∧
    ((s.sendBare x payload).link_ x).lastTx = s.seatUt x := by
  obtain ⟨length, last, -⟩ := State.putLine_leaves (s := s) (x := x) (j := .ctrl) (k := .ctrl) (ack := false) (unseq := true) (seq := 0)
    (payload := payload)
  exact ⟨length, last⟩

/-- The next `TIME_BASE`, where one is due. -/
def State.rebase (s : State) (x : Seat) (due : Bool) : State := if due then s.sendTimeBase x else s

theorem State.seatTime_rebase (due : Bool) : ∃ base, (s.rebase x due).seatTime x = { s.seatTime x with lastBase := base } := by
  cases due
  · exact ⟨_, rfl⟩
  · refine ⟨s.seatUt x, ?_⟩
    unfold State.rebase State.sendTimeBase
    dsimp only
    rw [if_pos rfl, State.sendSync_keep.seatTime (by decide), State.setSeatTraf_keep.seatTime (by decide),
      State.seatTime_setSeatTime]
    rfl

theorem State.delayUpdate_eq (up : (s.link_ x).st = .up) (due : (s.seatTime x).lastUpdate + ms ≤ s.ut (s.servingCore x)) :
    ∃ base, s.delayUpdate x = (s.setSeatTime x { s.seatTime x with
      ys := [], lastUpdate := s.ut (s.servingCore x),
      dDelay := if decide (newDelay (s.seatTime x).ys (s.seatTime x).dDelay + 2 ≤ (s.seatTime x).dDelay ∨
          (s.seatTime x).dDelay + 2 ≤ newDelay (s.seatTime x).ys (s.seatTime x).dDelay)
        then newDelay (s.seatTime x).ys (s.seatTime x).dDelay else (s.seatTime x).dDelay }).rebase x base :=
  ⟨_, if_pos (by simp [up, due])⟩

theorem yields_delayUpdate (arrived : u = s.arrive ut) (up : (u.link_ x).st = .up)
    (due : (u.seatTime x).lastUpdate + ms ≤ u.ut (u.servingCore x)) :
    Yields (.delayUpdate x ut) s fun t => (t.seatTime x).ys = [] ∧ (t.seatTime x).lastUpdate = u.ut (u.servingCore x) ∧
      (t.seatTime x).dDelay = (if newDelay (u.seatTime x).ys (u.seatTime x).dDelay + 2 ≤ (u.seatTime x).dDelay ∨
          (u.seatTime x).dDelay + 2 ≤ newDelay (u.seatTime x).ys (u.seatTime x).dDelay
        then newDelay (u.seatTime x).ys (u.seatTime x).dDelay else (u.seatTime x).dDelay) := by
  subst arrived
  refine ⟨_, rfl, ?_⟩
  obtain ⟨base, update⟩ := State.delayUpdate_eq up due
  rw [update]
  obtain ⟨last, time⟩ := State.seatTime_rebase (s := (s.arrive ut).setSeatTime x _) (x := x) base
  rw [time, State.seatTime_setSeatTime]
  exact ⟨rfl, rfl, by simp only [decide_eq_true_iff]⟩

theorem yields_calibrationSlot {m : Half} (arrived : u = (s.arrive ut).settleGate x) (up : (u.link_ x).pcsUp = true)
    (slot : (u.seatTraf x).calNow.2 ≠ 0) : Yields (.calibrationSlot x m ut) s fun t => (t.seatTime x).margin = m ∧
      (t.seatTime x).margins = (m :: (u.seatTime x).margins).take 1000 := by
  refine ⟨_, rfl, ?_⟩
  rw [State.calibrate, ← arrived]
  dsimp only
  rw [if_neg (by simp [up]), if_neg slot, State.bumpSeat_keep.seatTime (by decide), State.seatTime_setSeatTime]
  exact ⟨rfl, rfl⟩

end reports

end Sys2Proof.Machine

/-! PROOFS. A frame received on a link (07 R189 to R193, R213). -/

namespace Sys2Proof.Machine

section receive
variable {s t u : State} {x : Seat} {k : Tunnel} {ut K : Nat} {b m p : List Byte} {pcs : Bool} {seq : Half} {low len : Nat}

theorem yields_straitFrameReceive_bad {n : Nat} (arrived : u = s.arrive ut) (up : (u.link_ x).pcsUp = true)
    (bad : frameCheck pcs b = .inl n) : Yields (.straitFrameReceive x pcs b ut) s fun t =>
      let v := (u.pauseTimers x (lineTime b.length 8 (u.rateOf x))).bumpSeat x n 1
      t = if n = 7 then v else v.discardAt (u.servingCore x) x.val := by
  subst arrived
  have counted : Keep (2 ^ 20 + 2 ^ 21 + 2 ^ 42) (s.arrive ut)
      (((s.arrive ut).pauseTimers x (lineTime b.length 8 ((s.arrive ut).rateOf x))).bumpSeat x n 1) :=
    Keep.step State.bumpSeat_keep (by decide) (State.pauseTimers_keep.weaken (by decide))
  have served := (State.pauseTimers_keep (s := s.arrive ut) (x := x)
    (time := lineTime b.length 8 ((s.arrive ut).rateOf x))).servingCore (by decide) x
  refine ⟨_, rfl, ?_⟩
  unfold State.receive
  dsimp only
  rw [up, bad]
  dsimp only
  rw [if_neg (by decide), served]
  generalize ((s.arrive ut).pauseTimers x (lineTime b.length 8 ((s.arrive ut).rateOf x))).bumpSeat x n 1 = v at counted
  split
  · exact State.linkDone_of_keep counted (by decide) (by decide)
  · exact State.linkDone_of_keep (Keep.step State.discardAt_keep (K := 2 ^ 20 + 2 ^ 21 + 2 ^ 42) (by decide) counted)
      (by decide) (by decide)

/-! ### Whether the fabric admits a frame -/

theorem Keep.fabPort (h : Keep K s t) (fab : K.testBit 29 = true) (c : CoreId) (o : Nat) : t.fabPort c o = s.fabPort c o := by
  rw [State.fabPort, State.fabPort, h.fabCore fab]

theorem Keep.owner (h : Keep K s t) (isl : K.testBit 5 = true) (x : Seat) : t.owner x = s.owner x := by
  unfold State.owner
  simp only [h.islet isl]

theorem Keep.admitFrom (h : Keep K s t) (isl : K.testBit 5 = true) (fab : K.testBit 29 = true) (c : CoreId) (o cls acct n : Nat) :
    t.admitFrom c o cls acct n = s.admitFrom c o cls acct n := by
  have cores := h.fabCore fab c
  have same : t.isl = s.isl := h.isl isl
  have size : t.poolSize c = s.poolSize c := by
    rw [State.poolSize, State.poolSize, State.outMinSum, State.outMinSum, State.isletMinSum, State.isletMinSum, cores, same]
  have free : t.poolFree c = s.poolFree c := by
    rw [State.poolFree, State.poolFree, State.poolExcess, State.poolExcess, cores, size]
  rw [State.admitFrom, State.admitFrom, State.poolTakes, State.poolTakes, State.outTakes, State.outTakes, cores, size, free,
    h.fabPort fab, h.islet isl]

theorem Keep.newFrame (h : Keep K s t) (fab : K.testBit 29 = true) (c : CoreId) (o : Nat) : t.newFrame c o = s.newFrame c o := by
  rw [State.newFrame, State.newFrame, h.fabPort fab]

theorem State.rxAdmit_fst : (s.rxAdmit x k len).1 =
    !(s.newFrame (s.servingCore x) (s.blockPort x k) == .refuse ||
      (s.admitFrom (s.servingCore x) (s.blockPort x k) k.cls (s.owner x).val (cellsOf (len + 16))).isNone) := by
  unfold State.rxAdmit
  dsimp only
  split
  next refused => rw [refused]; rfl
  next admitted => rw [eq_false_of_ne_true admitted]; rfl

/-- A frame of `SYNC` enters the fabric by port 152. -/
theorem Keep.rxAdmit_sync (h : Keep K s t) (isl : K.testBit 5 = true) (fab : K.testBit 29 = true) (cores : K.testBit 42 = true) :
    (t.rxAdmit x .sync len).1 = (s.rxAdmit x .sync len).1 := by
  rw [State.rxAdmit_fst, State.rxAdmit_fst, h.admitFrom isl fab, h.newFrame fab, h.servingCore cores, h.owner isl]
  rfl

/-- What an admitted frame leaves: the link, its time and its tunnels. -/
theorem State.rxAdmit_admitted (admitted : (s.rxAdmit x k len).1 = true) :
    ∃ v, s.rxAdmit x k len = (true, v) ∧ Keep (2 ^ 20 + 2 ^ 21 + 2 ^ 22) s v := by
  unfold State.rxAdmit at admitted ⊢
  dsimp only at admitted ⊢
  split at admitted
  · cases admitted
  next takes =>
    rw [if_neg takes]
    exact ⟨_, rfl, Keep.step State.bwCount_keep (by decide) (Keep.step State.bwCount_keep (by decide)
      (State.wakeOutput_keep.weaken (by decide)))⟩

/-! ### A message of `SYNC` -/

/-- The one message of a frame is `DOCK_TIME`. -/
theorem State.deliver_dockTime (up : (s.link_ x).pcsUp = true) (one : splitMsgs 4 p.length p = ([m], true)) (code : fld m 0 1 = 0x11)
    (zero : fld m 1 1 = 0) : s.deliver x .sync seq low p = s.takeDockTime x (m.drop 4) := by
  unfold State.deliver State.eachMessage State.ctrlMessage
  dsimp only
  rw [one]
  dsimp only [List.foldl]
  rw [if_pos up, if_pos rfl, if_neg (not_not_intro zero), code]
  rfl

theorem State.takeDockTime_good (size : m.length = 12) (form : fld m 5 1 = 0) (unused : fld m 10 2 = 0) :
    ∃ v : SeatTime, v.phase = BitVec.ofNat 16 (fld m 6 2) ∧ s.takeDockTime x (m.drop 4) = s.setSeatTime x v := by
  have field (i n : Nat) : fld (m.drop 4) i n = fld m (i + 4) n := by
    simp [fld, List.drop_drop, Nat.add_comm]
  unfold State.takeDockTime
  dsimp only
  rw [if_neg (by simp [size, field, form, unused]), field 2 2]
  exact ⟨_, rfl, rfl⟩

theorem State.drainAhead_of_none (none : (s.tun x k).ahead = []) (n : Nat) : s.drainAhead x k n = s := by
  cases n with
  | zero => rfl
  | succ n =>
    rw [State.drainAhead, none]
    dsimp only [List.find?]
    exact ite_self s

/-- A frame that is the next of its tunnel, with none ahead, is delivered at once. -/
theorem State.drainAhead_one (up : (s.link_ x).pcsUp = true) {body : List Byte}
    (ahead : (s.tun x k).ahead = [((s.tun x k).recv, body)])
    (after : (((s.setTun x k { s.tun x k with recv := (s.tun x k).recv + 1, ahead := [] }).deliver x k (s.tun x k).recv
      (fld body 0 4) (body.drop 4)).tun x k).ahead = []) :
    s.drainAhead x k 64 = (s.setTun x k { s.tun x k with recv := (s.tun x k).recv + 1, ahead := [] }).deliver x k (s.tun x k).recv
      (fld body 0 4) (body.drop 4) := by
  rw [State.drainAhead, up, ahead]
  simp only [List.find?_singleton, beq_self_eq_true, if_true, List.filter_cons, bne_self_eq_false, List.filter_nil, Bool.not_true]
  exact State.drainAhead_of_none after _

theorem recv_advanceAck (n : Nat) (v : TunSt) : (advanceAck n v).recv = v.recv := by
  induction n generalizing v with
  | zero => rfl
  | succ n ih =>
    unfold advanceAck
    split
    · rfl
    · exact ih _

theorem State.recv_reportIn (delay : Nat) : ((s.reportIn x k delay).tun x k).recv = (s.tun x k).recv := by
  unfold State.reportIn
  rw [State.tun_setTun]

theorem State.recv_ackPass : ((s.ackPass x k).tun x k).recv = (s.tun x k).recv := by
  unfold State.ackPass
  dsimp only
  split
  · rfl
  · split
    · rfl
    · rw [State.recv_reportIn, State.tun_setTun, recv_advanceAck]

/-- The next frame of `SYNC` with one message of dock time, when none is ahead of it (R192, R213). -/
theorem State.takeSequenced_dockTime (up : (s.link_ x).pcsUp = true) (admitted : (s.rxAdmit x .sync len).1 = true)
    (next : seq = (s.tun x .sync).recv) (ahead : (s.tun x .sync).ahead = []) (one : splitMsgs 4 p.length p = ([m], true))
    (code : fld m 0 1 = 0x11) (zero : fld m 1 1 = 0) (size : m.length = 12) (form : fld m 5 1 = 0) (unused : fld m 10 2 = 0) :
    ((s.takeSequenced x .sync seq low len p).tun x .sync).recv = (s.tun x .sync).recv + 1 ∧
    (s.takeSequenced x .sync seq low len p).link_ x = s.link_ x ∧
    ((s.takeSequenced x .sync seq low len p).seatTime x).phase = BitVec.ofNat 16 (fld m 6 2) := by
  subst next
  obtain ⟨v, entered, kept⟩ := State.rxAdmit_admitted admitted
  have tun := kept.tun (by decide) x .sync
  have link := kept.link_ (by decide) x
  unfold State.takeSequenced
  dsimp only
  have zero_dist : sub16 (s.tun x .sync).recv (s.tun x .sync).recv = 0 := by simp [sub16]
  rw [zero_dist, if_neg (by decide), ahead, if_neg (by simp), entered]
  dsimp only
  rw [if_neg (by decide), if_neg (by decide), tun, ahead, List.nil_append]
  generalize queued : v.setTun x .sync { s.tun x .sync with ahead := [((s.tun x .sync).recv, leBytes 4 low ++ p)] } = w
  have wTun : w.tun x .sync = { s.tun x .sync with ahead := [((s.tun x .sync).recv, leBytes 4 low ++ p)] } := by
    rw [← queued, State.tun_setTun]
  have wLink : w.link_ x = s.link_ x := by
    rw [← queued, State.setTun_keep.link_ (by decide), link]
  have body : (leBytes 4 low ++ p).drop 4 = p := by
    rw [List.drop_append_of_le_length (by rw [leBytes_length]), List.drop_eq_nil_of_le (by rw [leBytes_length]), List.nil_append]
  generalize taken : w.setTun x .sync { w.tun x .sync with recv := (w.tun x .sync).recv + 1, ahead := [] } = z
  have zTun : z.tun x .sync = { w.tun x .sync with recv := (w.tun x .sync).recv + 1, ahead := [] } := by
    rw [← taken, State.tun_setTun]
  have zLink : z.link_ x = s.link_ x := by
    rw [← taken, State.setTun_keep.link_ (by decide), wLink]
  obtain ⟨time, phase, dock⟩ := State.takeDockTime_good (s := z) (x := x) size form unused
  have delivered {q : Half} {low : Nat} : z.deliver x .sync q low p = z.setSeatTime x time := by
    rw [State.deliver_dockTime (by rw [zLink, up]) one code zero, dock]
  have drained : w.drainAhead x .sync 64 = z.setSeatTime x time := by
    rw [State.drainAhead_one (body := leBytes 4 low ++ p) (by rw [wLink, up]) (by rw [wTun])]
    · rw [taken, body, delivered]
    · rw [taken, body, delivered, State.setSeatTime_keep.tun (by decide), zTun]
  rw [drained, State.setSeatTime_keep.link_ (by decide), zLink, up, if_pos rfl, State.recv_reportIn, State.recv_ackPass,
    State.reportIn_keep.link_ (by decide), State.ackPass_keep.link_ (by decide), State.setSeatTime_keep.link_ (by decide), zLink,
    State.reportIn_keep.seatTime (by decide), State.ackPass_keep.seatTime (by decide), State.seatTime_setSeatTime,
    State.setSeatTime_keep.tun (by decide), zTun, wTun]
  exact ⟨rfl, rfl, phase⟩

/-- A good frame as it is counted, before its report and its payload are looked at (R191). -/
def State.counted (s : State) (x : Seat) (k : Tunnel) (b : List Byte) : State :=
  let time := lineTime b.length 8 (s.rateOf x)
  let s := s.pauseTimers x time
  let now := s.ut (s.servingCore x)
  let s := ((s.bumpSeat x 0 1).bumpSeat x 2 b.length).count (s.servingCore x) 0x052 [(2, x.val), (6, k.code)] 1
  let s := s.setLink_ x { s.link_ x with lastRx := now }
  let d := s.seatTime x
  s.setSeatTime x { d with ys := d.ys ++ [stampDelay (now - time) (fld b 12 4)] }

theorem State.counted_leaves : (s.counted x k b).link_ x = { s.link_ x with lastRx := s.seatUt x } ∧
    (s.tun x k).SameButTimers ((s.counted x k b).tun x k) ∧ Keep (2 ^ 5 + 2 ^ 29 + 2 ^ 42) s (s.counted x k b) := by
  have now := (State.pauseTimers_keep (s := s) (x := x) (time := lineTime b.length 8 (s.rateOf x))).seatUt (by decide) x
  have tun := State.tun_pauseTimers (s := s) (x := x) (k := k) (time := lineTime b.length 8 (s.rateOf x))
  unfold State.seatUt at now
  unfold State.counted
  dsimp only
  refine ⟨?_, ?_, ?_⟩
  · rw [State.setSeatTime_keep.link_ (by decide), State.link__setLink_, State.count_keep.link_ (by decide),
      State.bumpSeat_keep.link_ (by decide), State.bumpSeat_keep.link_ (by decide), State.pauseTimers_keep.link_ (by decide), now]
    rfl
  · rw [State.setSeatTime_keep.tun (by decide), State.setLink__keep.tun (by decide), State.count_keep.tun (by decide),
      State.bumpSeat_keep.tun (by decide), State.bumpSeat_keep.tun (by decide)]
    exact tun
  · exact Keep.step State.setSeatTime_keep (by decide) (Keep.step State.setLink__keep (by decide)
      (Keep.step State.count_keep (by decide) (Keep.step State.bumpSeat_keep (by decide)
        (Keep.step State.bumpSeat_keep (by decide) (State.pauseTimers_keep.weaken (by decide))))))

/-- A good frame of `SYNC` that brings no report, on a link that is up. -/
theorem State.receive_sync (up : (s.link_ x).pcsUp = true) (st : (s.link_ x).st = .up) (dead : (s.link_ x).live = false)
    (good : frameCheck false b = .inr .sync) (noReport : bit (fld b 0 1) 7 = false) (numbered : bit (fld b 1 1) 7 = false) :
    ∃ due : Bool, s.receive x false b =
      (let v := (s.counted x .sync b).takeSequenced x .sync (BitVec.ofNat 16 (fld b 2 2)) (fld b 12 4) b.length
        ((b.drop 16).take (fld b 8 2))
      if due && (v.link_ x).pcsUp then v.reportIn x .sync 10000 else v) := by
  obtain ⟨link, -, -⟩ := State.counted_leaves (s := s) (x := x) (k := .sync) (b := b)
  have report : (s.counted x .sync b).useReport x b = s.counted x .sync b := by
    rw [State.useReport, noReport]
    rfl
  have old : (s.counted x .sync b).oldFrame x .sync (BitVec.ofNat 16 (fld b 2 2)) = false := by
    rw [State.oldFrame, SeatLink.waitsReply, link]
    simp [dead]
  have blocked : (s.counted x .sync b).blocked x .sync = false := by
    rw [State.blocked]
  unfold State.counted at *
  unfold State.receive
  dsimp only at *
  rw [up, good]
  dsimp only
  rw [if_neg (by decide), report, link, up, if_neg (by decide), numbered, if_neg (by decide), blocked, if_neg (by decide), old,
    if_neg (by decide), if_neg (by decide)]
  exact ⟨_, rfl⟩

theorem yields_straitFrameReceive_dockTime (arrived : u = s.arrive ut) (up : (u.link_ x).pcsUp = true) (st : (u.link_ x).st = .up)
    (dead : (u.link_ x).live = false) (good : frameCheck false b = .inr .sync) (noReport : bit (fld b 0 1) 7 = false)
    (numbered : bit (fld b 1 1) 7 = false) (payload : p = (b.drop 16).take (fld b 8 2))
    (one : splitMsgs 4 p.length p = ([m], true)) (code : fld m 0 1 = 0x11) (zero : fld m 1 1 = 0) (size : m.length = 12)
    (form : fld m 5 1 = 0) (unused : fld m 10 2 = 0) (admitted : (u.rxAdmit x .sync b.length).1 = true)
    (next : fld b 2 2 = (u.tun x .sync).recv.toNat) (ahead : (u.tun x .sync).ahead = []) :
    Yields (.straitFrameReceive x false b ut) s fun t => (t.tun x .sync).recv = (u.tun x .sync).recv + 1 ∧
      (t.link_ x).lastRx = u.ut (u.servingCore x) ∧ (t.seatTime x).phase = BitVec.ofNat 16 (fld m 6 2) := by
  subst arrived payload
  obtain ⟨link, tun, kept⟩ := State.counted_leaves (s := s.arrive ut) (x := x) (k := .sync) (b := b)
  obtain ⟨due, received⟩ := State.receive_sync up st dead good noReport numbered
  have recv : (((s.arrive ut).counted x .sync b).tun x .sync).recv = ((s.arrive ut).tun x .sync).recv := by rw [tun]
  obtain ⟨recv', link', phase⟩ := State.takeSequenced_dockTime (s := (s.arrive ut).counted x .sync b) (x := x) (len := b.length)
    (seq := BitVec.ofNat 16 (fld b 2 2)) (low := fld b 12 4) (by rw [link]; exact up)
    ((kept.rxAdmit_sync (by decide) (by decide) (by decide)).trans admitted) (by rw [recv, next]; simp) (by rw [tun]; exact ahead)
    one code zero size form unused
  refine ⟨_, rfl, ?_⟩
  dsimp only
  rw [received]
  dsimp only
  generalize State.takeSequenced _ x .sync _ _ _ _ = v at recv' link' phase
  rw [State.link_linkDone, State.linkDone_keep.tun (by decide), State.linkDone_keep.seatTime (by decide)]
  rw [recv] at recv'
  have last : (v.link_ x).lastRx = (s.arrive ut).ut ((s.arrive ut).servingCore x) := by
    rw [link', link]
    rfl
  split
  · rw [State.recv_reportIn, State.reportIn_keep.link_ (by decide), State.reportIn_keep.seatTime (by decide)]
    exact ⟨recv', last, phase⟩
  · exact ⟨recv', last, phase⟩

end receive

/-- Settles O22. Each report that goes out is one frame put on the line (`putLine_leaves`), and a frame that comes in is either
counted as bad or counted, admitted and delivered in order (`takeSequenced_dockTime`). Which counter a bad frame takes, its
discard and the paused timers are log entries 44 and 37 (DEDUCED). -/
theorem framesAndTime : Obligations.FramesAndTime := by
  unfold Obligations.FramesAndTime
  refine ⟨fun x b k s up size form tunnel reliable => yields_nak up size form tunnel reliable,
    fun x k ut s u arrived reliable ahead due ready => yields_nakSend arrived reliable ahead due ready,
    fun x k ut d s u arrived report due ready => ?_, fun x ut s u arrived due ready => ?_, fun x b s up size form unused => ?_,
    fun x ut s u arrived up due => yields_delayUpdate arrived up due,
    fun x m ut s u arrived up slot => yields_calibrationSlot arrived up slot,
    fun x pcs b ut n s u arrived up bad => yields_straitFrameReceive_bad arrived up bad,
    fun x b m p ut s u arrived up st dead good noReport numbered payload one code zero size form unused admitted next ahead =>
      yields_straitFrameReceive_dockTime arrived up st dead good noReport numbered payload one code zero size form unused admitted
        next ahead⟩
  · subst arrived
    refine ⟨_, rfl, ?_⟩
    dsimp only
    rw [report]
    dsimp only
    rw [if_pos ⟨due, ready⟩]
    exact State.sendBare_leaves
  · subst arrived
    refine ⟨_, rfl, ?_⟩
    dsimp only
    rw [if_pos ⟨due, ready⟩]
    exact State.sendBare_leaves
  · refine ⟨_, congrArg Host.Outcome.next (if_pos up), ?_⟩
    unfold State.takeDockTime
    dsimp only
    rw [if_neg (by simp [size, form, unused]), State.seatTime_setSeatTime]

end Sys2Proof.Machine

/-! PROOFS. What the hand-over of frames to the fabric leaves (05 R141; 09 R249 to R257): the events it raises stay raised, and no
group and no resequencer changes. -/

namespace Sys2Proof.Machine

section calm
variable {s t u : State} {c d : CoreId} {n o : Nat} {K : Nat}

/-- Every pending source is pending still. -/
def Pends (s t : State) : Prop :=
  ∀ c w b, ((s.evtCore c).pend w).getLsbD b = true → ((t.evtCore c).pend w).getLsbD b = true

theorem Pends.rfl' : Pends s s := fun _ _ _ h => h

theorem Pends.trans (h : Pends s t) (h' : Pends t u) : Pends s u := fun c w b p => h' c w b (h c w b p)

theorem Raises.pends (h : Raises s t) : Pends s t := fun c => (h c).2

theorem Keep.pends (h : Keep K s t) (events : K.testBit 13 = true) : Pends s t := (h.raises events).pends

theorem Pends.foldl {α : Type} {g : State → α → State} (each : ∀ s a, Pends s (g s a)) (l : List α) (s : State) :
    Pends s (l.foldl g s) := by
  induction l generalizing s with
  | nil => exact Pends.rfl'
  | cons a l ih => exact (each s a).trans (ih _)

theorem pends_setEvtCore {e : EvtCore} (h : e.pending = (s.evtCore c).pending) : Pends s (s.setEvtCore c e) := by
  intro d w b p
  by_cases same : d = c
  · subst same
    rw [State.evtCore_setEvtCore, EvtCore.pend, h]
    exact p
  · rw [State.evtCore_setEvtCore_ne same]
    exact p

/-- The same calibration slot and overhead (10 R270). -/
def SeatTraf.SameSlot (v w : SeatTraf) : Prop := w.calOff = v.calOff ∧ w.calLen = v.calLen ∧ w.overhead = v.overhead

theorem SeatTraf.sameSlot_settle (v : SeatTraf) (now : Nat) : v.SameSlot (v.settle now) := by
  have applied : v.SameSlot (match v.nextSchedule with
      | some (u, l, o) => if u ≤ now then { v with applied := l, appliedOverhead := o, nextSchedule := none, fallback := false } else v
      | none => v) := by
    split
    · split
      · exact ⟨rfl, rfl, rfl⟩
      · exact ⟨rfl, rfl, rfl⟩
    · exact ⟨rfl, rfl, rfl⟩
  unfold SeatTraf.settle
  dsimp only
  split
  · exact applied
  · exact applied

/-- Every seat has its calibration slot and overhead still. -/
def SlotsKept (s t : State) : Prop := ∀ x, (s.seatTraf x).SameSlot (t.seatTraf x)

theorem SlotsKept.rfl' : SlotsKept s s := fun _ => ⟨rfl, rfl, rfl⟩

theorem SlotsKept.trans (h : SlotsKept s t) (h' : SlotsKept t u) : SlotsKept s u := fun x => by
  obtain ⟨off, len, overhead⟩ := h x
  obtain ⟨off', len', overhead'⟩ := h' x
  exact ⟨off'.trans off, len'.trans len, overhead'.trans overhead⟩

theorem Keep.slotsKept (h : Keep K s t) (traffic : K.testBit 30 = true) : SlotsKept s t := fun x => by
  rw [h.seatTraf traffic]
  exact ⟨rfl, rfl, rfl⟩

theorem State.seatTraf_setSeatTraf_ne {x y : Seat} {v : SeatTraf} (h : y ≠ x) : (s.setSeatTraf x v).seatTraf y = s.seatTraf y :=
  tget_tset_ne _ _ _ _ (Fin.val_ne_of_ne h)

theorem slotsKept_setSeatTraf {x : Seat} {v : SeatTraf} (h : (s.seatTraf x).SameSlot v) : SlotsKept s (s.setSeatTraf x v) := by
  intro y
  by_cases same : y = x
  · subst same
    rw [State.seatTraf_setSeatTraf]
    exact h
  · rw [State.seatTraf_setSeatTraf_ne same]
    exact ⟨rfl, rfl, rfl⟩

theorem slotsKept_settleGate {x : Seat} : SlotsKept s (s.settleGate x) := by
  have tagged : SlotsKept s (s.tagHeads x).1 := State.tagHeads_keep.slotsKept (by decide)
  unfold State.settleGate
  dsimp only
  exact tagged.trans (slotsKept_setSeatTraf (SeatTraf.sameSlot_settle _ _))

/-- Events may have been raised; groups, resequencers and calibration slots are as they were. -/
structure Calm (s t : State) : Prop where
  pends : Pends s t
  slots : SlotsKept s t
  groups : ∀ c, (t.fabCore c).groups = (s.fabCore c).groups
  reseq : ∀ c, (t.fabCore c).reseq = (s.fabCore c).reseq

theorem Calm.rfl' : Calm s s := ⟨Pends.rfl', SlotsKept.rfl', fun _ => rfl, fun _ => rfl⟩

theorem Calm.trans (h : Calm s t) (h' : Calm t u) : Calm s u :=
  ⟨h.pends.trans h'.pends, h.slots.trans h'.slots, fun c => (h'.groups c).trans (h.groups c), fun c => (h'.reseq c).trans (h.reseq c)⟩

theorem Keep.calm (h : Keep K s t) (events : K.testBit 13 = true) (fab : K.testBit 29 = true)
    (traffic : K.testBit 30 = true) : Calm s t :=
  ⟨h.pends events, h.slotsKept traffic, fun c => by rw [h.fabCore fab], fun c => by rw [h.fabCore fab]⟩

/-- What raises events and keeps the fabric. -/
theorem Pends.calm (h : Pends s t) (kept : Keep K s t) (fab : K.testBit 29 = true) (traffic : K.testBit 30 = true) : Calm s t :=
  ⟨h, kept.slotsKept traffic, fun c => by rw [kept.fabCore fab], fun c => by rw [kept.fabCore fab]⟩

theorem Calm.foldl {α : Type} {g : State → α → State} (each : ∀ s a, Calm s (g s a)) (l : List α) (s : State) :
    Calm s (l.foldl g s) := by
  induction l generalizing s with
  | nil => exact Calm.rfl'
  | cons a l ih => exact (each s a).trans (ih _)

theorem Calm.ite {p : Prop} [Decidable p] (ht : Calm s t) (hu : Calm s u) : Calm s (if p then t else u) := by
  split <;> assumption

/-! ### Events and counters -/

theorem raises_edge : Raises s (s.edge c n) := by
  unfold State.edge
  dsimp only
  split
  · exact raises_setEvtCore EvtCore.raises_setPend
  · exact (raises_setEvtCore EvtCore.raises_setPend).trans raises_wakeTarget

/-- An edge leaves its source pending. -/
theorem State.pend_edge : (((s.edge c n).evtCore c).pend (n / 64)).getLsbD (n % 64) = true := by
  have after {t : State} (h : Raises (s.setEvtCore c ((s.evtCore c).setPend n true)) t) :
      ((t.evtCore c).pend (n / 64)).getLsbD (n % 64) = true := by
    have raised := h c
    rw [State.evtCore_setEvtCore] at raised
    exact raised.2 _ _ EvtCore.pend_setPend_self
  unfold State.edge
  dsimp only
  split
  · exact after Raises.rfl'
  · exact after raises_wakeTarget

theorem calm_edge : Calm s (s.edge c n) := raises_edge.pends.calm State.edge_keep (by decide) (by decide)

theorem pends_privEdge {k : Nat} : Pends s (s.privEdge c n k) := by
  unfold State.privEdge
  dsimp only
  have set : Pends s (s.setEvtCore c ((s.evtCore c).setPriv n k true)) := pends_setEvtCore rfl
  split
  · exact set
  · exact set.trans raises_wakeTarget.pends

theorem pends_sample {k : Nat} {at' : Option SampleAt} : Pends s (s.sample c k at') := by
  unfold State.sample
  split
  · exact Pends.rfl'
  · split
    · exact State.setCntCore_keep.pends (by decide)
    · dsimp only
      refine Pends.trans ?_ pends_privEdge
      exact State.setCntCore_keep.pends (by decide)

/-- A counter that goes over its end. -/
def State.counterEnds (s : State) (c : CoreId) (n : Nat) (sel : W64) (at' : Option SampleAt) : State :=
  let k := s.cntCore c
  let s := s.setCntCore c { k with select := tset k.select n (sel ||| (1#64 <<< 63)) 0x2000000000000000 }
  let s := s.edge c (856 + n / 16)
  if sel.getLsbD 62 then
    s.sample c (if sampleOwn sel then bits sel.toNat 31 16 else bits sel.toNat 61 56) at'
  else s

theorem pends_counterEnds {sel : W64} {at' : Option SampleAt} : Pends s (s.counterEnds c n sel at') := by
  unfold State.counterEnds
  dsimp only
  have edge (v : CntCore) : Pends s ((s.setCntCore c v).edge c (856 + n / 16)) :=
    (State.setCntCore_keep.pends (by decide)).trans raises_edge.pends
  split
  · exact (edge _).trans pends_sample
  · exact edge _

theorem State.addCounter_eq {m : Nat} {at' : Option SampleAt} : s.addCounter c n m at' =
    (let v := tget (s.cntCore c).value n 0 + m
    let t := s.setCntCore c { s.cntCore c with value := tset (s.cntCore c).value n (v % 2 ^ 48) 0 }
    if v < 2 ^ 48 then t else t.counterEnds c n ((s.cntCore c).sel n) at') := rfl

theorem pends_addCounter {m : Nat} {at' : Option SampleAt} : Pends s (s.addCounter c n m at') := by
  rw [State.addCounter_eq]
  dsimp only
  split
  · exact State.setCntCore_keep.pends (by decide)
  · exact (State.setCntCore_keep.pends (by decide)).trans pends_counterEnds

theorem calm_count {ev m : Nat} {ctx : List (Nat × Nat)} : Calm s (s.count c ev ctx m) := by
  refine Pends.calm ?_ State.count_keep (by decide) (by decide)
  unfold State.count State.countAt
  split
  · refine Pends.foldl (fun s e => ?_) _ s
    dsimp only
    split
    · exact pends_addCounter
    · exact Pends.rfl'
  · exact Pends.rfl'

theorem calm_wake : Calm s (s.wake c n) := by
  have woken : Calm s (s.wake0 c n).1 := State.wake0_keep.calm (by decide) (by decide) (by decide)
  unfold State.wake
  dsimp only
  split
  · exact woken.trans (calm_edge.trans calm_count)
  · exact woken

/-! ### The fabric -/

theorem State.fabCore_setFabCore_ne {v : FabCore} (h : d ≠ c) : (s.setFabCore c v).fabCore d = s.fabCore d := by
  cases c <;> cases d <;> simp_all [State.fabCore, State.setFabCore, State.setFab]

theorem calm_setFabCore {v : FabCore} (groups : v.groups = (s.fabCore c).groups) (reseq : v.reseq = (s.fabCore c).reseq) :
    Calm s (s.setFabCore c v) := by
  refine ⟨State.setFabCore_keep.pends (by decide), State.setFabCore_keep.slotsKept (by decide), fun d => ?_, fun d => ?_⟩
  · by_cases same : d = c
    · rw [same, State.fabCore_setFabCore, groups]
    · rw [State.fabCore_setFabCore_ne same]
  · by_cases same : d = c
    · rw [same, State.fabCore_setFabCore, reseq]
    · rw [State.fabCore_setFabCore_ne same]

theorem calm_setFabPort {v : FabPort} : Calm s (s.setFabPort c o v) := calm_setFabCore rfl rfl

theorem calm_wakeOutput : Calm s (s.wakeOutput c o) := by
  unfold State.wakeOutput
  split
  · exact calm_wake
  · exact Calm.rfl'

theorem calm_poolAlarm : Calm s (u.poolAlarm s c) := by
  unfold State.poolAlarm
  dsimp only
  split
  · exact calm_edge
  · exact Calm.rfl'

theorem calm_noteRefusal {cls : Nat} : Calm s (s.noteRefusal c o cls) := by
  unfold State.noteRefusal
  dsimp only
  have noted {v : FabCore} (h : Calm s (s.setFabCore c v)) : Calm s ((s.setFabCore c v).count c 0x041 [(4, o), (5, cls)] 1) :=
    h.trans calm_count
  refine Calm.ite ?_ ?_
  · refine (noted ?_).trans calm_edge
    exact calm_setFabCore rfl rfl
  · refine noted ?_
    exact calm_setFabCore rfl rfl

theorem calm_discardAt : Calm s (s.discardAt c o) := calm_setFabPort.trans calm_count

theorem calm_chargeFrame {f : FabFrame} : Calm s (s.chargeFrame c f) := by
  unfold State.chargeFrame
  dsimp only
  refine Calm.trans ?_ (Calm.foldl (fun s o => calm_setFabPort) _ _)
  split
  · exact Calm.rfl'
  · exact calm_setFabCore rfl rfl
  · exact calm_setFabCore rfl rfl

theorem calm_numberFrame : Calm s (s.numberFrame c n) := by
  unfold State.numberFrame
  refine Calm.foldl (fun s o => ?_) _ _
  dsimp only
  split
  · exact calm_setFabCore rfl rfl
  · exact Calm.rfl'

theorem calm_storeFrame {f : FabFrame} : Calm s (s.storeFrame c f).2 := by
  unfold State.storeFrame
  dsimp only
  refine Calm.trans ?_ calm_numberFrame
  refine Calm.trans ?_ calm_poolAlarm
  refine Calm.trans ?_ (Calm.foldl (fun s o => calm_count.trans calm_wakeOutput) _ _)
  refine Calm.trans ?_ calm_chargeFrame
  exact calm_setFabCore rfl rfl

theorem calm_bwCount {out : Bool} {bytes : Nat} : Calm s (s.bwCount c o out bytes) :=
  State.bwCount_keep.calm (by decide) (by decide) (by decide)

theorem calm_allowIn {input acct : Nat} {cls : Fin 8} {data : List Byte} : Calm s (s.allowIn c input o cls acct data).2 := by
  unfold State.allowIn
  split
  · exact calm_noteRefusal
  · exact calm_storeFrame.trans calm_bwCount

theorem calm_offerGroup {g : Fin 256} {seats : List Seat} {cls : Fin 8} {h : Hand} : Calm s (s.offerGroup c g seats cls h).2 := by
  unfold State.offerGroup
  dsimp only
  split
  · exact calm_discardAt
  · split
    · exact calm_noteRefusal
    · exact (calm_storeFrame.trans calm_bwCount).trans (Calm.foldl (fun s o => calm_setFabPort) _ _)

theorem calm_enterTun {x : Seat} {k : Tunnel} {f : TxFrame} : Calm s (s.enterTun x k f) := by
  refine ⟨State.enterTun_keep.pends (by decide), ?_, fun c => ?_, fun c => ?_⟩
  · unfold State.enterTun
    exact slotsKept_settleGate.trans ((State.setTun_keep.slotsKept (by decide)).trans (State.tagHeads_keep.slotsKept (by decide)))
  · rw [State.enterTun_keep.fabCore (by decide)]
  · rw [State.enterTun_keep.fabCore (by decide)]

/-- A frame offered to one seat's output. -/
def State.offerSeat (s : State) (c : CoreId) (k : KeptFrame) (x : Seat) (ok : Bool) : Bool × State :=
  let (n, s) := s.allowIn c k.hand.input x.val (toFin 7 k.tn.cls) k.hand.acct k.hand.bytes
  match n with
  | some n => (ok, s.enterTun x k.tn (k.hand.frame n))
  | none => (false, s)

theorem calm_offerSeat {k : KeptFrame} {x : Seat} {ok : Bool} : Calm s (s.offerSeat c k x ok).2 := by
  unfold State.offerSeat
  dsimp only
  split
  · exact calm_allowIn.trans calm_enterTun
  · exact calm_allowIn

theorem calm_offerSeats {k : KeptFrame} (l : List Seat) (a : Bool × State) :
    Calm a.2 (l.foldl (fun a x => a.2.offerSeat c k x a.1) a).2 := by
  induction l generalizing a with
  | nil => exact Calm.rfl'
  | cons x l ih => exact calm_offerSeat.trans (ih _)

theorem calm_putFrame {k : KeptFrame} : Calm s (s.putFrame c k).2 := by
  unfold State.putFrame
  split
  · exact calm_offerSeats k.seats (true, s)
  · dsimp only
    split
    · exact calm_offerGroup.trans (Calm.foldl (fun s x => calm_enterTun) _ _)
    · exact calm_offerGroup
    · exact calm_offerGroup

theorem calm_handIn {k : KeptFrame} : Calm s (s.handIn c k) := by
  have keep {t : State} : Calm t (t.setFabCore c { t.fabCore c with kept := (t.fabCore c).kept ++ [k] }) :=
    calm_setFabCore rfl rfl
  unfold State.handIn
  dsimp only
  split
  · exact keep
  · split
    · exact calm_putFrame
    · exact calm_putFrame.trans keep

theorem calm_queueFrame {x : Seat} {k : Tunnel} {h : Hand} : Calm s (s.queueFrame x k h) := calm_handIn

/-! ### Configurations and copies of frames -/

theorem calm_setDisp {v : DispSt2} : Calm s (s.setDisp v) := by
  refine ⟨fun c w b p => ?_, fun x => ⟨rfl, rfl, rfl⟩, fun c => ?_, fun c => ?_⟩ <;> cases c
  · exact p
  · exact p
  · rfl
  · rfl
  · rfl
  · rfl

theorem calm_sendOwed {h : HeadNo} {now : Bool} : Calm s (s.sendOwed h now) := by
  have view {t : State} {v : ViewSt} : Calm t (t.setView h v) := State.setView_keep.calm (by decide) (by decide) (by decide)
  have config {t : State} {k : Option Nat} : Calm t (t.configFor h k) := by
    unfold State.configFor State.sendConfig State.sendDisp
    dsimp only
    refine Calm.trans ?_ calm_queueFrame
    refine Calm.trans ?_ view
    exact calm_setDisp
  unfold State.sendOwed
  split
  · split
    · dsimp only
      split
      · exact view.trans config
      · exact view
    · exact Calm.rfl'
  · exact Calm.rfl'

theorem calm_castSlice {h : HeadNo} {l : Fin 2} {ready : List HeadNo} {hs : List Hand} :
    Calm s (s.castSlice c h l ready hs) := by
  unfold State.castSlice
  exact Calm.foldl (fun s m => calm_handIn) _ _

theorem calm_pend {h : HeadNo} {k : Nat} : Calm s (s.pend h k) := by
  have view {v : ViewSt} : Calm s (s.setView h v) := State.setView_keep.calm (by decide) (by decide) (by decide)
  unfold State.pend
  dsimp only
  split
  · exact Calm.rfl'
  · split
    · exact view.trans calm_count
    · exact view

theorem calm_copyArrives {g : Fin 256} {acct l : Nat} {ends : Bool} {data : List Byte} :
    Calm s (s.copyArrives c g acct l ends data) := by
  unfold State.copyArrives
  dsimp only
  refine Calm.ite ?_ ?_
  · refine Calm.trans ?_ (Calm.foldl (fun s o => calm_pend) _ _)
    refine Calm.trans ?_ calm_setDisp
    refine Calm.ite calm_setDisp ?_
    exact calm_setDisp.trans calm_castSlice
  · refine Calm.ite calm_setDisp ?_
    exact calm_setDisp.trans calm_castSlice

theorem calm_passOn : Calm s (s.passOn c n) := by
  unfold State.passOn
  dsimp only
  split
  · split
    · refine Calm.trans ?_ calm_copyArrives
      exact calm_setFabCore rfl rfl
    · exact calm_setFabCore rfl rfl
  · exact calm_setFabCore rfl rfl

theorem calm_enterOwn : Calm s (s.enterOwn c o n) := by
  unfold State.enterOwn State.enterQueue
  split
  · dsimp only
    split
    · exact calm_enterTun
    · exact calm_setFabPort
  · exact Calm.rfl'

end calm

end Sys2Proof.Machine

/-! PROOFS. The cell fabric (09 R249 to R258, R262, R263). -/

namespace Sys2Proof.Machine

/-! ### A cell time (R249) -/

section cells
variable {s u : State} {c : CoreId} {i o n key : Nat} {v : FabPort} {x : StagedCell}

theorem State.setFabCore_self : s.setFabCore c (s.fabCore c) = s := by
  cases c <;> rfl

theorem State.offerKept_of_none (none : (s.fabCore c).kept = []) : s.offerKept c = s := by
  have same : { s.fabCore c with kept := [] } = s.fabCore c := by
    rw [← none]
  unfold State.offerKept
  rw [none, same]
  exact State.setFabCore_self

theorem State.fabPort_of_only (only : (s.fabCore c).ports = [(i, v)]) : s.fabPort c i = v := by
  rw [State.fabPort, only]
  simp [tget]

theorem State.fabPort_setFabPort_ne (other : i ≠ o) : (s.setFabPort c o v).fabPort c i = s.fabPort c i := by
  rw [State.setFabPort, State.fabPort, State.fabPort, State.fabCore_setFabCore]
  exact tget_tset_ne _ _ _ _ other

/-- The match of the one cell that waits at the one input. -/
def oneMatch (i o : Nat) : Match := { input := i, cell := 0, outs := [o] }

theorem State.matchRound_one (staged : (s.fabPort c i).staging = [x]) (left : x.left = [o]) :
    s.matchRound c [i] [] = [oneMatch i o] := by
  unfold State.matchRound
  have outs : [o].eraseDups = [o] := rfl
  simp only [staged, left, List.map_cons, List.map_nil, List.any_nil, Bool.not_false, List.filter_true, List.flatten_cons,
    List.flatten_nil, List.append_nil, List.contains_nil, outs, List.filterMap_cons, List.filterMap_nil, List.any_cons,
    List.contains_cons, beq_self_eq_true, Bool.true_or, Bool.or_false, List.filter_cons, List.filter_nil, if_true, atOrAfter,
    Option.map_some, List.getElem?_cons_zero, List.isEmpty_cons, Bool.false_eq_true, if_false, ite_self]
  rfl

theorem State.matchRound_done {m : Match} (mine : m.input = i) {l : List Match} (mem : m ∈ l) : s.matchRound c [i] l = [] := by
  unfold State.matchRound
  have none : ([i].filter fun i => !(l.any fun m => m.input == i)) = [] := by
    simp
    exact ⟨m, mem, mine⟩
  rw [none]
  rfl

/-- The pointers after the one match. -/
theorem State.movePointers_one : s.movePointers c [oneMatch i o] =
    (let t := s.setFabPort c o { s.fabPort c o with grantPtr := (i + 1) % 160 }
    t.setFabPort c i { t.fabPort c i with acceptPtr := (o + 1) % 160 }) := rfl

/-- The one cell crosses, and its frame has landed with its last cell. -/
theorem State.crossCells_one (staged : (s.fabPort c i).staging = [x]) (left : x.left = [o]) :
    s.crossCells c [oneMatch i o] =
      (let t := s.setFabPort c i { s.fabPort c i with staging := [] }
      if x.last then t.setFabCore c { t.fabCore c with landed := (t.fabCore c).landed ++ [(x.frame, o)] } else t) := by
  unfold State.crossCells oneMatch
  simp [staged, left]

/-- The ports that hold a cell. -/
def State.waiting (s : State) (c : CoreId) : List Nat :=
  ((s.fabCore c).ports.filter fun p => !p.2.staging.isEmpty).map (·.1)

/-- The three rounds of a match, and the crossing of what they match (R249). -/
def State.crossing (s : State) (c : CoreId) : State :=
  let inputs := s.waiting c
  let m1 := s.matchRound c inputs []
  let m2 := s.matchRound c inputs m1
  let m3 := s.matchRound c inputs (m1 ++ m2)
  let all := inputs.filterMap fun i => (m1 ++ m2 ++ m3).find? fun m => m.input == i
  (s.movePointers c m1).crossCells c all

/-- The outputs send for a cell time. -/
def State.sending (s : State) (c : CoreId) : State :=
  ((s.fabCore c).ports.filter fun p => decide (64 ≤ p.1)).foldl (fun s p => s.sendCellTime c p.1) s

theorem State.cellTime_eq : s.cellTime c [] = ((s.offerKept c).sending c).crossing c := rfl

/-- Where one cell waits, that cell is matched. -/
theorem State.crossing_one (wait : s.waiting c = [i]) (staged : (s.fabPort c i).staging = [x]) (left : x.left = [o]) :
    s.crossing c = (s.movePointers c [oneMatch i o]).crossCells c [oneMatch i o] := by
  have mem : oneMatch i o ∈ [oneMatch i o] := List.mem_singleton.mpr rfl
  have first := State.matchRound_one staged left
  have rest : s.matchRound c [i] [oneMatch i o] = [] := State.matchRound_done (m := oneMatch i o) rfl mem
  unfold State.crossing
  rw [wait]
  dsimp only
  rw [first, rest, List.append_nil, rest, List.append_nil]
  simp [oneMatch]

theorem State.crossing_none (wait : s.waiting c = []) : s.crossing c = s := by
  unfold State.crossing
  rw [wait]
  rfl

theorem yields_cellTime_cell (serves : s.serves c = true) (only : (s.fabCore c).ports = [(i, v)])
    (none : (s.fabCore c).kept = []) (input : i < 64) (staged : v.staging = [x]) (left : x.left = [o]) :
    Yields (.cellTime c []) s fun t => (t.fabPort c i).staging = [] ∧
      (t.fabPort c i).acceptPtr = (o + 1) % 160 ∧ (t.fabPort c o).grantPtr = (i + 1) % 160 ∧
      (t.fabCore c).landed = (s.fabCore c).landed ++ (if x.last then [(x.frame, o)] else []) := by
  refine ⟨_, congrArg Host.Outcome.next (if_pos serves), ?_⟩
  have sends : s.sending c = s := by
    simp [State.sending, only, input]
  have wait : s.waiting c = [i] := by
    simp [State.waiting, only, staged]
  have port := State.fabPort_of_only only
  rw [State.cellTime_eq, State.offerKept_of_none none, sends, State.crossing_one wait (by rw [port, staged]) left,
    State.movePointers_one]
  dsimp only
  generalize granted : s.setFabPort c o { s.fabPort c o with grantPtr := (i + 1) % 160 } = w
  have grant : (w.fabPort c o).grantPtr = (i + 1) % 160 := by rw [← granted, State.fabPort_setFabPort]
  have same : (w.fabPort c i).staging = [x] := by
    rw [← granted]
    by_cases own : i = o
    · rw [own, State.fabPort_setFabPort, ← own, port, staged]
    · rw [State.fabPort_setFabPort_ne own, port, staged]
  have landed : (w.fabCore c).landed = (s.fabCore c).landed := by
    rw [← granted, State.setFabPort, State.fabCore_setFabCore]
  generalize accepted : w.setFabPort c i { w.fabPort c i with acceptPtr := (o + 1) % 160 } = z
  have zi : z.fabPort c i = { w.fabPort c i with acceptPtr := (o + 1) % 160 } := by rw [← accepted, State.fabPort_setFabPort]
  have zo : (z.fabPort c o).grantPtr = (i + 1) % 160 := by
    by_cases own : o = i
    · subst own
      rw [zi, grant]
    · rw [← accepted, State.fabPort_setFabPort_ne own, grant]
  have zLanded : (z.fabCore c).landed = (s.fabCore c).landed := by
    rw [← accepted, State.setFabPort, State.fabCore_setFabCore, landed]
  rw [State.crossCells_one (by rw [zi, same]) left]
  dsimp only
  generalize crossed : z.setFabPort c i { z.fabPort c i with staging := [] } = y
  have yi : y.fabPort c i = { z.fabPort c i with staging := [] } := by rw [← crossed, State.fabPort_setFabPort]
  have yo : (y.fabPort c o).grantPtr = (i + 1) % 160 := by
    by_cases own : o = i
    · subst own
      rw [yi, zo]
    · rw [← crossed, State.fabPort_setFabPort_ne own, zo]
  have yLanded : (y.fabCore c).landed = (s.fabCore c).landed := by
    rw [← crossed, State.setFabPort, State.fabCore_setFabCore, zLanded]
  have ports {l : List (Nat × Nat)} (p : Nat) : (y.setFabCore c { y.fabCore c with landed := l }).fabPort c p = y.fabPort c p := by
    rw [State.fabPort, State.fabCore_setFabCore]
    rfl
  split
  · rw [ports, ports, State.fabCore_setFabCore, yi, yo, zi, yLanded]
    exact ⟨rfl, rfl, rfl, rfl⟩
  · rw [yi, yo, zi, yLanded, List.append_nil]
    exact ⟨rfl, rfl, rfl, rfl⟩

theorem yields_cellTime_sending (serves : s.serves c = true) (only : (s.fabCore c).ports = [(o, v)])
    (none : (s.fabCore c).kept = []) (output : 64 ≤ o) (up : v.state = .up) (staged : v.staging = [])
    (sending : v.sending = some (key, n + 2)) : Yields (.cellTime c []) s fun t =>
      (t.fabPort c o).sending = some (key, n + 1) := by
  refine ⟨_, congrArg Host.Outcome.next (if_pos serves), ?_⟩
  have port := State.fabPort_of_only only
  have sends : s.sending c = s.setFabPort c o { v with sending := some (key, n + 1) } := by
    have one : ((s.fabCore c).ports.filter fun p => decide (64 ≤ p.1)) = [(o, v)] := by
      simp [only, output]
    rw [State.sending, one]
    dsimp only [List.foldl]
    rw [State.sendCellTime, port, if_neg (not_not_intro up), sending]
    rfl
  have wait : (s.setFabPort c o { v with sending := some (key, n + 1) }).waiting c = [] := by
    rw [State.waiting, State.setFabPort, State.fabCore_setFabCore]
    dsimp only
    rw [only, tset]
    split
    · simp [terase]
    · simp [tput, staged]
  rw [State.cellTime_eq, State.offerKept_of_none none, sends, State.crossing_none wait]
  dsimp only
  rw [State.fabPort_setFabPort]

end cells

end Sys2Proof.Machine

/-! PROOFS. The fabric's frames, resequencers, groups and minimums. -/

namespace Sys2Proof.Machine

section fabric
variable {s u : State} {c d : CoreId} {o p k key ut : Nat} {v : W64}

theorem State.fabPort_setFabCore {x : FabCore} (p : Nat) :
    (s.setFabCore c x).fabPort c p = tget x.ports p (FabPort.init (c == .b) p) := by
  rw [State.fabPort, State.fabCore_setFabCore]

/-- A frame that has landed with a good verdict from a port of its own enters its output's queue (R252). -/
theorem yields_frameVerdict {p : Fin 160} {f : FabFrame} (serves : s.serves c = true) (landed : (s.fabCore c).landed = [(k, o)])
    (frame : tget (s.fabCore c).frames k FabFrame.none_ = f) (input : f.input = p.val) (own : trunkOf f.input = none)
    (output : 64 ≤ o) (good : f.verdict = some true) : Yields (.frameVerdict c p) s fun t => (t.fabCore c).landed = [] ∧
      tget (t.fabPort c o).queues f.cls.val [] = tget (s.fabPort c o).queues f.cls.val [] ++ [k] := by
  refine ⟨_, congrArg Host.Outcome.next (if_pos serves), ?_⟩
  generalize taken : s.setFabCore c { s.fabCore c with landed := [] } = w
  have core : w.fabCore c = { s.fabCore c with landed := [] } := by rw [← taken, State.fabCore_setFabCore]
  have port : w.fabPort c o = s.fabPort c o := by
    rw [← taken]
    exact State.fabPort_setFabCore o
  have queued : s.landFrames c p.val = w.setFabPort c o { w.fabPort c o with
      queues := tset (w.fabPort c o).queues f.cls.val (tget (w.fabPort c o).queues f.cls.val [] ++ [k]) [] } := by
    unfold State.landFrames
    dsimp only
    rw [landed, if_pos (by simp [frame, input])]
    simp only [upTo, frame, input, beq_self_eq_true, if_true, List.length_singleton, List.drop_succ_cons, List.drop_zero, taken,
      List.foldl_cons, List.foldl_nil]
    rw [State.verdictOf, core]
    dsimp only
    rw [frame, good]
    dsimp only
    rw [State.passReseq, core]
    dsimp only
    rw [frame, own]
    dsimp only
    rw [if_pos rfl, State.enterQueue, core, if_neg (not_lt.mpr output)]
    dsimp only
    rw [frame]
  rw [queued]
  dsimp only
  rw [State.fabPort_setFabPort, State.setFabPort, State.fabCore_setFabCore, port, core]
  exact ⟨rfl, tget_tset_same _ _ _ _⟩

/-! ### Resequencers (R255) -/

theorem asOne_lt {n : Nat} (h : n < 160) : asOne n < 160 := by
  have first (t : Fin 3) : (trunkPorts t).headD 0 < 160 := by
    revert t
    decide
  unfold asOne
  split
  · exact first _
  · exact h

theorem intoKey_ne_outOfKey (i : Nat) (h : i < 160) (j l : Fin 3) (m : Fin 8) : intoKey i j m.val ≠ outOfKey o l k := by
  have low := asOne_lt h
  unfold intoKey outOfKey
  omega

/-- A resequencer that has waited long enough gives up, and is calm otherwise (R255). -/
theorem State.reseqTimeout_waited {t0 : Nat} {use : State → Nat → State} (calm : ∀ s f, Calm s (use s f))
    (since : ((s.fabCore c).reseqAt key).since = some t0) (late : t0 + 10000 ≤ s.ut c) :
    ((s.reseqTimeout c key use).fabCore c).reseqAt key = (((s.fabCore c).reseqAt key).giveUp (s.ut c)).2 ∧
      (((s.reseqTimeout c key use).evtCore c).pend 4).getLsbD 57 = true := by
  unfold State.reseqTimeout
  dsimp only
  rw [since]
  dsimp only
  rw [if_pos late]
  generalize given : s.setFabCore c { s.fabCore c with
    reseq := tset (s.fabCore c).reseq key (((s.fabCore c).reseqAt key).giveUp (s.ut c)).2 ReseqSt.init } = w
  have stored : (w.fabCore c).reseqAt key = (((s.fabCore c).reseqAt key).giveUp (s.ut c)).2 := by
    rw [← given, State.fabCore_setFabCore]
    exact tget_tset_same _ _ _ _
  have used : Calm (w.edge c 313) ((((s.fabCore c).reseqAt key).giveUp (s.ut c)).1.foldl use ((w.edge c 313).count c 0x043 [] 1)) :=
    calm_count.trans (Calm.foldl calm _ _)
  refine ⟨?_, used.pends _ _ _ State.pend_edge⟩
  rw [FabCore.reseqAt, used.reseq, calm_edge.reseq]
  exact stored

/-- The timeout of one resequencer leaves every other, and what is pending. -/
theorem State.reseqTimeout_other {use : State → Nat → State} (calm : ∀ s f, Calm s (use s f)) {other : Nat} (ne : other ≠ key) :
    ((s.reseqTimeout c key use).fabCore c).reseqAt other = (s.fabCore c).reseqAt other ∧ Pends s (s.reseqTimeout c key use) := by
  unfold State.reseqTimeout
  dsimp only
  split
  · exact ⟨rfl, Pends.rfl'⟩
  · split
    · generalize given : s.setFabCore c { s.fabCore c with
        reseq := tset (s.fabCore c).reseq key (((s.fabCore c).reseqAt key).giveUp (s.ut c)).2 ReseqSt.init } = w
      have kept : Pends s w := by
        rw [← given]
        exact State.setFabCore_keep.pends (by decide)
      have same : (w.fabCore c).reseqAt other = (s.fabCore c).reseqAt other := by
        rw [← given, State.fabCore_setFabCore]
        exact tget_tset_ne _ _ _ _ ne
      have used : Calm w ((((s.fabCore c).reseqAt key).giveUp (s.ut c)).1.foldl use ((w.edge c 313).count c 0x043 [] 1)) :=
        calm_edge.trans (calm_count.trans (Calm.foldl calm _ _))
      refine ⟨?_, kept.trans used.pends⟩
      rw [FabCore.reseqAt, used.reseq]
      exact same
    · exact ⟨rfl, Pends.rfl'⟩

theorem yields_resequencerTimeout {o : Fin 160} {j : Fin 3} {k : Fin 8} {t0 : Nat} (arrived : u = s.arrive ut)
    (since : ((u.fabCore c).reseqAt (outOfKey o.val j k.val)).since = some t0) (late : t0 + 10000 ≤ u.ut c) :
    Yields (.resequencerTimeout c o j k ut) s fun t =>
      (t.fabCore c).reseqAt (outOfKey o.val j k.val) = (((u.fabCore c).reseqAt (outOfKey o.val j k.val)).giveUp (u.ut c)).2 ∧
      ((t.evtCore c).pend 4).getLsbD 57 = true := by
  subst arrived
  refine ⟨_, rfl, ?_⟩
  obtain ⟨gave, pend⟩ := State.reseqTimeout_waited (fun s f => calm_enterOwn (o := o.val) (c := c)) since late
  obtain ⟨same, pends⟩ := State.reseqTimeout_other (s := (s.arrive ut).reseqTimeout c (outOfKey o.val j k.val) fun s f => s.enterOwn c o f)
    (c := c) (key := intoKey o.val j k.val) (fun s f => calm_passOn (c := c) (n := f))
    (intoKey_ne_outOfKey o.val o.isLt j j k).symm
  unfold State.reseqDue
  exact ⟨same.trans gave, pends _ _ _ pend⟩

/-! ### Groups (R257, R258) -/

theorem FabCore.group_setGroup (x : FabCore) (g : Nat) (y : GroupSt) : (x.setGroup g y).group g = y :=
  tget_tset_same _ _ _ _

/-- A generation's retirement changes only which generations are inside and which retired last. -/
theorem State.group_retireGroup (g : Nat) : ∃ inside retired,
    ((s.retireGroup c g).fabCore c).group g = { (s.fabCore c).group g with inside := inside, retired := retired } := by
  have edges (l : List Byte) (x : GroupSt) :
      ((l.foldl (fun s _ => s.edge c 316) (s.setFabCore c ((s.fabCore c).setGroup g x))).fabCore c).group g = x := by
    rw [FabCore.group, (Calm.foldl (fun s _ => calm_edge) _ _).groups, State.fabCore_setFabCore]
    exact FabCore.group_setGroup _ _ _
  unfold State.retireGroup
  dsimp only
  split
  · exact ⟨_, _, rfl⟩
  · exact ⟨_, _, edges _ _⟩

theorem State.group_landGroup {g : Nat} {seats : W64} {valid causeway : Bool} : ∃ inside retired,
    ((s.landGroup c g seats valid causeway).fabCore c).group g = { (s.fabCore c).group g with
      seats := seats, staged := seats, valid := valid, causeway := causeway, gen := ((s.fabCore c).group g).gen + 1,
      inside := inside, retired := retired } := by
  obtain ⟨inside, retired, group⟩ := State.group_retireGroup (c := c) g (s := s.setFabCore c ((s.fabCore c).setGroup g
    { (s.fabCore c).group g with
      seats := seats, staged := seats, valid := valid, causeway := causeway, gen := ((s.fabCore c).group g).gen + 1,
      inside := ((s.fabCore c).group g).inside ++ [((s.fabCore c).group g).gen] }))
  rw [State.fabCore_setFabCore, FabCore.group_setGroup] at group
  exact ⟨inside, retired, group⟩

/-- The one generation inside a group retires once no frame of it is left (R258). -/
theorem State.retireGroup_one {g : Nat} {n : Byte} (inside : ((s.fabCore c).group g).inside = [n])
    (left : (s.fabCore c).genInside g n = false) :
    s.retireGroup c g = (s.setFabCore c ((s.fabCore c).setGroup g
      { (s.fabCore c).group g with inside := [], retired := n })).edge c 316 := by
  unfold State.retireGroup
  simp [inside, left]

theorem yields_generationRetire {g : Fin 256} {n : Byte} (inside : ((s.fabCore c).group g.val).inside = [n])
    (left : (s.fabCore c).genInside g.val n = false) : Yields (.generationRetire c g) s fun t =>
      (t.fabCore c).group g.val = { (s.fabCore c).group g.val with inside := [], retired := n } ∧
        ((t.evtCore c).pend 4).getLsbD 60 = true := by
  refine ⟨_, rfl, ?_⟩
  have sends (w : State) : Calm w (w.disp.views.foldl (fun s e =>
      if e.2.owed.any (fun w => w.1 == c && w.2.1.val == g.val) then s.sendOwed (toHead e.1) false else s) w) :=
    Calm.foldl (fun s e => Calm.ite calm_sendOwed Calm.rfl') _ _
  unfold State.generationsRetire
  rw [State.retireGroup_one inside left]
  dsimp only
  refine ⟨?_, (sends _).pends _ _ _ State.pend_edge⟩
  rw [FabCore.group, (sends _).groups, calm_edge.groups, State.fabCore_setFabCore]
  exact FabCore.group_setGroup _ _ _

/-! ### Minimums (R262, R263) -/

theorem State.fabOutMinWrite_eq {p : Fin 160} (seat : p.val < 154) : s.writeOutMin c p.val v =
    if (s.setFabPort c p.val { s.fabPort c p.val with outMin := v }).outMinSum c +
        (s.setFabPort c p.val { s.fabPort c p.val with outMin := v }).isletMinSum ≤ 524288 then
      s.poolAlarm (s.setFabPort c p.val { s.fabPort c p.val with outMin := v }) c
    else s.setFabCore c { s.fabCore c with refused := true } := by
  rw [State.writeOutMin, if_neg (not_le.mpr seat)]

theorem yields_fabOutMinWrite {w : Via} {p : Fin 160} {t0 : State} (heard : s.viaHeard w = true) (may : s.viaMay w = true)
    (seat : p.val < 154) (written : t0 = s.setFabPort c p.val { s.fabPort c p.val with outMin := v }) :
    (t0.outMinSum c + t0.isletMinSum ≤ 524288 → Yields (.fabOutMinWrite w c p v) s fun t => (t.fabPort c p.val).outMin = v ∧
      (t.fabCore c).refused = (s.fabCore c).refused) ∧
    (524288 < t0.outMinSum c + t0.isletMinSum → Yields (.fabOutMinWrite w c p v) s fun t =>
      (t.fabPort c p.val).outMin = (s.fabPort c p.val).outMin ∧ (t.fabCore c).refused = true) := by
  subst written
  have wrote : s.outMinWrite w c p.val v = s.writeOutMin c p.val v := by
    rw [State.outMinWrite, heard, may]
    rfl
  refine ⟨fun fits => ⟨_, rfl, ?_⟩, fun over_ => ⟨_, rfl, ?_⟩⟩
  · rw [wrote, State.fabOutMinWrite_eq seat, if_pos fits]
    dsimp only
    rw [State.poolAlarm_keep.fabPort (by decide), State.poolAlarm_keep.fabCore (by decide), State.fabPort_setFabPort,
      State.setFabPort, State.fabCore_setFabCore]
    exact ⟨rfl, rfl⟩
  · rw [wrote, State.fabOutMinWrite_eq seat, if_neg (not_le.mpr over_)]
    dsimp only
    rw [State.fabPort_setFabCore, State.fabCore_setFabCore]
    exact ⟨rfl, rfl⟩

end fabric

/-- Settles O26. One cell and one frame by evaluation of the rounds on the one port in use; the rest by the calm of whatever follows
a write, which leaves groups, resequencers and what is pending (`Calm`). -/
theorem fabricCommands : Obligations.FabricCommands := by
  unfold Obligations.FabricCommands
  refine ⟨fun c i o v x s serves only none input _ staged left => yields_cellTime_cell serves only none input staged left,
    fun c o v key n s serves only none output up staged sending => yields_cellTime_sending serves only none output up staged sending,
    fun c p k o f s serves landed frame input _ own output good => yields_frameVerdict serves landed frame input own output good,
    fun c o j k ut t0 s u arrived since late => yields_resequencerTimeout arrived since late,
    fun d c g v s serves => ⟨?_, ?_⟩, fun c g n s inside left => yields_generationRetire inside left,
    fun w c p v s t0 heard may seat written => yields_fabOutMinWrite heard may seat written, fun f c p v s up may => ?_⟩
  · have heard : s.viaHeard (.prog d) = true := by rw [State.viaHeard, serves]; rfl
    refine ⟨_, congrArg Host.Outcome.next (if_pos heard), ?_⟩
    rw [State.writeGroup]
    dsimp only
    rw [if_neg (by decide), State.fabCore_setFabCore, FabCore.group_setGroup]
    exact ⟨rfl, rfl⟩
  · have heard : s.viaHeard (.prog d) = true := by rw [State.viaHeard, serves]; rfl
    obtain ⟨inside, retired, group⟩ := State.group_landGroup (s := s) (c := c) (g := g.val)
      (seats := ((s.fabCore c).group g.val).staged) (valid := bit v.toNat 31) (causeway := bit v.toNat 30)
    refine ⟨_, congrArg Host.Outcome.next (if_pos heard), ?_⟩
    rw [State.writeGroup]
    dsimp only
    rw [if_pos rfl, group]
    exact ⟨rfl, rfl, rfl, rfl⟩
  · have refused : s.outMinWrite (.host f) c p.val v = s.setFabCore c { s.fabCore c with refused := true } := by
      rw [State.outMinWrite, State.viaHeard, up, State.viaMay, may]
      rfl
    refine ⟨_, rfl, ?_⟩
    rw [refused]
    dsimp only
    rw [State.fabPort_setFabCore, State.fabCore_setFabCore]
    exact ⟨rfl, rfl⟩

end Sys2Proof.Machine

/-! PROOFS. Gate schedules and the choice of the next frame on a seat's line (10 R267 to R273). -/

namespace Sys2Proof.Machine

/-! ### Writes of a seat's gate control (R268 to R270) -/

section gates
variable {s u : State} {x : Seat} {w : Via} {v : W64} {l : List (Nat × BitVec 6)} {ut : Nat}

theorem slotsKept_sendTimeBase : SlotsKept s (s.sendTimeBase x) := by
  unfold State.sendTimeBase State.sendSync
  dsimp only
  refine SlotsKept.trans ?_ calm_queueFrame.slots
  refine SlotsKept.trans ?_ (slotsKept_setSeatTraf ?_)
  · exact State.setSeatTime_keep.slotsKept (by decide)
  · exact ⟨rfl, rfl, rfl⟩

/-- What a write of the gate control sets before it applies a schedule. -/
def SeatTraf.controlled (z : SeatTraf) (v : W64) : SeatTraf :=
  { z with
    refused := rw1c z.refused (bit v.toNat 62), overhead := BitVec.ofNat 8 (bits v.toNat 55 48), calOff := bits v.toNat 19 0,
    calLen := bits v.toNat 44 32 }

theorem State.gateWrite_eq (heard : s.viaHeard w = true) (may : s.viaMay w = true) : s.gateWrite w x v = s.writeGate x v := by
  rw [State.gateWrite, heard, may]
  rfl

/-- A write that keeps the slot and applies the staged schedule. -/
theorem State.writeGate_applies (off : bits v.toNat 19 0 = ((s.settleGate x).seatTraf x).calOff)
    (len : bits v.toNat 44 32 = ((s.settleGate x).seatTraf x).calLen) (apply : bit v.toNat 61 = true) :
    s.writeGate x v = ((s.settleGate x).setSeatTraf x (((s.settleGate x).seatTraf x).controlled v)).applyGate x := by
  have same : decide (bits v.toNat 19 0 ≠ ((s.settleGate x).seatTraf x).calOff ∨
      bits v.toNat 44 32 ≠ ((s.settleGate x).seatTraf x).calLen) = false := by
    simp [off, len]
  unfold State.writeGate
  dsimp only
  rw [same, apply]
  rfl

theorem max_overhead : max 27 (BitVec.ofNat 8 (bits v.toNat 55 48)).toNat = max 27 (bits v.toNat 55 48) := by
  have small : bits v.toNat 55 48 < 2 ^ 8 := Nat.mod_lt _ (by decide)
  rw [BitVec.toNat_ofNat, Nat.mod_eq_of_lt small]

/-- The schedule that a write applies, when the staged one is fit or not (R269). -/
theorem State.applyGate_eq {z : SeatTraf} (traf : s.seatTraf x = z) (staged : z.staged = some l) : s.applyGate x =
    if scheduleShape l && fitCheck l (max 27 z.overhead.toNat) (s.fitRate x) (s.clearOf x) then
      s.setSeatTraf x { z with
        nextSchedule := some ((s.ut (s.servingCore x) / microFrame + 1) * microFrame, l, max 27 z.overhead.toNat) }
    else s.setSeatTraf x { z with refused := true } := by
  unfold State.applyGate
  dsimp only
  rw [traf, staged]

theorem yields_gateApply {z : SeatTraf} (heard : s.viaHeard w = true) (may : s.viaMay w = true) (traf : z = (s.settleGate x).seatTraf x)
    (off : bits v.toNat 19 0 = z.calOff) (len : bits v.toNat 44 32 = z.calLen) (apply : bit v.toNat 61 = true)
    (staged : z.staged = some l) :
    (scheduleShape l = true →
      fitCheck l (max 27 (bits v.toNat 55 48)) (s.fitRate x) (keepClear (z.calOff, z.calLen) (s.seatTime x).dDelay) = true →
      Yields (.gateApply w x v) s fun t => (t.seatTraf x).nextSchedule =
        some ((s.ut (s.servingCore x) / microFrame + 1) * microFrame, l, max 27 (bits v.toNat 55 48))) ∧
    (scheduleShape l = false → Yields (.gateApply w x v) s fun t => (t.seatTraf x).refused = true ∧
      (t.seatTraf x).nextSchedule = z.nextSchedule ∧ (t.seatTraf x).applied = z.applied) := by
  subst traf
  have wrote := (State.gateWrite_eq heard may).trans (State.writeGate_applies off len apply)
  generalize set : (s.settleGate x).setSeatTraf x (((s.settleGate x).seatTraf x).controlled v) = y at wrote
  have yTraf : y.seatTraf x = ((s.settleGate x).seatTraf x).controlled v := by rw [← set, State.seatTraf_setSeatTraf]
  have kept : Keep (2 ^ 0 + 2 ^ 20 + 2 ^ 21 + 2 ^ 42) s y := by
    rw [← set]
    exact Keep.step State.setSeatTraf_keep (by decide) (State.settleGate_keep.weaken (by decide))
  have applies := State.applyGate_eq (s := y) yTraf (l := l) staged
  refine ⟨fun shape fit => ⟨_, rfl, ?_⟩, fun shape => ⟨_, rfl, ?_⟩⟩
  · have clear : y.clearOf x = keepClear (((s.settleGate x).seatTraf x).calOff, ((s.settleGate x).seatTraf x).calLen) (s.seatTime x).dDelay := by
      rw [State.clearOf, yTraf, kept.seatTime (by decide), ← off, ← len]
      rfl
    have rate : y.fitRate x = s.fitRate x := by rw [State.fitRate, State.fitRate, kept.link_ (by decide)]
    have overhead : max 27 (((s.settleGate x).seatTraf x).controlled v).overhead.toNat = max 27 (bits v.toNat 55 48) := max_overhead
    have passes : (scheduleShape l && fitCheck l (max 27 (((s.settleGate x).seatTraf x).controlled v).overhead.toNat) (y.fitRate x)
        (y.clearOf x)) = true := by
      rw [overhead, rate, clear, shape, fit]
      rfl
    rw [wrote, applies, if_pos passes]
    dsimp only
    rw [State.seatTraf_setSeatTraf, overhead, kept.servingCore (by decide), kept.ut (by decide)]
  · rw [wrote, applies, shape, Bool.false_and, if_neg (by decide)]
    dsimp only
    rw [State.seatTraf_setSeatTraf]
    exact ⟨rfl, rfl, rfl⟩

theorem yields_gateControlCalWrite {z : SeatTraf} (heard : s.viaHeard w = true) (may : s.viaMay w = true)
    (traf : z = (s.settleGate x).seatTraf x) (apply : bit v.toNat 61 = false) :
    (calOk (bits v.toNat 19 0) (bits v.toNat 44 32) = true → Yields (.gateControlCalWrite w x v) s fun t =>
      (t.seatTraf x).calOff = bits v.toNat 19 0 ∧ (t.seatTraf x).calLen = bits v.toNat 44 32 ∧
      (t.seatTraf x).overhead = BitVec.ofNat 8 (bits v.toNat 55 48)) ∧
    (calOk (bits v.toNat 19 0) (bits v.toNat 44 32) = false → (bits v.toNat 19 0 ≠ z.calOff ∨ bits v.toNat 44 32 ≠ z.calLen) →
      Yields (.gateControlCalWrite w x v) s fun t => t.seatTraf x = { z with refused := true }) := by
  subst traf
  have wrote := State.gateWrite_eq (x := x) (v := v) heard may
  unfold State.writeGate at wrote
  dsimp only at wrote
  refine ⟨fun good => ⟨_, rfl, ?_⟩, fun bad changed => ⟨_, rfl, ?_⟩⟩
  · rw [good, Bool.not_true, Bool.and_false, if_neg (by decide), apply, if_neg (by decide)] at wrote
    rw [wrote]
    have slot := slotsKept_sendTimeBase (s := (s.settleGate x).setSeatTraf x (((s.settleGate x).seatTraf x).controlled v)) (x := x)
    obtain ⟨sentOff, sentLen, sentOverhead⟩ := slot x
    rw [State.seatTraf_setSeatTraf] at sentOff sentLen sentOverhead
    split
    · exact ⟨sentOff, sentLen, sentOverhead⟩
    · rw [State.seatTraf_setSeatTraf]
      exact ⟨rfl, rfl, rfl⟩
  · rw [bad, decide_eq_true changed, if_pos (by decide)] at wrote
    rw [wrote]
    exact State.seatTraf_setSeatTraf _ _ _

end gates

end Sys2Proof.Machine

/-! PROOFS. The start of an entry and the frame that a free line takes next (10 R271 to R273). -/

namespace Sys2Proof.Machine

section line
variable {s u z : State} {x : Seat} {k : Tunnel} {c : Cand} {ut : Nat} {o : BitVec 6} {f : TxFrame} {rest : List TxFrame}

/-- The choice between a seat's two heads leaves the tags of its tunnels. -/
theorem State.wfq_dispHead : ((s.dispHead x).1.wfq x).usb = (s.wfq x).usb ∧ ((s.dispHead x).1.wfq x).v = (s.wfq x).v := by
  unfold State.dispHead
  dsimp only
  split
  · rw [State.wfq_setWfq]
    split <;> exact ⟨rfl, rfl⟩
  · rw [State.wfq_setWfq]
    exact ⟨rfl, rfl⟩

/-- The tag of a tunnel's head, where it has one. -/
def WfqQ.tagHead (q : WfqQ) (v overhead : Nat) (weight : Tunnel → Nat) (h : Option Cand) : WfqQ :=
  match h with
  | some c => q.tag v (frameCost c.len overhead (weight c.tn)) c.id
  | none => q

theorem State.wfq_tagHeads : ((s.tagHeads x).1.wfq x).usb = (s.wfq x).usb.tagHead (s.wfq x).v (s.overheadOf x)
      (s.seatTraf x).weight ((s.tun x .usb).headOf .usb) ∧
    ((s.tagHeads x).1.wfq x).v = (s.wfq x).v := by
  obtain ⟨usb, v⟩ := State.wfq_dispHead (s := s) (x := x)
  unfold State.tagHeads
  dsimp only
  rw [State.wfq_setWfq, usb, v, State.overheadOf, State.overheadOf, State.dispHead_keep.seatTraf (by decide),
    State.dispHead_keep.tun (by decide)]
  exact ⟨rfl, rfl⟩

theorem TunSt.tn_resendHead {v : TunSt} (h : v.resendHead k = some c) : c.tn = k := by
  unfold TunSt.resendHead at h
  split at h
  · cases h
  · obtain ⟨f, -, rfl⟩ := Option.map_eq_some_iff.mp h
    rfl

theorem TunSt.tn_newHead {v : TunSt} {p : TxFrame → Bool} (h : v.newHead k p = some c) : c.tn = k := by
  obtain ⟨f, -, rfl⟩ := Option.map_eq_some_iff.mp h
  rfl

theorem TunSt.tn_headOf {v : TunSt} (h : v.headOf k = some c) : c.tn = k := by
  unfold TunSt.headOf at h
  split at h
  next again => exact TunSt.tn_resendHead (again.trans h)
  next => exact TunSt.tn_newHead h

theorem State.heads_tagHeads (head : (s.tun x .usb).headOf .usb = some c) :
    (s.tagHeads x).2.find? (fun c => c.tn == .usb) = some c := by
  unfold State.tagHeads
  dsimp only
  rw [State.dispHead_keep.tun (by decide), head]
  simp [TunSt.tn_headOf head]

theorem yields_entryStart {a b : Nat} (arrived : u = (s.arrive ut).settleGate x)
    (entry : (u.seatTraf x).inForce.find? (fun e => e.1 == ut % microFrame) = some (a, b, o)) (now : u.ut (u.servingCore x) = ut)
    (opened : opens o .usb = true) (head : (u.tun x .usb).headOf .usb = some c) (tagged : (u.wfq x).usb.tagged = some c.id)
    (late : tagLt (u.wfq x).usb.start (u.wfq x).v = true) : Yields (.entryStart x ut) s fun t =>
      (t.wfq x).usb.start = (u.wfq x).v ∧
      (t.wfq x).usb.finish = tagAdd (u.wfq x).v (frameCost c.len (u.overheadOf x) ((u.seatTraf x).weight .usb)) ∧
      (t.wfq x).v = (u.wfq x).v := by
  refine ⟨u.retag x o, ?_, ?_⟩
  · unfold exec execEntryStart
    dsimp only
    rw [← arrived, entry]
    dsimp only
    rw [if_pos now]
  · obtain ⟨usb, v⟩ := State.wfq_tagHeads (s := u) (x := x)
    rw [head, WfqQ.tagHead, WfqQ.tag, if_pos tagged] at usb
    unfold State.retag
    dsimp only
    rw [State.wfq_setWfq]
    dsimp only
    rw [opened, if_pos rfl, usb, v, State.heads_tagHeads head, WfqQ.again, tagged, late, if_pos (show ((some c.id).isSome && true) = true from rfl)]
    dsimp only
    rw [State.overheadOf, State.tagHeads_keep.seatTraf (by decide)]
    exact ⟨rfl, rfl, rfl⟩

/-! ### A free line (R273) -/

/-- A frame leaves the fabric as it goes on the line. -/
def State.leaveFabric (s : State) (x : Seat) (k : Tunnel) (f : TxFrame) (c : CoreId) : State :=
  let s := if f.frame = 0 then s else (s.bwCount c x.val true (f.bytes.length + 16)).markSent c (f.frame - 1) x.val
  if k.reliable then s else s.freeNumbered c x f.frame

theorem State.leaveFabric_keep {c : CoreId} : Keep (2 ^ 0 + 2 ^ 22 + 2 ^ 42 + 2 ^ 51) s (s.leaveFabric x k f c) := by
  have marked : Keep (2 ^ 0 + 2 ^ 22 + 2 ^ 42 + 2 ^ 51) s
      (if f.frame = 0 then s else (s.bwCount c x.val true (f.bytes.length + 16)).markSent c (f.frame - 1) x.val) :=
    Keep.ite Keep.rfl' (Keep.step State.markSent_keep (by decide) (State.bwCount_keep.weaken (by decide)))
  unfold State.leaveFabric
  exact Keep.ite marked (Keep.step State.freeNumbered_keep (by decide) marked)

/-- The tunnel of a frame that goes on the line for the first time. -/
def TunSt.sends (v : TunSt) (k : Tunnel) (f : TxFrame) (rest : List TxFrame) (req : Bool) : TunSt :=
  { v with
    next := v.next + 1, queue := rest, sinceReq := if req then 0 else v.sinceReq + 1,
    held := v.held ++ (if k.reliable || f.deadline.isSome then [{ f with seq := v.next, frame := if k.reliable then f.frame else 0 }]
      else []) }

theorem State.sendNew_eq : ∃ req, s.sendNew x k f rest =
    (let v := ((s.setTun x k ((s.tun x k).sends k f rest req)).leaveFabric x k f (s.servingCore x)).putLine x k req false
      (s.tun x k).next f.bytes
    if req then v.startTimer x k { f with seq := (s.tun x k).next } else v) := ⟨_, rfl⟩

/-- What a new frame on the line leaves of its tunnel, of the line and of the link. -/
theorem State.sendNew_leaves : ((s.sendNew x k f rest).tun x k).next = (s.tun x k).next + 1 ∧
    ((s.sendNew x k f rest).tun x k).queue = rest ∧
    (s.sendNew x k f rest).link.line.length = s.link.line.length + 1 ∧
    ((s.sendNew x k f rest).link_ x).lastTx = s.seatUt x := by
  obtain ⟨req, sent⟩ := State.sendNew_eq (s := s) (x := x) (k := k) (f := f) (rest := rest)
  rw [sent]
  dsimp only
  generalize left : (s.setTun x k ((s.tun x k).sends k f rest req)).leaveFabric x k f (s.servingCore x) = w
  have tun : w.tun x k = (s.tun x k).sends k f rest req := by
    rw [← left, State.leaveFabric_keep.tun (by decide), State.tun_setTun]
  have kept : Keep (2 ^ 0 + 2 ^ 42 + 2 ^ 51) s w := by
    rw [← left]
    exact Keep.step State.leaveFabric_keep (by decide) (State.setTun_keep.weaken (by decide))
  obtain ⟨length, last, same⟩ := State.putLine_leaves (s := w) (x := x) (k := k) (j := k) (ack := req) (unseq := false)
    (seq := (s.tun x k).next) (payload := f.bytes)
  rw [kept.lineLength (by decide)] at length
  rw [kept.seatUt (by decide)] at last
  rw [tun] at same
  have timer (v : State) (g : TxFrame) : ((v.startTimer x k g).tun x k).next = (v.tun x k).next ∧
      ((v.startTimer x k g).tun x k).queue = (v.tun x k).queue := by
    unfold State.startTimer
    dsimp only
    rw [State.tun_setTun]
    exact ⟨rfl, rfl⟩
  split
  · obtain ⟨next, queue⟩ := timer (w.putLine x k req false (s.tun x k).next f.bytes) { f with seq := (s.tun x k).next }
    rw [next, queue, State.startTimer_keep.lineLength (by decide), State.startTimer_keep.link_ (by decide), same]
    exact ⟨rfl, rfl, length, last⟩
  · rw [same]
    exact ⟨rfl, rfl, length, last⟩

/-- A head of `CTRL` or `SYNC` is one of those tunnels. -/
theorem State.tn_controlHead {fits : Cand → Bool} (h : s.controlHead x fits = some c) : c.tn = .ctrl ∨ c.tn = .sync := by
  unfold State.controlHead at h
  simp only [Option.or_eq_some_iff, Option.filter_eq_some_iff] at h
  rcases h with (⟨h, -⟩ | ⟨-, h, -⟩) | ⟨-, ⟨h, -⟩ | ⟨-, h, -⟩⟩
  · exact Or.inl (TunSt.tn_resendHead h)
  · exact Or.inr (TunSt.tn_resendHead h)
  · split at h
    · exact Or.inl (TunSt.tn_newHead h)
    · cases h
  · split at h
    · exact Or.inr (TunSt.tn_newHead h)
    · cases h

/-- A new head of `CTRL` or `SYNC` goes on the line. -/
theorem State.sendCand_control {g : Cand} (control : g.tn = .ctrl ∨ g.tn = .sync) (new : g.resend = none) :
    ((s.sendCand x g).tun x g.tn).next = (s.tun x g.tn).next + 1 ∧ ((s.sendCand x g).tun x g.tn).queue = g.rest ∧
    (s.sendCand x g).link.line.length = s.link.line.length + 1 ∧ ((s.sendCand x g).link_ x).lastTx = s.seatUt x := by
  have notNet : g.tn ≠ .net := by rcases control with h | h <;> rw [h] <;> decide
  have kept : Keep (2 ^ 0 + 2 ^ 22 + 2 ^ 42 + 2 ^ 51) s (s.setWfq x ((s.wfq x).started g)) := State.setWfq_keep.weaken (by decide)
  have sent := State.sendNew_leaves (s := s.setWfq x ((s.wfq x).started g)) (x := x) (k := g.tn)
    (f := { g.f with yellow := s.candYellow x g }) (rest := g.rest)
  rw [kept.tun (by decide), kept.lineLength (by decide), kept.seatUt (by decide)] at sent
  unfold State.sendCand
  dsimp only
  rw [new]
  dsimp only
  rw [if_neg notNet]
  exact sent

theorem yields_lineFreeSelect {g : Cand} (arrived : u = s.arrive ut) (ready : u.lineReady x = true)
    (settled : z = (((u.settleGate x).dropDisowned x).offerKept (u.servingCore x)).dropIso x)
    (head : z.controlHead x (fun f => fitsIn f.len (z.seatTraf x).appliedOverhead (z.rateOf x)
      ((z.seatTraf x).window (u.ut (u.servingCore x)) (z.seatTime x).dDelay).1) = some g) (new : g.resend = none) :
    Yields (.lineFreeSelect x ut) s fun t => (t.tun x g.tn).next = (z.tun x g.tn).next + 1 ∧ (t.tun x g.tn).queue = g.rest ∧
      t.link.line.length = u.link.line.length + 1 ∧ (t.link_ x).lastTx = u.ut (u.servingCore x) := by
  subst arrived
  refine ⟨_, congrArg Host.Outcome.next (if_pos ready), ?_⟩
  have kept : Keep (2 ^ 0 + 2 ^ 42 + 2 ^ 51) (s.arrive ut) z := by
    rw [settled]
    exact Keep.step State.dropIso_keep (by decide) (Keep.step State.offerKept_keep (by decide)
      (Keep.step State.dropDisowned_keep (by decide) (State.settleGate_keep.weaken (by decide))))
  rw [← kept.ut (by decide) ((s.arrive ut).servingCore x)] at head
  have freed : (s.arrive ut).lineFree x = z.sendCand x g := by
    unfold State.lineFree
    dsimp only
    rw [← settled, head]
  rw [freed]
  dsimp only
  obtain ⟨next, queue, length, last⟩ := State.sendCand_control (s := z) (x := x) (State.tn_controlHead head) new
  rw [kept.lineLength (by decide)] at length
  rw [kept.seatUt (by decide)] at last
  exact ⟨next, queue, length, last⟩

end line

/-- Settles O27. A write of the gate control is decided by the settled gate; an entry's start and a free line change the queue's tags
and the tunnel's head by one step each. -/
theorem seatGates : Obligations.SeatGates := by
  unfold Obligations.SeatGates
  exact ⟨fun w x v l s z heard may traf off len apply staged => yields_gateApply heard may traf off len apply staged,
    fun w x v s z heard may traf apply => yields_gateControlCalWrite heard may traf apply,
    fun x ut a b o c s u arrived entry now opened head tagged late =>
      yields_entryStart arrived entry now opened head tagged late,
    fun x ut f s u z arrived ready settled head new => yields_lineFreeSelect arrived ready settled head new⟩

end Sys2Proof.Machine

/-! PROOFS. Demand records, the policy tick, allotments and bounds (10 R286 to R289). -/

namespace Sys2Proof.Machine

/-! ### Demand records (R286) -/

section demand
variable {s t u : State} {x y : Seat} {c : CoreId} {power m ut : Nat}

/-- What one fold step makes of a member of a list without repetition, when every other step leaves the member's part. -/
theorem foldl_once {α β : Type} {g : State → α → State} {part : State → β} (a : α) (made : State → β)
    (step : ∀ s, part (g s a) = made s) (leaves : ∀ s b, b ≠ a → part (g s b) = part s ∧ made (g s b) = made s)
    (l : List α) (nodup : l.Nodup) (mem : a ∈ l) (s : State) : part (l.foldl g s) = made s := by
  have after (l : List α) (out : a ∉ l) : ∀ s, part (l.foldl g s) = part s := by
    induction l with
    | nil => exact fun s => rfl
    | cons b l ih =>
      intro s
      rw [List.mem_cons, not_or] at out
      rw [List.foldl_cons, ih out.2, (leaves s b (Ne.symm out.1)).1]
  induction l generalizing s with
  | nil => cases mem
  | cons b l ih =>
    rw [List.nodup_cons] at nodup
    rw [List.foldl_cons]
    rcases List.mem_cons.mp mem with rfl | mem
    · rw [after l nodup.1, step]
    · have other : b ≠ a := fun same => nodup.1 (same ▸ mem)
      rw [ih nodup.2 mem, (leaves s b other).2]

theorem State.demand_setDemand_ne {v : Demand} (h : y ≠ x) : (s.setDemand x v).demand y = s.demand y :=
  tget_tset_ne _ _ _ _ (Fin.val_ne_of_ne h)

theorem State.seatPower_setSeatPower_ne {v : SeatPower} (h : y ≠ x) : (s.setSeatPower x v).seatPower y = s.seatPower y :=
  tget_tset_ne _ _ _ _ (Fin.val_ne_of_ne h)

/-- What a latch leaves of the seat: its demand and its mean power. -/
def State.latchPart (s : State) (x : Seat) : Demand × Nat := (s.demand x, (s.seatPower x).meanFrame)

/-- What a latch makes of a seat's demand and mean power. -/
def State.latched_ (s : State) (x : Seat) (power m : Nat) : Demand × Nat :=
  ({ Demand.init with latched := s.demandRecord x power m }, power)

theorem State.latchPart_latchSeat : (s.latchSeat x power m).latchPart x = s.latched_ x power m := by
  unfold State.latchSeat State.latchPart
  dsimp only
  rw [State.demand_setDemand, State.setDemand_keep.seatPower (by decide), State.seatPower_setSeatPower]
  rfl

theorem State.latchPart_latchSeat_ne (h : y ≠ x) : (s.latchSeat y power m).latchPart x = s.latchPart x := by
  unfold State.latchSeat State.latchPart
  dsimp only
  rw [State.demand_setDemand_ne h.symm, State.setDemand_keep.seatPower (by decide), State.seatPower_setSeatPower_ne h.symm,
    State.setSeatPower_keep.seatDemand (by decide)]

theorem State.demandRecord_congr (tun : ∀ k, t.tun x k = s.tun x k) (demand : t.demand x = s.demand x) :
    t.demandRecord x power m = s.demandRecord x power m := by
  unfold State.demandRecord State.waitBytes
  simp only [tun, demand]

theorem State.latched_latchSeat_ne {p n : Nat} (h : y ≠ x) : (s.latchSeat y p n).latched_ x power m = s.latched_ x power m := by
  have demand := congrArg Prod.fst (State.latchPart_latchSeat_ne (s := s) (x := x) (y := y) (power := p) (m := n) h)
  rw [State.latched_, State.latched_, State.demandRecord_congr (fun k => State.latchSeat_keep.tun (by decide) x k) demand]

theorem yields_demandLatch {l : List Nat} (arrived : u = s.arrive ut) (serves : u.serves c = true) (frame : ut % frameNs = 0)
    (began : 0 < ut) (now : u.ut c = ut) (mine : u.servingCore x = c) (empty : (u.demand x).latched = []) :
    Yields (.demandLatch c l ut) s fun t =>
      t.demand x = { Demand.init with latched := u.demandRecord x ((l[x.val]?).getD 0) (ut / frameNs - 1) } ∧
      (t.seatPower x).meanFrame = (l[x.val]?).getD 0 := by
  subst arrived
  refine ⟨_, congrArg Host.Outcome.next (if_pos ⟨serves, frame, began, now⟩), ?_⟩
  have part : ∀ t : State, t.latchPart x = (s.arrive ut).latched_ x ((l[x.val]?).getD 0) (ut / frameNs - 1) →
      t.demand x = { Demand.init with latched := (s.arrive ut).demandRecord x ((l[x.val]?).getD 0) (ut / frameNs - 1) } ∧
      (t.seatPower x).meanFrame = (l[x.val]?).getD 0 := fun t h => ⟨congrArg Prod.fst h, congrArg Prod.snd h⟩
  refine part _ ?_
  unfold State.latchDemand
  dsimp only
  generalize seats : (allSeats.filter fun y => (s.arrive ut).servingCore y == c &&
    !(((s.arrive ut).demand y).latched != [] && fld ((s.arrive ut).demand y).latched 48 8 == ut / frameNs - 1)) = ys
  have nodup : ys.Nodup := by
    rw [← seats]
    exact (List.nodup_finRange 64).filter _
  have mem : x ∈ ys := by
    rw [← seats, List.mem_filter]
    exact ⟨List.mem_finRange x, by simp [mine, empty]⟩
  have latched := foldl_once (g := fun s y => s.latchSeat y ((l[y.val]?).getD 0) (ut / frameNs - 1)) (part := fun s => s.latchPart x) x
    (fun s => s.latched_ x ((l[x.val]?).getD 0) (ut / frameNs - 1)) (fun s => State.latchPart_latchSeat)
    (fun s y h => ⟨State.latchPart_latchSeat_ne h, State.latched_latchSeat_ne h⟩) ys nodup mem (s.arrive ut)
  generalize ys.foldl (fun s y => s.latchSeat y ((l[y.val]?).getD 0) (ut / frameNs - 1)) (s.arrive ut) = v at latched
  have islets : v.latchIslets.latchPart x = v.latchPart x := by
    unfold State.latchPart
    rw [State.latchIslets_keep.seatDemand (by decide), State.latchIslets_keep.seatPower (by decide)]
  have frame (w : State) (n : Nat) : (w.setTraf { w.traf with latchedFrame := n }).latchPart x = w.latchPart x := rfl
  split
  · exact (frame _ _).trans (islets.trans latched)
  · exact latched

end demand

/-! ### The policy tick (R287) -/

section tick
variable {s u : State} {ut : Nat}

theorem yields_policyTick (arrived : u = s.arrive ut) (phase : ut % frameNs = 250000) (now : u.now = ut)
    (started : u.mode.mode.isStart = false) (thawed : u.frozen = false) (serves : u.serves u.flt.token = true) :
    (((u.dispatch u.flt.token).ready.any fun x => x.kind == 5) = false → Yields (.policyTick ut) s fun t =>
      ∃ it ∈ (t.dispatch u.flt.token).ready, it.kind = 5 ∧ it.flow = 0x000700 ∧ it.arg = BitVec.ofNat 64 (ut / frameNs)) ∧
    (((u.dispatch u.flt.token).ready.any fun x => x.kind == 5) = true → Yields (.policyTick ut) s fun t =>
      t.traf.missed = u.traf.missed + 1 ∧ ∀ it ∈ (t.dispatch u.flt.token).ready, it.kind = 5 → it.arg = BitVec.ofNat 64 (ut / frameNs)) := by
  subst arrived
  have ticks : exec (.policyTick ut) s = .next ((s.arrive ut).policyTick (ut / frameNs)) :=
    congrArg Host.Outcome.next (if_pos ⟨phase, now, by rw [started]; rfl, by rw [thawed]; rfl, serves⟩)
  refine ⟨fun none => ⟨_, ticks, ?_⟩, fun some => ⟨_, ticks, ?_⟩⟩
  · unfold State.policyTick State.readyItem State.readyAt
    dsimp only
    rw [none, if_neg (by decide)]
    exact ⟨_, State.mem_ready_readyIn, rfl, rfl, rfl⟩
  · unfold State.policyTick
    dsimp only
    rw [some, if_pos rfl]
    refine ⟨?_, fun it mem kind => ?_⟩
    · cases (s.arrive ut).flt.token <;> rfl
    · have same (v : State) (w : TrafSt) (c : CoreId) : (v.setTraf w).dispatch c = v.dispatch c := by cases c <;> rfl
      rw [same, State.dispatch_setDispatch] at mem
      obtain ⟨x, -, rfl⟩ := List.mem_map.mp mem
      split at kind
      next five => rw [if_pos five]
      next other => exact absurd (beq_iff_eq.mpr kind) other

end tick

/-! ### Allotments and bounds (R288, R289) -/

section allot
variable {s : State} {w : Via} {i : IsletNo} {v : W64} {x : Seat} {f : FnId} {c : CoreId}

/-- A write of one allotment field that changes it, by a writer that may. -/
theorem writeAllots_one {a : AllotField} {n m : Nat} (changes : bits n a.h a.l ≠ bits m a.h a.l) : writeAllots true n [a] m =
    (putBits m a.h a.l (min a.most (Bounds.clamp a.bound (min a.most (bits n a.h a.l)))), false) := by
  simp [writeAllots, changes]

/-- The same by a writer that may not. -/
theorem writeAllots_ignored {a : AllotField} {n m : Nat} (changes : bits n a.h a.l ≠ bits m a.h a.l) :
    writeAllots false n [a] m = (m, true) := by
  simp [writeAllots, changes]

theorem State.isletTraf_noteIgnored {bad : Bool} : (s.noteIgnored bad).isletTraf i = s.isletTraf i :=
  State.noteIgnored_keep.isletTraf (by decide) i

theorem State.writeHostShare_eq (islet : i.val ≠ 0) : s.writeAllot w (.hostShare i) v =
    (let r := writeAllots (s.mayAllot w i) v.toNat [⟨9, 0, some (s.isletTraf i).shareB, 1023⟩] (s.isletTraf i).share.toNat
    (s.setIsletTraf i { s.isletTraf i with share := BitVec.ofNat 64 r.1 }).noteIgnored r.2) := by
  rw [State.writeAllot, if_neg islet]

theorem yields_hostShare (heard : s.viaHeard w = true) (islet : i.val ≠ 0)
    (changes : bits v.toNat 9 0 ≠ bits (s.isletTraf i).share.toNat 9 0) :
    (s.mayAllot w i = true → Yields (.allotmentWrite w (.hostShare i) v) s fun t => (t.isletTraf i).share =
      BitVec.ofNat 64 (putBits (s.isletTraf i).share.toNat 9 0 (min 1023 (clampNat (bits (s.isletTraf i).hostPower.toNat 41 32)
        (bits (s.isletTraf i).hostPower.toNat 57 48) (min 1023 (bits v.toNat 9 0)))))) ∧
    (s.mayAllot w i = false → Yields (.allotmentWrite w (.hostShare i) v) s fun t => (t.isletTraf i).share = (s.isletTraf i).share ∧
      t.traf.control.getLsbD 1 = true) := by
  refine ⟨fun may => ⟨_, congrArg Host.Outcome.next (if_pos heard), ?_⟩,
    fun may => ⟨_, congrArg Host.Outcome.next (if_pos heard), ?_⟩⟩
  · rw [State.writeHostShare_eq islet, may, writeAllots_one changes]
    dsimp only
    rw [State.isletTraf_noteIgnored, State.isletTraf_setIsletTraf]
    rfl
  · rw [State.writeHostShare_eq islet, may, writeAllots_ignored changes]
    dsimp only
    rw [State.isletTraf_noteIgnored, State.isletTraf_setIsletTraf]
    refine ⟨?_, ?_⟩
    · rw [BitVec.ofNat_toNat, BitVec.setWidth_eq]
    · rw [State.noteIgnored, if_pos rfl]
      simp [State.setTraf]

/-- A policing rate that a program writes (R288). -/
theorem yields_policeCommitted (serves : (s.coreSt c).fenced = false)
    (changes : bits v.toNat 10 0 ≠ bits (s.seatTraf x).policeC.toNat 10 0) :
    Yields (.allotmentWrite (.prog c) (.policeCommitted x) v) s fun t => (t.seatTraf x).policeC =
      BitVec.ofNat 64 (putBits (s.seatTraf x).policeC.toNat 10 0
        (min 2047 (Bounds.clamp (s.boundsOf x IsletTraf.commit) (min 2047 (bits v.toNat 10 0))))) := by
  have heard : s.viaHeard (.prog c) = true := by rw [State.viaHeard, serves]; rfl
  have settled : ((s.settleBuckets x).seatTraf x).policeC = (s.seatTraf x).policeC := by
    rw [State.settleBuckets, State.seatTraf_setSeatTraf]
  have bounds : (s.settleBuckets x).boundsOf x IsletTraf.commit = s.boundsOf x IsletTraf.commit := by
    rw [State.boundsOf, State.boundsOf, State.settleBuckets_keep.owner (by decide), State.settleBuckets_keep.isletTraf (by decide)]
  have word : (s.settleBuckets x).bucketWord (.prog c) x (s.seatTraf x).policeC v IsletTraf.commit =
      (BitVec.ofNat 64 (putBits (s.seatTraf x).policeC.toNat 10 0
        (min 2047 (Bounds.clamp (s.boundsOf x IsletTraf.commit) (min 2047 (bits v.toNat 10 0))))), false) := by
    have may (t : State) (j : IsletNo) : t.mayAllot (.prog c) j = true := rfl
    unfold State.bucketWord
    dsimp only
    rw [bounds, if_neg (show ¬Via.isHost (.prog c) = true from nofun), may, writeAllots_one changes]
  refine ⟨_, congrArg Host.Outcome.next (if_pos heard), ?_⟩
  rw [State.writeAllot, State.writeBucket]
  dsimp only
  rw [settled, word]
  dsimp only
  rw [State.noteIgnored_keep.seatTraf (by decide), State.capBuckets, State.seatTraf_setSeatTraf]
  dsimp only
  rw [State.seatTraf_setSeatTraf]

/-- An islet's bounds once one of their registers is written. -/
def IsletTraf.bounded (y : IsletTraf) (r : BoundReg) (v : W64) : IsletTraf :=
  match r with
  | .weights => { y with weights := v &&& 0x0000FFFFFFFFFFFF }
  | .rates => { y with rates := v &&& 0x000007FF07FF07FF }
  | .hostPower => { y with hostPower := v &&& 0x03FF03FF0000FFFF }

/-- A bound that a host writes on an islet's register leaves what the write made of it (R289). -/
theorem State.writeBound_leaves {r : BoundReg} (islet : i.val ≠ 0) (may : s.host.wiring = true ∨ (s.islet i).owner = f.port) :
    ∃ share, (s.writeBound (.host f) i r v).isletTraf i = { (s.isletTraf i).bounded r v with share := share } := by
  have ok : ¬((!(s.host.wiring || (s.islet i).owner == f.port) || decide (i.val = 0)) = true) := by
    rcases may with may | may <;> simp [may, islet]
  have clamped (t : State) (y : IsletTraf) (l : List Seat) : (l.foldl (fun s x => s.clampSeat x y) t).isletTraf i = t.isletTraf i :=
    Keep.isletTraf (K := 2 ^ 34) (Keep.foldl Keep.rfl' fun _ _ => State.clampSeat_keep.weaken (by decide)) (by decide) i
  have written (t : IsletTraf) : (if ((s.setIsletTraf i t).islet i).st = .free then s.setIsletTraf i t
      else (maskSeats ((s.setIsletTraf i t).islet i).seats).foldl (fun s x => s.clampSeat x t) (s.setIsletTraf i t)).isletTraf i = t := by
    split
    · rw [State.isletTraf_setIsletTraf]
    · rw [clamped, State.isletTraf_setIsletTraf]
  unfold State.writeBound
  dsimp only
  rw [if_neg ok]
  cases r
  · exact ⟨_, written _⟩
  · exact ⟨_, written _⟩
  · exact ⟨_, written _⟩

/-- The control word that a write of the policy's control leaves: its bits as written, and bit 1 cleared by writing 1. -/
theorem writePolicy_control (v : W64) (old : Bool) :
    ((v &&& 0x1F01) ||| (if rw1c old (v.getLsbD 1) then 2#64 else 0#64)) &&& 0x1F01 = v &&& 0x1F01 ∧
      ((v &&& 0x1F01) ||| (if rw1c old (v.getLsbD 1) then 2#64 else 0#64)).getLsbD 1 = (old && !v.getLsbD 1) := by
  have low (k : W64) (out : k &&& 0x1F01 = 0) : ((v &&& 0x1F01) ||| k) &&& 0x1F01 = v &&& 0x1F01 := by
    rw [BitVec.and_or_distrib_right, out, BitVec.and_assoc, BitVec.and_self]
    exact BitVec.or_zero
  have bit1 (k : W64) : ((v &&& 0x1F01) ||| k).getLsbD 1 = k.getLsbD 1 := by
    rw [BitVec.getLsbD_or, BitVec.getLsbD_and, show (0x1F01 : W64).getLsbD 1 = false from by decide, Bool.and_false, Bool.false_or]
  unfold rw1c
  rw [bit1]
  split
  next kept => exact ⟨low _ (by decide), by rw [kept]; decide⟩
  next cleared => exact ⟨low _ (by decide), by rw [eq_false_of_ne_true cleared]; decide⟩

end allot

/-- Settles O29. A latch and a tick act on the seat's record and on the ready items alone; a write of an allotment or a bound puts the
clamped field (`writeAllots_one`). That a rate up to 2,047 is stored as written and only clamped to its bounds is log entry 87
(DEDUCED). -/
theorem allotmentsAndPolicy : Obligations.AllotmentsAndPolicy := by
  unfold Obligations.AllotmentsAndPolicy
  refine ⟨fun c l x ut s u arrived serves frame began now mine empty => yields_demandLatch arrived serves frame began now mine empty,
    fun ut s u arrived phase now started thawed serves => yields_policyTick arrived phase now started thawed serves,
    fun w i v s heard islet changes => yields_hostShare heard islet changes,
    fun c x v s serves changes => yields_policeCommitted serves changes,
    fun f i v s up islet may => ⟨?_, ?_, ?_⟩, fun w v s heard may => ?_⟩
  · obtain ⟨share, wrote⟩ := State.writeBound_leaves (v := v) (r := .rates) islet may
    refine ⟨_, congrArg Host.Outcome.next (if_pos up), ?_⟩
    dsimp only
    rw [wrote]
    exact ⟨rfl, rfl⟩
  · obtain ⟨share, wrote⟩ := State.writeBound_leaves (v := v) (r := .weights) islet may
    refine ⟨_, congrArg Host.Outcome.next (if_pos up), ?_⟩
    dsimp only
    rw [wrote]
    exact ⟨rfl, rfl⟩
  · obtain ⟨share, wrote⟩ := State.writeBound_leaves (v := v) (r := .hostPower) islet may
    refine ⟨_, congrArg Host.Outcome.next (if_pos up), ?_⟩
    dsimp only
    rw [wrote]
    exact ⟨rfl, rfl⟩
  · refine ⟨_, congrArg Host.Outcome.next (if_pos (by rw [heard, may]; rfl)), ?_⟩
    exact writePolicy_control v (s.traf.control.getLsbD 1)

end Sys2Proof.Machine

/-! PROOFS. Seat ports as power sourcing equipment (11 R297 to R302). -/

namespace Sys2Proof.Machine

section power
variable {s t u : State} {x y : Seat} {v : SeatPower} {ut cause wait a : Nat} {st : PowerState} {w : Via} {n : W64}

/-! ### Writes of a port's power state -/

theorem State.seatPower_putPower : (s.putPower x v).seatPower x = v := by
  unfold State.putPower
  dsimp only
  split
  · exact State.seatPower_setSeatPower _ _ _
  · rw [State.edge_keep.seatPower (by decide), State.seatPower_setSeatPower]

theorem State.seatPower_putPower_ne (h : y ≠ x) : (s.putPower x v).seatPower y = s.seatPower y := by
  unfold State.putPower
  dsimp only
  split
  · exact State.seatPower_setSeatPower_ne h
  · rw [State.edge_keep.seatPower (by decide), State.seatPower_setSeatPower_ne h]

/-- A port without power. -/
def SeatPower.removed (v : SeatPower) (cause : Nat) (st : PowerState) (wait : Nat) : SeatPower :=
  { v with
    st := st, cause := if v.isPowered then BitVec.ofNat 4 cause else v.cause, assigned := 0, pairsets := 0, waitUntil := wait,
    mean1s := 0, peak1s := 0, volts := 0 }

theorem State.seatPower_removePower : (s.removePower x cause st wait).seatPower x = (s.seatPower x).removed cause st wait :=
  State.seatPower_putPower

theorem State.seatPower_removePower_ne (h : y ≠ x) : (s.removePower x cause st wait).seatPower y = s.seatPower y :=
  State.seatPower_putPower_ne h

theorem SeatPower.cause_removed (powered : v.isPowered = true) : (v.removed cause st wait).cause = BitVec.ofNat 4 cause := by
  rw [SeatPower.removed, powered, if_pos rfl]

/-! ### Detection and faults (R297, R302) -/

theorem yields_detection {g : PdSig} (arrived : u = s.arrive ut) (served : u.powerServed = true) (may : u.mayPower x = true)
    (detecting : (u.seatPower x).st = .detecting) (waited : (u.seatPower x).waitUntil ≤ u.now) : Yields (.detection x g ut) s fun t =>
      if g.valid = true ∧ g.classReq.val ≠ 0 ∧ (g.pairsetA = true ∨ g.pairsetB = true) then
        (t.seatPower x).st = .classifying ∧ (t.seatPower x).requested = g.classReq.val ∧ (t.seatPower x).dual = g.dual ∧
        (t.seatPower x).sigPairs.getLsbD 0 = g.pairsetA ∧ (t.seatPower x).sigPairs.getLsbD 1 = g.pairsetB
      else (t.seatPower x).st = .detecting ∧ (t.seatPower x).waitUntil = u.now + 500 * ms := by
  subst arrived
  have pairs (p q : Bool) : ((BitVec.ofNat 2 (b2n p + 2 * b2n q) : BitVec 2) != 0) = (p || q) ∧
      (BitVec.ofNat 2 (b2n p + 2 * b2n q) : BitVec 2).getLsbD 0 = p ∧
      (BitVec.ofNat 2 (b2n p + 2 * b2n q) : BitVec 2).getLsbD 1 = q := by
    cases p <;> cases q <;> decide
  obtain ⟨some, low, high⟩ := pairs g.pairsetA g.pairsetB
  have passed : ¬((s.arrive ut).seatPower x).st ≠ .detecting ∧ ¬(s.arrive ut).now < ((s.arrive ut).seatPower x).waitUntil :=
    ⟨not_not_intro detecting, not_lt.mpr waited⟩
  refine ⟨_, congrArg Host.Outcome.next (if_pos served), ?_⟩
  unfold State.detect
  dsimp only
  rw [may, if_neg (show ¬(!true) = true by decide), if_neg (not_or.mpr passed), some]
  by_cases good : g.valid = true ∧ g.classReq.val ≠ 0 ∧ (g.pairsetA = true ∨ g.pairsetB = true)
  · rw [if_pos good, if_pos (by simpa [and_assoc] using good), State.seatPower_putPower]
    exact ⟨rfl, rfl, rfl, low, high⟩
  · rw [if_neg good, if_neg (by simpa [and_assoc] using good), State.seatPower_putPower]
    exact ⟨detecting, rfl⟩

/-- A fault of a pair removes the port's power, after its retry is counted (R302). -/
theorem State.seatPower_pairFault (powered : (s.seatPower x).isPowered = true) {k : Byte}
    (counted : k = if (s.seatPower x).retrying then BitVec.ofNat 8 (satAdd 0xFF (s.seatPower x).retries.toNat 1) else (s.seatPower x).retries) :
    (s.pairFault x cause).seatPower x = { s.seatPower x with retries := k }.removed cause (if 5 ≤ k.toNat then .fault else .retryWait)
      (s.now + if 5 ≤ k.toNat then 60000 * ms else 2000 * ms) := by
  subst counted
  unfold State.pairFault
  dsimp only
  rw [powered, if_neg (show ¬(!true) = true by decide), State.seatPower_removePower, State.seatPower_setSeatPower]
  simp only [decide_eq_true_iff]
  rfl

theorem toNat_satAdd (k : Byte) (small : k.toNat < 255) : (BitVec.ofNat 8 (satAdd 0xFF k.toNat 1)) = k + 1 ∧
    (k + 1).toNat = k.toNat + 1 := by
  have sum : (k + 1).toNat = k.toNat + 1 := by
    rw [BitVec.toNat_add]
    exact Nat.mod_eq_of_lt (by simp; omega)
  refine ⟨?_, sum⟩
  apply BitVec.eq_of_toNat_eq
  rw [sum, satAdd, BitVec.toNat_ofNat, Nat.min_eq_right (by omega), Nat.mod_eq_of_lt (by omega)]

theorem State.seatPower_pairFault_first (powered : (s.seatPower x).isPowered = true) (first : (s.seatPower x).retrying = false)
    (few : (s.seatPower x).retries.toNat < 5) :
    (s.pairFault x cause).seatPower x = (s.seatPower x).removed cause .retryWait (s.now + 2000 * ms) := by
  rw [State.seatPower_pairFault powered (k := (s.seatPower x).retries) (by rw [first]; rfl), if_neg (not_le.mpr few),
    if_neg (not_le.mpr few)]

theorem State.seatPower_pairFault_again (powered : (s.seatPower x).isPowered = true) (again : (s.seatPower x).retrying = true)
    (few : (s.seatPower x).retries.toNat < 4) :
    (s.pairFault x cause).seatPower x = { s.seatPower x with retries := (s.seatPower x).retries + 1 }.removed cause .retryWait
      (s.now + 2000 * ms) := by
  obtain ⟨next, value⟩ := toNat_satAdd (s.seatPower x).retries (by omega)
  rw [State.seatPower_pairFault powered (k := (s.seatPower x).retries + 1) (by rw [again, if_pos rfl, next]),
    if_neg (by rw [value]; omega), if_neg (by rw [value]; omega)]

theorem State.seatPower_pairFault_last (powered : (s.seatPower x).isPowered = true) (again : (s.seatPower x).retrying = true)
    (many : 4 ≤ (s.seatPower x).retries.toNat) : ∃ k : Byte,
    (s.pairFault x cause).seatPower x = { s.seatPower x with retries := k }.removed cause .fault (s.now + 60000 * ms) := by
  have five : 5 ≤ (BitVec.ofNat 8 (satAdd 0xFF (s.seatPower x).retries.toNat 1)).toNat := by
    have small := (s.seatPower x).retries.isLt
    rw [satAdd, BitVec.toNat_ofNat, Nat.mod_eq_of_lt (by omega)]
    omega
  refine ⟨BitVec.ofNat 8 (satAdd 0xFF (s.seatPower x).retries.toNat 1), ?_⟩
  rw [State.seatPower_pairFault powered (k := BitVec.ofNat 8 (satAdd 0xFF (s.seatPower x).retries.toNat 1))
    (by rw [again, if_pos rfl]), if_pos five, if_pos five]

/-! ### The choice of the port that is powered on (R298, R299) -/

/-- What the choice among the ports that ask reads of the state is the same, and `x` is as it was. -/
structure SameChoice (x : Seat) (s t : State) : Prop where
  keep : Keep (2 ^ 0 + 2 ^ 30 + 2 ^ 38 + 2 ^ 42) s t
  seat : t.seatPower x = s.seatPower x
  others : ∀ y, t.committed y = s.committed y

theorem State.committed_of_unpowered (h : (s.seatPower y).isPowered = false) : s.committed y = 0 := by
  rw [State.committed, h]
  rfl

theorem State.committed_congr (h : Keep (2 ^ 0 + 2 ^ 30 + 2 ^ 38 + 2 ^ 42) s t) (seat : t.seatPower y = s.seatPower y) :
    t.committed y = s.committed y := by
  rw [State.committed, State.committed, State.now, State.now, seat, h.ut (by decide)]
  rw [show t.flt.token = s.flt.token from congrArg (fun p : CoreSt × CoreSt × CoreId × _ => p.2.2.1) (h.fltA (by decide))]

/-- A port without power that is taken through another such state changes no choice. -/
theorem SameChoice.put (h : SameChoice x s t) (other : y ≠ x) (before : (t.seatPower y).isPowered = false)
    (after : v.isPowered = false) : SameChoice x s (t.putPower y v) := by
  have kept : Keep (2 ^ 0 + 2 ^ 30 + 2 ^ 38 + 2 ^ 42) t (t.putPower y v) := State.putPower_keep.weaken (by decide)
  refine ⟨h.keep.trans kept, ?_, fun z => ?_⟩
  · rw [State.seatPower_putPower_ne other.symm, h.seat]
  · rw [← h.others z]
    by_cases same : z = y
    · subst same
      rw [State.committed_of_unpowered before, State.committed_of_unpowered (by rw [State.seatPower_putPower, after])]
    · exact State.committed_congr kept (State.seatPower_putPower_ne same)

theorem SameChoice.mayPower (h : SameChoice x s t) : t.mayPower x = s.mayPower x := by
  rw [State.mayPower, State.mayPower, State.watts, State.watts, h.seat, h.keep.seatTraf (by decide)]

theorem SameChoice.classFor (h : SameChoice x s t) : t.classFor x = s.classFor x := by
  have budget : t.pow.budget = s.pow.budget :=
    congrArg (fun p : SupplySt × SupplySt × _ × _ × _ × _ => p.2.2.1) (h.keep.pRest (by decide))
  unfold State.classFor State.watts
  simp only [h.seat, h.others, h.keep.seatTraf (by decide), budget]

end power

end Sys2Proof.Machine

/-! PROOFS. The examination of the ports that ask for power, and the ports' control (11 R298 to R301). -/

namespace Sys2Proof.Machine

section examine
variable {s t u : State} {x y : Seat} {v : SeatPower} {ut a : Nat} {w : Via} {n : W64} {first : Option Seat} {K : Nat}

theorem Keep.now (h : Keep K s t) (time : K.testBit 0 = true) (cores : K.testBit 42 = true) : t.now = s.now := by
  have token : t.flt.token = s.flt.token := congrArg (fun p : CoreSt × CoreSt × CoreId × _ => p.2.2.1) (h.fltA cores)
  rw [State.now, State.now, token, h.ut time]

/-- What an examination makes of a port that asks and is not the first. -/
def State.examineOne (first : Option Seat) (s : State) (y : Seat) : State :=
  let v := s.seatPower y
  if !s.mayPower y then s.powerAllowed y
  else if some y = first then s
  else if v.st = .classifying ∧ (s.classFor y).isNone then s.putPower y { v with st := .waiting }
  else s

/-- The ports that ask for power. -/
def State.asking (s : State) : List Seat := allSeats.filter fun x => (s.seatPower x).st == .classifying || (s.seatPower x).st == .waiting

theorem SeatPower.unpowered_of_asks (h : v.st = .classifying ∨ v.st = .waiting) : v.isPowered = false := by
  rcases h with h | h <;> simp [SeatPower.isPowered, h]

theorem SameChoice.examineOne (h : SameChoice x s t) (may : s.mayPower x = true) (mine : first = some x)
    (asks : (t.seatPower y).isPowered = false) : SameChoice x s (t.examineOne first y) := by
  unfold State.examineOne
  dsimp only
  by_cases same : y = x
  · subst same
    rw [h.mayPower, may, if_neg (show ¬(!true) = true by decide), if_pos mine.symm]
    exact h
  · split
    next none =>
      unfold State.powerAllowed
      dsimp only
      rw [if_neg (by simpa using none)]
      split
      · exact h
      · exact h.put same asks (by rfl)
    · split
      · exact h
      · split
        · exact h.put same asks (by rfl)
        · exact h

theorem State.seatPower_powerAllowed_ne (h : y ≠ x) : (s.powerAllowed x).seatPower y = s.seatPower y := by
  unfold State.powerAllowed
  dsimp only
  split
  · split
    · exact State.seatPower_putPower_ne h
    · rfl
  · split
    · rfl
    · exact State.seatPower_removePower_ne h

theorem State.seatPower_examineOne_ne (h : y ≠ x) : (s.examineOne first x).seatPower y = s.seatPower y := by
  unfold State.examineOne
  dsimp only
  split
  · exact State.seatPower_powerAllowed_ne h
  · split
    · rfl
    · split
      · exact State.seatPower_putPower_ne h
      · rfl

/-- The examination of the others leaves the choice. -/
theorem SameChoice.examineAll (may : s.mayPower x = true) (mine : first = some x) (l : List Seat) (nodup : l.Nodup)
    (asks : ∀ y ∈ l, (t.seatPower y).isPowered = false) (h : SameChoice x s t) :
    SameChoice x s (l.foldl (State.examineOne first) t) := by
  induction l generalizing t with
  | nil => exact h
  | cons y l ih =>
    rw [List.nodup_cons] at nodup
    rw [List.foldl_cons]
    refine ih nodup.2 (fun z mem => ?_) (h.examineOne may mine (asks y List.mem_cons_self))
    have other : z ≠ y := fun same => nodup.1 (same ▸ mem)
    rw [State.seatPower_examineOne_ne other, asks z (List.mem_cons_of_mem _ mem)]

/-- Whether 10 ms have passed since a port was last powered. -/
def State.mayPowerOn (s : State) : Bool :=
  match s.pow.lastOn with
  | none => true
  | some t => decide (t + 10 * ms ≤ s.now)

/-- What an examination does once the ports that ask are dealt with. -/
def State.examineFirst (first : Option Seat) (s : State) : State :=
  match first with
  | none => s
  | some x =>
    match s.classFor x with
    | some a => (s.powerOn x a).setPow { (s.powerOn x a).pow with lastOn := some s.now }
    | none => s

theorem State.examine_def : s.examine =
    let first := if s.mayPowerOn then s.asking.find? (fun y => s.mayPower y && (s.classFor y).isSome) else none
    (s.asking.foldl (State.examineOne first) s).examineFirst first := rfl

theorem State.mayPowerOn_of (free : ∀ b, s.pow.lastOn = some b → b + 10 * ms ≤ s.now) : s.mayPowerOn = true := by
  unfold State.mayPowerOn
  split
  · rfl
  next b last => exact decide_eq_true (free b last)

theorem State.examine_eq (free : ∀ b, s.pow.lastOn = some b → b + 10 * ms ≤ s.now)
    (found : s.asking.find? (fun y => s.mayPower y && (s.classFor y).isSome) = some x) :
    s.examine = (s.asking.foldl (State.examineOne (some x)) s).examineFirst (some x) := by
  rw [State.examine_def, State.mayPowerOn_of free, if_pos rfl, found]

theorem State.examineFirst_some (cls : s.classFor x = some a) :
    s.examineFirst (some x) = (s.powerOn x a).setPow { (s.powerOn x a).pow with lastOn := some s.now } := by
  unfold State.examineFirst
  dsimp only
  rw [cls]

theorem yields_powerOnExamine (arrived : u = s.arrive ut) (served : u.powerServed = true)
    (free : ∀ b, u.pow.lastOn = some b → b + 10 * ms ≤ u.now)
    (found : (allSeats.filter fun y => (u.seatPower y).st == .classifying || (u.seatPower y).st == .waiting).find?
      (fun y => u.mayPower y && (u.classFor y).isSome) = some x) (cls : u.classFor x = some a) :
    Yields (.powerOnExamine ut) s fun t => (t.seatPower x).st = .powered ∧ (t.seatPower x).assigned = a ∧
      (t.seatPower x).poweredUt = u.now ∧ t.pow.lastOn = some u.now := by
  subst arrived
  have may : (s.arrive ut).mayPower x = true := by
    have := List.find?_some found
    rw [Bool.and_eq_true] at this
    exact this.1
  have same : SameChoice x (s.arrive ut) ((s.arrive ut).asking.foldl (State.examineOne (some x)) (s.arrive ut)) := by
    refine SameChoice.examineAll may rfl _ ((List.nodup_finRange 64).filter _) (fun y mem => ?_) ⟨Keep.rfl', rfl, fun _ => rfl⟩
    obtain ⟨-, asks⟩ := List.mem_filter.mp mem
    exact SeatPower.unpowered_of_asks (by simpa using asks)
  refine ⟨_, congrArg Host.Outcome.next (if_pos served), ?_⟩
  rw [State.examine_eq free found, State.examineFirst_some (same.classFor.trans cls)]
  generalize (s.arrive ut).asking.foldl (State.examineOne (some x)) (s.arrive ut) = z at same
  have now := same.keep.now (by decide) (by decide)
  have power : ((z.powerOn x a).setPow { (z.powerOn x a).pow with lastOn := some z.now }).seatPower x = (z.powerOn x a).seatPower x := rfl
  dsimp only
  rw [power, State.powerOn, State.seatPower_putPower, now]
  exact ⟨rfl, rfl, rfl, rfl⟩

/-! ### A port's control (R300, R301) -/

theorem State.cyclePort_of_powered (powered : (s.seatPower x).isPowered = true) :
    s.cyclePort x = s.removePower x 8 .detecting (s.now + 2000 * ms) := by
  rw [State.cyclePort, if_pos powered]

theorem State.cyclePort_of_unpowered (unpowered : (s.seatPower x).isPowered = false) : s.cyclePort x = s := by
  rw [State.cyclePort, unpowered]
  rfl

theorem Keep.stored (h : Keep K s t) (kept : K.testBit 3 = true) : t.stored = s.stored := by
  have regs := h.hcfg kept
  simp only [State.part3, Prod.mk.injEq] at regs
  rw [State.stored, State.stored, regs.2.2.2.2.2]

theorem State.seatPower_cyclePort (powered : (s.seatPower x).isPowered = true) :
    (s.cyclePort x).seatPower x = (s.seatPower x).removed 8 .detecting (s.now + 2000 * ms) := by
  rw [State.cyclePort_of_powered powered, State.seatPower_removePower]

/-- A cycle leaves what the port's control wrote. -/
theorem State.cyclePort_leaves : ((s.cyclePort x).seatPower x).enable = (s.seatPower x).enable ∧
    ((s.cyclePort x).seatPower x).wakeLink = (s.seatPower x).wakeLink ∧ (s.cyclePort x).stored = s.stored := by
  refine ⟨?_, ?_, State.cyclePort_keep.stored (by decide)⟩
  all_goals
    cases powered : (s.seatPower x).isPowered
    · rw [State.cyclePort_of_unpowered powered]
    · rw [State.seatPower_cyclePort powered]
      rfl

/-- So does the port's answer to it. -/
theorem State.powerAllowed_leaves : ((s.powerAllowed x).seatPower x).enable = (s.seatPower x).enable ∧
    ((s.powerAllowed x).seatPower x).wakeLink = (s.seatPower x).wakeLink ∧ (s.powerAllowed x).stored = s.stored := by
  refine ⟨?_, ?_, State.powerAllowed_keep.stored (by decide)⟩
  all_goals
    unfold State.powerAllowed
    dsimp only
    split
    · split
      · rw [State.seatPower_putPower]
      · rfl
    · split
      · rfl
      · rw [State.seatPower_removePower]
        rfl

theorem State.powerAllowed_start (may : s.mayPower x = true) (off : (s.seatPower x).st = .off) :
    ((s.powerAllowed x).seatPower x).st = .detecting := by
  unfold State.powerAllowed
  dsimp only
  rw [if_pos may, if_pos off, State.seatPower_putPower]

theorem State.powerAllowed_stop (not : s.mayPower x = false) (powered : (s.seatPower x).isPowered = true) :
    (s.powerAllowed x).seatPower x = (s.seatPower x).removed 7 .off 0 := by
  have on : ¬((s.seatPower x).st = .off ∨ (s.seatPower x).st = .test ∨ (s.seatPower x).st = .foreign) := by
    rintro (h | h | h) <;> simp [SeatPower.isPowered, h] at powered
  unfold State.powerAllowed
  dsimp only
  rw [not, if_neg Bool.false_ne_true, if_neg on, State.seatPower_removePower]

/-- The state that a write of a port's control stores. -/
def State.controlStored (s : State) (x : Seat) (v : W64) : State :=
  (s.setSeatPower x { s.seatPower x with enable := v.getLsbD 0, wakeLink := v.getLsbD 2 }).storeUpdate
    fun t => { t with powerCtl := tset t.powerCtl x.val (v &&& 5) 5 }

theorem State.seatPower_controlStored :
    (s.controlStored x n).seatPower x = { s.seatPower x with enable := n.getLsbD 0, wakeLink := n.getLsbD 2 } := by
  rw [State.controlStored, State.storeUpdate_keep.seatPower (by decide), State.seatPower_setSeatPower]

theorem State.mayPower_controlStored : (s.controlStored x n).mayPower x = (n.getLsbD 0 && s.watts x != 0) := by
  rw [State.mayPower, State.watts, State.watts, State.seatPower_controlStored]
  rfl

theorem State.writePowerControl_eq : s.writePowerControl x n =
    if n.getLsbD 1 then ((s.controlStored x n).powerAllowed x).cyclePort x else (s.controlStored x n).powerAllowed x := rfl

theorem State.writePowerControl_leaves : ((s.writePowerControl x n).seatPower x).enable = n.getLsbD 0 ∧
    ((s.writePowerControl x n).seatPower x).wakeLink = n.getLsbD 2 ∧
    tget (s.writePowerControl x n).stored.powerCtl x.val 5 = n &&& 5 := by
  obtain ⟨enable, wake, stored⟩ := (s.controlStored x n).powerAllowed_leaves (x := x)
  rw [State.seatPower_controlStored] at enable wake
  have written : tget (s.controlStored x n).stored.powerCtl x.val 5 = n &&& 5 := by
    rw [State.controlStored, State.stored_storeUpdate]
    exact tget_tset_same _ _ _ _
  rw [State.writePowerControl_eq]
  split
  · obtain ⟨enable', wake', stored'⟩ := ((s.controlStored x n).powerAllowed x).cyclePort_leaves (x := x)
    exact ⟨enable'.trans enable, wake'.trans wake, by rw [stored', stored, written]⟩
  · exact ⟨enable, wake, by rw [stored, written]⟩

/-- A port that its control leaves without power does not cycle. -/
theorem State.writePowerControl_of_unpowered (unpowered : (((s.controlStored x n).powerAllowed x).seatPower x).isPowered = false) :
    s.writePowerControl x n = (s.controlStored x n).powerAllowed x := by
  rw [State.writePowerControl_eq, State.cyclePort_of_unpowered unpowered, ite_self]

theorem State.writePowerControl_off (disabled : n.getLsbD 0 = false) (powered : (s.seatPower x).isPowered = true) :
    ((s.writePowerControl x n).seatPower x).st = .off ∧ ((s.writePowerControl x n).seatPower x).cause = 7 := by
  have on : ((s.controlStored x n).seatPower x).isPowered = true := by
    rw [State.seatPower_controlStored]
    exact powered
  have stopped := State.powerAllowed_stop (by rw [State.mayPower_controlStored, disabled, Bool.false_and]) on
  rw [State.writePowerControl_of_unpowered (by rw [stopped]; rfl), stopped]
  exact ⟨rfl, SeatPower.cause_removed on⟩

theorem State.writePowerControl_on (enabled : n.getLsbD 0 = true) (watts : s.watts x ≠ 0) (off : (s.seatPower x).st = .off) :
    ((s.writePowerControl x n).seatPower x).st = .detecting := by
  have started := State.powerAllowed_start (s := s.controlStored x n) (x := x)
    (by rw [State.mayPower_controlStored, enabled, Bool.true_and, bne_iff_ne]; exact watts)
    (by rw [State.seatPower_controlStored]; exact off)
  rw [State.writePowerControl_of_unpowered (by rw [SeatPower.isPowered, started]; rfl), started]

theorem yields_seatPowerEnableWrite (heard : s.viaHeard w = true) (may : s.viaMay w = true) :
    Yields (.seatPowerEnableWrite w x n) s fun t => (t.seatPower x).enable = n.getLsbD 0 ∧ (t.seatPower x).wakeLink = n.getLsbD 2 ∧
      tget t.stored.powerCtl x.val 5 = n &&& 5 ∧
      (n.getLsbD 0 = false → (s.seatPower x).isPowered = true → (t.seatPower x).st = .off ∧ (t.seatPower x).cause = 7) ∧
      (n.getLsbD 0 = true → s.watts x ≠ 0 → (s.seatPower x).st = .off → (t.seatPower x).st = .detecting) := by
  obtain ⟨enable, wake, stored⟩ := s.writePowerControl_leaves (x := x) (n := n)
  exact ⟨_, congrArg Host.Outcome.next (if_pos (by rw [heard, may]; rfl)), enable, wake, stored,
    State.writePowerControl_off, State.writePowerControl_on⟩

theorem yields_cycle (heard : s.viaHeard w = true) (may : s.viaMay w = true) (powered : (s.seatPower x).isPowered = true) :
    Yields (.cycle w x) s fun t => (t.seatPower x).st = .detecting ∧ (t.seatPower x).cause = 8 ∧
      (t.seatPower x).waitUntil = s.now + 2000 * ms := by
  refine ⟨_, congrArg Host.Outcome.next (if_pos (by rw [heard, may]; rfl)), ?_⟩
  dsimp only
  rw [State.seatPower_cyclePort powered]
  exact ⟨rfl, SeatPower.cause_removed powered, rfl⟩

/-! ### The other commands of a port (R299 to R302) -/

theorem yields_mpsLost (arrived : u = s.arrive ut) (powered : (u.seatPower x).isPowered = true) : Yields (.mpsLost x ut) s fun t =>
    (t.seatPower x).st = .detecting ∧ (t.seatPower x).cause = 5 ∧ (t.seatPower x).assigned = 0 ∧ (t.seatPower x).pairsets = 0 := by
  subst arrived
  refine ⟨_, congrArg Host.Outcome.next (if_pos powered), ?_⟩
  dsimp only
  rw [State.seatPower_removePower]
  exact ⟨rfl, SeatPower.cause_removed powered, rfl, rfl⟩

theorem yields_shedEnd (arrived : u = s.arrive ut) (shed : (u.seatPower x).st = .shed) (waited : (u.seatPower x).waitUntil ≤ u.now) :
    Yields (.shedEnd x ut) s fun t => t.seatPower x = { u.seatPower x with st := .waiting } := by
  subst arrived
  exact ⟨_, congrArg Host.Outcome.next (if_pos ⟨shed, waited⟩), State.seatPower_putPower⟩

theorem yields_pairFault (arrived : u = s.arrive ut) (powered : (u.seatPower x).isPowered = true) :
    ((u.seatPower x).retrying = false → (u.seatPower x).retries.toNat < 5 →
      Yields (.pairShort x ut) s (fun t => (t.seatPower x).st = .retryWait ∧ (t.seatPower x).cause = 1 ∧
        (t.seatPower x).retries = (u.seatPower x).retries ∧ (t.seatPower x).waitUntil = u.now + 2000 * ms) ∧
      Yields (.pairOverload x ut) s fun t => (t.seatPower x).st = .retryWait ∧ (t.seatPower x).cause = 2 ∧
        (t.seatPower x).waitUntil = u.now + 2000 * ms) ∧
    ((u.seatPower x).retrying = true → (u.seatPower x).retries.toNat < 4 →
      Yields (.pairShort x ut) s fun t => (t.seatPower x).st = .retryWait ∧
        (t.seatPower x).retries = (u.seatPower x).retries + 1) ∧
    ((u.seatPower x).retrying = true → 4 ≤ (u.seatPower x).retries.toNat →
      Yields (.pairOverload x ut) s fun t => (t.seatPower x).st = .fault ∧ (t.seatPower x).waitUntil = u.now + 60000 * ms) := by
  subst arrived
  refine ⟨fun first few => ⟨⟨_, rfl, ?_⟩, _, rfl, ?_⟩, fun again few => ⟨_, rfl, ?_⟩, fun again many => ⟨_, rfl, ?_⟩⟩
  · dsimp only
    rw [State.seatPower_pairFault_first powered first few]
    exact ⟨rfl, SeatPower.cause_removed powered, rfl, rfl⟩
  · dsimp only
    rw [State.seatPower_pairFault_first powered first few]
    exact ⟨rfl, SeatPower.cause_removed powered, rfl⟩
  · dsimp only
    rw [State.seatPower_pairFault_again powered again few]
    exact ⟨rfl, rfl⟩
  · obtain ⟨k, fault⟩ := State.seatPower_pairFault_last (cause := 2) powered again many
    rw [fault]
    exact ⟨rfl, rfl⟩

theorem yields_faultRetry (arrived : u = s.arrive ut) (failed : (u.seatPower x).st = .retryWait ∨ (u.seatPower x).st = .fault)
    (waited : (u.seatPower x).waitUntil ≤ u.now) : Yields (.faultRetry x ut) s fun t =>
      t.seatPower x = { u.seatPower x with st := .detecting, retrying := true, waitUntil := 0 } := by
  subst arrived
  exact ⟨_, congrArg Host.Outcome.next (if_pos ⟨failed, waited⟩), State.seatPower_putPower⟩

theorem yields_faultRetryCountClear (arrived : u = s.arrive ut) (powered : (u.seatPower x).isPowered = true)
    (long : (u.seatPower x).poweredUt + 60000 * ms ≤ u.now) : Yields (.faultRetryCountClear x ut) s fun t =>
      t.seatPower x = { u.seatPower x with retries := 0, retrying := false } := by
  subst arrived
  exact ⟨_, congrArg Host.Outcome.next (if_pos ⟨powered, long⟩), State.seatPower_setSeatPower _ _ _⟩

theorem yields_openConductorDetected {good : Bool} {m : Nat} (powered : (s.seatPower x).isPowered = true) :
    Yields (.openConductorDetected x good m) s fun t =>
    (t.seatPower x).st = (s.seatPower x).st ∧ (t.seatPower x).pairsets = (if good then 1 else 2) ∧
    (t.seatPower x).assigned = min 4 (s.seatPower x).assigned ∧ (t.seatPower x).openDistance.toNat = min 0xFE m := by
  have opened : (s.openConductor x good m).seatPower x =
      { s.seatPower x with
        sigPairs := if good then 1 else 2
        openDistance := BitVec.ofNat 8 (min 0xFE m)
        pairsets := if good then 1 else 2
        assigned := min 4 (s.seatPower x).assigned } := by
    rw [State.openConductor, State.seatPower_setSeatPower]
    exact if_pos powered
  refine ⟨_, rfl, ?_⟩
  dsimp only
  rw [opened]
  exact ⟨rfl, rfl, rfl, Nat.mod_eq_of_lt (by omega)⟩

end examine

/-- Settles O30. That a port stays CLASSIFYING until it is examined and that a cycle leads to DETECTING for 2 s is log
entry 39 (DEDUCED). -/
theorem seatPowerCommands : Obligations.SeatPowerCommands := by
  unfold Obligations.SeatPowerCommands
  exact ⟨fun _ _ _ _ _ => yields_detection, fun _ _ _ _ _ => yields_powerOnExamine, fun _ _ _ _ => yields_mpsLost,
    fun _ _ _ _ => yields_shedEnd, fun _ _ _ _ => yields_pairFault, fun _ _ _ _ => yields_faultRetry,
    fun _ _ _ _ => yields_faultRetryCountClear, fun _ _ _ _ => yields_openConductorDetected,
    fun _ _ _ => yields_cycle, fun _ _ _ _ => yields_seatPowerEnableWrite⟩

end Sys2Proof.Machine

/-! PROOFS. A freeze time that has passed (14 R366). -/

namespace Sys2Proof.Machine

/-- 1 ns of unit time after the reset. -/
def State.afterReset : State := State.reset.setTime { State.reset.time with utA := 1 }

/-- Refutes O32: a freeze time that core A's unit time has reached takes effect at once, so the register holds 0 after the write. -/
theorem not_counterCommands : ¬ Obligations.CounterCommands := by
  unfold Obligations.CounterCommands
  rintro ⟨-, -, -, freezeUt, -⟩
  obtain ⟨t, ran, left⟩ := freezeUt (.prog .a) .a 1 State.afterReset (by decide)
  have fired : t = State.afterReset.writeFreezeUt .a 1 :=
    (Host.Outcome.next.inj (ran.symm.trans (congrArg Host.Outcome.next (if_pos (by decide)))))
  rw [fired] at left
  have := congrArg CntCore.freezeUt left
  revert this
  decide

end Sys2Proof.Machine

/-! PROOFS. Readings of supplies of which none delivers (11 R293, R294). -/

namespace Sys2Proof.Machine

/-- The state after the reset, but with no input at either supply. -/
def State.withoutInputs : State :=
  State.reset.setPow { State.reset.pow with
    sa := { SupplySt.init with acOk := false }
    sb := { SupplySt.init with acOk := false } }

/-- Refutes O33: with no supply that delivers, the first reading takes the unit's power, and with it the reading. -/
theorem not_supplyCommands : ¬ Obligations.SupplyCommands := by
  unfold Obligations.SupplyCommands
  rintro ⟨-, -, poll⟩
  obtain ⟨t, ran, -, vin, -⟩ := poll 1200 1200 0 0 0 State.withoutInputs _ rfl (by decide) (by decide)
  have polled := Host.Outcome.next.inj ran
  have := (vin (by decide)).1
  rw [← polled] at this
  revert this
  decide

end Sys2Proof.Machine

/-! PROOFS. Characters that come to a console port, and the service USB port (15 R373, R377, R378). -/

namespace Sys2Proof.Machine

section service
variable {s t : State} {p : ConsPort} {c : Byte} {l : List Byte} {v : SvcSt}

/-! ### Characters of a console line (R373) -/

theorem SvcSt.line_setLine : (v.setLine p l).line p = l := by
  cases p <;> rfl

/-- The supervisor hears of a character. -/
def State.hears (s : State) : State :=
  let s := s.privEdge s.flt.token 32 6
  s.setMode { s.mode with lastInput := s.now }

theorem State.hears_svc : s.hears.svc = s.svc := State.privEdge_keep.svc_eq (by decide)
theorem State.hears_mode : s.hears.mode.mode = s.mode.mode := State.privEdge_keep.mode0 (by decide)
theorem State.echo_mode : (s.echo p c).mode = s.mode := by
  cases p <;> rfl

theorem State.echo_line : (s.echo p c).svc.line p = s.svc.line p := by
  cases p <;> rfl

theorem State.echo_outRj : (s.echo .rj45 c).svc.outRj = s.svc.outRj ++ [c] := rfl

theorem SvcUsb.outBuf_give (u : SvcUsb) : (u.give l).outBuf = u.outBuf := by
  unfold SvcUsb.give
  split <;> rfl

theorem State.echo_outBuf : (s.echo p c).svc.usb.outBuf = s.svc.usb.outBuf := by
  cases p
  · rfl
  · exact SvcUsb.outBuf_give _

theorem SvcSt.setLine_usb : (v.setLine p l).usb = v.usb := by
  cases p <;> rfl

theorem SvcSt.setLine_outRj : (v.setLine p l).outRj = v.outRj := by
  cases p <;> rfl

theorem State.rxChar_lf (live : s.consoleLive = true) : s.rxChar p 0x0A = s.hears := by
  rw [State.rxChar, live, if_neg (show ¬(!true) = true by decide)]
  rfl

theorem State.rxChar_del (live : s.consoleLive = true) (del : c = 0x08 ∨ c = 0x7F) :
    s.rxChar p c = (s.hears.echo p c).setSvc ((s.hears.echo p c).svc.setLine p (s.svc.line p).dropLast) := by
  have ends : c ≠ 0x0A ∧ c ≠ 0x0D := by
    rcases del with rfl | rfl <;> decide
  rw [State.rxChar, live, if_neg (show ¬(!true) = true by decide)]
  dsimp only
  rw [if_neg ends.1, if_neg ends.2, if_pos del]
  have same : s.hears.svc = s.svc := State.hears_svc
  rw [← same]
  rfl

/-- A character that is neither a line's end nor a deletion joins the line while it holds fewer than 80. -/
theorem State.rxChar_plain (live : s.consoleLive = true) (lf : c ≠ 0x0A) (cr : c ≠ 0x0D) (bs : c ≠ 0x08) (del : c ≠ 0x7F)
    (room : (s.svc.line p).length < 80) :
    s.rxChar p c = (s.hears.echo p c).setSvc ((s.hears.echo p c).svc.setLine p (s.svc.line p ++ [c])) := by
  have same : s.hears.svc = s.svc := State.hears_svc
  rw [← same] at room ⊢
  rw [State.rxChar, live, if_neg (show ¬(!true) = true by decide)]
  dsimp only
  rw [if_neg lf, if_neg cr, if_neg (not_or.mpr ⟨bs, del⟩)]
  exact if_pos room

/-- Characters that join the line, one after the other. -/
theorem State.rxChars_plain (b : List Byte) (plain : ∀ x ∈ b, x ≠ 0x0A ∧ x ≠ 0x0D ∧ x ≠ 0x08 ∧ x ≠ 0x7F)
    (live : s.consoleLive = true) (room : (s.svc.line p).length + b.length ≤ 80) :
    (b.foldl (fun s c => s.rxChar p c) s).svc.line p = s.svc.line p ++ b ∧
      (b.foldl (fun s c => s.rxChar p c) s).svc.usb.outBuf = s.svc.usb.outBuf := by
  induction b generalizing s with
  | nil => exact ⟨(List.append_nil _).symm, rfl⟩
  | cons c b ih =>
    obtain ⟨lf, cr, bs, del⟩ := plain c List.mem_cons_self
    rw [List.length_cons] at room
    have next := State.rxChar_plain live lf cr bs del (show (s.svc.line p).length < 80 by omega)
    have joined : (s.rxChar p c).svc.line p = s.svc.line p ++ [c] := by
      rw [next]
      exact SvcSt.line_setLine
    have kept : (s.rxChar p c).svc.usb.outBuf = s.svc.usb.outBuf := by
      rw [next]
      exact (congrArg SvcUsb.outBuf SvcSt.setLine_usb).trans (State.echo_outBuf.trans (by rw [State.hears_svc]))
    have still : (s.rxChar p c).consoleLive = true := by
      rw [next]
      show ((s.hears.echo p c).mode.mode != .unpowered) = true
      rw [State.echo_mode, State.hears_mode]
      exact live
    rw [List.foldl_cons]
    obtain ⟨line, out⟩ := ih (fun x mem => plain x (List.mem_cons_of_mem _ mem)) still
      (by rw [joined, List.length_append, List.length_singleton]; omega)
    exact ⟨by rw [line, joined, List.append_assoc, List.singleton_append], out.trans kept⟩

/-! ### The device (R377, R378) -/

theorem State.classRequest_eq (f : SvcUsb → SvcUsb) (up : s.svc.usb.pullup = true) (awake : s.svc.usb.suspended = false) :
    s.classRequest f = s.setUsbDev (f { s.svc.usb with configured := true, stalled := false, reply := [] }) := by
  rw [State.classRequest, if_pos (by rw [up, awake]; rfl)]

theorem yields_vbusPresent : Yields .vbusPresent s fun t =>
    t.svc.usb.vbus = true ∧ (s.consoleServed = true → t.svc.usb.pullup = true) := by
  refine ⟨_, rfl, ?_⟩
  unfold State.attachUsb
  dsimp only
  split
  · exact ⟨rfl, fun _ => rfl⟩
  next served => exact ⟨rfl, fun h => absurd h served⟩

theorem yields_bulkOutReceive (up : s.svc.usb.pullup = true) (awake : s.svc.usb.suspended = false)
    (configured : s.svc.usb.configured = true) (live : s.consoleLive = true) (b : List Byte)
    (plain : ∀ x ∈ b, x ≠ 0x0A ∧ x ≠ 0x0D ∧ x ≠ 0x08 ∧ x ≠ 0x7F) (room : (s.svc.line .usbc).length + b.length ≤ 80) :
    Yields (.bulkOutReceive b) s fun t => t.svc.line .usbc = s.svc.line .usbc ++ b ∧ t.svc.usb.outBuf = b :=
  ⟨_, congrArg Host.Outcome.next (if_pos (by rw [up, awake, configured]; rfl)),
    State.rxChars_plain (s := s.setUsbDev { s.svc.usb with outBuf := b }) b plain live room⟩

end service

/-- Settles O45. The pull-up at once is log entry 127 (DESIGN CHOICE), the line coding before the first is log entry 23
(PRESUMED). -/
theorem servicePort : Obligations.ServicePort := by
  unfold Obligations.ServicePort
  intro s
  refine ⟨yields_vbusPresent, ⟨_, rfl, rfl, rfl, rfl, rfl⟩,
    fun up => ⟨_, congrArg Host.Outcome.next (if_pos up), rfl, rfl, rfl, rfl, rfl, rfl⟩,
    fun up => ⟨_, congrArg Host.Outcome.next (if_pos up), rfl⟩,
    fun asleep served => ⟨_, congrArg Host.Outcome.next (if_pos (by rw [asleep, served]; rfl)), rfl⟩, fun up awake => ?_⟩
  refine ⟨fun b => ⟨_, congrArg Host.Outcome.next ((if_pos rfl).trans (State.classRequest_eq _ up awake)), rfl⟩,
    ⟨_, congrArg Host.Outcome.next (State.classRequest_eq _ up awake), rfl, rfl⟩,
    fun d => ⟨_, congrArg Host.Outcome.next (State.classRequest_eq _ up awake), rfl, rfl⟩,
    fun r => ⟨_, congrArg Host.Outcome.next (State.classRequest_eq _ up awake), rfl, rfl⟩, fun configured live => ?_⟩
  exact ⟨yields_bulkOutReceive up awake configured live,
    ⟨_, congrArg Host.Outcome.next (if_pos (by rw [up, awake, configured]; rfl)), rfl, rfl⟩⟩

end Sys2Proof.Machine

/-! PROOFS. Links and ports that a test takes down (15 R381, R387): the other seats keep theirs. -/

namespace Sys2Proof.Machine

section down
variable {s t u : State} {x y : Seat} {l : SeatLink} {cause now : Nat} {atOnce : Bool} {st : PowerState} {v : SeatPower}

theorem State.link__setLink__ne (h : y ≠ x) : (s.setLink_ x l).link_ y = s.link_ y :=
  tget_tset_ne _ _ _ _ fun same => h (Fin.ext same)

theorem State.link_endHold_ne (h : y ≠ x) : (s.endHold x).link_ y = s.link_ y := by
  unfold State.endHold
  dsimp only
  split
  · rw [State.setPortState_keep.link_ (by decide), State.link__setLink__ne h]
  · exact State.link__setLink__ne h

theorem State.link_flushSeat_ne (h : y ≠ x) : (s.flushSeat x).link_ y = s.link_ y := by
  have rest (v : State) (kept : Keep (2 ^ 20) s v) :
      ((((v.setLink_ x { v.link_ x with svcEpoch := 0, svcDock := 0 }).endHold x).bumpSeat x 16 1).link_ y) = s.link_ y := by
    rw [State.bumpSeat_keep.link_ (by decide), State.link_endHold_ne h, State.link__setLink__ne h, kept.link_ (by decide)]
  unfold State.flushSeat
  dsimp only
  refine rest _ ?_
  refine Keep.step State.setWfq_keep (by decide) ?_
  refine Keep.step State.discardQueued_keep (by decide) ?_
  refine Keep.foldl ?_ fun _ _ => State.clearTunnel_keep.weaken (by decide)
  refine Keep.step State.settleGroups_keep (by decide) ?_
  refine Keep.foldl ?_ fun _ _ => Keep.step State.detachHead_keep (by decide) (State.dropConfig_keep.weaken (by decide))
  refine Keep.step State.flushPorts_keep (by decide) ?_
  refine Keep.step State.setUsbSeat_keep (by decide) ?_
  exact Keep.step State.closeAtOnce_keep (by decide) (State.endNet_keep.weaken (by decide))

theorem State.link_lose_ne (h : y ≠ x) : (s.lose x cause).link_ y = s.link_ y := by
  unfold State.lose
  dsimp only
  rw [State.stopTunnels_keep.link_ (by decide), State.link__setLink__ne h]
  split <;> exact (State.setSeatTime_keep.link_ (by decide) y).trans (State.bumpSeat_keep.link_ (by decide) y)

theorem State.link_beginHold_ne (h : y ≠ x) : (u.beginHold x l now).link_ y = u.link_ y := by
  unfold State.beginHold
  split
  · rfl
  · rw [State.setPortState_keep.link_ (by decide), State.link__setLink__ne h]

theorem State.link_holdOrFlush_ne (h : y ≠ x) : (u.holdOrFlush x l now atOnce).link_ y = u.link_ y := by
  unfold State.holdOrFlush
  split
  · rfl
  · split
    · exact State.link_flushSeat_ne h
    · split
      · exact (State.link_flushSeat_ne h).trans (State.link_beginHold_ne h)
      · exact State.link_beginHold_ne h

/-- A loss of one seat's link leaves the others. -/
theorem State.link_goDown_ne (h : y ≠ x) : (s.goDown x cause atOnce).link_ y = s.link_ y := by
  cases up : (s.link_ x).pcsUp
  · rw [State.goDown, up]
    rfl
  · rw [State.goDown_eq up]
    dsimp only
    split
    · rw [State.link__setLink__ne h, State.link_holdOrFlush_ne h, State.link_lose_ne h]
    · rw [State.negotiate, State.startTarget_keep.link_ (by decide), State.link__setLink__ne h, State.link_holdOrFlush_ne h,
        State.link_lose_ne h]

theorem State.pcsUp_goDown : ((s.goDown x cause atOnce).link_ x).pcsUp = false := by
  cases up : (s.link_ x).pcsUp
  · rw [State.goDown, up]
    exact up
  · exact (State.link_goDown up).1

/-- No seat's link comes up by another's loss. -/
theorem State.pcsUp_linkDown (h : y = x ∨ (s.link_ y).pcsUp = false) :
    ((s.linkDone x (s.goDown x cause atOnce)).link_ y).pcsUp = false := by
  rw [State.linkDone_keep.link_ (by decide)]
  by_cases same : y = x
  · rw [same, State.pcsUp_goDown]
  · rw [State.link_goDown_ne same]
    exact h.resolve_left same

theorem State.pcsUp_linksDown (l : List Seat) (h : y ∈ l ∨ (s.link_ y).pcsUp = false) : ((s.linksDown l).link_ y).pcsUp = false := by
  induction l generalizing s with
  | nil => exact h.resolve_left List.not_mem_nil
  | cons x l ih =>
    refine ih (s := s.linkDone x (s.goDown x 1 false)) ?_
    by_cases later : y ∈ l
    · exact .inl later
    · exact .inr (State.pcsUp_linkDown (h.imp_left fun mem => (List.mem_cons.mp mem).resolve_right later))

/-! ### The port of a test (R381) -/

/-- A test on a seat takes its power and its link. -/
theorem State.testBegins_leaves : ((s.testBegins x).seatPower x).st = .test ∧ ((s.testBegins x).link_ x).pcsUp = false := by
  unfold State.testBegins
  dsimp only
  refine ⟨?_, State.pcsUp_linkDown (.inl rfl)⟩
  rw [State.linkDone_keep.seatPower (by decide), State.goDown_keep.seatPower (by decide), State.seatPower_removePower]
  rfl

theorem State.powerAllowed_st_ne (h : (s.seatPower x).st ≠ .test) : ((s.powerAllowed x).seatPower x).st ≠ .test := by
  unfold State.powerAllowed
  dsimp only
  split
  · split
    · rw [State.seatPower_putPower]
      exact PowerState.noConfusion
    · exact h
  · split
    · exact h
    · rw [State.seatPower_removePower]
      exact PowerState.noConfusion

theorem State.testEnds_st : ((s.testEnds x).seatPower x).st ≠ .test := by
  unfold State.testEnds
  dsimp only
  split
  · refine State.powerAllowed_st_ne ?_
    rw [State.seatPower_putPower]
    exact PowerState.noConfusion
  next h => exact h

theorem State.contEnd_leaves {k : ContTest} (running : s.svc.cont = some k) :
    s.contEnd.svc.cont = none ∧ (s.contEnd.seatPower k.seat).st ≠ .test := by
  rw [State.contEnd, running]
  exact ⟨congrArg SvcSt.cont (State.testEnds_keep.svc_eq (by decide)), State.testEnds_st⟩

theorem State.tdrEnd_leaves {p : Option ConsPort} (running : s.svc.tdr = some (x, p)) :
    s.tdrEnd.svc = { s.svc with tdr := none } ∧ (s.tdrEnd.seatPower x).st ≠ .test := by
  rw [State.tdrEnd, running]
  exact ⟨State.testEnds_keep.svc_eq (by decide), State.testEnds_st⟩

end down

/-! ### What the console says (R373) -/

section saying
variable {s : State} {l : List (List Byte)} {b : List Byte}

/-- An output of the console is all that it changes. -/
def SvcSt.said (v : SvcSt) (b : List Byte) (u : SvcUsb) : SvcSt := { v with outRj := v.outRj ++ b, usb := u }

theorem State.consolePut_said : ∃ u, s.consolePut b = s.setSvc (s.svc.said b u) := ⟨_, rfl⟩

theorem linesText_cons (x : List Byte) (l : List (List Byte)) : linesText (x :: l) = (x ++ Config.lineEnd) ++ linesText l := rfl

theorem State.say_said : ∃ u, s.say l = s.setSvc (s.svc.said (linesText l) u) := by
  induction l generalizing s with
  | nil =>
    refine ⟨s.svc.usb, ?_⟩
    show s = s.setSvc { s.svc with outRj := s.svc.outRj ++ [] }
    rw [List.append_nil]
    rfl
  | cons x l ih =>
    obtain ⟨u, said⟩ := ih (s := s.consoleOut x)
    refine ⟨u, ?_⟩
    rw [linesText_cons]
    unfold State.say
    rw [List.foldl_cons]
    refine said.trans ?_
    show s.setSvc { s.svc with outRj := (s.svc.outRj ++ (x ++ Config.lineEnd)) ++ linesText l, usb := u } = _
    rw [List.append_assoc]
    rfl

/-- Lines and the prompt after them. -/
theorem State.says_prompt : ∃ u, (s.say l).prompt = s.setSvc (s.svc.said (linesText l ++ s.promptText) u) := by
  obtain ⟨u, said⟩ := s.say_said (l := l)
  rw [said]
  refine ⟨u.give s.promptText, ?_⟩
  show s.setSvc { s.svc with outRj := (s.svc.outRj ++ linesText l) ++ s.promptText, usb := u.give s.promptText } = _
  rw [List.append_assoc]
  rfl

theorem State.consoleOut_prompt : (s.consoleOut b).prompt = (s.say [b]).prompt := rfl

end saying

end Sys2Proof.Machine

/-! PROOFS. Seat tests, the meter, self-tests and the front panel (15 R379 to R387). -/

namespace Sys2Proof.Machine

section panel
variable {s u : State} {x : Seat} {ut : Nat} {k : ContTest}

theorem yields_continuityMeasure {v : Int} (arrived : u = s.arrive ut) (running : u.svc.cont = some k) :
    Yields (.continuityMeasure v ut) s fun t =>
      if contRead v = .foreign then t.svc.cont = none else t.svc.cont = some { k with reading := contRead v } := by
  subst arrived
  refine ⟨_, rfl, ?_⟩
  dsimp only
  rw [State.contMeasure, running]
  dsimp only
  by_cases foreign : contRead v = .foreign
  · rw [if_pos foreign, if_pos foreign]
    exact (State.contEnd_leaves (k := { k with reading := contRead v }) rfl).1
  · rw [if_neg foreign, if_neg foreign]
    rfl

theorem yields_continuityTimeout (arrived : u = s.arrive ut) (running : u.svc.cont = some k)
    (long : k.started + 600000 * ms ≤ u.now) : Yields (.continuityTimeout ut) s fun t =>
      t.svc.cont = none ∧ (t.seatPower k.seat).st ≠ .test := by
  subst arrived
  have run : exec (.continuityTimeout ut) s = .next (s.arrive ut).contEnd := by
    show execContinuityTimeout ut s = _
    rw [execContinuityTimeout, running]
    exact congrArg Host.Outcome.next (if_pos long)
  exact ⟨_, run, State.contEnd_leaves running⟩

/-- What a cable test found is written before the test ends. -/
def State.cableFound (s : State) (x : Seat) (all : List (Fin 4 × CableResult)) : State :=
  let s := s.setSvc { s.svc with cable := all }
  match all.findSome? fun e => cableDistance e.2 with
  | some m => s.setSeatPower x { s.seatPower x with openDistance := BitVec.ofNat 8 (min 0xFE m) }
  | none => s

theorem State.cableFound_svc {all : List (Fin 4 × CableResult)} : (s.cableFound x all).svc = { s.svc with cable := all } := by
  unfold State.cableFound
  dsimp only
  split <;> rfl

theorem State.cableDone_eq {p : Option ConsPort} {l : List (Fin 4 × CableResult)} (running : s.svc.tdr = some (x, p)) :
    s.cableDone l =
      let all := (List.finRange 4).map fun k => (k, cablePair l k)
      let t := (s.cableFound x all).tdrEnd
      if p.isSome then (t.say (all.map fun e => cableText e.1 e.2)).prompt else t := by
  unfold State.cableDone
  rw [running]
  rfl

theorem yields_cableTestDone {p : Option ConsPort} {l : List (Fin 4 × CableResult)} (running : s.svc.tdr = some (x, p)) :
    Yields (.cableTestDone l) s fun t => t.svc.tdr = none ∧ (t.seatPower x).st ≠ .test ∧
      t.svc.cable = (List.finRange 4).map fun k => (k, cablePair l k) := by
  have svc := s.cableFound_svc (x := x) (all := (List.finRange 4).map fun k => (k, cablePair l k))
  obtain ⟨ended, port⟩ := State.tdrEnd_leaves (x := x) (p := p)
    (s := s.cableFound x ((List.finRange 4).map fun k => (k, cablePair l k))) (by rw [svc]; exact running)
  refine ⟨_, congrArg Host.Outcome.next (State.cableDone_eq running), ?_⟩
  dsimp only
  generalize (s.cableFound x ((List.finRange 4).map fun k => (k, cablePair l k))).tdrEnd = t at ended port
  rw [svc] at ended
  split
  · obtain ⟨v, said⟩ := t.says_prompt (l := ((List.finRange 4).map fun k => (k, cablePair l k)).map fun e => cableText e.1 e.2)
    rw [said]
    exact ⟨congrArg SvcSt.tdr ended, port, congrArg SvcSt.cable ended⟩
  · exact ⟨congrArg SvcSt.tdr ended, port, congrArg SvcSt.cable ended⟩

theorem yields_measUpdate (arrived : u = s.arrive ut) (due : u.svc.measUt + 100 * ms ≤ u.now) : Yields (.measUpdate ut) s fun t =>
    t.svc = { u.svc with measMv := u.measOut, measUt := u.now } := by
  subst arrived
  exact ⟨_, congrArg Host.Outcome.next (if_pos due), rfl⟩

theorem yields_selfTestDone {pass : Bool} {item n : Nat} {p : Option ConsPort} (running : s.svc.running = some (n, p)) :
    Yields (.selfTestDone pass item) s fun t => t.svc.running = none ∧ t.svc.lastVerdict = (if pass then 2 else 3) ∧
      tget t.svc.verdicts n 0 = (if pass then 2 else 3) := by
  refine ⟨_, rfl, ?_⟩
  dsimp only
  rw [State.selfTestEnds, running]
  dsimp only
  split <;> exact ⟨rfl, rfl, tget_tset_same _ _ _ _⟩

theorem yields_selectTap (arrived : u = s.arrive ut) (on : u.panelOn = true) : Yields (.selectTap ut) s fun t =>
    t.svc.panel = u.svc.panel.tap u.now := by
  subst arrived
  exact ⟨_, congrArg Host.Outcome.next (if_pos on), rfl⟩

/-! ### A hold (R385) -/

/-- A press of the panel is noted. -/
def State.pressed (s : State) : State := s.setPanel { s.svc.panel with lastPress := s.now }

theorem selectHold_eq (arrived : u = s.arrive ut) (on : u.panelOn = true) : exec (.selectHold ut) s = .next u.pressed.panelHold := by
  subst arrived
  exact congrArg Host.Outcome.next (if_pos on)

theorem State.panelHold_meas (item : s.svc.panel.item = 6) (served : s.mode.mode ≠ .unsupervised) :
    s.panelHold = s.setSvc { s.svc with measCode := s.svc.panel.value } := by
  have served' : (s.mode.mode == .unsupervised) = false := beq_eq_false_iff_ne.mpr served
  rw [State.panelHold, item, served']
  rfl

/-- A hold at COLD asks, and starts cold when it was asked just before. -/
def State.coldHold (s : State) : State :=
  match s.svc.panel.sureUt with
  | some t => if s.now < t then s.coldRequest none else s.setPanel { s.svc.panel with sureUt := some (s.now + 5000 * ms) }
  | none => s.setPanel { s.svc.panel with sureUt := some (s.now + 5000 * ms) }

theorem State.panelHold_nine (item : s.svc.panel.item = 9) : s.panelHold = s.coldHold := by
  have other (n : Nat) (h : 9 ≠ n) : ¬s.svc.panel.item = n := fun same => h (item.symm.trans same)
  unfold State.panelHold
  dsimp only
  rw [if_neg (other 1 (by decide)), if_neg (other 4 (by decide)), if_neg (other 5 (by decide)), if_neg (other 6 (by decide)),
    if_neg (other 7 (by decide)), if_neg (other 8 (by decide)), if_pos item]
  rfl

theorem State.panelHold_ask (item : s.svc.panel.item = 9) (first : s.svc.panel.sureUt = none) :
    s.panelHold = s.setPanel { s.svc.panel with sureUt := some (s.now + 5000 * ms) } := by
  rw [State.panelHold_nine item]
  unfold State.coldHold
  split
  next t asked => exact absurd (first.symm.trans asked) nofun
  · rfl

theorem State.panelHold_cold {e : Nat} (item : s.svc.panel.item = 9) (asked : s.svc.panel.sureUt = some e) (soon : s.now < e) :
    s.panelHold = s.coldRequest none := by
  rw [State.panelHold_nine item, State.coldHold, asked]
  exact if_pos soon

theorem State.mode_coldRequest {slot : Option (Fin 2)} : (s.coldRequest slot).mode.mode = .coldStart := by
  unfold State.coldRequest
  exact State.coldBegin_leaves.1

theorem yields_hold_meas (arrived : u = s.arrive ut) (on : u.panelOn = true) (item : u.svc.panel.item = 6)
    (served : u.mode.mode ≠ .unsupervised) : Yields (.selectHold ut) s fun t => t.svc.measCode = u.svc.panel.value :=
  ⟨_, (selectHold_eq arrived on).trans (congrArg Host.Outcome.next (State.panelHold_meas (s := u.pressed) item served)), rfl⟩

theorem yields_hold_ask (arrived : u = s.arrive ut) (on : u.panelOn = true) (item : u.svc.panel.item = 9)
    (first : u.svc.panel.sureUt = none) : Yields (.selectHold ut) s fun t =>
      t.svc.panel.sureUt = some (u.now + 5000 * ms) ∧ t.mode.mode = u.mode.mode :=
  ⟨_, (selectHold_eq arrived on).trans (congrArg Host.Outcome.next (State.panelHold_ask (s := u.pressed) item first)), rfl, rfl⟩

theorem yields_hold_cold {e : Nat} (arrived : u = s.arrive ut) (on : u.panelOn = true) (item : u.svc.panel.item = 9)
    (asked : u.svc.panel.sureUt = some e) (soon : u.now < e) : Yields (.selectHold ut) s fun t => t.mode.mode = .coldStart :=
  ⟨_, (selectHold_eq arrived on).trans (congrArg Host.Outcome.next (State.panelHold_cold (s := u.pressed) item asked soon)),
    State.mode_coldRequest⟩

theorem yields_selectLongHold (arrived : u = s.arrive ut) (on : u.panelOn = true) (service : u.mode.mode = .service) :
    Yields (.selectLongHold ut) s fun t => t.mode.mode = u.resting := by
  subst arrived
  refine ⟨_, congrArg Host.Outcome.next (if_pos on), ?_⟩
  exact (congrArg (fun t : State => t.mode.mode) (if_pos service)).trans (State.enterMode_mode _ _)

theorem yields_panelIdle (arrived : u = s.arrive ut) (idle : u.svc.panel.lastPress + 60000 * ms ≤ u.now) :
    Yields (.panelIdle ut) s fun t => t.svc.panel.item = 0 ∧ t.svc.panel.sureUt = none ∧ t.svc.panel.noUt = none ∧
      t.svc.selected = u.svc.selected := by
  subst arrived
  exact ⟨_, congrArg Host.Outcome.next (if_pos idle), rfl, rfl, rfl, rfl⟩

end panel

/-- Settles O44. -/
theorem testsAndPanel : Obligations.TestsAndPanel := by
  unfold Obligations.TestsAndPanel
  exact ⟨fun _ _ _ _ _ => yields_continuityMeasure, fun _ _ _ _ => yields_continuityTimeout, fun _ _ _ _ => yields_cableTestDone,
    fun _ _ _ => yields_measUpdate, fun _ _ _ _ _ => yields_selfTestDone,
    fun _ _ _ arrived on => ⟨yields_selectTap arrived on, yields_hold_meas arrived on, yields_hold_ask arrived on,
      fun _ => yields_hold_cold arrived on, yields_selectLongHold arrived on⟩,
    fun _ _ _ => yields_panelIdle⟩

end Sys2Proof.Machine

/-! PROOFS. A line of the recorder console (15 R373 to R375). -/

namespace Sys2Proof.Machine

section line
variable {s z : State} {x : Seat} {p : ConsPort} {c : ConsCmd} {i : Instr} {r : Option (List Nat)} {l : List (List Byte)} {b : List Byte}

/-- A line is noted: its time, the log, and the seat that it selects. -/
def State.noteLine (s : State) (l : List (List Byte)) (x : Seat) : State :=
  (s.setMode { s.mode with lastInput := s.now }).setSvc { s.svc with log := l, selected := x }

/-- What the log holds once a line is logged. -/
def State.logOf (s : State) (p : ConsPort) (c : ConsCmd) : List (List Byte) :=
  ((s.setMode { s.mode with lastInput := s.now }).logLine (consPortText p ++ c.text)).svc.log

/-- A line is read. -/
def State.lineIn (s : State) (p : ConsPort) (c : ConsCmd) : State := s.noteLine (s.logOf p c) (c.seat.getD s.svc.selected)

/-- A command that asks before it acts. -/
def State.asks (s : State) (p : ConsPort) (c : ConsCmd) : State :=
  (s.consoleOut (ascii "confirm? (yes)")).setSvc { (s.consoleOut (ascii "confirm? (yes)")).svc with confirm := some (p, c, s.now) }

/-- What follows a line that is accepted. -/
def State.lineDone (s : State) (p : ConsPort) (c : ConsCmd) (r : Option (List Nat)) : State :=
  if c.confirms then (s.lineIn p c).asks p c else (s.lineIn p c).consoleCarry p c r

theorem State.logLine_svc : s.logLine b = s.setSvc { s.svc with log := (s.logLine b).svc.log } := by
  unfold State.logLine
  dsimp only
  generalize List.drop _ _ = l
  rfl

theorem State.logLine_noted : (s.setMode { s.mode with lastInput := s.now }).logLine (consPortText p ++ c.text) =
    s.noteLine (s.logOf p c) s.svc.selected := by
  rw [State.logLine_svc]
  rfl

theorem State.noteLine_outRj : (s.noteLine l x).svc.outRj = s.svc.outRj := rfl

theorem State.consoleRefusal_noteLine : (s.noteLine l s.svc.selected).consoleRefusal c = s.consoleRefusal c := rfl

theorem State.consoleEnter_first {yes : Bool} {run : State → State} (live : s.consoleLive = true) (free : s.svc.confirm = none) :
    s.consoleEnter p yes run = run (s.setMode { s.mode with lastInput := s.now }) := by
  rw [State.consoleEnter, live, if_neg (show ¬(!true) = true by decide)]
  dsimp only
  split
  · rfl
  next asked => exact absurd (free.symm.trans asked) nofun

/-- A command once it is logged. -/
def State.readCmd (s : State) (p : ConsPort) (c : ConsCmd) (r : Option (List Nat)) : State :=
  match (match c.unknown with
    | some w => some w
    | none => s.consoleRefusal c) with
  | some w => s.consoleReply w
  | none =>
    let s := match c.seat with
      | some x => s.setSvc { s.svc with selected := x }
      | none => s
    if c.confirms then s.asks p c else s.consoleCarry p c r

theorem State.consoleCmd_served (served : s.mode.mode ≠ .unsupervised) :
    s.consoleCmd p c r = (s.logLine (consPortText p ++ c.text)).readCmd p c r := by
  rw [State.consoleCmd, if_neg served]
  rfl

theorem State.readCmd_noteLine (known : c.unknown = none) : (s.noteLine l s.svc.selected).readCmd p c r =
    match s.consoleRefusal c with
    | some w => (s.noteLine l s.svc.selected).consoleReply w
    | none => if c.confirms then (s.noteLine l (c.seat.getD s.svc.selected)).asks p c
        else (s.noteLine l (c.seat.getD s.svc.selected)).consoleCarry p c r := by
  rw [State.readCmd, known]
  dsimp only
  rw [State.consoleRefusal_noteLine]
  cases s.consoleRefusal c with
  | some w => rfl
  | none => cases c <;> rfl

theorem State.consoleRun_served (live : s.consoleLive = true) (free : s.svc.confirm = none) (served : s.mode.mode ≠ .unsupervised)
    (known : c.unknown = none) : s.consoleRun p c r = match s.consoleRefusal c with
      | some w => (s.noteLine (s.logOf p c) s.svc.selected).consoleReply w
      | none => s.lineDone p c r := by
  have read := State.consoleCmd_served (s := s.setMode { s.mode with lastInput := s.now }) (p := p) (c := c) (r := r) served
  rw [State.consoleRun, State.consoleEnter_first live free, read, State.logLine_noted, State.readCmd_noteLine known]
  rfl

theorem State.consoleRun_takes (takes : TakesLine s c) : s.consoleRun p c r = s.lineDone p c r := by
  obtain ⟨live, free, served, known, taken⟩ := takes
  rw [State.consoleRun_served live free served known, taken]

theorem State.consoleRun_refused {w : List Byte} (live : s.consoleLive = true) (free : s.svc.confirm = none)
    (served : s.mode.mode ≠ .unsupervised) (known : c.unknown = none) (refused : s.consoleRefusal c = some w) :
    s.consoleRun p c r = (s.noteLine (s.logOf p c) s.svc.selected).consoleReply w := by
  rw [State.consoleRun_served live free served known, refused]

/-- A command that does not ask is carried out, whatever the log then holds. -/
theorem State.lineDone_silent (silent : c.confirms = false) :
    ∃ m, s.lineDone p c r = (s.noteLine m (c.seat.getD s.svc.selected)).consoleCarry p c r := by
  refine ⟨s.logOf p c, ?_⟩
  rw [State.lineDone, silent, if_neg Bool.false_ne_true, State.lineIn]

/-! ### Commands that show something -/

/-- Lines and the prompt, said on a state whose output is that of `s`. -/
theorem saysPrompt (same : z.svc.outRj = s.svc.outRj) : Says s (z.say l).prompt l := by
  obtain ⟨u, said⟩ := z.says_prompt (l := l)
  rw [said]
  show z.svc.outRj ++ (linesText l ++ z.promptText) = s.svc.outRj ++ linesText l ++ z.promptText
  rw [same, List.append_assoc]

theorem State.svc_say_prompt : ((z.say l).prompt).svc.log = z.svc.log ∧ ((z.say l).prompt).svc.selected = z.svc.selected := by
  obtain ⟨u, said⟩ := z.says_prompt (l := l)
  rw [said]
  exact ⟨rfl, rfl⟩

/-- An accepted command that shows lines. -/
theorem yields_shown (takes : TakesLine s c) (run : exec i s = .next (s.consoleRun p c r)) (silent : c.confirms = false)
    (carried : ∀ m x, (s.noteLine m x).consoleCarry p c r = ((s.noteLine m x).say l).prompt) : Yields i s fun t => Says s t l := by
  refine ⟨((s.lineIn p c).say l).prompt, ?_, saysPrompt (z := s.lineIn p c) State.noteLine_outRj⟩
  rw [run, State.consoleRun_takes takes, State.lineDone, silent, if_neg Bool.false_ne_true, State.lineIn, carried]

theorem yields_seatShow (takes : TakesLine s (.seatShow x)) : Yields (.seatShow p x) s fun t =>
    Says s t (s.seatLines x) ∧ t.svc.selected = x := by
  have shown (m y) : (s.noteLine m y).consoleCarry p (.seatShow x) none = ((s.noteLine m y).say (s.seatLines x)).prompt := rfl
  refine ⟨((s.lineIn p (.seatShow x)).say (s.seatLines x)).prompt, congrArg Host.Outcome.next ?_,
    saysPrompt (z := s.lineIn p (.seatShow x)) State.noteLine_outRj, (State.svc_say_prompt).2⟩
  rw [State.consoleRun_takes takes, State.lineDone, if_neg (show ¬(ConsCmd.seatShow x).confirms = true by exact Bool.false_ne_true),
    State.lineIn, shown]

theorem yields_log {n : Option Nat} (takes : TakesLine s (.log n)) : Yields (.log p n) s fun t =>
    Says s t (lastLines (n.getD 20) t.svc.log) := by
  refine ⟨((s.lineIn p (.log n)).say (lastLines (n.getD 20) (s.logOf p (.log n)))).prompt, congrArg Host.Outcome.next ?_, ?_⟩
  · rw [State.consoleRun_takes takes, State.lineDone, State.lineIn]
    generalize s.logOf p (.log n) = m
    exact if_neg Bool.false_ne_true
  · dsimp only
    rw [State.svc_say_prompt.1]
    unfold State.lineIn
    generalize s.logOf p (.log n) = m
    exact saysPrompt State.noteLine_outRj

theorem yields_meas {n : Nat} (takes : TakesLine s (.meas n)) : Yields (.meas p n) s fun t => t.svc.measCode = n ∧
    Says s t [measName n ++ sp ++ volts (s.measValue n) ++ ascii " V"] := by
  have shown (m) : (s.noteLine m s.svc.selected).consoleCarry p (.meas n) none = (((s.noteLine m s.svc.selected).setSvc
      { (s.noteLine m s.svc.selected).svc with measCode := n }).say [measName n ++ sp ++ volts (s.measValue n) ++ ascii " V"]).prompt := rfl
  have code (m) : ((s.noteLine m s.svc.selected).consoleCarry p (.meas n) none).svc.measCode = n := rfl
  obtain ⟨m, done⟩ := s.lineDone_silent (p := p) (c := .meas n) (r := none) rfl
  refine ⟨_, congrArg Host.Outcome.next ((State.consoleRun_takes takes).trans done), code m, ?_⟩
  have same : ((s.noteLine m s.svc.selected).setSvc { (s.noteLine m s.svc.selected).svc with measCode := n }).svc.outRj = s.svc.outRj := rfl
  exact (shown m).symm ▸ saysPrompt same

theorem yields_serviceEnd_refused {w : List Byte} (live : s.consoleLive = true) (free : s.svc.confirm = none)
    (served : s.mode.mode ≠ .unsupervised) (refused : s.consoleRefusal .serviceEnd = some w) :
    Yields (.serviceEnd p) s fun t => Says s t [w] ∧ t.mode.mode = s.mode.mode :=
  ⟨_, congrArg Host.Outcome.next (State.consoleRun_refused live free served rfl refused),
    saysPrompt (s := s) (l := [w]) (z := s.noteLine (s.logOf p .serviceEnd) s.svc.selected) State.noteLine_outRj, rfl⟩

end line

/-- Settles O42. That `seat show` selects the seat and that `errors` alone shows the token holder's log is log entry 69
(DEDUCED). -/
theorem consoleShows : Obligations.ConsoleShows := by
  unfold Obligations.ConsoleShows
  intro p s
  exact ⟨fun takes => yields_shown takes rfl rfl fun _ _ => rfl, fun takes => yields_shown takes rfl rfl fun _ _ => rfl, fun _ => yields_seatShow,
    fun takes => yields_shown takes rfl rfl fun _ _ => rfl, fun takes => yields_shown takes rfl rfl fun _ _ => rfl,
    fun takes => yields_shown takes rfl rfl fun _ _ => rfl, fun _ => yields_log, fun takes => yields_shown takes rfl rfl fun _ _ => rfl,
    fun _ takes => yields_shown takes rfl rfl fun _ _ => rfl, fun _ takes => yields_shown takes rfl rfl fun _ _ => rfl,
    fun takes => yields_shown takes rfl rfl fun _ _ => rfl, fun _ => yields_meas, fun takes => yields_shown takes rfl rfl fun _ _ => rfl,
    fun _ _ live free served last refused => yields_serviceEnd_refused live free served (last ▸ refused)⟩

end Sys2Proof.Machine

/-! PROOFS. What is left of the mode by SAFE STOP, SERVICE and their like (12 R326, R328, R336). -/

namespace Sys2Proof.Machine

section mode
variable {α : Type} {s t u : State} {K n : Nat} {m : Mode}

/-- A mode state that is another's but for the mode and the reasons. -/
def ModeSt.RestOf (c a : ModeSt) : Prop :=
  c = { a with mode := c.mode, reasons := c.reasons, first := c.first, clearing := c.clearing, causes := c.causes }

theorem Keep.mode_rest (h : Keep K s t) (rest : K.testBit 40 = true) : t.mode.RestOf s.mode := by
  have same := h.modeRest rest
  unfold State.part40 at same
  unfold ModeSt.RestOf
  generalize t.mode = a at same
  generalize s.mode = b at same
  cases a
  cases b
  simp only [Prod.mk.injEq] at same
  simp only [ModeSt.mk.injEq, same, and_self]

theorem ModeSt.RestOf.eq {f : ModeSt → α} {a b : ModeSt} (h : b.RestOf a)
    (same : f { a with mode := b.mode, reasons := b.reasons, first := b.first, clearing := b.clearing, causes := b.causes } = f a) :
    f b = f a := (congrArg f (show b = _ from h)).trans same

theorem Keep.roll (h : Keep K s t) (rest : K.testBit 40 = true) : t.mode.roll = s.mode.roll :=
  (h.mode_rest rest).eq (f := ModeSt.roll) rfl

theorem Keep.start (h : Keep K s t) (rest : K.testBit 40 = true) : t.mode.start = s.mode.start :=
  (h.mode_rest rest).eq (f := ModeSt.start) rfl

theorem Keep.prev (h : Keep K s t) (rest : K.testBit 40 = true) : t.mode.prev = s.mode.prev :=
  (h.mode_rest rest).eq (f := ModeSt.prev) rfl

theorem Keep.stopped (h : Keep K s t) (rest : K.testBit 40 = true) :
    t.mode.stopCause = s.mode.stopCause ∧ t.mode.stopUt = s.mode.stopUt ∧ t.mode.stopOff = s.mode.stopOff :=
  ⟨(h.mode_rest rest).eq (f := ModeSt.stopCause) rfl, (h.mode_rest rest).eq (f := ModeSt.stopUt) rfl,
    (h.mode_rest rest).eq (f := ModeSt.stopOff) rfl⟩

/-- The entry of another mode leaves the one before it, and no more. -/
theorem State.enterMode_eq (other : m ≠ s.mode.mode) :
    Keep (2 ^ 0 + 2 ^ 39 + 2 ^ 40) (s.setMode { s.mode with mode := m, prev := s.mode.mode }) (s.enterMode m) := by
  rw [State.enterMode, if_neg other]
  refine Keep.step State.managerVectorUp_keep (by decide) ?_
  refine Keep.step State.logLine_keep (by decide) ?_
  refine Keep.step State.bwSettle_keep (by decide) ?_
  exact Keep.step State.bwSettle_keep (by decide) (State.setModeChange_keep.weaken (by decide))

theorem State.enterMode_prev (other : m ≠ s.mode.mode) : (s.enterMode m).mode.prev = s.mode.mode :=
  (State.enterMode_eq other).prev (by decide)

/-- The state in which SAFE STOP is entered: no rolling update runs. -/
def State.stopRolling (s : State) : State :=
  match s.mode.roll with
  | some r => (s.setMode { s.mode with roll := none }).endCmd r.port .unitCmd 0x26 0
  | none => s

theorem State.stopRolling_leaves : s.stopRolling.mode.mode = s.mode.mode ∧ s.stopRolling.mode.roll = none ∧
    s.stopRolling.now = s.now := by
  unfold State.stopRolling
  split
  · exact ⟨State.endCmd_keep.mode0 (by decide), State.endCmd_keep.roll (by decide), State.endCmd_keep.now (by decide) (by decide)⟩
  next none => exact ⟨rfl, none, rfl⟩

/-- What SAFE STOP leaves of the mode (R336). -/
theorem State.safeStop_leaves (stopped : s.mode.mode ≠ .safeStop) (powered : s.mode.mode ≠ .unpowered) :
    (s.safeStop n).mode.mode = .safeStop ∧ (s.safeStop n).mode.prev = s.mode.mode ∧
      (s.safeStop n).mode.stopCause = BitVec.ofNat 4 n ∧ (s.safeStop n).mode.stopUt = s.now ∧
      (s.safeStop n).mode.start = none ∧ (s.safeStop n).mode.roll = none := by
  obtain ⟨mode, roll, now⟩ := s.stopRolling_leaves
  have eq : s.safeStop n = (((s.stopRolling.setMode { s.stopRolling.mode with
      stopCause := BitVec.ofNat 4 n
      stopUt := s.stopRolling.now
      stopOff := false
      stopHot := none
      start := none }).enterMode .safeStop).reasonOff 10).saveLog := by
    rw [State.safeStop, if_neg (not_or.mpr ⟨stopped, powered⟩)]
    rfl
  rw [eq, ← mode, ← now]
  generalize s.stopRolling = v at mode roll
  have kept (w : State) : Keep (2 ^ 39 + 2 ^ 40) w (w.reasonOff 10).saveLog :=
    Keep.step State.saveLog_keep (by decide) (State.reasonOff_keep.weaken (by decide))
  have entered := State.enterMode_eq (m := .safeStop) (s := v.setMode { v.mode with
      stopCause := BitVec.ofNat 4 n
      stopUt := v.now
      stopOff := false
      stopHot := none
      start := none }) (by rw [← mode] at stopped; exact stopped.symm)
  have all := (Keep.weaken (K := 2 ^ 39 + 2 ^ 40) (by decide) entered).trans (kept _)
  obtain ⟨cause, time, -⟩ := all.stopped (by decide)
  exact ⟨all.mode0 (by decide), all.prev (by decide), cause, time, all.start (by decide), (all.roll (by decide)).trans roll⟩

theorem State.startStep_none (h : s.startStep = none) : s.theStart = none := by
  unfold State.startStep at h
  unfold State.theStart
  split at h
  · exact nomatch h
  next rest => rw [if_neg rest]

end mode

end Sys2Proof.Machine

/-! PROOFS. Console commands that act, their confirmation and the line editor (15 R373 to R375). -/

namespace Sys2Proof.Machine

section acts
variable {s z u : State} {x : Seat} {p : ConsPort} {c : ConsCmd} {i : Instr} {q : Fin 4} {b : Bool} {n ut a : Nat}
  {line : List Byte} {l : List (List Byte)}

/-! ### Commands that ask first (R375) -/

theorem runs_asks (takes : TakesLine s c) (run : exec i s = .next (s.consoleRun p c none)) (asks : c.confirms = true) :
    ∃ m, exec i s = .next ((s.noteLine m (c.seat.getD s.svc.selected)).asks p c) := by
  refine ⟨s.logOf p c, ?_⟩
  rw [run, State.consoleRun_takes takes, State.lineDone, asks, if_pos rfl, State.lineIn]

theorem linesText_singleton (w : List Byte) : linesText [w] = w ++ Config.lineEnd := List.append_nil _

theorem yields_asks (takes : TakesLine s c) (run : exec i s = .next (s.consoleRun p c none)) (asks : c.confirms = true) :
    Yields i s fun t => t.svc.confirm = some (p, c, s.now) ∧ t.mode.mode = s.mode.mode ∧
      t.svc.outRj = s.svc.outRj ++ linesText [ascii "confirm? (yes)"] := by
  obtain ⟨m, asked⟩ := runs_asks takes run asks
  refine ⟨_, asked, rfl, rfl, ?_⟩
  rw [linesText_singleton]
  rfl

theorem yields_asks_listed (mem : (i, c) ∈ [(Instr.consoleWarm p, ConsCmd.warm), (.consoleStop p, .stop), (.consoleCold p none, .cold none),
    (.consoleCold p (some 0), .cold (some 0)), (.consoleCold p (some 1), .cold (some 1))]) (takes : TakesLine s c) :
    Yields i s fun t => t.svc.confirm = some (p, c, s.now) ∧ t.mode.mode = s.mode.mode ∧
      t.svc.outRj = s.svc.outRj ++ linesText [ascii "confirm? (yes)"] := by
  simp only [List.mem_cons, Prod.mk.injEq, List.not_mem_nil, or_false] at mem
  obtain ⟨rfl, rfl⟩ | ⟨rfl, rfl⟩ | ⟨rfl, rfl⟩ | ⟨rfl, rfl⟩ | ⟨rfl, rfl⟩ := mem <;> exact yields_asks takes rfl rfl

theorem yields_seatCycle_asks (takes : TakesLine s (.seatCycle x)) : Yields (.seatCycle p x) s fun t =>
    t.svc.confirm = some (p, .seatCycle x, s.now) ∧ t.svc.selected = x ∧ t.seatPower x = s.seatPower x := by
  obtain ⟨m, asked⟩ := runs_asks takes (rfl : exec (.seatCycle p x) s = .next (s.consoleRun p (.seatCycle x) none)) rfl
  exact ⟨_, asked, rfl, rfl, rfl⟩

/-! ### Commands that act at once -/

theorem runs_carry (takes : TakesLine s c) (run : exec i s = .next (s.consoleRun p c none)) (silent : c.confirms = false) :
    ∃ m, exec i s = .next ((s.noteLine m (c.seat.getD s.svc.selected)).consoleCarry p c none) := by
  obtain ⟨m, done⟩ := s.lineDone_silent (p := p) (r := none) silent
  exact ⟨m, by rw [run, State.consoleRun_takes takes, done]⟩

theorem State.modeTakes_of (rest : s.startStep = none) (taken : s.consoleRefusal c = none) : s.modeTakes c = true := by
  unfold State.consoleRefusal at taken
  rw [rest] at taken
  dsimp only at taken
  split at taken
  · exact nomatch taken
  next takes => simpa using takes

theorem State.serviceBegin_enters (rest : s.theStart = none) (may : (s.mode.mode.isResting && !s.anyIslet) = true) :
    s.serviceBegin = s.enterMode .service := by
  rw [State.serviceBegin, rest]
  exact if_pos may

theorem State.serviceBegin_records {y : StartSt} (start : s.theStart = some y) :
    s.serviceBegin = s.setMode { s.mode with start := some { y with recordService := true } } := by
  rw [State.serviceBegin, start]

theorem yields_service (rest : s.startStep = none) (takes : TakesLine s .service) : Yields (.service p) s fun t =>
    t.mode.mode = .service := by
  obtain ⟨m, carried⟩ := runs_carry takes (rfl : exec (.service p) s = .next (s.consoleRun p .service none)) rfl
  have begun := State.serviceBegin_enters (s := s.noteLine m s.svc.selected) (State.startStep_none rest)
    (State.modeTakes_of rest takes.2.2.2.2)
  refine ⟨_, carried, (congrArg (fun t : State => t.mode.mode) begun).trans (State.enterMode_mode _ _)⟩

theorem yields_service_start {y : StartSt} (start : s.theStart = some y) (takes : TakesLine s .service) : Yields (.service p) s fun t =>
    t.mode.start = some { y with recordService := true } ∧ t.mode.mode = s.mode.mode := by
  obtain ⟨m, carried⟩ := runs_carry takes (rfl : exec (.service p) s = .next (s.consoleRun p .service none)) rfl
  have begun := State.serviceBegin_records (s := s.noteLine m s.svc.selected) start
  exact ⟨_, carried, (congrArg (fun t : State => t.mode.start) begun :), (congrArg (fun t : State => t.mode.mode) begun :)⟩

theorem yields_serviceEnd (takes : TakesLine s .serviceEnd) (rest : s.startStep = none) : Yields (.serviceEnd p) s fun t =>
    t.mode.mode = s.resting := by
  obtain ⟨m, carried⟩ := runs_carry takes (rfl : exec (.serviceEnd p) s = .next (s.consoleRun p .serviceEnd none)) rfl
  have service : s.mode.mode = .service := by
    have := State.modeTakes_of rest takes.2.2.2.2
    exact beq_iff_eq.mp this
  have ended : (s.noteLine m s.svc.selected).serviceStop = (s.noteLine m s.svc.selected).enterMode s.resting := if_pos service
  exact ⟨_, carried, (congrArg (fun t : State => t.mode.mode) ended).trans (State.enterMode_mode _ _)⟩

theorem yields_restart (mode : s.mode.mode = .unsupervised) (free : s.svc.confirm = none) : Yields (.consoleRestart p) s fun t =>
    ∀ c, (s.coreSt c).fenced = false → (t.coreSt c).sup = .restarting := by
  have live : s.consoleLive = true := by
    rw [State.consoleLive, mode]
    rfl
  have run : s.consoleRun p .restart none =
      ((s.setMode { s.mode with lastInput := s.now }).logLine (consPortText p ++ ConsCmd.restart.text)).restartSups := by
    rw [State.consoleRun, State.consoleEnter_first live free, State.consoleCmd,
      if_pos (show (s.setMode { s.mode with lastInput := s.now }).mode.mode = .unsupervised from mode)]
    rfl
  refine ⟨_, congrArg Host.Outcome.next run, fun c up => (State.restartSups_sup c).trans (if_neg ?_)⟩
  rw [State.logLine_keep.coreSt (by decide)]
  exact Bool.eq_false_iff.mp up

/-! ### Seat tests (R381, R382) -/

/-- What ends before a continuity test of a seat begins. -/
def State.contClear (s : State) (x : Seat) : State := if s.contEnd.tdrOn x then s.contEnd.tdrEnd else s.contEnd

theorem State.contBegin_eq : s.contBegin x q b =
    let t := (s.contClear x).testBegins x
    t.setSvc { t.svc with cont := some { seat := x, pair := q, blink := b, started := t.now, reading := .none } } := rfl

theorem State.contClear_now : ((s.contClear x).testBegins x).now = s.now := by
  rw [State.testBegins_keep.now (by decide) (by decide), State.contClear]
  split
  · rw [State.tdrEnd_keep.now (by decide) (by decide), State.contEnd_keep.now (by decide) (by decide)]
  · rw [State.contEnd_keep.now (by decide) (by decide)]

theorem State.contBegin_leaves : (s.contBegin x q b).svc.cont = some { seat := x, pair := q, blink := b, started := s.now, reading := .none } ∧
    ((s.contBegin x q b).seatPower x).st = .test ∧ ((s.contBegin x q b).link_ x).pcsUp = false := by
  obtain ⟨port, link⟩ := (s.contClear x).testBegins_leaves (x := x)
  have now := s.contClear_now (x := x)
  rw [State.contBegin_eq]
  generalize (s.contClear x).testBegins x = t at port link now
  dsimp only
  rw [now]
  exact ⟨rfl, port, link⟩

theorem State.carry_seatCont : ∃ t u, s.consoleCarry p (.seatCont x q b) none = (s.contBegin x q b).setSvc ((s.contBegin x q b).svc.said t u) := by
  obtain ⟨u, said⟩ := (s.contBegin x q b).says_prompt (l := [seatText x ++ ascii " pair " ++ pairText q ++ ascii ": 10.0 V via 1 kohm"])
  exact ⟨_, u, said⟩

theorem yields_seatCont (takes : TakesLine s (.seatCont x q b)) : Yields (.seatCont p x q b) s fun t =>
    t.svc.cont = some { seat := x, pair := q, blink := b, started := s.now, reading := .none } ∧
      (t.seatPower x).st = .test ∧ (t.link_ x).pcsUp = false := by
  obtain ⟨m, carried⟩ := runs_carry takes (rfl : exec (.seatCont p x q b) s = .next (s.consoleRun p (.seatCont x q b) none)) rfl
  obtain ⟨cont, port, link⟩ := (s.noteLine m x).contBegin_leaves (x := x) (q := q) (b := b)
  obtain ⟨t, u, said⟩ := (s.noteLine m x).carry_seatCont (p := p) (x := x) (q := q) (b := b)
  refine ⟨_, carried.trans (congrArg Host.Outcome.next said), ?_⟩
  generalize (s.noteLine m x).contBegin x q b = v at cont port link
  exact ⟨cont, port, link⟩

theorem State.contEnd_outRj : s.contEnd.svc.outRj = s.svc.outRj := by
  unfold State.contEnd
  split
  · exact (congrArg SvcSt.outRj (State.testEnds_keep.svc_eq (by decide))).trans rfl
  · rfl

theorem yields_seatContOff {k : ContTest} (takes : TakesLine s .seatContOff) (running : s.svc.cont = some k) :
    Yields (.seatContOff p) s fun t => t.svc.cont = none ∧ (t.seatPower k.seat).st ≠ .test ∧
      Says s t [seatText k.seat ++ ascii " test ended"] := by
  obtain ⟨m, carried⟩ := runs_carry takes (rfl : exec (.seatContOff p) s = .next (s.consoleRun p .seatContOff none)) rfl
  have off (v : State) (cont : v.svc.cont = some k) : v.consoleCarry p .seatContOff none =
      (v.contEnd.say [seatText k.seat ++ ascii " test ended"]).prompt := by
    rw [State.consoleCarry, cont]
    rfl
  obtain ⟨ended, port⟩ := State.contEnd_leaves (s := s.noteLine m s.svc.selected) running
  have out : ((s.noteLine m s.svc.selected).contEnd).svc.outRj = s.svc.outRj := State.contEnd_outRj
  have done := carried.trans (congrArg Host.Outcome.next (off (s.noteLine m s.svc.selected) running))
  generalize (s.noteLine m s.svc.selected).contEnd = v at ended port out done
  obtain ⟨u, said⟩ := v.says_prompt (l := [seatText k.seat ++ ascii " test ended"])
  refine ⟨_, done, ?_, ?_, saysPrompt out⟩
  all_goals rw [said]
  · exact ended
  · exact port

theorem State.tdrBegin_leaves {w : Option ConsPort} : (s.tdrBegin x w).svc.tdr = some (x, w) ∧
    ((s.tdrBegin x w).seatPower x).st = .test ∧ ((s.tdrBegin x w).link_ x).pcsUp = false := by
  obtain ⟨port, link⟩ := s.tdrEnd.testBegins_leaves (x := x)
  unfold State.tdrBegin
  generalize s.tdrEnd.testBegins x = v at port link
  exact ⟨rfl, port, link⟩

theorem yields_seatTdr (takes : TakesLine s (.seatTdr x)) : Yields (.seatTdr p x) s fun t => t.svc.tdr = some (x, some p) ∧
    (t.seatPower x).st = .test ∧ (t.link_ x).pcsUp = false := by
  obtain ⟨m, carried⟩ := runs_carry takes (rfl : exec (.seatTdr p x) s = .next (s.consoleRun p (.seatTdr x) none)) rfl
  have done : exec (.seatTdr p x) s = .next ((s.noteLine m x).tdrBegin x (some p)) := carried
  exact ⟨_, done, State.tdrBegin_leaves⟩

theorem yields_testRun (takes : TakesLine s (.testRun n)) : Yields (.testRun p n) s fun t =>
    t.svc.running = some (n, some p) ∧ t.svc.lastVerdict = 1 ∧ (n = 7 ∨ n = 8 → ∀ x, (t.link_ x).pcsUp = false) := by
  obtain ⟨m, carried⟩ := runs_carry takes (rfl : exec (.testRun p n) s = .next (s.consoleRun p (.testRun n) none)) rfl
  have begun (v : State) : (v.selfTestBegins n (some p)).svc.running = some (n, some p) ∧
      (v.selfTestBegins n (some p)).svc.lastVerdict = 1 ∧
      (n = 7 ∨ n = 8 → ∀ x, ((v.selfTestBegins n (some p)).link_ x).pcsUp = false) := by
    have links (w : State) (l : List Seat) : (w.linksDown l).svc = w.svc := State.linksDown_keep.svc_eq (by decide)
    unfold State.selfTestBegins
    dsimp only
    split
    · rw [links]
      exact ⟨rfl, rfl, fun _ x => State.pcsUp_linksDown _ (.inl (List.mem_finRange x))⟩
    next other =>
      refine ⟨?_, ?_, fun h => absurd h other⟩
      all_goals
        split
        · rw [links]
          rfl
        · rfl
  exact ⟨_, carried, begun (s.noteLine m s.svc.selected)⟩

/-! ### The answer (R375) -/

/-- The state in which an answer is read. -/
def State.answered (s : State) : State :=
  (s.setMode { s.mode with lastInput := s.now }).setSvc { s.svc with confirm := none }

theorem State.consoleEnter_answer {yes : Bool} {run : State → State} (live : s.consoleLive = true) (served : s.mode.mode ≠ .unsupervised)
    (asked : s.svc.confirm = some (p, c, a)) (soon : s.now < a + 30000 * ms) : s.consoleEnter p yes run =
      if yes then (match s.consoleRefusal c with
        | some r => s.answered.consoleReply r
        | none => s.answered.consoleCarry p c none)
      else s.answered.consoleReply (ascii "cancelled") := by
  rw [State.consoleEnter, live, if_neg (show ¬(!true) = true by decide)]
  dsimp only
  split
  next none => exact absurd (asked.symm.trans none) nofun
  next q d e waits =>
    obtain ⟨rfl, rfl, rfl⟩ : p = q ∧ c = d ∧ a = e := by
      have := Option.some.inj (asked.symm.trans waits)
      simpa using this
    rw [if_neg (show ¬(s.setMode { s.mode with lastInput := s.now }).mode.mode = .unsupervised from served),
      if_pos (show (s.setMode { s.mode with lastInput := s.now }).now < a + 30000 * ms ∧ p = p from ⟨soon, rfl⟩)]
    cases yes with
    | false => rfl
    | true =>
      have same : s.answered.consoleRefusal c = s.consoleRefusal c := rfl
      rw [if_pos rfl, if_pos rfl, ← same]
      rfl

end acts

end Sys2Proof.Machine

/-! PROOFS. Answers, and the lines that a console port takes (15 R373 to R375). -/

namespace Sys2Proof.Machine

section reply
variable {s z u : State} {x : Seat} {p : ConsPort} {c : ConsCmd} {i : Instr} {b : Byte} {n ut a : Nat}
  {line w : List Byte} {l : List (List Byte)}

theorem reply_no (live : s.consoleLive = true) (served : s.mode.mode ≠ .unsupervised) (asked : s.svc.confirm = some (p, c, a))
    (soon : s.now < a + 30000 * ms) (other : lineWords line ≠ [ascii "yes"]) :
    exec (.confirmReply p line) s = .next (s.answered.consoleReply (ascii "cancelled")) := by
  refine congrArg Host.Outcome.next ((State.consoleEnter_answer live served asked soon).trans ?_)
  rw [decide_eq_false other]
  rfl

theorem reply_yes (live : s.consoleLive = true) (served : s.mode.mode ≠ .unsupervised) (asked : s.svc.confirm = some (p, c, a))
    (soon : s.now < a + 30000 * ms) (yes : lineWords line = [ascii "yes"]) (taken : s.consoleRefusal c = none) :
    exec (.confirmReply p line) s = .next (s.answered.consoleCarry p c none) := by
  refine congrArg Host.Outcome.next ((State.consoleEnter_answer live served asked soon).trans ?_)
  rw [decide_eq_true yes, taken]
  rfl

theorem State.consoleLive_mode (live : s.consoleLive = true) : s.mode.mode ≠ .unpowered := by
  simpa [State.consoleLive] using live

theorem yields_reply_no (live : s.consoleLive = true) (served : s.mode.mode ≠ .unsupervised) (asked : s.svc.confirm = some (p, c, a))
    (soon : s.now < a + 30000 * ms) (other : lineWords line ≠ [ascii "yes"]) : Yields (.confirmReply p line) s fun t =>
      t.svc.confirm = none ∧ t.mode.mode = s.mode.mode ∧ Says s t [ascii "cancelled"] :=
  ⟨_, reply_no live served asked soon other, rfl, rfl, saysPrompt (z := s.answered) (l := [ascii "cancelled"]) rfl⟩

theorem yields_reply_yes (live : s.consoleLive = true) (served : s.mode.mode ≠ .unsupervised) (asked : s.svc.confirm = some (p, c, a))
    (soon : s.now < a + 30000 * ms) (yes : lineWords line = [ascii "yes"]) (taken : s.consoleRefusal c = none) :
    (c = .stop → s.mode.mode ≠ .safeStop → Yields (.confirmReply p line) s fun t => t.mode.mode = .safeStop ∧ t.mode.stopCause = 4) ∧
    (c = .warm → Yields (.confirmReply p line) s fun t => t.mode.mode = .warmStart) ∧
    (∀ n, c = .cold n → Yields (.confirmReply p line) s fun t => t.mode.mode = .coldStart) ∧
    (∀ x, c = .seatCycle x → (s.seatPower x).isPowered = true → Yields (.confirmReply p line) s fun t =>
      (t.seatPower x).st = .detecting ∧ (t.seatPower x).cause = 8) := by
  have run := reply_yes live served asked soon yes taken
  refine ⟨?_, ?_, ?_, ?_⟩
  · rintro rfl running
    obtain ⟨mode, -, cause, -⟩ := s.answered.safeStop_leaves (n := 4) running (State.consoleLive_mode live)
    exact ⟨_, run, mode, cause⟩
  · rintro rfl
    have carried : s.answered.consoleCarry p .warm none = (s.answered.warmBegin s.answered.runningImage).prompt := rfl
    have mode := (State.warmBegin_leaves (s := s.answered) (image := s.answered.runningImage)).1
    rw [carried] at run
    exact ⟨_, run, State.prompt_keep.mode0 (by decide) |>.trans mode⟩
  · rintro n rfl
    have carried : s.answered.consoleCarry p (.cold n) none = (s.answered.coldRequest n).prompt := rfl
    rw [carried] at run
    exact ⟨_, run, State.prompt_keep.mode0 (by decide) |>.trans State.mode_coldRequest⟩
  · rintro x rfl powered
    have cycled := State.seatPower_cyclePort (s := s.answered) (x := x) powered
    have carried : (s.answered.consoleCarry p (.seatCycle x) none).seatPower x = (s.answered.cyclePort x).seatPower x := rfl
    refine ⟨_, run, ?_⟩
    dsimp only
    rw [carried, cycled]
    exact ⟨rfl, SeatPower.cause_removed powered⟩

theorem yields_confirmTimeout {q : ConsPort × ConsCmd × Nat} (arrived : u = s.arrive ut) (asked : u.svc.confirm = some q)
    (late : q.2.2 + 30000 * ms ≤ u.now) : Yields (.confirmTimeout ut) s fun t => t.svc.confirm = none ∧ t.mode.mode = u.mode.mode := by
  subst arrived
  obtain ⟨p, c, e⟩ := q
  have run : exec (.confirmTimeout ut) s = .next (s.arrive ut).consoleCancel := by
    show execConfirmTimeout ut s = _
    rw [execConfirmTimeout, asked]
    exact congrArg Host.Outcome.next (if_pos late)
  exact ⟨_, run, rfl, rfl⟩

theorem yields_unsupervisedNotice (arrived : u = s.arrive ut) (mode : u.mode.mode = .unsupervised)
    (due : u.svc.noticeUt + 10000 * ms ≤ u.now) : Yields (.unsupervisedNotice ut) s fun t => t.svc.noticeUt = u.now ∧
      t.svc.outRj = u.svc.outRj ++ linesText [ascii "recorder offline: UNSUPERVISED"] := by
  subst arrived
  refine ⟨_, congrArg Host.Outcome.next (if_pos ⟨mode, due⟩), rfl, ?_⟩
  rw [linesText_singleton]
  rfl

/-! ### Characters (R373) -/

theorem yields_rxChar (live : s.consoleLive = true) :
    (b ≠ 0x0A → b ≠ 0x0D → b ≠ 0x08 → b ≠ 0x7F → (s.svc.line p).length < 80 → Yields (.consoleRxCharacter p b) s fun t =>
      t.svc.line p = s.svc.line p ++ [b] ∧ (p = .rj45 → t.svc.outRj = s.svc.outRj ++ [b])) ∧
    (b = 0x08 ∨ b = 0x7F → Yields (.consoleRxCharacter p b) s fun t => t.svc.line p = (s.svc.line p).dropLast) ∧
    (b = 0x0A → Yields (.consoleRxCharacter p b) s fun t => t.svc = s.svc) := by
  refine ⟨fun lf cr bs del room => ?_, fun del => ?_, ?_⟩
  · refine ⟨_, congrArg Host.Outcome.next (State.rxChar_plain live lf cr bs del room), SvcSt.line_setLine, ?_⟩
    rintro rfl
    have heard : s.hears.svc = s.svc := State.hears_svc
    refine Eq.trans (SvcSt.setLine_outRj (v := (s.hears.echo .rj45 b).svc)) ?_
    rw [State.echo_outRj, heard]
  · exact ⟨_, congrArg Host.Outcome.next (State.rxChar_del live del), SvcSt.line_setLine⟩
  · rintro rfl
    exact ⟨_, congrArg Host.Outcome.next (State.rxChar_lf live), State.hears_svc⟩

/-! ### Lines (R373, R375) -/

/-- A state whose line of a port has been taken. -/
def State.lineTaken (s : State) (p : ConsPort) : State := s.setSvc (s.svc.setLine p [])

theorem consoleLine_eq (live : s.consoleLive = true) :
    exec (.consoleLine p) s = .next ((s.lineTaken p).consoleText p (s.svc.line p)) :=
  congrArg Host.Outcome.next (if_pos live)

theorem State.lineTaken_line : (s.lineTaken p).svc.line p = [] := SvcSt.line_setLine
theorem State.lineTaken_confirm : (s.lineTaken p).svc.confirm = s.svc.confirm := by
  cases p <;> rfl
theorem State.lineTaken_outRj : (s.lineTaken p).svc.outRj = s.svc.outRj := by
  cases p <;> rfl

/-- The line of a console command runs the command. -/
theorem exec_consRow (row : consRow i = some (p, c)) : exec i s = .next (s.consoleRun p c none) := by
  unfold consRow at row
  split at row
  all_goals cases row
  all_goals rfl

theorem State.consoleText_cmd (live : s.consoleLive = true) (free : s.svc.confirm = none) (parsed : parseLine line = some (.inl c)) :
    s.consoleText p line = s.consoleRun p c none := by
  rw [State.consoleText, State.consoleRun, State.consoleEnter_first live free, State.consoleEnter_first live free]
  dsimp only
  rw [parsed]

theorem State.consoleText_unknown (live : s.consoleLive = true) (free : s.svc.confirm = none) (served : s.mode.mode ≠ .unsupervised)
    (rest : s.startStep = none) (parsed : parseLine line = some (.inr w)) :
    s.consoleText p line = ((s.setMode { s.mode with lastInput := s.now }).say [ascii "? unknown: " ++ w]).prompt := by
  have rest' : (s.setMode { s.mode with lastInput := s.now }).startStep = none := rest
  rw [State.consoleText, State.consoleEnter_first live free]
  dsimp only
  rw [parsed]
  dsimp only
  rw [rest', if_neg (show ¬(s.setMode { s.mode with lastInput := s.now }).mode.mode = .unsupervised from served)]
  rfl

theorem SvcSt.line_said {v : SvcSt} {t : List Byte} {d : SvcUsb} : (v.said t d).line p = v.line p := by
  cases p <;> rfl

theorem State.line_say_prompt : ((z.say l).prompt).svc.line p = z.svc.line p := by
  obtain ⟨d, said⟩ := z.says_prompt (l := l)
  rw [said]
  exact SvcSt.line_said

theorem yields_consoleLine_unknown (live : s.consoleLive = true) (free : s.svc.confirm = none) (served : s.mode.mode ≠ .unsupervised)
    (rest : s.startStep = none) (parsed : parseLine (s.svc.line p) = some (.inr w)) : Yields (.consoleLine p) s fun t =>
      t.svc.line p = [] ∧ Says s t [ascii "? unknown: " ++ w] := by
  have run := State.consoleText_unknown (s := s.lineTaken p) (p := p) live (State.lineTaken_confirm.trans free) served rest parsed
  refine ⟨_, (consoleLine_eq live).trans (congrArg Host.Outcome.next run), ?_, saysPrompt State.lineTaken_outRj⟩
  exact State.line_say_prompt.trans State.lineTaken_line

theorem State.lineTaken_takes (takes : TakesLine s c) : TakesLine (s.lineTaken p) c := by
  obtain ⟨live, free, served, known, taken⟩ := takes
  refine ⟨live, State.lineTaken_confirm.trans free, served, known, ?_⟩
  rw [← taken]
  cases p <;> rfl

/-- The line of a command that shows lines, taken from a port. -/
theorem consoleLine_shows (live : s.consoleLive = true) (takes : TakesLine s c) (parsed : parseLine (s.svc.line p) = some (.inl c))
    (silent : c.confirms = false) : ∃ m, exec (.consoleLine p) s =
      .next (((s.lineTaken p).noteLine m (c.seat.getD (s.lineTaken p).svc.selected)).consoleCarry p c none) := by
  obtain ⟨m, done⟩ := (s.lineTaken p).lineDone_silent (p := p) (r := none) silent
  have takes' := State.lineTaken_takes (p := p) takes
  refine ⟨m, (consoleLine_eq live).trans (congrArg Host.Outcome.next ?_)⟩
  rw [State.consoleText_cmd takes'.1 takes'.2.1 parsed, State.consoleRun_takes takes', done]

theorem State.noteLine_line {x : Seat} : (s.noteLine l x).svc.line p = s.svc.line p := by
  cases p <;> rfl

theorem State.freeReadings_length : (s.freeReadings n).1.length = n := by
  induction n generalizing s with
  | zero => rfl
  | succ n ih =>
    rw [State.freeReadings]
    exact congrArg (· + 1) ih

theorem Keep.tpLines {K : Nat} {t : State} {v : List Nat} (h : Keep K s t) (cores : K.testBit 37 = true) : t.tpLines v = s.tpLines v := by
  unfold State.tpLines State.tpRange
  simp only [h.powCore cores]

theorem yields_consoleLine_tp (live : s.consoleLive = true) (takes : TakesLine s .tp) (parsed : parseLine (s.svc.line p) = some (.inl .tp)) :
    Yields (.consoleLine p) s fun t => t.svc.line p = [] ∧ ∃ v, v.length = 8 ∧ Says s t (s.tpLines v) := by
  obtain ⟨m, run⟩ := consoleLine_shows live takes parsed rfl
  have svc := (State.freeReadings_keep (s := (s.lineTaken p).noteLine m (s.lineTaken p).svc.selected) (a0 := 8)).svc_eq (by decide)
  have lines (v : List Nat) := (State.freeReadings_keep (s := (s.lineTaken p).noteLine m (s.lineTaken p).svc.selected) (a0 := 8)).tpLines
    (v := v) (by decide)
  have count := State.freeReadings_length (s := (s.lineTaken p).noteLine m (s.lineTaken p).svc.selected) (n := 8)
  have carried : ((s.lineTaken p).noteLine m (s.lineTaken p).svc.selected).consoleCarry p .tp none =
      (((((s.lineTaken p).noteLine m (s.lineTaken p).svc.selected).freeReadings 8).2.say
        ((((s.lineTaken p).noteLine m (s.lineTaken p).svc.selected).freeReadings 8).2.tpLines
          (((s.lineTaken p).noteLine m (s.lineTaken p).svc.selected).freeReadings 8).1))).prompt := rfl
  refine ⟨_, run.trans (congrArg Host.Outcome.next carried), ?_, ?_⟩
  · rw [State.line_say_prompt, svc]
    exact State.noteLine_line.trans State.lineTaken_line
  · refine ⟨_, count, ?_⟩
    rw [lines]
    refine saysPrompt (l := s.tpLines _) ?_
    rw [svc]
    exact State.lineTaken_outRj

theorem yields_consoleLine_help (live : s.consoleLive = true) (takes : TakesLine s .help)
    (parsed : parseLine (s.svc.line p) = some (.inl .help)) : Yields (.consoleLine p) s fun t => t.svc.line p = [] ∧
      Says s t helpLines := by
  obtain ⟨m, run⟩ := consoleLine_shows live takes parsed rfl
  have carried : ((s.lineTaken p).noteLine m (s.lineTaken p).svc.selected).consoleCarry p .help none =
      (((s.lineTaken p).noteLine m (s.lineTaken p).svc.selected).say helpLines).prompt := rfl
  refine ⟨_, run.trans (congrArg Host.Outcome.next carried), ?_, saysPrompt State.lineTaken_outRj⟩
  rw [State.line_say_prompt]
  exact State.noteLine_line.trans State.lineTaken_line

theorem yields_consoleLine (live : s.consoleLive = true) (taken : z = s.lineTaken p) :
    (Yields (.consoleLine p) s fun t => exec (.confirmReply p (s.svc.line p)) z = .next t) ∧
    (s.svc.confirm = none → ∀ c i, parseLine (s.svc.line p) = some (.inl c) → consRow i = some (p, c) →
      Yields (.consoleLine p) s fun t => exec i z = .next t) ∧
    (parseLine (s.svc.line p) = some (.inl .tp) → TakesLine s .tp → Yields (.consoleLine p) s fun t => t.svc.line p = [] ∧
      ∃ v, v.length = 8 ∧ Says s t (s.tpLines v)) ∧
    (parseLine (s.svc.line p) = some (.inl .help) → TakesLine s .help → Yields (.consoleLine p) s fun t => t.svc.line p = [] ∧
      Says s t helpLines) := by
  subst taken
  refine ⟨⟨_, consoleLine_eq live, rfl⟩, fun free c i parsed row => ⟨_, consoleLine_eq live, ?_⟩, ?_, ?_⟩
  · rw [exec_consRow row, State.consoleText_cmd (s := s.lineTaken p) live (State.lineTaken_confirm.trans free) parsed]
  · exact fun parsed takes => yields_consoleLine_tp live takes parsed
  · exact fun parsed takes => yields_consoleLine_help live takes parsed

end reply

/-- Settles O43. That `seat cycle` selects the seat is log entry 69, that a line feed has no echo is log entry 68 (both DEDUCED). -/
theorem consoleActs : Obligations.ConsoleActs := by
  unfold Obligations.ConsoleActs
  refine ⟨fun p s => ⟨fun _ _ => yields_asks_listed, fun _ => yields_seatCycle_asks, yields_service, fun _ => yields_service_start,
    yields_serviceEnd, yields_restart, fun _ _ _ takes _ => yields_seatCont takes, fun _ => yields_seatContOff,
    fun _ => yields_seatTdr, fun _ => yields_testRun⟩,
    fun _ _ _ _ _ live served asked soon => ⟨yields_reply_no live served asked soon, yields_reply_yes live served asked soon⟩,
    fun _ _ _ _ => yields_confirmTimeout, fun _ _ _ => yields_unsupervisedNotice, fun _ _ _ => yields_rxChar,
    fun _ _ _ => yields_consoleLine_unknown, fun _ _ _ => yields_consoleLine⟩

end Sys2Proof.Machine

/-! PROOFS. Register accesses of a host (16 R388 to R392). -/

namespace Sys2Proof.Machine

section access
variable {s t : State} {f : FnId} {off size n : Nat} {data : List Byte} {v : W64}

theorem registerWrite_bar0 (up : s.fnUp f = true) : exec (.registerWrite f .bar0 off data) s =
    .next (s.writeReg (.host f) off data.length (BitVec.ofNat 64 (leNat data))) := by
  show Host.Outcome.next (s.hostWrite f .bar0 off data) = _
  rw [State.hostWrite, up]
  rfl

/-- A write of a form that the window does not take is ignored (R389). -/
theorem State.writeReg_ignored (bad : off % 8 ≠ 0 ∨ (n ≠ 4 ∧ n ≠ 8)) : s.writeReg (.host f) off n v = s := by
  refine if_pos ?_
  simp only [Bool.or_eq_true, bne_iff_ne, Bool.not_eq_true', Bool.or_eq_false_iff, beq_eq_false_iff_ne]
  rcases bad with bad | bad
  · exact .inl (.inr bad)
  · exact .inr bad

theorem State.writeReg_taken (up : s.fnUp f = true) (aligned : off % 8 = 0) (sized : n = 4 ∨ n = 8) :
    s.writeReg (.host f) off n v = match (s.writePort32 f off (BitVec.ofNat 32 v.toNat)).orElse
        fun _ => s.writeUnit32 (.host f) off (BitVec.ofNat 32 v.toNat) with
      | some t => t
      | none => if n = 8 then (s.write64 (.host f) off v).getD s else s := by
  refine if_neg ?_
  rcases sized with rfl | rfl <;> simp [State.viaHeard, up, aligned]

theorem ofNat_toNat_ofNat (k : Nat) (h : n ≤ 64) : BitVec.ofNat n (BitVec.ofNat 64 k).toNat = BitVec.ofNat n k := by
  apply BitVec.eq_of_toNat_eq
  rw [BitVec.toNat_ofNat, BitVec.toNat_ofNat, BitVec.toNat_ofNat, Nat.mod_mod_of_dvd _ (Nat.pow_dvd_pow 2 h)]

/-- The port's own registers lie elsewhere than the unit's budget and levels. -/
theorem State.writePort32_unit {w : W32} : s.writePort32 f 0x5018 w = none ∧ s.writePort32 f 0x6008 w = none ∧
    s.writePort32 f 0x3008 w = none := ⟨rfl, rfl, rfl⟩

theorem State.writeReg_budget (up : s.fnUp f = true) (sized : n = 4 ∨ n = 8) : s.writeReg (.host f) 0x5018 n v =
    if s.mayUnitWide f.port then s.setHost { s.host with budget := BitVec.ofNat 32 v.toNat } else s := by
  rw [State.writeReg_taken up rfl sized, State.writePort32_unit.1]
  rfl

theorem State.writeReg_levels (up : s.fnUp f = true) (sized : n = 4 ∨ n = 8) : s.writeReg (.host f) 0x6008 n v =
    if s.mayUnitWide f.port then s.setDispatch f.core { s.dispatch f.core with levels := BitVec.ofNat 18 (BitVec.ofNat 32 v.toNat).toNat }
    else s := by
  rw [State.writeReg_taken up rfl sized, State.writePort32_unit.2.1]
  rfl

theorem State.writeReg_addr (up : s.fnUp f = true) : s.writeReg (.host f) 0x3008 8 v = s.writeAddr f.port .islet v := by
  rw [State.writeReg_taken up rfl (.inr rfl), State.writePort32_unit.2.2]
  rfl

theorem State.writeAddr_cmdSt {p : PortId} {k : CmdSet} : ((s.writeAddr p k v).cmdSt p k).addr = (v >>> 6) <<< 6 := by
  cases p <;> cases k <;> rfl

theorem yields_ignored (up : s.fnUp f = true) (bad : off % 8 ≠ 0 ∨ (data.length ≠ 4 ∧ data.length ≠ 8)) :
    Yields (.registerWrite f .bar0 off data) s fun t => t = s :=
  ⟨s, by rw [registerWrite_bar0 up, State.writeReg_ignored bad], rfl⟩

theorem yields_unitWrite (up : s.fnUp f = true) (may : s.mayUnitWide f.port = true) (sized : data.length = 4 ∨ data.length = 8) :
    (Yields (.registerWrite f .bar0 0x5018 data) s fun t => t = s.setHost { s.host with budget := BitVec.ofNat 32 (leNat data) }) ∧
    (Yields (.registerWrite f .bar0 0x6008 data) s fun t =>
      t = s.setDispatch f.core { s.dispatch f.core with levels := BitVec.ofNat 18 (leNat data) }) := by
  have levels : BitVec.ofNat 18 (BitVec.ofNat 32 (BitVec.ofNat 64 (leNat data)).toNat).toNat = BitVec.ofNat 18 (leNat data) := by
    rw [ofNat_toNat_ofNat _ (by decide)]
    apply BitVec.eq_of_toNat_eq
    rw [BitVec.toNat_ofNat, BitVec.toNat_ofNat, BitVec.toNat_ofNat, Nat.mod_mod_of_dvd _ (Nat.pow_dvd_pow 2 (by decide))]
  refine ⟨⟨_, registerWrite_bar0 up, ?_⟩, _, registerWrite_bar0 up, ?_⟩
  · rw [State.writeReg_budget up sized, if_pos may, ofNat_toNat_ofNat _ (by decide)]
  · rw [State.writeReg_levels up sized, if_pos may, levels]

theorem yields_addrWrite (up : s.fnUp f = true) (sized : data.length = 8) : Yields (.registerWrite f .bar0 0x3008 data) s fun t =>
    (t.cmdSt f.port .islet).addr = (BitVec.ofNat 64 (leNat data) >>> 6) <<< 6 := by
  refine ⟨_, registerWrite_bar0 up, ?_⟩
  dsimp only
  rw [sized, State.writeReg_addr up, State.writeAddr_cmdSt]

theorem yields_budget_refused (up : s.fnUp f = true) (not : s.mayUnitWide f.port = false) :
    Yields (.registerWrite f .bar0 0x5018 data) s fun t => t.host.budget = s.host.budget := by
  refine ⟨_, registerWrite_bar0 up, ?_⟩
  dsimp only
  by_cases sized : data.length = 4 ∨ data.length = 8
  · rw [State.writeReg_budget up sized, not]
    rfl
  · rw [State.writeReg_ignored (.inr (not_or.mp sized))]

theorem yields_readOversized :
    (s.fnUp f = true → 64 < off % 64 + size → Yields (.registerReadOversized f off size) s fun t =>
      t = s.setHost { s.host with tx := s.host.tx ++ [.completerAbort f] }) ∧
    (s.fencedReads f = true → Yields (.registerReadOversized f off size) s fun t =>
      t = s.setHost { s.host with tx := s.host.tx ++ [.completion f (List.replicate size 0xFF)] }) := by
  refine ⟨fun up large => ?_, fun fenced => ⟨_, congrArg Host.Outcome.next (if_pos fenced), rfl⟩⟩
  have unfenced : ¬s.fencedReads f = true := by
    rw [State.fencedReads]
    rw [State.fnUp, Bool.and_eq_true, Bool.not_eq_true'] at up
    rw [up.2, Bool.and_false]
    exact Bool.false_ne_true
  refine ⟨_, congrArg Host.Outcome.next ((if_neg unfenced).trans (if_pos ?_)), rfl⟩
  rw [up, decide_eq_true large]
  rfl

end access

/-- Settles O41. That a fenced core answers an oversized read with 0xFF is log entry 77 (DEDUCED). -/
theorem registerAccess : Obligations.RegisterAccess := by
  unfold Obligations.RegisterAccess
  exact ⟨fun _ _ _ _ => yields_ignored, fun _ _ _ => yields_unitWrite, fun _ _ _ => yields_addrWrite,
    fun _ _ _ => yields_budget_refused, fun _ _ _ _ => yields_readOversized⟩

end Sys2Proof.Machine

/-! PROOFS. Conditions, the reasons of a replace-me request, and the power domains' states (11 R307; 12 R317, R318, R336). -/

namespace Sys2Proof.Machine

section reasons
variable {s t u : State} {n m : Fin 16} {k : Nat}

/-! ### Conditions (R317) -/

theorem getLsbD_raised (a : BitVec 16) : (a ||| (1#16 <<< n.val)).getLsbD n.val = true := by
  simp [BitVec.getLsbD_or, BitVec.getLsbD_shiftLeft]

theorem getLsbD_cleared (a : BitVec 16) : (a &&& ~~~(1#16 <<< n.val)).getLsbD n.val = false := by
  simp [BitVec.getLsbD_and, BitVec.getLsbD_not, BitVec.getLsbD_shiftLeft]

theorem getLsbD_cleared_ne (a : BitVec 16) (h : m ≠ n) : (a &&& ~~~(1#16 <<< n.val)).getLsbD m.val = a.getLsbD m.val := by
  have other : m.val ≠ n.val := fun same => h (Fin.ext same)
  have small := m.isLt
  simp only [BitVec.getLsbD_and, BitVec.getLsbD_not, BitVec.getLsbD_shiftLeft, BitVec.getLsbD_one]
  rcases Nat.lt_or_gt_of_ne other with less | more
  · simp [small, less]
  · have apart : m.val - n.val ≠ 0 := by omega
    simp [small, apart]

theorem Keep.reasons_eq {K : Nat} (h : Keep K s t) (kept : K.testBit 41 = true) :
    t.mode.reasons = s.mode.reasons ∧ t.mode.clearing = s.mode.clearing ∧ t.mode.causes = s.mode.causes := by
  have same := h.reasons kept
  simp only [State.part41, Prod.mk.injEq] at same
  exact ⟨same.1, same.2.2.1, same.2.2.2⟩

/-- A condition sets its reason and its cause. -/
theorem State.reasonOn_sets : (s.reasonOn n).mode.reasons.getLsbD n.val = true ∧ (s.reasonOn n).mode.causes.getLsbD n.val = true := by
  unfold State.reasonOn
  dsimp only
  split
  next set => exact ⟨set, getLsbD_raised _⟩
  · obtain ⟨reasons, -, causes⟩ := (State.managerVectorUp_keep (s := (s.setMode { s.mode with
      causes := s.mode.causes ||| (1#16 <<< n.val)
      clearing := tset s.mode.clearing n.val none none
      reasons := s.mode.reasons ||| (1#16 <<< n.val)
      first := if s.mode.first = 0 then BitVec.ofNat 8 n.val else s.mode.first }).logLine (ascii "reason 0x" ++ hex 2 n.val))
      (fs := allFns) (v := 2)).reasons_eq (by decide)
    rw [reasons, causes]
    exact ⟨getLsbD_raised _, getLsbD_raised _⟩

/-- A reason that clears leaves the others (R318). -/
theorem State.reasonClear_clears : (s.reasonClear n).mode.reasons.getLsbD n.val = false ∧
    ∀ m : Fin 16, m ≠ n → (s.reasonClear n).mode.reasons.getLsbD m.val = s.mode.reasons.getLsbD m.val := by
  unfold State.reasonClear
  split
  · dsimp only
    rw [(State.managerVectorUp_keep.reasons_eq (by decide)).1]
    exact ⟨getLsbD_cleared _, fun m other => getLsbD_cleared_ne _ other⟩
  next clear => exact ⟨by simpa using clear, fun _ _ => rfl⟩

end reasons

/-! ### Domains that are on stay on (R307) -/

section domains
variable {s t u : State} {c : CoreId} {d n K : Nat} {v : DomSt} {x : Seat}

/-- No domain has come to another state. -/
def DomStates (s t : State) : Prop := ∀ c d, (t.domain c d).st = (s.domain c d).st

theorem DomStates.rfl' : DomStates s s := fun _ _ => rfl
theorem DomStates.trans (h : DomStates s t) (g : DomStates t u) : DomStates s u := fun c d => (g c d).trans (h c d)

theorem Keep.domStates (h : Keep K s t) (cores : K.testBit 37 = true) : DomStates s t := fun c d => by
  rw [h.domain cores]

theorem DomStates.ite {p : Prop} [Decidable p] (h : DomStates s t) (g : DomStates s u) : DomStates s (if p then t else u) := by
  split
  · exact h
  · exact g

theorem DomStates.foldl {α : Type} {g : State → α → State} (step : ∀ s a, DomStates s (g s a)) (l : List α) (h : DomStates s t) :
    DomStates s (l.foldl g t) := by
  induction l generalizing t with
  | nil => exact h
  | cons a l ih => exact ih (h.trans (step t a))

theorem State.powCore_setPowCore_ne {e c : CoreId} {p : PowCore} (h : e ≠ c) : (s.setPowCore c p).powCore e = s.powCore e := by
  cases e <;> cases c
  · exact absurd rfl h
  · rfl
  · rfl
  · exact absurd rfl h

theorem State.domain_setDomain_ne {e : CoreId} {k : Nat} (h : e ≠ c ∨ k ≠ d) : (s.setDomain c d v).domain e k = s.domain e k := by
  unfold State.setDomain State.domain
  by_cases same : e = c
  · subst same
    rw [State.powCore_setPowCore]
    exact tget_tset_ne _ _ _ _ (h.resolve_left fun other => other rfl)
  · rw [State.powCore_setPowCore_ne same]

theorem domStates_setDomain (h : v.st = (s.domain c d).st) : DomStates s (s.setDomain c d v) := by
  intro e k
  by_cases same : e = c ∧ k = d
  · obtain ⟨rfl, rfl⟩ := same
    rw [State.domain_setDomain, h]
  · rw [State.domain_setDomain_ne (not_and_or.mp same)]

theorem domStates_setPowCore {p : PowCore} (h : p.doms = (s.powCore c).doms) : DomStates s (s.setPowCore c p) := by
  intro e k
  unfold State.domain
  by_cases same : e = c
  · subst same
    rw [State.powCore_setPowCore, h]
  · rw [State.powCore_setPowCore_ne same]

theorem domStates_startExit : DomStates s (s.startExit c d) := by
  unfold State.startExit
  exact .ite (.ite (domStates_setPowCore rfl) (domStates_setPowCore rfl)) (domStates_setDomain rfl)

theorem domStates_wake0 : DomStates s (s.wake0 c d).1 := by
  unfold State.wake0
  dsimp only
  split
  · split
    · exact .rfl'
    · split
      · exact .ite .rfl' (domStates_setDomain rfl)
      · exact domStates_startExit
  · exact .rfl'
  · split
    · exact .rfl'
    · exact domStates_setDomain rfl

theorem domStates_wakeTarget : DomStates s (s.wakeTarget c n) := by
  unfold State.wakeTarget
  split
  · exact .rfl'
  next d _ =>
    refine .ite .rfl' (.ite .rfl' ?_)
    have woken := domStates_wake0 (s := s) (c := c) (d := d)
    generalize s.wake0 c d = r at woken
    obtain ⟨v, latched⟩ := r
    refine .ite (woken.trans ?_) woken
    exact Keep.domStates (K := 2 ^ 37) (Keep.step State.countLatched_keep (by decide) (State.setEvtCore_keep.weaken (by decide))) (by decide)

theorem domStates_edge : DomStates s (s.edge c n) := by
  unfold State.edge
  dsimp only
  split
  · exact State.setEvtCore_keep.domStates (by decide)
  · exact (State.setEvtCore_keep.domStates (by decide)).trans domStates_wakeTarget

theorem domStates_moveDomain : DomStates s (s.moveDomain c d) := by
  unfold State.moveDomain
  dsimp only
  split
  · exact .rfl'
  · generalize (if s.heldHot c d then (DomState.retention, 0) else s.domGoal c d (s.domain c d).target) = r
    obtain ⟨goal, b⟩ := r
    have blocked : DomStates s (s.setDomain c d { s.domain c d with block := BitVec.ofNat 4 b }) := domStates_setDomain rfl
    have noted : DomStates s (if b ≠ 0 ∧ (s.domain c d).block = 0 then
        (s.setDomain c d { s.domain c d with block := BitVec.ofNat 4 b }).edge c 889
        else s.setDomain c d { s.domain c d with block := BitVec.ofNat 4 b }) :=
      .ite (blocked.trans domStates_edge) blocked
    dsimp only
    generalize (if b ≠ 0 ∧ (s.domain c d).block = 0 then (s.setDomain c d { s.domain c d with block := BitVec.ofNat 4 b }).edge c 889
      else s.setDomain c d { s.domain c d with block := BitVec.ofNat 4 b }) = v at noted
    split
    · exact noted
    · split
      · exact noted.trans domStates_startExit
      · split
        · exact noted
        · exact noted.trans (domStates_setDomain rfl)

theorem domStates_settleDomain : DomStates s (s.settleDomain c d) := by
  unfold State.settleDomain
  dsimp only
  have aimed (v : DomSt) (h : v.st = (s.domain c d).st) : DomStates s ((s.setDomain c d v).moveDomain c d) :=
    (domStates_setDomain h).trans domStates_moveDomain
  split
  · exact .rfl'
  · split
    · exact domStates_moveDomain
    · split
      · exact domStates_moveDomain
      · split
        · exact domStates_setDomain rfl
        · exact aimed _ rfl

theorem domStates_settleSeat : DomStates s (s.settleSeat x) :=
  .foldl (fun _ _ => domStates_settleDomain.trans domStates_settleDomain) _ .rfl'

theorem domStates_linkDone (h : DomStates s t) : DomStates s (u.linkDone x t) := by
  unfold State.linkDone
  exact .ite h ((h.trans domStates_edge).trans domStates_settleSeat)

theorem domStates_putPower {v : SeatPower} : DomStates s (s.putPower x v) := by
  unfold State.putPower
  dsimp only
  have put : DomStates s (s.setSeatPower x v) := State.setSeatPower_keep.domStates (by decide)
  exact .ite put (put.trans domStates_edge)

theorem State.freeTx_lost {f : TxFrame} : s.freeTx x f false = s.freeNumbered (s.servingCore x) x f.frame := by
  unfold State.freeTx
  cases f.handle <;> rfl

/-- Frames that are thrown away reach no domain. -/
theorem State.clearTunnel_cores {k : Tunnel} : Keep (2 ^ 37) s (s.clearTunnel x k) := by
  unfold State.clearTunnel
  refine Keep.step State.dropKept_keep (by decide) (Keep.foldl (State.setTun_keep.weaken (by decide)) fun v f => ?_)
  rw [State.freeTx_lost]
  exact State.freeNumbered_keep.weaken (by decide)

theorem State.stopTunnels_cores : Keep (2 ^ 37) s (s.stopTunnels x) := by
  unfold State.stopTunnels
  exact Keep.foldl (State.clearTunnel_cores.trans State.clearTunnel_cores) fun _ _ => State.setTun_keep.weaken (by decide)

theorem domStates_linkCut : DomStates s (s.linkCut x) := by
  unfold State.linkCut
  refine domStates_linkDone (DomStates.trans ?_ (State.setLink__keep.domStates (by decide)))
  have stopped := (State.stopTunnels_cores (s := s) (x := x)).domStates (by decide)
  exact .ite (stopped.trans (State.bumpSeat_keep.domStates (by decide))) stopped

end domains

end Sys2Proof.Machine

/-! PROOFS. SAFE STOP, its power-off, conditions and the service session's end (12 R317, R318, R328, R336). -/

namespace Sys2Proof.Machine

section stop
variable {s t u : State} {x y : Seat} {c : CoreId} {d ut e : Nat} {k : CondTimer} {n : Fin 16}

/-- A seat's link and power are cut. -/
def State.cutSeat (s : State) (x : Seat) : State := (s.linkCut x).powerCut x .off

/-- A domain of the hot core is made to enter retention. -/
def State.cutDomain (c : CoreId) (s : State) (d : Nat) : State :=
  if d ≤ 1 ∨ (18 ≤ d ∧ d ≤ 23) then s
  else
    let v := s.domain c d
    if v.st = .on then
      s.setDomain c d { v with target := .retention, pendingT := none, holdUntil := none, going := some (.retention, s.ut c + entryTime d false) }
    else if v.st = .retention ∨ v.going.isSome then s.setDomain c d { v with target := .retention, pendingT := none } else s

/-- What that makes of the domain. -/
def DomSt.cut (v : DomSt) (now d : Nat) : DomSt :=
  if d ≤ 1 ∨ (18 ≤ d ∧ d ≤ 23) then v
  else if v.st = .on then
    { v with target := .retention, pendingT := none, holdUntil := none, going := some (.retention, now + entryTime d false) }
  else if v.st = .retention ∨ v.going.isSome then { v with target := .retention, pendingT := none } else v

/-- Every seat's link and power are cut. -/
def State.cutSeats (s : State) : State := allSeats.foldl (fun s x => (s.linkCut x).powerCut x .off) s

/-- For cause 3 the hot core's domains are cut too. -/
def State.cutHot (s : State) : State :=
  if s.mode.stopCause = 3 then
    let c := s.hotCore
    let s := s.setMode { s.mode with stopHot := some c }
    (List.range 28).foldl (State.cutDomain c) s
  else s

theorem State.stopPowerOff_eq (mode : s.mode.mode = .safeStop) (on : s.mode.stopOff = false) (due : s.mode.stopUt + 10000 * ms ≤ s.now) :
    s.stopPowerOff = (s.setMode { s.mode with stopOff := true }).cutSeats.cutHot := by
  have all : s.mode.mode = .safeStop ∧ !s.mode.stopOff ∧ s.mode.stopUt + 10000 * ms ≤ s.now := ⟨mode, by rw [on]; rfl, due⟩
  unfold State.stopPowerOff
  rw [if_pos all]
  extract_lets old off z
  have cut : off.cutSeats = z := rfl
  clear_value z
  change _ = off.cutSeats.cutHot
  rw [cut]
  rfl

/-! ### The seats -/

theorem State.link_linkCut : ((s.linkCut x).link_ x).pcsUp = false := by
  unfold State.linkCut
  dsimp only
  rw [State.linkDone_keep.link_ (by decide), State.link__setLink_]

theorem State.link_linkCut_ne (h : y ≠ x) : (s.linkCut x).link_ y = s.link_ y := by
  unfold State.linkCut
  dsimp only
  rw [State.linkDone_keep.link_ (by decide), State.link__setLink__ne h]
  split
  · rw [State.bumpSeat_keep.link_ (by decide), State.stopTunnels_keep.link_ (by decide)]
  · rw [State.stopTunnels_keep.link_ (by decide)]

/-- A seat without power or link. -/
def State.seatCut (s : State) (x : Seat) : Prop := (s.seatPower x).st = .off ∧ (s.link_ x).pcsUp = false

theorem State.cutSeat_cuts : (s.cutSeat x).seatCut x := by
  refine ⟨?_, ?_⟩
  · rw [State.cutSeat, State.powerCut, State.seatPower_putPower]
  · rw [State.cutSeat, State.powerCut_keep.link_ (by decide), State.link_linkCut]

theorem State.cutSeat_leaves (h : s.seatCut y) : (s.cutSeat x).seatCut y := by
  by_cases same : y = x
  · rw [same]
    exact State.cutSeat_cuts
  · refine ⟨?_, ?_⟩
    · rw [State.cutSeat, State.powerCut, State.seatPower_putPower_ne same, State.linkCut_keep.seatPower (by decide)]
      exact h.1
    · rw [State.cutSeat, State.powerCut_keep.link_ (by decide), State.link_linkCut_ne same]
      exact h.2

theorem State.cutSeats_cut : s.cutSeats.seatCut x :=
  foldl_forall (P := fun x s => s.seatCut x) (fun _ _ => State.cutSeat_cuts) (fun _ _ _ => State.cutSeat_leaves) allSeats _ x (List.mem_finRange x)

theorem State.cutSeats_keep : Keep (2 ^ 0 + 2 ^ 39 + 2 ^ 40 + 2 ^ 42) s s.cutSeats :=
  Keep.foldl Keep.rfl' fun _ _ => Keep.step State.powerCut_keep (by decide) (State.linkCut_keep.weaken (by decide))

theorem State.cutSeats_domStates : DomStates s s.cutSeats :=
  .foldl (fun _ _ => domStates_linkCut.trans domStates_putPower) _ .rfl'

/-! ### The hot core's domains -/

theorem State.domain_cutDomain : (s.cutDomain c d).domain c d = (s.domain c d).cut (s.ut c) d := by
  unfold State.cutDomain DomSt.cut
  split
  · rfl
  · dsimp only
    split
    · exact State.domain_setDomain _ _ _ _
    · split
      · exact State.domain_setDomain _ _ _ _
      · rfl

theorem State.domain_cutDomain_ne {m : Nat} (h : m ≠ d) : (s.cutDomain c d).domain c m = s.domain c m := by
  unfold State.cutDomain
  split
  · rfl
  · dsimp only
    split
    · exact State.domain_setDomain_ne (.inr h)
    · split
      · exact State.domain_setDomain_ne (.inr h)
      · rfl

theorem State.cutDomain_keep : Keep (2 ^ 0 + 2 ^ 20 + 2 ^ 36 + 2 ^ 39 + 2 ^ 40) s (s.cutDomain c d) := by
  have put (v : DomSt) : Keep (2 ^ 0 + 2 ^ 20 + 2 ^ 36 + 2 ^ 39 + 2 ^ 40) s (s.setDomain c d v) := State.setDomain_keep.weaken (by decide)
  unfold State.cutDomain
  exact Keep.ite Keep.rfl' (Keep.ite (put _) (Keep.ite (put _) Keep.rfl'))

theorem State.cutHot_keep : Keep (2 ^ 0 + 2 ^ 20 + 2 ^ 36 + 2 ^ 39) s s.cutHot ∧ s.cutHot.mode.stopOff = s.mode.stopOff := by
  have all : Keep (2 ^ 0 + 2 ^ 20 + 2 ^ 36 + 2 ^ 39 + 2 ^ 40) (s.setMode { s.mode with stopHot := some s.hotCore })
      ((List.range 28).foldl (State.cutDomain s.hotCore) (s.setMode { s.mode with stopHot := some s.hotCore })) :=
    Keep.foldl Keep.rfl' fun _ _ => State.cutDomain_keep
  unfold State.cutHot
  split
  · have noted : Keep (2 ^ 0 + 2 ^ 20 + 2 ^ 36 + 2 ^ 39) s (s.setMode { s.mode with stopHot := some s.hotCore }) :=
      Keep.setMode Keep.rfl' (fun _ => rfl) (fun h => absurd h (by decide)) fun h => absurd h (by decide)
    exact ⟨noted.trans (Keep.weaken (by decide) all), (all.stopped (by decide)).2.2⟩
  · exact ⟨Keep.rfl', rfl⟩

theorem State.domain_cutHot (hot : s.mode.stopCause = 3) (small : d < 28) :
    s.cutHot.domain s.hotCore d = (s.domain s.hotCore d).cut (s.ut s.hotCore) d := by
  rw [State.cutHot, if_pos hot]
  dsimp only
  refine foldl_once (part := fun t : State => t.domain s.hotCore d) d (fun t => (t.domain s.hotCore d).cut (t.ut s.hotCore) d)
    (fun t => State.domain_cutDomain) (fun t m other => ?_) (List.range 28) List.nodup_range (List.mem_range.mpr small) _
  have same : (t.cutDomain s.hotCore m).domain s.hotCore d = t.domain s.hotCore d := State.domain_cutDomain_ne other.symm
  have time : (t.cutDomain s.hotCore m).ut s.hotCore = t.ut s.hotCore := State.cutDomain_keep.ut (by decide) _
  exact ⟨same, by rw [same, time]⟩

theorem State.hotCore_congr (h : t.mode.RestOf s.mode) : t.hotCore = s.hotCore := by
  have a : t.mode.junctionA = s.mode.junctionA := h.eq (f := ModeSt.junctionA) rfl
  have b : t.mode.junctionB = s.mode.junctionB := h.eq (f := ModeSt.junctionB) rfl
  rw [State.hotCore, State.hotCore, a, b]

theorem yields_safeStopPowerOff (arrived : u = s.arrive ut) (mode : u.mode.mode = .safeStop) (on : u.mode.stopOff = false)
    (due : u.mode.stopUt + 10000 * ms ≤ u.now) : Yields (.safeStopPowerOff ut) s fun t => t.mode.stopOff = true ∧
      (∀ x, (t.seatPower x).st = .off ∧ (t.link_ x).pcsUp = false) ∧
      (u.mode.stopCause = 3 → ∀ d : DomainNo, d.val ≠ 0 → d.val ≠ 1 → ¬(18 ≤ d.val ∧ d.val ≤ 23) → (u.domain u.hotCore d.val).st = .on →
        (t.domain u.hotCore d.val).going = some (.retention, u.ut u.hotCore + entryTime d.val false)) := by
  subst arrived
  refine ⟨_, congrArg Host.Outcome.next (State.stopPowerOff_eq mode on due), ?_⟩
  generalize s.arrive ut = u
  have keep : Keep (2 ^ 0 + 2 ^ 39 + 2 ^ 40 + 2 ^ 42) (u.setMode { u.mode with stopOff := true }) _ := State.cutSeats_keep
  have doms : DomStates (u.setMode { u.mode with stopOff := true }) _ := State.cutSeats_domStates
  have cut (x) : ((u.setMode { u.mode with stopOff := true }).cutSeats).seatCut x := State.cutSeats_cut
  dsimp only
  generalize (u.setMode { u.mode with stopOff := true }).cutSeats = z at keep doms cut
  have rest := keep.mode_rest (by decide)
  refine ⟨?_, fun x => ?_, fun hot d ne0 ne1 dram on => ?_⟩
  · rw [(State.cutHot_keep (s := z)).2]
    exact (keep.stopped (by decide)).2.2
  · rw [(State.cutHot_keep (s := z)).1.seatPower (by decide), (State.cutHot_keep (s := z)).1.link_ (by decide)]
    exact cut x
  · have core : z.hotCore = u.hotCore := State.hotCore_congr (s := u.setMode { u.mode with stopOff := true }) rest
    have cause : z.mode.stopCause = 3 := (keep.stopped (by decide)).1.trans hot
    have st : (z.domain u.hotCore d.val).st = .on := (doms _ _).trans on
    have time : z.ut u.hotCore = u.ut u.hotCore := keep.ut (by decide) _
    rw [← core, State.domain_cutHot cause d.isLt, core, DomSt.cut, if_neg (not_or.mpr ⟨by omega, dram⟩), if_pos st, time]

/-! ### Conditions and the session's end -/

theorem yields_conditionTimer {a : Fin 16} (reason : a = match k with
      | .supply _ => 1
      | .fan _ => 2) (arrived : u = s.arrive ut) (runs : tget u.mode.timers (CondTimer.key k) none = some e) (due : e ≤ u.now) :
    Yields (.conditionTimer k ut) s fun t => t.mode.reasons.getLsbD a.val = true := by
  subst arrived reason
  refine ⟨(s.arrive ut).reasonOn _, ?_, State.reasonOn_sets.1⟩
  show execConditionTimer k ut s = _
  unfold execConditionTimer
  dsimp only
  rw [runs]
  exact congrArg Host.Outcome.next (if_pos due)

theorem yields_reasonClear (arrived : u = s.arrive ut) (runs : tget u.mode.clearing n.val none = some e) (due : e ≤ u.now) :
    Yields (.reasonClear n ut) s fun t => t.mode.reasons.getLsbD n.val = false ∧
      ∀ m : Fin 16, m ≠ n → t.mode.reasons.getLsbD m.val = u.mode.reasons.getLsbD m.val := by
  subst arrived
  have run : exec (.reasonClear n ut) s = .next ((s.arrive ut).reasonClear n) := by
    show execReasonClear n ut s = _
    rw [execReasonClear, runs]
    exact congrArg Host.Outcome.next (if_pos due)
  exact ⟨_, run, State.reasonClear_clears⟩

theorem yields_serviceTimeout (arrived : u = s.arrive ut) (mode : u.mode.mode = .service) (late : u.mode.lastInput + 1800000 * ms ≤ u.now) :
    Yields (.serviceTimeout ut) s fun t => t.mode.mode = u.resting ∧ t.mode.prev = .service := by
  subst arrived
  have other : (s.arrive ut).resting ≠ (s.arrive ut).mode.mode := by
    rw [mode, State.resting]
    repeat' split
    all_goals exact Mode.noConfusion
  refine ⟨_, congrArg Host.Outcome.next (if_pos ⟨mode, late⟩), State.enterMode_mode _ _, ?_⟩
  rw [State.enterMode_prev other, mode]

theorem yields_safeStop {k : Fin 5} (cause : k ≠ 0) (stopped : s.mode.mode ≠ .safeStop) (powered : s.mode.mode ≠ .unpowered) :
    Yields (.safeStop k) s fun t => t.mode.mode = .safeStop ∧ t.mode.prev = s.mode.mode ∧ t.mode.stopCause = BitVec.ofNat 4 k.val ∧
      t.mode.stopUt = s.now ∧ t.mode.start = none ∧ t.mode.roll = none :=
  ⟨_, congrArg Host.Outcome.next (if_neg cause), State.safeStop_leaves stopped powered⟩

end stop

/-- Settles O40. That the hot core's retention begins at 10 s with the power cut is log entry 56, that nothing blocks it log
entry 135 (both DEDUCED). -/
theorem modeCommands : Obligations.ModeCommands := by
  unfold Obligations.ModeCommands
  refine ⟨fun _ _ => yields_safeStop, fun _ _ _ => yields_safeStopPowerOff, ?_, fun _ _ _ _ _ => yields_reasonClear, fun _ _ _ => yields_serviceTimeout⟩
  intro k ut e s u arrived runs due
  cases k with
  | supply x => exact yields_conditionTimer (a := 1) rfl arrived runs due
  | fan x => exact yields_conditionTimer (a := 2) rfl arrived runs due

end Sys2Proof.Machine

/-! PROOFS. What the referee's acts leave of the cores' health (13 R340 to R344). -/

namespace Sys2Proof.Machine

section health
variable {s t u : State} {c x y : CoreId} {v w : CoreSt} {K n : Nat} {bad : CoreId → Bool}

/-- Two states of a core whose heartbeats, hard error and reset are the same. -/
def CoreSt.SameHealth (v w : CoreSt) : Prop :=
  w.hardError = v.hardError ∧ w.dataOk = v.dataOk ∧ w.cwZeros = v.cwZeros ∧ w.supZeros = v.supZeros ∧ w.lastBeat = v.lastBeat ∧
    w.heldReset = v.heldReset ∧ w.aliveTwin = v.aliveTwin

theorem CoreSt.SameHealth.rfl' : v.SameHealth v := ⟨rfl, rfl, rfl, rfl, rfl, rfl, rfl⟩

theorem CoreSt.SameHealth.trans {a b d : CoreSt} (h : a.SameHealth b) (g : b.SameHealth d) : a.SameHealth d := by
  obtain ⟨h1, h2, h3, h4, h5, h6, h7⟩ := h
  obtain ⟨g1, g2, g3, g4, g5, g6, g7⟩ := g
  exact ⟨g1.trans h1, g2.trans h2, g3.trans h3, g4.trans h4, g5.trans h5, g6.trans h6, g7.trans h7⟩

/-- The cores' health is the same. -/
def Health (s t : State) : Prop := ∀ c, (s.coreSt c).SameHealth (t.coreSt c)

theorem Health.rfl' : Health s s := fun _ => .rfl'
theorem Health.trans (h : Health s t) (g : Health t u) : Health s u := fun c => (h c).trans (g c)

theorem Health.ite {p : Prop} [Decidable p] (h : Health s t) (g : Health s u) : Health s (if p then t else u) := by
  split
  · exact h
  · exact g

theorem Health.foldl {α : Type} {g : State → α → State} (step : ∀ s a, Health s (g s a)) (l : List α) (h : Health s t) :
    Health s (l.foldl g t) := by
  induction l generalizing t with
  | nil => exact h
  | cons a l ih => exact ih (h.trans (step t a))

theorem Keep.health (h : Keep K s t) (cores : K.testBit 42 = true) : Health s t := fun c => by
  rw [h.coreSt cores]
  exact .rfl'

theorem health_of_cores (h : ∀ c, t.coreSt c = s.coreSt c) : Health s t := fun c => by
  rw [h]
  exact .rfl'

theorem State.coreSt_setCore_ne (h : x ≠ c) : (s.setCore c v).coreSt x = s.coreSt x := by
  cases x <;> cases c
  · exact absurd rfl h
  · rfl
  · rfl
  · exact absurd rfl h

theorem health_setCore (h : (s.coreSt c).SameHealth v) : Health s (s.setCore c v) := by
  intro x
  by_cases same : x = c
  · subst same
    rw [State.coreSt_setCore]
    exact h
  · rw [State.coreSt_setCore_ne same]
    exact .rfl'

theorem CoreSt.SameHealth.of_eq (h : w = { v with
    fenced := w.fenced
    failed := w.failed
    fenceCause := w.fenceCause
    failovers := w.failovers
    sup := w.sup
    supRestarts := w.supRestarts
    fenceAsked := w.fenceAsked }) : v.SameHealth w := by
  rw [h]
  exact ⟨rfl, rfl, rfl, rfl, rfl, rfl, rfl⟩

theorem health_fenceCore : Health s (s.fenceCore x n) := by
  unfold State.fenceCore
  dsimp only
  refine Health.trans (t := s.setCore x _) (health_setCore ?_) (State.reasonOn_keep.health (by decide))
  exact .of_eq rfl

theorem health_setFlt {f : FltSt} (a : f.a = s.flt.a) (b : f.b = s.flt.b) : Health s (s.setFlt f) :=
  health_of_cores fun c => by
    cases c
    · exact a
    · exact b

theorem health_seatTo {a : Seat} : Health s (s.seatTo a y) := by
  unfold State.seatTo
  dsimp only
  refine Health.trans (t := s.setServing a y) (health_setFlt rfl rfl) ?_
  exact (State.setPortState_keep.health (by decide)).trans (State.setPortState_keep.health (by decide))

theorem health_moveSeats {seats : List Seat} : Health s (s.moveSeats x y seats) := by
  unfold State.moveSeats
  dsimp only
  refine Health.trans ?_ (health_setCore (.of_eq rfl))
  refine Health.trans ?_ (health_setFlt rfl rfl)
  refine Health.trans ?_ (State.regroupAll_keep.health (by decide))
  refine Health.trans ?_ (State.clearEngines_keep.health (by decide))
  refine Health.trans ?_ (State.clearFabric_keep.health (by decide))
  refine Health.foldl (fun v a => ?_) _ ?_
  · exact ((State.dropSeatFrames_keep.health (by decide)).trans health_seatTo).trans (State.settleSeat_keep.health (by decide))
  refine Health.trans ?_ (State.dropStores_keep.health (by decide))
  refine Health.trans ?_ (State.moveRequests_keep.health (by decide))
  exact Health.foldl (fun v h => Health.ite .rfl' (State.setHead_keep.health (by decide))) _ .rfl'

/-- The token passes to a core. -/
def State.tokenTo (s : State) (y : CoreId) : State :=
  let s := s.retryCmds fun x => x.op == 3 || x.op == 5
  let s := s.setMode { s.mode with writing := none }
  let s := s.setSvc { s.svc with usb := s.svc.usb.detach, lineRj := [], lineUsb := [] }
  let s := s.setTraf { s.traf with rateDrops := [] }
  (s.setFlt { s.flt with token := y }).privEdge y 32 4

theorem State.moveToken_eq (other : s.flt.token ≠ y) : s.moveToken y =
    (if (s.tokenTo y).causewayUp then (s.tokenTo y).steerAgain else s.tokenTo y).consoleOut (ascii "recorder: core " ++ coreLetter y) :=
  if_neg other

theorem health_tokenTo : Health s (s.tokenTo y) := by
  unfold State.tokenTo
  dsimp only
  refine Health.trans ?_ (State.privEdge_keep.health (by decide))
  refine Health.trans ?_ (health_setFlt rfl rfl)
  refine Health.trans (t := s.retryCmds fun x => x.op == 3 || x.op == 5) (State.retryCmds_keep.health (by decide)) ?_
  generalize (s.retryCmds fun x => x.op == 3 || x.op == 5) = z
  exact health_of_cores fun c => by cases c <;> rfl

theorem health_moveToken : Health s (s.moveToken y) := by
  by_cases same : s.flt.token = y
  · rw [State.moveToken, if_pos same]
    exact .rfl'
  · rw [State.moveToken_eq same]
    refine Health.trans ?_ (State.consoleOut_keep.health (by decide))
    exact .ite (health_tokenTo.trans (State.steerAgain_keep.health (by decide))) health_tokenTo

theorem health_fenceOnly : Health s (s.fenceOnly x) := by
  unfold State.fenceOnly
  dsimp only
  refine Health.trans ?_ (State.errLog_keep.health (by decide))
  refine Health.trans ?_ (State.settleCauseway_keep.health (by decide))
  exact health_fenceCore.trans (health_setCore (.of_eq rfl))

/-- A failed core is fenced, and its seats go to the twin. -/
def State.failAway (s : State) (x : CoreId) (cause : Nat) : State :=
  let seats := s.seatsOf x
  let s := s.fenceCore x cause
  let s := s.setCore x { s.coreSt x with failed := false, fenceAsked := some (s.ut x.twin) }
  (s.moveSeats x x.twin seats).settleCauseway.privEdge x.twin 32 4

/-- The twin's counters and conditions follow. -/
def State.failNoted (s : State) (y : CoreId) (row : Nat) : State :=
  let s := (s.setCntCore y { s.cntCore y with bwUntil := s.ut y + 10000 * ms }).bwSettle y
  if row = 4 then (s.reasonOn 9).errLog y 0x32 y 4 0 0 else s

theorem State.failover_eq {row : Nat} : s.failover x n row =
    ((((((s.failAway x n).failNoted x.twin row).moveToken x.twin).errLog x.twin 0x22 x 3 x.num row).errLog x.twin 0x23 x 3
      (s.seatsOf x).length (seatMask (s.seatsOf x)).toNat).endRolling 0x26).reModeFn := rfl

theorem health_failAway : Health s (s.failAway x n) := by
  unfold State.failAway
  dsimp only
  refine Health.trans ?_ (State.privEdge_keep.health (by decide))
  refine Health.trans ?_ (State.settleCauseway_keep.health (by decide))
  refine Health.trans ?_ health_moveSeats
  exact health_fenceCore.trans (health_setCore (.of_eq rfl))

theorem State.failNoted_keep {row : Nat} : Keep (2 ^ 0 + 2 ^ 42) s (s.failNoted y row) := by
  have noted : Keep (2 ^ 0 + 2 ^ 42) s ((s.setCntCore y { s.cntCore y with bwUntil := s.ut y + 10000 * ms }).bwSettle y) :=
    Keep.step State.bwSettle_keep (by decide) (State.setCntCore_keep.weaken (by decide))
  exact Keep.ite (Keep.step State.errLog_keep (by decide) (Keep.step State.reasonOn_keep (by decide) noted)) noted

theorem health_failover {row : Nat} : Health s (s.failover x n row) := by
  rw [State.failover_eq]
  refine Health.trans ?_ (State.reModeFn_keep.health (by decide))
  refine Health.trans ?_ (State.endRolling_keep.health (by decide))
  refine Health.trans ?_ (State.errLog_keep.health (by decide))
  refine Health.trans ?_ (State.errLog_keep.health (by decide))
  refine Health.trans ?_ health_moveToken
  exact health_failAway.trans (State.failNoted_keep.health (by decide))

theorem health_supervisorLost : Health s (s.supervisorLost x) := by
  unfold State.supervisorLost
  dsimp only
  split
  · exact .rfl'
  · have lost : Health s ((s.setCore x { s.coreSt x with sup := if (s.coreSt x).supRestarts then .lost else .restarting }).errLog
        ((s.setCore x { s.coreSt x with sup := if (s.coreSt x).supRestarts then .lost else .restarting }).logCore x) 0x24 x 4 x.num 0) :=
      (health_setCore (.of_eq rfl)).trans (State.errLog_keep.health (by decide))
    refine Health.ite lost (Health.ite (lost.trans health_moveToken) (lost.trans ?_))
    exact health_of_cores fun c => by cases c <;> rfl

theorem health_unsupervise : Health s s.unsupervise := by
  have lost : Health s (bothCores.foldl (fun s c =>
      let v := s.coreSt c
      if v.fenced then s
      else
        let s := if v.sup = .running then s.errLog c 0x24 c 4 c.num 0 else s
        s.setCore c { s.coreSt c with sup := .lost }) s) := by
    refine Health.foldl (fun v c => Health.ite .rfl' ?_) _ .rfl'
    refine Health.trans ?_ (health_setCore (.of_eq rfl))
    exact .ite (State.errLog_keep.health (by decide)) .rfl'
  unfold State.unsupervise
  dsimp only
  split
  · generalize bothCores.foldl _ s = z at lost ⊢
    refine Health.trans ?_ (State.reasonOn_keep.health (by decide))
    refine Health.trans ?_ (State.enterMode_keep.health (by decide))
    have ended : Health z (match z.mode.roll with
        | some r => (z.setMode { z.mode with roll := none }).endCmd r.port .unitCmd 0x26 0
        | none => z) := by
      split
      · exact Health.trans (health_of_cores fun c => by cases c <;> rfl) (State.endCmd_keep.health (by decide))
      · exact .rfl'
    exact (lost.trans ended).trans (health_of_cores fun c => by cases c <;> rfl)
  · exact .rfl'

theorem health_markFailed : Health s (s.markFailed bad) := by
  unfold State.markFailed
  dsimp only
  have marked : Health s (bothCores.foldl (fun s c => if bad c && s.serves c then
      ((s.setCore c { s.coreSt c with failed := true }).reasonOn 6).settleCauseway else s) s) := by
    refine Health.foldl (fun v c => Health.ite ?_ .rfl') _ .rfl'
    refine Health.trans ?_ (State.settleCauseway_keep.health (by decide))
    refine Health.trans ?_ (State.reasonOn_keep.health (by decide))
    exact health_setCore (.of_eq rfl)
  exact .ite (marked.trans (State.safeStop_keep.health (by decide))) (marked.trans (State.reModeFn_keep.health (by decide)))

/-- The referee's acts leave the cores' health. -/
theorem health_refereeEvaluate : Health s (s.refereeEvaluate bad) := by
  have stop : Health s (s.safeStop 2) := State.safeStop_keep.health (by decide)
  unfold State.refereeEvaluate
  dsimp only
  split
  · exact .rfl'
  · split
    · exact .ite stop .rfl'
    · refine .ite (.ite health_markFailed .rfl') (.ite (.ite stop .rfl') (.ite (.ite health_fenceOnly health_failover) ?_))
      exact .ite health_failover (.ite health_unsupervise (.ite health_supervisorLost (.ite health_supervisorLost .rfl')))

end health

end Sys2Proof.Machine

/-! PROOFS. Regulators, the reference, fans, temperatures and quads (11 R312, R313; 12 R317; 17 R405). -/

namespace Sys2Proof.Machine

section plant
variable {s t u : State} {c : CoreId} {v : Bool} {r : RailReq} {ut rpm K : Nat} {n k : Fin 6} {code : Byte} {x : Seat} {q : Fin 16}

/-! ### A hard error (R341) -/

theorem State.hardErr_eq (up : (s.coreSt c).fenced = false) (some : code ≠ 0) (few : code.toNat ≤ 7) :
    s.hardErr c code =
      let z := (s.memoryError c code).setCore c { (s.memoryError c code).coreSt c with hardError := code, dataOk := false }
      (z.errLog (z.logCore c) 0x21 c 3 code.toNat 0).refereeEvaluate none' := by
  refine if_neg ?_
  rw [up]
  simp only [Bool.false_eq_true, false_or, not_or]
  exact ⟨some, not_lt.mpr few⟩

theorem State.hardErr_leaves (up : (s.coreSt c).fenced = false) (some : code ≠ 0) (few : code.toNat ≤ 7) :
    ((s.hardErr c code).coreSt c).hardError = code ∧ ((s.hardErr c code).coreSt c).dataOk = false := by
  rw [State.hardErr_eq up some few]
  dsimp only
  generalize s.memoryError c code = m
  generalize (m.setCore c { m.coreSt c with hardError := code, dataOk := false }).logCore c = l
  have all : Health (m.setCore c { m.coreSt c with hardError := code, dataOk := false }) (((m.setCore c { m.coreSt c with
      hardError := code
      dataOk := false }).errLog l 0x21 c 3 code.toNat 0).refereeEvaluate none') :=
    (State.errLog_keep.health (by decide)).trans health_refereeEvaluate
  obtain ⟨hard, data, -⟩ := all c
  rw [State.coreSt_setCore] at hard data
  exact ⟨hard, data⟩

/-! ### Regulators and the reference (R312, R313) -/

theorem PowCore.req_setReq (p : PowCore) (a : Option RailReq) : (p.setReq v a).req v = a := by
  cases v <;> rfl

/-- A request that fails after it was sent again. -/
def State.railFails (s : State) (c : CoreId) (v : Bool) : State :=
  let s := ((s.setPowCore c ((s.powCore c).setReq v none)).edge c 890).reasonOn 11
  let (n, s) := s.draw
  s.errLog c 0x50 c 4 ((Config.freeWord n).toNat % 2 ^ 32) 0

theorem State.railLate_eq (asked : (s.powCore c).req v = some r) (late : r.sentUt + 200000 ≤ s.ut c) : s.railLate c v =
    if !r.second then s.setPowCore c ((s.powCore c).setReq v (some { r with second := true, sentUt := s.ut c }))
    else if r.raise then (s.railFails c v).hardErr c 5 else s.railFails c v := by
  rw [State.railLate, asked]
  exact if_neg (not_lt.mpr late)

theorem State.railFails_keep : Keep (2 ^ 42) s (s.railFails c v) :=
  Keep.step State.errLog_keep (by decide) (Keep.step State.draw_keep (by decide) (Keep.step State.reasonOn_keep (by decide)
    (Keep.step State.edge_keep (by decide) (State.setPowCore_keep.weaken (by decide)))))

theorem State.railFails_reason : (s.railFails c v).mode.reasons.getLsbD 11 = true := by
  have kept (z : State) (l : Nat) : Keep (2 ^ 41) z (z.draw.2.errLog c 0x50 c 4 l 0) :=
    Keep.step State.errLog_keep (by decide) (State.draw_keep.weaken (by decide))
  refine (congrArg (BitVec.getLsbD · 11) ((kept _ _).reasons_eq (by decide)).1).trans ?_
  exact (State.reasonOn_sets (n := 11)).1

theorem yields_pmbusTimeout (arrived : u = s.arrive ut) (asked : (u.powCore c).req v = some r) (late : r.sentUt + 200000 ≤ u.ut c) :
    (r.second = false → Yields (.pmbusTimeout c v ut) s fun t =>
      (t.powCore c).req v = some { r with second := true, sentUt := u.ut c }) ∧
    (r.second = true → r.raise = false → Yields (.pmbusTimeout c v ut) s fun t => t.mode.reasons.getLsbD 11 = true) ∧
    (r.second = true → r.raise = true → (u.coreSt c).fenced = false → Yields (.pmbusTimeout c v ut) s fun t =>
      (t.coreSt c).hardError = 5) := by
  subst arrived
  have run : exec (.pmbusTimeout c v ut) s = .next ((s.arrive ut).railLate c v) := rfl
  rw [State.railLate_eq asked late] at run
  refine ⟨fun first => ?_, fun again lower => ?_, fun again raise up => ?_⟩
  · rw [first] at run
    refine ⟨_, run, ?_⟩
    refine (congrArg (PowCore.req · v) (State.powCore_setPowCore _ _ _)).trans (PowCore.req_setReq _ _)
  · rw [again, lower] at run
    exact ⟨_, run, State.railFails_reason⟩
  · rw [again, raise] at run
    refine ⟨_, run, (State.hardErr_leaves ?_ (by decide) (by decide)).1⟩
    rw [State.railFails_keep.coreSt (by decide)]
    exact up

theorem yields_referenceLoss (own : (s.powCore c).onCausewayRef = false) :
    (s.flt.lanes ≠ 0 → Yields (.referenceLoss c) s fun t => (t.powCore c).onCausewayRef = true ∧ t.mode.reasons.getLsbD 7 = true) ∧
    (s.flt.lanes = 0 → (s.coreSt c).fenced = false → Yields (.referenceLoss c) s fun t => (t.coreSt c).hardError = 6) := by
  have kept : Keep (2 ^ 42) s (((s.edge c 892).reasonOn 7).errLog c 0x51 c 4 c.num 0) :=
    Keep.step State.errLog_keep (by decide) (Keep.step State.reasonOn_keep (by decide) (State.edge_keep.weaken (by decide)))
  have reason : (((s.edge c 892).reasonOn 7).errLog c 0x51 c 4 c.num 0).mode.reasons.getLsbD 7 = true :=
    (congrArg (BitVec.getLsbD · 7) (State.errLog_keep.reasons_eq (by decide)).1).trans (State.reasonOn_sets (n := 7)).1
  have lanes : (((s.edge c 892).reasonOn 7).errLog c 0x51 c 4 c.num 0).flt.lanes = s.flt.lanes :=
    congrArg (fun p : CoreSt × CoreSt × CoreId × Bool × _ × _ => p.2.2.2.2.1) (kept.fltA (by decide))
  have run : exec (.referenceLoss c) s = .next (if (((s.edge c 892).reasonOn 7).errLog c 0x51 c 4 c.num 0).flt.lanes = 0 then
      (((s.edge c 892).reasonOn 7).errLog c 0x51 c 4 c.num 0).hardErr c 6
      else (((s.edge c 892).reasonOn 7).errLog c 0x51 c 4 c.num 0).setPowCore c
        { (((s.edge c 892).reasonOn 7).errLog c 0x51 c 4 c.num 0).powCore c with onCausewayRef := true }) :=
    congrArg Host.Outcome.next (if_neg (by rw [own]; exact Bool.false_ne_true))
  rw [lanes] at run
  generalize ((s.edge c 892).reasonOn 7).errLog c 0x51 c 4 c.num 0 = z at kept reason run
  refine ⟨fun up => ?_, fun gone unfenced => ?_⟩
  · rw [if_neg up] at run
    exact ⟨_, run, congrArg PowCore.onCausewayRef (State.powCore_setPowCore _ _ _), reason⟩
  · rw [if_pos gone] at run
    refine ⟨_, run, (State.hardErr_leaves ?_ (by decide) (by decide)).1⟩
    rw [kept.coreSt (by decide)]
    exact unfenced

end plant

end Sys2Proof.Machine

/-! PROOFS. Fans, temperatures and the quads' management (12 R317; 17 R405). -/

namespace Sys2Proof.Machine

section fans
variable {s t u : State} {ut rpm : Nat} {n k : Fin 6} {v : FanSt} {a b l : Int} {x : Seat} {q : Fin 16} {key : Nat}

/-! ### Fans (R317) -/

theorem State.fan_setFan : (s.setFan n v).fan n = v := tget_tset_same _ _ _ _
theorem State.fan_setFan_ne (h : k ≠ n) : (s.setFan n v).fan k = s.fan k :=
  tget_tset_ne _ _ _ _ fun same => h (Fin.ext same)

theorem State.fan_fullSpeed : (s.fullSpeed n).fan n = { present := true, rpm := 8550 + (Config.freeWord s.draw.1).toNat % 1901 } :=
  State.fan_setFan

theorem State.fan_fullSpeed_ne (h : k ≠ n) : (s.fullSpeed n).fan k = s.fan k :=
  (State.fan_setFan_ne (s := s.draw.2) h).trans rfl

theorem State.fanBad_fullSpeed : (s.fullSpeed n).fanBad k = s.fanBad k := rfl

theorem fanKey_ne (h : k ≠ n) : CondTimer.key (.fan k) ≠ CondTimer.key (.fan n) := by
  intro same
  exact h (Fin.ext (Nat.add_left_cancel same))

theorem State.timers_startCause (idle : ¬(tget s.mode.timers key none).isSome = true) :
    (s.startCause key).mode.timers = tset s.mode.timers key (some (s.now + 10000 * ms)) none := by
  rw [State.startCause, if_neg idle]
  rfl

theorem State.timers_endCause : (s.endCause key).mode.timers = tset s.mode.timers key none none := rfl

theorem State.timer_startCause : (tget (s.startCause key).mode.timers key none).isSome = true ∧
    ∀ j, j ≠ key → tget (s.startCause key).mode.timers j none = tget s.mode.timers j none := by
  by_cases runs : (tget s.mode.timers key none).isSome = true
  · rw [State.startCause, if_pos runs]
    exact ⟨runs, fun _ _ => rfl⟩
  · rw [State.timers_startCause runs, tget_tset_same]
    exact ⟨rfl, fun j other => tget_tset_ne _ _ _ _ other⟩

theorem State.timer_endCause : tget (s.endCause key).mode.timers key none = none ∧
    ∀ j, j ≠ key → tget (s.endCause key).mode.timers j none = tget s.mode.timers j none := by
  rw [State.timers_endCause]
  exact ⟨tget_tset_same _ _ _ _, fun _ other => tget_tset_ne _ _ _ _ other⟩

theorem State.startCause_svc : (s.startCause key).svc = s.svc := State.startCause_keep.svc_eq (by decide)

/-- A fan that is not bad goes to full speed. -/
def State.speedUp (s : State) (k : Fin 6) : State := if s.fanBad k then s else s.fullSpeed k

theorem State.fanBad_speedUp : (s.speedUp n).fanBad k = s.fanBad k := by
  unfold State.speedUp
  split <;> rfl

theorem State.fan_speedUp_ne (h : k ≠ n) : (s.speedUp n).fan k = s.fan k := by
  unfold State.speedUp
  split
  · rfl
  · exact State.fan_fullSpeed_ne h

/-- A fan runs at full speed, unless it is bad. -/
def State.atSpeed (k : Fin 6) (s : State) : Prop :=
  s.fanBad k = false → (s.fan k).present = true ∧ 8550 ≤ (s.fan k).rpm ∧ (s.fan k).rpm ≤ 10450

theorem State.speedUp_atSpeed (s : State) (k : Fin 6) : State.atSpeed k (s.speedUp k) := by
  intro good
  rw [State.fanBad_speedUp] at good
  have fan : (s.speedUp k).fan k = { present := true, rpm := 8550 + (Config.freeWord s.draw.1).toNat % 1901 } := by
    rw [State.speedUp, good]
    exact State.fan_fullSpeed
  rw [fan]
  have small := Nat.mod_lt (Config.freeWord s.draw.1).toNat (show 0 < 1901 by decide)
  exact ⟨rfl, Nat.le_add_right _ _, by show 8550 + _ ≤ 10450; omega⟩

theorem State.speedUp_keeps (s : State) (n k : Fin 6) (h : State.atSpeed k s) : State.atSpeed k (s.speedUp n) := by
  by_cases same : k = n
  · rw [same]
    exact State.speedUp_atSpeed s n
  · intro good
    rw [State.fanBad_speedUp] at good
    rw [State.fan_speedUp_ne same]
    exact h good

/-- A bad fan is passed over. -/
theorem State.speedAll_bad (l : List (Fin 6)) (bad : s.fanBad n = true) :
    (l.foldl State.speedUp s).fan n = s.fan n ∧ (l.foldl State.speedUp s).fanBad n = true := by
  induction l generalizing s with
  | nil => exact ⟨rfl, bad⟩
  | cons k l ih =>
    obtain ⟨fan, still⟩ := ih (s := s.speedUp k) (by rw [State.fanBad_speedUp, bad])
    refine ⟨?_, still⟩
    rw [List.foldl_cons, fan]
    by_cases same : n = k
    · subst same
      rw [State.speedUp, if_pos bad]
    · exact State.fan_speedUp_ne same

theorem State.speedAll_fanBad (l : List (Fin 6)) : (l.foldl State.speedUp s).fanBad k = s.fanBad k := by
  induction l generalizing s with
  | nil => rfl
  | cons m l ih =>
    rw [List.foldl_cons, ih, State.fanBad_speedUp]

theorem yields_fanLoss (arrived : u = s.arrive ut) : Yields (.fanLoss n rpm ut) s fun t =>
    t.fan n = { present := rpm != 0, rpm := rpm } ∧ t.fanBad n = true ∧
    ∀ k, k ≠ n → u.fanBad k = false → (t.fan k).present = true ∧ 8550 ≤ (t.fan k).rpm ∧ (t.fan k).rpm ≤ 10450 := by
  subst arrived
  generalize lost : ((s.arrive ut).setFan n { present := rpm != 0, rpm := rpm }).startCause (CondTimer.key (.fan n)) = z
  have fan : z.fan n = { present := rpm != 0, rpm := rpm } := by
    rw [← lost, State.fan, State.startCause_svc]
    exact State.fan_setFan
  obtain ⟨bad, others⟩ := ((s.arrive ut).setFan n { present := rpm != 0, rpm := rpm }).timer_startCause (key := CondTimer.key (.fan n))
  rw [lost] at bad others
  have run : exec (.fanLoss n rpm ut) s = .next ((List.finRange 6).foldl State.speedUp z) := by
    rw [← lost]
    rfl
  obtain ⟨same, still⟩ := State.speedAll_bad (List.finRange 6) (n := n) (s := z) bad
  refine ⟨_, run, same.trans fan, still, fun k other good => ?_⟩
  refine foldl_forall State.speedUp_atSpeed State.speedUp_keeps (List.finRange 6) z k (List.mem_finRange k) ?_
  rw [State.speedAll_fanBad, State.fanBad, others _ (fanKey_ne other)]
  exact good

theorem yields_fanInserted (arrived : u = s.arrive ut) : Yields (.fanInserted n ut) s fun t => (t.fan n).present = true ∧
    t.fanBad n = false ∧ ∀ k, k ≠ n → t.fan k = u.fan k ∧ t.fanBad k = u.fanBad k := by
  subst arrived
  have back : (((s.arrive ut).fullSpeed n).endCause (CondTimer.key (.fan n))).fan n =
      { present := true, rpm := 8550 + (Config.freeWord (s.arrive ut).draw.1).toNat % 1901 } := State.fan_fullSpeed
  have rest (k : Fin 6) (other : k ≠ n) : (((s.arrive ut).fullSpeed n).endCause (CondTimer.key (.fan n))).fan k = (s.arrive ut).fan k :=
    State.fan_fullSpeed_ne other
  obtain ⟨ended, others⟩ := ((s.arrive ut).fullSpeed n).timer_endCause (key := CondTimer.key (.fan n))
  have run : exec (.fanInserted n ut) s = .next (let z := ((s.arrive ut).fullSpeed n).endCause (CondTimer.key (.fan n))
      if (List.finRange 6).any fun k => z.fanBad k then z else z.reasonOff 2) := rfl
  generalize ((s.arrive ut).fullSpeed n).endCause (CondTimer.key (.fan n)) = z at back rest ended others run
  have good : z.fanBad n = false := by
    rw [State.fanBad, ended]
    rfl
  have fans : (∀ k, (z.reasonOff 2).fan k = z.fan k) ∧ ∀ k, (z.reasonOff 2).fanBad k = z.fanBad k := by
    have timers : (z.reasonOff 2).mode.timers = z.mode.timers :=
      (State.reasonOff_keep.mode_rest (by decide)).eq (f := ModeSt.timers) rfl
    exact ⟨fun k => by rw [State.fan, State.fan, State.reasonOff_keep.svc_eq (by decide)],
      fun k => by rw [State.fanBad, State.fanBad, timers]⟩
  have bads (k : Fin 6) (other : k ≠ n) : z.fanBad k = (s.arrive ut).fanBad k := by
    rw [State.fanBad, others _ (fanKey_ne other)]
    rfl
  refine ⟨_, run, ?_⟩
  dsimp only
  split
  · exact ⟨by rw [back], good, fun k other => ⟨rest k other, bads k other⟩⟩
  · rw [fans.1, fans.2, back]
    refine ⟨rfl, good, fun k other => ?_⟩
    rw [fans.1, fans.2]
    exact ⟨rest k other, bads k other⟩

/-! ### Temperatures (R317, R318) -/

theorem State.reasonOff_caused (caused : s.mode.causes.getLsbD 5 = true) : s.reasonOff 5 =
    (s.setMode { s.mode with causes := s.mode.causes &&& ~~~(1#16 <<< 5) }).setMode { s.mode with
      causes := s.mode.causes &&& ~~~(1#16 <<< 5)
      clearing := tset s.mode.clearing 5 (some (s.now + 10000 * ms)) none } := if_pos caused

theorem State.reasonOff_five : (s.reasonOff 5).mode.reasons = s.mode.reasons ∧ (s.mode.causes.getLsbD 5 = true →
    (s.reasonOff 5).mode.causes.getLsbD 5 = false ∧ tget (s.reasonOff 5).mode.clearing 5 none = some (s.now + 10000 * ms)) := by
  by_cases caused : s.mode.causes.getLsbD 5 = true
  · rw [State.reasonOff_caused caused]
    refine ⟨rfl, fun _ => ⟨getLsbD_cleared (n := 5) _, ?_⟩⟩
    show tget (tset s.mode.clearing 5 (some (s.now + 10000 * ms)) none) 5 none = some (s.now + 10000 * ms)
    exact tget_tset_same _ _ _ _
  · have same : s.reasonOff 5 = s := if_neg caused
    rw [same]
    exact ⟨rfl, fun h => absurd h caused⟩

theorem ModeSt.RestOf.trans {a b c : ModeSt} (h : b.RestOf a) (g : c.RestOf b) : c.RestOf a := by
  unfold ModeSt.RestOf at h g ⊢
  rw [g, h]

/-- A condition changes no more of the mode than its reasons. -/
theorem State.reasonOn_rest {n : Fin 16} : (s.reasonOn n).mode.RestOf s.mode := by
  have kept (z : State) (l : List Byte) : Keep (2 ^ 40) z ((z.logLine l).managerVectorUp allFns 2) :=
    Keep.step State.managerVectorUp_keep (by decide) (State.logLine_keep.weaken (by decide))
  unfold State.reasonOn
  dsimp only
  split
  · rfl
  · exact ModeSt.RestOf.trans (b := { s.mode with
      causes := s.mode.causes ||| (1#16 <<< n.val)
      clearing := tset s.mode.clearing n.val none none
      reasons := s.mode.reasons ||| (1#16 <<< n.val)
      first := if s.mode.first = 0 then BitVec.ofNat 8 n.val else s.mode.first }) rfl
      ((kept _ _).mode_rest (by decide))

theorem yields_thermal (arrived : u = s.arrive ut) : Yields (.thermalLimitCrossed a b l ut) s fun t =>
    t.mode.junctionA = a ∧ t.mode.junctionB = b ∧ t.mode.inlet = l ∧
    (100 ≤ a ∨ 100 ≤ b ∨ 40 ≤ l → t.mode.reasons.getLsbD 5 = true ∧ t.mode.causes.getLsbD 5 = true) ∧
    (a < 100 → b < 100 → l < 40 → t.mode.reasons.getLsbD 5 = u.mode.reasons.getLsbD 5 ∧ (u.mode.causes.getLsbD 5 = true →
      t.mode.causes.getLsbD 5 = false ∧ tget t.mode.clearing 5 none = some (u.now + 10000 * ms))) := by
  subst arrived
  generalize read : (s.arrive ut).setMode { (s.arrive ut).mode with junctionA := a, junctionB := b, inlet := l } = z
  have run : exec (.thermalLimitCrossed a b l ut) s = .next (if 100 ≤ a ∨ 100 ≤ b ∨ 40 ≤ l then z.reasonOn 5 else z.reasonOff 5) := by
    rw [← read]
    rfl
  have junctions (t : State) (h : t.mode.RestOf z.mode) : t.mode.junctionA = a ∧ t.mode.junctionB = b ∧ t.mode.inlet = l := by
    rw [h.eq (f := ModeSt.junctionA) rfl, h.eq (f := ModeSt.junctionB) rfl, h.eq (f := ModeSt.inlet) rfl, ← read]
    exact ⟨rfl, rfl, rfl⟩
  refine ⟨_, run, ?_⟩
  dsimp only
  by_cases hot : 100 ≤ a ∨ 100 ≤ b ∨ 40 ≤ l
  · rw [if_pos hot]
    obtain ⟨ja, jb, inlet⟩ := junctions (z.reasonOn 5) State.reasonOn_rest
    exact ⟨ja, jb, inlet, fun _ => State.reasonOn_sets (n := 5), fun ha hb hl => absurd hot (by omega)⟩
  · rw [if_neg hot]
    obtain ⟨ja, jb, inlet⟩ := junctions (z.reasonOff 5) (State.reasonOff_keep.mode_rest (by decide))
    refine ⟨ja, jb, inlet, fun h => absurd h hot, fun _ _ _ => ?_⟩
    obtain ⟨reasons, clears⟩ := z.reasonOff_five
    rw [reasons]
    rw [← read] at clears ⊢
    exact ⟨rfl, clears⟩

/-! ### The management of a quad is lost -/

/-- A seat of a quad without management. -/
def State.quadCut (s : State) (x : Seat) : State := (s.linkDone x (s.goDown x 1 false)).powerCut x .off

theorem State.quadCut_cuts : (s.quadCut x).seatCut x := by
  refine ⟨?_, ?_⟩
  · rw [State.quadCut, State.powerCut, State.seatPower_putPower]
  · rw [State.quadCut, State.powerCut_keep.link_ (by decide)]
    exact State.pcsUp_linkDown (.inl rfl)

theorem State.quadCut_leaves {y : Seat} (h : s.seatCut y) : (s.quadCut x).seatCut y := by
  by_cases same : y = x
  · rw [same]
    exact State.quadCut_cuts
  · refine ⟨?_, ?_⟩
    · rw [State.quadCut, State.powerCut, State.seatPower_putPower_ne same, State.linkDone_keep.seatPower (by decide),
        State.goDown_keep.seatPower (by decide)]
      exact h.1
    · rw [State.quadCut, State.powerCut_keep.link_ (by decide)]
      exact State.pcsUp_linkDown (.inr h.2)

theorem yields_phyManagementTimeout : Yields (.phyManagementTimeout q ut) s fun t => t.mode.reasons.getLsbD 4 = true ∧
    ∀ x : Seat, x.val / 4 = q.val → (t.link_ x).pcsUp = false ∧ (t.seatPower x).st = .off := by
  have run : exec (.phyManagementTimeout q ut) s = .next
      ((allSeats.filter fun x => x.val / 4 == q.val).foldl State.quadCut ((s.arrive ut).reasonOn 4)) := rfl
  have kept (l : List Seat) (z : State) : Keep (2 ^ 41) z (l.foldl State.quadCut z) :=
    Keep.foldl Keep.rfl' fun _ _ => Keep.step State.powerCut_keep (by decide) (Keep.step State.linkDone_keep (by decide)
      (State.goDown_keep.weaken (by decide)))
  refine ⟨_, run, ?_, fun x mine => ?_⟩
  · rw [((kept _ _).reasons_eq (by decide)).1]
    exact (State.reasonOn_sets (n := 4)).1
  · have cut := foldl_forall (P := fun x s => s.seatCut x) (fun _ _ => State.quadCut_cuts) (fun _ _ _ => State.quadCut_leaves)
      (allSeats.filter fun x => x.val / 4 == q.val) ((s.arrive ut).reasonOn 4) x
      (List.mem_filter.mpr ⟨List.mem_finRange x, beq_iff_eq.mpr mine⟩)
    exact ⟨cut.2, cut.1⟩

end fans

/-- Settles O34. -/
theorem plantCommands : Obligations.PlantCommands := by
  unfold Obligations.PlantCommands
  exact ⟨fun _ _ _ _ _ _ => yields_pmbusTimeout, fun _ _ => yields_referenceLoss, fun _ _ _ _ _ => yields_fanLoss,
    fun _ _ _ _ => yields_fanInserted, fun _ _ _ _ _ _ => yields_thermal, fun _ _ _ => yields_phyManagementTimeout⟩

end Sys2Proof.Machine

/-! PROOFS. Heartbeats, hard errors, the failover and the fence (13 R340 to R344). -/

namespace Sys2Proof.Machine

section failover
variable {s t u : State} {c x y : CoreId} {a : Seat} {K n : Nat} {l : List Seat}

/-- The cores, the seats that they serve and the hand-over that is asked for are the same. -/
structure SameCores (s t : State) : Prop where
  cores : ∀ c, t.coreSt c = s.coreSt c
  serving : ∀ x, t.servingCore x = s.servingCore x
  adopt : t.flt.adopt = s.flt.adopt

theorem Keep.sameCores (h : Keep K s t) (kept : K.testBit 42 = true) : SameCores s t :=
  ⟨fun c => h.coreSt kept c, fun x => h.servingCore kept x, congrArg (fun p : CoreSt × CoreSt × _ × _ × _ × _ × _ × _ => p.2.2.2.2.2.2.1) (h.fltA kept)⟩

theorem Keep.token (h : Keep K s t) (kept : K.testBit 42 = true) : t.flt.token = s.flt.token :=
  congrArg (fun p : CoreSt × CoreSt × CoreId × _ => p.2.2.1) (h.fltA kept)

theorem Keep.lanes (h : Keep K s t) (kept : K.testBit 42 = true) : t.flt.lanes = s.flt.lanes :=
  congrArg (fun p : CoreSt × CoreSt × CoreId × Bool × _ × _ => p.2.2.2.2.1) (h.fltA kept)

theorem Keep.refereeLost (h : Keep K s t) (kept : K.testBit 42 = true) : t.flt.refereeLost = s.flt.refereeLost :=
  congrArg (fun p : CoreSt × CoreSt × CoreId × Bool × _ => p.2.2.2.1) (h.fltA kept)

theorem SameCores.trans (h : SameCores s t) (g : SameCores t u) : SameCores s u :=
  ⟨fun c => (g.cores c).trans (h.cores c), fun x => (g.serving x).trans (h.serving x), g.adopt.trans h.adopt⟩

/-! ### The token -/

theorem State.tokenTo_leaves : SameCores s (s.tokenTo y) ∧ (s.tokenTo y).flt.token = y := by
  unfold State.tokenTo
  dsimp only
  have asked : SameCores s (s.retryCmds fun x => x.op == 3 || x.op == 5) := State.retryCmds_keep.sameCores (by decide)
  generalize (s.retryCmds fun x => x.op == 3 || x.op == 5) = z at asked
  generalize held : ((z.setMode { z.mode with writing := none }).setSvc _).setTraf _ = w
  have same : SameCores z (w.setFlt { w.flt with token := y }) := by
    subst held
    exact ⟨fun c => by cases c <;> rfl, fun _ => rfl, rfl⟩
  refine ⟨(asked.trans same).trans (State.privEdge_keep.sameCores (by decide)), ?_⟩
  rw [State.privEdge_keep.token (by decide)]
  rfl

theorem State.moveToken_leaves : SameCores s (s.moveToken y) ∧ (s.moveToken y).flt.token = y := by
  by_cases same : s.flt.token = y
  · rw [State.moveToken, if_pos same]
    exact ⟨⟨fun _ => rfl, fun _ => rfl, rfl⟩, same⟩
  · rw [State.moveToken_eq same]
    obtain ⟨cores, token⟩ := s.tokenTo_leaves (y := y)
    have rest : Keep (2 ^ 42) (s.tokenTo y) ((if (s.tokenTo y).causewayUp then (s.tokenTo y).steerAgain else s.tokenTo y).consoleOut
        (ascii "recorder: core " ++ coreLetter y)) :=
      Keep.step State.consoleOut_keep (by decide) (Keep.ite (State.steerAgain_keep.weaken (by decide)) Keep.rfl')
    exact ⟨cores.trans (rest.sameCores (by decide)), (rest.token (by decide)).trans token⟩

/-! ### The move of the seats (R344) -/

theorem CoreId.eq_or_twin (c x : CoreId) : c = x ∨ c = x.twin := by
  cases c <;> cases x <;> simp [CoreId.twin]

theorem State.servingCore_setServing_ne {b : Seat} (h : b ≠ a) : (s.setServing a y).servingCore b = s.servingCore b :=
  tget_tset_ne _ _ _ _ fun same => h (Fin.ext same)

theorem State.seatTo_keep42 : Keep (2 ^ 42) (s.setServing a y) (s.seatTo a y) :=
  Keep.step State.setPortState_keep (by decide) (State.setPortState_keep.weaken (by decide))

/-- One seat moves. -/
def State.moveSeat (s : State) (y : CoreId) (a : Seat) : State := ((s.dropSeatFrames a).seatTo a y).settleSeat a

theorem State.servingCore_moveSeat {b : Seat} : (s.moveSeat y a).servingCore b = if b = a then y else s.servingCore b := by
  unfold State.moveSeat
  rw [State.settleSeat_keep.servingCore (by decide), State.seatTo_keep42.servingCore (by decide)]
  split
  next same =>
    subst same
    exact State.servingCore_setServing _ _ _
  next other => rw [State.servingCore_setServing_ne other, State.dropSeatFrames_keep.servingCore (by decide)]

theorem State.coreSt_moveSeat : (s.moveSeat y a).coreSt c = s.coreSt c := by
  unfold State.moveSeat
  rw [State.settleSeat_keep.coreSt (by decide), State.seatTo_keep42.coreSt (by decide)]
  rw [← (State.dropSeatFrames_keep (s := s) (x := a)).coreSt (by decide)]
  generalize s.dropSeatFrames a = z
  cases c <;> rfl

theorem State.moveSeats_serving (l : List Seat) {b : Seat} : (l.foldl (fun s a => s.moveSeat y a) s).servingCore b =
    if b ∈ l then y else s.servingCore b := by
  induction l generalizing s with
  | nil => simp
  | cons a l ih =>
    rw [List.foldl_cons, ih, State.servingCore_moveSeat]
    by_cases later : b ∈ l
    · rw [if_pos later, if_pos (List.mem_cons_of_mem _ later)]
    · by_cases same : b = a
      · subst same
        rw [if_neg later, if_pos rfl, if_pos List.mem_cons_self]
      · rw [if_neg later, if_neg same, if_neg (by simp [same, later])]

theorem State.moveSeats_cores (l : List Seat) : (l.foldl (fun s a => s.moveSeat y a) s).coreSt c = s.coreSt c := by
  induction l generalizing s with
  | nil => rfl
  | cons a l ih => rw [List.foldl_cons, ih, State.coreSt_moveSeat]

/-- What a move of seats does before the first of them moves, and after the last. -/
def State.seatsLeave (s : State) (x y : CoreId) : State :=
  let mine := s.disp.heads.map (·.1)
  let s := mine.foldl (fun s h =>
    let o := toHead h
    if s.servingCore (headSeat o) = x then s else s.setHead o { s.head o with mirrored := false }) s
  (s.moveRequests x y).dropStores fun c _ => c == x

def State.seatsArrive (s : State) (x y : CoreId) (seats : List Seat) (n : Nat) : State :=
  let s := ((s.clearFabric x).clearEngines x).regroupAll
  let s := s.setFlt { s.flt with
    adopt := some x, moved := seatMask seats, buildFrom := seats.foldl (fun t a => tset t a.val (n + 3) 0) s.flt.buildFrom }
  s.setCore y { s.coreSt y with failovers := (s.coreSt y).failovers + 1 }

theorem State.moveSeats_eq : s.moveSeats x y l =
    (l.foldl (fun s a => s.moveSeat y a) (s.seatsLeave x y)).seatsArrive x y l (s.ut y / microFrame) := rfl

theorem State.seatsLeave_keep : Keep (2 ^ 0 + 2 ^ 42) s (s.seatsLeave x y) := by
  unfold State.seatsLeave
  refine Keep.step State.dropStores_keep (by decide) (Keep.step State.moveRequests_keep (by decide) ?_)
  exact Keep.foldl Keep.rfl' fun _ _ => Keep.ite Keep.rfl' (State.setHead_keep.weaken (by decide))

theorem State.seatsArrive_leaves : (∀ a, (s.seatsArrive x y l n).servingCore a = s.servingCore a) ∧
    (s.seatsArrive x y l n).flt.adopt = some x ∧ (∀ c, c ≠ y → (s.seatsArrive x y l n).coreSt c = s.coreSt c) := by
  have cleared : Keep (2 ^ 42) s (((s.clearFabric x).clearEngines x).regroupAll) :=
    Keep.step State.regroupAll_keep (by decide) (Keep.step State.clearEngines_keep (by decide) (State.clearFabric_keep.weaken (by decide)))
  unfold State.seatsArrive
  dsimp only
  generalize ((s.clearFabric x).clearEngines x).regroupAll = z at cleared
  refine ⟨fun a => ?_, ?_, fun c other => ?_⟩
  · rw [← cleared.servingCore (by decide)]
    cases y <;> rfl
  · cases y <;> rfl
  · rw [State.coreSt_setCore_ne other, ← cleared.coreSt (by decide)]
    cases c <;> rfl

/-- After a failover's move every seat is the twin's. -/
theorem State.moveSeats_leaves : (∀ a, (s.moveSeats x x.twin (s.seatsOf x)).servingCore a = x.twin) ∧
    (s.moveSeats x x.twin (s.seatsOf x)).flt.adopt = some x ∧
    (s.moveSeats x x.twin (s.seatsOf x)).coreSt x = s.coreSt x := by
  have other : x ≠ x.twin := by cases x <;> exact CoreId.noConfusion
  rw [State.moveSeats_eq]
  obtain ⟨serving, adopt, cores⟩ := State.seatsArrive_leaves (x := x) (y := x.twin) (l := s.seatsOf x) (n := s.ut x.twin / microFrame)
    (s := (s.seatsOf x).foldl (fun s a => s.moveSeat x.twin a) (s.seatsLeave x x.twin))
  refine ⟨fun a => ?_, adopt, ?_⟩
  · rw [serving, State.moveSeats_serving, State.seatsLeave_keep.servingCore (by decide)]
    split
    · rfl
    next elsewhere =>
      refine (CoreId.eq_or_twin (s.servingCore a) x).resolve_left fun mine => elsewhere ?_
      exact List.mem_filter.mpr ⟨List.mem_finRange a, beq_iff_eq.mpr mine⟩
  · rw [cores x other, State.moveSeats_cores, State.seatsLeave_keep.coreSt (by decide)]

/-! ### The failover (R342 row 3) -/

theorem State.fenceCore_leaves : ((s.fenceCore x n).coreSt x).fenced = true ∧ ((s.fenceCore x n).coreSt x).fenceCause = BitVec.ofNat 4 n ∧
    (∀ y, y ≠ x → (s.fenceCore x n).coreSt y = s.coreSt y) ∧ (∀ a, (s.fenceCore x n).servingCore a = s.servingCore a) := by
  have kept (z : State) : Keep (2 ^ 42) z (z.reasonOn 6) := State.reasonOn_keep.weaken (by decide)
  unfold State.fenceCore
  dsimp only
  refine ⟨?_, ?_, fun y other => ?_, fun a => ?_⟩
  · rw [(kept _).coreSt (by decide), State.coreSt_setCore]
  · rw [(kept _).coreSt (by decide), State.coreSt_setCore]
  · rw [(kept _).coreSt (by decide), State.coreSt_setCore_ne other]
  · rw [(kept _).servingCore (by decide)]
    cases x <;> rfl

theorem State.seatsOf_congr (h : ∀ a, t.servingCore a = s.servingCore a) : t.seatsOf x = s.seatsOf x := by
  unfold State.seatsOf
  simp only [h]

/-- A core is fenced and asked to confirm, and its seats, with the hand-over, are its twin's. -/
structure FailedOver (t : State) (x : CoreId) (cause now : Nat) : Prop where
  fenced : (t.coreSt x).fenced = true
  cause : (t.coreSt x).fenceCause = BitVec.ofNat 4 cause
  asked : (t.coreSt x).fenceAsked = some now
  adopt : t.flt.adopt = some x
  serving : ∀ a, t.servingCore a = x.twin

theorem FailedOver.same {now : Nat} (h : FailedOver t x n now) (g : SameCores t u) : FailedOver u x n now where
  fenced := by rw [g.cores]; exact h.fenced
  cause := by rw [g.cores]; exact h.cause
  asked := by rw [g.cores]; exact h.asked
  adopt := g.adopt.trans h.adopt
  serving a := by rw [g.serving]; exact h.serving a

theorem State.failAway_leaves : FailedOver (s.failAway x n) x n (s.ut x.twin) := by
  obtain ⟨fenced, cause, -, serves⟩ := s.fenceCore_leaves (x := x) (n := n)
  have time : (s.fenceCore x n).ut x.twin = s.ut x.twin := State.fenceCore_keep.ut (by decide) _
  unfold State.failAway
  dsimp only
  generalize s.fenceCore x n = f at fenced cause serves time
  have asks : (f.setCore x { f.coreSt x with failed := false, fenceAsked := some (f.ut x.twin) }).seatsOf x = s.seatsOf x := by
    refine State.seatsOf_congr fun a => ?_
    rw [← serves]
    cases x <;> rfl
  have core : (f.setCore x { f.coreSt x with failed := false, fenceAsked := some (f.ut x.twin) }).coreSt x =
      { f.coreSt x with failed := false, fenceAsked := some (f.ut x.twin) } := State.coreSt_setCore _ _ _
  rw [← asks]
  generalize f.setCore x { f.coreSt x with failed := false, fenceAsked := some (f.ut x.twin) } = z at core
  obtain ⟨serving, adopt, moved⟩ := z.moveSeats_leaves (x := x)
  rw [core] at moved
  have gone : FailedOver (z.moveSeats x x.twin (z.seatsOf x)) x n (s.ut x.twin) :=
    ⟨by rw [moved]; exact fenced, by rw [moved]; exact cause, by rw [moved, time], adopt, serving⟩
  exact gone.same ((State.settleCauseway_keep.sameCores (by decide)).trans (State.privEdge_keep.sameCores (by decide)))

theorem State.failover_leaves {row : Nat} : FailedOver (s.failover x n row) x n (s.ut x.twin) ∧ (s.failover x n row).flt.token = x.twin := by
  rw [State.failover_eq]
  have away := (s.failAway_leaves (x := x) (n := n)).same ((State.failNoted_keep (y := x.twin) (row := row)).sameCores (by decide))
  generalize (s.failAway x n).failNoted x.twin row = z at away
  obtain ⟨same, token⟩ := z.moveToken_leaves (y := x.twin)
  generalize z.moveToken x.twin = w at same token
  have rest : Keep (2 ^ 42) w ((((w.errLog x.twin 0x22 x 3 x.num row).errLog x.twin 0x23 x 3 (s.seatsOf x).length
      (seatMask (s.seatsOf x)).toNat).endRolling 0x26).reModeFn) :=
    Keep.step State.reModeFn_keep (by decide) (Keep.step State.endRolling_keep (by decide) (Keep.step State.errLog_keep (by decide)
      (State.errLog_keep.weaken (by decide))))
  exact ⟨(away.same same).same (rest.sameCores (by decide)), (rest.token (by decide)).trans token⟩

end failover

end Sys2Proof.Machine

/-! PROOFS. Heartbeats, a hard error's failover, and the fence that nobody confirms (13 R340 to R344). -/

namespace Sys2Proof.Machine

section coreFaults
variable {s t u z : State} {c x y : CoreId} {f g : FnId} {code : Byte} {n e : Nat}

theorem CoreId.twin_ne_self : c.twin ≠ c := by cases c <;> exact CoreId.noConfusion

theorem coreSt_setCores {v w : CoreSt} : (((s.setCore c v).setCore c.twin w).coreSt c) = v ∧
    (((s.setCore c v).setCore c.twin w).coreSt c.twin) = w :=
  ⟨(State.coreSt_setCore_ne CoreId.twin_ne_self.symm).trans (State.coreSt_setCore _ _ _), State.coreSt_setCore _ _ _⟩

/-- A heartbeat that counts shows in its core and, over a lane, at its twin (R340). -/
theorem yields_heartbeat {d p w k : Bool} {ut : Nat} (arrived : u = s.arrive ut) (up : (u.coreSt c).fenced = false)
    (free : (u.coreSt c).heldReset = false) :
    Yields (.heartbeat c d p w k ut) s fun t => (t.coreSt c).lastBeat = u.ut c ∧
      (t.coreSt c).dataOk = (d && (u.coreSt c).hardError == 0) ∧
      (t.coreSt c).cwZeros = countZeros (u.coreSt c).cwZeros w ∧ (t.coreSt c.twin).aliveTwin = (u.flt.lanes != 0) := by
  subst arrived
  generalize arrived : s.arrive ut = u at up free
  have run : exec (.heartbeat c d p w k ut) s = .next (u.heartbeat c d p w) := congrArg (fun u => Host.Outcome.next (State.heartbeat u c d p w)) arrived
  refine ⟨_, run, ?_⟩
  have open' : ¬ ((u.coreSt c).fenced || (u.coreSt c).heldReset) = true := by simp [up, free]
  unfold State.heartbeat
  dsimp only
  rw [if_neg open']
  generalize hv : { u.coreSt c with
      dataOk := d && (u.coreSt c).hardError == 0, cwZeros := countZeros (u.coreSt c).cwZeros w,
      supZeros := countZeros (u.coreSt c).supZeros p, lastBeat := u.ut c } = v
  have lanes : (u.setCore c v).flt.lanes = u.flt.lanes := by cases c <;> rfl
  rw [lanes]
  generalize hw : { (u.setCore c v).coreSt c.twin with aliveTwin := u.flt.lanes != 0 } = w'
  obtain ⟨own, twins⟩ := coreSt_setCores (s := u) (c := c) (v := v) (w := w')
  have all : Health ((u.setCore c v).setCore c.twin w') (((u.setCore c v).setCore c.twin w').refereeEvaluate none') :=
    health_refereeEvaluate
  obtain ⟨-, data, zeros, -, beat, -, -⟩ := all c
  obtain ⟨-, -, -, -, -, -, alive⟩ := all c.twin
  rw [own] at data zeros beat
  rw [twins] at alive
  rw [data, zeros, beat, alive]
  subst hv hw
  exact ⟨rfl, rfl, rfl, rfl⟩

/-- A missed heartbeat shows at the twin (R340). -/
theorem yields_heartbeatLost {ut : Nat} (arrived : u = s.arrive ut) (up : (u.coreSt c).fenced = false)
    (late : (u.coreSt c).lastBeat + 200000 ≤ ut) :
    Yields (.heartbeatLost c ut) s fun t => (t.coreSt c.twin).aliveTwin = false := by
  subst arrived
  generalize arrived : s.arrive ut = u at up late
  have run : exec (.heartbeatLost c ut) s = .next (u.heartbeatLost c ut) := congrArg (fun u => Host.Outcome.next (State.heartbeatLost u c ut)) arrived
  refine ⟨_, run, ?_⟩
  have acts : ¬ ((u.coreSt c).fenced || !decide ((u.coreSt c).lastBeat + 200000 ≤ ut)) = true := by simp [up, late]
  unfold State.heartbeatLost
  dsimp only
  rw [if_neg acts]
  generalize hw : { u.coreSt c.twin with aliveTwin := false } = w
  have dead : ((u.setCore c.twin w).coreSt c.twin).aliveTwin = false := by rw [State.coreSt_setCore, ← hw]
  generalize u.setCore c.twin w = z at dead
  have noted : Health z (if (z.privEdge c.twin 32 3).mode.mode = .unpowered then z.privEdge c.twin 32 3
      else (z.privEdge c.twin 32 3).errLog ((z.privEdge c.twin 32 3).logCore c) 0x20 c 3 c.num 0) :=
    Health.trans (State.privEdge_keep.health (by decide)) (Health.ite .rfl' (State.errLog_keep.health (by decide)))
  obtain ⟨-, -, -, -, -, -, alive⟩ := (noted.trans health_refereeEvaluate) c.twin
  exact alive.trans dead

/-! ### The failover that follows (R341, R342 row 3) -/

theorem State.restarting_of_noRoll (still : s.mode.roll = .none) : s.restarting = .none := by
  rw [State.restarting, still]

/-- A core with its data path out, its twin fit, fails over to it. -/
theorem State.refereeEvaluate_failover (rests : s.mode.mode.isResting = true) (still : s.mode.roll = .none)
    (referee : s.flt.refereeLost = false) (up : (s.coreSt c).fenced = false) (out : (s.coreSt c).dataOk = false)
    (whole : (s.coreSt c).failed = false) (twinUp : (s.coreSt c.twin).fenced = false) (twinWhole : (s.coreSt c.twin).failed = false)
    (twinIn : (s.coreSt c.twin).dataOk = true) : s.refereeEvaluate none' = s.failover c 2 3 := by
  have powered : ¬ (s.mode.mode = .unpowered ∨ s.mode.mode = .safeStop ∨ (s.mode.mode = .coldStart ∧ s.startStep.getD 9 < 5)) := by
    rintro (h | h | ⟨h, -⟩) <;> (rw [h] at rests; exact Bool.false_ne_true rests)
  have supervised : s.mode.mode ≠ .unsupervised := by
    intro h
    rw [h] at rests
    exact Bool.false_ne_true rests
  unfold State.refereeEvaluate
  dsimp only
  rw [if_neg powered, State.restarting_of_noRoll still]
  dsimp only
  rw [referee]
  cases c with
  | a =>
    simp only [CoreId.twin] at twinUp twinWhole twinIn
    simp [up, out, whole, twinUp, twinWhole, twinIn, none', supervised]
  | b =>
    simp only [CoreId.twin] at twinUp twinWhole twinIn
    simp [up, out, whole, twinUp, twinWhole, twinIn, none', supervised]

/-- Without a rolling update the mode, its rolling update and the referee stay as a hard error is logged. -/
theorem yields_hardError (up : (s.coreSt c).fenced = false) (some : code ≠ 0) (few : code.toNat ≤ 7) :
    Yields (.hardError c code) s fun t => (t.coreSt c).hardError = code ∧ (t.coreSt c).dataOk = false ∧
      (s.mode.mode.isResting = true → s.mode.roll = .none → s.flt.refereeLost = false → (s.coreSt c.twin).fenced = false →
        (s.coreSt c.twin).failed = false → (s.coreSt c.twin).dataOk = true → (s.coreSt c).failed = false →
        (t.coreSt c).fenced = true ∧ (t.coreSt c).fenceCause = 2 ∧ (t.coreSt c).fenceAsked = .some (s.ut c.twin) ∧
        t.flt.token = c.twin ∧ t.flt.adopt = .some c ∧ ∀ x, t.servingCore x = c.twin) := by
  obtain ⟨hard, data⟩ := s.hardErr_leaves up some few
  refine ⟨_, rfl, hard, data, fun rests still referee twinUp twinWhole twinIn whole => ?_⟩
  rw [State.hardErr_eq up some few]
  dsimp only
  have kept : Keep (2 ^ 0 + 2 ^ 39 + 2 ^ 40 + 2 ^ 42) s (s.memoryError c code) := State.memoryError_keep.weaken (by decide)
  generalize s.memoryError c code = m at kept
  have own : (m.setCore c { m.coreSt c with hardError := code, dataOk := false }).coreSt c =
      { m.coreSt c with hardError := code, dataOk := false } := State.coreSt_setCore _ _ _
  have twins : (m.setCore c { m.coreSt c with hardError := code, dataOk := false }).coreSt c.twin = m.coreSt c.twin :=
    State.coreSt_setCore_ne CoreId.twin_ne_self
  rw [kept.coreSt (by decide)] at own
  rw [kept.coreSt (by decide), kept.coreSt (by decide)] at twins
  have rest (v : CoreSt) : (m.setCore c v).mode = m.mode ∧ (m.setCore c v).flt.refereeLost = m.flt.refereeLost ∧
      (m.setCore c v).ut c.twin = m.ut c.twin := by cases c <;> exact ⟨rfl, rfl, rfl⟩
  rw [kept.coreSt (by decide)]
  obtain ⟨mode, ref, time⟩ := rest { s.coreSt c with hardError := code, dataOk := false }
  generalize m.setCore c { s.coreSt c with hardError := code, dataOk := false } = z at own twins mode ref time
  have logged : Keep (2 ^ 0 + 2 ^ 39 + 2 ^ 40 + 2 ^ 42) z (z.errLog (z.logCore c) 0x21 c 3 code.toNat 0) :=
    State.errLog_keep.weaken (by decide)
  generalize z.errLog (z.logCore c) 0x21 c 3 code.toNat 0 = l at logged
  have lOwn := (logged.coreSt (by decide) c).trans own
  have lTwin := (logged.coreSt (by decide) c.twin).trans twins
  have away : l.refereeEvaluate none' = l.failover c 2 3 := by
    refine State.refereeEvaluate_failover ?_ ?_ ?_ ?_ ?_ ?_ ?_ ?_ ?_
    · have same : l.mode.mode = s.mode.mode :=
        (logged.mode0 (by decide)).trans ((congrArg ModeSt.mode mode).trans (kept.mode0 (by decide)))
      rw [same]
      exact rests
    · rw [logged.roll (by decide), mode, kept.roll (by decide)]
      exact still
    · rw [logged.refereeLost (by decide), ref, kept.refereeLost (by decide)]
      exact referee
    · rw [lOwn]
      exact up
    · rw [lOwn]
    · rw [lOwn]
      exact whole
    · rw [lTwin]
      exact twinUp
    · rw [lTwin]
      exact twinWhole
    · rw [lTwin]
      exact twinIn
  rw [away]
  obtain ⟨⟨fenced, cause, asked, adopt, serving⟩, token⟩ := l.failover_leaves (x := c) (n := 2) (row := 3)
  rw [logged.ut (by decide), time, kept.ut (by decide)] at asked
  exact ⟨fenced, cause, asked, token, adopt, serving⟩

/-! ### The confirmation that does not come (R343) -/

/-- The core's function is taken down, its seats' ports with it where the twin has taken them. -/
def State.fenceFn (taken : Bool) (s : State) (f : FnId) : State :=
  if taken then
    (trunkPorts (hostTrunk f.port)).foldl (fun s o => s.setPortState f.core o .down) (s.setFn f { s.fnSt f with link := .down, aspmL1 := false })
  else s.loseFn f .down

theorem State.loseFn_down : ((s.loseFn f .down).fnSt f).link = .down := by
  rw [State.loseFn_eq]
  split
  · assumption
  · split
    · rw [(State.fnEdge_keep.fnLink (by decide) f).1, State.fnSt_setFn]
    · rw [(State.afterLoss_keep.fnLink (by decide) f).1, State.fnSt_setFn]

theorem State.portsDown_keep : Keep (2 ^ 1 + 2 ^ 42) s ((trunkPorts (hostTrunk f.port)).foldl (fun s o => s.setPortState f.core o .down) s) :=
  Keep.foldl Keep.rfl' fun _ _ => State.setPortState_keep.weaken (by decide)

theorem State.fenceFn_down {taken : Bool} : ((s.fenceFn taken f).fnSt f).link = .down := by
  unfold State.fenceFn
  split
  · rw [(State.portsDown_keep.fnLink (by decide) f).1, State.fnSt_setFn]
  · exact State.loseFn_down

theorem State.fenceFn_other {taken : Bool} (other : g ≠ f) : ((s.fenceFn taken f).fnSt g).link = (s.fnSt g).link := by
  unfold State.fenceFn
  split
  · rw [(State.portsDown_keep.fnLink (by decide) g).1, State.fnSt_setFn_ne other]
  · exact State.loseFn_link_other other

theorem State.fenceFn_cores {taken : Bool} : (s.fenceFn taken f).coreSt c = s.coreSt c := by
  unfold State.fenceFn
  split
  · rw [State.portsDown_keep.coreSt (by decide)]
    cases c <;> rfl
  · exact State.loseFn_keep.coreSt (by decide) c

theorem State.fenceTimeout_eq (asked : (s.coreSt c).fenceAsked = some e) (late : e + 100000 ≤ s.ut c.twin) :
    s.fenceTimeout c = (coreFns c).foldl (State.fenceFn
      ((s.setCore c { s.coreSt c with heldReset := true, fenceAsked := .none }).flt.adopt == some c ||
        (s.setCore c { s.coreSt c with heldReset := true, fenceAsked := .none }).flt.adopted == some c))
      (s.setCore c { s.coreSt c with heldReset := true, fenceAsked := .none }) := by
  rw [State.fenceTimeout, asked]
  exact if_neg (not_lt.mpr late)

theorem FnId.mem_coreFns (h : f.core = c) : f ∈ coreFns c := by
  obtain ⟨p, x⟩ := f
  subst h
  cases p <;> simp [coreFns]

theorem yields_fenceConfirmTimeout {ut : Nat} (arrived : u = s.arrive ut) (asked : (u.coreSt c).fenceAsked = some e)
    (late : e + 100000 ≤ u.ut c.twin) :
    Yields (.fenceConfirmTimeout c ut) s fun t => (t.coreSt c).heldReset = true ∧ (t.coreSt c).fenceAsked = none ∧
      ∀ f : FnId, f.core = c → (t.fnSt f).link = .down := by
  have run : exec (.fenceConfirmTimeout c ut) s = .next (u.fenceTimeout c) :=
    congrArg (fun u => Host.Outcome.next (State.fenceTimeout u c)) arrived.symm
  refine ⟨_, run, ?_⟩
  rw [State.fenceTimeout_eq asked late]
  generalize hv : { u.coreSt c with heldReset := true, fenceAsked := none } = v
  have core : (u.setCore c v).coreSt c = v := State.coreSt_setCore _ _ _
  generalize u.setCore c v = z at core
  generalize (z.flt.adopt == some c || z.flt.adopted == some c) = taken
  have same (l : List FnId) : ∀ z : State, (l.foldl (State.fenceFn taken) z).coreSt c = z.coreSt c := by
    induction l with
    | nil => exact fun z => rfl
    | cons f l ih => exact fun z => (ih _).trans State.fenceFn_cores
  have down : ∀ f ∈ coreFns c, (((coreFns c).foldl (State.fenceFn taken) z).fnSt f).link = .down :=
    foldl_forall (P := fun f s => (s.fnSt f).link = .down) (fun _ _ => State.fenceFn_down) (fun s f g held => by
      by_cases other : g = f
      · subst other
        exact State.fenceFn_down
      · exact (State.fenceFn_other other).trans held) _ z
  refine ⟨?_, ?_, fun f own => down f (FnId.mem_coreFns own)⟩
  · rw [same, core, ← hv]
  · rw [same, core, ← hv]

end coreFaults

/-- Settles O36. -/
theorem coreFaults : Obligations.CoreFaults := by
  unfold Obligations.CoreFaults
  exact ⟨fun _ _ _ _ _ _ _ _ arrived up free => yields_heartbeat arrived up free,
    fun _ _ _ _ arrived up late => yields_heartbeatLost arrived up late,
    fun _ _ _ up some few => yields_hardError up some few,
    fun _ _ _ _ _ arrived asked late => yields_fenceConfirmTimeout arrived asked late⟩

end Sys2Proof.Machine

/-! PROOFS. Starts: what the end of each step leaves (12 R319 to R326). -/

namespace Sys2Proof.Machine

section starts
variable {s t u : State} {x : StartSt} {r : StepResult} {ut : Nat} {k K : Nat}

theorem Keep.resting (h : Keep K s t) (fns : K.testBit 1 = true) (ports : K.testBit 2 = true) (hcfg : K.testBit 3 = true)
    (isl : K.testBit 5 = true) (cores : K.testBit 42 = true) : t.resting = s.resting := by
  have wiring : t.host.wiring = s.host.wiring := congrArg (fun p : _ × Bool × _ => p.2.1) (h.hcfg hcfg)
  unfold State.resting State.serves State.leased State.anyIslet
  simp only [h.fnUp fns cores, h.coreSt cores, h.portSt ports, h.islet isl, wiring]

theorem Keep.failCount (h : Keep K s t) (rest : K.testBit 40 = true) : t.mode.failCount = s.mode.failCount :=
  (h.mode_rest rest).eq (f := ModeSt.failCount) rfl

theorem Keep.slot (h : Keep K s t) (rest : K.testBit 40 = true) (i : Fin 3) : t.slot i = s.slot i := by
  have zero : t.mode.slot0 = s.mode.slot0 := (h.mode_rest rest).eq (f := ModeSt.slot0) rfl
  have one : t.mode.slot1 = s.mode.slot1 := (h.mode_rest rest).eq (f := ModeSt.slot1) rfl
  have golden : t.mode.golden = s.mode.golden := (h.mode_rest rest).eq (f := ModeSt.golden) rfl
  unfold State.slot
  rw [zero, one, golden]

/-! ### The steps' ends in common -/

/-- A step's end in a start is taken by that step. -/
theorem startStepDone_runs (arrived : u = s.arrive ut) (begun : u.theStart = some x) :
    exec (.startStepDone r ut) s = .next ((u.stepLine x.step r.ok).stepDone x r) := by
  subst arrived
  have run : exec (.startStepDone r ut) s = .next (match (s.arrive ut).theStart with
    | some x => ((s.arrive ut).stepLine x.step r.ok).stepDone x r
    | none => s.arrive ut) := rfl
  rw [run, begun]

theorem State.toStep_start : (s.toStep x k).mode.start = some { x with step := k } := by
  unfold State.toStep
  dsimp only
  split
  · rw [State.warmGreet_keep.start (by decide)]
    rfl
  · rfl

theorem State.toStep_verified : (s.toStep x k).mode.verified = s.mode.verified := by
  unfold State.toStep
  dsimp only
  split
  · exact (State.warmGreet_keep.mode_rest (by decide)).eq (f := ModeSt.verified) rfl
  · rfl

theorem State.theStart_isStart (begun : s.theStart = some x) : s.mode.mode.isStart = true := by
  unfold State.theStart at begun
  split at begun
  · assumption
  · exact absurd begun (by simp)

/-! ### A start that fails (R323) -/

/-- A slot whose signature fails is no longer valid. -/
def State.slotLost (s : State) (x : StartSt) (signature : Bool) : State :=
  if signature && decide (x.image.val < 2) then s.markSlot (toFin 1 x.image.val) { s.slot x.image with valid := false } else s

/-- A failed start is counted and noted. -/
def State.startFailed (s : State) : State := (s.setMode { s.mode with failCount := s.mode.failCount + 1 }).logLine (ascii "start failed")

theorem State.startFails_eq {b : Bool} : s.startFails x b =
    if x.image = 2 then (s.slotLost x b).startFailed.safeStop 1
    else if 3 ≤ (s.slotLost x b).mode.failCount + 1 then
      ((s.slotLost x b).startFailed.setMode { (s.slotLost x b).startFailed.mode with goldenHeld := true }).coldBegin 2
    else (s.slotLost x b).startFailed.coldBegin (s.slotLost x b).startFailed.startImage := rfl

theorem State.slotLost_golden {b : Bool} (golden : x.image = 2) : s.slotLost x b = s := by
  refine if_neg ?_
  rw [golden]
  simp

theorem State.slotLost_keep {b : Bool} : Keep (2 ^ 39 + 2 ^ 41) s (s.slotLost x b) := by
  unfold State.slotLost
  exact Keep.ite (State.markSlot_keep.weaken (by decide)) Keep.rfl'

theorem State.slotLost_failCount {b : Bool} : (s.slotLost x b).mode.failCount = s.mode.failCount := by
  unfold State.slotLost State.markSlot State.storeUpdate State.setSlot
  split
  · split <;> rfl
  · rfl

theorem State.slotLost_invalid (slot : x.image ≠ 2) : ((s.slotLost x true).slot x.image).valid = false := by
  unfold State.slotLost
  generalize x.image = i at slot
  match i with
  | 0 => rfl
  | 1 => rfl
  | 2 => exact absurd rfl slot

theorem State.startFailed_mode : s.startFailed.mode = { s.mode with failCount := s.mode.failCount + 1 } :=
  State.logLine_mode _ _

theorem State.coldBegin_mode {i : Fin 3} : (s.coldBegin i).mode.failCount = s.mode.failCount ∧
    (s.coldBegin i).mode.goldenHeld = s.mode.goldenHeld ∧ (∀ j, (s.coldBegin i).slot j = s.slot j) ∧
    ∃ y, (s.coldBegin i).mode.start = some y ∧ y.image = i ∧ y.step = 0 := by
  unfold State.slot
  rw [State.coldBegin, State.logLine_mode, State.setModeChange_mode]
  exact ⟨rfl, rfl, fun _ => rfl, _, rfl, rfl, rfl⟩

theorem State.startFails_golden {b : Bool} (golden : x.image = 2) (start : s.mode.mode.isStart = true) :
    (s.startFails x b).mode.mode = .safeStop ∧ (s.startFails x b).mode.stopCause = 1 := by
  rw [State.startFails_eq, if_pos golden, State.slotLost_golden golden]
  have mode : s.startFailed.mode.mode = s.mode.mode := by rw [State.startFailed_mode]
  obtain ⟨stop, -, cause, -⟩ := s.startFailed.safeStop_leaves (n := 1)
    (by rw [mode]; intro h; rw [h] at start; exact Bool.false_ne_true start)
    (by rw [mode]; intro h; rw [h] at start; exact Bool.false_ne_true start)
  exact ⟨stop, cause⟩

theorem State.startFails_slot {b : Bool} (slot : x.image ≠ 2) : (s.startFails x b).mode.mode = .coldStart ∧
    (s.startFails x b).mode.failCount = s.mode.failCount + 1 ∧
    (s.startFails x b).slot x.image = (s.slotLost x b).slot x.image := by
  rw [State.startFails_eq, if_neg slot]
  have counted : (s.slotLost x b).startFailed.mode.failCount = s.mode.failCount + 1 := by
    rw [State.startFailed_mode, ← State.slotLost_failCount (s := s) (x := x) (b := b)]
  have slots : (s.slotLost x b).startFailed.slot x.image = (s.slotLost x b).slot x.image := by
    unfold State.slot
    rw [State.startFailed_mode]
  split
  · obtain ⟨mode, -⟩ := ((s.slotLost x b).startFailed.setMode
      { (s.slotLost x b).startFailed.mode with goldenHeld := true }).coldBegin_leaves (image := 2)
    obtain ⟨count, -, kept, -⟩ := ((s.slotLost x b).startFailed.setMode
      { (s.slotLost x b).startFailed.mode with goldenHeld := true }).coldBegin_mode (i := 2)
    exact ⟨mode, count.trans counted, (kept _).trans slots⟩
  · obtain ⟨mode, -⟩ := (s.slotLost x b).startFailed.coldBegin_leaves (image := (s.slotLost x b).startFailed.startImage)
    obtain ⟨count, -, kept, -⟩ := (s.slotLost x b).startFailed.coldBegin_mode (i := (s.slotLost x b).startFailed.startImage)
    exact ⟨mode, count.trans counted, (kept _).trans slots⟩

theorem State.startFails_third {b : Bool} (slot : x.image ≠ 2) (third : 2 ≤ s.mode.failCount) :
    (s.startFails x b).mode.goldenHeld = true ∧ ∃ y, (s.startFails x b).mode.start = some y ∧ y.image = 2 ∧ y.step = 0 := by
  rw [State.startFails_eq, if_neg slot, State.slotLost_failCount, if_pos (by omega)]
  obtain ⟨-, golden, -, start⟩ := ((s.slotLost x b).startFailed.setMode
    { (s.slotLost x b).startFailed.mode with goldenHeld := true }).coldBegin_mode (i := 2)
  exact ⟨golden, start⟩

/-! ### Steps 0 and 1: the image -/

theorem yields_step0 (arrived : u = s.arrive ut) (begun : u.theStart = some x) (step : x.step = 0) (ok : r.ok = true) :
    Yields (.startStepDone r ut) s fun t =>
      t.mode.start = some { x with step := if x.cold = false ∧ x.image = u.mode.verified then 4 else 1 } := by
  refine ⟨_, startStepDone_runs arrived begun, ?_⟩
  have verified : (u.stepLine x.step r.ok).mode.verified = u.mode.verified :=
    (State.stepLine_keep.mode_rest (by decide)).eq (f := ModeSt.verified) rfl
  generalize u.stepLine x.step r.ok = l at verified
  have goes : l.stepDone x r = l.toStep x (if !x.cold && x.image == l.mode.verified then 4 else 1) := by
    rw [State.stepDone, step]
    exact if_pos ok
  rw [goes]
  dsimp only
  rw [State.toStep_start, verified]
  simp

theorem yields_step1 (arrived : u = s.arrive ut) (begun : u.theStart = some x) (step : x.step = 1) (ok : r.ok = true) :
    Yields (.startStepDone r ut) s fun t => t.mode.verified = x.image ∧
      t.mode.start = some { x with step := if x.cold then 2 else 4 } := by
  refine ⟨_, startStepDone_runs arrived begun, ?_⟩
  generalize u.stepLine x.step r.ok = l
  have goes : l.stepDone x r = (l.setMode { l.mode with verified := x.image }).toStep x (if x.cold then 2 else 4) := by
    rw [State.stepDone, step]
    exact if_pos ok
  rw [goes]
  exact ⟨State.toStep_verified, State.toStep_start⟩

theorem yields_step1_fails (arrived : u = s.arrive ut) (begun : u.theStart = some x) (step : x.step = 1) (bad : r.ok = false) :
    (x.image = 2 → Yields (.startStepDone r ut) s fun t => t.mode.mode = .safeStop ∧ t.mode.stopCause = 1) ∧
    (x.image ≠ 2 → Yields (.startStepDone r ut) s fun t =>
      t.mode.mode = .coldStart ∧ t.mode.failCount = u.mode.failCount + 1 ∧ (t.slot x.image).valid = false) ∧
    (x.image ≠ 2 → 2 ≤ u.mode.failCount → Yields (.startStepDone r ut) s fun t =>
      t.mode.mode = .coldStart ∧ t.mode.goldenHeld = true ∧ ∃ y, t.mode.start = some y ∧ y.image = 2 ∧ y.step = 0) := by
  have run := startStepDone_runs (r := r) arrived begun
  have mode : (u.stepLine x.step r.ok).mode.mode = u.mode.mode := State.stepLine_keep.mode0 (by decide)
  have count : (u.stepLine x.step r.ok).mode.failCount = u.mode.failCount := State.stepLine_keep.failCount (by decide)
  generalize u.stepLine x.step r.ok = l at run mode count
  have fails : l.stepDone x r = l.startFails x true := by
    rw [State.stepDone, step]
    exact if_neg (by rw [bad]; exact Bool.false_ne_true)
  rw [fails] at run
  refine ⟨fun golden => ⟨_, run, ?_⟩, fun slot => ⟨_, run, ?_⟩, fun slot third => ⟨_, run, ?_⟩⟩
  · exact State.startFails_golden golden (by rw [mode]; exact State.theStart_isStart begun)
  · obtain ⟨cold, counted, same⟩ := l.startFails_slot (b := true) slot
    rw [counted, count, same]
    exact ⟨cold, rfl, State.slotLost_invalid slot⟩
  · exact ⟨(l.startFails_slot slot).1, l.startFails_third slot (by rw [count]; exact third)⟩

theorem yields_startWatchdog (arrived : u = s.arrive ut) (begun : u.theStart = some x) (late : x.t0 + 30000 * ms ≤ u.now) :
    Yields (.startWatchdog ut) s fun t =>
      if x.image = 2 then t.mode.mode = .safeStop ∧ t.mode.stopCause = 1
      else t.mode.mode = .coldStart ∧ t.mode.failCount = u.mode.failCount + 1 := by
  subst arrived
  have run : exec (.startWatchdog ut) s = .next (match (s.arrive ut).theStart with
    | some x => if x.t0 + 30000 * ms ≤ (s.arrive ut).now then (s.arrive ut).startFails x false else s.arrive ut
    | none => s.arrive ut) := rfl
  rw [begun] at run
  refine ⟨_, run, ?_⟩
  dsimp only
  rw [if_pos late]
  split
  next golden => exact State.startFails_golden golden (State.theStart_isStart begun)
  next slot =>
    obtain ⟨cold, counted, -⟩ := (s.arrive ut).startFails_slot (b := false) slot
    exact ⟨cold, counted⟩

end starts
end Sys2Proof.Machine

/-! PROOFS. Starts: memory, the referee, the lanes, the PHYs and the completion (12 R320 to R326). -/

namespace Sys2Proof.Machine

section starts
variable {s t u : State} {x : StartSt} {r : StepResult} {ut q : Nat} {y : Seat} {c : CoreId} {l : BitVec 16} {ok bad : Bool}

/-! ### Steps 2 and 3: memory -/

/-- A core whose memory fails is fenced, unless it is already. -/
def State.fenceBad (s : State) (c : CoreId) (bad : Bool) : State := if bad && !(s.coreSt c).fenced then s.fenceCore c 4 else s

theorem State.memoryStep_eq : s.memoryStep x r =
    let z := (s.fenceBad .a r.fenceA).fenceBad .b r.fenceB
    if z.serves .a ∨ z.serves .b then z.toStep x (x.step + 1) else z.startFails x false := rfl

theorem State.fenceCore_reason {n : Nat} : (s.fenceCore c n).mode.reasons.getLsbD 6 = true := State.reasonOn_sets.1

theorem State.serves_iff : s.serves c = true ↔ (s.coreSt c).fenced = false ∧ (s.coreSt c).failed = false := by
  simp [State.serves]

theorem State.fenceBad_leaves (serving : s.serves c = true) : ((s.fenceBad c bad).coreSt c).fenced = bad ∧
    (∀ z, z ≠ c → (s.fenceBad c bad).coreSt z = s.coreSt z) ∧
    (bad = true → ((s.fenceBad c bad).coreSt c).fenceCause = 4 ∧ (s.fenceBad c bad).mode.reasons.getLsbD 6 = true) := by
  obtain ⟨up, -⟩ := State.serves_iff.mp serving
  unfold State.fenceBad
  rw [up]
  cases bad with
  | false => exact ⟨up, fun _ _ => rfl, nofun⟩
  | true =>
    obtain ⟨fenced, cause, others, -⟩ := s.fenceCore_leaves (x := c) (n := 4)
    exact ⟨fenced, others, fun _ => ⟨cause, State.fenceCore_reason⟩⟩

theorem yields_memoryStep (arrived : u = s.arrive ut) (begun : u.theStart = some x) (step : x.step = 2 ∨ x.step = 3)
    (a : u.serves .a = true) (b : u.serves .b = true) (whole : r.fenceB = false) : Yields (.startStepDone r ut) s fun t =>
      t.mode.start = some { x with step := x.step + 1 } ∧ (t.coreSt .a).fenced = r.fenceA ∧
      (r.fenceA = true → (t.coreSt .a).fenceCause = 4 ∧ t.mode.reasons.getLsbD 6 = true) := by
  refine ⟨_, startStepDone_runs arrived begun, ?_⟩
  have cores : ∀ c, (u.stepLine x.step r.ok).coreSt c = u.coreSt c := fun c => State.stepLine_keep.coreSt (by decide) c
  generalize u.stepLine x.step r.ok = l at cores
  have goes : l.stepDone x r = l.memoryStep x r := by
    obtain two | three := step
    · rw [State.stepDone, two]
      rfl
    · rw [State.stepDone, three]
      rfl
  rw [goes, State.memoryStep_eq, whole]
  have serving (c) (h : u.serves c = true) : l.serves c = true := by
    rw [State.serves, cores]
    exact h
  obtain ⟨fenced, others, noted⟩ := State.fenceBad_leaves (bad := r.fenceA) (serving .a a)
  have same : (l.fenceBad .a r.fenceA).fenceBad .b false = l.fenceBad .a r.fenceA := rfl
  rw [same]
  generalize l.fenceBad .a r.fenceA = z at fenced others noted
  have stands : z.serves .b = true := by
    rw [State.serves, others .b CoreId.noConfusion]
    exact serving .b b
  dsimp only
  rw [if_pos (.inr stands)]
  refine ⟨State.toStep_start, ?_, fun bad => ?_⟩
  · rw [State.toStep_keep.coreSt (by decide)]
    exact fenced
  · obtain ⟨cause, reason⟩ := noted bad
    rw [State.toStep_keep.coreSt (by decide), (State.toStep_keep.reasons_eq (by decide)).1]
    exact ⟨cause, reason⟩

/-! ### Step 4: the referee -/

/-- The seats of a fenced core go to its twin. -/
def State.fencedSeats (s : State) (c : CoreId) : State :=
  if (s.coreSt c).fenced then allSeats.foldl (fun s y => if s.servingCore y = c then s.seatTo y c.twin else s) s else s

theorem State.refereeStep_eq : s.refereeStep x ok =
    let z := s.setFlt { s.flt with
      refereeLost := !ok, token := if x.cold then (if (s.coreSt .a).fenced then .b else .a) else s.flt.token }
    let z := if ok then z.reasonOff 3 else z.reasonOn 3
    (if ok && x.cold then bothCores.foldl State.fencedSeats z else z).toStep x 5 := rfl

/-- The referee, the token and the lanes are the same. -/
def SameReferee (s t : State) : Prop := t.flt.refereeLost = s.flt.refereeLost ∧ t.flt.token = s.flt.token ∧ t.flt.lanes = s.flt.lanes

theorem SameReferee.trans (h : SameReferee s t) (g : SameReferee t u) : SameReferee s u :=
  ⟨g.1.trans h.1, g.2.1.trans h.2.1, g.2.2.trans h.2.2⟩

theorem Keep.sameReferee {K : Nat} (h : Keep K s t) (kept : K.testBit 42 = true) : SameReferee s t :=
  ⟨h.refereeLost kept, h.token kept, h.lanes kept⟩

theorem sameReferee_foldl {α : Type} {g : State → α → State} (step : ∀ s a, SameReferee s (g s a)) (l : List α) :
    ∀ s, SameReferee s (l.foldl g s) := by
  induction l with
  | nil => exact fun s => ⟨rfl, rfl, rfl⟩
  | cons a l ih => exact fun s => (step s a).trans (ih _)

theorem sameReferee_seatTo : SameReferee s (s.seatTo y c) :=
  SameReferee.trans (t := s.setServing y c) ⟨rfl, rfl, rfl⟩ (State.seatTo_keep42.sameReferee (by decide))

theorem sameReferee_movedSeats {d : CoreId} (l : List Seat) :
    SameReferee s (l.foldl (fun s y => if s.servingCore y = c then s.seatTo y d else s) s) := by
  refine sameReferee_foldl (fun s y => ?_) l s
  split
  · exact sameReferee_seatTo
  · exact ⟨rfl, rfl, rfl⟩

theorem sameReferee_fencedSeats : SameReferee s (s.fencedSeats c) := by
  unfold State.fencedSeats
  split
  · exact sameReferee_movedSeats _
  · exact ⟨rfl, rfl, rfl⟩

theorem yields_refereeStep (arrived : u = s.arrive ut) (begun : u.theStart = some x) (step : x.step = 4) :
    Yields (.startStepDone r ut) s fun t => t.mode.start = some { x with step := 5 } ∧ t.flt.refereeLost = !r.ok ∧
      (x.cold = true → t.flt.token = if (u.coreSt .a).fenced = true then .b else .a) := by
  refine ⟨_, startStepDone_runs arrived begun, ?_⟩
  have cores : ∀ c, (u.stepLine x.step r.ok).coreSt c = u.coreSt c := fun c => State.stepLine_keep.coreSt (by decide) c
  rw [← cores]
  generalize u.stepLine x.step r.ok = l
  have goes : l.stepDone x r = l.refereeStep x r.ok := by
    rw [State.stepDone, step]
    rfl
  rw [goes, State.refereeStep_eq]
  generalize hz : l.setFlt { l.flt with
      refereeLost := !r.ok, token := if x.cold then (if (l.coreSt .a).fenced then .b else .a) else l.flt.token } = z
  have noted : SameReferee z (if r.ok then z.reasonOff 3 else z.reasonOn 3) := by
    split
    · exact State.reasonOff_keep.sameReferee (by decide)
    · exact State.reasonOn_keep.sameReferee (by decide)
  dsimp only
  generalize (if r.ok then z.reasonOff 3 else z.reasonOn 3) = w at noted
  have moved : SameReferee w (if r.ok && x.cold then bothCores.foldl State.fencedSeats w else w) := by
    split
    · exact sameReferee_foldl (fun _ _ => sameReferee_fencedSeats) _ _
    · exact ⟨rfl, rfl, rfl⟩
  obtain ⟨lost, token, -⟩ := (noted.trans moved).trans (State.toStep_keep (x := x) (k := 5).sameReferee (by decide))
  refine ⟨State.toStep_start, lost.trans (by rw [← hz]; rfl), fun cold => token.trans ?_⟩
  rw [← hz]
  exact if_pos cold

/-! ### Step 5: the lanes of the causeway -/

theorem State.setLanes_lanes : (s.setLanes l).flt.lanes = l := by
  unfold State.setLanes
  extract_lets src z both w
  have kept : Keep (2 ^ 42) (s.setFlt { s.flt with lanes := l }) (if l == 0 && both then w.reasonOn 9 else w.reasonOff 9) := by
    have set : Keep (2 ^ 42) (s.setFlt { s.flt with lanes := l }) w := Keep.ite
      (Keep.step State.reasonOn_keep (by decide) (State.settleCauseway_keep.weaken (by decide)))
      (Keep.step State.reasonOff_keep (by decide) (State.settleCauseway_keep.weaken (by decide)))
    exact Keep.ite (Keep.step State.reasonOn_keep (by decide) set) (Keep.step State.reasonOff_keep (by decide) set)
  exact (kept.lanes (by decide)).trans rfl

theorem sameReferee_fenceCore {n : Nat} : SameReferee s (s.fenceCore c n) := by
  have kept (z : State) : Keep (2 ^ 42) z (z.reasonOn 6) := State.reasonOn_keep.weaken (by decide)
  unfold State.fenceCore
  dsimp only
  refine SameReferee.trans ?_ ((kept _).sameReferee (by decide))
  cases c <;> exact ⟨rfl, rfl, rfl⟩

theorem sameReferee_fenceForCauseway : SameReferee s s.fenceForCauseway := by
  unfold State.fenceForCauseway
  dsimp only
  refine SameReferee.trans ?_ (State.settleCauseway_keep.sameReferee (by decide))
  exact (sameReferee_fenceCore.trans (State.errLog_keep.sameReferee (by decide))).trans (sameReferee_movedSeats _)

theorem yields_lanesStep (arrived : u = s.arrive ut) (begun : u.theStart = some x) (step : x.step = 5) :
    Yields (.startStepDone r ut) s fun t => t.mode.start = some { x with step := if x.cold then 6 else 8 } ∧
      t.flt.lanes = r.lanes := by
  refine ⟨_, startStepDone_runs arrived begun, ?_⟩
  generalize u.stepLine x.step r.ok = l
  have goes : l.stepDone x r = l.lanesStep x r.lanes := by
    rw [State.stepDone, step]
    rfl
  rw [goes]
  refine ⟨State.toStep_start, ?_⟩
  unfold State.lanesStep
  have lanes := l.setLanes_lanes (l := r.lanes)
  generalize l.setLanes r.lanes = z at lanes
  extract_lets z' w v
  have drifted : SameReferee z w := by
    unfold w z'
    split
    · exact State.driftApart_keep.sameReferee (by decide)
    · exact ⟨rfl, rfl, rfl⟩
  have fenced : SameReferee w v := by
    unfold v
    split
    · exact sameReferee_fenceForCauseway
    · exact ⟨rfl, rfl, rfl⟩
  exact ((drifted.trans fenced).trans (State.toStep_keep.sameReferee (by decide))).2.2.trans lanes

/-! ### Step 6: the quad PHYs -/

/-- A PHY's loss takes one of its ports. -/
def State.phyPort (s : State) (x : Seat) : State := (s.linkDone x (s.goDown x 1 false)).powerCut x .off

theorem State.phyLost_eq : s.phyLost q = (allSeats.filter fun x => x.val / 4 == q).foldl State.phyPort (s.reasonOn 4) := rfl

theorem State.phyPort_off : ((s.phyPort y).seatPower y).st = .off := congrArg SeatPower.st State.seatPower_putPower

theorem State.phyPort_ne {z : Seat} (other : z ≠ y) : (s.phyPort y).seatPower z = s.seatPower z := by
  refine (State.seatPower_putPower_ne other).trans ?_
  rw [State.linkDone_keep.seatPower (by decide), State.goDown_keep.seatPower (by decide)]

theorem State.phyPort_stays {z : Seat} (off : (s.seatPower z).st = .off) : ((s.phyPort y).seatPower z).st = .off := by
  by_cases same : z = y
  · subst same
    exact State.phyPort_off
  · rw [State.phyPort_ne same]
    exact off

theorem State.phyLost_off (own : y.val / 4 = q) : ((s.phyLost q).seatPower y).st = .off := by
  rw [State.phyLost_eq]
  exact foldl_forall (P := fun y s => (s.seatPower y).st = .off) (fun _ _ => State.phyPort_off)
    (fun _ _ _ off => State.phyPort_stays off) _ _ y (List.mem_filter.mpr ⟨List.mem_finRange y, beq_iff_eq.mpr own⟩)

theorem State.phyLost_stays (off : (s.seatPower y).st = .off) : ((s.phyLost q).seatPower y).st = .off := by
  have still (l : List Seat) : ∀ z : State, (z.seatPower y).st = .off → ((l.foldl State.phyPort z).seatPower y).st = .off := by
    induction l with
    | nil => exact fun z h => h
    | cons x l ih => exact fun z h => ih _ (State.phyPort_stays h)
  rw [State.phyLost_eq]
  refine still _ _ ?_
  rw [State.reasonOn_keep.seatPower (by decide)]
  exact off

theorem phyFold_off {fail : BitVec 16} (y : Seat) (bad : fail.getLsbD (y.val / 4) = true) :
    (((List.range 16).foldl (fun s q => if fail.getLsbD q then s.phyLost q else s) s).seatPower y).st = .off := by
  refine foldl_forall (P := fun q s => fail.getLsbD q = true → q = y.val / 4 → (s.seatPower y).st = .off)
    (fun s q lost own => ?_) (fun s a b held lost own => ?_) (List.range 16) s (y.val / 4)
    (List.mem_range.mpr (by omega)) bad rfl
  · rw [if_pos lost]
    exact State.phyLost_off own.symm
  · split
    · exact State.phyLost_stays (held lost own)
    · exact held lost own

theorem yields_phyStep (arrived : u = s.arrive ut) (begun : u.theStart = some x) (step : x.step = 6) :
    Yields (.startStepDone r ut) s fun t => t.mode.start = some { x with step := 7 } ∧
      ∀ y : Seat, r.phyFail.getLsbD (y.val / 4) = true → (t.seatPower y).st = .off := by
  refine ⟨_, startStepDone_runs arrived begun, ?_⟩
  generalize u.stepLine x.step r.ok = l
  have goes : l.stepDone x r = ((List.range 16).foldl (fun s q => if r.phyFail.getLsbD q then s.phyLost q else s) l).toStep x 7 := by
    rw [State.stepDone, step]
    rfl
  rw [goes]
  refine ⟨State.toStep_start, fun y bad => ?_⟩
  rw [State.toStep_keep.seatPower (by decide)]
  exact phyFold_off y bad

/-! ### Steps 7 to 9 -/

theorem yields_nextStep {k : Nat} (arrived : u = s.arrive ut) (begun : u.theStart = some x) (step : x.step = k)
    (plain : k = 7 ∨ k = 8) : Yields (.startStepDone r ut) s fun t => t.mode.start = some { x with step := k + 1 } := by
  refine ⟨_, startStepDone_runs arrived begun, ?_⟩
  generalize u.stepLine x.step r.ok = l
  have goes : l.stepDone x r = l.toStep x (k + 1) := by
    obtain rfl | rfl := plain
    · rw [State.stepDone, step]
      rfl
    · rw [State.stepDone, step]
      rfl
  rw [goes]
  exact State.toStep_start

/-- What a completed start records before the unit enters its mode. -/
def State.startRecorded (s : State) (x : StartSt) : State :=
  let s := s.setMode { s.mode with start := none, failedShown := min 3 s.mode.failCount, failCount := 0, lastInput := s.now }
  let s := s.setSvc { s.svc with measCode := 0, selected := 0 }
  let run (c : CoreId) (old : Fin 3) : Fin 3 := if s.serves c then x.image else old
  s.setMode { s.mode with runningA := run .a s.mode.runningA, runningB := run .b s.mode.runningB, onGolden := x.image == 2 }

theorem State.startComplete_eq : s.startComplete x =
    (if x.recordService && !(s.startRecorded x).anyIslet then (s.startRecorded x).enterMode .service
      else (s.startRecorded x).enterMode (s.startRecorded x).resting).settleAll := rfl

theorem State.enterMode_counts {m : Mode} : (s.enterMode m).mode.start = s.mode.start ∧ (s.enterMode m).mode.failCount = s.mode.failCount := by
  by_cases same : m = s.mode.mode
  · rw [State.enterMode, if_pos same]
    exact ⟨rfl, rfl⟩
  · exact ⟨(State.enterMode_eq same).start (by decide), (State.enterMode_eq same).failCount (by decide)⟩

theorem State.startComplete_leaves : (s.startComplete x).mode.start = none ∧ (s.startComplete x).mode.failCount = 0 ∧
    (s.startComplete x).mode.mode = if x.recordService = true ∧ s.anyIslet = false then .service else s.resting := by
  have isl : (s.startRecorded x).anyIslet = s.anyIslet := rfl
  have rest : (s.startRecorded x).resting = s.resting := rfl
  have counts : (s.startRecorded x).mode.start = none ∧ (s.startRecorded x).mode.failCount = 0 := ⟨rfl, rfl⟩
  rw [State.startComplete_eq, isl, rest]
  generalize s.startRecorded x = z at counts
  have enters (m : Mode) : (z.enterMode m).settleAll.mode.start = none ∧ (z.enterMode m).settleAll.mode.failCount = 0 ∧
      (z.enterMode m).settleAll.mode.mode = m := by
    rw [State.settleAll_keep.start (by decide), State.settleAll_keep.failCount (by decide), State.enterMode_counts.1, State.enterMode_counts.2]
    exact ⟨counts.1, counts.2, (State.settleAll_keep.mode0 (by decide)).trans (State.enterMode_mode _ _)⟩
  by_cases service : x.recordService = true ∧ s.anyIslet = false
  · rw [if_pos (by simp [service]), if_pos service]
    exact enters _
  · rw [if_neg (by simpa using service), if_neg service]
    exact enters _

theorem yields_lastStep (arrived : u = s.arrive ut) (begun : u.theStart = some x) (step : x.step = 9) :
    Yields (.startStepDone r ut) s fun t => t.mode.start = none ∧ t.mode.failCount = 0 ∧
      t.mode.mode = if x.recordService = true ∧ u.anyIslet = false then .service else u.resting := by
  refine ⟨_, startStepDone_runs arrived begun, ?_⟩
  have isl : (u.stepLine x.step r.ok).anyIslet = u.anyIslet := by
    unfold State.anyIslet
    simp only [State.stepLine_keep.islet (by decide : Nat.testBit _ 5 = true)]
  have rest : (u.stepLine x.step r.ok).resting = u.resting :=
    State.stepLine_keep.resting (by decide) (by decide) (by decide) (by decide) (by decide)
  rw [← isl, ← rest]
  generalize u.stepLine x.step r.ok = l
  have goes : l.stepDone x r = l.startComplete x := by
    rw [State.stepDone, step]
    rfl
  rw [goes]
  exact State.startComplete_leaves

end starts

/-- Settles O39. -/
theorem starts : Obligations.Starts := by
  unfold Obligations.Starts
  refine ⟨fun r x ut s u arrived begun => ⟨fun step ok => yields_step0 arrived begun step ok,
    fun step ok => yields_step1 arrived begun step ok,
    fun step bad golden => (yields_step1_fails arrived begun step bad).1 golden,
    fun step bad slot _ => (yields_step1_fails arrived begun step bad).2.1 slot,
    fun step bad slot third => (yields_step1_fails arrived begun step bad).2.2 slot third,
    fun step a b whole => yields_memoryStep arrived begun step a b whole,
    fun step => yields_refereeStep arrived begun step, fun step => yields_lanesStep arrived begun step,
    fun step => yields_phyStep arrived begun step, fun step => yields_nextStep arrived begun step (.inl rfl),
    fun step => yields_nextStep arrived begun step (.inr rfl), fun step => yields_lastStep arrived begun step⟩,
    fun x ut s u arrived begun late => yields_startWatchdog arrived begun late⟩

end Sys2Proof.Machine

/-! PROOFS. The virtual root hub and a dock's profile (06 R150, R151, R173). -/

namespace Sys2Proof.Machine

section rootHub
variable {s t : State} {f : FnId} {i : IsletNo} {x : Seat} {p : RootPort} {b : List Byte} {o : Nat} {k : Option PortCmd}

/-! ### A command is submitted -/

theorem State.submitPort_leaves (presents : s.presents f i x = true) :
    (s.submitPort f i x p k).usbSeat x = { s.usbSeat x with hubOps := (s.usbSeat x).hubOps ++ [.cmd i p k] } := by
  rw [State.submitPort, if_pos presents]
  exact State.usbSeat_setUsbSeat _ _ _

theorem yields_rootPortChangeClear {m : BitVec 7} (presents : s.presents f i x = true) :
    Yields (.rootPortChangeClear f i x p m) s fun t =>
      t.rootPort x p = { s.rootPort x p with changes := (s.rootPort x p).changes &&& ~~~m } := by
  refine ⟨_, congrArg Host.Outcome.next (if_pos presents), ?_⟩
  exact State.rootPort_setRootPort _ _ _ _

/-! ### The root hub's operation -/

theorem State.hubOperation_one {op : HubOp} (free : s.flowHeld (s.servingCore x) (BitVec.ofNat 24 x.val) = false)
    (one : (s.usbSeat x).hubOps = [op]) : s.hubOperation x = (s.setUsbSeat x { s.usbSeat x with hubOps := [] }).hubStep x op := by
  unfold State.hubOperation
  rw [if_neg (by rw [free]; exact Bool.false_ne_true)]
  dsimp only
  rw [one]
  rfl

theorem State.setRootPort_usbSeat {v : RootPortSt} : (s.setRootPort x p v).usbSeat x = s.usbSeat x := rfl

theorem State.portChange_leaves {m : BitVec 7} : (s.portChange x p m).usbSeat x = s.usbSeat x ∧
    (s.portChange x p m).rootPort x p = { s.rootPort x p with changes := (s.rootPort x p).changes ||| m } := by
  unfold State.portChange
  dsimp only
  split
  · rw [State.changeRecord_keep.usbSeat (by decide), State.changeRecord_keep.rootPort (by decide)]
    exact ⟨rfl, State.rootPort_setRootPort _ _ _ _⟩
  · exact ⟨rfl, State.rootPort_setRootPort _ _ _ _⟩

/-- A refused command changes only its port's result and `REJECTED`. -/
theorem State.refusePort_leaves {n : Byte} : (s.refusePort x p n).usbSeat x = s.usbSeat x ∧
    (s.refusePort x p n).rootPort x p = { s.rootPort x p with last := n, changes := (s.rootPort x p).changes ||| chRejected } := by
  obtain ⟨seat, port⟩ := (s.setRootPort x p { s.rootPort x p with last := n }).portChange_leaves (x := x) (p := p) (m := chRejected)
  rw [State.rootPort_setRootPort] at port
  exact ⟨seat, port⟩

theorem State.placePort_usbSeat {n : Byte} {c : Option Nat} : (s.placePort x p n c).usbSeat x =
    { s.usbSeat x with portRecs := (s.usbSeat x).portRecs ++ [{ port := p, op := n, cmd := c }] } := State.usbSeat_setUsbSeat _ _ _

theorem State.acceptPort_leaves {c : PortCmd} {st : PortState} {n : Byte} : (s.acceptPort x p c st (some n)).usbSeat x =
      { s.usbSeat x with portRecs := (s.usbSeat x).portRecs ++ [{ port := p, op := n, cmd := some ((s.rootPort x p).cmdNo + 1) }] } ∧
    (s.acceptPort x p c st (some n)).rootPort x p = { s.rootPort x p with
      busy := some c, former := false, before := (s.rootPort x p).st, st := st, cmdNo := (s.rootPort x p).cmdNo + 1,
      byCommand := if c = .resume then true else (s.rootPort x p).byCommand } :=
  ⟨State.placePort_usbSeat, State.rootPort_setRootPort _ _ _ _⟩

theorem State.owner_setUsbSeat {v : UsbSeat} : (s.setUsbSeat x v).owner x = s.owner x := rfl

theorem State.rootPort_setUsbSeat {v : UsbSeat} : (s.setUsbSeat x v).rootPort x p = s.rootPort x p := rfl

theorem State.hubStep_cmd {c : PortCmd} (own : s.owner x = i) : s.hubStep x (.cmd i p (some c)) = s.portCommand x p c := if_pos own

theorem State.hubStep_bad (own : s.owner x = i) : s.hubStep x (.cmd i p none) = s.refusePort x p 0x07 := if_pos own

theorem State.portCommand_suspend (idle : (s.rootPort x p).busy = none) (on : (s.rootPort x p).st = .enabled) :
    s.portCommand x p .suspend = s.acceptPort x p .suspend .enabled (some 2) := by
  simp only [State.portCommand, idle, on]
  rfl

theorem State.portCommand_reset (idle : (s.rootPort x p).busy = none) (off : (s.rootPort x p).st = .disconnected) :
    s.portCommand x p .reset = s.refusePort x p 0x04 := by
  simp only [State.portCommand, idle, off]
  rfl

theorem yields_rootHub (free : s.flowHeld (s.servingCore x) (BitVec.ofNat 24 x.val) = false) (own : s.owner x = i)
    (idle : (s.rootPort x p).busy = none) :
    ((s.usbSeat x).hubOps = [.cmd i p none] → Yields (.rootHubOperation x) s fun t => (t.usbSeat x).hubOps = [] ∧
      (t.rootPort x p).last = 0x07 ∧ (t.rootPort x p).changes = (s.rootPort x p).changes ||| 0x40 ∧
      (t.rootPort x p).st = (s.rootPort x p).st ∧ (t.rootPort x p).busy = none) ∧
    ((s.usbSeat x).hubOps = [.cmd i p (some .suspend)] → (s.rootPort x p).st = .enabled → Yields (.rootHubOperation x) s fun t =>
      (t.usbSeat x).hubOps = [] ∧ (t.usbSeat x).portRecs = (s.usbSeat x).portRecs ++ [{ port := p, op := 2, cmd := some ((s.rootPort x p).cmdNo + 1) }] ∧
      t.rootPort x p = { s.rootPort x p with
        busy := some .suspend, former := false, before := .enabled, cmdNo := (s.rootPort x p).cmdNo + 1 }) ∧
    ((s.usbSeat x).hubOps = [.cmd i p (some .reset)] → (s.rootPort x p).st = .disconnected → Yields (.rootHubOperation x) s fun t =>
      (t.usbSeat x).hubOps = [] ∧ (t.usbSeat x).portRecs = (s.usbSeat x).portRecs ∧ (t.rootPort x p).last = 0x04 ∧
      (t.rootPort x p).changes = (s.rootPort x p).changes ||| 0x40 ∧ (t.rootPort x p).busy = none) := by
  have run {op : HubOp} (one : (s.usbSeat x).hubOps = [op]) : exec (.rootHubOperation x) s =
      .next ((s.setUsbSeat x { s.usbSeat x with hubOps := [] }).hubStep x op) :=
    congrArg Host.Outcome.next (State.hubOperation_one free one)
  have seat : (s.setUsbSeat x { s.usbSeat x with hubOps := [] }).usbSeat x = { s.usbSeat x with hubOps := [] } :=
    State.usbSeat_setUsbSeat _ _ _
  have port : (s.setUsbSeat x { s.usbSeat x with hubOps := [] }).rootPort x p = s.rootPort x p := rfl
  have mine : (s.setUsbSeat x { s.usbSeat x with hubOps := [] }).owner x = i := own
  generalize s.setUsbSeat x { s.usbSeat x with hubOps := [] } = z at run seat port mine
  refine ⟨fun one => ⟨_, run one, ?_⟩, fun one on => ⟨_, run one, ?_⟩, fun one off => ⟨_, run one, ?_⟩⟩
  · obtain ⟨refused, left⟩ := z.refusePort_leaves (x := x) (p := p) (n := 0x07)
    rw [State.hubStep_bad mine, refused, left, seat, port]
    exact ⟨rfl, rfl, rfl, rfl, idle⟩
  · obtain ⟨seats, ports⟩ := z.acceptPort_leaves (x := x) (p := p) (c := .suspend) (st := .enabled) (n := 2)
    rw [State.hubStep_cmd mine, State.portCommand_suspend (by rw [port]; exact idle) (by rw [port]; exact on)]
    rw [seats, ports, seat, port, on]
    exact ⟨rfl, rfl, by rw [← on]; rfl⟩
  · obtain ⟨refused, left⟩ := z.refusePort_leaves (x := x) (p := p) (n := 0x04)
    rw [State.hubStep_cmd mine, State.portCommand_reset (by rw [port]; exact idle) (by rw [port]; exact off), refused, left, seat, port]
    exact ⟨rfl, rfl, rfl, rfl, idle⟩

/-! ### A dock's profile (R150, R151) -/

/-- Two states hold the same profile of a seat. -/
def SameProfile (x : Seat) (s t : State) : Prop :=
  (t.usbSeat x).profile = (s.usbSeat x).profile ∧ (t.usbSeat x).profileSeen = (s.usbSeat x).profileSeen

theorem SameProfile.trans {u : State} (h : SameProfile x s t) (g : SameProfile x t u) : SameProfile x s u :=
  ⟨g.1.trans h.1, g.2.trans h.2⟩

theorem sameProfile_setRootPort {v : RootPortSt} : SameProfile x s (s.setRootPort x p v) := ⟨rfl, rfl⟩

theorem sameProfile_placePort {n : Byte} {c : Option Nat} : SameProfile x s (s.placePort x p n c) :=
  ⟨(congrArg UsbSeat.profile State.placePort_usbSeat :), (congrArg UsbSeat.profileSeen State.placePort_usbSeat :)⟩

theorem sameProfile_profileSuper : SameProfile x s (s.profileSuper x p) := by
  unfold State.profileSuper
  dsimp only
  split
  · exact sameProfile_setRootPort
  · split
    · exact sameProfile_setRootPort.trans sameProfile_placePort
    · split
      · exact sameProfile_setRootPort.trans sameProfile_placePort
      · exact ⟨rfl, rfl⟩

theorem sameProfile_profilePorts {g : Profile} : SameProfile x s (s.profilePorts x g) := by
  unfold State.profilePorts
  generalize allRootPorts = l
  induction l generalizing s with
  | nil => exact ⟨rfl, rfl⟩
  | cons p l ih =>
    rw [List.foldl_cons]
    refine SameProfile.trans ?_ ih
    dsimp only
    split
    · exact sameProfile_setRootPort
    · split
      · exact (sameProfile_setRootPort.trans sameProfile_placePort).trans sameProfile_profileSuper
      · exact sameProfile_setRootPort.trans sameProfile_profileSuper

theorem State.takeProfile_eq (up : (s.link_ x).st = .up) (new : (s.usbSeat x).profileSeen = false) : s.takeProfile x b =
    match profileBad b with
    | some o => (s.setUsbSeat x { s.usbSeat x with profileSeen := true, profile := none }).logLine
        (ascii "seat " ++ seatName x ++ ascii " profile refused at offset " ++ dec o)
    | none => (s.setUsbSeat x { s.usbSeat x with profileSeen := true, profile := some (profileOf b) }).profilePorts x (profileOf b) := by
  unfold State.takeProfile
  refine if_neg ?_
  rw [new]
  simp [up]

theorem yields_profile (up : (s.link_ x).st = .up) (new : (s.usbSeat x).profileSeen = false) (good : profileBad b = none) :
    Yields (.profile x b) s fun t => (t.usbSeat x).profile = some (profileOf b) ∧ (t.usbSeat x).profileSeen = true := by
  refine ⟨_, congrArg Host.Outcome.next (State.takeProfile_eq up new), ?_⟩
  rw [good]
  obtain ⟨profile, seen⟩ := sameProfile_profilePorts (x := x) (g := profileOf b)
    (s := s.setUsbSeat x { s.usbSeat x with profileSeen := true, profile := some (profileOf b) })
  rw [State.usbSeat_setUsbSeat] at profile seen
  exact ⟨profile, seen⟩

theorem yields_profile_bad (up : (s.link_ x).st = .up) (new : (s.usbSeat x).profileSeen = false) (bad : profileBad b = some o) :
    Yields (.profile x b) s fun t => (t.usbSeat x).profile = none ∧ (t.usbSeat x).profileSeen = true := by
  refine ⟨_, congrArg Host.Outcome.next (State.takeProfile_eq up new), ?_⟩
  rw [bad]
  dsimp only
  rw [State.logLine_keep.usbSeat (by decide), State.usbSeat_setUsbSeat]
  exact ⟨rfl, rfl⟩

end rootHub
end Sys2Proof.Machine

/-! PROOFS. A dock's results: events for the root hub, and the stall of a bulk transfer (06 R168, R169, R172, R410, R411). -/

namespace Sys2Proof.Machine

section results
variable {s t u z : State} {x : Seat} {h j k : Nat} {r : ResIn} {q b : List Byte} {e : EpSt} {v : XferSt}

/-! ### Endpoints, transfers, entries after a write -/

theorem State.ep_setEp : (s.setEp k e).ep j = if j = k then e else s.ep j := by
  have kept (z : State) (c : CoreId) (i : IsletNo) (m : List Byte) : (z.iswPut c i fun n => writeBytes n (0x40000 + 64 * (k % 4096)) m).ep j = z.ep j := by
    unfold State.iswPut
    dsimp only
    split <;> rfl
  unfold State.setEp
  dsimp only
  rw [kept]
  exact tget_tset _ _ _ _ _

theorem State.ep_setEp_same : (s.setEp k e).ep k = e := by rw [State.ep_setEp, if_pos rfl]

theorem State.xfer_setXfer : (s.setXfer h v).xfer j = if j = h then v else s.xfer j := tget_tset _ _ _ _ _

theorem State.xfer_setXfer_same : (s.setXfer h v).xfer h = v := by rw [State.xfer_setXfer, if_pos rfl]

theorem State.entry?_setEntry {w : EntrySt} : (s.setEntry h w).entry? j =
    if j = h then (if w = EntrySt.init then none else some w) else s.entry? j := by
  unfold State.entry?
  have same : tget (s.setEntry h w).wq.entries j EntrySt.init = if j = h then w else tget s.wq.entries j EntrySt.init := tget_tset _ _ _ _ _
  dsimp only
  rw [same]
  split <;> rfl

/-! ### An entry that has ended stays so until its record is made -/

theorem Finished.keep {K : Nat} (done : Finished s h) (kept : Keep K s t) (entries : K.testBit 8 = true) : Finished t h := by
  unfold Finished
  rw [kept.entry? entries]
  exact done

theorem Finished.setEntry {w : EntrySt} (done : Finished s h)
    (ended : j = h → w ≠ EntrySt.init → w.ended.isSome = true) : Finished (s.setEntry j w) h := by
  intro e found
  rw [State.entry?_setEntry] at found
  split at found
  next same =>
    split at found
    · exact absurd found (by simp)
    next listed =>
      cases found
      exact ended same.symm listed
  · exact done e found

theorem Finished.releaseFlow (n : Nat) {e : EntrySt} : ∀ {s : State}, Finished s h → Finished (State.releaseFlow n s e) h := by
  induction n with
  | zero => exact fun done => done
  | succ n ih =>
    intro s done
    rw [State.releaseFlow]
    split
    · split
      · refine ih (Finished.keep (done.setEntry (w := EntrySt.init) fun _ not => absurd rfl not) State.pushRecord_keep (by decide))
      · exact done
    · exact done

/-- An entry that is finished has ended, or its record is made. -/
theorem State.finishFrom_finished {a c d n : Nat} : Finished (s.finishFrom h a c d n) h := by
  unfold State.finishFrom
  split
  next none => exact fun e found => absurd (none.symm.trans found) (by simp)
  next e found =>
    split
    next ended =>
      intro e' found'
      cases found.symm.trans found'
      exact ended
    · dsimp only
      refine Finished.releaseFlow _ ?_
      have done : Finished (s.setEntry h { e with ended := some ⟨a, c, d, n⟩ }) h := by
        intro e' found'
        rw [State.entry?_setEntry, if_pos rfl] at found'
        split at found'
        · exact absurd found' (by simp)
        · cases found'
          rfl
      split
      · exact Finished.keep (K := 2 ^ 8) done (Keep.step State.bumpIslet_keep (by decide) (State.count_keep.weaken (by decide))) (by decide)
      · exact done

theorem Finished.hand (done : Finished s h) : Finished (s.hand j) h := by
  unfold State.hand
  split
  · exact done
  next e found => exact done.setEntry fun same _ => done e (same ▸ found)

/-! ### A halted bulk endpoint without a transfer -/

/-- A bulk endpoint is halted and empty, and the transfer that halted it is over. -/
structure Halted (s : State) (k h : Nat) : Prop where
  type : (s.ep k).type = 2
  state : (s.ep k).state = 2
  queue : (s.ep k).queue = []
  closers : (s.ep k).closers = []
  entry : Finished s h
  xfer : s.xfer h = XferSt.init

theorem Halted.keep {K : Nat} (halted : Halted s k h) (kept : Keep K s t) (entries : K.testBit 8 = true) (eps : K.testBit 17 = true)
    (xfers : K.testBit 18 = true) : Halted t k h where
  type := by rw [kept.ep eps]; exact halted.type
  state := by rw [kept.ep eps]; exact halted.state
  queue := by rw [kept.ep eps]; exact halted.queue
  closers := by rw [kept.ep eps]; exact halted.closers
  entry := halted.entry.keep kept entries
  xfer := by rw [kept.xfer xfers]; exact halted.xfer

theorem Halted.outOff {n : Nat} (halted : Halted s k h) : Halted (s.setEp j { s.ep j with outOff := n }) k h := by
  have same : (s.setEp j { s.ep j with outOff := n }).ep k = if k = j then { s.ep k with outOff := n } else s.ep k := by
    rw [State.ep_setEp]
    split
    next same => rw [same]
    · rfl
  refine ⟨?_, ?_, ?_, ?_, halted.entry.keep State.setEp_keep (by decide), (State.setEp_keep.xfer (by decide) h).trans halted.xfer⟩
  all_goals rw [same]; split
  · exact halted.type
  · exact halted.type
  · exact halted.state
  · exact halted.state
  · exact halted.queue
  · exact halted.queue
  · exact halted.closers
  · exact halted.closers

theorem Halted.setXfer (halted : Halted s k h) (other : j ≠ h) : Halted (s.setXfer j v) k h where
  type := halted.type
  state := halted.state
  queue := halted.queue
  closers := halted.closers
  entry := halted.entry
  xfer := (State.xfer_setXfer.trans (if_neg other.symm)).trans halted.xfer

theorem Halted.hand (halted : Halted s k h) : Halted (s.hand j) k h where
  type := by rw [State.hand_keep.ep (by decide)]; exact halted.type
  state := by rw [State.hand_keep.ep (by decide)]; exact halted.state
  queue := by rw [State.hand_keep.ep (by decide)]; exact halted.queue
  closers := by rw [State.hand_keep.ep (by decide)]; exact halted.closers
  entry := halted.entry.hand
  xfer := by rw [State.hand_keep.xfer (by decide)]; exact halted.xfer

/-- A transfer that is over sends no more. -/
theorem State.sendOutChunk_gone (gone : s.xfer h = XferSt.init) : s.sendOutChunk h = none := by
  unfold State.sendOutChunk
  dsimp only
  rw [gone]
  exact if_pos (.inl (by simp [XferSt.init]))

theorem Halted.sendOutChunk (halted : Halted s k h) (sent : s.sendOutChunk j = some t) : Halted t k h := by
  by_cases same : j = h
  · subst same
    rw [State.sendOutChunk_gone halted.xfer] at sent
    exact absurd sent (by simp)
  · unfold State.sendOutChunk at sent
    extract_lets v e n b z w at sent
    split at sent
    · exact absurd sent (by simp)
    · cases sent
      have queued : Halted z k h := halted.keep State.queueFrame_keep (by decide) (by decide) (by decide)
      have ep : z.ep v.ep = e := State.queueFrame_keep.ep (by decide) _
      have out : Halted w k h := by
        unfold w
        rw [← ep]
        exact queued.outOff
      exact (out.setXfer same).hand

theorem Halted.sendOutUpTo (n : Nat) : ∀ {s : State}, Halted s k h → Halted (State.sendOutUpTo n s j) k h := by
  induction n with
  | zero => exact fun halted => halted
  | succ n ih =>
    intro s halted
    rw [State.sendOutUpTo]
    split
    next sent => exact ih (halted.sendOutChunk sent)
    · exact halted

theorem Halted.pumpList (l : List Nat) : ∀ {s : State}, Halted s k h → Halted (pumpList l s) k h := by
  induction l with
  | nil => exact fun halted => halted
  | cons j l ih =>
    intro s halted
    rw [Machine.pumpList]
    split
    · exact ih (halted.sendOutUpTo _)
    · exact halted.sendOutUpTo _

theorem Halted.pumpSeat (halted : Halted s k h) : Halted (s.pumpSeat x) k h := by
  unfold State.pumpSeat
  generalize s.epsOf x (fun e => e.type != 1) = l
  induction l generalizing s with
  | nil => exact halted
  | cons j l ih =>
    refine ih ?_
    unfold State.pumpOut
    dsimp only
    split
    · exact halted
    · exact halted.pumpList _

/-! ### A transfer that fails with a halt (R160, R410) -/

/-- A bulk endpoint works on one transfer, which waits for no further result. -/
structure Working (s : State) (k h st : Nat) : Prop where
  type : (s.ep k).type = 2
  state : (s.ep k).state = st
  queue : (s.ep k).queue = [h]
  closers : (s.ep k).closers = []
  own : (s.xfer h).ep = k
  last : (s.xfer h).outstanding = 0

/-- The packet values of an isochronous IN transfer go to the host as it ends. -/
def State.isoWritten (s : State) (h : Nat) : Bool × State :=
  if (s.ep (s.xfer h).decided.ep).type = 1 && (s.xfer h).decided.dirIn then s.writeIsoValues h (s.xfer h).decided else (true, s)

/-- The entry of a transfer ends with it. -/
def State.xferRecord (s : State) (h : Nat) (st : Byte) : State :=
  let v := (s.xfer h).decided
  let n := v.outcome (s.ep v.ep).type
  match (s.isoWritten h).2.entry? h with
  | some x => (s.isoWritten h).2.finishFrom h (if v.hostFail || !(s.isoWritten h).1 then 0x01 else st.toNat) n.1 n.2 (v.latencyFrom x)
  | none => (s.isoWritten h).2

theorem State.isoWritten_bulk (bulk : (s.ep (s.xfer h).ep).type = 2) : s.isoWritten h = (true, s) := by
  have same : (s.xfer h).decided.ep = (s.xfer h).ep := rfl
  rw [State.isoWritten, same, bulk]
  rfl

theorem State.xferRecord_keep {st : Byte} (bulk : (s.ep (s.xfer h).ep).type = 2) : Keep (2 ^ 15 + 2 ^ 17 + 2 ^ 18) s (s.xferRecord h st) := by
  unfold State.xferRecord
  rw [State.isoWritten_bulk bulk]
  dsimp only
  split
  · exact State.finishFrom_keep.weaken (by decide)
  · exact Keep.rfl'

theorem State.xferRecord_finished {st : Byte} : Finished (s.xferRecord h st) h := by
  unfold State.xferRecord
  dsimp only
  split
  · exact State.finishFrom_finished
  next none => exact fun e found => absurd (none.symm.trans found) (by simp)

/-- The transfer is gone, and its endpoint's queue without it. -/
def State.xferGone (s : State) (k h : Nat) : State :=
  let s := s.setUsb { s.usb with xfers := terase s.usb.xfers h }
  s.setEp k { s.ep k with queue := (s.ep k).queue.filter (· != h), sentBytes := 0 }

theorem State.finishXfer_eq {st : Byte} : s.finishXfer h st =
    let z := (s.xferRecord h st).xferGone (s.xfer h).ep h
    let e := s.ep (s.xfer h).ep
    let left := (s.xfer h).decided.outSent - (s.xfer h).decided.outDone
    if z.leavesBytes e (s.xfer h).decided then (z.leaveStale e left).resetStream (s.xfer h).ep
    else if (z.usbSeat e.seat).flushing e then z.leaveStale e left
    else z := rfl

theorem Working.gone {st : Byte} (working : Working s k h 2) : Halted ((s.xferRecord h st).xferGone k h) k h := by
  have kept := State.xferRecord_keep (s := s) (h := h) (st := st) (by rw [working.own]; exact working.type)
  have ended := State.xferRecord_finished (s := s) (h := h) (st := st)
  have eps := kept.ep (by decide) k
  generalize s.xferRecord h st = z at kept ended eps
  have ep : (z.xferGone k h).ep k = { s.ep k with queue := [], sentBytes := 0 } := by
    refine State.ep_setEp_same.trans ?_
    have own : (z.setUsb { z.usb with xfers := terase z.usb.xfers h }).ep k = s.ep k := eps
    rw [own, working.queue]
    simp
  refine ⟨?_, ?_, ?_, ?_, ?_, ?_⟩
  · rw [ep]
    exact working.type
  · rw [ep]
    exact working.state
  · rw [ep]
  · rw [ep]
    exact working.closers
  · exact Finished.keep (s := z.setUsb { z.usb with xfers := terase z.usb.xfers h }) ended State.setEp_keep (by decide)
  · refine (State.setEp_keep.xfer (by decide) h).trans ?_
    exact (tget_terase _ _ _ _).trans (if_pos rfl)

theorem Halted.resetStream (halted : Halted s k h) : Halted (s.resetStream k) k h := by
  have flushed : Halted (s.flushEp k) k h :=
    (halted.keep (t := s.setUsbSeat (s.ep k).seat { s.usbSeat (s.ep k).seat with
      flushes := (s.usbSeat (s.ep k).seat).flushes ++ [(s.ep k).flushRecord] }) State.setUsbSeat_keep (by decide) (by decide) (by decide)).outOff
  unfold State.resetStream
  dsimp only
  rw [flushed.queue]
  exact flushed

theorem Working.finishXfer {st : Byte} (working : Working s k h 2) : Halted (s.finishXfer h st) k h := by
  rw [State.finishXfer_eq, working.own]
  have gone := working.gone (st := st)
  dsimp only
  have left {e : EpSt} {n : Nat} : Halted (((s.xferRecord h st).xferGone k h).leaveStale e n) k h :=
    gone.keep State.leaveStale_keep (by decide) (by decide) (by decide)
  split
  · exact left.resetStream
  · split
    · exact left
    · exact gone

theorem Halted.settleEp (halted : Halted s k h) : s.settleEp k = s := by
  unfold State.settleEp
  dsimp only
  rw [if_neg (by rw [halted.state]; decide), halted.closers]
  rfl

theorem Working.failXfer {st : Byte} (working : Working s k h 1) : Halted (s.failXfer k h st true) k h := by
  have halts : (true && ((s.ep k).type == 2 || (s.ep k).type == 3) && (s.ep k).state == 1) = true := by
    rw [working.type, working.state]
    rfl
  unfold State.failXfer
  dsimp only
  rw [if_pos halts]
  have ep : (s.setEp k { s.ep k with state := 2 }).ep k = { s.ep k with state := 2 } := State.ep_setEp_same
  have xfer : (s.setEp k { s.ep k with state := 2 }).xfer h = s.xfer h := State.setEp_keep.xfer (by decide) h
  generalize s.setEp k { s.ep k with state := 2 } = z at ep xfer
  unfold State.completeXfer State.afterResult
  dsimp only
  have done : (z.setXfer h { z.xfer h with ending := some st }).xfer h = { z.xfer h with ending := some st } := State.xfer_setXfer_same
  have set : (z.setXfer h { z.xfer h with ending := some st }).ep k = { s.ep k with state := 2 } := ep
  generalize z.setXfer h { z.xfer h with ending := some st } = w at done set
  rw [done]
  dsimp only
  rw [xfer, if_pos working.last, working.own]
  have two : Working w k h 2 := by
    refine ⟨?_, ?_, ?_, ?_, ?_, ?_⟩
    · rw [set]
      exact working.type
    · rw [set]
    · rw [set]
      exact working.queue
    · rw [set]
      exact working.closers
    · rw [done, xfer]
      exact working.own
    · rw [done, xfer]
      exact working.last
  rw [two.finishXfer.settleEp]
  exact two.finishXfer

end results
end Sys2Proof.Machine

/-! PROOFS. A `RESULTS` message of one record (06 R168 to R172, R410). -/

namespace Sys2Proof.Machine

section message
variable {s t z : State} {x : Seat} {h k : Nat} {r : ResIn} {q b body : List Byte} {u : UsbSeat} {n : W32}

/-! ### What a record names stays as its result is marked -/

/-- The mark of one record in a script. -/
def markScript (b : List Byte) (sc : SentScript) : SentScript :=
  if sc.n % 2 ^ 32 = fld b 12 4 then
    if decide (fld b 0 1 = 7) then { sc with ports := sc.ports.modify (fld b 2 1) fun e => (e.1, true) }
    else { sc with recs := sc.recs.modify (fld b 2 1) fun e => (e.1, true) }
  else sc

theorem UsbSeat.markDone_fst : (u.markDone b).1 = { u with scripts := u.scripts.map (markScript b) } := rfl

theorem modify_mark_fst {α : Type} (l : List (α × Bool)) (i j : Nat) :
    ((l.modify i fun e => (e.1, true))[j]?).map (·.1) = (l[j]?).map (·.1) := by
  rw [List.getElem?_modify]
  cases l[j]? with
  | none => rfl
  | some e =>
    simp only [Option.map_some]
    split <;> rfl

theorem markScript_same (sc : SentScript) : (markScript b sc).n = sc.n ∧
    (∀ j : Nat, ((markScript b sc).ports[j]?).map (·.1) = (sc.ports[j]?).map (·.1)) ∧
    (∀ j : Nat, ((markScript b sc).recs[j]?).map (·.1) = (sc.recs[j]?).map (·.1)) := by
  unfold markScript
  split
  · split
    · exact ⟨rfl, fun j => modify_mark_fst _ _ j, fun _ => rfl⟩
    · exact ⟨rfl, fun _ => rfl, fun j => modify_mark_fst _ _ j⟩
  · exact ⟨rfl, fun _ => rfl, fun _ => rfl⟩

theorem UsbSeat.script?_markDone (low : Nat) : (u.markDone b).1.script? low = (u.script? low).map (markScript b) := by
  unfold UsbSeat.script?
  rw [UsbSeat.markDone_fst, List.find?_map]
  have same : ((fun sc : SentScript => sc.n % 2 ^ 32 == low) ∘ markScript b) = fun sc => sc.n % 2 ^ 32 == low :=
    funext fun sc => congrArg (fun m => m % 2 ^ 32 == low) (markScript_same sc).1
  rw [same]

theorem UsbSeat.recordOf_markDone (c : List Byte) : (u.markDone b).1.recordOf c = u.recordOf c := by
  unfold UsbSeat.recordOf
  rw [UsbSeat.script?_markDone]
  cases u.script? (fld c 12 4) with
  | none => rfl
  | some sc =>
    obtain ⟨-, ports, recs⟩ := markScript_same (b := b) sc
    simp only [Option.map_some]
    split
    · have same := congrArg (Option.map PortRec.bytes) (ports (fld c 2 1))
      rw [Option.map_map, Option.map_map] at same
      exact same
    · exact recs _

/-! ### A message of one record -/

theorem State.takeResults_one (reads : readResults (s.usbSeat x) n.toNat body = some [r]) {v : UsbSeat} {l : List ResIn}
    (fresh : freshResults [r] (s.usbSeat x) = (v, l)) : s.takeResults x n.toNat body none false =
      ((l.filter fun r => r.kind != 0x10 && r.kind != 0x07).foldl (fun s r => s.applyResult x r)
        (((s.setUsbSeat x v).resultItems x l none false).hubResults x l none), false) := by
  unfold State.takeResults
  rw [reads]
  dsimp only
  rw [fresh]

theorem yields_results {P : State → Prop} (may : (s.link_ x).maySend .usb = true)
    (took : s.takeResults x n.toNat body none false = (z, false)) (left : P (s.linkDone x z)) :
    Yields (.results x false n body) s P := by
  refine ⟨_, congrArg Host.Outcome.next (if_pos may), ?_⟩
  unfold State.resultsMessage
  rw [took]
  exact left

/-- An event waits for the root hub (R168, R172). -/
theorem yields_event (may : (s.link_ x).maySend .usb = true) (reads : readResults (s.usbSeat x) n.toNat body = some [r])
    (kind : r.kind = 0x10) (new : (s.usbSeat x).newEvent r.index = true) : Yields (.results x false n body) s fun t =>
      t.usbSeat x = { s.usbSeat x with hubOps := (s.usbSeat x).hubOps ++ [.event r.bytes none], lastEvent := some r.index } ∧
        t.usb.xfers = s.usb.xfers := by
  have fresh : freshResults [r] (s.usbSeat x) = ({ s.usbSeat x with lastEvent := some r.index }, [r]) := by
    simp [freshResults, kind, new]
  have none' (z : State) : z.resultItems x [r] none false = z := by
    simp [State.resultItems, kind]
  have hub (z : State) : z.hubResults x [r] none =
      z.setUsbSeat x { z.usbSeat x with hubOps := (z.usbSeat x).hubOps ++ [.event r.bytes none] } := by
    simp [State.hubResults, State.hubWaits, kind]
  have took := State.takeResults_one reads fresh
  rw [none', hub, State.usbSeat_setUsbSeat] at took
  have acts : [r].filter (fun r => r.kind != 0x10 && r.kind != 0x07) = [] := by simp [kind]
  rw [acts] at took
  refine yields_results may took ⟨?_, ?_⟩
  · rw [State.linkDone_keep.usbSeat (by decide)]
    exact State.usbSeat_setUsbSeat _ _ _
  · exact State.linkDone_keep.usbXfers (by decide)

/-! ### A stall -/

theorem Working.setXfer {st : Nat} {v : XferSt} (working : Working s k h st) (own : v.ep = k) (last : v.outstanding = 0) :
    Working (s.setXfer h v) k h st where
  type := working.type
  state := working.state
  queue := working.queue
  closers := working.closers
  own := by rw [State.xfer_setXfer_same]; exact own
  last := by rw [State.xfer_setXfer_same]; exact last

theorem Working.doneBytes {st m : Nat} (working : Working s k h st) : Working (s.setEp k { s.ep k with doneBytes := m }) k h st where
  type := by rw [State.ep_setEp_same]; exact working.type
  state := by rw [State.ep_setEp_same]; exact working.state
  queue := by rw [State.ep_setEp_same]; exact working.queue
  closers := by rw [State.ep_setEp_same]; exact working.closers
  own := by rw [State.setEp_keep.xfer (by decide)]; exact working.own
  last := by rw [State.setEp_keep.xfer (by decide)]; exact working.last

/-- A result that works on a bulk endpoint's only transfer, with a stall (R410). -/
theorem State.resultXfer_stall (type : (s.ep k).type = 2) (state : (s.ep k).state = 1) (queue : (s.ep k).queue = [h])
    (closers : (s.ep k).closers = []) (own : (s.xfer h).ep = k) (last : (s.xfer h).outstanding = 1)
    (open' : (s.xfer h).resulted = false) : Halted (s.resultXfer k h r q 0x03) k h := by
  unfold State.resultXfer
  extract_lets e v a c stage d f w y setup consumed g src p out
  have closed : ¬ v.resulted = true := by
    unfold v
    rw [open']
    exact Bool.false_ne_true
  rw [if_neg closed, if_neg (by decide)]
  have begun : Working c k h 1 := by
    have same : c.ep k = a.ep k := rfl
    have set : a.ep k = _ := State.ep_setEp_same
    have counted : c.xfer h = _ := State.xfer_setXfer_same
    refine ⟨?_, ?_, ?_, ?_, ?_, ?_⟩
    · rw [same, set]
      exact type
    · rw [same, set]
      exact state
    · rw [same, set]
      exact queue
    · rw [same, set]
      exact closers
    · rw [counted]
      exact own
    · rw [counted]
      exact congrArg (· - 1) last
  have staged : Working f k h 1 := begun.setXfer begun.own begun.last
  have moved : Working w k h 1 := staged
  have consumed : Working g k h 1 := moved.setXfer moved.own moved.last
  have worked : Working p k h 1 := consumed.doneBytes
  have failed : Halted out k h := worked.failXfer
  exact failed.pumpSeat

theorem State.recContext_congr (eps : t.usb.eps = s.usb.eps) : t.recContext x q = s.recContext x q := by
  unfold State.recContext
  rw [eps]

theorem State.applyResult_stall (code : r.code = 0x03) (record : (s.usbSeat x).recordOf r.bytes = some q) (kind : recKind q ≠ 0x0B)
    (context : s.recContext x q = some k) (type : (s.ep k).type = 2) (queue : (s.ep k).queue = [h]) :
    s.applyResult x r = s.resultXfer k h r q 0x03 := by
  unfold State.applyResult
  simp only [record, Option.getD_some, if_neg kind, code, listedResult]
  simp [context, type, queue]

theorem yields_stall (may : (s.link_ x).maySend .usb = true) (reads : readResults (s.usbSeat x) n.toNat body = some [r])
    (notEvent : r.kind ≠ 0x10) (notPort : r.kind ≠ 0x07) (code : r.code = 0x03) (new : ((s.usbSeat x).markDone r.bytes).2 = false)
    (record : (s.usbSeat x).recordOf r.bytes = some q) (kind : recKind q ≠ 0x0B) (context : s.recContext x q = some k)
    (type : (s.ep k).type = 2) (state : (s.ep k).state = 1) (queue : (s.ep k).queue = [h]) (closers : (s.ep k).closers = [])
    (own : (s.xfer h).ep = k) (last : (s.xfer h).outstanding = 1) (open' : (s.xfer h).resulted = false) :
    Yields (.results x false n body) s fun t => (t.ep k).state = 2 ∧ (t.ep k).queue = [] ∧ Finished t h ∧ t.xfer h = XferSt.init := by
  have fresh : freshResults [r] (s.usbSeat x) = (((s.usbSeat x).markDone r.bytes).1, [r]) := by
    simp [freshResults, notEvent, new]
  have took := State.takeResults_one reads fresh
  have acts : [r].filter (fun r => r.kind != 0x10 && r.kind != 0x07) = [r] := by simp [notEvent, notPort]
  have hub (z : State) : z.hubResults x [r] none = z := by simp [State.hubResults, notEvent, notPort]
  rw [acts, hub] at took
  have marked : (s.setUsbSeat x ((s.usbSeat x).markDone r.bytes).1).usbSeat x = ((s.usbSeat x).markDone r.bytes).1 :=
    State.usbSeat_setUsbSeat _ _ _
  have set : Keep (2 ^ 17 + 2 ^ 18) s (s.setUsbSeat x ((s.usbSeat x).markDone r.bytes).1) := State.setUsbSeat_keep.weaken (by decide)
  generalize s.setUsbSeat x ((s.usbSeat x).markDone r.bytes).1 = m at took marked set
  have made : Keep (2 ^ 15 + 2 ^ 17 + 2 ^ 18) m (m.resultItems x [r] none false) := State.resultItems_keep.weaken (by decide)
  generalize m.resultItems x [r] none false = z at took made
  have eps : ∀ j, z.ep j = s.ep j := fun j => (made.ep (by decide) j).trans (set.ep (by decide) j)
  have xfers : z.xfer h = s.xfer h := (made.xfer (by decide) h).trans (set.xfer (by decide) h)
  have all : z.usb.eps = s.usb.eps := (made.usbEps (by decide)).trans (set.usbEps (by decide))
  rw [List.foldl_cons, List.foldl_nil, State.applyResult_stall (q := q) (k := k) (h := h) code
    (by rw [made.usbSeat (by decide), marked, UsbSeat.recordOf_markDone]; exact record) kind
    (by rw [State.recContext_congr all]; exact context) (by rw [eps]; exact type) (by rw [eps]; exact queue)] at took
  have halted : Halted (z.resultXfer k h r q 0x03) k h :=
    State.resultXfer_stall (by rw [eps]; exact type) (by rw [eps]; exact state) (by rw [eps]; exact queue) (by rw [eps]; exact closers)
      (by rw [xfers]; exact own) (by rw [xfers]; exact last) (by rw [xfers]; exact open')
  refine yields_results may took ?_
  have left : Halted (s.linkDone x (z.resultXfer k h r q 0x03)) k h :=
    halted.keep State.linkDone_keep (by decide) (by decide) (by decide)
  exact ⟨left.state, left.queue, left.entry, left.xfer⟩

end message

/-- Settles O18. -/
theorem rootHubAndResults : Obligations.RootHubAndResults := by
  unfold Obligations.RootHubAndResults
  exact ⟨fun f i x p s presents => ⟨⟨_, rfl, State.submitPort_leaves presents⟩, ⟨_, rfl, State.submitPort_leaves presents⟩,
      ⟨_, rfl, State.submitPort_leaves presents⟩, ⟨_, rfl, State.submitPort_leaves presents⟩,
      ⟨_, rfl, State.submitPort_leaves presents⟩, ⟨_, rfl, State.submitPort_leaves presents⟩,
      ⟨_, rfl, State.submitPort_leaves presents⟩, fun b => yields_rootPortChangeClear presents⟩,
    fun i x p s free own idle => yields_rootHub free own idle,
    fun x b s up new good => yields_profile up new good,
    fun x b o s up new bad => yields_profile_bad up new bad,
    fun x n body r s may reads => ⟨fun kind new => yields_event may reads kind new,
      fun q k h notEvent notPort code new record kind context type state queue closers own last open' =>
        yields_stall may reads notEvent notPort code new record kind context type state queue closers own last open'⟩⟩

end Sys2Proof.Machine

/-! PROOFS. The error log's records; supervisors, the referee and the causeway's time (13 R349 to R351, R356 to R358; 01 R16). -/

namespace Sys2Proof.Machine

section logs
variable {s t u : State} {c d : CoreId} {code loc n K : Nat} {l : List LogRec} {a : CoreId} {sev detail : Nat}

/-! ### The error log (R356 to R358) -/

theorem logMerge_mem {now : Nat} {m : List LogRec} (merged : logMerge now code loc l = some m) :
    ∃ r ∈ m, r.code.toNat = code ∧ r.location.toNat = loc := by
  induction l generalizing m with
  | nil => exact absurd merged (by simp [logMerge])
  | cons r l ih =>
    rw [logMerge] at merged
    split at merged
    next same =>
      cases merged
      exact ⟨_, List.mem_cons_self, same.1, same.2.1⟩
    · cases rest : logMerge now code loc l with
      | none => exact absurd (rest ▸ merged) (by simp)
      | some k =>
        rw [rest] at merged
        cases merged
        obtain ⟨r', mem, same⟩ := ih rest
        exact ⟨r', List.mem_cons_of_mem _ mem, same⟩

/-- The log of a core with the record that a new one merges into (R357). -/
def State.logMerged (s : State) (c : CoreId) (code loc : Nat) : Option (List LogRec) :=
  if code = 0x22 ∨ code = 0x23 then none else logMerge (s.ut c) code loc (s.errors c)

/-- A new record of a core's log. -/
def State.logRec (s : State) (c : CoreId) (code : Nat) (a : CoreId) (sev loc detail : Nat) : LogRec :=
  { ut := s.ut c
    seq := match c with
      | .a => s.flt.nextA
      | .b => s.flt.nextB
    code := BitVec.ofNat 16 code, core := a, severity := BitVec.ofNat 8 sev, location := BitVec.ofNat 32 loc, count := 1
    detail := BitVec.ofNat 64 detail }

theorem Keep.errors (h : Keep K s t) (logs : K.testBit 44 = true) (c : CoreId) : t.errors c = s.errors c := by
  cases c
  · exact congrArg (fun p : _ × _ × _ × _ => p.1) (h.logs logs)
  · exact congrArg (fun p : _ × _ × _ × _ => p.2.1) (h.logs logs)

theorem State.errLog_merged {m : List LogRec} (merged : s.logMerged c code loc = some m) :
    (s.errLog c code a sev loc detail).errors d = if d = c then m else s.errors d := by
  cases c
  all_goals
    unfold State.logMerged State.errors at merged
    unfold State.errLog
    dsimp only at merged ⊢
    rw [merged]
    cases d <;> rfl

theorem State.errLog_new (new : s.logMerged c code loc = none) : (s.errLog c code a sev loc detail).errors d =
    if d = c then (s.errors c ++ [s.logRec c code a sev loc detail]).drop ((s.errors c).length + 1 - 256) else s.errors d := by
  have kept (z : State) (l : List Byte) : Keep (2 ^ 44) z ((z.managerVectorUp (coreFns c) 3).logLine l) :=
    Keep.step State.logLine_keep (by decide) (State.managerVectorUp_keep.weaken (by decide))
  cases c
  all_goals
    unfold State.logMerged State.errors at new
    unfold State.errLog
    dsimp only at new ⊢
    rw [new]
    dsimp only
    generalize 256 = room
    split
    · rw [(kept _ _).errors (by decide)]
      cases d <;> rfl
    · cases d <;> rfl

theorem State.errLog_errors_ne (other : d ≠ c) : (s.errLog c code a sev loc detail).errors d = s.errors d := by
  cases merged : s.logMerged c code loc with
  | none => rw [State.errLog_new merged, if_neg other]
  | some m => rw [State.errLog_merged merged, if_neg other]

theorem State.errLog_logged (small : code < 2 ^ 16) (near : loc < 2 ^ 32) : Logged (s.errLog c code a sev loc detail) c code loc := by
  unfold Logged
  cases merged : s.logMerged c code loc with
  | none =>
    rw [State.errLog_new merged, if_pos rfl]
    refine ⟨s.logRec c code a sev loc detail, ?_, Nat.mod_eq_of_lt small, Nat.mod_eq_of_lt near⟩
    rw [List.drop_append_of_le_length (by omega)]
    exact List.mem_append_right _ List.mem_cons_self
  | some m =>
    rw [State.errLog_merged merged, if_pos rfl]
    unfold State.logMerged at merged
    split at merged
    · exact absurd merged (by simp)
    · exact logMerge_mem merged

theorem Logged.keep (h : Logged s c code loc) (kept : Keep K s t) (logs : K.testBit 44 = true) : Logged t c code loc := by
  unfold Logged
  rw [kept.errors logs]
  exact h

theorem Logged.other {code' loc' : Nat} (h : Logged s c code loc) (other : c ≠ d) : Logged (s.errLog d code' a sev loc' detail) c code loc := by
  unfold Logged
  rw [State.errLog_errors_ne other]
  exact h

/-- What both cores log, each has in its log. -/
theorem logged_both (small : code < 2 ^ 16) (near : loc < 2 ^ 32) (c : CoreId) :
    Logged (bothCores.foldl (fun s c => s.errLog c code c sev loc detail) s) c code loc := by
  cases c with
  | a => exact (State.errLog_logged small near).other CoreId.noConfusion
  | b => exact State.errLog_logged small near

/-! ### Supervisors (R349; 12 R334) -/

theorem State.restMode_mode : s.restMode.mode.mode = s.resting := by
  have entered : (s.enterMode s.resting).mode.mode = s.resting := State.enterMode_mode _ _
  unfold State.restMode
  dsimp only
  generalize s.enterMode s.resting = z at entered
  split
  · refine Eq.trans ?_ entered
    unfold State.orphan
    split
    · exact Keep.mode0 (K := 2 ^ 39) (Keep.foldl Keep.rfl' fun _ _ => State.haltIslet_keep.weaken (by decide)) (by decide)
    · rfl
  · split
    · exact (Keep.mode0 (K := 2 ^ 39) (Keep.foldl Keep.rfl' fun _ _ => State.leaveScreen_keep.weaken (by decide)) (by decide)).trans entered
    · exact entered

theorem State.resting_ne : s.resting ≠ .unsupervised := by
  unfold State.resting
  split
  · exact Mode.noConfusion
  · split
    · exact Mode.noConfusion
    · split
      · exact Mode.noConfusion
      · split <;> exact Mode.noConfusion

/-- What the ports that asked for the restart are told. -/
def State.restartTold (s : State) (status : Byte) : State :=
  bothPorts.foldl (fun s p => if (s.cmdSt p .unitCmd).busy && (s.cmdSt p .unitCmd).op == 5 then s.endCmd p .unitCmd status 0 else s) s

theorem State.restartTold_keep {status : Byte} : Keep (2 ^ 39 + 2 ^ 42) s (s.restartTold status) :=
  Keep.foldl Keep.rfl' fun _ _ => Keep.ite (State.endCmd_keep.weaken (by decide)) Keep.rfl'

theorem State.supervisorBack_ok (back : (s.coreSt c).sup = .restarting) (up : (s.coreSt c).fenced = false) :
    s.supervisorBack c true =
      let z := (s.setCore c { s.coreSt c with sup := .running, supZeros := 0 }).errLog c 0x25 c 1 c.num 0
      if z.mode.mode != .unsupervised then z else ((z.restartTold 0x00).restMode).reasonOff 10 := by
  unfold State.supervisorBack
  dsimp only
  exact if_neg (by simp [back, up])

theorem State.supervisorBack_late (back : (s.coreSt c).sup = .restarting) (up : (s.coreSt c).fenced = false) :
    s.supervisorBack c false =
      let z := s.setCore c { s.coreSt c with sup := .lost, supRestarts := true }
      if z.mode.mode != .unsupervised then z
      else if bothCores.any fun d => (z.coreSt d).sup == .restarting then z else z.restartTold 0x27 := by
  unfold State.supervisorBack
  dsimp only
  exact if_neg (by simp [back, up])

theorem yields_supervisorRestartDone (back : (s.coreSt c).sup = .restarting) (up : (s.coreSt c).fenced = false) :
    Yields (.supervisorRestartDone c true) s (fun t => (t.coreSt c).sup = .running ∧ (t.coreSt c).supZeros = 0 ∧
      t.mode.mode ≠ .unsupervised) ∧
    Yields (.supervisorRestartDone c false) s fun t => (t.coreSt c).sup = .lost ∧ (t.coreSt c).supRestarts = true := by
  refine ⟨⟨_, congrArg Host.Outcome.next (State.supervisorBack_ok back up), ?_⟩,
    ⟨_, congrArg Host.Outcome.next (State.supervisorBack_late back up), ?_⟩⟩
  · have core : ((s.setCore c { s.coreSt c with sup := .running, supZeros := 0 }).errLog c 0x25 c 1 c.num 0).coreSt c =
        { s.coreSt c with sup := .running, supZeros := 0 } := (State.errLog_keep.coreSt (by decide) c).trans (State.coreSt_setCore _ _ _)
    generalize (s.setCore c { s.coreSt c with sup := .running, supZeros := 0 }).errLog c 0x25 c 1 c.num 0 = z at core
    dsimp only
    split
    next supervised =>
      rw [core]
      exact ⟨rfl, rfl, bne_iff_ne.mp supervised⟩
    · rw [State.reasonOff_keep.coreSt (by decide), State.restMode_keep.coreSt (by decide), State.restartTold_keep.coreSt (by decide), core]
      refine ⟨rfl, rfl, ?_⟩
      have mode := State.restMode_mode (s := z.restartTold 0x00)
      have off : ((z.restartTold 0x00).restMode.reasonOff 10).mode.mode = (z.restartTold 0x00).restMode.mode.mode :=
        State.reasonOff_keep.mode0 (by decide)
      rw [off, mode]
      exact State.resting_ne
  · have core : (s.setCore c { s.coreSt c with sup := .lost, supRestarts := true }).coreSt c =
        { s.coreSt c with sup := .lost, supRestarts := true } := State.coreSt_setCore _ _ _
    generalize s.setCore c { s.coreSt c with sup := .lost, supRestarts := true } = z at core
    dsimp only
    split
    · rw [core]
      exact ⟨rfl, rfl⟩
    · split
      · rw [core]
        exact ⟨rfl, rfl⟩
      · rw [State.restartTold_keep.coreSt (by decide), core]
        exact ⟨rfl, rfl⟩

/-! ### The referee (R350) -/

theorem yields_refereeLost {k : Bool} {ut : Nat} (arrived : u = s.arrive ut) (known : u.flt.refereeLost = false) :
    Yields (.refereeLost c k ut) s fun t =>
      t.flt.refereeLost = true ∧ t.mode.reasons.getLsbD 3 = true ∧ Logged t c 0x40 0 ∧ t.flt.token = u.flt.token := by
  have run : exec (.refereeLost c k ut) s = .next (u.loseReferee c) := congrArg (fun u => Host.Outcome.next (State.loseReferee u c)) arrived.symm
  refine ⟨_, run, ?_⟩
  unfold State.loseReferee
  rw [if_neg (by rw [known]; exact Bool.false_ne_true)]
  have reason : ((u.setFlt { u.flt with refereeLost := true }).reasonOn 3).mode.reasons.getLsbD 3 = true := State.reasonOn_sets.1
  have same : SameReferee (u.setFlt { u.flt with refereeLost := true }) ((u.setFlt { u.flt with refereeLost := true }).reasonOn 3) :=
    State.reasonOn_keep.sameReferee (by decide)
  dsimp only
  generalize (u.setFlt { u.flt with refereeLost := true }).reasonOn 3 = z at reason same
  have noted : Logged (z.errLog c 0x40 c 4 0 0) c 0x40 0 := State.errLog_logged (by decide) (by decide)
  have kept : Keep (2 ^ 41 + 2 ^ 42) z (z.errLog c 0x40 c 4 0 0).reMode :=
    Keep.step State.reMode_keep (by decide) (State.errLog_keep.weaken (by decide))
  obtain ⟨lost, token, -⟩ := same.trans (kept.sameReferee (by decide))
  refine ⟨lost, ?_, noted.keep State.reMode_keep (by decide), token⟩
  rw [(kept.reasons_eq (by decide)).1]
  exact reason

theorem yields_refereeReturned {ut : Nat} (arrived : u = s.arrive ut) (lost : u.flt.refereeLost = true) :
    Yields (.refereeReturned ut) s fun t =>
      t.flt.refereeLost = false ∧ (∀ n, t.sem n = SemSt.init) ∧ Logged t u.flt.token 0x41 0 ∧ t.flt.token = u.flt.token := by
  have run : exec (.refereeReturned ut) s = .next u.refereeBack := congrArg (fun u => Host.Outcome.next (State.refereeBack u)) arrived.symm
  refine ⟨_, run, ?_⟩
  unfold State.refereeBack
  rw [if_neg (by rw [lost]; exact Bool.false_ne_true)]
  have same : SameReferee (u.setFlt { u.flt with refereeLost := false }) ((u.setFlt { u.flt with refereeLost := false }).reasonOff 3) :=
    State.reasonOff_keep.sameReferee (by decide)
  dsimp only
  generalize (u.setFlt { u.flt with refereeLost := false }).reasonOff 3 = z at same
  obtain ⟨back, token, -⟩ := same
  generalize hw : z.setHost { z.host with sems := [], tieNext := .h0 } = w
  have flt : w.flt = z.flt := by rw [← hw]; rfl
  have sems : w.host.sems = [] := by rw [← hw]; rfl
  have holder : w.flt.token = u.flt.token := by rw [flt, token]; rfl
  have noted : Logged (w.errLog w.flt.token 0x41 w.flt.token 1 0 0) w.flt.token 0x41 0 := State.errLog_logged (by decide) (by decide)
  have kept : Keep (2 ^ 3 + 2 ^ 42) w (w.errLog w.flt.token 0x41 w.flt.token 1 0 0).reMode :=
    Keep.step State.reMode_keep (by decide) (State.errLog_keep.weaken (by decide))
  have free : (w.errLog w.flt.token 0x41 w.flt.token 1 0 0).reMode.host.sems = [] :=
    (congrArg (fun p : _ × Bool × _ × _ => p.2.2.1) (kept.hcfg (by decide))).trans sems
  refine ⟨?_, fun n => ?_, ?_, ?_⟩
  · rw [kept.refereeLost (by decide), flt]
    exact back
  · unfold State.sem
    rw [free]
    rfl
  · rw [← holder]
    exact noted.keep State.reMode_keep (by decide)
  · rw [kept.token (by decide)]
    exact holder

/-! ### The causeway's time (01 R16) -/

theorem yields_causewayTimeSample {ut : Nat} (arrived : u = s.arrive ut) (up : u.causewayUp = true) :
    Yields (.causewayTimeSample ut) s fun t =>
      t.flt.utDiff = (u.now : Int) - u.ut u.flt.token.twin ∧
      t.flt.steerPpm = (if u.now = u.ut u.flt.token.twin then 0 else if u.ut u.flt.token.twin < u.now then 100 else -100) ∧ t.time.rem = 0 ∧
      (∀ c, t.ut c = u.ut c) := by
  have run : exec (.causewayTimeSample ut) s = .next (if u.causewayUp then u.steerAgain else u) :=
    congrArg (fun u => Host.Outcome.next (if State.causewayUp u then u.steerAgain else u)) arrived.symm
  rw [if_pos up] at run
  refine ⟨_, run, rfl, ?_, rfl, fun c => by cases c <;> rfl⟩
  have steered : u.steerAgain.flt.steerPpm = if (u.now : Int) - u.ut u.flt.token.twin = 0 then 0
      else if 0 < (u.now : Int) - u.ut u.flt.token.twin then 100 else -100 := rfl
  rw [steered]
  generalize u.now = a
  generalize u.ut u.flt.token.twin = b
  by_cases same : a = b
  · rw [if_pos same, if_pos (by omega)]
  · rw [if_neg same, if_neg (by omega)]
    by_cases ahead : b < a
    · rw [if_pos ahead, if_pos (by omega)]
    · rw [if_neg ahead, if_neg (by omega)]

/-- What the core without the token gains on its twin is bounded by what is left over and 100 in a million. -/
theorem State.gains_le (d : Nat) : (1000000 * (s.gains d).1.natAbs) ≤ s.time.rem + d * s.flt.steerPpm.natAbs := by
  unfold State.gains
  extract_lets m gap k
  have part : k ≤ m / 1000000 := by
    unfold k
    split
    · exact Nat.min_le_left _ _
    · exact le_refl _
  have whole : 1000000 * (m / 1000000) ≤ m := Nat.mul_div_le _ _
  have abs : (if 0 ≤ s.flt.steerPpm then (k : Int) else -(k : Int)).natAbs = k := by split <;> simp
  dsimp only
  rw [abs]
  exact (Nat.mul_le_mul_left _ part).trans whole

theorem steering_bound {ut : Nat} (slow : s.flt.steerPpm.natAbs ≤ 100) (small : s.time.rem < 1000000) (later : s.now ≤ ut) :
    1000000 * ((((s.arrive ut).ut s.flt.token.twin : Int) - s.ut s.flt.token.twin) - (ut - s.now : Nat)).natAbs ≤
      s.time.rem + 100 * (ut - s.now) := by
  unfold State.arrive
  dsimp only
  have now : s.ut s.flt.token = s.now := rfl
  rw [now]
  by_cases same : ut ≤ s.now
  · rw [if_pos same]
    have none : ut - s.now = 0 := by omega
    rw [none]
    simp
  · rw [if_neg same, State.arriveCore_ut, if_pos rfl, State.arriveCore_ut, if_neg (CoreId.twin_ne _).symm]
    have base : (s.setTime { s.time with rem := (s.gains (ut - s.now)).2 }).ut s.flt.token.twin = s.ut s.flt.token.twin := by
      cases s.flt.token.twin <;> rfl
    rw [base]
    have gained := s.gains_le (ut - s.now)
    have scaled : (ut - s.now) * s.flt.steerPpm.natAbs ≤ (ut - s.now) * 100 := Nat.mul_le_mul_left _ slow
    generalize (s.gains (ut - s.now)).1 = g at gained
    generalize s.ut s.flt.token.twin = b
    generalize (ut - s.now) * s.flt.steerPpm.natAbs = p at gained scaled
    omega

end logs
end Sys2Proof.Machine

/-! PROOFS. No mirror completes, and no lane returns, while cores fail (08 R230; 13 R342, R351). -/

namespace Sys2Proof.Machine

section mirrors
variable {s t u : State} {c x y : CoreId} {h : HeadNo} {a : Seat} {i : IsletNo} {K n : Nat} {v : HeadSt} {bad : CoreId → Bool}

/-! ### Tables -/

theorem mem_tput {α : Type} {k : Nat} {v : α} {e : Nat × α} {t : Tab α} (mem : e ∈ tput t k v) : e = (k, v) ∨ e ∈ t := by
  induction t with
  | nil => exact .inl (List.mem_singleton.mp mem)
  | cons p t ih =>
    unfold tput at mem
    split at mem
    · exact (List.mem_cons.mp mem)
    · split at mem
      · exact (List.mem_cons.mp mem).imp_right (List.mem_cons_of_mem _)
      · rcases List.mem_cons.mp mem with rfl | later
        · exact .inr List.mem_cons_self
        · exact (ih later).imp_right (List.mem_cons_of_mem _)

theorem mem_tset {α : Type} [DecidableEq α] {k : Nat} {v d : α} {e : Nat × α} {t : Tab α} (mem : e ∈ tset t k v d) :
    e = (k, v) ∨ e ∈ t := by
  unfold tset at mem
  split at mem
  · exact .inr (List.mem_of_mem_filter mem)
  · exact mem_tput mem

theorem mem_tmap {α : Type} [DecidableEq α] {f : α → α} {d : Nat → α} {e : Nat × α} {t : Tab α} (mem : e ∈ tmap f d t) :
    ∃ p ∈ t, e.2 = f p.2 := by
  induction t with
  | nil => exact absurd mem List.not_mem_nil
  | cons p t ih =>
    rcases mem_tset mem with rfl | later
    · exact ⟨p, List.mem_cons_self, rfl⟩
    · obtain ⟨q, listed, same⟩ := ih later
      exact ⟨q, List.mem_cons_of_mem _ listed, same⟩

theorem tget_of_forall {α : Type} {P : α → Prop} {d : α} (k : Nat) {t : Tab α} (all : ∀ e ∈ t, P e.2) (default : P d) : P (tget t k d) := by
  induction t with
  | nil => exact default
  | cons p t ih =>
    unfold tget
    split
    · exact all p List.mem_cons_self
    · exact ih fun e mem => all e (List.mem_cons_of_mem _ mem)

/-! ### Heads without a complete mirror -/

/-- No listed head has a complete mirror. -/
def Plain (s : State) : Prop := ∀ e ∈ s.disp.heads, e.2.mirrored = false

theorem Plain.head (plain : Plain s) (h : HeadNo) : (s.head h).mirrored = false :=
  tget_of_forall (P := fun d : HeadSt => d.mirrored = false) h.val (fun e mem => plain e mem) rfl

theorem Plain.setHead (plain : Plain s) (off : v.mirrored = false) : Plain (s.setHead h v) := by
  intro e mem
  rcases mem_tset mem with rfl | listed
  · exact off
  · exact plain e listed

theorem Plain.keep (plain : Plain s) (kept : Keep K s t) (heads : K.testBit 24 = true) : Plain t := by
  have same : t.disp.heads = s.disp.heads := kept.heads heads
  unfold Plain
  rw [same]
  exact plain

theorem State.endMirrors_plain : Plain s.endMirrors := by
  intro e mem
  have mapped : e ∈ tmap (fun d : HeadSt => { d with mirrored := false }) (fun _ => HeadSt.init) s.disp.heads := mem
  obtain ⟨p, -, same⟩ := mem_tmap mapped
  rw [same]

/-- The lanes stay, and no mirror completes. -/
structure StaysPlain (s t : State) : Prop where
  lanes : t.flt.lanes = s.flt.lanes
  plain : Plain s → Plain t

theorem StaysPlain.rfl' : StaysPlain s s := ⟨rfl, fun plain => plain⟩

theorem StaysPlain.trans (g : StaysPlain s t) (k : StaysPlain t u) : StaysPlain s u :=
  ⟨k.lanes.trans g.lanes, fun plain => k.plain (g.plain plain)⟩

theorem StaysPlain.ite {p : Prop} [Decidable p] (g : StaysPlain s t) (k : StaysPlain s u) : StaysPlain s (if p then t else u) := by
  split
  · exact g
  · exact k

theorem StaysPlain.foldl {α : Type} {g : State → α → State} (step : ∀ s a, StaysPlain s (g s a)) (l : List α) (k : StaysPlain s t) :
    StaysPlain s (l.foldl g t) := by
  induction l generalizing t with
  | nil => exact k
  | cons a l ih => exact ih (k.trans (step t a))

theorem Keep.staysPlain (kept : Keep K s t) (heads : K.testBit 24 = true) (cores : K.testBit 42 = true) : StaysPlain s t :=
  ⟨kept.lanes cores, fun plain => plain.keep kept heads⟩

theorem staysPlain_setHead (off : v.mirrored = false) : StaysPlain s (s.setHead h v) := ⟨rfl, fun plain => plain.setHead off⟩

theorem staysPlain_setMode {m : ModeSt} : StaysPlain s (s.setMode m) := ⟨rfl, fun plain => plain⟩

theorem staysPlain_setHost {m : HostSt} : StaysPlain s (s.setHost m) := ⟨rfl, fun plain => plain⟩

theorem staysPlain_setIslet {m : IsletSt} : StaysPlain s (s.setIslet i m) := ⟨rfl, fun plain => plain⟩

theorem staysPlain_setCore {w : CoreSt} : StaysPlain s (s.setCore c w) := by
  cases c <;> exact ⟨rfl, fun plain => plain⟩

/-! ### The causeway's trunks -/

/-- Both cores' causeway trunks follow whether the causeway is up. -/
def State.trunksFollow (s : State) : State :=
  bothCores.foldl (fun z c => if ((z.fabPort c 88).state == .up) == s.causewayUp then z else z.causewayTrunk c s.causewayUp) s

theorem State.settleCauseway_eq : s.settleCauseway = (if s.causewayUp then s.trunksFollow else s.trunksFollow.endMirrors).regroupAll := rfl

theorem staysPlain_trunksFollow : StaysPlain s s.trunksFollow :=
  StaysPlain.foldl (fun _ _ => StaysPlain.ite .rfl' (State.causewayTrunk_keep.staysPlain (by decide) (by decide))) _ .rfl'

theorem staysPlain_endMirrors : StaysPlain s s.endMirrors := ⟨rfl, fun _ => State.endMirrors_plain⟩

theorem staysPlain_settleCauseway : StaysPlain s s.settleCauseway := by
  rw [State.settleCauseway_eq]
  refine StaysPlain.trans ?_ (State.regroupAll_keep.staysPlain (by decide) (by decide))
  exact .ite staysPlain_trunksFollow (staysPlain_trunksFollow.trans staysPlain_endMirrors)

theorem State.settleCauseway_plain (cut : s.flt.lanes = 0) : Plain s.settleCauseway := by
  have down : ¬ s.causewayUp = true := by simp [State.causewayUp, cut]
  rw [State.settleCauseway_eq, if_neg down]
  exact State.endMirrors_plain.keep State.regroupAll_keep (by decide)

/-! ### An islet's halt, and the end of its work -/

theorem staysPlain_dropWork : StaysPlain s (s.dropWork n) := by
  unfold State.dropWork
  dsimp only
  generalize hw : List.foldl _ _ _ = w
  have set : StaysPlain s w := by
    rw [← hw]
    refine StaysPlain.foldl (fun z e => State.setEp_keep.staysPlain (by decide) (by decide)) _ ?_
    exact ⟨rfl, fun plain => plain⟩
  refine set.trans ⟨rfl, fun plain e mem => ?_⟩
  have mapped : e ∈ tmap (fun d : HeadSt => { d with waiting := d.waiting.filter fun w => w.1 != n }) (fun _ => HeadSt.init) w.disp.heads := mem
  obtain ⟨p, listed, same⟩ := mem_tmap mapped
  rw [same]
  exact plain p listed

theorem staysPlain_endHalted {e : EntrySt} : StaysPlain s (s.endHalted n e) := by
  unfold State.endHalted
  dsimp only
  refine StaysPlain.trans ?_ staysPlain_dropWork
  refine StaysPlain.trans ?_ (State.finish_keep.staysPlain (by decide) (by decide))
  split
  · exact State.isoNotRun_keep.staysPlain (by decide) (by decide)
  · exact .rfl'

theorem staysPlain_completeHalted : StaysPlain s (s.completeHalted i) := by
  unfold State.completeHalted
  refine StaysPlain.foldl (fun z h => ?_) _ .rfl'
  split
  · exact .ite .rfl' staysPlain_endHalted
  · exact .rfl'

theorem staysPlain_haltIslet {r : Byte} : StaysPlain s (s.haltIslet i r) := by
  have after (z : State) (p : PortId) : StaysPlain z ((z.managerVectorPort p 1).ringMessages i) :=
    (State.managerVectorPort_keep.staysPlain (by decide) (by decide)).trans (State.ringMessages_keep.staysPlain (by decide) (by decide))
  have halted (w : IsletSt) : StaysPlain s ((s.setIslet i w).completeHalted i) :=
    staysPlain_setIslet.trans staysPlain_completeHalted
  unfold State.haltIslet
  dsimp only
  split
  · exact (halted _).trans (after _ _)
  · exact (halted _).trans (after _ _)
  · exact staysPlain_setIslet.trans (after _ _)
  · exact .rfl'

theorem staysPlain_restMode : StaysPlain s s.restMode := by
  unfold State.restMode
  dsimp only
  have entered : StaysPlain s (s.enterMode s.resting) := State.enterMode_keep.staysPlain (by decide) (by decide)
  generalize s.enterMode s.resting = z at entered
  refine .ite (entered.trans ?_) (.ite (entered.trans ?_) entered)
  · exact .ite (.foldl (fun _ _ => staysPlain_haltIslet) _ .rfl') .rfl'
  · exact .foldl (fun _ _ => State.leaveScreen_keep.staysPlain (by decide) (by decide)) _ .rfl'

theorem staysPlain_reModeFn : StaysPlain s s.reModeFn := .ite staysPlain_restMode .rfl'

theorem staysPlain_endRolling {k : Byte} : StaysPlain s (s.endRolling k) := by
  unfold State.endRolling
  split
  · exact .rfl'
  next r _ =>
    have ended : StaysPlain s ((s.setMode { s.mode with roll := none }).endCmd r.port .unitCmd k 0) :=
      staysPlain_setMode.trans (State.endCmd_keep.staysPlain (by decide) (by decide))
    exact .ite (ended.trans staysPlain_restMode) ended

/-! ### The seats' move -/

theorem staysPlain_abortGather {k : Nat} : StaysPlain s (s.abortGather h k) := by
  unfold State.abortGather
  dsimp only
  split
  · refine StaysPlain.trans ?_ (State.freed_keep.staysPlain (by decide) (by decide))
    refine StaysPlain.trans ?_ (State.edge_keep.staysPlain (by decide) (by decide))
    refine StaysPlain.trans ?_ (State.finish_keep.staysPlain (by decide) (by decide))
    generalize hz : State.setGather _ _ _ _ = z
    have set : StaysPlain s z := by
      rw [← hz]
      refine StaysPlain.trans ?_ (State.setGather_keep.staysPlain (by decide) (by decide))
      refine StaysPlain.foldl (fun w p => ?_) _ (State.dropReads_keep.staysPlain (by decide) (by decide))
      split
      · exact .ite (State.setPipe_keep.staysPlain (by decide) (by decide)) .rfl'
      · exact .rfl'
    exact ⟨set.lanes, fun plain => (set.plain plain).setHead (plain.head h)⟩
  · exact .rfl'

theorem staysPlain_readFailed {w : ReadFor} : StaysPlain s (s.readFailed w) := by
  unfold State.readFailed
  split
  · exact State.failOut_keep.staysPlain (by decide) (by decide)
  · exact (State.finish_keep.staysPlain (by decide) (by decide)).trans staysPlain_dropWork
  · split
    · exact staysPlain_abortGather
    · exact .rfl'
  · split
    · exact staysPlain_abortGather
    · exact .rfl'

theorem staysPlain_failRead : StaysPlain s (s.failRead n) := by
  unfold State.failRead
  split
  · exact .rfl'
  · refine .ite .rfl' (StaysPlain.trans ?_ staysPlain_readFailed)
    exact (State.readLatency_keep.staysPlain (by decide) (by decide)).trans (State.dropReads_keep.staysPlain (by decide) (by decide))

theorem staysPlain_moveReads {mine : HostRead → Bool} : StaysPlain s (s.moveReads x y mine) := by
  unfold State.moveReads
  refine StaysPlain.foldl (fun z e => ?_) _ .rfl'
  dsimp only
  have ended : StaysPlain z (z.endReqs fun w => w == .read e.1) := State.endReqs_keep.staysPlain (by decide) (by decide)
  generalize (z.endReqs fun w => w == .read e.1) = w at ended
  have put (l : Tab HostRead) : StaysPlain z (w.setHost { w.host with reads := l }) := ended.trans staysPlain_setHost
  refine .ite (put _) (.ite ?_ ?_)
  · exact ((put _).trans (State.failCount_keep.staysPlain (by decide) (by decide))).trans staysPlain_failRead
  · exact (put _).trans (State.addReqs_keep.staysPlain (by decide) (by decide))

theorem staysPlain_moveRequests : StaysPlain s (s.moveRequests x y) := by
  unfold State.moveRequests
  dsimp only
  refine StaysPlain.foldl (fun z f => State.pump_keep.staysPlain (by decide) (by decide)) _ ?_
  refine StaysPlain.trans ?_ staysPlain_moveReads
  refine StaysPlain.trans ?_ staysPlain_setHost
  exact State.dropReads_keep.staysPlain (by decide) (by decide)

theorem staysPlain_seatsLeave : StaysPlain s (s.seatsLeave x y) := by
  unfold State.seatsLeave
  refine StaysPlain.trans ?_ (State.dropStores_keep.staysPlain (by decide) (by decide))
  refine StaysPlain.trans ?_ staysPlain_moveRequests
  refine StaysPlain.foldl (fun z h => StaysPlain.ite .rfl' ?_) _ .rfl'
  exact staysPlain_setHead rfl

theorem staysPlain_moveSeat : StaysPlain s (s.moveSeat y a) := by
  unfold State.moveSeat
  refine StaysPlain.trans ?_ (State.settleSeat_keep.staysPlain (by decide) (by decide))
  refine StaysPlain.trans (t := s.dropSeatFrames a) (State.dropSeatFrames_keep.staysPlain (by decide) (by decide)) ?_
  exact ⟨sameReferee_seatTo.2.2, fun plain => plain.keep State.seatTo_keep (by decide)⟩

theorem staysPlain_seatsArrive {l : List Seat} : StaysPlain s (s.seatsArrive x y l n) := by
  unfold State.seatsArrive
  dsimp only
  refine StaysPlain.trans ?_ staysPlain_setCore
  refine StaysPlain.trans (t := ((s.clearFabric x).clearEngines x).regroupAll) ?_ ⟨rfl, fun plain => plain⟩
  refine StaysPlain.trans ?_ (State.regroupAll_keep.staysPlain (by decide) (by decide))
  exact (State.clearFabric_keep.staysPlain (by decide) (by decide)).trans (State.clearEngines_keep.staysPlain (by decide) (by decide))

theorem staysPlain_moveSeats {l : List Seat} : StaysPlain s (s.moveSeats x y l) := by
  rw [State.moveSeats_eq]
  exact (staysPlain_seatsLeave.trans (.foldl (fun _ _ => staysPlain_moveSeat) _ .rfl')).trans staysPlain_seatsArrive

/-! ### The referee's decisions -/

theorem staysPlain_fenceCore : StaysPlain s (s.fenceCore x n) :=
  ⟨sameReferee_fenceCore.2.2, fun plain => plain.keep State.fenceCore_keep (by decide)⟩

theorem staysPlain_moveToken : StaysPlain s (s.moveToken y) := by
  refine ⟨?_, fun plain => plain.keep State.moveToken_keep (by decide)⟩
  by_cases same : s.flt.token = y
  · rw [State.moveToken, if_pos same]
  · rw [State.moveToken_eq same]
    have token : (s.tokenTo y).flt.lanes = s.flt.lanes := by
      unfold State.tokenTo
      dsimp only
      have asked : (s.retryCmds fun x => x.op == 3 || x.op == 5).flt.lanes = s.flt.lanes := State.retryCmds_keep.lanes (by decide)
      generalize (s.retryCmds fun x => x.op == 3 || x.op == 5) = z at asked
      rw [State.privEdge_keep.lanes (by decide)]
      exact asked
    rw [State.consoleOut_keep.lanes (by decide)]
    split
    · rw [State.steerAgain_keep.lanes (by decide)]
      exact token
    · exact token

theorem staysPlain_fenceOnly : StaysPlain s (s.fenceOnly x) := by
  unfold State.fenceOnly
  dsimp only
  refine StaysPlain.trans ?_ (State.errLog_keep.staysPlain (by decide) (by decide))
  exact (staysPlain_fenceCore.trans staysPlain_setCore).trans staysPlain_settleCauseway

theorem State.failNoted_heads {row : Nat} : Keep (2 ^ 24 + 2 ^ 42) s (s.failNoted y row) := by
  have noted : Keep (2 ^ 24 + 2 ^ 42) s ((s.setCntCore y { s.cntCore y with bwUntil := s.ut y + 10000 * ms }).bwSettle y) :=
    Keep.step State.bwSettle_keep (by decide) (State.setCntCore_keep.weaken (by decide))
  exact Keep.ite (Keep.step State.errLog_keep (by decide) (Keep.step State.reasonOn_keep (by decide) noted)) noted

theorem staysPlain_failover {row : Nat} : StaysPlain s (s.failover x n row) := by
  rw [State.failover_eq]
  refine StaysPlain.trans ?_ staysPlain_reModeFn
  refine StaysPlain.trans ?_ staysPlain_endRolling
  refine StaysPlain.trans ?_ (State.errLog_keep.staysPlain (by decide) (by decide))
  refine StaysPlain.trans ?_ (State.errLog_keep.staysPlain (by decide) (by decide))
  refine StaysPlain.trans ?_ staysPlain_moveToken
  refine StaysPlain.trans ?_ (State.failNoted_heads.staysPlain (by decide) (by decide))
  unfold State.failAway
  dsimp only
  refine StaysPlain.trans ?_ (State.privEdge_keep.staysPlain (by decide) (by decide))
  refine StaysPlain.trans ?_ staysPlain_settleCauseway
  exact (staysPlain_fenceCore.trans staysPlain_setCore).trans staysPlain_moveSeats

theorem staysPlain_supervisorLost : StaysPlain s (s.supervisorLost x) := by
  unfold State.supervisorLost
  dsimp only
  split
  · exact .rfl'
  · have lost : StaysPlain s ((s.setCore x { s.coreSt x with sup := if (s.coreSt x).supRestarts then .lost else .restarting }).errLog
        ((s.setCore x { s.coreSt x with sup := if (s.coreSt x).supRestarts then .lost else .restarting }).logCore x) 0x24 x 4 x.num 0) :=
      staysPlain_setCore.trans (State.errLog_keep.staysPlain (by decide) (by decide))
    exact .ite lost (.ite (lost.trans staysPlain_moveToken) (lost.trans ⟨rfl, fun plain => plain⟩))

theorem staysPlain_unsupervise : StaysPlain s s.unsupervise := by
  have lost : StaysPlain s (bothCores.foldl (fun s c =>
      let v := s.coreSt c
      if v.fenced then s
      else
        let s := if v.sup = .running then s.errLog c 0x24 c 4 c.num 0 else s
        s.setCore c { s.coreSt c with sup := .lost }) s) := by
    refine .foldl (fun v c => .ite .rfl' (StaysPlain.trans ?_ staysPlain_setCore)) _ .rfl'
    exact .ite (State.errLog_keep.staysPlain (by decide) (by decide)) .rfl'
  refine ⟨?_, fun plain => plain.keep State.unsupervise_keep (by decide)⟩
  unfold State.unsupervise
  dsimp only
  split
  · generalize bothCores.foldl _ s = z at lost ⊢
    rw [State.reasonOn_keep.lanes (by decide), State.enterMode_keep.lanes (by decide), ← lost.lanes]
    split
    · exact (State.endCmd_keep (s := z.setMode _)).lanes (by decide)
    · rfl
  · rfl

theorem staysPlain_markFailed : StaysPlain s (s.markFailed bad) := by
  unfold State.markFailed
  dsimp only
  have marked : StaysPlain s (bothCores.foldl (fun s c => if bad c && s.serves c then
      ((s.setCore c { s.coreSt c with failed := true }).reasonOn 6).settleCauseway else s) s) := by
    refine .foldl (fun v c => .ite (StaysPlain.trans ?_ staysPlain_settleCauseway) .rfl') _ .rfl'
    exact staysPlain_setCore.trans (State.reasonOn_keep.staysPlain (by decide) (by decide))
  exact .ite (marked.trans (State.safeStop_keep.staysPlain (by decide) (by decide))) (marked.trans staysPlain_reModeFn)

theorem staysPlain_refereeEvaluate : StaysPlain s (s.refereeEvaluate bad) := by
  have stop : StaysPlain s (s.safeStop 2) := State.safeStop_keep.staysPlain (by decide) (by decide)
  unfold State.refereeEvaluate
  dsimp only
  split
  · exact .rfl'
  · split
    · exact .ite stop .rfl'
    · refine .ite (.ite staysPlain_markFailed .rfl') (.ite (.ite stop .rfl') (.ite (.ite staysPlain_fenceOnly staysPlain_failover) ?_))
      exact .ite staysPlain_failover (.ite staysPlain_unsupervise (.ite staysPlain_supervisorLost (.ite staysPlain_supervisorLost .rfl')))

theorem staysPlain_hardErr {code : Byte} : StaysPlain s (s.hardErr c code) := by
  unfold State.hardErr
  dsimp only
  split
  · exact .rfl'
  · refine StaysPlain.trans ?_ staysPlain_refereeEvaluate
    refine StaysPlain.trans ?_ (State.errLog_keep.staysPlain (by decide) (by decide))
    exact (State.memoryError_keep.staysPlain (by decide) (by decide)).trans staysPlain_setCore

end mirrors
end Sys2Proof.Machine

/-! PROOFS. Lanes of the causeway that are removed and rejoin (13 R351, R352). -/

namespace Sys2Proof.Machine

section lanes
variable {s t z : State} {c : CoreId} {n m : Fin 16} {l : BitVec 16} {k : Nat}

theorem getLsbD_bit16 : (bit16 n.val).getLsbD m.val = decide (m = n) := by
  have own : m.val < 16 := m.isLt
  rw [Bool.eq_iff_iff]
  simp only [bit16, BitVec.getLsbD_shiftLeft, BitVec.getLsbD_one, own, Fin.ext_iff, decide_true, Bool.true_and, Bool.and_eq_true,
    Bool.not_eq_true', decide_eq_false_iff_not, decide_eq_true_eq]
  omega

theorem getLsbD_laneCut : (l &&& ~~~bit16 n.val).getLsbD m.val = (l.getLsbD m.val && !decide (m = n)) := by
  have own : m.val < 16 := m.isLt
  rw [BitVec.getLsbD_and, BitVec.getLsbD_not, getLsbD_bit16]
  simp [own]

theorem getLsbD_laneBack : (l ||| bit16 n.val).getLsbD m.val = (l.getLsbD m.val || decide (m = n)) := by
  rw [BitVec.getLsbD_or, getLsbD_bit16]

/-! ### The lanes are set, and both cores hear of it -/

theorem State.pend_edgeBoth (c : CoreId) : (((s.edgeBoth k).evtCore c).pend (k / 64)).getLsbD (k % 64) = true := by
  cases c with
  | a => exact (raises_edge (s := s.edge .a k) (c := .b) (n := k) .a).2 _ _ State.pend_edge
  | b => exact State.pend_edge

/-- Both cores log an event about a lane. -/
def State.bothLog (s : State) (code sev loc : Nat) : State := bothCores.foldl (fun s c => s.errLog c code c sev loc 0) s

theorem State.bothLog_keep {code sev loc : Nat} : Keep (2 ^ 13 + 2 ^ 24 + 2 ^ 42) s (s.bothLog code sev loc) :=
  Keep.foldl Keep.rfl' fun _ _ => State.errLog_keep.weaken (by decide)

/-- The lanes change: the sources of the changed lane rise, both cores log it. -/
def State.laneChanged (s : State) (l : BitVec 16) (n code sev : Nat) : State := ((s.setLanes l).edgeBoth (296 + n)).bothLog code sev n

theorem State.laneChanged_leaves {code sev : Nat} (small : code < 2 ^ 16) : (s.laneChanged l n.val code sev).flt.lanes = l ∧
    (∀ c, Logged (s.laneChanged l n.val code sev) c code n.val) ∧
    (∀ c, (((s.laneChanged l n.val code sev).evtCore c).pend ((296 + n.val) / 64)).getLsbD ((296 + n.val) % 64) = true) := by
  have edges (z : State) : Keep (2 ^ 42) z (z.edgeBoth (296 + n.val)) :=
    Keep.step State.edge_keep (by decide) (State.edge_keep.weaken (by decide))
  unfold State.laneChanged
  refine ⟨?_, fun c => logged_both small (by omega) c, fun c => ?_⟩
  · rw [State.bothLog_keep.lanes (by decide), (edges _).lanes (by decide)]
    exact State.setLanes_lanes
  · rw [State.bothLog_keep.evtCore (by decide)]
    exact State.pend_edgeBoth c

theorem State.laneChanged_plain {code sev : Nat} : Plain (s.laneChanged 0 n.val code sev) := by
  have edges (z : State) : Keep (2 ^ 24) z (z.edgeBoth (296 + n.val)) :=
    Keep.step State.edge_keep (by decide) (State.edge_keep.weaken (by decide))
  unfold State.laneChanged
  refine Plain.keep (Plain.keep ?_ (edges _) (by decide)) State.bothLog_keep (by decide)
  unfold State.setLanes
  dsimp only
  have cut : Plain (s.setFlt { s.flt with lanes := 0 }).settleCauseway := State.settleCauseway_plain rfl
  generalize (s.setFlt { s.flt with lanes := 0 }).settleCauseway = w at cut
  have set : Keep (2 ^ 24) w (if (0 : BitVec 16) != 0 && (0 : BitVec 16) != 0xFFFF then w.reasonOn 8 else w.reasonOff 8) :=
    Keep.ite (State.reasonOn_keep.weaken (by decide)) (State.reasonOff_keep.weaken (by decide))
  refine cut.keep (K := 2 ^ 24) (Keep.ite ?_ ?_) (by decide)
  · exact Keep.step State.reasonOn_keep (by decide) set
  · exact Keep.step State.reasonOff_keep (by decide) set

/-! ### A lane is removed -/

theorem State.laneDown_eq (up : s.flt.lanes.getLsbD n.val = true) : s.laneDown n =
    let z := s.laneChanged (s.flt.lanes &&& ~~~bit16 n.val) n.val 0x30 4
    if z.flt.lanes = 0 then bothCores.foldl (fun z c => if (z.powCore c).onCausewayRef then z.hardErr c 6 else z) z.causewayGone else z := by
  unfold State.laneDown
  exact if_neg (by rw [up]; exact Bool.false_ne_true)

theorem staysPlain_causewayGone : StaysPlain s s.causewayGone := by
  unfold State.causewayGone
  dsimp only
  refine StaysPlain.trans ?_ (State.bothLog_keep.staysPlain (by decide) (by decide))
  refine StaysPlain.foldl (fun z i => StaysPlain.ite (State.lapse_keep.staysPlain (by decide) (by decide)) .rfl') _ ?_
  exact State.driftApart_keep.staysPlain (by decide) (by decide)

theorem staysPlain_laneLost :
    StaysPlain s (bothCores.foldl (fun z c => if (z.powCore c).onCausewayRef then z.hardErr c 6 else z) s.causewayGone) :=
  StaysPlain.foldl (fun _ _ => .ite staysPlain_hardErr .rfl') _ staysPlain_causewayGone

theorem yields_laneRemoved (up : s.flt.lanes.getLsbD n.val = true) : Yields (.laneRemoved n) s fun t =>
    t.flt.lanes.getLsbD n.val = false ∧ (∀ m : Fin 16, m ≠ n → t.flt.lanes.getLsbD m.val = s.flt.lanes.getLsbD m.val) ∧
    (t.flt.lanes ≠ 0 → ∀ c, Logged t c 0x30 n.val ∧ ((t.evtCore c).pend ((296 + n.val) / 64)).getLsbD ((296 + n.val) % 64) = true) ∧
    (t.flt.lanes = 0 → ∀ h, (t.head h).mirrored = false) := by
  refine ⟨_, congrArg Host.Outcome.next (State.laneDown_eq up), ?_⟩
  obtain ⟨lanes, noted, raised⟩ := s.laneChanged_leaves (l := s.flt.lanes &&& ~~~bit16 n.val) (n := n) (code := 0x30) (sev := 4) (by decide)
  have plain (none : s.flt.lanes &&& ~~~bit16 n.val = 0) : Plain (s.laneChanged (s.flt.lanes &&& ~~~bit16 n.val) n.val 0x30 4) := by
    rw [none]
    exact State.laneChanged_plain
  have cut : (s.flt.lanes &&& ~~~bit16 n.val).getLsbD n.val = false := by
    rw [getLsbD_laneCut]
    simp
  have others (m : Fin 16) (other : m ≠ n) : (s.flt.lanes &&& ~~~bit16 n.val).getLsbD m.val = s.flt.lanes.getLsbD m.val := by
    rw [getLsbD_laneCut]
    simp [other]
  generalize s.laneChanged (s.flt.lanes &&& ~~~bit16 n.val) n.val 0x30 4 = z at lanes noted raised plain
  generalize s.flt.lanes &&& ~~~bit16 n.val = l at lanes plain cut others
  dsimp only
  split
  next none =>
    have stays := staysPlain_laneLost (s := z)
    rw [stays.lanes, lanes]
    exact ⟨cut, others, fun some => absurd (lanes ▸ none) some,
      fun _ h => (stays.plain (plain (lanes ▸ none))).head h⟩
  next some =>
    rw [lanes]
    exact ⟨cut, others, fun _ c => ⟨noted c, raised c⟩, fun none => absurd (lanes.trans none) some⟩

/-! ### A lane rejoins -/

theorem State.laneUp_eq (down : s.flt.lanes.getLsbD n.val = false) : s.laneUp n =
    let z := s.laneChanged (s.flt.lanes ||| bit16 n.val) n.val 0x31 1
    if s.flt.lanes == 0 then z.steerAgain.bothLog 0x33 1 0 else z := by
  unfold State.laneUp
  exact if_neg (by rw [down]; exact Bool.false_ne_true)

theorem yields_laneRetrain (down : s.flt.lanes.getLsbD n.val = false) : Yields (.laneRetrain n true) s fun t =>
    t.flt.lanes.getLsbD n.val = true ∧ (∀ m : Fin 16, m ≠ n → t.flt.lanes.getLsbD m.val = s.flt.lanes.getLsbD m.val) ∧
    ∀ c, (s.flt.lanes ≠ 0 → Logged t c 0x31 n.val) ∧ ((t.evtCore c).pend ((296 + n.val) / 64)).getLsbD ((296 + n.val) % 64) = true := by
  refine ⟨_, congrArg Host.Outcome.next (State.laneUp_eq down), ?_⟩
  obtain ⟨lanes, noted, raised⟩ := s.laneChanged_leaves (l := s.flt.lanes ||| bit16 n.val) (n := n) (code := 0x31) (sev := 1) (by decide)
  have back : (s.flt.lanes ||| bit16 n.val).getLsbD n.val = true := by
    rw [getLsbD_laneBack]
    simp
  have others (m : Fin 16) (other : m ≠ n) : (s.flt.lanes ||| bit16 n.val).getLsbD m.val = s.flt.lanes.getLsbD m.val := by
    rw [getLsbD_laneBack]
    simp [other]
  generalize s.laneChanged (s.flt.lanes ||| bit16 n.val) n.val 0x31 1 = z at lanes noted raised
  have steered : Keep (2 ^ 13 + 2 ^ 42) z (z.steerAgain.bothLog 0x33 1 0) :=
    Keep.step State.bothLog_keep (by decide) (State.steerAgain_keep.weaken (by decide))
  dsimp only
  split
  next first =>
    rw [steered.lanes (by decide), lanes]
    refine ⟨back, others, fun c => ⟨fun some => absurd (beq_iff_eq.mp first) some, ?_⟩⟩
    rw [steered.evtCore (by decide)]
    exact raised c
  next =>
    rw [lanes]
    exact ⟨back, others, fun c => ⟨fun _ => noted c, raised c⟩⟩

end lanes
end Sys2Proof.Machine

/-! PROOFS. Memory errors (13 R353 to R355). -/

namespace Sys2Proof.Machine

section memory
variable {s t z : State} {c : CoreId} {h : HeadNo} {i : IsletNo} {ch : Fin 6} {n line K : Nat}

/-! ### Correctable errors (R353, R354) -/

theorem yields_correctableError :
    (∀ ch : Fin 6, Yields (.correctableError c (.dram ch) n) s fun t => Logged t c 0x01 ch.val ∧
      ((t.evtCore c).pend 4).getLsbD (34 + ch.val) = true) ∧
    Yields (.correctableError c .outputBuffer n) s fun t => Logged t c 0x10 0 ∧ ((t.evtCore c).pend 4).getLsbD 58 = true := by
  refine ⟨fun ch => ⟨((s.count c 0x080 [] 1).edge c (290 + ch.val)).errLog c 0x01 c 0 ch.val n, rfl,
      State.errLog_logged (by decide) (by omega), ?_⟩,
    ⟨((s.count c 0x081 [] 1).edge c 314).errLog c 0x10 c 0 0 n, rfl, State.errLog_logged (by decide) (by decide), ?_⟩⟩
  · rw [State.errLog_keep.evtCore (by decide)]
    have raised := (s.count c 0x080 [] 1).pend_edge (c := c) (n := 290 + ch.val)
    rw [show (290 + ch.val) / 64 = 4 by omega, show (290 + ch.val) % 64 = 34 + ch.val by omega] at raised
    exact raised
  · rw [State.errLog_keep.evtCore (by decide)]
    exact (s.count c 0x081 [] 1).pend_edge (c := c) (n := 314)

/-! ### Uncorrectable errors of display memory (R355) -/

theorem State.needRefresh_leaves : ((s.needRefresh h).head h).refresh = true := by
  unfold State.needRefresh
  split
  · assumption
  · rw [State.headChange_keep.head (by decide), State.head_setHead]

theorem yields_refFrame (on : (s.head h).st = .attached) : Yields (.uncorrectableDramError c (.refFrame h) ch n) s fun t =>
    (t.head h).refresh = true ∧ Logged t c 0x02 h.val := by
  have noted : Logged ((s.edge c (290 + ch.val)).errLog c 0x02 c 2 h.val n) c 0x02 h.val := State.errLog_logged (by decide) (by omega)
  have kept : Keep (2 ^ 24) s ((s.edge c (290 + ch.val)).errLog c 0x02 c 2 h.val n) :=
    Keep.step State.errLog_keep (by decide) (State.edge_keep.weaken (by decide))
  have same := kept.head (by decide) h
  generalize held : (s.edge c (290 + ch.val)).errLog c 0x02 c 2 h.val n = z at noted kept same
  have run : exec (.uncorrectableDramError c (.refFrame h) ch n) s = .next (if (z.head h).st = .attached then z.needRefresh h else z) := by
    rw [← held]
    rfl
  rw [if_pos (by rw [same]; exact on)] at run
  refine ⟨_, run, State.needRefresh_leaves, ?_⟩
  exact noted.keep State.needRefresh_keep (by decide)

theorem yields_mirror : Yields (.uncorrectableDramError c (.mirror h) ch n) s fun t =>
    (t.head h).mirrored = false ∧ Logged t c 0x04 h.val := by
  refine ⟨((s.edge c (290 + ch.val)).setHead h { (s.edge c (290 + ch.val)).head h with mirrored := false }).errLog c 0x04 c 1 h.val n,
    rfl, ?_, State.errLog_logged (by decide) (by omega)⟩
  rw [State.errLog_keep.head (by decide)]
  exact congrArg HeadSt.mirrored (State.head_setHead _ _ _)

/-- The slices of a head whose slice store is lost are taken again. -/
def State.storeLost (s : State) (c : CoreId) (h : HeadNo) : State :=
  let s := s.setHead h { s.head h with store := [], todo := allPositions (s.head h).timing.v }
  ((s.viewers h).foldl (fun s o => s.takeStoreLost o) s).feedPipes c

theorem State.storeLost_leaves : (s.storeLost c h).head h = { s.head h with store := [], todo := allPositions (s.head h).timing.v } ∧
    Keep (2 ^ 44) s (s.storeLost c h) := by
  have after (z : State) (l : List HeadNo) : Keep (2 ^ 24 + 2 ^ 44) z ((l.foldl (fun s o => s.takeStoreLost o) z).feedPipes c) :=
    Keep.step State.feedPipes_keep (by decide) (Keep.foldl Keep.rfl' fun _ _ => State.takeStoreLost_keep.weaken (by decide))
  refine ⟨((after _ _).head (by decide) h).trans (State.head_setHead _ _ _), ?_⟩
  exact Keep.trans ((State.setHead_keep (h := h)).weaken (by decide)) ((after _ _).weaken (by decide))

theorem yields_sliceStore (on : (s.head h).st = .attached) : Yields (.uncorrectableDramError c (.sliceStore h) ch n) s fun t =>
    (t.head h).store = [] ∧ (t.head h).todo = allPositions (s.head h).timing.v ∧ Logged t c 0x03 h.val := by
  have noted : Logged ((s.edge c (290 + ch.val)).errLog c 0x03 c 1 h.val n) c 0x03 h.val := State.errLog_logged (by decide) (by omega)
  have kept : Keep (2 ^ 24) s ((s.edge c (290 + ch.val)).errLog c 0x03 c 1 h.val n) :=
    Keep.step State.errLog_keep (by decide) (State.edge_keep.weaken (by decide))
  have same := kept.head (by decide) h
  generalize held : (s.edge c (290 + ch.val)).errLog c 0x03 c 1 h.val n = z at noted kept same
  obtain ⟨head, logs⟩ := z.storeLost_leaves (c := c) (h := h)
  have run : exec (.uncorrectableDramError c (.sliceStore h) ch n) s = .next (if (z.head h).st = .attached then z.storeLost c h else z) := by
    rw [← held]
    rfl
  rw [if_pos (by rw [same]; exact on)] at run
  refine ⟨_, run, ?_⟩
  dsimp only
  rw [head, same]
  exact ⟨rfl, rfl, noted.keep logs (by decide)⟩

/-! ### Uncorrectable errors of an islet's ISW, of a supervisor, of the rest (R355) -/

theorem Keep.protects (kept : Keep K s t) (islets : K.testBit 5 = true) (cores : K.testBit 42 = true) (i : IsletNo) :
    t.protects i = s.protects i := by
  unfold State.protects State.twinUp State.causewayUp State.serves
  simp only [kept.islet islets, kept.lanes cores, kept.coreSt cores]

theorem State.iswLine_leaves : readBytes ((s.iswLine c i line n).isw c i) (64 * line) 64 =
      (if s.protects i = true then readBytes (s.isw c.twin i) (64 * line) 64 else List.replicate 64 0) ∧
    Logged (s.iswLine c i line n) c (if s.protects i = true then 0x05 else 0x06) i.val := by
  have back {m : Memory} {b : List Byte} (long : b.length = 64) : readBytes (writeBytes m (64 * line) b) (64 * line) 64 = b := by
    have read := readBytes_writeBytes b m (64 * line)
    rw [long] at read
    exact read
  unfold State.iswLine
  dsimp only
  split
  · refine ⟨?_, State.errLog_logged (by decide) (by omega)⟩
    rw [State.errLog_keep.isw (by decide), State.isw_setIsw]
    exact back (readBytes_length _ _ _)
  · refine ⟨?_, State.errLog_logged (by decide) (by omega)⟩
    rw [State.errLog_keep.isw (by decide), State.isw_setIsw]
    exact back List.length_replicate

theorem yields_iswLine : Yields (.uncorrectableDramError c (.isw i line) ch n) s fun t =>
    readBytes (t.isw c i) (64 * line) 64 =
      (if s.protects i = true then readBytes (s.isw c.twin i) (64 * line) 64 else List.replicate 64 0) ∧
    Logged t c (if s.protects i = true then 0x05 else 0x06) i.val := by
  obtain ⟨line', noted⟩ := (s.edge c (290 + ch.val)).iswLine_leaves (c := c) (i := i) (line := line) (n := n)
  rw [State.edge_keep.protects (by decide) (by decide), State.edge_keep.isw (by decide)] at line'
  rw [State.edge_keep.protects (by decide) (by decide)] at noted
  exact ⟨_, rfl, line', noted⟩

theorem State.supervisorLost_sup (up : (s.coreSt c).fenced = false) (runs : (s.coreSt c).sup = .running) :
    ((s.supervisorLost c).coreSt c).sup = if (s.coreSt c).supRestarts = true then .lost else .restarting := by
  unfold State.supervisorLost
  dsimp only
  rw [if_neg (by simp [up, runs])]
  have core : (s.setCore c { s.coreSt c with sup := if (s.coreSt c).supRestarts then .lost else .restarting }).coreSt c =
      { s.coreSt c with sup := if (s.coreSt c).supRestarts then .lost else .restarting } := State.coreSt_setCore _ _ _
  generalize s.setCore c { s.coreSt c with sup := if (s.coreSt c).supRestarts then .lost else .restarting } = z at core
  have lost : ((z.errLog (z.logCore c) 0x24 c 4 c.num 0).coreSt c).sup = if (s.coreSt c).supRestarts = true then .lost else .restarting := by
    rw [State.errLog_keep.coreSt (by decide), core]
  generalize z.errLog (z.logCore c) 0x24 c 4 c.num 0 = w at lost
  split
  · exact lost
  · split
    · rw [w.moveToken_leaves.1.cores]
      exact lost
    · cases c <;> exact lost

theorem yields_supervisorMemory (up : (s.coreSt c).fenced = false) (runs : (s.coreSt c).sup = .running) :
    Yields (.uncorrectableDramError c .supervisor ch n) s fun t =>
      (t.coreSt c).sup = if (s.coreSt c).supRestarts = true then .lost else .restarting := by
  have kept : Keep (2 ^ 42) s ((s.privEdge c 32 2).errLog c 0x15 c 1 0 n) :=
    Keep.step State.errLog_keep (by decide) (State.privEdge_keep.weaken (by decide))
  have same := kept.coreSt (by decide) c
  have lost := ((s.privEdge c 32 2).errLog c 0x15 c 1 0 n).supervisorLost_sup (c := c) (by rw [same]; exact up) (by rw [same]; exact runs)
  rw [same] at lost
  exact ⟨_, rfl, lost⟩

theorem yields_otherMemory (up : (s.coreSt c).fenced = false) :
    Yields (.uncorrectableDramError c .other ch n) s fun t => (t.coreSt c).hardError = 2 := by
  have kept : Keep (2 ^ 42) s ((s.edge c (290 + ch.val)).errLog ((s.edge c (290 + ch.val)).logCore c) 0x07 c 3 ch.val n) :=
    Keep.step State.errLog_keep (by decide) (State.edge_keep.weaken (by decide))
  have same := kept.coreSt (by decide) c
  generalize held : (s.edge c (290 + ch.val)).errLog ((s.edge c (290 + ch.val)).logCore c) 0x07 c 3 ch.val n = z at kept same
  have run : exec (.uncorrectableDramError c .other ch n) s = .next (z.hardErr c 2) := by
    rw [← held]
    rfl
  exact ⟨_, run, (State.hardErr_leaves (by rw [same]; exact up) (by decide) (by decide)).1⟩

end memory
end Sys2Proof.Machine

/-! PROOFS. The phases of a rolling update (12 R331 to R333). -/

namespace Sys2Proof.Machine

section rolling
variable {s t z : State} {c x y : CoreId} {r : RollSt} {ok fb : Bool} {k : Byte} {n : Nat}

/-! ### The end of a rolling update -/

/-- The resting mode is taken with no more of the mode's record than the mode before. -/
theorem State.restMode_rest : ∃ p, s.restMode.mode.RestOf { s.mode with prev := p } := by
  have entered : ∃ p, (s.enterMode s.resting).mode.RestOf { s.mode with prev := p } := by
    by_cases same : s.resting = s.mode.mode
    · rw [State.enterMode, if_pos same]
      exact ⟨s.mode.prev, rfl⟩
    · exact ⟨s.mode.mode, (State.enterMode_eq same).mode_rest (by decide)⟩
  obtain ⟨p, rest⟩ := entered
  refine ⟨p, ?_⟩
  unfold State.restMode
  dsimp only
  generalize s.enterMode s.resting = z at rest
  have after : Keep (2 ^ 40) z (if s.mode.mode ≠ .orphaned ∧ z.mode.mode = .orphaned then z.orphan
      else if (s.mode.mode = .orphaned ∨ s.mode.mode = .unsupervised) ∧ z.mode.mode ≠ .orphaned then
        (List.finRange 128).foldl (fun s o => s.leaveScreen o) z
      else z) := by
    refine Keep.ite ?_ (Keep.ite ?_ Keep.rfl')
    · exact Keep.ite (Keep.foldl Keep.rfl' fun _ _ => State.haltIslet_keep.weaken (by decide)) Keep.rfl'
    · exact Keep.foldl Keep.rfl' fun _ _ => State.leaveScreen_keep.weaken (by decide)
  exact rest.trans (after.mode_rest (by decide))

theorem State.endRolling_leaves : (s.endRolling k).mode.roll = none ∧ (s.endRolling k).mode.bootSlot = s.mode.bootSlot := by
  unfold State.endRolling
  split
  next none => exact ⟨none, rfl⟩
  next r _ =>
    have ended : ((s.setMode { s.mode with roll := none }).endCmd r.port .unitCmd k 0).mode = { s.mode with roll := none } :=
      State.endCmd_mode
    generalize (s.setMode { s.mode with roll := none }).endCmd r.port .unitCmd k 0 = z at ended
    dsimp only
    split
    · obtain ⟨p, rest⟩ := z.restMode_rest
      rw [ended] at rest
      exact ⟨rest.eq (f := ModeSt.roll) rfl, rest.eq (f := ModeSt.bootSlot) rfl⟩
    · rw [ended]
      exact ⟨rfl, rfl⟩

/-! ### The phases that move seats and the token -/

theorem State.setRoll_roll : (s.setRoll r).mode.roll = some r := rfl

/-- After the hand-over every seat is served as before. -/
theorem State.handOver_serving {h f b : CoreId} {l : Bool} (a : Seat) : (s.handOver h f b l).servingCore a = s.servingCore a := by
  unfold State.handOver
  extract_lets seats moved src w p q d sg rg g outs sh m
  have islets : Keep (2 ^ 42) w p := by
    refine Keep.foldl Keep.rfl' fun v i => Keep.ite Keep.rfl' ?_
    have adopted : Keep (2 ^ 42) v (if (v.islet i).guarded then v.adoptIslet h b i else v.loseQueues h i) :=
      Keep.ite (State.adoptIslet_keep.weaken (by decide)) (State.loseQueues_keep.weaken (by decide))
    exact Keep.ite (Keep.step State.setIslet_keep (by decide) adopted) adopted
  have seated : Keep (2 ^ 42) w q := Keep.foldl islets fun _ _ => State.adoptSeat_keep.weaken (by decide)
  have wiped : Keep (2 ^ 42) w d := Keep.ite seated (Keep.foldl seated fun _ _ => Keep.setIsw Keep.rfl' (by decide) fun _ => rfl)
  have grouped : Keep (2 ^ 42) w rg := Keep.step State.regroupAll_keep (by decide) (Keep.step State.settleGroups_keep (by decide) wiped)
  have sent : Keep (2 ^ 42) w g := Keep.foldl grouped fun _ _ => State.sendOwed_keep.weaken (by decide)
  have shown : Keep (2 ^ 42) w sh := Keep.foldl sent fun _ _ => State.resendView_keep.weaken (by decide)
  have fed : Keep (2 ^ 42) w m :=
    Keep.step State.feedPipes_keep (by decide) (Keep.foldl shown fun _ _ => State.rehome_keep.weaken (by decide))
  have serves : w.servingCore a = s.servingCore a := rfl
  clear_value m w
  rw [← serves]
  refine Keep.servingCore (K := 2 ^ 42) (Keep.ite (Keep.foldl fed fun _ _ => Keep.ite ?_ Keep.rfl') fed) (by decide) a
  exact State.lapse_keep.weaken (by decide)

/-- The seats of a core move to its twin (phases 2 and 7). -/
theorem State.rollOut_serving (a : Seat) : (s.rollOut x).servingCore a = x.twin := by
  unfold State.rollOut
  dsimp only
  have gone : Keep (2 ^ 42) s ((s.seatsOf x).foldl (fun s a => s.discardSeat x a) s) :=
    Keep.foldl Keep.rfl' fun _ _ => State.discardSeat_keep.weaken (by decide)
  generalize hz : (s.seatsOf x).foldl (fun s a => s.discardSeat x a) s = z at gone
  have seats : s.seatsOf x = z.seatsOf x := (State.seatsOf_congr fun a => gone.servingCore (by decide) a).symm
  rw [seats, State.settleCauseway_keep.servingCore (by decide)]
  have core (w : State) (v : CoreSt) : (w.setCore x v).servingCore a = w.servingCore a := by cases x <;> rfl
  rw [core, State.handOver_serving]
  exact z.moveSeats_leaves.1 a

/-! ### A core's restart (R333) -/

/-- A core that does not restart is fenced, its islets' protection lapses. -/
def State.rollFenced (s : State) (x : CoreId) : State :=
  let s := (s.setCore x { s.coreSt x with failed := false }).fenceCore x 5
  let s := (s.errLog x.twin 0x22 x 3 x.num 0).settleCauseway
  allIslets.foldl (fun s i => if (s.islet i).st != .free && (s.islet i).prot then s.lapse i else s) s

theorem State.rollFenced_fenced : ((s.rollFenced x).coreSt x).fenced = true := by
  have after (z : State) : Keep (2 ^ 42) z (allIslets.foldl (fun s i => if (s.islet i).st != .free && (s.islet i).prot then s.lapse i else s)
      (z.errLog x.twin 0x22 x 3 x.num 0).settleCauseway) := by
    refine Keep.foldl ?_ fun v i => Keep.ite (State.lapse_keep.weaken (by decide)) Keep.rfl'
    exact Keep.step State.settleCauseway_keep (by decide) (State.errLog_keep.weaken (by decide))
  unfold State.rollFenced
  dsimp only
  rw [(after _).coreSt (by decide)]
  exact State.fenceCore_leaves.1

theorem State.rollStarted_not : s.rollStarted r x n false false = (s.rollFenced x).endRolling 0x26 := by
  rw [State.rollStarted, if_neg Bool.false_ne_true, if_neg Bool.false_ne_true, State.rollFenced]

theorem State.rollStarted_ok : s.rollStarted r x n true fb = (s.setRunning x (slotOf r.slot)).setRoll { r with phase := n } := rfl

/-! ### The phases -/

theorem State.rollStep_of (stands : ¬ (s.flt.refereeLost && [2, 5, 6, 7, 10].contains r.phase) = true) : s.rollStep r ok fb =
    match r.phase with
    | 1 => s.setRoll { r with phase := 2 }
    | 2 => (s.rollOut r.x).setRoll { r with phase := 3 }
    | 3 => s.rollStarted r r.x 4 ok fb
    | 4 => (s.copyToTwin r.x r.x.twin).setRoll { r with phase := 5 }
    | 5 => if r.failed then (s.rollBack r.x).endRolling 0x26 else (s.rollBack r.x).setRoll { r with phase := 6 }
    | 6 => (s.moveToken r.x).setRoll { r with phase := 7 }
    | 7 => (s.rollOut r.x.twin).setRoll { r with phase := 8 }
    | 8 => s.rollStarted r r.x.twin 9 ok fb
    | 9 => (s.copyToTwin r.x.twin r.x).setRoll { r with phase := 10 }
    | 10 => if r.failed then (s.rollBack r.x.twin).endRolling 0x26 else (s.rollBack r.x.twin).setRoll { r with phase := 11 }
    | _ => ((s.setMode { s.mode with bootSlot := r.slot, goldenHeld := false, verified := slotOf r.slot, onGolden := false }).storeUpdate
        fun t => { t with bootSlot := r.slot }).endRolling 0x00 := by
  rw [State.rollStep]
  exact if_neg stands

theorem rollingUpdatePhaseDone_runs (rolling : s.mode.roll = some r) :
    exec (.rollingUpdatePhaseDone ok fb) s = .next (s.rollStep r ok fb) := by
  have run : exec (.rollingUpdatePhaseDone ok fb) s = .next (match s.mode.roll with
    | some r => s.rollStep r ok fb
    | none => s) := rfl
  rw [run, rolling]

theorem yields_rollingUpdatePhaseDone (rolling : s.mode.roll = some r) :
    (r.phase = 1 → Yields (.rollingUpdatePhaseDone ok fb) s fun t => t.mode.roll = some { r with phase := 2 }) ∧
    (r.phase = 2 → s.flt.refereeLost = false → Yields (.rollingUpdatePhaseDone ok fb) s fun t => t.mode.roll = some { r with phase := 3 } ∧
      ∀ x, s.servingCore x = r.x → t.servingCore x = r.x.twin) ∧
    (r.phase = 3 → ok = true → Yields (.rollingUpdatePhaseDone ok fb) s fun t => t.mode.roll = some { r with phase := 4 } ∧
      (match r.x with
        | .a => t.mode.runningA
        | .b => t.mode.runningB) = slotOf r.slot) ∧
    (r.phase = 6 → s.flt.refereeLost = false → Yields (.rollingUpdatePhaseDone ok fb) s fun t => t.mode.roll = some { r with phase := 7 } ∧ t.flt.token = r.x) ∧
    ((r.phase = 3 ∨ r.phase = 8) → ok = false → fb = false → Yields (.rollingUpdatePhaseDone ok fb) s fun t =>
      t.mode.roll = none ∧ (t.coreSt (if r.phase = 3 then r.x else r.x.twin)).fenced = true) ∧
    (r.phase = 11 → Yields (.rollingUpdatePhaseDone ok fb) s fun t => t.mode.roll = none ∧ t.mode.bootSlot = r.slot ∧
      t.stored.bootSlot = r.slot) := by
  have run := rollingUpdatePhaseDone_runs (ok := ok) (fb := fb) rolling
  have fences (x : CoreId) : ((s.rollFenced x).endRolling 0x26).mode.roll = none ∧ (((s.rollFenced x).endRolling 0x26).coreSt x).fenced = true := by
    rw [State.endRolling_keep.coreSt (by decide)]
    exact ⟨State.endRolling_leaves.1, State.rollFenced_fenced⟩
  refine ⟨fun phase => ⟨_, run, ?_⟩, fun phase referee => ⟨_, run, ?_⟩, fun phase good => ⟨_, run, ?_⟩, fun phase referee => ⟨_, run, ?_⟩,
    fun phase bad none => ⟨_, run, ?_⟩, fun phase => ⟨_, run, ?_⟩⟩
  · rw [State.rollStep_of (by simp [phase]), phase]
    rfl
  · rw [State.rollStep_of (by simp [referee]), phase]
    exact ⟨rfl, fun x _ => State.rollOut_serving x⟩
  · rw [State.rollStep_of (by simp [phase]), phase, good]
    refine ⟨rfl, ?_⟩
    cases r.x <;> rfl
  · rw [State.rollStep_of (by simp [referee]), phase]
    exact ⟨rfl, State.moveToken_leaves.2⟩
  · subst bad none
    obtain three | eight := phase
    · have goes : s.rollStep r false false = s.rollStarted r r.x 4 false false := by
        rw [State.rollStep_of (by simp [three]), three]
        rfl
      rw [goes, State.rollStarted_not, if_pos three]
      exact fences r.x
    · have goes : s.rollStep r false false = s.rollStarted r r.x.twin 9 false false := by
        rw [State.rollStep_of (by simp [eight]), eight]
        rfl
      rw [goes, State.rollStarted_not, if_neg (by rw [eight]; decide)]
      exact fences r.x.twin
  · have goes : s.rollStep r ok fb = ((s.setMode { s.mode with
        bootSlot := r.slot, goldenHeld := false, verified := slotOf r.slot, onGolden := false }).storeUpdate
          fun t => { t with bootSlot := r.slot }).endRolling 0x00 := by
      rw [State.rollStep_of (by simp [phase]), phase]
      rfl
    rw [goes]
    generalize hz : s.setMode { s.mode with bootSlot := r.slot, goldenHeld := false, verified := slotOf r.slot, onGolden := false } = z
    have slot : (z.storeUpdate fun t => { t with bootSlot := r.slot }).mode.bootSlot = r.slot := by
      rw [← hz]
      rfl
    have stored : (z.storeUpdate fun t => { t with bootSlot := r.slot }).stored.bootSlot = r.slot := by
      rw [State.stored_storeUpdate]
    generalize (z.storeUpdate fun t => { t with bootSlot := r.slot }) = w at slot stored
    obtain ⟨ended, boot⟩ := w.endRolling_leaves (k := 0x00)
    refine ⟨ended, boot.trans slot, ?_⟩
    rw [State.endRolling_keep.stored (by decide)]
    exact stored

end rolling

/-- Settles O38. Both cores log a lane that goes (log entry 64, DEDUCED), and its source rises again as it rejoins (log entry
133, DEDUCED); a rolling update stands while the referee is lost (log entry 114, DESIGN CHOICE). -/
theorem recoveryCommands : Obligations.RecoveryCommands := by
  unfold Obligations.RecoveryCommands
  exact ⟨fun c s back up => yields_supervisorRestartDone back up,
    fun c k ut s u arrived known => yields_refereeLost arrived known,
    fun ut s u arrived lost => yields_refereeReturned arrived lost,
    fun n s up => yields_laneRemoved up, fun n s down => yields_laneRetrain down,
    fun ut s u arrived up => yields_causewayTimeSample arrived up,
    fun ut s slow small later => steering_bound slow small later,
    fun c n s => yields_correctableError,
    fun c ch n s => ⟨fun h on => yields_refFrame on, fun h => yields_mirror, fun h on => yields_sliceStore on, fun i line => yields_iswLine,
      fun up runs => yields_supervisorMemory up runs, fun up => yields_otherMemory up⟩,
    fun ok fb r s rolling => yields_rollingUpdatePhaseDone rolling⟩

end Sys2Proof.Machine
